-- ==== Sys2Proof/Word.lean ====
section
/-! DEFINITION. The word types of the model and their plainest arithmetic. -/

namespace Sys2Proof

/-- One byte. -/
abbrev Byte := BitVec 8

/-- A 32-bit command dword (R4: little-endian everywhere). -/
abbrev Dword := BitVec 32

/-- A 64-bit register or pointer. -/
abbrev Qword := BitVec 64

/-- The 4,096 data bytes of an LBA and its metadata bytes (Table 6-3 DATA and META), each as one
little-endian number; a unit that reads as zeros has data 0. -/
structure Block where
  bits : Nat := 0
  md : Nat := 0
  deriving DecidableEq, Repr, Inhabited

/-- The 64 metadata bytes of 0xFF that a read of an unwritten LBA returns (R152, R164). -/
def mdOnes : Nat := 2 ^ 512 - 1

/-- What a read of an unwritten or deallocated LBA returns: zeros, with metadata bytes of 0xFF. -/
def Block.zero : Block := { bits := 0, md := mdOnes }

/-- Add, saturating at the largest value of a `w`-bit field. -/
def satAdd (w a b : Nat) : Nat := min (a + b) (2 ^ w - 1)

/-- Add, wrapping in a `w`-bit field. -/
def wrapAdd (w a b : Nat) : Nat := (a + b) % 2 ^ w

/-- The field of `len` bits of `x` that starts at bit `lo`. -/
def bitsAt (x lo len : Nat) : Nat := (x >>> lo) % 2 ^ len

/-- Bit `i` of `x`. -/
def bitAt (x i : Nat) : Bool := x.testBit i

/-- Division rounded up; 0 for a divisor of 0. -/
def ceilDiv (a b : Nat) : Nat := if b = 0 then 0 else (a + b - 1) / b

end Sys2Proof
end

