-- ==== Sys2Proof/Syntax.lean ====
section
/-! DEFINITION. The commands of the block: one constructor of `Instr` per row of spec/opcode_table.json, in the table's
order, with the operands the row needs. An operand is what the row's sender or its event brings from outside the device:
a register value, the bytes read from host memory, the outcome of a physical event. A row that names a command context
carries the context's index; the command's own fields stand in that context. -/

namespace Sys2Proof

/-- A submission queue entry as fetched (Table 4-15 SQE). -/
structure Sqe where
  opc : Nat := 0
  flags : Nat := 0
  cid : Nat := 0
  nsid : Nat := 0
  cdw2 : Dword := 0
  cdw3 : Dword := 0
  mptr : Qword := 0
  prp1 : Qword := 0
  prp2 : Qword := 0
  cdw10 : Dword := 0
  cdw11 : Dword := 0
  cdw12 : Dword := 0
  cdw13 : Dword := 0
  cdw14 : Dword := 0
  cdw15 : Dword := 0
  deriving DecidableEq, Repr, Inhabited

/-- The three transfer classes of the island network (R24). -/
inductive XClass where
  | request
  | response
  | data
  deriving DecidableEq, Repr, Inhabited

/-- What a line's checks gave at an island edge or memory read (R26, R340): the first read, the second read, and the
failing bit mask (the XOR of bad and good content). -/
structure LineCheck where
  firstOk : Bool := true
  secondOk : Bool := true
  mask : Nat := 0
  deriving DecidableEq, Repr, Inhabited

/-- What a transfer carries (R17, R26, R321, R340, R354). -/
inductive Payload where
  /-- a request, response or line with nothing to check -/
  | plain
  /-- a data transfer whose line CRC the destination checks; `mc` is the memory class the line came from and `line` its
  address there -/
  | line (mc line : Nat) (chk : LineCheck)
  /-- a read of a line of memory class `mc`, kind `j` of MIC_MEM, in the destination island (R340) -/
  | readLine (mc j line : Nat) (chk : LineCheck)
  /-- a write of a line of memory class `mc`, kind `j` of MIC_MEM, in the destination island (R354) -/
  | writeLine (mc j line : Nat)
  /-- a write toward host memory of slice `slice`, tagged with generation `gen` (R321) -/
  | egress (slice gen : Nat)
  deriving DecidableEq, Repr, Inhabited

/-- One island-to-island transfer (R17): its class, its islands, and for a command the context it serves. -/
structure Transfer where
  cls : XClass := .request
  src : Nat := 0
  dst : Nat := 0
  ctx : Option Nat := none
  body : Payload := .plain
  deriving DecidableEq, Repr, Inhabited

/-- What the power controller of AON estimates at an epoch's start (R39), in centiwatts. -/
structure PowerEst where
  deviceCw : Nat := 0
  vddCoreCw : Nat := 0
  deriving DecidableEq, Repr, Inhabited

/-- A request that reaches a die scheduler (R184, R187). -/
inductive DispatchReq where
  /-- unit `u` of the read in context `c` -/
  | read (c u : Nat)
  /-- the program of a FULL stripe row on its dies -/
  | programRow (row : Nat)
  /-- the landing copy, FUA landing or landing after PFAIL_N of a stripe -/
  | landing (stripe : Nat)
  /-- a released block's erase -/
  | erase (die block : Nat)
  /-- a patrol read of a codeword, class 7 -/
  | patrol (unit : Nat)
  deriving DecidableEq, Repr, Inhabited

/-- The outcome of one read of a codeword (R191, R194): whether it decoded at this read, by hard decode or, with the reads before it,
by soft decode; whether its tags then matched (R176); its corrected bits and the counts per read level. -/
structure Decode where
  ok : Bool := true
  tagOk : Bool := true
  cbits : Nat := 0
  nHi : List Nat := []
  nLo : List Nat := []
  deriving DecidableEq, Repr, Inhabited

/-- What a die reports at the end of an operation (R102, R182, R191). -/
inductive DieResult where
  | read (d : Decode)
  /-- the transfer of a read failed its CRC (R174) -/
  | crc
  | pass
  | fail
  deriving DecidableEq, Repr, Inhabited

/-- Statuses of a malformed data pointer or a failed protection check (R479, stage 12). -/
inductive DataFault where
  | readFail
  | prpInvalid
  | sglInvalid
  | sglCount
  | sglDataLength
  | sglMetaLength
  | sglType
  | sglOffset
  | guard
  | appTag
  | refTag
  deriving DecidableEq, Repr, Inhabited

/-- What stage 10 brings for a command (R93, R479). -/
inductive HostData where
  /-- no host data moves toward the device: the read's units are all in their buffers -/
  | none
  /-- the data of a write, one block per LBA -/
  | blocks (l : List Block)
  /-- the bytes of a host input of a job -/
  | bytes (l : List Byte)
  /-- the transfer ended with a fault -/
  | fault (f : DataFault)
  deriving DecidableEq, Repr, Inhabited

/-- A range of Dataset Management or Copy (R109): first LBA and count of LBAs. -/
structure LbaRange where
  slba : Nat := 0
  nlb : Nat := 0
  deriving DecidableEq, Repr, Inhabited

/-- The fields of the Namespace Management create buffer (R143, Table 5-1). -/
structure NsCreate where
  csi : Nat := 0
  nsze : Nat := 0
  ncap : Nat := 0
  flbas : Nat := 0
  dps : Nat := 0
  cls : Nat := 0
  res385 : Nat := 0
  owner : Nat := 0
  res388 : Nat := 0
  handles : List Nat := []
  deriving DecidableEq, Repr, Inhabited

/-- The Create buffer of Slice Management (Table 10-2). -/
structure SliceBuf where
  slice : Nat := 0
  port : Nat := 0
  template : Nat := 0
  pasid : Nat := 0
  reserved : Nat := 0
  deriving DecidableEq, Repr, Inhabited

/-- A session's requester: one controller or one MCTP endpoint (R327). -/
inductive Requester where
  | ctrl (slice port : Nat)
  | mctp (eid : Nat)
  deriving DecidableEq, Repr, Inhabited

/-- A raised fault event (R358): source, raised level, slice concerned (none: 0xFFFF) and DETAIL. -/
structure FaultEv where
  src : Nat := 0
  level : Nat := 0
  slice : Option Nat := none
  detail : Nat := 0
  deriving DecidableEq, Repr, Inhabited

/-- One sensor conversion (R401, R403): an error, or the raw code and its temperature in 1/16 °C. -/
inductive Reading where
  | error
  | value (raw : Nat) (t16 : Int)
  deriving DecidableEq, Repr, Inhabited

/-- One die found by a bay scan (R199): its number, its unique ID, whether its geometry is the panel's. -/
structure ScanDie where
  die : Nat := 0
  uid : Nat := 0
  geomOk : Bool := true
  /-- bad blocks found in each plane (R476) -/
  bad : List Nat := []
  deriving DecidableEq, Repr, Inhabited

/-- The geometry a parameter page carries (R47). -/
structure ParamPage where
  pageB : Nat := 0
  spareB : Nat := 0
  pagesBlk : Nat := 0
  blksPlane : Nat := 0
  planes : Nat := 0
  luns : Nat := 0
  ratedPe : Nat := 0
  tR : Nat := 0
  tProg : Nat := 0
  tBers : Nat := 0
  /-- the page advertises program and erase suspend (R173) -/
  suspend : Bool := true
  deriving DecidableEq, Repr, Inhabited

/-- Slack in percent that a re-plan measures at point `point` of island `isl`, one value per repetition (R416). -/
structure SlackMeas where
  isl : Nat := 0
  point : Nat := 0
  slacks : List Nat := []
  deriving DecidableEq, Repr, Inhabited

/-- The drift rate of R417 for one cell mode: groups tracked for 168 h, and the 99.9th percentile rate in millionths of a
DAC step per hour. -/
structure DriftRate where
  mode : Nat := 0
  groups : Nat := 0
  rate : Nat := 0
  deriving DecidableEq, Repr, Inhabited

/-- What a re-plan measures. -/
structure PlanMeas where
  slack : List SlackMeas := []
  refSlack : List (Nat × Nat) := []
  drift : List DriftRate := []
  deriving DecidableEq, Repr, Inhabited

/-- Who issues an array command (R427). -/
inductive ArrayIssuer where
  | host (port : Nat)
  | cores
  | updateEngine
  | patternLoader
  deriving DecidableEq, Repr, Inhabited

/-- What start-up finds in the hardware (R443, R447, R448, R451): islands that do not come up, DMI interfaces that do not train,
whether migrations succeed, whether a copy of the slice table validates, die sets of which no copy of the journal can be read. -/
structure BootIn where
  failedIslands : List Nat := []
  failedDram : List Nat := []
  migrateOk : Bool := true
  tableOk : Bool := true
  badJournals : List Nat := []
  deriving DecidableEq, Repr, Inhabited

/-- PCIe configuration fields that the host writes (R67, R76, R77). -/
inductive PcieField where
  | pasidEnable
  | atsEnable
  | msixEnable
  | msixMask
  | pmState
  | aer
  | bar0
  | bar2
  | maxPayload
  | maxReadRequest
  deriving DecidableEq, Repr, Inhabited

/-- An MCTP message of the sideband (R472, Table 17-10). -/
inductive SbMsg where
  | setEid (eid : Nat)
  | getEid
  | getUuid
  | getVersion
  | getTypes
  | readMi (code : Nat)
  | subsystemHealth
  | controllerHealth
  | configSet (id value : Nat)
  | configGet (id : Nat)
  /-- an NVMe Admin Command message and its data; what a Margin Plan that it runs measures -/
  | admin (q : Sqe) (data : List Byte) (m : PlanMeas)
  /-- a control primitive: 0 Pause, 1 Resume, 2 Abort, 3 Get State, 4 Replay -/
  | control (op : Nat)
  /-- any message the table does not list -/
  | other (type code : Nat)
  deriving DecidableEq, Repr, Inhabited

/-- A unit that asks the pool manager for a frame (R300). -/
inductive PoolAsker where
  | command (c : Nat)
  | compute (c : Nat)
  | internal (n : Nat)
  deriving DecidableEq, Repr, Inhabited

/-- The commands. The comment of each line is its mnemonic in spec/opcode_table.json. -/
inductive Instr where
  | registerWrite (port addr width value : Nat)              -- REGISTER_WRITE
  | islandTransfer (t : Transfer)                             -- ISLAND_TRANSFER
  | operatingPointChange (isl point : Nat)                    -- OPERATING_POINT_CHANGE
  | epochStart (est : PowerEst)                               -- EPOCH_START
  | dramMarginTrack (ch marginPs : Nat)                       -- DRAM_MARGIN_TRACK
  | routeBindingComplete (slot : Nat)                         -- ROUTE_BINDING_COMPLETE
  | doorbellWrite (port slice qid : Nat) (isCq : Bool) (value : Nat)  -- DOORBELL_WRITE
  | sqFetch (dq : Nat) (q : Sqe)                              -- SQ_FETCH
  | sqEntryReadFail (dq : Nat)                                -- SQ_ENTRY_READ_FAIL
  | hostReadTimeout (c : Nat)                                 -- HOST_READ_TIMEOUT
  | cometStreamTimeout (stream : Nat)                         -- COMET_STREAM_TIMEOUT
  | rangeLockRelease (c : Nat)                                -- RANGE_LOCK_RELEASE
  | routeSeat (c : Nat)                                       -- ROUTE_SEAT
  | mediaDispatch (r : DispatchReq)                           -- MEDIA_DISPATCH
  | dieOperationComplete (die : Nat) (res : DieResult)        -- DIE_OPERATION_COMPLETE
  | readDeadlineExpire (c u tag : Nat)                        -- READ_DEADLINE_EXPIRE
  | dieReadyTimeout (die : Nat) (restored : Bool)             -- DIE_READY_TIMEOUT
  | hostDataTransferDone (c : Nat) (d : HostData)             -- HOST_DATA_TRANSFER_DONE
  | writeBufferRoom (c : Nat)                                 -- WRITE_BUFFER_ROOM
  | commandCommit (c : Nat)                                   -- COMMAND_COMMIT
  | completionPost (c : Nat)                                  -- COMPLETION_POST
  | flush (c : Nat)                                           -- FLUSH
  | write (c : Nat)                                           -- WRITE
  | read (c : Nat)                                            -- READ
  | writeUncorrectable (c : Nat)                              -- WRITE_UNCORRECTABLE
  | compare (c : Nat)                                         -- COMPARE
  | writeZeroes (c : Nat)                                     -- WRITE_ZEROES
  | datasetManagement (c : Nat) (ranges : Option (List LbaRange))  -- DATASET_MANAGEMENT
  | verifyCommand (c : Nat)                                   -- VERIFY_COMMAND
  | ioManagementReceive (c : Nat)                             -- IO_MANAGEMENT_RECEIVE
  | ioManagementSend (c : Nat) (pids : Option (List Nat))     -- IO_MANAGEMENT_SEND
  | copy (c : Nat) (ranges : Option (List LbaRange))          -- COPY
  | zoneAppend (c : Nat)                                      -- ZONE_APPEND
  | zoneOpen (c : Nat)                                        -- ZONE_OPEN
  | zoneClose (c : Nat)                                       -- ZONE_CLOSE
  | zoneFinish (c : Nat)                                      -- ZONE_FINISH
  | zoneReset (c : Nat)                                       -- ZONE_RESET
  | zoneOffline (c : Nat)                                     -- ZONE_OFFLINE
  | zoneManagementReceive (c : Nat)                           -- ZONE_MANAGEMENT_RECEIVE
  | zoneFinishRecommend (ns zone : Nat)                       -- ZONE_FINISH_RECOMMEND
  | zoneControllerFinish (ns zone : Nat)                      -- ZONE_CONTROLLER_FINISH
  | abort (c : Nat)                                           -- ABORT
  | createIoSq (c : Nat)                                      -- CREATE_IO_SQ
  | createIoCq (c : Nat)                                      -- CREATE_IO_CQ
  | deleteIoSq (c : Nat)                                      -- DELETE_IO_SQ
  | deleteIoCq (c : Nat)                                      -- DELETE_IO_CQ
  | getLogPage (c : Nat)                                      -- GET_LOG_PAGE
  | identify (c : Nat)                                        -- IDENTIFY
  | setFeatures (c : Nat) (data : List Byte)                  -- SET_FEATURES
  | getFeatures (c : Nat)                                     -- GET_FEATURES
  | powerStateEntryTimeout                                    -- POWER_STATE_ENTRY_TIMEOUT
  | powerStateReached                                         -- POWER_STATE_REACHED
  | asynchronousEventRequest (c : Nat)                        -- ASYNCHRONOUS_EVENT_REQUEST
  | namespaceCreate (c : Nat) (buf : NsCreate)                -- NAMESPACE_CREATE
  | namespaceDelete (c : Nat)                                 -- NAMESPACE_DELETE
  | namespaceAttachment (c : Nat) (ctrls : List Nat)          -- NAMESPACE_ATTACHMENT
  | directiveSend (c : Nat)                                   -- DIRECTIVE_SEND
  | directiveReceive (c : Nat)                                -- DIRECTIVE_RECEIVE
  | nvmeMiSend (c : Nat) (m : SbMsg)                          -- NVME_MI_SEND
  | nvmeMiReceive (c : Nat) (m : SbMsg)                       -- NVME_MI_RECEIVE
  | formatNvm (c : Nat)                                       -- FORMAT_NVM
  | sanitize (c : Nat)                                        -- SANITIZE
  | sessionChallenge (c : Nat)                                -- SESSION_CHALLENGE
  | sessionOpen (c : Nat) (mac : List Byte)                   -- SESSION_OPEN
  | sessionClose (c : Nat)                                    -- SESSION_CLOSE
  | challengeExpire (r : Requester)                           -- CHALLENGE_EXPIRE
  | keyLockoutExpire (key : Nat)                              -- KEY_LOCKOUT_EXPIRE
  | sliceCreate (c : Nat) (buf : SliceBuf)                    -- SLICE_CREATE
  | sliceReset (c : Nat)                                      -- SLICE_RESET
  | sliceRemove (c : Nat)                                     -- SLICE_REMOVE
  | setKey (c : Nat) (key : List Byte)                        -- SET_KEY
  | clearKey (c : Nat)                                        -- CLEAR_KEY
  | sliceResetComplete (slice : Nat)                          -- SLICE_RESET_COMPLETE
  | resetDrainTimeout (slice isl unit : Nat)                  -- RESET_DRAIN_TIMEOUT
  | controllerEnable (port slice : Nat) (crime : Bool)        -- CONTROLLER_ENABLE
  | controllerReset (port slice : Nat)                        -- CONTROLLER_RESET
  | shutdownNotification (port slice : Nat)                   -- SHUTDOWN_NOTIFICATION
  | patternLoadTransfer (c : Nat) (data : List Byte)          -- PATTERN_LOAD_TRANSFER
  | patternLoadCommit (c : Nat)                               -- PATTERN_LOAD_COMMIT
  | patternLoadErase (c : Nat)                                -- PATTERN_LOAD_ERASE
  | patternLoadIdleExpire                                     -- PATTERN_LOAD_IDLE_EXPIRE
  | panelReloadTransfer (c : Nat) (data : List Byte)          -- PANEL_RELOAD_TRANSFER
  | panelReloadApply (c : Nat)                                -- PANEL_RELOAD_APPLY
  | reloadDrainComplete (failAt : Option Nat)                 -- RELOAD_DRAIN_COMPLETE
  | reloadAbandon                                             -- RELOAD_ABANDON
  | portOwnershipQuery (c : Nat)                              -- PORT_OWNERSHIP_QUERY
  | portOwnershipRelease (c : Nat)                            -- PORT_OWNERSHIP_RELEASE
  | portOwnershipAcquire (c : Nat)                            -- PORT_OWNERSHIP_ACQUIRE
  | portOwnershipTakeover (c : Nat)                           -- PORT_OWNERSHIP_TAKEOVER
  | setSharedRead (c : Nat)                                   -- SET_SHARED_READ
  | clearSharedRead (c : Nat)                                 -- CLEAR_SHARED_READ
  | setFencingKey (c : Nat)                                   -- SET_FENCING_KEY
  | takeoverLockoutExpire (ns : Nat)                          -- TAKEOVER_LOCKOUT_EXPIRE
  | marginPlanRun (c : Nat) (m : PlanMeas)                    -- MARGIN_PLAN_RUN
  | marginPlanReport (c : Nat)                                -- MARGIN_PLAN_REPORT
  | firmwareImageDownload (c : Nat) (data : List Byte)        -- FIRMWARE_IMAGE_DOWNLOAD
  | firmwareCommitApply (c : Nat) (progOk : Bool)             -- FIRMWARE_COMMIT_APPLY
  | firmwareCommitApplyNext (c : Nat) (progOk : Bool)         -- FIRMWARE_COMMIT_APPLY_NEXT
  | firmwareCommitMarkNext (c : Nat)                          -- FIRMWARE_COMMIT_MARK_NEXT
  | firmwareCommitActivate (c : Nat) (progOk : Bool)          -- FIRMWARE_COMMIT_ACTIVATE
  | activationTimeout                                         -- ACTIVATION_TIMEOUT
  | stagingLockIdleExpire                                     -- STAGING_LOCK_IDLE_EXPIRE
  | fwuAbort                                                  -- FWU_ABORT
  | knownGoodTimer                                            -- KNOWN_GOOD_TIMER
  | migrationWindowEnd                                        -- MIGRATION_WINDOW_END
  | job (c : Nat) (desc list aux : Option (List Byte))        -- JOB
  | jobTimeQuotaExpire (c : Nat)                              -- JOB_TIME_QUOTA_EXPIRE
  | engineUnitComplete (c unit : Nat)                         -- ENGINE_UNIT_COMPLETE
  | computeMemoryAllocate (c : Nat)                           -- COMPUTE_MEMORY_ALLOCATE
  | computeMemoryFree (c : Nat)                               -- COMPUTE_MEMORY_FREE
  | computeFreeDrained (slice handle : Nat)                   -- COMPUTE_FREE_DRAINED
  | programLoadTransfer (c : Nat) (data : List Byte)          -- PROGRAM_LOAD_TRANSFER
  | programLoadCommit (c : Nat)                               -- PROGRAM_LOAD_COMMIT
  | programLoadDiscard (c : Nat)                              -- PROGRAM_LOAD_DISCARD
  | programUnload (c : Nat)                                   -- PROGRAM_UNLOAD
  | programUnloadDrained (slice handle : Nat)                 -- PROGRAM_UNLOAD_DRAINED
  | coresGranted (c : Nat)                                    -- CORES_GRANTED
  | syscallExit (core : Nat)                                  -- SYSCALL_EXIT
  | syscallFail (core code pc : Nat)                          -- SYSCALL_FAIL
  | syscallEmit (core : Nat) (data : List Byte)               -- SYSCALL_EMIT
  | syscallViewOpen (core port ext off len : Nat)             -- SYSCALL_VIEW_OPEN
  | syscallViewNext (core port : Nat)                         -- SYSCALL_VIEW_NEXT
  | viewChunkArrive (core port len : Nat)                     -- VIEW_CHUNK_ARRIVE
  | syscallViewRelease (core port va : Nat)                   -- SYSCALL_VIEW_RELEASE
  | syscallExtentLen (core ext : Nat)                         -- SYSCALL_EXTENT_LEN
  | syscallCmMap (core handle off len : Nat)                  -- SYSCALL_CM_MAP
  | syscallCmUnmap (core va : Nat)                            -- SYSCALL_CM_UNMAP
  | syscallHostRead (core va haddr : Nat) (data : Option (List Byte))  -- SYSCALL_HOST_READ
  | syscallHostWrite (core va haddr : Nat) (data : List Byte) (granted : Bool)  -- SYSCALL_HOST_WRITE
  | syscallBarrier (core : Nat)                               -- SYSCALL_BARRIER
  | syscallSetCounts (core nIn nOut : Nat)                    -- SYSCALL_SET_COUNTS
  | programTrap (core cause pc tval : Nat)                    -- PROGRAM_TRAP
  | weaveStep (half weave : Nat) (words : List Nat)           -- WEAVE_STEP
  | atsInvalidation (port addr len : Nat)                     -- ATS_INVALIDATION
  | frameAllocate (cls unit slice : Nat) (who : PoolAsker)    -- FRAME_ALLOCATE
  | frameShare (handle unit final : Nat)                      -- FRAME_SHARE
  | frameFree (handle unit : Nat)                             -- FRAME_FREE
  | frameOwnershipPass (handle src dst : Nat)                 -- FRAME_OWNERSHIP_PASS
  | poolAudit                                                 -- POOL_AUDIT
  | shareSet (slice : Nat)                                    -- SHARE_SET
  | shareQuery (slice : Nat)                                  -- SHARE_QUERY
  | relay (slice : Nat)                                       -- RELAY
  | mailboxSend (slice port send : Nat)                       -- MAILBOX_SEND
  | mailboxAck (slice port ack : Nat)                         -- MAILBOX_ACK
  | sliMgrPasidWrite (pasid vector : Nat)                     -- SLI_MGR_PASID_WRITE
  | sharedKeyConfig (cls value : Nat)                         -- SHARED_KEY_CONFIG
  | tableReplayComplete (isMap : Bool) (key : Nat) (readable : Bool)  -- TABLE_REPLAY_COMPLETE
  | dmaChannelRestart (c : Nat) (sourceOk : Bool)             -- DMA_CHANNEL_RESTART
  | mergeBufferFlush (isl line : Nat) (chk : LineCheck)       -- MERGE_BUFFER_FLUSH
  | dramBackgroundFill (j groups : Nat)                       -- DRAM_BACKGROUND_FILL
  | flipArm (arm cls isl offset mask : Nat) (onCrc : Bool)    -- FLIP_ARM
  | faultEvent (ev : FaultEv)                                 -- FAULT_EVENT
  | faultHandlingEnd (src : Nat)                              -- FAULT_HANDLING_END
  | islandResetEnd (isl : Nat)                                -- ISLAND_RESET_END
  | faultAck (seq : Nat)                                      -- FAULT_ACK
  | safeStateRelease (v : Nat)                                -- SAFE_STATE_RELEASE
  | fltRelease (isl unit : Nat)                               -- FLT_RELEASE
  | watchdogExpire                                            -- WATCHDOG_EXPIRE
  | ctlRestart                                                -- CTL_RESTART
  | counterEvent (sel : Nat) (slice isl : Option Nat) (level : Bool)  -- COUNTER_EVENT
  | counterClear (ctr : Nat)                                  -- COUNTER_CLEAR
  | counterSnapshot (grp : Nat)                               -- COUNTER_SNAPSHOT
  | counterFreeze (grp : Nat)                                 -- COUNTER_FREEZE
  | counterUnfreeze (grp : Nat)                               -- COUNTER_UNFREEZE
  | domainIdleTimeout (isl : Nat)                             -- DOMAIN_IDLE_TIMEOUT
  | domainEntryComplete (isl : Nat)                           -- DOMAIN_ENTRY_COMPLETE
  | domainWake (isl cause : Nat)                              -- DOMAIN_WAKE
  | domainWakeComplete (isl us : Nat)                         -- DOMAIN_WAKE_COMPLETE
  | dramDeepSleep (j : Nat)                                   -- DRAM_DEEP_SLEEP
  | floorWrite (isl floor : Nat)                              -- FLOOR_WRITE
  | keeperModeRequest (req : Nat)                             -- KEEPER_MODE_REQUEST
  | keeperEstimate                                            -- KEEPER_ESTIMATE
  | keeperLpReentry                                           -- KEEPER_LP_REENTRY
  | brownOut                                                  -- BROWN_OUT
  | padHoldRelease (isl v : Nat)                              -- PAD_HOLD_RELEASE
  | sidebandAddressMatch                                      -- SIDEBAND_ADDRESS_MATCH
  | wakeTimerExpire                                           -- WAKE_TIMER_EXPIRE
  | sensorConversion (s : Nat) (r : Reading)                  -- SENSOR_CONVERSION
  | sensorHoldExpire (s : Nat)                                -- SENSOR_HOLD_EXPIRE
  | sensorRetest (s v : Nat)                                  -- SENSOR_RETEST
  | sensorRetestEnd (s : Nat)                                 -- SENSOR_RETEST_END
  | thermalShutdownPowerOff                                   -- THERMAL_SHUTDOWN_POWER_OFF
  | dieTemperatureRead (die : Nat) (t : Int)                  -- DIE_TEMPERATURE_READ
  | pathMonitorSample (isl : Nat) (slacks : List Nat)         -- PATH_MONITOR_SAMPLE
  | marginReplanDue (m : PlanMeas)                            -- MARGIN_REPLAN_DUE
  | pendingIslandMeasure (isl : Nat) (m : PlanMeas)           -- PENDING_ISLAND_MEASURE
  | hourlyRecordSave                                          -- HOURLY_RECORD_SAVE
  | wearSpreadCheck (set : Nat)                               -- WEAR_SPREAD_CHECK
  | relocationSwitch (id : Nat)                               -- RELOCATION_SWITCH
  | journalCheckpoint (seg : Nat)                             -- JOURNAL_CHECKPOINT
  | channelRetune (ch marginPct : Nat)                        -- CHANNEL_RETUNE
  | channelRetrain (ch v : Nat) (ok : Bool)                   -- CHANNEL_RETRAIN
  | clusterSchedWrite (k ecl rebuild : Nat) (susp : Bool)     -- CLUSTER_SCHED_WRITE
  | bayInsertion (b : Nat)                                    -- BAY_INSERTION
  | bayPresenceDebounced (b : Nat)                            -- BAY_PRESENCE_DEBOUNCED
  | bayPwrgdRise (b : Nat)                                    -- BAY_PWRGD_RISE
  | bayPowerTimeout (b : Nat)                                 -- BAY_POWER_TIMEOUT
  | bayScanComplete (b : Nat) (dies : List ScanDie) (pp : ParamPage)  -- BAY_SCAN_COMPLETE
  | baySurpriseRemoval (b : Nat) (gone : Bool)                -- BAY_SURPRISE_REMOVAL
  | bayPwrgdFallSafe (b : Nat)                                -- BAY_PWRGD_FALL_SAFE
  | bayAttention (b : Nat)                                    -- BAY_ATTENTION
  | bayRemove (b : Nat) (force : Bool)                        -- BAY_REMOVE
  | bayRemovalDrained (b : Nat)                               -- BAY_REMOVAL_DRAINED
  | bayAccept (b : Nat)                                       -- BAY_ACCEPT
  | bayReject (b : Nat)                                       -- BAY_REJECT
  | bayRetryPower (b : Nat)                                   -- BAY_RETRY_POWER
  | pfailAssert (landed : Bool)                               -- PFAIL_ASSERT
  | linkUp (p gts lanes : Nat)                                -- LINK_UP
  | linkDown (p : Nat)                                        -- LINK_DOWN
  | moduleLaneFailure (m lost : Nat) (failed : Bool)          -- MODULE_LANE_FAILURE
  | ucieRecalibration (m eye : Nat)                           -- UCIE_RECALIBRATION
  | trickleEnter (port : Nat) (answered : Bool)               -- TRICKLE_ENTER
  | trickleExit (port : Nat) (doorbell : Bool)                -- TRICKLE_EXIT
  | trickleEntryComplete                                      -- TRICKLE_ENTRY_COMPLETE
  | trickleExitComplete                                       -- TRICKLE_EXIT_COMPLETE
  | detachRequest (p v : Nat)                                 -- DETACH_REQUEST
  | detachQuiesced (p : Nat) (expired : Bool)                 -- DETACH_QUIESCED
  | detachFlushed (p : Nat)                                   -- DETACH_FLUSHED
  | leaseBeat (p via v : Nat)                                 -- LEASE_BEAT
  | leaseExpire (p : Nat)                                     -- LEASE_EXPIRE
  | bar2MapWrite (p i en slice handle baseMib lenMib : Nat)   -- BAR2_MAP_WRITE
  | bar2Access (p addr len : Nat) (wr : Option (List Byte))   -- BAR2_ACCESS
  | oqConfig (oq en slice sqid : Nat)                         -- OQ_CONFIG
  | oqResume (port slice sqid : Nat)                          -- OQ_RESUME
  | zoneLimitConfig (n maxActive maxOpen : Nat)               -- ZONE_LIMIT_CONFIG
  | jobLanesConfig (lanes : Nat)                              -- JOB_LANES_CONFIG
  | computeLimitConfig (slice lim : Nat)                      -- COMPUTE_LIMIT_CONFIG
  | atsGrant (slice v : Nat)                                  -- ATS_GRANT
  | wearLevelConfig (limit stop reloc : Nat)                  -- WEAR_LEVEL_CONFIG
  | spareThresholdConfig (thresh : Nat)                       -- SPARE_THRESHOLD_CONFIG
  | interruptUnmask (port slice entry : Nat)                  -- INTERRUPT_UNMASK
  | fetchHold (slice : Nat)                                   -- FETCH_HOLD
  | fetchRelease (slice : Nat)                                -- FETCH_RELEASE
  | arrayProgram (who : ArrayIssuer) (bank page : Nat) (data : List Byte)  -- ARRAY_PROGRAM
  | arrayErase (who : ArrayIssuer) (bank sector : Nat)        -- ARRAY_ERASE
  | arrayIdentify (who : ArrayIssuer) (bank : Nat)            -- ARRAY_IDENTIFY
  | arrayAbortReset (who : ArrayIssuer) (bank : Nat)          -- ARRAY_ABORT_RESET
  | arraySequenceTimeout (bank : Nat)                         -- ARRAY_SEQUENCE_TIMEOUT
  | arrayOperationComplete (bank : Nat) (ok : Bool)           -- ARRAY_OPERATION_COMPLETE
  | arrayScrub (weak lost : List Nat)                         -- ARRAY_SCRUB
  | powerOn (b : BootIn)                                      -- POWER_ON
  | adminReady                                                -- ADMIN_READY
  | mediaReady                                                -- MEDIA_READY
  | deviceResetAssert                                         -- DEVICE_RESET_ASSERT
  | deviceResetRelease (b : BootIn)                           -- DEVICE_RESET_RELEASE
  | vreqAlert (high : Bool)                                   -- VREQ_ALERT
  | vreqAlertTimeout                                          -- VREQ_ALERT_TIMEOUT
  | vddSramMeasure (mv : Nat)                                 -- VDD_SRAM_MEASURE
  | powerGoodLoss (input : Nat)                               -- POWER_GOOD_LOSS
  | refclkLoss                                                -- REFCLK_LOSS
  | sidebandMessage (eid : Nat) (m : SbMsg) (crcOk : Bool)    -- SIDEBAND_MESSAGE
  | pcieConfigWrite (port : Nat) (f : PcieField) (value : Nat)  -- PCIE_CONFIG_WRITE
  | portHotReset (port : Nat)                                 -- PORT_HOT_RESET
  | ruTimeLimitExceeded (set handle : Nat)                    -- RU_TIME_LIMIT_EXCEEDED
  | retentionAgeCheck (die group ageH : Nat)                  -- RETENTION_AGE_CHECK
  | interruptCoalescingTime (dq : Nat)                        -- INTERRUPT_COALESCING_TIME
  deriving DecidableEq, Repr, Inhabited

end Sys2Proof
end

