-- ==== Sys2Proof/Decode.lean ====
section
/-! DEFINITION. Commands spelled by a word. No row of the command table gives bits: a command reaches the block as a
register write, an entry of a queue or an event, and its operands stand in the command itself. So no word spells one. -/

namespace Sys2Proof

/-- The command a word of `nbits` bits spells: none, for no row gives bits (DESIGN CHOICE, log 14). -/
def decodeTableWord (_nbits _w : Nat) : Option Instr := none

end Sys2Proof
end

