-- ==== Sys2Proof/Config.lean ====
section
/-! DEFINITION. What the spec leaves to the chip, to a named standard or to chance. Every constant here is opaque:
no proof can see its value. -/

namespace Sys2Proof.Config

/-- A free value, drawn by the counter `State.free` (DESIGN CHOICE, log 3). -/
opaque freeNat : Nat → Nat

/-- A free choice, drawn by the counter `State.free` (DESIGN CHOICE, log 3). -/
opaque freeBool : Nat → Bool

/-- A free byte, drawn by the counter `State.free` (DESIGN CHOICE, log 3). -/
opaque freeByte : Nat → Byte

/-- Bytes of one record of the map journal (R163). -/
opaque journalRecord : Nat

/-- The Ovseaz Pattern key (R42 SIGNER 0), the Ovseaz firmware key (R430) and the update key (R433), held in the part (DESIGN CHOICE,
PRESUMED, log 5). -/
opaque patternKey : List Byte
opaque firmwareKey : List Byte
opaque updateKey : List Byte

/-- How a DEFLATE compressor spells the code lengths of a dynamic block, which RFC 1951 leaves to it (DESIGN CHOICE, log 6): the
code-length symbols with their extra bits, and how many literal/length, distance and code-length codes it sends. -/
opaque clRuns : (lens : List Nat) → List (Nat × Nat)
opaque clCounts : (lit dist : List Nat) → Nat × Nat × Nat

/-- What the vector extension leaves to a core (DESIGN CHOICE, log 182): whether element `i` of an instruction `w` that is tail or mask
agnostic is set to ones, the vector length it gives for a request between VLMAX and twice VLMAX, and an unordered floating-point
sum (its word and its flags). -/
opaque vecOnes : (w i : Nat) → Bool
opaque vecLen : (avl vlmax : Nat) → Nat
opaque vecSum : (bits : Nat) → List Nat → Nat × Nat

/-- Byte `i` of a null field that a sieve projects at its width: the spec states none (DESIGN CHOICE, log 8). -/
opaque nullByte : (field i : Nat) → Byte

/-- The metadata of an LBA that a job writes in a namespace whose LBAs carry metadata: the spec states none (DESIGN CHOICE, log 8). -/
opaque outMeta : Nat → Nat

/-- Fuses: die stepping (R42), vendor and device IDs (R55), fused reference voltage of an island in mV and the slack of
that island at Ovseaz test in percent (R414) (DESIGN CHOICE, log 7). -/
opaque fuseStepping : Nat
opaque fuseVendor : Nat
opaque fuseDevice : Nat
opaque fuseRefMv : Nat → Nat
opaque fuseSlack : Nat → Nat

/-- Spare rows and columns the fuse map leaves for memory kind `j` of island `isl`, and the row length less 1
(R350, R356) (DESIGN CHOICE, log 7). -/
opaque fuseSpareRows : (isl j : Nat) → Nat
opaque fuseSpareCols : (isl j : Nat) → Nat
opaque rowLinesM1 : (isl j : Nat) → Nat

/-- The macro of memory kind `j` of island `isl` that holds a line, and the spare rows (kind 0) or columns (kind 1) that the
fuse map leaves in a macro (R350) (DESIGN CHOICE, log 7). -/
opaque macroOf : (isl j line : Nat) → Nat
opaque macroSpare : (isl j macr kind : Nat) → Nat

/-- The effect bits of a command in log page 05h, which the spec does not give (PRESUMED, log 9). -/
opaque cmdEffects : (admin : Bool) → (opc : Nat) → Nat

/-- The address bit column of a failing bit mask within its macro (R351) (DESIGN CHOICE, log 7). -/
opaque columnOf : Nat → Nat

/-- A byte of an inspection window or of the code array whose content the spec leaves open: byte `off` of place `area`, while that
place is in its use number `gen` (DESIGN CHOICE, log 162). -/
opaque openByte : (area off gen : Nat) → Byte

/-- RING_OFF and META_OFF of a pool class (Table 16-8) (DESIGN CHOICE, log 162). -/
opaque ringOff : Nat → Nat
opaque metaOff : Nat → Nat

end Sys2Proof.Config
end

