-- ==== Sys2Proof/Machine/Bytes.lean ====
section
/-! DEFINITION. Reading and writing fields of byte lists (R4: little-endian everywhere), and CRC-32C (R43). -/

namespace Sys2Proof.Machine

/-- A little-endian field of `n` bytes at `off`; bytes past the end read 0. -/
def leAt (b : List Byte) (off : Nat) : Nat → Nat
  | 0 => 0
  | n + 1 => (b.getD off 0).toNat + 256 * leAt b (off + 1) n

def u8 (b : List Byte) (off : Nat) : Nat := leAt b off 1
def u16 (b : List Byte) (off : Nat) : Nat := leAt b off 2
def u32 (b : List Byte) (off : Nat) : Nat := leAt b off 4
def u64 (b : List Byte) (off : Nat) : Nat := leAt b off 8

/-- A number of `n` bytes as its two's complement value. -/
def signed (n v : Nat) : Int := if v < 2 ^ (8 * n - 1) then (v : Int) else (v : Int) - 2 ^ (8 * n)

def s8 (b : List Byte) (off : Nat) : Int := signed 1 (u8 b off)

/-- The bytes `off` to `off + n - 1`. -/
def slice (b : List Byte) (off n : Nat) : List Byte := (b.drop off).take n

/-- A number as `n` little-endian bytes. -/
def leBytes : Nat → Nat → List Byte
  | 0, _ => []
  | n + 1, v => BitVec.ofNat 8 v :: leBytes n (v / 256)

/-- The 48 bytes of a SHA-384 digest or MAC, as they stand in memory. -/
def digestBytes (d : BitVec 384) : List Byte := leBytes 48 d.toNat

/-- A big-endian number. -/
def beNat (b : List Byte) : Nat := b.foldl (fun a x => a * 256 + x.toNat) 0

/-- Bytes as one little-endian number. -/
def leNat (b : List Byte) : Nat := leAt b 0 b.length

/-- Is every byte of the field 0? -/
def zeroAt (b : List Byte) (off n : Nat) : Bool := (slice b off n).all (· == 0)

/-- The offset of the first nonzero byte of `off .. off + n - 1`, if any. -/
def firstNonzero (b : List Byte) (off : Nat) : Nat → Option Nat
  | 0 => none
  | n + 1 => if b.getD off 0 == 0 then firstNonzero b (off + 1) n else some off

/-- One bit of a reflected 32-bit CRC. -/
def crc32Bit (poly c : Nat) : Nat := if c % 2 = 1 then (c / 2) ^^^ poly else c / 2

/-- `n` bits of a reflected 32-bit CRC. -/
def crc32Bits (poly : Nat) : Nat → Nat → Nat
  | 0, c => c
  | n + 1, c => crc32Bits poly n (crc32Bit poly c)

/-- CRC-32C (R43): polynomial 0x1EDC_6F41 reflected, initial value and final XOR 0xFFFF_FFFF. -/
def crc32c (b : List Byte) : Nat :=
  (b.foldl (fun c x => crc32Bits 0x82F63B78 8 (c ^^^ x.toNat)) 0xFFFFFFFF) ^^^ 0xFFFFFFFF

/-- Overwrite the bytes from `off` with `d`, filling with 0 up to there. -/
def putBytes (b : List Byte) (off : Nat) (d : List Byte) : List Byte :=
  let b' := if b.length < off then b ++ List.replicate (off - b.length) 0 else b
  b'.take off ++ d ++ b'.drop (off + d.length)

end Sys2Proof.Machine
end

