-- ==== Sys2Proof/Machine/Table.lean ====
section
/-! DEFINITION. Sparse tables: a list of (key, value) pairs, read by the first entry of a key. -/

namespace Sys2Proof.Machine

/-- A table from numbers to values: what is not listed reads as the default its reader names. -/
abbrev Tbl (α : Type) := List (Nat × α)

/-- The entry of a key. -/
def tget {α : Type} : Tbl α → Nat → Option α
  | [], _ => none
  | (j, v) :: t, k => if j = k then some v else tget t k

/-- The entry of a key, or a default. -/
def tgetD {α : Type} (t : Tbl α) (k : Nat) (d : α) : α := (tget t k).getD d

/-- The entry of a key, or the default of its type. -/
def tval {α : Type} [Inhabited α] (t : Tbl α) (k : Nat) : α := (tget t k).getD default

/-- Write the entry of a key; new keys go in before the first greater key. -/
def tset {α : Type} : Tbl α → Nat → α → Tbl α
  | [], k, v => [(k, v)]
  | (j, w) :: t, k, v =>
    if j = k then (k, v) :: t else if k < j then (k, v) :: (j, w) :: t else (j, w) :: tset t k v

/-- Write the entry of a key in front of what a merge gives for the rest. -/
def tmergeOne {α : Type} (k : Nat) (v : α) (rest : Tbl α → Tbl α) : Tbl α → Tbl α
  | [] => (k, v) :: rest []
  | (j, w) :: t => if j < k then (j, w) :: tmergeOne k v rest t else if j = k then (k, v) :: rest t else (k, v) :: rest ((j, w) :: t)

/-- Write every entry of a rising table into another. -/
def tmerge {α : Type} : Tbl α → Tbl α → Tbl α
  | [], b => b
  | (k, v) :: a, b => tmergeOne k v (tmerge a) b

/-- Remove a key. -/
def tdel {α : Type} (t : Tbl α) (k : Nat) : Tbl α := t.filter (fun e => e.1 != k)

/-- Change the entry of a key (its type's default when it has none). -/
def tmod {α : Type} [Inhabited α] (t : Tbl α) (k : Nat) (f : α → α) : Tbl α := tset t k (f (tval t k))

/-- Keep the entries whose key and value pass a test. -/
def tfilter {α : Type} (t : Tbl α) (p : Nat → α → Bool) : Tbl α := t.filter (fun e => p e.1 e.2)

/-- Change every entry. -/
def tmap {α : Type} (t : Tbl α) (f : Nat → α → α) : Tbl α := t.map (fun e => (e.1, f e.1 e.2))

/-- The first key whose entry passes a test. -/
def tfind {α : Type} (t : Tbl α) (p : Nat → α → Bool) : Option Nat := (t.find? (fun e => p e.1 e.2)).map (·.1)

/-- How many entries pass a test. -/
def tcount {α : Type} (t : Tbl α) (p : Nat → α → Bool) : Nat := (tfilter t p).length

/-- Does some entry pass a test? -/
def tany {α : Type} (t : Tbl α) (p : Nat → α → Bool) : Bool := t.any (fun e => p e.1 e.2)

/-- The lowest key from `lo`, of `n` keys, that has no entry. -/
def tfree {α : Type} (t : Tbl α) (lo : Nat) : Nat → Option Nat
  | 0 => none
  | n + 1 => if (tget t lo).isNone then some lo else tfree t (lo + 1) n

/-- Two small numbers as one key. -/
def key2 (a b : Nat) : Nat := a * 2 ^ 64 + b

/-- A lexicographic list of numbers that stands for a set: add one, once. -/
def insertNat (l : List Nat) (n : Nat) : List Nat := if l.contains n then l else l ++ [n]

/-- Remove a number from such a list. -/
def removeNat (l : List Nat) (n : Nat) : List Nat := l.filter (· != n)

/-- The entry at place `i` of a list of counters, one more, saturating at `w` bits; a shorter list is first filled up with
zeros. -/
def bumpAt (l : List Nat) (i w n : Nat) : List Nat :=
  let m := if l.length ≤ i then l ++ List.replicate (i + 1 - l.length) 0 else l
  m.set i (satAdd w (m.getD i 0) n)

/-- Write place `i` of a list of numbers, filled up with zeros. -/
def putAt (l : List Nat) (i v : Nat) : List Nat :=
  let m := if l.length ≤ i then l ++ List.replicate (i + 1 - l.length) 0 else l
  m.set i v

/-- Sum of a list of numbers. -/
def sumNat (l : List Nat) : Nat := l.foldl (· + ·) 0

/-- Least and greatest of a list of numbers (0 for none). -/
def minNat : List Nat → Nat
  | [] => 0
  | a :: t => t.foldl min a
def maxNat (l : List Nat) : Nat := l.foldl max 0

end Sys2Proof.Machine
end

