-- ==== Sys2Proof/Machine/Hart.lean ====
section
/-! DEFINITION. A user program core (09 R277, R280): its registers, and what its instructions share (RISC-V unprivileged ISA, which
Table 9-2 names) (PRESUMED, log 182). Values of 64 bits are numbers below 2^64. -/

namespace Sys2Proof.Machine

/-- The registers of a core: integer, floating-point and vector registers, the counters and control registers, and the reservation
of its last load-reserved (address, bytes). -/
structure Hart where
  pc : Nat := 0
  x : Tbl Qword := []
  f : Tbl Qword := []
  v : Tbl (BitVec 256) := []
  fflags : Nat := 0
  frm : Nat := 0
  vstart : Nat := 0
  vl : Nat := 0
  vtype : Nat := 2 ^ 63
  vxsat : Nat := 0
  vxrm : Nat := 0
  instret : Nat := 0
  resv : Option (Nat × Nat) := none
  deriving DecidableEq, Repr, Inhabited

/-- What an instruction does: the core goes on with these writes to memory, it traps with a cause and a value (behind the writes of the elements it had
done), or it calls. -/
inductive HartOut where
  | next (h : Hart) (writes : List (Nat × List Byte))
  | trap (cause tval : Nat) (writes : List (Nat × List Byte) := [])
  | call
  deriving DecidableEq, Repr, Inhabited

/-- Memory as a core sees it: bytes that may be read, ranges that may be written and that atomics may use, bytes that may be
fetched, and the causes of an access that may not be made. -/
structure HartMem where
  rd : Nat → Nat → Option (List Byte)
  wr : Nat → Nat → Bool
  atomic : Nat → Nat → Bool
  fetch : Nat → Nat → Option (List Byte)
  badFetch : Nat := 1
  badLoad : Nat := 5
  badStore : Nat := 7

/-! Numbers. -/

/-- A `w`-bit number sign-extended to 64 bits. -/
def sext (w v : Nat) : Nat := let u := v % 2 ^ w; if 2 ^ (w - 1) ≤ u then u + 2 ^ 64 - 2 ^ w else u

/-- A `w`-bit number as its two's complement value, and back. -/
def sint (w v : Nat) : Int := let u := v % 2 ^ w; if 2 ^ (w - 1) ≤ u then (u : Int) - 2 ^ w else u
def uintOf (w : Nat) (i : Int) : Nat := (i % 2 ^ w).toNat

/-- Arithmetic right shift of a `w`-bit number. -/
def sra (w v k : Nat) : Nat := uintOf w (sint w v / 2 ^ k)

/-- Division and remainder of `w`-bit numbers, signed and unsigned, with their corners. -/
def divU (w a b : Nat) : Nat := if b = 0 then 2 ^ w - 1 else a / b
def remU (a b : Nat) : Nat := if b = 0 then a else a % b
def divS (w a b : Nat) : Nat := if b = 0 then 2 ^ w - 1 else uintOf w (Int.tdiv (sint w a) (sint w b))
def remS (w a b : Nat) : Nat := if b = 0 then a else uintOf w (Int.tmod (sint w a) (sint w b))

/-! Registers. -/

/-- x0 reads 0 and drops writes. -/
def Hart.xr (h : Hart) (i : Nat) : Nat := if i = 0 then 0 else (tval h.x i).toNat
def Hart.setX (h : Hart) (i v : Nat) : Hart := if i = 0 then h else { h with x := tset h.x i (BitVec.ofNat 64 v) }
def Hart.fr (h : Hart) (i : Nat) : Nat := (tval h.f i).toNat
def Hart.setF (h : Hart) (i v : Nat) : Hart := { h with f := tset h.f i (BitVec.ofNat 64 v) }
def Hart.flag (h : Hart) (n : Nat) : Hart := { h with fflags := h.fflags ||| n }

/-- The instruction of `len` bytes retires. -/
def Hart.retire (h : Hart) (len : Nat) : Hart := { h with pc := (h.pc + len) % 2 ^ 64, instret := h.instret + 1 }
def Hart.done (h : Hart) (len : Nat) : HartOut := .next (h.retire len) []
/-- It retires with its result in `rd`. -/
def Hart.wb (h : Hart) (len rd v : Nat) : HartOut := (h.setX rd v).done len

/-- It goes on at an address, the address behind it in `rd`. -/
def Hart.jump (h : Hart) (len rd t : Nat) : HartOut :=
  .next { (h.setX rd ((h.pc + len) % 2 ^ 64)) with pc := t % 2 ^ 64, instret := h.instret + 1 } []

/-- An illegal instruction traps with its bits. -/
def illegal (w : Nat) : HartOut := .trap 2 w

/-! Fields of an instruction word. -/

def iRd (w : Nat) : Nat := bitsAt w 7 5
def iF3 (w : Nat) : Nat := bitsAt w 12 3
def iRs1 (w : Nat) : Nat := bitsAt w 15 5
def iRs2 (w : Nat) : Nat := bitsAt w 20 5
def iF7 (w : Nat) : Nat := bitsAt w 25 7
def immI (w : Nat) : Nat := sext 12 (bitsAt w 20 12)
def immS (w : Nat) : Nat := sext 12 (bitsAt w 25 7 * 32 + bitsAt w 7 5)
def immB (w : Nat) : Nat := sext 13 (bitsAt w 31 1 * 4096 + bitsAt w 7 1 * 2048 + bitsAt w 25 6 * 32 + bitsAt w 8 4 * 2)
def immU (w : Nat) : Nat := sext 32 (bitsAt w 12 20 * 4096)
def immJ (w : Nat) : Nat := sext 21 (bitsAt w 31 1 * 2 ^ 20 + bitsAt w 12 8 * 4096 + bitsAt w 20 1 * 2048 + bitsAt w 21 10 * 2)

/-! Memory. -/

/-- A load: what `f` makes of its bytes, or the trap. -/
def HartMem.load (m : HartMem) (a n : Nat) (f : Nat → HartOut) : HartOut :=
  match m.rd a n with
  | none => .trap m.badLoad a
  | some b => f (leNat b)

/-- A store retires, or traps. -/
def HartMem.store (m : HartMem) (h : Hart) (len a n v : Nat) : HartOut :=
  if m.wr a n then .next (h.retire len) [(a, leBytes n v)] else .trap m.badStore a

/-! Control and status registers (Table 9-2). -/

/-- A register's value; none where it does not exist. -/
def Hart.csr (h : Hart) (n : Nat) : Option Nat :=
  if n = 1 then some h.fflags else if n = 2 then some h.frm else if n = 3 then some (h.frm * 32 + h.fflags)
  else if n = 8 then some h.vstart else if n = 9 then some h.vxsat else if n = 0xA then some h.vxrm else if n = 0xF then some (h.vxrm * 2 + h.vxsat)
  else if n = 0xC00 ∨ n = 0xC01 ∨ n = 0xC02 then some (h.instret % 2 ^ 64)
  else if n = 0xC20 then some h.vl else if n = 0xC21 then some h.vtype else if n = 0xC22 then some 32
  else none

/-- Write a register. -/
def Hart.setCsr (h : Hart) (n v : Nat) : Hart :=
  if n = 1 then { h with fflags := v % 32 } else if n = 2 then { h with frm := v % 8 }
  else if n = 3 then { h with fflags := v % 32, frm := v / 32 % 8 }
  else if n = 8 then { h with vstart := v % 256 } else if n = 9 then { h with vxsat := v % 2 } else if n = 0xA then { h with vxrm := v % 4 }
  else if n = 0xF then { h with vxsat := v % 2, vxrm := v / 2 % 4 } else h

/-- CSRRW, CSRRS, CSRRC and their immediate forms. -/
def csrExec (h : Hart) (len w : Nat) : HartOut :=
  let n := bitsAt w 20 12
  let f := iF3 w % 4
  let s := if iF3 w < 4 then h.xr (iRs1 w) else iRs1 w
  match h.csr n with
  | none => illegal w
  | some old =>
    let writes := f = 1 ∨ iRs1 w ≠ 0
    if writes ∧ 0xC00 ≤ n then illegal w
    else
      let v := if f = 1 then s else if f = 2 then old ||| s else old &&& (2 ^ 64 - 1 - s)
      (if writes then h.setCsr n v else h).wb len (iRd w) old

/-! Integer computation (I, M). -/

/-- The operation of funct3 on `w`-bit operands; `alt`: subtraction or arithmetic shift. -/
def intOp (w f3 : Nat) (alt : Bool) (a b : Nat) : Nat :=
  if f3 = 0 then (if alt then a + 2 ^ w - b else a + b) % 2 ^ w
  else if f3 = 1 then (a <<< (b % w)) % 2 ^ w
  else if f3 = 2 then (decide (sint w a < sint w b)).toNat
  else if f3 = 3 then (decide (a < b)).toNat
  else if f3 = 4 then a ^^^ b
  else if f3 = 5 then (if alt then sra w a (b % w) else a >>> (b % w))
  else if f3 = 6 then a ||| b
  else a &&& b

/-- The operations of M on 64-bit operands. -/
def mulOp (f3 a b : Nat) : Nat :=
  if f3 = 0 then a * b % 2 ^ 64
  else if f3 = 1 then uintOf 64 (sint 64 a * sint 64 b / 2 ^ 64)
  else if f3 = 2 then uintOf 64 (sint 64 a * b / 2 ^ 64)
  else if f3 = 3 then a * b / 2 ^ 64
  else if f3 = 4 then divS 64 a b
  else if f3 = 5 then divU 64 a b
  else if f3 = 6 then remS 64 a b
  else remU a b

/-- The operations of M on 32-bit operands. -/
def mulOpW (f3 a b : Nat) : Nat :=
  sext 32 (if f3 = 0 then a * b else if f3 = 4 then divS 32 a b else if f3 = 5 then divU 32 a b else if f3 = 6 then remS 32 a b else remU a b)

def opImm (h : Hart) (len w : Nat) : HartOut :=
  let f3 := iF3 w
  let top := bitsAt w 26 6
  let b := if f3 = 1 ∨ f3 = 5 then bitsAt w 20 6 else immI w
  if (f3 = 1 ∧ top ≠ 0) ∨ (f3 = 5 ∧ top ≠ 0 ∧ top ≠ 16) then illegal w
  else h.wb len (iRd w) (intOp 64 f3 (f3 == 5 && top == 16) (h.xr (iRs1 w)) b)

def opImm32 (h : Hart) (len w : Nat) : HartOut :=
  let f3 := iF3 w
  let f7 := iF7 w
  let b := if f3 = 0 then immI w % 2 ^ 32 else iRs2 w
  if f3 = 0 ∨ (f3 = 1 ∧ f7 = 0) ∨ (f3 = 5 ∧ (f7 = 0 ∨ f7 = 32)) then
    h.wb len (iRd w) (sext 32 (intOp 32 f3 (f3 == 5 && f7 == 32) (h.xr (iRs1 w) % 2 ^ 32) b))
  else illegal w

def opReg (h : Hart) (len w : Nat) : HartOut :=
  let f3 := iF3 w
  let f7 := iF7 w
  let a := h.xr (iRs1 w)
  let b := h.xr (iRs2 w)
  if f7 = 1 then h.wb len (iRd w) (mulOp f3 a b)
  else if f7 = 0 ∨ (f7 = 32 ∧ (f3 = 0 ∨ f3 = 5)) then h.wb len (iRd w) (intOp 64 f3 (f7 == 32) a b)
  else illegal w

def opReg32 (h : Hart) (len w : Nat) : HartOut :=
  let f3 := iF3 w
  let f7 := iF7 w
  let a := h.xr (iRs1 w) % 2 ^ 32
  let b := h.xr (iRs2 w) % 2 ^ 32
  if f7 = 1 ∧ (f3 = 0 ∨ 4 ≤ f3) then h.wb len (iRd w) (mulOpW f3 a b)
  else if (f7 = 0 ∧ (f3 = 0 ∨ f3 = 1 ∨ f3 = 5)) ∨ (f7 = 32 ∧ (f3 = 0 ∨ f3 = 5)) then
    h.wb len (iRd w) (sext 32 (intOp 32 f3 (f7 == 32) a b))
  else illegal w

/-- Is the condition of a branch true? -/
def branchTaken (f3 a b : Nat) : Bool :=
  let t := if f3 < 2 then a == b else if f3 < 6 then decide (sint 64 a < sint 64 b) else decide (a < b)
  t != (f3 % 2 == 1)

def loadExec (m : HartMem) (h : Hart) (len w : Nat) : HartOut :=
  let f3 := iF3 w
  let n := 2 ^ (f3 % 4)
  if f3 = 7 then illegal w
  else m.load ((h.xr (iRs1 w) + immI w) % 2 ^ 64) n (fun v => h.wb len (iRd w) (if f3 < 4 then sext (8 * n) v else v))

def storeExec (m : HartMem) (h : Hart) (len w : Nat) : HartOut :=
  if 3 < iF3 w then illegal w
  else m.store h len ((h.xr (iRs1 w) + immS w) % 2 ^ 64) (2 ^ iF3 w) (h.xr (iRs2 w))

/-! Atomics (A). They need natural alignment, and memory that Table 9-2 allows them. -/

/-- The new value of an AMO of `w`-bit operands; none: no such operation. -/
def amoOp (f5 w a b : Nat) : Option Nat :=
  if f5 = 0 then some ((a + b) % 2 ^ w) else if f5 = 1 then some b else if f5 = 4 then some (a ^^^ b) else if f5 = 8 then some (a ||| b)
  else if f5 = 12 then some (a &&& b)
  else if f5 = 16 then some (if sint w a ≤ sint w b then a else b) else if f5 = 20 then some (if sint w a < sint w b then b else a)
  else if f5 = 24 then some (min a b) else if f5 = 28 then some (max a b)
  else none

def amoExec (m : HartMem) (h : Hart) (len w : Nat) : HartOut :=
  let f5 := bitsAt w 27 5
  let n := 2 ^ iF3 w
  let a := h.xr (iRs1 w)
  let b := h.xr (iRs2 w) % 2 ^ (8 * n)
  if iF3 w ≠ 2 ∧ iF3 w ≠ 3 then illegal w
  else if f5 = 2 then
    if iRs2 w ≠ 0 then illegal w
    else if a % n ≠ 0 then .trap 4 a
    else if !m.atomic a n then .trap m.badLoad a
    else m.load a n (fun v => { h with resv := some (a, n) }.wb len (iRd w) (sext (8 * n) v))
  else if f5 = 3 then
    if a % n ≠ 0 then .trap 6 a
    else if !m.atomic a n then .trap m.badStore a
    else
      let h1 : Hart := { h with resv := none }
      if h.resv = some (a, n) then m.store (h1.setX (iRd w) 0) len a n b else h1.wb len (iRd w) 1
  else match amoOp f5 (8 * n) 0 0 with
  | none => illegal w
  | some _ =>
    if a % n ≠ 0 then .trap 6 a
    else if !m.atomic a n then .trap m.badStore a
    else m.load a n (fun v => m.store (h.setX (iRd w) (sext (8 * n) v)) len a n ((amoOp f5 (8 * n) v b).getD 0))

/-- ECALL waits for its call; EBREAK traps; WFI does nothing; every other system instruction is illegal in user mode. -/
def systemExec (h : Hart) (len w : Nat) : HartOut :=
  if iF3 w % 4 ≠ 0 then csrExec h len w
  else if w = 0x73 then .call
  else if w = 0x100073 then .trap 3 0
  else if w = 0x10500073 then h.done len
  else illegal w

/-! Compressed instructions (C): the 32-bit instruction that each stands for. -/

def encI (imm rs1 f3 rd op : Nat) : Nat := imm % 4096 * 2 ^ 20 + rs1 * 2 ^ 15 + f3 * 2 ^ 12 + rd * 2 ^ 7 + op
def encS (imm rs2 rs1 f3 op : Nat) : Nat :=
  imm / 32 % 128 * 2 ^ 25 + rs2 * 2 ^ 20 + rs1 * 2 ^ 15 + f3 * 2 ^ 12 + imm % 32 * 2 ^ 7 + op
def encR (f7 rs2 rs1 f3 rd op : Nat) : Nat := f7 * 2 ^ 25 + rs2 * 2 ^ 20 + rs1 * 2 ^ 15 + f3 * 2 ^ 12 + rd * 2 ^ 7 + op
def encB (imm rs2 rs1 f3 : Nat) : Nat :=
  imm / 4096 % 2 * 2 ^ 31 + imm / 32 % 64 * 2 ^ 25 + rs2 * 2 ^ 20 + rs1 * 2 ^ 15 + f3 * 2 ^ 12 + imm / 2 % 16 * 2 ^ 8 + imm / 2048 % 2 * 2 ^ 7 + 0x63
def encJ (imm rd : Nat) : Nat :=
  imm / 2 ^ 20 % 2 * 2 ^ 31 + imm / 2 % 1024 * 2 ^ 21 + imm / 2048 % 2 * 2 ^ 20 + imm / 4096 % 256 * 2 ^ 12 + rd * 2 ^ 7 + 0x6F

/-- Quadrant 0: loads and stores of the registers 8 to 15, and c.addi4spn. -/
def expandC0 (c : Nat) : Option Nat :=
  let f3 := bitsAt c 13 3
  let rd := 8 + bitsAt c 2 3
  let rs := 8 + bitsAt c 7 3
  let o4 := bitsAt c 5 1 * 64 + bitsAt c 10 3 * 8 + bitsAt c 6 1 * 4
  let o8 := bitsAt c 5 2 * 64 + bitsAt c 10 3 * 8
  let sp := bitsAt c 7 4 * 64 + bitsAt c 11 2 * 16 + bitsAt c 5 1 * 8 + bitsAt c 6 1 * 4
  if f3 = 0 then (if sp = 0 then none else some (encI sp 2 0 rd 0x13))
  else if f3 = 1 then some (encI o8 rs 3 rd 0x07)
  else if f3 = 2 then some (encI o4 rs 2 rd 0x03)
  else if f3 = 3 then some (encI o8 rs 3 rd 0x03)
  else if f3 = 5 then some (encS o8 rd rs 3 0x27)
  else if f3 = 6 then some (encS o4 rd rs 2 0x23)
  else if f3 = 7 then some (encS o8 rd rs 3 0x23)
  else none

/-- Quadrant 1: immediates, arithmetic of the registers 8 to 15, jumps and branches. -/
def expandC1 (c : Nat) : Option Nat :=
  let f3 := bitsAt c 13 3
  let rd := bitsAt c 7 5
  let i6 := bitsAt c 12 1 * 32 + bitsAt c 2 5
  let imm := sext 6 i6
  let r := 8 + bitsAt c 7 3
  let r2 := 8 + bitsAt c 2 3
  let j := sext 12 (bitsAt c 12 1 * 2048 + bitsAt c 8 1 * 1024 + bitsAt c 9 2 * 256 + bitsAt c 6 1 * 128 + bitsAt c 7 1 * 64 + bitsAt c 2 1 * 32
    + bitsAt c 11 1 * 16 + bitsAt c 3 3 * 2)
  let b := sext 9 (bitsAt c 12 1 * 256 + bitsAt c 5 2 * 64 + bitsAt c 2 1 * 32 + bitsAt c 10 2 * 8 + bitsAt c 3 2 * 2)
  let sp := sext 10 (bitsAt c 12 1 * 512 + bitsAt c 3 2 * 128 + bitsAt c 5 1 * 64 + bitsAt c 2 1 * 32 + bitsAt c 6 1 * 16)
  if f3 = 0 then some (encI imm rd 0 rd 0x13)
  else if f3 = 1 then (if rd = 0 then none else some (encI imm rd 0 rd 0x1B))
  else if f3 = 2 then some (encI imm 0 0 rd 0x13)
  else if f3 = 3 then
    if i6 = 0 then none
    else if rd = 2 then some (encI sp 2 0 2 0x13)
    else some (imm % 2 ^ 20 * 4096 + rd * 128 + 0x37)
  else if f3 = 4 then
    let k := bitsAt c 10 2
    if k = 0 then some (encI i6 r 5 r 0x13)
    else if k = 1 then some (encI (i6 + 0x400) r 5 r 0x13)
    else if k = 2 then some (encI imm r 7 r 0x13)
    else
      let o := bitsAt c 12 1 * 4 + bitsAt c 5 2
      if o = 0 then some (encR 32 r2 r 0 r 0x33) else if o = 1 then some (encR 0 r2 r 4 r 0x33) else if o = 2 then some (encR 0 r2 r 6 r 0x33)
      else if o = 3 then some (encR 0 r2 r 7 r 0x33) else if o = 4 then some (encR 32 r2 r 0 r 0x3B) else if o = 5 then some (encR 0 r2 r 0 r 0x3B)
      else none
  else if f3 = 5 then some (encJ j 0)
  else some (encB b 0 r (f3 - 6))

/-- Quadrant 2: shifts, loads and stores by sp, jumps to a register, moves and adds. -/
def expandC2 (c : Nat) : Option Nat :=
  let f3 := bitsAt c 13 3
  let rd := bitsAt c 7 5
  let rs := bitsAt c 2 5
  let sh := bitsAt c 12 1 * 32 + rs
  let l8 := bitsAt c 2 3 * 64 + bitsAt c 12 1 * 32 + bitsAt c 5 2 * 8
  let l4 := bitsAt c 2 2 * 64 + bitsAt c 12 1 * 32 + bitsAt c 4 3 * 4
  let s8 := bitsAt c 7 3 * 64 + bitsAt c 10 3 * 8
  let s4 := bitsAt c 7 2 * 64 + bitsAt c 9 4 * 4
  if f3 = 0 then some (encI sh rd 1 rd 0x13)
  else if f3 = 1 then some (encI l8 2 3 rd 0x07)
  else if f3 = 2 then (if rd = 0 then none else some (encI l4 2 2 rd 0x03))
  else if f3 = 3 then (if rd = 0 then none else some (encI l8 2 3 rd 0x03))
  else if f3 = 4 then
    if bitsAt c 12 1 = 0 then
      (if rs = 0 then (if rd = 0 then none else some (encI 0 rd 0 0 0x67)) else some (encR 0 rs 0 0 rd 0x33))
    else if rs = 0 then (if rd = 0 then some 0x100073 else some (encI 0 rd 0 1 0x67))
    else some (encR 0 rs rd 0 rd 0x33)
  else if f3 = 5 then some (encS s8 rs 2 3 0x27)
  else if f3 = 6 then some (encS s4 rs 2 2 0x23)
  else some (encS s8 rs 2 3 0x23)

def expandC (c : Nat) : Option Nat := if c % 4 = 0 then expandC0 c else if c % 4 = 1 then expandC1 c else if c % 4 = 2 then expandC2 c else none

end Sys2Proof.Machine
end

