-- ==== Sys2Proof/Machine/HartFp.lean ====
section
/-! DEFINITION. Floating point of the user program cores: IEEE 754 arithmetic and the F and D extensions (09 R277; RISC-V unprivileged
ISA, which Table 9-2 names) (PRESUMED, log 182). A number is a sign, a whole significand and a power of two. -/

namespace Sys2Proof.Machine

/-- A format: bits of precision, bits of exponent. -/
structure Fmt where
  p : Nat := 24
  eb : Nat := 8
  deriving DecidableEq, Repr, Inhabited

/-- Single and double precision. -/
def f32 : Fmt := { p := 24, eb := 8 }
def f64 : Fmt := { p := 53, eb := 11 }
def Fmt.bits (f : Fmt) : Nat := f.p + f.eb
def Fmt.emax (f : Fmt) : Int := 2 ^ (f.eb - 1) - 1
def Fmt.emin (f : Fmt) : Int := 1 - f.emax

/-- What a word of a format stands for. -/
inductive FVal where
  | nan (signaling : Bool)
  | inf (neg : Bool)
  | num (neg : Bool) (m : Nat) (e : Int)
  deriving DecidableEq, Repr, Inhabited

/-- Accrued exception flags. -/
def fNX : Nat := 1
def fUF : Nat := 2
def fOF : Nat := 4
def fDZ : Nat := 8
def fNV : Nat := 16

def Fmt.sign (f : Fmt) (v : Nat) : Bool := bitAt v (f.bits - 1)
def Fmt.exp (f : Fmt) (v : Nat) : Nat := bitsAt v (f.p - 1) f.eb
def Fmt.frac (f : Fmt) (v : Nat) : Nat := v % 2 ^ (f.p - 1)

def Fmt.val (f : Fmt) (v : Nat) : FVal :=
  let e := f.exp v
  let m := f.frac v
  if e = 2 ^ f.eb - 1 then (if m = 0 then .inf (f.sign v) else .nan (!bitAt m (f.p - 2)))
  else .num (f.sign v) (if e = 0 then m else m + 2 ^ (f.p - 1)) (f.emin - (f.p - 1 : Nat) + ((e - 1 : Nat) : Int))

/-- Words: zero, infinity, the canonical NaN, the largest finite number. -/
def Fmt.word (f : Fmt) (neg : Bool) (e m : Nat) : Nat := neg.toNat * 2 ^ (f.bits - 1) + e * 2 ^ (f.p - 1) + m
def Fmt.zero (f : Fmt) (neg : Bool) : Nat := f.word neg 0 0
def Fmt.infw (f : Fmt) (neg : Bool) : Nat := f.word neg (2 ^ f.eb - 1) 0
def Fmt.qnan (f : Fmt) : Nat := f.word false (2 ^ f.eb - 1) (2 ^ (f.p - 2))
def Fmt.big (f : Fmt) (neg : Bool) : Nat := f.word neg (2 ^ f.eb - 2) (2 ^ (f.p - 1) - 1)

/-- A word and the flags it raises. -/
abbrev FOut := Nat × Nat

/-- Does a rounding mode move a magnitude up? `k`: 0 exact, 1 below half, 2 half, 3 above half. -/
def roundUp (rm : Nat) (neg odd : Bool) (k : Nat) : Bool :=
  if rm = 0 then k == 3 || (k == 2 && odd)
  else if rm = 1 then false
  else if rm = 2 then neg && k != 0
  else if rm = 3 then !neg && k != 0
  else if rm = 4 then decide (2 ≤ k)
  else k != 0 && !odd

/-- `m` times 2^`e`, and a little more where `more`, in units of 2^`q`: the whole part, and what is left of it as `roundUp` takes it. -/
def toUnits (m : Nat) (e : Int) (more : Bool) (q : Int) : Nat × Nat :=
  if q ≤ e then (m * 2 ^ (e - q).toNat, if more then 1 else 0)
  else
    let s := (q - e).toNat
    let r := m % 2 ^ s
    let half := 2 ^ (s - 1)
    (m / 2 ^ s, if r = 0 then (if more then 1 else 0) else if r < half then 1 else if r = half ∧ !more then 2 else 3)

/-- The word nearest to a number by a rounding mode, with its flags; tininess is found after rounding. -/
def Fmt.round (f : Fmt) (rm : Nat) (neg : Bool) (m : Nat) (e : Int) (more : Bool) : FOut :=
  if m = 0 then (f.zero neg, 0)
  else
    let top : Int := e + (Nat.log2 m : Nat)
    let q := max (top - (f.p - 1 : Nat)) (f.emin - (f.p - 1 : Nat))
    let u := toUnits m e more q
    let n := u.1 + (roundUp rm neg (u.1 % 2 == 1) u.2).toNat
    let w := toUnits m e more (top - (f.p - 1 : Nat))
    let full := w.1 + (roundUp rm neg (w.1 % 2 == 1) w.2).toNat
    let tiny := decide (top < f.emin) && !(top + 1 == f.emin && full == 2 ^ f.p)
    let nx := u.2 != 0
    let x : Int := q + (f.p - 1 : Nat) + (if n = 2 ^ f.p then 1 else 0)
    if 2 ^ (f.p - 1) ≤ n ∧ f.emax < x then
      (if rm = 0 ∨ rm = 4 ∨ (rm = 2 ∧ neg) ∨ (rm = 3 ∧ !neg) then f.infw neg else f.big neg, fOF + fNX)
    else
      (if n < 2 ^ (f.p - 1) then f.word neg 0 n else f.word neg (x + f.emax).toNat (n % 2 ^ (f.p - 1)),
       (if nx then fNX else 0) + (if tiny && nx then fUF else 0))

/-- A NaN among the operands: the canonical NaN, invalid where one signals. -/
def Fmt.nanOut (f : Fmt) (l : List FVal) : FOut := (f.qnan, if l.any (fun v => v == .nan true) then fNV else 0)
def FVal.isNan : FVal → Bool
  | .nan _ => true
  | _ => false

def Fmt.invalid (f : Fmt) : FOut := (f.qnan, fNV)

/-- The exact sum of two numbers, rounded. -/
def Fmt.sum (f : Fmt) (rm : Nat) (s1 : Bool) (m1 : Nat) (e1 : Int) (s2 : Bool) (m2 : Nat) (e2 : Int) : FOut :=
  let e := min e1 e2
  let a : Int := m1 * 2 ^ (e1 - e).toNat
  let b : Int := m2 * 2 ^ (e2 - e).toNat
  let t := (if s1 then -a else a) + (if s2 then -b else b)
  if t = 0 then (f.zero (if m1 = 0 ∧ m2 = 0 ∧ s1 = s2 then s1 else rm == 2), 0)
  else f.round rm (decide (t < 0)) t.natAbs e false

def Fmt.add (f : Fmt) (rm a b : Nat) : FOut :=
  match f.val a, f.val b with
  | .num s1 m1 e1, .num s2 m2 e2 => f.sum rm s1 m1 e1 s2 m2 e2
  | .inf s1, .inf s2 => if s1 = s2 then (f.infw s1, 0) else f.invalid
  | .inf s, .num _ _ _ => (f.infw s, 0)
  | .num _ _ _, .inf s => (f.infw s, 0)
  | x, y => f.nanOut [x, y]

/-- A word with its sign changed. -/
def Fmt.neg (f : Fmt) (a : Nat) : Nat := if f.sign a then a - 2 ^ (f.bits - 1) else a + 2 ^ (f.bits - 1)
def Fmt.sub (f : Fmt) (rm a b : Nat) : FOut :=
  match f.val b with
  | .nan _ => f.add rm a b
  | _ => f.add rm a (f.neg b)

def Fmt.mul (f : Fmt) (rm a b : Nat) : FOut :=
  match f.val a, f.val b with
  | .num s1 m1 e1, .num s2 m2 e2 => f.round rm (s1 != s2) (m1 * m2) (e1 + e2) false
  | .inf s1, .inf s2 => (f.infw (s1 != s2), 0)
  | .inf s1, .num s2 m _ => if m = 0 then f.invalid else (f.infw (s1 != s2), 0)
  | .num s1 m _, .inf s2 => if m = 0 then f.invalid else (f.infw (s1 != s2), 0)
  | x, y => f.nanOut [x, y]

def Fmt.div (f : Fmt) (rm a b : Nat) : FOut :=
  match f.val a, f.val b with
  | .num s1 m1 e1, .num s2 m2 e2 =>
    if m2 = 0 then (if m1 = 0 then f.invalid else (f.infw (s1 != s2), fDZ))
    else
      let k := 2 * f.p + 4 + Nat.log2 m2
      f.round rm (s1 != s2) (m1 * 2 ^ k / m2) (e1 - e2 - (k : Nat)) (m1 * 2 ^ k % m2 != 0)
  | .inf _, .inf _ => f.invalid
  | .inf s1, .num s2 _ _ => (f.infw (s1 != s2), 0)
  | .num s1 _ _, .inf s2 => (f.zero (s1 != s2), 0)
  | x, y => f.nanOut [x, y]

/-- The whole square root, bit by bit from bit `k`. -/
def sqrtGo (n : Nat) : Nat → Nat → Nat
  | 0, r => r
  | k + 1, r => sqrtGo n k (if (r + 2 ^ k) * (r + 2 ^ k) ≤ n then r + 2 ^ k else r)

def Fmt.sqrt (f : Fmt) (rm a : Nat) : FOut :=
  match f.val a with
  | .num s m e =>
    if m = 0 then (f.zero s, 0)
    else if s then f.invalid
    else
      let k := 2 * f.p + 4 + (if (e - (2 * f.p + 4 : Nat)) % 2 = 0 then 0 else 1)
      let n := m * 2 ^ k
      let r := sqrtGo n (2 * f.p + 4) 0
      f.round rm false r ((e - (k : Nat)) / 2) (r * r != n)
  | .inf s => if s then f.invalid else (f.infw false, 0)
  | x => f.nanOut [x]

/-- a times b plus c, rounded once. -/
def Fmt.fma (f : Fmt) (rm a b c : Nat) : FOut :=
  match f.val a, f.val b, f.val c with
  | .num s1 m1 e1, .num s2 m2 e2, .num s3 m3 e3 => f.sum rm (s1 != s2) (m1 * m2) (e1 + e2) s3 m3 e3
  | .num _ _ _, .num _ _ _, .inf s => (f.infw s, 0)
  | x, y, z =>
    let zeroInf := match x, y with
      | .inf _, .num _ m _ => m == 0
      | .num _ m _, .inf _ => m == 0
      | _, _ => false
    if zeroInf then f.invalid
    else if x.isNan || y.isNan || z.isNan then f.nanOut [x, y, z]
    else
      let s := f.sign a != f.sign b
      match z with
      | .inf t => if s = t then (f.infw s, 0) else f.invalid
      | _ => (f.infw s, 0)

/-- Is a number below another? Zeros are equal. -/
def FVal.lt : FVal → FVal → Bool
  | .num s1 m1 e1, .num s2 m2 e2 =>
    let e := min e1 e2
    let a : Int := m1 * 2 ^ (e1 - e).toNat
    let b : Int := m2 * 2 ^ (e2 - e).toNat
    decide ((if s1 then -a else a) < (if s2 then -b else b))
  | .inf s, .inf t => s && !t
  | .inf s, .num _ _ _ => s
  | .num _ _ _, .inf t => !t
  | _, _ => false

/-- Equal, less, less or equal: the result and the flags. -/
def Fmt.feq (f : Fmt) (a b : Nat) : FOut :=
  let x := f.val a
  let y := f.val b
  if x.isNan || y.isNan then (0, (f.nanOut [x, y]).2) else ((!x.lt y && !y.lt x).toNat, 0)
def Fmt.flt (f : Fmt) (a b : Nat) : FOut :=
  let x := f.val a
  let y := f.val b
  if x.isNan || y.isNan then (0, fNV) else ((x.lt y).toNat, 0)
def Fmt.fle (f : Fmt) (a b : Nat) : FOut :=
  let x := f.val a
  let y := f.val b
  if x.isNan || y.isNan then (0, fNV) else ((!y.lt x).toNat, 0)

/-- Minimum and maximum: a NaN gives way to a number, and -0 lies below +0. -/
def Fmt.minMax (f : Fmt) (mx : Bool) (a b : Nat) : FOut :=
  let x := f.val a
  let y := f.val b
  let fl := (f.nanOut [x, y]).2
  if x.isNan && y.isNan then (f.qnan, fl)
  else if x.isNan then (b, fl)
  else if y.isNan then (a, fl)
  else
    let less := x.lt y || (!y.lt x && f.sign a)
    (if less != mx then a else b, fl)

/-- Sign injection: 0 the sign of b, 1 its opposite, 2 the exclusive or. -/
def Fmt.sgnj (f : Fmt) (k a b : Nat) : Nat :=
  let s := if k = 0 then f.sign b else if k = 1 then !f.sign b else f.sign a != f.sign b
  s.toNat * 2 ^ (f.bits - 1) + a % 2 ^ (f.bits - 1)

/-- The ten classes. -/
def Fmt.classify (f : Fmt) (a : Nat) : Nat :=
  match f.val a with
  | .nan s => if s then 2 ^ 8 else 2 ^ 9
  | .inf s => if s then 1 else 2 ^ 7
  | .num s m _ =>
    if m = 0 then (if s then 2 ^ 3 else 2 ^ 4)
    else if f.exp a = 0 then (if s then 2 ^ 2 else 2 ^ 5)
    else if s then 2 else 2 ^ 6

/-! Conversions. -/

/-- To an integer of `w` bits, saturating. -/
def Fmt.toInt (f : Fmt) (rm w : Nat) (sgn : Bool) (a : Nat) : FOut :=
  let hi : Int := if sgn then 2 ^ (w - 1) - 1 else 2 ^ w - 1
  let lo : Int := if sgn then -(2 ^ (w - 1)) else 0
  match f.val a with
  | .num s m e =>
    let u := toUnits m e false 0
    let n := u.1 + (roundUp rm s (u.1 % 2 == 1) u.2).toNat
    let i : Int := if s then -(n : Int) else n
    if hi < i then (uintOf w hi, fNV) else if i < lo then (uintOf w lo, fNV) else (uintOf w i, if u.2 = 0 then 0 else fNX)
  | .inf s => (uintOf w (if s then lo else hi), fNV)
  | .nan _ => (uintOf w hi, fNV)

/-- From an integer. -/
def Fmt.ofInt (f : Fmt) (rm : Nat) (i : Int) : FOut := f.round rm (decide (i < 0)) i.natAbs 0 false

/-- From another format. -/
def Fmt.ofFmt (f g : Fmt) (rm a : Nat) : FOut :=
  match g.val a with
  | .num s m e => f.round rm s m e false
  | .inf s => (f.infw s, 0)
  | x => f.nanOut [x]

/-! The instructions (F, D). -/

/-- A 32-bit value in a 64-bit register has ones above it; else it reads as the canonical NaN. -/
def boxed (v : Nat) : Nat := v % 2 ^ 32 + (2 ^ 64 - 2 ^ 32)
def unboxed (v : Nat) : Nat := if v / 2 ^ 32 = 2 ^ 32 - 1 then v % 2 ^ 32 else f32.qnan

/-- A register in a format, and a result into one. -/
def Hart.ff (h : Hart) (f : Fmt) (i : Nat) : Nat := if f = f32 then unboxed (h.fr i) else h.fr i
def Hart.putF (h : Hart) (f : Fmt) (i v : Nat) : Hart := h.setF i (if f = f32 then boxed v else v)
def Hart.wbF (h : Hart) (f : Fmt) (len rd : Nat) (r : FOut) : HartOut := ((h.putF f rd r.1).flag r.2).done len
def Hart.wbFX (h : Hart) (len rd : Nat) (r : FOut) : HartOut := ((h.setX rd r.1).flag r.2).done len

/-- The rounding mode of an instruction; none where it is reserved. -/
def Hart.rm? (h : Hart) (r : Nat) : Option Nat :=
  let k := if r = 7 then h.frm else r
  if k < 5 then some k else none

/-- The format of an instruction's fmt field. -/
def fmt? (k : Nat) : Option Fmt := if k = 0 then some f32 else if k = 1 then some f64 else none

/-- FMADD, FMSUB, FNMSUB, FNMADD. -/
def fmaExec (h : Hart) (len w : Nat) : HartOut :=
  match fmt? (bitsAt w 25 2), h.rm? (iF3 w) with
  | some f, some rm =>
    let k := bitsAt w 2 2
    let a := h.ff f (iRs1 w)
    let c := h.ff f (bitsAt w 27 5)
    h.wbF f len (iRd w) (f.fma rm (if 2 ≤ k then f.neg a else a) (h.ff f (iRs2 w)) (if k = 1 ∨ k = 3 then f.neg c else c))
  | _, _ => illegal w

/-- Conversions and moves between the integer and the floating-point registers. -/
def fpMoves (h : Hart) (len w : Nat) (f : Fmt) : HartOut :=
  let f5 := bitsAt w 27 5
  let rs2 := iRs2 w
  let a := h.ff f (iRs1 w)
  let n := if rs2 < 2 then 32 else 64
  let sgn := rs2 % 2 == 0
  if f5 = 0x18 ∧ rs2 < 4 then
    match h.rm? (iF3 w) with
    | some rm => let r := f.toInt rm n sgn a; h.wbFX len (iRd w) (sext n r.1, r.2)
    | none => illegal w
  else if f5 = 0x1A ∧ rs2 < 4 then
    match h.rm? (iF3 w) with
    | some rm =>
      let v := h.xr (iRs1 w) % 2 ^ n
      h.wbF f len (iRd w) (f.ofInt rm (if sgn then sint n v else v))
    | none => illegal w
  else if f5 = 0x1C ∧ rs2 = 0 ∧ iF3 w = 0 then h.wb len (iRd w) (sext f.bits (h.fr (iRs1 w)))
  else if f5 = 0x1C ∧ rs2 = 0 ∧ iF3 w = 1 then h.wb len (iRd w) (f.classify a)
  else if f5 = 0x1E ∧ rs2 = 0 ∧ iF3 w = 0 then (h.putF f (iRd w) (h.xr (iRs1 w) % 2 ^ f.bits)).done len
  else illegal w

/-- OP-FP. -/
def fpExec (h : Hart) (len w : Nat) : HartOut :=
  let f5 := bitsAt w 27 5
  match fmt? (bitsAt w 25 2) with
  | none => illegal w
  | some f =>
    let a := h.ff f (iRs1 w)
    let b := h.ff f (iRs2 w)
    let rd := iRd w
    if f5 < 4 then
      match h.rm? (iF3 w) with
      | some rm => h.wbF f len rd (if f5 = 0 then f.add rm a b else if f5 = 1 then f.sub rm a b else if f5 = 2 then f.mul rm a b else f.div rm a b)
      | none => illegal w
    else if f5 = 0x0B ∧ iRs2 w = 0 then
      match h.rm? (iF3 w) with
      | some rm => h.wbF f len rd (f.sqrt rm a)
      | none => illegal w
    else if f5 = 4 ∧ iF3 w < 3 then h.wbF f len rd (f.sgnj (iF3 w) a b, 0)
    else if f5 = 5 ∧ iF3 w < 2 then h.wbF f len rd (f.minMax (iF3 w == 1) a b)
    else if f5 = 8 then
      match fmt? (iRs2 w), h.rm? (iF3 w) with
      | some g, some rm => if g = f then illegal w else h.wbF f len rd (f.ofFmt g rm (h.ff g (iRs1 w)))
      | _, _ => illegal w
    else if f5 = 0x14 ∧ iF3 w < 3 then h.wbFX len rd (if iF3 w = 2 then f.feq a b else if iF3 w = 1 then f.flt a b else f.fle a b)
    else fpMoves h len w f

/-- FLW, FLD. -/
def fpLoad (m : HartMem) (h : Hart) (len w : Nat) : HartOut :=
  match fmt? (iF3 w - 2) with
  | some f => if iF3 w < 2 then illegal w
    else m.load ((h.xr (iRs1 w) + immI w) % 2 ^ 64) (f.bits / 8) (fun v => (h.putF f (iRd w) v).done len)
  | none => illegal w

/-- FSW, FSD. -/
def fpStore (m : HartMem) (h : Hart) (len w : Nat) : HartOut :=
  match fmt? (iF3 w - 2) with
  | some f => if iF3 w < 2 then illegal w else m.store h len ((h.xr (iRs1 w) + immS w) % 2 ^ 64) (f.bits / 8) (h.fr (iRs2 w))
  | none => illegal w

end Sys2Proof.Machine
end

