-- ==== Sys2Proof/Machine/HartVec.lean ====
section
/-! DEFINITION. The vector registers of the user program cores and how vector instructions read and write them (09 R277: V 1.0, VLEN
256, ELEN 64; RISC-V vector extension 1.0) (PRESUMED, log 182). -/

namespace Sys2Proof.Machine

/-! The vector type. LMUL is 2 to a power of -3 to 3. -/

def Hart.vill (h : Hart) : Bool := bitAt h.vtype 63
def sewOf (t : Nat) : Nat := 8 * 2 ^ bitsAt t 3 3
def lmulOf (t : Nat) : Int := let k := bitsAt t 0 3; if k < 4 then (k : Int) else (k : Int) - 8
def Hart.sew (h : Hart) : Nat := sewOf h.vtype
def Hart.lmul (h : Hart) : Int := lmulOf h.vtype
def Hart.vta (h : Hart) : Bool := bitAt h.vtype 6
def Hart.vma (h : Hart) : Bool := bitAt h.vtype 7

/-- Elements of `sew` bits in a group of 2^`em` registers. -/
def vlmaxOf (sew : Nat) (em : Int) : Nat := 256 * 2 ^ em.toNat / (sew * 2 ^ (-em).toNat)
def Hart.vlmax (h : Hart) : Nat := vlmaxOf h.sew h.lmul

/-- Registers of a group, and whether a register may start one. -/
def groupRegs (em : Int) : Nat := 2 ^ em.toNat
def groupOk (em : Int) (r : Nat) : Bool := decide (-3 ≤ em) && decide (em ≤ 3) && r % groupRegs em == 0

/-- The power of two of the group that holds elements of `eew` bits. -/
def Hart.emulOf (h : Hart) (eew : Nat) : Int := h.lmul + (Nat.log2 eew : Nat) - (Nat.log2 h.sew : Nat)

def regsMeet (a n b m : Nat) : Bool := decide (a < b + m) && decide (b < a + n)

/-- May a destination group share registers with a source group of another element width? Bits count as width 1. -/
def groupsMay (de : Nat) (dm : Int) (d se : Nat) (sm : Int) (s : Nat) : Bool :=
  if !regsMeet d (groupRegs dm) s (groupRegs sm) || de == se then true
  else if de < se then d == s
  else decide (0 ≤ sm) && s + groupRegs sm == d + groupRegs dm

/-! Elements. -/

/-- Element `i` of `sew` bits in the group at register `r`. -/
def Hart.ve (h : Hart) (sew r i : Nat) : Nat := bitsAt (tval h.v (r + i * sew / 256)).toNat (i * sew % 256) sew
def Hart.setVe (h : Hart) (sew r i x : Nat) : Hart :=
  let k := r + i * sew / 256
  let o := i * sew % 256
  let old := (tval h.v k).toNat
  { h with v := tset h.v k (BitVec.ofNat 256 (old - bitsAt old o sew * 2 ^ o + x % 2 ^ sew * 2 ^ o)) }

/-- Mask bit `i` of register `r`. -/
def Hart.vbit (h : Hart) (r i : Nat) : Bool := bitAt (tval h.v r).toNat i

/-- Fields of a vector instruction. -/
def iVm (w : Nat) : Bool := bitAt w 25
def iF6 (w : Nat) : Nat := bitsAt w 26 6

/-- Is element `i` of the body active? -/
def Hart.active (h : Hart) (w i : Nat) : Bool := iVm w || h.vbit 0 i
/-- The elements an instruction works on. -/
def Hart.body (h : Hart) (w : Nat) : List Nat := (List.range h.vl).filter (fun i => decide (h.vstart ≤ i) && h.active w i)

/-- Write a destination group: active elements take their value, the others keep theirs or, where they are agnostic, may become
ones. `every`: an instruction that is not masked though it reads v0. -/
def Hart.vput (h : Hart) (w : Nat) (eew : Nat) (em : Int) (d : Nat) (every : Bool) (f : Nat → Nat) : Hart :=
  if h.vl ≤ h.vstart then h
  else (List.range (groupRegs em * 256 / eew)).foldl (fun (a : Hart) i =>
    if i < h.vstart then a
    else if i < h.vl then
      (if every || h.active w i then a.setVe eew d i (f i) else if h.vma && Config.vecOnes w i then a.setVe eew d i (2 ^ eew - 1) else a)
    else if h.vta && Config.vecOnes w i then a.setVe eew d i (2 ^ eew - 1) else a) h

/-- Write a mask register, whose tail is always agnostic. -/
def Hart.vputMask (h : Hart) (w d : Nat) (every : Bool) (f : Nat → Bool) : Hart :=
  if h.vl ≤ h.vstart then h
  else (List.range 256).foldl (fun (a : Hart) i =>
    if i < h.vstart then a
    else if i < h.vl then
      (if every || h.active w i then a.setVe 1 d i (f i).toNat else if h.vma && Config.vecOnes w i then a.setVe 1 d i 1 else a)
    else if Config.vecOnes w i then a.setVe 1 d i 1 else a) h

/-- A vector instruction retires. -/
def Hart.vdone (h : Hart) : HartOut := { h with vstart := 0 }.done 4
def Hart.vwbX (h : Hart) (rd v : Nat) : HartOut := { (h.setX rd v) with vstart := 0 }.done 4

/-- Write element 0 of a register; the rest is tail. -/
def Hart.vput0 (h : Hart) (w eew d v : Nat) : Hart :=
  if h.vl ≤ h.vstart then h
  else (List.range (256 / eew)).foldl (fun (a : Hart) i =>
    if i = 0 then a.setVe eew d 0 v else if h.vta && Config.vecOnes w i then a.setVe eew d i (2 ^ eew - 1) else a) h

/-- May a masked instruction write this group: v0, the mask, is not part of it. -/
def maskOk (w d : Nat) : Bool := iVm w || d != 0

/-! VSETVL (vector type and length). -/

/-- The vector type that a request gives: VILL where it is not one that ELEN 64 supports. -/
def vtypeOf (t : Nat) : Nat :=
  if 256 ≤ t ∨ 3 < bitsAt t 3 3 ∨ bitsAt t 0 3 = 4 then 2 ^ 63
  else if (64 : Int) * 2 ^ (lmulOf t).toNat < sewOf t * 2 ^ (-lmulOf t).toNat then 2 ^ 63
  else t

/-- The vector length for a request. -/
def vlFor (avl vlmax : Nat) : Nat :=
  if avl ≤ vlmax then avl
  else if 2 * vlmax ≤ avl then vlmax
  else max ((avl + 1) / 2) (min vlmax (Config.vecLen avl vlmax))

def vsetExec (h : Hart) (w : Nat) : HartOut :=
  let imm := bitsAt w 31 1 = 1
  let ivl := bitsAt w 30 2 = 3
  if imm ∧ !ivl ∧ iF7 w ≠ 0x40 then illegal w
  else
    let t := vtypeOf (if !imm then bitsAt w 20 11 else if ivl then bitsAt w 20 10 else h.xr (iRs2 w))
    let mx := vlmaxOf (sewOf t) (lmulOf t)
    let keep := !ivl && iRs1 w = 0 && iRd w = 0
    let bad := t = 2 ^ 63 || (keep && (h.vill || mx != h.vlmax))
    let avl := if ivl then iRs1 w else if iRs1 w ≠ 0 then h.xr (iRs1 w) else 2 ^ 64 - 1
    let n := if bad then 0 else if keep then h.vl else vlFor avl mx
    { (h.setX (iRd w) n) with vl := n, vtype := if bad then 2 ^ 63 else t, vstart := 0 }.done 4

/-! Loads and stores. -/

/-- Where the fields of a vector load or store lie. -/
structure VMem where
  eew : Nat := 8
  em : Int := 0
  nf : Nat := 1
  addr : Nat → Nat → Nat

/-- One element of one field. -/
abbrev VEl := Nat × Nat

/-- Elements in the order they are accessed. -/
def VMem.els (body : List Nat) (nf : Nat) : List VEl := body.flatMap (fun i => (List.range nf).map (fun f => (i, f)))

def VMem.reg (a : VMem) (d f : Nat) : Nat := d + f * groupRegs a.em

/-- A load of the body's elements; `ff`: a fault behind element 0 shortens the vector length instead. -/
def vload (m : HartMem) (h : Hart) (w d : Nat) (a : VMem) (ff : Bool) : HartOut :=
  let n := a.eew / 8
  let put (h : Hart) : Hart := (List.range a.nf).foldl (fun (t : Hart) f =>
    { t with v := (({ h with v := t.v } : Hart).vput w a.eew a.em (a.reg d f) false (fun i => leNat ((m.rd (a.addr i f) n).getD []))).v }) h
  match (VMem.els (h.body w) a.nf).find? (fun e => (m.rd (a.addr e.1 e.2) n).isNone) with
  | none => (put h).vdone
  | some e => if ff ∧ 0 < e.1 then (put { h with vl := e.1 }).vdone else .trap m.badLoad (a.addr e.1 e.2)

/-- A store of the body's elements. -/
def vstore (m : HartMem) (h : Hart) (w d : Nat) (a : VMem) : HartOut :=
  let n := a.eew / 8
  let els := VMem.els (h.body w) a.nf
  let ws (l : List VEl) : List (Nat × List Byte) := l.map (fun e => (a.addr e.1 e.2, leBytes n (h.ve a.eew (a.reg d e.2) e.1)))
  match els.find? (fun e => !m.wr (a.addr e.1 e.2) n) with
  | none => .next ({ h with vstart := 0 }.retire 4) (ws els)
  | some e => .trap m.badStore (a.addr e.1 e.2) (ws (els.takeWhile (fun x => x != e)))

/-- VLE, VSE, VLSE, VSSE, VLUXEI, VLOXEI, VSUXEI, VSOXEI, their segment forms, VLM, VSM, VLEFF and the whole-register forms. -/
def vmemExec (m : HartMem) (h : Hart) (w : Nat) (store : Bool) : HartOut :=
  let k := iF3 w
  let width := if k = 0 then 8 else 8 * 2 ^ (k - 4)
  let nf := bitsAt w 29 3 + 1
  let mop := bitsAt w 26 2
  let base := h.xr (iRs1 w)
  let d := iRd w
  let um := iRs2 w
  let at_ (x : Nat) : Nat := (base + x) % 2 ^ 64
  let go (h : Hart) (a : VMem) (ff : Bool) : HartOut := if store then vstore m h w d a else vload m h w d a ff
  let fits (a : VMem) : Bool := groupOk a.em d && decide (a.nf * groupRegs a.em ≤ 8) && decide (d + a.nf * groupRegs a.em ≤ 32)
  if bitAt w 28 then illegal w
  else if mop = 0 ∧ um = 8 then
    -- whole registers
    if !iVm w ∨ !(nf == 1 || nf == 2 || nf == 4 || nf == 8) ∨ d % nf ≠ 0 ∨ (store ∧ width ≠ 8) then illegal w
    else
      let e := if store then 8 else width
      let r := go { h with vl := nf * 256 / e, vtype := 0 } { eew := e, em := (Nat.log2 nf : Nat), addr := fun i _ => at_ (i * e / 8) } false
      match r with
      | .next t ws => .next { t with vl := h.vl, vtype := h.vtype } ws
      | o => o
  else if h.vill then illegal w
  else if mop = 0 ∧ um = 11 then
    -- mask registers
    if !iVm w ∨ nf ≠ 1 ∨ width ≠ 8 then illegal w
    else match go { h with vl := (h.vl + 7) / 8, vtype := 2 ^ 6 } { eew := 8, em := 0, addr := fun i _ => at_ i } false with
    | .next t ws => .next { t with vl := h.vl, vtype := h.vtype } ws
    | o => o
  else if mop = 0 then
    let a : VMem := { eew := width, em := h.emulOf width, nf := nf, addr := fun i f => at_ ((i * nf + f) * (width / 8)) }
    if !(um == 0 || (um == 16 && !store)) ∨ !fits a ∨ (!store ∧ !maskOk w d) then illegal w else go h a (um == 16)
  else if mop = 2 then
    let a : VMem := { eew := width, em := h.emulOf width, nf := nf, addr := fun i f => at_ (i * h.xr um + f * (width / 8)) }
    if !fits a ∨ (!store ∧ !maskOk w d) then illegal w else go h a false
  else
    let im := h.emulOf width
    let a : VMem := { eew := h.sew, em := h.lmul, nf := nf, addr := fun i f => at_ (h.ve width um i + f * (h.sew / 8)) }
    let meets := if nf = 1 then !groupsMay a.eew a.em d width im um else regsMeet d (nf * groupRegs a.em) um (groupRegs im)
    if !fits a ∨ !groupOk im um ∨ (!store ∧ (!maskOk w d ∨ meets)) then illegal w else go h a false

end Sys2Proof.Machine
end

