-- ==== Sys2Proof/Machine/HartVop.lean ====
section
/-! DEFINITION. Vector computation of the user program cores (09 R277; RISC-V vector extension 1.0) (PRESUMED, log 182). -/

namespace Sys2Proof.Machine

/-! Fixed point. -/

/-- `v` shifted right by `d`, rounded by vxrm. -/
def roundShift (rm : Nat) (v : Int) (d : Nat) : Int :=
  let q := v / 2 ^ d
  let r := v % 2 ^ d
  let half : Int := 2 ^ (d - 1)
  if d = 0 then v
  else if rm = 0 then (if half ≤ r then q + 1 else q)
  else if rm = 1 then (if half < r ∨ (r = half ∧ q % 2 = 1) then q + 1 else q)
  else if rm = 2 then q
  else if r ≠ 0 ∧ q % 2 = 0 then q + 1 else q

/-- A value held in a range: the word and whether it saturated. -/
def clipTo (sew : Nat) (lo hi v : Int) : Nat × Bool := if v < lo then (uintOf sew lo, true) else if hi < v then (uintOf sew hi, true) else (uintOf sew v, false)
def clipS (sew : Nat) (v : Int) : Nat × Bool := clipTo sew (-(2 ^ (sew - 1))) (2 ^ (sew - 1) - 1) v
def clipU (sew : Nat) (v : Int) : Nat × Bool := clipTo sew 0 (2 ^ sew - 1) v

/-! Operations of funct6 on elements: `a` from vs2, `b` from vs1, rs1 or the immediate. -/

/-- Single-width integer and fixed-point operations of the IVV, IVX and IVI forms. -/
def ivOp (f6 rm sew a b : Nat) : Nat × Bool :=
  let s (v : Nat) : Int := sint sew v
  let p (n : Nat) : Nat × Bool := (n % 2 ^ sew, false)
  let k := b % sew
  if f6 = 0 then p (a + b) else if f6 = 2 then p (a + 2 ^ sew - b) else if f6 = 3 then p (b + 2 ^ sew - a)
  else if f6 = 4 then p (min a b) else if f6 = 5 then p (if s a ≤ s b then a else b)
  else if f6 = 6 then p (max a b) else if f6 = 7 then p (if s a < s b then b else a)
  else if f6 = 9 then p (a &&& b) else if f6 = 10 then p (a ||| b) else if f6 = 11 then p (a ^^^ b)
  else if f6 = 32 then clipU sew (a + b) else if f6 = 33 then clipS sew (s a + s b)
  else if f6 = 34 then clipU sew ((a : Int) - b) else if f6 = 35 then clipS sew (s a - s b)
  else if f6 = 37 then p (a <<< k) else if f6 = 39 then clipS sew (roundShift rm (s a * s b) (sew - 1))
  else if f6 = 40 then p (a >>> k) else if f6 = 41 then p (sra sew a k)
  else if f6 = 42 then p (uintOf sew (roundShift rm a k)) else p (uintOf sew (roundShift rm (s a) k))

/-- Comparisons. -/
def ivCmp (f6 sew a b : Nat) : Bool :=
  let s (v : Nat) : Int := sint sew v
  if f6 = 24 then a == b else if f6 = 25 then a != b else if f6 = 26 then decide (a < b) else if f6 = 27 then decide (s a < s b)
  else if f6 = 28 then decide (a ≤ b) else if f6 = 29 then decide (s a ≤ s b) else if f6 = 30 then decide (b < a) else decide (s b < s a)

/-- Narrowing shifts and clips: `a` has twice the width. -/
def ivNarrow (f6 rm sew a b : Nat) : Nat × Bool :=
  let k := b % (2 * sew)
  if f6 = 44 then (a >>> k % 2 ^ sew, false) else if f6 = 45 then (sra (2 * sew) a k % 2 ^ sew, false)
  else if f6 = 46 then clipU sew (roundShift rm a k) else clipS sew (roundShift rm (sint (2 * sew) a) k)

/-- Integer operations of the MVV and MVX forms; `c` is the old destination. -/
def mvOp (f6 rm sew a b c : Nat) : Nat :=
  let s (v : Nat) : Int := sint sew v
  let u (i : Int) : Nat := uintOf sew i
  if f6 = 8 then u (roundShift rm ((a : Int) + b) 1) else if f6 = 9 then u (roundShift rm (s a + s b) 1)
  else if f6 = 10 then u (roundShift rm ((a : Int) - b) 1) else if f6 = 11 then u (roundShift rm (s a - s b) 1)
  else if f6 = 32 then divU sew a b else if f6 = 33 then divS sew a b else if f6 = 34 then remU a b else if f6 = 35 then remS sew a b
  else if f6 = 36 then a * b / 2 ^ sew else if f6 = 37 then a * b % 2 ^ sew else if f6 = 38 then u (s a * b / 2 ^ sew) else if f6 = 39 then u (s a * s b / 2 ^ sew)
  else if f6 = 41 then u ((c : Int) * b + a) else if f6 = 43 then u ((a : Int) - c * b)
  else if f6 = 45 then u ((b : Int) * a + c) else u ((c : Int) - b * a)

/-- Widening operations: the result has twice the width; for 52 to 55 `a` has it too. -/
def mvWide (f6 sew a b c : Nat) : Nat :=
  let s (v : Nat) : Int := sint sew v
  let u (i : Int) : Nat := uintOf (2 * sew) i
  if f6 = 48 then u ((a : Int) + b) else if f6 = 49 then u (s a + s b) else if f6 = 50 then u ((a : Int) - b) else if f6 = 51 then u (s a - s b)
  else if f6 = 52 then u ((a : Int) + b) else if f6 = 53 then u ((a : Int) + s b) else if f6 = 54 then u ((a : Int) - b) else if f6 = 55 then u ((a : Int) - s b)
  else if f6 = 56 then u ((a : Int) * b) else if f6 = 58 then u (s a * b) else if f6 = 59 then u (s a * s b)
  else if f6 = 60 then u ((a : Int) * b + c) else if f6 = 61 then u (s a * s b + c) else if f6 = 62 then u ((b : Int) * s a + c) else u (s b * a + c)

/-- Reductions. -/
def redOp (f6 sew a b : Nat) : Nat :=
  let s (v : Nat) : Int := sint sew v
  if f6 = 0 then (a + b) % 2 ^ sew else if f6 = 1 then a &&& b else if f6 = 2 then a ||| b else if f6 = 3 then a ^^^ b
  else if f6 = 4 then min a b else if f6 = 5 then (if s a ≤ s b then a else b) else if f6 = 6 then max a b else if s a < s b then b else a

/-- Mask logic: `a` from vs2, `b` from vs1. -/
def maskOp (f6 : Nat) (a b : Bool) : Bool :=
  if f6 = 24 then a && !b else if f6 = 25 then a && b else if f6 = 26 then a || b else if f6 = 27 then a != b
  else if f6 = 28 then a || !b else if f6 = 29 then !(a && b) else if f6 = 30 then !(a || b) else a == b

/-! Shared checks and writes. -/

/-- A single-width destination and sources. -/
def vvOk (h : Hart) (w : Nat) (vs1 : Bool) : Bool :=
  groupOk h.lmul (iRd w) && groupOk h.lmul (iRs2 w) && (!vs1 || groupOk h.lmul (iRs1 w)) && maskOk w (iRd w)

/-- A mask destination may share a register only with the lowest of a source. -/
def maskDestOk (h : Hart) (w : Nat) (vs1 : Bool) : Bool :=
  groupOk h.lmul (iRs2 w) && (!vs1 || groupOk h.lmul (iRs1 w)) && groupsMay 1 0 (iRd w) h.sew h.lmul (iRs2 w)
    && (!vs1 || groupsMay 1 0 (iRd w) h.sew h.lmul (iRs1 w))

/-- A destination of twice the width; `wide2`: vs2 has it too. -/
def wideOk (h : Hart) (w : Nat) (wide2 vs1 : Bool) : Bool :=
  let dm := h.lmul + 1
  let de := 2 * h.sew
  decide (h.sew ≤ 32) && groupOk dm (iRd w) && groupOk (if wide2 then dm else h.lmul) (iRs2 w) && (!vs1 || groupOk h.lmul (iRs1 w)) && maskOk w (iRd w)
    && (wide2 || groupsMay de dm (iRd w) h.sew h.lmul (iRs2 w)) && (!vs1 || groupsMay de dm (iRd w) h.sew h.lmul (iRs1 w))

/-- A source of twice the width. -/
def narrowOk (h : Hart) (w : Nat) (vs1 : Bool) : Bool :=
  decide (h.sew ≤ 32) && groupOk h.lmul (iRd w) && groupOk (h.lmul + 1) (iRs2 w) && (!vs1 || groupOk h.lmul (iRs1 w)) && maskOk w (iRd w)
    && groupsMay h.sew h.lmul (iRd w) (2 * h.sew) (h.lmul + 1) (iRs2 w)

/-- A destination that must share no register with a source. -/
def apart (h : Hart) (w r : Nat) (em : Int) : Bool := !regsMeet (iRd w) (groupRegs h.lmul) r (groupRegs em)

/-- Write saturating results: vxsat is set where an active element saturated. -/
def Hart.vputSat (h : Hart) (w : Nat) (f : Nat → Nat × Bool) : Hart :=
  let t := h.vput w h.sew h.lmul (iRd w) false (fun i => (f i).1)
  if (h.body w).any (fun i => (f i).2) then { t with vxsat := 1 } else t

/-- Write floating-point results, with the flags of the active elements. -/
def Hart.vputF (h : Hart) (w eew : Nat) (em : Int) (f : Nat → FOut) : Hart :=
  let t := h.vput w eew em (iRd w) false (fun i => (f i).1)
  (h.body w).foldl (fun (a : Hart) i => a.flag (f i).2) t
def Hart.vputFMask (h : Hart) (w : Nat) (f : Nat → FOut) : Hart :=
  let t := h.vputMask w (iRd w) false (fun i => (f i).1 == 1)
  (h.body w).foldl (fun (a : Hart) i => a.flag (f i).2) t

/-! IVV, IVX, IVI. -/

/-- The operand of vs1, rs1 or the immediate; shifts, slides and gathers take the immediate unsigned. -/
def Hart.ivSrc (h : Hart) (w i : Nat) : Nat :=
  if iF3 w = 0 then h.ve h.sew (iRs1 w) i
  else if iF3 w = 4 then h.xr (iRs1 w) % 2 ^ h.sew
  else if [37, 40, 41, 42, 43, 44, 45, 46, 47].contains (iF6 w) then iRs1 w
  else sext 5 (iRs1 w) % 2 ^ h.sew

/-- The forms (VV 0, VI 3, VX 4) that an operation has. -/
def ivForms (f6 : Nat) : List Nat :=
  if [0, 9, 10, 11, 12, 16, 17, 23, 24, 25, 28, 29, 32, 33, 37, 40, 41, 42, 43, 44, 45, 46, 47].contains f6 then [0, 3, 4]
  else if [2, 4, 5, 6, 7, 18, 19, 26, 27, 34, 35].contains f6 then [0, 4]
  else if [3, 15, 30, 31].contains f6 then [3, 4]
  else if f6 = 14 ∨ f6 = 39 then [0, 3, 4]
  else if f6 = 48 ∨ f6 = 49 then [0]
  else []

/-- Whole-register moves. -/
def vmvRegs (h : Hart) (w : Nat) : HartOut :=
  let n := iRs1 w + 1
  if !iVm w ∨ !(n == 1 || n == 2 || n == 4 || n == 8) ∨ iRd w % n ≠ 0 ∨ iRs2 w % n ≠ 0 then illegal w
  else (List.range n).foldl (fun (a : Hart) k =>
    { a with v := tset a.v (iRd w + k) (tval h.v (iRs2 w + k)) }) h |>.vdone

/-- Gathers. `ix`: the index of element i. -/
def vgather (h : Hart) (w : Nat) (ix : Nat → Nat) : HartOut :=
  (h.vput w h.sew h.lmul (iRd w) false (fun i => if ix i < h.vlmax then h.ve h.sew (iRs2 w) (ix i) else 0)).vdone

/-- Slides by a whole offset. -/
def vslide (h : Hart) (w off : Nat) (up : Bool) : HartOut :=
  if up then
    { (({ h with vstart := max h.vstart (min off h.vl) } : Hart).vput w h.sew h.lmul (iRd w) false (fun i => h.ve h.sew (iRs2 w) (i - off))) with vstart := 0 }.done 4
  else (h.vput w h.sew h.lmul (iRd w) false (fun i => if i + off < h.vlmax then h.ve h.sew (iRs2 w) (i + off) else 0)).vdone

def ivExec (h : Hart) (w : Nat) : HartOut :=
  let f6 := iF6 w
  let vv := iF3 w == 0
  let sew := h.sew
  let d := iRd w
  let a (i : Nat) : Nat := h.ve sew (iRs2 w) i
  let b (i : Nat) : Nat := h.ivSrc w i
  let c (i : Nat) : Nat := (!iVm w && h.vbit 0 i).toNat
  let off := if iF3 w = 3 then iRs1 w else h.xr (iRs1 w)
  if !(ivForms f6).contains (iF3 w) then illegal w
  else if f6 = 39 ∧ iF3 w = 3 then vmvRegs h w
  else if h.vill then illegal w
  else if f6 = 12 then
    if !vvOk h w vv ∨ !apart h w (iRs2 w) h.lmul ∨ (vv ∧ !apart h w (iRs1 w) h.lmul) then illegal w
    else vgather h w (fun i => if vv then b i else off)
  else if f6 = 14 ∧ vv then
    let im := h.emulOf 16
    if !vvOk h w false ∨ !groupOk im (iRs1 w) ∨ !apart h w (iRs2 w) h.lmul ∨ !apart h w (iRs1 w) im then illegal w
    else vgather h w (fun i => h.ve 16 (iRs1 w) i)
  else if f6 = 14 then (if !vvOk h w false ∨ !apart h w (iRs2 w) h.lmul then illegal w else vslide h w off true)
  else if f6 = 15 then (if !vvOk h w false then illegal w else vslide h w off false)
  else if f6 = 16 ∨ f6 = 18 then
    if !vvOk h w vv ∨ iVm w then illegal w
    else (h.vput w sew h.lmul d true (fun i => (if f6 = 16 then a i + b i + c i else a i + 2 ^ sew * 2 - b i - c i) % 2 ^ sew)).vdone
  else if f6 = 17 ∨ f6 = 19 then
    if !maskDestOk h w vv then illegal w
    else (h.vputMask w d true (fun i => if f6 = 17 then decide (2 ^ sew ≤ a i + b i + c i) else decide (a i < b i + c i))).vdone
  else if f6 = 23 then
    if iVm w then (if iRs2 w ≠ 0 ∨ !groupOk h.lmul d ∨ (vv ∧ !groupOk h.lmul (iRs1 w)) then illegal w else (h.vput w sew h.lmul d true b).vdone)
    else if !vvOk h w vv then illegal w
    else (h.vput w sew h.lmul d true (fun i => if h.vbit 0 i then b i else a i)).vdone
  else if 24 ≤ f6 ∧ f6 ≤ 31 then
    if !maskDestOk h w vv then illegal w else (h.vputMask w d false (fun i => ivCmp f6 sew (a i) (b i))).vdone
  else if 44 ≤ f6 ∧ f6 ≤ 47 then
    if !narrowOk h w vv then illegal w
    else (h.vputSat w (fun i => ivNarrow f6 h.vxrm sew (h.ve (2 * sew) (iRs2 w) i) (if vv then b i else if iF3 w = 3 then iRs1 w else h.xr (iRs1 w)))).vdone
  else if f6 = 48 ∨ f6 = 49 then
    if 32 < sew ∨ !groupOk h.lmul (iRs2 w) ∨ h.vstart ≠ 0 then illegal w
    else
      let x (i : Nat) : Nat := if f6 = 48 then a i else uintOf (2 * sew) (sint sew (a i))
      (h.vput0 w (2 * sew) d ((h.body w).foldl (fun t i => (t + x i) % 2 ^ (2 * sew)) (h.ve (2 * sew) (iRs1 w) 0))).vdone
  else if !vvOk h w vv then illegal w
  else (h.vputSat w (fun i => ivOp f6 h.vxrm sew (a i) (b i))).vdone

/-! MVV, MVX. -/

/-- VCPOP, VFIRST, VMV.X.S, VMV.S.X. -/
def mvScalar (h : Hart) (w : Nat) : HartOut :=
  let vv := iF3 w == 2
  let r := iRs1 w
  let set := (h.body w).filter (fun i => h.vbit (iRs2 w) i)
  if !vv then
    if iRs2 w ≠ 0 ∨ !iVm w then illegal w else (h.vput0 w h.sew (iRd w) (h.xr r)).vdone
  else if r = 0 then (if !iVm w then illegal w else h.vwbX (iRd w) (sext h.sew (h.ve h.sew (iRs2 w) 0)))
  else if h.vstart ≠ 0 then illegal w
  else if r = 16 then h.vwbX (iRd w) set.length
  else if r = 17 then h.vwbX (iRd w) (match set.head? with | some i => i | none => 2 ^ 64 - 1)
  else illegal w

/-- VMSBF, VMSOF, VMSIF, VIOTA, VID. -/
def mvMaskUnary (h : Hart) (w : Nat) : HartOut :=
  let r := iRs1 w
  let d := iRd w
  let on (i : Nat) : Bool := h.active w i && h.vbit (iRs2 w) i
  let first := ((List.range h.vl).find? on).getD h.vl
  if r = 17 then
    (if iRs2 w ≠ 0 ∨ !groupOk h.lmul d ∨ !maskOk w d then illegal w else (h.vput w h.sew h.lmul d false (fun i => i)).vdone)
  else if h.vstart ≠ 0 then illegal w
  else if r = 16 then
    if !groupOk h.lmul d ∨ !maskOk w d ∨ regsMeet d (groupRegs h.lmul) (iRs2 w) 1 then illegal w
    else (h.vput w h.sew h.lmul d false (fun i => ((List.range i).filter on).length)).vdone
  else if r = 1 ∨ r = 2 ∨ r = 3 then
    if d = iRs2 w ∨ !maskOk w d then illegal w
    else (h.vputMask w d false (fun i => if r = 1 then decide (i < first) else if r = 2 then i == first else decide (i ≤ first))).vdone
  else illegal w

/-- VZEXT, VSEXT. -/
def mvExtend (h : Hart) (w : Nat) : HartOut :=
  let r := iRs1 w
  let n := if r / 2 = 1 then 8 else if r / 2 = 2 then 4 else 2
  let se := h.sew / n
  let sm := h.lmul - (Nat.log2 n : Nat)
  if r < 2 ∨ 7 < r ∨ se < 8 ∨ !groupOk h.lmul (iRd w) ∨ !groupOk sm (iRs2 w) ∨ !maskOk w (iRd w)
      ∨ !groupsMay h.sew h.lmul (iRd w) se sm (iRs2 w) then illegal w
  else (h.vput w h.sew h.lmul (iRd w) false (fun i => let v := h.ve se (iRs2 w) i; if r % 2 = 0 then v else uintOf h.sew (sint se v))).vdone

/-- VCOMPRESS. -/
def vcompress (h : Hart) (w : Nat) : HartOut :=
  let d := iRd w
  let l := (List.range h.vl).filter (fun i => h.vbit (iRs1 w) i)
  if !iVm w ∨ h.vstart ≠ 0 ∨ !groupOk h.lmul d ∨ !groupOk h.lmul (iRs2 w) ∨ !apart h w (iRs2 w) h.lmul ∨ !apart h w (iRs1 w) 0 then illegal w
  else
    let t : Hart := ({ h with vl := l.length } : Hart).vput w h.sew h.lmul d true (fun i => h.ve h.sew (iRs2 w) (l.getD i 0))
    (if h.vl = 0 then h else if l.isEmpty then
       (List.range (groupRegs h.lmul * 256 / h.sew)).foldl (fun (a : Hart) i => if h.vta && Config.vecOnes w i then a.setVe h.sew d i (2 ^ h.sew - 1) else a) h
     else { t with vl := h.vl }).vdone

def mvForms (f6 : Nat) : List Nat :=
  if f6 < 8 ∨ f6 = 18 ∨ f6 = 20 ∨ f6 = 23 ∨ (24 ≤ f6 ∧ f6 ≤ 31) then [2]
  else if f6 = 14 ∨ f6 = 15 ∨ f6 = 62 then [6]
  else if (8 ≤ f6 ∧ f6 ≤ 11) ∨ f6 = 16 ∨ (32 ≤ f6 ∧ f6 ≤ 39) ∨ [41, 43, 45, 47, 56, 58, 59, 60, 61, 63].contains f6 ∨ (48 ≤ f6 ∧ f6 ≤ 55) then [2, 6]
  else []

def mvExec (h : Hart) (w : Nat) : HartOut :=
  let f6 := iF6 w
  let vv := iF3 w == 2
  let sew := h.sew
  let d := iRd w
  let a (i : Nat) : Nat := h.ve sew (iRs2 w) i
  let b (i : Nat) : Nat := if vv then h.ve sew (iRs1 w) i else h.xr (iRs1 w) % 2 ^ sew
  if h.vill ∨ !(mvForms f6).contains (iF3 w) then illegal w
  else if f6 < 8 then
    if !groupOk h.lmul (iRs2 w) ∨ h.vstart ≠ 0 then illegal w
    else (h.vput0 w sew d ((h.body w).foldl (fun t i => redOp f6 sew t (a i)) (h.ve sew (iRs1 w) 0))).vdone
  else if f6 = 14 then
    if !vvOk h w false ∨ !apart h w (iRs2 w) h.lmul then illegal w
    else (h.vput w sew h.lmul d false (fun i => if i = 0 then h.xr (iRs1 w) else a (i - 1))).vdone
  else if f6 = 15 then
    if !vvOk h w false then illegal w
    else (h.vput w sew h.lmul d false (fun i => if i + 1 = h.vl then h.xr (iRs1 w) else a (i + 1))).vdone
  else if f6 = 16 then mvScalar h w
  else if f6 = 18 then mvExtend h w
  else if f6 = 20 then mvMaskUnary h w
  else if f6 = 23 then vcompress h w
  else if 24 ≤ f6 ∧ f6 ≤ 31 then
    if !iVm w then illegal w else (h.vputMask w d true (fun i => maskOp f6 (h.vbit (iRs2 w) i) (h.vbit (iRs1 w) i))).vdone
  else if f6 < 48 then
    if !vvOk h w vv then illegal w
    else (h.vput w sew h.lmul d false (fun i => mvOp f6 h.vxrm sew (a i) (b i) (h.ve sew d i))).vdone
  else
    let w2 := decide (52 ≤ f6) && decide (f6 ≤ 55)
    if !wideOk h w w2 vv then illegal w
    else (h.vput w (2 * sew) (h.lmul + 1) d false (fun i =>
      mvWide f6 sew (if w2 then h.ve (2 * sew) (iRs2 w) i else a i) (b i) (h.ve (2 * sew) d i))).vdone

/-! FVV, FVF. -/

/-- The format of an element width. -/
def fmtOf? (sew : Nat) : Option Fmt := if sew = 32 then some f32 else if sew = 64 then some f64 else none

/-- Estimates of the reciprocal and of its square root to 7 bits. -/
def rec7Tab : List Nat :=
  [127, 125, 123, 121, 119, 117, 116, 114, 112, 110, 109, 107, 105, 104, 102, 100, 99, 97, 96, 94, 93, 91, 90, 88, 87, 85, 84, 83, 81, 80, 79, 77,
   76, 75, 74, 72, 71, 70, 69, 68, 66, 65, 64, 63, 62, 61, 60, 59, 58, 57, 56, 55, 54, 53, 52, 51, 50, 49, 48, 47, 46, 45, 44, 43]
  ++ [42, 41, 40, 40, 39, 38, 37, 36, 35, 35, 34, 33, 32, 31, 31, 30, 29, 28, 28, 27, 26, 25, 25, 24, 23, 23, 22, 21, 21, 20, 19, 19,
   18, 17, 17, 16, 15, 15, 14, 14, 13, 12, 12, 11, 11, 10, 9, 9, 8, 8, 7, 7, 6, 5, 5, 4, 4, 3, 3, 2, 2, 1, 1, 0]
def rsqrt7Tab : List Nat :=
  [52, 51, 50, 48, 47, 46, 44, 43, 42, 41, 40, 39, 38, 36, 35, 34, 33, 32, 31, 30, 30, 29, 28, 27, 26, 25, 24, 23, 23, 22, 21, 20,
   19, 19, 18, 17, 16, 16, 15, 14, 14, 13, 12, 12, 11, 10, 10, 9, 9, 8, 7, 7, 6, 6, 5, 4, 4, 3, 3, 2, 2, 1, 1, 0]
  ++ [127, 125, 123, 121, 119, 118, 116, 114, 113, 111, 109, 108, 106, 105, 103, 102, 100, 99, 97, 96, 95, 93, 92, 91, 90, 88, 87, 86, 85, 84, 83, 82,
   80, 79, 78, 77, 76, 75, 74, 73, 72, 71, 70, 70, 69, 68, 67, 66, 65, 64, 63, 63, 62, 61, 60, 59, 59, 58, 57, 56, 56, 55, 54, 53]

/-- The exponent and the fraction of a finite number, a subnormal one normalised. -/
def Fmt.normal (f : Fmt) (v : Nat) : Int × Nat :=
  let e := f.exp v
  let m := f.frac v
  if e ≠ 0 then (e, m) else let z := f.p - 2 - Nat.log2 m; (-(z : Int), m * 2 ^ (z + 1) % 2 ^ (f.p - 1))

/-- VFRSQRT7. -/
def Fmt.rsqrt7 (f : Fmt) (v : Nat) : FOut :=
  let bias : Int := f.emax
  match f.val v with
  | .nan _ => f.nanOut [f.val v]
  | .inf s => if s then f.invalid else (f.zero false, 0)
  | .num s m _ =>
    if m = 0 then (f.infw s, fDZ)
    else if s then f.invalid
    else
      let n := f.normal v
      let i := (n.1 % 2).toNat * 64 + n.2 / 2 ^ (f.p - 7)
      (f.word false ((3 * bias - 1 - n.1) / 2).toNat (rsqrt7Tab.getD i 0 * 2 ^ (f.p - 8)), 0)

/-- VFREC7. -/
def Fmt.rec7 (f : Fmt) (rm v : Nat) : FOut :=
  let bias : Int := f.emax
  match f.val v with
  | .nan _ => f.nanOut [f.val v]
  | .inf s => (f.zero s, 0)
  | .num s m _ =>
    let n := f.normal v
    let e := 2 * bias - 1 - n.1
    if m = 0 then (f.infw s, fDZ)
    else if 2 * bias < e then
      (if rm = 1 ∨ (rm = 2 ∧ !s) ∨ (rm = 3 ∧ s) then f.big s else f.infw s, fOF + fNX)
    else
      let r := rec7Tab.getD (n.2 / 2 ^ (f.p - 8)) 0 * 2 ^ (f.p - 8)
      if e = 0 then (f.word s 0 ((r + 2 ^ (f.p - 1)) / 2), 0)
      else if e = -1 then (f.word s 0 ((r + 2 ^ (f.p - 1)) / 4), 0)
      else (f.word s e.toNat r, 0)

/-- Floating-point operations on elements; `c` is the old destination. -/
def fvOp (f : Fmt) (f6 rm a b c : Nat) : FOut :=
  let n := f.neg
  if f6 = 0 then f.add rm a b else if f6 = 2 then f.sub rm a b else if f6 = 4 then f.minMax false a b else if f6 = 6 then f.minMax true a b
  else if f6 = 8 then (f.sgnj 0 a b, 0) else if f6 = 9 then (f.sgnj 1 a b, 0) else if f6 = 10 then (f.sgnj 2 a b, 0)
  else if f6 = 32 then f.div rm a b else if f6 = 33 then f.div rm b a else if f6 = 36 then f.mul rm a b else if f6 = 39 then f.sub rm b a
  else if f6 = 40 then f.fma rm b c a else if f6 = 41 then f.fma rm (n b) c (n a) else if f6 = 42 then f.fma rm b c (n a) else if f6 = 43 then f.fma rm (n b) c a
  else if f6 = 44 then f.fma rm b a c else if f6 = 45 then f.fma rm (n b) a (n c) else if f6 = 46 then f.fma rm b a (n c) else f.fma rm (n b) a c

def fvCmp (f : Fmt) (f6 a b : Nat) : FOut :=
  if f6 = 24 then f.feq a b else if f6 = 25 then f.fle a b else if f6 = 27 then f.flt a b
  else if f6 = 28 then (let r := f.feq a b; (1 - r.1, r.2)) else if f6 = 29 then f.flt b a else f.fle b a

/-- Widening operations in the wide format. -/
def fvWide (g : Fmt) (f6 rm a b c : Nat) : FOut :=
  let n := g.neg
  if f6 = 48 ∨ f6 = 52 then g.add rm a b else if f6 = 50 ∨ f6 = 54 then g.sub rm a b else if f6 = 56 then g.mul rm a b
  else if f6 = 60 then g.fma rm b a c else if f6 = 61 then g.fma rm (n b) a (n c) else if f6 = 62 then g.fma rm b a (n c) else g.fma rm (n b) a c

/-- A conversion by the low bits of vs1, from an element of `g` or of an integer to one of `f` or of an integer of `n` bits. -/
def fvConv (k rm : Nat) (f g : Fmt) (n sn a : Nat) : FOut :=
  if k = 0 then g.toInt rm n false a else if k = 1 then g.toInt rm n true a
  else if k = 2 then f.ofInt rm a else if k = 3 then f.ofInt rm (sint sn a)
  else if k = 4 then f.ofFmt g rm a else if k = 5 then f.ofFmt g 5 a
  else if k = 6 then g.toInt 1 n false a else g.toInt 1 n true a

/-- VFCVT, VFWCVT, VFNCVT. -/
def fvConvert (h : Hart) (w rm : Nat) : HartOut :=
  let r := iRs1 w
  let k := r % 8
  let sew := h.sew
  let ofInt := k == 2 || k == 3
  if r < 8 then
    match fmtOf? sew with
    | some f => if k = 4 ∨ k = 5 ∨ !vvOk h w false then illegal w
      else (h.vputF w sew h.lmul (fun i => fvConv k rm f f sew sew (h.ve sew (iRs2 w) i))).vdone
    | none => illegal w
  else if r < 16 then
    let f := (fmtOf? (2 * sew)).getD f32
    let ok := if ofInt then (fmtOf? (2 * sew)).isSome else sew == 32
    if k = 5 ∨ !ok ∨ !wideOk h w false false then illegal w
    else (h.vputF w (2 * sew) (h.lmul + 1) (fun i => fvConv k rm f f32 (2 * sew) sew (h.ve sew (iRs2 w) i))).vdone
  else if r < 24 then
    let g := (fmtOf? (2 * sew)).getD f64
    let ok := if ofInt || k == 4 || k == 5 then sew == 32 else (fmtOf? (2 * sew)).isSome
    if !ok ∨ !narrowOk h w false then illegal w
    else (h.vputF w sew h.lmul (fun i => fvConv k rm f32 g sew (2 * sew) (h.ve (2 * sew) (iRs2 w) i))).vdone
  else illegal w

/-- VFSQRT, VFRSQRT7, VFREC7, VFCLASS. -/
def fvUnary (h : Hart) (w rm : Nat) (f : Fmt) : HartOut :=
  let r := iRs1 w
  let a (i : Nat) : Nat := h.ve h.sew (iRs2 w) i
  if !(r == 0 || r == 4 || r == 5 || r == 16) ∨ !vvOk h w false then illegal w
  else (h.vputF w h.sew h.lmul (fun i =>
    if r = 0 then f.sqrt rm (a i) else if r = 4 then f.rsqrt7 (a i) else if r = 5 then f.rec7 rm (a i) else (f.classify (a i), 0))).vdone

/-- A sum in order, with its flags. -/
def Fmt.sumIn (f : Fmt) (rm start : Nat) (l : List Nat) : FOut :=
  l.foldl (fun (a : FOut) x => let r := f.add rm a.1 x; (r.1, a.2 ||| r.2)) (start, 0)

/-- Floating-point reductions of elements `l` to width `eew`. -/
def fvReduce (h : Hart) (w rm : Nat) (f : Fmt) (l : List FOut) : HartOut :=
  let f6 := iF6 w
  let start := h.ve f.bits (iRs1 w) 0
  let xs := l.map (·.1)
  let r : FOut := if f6 = 3 ∨ f6 = 51 then f.sumIn rm start xs
    else if f6 = 1 ∨ f6 = 49 then (let u := Config.vecSum f.bits (start :: xs); (u.1 % 2 ^ f.bits, u.2 % 32))
    else xs.foldl (fun (a : FOut) x => let q := f.minMax (f6 == 7) a.1 x; (q.1, a.2 ||| q.2)) (start, 0)
  if h.vstart ≠ 0 ∨ !groupOk h.lmul (iRs2 w) then illegal w
  else if h.vl = 0 then h.vdone
  else ((h.vput0 w f.bits (iRd w) r.1).flag (l.foldl (fun a x => a ||| x.2) r.2)).vdone

def fvForms (f6 : Nat) : List Nat :=
  if [1, 3, 5, 7, 18, 19, 49, 51].contains f6 then [1]
  else if [14, 15, 23, 29, 31, 33, 39].contains f6 then [5]
  else if [0, 2, 4, 6, 8, 9, 10, 16, 24, 25, 27, 28, 32, 36, 40, 41, 42, 43, 44, 45, 46, 47, 48, 50, 52, 54, 56, 60, 61, 62, 63].contains f6 then [1, 5]
  else []

/-- Moves between element 0 and a floating-point register, slides by one and merges. -/
def fvMoves (h : Hart) (w : Nat) (f : Fmt) (x : Nat) : HartOut :=
  let f6 := iF6 w
  let d := iRd w
  let sew := h.sew
  let a (i : Nat) : Nat := h.ve sew (iRs2 w) i
  if f6 = 16 then
    if iF3 w = 1 then (if iRs1 w ≠ 0 ∨ !iVm w then illegal w else { (h.putF f d (a 0)) with vstart := 0 }.done 4)
    else if iRs2 w ≠ 0 ∨ !iVm w then illegal w else (h.vput0 w sew d x).vdone
  else if f6 = 14 then
    if !vvOk h w false ∨ !apart h w (iRs2 w) h.lmul then illegal w
    else (h.vput w sew h.lmul d false (fun i => if i = 0 then x else a (i - 1))).vdone
  else if f6 = 15 then
    if !vvOk h w false then illegal w else (h.vput w sew h.lmul d false (fun i => if i + 1 = h.vl then x else a (i + 1))).vdone
  else if iVm w then (if iRs2 w ≠ 0 ∨ !groupOk h.lmul d then illegal w else (h.vput w sew h.lmul d true (fun _ => x)).vdone)
  else if !vvOk h w false then illegal w
  else (h.vput w sew h.lmul d true (fun i => if h.vbit 0 i then x else a i)).vdone

def fvExec (h : Hart) (w : Nat) : HartOut :=
  let f6 := iF6 w
  let vv := iF3 w == 1
  let sew := h.sew
  let d := iRd w
  if h.vill ∨ !(fvForms f6).contains (iF3 w) then illegal w
  else match h.rm? 7 with
  | none => illegal w
  | some rm =>
    if f6 = 18 then fvConvert h w rm
    else match fmtOf? sew with
    | none => illegal w
    | some f =>
      let x := h.ff f (iRs1 w)
      let a (i : Nat) : Nat := h.ve sew (iRs2 w) i
      let b (i : Nat) : Nat := if vv then h.ve sew (iRs1 w) i else x
      let up (v : Nat) : FOut := f64.ofFmt f32 rm v
      if f6 = 14 ∨ f6 = 15 ∨ f6 = 16 ∨ f6 = 23 then fvMoves h w f x
      else if f6 = 19 then fvUnary h w rm f
      else if f6 = 1 ∨ f6 = 3 ∨ f6 = 5 ∨ f6 = 7 then fvReduce h w rm f ((h.body w).map (fun i => (a i, 0)))
      else if f6 = 49 ∨ f6 = 51 then (if sew ≠ 32 then illegal w else fvReduce h w rm f64 ((h.body w).map (fun i => up (a i))))
      else if 24 ≤ f6 ∧ f6 ≤ 31 then
        if !maskDestOk h w vv then illegal w else (h.vputFMask w (fun i => fvCmp f f6 (a i) (b i))).vdone
      else if f6 < 48 then
        if !vvOk h w vv then illegal w else (h.vputF w sew h.lmul (fun i => fvOp f f6 rm (a i) (b i) (h.ve sew d i))).vdone
      else
        let w2 := f6 == 52 || f6 == 54
        if sew ≠ 32 ∨ !wideOk h w w2 vv then illegal w
        else (h.vputF w 64 (h.lmul + 1) (fun i =>
          let p : FOut := if w2 then (h.ve 64 (iRs2 w) i, 0) else up (a i)
          let q := up (b i)
          let r := fvWide f64 f6 rm p.1 q.1 (h.ve 64 d i)
          (r.1, r.2 ||| p.2 ||| q.2))).vdone

/-- OP-V. -/
def vecExec (h : Hart) (w : Nat) : HartOut :=
  let k := iF3 w
  if k = 7 then vsetExec h w else if k = 0 ∨ k = 3 ∨ k = 4 then ivExec h w else if k = 2 ∨ k = 6 then mvExec h w else fvExec h w

/-! One instruction. -/

/-- An instruction of 32 bits (or the one a compressed one of `len` 2 stands for). -/
def instrExec (m : HartMem) (h : Hart) (len w : Nat) : HartOut :=
  let op := w % 128
  if op = 0x03 then loadExec m h len w
  else if op = 0x07 then (if iF3 w = 0 ∨ 5 ≤ iF3 w then vmemExec m h w false else fpLoad m h len w)
  else if op = 0x0F then (if iF3 w < 2 then h.done len else illegal w)
  else if op = 0x13 then opImm h len w
  else if op = 0x17 then h.wb len (iRd w) ((h.pc + immU w) % 2 ^ 64)
  else if op = 0x1B then opImm32 h len w
  else if op = 0x23 then storeExec m h len w
  else if op = 0x27 then (if iF3 w = 0 ∨ 5 ≤ iF3 w then vmemExec m h w true else fpStore m h len w)
  else if op = 0x2F then amoExec m h len w
  else if op = 0x33 then opReg h len w
  else if op = 0x37 then h.wb len (iRd w) (immU w)
  else if op = 0x3B then opReg32 h len w
  else if op = 0x43 ∨ op = 0x47 ∨ op = 0x4B ∨ op = 0x4F then fmaExec h len w
  else if op = 0x53 then fpExec h len w
  else if op = 0x57 then vecExec h w
  else if op = 0x63 then
    (if iF3 w = 2 ∨ iF3 w = 3 then illegal w
     else if branchTaken (iF3 w) (h.xr (iRs1 w)) (h.xr (iRs2 w)) then h.jump len 0 (h.pc + immB w) else h.done len)
  else if op = 0x67 then
    (let t := (h.xr (iRs1 w) + immI w) % 2 ^ 64
     if iF3 w = 0 then h.jump len (iRd w) (t - t % 2) else illegal w)
  else if op = 0x6F then h.jump len (iRd w) (h.pc + immJ w)
  else if op = 0x73 then systemExec h len w
  else illegal w

/-- One step of a core: fetch two bytes, and two more where they are not a compressed instruction; then run it (PRESUMED, log 182). -/
def hartStep (m : HartMem) (h : Hart) : HartOut :=
  match m.fetch h.pc 2 with
  | none => .trap m.badFetch h.pc
  | some b =>
    let c := leNat b
    if c % 4 ≠ 3 then (match expandC c with | none => illegal c | some w => match instrExec m h 2 w with
      | .trap 2 _ ws => .trap 2 c ws
      | o => o)
    else match m.fetch ((h.pc + 2) % 2 ^ 64) 2 with
    | none => .trap m.badFetch ((h.pc + 2) % 2 ^ 64)
    | some t => instrExec m h 4 (c + leNat t * 65536)

end Sys2Proof.Machine
end

