-- ==== Sys2Proof/Machine/Crypto.lean ====
section
/-! DEFINITION. The algorithms the spec names by their standards: SHA-384 and HMAC-SHA-384 (R328, R330), AES-256-GCM (R433), ECDSA
over P-384 (R43, R430) (PRESUMED, log 5). -/

namespace Sys2Proof.Machine

/-! SHA-384 (FIPS 180-4). -/

def shaK1 : List Nat :=
  [0x428A2F98D728AE22, 0x7137449123EF65CD, 0xB5C0FBCFEC4D3B2F, 0xE9B5DBA58189DBBC, 0x3956C25BF348B538,
   0x59F111F1B605D019, 0x923F82A4AF194F9B, 0xAB1C5ED5DA6D8118, 0xD807AA98A3030242, 0x12835B0145706FBE,
   0x243185BE4EE4B28C, 0x550C7DC3D5FFB4E2, 0x72BE5D74F27B896F, 0x80DEB1FE3B1696B1, 0x9BDC06A725C71235,
   0xC19BF174CF692694, 0xE49B69C19EF14AD2, 0xEFBE4786384F25E3, 0x0FC19DC68B8CD5B5, 0x240CA1CC77AC9C65,
   0x2DE92C6F592B0275, 0x4A7484AA6EA6E483, 0x5CB0A9DCBD41FBD4, 0x76F988DA831153B5, 0x983E5152EE66DFAB,
   0xA831C66D2DB43210, 0xB00327C898FB213F, 0xBF597FC7BEEF0EE4, 0xC6E00BF33DA88FC2, 0xD5A79147930AA725,
   0x06CA6351E003826F, 0x142929670A0E6E70, 0x27B70A8546D22FFC, 0x2E1B21385C26C926, 0x4D2C6DFC5AC42AED,
   0x53380D139D95B3DF, 0x650A73548BAF63DE, 0x766A0ABB3C77B2A8, 0x81C2C92E47EDAEE6, 0x92722C851482353B]
def shaK2 : List Nat :=
  [0xA2BFE8A14CF10364, 0xA81A664BBC423001, 0xC24B8B70D0F89791, 0xC76C51A30654BE30, 0xD192E819D6EF5218,
   0xD69906245565A910, 0xF40E35855771202A, 0x106AA07032BBD1B8, 0x19A4C116B8D2D0C8, 0x1E376C085141AB53,
   0x2748774CDF8EEB99, 0x34B0BCB5E19B48A8, 0x391C0CB3C5C95A63, 0x4ED8AA4AE3418ACB, 0x5B9CCA4F7763E373,
   0x682E6FF3D6B2B8A3, 0x748F82EE5DEFB2FC, 0x78A5636F43172F60, 0x84C87814A1F0AB72, 0x8CC702081A6439EC,
   0x90BEFFFA23631E28, 0xA4506CEBDE82BDE9, 0xBEF9A3F7B2C67915, 0xC67178F2E372532B, 0xCA273ECEEA26619C,
   0xD186B8C721C0C207, 0xEADA7DD6CDE0EB1E, 0xF57D4F7FEE6ED178, 0x06F067AA72176FBA, 0x0A637DC5A2C898A6,
   0x113F9804BEF90DAE, 0x1B710B35131C471B, 0x28DB77F523047D84, 0x32CAAB7B40C72493, 0x3C9EBE0A15C9BEBC,
   0x431D67C49C100D4C, 0x4CC5D4BECB3E42B6, 0x597F299CFC657E2A, 0x5FCB6FAB3AD6FAEC, 0x6C44198C4A475817]
def shaK : List Nat := shaK1 ++ shaK2

/-- The initial hash value. -/
def sha384Start : List Nat :=
  [0xCBBB9D5DC1059ED8, 0x629A292A367CD507, 0x9159015A3070DD17, 0x152FECD8F70E5939, 0x67332667FFC00B31,
   0x8EB44A8768581511, 0xDB0C2E0D64F98FA7, 0x47B5481DBEFA4FA4]

def rotR64 (x k : Nat) : Nat := (x >>> k ||| x <<< (64 - k)) % 2 ^ 64

/-- The message schedule from its 16 words, newest word first. -/
def shaSchedule : Nat → List Nat → List Nat
  | 0, w => w
  | n + 1, w =>
    let a := w.getD 14 0
    let b := w.getD 1 0
    let s0 := rotR64 a 1 ^^^ rotR64 a 8 ^^^ (a >>> 7)
    let s1 := rotR64 b 19 ^^^ rotR64 b 61 ^^^ (b >>> 6)
    shaSchedule n ((w.getD 15 0 + s0 + w.getD 6 0 + s1) % 2 ^ 64 :: w)

/-- One round with its constant and word. -/
def shaRound (h : List Nat) (kw : Nat × Nat) : List Nat :=
  let g (i : Nat) : Nat := h.getD i 0
  let e := g 4
  let a := g 0
  let ch := (e &&& g 5) ^^^ ((2 ^ 64 - 1 - e) &&& g 6)
  let maj := (a &&& g 1) ^^^ (a &&& g 2) ^^^ (g 1 &&& g 2)
  let t1 := g 7 + (rotR64 e 14 ^^^ rotR64 e 18 ^^^ rotR64 e 41) + ch + kw.1 + kw.2
  let t2 := (rotR64 a 28 ^^^ rotR64 a 34 ^^^ rotR64 a 39) + maj
  [(t1 + t2) % 2 ^ 64, a, g 1, g 2, (g 3 + t1) % 2 ^ 64, e, g 5, g 6]

def shaBlock (h : List Nat) (b : List Byte) : List Nat :=
  let w := (shaSchedule 64 ((List.range 16).map (fun i => beNat (slice b (8 * i) 8))).reverse).reverse
  let r := (shaK.zip w).foldl shaRound h
  (List.range 8).map (fun i => (h.getD i 0 + r.getD i 0) % 2 ^ 64)

def shaBlocks : Nat → List Byte → List Nat → List Nat
  | 0, _, h => h
  | n + 1, b, h => shaBlocks n (b.drop 128) (shaBlock h (b.take 128))

/-- A number as `n` big-endian bytes. -/
def beBytes (n v : Nat) : List Byte := (leBytes n v).reverse

/-- The digest, whose first byte is the lowest of the number (PRESUMED, log 5). -/
def sha384 (b : List Byte) : BitVec 384 :=
  let m := b ++ [0x80] ++ List.replicate ((111 + 128 - b.length % 128) % 128) 0 ++ beBytes 16 (8 * b.length)
  BitVec.ofNat 384 (leNat (((shaBlocks (m.length / 128) m sha384Start).take 6).flatMap (beBytes 8)))

/-- HMAC (RFC 2104) over SHA-384, whose block is 128 bytes. -/
def hmac384 (key msg : List Byte) : BitVec 384 :=
  let k0 := if 128 < key.length then digestBytes (sha384 key) else key
  let k := k0 ++ List.replicate (128 - k0.length) 0
  sha384 (k.map (· ^^^ 0x5C) ++ digestBytes (sha384 (k.map (· ^^^ 0x36) ++ msg)))

/-! AES-256 (FIPS 197). -/

/-- Multiply by x in GF(2^8) with polynomial 0x11B. -/
def aesX2 (a : Nat) : Nat := if 128 ≤ a then (a * 2) ^^^ 0x11B else a * 2
def aesMul (a : Nat) : Nat → Nat → Nat
  | 0, _ => 0
  | n + 1, b => (if b % 2 = 1 then a else 0) ^^^ aesMul (aesX2 a) n (b / 2)
def aesPow (a : Nat) : Nat → Nat
  | 0 => 1
  | n + 1 => aesMul a 8 (aesPow a n)

/-- SubBytes of one byte: the inverse, then the affine map. -/
def aesSbox (a : Nat) : Nat :=
  let i := aesPow a 254
  let r (k : Nat) : Nat := (i <<< k ||| i >>> (8 - k)) % 256
  i ^^^ r 1 ^^^ r 2 ^^^ r 3 ^^^ r 4 ^^^ 0x63
def aesTable : List Nat := (List.range 256).map aesSbox

/-- The expanded key of 60 words of 4 bytes, newest word first. -/
def aesExpand (t : List Nat) : Nat → Nat → List (List Nat) → List (List Nat)
  | 0, _, w => w
  | n + 1, i, w =>
    let p := w.headD []
    let sub (l : List Nat) : List Nat := l.map (fun x => t.getD x 0)
    let q := if i % 8 = 0 then (match sub (p.drop 1 ++ p.take 1) with
        | a :: r => (a ^^^ (aesPow 2 (i / 8 - 1))) :: r
        | [] => [])
      else if i % 8 = 4 then sub p else p
    aesExpand t n (i + 1) (List.zipWith (· ^^^ ·) (w.getD 7 []) q :: w)

def aesKeys (t : List Nat) (key : List Byte) : List (List Nat) :=
  let w0 := ((List.range 8).map (fun i => (slice key (4 * i) 4).map (·.toNat))).reverse
  let w := (aesExpand t 52 8 w0).reverse
  (List.range 15).map (fun r => ((w.drop (4 * r)).take 4).flatten)

def xorList (a b : List Nat) : List Nat := List.zipWith (· ^^^ ·) a b

/-- ShiftRows of a block of 16 bytes, column by column. -/
def aesShift (b : List Nat) : List Nat := (List.range 16).map (fun i => b.getD ((i + 4 * (i % 4)) % 16) 0)

/-- MixColumns. -/
def aesMix (b : List Nat) : List Nat :=
  (List.range 16).map (fun i =>
    let g (k : Nat) : Nat := b.getD (i / 4 * 4 + (i + k) % 4) 0
    aesX2 (g 0) ^^^ (aesX2 (g 1) ^^^ g 1) ^^^ g 2 ^^^ g 3)

/-- Encrypt one block of 16 bytes with the table and the round keys. -/
def aesBlock (t : List Nat) (ks : List (List Nat)) (b : List Nat) : List Nat :=
  let s := (List.range 13).foldl (fun a r => xorList (aesMix (aesShift (a.map (fun x => t.getD x 0)))) (ks.getD (r + 1) [])) (xorList b (ks.getD 0 []))
  xorList (aesShift (s.map (fun x => t.getD x 0))) (ks.getD 14 [])

/-! GCM (NIST SP 800-38D). A block is a number of 128 bits, its first bit highest. -/

/-- Multiply in GF(2^128): `v` shifts right as the bits of `x` are taken from the highest. -/
def ghashMul : Nat → Nat → Nat → Nat → Nat
  | 0, _, _, z => z
  | n + 1, x, v, z => ghashMul n x (if v % 2 = 1 then (v / 2) ^^^ (0xE1 * 2 ^ 120) else v / 2) (if bitAt x n then z ^^^ v else z)

/-- Blocks of 16 bytes, the last one filled with zeros. -/
def blocks16 : Nat → List Byte → List (List Byte)
  | 0, _ => []
  | n + 1, b => if b.isEmpty then [] else (b.take 16 ++ List.replicate (16 - b.length) 0) :: blocks16 n (b.drop 16)

def ghash (h : Nat) (aad c : List Byte) : Nat :=
  let l := blocks16 (aad.length + 1) aad ++ blocks16 (c.length + 1) c ++ [beBytes 8 (8 * aad.length) ++ beBytes 8 (8 * c.length)]
  l.foldl (fun y b => ghashMul 128 (y ^^^ beNat b) h 0) 0

/-- AES-256-GCM decryption with a nonce of 96 bits: the plaintext, or none where the tag fails. -/
def gcmOpen (key nonce aad c tag : List Byte) : Option (List Byte) :=
  let t := aesTable
  let ks := aesKeys t key
  let enc (n : Nat) : List Byte := (aesBlock t ks ((beBytes 16 n).map (·.toNat))).map (BitVec.ofNat 8)
  let j0 := beNat nonce * 2 ^ 32 + 1
  let h := beNat (enc 0)
  if beBytes 16 (ghash h aad c ^^^ beNat (enc j0)) = tag then
    some (List.zipWith (· ^^^ ·) c ((List.range ((c.length + 15) / 16)).flatMap (fun i => enc (j0 + 1 + i))))
  else none

/-! ECDSA over P-384 (FIPS 186-5). A point is none at infinity. -/

def p384P : Nat := 2 ^ 384 - 2 ^ 128 - 2 ^ 96 + 2 ^ 32 - 1
def p384N : Nat := 0xFFFFFFFFFFFFFFFFFFFFFFFFFFFFFFFFFFFFFFFFFFFFFFFFC7634D81F4372DDF581A0DB248B0A77AECEC196ACCC52973
def p384B : Nat := 0xB3312FA7E23EE7E4988E056BE3F82D19181D9C6EFE8141120314088F5013875AC656398D8A2ED19D2A85C8EDD3EC2AEF
def p384G : Nat × Nat :=
  (0xAA87CA22BE8B05378EB1C71EF320AD746E1D3B628BA79B9859F741E082542A385502F25DBF55296C3A545E3872760AB7,
   0x3617DE4A96262C6F5D9E98BF9292DC29F8F41DBD289A147CE9DA3113B5F0B8C00A60B1CE1D7E819D7A431D7C90EA0E5F)

/-- A power modulo `m`, over `k` bits of the exponent. -/
def powMod (m a : Nat) : Nat → Nat → Nat
  | 0, _ => 1
  | k + 1, e =>
    let h := powMod m a k (e / 2)
    let q := h * h % m
    if e % 2 = 1 then q * a % m else q

/-- The inverse modulo a prime. -/
def invMod (m a : Nat) : Nat := powMod m a 384 (m - 2)

/-- The line of slope `l` through two points of the curve gives their sum. -/
def ecLine (l : Nat) (a b : Nat × Nat) : Nat × Nat :=
  let p := p384P
  let x := (l * l + 2 * p - a.1 - b.1) % p
  (x, (l * (p + a.1 - x) + p - a.2) % p)

def ecAdd : Option (Nat × Nat) → Option (Nat × Nat) → Option (Nat × Nat)
  | none, b => b
  | a, none => a
  | some a, some b =>
    let p := p384P
    if a.1 = b.1 then
      if (a.2 + b.2) % p = 0 then none
      else some (ecLine ((3 * a.1 * a.1 + p - 3) * invMod p (2 * a.2 % p) % p) a b)
    else some (ecLine ((b.2 + p - a.2) * invMod p ((b.1 + p - a.1) % p) % p) a b)

/-- A multiple of a point, over `k` bits of the factor. -/
def ecMul (q : Nat × Nat) : Nat → Nat → Option (Nat × Nat)
  | 0, _ => none
  | k + 1, n =>
    let h := ecMul q k (n / 2)
    let d := ecAdd h h
    if n % 2 = 1 then ecAdd d (some q) else d

/-- Is a point on the curve? -/
def onCurve (q : Nat × Nat) : Bool :=
  let p := p384P
  decide (q.1 < p) && decide (q.2 < p) && (q.2 * q.2 % p == (q.1 * q.1 * q.1 + (p - 3) * q.1 + p384B) % p)

/-- Does the signature (r then s, big-endian) verify the bytes under a public key (x then y, big-endian; PRESUMED, log 5)? -/
def ecdsaOk (key msg sig : List Byte) : Bool :=
  let q := (beNat (slice key 0 48), beNat (slice key 48 48))
  let r := beNat (slice sig 0 48)
  let s := beNat (slice sig 48 48)
  let e := beNat (digestBytes (sha384 msg))
  let n := p384N
  let w := invMod n s
  onCurve q && decide (1 ≤ r) && decide (r < n) && decide (1 ≤ s) && decide (s < n)
    && (match ecAdd (ecMul p384G 384 (e * w % n)) (ecMul q 384 (r * w % n)) with | none => false | some x => x.1 % n == r)

end Sys2Proof.Machine
end

