-- ==== Sys2Proof/Machine/PatternTypes.lean ====
section
/-! DEFINITION. The content of a Pattern (02, Table 2-5): one record per panel, every field under its own name. -/

namespace Sys2Proof.Machine

/-- An island record of ISLAND_PLAN; a point is (FREQ_MHZ, VDD_MV), top point first. -/
structure IslRec where
  present : Bool := false
  mayRetain : Bool := false
  mayOff : Bool := false
  points : List (Nat × Nat) := []
  vmin : Nat := 0
  vmax : Nat := 0
  deriving DecidableEq, Repr, Inhabited

/-- A record of PAD_PLAN. -/
structure PadRec where
  group : Nat := 0
  drive : Nat := 0
  odt : Nat := 0
  slew : Nat := 0
  safe : Nat := 0
  deriving DecidableEq, Repr, Inhabited

structure HostPlan where
  split : Nat := 0
  maxGts : Nat := 32
  trickleMod : Nat := 0
  vendor : Nat := 0
  device : Nat := 0
  subVendor : Nat := 0
  subDevice : Nat := 0
  bar2Log2 : Nat := 0
  msix : Nat := 16
  deriving DecidableEq, Repr, Inhabited

structure DramPlan where
  mask : Nat := 0
  ranks : Nat := 1
  rate0 : Nat := 0
  rate1 : Nat := 0
  density : Nat := 0
  timingSet : Nat := 0
  capGib : Nat := 0
  deriving DecidableEq, Repr, Inhabited

/-- A type record of MEDIA_GEOMETRY; the three lists of times are (SLC-mode, TLC, QLC), a retry step holds 8 offsets. -/
structure TypeRec where
  pageB : Nat := 0
  spareB : Nat := 0
  pagesBlk : Nat := 0
  blksPlane : Nat := 0
  planes : Nat := 0
  luns : Nat := 0
  tgts : Nat := 0
  modes : Nat := 0
  ratedPe : Nat := 0
  tR : List Nat := []
  tProg : List Nat := []
  tBers : List Nat := []
  retry : List (List Int) := []
  deriving DecidableEq, Repr, Inhabited

/-- MEDIA_GEOMETRY, and of each bay that was scanned the parameter page of its dies (R47). -/
structure MediaGeom where
  bayMask : Nat := 0
  rateMts : Nat := 0
  types : List TypeRec := []
  bayType : List Nat := []
  pages : List (Nat × ParamPage) := []
  deriving DecidableEq, Repr, Inhabited

/-- A die set: its number and the bitmap of its dies. -/
structure DieSet where
  set : Nat := 0
  dies : Nat := 0
  deriving DecidableEq, Repr, Inhabited

/-- A stripe template: parity dies stand last in `dies`. -/
structure StripeTmpl where
  id : Nat := 0
  width : Nat := 3
  parity : Nat := 1
  set : Nat := 0
  dies : List Nat := []
  deriving DecidableEq, Repr, Inhabited

structure StripeMap where
  singleBay : Bool := false
  sets : List DieSet := []
  tmpls : List StripeTmpl := []
  deriving DecidableEq, Repr, Inhabited

structure ZoneClass where
  cls : Nat := 0
  mode : Nat := 0
  sizeLog2 : Nat := 8
  set : Nat := 0
  width : Nat := 3
  parity : Nat := 1
  isolated : Bool := false
  owner : Nat := 0xFFFF
  deriving DecidableEq, Repr, Inhabited

structure NsFrame where
  maxNs : Nat := 0
  lbaf : Nat := 0
  convGib : Nat := 0
  fdpRg : Nat := 0
  fdpPh : Nat := 0
  deriving DecidableEq, Repr, Inhabited

/-- A slice template; the defaults are those of slice 0 in the bare structure (R305). -/
structure SliceTmpl where
  id : Nat := 0
  ats : Bool := false
  ordered : Bool := false
  qpairs : Nat := 16
  inflight : Nat := 65536
  mediaW : Nat := 1
  computeW : Nat := 0
  specMib : Nat := 0
  latUs : Nat := 10
  set : Nat := 0xFF
  keys : Nat := 0
  jobMs : Nat := 0
  jobMib : Nat := 0
  jobCores : Nat := 0
  comet : Nat := 0
  deriving DecidableEq, Repr, Inhabited

/-- A route record of SEAM_TABLE: its used stage words. -/
structure RouteRec where
  route : Nat := 0
  dir : Bool := false
  jobOnly : Bool := false
  stages : List Nat := []
  deriving DecidableEq, Repr, Inhabited

structure WeaveDir where
  weave : Nat := 0
  inputs : Nat := 1
  outputs : Nat := 1
  first : Nat := 0
  cells : Nat := 0
  deriving DecidableEq, Repr, Inhabited

/-- A weave cell's configuration word as one little-endian number (Table 9-7). -/
structure CellRec where
  cell : Nat := 0
  cfg : Nat := 0
  deriving DecidableEq, Repr, Inhabited

/-- A memory record: the words it gives a cell. -/
structure MemRec where
  cell : Nat := 0
  words : List Nat := []
  deriving DecidableEq, Repr, Inhabited

structure WeavePanel where
  weaves : List WeaveDir := []
  cells : List CellRec := []
  mems : List MemRec := []
  deriving DecidableEq, Repr, Inhabited

/-- A source record of FAULT_POLICY; `react` has one mask per level 0 to 4. -/
structure FaultRec where
  source : Nat := 0
  n : Nat := 16
  wMs : Nat := 60000
  react : List Nat := []
  deriving DecidableEq, Repr, Inhabited

/-- THERMAL_POLICY in °C; the defaults are those of Table 2-6. -/
structure Thermal where
  warnSet : Int := 110
  warnClr : Int := 105
  thrSet : Int := 117
  thrClr : Int := 114
  shut : Int := 132
  cwarnSet : Int := -40
  cwarnClr : Int := -35
  choldSet : Int := -55
  choldClr : Int := -50
  deriving DecidableEq, Repr, Inhabited

structure PowerSt where
  maxpCw : Nat := 0
  groups : Nat := 0
  entryUs : Nat := 0
  exitUs : Nat := 0
  nonOp : Bool := false
  deriving DecidableEq, Repr, Inhabited

/-- POWER_POLICY; the defaults are those of Table 2-13. -/
structure PowerPolicy where
  capW : Nat := 120
  pfailWired : Bool := false
  lpAllowed : Bool := false
  holdupUs : Nat := 0
  retIdleUs : Nat := 1000
  states : List PowerSt := [({ maxpCw := 12000 } : PowerSt)]
  deriving DecidableEq, Repr, Inhabited

structure CtrPreset where
  counter : Nat := 0
  select : Nat := 0
  slice : Nat := 0xFFFF
  island : Nat := 0xFF
  level : Bool := false
  thrInt : Bool := false
  thresh : Nat := 0
  deriving DecidableEq, Repr, Inhabited

/-- SIDEBAND_PLAN; the defaults are those of Table 2-13. -/
structure SbPlan where
  smbusOnly : Bool := false
  addr7 : Nat := 0x1D
  eid : Nat := 0
  mi : Bool := true
  wakeAddr : Bool := false
  smbKhz : Nat := 100
  deriving DecidableEq, Repr, Inhabited

/-- CALIBRATION_BOUNDS; `flDrift` is per SLC-mode, TLC and QLC. -/
structure CalBounds where
  flDrift : List Nat := [1, 1, 1]
  flCbits : Nat := 1
  dramMarginPs : Nat := 5
  ucieMarginPct : Nat := 30
  refMinH : Nat := 1
  refMaxH : Nat := 8760
  deriving DecidableEq, Repr, Inhabited

/-- The structure a Pattern gives the device. A panel that may be absent is an Option; `isl` has 72 records. -/
structure Pat where
  isl : List IslRec := []
  pad : List PadRec := []
  host : HostPlan := {}
  dram : Option DramPlan := none
  media : Option MediaGeom := none
  stripe : Option StripeMap := none
  classes : Option (List ZoneClass) := none
  ns : Option NsFrame := none
  slices : List SliceTmpl := [{}]
  seam : Option (List RouteRec) := none
  weave0 : Option WeavePanel := none
  weave1 : Option WeavePanel := none
  faults : List FaultRec := []
  thermal : Thermal := {}
  power : PowerPolicy := {}
  counters : Option (List CtrPreset) := none
  sideband : SbPlan := {}
  cal : CalBounds := {}
  deriving DecidableEq, Repr, Inhabited

/-- What validation reports (R50): Table 2-8 code, panel ordinal (0xFF: none) and byte offset (0xFFFF: none). -/
structure PatErr where
  code : Nat := 0
  panel : Nat := 0xFF
  offset : Nat := 0xFFFF
  deriving DecidableEq, Repr, Inhabited

end Sys2Proof.Machine
end

