-- ==== Sys2Proof/Machine/PatternParse.lean ====
section
/-! DEFINITION. A Pattern image and its panels (02, R42 to R49): frames, field ranges and the content of each panel. -/

namespace Sys2Proof.Machine

/-- Reading the island numbers of R20. -/
def islAON : Nat := 0
def islSEC : Nat := 1
def islCTL : Nat := 2
def islHFE : Nat := 3
def islUCM (k : Nat) : Nat := 4 + k
def islCMI : Nat := 8
def islTRN : Nat := 9
def islMCL (k : Nat) : Nat := 10 + k
def islDMI (j : Nat) : Nat := 26 + j
def islENG (j : Nat) : Nat := 34 + j
def islWVF (h : Nat) : Nat := 38 + h
def islUCC (j : Nat) : Nat := 40 + j
def isUcm (isl : Nat) : Bool := 4 ≤ isl && isl ≤ 7
def isMcl (isl : Nat) : Bool := 10 ≤ isl && isl ≤ 25
def isDmi (isl : Nat) : Bool := 26 ≤ isl && isl ≤ 33
def isEng (isl : Nat) : Bool := 34 ≤ isl && isl ≤ 37
def isWvf (isl : Nat) : Bool := 38 ≤ isl && isl ≤ 39
def isUcc (isl : Nat) : Bool := 40 ≤ isl && isl ≤ 71

/-- The nominal clock of Table 1-2 in MHz. -/
def islNominalMhz (isl : Nat) : Nat :=
  if isl = 0 then 50 else if isl = 1 then 1000 else if isl = 2 then 2000 else if isl = 3 then 1600
  else if isUcm isl then 16000 else if isl ≤ 9 then 1600 else if isMcl isl then 1200 else if isDmi isl then 1200
  else if isEng isl then 1000 else if isWvf isl then 1200 else 2000

/-- A check of one field: its offset in the payload, and whether it holds. -/
abbrev FieldCheck := Nat × Bool

/-- The offset of the first check that fails. -/
def firstBad : List FieldCheck → Option Nat
  | [] => none
  | (o, ok) :: t => if ok then firstBad t else some o

/-- A check per byte that the bytes `off .. off + n - 1` hold 0 (R46); bytes past the end of the payload hold 0. -/
def zeroChecks (b : List Byte) (off n : Nat) : List FieldCheck :=
  (List.range n).map (fun i => (off + i, b.getD (off + i) 0 == 0))

/-- A field of `n` bytes at `off` must lie within the payload and pass its range. A payload that ends inside its layout
fails at the first field that is cut off (DEDUCED, log 10). -/
def fieldCheck (b : List Byte) (off n : Nat) (p : Nat → Bool) : FieldCheck :=
  (off, off + n ≤ b.length && p (leAt b off n))

def between (lo hi v : Nat) : Bool := lo ≤ v && v ≤ hi

/-- Every byte after `used` is reserved (R46). -/
def tailChecks (b : List Byte) (used : Nat) : List FieldCheck := zeroChecks b used (b.length - used)

/-- ISLAND_PLAN. -/
def islRecChecks (b : List Byte) (i : Nat) : List FieldCheck :=
  let o := 8 + 24 * i
  let present := bitAt (u8 b (o + 1)) 0
  let np := u8 b (o + 2)
  let freq := fun k => u16 b (o + 4 + 4 * k)
  if present then
    [fieldCheck b o 1 (· == i), fieldCheck b (o + 1) 1 (· < 8), fieldCheck b (o + 2) 1 (between 1 4)]
    ++ zeroChecks b (o + 3) 1
    ++ (List.range 4).flatMap (fun k =>
        if k < np then
          [fieldCheck b (o + 4 + 4 * k) 2 (fun f => k == 0 || f < freq (k - 1)), fieldCheck b (o + 6 + 4 * k) 2 (fun _ => true)]
        else [fieldCheck b (o + 4 + 4 * k) 2 (· == 0), fieldCheck b (o + 6 + 4 * k) 2 (· == 0)])
    ++ [fieldCheck b (o + 20) 2 (between 550 900), fieldCheck b (o + 22) 2 (fun v => u16 b (o + 20) ≤ v && v ≤ 900)]
  else
    [fieldCheck b o 1 (· == i), fieldCheck b (o + 1) 1 (· == 0)] ++ zeroChecks b (o + 2) 21
      ++ [fieldCheck b (o + 23) 1 (· == 0)]

def islPlanChecks (b : List Byte) : List FieldCheck :=
  fieldCheck b 0 2 (· == 72) :: zeroChecks b 2 6 ++ (List.range 72).flatMap (islRecChecks b) ++ tailChecks b (8 + 24 * 72)

def parseIslRec (b : List Byte) (i : Nat) : IslRec :=
  let o := 8 + 24 * i
  let f := u8 b (o + 1)
  { present := bitAt f 0, mayRetain := bitAt f 1, mayOff := bitAt f 2
    points := (List.range (u8 b (o + 2))).map (fun k => (u16 b (o + 4 + 4 * k), u16 b (o + 6 + 4 * k)))
    vmin := u16 b (o + 20), vmax := u16 b (o + 22) }

def parseIslPlan (b : List Byte) : List IslRec := (List.range 72).map (parseIslRec b)

/-- PAD_PLAN. -/
def padGroupOk (g : Nat) : Bool := g ≤ 0x4F || between 0x50 0x59 g

/-- DRIVE and ODT of a pad group (R471, Table 17-7): the reserved values fail, and ODT must be 0 outside flash and DRAM. -/
def padDriveOk (g v : Nat) : Bool := if g ≤ 0x3F then v ≤ 4 else if between 0x50 0x57 g then v ≤ 2 else v ≤ 7
def padOdtOk (g v : Nat) : Bool := if g ≤ 0x3F then v ≤ 4 else if between 0x50 0x57 g then v ≤ 6 else v == 0

def padPlanChecks (b : List Byte) : List FieldCheck :=
  let n := u16 b 0
  fieldCheck b 0 2 (between 1 90) :: zeroChecks b 2 2
  ++ (List.range n).flatMap (fun i =>
      let o := 4 + 8 * i
      let g := u16 b o
      [fieldCheck b o 2 padGroupOk, fieldCheck b (o + 2) 1 (padDriveOk g), fieldCheck b (o + 3) 1 (padOdtOk g),
       fieldCheck b (o + 4) 1 (· ≤ 3),
       fieldCheck b (o + 5) 1 (fun v => v ≤ 2 || g ≤ 0x3F || between 0x50 0x57 g)] ++ zeroChecks b (o + 6) 2)
  ++ tailChecks b (4 + 8 * n)

def parsePadPlan (b : List Byte) : List PadRec :=
  (List.range (u16 b 0)).map (fun i =>
    let o := 4 + 8 * i
    { group := u16 b o, drive := u8 b (o + 2), odt := u8 b (o + 3), slew := u8 b (o + 4), safe := u8 b (o + 5) })

/-- HOST_PLAN. -/
def hostPlanChecks (b : List Byte) : List FieldCheck :=
  [fieldCheck b 0 1 (· ≤ 1), fieldCheck b 1 1 (fun v => [4, 8, 12, 16, 24, 32].contains v), fieldCheck b 2 1 (· ≤ 3)]
  ++ zeroChecks b 3 1
  ++ [fieldCheck b 4 8 (fun _ => true), fieldCheck b 12 1 (fun v => v == 0 || between 30 36 v)] ++ zeroChecks b 13 1
  ++ [fieldCheck b 14 2 (between 1 2048)] ++ zeroChecks b 16 16 ++ tailChecks b 32

def parseHostPlan (b : List Byte) : HostPlan :=
  { split := u8 b 0, maxGts := u8 b 1, trickleMod := u8 b 2, vendor := u16 b 4, device := u16 b 6
    subVendor := u16 b 8, subDevice := u16 b 10, bar2Log2 := u8 b 12, msix := u16 b 14 }

/-- How many bits of an 8-bit mask are set. -/
def popBits (w v : Nat) : Nat := ((List.range w).filter (fun i => v.testBit i)).length

/-- DRAM_PLAN. -/
def dramPlanChecks (b : List Byte) : List FieldCheck :=
  [fieldCheck b 0 1 (fun v => [1, 2, 4, 8].contains (popBits 8 v)), fieldCheck b 1 1 (between 1 2),
   fieldCheck b 2 2 (between 3200 9600), fieldCheck b 4 2 (fun v => v == 0 || between 3200 (u16 b 2) v),
   fieldCheck b 6 1 (fun _ => true), fieldCheck b 7 1 (· ≤ 15), fieldCheck b 8 2 (between 1 64)]
  ++ zeroChecks b 10 22 ++ tailChecks b 32

def parseDramPlan (b : List Byte) : DramPlan :=
  { mask := u8 b 0, ranks := u8 b 1, rate0 := u16 b 2, rate1 := u16 b 4, density := u8 b 6, timingSet := u8 b 7
    capGib := u16 b 8 }

/-- Where each type record starts: a record is 64 bytes and 8 per retry step. -/
def typeStarts (b : List Byte) : Nat → Nat → List Nat
  | 0, _ => []
  | n + 1, o => o :: typeStarts b n (o + 64 + 8 * u8 b (o + 34))

def typeEnd (b : List Byte) : Nat → Nat → Nat
  | 0, o => o
  | n + 1, o => typeEnd b n (o + 64 + 8 * u8 b (o + 34))

/-- A type record's own ranges (Table 2-5, R47, R175). A field of 0 that the parameter page gives is checked at
discovery. -/
def typeChecks (b : List Byte) (o : Nat) : List FieldCheck :=
  let pageB := u32 b o
  [fieldCheck b o 4 (fun v => v % 4096 == 0),
   fieldCheck b (o + 4) 2 (fun v => v == 0 || pageB == 0 || 336 ≤ v * 4096 / pageB),
   fieldCheck b (o + 6) 2 (fun _ => true), fieldCheck b (o + 8) 2 (fun _ => true), fieldCheck b (o + 10) 1 (fun _ => true),
   fieldCheck b (o + 11) 1 (fun _ => true),
   fieldCheck b (o + 12) 1 (fun v => v != 0 && (u8 b (o + 11) == 0 || v * u8 b (o + 11) ≤ 32) && v ≤ 32),
   fieldCheck b (o + 13) 1 (between 1 7), fieldCheck b (o + 14) 2 (fun _ => true),
   fieldCheck b (o + 16) 18 (fun _ => true), fieldCheck b (o + 34) 1 (· ≤ 32)]
  ++ zeroChecks b (o + 35) 29
  ++ [fieldCheck b (o + 64) (8 * u8 b (o + 34)) (fun _ => true)]

def mediaChecks (b : List Byte) : List FieldCheck :=
  let n := u8 b 2
  let e := typeEnd b n 8
  [fieldCheck b 0 2 (fun _ => true), fieldCheck b 2 1 (between 1 8)] ++ zeroChecks b 3 1
  ++ [fieldCheck b 4 2 (between 400 3600)] ++ zeroChecks b 6 2
  ++ (typeStarts b n 8).flatMap (typeChecks b)
  ++ (List.range 16).map (fun i => fieldCheck b (e + i) 1 (fun v =>
      if bitAt (u16 b 0) i then v < n else v == 0xFF))
  ++ tailChecks b (e + 16)

def parseType (b : List Byte) (o : Nat) : TypeRec :=
  let t := fun k => [u16 b (o + 16 + 6 * k), u16 b (o + 18 + 6 * k), u16 b (o + 20 + 6 * k)]
  { pageB := u32 b o, spareB := u16 b (o + 4), pagesBlk := u16 b (o + 6), blksPlane := u16 b (o + 8)
    planes := u8 b (o + 10), luns := u8 b (o + 11), tgts := u8 b (o + 12), modes := u8 b (o + 13)
    ratedPe := u16 b (o + 14), tR := t 0, tProg := t 1, tBers := t 2
    retry := (List.range (u8 b (o + 34))).map (fun s => (List.range 8).map (fun j => s8 b (o + 64 + 8 * s + j))) }

def parseMedia (b : List Byte) : MediaGeom :=
  let n := u8 b 2
  let e := typeEnd b n 8
  { bayMask := u16 b 0, rateMts := u16 b 4, types := (typeStarts b n 8).map (parseType b)
    bayType := (List.range 16).map (fun i => u8 b (e + i)) }

/-- Bytes of a stripe template of `w` dies: 8 and 2 per die, padded to a multiple of 4. -/
def tmplLen (w : Nat) : Nat := (8 + 2 * w + 3) / 4 * 4

def tmplStarts (b : List Byte) : Nat → Nat → List Nat
  | 0, _ => []
  | n + 1, o => o :: tmplStarts b n (o + tmplLen (u8 b (o + 2)))

def tmplEnd (b : List Byte) : Nat → Nat → Nat
  | 0, o => o
  | n + 1, o => tmplEnd b n (o + tmplLen (u8 b (o + 2)))

/-- STRIPE_MAP. -/
def stripeChecks (b : List Byte) : List FieldCheck :=
  let ns := u8 b 0
  let nt := u16 b 2
  let t0 := 8 + 260 * ns
  [fieldCheck b 0 1 (between 1 64), fieldCheck b 1 1 (· ≤ 1), fieldCheck b 2 2 (between 1 1024)] ++ zeroChecks b 4 4
  ++ (List.range ns).flatMap (fun i =>
      let o := 8 + 260 * i
      fieldCheck b o 1 (· ≤ 63) :: zeroChecks b (o + 1) 3 ++ [fieldCheck b (o + 4) 256 (fun _ => true)])
  ++ (tmplStarts b nt t0).flatMap (fun o =>
      let w := u8 b (o + 2)
      [fieldCheck b o 2 (· ≤ 1023), fieldCheck b (o + 2) 1 (between 3 32), fieldCheck b (o + 3) 1 (between 1 2),
       fieldCheck b (o + 4) 1 (fun _ => true)] ++ zeroChecks b (o + 5) 3
      ++ [fieldCheck b (o + 8) (2 * w) (fun _ => true)] ++ zeroChecks b (o + 8 + 2 * w) (tmplLen w - 8 - 2 * w))
  ++ tailChecks b (tmplEnd b nt t0)

def parseStripe (b : List Byte) : StripeMap :=
  let ns := u8 b 0
  { singleBay := bitAt (u8 b 1) 0
    sets := (List.range ns).map (fun i => { set := u8 b (8 + 260 * i), dies := leAt b (12 + 260 * i) 256 })
    tmpls := (tmplStarts b (u16 b 2) (8 + 260 * ns)).map (fun o =>
      { id := u16 b o, width := u8 b (o + 2), parity := u8 b (o + 3), set := u8 b (o + 4)
        dies := (List.range (u8 b (o + 2))).map (fun j => u16 b (o + 8 + 2 * j)) }) }

/-- ZONE_CLASSES. -/
def classChecks (b : List Byte) : List FieldCheck :=
  let n := u8 b 0
  fieldCheck b 0 1 (between 1 16) :: zeroChecks b 1 3
  ++ (List.range n).flatMap (fun i =>
      let o := 4 + 16 * i
      [fieldCheck b o 1 (· ≤ 15), fieldCheck b (o + 1) 1 (· ≤ 2), fieldCheck b (o + 2) 1 (between 8 14),
       fieldCheck b (o + 3) 1 (fun _ => true), fieldCheck b (o + 4) 1 (fun _ => true), fieldCheck b (o + 5) 1 (fun _ => true),
       fieldCheck b (o + 6) 1 (· ≤ 1)]
      ++ zeroChecks b (o + 7) 1 ++ [fieldCheck b (o + 8) 2 (fun v => v < 2048 || v == 0xFFFF)] ++ zeroChecks b (o + 10) 6)
  ++ tailChecks b (4 + 16 * n)

def parseClasses (b : List Byte) : List ZoneClass :=
  (List.range (u8 b 0)).map (fun i =>
    let o := 4 + 16 * i
    { cls := u8 b o, mode := u8 b (o + 1), sizeLog2 := u8 b (o + 2), set := u8 b (o + 3), width := u8 b (o + 4)
      parity := u8 b (o + 5), isolated := bitAt (u8 b (o + 6)) 0, owner := u16 b (o + 8) })

/-- NAMESPACE_FRAME. -/
def nsFrameChecks (b : List Byte) : List FieldCheck :=
  [fieldCheck b 0 2 (between 1 1024), fieldCheck b 2 2 (between 1 15), fieldCheck b 4 4 (· ≤ 32768),
   fieldCheck b 8 1 (· ≤ 64)] ++ zeroChecks b 9 1 ++ [fieldCheck b 10 2 (· ≤ 256)] ++ zeroChecks b 12 20 ++ tailChecks b 32

def parseNsFrame (b : List Byte) : NsFrame :=
  { maxNs := u16 b 0, lbaf := u16 b 2, convGib := u32 b 4, fdpRg := u8 b 8, fdpPh := u16 b 10 }

/-- SLICE_TEMPLATES. -/
def templateChecks (b : List Byte) : List FieldCheck :=
  let n := u8 b 0
  fieldCheck b 0 1 (between 1 64) :: zeroChecks b 1 3
  ++ (List.range n).flatMap (fun i =>
      let o := 4 + 64 * i
      [fieldCheck b o 1 (fun _ => true), fieldCheck b (o + 1) 1 (· ≤ 3)] ++ zeroChecks b (o + 2) 2
      ++ [fieldCheck b (o + 4) 2 (between 1 16384)] ++ zeroChecks b (o + 6) 2
      ++ [fieldCheck b (o + 8) 4 (between 1 65536), fieldCheck b (o + 12) 2 (between 1 65535),
          fieldCheck b (o + 14) 2 (fun _ => true), fieldCheck b (o + 16) 4 (· ≤ 65536),
          fieldCheck b (o + 20) 2 (between 10 1000), fieldCheck b (o + 22) 1 (fun _ => true),
          fieldCheck b (o + 23) 1 (· ≤ 64), fieldCheck b (o + 24) 8 (fun _ => true), fieldCheck b (o + 32) 1 (· ≤ 128)]
      ++ zeroChecks b (o + 33) 1 ++ [fieldCheck b (o + 34) 2 (· ≤ 4096)] ++ zeroChecks b (o + 36) 28)
  ++ tailChecks b (4 + 64 * n)

def parseTemplates (b : List Byte) : List SliceTmpl :=
  (List.range (u8 b 0)).map (fun i =>
    let o := 4 + 64 * i
    { id := u8 b o, ats := bitAt (u8 b (o + 1)) 0, ordered := bitAt (u8 b (o + 1)) 1, qpairs := u16 b (o + 4)
      inflight := u32 b (o + 8), mediaW := u16 b (o + 12), computeW := u16 b (o + 14), specMib := u32 b (o + 16)
      latUs := u16 b (o + 20), set := u8 b (o + 22), keys := u8 b (o + 23), jobMs := u32 b (o + 24)
      jobMib := u32 b (o + 28), jobCores := u8 b (o + 32), comet := u16 b (o + 34) })

/-- The stage kinds of Table 2-7. -/
def kHead : Nat := 1
def kCompress : Nat := 2
def kDecompress : Nat := 3
def kSieve : Nat := 4
def kIndex : Nat := 5
def kWeave : Nat := 6
def kUser : Nat := 7
def kHost : Nat := 8
def kCmem : Nat := 9

def stageKind (w : Nat) : Nat := w % 256
def stageParam (w : Nat) : Nat := w / 256 % 256

/-- A STAGE word that Table 2-7 allows (R49). -/
def stageOk (w : Nat) : Bool :=
  let k := stageKind w
  let p := stageParam w
  if k = 1 || k = 4 || k = 7 || k = 8 || k = 9 then p == 0
  else if k = 2 then p ≤ 1 else if k = 3 then p ≤ 5 else if k = 5 then p ≤ 3 else k == 6

/-- SEAM_TABLE. -/
def seamChecks (b : List Byte) : List FieldCheck :=
  let n := u16 b 0
  fieldCheck b 0 2 (between 1 4096) :: zeroChecks b 2 2
  ++ (List.range n).flatMap (fun i =>
      let o := 4 + 20 * i
      [fieldCheck b o 2 (· ≤ 0xFFF), fieldCheck b (o + 2) 1 (between 2 8), fieldCheck b (o + 3) 1 (· ≤ 3)]
      ++ (List.range 8).map (fun k => fieldCheck b (o + 4 + 2 * k) 2 (fun w =>
          if k < u8 b (o + 2) then stageOk w else w == 0)))
  ++ tailChecks b (4 + 20 * n)

def parseSeam (b : List Byte) : List RouteRec :=
  (List.range (u16 b 0)).map (fun i =>
    let o := 4 + 20 * i
    { route := u16 b o, dir := bitAt (u8 b (o + 3)) 0, jobOnly := bitAt (u8 b (o + 3)) 1
      stages := (List.range (u8 b (o + 2))).map (fun k => u16 b (o + 4 + 2 * k)) })

/-- Memory records are cut by their own lengths. -/
def memStarts (b : List Byte) : Nat → Nat → List Nat
  | 0, _ => []
  | n + 1, o => o :: memStarts b n (o + 4 + u16 b (o + 2))

def memEnd (b : List Byte) : Nat → Nat → Nat
  | 0, o => o
  | n + 1, o => memEnd b n (o + 4 + u16 b (o + 2))

/-- A cell configuration (Table 9-7, R290), with the offset of the field in fault. -/
def cellChecks (b : List Byte) (o : Nat) : List FieldCheck :=
  [fieldCheck b o 8 (fun _ => true), fieldCheck b (o + 8) 1 (fun v => v % 32 ≤ 24 && v < 64),
   fieldCheck b (o + 9) 1 (fun v => v % 16 ≤ 8 && v / 16 ≤ 8), fieldCheck b (o + 10) 1 (· ≤ 3),
   fieldCheck b (o + 11) 1 (· == 0), fieldCheck b (o + 12) 4 (fun _ => true)]

/-- WEAVE_PANEL. -/
def weaveChecks (b : List Byte) : List FieldCheck :=
  let nw := u8 b 0
  let nc := u16 b 2
  let nm := u16 b 4
  let c0 := 8 + 8 * nw
  let m0 := c0 + 20 * nc
  [fieldCheck b 0 1 (between 1 16)] ++ zeroChecks b 1 1
  ++ [fieldCheck b 2 2 (between 1 2048), fieldCheck b 4 2 (· ≤ 2048)] ++ zeroChecks b 6 2
  ++ (List.range nw).flatMap (fun i =>
      let o := 8 + 8 * i
      [fieldCheck b o 1 (· ≤ 127), fieldCheck b (o + 1) 1 (fun v => between 1 4 (v % 16) && between 1 4 (v / 16)),
       fieldCheck b (o + 2) 4 (fun _ => true)] ++ zeroChecks b (o + 6) 2)
  ++ (List.range nc).flatMap (fun i =>
      let o := c0 + 20 * i
      fieldCheck b o 2 (· ≤ 2047) :: zeroChecks b (o + 2) 2 ++ cellChecks b (o + 4))
  ++ (memStarts b nm m0).flatMap (fun o =>
      [fieldCheck b o 2 (fun _ => true), fieldCheck b (o + 2) 2 (fun v => between 4 2048 v && v % 4 == 0),
       fieldCheck b (o + 4) (u16 b (o + 2)) (fun _ => true)])
  ++ tailChecks b (memEnd b nm m0)

def parseWeave (b : List Byte) : WeavePanel :=
  let nw := u8 b 0
  let c0 := 8 + 8 * nw
  let m0 := c0 + 20 * u16 b 2
  { weaves := (List.range nw).map (fun i =>
      let o := 8 + 8 * i
      { weave := u8 b o, inputs := u8 b (o + 1) % 16, outputs := u8 b (o + 1) / 16, first := u16 b (o + 2)
        cells := u16 b (o + 4) })
    cells := (List.range (u16 b 2)).map (fun i => { cell := u16 b (c0 + 20 * i), cfg := leAt b (c0 + 20 * i + 4) 16 })
    mems := (memStarts b (u16 b 4) m0).map (fun o =>
      { cell := u16 b o, words := (List.range (u16 b (o + 2) / 4)).map (fun k => u32 b (o + 4 + 4 * k)) }) }

/-- FAULT_POLICY. -/
def faultChecks (b : List Byte) : List FieldCheck :=
  let n := u16 b 0
  fieldCheck b 0 2 (· ≤ 1024) :: zeroChecks b 2 2
  ++ (List.range n).flatMap (fun i =>
      let o := 4 + 16 * i
      [fieldCheck b o 2 (· ≤ 1023), fieldCheck b (o + 2) 2 (between 1 65535), fieldCheck b (o + 4) 4 (between 1 86400000)]
      ++ (List.range 5).map (fun k => fieldCheck b (o + 8 + k) 1 (· ≤ 0x7F)) ++ zeroChecks b (o + 13) 3)
  ++ tailChecks b (4 + 16 * n)

def parseFaults (b : List Byte) : List FaultRec :=
  (List.range (u16 b 0)).map (fun i =>
    let o := 4 + 16 * i
    { source := u16 b o, n := u16 b (o + 2), wMs := u32 b (o + 4), react := (List.range 5).map (fun k => u8 b (o + 8 + k)) })

/-- SHUT of THERMAL_POLICY: Table 2-6 allows 128 to 135, which a signed byte cannot hold; its byte is read unsigned
(DEDUCED, log 11). -/
def parseThermal (b : List Byte) : Thermal :=
  { warnSet := s8 b 0, warnClr := s8 b 1, thrSet := s8 b 2, thrClr := s8 b 3, shut := u8 b 4, cwarnSet := s8 b 5
    cwarnClr := s8 b 6, choldSet := s8 b 7, choldClr := s8 b 8 }

/-- THERMAL_POLICY's layout; its bounds are a cross rule (Table 2-9, Thermal). -/
def thermalChecks (b : List Byte) : List FieldCheck :=
  fieldCheck b 0 9 (fun _ => true) :: zeroChecks b 9 7 ++ tailChecks b 16

/-- POWER_POLICY; bits 10 to 15 of GROUPS must be 0 (R396). -/
def powerChecks (b : List Byte) : List FieldCheck :=
  let nps := u8 b 12
  [fieldCheck b 0 1 (between 20 120), fieldCheck b 1 1 (· ≤ 3)] ++ zeroChecks b 2 2
  ++ [fieldCheck b 4 4 (fun _ => true), fieldCheck b 8 4 (fun _ => true), fieldCheck b 12 1 (between 1 8)]
  ++ zeroChecks b 13 3
  ++ (List.range 8).flatMap (fun i =>
      let o := 16 + 16 * i
      if i < nps then
        [fieldCheck b o 2 (fun _ => true), fieldCheck b (o + 2) 2 (· < 0x400), fieldCheck b (o + 4) 8 (fun _ => true),
         fieldCheck b (o + 12) 2 (· ≤ 1)] ++ zeroChecks b (o + 14) 2
      else [fieldCheck b o 2 (· == 0), fieldCheck b (o + 2) 2 (· == 0), fieldCheck b (o + 4) 4 (· == 0), fieldCheck b (o + 8) 4 (· == 0),
            fieldCheck b (o + 12) 2 (· == 0)] ++ zeroChecks b (o + 14) 2)
  ++ tailChecks b 144

def parsePower (b : List Byte) : PowerPolicy :=
  { capW := u8 b 0, pfailWired := bitAt (u8 b 1) 0, lpAllowed := bitAt (u8 b 1) 1, holdupUs := u32 b 4
    retIdleUs := u32 b 8
    states := (List.range (u8 b 12)).map (fun i =>
      let o := 16 + 16 * i
      { maxpCw := u16 b o, groups := u16 b (o + 2), entryUs := u32 b (o + 4), exitUs := u32 b (o + 8)
        nonOp := bitAt (u16 b (o + 12)) 0 }) }

/-- COUNTER_PRESETS. -/
def presetChecks (b : List Byte) : List FieldCheck :=
  let n := u16 b 0
  fieldCheck b 0 2 (between 1 1024) :: zeroChecks b 2 2
  ++ (List.range n).flatMap (fun i =>
      let o := 4 + 16 * i
      [fieldCheck b o 2 (· ≤ 1023), fieldCheck b (o + 2) 2 (· ≤ 0x7FF), fieldCheck b (o + 4) 2 (fun v => v < 2048 || v == 0xFFFF),
       fieldCheck b (o + 6) 1 (fun v => v < 72 || v == 0xFF), fieldCheck b (o + 7) 1 (· ≤ 3),
       fieldCheck b (o + 8) 8 (fun _ => true)])
  ++ tailChecks b (4 + 16 * n)

def parsePresets (b : List Byte) : List CtrPreset :=
  (List.range (u16 b 0)).map (fun i =>
    let o := 4 + 16 * i
    { counter := u16 b o, select := u16 b (o + 2), slice := u16 b (o + 4), island := u8 b (o + 6)
      level := bitAt (u8 b (o + 7)) 0, thrInt := bitAt (u8 b (o + 7)) 1, thresh := u64 b (o + 8) })

/-- SIDEBAND_PLAN. -/
def sidebandChecks (b : List Byte) : List FieldCheck :=
  [fieldCheck b 0 1 (· ≤ 1), fieldCheck b 1 1 (between 0x08 0x77), fieldCheck b 2 1 (fun _ => true),
   fieldCheck b 3 1 (· ≤ 3), fieldCheck b 4 2 (fun v => [100, 400, 1000].contains v)] ++ zeroChecks b 6 10 ++ tailChecks b 16

def parseSideband (b : List Byte) : SbPlan :=
  { smbusOnly := u8 b 0 == 1, addr7 := u8 b 1, eid := u8 b 2, mi := bitAt (u8 b 3) 0, wakeAddr := bitAt (u8 b 3) 1
    smbKhz := u16 b 4 }

/-- CALIBRATION_BOUNDS. -/
def calChecks (b : List Byte) : List FieldCheck :=
  (List.range 3).map (fun i => fieldCheck b i 1 (between 1 63)) ++ zeroChecks b 3 1
  ++ [fieldCheck b 4 2 (between 1 1024)] ++ zeroChecks b 6 2
  ++ [fieldCheck b 8 2 (between 5 200), fieldCheck b 10 1 (between 10 60)] ++ zeroChecks b 11 1
  ++ [fieldCheck b 12 2 (between 1 8760), fieldCheck b 14 2 (fun v => u16 b 12 ≤ v && v ≤ 8760)]
  ++ zeroChecks b 16 16 ++ tailChecks b 32

def parseCal (b : List Byte) : CalBounds :=
  { flDrift := [u8 b 0, u8 b 1, u8 b 2], flCbits := u16 b 4, dramMarginPs := u16 b 8, ucieMarginPct := u8 b 10
    refMinH := u16 b 12, refMaxH := u16 b 14 }

/-- The checks of a panel's payload by its TYPE (Table 2-4). -/
def panelChecks (type : Nat) (b : List Byte) : List FieldCheck :=
  match type with
  | 0x01 => islPlanChecks b
  | 0x02 => padPlanChecks b
  | 0x03 => hostPlanChecks b
  | 0x04 => dramPlanChecks b
  | 0x05 => mediaChecks b
  | 0x06 => stripeChecks b
  | 0x07 => classChecks b
  | 0x08 => nsFrameChecks b
  | 0x09 => templateChecks b
  | 0x0A => seamChecks b
  | 0x0B => weaveChecks b
  | 0x0C => faultChecks b
  | 0x0D => thermalChecks b
  | 0x0E => powerChecks b
  | 0x0F => presetChecks b
  | 0x10 => sidebandChecks b
  | 0x11 => calChecks b
  | _ => []

/-- A panel frame (Table 2-2). -/
structure Frame where
  type : Nat := 0
  inst : Nat := 0
  pver : Nat := 1
  resv : Nat := 0
  payload : List Byte := []
  crcOk : Bool := true
  deriving DecidableEq, Repr, Inhabited

/-- The frames from offset `o` up to `lim`, at most `fuel` of them, and where they end. -/
def framesFrom (img : List Byte) (lim : Nat) : Nat → Nat → List Frame × Nat
  | 0, o => ([], o)
  | n + 1, o =>
    let len := u32 img (o + 4)
    if o + 0x14 + len ≤ lim then
      let f : Frame := { type := u16 img o, inst := u16 img (o + 2), pver := u16 img (o + 8), resv := leAt img (o + 10) 6
                         payload := slice img (o + 16) len
                         crcOk := crc32c (slice img o (16 + len)) == u32 img (o + 16 + len) }
      let r := framesFrom img lim n (o + 0x14 + len)
      (f :: r.1, r.2)
    else ([], o)

/-- The image's fields. -/
def imgTotal (img : List Byte) : Nat := u32 img 8
def imgSeq (img : List Byte) : Nat := u32 img 0x24
def imgMagic (img : List Byte) : Bool := u32 img 0 == 0x5450564F
def imgPartial (img : List Byte) : Bool := bitAt (u8 img 0x29) 0
def imgFrames (img : List Byte) : List Frame × Nat := framesFrom img (imgTotal img - 104) 65 64

/-- Put one panel into a structure. -/
def applyPanel (p : Pat) (f : Frame) : Pat :=
  let b := f.payload
  match f.type with
  | 0x01 => { p with isl := parseIslPlan b }
  | 0x02 => { p with pad := parsePadPlan b }
  | 0x03 => { p with host := parseHostPlan b }
  | 0x04 => { p with dram := some (parseDramPlan b) }
  | 0x05 => { p with media := some (parseMedia b) }
  | 0x06 => { p with stripe := some (parseStripe b) }
  | 0x07 => { p with classes := some (parseClasses b) }
  | 0x08 => { p with ns := some (parseNsFrame b) }
  | 0x09 => { p with slices := parseTemplates b }
  | 0x0A => { p with seam := some (parseSeam b) }
  | 0x0B => if f.inst = 0 then { p with weave0 := some (parseWeave b) } else { p with weave1 := some (parseWeave b) }
  | 0x0C => { p with faults := parseFaults b }
  | 0x0D => { p with thermal := parseThermal b }
  | 0x0E => { p with power := parsePower b }
  | 0x0F => { p with counters := some (parsePresets b) }
  | 0x10 => { p with sideband := parseSideband b }
  | 0x11 => { p with cal := parseCal b }
  | _ => p

/-- The structure of a full image, or of a base structure with the panels of a PARTIAL image in place (R51). -/
def applyFrames (p : Pat) (fs : List Frame) : Pat := fs.foldl applyPanel p

/-- The structure of the bare Pattern (R55, Table 2-13): AON, SEC, CTL, HFE, UCM0 and CMI present, each at its nominal
clock and fused voltage. -/
def barePat : Pat :=
  { isl := (List.range 72).map (fun i =>
      if [0, 1, 2, 3, 4, 8].contains i then
        ({ present := true, points := [(islNominalMhz i, Config.fuseRefMv i)] } : IslRec)
      else {})
    host := { vendor := Config.fuseVendor, device := Config.fuseDevice } }

/-- May this panel be in a PARTIAL image (Table 2-4)? -/
def isWarm (type : Nat) : Bool := between 0x09 0x0F type || type == 0x11

end Sys2Proof.Machine
end

