-- ==== Sys2Proof/Machine/PatternCheck.lean ====
section
/-! DEFINITION. Validation of a Pattern image (02, R50 to R52) and the geometry arithmetic that its cross rules and the
zones share (05, R138, R139, R476). -/

namespace Sys2Proof.Machine

/-! Routes. -/

/-- Route 0x000 as a seam record (R27, R49). -/
def plainRoute : RouteRec := { route := 0, stages := [kHead, kHost] }

/-- The routes that a structure binds: the records of SEAM_TABLE, and the plain path whenever it has media, whether or not the panel names
it (R27, R45, R49). -/
def boundRoutes (p : Pat) : List RouteRec :=
  let l := p.seam.getD []
  if p.media.isSome && !l.any (fun r => r.route == 0) then plainRoute :: l else l

/-! Geometry. -/

/-- Die d lies in bay d / 128 and on channel d / 32 (R48). -/
def dieBay (d : Nat) : Nat := d / 128
def dieChannel (d : Nat) : Nat := d / 32

/-- The highest mode of a type's MODES (R47). -/
def nativeMode (t : TypeRec) : Nat := if bitAt t.modes 2 then 2 else if bitAt t.modes 1 then 1 else 0

/-- A field that the panel leaves to the parameter page. -/
def takeField (panel page : Nat) : Nat := if panel = 0 then page else panel

/-- The type record with the fields its panel leaves open taken from a parameter page (R47). -/
def TypeRec.fill (t : TypeRec) (q : ParamPage) : TypeRec :=
  let m := nativeMode t
  let put (l : List Nat) (v : Nat) : List Nat :=
    let l1 := putAt l m (takeField (l.getD m 0) v)
    (List.range 3).map (fun i => if bitAt t.modes i && l1.getD i 0 == 0 then l1.getD m 0 else l1.getD i 0)
  { t with pageB := takeField t.pageB q.pageB, spareB := takeField t.spareB q.spareB, pagesBlk := takeField t.pagesBlk q.pagesBlk
           blksPlane := takeField t.blksPlane q.blksPlane, planes := takeField t.planes q.planes, luns := takeField t.luns q.luns
           ratedPe := takeField t.ratedPe q.ratedPe, tR := put t.tR q.tR, tProg := put t.tProg q.tProg, tBers := put t.tBers q.tBers }

/-- The type record of a bay as the panel states it: none for an empty bay or an absent media panel. -/
def panelType? (p : Pat) (bay : Nat) : Option TypeRec :=
  match p.media with
  | none => none
  | some m => if bitAt m.bayMask bay then m.types[m.bayType.getD bay 0xFF]? else none

/-- The geometry of a bay's dies: the panel's, its open fields taken from the parameter page of the bay's own dies (R47). -/
def bayType? (p : Pat) (bay : Nat) : Option TypeRec :=
  (panelType? p bay).map (fun t =>
    match (p.media.getD {}).pages.find? (fun e => e.1 == bay) with
    | some e => t.fill e.2
    | none => t)

def dieType? (p : Pat) (d : Nat) : Option TypeRec := bayType? p (dieBay d)

/-- Does the geometry have die d? A LUNS of 0 is not known before discovery. -/
def dieExists (p : Pat) (d : Nat) : Bool :=
  match dieType? p d with
  | none => false
  | some t => t.luns == 0 || decide (d % 32 < t.tgts * t.luns)

/-- Bits per cell of SLC-mode, TLC and QLC (R138). -/
def modeBits (m : Nat) : Nat := if m = 2 then 4 else if m = 1 then 3 else 1

/-- Data bytes of one block across all planes in mode `m` (R138). -/
def blockBytes (t : TypeRec) (m : Nat) : Nat :=
  t.pageB * t.planes * t.pagesBlk * modeBits m / modeBits (nativeMode t)

/-- A block row's data bytes (R138). -/
def rowBytes (t : TypeRec) (width parity m : Nat) : Nat := (width - parity) * blockBytes t m

/-- The stripe templates of a die set with a width and a parity (R139). -/
def tmplsOf (p : Pat) (set width parity : Nat) : List StripeTmpl :=
  match p.stripe with
  | none => []
  | some s => s.tmpls.filter (fun t => t.set == set && t.width == width && t.parity == parity)

def classTmpls (p : Pat) (c : ZoneClass) : List StripeTmpl := tmplsOf p c.set c.width c.parity

/-- The geometry type of a template's first die. -/
def tmplType? (p : Pat) (t : StripeTmpl) : Option TypeRec := dieType? p (t.dies.getD 0 0xFFFF)

/-- A class's geometry type: that of its first template. -/
def classType? (p : Pat) (c : ZoneClass) : Option TypeRec :=
  match classTmpls p c with
  | [] => none
  | t :: _ => tmplType? p t

def classRowBytes (p : Pat) (c : ZoneClass) : Nat :=
  match classType? p c with
  | none => 0
  | some t => rowBytes t c.width c.parity c.mode

def zoneBytes (c : ZoneClass) : Nat := 2 ^ c.sizeLog2 * 2 ^ 20

/-- R of R139: block rows per zone. -/
def zoneRows (p : Pat) (c : ZoneClass) : Nat :=
  if classRowBytes p c = 0 then 0 else zoneBytes c / classRowBytes p c

/-- Zone capacity before any cut, and zone size, in LBAs (R139). -/
def zoneCapLbas (p : Pat) (c : ZoneClass) : Nat := zoneRows p c * classRowBytes p c / 4096
def zoneSizeLbas (c : ZoneClass) : Nat := zoneBytes c / 4096

/-- Spare blocks of a plane with `good` good blocks: 2.5 %, at least 8 (Table 7-1); rounded up (DEDUCED, log 12). -/
def spareOf (good : Nat) : Nat := max 8 (ceilDiv (good * 25) 1000)

/-- A die's share of the last-landing reserve: 0.1 % of its blocks, rounded up to a whole block per die (Table 7-1). -/
def lastLandingOf (blocks : Nat) : Nat := ceilDiv blocks 1000

/-- A channel's 16 system blocks lie on its lowest-numbered dies (Table 7-1): dealt one at a time from the lowest, again from the
lowest when there are fewer than 16 dies (DEDUCED, log 12). -/
def systemBlocksOf (p : Pat) (d : Nat) : Nat :=
  let l := (List.range 32).filter (fun i => dieExists p (d - d % 32 + i))
  ceilDiv (16 - (l.filter (fun i => decide (i < d % 32))).length) l.length

/-- Usable blocks of a die at validation: every block good (R476). -/
def dieUsableAtValidation (p : Pat) (d : Nat) : Nat :=
  match dieType? p d with
  | none => 0
  | some t => t.blksPlane - spareOf t.blksPlane - 4 - lastLandingOf t.blksPlane - systemBlocksOf p d

/-- Usable rows of a template: the lowest usable count over its dies (R476). -/
def tmplUsable (f : Nat → Nat) (t : StripeTmpl) : Nat := minNat (t.dies.map f)

/-- Zones a class would hold alone (R52): a zone's rows lie in one template (Table 5-2). -/
def classZones (p : Pat) (f : Nat → Nat) (c : ZoneClass) : Nat :=
  let r := zoneRows p c
  if r = 0 then 0 else sumNat ((classTmpls p c).map (fun t => tmplUsable f t / r))

def patClasses (p : Pat) : List ZoneClass := p.classes.getD []

/-- The zone count of R52: the largest count of each die set's classes, summed. -/
def zonesNeeded (p : Pat) : Nat :=
  sumNat ((List.range 64).map (fun s =>
    maxNat (((patClasses p).filter (fun c => c.set == s)).map (classZones p (dieUsableAtValidation p)))))

/-- Populated channels: four per populated bay (R171). -/
def populatedChannels (p : Pat) : Nat :=
  match p.media with
  | none => 0
  | some m => 4 * popBits 16 m.bayMask

/-- Buffer DRAM data capacity in MiB: 31/32 of what is installed (R34). -/
def dramDataMib (p : Pat) : Nat :=
  match p.dram with
  | none => 0
  | some d => popBits 8 d.mask * d.capGib * 1024 * 31 / 32

/-- The shares taken before the remainder of R296, in MiB. -/
def mapMib (p : Pat) : Nat := match p.ns with | none => 0 | some n => n.convGib * 2
def wbufMib (p : Pat) : Nat := max 1024 (8192 * populatedChannels p / 64)
def reservesMib (p : Pat) : Nat := 1024 + mapMib p + wbufMib p

/-- The remainder of R296, in MiB. -/
def remainMib (p : Pat) : Nat := dramDataMib p - reservesMib p

/-! Cross rules (Table 2-9): checks in the table's order, each with the panel and the field at fault when it fails. -/

/-- A check of a panel: its type and instance, the offset of the field at fault (0xFFFF where no single field is concerned), and
whether it holds. -/
structure CrossCheck where
  type : Nat := 0
  inst : Nat := 0
  off : Nat := 0xFFFF
  ok : Bool := true
  deriving DecidableEq, Repr, Inhabited

/-- The payload of a panel of an image. -/
def payloadOf (fs : List Frame) (type inst : Nat) : List Byte :=
  ((fs.find? (fun f => f.type == type && f.inst == inst)).map (·.payload)).getD []

/-- For each element of a list, whether it is the first of its value. -/
def firstOf (l : List Nat) : List Bool := (List.range l.length).map (fun i => !(l.take i).contains (l.getD i 0))

/-- DEDUCED, log 94. -/
def present (p : Pat) (isl : Nat) : Bool := (p.isl.getD isl {}).present

/-- FLAGS of an island's record in ISLAND_PLAN. -/
def islFlagsAt (i : Nat) : Nat := 8 + 24 * i + 1

def checkMandatory (p : Pat) : List CrossCheck :=
  [0, 1, 2, 3, 8].map (fun i => { type := 1, off := islFlagsAt i, ok := present p i })
  ++ [{ type := 1, ok := (List.range 4).any (fun k => present p (islUCM k)) },
      { type := 1, off := islFlagsAt 0, ok := !(p.isl.getD 0 {}).mayOff }]

def checkPoints (p : Pat) : List CrossCheck :=
  (List.range 72).flatMap (fun i =>
    let r := p.isl.getD i {}
    if r.present then
      (List.range r.points.length).flatMap (fun k =>
        let q := r.points.getD k (0, 0)
        [{ type := 1, off := 8 + 24 * i + 4 + 4 * k, ok := decide (q.1 ≤ islNominalMhz i) },
         { type := 1, off := 8 + 24 * i + 6 + 4 * k, ok := decide (r.vmin ≤ q.2) && decide (q.2 ≤ r.vmax) }])
    else [])

def stageIslandPresent (p : Pat) (w : Nat) : Bool :=
  let k := stageKind w
  if k = kCompress || k = kDecompress || k = kIndex then (List.range 4).any (fun j => present p (islENG j))
  else if k = kWeave then present p (islWVF (stageParam w / 128))
  else if k = kUser then (List.range 32).any (fun j => present p (islUCC j))
  else true

/-- A test of every stage word of SEAM_TABLE. -/
def checkStages (p : Pat) (q : Nat → Bool) : List CrossCheck :=
  let rs := p.seam.getD []
  (List.range rs.length).flatMap (fun i =>
    let r := rs.getD i {}
    (List.range r.stages.length).map (fun k => { type := 0x0A, off := 4 + 20 * i + 4 + 2 * k, ok := q (r.stages.getD k 0) }))

/-- Media is present when BAY_MASK is nonzero (DESIGN CHOICE, log 168). -/
def checkReferenced (p : Pat) : List CrossCheck :=
  let mask := match p.media with | none => 0 | some m => m.bayMask
  let dmask := match p.dram with | none => 0 | some d => d.mask
  (List.range 16).map (fun b => { type := 5, off := 0, ok := !bitAt mask b || present p (islMCL b) })
  ++ (List.range 8).map (fun j => { type := 4, off := 0, ok := present p (islDMI j) == bitAt dmask j })
  ++ [{ type := 3, off := 2, ok := present p (islUCM p.host.trickleMod) }]
  ++ checkStages p (stageIslandPresent p)
  ++ [{ type := 1, off := islFlagsAt islTRN, ok := mask == 0 || present p islTRN }]

def checkMediaDram (p : Pat) : List CrossCheck :=
  [{ type := 4, ok := !((List.range 16).any (fun b => present p (islMCL b))) || p.dram.isSome }]

def dieBytes (t : TypeRec) : Nat := t.pageB * t.pagesBlk * t.blksPlane * t.planes

/-- Where a stripe template's record lies in STRIPE_MAP. -/
def tmplAt (fs : List Frame) (i : Nat) : Nat :=
  let b := payloadOf fs 6 0
  (tmplStarts b (u16 b 2) (8 + 260 * u8 b 0)).getD i 0

def checkGeometry (fs : List Frame) (p : Pat) : List CrossCheck :=
  (match p.stripe with
   | none => []
   | some s =>
     (List.range s.sets.length).map (fun i =>
       { type := 6, off := 12 + 260 * i,
         ok := (List.range 2048).all (fun d => !bitAt (s.sets.getD i {}).dies d || dieExists p d) })
     ++ (List.range s.tmpls.length).flatMap (fun i =>
       let l := (s.tmpls.getD i {}).dies
       (List.range l.length).map (fun k => { type := 6, off := tmplAt fs i + 8 + 2 * k, ok := dieExists p (l.getD k 0) })))
  ++ (match p.media with | none => [] | some m => m.types.map (fun t => { type := 5, ok := decide (dieBytes t ≤ 512 * 2 ^ 30) }))

def checkStripes (fs : List Frame) (p : Pat) : List CrossCheck :=
  match p.stripe with
  | none => []
  | some s =>
    let ids := firstOf (s.tmpls.map (·.id))
    let sets := firstOf (s.sets.map (·.set))
    (List.range s.sets.length).map (fun i => { type := 6, off := 8 + 260 * i, ok := sets.getD i true })
    ++ (List.range s.tmpls.length).map (fun i => { type := 6, off := tmplAt fs i, ok := ids.getD i true })
    ++ (List.range s.tmpls.length).flatMap (fun i =>
      let t := s.tmpls.getD i {}
      let before := (s.tmpls.take i).flatMap (·.dies)
      (List.range t.dies.length).map (fun k =>
        { type := 6, off := tmplAt fs i + 8 + 2 * k, ok := !(before ++ t.dies.take k).contains (t.dies.getD k 0) }))
    ++ (List.range s.tmpls.length).flatMap (fun i =>
      let t := s.tmpls.getD i {}
      { type := 6, off := tmplAt fs i + 4, ok := s.sets.any (fun q => q.set == t.set) } ::
      (List.range t.dies.length).map (fun k =>
        { type := 6, off := tmplAt fs i + 8 + 2 * k, ok := s.sets.any (fun q => q.set == t.set && bitAt q.dies (t.dies.getD k 0)) }))
    ++ (List.range s.tmpls.length).map (fun i =>
      { type := 6, off := tmplAt fs i + 2, ok := decide ((s.tmpls.getD i {}).parity < (s.tmpls.getD i {}).width) })

def checkBay (p : Pat) : List CrossCheck :=
  match p.stripe with
  | none => []
  | some s =>
    let mask := match p.media with | none => 0 | some m => m.bayMask
    [{ type := 6, ok := (s.singleBay && popBits 16 mask == 1)
        || s.tmpls.all (fun t => (List.range 16).all (fun b => decide ((t.dies.filter (fun d => dieBay d == b)).length ≤ t.parity))) }]

/-- Zone classes; the mode must be one of the type's, and a row must fit its zone (R139). A geometry of 0 bytes is checked at
discovery (R47). -/
def checkClasses (p : Pat) : List CrossCheck :=
  let cs := patClasses p
  let once := firstOf (cs.map (·.cls))
  (List.range cs.length).map (fun i => { type := 7, off := 4 + 16 * i, ok := once.getD i true })
  ++ (List.range cs.length).map (fun i => { type := 7, ok := !(classTmpls p (cs.getD i {})).isEmpty })
  ++ (List.range cs.length).map (fun i =>
    { type := 7, off := 4 + 16 * i + 1,
      ok := (classTmpls p (cs.getD i {})).all (fun t => match tmplType? p t with | none => false | some ty => bitAt ty.modes (cs.getD i {}).mode) })
  ++ (List.range cs.length).map (fun i =>
    { type := 7, off := 4 + 16 * i + 6,
      ok := !(cs.getD i {}).isolated || (cs.filter (fun d => d.set == (cs.getD i {}).set)).length == 1 })
  ++ (List.range cs.length).map (fun i =>
    { type := 7, off := 4 + 16 * i + 2,
      ok := classRowBytes p (cs.getD i {}) == 0 || decide (classRowBytes p (cs.getD i {}) ≤ zoneBytes (cs.getD i {})) })

def checkTemplates (p : Pat) : List CrossCheck :=
  let once := firstOf (p.slices.map (·.id))
  (List.range p.slices.length).map (fun i => { type := 9, off := 4 + 64 * i, ok := once.getD i true })
  ++ (List.range p.slices.length).map (fun i =>
    let t := p.slices.getD i {}
    { type := 9, off := 4 + 64 * i + 22,
      ok := t.set == 0xFF || (match p.stripe with | none => false | some s => s.sets.any (fun q => q.set == t.set)) })

def weaveDir? (p : Pat) (half weave : Nat) : Option WeaveDir :=
  match (if half = 0 then p.weave0 else p.weave1) with
  | none => none
  | some w => w.weaves.find? (fun d => d.weave == weave)

/-- Seams: unique routes, the structure of R49, and the weaves that stages name. -/
def checkSeams (p : Pat) : List CrossCheck :=
  let rs := p.seam.getD []
  let once := firstOf (rs.map (·.route))
  (List.range rs.length).map (fun i => { type := 0x0A, off := 4 + 20 * i, ok := once.getD i true })
  ++ (List.range rs.length).flatMap (fun i =>
    let r := rs.getD i {}
    let last := stageKind (r.stages.getLastD 0)
    [{ type := 0x0A, off := 4 + 20 * i + 4, ok := stageKind (r.stages.headD 0) == kHead },
     { type := 0x0A, off := 4 + 20 * i + 4 + 2 * (r.stages.length - 1), ok := last == kHost || last == kCmem },
     { type := 0x0A, ok := r.route != 0 || r.stages == [1, 8] }])
  ++ checkStages p (fun w => stageKind w != kWeave || (weaveDir? p (stageParam w / 128) (stageParam w % 128)).isSome)

/-- Weaves of one half: unique numbers, ranges inside the half that do not overlap, and records inside a declared range. -/
def checkWeaves (fs : List Frame) (half : Nat) : Option WeavePanel → List CrossCheck
  | none => []
  | some w =>
    let b := payloadOf fs 0x0B half
    let nw := w.weaves.length
    let c0 := 8 + 8 * nw
    let once := firstOf (w.weaves.map (·.weave))
    let inside (c : Nat) : Bool := w.weaves.any (fun d => decide (d.first ≤ c) && decide (c < d.first + d.cells))
    (List.range nw).map (fun i => { type := 0x0B, inst := half, off := 8 + 8 * i, ok := once.getD i true })
    ++ (List.range nw).map (fun i =>
      { type := 0x0B, inst := half,
        ok := decide ((w.weaves.getD i {}).first + (w.weaves.getD i {}).cells ≤ 2048) && (List.range i).all (fun j =>
          let x := w.weaves.getD i {}
          let y := w.weaves.getD j {}
          decide (x.first + x.cells ≤ y.first) || decide (y.first + y.cells ≤ x.first)) })
    ++ (List.range w.cells.length).map (fun i => { type := 0x0B, inst := half, off := c0 + 20 * i, ok := inside (w.cells.getD i {}).cell })
    ++ (List.range w.mems.length).map (fun i =>
      { type := 0x0B, inst := half,
        off := (memStarts b (u16 b 4) (c0 + 20 * w.cells.length)).getD i 0,
        ok := inside (w.mems.getD i {}).cell })

/-- Table 2-6. -/
def checkThermal (p : Pat) : List CrossCheck :=
  let t := p.thermal
  let inR := fun (lo hi v : Int) => decide (lo ≤ v) && decide (v ≤ hi)
  [(0, inR 100 115 t.warnSet), (2, inR 110 122 t.thrSet && decide (t.warnSet < t.thrSet)),
   (4, inR 128 135 t.shut && decide (t.thrSet + 5 < t.shut)), (5, inR (-50) (-20) t.cwarnSet),
   (7, inR (-55) (-45) t.choldSet && decide (t.choldSet < t.cwarnSet)), (1, inR 2 10 (t.warnSet - t.warnClr)),
   (3, inR 2 10 (t.thrSet - t.thrClr)), (6, inR 2 10 (t.cwarnClr - t.cwarnSet)), (8, inR 2 10 (t.choldClr - t.choldSet))].map
    (fun e => { type := 0x0D, off := e.1, ok := e.2 })

/-- COUNTER_PRESETS and FAULT_POLICY name each counter and each source once. -/
def checkOnce (type : Nat) (l : List Nat) : List CrossCheck :=
  let once := firstOf l
  (List.range l.length).map (fun i => { type := type, off := 4 + 16 * i, ok := once.getD i true })

def checkPower (p : Pat) : List CrossCheck := [{ type := 0x0E, ok := p.power.holdupUs == 0 || p.power.pfailWired }]

/-- The cross rules in the order of Table 2-9 (DEDUCED, log 22). -/
def crossChecks (fs : List Frame) (p : Pat) : List CrossCheck :=
  checkMandatory p ++ checkPoints p ++ checkReferenced p ++ checkMediaDram p ++ checkGeometry fs p ++ checkStripes fs p ++ checkBay p
  ++ checkClasses p ++ checkTemplates p ++ checkSeams p ++ checkWeaves fs 0 p.weave0 ++ checkWeaves fs 1 p.weave1 ++ checkThermal p
  ++ checkOnce 0x0F ((p.counters.getD []).map (·.counter)) ++ checkOnce 0x0C (p.faults.map (·.source)) ++ checkPower p

/-- The rules that media discovery checks again (R47). -/
def ruleGeometry (p : Pat) : Bool := (checkGeometry [] p).all (·.ok)
def ruleStripes (p : Pat) : Bool := (checkStripes [] p).all (·.ok)
def ruleClasses (p : Pat) : Bool := (checkClasses p).all (·.ok)
def ruleTemplates (p : Pat) : Bool := (checkTemplates p).all (·.ok)

/-- CAPACITY (R52): the type of the panel that asks for more than exists. With no DRAM_PLAN there is none: a conventional map then needs more than exists (DEDUCED, log 168). -/
def capacityBad (p : Pat) : Option Nat :=
  if 1048576 < zonesNeeded p then some 0x07
  else if p.dram.isSome && dramDataMib p < reservesMib p + 2048 then some 0x08
  else if p.dram.isNone && 0 < mapMib p then some 0x08
  else none

/-! Validation (Table 2-8). -/

/-- The required panels of a full image (Table 2-4). -/
def requiredMissing (p : Pat) (types : List Nat) : Bool :=
  !([0x01, 0x02, 0x03, 0x09, 0x0C, 0x0D, 0x0E, 0x10, 0x11].all types.contains)
  || ((List.range 8).any (fun j => present p (islDMI j)) && !types.contains 0x04)
  || ((List.range 16).any (fun b => present p (islMCL b)) && ! [0x05, 0x06, 0x07, 0x08].all types.contains)

/-- The offset in frame `i`'s header of the field that breaks the order and instance rules (R44): ascending TYPE, ascending INSTANCE
within WEAVE_PANEL, INSTANCE 0 elsewhere; or that gives a LENGTH that is no multiple of 4 (Table 2-2). -/
def frameRule (fs : List Frame) (i : Nat) : Option Nat :=
  let f := fs.getD i {}
  let g := fs.getD (i - 1) {}
  if f.payload.length % 4 ≠ 0 then some 4
  else if f.inst ≠ 0 ∧ ¬(f.type = 0x0B ∧ f.inst = 1) then some 2
  else if i ≠ 0 ∧ f.type < g.type then some 0
  else if i ≠ 0 ∧ f.type = g.type ∧ ¬(f.type = 0x0B ∧ g.inst < f.inst) then some (if f.type = 0x0B then 2 else 0)
  else none

/-- The first frame that breaks them, and where. -/
def orderBad (fs : List Frame) : Option (Nat × Nat) :=
  ((List.range fs.length).find? (fun i => (frameRule fs i).isSome)).map (fun i => (i, (frameRule fs i).getD 0))

/-- The ordinal of the first frame that passes a test. -/
def frameIdx (fs : List Frame) (q : Frame → Bool) : Option Nat := fs.findIdx? q

/-- The first nonzero reserved byte of a frame header (bytes +0x0A to +0x0F). -/
def resvBad (fs : List Frame) : Option (Nat × Nat) :=
  (frameIdx fs (fun f => f.resv != 0)).map (fun i =>
    (i, 10 + (((List.range 6).find? (fun k => (fs.getD i {}).resv / 256 ^ k % 256 != 0)).getD 0)))

/-- The first reserved header byte or FLAGS bit that is not 0 (0x0E): FLAGS bits 7:1 at 0x29, then 0x2A to 0x3B. -/
def headerReservedBad (img : List Byte) : Option Nat :=
  if u8 img 0x29 / 2 ≠ 0 then some 0x29 else firstNonzero img 0x2A 18

/-- The first payload out of range: the ordinal and the offset. -/
def rangeBad : List Frame → Nat → Option (Nat × Nat)
  | [], _ => none
  | f :: t, i =>
    match firstBad (panelChecks f.type f.payload) with
    | some o => some (i, o)
    | none => rangeBad t (i + 1)

/-- What an image is validated against (R50, R51): the Pattern keys of the key store, the running firmware, whether it is
given to Panel Reload, the active structure and its sequence, and the template IDs that slices are bound to. -/
structure ValCtx where
  custKeys : Tbl (List Byte) := []
  fwVer : Nat := 0
  reload : Bool := false
  active : Pat := {}
  activeSeq : Nat := 0
  boundTmpls : List Nat := []

/-- The panel ordinal of a type. -/
def ordinalOf (fs : List Frame) (type : Nat) : Nat := (frameIdx fs (fun f => f.type == type)).getD 0xFF

/-- An error that concerns a panel type but no single field. -/
def typeErr (fs : List Frame) (code type : Nat) : PatErr := { code := code, panel := ordinalOf fs type }

/-- A cross check that fails: the ordinal of its panel and the offset of its field; neither when the image does not hold the
panel. -/
def crossErr (fs : List Frame) (x : CrossCheck) : PatErr :=
  match frameIdx fs (fun f => f.type == x.type && f.inst == x.inst) with
  | some i => { code := 0x0F, panel := i, offset := min x.off 0xFFFF }
  | none => { code := 0x0F }

/-- FRAMING: the first of its conditions, in the order Table 2-8 names them. -/
def framingBad (img : List Byte) (fs : List Frame) (stop : Nat) : Option PatErr :=
  let n := u16 img 0x0E
  let lim := imgTotal img - 104
  if !(between 1 64 n) then some { code := 0x0A, offset := 0x0E }
  else if stop ≠ lim then
    some (if stop + 16 ≤ lim then { code := 0x0A, panel := fs.length, offset := 4 } else { code := 0x0A })
  else if fs.length ≠ n then some { code := 0x0A, offset := 0x0E }
  else match orderBad fs with
  | some (i, o) => some { code := 0x0A, panel := i, offset := o }
  | none => (resvBad fs).map (fun e => { code := 0x0A, panel := e.1, offset := e.2 })

/-- MISSING: a required panel absent; PARTIAL where it must not be set, or clear where it must; a cold panel in a reload. -/
def missingBad (reload : Bool) (img : List Byte) (fs : List Frame) (pat : Pat) : Option PatErr :=
  if reload then
    (if !imgPartial img then some { code := 0x0C, offset := 0x29 }
     else match frameIdx fs (fun f => !isWarm f.type) with
     | some i => some { code := 0x0C, panel := i }
     | none => none)
  else if requiredMissing pat (fs.map (·.type)) then some { code := 0x0C }
  else if imgPartial img then some { code := 0x0C, offset := 0x29 }
  else none

/-- The checks 0x09 to 0x10, after the header's. -/
def validateBody (v : ValCtx) (img : List Byte) : PatErr :=
  let fr := imgFrames img
  let fs := fr.1
  let pat := applyFrames (if v.reload then v.active else {}) fs
  match frameIdx fs (fun f => !f.crcOk) with
  | some i => { code := 0x09, panel := i }
  | none =>
  match framingBad img fs fr.2 with
  | some e => e
  | none =>
  match frameIdx fs (fun f => !between 0x01 0x11 f.type) with
  | some i => { code := 0x0B, panel := i, offset := 0 }
  | none =>
  match missingBad v.reload img fs pat with
  | some e => e
  | none =>
  match frameIdx fs (fun f => f.pver != 1) with
  | some i => { code := 0x0D, panel := i, offset := 8 }
  | none =>
  match headerReservedBad img with
  | some o => { code := 0x0E, offset := o }
  | none =>
  match rangeBad fs 0 with
  | some (i, o) => { code := 0x0E, panel := i, offset := min o 0xFFFF }
  | none =>
  match (crossChecks fs pat).find? (fun x => !x.ok) with
  | some x => crossErr fs x
  | none =>
  if v.reload && !v.boundTmpls.all (fun t => pat.slices.any (fun r => r.id == t)) then typeErr fs 0x0F 0x09
  else match capacityBad pat with
  | some t => typeErr fs 0x10 t
  | none => { code := 0 }

/-- The public key that SIGNER names: the Ovseaz key, or an enrolled customer key (R42). -/
def signerKey (v : ValCtx) (img : List Byte) : Option (List Byte) :=
  let n := u8 img 0x28
  if n = 0 then some Config.patternKey else if n ≤ 4 then tget v.custKeys (11 + n) else none

/-- Does the signature verify (R43)? -/
def signatureOk (v : ValCtx) (img : List Byte) : Bool :=
  match signerKey v img with
  | none => false
  | some k =>
    let n := imgTotal img
    ecdsaOk k (slice img 0 (n - 96)) (slice img (n - 96) 96)

/-- Table 2-8, in its order. A TOTAL_LEN below 168 has no room for header, one frame and trailer: it reports LENGTH at offset 8
(DESIGN CHOICE, log 168). -/
def validate (v : ValCtx) (img : List Byte) : PatErr :=
  if !imgMagic img then { code := 0x01, offset := 0 }
  else if u16 img 4 ≠ 1 then { code := 0x02, offset := 4 }
  else if u16 img 6 ≠ 64 then { code := 0x02, offset := 6 }
  else if crc32c (slice img 0 0x3C) ≠ u32 img 0x3C then { code := 0x03, offset := 0x3C }
  else if imgTotal img > 4 * 2 ^ 20 || imgTotal img % 4 ≠ 0 || imgTotal img < 168 then { code := 0x04, offset := 8 }
  else if u32 img (imgTotal img - 104) ≠ 0x5254564F || u32 img (imgTotal img - 100) ≠ imgTotal img - 96 then { code := 0x04 }
  else if !signatureOk v img then { code := 0x05, offset := if (signerKey v img).isNone then 0x28 else 0xFFFF }
  else if u16 img 0x0C ≠ 0xFFFF && u16 img 0x0C ≠ Config.fuseStepping then { code := 0x06, offset := 0x0C }
  else if v.fwVer < u32 img 0x20 then { code := 0x07, offset := 0x20 }
  else if imgPartial img && imgSeq img < v.activeSeq then { code := 0x08, offset := 0x24 }
  else validateBody v img

/-- PAT_SLOT's content after a validation (R65): an erased slot reads 0xFF. -/
structure PatSlot where
  err : Nat := 0xFF
  panel : Nat := 0xFF
  offset : Nat := 0xFFFF
  seq : Nat := 0
  signer : Nat := 0
  deriving DecidableEq, Repr, Inhabited

def slotResult (v : ValCtx) (img : List Byte) (erased : Bool) : PatSlot :=
  if erased then {}
  else
    let e := validate v img
    { err := e.code, panel := e.panel, offset := e.offset, seq := if imgMagic img then imgSeq img else 0, signer := u8 img 0x28 }

end Sys2Proof.Machine
end

