-- ==== Sys2Proof/Machine/Status.lean ====
section
/-! DEFINITION. Command statuses: the NVMe statuses the spec names, the vendor statuses of Table 4-14, and the DNR value
of each (R475, Table 4-16). -/

namespace Sys2Proof.Machine

/-- A status by the name the spec uses. -/
inductive St where
  | success
  | invalidOpcode
  | invalidField
  | invalidNs
  | invalidLogPage
  | invalidQid
  | invalidQueueSize
  | invalidCq
  | invalidQueueDeletion
  | invalidVector
  | invalidFwSlot
  | invalidFwImage
  | fwProhibited
  | fwNeedsReset
  | fwMaxTime
  | nsUnavailable
  | nsCapacity
  | ctrlListInvalid
  | nsAttached
  | nsNotAttached
  | invalidFormat
  | featureNotSaveable
  | thinProv
  | invalidPhList
  | featureNotChangeable
  | featureNotNsSpecific
  | lbaRange
  | compareFail
  | guardErr
  | appTagErr
  | refTagErr
  | writeRo
  | prpInvalid
  | sglInvalid
  | sglCount
  | sglDataLength
  | sglMetaLength
  | sglType
  | sglOffset
  | zoneInvalidWrite
  | zoneBoundary
  | zoneFull
  | zoneRo
  | zoneOffline
  | zoneTransition
  | tooManyActive
  | tooManyOpen
  | nsNotReady
  | dataXfer
  | internalErr
  | unrecoveredRead
  | abortRequested
  | sqDeleted
  | abortLimit
  | asyncLimit
  | cmdSequence
  | accessDenied
  | sanitizeFailed
  | orderedPred       -- 80h
  | sliceResetting    -- 82h
  | sessionRequired   -- 83h
  | outputLimit       -- 84h
  | routeNotBound     -- 85h
  | deferredWrite     -- 86h
  | fenced            -- 87h
  | panelBusy         -- 88h
  | programFault      -- 89h
  | poolExhausted     -- 8Ah
  | quotaExceeded     -- 8Bh
  | updateLocked      -- 8Ch
  | sliceLimit        -- 8Dh
  | sessionLimit      -- 8Eh
  deriving DecidableEq, Repr, Inhabited

/-- DNR of a status where no other rule gives one (Tables 4-14 and 4-16); a status the tables do not list takes 1. -/
def St.dnr : St → Bool
  | .success => false
  | .tooManyActive => false
  | .tooManyOpen => false
  | .nsNotReady => false
  | .dataXfer => false
  | .internalErr => false
  | .unrecoveredRead => false
  | .abortRequested => false
  | .abortLimit => false
  | .cmdSequence => false
  | .fwNeedsReset => false
  | .fwMaxTime => false
  | .orderedPred => false
  | .sliceResetting => false
  | .routeNotBound => false
  | .fenced => false
  | .panelBusy => false
  | .poolExhausted => false
  | .updateLocked => false
  | .sessionLimit => false
  | _ => true

/-- A status with its DNR bit. -/
structure StatusVal where
  st : St := .success
  dnr : Bool := false
  deriving DecidableEq, Repr, Inhabited

/-- A status with the DNR the tables give it. -/
def stv (s : St) : StatusVal := { st := s, dnr := s.dnr }

/-- The vendor code of a status of type 7h (Table 4-14). -/
def St.vendorCode : St → Option Nat
  | .orderedPred => some 0x80
  | .sliceResetting => some 0x82
  | .sessionRequired => some 0x83
  | .outputLimit => some 0x84
  | .routeNotBound => some 0x85
  | .deferredWrite => some 0x86
  | .fenced => some 0x87
  | .panelBusy => some 0x88
  | .programFault => some 0x89
  | .poolExhausted => some 0x8A
  | .quotaExceeded => some 0x8B
  | .updateLocked => some 0x8C
  | .sliceLimit => some 0x8D
  | .sessionLimit => some 0x8E
  | _ => none

/-- Status code type and status code, SCT × 256 + SC: Table 4-14's own, else as the NVMe specifications number them (PRESUMED, log 9). -/
def St.code (x : St) : Nat :=
  match x.vendorCode with
  | some v => 0x700 + v
  | none =>
    match x with
    | .success => 0x000
    | .invalidOpcode => 0x001
    | .invalidField => 0x002
    | .dataXfer => 0x004
    | .internalErr => 0x006
    | .abortRequested => 0x007
    | .sqDeleted => 0x008
    | .invalidNs => 0x00B
    | .cmdSequence => 0x00C
    | .sglInvalid => 0x00D
    | .sglCount => 0x00E
    | .sglDataLength => 0x00F
    | .sglMetaLength => 0x010
    | .sglType => 0x011
    | .sglOffset => 0x016
    | .prpInvalid => 0x013
    | .sanitizeFailed => 0x01C
    | .lbaRange => 0x080
    | .nsNotReady => 0x082
    | .invalidCq => 0x100
    | .invalidQid => 0x101
    | .invalidQueueSize => 0x102
    | .abortLimit => 0x103
    | .asyncLimit => 0x105
    | .invalidFwSlot => 0x106
    | .invalidFwImage => 0x107
    | .invalidVector => 0x108
    | .invalidLogPage => 0x109
    | .invalidFormat => 0x10A
    | .fwNeedsReset => 0x111
    | .invalidQueueDeletion => 0x10C
    | .featureNotSaveable => 0x10D
    | .featureNotChangeable => 0x10E
    | .featureNotNsSpecific => 0x10F
    | .fwMaxTime => 0x112
    | .fwProhibited => 0x113
    | .nsCapacity => 0x115
    | .nsUnavailable => 0x116
    | .thinProv => 0x11B
    | .invalidPhList => 0x12A
    | .nsAttached => 0x118
    | .nsNotAttached => 0x11A
    | .ctrlListInvalid => 0x11C
    | .writeRo => 0x182
    | .zoneBoundary => 0x1B8
    | .zoneFull => 0x1B9
    | .zoneRo => 0x1BA
    | .zoneOffline => 0x1BB
    | .zoneInvalidWrite => 0x1BC
    | .tooManyActive => 0x1BD
    | .tooManyOpen => 0x1BE
    | .zoneTransition => 0x1BF
    | .unrecoveredRead => 0x281
    | .guardErr => 0x282
    | .appTagErr => 0x283
    | .refTagErr => 0x284
    | .compareFail => 0x285
    | .accessDenied => 0x286
    | _ => 0x006

/-- The status field of a completion, bits 15:1 of DW3: SC, SCT, DNR. -/
def StatusVal.field (v : StatusVal) : Nat := v.st.code + (if v.dnr then 2 ^ 14 else 0)

/-- The outcome of a command: its status and completion dwords. -/
structure Outc where
  sv : StatusVal := {}
  dw0 : Nat := 0
  dw1 : Nat := 0
  deriving DecidableEq, Repr, Inhabited

def okOut (dw0 : Nat) : Outc := { dw0 := dw0 }
def errOut (s : St) : Outc := { sv := stv s }

end Sys2Proof.Machine
end

