-- ==== Sys2Proof/Machine/UnitsHost.lean ====
section
/-! DEFINITION. State records of the islands, the host attachment, the command pipeline, the namespaces and the fault and
power blocks (01, 03, 04, 05, 12, 13). Each field holds one piece of state the spec names; INVENTORY.md gives the rule. -/

namespace Sys2Proof.Machine

/-- A WS action's state under R8. -/
inductive Act where
  | idle
  | running
  | done
  | refused
  deriving DecidableEq, Repr, Inhabited

/-- An _ACT field: its state, whether a write met it while running (R8: the action then ends as refused), and, of a refused
write to a register whose WS fields are the setting in force, the value that was written, which the fields read (Table 0-4). -/
structure WsAct where
  act : Act := .idle
  late : Bool := false
  shown : Option Nat := none
  deriving DecidableEq, Repr, Inhabited

/-- ISL_STATE.DSTATE (R40, R378). -/
inductive DState where
  | on
  | retention
  | off
  | changing
  deriving DecidableEq, Repr, Inhabited

/-- ISL_STATE.AVAIL (Table 1-1). -/
inductive Avail where
  | available
  | waking
  | resetting
  | isolated
  deriving DecidableEq, Repr, Inhabited

/-- A change of a domain's state in progress (R378): an entry, or a wake from retention or off. -/
inductive DomChange where
  | entry (dest : DState)
  | wake (src : DState) (cause : Nat)
  deriving DecidableEq, Repr, Inhabited

/-- One island: crossings, operating point and budgets (01), its power domain with the time `stateAt` it came to its present state, and
pad holds (13), its reset history (R362). -/
structure Isl where
  dstate : DState := .off
  avail : Avail := .isolated
  point : Nat := 0
  capBudget : Nat := 100
  thermBudget : Nat := 100
  budgetTaken : Nat := 100
  xingFail : Nat := 0
  lockLosses : Nat := 0
  held : List Transfer := []
  actUs : Nat := 0
  floor : Nat := 0
  floorAct : WsAct := {}
  change : Option DomChange := none
  stateAt : Nat := 0
  lastWakeUs : Nat := 0
  wakeCause : Nat := 0
  wakes : Nat := 0
  padAuto : Bool := true
  padRelAct : WsAct := {}
  sleepHold : Bool := false
  safeHold : Bool := false
  removalHold : Bool := false
  resetTimes : List Nat := []
  isolatedUnits : List Nat := []
  filled : Bool := false
  deriving DecidableEq, Repr, Inhabited

/-- Route slot states (Table 1-4). -/
inductive RState where
  | free
  | binding
  | bound
  | draining
  deriving DecidableEq, Repr, Inhabited

/-- A route slot (R27, R28): its binding, its seats and its generation (R458). -/
structure RouteSlot where
  state : RState := .free
  dir : Bool := false
  jobOnly : Bool := false
  stages : List Nat := []
  seats : Nat := 0
  gen : Nat := 0
  pend : Bool := false
  deriving DecidableEq, Repr, Inhabited

/-- An interrupt message entry (Table 3-5); MASK resets to 1. -/
structure MsgEnt where
  addr : Nat := 0
  data : Nat := 0
  mask : Bool := true
  pend : Bool := false
  deriving DecidableEq, Repr, Inhabited

/-- HLK_BAR2_MAP[p][i] (R75). -/
structure Bar2Ent where
  en : Bool := false
  slice : Nat := 0
  handle : Nat := 0
  baseMib : Nat := 0
  lenMib : Nat := 0
  act : WsAct := {}
  deriving DecidableEq, Repr, Inhabited

/-- A doorbell write held on a port (R82, R83, R69). -/
structure HeldDb where
  slice : Nat := 0
  qid : Nat := 0
  isCq : Bool := false
  value : Nat := 0
  deriving DecidableEq, Repr, Inhabited

/-- HLK_LINK_STATE.LSTATE. -/
inductive LState where
  | down
  | training
  | up
  | trickle
  | retraining
  | detaching
  | detached
  deriving DecidableEq, Repr, Inhabited

/-- An interrupt write sent: the port, the slice, the vector (or entry) and the PASID it carries (R76). -/
structure Irq where
  port : Nat := 0
  slice : Nat := 0
  vector : Nat := 0
  pasid : Option Nat := none
  deriving DecidableEq, Repr, Inhabited

/-- A result record written toward host memory (R239), and the PASID the write carries. -/
structure HostResult where
  addr : Nat := 0
  bytes : List Byte := []
  pasid : Option Nat := none
  deriving DecidableEq, Repr, Inhabited

/-- HLK_TRICKLE_CTL (R82, R83); `cmd` is the last value written to CMD. -/
structure Trickle where
  cmd : Nat := 0
  act : WsAct := {}
  autoExit : Bool := true
  tstate : Nat := 0
  deriving DecidableEq, Repr, Inhabited

/-- What a command sends toward the host besides its completion: blocks, bytes, or a log or identify page given by its
length and its nonzero fields (offset, size, value); of a `part` the fields not listed are left open. -/
inductive OutData where
  | none
  | blocks (l : List Block)
  | bytes (l : List Byte)
  | page (len : Nat) (fields : List (Nat × Nat × Nat))
  | part (len : Nat) (fields : List (Nat × Nat × Nat))
  deriving DecidableEq, Repr, Inhabited

/-- Data written toward host memory for a context, and the PASID the writes carry (R76). -/
structure HostWrite where
  ctx : Nat := 0
  data : OutData := .none
  pasid : Option Nat := none
  deriving DecidableEq, Repr, Inhabited

/-- One port (03): its link, its PCIe function, and the TLPs that a hold keeps back. -/
structure Port where
  lstate : LState := .down
  gts : Nat := 0
  modsUp : Nat := 0
  lanes : Nat := 0
  eyes : Tbl Nat := []
  retrains : Nat := 0
  linkdowns : Nat := 0
  detachAct : WsAct := {}
  phase : Nat := 0
  flushSet : List Nat := []
  beatAct : WsAct := {}
  live : Bool := false
  leaseEnd : Nat := 0
  expiries : Nat := 0
  bar2 : Tbl Bar2Ent := []
  tlpHeld : Bool := false
  heldDb : List HeldDb := []
  heldIrqs : List Irq := []
  heldData : List HostWrite := []
  heldResults : List HostResult := []
  pasidEn : Bool := false
  atsEn : Bool := false
  msixEn : Bool := false
  msixMask : Bool := false
  pmState : Nat := 0
  aer : Nat := 0
  bar0 : Nat := 0
  bar2Base : Nat := 0
  mps : Nat := 0
  mrrs : Nat := 2
  msix : Tbl MsgEnt := []
  atc : List (Nat × Nat) := []
  deriving DecidableEq, Repr, Inhabited

/-- A range of a namespace, inclusive (R109). -/
structure Rng where
  ns : Nat := 0
  lo : Nat := 0
  hi : Nat := 0
  deriving DecidableEq, Repr, Inhabited

/-- One 4 KiB unit of a command's media work: where it lies, the generation of its entry at stage 6, and its result.
`loc` none: an unwritten unit (zeros). -/
structure CUnit where
  lba : Nat := 0
  loc : Option Nat := none
  genKey : Nat := 0
  gen : Nat := 0
  unc : Bool := false
  issued : Bool := false
  /-- it waits to be dispatched again after its die was lost (R113) -/
  again : Bool := false
  /-- the deadline it got when it first reached the die scheduler, in microseconds (R185) -/
  deadline : Option Nat := none
  /-- the frame its data landed in -/
  buf : Option Nat := none
  done : Bool := false
  fail : Option StatusVal := none
  data : Block := {}
  deriving DecidableEq, Repr, Inhabited

/-- A Zone Append's, Write's or job's reservation in a zone (R153): the zone table entry, the offset and the length. -/
structure Resv where
  ent : Nat := 0
  off : Nat := 0
  len : Nat := 0
  deriving DecidableEq, Repr, Inhabited

/-- A command context (R97, Table 4-15) with the working state of its command. `zgens` holds the generation recorded for each zone
table entry it works on, `void` the entries whose recorded generation a rollback has made stale (R155); `req` counts its speculative
requests, so that a result of an earlier one finds no match (R102). -/
structure Ctx where
  stage : Nat := 0
  spec : Bool := false
  rerun : Bool := false
  wait : Nat := 0
  gen : Nat := 0
  slice : Nat := 0
  port : Nat := 0
  sqid : Nat := 0
  dq : Nat := 0
  slot : Nat := 0
  cid : Nat := 0
  opc : Nat := 0
  admin : Bool := false
  fua : Bool := false
  ordered : Bool := false
  nsid : Nat := 0
  fseq : Nat := 0
  slba : Nat := 0
  nlb : Nat := 0
  route : Nat := 0
  squashes : Nat := 0
  tgen : Nat := 0
  sliceGen : Nat := 0
  tFetchNs : Nat := 0
  dep : Option Nat := none
  sqe : Sqe := {}
  bufs : List Nat := []
  seat : Bool := false
  outc : Option Outc := none
  committed : Bool := false
  out : OutData := .none
  units : List CUnit := []
  wdata : List Block := []
  received : Bool := false
  placed : List Nat := []
  lockW : Option Rng := none
  lockR : Option Rng := none
  ranges : List LbaRange := []
  resv : Option Resv := none
  noSpec : Bool := false
  genSquashes : Nat := 0
  req : Nat := 0
  zents : List Nat := []
  zgens : Tbl Nat := []
  void : List Nat := []
  zact : Nat := 0
  victim : Option Nat := none
  flushSet : List Nat := []
  killed : Bool := false
  decoded : Bool := false
  phids : List Nat := []
  deriving DecidableEq, Repr, Inhabited

/-- A device queue index (R136): the submission queue and the completion queue of one (slice, QID). -/
structure Queue where
  slice : Nat := 0
  qid : Nat := 0
  port : Nat := 0
  sqOn : Bool := false
  sqSize : Nat := 0
  sqBase : Nat := 0
  head : Nat := 0
  tail : Nat := 0
  cqid : Nat := 0
  sqErr : Bool := false
  deleting : Bool := false
  fetched : Nat := 0
  cqOn : Bool := false
  cqSize : Nat := 0
  cqBase : Nat := 0
  cqTail : Nat := 0
  cqHead : Nat := 0
  phase : Bool := true
  vector : Nat := 0
  ien : Bool := false
  posted : Nat := 0
  coal : Nat := 0
  deriving DecidableEq, Repr, Inhabited

/-- An ordered-queue sequencer (CMD_OQ_CFG, CMD_OQ_STATE). -/
structure Oq where
  en : Bool := false
  slice : Nat := 0
  sqid : Nat := 0
  cfgAct : WsAct := {}
  halted : Bool := false
  nextSlot : Nat := 0
  failedCid : Nat := 0
  halts : Nat := 0
  deriving DecidableEq, Repr, Inhabited

/-- An asynchronous event waiting for a request: its type, information and log page (R130). -/
structure Aen where
  typ : Nat := 0
  info : Nat := 0
  lid : Nat := 0
  deriving DecidableEq, Repr, Inhabited

/-- An Error Information log entry (R478). -/
structure ErrEnt where
  count : Nat := 0
  sqid : Nat := 0
  cid : Nat := 0xFFFF
  st : StatusVal := {}
  nsid : Nat := 0
  lba : Nat := 0
  deriving DecidableEq, Repr, Inhabited

/-- A controller (one per slice and port that the slice is live on): NVMe registers and features (R129, R132). -/
structure Ctrl where
  en : Bool := false
  crime : Bool := false
  cc : Nat := 0
  rdy : Bool := false
  cfs : Bool := false
  shst : Nat := 0
  aqa : Nat := 0
  asq : Nat := 0
  acq : Nat := 0
  resetting : Bool := false
  shutSet : List Nat := []
  aers : List Nat := []
  events : List Aen := []
  maskedTypes : List Nat := []
  errLog : List ErrEnt := []
  errCount : Nat := 0
  arb : Nat := 0
  nQueues : Option Nat := none
  coal : Nat := 0
  vecCfg : Tbl Nat := []
  atomicity : Nat := 0
  aec : Nat := 0xFFFFFFFF
  psReq : Nat := 0
  resumeAct : WsAct := {}
  resumeSqid : Nat := 0
  deriving DecidableEq, Repr, Inhabited

/-- A deferred write error entry (Table 4-6); a range is (start, second word, third word). -/
structure DweEnt where
  idx : Nat := 0
  nsid : Nat := 0
  zoned : Bool := false
  cause : Nat := 0
  ranges : List (Nat × Nat × Nat) := []
  more : Bool := false
  reported : Bool := false
  merged : Bool := false
  timeMs : Nat := 0
  deriving DecidableEq, Repr, Inhabited

/-- A comet candidate (R104). -/
structure CometCand where
  slice : Nat := 0
  ns : Nat := 0
  next : Nat := 0
  run : Nat := 0
  last : Nat := 0
  deriving DecidableEq, Repr, Inhabited

/-- Cached comet data of one LBA with the generation of its translation (R105, R108). -/
structure CometLba where
  lba : Nat := 0
  genKey : Nat := 0
  gen : Nat := 0
  loc : Nat := 0
  data : Block := {}
  landedMs : Nat := 0
  deriving DecidableEq, Repr, Inhabited

/-- A comet stream (R105). -/
structure CometStream where
  slice : Nat := 0
  ns : Nat := 0
  next : Nat := 0
  hi : Nat := 0
  window : Nat := 0
  /-- where the consumption that next doubles the window counts from -/
  base : Nat := 0
  cached : List CometLba := []
  /-- the comet reads outstanding -/
  out : List CometLba := []
  serial : Nat := 0
  lastUse : Nat := 0
  deriving DecidableEq, Repr, Inhabited

/-- A log-page or admin waiter: the context of an admin command, or the sideband endpoint that sent one. -/
inductive Waiter where
  | ctx (c : Nat)
  | sideband (eid : Nat)
  deriving DecidableEq, Repr, Inhabited

/-- Ownership of a namespace (R87). -/
inductive Own where
  | owned (p : Nat)
  | released (last : Nat)
  | taking (p q : Nat)
  deriving DecidableEq, Repr, Inhabited

/-- A namespace (05, 03). -/
structure Ns where
  zoned : Bool := false
  nsze : Nat := 0
  lbaf : Nat := 0
  dps : Nat := 0
  cls : Nat := 0
  owner : Nat := 0
  extents : List Nat := []
  attached : List Nat := []
  keySlot : Nat := 0
  handles : List Nat := []
  promised : Nat := 0
  own : Own := .owned 0
  shared : Bool := false
  fkey : Nat := 0
  epoch : Nat := 0
  wrong : List Nat := []
  lockUntil : Option Nat := none
  release : Option Waiter := none
  takeover : Option Waiter := none
  maxActive : Nat := 0x2000
  maxOpen : Nat := 0x2000
  convRo : Bool := false
  deriving DecidableEq, Repr, Inhabited

/-- Zone states, encoded in Table 5-2. -/
inductive ZState where
  | none
  | empty
  | implicit
  | explicit
  | closed
  | readOnly
  | full
  | offline
  deriving DecidableEq, Repr, Inhabited

/-- A zone table entry (Table 5-2); what the Z9 itself must keep of the zone besides: the slice that opened it last, the
units that hold data (a finish moves WP past them), whether
an Empty zone's rows are taken for a write that has landed but not committed, and the clock of its last write (Table 5-4). -/
structure ZEnt where
  state : ZState := .none
  cls : Nat := 0
  zfc : Bool := false
  fzr : Bool := false
  rzr : Bool := false
  reduced : Bool := false
  degraded : Bool := false
  suspect : Bool := false
  owner : Nat := 0
  wp : Nat := 0
  tmpl : Nat := 0
  block : Nat := 0
  gen : Nat := 0
  capCut : Nat := 0
  opener : Nat := 0
  filled : Nat := 0
  rowsTaken : Bool := false
  lastWrite : Nat := 0
  fzrAt : Nat := 0
  lastOrder : Nat := 0
  deriving DecidableEq, Repr, Inhabited

/-- A zone's projection (R155): its state, reservation pointer and last opener once every earlier command has
committed. -/
structure ZProj where
  state : ZState := .none
  rp : Nat := 0
  opener : Nat := 0
  deriving DecidableEq, Repr, Inhabited

/-- What the map journal on flash holds of an LBA (R163): its location, its UNC mark, and the commit order of that data; `alts` are
the UNC marks of later changes without data, each of which the journal may hold or not (R115). -/
structure MapBack where
  loc : Option Nat := none
  unc : Bool := false
  order : Nat := 0
  alts : List Bool := []
  deriving DecidableEq, Repr, Inhabited

/-- A conventional map entry (Table 5-5): where the data lies (a unit key), and its generation; `back` is what the journal
holds while it does not hold this entry yet. -/
structure MapEnt where
  loc : Option Nat := none
  gen : Nat := 0
  unc : Bool := false
  back : Option MapBack := none
  deriving DecidableEq, Repr, Inhabited

/-- FDP of an endurance group, by die set (R166). -/
structure Fdp where
  enabled : Bool := false
  hostBytes : Nat := 0
  mediaBytes : Nat := 0
  erasedBytes : Nat := 0
  events : List (Nat × Nat × Nat) := []
  evEnable : List (Nat × Nat) := []
  deriving DecidableEq, Repr, Inhabited

/-- A fault record (Table 12-4). -/
structure FltRec where
  seq : Nat := 0
  src : Nat := 0
  level : Nat := 0
  raised : Nat := 0
  react : Nat := 0
  timeMs : Nat := 0
  island : Nat := 0
  unit : Nat := 0xFF
  cls : Nat := 0
  merged : Bool := false
  escCount : Bool := false
  escUnack : Bool := false
  acked : Bool := false
  persisted : Bool := false
  forced : Bool := false
  skipped : Bool := false
  mergeCnt : Nat := 0
  slice : Nat := 0xFFFF
  detail : Nat := 0
  deriving DecidableEq, Repr, Inhabited

/-- A fault source's counts (FLT_SRC_STATE): the times of its window's events in ms, the record in handling and when
it was created. -/
structure FltSrc where
  window : List Nat := []
  events : Nat := 0
  lastLevel : Nat := 0
  handling : Option Nat := none
  since : Nat := 0
  deriving DecidableEq, Repr, Inhabited

/-- The record in handling, for at most 10 ms (R359). -/
def FltSrc.inHand (x : FltSrc) (ms : Nat) : Option Nat := if ms < x.since + 10 then x.handling else none

/-- The fault controller and the watchdog (12). -/
structure Flt where
  safe : Bool := false
  fatal : Bool := false
  irq : Bool := false
  overrun : Nat := 0
  ackSeq : Nat := 0
  ackAct : WsAct := {}
  vector : Nat := 0
  evcVector : Nat := 0
  relAct : WsAct := {}
  causeSrc : Nat := 0
  causeSeq : Nat := 0
  entries : Nat := 0
  relIsland : Nat := 0
  relUnit : Nat := 0
  unitRelAct : WsAct := {}
  srcs : Tbl FltSrc := []
  ring : List FltRec := []
  nextSeq : Nat := 1
  plog : List FltRec := []
  raised : List FaultEv := []
  wdogTimes : List Nat := []
  wdogTotal : Nat := 0
  deferred : Nat := 0
  lastDefer : Nat := 0
  ctlReset : Bool := false
  wdogHold : Bool := false
  holdSince : Nat := 0
  lkgAt : Option Nat := none
  deriving DecidableEq, Repr, Inhabited

/-- One event counter (R373 to R377); `clr`: CLEAR has been written 1. -/
structure Ctr where
  en : Bool := false
  select : Nat := 0
  slice : Nat := 0xFFFF
  island : Nat := 0xFF
  level : Bool := false
  thrInt : Bool := false
  selAct : WsAct := {}
  cnt : Nat := 0
  thr : Nat := 0
  snap : Nat := 0
  clr : Bool := false
  deriving DecidableEq, Repr, Inhabited

/-- A counter group: HIT bits by counter, FROZEN, GRP_ACT; `snapW`: SNAP has been written 1. -/
structure CtrGrp where
  hit : Nat := 0
  frozen : Bool := false
  act : WsAct := {}
  snapW : Bool := false
  deriving DecidableEq, Repr, Inhabited

/-- A power-state entry in progress (R128): who waits for it, the state it enters, the controller that asked and its request
before, and the FSEQ below which every command must have completed. -/
structure PsEntry where
  waiter : Waiter := .ctx 0
  target : Nat := 0
  ctrl : Nat := 0
  prev : Nat := 0
  fseq : Nat := 0
  fetchedMs : Nat := 0
  deriving DecidableEq, Repr, Inhabited

/-- The PWR block outside the domains (13). -/
structure Pwr where
  kmode : Bool := false
  lpRefused : Bool := false
  reqLp : Bool := false
  reqAct : WsAct := {}
  brownout : Bool := false
  lpRevert : Bool := false
  wakeSb : Bool := false
  wakeLink : Bool := false
  wakeBay : Bool := false
  boCount : Nat := 0
  pstate : Nat := 0
  lastOp : Nat := 0
  est : Nat := 0
  lowSince : Option Nat := none
  entry : Option PsEntry := none
  dramState : Tbl Nat := []
  timerArmed : Bool := false
  deviceCw : Nat := 0
  vddCoreCw : Nat := 0
  deriving DecidableEq, Repr, Inhabited

/-- A completion queue entry as posted. -/
structure Cqe where
  dq : Nat := 0
  slot : Nat := 0
  sqid : Nat := 0
  sqhd : Nat := 0
  cid : Nat := 0
  dw0 : Nat := 0
  dw1 : Nat := 0
  sv : StatusVal := {}
  phase : Bool := true
  pasid : Option Nat := none
  deriving DecidableEq, Repr, Inhabited

/-- What left the device (the model's own record, DESIGN CHOICE, log 4): completions, data written toward host memory before a
completion, interrupts, sideband messages, responses to senders of refused or held transfers, result records of jobs. -/
structure HostRec where
  cqes : List Cqe := []
  data : List HostWrite := []
  irqs : List Irq := []
  sideband : List (Nat × Outc × OutData) := []
  unavailable : List Transfer := []
  delivered : List Transfer := []
  bar2 : List (Nat × Option (List Byte)) := []
  results : List HostResult := []
  deriving DecidableEq, Repr, Inhabited

end Sys2Proof.Machine
end

