-- ==== Sys2Proof/Machine/UnitsMedia.lean ====
section
/-! DEFINITION. State records of the media engine and of media life (06, 07). -/

namespace Sys2Proof.Machine

/-- One 4 KiB unit as programmed on flash (Table 6-3): data, metadata and tags; `poison` marks a lost unit (Table 7-3). -/
structure Cell where
  blk : Block := {}
  tagLba : Nat := 0
  tagNs : Nat := 0
  tagSeq : Nat := 0
  poison : Bool := false
  deriving DecidableEq, Repr, Inhabited

/-- A line of 4 KiB in the write buffer (R179), with the context it came from while uncommitted. -/
structure Line where
  ns : Nat := 0
  lba : Nat := 0
  blk : Block := {}
  ctx : Option Nat := none
  durable : Bool := false
  bad : Bool := false
  order : Nat := 0
  deriving DecidableEq, Repr, Inhabited

/-- States of a stripe row (R179). -/
inductive RowState where
  | open
  | full
  | programming
  | verified
  deriving DecidableEq, Repr, Inhabited

/-- A stripe row that is not yet VERIFIED (R177 to R183): its lines by unit of the row, its parity by unit offset, the
dies whose programs are outstanding, passed, lost, and remapped after a failure (R182). -/
structure SRow where
  ns : Nat := 0
  mode : Nat := 0
  tmpl : Nat := 0
  block : Nat := 0
  idx : Nat := 0
  state : RowState := .open
  lines : Tbl Line := []
  parP : Tbl Nat := []
  parQ : Tbl Nat := []
  waiting : List Nat := []
  passed : List Nat := []
  lost : List Nat := []
  failing : List Nat := []
  padded : Bool := false
  seq : Nat := 0
  deriving DecidableEq, Repr, Inhabited

/-- Why a landing stripe is written (R181). -/
inductive LandKind where
  | flush
  | fua (c : Nat)
  | pfail
  | lost
  deriving DecidableEq, Repr, Inhabited

/-- A landing stripe (R181): the unit keys it makes durable, its (die, block) pairs, the dies still to report, and whether
it lies in the last-landing reserve (R223). -/
structure Landing where
  kind : LandKind := .flush
  set : Nat := 0
  units : List Nat := []
  dies : List (Nat × Nat) := []
  waiting : List Nat := []
  lost : List Nat := []
  issued : Bool := false
  failed : Bool := false
  llr : Bool := false
  deriving DecidableEq, Repr, Inhabited

/-- Who reads a codeword of the flash (Table 6-4). -/
inductive Rdr where
  /-- unit `u` of context `c`, whose request carried `tag` (R102) -/
  | cmd (c u tag : Nat)
  /-- comet stream `id`, by its serial number (R105) -/
  | comet (id serial : Nat)
  /-- relocation `id` in its attempt `run` (R217) -/
  | rel (id run : Nat)
  /-- recovery `id` of a failed block in its attempt `run` (R182) -/
  | fix (id run : Nat)
  | patrol
  deriving DecidableEq, Repr, Inhabited

/-- An operation of a die (R184). -/
inductive DieOpK where
  /-- a read of the codeword `DieOp.unit` -/
  | read (r : Rdr)
  /-- a source read of an eclipse read of that codeword (R188) -/
  | src (r : Rdr)
  /-- the program of stripe row `row` -/
  | program (row : Nat)
  /-- the program of a landing stripe -/
  | landing (id : Nat)
  | erase (block : Nat)
  /-- a program of relocation `id` -/
  | reloc (id : Nat)
  /-- the program of an earlier row by recovery `id` (R182) -/
  | fix (id : Nat)
  /-- a verify read of an interrupted program's page range (R205) -/
  | verify (block : Nat)
  deriving DecidableEq, Repr, Inhabited

/-- A queued or running operation: its class (Table 6-4) and its order inside it, its block, the stripe row of the block whose pages it
covers, its deadline in microseconds; of a read, the cell it reads, its step and re-read of the decode ladder (Table 6-6) and its
landing buffer. -/
structure DieOp where
  k : DieOpK := .verify 0
  cls : Nat := 7
  sub : Nat := 0
  block : Nat := 0
  idx : Nat := 0
  deadline : Nat := 0
  slice : Nat := 0
  unit : Nat := 0
  step : Nat := 0
  pos : Nat := 0
  /-- the offsets of its read levels, in DAC steps (R193) -/
  offs : List Int := []
  buf : Option Nat := none
  deriving DecidableEq, Repr, Inhabited

/-- An eclipse read in progress (R188, R190): the read it serves (as the operation that its target die would run), its count in
MED_CL_CNT (0: none), the dies that still have to give their unit, those that gave it, those whose unit failed; and where the read goes
on if the eclipse read is abandoned. -/
structure Ecl where
  op : DieOp := {}
  rdr : Rdr := .patrol
  why : Nat := 0
  waiting : List Nat := []
  gave : List Nat := []
  bad : List Nat := []
  /-- 0: at its target die from step 0; 3: at step 4; 5: at step 5; 6: nowhere, the unit is lost; 9: its own read goes on alongside -/
  fall : Nat := 0
  deriving DecidableEq, Repr, Inhabited

/-- The recovery of a failed block (R182): its die and block, the stripe row whose program failed, the cells of earlier rows still to be
read, the earlier rows. -/
structure Recov where
  die : Nat := 0
  block : Nat := 0
  row : Option Nat := none
  todo : List Nat := []
  idxs : List Nat := []
  lost : List (Nat × Nat) := []
  tries : Nat := 0
  deriving DecidableEq, Repr, Inhabited

/-- MED_DIE.DSTATE. -/
inductive DieState where
  | absent
  | online
  | failed
  | rebuilding
  deriving DecidableEq, Repr, Inhabited

/-- What was busy on a die at a safe state (R204). -/
structure BusyRec where
  die : Nat := 0
  op : DieOp := {}
  deriving DecidableEq, Repr, Inhabited

/-- The counters of a die's C4h record (Table 6-7). -/
structure DieStat where
  reads : Nat := 0
  retries : Nat := 0
  soft : Nat := 0
  softFail : Nat := 0
  eclipse : Nat := 0
  unrecovered : Nat := 0
  refresh : Nat := 0
  suspends : Nat := 0
  budgetMiss : Nat := 0
  hourCw : Nat := 0
  hourBits : Nat := 0
  meanCbits : Nat := 0
  maxCbits : Nat := 0
  hourMax : Nat := 0
  deriving DecidableEq, Repr, Inhabited

/-- One die (R183 to R187, R199). -/
structure Die where
  state : DieState := .absent
  cur : Option DieOp := none
  susp : Nat := 0
  suspended : Option DieOp := none
  /-- when the running operation started or went on, when it is expected to end by its type's figures, what a suspended one had left, and
  when the running one was last resumed, in microseconds (R186, R187) -/
  startUs : Nat := 0
  endUs : Nat := 0
  leftUs : Nat := 0
  resumedAt : Option Nat := none
  queue : List DieOp := []
  tempC : Int := 0
  tempAt : Option Nat := none
  uid : Option Nat := none
  accepted : Bool := false
  wasFailed : Bool := false
  stat : DieStat := {}
  goodBlocks : Nat := 0
  usable : Nat := 0
  spareInit : Nat := 0
  spareLeft : Nat := 0
  retired : Nat := 0
  notReady : Bool := false
  deriving DecidableEq, Repr, Inhabited

/-- A tracker record of a die and a block group (R193). -/
structure Tracker where
  mode : Nat := 0
  offset : List Int := []
  base : List Int := []
  hi : List Nat := []
  lo : List Nat := []
  cw : Nat := 0
  tracking : Bool := false
  deriving DecidableEq, Repr, Inhabited

/-- Roles of a block (Table 7-1). -/
inductive Role where
  | data
  | system
  | landing
  | spare
  | llr
  | retired
  deriving DecidableEq, Repr, Inhabited

/-- A block of a die, counted across its planes (DEDUCED, log 13): its role, wear in twelfths of a cycle (R212), the mode it was
last programmed in, its reads since then, and whether a codeword of it reached step 3 (R221). -/
structure Blk where
  role : Role := .data
  wear : Nat := 0
  mode : Nat := 0
  reads : Nat := 0
  step3 : Bool := false
  needErase : Bool := false
  programmedAt : Nat := 0
  deriving DecidableEq, Repr, Inhabited

/-- One channel (MED_CH_*). CSTATE: 0 off, 1 training, 2 up, 3 retraining, 4 isolated, 5 held. -/
structure Chan where
  cstate : Nat := 0
  rate : Nat := 0
  margin : Nat := 0
  retrains : Nat := 0
  failedRetrains : Nat := 0
  retrainAct : WsAct := {}
  crcRun : Nat := 0
  retunedAt : Option Nat := none
  cnt : List Nat := []
  deriving DecidableEq, Repr, Inhabited

/-- One cluster (MED_CL_*). SUS_US, the measured suspend latency in microseconds, is a free value (DESIGN CHOICE, log 131). -/
structure Clu where
  eclPct : Nat := 20
  rebuildPct : Nat := 10
  suspEn : Bool := true
  schedAct : WsAct := {}
  eclUse : Nat := 0
  eclUsed : Nat := 0
  /-- channel time taken in the epoch by rebuild, and by relocations under RELOC_PCT, in nanoseconds (R200, R216) -/
  rebUsed : Nat := 0
  relUsed : Nat := 0
  susUs : Nat := 0
  cnt : List Nat := []
  deriving DecidableEq, Repr, Inhabited

/-- One bay (MED_BAY_*). BSTATE is numbered as in MED_BAY_STATE; `step` is the step of Table 6-8 or 6-9 in progress. -/
structure Bay where
  bstate : Nat := 10
  prsnt : Bool := false
  pwrgd : Bool := false
  pwren : Bool := false
  rstN : Bool := false
  cmdAct : WsAct := {}
  cmd : Nat := 0
  force : Bool := false
  led : Nat := 0
  progress : Nat := 0
  /-- block rows queued for the rebuild in progress (R200) -/
  rebTotal : Nat := 0
  insertions : Nat := 0
  evt : Nat := 0
  /-- what BAY_LED showed when the pads were held (R172) -/
  ledHeld : Option Nat := none
  /-- a surprise removal seen in the safe state, its steps still to run (Table 6-11): did the module leave? -/
  lostIn : Option Bool := none
  /-- when the step in progress began, in milliseconds (Table 6-8) -/
  stepAt : Nat := 0
  newDies : List ScanDie := []
  step : Nat := 0
  held : Bool := false
  deriving DecidableEq, Repr, Inhabited

/-- Causes of relocation (Table 7-2). -/
inductive RelCause where
  | rebuild
  | urgentRefresh
  | gcUrgent
  | refresh
  | gc
  | wear
  deriving DecidableEq, Repr, Inhabited

/-- A relocation in progress (R217): its source rows, its target rows, the entries it moves with their generations. `zent`
names the zone table entry of a zone; a conventional row lists its map keys. -/
structure Reloc where
  cause : RelCause := .refresh
  ns : Nat := 0
  zent : Option Nat := none
  srcTmpl : Nat := 0
  srcBlock : Nat := 0
  rows : Nat := 1
  hasTgt : Bool := false
  tgtTmpl : Nat := 0
  tgtBlock : Nat := 0
  mode : Nat := 0
  gens : List (Nat × Nat) := []
  restarts : Nat := 0
  paused : Bool := false
  /-- the source units still to be read, once the reads have begun; the units lost; whether the target's programs were issued -/
  todo : List Nat := []
  reading : Bool := false
  programming : Bool := false
  lostUnits : List Nat := []
  /-- the bays whose lost dies a rebuild is for (R200) -/
  bays : List Nat := []
  deriving DecidableEq, Repr, Inhabited

/-- A block row in use (R140, R210): who holds it, in which mode, the dies that do not hold their part of it (R200, R202),
when data was last written and moved, and the units a conventional row is short of for
a worn block (R225). -/
structure RowUse where
  ns : Nat := 0
  mode : Nat := 0
  zent : Option Nat := none
  next : Nat := 0
  holes : List Nat := []
  target : Bool := false
  ruh : Nat := 0
  missing : List Nat := []
  writtenAt : Nat := 0
  movedAt : Nat := 0
  cut : Nat := 0
  deriving DecidableEq, Repr, Inhabited

/-- A block row whose relocation waits for its zone to leave the active states (R216). -/
structure RefreshQ where
  tmpl : Nat := 0
  block : Nat := 0
  cause : RelCause := .refresh
  deriving DecidableEq, Repr, Inhabited

/-- A die set's life (07): stage, events, wear levelling, and the values saved hourly (R230). -/
structure SetLife where
  stage : Nat := 0
  wlActive : Bool := false
  erases : Nat := 0
  llrUsed : Nat := 0
  diesRetired : Nat := 0
  savedSpareLeft : Nat := 0
  savedSpareInit : Nat := 0
  savedWearMin : Nat := 0
  savedWearMax : Nat := 0
  savedWearMean : Nat := 0
  savedPct : Nat := 0
  savedLlr : Nat := 0
  savedDiesRetired : Nat := 0
  savedRetired : Nat := 0
  mediaUnits : Nat := 0
  hostUnits : Nat := 0
  readUnits : Nat := 0
  deriving DecidableEq, Repr, Inhabited

/-- Per-slice SMART counts (R227): LBAs read and written, commands. -/
structure SmartSl where
  readLbas : Nat := 0
  writtenLbas : Nat := 0
  reads : Nat := 0
  writes : Nat := 0
  deriving DecidableEq, Repr, Inhabited

/-- Media life outside the sets (07): configuration, counts, health. -/
structure Mlf where
  wlLimit : Nat := 8
  wlStop : Nat := 6
  wlReloc : Nat := 10
  wlAct : WsAct := {}
  spareThresh : Nat := 10
  spareAct : WsAct := {}
  relocCnt : List Nat := []
  critWarn : Nat := 0
  smart : Tbl SmartSl := []
  powerCycles : Nat := 0
  powerOnMin : Nat := 0
  unsafeShut : Nat := 0
  mediaErrors : Nat := 0
  errors : List Nat := []
  tempHist : List Nat := []
  hotMinute : Option Int := none
  savedErrors : List Nat := []
  savedHist : List Nat := []
  savedOnMin : Nat := 0
  savedMs : Nat := 0
  deriving DecidableEq, Repr, Inhabited

end Sys2Proof.Machine
end

