-- ==== Sys2Proof/Machine/UnitsRest.lean ====
section
/-! DEFINITION. State records of compute, programs, pools, slices, sessions, memory integrity, temperature, ageing, the code
array, field update, start-up and the electrical inputs (08 to 11, 14 to 17). -/

namespace Sys2Proof.Machine

/-! Compute (08, 09). -/

/-- An input extent of a job (Table 8-4). -/
structure Extent where
  src : Nat := 0
  flush : Bool := false
  chunkEnd : Bool := false
  run : Nat := 0
  handle : Nat := 0
  addr : Nat := 0
  len : Nat := 0
  deriving DecidableEq, Repr, Inhabited

/-- A job descriptor as read at stage 3 (Table 8-3), its input extents and its auxiliary descriptor; kind 6 is the model's own,
for a routed Read (R242). -/
structure JobDesc where
  kind : Nat := 0
  route : Nat := 0
  pad4k : Bool := false
  chunkHdr : Bool := false
  outKind : Nat := 0
  chunkLog2 : Nat := 0
  ratio : Nat := 1024
  outNsid : Nat := 0
  outHandle : Nat := 0
  outAddr : Nat := 0
  outLimit : Nat := 0
  decLimit : Nat := 2 ^ 40
  timeMs : Nat := 0
  memMib : Nat := 0
  cores : Nat := 0
  prog : Nat := 0
  resultCm : Bool := false
  resultHandle : Nat := 0
  resultAddr : Nat := 0
  arg0 : Nat := 0
  arg1 : Nat := 0
  exts : List Extent := []
  aux : List Byte := []
  raw : List Byte := []
  deriving DecidableEq, Repr, Inhabited

/-- One open view of a stream port (R281, R282); a chunk is its address and its frame. -/
structure View where
  core : Nat := 0
  ext : Nat := 0
  off : Nat := 0
  len : Nat := 0
  pos : Nat := 0
  chunks : List (Nat × Nat) := []
  /-- the bytes of each chunk, by its address -/
  data : Tbl (List Byte) := []
  blocked : Bool := false
  deriving DecidableEq, Repr, Inhabited

/-- One core of a program job: its registers (R277, R280), its output, whether it has exited or waits at a barrier. -/
structure PCore where
  core : Nat := 0
  exited : Bool := false
  barrier : Bool := false
  output : List Byte := []
  held : List Nat := []
  hart : Hart := {}
  deriving DecidableEq, Repr, Inhabited

/-- The registers that calls use: the program counter, sp, and a0, a signed result, to a5. -/
def PCore.pc (p : PCore) : Nat := p.hart.pc
def PCore.sp (p : PCore) : Nat := p.hart.xr 2
def PCore.a0 (p : PCore) : Int := sint 64 (p.hart.xr 10)
def PCore.a1 (p : PCore) : Nat := p.hart.xr 11
def PCore.a2 (p : PCore) : Nat := p.hart.xr 12
def PCore.a3 (p : PCore) : Nat := p.hart.xr 13
def PCore.a4 (p : PCore) : Nat := p.hart.xr 14
def PCore.a5 (p : PCore) : Nat := p.hart.xr 15

/-- Write a register of a core. -/
def PCore.setX (p : PCore) (r v : Nat) : PCore := { p with hart := p.hart.setX r v }
/-- A call returns `v` in a0; `past`: the core stands at its ECALL, which retires. -/
def PCore.ret (p : PCore) (past : Bool) (v : Int) : PCore :=
  { p with hart := if past then (p.hart.setX 10 (uintOf 64 v)).retire 4 else p.hart.setX 10 (uintOf 64 v) }

/-- A job in flight (08, 09): its descriptor; the work units its engines have finished; what its result record reports; its
output and the table it leaves, which wait for its commit; its cores, their views and windows, and what its sandbox's
memory holds; the ranges (handle, offset, length) of compute memory that it shares with another agent while one of them writes
(`shared`), and those of its input that BAR2 wrote (`raced`) (R246). -/
structure Job where
  desc : JobDesc := {}
  started : Nat := 0
  lanes : Nat := 8
  units : List Nat := []
  bytesIn : Nat := 0
  bytesOut : Nat := 0
  recIn : Nat := 0
  recOut : Nat := 0
  chunks : Nat := 0
  engineErr : Nat := 0
  errStage : Nat := 0xFF
  errExtent : Nat := 0xFFFFFFFF
  handles : List Nat := []
  inputs : List (List Byte) := []
  out : List Byte := []
  tab : Option (Tbl Byte) := none
  tabHandle : Nat := 0
  done : Bool := false
  running : Bool := false
  cores : List PCore := []
  views : Tbl View := []
  windows : List (Nat × Nat × Nat × Nat) := []
  nextWin : Nat := 0x1000000000
  mem : Tbl Byte := []
  frames : List Nat := []
  shared : List (Nat × Nat × Nat) := []
  raced : List (Nat × Nat × Nat) := []
  deriving DecidableEq, Repr, Inhabited

/-- A compute memory allocation, or a loaded program, of a slice (R244, R273). -/
structure Alloc where
  units : Nat := 0
  frames : List Nat := []
  bytes : Tbl Byte := []
  freeing : Bool := false
  waiter : Option Nat := none
  isProg : Bool := false
  image : List Byte := []
  stackKib : Nat := 0
  entry : Nat := 0
  damaged : Bool := false
  deriving DecidableEq, Repr, Inhabited

/-- A program load sequence of a slice (R271). -/
structure LoadSeq where
  bytes : List Byte := []
  deriving DecidableEq, Repr, Inhabited

/-- An engine unit (CPX_UNIT, SVE_UNIT, IDX_UNIT) and the job that holds it. -/
structure EngUnit where
  busy : Bool := false
  ctx : Nat := 0
  slice : Nat := 0
  route : Nat := 0
  op : Nat := 0
  isolated : Bool := false
  parseFail : Nat := 0
  deriving DecidableEq, Repr, Inhabited

/-- UPC_SLICE_CFG and the UPC_TRAP registers of a slice. -/
structure UpcSlice where
  atsGrant : Bool := false
  grantAct : WsAct := {}
  cause : Nat := 0
  index : Nat := 0
  valid : Bool := false
  prog : Nat := 0
  code : Nat := 0
  pc : Nat := 0
  tval : Nat := 0
  limAct : WsAct := {}
  lim : Nat := 0x400
  deriving DecidableEq, Repr, Inhabited

/-- The compute block (08, 09): jobs by context, allocations and programs by slice and handle. -/
structure Cpx where
  jobs : Tbl Job := []
  allocs : Tbl Alloc := []
  loads : Tbl LoadSeq := []
  lanes : Nat := 8
  lanesAct : WsAct := {}
  cnt : List Nat := []
  units : Tbl EngUnit := []
  sieves : Tbl EngUnit := []
  index : Tbl EngUnit := []
  cores : Tbl EngUnit := []
  slices : Tbl UpcSlice := []
  deriving DecidableEq, Repr, Inhabited

/-- One weave cell (R289). -/
structure WCell where
  r : Nat := 0
  f : Bool := false
  m : Nat := 0
  mem : Tbl Nat := []
  deriving DecidableEq, Repr, Inhabited

/-- A fabric half (WVF_HALF, WVF_WEAVE): its state, its cells and the context whose work unit each weave serves. -/
structure Half where
  loaded : Bool := false
  panelSeq : Nat := 0
  cells : Tbl WCell := []
  busy : Tbl Nat := []
  units : Tbl Nat := []
  failedWeaves : List Nat := []
  deriving DecidableEq, Repr, Inhabited

/-- A pool frame (R298, R301, R303): `fails` are the times in ms of its integrity events, `bad` its uncorrectable lines. -/
structure PFrame where
  held : Bool := false
  named : Bool := false
  refs : Nat := 0
  gen : Nat := 1
  owner : Nat := 0
  slice : Nat := 0
  fails : List Nat := []
  bad : Nat := 0
  retired : Bool := false
  retiring : Bool := false
  badIsl : Nat := 0
  deriving DecidableEq, Repr, Inhabited

/-- A pool class (R299): its DRAM frames; its ring, which holds the frames `fresh` to `filled - 1` that were
never handed out (retired ones among them in `skip`) and behind them the returned ones; its cache. `head` counts the ring entries
taken so far, and `pgen` the refills and spills (Table 16-8). -/
structure Pool where
  frames : Nat := 0
  fresh : Nat := 0
  filled : Nat := 0
  ring : List Nat := []
  cache : List Nat := []
  retired : Nat := 0
  skip : List Nat := []
  head : Nat := 0
  pgen : Nat := 0
  deriving DecidableEq, Repr, Inhabited

/-- A stalled pool request (R300). -/
structure Stall where
  cls : Nat := 0
  unit : Nat := 0
  slice : Nat := 0
  who : PoolAsker := .internal 0
  order : Nat := 0
  deriving DecidableEq, Repr, Inhabited

/-- The buffer pool manager (09). -/
structure Bpm where
  pools : Tbl Pool := []
  frames : Tbl PFrame := []
  cnt : List Nat := []
  stalls : List Stall := []
  deriving DecidableEq, Repr, Inhabited

/-! Slices, mailboxes and sessions (10). -/

/-- SLI_CFG.STATE. -/
inductive SliState where
  | free
  | created
  | enabled
  | resetting
  | removing
  deriving DecidableEq, Repr, Inhabited

/-- The five overridable fields: MEDIA_W, COMPUTE_W, INFLIGHT, SPEC_MIB, COMET. -/
structure Shares where
  mediaW : Nat := 0
  computeW : Nat := 0
  inflight : Nat := 0
  specMib : Nat := 0
  comet : Nat := 0
  deriving DecidableEq, Repr, Inhabited

/-- A mailbox message (Table 10-6). -/
structure MbMsg where
  typ : Nat := 0
  reply : Bool := false
  unsol : Bool := false
  len : Nat := 0
  seq : Nat := 0
  peer : Nat := 0
  status : Nat := 0
  payload : List Byte := []
  port : Nat := 0
  deriving DecidableEq, Repr, Inhabited

/-- Slice Statistics (Table 10-12) outside the squash and comet counts, which stand in CMD_SQSTAT. -/
structure SlStat where
  fetched : Nat := 0
  completed : Nat := 0
  readUnits : Nat := 0
  writeUnits : Nat := 0
  budgetMiss : Nat := 0
  dieUs : Nat := 0
  engineUs : Nat := 0
  coreUs : Nat := 0
  mbSent : Nat := 0
  mbDiscarded : Nat := 0
  resets : Nat := 0
  deriving DecidableEq, Repr, Inhabited

/-- A reset of one controller of a slice in progress (R322): whether it is a slice reset, its start and its waiter. -/
structure ResetRun where
  isSlice : Bool := false
  port : Nat := 0
  started : Nat := 0
  waiter : Option Waiter := none
  remove : Bool := false
  reassign : Option Nat := none
  deriving DecidableEq, Repr, Inhabited

/-- A pending share change (R313). -/
structure SharePend where
  shares : Shares := {}
  override : List Bool := []
  epoch : Nat := 0
  replies : List (Nat × Nat) := []
  deriving DecidableEq, Repr, Inhabited

/-- One slice (10); `kept`: its record waits in the slice table while the bare structure runs (R450). -/
structure Sli where
  state : SliState := .free
  port : Nat := 0
  pasid : Nat := 0
  template : Nat := 0
  shares : Shares := {}
  override : List Bool := [false, false, false, false, false]
  effEpoch : Nat := 0
  pend : Option SharePend := none
  gen : Nat := 0
  oldItems : Nat := 0
  stale : List (Nat × Nat × Nat) := []
  resets : Tbl ResetRun := []
  credit : Tbl Int := []
  msgs : Tbl MsgEnt := []
  msgCount : Nat := 0
  mbIn : List Byte := []
  mbInAct : WsAct := {}
  mbOut : Option MbMsg := none
  mbOutAct : WsAct := {}
  mbQueue : List MbMsg := []
  mbReqs : List MbMsg := []
  stat : SlStat := {}
  sqstat : List Nat := []
  dwe : List DweEnt := []
  dweNext : Nat := 0
  wce : Bool := true
  seq : Nat := 0
  hold : Bool := false
  kept : Bool := false
  deriving DecidableEq, Repr, Inhabited

/-- A reset runs on a controller of the slice; slice 0 has one controller on each port (R68, R73). -/
def Sli.inReset (q : Sli) : Bool := !q.resets.isEmpty

/-- An open session (SEC_SESSION). -/
structure Session where
  role : Nat := 0
  who : Requester := .ctrl 0 0
  key : Nat := 0
  openMs : Nat := 0
  deriving DecidableEq, Repr, Inhabited

/-- A key slot (SEC_KEY): its material and its lockout. -/
structure KeySlot where
  key : List Byte := []
  fails : Nat := 0
  lockUntil : Option Nat := none
  lockouts : Nat := 0
  counter : Nat := 0
  deriving DecidableEq, Repr, Inhabited

/-- An outstanding challenge (R330). -/
structure Challenge where
  who : Requester := .ctrl 0 0
  role : Nat := 0
  key : Nat := 0
  nonce : List Byte := []
  counter : Nat := 0
  issued : Nat := 0
  deriving DecidableEq, Repr, Inhabited

/-- Sessions, keys and media keys (10). -/
structure Sec where
  sessions : Tbl Session := []
  keys : Tbl KeySlot := []
  challenges : List Challenge := []
  slots : Tbl Nat := []
  keyGen : Nat := 0
  classKey : Tbl Nat := []
  sharedKey : Tbl Bool := []
  cryAct : Tbl WsAct := []
  discards : Nat := 0
  mgrPasid : Nat := 0
  mbVector : Nat := 0
  pasidAct : WsAct := {}
  pasidEff : Nat := 0
  deriving DecidableEq, Repr, Inhabited

/-! Memory integrity (11). -/

/-- A tracker entry of a memory instance (R351). -/
structure MTrack where
  line : Nat := 0
  times : List Nat := []
  mask : Nat := 0
  deriving DecidableEq, Repr, Inhabited

/-- A memory instance (MIC_MEM). -/
structure MMem where
  degraded : Bool := false
  usedRows : Tbl Nat := []
  usedCols : Tbl Nat := []
  track : List MTrack := []
  disabled : List Nat := []
  fails : Nat := 0
  marked : List Nat := []
  deriving DecidableEq, Repr, Inhabited

/-- An entry of the runtime repair map (Table 11-3). -/
structure RepEnt where
  island : Nat := 0
  mem : Nat := 0
  kind : Nat := 0
  spare : Nat := 0
  macr : Nat := 0
  index : Nat := 0
  frame : Nat := 0
  timeH : Nat := 0
  deriving DecidableEq, Repr, Inhabited

/-- The MIC block (11). -/
structure Mic where
  sramFilled : Bool := false
  dramFilled : Nat := 0
  fillPtr : List Nat := []
  cnt : List Nat := []
  mems : Tbl MMem := []
  repairs : List RepEnt := []
  withdrawn : List Nat := []
  armed : Bool := false
  flipAct : WsAct := {}
  flipCls : Nat := 0
  flipOnCrc : Bool := false
  flipIsl : Nat := 0
  flipOff : Nat := 0
  flipMask : Nat := 0
  injected : Bool := false
  detected : Bool := false
  replays : List (Bool × Nat) := []
  halted : List Nat := []
  auditFrames : List Nat := []
  deriving DecidableEq, Repr, Inhabited

/-! Temperature and ageing (14). -/

/-- A sensor (THM_SENSOR). -/
structure Sensor where
  temp : Int := 0
  raw : Nat := 0
  failed : Bool := false
  cause : Nat := 0
  holding : Bool := false
  heldAt : Nat := 0
  heldBudget : Nat := 100
  stuckSince : Nat := 0
  devSince : Option Nat := none
  shutRun : Nat := 0
  retestAct : WsAct := {}
  retesting : Bool := false
  retestAt : Nat := 0
  retestBad : Bool := false
  read : Bool := false
  deriving DecidableEq, Repr, Inhabited

/-- A thermal region (THM_REGION): the budget computed for it, and whether its throttle is set. -/
structure Region where
  budget : Nat := 100
  active : Bool := false
  deriving DecidableEq, Repr, Inhabited

/-- The thermal manager (14). -/
structure Thm where
  sensors : Tbl Sensor := []
  regions : Tbl Region := []
  warn : Bool := false
  coldWarn : Bool := false
  coldHold : Bool := false
  shutdown : Bool := false
  warnMin : Nat := 0
  critMin : Nat := 0
  overT : Tbl Int := []
  under : Tbl Int := []
  thermtripN : Bool := true
  deriving DecidableEq, Repr, Inhabited

/-- A margin plan (R415 to R418): its version, a voltage and a frequency cut per island and point, refresh intervals and
drift limits per mode. -/
structure Plan where
  ver : Nat := 0
  points : Tbl (List (Nat × Nat)) := []
  refresh : List Nat := []
  drift : List Nat := []
  deriving DecidableEq, Repr, Inhabited

/-- The ageing manager (14): the plan in force and the older plan record, slack by island and monitor, margin remaining by island,
islands left PENDING, whether a re-plan is due and waits, and the power-on minute of the last one. -/
structure Age where
  plan : Plan := {}
  prev : Plan := {}
  slack : Tbl (List Nat) := []
  margin : Tbl Nat := []
  pending : List Nat := []
  due : Bool := false
  lastMin : Nat := 0
  deriving DecidableEq, Repr, Inhabited

/-! The code array and field update (15). -/

/-- What a bank of the array does: 1 program, 2 sector erase (CNV_BANK_STATE.OP numbering is the chapter's). -/
structure ArrOp where
  who : ArrayIssuer := .cores
  op : Nat := 0
  page : Nat := 0
  data : List Byte := []
  deriving DecidableEq, Repr, Inhabited

/-- A code array bank (CNV_BANK_STATE) with its queue, the issuers that hold its identify view, and the steps of a command
sequence begun through BAR0 with the port it comes from (R426) (DEDUCED, log 113). -/
structure Bank where
  cur : Option ArrOp := none
  progress : Nat := 0
  err : Bool := false
  errCode : Nat := 0
  sector : Nat := 0
  queue : List ArrOp := []
  seqStep : Nat := 0
  seqPort : Nat := 0
  views : List ArrayIssuer := []
  deriving DecidableEq, Repr, Inhabited

/-- A sector of the array (CNV_SECT; PROTECTED is computed): its erases and the pages programmed since the last one. -/
structure Sect where
  erases : Nat := 0
  worn : Bool := false
  progPages : List Nat := []
  deriving DecidableEq, Repr, Inhabited

/-- The code array (15): its bytes (unlisted: 0xFF, erased), banks, sectors and counts. -/
structure Cnv where
  bytes : List Host.Cell := []
  banks : Tbl Bank := []
  sects : Tbl Sect := []
  cnt : List Nat := []
  deriving DecidableEq, Repr, Inhabited

/-- A firmware slot (FWU_SLOT). -/
structure FwSlot where
  state : Nat := 0
  running : Bool := false
  next : Bool := false
  knownGood : Bool := false
  lkg : Bool := false
  ver : Nat := 0
  fmt : Nat := 0
  resetReq : Bool := false
  deriving DecidableEq, Repr, Inhabited

/-- Field update (15): the bytes staged, the slot the staged package is applied to, an activation without reset that waits, the
versions stored by structure (Table 15-9) now and before the last migration, and when the migration window opened. -/
structure Fwu where
  phase : Nat := 0
  owner : Option Requester := none
  lastMs : Nat := 0
  staged : Nat := 0
  applied : Option Nat := none
  result : Nat := 0
  slots : Tbl FwSlot := []
  abortAct : WsAct := {}
  activating : Option (Waiter × Nat) := none
  pauseMs : Nat := 0
  imageMs : Nat := 0
  windowOpen : Bool := false
  windowMin : Nat := 0
  migrated : Nat := 0
  fromVer : Nat := 0
  storeVer : List Nat := []
  oldVer : List Nat := []
  deriving DecidableEq, Repr, Inhabited

/-! Start-up, pins and the sideband (16, 17). -/

/-- The GLB block and the device's pins (16, 17); the die sets whose namespaces start-up leaves not ready (R448), and whether it
found a slice table (R451). -/
structure Glb where
  step : Nat := 0
  adminReady : Bool := false
  mediaReady : Bool := false
  bare : Bool := false
  pinStart : Bool := false
  failStep : Nat := 0
  tAdminMs : Nat := 0
  tMediaMs : Nat := 0
  causePowerOn : Bool := false
  causePin : Bool := false
  causeTherm : Bool := false
  causeUnsafe : Bool := false
  causeFatal : Bool := false
  pinCount : Nat := 0
  holdSlice : Nat := 0
  holdSet : Bool := false
  holdAct : WsAct := {}
  devRstN : Bool := true
  pfailN : Bool := true
  refclk : Bool := true
  pgLost : List Nat := []
  startMs : Nat := 0
  vreqCode : Nat := 60
  vreqOk : Nat := 60
  vreqRaise : Tbl Nat := []
  vreqAlertN : Bool := true
  vreqBlocked : Bool := false
  vreqHighAt : Nat := 0
  vddSramMv : Nat := 800
  clampReported : Bool := false
  notReady : List Nat := []
  tableOk : Bool := true
  deriving DecidableEq, Repr, Inhabited

/-- The sideband (R390, R472): the endpoint ID, its configuration, responses held by a Pause, the last response, and the endpoints
whose command waits. -/
structure Sb where
  eid : Nat := 0
  smbKhz : Nat := 100
  healthCfg : Nat := 0
  mtu : Nat := 64
  paused : Bool := false
  held : List (Nat × Outc × OutData) := []
  lastResp : Option (Nat × Outc × OutData) := none
  busy : List Nat := []
  deriving DecidableEq, Repr, Inhabited

/-- A panel reload in progress (R60 to R64). -/
structure Reload where
  phase : Nat := 0
  panel : Nat := 0
  seq : Nat := 0
  abandonAct : WsAct := {}
  holder : Option Nat := none
  staged : List Byte := []
  frames : List Frame := []
  waiter : Option Waiter := none
  draining : List Nat := []
  deriving DecidableEq, Repr, Inhabited

/-- The active Pattern (02): its source, the types of the panels in effect (a weave panel's half on top), the structure in effect,
the slots' last validations and the sequence holders. -/
structure PatSt where
  source : Nat := 2
  signer : Nat := 0
  reloaded : Bool := false
  panels : List Nat := []
  seq : Nat := 0
  eff : Pat := {}
  coldDram : Option DramPlan := none
  oldTmpls : Option (List SliceTmpl) := none
  slots : Tbl PatSlot := []
  gen : Nat := 0
  lastPartial : List Byte := []
  loadHolder : Option Nat := none
  loadMs : Nat := 0
  loadSlot : Nat := 0
  loadNext : Nat := 0
  reload : Reload := {}
  deriving DecidableEq, Repr, Inhabited

end Sys2Proof.Machine
end

