-- ==== Sys2Proof/Machine/State.lean ====
section
/-! DEFINITION. The state of the block, its faults and refusals, and the state right after reset. -/

namespace Sys2Proof.Machine

/-- Why a step can stop. -/
inductive Fault where
  /-- raised by a register write at a BAR0 offset of 512 MiB or more (R71): no such address. Safe: the run stops. -/
  | outsideBar0
  deriving DecidableEq, Repr, Inhabited

/-- Why a command has no meaning. -/
inductive Refusal where
  /-- raised by exec's arm of a command that has no meaning yet. Safe: the run stops. -/
  | notModelled (mnemonic : String)
  deriving DecidableEq, Repr, Inhabited

/-- The write buffer, the media and media life (04, 06, 07). -/
structure Media where
  chans : Tbl Chan := []
  clus : Tbl Clu := []
  bays : Tbl Bay := []
  dies : Tbl Die := []
  blks : Tbl Blk := []
  rows : Tbl SRow := []
  landings : Tbl Landing := []
  nextLanding : Nat := 0
  landed : List Nat := []
  rowSeq : Nat := 0
  flash : Tbl Cell := []
  trackers : Tbl Tracker := []
  savedTrackers : Tbl Tracker := []
  savedWear : Tbl Nat := []
  erasesSince : Tbl Nat := []
  ecls : List Ecl := []
  recovs : Tbl Recov := []
  nextRecov : Nat := 0
  busyAtSafe : List BusyRec := []
  use : Tbl RowUse := []
  relocs : Tbl Reloc := []
  nextReloc : Nat := 0
  refreshQ : List RefreshQ := []
  sets : Tbl SetLife := []
  deriving DecidableEq, Repr, Inhabited

/-- Namespaces, zones and the conventional map (05). -/
structure Zon where
  nss : Tbl Ns := []
  nsAct : Tbl WsAct := []
  ents : Tbl ZEnt := []
  genDue : Tbl Nat := []
  proj : Tbl ZProj := []
  extOwner : Tbl Nat := []
  map : Tbl MapEnt := []
  hits : Nat := 0
  misses : Nat := 0
  journalBytes : Nat := 0
  ckptRun : Bool := false
  ckptSeq : Nat := 0
  journalSegs : List Nat := []
  fdp : Tbl Fdp := []
  changedZones : Tbl (List Nat) := []
  changedNs : Tbl (List Nat) := []
  writeOrder : Nat := 0
  deriving DecidableEq, Repr, Inhabited

/-- Command intake (04) (DESIGN CHOICE, log 27). -/
structure Cmd where
  ctxs : Tbl Ctx := []
  ctxGen : Tbl Nat := []
  fseq : Nat := 0
  queues : Tbl Queue := []
  qgen : Tbl Nat := []
  oqs : Tbl Oq := []
  ctrls : Tbl Ctrl := []
  cands : List CometCand := []
  streams : Tbl CometStream := []
  nextStream : Nat := 0
  cometStamp : Nat := 0
  dweRecorded : Nat := 0
  fetchStopAll : Bool := false
  activationPause : Bool := false
  deriving DecidableEq, Repr, Inhabited

/-- The whole block. `pending` is the queue of waiting commands, first in first out; `free` counts the free values drawn
(DESIGN CHOICE, log 3); `host` is the model's record of what left the device (DESIGN CHOICE, log 4); `epoch` is SLI_EPOCH. -/
structure State where
  pending : List Instr := []
  free : Nat := 0
  host : HostRec := {}
  epoch : Nat := 0
  pat : PatSt := {}
  isl : Tbl Isl := []
  routes : Tbl RouteSlot := []
  dramMargin : Tbl Nat := []
  ports : Tbl Port := []
  trickle : Trickle := {}
  cmd : Cmd := {}
  zon : Zon := {}
  med : Media := {}
  mlf : Mlf := {}
  cpx : Cpx := {}
  wvf : Tbl Half := []
  bpm : Bpm := {}
  sli : Tbl Sli := []
  sec : Sec := {}
  mic : Mic := {}
  flt : Flt := {}
  ctrs : Tbl Ctr := []
  grps : Tbl CtrGrp := []
  pwr : Pwr := {}
  thm : Thm := {}
  age : Age := {}
  cnv : Cnv := {}
  fwu : Fwu := {}
  glb : Glb := {}
  sb : Sb := {}
  deriving DecidableEq, Repr, Inhabited

/-- The machine at the release of power, before POWER_ON has run: every register at the reset value the spec prints;
every P or F value at 0 or empty until POWER_ON loads it (DESIGN CHOICE, log 1). AON is on (R378). Slice 0 exists (R305). -/
def State.reset : State :=
  { isl := [(0, { dstate := .on, avail := .available })]
    sli := [(0, { state := .created })] }

end Sys2Proof.Machine
end

