-- ==== Sys2Proof/WellFormed.lean ====
section
/-! DEFINITION. Which commands name units that exist: islands 0 to 71, ports 0 and 1, slices 0 to 2,047, contexts 0 to
65,535 and so on. The meanings test the same ranges: outside them a command changes nothing (DESIGN CHOICE, log 23), and a register write beyond BAR0 answers
the fault outsideBar0 (R71). -/

namespace Sys2Proof

def islOk (i : Nat) : Bool := i < 72
def portOk (p : Nat) : Bool := p < 2
def sliceOk (s : Nat) : Bool := s < 2048
def ctxOk (c : Nat) : Bool := c < 65536
def dqOk (q : Nat) : Bool := q ≤ 18432
def dieOk (d : Nat) : Bool := d < 2048
def bayOk (b : Nat) : Bool := b < 16
def chanOk (c : Nat) : Bool := c < 64
def bankOk (b : Nat) : Bool := b < 4
def nsOk (n : Nat) : Bool := 1 ≤ n && n ≤ 1024
def setOk (s : Nat) : Bool := s < 64
def modOk (m : Nat) : Bool := m < 4
def keyOk (k : Nat) : Bool := k < 2064
def srcOk (s : Nat) : Bool := s < 1024
def portSliceOk (p s : Nat) : Bool := portOk p && sliceOk s

/-- Who issues an array command exists. -/
def issuerOk : ArrayIssuer → Bool
  | .host p => portOk p
  | .cores => true
  | .updateEngine => true
  | .patternLoader => true

/-- A dispatch request names a context or a die that exists. -/
def dispatchOk : DispatchReq → Bool
  | .read c _ => ctxOk c
  | .programRow _ => true
  | .landing _ => true
  | .erase d _ => dieOk d
  | .patrol _ => true

/-- A pool request comes from a context that exists. -/
def askerOk : PoolAsker → Bool
  | .command c => ctxOk c
  | .compute c => ctxOk c
  | .internal _ => true

/-- A requester exists. -/
def requesterOk : Requester → Bool
  | .ctrl s p => sliceOk s && portOk p
  | .mctp e => e < 256

/-- An optional unit. -/
def optOk (f : Nat → Bool) : Option Nat → Bool
  | none => true
  | some v => f v

/-- Every unit a command names exists. -/
def Instr.wellFormed : Instr → Bool
  | .registerWrite port addr width _ => portOk port && decide (addr < 2 ^ 29) && decide (1 ≤ width) && decide (width ≤ 64)
  | .islandTransfer t => islOk t.src && islOk t.dst && optOk ctxOk t.ctx
  | .operatingPointChange isl _ => islOk isl
  | .epochStart _ => true
  | .dramMarginTrack ch _ => decide (ch < 32)
  | .routeBindingComplete slot => decide (slot < 4096)
  | .doorbellWrite port slice qid _ _ => portSliceOk port slice && decide (qid < 1536)
  | .sqFetch dq _ => dqOk dq
  | .sqEntryReadFail dq => dqOk dq
  | .hostReadTimeout c => ctxOk c
  | .cometStreamTimeout st => decide (st < 4096)
  | .rangeLockRelease c => ctxOk c
  | .routeSeat c => ctxOk c
  | .mediaDispatch r => dispatchOk r
  | .dieOperationComplete die _ => dieOk die
  | .readDeadlineExpire c _ _ => ctxOk c
  | .dieReadyTimeout die _ => dieOk die
  | .hostDataTransferDone c _ => ctxOk c
  | .writeBufferRoom c => ctxOk c
  | .commandCommit c => ctxOk c
  | .completionPost c => ctxOk c
  | .flush c => ctxOk c
  | .write c => ctxOk c
  | .read c => ctxOk c
  | .writeUncorrectable c => ctxOk c
  | .compare c => ctxOk c
  | .writeZeroes c => ctxOk c
  | .datasetManagement c _ => ctxOk c
  | .verifyCommand c => ctxOk c
  | .ioManagementReceive c => ctxOk c
  | .ioManagementSend c _ => ctxOk c
  | .copy c _ => ctxOk c
  | .zoneAppend c => ctxOk c
  | .zoneOpen c => ctxOk c
  | .zoneClose c => ctxOk c
  | .zoneFinish c => ctxOk c
  | .zoneReset c => ctxOk c
  | .zoneOffline c => ctxOk c
  | .zoneManagementReceive c => ctxOk c
  | .zoneFinishRecommend n _ => nsOk n
  | .zoneControllerFinish n _ => nsOk n
  | .abort c => ctxOk c
  | .createIoSq c => ctxOk c
  | .createIoCq c => ctxOk c
  | .deleteIoSq c => ctxOk c
  | .deleteIoCq c => ctxOk c
  | .getLogPage c => ctxOk c
  | .identify c => ctxOk c
  | .setFeatures c _ => ctxOk c
  | .getFeatures c => ctxOk c
  | .powerStateEntryTimeout => true
  | .powerStateReached => true
  | .asynchronousEventRequest c => ctxOk c
  | .namespaceCreate c _ => ctxOk c
  | .namespaceDelete c => ctxOk c
  | .namespaceAttachment c _ => ctxOk c
  | .directiveSend c => ctxOk c
  | .directiveReceive c => ctxOk c
  | .nvmeMiSend c _ => ctxOk c
  | .nvmeMiReceive c _ => ctxOk c
  | .formatNvm c => ctxOk c
  | .sanitize c => ctxOk c
  | .sessionChallenge c => ctxOk c
  | .sessionOpen c _ => ctxOk c
  | .sessionClose c => ctxOk c
  | .challengeExpire r => requesterOk r
  | .keyLockoutExpire key => keyOk key
  | .sliceCreate c _ => ctxOk c
  | .sliceReset c => ctxOk c
  | .sliceRemove c => ctxOk c
  | .setKey c _ => ctxOk c
  | .clearKey c => ctxOk c
  | .sliceResetComplete slice => sliceOk slice
  | .resetDrainTimeout slice isl _ => sliceOk slice && islOk isl
  | .controllerEnable port slice _ => portSliceOk port slice
  | .controllerReset port slice => portSliceOk port slice
  | .shutdownNotification port slice => portSliceOk port slice
  | .patternLoadTransfer c _ => ctxOk c
  | .patternLoadCommit c => ctxOk c
  | .patternLoadErase c => ctxOk c
  | .patternLoadIdleExpire => true
  | .panelReloadTransfer c _ => ctxOk c
  | .panelReloadApply c => ctxOk c
  | .reloadDrainComplete _ => true
  | .reloadAbandon => true
  | .portOwnershipQuery c => ctxOk c
  | .portOwnershipRelease c => ctxOk c
  | .portOwnershipAcquire c => ctxOk c
  | .portOwnershipTakeover c => ctxOk c
  | .setSharedRead c => ctxOk c
  | .clearSharedRead c => ctxOk c
  | .setFencingKey c => ctxOk c
  | .takeoverLockoutExpire ns => nsOk ns
  | .marginPlanRun c _ => ctxOk c
  | .marginPlanReport c => ctxOk c
  | .firmwareImageDownload c _ => ctxOk c
  | .firmwareCommitApply c _ => ctxOk c
  | .firmwareCommitApplyNext c _ => ctxOk c
  | .firmwareCommitMarkNext c => ctxOk c
  | .firmwareCommitActivate c _ => ctxOk c
  | .activationTimeout => true
  | .stagingLockIdleExpire => true
  | .fwuAbort => true
  | .knownGoodTimer => true
  | .migrationWindowEnd => true
  | .job c _ _ _ => ctxOk c
  | .jobTimeQuotaExpire c => ctxOk c
  | .engineUnitComplete c _ => ctxOk c
  | .computeMemoryAllocate c => ctxOk c
  | .computeMemoryFree c => ctxOk c
  | .computeFreeDrained slice handle => sliceOk slice && decide (handle < 65536)
  | .programLoadTransfer c _ => ctxOk c
  | .programLoadCommit c => ctxOk c
  | .programLoadDiscard c => ctxOk c
  | .programUnload c => ctxOk c
  | .programUnloadDrained slice handle => sliceOk slice && decide (handle < 65536)
  | .coresGranted c => ctxOk c
  | .syscallExit core => decide (core < 128)
  | .syscallFail core _ _ => decide (core < 128)
  | .syscallEmit core _ => decide (core < 128)
  | .syscallViewOpen core _ _ _ _ => decide (core < 128)
  | .syscallViewNext core _ => decide (core < 128)
  | .viewChunkArrive core port _ => decide (core < 128) && decide (port < 8)
  | .syscallViewRelease core _ _ => decide (core < 128)
  | .syscallExtentLen core _ => decide (core < 128)
  | .syscallCmMap core _ _ _ => decide (core < 128)
  | .syscallCmUnmap core _ => decide (core < 128)
  | .syscallHostRead core _ _ _ => decide (core < 128)
  | .syscallHostWrite core _ _ _ _ => decide (core < 128)
  | .syscallBarrier core => decide (core < 128)
  | .syscallSetCounts core _ _ => decide (core < 128)
  | .programTrap core _ _ _ => decide (core < 128)
  | .weaveStep half weave _ => decide (half < 2) && decide (weave < 16)
  | .atsInvalidation port _ _ => portOk port
  | .frameAllocate cls _ slice who => decide (cls < 6) && sliceOk slice && askerOk who
  | .frameShare _ _ _ => true
  | .frameFree _ _ => true
  | .frameOwnershipPass _ _ _ => true
  | .poolAudit => true
  | .shareSet slice => sliceOk slice
  | .shareQuery slice => sliceOk slice
  | .relay slice => sliceOk slice
  | .mailboxSend slice port _ => portSliceOk port slice
  | .mailboxAck slice port _ => portSliceOk port slice
  | .sliMgrPasidWrite _ _ => true
  | .sharedKeyConfig cls _ => decide (cls < 16)
  | .tableReplayComplete _ _ _ => true
  | .dmaChannelRestart c _ => ctxOk c
  | .mergeBufferFlush isl _ _ => islOk isl
  | .dramBackgroundFill j _ => decide (j < 8)
  | .flipArm _ _ _ _ _ _ => true
  | .faultEvent ev => srcOk ev.src
  | .faultHandlingEnd src => srcOk src
  | .islandResetEnd isl => islOk isl
  | .faultAck _ => true
  | .safeStateRelease _ => true
  | .fltRelease _ _ => true
  | .watchdogExpire => true
  | .ctlRestart => true
  | .counterEvent sel slice isl _ => decide (sel < 2048) && optOk sliceOk slice && optOk islOk isl
  | .counterClear ctr => decide (ctr < 1024)
  | .counterSnapshot grp => decide (grp < 64)
  | .counterFreeze grp => decide (grp < 64)
  | .counterUnfreeze grp => decide (grp < 64)
  | .domainIdleTimeout isl => islOk isl
  | .domainEntryComplete isl => islOk isl
  | .domainWake isl cause => islOk isl && decide (cause < 8)
  | .domainWakeComplete isl _ => islOk isl
  | .dramDeepSleep j => decide (j < 8)
  | .floorWrite isl _ => islOk isl
  | .keeperModeRequest _ => true
  | .keeperEstimate => true
  | .keeperLpReentry => true
  | .brownOut => true
  | .padHoldRelease isl _ => islOk isl
  | .sidebandAddressMatch => true
  | .wakeTimerExpire => true
  | .sensorConversion k _ => decide (k < 48)
  | .sensorHoldExpire k => decide (k < 48)
  | .sensorRetest k _ => decide (k < 48)
  | .sensorRetestEnd k => decide (k < 48)
  | .thermalShutdownPowerOff => true
  | .dieTemperatureRead die _ => dieOk die
  | .pathMonitorSample isl _ => islOk isl
  | .marginReplanDue _ => true
  | .pendingIslandMeasure isl _ => islOk isl
  | .hourlyRecordSave => true
  | .wearSpreadCheck set => setOk set
  | .relocationSwitch _ => true
  | .journalCheckpoint _ => true
  | .channelRetune ch _ => chanOk ch
  | .channelRetrain ch _ _ => chanOk ch
  | .clusterSchedWrite k _ _ _ => bayOk k
  | .bayInsertion b => bayOk b
  | .bayPresenceDebounced b => bayOk b
  | .bayPwrgdRise b => bayOk b
  | .bayPowerTimeout b => bayOk b
  | .bayScanComplete b _ _ => bayOk b
  | .baySurpriseRemoval b _ => bayOk b
  | .bayPwrgdFallSafe b => bayOk b
  | .bayAttention b => bayOk b
  | .bayRemove b _ => bayOk b
  | .bayRemovalDrained b => bayOk b
  | .bayAccept b => bayOk b
  | .bayReject b => bayOk b
  | .bayRetryPower b => bayOk b
  | .pfailAssert _ => true
  | .linkUp p _ _ => portOk p
  | .linkDown p => portOk p
  | .moduleLaneFailure m _ _ => modOk m
  | .ucieRecalibration m _ => modOk m
  | .trickleEnter port _ => portOk port
  | .trickleExit port _ => portOk port
  | .trickleEntryComplete => true
  | .trickleExitComplete => true
  | .detachRequest p _ => portOk p
  | .detachQuiesced p _ => portOk p
  | .detachFlushed p => portOk p
  | .leaseBeat p via _ => portOk p && portOk via
  | .leaseExpire p => portOk p
  | .bar2MapWrite p i _ _ _ _ _ => portOk p && decide (i < 64)
  | .bar2Access p _ _ _ => portOk p
  | .oqConfig oq _ _ _ => decide (oq < 64)
  | .oqResume port slice _ => portSliceOk port slice
  | .zoneLimitConfig n _ _ => nsOk n
  | .jobLanesConfig _ => true
  | .computeLimitConfig slice _ => sliceOk slice
  | .atsGrant slice _ => sliceOk slice
  | .wearLevelConfig _ _ _ => true
  | .spareThresholdConfig _ => true
  | .interruptUnmask port slice _ => portSliceOk port slice
  | .fetchHold slice => sliceOk slice
  | .fetchRelease slice => sliceOk slice
  | .arrayProgram who bank page data => issuerOk who && bankOk bank && decide (page < 65536) && data.length == 256
  | .arrayErase who bank sector => issuerOk who && bankOk bank && decide (sector < 256)
  | .arrayIdentify who bank => issuerOk who && bankOk bank
  | .arrayAbortReset who bank => issuerOk who && bankOk bank
  | .arraySequenceTimeout bank => bankOk bank
  | .arrayOperationComplete bank _ => bankOk bank
  | .arrayScrub _ _ => true
  | .powerOn _ => true
  | .adminReady => true
  | .mediaReady => true
  | .deviceResetAssert => true
  | .deviceResetRelease _ => true
  | .vreqAlert _ => true
  | .vreqAlertTimeout => true
  | .vddSramMeasure _ => true
  | .powerGoodLoss input => decide (input < 3)
  | .refclkLoss => true
  | .sidebandMessage eid _ _ => decide (eid < 256)
  | .pcieConfigWrite port _ _ => portOk port
  | .portHotReset port => portOk port
  | .ruTimeLimitExceeded set _ => setOk set
  | .retentionAgeCheck die _ _ => dieOk die
  | .interruptCoalescingTime dq => dqOk dq

end Sys2Proof
end

