-- ==== Sys2Proof/Machine/Ops.lean ====
section
/-! DEFINITION. The shared operations over the state: changing one unit's record, WS actions (R8), free values, time,
interrupts and asynchronous events, allocation of small numbers. -/

namespace Sys2Proof.Machine

abbrev Out := Host.Outcome State Fault Refusal

/-- What a command answers that names a unit: its effect where the device has the unit. A unit the device does not have takes
no command and raises no event, so such a command reaches nothing and changes nothing (DESIGN CHOICE, log 23). -/
def guardUnit (s : State) (ok : Bool) (t : State) : Out := .next (if ok then t else s)

/-! Records of one unit. -/

def State.isle (s : State) (i : Nat) : Isl := tval s.isl i
def State.setIsl (s : State) (i : Nat) (v : Isl) : State := { s with isl := tset s.isl i v }
def State.modIsl (s : State) (i : Nat) (f : Isl → Isl) : State := s.setIsl i (f (s.isle i))

def State.port (s : State) (p : Nat) : Port := tval s.ports p
def State.setPort (s : State) (p : Nat) (v : Port) : State := { s with ports := tset s.ports p v }
def State.modPort (s : State) (p : Nat) (f : Port → Port) : State := s.setPort p (f (s.port p))

def State.route (s : State) (r : Nat) : RouteSlot := tval s.routes r
def State.setRoute (s : State) (r : Nat) (v : RouteSlot) : State := { s with routes := tset s.routes r v }
def State.modRoute (s : State) (r : Nat) (f : RouteSlot → RouteSlot) : State := s.setRoute r (f (s.route r))

def State.slc (s : State) (n : Nat) : Sli := tval s.sli n
def State.setSli (s : State) (n : Nat) (v : Sli) : State := { s with sli := tset s.sli n v }
def State.modSli (s : State) (n : Nat) (f : Sli → Sli) : State := s.setSli n (f (s.slc n))

def State.ctx? (s : State) (c : Nat) : Option Ctx := tget s.cmd.ctxs c
def State.ctx (s : State) (c : Nat) : Ctx := tval s.cmd.ctxs c
def State.setCtx (s : State) (c : Nat) (v : Ctx) : State := { s with cmd := { s.cmd with ctxs := tset s.cmd.ctxs c v } }
def State.modCtx (s : State) (c : Nat) (f : Ctx → Ctx) : State := s.setCtx c (f (s.ctx c))
def State.delCtx (s : State) (c : Nat) : State := { s with cmd := { s.cmd with ctxs := tdel s.cmd.ctxs c } }

def State.queue (s : State) (q : Nat) : Queue := tval s.cmd.queues q
def State.setQueue (s : State) (q : Nat) (v : Queue) : State := { s with cmd := { s.cmd with queues := tset s.cmd.queues q v } }
def State.modQueue (s : State) (q : Nat) (f : Queue → Queue) : State := s.setQueue q (f (s.queue q))

/-- QGEN of a device queue index advances (Table 16-6). -/
def State.bumpQ (s : State) (dq n : Nat) : State := { s with cmd := { s.cmd with qgen := tset s.cmd.qgen dq (tgetD s.cmd.qgen dq 0 + n) } }

def State.oq (s : State) (k : Nat) : Oq := tval s.cmd.oqs k
def State.setOq (s : State) (k : Nat) (v : Oq) : State := { s with cmd := { s.cmd with oqs := tset s.cmd.oqs k v } }

/-- The key of the controller of a slice on a port: slice 0 has one on each port (R73). -/
def ctrlKey (port slice : Nat) : Nat := port * 2048 + slice

/-- The controller identifier of a slice on a port (R73), and the slice of one. -/
def cntlid (port slice : Nat) : Nat := if slice = 0 ∧ port = 1 then 2048 else slice
def cntSlice (k : Nat) : Nat := if k = 2048 then 0 else k

/-- The slices a namespace is attached to. -/
def Ns.slices (n : Ns) : List Nat := (n.attached.map cntSlice).eraseDups

def State.ctrl (s : State) (k : Nat) : Ctrl := tval s.cmd.ctrls k
def State.setCtrl (s : State) (k : Nat) (v : Ctrl) : State := { s with cmd := { s.cmd with ctrls := tset s.cmd.ctrls k v } }
def State.modCtrl (s : State) (k : Nat) (f : Ctrl → Ctrl) : State := s.setCtrl k (f (s.ctrl k))

def State.ns? (s : State) (n : Nat) : Option Ns := tget s.zon.nss n
def State.ns (s : State) (n : Nat) : Ns := tval s.zon.nss n
def State.setNs (s : State) (n : Nat) (v : Ns) : State := { s with zon := { s.zon with nss := tset s.zon.nss n v } }
def State.modNs (s : State) (n : Nat) (f : Ns → Ns) : State := s.setNs n (f (s.ns n))

def State.zent (s : State) (e : Nat) : ZEnt := tval s.zon.ents e
def State.setZent (s : State) (e : Nat) (v : ZEnt) : State := { s with zon := { s.zon with ents := tset s.zon.ents e v } }
def State.modZent (s : State) (e : Nat) (f : ZEnt → ZEnt) : State := s.setZent e (f (s.zent e))

/-- A zone's projection; a zone with none recorded projects its committed state (R155). -/
def State.proj (s : State) (e : Nat) : ZProj :=
  (tget s.zon.proj e).getD { state := (s.zent e).state, rp := (s.zent e).wp, opener := (s.zent e).opener }
def State.setProj (s : State) (e : Nat) (v : ZProj) : State := { s with zon := { s.zon with proj := tset s.zon.proj e v } }
def State.delProj (s : State) (e : Nat) : State := { s with zon := { s.zon with proj := tdel s.zon.proj e } }

def State.mapEnt (s : State) (k : Nat) : MapEnt := tval s.zon.map k
def State.setMap (s : State) (k : Nat) (v : MapEnt) : State := { s with zon := { s.zon with map := tset s.zon.map k v } }

def State.die (s : State) (d : Nat) : Die := tval s.med.dies d
def State.setDie (s : State) (d : Nat) (v : Die) : State := { s with med := { s.med with dies := tset s.med.dies d v } }
def State.modDie (s : State) (d : Nat) (f : Die → Die) : State := s.setDie d (f (s.die d))

def State.chan (s : State) (c : Nat) : Chan := tval s.med.chans c
def State.setChan (s : State) (c : Nat) (v : Chan) : State := { s with med := { s.med with chans := tset s.med.chans c v } }
def State.modChan (s : State) (c : Nat) (f : Chan → Chan) : State := s.setChan c (f (s.chan c))

def State.clu (s : State) (k : Nat) : Clu := tval s.med.clus k
def State.setClu (s : State) (k : Nat) (v : Clu) : State := { s with med := { s.med with clus := tset s.med.clus k v } }
def State.modClu (s : State) (k : Nat) (f : Clu → Clu) : State := s.setClu k (f (s.clu k))

def State.bay (s : State) (b : Nat) : Bay := tval s.med.bays b
def State.setBay (s : State) (b : Nat) (v : Bay) : State := { s with med := { s.med with bays := tset s.med.bays b v } }
def State.modBay (s : State) (b : Nat) (f : Bay → Bay) : State := s.setBay b (f (s.bay b))

/-- The key of block `k` of die `d`. -/
def blkKey (d k : Nat) : Nat := d * 2 ^ 24 + k

def State.blk (s : State) (d k : Nat) : Blk := tval s.med.blks (blkKey d k)
def State.modBlk (s : State) (d k : Nat) (f : Blk → Blk) : State :=
  { s with med := { s.med with blks := tset s.med.blks (blkKey d k) (f (s.blk d k)) } }

def State.row? (s : State) (r : Nat) : Option SRow := tget s.med.rows r
def State.setRow (s : State) (r : Nat) (v : SRow) : State := { s with med := { s.med with rows := tset s.med.rows r v } }
def State.delRow (s : State) (r : Nat) : State := { s with med := { s.med with rows := tdel s.med.rows r } }

def State.setLife (s : State) (st : Nat) : SetLife := tval s.med.sets st
def State.modLife (s : State) (st : Nat) (f : SetLife → SetLife) : State :=
  { s with med := { s.med with sets := tset s.med.sets st (f (s.setLife st)) } }

def State.job? (s : State) (c : Nat) : Option Job := tget s.cpx.jobs c
def State.job (s : State) (c : Nat) : Job := tval s.cpx.jobs c
def State.setJob (s : State) (c : Nat) (j : Job) : State := { s with cpx := { s.cpx with jobs := tset s.cpx.jobs c j } }
def State.modJob (s : State) (c : Nat) (f : Job → Job) : State := s.setJob c (f (s.job c))
def State.delJob (s : State) (c : Nat) : State := { s with cpx := { s.cpx with jobs := tdel s.cpx.jobs c } }

/-- The key of an allocation or program: slice and handle. -/
def allocKey (slice handle : Nat) : Nat := slice * 65536 + handle
def State.alloc? (s : State) (sl h : Nat) : Option Alloc := tget s.cpx.allocs (allocKey sl h)
def State.setAlloc (s : State) (sl h : Nat) (a : Alloc) : State :=
  { s with cpx := { s.cpx with allocs := tset s.cpx.allocs (allocKey sl h) a } }
def State.delAlloc (s : State) (sl h : Nat) : State :=
  { s with cpx := { s.cpx with allocs := tdel s.cpx.allocs (allocKey sl h) } }

/-! Time. -/

/-- Power-on time in milliseconds and microseconds: an epoch is 100 µs (R37, R311). -/
def State.nowMs (s : State) : Nat := s.epoch / 10
def State.nowUs (s : State) : Nat := s.epoch * 100

/-- HLK_LEASE[p].LIVE (R88; DEDUCED, log 172). -/
def State.leaseLive (s : State) (p : Nat) : Bool := (s.port p).live && decide (s.nowMs < (s.port p).leaseEnd)

/-- Milliseconds in an hour and in a day. -/
def hourMs : Nat := 3600000
def dayMs : Nat := 86400000

/-! Free values (DESIGN CHOICE, log 3). -/

/-- DESIGN CHOICE, log 3. -/
def State.drawn (s : State) : State := { s with free := s.free + 1 }
def drawNat (s : State) : Nat × State := (Config.freeNat s.free, s.drawn)
def drawBool (s : State) : Bool × State := (Config.freeBool s.free, s.drawn)

/-- `n` free bytes. -/
def drawBytes : Nat → State → List Byte × State
  | 0, s => ([], s)
  | n + 1, s =>
    let r := drawBytes n s.drawn
    (Config.freeByte s.free :: r.1, r.2)

/-! WS actions (R8). -/

/-- Is the action running? A write that meets it running keeps every WS field and makes the action end as refused. -/
def WsAct.busy (a : WsAct) : Bool := a.act == .running

/-- A write that meets a running action. -/
def WsAct.meet (a : WsAct) : WsAct := { a with late := true }

/-- The state of an action that ends at its write. -/
def wsNow (ok : Bool) : WsAct := { act := if ok then .done else .refused }

/-- A refused write that leaves the setting in force as it was: the WS fields read the value last written (Table 0-4, DEDUCED, log 130). -/
def wsShown (v : Nat) : WsAct := { act := .refused, shown := some v }

/-- What the WS fields of a register read, `v` being the setting in force. -/
def WsAct.view (a : WsAct) (v : Nat) : Nat := a.shown.getD v

/-- The state of an action at its start. -/
def wsRun : WsAct := { act := .running }

/-- The end of a running action. -/
def WsAct.finish (a : WsAct) (ok : Bool) : WsAct := { act := if ok && !a.late then .done else .refused }

/-- The two bits an _ACT field reads. -/
def Act.bits : Act → Nat
  | .idle => 0
  | .running => 1
  | .done => 2
  | .refused => 3

/-- LSTATE's encoding. -/
def LState.bits : LState → Nat
  | .down => 0
  | .training => 1
  | .up => 2
  | .trickle => 3
  | .retraining => 4
  | .detaching => 5
  | .detached => 6

/-! The record of what left the device (DESIGN CHOICE, log 4). -/

/-- The PASID of a slice's requests through a port: none while the port's PASID Enable is 0 (R76, R310). -/
def State.dmaPasid (s : State) (p sl : Nat) : Option Nat :=
  if (s.port p).pasidEn then some (if sl = 0 then s.sec.pasidEff else (s.slc sl).pasid) else none

/-- Does a port's link carry TLPs, be they held for a while (R69, R82)? -/
def Port.carries (x : Port) : Bool := x.lstate == .up || x.lstate == .trickle || x.lstate == .retraining || x.lstate == .detaching

def State.postIrq (s : State) (i : Irq) : State := { s with host := { s.host with irqs := s.host.irqs ++ [i] } }

/-- An interrupt write toward the host: while the port's TLPs are held it waits behind them; a port whose link is down or detached
sends none (R69, R84, R86) (DEDUCED, log 170). -/
def State.emitIrq (s : State) (p sl v : Nat) : State :=
  let pt := s.port p
  let i : Irq := { port := p, slice := sl, vector := v, pasid := s.dmaPasid p sl }
  if !pt.carries then s
  else if pt.tlpHeld then s.setPort p { pt with heldIrqs := pt.heldIrqs ++ [i] }
  else s.postIrq i

/-- Data of a context toward host memory. -/
def State.postData (s : State) (c : Nat) (d : OutData) : State :=
  match d with
  | .none => s
  | _ =>
    let x := s.ctx c
    let w : HostWrite := { ctx := c, data := d, pasid := s.dmaPasid x.port x.slice }
    if (s.port x.port).tlpHeld then s.modPort x.port (fun p => { p with heldData := p.heldData ++ [w] })
    else { s with host := { s.host with data := s.host.data ++ [w] } }

/-- A job's result record toward host memory (R239). -/
def State.postResult (s : State) (c addr : Nat) (b : List Byte) : State :=
  let x := s.ctx c
  let w : HostResult := { addr := addr, bytes := b, pasid := s.dmaPasid x.port x.slice }
  if (s.port x.port).tlpHeld then s.modPort x.port (fun p => { p with heldResults := p.heldResults ++ [w] })
  else { s with host := { s.host with results := s.host.results ++ [w] } }

/-- The held TLPs of a port leave, data before the interrupts that follow it (R69, R80, R82). -/
def State.releaseTlps (s : State) (p : Nat) : State :=
  let x := s.port p
  ({ s with host := { s.host with data := s.host.data ++ x.heldData, results := s.host.results ++ x.heldResults
                                  irqs := s.host.irqs ++ x.heldIrqs } }).setPort p
    { x with tlpHeld := false, heldData := [], heldResults := [], heldIrqs := [] }

/-! Interrupts (R78 to R80). In the safe state nothing leaves any port (R366, R367). -/

/-- A message that comes due at an entry: sent, or pending while the entry is masked. -/
def MsgEnt.due (e : MsgEnt) (masked : Bool) : MsgEnt := if e.mask || masked then { e with pend := true } else e

/-- Does an interrupt message of this entry leave now? -/
def State.irqOpen (s : State) (e : MsgEnt) (masked : Bool) : Bool := !e.mask && !masked && !s.flt.safe

/-- Vector `v` of slice `sl` on port `p` comes due. Slice 0 uses the port's MSI-X table, every other slice its entries of
the message store. -/
def State.sendIrq (s : State) (p sl v : Nat) : State :=
  if sl = 0 then
    let pt := s.port p
    let e : MsgEnt := tval pt.msix v
    let m := pt.msixMask || !pt.msixEn || s.flt.safe
    let s1 := s.setPort p { pt with msix := tset pt.msix v (e.due m) }
    if s.irqOpen e (pt.msixMask || !pt.msixEn) then s1.emitIrq p 0 v else s1
  else
    let q := s.slc sl
    let e : MsgEnt := tval q.msgs v
    let s1 := s.setSli sl { q with msgs := tset q.msgs v (e.due s.flt.safe) }
    if s.irqOpen e false then s1.emitIrq p sl v else s1

/-! Ports and modules (R68). -/

/-- Modules of a port (R68). -/
def State.portMods (s : State) (p : Nat) : List Nat :=
  if s.pat.eff.host.split = 1 then [2 * p, 2 * p + 1] else [0, 1, 2, 3]

/-- Port of a module. -/
def State.modPortOf (s : State) (m : Nat) : Nat := if s.pat.eff.host.split = 1 then m / 2 else 0

/-- The controllers of every slice live on a port. -/
def State.portCtrls (s : State) (p : Nat) : List Nat := (s.cmd.ctrls.filter (fun e => e.1 / 2048 == p)).map (·.1)

/-- The ports that exist (R68). -/
def State.portList (s : State) : List Nat := if s.pat.eff.host.split = 1 then [0, 1] else [0]

/-- The keys of the enabled manager controllers (R73). -/
def State.managers (s : State) : List Nat := (s.portList.map (fun p => ctrlKey p 0)).filter (fun k => (s.ctrl k).en)

/-- An interrupt to every enabled manager controller through its own port (R73). -/
def State.managerIrq (s : State) (v : Nat) : State :=
  s.managers.foldl (fun t k => t.sendIrq (k / 2048) 0 v) s

/-! Asynchronous events (R130, Table 4-13). -/

/-- Give waiting events to waiting requests: one event each, its type masked until its log page is read. Nothing is posted
in the safe state (R367) or once CSTS.CFS is 1 (R96). The request's outcome is fixed and it goes to stage 14. -/
def State.giveAen (s : State) (k : Nat) : State :=
  let c := s.ctrl k
  if s.flt.safe || c.cfs then s
  else match c.aers, c.events.find? (fun e => !c.maskedTypes.contains e.typ) with
    | a :: rest, some e =>
      let s1 := s.setCtrl k { c with aers := rest, events := c.events.erase e, maskedTypes := insertNat c.maskedTypes e.typ }
      s1.modCtx a (fun x => { x with stage := 14, committed := true, wait := 0
                                     outc := some (okOut (e.typ + e.info * 256 + e.lid * 65536)) })
    | _, _ => s

/-- Does Asynchronous Event Configuration let an event through (R132)? Bits 0 to 4 are the critical warnings, bit 8 namespace
attribute notices, bit 27 zone descriptor notices, as NVMe numbers them; every other event passes (PRESUMED, log 19). -/
def aecAllows (aec : Nat) (e : Aen) : Bool :=
  if e.typ = 1 then (if e.info = 2 then bitAt aec 0 else if e.info = 1 then bitAt aec 1 else bitAt aec 2 || bitAt aec 3)
  else if e.typ = 2 then (if e.info = 0 then bitAt aec 8 else if e.info = 0xEF then bitAt aec 27 else true)
  else true

/-- An event arises at a controller that is enabled. -/
def State.aen (s : State) (k : Nat) (e : Aen) : State :=
  if (s.ctrl k).en && aecAllows (s.ctrl k).aec e then (s.modCtrl k (fun c => { c with events := c.events ++ [e] })).giveAen k else s

/-- Event types: SMART / health 1, notice 2, vendor specific 7. -/
def aenHealth : Nat := 1
def aenNotice : Nat := 2
def aenVendor : Nat := 7

/-- An event to every enabled manager controller. -/
def State.managerAen (s : State) (e : Aen) : State := s.managers.foldl (fun t k => t.aen k e) s

/-- The keys of the enabled controllers of a slice. -/
def State.sliceCtrls (s : State) (sl : Nat) : List Nat :=
  if sl = 0 then s.managers else ([ctrlKey (s.slc sl).port sl]).filter (fun k => (s.ctrl k).en)

/-- A SMART / health event to every enabled controller (Table 7-5, R411) (DEDUCED, log 32). -/
def State.healthAen (s : State) (info : Nat) : State :=
  s.cmd.ctrls.foldl (fun t e => t.aen e.1 { typ := aenHealth, info := info, lid := 0x02 }) s

def State.sliceAen (s : State) (sl : Nat) (e : Aen) : State := (s.sliceCtrls sl).foldl (fun t k => t.aen k e) s

/-! Counts. -/

/-- Counter `i` of a list of 64-bit counters, `n` more. -/
def cnt64 (l : List Nat) (i n : Nat) : List Nat := bumpAt l i 64 n

def State.chCnt (s : State) (ch k n : Nat) : State := s.modChan ch (fun c => { c with cnt := cnt64 c.cnt k n })
def State.clCnt (s : State) (k j n : Nat) : State := s.modClu k (fun c => { c with cnt := cnt64 c.cnt j n })
def State.sqCnt (s : State) (sl k n : Nat) : State := s.modSli sl (fun q => { q with sqstat := cnt64 q.sqstat k n })
def State.cpxCnt (s : State) (k n : Nat) : State := { s with cpx := { s.cpx with cnt := cnt64 s.cpx.cnt k n } }
def State.micCnt (s : State) (k n : Nat) : State := { s with mic := { s.mic with cnt := cnt64 s.mic.cnt k n } }
def State.bpmCnt (s : State) (k n : Nat) : State := { s with bpm := { s.bpm with cnt := cnt64 s.bpm.cnt k n } }
def State.relCnt (s : State) (k n : Nat) : State := { s with mlf := { s.mlf with relocCnt := cnt64 s.mlf.relocCnt k n } }
def State.lifeErr (s : State) (k n : Nat) : State := { s with mlf := { s.mlf with errors := cnt64 s.mlf.errors k n } }

/-- A fault event that another event causes: it waits for its FAULT_EVENT (DEDUCED, log 16). -/
def State.queueFault (s : State) (e : FaultEv) : State := { s with flt := { s.flt with raised := s.flt.raised ++ [e] } }

/-- Island availability (Table 1-1). -/
def State.islOn (s : State) (i : Nat) : Bool := (s.isle i).avail == .available
def State.islIsolated (s : State) (i : Nat) : Bool := (s.isle i).avail == .isolated

/-- Is unit `u` of an island isolated (R362)? -/
def State.unitIsolated (s : State) (i u : Nat) : Bool := s.islIsolated i || (s.isle i).isolatedUnits.contains u

/-- An island's activity budget in force (R37): the lower of the two. -/
def Isl.budget (i : Isl) : Nat := min i.capBudget i.thermBudget

end Sys2Proof.Machine
end

