-- ==== Sys2Proof/Machine/Operands.lean ====
section
/-! DEFINITION. Where the operands of a command lie: templates and shares of a slice, namespaces, zones, LBAs, units of a
block row, and the locations on the media (05 R138 to R147, 06 R177, 10 R306). -/

namespace Sys2Proof.Machine

/-! Slices. -/

/-- The template record a slice is bound to (R306); slice 0 holds the first record's values (R305). -/
def State.tmpl (s : State) (sl : Nat) : SliceTmpl :=
  let k := (s.slc sl).template
  match (s.pat.oldTmpls.getD []).find? (fun t => t.id == k) with
  | some t => t
  | none => (s.pat.eff.slices.find? (fun t => t.id == k)).getD (s.pat.eff.slices.headD {})

/-- The shares a template gives. -/
def tmplShares (t : SliceTmpl) : Shares :=
  { mediaW := t.mediaW, computeW := t.computeW, inflight := t.inflight, specMib := t.specMib, comet := t.comet }

/-- Is a slice live: in a state other than FREE (R310)? -/
def State.sliceLive (s : State) (sl : Nat) : Bool := (s.slc sl).state != .free

/-- FREE, RESETTING or REMOVING. -/
def State.sliceGone (s : State) (sl : Nat) : Bool :=
  (s.slc sl).state == .free || (s.slc sl).state == .resetting || (s.slc sl).state == .removing

/-- Is slice `sl` live on port `p` (R73)? -/
def State.liveOn (s : State) (p sl : Nat) : Bool :=
  s.portList.contains p && (if sl = 0 then s.sliceLive 0 else s.sliceLive sl && (s.slc sl).port == p)

/-- Contexts a slice holds (R97). -/
def State.ctxCount (s : State) (sl : Nat) : Nat := tcount s.cmd.ctxs (fun _ c => c.slice == sl)

/-- The slice a requester's commands act for: the manager's for an MCTP endpoint. -/
def reqSlice : Requester → Nat
  | .ctrl sl _ => sl
  | .mctp _ => 0

/-- Does a requester hold an open session of a role (R327)? -/
def State.hasSession (s : State) (r : Requester) (role : Nat) : Bool := tany s.sec.sessions (fun _ x => x.who == r && x.role == role)

/-- A session of the issuer's role: manager for slice 0, tenant for a tenant, sideband for an endpoint (R130, R327). -/
def State.roleSession (s : State) : Requester → Bool
  | .ctrl sl p => s.hasSession (.ctrl sl p) (if sl = 0 then 0 else 1)
  | .mctp e => s.hasSession (.mctp e) 2

/-! Templates and block rows. -/

def State.stmpl? (s : State) (id : Nat) : Option StripeTmpl :=
  match s.pat.eff.stripe with
  | none => none
  | some m => m.tmpls.find? (fun t => t.id == id)

def State.stmpl (s : State) (id : Nat) : StripeTmpl := (s.stmpl? id).getD {}

/-- The key of a block row: template and block. -/
def rowKey (tmpl block : Nat) : Nat := tmpl * 2 ^ 22 + block
def rkTmpl (r : Nat) : Nat := r / 2 ^ 22
def rkBlock (r : Nat) : Nat := r % 2 ^ 22

/-- The key of unit `u` of a block row, and of stripe row `i` of it. -/
def unitKey (tmpl block u : Nat) : Nat := rowKey tmpl block * 2 ^ 32 + u
def ukRow (k : Nat) : Nat := k / 2 ^ 32
def ukUnit (k : Nat) : Nat := k % 2 ^ 32

/-- 4 KiB units that one die takes of a stripe row (R177). -/
def dieUnits (t : TypeRec) (mode : Nat) : Nat := t.planes * t.pageB * modeBits mode / 4096

/-- Data dies of a template. -/
def StripeTmpl.data (t : StripeTmpl) : Nat := t.width - t.parity

/-- Units of a stripe row and of a block row of template `id` in a mode. -/
def State.sruUnits (s : State) (id mode : Nat) : Nat :=
  let t := s.stmpl id
  match tmplType? s.pat.eff t with
  | none => 0
  | some ty => t.data * dieUnits ty mode

def State.rowUnits (s : State) (id mode : Nat) : Nat :=
  let t := s.stmpl id
  match tmplType? s.pat.eff t with
  | none => 0
  | some ty => rowBytes ty t.width t.parity mode / 4096

/-- The mode a block row is programmed in. -/
def State.rowMode (s : State) (rk : Nat) : Nat := (tval s.med.use rk).mode

/-- The stripe row that holds a unit, and the unit's place in it. -/
def State.srOf (s : State) (k : Nat) : Nat :=
  let n := s.sruUnits (rkTmpl (ukRow k)) (s.rowMode (ukRow k))
  ukRow k * 2 ^ 32 + (if n = 0 then 0 else ukUnit k / n)

def State.idxOf (s : State) (k : Nat) : Nat :=
  let n := s.sruUnits (rkTmpl (ukRow k)) (s.rowMode (ukRow k))
  if n = 0 then ukUnit k else ukUnit k % n

/-- The die that holds unit `i` of a stripe row (R177). -/
def tmplDie (t : StripeTmpl) (i : Nat) : Nat := t.dies.getD (if t.data = 0 then 0 else i % t.data) 0xFFFF

/-- Cells of a block row: its units, and from 2^31 on its parity cells, by template position and place in the die's block (R178). -/
def parCell (rk p i : Nat) : Nat := rk * 2 ^ 32 + 2 ^ 31 + p * 2 ^ 24 + i
def isPar (k : Nat) : Bool := decide (2 ^ 31 ≤ ukUnit k)

def State.unitDie (s : State) (k : Nat) : Nat :=
  let t := s.stmpl (rkTmpl (ukRow k))
  if isPar k then t.dies.getD ((ukUnit k - 2 ^ 31) / 2 ^ 24) 0xFFFF else tmplDie t (s.idxOf k)

/-- 4 KiB units that each die of a block row takes of a stripe row. -/
def State.rowShare (s : State) (rk : Nat) : Nat :=
  let t := s.stmpl (rkTmpl rk)
  match tmplType? s.pat.eff t with
  | none => 0
  | some ty => dieUnits ty (s.rowMode rk)

/-- The stripe row of its block row, the template position and the offset in the program unit of a cell (R177). -/
def State.cellIdx (s : State) (k : Nat) : Nat :=
  if isPar k then ukUnit k % 2 ^ 24 / max 1 (s.rowShare (ukRow k)) else s.srOf k % 2 ^ 32
def State.cellPos (s : State) (k : Nat) : Nat :=
  if isPar k then (ukUnit k - 2 ^ 31) / 2 ^ 24 else s.idxOf k % max 1 (s.stmpl (rkTmpl (ukRow k))).data
def State.cellOff (s : State) (k : Nat) : Nat :=
  if isPar k then ukUnit k % 2 ^ 24 % max 1 (s.rowShare (ukRow k)) else s.idxOf k / max 1 (s.stmpl (rkTmpl (ukRow k))).data

/-- The cell at a template position of a stripe row, at an offset. -/
def State.cellAt (s : State) (rk i p o : Nat) : Nat :=
  let d := (s.stmpl (rkTmpl rk)).data
  if p < d then rk * 2 ^ 32 + i * s.sruUnits (rkTmpl rk) (s.rowMode rk) + o * d + p else parCell rk p (i * s.rowShare rk + o)

/-- The line of the write buffer that holds a unit. -/
def State.lineAt (s : State) (k : Nat) : Option Line :=
  match s.row? (s.srOf k) with
  | none => none
  | some r => tget r.lines (s.idxOf k)

/-! Namespaces and zones. -/

/-- The class record of a namespace. -/
def State.clsRec (s : State) (c : Nat) : ZoneClass := ((patClasses s.pat.eff).find? (fun r => r.cls == c)).getD {}
def State.nsCls (s : State) (n : Nat) : ZoneClass := s.clsRec (s.ns n).cls

/-- Zone size in LBAs of a namespace. -/
def State.zsze (s : State) (n : Nat) : Nat := zoneSizeLbas (s.nsCls n)

/-- How many zones a namespace has. -/
def State.zoneCount (s : State) (n : Nat) : Nat := if s.zsze n = 0 then 0 else (s.ns n).nsze / s.zsze n

/-- The zone an LBA lies in, and its offset there. -/
def State.zoneOf (s : State) (n lba : Nat) : Nat := if s.zsze n = 0 then 0 else lba / s.zsze n
def State.zoneOff (s : State) (n lba : Nat) : Nat := if s.zsze n = 0 then 0 else lba % s.zsze n

/-- The zone table entry of zone `z` (R146). -/
def State.zoneEnt (s : State) (n z : Nat) : Nat := (s.ns n).extents.getD (z / 1024) 0 * 1024 + z % 1024

/-- The entries of a namespace's zones, in order. -/
def State.nsEnts (s : State) (n : Nat) : List Nat := (List.range (s.zoneCount n)).map (s.zoneEnt n)

/-- ZCAP in LBAs (Table 5-2). -/
def State.zcap (s : State) (e : Nat) : Nat :=
  let z := s.zent e
  zoneCapLbas s.pat.eff (s.clsRec z.cls) - z.capCut * 256

/-- A zone's block rows (R139). -/
def State.zoneR (s : State) (e : Nat) : Nat := zoneRows s.pat.eff (s.clsRec (s.zent e).cls)

/-- Units a zone takes of each of its rows: all of them, or its cut capacity spread evenly. -/
def State.zoneRowUnits (s : State) (e : Nat) : Nat :=
  let z := s.zent e
  if z.capCut = 0 then s.rowUnits z.tmpl (s.clsRec z.cls).mode else ceilDiv (s.zcap e) (s.zoneR e)

/-- Where unit `off` of a zone lies: its rows are blocks k to k + R - 1 of its template (Table 5-2). -/
def State.zoneLoc (s : State) (e off : Nat) : Nat :=
  let z := s.zent e
  let n := s.zoneRowUnits e
  if n = 0 then unitKey z.tmpl z.block off else unitKey z.tmpl (z.block + off / n) (off % n)

/-- The key of an LBA's conventional map entry. -/
def mapKey (n lba : Nat) : Nat := key2 n lba

/-- Active and open states (R150). -/
def ZState.active : ZState → Bool
  | .implicit => true
  | .explicit => true
  | .closed => true
  | _ => false
def ZState.isOpen : ZState → Bool
  | .implicit => true
  | .explicit => true
  | _ => false

/-- The entries of every namespace's zones. -/
def State.allEnts (s : State) : List Nat := s.zon.nss.flatMap (fun e => if e.2.zoned then s.nsEnts e.1 else [])

/-- Committed and projected counts (R150, R155, R170). -/
def State.countActive (s : State) (l : List Nat) : Nat := (l.filter (fun e => (s.zent e).state.active)).length
def State.countOpen (s : State) (l : List Nat) : Nat := (l.filter (fun e => (s.zent e).state.isOpen)).length
def State.projActive (s : State) (l : List Nat) : Nat := (l.filter (fun e => (s.proj e).state.active)).length
def State.projOpen (s : State) (l : List Nat) : Nat := (l.filter (fun e => (s.proj e).state.isOpen)).length

/-- The namespace of a zone table entry, and its zone there. -/
def State.entNs (s : State) (e : Nat) : Option Nat := tfind s.zon.nss (fun _ n => n.zoned && n.extents.contains (e / 1024))
def State.entZone (s : State) (e : Nat) : Nat :=
  match s.entNs e with
  | none => 0
  | some n => (((s.ns n).extents.findIdx? (· == e / 1024)).getD 0) * 1024 + e % 1024

/-- Is a namespace read-only (R158): every zone Read Only, or a conventional namespace in stage 4 (Table 7-5)? -/
def State.nsReadOnly (s : State) (n : Nat) : Bool :=
  let x := s.ns n
  if x.zoned then !(s.nsEnts n).isEmpty && (s.nsEnts n).all (fun e => (s.zent e).state == .readOnly) else x.convRo

/-- Changed Zone List and Changed Namespace List of a slice (R169). -/
def State.noteZone (s : State) (n z : Nat) : State :=
  (s.ns n).slices.foldl (fun t sl =>
    let k := key2 n sl
    let l : List Nat := tval t.zon.changedZones k
    let l' := if l.length ≥ 512 then l else insertNat l z
    ({ t with zon := { t.zon with changedZones := tset t.zon.changedZones k l' } }).sliceAen sl
      { typ := aenNotice, info := 0xEF, lid := 0xBF }) s

/-- DEDUCED, log 90. -/
def State.noteNs (s : State) (n : Nat) (slices : List Nat) : State :=
  slices.foldl (fun t sl =>
    let l : List Nat := tval t.zon.changedNs sl
    ({ t with zon := { t.zon with changedNs := tset t.zon.changedNs sl (insertNat l n) } }).sliceAen sl
      { typ := aenNotice, info := 0x00, lid := 0x04 }) s

/-! Bay indicators (R172). -/

/-- What BAY_LED shows: 0 off, 1 on, 2 blinking. MED_BAY_CTL.LED overrides. While a bay awaits acceptance it blinks, while it rebuilds it is
on, and a faulted bay or one not in use shows off (DESIGN CHOICE, log 177). -/
def Bay.ledNow (x : Bay) : Nat :=
  if x.led = 1 then 0 else if x.led = 2 then 1 else if x.led = 3 then 2
  else if x.bstate = 5 ∨ x.bstate = 6 then 1
  else if x.bstate = 1 ∨ x.bstate = 2 ∨ x.bstate = 3 ∨ x.bstate = 4 ∨ x.bstate = 7 then 2 else 0

/-- Are a bay's control pads held for domain sleep or the safe state? -/
def State.bayPadsHeld (s : State) (b : Nat) : Bool := (s.isle (islMCL b)).sleepHold || (s.isle (islMCL b)).safeHold

/-- A hold begins: the indicator keeps what it shows. -/
def State.holdLed (s : State) (b : Nat) : State :=
  if s.bayPadsHeld b then s else s.modBay b (fun x => { x with ledHeld := some x.ledNow })

/-- The output BAY_LED[b]: PAD_PLAN SAFE while its island is absent (3 low, 4 high, 5 high impedance), the value held, or what it shows. -/
def State.bayLed (s : State) (b : Nat) : Nat :=
  if !present s.pat.eff (islMCL b) then 3 + ((s.pat.eff.pad.find? (fun p => p.group == 0x40 + b)).getD {}).safe
  else if s.bayPadsHeld b then ((s.bay b).ledHeld).getD (s.bay b).ledNow
  else (s.bay b).ledNow

/-! Dies and rows. -/

/-- Dies of a template in a state. -/
def State.diesIn (s : State) (t : StripeTmpl) (p : DieState → Bool) : List Nat := t.dies.filter (fun d => p (s.die d).state)

def DieState.present : DieState → Bool
  | .online => true
  | .rebuilding => true
  | _ => false

/-- May an operation run on the die now: present, its bay not held, its channel up, its island not resetting (R189, R362,
R394)? -/
def State.dieServes (s : State) (d : Nat) : Bool :=
  (s.die d).state.present && !(s.die d).notReady
    && ((s.chan (dieChannel d)).cstate == 2 || (s.chan (dieChannel d)).cstate == 3)
    && (s.isle (islMCL (dieBay d))).avail != .resetting
    && !((s.isle (islMCL (dieBay d))).sleepHold && (s.isle (islMCL (dieBay d))).dstate == .on)

/-- Absent and failed dies of a template (R188, R189). A die whose island resets, or whose pads wait for release, counts
as absent (R362, R394). -/
def State.absentDies (s : State) (t : StripeTmpl) : Nat :=
  (t.dies.filter (fun d => (s.die d).state == .absent || ((s.die d).state != .failed && !s.dieServes d))).length
def State.failedDies (s : State) (t : StripeTmpl) : Nat := (t.dies.filter (fun d => (s.die d).state == .failed)).length
def State.lostDies (s : State) (t : StripeTmpl) : Nat := s.absentDies t + s.failedDies t

/-- Wear of a block row over its dies, in twelfths, summed (R214). -/
def State.rowWear (s : State) (t : StripeTmpl) (k : Nat) : Nat := sumNat (t.dies.map (fun d => (s.blk d k).wear))

/-- Is a block row free: not in use, and every die's block a data block ready for use (R138, R140)? -/
def State.rowFree (s : State) (t : StripeTmpl) (k : Nat) : Bool :=
  (tget s.med.use (rowKey t.id k)).isNone && t.dies.all (fun d => (s.blk d k).role == .data && !(s.blk d k).needErase)

/-- Blocks of a template's dies. -/
def State.tmplBlocks (s : State) (t : StripeTmpl) : Nat :=
  match tmplType? s.pat.eff t with
  | none => 0
  | some ty => ty.blksPlane

/-- `r` consecutive free rows of a template, from block `k`. -/
def State.rowsFree (s : State) (t : StripeTmpl) (k r : Nat) : Bool := (List.range r).all (fun i => s.rowFree t (k + i))

/-- May new rows be placed on a template: none of its dies' bays is being removed (Table 6-9), and its lost dies are within
parity? -/
def State.tmplOpen (s : State) (t : StripeTmpl) : Bool :=
  t.dies.all (fun d => (s.bay (dieBay d)).bstate != 7) && decide (s.lostDies t ≤ t.parity)

/-- The candidates for `r` consecutive rows, each with its wear. -/
def State.rowCands (s : State) (ts : List StripeTmpl) (r : Nat) : List (Nat × Nat × Nat) :=
  (ts.filter s.tmplOpen).flatMap (fun t =>
    ((List.range (s.tmplBlocks t + 1 - r)).filter (fun k => s.rowsFree t k r)).map (fun k =>
      (t.id, k, sumNat ((List.range r).map (fun i => s.rowWear t (k + i))))))

/-- The first candidate of least, or greatest, wear. -/
def bestRow (better : Nat → Nat → Bool) : List (Nat × Nat × Nat) → Option (Nat × Nat × Nat)
  | [] => none
  | c :: t => some (t.foldl (fun a b => if better b.2.2 a.2.2 then b else a) c)

/-- R214: the free rows of lowest mean wear. -/
def State.pickRows (s : State) (ts : List StripeTmpl) (r : Nat) : Option (Nat × Nat) :=
  (bestRow (fun a b => a < b) (s.rowCands ts r)).map (fun c => (c.1, c.2.1))

/-- Does a block row contain a worn block (R213)? -/
def State.rowWorn (s : State) (t : StripeTmpl) (k : Nat) : Bool :=
  t.dies.any (fun d => match dieType? s.pat.eff d with | some ty => decide (12 * ty.ratedPe ≤ (s.blk d k).wear) | none => false)

/-- What stage 2 cuts of a row with a worn block, in MiB (R225): ceil(row data bytes × 4 / 16). -/
def State.rowCutMib (s : State) (id mode : Nat) : Nat := ceilDiv (s.rowUnits id mode * 4096 * 4) (16 * 2 ^ 20)

/-- Usable blocks of a die as found (R476) (DEDUCED, log 13). -/
def State.dieUsable (s : State) (d : Nat) : Nat :=
  let x := s.die d
  x.usable - x.spareInit - 4 - lastLandingOf x.goodBlocks - systemBlocksOf s.pat.eff d

/-- Usable rows of a template group, and those promised (R140, R476). -/
def State.usableRows (s : State) (ts : List StripeTmpl) : Nat := sumNat (ts.map (tmplUsable s.dieUsable))

/-- Two classes draw on the same rows when they name one set, width and parity (R476). -/
def sameRows (a b : ZoneClass) : Bool := a.set == b.set && a.width == b.width && a.parity == b.parity

def State.promisedRows (s : State) (c : ZoneClass) : Nat :=
  sumNat (s.zon.nss.map (fun e => if sameRows (s.clsRec e.2.cls) c then e.2.promised else 0))

def State.rowsFreeCount (s : State) (c : ZoneClass) : Nat :=
  s.usableRows (classTmpls s.pat.eff c) - s.promisedRows c

end Sys2Proof.Machine
end

