-- ==== Sys2Proof/Machine/Rows.lean ====
section
/-! DEFINITION. The write buffer: stripe rows, their lines and parity, landing stripes, dirty data and its limits (04 R115
to R119, 06 R177 to R183). -/

namespace Sys2Proof.Machine

/-- Data and metadata of a line as one number of 4,160 bytes: parity covers both (DEDUCED, log 17). -/
def blkPacked (b : Block) : Nat := b.bits + b.md * 2 ^ 32768
def blkUnpack (n : Nat) : Block := { bits := n % 2 ^ 32768, md := n / 2 ^ 32768 }

/-- A byte of 1, and a byte of 0x7F, in each of 4,160 places. -/
def gfOnes : Nat := (2 ^ 33280 - 1) / 255
def gfLow7 : Nat := gfOnes * 127

/-- Multiply each byte by g = 0x02 in the field of polynomial 0x11D (R178). -/
def gfDouble (x : Nat) : Nat := ((x &&& gfLow7) <<< 1) ^^^ (((x >>> 7) &&& gfOnes) * 0x1D)

/-- Multiply each byte by g to the power i. -/
def gfMulPow : Nat → Nat → Nat
  | 0, x => x
  | i + 1, x => gfDouble (gfMulPow i x)

/-- Both parity syndromes absorb a line at place `i` of a row with `d` data dies; absorbing it a second time takes it out
(R101, R178, R180) (DEDUCED, log 17). -/
def SRow.absorb (r : SRow) (d i : Nat) (b : Block) : SRow :=
  let o := if d = 0 then i else i / d
  let pos := if d = 0 then 0 else i % d
  { r with parP := tset r.parP o (tgetD r.parP o 0 ^^^ (blkPacked b))
           parQ := tset r.parQ o (tgetD r.parQ o 0 ^^^ gfMulPow pos (blkPacked b)) }

/-- The power of g that a nonzero byte is, and division of each byte by such a byte. -/
def gfLog (c : Nat) : Nat := ((List.range 255).find? (fun e => gfMulPow e 1 == c)).getD 0
def gfDiv (c x : Nat) : Nat := gfMulPow ((255 - gfLog c) % 255) x

/-- Data dies of a row's template. -/
def State.rowD (s : State) (r : SRow) : Nat := (s.stmpl r.tmpl).data

/-- Units of a stripe row. -/
def State.rowSize (s : State) (r : SRow) : Nat := s.sruUnits r.tmpl r.mode

/-- OPEN until every position holds a line, then FULL (R179). -/
def SRow.settle (n : Nat) (r : SRow) : SRow :=
  match r.state with
  | .open => if n ≤ r.lines.length then { r with state := .full } else r
  | .full => if r.lines.length < n && !r.padded then { r with state := .open } else r
  | _ => r

/-- The stripe row of a unit, made OPEN when the unit is the first to land in it. -/
def State.rowFor (s : State) (k ns : Nat) : SRow :=
  (s.row? (s.srOf k)).getD
    { ns := ns, mode := s.rowMode (ukRow k), tmpl := rkTmpl (ukRow k), block := rkBlock (ukRow k)
      idx := s.srOf k % 2 ^ 32, seq := s.med.rowSeq }

/-- Take the line of a unit out of its row and its parity (R101). -/
def State.dropLine (s : State) (k : Nat) : State :=
  match s.row? (s.srOf k) with
  | none => s
  | some r =>
    match tget r.lines (s.idxOf k) with
    | none => s
    | some l =>
      let r1 := (r.absorb (s.rowD r) (s.idxOf k) l.blk)
      let r2 := { r1 with lines := tdel r1.lines (s.idxOf k) }
      if r2.lines.isEmpty && r2.state == .open then s.delRow (s.srOf k) else s.setRow (s.srOf k) (r2.settle (s.rowSize r))

/-- Land a line of a unit in its row; parity is accumulated as it lands (R179, R180). A line already there is replaced. -/
def State.landLine (s : State) (k : Nat) (l : Line) : State :=
  let s0 := s.dropLine k
  let r := s0.rowFor k l.ns
  let r1 := r.absorb (s0.rowD r) (s0.idxOf k) l.blk
  let r2 := { r1 with lines := tset r1.lines (s0.idxOf k) l }
  let s1 := s0.setRow (s0.srOf k) (r2.settle (s0.rowSize r))
  { s1 with med := { s1.med with rowSeq := s1.med.rowSeq + 1 } }

/-- Change the line of a unit, its data apart. -/
def State.modLine (s : State) (k : Nat) (f : Line → Line) : State :=
  match s.row? (s.srOf k) with
  | none => s
  | some r =>
    match tget r.lines (s.idxOf k) with
    | none => s
    | some l => s.setRow (s.srOf k) { r with lines := tset r.lines (s.idxOf k) { f l with blk := l.blk } }

/-- What a read of a unit finds: its line in the write buffer, else its codeword on flash. -/
inductive UnitRead where
  | data (b : Block)
  | poison
  | blank
  deriving DecidableEq, Repr, Inhabited

def State.readUnit (s : State) (k : Nat) : UnitRead :=
  match s.lineAt k with
  | some l => if l.bad then .poison else .data l.blk
  | none =>
    match tget s.med.flash k with
    | some c => if c.poison then .poison else .data c.blk
    | none => .blank

/-- Is a unit durable: on flash, or in a landing stripe that every die reported (R116, R119, R181)? -/
def State.unitDurable (s : State) (k : Nat) : Bool :=
  match s.lineAt k with
  | some l => l.durable
  | none => (tget s.med.flash k).isSome

/-- What a cell on flash holds, as parity counts it. -/
def State.cellPacked (s : State) (k : Nat) : Nat := match tget s.med.flash k with | some c => blkPacked c.blk | none => 0

/-- The data unit of position `i` at an offset of a stripe row, solved from the cells of the positions `src` (R178, R188): itself, or from P
or Q, or with a second position missing from both. -/
def State.solveData (s : State) (rk idx o : Nat) (src : List Nat) (i : Nat) : Nat :=
  let d := (s.stmpl (rkTmpl rk)).data
  let v (p : Nat) : Nat := s.cellPacked (s.cellAt rk idx p o)
  if src.contains i then v i
  else
    let known := (List.range d).filter (fun j => src.contains j)
    let a := known.foldl (fun x j => x ^^^ v j) (v d)
    let b := known.foldl (fun x j => x ^^^ gfMulPow j (v j)) (v (d + 1))
    match (List.range d).find? (fun j => j != i && !src.contains j) with
    | none => if src.contains d then a else gfDiv (gfMulPow i 1) b
    | some j => gfDiv (gfMulPow i 1 ^^^ gfMulPow j 1) (b ^^^ gfMulPow j a)

/-- What the parity engine reconstructs for a cell from source dies of its row (R188): a data unit, or a parity unit from the data. -/
def State.recon (s : State) (k : Nat) (dies : List Nat) : Block :=
  let t := s.stmpl (rkTmpl (ukRow k))
  let src := (List.range t.width).filter (fun p => dies.contains (t.dies.getD p 0xFFFF))
  let f (i : Nat) : Nat := s.solveData (ukRow k) (s.cellIdx k) (s.cellOff k) src i
  let p := s.cellPos k
  blkUnpack (
    if p < t.data then f p
    else if p = t.data then (List.range t.data).foldl (fun x j => x ^^^ f j) 0
    else (List.range t.data).foldl (fun x j => x ^^^ gfMulPow j (f j)) 0)

/-- TAG_LBA of parity and padding units (Table 6-3). -/
def tagOnes : Nat := 2 ^ 64 - 1

/-- The codeword of a line (Table 6-3); a line that cannot be recovered is programmed as a poison codeword (R342). -/
def cellOf (r : SRow) (l : Line) : Cell :=
  if l.bad then { blk := l.blk, tagNs := 0xFFFFFFFF, tagSeq := r.seq % 2 ^ 32, poison := true }
  else { blk := l.blk, tagLba := l.lba, tagNs := l.ns, tagSeq := r.seq % 2 ^ 32 }

/-- The cells that a stripe row is programmed as: its lines, zeros where it was padded, and its parity units (R177 to R179; DEDUCED, log 25). -/
def State.rowCells (s : State) (srk : Nat) (r : SRow) : Tbl Cell :=
  let rk := srk / 2 ^ 32
  let i := srk % 2 ^ 32
  let n := s.rowSize r
  let d := s.rowD r
  let du := s.rowShare rk
  let pad : Cell := { tagLba := tagOnes, tagNs := r.ns, tagSeq := r.seq % 2 ^ 32 }
  let data : Tbl Cell := if r.padded then
      (List.range n).map (fun j => (rk * 2 ^ 32 + i * n + j, match tget r.lines j with | some l => cellOf r l | none => pad))
    else r.lines.map (fun e => (rk * 2 ^ 32 + i * n + e.1, cellOf r e.2))
  data ++ (List.range (s.stmpl r.tmpl).parity).flatMap (fun q => (List.range du).map (fun o =>
    (parCell rk (d + q) (i * du + o), { pad with blk := blkUnpack (tgetD (if q = 0 then r.parP else r.parQ) o 0) })))

/-- The unit keys of a row's lines. -/
def State.rowUnitsOf (s : State) (srk : Nat) (r : SRow) : List Nat :=
  let n := s.rowSize r
  r.lines.map (fun e => srk / 2 ^ 32 * 2 ^ 32 + srk % 2 ^ 32 * n + e.1)

/-- Dirty lines: those not yet durable, of every row; and of one die set. -/
def rowDirty (r : SRow) : Nat := (r.lines.filter (fun e => !e.2.durable)).length
def State.dirtyLines (s : State) : Nat := sumNat (s.med.rows.map (fun e => rowDirty e.2))
def State.dirtyOfSet (s : State) (set : Nat) : Nat :=
  sumNat (s.med.rows.map (fun e => if (s.stmpl e.2.tmpl).set == set then rowDirty e.2 else 0))

/-- Hold-up mode (R119). -/
def State.holdup (s : State) : Bool := s.pat.eff.power.holdupUs != 0 && s.pat.eff.power.pfailWired

/-- The lowest activity budget of the populated MCL islands (R117). -/
def State.mclBudget (s : State) : Nat :=
  let l := (List.range 16).filter (fun b => (bayType? s.pat.eff b).isSome)
  l.foldl (fun m b => min m (s.isle (islMCL b)).budget) 100

/-- Bytes that land in `us` microseconds: 150,000 a microsecond, scaled by the share of the 64 channels and by the budget (R117). -/
def State.landsIn (s : State) (us : Nat) : Nat := us * 150000 * populatedChannels s.pat.eff * s.mclBudget / 6400

/-- The dirty limit in bytes: what lands in 20 ms, and in hold-up mode no more than lands in the hold-up time, in whole MiB (R117, R119). -/
def State.dirtyLimit (s : State) : Nat :=
  let a := s.landsIn 20000
  if s.holdup then min a (s.landsIn (s.pat.eff.power.holdupUs - 100) / 2 ^ 20 * 2 ^ 20) else a

/-- SLC-mode capacity of a die set's last-landing reserve in units (R211). -/
def State.llrUnits (s : State) (set : Nat) : Nat :=
  match s.pat.eff.stripe with
  | none => 0
  | some m =>
    match m.sets.find? (fun q => q.set == set) with
    | none => 0
    | some q =>
      sumNat ((List.range 2048).map (fun d =>
        if bitAt q.dies d then
          match dieType? s.pat.eff d with
          | none => 0
          | some t => lastLandingOf t.blksPlane * (blockBytes t 0 / 4096)
        else 0))

/-- Would `n` more lines of a set pass a limit (R117, R211)? -/
def State.overLimit (s : State) (set n : Nat) : Bool :=
  s.dirtyLimit < (s.dirtyLines + n) * 4096 || s.llrUnits set < s.dirtyOfSet set + n

/-! Taking and returning block rows. -/

/-- Close OPEN stripe rows: they are padded to FULL, and a conventional row goes on behind them (R179, Table 6-9). -/
def State.closeRows (s : State) (p : SRow → Bool) : State :=
  s.med.rows.foldl (fun t e =>
    if e.2.state == .open && p e.2 then
      let rk := rowKey e.2.tmpl e.2.block
      let n := t.rowSize e.2
      let u : RowUse := tval t.med.use rk
      let u1 : RowUse := { u with next := if u.zent.isNone then max u.next ((e.2.idx + 1) * n) else u.next
                                  holes := u.holes.filter (fun h => decide (n = 0) || h / n != e.2.idx) }
      let t1 := t.setRow e.1 { e.2 with state := .full, padded := true }
      { t1 with med := { t1.med with use := tset t1.med.use rk u1 } }
    else t) s

/-- Take rows of a template for a zone or a conventional namespace. -/
def State.takeRows (s : State) (tm k r : Nat) (u : RowUse) : State :=
  (List.range r).foldl (fun t i =>
    { t with med := { t.med with use := tset t.med.use (rowKey tm (k + i)) u } }) s

/-- Drop what the write buffer and the flash hold of a block row. -/
def State.clearRow (s : State) (rk : Nat) : State :=
  { s with med := { s.med with
      rows := tfilter s.med.rows (fun k _ => k / 2 ^ 32 != rk)
      flash := tfilter s.med.flash (fun k _ => k / 2 ^ 32 != rk) } }

/-- Return rows for erase: no read returns their data any more (R140, R159). Trackers of the group stop (R195). -/
def State.returnRows (s : State) (tm k r : Nat) : State :=
  (List.range r).foldl (fun t i =>
    let t1 := t.clearRow (rowKey tm (k + i))
    let t2 := { t1 with med := { t1.med with use := tdel t1.med.use (rowKey tm (k + i))
                                             refreshQ := t1.med.refreshQ.filter (fun q => !(q.tmpl == tm && q.block == k + i)) } }
    (t2.stmpl tm).dies.foldl (fun u d =>
      u.modBlk d (k + i) (fun b => { b with needErase := b.role == .data, reads := 0 })) t2) s

/-- The next unit of a conventional namespace for placement handle `ph`: in the row it fills, or in a new row of lowest
wear among the templates its reclaim group may use (R165, R166) (DEDUCED, log 53). -/
def State.convTmpls (s : State) (n rg : Nat) : List StripeTmpl :=
  let c := s.nsCls n
  let ts := classTmpls s.pat.eff c
  let f : Fdp := tval s.zon.fdp c.set
  let m := match s.pat.eff.ns with | none => 0 | some x => x.fdpRg
  if f.enabled && 0 < m then
    ((List.range ts.length).filter (fun i => i % m == rg)).map (fun i => ts.getD i {})
  else ts

/-- The row a namespace fills for a handle of a reclaim group: not yet all written, no relocation source or target. -/
def State.convOpenRow (s : State) (n rg ph : Nat) : Option Nat :=
  tfind s.med.use (fun k u => u.ns == n && u.zent.isNone && !u.target && u.ruh == ph && (s.convTmpls n rg).any (fun t => t.id == rkTmpl k)
    && !(tany s.med.relocs (fun _ r => r.srcTmpl == rkTmpl k && r.srcBlock == rkBlock k)) && s.tmplOpen (s.stmpl (rkTmpl k))
    && (!u.holes.isEmpty || decide (u.next + u.cut < s.rowUnits (rkTmpl k) u.mode)))

/-- The next position of a row; one that a squashed write left empty comes first. -/
def State.convTake (s : State) (rk : Nat) (u : RowUse) : Nat × State :=
  match u.holes with
  | h :: t => (rk * 2 ^ 32 + h,
      { s with med := { s.med with use := tset s.med.use rk { u with holes := t, writtenAt := s.nowMs } } })
  | [] => (rk * 2 ^ 32 + u.next,
      { s with med := { s.med with use := tset s.med.use rk { u with next := u.next + 1, writtenAt := s.nowMs } } })

def State.convAlloc (s : State) (n rg ph : Nat) : Option (Nat × State) :=
  match s.convOpenRow n rg ph with
  | some rk => some (s.convTake rk (tval s.med.use rk))
  | none =>
    match s.pickRows (s.convTmpls n rg) 1 with
    | none => none
    | some (tm, k) =>
      let cut := if s.rowWorn (s.stmpl tm) k then s.rowCutMib tm (s.nsCls n).mode * 256 else 0
      let u : RowUse := { ns := n, mode := (s.nsCls n).mode, ruh := ph, writtenAt := s.nowMs, cut := cut }
      some ((s.takeRows tm k 1 u).convTake (rowKey tm k) u)

/-! Landing stripes (R181). -/

/-- The dies a landing stripe may use: up to 16 online dies of the set, least queued work first, at least two bays when the
set has dies in two. Here the dies of the set in order of queue length, taken one per bay in turn. -/
def insertByLen (f : Nat → Nat) (d : Nat) : List Nat → List Nat
  | [] => [d]
  | a :: t => if f d < f a then d :: a :: t else a :: insertByLen f d t

def sortByKey (f : Nat → Nat) (l : List Nat) : List Nat := l.foldr (insertByLen f) []

def State.setDies (s : State) (set : Nat) : List Nat :=
  match s.pat.eff.stripe with
  | none => []
  | some m =>
    match m.sets.find? (fun q => q.set == set) with
    | none => []
    | some q => (List.range 2048).filter (fun d => bitAt q.dies d)

/-- Spread over two bays: the first die, then the first of another bay, then the rest. -/
def spreadBays : List Nat → List Nat
  | [] => []
  | d :: t =>
    match t.find? (fun e => dieBay e != dieBay d) with
    | none => d :: t
    | some e => d :: e :: t.filter (· != e)

/-- A landing pool block of a die, or one of its last-landing reserve (R223). -/
def State.poolBlock (s : State) (d : Nat) (role : Role) : Option Nat :=
  (s.med.blks.find? (fun e => e.1 / 2 ^ 24 == d && e.2.role == role && !e.2.needErase && e.2.programmedAt == 0)).map (fun e =>
    e.1 % 2 ^ 24)

/-- The template that holds a die. -/
def State.tmplFor (s : State) (d : Nat) : Option StripeTmpl :=
  match s.pat.eff.stripe with
  | none => none
  | some m => m.tmpls.find? (fun q => q.dies.contains d)

/-- The least worn free data block of a die (R210). -/
def State.freeBlock (s : State) (d : Nat) : Option Nat :=
  let free := (List.range (match dieType? s.pat.eff d with | some t => t.blksPlane | none => 0)).filter (fun b =>
    (s.blk d b).role == .data && !(s.blk d b).needErase && (match s.tmplFor d with | some t => (tget s.med.use (rowKey t.id b)).isNone | none => false))
  match free with
  | [] => none
  | a :: t => some (t.foldl (fun m x => if (s.blk d x).wear < (s.blk d m).wear then x else m) a)

/-- The block of a die that takes a landing stripe's unit: of the landing pool, else of a free row, else of the last-landing reserve
(R181, R223). -/
def State.landingBlock (s : State) (d : Nat) : Option Nat :=
  match s.poolBlock d .landing with
  | some k => some k
  | none => match s.freeBlock d with
    | some k => some k
    | none => s.poolBlock d .llr

/-- The dies of a landing stripe: 2 to 16 of the set that can take one, least queued work first, in two bays where there are two. -/
def State.landFrom (s : State) (set : Nat) (ok : Nat → Bool) : List Nat :=
  let l := (spreadBays (sortByKey (fun d => (s.die d).queue.length) ((s.setDies set).filter (fun d => ok d && (s.landingBlock d).isSome)))).take 16
  if l.length < 2 then [] else l
def State.landDies (s : State) (set : Nat) : List Nat := s.landFrom set s.dieServes

/-- A landing stripe on dies; blocks of free rows join the pool. -/
def State.landStripe (s : State) (kind : LandKind) (set : Nat) (units ds : List Nat) : Landing :=
  let pairs := ds.map (fun d => (d, (s.landingBlock d).getD 0))
  { kind := kind, set := set, units := units, dies := pairs, waiting := ds, llr := pairs.any (fun p => (s.blk p.1 p.2).role == .llr) }
def State.takeLanding (s : State) (l : Landing) : State :=
  let s1 := l.dies.foldl (fun t p => t.modBlk p.1 p.2 (fun b => if b.role = .data then { b with role := .landing } else b)) s
  { s1 with med := { s1.med with landings := tset s1.med.landings s1.med.nextLanding l, nextLanding := s1.med.nextLanding + 1 } }

/-- Make a landing stripe for units of one die set; it waits for its dispatch in class 0 (Table 6-4). -/
def State.newLanding (s : State) (kind : LandKind) (set : Nat) (units : List Nat) : State :=
  if units.isEmpty then s else s.takeLanding (s.landStripe kind set units (s.landDies set))

/-- Die set of a unit. -/
def State.unitSet (s : State) (k : Nat) : Nat := (s.stmpl (rkTmpl (ukRow k))).set

/-- Landing stripes for a list of units, one per die set. -/
def State.landUnits (s : State) (kind : LandKind) (units : List Nat) : State :=
  ((units.map s.unitSet).eraseDups).foldl (fun t set =>
    t.newLanding kind set (units.filter (fun k => s.unitSet k == set))) s

/-- Every unit of a namespace that is committed and not durable (R118). -/
def State.undurable (s : State) (p : Line → Bool) : List Nat :=
  s.med.rows.flatMap (fun e =>
    (e.2.lines.filter (fun l => l.2.ctx.isNone && !l.2.durable && p l.2)).map (fun l =>
      e.1 / 2 ^ 32 * 2 ^ 32 + e.1 % 2 ^ 32 * s.rowSize e.2 + l.1))

/-- The journal takes `n` records: their size is not the spec's (DESIGN CHOICE, log 54). It holds at most 4 GiB; past 3 GiB its segments
are checkpointed (R163). -/
def State.journal (s : State) (n : Nat) : State :=
  let b := min (2 ^ 32) (s.zon.journalBytes + n * Config.journalRecord)
  { s with zon := { s.zon with journalBytes := b, ckptRun := s.zon.ckptRun || decide (3 * 2 ^ 30 < b) } }

/-- The journal records a map change once its data is on flash (R163): the entry's own, or that of an earlier commit whose LBA
has been written again since. -/
def State.recordLine (s : State) (k : Nat) (l : Line) : State :=
  if l.bad || (s.ns l.ns).zoned then s
  else
    let m := s.mapEnt (mapKey l.ns l.lba)
    if m.loc = some k then
      (if m.back.isSome then (s.setMap (mapKey l.ns l.lba) { m with back := none }).journal 1 else s.setMap (mapKey l.ns l.lba) { m with back := none })
    else match m.back with
      | some b =>
        if b.order ≤ l.order then
          (s.setMap (mapKey l.ns l.lba) { m with back := some { loc := some k, order := l.order, alts := b.alts } }).journal 1
        else s
      | none => s

def State.recordUnit (s : State) (k : Nat) : State :=
  match s.lineAt k with
  | some l => if l.ctx.isNone then s.recordLine k l else s
  | none => s
def State.recordUnits (s : State) (units : List Nat) : State := units.foldl (fun t k => t.recordUnit k) s

/-- Mark units durable: a landing copy of each is on flash. -/
def State.markDurable (s : State) (units : List Nat) : State :=
  let s1 := units.foldl (fun t k => t.modLine k (fun l => { l with durable := true })) (s.recordUnits units)
  { s1 with med := { s1.med with landed := s1.med.landed ++ units } }

end Sys2Proof.Machine
end

