-- ==== Sys2Proof/Machine/Sched.lean ====
section
/-! DEFINITION. The die scheduler: what a die runs next (06 R184 to R186, 10 R311, R312, 14 R408). -/

namespace Sys2Proof.Machine

/-! Waking (13). -/

def DState.asleep : DState → Bool
  | .retention => true
  | .off => true
  | _ => false

/-- A weave half without a WEAVE_PANEL holds no weave and stays off (R45). -/
def State.weaveless (s : State) (i : Nat) : Bool :=
  (i == islWVF 0 && s.pat.eff.weave0.isNone) || (i == islWVF 1 && s.pat.eff.weave1.isNone)

/-- A sleeping domain starts to wake, and an entry in progress is abandoned (R389, R391, R395). After the thermal shutdown latch
set, no domain wakes; an absent island never does (DEDUCED, log 58). -/
def State.startWake (s : State) (i cause : Nat) : State :=
  let x := s.isle i
  if s.thm.shutdown || !present s.pat.eff i || s.weaveless i then s
  else if x.dstate.asleep then s.setIsl i { x with change := some (.wake x.dstate cause), dstate := .changing, avail := if x.avail = .isolated then .isolated else .waking }
  else match x.change with
    | some (.entry _) =>
      let s1 := s.setIsl i { x with change := none, dstate := .on, sleepHold := x.sleepHold && !x.padAuto && !isDmi i }
      if isDmi i && !s.flt.safe then { s1 with pwr := { s1.pwr with dramState := tset s1.pwr.dramState (i - 26) 0 } } else s1
    | _ => s

/-! Floors (R383, Table 13-4). -/

/-- May a domain go off: its ISLAND_PLAN flag, never SEC, CTL, HFE, CMI or TRN (R378). -/
def State.mayOff (s : State) (i : Nat) : Bool := (s.pat.eff.isl.getD i {}).mayOff && ! [0, 1, 2, 3, 8, 9].contains i
def State.mayRetain (s : State) (i : Nat) : Bool := (s.pat.eff.isl.getD i {}).mayRetain && i != 0

/-- Group of a domain (Table 13-4). -/
def domGroup (i : Nat) : Nat :=
  if isUcm i then 0 else if i < 10 then 9 else if i < 18 then 1 else if i < 26 then 2 else if i < 30 then 3 else if i < 34 then 4
  else if i < 38 then 5 else if i < 40 then 6 else if i < 56 then 7 else 8

/-- A module that carries no traffic of its port: its port is detached, or in trickle on another module. -/
def State.moduleRests (s : State) (m : Nat) : Bool :=
  (s.port (s.modPortOf m)).lstate == .detached
    || (s.trickle.tstate == 2 && s.modPortOf m == s.modPortOf s.pat.eff.host.trickleMod && m != s.pat.eff.host.trickleMod)

/-- The power state whose floors apply: the one being entered, else the one in effect. -/
def State.floorState (s : State) : Nat := match s.pwr.entry with | some e => e.target | none => s.pwr.pstate

/-- Is a domain's group bit set in that state? Bit 0 applies only to a port in trickle. -/
def State.inGroups (s : State) (i : Nat) : Bool :=
  bitAt (s.pat.eff.power.states.getD s.floorState {}).groups (domGroup i)
    && (!isUcm i || (s.trickle.tstate == 2 && s.moduleRests (i - 4)))

/-- The effective floor of a domain (R383). -/
def State.effFloor (s : State) (i : Nat) : DState :=
  let f0 : DState := match (s.isle i).floor with
    | 0 => if s.inGroups i then .off else .on
    | 1 => .on
    | 2 => .retention
    | _ => .off
  let f1 : DState := if f0 = .off && !s.mayOff i then .retention else f0
  let f2 : DState := if f1 = .retention && !s.mayRetain i then .on else f1
  if s.holdup && (isMcl i || isDmi i) && f2 = .off then .retention else f2

/-- Is a domain's state below a floor? -/
def belowFloor (d f : DState) : Bool := (d == .retention && f == .on) || (d == .off && f != .off)

/-- A change of floor moves every domain that sits below its new floor to on at once (R383; DEDUCED, log 183). -/
def State.liftFloors (s : State) : State :=
  (List.range 72).foldl (fun t i => if i != 0 && (t.isle i).avail != .isolated && belowFloor (t.isle i).dstate (t.effFloor i) then t.startWake i 7 else t) s

/-- An access to a domain (R391). One to an isolated island is refused at its crossing and wakes nothing (R18). -/
def State.access (s : State) (i : Nat) : State := if (s.isle i).avail = .isolated then s else s.startWake i 0

/-- The domains an event wakes (Table 13-3): sideband clock activity on a module wakes its port's UCM domains and HFE. -/
def State.wakeSet (s : State) (isl cause : Nat) : List Nat :=
  if isUcm isl && cause == 2 then (s.portMods (s.modPortOf (isl - 4))).map islUCM ++ [islHFE] else [isl]

/-- PWR_EVT's wake bits. -/
def Pwr.noteWake (p : Pwr) (cause isl : Nat) : Pwr :=
  if cause = 1 then { p with wakeSb := true }
  else if cause = 2 ∧ (isl = islHFE ∨ isUcm isl) then { p with wakeLink := true }
  else if cause = 3 ∧ isMcl isl then { p with wakeBay := true }
  else p

/-- A wake source or an access reaches a domain: it matters only to one that sleeps, or whose entry it abandons. -/
def State.wakeEvent (s : State) (isl cause : Nat) : State :=
  let l := s.wakeSet isl cause
  let slept := l.any (fun i => (s.isle i).dstate.asleep && present s.pat.eff i) && !s.thm.shutdown
  let s1 := l.foldl (fun t i => t.startWake i cause) s
  if slept then { s1 with pwr := s1.pwr.noteWake cause isl } else s1

/-- A bay signal wakes the bay's MCL domain (Table 13-3). -/
def State.bayWake (s : State) (b : Nat) : State := s.wakeEvent (islMCL b) 3

/-- Is a domain on, and its island available? -/
def State.domOn (s : State) (i : Nat) : Bool := (s.isle i).dstate == .on && (s.isle i).avail == .available

/-- Does the firmware of the control complex run (R371)? -/
def State.ctlUp (s : State) : Bool := !s.flt.ctlReset && s.domOn islCTL

/-- The domains a fetch needs: HFE, CMI and TRN, and for an admin command SEC and CTL too; absent ones aside. -/
def State.fetchChain (s : State) (admin : Bool) : List Nat :=
  ([islHFE, islCMI, islTRN] ++ if admin then [islSEC, islCTL] else []).filter (present s.pat.eff)

/-- Are they all awake? Otherwise the first access wakes the whole chain (R391). -/
def State.fetchAwake (s : State) (admin : Bool) : Bool :=
  (s.fetchChain admin).all (fun i => (s.isle i).dstate == .on && (s.isle i).avail != .waking && (s.isle i).avail != .resetting)
def State.wakeChain (s : State) (admin : Bool) : State := (s.fetchChain admin).foldl (fun t i => t.access i) s

/-! The scheduler (R184). -/

/-- What a die runs, has suspended and has queued. -/
def Die.ops (x : Die) : List DieOp := x.cur.toList ++ x.suspended.toList ++ x.queue

/-- Order of an operation: its class, and inside class 1 comet reads last, inside class 5 the causes of Table 7-2. -/
def DieOp.rank (o : DieOp) : Nat := o.cls * 8 + o.sub

/-- Insert an operation by rank, then by deadline; a later one of the same rank and deadline comes behind. -/
def insertOp (o : DieOp) : List DieOp → List DieOp
  | [] => [o]
  | a :: t => if o.rank < a.rank ∨ (o.rank = a.rank ∧ o.deadline < a.deadline) then o :: a :: t else a :: insertOp o t

/-- Is it a read? -/
def DieOpK.isRead : DieOpK → Bool
  | .read _ => true
  | .src _ => true
  | .verify _ => true
  | _ => false

/-- Is it a read of a relocation? -/
def DieOpK.isRel : DieOpK → Bool
  | .read (.rel _ _) => true
  | .src (.rel _ _) => true
  | _ => false

/-- Is it an erase? -/
def DieOpK.isErase : DieOpK → Bool
  | .erase _ => true
  | _ => false

/-- Is it a landing program after PFAIL_N? -/
def State.opPfail (s : State) (o : DieOp) : Bool :=
  match o.k with
  | .landing id => (match tget s.med.landings id with | some l => l.kind == .pfail | none => false)
  | _ => false

/-- Channel time of one codeword's transfer, in nanoseconds (Table 6-12) (DEDUCED, log 50). -/
def srcNs : Nat := 1333

/-- Channel time of an operation: one codeword of a read, the die's program unit of a program (DEDUCED, log 176). -/
def State.opNs (s : State) (o : DieOp) : Nat :=
  match o.k with
  | .reloc id => (match tget s.med.relocs id with | some r => s.rowShare (rowKey r.tgtTmpl r.tgtBlock) * srcNs | none => srcNs)
  | _ => srcNs

/-- Is a relocation operation within its cluster's share of channel time in this epoch: REBUILD_PCT for rebuild, RELOC_PCT for refresh,
garbage collection and wear levelling (Table 7-2)? One starts while nothing of the share is taken or the share holds it; what an epoch takes
beyond its share the next ones owe (DESIGN CHOICE, log 167). -/
def State.shareAllows (s : State) (b : Nat) (o : DieOp) : Bool :=
  let c := s.clu b
  if o.cls != 5 || o.sub == 1 || o.sub == 2 then true
  else if o.sub = 0 then c.rebUsed == 0 || decide (c.rebUsed + s.opNs o ≤ c.rebuildPct * 4000)
  else c.relUsed == 0 || decide (c.relUsed + s.opNs o ≤ s.mlf.wlReloc * 4000)

/-- It takes its channel time from the share. -/
def State.useShare (s : State) (b : Nat) (o : DieOp) : State :=
  if o.cls != 5 || o.sub == 1 || o.sub == 2 then s
  else if o.sub = 0 then s.modClu b (fun c => { c with rebUsed := c.rebUsed + s.opNs o })
  else s.modClu b (fun c => { c with relUsed := c.relUsed + s.opNs o })

/-- May an operation of bay `b` start now? In cold hold no program, no erase and no relocation does, but a landing after PFAIL_N
(R219, R408). -/
def State.opStarts (s : State) (b : Nat) (o : DieOp) : Bool :=
  (!s.thm.coldHold || (o.k.isRead && !o.k.isRel) || s.opPfail o) && s.shareAllows b o

/-- The credit point of a cluster's die scheduler in a class (Table 10-4). -/
def dieCred (k cls : Nat) : Nat := 256 + k * 8 + cls
def State.credit (s : State) (sl pt : Nat) : Int := tgetD (s.slc sl).credit pt 0

/-- Charge a slice at a point: only what its credit serves is charged; leftover capacity is not (R312). -/
def State.charge (s : State) (sl pt cost : Nat) : State :=
  if 0 < s.credit sl pt then
    s.modSli sl (fun q => { q with credit := tset q.credit pt (tgetD q.credit pt 0 - cost)
                                   stat := { q.stat with dieUs := if 256 ≤ pt ∧ pt < 1024 then q.stat.dieUs + cost else q.stat.dieUs } })
  else s

/-- Die-busy microseconds of a read: tR of the block's mode, and 2 for transfer and status (R312's example). -/
def State.readUs (s : State) (d k : Nat) : Nat :=
  match dieType? s.pat.eff d with
  | none => 2
  | some t => t.tR.getD (s.blk d k).mode 0 + 2

/-- The operation a die takes next: of the highest rank that has one, the first of a slice with credit, else the first
(R184, R312). -/
def State.pickOp (s : State) (d : Nat) (l : List DieOp) : Option DieOp :=
  match l.find? (s.opStarts (dieBay d)) with
  | none => none
  | some a =>
    match l.find? (fun o => s.opStarts (dieBay d) o && o.rank == a.rank && decide (0 < s.credit o.slice (dieCred (dieBay d) o.cls))) with
    | some o => some o
    | none => some a

/-- Microseconds of die time that an operation takes by its type's figures: a read's, a program's or an erase's. -/
def State.opUs (s : State) (d : Nat) (o : DieOp) : Nat :=
  match dieType? s.pat.eff d with
  | none => 0
  | some t =>
    let m := (s.blk d o.block).mode
    if o.k.isRead then s.readUs d o.block else if o.k.isErase then t.tBers.getD m 0 else t.tProg.getD m 0

/-- Dies of a bay that are online. -/
def State.onlineDies (s : State) (b : Nat) : Nat := (s.med.dies.filter (fun e => dieBay e.1 == b && e.2.state == .online)).length

/-- Die time that the dies of a bay may take in an epoch under the island's activity budget (R37). -/
def State.bayShareUs (s : State) (b : Nat) : Nat := s.onlineDies b * (s.isle (islMCL b)).budgetTaken

/-- May an operation of `us` start in this epoch? At a budget of 100 % always; below it, while it fits the island's share, or where the island
has taken none (R37, R408) (DESIGN CHOICE, log 167). -/
def State.budgetAllows (s : State) (b us : Nat) : Bool :=
  let x := s.isle (islMCL b)
  x.budgetTaken == 100 || x.actUs == 0 || decide (x.actUs + us ≤ s.bayShareUs b)

/-- An operation that starts takes its time from the share. -/
def State.useBudget (s : State) (b us : Nat) : State := s.modIsl (islMCL b) (fun x => { x with actUs := x.actUs + us })

/-- At an epoch's start the shares are given anew; time taken beyond them is owed. -/
def State.renewBudget (s : State) (b : Nat) : State :=
  (s.modIsl (islMCL b) (fun x => { x with actUs := x.actUs - s.bayShareUs b })).modClu b (fun c =>
    { c with rebUsed := c.rebUsed - c.rebuildPct * 4000, relUsed := c.relUsed - s.mlf.wlReloc * 4000 })

/-- Does an operation of a higher class wait on an idle die of the bay, held back by the budget, which is spent in class order (R184)? -/
def State.higherWaits (s : State) (b cls : Nat) : Bool :=
  (s.isle (islMCL b)).budgetTaken != 100
    && tany s.med.dies (fun d x => dieBay d == b && x.cur.isNone && s.dieServes d && x.queue.any (fun o => decide (o.cls < cls) && s.opStarts b o))

/-- An operation runs on a die from now on, for `us` microseconds by its type's figures. -/
def Die.run (x : Die) (o : DieOp) (now us : Nat) : Die :=
  { x with cur := some o, queue := x.queue.erase o, startUs := now, endUs := now + us }

/-- A host read is charged to its slice when it starts; a comet read when a host read consumes it (R107). -/
def State.chargeRead (s : State) (d : Nat) (o : DieOp) : State :=
  if (o.cls = 1 ∧ o.sub = 0) ∨ o.cls = 2 then s.charge o.slice (dieCred (dieBay d) o.cls) (s.readUs d o.block) else s

/-- Start an operation on an idle die. -/
def State.startOp (s : State) (d : Nat) (o : DieOp) : State :=
  let x := s.die d
  let b := dieBay d
  (((s.setDie d { (x.run o s.nowUs (s.opUs d o)) with susp := 0, resumedAt := none }).useBudget b (s.opUs d o)).useShare b o).chargeRead d o

/-- Does a waiting read need the suspension: a host read that would miss its deadline behind the suspended operation (R186)? -/
def State.needsSusp (s : State) (d : Nat) (o : DieOp) : Bool :=
  o.k.isRead && o.rank == 8 && decide (o.deadline < s.nowUs + (s.die d).leftUs + s.opUs d o)

/-- The suspended operation goes on. -/
def Die.resume (x : Die) (o : DieOp) (now : Nat) : Die :=
  { x with cur := some o, suspended := none, startUs := now, endUs := now + x.leftUs, resumedAt := some now }

/-- A die can take an operation: nothing runs on it, or in the safe state, on a die that cannot serve, or while its channel is held for a
retrain (R174) (DEDUCED, log 69). -/
def State.canTake (s : State) (d : Nat) : Bool :=
  (s.die d).cur.isNone && !s.flt.safe && s.dieServes d && s.domOn (islMCL (dieBay d)) && (s.chan (dieChannel d)).cstate == 2

/-- An idle die takes its next operation: a suspended one goes on as soon as no read that needs the suspension waits (R186; DEDUCED, log 69). -/
def State.kick (s : State) (d : Nat) : State :=
  let x := s.die d
  let b := dieBay d
  if !s.canTake d then s
  else match x.suspended with
    | some o =>
      match x.queue.find? (s.needsSusp d) with
      | some r =>
        if !s.budgetAllows b (s.opUs d r) then s
        else ((s.setDie d (x.run r s.nowUs (s.opUs d r))).useBudget b (s.opUs d r)).chargeRead d r
      | none => s.setDie d (x.resume o s.nowUs)
    | none =>
      match s.pickOp d x.queue with
      | none => s
      | some o => if s.opPfail o || (s.budgetAllows b (s.opUs d o) && !s.higherWaits b o.cls) then s.startOp d o else s

/-! Read thresholds (R193). -/

/-- The key of a die's block group: 16 block rows in one cell mode (DESIGN CHOICE, log 178). -/
def trackKey (d k mode : Nat) : Nat := d * 2 ^ 24 + k / 16 * 4 + mode

def levels (mode : Nat) : Nat := if mode = 2 then 15 else if mode = 1 then 7 else 1

def listInt (l : List Int) (i : Nat) : Int := l.getD i 0
def listNat (l : List Nat) (i : Nat) : Nat := l.getD i 0

/-- A retry-table step's offset of a read level: entry floor(L / 2) for QLC, entry L for the other modes. -/
def retryOffset (mode : Nat) (e : List Int) (l : Nat) : Int := listInt e (if mode = 2 then l / 2 else l)

/-- The tracked offsets of a block. -/
def State.tracked (s : State) (d k : Nat) : List Int :=
  let m := (s.blk d k).mode
  let g : Tracker := tval s.med.trackers (trackKey d k m)
  (List.range (levels m)).map (fun l => listInt g.offset l)

/-- The retry table of a die's type, as offsets of a block's read levels, nearest to the tracked offsets first: by the sum of the distances
over the levels, the table's order among equals (DESIGN CHOICE, log 178, log 49). -/
def State.retryOrder (s : State) (d k : Nat) : List (List Int) :=
  let m := (s.blk d k).mode
  let t := s.tracked d k
  let es := (match dieType? s.pat.eff d with | some ty => ty.retry | none => []).map (fun e => (List.range (levels m)).map (retryOffset m e))
  let dist (e : List Int) : Nat := sumNat ((List.range (levels m)).map (fun l => (listInt e l - listInt t l).natAbs))
  (sortByKey (fun i => dist (es.getD i [])) (List.range es.length)).map (fun i => es.getD i [])

/-- Offsets moved by a number of steps. -/
def shiftOffs (l : List Int) (n : Int) : List Int := l.map (· + n)

/-- The offsets of one read of the ladder (Table 6-6): tracked; a retry-table step; 2 steps below and above the tracked offsets, or around a
retry-table step. -/
def State.readOffsets (s : State) (d : Nat) (o : DieOp) : List Int :=
  let t := s.tracked d o.block
  let n1 := match dieType? s.pat.eff d with | some ty => min 4 ty.retry.length | none => 0
  if o.step = 1 then (s.retryOrder d o.block).getD o.pos t
  else if o.step = 2 then shiftOffs t (if o.pos % 2 = 0 then -2 else 2)
  else if o.step = 4 then shiftOffs ((s.retryOrder d o.block).getD (n1 + o.pos / 2) t) (if o.pos % 2 = 0 then -2 else 2)
  else t

/-- A read with its thresholds. -/
def State.aimed (s : State) (d : Nat) (o : DieOp) : DieOp := if o.k.isRead then { o with offs := s.readOffsets d o } else o

/-- Queue an operation on a die. -/
def State.enqueue (s : State) (d : Nat) (o : DieOp) : State :=
  ((s.modDie d (fun x => { x with queue := insertOp (s.aimed d o) x.queue })).access (islMCL (dieBay d))).kick d

/-- Every die takes its next operation. -/
def State.kickAll (s : State) : State := s.med.dies.foldl (fun t e => t.kick e.1) s

/-- When an operation that joined the die's queue now would be expected to end: after what runs and what lies before it in the queue, each
by its type's figures (R187) (DEDUCED, log 176). -/
def State.expectDone (s : State) (d : Nat) (o : DieOp) : Nat :=
  let x := s.die d
  let ahead := x.queue.filter (fun q => decide (q.rank < o.rank) || (q.rank == o.rank && decide (q.deadline ≤ o.deadline)))
  (if x.cur.isSome then max s.nowUs x.endUs else s.nowUs) + sumNat (ahead.map (s.opUs d)) + s.opUs d o

end Sys2Proof.Machine
end

