-- ==== Sys2Proof/Machine/Pools.lean ====
section
/-! DEFINITION. Pool frames: handles, the free stores, allocation, sharing and freeing (09, R296 to R303). -/

namespace Sys2Proof.Machine

/-! Memory instances (MIC_MEM). -/

def memKey (isl j : Nat) : Nat := isl * 16 + j
def State.mem (s : State) (isl j : Nat) : MMem := tval s.mic.mems (memKey isl j)
def State.setMem (s : State) (isl j : Nat) (m : MMem) : State := { s with mic := { s.mic with mems := tset s.mic.mems (memKey isl j) m } }

/-! Frames. -/

/-- The key of frame `f` of class `c`; frames past the DRAM frames are staging frames of the clusters. -/
def frameKey (c f : Nat) : Nat := c * 2 ^ 28 + f

def State.pool (s : State) (c : Nat) : Pool := tval s.bpm.pools c
def State.setPool (s : State) (c : Nat) (p : Pool) : State := { s with bpm := { s.bpm with pools := tset s.bpm.pools c p } }
def State.frame (s : State) (k : Nat) : PFrame := tval s.bpm.frames k
def State.setFrame (s : State) (k : Nat) (f : PFrame) : State := { s with bpm := { s.bpm with frames := tset s.bpm.frames k f } }

/-- Staging frames one cluster lends to a class: 64 to class 0 and 16 to class 1 (BPM_POOL_CFG). -/
def lent (c : Nat) : Nat := if c = 0 then 64 else 16

/-- A handle (Table 9-10). -/
def mkHandle (c : Nat) (p : Pool) (f gen : Nat) : Nat :=
  if f < p.frames then c + f * 2 ^ 8 + gen * 2 ^ 36
  else c + 8 + ((f - p.frames) / lent c) * 16 + ((f - p.frames) % lent c) * 2 ^ 8 + gen * 2 ^ 36

def hCls (h : Nat) : Nat := bitsAt h 0 3
def hGen (h : Nat) : Nat := bitsAt h 36 16
def hFrame (s : State) (h : Nat) : Nat :=
  if bitAt h 3 then (s.pool (hCls h)).frames + bitsAt h 4 4 * lent (hCls h) + bitsAt h 8 28 else bitsAt h 8 28
def hKey (s : State) (h : Nat) : Nat := frameKey (hCls h) (hFrame s h)

/-- Does a handle name a held frame of its generation (R297)? -/
def State.handleLive (s : State) (h : Nat) : Bool := (s.frame (hKey s h)).held && (s.frame (hKey s h)).gen == hGen h

/-- Free frames of a class: ring and cache. -/
def Pool.freeCount (p : Pool) : Nat :=
  (p.filled - p.fresh) - (p.skip.filter (fun f => decide (p.fresh ≤ f) && decide (f < p.filled))).length + p.ring.length + p.cache.length

/-- Take 64 from the ring head when the cache holds fewer than 32 (R299). -/
def Pool.refill (p : Pool) : Pool :=
  if p.cache.length < 32 then
    let n := min 64 (p.filled - p.fresh)
    let a := ((List.range n).map (fun i => p.fresh + i)).filter (fun f => !p.skip.contains f)
    let m := min (64 - n) p.ring.length
    if a.length + m = 0 then { p with fresh := p.fresh + n }
    else { p with cache := p.cache ++ a ++ p.ring.take m, fresh := p.fresh + n, ring := p.ring.drop m
                  head := p.head + a.length + m, pgen := (p.pgen + 1) % 2 ^ 32 }
  else p

/-- Return 64 to the ring tail when the cache holds more than 112 (R299). -/
def Pool.spill (p : Pool) : Pool :=
  if 112 < p.cache.length then { p with ring := p.ring ++ p.cache.take 64, cache := p.cache.drop 64, pgen := (p.pgen + 1) % 2 ^ 32 } else p

/-- The first class from `c` up to 5 with a frame to give; the last 64 of a class go only to the first stalled request
(R300). -/
def State.classFor (s : State) (c : Nat) (first : Bool) : Nat → Option Nat
  | 0 => none
  | n + 1 =>
    if 5 < c then none
    else if (if first then 0 else 64) < (s.pool c).freeCount then some c else s.classFor (c + 1) first n

/-- A frame is handed out: one holder, counted mode. -/
def State.holdFrame (s : State) (c f unit slice : Nat) : Nat × State :=
  let fr := s.frame (frameKey c f)
  let g := if fr.gen = 0 then 1 else fr.gen
  (mkHandle c (s.pool c) f g, s.setFrame (frameKey c f) { fr with held := true, named := false, refs := 1, gen := g, owner := unit, slice := slice })

/-- Take one frame of a class. -/
def State.takeFrame (s : State) (c : Nat) (unit slice : Nat) : Option (Nat × State) :=
  let p := (s.pool c).refill
  match p.cache with
  | [] => none
  | f :: rest =>
    some ((s.setPool c { p with cache := rest }).holdFrame c f unit slice)

/-- The staging frames a cluster lends to a class; a landing read of the cluster's own channels takes one first (R295). The unit ID
has the island in bits 15 to 8 (Table 9-11). -/
def State.stagingFree (s : State) (c unit : Nat) : Option Nat :=
  if decide (c < 2) && isMcl (unit / 256) && s.islOn (unit / 256) then
    ((List.range (lent c)).map (fun i => (s.pool c).frames + (unit / 256 - 10) * lent c + i)).find? (fun f => !(s.frame (frameKey c f)).held)
  else none

/-- An allocation (R295, R300): a staging frame for a landing read, else the frame of the class or of the next larger one,
counted. -/
def State.allocFrame (s : State) (c unit slice : Nat) (first : Bool) : Option (Nat × State) :=
  match s.stagingFree c unit with
  | some f => some ((s.holdFrame c f unit slice).1, ((s.holdFrame c f unit slice).2).bpmCnt 0 1)
  | none =>
    match s.classFor c first 6 with
    | none => none
    | some k =>
      match s.takeFrame k unit slice with
      | none => none
      | some (h, t) => some (h, if k = c then t.bpmCnt 0 1 else (t.bpmCnt 0 1).bpmCnt 1 1)

/-- `n` frames at once, or none of them (DEDUCED, log 29). -/
def State.allocFrames (s : State) (c unit slice : Nat) : Nat → Option (List Nat × State)
  | 0 => some ([], s)
  | n + 1 =>
    match s.allocFrame c unit slice false with
    | none => none
    | some (h, t) =>
      match t.allocFrames c unit slice n with
      | none => none
      | some (l, u) => some (h :: l, u)

/-- The next FGEN, skipping 0 (Table 9-11). -/
def nextGen (g : Nat) : Nat := if g + 1 ≥ 65536 then 1 else g + 1

/-- A frame of a class is retired: it is counted; past 1 % of the class CMI has a Degraded fault, and the DRAM interface whose line failed is
reported Degraded (R303, MIC_MEM). -/
def State.countRetired (s : State) (k : Nat) : State :=
  let c := k / 2 ^ 28
  let p := s.pool c
  let isl := (s.frame k).badIsl
  let s1 := (s.setPool c { p with retired := p.retired + 1 }).bpmCnt 7 1
  if p.frames < (p.retired + 1) * 100 then (s1.setMem isl 13 { (s1.mem isl 13) with degraded := true }).queueFault { src := 753, level := 2, detail := k }
  else s1

/-- A frame without holders goes back to its free store; a retiring one goes to none (R301, R303). -/
def State.frameBack (s : State) (k : Nat) : State :=
  let fr := s.frame k
  let c := k / 2 ^ 28
  let p := s.pool c
  let fr1 := { fr with held := false, named := false, refs := 0, gen := nextGen fr.gen, owner := 0 }
  if fr.retiring then
    (s.setFrame k { fr1 with retired := true, retiring := false }).countRetired k
  else if p.frames ≤ k % 2 ^ 28 then s.setFrame k fr1
  else (s.setFrame k fr1).setPool c { p with cache := p.cache ++ [k % 2 ^ 28] }.spill

/-- Owner of a stall: its place in the order (R300): the Z9's own requesters first, then FSEQ. -/
def insertStall (e : Stall) : List Stall → List Stall
  | [] => [e]
  | a :: t => if e.order < a.order then e :: a :: t else a :: insertStall e t

/-- The first stalled request takes a frame if there is one: the frame goes to its asker, whose wait ends. -/
def State.serveStall (s : State) : State :=
  match s.bpm.stalls with
  | [] => s
  | e :: rest =>
    match s.allocFrame e.cls e.unit e.slice true with
    | none => s
    | some (h, t) =>
      let t1 := { t with bpm := { t.bpm with stalls := rest } }
      match e.who with
      | .command c => if (t1.ctx? c).isSome then t1.modCtx c (fun x => { x with bufs := x.bufs ++ [h], wait := 0 }) else t1
      | .compute c => if (t1.job? c).isSome then t1.modJob c (fun j => { j with frames := j.frames ++ [h] }) else t1
      | .internal _ => t1

/-- The place of a request in the order of stalls (R300): the Z9's own requesters first, then FSEQ. -/
def State.stallOrder (s : State) : PoolAsker → Nat
  | .internal _ => 0
  | .command c => (s.ctx c).fseq + 1
  | .compute c => (s.ctx c).fseq + 1

/-- A request that finds no frame stalls in order, with wait cause 6 (R300); the first in the order may take from the last 64 frames at
once. -/
def State.stallFrame (s : State) (cls unit slice : Nat) (who : PoolAsker) : State :=
  let e : Stall := { cls := cls, unit := unit, slice := slice, who := who, order := s.stallOrder who }
  let s1 := { s with bpm := { s.bpm with stalls := insertStall e s.bpm.stalls } }
  let s2 := match who with
    | .command c => if (s1.ctx? c).isSome then s1.modCtx c (fun x => { x with wait := 6 }) else s1
    | _ => s1
  (s2.bpmCnt 2 1).serveStall

/-- A free (R301, R302): refused for a stale generation or by a unit that is not a named frame's owner (DEDUCED, log 106). -/
def State.freeFrame (s : State) (h unit : Nat) : State :=
  let k := hKey s h
  let fr := s.frame k
  if !s.handleLive h then s.bpmCnt 6 1
  else if fr.named then
    if fr.owner = unit then (s.frameBack k).serveStall
    else (s.bpmCnt 5 1).queueFault { src := 753, level := 0, detail := h }
  else if fr.refs ≤ 1 then (s.frameBack k).serveStall
  else s.setFrame k { fr with refs := fr.refs - 1 }

/-- Give back a list of handles, whoever holds them (a squash, a job's end, an audit). -/
def State.freeAll (s : State) (l : List Nat) : State :=
  l.foldl (fun t h => if t.handleLive h then (t.frameBack (hKey t h)).serveStall else t) s

/-- The Z9 frees the named frames of an OWNER that is gone: a sandbox that ends, a unit that is reset or isolated (R302). -/
def State.freeOwned (s : State) (p : Nat → Bool) : State :=
  ((s.bpm.frames.filter (fun e => e.2.held && e.2.named && p e.2.owner)).map (·.1)).foldl (fun t k => (t.frameBack k).serveStall) s

/-- The OWNER of a sandbox, and of a unit of an island (0xFF: any of its units) (Table 9-11). -/
def sandboxOwner (n o : Nat) : Bool := o == 0x8000 + n
def unitOwner (isl u o : Nat) : Bool := decide (o < 0x8000) && o / 256 == isl && (u == 0xFF || o % 256 == u)

end Sys2Proof.Machine
end

