-- ==== Sys2Proof/Machine/Inflate.lean ====
section
/-! DEFINITION. The DEFLATE, zlib, gzip and LZ4 decoders (08 R252, Tables 8-8 and 8-9; RFC 1950, 1951 and 1952, and the LZ4 block
and frame formats, which R2 names) (PRESUMED, log 6). -/

namespace Sys2Proof.Machine

/-- A decoder over one stream: where it stands in its input (bits or bytes), its output, newest byte first, what it had consumed at
each length of its output, and the ENGINE_ERR (Table 8-7) it ends with. -/
structure Dec where
  pos : Nat := 0
  n : Nat := 0
  out : List Byte := []
  marks : List (Nat × Nat) := []
  err : Option Nat := none
  deriving DecidableEq, Repr, Inhabited

def Dec.fail (d : Dec) (e : Nat) : Dec := { d with err := some e }

/-- Bytes come out at once, `used` input bytes being consumed. -/
def Dec.emit (d : Dec) (l : List Byte) (used : Nat) : Dec :=
  { d with n := d.n + l.length, out := l.reverse ++ d.out, marks := (d.n + l.length, used) :: d.marks }

/-- Stored bytes come out one by one, from input byte `start` on. -/
def Dec.emitRaw (d : Dec) (l : List Byte) (start : Nat) : Dec :=
  { d with n := d.n + l.length, out := l.reverse ++ d.out
           marks := ((List.range l.length).map (fun i => (d.n + i + 1, start + i + 1))).reverse ++ d.marks }

/-- The newest bytes of an output with `len` more, each the byte `dist` back. -/
def copyBack (dist : Nat) : Nat → List Byte → List Byte
  | 0, h => h
  | k + 1, h => copyBack dist k (h.getD (dist - 1) 0 :: h)

def Dec.copy (d : Dec) (dist len used : Nat) : Dec :=
  { d with n := d.n + len, out := copyBack dist len d.out, marks := (d.n + len, used) :: d.marks }

/-- The output in order. -/
def Dec.bytes (d : Dec) : List Byte := d.out.reverse

/-- Input bytes consumed when the output had reached `m` bytes (DEDUCED, log 6). -/
def Dec.usedAt (d : Dec) (m : Nat) : Nat := ((d.marks.reverse.find? (fun k => decide (m ≤ k.1))).map (·.2)).getD d.pos

/-! Checksums. -/

/-- Adler-32 (RFC 1950). -/
def adler32 (b : List Byte) : Nat :=
  let r := b.foldl (fun (a : Nat × Nat) x => let s := (a.1 + x.toNat) % 65521; (s, (a.2 + s) % 65521)) (1, 0)
  r.2 * 65536 + r.1

/-- CRC-32 (RFC 1952). -/
def crc32 (b : List Byte) : Nat :=
  (b.foldl (fun c x => crc32Bits 0xEDB88320 8 (c ^^^ x.toNat)) 0xFFFFFFFF) ^^^ 0xFFFFFFFF

/-- Rotate a `w`-bit number left. -/
def rotLeft (w x k : Nat) : Nat := (x <<< k ||| x >>> (w - k)) % 2 ^ w

def xxP32 (i : Nat) : Nat := [0x9E3779B1, 0x85EBCA77, 0xC2B2AE3D, 0x27D4EB2F, 0x165667B1].getD i 0
def xx32Round (acc v : Nat) : Nat := rotLeft 32 ((acc + v * xxP32 1) % 2 ^ 32) 13 * xxP32 0 % 2 ^ 32

/-- The 16-byte stripes of an xxHash32 input. -/
def xx32Stripes : Nat → List Byte → List Nat → List Byte × List Nat
  | 0, b, a => (b, a)
  | f + 1, b, a =>
    if b.length < 16 then (b, a)
    else xx32Stripes f (b.drop 16) ((List.range 4).map (fun i => xx32Round (a.getD i 0) (u32 b (4 * i))))

def xx32Words : Nat → List Byte → Nat → List Byte × Nat
  | 0, b, h => (b, h)
  | f + 1, b, h =>
    if b.length < 4 then (b, h)
    else xx32Words f (b.drop 4) (rotLeft 32 ((h + u32 b 0 * xxP32 2) % 2 ^ 32) 17 * xxP32 3 % 2 ^ 32)

/-- xxHash32 with seed 0 (the LZ4 frame format's checksum). -/
def xxh32 (b : List Byte) : Nat :=
  let st := xx32Stripes (b.length / 16) b [(xxP32 0 + xxP32 1) % 2 ^ 32, xxP32 1, 0, (2 ^ 32 - xxP32 0) % 2 ^ 32]
  let h0 := if b.length < 16 then xxP32 4
    else (rotLeft 32 (st.2.getD 0 0) 1 + rotLeft 32 (st.2.getD 1 0) 7 + rotLeft 32 (st.2.getD 2 0) 12 + rotLeft 32 (st.2.getD 3 0) 18) % 2 ^ 32
  let w := xx32Words 4 st.1 ((h0 + b.length) % 2 ^ 32)
  let h1 := w.1.foldl (fun h x => rotLeft 32 ((h + x.toNat * xxP32 4) % 2 ^ 32) 11 * xxP32 0 % 2 ^ 32) w.2
  let h2 := (h1 ^^^ (h1 >>> 15)) * xxP32 1 % 2 ^ 32
  let h3 := (h2 ^^^ (h2 >>> 13)) * xxP32 2 % 2 ^ 32
  h3 ^^^ (h3 >>> 16)

/-! DEFLATE (RFC 1951). A stream is one number `v` of `total` bits, the first bit lowest. -/

/-- A canonical code: how many codes there are of each length from 1, and the symbols in code order. -/
structure Huff where
  cnt : List Nat := []
  syms : List Nat := []
  deriving DecidableEq, Repr, Inhabited

def huffOf (lens : List Nat) : Huff :=
  { cnt := (List.range 15).map (fun l => lens.count (l + 1))
    syms := (List.range 15).flatMap (fun l => (List.range lens.length).filter (fun s => lens.getD s 0 == l + 1)) }

/-- Codes left over once every symbol has its own; below 0 the code is over-subscribed. -/
def Huff.left (h : Huff) : Int := h.cnt.foldl (fun (a : Int) (c : Nat) => 2 * a - c) 1

/-- Is a code one that a stream may use: complete, or with at most one code, of one bit? -/
def Huff.ok (h : Huff) (lens : List Nat) : Bool := h.left == 0 || (decide (0 < h.left) && lens.all (fun l => decide (l ≤ 1)))

/-- Read one symbol: the symbol and where its code ends, or the error. -/
def huffGo (v total : Nat) (syms : List Nat) : List Nat → Nat → Nat → Nat → Nat → Except Nat (Nat × Nat)
  | [], _, _, _, _ => .error 1
  | c :: t, pos, code, first, index =>
    if total ≤ pos then .error 4
    else
      let k := code + bitsAt v pos 1
      if k < first + c then .ok (syms.getD (index + (k - first)) 0, pos + 1)
      else huffGo v total syms t (pos + 1) (2 * k) (2 * (first + c)) (index + c)

def Huff.read (h : Huff) (v total pos : Nat) : Except Nat (Nat × Nat) := huffGo v total h.syms h.cnt pos 0 0 0

def lenBase : List Nat :=
  [3, 4, 5, 6, 7, 8, 9, 10, 11, 13, 15, 17, 19, 23, 27, 31, 35, 43, 51, 59, 67, 83, 99, 115, 131, 163, 195, 227, 258]
def lenExtra : List Nat := [0, 0, 0, 0, 0, 0, 0, 0, 1, 1, 1, 1, 2, 2, 2, 2, 3, 3, 3, 3, 4, 4, 4, 4, 5, 5, 5, 5, 0]
def distBase : List Nat :=
  [1, 2, 3, 4, 5, 7, 9, 13, 17, 25, 33, 49, 65, 97, 129, 193, 257, 385, 513, 769, 1025, 1537, 2049, 3073, 4097, 6145, 8193, 12289, 16385, 24577]
def distExtra : List Nat :=
  [0, 0, 0, 0, 1, 1, 2, 2, 3, 3, 4, 4, 5, 5, 6, 6, 7, 7, 8, 8, 9, 9, 10, 10, 11, 11, 12, 12, 13, 13]

/-- A match: its length's extra bits, its distance. -/
def inflateMatch (v total : Nat) (dist : Huff) (s pos : Nat) (d : Dec) : Dec :=
  let i := s - 257
  let x := lenExtra.getD i 0
  if 28 < i then d.fail 1
  else if total < pos + x then d.fail 4
  else
    let len := lenBase.getD i 0 + bitsAt v pos x
    match dist.read v total (pos + x) with
    | .error e => d.fail e
    | .ok (ds, p) =>
      let y := distExtra.getD ds 0
      let far := distBase.getD ds 0 + bitsAt v p y
      if 29 < ds then d.fail 1
      else if total < p + y then d.fail 4
      else if d.n < far then d.fail 1
      else { d.copy far len ((p + y + 7) / 8) with pos := p + y }

/-- The symbols of a block up to its end. -/
def inflateSyms (v total : Nat) (lit dist : Huff) : Nat → Dec → Dec
  | 0, d => d.fail 4
  | f + 1, d =>
    match lit.read v total d.pos with
    | .error e => d.fail e
    | .ok (s, p) =>
      if s = 256 then { d with pos := p }
      else if s < 256 then inflateSyms v total lit dist f ({ d with pos := p }.emit [BitVec.ofNat 8 s] ((p + 7) / 8))
      else
        let d1 := inflateMatch v total dist s p d
        if d1.err.isSome then d1 else inflateSyms v total lit dist f d1

/-- The code lengths of a dynamic block: `n` in all. -/
def readLens (v total n : Nat) (h : Huff) : Nat → Nat → List Nat → Except Nat (List Nat × Nat)
  | 0, _, _ => .error 4
  | f + 1, pos, l =>
    if n ≤ l.length then .ok (l, pos)
    else match h.read v total pos with
    | .error e => .error e
    | .ok (s, p) =>
      if s < 16 then readLens v total n h f p (l ++ [s])
      else
        let x := if s = 16 then 2 else if s = 17 then 3 else 7
        let r := (if s = 18 then 11 else 3) + bitsAt v p x
        if total < p + x then .error 4
        else if (s = 16 ∧ l.isEmpty) ∨ n < l.length + r then .error 1
        else readLens v total n h f (p + x) (l ++ List.replicate r (if s = 16 then l.getLastD 0 else 0))

/-- The order in which the lengths of the code-length code are sent. -/
def clOrder : List Nat := [16, 17, 18, 0, 8, 7, 9, 6, 10, 5, 11, 4, 12, 3, 13, 2, 14, 1, 15]

/-- The codes of a dynamic block and where its symbols start. -/
def dynamicCodes (v total pos : Nat) : Except Nat (Huff × Huff × Nat) :=
  let nl := bitsAt v pos 5 + 257
  let nd := bitsAt v (pos + 5) 5 + 1
  let nc := bitsAt v (pos + 10) 4 + 4
  let cl := (List.range 19).map (fun s => match clOrder.findIdx? (· == s) with | some i => if i < nc then bitsAt v (pos + 14 + 3 * i) 3 else 0 | none => 0)
  if total < pos + 14 + 3 * nc then .error 4
  else if 286 < nl ∨ 30 < nd ∨ (huffOf cl).left ≠ 0 then .error 1
  else match readLens v total (nl + nd) (huffOf cl) (nl + nd + 1) (pos + 14 + 3 * nc) [] with
  | .error e => .error e
  | .ok (l, p) =>
    let ll := l.take nl
    let dl := l.drop nl
    if ll.getD 256 0 = 0 ∨ !(huffOf ll).ok ll ∨ !(huffOf dl).ok dl then .error 1 else .ok (huffOf ll, huffOf dl, p)

/-- The codes of a fixed block. -/
def fixedLit : Huff := huffOf ((List.range 288).map (fun s => if s < 144 then 8 else if s < 256 then 9 else if s < 280 then 7 else 8))
def fixedDist : Huff := huffOf (List.replicate 32 5)

/-- Blocks up to the one with BFINAL. -/
def inflateBlocks (b : List Byte) (v total : Nat) : Nat → Dec → Dec
  | 0, d => d.fail 4
  | f + 1, d =>
    if total < d.pos + 3 then d.fail 4
    else
      let fin := bitsAt v d.pos 1 == 1
      let ty := bitsAt v (d.pos + 1) 2
      let p := d.pos + 3
      let d1 := if ty = 0 then
          let o := (p + 7) / 8
          let n := u16 b o
          if b.length < o + 4 then d.fail 4
          else if n + u16 b (o + 2) ≠ 65535 then d.fail 1
          else
            let l := slice b (o + 4) n
            let e := d.emitRaw l (o + 4)
            if l.length < n then e.fail 4 else { e with pos := (o + 4 + n) * 8 }
        else if ty = 1 then inflateSyms v total fixedLit fixedDist (total + 1) { d with pos := p }
        else if ty = 2 then (match dynamicCodes v total p with
          | .error e => d.fail e
          | .ok (lit, dist, q) => inflateSyms v total lit dist (total + 1) { d with pos := q })
        else d.fail 1
      if d1.err.isSome || fin then d1 else inflateBlocks b v total f d1

/-- A DEFLATE stream from byte `o` of an input; its position counts bytes of the input (PRESUMED, log 6). -/
def inflateAt (b : List Byte) (o : Nat) : Dec :=
  let d := inflateBlocks b (leNat b) (8 * b.length) (8 * b.length + 1) { pos := 8 * o }
  { d with pos := (d.pos + 7) / 8 }

/-! zlib (RFC 1950) and gzip (RFC 1952). -/

/-- A trailing check that must hold: an input that ends before it has error 4, a mismatch error 2. -/
def Dec.trailer (d : Dec) (b : List Byte) (n : Nat) (ok : Bool) : Dec :=
  if d.err.isSome then d else if b.length < d.pos + n then d.fail 4 else if ok then { d with pos := d.pos + n } else { d with pos := d.pos + n, err := some 2 }

def zlibStream (b : List Byte) : Dec :=
  let cmf := u8 b 0
  let flg := u8 b 1
  if b.length < 2 then ({} : Dec).fail 4
  else if cmf % 16 ≠ 8 ∨ 7 < cmf / 16 ∨ (cmf * 256 + flg) % 31 ≠ 0 then ({} : Dec).fail 1
  else if bitAt flg 5 then ({} : Dec).fail 3
  else
    let d := inflateAt b 2
    d.trailer b 4 (beNat (slice b d.pos 4) == adler32 d.bytes)

/-- Past a zero-terminated string. -/
def pastZero (b : List Byte) (o : Nat) : Option Nat := ((b.drop o).findIdx? (· == 0)).map (fun i => o + i + 1)

/-- The end of a gzip header, or its error. -/
def gzipHeader (b : List Byte) : Except Nat Nat :=
  let flg := u8 b 3
  if b.length < 10 then .error 4
  else if u16 b 0 ≠ 0x8B1F ∨ u8 b 2 ≠ 8 ∨ 32 ≤ flg then .error 1
  else
    let o1 : Option Nat := if bitAt flg 2 then (if b.length < 12 + u16 b 10 then none else some (12 + u16 b 10)) else some 10
    let o2 := if bitAt flg 3 then o1.bind (pastZero b) else o1
    let o3 := if bitAt flg 4 then o2.bind (pastZero b) else o2
    match o3 with
    | none => .error 4
    | some o =>
      if !bitAt flg 1 then .ok o
      else if b.length < o + 2 then .error 4
      else if u16 b o ≠ crc32 (b.take o) % 65536 then .error 2
      else .ok (o + 2)

/-- One gzip member. -/
def gzipStream (b : List Byte) : Dec :=
  match gzipHeader b with
  | .error e => ({} : Dec).fail e
  | .ok o =>
    let d := inflateAt b o
    d.trailer b 8 (u32 b d.pos == crc32 d.bytes && u32 b (d.pos + 4) == d.n % 2 ^ 32)

/-! LZ4. -/

/-- A length of 15 goes on in bytes of 255: the length and where it ends. -/
def lz4Len (b : List Byte) (e : Nat) : Nat → Nat → Nat → Except Nat (Nat × Nat)
  | 0, _, _ => .error 4
  | f + 1, pos, n => if e ≤ pos then .error 4 else if u8 b pos = 255 then lz4Len b e f (pos + 1) (n + 255) else .ok (n + u8 b pos, pos + 1)

def lz4Field (b : List Byte) (e pos n : Nat) : Except Nat (Nat × Nat) := if n < 15 then .ok (n, pos) else lz4Len b e (e + 1) pos n

/-- The sequences of an LZ4 block that ends at byte `e`; matches reach back to output byte `base`. -/
def lz4Seqs (b : List Byte) (e base : Nat) : Nat → Dec → Dec
  | 0, d => d.fail 4
  | f + 1, d =>
    let tok := u8 b d.pos
    if e ≤ d.pos then d.fail 4
    else match lz4Field b e (d.pos + 1) (tok / 16) with
    | .error x => d.fail x
    | .ok (ll, p) =>
      let lits := slice b p (min ll (e - p))
      let d1 := d.emitRaw lits p
      if e < p + ll then d1.fail 4
      else if p + ll = e then { d1 with pos := e }
      else if e < p + ll + 2 then d1.fail 4
      else
        let off := u16 b (p + ll)
        match lz4Field b e (p + ll + 2) (tok % 16) with
        | .error x => d1.fail x
        | .ok (ml, q) =>
          if off = 0 ∨ d1.n - base < off then d1.fail 1
          else lz4Seqs b e base f { d1.copy off (ml + 4) q with pos := q }

/-- A whole input as one LZ4 block. -/
def lz4Block (b : List Byte) : Dec := lz4Seqs b b.length 0 (b.length + 1) {}

/-- The blocks of an LZ4 frame: FLG bits for block independence and block checksums, and the largest block. -/
def lz4Blocks (b : List Byte) (indep bsum : Bool) (big : Nat) : Nat → Dec → Dec
  | 0, d => d.fail 4
  | f + 1, d =>
    let h := u32 b d.pos
    let n := h % 2 ^ 31
    let p := d.pos + 4
    if b.length < p then d.fail 4
    else if h = 0 then { d with pos := p }
    else if big < n then d.fail 1
    else if b.length < p + n then d.fail 4
    else
      let d1 := if bitAt h 31 then { d.emitRaw (slice b p n) p with pos := p + n }
                else lz4Seqs b (p + n) (if indep then d.n else d.n - 65535) (n + 1) { d with pos := p }
      if d1.err.isSome then d1
      else if d.n + big < d1.n then d1.fail 1
      else if !bsum then lz4Blocks b indep bsum big f d1
      else if b.length < p + n + 4 then d1.fail 4
      else if u32 b (p + n) ≠ xxh32 (slice b p n) then d1.fail 2
      else lz4Blocks b indep bsum big f { d1 with pos := p + n + 4 }

/-- One LZ4 frame; a skippable frame has no output. -/
def lz4Frame (b : List Byte) : Dec :=
  let m := u32 b 0
  let flg := u8 b 4
  let bd := u8 b 5
  if b.length < 4 then ({} : Dec).fail 4
  else if m / 16 = 0x184D2A5 then
    (if b.length < 8 + u32 b 4 ∨ b.length < 8 then ({} : Dec).fail 4 else { pos := 8 + u32 b 4 })
  else if m ≠ 0x184D2204 then ({} : Dec).fail 1
  else if b.length < 7 then ({} : Dec).fail 4
  else if flg / 64 ≠ 1 ∨ bitAt flg 1 ∨ bd % 16 ≠ 0 ∨ 128 ≤ bd ∨ bd / 16 < 4 then ({} : Dec).fail 1
  else
    let hl := 6 + (if bitAt flg 3 then 8 else 0) + (if bitAt flg 0 then 4 else 0)
    if b.length < hl + 1 then ({} : Dec).fail 4
    else if u8 b hl ≠ xxh32 (slice b 4 (hl - 4)) / 256 % 256 then ({} : Dec).fail 2
    else if bitAt flg 0 then ({} : Dec).fail 3
    else
      let d := lz4Blocks b (bitAt flg 5) (bitAt flg 4) (2 ^ (8 + 2 * (bd / 16))) (b.length + 1) { pos := hl + 1 }
      if d.err.isSome then d
      else if bitAt flg 3 ∧ u64 b 6 ≠ d.n then d.fail 1
      else if bitAt flg 2 then d.trailer b 4 (u32 b d.pos == xxh32 d.bytes) else d

end Sys2Proof.Machine
end

