-- ==== Sys2Proof/Machine/Deflate.lean ====
section
/-! DEFINITION. The DEFLATE output of the compressors (08 R249; RFC 1951, which R2 names) (PRESUMED, log 6). A bit string is its
number, first bit lowest, and its length. -/

namespace Sys2Proof.Machine

/-- A bit string that grows. -/
structure Bits where
  v : Nat := 0
  n : Nat := 0
  deriving DecidableEq, Repr, Inhabited

def Bits.put (b : Bits) (k x : Nat) : Bits := { v := b.v + x % 2 ^ k * 2 ^ b.n, n := b.n + k }
/-- Zero bits up to a byte boundary. -/
def Bits.align (b : Bits) : Bits := { b with n := (b.n + 7) / 8 * 8 }
def Bits.bytes (b : Bits) : List Byte := leBytes ((b.n + 7) / 8) b.v

/-! Code lengths by package-merge (DEDUCED, log 6). -/

/-- An item or a package: its weight and the symbols in it. -/
abbrev Coin := Nat × List Nat

/-- Put a coin before the first heavier one. -/
def coinPut (c : Coin) : List Coin → List Coin
  | [] => [c]
  | d :: t => if c.1 < d.1 then c :: d :: t else d :: coinPut c t

/-- Pair neighbours; an odd last coin is dropped. -/
def coinPairs : List Coin → List Coin
  | a :: b :: t => (a.1 + b.1, a.2 ++ b.2) :: coinPairs t
  | _ => []

/-- Merge two rising lists; the first list's coin goes first at equal weight. -/
def coinMerge : Nat → List Coin → List Coin → List Coin
  | 0, a, b => a ++ b
  | _ + 1, [], b => b
  | _ + 1, a, [] => a
  | f + 1, x :: a, y :: b => if x.1 ≤ y.1 then x :: coinMerge f a (y :: b) else y :: coinMerge f (x :: a) b

def coinLevels (items : List Coin) : Nat → List Coin
  | 0 => items
  | n + 1 => let p := coinPairs (coinLevels items n); coinMerge (items.length + p.length) items p

/-- Code lengths of at most `limit` bits for symbol counts; ties go to the lower symbol. -/
def packageMerge (limit : Nat) (counts : List Nat) : List Nat :=
  let used := (List.range counts.length).filter (fun s => counts.getD s 0 != 0)
  let items := used.foldl (fun l s => coinPut (counts.getD s 0, [s]) l) []
  if used.length ≤ 1 then counts.map (fun c => if c = 0 then 0 else 1)
  else
    let l := ((coinLevels items (limit - 1)).take (2 * used.length - 2)).flatMap (·.2)
    (List.range counts.length).map (fun s => l.count s)

/-! Writing codes. -/

/-- The first code of each length from 0. -/
def firstCodes (lens : List Nat) : List Nat :=
  (List.range 16).foldl (fun l k => l ++ [if k = 0 then 0 else 2 * (l.getLastD 0 + (if k = 1 then 0 else lens.count (k - 1)))]) []

/-- The lowest `k` bits in reverse order. -/
def revLow (x : Nat) : Nat → Nat
  | 0 => 0
  | k + 1 => x % 2 * 2 ^ k + revLow (x / 2) k

/-- The code of each symbol: its length, and its bits first bit lowest. -/
def codesOf (lens : List Nat) : List (Nat × Nat) :=
  let fc := firstCodes lens
  (List.range lens.length).map (fun s =>
    let k := lens.getD s 0
    (k, revLow (fc.getD k 0 + (lens.take s).count k) k))

def Bits.code (b : Bits) (cs : List (Nat × Nat)) (s : Nat) : Bits := let c := cs.getD s (0, 0); b.put c.1 c.2

/-- The last entry of a base list that is not above `x`. -/
def baseIdx (l : List Nat) (x : Nat) : Nat := (l.filter (fun b => decide (b ≤ x))).length - 1

/-- Length 258 has a symbol of its own. -/
def lenIdx (len : Nat) : Nat := if len = 258 then 28 else baseIdx (lenBase.take 28) len

/-- One token: a literal (byte, 0) or a match (distance, length). -/
def Bits.token (b : Bits) (lit dist : List (Nat × Nat)) (t : Nat × Nat) : Bits :=
  if t.2 = 0 then b.code lit t.1
  else
    let i := lenIdx t.2
    let j := baseIdx distBase t.1
    (((b.code lit (257 + i)).put (lenExtra.getD i 0) (t.2 - lenBase.getD i 0)).code dist j).put (distExtra.getD j 0) (t.1 - distBase.getD j 0)

/-- How often each literal/length symbol, and each distance symbol, stands in a block. -/
def litCounts (ts : List (Nat × Nat)) : List Nat :=
  let l := ts.map (fun t => if t.2 = 0 then t.1 else 257 + lenIdx t.2)
  (List.range 286).map (fun s => if s = 256 then 1 else l.count s)
def distCounts (ts : List (Nat × Nat)) : List Nat :=
  let l := (ts.filter (fun t => t.2 != 0)).map (fun t => baseIdx distBase t.1)
  (List.range 30).map (fun s => l.count s)

/-- The code lengths that code-length symbols spell; none where they are not well formed. -/
def clExpand : List (Nat × Nat) → List Nat → Option (List Nat)
  | [], acc => some acc
  | (s, x) :: t, acc =>
    if s < 16 then (if x = 0 then clExpand t (acc ++ [s]) else none)
    else if s = 16 then (if acc.isEmpty || decide (4 ≤ x) then none else clExpand t (acc ++ List.replicate (3 + x) (acc.getLastD 0)))
    else if s = 17 then (if 8 ≤ x then none else clExpand t (acc ++ List.replicate (3 + x) 0))
    else if s = 18 then (if 128 ≤ x then none else clExpand t (acc ++ List.replicate (11 + x) 0))
    else none

/-- One more than the index of the last nonzero entry. -/
def usedLen (l : List Nat) : Nat := l.length - (l.reverse.takeWhile (· == 0)).length

/-- A number the compressor chooses, kept within its bounds. -/
def chosenIn (lo hi x : Nat) : Nat := max lo (min hi x)

/-- A block with dynamic codes. -/
def dynamicBlock (fin : Bool) (ts : List (Nat × Nat)) (b : Bits) : Bits :=
  let ll := packageMerge 15 (litCounts ts)
  let dl := packageMerge 15 (distCounts ts)
  let ch := Config.clCounts ll dl
  let nl := chosenIn (max 257 (usedLen ll)) 286 ch.1
  let nd := chosenIn (max 1 (usedLen dl)) 30 ch.2.1
  let lens := ll.take nl ++ dl.take nd
  let runs := if clExpand (Config.clRuns lens) [] = some lens then Config.clRuns lens else lens.map (fun k => (k, 0))
  let cl := packageMerge 7 ((List.range 19).map (fun s => (runs.map (·.1)).count s))
  let ordered := clOrder.map (fun s => cl.getD s 0)
  let nc := chosenIn (max 4 (usedLen ordered)) 19 ch.2.2
  let b1 := ((((b.put 1 (if fin then 1 else 0)).put 2 2).put 5 (nl - 257)).put 5 (nd - 1)).put 4 (nc - 4)
  let b2 := (ordered.take nc).foldl (fun a k => a.put 3 k) b1
  let cs := codesOf cl
  let b3 := runs.foldl (fun a r => (a.code cs r.1).put (if r.1 = 16 then 2 else if r.1 = 17 then 3 else if r.1 = 18 then 7 else 0) r.2) b2
  let lc := codesOf ll
  let dc := codesOf dl
  (ts.foldl (fun a t => a.token lc dc t) b3).code lc 256

/-- Stored blocks of at most 65,535 bytes. -/
def storedBlocks (fin : Bool) : Nat → List Byte → Bits → Bits
  | 0, _, b => b
  | f + 1, l, b =>
    let n := min 65535 l.length
    let last := decide (l.length ≤ 65535)
    let b1 := ((((b.put 1 (if fin && last then 1 else 0)).put 2 0).align.put 16 n).put 16 (65535 - n)).put (8 * n) (leNat (l.take n))
    if last then b1 else storedBlocks fin f (l.drop n) b1

/-- The tokens of the first `n` input bytes, and the rest. -/
def tokensOf : Nat → List (Nat × Nat) → List (Nat × Nat) × List (Nat × Nat)
  | _, [] => ([], [])
  | n, t :: r => if n = 0 then ([], t :: r) else let q := tokensOf (n - max 1 t.2) r; (t :: q.1, q.2)

/-- The blocks of a chunk: one for each end, coded, or stored where its coded size would exceed its input plus 5 bytes (R249). -/
def deflateGo (l : List Byte) : List Nat → Nat → List (Nat × Nat) → Bits → Bits
  | [], _, _, b => b
  | e :: es, p, ts, b =>
    let n := e - p
    let r := tokensOf n ts
    let fin := es.isEmpty
    let coded := dynamicBlock fin r.1 {}
    deflateGo l es e r.2 (if n + 5 < (coded.n + 7) / 8 then storedBlocks fin (n / 65535 + 1) (slice l p n) b else dynamicBlock fin r.1 b)

/-- The DEFLATE stream of a chunk by its parse and its block ends. -/
def deflateBytes (l : List Byte) (ts : List (Nat × Nat)) (ends : List Nat) : List Byte := (deflateGo l ends 0 ts {}).bytes

end Sys2Proof.Machine
end

