-- ==== Sys2Proof/Machine/Zstd.lean ====
section
/-! DEFINITION. The Zstandard decoder (08 R252, Tables 8-8 and 8-9; RFC 8878, which R2 names) (PRESUMED, log 6). -/

namespace Sys2Proof.Machine

/-! xxHash64. -/

def xxP64 (i : Nat) : Nat :=
  [0x9E3779B185EBCA87, 0xC2B2AE3D27D4EB4F, 0x165667B19E3779F9, 0x85EBCA77C2B2AE63, 0x27D4EB2F165667C5].getD i 0
def xx64Round (acc v : Nat) : Nat := rotLeft 64 ((acc + v * xxP64 1) % 2 ^ 64) 31 * xxP64 0 % 2 ^ 64

def xx64Stripes : Nat → List Byte → List Nat → List Byte × List Nat
  | 0, b, a => (b, a)
  | f + 1, b, a =>
    if b.length < 32 then (b, a)
    else xx64Stripes f (b.drop 32) ((List.range 4).map (fun i => xx64Round (a.getD i 0) (u64 b (8 * i))))

def xx64Words : Nat → List Byte → Nat → List Byte × Nat
  | 0, b, h => (b, h)
  | f + 1, b, h =>
    if b.length < 8 then (b, h)
    else xx64Words f (b.drop 8) ((rotLeft 64 (h ^^^ xx64Round 0 (u64 b 0)) 27 * xxP64 0 + xxP64 3) % 2 ^ 64)

/-- xxHash64 with seed 0 (the content checksum of a Zstandard frame). -/
def xxh64 (b : List Byte) : Nat :=
  let st := xx64Stripes (b.length / 32) b [(xxP64 0 + xxP64 1) % 2 ^ 64, xxP64 1, 0, (2 ^ 64 - xxP64 0) % 2 ^ 64]
  let a (i : Nat) : Nat := st.2.getD i 0
  let mix (h i : Nat) : Nat := ((h ^^^ xx64Round 0 (a i)) * xxP64 0 + xxP64 3) % 2 ^ 64
  let h0 := if b.length < 32 then xxP64 4
    else mix (mix (mix (mix ((rotLeft 64 (a 0) 1 + rotLeft 64 (a 1) 7 + rotLeft 64 (a 2) 12 + rotLeft 64 (a 3) 18) % 2 ^ 64) 0) 1) 2) 3
  let w := xx64Words 4 st.1 ((h0 + b.length) % 2 ^ 64)
  let r := if 4 ≤ w.1.length then
      (w.1.drop 4, (rotLeft 64 (w.2 ^^^ (u32 w.1 0 * xxP64 0 % 2 ^ 64)) 23 * xxP64 1 + xxP64 2) % 2 ^ 64) else w
  let h1 := r.1.foldl (fun h x => rotLeft 64 (h ^^^ (x.toNat * xxP64 4 % 2 ^ 64)) 11 * xxP64 0 % 2 ^ 64) r.2
  let h2 := (h1 ^^^ (h1 >>> 33)) * xxP64 1 % 2 ^ 64
  let h3 := (h2 ^^^ (h2 >>> 29)) * xxP64 2 % 2 ^ 64
  h3 ^^^ (h3 >>> 32)

/-! Finite state entropy. -/

/-- A decoding table: its accuracy log, and per state the symbol, the bits to read and the base of the next state. -/
structure Fse where
  al : Nat := 0
  sym : List Nat := []
  nb : List Nat := []
  base : List Nat := []
  deriving DecidableEq, Repr, Inhabited

/-- Zero counts that a repeat field of 2 bits adds. -/
def fseZeros (v : Nat) : Nat → Nat → List Int → List Int × Nat
  | 0, pos, l => (l, pos)
  | f + 1, pos, l =>
    let r := bitsAt v pos 2
    let l1 := l ++ List.replicate r 0
    if r = 3 then fseZeros v f (pos + 2) l1 else (l1, pos + 2)

/-- The counts of a table description, `rem` left to give. -/
def fseCounts (v : Nat) : Nat → Nat → Nat → List Int → Except Nat (List Int × Nat)
  | 0, _, _, _ => .error 1
  | f + 1, pos, rem, l =>
    if rem = 0 then .ok (l, pos)
    else if 256 ≤ l.length then .error 1
    else
      let n := Nat.log2 (rem + 1) + 1
      let val := bitsAt v pos n
      let low := val % 2 ^ (n - 1)
      let thr := 2 ^ n - 1 - (rem + 1)
      let r : Nat × Nat := if low < thr then (low, pos + n - 1) else if 2 ^ (n - 1) ≤ val then (val - thr, pos + n) else (val, pos + n)
      let p : Int := (r.1 : Int) - 1
      if rem < p.natAbs then .error 1
      else if p = 0 then
        let z := fseZeros v 100 r.2 (l ++ [0])
        fseCounts v f z.2 rem z.1
      else fseCounts v f r.2 (rem - p.natAbs) (l ++ [p])

/-- The decoding table of a list of counts. -/
def fseTable (al : Nat) (counts : List Int) : Fse :=
  let size := 2 ^ al
  let step := size / 2 + size / 8 + 3
  let ss := List.range counts.length
  let rare := ss.filter (fun s => counts.getD s 0 == -1)
  let spread := ((List.range size).map (fun i => i * step % size)).filter (fun p => decide (p < size - rare.length))
  let pairs := spread.zip (ss.flatMap (fun s => List.replicate (counts.getD s 0).toNat s)) ++ ((List.range rare.length).map (fun i => size - 1 - i)).zip rare
  let sym := (List.range size).map (fun p => ((pairs.find? (fun e => e.1 == p)).map (·.2)).getD 0)
  let x := (List.range size).map (fun p =>
    let s := sym.getD p 0
    (counts.getD s 0).natAbs + (sym.take p).count s)
  { al := al, sym := sym, nb := x.map (fun k => al - Nat.log2 k), base := x.map (fun k => k * 2 ^ (al - Nat.log2 k) - size) }

/-- A table description at byte `o`: the table and where it ends. -/
def fseRead (b : List Byte) (o maxAl : Nat) : Except Nat (Fse × Nat) :=
  let v := leNat (slice b o 300)
  let al := bitsAt v 0 4 + 5
  if maxAl < al then .error 1
  else match fseCounts v 600 4 (2 ^ al) [] with
  | .error e => .error e
  | .ok (l, pos) =>
    let q := o + (pos + 7) / 8
    if b.length < q then .error 1 else .ok (fseTable al l, q)

/-- A table with one symbol. -/
def fseRle (s : Nat) : Fse := { al := 0, sym := [s], nb := [0], base := [0] }

/-! Bit streams that are read from their end. -/

/-- A stream's number and its bits; the last byte's highest set bit ends it. -/
def revStart (l : List Byte) : Option (Nat × Int) :=
  let last := (l.getLastD 0).toNat
  if last = 0 then none else some (leNat l, (8 * (l.length - 1) + Nat.log2 last : Nat))

/-- The `k` bits below position `pos`; bits before the start read 0. -/
def revBits (v : Nat) (pos : Int) (k : Nat) : Nat :=
  if (k : Int) ≤ pos then bitsAt v (pos - k).toNat k else (v % 2 ^ pos.toNat) * 2 ^ (k - pos.toNat) % 2 ^ k

/-- The next state. -/
def Fse.next (t : Fse) (v : Nat) (pos : Int) (s : Nat) : Nat × Int := (t.base.getD s 0 + revBits v pos (t.nb.getD s 0), pos - t.nb.getD s 0)

/-! Literals. -/

/-- A Huffman table: the bits to look at, and for each of their values the symbol and its length. -/
structure ZHuff where
  bits : Nat := 0
  tab : List (Nat × Nat) := []
  deriving DecidableEq, Repr, Inhabited

/-- Weights from two states that take turns. -/
def fseWeights (t : Fse) (v : Nat) : Nat → Int → Nat → Nat → List Nat → Option (List Nat)
  | 0, _, _, _, _ => none
  | f + 1, pos, s1, s2, l =>
    let l1 := l ++ [t.sym.getD s1 0]
    let r := t.next v pos s1
    if r.2 < 0 then some (l1 ++ [t.sym.getD s2 0]) else fseWeights t v f r.2 s2 r.1 l1

/-- The table of a list of weights, the last one being what completes the code. -/
def huffTable (ws : List Nat) : Option ZHuff :=
  let sum := (ws.map (fun w => if w = 0 then 0 else 2 ^ (w - 1))).foldl (· + ·) 0
  let bits := Nat.log2 sum + 1
  let rest := 2 ^ bits - sum
  if sum = 0 ∨ 255 < ws.length ∨ 11 < bits ∨ ws.any (fun w => decide (bits < w)) ∨ 2 ^ Nat.log2 rest ≠ rest then none
  else
    let all := ws ++ [Nat.log2 rest + 1]
    some { bits := bits
           tab := (List.range bits).flatMap (fun i => ((List.range all.length).filter (fun s => all.getD s 0 == i + 1)).flatMap (fun s =>
             List.replicate (2 ^ i) (s, bits - i))) }

/-- The description of a Huffman tree at the front of `b`: the table and its bytes. -/
def huffRead (b : List Byte) : Option (ZHuff × Nat) :=
  let h := u8 b 0
  if 128 ≤ h then
    let n := h - 127
    let ws := (List.range n).map (fun i => if i % 2 = 0 then u8 b (1 + i / 2) / 16 else u8 b (1 + i / 2) % 16)
    if b.length < 1 + (n + 1) / 2 then none else (huffTable ws).map (fun t => (t, 1 + (n + 1) / 2))
  else
    let l := b.take (1 + h)
    if b.length < 1 + h then none
    else match fseRead l 1 6 with
    | .error _ => none
    | .ok (t, o) =>
      match revStart (l.drop o) with
      | none => none
      | some (v, pos) =>
        if pos < 2 * t.al then none
        else match fseWeights t v 256 (pos - 2 * t.al) (revBits v pos t.al) (revBits v (pos - t.al) t.al) [] with
        | none => none
        | some ws => (huffTable ws).map (fun z => (z, 1 + h))

/-- `n` literals of one stream, which they use up. -/
def huffLits (z : ZHuff) (v : Nat) : Nat → Int → Option (List Byte)
  | 0, pos => if pos = 0 then some [] else none
  | n + 1, pos =>
    let e := z.tab.getD (revBits v pos z.bits) (0, 0)
    if pos < e.2 then none else (huffLits z v n (pos - e.2)).map (fun t => BitVec.ofNat 8 e.1 :: t)

def huffStream (z : ZHuff) (l : List Byte) (n : Nat) : Option (List Byte) :=
  match revStart l with
  | none => none
  | some (v, pos) => huffLits z v n pos

/-- The literals of a compressed block: their bytes, the table that stays, and where their section ends. -/
def zLiterals (b : List Byte) (old : Option ZHuff) : Option (List Byte × Option ZHuff × Nat) :=
  let ty := u8 b 0 % 4
  let sf := u8 b 0 / 4 % 4
  if ty < 2 then
    let hl := if sf % 2 = 0 then 1 else if sf = 1 then 2 else 3
    let n := if sf % 2 = 0 then u8 b 0 / 8 else if sf = 1 then u16 b 0 / 16 else leAt b 0 3 / 16
    let k := hl + (if ty = 0 then n else 1)
    if b.length < k ∨ 131072 < n then none else some (if ty = 0 then slice b hl n else List.replicate n (b.getD hl 0), old, k)
  else
    let hl := if sf < 2 then 3 else sf + 2
    let w := if sf < 2 then 10 else if sf = 2 then 14 else 18
    let h := leAt b 0 hl / 16
    let n := h % 2 ^ w
    let cs := h / 2 ^ w % 2 ^ w
    let l := slice b hl cs
    let tree := if ty = 2 then huffRead l else old.map (fun z => (z, 0))
    match tree with
    | none => none
    | some (z, o) =>
      let s := l.drop o
      let lits := if sf = 0 then huffStream z s n
        else
          let c (i : Nat) : Nat := u16 s (2 * i)
          let m := (n + 3) / 4
          let t := s.drop 6
          if s.length < 6 ∨ t.length < c 0 + c 1 + c 2 ∨ n < 3 * m then none
          else match huffStream z (t.take (c 0)) m, huffStream z (slice t (c 0) (c 1)) m, huffStream z (slice t (c 0 + c 1) (c 2)) m,
              huffStream z (t.drop (c 0 + c 1 + c 2)) (n - 3 * m) with
            | some p, some q, some r, some u => some (p ++ q ++ r ++ u)
            | _, _, _, _ => none
      if b.length < hl + cs ∨ 131072 < n then none else lits.map (fun x => (x, some z, hl + cs))

/-! Sequences. -/

def zLlBase : List Nat :=
  (List.range 16) ++ [16, 18, 20, 22, 24, 28, 32, 40, 48, 64, 128, 256, 512, 1024, 2048, 4096, 8192, 16384, 32768, 65536]
def zLlBits : List Nat := List.replicate 16 0 ++ [1, 1, 1, 1, 2, 2, 3, 3, 4, 6, 7, 8, 9, 10, 11, 12, 13, 14, 15, 16]
def zMlBase : List Nat := ((List.range 32).map (· + 3))
  ++ [35, 37, 39, 41, 43, 47, 51, 59, 67, 83, 99, 131, 259, 515, 1027, 2051, 4099, 8195, 16387, 32771, 65539]
def zMlBits : List Nat := List.replicate 32 0 ++ [1, 1, 1, 1, 2, 2, 3, 3, 4, 4, 5, 7, 8, 9, 10, 11, 12, 13, 14, 15, 16]

/-- The default distributions of RFC 8878. -/
def zLlDefault : List Int :=
  [4, 3, 2, 2, 2, 2, 2, 2, 2, 2, 2, 2, 2, 1, 1, 1, 2, 2, 2, 2, 2, 2, 2, 2, 2, 3, 2, 1, 1, 1, 1, 1, -1, -1, -1, -1]
def zMlDefault : List Int :=
  [1, 4, 3, 2, 2, 2, 2, 2, 2, 1, 1, 1, 1, 1, 1, 1, 1, 1, 1, 1, 1, 1, 1, 1, 1, 1, 1, 1, 1, 1, 1, 1, 1, 1, 1, 1, 1, 1, 1, 1, 1, 1, 1, 1, 1, 1,
   -1, -1, -1, -1, -1, -1, -1]
def zOfDefault : List Int := [1, 1, 1, 1, 1, 1, 2, 2, 2, 1, 1, 1, 1, 1, 1, 1, 1, 1, 1, 1, 1, 1, 1, 1, -1, -1, -1, -1, -1]

/-- What a frame carries from block to block: the tables and the three latest offsets. -/
structure Zst where
  d : Dec := {}
  huff : Option ZHuff := none
  ll : Option Fse := none
  of_ : Option Fse := none
  ml : Option Fse := none
  rep : List Nat := [1, 4, 8]
  deriving DecidableEq, Repr, Inhabited

def Zst.fail (z : Zst) (e : Nat) : Zst := { z with d := z.d.fail e }

/-- The table of one symbol kind by its mode: predefined, one symbol, described, repeated. -/
def zTable (mode : Nat) (b : List Byte) (o maxAl maxSym al : Nat) (dflt : List Int) (old : Option Fse) : Option (Fse × Nat) :=
  if mode = 0 then some (fseTable al dflt, o)
  else if mode = 1 then (if b.length ≤ o ∨ maxSym < u8 b o then none else some (fseRle (u8 b o), o + 1))
  else if mode = 2 then (match fseRead b o maxAl with
    | .ok (t, q) => if t.sym.any (fun s => decide (maxSym < s)) then none else some (t, q)
    | .error _ => none)
  else old.map (fun t => (t, o))

/-- The offset that an offset value names, and the latest offsets after it. -/
def zOffset (rep : List Nat) (val ll : Nat) : Nat × List Nat :=
  let r (i : Nat) : Nat := rep.getD i 1
  if 3 < val then (val - 3, [val - 3, r 0, r 1])
  else
    let i := if ll = 0 then val else val - 1
    let o := if i < 3 then r i else r 0 - 1
    (o, if i = 0 then rep else if i = 1 then [o, r 0, r 2] else [o, r 0, r 1])

/-- The sequences of a block: their literals and matches come out; at the end, the literals that are left. -/
def zSeqs (v : Nat) (ll of_ ml : Fse) (win used : Nat) : Nat → Int → Nat → Nat → Nat → List Byte → Zst → Zst
  | 0, pos, _, _, _, lits, z => if pos = 0 then { z with d := z.d.emit lits used } else z.fail 1
  | n + 1, pos, sl, so, sm, lits, z =>
    let oc := of_.sym.getD so 0
    let mc := ml.sym.getD sm 0
    let lc := ll.sym.getD sl 0
    let p1 := pos - oc
    let p2 := p1 - zMlBits.getD mc 0
    let p3 := p2 - zLlBits.getD lc 0
    let off := zOffset z.rep (2 ^ oc + revBits v pos oc) (zLlBase.getD lc 0 + revBits v p2 (zLlBits.getD lc 0))
    let mlen := zMlBase.getD mc 0 + revBits v p1 (zMlBits.getD mc 0)
    let llen := zLlBase.getD lc 0 + revBits v p2 (zLlBits.getD lc 0)
    let d1 := z.d.emit (lits.take llen) used
    if p3 < 0 ∨ lits.length < llen ∨ off.1 = 0 ∨ min win d1.n < off.1 then z.fail 1
    else
      let z1 := { z with d := d1.copy off.1 mlen used, rep := off.2 }
      if n = 0 then zSeqs v ll of_ ml win used 0 p3 sl so sm (lits.drop llen) z1
      else
        let a := ll.next v p3 sl
        let c := ml.next v a.2 sm
        let e := of_.next v c.2 so
        if e.2 < 0 then z.fail 1 else zSeqs v ll of_ ml win used n e.2 a.1 e.1 c.1 (lits.drop llen) z1

/-- A compressed block's bytes; `used`: input bytes at its end. -/
def zBlock (b : List Byte) (win used : Nat) (z : Zst) : Zst :=
  match zLiterals b z.huff with
  | none => z.fail 1
  | some (lits, hf, o) =>
    let z0 := { z with huff := hf }
    let n0 := u8 b o
    let hd : Nat × Nat := if n0 < 128 then (n0, o + 1) else if n0 < 255 then ((n0 - 128) * 256 + u8 b (o + 1), o + 2) else (u16 b (o + 1) + 0x7F00, o + 3)
    let m := u8 b hd.2
    if b.length < hd.2 then z.fail 1
    else if hd.1 = 0 then (if b.length = hd.2 then { z0 with d := z0.d.emit lits used } else z.fail 1)
    else if b.length < hd.2 + 1 ∨ m % 4 ≠ 0 then z.fail 1
    else match zTable (m / 64) b (hd.2 + 1) 9 35 6 zLlDefault z.ll with
    | none => z.fail 1
    | some (tl, o1) =>
      match zTable (m / 16 % 4) b o1 8 31 5 zOfDefault z.of_ with
      | none => z.fail 1
      | some (to_, o2) =>
        match zTable (m / 4 % 4) b o2 9 52 6 zMlDefault z.ml with
        | none => z.fail 1
        | some (tm, o3) =>
          match revStart (b.drop o3) with
          | none => z.fail 1
          | some (v, pos) =>
            let p1 := pos - tl.al
            let p2 := p1 - to_.al
            let p3 := p2 - tm.al
            if p3 < 0 then z.fail 1
            else zSeqs v tl to_ tm win used hd.1 p3 (revBits v pos tl.al) (revBits v p1 to_.al) (revBits v p2 tm.al) lits
              { z0 with ll := some tl, of_ := some to_, ml := some tm }

/-- The blocks of a frame up to its last. -/
def zBlocks (b : List Byte) (win : Nat) : Nat → Zst → Zst
  | 0, z => z.fail 4
  | f + 1, z =>
    let h := leAt b z.d.pos 3
    let p := z.d.pos + 3
    let ty := h / 2 % 4
    let n := h / 8
    let big := min win 131072
    let k := if ty = 1 then 1 else n
    if b.length < p then z.fail 4
    else if ty = 3 ∨ big < n then z.fail 1
    else if b.length < p + k then z.fail 4
    else
      let z1 := if ty = 0 then { z with d := z.d.emitRaw (slice b p n) p }
        else if ty = 1 then { z with d := z.d.emit (List.replicate n (b.getD p 0)) (p + 1) }
        else zBlock (slice b p n) win (p + n) z
      if z1.d.err.isSome then z1
      else if z.d.n + big < z1.d.n then z1.fail 1
      else
        let z2 := { z1 with d := { z1.d with pos := p + k } }
        if h % 2 = 1 then z2 else zBlocks b win f z2

/-- Window_Size of a window descriptor. -/
def zWindow (w : Nat) : Nat :=
  let base := 2 ^ (10 + w / 8)
  base + base / 8 * (w % 8)

/-- One Zstandard frame; a skippable frame has no output. -/
def zstdFrame (b : List Byte) : Dec :=
  let m := u32 b 0
  if b.length < 4 then ({} : Dec).fail 4
  else if m / 16 = 0x184D2A5 then
    (if b.length < 8 + u32 b 4 ∨ b.length < 8 then ({} : Dec).fail 4 else { pos := 8 + u32 b 4 })
  else if m ≠ 0xFD2FB528 then ({} : Dec).fail 1
  else
    let fd := u8 b 4
    let single := bitAt fd 5
    let dl := [0, 1, 2, 4].getD (fd % 4) 0
    let o := if single then 5 else 6
    let fl := if fd / 64 = 0 then (if single then 1 else 0) else 2 ^ (fd / 64)
    let fcs := leAt b (o + dl) fl + (if fd / 64 = 1 then 256 else 0)
    let win := if single then fcs else zWindow (u8 b 5)
    let p := o + dl + fl
    if b.length < 5 then ({} : Dec).fail 4
    else if bitAt fd 3 then ({} : Dec).fail 1
    else if b.length < p then ({} : Dec).fail 4
    else if leAt b o dl ≠ 0 ∨ 2 ^ 23 < win then ({} : Dec).fail 3
    else
      let d := (zBlocks b win (b.length + 1) { d := { pos := p } }).d
      if d.err.isSome then d
      else if fl ≠ 0 ∧ fcs ≠ d.n then d.fail 1
      else if bitAt fd 2 then d.trailer b 4 (u32 b d.pos == xxh64 d.bytes % 2 ^ 32) else d

end Sys2Proof.Machine
end

