-- ==== Sys2Proof/Machine/Codec.lean ====
section
/-! DEFINITION. The data that flows through the engines of a route, the compressors and the decompressors (08 R243, R247 to
R253). -/

namespace Sys2Proof.Machine

/-- A piece of a stream: its bytes, the input extent it came from, its run (MERGE), and the FLUSH and CHUNK_END marks at its
end. -/
structure Seg where
  bytes : List Byte := []
  ext : Nat := 0xFFFFFFFF
  run : Nat := 0
  flush : Bool := false
  chunkEnd : Bool := false
  deriving DecidableEq, Repr, Inhabited

/-- Why a flow ends early: the ENGINE_ERR of Table 8-7, the route stage and the extent. -/
structure Stop where
  err : Nat := 0
  stage : Nat := 0xFF
  ext : Nat := 0xFFFFFFFF
  limit : Option Nat := none
  deriving DecidableEq, Repr, Inhabited

/-- A stream on its way through a route: its pieces, why it ends early, the counts of the result record and of CPX_CNT. -/
structure Flow where
  segs : List Seg := []
  stop : Option Stop := none
  recIn : Nat := 0
  recOut : Nat := 0
  chunks : Nat := 0
  cnt : List Nat := []
  parseFail : Nat := 0
  units : Nat := 1
  deriving DecidableEq, Repr, Inhabited

def segBytes (l : List Seg) : List Byte := l.flatMap (·.bytes)
def Flow.bytes (f : Flow) : List Byte := segBytes f.segs

/-- Count `k` of CPX_CNT. -/
def Flow.count (f : Flow) (k n : Nat) : Flow := { f with cnt := bumpAt f.cnt k 64 n }

/-! Compressors (R248 to R251). -/

/-- Length of the common prefix of two positions, up to a bound. -/
def prefixLen (b : List Byte) (c p : Nat) : Nat → Nat
  | 0 => 0
  | m + 1 => if b.getD c 0 == b.getD p 0 then 1 + prefixLen b (c + 1) (p + 1) m else 0

/-- The 15-bit hash of four bytes. -/
def h4 (b : List Byte) (p : Nat) : Nat := u32 b p * 0x9E3779B1 % 2 ^ 32 / 2 ^ 17

/-- The positions of a match enter the table. -/
def lzFill (b : List Byte) (n p e : Nat) (t : Tbl Nat) : Tbl Nat :=
  (List.range (e - p)).foldl (fun a i => if 4 ≤ n - (p + i) then tset a (h4 b (p + i)) (p + i) else a) t

/-- The end of the block a position lies in. -/
def blockEnd (ends : List Nat) (n p : Nat) : Nat := (ends.find? (fun e => decide (p < e))).getD n

/-- The parse of a chunk (R248): literals as (byte, 0), matches as (distance, length). -/
def lzGo (lz4 : Bool) (b : List Byte) (n : Nat) (ends : List Nat) : Nat → Nat → Tbl Nat → List (Nat × Nat)
  | 0, _, _ => []
  | f + 1, pos, t =>
    if n ≤ pos then []
    else
      let lit := ((b.getD pos 0).toNat, 0)
      if 4 ≤ n - pos ∧ (!lz4 ∨ pos + 12 ≤ n) then
        let c := tget t (h4 b pos)
        let t1 := tset t (h4 b pos) pos
        match c with
        | none => lit :: lzGo lz4 b n ends f (pos + 1) t1
        | some q =>
          if pos - q ≤ 32768 then
            let cap := if lz4 then n - 5 - pos else 258
            let len := min (min (prefixLen b q pos (n - pos)) cap) (blockEnd ends n pos - pos)
            if 4 ≤ len then (pos - q, len) :: lzGo lz4 b n ends f (pos + len) (lzFill b n (pos + 1) (pos + len) t1)
            else lit :: lzGo lz4 b n ends f (pos + 1) t1
          else lit :: lzGo lz4 b n ends f (pos + 1) t1
      else lit :: lzGo lz4 b n ends f (pos + 1) t

def lzParse (lz4 : Bool) (b : List Byte) (ends : List Nat) : List (Nat × Nat) := lzGo lz4 b b.length ends (b.length + 1) 0 []

/-- The ends of a chunk's DEFLATE blocks (R249): 64 KiB after the last one, at each FLUSH, and at the chunk's end. -/
def blockEnds (flush : List Nat) (n : Nat) : Nat → Nat → List Nat
  | 0, _ => []
  | f + 1, a =>
    if n ≤ a then []
    else
      let e := flush.foldl (fun m x => if a < x then min m x else m) (min n (a + 65536))
      e :: blockEnds flush n f e

/-- The LZ4 block format (its published standard, PRESUMED, log 6): length bytes past 15, then sequences of a token, literals, and a
little-endian offset. -/
def lz4Ext (v : Nat) : List Byte :=
  if v < 15 then [] else List.replicate ((v - 15) / 255) 255 ++ [BitVec.ofNat 8 ((v - 15) % 255)]

def lz4Go : List (Nat × Nat) → List Byte → List Byte
  | [], l => BitVec.ofNat 8 (min 15 l.length * 16) :: (lz4Ext l.length ++ l)
  | (d, len) :: t, l =>
    if len = 0 then lz4Go t (l ++ [BitVec.ofNat 8 d])
    else BitVec.ofNat 8 (min 15 l.length * 16 + min 15 (len - 4)) :: (lz4Ext l.length ++ l ++ leBytes 2 d ++ lz4Ext (len - 4) ++ lz4Go t [])

/-- One chunk's compressed stream: FORMAT 0 DEFLATE (its bit format is RFC 1951's, PRESUMED, log 6), 1 LZ4 block. -/
def compressChunk (fmt : Nat) (b : List Byte) (flush : List Nat) : List Byte :=
  if fmt = 1 then lz4Go (lzParse true b []) []
  else
    let ends := blockEnds flush b.length (b.length + 1) 0
    deflateBytes b (lzParse false b ends) ends

/-- A chunk of a compressor's input: bytes, FLUSH positions, whether CHUNK_END closed it, and its last extent. -/
structure Chunk where
  bytes : List Byte := []
  flush : List Nat := []
  fin : Bool := false
  ext : Nat := 0xFFFFFFFF
  deriving DecidableEq, Repr, Inhabited

/-- Bytes of one piece enter the open chunk; full chunks of `size` bytes (0: no size) close. -/
def chunkTake (size ext : Nat) : Nat → Chunk → List Byte → List Chunk × Chunk
  | 0, c, _ => ([], c)
  | f + 1, c, b =>
    match b with
    | [] => ([], c)
    | _ :: _ =>
      if size = 0 then ([], { c with bytes := c.bytes ++ b, ext := ext })
      else
        let k := size - c.bytes.length
        let c1 := { c with bytes := c.bytes ++ b.take k, ext := ext }
        if c1.bytes.length < size then ([], c1)
        else
          let r := chunkTake size ext f {} (b.drop k)
          (c1 :: r.1, r.2)

/-- The chunks of a list of pieces (R250). -/
def chunkGo (size : Nat) : List Seg → Chunk → List Chunk
  | [], c => if c.bytes.isEmpty then [] else [c]
  | g :: t, c =>
    let r := chunkTake size g.ext (g.bytes.length + 1) c g.bytes
    let c1 := if g.flush && !r.2.bytes.isEmpty then { r.2 with flush := r.2.flush ++ [r.2.bytes.length] } else r.2
    if g.chunkEnd then
      (if c1.bytes.isEmpty then r.1 ++ chunkGo size t {} else r.1 ++ { c1 with fin := true } :: chunkGo size t {})
    else r.1 ++ chunkGo size t c1

def chunksOf (log2 : Nat) (l : List Seg) : List Chunk := chunkGo (if log2 = 0 then 0 else 2 ^ log2) l {}

/-- Pad with zeros to a multiple of 4,096 bytes. -/
def pad4k (b : List Byte) : List Byte := b ++ List.replicate ((4096 - b.length % 4096) % 4096) 0

/-- One chunk's output, with its header and padding (R250). -/
def chunkOut (fmt : Nat) (hdr pad : Bool) (c : Chunk) : List Byte :=
  let d := compressChunk fmt c.bytes c.flush
  let o := if hdr then leBytes 4 d.length ++ leBytes 4 c.bytes.length ++ d else d
  if pad then pad4k o else o

/-- The compressor stage: one piece per chunk; bytes in and out are counted (CPX_CNT 2, 3). -/
def compressStage (fmt log2 : Nat) (hdr pad : Bool) (f : Flow) : Flow :=
  let cs := chunksOf log2 f.segs
  let l := cs.map (fun c => ({ bytes := chunkOut fmt hdr pad c, ext := c.ext, chunkEnd := true } : Seg))
  (({ f with segs := l, chunks := f.chunks + cs.length, units := max 1 cs.length }.count 2 (sumNat (cs.map (fun (c : Chunk) => c.bytes.length)))).count 3 (segBytes l).length)

/-! Decompressors (R243, R252, R253). -/

/-- The state of a decompressor over a job: output and input bytes so far, streams, and why it ended. -/
structure DecSt where
  out : Nat := 0
  used : Nat := 0
  streams : Nat := 0
  stop : Option (Nat × Nat) := none
  deriving DecidableEq, Repr, Inhabited

/-- One stream at the front of an input, by its format (Table 8-8). -/
def inflate (fmt : Nat) (b : List Byte) : Dec :=
  if fmt = 0 then inflateAt b 0 else if fmt = 1 then zlibStream b else if fmt = 2 then gzipStream b
  else if fmt = 3 then lz4Block b else if fmt = 4 then lz4Frame b else zstdFrame b

/-- The first check of the ratio limit that trips, at a multiple of 64 KiB from 1 MiB on, in the output from `a` on. -/
def ratioTrip (ratio a used : Nat) (r : Dec) : Option Nat :=
  ((List.range (r.n / 65536 + 2)).map (fun i => (a / 65536 + i) * 65536)).find? (fun m =>
    decide (a < m) && decide (m ≤ a + r.n) && decide (2 ^ 20 ≤ m) && decide (ratio * (used + r.usedAt (m - a)) < m))

/-- The earlier of the two limits in one stream's output: (output at the limit, ENGINE_ERR). -/
def limitTrip (dec ratio a used : Nat) (r : Dec) : Option (Nat × Nat) :=
  match ratioTrip ratio a used r, decide (dec < a + r.n) with
  | some m, true => if m ≤ dec then some (m, 6) else some (dec, 7)
  | some m, false => some (m, 6)
  | none, true => some (dec, 7)
  | none, false => none

/-- Streams of one group of input: after a complete stream zeros to the group's end are padding (R243). -/
def decodeGroup (fmt dec ratio : Nat) : Nat → List Byte → DecSt → List Byte × DecSt
  | 0, _, d => ([], d)
  | f + 1, b, d =>
    if b.all (· == 0) && (b.isEmpty || fmt != 3) then ([], d)
    else
      let r := inflate fmt b
      match limitTrip dec ratio d.out d.used r with
      | some (m, e) => (r.bytes.take (m - d.out), { d with out := m, stop := some (e, m) })
      | none =>
        let d1 := { d with out := d.out + r.n, used := d.used + r.pos }
        match r.err with
        | some e => (r.bytes, { d1 with stop := some (e, d1.out) })
        | none =>
          let d2 := { d1 with streams := d1.streams + 1 }
          if fmt = 3 ∨ r.pos = 0 then (r.bytes, d2)
          else
            let t := decodeGroup fmt dec ratio f (b.drop r.pos) d2
            (r.bytes ++ t.1, t.2)

/-- The pieces up to each CHUNK_END, and to the end of each run. -/
def groupsGo : List Seg → List Seg → List (List Seg)
  | [], a => if a.isEmpty then [] else [a]
  | g :: t, a =>
    if (a.headD g).run = g.run then (if g.chunkEnd then (a ++ [g]) :: groupsGo t [] else groupsGo t (a ++ [g]))
    else a :: (if g.chunkEnd then [g] :: groupsGo t [] else groupsGo t [g])

/-- The inputs a decompressor takes apart: CHUNK_END groups; LZ4 blocks without any CHUNK_END are one per extent (Table 8-8). -/
def decGroups (fmt : Nat) (l : List Seg) : List (List Seg) :=
  if fmt = 3 ∧ !l.any (·.chunkEnd) then l.map (fun g => [g]) else groupsGo l []

def decodeAll (fmt dec ratio stage : Nat) (cut : Bool) : List (List Seg) → DecSt → List Seg × DecSt × Option Stop
  | [], d => ([], d, none)
  | g :: t, d =>
    let b := segBytes g
    let r := decodeGroup fmt dec ratio (b.length + 1) b d
    let ext := ((g.getLast?).map (·.ext)).getD 0xFFFFFFFF
    let o : Seg := { bytes := r.1, ext := ext, run := (g.headD {}).run, chunkEnd := true }
    match r.2.stop with
    | some (e, m) =>
      if cut && e == 4 && t.isEmpty then ([o], r.2, none)
      else ([o], r.2, some { err := e, stage := stage, ext := ext, limit := if e = 6 ∨ e = 7 then some m else none })
    | none =>
      let q := decodeAll fmt dec ratio stage cut t r.2
      (o :: q.1, q.2.1, q.2.2)

/-- The decompressor stage: bytes out are counted (CPX_CNT 4). A stream cut off by an earlier limit is no error of its own. -/
def decompressStage (fmt dec ratio stage : Nat) (f : Flow) : Flow :=
  let gs := decGroups fmt f.segs
  let r := decodeAll fmt dec ratio stage f.stop.isSome gs {}
  { f with segs := r.1, chunks := f.chunks + r.2.1.streams, units := max 1 (if r.2.1.streams = 0 then gs.length else r.2.1.streams)
           stop := if r.2.2.isSome then r.2.2 else f.stop }.count 4 r.2.1.out

end Sys2Proof.Machine
end

