-- ==== Sys2Proof/Machine/Records.lean ====
section
/-! DEFINITION. The records that sieves and index engines read (08 R258, R260, R261), and the hash tables and bloom filters
in compute memory (R263 to R265). -/

namespace Sys2Proof.Machine

/-! Records. -/

/-- A column of a columnar page: its type, its width, one value per row, and which rows are null. -/
structure Col where
  typ : Nat := 0
  width : Nat := 0
  vals : List (List Byte) := []
  nulls : List Bool := []
  deriving DecidableEq, Repr, Inhabited

/-- One value of a columnar row. -/
structure CVal where
  width : Nat := 0
  bytes : List Byte := []
  null : Bool := false
  deriving DecidableEq, Repr, Inhabited

/-- A record: its bytes as read, the body that byte offsets count in, its text fields, its columns. -/
structure SRec where
  raw : List Byte := []
  body : List Byte := []
  texts : List (List Byte) := []
  cols : List CVal := []
  deriving DecidableEq, Repr, Inhabited

/-- Records of a stream and whether it ended as it must: `none` a broken record, `some false` inside a record. -/
structure Recs where
  recs : List SRec := []
  clean : Option Bool := some true
  deriving DecidableEq, Repr, Inhabited

/-- FORMAT 0: every RECLEN bytes. -/
def fixedRecs (n : Nat) : Nat → List Byte → Recs
  | 0, _ => {}
  | f + 1, b =>
    if b.isEmpty then {}
    else if b.length < n then { clean := some false }
    else
      let r := fixedRecs n f (b.drop n)
      { r with recs := { raw := b.take n, body := b.take n } :: r.recs }

/-- FORMAT 1: a little-endian length of `p` bytes, then the body. -/
def prefixedRecs (p : Nat) : Nat → List Byte → Recs
  | 0, _ => {}
  | f + 1, b =>
    if b.isEmpty then {}
    else
      let n := leAt b 0 p
      if b.length < p || b.length < p + n then { clean := some false }
      else if 65535 < n then { clean := none }
      else
        let r := prefixedRecs p f (b.drop (p + n))
        { r with recs := { raw := b.take (p + n), body := slice b p n } :: r.recs }

/-- The state of the text reader: bytes of the record so far, its field so far, its finished fields; 0 outside quotes, 1
between them, 2 just behind a QUOTE byte inside them. -/
structure TextSt where
  raw : List Byte := []
  fld : List Byte := []
  flds : List (List Byte) := []
  q : Nat := 0
  deriving DecidableEq, Repr, Inhabited

/-- Drop a 0x0D at the end of a field. -/
def dropCr (l : List Byte) : List Byte := if l.getLast? = some 0x0D then l.dropLast else l

/-- FORMAT 2: a record ends at 0x0A, fields split at DELIM. -/
def textRecs (delim quote : Byte) : List Byte → TextSt → Recs
  | [], t => { clean := some t.raw.isEmpty }
  | b :: rest, t =>
    let t1 := { t with raw := t.raw ++ [b] }
    if 65536 < t1.raw.length then { clean := none }
    else if quote != 0 && b == quote then
      if t.q = 0 then textRecs delim quote rest { t1 with q := 1 }
      else if t.q = 1 then textRecs delim quote rest { t1 with q := 2 }
      else textRecs delim quote rest { t1 with fld := t.fld ++ [b], q := 1 }
    else if t.q = 1 then textRecs delim quote rest { t1 with fld := t.fld ++ [b] }
    else if b = 0x0A then
      let r := textRecs delim quote rest {}
      { r with recs := { raw := t1.raw, texts := t.flds ++ [dropCr t.fld] } :: r.recs }
    else if b = delim then textRecs delim quote rest { t1 with flds := t.flds ++ [t.fld], fld := [], q := 0 }
    else textRecs delim quote rest { t1 with fld := t.fld ++ [b], q := 0 }

/-! Columnar pages. -/

/-- `n` values in plain encoding from `at` in the column data, and where they end. -/
def plainVals (b : List Byte) (pos width n : Nat) : Option (List (List Byte) × Nat) :=
  if width != 0 then
    if pos + n * width ≤ b.length then some ((List.range n).map (fun i => slice b (pos + i * width) width), pos + n * width) else none
  else
    let o (i : Nat) : Nat := u32 b (pos + 4 * i)
    if pos + 4 * (n + 1) ≤ b.length && (List.range n).all (fun i => decide (o i ≤ o (i + 1))) && decide (o n ≤ b.length)
        && decide (pos + 4 * (n + 1) ≤ o 0) then
      some ((List.range n).map (fun i => slice b (o i) (o (i + 1) - o i)), o n)
    else none

/-- ENC 1: dictionary values, then one index per row. -/
def dictVals (b : List Byte) (width n : Nat) : Option (List (List Byte)) :=
  let cnt := u32 b 0
  if b.length < 4 || cnt = 0 || 65536 < cnt then none
  else match plainVals b 4 width cnt with
    | none => none
    | some (vs, pos) =>
      let w := if cnt ≤ 256 then 1 else 2
      let ix := (List.range n).map (fun i => leAt b (pos + i * w) w)
      if b.length < pos + n * w || ix.any (fun i => decide (cnt ≤ i)) then none else some (ix.map (fun i => vs.getD i []))

/-- ENC 2: runs of a u16 length and one value. -/
def runVals (b : List Byte) (width : Nat) : Nat → Nat → Nat → Option (List (List Byte))
  | 0, _, n => if n = 0 then some [] else none
  | f + 1, pos, n =>
    if n = 0 then some []
    else
      let k := u16 b pos
      if b.length < pos + 2 + width || k = 0 || n < k then none
      else (runVals b width f (pos + 2 + width) (n - k)).map (fun t => List.replicate k (slice b (pos + 2) width) ++ t)

/-- Bytes of a type's value (Table 8-11); none for bytes and text integers. -/
def typeWidth (t : Nat) : Option Nat :=
  if t = 0 ∨ t = 4 then some 1 else if t = 1 ∨ t = 5 then some 2 else if t = 2 ∨ t = 6 ∨ t = 8 then some 4
  else if t = 3 ∨ t = 7 ∨ t = 9 then some 8 else none

/-- A column of a page by its directory entry. -/
def pageCol (p : List Byte) (rows i : Nat) : Option Col :=
  let d := 0x20 + 16 * i
  let typ := u8 p d
  let enc := u8 p (d + 1)
  let width := u16 p (d + 2)
  let off := u32 p (d + 4)
  let len := u32 p (d + 8)
  let nl := u32 p (d + 12)
  let used := u32 p 0x1C
  let widthOk := if typ = 10 then width ≤ 256 else typeWidth typ = some width
  if 10 < typ || !decide widthOk || off % 8 != 0 || used < off + len || (nl != 0 && used < nl + ceilDiv rows 8) then none
  else
    let b := slice p off len
    let vs := if enc = 0 then (plainVals b 0 width rows).map (·.1)
              else if enc = 1 then dictVals b width rows
              else if enc = 2 ∧ width ≠ 0 then runVals b width (rows + 1) 0 rows
              else none
    vs.map (fun l => { typ := typ, width := width, vals := l
                       nulls := (List.range rows).map (fun r => nl != 0 && bitAt (u8 p (nl + r / 8)) (r % 8)) })

/-- All of a list, or none. -/
def allSome {α : Type} : List (Option α) → Option (List α)
  | [] => some []
  | a :: t => match a, allSome t with
    | some x, some l => some (x :: l)
    | _, _ => none

/-- The bytes of one row of columns in row form (R259): each at its width, variable bytes behind a u16 length. -/
def rowForm (l : List CVal) : List Byte :=
  l.flatMap (fun c => if c.width = 0 then leBytes 2 c.bytes.length ++ c.bytes else c.bytes)

/-- The columns of a page, or none where it breaks a rule of R260 or R261; `pos` is its place in the stream. -/
def pageCols (p : List Byte) (pos : Nat) : Option (List Col × Nat) :=
  let log := u8 p 0x0C
  let n := u16 p 6
  let rows := u32 p 8
  let used := u32 p 0x1C
  if p.length < 0x20 || u32 p 0 != 0x5043564F || u16 p 4 != 1 || n = 0 || 32 < n || rows = 0 || 65536 < rows || log < 12 || 20 < log
      || p.length < 2 ^ log || pos % 2 ^ log != 0 || used < 32 + 16 * n || 2 ^ log < used || !zeroAt p used (2 ^ log - used)
      || u32 p 0x18 != crc32c (putBytes (p.take used) 0x18 [0, 0, 0, 0]) then none
  else (allSome ((List.range n).map (pageCol (p.take (2 ^ log)) rows))).map (fun l => (l, rows))

/-- FORMAT 3: whole pages. -/
def pageRecs : Nat → Nat → List Byte → Recs
  | 0, _, _ => {}
  | f + 1, pos, b =>
    if b.isEmpty then {}
    else match pageCols b pos with
      | none => { clean := if b.length < 0x20 || b.length < 2 ^ (min 20 (u8 b 0x0C)) then some false else none }
      | some (cs, rows) =>
        let size := 2 ^ u8 b 0x0C
        let rs := (List.range rows).map (fun r =>
          let vs := cs.map (fun c => ({ width := c.width, bytes := c.vals.getD r [], null := c.nulls.getD r false } : CVal))
          ({ raw := rowForm vs, cols := vs } : SRec))
        let t := pageRecs f (pos + size) (b.drop size)
        { t with recs := rs ++ t.recs }

/-- The records of one piece of a stream that starts at `pos`. -/
def recsOf (fmt reclen delim quote pos : Nat) (b : List Byte) : Recs :=
  if fmt = 0 then fixedRecs reclen (b.length + 1) b
  else if fmt = 1 then prefixedRecs reclen (b.length + 1) b
  else if fmt = 2 then textRecs (BitVec.ofNat 8 delim) (BitVec.ofNat 8 quote) b {}
  else pageRecs (b.length + 1) pos b

/-! Tables in compute memory. -/

/-- Bytes of a sparse memory: unlisted bytes are 0. -/
def memGet (m : Tbl Byte) (off n : Nat) : List Byte := (List.range n).map (fun i => tgetD m (off + i) 0)
def memPut (m : Tbl Byte) (off : Nat) : List Byte → Tbl Byte
  | [] => m
  | b :: t => memPut (tset m off b) (off + 1) t
def memLe (m : Tbl Byte) (off n : Nat) : Nat := leNat (memGet m off n)

/-- CRC-32C of key bytes from an initial value, without a final XOR (R264). -/
def crcSeed (seed : Nat) (b : List Byte) : Nat := b.foldl (fun c x => crc32Bits 0x82F63B78 8 (c ^^^ x.toNat)) seed

def keyH1 (seed : Nat) (k : List Byte) : Nat := crcSeed seed k
def keyH2 (seed : Nat) (k : List Byte) : Nat := crcSeed (seed ^^^ 0xFFFFFFFF) k

/-- Key bytes, value bytes and slots per bucket of a SHAPE. -/
def shapeKey (sh : Nat) : Nat := if sh = 0 then 4 else if sh = 1 then 8 else 16
def shapeSlots (sh : Nat) : Nat := if sh = 0 then 8 else if sh = 1 then 4 else 2

/-- A hash table in a memory: its place, shape, bucket count and seed. -/
structure HTab where
  off : Nat := 0
  shape : Nat := 0
  log2 : Nat := 6
  seed : Nat := 0
  deriving DecidableEq, Repr, Inhabited

/-- The header a memory holds at an offset, if it is that of a hash table. -/
def hashHdr (m : Tbl Byte) (off : Nat) : Option HTab :=
  if memLe m off 4 = 0x5448564F ∧ memLe m (off + 4) 2 = 1 ∧ memLe m (off + 6) 1 ≤ 2 ∧ 6 ≤ memLe m (off + 7) 1
      ∧ memLe m (off + 7) 1 ≤ 30 ∧ memLe m (off + 0xC) 2 ≤ 64 then
    some { off := off, shape := memLe m (off + 6) 1, log2 := memLe m (off + 7) 1, seed := memLe m (off + 8) 4 }
  else none

def HTab.b1 (t : HTab) (k : List Byte) : Nat := keyH1 t.seed k % 2 ^ t.log2
def HTab.b2 (t : HTab) (k : List Byte) : Nat :=
  let b := keyH2 t.seed k % 2 ^ t.log2
  if b = t.b1 k then b ^^^ 1 else b

/-- Byte offset of slot `i` of bucket `b`, and of stash slot `i`. -/
def HTab.slotOff (t : HTab) (b i : Nat) : Nat := t.off + 4096 + b * 64 + i * (2 * shapeKey t.shape)
def HTab.stashOff (t : HTab) (i : Nat) : Nat := t.off + 0x40 + i * 32

def HTab.key (t : HTab) (m : Tbl Byte) (o : Nat) : List Byte := memGet m o (shapeKey t.shape)
def HTab.val (t : HTab) (m : Tbl Byte) (o : Nat) : List Byte := memGet m (o + shapeKey t.shape) (shapeKey t.shape)
/-- A stash value stands behind a key of 16 bytes. -/
def HTab.stashVal (t : HTab) (m : Tbl Byte) (o : Nat) : List Byte := memGet m (o + 16) (shapeKey t.shape)

/-- A key of all ones marks an empty slot. -/
def onesKey (k : List Byte) : Bool := k.all (· == 0xFF)

/-- Where the values of the matches of a key lie: b1, then b2, then the stash (R264). -/
def HTab.find (t : HTab) (m : Tbl Byte) (k : List Byte) : List Nat :=
  let inB (b : Nat) : List Nat :=
    ((List.range (shapeSlots t.shape)).map (t.slotOff b)).filterMap (fun o => if t.key m o = k then some (o + shapeKey t.shape) else none)
  let st := ((List.range (memLe m (t.off + 0xC) 2)).map t.stashOff).filterMap (fun o => if t.key m o = k then some (o + 16) else none)
  inB (t.b1 k) ++ inB (t.b2 k) ++ st

/-- Place an entry in the lowest empty slot of a bucket. -/
def HTab.place (t : HTab) (m : Tbl Byte) (b : Nat) (k v : List Byte) : Option (Tbl Byte) :=
  match ((List.range (shapeSlots t.shape)).map (t.slotOff b)).find? (fun o => onesKey (t.key m o)) with
  | none => none
  | some o => some (memPut m o (k ++ v))

/-- COUNT + 1. -/
def HTab.countUp (t : HTab) (m : Tbl Byte) : Tbl Byte := memPut m (t.off + 0x10) (leBytes 8 (memLe m (t.off + 0x10) 8 + 1))

/-- The kicks of R264, `n` left of 500; then the stash. -/
def HTab.kick (t : HTab) : Nat → Nat → List Byte → List Byte → Tbl Byte → Tbl Byte
  | 0, _, k, v, m =>
    let u := memLe m (t.off + 0xC) 2
    let pad (l : List Byte) : List Byte := l ++ List.replicate (16 - l.length) 0
    t.countUp (memPut (memPut m (t.stashOff u) (pad k ++ pad v)) (t.off + 0xC) (leBytes 2 (u + 1)))
  | n + 1, b, k, v, m =>
    let o := t.slotOff b ((499 - n) % shapeSlots t.shape)
    let k1 := t.key m o
    let v1 := t.val m o
    let m1 := memPut m o (k ++ v)
    let b' := if b = t.b1 k1 then t.b2 k1 else t.b1 k1
    match t.place m1 b' k1 v1 with
    | some m2 => t.countUp m2
    | none => t.kick n b' k1 v1 m1

/-- Insert a key and value; MODE 0 replace, 1 keep first, 2 multimap. `none`: the table is full (ENGINE_ERR 0x09). -/
def HTab.insert (t : HTab) (mode : Nat) (m : Tbl Byte) (k v : List Byte) : Option (Tbl Byte) :=
  match (if mode = 2 then [] else t.find m k) with
  | o :: _ => some (if mode = 0 then memPut m o v else m)
  | [] =>
    match t.place m (t.b1 k) k v with
    | some m1 => some (t.countUp m1)
    | none =>
      match t.place m (t.b2 k) k v with
      | some m1 => some (t.countUp m1)
      | none => if 64 ≤ memLe m (t.off + 0xC) 2 then none else some (t.kick 500 (t.b1 k) k v m)

/-- Clear a hash table and write its header: every key all ones. -/
def HTab.init (t : HTab) (m : Tbl Byte) : Tbl Byte :=
  let hdr := leBytes 4 0x5448564F ++ leBytes 2 1 ++ leBytes 1 t.shape ++ leBytes 1 t.log2 ++ leBytes 4 t.seed ++ List.replicate 4084 0
  let slot := List.replicate (shapeKey t.shape) 0xFF ++ List.replicate (shapeKey t.shape) 0
  memPut m t.off (hdr ++ (List.replicate (2 ^ t.log2 * shapeSlots t.shape) slot).flatten)

/-- A bloom filter. -/
structure Bloom where
  off : Nat := 0
  k : Nat := 1
  log2 : Nat := 10
  seed : Nat := 0
  deriving DecidableEq, Repr, Inhabited

def bloomHdr (m : Tbl Byte) (off : Nat) : Option Bloom :=
  if memLe m off 4 = 0x4642564F ∧ memLe m (off + 4) 2 = 1 ∧ 1 ≤ memLe m (off + 6) 1 ∧ memLe m (off + 6) 1 ≤ 16
      ∧ 10 ≤ memLe m (off + 7) 1 ∧ memLe m (off + 7) 1 ≤ 35 then
    some { off := off, k := memLe m (off + 6) 1, log2 := memLe m (off + 7) 1, seed := memLe m (off + 8) 4 }
  else none

/-- The bits of a key (R265). -/
def Bloom.bits (t : Bloom) (k : List Byte) : List Nat :=
  let h1 := keyH1 t.seed k
  let h2 := keyH2 t.seed k
  (List.range t.k).map (fun i => ((h2 * 2 ^ 32 + h1) + i * (h1 * 2 ^ 32 + h2)) % 2 ^ 64 % 2 ^ t.log2)

def Bloom.test (t : Bloom) (m : Tbl Byte) (k : List Byte) : Bool :=
  (t.bits k).all (fun j => bitAt (memLe m (t.off + 0x40 + j / 8) 1) (j % 8))

def Bloom.add (t : Bloom) (m : Tbl Byte) (k : List Byte) : Tbl Byte :=
  let m1 := (t.bits k).foldl (fun (a : Tbl Byte) j =>
    let o := t.off + 0x40 + j / 8
    tset a o ((tgetD a o 0) ||| (1 <<< (j % 8)))) m
  memPut m1 (t.off + 0x10) (leBytes 8 (memLe m1 (t.off + 0x10) 8 + 1))

def Bloom.init (t : Bloom) (m : Tbl Byte) : Tbl Byte :=
  memPut m t.off (leBytes 4 0x4642564F ++ leBytes 2 1 ++ leBytes 1 t.k ++ leBytes 1 t.log2 ++ leBytes 4 t.seed
    ++ List.replicate (0x34 + 2 ^ t.log2 / 8) 0)

end Sys2Proof.Machine
end

