-- ==== Sys2Proof/Machine/SieveOps.lean ====
section
/-! DEFINITION. Sieves, index engines and merges over a flow (08 R254 to R259, R262 to R267). -/

namespace Sys2Proof.Machine

/-! The sieve descriptor. -/

structure SField where
  off : Nat := 0
  width : Nat := 0
  typ : Nat := 0
  be : Bool := false
  deriving DecidableEq, Repr, Inhabited

structure STerm where
  field : Nat := 0
  op : Nat := 0
  len : Nat := 0
  handle : Nat := 0
  v0 : List Byte := []
  v1 : List Byte := []
  deriving DecidableEq, Repr, Inhabited

structure SNode where
  op : Nat := 0
  left : Nat := 0
  right : Nat := 0
  deriving DecidableEq, Repr, Inhabited

/-- A sieve descriptor (Table 8-10). -/
structure SieveD where
  fmt : Nat := 0
  output : Nat := 0
  reclen : Nat := 0
  delim : Nat := 0
  quote : Nat := 0
  project : Nat := 0
  fields : List SField := []
  terms : List STerm := []
  nodes : List SNode := []
  deriving DecidableEq, Repr, Inhabited

def sieveDesc (b : List Byte) : SieveD :=
  { fmt := u8 b 2, output := u8 b 3, reclen := u16 b 8, delim := u8 b 0xA, quote := u8 b 0xB, project := u32 b 0xC
    fields := (List.range (u8 b 4)).map (fun i =>
      let o := 0x20 + 8 * i
      { off := u16 b o, width := u16 b (o + 2), typ := u8 b (o + 4), be := bitAt (u8 b (o + 5)) 0 })
    terms := (List.range (u8 b 5)).map (fun i =>
      let o := 0x120 + 32 * i
      { field := u8 b o, op := u8 b (o + 1), len := u8 b (o + 2), handle := u16 b (o + 4), v0 := slice b (o + 8) 16, v1 := slice b (o + 0x18) 8 })
    nodes := (List.range (u8 b 6)).map (fun i =>
      let o := 0x320 + 4 * i
      { op := u8 b o, left := u8 b (o + 1), right := u8 b (o + 2) }) }

/-- A check of a field: its offset in the descriptor, and whether it holds. -/
abbrev Checks := List (Nat × Bool)

/-- The first check that fails. -/
def Checks.bad (l : Checks) : Option Nat := (l.find? (fun c => !c.2)).map (·.1)

/-- Zero bytes, checked one by one. -/
def auxZeros (b : List Byte) (off n : Nat) : Checks := (List.range n).map (fun i => (off + i, b.getD (off + i) 0 == 0))

/-- The checks of a field entry (Table 8-11). -/
def fieldChecks (b : List Byte) (fmt o : Nat) : Checks :=
  let w := u16 b (o + 2)
  let t := u8 b (o + 4)
  [(o + 2, if t = 10 then (decide (1 ≤ w) && decide (w ≤ 256)) || (w == 0 && (fmt == 2 || fmt == 3))
           else if t = 11 then w == 8 || w == 0 else typeWidth t == some w || decide (11 < t)),
   (o + 4, decide (t ≤ 10) || (t == 11 && fmt == 2)), (o + 5, decide (u8 b (o + 5) < 2))] ++ auxZeros b (o + 6) 2

/-- The checks of a term (Table 8-12). `live`: does the slice hold the handle? -/
def termChecks (b : List Byte) (live : Nat → Bool) (nf o : Nat) : Checks :=
  let f := u8 b o
  let op := u8 b (o + 1)
  let len := u8 b (o + 2)
  let typ := u8 b (0x20 + 8 * f + 4)
  let const := op == 9 || (typ == 10 && op < 7)
  [(o, decide (f < nf)), (o + 1, decide (op ≤ 10)), (o + 2, if const then decide (1 ≤ len) && decide (len ≤ 16) else len == 0),
   (o + 3, u8 b (o + 3) == 0), (o + 4, !(op == 7 || op == 8) || live (u16 b (o + 4)))] ++ auxZeros b (o + 6) 2

/-- The checks of node `k` (Table 8-13). -/
def nodeChecks (b : List Byte) (nt k : Nat) : Checks :=
  let o := 0x320 + 4 * k
  let ok (v : Nat) : Bool := decide (v < nt) || (decide (0x10 ≤ v) && decide (v < 0x10 + k))
  [(o, decide (u8 b o ≤ 2)), (o + 1, ok (u8 b (o + 1))), (o + 2, if u8 b o = 2 then u8 b (o + 2) == 0 else ok (u8 b (o + 2))),
   (o + 3, u8 b (o + 3) == 0)]

/-- Every check of a sieve descriptor, in offset order (R254 to R257). -/
def sieveChecks (b : List Byte) (live : Nat → Bool) : Checks :=
  let fmt := u8 b 2
  let nf := u8 b 4
  let nt := u8 b 5
  let nn := u8 b 6
  let rl := u16 b 8
  [(0, u16 b 0 == 1), (2, decide (fmt ≤ 3)), (3, decide (u8 b 3 ≤ 2)), (4, decide (1 ≤ nf) && decide (nf ≤ 32)),
   (5, decide (1 ≤ nt) && decide (nt ≤ 16)), (6, decide (nn ≤ 15)), (7, u8 b 7 == 0),
   (8, if fmt = 0 then rl != 0 else if fmt = 1 then rl == 2 || rl == 4 else rl == 0),
   (0xA, fmt == 2 || u8 b 0xA == 0), (0xB, fmt == 2 || u8 b 0xB == 0), (0xC, decide (u32 b 0xC < 2 ^ nf))]
  ++ auxZeros b 0x10 16
  ++ (List.range 32).flatMap (fun i => if i < nf then fieldChecks b fmt (0x20 + 8 * i) else auxZeros b (0x20 + 8 * i) 8)
  ++ (List.range 16).flatMap (fun i => if i < nt then termChecks b live nf (0x120 + 32 * i) else auxZeros b (0x120 + 32 * i) 32)
  ++ (List.range 15).flatMap (fun i => if i < nn then nodeChecks b nt i else auxZeros b (0x320 + 4 * i) 4)
  ++ auxZeros b 0x35C 4

/-! Values (R255, R256). -/

/-- Bytes of a field in a record; none: null. -/
def fieldBytes (fmt : Nat) (f : SField) (r : SRec) : Option (List Byte) :=
  let cut (b : List Byte) : Option (List Byte) :=
    if f.width = 0 ∨ f.typ = 11 then some b else if b.length < f.width then none else some (b.take f.width)
  if fmt = 2 then match r.texts[f.off]? with
    | none => none
    | some b => cut b
  else if fmt = 3 then match r.cols[f.off]? with
    | none => none
    | some c => if c.null then none else cut c.bytes
  else if r.body.length < f.off + f.width then none else some (slice r.body f.off f.width)

/-- An optional sign and 1 to 19 decimal digits as s64 (R256) (DEDUCED, log 97). -/
def textInt (b : List Byte) : Option Int :=
  let neg := b.head? == some 0x2D
  let d := if neg || b.head? == some 0x2B then b.drop 1 else b
  if d.isEmpty || 19 < d.length || !d.all (fun c => decide (48 ≤ c.toNat) && decide (c.toNat ≤ 57)) then none
  else
    let n : Int := (d.foldl (fun a c => a * 10 + (c.toNat - 48)) 0 : Nat)
    let v := if neg then -n else n
    if -(2 ^ 63 : Int) ≤ v ∧ v < (2 ^ 63 : Int) then some v else none

/-- An order-preserving integer of a float's bits; none for NaN. `n` bytes: 4 or 8. -/
def floatOrd (n v : Nat) : Option Int :=
  let e := if n = 4 then 8 else 11
  let m := 8 * n - 1 - e
  let mag := v % 2 ^ (8 * n - 1)
  if (2 ^ e - 1) * 2 ^ m < mag then none else some (if v < 2 ^ (8 * n - 1) then (mag : Int) else -(mag : Int))

/-- A value as it is compared. -/
inductive SVal where
  | num (i : Int)
  | nan
  | bytes (b : List Byte)
  deriving DecidableEq, Repr, Inhabited

/-- A number of a type from its bytes in little-endian order. -/
def numOf (typ : Nat) (b : List Byte) : SVal :=
  if typ ≤ 3 then .num (leNat b)
  else if typ ≤ 7 then .num (signed b.length (leNat b))
  else if typ = 8 ∨ typ = 9 then (match floatOrd b.length (leNat b) with | some i => .num i | none => .nan)
  else if typ = 11 then .num (signed 8 (leNat b))
  else .bytes b

def fieldVal (fmt : Nat) (f : SField) (r : SRec) : Option SVal :=
  match fieldBytes fmt f r with
  | none => none
  | some b =>
    if f.typ = 11 then (textInt b).map SVal.num
    else if f.typ = 10 then some (.bytes b)
    else some (numOf f.typ (if f.be then b.reverse else b))

/-- The bytes a set or a filter hashes. -/
def fieldKey (fmt : Nat) (f : SField) (r : SRec) : Option (List Byte) :=
  match fieldBytes fmt f r with
  | none => none
  | some b => if f.typ = 11 then (textInt b).map (fun i => leBytes 8 (i % 2 ^ 64).toNat) else some b

/-- Unsigned byte strings; a proper prefix sorts first. -/
def bytesLt : List Byte → List Byte → Bool
  | _, [] => false
  | [], _ :: _ => true
  | a :: s, b :: t => if a = b then bytesLt s t else decide (a.toNat < b.toNat)

def SVal.lt : SVal → SVal → Bool
  | .num a, .num b => decide (a < b)
  | .bytes a, .bytes b => bytesLt a b
  | _, _ => false
def SVal.eqv : SVal → SVal → Bool
  | .num a, .num b => a == b
  | .bytes a, .bytes b => a == b
  | _, _ => false

/-- The constant of a term: `w` bytes at the field's type, or its LEN bytes. -/
def termConst (f : SField) (t : STerm) (v : List Byte) : SVal :=
  if f.typ = 10 then .bytes (v.take t.len) else numOf f.typ (v.take ((typeWidth f.typ).getD 8))

/-- A term over a record (Table 8-12); `mem` is the compute memory of a handle. -/
def evalTerm (d : SieveD) (mem : Nat → Tbl Byte) (r : SRec) (t : STerm) : Bool :=
  let f := d.fields.getD t.field {}
  match fieldVal d.fmt f r with
  | none => t.op == 10
  | some v =>
    let c := termConst f t t.v0
    if t.op = 0 then v.eqv c
    else if t.op = 1 then !v.eqv c
    else if t.op = 2 then v.lt c
    else if t.op = 3 then v.lt c || v.eqv c
    else if t.op = 4 then c.lt v
    else if t.op = 5 then c.lt v || v.eqv c
    else if t.op = 6 then
      let h := termConst f t t.v1
      (c.lt v || v.eqv c) && (v.lt h || v.eqv h)
    else
      let k := (fieldKey d.fmt f r).getD []
      let m := mem t.handle
      if t.op = 7 then (match hashHdr m (leNat t.v1) with | some h => !(h.find m k).isEmpty | none => false)
      else if t.op = 8 then (match bloomHdr m (leNat t.v1) with | some h => h.test m k | none => false)
      else if t.op = 9 then ((fieldBytes d.fmt f r).getD []).take t.len == t.v0.take t.len
      else false

/-- Does a set or filter term name a valid table of its field's key width (R256, R263, R265)? -/
def termTableOk (d : SieveD) (mem : Nat → Tbl Byte) (t : STerm) : Bool :=
  let f := d.fields.getD t.field {}
  let w := if f.typ = 11 then 8 else f.width
  if t.op = 7 then (match hashHdr (mem t.handle) (leNat t.v1) with | some h => w == shapeKey h.shape | none => false)
  else if t.op = 8 then (bloomHdr (mem t.handle) (leNat t.v1)).isSome && decide (w ≤ 16)
  else true

/-- The nodes, in order, over the terms' values (R257). -/
def evalNodes (ts : List Bool) : List SNode → List Bool → List Bool
  | [], acc => acc
  | n :: t, acc =>
    let v (o : Nat) : Bool := if o < 0x10 then ts.getD o false else acc.getD (o - 0x10) false
    evalNodes ts t (acc ++ [if n.op = 0 then v n.left && v n.right else if n.op = 1 then v n.left || v n.right else !v n.left])

/-- Does the predicate select a record? -/
def SieveD.selects (d : SieveD) (mem : Nat → Tbl Byte) (r : SRec) : Bool :=
  let ts := d.terms.map (evalTerm d mem r)
  if d.nodes.isEmpty then ts.headD false else (evalNodes ts d.nodes []).getLastD false

/-- Text integers of a record that do not parse. -/
def SieveD.parseFails (d : SieveD) (r : SRec) : Nat :=
  (d.fields.filter (fun f => f.typ == 11 && (match fieldBytes d.fmt f r with | some b => (textInt b).isNone | none => false))).length

/-- A projected field in row form; a null field of a fixed-width or prefixed record fills its width with bytes the spec does
not state. -/
def projField (d : SieveD) (r : SRec) (f : SField) : List Byte :=
  if d.fmt = 3 then (match r.cols[f.off]? with | some c => rowForm [c] | none => (List.range f.width).map (Config.nullByte f.off))
  else (fieldBytes d.fmt f r).getD ((List.range f.width).map (Config.nullByte f.off))

/-- Fields joined by DELIM. -/
def joinWith (x : Byte) : List (List Byte) → List Byte
  | [] => []
  | [a] => a
  | a :: b :: t => a ++ x :: joinWith x (b :: t)

/-- What a selected record emits (R259). -/
def SieveD.emit (d : SieveD) (r : SRec) : List Byte :=
  if d.output = 0 then r.raw
  else
    let fs := ((List.range d.fields.length).filter (bitAt d.project)).map (fun i => d.fields.getD i {})
    if d.fmt = 2 then joinWith (BitVec.ofNat 8 d.delim) (fs.map (fun f => r.texts.getD f.off [])) ++ [0x0A]
    else fs.flatMap (projField d r)

/-- A list of bits as bytes, zero-padded to 8 bytes. -/
def bitmapBytes (l : List Bool) : List Byte :=
  let n := ceilDiv l.length 64 * 8
  leBytes n ((List.range l.length).foldl (fun a i => if l.getD i false then a + 2 ^ i else a) 0)

/-- Join the pieces of each run of a flow that no longer follows its extents. -/
def joinSegs : List Seg → List Seg
  | [] => []
  | g :: t =>
    match joinSegs t with
    | [] => [g]
    | h :: u => if g.run = h.run then { h with bytes := g.bytes ++ h.bytes } :: u else g :: h :: u

/-- The records of a list of pieces, piece by piece, and why reading them ended. `cut`: an earlier stage cut the stream. -/
def readSegs (fmt reclen delim quote stage : Nat) (cut : Bool) : Nat → List Seg → List (Seg × List SRec) × Option Stop
  | _, [] => ([], none)
  | pos, g :: t =>
    let r := recsOf fmt reclen delim quote pos g.bytes
    if r.clean = some true ∨ (r.clean = some false ∧ cut ∧ t.isEmpty) then
      let q := readSegs fmt reclen delim quote stage cut (pos + g.bytes.length) t
      ((g, r.recs) :: q.1, q.2)
    else ([(g, r.recs)], some { err := 8, stage := stage, ext := g.ext })

/-- The sieve stage. Records read and selected are counted (CPX_CNT 6, 7). -/
def sieveStage (d : SieveD) (mem : Nat → Tbl Byte) (stage : Nat) (raw : Bool) (f : Flow) : Flow :=
  if !(d.terms.all (termTableOk d mem)) then { f with segs := [], stop := some { err := 8, stage := stage } }
  else
    let rs := readSegs d.fmt d.reclen d.delim d.quote stage f.stop.isSome 0 (if raw then f.segs else joinSegs f.segs)
    let all := rs.1.flatMap (·.2)
    let sel (r : SRec) : Bool := d.selects mem r
    let n := (all.filter sel).length
    let out : List Seg := if d.output = 2 then [{ bytes := bitmapBytes (all.map sel), ext := ((rs.1.getLast?).map (fun e => e.1.ext)).getD 0xFFFFFFFF }]
      else rs.1.map (fun e => { e.1 with bytes := (e.2.filter sel).flatMap d.emit })
    (({ f with segs := out, stop := if rs.2.isSome then rs.2 else f.stop, recIn := f.recIn + all.length, recOut := f.recOut + n
               parseFail := f.parseFail + sumNat (all.map d.parseFails) }.count 6 all.length).count 7 n)

/-! Index engines (R262 to R265). -/

/-- An index descriptor (Table 8-16). -/
structure IndexD where
  fmt : Nat := 0
  shape : Nat := 0
  mode : Nat := 0
  init : Bool := false
  reclen : Nat := 0
  key : Nat := 0
  valOrd : Bool := false
  val : Nat := 0
  handle : Nat := 0
  log2 : Nat := 0
  k : Nat := 0
  off : Nat := 0
  seed : Nat := 0
  deriving DecidableEq, Repr, Inhabited

def indexDesc (b : List Byte) : IndexD :=
  { fmt := u8 b 0, shape := u8 b 1, mode := u8 b 2, init := bitAt (u8 b 3) 0, reclen := u16 b 4, key := u16 b 6, valOrd := u8 b 8 == 1
    val := u16 b 0xA, handle := u16 b 0xC, log2 := u8 b 0xE, k := u8 b 0xF, off := u64 b 0x10, seed := u32 b 0x18 }

/-- Bytes that a table takes from TABLE_OFF. -/
def tableBytes (bloom : Bool) (log2 : Nat) : Nat := if bloom then 64 + 2 ^ log2 / 8 else 4096 + 2 ^ log2 * 64

/-- The checks of an index descriptor; `size` gives the bytes of a live handle. -/
def indexChecks (param : Nat) (b : List Byte) (size : Nat → Option Nat) : Checks :=
  let fmt := u8 b 0
  let rl := u16 b 4
  let l := u8 b 0xE
  let bloom := param == 2
  [(0, fmt == 0 || fmt == 1 || fmt == 3), (1, decide (u8 b 1 ≤ 2)), (2, decide (u8 b 2 ≤ if param = 0 then 2 else if param = 1 then 1 else 0)),
   (3, decide (u8 b 3 < 2) && (param != 1 || u8 b 3 == 0)), (4, if fmt = 0 then rl != 0 else if fmt = 1 then rl == 2 || rl == 4 else rl == 0),
   (8, decide (u8 b 8 ≤ 1)), (9, u8 b 9 == 0), (0xC, (size (u16 b 0xC)).isSome),
   (0xE, if bloom then decide (10 ≤ l) && decide (l ≤ 35) else decide (6 ≤ l) && decide (l ≤ 30)),
   (0xF, if bloom then decide (1 ≤ u8 b 0xF) && decide (u8 b 0xF ≤ 16) else u8 b 0xF == 0),
   (0x10, u64 b 0x10 % 64 == 0 && decide (u64 b 0x10 + tableBytes bloom l ≤ (size (u16 b 0xC)).getD 0))] ++ auxZeros b 0x1C 36

/-- The bytes of a key or value field of a record: none where the record does not hold it. -/
def idxField (fmt off w : Nat) (r : SRec) : Option (List Byte) :=
  if fmt = 3 then match r.cols[off]? with
    | none => none
    | some c => if c.null || c.bytes.length != w then none else some c.bytes
  else if r.body.length < off + w then none else some (slice r.body off w)

/-- A stage that reads and writes a table: the memory it leaves, and what a build touched. -/
structure IdxOut where
  flow : Flow := {}
  mem : Tbl Byte := []
  deriving DecidableEq, Repr, Inhabited

/-- Hash build, record by record; none of the entry for an all-ones key. -/
def buildGo (d : IndexD) (t : HTab) : Nat → List SRec → Tbl Byte → Nat → Tbl Byte × Nat × Bool
  | _, [], m, n => (m, n, false)
  | ord, r :: rest, m, n =>
    let w := shapeKey d.shape
    let k := (idxField d.fmt d.key w r).getD (List.replicate w 0xFF)
    if onesKey k then buildGo d t (ord + 1) rest m n
    else
      let v := if d.valOrd then leBytes w ord else (idxField d.fmt d.val w r).getD ((List.range w).map (Config.nullByte d.val))
      match t.insert d.mode m k v with
      | none => (m, n, true)
      | some m1 => buildGo d t (ord + 1) rest m1 (n + 1)

/-- The index stage with parameter 0: hash build (DEDUCED, log 98). -/
def hashBuild (d : IndexD) (rs : List SRec) (stage ext : Nat) (f : Flow) (m : Tbl Byte) : IdxOut :=
  let t : HTab := { off := d.off, shape := d.shape, log2 := d.log2, seed := d.seed }
  let go (t : HTab) (m : Tbl Byte) : IdxOut :=
    let r := buildGo d t 0 rs m 0
    { mem := r.1, flow := ({ f with segs := [], recOut := f.recOut + r.2.1,
                                     stop := if r.2.2 then some { err := 9, stage := stage, ext := ext } else f.stop }.count 8 r.2.1) }
  if d.init then go t (t.init m)
  else match hashHdr m d.off with
    | some h => if h.shape = d.shape ∧ h.log2 = d.log2 then go h m
                else { mem := m, flow := { f with segs := [], stop := some { err := 8, stage := stage } } }
    | none => { mem := m, flow := { f with segs := [], stop := some { err := 8, stage := stage } } }

/-- One record's probe output: (ordinal, value) entries of 16 or 24 bytes. -/
def probeRec (d : IndexD) (t : HTab) (m : Tbl Byte) (ord : Nat) (r : SRec) : List (List Byte) :=
  let w := shapeKey d.shape
  let vw := if d.shape = 2 then 16 else 8
  match idxField d.fmt d.key w r with
  | none => if d.mode = 1 then [leBytes 8 (ord + 2 ^ 63) ++ List.replicate vw 0xFF] else []
  | some k =>
    if onesKey k then []
    else
      let l := t.find m k
      if l.isEmpty then (if d.mode = 1 then [leBytes 8 (ord + 2 ^ 63) ++ List.replicate vw 0xFF] else [])
      else l.map (fun o =>
        let v := memGet m o w
        leBytes 8 ord ++ v ++ List.replicate (vw - w) 0)

/-- The index stage with parameter 1: hash probe. -/
def hashProbe (d : IndexD) (rs : List SRec) (stage ext : Nat) (f : Flow) (m : Tbl Byte) : IdxOut :=
  match hashHdr m d.off with
  | some h =>
    if h.shape = d.shape ∧ h.log2 = d.log2 then
      let es := (List.range rs.length).flatMap (fun i => probeRec d h m i (rs.getD i {}))
      { mem := m, flow := ({ f with segs := [{ bytes := es.flatten, ext := ext }], recOut := f.recOut + es.length }.count 9 rs.length) }
    else { mem := m, flow := { f with segs := [], stop := some { err := 8, stage := stage } } }
  | none => { mem := m, flow := { f with segs := [], stop := some { err := 8, stage := stage } } }

/-- The index stage with parameter 2: bloom build. -/
def bloomBuild (d : IndexD) (rs : List SRec) (stage : Nat) (f : Flow) (m : Tbl Byte) : IdxOut :=
  let t : Bloom := { off := d.off, k := d.k, log2 := d.log2, seed := d.seed }
  let go (t : Bloom) (m : Tbl Byte) : IdxOut :=
    let ks := rs.filterMap (idxField d.fmt d.key (shapeKey d.shape))
    { mem := ks.foldl t.add m, flow := { f with segs := [], recOut := f.recOut + ks.length } }
  if d.init then go t (t.init m)
  else match bloomHdr m d.off with
    | some h => if h.k = d.k ∧ h.log2 = d.log2 then go h m
                else { mem := m, flow := { f with segs := [], stop := some { err := 8, stage := stage } } }
    | none => { mem := m, flow := { f with segs := [], stop := some { err := 8, stage := stage } } }

/-- The INDEX stage of an INDEX job over the memory of its table's handle. -/
def indexStage (param : Nat) (d : IndexD) (stage : Nat) (raw : Bool) (f : Flow) (m : Tbl Byte) : IdxOut :=
  let rs := readSegs d.fmt d.reclen 0 0 stage f.stop.isSome 0 (if raw then f.segs else joinSegs f.segs)
  let all := rs.1.flatMap (·.2)
  let ext := ((rs.1.getLast?).map (fun e => e.1.ext)).getD 0xFFFFFFFF
  let f1 : Flow := { f with recIn := f.recIn + all.length }
  let o := if param = 0 then hashBuild d all stage ext f1 m else if param = 1 then hashProbe d all stage ext f1 m else bloomBuild d all stage f1 m
  if o.flow.stop.isSome && o.flow.stop != f.stop then o
  else { o with flow := { o.flow with stop := if rs.2.isSome then rs.2 else f.stop } }

/-! Merges (R266, R267). -/

/-- A sorted-run record (Table 8-18). -/
structure MRec where
  key : List Byte := []
  tomb : Bool := false
  seq : Nat := 0
  raw : List Byte := []
  run : Nat := 0
  deriving DecidableEq, Repr, Inhabited

/-- The records of one run: with BLOCK_LOG2 nonzero a KLEN of 0 skips to the next block boundary. -/
def runRecs (blk run : Nat) : Nat → Nat → List Byte → Option (List MRec)
  | 0, _, _ => some []
  | f + 1, pos, b =>
    if b.isEmpty then some []
    else
      let kl := u16 b 0
      if kl = 0 then
        if blk = 0 then none
        else
          let skip := 2 ^ blk - pos % 2 ^ blk
          runRecs blk run f (pos + skip) (b.drop skip)
      else
        let vl := u32 b 4
        let n := (16 + kl + vl + 7) / 8 * 8
        if b.length < n || 4096 < kl || 2 ^ 24 < vl || 1 < u8 b 2 || u8 b 3 != 0 || (bitAt (u8 b 2) 0 && vl != 0)
            || (blk != 0 && decide (2 ^ blk < pos % 2 ^ blk + n)) then none
        else (runRecs blk run f (pos + n) (b.drop n)).map (fun t =>
          { key := slice b 16 kl, tomb := bitAt (u8 b 2) 0, seq := u64 b 8, raw := b.take n, run := run } :: t)

/-- Ascending by key, and within one key descending by SEQ. -/
def runOrdered : List MRec → Bool
  | [] => true
  | [_] => true
  | a :: b :: t => (bytesLt a.key b.key || (a.key == b.key && decide (b.seq ≤ a.seq))) && runOrdered (b :: t)

/-- Does `a` come before `b` in the merged order: key, newest SEQ, lowest RUN? -/
def MRec.before (a b : MRec) : Bool :=
  bytesLt a.key b.key || (a.key == b.key && (decide (b.seq < a.seq) || (a.seq == b.seq && decide (a.run ≤ b.run))))

def mergeTwo : Nat → List MRec → List MRec → List MRec
  | 0, a, b => a ++ b
  | _ + 1, [], b => b
  | _ + 1, a, [] => a
  | f + 1, x :: a, y :: b => if x.before y then x :: mergeTwo f a (y :: b) else y :: mergeTwo f (x :: a) b

/-- The first record of each key. -/
def newest : List MRec → List MRec
  | [] => []
  | a :: t =>
    match newest t with
    | [] => [a]
    | b :: u => if a.key = b.key then a :: u else a :: b :: u

/-- Write records: none crosses a block boundary; none where one is larger than a block. -/
def mergeOut (blk : Nat) : Nat → List MRec → Option (List Byte)
  | _, [] => some []
  | pos, r :: t =>
    let size := 2 ^ blk
    if blk != 0 && decide (size < r.raw.length) then none
    else
      let pad := if blk != 0 && decide (size < pos % size + r.raw.length) then size - pos % size else 0
      (mergeOut blk (pos + pad + r.raw.length) t).map (fun o => List.replicate pad 0 ++ r.raw ++ o)

/-- The checks of a merge descriptor (Table 8-17). -/
def mergeChecks (b : List Byte) : Checks :=
  [(0, decide (1 ≤ u8 b 0) && decide (u8 b 0 ≤ 16)), (1, decide (u8 b 1 < 2)),
   (2, u8 b 2 == 0 || (decide (12 ≤ u8 b 2) && decide (u8 b 2 ≤ 20)))] ++ auxZeros b 3 13

/-- The pieces of one run. -/
def runBytes (l : List Seg) (r : Nat) : List Byte := segBytes (l.filter (fun g => g.run == r))
def runExt (l : List Seg) (r : Nat) : Nat := (((l.filter (fun g => g.run == r)).getLast?).map (·.ext)).getD 0xFFFFFFFF

/-- Read and check every run. -/
def readRuns (blk stage : Nat) (l : List Seg) : List Nat → Except Stop (List (List MRec))
  | [] => .ok []
  | r :: t =>
    match runRecs blk r ((runBytes l r).length + 1) 0 (runBytes l r) with
    | none => .error { err := 8, stage := stage, ext := runExt l r }
    | some rs =>
      if !runOrdered rs then .error { err := 0xA, stage := stage, ext := runExt l r }
      else match readRuns blk stage l t with
        | .error e => .error e
        | .ok q => .ok (rs :: q)

/-- The merge stage; records written and tombstones dropped are counted (CPX_CNT 10, 11). -/
def mergeStage (aux : List Byte) (stage : Nat) (f : Flow) : Flow :=
  match readRuns (u8 aux 2) stage f.segs (List.range (u8 aux 0)) with
  | .error e => { f with segs := [], stop := some e }
  | .ok runs =>
    let all := runs.foldl (fun a b => mergeTwo (a.length + b.length + 1) a b) []
    let kept := newest all
    let drop := bitAt (u8 aux 1) 0
    let out := if drop then kept.filter (fun r => !r.tomb) else kept
    match mergeOut (u8 aux 2) 0 out with
    | none => { f with segs := [], recIn := f.recIn + all.length, stop := some { err := 8, stage := stage } }
    | some o =>
      let ext := ((f.segs.getLast?).map (·.ext)).getD 0xFFFFFFFF
      (({ f with segs := [{ bytes := o, ext := ext }], recIn := f.recIn + all.length, recOut := f.recOut + out.length }.count 10 out.length).count 11
        (kept.length - out.length))

end Sys2Proof.Machine
end

