-- ==== Sys2Proof/Machine/WeaveOps.lean ====
section
/-! DEFINITION. The weave fabric (09 R289 to R293). -/

namespace Sys2Proof.Machine

/-- Keep 32 bits. -/
def w32 (n : Nat) : Nat := n % 2 ^ 32

/-- A 32-bit number as its two's complement value. -/
def s32 (n : Nat) : Int := signed 4 n

/-- Arithmetic shift right of 32 bits. -/
def asr32 (a n : Nat) : Nat := ((s32 a / (2 ^ n : Int)) % (2 ^ 32 : Int)).toNat

/-- Set bits among the lowest `n`, and zeros above the highest set one. -/
def popCount (a : Nat) : Nat → Nat
  | 0 => 0
  | n + 1 => (bitAt a n).toNat + popCount a n
def leadZeros (a : Nat) : Nat → Nat
  | 0 => 0
  | n + 1 => if bitAt a n then 0 else 1 + leadZeros a n

/-- An ALU operation (Table 9-8); `f` and `r` are the cell's flag and register. -/
def aluOp (op a b r : Nat) (f : Bool) : Nat :=
  let sh := b % 32
  if op = 0 then a
  else if op = 1 then w32 (a + b)
  else if op = 2 then w32 (a + 2 ^ 32 - b)
  else if op = 3 then a &&& b
  else if op = 4 then a ||| b
  else if op = 5 then a ^^^ b
  else if op = 6 then w32 (a <<< sh)
  else if op = 7 then a >>> sh
  else if op = 8 then asr32 a sh
  else if op = 9 then w32 (a * b)
  else if op = 10 then a * b / 2 ^ 32
  else if op = 11 then min a b
  else if op = 12 then max a b
  else if op = 13 then (if s32 a ≤ s32 b then a else b)
  else if op = 14 then (if s32 a ≤ s32 b then b else a)
  else if op = 15 then (if a = b then 1 else 0)
  else if op = 16 then (if a < b then 1 else 0)
  else if op = 17 then (if s32 a < s32 b then 1 else 0)
  else if op = 18 then (if f then a else b)
  else if op = 19 then beNat (leBytes 4 a)
  else if op = 20 then popCount a 32
  else if op = 21 then leadZeros a 32
  else if op = 22 then w32 (a <<< sh) ||| (a >>> (32 - sh))
  else if op = 23 then crcSeed b (leBytes 4 a)
  else w32 (r + a)

/-- The cell `n` of a weave: outside its range it reads as 0. -/
def cellAt (d : WeaveDir) (t : Tbl WCell) (n : Nat) (ok : Bool) : WCell :=
  if ok && decide (d.first ≤ n) && decide (n < d.first + d.cells) then tval t n else {}

def northOf (d : WeaveDir) (t : Tbl WCell) (n : Nat) : WCell := cellAt d t (n - 32) (decide (32 ≤ n))
def southOf (d : WeaveDir) (t : Tbl WCell) (n : Nat) : WCell := cellAt d t (n + 32) (decide (n + 32 < 2048))
def westOf (d : WeaveDir) (t : Tbl WCell) (n : Nat) : WCell := cellAt d t (n - 1) (n % 32 != 0)
def eastOf (d : WeaveDir) (t : Tbl WCell) (n : Nat) : WCell := cellAt d t (n + 1) (n % 32 != 31)

/-- A source of a cell (Table 9-7). -/
def cellSrc (d : WeaveDir) (t : Tbl WCell) (n k : Nat) (w : Nat) (sel : Nat) : Nat :=
  let c : WCell := tval t n
  if sel = 0 then (northOf d t n).r
  else if sel = 1 then (westOf d t n).r
  else if sel = 2 then (eastOf d t n).r
  else if sel = 3 then (southOf d t n).r
  else if sel = 4 then c.r
  else if sel = 5 then c.m
  else if sel = 6 then k
  else if sel = 7 then w
  else 0

/-- The local memory of a cell (MEM of Table 9-7). -/
def cellMem (mode a b : Nat) (g : Bool) (c : WCell) : WCell :=
  let i := a % 512
  let v := tgetD c.mem i 0
  if mode = 1 then { c with m := v }
  else if mode = 2 then (if g then { c with mem := tset c.mem i b } else c)
  else if mode = 3 then (if g then { c with m := v, mem := tset c.mem i (w32 (v + b)) } else { c with m := v })
  else c

/-- One cell's next state (R291). `ins`: the words at the input ports; none where a port has no word. -/
def cellStep (p : WeavePanel) (d : WeaveDir) (t : Tbl WCell) (ins : List (Option Nat)) (n : Nat) : WCell :=
  let cfg := ((p.cells.find? (fun c => c.cell == n)).map (·.cfg)).getD 0
  let c : WCell := tval t n
  let isIn := decide (n < d.first + d.inputs)
  let w : Option Nat := if isIn then (ins.getD (n - d.first) none) else none
  let k := bitsAt cfg 96 32
  let a := cellSrc d t n k (w.getD 0) (bitsAt cfg 72 4)
  let b := cellSrc d t n k (w.getD 0) (bitsAt cfg 76 4)
  let lo := (if isIn then w.isSome else (northOf d t n).f).toNat + 2 * (westOf d t n).f.toNat + 4 * (eastOf d t n).f.toNat
    + 8 * (southOf d t n).f.toNat + 16 * (decide (a < b)).toNat
  let wide := bitAt cfg 69
  let f := if wide then bitAt cfg (lo + 32 * c.f.toNat) else bitAt cfg lo
  let g := wide || bitAt cfg (32 + lo)
  cellMem (bitsAt cfg 80 2) a b g { c with r := if g then aluOp (bitsAt cfg 64 5) a b c.r c.f else c.r, f := f }

/-- The cells of a weave. -/
def weaveCells (d : WeaveDir) : List Nat := (List.range d.cells).map (fun i => d.first + i)

/-- One step of a weave: every cell updates from the values of the step before; then the output ports emit (R292). -/
def weaveStep (p : WeavePanel) (d : WeaveDir) (t : Tbl WCell) (ins : List (Option Nat)) : Tbl WCell × List Nat :=
  let t1 := (weaveCells d).foldl (fun (u : Tbl WCell) n => tset u n (cellStep p d t ins n)) t
  let outs := (List.range d.outputs).filterMap (fun q =>
    if q < d.cells then
      let c : WCell := tval t1 (d.first + d.cells - 1 - q)
      if c.f then some c.r else none
    else none)
  (t1, outs)

/-- The cells of a weave at the start of a work unit (R293): registers 0, memory from the panel's records. -/
def weaveStart (p : WeavePanel) (d : WeaveDir) (t : Tbl WCell) : Tbl WCell :=
  (weaveCells d).foldl (fun (u : Tbl WCell) n =>
    let ws := ((p.mems.find? (fun m => m.cell == n)).map (·.words)).getD []
    tset u n { mem := (List.range ws.length).map (fun i => (i, ws.getD i 0)) }) t

/-- Steps over a list of words, INPUTS of them a step (DEDUCED, log 100). -/
def weaveFeed (p : WeavePanel) (d : WeaveDir) : Nat → List Nat → Tbl WCell → Tbl WCell × List Nat
  | 0, _, t => (t, [])
  | n + 1, ws, t =>
    if ws.isEmpty then (t, [])
    else
      let r := weaveStep p d t ((List.range (max 1 d.inputs)).map (fun i => ws[i]?))
      let q := weaveFeed p d n (ws.drop (max 1 d.inputs)) r.1
      (q.1, r.2 ++ q.2)

/-- The drain: steps with no word. -/
def weaveDrain (p : WeavePanel) (d : WeaveDir) : Nat → Tbl WCell → List Nat
  | 0, _ => []
  | n + 1, t =>
    let r := weaveStep p d t []
    r.2 ++ weaveDrain p d n r.1

/-- Bytes as little-endian words, the last one zero-padded. -/
def wordsOf (b : List Byte) : List Nat := (List.range (ceilDiv b.length 4)).map (fun i => u32 b (4 * i))

/-- A weave over one work unit (R292). -/
def weaveUnit (p : WeavePanel) (d : WeaveDir) (b : List Byte) : List Byte :=
  let ws := wordsOf b
  let r := weaveFeed p d ws.length ws (weaveStart p d [])
  (r.2 ++ weaveDrain p d d.cells r.1).flatMap (leBytes 4)

/-- The WEAVE stage: parameter bit 7 names the half, the rest the weave. -/
def weaveStage (pat : Pat) (param stage : Nat) (f : Flow) : Flow :=
  let half := param / 128
  match (if half = 0 then pat.weave0 else pat.weave1), weaveDir? pat half (param % 128) with
  | some p, some d => { f with segs := f.segs.map (fun g => { g with bytes := weaveUnit p d g.bytes }) }
  | _, _ => { f with segs := [], stop := some { err := 0xF, stage := stage } }

end Sys2Proof.Machine
end

