-- ==== Sys2Proof/Machine/JobRun.lean ====
section
/-! DEFINITION. What a job computes: its input stream, the stages of its route, its output (08 R235 to R237, R247, R253). -/

namespace Sys2Proof.Machine

/-- The bytes of an allocation of a slice. -/
def State.cmem (s : State) (sl h : Nat) : Tbl Byte := match s.alloc? sl h with | some a => a.bytes | none => []

/-- First LBA of a namespace extent, and how many LBAs hold its bytes (R235). -/
def Extent.lba (e : Extent) : Nat := e.addr / 4096
def Extent.lbas (e : Extent) : Nat := ceilDiv (e.addr % 4096 + e.len) 4096

/-- Bytes of blocks. -/
def blockBytesOf (l : List Block) : List Byte := l.flatMap (fun b => leBytes 4096 b.bits)

/-- The input bytes of each extent in order: namespace extents take their LBAs' data, host extents what was read for them,
compute memory extents what the memory holds. -/
def State.extBytes (s : State) (sl : Nat) : List Extent → List Block → List (List Byte) → List (List Byte)
  | [], _, _ => []
  | e :: t, us, hs =>
    if e.src = 0 then slice (blockBytesOf (us.take e.lbas)) (e.addr % 4096) e.len :: s.extBytes sl t (us.drop e.lbas) hs
    else if e.src = 1 then memGet (s.cmem sl e.handle) e.addr e.len :: s.extBytes sl t us hs
    else hs.headD [] :: s.extBytes sl t us (hs.drop 1)

def State.jobInputs (s : State) (c : Nat) : List (List Byte) :=
  let x := s.ctx c
  let j := s.job c
  s.extBytes x.slice j.desc.exts (x.units.map (·.data)) j.inputs

/-- Route stages in the order data passes them, with their indexes; MEDIA_HEAD and the end stage, which only moves data, are
left out (R236, R237). -/
def dataStages (r : RouteSlot) : List (Nat × Nat) :=
  let l := ((List.range r.stages.length).map (fun i => (i, r.stages.getD i 0))).filter (fun e =>
    stageKind e.2 != kHead && stageKind e.2 != kHost && stageKind e.2 != kCmem)
  if r.dir then l.reverse else l

def stagesBefore (l : List (Nat × Nat)) : List (Nat × Nat) := l.takeWhile (fun e => stageKind e.2 != kUser)
def stagesAfter (l : List (Nat × Nat)) : List (Nat × Nat) := (l.dropWhile (fun e => stageKind e.2 != kUser)).drop 1
def hasKind (l : List (Nat × Nat)) (k : Nat) : Bool := l.any (fun e => stageKind e.2 == k)

/-- Does a route build or probe a table: an INDEX stage other than a merge? -/
def hasTable (l : List (Nat × Nat)) : Bool := l.any (fun e => stageKind e.2 == kIndex && stageParam e.2 != 3)

/-- Cut a piece every `n` bytes. -/
def cutSeg (n : Nat) : Nat → Seg → List Seg
  | 0, g => [g]
  | f + 1, g =>
    if g.bytes.length ≤ n then [g]
    else { g with bytes := g.bytes.take n, flush := false, chunkEnd := false } :: cutSeg n f { g with bytes := g.bytes.drop n }

/-- Where only a sieve reads fixed rows or columnar pages, a work unit is a 1 MiB run of whole records (R247). -/
def cutRuns (l : List (Nat × Nat)) (aux : List Byte) (gs : List Seg) : List Seg :=
  if hasKind l kSieve && !hasKind l kCompress && !hasKind l kDecompress then
    if u8 aux 2 = 0 ∧ 0 < u16 aux 8 then gs.flatMap (fun g => cutSeg (2 ^ 20 / u16 aux 8 * u16 aux 8) (g.bytes.length + 1) g)
    else if u8 aux 2 = 3 then gs.flatMap (fun g => cutSeg (2 ^ 20) (g.bytes.length + 1) g)
    else gs
  else gs

/-- A stable sort of pieces by run. -/
def byRun (l : List Seg) : List Seg := (List.range 16).flatMap (fun r => l.filter (fun g => g.run == r))

/-- The input stream of a job (R235) (DEDUCED, log 99). -/
def jobFlow (d : JobDesc) (l : List (Nat × Nat)) (ins : List (List Byte)) : Flow :=
  let gs := (List.range d.exts.length).map (fun i =>
    let e := d.exts.getD i {}
    ({ bytes := ins.getD i [], ext := i, run := e.run, flush := e.flush, chunkEnd := e.chunkEnd } : Seg))
  let gs1 := cutRuns l d.aux (if d.kind = 4 then byRun gs else gs)
  { segs := gs1, units := if d.kind = 3 ∨ d.kind = 4 then 1 else max 1 gs1.length }

/-- A flow with the memory of the job's table. -/
structure RunOut where
  flow : Flow := {}
  mem : Tbl Byte := []
  deriving DecidableEq, Repr, Inhabited

/-- One stage. `raw`: the pieces are still the input extents. -/
def runStage (pat : Pat) (d : JobDesc) (mem : Nat → Tbl Byte) (e : Nat × Nat) (raw : Bool) (o : RunOut) : RunOut :=
  let k := stageKind e.2
  let p := stageParam e.2
  if k = kCompress then { o with flow := compressStage p d.chunkLog2 d.chunkHdr d.pad4k o.flow }
  else if k = kDecompress then { o with flow := decompressStage p d.decLimit d.ratio e.1 o.flow }
  else if k = kSieve then { o with flow := sieveStage (sieveDesc d.aux) mem e.1 raw o.flow }
  else if k = kWeave then { o with flow := weaveStage pat p e.1 o.flow }
  else if k = kIndex then
    if p = 3 then { o with flow := mergeStage d.aux e.1 o.flow }
    else
      let r := indexStage p (indexDesc d.aux) e.1 raw o.flow o.mem
      { flow := r.flow, mem := r.mem }
  else o

/-- The stages in turn; one that fails ends the flow. -/
def runStages (pat : Pat) (d : JobDesc) (mem : Nat → Tbl Byte) : List (Nat × Nat) → Bool → RunOut → RunOut
  | [], _, o => o
  | e :: t, raw, o =>
    let o1 := runStage pat d mem e raw o
    match o1.flow.stop with
    | some st => if st.limit.isNone then o1 else runStages pat d mem t false o1
    | none => runStages pat d mem t false o1

/-- Bytes of an allocation. -/
def Alloc.size (a : Alloc) : Nat := a.units * 2 ^ 22

/-- Bytes of the host output buffer (Table 8-2). -/
def hostBuf (q : Sqe) : Nat :=
  let n := q.cdw10.toNat % 65536
  if n = 0 then 65536 * 2 ^ (q.cdw11.toNat % 16) else n

/-- Most output bytes: OUT_LIMIT, within the destination for OUT_KIND 1 and 2 (DEDUCED, log 101). -/
def State.outRoom (s : State) (c : Nat) : Nat :=
  let x := s.ctx c
  let d := (s.job c).desc
  let room := if d.outKind = 1 then (if d.kind = 6 then d.outLimit else hostBuf x.sqe)
    else if d.outKind = 2 then (match s.alloc? x.slice d.outHandle with | some a => a.size - d.outAddr | none => 0) else d.outLimit
  if d.outLimit = 0 then room else min d.outLimit room

/-- OUT_LIMIT over the final output (R241, R253). -/
def limitOut (room last : Nat) (f : Flow) : Flow :=
  if room < f.bytes.length then
    { f with segs := [{ bytes := f.bytes.take room }], stop := some { err := 5, stage := last, limit := some room } }
  else f

/-- The whole job but a program's own part: what its route's stages make of its input (DEDUCED, log 95). -/
def State.jobRun (s : State) (c : Nat) : RunOut :=
  let x := s.ctx c
  let d := (s.job c).desc
  let l := dataStages (s.route x.route)
  let mem := s.cmem x.slice
  let o := runStages s.pat.eff d mem l true { flow := jobFlow d l (s.jobInputs c), mem := mem (indexDesc d.aux).handle }
  if d.outKind = 0 then o else { o with flow := limitOut (s.outRoom c) (((l.getLast?).map (·.1)).getD 0xFF) o.flow }

/-- What a program's cores receive at port 0 (R282). -/
def State.progInput (s : State) (c : Nat) : RunOut :=
  let x := s.ctx c
  let d := (s.job c).desc
  let l := stagesBefore (dataStages (s.route x.route))
  runStages s.pat.eff d (s.cmem x.slice) l true { flow := jobFlow d l (s.jobInputs c) }

/-- What the stages behind the program make of its cores' output, in core order (R283). -/
def State.progOutput (s : State) (c : Nat) : RunOut :=
  let x := s.ctx c
  let j := s.job c
  let l := stagesAfter (dataStages (s.route x.route))
  let f : Flow := { segs := [{ bytes := j.cores.flatMap (·.output) }], recIn := j.recIn, recOut := j.recOut }
  let o := runStages s.pat.eff j.desc (s.cmem x.slice) l false { flow := f }
  if j.desc.outKind = 0 then o else { o with flow := limitOut (s.outRoom c) (((l.getLast?).map (·.1)).getD 0xFF) o.flow }

/-! Engine instances (R247, R294). -/

/-- The credit point of an engine pool, by stage kind; kUser is the user core pool (Table 10-4) (DEDUCED, log 108). -/
def engCred (k : Nat) : Nat := 1024 + k

/-- Take up to `n` free instances of a range. -/
def takeUnits (t : Tbl EngUnit) (lo hi c slice route op : Nat) : Nat → Tbl EngUnit
  | 0 => t
  | n + 1 =>
    match (List.range (hi - lo)).find? (fun i => !(tval t (lo + i) : EngUnit).busy && !(tval t (lo + i) : EngUnit).isolated) with
    | none => t
    | some i =>
      let u : EngUnit := tval t (lo + i)
      takeUnits (tset t (lo + i) { u with busy := true, ctx := c, slice := slice, route := route, op := op }) lo hi c slice route op n

/-- Does a job hold a unit of a table? -/
def holdsUnit (t : Tbl EngUnit) (lo hi c : Nat) : Bool := tany t (fun k u => decide (lo ≤ k) && decide (k < hi) && u.busy && u.ctx == c)

/-- Give up a job's units of a table. -/
def dropUnits (t : Tbl EngUnit) (c : Nat) : Tbl EngUnit :=
  tmap t (fun _ u => if u.busy && u.ctx == c then { u with busy := false, ctx := 0, slice := 0, route := 0, op := 0 } else u)

/-- The units of each kind on islands of the active structure: compressors and decompressors 8, index engines 4 and sieves 4 a
pool island. -/
def State.poolUnits (s : State) (first count per : Nat) : List Nat :=
  (List.range (count * per)).filter (fun u => present s.pat.eff (first + u / per) && !s.islIsolated (first + u / per))

/-- Deal the units `base + u` to a job, up to `n`; nothing where it holds one between `base` and `hi` already. -/
def dealUnits (t : Tbl EngUnit) (l : List Nat) (base hi c slice route op n : Nat) : Tbl EngUnit :=
  if holdsUnit t base hi c then t
  else l.foldl (fun (a : Tbl EngUnit) u =>
    if tcount a (fun i e => decide (base ≤ i) && decide (i < hi) && e.busy && e.ctx == c) < n then
      takeUnits a (base + u) (base + u + 1) c slice route op 1
    else a) t

/-- The clusters whose sieves read a job's namespace units: a SIEVE directly behind MEDIA_HEAD runs in the cluster that read the
unit (R247). -/
def State.headClusters (s : State) (c : Nat) : List Nat :=
  let r := s.route (s.ctx c).route
  if !r.dir && stageKind (r.stages.getD 0 0) == kHead && stageKind (r.stages.getD 1 0) == kSieve then
    let bays := (s.ctx c).units.filterMap (fun u => u.loc.map (fun k => dieBay (s.unitDie k)))
    (List.range 16).filter bays.contains
  else []

/-- Does a job hold a sieve of a cluster? -/
def State.sieveIn (s : State) (c b : Nat) : Bool := holdsUnit s.cpx.sieves (4 * b) (4 * b + 4) c

/-- Take the sieves of a job: one in each cluster that read its units, outside LANES; else up to LANES of any cluster. -/
def State.takeSieves (s : State) (c slice route n : Nat) : Tbl EngUnit :=
  let l := s.poolUnits 10 16 4
  let bs := s.headClusters c
  if bs.isEmpty then dealUnits s.cpx.sieves l 0 64 c slice route 0 n
  else bs.foldl (fun t b => if holdsUnit t (4 * b) (4 * b + 4) c then t
    else dealUnits t ((l.filter (fun u => u / 4 == b)).map (· % 4)) (4 * b) (4 * b + 4) c slice route 0 1) s.cpx.sieves

/-- Take an instance of one stage kind for a job, up to LANES; nothing where it holds one already. -/
def State.takeStage (s : State) (c : Nat) (w : Nat) : State :=
  let x := s.ctx c
  let k := stageKind w
  let n := (s.job c).lanes
  let eng := s.poolUnits 34 4 8
  if k = kCompress then { s with cpx := { s.cpx with units := dealUnits s.cpx.units eng 0 32 c x.slice x.route 0 n } }
  else if k = kDecompress then { s with cpx := { s.cpx with units := dealUnits s.cpx.units eng 32 64 c x.slice x.route 0 n } }
  else if k = kSieve then { s with cpx := { s.cpx with sieves := s.takeSieves c x.slice x.route n } }
  else if k = kIndex then { s with cpx := { s.cpx with index := dealUnits s.cpx.index (s.poolUnits 34 4 4) 0 16 c x.slice x.route (stageParam w) 1 } }
  else if k = kWeave then
    let h : Half := tval s.wvf (stageParam w / 128)
    let v := stageParam w % 128
    if (tget h.busy v).isNone && !h.failedWeaves.contains v then
      let cells := match (if stageParam w / 128 = 0 then s.pat.eff.weave0 else s.pat.eff.weave1), weaveDir? s.pat.eff (stageParam w / 128) v with
        | some p, some d => weaveStart p d h.cells
        | _, _ => h.cells
      { s with wvf := tset s.wvf (stageParam w / 128) { h with busy := tset h.busy v c, cells := cells } }
    else s
  else s

/-- Does a job hold an instance of a stage kind? -/
def State.holdsStage (s : State) (c : Nat) (w : Nat) : Bool :=
  let k := stageKind w
  if k = kCompress then tany s.cpx.units (fun i u => decide (i < 32) && u.busy && u.ctx == c)
  else if k = kDecompress then tany s.cpx.units (fun i u => decide (32 ≤ i) && u.busy && u.ctx == c)
  else if k = kSieve then
    (if (s.headClusters c).isEmpty then tany s.cpx.sieves (fun _ u => u.busy && u.ctx == c) else (s.headClusters c).all (s.sieveIn c))
  else if k = kIndex then tany s.cpx.index (fun _ u => u.busy && u.ctx == c)
  else if k = kWeave then tget (tval s.wvf (stageParam w / 128) : Half).busy (stageParam w % 128) == some c
  else true

/-- The stages whose instances a job needs. -/
def State.engineStages (s : State) (c : Nat) : List Nat :=
  ((dataStages (s.route (s.ctx c).route)).map (·.2)).filter (fun w => stageKind w != kUser)

/-- Is it a slice's turn at the pool of a stage kind: it has credit, or nobody who waits has any (R312)? -/
def State.engTurn (s : State) (sl k : Nat) : Bool :=
  decide (0 < s.credit sl (engCred k))
    || !(tany s.cmd.ctxs (fun _ y => y.stage == 11 && y.slice != sl && !y.committed && decide (0 < s.credit y.slice (engCred k))))

/-- Take what can be had of the instances a job needs. -/
def State.takeEngines (s : State) (c : Nat) : State :=
  (s.engineStages c).foldl (fun t w => if t.engTurn (t.ctx c).slice (stageKind w) then t.takeStage c w else t) s

/-- Does a job hold an instance of every stage? -/
def State.hasEngines11 (s : State) (c : Nat) : Bool := (s.engineStages c).all (s.holdsStage c)

/-- Overwrite bytes with free ones at a list of offsets. -/
def freeBytesAt : List Nat → Tbl Byte → State → Tbl Byte × State
  | [], m, s => (m, s)
  | o :: t, m, s => freeBytesAt t (tset m o (Config.freeByte s.free)) s.drawn

/-- Bytes of an allocation become undefined. -/
def State.havocMem (s : State) (sl h : Nat) (os : List Nat) : State :=
  match s.alloc? sl h with
  | none => s
  | some a =>
    let r := freeBytesAt os a.bytes s
    r.2.setAlloc sl h { a with bytes := r.1 }

/-- Ranges of an allocation become undefined. -/
def State.havocRanges (s : State) (sl : Nat) (l : List (Nat × Nat × Nat)) : State :=
  l.foldl (fun t r => t.havocMem sl r.1 ((List.range r.2.2).map (fun i => r.2.1 + i))) s

/-! Compute memory that agents share (R246). A range is a handle, an offset and a length. -/

/-- The common part of two ranges. -/
def cmOverlap (a b : Nat × Nat × Nat) : List (Nat × Nat × Nat) :=
  let lo := max a.2.1 b.2.1
  let hi := min (a.2.1 + a.2.2) (b.2.1 + b.2.2)
  if a.1 = b.1 ∧ lo < hi then [(a.1, lo, hi - lo)] else []

def cmOverlaps (l m : List (Nat × Nat × Nat)) : List (Nat × Nat × Nat) := l.flatMap (fun a => m.flatMap (cmOverlap a))

/-- The handles that a job's stages read through its auxiliary descriptor. -/
def auxHandles (l : List (Nat × Nat)) (aux : List Byte) : List Nat :=
  (if hasKind l kSieve then ((sieveDesc aux).terms.filter (fun t => t.op == 7 || t.op == 8)).map (·.handle) else [])
    ++ (if hasTable l then [(indexDesc aux).handle] else [])

/-- The window ranges of a program, which its cores may read and write at any time (DEDUCED, log 159). -/
def Job.windowRanges (j : Job) : List (Nat × Nat × Nat) := j.windows.map (fun w => (w.2.2.1, w.2.2.2, w.2.1))

/-- All of an allocation. -/
def State.wholeAlloc (s : State) (sl h : Nat) : Nat × Nat × Nat := (h, 0, ((s.alloc? sl h).map (·.size)).getD 0)

/-- What a job writes: its output, a table that it builds, its result record, its windows. -/
def State.jobWrites (s : State) (c : Nat) : List (Nat × Nat × Nat) :=
  let x := s.ctx c
  let j := s.job c
  let d := j.desc
  (if d.outKind = 2 then [(d.outHandle, d.outAddr, s.outRoom c)] else [])
    ++ (if (dataStages (s.route x.route)).any (fun e => stageKind e.2 == kIndex && (stageParam e.2 == 0 || stageParam e.2 == 2)) then
          [s.wholeAlloc x.slice (indexDesc d.aux).handle] else [])
    ++ (if d.resultCm then [(d.resultHandle, d.resultAddr, 64)] else []) ++ j.windowRanges

/-- What a job reads: its compute memory extents, the tables and filters its stages use, its windows. -/
def State.jobReads (s : State) (c : Nat) : List (Nat × Nat × Nat) :=
  let x := s.ctx c
  let j := s.job c
  (j.desc.exts.filter (fun e => e.src == 1)).map (fun e => (e.handle, e.addr, e.len))
    ++ (auxHandles (dataStages (s.route x.route)) j.desc.aux).map (s.wholeAlloc x.slice) ++ j.windowRanges

/-- Give up everything a job holds of engines, weaves and cores; its frames return, its registers and memory are gone (R286, R276). -/
def State.releaseJob (s : State) (c : Nat) : State :=
  match s.job? c with
  | none => s
  | some j =>
    let s0 := s.freeAll j.frames
    let s1 := if j.cores.isEmpty then s0 else s0.freeOwned (sandboxOwner (j.cores.headD {}).core)
    let x : Cpx := s1.cpx
    let y : Cpx := { x with
      jobs := tset x.jobs c { j with frames := [], cores := [], views := [], windows := [], mem := [], running := false },
      units := dropUnits x.units c, sieves := dropUnits x.sieves c, index := dropUnits x.index c, cores := dropUnits x.cores c }
    { s1 with cpx := y, wvf := tmap s1.wvf (fun _ h => { h with busy := tfilter h.busy (fun _ d => d != c) }) }

/-- Where two memories differ. -/
def memDiff (a b : Tbl Byte) : List Nat :=
  ((b.filter (fun e => tgetD a e.1 0 != e.2)).map (·.1)) ++ ((a.filter (fun e => (tget b e.1).isNone && e.2 != 0)).map (·.1))

/-- A running job that ends without output leaves its compute memory destination undefined, and the entries of its table that
it touched (R241). -/
def State.havocJob (s : State) (c : Nat) : State :=
  let j := s.job c
  let sl := (s.ctx c).slice
  if j.running then
    let s1 := if j.desc.outKind = 2 then s.havocMem sl j.desc.outHandle ((List.range (s.outRoom c)).map (fun i => j.desc.outAddr + i)) else s
    if hasTable (dataStages (s.route (s.ctx c).route)) then
      let d := indexDesc j.desc.aux
      s1.havocMem sl d.handle (memDiff (s.cmem sl d.handle) (s.jobRun c).mem)
    else s1
  else s

/-- The result record of a job (Table 8-6) (DEDUCED, log 60). -/
def State.resultRecord (s : State) (c : Nat) (o : Outc) : List Byte :=
  let j := s.job c
  let x := s.ctx c
  let slba := if j.desc.outKind = 3 ∨ j.desc.outKind = 4 then (x.lockW.map (·.lo)).getD 0 else 0
  let t := if j.started = 0 then 0 else min (s.nowUs - j.started) (2 ^ 32 - 1)
  leBytes 2 o.sv.field ++ leBytes 1 j.engineErr ++ leBytes 1 j.errStage ++ leBytes 4 j.errExtent ++ leBytes 8 j.bytesIn
    ++ leBytes 8 j.bytesOut ++ leBytes 8 j.recIn ++ leBytes 8 j.recOut ++ leBytes 8 slba ++ leBytes 4 x.placed.length
    ++ leBytes 4 j.chunks ++ leBytes 4 t ++ leBytes 4 0

end Sys2Proof.Machine
end

