-- ==== Sys2Proof/Machine/Ctxs.lean ====
section
/-! DEFINITION. Command contexts: ending a command, squashing it, its range locks, seats and reservations, and the projection
of a zone (04 R96 to R111, 05 R148 to R157). -/

namespace Sys2Proof.Machine

/-! Opcodes (Tables 4-10, 4-11, 8-1). -/

def opFlush : Nat := 0x00
def opWrite : Nat := 0x01
def opRead : Nat := 0x02
def opWriteUnc : Nat := 0x04
def opCompare : Nat := 0x05
def opWriteZeroes : Nat := 0x08
def opDsm : Nat := 0x09
def opVerify : Nat := 0x0C
def opIoMgmtRecv : Nat := 0x12
def opCopy : Nat := 0x19
def opIoMgmtSend : Nat := 0x1D
def opZoneSend : Nat := 0x79
def opZoneRecv : Nat := 0x7A
def opAppend : Nat := 0x7D

/-- The I/O commands that move data over the plain path: they take a seat on route slot 0x000, or on the slot they name (R29, R30). -/
def seatOps : List Nat := [opWrite, opRead, opCompare, opVerify, opCopy, opAppend]
def opProgLoad : Nat := 0x81
def opProgUnload : Nat := 0x84
def opJob : Nat := 0x85
def opCmAlloc : Nat := 0x89
def opCmFree : Nat := 0x8C

/-- A command that is fetched and not committed (R96, R110). -/
def Ctx.open (x : Ctx) : Bool := x.stage != 0 && !x.committed

/-- SLBA and NLB of an entry (CDW10, CDW11, CDW12). -/
def sqeSlba (q : Sqe) : Nat := q.cdw10.toNat + q.cdw11.toNat * 2 ^ 32
def sqeNlb (q : Sqe) : Nat := q.cdw12.toNat % 65536

/-- Is the command a write for the ownership check (R87)? -/
def State.isWriteCmd (s : State) (c : Nat) (x : Ctx) : Bool :=
  !x.admin && (x.opc == opWrite || x.opc == opWriteUnc || x.opc == opWriteZeroes || x.opc == opCopy
    || (x.opc == opDsm && bitAt x.sqe.cdw11.toNat 2) || x.opc == opAppend || x.opc == opZoneSend || x.opc == opIoMgmtSend
    || (x.opc == opJob && (s.job c).desc.outNsid != 0))

/-- The namespace a context writes. -/
def State.writeNs (s : State) (c : Nat) (x : Ctx) : Nat := if x.opc = opJob then (s.job c).desc.outNsid else x.nsid

/-! Ordering contexts by FSEQ. -/

def insertFseq (e : Nat × Ctx) : List (Nat × Ctx) → List (Nat × Ctx)
  | [] => [e]
  | a :: t => if e.2.fseq < a.2.fseq then e :: a :: t else a :: insertFseq e t

def byFseq (l : List (Nat × Ctx)) : List (Nat × Ctx) := l.foldr insertFseq []

/-! The projection of a zone (R155). -/

/-- A write or append of `len` units moves the reservation pointer, and opens or fills the zone. -/
def projWrite (cap len : Nat) (p : ZProj) : ZProj :=
  { p with rp := p.rp + len
           state := if p.rp + len = cap then .full
                    else if p.state = .empty || p.state = .closed then .implicit else p.state }

/-- Zone Management actions by ZSA: 1 Close, 2 Finish, 3 Open, 4 Reset, 5 Offline. -/
def projAction (act slice cap : Nat) (p : ZProj) : ZProj :=
  if act = 1 then { p with state := if p.state.isOpen then .closed else p.state }
  else if act = 2 then { p with state := .full, rp := cap }
  else if act = 3 then { p with state := .explicit, opener := slice }
  else if act = 4 then { p with state := .empty, rp := 0 }
  else if act = 5 then { p with state := .offline, rp := 0 }
  else p

/-- Is the zone in a state the action accepts? -/
def actionAccepts (act : Nat) (z : ZState) : Bool :=
  if act = 1 then z.active
  else if act = 2 then z.active || z == .empty || z == .full
  else if act = 3 then z.active || z == .empty
  else if act = 4 then z.active || z == .empty || z == .full
  else if act = 5 then z == .readOnly || z == .offline
  else false

/-- What an uncommitted command does to the projection of entry `e`. -/
def State.projStep (s : State) (e : Nat) (p : ZProj) (x : Ctx) : ZProj :=
  let p1 := match x.resv with
    | some r => if r.ent = e then { projWrite (s.zcap e) r.len p with opener := if p.state.isOpen then p.opener else x.slice } else p
    | none => p
  let p2 := if x.zents.contains e then projAction x.zact x.slice (s.zcap e) p1 else p1
  if x.victim = some e then { p2 with state := if p2.state = .implicit then .closed else p2.state } else p2

/-- Does a context's work stand in the projection of entry `e`? -/
def touches (e : Nat) (x : Ctx) : Bool :=
  (match x.resv with | some r => r.ent == e | none => false) || x.zents.contains e || x.victim == some e

/-- The entry that TGEN of Table 4-15 shows the generation of: the one written, else the one acted on, else the first one read. -/
def Ctx.ents1 (x : Ctx) : Option Nat :=
  match x.resv with
  | some r => some r.ent
  | none => match x.zents with
    | e :: _ => some e
    | [] => x.units.head?.map (·.genKey)

/-- The uncommitted commands of a zone, in FSEQ order. -/
def State.zoneCmds (s : State) (e : Nat) : List (Nat × Ctx) :=
  byFseq (s.cmd.ctxs.filter (fun k => k.2.open && touches e k.2))

/-- GEN + 1, modulo 65,536 (R148). -/
def State.bumpGen (s : State) (e : Nat) : State := s.modZent e (fun z => { z with gen := (z.gen + 1) % 65536 })

/-- The uncommitted commands of a zone below `f` whose part in the projection stands. -/
def State.keptCmds (s : State) (e f : Nat) : List (Nat × Ctx) :=
  (s.zoneCmds e).filter (fun k => decide (k.2.fseq < f) && !k.2.void.contains e)

/-- Rebuild the projection from committed state and the uncommitted commands below `f` (R155). -/
def State.rebuildProj (s : State) (e f : Nat) : State :=
  let z := s.zent e
  let p0 : ZProj := { state := z.state, rp := z.wp, opener := z.opener }
  s.setProj e ((s.keptCmds e f).foldl (fun p k => s.projStep e p k.2) p0)

/-- The projection of a zone from all the commands that stand in it. -/
def State.reproject (s : State) (e : Nat) : State :=
  if (s.zoneCmds e).isEmpty then s.delProj e else s.rebuildProj e s.cmd.fseq

/-- Does a context hold a generation recorded for the entry? -/
def Ctx.records (x : Ctx) (e : Nat) : Bool :=
  x.units.any (fun u => u.genKey == e) || x.zents.contains e || (match x.resv with | some r => r.ent == e | none => false)

/-- Is an uncommitted command left whose generation of the entry a rollback has made stale? -/
def State.voidHeld (s : State) (e : Nat) : Bool := tany s.cmd.ctxs (fun _ x => x.open && x.void.contains e)

/-- The commands that hold the present generation of an entry record a new one. -/
def State.refreshGen (s : State) (e : Nat) : State :=
  let g := (s.zent e).gen
  { s with cmd := { s.cmd with ctxs := tmap s.cmd.ctxs (fun _ x =>
      if x.open && x.records e && !x.void.contains e then
        { x with units := x.units.map (fun u => if u.genKey = e then { u with gen := g } else u)
                 zgens := if (tget x.zgens e).isSome then tset x.zgens e g else x.zgens
                 tgen := if x.ents1 = some e then g else x.tgen }
      else x) } }

/-- GEN advances. It never advances twice while a command that recorded it is uncommitted (R148): while a stale one is
left, the advance waits for its commit or squash (DEDUCED, log 18). -/
def State.advanceGen (s : State) (e : Nat) (wait : Bool) : State :=
  if wait then { s with zon := { s.zon with genDue := tset s.zon.genDue e (tgetD s.zon.genDue e 0 + 1) } } else s.bumpGen e

/-- The advances that waited take place once no stale command of the entry is left. -/
def State.catchUpGen (s : State) (e : Nat) : State :=
  match tget s.zon.genDue e with
  | none => s
  | some n =>
    if s.voidHeld e then s
    else ((({ s with zon := { s.zon with genDue := tdel s.zon.genDue e } }).modZent e (fun z => { z with gen := (z.gen + n) % 65536 }))).refreshGen e

/-! Seats (R28, R31, R32). -/

/-- A change of state advances RGEN (Table 16-7). -/
def RouteSlot.goTo (r : RouteSlot) (x : RState) : RouteSlot := { r with state := x, gen := (r.gen + 1) % 65536 }

/-- The routes that the reload in progress leaves bound. -/
def State.routesAfter (s : State) : List RouteRec :=
  match s.pat.reload.frames.find? (fun f => f.type == 0x0A) with
  | some f => boundRoutes (applyPanel s.pat.eff f)
  | none => boundRoutes s.pat.eff

/-- A slot leaves DRAINING when its last seat is released (R31): to BINDING, or to FREE where the reload leaves it unbound. -/
def State.leaveDrain (s : State) (r : Nat) : State :=
  let x := s.route r
  if x.state = .draining ∧ x.seats = 0 then s.modRoute r (fun y => y.goTo (if s.routesAfter.any (fun q => q.route == r) then .binding else .free)) else s

/-- A seat is given back. A DRAINING slot stays in it until the reload that drains it goes on (R62). -/
def RouteSlot.release (r : RouteSlot) : RouteSlot := { r with seats := r.seats - 1 }

def State.releaseSeat (s : State) (c : Nat) : State :=
  let x := s.ctx c
  if x.seat then ((s.modRoute x.route RouteSlot.release).setCtx c { x with seat := false }).leaveDrain x.route else s

/-! Ending. -/

/-- The entries whose projection a context changed. -/
def Ctx.ents (x : Ctx) : List Nat :=
  (match x.resv with | some r => [r.ent] | none => []) ++ x.zents
    ++ (match x.victim with | some v => [v] | none => [])

/-- A conventional position that a dropped line leaves is free again. -/
def State.hole (s : State) (k : Nat) : State :=
  match tget s.med.use (ukRow k) with
  | none => s
  | some u =>
    if u.zent.isNone then
      { s with med := { s.med with use := tset s.med.use (ukRow k) { u with holes := u.holes ++ [ukUnit k] } } }
    else s

/-- The lines that an uncommitted command landed leave their rows and parity (R101). -/
def State.dropPlaced (s : State) (c : Nat) : State :=
  let x := s.ctx c
  (x.placed.foldl (fun t k => (t.dropLine k).hole k) s).setCtx c { x with placed := [] }

/-- The range an append or a job may write once it reserves anew: from the rebuilt pointer to the zone's end (DEDUCED, log 173). -/
def State.openLock (s : State) (x : Ctx) (e : Nat) : Option Rng :=
  if x.opc = opAppend ∨ x.opc = opJob then
    match x.lockW with
    | none => none
    | some r =>
      let z := s.entZone e * s.zsze r.ns
      some { ns := r.ns, lo := z + (s.proj e).rp, hi := z + s.zsze r.ns - 1 }
  else x.lockW

/-- A later command of a rolled-back zone (R155): its reservation is released and its landed lines leave their rows. One that waits at
stage 7 works out its part anew when it is released (R153); any other meets the GEN squash at stage 13. -/
def State.voidCmd (s : State) (e c : Nat) : State :=
  let x := s.ctx c
  let lock := if (match x.resv with | some r => r.ent == e | none => false) then s.openLock x e else x.lockW
  let s1 := (s.dropPlaced c).modCtx c (fun y =>
    if y.stage ≤ 7 then { y with resv := none, zents := [], zgens := [], victim := none, lockW := lock }
    else { y with void := insertNat y.void e, victim := none, lockW := lock })
  let s2 := match x.victim with
    | some v => if v = e then s1 else s1.reproject v
    | none => s1
  if x.stage ≤ 7 then (x.ents.filter (· != e)).foldl (fun t k => t.reproject k) s2 else s2

/-- Every uncommitted command but `c` that recorded the generation of an entry for a read, or for a zone action that took no range, meets
the GEN squash. -/
def State.voidRecorded (s : State) (e : Nat) (c : Option Nat) : State :=
  { s with cmd := { s.cmd with ctxs := tmap s.cmd.ctxs (fun d x =>
      if x.open && c != some d && (x.units.any (fun u => u.genKey == e) || (decide (7 < x.stage) && x.zents.contains e)) then
        { x with void := insertNat x.void e } else x) } }

/-- GEN advances at the commit of `c` (R148). -/
def State.stepGen (s : State) (e c : Nat) : State :=
  let wait := s.voidHeld e || (tget s.zon.genDue e).isSome
  ((s.voidRecorded e (some c)).advanceGen e wait).refreshGen e

/-- A rollback (R155): the projection below `f` is rebuilt and GEN advances; the commands below `f` keep their part, so their
TGEN follows, and every later one meets the GEN squash (DEDUCED, log 18). From 0 on, every command does. -/
def State.rollback (s : State) (e f : Nat) : State :=
  let wait := s.voidHeld e || (tget s.zon.genDue e).isSome
  let late := ((s.zoneCmds e).filter (fun k => decide (f ≤ k.2.fseq) && !k.2.void.contains e)).map (·.1)
  let s1 := late.foldl (fun t c => t.voidCmd e c) (if (s.zoneCmds e).isEmpty then s.delProj e else s.rebuildProj e f)
  ((s1.voidRecorded e none).advanceGen e wait).refreshGen e

/-- An Empty zone that no uncommitted command touches any more gives back the rows taken for it (R140). -/
def State.unTake (s : State) (e : Nat) : State :=
  let z := s.zent e
  if z.state = .empty ∧ z.rowsTaken ∧ (s.zoneCmds e).isEmpty then
    (s.returnRows z.tmpl z.block (s.zoneR e)).setZent e { z with rowsTaken := false, tmpl := 0, block := 0 }
  else s

/-- Withdraw a command's part in the projection of its zones, with the rollback of R155; a part that an earlier rollback has released
is gone already. -/
def State.withdraw (s : State) (c : Nat) : State :=
  let x := s.ctx c
  let s1 := s.setCtx c { x with resv := none, zents := [], zgens := [], victim := none, void := [] }
  let s2 := x.ents.foldl (fun t e => if x.void.contains e then t.unTake e else (t.rollback e x.fseq).unTake e) s1
  x.void.foldl (fun t e => t.catchUpGen e) s2

/-- A compute command that ends without effect (R93): a new allocation or program is given back; a handle that waited to be
freed is live again (DEDUCED, log 105). -/
def State.undoCompute (s : State) (c : Nat) : State :=
  let x := s.ctx c
  let s1 := { s with cpx := { s.cpx with allocs := tmap s.cpx.allocs (fun _ a => if a.waiter = some c then { a with freeing := false, waiter := none } else a) } }
  if !x.admin && x.stage == 13 && (x.opc == opCmAlloc || x.opc == opProgLoad) && (x.outc.getD {}).dw0 != 0 && (x.outc.getD {}).sv.st == .success then
    match s1.alloc? x.slice (x.outc.getD {}).dw0 with
    | none => s1
    | some a => (s1.freeAll a.frames).delAlloc x.slice (x.outc.getD {}).dw0
  else s1

/-- Take away what a command holds: its part of a projection, its landed lines, its seat, its buffers, its job. -/
def State.strip (s : State) (c : Nat) : State :=
  let s1 := (((s.undoCompute c).withdraw c).dropPlaced c).releaseSeat c
  let x := s1.ctx c
  let s2 := s1.freeAll x.bufs
  s2.setCtx c { x with bufs := [], units := [], spec := false, lockW := none, lockR := none, wait := 0, dep := none }

/-- A job that ends early gives back its engines, cores and sandbox; what it was writing is undefined (R241, R286). -/
def State.stopJob (s : State) (c : Nat) : State := if (s.job? c).isSome then (s.havocJob c).releaseJob c else s

/-- A command ends without effect (R93, R109): its outcome waits at stage 13 for its commit. -/
def State.endWith (s : State) (c : Nat) (o : Outc) : State :=
  ((s.stopJob c).strip c).modCtx c (fun x => { x with stage := 13, outc := some o })

def State.endErr (s : State) (c : Nat) (e : St) : State := s.endWith c (errOut e)

/-- A context is free; its CTX_GEN advances at its next use (Table 4-15). -/
def State.freeCtx (s : State) (c : Nat) : State :=
  let s1 := (s.delJob c).delCtx c
  { s1 with cmd := { s1.cmd with ctxGen := tset s1.cmd.ctxGen c ((tgetD s1.cmd.ctxGen c 0 + 1) % 65536) }
            mic := { s1.mic with halted := removeNat s1.mic.halted c } }

/-- A command ends with no completion (a RESET squash, R101): its context is free at once. -/
def State.vanish (s : State) (c : Nat) : State := ((s.stopJob c).strip c).freeCtx c

/-! Range locks (R109, R110). -/

def Rng.overlaps (a b : Rng) : Bool := a.ns == b.ns && a.lo ≤ b.hi && b.lo ≤ a.hi

def optOverlap : Option Rng → Option Rng → Bool
  | some a, some b => a.overlaps b
  | _, _ => false

/-- The earlier uncommitted command whose write-kind range overlaps a range of `x` (R110). -/
def State.lockBlocker (s : State) (x : Ctx) : Option Nat :=
  tfind s.cmd.ctxs (fun _ y => y.open && decide (y.fseq < x.fseq) && (optOverlap y.lockW x.lockW || optOverlap y.lockW x.lockR))

/-- The earlier uncommitted command whose read-kind range overlaps the write-kind range of `x` (R110). -/
def State.readBlocker (s : State) (x : Ctx) : Option Nat :=
  tfind s.cmd.ctxs (fun _ y => y.open && decide (y.fseq < x.fseq) && optOverlap y.lockR x.lockW)

/-- The reservation below the command's own in its zone (R154); a released one holds nothing back. -/
def State.resvBlocker (s : State) (x : Ctx) : Option Nat :=
  match x.resv with
  | none => none
  | some r => tfind s.cmd.ctxs (fun _ y => y.open &&
      (match y.resv with | some q => q.ent == r.ent && decide (q.off < r.off) && !y.void.contains q.ent | none => false))

/-- An uncommitted command of the zone with a lower FSEQ holds back a zone action's effect, and an uncommitted action or implicit close
of the zone holds back a write's (R151, R156). -/
def State.zoneBlocker (s : State) (x : Ctx) : Option Nat :=
  tfind s.cmd.ctxs (fun _ y => y.open && decide (y.fseq < x.fseq) && (x.zents.any (fun e => touches e y)
    || (match x.resv with | some r => y.zents.contains r.ent || y.victim == some r.ent | none => false)))

/-- The namespaces whose LBAs a command names: a Job's output has its own (R95, R237). -/
def State.cmdNss (s : State) (c : Nat) (x : Ctx) : List Nat :=
  if x.opc = opJob then (if (s.job c).desc.outKind = 3 ∨ (s.job c).desc.outKind = 4 then [x.nsid, (s.job c).desc.outNsid] else [x.nsid]) else [x.nsid]

/-- Has an earlier command still to enter stage 6: not there yet, at it for its re-run, or to run again after a rollback? A Job names its
output when its descriptor is decoded, so until then it may write any namespace. -/
def State.beforeStage6 (s : State) (c d : Nat) (x y : Ctx) : Bool :=
  (decide (y.stage ≤ 6) || y.ents.any (fun e => y.void.contains e))
    && ((y.opc == opJob && decide (y.stage < 6)) || (s.cmdNss d y).any (fun n => (s.cmdNss c x).contains n))

/-- Stages 6 and 7 of one namespace are entered in FSEQ order (R95). -/
def State.fseqTurn (s : State) (c : Nat) (x : Ctx) : Bool :=
  !(tany s.cmd.ctxs (fun d y => y.open && !y.admin && decide (y.fseq < x.fseq) && s.beforeStage6 c d x y))

/-! Generations (R99, R148, R160). -/

/-- The current generation an entry's key names: a zone table entry, or a map entry. -/
def State.curGen (s : State) (k : Nat) : Nat := if k < 2 ^ 64 then (s.zent k).gen else (s.mapEnt k).gen

/-- Does a generation recorded at stage 6 differ from the present one? -/
def State.genStale (s : State) (x : Ctx) : Bool :=
  !x.void.isEmpty || x.units.any (fun u => s.curGen u.genKey != u.gen) || x.zgens.any (fun g => (s.zent g.1).gen != g.2)

/-! Squashes (R100, R101, R103). -/

/-- Discard the media results of a command; what lands later finds no match (R102). -/
def State.dropSpec (s : State) (c : Nat) : State :=
  let x := s.ctx c
  (s.freeAll x.bufs).setCtx c { x with units := [], bufs := [], spec := false, req := x.req + 1 }

/-- LOCK (k = 0) at stage 7: speculative work goes, the command waits and re-runs when released. -/
def State.squashLock (s : State) (c : Nat) : State :=
  let x := s.ctx c
  if x.spec then
    ((s.dropSpec c).modCtx c (fun y => { y with squashes := min (y.squashes + 1) 65535, rerun := true })).sqCnt x.slice 0 1
  else s

/-- GEN (k = 1) at stage 13: the command re-runs from stage 6, its range-lock entry kept (R109); after four GEN squashes it runs without
speculation and pins its range (R103). What it did to projections is taken back. -/
def State.squashGen (s : State) (c : Nat) : State :=
  let x := s.ctx c
  let s0 := ((s.dropSpec c).dropPlaced c).releaseSeat c
  let s1 := if (s0.job? c).isSome then s0.modJob c (fun j => { j with inputs := [], units := [], out := [], tab := none, done := false }) else s0
  let s2 := (s1.modCtx c (fun y => { y with stage := 6, rerun := true, wait := 0, squashes := min (y.squashes + 1) 65535
                                            genSquashes := y.genSquashes + 1, noSpec := y.noSpec || 4 ≤ y.genSquashes + 1
                                            resv := none, zents := [], zgens := [], void := [], victim := none })).sqCnt x.slice 1 1
  let s3 := x.ents.foldl (fun t e => if x.void.contains e then t else t.reproject e) s2
  x.void.foldl (fun t e => t.catchUpGen e) s3

/-- RESET (k = 2): no completion. -/
def State.squashReset (s : State) (c : Nat) : State := (s.sqCnt (s.ctx c).slice 2 1).vanish c

/-- ABORT (k = 3). -/
def State.squashAbort (s : State) (c : Nat) : State := (s.sqCnt (s.ctx c).slice 3 1).endErr c .abortRequested

/-- PRED (k = 4). -/
def State.squashPred (s : State) (c : Nat) : State := (s.sqCnt (s.ctx c).slice 4 1).endErr c .orderedPred

/-! Answers of admin commands and waiters. -/

/-- The outcome of an admin command is fixed: it goes to stage 14. -/
def State.finish (s : State) (c : Nat) (o : Outc) : State :=
  s.modCtx c (fun x => { x with stage := 14, committed := true, wait := 0, outc := some o })

/-- A response to a sideband endpoint; a Pause holds it (R472). -/
def State.sbReply (s : State) (e : Nat) (o : Outc) (d : OutData) : State :=
  let s1 : State := { s with sb := { s.sb with lastResp := some (e, o, d) } }
  if s.sb.paused then { s1 with sb := { s1.sb with held := s1.sb.held ++ [(e, o, d)] } }
  else { s1 with host := { s1.host with sideband := s1.host.sideband ++ [(e, o, d)] } }

/-- A waiting command gets its outcome: a context goes to stage 14, a sideband endpoint is answered, unless it aborted. -/
def State.answer (s : State) (w : Waiter) (o : Outc) : State :=
  match w with
  | .ctx c => if (s.ctx? c).isSome then s.finish c o else s
  | .sideband e =>
    if s.sb.busy.contains e then ({ s with sb := { s.sb with busy := removeNat s.sb.busy e } }).sbReply e o .none else s

/-! Ownership moves when the last admitted write of the owner ends (R91). -/

/-- Writes admitted from port `p` on namespace `n` that are not committed. -/
def State.admittedWrites (s : State) (n p : Nat) : Bool :=
  tany s.cmd.ctxs (fun c x => x.open && x.port == p && s.isWriteCmd c x && s.writeNs c x == n && decide (5 ≤ x.stage))

/-- Completion DW0 of Port Ownership (Table 3-9). -/
def State.ownDw0 (s : State) (n reason : Nat) : Nat :=
  let x := s.ns n
  let owner := match x.own with | .owned p => p | .released p => p | .taking p _ => p
  (match x.own with | .owned _ => 0 | .released _ => 1 | .taking _ _ => 2) + owner * 4 + x.shared.toNat * 8
    + (if x.fkey = 0 then 0 else 16) + (s.leaseLive owner).toNat * 32 + reason * 256

def State.ownProgress (s : State) (n : Nat) : State :=
  let x := s.ns n
  match x.own with
  | .taking p q =>
    if s.admittedWrites n p then s
    else
      let s1 := s.setNs n { x with own := .owned q, epoch := (x.epoch + 1) % 2 ^ 32, takeover := none }
      match x.takeover with
      | none => s1
      | some w => s1.answer w { dw0 := s1.ownDw0 n 0, dw1 := (s1.ns n).epoch }
  | .owned p =>
    match x.release with
    | none => s
    | some w =>
      if s.admittedWrites n p then s
      else
        let s1 := s.setNs n { x with own := .released p, epoch := (x.epoch + 1) % 2 ^ 32, release := none }
        s1.answer w { dw0 := s1.ownDw0 n 0, dw1 := (s1.ns n).epoch }
  | .released _ => s

/-- After any end of a command: ownership of the namespaces it could hold up. -/
def State.ownProgressAll (s : State) : State := s.zon.nss.foldl (fun t e => t.ownProgress e.1) s

/-! Comet data (R105 to R108). -/

/-- A committed change of a range cancels the comet reads outstanding there and drops the cached data; each stream hit is counted. -/
def State.cometCancel (s : State) (n lo hi : Nat) : State :=
  let hit (l : CometLba) : Bool := decide (lo ≤ l.lba) && decide (l.lba ≤ hi)
  s.cmd.streams.foldl (fun t e =>
    if e.2.ns == n && (e.2.cached.any hit || e.2.out.any hit) then
      let st := { e.2 with cached := e.2.cached.filter (fun l => !hit l), out := e.2.out.filter (fun l => !hit l) }
      ({ t with cmd := { t.cmd with streams := tset t.cmd.streams e.1 st } }).sqCnt e.2.slice 7 1
    else t) s

/-! Controllers. -/

/-- CSTS.CFS 1 at a controller: no completion is posted from here (R96). -/
def State.controllerFatal (s : State) (k : Nat) : State := s.modCtrl k (fun c => { c with cfs := true })

/-- An Error Information log entry (R478); 64 are kept. -/
def State.logError (s : State) (k : Nat) (e : ErrEnt) : State :=
  s.modCtrl k (fun c => { c with errCount := c.errCount + 1, errLog := ({ e with count := c.errCount + 1 } :: c.errLog).take 64 })

end Sys2Proof.Machine
end

