-- ==== Sys2Proof/Machine/ArrayOps.lean ====
section
/-! DEFINITION. The code array (15, R421 to R429): its bytes in one canonical form, its sectors, and one operation of a bank. -/

namespace Sys2Proof.Machine

/-! Bytes. A byte that is not listed is erased and reads 0xFF (DESIGN CHOICE, log 2). -/

/-- What an unlisted byte reads as (DESIGN CHOICE, log 2). -/
def erasedByte : Byte := 0xFF

/-- The canonical form: addresses strictly rise from `lo`, and no entry equals what an unlisted byte reads as. -/
def Memory.wfFrom : Nat → List Host.Cell → Bool
  | _, [] => true
  | lo, (a, b) :: t => decide (lo ≤ a) && b != erasedByte && Memory.wfFrom (a + 1) t

def Memory.wf (m : List Host.Cell) : Bool := Memory.wfFrom 0 m

/-- Read one byte. -/
def cellGet : List Host.Cell → Nat → Byte
  | [], _ => erasedByte
  | (a, b) :: t, k => if a = k then b else cellGet t k

/-- Write one byte; writing 0xFF removes the entry. -/
def cellSet : List Host.Cell → Nat → Byte → List Host.Cell
  | [], k, v => if v = erasedByte then [] else [(k, v)]
  | (a, b) :: t, k, v =>
    if a < k then (a, b) :: cellSet t k v
    else if a = k then (if v = erasedByte then t else (k, v) :: t)
    else (if v = erasedByte then (a, b) :: t else (k, v) :: (a, b) :: t)

/-- Write bytes from an address on. -/
def cellsPut : List Host.Cell → Nat → List Byte → List Host.Cell
  | m, _, [] => m
  | m, k, v :: t => cellsPut (cellSet m k v) (k + 1) t

/-- `n` bytes from an address on. -/
def cellsGet (m : List Host.Cell) (k n : Nat) : List Byte := (List.range n).map (fun i => cellGet m (k + i))

/-- Erase `n` bytes from an address on. -/
def cellsErase (m : List Host.Cell) (k n : Nat) : List Host.Cell := m.filter (fun c => !(decide (k ≤ c.1) && decide (c.1 < k + n)))

/-! Addresses: bank b holds 16 MiB; a sector is 64 KiB and a page 256 bytes (R421). -/

def bankBase (b : Nat) : Nat := b * 2 ^ 24
def sectOf (bank sector : Nat) : Nat := bank * 256 + sector

def State.bank (s : State) (b : Nat) : Bank := tval s.cnv.banks b
def State.setBank (s : State) (b : Nat) (v : Bank) : State := { s with cnv := { s.cnv with banks := tset s.cnv.banks b v } }
def State.modBank (s : State) (b : Nat) (f : Bank → Bank) : State := s.setBank b (f (s.bank b))
def State.sect (s : State) (n : Nat) : Sect := tval s.cnv.sects n
def State.setSect (s : State) (n : Nat) (v : Sect) : State := { s with cnv := { s.cnv with sects := tset s.cnv.sects n v } }
def State.cnvCnt (s : State) (k n : Nat) : State := { s with cnv := { s.cnv with cnt := cnt64 s.cnv.cnt k n } }
def State.arrRead (s : State) (k n : Nat) : List Byte := cellsGet s.cnv.bytes k n

/-- Does a bank run an operation? -/
def State.arrayBusy (s : State) : Bool := s.cnv.banks.any (fun e => e.2.cur.isSome)

/-! Protection (R427). -/

/-- The firmware slot that runs: none in recovery (R432). -/
def State.running? (s : State) : Option Nat := tfind s.fwu.slots (fun _ x => x.running)

/-- CNV_SECT.PROTECTED: the boot region, the running slot, the active Pattern slot. -/
def State.protectedSect (s : State) (bank sector : Nat) : Bool :=
  (bank == 0 && decide (sector < 32)) || s.running? == some (bank - 1) && (bank == 1 || bank == 2)
    || (bank == 3 && decide (s.pat.source < 2) && decide (64 * s.pat.source ≤ sector) && decide (sector < 64 * s.pat.source + 64))

/-! One page and one sector. -/

/-- The sector and the page within it that a page number of a bank names. -/
def pageSect (page : Nat) : Nat := page / 256
def pageIn (page : Nat) : Nat := page % 256

/-- A page is programmed: its bytes stand, and it may not be programmed again before an erase. -/
def State.putPage (s : State) (bank page : Nat) (data : List Byte) : State :=
  let n := sectOf bank (pageSect page)
  let s1 := { s with cnv := { s.cnv with bytes := cellsPut s.cnv.bytes (bankBase bank + page * 256) (data.take 256) } }
  s1.setSect n { (s1.sect n) with progPages := insertNat (s1.sect n).progPages (pageIn page) }

/-- A sector's bytes are erased and the erase is counted over life; past 10,000 it is WORN, with an Advisory fault of source 745
(R429). DETAIL: the bank, and the offset above it. -/
def State.wipeSector (s : State) (bank sector : Nat) : State :=
  let n := sectOf bank sector
  let x := s.sect n
  let worn := decide (10000 < x.erases + 1)
  let s1 := { s with cnv := { s.cnv with bytes := cellsErase s.cnv.bytes (bankBase bank + sector * 65536) 65536 } }
  let s2 := s1.setSect n { erases := x.erases + 1, worn := x.worn || worn, progPages := [] }
  if worn then s2.queueFault { src := 745, level := 1, detail := bank + sector * 65536 * 4 } else s2

/-- What an aborted or failed page or sector holds is undefined (R427): free bytes, and it must be erased before it is used (DESIGN CHOICE, log 112). -/
def State.spoilPage (s : State) (bank page : Nat) : State :=
  let r := drawBytes 256 s
  r.2.putPage bank page r.1

def State.spoilSector (s : State) (bank sector : Nat) : State :=
  let r := drawBytes 65536 s
  let n := sectOf bank sector
  let s1 := { r.2 with cnv := { r.2.cnv with bytes := cellsPut r.2.cnv.bytes (bankBase bank + sector * 65536) r.1 } }
  s1.setSect n { (s1.sect n) with progPages := List.range 256 }

/-- An operation's target left undefined. -/
def State.spoil (s : State) (bank : Nat) (o : ArrOp) : State :=
  if o.op = 1 then s.spoilPage bank o.page else s.spoilSector bank o.page

/-! The Z9's own sequences of programs and erases (update engine, Pattern loader), each taken as a whole. -/

/-- The page numbers that `n` bytes at offset `off` of a bank touch. -/
def pagesOf (off n : Nat) : List Nat := (List.range (ceilDiv (off % 256 + n) 256)).map (fun i => off / 256 + i)

/-- Erase sectors `lo` to `lo + n - 1` of a bank (DESIGN CHOICE, log 115). -/
def State.eraseRange (s : State) (bank lo n : Nat) : State :=
  ((List.range n).foldl (fun t i => t.wipeSector bank (lo + i)) s).cnvCnt 2 n

/-- Program bytes at offset `off` of a bank. -/
def State.programRange (s : State) (bank off : Nat) (data : List Byte) : State :=
  let ps := pagesOf off data.length
  let s1 := { s with cnv := { s.cnv with bytes := cellsPut s.cnv.bytes (bankBase bank + off) data } }
  let s2 := ps.foldl (fun t p => t.setSect (sectOf bank (pageSect p))
    { (t.sect (sectOf bank (pageSect p))) with progPages := insertNat (t.sect (sectOf bank (pageSect p))).progPages (pageIn p) }) s1
  s2.cnvCnt 1 ps.length

end Sys2Proof.Machine
end

