-- ==== Sys2Proof/Machine/FwuOps.lean ====
section
/-! DEFINITION. Field update (15, R430 to R444): firmware images, envelopes and diffs, the slots, migration, and an activation
that waits for commands in flight (04 R126). -/

namespace Sys2Proof.Machine

/-! Slots. Slot A is 0 and slot B is 1; slot i lies in bank 1 + i (R421). -/

def State.fwSlot (s : State) (i : Nat) : FwSlot := tval s.fwu.slots i
def State.setFwSlot (s : State) (i : Nat) (v : FwSlot) : State := { s with fwu := { s.fwu with slots := tset s.fwu.slots i v } }
def State.modFwSlot (s : State) (i : Nat) (f : FwSlot → FwSlot) : State := s.setFwSlot i (f (s.fwSlot i))
def slotBank (i : Nat) : Nat := 1 + i

/-- The slot that runs, as the reports number it; slot A in recovery. -/
def State.runSlot (s : State) : Nat := if (s.fwSlot 1).running then 1 else 0

/-- The inactive slot: slot A in recovery (R432). -/
def State.inactiveSlot (s : State) : Nat := if s.running? = some 0 then 1 else 0

/-! Images (R430). -/

def imgHdr : Nat := 4096
def imgMax : Nat := 8 * 2 ^ 20
def imgBodyLen (img : List Byte) : Nat := u32 img 0x0C

/-- The header signature and BODY_HASH of an image hold. -/
def imageOk (img : List Byte) : Bool :=
  decide (imgBodyLen img ≤ imgMax - imgHdr) && decide (imgHdr + imgBodyLen img ≤ img.length)
    && ecdsaOk Config.firmwareKey (slice img 0 0x50) (slice img 0x50 96)
    && digestBytes (sha384 (slice img imgHdr (imgBodyLen img))) == slice img 0x20 48

/-- Header and body as a slot holds them; a body longer than the limit is read up to it. -/
def State.slotImage (s : State) (i : Nat) : List Byte :=
  s.arrRead (bankBase (slotBank i)) (imgHdr + min (leNat (s.arrRead (bankBase (slotBank i) + 0x0C) 4)) (imgMax - imgHdr))

/-- Does the slot hold an image that verifies? -/
def State.slotOk (s : State) (i : Nat) : Bool :=
  decide (leNat (s.arrRead (bankBase (slotBank i) + 0x0C) 4) ≤ imgMax - imgHdr) && imageOk (s.slotImage i)

/-- WRITE and READ_MAX of structure k. -/
def fmtWrite (f : Nat) (k : Nat) : Nat := f / 256 ^ (2 * k) % 256
def fmtRead (f : Nat) (k : Nat) : Nat := f / 256 ^ (2 * k + 1) % 256

/-- What a slot record takes from a valid image. -/
def slotOf (img : List Byte) : FwSlot := { state := 1, ver := u32 img 8, fmt := leAt img 0x10 16, resetReq := bitAt (u16 img 6) 0 }

/-- A slot that fails is invalid, and is no known-good slot. -/
def State.spoilSlot (s : State) (i : Nat) : State :=
  s.modFwSlot i (fun x => { x with state := 3, next := false, knownGood := false, lkg := false, ver := 0 })

/-! Envelope and diff (R433, R434, Tables 15-6, 15-7, 15-10). -/

def stagingBase : Nat := bankBase 3 + 0x800000
def stagingMax : Nat := 8 * 2 ^ 20

/-- The staged envelope's header, and the bytes the header says the envelope has. -/
def envPlain (e : List Byte) : Nat := u32 e 8
def envSegs (e : List Byte) : Nat := u32 e 0x0C
def envLen (e : List Byte) : Nat := 32 + envPlain e + 16 * envSegs e

/-- Code 0x01: MAGIC "OVEN", VERSION, KEY_ID, SEG_LOG2, lengths or NSEG wrong. -/
def envBad (e : List Byte) : Bool :=
  slice e 0 4 != [0x4F, 0x56, 0x45, 0x4E] || u16 e 4 != 1 || u8 e 6 != 0 || u8 e 7 != 16
    || envSegs e != ceilDiv (envPlain e) 65536 || decide (stagingMax < envLen e) || u32 e 0x1C != 0

/-- The nonce of segment i: bytes 8 to 11 of NONCE_BASE XORed with i, big-endian. -/
def segNonce (e : List Byte) (i : Nat) : List Byte :=
  slice e 0x10 8 ++ ((List.range 4).map (fun k => (slice e 0x18 4).getD k 0 ^^^ BitVec.ofNat 8 (i / 256 ^ (3 - k))))

/-- Decrypt the segments from segment i on; none when a tag fails. -/
def openSegs (e : List Byte) : (n i off left : Nat) → Option (List Byte)
  | 0, _, _, _ => some []
  | n + 1, i, off, left =>
    let len := min left 65536
    match gcmOpen Config.updateKey (segNonce e i) (slice e 0 32) (slice e off len) (slice e (off + len) 16) with
    | none => none
    | some p => (openSegs e n (i + 1) (off + len + 16) (left - len)).map (fun r => p ++ r)

/-- A record of a diff, decoded: its output bytes and the offset behind it; none when it is out of bounds (R434). -/
def diffRecord (d base : List Byte) (o : Nat) : Option (List Byte × Nat) :=
  let ty := u8 d o
  let len := u32 d (o + 4)
  let src := u32 d (o + 8)
  if len = 0 ∨ imgMax < len then none
  else if ty = 1 then
    (if base.length < src + len ∨ d.length < o + 16 then none else some (slice base src len, o + 16))
  else if ty = 2 then
    (let q := (len + 3) / 4 * 4
     if d.length < o + 8 + q then none else some (slice d (o + 8) len, o + 8 + q))
  else if ty = 3 then
    (let q := (len + 3) / 4 * 4
     if base.length < src + len ∨ d.length < o + 16 + q then none
     else some (((slice base src len).zip (slice d (o + 16) len)).map (fun p => p.1 ^^^ p.2), o + 16 + q))
  else none

/-- The output of `n` records from offset `o` on, at most `lim` bytes. -/
def diffOut (d base : List Byte) (lim : Nat) : (n o : Nat) → List Byte → Option (List Byte)
  | 0, _, acc => some acc
  | n + 1, o, acc =>
    match diffRecord d base o with
    | none => none
    | some (b, o') => if lim < acc.length + b.length then none else diffOut d base lim n o' (acc ++ b)

/-- Types of the records of a diff, for recovery (R432). -/
def diffTypes (d : List Byte) : (n o : Nat) → List Nat
  | 0, _ => []
  | n + 1, o =>
    let q := (u32 d (o + 4) + 3) / 4 * 4
    u8 d o :: diffTypes d n (o + (if u8 d o = 1 then 16 else if u8 d o = 2 then 8 + q else 16 + q))

/-- Code 0x03: the diff header malformed: MAGIC "OVFD", VERSION, reserved fields, TARGET_LEN. -/
def diffBad (d : List Byte) : Bool :=
  decide (d.length < 128) || slice d 0 4 != [0x4F, 0x56, 0x46, 0x44] || u16 d 4 != 1 || u16 d 6 != 0
    || !(between 4096 imgMax (u32 d 0x10)) || !zeroAt d 0x78 8

/-- Applying the staged package (R437 steps 1 to 4): the image, or a code of Table 15-10. `base` is the running image; in
recovery there is none, BASE_HASH must be all zeros and every record an INSERT (R432). -/
def applyPackage (env : List Byte) (staged : Nat) (base : Option (List Byte)) : Except Nat (List Byte) :=
  if staged < 32 || envBad env then .error 1
  else if staged ≠ envLen env then .error 8
  else match openSegs env (envSegs env) 0 32 (envPlain env) with
  | none => .error 2
  | some d =>
    if diffBad d then .error 3
    else if (match base with
        | some b => digestBytes (sha384 b) != slice d 0x18 48
        | none => !zeroAt d 0x18 48) then .error 4
    else if base.isNone && (diffTypes d (u32 d 0x14) 128).any (· != 2) then .error 5
    else match diffOut d (base.getD []) (u32 d 0x10) (u32 d 0x14) 128 [] with
    | none => .error 5
    | some img =>
      if img.length ≠ u32 d 0x10 then .error 5
      else if digestBytes (sha384 img) != slice d 0x48 48 then .error 6
      else if !imageOk img then .error 7
      else .ok img

/-! The staging lock (R436). -/

/-- The lock is released; a staged sequence that was not applied is discarded. -/
def State.unlockFwu (s : State) : State :=
  { s with fwu := { s.fwu with owner := none, staged := if s.fwu.applied.isSome then s.fwu.staged else 0 } }

/-! Starting an image: migration (R443, R444) and the known-good records (R431). -/

/-- Structures that the image's WRITE versions exceed; the Pattern format is never migrated (DESIGN CHOICE, log 121). -/
def State.toMigrate (s : State) (f : Nat) : List Nat :=
  ((List.range 8).filter (fun k => k != 0 && decide (s.fwu.storeVer.getD k 1 < fmtWrite f k)))

def maskOf (l : List Nat) : Nat := l.foldl (fun a k => a ||| 2 ^ k) 0

/-- Minutes of power-on time over life. -/
def State.lifeMinutes (s : State) : Nat := s.mlf.powerOnMin + s.nowMs / 60000

/-- Slot i becomes the running slot: NEXT is used up, a migrating image opens the 24 h window, the previous image inside the
window starts from its own formats and closes it. A known-good slot that runs is the last-known-good one. -/
def State.runImage (s : State) (i : Nat) : State :=
  let prev := s.running?
  let f := (s.fwSlot i).fmt
  let back := s.fwu.windowOpen && (s.fwSlot i).ver == s.fwu.fromVer && prev != some i
  let mig := if back then [] else s.toMigrate f
  let slots := [0, 1].foldl (fun t k =>
    let x : FwSlot := tval t k
    tset t k { x with running := k == i, next := false, lkg := if (s.fwSlot i).knownGood then k == i else x.lkg }) s.fwu.slots
  let u : Fwu := { s.fwu with slots := slots, imageMs := s.nowMs }
  let u1 : Fwu :=
    if back then { u with storeVer := s.fwu.oldVer, windowOpen := false }
    else if mig.isEmpty then u
    else { u with oldVer := s.fwu.storeVer, storeVer := (List.range 8).map (fun k => if mig.contains k then fmtWrite f k else s.fwu.storeVer.getD k 1)
                  windowOpen := true, windowMin := s.lifeMinutes, migrated := maskOf mig
                  fromVer := match prev with | some p => (s.fwSlot p).ver | none => 0 }
  { s with fwu := u1 }

/-- Why an activation of slot i is prohibited (R438): a stored format it cannot read, the Pattern's format or MIN_FW. The previous
image inside the migration window is always allowed (R444) (DEDUCED, log 119). -/
def State.prohibited (s : State) (i : Nat) : Bool :=
  let x := s.fwSlot i
  let prev := s.fwu.windowOpen && x.ver == s.fwu.fromVer
  let pat := if s.pat.source < 2 then s.arrRead (bankBase 3 + s.pat.source * 0x400000) 64 else []
  (!prev && (List.range 8).any (fun k => k != 0 && decide (fmtRead x.fmt k < s.fwu.storeVer.getD k 1)))
    || (!pat.isEmpty && (decide (fmtRead x.fmt 0 < u16 pat 4) || decide (x.ver < u32 pat 0x20)))

/-! The end of a panel reload that does not apply (R63, R64): the draining slots return to BOUND on their old binding. -/

/-- DEDUCED, log 125. -/
def State.undrain (s : State) : State :=
  s.pat.reload.draining.foldl (fun t k =>
    if (t.route k).pend then t.modRoute k (fun r => { (r.goTo .bound) with pend := false }) else t) s

/-- A reload ends in a phase, with its answer. -/
def State.endReload (s : State) (phase ord : Nat) (o : Outc) : State :=
  let w := s.pat.reload.waiter
  let s1 := s.undrain
  let s2 := { s1 with pat := { s1.pat with reload := { s1.pat.reload with phase := phase, panel := ord, waiter := none, draining := [] } } }
  match w with
  | some x => s2.answer x o
  | none => s2

/-- A panel fails to apply, or a watchdog reset meets the reload (R64, R371) (DEDUCED, log 127). -/
def State.failReload (s : State) (ord : Nat) : State :=
  s.endReload 6 ord { sv := stv .internalErr, dw0 := ord % 256 * 256 }

/-- A reload drains or applies. -/
def State.reloading (s : State) : Bool := s.pat.reload.phase == 3 || s.pat.reload.phase == 4

/-- Does a reload run, its transfer included? One whose session has ended while it received runs no more (R61, R336). -/
def State.reloadOn (s : State) : Bool :=
  s.reloading || (s.pat.reload.phase == 1 && (match s.pat.reload.holder with | some i => (tget s.sec.sessions i).isSome | none => false))

/-! Activation without reset (R125, R126, R441). -/

/-- Commands in flight that an activation waits for: every one but the commit itself and Asynchronous Event Requests. -/
def State.inFlight (s : State) (w : Waiter) : Bool :=
  s.cmd.ctxs.any (fun e => Waiter.ctx e.1 != w && !(e.2.admin && e.2.opc == 0x0C) && !e.2.killed)

/-- The activation goes on: it waits while a reload drains and in the safe state; fetch pauses; once nothing is in flight the new
image runs, fetch resumes and the commit succeeds, which releases the lock (DEDUCED, log 124). -/
def State.tryActivate (s : State) : State :=
  match s.fwu.activating with
  | none => s
  | some (w, i) =>
    if s.flt.safe || s.reloadOn || s.flt.ctlReset then s
    else if s.inFlight w then
      { s with cmd := { s.cmd with activationPause := true }, fwu := { s.fwu with pauseMs := if s.cmd.activationPause then s.fwu.pauseMs else s.nowMs } }
    else
      let s1 := s.runImage i
      let s2 := { s1 with fwu := { s1.fwu with activating := none }, cmd := { s1.cmd with activationPause := false } }
      s2.unlockFwu.answer w (okOut 0)

/-- The activation is given up (R126): nothing changes and fetch resumes. -/
def State.dropActivation (s : State) (o : Outc) : State :=
  match s.fwu.activating with
  | none => s
  | some (w, _) =>
    let s1 := { s with fwu := { s.fwu with activating := none }, cmd := { s.cmd with activationPause := false } }
    s1.answer w o

end Sys2Proof.Machine
end

