-- ==== Sys2Proof/Machine/Reads.lean ====
section
/-! DEFINITION. Reads of the flash: who reads, the tag a result carries, landing buffers, eclipse reads and their sources (04 R99, R102,
06 R184 to R190). -/

namespace Sys2Proof.Machine

/-! Reading. -/

/-- The dies of a block row that are gone: failed, and absent or without their part of the row (R189, R200). -/
def State.rowFailed (s : State) (rk : Nat) : List Nat := (s.stmpl (rkTmpl rk)).dies.filter (fun d => (s.die d).state == .failed)
def State.rowGone (s : State) (rk : Nat) : List Nat :=
  let m := (tval s.med.use rk : RowUse).missing
  (s.stmpl (rkTmpl rk)).dies.filter (fun d => !s.dieServes d || m.contains d)

/-- How a unit on flash can be read (R187, R189). -/
inductive Serve where
  | direct
  | eclipse
  | notReady
  | failed
  deriving DecidableEq, Repr, Inhabited

def State.serveOf (s : State) (k : Nat) : Serve :=
  let rk := ukRow k
  let p := (s.stmpl (rkTmpl rk)).parity
  if !(s.rowGone rk).contains (s.unitDie k) then .direct
  else if (s.rowGone rk).length ≤ p then .eclipse
  else if p < (s.rowFailed rk).length then .failed
  else .notReady

/-- Unrecovered Read Error with DNR 1: UNC, poison, or failed dies beyond PARITY (Table 4-16); with DNR 0 at step 5. -/
def unrecovered (dnr : Bool) : StatusVal := { st := .unrecoveredRead, dnr := dnr }

/-- Latency budget of a slice, in microseconds (R185). -/
def State.latUs (s : State) (sl : Nat) : Nat := (s.tmpl sl).latUs

/-! The tag of a result (R102). -/

/-- What a media operation carries of its command: the context generation, and which request of that context it is. -/
def Ctx.tag (x : Ctx) : Nat := x.gen + 65536 * x.req

/-- The live unit that a result's tag names. -/
def State.liveUnit (s : State) (c u tag : Nat) : Option CUnit :=
  match s.ctx? c with
  | none => none
  | some x => if x.tag = tag then (match x.units[u]? with | some v => if v.issued && !v.done then some v else none | none => none) else none

/-- Does a reader still want the cell? -/
def State.rdrLive (s : State) (r : Rdr) (k : Nat) : Bool :=
  match r with
  | .cmd c u tag => (match s.liveUnit c u tag with | some v => v.loc == some k | none => false)
  | .comet id serial => (match tget s.cmd.streams id with | some st => st.serial == serial && st.out.any (fun l => l.loc == k) | none => false)
  | .rel id run => (match tget s.med.relocs id with | some q => q.restarts == run && q.todo.contains k | none => false)
  | .fix id run => (match tget s.med.recovs id with | some q => q.tries == run && q.todo.contains k | none => false)
  | .patrol => true

/-! Units of commands. -/

def State.setUnit (s : State) (c u : Nat) (f : CUnit → CUnit) : State :=
  s.modCtx c (fun x =>
    let l := x.units.mapIdx (fun i v => if i = u then f v else v)
    { x with units := l, spec := x.spec && l.any (fun v => !v.done) })

/-- What a read of a cell came to. -/
inductive Got where
  | data (b : Block)
  | poison
  | lost
  deriving DecidableEq, Repr, Inhabited

/-- A cell that decoded at its own die. -/
def State.gotDirect (s : State) (k : Nat) : Got :=
  match s.readUnit k with
  | .data b => .data b
  | .poison => .poison
  | .blank => .data Block.zero

/-- A cell that the parity engine reconstructed from source dies (R188). -/
def State.gotSolved (s : State) (k : Nat) (src : List Nat) : Got :=
  match tget s.med.flash k with
  | some c => if c.poison then .poison else .data (s.recon k src)
  | none => .data Block.zero

/-- The outcome of a unit: a poison codeword is an Unrecovered Read Error (Table 4-16), as is one that reached step 5. -/
def CUnit.take (v : CUnit) (g : Got) : CUnit :=
  match g with
  | .data b => { v with done := true, again := false, data := b }
  | .poison => { v with done := true, again := false, fail := some (unrecovered true) }
  | .lost => { v with done := true, again := false, fail := some (unrecovered false) }

/-- A unit gets its outcome; its landing buffer is the command's from here (Table 4-15). -/
def State.giveCmd (s : State) (c u : Nat) (g : Got) (buf : Option Nat) : State :=
  (s.setUnit c u (fun v => { (v.take g) with buf := buf })).modCtx c (fun x => { x with bufs := x.bufs ++ buf.toList })

/-- A unit that needs no die: its outcome is known at its dispatch. -/
def State.failUnit (s : State) (c u : Nat) (v : StatusVal) : State := s.setUnit c u (fun w => { w with done := true, again := false, fail := some v })

/-- A unit waits for another dispatch (R189). -/
def State.unissue (s : State) (c u tag : Nat) : State :=
  match s.liveUnit c u tag with
  | none => s
  | some _ => s.setUnit c u (fun v => { v with issued := false, again := true })

/-- A landing buffer goes back to its pool (R102). -/
def State.freeBuf (s : State) (b : Option Nat) : State := s.freeAll b.toList

/-- Within budget or a budget miss (R185), for the cluster, the die and the slice. -/
def State.budget (s : State) (d deadline slice : Nat) : State :=
  let s1 := s.clCnt (dieBay d) 0 1
  if s.nowUs ≤ deadline then s1.clCnt (dieBay d) 1 1
  else ((s1.clCnt (dieBay d) 2 1).modDie d (fun x => { x with stat := { x.stat with budgetMiss := satAdd 32 x.stat.budgetMiss 1 } })).modSli slice
    (fun q => { q with stat := { q.stat with budgetMiss := q.stat.budgetMiss + 1 } })

/-! Comet data. -/

/-- A comet read of a stream lands in the read cache; one whose stream has ended or was cancelled is discarded. -/
def State.cometLand (s : State) (id serial k : Nat) (data : Option Block) : State :=
  match tget s.cmd.streams id with
  | none => s
  | some st =>
    match st.out.find? (fun l => l.loc == k) with
    | none => s
    | some l =>
      if st.serial != serial then s
      else
        let c := match data with | some b => st.cached ++ [{ l with data := b, landedMs := s.nowMs }] | none => st.cached
        { s with cmd := { s.cmd with streams := tset s.cmd.streams id { st with cached := c, out := st.out.erase l } } }

/-! Eclipse reads (R188 to R190). -/

/-- Is a discretionary eclipse read within ECL_PCT of the cluster's four channels in this epoch? -/
def State.eclCredit (s : State) (k n : Nat) : Bool := decide ((s.clu k).eclUsed + n * srcNs ≤ (s.clu k).eclPct * 4000)

/-- Is an eclipse read of a row's unit allowed: its failed and absent dies, with the target, within PARITY? -/
def State.eclAllowed (s : State) (rk target : Nat) : Bool :=
  decide (((s.rowGone rk).filter (· != target)).length + 1 ≤ (s.stmpl (rkTmpl rk)).parity)

/-- The source read of an operation: class 2 for a host read, else the reader's own class (Table 6-4). -/
def DieOp.source (o : DieOp) (r : Rdr) : DieOp := { o with k := .src r, cls := if o.cls = 1 then 2 else o.cls, step := 0, pos := 0, buf := none }

/-- The D source dies of a unit, in order of earliest expected completion, none of them gone (R188). -/
def State.eclSources (s : State) (rk target : Nat) (o : DieOp) : List Nat :=
  let t := s.stmpl (rkTmpl rk)
  let ok := t.dies.filter (fun d => d != target && !(s.rowGone rk).contains d)
  (sortByKey (fun d => s.expectDone d o) ok).take t.data

/-- The eclipse read of a reader's cell that is in progress. -/
def State.eclOf (s : State) (r : Rdr) (k : Nat) : Option Ecl := s.med.ecls.find? (fun e => e.rdr == r && e.op.unit == k)

/-- Change it, or take it away. -/
def State.setEcl (s : State) (r : Rdr) (k : Nat) (f : Ecl → Option Ecl) : State :=
  { s with med := { s.med with ecls := s.med.ecls.filterMap (fun e => if e.rdr == r && e.op.unit == k then f e else some e) } }

/-- Issue the source reads for a read `o` of reader `r`. A discretionary one (`why` 5) uses channel time of its cluster. -/
def State.startEcl (s : State) (o : DieOp) (r : Rdr) (why fall : Nat) : State :=
  let d := s.unitDie o.unit
  let l := s.eclSources (ukRow o.unit) d (o.source r)
  let s1 := { s with med := { s.med with ecls := s.med.ecls ++ [{ op := o, rdr := r, why := why, waiting := l, fall := fall }] } }
  let s2 := if why = 5 then s1.modClu (dieBay d) (fun y => { y with eclUsed := y.eclUsed + l.length * srcNs }) else s1
  let s3 := if why = 0 then s2 else s2.clCnt (dieBay d) why 1
  l.foldl (fun t e => t.enqueue e (o.source r)) s3

/-- The source reads of an eclipse read that still wait in queues are withdrawn. -/
def State.dropSources (s : State) (r : Rdr) (k : Nat) : State :=
  let f : Die → Die := fun x => { x with queue := x.queue.filter (fun q => !(q.k == .src r && q.unit == k)) }
  { s with med := { s.med with dies := tmap s.med.dies (fun _ x => f x) } }

/-- Is a reader's own read of a cell queued or running? -/
def State.readQueued (s : State) (r : Rdr) (k : Nat) : Bool :=
  tany s.med.dies (fun _ x => x.ops.any (fun o => o.k == .read r && o.unit == k))

/-- Take a frame that the context holds and no landed unit of it uses. -/
def State.spareFrame (s : State) (c : Nat) : Option (Nat × State) :=
  let x := s.ctx c
  match x.bufs.find? (fun h => !x.units.any (fun v => v.buf == some h)) with
  | none => none
  | some h => some (h, s.modCtx c (fun y => { y with bufs := y.bufs.filter (· != h) }))

/-- A command that starts a media read takes a 4 KiB landing frame through its cluster: one it was given, or one of the pool; without one
its request stalls and it waits (cause 6) (R99, R295, R300) (DEDUCED, log 29). -/
def State.landingFrame (s : State) (c d slice : Nat) : Option Nat × State :=
  let u := islMCL (dieBay d) * 256
  match s.spareFrame c with
  | some (h, t) => (some h, t)
  | none =>
    match s.allocFrame 0 u slice false with
    | some (h, t) => (some h, t)
    | none =>
      if s.bpm.stalls.any (fun e => e.who == .command c) then (none, s)
      else
        let t := s.stallFrame 0 u slice (.command c)
        match t.spareFrame c with
        | some (h, v) => (some h, v)
        | none => (none, t)

end Sys2Proof.Machine
end

