-- ==== Sys2Proof/Machine/LifeOps.lean ====
section
/-! DEFINITION. Shared operations of media life: zone changes the Z9 makes (Table 5-4), stripe rows that settle, dies and
bays that go, deferred write errors, block retirement, the endurance stages and relocations (04 R120, 05 R157, 06 R182,
R183, R202, 07 R210 to R226). -/

namespace Sys2Proof.Machine

/-! Deferred write errors (R120, R121). -/

/-- Runs of consecutive numbers of a rising list: start and count. -/
def runsOf : List Nat → List (Nat × Nat)
  | [] => []
  | a :: t =>
    match runsOf t with
    | [] => [(a, 1)]
    | (b, n) :: r => if b = a + 1 then (a, n + 1) :: r else (a, 1) :: (b, n) :: r

/-- The ranges of a list of LBAs: LBA ranges, or zone ranges. -/
def State.dweRanges (s : State) (n : Nat) (lbas : List Nat) : List (Nat × Nat × Nat) :=
  let l := sortByKey id lbas.eraseDups
  if (s.ns n).zoned then
    (l.map (s.zoneOf n)).eraseDups.flatMap (fun z =>
      (runsOf ((l.filter (fun b => s.zoneOf n b == z)).map (s.zoneOff n))).map (fun r => (z * s.zsze n, r.1, r.2)))
  else (runsOf l).map (fun r => (r.1, r.2, 0))

/-- How far two ranges of an entry lie apart; ranges of different zones lie furthest. -/
def rangeGap (zoned : Bool) (a b : Nat × Nat × Nat) : Nat :=
  let sa := if zoned then a.1 + a.2.1 else a.1
  let la := if zoned then a.2.2 else a.2.1
  let sb := if zoned then b.1 + b.2.1 else b.1
  let lb := if zoned then b.2.2 else b.2.1
  if sa + la ≤ sb then sb - (sa + la) else if sb + lb ≤ sa then sa - (sb + lb) else 0

/-- The range that covers both. -/
def rangeJoin (zoned : Bool) (a b : Nat × Nat × Nat) : Nat × Nat × Nat :=
  if zoned then
    let lo := min (a.1 + a.2.1) (b.1 + b.2.1)
    let hi := max (a.1 + a.2.1 + a.2.2) (b.1 + b.2.1 + b.2.2)
    (min a.1 b.1, lo - min a.1 b.1, hi - lo)
  else
    let lo := min a.1 b.1
    (lo, max (a.1 + a.2.1) (b.1 + b.2.1) - lo, 0)

/-- Join a range to the nearest one of a full entry. -/
def joinNearest (zoned : Bool) (l : List (Nat × Nat × Nat)) (r : Nat × Nat × Nat) : List (Nat × Nat × Nat) :=
  match l with
  | [] => [r]
  | a :: t =>
    let best := t.foldl (fun b x => if rangeGap zoned x r < rangeGap zoned b r then x else b) a
    let i := (l.findIdx? (· == best)).getD 0
    l.set i (rangeJoin zoned best r)

/-- Append ranges to an entry; past 30 each joins its nearest. -/
def DweEnt.take (d : DweEnt) (rs : List (Nat × Nat × Nat)) : DweEnt :=
  rs.foldl (fun e r => if e.ranges.length < 30 then { e with ranges := e.ranges ++ [r] }
                       else { e with ranges := joinNearest e.zoned e.ranges r }) d

/-- Does the place of entry `i` in log page C2h hold an entry not yet reported? -/
def dweHeld (l : List DweEnt) (i : Nat) : Bool := l.any (fun e => e.idx % 256 == i % 256 && !e.reported)

/-- The next entry index, from `i` on, whose place holds no unreported entry: one not yet reported is never overwritten (R121) (DESIGN
CHOICE, log 175). -/
def dweFree (l : List DweEnt) (i : Nat) : Nat := i + ((List.range 256).find? (fun k => !dweHeld l (i + k))).getD 0

/-- Put an entry in its place. -/
def putDwe (l : List DweEnt) (d : DweEnt) : List DweEnt := l.filter (fun e => e.idx % 256 != d.idx % 256) ++ [d]

/-- Record the ranges of one error from an entry on: 30 to an entry, MORE while another follows. Where the next place still holds an
unreported entry, the ranges left are joined to those of this one. -/
def recordRanges (l : List DweEnt) (d : DweEnt) : List (Nat × Nat × Nat) → Nat → List DweEnt
  | rs, 0 => putDwe l { ({ d with ranges := rs.take 30 } : DweEnt).take (rs.drop 30) with merged := d.merged || 30 < rs.length }
  | rs, n + 1 =>
    if rs.length ≤ 30 || dweHeld l (d.idx + 1) then
      putDwe l { ({ d with ranges := rs.take 30 } : DweEnt).take (rs.drop 30) with merged := d.merged || 30 < rs.length }
    else recordRanges (putDwe l { d with ranges := rs.take 30, more := true }) { d with idx := d.idx + 1 } (rs.drop 30) n

/-- An entry of one slice: recorded, or merged into the newest while 256 are unreported. -/
def Sli.addDwe (q : Sli) (d : DweEnt) (rs : List (Nat × Nat × Nat)) : Sli :=
  if 256 ≤ (q.dwe.filter (fun e => !e.reported)).length then
    match q.dwe.reverse with
    | [] => q
    | last :: before => { q with dwe := (({ (last.take rs) with merged := true, more := last.more }) :: before).reverse }
  else
    let l := recordRanges q.dwe { d with idx := dweFree q.dwe q.dweNext } rs 255
    { q with dwe := l, dweNext := (l.getLast?.map (·.idx)).getD q.dweNext + 1 }

/-- Acknowledged data of LBAs of a namespace cannot be made durable. -/
def State.recordDwe (s : State) (n cause : Nat) (lbas : List Nat) : State :=
  if lbas.isEmpty then s
  else
    let rs := s.dweRanges n lbas
    let d : DweEnt := { nsid := n, zoned := (s.ns n).zoned, cause := cause, timeMs := s.nowMs }
    let s1 := { s with cmd := { s.cmd with dweRecorded := s.cmd.dweRecorded + 1 } }
    let s2 := s1.lifeErr 10 1
    (s.ns n).slices.foldl (fun t sl =>
      (t.modSli sl (fun q => q.addDwe d rs)).sliceAen sl { typ := aenVendor, info := 0, lid := 0xC2 }) s2

/-- The same for a list of unit keys with the namespace and LBA each holds. -/
def State.recordLost (s : State) (cause : Nat) (l : List (Nat × Nat)) : State :=
  ((l.map (·.1)).eraseDups).foldl (fun t n => t.recordDwe n cause ((l.filter (fun e => e.1 == n)).map (·.2))) s

/-! Zones (Table 5-4). -/

/-- States in which ROWS has meaning. -/
def ZState.hasRows : ZState → Bool
  | .none => false
  | .empty => false
  | .offline => false
  | _ => true

/-- The block rows of a zone. -/
def State.zoneRowKeys (s : State) (e : Nat) : List Nat :=
  let z := s.zent e
  if z.state.hasRows || z.rowsTaken then (List.range (s.zoneR e)).map (fun i => rowKey z.tmpl (z.block + i)) else []

/-- A zone's rows that it still holds, released for erase. -/
def State.releaseZoneRows (s : State) (e : Nat) : State :=
  (s.zoneRowKeys e).foldl (fun t rk =>
    if (tval t.med.use rk).zent = some e then t.returnRows (rkTmpl rk) (rkBlock rk) 1 else t) s

/-- Is an uncommitted Write, append, Reset or Finish of the zone in flight? -/
def State.zoneBusy (s : State) (e : Nat) : Bool :=
  (s.zoneCmds e).any (fun k => (match k.2.resv with | some r => r.ent == e | none => false)
    || (k.2.zents.contains e && (k.2.zact == 2 || k.2.zact == 4)))

/-- A change the Z9 makes to a zone takes effect at one instant; with Writes, appends, Resets or Finishes in flight it is a rollback (R157).
`gen`: the change itself advances GEN (R148). -/
def State.changeZone (s : State) (e : Nat) (z : ZEnt) (gen : Bool) : State :=
  let s1 := s.setZent e z
  if gen || s.zoneBusy e then s1.rollback e 0 else s1.reproject e

/-- The event of Table 5-4. -/
def State.zoneEvent (s : State) (e : Nat) : State :=
  match s.entNs e with
  | none => s
  | some n => s.noteZone n (s.entZone e)

/-- Pad a zone's open stripe row so that its parity is complete (R157, R179). -/
def State.padZone (s : State) (e : Nat) : State :=
  let ks := s.zoneRowKeys e
  { s with med := { s.med with rows := tmap s.med.rows (fun k r =>
      if ks.contains (k / 2 ^ 32) && r.state == .open then { r with padded := true, state := .full } else r) } }

/-- Return the rows of a zone that hold no unit below `used`. -/
def State.returnUnused (s : State) (e used : Nat) : State :=
  let n := s.zoneRowUnits e
  let ks := s.zoneRowKeys e
  ((List.range ks.length).filter (fun i => decide (used ≤ i * n))).foldl (fun t i =>
    let rk := ks.getD i 0
    if (tval t.med.use rk).zent = some e then t.returnRows (rkTmpl rk) (rkBlock rk) 1 else t) s

/-- A template number that names none: a zone that is finished without data holds no rows. -/
def noRows : Nat := 0xFFFF

/-- A controller finish: no data is written, the open stripe row is padded, unused rows return, WP goes to ZCAP. The one for the time
without a write clears FZR (Table 5-4). -/
def State.ctlFinish (s : State) (e : Nat) (deg : Bool) : State :=
  let z := s.zent e
  let s1 := s.changeZone e { z with state := .full, wp := s.zcap e, zfc := true, fzr := z.fzr && deg, degraded := z.degraded || deg } false
  let s2 := (s1.padZone e).returnUnused e z.wp
  (if z.wp = 0 then s2.modZent e (fun y => { y with tmpl := noRows, block := 0 }) else s2).zoneEvent e

def State.goOffline (s : State) (e : Nat) : State :=
  let z := s.zent e
  ((s.releaseZoneRows e).changeZone e { z with state := .offline, wp := 0, filled := 0, tmpl := 0, block := 0 } true).zoneEvent e

/-- Read Only. An Empty zone takes no rows with it: those of a write in flight, which ends with the zone error, are returned. -/
def State.goReadOnly (s : State) (e : Nat) : State :=
  let z := s.zent e
  let s1 := s.changeZone e { z with state := .readOnly } true
  (if z.state = .empty then
    (if z.rowsTaken then s1.returnRows z.tmpl z.block (s.zoneR e) else s1).modZent e (fun y => { y with rowsTaken := false, tmpl := noRows, block := 0 })
  else s1).zoneEvent e

/-- The zones whose rows have a die. -/
def State.zonesOn (s : State) (d : Nat) : List Nat :=
  s.allEnts.filter (fun e => (s.zent e).state.hasRows && (s.stmpl (s.zent e).tmpl).dies.contains d)

/-- What a failed or absent die of its rows does to a zone (Table 5-4, R158). -/
def State.zoneDieGone (s : State) (e : Nat) : State :=
  let z := s.zent e
  let t := s.stmpl z.tmpl
  if t.parity < s.failedDies t then s.goOffline e
  else if t.parity < s.lostDies t then s
  else if z.state.active then s.ctlFinish e true
  else if z.state = .full then (s.setZent e { z with degraded := true, rzr := true }).zoneEvent e
  else s

/-! Blocks and endurance (07). -/

/-- Dies of a set and their geometry. -/
def State.setBlocks (s : State) (set : Nat) : List (Nat × Nat) :=
  (s.setDies set).flatMap (fun d =>
    match dieType? s.pat.eff d with
    | none => []
    | some t => ((List.range t.blksPlane).filter (fun k =>
        (s.blk d k).role == .data || (s.blk d k).role == .landing || (s.blk d k).role == .spare)).map (fun k =>
          ((s.blk d k).wear, t.ratedPe)))

/-- Percentage Used of a die set (R213): exact, with every rating brought to a common multiple. -/
def State.pctUsed (s : State) (set : Nat) : Nat :=
  let l := s.setBlocks set
  let m := l.foldl (fun a e => Nat.lcm a (max 1 e.2)) 1
  if l.isEmpty then 0 else min 255 (100 * sumNat (l.map (fun e => e.1 * (m / max 1 e.2))) / (12 * l.length * m))

def State.onlineOf (s : State) (set : Nat) : List Nat := (s.setDies set).filter (fun d => (s.die d).state.present)

/-- Available spare of a die set, percent, over its online dies (R222). -/
def State.spareLeftOf (s : State) (set : Nat) : Nat := sumNat ((s.onlineOf set).map (fun d => (s.die d).spareLeft))
def State.spareInitOf (s : State) (set : Nat) : Nat := sumNat ((s.onlineOf set).map (fun d => (s.die d).spareInit))
def State.availPct (s : State) (set : Nat) : Nat :=
  if s.spareInitOf set = 0 then 100 else 100 * s.spareLeftOf set / s.spareInitOf set

/-- Die sets defined. -/
def State.setList (s : State) : List Nat := match s.pat.eff.stripe with | none => [] | some m => m.sets.map (·.set)

/-- The namespaces on a die set. -/
def State.nsOfSet (s : State) (set : Nat) : List Nat :=
  (s.zon.nss.filter (fun e => (s.clsRec e.2.cls).set == set)).map (·.1)

/-- Set a critical warning bit; once set it stays set. -/
def State.critBit (s : State) (b info : Nat) : State :=
  if bitAt s.mlf.critWarn b then s
  else ({ s with mlf := { s.mlf with critWarn := s.mlf.critWarn + 2 ^ b } }).healthAen info

/-- The effect of entering one endurance stage (Table 7-5). -/
def State.stageEffect (s : State) (set n : Nat) : State :=
  if n = 1 then s.managerAen { typ := aenVendor, info := 0, lid := 0xC0 }
  else if n = 3 then s.critBit 0 2
  else if n = 4 then
    let s1 := (s.nsOfSet set).foldl (fun t k =>
      if (t.ns k).zoned then
        (t.nsEnts k).foldl (fun u e =>
          if (u.zent e).state == .offline || (u.zent e).state == .readOnly then u else u.goReadOnly e) t
      else t.modNs k (fun x => { x with convRo := true })) s
    s1.critBit 3 0
  else s

/-- Enter every stage up to `n`, in order; a set never returns to an earlier stage (R224). -/
def State.enterStages (s : State) (set n : Nat) : State :=
  ((List.range (n + 1)).filter (fun i => decide ((s.setLife set).stage < i))).foldl (fun t i =>
    (t.modLife set (fun l => { l with stage := i })).stageEffect set i) s

def State.wearCheck (s : State) (set : Nat) : State := if 100 < s.pctUsed set then s.enterStages set 1 else s

/-- At a change of spare (R224, MLF_SPARE_CFG). -/
def State.spareCheck (s : State) (set : Nat) : State :=
  if s.spareInitOf set = 0 then s
  else
    let s1 := if s.availPct set < s.mlf.spareThresh then s.enterStages set 3 else s
    if s1.spareLeftOf set = 0 then s1.enterStages set 4 else s1

/-- The die set of a die. -/
def State.dieSet (s : State) (d : Nat) : Option Nat :=
  match s.pat.eff.stripe with
  | none => none
  | some m => (m.sets.find? (fun q => bitAt q.dies d)).map (·.set)

/-! Relocations (R216, R217). -/

/-- The templates a relocation of these rows may use: those of its class. -/
def State.relocTmpls (s : State) (tm : Nat) : List StripeTmpl :=
  let t := s.stmpl tm
  tmplsOf s.pat.eff t.set t.width t.parity

/-- Order of a cause's count in MLF_RELOC_CNT; a rebuild has none there. -/
def RelCause.cnt : RelCause → Option Nat
  | .wear => some 0
  | .refresh => some 1
  | .urgentRefresh => some 2
  | .gc => some 3
  | .gcUrgent => some 3
  | .rebuild => none

/-- Order of a cause inside class 5 (Table 7-2). -/
def RelCause.sub : RelCause → Nat
  | .rebuild => 0
  | .urgentRefresh => 1
  | .gcUrgent => 2
  | .refresh => 3
  | .gc => 4
  | .wear => 5

/-- The entries of a conventional row that point into it: map keys with their generation. -/
def State.rowMapped (s : State) (rk : Nat) : List (Nat × Nat) :=
  (s.zon.map.filter (fun e => match e.2.loc with | some k => k / 2 ^ 32 == rk | none => false)).map (fun e => (e.1, e.2.gen))

/-- Does a unit lie in the source rows of a relocation? -/
def Reloc.holds (r : Reloc) (k : Nat) : Bool :=
  rkTmpl (ukRow k) == r.srcTmpl && decide (r.srcBlock ≤ rkBlock (ukRow k)) && decide (rkBlock (ukRow k) < r.srcBlock + r.rows)

/-- The units that a relocation moves: those of a zone that lie on flash, or those that the conventional map points to. -/
def State.relocUnits (s : State) (r : Reloc) : List Nat :=
  match r.zent with
  | some _ => (s.med.flash.filter (fun e => r.holds e.1 && !isPar e.1 && e.2.tagLba != tagOnes)).map (·.1)
  | none => (s.rowMapped (rowKey r.srcTmpl r.srcBlock)).filterMap (fun e => (s.mapEnt e.1).loc)

/-- Where a source unit goes. -/
def Reloc.move (r : Reloc) (k : Nat) : Nat := unitKey r.tgtTmpl (r.tgtBlock + (rkBlock (ukRow k) - r.srcBlock)) (ukUnit k)

/-- A source unit is done with: a conventional entry's GEN is the one it holds now (R218). -/
def State.relDone (s : State) (r : Reloc) (k : Nat) : Reloc :=
  { r with todo := removeNat r.todo k
           gens := match r.zent with
             | some _ => r.gens
             | none => r.gens ++ (s.rowMapped (rowKey r.srcTmpl r.srcBlock)).filter (fun e => (s.mapEnt e.1).loc == some k) }

/-- A source unit is lost: neither read nor reconstructed (Table 7-3). -/
def State.relLost (s : State) (id k : Nat) : State :=
  match tget s.med.relocs id with
  | none => s
  | some r =>
    let s1 := { s with med := { s.med with relocs := tset s.med.relocs id { s.relDone r k with lostUnits := r.lostUnits ++ [k] } } }
    let d := s.unitDie k
    let s2 := ((s1.relCnt 8 1).lifeErr 9 1).queueFault { src := 360 + dieBay d, level := 2, detail := d + 1 * 2 ^ 16 + rkBlock (ukRow k) * 2 ^ 19 }
    { s2 with mlf := { s2.mlf with mediaErrors := s2.mlf.mediaErrors + 1 } }

/-- The read of a source unit in class 5 (R217). -/
def State.relOp (s : State) (id : Nat) (r : Reloc) (k : Nat) : DieOp :=
  { k := .read (.rel id r.restarts), cls := 5, sub := r.cause.sub, block := rkBlock (ukRow k), idx := s.cellIdx k, unit := k }

/-- Read a source unit: at its die, or by an eclipse read; with more absent dies than PARITY it waits for the bay, with more failed ones it
is lost (Table 7-3). -/
def State.relRead (s : State) (id k : Nat) : State :=
  match tget s.med.relocs id with
  | none => s
  | some r =>
    if s.readQueued (.rel id r.restarts) k || (s.eclOf (.rel id r.restarts) k).isSome then s
    else match s.serveOf k with
      | .direct => s.enqueue (s.unitDie k) (s.relOp id r k)
      | .eclipse => s.startEcl (s.relOp id r k) (.rel id r.restarts) 0 (if (s.die (s.unitDie k)).state = .failed then 6 else 0)
      | .notReady => s
      | .failed => s.relLost id k

/-- Every source unit is read: the target rows are programmed, each stripe row that holds one on every present die (R217 step 3). -/
def State.relProgram (s : State) (id : Nat) : State :=
  match tget s.med.relocs id with
  | none => s
  | some r =>
    if !r.reading || r.programming || !r.todo.isEmpty then s
    else
      let at1 := ((s.relocUnits r).map (fun k => (rkBlock (ukRow k) - r.srcBlock, s.cellIdx k))).eraseDups
      let on := (s.stmpl r.tgtTmpl).dies.filter (fun d => (s.die d).state.present)
      let off := (s.stmpl r.tgtTmpl).dies.filter (fun d => !(s.die d).state.present)
      let s1 := (List.range r.rows).foldl (fun t i =>
        let k := rowKey r.tgtTmpl (r.tgtBlock + i)
        { t with med := { t.med with use := tset t.med.use k { (tval t.med.use k : RowUse) with missing := off } } })
        { s with med := { s.med with relocs := tset s.med.relocs id { r with programming := true } } }
      at1.foldl (fun t p => on.foldl (fun u d =>
        u.enqueue d { k := .reloc id, cls := 5, sub := r.cause.sub, block := r.tgtBlock + p.1, idx := p.2 }) t) s1

/-- The source reads begin once the source rows are VERIFIED (DEDUCED, log 37). -/
def State.relBegin (s : State) (id : Nat) : State :=
  match tget s.med.relocs id with
  | none => s
  | some r =>
    if !r.hasTgt || r.reading || tany s.med.rows (fun _ q => q.tmpl == r.srcTmpl && decide (r.srcBlock ≤ q.block) && decide (q.block < r.srcBlock + r.rows))
    then s
    else
      let us := s.relocUnits r
      let s1 := { s with med := { s.med with relocs := tset s.med.relocs id { r with reading := true, todo := us, gens := match r.zent with | some _ => r.gens | none => [] } } }
      (us.foldl (fun t k => t.relRead id k) s1).relProgram id

/-- A source unit was read. -/
def State.relGot (s : State) (id k : Nat) : State :=
  match tget s.med.relocs id with
  | none => s
  | some r => ({ s with med := { s.med with relocs := tset s.med.relocs id (s.relDone r k) } }).relProgram id

/-- The templates that a relocation's target may lie on; a rebuild goes to healthy dies only (R183). -/
def State.targetTmpls (s : State) (r : Reloc) : List StripeTmpl :=
  (s.relocTmpls r.srcTmpl).filter (fun t => r.cause != .rebuild || s.lostDies t == 0)

/-- Take target rows under R214 for a relocation that has none, and begin to read. A refresh that finds none in stage 4 stops, and
reliability is degraded (R226). -/
def State.relocTarget (s : State) (id : Nat) : State :=
  match tget s.med.relocs id with
  | none => s
  | some r =>
    if r.hasTgt then s
    else match s.pickRows (s.targetTmpls r) r.rows with
      | none => if (r.cause = .refresh ∨ r.cause = .urgentRefresh) ∧ 4 ≤ (s.setLife (s.stmpl r.srcTmpl).set).stage then s.critBit 2 0 else s
      | some (tm, k) =>
        let u : RowUse := { (tval s.med.use (rowKey r.srcTmpl r.srcBlock)) with target := true, missing := [], zent := none, next := 0, holes := [] }
        let s1 := s.takeRows tm k r.rows u
        ({ s1 with med := { s1.med with relocs := tset s1.med.relocs id { r with hasTgt := true, tgtTmpl := tm, tgtBlock := k } } }).relBegin id

/-- A relocation goes on where it stands: target rows, source reads, reads that waited for a bay, target programs. -/
def State.relStep (s : State) (id : Nat) : State :=
  match tget s.med.relocs id with
  | none => s
  | some r =>
    if r.paused || s.flt.safe || s.thm.coldHold then s
    else if !r.hasTgt then s.relocTarget id
    else if !r.reading then s.relBegin id
    else (r.todo.foldl (fun t k => t.relRead id k) s).relProgram id

/-- Is a block row the source of a relocation already? -/
def State.relocating (s : State) (tm k : Nat) : Bool := tany s.med.relocs (fun _ r => r.srcTmpl == tm && decide (r.srcBlock ≤ k) && decide (k < r.srcBlock + r.rows))

/-- The bays whose lost dies a rebuild of a row is for: dies that are not online, or do not hold their part (R200). -/
def State.rebuildBays (s : State) (tm k : Nat) : List Nat :=
  let m := (tval s.med.use (rowKey tm k) : RowUse).missing
  (((s.stmpl tm).dies.filter (fun d => (s.die d).state != .online || m.contains d)).map dieBay).eraseDups

/-- Rows of a rebuild count for the progress of its bays. -/
def State.noteRebuild (s : State) (r : Reloc) : State :=
  r.bays.foldl (fun t b => t.modBay b (fun x => { x with rebTotal := x.rebTotal + r.rows })) s

/-- The relocation of a Full zone, or of a conventional block row (R216); none for a zone in an active state. -/
def State.relocFor (s : State) (cause : RelCause) (tm k : Nat) : Option Reloc :=
  let rk := rowKey tm k
  let u : RowUse := tval s.med.use rk
  let r : Reloc := { cause := cause, ns := u.ns, srcTmpl := tm, srcBlock := k, mode := u.mode, bays := if cause = .rebuild then s.rebuildBays tm k else [] }
  match u.zent with
  | some e =>
    let z := s.zent e
    if z.state = ZState.full ∨ z.state = ZState.readOnly then
      some { r with zent := some e, srcTmpl := z.tmpl, srcBlock := z.block, rows := s.zoneR e, gens := [(e, z.gen)] }
    else none
  | none => some r

/-- Queue a relocation (R216). One of an active zone waits until the zone leaves the active states. OPEN stripe rows of the source are
closed, so that they can be programmed (DEDUCED, log 37). -/
def State.queueReloc (s : State) (cause : RelCause) (tm k : Nat) : State :=
  let rk := rowKey tm k
  if (tget s.med.use rk).isNone || (tval s.med.use rk : RowUse).target || s.relocating tm k then s
  else match s.relocFor cause tm k with
    | none =>
      if s.med.refreshQ.any (fun q => q.tmpl == tm && q.block == k) then s
      else { s with med := { s.med with refreshQ := s.med.refreshQ ++ [{ tmpl := tm, block := k, cause := cause }] } }
    | some r =>
      let id := s.med.nextReloc
      let s1 := { s with med := { s.med with relocs := tset s.med.relocs id r, nextReloc := id + 1
                                             refreshQ := s.med.refreshQ.filter (fun q => !r.holds (unitKey q.tmpl q.block 0)) } }
      ((s1.noteRebuild r).closeRows (fun q => r.holds (unitKey q.tmpl q.block 0))).relocTarget id

/-- What waited for zones to leave the active states (R216). -/
def State.refreshWaiting (s : State) : State := s.med.refreshQ.foldl (fun t q => t.queueReloc q.cause q.tmpl q.block) s

/-- Give a relocation's target rows back for erase. -/
def State.dropTarget (s : State) (r : Reloc) : State :=
  if r.hasTgt then s.returnRows r.tgtTmpl r.tgtBlock r.rows else s

/-- Is it an operation of a relocation: a read of a source unit, a source read of an eclipse read, or a program? -/
def DieOpK.ofReloc (id : Nat) : DieOpK → Bool
  | .read (.rel i _) => i == id
  | .src (.rel i _) => i == id
  | .reloc i => i == id
  | _ => false

/-- Queued operations of a relocation are withdrawn; what a die runs is discarded when it ends. -/
def State.dropRelocOps (s : State) (id : Nat) : State :=
  let f : Die → Die := fun x => { x with queue := x.queue.filter (fun o => !o.k.ofReloc id) }
  { s with med := { s.med with dies := tmap s.med.dies (fun _ x => f x), ecls := s.med.ecls.filter (fun e => !e.op.k.ofReloc id) } }

/-- Cancelled (Table 7-3): the target rows are erased and freed. -/
def State.relocCancel (s : State) (id : Nat) : State :=
  match tget s.med.relocs id with
  | none => s
  | some r =>
    let s1 := (s.dropTarget r).dropRelocOps id
    ({ s1 with med := { s1.med with relocs := tdel s1.med.relocs id } }).relCnt 10 1

/-- A target failed (Table 7-3): its row set is abandoned and the relocation restarts from the source. -/
def State.relocRestart (s : State) (id : Nat) : State :=
  match tget s.med.relocs id with
  | none => s
  | some r =>
    let s1 := ((((s.dropTarget r).dropRelocOps id).relCnt 5 1).relCnt 6 1).lifeErr 8 1
    let r1 : Reloc := { r with hasTgt := false, restarts := r.restarts + 1, lostUnits := [], todo := [], reading := false, programming := false }
    ({ s1 with med := { s1.med with relocs := tset s1.med.relocs id r1 } }).relocTarget id

/-- The relocations of a zone, of a namespace, of target rows with a die. -/
def State.relocsOf (s : State) (p : Reloc → Bool) : List Nat := (s.med.relocs.filter (fun e => p e.2)).map (·.1)

/-- Every row in use that has a die is queued for rebuild (R183, R200). -/
def State.queueRebuilds (s : State) (d : Nat) : State :=
  ((s.med.use.filter (fun e => !e.2.target && (s.stmpl (rkTmpl e.1)).dies.contains d)).map (·.1)).foldl (fun t rk =>
    t.queueReloc .rebuild (rkTmpl rk) (rkBlock rk)) s

/-- The rows of a block group (up to 16 consecutive rows of a template, R193) that hold data are queued for refresh. -/
def State.queueGroup (s : State) (d k : Nat) (urgent : Bool) : State :=
  match s.tmplFor d with
  | none => s
  | some t =>
    let s1 := s.modDie d (fun x => { x with stat := { x.stat with refresh := satAdd 32 x.stat.refresh 1 } })
    ((List.range 16).map (fun i => k / 16 * 16 + i)).foldl (fun u b =>
      u.queueReloc (if urgent then .urgentRefresh else .refresh) t.id b) s1

/-! Stripe rows. -/

/-- Does a landing stripe still keep a unit of the write buffer durable? Its blocks are released when every row it holds is
VERIFIED (R181): pool blocks are then erased (R210); what lies in the last-landing reserve stays (R223). -/
def State.releaseLandings (s : State) : State :=
  s.med.landings.foldl (fun t e =>
    if e.2.waiting.isEmpty && !e.2.llr && e.2.units.all (fun k => (t.lineAt k).isNone) then
      let t1 := { t with med := { t.med with landings := tdel t.med.landings e.1 } }
      e.2.dies.foldl (fun u p => u.modBlk p.1 p.2 (fun b => { b with needErase := true })) t1
    else t) s

/-- VERIFIED: the row's units lie on the media and its lines leave the write buffer (R179) (DEDUCED, log 52). -/
def State.verifyRow (s : State) (srk : Nat) : State :=
  match s.row? srk with
  | none => s
  | some r =>
    let rk := srk / 2 ^ 32
    let us := s.rowUnitsOf srk r
    let u : RowUse := tval s.med.use rk
    let s0 := s.recordUnits us
    let s1 := { s0 with med := { s0.med with
      rows := tdel s.med.rows srk
      flash := tmerge (s.rowCells srk r) s.med.flash
      landed := s.med.landed.filter (fun k => !us.contains k)
      use := tset s.med.use rk { u with missing := r.lost.foldl insertNat u.missing }
      recovs := tfilter s.med.recovs (fun _ q => q.row != some srk) } }
    (s1.relocsOf (fun q => q.holds (rk * 2 ^ 32))).foldl (fun t id => t.relBegin id) s1.releaseLandings

/-- A PROGRAMMING row whose every program has been reported: VERIFIED within its parity, else kept as landing copies
(R183). -/
def State.settleRow (s : State) (srk : Nat) : State :=
  match s.row? srk with
  | none => s
  | some r =>
    if r.state == .programming && r.waiting.isEmpty then
      if r.lost.length ≤ (s.stmpl r.tmpl).parity then s.verifyRow srk
      else (s.setRow srk { r with state := .full, passed := [] }).landUnits .lost (s.rowUnitsOf srk r)
    else s

/-- A die will not report on a row any more (R183, R202). -/
def State.rowDieLost (s : State) (srk d : Nat) : State :=
  match s.row? srk with
  | none => s
  | some r =>
    if r.waiting.contains d then
      (s.setRow srk { r with waiting := removeNat r.waiting d, lost := insertNat r.lost d }).settleRow srk
    else s

/-- A landing stripe's report: when every die has reported pass, its units are durable (R116, R181); with a die that has not, the stripe is
written again on other dies. -/
def State.settleLanding (s : State) (id : Nat) : State :=
  match tget s.med.landings id with
  | none => s
  | some l =>
    if l.waiting.isEmpty then
      if l.failed then ({ s with med := { s.med with landings := tdel s.med.landings id } }).newLanding l.kind l.set l.units
      else s.markDurable l.units
    else s

def State.landingDieLost (s : State) (id d : Nat) : State :=
  match tget s.med.landings id with
  | none => s
  | some l =>
    ({ s with med := { s.med with landings := tset s.med.landings id { l with waiting := removeNat l.waiting d, lost := insertNat l.lost d, failed := true } } }).settleLanding id

end Sys2Proof.Machine
end

