-- ==== Sys2Proof/Machine/DieOps.lean ====
section
/-! DEFINITION. Ends of flash reads that fail, recoveries of failed blocks, dies, channels and bays that go (06 R182, R183, R188 to R191,
R202, 07 R221, R222). -/

namespace Sys2Proof.Machine

/-! Recovery of a failed block (R182). -/

/-- Every earlier cell is read: the earlier rows are programmed again on the die, then the row that failed, all in class 3. What could be
neither read nor reconstructed is reported (CAUSE 1). -/
def State.fixProgram (s : State) (id : Nat) : State :=
  match tget s.med.recovs id with
  | none => s
  | some q =>
    if !q.todo.isEmpty then s
    else
      let o : DieOp := { k := .fix id, cls := 3, block := q.block }
      let s1 := (q.idxs.foldl (fun t i => t.enqueue q.die { o with idx := i }) s).recordLost 1 q.lost
      match q.row with
      | some srk => s1.enqueue q.die { o with k := .program srk, idx := srk % 2 ^ 32 }
      | none => if q.idxs.isEmpty then { s1 with med := { s1.med with recovs := tdel s1.med.recovs id } } else s1

/-- A cell of an earlier row was read or reconstructed, or is lost: it is then poisoned. A parity cell that is lost is computed again. -/
def State.fixGot (s : State) (id k : Nat) (lost : Bool) : State :=
  match tget s.med.recovs id with
  | none => s
  | some q =>
    let cell : Cell := tval s.med.flash k
    let bad := lost && cell.tagLba != tagOnes && !cell.poison
    let q1 : Recov := { q with todo := removeNat q.todo k, lost := if bad then q.lost ++ [(cell.tagNs, cell.tagLba)] else q.lost }
    ({ s with med := { s.med with recovs := tset s.med.recovs id q1
                                  flash := if bad then tset s.med.flash k { cell with tagNs := 0xFFFFFFFF, poison := true } else s.med.flash } }).fixProgram id

/-- The read of an earlier cell, in class 3 (DESIGN CHOICE, log 33). -/
def State.fixOp (s : State) (id : Nat) (q : Recov) (k : Nat) : DieOp :=
  { k := .read (.fix id q.tries), cls := 3, block := q.block, idx := s.cellIdx k, unit := k }

/-- Begin the recovery of a block of a die: the cells of its VERIFIED rows are read, the failed row's program comes last (DESIGN CHOICE, log 33). -/
def State.startFix (s : State) (d block : Nat) (row : Option Nat) (tries : Nat) : State :=
  match s.tmplFor d with
  | none => s
  | some t =>
    let ks := (s.med.flash.filter (fun e => ukRow e.1 == rowKey t.id block && s.unitDie e.1 == d && !e.2.poison)).map (·.1)
    let q : Recov := { die := d, block := block, row := row, todo := ks.filter (fun k => isPar k || (tval s.med.flash k : Cell).tagLba != tagOnes)
                       idxs := (ks.map s.cellIdx).eraseDups, tries := tries }
    let id := s.med.nextRecov
    let s1 := { s with med := { s.med with recovs := tset s.med.recovs id q, nextRecov := id + 1 } }
    (q.todo.foldl (fun u k => u.enqueue d (u.fixOp id q k)) s1).fixProgram id

/-- The recoveries of a die end with it. -/
def State.dropFixes (s : State) (d : Nat) : State :=
  { s with med := { s.med with recovs := tfilter s.med.recovs (fun _ q => q.die != d)
                               ecls := s.med.ecls.filter (fun e => match e.rdr with | .fix id _ => (tval s.med.recovs id : Recov).die != d | _ => true) } }

/-! Readers. -/

/-- A reader gets the outcome of its cell; `o` is its read. -/
def State.give (s : State) (o : DieOp) (r : Rdr) (g : Got) : State :=
  match r with
  | .cmd c u _ => (s.budget (s.unitDie o.unit) o.deadline o.slice).giveCmd c u g o.buf
  | .comet id serial => s.cometLand id serial o.unit (match g with | .data b => some b | _ => none)
  | .rel id _ => if g = .lost then (s.relLost id o.unit).relProgram id else s.relGot id o.unit
  | .fix id _ => s.fixGot id o.unit (g == .lost)
  | .patrol => s

/-- A cell reached step 5 of Table 6-6: a command's unit is unrecovered; a relocation, or a recovery, reconstructs it once more without the
limit of ECL_PCT (Table 7-3, R182); a comet read lands nothing. -/
def State.readLost (s : State) (o : DieOp) (r : Rdr) : State :=
  let d := s.unitDie o.unit
  let s1 := ((s.chCnt (dieChannel d) 5 1).lifeErr 4 1).modDie d (fun x => { x with stat := { x.stat with unrecovered := satAdd 32 x.stat.unrecovered 1 } })
  let s2 := { s1 with mlf := { s1.mlf with mediaErrors := s1.mlf.mediaErrors + 1 } }
  match r with
  | .rel _ _ => if s2.eclAllowed (ukRow o.unit) d then s2.startEcl o r 0 6 else s2.give o r .lost
  | .fix _ _ => if s2.eclAllowed (ukRow o.unit) d then s2.startEcl o r 0 6 else s2.give o r .lost
  | _ => s2.give o r .lost

/-- Retry-table steps of a die's type, and those of step 1 (R191). -/
def State.retrySteps (s : State) (d : Nat) : Nat := match dieType? s.pat.eff d with | some t => t.retry.length | none => 0
def State.firstSteps (s : State) (d : Nat) : Nat := min 4 (s.retrySteps d)

/-- Is the soft decoder of a die's cluster in service: steps 2 and 4 need it (Table 6-6; R362)? -/
def State.softUp (s : State) (d : Nat) : Bool := !(s.isle (islMCL (dieChannel d / 4))).isolatedUnits.contains 10

/-- The step and re-read of the ladder that follow one that did not decode (Table 6-6): step 3 is the eclipse read, 5 the end. -/
def State.ladNext (s : State) (d step pos : Nat) : Nat × Nat :=
  let n1 := s.firstSteps d
  let soft := s.softUp d
  if step = 0 then (if n1 = 0 then (if soft then (2, 0) else (3, 0)) else (1, 0))
  else if step = 1 then (if pos + 1 < n1 then (1, pos + 1) else if soft then (2, 0) else (3, 0))
  else if step = 2 then (if pos = 0 then (2, 1) else (3, 0))
  else if step = 3 then (if soft ∧ n1 < s.retrySteps d then (4, 0) else (5, 0))
  else if step = 4 then (if pos + 1 < 2 * (s.retrySteps d - n1) then (4, pos + 1) else (5, 0))
  else (5, 0)

/-- A read goes on at step 4, or ends: re-reads are issued in the class of the read (R191). -/
def State.ladGo (s : State) (o : DieOp) (r : Rdr) (step : Nat) : State :=
  let n := if step = 3 then s.ladNext (s.unitDie o.unit) 3 0 else (5, 0)
  if n.1 = 5 then s.readLost o r else s.enqueue (s.unitDie o.unit) { o with k := .read r, step := n.1, pos := n.2 }

/-- An eclipse read is abandoned (R190): its read goes on where it can. A target that is gone is waited for. -/
def State.eclAbandon (s : State) (e : Ecl) : State :=
  let d := s.unitDie e.op.unit
  let s1 := ((s.setEcl e.rdr e.op.unit (fun _ => none)).dropSources e.rdr e.op.unit).clCnt (dieBay d) 8 1
  if e.fall = 9 then s1.freeBuf e.op.buf
  else if e.fall = 6 then s1.give e.op e.rdr .lost
  else if e.fall = 5 then s1.readLost e.op e.rdr
  else if (s1.rowGone (ukRow e.op.unit)).contains d then
    (match e.rdr with
     | .cmd c u tag => (s1.freeBuf e.op.buf).unissue c u tag
     | .comet _ _ => s1.give e.op e.rdr .lost
     | _ => s1)
  else if e.fall = 3 then s1.ladGo e.op e.rdr 3
  else s1.enqueue d e.op

/-- A source unit cannot be had from a die: another present die of the row replaces it, or the eclipse read is abandoned (R190). -/
def State.srcFail (s : State) (d : Nat) (r : Rdr) (k : Nat) : State :=
  match s.eclOf r k with
  | none => s
  | some e =>
    if !e.waiting.contains d then s
    else
      let used := d :: s.unitDie k :: (e.waiting ++ e.gave ++ e.bad)
      match (s.stmpl (rkTmpl (ukRow k))).dies.find? (fun x => !used.contains x && !(s.rowGone (ukRow k)).contains x) with
      | some x => (s.setEcl r k (fun y => some { y with waiting := removeNat y.waiting d ++ [x], bad := insertNat y.bad d })).enqueue x (e.op.source r)
      | none => s.eclAbandon e

/-- A source unit has come; with the last one the cell is reconstructed. An eclipse read after step 2 counts as a recovery at step 3. -/
def State.srcGot (s : State) (d : Nat) (r : Rdr) (k : Nat) : State :=
  match s.eclOf r k with
  | none => s
  | some e =>
    if !e.waiting.contains d then s
    else
      let e1 : Ecl := { e with waiting := removeNat e.waiting d, gave := insertNat e.gave d }
      if !e1.waiting.isEmpty then s.setEcl r k (fun _ => some e1)
      else
        let tgt := s.unitDie k
        let s1 := (s.setEcl r k (fun _ => none)).modDie tgt (fun x => { x with stat := { x.stat with eclipse := satAdd 32 x.stat.eclipse 1 } })
        let s2 := if e.fall = 3 ∨ e.fall = 5 ∨ e.fall = 9 then s1.lifeErr 3 1 else s1
        let s3 := match r with | .rel _ _ => s2.relCnt 7 1 | _ => s2
        if s3.rdrLive r k then s3.give e.op r (s3.gotSolved k e1.gave) else s3.freeBuf e.op.buf

/-! Dies that go. -/

/-- A read that its die will not report: a command's unit waits for another dispatch, a relocation reads its unit another way. -/
def State.readGone (s : State) (o : DieOp) (r : Rdr) : State :=
  match r with
  | .cmd c u tag => (s.freeBuf o.buf).unissue c u tag
  | .comet id serial => s.cometLand id serial o.unit none
  | .rel id _ => s.relRead id o.unit
  | .fix _ _ => s
  | .patrol => s

/-- What becomes of the operations of a die that goes. -/
def State.dieOpLost (s : State) (d : Nat) (o : DieOp) : State :=
  match o.k with
  | .read r => if s.rdrLive r o.unit then s.readGone o r else s.freeBuf o.buf
  | .src r => s.srcFail d r o.unit
  | .program r => s.rowDieLost r d
  | .landing id => s.landingDieLost id d
  | .erase b => s.modBlk d b (fun x => { x with needErase := true })
  | .reloc id => s.relocRestart id
  | .fix _ => s
  | .verify _ => s
def State.dieOpsLost (s : State) (d : Nat) (ops : List DieOp) : State := ops.foldl (fun t o => t.dieOpLost d o) s

/-- A die's own operations and those recorded at a safe state or a reset of its island. -/
def State.allOps (s : State) (d : Nat) : List DieOp := (s.die d).ops ++ (s.med.busyAtSafe.filter (fun b => b.die == d)).map (·.op)

/-- A die becomes absent or failed: its operations are lost, its OPEN and FULL rows past parity are kept as landing copies,
its relocation targets are abandoned, and zones change under Table 5-4. -/
def State.dieGone (s : State) (d : Nat) (st : DieState) : State :=
  let x := s.die d
  let rows := (s.med.recovs.filter (fun e => e.2.die == d)).filterMap (fun e => e.2.row)
  let s0 := (s.setDie d { x with state := st, cur := none, suspended := none, queue := [], susp := 0
                                 wasFailed := x.wasFailed || st == .failed }).dropFixes d
  let s1 := rows.foldl (fun t w => t.rowDieLost w d)
    (({ s0 with med := { s0.med with busyAtSafe := s0.med.busyAtSafe.filter (fun b => b.die != d) } }).dieOpsLost d (s.allOps d))
  let s2 := (s1.relocsOf (fun r => r.hasTgt && (s1.stmpl r.tgtTmpl).dies.contains d)).foldl (fun t id => t.relocRestart id) s1
  let s3 := s2.med.rows.foldl (fun t e =>
    if (t.stmpl e.2.tmpl).dies.contains d && decide ((t.stmpl e.2.tmpl).parity < t.lostDies (t.stmpl e.2.tmpl))
      && (e.2.state == .open || e.2.state == .full) then
      t.landUnits .lost ((t.rowUnitsOf e.1 e.2).filter (fun k => !t.unitDurable k))
    else t) s2
  ((s3.zonesOn d).foldl (fun t e => t.zoneDieGone e) s3).refreshWaiting

/-- A die fails (R183); its rows are rebuilt in the background. -/
def State.failDie (s : State) (d : Nat) : State :=
  if (s.die d).state == .failed then s
  else
    let s1 := (s.dieGone d .failed).queueRebuilds d
    match s1.dieSet d with
    | none => s1
    | some q => (s1.spareCheck q).refreshWaiting

/-- A spare block of a die. -/
def State.spareBlk (s : State) (d : Nat) : Option Nat :=
  match dieType? s.pat.eff d with
  | none => none
  | some t => (List.range t.blksPlane).find? (fun k => (s.blk d k).role == .spare)

/-- A spare block takes the place of block `k`: the failed one is retired under the spare's number. -/
def State.swapSpare (s : State) (d k : Nat) : State :=
  match s.spareBlk d with
  | none => s.modBlk d k (fun b => { b with wear := 0, reads := 0, step3 := false, needErase := false })
  | some j =>
    let w := (s.blk d j).wear
    (s.modBlk d j (fun b => { b with role := .retired })).modBlk d k (fun b => { b with wear := w, reads := 0, step3 := false, needErase := false })

/-- Retire a block (R221, R222): a spare of its die takes its place; with no spare left the whole block row is retired, and every die of
it has one usable block less (R476). A die with 20 % of its blocks retired is retired. -/
def State.retireBlock (s : State) (d k : Nat) : State :=
  let x := s.die d
  let s1 := if 0 < x.spareLeft then
      (s.setDie d { x with spareLeft := x.spareLeft - 1, retired := x.retired + 1 }).swapSpare d k
    else
      let t := s.setDie d { x with retired := x.retired + 1, usable := x.usable - 1 }
      let t1 := t.modBlk d k (fun b => { b with role := .retired })
      match s.tmplFor d with
      | none => t1
      | some q => (q.dies.filter (· != d)).foldl (fun u e =>
          (u.modBlk e k (fun b => if b.role = Role.data then { b with role := .spare } else b)).modDie e (fun y =>
            { y with spareLeft := y.spareLeft + 1, usable := y.usable - 1 })) t1
  let s2 := match s1.dieSet d with
    | none => s1
    | some q => (s1.spareCheck q).refreshWaiting
  if 0 < x.goodBlocks && x.goodBlocks ≤ 5 * (x.retired + 1) then
    let s3 := s2.failDie d
    match s3.dieSet d with
    | none => s3
    | some q => s3.modLife q (fun l => { l with diesRetired := l.diesRetired + 1 })
  else s2

/-- A channel is isolated: every one of its dies is failed (R174, R183). -/
def State.isolateChannel (s : State) (ch : Nat) : State :=
  let s1 := s.modChan ch (fun c => { c with cstate := 4 })
  ((List.range 32).map (fun i => ch * 32 + i)).foldl (fun t d => if (t.die d).state == .absent then t else t.failDie d) s1

/-- The dies of a bay. -/
def bayDies (b : Nat) : List Nat := (List.range 128).map (fun i => b * 128 + i)

/-- An event bit of a bay sets and raises the bay's fault source (DEDUCED, log 51). -/
def State.bayEvt (s : State) (b bit level : Nat) : State :=
  (s.modBay b (fun x => { x with evt := if bitAt x.evt bit then x.evt else x.evt + 2 ^ bit })).queueFault
    { src := 344 + b, level := level, detail := 2 ^ bit }

/-- The dies of a bay become absent; failed dies stay failed. -/
def State.bayDiesGone (s : State) (b : Nat) : State :=
  (bayDies b).foldl (fun t d =>
    if (t.die d).state == .online || (t.die d).state == .rebuilding then t.dieGone d .absent else t) s

/-- Close the OPEN rows that have a die in the bay (step 2 of Table 6-9): they are padded to FULL. -/
def State.closeBayRows (s : State) (b : Nat) : State := s.closeRows (fun r => (s.stmpl r.tmpl).dies.any (fun d => dieBay d == b))

/-- A surprise removal (R202): the pads are held, power goes, the dies are absent. `gone`: the module left its bay. -/
def State.bayLost (s : State) (b : Nat) (gone : Bool) : State :=
  let s1 := s.modBay b (fun x => { x with bstate := if gone then 8 else 9, pwren := false, rstN := false, held := true
                                          prsnt := !gone, pwrgd := false, step := 0, newDies := []
                                          cmdAct := if x.cmdAct.busy then x.cmdAct.finish false else x.cmdAct })
  let s2 := (List.range 4).foldl (fun t i => t.modChan (b * 4 + i) (fun c => { c with cstate := if c.cstate = 4 then 4 else 5 })) s1
  ((s2.bayDiesGone b).modIsl (islMCL b) (fun i => { i with removalHold := true })).bayEvt b (if gone then 1 else 3) 2

/-- A bay is lost; in the safe state the steps wait for the release and every bay control keeps its value (Table 6-11, R172). -/
def State.bayLose (s : State) (b : Nat) (gone : Bool) : State :=
  if s.flt.safe then s.modBay b (fun x => { x with prsnt := x.prsnt && !gone, pwrgd := false, lostIn := some (gone || x.lostIn == some true) })
  else s.bayLost b gone

/-- Step 5 of Table 6-9: the bay is safe to remove. -/
def State.bayHeld (s : State) (b : Nat) : State :=
  s.modBay b (fun x => { x with bstate := 8, pwrgd := false, step := 0, cmdAct := x.cmdAct.finish true })

/-- After the safe state a bay's steps go on (Table 6-11): a removal seen meanwhile runs, an insertion starts again at step 2, an orderly
removal goes on from its last completed step. -/
def State.bayAfterSafe (s : State) (b : Nat) : State :=
  let x := s.bay b
  match x.lostIn with
  | some gone => (s.modBay b (fun y => { y with lostIn := none })).bayLost b gone
  | none =>
    if x.bstate = 1 ∨ x.bstate = 2 ∨ x.bstate = 3 then s.setBay b { x with bstate := 2, step := 2, pwren := true, stepAt := s.nowMs }
    else if x.bstate = 7 then
      (if x.pwren then s.closeBayRows b
       else if x.pwrgd then s
       else if x.prsnt then s.bayHeld b else (s.bayHeld b).bayEvt b 1 0)
    else s

/-! Saved records. -/

/-- The die set values that the registers and C0h report until the next save (R230). -/
def State.saveSet (s : State) (set : Nat) : State :=
  let w := (s.setBlocks set).map (·.1)
  s.modLife set (fun l => { l with
    savedSpareLeft := s.spareLeftOf set, savedSpareInit := s.spareInitOf set
    savedWearMin := minNat w / 12, savedWearMax := maxNat w / 12
    savedWearMean := if w.isEmpty then 0 else sumNat w / (12 * w.length)
    savedPct := s.pctUsed set
    savedLlr := l.llrUsed, savedDiesRetired := l.diesRetired, savedRetired := sumNat ((s.setDies set).map (fun d => (s.die d).retired)) })

/-- The corrected-bit figures of the last hour (Table 6-7). -/
def Die.closeHour (x : Die) : Die :=
  { x with stat := { x.stat with
      meanCbits := if x.stat.hourCw = 0 then 0 else 16 * x.stat.hourBits / x.stat.hourCw, maxCbits := x.stat.hourMax
      hourCw := 0, hourBits := 0, hourMax := 0 } }

/-- Power-on minutes over life. -/
def State.onMinutes (s : State) : Nat := s.mlf.powerOnMin + s.nowMs / 60000

/-- Wear records and tracker records are saved: every hour and at a shutdown notification (R195, R212). -/
def State.saveWear (s : State) : State :=
  let s1 := s.setList.foldl (fun t q => t.saveSet q) s
  { s1 with med := { s1.med with savedTrackers := s1.med.trackers, erasesSince := []
                                 savedWear := tmap (tfilter s1.med.blks (fun _ b => b.wear != 0)) (fun _ b => b) |>.map (fun e => (e.1, e.2.wear)) } }

/-- Every hour Health Detail is saved too (R229) (DEDUCED, log 138). -/
def State.saveRecords (s : State) : State :=
  let s1 := s.saveWear
  { s1 with
    med := { s1.med with dies := tmap s1.med.dies (fun _ x => x.closeHour) }
    mlf := { s1.mlf with savedErrors := s1.mlf.errors, savedHist := s1.mlf.tempHist, savedOnMin := s.onMinutes, savedMs := s.nowMs } }

end Sys2Proof.Machine
end

