-- ==== Sys2Proof/Machine/JobOps.lean ====
section
/-! DEFINITION. How a job ends (08, R239 to R241). -/

namespace Sys2Proof.Machine

/-- Status of an ENGINE_ERR (Table 8-7). -/
def engStatus (e : Nat) : StatusVal :=
  if e = 0x05 ∨ e = 0x06 ∨ e = 0x07 ∨ e = 0x09 then { st := .outputLimit, dnr := true }
  else if e = 0x0B ∨ e = 0x0C then { st := .quotaExceeded, dnr := true }
  else if e = 0x0D ∨ e = 0x0E then { st := .programFault, dnr := true }
  else if e = 0x0F then { st := .dataXfer, dnr := false }
  else { st := .dataXfer, dnr := true }

/-- BYTES_OUT as DW0 and DW1 (Table 8-2). -/
def bytesOutc (sv : StatusVal) (n : Nat) : Outc := { sv := sv, dw0 := n % 2 ^ 32, dw1 := n / 2 ^ 32 }

/-- A job that is running: seated, not committed. -/
def State.jobLive (s : State) (c : Nat) : Bool := (s.job? c).isSome && (s.ctx c).open && decide ((s.ctx c).stage < 13)

/-- A job ends without output (Table 8-7, R241): its cause is recorded and its destination stays as it was. -/
def State.failJob (s : State) (c e stage : Nat) : State :=
  if s.jobLive c then
    let s1 := s.modJob c (fun j => { j with engineErr := e, errStage := stage, bytesOut := 0 })
    s1.endWith c { sv := engStatus e }
  else s

/-- Does a job hold an engine, a weave or a core of an island? -/
def State.jobUsesIsland (s : State) (c isl : Nat) : Bool :=
  if 34 ≤ isl ∧ isl < 38 then
    holdsUnit s.cpx.units ((isl - 34) * 8) ((isl - 34) * 8 + 8) c || holdsUnit s.cpx.units (32 + (isl - 34) * 8) (40 + (isl - 34) * 8) c
      || holdsUnit s.cpx.index ((isl - 34) * 4) ((isl - 34) * 4 + 4) c
  else if 38 ≤ isl ∧ isl < 40 then tany (tval s.wvf (isl - 38) : Half).busy (fun _ d => d == c)
  else if 40 ≤ isl then (s.job c).cores.any (fun k => k.core / 4 == isl - 40)
  else if 10 ≤ isl ∧ isl < 26 then holdsUnit s.cpx.sieves ((isl - 10) * 4) ((isl - 10) * 4 + 4) c
  else false

/-- The jobs that are running. -/
def State.liveJobs (s : State) : List Nat := (s.cpx.jobs.map (·.1)).filter s.jobLive

/-- An island that is isolated or reset ends the jobs that use it (Table 8-21). -/
def State.islandJobsEnd (s : State) (isl : Nat) : State :=
  (s.liveJobs.filter (fun c => s.jobUsesIsland c isl)).foldl (fun t c => t.failJob c 0x0F 0xFF) s

/-- The work wakes the domains of the units that the job holds; it goes on once they are on (R391). -/
def State.jobIsls (s : State) (c : Nat) : List Nat := (List.range 72).filter (s.jobUsesIsland c)
def State.wakeJob (s : State) (c : Nat) : State := (s.jobIsls c).foldl (fun t i => t.access i) s
def State.jobAwake (s : State) (c : Nat) : Bool := (s.jobIsls c).all s.domOn

/-! Compute memory that agents share (R246). -/

/-- Is a job at work and not committed? -/
def State.jobWriting (s : State) (c : Nat) : Bool :=
  (s.job? c).isSome && (s.ctx c).open && decide (11 ≤ (s.ctx c).stage)

/-- The jobs of a slice that are at work, other than context c. -/
def State.writersOf (s : State) (sl c : Nat) : List Nat :=
  (s.cpx.jobs.map (·.1)).filter (fun k => k != c && (s.ctx k).slice == sl && s.jobWriting k)

/-- A job keeps the ranges it shares. -/
def State.noteShared (s : State) (c : Nat) (l : List (Nat × Nat × Nat)) : State :=
  if (s.job? c).isSome then s.modJob c (fun j => { j with shared := j.shared ++ l }) else s

/-- An agent that reads `acc` and writes `wr` meets job k: the bytes that one of them writes and the other touches hold undefined
content, now and at the end of either (DEDUCED, log 159). -/
def State.shareWith (s : State) (sl c : Nat) (acc wr : List (Nat × Nat × Nat)) (k : Nat) : State :=
  let l := cmOverlaps (acc ++ wr) (s.jobWrites k) ++ cmOverlaps wr (s.jobReads k)
  if l.isEmpty then s else ((s.havocRanges sl l).noteShared k l).noteShared c l

/-- A job meets the other jobs of its slice. -/
def State.shareJob (s : State) (c : Nat) : State :=
  let sl := (s.ctx c).slice
  (s.writersOf sl c).foldl (fun t k => t.shareWith sl c (s.jobReads c) (s.jobWrites c) k) s

/-- The ranges a job shared are undefined at its end. -/
def State.spoilShared (s : State) (c : Nat) : State := s.havocRanges (s.ctx c).slice (s.job c).shared

/-- A BAR2 access meets the jobs of the slice: bytes that a job writes are undefined; a job whose input is written may take the
old or the new bytes. -/
def State.bar2Share (s : State) (sl : Nat) (r : Nat × Nat × Nat) (wr : Bool) : State :=
  (s.writersOf sl 65536).foldl (fun t k =>
    let t1 := t.shareWith sl 65536 [r] [] k
    if wr then t1.modJob k (fun j => { j with raced := j.raced ++ cmOverlaps [r] (s.jobReads k) }) else t1) s

/-- The memory a job sees: free bytes where another agent's write raced with its reads. -/
def State.jobView (s : State) (c : Nat) : State := s.havocRanges (s.ctx c).slice (s.job c).raced

/-! Stage 11 (R247, R275). -/

/-- A job's input is complete: it enters stage 11, meets the jobs that share its compute memory (R246), and takes what engine
instances are free. -/
def State.enter11 (s : State) (c : Nat) : State :=
  ((((s.modJob c (fun j => { j with running := true })).modCtx c (fun x => { x with stage := 11, wait := 0 })).shareJob c).takeEngines c).wakeJob c

/-- Output bytes a routed Read may return (R242). -/
def routedLimit (x : Ctx) : Nat := (x.nlb + 1) * 4096 * 2 ^ (x.sqe.cdw3.toNat / 65536 % 16)

/-- The work of a routed Read: its LBAs through its route toward the host. -/
def State.routedJob (s : State) (c : Nat) : State :=
  let x := s.ctx c
  let e : Extent := { addr := x.slba * 4096, len := (x.nlb + 1) * 4096 }
  (s.setJob c { desc := { kind := 6, route := x.route, outKind := 1, outLimit := routedLimit x, exts := [e] }, started := s.nowUs, lanes := s.cpx.lanes }).enter11 c

/-- Host input extents of a job. -/
def Job.hostExts (j : Job) : List Extent := j.desc.exts.filter (fun e => e.src == 2)

/-- A namespace input that cannot be read ends the job with the Read's status (Table 8-7). -/
def State.jobInputFail (s : State) (c : Nat) (v : StatusVal) : State :=
  (s.modJob c (fun j => { j with engineErr := 0x10 })).endWith c { sv := v }

/-- Once every unit is in its buffer and every host input read, the job goes on. -/
def State.jobInput (s : State) (c : Nat) : State :=
  let x := s.ctx c
  let j := s.job c
  match x.units.findSome? (·.fail) with
  | some v => if x.units.all (·.done) then s.jobInputFail c v else s
  | none =>
    if x.units.all (·.done) && j.inputs.length == j.hostExts.length then s.enter11 c
    else s.modCtx c (fun y => { y with stage := 10 })

end Sys2Proof.Machine
end

