-- ==== Sys2Proof/Machine/PipeOps.lean ====
section
/-! DEFINITION. The stages a command passes after its fetch: translation, range lock, placement in the write buffer, zone
checks and reservations, and the effects of a commit (04 R93 to R119, 05 R150 to R165). -/

namespace Sys2Proof.Machine

/-! Protection information (Table 4-9; the 8 bytes lead the metadata). -/

/-- CRC-16 of R338: polynomial 0x8BB7, most significant bit first, from 0. -/
def crc16Bits : Nat → Nat → Nat
  | 0, c => c
  | n + 1, c => crc16Bits n (if 0x8000 ≤ c then (c * 2 % 65536) ^^^ 0x8BB7 else c * 2)
def crc16 (b : List Byte) : Nat := b.foldl (fun c x => crc16Bits 8 (c ^^^ (x.toNat * 256))) 0

/-- Guard, application tag and reference tag of a block's metadata, big-endian. -/
def piGuard (b : Block) : Nat := beNat (leBytes 2 (b.md % 2 ^ 16))
def piApp (b : Block) : Nat := beNat (leBytes 2 (b.md / 2 ^ 16 % 2 ^ 16))
def piRef (b : Block) : Nat := beNat (leBytes 4 (b.md / 2 ^ 32 % 2 ^ 32))

/-- Is protection type 1 or 3 in force (DPS)? -/
def Ns.piType (n : Ns) : Nat := n.dps % 8

/-- The check of one block that PRCHK asks for: guard (bit 2 of PRCHK), application tag (bit 1), reference tag (bit 0). An
application tag of 0xFFFF, with an all-ones reference tag for type 3, disables every check (DEDUCED, log 154). -/
def piFail (typ prchk app mask ref : Nat) (b : Block) : Option St :=
  if typ = 0 then none
  else if piApp b = 0xFFFF ∧ (typ = 1 ∨ piRef b = 0xFFFFFFFF) then none
  else if bitAt prchk 2 && piGuard b != crc16 (leBytes 4096 b.bits) then some .guardErr
  else if bitAt prchk 1 && (piApp b &&& mask) != (app &&& mask) then some .appTagErr
  else if bitAt prchk 0 && typ == 1 && piRef b != ref then some .refTagErr
  else none

/-- The first failing check of a list of blocks from LBA `lba` on (PRINFO in CDW12, tags in CDW14 and CDW15). -/
def piCheck (n : Ns) (q : Sqe) : Nat → List Block → Option St
  | _, [] => none
  | i, b :: t =>
    match piFail n.piType (bitsAt q.cdw12.toNat 26 3) (q.cdw15.toNat % 65536) (q.cdw15.toNat / 65536)
        ((q.cdw14.toNat + i) % 2 ^ 32) b with
    | some e => some e
    | none => piCheck n q (i + 1) t

/-! Reading. -/

/-- The translation of one LBA (stage 6). -/
def State.translate (s : State) (n lba : Nat) : CUnit :=
  if (s.ns n).zoned then
    let e := s.zoneEnt n (s.zoneOf n lba)
    let off := s.zoneOff n lba
    let z := s.zent e
    { lba := lba, genKey := e, gen := z.gen
      loc := if decide (off < z.filled) && z.state.hasRows then some (s.zoneLoc e off) else none }
  else
    let m := s.mapEnt (mapKey n lba)
    { lba := lba, loc := m.loc, genKey := mapKey n lba, gen := m.gen, unc := m.unc }

/-- What stage 6 already knows of a unit: zeros, data in the write buffer, or an error; else it needs the media. -/
def State.knownUnit (s : State) (u : CUnit) : CUnit :=
  if u.unc then { u with done := true, fail := some (unrecovered true) }
  else match u.loc with
    | none => { u with done := true, data := Block.zero }
    | some k =>
      match s.lineAt k with
      | some l => if l.bad then { u with done := true, fail := some (unrecovered true) } else { u with done := true, data := l.blk }
      | none =>
        if (tget s.med.flash k).isNone then { u with done := true, data := Block.zero }
        else match s.serveOf k with
          | .notReady => { u with done := true, fail := some (stv .nsNotReady) }
          | .failed => { u with done := true, fail := some (unrecovered true) }
          | _ => u

/-- The LBAs of a range. -/
def lbasOf (lo n : Nat) : List Nat := (List.range n).map (fun i => lo + i)

/-- Why a read of an LBA cannot be translated (R152; a read of an Offline zone by the Zoned Namespace Command Set) (PRESUMED, log 34). -/
def State.readErr (s : State) (n lba : Nat) : Option St :=
  if (s.ns n).nsze ≤ lba then some .lbaRange
  else if (s.ns n).zoned then
    let e := s.zoneEnt n (s.zoneOf n lba)
    if (s.zent e).state == .offline then some .zoneOffline
    else if s.zcap e ≤ s.zoneOff n lba then some .lbaRange
    else none
  else none

def firstErr (f : Nat → Option St) : List Nat → Option St
  | [] => none
  | a :: t => match f a with | some e => some e | none => firstErr f t

/-! Comet streams (R104 to R108). -/

/-- The end of the zone, or of the 1 GiB region, that an LBA lies in. -/
def State.regionEnd (s : State) (n lba : Nat) : Nat :=
  min (s.ns n).nsze (if (s.ns n).zoned then (s.zoneOf n lba + 1) * s.zsze n else (lba / 262144 + 1) * 262144)

/-- Where a stream stops: the zone's write pointer, the end of its region, of the namespace (R105). -/
def State.cometEnd (s : State) (n lba : Nat) : Nat :=
  if (s.ns n).zoned then
    let z := s.zoneOf n lba
    min (s.regionEnd n lba) (z * s.zsze n + (s.zent (s.zoneEnt n z)).filled)
  else s.regionEnd n lba

/-- Units of unconsumed comet data of a slice, cached or on their way. -/
def State.cometHeld (s : State) (sl : Nat) : Nat :=
  sumNat (s.cmd.streams.map (fun e => if e.2.slice == sl then e.2.cached.length + e.2.out.length else 0))

/-- A comet read of one unit as an operation of its die: class 1, below every read with a host waiting (Table 6-4). -/
def State.cometOp (s : State) (id : Nat) (st : CometStream) (k : Nat) : DieOp :=
  { k := .read (.comet id st.serial), cls := 1, sub := 1, block := rkBlock (ukRow k), idx := s.cellIdx k
    deadline := s.nowUs + s.latUs st.slice, slice := st.slice, unit := k }

/-- The comet data of an LBA that needs no die: it is in the write buffer (DEDUCED, log 28). -/
def State.cometNow (s : State) (u : CUnit) : Option CometLba :=
  match u.loc with
  | none => none
  | some k => match s.lineAt k with
    | some l => if u.unc || l.bad then none else some { lba := u.lba, genKey := u.genKey, gen := u.gen, loc := k, data := l.blk, landedMs := s.nowMs }
    | none => none

/-- The comet read of an LBA that its die serves. -/
def State.cometLater (s : State) (u : CUnit) : Option CometLba :=
  match u.loc with
  | none => none
  | some k =>
    if u.unc || (s.lineAt k).isSome || (tget s.med.flash k).isNone || s.serveOf k != .direct then none
    else some { lba := u.lba, genKey := u.genKey, gen := u.gen, loc := k }

/-- A stream issues comet reads, which pass stages 6 and 9 only, up to its window ahead of the host and within its slice's budget (R105,
R107) (DEDUCED, log 28). -/
def State.cometIssue (s : State) (id : Nat) : State :=
  match tget s.cmd.streams id with
  | none => s
  | some st =>
    let room := (s.slc st.slice).shares.specMib * 256 - s.cometHeld st.slice
    let hi := min (min (st.next + st.window) (st.hi + room)) (s.cometEnd st.ns (st.next - 1))
    let us := (lbasOf st.hi (hi - st.hi)).map (s.translate st.ns)
    let now := us.filterMap s.cometNow
    let out := us.filterMap s.cometLater
    let st1 : CometStream := { st with hi := max st.hi hi, cached := st.cached ++ now, out := st.out ++ out }
    let s1 := ({ s with cmd := { s.cmd with streams := tset s.cmd.streams id st1 } }).sqCnt st.slice 5 (now.length + out.length)
    out.foldl (fun t l => t.enqueue (t.unitDie l.loc) (t.cometOp id st l.loc)) s1

/-- The cached comet data of an LBA whose generation is the entry's current one (R108). -/
def State.cometData (s : State) (sl n : Nat) (u : CUnit) : Option Block :=
  match s.cmd.streams.findSome? (fun e =>
    if e.2.slice == sl && e.2.ns == n then e.2.cached.find? (fun l => l.lba == u.lba && l.genKey == u.genKey && l.gen == u.gen) else none) with
  | some l => some l.data
  | none => none

/-- What a host read consumes is charged to the slice's media share as though it were read now (R107). -/
def State.cometCharge (s : State) (sl : Nat) (l : CometLba) : State :=
  let d := s.unitDie l.loc
  s.charge sl (dieCred (dieBay d) 1) (s.readUs d (rkBlock (ukRow l.loc)))

/-- A read consumes what the cache holds of it. -/
def State.cometConsume (s : State) (sl n lo hi : Nat) : State :=
  s.cmd.streams.foldl (fun t e =>
    if e.2.slice == sl && e.2.ns == n then
      let hit := e.2.cached.filter (fun l => decide (lo ≤ l.lba) && decide (l.lba ≤ hi))
      if hit.isEmpty then t
      else
        let st : CometStream := { e.2 with cached := e.2.cached.filter (fun l => !(decide (lo ≤ l.lba) && decide (l.lba ≤ hi))) }
        hit.foldl (fun u l => u.cometCharge sl l) (({ t with cmd := { t.cmd with streams := tset t.cmd.streams e.1 st } }).sqCnt sl 6 hit.length)
    else t) s

/-- The 4,097th stream evicts the least recently advanced one (R106). -/
def State.cometRoom (s : State) : State :=
  if s.cmd.streams.length < 4096 then s
  else match s.cmd.streams with
    | [] => s
    | a :: t =>
      let old := t.foldl (fun (b : Nat × CometStream) e => if e.2.lastUse < b.2.lastUse then e else b) a
      { s with cmd := { s.cmd with streams := tdel s.cmd.streams old.1 } }

/-- A new stream; a slice past its COMET gets none. -/
def State.cometNew (s : State) (sl n next size : Nat) : State :=
  if (tcount s.cmd.streams (fun _ e => e.slice == sl)) < (s.slc sl).shares.comet then
    let s1 := s.cometRoom
    match tfree s1.cmd.streams 0 4096 with
    | none => s1
    | some id =>
      let st : CometStream := { slice := sl, ns := n, next := next, hi := next, base := next, window := min 16384 (2 * size)
                                serial := s1.cmd.nextStream, lastUse := s1.cmd.cometStamp }
      ({ s1 with cmd := { s1.cmd with streams := tset s1.cmd.streams id st, nextStream := s1.cmd.nextStream + 1
                                      cometStamp := s1.cmd.cometStamp + 1 } }).cometIssue id
  else s

/-- The host has read on to `next`: the window doubles once half of it is consumed (R105). -/
def CometStream.advance (st : CometStream) (next stamp : Nat) : CometStream :=
  let half := decide (st.window ≤ 2 * (next - st.base))
  { st with next := next, hi := max st.hi next, lastUse := stamp
            window := if half then min 16384 (2 * st.window) else st.window, base := if half then next else st.base }

/-- A read of `size` LBAs from `lba` on advances a stream, or counts toward one: three in a row, inside one zone or one 1 GiB
region (R104, R105). -/
def State.cometSee (s : State) (sl n lba size : Nat) : State :=
  let same (a : Nat) : Bool := decide (lba + size ≤ s.regionEnd n a)
  if (s.slc sl).shares.comet = 0 then s
  else match s.cmd.streams.find? (fun e => e.2.slice == sl && e.2.ns == n && e.2.next == lba && same (lba - 1)) with
    | some (id, st) =>
      ({ s with cmd := { s.cmd with streams := tset s.cmd.streams id (st.advance (lba + size) s.cmd.cometStamp)
                                    cometStamp := s.cmd.cometStamp + 1 } }).cometIssue id
    | none =>
      match s.cmd.cands.find? (fun c => c.slice == sl && c.ns == n && c.next == lba && same c.last) with
      | some c =>
        let rest := s.cmd.cands.filter (· != c)
        if 2 ≤ c.run then ({ s with cmd := { s.cmd with cands := rest } }).cometNew sl n (lba + size) size
        else { s with cmd := { s.cmd with cands := { c with next := lba + size, run := c.run + 1, last := lba } :: rest } }
      | none =>
        { s with cmd := { s.cmd with cands := ({ slice := sl, ns := n, next := lba + size, run := 1, last := lba } :: s.cmd.cands).take 8192 } }

/-! Stages 6 and 7. -/

/-- The units of a context's reads, known or still to read; those the comet cache holds are served from it. -/
def State.readUnits (s : State) (x : Ctx) (lbas : List Nat) : List CUnit :=
  lbas.map (fun l =>
    let u := s.knownUnit (s.translate x.nsid l)
    if u.done then u else match s.cometData x.slice x.nsid u with | some b => { u with done := true, data := b } | none => u)

/-- Stage 7 (R110): on an overlap with an earlier uncommitted write-kind range the command waits, its speculative work is
squashed (LOCK), and it translates again when released; else it passes to `nxt`. -/
def State.enterLock (s : State) (c nxt : Nat) : State :=
  match s.lockBlocker (s.ctx c) with
  | some b => (s.squashLock c).modCtx c (fun y => { y with stage := 7, wait := 1, dep := some b, units := [], rerun := true })
  | none => s.modCtx c (fun y => { y with stage := nxt, wait := 0, dep := none, rerun := false })

/-- Is a command's translation held by a line that is replayed from flash (R345)? A zone table line (64 bytes, four entries)
holds up the commands of its zones; a map line (the 8 LBAs of one namespace) those whose range meets it. A command of several
ranges waits for every line of its namespace. -/
def State.replayHolds (s : State) (x : Ctx) : Bool :=
  let many := x.opc == opDsm || x.opc == opCopy || x.opc == opZoneSend || x.opc == opJob
  s.mic.replays.any (fun r =>
    if r.1 then r.2 / 2 ^ 40 == x.nsid && (many || (decide (r.2 % 2 ^ 40 * 8 ≤ x.slba + x.nlb) && decide (x.slba < r.2 % 2 ^ 40 * 8 + 8)))
    else (s.ns x.nsid).zoned && (if many then (s.nsEnts x.nsid).any (fun e => e / 4 == r.2)
      else s.zoneEnt x.nsid (s.zoneOf x.nsid x.slba) / 4 == r.2))

/-- Does an I/O row run for this context now: its command is `op`, it stands at stage 3, or waits for its re-run at stage 6,
it is its turn on its namespace (R95), and no replay holds its translation? -/
def State.rowTurn (s : State) (c op : Nat) : Bool :=
  match s.ctx? c with
  | none => false
  | some x => !x.admin && x.opc == op && (x.stage == 3 || x.stage == 6) && !x.committed && !s.flt.safe && s.fseqTurn c x && !s.replayHolds x

/-- The first unreported deferred write error of a slice on a namespace (R120). -/
def State.pendingDwe (s : State) (sl n : Nat) : Option Nat :=
  ((s.slc sl).dwe.find? (fun d => !d.reported && d.nsid == n)).map (·.idx)

/-- Is a command of a port admitted by the ownership of a namespace (Table 3-10)? -/
def Own.admits (o : Own) (shared w : Bool) (p : Nat) : Bool :=
  match o with
  | .owned q => p == q || (!w && shared)
  | .released _ => !w
  | .taking q _ => !w && (p == q || shared)

/-- Does a Flush, admitted from every port, or a command without a namespace pass the ownership check? -/
def State.fencedErr (s : State) (x : Ctx) (n : Nat) (w : Bool) : Option St :=
  if x.opc = opFlush ∨ (s.ns n).own.admits (s.ns n).shared w x.port then none else some .fenced

/-- Stage 4 for one namespace (Table 4-1): attachment, media ready, ownership (DEDUCED, log 35). -/
def State.admitErr (s : State) (x : Ctx) (n : Nat) (w : Bool) : Option St :=
  match s.ns? n with
  | none => some .invalidNs
  | some q =>
    if !q.attached.contains (cntlid x.port x.slice) then some .invalidNs
    else if !s.glb.mediaReady || s.glb.notReady.contains (s.nsCls n).set then some .nsNotReady
    else s.fencedErr x n w

/-- An error is reported with every entry that its ranges go on in (MORE). -/
def reportChain : Nat → List DweEnt → List DweEnt
  | _, [] => []
  | i, d :: t => if d.idx = i then { d with reported := true } :: (if d.more then reportChain (i + 1) t else t) else d :: reportChain i t

/-- A pending deferred write error ends the command with 86h and is reported by it (R120). -/
def State.reportDwe (s : State) (c i : Nat) : State :=
  (s.modSli (s.ctx c).slice (fun q => { q with dwe := reportChain i q.dwe })).endWith c
    { sv := stv .deferredWrite, dw0 := i }

/-- Stage 4 over a list of namespaces with the kind of access to each; then stage 6, and `k`. -/
def State.admitCmd (s : State) (c : Nat) (l : List (Nat × Bool)) (k : State → State) : State :=
  let x := s.ctx c
  match l.findSome? (fun e => s.admitErr x e.1 e.2) with
  | some e => s.endErr c e
  | none =>
    match l.findSome? (fun e => s.pendingDwe x.slice e.1) with
    | some i => s.reportDwe c i
    | none => k (s.modCtx c (fun y => { y with stage := 6 }))

/-- Stages 3 and 4 of a command on its own namespace: its stage-3 error if it has one, then its admission. A re-run passes
them. -/
def State.enterRow (s : State) (c : Nat) (err : Option St) (w : Bool) (k : State → State) : State :=
  let x := s.ctx c
  if x.stage = 3 then
    match err with
    | some e => s.endErr c e
    | none =>
      if seatOps.contains x.opc ∧ ((s.route x.route).state = .free ∨ (s.route x.route).state = .draining) then s.endErr c .routeNotBound
      else s.admitCmd c [(x.nsid, w)] k
  else k s

/-- Does a context still stand at stage 6? -/
def State.at6 (s : State) (c : Nat) : Bool := (s.ctx c).stage == 6

/-- Map lookups of `n` LBAs: how many hit the map cache is a free value (R162) (DESIGN CHOICE, log 151). -/
def State.countLookups (s : State) (n : Nat) : State :=
  let r := drawNat s
  let h := r.1 % (n + 1)
  { r.2 with zon := { r.2.zon with hits := r.2.zon.hits + h, misses := r.2.zon.misses + (n - h) } }

/-- Stage 6 of a command that reads a list of ranges of its namespace. -/
def State.translateReads (s : State) (c : Nat) (lbas : List Nat) : State :=
  let x := s.ctx c
  match firstErr (s.readErr x.nsid) lbas with
  | some e => s.endErr c e
  | none =>
    let us := s.readUnits x lbas
    let s1 := if (s.ns x.nsid).zoned then s else s.countLookups lbas.length
    s1.modCtx c (fun y => { y with units := us, spec := !y.noSpec && us.any (fun u => !u.done), tgen := (us.headD {}).gen })

/-- The range from the lowest to the highest LBA of a list of ranges (R109). -/
def hull (n : Nat) (l : List LbaRange) : Option Rng :=
  match l.filter (fun r => decide (0 < r.nlb)) with
  | [] => none
  | a :: t => some { ns := n, lo := t.foldl (fun m r => min m r.slba) a.slba
                     hi := t.foldl (fun m r => max m (r.slba + r.nlb - 1)) (a.slba + a.nlb - 1) }

def rangeLbas (l : List LbaRange) : List Nat := l.flatMap (fun r => lbasOf r.slba r.nlb)

/-! Zone reservations (R150 to R155). -/

/-- The zone a Write or append meets, against its projection (R152). -/
def State.zoneWriteErr (s : State) (n e : Nat) (off : Option Nat) (len : Nat) : Option St :=
  let p := s.proj e
  match p.state with
  | .full => some .zoneFull
  | .readOnly => some (if s.nsReadOnly n then .writeRo else .zoneRo)
  | .offline => some .zoneOffline
  | .none => some .invalidField
  | _ =>
    if off.isSome && off != some p.rp then some .zoneInvalidWrite
    else if s.zcap e < p.rp + len then some .zoneBoundary
    else none

/-- Zones that the implicit close of R151 may take: Implicitly Opened, same namespace, no uncommitted reservation; the least
recently written one. -/
def State.closeVictim (s : State) (n e : Nat) : Option Nat :=
  let l := (s.nsEnts n).filter (fun v => v != e && (s.proj v).state == .implicit
    && !(tany s.cmd.ctxs (fun _ x => x.open && !x.void.contains v && (match x.resv with | some r => r.ent == v | none => false))))
  match l with
  | [] => none
  | a :: t => some (t.foldl (fun b v => if (s.zent v).lastOrder < (s.zent b).lastOrder then v else b) a)

/-- R151 for zone `e`, with its victim where one is closed. -/
def State.openCheck (s : State) (n e : Nat) (implicit : Bool) : Except St (Option Nat) :=
  let p := s.proj e
  let x := s.ns n
  if p.state == .empty && (s.projActive s.allEnts == 8192 || decide (x.maxActive ≤ s.projActive (s.nsEnts n))) then .error .tooManyActive
  else if p.state.isOpen then .ok none
  else if s.projOpen s.allEnts == 8192 || decide (x.maxOpen ≤ s.projOpen (s.nsEnts n)) then
    if implicit then match s.closeVictim n e with
      | some v => .ok (some v)
      | none => .error .tooManyOpen
    else .error .tooManyOpen
  else .ok none

/-- Reserve `len` units at the zone's reservation pointer (R153): the projection moves, the reservation is the write-kind
range. It is checked against the projection of the earlier commands (R155). A command that translates again keeps the reservation it
holds. -/
def State.reserve (s : State) (c n z : Nat) (off : Option Nat) (len : Nat) : State :=
  let e := s.zoneEnt n z
  let x := s.ctx c
  match x.resv with
  | some _ => s.modCtx c (fun y => { y with tgen := (s.zent e).gen, zgens := tset y.zgens e (s.zent e).gen })
  | none =>
    let s0 := s.rebuildProj e x.fseq
    match s0.zoneWriteErr n e off len with
    | some er => s.endErr c er
    | none =>
      let t := s.stmpl (s.zent e).tmpl
      if (s.zent e).state.hasRows && decide (t.parity < s.lostDies t) then s.endErr c .nsNotReady
      else match s0.openCheck n e true with
      | .error er => s.endErr c er
      | .ok v =>
        let rp := (s0.proj e).rp
        let lo := z * s.zsze n + rp
        let s1 := (s.modCtx c (fun y => { y with resv := some { ent := e, off := rp, len := len }, victim := v, slba := lo
                                                 lockW := some { ns := n, lo := lo, hi := lo + len - 1 }, tgen := (s.zent e).gen
                                                 zgens := tset y.zgens e (s.zent e).gen })).reproject e
        match v with
        | some w => s1.reproject w
        | none => s1

/-! Placement in the write buffer (stages 9 and 10). -/

/-- An Empty zone's rows are taken for the first line that lands in it (R140, R214) (DEDUCED, log 26). -/
def State.zoneRowsFor (s : State) (e : Nat) : Option State :=
  let z := s.zent e
  if z.state.hasRows || z.rowsTaken then some s
  else
    let c := s.clsRec z.cls
    match s.pickRows (classTmpls s.pat.eff c) (s.zoneR e) with
    | none => none
    | some (tm, k) =>
      let u : RowUse := { ns := (s.entNs e).getD 0, mode := c.mode, zent := some e, writtenAt := s.nowMs }
      some ((s.takeRows tm k (s.zoneR e) u).setZent e { z with tmpl := tm, block := k, rowsTaken := true })

/-- Land one block of a command: its line is uncommitted until the command commits (R101). -/
def State.landBlock (s : State) (c n lba k : Nat) (b : Block) : State :=
  (s.landLine k { ns := n, lba := lba, blk := b, ctx := some c }).modCtx c (fun y => { y with placed := y.placed ++ [k] })

/-- Land blocks of a zone's reservation. -/
def State.landZone (s : State) (c n e off : Nat) : List Block → State
  | [] => s
  | b :: t => (s.landBlock c n (s.entZone e * s.zsze n + off) (s.zoneLoc e off) b).landZone c n e (off + 1) t

/-- Land blocks of a conventional namespace from LBA `lba` on, in the row of reclaim group `rg` and handle `ph`. -/
def State.landConv (s : State) (c n rg ph lba : Nat) : List Block → Option State
  | [] => some s
  | b :: t =>
    match s.convAlloc n rg ph with
    | none => none
    | some (k, u) => (u.landBlock c n lba k b).landConv c n rg ph (lba + 1) t

/-- Placement identifier of a write: reclaim group in the high bits, placement handle below (Table 5-6). -/
def State.placement (s : State) (n dtype dspec : Nat) : Nat × Nat × Bool :=
  let c := s.nsCls n
  let f : Fdp := tval s.zon.fdp c.set
  match s.pat.eff.ns with
  | none => (0, 0, true)
  | some m =>
    if !f.enabled then (0, 0, true)
    else if dtype != 2 then (0, (s.ns n).handles.getD 0 0, true)
    else
      let rgBits := Nat.log2 (max 1 (2 * m.fdpRg - 1))
      let ph := dspec % 2 ^ (16 - rgBits)
      let rg := dspec / 2 ^ (16 - rgBits)
      if rg < m.fdpRg ∧ ph < (s.ns n).handles.length then (rg, (s.ns n).handles.getD ph 0, true)
      else (0, (s.ns n).handles.getD 0 0, false)

/-- Log an FDP event of a die set, 64 kept: type, handle, time. -/
def State.fdpEvent (s : State) (set typ h : Nat) : State :=
  let f : Fdp := tval s.zon.fdp set
  if f.evEnable.contains (h, typ) then
    { s with zon := { s.zon with fdp := tset s.zon.fdp set { f with events := (f.events ++ [(typ, h, s.nowMs)]).drop (f.events.length + 1 - 64) } } }
  else s

/-- Free rows of a list of templates. -/
def State.freeRows (s : State) (ts : List StripeTmpl) : Nat :=
  sumNat (ts.map (fun t => ((List.range (s.tmplBlocks t)).filter (fun k => s.rowFree t k)).length))

/-- The conventional row of a die set with the least valid data that may be collected: fully written, not moving. -/
def State.gcVictim (s : State) (set : Nat) : Option Nat :=
  let l := (s.med.use.filter (fun e => e.2.zent.isNone && !e.2.target && (s.stmpl (rkTmpl e.1)).set == set
    && decide (s.rowUnits (rkTmpl e.1) e.2.mode ≤ e.2.next + e.2.cut) && !s.relocating (rkTmpl e.1) (rkBlock e.1))).map (fun e => (e.1, (s.rowMapped e.1).length))
  match l with
  | [] => none
  | a :: t => some (t.foldl (fun b e => if e.2 < b.2 then e else b) a).1

/-- Urgent garbage collection (Table 7-2): a die set's free rows below 1 % of its usable rows, over all its templates, while a conventional
namespace holds rows there. -/
def State.urgentGc (s : State) (set : Nat) : State :=
  let ts := match s.pat.eff.stripe with | none => [] | some m => m.tmpls.filter (fun t => t.set == set)
  if s.freeRows ts * 100 < s.usableRows ts then
    match s.gcVictim set with
    | some rk => s.queueReloc .gcUrgent (rkTmpl rk) (rkBlock rk)
    | none => s
  else s

/-- Stage 2 is entered when a conventional row allocation takes a row with a worn block (Table 7-5). -/
def State.stageTwo (s : State) (c n : Nat) : State :=
  if (s.ctx c).placed.any (fun k => (tval s.med.use (ukRow k) : RowUse).cut != 0) then s.enterStages (s.nsCls n).set 2 else s

/-- Where a command's blocks go: a zone's reservation, or LBAs from `lba` on. A reservation that a rollback has released takes none: the
command goes on to its GEN squash. No room (the limits of R117 and R211, or no free
row): the write waits at stage 10 with wait cause 5. -/
def State.placeBlocks (s : State) (c n : Nat) (l : List Block) : State :=
  let x := s.ctx c
  let wait := s.modCtx c (fun y => { y with stage := 10, wait := 5 })
  if s.overLimit (s.nsCls n).set l.length then wait
  else if (s.ns n).zoned then
    match x.resv with
    | none => s
    | some r =>
      if x.void.contains r.ent then s.modCtx c (fun y => { y with stage := 13, wait := 0, received := true })
      else match s.zoneRowsFor r.ent with
      | none => wait
      | some t => ((t.urgentGc (s.nsCls n).set).landZone c n r.ent r.off l).modCtx c (fun y => { y with stage := 13, wait := 0, received := true })
  else
    let dt := if x.opc = opJob then 0 else bitsAt x.sqe.cdw12.toNat 20 4
    let p := s.placement n dt (x.sqe.cdw13.toNat / 65536)
    match s.landConv c n p.1 p.2.1 ((x.lockW.map (·.lo)).getD x.slba) l with
    | none => wait
    | some t =>
      let t1 := ((if p.2.2 then t else t.fdpEvent (s.nsCls n).set 3 p.2.1).urgentGc (s.nsCls n).set).stageTwo c n
      t1.modCtx c (fun y => { y with stage := 13, wait := 0, received := true })

/-! Commits. -/

/-- Garbage collection of a conventional row whose valid data falls below half (Table 7-2). -/
def State.gcCheck (s : State) (rk : Nat) : State :=
  let u : RowUse := tval s.med.use rk
  let n := s.rowUnits (rkTmpl rk) u.mode
  if (tget s.med.use rk).isSome && u.zent.isNone && !u.target && n ≤ u.next + u.cut && 2 * (s.rowMapped rk).length < n then
    s.queueReloc .gc (rkTmpl rk) (rkBlock rk)
  else s

/-- A map change is journalled until its segment, 64 MiB of map, is checkpointed (R163) (DEDUCED, log 153). -/
def mapSeg (k : Nat) : Nat := k / 2 ^ 64 * 65536 + k % 2 ^ 64 / 2 ^ 23
def State.noteJournal (t : State) (k : Nat) : State :=
  { t with zon := { t.zon with journalSegs := insertNat t.zon.journalSegs (mapSeg k) } }

/-- Change one map entry at a commit: GEN advances (R160); the location it leaves may make its row garbage. -/
def State.commitMap (s : State) (k : Nat) (loc : Option Nat) (unc : Bool) : State :=
  let m := s.mapEnt k
  let b : MapBack := match m.back with
    | some x => if m.loc.isNone then { x with alts := x.alts ++ [m.unc] } else x
    | none => { loc := m.loc, unc := m.unc }
  let s1 := (s.setMap k { loc := loc, unc := unc, gen := (m.gen + 1) % 65536, back := some b }).noteJournal k
  match m.loc with
  | some old => s1.gcCheck (ukRow old)
  | none => s1

/-- Map changes without data are recorded in the journal (R115, R118): those of an LBA, and those of a namespace. -/
def State.recordLba (s : State) (n b : Nat) : State :=
  let m := s.mapEnt (mapKey n b)
  if m.loc.isNone && m.back.isSome then (s.setMap (mapKey n b) { m with back := none }).journal 1 else s

def State.recordNs (s : State) (n : Nat) : State :=
  let cnt := tcount s.zon.map (fun k m => k / 2 ^ 64 == mapKey n 0 / 2 ^ 64 && m.loc.isNone && m.back.isSome)
  State.journal { s with zon := { s.zon with map := tmap s.zon.map (fun k m => if k / 2 ^ 64 == mapKey n 0 / 2 ^ 64 && m.loc.isNone then { m with back := none } else m) } } cnt

/-- A landed line is committed. -/
def State.commitLine (s : State) (k : Nat) : State :=
  let s1 := s.modLine k (fun l => { l with ctx := none, order := s.zon.writeOrder })
  { s1 with zon := { s1.zon with writeOrder := s1.zon.writeOrder + 1 } }

/-- Host data counts: SMART and the endurance group (R227, R228) (DEDUCED, log 152). -/
def State.countWrite (s : State) (sl set n : Nat) : State :=
  let q : SmartSl := tval s.mlf.smart sl
  let s1 := { s with mlf := { s.mlf with smart := tset s.mlf.smart sl { q with writtenLbas := q.writtenLbas + n, writes := q.writes + 1 } } }
  let f : Fdp := tval s1.zon.fdp set
  let s2 := { s1 with zon := { s1.zon with fdp := tset s1.zon.fdp set { f with hostBytes := f.hostBytes + n * 4096 } } }
  (s2.modLife set (fun l => { l with hostUnits := l.hostUnits + n })).modSli sl (fun q => { q with stat := { q.stat with writeUnits := q.stat.writeUnits + n } })

def State.countRead (s : State) (sl set n : Nat) : State :=
  let q : SmartSl := tval s.mlf.smart sl
  let s1 := { s with mlf := { s.mlf with smart := tset s.mlf.smart sl { q with readLbas := q.readLbas + n, reads := q.reads + 1 } } }
  (s1.modLife set (fun l => { l with readUnits := l.readUnits + n })).modSli sl (fun q => { q with stat := { q.stat with readUnits := q.stat.readUnits + n } })

/-- The commit of a reservation: WP advances, the zone opens, fills, and its victim closes (R154, R151). -/
def State.commitZoneWrite (s : State) (r : Resv) (slice : Nat) (victim : Option Nat) : State :=
  let z := s.zent r.ent
  let wp := z.wp + r.len
  let z1 : ZEnt := { z with
    state := if wp = s.zcap r.ent then .full else if z.state = .empty ∨ z.state = .closed then .implicit else z.state
    opener := if z.state.isOpen then z.opener else slice
    wp := wp, filled := wp, rowsTaken := false
    lastWrite := s.nowMs, lastOrder := s.zon.writeOrder }
  let s1 := s.setZent r.ent z1
  let s2 := if z1.state = .full then s1.refreshWaiting else s1
  match victim with
  | some v => if (s2.zent v).state = .implicit then s2.setZent v { (s2.zent v) with state := .closed } else s2
  | none => s2

/-- The lines of a command are committed, and the map entries of a conventional namespace point at them. -/
def State.commitConv (s : State) (n lba : Nat) : List Nat → State
  | [] => s
  | k :: t => ((s.commitLine k).commitMap (mapKey n lba) (some k) false).commitConv n (lba + 1) t

/-- What a committed write placed becomes the data of its LBAs. -/
def State.commitPlaced (s : State) (x : Ctx) (n lo : Nat) : State :=
  match x.resv with
  | some r => (x.placed.foldl (fun t k => t.commitLine k) s).commitZoneWrite r x.slice x.victim
  | none => s.commitConv n lo x.placed

/-- Everything a write-kind data command does at its commit. -/
def State.commitWrite (s : State) (c n : Nat) : State :=
  let x := s.ctx c
  let lo := (x.lockW.map (·.lo)).getD x.slba
  let s1 := s.cometCancel n lo (lo + x.placed.length - 1)
  let s3 := (s1.commitPlaced x n lo).countWrite x.slice (s.nsCls n).set x.placed.length
  if x.fua && !s.holdup then
    let below := match x.resv with
      | some r => s3.undurable (fun l => l.ns == n && s3.zoneEnt n (s3.zoneOf n l.lba) == r.ent)
      | none => x.placed
    s3.landUnits (.fua c) below
  else s3

/-! Ordered queues (R113, R114). -/

/-- The sequencer bound to a queue. -/
def State.oqOf (s : State) (slice sqid : Nat) : Option Nat := tfind s.cmd.oqs (fun _ o => o.en && o.slice == slice && o.sqid == sqid)

/-- Later commands of an ordered queue, by FSEQ. -/
def State.orderedAfter (s : State) (x : Ctx) : List (Nat × Ctx) :=
  byFseq (s.cmd.ctxs.filter (fun e => e.2.ordered && e.2.open && e.2.slice == x.slice && e.2.sqid == x.sqid && e.2.dq == x.dq && decide (x.fseq < e.2.fseq)))

/-- The earlier uncommitted command of the same ordered queue. -/
def State.orderedBlocker (s : State) (x : Ctx) : Option Nat :=
  if x.ordered then tfind s.cmd.ctxs (fun _ y => y.ordered && y.open && y.dq == x.dq && decide (y.fseq < x.fseq)) else none

/-- A failed command of an ordered queue: the later ones are squashed (PRED), and the queue halts. -/
def State.orderedFail (s : State) (x : Ctx) : State :=
  let s1 := (s.orderedAfter x).foldl (fun t e => t.squashPred e.1) s
  match s1.oqOf x.slice x.sqid with
  | none => s1
  | some k =>
    let o := s1.oq k
    if o.halted then s1 else s1.setOq k { o with halted := true, failedCid := x.cid, halts := satAdd 14 o.halts 1 }

/-- The outcome becomes fixed (R96): the command goes to stage 14. Waits of other commands look for it themselves. -/
def State.fix (s : State) (c : Nat) : State :=
  let x := s.ctx c
  let s1 := (s.releaseSeat c).modCtx c (fun y =>
    { y with stage := 14, committed := true, wait := 0, dep := none, spec := false, lockW := none, lockR := none,
             resv := none, victim := none, zents := [] })
  let s2 := if x.ordered then
      match s1.oqOf x.slice x.sqid with
      | none => s1
      | some k => s1.setOq k { (s1.oq k) with nextSlot := (x.slot + 1) % max 1 (s1.queue x.dq).sqSize }
    else s1
  let s3 := if x.ordered && (x.outc.getD {}).sv.st != .success && (x.outc.getD {}).sv.st != .orderedPred && !(s2.ctx c).killed then s2.orderedFail x else s2
  s3.ownProgressAll

end Sys2Proof.Machine
end

