-- ==== Sys2Proof/Machine/Intake.lean ====
section
/-! DEFINITION. Command intake: doorbells, fetch, decode and admission, route seats, data movement, completion, ordered
queues (04 R93 to R114, 01 R28 to R31). -/

namespace Sys2Proof.Machine

/-! Queues (R136). -/

/-- Index of the admin queue pair of a slice on a port. -/
def adminDq (port slice : Nat) : Nat := if slice = 0 ∧ port = 1 then 18432 else slice

/-- Device queue index of a (slice, QID) on a port. -/
def State.dqOf (s : State) (port slice qid : Nat) : Option Nat :=
  if qid = 0 then some (adminDq port slice)
  else tfind s.cmd.queues (fun k q => decide (2048 ≤ k) && decide (k ≤ 18431) && q.slice == slice && q.port == port && q.qid == qid)

/-- The completion queue of a submission queue. -/
def State.cqOf (s : State) (q : Queue) : Option Nat := s.dqOf q.port q.slice q.cqid

/-- Entries of a circular queue from `a` to `b`. -/
def ringDist (n a b : Nat) : Nat := if n = 0 then 0 else (b + n - a % n) % n

/-- An error event of the controller (NVMe: type 0, 0 invalid doorbell register, 1 invalid value) (PRESUMED, log 39). -/
def State.badDoorbell (s : State) (port slice info : Nat) : State :=
  s.aen (ctrlKey port slice) { typ := 0, info := info, lid := 0x01 }

/-- A doorbell value reaches its queue (stage 1): the SQ tail or the CQ head moves; an invalid value raises its event. -/
def State.ringDoorbell (s : State) (port slice qid : Nat) (isCq : Bool) (v : Nat) : State :=
  match s.dqOf port slice qid with
  | none => s.badDoorbell port slice 0
  | some k =>
    let q := s.queue k
    if isCq then
      if !q.cqOn then s.badDoorbell port slice 0
      else if q.cqSize ≤ v || ringDist q.cqSize q.cqHead q.cqTail < ringDist q.cqSize q.cqHead v then s.badDoorbell port slice 1
      else s.setQueue k { q with cqHead := v }
    else if !q.sqOn then s.badDoorbell port slice 0
    else if q.sqSize ≤ v then s.badDoorbell port slice 1
    else s.setQueue k { q with tail := v }

/-- Trickle exit begins (Table 3-7 step 1): the port's TLPs are held and its UCM islands are woken. -/
def State.trickleOut (s : State) (p : Nat) (act : WsAct) : State :=
  let s1 := ({ s with trickle := { s.trickle with tstate := 3, act := act } }).modPort p (fun x => { x with tlpHeld := true })
  (s.portMods p).foldl (fun t m => t.access (islUCM m)) s1

/-- A doorbell write (R93 stage 1, R69, R82 to R84). On a page that is not live on the port nothing happens (R73). A write
while TLPs are held waits; one in trickle with AUTO_EXIT starts the exit and is delivered after it. -/
def State.doorbell (s : State) (port slice qid : Nat) (isCq : Bool) (v : Nat) : State :=
  let held := (fun (t : State) => t.modPort port (fun x => { x with heldDb := x.heldDb ++ [{ slice := slice, qid := qid, isCq := isCq, value := v }] }))
  if !s.liveOn port slice || s.flt.safe then s
  else if (s.port port).tlpHeld then held s
  else if s.trickle.tstate = 2 && (s.port port).lstate == .trickle && s.trickle.autoExit then held (s.trickleOut port s.trickle.act)
  else (s.access islHFE).ringDoorbell port slice qid isCq v

/-- DOORBELL_WRITE. -/
def execDoorbellWrite (port slice qid : Nat) (isCq : Bool) (value : Nat) (s : State) : Out :=
  guardUnit s (portSliceOk port slice && decide (qid < 1536)) (s.doorbell port slice qid isCq (value % 65536))

/-! Fetch (stage 2), decode (stage 3) and the admission of admin commands (stage 4). -/

/-- May anything be fetched from a queue now, whatever the context? In the safe state nothing is fetched (R367); a CFS
controller, a failed entry read (R478), a detach (R84), an activation (Table 4-8), a PFAIL_N (Table 4-8), a hold (R459), a
halted ordered queue (R114) and held TLPs stop it. -/
def State.mayFetch (s : State) (dq : Nat) : Bool :=
  let q := s.queue dq
  let k := s.ctrl (ctrlKey q.port q.slice)
  q.sqOn && !q.sqErr && !q.deleting && q.head != q.tail && k.en && !k.cfs && !k.resetting && !s.sliceGone q.slice && !s.flt.safe
    && !s.cmd.fetchStopAll && !s.cmd.activationPause && (s.port q.port).phase == 0 && !(s.port q.port).tlpHeld
    && (q.qid == 0 || !(s.slc q.slice).hold)
    && !(tany s.cmd.oqs (fun _ o => o.en && o.halted && o.slice == q.slice && o.sqid == q.qid))

/-- The credit point of fetch on a port (Table 10-4), and whether a slice has I/O work waiting there. -/
def fetchCred (p : Nat) : Nat := p
def State.fetchBacklog (s : State) (p sl : Nat) : Bool :=
  tany s.cmd.queues (fun k q => q.port == p && q.slice == sl && q.qid != 0 && s.mayFetch k)
    && decide (s.ctxCount sl < (s.slc sl).shares.inflight)
def State.fetchCredit (s : State) (p sl : Nat) : Int := tgetD (s.slc sl).credit (fetchCred p) 0

/-- Is it the slice's turn at fetch: it has credit, or no backlogged slice of the port has any (R312)? Admin fetch ranks before
the arbitration. -/
def State.fetchTurn (s : State) (q : Queue) : Bool :=
  q.qid == 0 || decide (0 < s.fetchCredit q.port q.slice)
    || !(s.sli.any (fun e => decide (0 < s.fetchCredit q.port e.1) && s.fetchBacklog q.port e.1))

def State.fetchCharge (s : State) (q : Queue) : State :=
  if q.qid != 0 && decide (0 < s.fetchCredit q.port q.slice) then
    s.modSli q.slice (fun x => { x with credit := tset x.credit (fetchCred q.port) (tgetD x.credit (fetchCred q.port) 0 - 1) })
  else s

/-- Contexts withdrawn from use (R343, Table 11-2) that hold no command. -/
def State.withdrawnFree (s : State) : List Nat := s.mic.withdrawn.filter (fun c => (tget s.cmd.ctxs c).isNone)

/-- Does an admin SQ that ranks before the queue wait for a context: any for an I/O queue, one of slice 0 for the admin SQ of another
slice (R97)? -/
def State.adminWaits (s : State) (q : Queue) : Bool :=
  tany s.cmd.queues (fun k a => a.qid == 0 && s.mayFetch k && decide (s.ctxCount a.slice < (s.slc a.slice).shares.inflight)
    && (q.qid != 0 || (q.slice != 0 && a.slice == 0)))

/-- A free context for the queue (R97): the slice's INFLIGHT, 65,536 in all; the last one goes to a waiting admin SQ first, slice 0's
before any other (DEDUCED, log 38). -/
def State.ctxFor (s : State) (dq : Nat) : Option Nat :=
  let q := s.queue dq
  if (s.slc q.slice).shares.inflight ≤ s.ctxCount q.slice then none
  else if decide (65535 ≤ s.cmd.ctxs.length + s.withdrawnFree.length) && s.adminWaits q then none
  else tfree (s.withdrawnFree.foldl (fun t c => tset t c {}) s.cmd.ctxs) 0 65536

/-- Manager-only opcodes, and those marked S (Table 4-10). -/
def managerOps : List Nat := [0x0D, 0x15, 0x10, 0x11, 0x1D, 0x1E, 0x80, 0x84, 0xCD, 0xD1, 0xD4, 0xD8, 0xDC]
def adminOps : List Nat := [0x00, 0x01, 0x04, 0x05, 0x02, 0x06, 0x08, 0x09, 0x0A, 0x0C, 0x19, 0x1A, 0xC2, 0xC5, 0xC8] ++ managerOps

/-- Slice Management Set Key of key 0 needs no session while every manager key is empty (R329). -/
def State.firstKey (s : State) (q : Sqe) : Bool :=
  q.opc == 0xCD && q.cdw10.toNat % 16 == 3 && q.cdw11.toNat % 65536 == 0
    && (List.range 8).all (fun k => (tval s.sec.keys k : KeySlot).key.isEmpty)

/-- The admin commands of the bare structure (R55). -/
def bareOp (q : Sqe) : Bool :=
  [0x06, 0x02, 0x0A, 0x08, 0x0C, 0x10, 0x11, 0xC2, 0xC5, 0xC8, 0xD1].contains q.opc
    || (q.opc == 0x09 && [0x01, 0x02, 0x04, 0x0B].contains (q.cdw10.toNat % 256))

/-- The sub-function of a command that has rows by sub-function (R56, R60, R90, R271, R307, R421, Zone Management Send). -/
def subfnOk (admin : Bool) (q : Sqe) : Bool :=
  let d := q.cdw10.toNat
  if admin then
    if q.opc = 0x0D then d % 16 < 2
    else if q.opc = 0xCD then d % 16 < 5 && d % 2 ^ 16 / 16 == 0 && d / 2 ^ 27 == 0
    else if q.opc = 0xD1 then d % 4 < 3
    else if q.opc = 0xD4 then d % 4 < 2
    else if q.opc = 0xD8 then d % 16 < 7
    else if q.opc = 0xDC then d < 2
    else if q.opc = 0x10 then d / 8 % 8 < 4
    else true
  else if q.opc = opZoneSend then decide (1 ≤ q.cdw13.toNat % 256) && decide (q.cdw13.toNat % 256 < 6)
  else if q.opc = opProgLoad then d % 4 < 3
  else true

/-- The command flags of an entry that ask for what the Z9 does not support: a fused operation (Table 4-9), the reserved data pointer
kind, or SGLs for an admin command (PRESUMED from NVMe Base 2.1, log 174). -/
def flagsBad (admin : Bool) (q : Sqe) : Bool := q.flags % 4 != 0 || q.flags / 64 % 4 == 3 || (admin && q.flags / 64 % 4 != 0)

/-- Stage 3 and 4 of an admin command that its opcode decides (Tables 4-1 and 4-10). -/
def State.adminErr (s : State) (slice port : Nat) (q : Sqe) : Option St :=
  if !adminOps.contains q.opc then some .invalidOpcode
  else if managerOps.contains q.opc && slice != 0 then some .invalidOpcode
  else if s.glb.bare && !bareOp q && !s.firstKey q then some .invalidOpcode
  else if !subfnOk true q || flagsBad true q then some .invalidField
  else if (managerOps.contains q.opc || q.opc == 0x19) && !s.firstKey q && !s.roleSession (.ctrl slice port) then some .sessionRequired
  else none

/-- I/O opcodes by namespace kind (Table 4-11). -/
def bothOps : List Nat := [opFlush, opWrite, opRead, opCompare, opVerify, opCopy, opProgLoad, opProgUnload, opJob, opCmAlloc, opCmFree]
def convOps : List Nat := [opWriteUnc, opWriteZeroes, opDsm, opIoMgmtRecv, opIoMgmtSend]
def zonedOps : List Nat := [opZoneSend, opZoneRecv, opAppend]

def State.ioErr (s : State) (q : Sqe) : Option St :=
  let ok := bothOps.contains q.opc || (match s.ns? q.nsid with
    | none => convOps.contains q.opc || zonedOps.contains q.opc
    | some n => if n.zoned then zonedOps.contains q.opc else convOps.contains q.opc)
  if !ok || s.glb.bare then some .invalidOpcode
  else if !subfnOk false q || flagsBad false q then some .invalidField
  else none

/-- A write command's FUA: its bit 30 of CDW12, or WCE 0 of its slice (R115). -/
def State.fuaOf (s : State) (slice : Nat) (q : Sqe) : Bool :=
  (q.opc == opWrite || q.opc == opAppend || q.opc == opWriteZeroes || q.opc == opWriteUnc || q.opc == opCopy)
    && (bitAt q.cdw12.toNat 30 || !(s.slc slice).wce)

/-- A command fetched while a non-operational power state is in effect returns the device to the last operational state
(R398). -/
def State.powerWake (s : State) : State :=
  if (s.pat.eff.power.states.getD s.pwr.pstate {}).nonOp then ({ s with pwr := { s.pwr with pstate := s.pwr.lastOp } }).liftFloors else s

/-- The context of a fetched entry (R94, Table 4-15). -/
def State.newCtx (s : State) (dq c : Nat) (e : Sqe) : Ctx :=
  let q := s.queue dq
  { stage := 3, gen := tgetD s.cmd.ctxGen c 0, slice := q.slice, port := q.port, sqid := q.qid, dq := dq, slot := q.head
    cid := e.cid, opc := e.opc, admin := q.qid == 0, fua := q.qid != 0 && s.fuaOf q.slice e
    ordered := (s.oqOf q.slice q.qid).isSome && q.qid != 0, nsid := e.nsid, fseq := s.cmd.fseq, slba := sqeSlba e, nlb := sqeNlb e
    route := if q.qid != 0 && e.opc == opRead then e.cdw3.toNat % 4096 else 0
    sliceGen := (s.slc q.slice).gen, tFetchNs := s.nowUs * 1000, sqe := e }

/-- The entry leaves its queue into context `c` with the next FSEQ. -/
def State.fetchInto (s : State) (dq c : Nat) (e : Sqe) : State :=
  let q := s.queue dq
  let s1 := s.setQueue dq { q with head := if q.sqSize = 0 then 0 else (q.head + 1) % q.sqSize, fetched := (q.fetched + 1) % 2 ^ 64 }
  let s2 := s1.modSli q.slice (fun x => { x with stat := { x.stat with fetched := x.stat.fetched + 1 } })
  ({ s2 with cmd := { s2.cmd with fseq := (s2.cmd.fseq + 1) } }).setCtx c (s.newCtx dq c e)

/-- SQ_FETCH: the entry read from host memory takes a context and the next FSEQ (R94, R97); its opcode is decoded. A command
that ends here waits at stage 13 (I/O), or for its completion (admin). A fetch that finds the domains of its path asleep wakes
them and stalls (R391). -/
def execSqFetch (dq : Nat) (e : Sqe) (s : State) : Out :=
  guardUnit s (dqOk dq)
    (if !s.mayFetch dq || !s.fetchTurn (s.queue dq) then s
     else if !s.fetchAwake ((s.queue dq).qid == 0) then s.wakeChain ((s.queue dq).qid == 0)
     else
       match s.ctxFor dq with
       | none => s
       | some c =>
         let q := s.queue dq
         let s1 := ((s.powerWake).fetchCharge q).fetchInto dq c e
         if q.qid = 0 then
           match s.adminErr q.slice q.port e with
           | some er => s1.finish c (errOut er)
           | none => s1.modCtx c (fun x => { x with stage := 5 })
         else match s.ioErr e with
           | some er => s1.endErr c er
           | none => s1)

/-- SQ_ENTRY_READ_FAIL (R478): fetch from the queue stops and its controller reports CSTS.CFS. -/
def execSqEntryReadFail (dq : Nat) (s : State) : Out :=
  guardUnit s (dqOk dq)
    (let q := s.queue dq
     if s.mayFetch dq then
       (((s.setQueue dq { q with sqErr := true }).controllerFatal (ctrlKey q.port q.slice)).logError (ctrlKey q.port q.slice)
         { sqid := q.qid, cid := 0xFFFF, st := stv .dataXfer }).queueFault { src := 747, level := 1, slice := some q.slice, detail := q.qid }
     else s)

/-- A fault of a pointer list, not of the protection check of stage 12. -/
def pointerFault (f : DataFault) : Bool := f != .guard && f != .appTag && f != .refTag

/-- Does the Z9 still read the data pointers or the data of the command: an I/O command from stage 3 to its commit point, an admin command
that is not under way yet (R479)? -/
def Ctx.pointersOpen (x : Ctx) : Bool :=
  !x.committed && (if x.admin then x.stage == 5 && !x.decoded && x.opc != 0x0C else decide (3 ≤ x.stage) && decide (x.stage < 13))

/-- A command whose pointers or data cannot be read ends before its commit point. -/
def State.pointerEnd (s : State) (c : Nat) (x : Ctx) (e : St) : State := if x.admin then s.finish c (errOut e) else s.endErr c e

/-- HOST_READ_TIMEOUT (R67): a read of host memory for the command got no completion. -/
def execHostReadTimeout (c : Nat) (s : State) : Out :=
  guardUnit s (ctxOk c)
    (match s.ctx? c with
     | none => s
     | some x => if x.pointersOpen && !s.flt.safe then s.pointerEnd c x .dataXfer else s)

/-- Has cached data of the stream stayed unconsumed for 1 s? -/
def CometStream.stale (x : CometStream) (nowMs : Nat) : Bool := x.cached.any (fun l => decide (l.landedMs + 1000 ≤ nowMs))

/-- COMET_STREAM_TIMEOUT (R105): the stream ends and its data is evicted. -/
def execCometStreamTimeout (st : Nat) (s : State) : Out :=
  guardUnit s (decide (st < 4096))
    (match tget s.cmd.streams st with
     | none => s
     | some x => if x.stale s.nowMs then { s with cmd := { s.cmd with streams := tdel s.cmd.streams st } } else s)

/-- RANGE_LOCK_RELEASE (R110): a command that waited at stage 7 goes back to stage 6 once nothing earlier overlaps it. -/
def execRangeLockRelease (c : Nat) (s : State) : Out :=
  guardUnit s (ctxOk c)
    (match s.ctx? c with
     | none => s
     | some x =>
       if x.stage = 7 ∧ !s.flt.safe ∧ (s.lockBlocker x).isNone then s.setCtx c { x with stage := 6, wait := 0, dep := none } else s)

/-- A write that runs again has its data still: it goes on to its place once it holds a seat (R29, R155). -/
def State.placeAgain (s : State) (c : Nat) : State :=
  let x := s.ctx c
  if x.stage = 9 ∧ !x.wdata.isEmpty ∧ (x.opc = opWrite ∨ x.opc = opAppend) then s.placeBlocks c x.nsid x.wdata else s

/-- ROUTE_SEAT (R29, R31): a seat at stage 8, or 85h; a BINDING slot makes the command wait. -/
def execRouteSeat (c : Nat) (s : State) : Out :=
  guardUnit s (ctxOk c)
    (match s.ctx? c with
     | none => s
     | some x =>
       if x.stage = 8 ∧ !s.flt.safe then
         match (s.route x.route).state with
         | .binding => s.setCtx c { x with wait := 2 }
         | .bound =>
           let s1 := s.modRoute x.route (fun r => { r with seats := r.seats + 1 })
           let s2 := s1.setCtx c { x with seat := true, stage := 9, wait := 0 }
           if (s.job? c).isSome then s2.modJob c (fun j => { j with started := s.nowUs, lanes := s.cpx.lanes }) else s2.placeAgain c
         | _ => s.endErr c .routeNotBound
       else s)

/-! Data movement and verify (stages 10 and 12). -/

/-- Status of a failed transfer (R479, stage 12). -/
def faultSt : DataFault → St
  | .readFail => .dataXfer
  | .prpInvalid => .prpInvalid
  | .sglInvalid => .sglInvalid
  | .sglCount => .sglCount
  | .sglDataLength => .sglDataLength
  | .sglMetaLength => .sglMetaLength
  | .sglType => .sglType
  | .sglOffset => .sglOffset
  | .guard => .guardErr
  | .appTag => .appTagErr
  | .refTag => .refTagErr

/-- Are all media units of a command in their buffers? -/
def Ctx.unitsDone (x : Ctx) : Bool := x.units.all (·.done)
def Ctx.unitFail (x : Ctx) : Option StatusVal := x.units.findSome? (·.fail)
def Ctx.readData (x : Ctx) : List Block := x.units.map (·.data)

/-- Does a routed read still pass engine stages? -/
def State.hasEngines (_s : State) (x : Ctx) : Bool := x.opc == opRead && x.route != 0

/-- Stage 12 of a command whose reads are complete: Read, Verify, Compare and Copy. -/
def State.verifyStage (s : State) (c : Nat) : State :=
  let x := s.ctx c
  match x.unitFail with
  | some v => s.endWith c { sv := v }
  | none =>
    match piCheck (s.ns x.nsid) x.sqe 0 (if x.opc = opCopy then [] else x.readData) with
    | some e => s.endErr c e
    | none =>
      if x.opc = opCompare ∧ x.wdata != x.readData then s.endErr c .compareFail
      else if x.opc = opCopy then s.placeBlocks c x.nsid x.readData
      else if s.hasEngines x then s.routedJob c
      else s.modCtx c (fun y => { y with stage := 13, wait := 0, spec := false, outc := some (okOut 0)
                                         out := if x.opc = opRead then .blocks x.readData else .none })

/-- Is the command one whose stage 10 this is? -/
def Ctx.moving (x : Ctx) : Bool := !x.committed && (x.stage == 9 || x.stage == 10) && x.wait == 0

/-- HOST_DATA_TRANSFER_DONE (R93, R479). -/
def State.moveData (s : State) (c : Nat) (x : Ctx) (d : HostData) : State :=
  match d with
  | .fault f => s.endErr c (faultSt f)
  | .blocks l =>
    if x.opc = opWrite ∨ x.opc = opAppend then
      if l.length = x.nlb + 1 then
        match piCheck (s.ns x.nsid) x.sqe 0 l with
        | some e => s.endErr c e
        | none => (s.setCtx c { x with wdata := l }).placeBlocks c x.nsid l
      else s
    else if x.opc = opCompare ∧ l.length = x.nlb + 1 then
      let s1 := s.setCtx c { x with wdata := l, stage := 10 }
      if x.unitsDone then s1.verifyStage c else s1
    else s
  | .bytes l =>
    if x.opc = opJob ∧ some l.length = ((s.job c).hostExts[(s.job c).inputs.length]?).map (·.len) then
      (s.modJob c (fun j => { j with inputs := j.inputs ++ [l] })).jobInput c
    else s
  | .none =>
    if x.opc = opJob then s.jobInput c
    else if x.unitsDone && (x.opc == opRead || x.opc == opVerify || x.opc == opCopy || (x.opc == opCompare && !x.wdata.isEmpty)) then
      s.verifyStage c
    else s

/-- HOST_DATA_TRANSFER_DONE. -/
def execHostDataTransferDone (c : Nat) (d : HostData) (s : State) : Out :=
  guardUnit s (ctxOk c)
    (match s.ctx? c with
     | none => s
     | some x =>
       if s.flt.safe then s
       else if x.moving then s.moveData c x d
       else match d with
         | .fault f => if pointerFault f && x.pointersOpen then s.pointerEnd c x (faultSt f) else s
         | _ => s)

/-- WRITE_BUFFER_ROOM (R117): a write that waits at stage 10 for room is placed when there is room. -/
def execWriteBufferRoom (c : Nat) (s : State) : Out :=
  guardUnit s (ctxOk c)
    (match s.ctx? c with
     | none => s
     | some x =>
       if x.stage = 10 ∧ x.wait = 5 ∧ !x.committed ∧ !s.flt.safe then
         s.placeBlocks c (s.writeNs c x) (if x.opc = opCopy then x.readData else x.wdata)
       else s)

/-! Completion (stage 14). -/

/-- Is a unit still waiting to become durable? -/
def State.undurableUnit (s : State) (k : Nat) : Bool :=
  match s.lineAt k with
  | some l => !l.durable && !l.bad
  | none => false

/-- An earlier command of the same ordered queue has not posted yet (R113). -/
def State.orderedUnposted (s : State) (x : Ctx) : Bool :=
  x.ordered && tany s.cmd.ctxs (fun _ y => y.ordered && y.dq == x.dq && decide (y.fseq < x.fseq))

/-- May the completion leave: no safe state, no CFS, no held TLPs, a FUA write durable (R116)? -/
def State.mayPost (s : State) (x : Ctx) : Bool :=
  x.committed && x.stage == 14 && !s.flt.safe && !(s.ctrl (ctrlKey x.port x.slice)).cfs && !(s.port x.port).tlpHeld
    && !s.orderedUnposted x && !(x.fua && !s.holdup && x.placed.any s.undurableUnit)

/-- Interrupt coalescing of a vector (FID 08h, 09h): its threshold, unless the vector disables it. -/
def Ctrl.coalThr (k : Ctrl) (v : Nat) : Nat := if bitAt (tgetD k.vecCfg v 0) 16 then 0 else k.coal % 256

/-- The interrupt of a completion queue: at once, or gathered (FID 08h); admin queues are not gathered. -/
def State.cqIrq (s : State) (k : Nat) : State :=
  let q := s.queue k
  if !q.ien then s
  else
    let thr := (s.ctrl (ctrlKey q.port q.slice)).coalThr q.vector
    if q.qid != 0 && thr != 0 && decide (q.coal + 1 ≤ thr) then s.setQueue k { q with coal := q.coal + 1 }
    else (s.setQueue k { q with coal := 0 }).sendIrq q.port q.slice q.vector

/-- Is a completion queue full? -/
def Queue.cqFull (q : Queue) : Bool := q.cqSize == 0 || (q.cqTail + 1) % q.cqSize == q.cqHead

/-- The completion entry, then the interrupt; the context is free (R97, R80). -/
def State.postCqe (s : State) (c k : Nat) (x : Ctx) : State :=
  let q := s.queue k
  let sq := s.queue x.dq
  let o := x.outc.getD {}
  let e : Cqe := { dq := k, slot := q.cqTail, sqid := x.sqid, sqhd := sq.head, cid := x.cid, dw0 := o.dw0, dw1 := o.dw1
                   sv := o.sv, phase := q.phase, pasid := s.dmaPasid x.port x.slice }
  let s1 := s.postData c (if o.sv.st = .success ∨ o.sv.st = .outputLimit then x.out else .none)
  let s2 := { s1 with host := { s1.host with cqes := s1.host.cqes ++ [e] } }
  let t := (q.cqTail + 1) % q.cqSize
  let s3 := s2.setQueue k { q with cqTail := t, phase := if t = 0 then !q.phase else q.phase, posted := (q.posted + 1) % 2 ^ 64 }
  let s5 := s3.modSli x.slice (fun y => { y with stat := { y.stat with completed := y.stat.completed + 1 } })
  (s5.freeCtx c).cqIrq k

/-- COMPLETION_POST (R96, R98): the entry is posted when its CQ has room. -/
def execCompletionPost (c : Nat) (s : State) : Out :=
  guardUnit s (ctxOk c)
    (match s.ctx? c with
     | none => s
     | some x =>
       if s.mayPost x && !s.mic.halted.contains c then
         match s.cqOf (s.queue x.dq) with
         | none => s
         | some k => if (s.queue k).cqFull then s.setCtx c { x with wait := 7 } else (s.postCqe c k x).tryActivate
       else s)

/-- INTERRUPT_COALESCING_TIME (FID 08h): the gathered completions of a queue are signalled. -/
def execInterruptCoalescingTime (dq : Nat) (s : State) : Out :=
  guardUnit s (dqOk dq)
    (let q := s.queue dq
     if q.cqOn ∧ 0 < q.coal then (s.setQueue dq { q with coal := 0 }).sendIrq q.port q.slice q.vector else s)

/-! Ordered queues (R112, R114). -/

/-- Why CMD_OQ_CFG is refused (R112). -/
def State.oqRefused (s : State) (k : Nat) (en : Bool) (slice sqid : Nat) : Bool :=
  let o := s.oq k
  let sqExists (sl q : Nat) : Bool := tany s.cmd.queues (fun _ x => x.sqOn && x.slice == sl && x.qid == q)
  if en then
    !(s.tmpl slice).ordered || s.sliceGone slice || sqid = 0 || 1535 < sqid || sqExists slice sqid
      || tany s.cmd.oqs (fun j x => j != k && x.en && x.slice == slice && x.sqid == sqid)
      || (o.en && sqExists o.slice o.sqid && (o.slice != slice || o.sqid != sqid))
  else (o.en && sqExists o.slice o.sqid) || s.sliceGone slice || sqid = 0 || 1535 < sqid

/-- A write of CMD_OQ_CFG. -/
def State.oqWrite (s : State) (k : Nat) (en : Bool) (slice sqid : Nat) : State :=
  let o := s.oq k
  if s.oqRefused k en slice sqid then s.setOq k { o with cfgAct := wsNow false }
  else s.setOq k { en := en, slice := slice, sqid := sqid, cfgAct := wsNow true, halts := if en && o.en then o.halts else 0 }

/-- OQ_CONFIG. -/
def execOqConfig (oq en slice sqid : Nat) (s : State) : Out :=
  guardUnit s (decide (oq < 64)) (s.oqWrite oq (en % 2 == 1) (slice % 2048) (sqid % 65536))

/-- SPG_OQ_RESUME (R114, R137): a halted ordered queue of the slice resumes at its first unfetched slot. -/
def State.oqResumeWrite (s : State) (port slice sqid : Nat) : State :=
  let k := ctrlKey port slice
  match tfind s.cmd.oqs (fun _ o => o.en && o.halted && o.slice == slice && o.sqid == sqid) with
  | none => s.modCtrl k (fun c => { c with resumeAct := wsNow false, resumeSqid := sqid })
  | some j => (s.setOq j { (s.oq j) with halted := false }).modCtrl k (fun c => { c with resumeAct := wsNow true, resumeSqid := sqid })

/-- OQ_RESUME. -/
def execOqResume (port slice sqid : Nat) (s : State) : Out :=
  guardUnit s (portSliceOk port slice) (if s.liveOn port slice && !s.flt.safe then s.oqResumeWrite port slice (sqid % 65536) else s)

end Sys2Proof.Machine
end

