-- ==== Sys2Proof/Machine/IoRows.lean ====
section
/-! DEFINITION. The I/O commands up to their wait for commit (04 R99, R109, R115, R118, R131; 05 R152 to R156, R164, R166). -/

namespace Sys2Proof.Machine

/-! Shared checks. -/

/-- LBAs of an entry: NLB is 0-based. -/
def Ctx.count (x : Ctx) : Nat := x.nlb + 1

/-- A data command moves at most 2 MiB (MDTS 9, R115). -/
def mdtsErr (x : Ctx) : Option St := if 512 < x.count then some .invalidField else none

/-- Why a range of a conventional namespace cannot be written. -/
def State.convWriteErr (s : State) (n lo cnt : Nat) : Option St :=
  if (s.ns n).nsze < lo + cnt then some .lbaRange else if s.nsReadOnly n then some .writeRo else none

/-- The write-kind range of a conventional command, then stage 7. -/
def State.lockWrite (s : State) (c n lo cnt nxt : Nat) : State :=
  match s.convWriteErr n lo cnt with
  | some e => s.endErr c e
  | none => ((s.countLookups cnt).modCtx c (fun y => { y with lockW := some { ns := n, lo := lo, hi := lo + cnt - 1 } })).enterLock c nxt

/-- A zone reservation at stage 6, then stage 7. -/
def State.lockZone (s : State) (c n z : Nat) (off : Option Nat) (len nxt : Nat) : State :=
  let s1 := s.reserve c n z off len
  if s1.at6 c then s1.enterLock c nxt else s1

/-! Write, Zone Append. -/

/-- Stage 6 of a Write. -/
def State.writeStage6 (s : State) (c : Nat) : State :=
  let x := s.ctx c
  if (s.ns x.nsid).zoned then
    if (s.ns x.nsid).nsze < x.slba + x.count then s.endErr c .lbaRange
    else s.lockZone c x.nsid (s.zoneOf x.nsid (sqeSlba x.sqe)) (some (s.zoneOff x.nsid (sqeSlba x.sqe))) x.count 8
  else s.lockWrite c x.nsid x.slba x.count 8

/-- Stage-3 checks of a Write (R242, R115). -/
def writeErr3 (x : Ctx) : Option St :=
  if x.sqe.cdw3.toNat % 4096 != 0 then some .invalidField else mdtsErr x

/-- WRITE. -/
def execWrite (c : Nat) (s : State) : Out :=
  guardUnit s (ctxOk c) (if s.rowTurn c opWrite then
    s.enterRow c (writeErr3 (s.ctx c)) true (fun t => t.writeStage6 c)
  else s)

/-- Stage-3 checks of a Zone Append: its address is a zone's first LBA (ZASL 9, R168). -/
def State.appendErr3 (s : State) (x : Ctx) : Option St :=
  if s.zoneOff x.nsid x.slba != 0 && !(x.resv.isSome) then some .invalidField else mdtsErr x

/-- Stage 6 of a Zone Append. -/
def State.appendStage6 (s : State) (c : Nat) : State :=
  let x := s.ctx c
  if (s.ns x.nsid).nsze ≤ sqeSlba x.sqe then s.endErr c .lbaRange
  else s.lockZone c x.nsid (s.zoneOf x.nsid (sqeSlba x.sqe)) none x.count 8

/-- ZONE_APPEND. -/
def execZoneAppend (c : Nat) (s : State) : Out :=
  guardUnit s (ctxOk c) (if s.rowTurn c opAppend then
    s.enterRow c (s.appendErr3 (s.ctx c)) true (fun t => t.appendStage6 c)
  else s)

/-! Reads. -/

/-- May a Read name the route (R242)? -/
def routedOk (r : RouteSlot) : Bool :=
  !r.dir && !r.jobOnly && (r.stages.map stageKind).getLast? == some kHost
    && r.stages.all (fun w => stageKind w == kHead || stageKind w == kHost || stageKind w == kWeave
      || (stageKind w == kDecompress && [0, 1, 2, 4, 5].contains (stageParam w)))

/-- Stage-3 checks of a Read: its route (R29, R242), its length. -/
def State.readErr3 (s : State) (x : Ctx) : Option St :=
  let d := x.sqe.cdw3.toNat
  let r := s.route x.route
  if d / 2 ^ 12 % 16 != 0 || d / 2 ^ 20 != 0 || decide (10 < d / 65536 % 16) then some .invalidField
  else if x.route = 0 then mdtsErr x
  else if r.state = .free ∨ r.state = .draining then some .routeNotBound
  else if !routedOk r || decide (2 ^ 21 < routedLimit x) then some .invalidField
  else none

/-- Stage 6 of a command that reads its own range, with the range as read-kind range. -/
def State.readStage6 (s : State) (c nxt : Nat) : State :=
  let x := s.ctx c
  if (s.ns x.nsid).nsze < x.slba + x.count then s.endErr c .lbaRange
  else
    let s1 := s.translateReads c (lbasOf x.slba x.count)
    if s1.at6 c then
      (s1.modCtx c (fun y => { y with lockR := some { ns := x.nsid, lo := x.slba, hi := x.slba + x.count - 1 } })).enterLock c nxt
    else s1

/-- READ: a read that continues a sequence advances its comet stream (R104). -/
def execRead (c : Nat) (s : State) : Out :=
  guardUnit s (ctxOk c) (if s.rowTurn c opRead then
    let x := s.ctx c
    let s1 := s.enterRow c (s.readErr3 x) false (fun t => t.readStage6 c 8)
    if x.stage = 3 && decide (6 ≤ (s1.ctx c).stage) && decide ((s1.ctx c).stage < 13) then s1.cometSee x.slice x.nsid x.slba x.count else s1
  else s)

/-- COMPARE. -/
def execCompare (c : Nat) (s : State) : Out :=
  guardUnit s (ctxOk c) (if s.rowTurn c opCompare then s.enterRow c (mdtsErr (s.ctx c)) false (fun t => t.readStage6 c 8) else s)

/-- VERIFY_COMMAND: no data moves to the host, so MDTS sets no limit. -/
def execVerifyCommand (c : Nat) (s : State) : Out :=
  guardUnit s (ctxOk c) (if s.rowTurn c opVerify then s.enterRow c none false (fun t => t.readStage6 c 8) else s)

/-! Copy. -/

/-- Stage-3 checks of Copy: descriptor format 0, up to 128 ranges, read as the entry says. -/
def copyErr3 (x : Ctx) (r : Option (List LbaRange)) : Option St :=
  if x.sqe.cdw12.toNat / 256 % 16 != 0 || 128 < x.sqe.cdw12.toNat % 256 + 1 then some .invalidField
  else match r with
    | none => some .dataXfer
    | some l => if l.length != x.sqe.cdw12.toNat % 256 + 1 || l.any (fun e => e.nlb == 0) then some .invalidField else none

/-- Stage 6 of Copy: sources as reads, destination as a write. -/
def State.copyStage6 (s : State) (c : Nat) : State :=
  let x := s.ctx c
  let n := x.nsid
  let lbas := rangeLbas x.ranges
  if x.ranges.any (fun r => decide ((s.ns n).nsze < r.slba + r.nlb)) then s.endErr c .lbaRange
  else
    let s1 := s.translateReads c lbas
    if s1.at6 c then
      let s2 := s1.modCtx c (fun y => { y with lockR := hull n x.ranges })
      let dst := sqeSlba x.sqe
      if (s.ns n).zoned then
        if (s.ns n).nsze < dst + lbas.length then s2.endErr c .lbaRange
        else s2.lockZone c n (s.zoneOf n dst) (some (s.zoneOff n dst)) lbas.length 8
      else s2.lockWrite c n dst lbas.length 8
    else s1

/-- COPY. -/
def execCopy (c : Nat) (ranges : Option (List LbaRange)) (s : State) : Out :=
  guardUnit s (ctxOk c) (if s.rowTurn c opCopy then
    let x := s.ctx c
    let s1 := if x.stage = 3 then s.setCtx c { x with ranges := ranges.getD [] } else s
    s1.enterRow c (copyErr3 x ranges) true (fun t => t.copyStage6 c)
  else s)

/-! Commands without data movement: after stage 7 they wait at stage 13. -/

/-- The outcome that waits for the commit. -/
def State.ready13 (s : State) (c : Nat) : State :=
  if (s.ctx c).stage = 8 then s.modCtx c (fun y => { y with stage := 13, outc := some (okOut 0) }) else s

/-- WRITE_UNCORRECTABLE. -/
def execWriteUncorrectable (c : Nat) (s : State) : Out :=
  guardUnit s (ctxOk c) (if s.rowTurn c opWriteUnc then
    s.enterRow c none true (fun t => (t.lockWrite c (t.ctx c).nsid (t.ctx c).slba (t.ctx c).count 8).ready13 c)
  else s)

/-- WRITE_ZEROES. -/
def execWriteZeroes (c : Nat) (s : State) : Out :=
  guardUnit s (ctxOk c) (if s.rowTurn c opWriteZeroes then
    s.enterRow c none true (fun t => (t.lockWrite c (t.ctx c).nsid (t.ctx c).slba (t.ctx c).count 8).ready13 c)
  else s)

/-- Stage-3 checks of Dataset Management: its list, with the count of CDW10. -/
def dsmErr3 (x : Ctx) (r : Option (List LbaRange)) : Option St :=
  match r with
  | none => some .dataXfer
  | some l => if l.length != x.sqe.cdw10.toNat % 256 + 1 then some .invalidField else none

/-- Stage 6 of Dataset Management: without Deallocate it has no effect. -/
def State.dsmStage6 (s : State) (c : Nat) : State :=
  let x := s.ctx c
  let n := x.nsid
  if x.ranges.any (fun r => decide ((s.ns n).nsze < r.slba + r.nlb)) then s.endErr c .lbaRange
  else if !bitAt x.sqe.cdw11.toNat 2 then s.modCtx c (fun y => { y with stage := 13, outc := some (okOut 0) })
  else if s.nsReadOnly n then s.endErr c .writeRo
  else (((s.countLookups (rangeLbas x.ranges).length).modCtx c (fun y => { y with lockW := hull n x.ranges })).enterLock c 8).ready13 c

/-- DATASET_MANAGEMENT (DESIGN CHOICE, log 59). -/
def execDatasetManagement (c : Nat) (ranges : Option (List LbaRange)) (s : State) : Out :=
  guardUnit s (ctxOk c) (if s.rowTurn c opDsm then
    let x := s.ctx c
    let s1 := if x.stage = 3 then s.setCtx c { x with ranges := ranges.getD [] } else s
    s1.enterRow c (dsmErr3 x ranges) (bitAt x.sqe.cdw11.toNat 2) (fun t => t.dsmStage6 c)
  else s)

/-! Flush (R118, R119). -/

/-- The namespaces a Flush covers. -/
def State.flushNs (s : State) (x : Ctx) : List Nat :=
  if x.nsid = 0xFFFFFFFF then (s.zon.nss.filter (fun e => e.2.attached.contains (cntlid x.port x.slice))).map (·.1) else [x.nsid]

/-- What it must make durable: committed data of those namespaces that is not durable yet; nothing in hold-up mode. A set
without a die to land on makes it wait for its bay: Namespace Not Ready (R158). -/
def State.flushStage6 (s : State) (c : Nat) : State :=
  let x := s.ctx c
  let l := s.flushNs x
  let us := if s.holdup then [] else s.undurable (fun e => l.contains e.ns)
  if us.any (fun k => (s.landDies (s.unitSet k)).isEmpty) then s.endErr c .nsNotReady
  else (s.landUnits .flush us).modCtx c (fun y => { y with stage := 13, flushSet := us, outc := some (okOut 0) })

/-- FLUSH. -/
def execFlush (c : Nat) (s : State) : Out :=
  guardUnit s (ctxOk c) (if s.rowTurn c opFlush then
    if (s.ctx c).stage = 3 then s.admitCmd c ((s.flushNs (s.ctx c)).map (fun n => (n, false))) (fun t => t.flushStage6 c)
    else s.flushStage6 c
  else s)

/-! Zone Management Send (R156). -/

/-- The zones an action with Select All takes (R156): Open the Closed ones, every other action those whose state it accepts. -/
def selAccepts (act : Nat) (z : ZState) : Bool :=
  if act = 3 then z == .closed else actionAccepts act z

/-- Why an action on one zone is refused at stage 6. -/
def State.zoneActErr (s : State) (n e act : Nat) : Option St :=
  let z := (s.proj e).state
  if actionAccepts act z then none
  else if z = .readOnly ∧ act = 4 then some (if s.nsReadOnly n then .writeRo else .zoneRo)
  else some .zoneTransition

/-- The limits of R151 for an explicit Open of a list of zones: each in turn against the projection it leaves. -/
def State.openAll (s : State) (n slice act : Nat) : List Nat → Option St
  | [] => none
  | e :: t =>
    match s.openCheck n e false with
    | .error er => some er
    | .ok _ => (s.setProj e (projAction act slice (s.zcap e) (s.proj e))).openAll n slice act t

/-- The write-kind range of Reset and Finish (R156). -/
def State.zoneLock (s : State) (n act : Nat) (all : Bool) (lba : Nat) : Option Rng :=
  if act = 2 ∨ act = 4 then
    if all then some { ns := n, lo := 0, hi := (s.ns n).nsze - 1 }
    else some { ns := n, lo := lba, hi := lba + s.zsze n - 1 }
  else none

/-- Stage 6 and 7 of an action. The namespace's dies: a zone of absent dies still takes its action (R159). -/
def State.zoneStage6 (s : State) (c act : Nat) : State :=
  let x := s.ctx c
  let n := x.nsid
  let all := bitAt x.sqe.cdw13.toNat 8
  let lba := sqeSlba x.sqe
  let e := s.zoneEnt n (s.zoneOf n lba)
  if !all && decide ((s.ns n).nsze ≤ lba) then s.endErr c .lbaRange
  else if !all && s.zoneOff n lba != 0 then s.endErr c .invalidField
  else
    let s0 := (if all then s.nsEnts n else [e]).foldl (fun t k => t.rebuildProj k x.fseq) s
    let ents := if all then (s0.nsEnts n).filter (fun k => selAccepts act (s0.proj k).state) else [e]
    match if all then none else s0.zoneActErr n e act with
    | some er => s.endErr c er
    | none =>
      match if act = 3 then s0.openAll n x.slice act ents else none with
      | some er => s.endErr c er
      | none =>
        let s2 := s.modCtx c (fun y => { y with zents := ents, zgens := ents.map (fun k => (k, (s.zent k).gen)), zact := act, tgen := (s.zent e).gen
                                                lockW := s.zoneLock n act all lba })
        let s3 := ents.foldl (fun t k => t.reproject k) s2
        (s3.enterLock c 8).ready13 c

/-- Does a Zone Management Send carry the action? -/
def State.isZoneAct (s : State) (c act : Nat) : Bool := s.rowTurn c opZoneSend && (s.ctx c).sqe.cdw13.toNat % 256 == act

/-- A row of Zone Management Send; a command released from stage 7 keeps its part of the projection. -/
def State.zoneRow (s : State) (c act : Nat) : State :=
  if s.isZoneAct c act then
    if (s.ctx c).stage = 6 ∧ !(s.ctx c).zents.isEmpty then
      ((s.modCtx c (fun y => { y with zgens := y.zents.map (fun k => (k, (s.zent k).gen)) })).enterLock c 8).ready13 c
    else s.enterRow c none true (fun t => t.zoneStage6 c act)
  else s

/-- ZONE_CLOSE. -/
def execZoneClose (c : Nat) (s : State) : Out := guardUnit s (ctxOk c) (s.zoneRow c 1)
/-- ZONE_FINISH. -/
def execZoneFinish (c : Nat) (s : State) : Out := guardUnit s (ctxOk c) (s.zoneRow c 2)
/-- ZONE_OPEN. -/
def execZoneOpen (c : Nat) (s : State) : Out := guardUnit s (ctxOk c) (s.zoneRow c 3)
/-- ZONE_RESET. -/
def execZoneReset (c : Nat) (s : State) : Out := guardUnit s (ctxOk c) (s.zoneRow c 4)
/-- ZONE_OFFLINE. -/
def execZoneOffline (c : Nat) (s : State) : Out := guardUnit s (ctxOk c) (s.zoneRow c 5)

/-! Zone Management Receive: Report Zones (the Zoned Namespace Command Set gives the descriptor). -/

/-- State code of Table 5-2. -/
def ZState.code : ZState → Nat
  | .none => 0
  | .empty => 1
  | .implicit => 2
  | .explicit => 3
  | .closed => 4
  | .readOnly => 0xD
  | .full => 0xE
  | .offline => 0xF

/-- The state a Reporting Options value selects: 0 all, 1 to 7 as the command set lists them. -/
def reportOf (v : Nat) : Option ZState :=
  if v = 1 then some .empty else if v = 2 then some .implicit else if v = 3 then some .explicit else if v = 4 then some .closed
  else if v = 5 then some .full else if v = 6 then some .readOnly else if v = 7 then some .offline else none

/-- The zones a report lists. -/
def State.reportZones (s : State) (n z0 opt : Nat) : List Nat :=
  (List.range (s.zoneCount n)).filter (fun z => decide (z0 ≤ z) && (opt == 0 || some (s.zent (s.zoneEnt n z)).state == reportOf opt))

/-- One 64-byte descriptor at place `i`: type, state, attributes (ZFC, FZR, RZR), ZCAP, ZSLBA, WP (all ones for Full) (PRESUMED, log 40). -/
def State.zoneDesc (s : State) (n i z : Nat) : List (Nat × Nat × Nat) :=
  let e := s.zoneEnt n z
  let v := s.zent e
  let o := 64 + 64 * i
  [(o, 1, 2), (o + 1, 1, v.state.code * 16), (o + 2, 1, v.zfc.toNat + 2 * v.fzr.toNat + 4 * v.rzr.toNat),
   (o + 8, 8, s.zcap e), (o + 16, 8, z * s.zsze n),
   (o + 24, 8, if v.state = .full ∨ v.state = .readOnly ∨ v.state = .offline then 2 ^ 64 - 1 else z * s.zsze n + v.wp)]

/-- A Report Zones page of `len` bytes. -/
def State.reportPage (s : State) (n : Nat) (q : Sqe) : OutData :=
  let len := (q.cdw12.toNat + 1) * 4
  let opt := q.cdw13.toNat / 256 % 256
  let l := s.reportZones n (s.zoneOf n (sqeSlba q)) opt
  let fit := (len - 64) / 64
  let shown := l.take fit
  .page len ((0, 8, if bitAt q.cdw13.toNat 16 then shown.length else l.length)
    :: ((List.range shown.length).flatMap (fun i => s.zoneDesc n i (shown.getD i 0))))

/-- Stage-3 checks of Zone Management Receive: Report Zones with an option of the command set. -/
def zmrErr3 (q : Sqe) : Option St :=
  if q.cdw13.toNat % 256 != 0 || 7 < q.cdw13.toNat / 256 % 256 then some .invalidField else none

/-- ZONE_MANAGEMENT_RECEIVE. -/
def execZoneManagementReceive (c : Nat) (s : State) : Out :=
  guardUnit s (ctxOk c) (if s.rowTurn c opZoneRecv then
    s.enterRow c (zmrErr3 (s.ctx c).sqe) false (fun t =>
      let x := t.ctx c
      if (t.ns x.nsid).nsze ≤ sqeSlba x.sqe then t.endErr c .lbaRange
      else t.modCtx c (fun y => { y with stage := 13, outc := some (okOut 0), out := t.reportPage x.nsid x.sqe }))
  else s)

/-! I/O Management (R166). -/

/-- LBAs that a handle's reclaim unit may still take (0 units open: a whole row). -/
def State.ruLeft (s : State) (n rg h : Nat) : Nat :=
  match s.convOpenRow n rg h with
  | some rk => s.rowUnits (rkTmpl rk) (tval s.med.use rk : RowUse).mode - (tval s.med.use rk : RowUse).next + (tval s.med.use rk : RowUse).holes.length
  | none =>
    match classTmpls s.pat.eff (s.nsCls n) with
    | [] => 0
    | t :: _ => s.rowUnits t.id (s.nsCls n).mode

/-- Reclaim groups, and the bits of a placement identifier below its reclaim group (Table 5-6). -/
def State.reclaimGroups (s : State) : Nat := match s.pat.eff.ns with | none => 0 | some m => m.fdpRg
def State.phBits (s : State) : Nat := 16 - Nat.log2 (max 1 (2 * s.reclaimGroups - 1))

/-- Reclaim Unit Handle Status: per reclaim group and placement handle its descriptor (NVMe Base 2.1). -/
def State.ruhPage (s : State) (n : Nat) (q : Sqe) : OutData :=
  let hs := (s.ns n).handles
  let l := (List.range s.reclaimGroups).flatMap (fun g => (List.range hs.length).map (fun i => (g, i)))
  .page ((q.cdw11.toNat + 1) * 4) ((14, 2, l.length) :: (l.mapIdx (fun i e =>
    [(16 + 32 * i, 2, e.1 * 2 ^ s.phBits + e.2), (16 + 32 * i + 2, 2, hs.getD e.2 0), (16 + 32 * i + 8, 8, s.ruLeft n e.1 (hs.getD e.2 0))])).flatten)

/-- Is FDP enabled on the namespace's endurance group? -/
def State.fdpOn (s : State) (n : Nat) : Bool := (tval s.zon.fdp (s.nsCls n).set : Fdp).enabled

/-- IO_MANAGEMENT_RECEIVE: management operation 1, Reclaim Unit Handle Status. -/
def execIoManagementReceive (c : Nat) (s : State) : Out :=
  guardUnit s (ctxOk c) (if s.rowTurn c opIoMgmtRecv then
    let x := s.ctx c
    s.enterRow c (if x.sqe.cdw10.toNat % 256 != 1 || !s.fdpOn x.nsid then some .invalidField else none) false (fun t =>
      t.modCtx c (fun y => { y with stage := 13, outc := some (okOut 0), out := t.ruhPage x.nsid x.sqe }))
  else s)

/-- Stage-3 checks of I/O Management Send: operation 1, Reclaim Unit Handle Update, and its list of placement identifiers. -/
def State.ioSendErr3 (s : State) (x : Ctx) (pids : Option (List Nat)) : Option St :=
  if x.sqe.cdw10.toNat % 256 != 1 || !s.fdpOn x.nsid then some .invalidField
  else match pids with
    | none => some .dataXfer
    | some l => if l.length != x.sqe.cdw10.toNat / 65536 + 1 || !(l.all (fun p => (s.placement x.nsid 2 p).2.2)) then some .invalidField else none

/-- IO_MANAGEMENT_SEND. -/
def execIoManagementSend (c : Nat) (pids : Option (List Nat)) (s : State) : Out :=
  guardUnit s (ctxOk c) (if s.rowTurn c opIoMgmtSend then
    let x := s.ctx c
    s.enterRow c (s.ioSendErr3 x pids) true (fun t =>
      t.modCtx c (fun y => { y with stage := 13, outc := some (okOut 0), phids := pids.getD [] }))
  else s)

end Sys2Proof.Machine
end

