-- ==== Sys2Proof/Machine/SliceOps.lean ====
section
/-! DEFINITION. Shared operations of slices: mailbox delivery, sessions and keys, namespace deletion, resets of controllers and
slices, and the link loss that resets a port (10 R315 to R335, 03 R86, 04 Table 4-8). -/

namespace Sys2Proof.Machine

/-! Mailboxes (R316, R318). -/

/-- The interrupt of a slice's mailbox: its store entry behind the I/O queues (R309), or MB_VECTOR for the manager. -/
def State.mailboxIrq (s : State) (sl : Nat) : State :=
  if sl = 0 then s.managerIrq s.sec.mbVector else s.sendIrq (s.slc sl).port sl (min (s.tmpl sl).qpairs 1022 + 1)

/-- A message goes to a slice's out area, or waits behind the one there. -/
def State.deliver (s : State) (sl : Nat) (m : MbMsg) : State :=
  let q := s.slc sl
  match q.mbOut with
  | none => (s.setSli sl { q with mbOut := some m }).mailboxIrq sl
  | some _ => s.setSli sl { q with mbQueue := q.mbQueue ++ [m] }

/-- A relay finds its destination's queue full (R318): 16 places for a tenant, 256 for slice 0. -/
def State.mbFull (s : State) (sl : Nat) : Bool :=
  (if sl = 0 then 256 else 16) ≤ ((s.slc sl).mbQueue.filter (fun m => !m.reply && !m.unsol)).length

/-- The Z9's reply to a request of slice `sl`. -/
def State.mbReply (s : State) (sl : Nat) (m : MbMsg) (status : Nat) (payload : List Byte) : State :=
  s.deliver sl { m with reply := true, unsol := false, status := status, payload := payload, len := payload.length }

/-- The payload of a SHARE_QUERY reply. -/
def State.sharePayload (s : State) (sl : Nat) : List Byte :=
  let q := s.slc sl
  leBytes 4 q.template ++ leBytes 4 q.shares.mediaW ++ leBytes 4 q.shares.computeW ++ leBytes 4 q.shares.inflight
    ++ leBytes 4 q.shares.specMib ++ leBytes 4 q.shares.comet ++ leBytes 8 q.effEpoch

/-- An unsolicited message (R317). -/
def State.mbNote (s : State) (sl typ : Nat) (payload : List Byte) : State :=
  s.deliver sl { typ := typ, unsol := true, payload := payload, len := payload.length }

/-! Sessions and keys (R328 to R332). -/

/-- End every session that passes a test (DEDUCED, log 126). -/
def State.endSessions (s : State) (p : Session → Bool) : State :=
  { s with sec := { s.sec with sessions := tfilter s.sec.sessions (fun _ x => !p x) } }

/-- Does a session belong to a slice's controllers? -/
def Session.ofSlice (x : Session) (sl : Nat) : Bool := match x.who with | .ctrl k _ => k == sl | .mctp _ => false

def State.key (s : State) (k : Nat) : KeySlot := tval s.sec.keys k
def State.setKeySlot (s : State) (k : Nat) (v : KeySlot) : State := { s with sec := { s.sec with keys := tset s.sec.keys k v } }

/-- SEC_KEY index of a slice's key. -/
def sliceKey (sl : Nat) : Nat := 16 + sl

/-- A key changes: its sessions close (R329, R332). -/
def State.changeKey (s : State) (k : Nat) (v : List Byte) : State :=
  (s.setKeySlot k { (s.key k) with key := v }).endSessions (fun x => x.key == k)

/-! Waiting commands that end. -/

/-- Forget a context as the waiter of a change that waits. -/
def dropW (c : Nat) (w : Option Waiter) : Option Waiter := if w = some (.ctx c) then none else w

def State.forget (s : State) (c : Nat) : State :=
  { s with
    zon := { s.zon with nss := tmap s.zon.nss (fun _ n => { n with release := dropW c n.release, takeover := dropW c n.takeover }) }
    cpx := { s.cpx with allocs := tmap s.cpx.allocs (fun _ a => { a with waiter := if a.waiter = some c then none else a.waiter }) }
    sli := tmap s.sli (fun _ q => { q with resets := tmap q.resets (fun _ r => { r with waiter := dropW c r.waiter }) })
    fwu := { s.fwu with activating := match s.fwu.activating with | some e => if e.1 = .ctx c then none else some e | none => none }
    pat := { s.pat with reload := { s.pat.reload with waiter := dropW c s.pat.reload.waiter } }
    cmd := { s.cmd with ctrls := tmap s.cmd.ctrls (fun _ k => { k with aers := removeNat k.aers c })
                        activationPause := s.cmd.activationPause && !(match s.fwu.activating with | some e => e.1 == .ctx c | none => false) } }

/-- A power-state entry that is given up: its controller asks for what it asked for before, and floors follow (R128, R383). -/
def State.entryBack (s : State) (e : PsEntry) : State :=
  (({ s with pwr := { s.pwr with entry := none } }).modCtrl e.ctrl (fun k => { k with psReq := e.prev })).liftFloors

/-- A waiter goes. -/
def State.dropWaiter (s : State) (c : Nat) : State :=
  let s1 := s.forget c
  match s.pwr.entry with
  | some e => if e.waiter = .ctx c then s1.entryBack e else s1
  | none => s1

/-! Namespaces that go (05 R146, 10 R326, R335). -/

/-- Commands admitted on a namespace that are not committed. -/
def State.admittedOn (s : State) (n : Nat) : Bool :=
  tany s.cmd.ctxs (fun c x => x.open && !x.admin && (x.nsid == n || s.writeNs c x == n) && decide (6 ≤ x.stage))

/-- A media key slot is discarded; a class slot only with its last namespace. -/
def State.dropKeySlot (s : State) (n : Nat) : State :=
  let x := s.ns n
  let shared := tget s.sec.classKey x.cls == some x.keySlot
  let others := s.zon.nss.any (fun e => e.1 != n && e.2.keySlot == x.keySlot)
  if x.keySlot = 0 || (shared && others) then s
  else { s with sec := { s.sec with slots := tdel s.sec.slots x.keySlot, discards := s.sec.discards + 1
                                    classKey := if shared then tdel s.sec.classKey x.cls else s.sec.classKey } }

/-- The rows of a namespace are returned for erase. -/
def State.dropNsRows (s : State) (n : Nat) : State :=
  ((s.med.use.filter (fun e => e.2.ns == n)).map (·.1)).foldl (fun t rk => t.returnRows (rkTmpl rk) (rkBlock rk) 1) s

/-- Every relocation of a namespace is cancelled (Table 7-3). -/
def State.dropNsRelocs (s : State) (n : Nat) : State := (s.relocsOf (fun r => r.ns == n)).foldl (fun t id => t.relocCancel id) s

/-- A deleted namespace: relocations, rows, zone table extents, map entries and its key go; the change is reported. -/
def State.deleteNs (s : State) (n : Nat) : State :=
  let x := s.ns n
  let s1 := ((s.dropNsRelocs n).dropKeySlot n).dropNsRows n
  let s2 := s1.cometCancel n 0 x.nsze
  let s3 := { s2 with zon := { s2.zon with
      ents := tfilter s2.zon.ents (fun e _ => !(x.zoned && x.extents.contains (e / 1024)))
      proj := tfilter s2.zon.proj (fun e _ => !(x.zoned && x.extents.contains (e / 1024)))
      extOwner := tfilter s2.zon.extOwner (fun e _ => !x.extents.contains e)
      map := tfilter s2.zon.map (fun k _ => k / 2 ^ 64 != n)
      nss := tdel s2.zon.nss n } }
  let s4 := { s3 with cmd := { s3.cmd with streams := tfilter s3.cmd.streams (fun _ e => e.ns != n), cands := s3.cmd.cands.filter (fun e => e.ns != n) } }
  s4.noteNs n x.slices

/-! Commits outside the pipeline's own order. -/

/-- Is a write fully received: its data in the write buffer (R125)? -/
def Ctx.fullyReceived (x : Ctx) : Bool := x.received && x.stage == 13 && (x.opc == opWrite || x.opc == opAppend || x.opc == opCopy)

/-- May a received write commit now? -/
def State.canCommit (s : State) (x : Ctx) : Bool :=
  (s.resvBlocker x).isNone && (s.readBlocker x).isNone && !s.genStale x

/-- A context that a reset ended: it frees when its write has committed. -/
def State.resetCommit (s : State) (c : Nat) : State :=
  let x := s.ctx c
  if s.canCommit x then ((s.commitWrite c x.nsid).fix c).freeCtx c
  else s.setCtx c { x with killed := true, ordered := false }

/-- R101, R122: a command ends with no completion. -/
def State.resetSquash (s : State) (c : Nat) : State := (s.dropWaiter c).squashReset c

/-- Table 10-8 step 2 for a list of contexts in FSEQ order. -/
def State.resetCtxs (s : State) (l : List Nat) : State :=
  let keep := l.filter (fun c => (s.ctx c).fullyReceived && (s.ctx c).outc.isNone)
  let s1 := (l.filter (fun c => !keep.contains c)).foldl (fun t c =>
    if (t.ctx c).committed then (t.dropWaiter c).freeCtx c else t.resetSquash c) s
  (keep.foldl (fun t c => t.resetCommit c) s1).ownProgressAll

/-! Resets (R320 to R325). -/

/-- The contexts of a slice on a port, in FSEQ order. -/
def State.sliceCtxs (s : State) (sl port : Nat) : List Nat :=
  (byFseq (s.cmd.ctxs.filter (fun e => e.2.slice == sl && (sl != 0 || e.2.port == port) && !e.2.killed))).map (·.1)

/-- Zones whose last opening command came from the slice become Closed (Table 5-4). -/
def State.closeZonesOf (s : State) (sl : Nat) : State :=
  s.allEnts.foldl (fun t e =>
    let z := t.zent e
    if z.state.isOpen ∧ z.opener = sl then
      let t1 := t.setZent e { z with state := .closed }
      if (t1.zoneCmds e).isEmpty then t1.delProj e else t1.setProj e (let p := t1.proj e; { p with state := if p.state.isOpen && p.rp == z.wp then .closed else p.state })
    else t) s

/-- The units of a table that a job holds (DEDUCED, log 111). -/
def heldUnits (t : Tbl EngUnit) (c : Nat) (f : Nat → Nat × Nat) : List (Nat × Nat × Nat) :=
  (t.filter (fun e => e.2.busy && e.2.ctx == c)).map (fun e => ((f e.1).1, (f e.1).2, c))

/-- Engines, cores and weaves that a slice's jobs hold, with the job's context: what may still be stale (R321, R323). -/
def State.busyUnits (s : State) (sl port : Nat) : List (Nat × Nat × Nat) :=
  (s.liveJobs.filter (fun c => (s.ctx c).slice == sl && (sl != 0 || (s.ctx c).port == port))).flatMap (fun c =>
    heldUnits s.cpx.cores c (fun k => (islUCC (k / 4), k % 4))
      ++ heldUnits s.cpx.units c (fun k => (islENG (k % 32 / 8), if k < 32 then k % 8 else 8 + k % 8))
      ++ heldUnits s.cpx.index c (fun k => (islENG (k / 4), 16 + k % 4))
      ++ heldUnits s.cpx.sieves c (fun k => (islMCL (k / 4), 12 + k % 4))
      ++ s.wvf.flatMap (fun h => (h.2.busy.filter (fun e => e.2 == c)).map (fun e => (islWVF h.1, e.1, c))))

/-- A unit drops a stale item of a context at its stage boundary: OLD_ITEMS counts down (R321). -/
def State.dropStale (s : State) (c : Nat) : State :=
  match tfind s.sli (fun _ q => q.stale.any (fun e => e.2.2 == c)) with
  | none => s
  | some sl => s.modSli sl (fun q => { q with stale := q.stale.eraseP (fun e => e.2.2 == c), oldItems := q.oldItems - 1 })

/-- Sequencers bound to the slice leave their halt (R114). -/
def State.endHalts (s : State) (sl port : Nat) : State :=
  { s with cmd := { s.cmd with oqs := tmap s.cmd.oqs (fun _ o =>
      if o.slice = sl && (sl != 0 || s.cmd.queues.any (fun q => q.2.slice == sl && q.2.qid == o.sqid && q.2.port == port)) then
        { o with halted := false } else o) } }

/-- Does a slice keep an enabled controller besides the one on `port`: only slice 0 has two (R73)? -/
def State.otherEnabled (s : State) (sl port : Nat) : Bool :=
  sl == 0 && s.portList.any (fun p => p != port && (s.ctrl (ctrlKey p 0)).en)

/-- A reset of one controller of a slice begins (Table 10-8 steps 1 and 2, Table 4-8): SLICE_GEN advances, its contexts commit or
end, zones close, a fetch hold ends. A controller already in a reset stays in it (R325); the two manager controllers of slice 0
reset apart (R68). -/
def State.resetOne (s : State) (sl port : Nat) (isSlice : Bool) (w : Option Waiter) : State :=
  let q := s.slc sl
  if (tget q.resets port).isSome || !s.sliceLive sl then s
  else
    let k := ctrlKey port sl
    let units := s.busyUnits sl port
    let r : ResetRun := { isSlice := isSlice, port := port, started := s.nowMs, waiter := w }
    let s1 := s.setSli sl { q with gen := (q.gen + 1) % 2 ^ 32, resets := tset q.resets port r, hold := false, stale := q.stale ++ units
                                   state := if isSlice then .resetting
                                            else if q.state = .enabled ∧ !s.otherEnabled sl port then .created else q.state
                                   stat := { q.stat with resets := q.stat.resets + 1 } }
    let s2 := s1.modCtrl k (fun c => { c with en := false, resetting := true })
    let s3 := ((s2.resetCtxs (s2.sliceCtxs sl port)).closeZonesOf sl).endHalts sl port
    s3.modSli sl (fun x => { x with oldItems := x.stale.length + tcount s3.cmd.ctxs (fun _ y => y.slice == sl && y.killed) })

/-- A controller reset of every slice on every port. -/
def State.resetAll (s : State) : State :=
  s.portList.foldl (fun t p => (t.sli.map (·.1)).foldl (fun u sl => if u.liveOn p sl then u.resetOne sl p false none else u) t) s

/-- An activation with reset (R453, Table 4-8): slot i runs, and every controller is reset. -/
def State.activateReset (s : State) (i : Nat) : State := (s.runImage i).resetAll

/-- The slot marked NEXT. -/
def State.nextSlot? (s : State) : Option Nat := tfind s.fwu.slots (fun _ x => x.next)

/-- A reset begins. A controller reset of slice 0 on port 0 activates the image marked NEXT (R126), outside the safe state and a
reload that drains (R441) (DEDUCED, log 155). -/
def State.startReset (s : State) (sl port : Nat) (isSlice : Bool) (w : Option Waiter) : State :=
  let s1 := s.resetOne sl port isSlice w
  if sl = 0 && port == 0 && !isSlice && (tget (s.slc 0).resets 0).isNone && !s.flt.safe && !s.reloading then
    match s.nextSlot? with
    | some i => s1.activateReset i
    | none => s1
  else s1

/-- A slice's compute memory and programs are freed (Table 10-9, R245, R274). -/
def State.freeSliceMem (s : State) (sl : Nat) : State :=
  let l := s.cpx.allocs.filter (fun e => e.1 / 65536 == sl)
  let s1 := l.foldl (fun t e => t.freeAll e.2.frames) s
  { s1 with cpx := { s1.cpx with allocs := tfilter s1.cpx.allocs (fun k _ => k / 65536 != sl), loads := tdel s1.cpx.loads sl }
            ports := tmap s1.ports (fun _ p => { p with bar2 := tmap p.bar2 (fun _ b => if b.slice = sl then { b with en := false } else b) }) }

/-- The queues of a slice on a port are deleted and its interrupts stop. -/
def State.deleteQueues (s : State) (sl port : Nat) : State :=
  let mine (q : Queue) : Bool := q.slice == sl && q.port == port
  let off (q : Queue) : Queue := { slice := q.slice, qid := q.qid, port := q.port, sqSize := q.sqSize, sqBase := q.sqBase, cqSize := q.cqSize, cqBase := q.cqBase }
  let qs := (s.cmd.queues.filter (fun e => !(mine e.2 && decide (2048 ≤ e.1) && e.1 != 18432))).map (fun e => if mine e.2 then (e.1, off e.2) else e)
  let gs := s.cmd.queues.foldl (fun t e => if mine e.2 then tset t e.1 (tgetD t e.1 0 + e.2.sqOn.toNat + e.2.cqOn.toNat) else t) s.cmd.qgen
  { s with cmd := { s.cmd with queues := qs, qgen := gs } }

/-- A controller after its reset (NVMe Base 2.1): CC, CSTS and its features take their initial values; the admin queue
registers and the error log stay (PRESUMED, log 57). -/
def Ctrl.afterReset (c : Ctrl) : Ctrl :=
  { aqa := c.aqa, asq := c.asq, acq := c.acq, errLog := c.errLog, errCount := c.errCount, psReq := c.psReq }

/-- Step 4 of Table 10-8 for one controller: its reset is complete. The generation filter has dropped everything stale. -/
def State.endResetOne (s : State) (sl : Nat) (r : ResetRun) : State :=
  let q := s.slc sl
  let k := ctrlKey r.port sl
  let s1 := ((s.deleteQueues sl r.port).setCtrl k ((s.ctrl k).afterReset)).modSli sl (fun x =>
      { x with resets := tdel x.resets r.port, stale := [], oldItems := 0, wce := true })
  if r.isSlice then
    let s2 := (s1.freeSliceMem sl).endSessions (fun x => x.ofSlice sl)
    s2.modSli sl (fun x => { x with state := if x.state = .removing then .removing else .created, mbQueue := []
                                    stat := { x.stat with mbDiscarded := x.stat.mbDiscarded + x.mbQueue.length } })
  else if sl = 0 then s1
  else s1.mbNote 0 0x82 (leBytes 2 sl ++ leBytes 2 0 ++ leBytes 4 q.gen)

/-- Every reset of a slice ends: OLD_ITEMS counts the slice's stale items on both ports (DESIGN CHOICE, log 169). -/
def State.endReset (s : State) (sl : Nat) : State := (s.slc sl).resets.foldl (fun t e => t.endResetOne sl e.2) s

/-- The answer of a slice reset's waiter. -/
def State.answerReset (s : State) (w : Option Waiter) (o : Outc) : State := match w with | some x => s.answer x o | none => s

/-! Ports (R86). -/

/-- The slices live on a port. -/
def State.slicesOn (s : State) (p : Nat) : List Nat := (s.sli.map (·.1)).filter (fun sl => s.liveOn p sl)

/-- A controller reset of every slice live on a port. -/
def State.resetPort (s : State) (p : Nat) : State := (s.slicesOn p).foldl (fun t sl => t.startReset sl p false none) s

/-- The committed data of the namespaces that a port's slices use, not yet durable (Table 3-8 step 3). -/
def State.portUndurable (s : State) (p : Nat) : List Nat :=
  let l := (s.slicesOn p).map (cntlid p)
  if s.holdup then [] else s.undurable (fun e => (s.ns e.ns).attached.any (fun k => l.contains k))

/-- The PCIe configuration state of a port is lost (Table 16-2). -/
def Port.clearPcie (x : Port) : Port :=
  { x with pasidEn := false, atsEn := false, msixEn := false, msixMask := false, pmState := 0, aer := 0, bar0 := 0, bar2Base := 0, mps := 0, mrrs := 2, msix := [], atc := [] }

/-- A link that goes down (R86): a surprise unless the detach has finished. Training attempts follow without a pause until one
succeeds, so LSTATE reads 1 meanwhile, and DETAIL holds the LSTATE that the loss met (DESIGN CHOICE, log 170). Step 3 of a detach
still runs (DEDUCED, log 42). -/
def State.linkLost (s : State) (p : Nat) : State :=
  let x := s.port p
  if x.lstate = .down ∨ x.lstate = .training then s
  else
    let s0 := s.modPort p (fun y => { y with lstate := if x.phase = 4 then .detached else .training, gts := 0, modsUp := 0, lanes := 0
                                             tlpHeld := false, heldDb := [], heldData := [], heldResults := [], heldIrqs := [] })
    if x.phase = 4 then s0
    else
      let us := if x.phase = 0 then [] else s0.portUndurable p
      let s1 := ((s0.landUnits .flush us).modPort p (fun y =>
        { (y.clearPcie) with linkdowns := satAdd 16 y.linkdowns 1, phase := 0, flushSet := us
                             detachAct := if y.detachAct.busy then y.detachAct.finish false else y.detachAct })).resetPort p
      let s2 := if s1.trickle.tstate != 0 && p == s1.modPortOf s1.pat.eff.host.trickleMod then
          { s1 with trickle := { s1.trickle with tstate := 0, act := if s1.trickle.act.busy then s1.trickle.act.finish false else s1.trickle.act } }
        else s1
      s2.queueFault { src := 452 + p, level := 1, detail := x.lstate.bits }

end Sys2Proof.Machine
end

