-- ==== Sys2Proof/Machine/FaultOps.lean ====
section
/-! DEFINITION. The fault controller: units of the fault sources, isolation and reset of islands, the safe state, and the
evaluation of one fault event (12, R357 to R369). -/

namespace Sys2Proof.Machine

/-! Sources (Table 12-1). The numbering of units within an island is the model's (DEDUCED, log 20). -/

/-- Fault class of a source. -/
def classOf (src : Nat) : Nat :=
  if src < 72 then 0 else if src < 144 then 1 else if src < 216 then 2 else if src < 344 then 3 else if src < 360 then 4
  else if src < 408 then 5 else if src < 448 then 6 else if src < 454 then 7 else if src < 600 then 8 else if src < 728 then 9
  else if src < 747 then 10 else if src < 760 then 11 else if src < 810 then 12 else if src < 883 then 13
  else if src < 888 then 14 else 15

/-- The island of a temperature sensor (Table 14-1). -/
def sensorIsland (s : Nat) : Nat :=
  if s < 16 then islMCL s
  else if s < 32 then islUCC (2 * (s - 16))
  else if s < 34 then islENG (2 * (s - 32))
  else if s < 36 then islWVF (s - 34)
  else if s < 40 then islDMI (2 * (s - 36))
  else if s < 44 then islUCM (s - 40)
  else if s = 44 then islCTL else if s = 45 then islCMI else if s = 46 then islHFE else islAON

/-- Island and unit of a source (DEDUCED, log 20). -/
def srcUnit (src : Nat) : Nat × Nat :=
  if src < 72 then (src, 0xFF)
  else if src < 144 then (src - 72, 0xFF)
  else if src < 216 then (src - 144, 0xFF)
  else if src < 280 then (islMCL ((src - 216) / 4), (src - 216) % 4)
  else if src < 344 then (islMCL ((src - 280) / 4), 4 + (src - 280) % 4)
  else if src < 360 then (islMCL (src - 344), 8)
  else if src < 376 then (islMCL (src - 360), 9)
  else if src < 392 then (islMCL (src - 376), 10)
  else if src < 408 then (islMCL (src - 392), 11)
  else if src < 440 then (islDMI ((src - 408) / 4), (src - 408) % 4)
  else if src < 448 then (islDMI (src - 440), 4)
  else if src < 452 then (islUCM (src - 448), 0)
  else if src < 454 then (islUCM (2 * (src - 452)), 0xFF)
  else if src < 486 then (islENG ((src - 454) / 8), (src - 454) % 8)
  else if src < 518 then (islENG ((src - 486) / 8), 8 + (src - 486) % 8)
  else if src < 582 then (islMCL ((src - 518) / 4), 12 + (src - 518) % 4)
  else if src < 598 then (islENG ((src - 582) / 4), 16 + (src - 582) % 4)
  else if src < 600 then (islWVF (src - 598), 0)
  else if src < 728 then (islUCC ((src - 600) / 4), (src - 600) % 4)
  else if src < 744 then (islCTL, src - 728)
  else if src < 747 then (islCTL, 16 + (src - 744))
  else if src < 751 then (islHFE, src - 747)
  else if src < 755 then (islCMI, src - 751)
  else if src < 758 then (islTRN, src - 755)
  else if src < 760 then (islCTL, 19 + (src - 758))
  else if src < 808 then (sensorIsland (src - 760), 0x80 + (src - 760))
  else if src = 808 then (islCTL, 21)
  else if src = 809 then (islAON, 0)
  else if src < 882 then (src - 810, 0xFF)
  else if src = 882 then (islCTL, 22)
  else if src < 888 then (islAON, 1 + (src - 883))
  else (islSEC, src - 888)

/-- How many working units an island has (the last one isolated isolates the island, R362); units are numbered from 0. -/
def islUnits (i : Nat) : Nat :=
  if 4 ≤ i ∧ i < 8 then 1 else if 10 ≤ i ∧ i < 26 then 16 else if 26 ≤ i ∧ i < 34 then 5
  else if 34 ≤ i ∧ i < 38 then 20 else if 38 ≤ i ∧ i < 40 then 1 else if 40 ≤ i then 4 else 32

/-- Neither isolation nor reset is taken in AON, SEC, CTL, HFE, CMI or TRN, except for a control core (R362). -/
def isoExempt (i u : Nat) : Bool :=
  i == islAON || i == islSEC || i == islHFE || i == islCMI || i == islTRN || (i == islCTL && decide (16 ≤ u))

/-! Isolation (R362). -/

/-- MODS_UP without module `m`. -/
def noMod (mask m : Nat) : Nat := if bitAt mask m then mask - 2 ^ m else mask

/-- A module leaves its port, for good or while its island resets: the port retrains on its remaining modules, which holds its TLPs
and takes no link down (R69); with none left it goes down (R86). -/
def State.moduleLeaves (s : State) (m : Nat) (gone : Bool) : State :=
  let p := s.modPortOf m
  let x := s.port p
  let s1 := s.setPort p { x with modsUp := if gone then noMod x.modsUp m else x.modsUp }
  if noMod x.modsUp m = 0 then s1.linkLost p
  else s1.modPort p (fun y => if y.lstate = .up then { y with retrains := satAdd 16 y.retrains 1, lstate := .retraining, tlpHeld := true } else y)

/-- The channels of a cluster that a unit of it serves: a channel its own, an AES-XTS lane its channel, the die scheduler and the
whole island all four (DEDUCED, log 20). -/
def unitChannels (u : Nat) : List Nat :=
  if u = 0xFF ∨ u = 9 then [0, 1, 2, 3] else if u < 8 then [u % 4] else []

/-- What an isolated unit's own kind loses. -/
def State.unitEffect (s : State) (i u : Nat) : State :=
  if 10 ≤ i ∧ i < 26 then
    if u = 0xFF ∨ u < 8 ∨ u = 9 then
      (unitChannels u).foldl (fun t k => t.isolateChannel ((i - 10) * 4 + k)) (if u = 0xFF then s.islandJobsEnd i else s)
    else if u = 8 then (if (bayType? s.pat.eff (i - 10)).isSome then s.bayLose (i - 10) false else s)
    else if 12 ≤ u ∧ u < 16 then
      let k := (i - 10) * 4 + (u - 12)
      let s1 := (s.liveJobs.filter (holdsUnit s.cpx.sieves k (k + 1))).foldl (fun t c => t.failJob c 0x0F 0xFF) s
      { s1 with cpx := { s1.cpx with sieves := tmod s1.cpx.sieves k (fun x => { x with isolated := true }) } }
    else s
  else if 4 ≤ i ∧ i < 8 then s.moduleLeaves (i - 4) true
  else if 34 ≤ i ∧ i < 38 then
    let held (t : Tbl EngUnit) (k : Nat) : List Nat := s.liveJobs.filter (holdsUnit t k (k + 1))
    let l := if u < 8 then held s.cpx.units ((i - 34) * 8 + u) else if u < 16 then held s.cpx.units (32 + (i - 34) * 8 + (u - 8))
      else if u < 20 then held s.cpx.index ((i - 34) * 4 + (u - 16)) else s.liveJobs.filter (fun c => s.jobUsesIsland c i)
    let s1 := l.foldl (fun t c => t.failJob c 0x0F 0xFF) s
    if u < 8 then { s1 with cpx := { s1.cpx with units := tmod s1.cpx.units ((i - 34) * 8 + u) (fun x => { x with isolated := true }) } }
    else if u < 16 then { s1 with cpx := { s1.cpx with units := tmod s1.cpx.units (32 + (i - 34) * 8 + (u - 8)) (fun x => { x with isolated := true }) } }
    else if u < 20 then { s1 with cpx := { s1.cpx with index := tmod s1.cpx.index ((i - 34) * 4 + (u - 16)) (fun x => { x with isolated := true }) } }
    else s1
  else if 38 ≤ i ∧ i < 40 then s.islandJobsEnd i
  else if 40 ≤ i ∧ u < 4 then
    let k := (i - 40) * 4 + u
    let s1 := (s.liveJobs.filter (fun c => (s.job c).cores.any (fun q => q.core == k))).foldl (fun t c => t.failJob c 0x0F 0xFF) s
    { s1 with cpx := { s1.cpx with cores := tmod s1.cpx.cores k (fun x => { x with isolated := true }) } }
  else if 40 ≤ i then s.islandJobsEnd i
  else s

/-- A command or a job whose transfer was refused (R18). -/
def State.refusedFor (s : State) (c : Nat) : State :=
  if s.jobLive c then s.failJob c 0x0F 0xFF
  else if (s.ctx c).open && (s.ctx c).outc.isNone then s.endErr c .dataXfer
  else s

/-- A transfer toward an isolated island: refused at once, counted, its sender answered. -/
def State.refuseTransfer (s : State) (t : Transfer) : State :=
  let s1 := s.modIsl t.dst (fun x => { x with xingFail := satAdd 16 x.xingFail 1 })
  let s2 : State := { s1 with host := { s1.host with unavailable := s1.host.unavailable ++ [t] } }
  match t.ctx with
  | some c => s2.refusedFor c
  | none => s2

/-- Isolate a unit, or a whole island (0xFF). The last working unit takes its island with it (DEDUCED, log 71). -/
def State.isolateUnit (s : State) (i u : Nat) : State :=
  let s0 := s.unitEffect i u
  let x := s0.isle i
  let l := insertNat x.isolatedUnits u
  let whole := u == 0xFF || decide (islUnits i ≤ (l.filter (fun k => decide (k < islUnits i))).length)
  let s1 := s0.freeOwned (unitOwner i (if whole then 0xFF else u))
  let s2 := s1.setIsl i { x with isolatedUnits := l, avail := if whole then .isolated else x.avail
                                 held := if whole then [] else x.held }
  if whole then x.held.foldl (fun t e => t.refuseTransfer e) s2 else s2

/-- A read whose result is lost with its die's present work: its reader reads again, or another source replaces it. -/
def State.dropRead (s : State) (d : Nat) (o : DieOp) : State :=
  match o.k with
  | .read _ => s.dieOpLost d o
  | .src _ => s.dieOpLost d o
  | _ => s

/-- Operations already issued to the dies of a bay: they run to completion inside the dies and their results are lost; each is recorded
with its die, block and page range, for its status to be read (R204, R205, R362). -/
def State.recordBusyOp (s : State) (d : Nat) (o : DieOp) : State :=
  let s1 := s.dropRead d o
  { s1 with med := { s1.med with busyAtSafe := s1.med.busyAtSafe ++ [{ die := d, op := { o with buf := none } }] } }
def State.recordBusyDie (s : State) (d : Nat) : State :=
  let x := s.die d
  (x.cur.toList ++ x.suspended.toList).foldl (fun u o => u.recordBusyOp d o) (s.setDie d { x with cur := none, suspended := none, susp := 0 })
def State.recordBusy (s : State) (dies : List Nat) : State := dies.foldl (fun t d => t.recordBusyDie d) s

/-- Reads queued for dies that count as absent are served under R189, or wait. -/
def DieOpK.ofReader : DieOpK → Bool
  | .read _ => true
  | .src _ => true
  | _ => false
def State.unqueueDie (s : State) (d : Nat) : State :=
  let x := s.die d
  (x.queue.filter (fun o => o.k.ofReader)).foldl (fun u o => u.dropRead d o) (s.setDie d { x with queue := x.queue.filter (fun o => !o.k.ofReader) })
def State.unqueueReads (s : State) (dies : List Nat) : State := dies.foldl (fun t d => t.unqueueDie d) s

/-- Reset an island (R362): a sleeping one is woken first (Table 13-6); it holds transfers, loses its state and fills its
memories; a third reset within 10 minutes isolates it instead. -/
def State.resetIsland (s : State) (i : Nat) : State :=
  let x := s.isle i
  let recent := x.resetTimes.filter (fun t => decide (s.nowMs < t + 600000))
  if x.avail = .isolated then s
  else if 2 ≤ recent.length then (s.setIsl i { x with resetTimes := recent }).isolateUnit i 0xFF
  else
    let slept := x.dstate != .on
    let s0 := s.freeOwned (unitOwner i 0xFF)
    let s1 := s0.setIsl i { x with avail := .resetting, resetTimes := recent ++ [s.nowMs], filled := true, dstate := .on, change := none
                                   sleepHold := false, wakes := if slept then satAdd 16 x.wakes 1 else x.wakes
                                   wakeCause := if slept then 0 else x.wakeCause }
    if 10 ≤ i ∧ i < 26 then ((s1.recordBusy (bayDies (i - 10))).unqueueReads (bayDies (i - 10))).islandJobsEnd i
    else if 34 ≤ i then s1.islandJobsEnd i
    else if 4 ≤ i ∧ i < 8 then s1.moduleLeaves (i - 4) false
    else s1

/-- What a recorded operation leaves for its die (R205): a program or erase is issued again, and its status decides; a verify read of
the page range follows a program. A read leaves nothing. -/
def DieOp.afterBusy (o : DieOp) : List DieOp × List DieOp :=
  match o.k with
  | .read _ => ([], [])
  | .src _ => ([], [])
  | .erase _ => ([o], [])
  | .verify _ => ([], [o])
  | _ => ([o], [{ k := .verify o.block, cls := 7, block := o.block, idx := o.idx }])

/-- The recorded operations of dies that serve again (R205). -/
def State.reissueBusy (s : State) (p : Nat → Bool) : State :=
  let l := s.med.busyAtSafe.filter (fun b => p b.die)
  let s1 := { s with med := { s.med with busyAtSafe := s.med.busyAtSafe.filter (fun b => !p b.die) } }
  l.foldl (fun t b =>
    let x := t.die b.die
    (t.setDie b.die { x with queue := b.op.afterBusy.1 ++ x.queue ++ b.op.afterBusy.2 }).kick b.die) s1

/-! The safe state (R366, R204). -/

/-- A zone is SUSPECT when its current rows include the recorded block of a die that was busy (R204). -/
def State.suspect (s : State) (d block : Nat) : State :=
  (s.zonesOn d).foldl (fun t e =>
    let z := t.zent e
    if z.block ≤ block ∧ block < z.block + t.zoneR e then t.setZent e { z with suspect := true } else t) s

/-- Whatever a die was busy with, the zone that holds its block is suspect; an erase acts on a block that no zone holds (R204). -/
def State.suspectBusy (s : State) (b : BusyRec) : State :=
  match b.op.k with
  | .erase _ => s
  | _ => s.suspect b.die b.op.block

/-- Every channel is held, busy dies are recorded, bay steps stop, trickle entry is abandoned, a reload and every relocation
pause (Tables 12-5, 12-6, 6-11, 7-3). -/
def State.enterSafe (s : State) (src seq : Nat) : State :=
  if s.flt.safe then s
  else
    let s1 := { s with flt := { s.flt with safe := true, causeSrc := src, causeSeq := seq, entries := satAdd 16 s.flt.entries 1 } }
    let s2 := { s1 with med := { s1.med with
      chans := tmap s1.med.chans (fun _ c => if c.cstate = 2 ∨ c.cstate = 3 ∨ c.cstate = 1 then { c with cstate := 5 } else c)
      relocs := tmap s1.med.relocs (fun _ r => { r with paused := true }) } }
    let s2 := (List.range 16).foldl (fun t b => t.holdLed b) s2
    let busy := (s2.med.dies.filter (fun e => e.2.cur.isSome || e.2.suspended.isSome)).map (·.1)
    let s3 := s2.recordBusy busy
    let s4 := s3.med.busyAtSafe.foldl (fun t b => t.suspectBusy b) s3
    let s5 : State := { s4 with
      isl := tmap s4.isl (fun i x => if 10 ≤ i ∧ i < 34 then { x with safeHold := true } else x)
      pwr := { s4.pwr with dramState := (List.range 8).foldl (fun t j => if tgetD t j 0 = 0 then tset t j 1 else t) s4.pwr.dramState } }
    if s5.trickle.tstate = 1 then
      ({ s5 with trickle := { s5.trickle with tstate := 0, act := s5.trickle.act.finish false } }).releaseTlps
        (s5.modPortOf s5.pat.eff.host.trickleMod)
    else s5

/-- Device fatal (R361, R368): the safe state, and CSTS.CFS 1 on every controller of every port. -/
def State.deviceFatal (s : State) (src seq : Nat) : State :=
  let s1 := s.enterSafe src seq
  { s1 with flt := { s1.flt with fatal := true }
            cmd := { s1.cmd with ctrls := tmap s1.cmd.ctrls (fun _ c => { c with cfs := true }) } }

/-! Levels, records and reactions (R358 to R364). -/

/-- The policy of a source: its FAULT_POLICY record, else N 16, W_MS 60,000 and Table 12-3. -/
def defaultReact : List Nat := [0x00, 0x03, 0x07, 0x0F, 0x67]
def State.faultPol (s : State) (src : Nat) : FaultRec :=
  (s.pat.eff.faults.find? (fun r => r.source == src)).getD { source := src, react := defaultReact }

/-- Sources 744 and 809 follow fixed rules (R363) (DEDUCED, log 31). -/
def fixedSrc (src : Nat) : Bool := src == 744 || src == 809

/-- Reactions of a level: level 4 always takes safe state and device fatal; source 809 takes 0x61; source 744 those of Table
12-3. -/
def State.reactOf (s : State) (src lvl : Nat) : Nat :=
  if src = 809 then 0x61
  else if src = 744 then defaultReact.getD lvl 0
  else ((s.faultPol src).react.getD lvl 0) ||| (if lvl = 4 then 0x60 else 0)

/-- Is a record of the ring unacknowledged (R360)? -/
def FltRec.unacked (r : FltRec) : Bool := decide (1 ≤ r.level) && !r.acked

/-- Does a class have an unacknowledged record? -/
def State.unackedClass (s : State) (c : Nat) : Bool := s.flt.ring.any (fun r => r.cls == c && r.unacked)

/-- Merge an event into the record of a sequence number. -/
def mergeInto (seq : Nat) (l : List FltRec) : List FltRec :=
  l.map (fun r => if r.seq = seq then { r with merged := true, mergeCnt := satAdd 16 r.mergeCnt 1 } else r)

/-- A full ring gives up its oldest record that is acknowledged or at Note level. -/
def dropOldest : List FltRec → Option (List FltRec)
  | [] => none
  | r :: t => if !r.unacked then some t else (dropOldest t).map (fun u => r :: u)

/-- The newest record of a class, else of any class. -/
def newestFor (c : Nat) (l : List FltRec) : Option Nat :=
  match l.reverse.find? (fun r => r.cls == c) with
  | some r => some r.seq
  | none => (l.reverse.head?).map (·.seq)

/-- Put a record into the ring, or merge it when the ring has no room (R364). The result names the record's SEQ in the ring. -/
def State.putRecord (s : State) (r : FltRec) : Option Nat × State :=
  if s.flt.ring.length < 4096 then
    (some r.seq, { s with flt := { s.flt with ring := s.flt.ring ++ [r], nextSeq := s.flt.nextSeq + 1 } })
  else match dropOldest s.flt.ring with
    | some l => (some r.seq, { s with flt := { s.flt with ring := l ++ [r], nextSeq := s.flt.nextSeq + 1 } })
    | none =>
      let l := match newestFor r.cls s.flt.ring with
        | some q => mergeInto q s.flt.ring
        | none => s.flt.ring
      (none, { s with flt := { s.flt with ring := l, overrun := satAdd 16 s.flt.overrun 1 } })

/-- The islands and unit that isolation and reset act on: sources 452 and 453 act on every UCM island of the port. -/
def State.faultTargets (s : State) (src : Nat) : List (Nat × Nat) :=
  if src = 452 ∨ src = 453 then (s.portMods (src - 452)).map (fun m => (islUCM m, 0xFF)) else [srcUnit src]

/-- The reactions of Table 12-2, in bit order. -/
def State.reactLog (s : State) (r : FltRec) (b : Nat) : State :=
  if bitAt b 0 then
    let r1 := { r with persisted := true }
    { s with flt := { s.flt with plog := (s.flt.plog ++ [r1]).drop (s.flt.plog.length + 1 - 8192)
                                 ring := s.flt.ring.map (fun x => if x.seq = r.seq then { x with persisted := true } else x) } }
  else s
def State.reactAen (s : State) (b : Nat) : State :=
  if bitAt b 1 then s.managerAen { typ := aenVendor, info := 0, lid := 0xC1 } else s
def State.reactIrq (s : State) (b : Nat) : State :=
  if bitAt b 2 then ({ s with flt := { s.flt with irq := true } }).managerIrq s.flt.vector else s
def State.reactIso (s : State) (src b : Nat) : State :=
  if bitAt b 3 then (s.faultTargets src).foldl (fun t p => t.isolateUnit p.1 p.2) s else s
def State.reactReset (s : State) (src b : Nat) : State :=
  if bitAt b 4 then (s.faultTargets src).foldl (fun t p => t.resetIsland p.1) s else s
def State.reactSafe (s : State) (src seq b : Nat) : State := if bitAt b 5 then s.enterSafe src seq else s
def State.reactFatal (s : State) (src seq b : Nat) : State := if bitAt b 6 then s.deviceFatal src seq else s

/-- Bits 3 and 4 of a reaction mask taken out. -/
def noIso (b : Nat) : Nat := b - (if bitAt b 3 then 8 else 0) - (if bitAt b 4 then 16 else 0)

/-- An event that is not merged (R358): its recorded level, its record, its reactions. -/
def State.recordFault (s : State) (ev : FaultEv) : State :=
  let cls := classOf ev.src
  let pol := s.faultPol ev.src
  let q : FltSrc := tval s.flt.srcs ev.src
  let w := (q.window.filter (fun t => decide (s.nowMs < t + pol.wMs))) ++ [s.nowMs]
  let fixed := fixedSrc ev.src
  let escC := !fixed && decide (pol.n ≤ w.length)
  let l1 := if escC then min (ev.level + 1) 4 else ev.level
  let escU := !fixed && decide (1 ≤ l1) && s.unackedClass cls
  let lvl := if escU then min (l1 + 1) 4 else l1
  let b0 := s.reactOf ev.src lvl
  let tgt := srcUnit ev.src
  let skip := (bitAt b0 3 || bitAt b0 4) && (s.faultTargets ev.src).all (fun p => isoExempt p.1 p.2)
  let b := if skip then noIso b0 else b0
  let r : FltRec := { seq := s.flt.nextSeq, src := ev.src, level := lvl, raised := ev.level, react := b, timeMs := s.nowMs
                      island := tgt.1, unit := if ev.src < 760 || 808 ≤ ev.src then tgt.2 else 0xFF
                      cls := cls, escCount := escC, escUnack := escU, forced := lvl == 4, skipped := skip
                      slice := ev.slice.getD 0xFFFF, detail := ev.detail % 2 ^ 64 }
  let p := s.putRecord r
  let s1 := p.2
  let q1 : FltSrc := { window := if escC then [] else w, events := satAdd 32 q.events 1, lastLevel := lvl
                       handling := if b = 0 then none else p.1, since := s.nowMs }
  let s2 := { s1 with flt := { s1.flt with srcs := tset s1.flt.srcs ev.src q1 } }
  ((((((s2.reactLog r b).reactAen b).reactIrq b).reactIso ev.src b).reactReset ev.src b).reactSafe ev.src r.seq b).reactFatal ev.src r.seq b

/-- One fault event (R357, R359): a reserved source has no effect; during handling it merges into the record. -/
def State.faultNow (s : State) (ev : FaultEv) : State :=
  if 891 < ev.src then s
  else
    let q : FltSrc := tval s.flt.srcs ev.src
    match q.inHand s.nowMs with
    | some seq =>
      { s with flt := { s.flt with ring := mergeInto seq s.flt.ring
                                   srcs := tset s.flt.srcs ev.src { q with events := satAdd 32 q.events 1 } } }
    | none => s.recordFault ev

/-! Release of the safe state. -/

/-- Messages held during the safe state are sent once, on the entries that are not masked (R367). -/
def State.sendHeld (s : State) : State :=
  let s1 := s.ports.foldl (fun t e =>
    e.2.msix.foldl (fun u m =>
      if m.2.pend && !m.2.mask && !e.2.msixMask && e.2.msixEn then
        (u.modPort e.1 (fun p => { p with msix := tset p.msix m.1 { m.2 with pend := false } })).emitIrq e.1 0 m.1
      else u) t) s
  s1.sli.foldl (fun t e =>
    e.2.msgs.foldl (fun u m =>
      if m.2.pend && !m.2.mask then
        (u.modSli e.1 (fun q => { q with msgs := tset q.msgs m.1 { m.2 with pend := false } })).emitIrq e.2.port e.1 m.1
      else u) t) s1

/-- The steps of R368. -/
def State.leaveSafe (s : State) : State :=
  let s1 : State := { s with
    flt := { s.flt with safe := false }
    med := { s.med with
      chans := tmap s.med.chans (fun c x => if x.cstate = 5 ∧ !(s.bay (c / 4)).held then { x with cstate := 2 } else x)
      relocs := tmap s.med.relocs (fun _ r => { r with paused := false }) }
    isl := tmap s.isl (fun _ x => { x with safeHold := false })
    pwr := { s.pwr with dramState := (List.range 8).foldl (fun t j => if (s.isle (islDMI j)).dstate.asleep then t else tset t j 0) s.pwr.dramState } }
  let s2 := (List.range 16).foldl (fun t b => t.bayAfterSafe b) s1
  let s3 := s2.reissueBusy (fun _ => true)
  let s4 := ((s3.relocsOf (fun _ => true)).foldl (fun t id => t.relStep id) s3).kickAll.sendHeld
  (s4.cmd.ctrls.foldl (fun t e => t.giveAen e.1) s4).tryActivate

end Sys2Proof.Machine
end

