-- ==== Sys2Proof/Machine/Faults.lean ====
section
/-! DEFINITION. The commands of the fault controller and of the event counters (12). -/

namespace Sys2Proof.Machine

/-! Faults. -/

/-- Take one waiting copy of an event out of the list of raised faults (DEDUCED, log 16). -/
def State.unqueueFault (s : State) (ev : FaultEv) : State := { s with flt := { s.flt with raised := s.flt.raised.erase ev } }

/-- FAULT_EVENT: an event arrives at its source (R358, R359, R361, R364). -/
def execFaultEvent (ev : FaultEv) (s : State) : Out := guardUnit s (srcOk ev.src) ((s.unqueueFault ev).faultNow ev)

/-- FAULT_HANDLING_END: the reactions of a record are complete, or 10 ms have passed (R359) (DESIGN CHOICE, log 157). -/
def execFaultHandlingEnd (src : Nat) (s : State) : Out :=
  guardUnit s (srcOk src)
    (let q : FltSrc := tval s.flt.srcs src
     if q.handling.isSome then { s with flt := { s.flt with srcs := tset s.flt.srcs src { q with handling := none } } } else s)

/-- A manager interrupt reaction is unacknowledged while a record that took it is (FLT_STATUS.IRQ). -/
def irqLeft (l : List FltRec) : Bool := l.any (fun r => r.unacked && bitAt r.react 2)

/-- FLT_ACK (R360): every record with SEQ at or below the value is acknowledged. -/
def State.ackFaults (s : State) (seq : Nat) : State :=
  let ring := s.flt.ring.map (fun r => if r.seq ≤ seq then { r with acked := true } else r)
  { s with flt := { s.flt with ring := ring, irq := s.flt.irq && irqLeft ring, ackSeq := seq, ackAct := wsNow true } }

/-- FAULT_ACK. -/
def execFaultAck (seq : Nat) (s : State) : Out := .next (s.ackFaults (seq % 2 ^ 32))

/-- Why a release of the safe state is refused (R368). -/
def State.releaseRefused (s : State) : Bool :=
  !s.flt.safe || s.flt.fatal || s.thm.shutdown || s.flt.ring.any (fun r => r.src == s.flt.causeSrc && r.unacked)

/-- FLT_SAFE_CTL.RELEASE (R368): a write of 0 changes nothing (DESIGN CHOICE, log 30). -/
def State.safeRelease (s : State) (v : Nat) : State :=
  if v = 0 then s
  else if s.releaseRefused then { s with flt := { s.flt with relAct := wsNow false } }
  else
    let s1 := s.leaveSafe
    { s1 with flt := { s1.flt with relAct := wsNow true } }

/-- SAFE_STATE_RELEASE. -/
def execSafeStateRelease (v : Nat) (s : State) : Out := .next (s.safeRelease v)

/-- Is the unit named by a release isolated, on an island of the active Pattern (FLT_RELEASE)? -/
def State.relOk (s : State) (isl unit : Nat) : Bool :=
  present s.pat.eff isl && !s.flt.safe && !s.flt.fatal
    && (if unit = 0xFF then s.islIsolated isl || (s.isle isl).isolatedUnits.contains 0xFF
        else (s.isle isl).isolatedUnits.contains unit)

/-- What a released unit's own kind takes up again. -/
def State.unitBack (s : State) (isl unit : Nat) : State :=
  if 10 ≤ isl ∧ isl < 26 then
    let left := (s.isle isl).isolatedUnits
    let ks := (unitChannels unit).filter (fun k => left.all (fun u => !(unitChannels u).contains k))
    let s1 := ks.foldl (fun t k => t.modChan ((isl - 10) * 4 + k) (fun c => if c.cstate = 4 then { c with cstate := 2, failedRetrains := 0 } else c)) s
    let us := if unit = 0xFF then [0, 1, 2, 3] else if 12 ≤ unit ∧ unit < 16 then [unit - 12] else []
    { s1 with cpx := { s1.cpx with sieves := us.foldl (fun t u => tmod t ((isl - 10) * 4 + u) (fun x => { x with isolated := false })) s1.cpx.sieves } }
  else if 4 ≤ isl ∧ isl < 8 then s.modPort (s.modPortOf (isl - 4)) (fun p => { p with modsUp := p.modsUp ||| 2 ^ (isl - 4) })
  else if 34 ≤ isl ∧ isl < 38 then
    let f (lo n base : Nat) (t : Tbl EngUnit) : Tbl EngUnit :=
      (List.range n).foldl (fun a k => if unit = 0xFF ∨ unit = lo + k then tmod a (base + k) (fun x => { x with isolated := false }) else a) t
    { s with cpx := { s.cpx with
        units := f 8 8 (32 + (isl - 34) * 8) (f 0 8 ((isl - 34) * 8) s.cpx.units)
        index := f 16 4 ((isl - 34) * 4) s.cpx.index } }
  else if 40 ≤ isl then
    { s with cpx := { s.cpx with cores := (List.range 4).foldl (fun t k =>
        if unit = 0xFF ∨ unit = k then tmod t ((isl - 40) * 4 + k) (fun x => { x with isolated := false }) else t) s.cpx.cores } }
  else s

/-- FLT_RELEASE (R362): the unit, or the island, is reset and put back into service. -/
def State.releaseUnit (s : State) (isl unit : Nat) : State :=
  let s0 := { s with flt := { s.flt with relIsland := isl, relUnit := unit } }
  if !s.relOk isl unit then { s0 with flt := { s0.flt with unitRelAct := wsNow false } }
  else
    let x := s0.isle isl
    let l := if unit = 0xFF then [] else removeNat x.isolatedUnits unit
    let s1 := s0.setIsl isl { x with isolatedUnits := l, avail := if x.avail = .isolated then .available else x.avail
                                     resetTimes := if unit = 0xFF then [] else x.resetTimes }
    let s2 := s1.unitBack isl unit
    { s2 with flt := { s2.flt with unitRelAct := wsNow true } }

/-- FLT_RELEASE. -/
def execFltRelease (isl unit : Nat) (s : State) : Out := .next (s.releaseUnit (isl % 128) (unit % 256))

/-! Event counters (R373 to R375). -/

def State.ctr (s : State) (c : Nat) : Ctr := tval s.ctrs c
def State.setCtr (s : State) (c : Nat) (v : Ctr) : State := { s with ctrs := tset s.ctrs c v }
def State.grp (s : State) (g : Nat) : CtrGrp := tval s.grps g
def State.setGrp (s : State) (g : Nat) (v : CtrGrp) : State := { s with grps := tset s.grps g v }

/-- Does a counter count an event of a source (R373, R375)? -/
def Ctr.takes (c : Ctr) (sel : Nat) (slice isl : Option Nat) (level : Bool) : Bool :=
  c.en && c.select == sel && c.level == level
    && (c.slice == 0xFFFF || slice == some c.slice) && (c.island == 0xFF || isl == some c.island)

/-- One count: 1 in edge mode, 10 for each 10 ns sample in level mode; a threshold crossed sets HIT and sends the interrupt
(R374). -/
def State.bumpCtr (s : State) (k : Nat) (level : Bool) : State :=
  let c := s.ctr k
  let v := (c.cnt + if level then 10 else 1) % 2 ^ 64
  let s1 := s.setCtr k { c with cnt := v }
  if c.thrInt ∧ c.cnt < c.thr ∧ c.thr ≤ v then
    let g := s1.grp (k / 16)
    (s1.setGrp (k / 16) { g with hit := g.hit ||| 2 ^ (k % 16) }).managerIrq s1.flt.evcVector
  else s1

/-- COUNTER_EVENT: an event, or a sample of a level condition, of counter source `sel`. -/
def execCounterEvent (sel : Nat) (slice isl : Option Nat) (level : Bool) (s : State) : Out :=
  guardUnit s (decide (sel < 2048) && optOk sliceOk slice && optOk islOk isl)
    (((s.ctrs.filter (fun e => e.2.takes sel slice isl level && !(s.grp (e.1 / 16)).frozen)).map (·.1)).foldl
      (fun t k => t.bumpCtr k level) s)

/-- COUNTER_CLEAR: EVC_SEL.CLEAR zeroes the counter (R374). -/
def execCounterClear (ctr : Nat) (s : State) : Out :=
  guardUnit s (decide (ctr < 1024)) (s.setCtr ctr { (s.ctr ctr) with cnt := 0, selAct := wsNow true, clr := true })

/-- SNAP: the 16 counters of a group are copied at one instant (R375). -/
def State.snapGroup (s : State) (g : Nat) : State :=
  { s with ctrs := (List.range 16).foldl (fun t i => tset t (16 * g + i) { (tval t (16 * g + i) : Ctr) with snap := (tval t (16 * g + i) : Ctr).cnt }) s.ctrs }

/-- COUNTER_SNAPSHOT. -/
def execCounterSnapshot (grp : Nat) (s : State) : Out :=
  guardUnit s (decide (grp < 64)) ((s.snapGroup grp).setGrp grp { (s.grp grp) with act := wsNow true, snapW := true })

/-- FREEZE: a group stops or restarts (R375). -/
def State.freezeGroup (s : State) (g : Nat) (v : Bool) : State := s.setGrp g { (s.grp g) with frozen := v, act := wsNow true }

/-- COUNTER_FREEZE. -/
def execCounterFreeze (grp : Nat) (s : State) : Out := guardUnit s (decide (grp < 64)) (s.freezeGroup grp true)

/-- COUNTER_UNFREEZE. -/
def execCounterUnfreeze (grp : Nat) (s : State) : Out := guardUnit s (decide (grp < 64)) (s.freezeGroup grp false)

end Sys2Proof.Machine
end

