-- ==== Sys2Proof/Machine/Slices.lean ====
section
/-! DEFINITION. The commands of slices, mailboxes, sessions and keys (10), and the enabling, resetting and shutting down of a
controller (04 R129, R310, Table 4-8). -/

namespace Sys2Proof.Machine

/-! Admin commands: their turn and their answers. -/

/-- An admin command runs when its context stands at stage 5 and does not wait already; in the safe state and while the
control cores restart it waits (R367, R371). -/
def State.adminTurn (s : State) (c op : Nat) : Bool :=
  match s.ctx? c with
  | none => false
  | some x => x.admin && x.opc == op && x.stage == 5 && !x.committed && !x.decoded && !s.flt.safe && s.ctlUp

/-- The same with a sub-function. -/
def State.subTurn (s : State) (c op : Nat) (p : Sqe → Bool) : Bool := s.adminTurn c op && p (s.ctx c).sqe

/-- A refusal with a reason code in DW0 (Table 10-3). -/
def reasonOut (r : Nat) : Outc := { sv := stv .invalidField, dw0 := r }

/-- The answer with data. -/
def State.finishWith (s : State) (c : Nat) (o : Outc) (d : OutData) : State :=
  (s.finish c o).modCtx c (fun x => { x with out := d })

/-- The command is accepted and waits for its change. -/
def State.park (s : State) (c : Nat) : State := s.modCtx c (fun x => { x with decoded := true })

/-- Who issues a context's command. -/
def Ctx.who (x : Ctx) : Requester := .ctrl x.slice x.port

/-! Sessions (R327 to R332). Each check takes the requester, so that a sideband endpoint can open one too. -/

/-- SEC_KEY index of a role and key index, when the requester may take the role (Table 10-11). -/
def roleKey (r : Requester) (role idx : Nat) : Option Nat :=
  match r with
  | .ctrl sl _ =>
    if role = 0 ∧ sl = 0 ∧ idx < 8 then some idx
    else if role = 1 ∧ sl != 0 then some (sliceKey sl)
    else none
  | .mctp _ => if role = 2 ∧ 8 ≤ idx ∧ idx < 12 then some idx else none

/-- A lockout's remaining seconds, rounded up. -/
def State.lockLeft (s : State) (t : Nat) : Nat := ceilDiv (t - s.nowMs) 1000

/-- The end of a key's lockout, while it lasts (R331). -/
def State.lockEnd (s : State) (v : KeySlot) : Option Nat :=
  match v.lockUntil with | some t => if s.nowMs < t then some t else none | none => none

/-- Session Challenge (R330). -/
def State.challenge (s : State) (r : Requester) (q : Sqe) : Outc × OutData × State :=
  let role := q.cdw10.toNat % 4
  match roleKey r role (q.cdw10.toNat / 256 % 256) with
  | none => (errOut .invalidField, .none, s)
  | some k =>
    let v := s.key k
    if v.key.isEmpty then (errOut .invalidField, .none, s)
    else match s.lockEnd v with
    | some t => ({ sv := { st := .accessDenied, dnr := false }, dw0 := s.lockLeft t }, .none, s)
    | none =>
      let n := drawBytes 32 s
      let cnt := v.counter + 1
      let ch : Challenge := { who := r, role := role, key := k, nonce := n.1, counter := cnt, issued := s.nowMs }
      let s2 := n.2.setKeySlot k { v with counter := cnt }
      (okOut 0, .bytes (n.1 ++ leBytes 8 cnt ++ leBytes 2 k ++ List.replicate 22 0),
        { s2 with sec := { s2.sec with challenges := s2.sec.challenges.filter (fun e => e.who != r) ++ [ch] } })

/-- Length of the `n`-th lockout in seconds (R331). -/
def lockSeconds (n : Nat) : Nat := min 3600 (60 * 2 ^ (n - 1))

/-- A counted failure: the fifth locks the key. -/
def State.keyFail (s : State) (k : Nat) : State :=
  let v := s.key k
  if 5 ≤ v.fails + 1 then
    let n := min 15 (v.lockouts + 1)
    s.setKeySlot k { v with fails := 0, lockouts := n, lockUntil := some (s.nowMs + lockSeconds n * 1000) }
  else s.setKeySlot k { v with fails := v.fails + 1 }

/-- The 43 bytes that the MAC covers. -/
def macBytes (ch : Challenge) : List Byte :=
  let sl := match ch.who with | .ctrl sl _ => sl | .mctp _ => 0xFFFF
  ch.nonce ++ leBytes 1 ch.role ++ leBytes 2 sl ++ leBytes 8 ch.counter

/-- A challenge is valid for 10 s (R330). -/
def State.challengeLive (s : State) (ch : Challenge) : Bool := decide (s.nowMs < ch.issued + 10000)

/-- Session Open (R330): any attempt consumes the challenge. -/
def State.openSession (s : State) (r : Requester) (mac : List Byte) : Outc × State :=
  let s1 := { s with sec := { s.sec with challenges := s.sec.challenges.filter (fun e => e.who != r) } }
  match s.sec.challenges.find? (fun e => e.who == r && s.challengeLive e) with
  | none => (errOut .cmdSequence, s1)
  | some ch =>
    let v := s1.key ch.key
    if v.key.isEmpty then (errOut .invalidField, s1)
    else match s.lockEnd v with
    | some t => ({ sv := { st := .accessDenied, dnr := false }, dw0 := s.lockLeft t }, s1)
    | none =>
      match tfree s1.sec.sessions 0 256 with
      | none => (errOut .sessionLimit, s1)
      | some i =>
        if slice mac 0 48 = digestBytes (hmac384 v.key (macBytes ch)) then
          let s2 := s1.setKeySlot ch.key { v with fails := 0, lockouts := 0 }
          let x : Session := { role := ch.role, who := r, key := ch.key, openMs := s.nowMs }
          (okOut i, { s2 with sec := { s2.sec with sessions := tset s2.sec.sessions i x } })
        else ({ sv := { st := .accessDenied, dnr := true } }, s1.keyFail ch.key)

/-- Session Close (R330). -/
def State.closeSession (s : State) (r : Requester) (i : Nat) : Outc × State :=
  match tget s.sec.sessions i with
  | none => (errOut .invalidField, s)
  | some x => if x.who = r then (okOut 0, { s with sec := { s.sec with sessions := tdel s.sec.sessions i } }) else (errOut .invalidField, s)

/-- SESSION_CHALLENGE. -/
def execSessionChallenge (c : Nat) (s : State) : Out :=
  guardUnit s (ctxOk c) (if s.adminTurn c 0xC2 then
    let r := s.challenge (s.ctx c).who (s.ctx c).sqe
    r.2.2.finishWith c r.1 r.2.1
  else s)

/-- SESSION_OPEN. -/
def execSessionOpen (c : Nat) (mac : List Byte) (s : State) : Out :=
  guardUnit s (ctxOk c) (if s.adminTurn c 0xC5 then
    let r := s.openSession (s.ctx c).who mac
    r.2.finish c r.1
  else s)

/-- SESSION_CLOSE. -/
def execSessionClose (c : Nat) (s : State) : Out :=
  guardUnit s (ctxOk c) (if s.adminTurn c 0xC8 then
    let r := s.closeSession (s.ctx c).who ((s.ctx c).sqe.cdw10.toNat % 256)
    r.2.finish c r.1
  else s)

/-- CHALLENGE_EXPIRE: 10 s have passed (R330). -/
def execChallengeExpire (r : Requester) (s : State) : Out :=
  guardUnit s (requesterOk r) { s with sec := { s.sec with challenges := s.sec.challenges.filter (fun e => e.who != r || s.challengeLive e) } }

/-- KEY_LOCKOUT_EXPIRE: the lockout of a key ends (R331). -/
def execKeyLockoutExpire (key : Nat) (s : State) : Out :=
  guardUnit s (keyOk key) (if (s.lockEnd (s.key key)).isNone then s.setKeySlot key { (s.key key) with lockUntil := none } else s)

/-! Keys (R328, R329). -/

/-- Is a Pattern key (SEC_KEY 12 to 15) the signer of the active Pattern or of a valid slot image (Table 10-3, 08h)? -/
def State.keySigned (s : State) (k : Nat) : Bool :=
  decide (12 ≤ k) && decide (k ≤ 15) && (s.pat.signer == k - 11 || s.pat.slots.any (fun e => e.2.err == 0 && e.2.signer == k - 11))

/-- Does a key index exist: a slice key only while its slice is live? -/
def State.keyExists (s : State) (k : Nat) : Bool := decide (k < 16) || (decide (17 ≤ k) && decide (k < 2064) && s.sliceLive (k - 16))

def keyRefusal (s : State) (k : Nat) : Option Nat := if !s.keyExists k then some 9 else if s.keySigned k then some 8 else none

/-- SET_KEY: a secret key is the first 32 bytes of the buffer, a Pattern key 96. -/
def execSetKey (c : Nat) (key : List Byte) (s : State) : Out :=
  guardUnit s (ctxOk c) (if s.subTurn c 0xCD (fun q => q.cdw10.toNat % 16 == 3) then
    let k := (s.ctx c).sqe.cdw11.toNat % 65536
    match keyRefusal s k with
    | some r => s.finish c (reasonOut r)
    | none => (s.changeKey k (key.take (if 12 ≤ k ∧ k ≤ 15 then 96 else 32))).finish c (okOut 0)
  else s)

/-- CLEAR_KEY. -/
def execClearKey (c : Nat) (s : State) : Out :=
  guardUnit s (ctxOk c) (if s.subTurn c 0xCD (fun q => q.cdw10.toNat % 16 == 4) then
    let k := (s.ctx c).sqe.cdw11.toNat % 65536
    match keyRefusal s k with
    | some r => s.finish c (reasonOut r)
    | none => (s.changeKey k []).finish c (okOut 0)
  else s)

/-- A write of CRY_CLASS_CFG (R333, R335): refused for a class that is not defined. -/
def State.sharedKeyWrite (s : State) (cls v : Nat) : State :=
  if (patClasses s.pat.eff).any (fun r => r.cls == cls) then
    { s with sec := { s.sec with sharedKey := tset s.sec.sharedKey cls (v % 2 == 1), cryAct := tset s.sec.cryAct cls (wsNow true) } }
  else { s with sec := { s.sec with cryAct := tset s.sec.cryAct cls (wsShown (v % 2)) } }

/-- SHARED_KEY_CONFIG. -/
def execSharedKeyConfig (cls value : Nat) (s : State) : Out := guardUnit s (decide (cls < 16)) (s.sharedKeyWrite cls value)

/-! Creating and removing slices. -/

/-- QPAIRS summed over live slices. -/
def State.qpairSum (s : State) : Nat := sumNat (s.sli.map (fun e => if e.2.state = .free then 0 else (s.tmpl e.1).qpairs))

/-- A PASID that a live slice or the manager holds. -/
def State.pasidUsed (s : State) (p : Nat) : Bool :=
  s.sec.mgrPasid == p || s.sli.any (fun e => e.1 != 0 && e.2.state != .free && e.2.pasid == p)

/-- The lowest free tenant number. -/
def State.freeSlice (s : State) : Option Nat := ((List.range 2047).map (· + 1)).find? (fun k => !s.sliceLive k)

/-- Why Create is refused, by reason code (Table 10-3) (DEDUCED, log 43). -/
def State.createRefusal (s : State) (b : SliceBuf) (sl : Nat) : Option Nat :=
  match s.pat.eff.slices.find? (fun t => t.id == b.template) with
  | none => if sl = 0 ∨ 2047 < sl ∨ s.sliceLive sl then some 1 else if s.pasidUsed (b.pasid % 2 ^ 20) then some 2 else some 3
  | some t =>
    if sl = 0 ∨ 2047 < sl ∨ s.sliceLive sl then some 1
    else if s.pasidUsed (b.pasid % 2 ^ 20) then some 2
    else if !s.portList.contains b.port then some 4
    else if 16384 < s.qpairSum + t.qpairs then some 5
    else none

/-- UPC_TRAP_* record what happened since the slice was created (R288). -/
def State.clearTrap (s : State) (sl : Nat) : State :=
  let u : UpcSlice := tval s.cpx.slices sl
  let v : UpcSlice := { u with cause := 0, index := 0, valid := false, prog := 0, code := 0, pc := 0, tval := 0 }
  { s with cpx := { s.cpx with slices := tset s.cpx.slices sl v } }

/-- The new slice (R309): its key slot is empty, its counters zero; its generation goes on. -/
def State.createSlice (s : State) (b : SliceBuf) (sl : Nat) : State :=
  let t := (s.pat.eff.slices.find? (fun t => t.id == b.template)).getD {}
  ((s.setSli sl { state := .created, port := b.port, pasid := b.pasid % 2 ^ 20, template := b.template, shares := tmplShares t
                  effEpoch := s.epoch, gen := (s.slc sl).gen, msgCount := min t.qpairs 1022 + 2 }).clearTrap sl).changeKey (sliceKey sl) []

/-- SLICE_CREATE. -/
def execSliceCreate (c : Nat) (buf : SliceBuf) (s : State) : Out :=
  guardUnit s (ctxOk c) (if s.subTurn c 0xCD (fun q => q.cdw10.toNat % 16 == 0) then
    if buf.slice = 0xFFFF ∧ s.freeSlice.isNone then s.finish c (errOut .sliceLimit)
    else if buf.reserved != 0 || buf.pasid / 2 ^ 20 != 0 then s.finish c (errOut .invalidField)
    else
      let sl := if buf.slice = 0xFFFF then s.freeSlice.getD 0 else buf.slice
      match s.createRefusal buf sl with
      | some r => s.finish c (reasonOut r)
      | none => (s.createSlice buf sl).finish c (okOut sl)
  else s)

/-- The slice that Reset and Remove name; what refuses both. -/
def sliceArg (q : Sqe) : Nat := q.cdw10.toNat / 65536 % 2048
def State.sliceRefusal (s : State) (sl : Nat) : Option Outc :=
  if sl = 0 then some (errOut .invalidField)
  else if !s.sliceLive sl then some (reasonOut 1)
  else if (s.slc sl).inReset then some (errOut .sliceResetting)
  else none

/-- SLICE_RESET (R322 to R325): the command completes when the reset does. -/
def execSliceReset (c : Nat) (s : State) : Out :=
  guardUnit s (ctxOk c) (if s.subTurn c 0xCD (fun q => q.cdw10.toNat % 16 == 1) then
    let sl := sliceArg (s.ctx c).sqe
    match s.sliceRefusal sl with
    | some o => s.finish c o
    | none => (s.park c).startReset sl (s.slc sl).port true (some (.ctx c))
  else s)

/-- The namespaces a slice owns. -/
def State.ownedNs (s : State) (sl : Nat) : List Nat := (s.zon.nss.filter (fun e => e.2.owner == sl)).map (·.1)

/-- Own key slots charged to a slice (R333). -/
def State.keysUsed (s : State) (sl : Nat) : Nat :=
  (s.zon.nss.filter (fun e => e.2.owner == sl && tget s.sec.classKey e.2.cls != some e.2.keySlot)).length

/-- Why a removal in reassign mode is refused (Table 10-3, 06h and 07h). -/
def State.reassignRefusal (s : State) (sl t : Nat) : Option Nat :=
  if !s.sliceLive t || t = sl then some 6
  else if (s.ownedNs sl).any (fun n => (s.nsCls n).isolated) || (s.tmpl t).keys < s.keysUsed t + s.keysUsed sl then some 7
  else none

/-- SLICE_REMOVE (R326): REMOVING, and a slice reset runs; in crypto-erase mode new commands on the owned namespaces fail. -/
def execSliceRemove (c : Nat) (s : State) : Out :=
  guardUnit s (ctxOk c) (if s.subTurn c 0xCD (fun q => q.cdw10.toNat % 16 == 2) then
    let q := (s.ctx c).sqe
    let sl := sliceArg q
    let reassign := bitAt q.cdw11.toNat 0
    let t := q.cdw11.toNat / 65536 % 2048
    match s.sliceRefusal sl with
    | some o => s.finish c o
    | none =>
      match if reassign then s.reassignRefusal sl t else none with
      | some r => s.finish c (reasonOut r)
      | none =>
        let s1 := (s.park c).startReset sl (s.slc sl).port true (some (.ctx c))
        s1.modSli sl (fun x => { x with state := .removing, resets := tmap x.resets (fun _ r => { r with remove := true, reassign := if reassign then some t else none }) })
  else s)

/-- A namespace passes to another owner, which is attached to it (R326). -/
def State.reassignNs (s : State) (n t : Nat) : State :=
  let s1 := s.modNs n (fun x => { x with owner := t, attached := insertNat x.attached t })
  ((s1.nsEnts n).foldl (fun u e => if (s1.ns n).zoned then u.modZent e (fun z => { z with owner := t }) else u) s1).noteNs n (s1.ns n).slices

/-- Steps 2 to 5 of a removal (R326). -/
def State.finishRemove (s : State) (sl : Nat) (dest : Option Nat) : State :=
  let own := s.ownedNs sl
  let others := (s.zon.nss.filter (fun e => e.2.owner != sl && e.2.attached.contains sl)).map (·.1)
  let s1 := others.foldl (fun t n => (t.modNs n (fun x => { x with attached := removeNat x.attached sl })).noteNs n (t.ns n).slices) s
  let s2 := own.foldl (fun t n => match dest with
    | some k => (t.modNs n (fun x => { x with attached := removeNat x.attached sl })).reassignNs n k
    | none => t.deleteNs n) s1
  let s3 := { s2 with cmd := { s2.cmd with oqs := tmap s2.cmd.oqs (fun _ o => if o.slice = sl then {} else o)
                                           ctrls := tdel s2.cmd.ctrls (ctrlKey (s2.slc sl).port sl)
                                           streams := tfilter s2.cmd.streams (fun _ e => e.slice != sl)
                                           cands := s2.cmd.cands.filter (fun e => e.slice != sl) } }
  ((s3.changeKey (sliceKey sl) []).endSessions (fun x => x.ofSlice sl)).setSli sl { gen := (s3.slc sl).gen, sqstat := (s3.slc sl).sqstat }

/-- Must the reset of a removal wait for commands admitted on the namespaces that go (R326)? -/
def State.removeWaits (s : State) (sl : Nat) : Bool :=
  (s.slc sl).resets.any (fun r => r.2.remove && r.2.reassign.isNone) && (s.ownedNs sl).any s.admittedOn

/-- A reset that is complete: step 4 of Table 10-8, then the removal where it belongs to one. -/
def State.completeReset (s : State) (sl : Nat) : State :=
  (s.slc sl).resets.foldl (fun t e =>
    let t1 := if e.2.remove then t.finishRemove sl e.2.reassign else t
    t1.answerReset e.2.waiter (okOut 0)) (s.endReset sl)

/-- SLICE_RESET_COMPLETE: OLD_ITEMS has reached 0 (Table 10-8 step 4). -/
def execSliceResetComplete (slice : Nat) (s : State) : Out :=
  guardUnit s (sliceOk slice)
    (if !(s.slc slice).inReset || (s.slc slice).oldItems != 0 then s
     else if s.removeWaits slice then
       (s.ownedNs slice).foldl (fun t n => t.modNs n (fun x => { x with attached := [] })) s
     else s.completeReset slice)

/-- Do 20 ms lie behind a reset of a slice, with items still counted? -/
def State.drainLate (s : State) (slice : Nat) : Bool :=
  (s.slc slice).resets.any (fun r => decide (r.2.started + 20 ≤ s.nowMs)) && (s.slc slice).oldItems != 0

/-- The items a unit still holds of a slice's reset are counted as dropped, and the unit is isolated (R323). -/
def State.isolateLate (s : State) (slice isl unit : Nat) : State :=
  let mine (e : Nat × Nat × Nat) : Bool := e.1 == isl && e.2.1 == unit
  if (s.slc slice).stale.any mine then
    ((s.modSli slice (fun q => { q with stale := q.stale.filter (fun e => !mine e), oldItems := q.oldItems - (q.stale.filter mine).length })).isolateUnit isl
      unit).queueFault { src := 754, level := 3, slice := some slice, detail := isl * 256 + unit }
  else s

/-- RESET_DRAIN_TIMEOUT (R323): at 20 ms a unit still counted is isolated; the reset completes when none is left (DEDUCED, log 111). -/
def execResetDrainTimeout (slice isl unit : Nat) (s : State) : Out :=
  guardUnit s (sliceOk slice && islOk isl)
    (if s.drainLate slice then
       let s1 := s.isolateLate slice isl (unit % 256)
       if !(s1.slc slice).stale.isEmpty || s1.removeWaits slice then s1 else s1.completeReset slice
     else s)

/-! Controllers (R129, R310). -/

/-- The admin queue pair of a controller (AQA, ASQ, ACQ). -/
def State.makeAdminQueue (s : State) (port slice : Nat) : State :=
  let k := s.ctrl (ctrlKey port slice)
  let dq := adminDq port slice
  (s.bumpQ dq 2).setQueue dq { slice := slice, qid := 0, port := port, sqOn := true, sqSize := k.aqa % 4096 + 1, sqBase := k.asq, cqOn := true,
                               cqSize := k.aqa / 65536 % 4096 + 1, cqBase := k.acq, ien := true, vector := 0 }

/-- May CC.EN become 1 (R310)? -/
def State.mayEnable (s : State) (port slice : Nat) : Bool :=
  let k := s.ctrl (ctrlKey port slice)
  s.liveOn port slice && !k.en && !k.resetting && (slice == 0 || (s.port port).pasidEn) && (slice == 0 || (s.slc slice).state == .created)

/-- CC.EN 0 to 1: the admin queues exist; CSTS.RDY follows admin ready, or media ready with CRIME 0 (R85, R450). -/
def State.enableCtrl (s : State) (port slice : Nat) (crime : Bool) : State :=
  if s.mayEnable port slice then
    let k := ctrlKey port slice
    let s1 := s.modCtrl k (fun c => { c with en := true, crime := crime, rdy := if crime then s.glb.adminReady else s.glb.mediaReady || (s.glb.adminReady && s.glb.bare)
                                             shst := 0, shutSet := [], cfs := s.flt.fatal })
    let s2 := if slice = 0 then { s1 with sec := { s1.sec with pasidEff := s1.sec.mgrPasid } } else s1
    (s2.modSli slice (fun q => { q with state := .enabled })).makeAdminQueue port slice
  else s

/-- CONTROLLER_ENABLE: in the safe state writes of slice pages are ignored (R367). -/
def execControllerEnable (port slice : Nat) (crime : Bool) (s : State) : Out :=
  guardUnit s (portSliceOk port slice) (if s.flt.safe then s else s.enableCtrl port slice crime)

/-- CC.EN 1 to 0: a controller reset. -/
def State.disableCtrl (s : State) (port slice : Nat) : State :=
  if s.liveOn port slice && (s.ctrl (ctrlKey port slice)).en then s.startReset slice port false none else s

/-- CONTROLLER_RESET. -/
def execControllerReset (port slice : Nat) (s : State) : Out :=
  guardUnit s (portSliceOk port slice) (if s.flt.safe then s else s.disableCtrl port slice)

/-- SHST reads 10b once every write completed before the notification is durable (Table 4-8) (DEDUCED, log 79). -/
def State.shutCheck (s : State) (k : Nat) : State :=
  let c := s.ctrl k
  if c.shst = 1 ∧ c.shutSet.all (fun u => !s.undurableUnit u) then
    let t := s.setCtrl k { c with shst := 2, shutSet := [] }
    (t.zon.nss.filter (fun e => e.2.attached.contains (cntlid (k / 2048) (k % 2048)))).foldl (fun u e => u.recordNs e.1) t
  else s

/-- The same for every controller: called where data becomes durable. -/
def State.shutCheckAll (s : State) : State := s.cmd.ctrls.foldl (fun t e => t.shutCheck e.1) s

/-- CC.SHN 01b: what the controller's namespaces hold is made durable; wear and tracker records are saved (R195, R212). -/
def State.notifyShutdown (s : State) (port slice : Nat) : State :=
  let k := ctrlKey port slice
  if s.liveOn port slice && (s.ctrl k).en && (s.ctrl k).shst == 0 then
    let us := if s.holdup then [] else s.undurable (fun e => (s.ns e.ns).attached.contains (cntlid port slice))
    ((s.saveWear.landUnits .flush us).modCtrl k (fun c => { c with shst := 1, shutSet := us })).shutCheck k
  else s

/-- SHUTDOWN_NOTIFICATION. -/
def execShutdownNotification (port slice : Nat) (s : State) : Out :=
  guardUnit s (portSliceOk port slice) (if s.flt.safe then s else s.notifyShutdown port slice)

/-! Shares and mailboxes (R313 to R319). -/

/-- The first waiting request of a slice, of some types. -/
def State.mbHead (s : State) (sl : Nat) (p : Nat → Bool) : Option MbMsg :=
  match (s.slc sl).mbReqs with
  | m :: _ => if p m.typ && !s.flt.safe && s.ctlUp then some m else none
  | [] => none

def State.mbPop (s : State) (sl : Nat) : State := s.modSli sl (fun q => { q with mbReqs := q.mbReqs.drop 1 })

/-- A value of a SHARE_SET field: kept, restored to the template's, or given (R317). -/
def shareVal (v cur tm : Nat) (ov : Bool) : Nat × Bool :=
  if v = 0xFFFFFFFE then (cur, ov) else if v = 0xFFFFFFFF then (tm, false) else (v, true)

/-- The five fields after a SHARE_SET payload, with their override bits. -/
def State.shareNew (s : State) (sl : Nat) (b : List Byte) : Shares × List Bool :=
  let q := s.slc sl
  let t := tmplShares (s.tmpl sl)
  let cur := match q.pend with | some p => p.shares | none => q.shares
  let ov := match q.pend with | some p => p.override | none => q.override
  let m := shareVal (u32 b 0) cur.mediaW t.mediaW (ov.getD 0 false)
  let w := shareVal (u32 b 4) cur.computeW t.computeW (ov.getD 1 false)
  let i := shareVal (u32 b 8) cur.inflight t.inflight (ov.getD 2 false)
  let p := shareVal (u32 b 12) cur.specMib t.specMib (ov.getD 3 false)
  let k := shareVal (u32 b 16) cur.comet t.comet (ov.getD 4 false)
  ({ mediaW := m.1, computeW := w.1, inflight := i.1, specMib := p.1, comet := k.1 }, [m.2, w.2, i.2, p.2, k.2])

/-- The ranges of the template fields (Table 2-5). -/
def sharesOk (x : Shares) : Bool :=
  decide (1 ≤ x.mediaW) && decide (x.mediaW < 65536) && decide (x.computeW < 65536) && decide (1 ≤ x.inflight)
    && decide (x.inflight ≤ 65536) && decide (x.specMib ≤ 65536) && decide (x.comet ≤ 4096)

/-- SHARE_SET: a change for the next epoch (R313); its reply is posted then. The session is the sending controller's (R327); a slice
in a reset refuses (R325). -/
def execShareSet (slice : Nat) (s : State) : Out :=
  guardUnit s (sliceOk slice)
    (match s.mbHead slice (· == 0x02) with
     | none => s
     | some m =>
       let s1 := s.mbPop slice
       if slice != 0 then s1.mbReply slice m 0x01 []
       else if !(s.hasSession (.ctrl 0 m.port) 0) then s1.mbReply slice m 0x83 []
       else if !s.sliceLive m.peer || m.payload.length < 20 then s1.mbReply slice m 0x01 []
       else if (s.slc m.peer).inReset || (s.slc m.peer).state == .removing then s1.mbReply slice m 0x82 []
       else
         let n := s.shareNew m.peer m.payload
         if sharesOk n.1 then
           s1.modSli m.peer (fun q => { q with pend := some { shares := n.1, override := n.2, epoch := s.epoch + 1, replies := ((s.slc m.peer).pend.getD {}).replies ++ [(slice, m.seq)] } })
         else s1.mbReply slice m 0x01 [])

/-- SHARE_QUERY (R317). -/
def execShareQuery (slice : Nat) (s : State) : Out :=
  guardUnit s (sliceOk slice)
    (match s.mbHead slice (· == 0x01) with
     | none => s
     | some m =>
       let s1 := s.mbPop slice
       if (slice != 0 && m.peer != slice) || !s.sliceLive m.peer then s1.mbReply slice m 0x01 []
       else s1.mbReply slice m 0x00 (s.sharePayload m.peer))

/-- RELAY (R317 to R319): delivered unchanged with the source slice in PEER. -/
def execRelay (slice : Nat) (s : State) : Out :=
  guardUnit s (sliceOk slice)
    (match s.mbHead slice (fun t => decide (0x40 ≤ t) && decide (t ≤ 0x7F)) with
     | none => s
     | some m =>
       let s1 := s.mbPop slice
       let dst := if slice = 0 then m.peer else 0
       if !s.sliceLive dst || (slice = 0 && dst = 0) then s1.mbReply slice m 0x88 []
       else if (s.slc dst).state = .resetting ∨ (s.slc dst).state = .removing then s1.mbReply slice m 0x82 []
       else if s.mbFull dst then s1.mbReply slice m 0x02 []
       else s1.deliver dst { m with peer := slice })

/-- The message in a slice's mailbox-in area. -/
def parseMsg (b : List Byte) : MbMsg :=
  { typ := u8 b 0, reply := bitAt (u8 b 1) 0, unsol := bitAt (u8 b 1) 1, len := u16 b 2, seq := u32 b 4, peer := u16 b 8
    status := u8 b 10, payload := slice b 16 (min (u16 b 2) 4064) }

/-- Types that the Z9 knows (Table 10-7). -/
def mbKnown (t : Nat) : Bool := t == 1 || t == 2 || (decide (0x40 ≤ t) && decide (t ≤ 0x7F))

/-- SPG_MB_IN_DB.SEND (R315): the Z9 copies the message; an unknown type is answered with 01h (DEDUCED, log 156). -/
def State.mbSend (s : State) (slice port send : Nat) : State :=
  if send % 2 = 0 then s
  else
    let q := s.slc slice
    let m := { parseMsg q.mbIn with port := port }
    let s1 := (s.access islCTL).setSli slice { q with mbInAct := wsNow true, stat := { q.stat with mbSent := q.stat.mbSent + 1 } }
    if mbKnown m.typ && decide (u16 q.mbIn 2 ≤ 4064) then s1.modSli slice (fun x => { x with mbReqs := x.mbReqs ++ [m] })
    else s1.mbReply slice m 0x01 []

/-- MAILBOX_SEND. -/
def execMailboxSend (slice port send : Nat) (s : State) : Out :=
  guardUnit s (portSliceOk port slice)
    (if s.liveOn port slice && !s.flt.safe then s.mbSend slice port send else s)

/-- SPG_MB_OUT.ACK (R318): the next message is delivered. -/
def State.mbAck (s : State) (slice ack : Nat) : State :=
  let q := s.slc slice
  if ack % 2 = 0 then s
  else match q.mbOut with
  | none => s.setSli slice { q with mbOutAct := wsNow false }
  | some _ =>
    match q.mbQueue with
    | [] => s.setSli slice { q with mbOut := none, mbOutAct := wsNow true }
    | m :: t => (s.setSli slice { q with mbOut := some m, mbQueue := t, mbOutAct := wsNow true }).mailboxIrq slice

/-- MAILBOX_ACK. -/
def execMailboxAck (slice port ack : Nat) (s : State) : Out :=
  guardUnit s (portSliceOk port slice) (if s.liveOn port slice && !s.flt.safe then s.mbAck slice ack else s)

/-- A write of SLI_MGR_PASID (R310, R337). -/
def State.mgrPasidWrite (s : State) (p v : Nat) : State :=
  if s.sli.any (fun e => e.1 != 0 && e.2.state != .free && e.2.pasid == p) || s.pat.eff.host.msix ≤ v then
    { s with sec := { s.sec with pasidAct := wsShown (p % 1048576 + v % 2048 * 1048576) } }
  else { s with sec := { s.sec with mgrPasid := p, mbVector := v, pasidAct := wsNow true } }

/-- SLI_MGR_PASID_WRITE. -/
def execSliMgrPasidWrite (pasid vector : Nat) (s : State) : Out := .next (s.mgrPasidWrite (pasid % 2 ^ 20) (vector % 2 ^ 11))

end Sys2Proof.Machine
end

