-- ==== Sys2Proof/Machine/Links.lean ====
section
/-! DEFINITION. The commands of the ports: links, trickle, detach, leases, BAR2, PCIe configuration, interrupts, and namespace
ownership (03). -/

namespace Sys2Proof.Machine

/-- A port exists. -/
def State.hasPort (s : State) (p : Nat) : Bool := s.portList.contains p

/-- Held doorbell writes are delivered (R83). -/
def State.deliverDb (s : State) (p : Nat) : State :=
  let l := (s.port p).heldDb
  l.foldl (fun t d => t.ringDoorbell p d.slice d.qid d.isCq d.value) (s.modPort p (fun x => { x with heldDb := [] }))

/-- The modules of a port whose islands serve. -/
def State.servingMods (s : State) (p : Nat) : List Nat := (s.portMods p).filter (fun m => s.islOn (islUCM m))

/-- MODS_UP of some modules. -/
def modMask (l : List Nat) : Nat := sumNat (l.map (fun m => 2 ^ m))

/-- The data rates and lane counts of a trained link (Table 3-1), at most HOST_PLAN MAX_GTS. -/
def linkRates : List Nat := [4, 8, 12, 16, 24, 32]
def State.linkFits (s : State) (gts lanes : Nat) : Bool :=
  linkRates.contains gts && decide (gts ≤ s.pat.eff.host.maxGts) && (lanes == 64 || lanes == 32)

/-- LINK_UP: training, or the retrain of a link that stayed up, is complete (R69, R85). A retrain goes on with the modules that
carried traffic when it began, then the held TLPs go; a link trains on every module that serves. -/
def execLinkUp (p gts lanes : Nat) (s : State) : Out :=
  guardUnit s (portOk p)
    (if !s.hasPort p || !s.linkFits gts lanes then s
     else
       let x := s.port p
       let up := { x with lstate := .up, gts := gts, lanes := lanes }
       if x.lstate = .retraining then
         ((s.setPort p { up with modsUp := modMask ((s.servingMods p).filter (bitAt x.modsUp)) }).releaseTlps p).deliverDb p
       else if x.lstate = .down ∨ x.lstate = .training ∨ x.lstate = .detached then
         let s1 := s.setPort p { up with phase := 0, modsUp := modMask (s.servingMods p) }
         { s1 with glb := { s1.glb with step := if s1.glb.step = 8 then 9 else s1.glb.step } }
       else s)

/-- LINK_DOWN (R86). -/
def execLinkDown (p : Nat) (s : State) : Out := guardUnit s (portOk p) (s.linkLost p)

/-- MODULE_LANE_FAILURE (R69): x32 after lanes lost beyond repair, a retrain without a failed module. -/
def execModuleLaneFailure (m lost : Nat) (failed : Bool) (s : State) : Out :=
  guardUnit s (modOk m)
    (let p := s.modPortOf m
     let s1 := if 0 < lost then
         (s.modPort p (fun x => { x with lanes := min x.lanes 32 })).queueFault { src := 448 + m, level := 2, detail := lost }
       else s
     if failed then s1.moduleLeaves m true else s1)

/-- UCIE_RECALIBRATION (R70): a thin eye raises an Advisory fault. -/
def execUcieRecalibration (m eye : Nat) (s : State) : Out :=
  guardUnit s (modOk m)
    (let s1 := s.modPort (s.modPortOf m) (fun x => { x with eyes := tset x.eyes m eye })
     if eye < s.pat.eff.cal.ucieMarginPct then s1.queueFault { src := 448 + m, level := 1, detail := eye * 256 } else s1)

/-! Trickle (R81 to R83). -/

/-- The port that holds TRICKLE_MOD. -/
def State.tricklePort (s : State) : Nat := s.modPortOf s.pat.eff.host.trickleMod

def State.setTrickle (s : State) (st : Nat) (act : WsAct) : State := { s with trickle := { s.trickle with tstate := st, act := act } }

/-- Why entry is refused (R81, R82) (DEDUCED, log 45). A port whose link is being trained, after a loss or at start-up, counts as
down (DESIGN CHOICE, log 170). -/
def State.trickleRefused (s : State) (port : Nat) (answered : Bool) : Bool :=
  let other := s.port (1 - port)
  port != s.tricklePort || (s.pat.eff.host.split == 1 && !(other.lstate == .detached || other.lstate == .down || other.lstate == .training))
    || (s.port port).phase != 0 || s.trickle.tstate != 0 || !((s.port port).lstate == .up) || !answered || s.flt.safe

/-- Does an entry or an exit run, by command or by a doorbell (R83)? -/
def Trickle.runs (t : Trickle) : Bool := t.act.busy || t.tstate == 1 || t.tstate == 3

/-- CMD 0b01 (R82). -/
def State.trickleIn (s : State) (port : Nat) (answered : Bool) : State :=
  if s.trickle.runs then { s with trickle := { s.trickle with act := s.trickle.act.meet } }
  else
    let s1 : State := { s with trickle := { s.trickle with cmd := 1 } }
    if s.trickleRefused port answered then { s1 with trickle := { s1.trickle with act := wsNow false } }
    else (s1.setTrickle 1 wsRun).modPort port (fun x => { x with tlpHeld := true })

/-- CMD 0b10, through any port (R83); refused where the port is not in trickle. -/
def State.trickleLeave (s : State) : State :=
  if s.trickle.runs then { s with trickle := { s.trickle with act := s.trickle.act.meet } }
  else
    let s1 : State := { s with trickle := { s.trickle with cmd := 2 } }
    if s.trickle.tstate != 2 then { s1 with trickle := { s1.trickle with act := wsNow false } }
    else s1.trickleOut s.tricklePort wsRun

/-- TRICKLE_ENTER: the adapter answers the width negotiation, or does not. -/
def execTrickleEnter (port : Nat) (answered : Bool) (s : State) : Out := guardUnit s (portOk port) (s.trickleIn port answered)

/-- TRICKLE_EXIT: by command, or by a doorbell in trickle with AUTO_EXIT. -/
def execTrickleExit (port : Nat) (doorbell : Bool) (s : State) : Out :=
  guardUnit s (portOk port)
    (if doorbell then
       (if s.trickle.tstate = 2 ∧ port = s.tricklePort ∧ s.trickle.autoExit then s.trickleOut port s.trickle.act else s)
     else s.trickleLeave)

/-- TRICKLE_ENTRY_COMPLETE (Table 3-6 step 5). -/
def execTrickleEntryComplete (s : State) : Out :=
  .next (if s.trickle.tstate = 1 ∧ !s.flt.safe then
    let p := s.tricklePort
    let s1 := ((s.setTrickle 2 (s.trickle.act.finish true)).modPort p (fun x =>
      { x with lstate := .trickle, gts := 4, lanes := 16, modsUp := 2 ^ s.pat.eff.host.trickleMod })).releaseTlps p
    if !(s1.port p).heldDb.isEmpty && s1.trickle.autoExit then s1.trickleOut p s1.trickle.act else s1.deliverDb p
  else s)

/-- The modules of a port that can train: an absent or isolated one is left out. -/
def State.ableMods (s : State) (p : Nat) : List Nat :=
  (s.portMods p).filter (fun m => present s.pat.eff (islUCM m) && (s.isle (islUCM m)).avail != .isolated)

/-- TRICKLE_EXIT_COMPLETE (Table 3-7 steps 2 to 4), once the port's UCM islands are awake; in the safe state it waits for the
release (Table 12-6). A port whose detach runs stays in LSTATE 5. -/
def execTrickleExitComplete (s : State) : Out :=
  .next (if s.trickle.tstate = 3 && !s.flt.safe && (s.ableMods s.tricklePort).all (fun m => s.islOn (islUCM m)) then
    let p := s.tricklePort
    (((s.setTrickle 0 (if s.trickle.act.busy || s.trickle.act.late then s.trickle.act.finish true else s.trickle.act)).modPort p (fun x =>
      { x with lstate := if x.phase = 0 then .up else x.lstate, gts := s.pat.eff.host.maxGts, lanes := 64
               modsUp := modMask (s.ableMods p) })).releaseTlps p).deliverDb p
  else s)

/-! Detach (R84, R85). -/

/-- HLK_DETACH_CTL.REQUEST. A port whose link is being trained counts as down (DESIGN CHOICE, log 170). -/
def State.detachWrite (s : State) (p v : Nat) : State :=
  let x := s.port p
  if v % 2 = 0 then s
  else if x.detachAct.busy then s.setPort p { x with detachAct := x.detachAct.meet }
  else if !s.hasPort p || x.lstate == .down || x.lstate == .training || x.lstate == .detached
      || (p == s.tricklePort && (s.trickle.tstate == 1 || s.trickle.tstate == 3)) then s.setPort p { x with detachAct := wsNow false }
  else s.setPort p { x with detachAct := wsRun, phase := 1, lstate := .detaching }

/-- DETACH_REQUEST. -/
def execDetachRequest (p v : Nat) (s : State) : Out := guardUnit s (portOk p) (s.detachWrite p v)

/-- The contexts of a port. -/
def State.portCtxs (s : State) (p : Nat) : List Nat := (byFseq (s.cmd.ctxs.filter (fun e => e.2.port == p))).map (·.1)

/-- DETACH_QUIESCED (Table 3-8 step 2): nothing is in flight, or 1 s has passed and what is left ends as in a controller
reset; then every completed write is landed. -/
def execDetachQuiesced (p : Nat) (expired : Bool) (s : State) : Out :=
  guardUnit s (portOk p)
    (if (s.port p).phase = 1 && !s.flt.safe && (expired || (s.portCtxs p).isEmpty) then
       let s1 := s.resetCtxs (s.portCtxs p)
       let us := s1.portUndurable p
       (s1.landUnits .flush us).modPort p (fun x => { x with phase := 2, flushSet := us })
     else s)

/-- A controller that a detach closes: SHST 10b, then RDY 0. -/
def State.closeCtrl (s : State) (p sl : Nat) : State :=
  let k := ctrlKey p sl
  let s1 := (s.deleteQueues sl p).setCtrl k { ((s.ctrl k).afterReset) with shst := 2 }
  (s1.endHalts sl p).modSli sl (fun q => { q with state := if q.state = .enabled ∧ sl != 0 then .created else q.state, hold := false })

/-- A port that leaves its host in trickle is in trickle no more: it trains at full rate when it attaches (R82, R85). -/
def State.endTrickle (s : State) (p : Nat) : State :=
  if s.trickle.tstate != 0 && p == s.tricklePort then
    { s with trickle := { s.trickle with tstate := 0, act := if s.trickle.act.busy then s.trickle.act.finish false else s.trickle.act } }
  else s

/-- DETACH_FLUSHED (Table 3-8 steps 3 to 5) (DESIGN CHOICE, log 44). -/
def execDetachFlushed (p : Nat) (s : State) : Out :=
  guardUnit s (portOk p)
    (let x := s.port p
     if x.flushSet.all (fun u => !s.undurableUnit u) then
       if x.phase = 2 then
         let s1 := (s.slicesOn p).foldl (fun t sl => t.closeCtrl p sl) s
         let s2 := s1.zon.nss.foldl (fun t e => if e.2.attached.any (fun k => (s.slicesOn p).contains (cntSlice k)) then t.recordNs e.1 else t) s1
         (s2.modPort p (fun y => { y with phase := 4, lstate := .detached, detachAct := y.detachAct.finish true, flushSet := [], heldDb := []
                                          tlpHeld := false, heldData := [], heldResults := [], heldIrqs := [] })).endTrickle p
       else s.setPort p { x with flushSet := [] }
     else s)

/-! Leases (R88). -/

/-- HLK_LEASE[p].BEAT, written through port `via`. -/
def State.beat (s : State) (p via v : Nat) : State :=
  if v % 2 = 0 then s
  else if p = via then s.modPort p (fun x =>
    { x with beatAct := wsNow true, live := true, leaseEnd := s.nowMs + 2000
             expiries := if x.live ∧ x.leaseEnd ≤ s.nowMs then (x.expiries + 1) % 2 ^ 32 else x.expiries })
  else s.modPort p (fun x => { x with beatAct := wsNow false })

/-- LEASE_BEAT. -/
def execLeaseBeat (p via v : Nat) (s : State) : Out := guardUnit s (portOk p && portOk via) (if s.hasPort p then s.beat p via v else s)

/-- LEASE_EXPIRE: 2 s have passed since the last beat. A lease reads expired from that instant on, and counts here or at the next
beat. -/
def execLeaseExpire (p : Nat) (s : State) : Out :=
  guardUnit s (portOk p) (if (s.port p).live ∧ (s.port p).leaseEnd ≤ s.nowMs then s.modPort p (fun x => { x with live := false, expiries := (x.expiries + 1) % 2 ^ 32 }) else s)

/-! BAR2 (R75). -/

def mib : Nat := 2 ^ 20

/-- Why a map entry is refused (HLK_BAR2_MAP). -/
def State.bar2Refused (s : State) (p i slice handle base len : Nat) : Bool :=
  len = 0 || 2 ^ s.pat.eff.host.bar2Log2 < (base + len) * mib || s.pat.eff.host.bar2Log2 = 0
    || (s.port p).bar2.any (fun e => e.1 != i && e.2.en && decide (e.2.baseMib < base + len) && decide (base < e.2.baseMib + e.2.lenMib))
    || (match s.alloc? slice handle with
        | none => true
        | some a => a.isProg || a.freeing || decide (a.size < len * mib))

/-- A write of HLK_BAR2_MAP[p][i]. -/
def State.bar2Write (s : State) (p i : Nat) (en : Bool) (slice handle base len : Nat) : State :=
  let old : Bar2Ent := tval (s.port p).bar2 i
  let ok := !en || !s.bar2Refused p i slice handle base len
  let e : Bar2Ent := if ok then { en := en, slice := slice, handle := handle, baseMib := base, lenMib := len, act := wsNow true }
                     else { old with act := wsShown (en.toNat + slice % 2048 * 2 + handle % 65536 * 2 ^ 12 + base % 65536 * 2 ^ 28 + len % 65536 * 2 ^ 44) }
  s.modPort p (fun x => { x with bar2 := tset x.bar2 i e })

/-- BAR2_MAP_WRITE. -/
def execBar2MapWrite (p i en slice handle baseMib lenMib : Nat) (s : State) : Out :=
  guardUnit s (portOk p && decide (i < 64)) (s.bar2Write p i (en % 2 == 1) (slice % 2048) (handle % 65536) (baseMib % 65536) (lenMib % 65536))

/-- Bytes of an allocation from an offset on. -/
def Alloc.read (a : Alloc) (off n : Nat) : List Byte := (List.range n).map (fun i => tgetD a.bytes (off + i) 0)
def Alloc.write (a : Alloc) (off : Nat) (b : List Byte) : Alloc :=
  { a with bytes := (List.range b.length).foldl (fun t i => if b.getD i 0 = 0 then tdel t (off + i) else tset t (off + i) (b.getD i 0)) a.bytes }

/-- BAR2_ACCESS: outside every enabled entry a read is an Unsupported Request and a write is dropped, each a Note fault. Bytes
that an uncommitted job writes are undefined (R246). -/
def execBar2Access (p addr len : Nat) (wr : Option (List Byte)) (s : State) : Out :=
  guardUnit s (portOk p)
    (let n := match wr with | some b => b.length | none => len
     match (s.port p).bar2.find? (fun e => e.2.en && decide (e.2.baseMib * mib ≤ addr) && decide (addr + n ≤ (e.2.baseMib + e.2.lenMib) * mib)) with
     | none =>
       let s1 := match wr with
         | none => { s with host := { s.host with bar2 := s.host.bar2 ++ [(addr, none)] } }
         | some _ => s
       s1.queueFault { src := 750, level := 0, detail := addr }
     | some e =>
       match s.alloc? e.2.slice e.2.handle with
       | none => s
       | some a =>
         let off := addr - e.2.baseMib * mib
         match wr with
         | none =>
           let t := s.bar2Share e.2.slice (e.2.handle, off, n) false
           { t with host := { t.host with bar2 := t.host.bar2 ++ [(addr, some (((t.alloc? e.2.slice e.2.handle).getD a).read off n))] } }
         | some b => ((s.setAlloc e.2.slice e.2.handle (a.write off b)).bar2Share e.2.slice (e.2.handle, off, n) true))

/-! PCIe configuration and interrupts (R67, R76 to R80). -/

/-- Pending messages of a port's table are sent where nothing masks them. -/
def State.sendPending (s : State) (p : Nat) : State :=
  (s.port p).msix.foldl (fun t e => if e.2.pend && !e.2.mask then
      (t.modPort p (fun x => { x with msix := tset x.msix e.1 { e.2 with pend := false } })).sendIrq p 0 e.1 else t) s

/-- The function's class code, and the IDs of its configuration header (Table 3-2). -/
def pcieClass : Nat := 0x010802
def State.pcieIds (s : State) : List Nat :=
  [s.pat.eff.host.vendor, s.pat.eff.host.device, s.pat.eff.host.subVendor, s.pat.eff.host.subDevice]

/-- Sizes of the two BARs; BAR2 is absent with BAR2_LOG2 0 (Table 3-2). -/
def bar0Bytes : Nat := 2 ^ 29
def State.bar2Bytes (s : State) : Nat := if s.pat.eff.host.bar2Log2 = 0 then 0 else 2 ^ s.pat.eff.host.bar2Log2

/-- PCIE_CONFIG_WRITE. A base address keeps the bits above its BAR's size; a payload or read request size above 512 B or 4 KiB,
coded 0 for 128 B and doubling, changes nothing (PRESUMED, log 171). -/
def execPcieConfigWrite (port : Nat) (f : PcieField) (value : Nat) (s : State) : Out :=
  guardUnit s (portOk port)
    (if !s.hasPort port then s
     else
       let b := value % 2 == 1
       match f with
       | .pasidEnable => s.modPort port (fun x => { x with pasidEn := b })
       | .atsEnable => s.modPort port (fun x => { x with atsEn := b, atc := if b then x.atc else [] })
       | .msixEnable => (s.modPort port (fun x => { x with msixEn := b })).sendPending port
       | .msixMask => (s.modPort port (fun x => { x with msixMask := b })).sendPending port
       | .pmState => s.modPort port (fun x => { x with pmState := value % 4 })
       | .aer => s.modPort port (fun x => { x with aer := value % 2 ^ 32 })
       | .bar0 => s.modPort port (fun x => { x with bar0 := value % 2 ^ 64 / bar0Bytes * bar0Bytes })
       | .bar2 => s.modPort port (fun x => { x with bar2Base := if s.bar2Bytes = 0 then 0 else value % 2 ^ 64 / s.bar2Bytes * s.bar2Bytes })
       | .maxPayload => s.modPort port (fun x => { x with mps := if value ≤ 2 then value else x.mps })
       | .maxReadRequest => s.modPort port (fun x => { x with mrrs := if value ≤ 5 then value else x.mrrs }))

/-- PORT_HOT_RESET (Table 16-2, port link reset): the port's PCIe configuration and the controllers live on it. -/
def execPortHotReset (port : Nat) (s : State) : Out :=
  guardUnit s (portOk port) (if s.hasPort port then (s.modPort port Port.clearPcie).resetPort port else s)

/-- MASK of an entry clears: a pending message is sent once (R80). -/
def State.unmask (s : State) (port slice e : Nat) : State :=
  if slice = 0 then
    let m : MsgEnt := tval (s.port port).msix e
    let s1 := s.modPort port (fun x => { x with msix := tset x.msix e { m with mask := false, pend := false } })
    if m.pend then s1.sendIrq port 0 e else s1
  else
    let m : MsgEnt := tval (s.slc slice).msgs e
    let s1 := s.modSli slice (fun x => { x with msgs := tset x.msgs e { m with mask := false, pend := false } })
    if m.pend then s1.sendIrq port slice e else s1

/-- INTERRUPT_UNMASK; writes of slice pages are ignored in the safe state (R367). -/
def execInterruptUnmask (port slice entry : Nat) (s : State) : Out :=
  guardUnit s (portSliceOk port slice)
    (if s.liveOn port slice && (slice == 0 || !s.flt.safe) && decide (entry < if slice = 0 then s.pat.eff.host.msix else (s.slc slice).msgCount) then
       s.unmask port slice entry
     else s)

/-! Namespace ownership (R87 to R92). -/

/-- The answer of a D8h: DW0 with REASON, DW1 OWN_EPOCH. -/
def State.ownOut (s : State) (n reason : Nat) (st : Option St) : Outc :=
  { sv := match st with | some e => stv e | none => {}, dw0 := s.ownDw0 n reason, dw1 := (s.ns n).epoch }

/-- A D8h command of an action on its namespace: checks of R90, then `k` with the namespace and the issuer's port (DEDUCED, log 46). -/
def State.ownRow (s : State) (c act : Nat) (k : State → Nat → Nat → State) : State :=
  if s.subTurn c 0xD8 (fun q => q.cdw10.toNat % 16 == act) then
    let x := s.ctx c
    if (s.ns? x.nsid).isNone then s.finish c (errOut .invalidNs)
    else if act != 0 && s.pat.eff.host.split == 0 then s.finish c (errOut .invalidField)
    else k s x.nsid x.port
  else s

/-- The fencing key of the command. -/
def fkeyArg (q : Sqe) : Nat := q.cdw12.toNat + q.cdw13.toNat * 2 ^ 32

/-- PORT_OWNERSHIP_QUERY. -/
def execPortOwnershipQuery (c : Nat) (s : State) : Out := guardUnit s (ctxOk c) (s.ownRow c 0 (fun t n _ => t.finish c (t.ownOut n 0 none)))

/-- PORT_OWNERSHIP_RELEASE: RELEASED once the owner's admitted writes have committed. -/
def execPortOwnershipRelease (c : Nat) (s : State) : Out :=
  guardUnit s (ctxOk c) (s.ownRow c 1 (fun t n p =>
    if (t.ns n).own = .owned p ∧ (t.ns n).release.isNone then
      ((t.park c).modNs n (fun x => { x with release := some (.ctx c) })).ownProgress n
    else t.finish c (t.ownOut n 0 (some .cmdSequence))))

/-- PORT_OWNERSHIP_ACQUIRE. -/
def execPortOwnershipAcquire (c : Nat) (s : State) : Out :=
  guardUnit s (ctxOk c) (s.ownRow c 2 (fun t n p =>
    match (t.ns n).own with
    | .released _ =>
      let t1 := t.modNs n (fun x => { x with own := .owned p, epoch := (x.epoch + 1) % 2 ^ 32 })
      t1.finish c (t1.ownOut n 0 none)
    | _ => t.finish c (t.ownOut n 0 (some .cmdSequence))))

/-- A wrong key: the fifth within 60 s locks takeover of the namespace for 60 s (R89). -/
def State.wrongKey (s : State) (n : Nat) : State :=
  s.modNs n (fun x =>
    let l := (x.wrong.filter (fun t => decide (s.nowMs < t + 60000))) ++ [s.nowMs]
    if 5 ≤ l.length then { x with wrong := [], lockUntil := some (s.nowMs + 60000) } else { x with wrong := l })

/-- TAKING begins: a release that waited cannot happen any more. -/
def State.beginTaking (s : State) (n p q : Nat) (w : Waiter) : State :=
  let old := (s.ns n).release
  let s1 := s.modNs n (fun x => { x with own := .taking p q, takeover := some w, release := none })
  let s2 := match old with
    | some r => s1.answer r (s1.ownOut n 0 (some .cmdSequence))
    | none => s1
  s2.ownProgress n

/-- PORT_OWNERSHIP_TAKEOVER (Table 3-10). -/
def execPortOwnershipTakeover (c : Nat) (s : State) : Out :=
  guardUnit s (ctxOk c) (s.ownRow c 3 (fun t n q =>
    let x := t.ns n
    match x.own with
    | .owned p =>
      if p = q then t.finish c (t.ownOut n 0 (some .cmdSequence))
      else if t.leaseLive p then t.finish c (t.ownOut n 1 (some .fenced))
      else if x.lockUntil.any (fun t => decide (s.nowMs < t)) then t.finish c (t.ownOut n 3 (some .fenced))
      else if x.fkey = 0 then t.finish c (t.ownOut n 4 (some .fenced))
      else if x.fkey != fkeyArg (t.ctx c).sqe then (t.wrongKey n).finish c (t.ownOut n 2 (some .fenced))
      else (t.park c).beginTaking n p q (.ctx c)
    | _ => t.finish c (t.ownOut n 0 (some .cmdSequence))))

/-- An action that the owner applies; from the other port 87h. -/
def State.ownerSet (s : State) (c n p : Nat) (f : Ns → Ns) : State :=
  match (s.ns n).own with
  | .owned q =>
    if p = q then
      let t := s.modNs n f
      t.finish c (t.ownOut n 0 none)
    else s.finish c (s.ownOut n 0 (some .fenced))
  | _ => s.finish c (s.ownOut n 0 (some .cmdSequence))

/-- SET_SHARED_READ. -/
def execSetSharedRead (c : Nat) (s : State) : Out :=
  guardUnit s (ctxOk c) (s.ownRow c 4 (fun t n p => t.ownerSet c n p (fun x => { x with shared := true })))

/-- CLEAR_SHARED_READ. -/
def execClearSharedRead (c : Nat) (s : State) : Out :=
  guardUnit s (ctxOk c) (s.ownRow c 5 (fun t n p => t.ownerSet c n p (fun x => { x with shared := false })))

/-- SET_FENCING_KEY. -/
def execSetFencingKey (c : Nat) (s : State) : Out :=
  guardUnit s (ctxOk c) (s.ownRow c 6 (fun t n p => t.ownerSet c n p (fun x => { x with fkey := fkeyArg (t.ctx c).sqe })))

/-- TAKEOVER_LOCKOUT_EXPIRE (R89). -/
def execTakeoverLockoutExpire (ns : Nat) (s : State) : Out :=
  guardUnit s (nsOk ns) (if (s.ns? ns).isSome ∧ !(s.ns ns).lockUntil.any (fun t => decide (s.nowMs < t)) then s.modNs ns (fun x => { x with lockUntil := none }) else s)

end Sys2Proof.Machine
end

