-- ==== Sys2Proof/Machine/MediaOps.lean ====
section
/-! DEFINITION. The die scheduler, decode results and trackers, and dies that join (06 R184 to R200, 07 R209 to R216). -/

namespace Sys2Proof.Machine

/-- Does a bay's type advertise suspend on its parameter page (R173)? -/
def State.suspType (s : State) (b : Nat) : Bool :=
  match (s.pat.eff.media.getD {}).pages.find? (fun e => e.1 == b) with
  | some e => e.2.suspend
  | none => true

/-- How often an operation may be suspended, and how long it runs after a resume before the next, in microseconds (R186, Table 6-4). -/
def DieOp.suspLimit (o : DieOp) : Nat × Nat :=
  match o.k with
  | .program _ => (4, 60)
  | .reloc _ => (4, 60)
  | .fix _ => (4, 60)
  | .erase _ => (8, 300)
  | _ => (0, 0)

/-- May the die's running operation be suspended (R173, R186)? -/
def State.suspendable (s : State) (d : Nat) : Bool :=
  let x := s.die d
  (s.clu (dieBay d)).suspEn && s.suspType (dieBay d) && x.suspended.isNone && (s.chan (dieChannel d)).cstate == 2 &&
    (match x.cur with
     | some o => decide (x.susp < o.suspLimit.1) && (match x.resumedAt with | some t => decide (t + o.suspLimit.2 ≤ s.nowUs) | none => true)
     | none => false)

/-- Suspend what runs and read at once; the measured suspend latency SUS_US is a free value of its 7 bits. -/
def State.suspendRead (s : State) (d : Nat) (o : DieOp) : State :=
  let x := s.die d
  let er := match x.cur with | some q => q.k.isErase | none => false
  let s1 := s.setDie d { (x.run o s.nowUs (s.opUs d o)) with suspended := x.cur, leftUs := x.endUs - s.nowUs, susp := x.susp + 1
                                                             stat := { x.stat with suspends := satAdd 32 x.stat.suspends 1 } }
  let r := drawNat s1
  (((r.2.modClu (dieBay d) (fun c => { c with susUs := r.1 % 128 })).clCnt (dieBay d) (if er then 4 else 3) 1).chCnt (dieChannel d) 9 1).chargeRead d o

/-! Trackers (R193 to R196). -/

/-- One level's offset after an update, within ±63 steps. -/
def stepOffset (o : Int) (h l : Nat) : Int :=
  let n := h + l
  let diff := if l ≤ h then h - l else l - h
  if 32 ≤ n ∧ n < 4 * diff then (if l < h then min 63 (o + 1) else max (-63) (o - 1)) else o

/-- The tracker after one decoded codeword (R194), and whether its drift passes FL_DRIFT. -/
def Tracker.take (g : Tracker) (cbits minBits drift : Nat) (hi lo : List Nat) : Tracker × Bool :=
  let on := g.tracking || decide (minBits ≤ cbits)
  if !on then (g, false)
  else
    let ix := List.range (levels g.mode)
    let h := ix.map (fun i => listNat g.hi i + listNat hi i)
    let l := ix.map (fun i => listNat g.lo i + listNat lo i)
    if g.cw + 1 < 64 then ({ g with tracking := true, hi := h, lo := l, cw := g.cw + 1 }, false)
    else
      let off := ix.map (fun i => stepOffset (listInt g.offset i) (listNat h i) (listNat l i))
      let far := ix.any (fun i => decide (drift < (listInt off i - listInt g.base i).natAbs))
      ({ g with tracking := true, offset := off, hi := [], lo := [], cw := 0 }, far)

/-- The drift limit of a mode: the margin plan's, or CALIBRATION_BOUNDS FL_DRIFT before any plan (R417). -/
def State.driftLimit (s : State) (mode : Nat) : Nat :=
  match s.age.plan.drift[mode]? with
  | some v => v
  | none => listNat s.pat.eff.cal.flDrift mode

/-- A codeword of a block has decoded: its group's tracker, one of up to 1,024 of the die, takes the counts; drift past the limit
queues a refresh. -/
def State.track (s : State) (d k : Nat) (r : Decode) : State :=
  let key := trackKey d k (s.blk d k).mode
  if (tget s.med.trackers key).isNone && decide (1024 ≤ tcount s.med.trackers (fun j _ => j / 2 ^ 24 == d)) then s else
  let g : Tracker := (tget s.med.trackers key).getD { mode := (s.blk d k).mode }
  let p := g.take r.cbits s.pat.eff.cal.flCbits (s.driftLimit g.mode) r.nHi r.nLo
  let s1 := { s with med := { s.med with trackers := tset s.med.trackers key p.1 } }
  if p.2 then s1.queueGroup d k false else s1

/-- Reads of one block since its program that queue a refresh (Table 7-2). -/
def readLimit (mode : Nat) : Nat := if mode = 2 then 40000 else if mode = 1 then 100000 else 200000

/-- One read of a block. -/
def State.noteRead (s : State) (d k : Nat) : State :=
  let s1 := s.modBlk d k (fun b => { b with reads := b.reads + 1 })
  if (s1.blk d k).reads = readLimit (s1.blk d k).mode + 1 then s1.queueGroup d k false else s1

/-- Does a read end with a decode attempt: each of steps 0 and 1, every second one of the soft decodes of steps 2 and 4 (Table 6-6)? -/
def DieOp.attempts (o : DieOp) : Bool := decide (o.step ≤ 1) || o.pos % 2 == 1
def DieOp.soft (o : DieOp) : Bool := o.attempts && decide (2 ≤ o.step)

def one (b : Bool) : Nat := if b then 1 else 0

/-- The counts of one read of a codeword (MED_CH_CNT, Tables 6-7 and 7-7); one that decodes feeds its tracker (R194, R195). -/
def State.countCw (s : State) (d : Nat) (o : DieOp) (r : Decode) : State :=
  let ch := dieChannel d
  let good := o.attempts && r.ok
  let re := one (o.step != 0)
  let bad := one (good && !r.tagOk)
  let s1 := s.modDie d (fun x => { x with stat := { x.stat with
      reads := satAdd 64 x.stat.reads (one good), retries := satAdd 64 x.stat.retries (one (o.step == 1 || o.step == 4))
      soft := satAdd 32 x.stat.soft (one o.soft), softFail := satAdd 32 x.stat.softFail (one (o.soft && !r.ok))
      hourCw := x.stat.hourCw + one good, hourBits := x.stat.hourBits + r.cbits * one good
      hourMax := if good then max x.stat.hourMax r.cbits else x.stat.hourMax } })
  let s2 := (((s1.chCnt ch 0 (one good)).chCnt ch 1 (r.cbits * one good)).chCnt ch 2 (one (o.step == 0 && !r.ok))).chCnt ch 3 re
  let s3 := (s2.chCnt ch 4 (one o.soft)).chCnt ch 6 bad
  let s4 := (((s3.lifeErr 0 (one (good && decide (0 < r.cbits)))).lifeErr 1 re).lifeErr 2 (one o.soft)).lifeErr 7 bad
  let s5 := s4.noteRead d o.block
  if good then s5.track d o.block r else s5

/-! The decode ladder (R191, R192). -/

/-- A codeword reached step 3: its block is retired after its data has moved (R221), by an urgent refresh (Table 7-2). -/
def State.reached3 (s : State) (d k : Nat) : State := (s.modBlk d k (fun b => { b with step3 := true })).queueGroup d k true

/-- An eclipse read that runs alongside its target's own read is dropped when that read succeeds (R191). -/
def State.dropEcl (s : State) (r : Rdr) (k : Nat) : State :=
  match s.eclOf r k with
  | none => s
  | some e => ((s.setEcl r k (fun _ => none)).dropSources r k).freeBuf e.op.buf

/-- Step 3 of the ladder: an eclipse read that treats the codeword as an erasure, if R188 allows; one that already runs alongside is waited
for. Else the read goes on at step 4, or with misplaced data, which no retry changes, at step 5 (R176). -/
def State.ladStep3 (s : State) (d : Nat) (o : DieOp) (r : Rdr) (fall : Nat) : State :=
  let s1 := s.reached3 d o.block
  let go (t : State) : State := if fall = 5 then t.readLost o r else t.ladGo o r 3
  if (s1.eclOf r o.unit).isSome then (s1.setEcl r o.unit (fun e => some { e with fall := fall })).freeBuf o.buf
  else if s1.eclAllowed (ukRow o.unit) d then
    if s1.eclCredit (dieBay d) (s1.stmpl (rkTmpl (ukRow o.unit))).data then s1.startEcl o r 5 fall
    else go (s1.clCnt (dieBay d) 7 1)
  else go s1

/-- A read of a codeword at its own die ends (R102, R176, R191). -/
def State.readEnd (s : State) (d : Nat) (o : DieOp) (r : Rdr) (res : Decode) : State :=
  let s1 := s.countCw d o res
  if !s1.rdrLive r o.unit then s1.freeBuf o.buf
  else if o.attempts && res.ok then
    (if res.tagOk then (s1.dropEcl r o.unit).give o r (s1.gotDirect o.unit) else s1.ladStep3 d o r 5)
  else
    let n := s1.ladNext d o.step o.pos
    let s2 := if n = (2, 0) then s1.queueGroup d o.block false else s1
    if n.1 = 3 then s2.ladStep3 d o r 3
    else if n.1 = 5 then s2.readLost o r
    else s2.enqueue d { o with step := n.1, pos := n.2 }

/-- A source read ends (R190): one that fails at step 0 is replaced by another present die of the row, or the eclipse read is
abandoned. -/
def State.srcEnd (s : State) (d : Nat) (o : DieOp) (r : Rdr) (res : Decode) : State :=
  let s1 := s.countCw d o res
  if res.ok && res.tagOk then s1.srcGot d r o.unit
  else (if res.ok then s1.reached3 d o.block else s1).srcFail d r o.unit

/-! Block life (R210, R212). -/

/-- Wear of an erase in twelfths: 12 × bits(m) / bits(native). -/
def State.eraseWear (s : State) (d mode : Nat) : Nat :=
  match dieType? s.pat.eff d with
  | none => 12
  | some t => 12 * modeBits mode / modeBits (nativeMode t)

/-- The spread check of a die set (R215): wear levelling becomes active, or stops (DESIGN CHOICE, log 181). -/
def State.spreadCheck (s : State) (set : Nat) : State :=
  let l := s.setBlocks set
  match l with
  | [] => s
  | a :: _ =>
    let hi := maxNat (l.map (·.1))
    let lo := minNat (l.map (·.1))
    let x := s.setLife set
    let spread := 100 * (hi - lo)
    if x.wlActive then
      (if spread ≤ s.mlf.wlStop * 12 * a.2 then s.modLife set (fun y => { y with wlActive := false }) else s)
    else if s.mlf.wlLimit * 12 * a.2 < spread then s.modLife set (fun y => { y with wlActive := true })
    else s

/-- A released landing pool block goes back to the data blocks where the pool has more than 4 blocks, or where a less worn free data block of
its die takes its place (R210). -/
def State.rotatePool (s : State) (d k : Nat) : State :=
  if 4 < (s.med.blks.filter (fun e => e.1 / 2 ^ 24 == d && e.2.role == .landing)).length then s.modBlk d k (fun y => { y with role := .data })
  else match s.freeBlock d with
    | none => s
    | some b =>
      if (s.blk d b).wear < (s.blk d k).wear then
        (s.modBlk d k (fun y => { y with role := .data })).modBlk d b (fun y => { y with role := .landing })
      else s

/-- Is a block group of a die erased: no block of its 16 holds data in the mode? -/
def State.groupErased (s : State) (d k mode : Nat) : Bool :=
  (List.range 16).all (fun i => let b := s.blk d (k / 16 * 16 + i); b.programmedAt == 0 || b.mode != mode)

/-- An erased block: its wear and its reads; its group's tracker stops with the last of its rows (R195, R196); a pool block rotates. -/
def State.freshBlock (s : State) (d k : Nat) : State :=
  let m := (s.blk d k).mode
  let s1 := s.modBlk d k (fun b => { b with needErase := false, wear := b.wear + s.eraseWear d m, reads := 0, step3 := false, programmedAt := 0 })
  let s2 := { s1 with med := { s1.med with
    trackers := if s1.groupErased d k m then tdel s1.med.trackers (trackKey d k m) else s1.med.trackers
    erasesSince := tset s1.med.erasesSince (blkKey d k) (tgetD s1.med.erasesSince (blkKey d k) 0 + 1) } }
  if (s2.blk d k).role = .landing then s2.rotatePool d k else s2

/-- Bytes of an erased block, and the erase itself, count for its die set. -/
def State.countErase (s : State) (q bytes : Nat) : State :=
  let f : Fdp := tval s.zon.fdp q
  ({ s with zon := { s.zon with fdp := tset s.zon.fdp q { f with erasedBytes := f.erasedBytes + bytes } } }).modLife q (fun l => { l with erases := l.erases + 1 })

/-- An erase has succeeded: wear is added, the set's erases are counted, a pool block rotates. -/
def State.blockErased (s : State) (d k : Nat) : State :=
  let n := match dieType? s.pat.eff d with | some t => blockBytes t (s.blk d k).mode | none => 0
  let s1 := s.freshBlock d k
  match s1.dieSet d with
  | none => s1
  | some q =>
    let s2 := s1.countErase q n
    (if (s2.setLife q).erases % 1024 = 0 then s2.spreadCheck q else s2).wearCheck q

/-! Dies that join (R199, R200, Table 7-1). -/

/-- Roles of a die's blocks at its first acceptance: after the bad-block remap those with a good block in every plane, from the last
down: spare blocks, the last-landing reserve, the 4 landing pool blocks and the system blocks it holds; all others hold data (R138,
R476). -/
def State.initBlocks (s : State) (d : Nat) (bad : List Nat) : State :=
  match dieType? s.pat.eff d with
  | none => s
  | some t =>
    let n := t.blksPlane - maxNat bad
    let sp := spareOf n
    let ll := lastLandingOf n
    let sy := systemBlocksOf s.pat.eff d
    let blks := tfilter s.med.blks (fun k _ => k / 2 ^ 24 != d)
    let put (lo cnt : Nat) (r : Role) (b : Tbl Blk) : Tbl Blk :=
      (List.range cnt).foldl (fun a i => tset a (blkKey d (lo + i)) { role := r }) b
    let b0 := put n (t.blksPlane - n) .retired blks
    let b1 := put (n - sp) sp .spare b0
    let b2 := put (n - sp - ll) ll .llr b1
    let b3 := put (n - sp - ll - 4) 4 .landing b2
    let b4 := put (n - sp - ll - 4 - sy) sy .system b3
    ({ s with med := { s.med with blks := b4 } }).modDie d (fun x =>
      { x with goodBlocks := n, usable := n, spareInit := sp, spareLeft := sp, retired := 0 })

/-- The rows in use that have a die. -/
def State.rowsWith (s : State) (d : Nat) : List Nat :=
  (s.med.use.filter (fun e => (s.stmpl (rkTmpl e.1)).dies.contains d)).map (·.1)

/-- A new die takes a position: what the old one held is rebuilt (R199, R200). -/
def State.acceptDie (s : State) (d uid : Nat) (bad : List Nat) : State :=
  let s1 := if (s.die d).uid.isSome && (s.die d).state != .failed then s.dieGone d .failed else s
  let s2 := (s1.setDie d { state := .online, uid := some uid, accepted := true, stat := (s.die d).stat }).initBlocks d bad
  let rows := s2.rowsWith d
  let s3 := { s2 with med := { s2.med with use := tmap s2.med.use (fun k u => if rows.contains k then { u with missing := insertNat u.missing d } else u) } }
  rows.foldl (fun t rk => t.queueReloc .rebuild (rkTmpl rk) (rkBlock rk)) (if rows.isEmpty then s3 else s3.modDie d (fun x => { x with state := .rebuilding }))

/-- A known die is back with its data; rows programmed without it are rebuilt (R199, R200). -/
def State.returnDie (s : State) (d : Nat) : State :=
  let x := s.die d
  if x.wasFailed then s.setDie d { x with state := .failed }
  else
    let rows := (s.rowsWith d).filter (fun rk => (tval s.med.use rk : RowUse).missing.contains d)
    let s1 := s.setDie d { x with state := if rows.isEmpty then .online else .rebuilding, notReady := false }
    rows.foldl (fun t rk => t.queueReloc .rebuild (rkTmpl rk) (rkBlock rk)) s1

/-- Rows that are still to be rebuilt for a bay: in relocations, and waiting for their zones to leave the active states. -/
def State.rebuildLeft (s : State) (b : Nat) : Nat :=
  sumNat (s.med.relocs.map (fun e => if e.2.cause == .rebuild && e.2.bays.contains b then e.2.rows else 0))
def State.rebuildWaits (s : State) (b : Nat) : Bool :=
  s.med.refreshQ.any (fun q => q.cause == .rebuild && (s.rebuildBays q.tmpl q.block).contains b)

/-- Does a bay still have rebuild work? -/
def State.bayRebuilding (s : State) (b : Nat) : Bool := s.rebuildLeft b != 0 || s.rebuildWaits b

/-- Zones whose rows are whole again clear DEGRADED and RZR (Table 5-4). -/
def State.clearDegraded (s : State) : State :=
  s.allEnts.foldl (fun t e =>
    let z := t.zent e
    if (z.degraded || z.rzr) && z.state.hasRows && t.lostDies (t.stmpl z.tmpl) == 0
        && (t.zoneRowKeys e).all (fun rk => (tval t.med.use rk : RowUse).missing.isEmpty) then
      (t.setZent e { z with degraded := false, rzr := false }).zoneEvent e
    else t) s

/-- Progress of a bay's rebuild per mille; at its end REBUILD_DONE sets, and dies, bay and zones are as before the loss (R200). -/
def State.rebuildCheck (s : State) (b : Nat) : State :=
  let x := s.bay b
  if x.rebTotal = 0 && x.bstate != 5 then s
  else if s.bayRebuilding b then s.modBay b (fun y => { y with progress := 1000 * (x.rebTotal - s.rebuildLeft b) / max 1 x.rebTotal })
  else
    let s1 := (bayDies b).foldl (fun t d => if (t.die d).state == .rebuilding then t.modDie d (fun y => { y with state := .online }) else t) s
    ((s1.modBay b (fun y => { y with bstate := if y.bstate = 5 then 6 else y.bstate, progress := 1000, rebTotal := 0 })).bayEvt b 6 0).clearDegraded

end Sys2Proof.Machine
end

