-- ==== Sys2Proof/Machine/Media.lean ====
section
/-! DEFINITION. The rows of the die scheduler, the dies and the channels (06 R174 to R197, R183, R402). -/

namespace Sys2Proof.Machine

/-! Dispatch of reads (R187). -/

/-- May a unit of a command be read from the media now: translated, not yet issued, and the command either speculates, from stage 6 on, or
is past stage 8 (R99, R103)? -/
def Ctx.mayIssue (x : Ctx) (u : Nat) : Bool :=
  !x.committed && (match x.units[u]? with | some v => !v.issued && !v.done | none => false)
    && (decide (9 ≤ x.stage) && decide (x.stage ≤ 11) || (x.spec && !x.noSpec && decide (6 ≤ x.stage) && decide (x.stage ≤ 8)))

/-- The read of a unit as an operation of its die; its deadline is that of the unit's first arrival (R185). -/
def State.readOp (s : State) (c u k dl : Nat) (buf : Option Nat) : DieOp :=
  let x := s.ctx c
  { k := .read (.cmd c u x.tag), cls := 1, block := rkBlock (ukRow k), idx := s.cellIdx k, deadline := dl, slice := x.slice, unit := k, buf := buf }

/-- Suspend what the die runs, and read. -/
def State.suspRead (s : State) (d : Nat) (o : DieOp) : State := s.suspendRead d (s.aimed d o)

/-- Combining the source units takes 3 microseconds (Table 6-5) (DEDUCED, log 176). -/
def combineUs : Nat := 3

/-- R187: direct, by suspension, by a discretionary eclipse read, or late. While the channel is held for a retrain, an eclipse read where
the row allows one, else the read waits (R174). -/
def State.serveRead (s : State) (d : Nat) (o : DieOp) (r : Rdr) : State :=
  let rk := ukRow o.unit
  let direct := s.expectDone d o
  let sus := s.suspendable d
  let susp := s.nowUs + (s.clu (dieBay d)).susUs + s.readUs d o.block
  let late := fun (v : State) => if sus && decide (susp < direct) then v.suspRead d o else v.enqueue d o
  if (s.chan (dieChannel d)).cstate = 3 then (if s.eclAllowed rk d then s.startEcl o r 5 0 else s.enqueue d o)
  else if direct ≤ o.deadline then s.enqueue d o
  else if sus && decide (susp ≤ o.deadline) then s.suspRead d o
  else if s.eclAllowed rk d then
    if s.eclCredit (dieBay d) (s.stmpl (rkTmpl rk)).data then
      let ecl := maxNat ((s.eclSources rk d (o.source r)).map (fun e => s.expectDone e (o.source r))) + combineUs
      if ecl < direct ∧ (!sus ∨ ecl < susp) then s.startEcl o r 5 0 else late s
    else late (s.clCnt (dieBay d) 7 1)
  else late s

/-- A read goes to the media with its landing frame. -/
def State.issueRead (s : State) (c u k : Nat) (v : CUnit) (ecl : Bool) : State :=
  let x := s.ctx c
  let d := s.unitDie k
  let f := s.landingFrame c d x.slice
  match f.1 with
  | none => f.2
  | some h =>
    let dl := v.deadline.getD (s.nowUs + s.latUs x.slice)
    let s1 := (f.2.setUnit c u (fun w => { w with issued := true, again := false, deadline := some dl })).modCtx c (fun y => { y with wait := 0 })
    let o := s1.readOp c u k dl (some h)
    if ecl then s1.startEcl o (.cmd c u x.tag) 6 0 else s1.serveRead d o (.cmd c u x.tag)

/-- A read reaches the die scheduler (R187, R189, R190): data in the write buffer is read from there. -/
def State.dispatchRead (s : State) (c u : Nat) : State :=
  match (s.ctx c).units[u]? with
  | none => s
  | some v =>
    match v.loc with
    | none => s.giveCmd c u (.data Block.zero) none
    | some k =>
      if (s.lineAt k).isSome || (tget s.med.flash k).isNone then s.giveCmd c u (s.gotDirect k) none
      else match s.serveOf k with
        | .direct => s.issueRead c u k v false
        | .eclipse => s.issueRead c u k v true
        | .notReady => s.failUnit c u (stv .nsNotReady)
        | .failed => s.failUnit c u (unrecovered true)

/-- A patrol read of a codeword that holds data, in class 7. -/
def State.dispatchPatrol (s : State) (k : Nat) : State :=
  if (tget s.med.flash k).isNone || s.serveOf k != .direct then s
  else s.enqueue (s.unitDie k) { k := .read .patrol, cls := 7, block := rkBlock (ukRow k), idx := s.cellIdx k, unit := k }

/-! Dispatch of programs, landings and erases. -/

/-- Is a landing stripe already on its way for a unit? -/
def State.landingOf (s : State) (k : Nat) : Bool := tany s.med.landings (fun _ l => !l.waiting.isEmpty && l.units.contains k)

/-- Class of a row's programs: 3 while dirty data exceeds 75 % of the dirty limit, else 4 (Table 6-4). -/
def State.progClass (s : State) : Nat := if 3 * s.dirtyLimit < 4 * (s.dirtyLines * 4096) then 3 else 4

/-- A FULL row of committed lines is programmed on its present dies; while it has more lost dies than parity it is kept as
landing copies instead (R179, R183). -/
def State.dispatchRow (s : State) (srk : Nat) : State :=
  match s.row? srk with
  | none => s
  | some r =>
    let t := s.stmpl r.tmpl
    if r.state != .full || r.lines.any (fun e => e.2.ctx.isSome) || s.thm.coldHold then s
    else if t.parity < s.lostDies t then
      s.landUnits .lost ((s.rowUnitsOf srk r).filter (fun k => !s.unitDurable k && !s.landingOf k))
    else
      let on := t.dies.filter (fun d => (s.die d).state.present)
      let off := t.dies.filter (fun d => !(s.die d).state.present)
      let s1 := s.setRow srk { r with state := .programming, waiting := on, passed := [], lost := off, failing := [] }
      on.foldl (fun v d => v.enqueue d { k := .program srk, cls := s.progClass, block := r.block, idx := r.idx }) s1

/-- A landing stripe goes to its dies in class 0; it takes dies if it had none (R181). -/
def State.dispatchLanding (s : State) (id : Nat) : State :=
  match tget s.med.landings id with
  | none => s
  | some l =>
    if l.issued || (s.thm.coldHold && l.kind != .pfail) then s
    else if l.dies.isEmpty then
      if (s.landDies l.set).isEmpty then s
      else ({ s with med := { s.med with landings := tdel s.med.landings id } }).newLanding l.kind l.set l.units
    else
      let s1 := { s with med := { s.med with landings := tset s.med.landings id { l with issued := true } } }
      let s2 := if l.llr then s1.modLife l.set (fun x => { x with llrUsed := x.llrUsed + l.dies.length }) else s1
      l.dies.foldl (fun v p => (v.modBlk p.1 p.2 (fun b => { b with mode := 0, programmedAt := v.nowMs + 1 })).enqueue p.1
        { k := .landing id, cls := 0, block := p.2 }) s2

/-- A released block is erased once no operation on it is outstanding (R217, Table 6-4). -/
def State.dispatchErase (s : State) (d k : Nat) : State :=
  let x := s.die d
  let b := s.blk d k
  if b.needErase && b.role != .retired && x.state.present && x.ops.all (fun o => o.block != k) && !s.thm.coldHold then
    s.enqueue d { k := .erase k, cls := 6, block := k }
  else s

/-- MEDIA_DISPATCH (R184, R187). -/
def execMediaDispatch (r : DispatchReq) (s : State) : Out :=
  guardUnit s (dispatchOk r)
    (if s.flt.safe then s
     else match r with
       | .read c u =>
         (match s.ctx? c with
          | none => s
          | some x => if x.mayIssue u then s.dispatchRead c u else s)
       | .programRow row => s.dispatchRow row
       | .landing id => s.dispatchLanding id
       | .erase d k => s.dispatchErase d k
       | .patrol k => s.dispatchPatrol k)

/-! Results (R102, R182, R191). -/

/-- A programmed block: its mode, and its first program. -/
def State.noteProgram (s : State) (d k mode units : Nat) : State :=
  let s1 := s.modBlk d k (fun b => { b with mode := mode, programmedAt := if b.programmedAt = 0 then s.nowMs + 1 else b.programmedAt })
  match s1.dieSet d with
  | none => s1
  | some q =>
    let f : Fdp := tval s1.zon.fdp q
    ({ s1 with zon := { s1.zon with fdp := tset s1.zon.fdp q { f with mediaBytes := f.mediaBytes + units * 4096 } } }).modLife q
      (fun l => { l with mediaUnits := l.mediaUnits + units })

/-- Units one die takes of a stripe row. -/
def State.dieShare (s : State) (d mode : Nat) : Nat :=
  match dieType? s.pat.eff d with
  | none => 0
  | some t => dieUnits t mode

/-- Where the outstanding programs are all recoveries that parity covers, the row's data counts as durable (R182). -/
def State.coverRow (s : State) (srk : Nat) : State :=
  match s.row? srk with
  | none => s
  | some r =>
    if r.state == .programming && r.waiting.all (fun d => r.failing.contains d)
        && decide (r.lost.length + r.failing.length ≤ (s.stmpl r.tmpl).parity) then s.markDurable (s.rowUnitsOf srk r)
    else s

/-- A die of a row has reported pass. -/
def State.rowPass (s : State) (srk d : Nat) : State :=
  match s.row? srk with
  | none => s
  | some r =>
    if r.waiting.contains d then
      let s1 := s.noteProgram d r.block r.mode (s.dieShare d r.mode)
      ((s1.setRow srk { r with waiting := removeNat r.waiting d, passed := insertNat r.passed d, failing := removeNat r.failing d }).coverRow srk).settleRow srk
    else s

/-- Withdraw the recovery of a die's block, for it starts again or its row is done with. -/
def State.dropFix (s : State) (d block : Nat) : State :=
  let ids := (s.med.recovs.filter (fun e => e.2.die == d && e.2.block == block)).map (·.1)
  let of (k : DieOpK) : Bool := match k with
    | .fix id => ids.contains id
    | .read (.fix id _) => ids.contains id
    | _ => false
  let s1 := { s with med := { s.med with recovs := tfilter s.med.recovs (fun id _ => !ids.contains id)
                                         ecls := s.med.ecls.filter (fun e => match e.rdr with | .fix id _ => !ids.contains id | _ => true) } }
  s1.modDie d (fun x => { x with queue := x.queue.filter (fun o => !of o.k) })

/-- A block row whose block on a die was retired without a spare: the die no longer holds its part, and the row is rebuilt. Earlier units
that parity does not cover hold acknowledged data that is lost (R182, R222) (DEDUCED, log 33). -/
def State.partLost (s : State) (d block : Nat) : State :=
  match s.tmplFor d with
  | none => s
  | some t =>
    let rk := rowKey t.id block
    let u : RowUse := tval s.med.use rk
    let s1 := { s with med := { s.med with use := if (tget s.med.use rk).isSome then tset s.med.use rk { u with missing := insertNat u.missing d } else s.med.use } }
    let ks := (s1.med.flash.filter (fun e => ukRow e.1 == rk && s1.unitDie e.1 == d && !e.2.poison && e.2.tagLba != tagOnes)).map (·.1)
    let s2 := if (s1.rowGone rk).length ≤ t.parity then s1
      else ({ s1 with med := { s1.med with flash := ks.foldl (fun f k => tset f k { (tval f k : Cell) with poison := true }) s1.med.flash } }).recordLost 1
        (ks.map (fun k => ((tval s1.med.flash k : Cell).tagNs, (tval s1.med.flash k : Cell).tagLba)))
    s2.queueReloc .rebuild t.id block

/-- A die reports a program failure on a row (R182): its block is remapped to a spare, the units of the earlier rows are read and
programmed again, then the row's own. With no spare left parity covers the position (R222). -/
def State.rowFail (s : State) (srk d : Nat) : State :=
  match s.row? srk with
  | none => s
  | some r =>
    let spare := 0 < (s.die d).spareLeft
    let s1 := ((((s.chCnt (dieChannel d) 7 1).lifeErr 5 1).dropFix d r.block).retireBlock d r.block)
    if !r.waiting.contains d then s1
    else if spare && (s1.die d).state.present then
      (match s1.row? srk with
       | none => s1
       | some q => ((s1.setRow srk { q with failing := insertNat q.failing d }).coverRow srk).startFix d r.block (some srk) 0)
    else (s1.partLost d r.block).rowDieLost srk d

/-- The program of an earlier row fails, or a page range does not decode after a safe state (R205): the block is remapped again and its
rows are written again. -/
def State.fixAgain (s : State) (d block : Nat) : State :=
  let row := (s.med.recovs.findSome? (fun e => if e.2.die == d && e.2.block == block then e.2.row else none))
  let spare := 0 < (s.die d).spareLeft
  let s1 := (((s.chCnt (dieChannel d) 7 1).lifeErr 5 1).dropFix d block).retireBlock d block
  if spare && (s1.die d).state.present then s1.startFix d block row 0
  else
    let s2 := s1.partLost d block
    match row with
    | some srk => s2.rowDieLost srk d
    | none => s2

/-- A die of a landing stripe has reported. -/
def State.landPass (s : State) (id d k : Nat) : State :=
  match tget s.med.landings id with
  | none => s
  | some l =>
    let s1 := s.noteProgram d k 0 (ceilDiv l.units.length (max 1 (l.dies.length - 1)))
    ({ s1 with med := { s1.med with landings := tset s1.med.landings id { l with waiting := removeNat l.waiting d } } }).settleLanding id

/-- A landing block fails. -/
def State.landFail (s : State) (id d k : Nat) : State := (((s.chCnt (dieChannel d) 7 1).lifeErr 5 1).retireBlock d k).landingDieLost id d

/-- The landing stripe that holds a block of a die, and the relocation whose target does. -/
def State.landingAt (s : State) (d k : Nat) : Option Nat := tfind s.med.landings (fun _ l => l.dies.contains (d, k))
def State.targetAt (s : State) (d k : Nat) : Option Nat :=
  tfind s.med.relocs (fun _ r => r.hasTgt && (s.stmpl r.tgtTmpl).dies.contains d && decide (r.tgtBlock ≤ k) && decide (k < r.tgtBlock + r.rows))

/-- A program of a relocation's target fails (Table 7-3): the block is retired and the relocation starts again; one whose target was
given up already fails nothing more. -/
def State.targetFail (s : State) (d k : Nat) : State :=
  let s1 := ((s.chCnt (dieChannel d) 7 1).lifeErr 5 1).retireBlock d k
  match s.targetAt d k with
  | none => s1
  | some id => s1.relocRestart id

/-- A verify read fails hard decode (R205): what the page range holds is rewritten as after a program failure. -/
def State.verifyFail (s : State) (d : Nat) (o : DieOp) : State :=
  match s.landingAt d o.block, s.targetAt d o.block, s.tmplFor d with
  | some id, _, _ => s.landFail id d o.block
  | none, some _, _ => s.targetFail d o.block
  | none, none, none => s
  | none, none, some t =>
    let srk := rowKey t.id o.block * 2 ^ 32 + o.idx
    (match s.row? srk with
     | some r => if r.state == .programming && r.waiting.contains d then s.rowFail srk d else s.fixAgain d o.block
     | none => s.fixAgain d o.block)

/-- The program of an earlier row passes; a recovery without a row of its own ends with its last one. -/
def State.fixPass (s : State) (id d : Nat) : State :=
  match tget s.med.recovs id with
  | none => s
  | some q =>
    let s1 := s.noteProgram d q.block (s.blk d q.block).mode (s.dieShare d (s.blk d q.block).mode)
    if q.row.isNone && !(s1.die d).ops.any (fun o => o.k == .fix id) then { s1 with med := { s1.med with recovs := tdel s1.med.recovs id } } else s1

/-- Effect of one result on what the operation was for. -/
def State.opEnd (s : State) (d : Nat) (o : DieOp) (res : DieResult) : State :=
  match o.k, res with
  | .read r, .read q => s.readEnd d o r q
  | .src r, .read q => s.srcEnd d o r q
  | .verify _, .read q => if q.ok && q.tagOk then s.countCw d o q else (s.countCw d o q).verifyFail d o
  | .program w, .pass => s.rowPass w d
  | .program w, .fail => s.rowFail w d
  | .landing id, .pass => s.landPass id d o.block
  | .landing id, .fail => s.landFail id d o.block
  | .erase k, .pass => s.blockErased d k
  | .erase k, .fail => ((s.chCnt (dieChannel d) 8 1).lifeErr 6 1).retireBlock d k
  | .reloc id, .pass =>
    (match tget s.med.relocs id with
     | some q => s.noteProgram d o.block q.mode (s.dieShare d q.mode)
     | none => s)
  | .reloc _, .fail => s.targetFail d o.block
  | .fix id, .pass => s.fixPass id d
  | .fix _, .fail => s.fixAgain d o.block
  | _, _ => s

/-- Is it a result of a read? -/
def resIsRead : DieResult → Bool
  | .read _ => true
  | .crc => true
  | _ => false

/-- A retrain starts: the channel is held. -/
def State.startRetrain (s : State) (ch : Nat) (act : WsAct) : State :=
  (s.modChan ch (fun c => { c with cstate := 3, retrains := satAdd 16 c.retrains 1, crcRun := 0, retrainAct := act })).lifeErr 13 1

/-- A transfer fails its CRC: the read is issued again, and after three in a row the channel is retrained (R174) (DEDUCED, log 179). -/
def State.crcFail (s : State) (d : Nat) (o : DieOp) : State :=
  let ch := dieChannel d
  let s1 := (s.modDie d (fun x => { x with queue := o :: x.queue })).modChan ch (fun c => { c with crcRun := c.crcRun + 1 })
  if 3 ≤ (s1.chan ch).crcRun then s1.startRetrain ch (s1.chan ch).retrainAct else s1

/-- DIE_OPERATION_COMPLETE (R102, R182, R191): the operation leaves its die, its result takes effect, the die goes on, and a
shutdown notification that waited for the data is answered (DEDUCED, log 24). While the channel is held for a retrain nothing is
transferred. -/
def execDieOperationComplete (die : Nat) (res : DieResult) (s : State) : Out :=
  guardUnit s (dieOk die)
    (match (s.die die).cur with
     | none => s
     | some o =>
       if o.k.isRead == resIsRead res && !s.flt.safe && (s.chan (dieChannel die)).cstate != 3 then
         let s1 := s.modDie die (fun x => { x with cur := none, susp := if x.suspended.isSome then x.susp else 0 })
         let s2 := if res = .crc then s1.crcFail die o
           else (if resIsRead res then s1.modChan (dieChannel die) (fun c => { c with crcRun := 0 }) else s1).opEnd die o res
         (s2.kick die).shutCheckAll
       else s)

/-- The read that climbs steps 1 and 2 for a unit past its deadline (R191). -/
def State.lateRead (s : State) (r : Rdr) (k : Nat) : Option DieOp :=
  (s.die (s.unitDie k)).ops.find? (fun o => o.k == .read r && o.unit == k && (o.step == 1 || o.step == 2) && decide (o.deadline < s.nowUs))

/-- READ_DEADLINE_EXPIRE (R191): while the unit's own read climbs steps 1 and 2 past its deadline, an eclipse read starts
alongside. The event names the request by its tag: one of a request squashed meanwhile finds no unit. -/
def execReadDeadlineExpire (c u tag : Nat) (s : State) : Out :=
  guardUnit s (ctxOk c)
    (match s.ctx? c with
     | none => s
     | some x =>
       match s.liveUnit c u tag with
       | none => s
       | some v =>
         match v.loc with
         | none => s
         | some k =>
           let r : Rdr := .cmd c u tag
           let d := s.unitDie k
           match s.lateRead r k with
           | none => s
           | some o =>
             if (s.eclOf r k).isSome || s.flt.safe || !s.eclAllowed (ukRow k) d then s
             else if s.eclCredit (dieBay d) (s.stmpl (rkTmpl (ukRow k))).data then
               (let f := s.landingFrame c d x.slice
                match f.1 with
                | none => f.2
                | some h => f.2.startEcl { o with step := 0, pos := 0, buf := some h } r 5 9)
             else s.clCnt (dieBay d) 7 1)

/-- The longest operation time of a die's type, in microseconds (R183). -/
def State.longestUs (s : State) (d : Nat) : Nat :=
  match dieType? s.pat.eff d with
  | none => 0
  | some t => max (maxNat t.tR) (max (maxNat t.tProg) (maxNat t.tBers))

/-- DIE_READY_TIMEOUT (R183): a die that is not ready within four times its longest operation time. Three resets of the target restore it,
and what it ran is issued again; or the die is failed. -/
def execDieReadyTimeout (die : Nat) (restored : Bool) (s : State) : Out :=
  guardUnit s (dieOk die)
    (let x := s.die die
     match x.cur with
     | none => s
     | some o =>
       if !x.state.present || s.flt.safe || decide (s.nowUs < x.startUs + 4 * s.longestUs die) then s
       else if restored then (s.setDie die { x with cur := none, queue := o :: x.queue }).kick die
       else (s.failDie die).shutCheckAll)

/-! Channels (R174). -/

/-- The dies of a channel take their next operations. -/
def State.kickChan (s : State) (ch : Nat) : State := ((List.range 32).map (fun i => ch * 32 + i)).foldl (fun t d => t.kick d) s

/-- A retrain ends: up again, tried again, or after three failures in a row isolated. -/
def State.endRetrain (s : State) (ch : Nat) (ok : Bool) : State :=
  let c := s.chan ch
  if ok then (s.setChan ch { c with cstate := 2, failedRetrains := 0, retrainAct := if c.retrainAct.busy then c.retrainAct.finish true else c.retrainAct }).kickChan ch
  else if 3 ≤ c.failedRetrains + 1 then
    (s.setChan ch { c with failedRetrains := 0, retrainAct := if c.retrainAct.busy then c.retrainAct.finish false else c.retrainAct }).isolateChannel ch
  else (s.setChan ch { c with failedRetrains := c.failedRetrains + 1 }).startRetrain ch c.retrainAct

/-- Is a retune due: at most one every 32 ms per channel? -/
def Chan.retuneDue (c : Chan) (nowMs : Nat) : Bool := match c.retunedAt with | some t => decide (t + 32 ≤ nowMs) | none => true

/-- CHANNEL_RETUNE (R174): a margin below 15 % of a unit interval raises an Advisory fault and a retrain. -/
def execChannelRetune (ch marginPct : Nat) (s : State) : Out :=
  guardUnit s (chanOk ch)
    (if (s.chan ch).cstate = 2 && (s.chan ch).retuneDue s.nowMs then
       let s1 := s.modChan ch (fun c => { c with margin := marginPct % 128, retunedAt := some s.nowMs })
       if marginPct % 128 < 15 then (s1.queueFault { src := 216 + ch, level := 1, detail := ch * 32 }).startRetrain ch (s.chan ch).retrainAct else s1
     else s)

/-- A write of 1 to MED_CH_CTL.RETRAIN. -/
def State.retrainWrite (s : State) (ch : Nat) : State :=
  let c := s.chan ch
  if c.retrainAct.busy then s.setChan ch { c with retrainAct := c.retrainAct.meet }
  else if c.cstate = 0 ∨ c.cstate = 4 ∨ c.cstate = 5 then s.setChan ch { c with retrainAct := wsNow false }
  else s.startRetrain ch wsRun

/-- CHANNEL_RETRAIN (R174): `v` 1 is the write that starts a retrain, `v` 0 the end of one. -/
def execChannelRetrain (ch v : Nat) (ok : Bool) (s : State) : Out :=
  guardUnit s (chanOk ch)
    (if v = 1 then s.retrainWrite ch
     else if v = 0 ∧ (s.chan ch).cstate = 3 then (s.endRetrain ch ok).shutCheckAll
     else s)

/-- A write of MED_CL_SCHED: a value out of range stores nothing. -/
def State.schedWrite (s : State) (k ecl rebuild : Nat) (susp : Bool) : State :=
  if ecl ≤ 50 ∧ 1 ≤ rebuild ∧ rebuild ≤ 50 then
    s.modClu k (fun c => { c with eclPct := ecl, rebuildPct := rebuild, suspEn := susp, schedAct := wsNow true })
  else s.modClu k (fun c => { c with schedAct := wsNow false })

/-- CLUSTER_SCHED_WRITE. -/
def execClusterSchedWrite (k ecl rebuild : Nat) (susp : Bool) (s : State) : Out :=
  guardUnit s (bayOk k) (s.schedWrite k (ecl % 64) (rebuild % 64) susp)

/-- Is a temperature read of a die due: at most one every 10 s (R402)? -/
def Die.tempDue (x : Die) (nowMs : Nat) : Bool := match x.tempAt with | some t => decide (t + 10000 ≤ nowMs) | none => true

/-- DIE_TEMPERATURE_READ (R402): Get Features on an idle die. -/
def execDieTemperatureRead (die : Nat) (t : Int) (s : State) : Out :=
  guardUnit s (dieOk die)
    (let x := s.die die
     if x.state.present && x.cur.isNone && s.dieServes die && !s.flt.safe && x.tempDue s.nowMs then s.setDie die { x with tempC := t, tempAt := some s.nowMs } else s)

end Sys2Proof.Machine
end

