-- ==== Sys2Proof/Machine/Bays.lean ====
section
/-! DEFINITION. Bay hot-plug (06 R171, R172, R198 to R203). BSTATE: 0 empty, 1 inserted, 2 powering, 3 scanning, 4 awaiting
accept, 5 rebuilding, 6 online, 7 removing, 8 held, 9 faulted, 10 not configured. -/

namespace Sys2Proof.Machine

/-- Is a bay in use (R171)? -/
def State.bayUsed (s : State) (b : Nat) : Bool := (bayType? s.pat.eff b).isSome

/-- Change the channels of a bay; an isolated one stays isolated. -/
def State.bayChans (s : State) (b cs : Nat) : State :=
  (List.range 4).foldl (fun t i => t.modChan (b * 4 + i) (fun c => { c with cstate := if c.cstate = 4 then 4 else cs })) s

/-! Insertion (Table 6-8). -/

/-- BAY_INSERTION: a module is seated. In a bay not in use only the event sets (R171). -/
def execBayInsertion (b : Nat) (s : State) : Out :=
  guardUnit s (bayOk b)
    (let x := s.bay b
     if x.prsnt then s
     else
       let s1 := s.setBay b { x with prsnt := true, stepAt := s.nowMs, insertions := satAdd 16 x.insertions 1
                                     bstate := if s.bayUsed b then 1 else x.bstate, step := if s.bayUsed b then 1 else 0 }
       (s1.bayEvt b 0 0).bayWake b)

/-- BAY_PRESENCE_DEBOUNCED: after 100 ms of presence the bay is powered. A hot-plug step stops in the safe state (Table 6-11). -/
def execBayPresenceDebounced (b : Nat) (s : State) : Out :=
  guardUnit s (bayOk b)
    (let x := s.bay b
     if x.bstate = 1 ∧ x.prsnt ∧ !s.flt.safe ∧ x.stepAt + 100 ≤ s.nowMs then
       s.setBay b { x with bstate := 2, step := 2, pwren := true, stepAt := s.nowMs } else s)

/-- BAY_PWRGD_RISE: pads released, reset high, the bay is scanned (steps 4 and 5). -/
def execBayPwrgdRise (b : Nat) (s : State) : Out :=
  guardUnit s (bayOk b)
    (let x := s.bay b
     if x.bstate = 2 ∧ x.pwren ∧ !s.flt.safe then
       (((s.setBay b { x with bstate := 3, step := 5, pwrgd := true, rstN := true, held := false }).bayChans b 1).modIsl (islMCL b)
         (fun i => { i with removalHold := false })).bayWake b
     else s)

/-- BAY_POWER_TIMEOUT: power is not good at 300 ms. -/
def execBayPowerTimeout (b : Nat) (s : State) : Out :=
  guardUnit s (bayOk b)
    (let x := s.bay b
     if x.bstate = 2 ∧ x.pwren ∧ !x.pwrgd ∧ !s.flt.safe ∧ x.stepAt + 300 ≤ s.nowMs then (s.setBay b { x with bstate := 9, step := 0, pwren := false }).bayEvt b 3 0 else s)

/-! The scan (R47, R199). -/

/-- Does a parameter page disagree with a nonzero field? -/
def TypeRec.disagrees (t : TypeRec) (q : ParamPage) : Bool :=
  let d (a b : Nat) : Bool := a != 0 && a != b
  let m := nativeMode t
  d t.pageB q.pageB || d t.spareB q.spareB || d t.pagesBlk q.pagesBlk || d t.blksPlane q.blksPlane || d t.planes q.planes
    || d t.luns q.luns || d t.ratedPe q.ratedPe || d (t.tR.getD m 0) q.tR || d (t.tProg.getD m 0) q.tProg || d (t.tBers.getD m 0) q.tBers

/-- Does the panel leave any field to the parameter page? -/
def TypeRec.open (t : TypeRec) : Bool := t.fill { pageB := 1, spareB := 1, pagesBlk := 1, blksPlane := 1, planes := 1, luns := 1, ratedPe := 1, tR := 1, tProg := 1, tBers := 1 } != t

/-- The type number of a bay. -/
def State.bayTypeNo (s : State) (b : Nat) : Nat :=
  match s.pat.eff.media with
  | none => 0xFF
  | some m => m.bayType.getD b 0xFF

/-- The structure with a bay's parameter page, which completes the geometry of its dies. -/
def State.filled (s : State) (b : Nat) (q : ParamPage) : Pat :=
  match s.pat.eff.media with
  | none => s.pat.eff
  | some m => { s.pat.eff with media := some { m with pages := m.pages.filter (fun e => e.1 != b) ++ [(b, q)] } }

/-- Is a bay's scan the first that finds a die of its type? Its page is the one the deferred checks use (R47). -/
def State.firstOfType (s : State) (b : Nat) : Bool :=
  !((s.pat.eff.media.getD {}).pages.any (fun e => e.1 != b && s.bayTypeNo e.1 == s.bayTypeNo b))

/-- The checks that wait for discovery (R47): R175, the geometry, classes and stripes of Table 2-9, the capacity of R52. -/
def discoveryOk (p : Pat) (b : Nat) : Bool :=
  match bayType? p b with
  | none => false
  | some t => t.pageB % 4096 == 0 && t.pageB != 0 && decide (336 * t.pageB ≤ t.spareB * 4096) && ruleGeometry p && ruleStripes p
      && ruleClasses p && ruleTemplates p && (capacityBad p).isNone

/-- The bays of a type. -/
def State.baysOfType (s : State) (k : Nat) : List Nat := (List.range 16).filter (fun b => s.bayUsed b && s.bayTypeNo b == k)

/-- A bay whose geometry is not the panel's is faulted, and none of its dies is used. -/
def State.geomFault (s : State) (b : Nat) : State :=
  let s1 := s.modBay b (fun x => { x with bstate := if x.bstate = 0 ∨ x.bstate = 1 then x.bstate else 9, pwren := false, rstN := false, step := 0, newDies := [] })
  ((s1.bayChans b 0).bayDiesGone b).bayEvt b 5 0

/-- The die matches what the Z9 knows at that position, or is new (R199). -/
def State.matchDie (s : State) (b : Nat) (x : ScanDie) : State :=
  if (s.die x.die).uid = some x.uid then s.returnDie x.die
  else s.modBay b (fun y => { y with newDies := y.newDies ++ [x] })

/-- The state a bay settles in: awaiting accept, rebuilding or online. -/
def State.settleBay (s : State) (b : Nat) : State :=
  let x := s.bay b
  let reb := s.bayRebuilding b || (bayDies b).any (fun d => (s.die d).state == .rebuilding)
  let st := if !x.newDies.isEmpty then 4 else if reb then 5 else 6
  s.setBay b { x with bstate := st, step := 0, progress := if reb then 0 else 1000 }

/-- The dies of a bay take their next operations; recorded interrupted operations are issued again first (R205). -/
def State.kickBay (s : State) (b : Nat) : State :=
  (bayDies b).foldl (fun t d => t.kick d) (s.reissueBusy (fun d => dieBay d == b))

/-- Steps 6 and 7 of Table 6-8. -/
def State.scanBay (s : State) (b : Nat) (dies : List ScanDie) (pp : ParamPage) : State :=
  match panelType? s.pat.eff b with
  | none => s
  | some t =>
    let mine := dies.filter (fun x => dieBay x.die == b && dieExists (s.filled b pp) x.die)
    if mine.any (fun x => !x.geomOk) then s.geomFault b
    else if t.open && s.firstOfType b && !discoveryOk (s.filled b pp) b then (s.baysOfType (s.bayTypeNo b)).foldl (fun u k => u.geomFault k) s
    else
      let s1 : State := { s with pat := { s.pat with eff := s.filled b pp } }
      let chs := (mine.map (fun x => dieChannel x.die)).eraseDups
      let s2 := if t.disagrees pp then chs.foldl (fun u c => u.queueFault { src := 216 + c, level := 0, detail := c * 32 }) s1 else s1
      let rate := match s.pat.eff.media with | none => 0 | some m => m.rateMts
      let s3 := (List.range 4).foldl (fun u i => u.modChan (b * 4 + i) (fun c => { c with rate := rate })) (s2.bayChans b 2)
      let s4 := mine.foldl (fun u x => u.matchDie b x) s3
      let s5 := s4.settleBay b
      let s6 := if (s5.bay b).newDies.isEmpty then s5 else s5.bayEvt b 4 0
      let s7 := s6.kickBay b
      ((s7.relocsOf (fun _ => true)).foldl (fun u id => u.relStep id) s7).rebuildCheck b

/-- BAY_SCAN_COMPLETE (R47, R199). -/
def execBayScanComplete (b : Nat) (dies : List ScanDie) (pp : ParamPage) (s : State) : Out :=
  guardUnit s (bayOk b) (if (s.bay b).bstate = 3 ∧ !s.flt.safe then s.scanBay b dies pp else s)

/-! Removal (R201, R202, Tables 6-9 to 6-11). -/

/-- BAY_SURPRISE_REMOVAL: the module leaves (`gone`), or its power fails. Once BAY_PWREN is high, after step 2 of Table 6-8, a
leaving module is a surprise removal (R202) (DEDUCED, log 166). -/
def State.surprise (s : State) (b : Nat) (gone : Bool) : State :=
  let x := s.bay b
  let st := x.bstate
  if gone && !x.prsnt then s
  else if st = 10 ∨ st = 0 then s.setBay b { x with prsnt := x.prsnt && !gone }
  else if st = 1 ∨ (st = 2 ∧ (!gone ∨ !x.pwren)) then (if gone then s.setBay b { x with bstate := 0, step := 0, prsnt := false, pwren := false } else s)
  else if st = 8 ∨ st = 9 then
    (if gone then (s.setBay b { x with bstate := 0, prsnt := false, pwrgd := false }).bayEvt b 1 0 else s)
  else if st = 7 ∧ !x.pwren then
    (if !gone then s
     else if s.flt.safe then s.setBay b { x with prsnt := false, pwrgd := false }
     else ((s.modBay b (fun y => { y with prsnt := false })).bayHeld b).bayEvt b 1 0)
  else s.bayLose b gone

/-- BAY_SURPRISE_REMOVAL. -/
def execBaySurpriseRemoval (b : Nat) (gone : Bool) (s : State) : Out := guardUnit s (bayOk b) ((s.surprise b gone).shutCheckAll.bayWake b)

/-- BAY_PWRGD_FALL_SAFE: the orderly removal ends; the bay is safe to remove. In the safe state the step waits (Table 6-11). -/
def execBayPwrgdFallSafe (b : Nat) (s : State) : Out :=
  guardUnit s (bayOk b)
    (let x := s.bay b
     if x.bstate = 7 ∧ !x.pwren then (if s.flt.safe then s.setBay b { x with pwrgd := false } else (s.bayHeld b).bayWake b) else s)

/-- BAY_ATTENTION: only the event. -/
def execBayAttention (b : Nat) (s : State) : Out := guardUnit s (bayOk b) ((s.bayEvt b 2 0).bayWake b)

/-- Does a block row hold data: a line in the write buffer, or a unit on flash? -/
def State.rowHasData (s : State) (rk : Nat) : Bool :=
  s.med.flash.any (fun e => ukRow e.1 == rk) || s.med.rows.any (fun e => e.1 / 2 ^ 32 == rk && !e.2.lines.isEmpty)

/-- Would a removal leave a row that holds data with more lost dies than its parity? -/
def State.removalHurts (s : State) (b : Nat) : Bool :=
  s.med.use.any (fun e => s.rowHasData e.1 &&
    let t := s.stmpl (rkTmpl e.1)
    t.dies.any (fun d => dieBay d == b)
      && decide (t.parity < (t.dies.filter (fun d => dieBay d == b || !(s.die d).state.present)).length))

/-- A running rebuild of the bay stops; rows rebuilt so far stay rebuilt. -/
def State.stopRebuild (s : State) (b : Nat) : State :=
  ((s.relocsOf (fun r => r.cause == .rebuild && r.bays.contains b)).foldl (fun t id => t.relocCancel id) s).modBay b (fun x => { x with rebTotal := 0 })

/-- A write of MED_BAY_CTL.CMD = 1 (R201). In the safe state the removal is accepted and its steps wait (Table 6-11). -/
def State.bayRemove (s : State) (b : Nat) (force : Bool) : State :=
  let x := s.bay b
  let single := match s.pat.eff.stripe with | some m => m.singleBay | none => false
  if x.cmdAct.busy then s.setBay b { x with cmdAct := x.cmdAct.meet }
  else if !(x.bstate = 4 ∨ x.bstate = 5 ∨ x.bstate = 6) || (!force && (single || s.removalHurts b)) then
    s.setBay b { x with cmd := 1, force := force, cmdAct := wsNow false }
  else
    let s1 := (s.setBay b { x with bstate := 7, step := 1, cmd := 1, force := force, cmdAct := wsRun, newDies := [] }).stopRebuild b
    if s.flt.safe then s1 else s1.closeBayRows b

/-- BAY_REMOVE. -/
def execBayRemove (b : Nat) (force : Bool) (s : State) : Out := guardUnit s (bayOk b) (s.bayRemove b force)

/-- Has the bay drained: its rows VERIFIED, or landed where their other dies exceed parity, and nothing runs on its dies? -/
def State.bayDrained (s : State) (b : Nat) : Bool :=
  s.med.rows.all (fun e =>
    !(s.stmpl e.2.tmpl).dies.any (fun d => dieBay d == b)
      || (e.2.state != .programming && decide ((s.stmpl e.2.tmpl).parity < s.lostDies (s.stmpl e.2.tmpl)) && e.2.lines.all (fun l => l.2.durable || l.2.bad)))
    && (bayDies b).all (fun d => (s.die d).cur.isNone && (s.die d).suspended.isNone)

/-- BAY_REMOVAL_DRAINED (steps 3 and 4 of Table 6-9): the dies are absent, the pads held, reset and power low. -/
def execBayRemovalDrained (b : Nat) (s : State) : Out :=
  guardUnit s (bayOk b)
    (if (s.bay b).bstate = 7 && (s.bay b).pwren && s.bayDrained b && !s.flt.safe then
       let s1 := (s.bayDiesGone b).bayChans b 5
       ((s1.modBay b (fun x => { x with step := 5, held := true, rstN := false, pwren := false })).modIsl (islMCL b) (fun i => { i with removalHold := true })).shutCheckAll
     else s)

/-! Commands on new dies, and power (R199, R202). -/

/-- The new dies join (R199): they are erased and what their positions held is rebuilt; the set's spare is counted again. -/
def State.acceptOne (s : State) (x : ScanDie) : State :=
  let s1 := s.acceptDie x.die x.uid x.bad
  match s1.dieSet x.die with
  | none => s1
  | some q => (s1.spareCheck q).refreshWaiting
def State.acceptAll (s : State) (l : List ScanDie) : State := l.foldl (fun t x => t.acceptOne x) s

/-- A write of CMD = 2, which takes the new dies in, or 3, which does not; without any it is refused. -/
def State.bayNewCmd (s : State) (b cmd : Nat) : State :=
  let x := s.bay b
  if x.cmdAct.busy then s.setBay b { x with cmdAct := x.cmdAct.meet }
  else if x.bstate != 4 || x.newDies.isEmpty then s.setBay b { x with cmd := cmd, cmdAct := wsNow false }
  else
    let s1 := s.setBay b { x with cmd := cmd, newDies := [], cmdAct := wsNow true }
    (if cmd = 2 then s1.acceptAll x.newDies else s1).settleBay b

/-- BAY_ACCEPT. -/
def execBayAccept (b : Nat) (s : State) : Out := guardUnit s (bayOk b) ((s.bayNewCmd b 2).rebuildCheck b)

/-- BAY_REJECT: rejected dies are never used. -/
def execBayReject (b : Nat) (s : State) : Out := guardUnit s (bayOk b) ((s.bayNewCmd b 3).rebuildCheck b)

/-- A write of CMD = 4: a faulted bay whose module is seated is powered again, at once or after the safe state
(Table 6-11). -/
def State.bayRetry (s : State) (b : Nat) : State :=
  let x := s.bay b
  if x.cmdAct.busy then s.setBay b { x with cmdAct := x.cmdAct.meet }
  else if x.bstate = 9 ∧ x.prsnt then
    s.setBay b { x with bstate := 2, step := 2, pwren := x.pwren || !s.flt.safe, stepAt := s.nowMs, cmd := 4, cmdAct := wsNow true }
  else s.setBay b { x with cmd := 4, cmdAct := wsNow false }

/-- BAY_RETRY_POWER. -/
def execBayRetryPower (b : Nat) (s : State) : Out := guardUnit s (bayOk b) (s.bayRetry b)

end Sys2Proof.Machine
end

