-- ==== Sys2Proof/Machine/Life.lean ====
section
/-! DEFINITION. The rows of media life, of the Z9's own zone changes and of power failure (04 R119, 05 R151, R157, R163, R166,
07 R212 to R230). -/

namespace Sys2Proof.Machine

/-! Landing at PFAIL_N or thermal shutdown (R119, R409). -/

/-- Does a context still count as received write data at a power failure? Such writes commit into the buffer, all others are
abandoned; nothing is posted (Table 4-8). -/
def State.abandonCtxs (s : State) : State :=
  let l := (byFseq s.cmd.ctxs).map (·.1)
  let keep := l.filter (fun c => (s.ctx c).fullyReceived && (s.ctx c).outc.isNone)
  let s1 := (l.filter (fun c => !keep.contains c)).foldl (fun t c =>
    if (t.ctx c).committed then (t.dropWaiter c).freeCtx c else (t.dropWaiter c).vanish c) s
  keep.foldl (fun t c => t.resetCommit c) s1

/-- Every relocation is abandoned: the source stays authoritative, the targets are erased (Table 7-3). -/
def State.abandonRelocs (s : State) : State :=
  s.med.relocs.foldl (fun t e =>
    let t1 := (t.dropTarget e.2).dropRelocOps e.1
    { t1 with med := { t1.med with relocs := tdel t1.med.relocs e.1 } }) s

/-- The zone a buffered unit belongs to. -/
def State.unitZone (s : State) (k : Nat) : Option Nat := (tval s.med.use (ukRow k) : RowUse).zent

/-- The committed dirty units in landing order: each zone by offset, conventional data by commit order. -/
def State.dirtyGroups (s : State) : List (List Nat) :=
  let ks := s.undurable (fun _ => true)
  let zs := (ks.filterMap s.unitZone).eraseDups
  (zs.map (fun e => sortByKey (fun k => (s.lineAt k).elim 0 (·.lba)) (ks.filter (fun k => s.unitZone k == some e))))
    ++ [sortByKey (fun k => (s.lineAt k).elim 0 (·.order)) (ks.filter (fun k => (s.unitZone k).isNone))]

/-- Can a die take such a landing? The safe state's pad holds are lifted for it (Table 12-6). -/
def State.pfailDie (s : State) (d : Nat) : Bool :=
  (s.die d).state.present && (s.chan (dieChannel d)).cstate != 4 && (s.chan (dieChannel d)).cstate != 0 && !(s.bay (dieBay d)).held

/-- A landing that has ended: its stripe stands on its dies, its units are durable. -/
def State.landedNow (s : State) (set : Nat) (units : List Nat) : State :=
  if units.isEmpty then s
  else
    let l : Landing := { s.landStripe .pfail set units (s.landFrom set s.pfailDie) with waiting := [], issued := true }
    (l.dies.foldl (fun t p => t.modBlk p.1 p.2 (fun b => { b with mode := 0, programmedAt := t.nowMs + 1 })) (s.takeLanding l)).markDurable units

/-- Land a list of units whose die sets can take a stripe. -/
def State.landGroup (s : State) (l : List Nat) : State :=
  ((l.map s.unitSet).eraseDups).foldl (fun t set =>
    if (t.landFrom set t.pfailDie).isEmpty then t else t.landedNow set (l.filter (fun k => s.unitSet k == set))) s

/-- Land all dirty data; when power goes first, of each group a prefix of free length (R119) (DESIGN CHOICE, log 55). -/
def State.landAll (s : State) (whole : Bool) : State :=
  s.dirtyGroups.foldl (fun t g =>
    if whole then t.landGroup g
    else
      let r := drawNat t
      r.2.landGroup (g.take (r.1 % (g.length + 1)))) s

/-- Sleeping MCL and DMI islands are woken for the landing, at once (Table 13-6, wake cause 4). -/
def State.wakeForLanding (s : State) : State :=
  (List.range 24).foldl (fun t i =>
    if (t.isle (10 + i)).dstate.asleep && (t.isle (10 + i)).avail != .isolated && present t.pat.eff (10 + i) && !t.thm.shutdown then
      let t1 := t.modIsl (10 + i) (fun x => { x with dstate := .on, avail := .available, change := none, wakeCause := 4, wakes := satAdd 16 x.wakes 1
                                                     filled := true, sleepHold := false })
      if isDmi (10 + i) && !t.flt.safe then { t1 with pwr := { t1.pwr with dramState := tset t1.pwr.dramState (i - 16) 0 } } else t1
    else t) s

/-- PFAIL_ASSERT (R119, Tables 4-8, 6-11, 7-3): `landed` says whether power lasted until landing ended. Without hold-up mode
nothing is landed. -/
def execPfailAssert (landed : Bool) (s : State) : Out :=
  .next (
    let s0 : State := { s with glb := { s.glb with pfailN := false }, cmd := { s.cmd with fetchStopAll := true }, mic := { s.mic with replays := [] } }
    let s1 := s0.abandonCtxs.abandonRelocs
    if s1.holdup then (s1.wakeForLanding).landAll landed else s1)

/-! Zones (Table 5-4, R151). -/

/-- The entry of a zone of a zoned namespace. -/
def State.zoneArg (s : State) (n z : Nat) : Option Nat :=
  match s.ns? n with
  | none => none
  | some x => if x.zoned && decide (z < s.zoneCount n) then some (s.zoneEnt n z) else none

/-- ZONE_FINISH_RECOMMEND (R157): no write for 24 h. -/
def execZoneFinishRecommend (n z : Nat) (s : State) : Out :=
  guardUnit s (nsOk n)
    (match s.zoneArg n z with
     | none => s
     | some e =>
       let v := s.zent e
       if v.state.active && !v.fzr && decide (v.lastWrite + 86400000 ≤ s.nowMs) then (s.setZent e { v with fzr := true, fzrAt := s.nowMs }).zoneEvent e else s)

/-- ZONE_CONTROLLER_FINISH (R157): FZR for a further 48 h with no write. -/
def execZoneControllerFinish (n z : Nat) (s : State) : Out :=
  guardUnit s (nsOk n)
    (match s.zoneArg n z with
     | none => s
     | some e =>
      let v := s.zent e
      if v.state.active && v.fzr && decide (max v.fzrAt v.lastWrite + 172800000 ≤ s.nowMs) then (s.ctlFinish e false).refreshWaiting else s)

/-- A write of ZON_NS_CFG[n]: refused for a namespace that does not exist or is conventional, and out of range. -/
def State.zoneLimits (s : State) (n a o : Nat) : State :=
  let ok := (match s.ns? n with | some x => x.zoned | none => false) && decide (1 ≤ a) && decide (a ≤ 8192) && decide (1 ≤ o) && decide (o ≤ a)
  let s1 := { s with zon := { s.zon with nsAct := tset s.zon.nsAct n (if ok then wsNow true else wsShown (a % 16384 + o % 16384 * 16384)) } }
  if ok then (s1.modNs n (fun x => { x with maxActive := a, maxOpen := o })).noteNs n (s1.ns n).slices else s1

/-- ZONE_LIMIT_CONFIG. -/
def execZoneLimitConfig (n maxActive maxOpen : Nat) (s : State) : Out :=
  guardUnit s (nsOk n) (s.zoneLimits n (maxActive % 16384) (maxOpen % 16384))

/-- RU_TIME_LIMIT_EXCEEDED (R166): the event, when the handle has a reclaim unit open. -/
def execRuTimeLimitExceeded (set handle : Nat) (s : State) : Out :=
  guardUnit s (setOk set)
    (if (tval s.zon.fdp set : Fdp).enabled
        && s.zon.nss.any (fun e => (s.clsRec e.2.cls).set == set && !e.2.zoned && e.2.handles.contains handle && (List.range (max 1 s.reclaimGroups)).any (fun g => (s.convOpenRow e.1 g handle).isSome))
     then s.fdpEvent set 1 handle else s)

/-- JOURNAL_CHECKPOINT (R163): while the journal, once past 3 GiB, has not fallen below 1 GiB, the segment of the oldest change is
checkpointed. What that frees is free; with no segment left nothing is in the journal (DESIGN CHOICE, log 54). -/
def execJournalCheckpoint (seg : Nat) (s : State) : Out :=
  .next (match s.zon.journalSegs with
    | [] => s
    | a :: t =>
      if a = seg ∧ s.zon.ckptRun ∧ !s.flt.safe then
        let r := drawNat s
        let b := if t.isEmpty then 0 else r.1 % (s.zon.journalBytes + 1)
        { r.2 with zon := { r.2.zon with journalSegs := t, ckptSeq := s.zon.ckptSeq + 1, journalBytes := b, ckptRun := decide (2 ^ 30 ≤ b) } }
      else s)

/-! Configuration. -/

/-- A write of MLF_WL_CFG. -/
def State.wearConfig (s : State) (limit stop reloc : Nat) : State :=
  if 2 ≤ limit ∧ limit ≤ 50 ∧ 1 ≤ stop ∧ stop + 1 ≤ limit ∧ 1 ≤ reloc ∧ reloc ≤ 50 then
    { s with mlf := { s.mlf with wlLimit := limit, wlStop := stop, wlReloc := reloc, wlAct := wsNow true } }
  else { s with mlf := { s.mlf with wlAct := wsNow false } }

/-- WEAR_LEVEL_CONFIG. -/
def execWearLevelConfig (limit stop reloc : Nat) (s : State) : Out := .next (s.wearConfig (limit % 64) (stop % 64) (reloc % 64))

/-- A write of MLF_SPARE_CFG. -/
def State.spareConfig (s : State) (t : Nat) : State :=
  if 1 ≤ t ∧ t ≤ 50 then { s with mlf := { s.mlf with spareThresh := t, spareAct := wsNow true } }
  else { s with mlf := { s.mlf with spareAct := wsShown t } }

/-- SPARE_THRESHOLD_CONFIG. -/
def execSpareThresholdConfig (thresh : Nat) (s : State) : Out := .next (s.spareConfig (thresh % 128))

/-! Records, spread and age. -/

/-- HOURLY_RECORD_SAVE (DEDUCED, log 184). -/
def execHourlyRecordSave (s : State) : Out := .next (if s.flt.safe ∨ s.nowMs < s.mlf.savedMs + 3600000 then s else s.saveRecords)

/-- The wear of the blocks of `r` rows in whole cycles, twelfths truncated, and their count: a mean is the pair (R215). -/
def State.rowsWear (s : State) (t : StripeTmpl) (k r : Nat) : Nat × Nat :=
  (sumNat ((List.range r).map (fun i => sumNat (t.dies.map (fun d => (s.blk d (k + i)).wear / 12)))), r * t.dies.length)
def meanLess (a b : Nat × Nat) : Bool := decide (a.1 * b.2 < b.1 * a.2)

/-- The first of a list of rows, each with its template, block and mean wear, that no other goes before. -/
def bestMean (better : Nat × Nat → Nat × Nat → Bool) : List (Nat × Nat × Nat × Nat) → Option (Nat × Nat × Nat × Nat)
  | [] => none
  | c :: t => some (t.foldl (fun a b => if better b.2.2 a.2.2 then b else a) c)

/-- Is a row cold (R215): a Full zone or a fully written conventional row, its data written and moved at least 7 days ago? -/
def State.coldRow (s : State) (rk : Nat) (u : RowUse) : Bool :=
  let old (t : Nat) : Bool := decide (t + 7 * dayMs ≤ s.nowMs)
  !u.target && old u.writtenAt && (u.movedAt == 0 || old u.movedAt) && !s.relocating (rkTmpl rk) (rkBlock rk)
    && (match u.zent with
        | some e => (s.zent e).state == .full && rowKey (s.zent e).tmpl (s.zent e).block == rk
        | none => decide (s.rowUnits (rkTmpl rk) u.mode ≤ u.next + u.cut))

/-- Rows that a source takes: its zone's, or one. -/
def State.srcRows (s : State) (u : RowUse) : Nat := match u.zent with | some e => s.zoneR e | none => 1

/-- The cold source of lowest mean wear of a die set: template, block, mean wear. -/
def State.coldSource (s : State) (set : Nat) : Option (Nat × Nat × Nat × Nat) :=
  bestMean meanLess ((s.med.use.filter (fun e => (s.stmpl (rkTmpl e.1)).set == set && s.coldRow e.1 e.2)).map (fun e =>
    (rkTmpl e.1, rkBlock e.1, s.rowsWear (s.stmpl (rkTmpl e.1)) (rkBlock e.1) (s.srcRows e.2))))

/-- One pass of static wear levelling (R215): the coldest young rows move to the most worn free rows. -/
def State.wearPass (s : State) (set : Nat) : State :=
  let w := (s.setBlocks set).map (fun e => e.1 / 12)
  match s.coldSource set with
  | none => s
  | some (tm, k, m) =>
    let u : RowUse := tval s.med.use (rowKey tm k)
    let r := s.srcRows u
    if !meanLess m (sumNat w, w.length) then s
    else match bestMean (fun a b => meanLess b a) ((s.rowCands (s.relocTmpls tm) r).map (fun c => (c.1, c.2.1, s.rowsWear (s.stmpl c.1) c.2.1 r))) with
      | none => s
      | some (tt, tk, tw) =>
        if !meanLess m tw then s
        else
          let id := s.med.nextReloc
          let z := s.zent (u.zent.getD 0)
          let rel : Reloc := { cause := .wear, ns := u.ns, zent := u.zent, srcTmpl := tm, srcBlock := k, rows := r, mode := u.mode
                               hasTgt := true, tgtTmpl := tt, tgtBlock := tk
                               gens := match u.zent with | some e => [(e, z.gen)] | none => [] }
          let s1 := s.takeRows tt tk r { u with target := true, missing := [], zent := none, next := 0, holes := [] }
          let s2 := { s1 with med := { s1.med with relocs := tset s1.med.relocs id rel, nextReloc := id + 1 } }
          (s2.closeRows (fun q => rel.holds (unitKey q.tmpl q.block 0))).relBegin id

/-- WEAR_SPREAD_CHECK (R215). -/
def execWearSpreadCheck (set : Nat) (s : State) : Out :=
  guardUnit s (setOk set)
    (let s1 := s.spreadCheck set
     if (s1.setLife set).wlActive && !s1.flt.safe && !s1.thm.coldHold then s1.wearPass set else s1)

/-- The retention interval of a mode, in hours: the margin plan's (R417), or REFRESH_MAX_H before any plan (DEDUCED, log 56). -/
def State.refreshH (s : State) (mode : Nat) : Nat :=
  match s.age.plan.refresh[mode]? with
  | some v => v
  | none => s.pat.eff.cal.refMaxH

/-- RETENTION_AGE_CHECK (R216): is the age past the interval of a mode that data of the group is in? -/
def execRetentionAgeCheck (die group ageH : Nat) (s : State) : Out :=
  guardUnit s (dieOk die)
    (if (List.range 16).any (fun i => (s.blk die (group * 16 + i)).programmedAt != 0 && decide (s.refreshH (s.blk die (group * 16 + i)).mode < ageH))
     then s.queueGroup die (group * 16) false else s)

/-! The relocation switch (R217, R218). -/

/-- Does a range of LBAs cover an entry: a zone table entry, or a map entry? -/
def State.rngCovers (s : State) (r : Rng) (e : Nat) : Bool :=
  if e < 2 ^ 64 then
    s.entNs e == some r.ns && decide (s.entZone e * s.zsze r.ns ≤ r.hi) && decide (r.lo < (s.entZone e + 1) * s.zsze r.ns)
  else decide (mapKey r.ns r.lo ≤ e) && decide (e ≤ mapKey r.ns r.hi)

/-- Does an uncommitted command pin the entry: one that re-runs without speculation holds a pin on its ranges from its fourth GEN squash
to its commit (R103)? -/
def State.pinned (s : State) (e : Nat) : Bool :=
  tany s.cmd.ctxs (fun _ x => x.open && x.noSpec && (x.records e
    || (match x.lockR with | some r => s.rngCovers r e | none => false) || (match x.lockW with | some r => s.rngCovers r e | none => false)))

/-- Does an uncommitted command hold an earlier GEN of the entry (R148)? -/
def State.staleHeld (s : State) (e : Nat) : Bool :=
  tany s.cmd.ctxs (fun _ x => x.open && (x.void.contains e || x.units.any (fun u => u.genKey == e && u.gen != s.curGen e)
    || (match tget x.zgens e with | some g => g != s.curGen e | none => false)))

/-- The entries that a relocation switches: a zone's, or the conventional entries whose GEN is the one they held when their unit was read
(R218). -/
def State.relocKeys (s : State) (r : Reloc) : List Nat :=
  match r.zent with
  | some e => [e]
  | none => (r.gens.filter (fun g => (s.mapEnt g.1).gen == g.2)).map (·.1)

/-- May the switch take place: target programmed, and after a safe state verified, no pin, no held generation, no pause? -/
def State.maySwitch (s : State) (id : Nat) (r : Reloc) : Bool :=
  r.hasTgt && r.programming && !r.paused && !s.flt.safe && !s.thm.coldHold && s.mic.replays.isEmpty
    && !(tany s.med.dies (fun _ x => x.ops.any (fun o => o.k == .reloc id)))
    && !(s.med.busyAtSafe.any (fun b => (s.stmpl r.tgtTmpl).dies.contains b.die))
    && (s.stmpl r.tgtTmpl).dies.all (fun d => (s.die d).ops.all (fun o => match o.k with
        | .verify b => !(decide (r.tgtBlock ≤ b) && decide (b < r.tgtBlock + r.rows)) | _ => true))
    && (s.relocKeys r).all (fun e => !s.pinned e && !s.staleHeld e)

/-- The units of one stripe row of the target, as a stripe row: TAG fields are kept, a lost unit becomes a poison codeword, target parity is
computed, and every other position is padding (R217 step 2). -/
def State.targetRow (s : State) (r : Reloc) (l : List Nat) (off idx : Nat) : SRow :=
  let ks := l.filter (fun k => rkBlock (ukRow k) - r.srcBlock == off && s.cellIdx k == idx)
  let c (k : Nat) : Cell := tval s.med.flash k
  let r0 : SRow := { ns := r.ns, mode := r.mode, tmpl := r.tgtTmpl, block := r.tgtBlock + off, idx := idx, padded := true
                     seq := match ks with | [] => 0 | k :: _ => (c k).tagSeq }
  ks.foldl (fun w k =>
    let x : Line := { ns := (c k).tagNs, lba := (c k).tagLba, blk := (c k).blk, bad := (c k).poison || r.lostUnits.contains k }
    let w1 := w.absorb (s.stmpl r.tgtTmpl).data (s.idxOf k) x.blk
    { w1 with lines := tset w1.lines (s.idxOf k) x }) r0

/-- The target rows hold the units that move (R217). -/
def State.copyUnits (s : State) (r : Reloc) (l : List Nat) : State :=
  let at1 := (l.map (fun k => (rkBlock (ukRow k) - r.srcBlock, s.cellIdx k))).eraseDups
  let f := at1.foldl (fun f p => tmerge (s.rowCells (rowKey r.tgtTmpl (r.tgtBlock + p.1) * 2 ^ 32 + p.2) (s.targetRow r l p.1 p.2)) f) s.med.flash
  { s with med := { s.med with flash := f } }

/-- The units that the switch moves: a zone's, or those of the entries that switch; what other entries left is garbage (R218). -/
def State.movedUnits (s : State) (r : Reloc) : List Nat :=
  match r.zent with
  | some _ => s.relocUnits r
  | none => (s.relocKeys r).filterMap (fun k => (s.mapEnt k).loc)

/-- The target rows become ordinary rows in use; dies that were away when they were programmed lack their part. -/
def State.adoptRows (s : State) (r : Reloc) : State :=
  (List.range r.rows).foldl (fun t i =>
    let src : RowUse := tval t.med.use (rowKey r.srcTmpl (r.srcBlock + i))
    let k := rowKey r.tgtTmpl (r.tgtBlock + i)
    let u : RowUse := { src with target := false, missing := (tval t.med.use k : RowUse).missing, movedAt := if r.cause = .wear then t.nowMs else src.movedAt }
    { t with med := { t.med with use := tset t.med.use k u } }) s

/-- A map entry switches to its target, GEN advancing by one; that of a lost unit switches with UNC set. -/
def State.switchEntry (s : State) (r : Reloc) (k : Nat) : State :=
  let m := s.mapEnt k
  match m.loc with
  | none => s
  | some o =>
    ((s.setMap k { m with loc := some (r.move o), unc := m.unc || r.lostUnits.contains o, gen := (m.gen + 1) % 65536 }).noteJournal k).journal 1

/-- The entries switch, each GEN advancing by one. -/
def State.switchEntries (s : State) (r : Reloc) : State :=
  match r.zent with
  | some e =>
    let z := s.zent e
    let reb := r.cause == .rebuild && (z.degraded || z.rzr)
    let s1 := (s.setZent e { z with tmpl := r.tgtTmpl, block := r.tgtBlock, degraded := z.degraded && !reb, rzr := z.rzr && !reb }).rollback e 0
    if reb then s1.zoneEvent e else s1
  | none => (s.relocKeys r).foldl (fun t k => t.switchEntry r k) s

/-- The source blocks are released for erase; one that reached step 3 is retired instead (R221). -/
def State.releaseSource (s : State) (r : Reloc) : State :=
  let bad := (s.stmpl r.srcTmpl).dies.flatMap (fun d =>
    ((List.range r.rows).filter (fun i => (s.blk d (r.srcBlock + i)).step3)).map (fun i => (d, r.srcBlock + i)))
  bad.foldl (fun t p => t.retireBlock p.1 p.2) (s.returnRows r.srcTmpl r.srcBlock r.rows)

/-- The switch at one instant (R217 step 4 and step 5) (DEDUCED, log 37). -/
def State.doSwitch (s : State) (id : Nat) (r : Reloc) : State :=
  let moved := (s.relocKeys r).length
  let s1 := (((s.copyUnits r (s.movedUnits r)).adoptRows r).switchEntries r).relCnt 9 (r.gens.length - moved)
  let s2 := match r.cause.cnt with | some k => s1.relCnt k r.rows | none => s1
  let s3 := r.bays.foldl (fun t b => t.clCnt b 9 r.rows) s2
  let s4 := s3.releaseSource r
  let s5 := { s4 with med := { s4.med with relocs := tdel s4.med.relocs id } }
  let set := (s.stmpl r.srcTmpl).set
  let s6 := if r.zent.isNone && 0 < moved && (tval s5.zon.fdp set : Fdp).enabled then s5.fdpEvent set 0x80 0 else s5
  r.bays.foldl (fun t b => t.rebuildCheck b) s6

/-- RELOCATION_SWITCH. A relocation that may not switch goes on where it stands: target rows, source reads, reads that waited for a bay. -/
def execRelocationSwitch (id : Nat) (s : State) : Out :=
  .next (match tget s.med.relocs id with
    | none => s
    | some r => if s.maySwitch id r then s.doSwitch id r else s.relStep id)

end Sys2Proof.Machine
end

