-- ==== Sys2Proof/Machine/JobParse.lean ====
section
/-! DEFINITION. The Job command up to its wait for commit: descriptor, checks, admission, translation (08 R231 to R241). -/

namespace Sys2Proof.Machine

/-! Handles. -/

/-- Bytes of a live compute memory handle of a slice: not a program, not being freed (R245). -/
def State.cmSize (s : State) (sl h : Nat) : Option Nat :=
  match s.alloc? sl h with
  | none => none
  | some a => if a.isProg || a.freeing then none else some a.size

/-- A live program of a slice (R273, R274). -/
def State.prog? (s : State) (sl h : Nat) : Option Alloc :=
  match s.alloc? sl h with
  | none => none
  | some a => if a.isProg && !a.freeing then some a else none

/-- Does a range lie inside a live allocation? -/
def State.cmRange (s : State) (sl h off n : Nat) : Bool := match s.cmSize sl h with | none => false | some z => decide (off + n ≤ z)

/-! The submission queue entry (R232). -/

def jobSqeBad (q : Sqe) : Bool :=
  q.cdw2 != 0 || q.cdw3 != 0 || q.cdw14 != 0 || q.cdw15 != 0 || q.cdw10.toNat / 65536 != 0 || q.cdw11.toNat / 16 != 0
    || q.cdw12.toNat % 64 != 0 || q.mptr != 0

/-! The descriptor (Table 8-3). -/

def jdInList (b : List Byte) : Bool := bitAt (u16 b 6) 0
def jdListCm (b : List Byte) : Bool := bitAt (u16 b 6) 1
def jdAuxCm (b : List Byte) : Bool := bitAt (u16 b 6) 2
def jdResCm (b : List Byte) : Bool := bitAt (u16 b 6) 3

/-- OUT_KIND 3 takes a conventional namespace and OUT_KIND 4 a zoned one (R237); a namespace that is not there is left to
stage 4. -/
def State.outKindOk (s : State) (ok n : Nat) : Bool :=
  match s.ns? n with
  | none => true
  | some x => x.zoned == (ok == 4)

/-- OUT_KIND 4 names a zone by its first LBA; one past the end is left to the translation. -/
def State.outZoneOk (s : State) (ok n a : Nat) : Bool :=
  match s.ns? n with
  | none => true
  | some x => ok != 4 || !x.zoned || decide (x.nsze ≤ a) || s.zoneOff n a == 0

/-- The checks of a descriptor's own fields, in offset order. -/
def State.descChecks (s : State) (sl : Nat) (b : List Byte) : Checks :=
  let kind := u8 b 2
  let ok := u8 b 0xC
  let n := u32 b 8
  let cl := u8 b 0xD
  [(0, u16 b 0 == 1), (2, decide (1 ≤ kind) && decide (kind ≤ 5)), (3, u8 b 3 == 0), (4, decide (u16 b 4 < 4096)),
   (6, decide (u16 b 6 < 64)), (8, decide (1 ≤ n) && decide (n ≤ if jdInList b then 65536 else 4)), (0xC, decide (ok ≤ 4)),
   (0xD, cl == 0 || (decide (12 ≤ cl) && decide (cl ≤ 22))),
   (0x10, if ok = 3 ∨ ok = 4 then u32 b 0x10 != 0 && s.outKindOk ok (u32 b 0x10) else u32 b 0x10 == 0),
   (0x14, ok != 2 || (s.cmSize sl (u16 b 0x14)).isSome), (0x16, !(jdAuxCm b && u16 b 0x3C != 0) || (s.cmSize sl (u16 b 0x16)).isSome),
   (0x18, (ok != 2 || s.cmRange sl (u16 b 0x14) (u64 b 0x18) 1) && s.outZoneOk ok (u32 b 0x10) (u64 b 0x18)), (0x20, !(ok == 3 || ok == 4) || u64 b 0x20 != 0),
   (0x34, kind != 2 || decide (u32 b 0x34 ≤ 61440)), (0x39, u8 b 0x39 == 0), (0x3A, kind != 2 || (s.prog? sl (u16 b 0x3A)).isSome),
   (0x3C, decide (u16 b 0x3C ≤ 4096)), (0x3E, !jdResCm b || (s.cmSize sl (u16 b 0x3E)).isSome),
   (0x40, !(jdAuxCm b && u16 b 0x3C != 0) || s.cmRange sl (u16 b 0x16) (u64 b 0x40) (u16 b 0x3C)),
   (0x48, u64 b 0x48 % 8 == 0 && (!jdResCm b || s.cmRange sl (u16 b 0x3E) (u64 b 0x48) 64)),
   (0x50, !(jdInList b && jdListCm b) || (s.cmSize sl (u16 b 0x58)).isNone || s.cmRange sl (u16 b 0x58) (u64 b 0x50) (n * 32)),
   (0x58, !(jdInList b && jdListCm b) || (s.cmSize sl (u16 b 0x58)).isSome)]
  ++ auxZeros b 0x5A 6 ++ (if kind = 2 then [] else auxZeros b 0x60 16) ++ auxZeros b 0x70 16
  ++ (List.range 4).flatMap (fun i => if !jdInList b && decide (i < n) then [] else auxZeros b (0x80 + 32 * i) 32)

/-- One input extent (Table 8-4). -/
def extentAt (b : List Byte) (o : Nat) : Extent :=
  { src := u8 b o, flush := bitAt (u8 b (o + 1)) 0, chunkEnd := bitAt (u8 b (o + 1)) 1, run := u8 b (o + 2), handle := u16 b (o + 4)
    addr := u64 b (o + 8), len := u64 b (o + 0x10) }

/-- The kinds of input a job kind takes (Table 8-5): namespace, compute memory, host memory. -/
def srcOk (kind : Nat) (r : RouteSlot) (src : Nat) : Bool :=
  let last := stageKind (r.stages.getLastD 0)
  if kind = 1 then (if r.dir then src == (if last = kHost then 2 else 1) else src == 0 || src == 1)
  else if kind = 2 then true
  else if kind = 5 then src == 0
  else src == 0 || src == 1

/-- Is an extent as R235 and Table 8-5 allow? -/
def State.extentOk (s : State) (sl kind nruns : Nat) (r : RouteSlot) (b : List Byte) (o : Nat) : Bool :=
  let e := extentAt b o
  decide (e.src ≤ 2) && decide (u8 b (o + 1) < 4) && (if kind = 4 then decide (e.run < nruns) else e.run == 0) && u8 b (o + 3) == 0
    && zeroAt b (o + 6) 2 && zeroAt b (o + 0x18) 8 && decide (1 ≤ e.len) && decide (e.len ≤ 2 ^ 40) && srcOk kind r e.src
    && (e.src != 1 || s.cmRange sl e.handle e.addr e.len)

/-- The route a job kind requires, and its OUT_KIND (Table 8-5): the offset of the field that fails (DEDUCED, log 103). -/
def kindChecks (kind ok : Nat) (r : RouteSlot) : Checks :=
  let ks := r.stages.map stageKind
  let last := ks.getLastD 0
  let user := (ks.filter (· == kUser)).length
  let idx := r.stages.filter (fun w => stageKind w == kIndex)
  let merge := idx.any (fun w => stageParam w == 3)
  [(4, decide ((ks.filter (fun k => k == kSieve || k == kIndex)).length ≤ 1)
      && (if kind = 1 then user == 0 && (r.dir || !merge)
          else if kind = 2 then user == 1
          else if kind = 3 then !r.dir && idx.length == 1 && !merge && user == 0
          else if kind = 4 then !r.dir && idx.length == 1 && merge && user == 0
          else !r.dir && user == 0)),
   (0xC, if kind = 1 then (if r.dir then ok == 3 || ok == 4 else ok == (if last = kHost then 1 else 2))
         else if kind = 2 then true
         else if kind = 3 then (if idx.any (fun w => stageParam w == 1) then ok == 1 || ok == 2 else ok == 0)
         else if kind = 4 then ok == 2 || ok == 3 || ok == 4
         else ok == 3 || ok == 4)]

/-- The checks of the auxiliary descriptor that the route's stage reads; its length fails at AUX_LEN (DEDUCED, log 96). -/
def State.auxChecks (s : State) (sl : Nat) (r : RouteSlot) (aux : List Byte) : Option (Nat ⊕ Nat) :=
  let at3C (ok : Bool) (l : Checks) : Option (Nat ⊕ Nat) := if ok then l.bad.map Sum.inr else some (.inl 0x3C)
  match r.stages.find? (fun w => stageKind w == kSieve || stageKind w == kIndex) with
  | none => none
  | some w =>
    if stageKind w = kSieve then at3C (decide (864 ≤ aux.length) && decide (aux.length ≤ 1024)) (sieveChecks aux (fun h => (s.cmSize sl h).isSome))
    else if stageParam w = 3 then at3C (decide (16 ≤ aux.length)) (mergeChecks aux)
    else at3C (decide (64 ≤ aux.length)) (indexChecks (stageParam w) aux (s.cmSize sl))

/-- Do two byte ranges share a byte? -/
def byteOverlap (a n b m : Nat) : Bool := decide (a < b + m) && decide (b < a + n)

/-- LBAs of a namespace output (R237). -/
def JobDesc.outLbas (d : JobDesc) : Nat := ceilDiv d.outLimit 4096

/-- Could an output overlap an input (R238)? The field that names the output. -/
def State.overlapAt (s : State) (sl nsid : Nat) (b : List Byte) (d : JobDesc) : Option Nat :=
  let z := (s.cmSize sl d.outHandle).getD 0
  let cm := d.exts.filter (fun e => e.src == 1)
  let onOut (h a n : Nat) : Bool := d.outKind == 2 && h == d.outHandle && byteOverlap a n d.outAddr (if d.outLimit = 0 then z - d.outAddr else d.outLimit)
  let onRes (h a n : Nat) : Bool := d.resultCm && h == d.resultHandle && byteOverlap a n d.resultAddr 64
  let lists : List (Nat × Nat × Nat) := cm.map (fun e => (e.handle, e.addr, e.len))
    ++ (if jdInList b && jdListCm b then [(u16 b 0x58, u64 b 0x50, u32 b 8 * 32)] else [])
    ++ (if jdAuxCm b && u16 b 0x3C != 0 then [(u16 b 0x16, u64 b 0x40, u16 b 0x3C)] else [])
  let hostIn := d.exts.filter (fun e => e.src == 2)
  if lists.any (fun l => onOut l.1 l.2.1 l.2.2) then some 0x18
  else if d.outKind = 3 && nsid == d.outNsid
      && d.exts.any (fun e => e.src == 0 && byteOverlap e.lba e.lbas d.outAddr d.outLbas) then some 0x18
  else if d.outKind = 4 && nsid == d.outNsid
      && d.exts.any (fun e => e.src == 0 && byteOverlap e.lba e.lbas d.outAddr (s.zsze nsid)) then some 0x18
  else if lists.any (fun l => onRes l.1 l.2.1 l.2.2) then some 0x48
  else if !d.resultCm && d.resultAddr != 0 && hostIn.any (fun e => byteOverlap e.addr e.len d.resultAddr 64) then some 0x48
  else none

/-- The fields of a descriptor; a quota of 0 takes the template's. -/
def State.jobDesc (s : State) (sl : Nat) (b : List Byte) (exts : List Extent) (aux : List Byte) : JobDesc :=
  let t := s.tmpl sl
  let dflt (v d : Nat) : Nat := if v = 0 then d else v
  { kind := u8 b 2, route := u16 b 4, pad4k := bitAt (u16 b 6) 4, chunkHdr := bitAt (u16 b 6) 5, outKind := u8 b 0xC, chunkLog2 := u8 b 0xD
    ratio := dflt (u16 b 0xE) 1024, outNsid := u32 b 0x10, outHandle := u16 b 0x14, outAddr := u64 b 0x18, outLimit := u64 b 0x20
    decLimit := dflt (u64 b 0x28) (2 ^ 40), timeMs := dflt (u32 b 0x30) t.jobMs, memMib := dflt (u32 b 0x34) t.jobMib
    cores := dflt (u8 b 0x38) t.jobCores, prog := u16 b 0x3A, resultCm := jdResCm b, resultHandle := u16 b 0x3E, resultAddr := u64 b 0x48
    arg0 := u64 b 0x60, arg1 := u64 b 0x68, exts := exts, aux := aux, raw := b }

/-- Every compute memory and program handle a job names. -/
def jobHandles (b : List Byte) (r : RouteSlot) (d : JobDesc) : List Nat :=
  let ks := r.stages.map stageKind
  ((d.exts.filter (fun e => e.src == 1)).map (·.handle)) ++ (if d.outKind = 2 then [d.outHandle] else [])
    ++ (if jdAuxCm b && u16 b 0x3C != 0 then [u16 b 0x16] else []) ++ (if d.resultCm then [d.resultHandle] else [])
    ++ (if jdInList b && jdListCm b then [u16 b 0x58] else []) ++ (if d.kind = 2 then [d.prog] else [])
    ++ (if ks.contains kSieve then ((sieveDesc d.aux).terms.filter (fun t => t.op == 7 || t.op == 8)).map (·.handle) else [])
    ++ (if hasTable (r.stages.map (fun w => (0, w))) then [(indexDesc d.aux).handle] else [])

/-- Does a descriptor ask for more than its template allows (R241)? -/
def overQuota (t : SliceTmpl) (d : JobDesc) : Bool :=
  (t.jobMs != 0 && decide (t.jobMs < d.timeMs)) || (d.kind == 2 && (decide (t.jobMib < d.memMib) || decide (t.jobCores < d.cores) || d.cores == 0))

/-- Invalid Field in Command with its DW0 (R233). -/
def fieldOut (off : Nat) : Outc := { sv := stv .invalidField, dw0 := off }

/-- The bytes of a part of a job that lies in compute memory or was read from the host; none: the read failed. -/
def State.jobPart (s : State) (sl : Nat) (cm : Bool) (h off n : Nat) (host : Option (List Byte)) : Option (List Byte) :=
  if cm then some (memGet (s.cmem sl h) off n) else match host with
    | none => none
    | some l => if l.length = n then some l else none

/-- A host output buffer whose length exponent is not 0 to 14 (Table 8-2). -/
def hostBufBad (q : Sqe) (ok : Nat) : Bool := ok == 1 && q.cdw10.toNat % 65536 == 0 && q.cdw11.toNat % 16 == 15

/-- Stage 3 of a Job command (R233, R236, R238, R241): the descriptor, or how the command ends. -/
def State.jobStage3 (s : State) (sl : Nat) (q : Sqe) (desc list aux : Option (List Byte)) : Except Outc JobDesc :=
  if jobSqeBad q then .error (fieldOut 0)
  else match s.jobPart sl false 0 0 256 desc with
  | none => .error (errOut .dataXfer)
  | some b =>
    match (if hostBufBad q (u8 b 0xC) then some 0 else (s.descChecks sl b).bad) with
    | some o => .error (fieldOut o)
    | none =>
      let r := s.route (u16 b 4)
      if r.state = .free ∨ r.state = .draining then .error (errOut .routeNotBound)
      else match (kindChecks (u8 b 2) (u8 b 0xC) r).bad with
      | some o => .error (fieldOut o)
      | none =>
        let n := u32 b 8
        let al := u16 b 0x3C
        match (if jdInList b then s.jobPart sl (jdListCm b) (u16 b 0x58) (u64 b 0x50) (n * 32) list else some (b.drop 0x80)),
            (if al = 0 then some [] else s.jobPart sl (jdAuxCm b) (u16 b 0x16) (u64 b 0x40) al aux) with
        | some lb, some ab =>
          let exts := (List.range n).map (fun i => extentAt lb (32 * i))
          let d := s.jobDesc sl b exts ab
          match s.auxChecks sl r ab with
          | some (.inl o) => .error (fieldOut o)
          | some (.inr o) => .error (fieldOut (0x1000 + o))
          | none =>
            match (List.range n).find? (fun i => !s.extentOk sl d.kind (u8 ab 0) r lb (32 * i)) with
            | some i => .error (fieldOut (0x20000 + i))
            | none =>
              if (q.nsid != 0) != exts.any (fun e => e.src == 0) then .error (fieldOut 0)
              else match s.overlapAt sl q.nsid b d with
              | some o => .error (fieldOut o)
              | none =>
                if overQuota (s.tmpl sl) d then .error (errOut .quotaExceeded)
                else if d.kind = 2 && (match s.prog? sl d.prog with | some a => a.damaged | none => false) then .error (errOut .programFault)
                else .ok d
        | _, _ => .error (errOut .dataXfer)

/-- The LBAs that hold a job's namespace input. -/
def JobDesc.inLbas (d : JobDesc) : List Nat := d.exts.flatMap (fun e => if e.src = 0 then lbasOf e.lba e.lbas else [])
def JobDesc.inRanges (d : JobDesc) : List LbaRange := (d.exts.filter (fun e => e.src == 0)).map (fun e => { slba := e.lba, nlb := e.lbas })

/-- Stage 6 of a job (R235, R237): its namespace input as Reads, its output range or reservation, its locks. -/
def State.jobStage6 (s : State) (c : Nat) : State :=
  let x := s.ctx c
  let d := (s.job c).desc
  let s1 := s.translateReads c d.inLbas
  if !s1.at6 c then s1.modJob c (fun j => { j with engineErr := 0x10 })
  else
    let s2 := s1.modCtx c (fun y => { y with lockR := hull x.nsid d.inRanges })
    if d.outKind = 3 then
      if (s.ns d.outNsid).zoned then s2.endWith c (fieldOut 0x10) else s2.lockWrite c d.outNsid d.outAddr d.outLbas 8
    else if d.outKind = 4 then
      if !(s.ns d.outNsid).zoned then s2.endWith c (fieldOut 0x10)
      else if (s.ns d.outNsid).nsze ≤ d.outAddr then s2.endErr c .lbaRange
      else if s.zoneOff d.outNsid d.outAddr != 0 then s2.endWith c (fieldOut 0x18)
      else s2.lockZone c d.outNsid (s.zoneOf d.outNsid d.outAddr) none d.outLbas 8
    else s2.enterLock c 8

/-- Stage 4: the slice's compute share, then NSID and OUT_NSID (R231, R233). -/
def State.jobAdmit (s : State) (c : Nat) : State :=
  let x := s.ctx c
  let d := (s.job c).desc
  if (s.slc x.slice).shares.computeW = 0 then s.endErr c .quotaExceeded
  else s.admitCmd c ((if x.nsid = 0 then [] else [(x.nsid, false)]) ++ (if d.outNsid = 0 then [] else [(d.outNsid, true)])) (fun t => t.jobStage6 c)

/-- A job refused at stage 3 whose descriptor was read still writes its result record (R239), where RESULT_ADDR and RESULT_HANDLE
name a place for one (DEDUCED, log 60). -/
def State.noteRefused (s : State) (c : Nat) (desc : Option (List Byte)) : State :=
  let x := s.ctx c
  match (if jobSqeBad x.sqe then none else s.jobPart x.slice false 0 0 256 desc) with
  | none => s
  | some b =>
    let placed := u64 b 0x48 % 8 == 0 && (!jdResCm b || s.cmRange x.slice (u16 b 0x3E) (u64 b 0x48) 64)
    let d := s.jobDesc x.slice b [] []
    s.setJob c { desc := if placed then d else { d with resultCm := false, resultAddr := 0 } }

/-- JOB. -/
def execJob (c : Nat) (desc list aux : Option (List Byte)) (s : State) : Out :=
  guardUnit s (ctxOk c) (if s.rowTurn c opJob then
    let x := s.ctx c
    if x.stage = 3 then
      match s.jobStage3 x.slice x.sqe desc list aux with
      | .error o => (s.noteRefused c desc).endWith c o
      | .ok d =>
        ((s.setJob c { desc := d, handles := jobHandles d.raw (s.route d.route) d }).modCtx c (fun y =>
          { y with route := d.route, fua := y.fua || ((d.outKind == 3 || d.outKind == 4) && !(s.slc x.slice).wce) })).jobAdmit c
    else s.jobStage6 c
  else s)

end Sys2Proof.Machine
end

