-- ==== Sys2Proof/Machine/Compute.lean ====
section
/-! DEFINITION. Engines at work and compute memory (08 R241, R244, R245, R247, R270). -/

namespace Sys2Proof.Machine

/-! The end of a job's work. -/

/-- Output bytes as blocks, the last one padded with zeros (R237); an LBA with metadata gets bytes the spec does not state. -/
def outBlocks (md : Bool) (seed : Nat) (b : List Byte) : List Block :=
  (List.range (ceilDiv b.length 4096)).map (fun i =>
    { bits := leNat (slice b (4096 * i) 4096), md := if md then Config.outMeta (seed + i) else mdOnes })

/-- Add the counts of a flow to CPX_CNT, and its parse failures to the first sieve the job holds. -/
def State.countFlow (s : State) (c : Nat) (f : Flow) : State :=
  let s1 := (List.range f.cnt.length).foldl (fun t k => t.cpxCnt k (f.cnt.getD k 0)) s
  match s1.cpx.sieves.find? (fun e => e.2.busy && e.2.ctx == c) with
  | none => s1
  | some e => { s1 with cpx := { s1.cpx with sieves := tset s1.cpx.sieves e.1 { e.2 with parseFail := satAdd 32 e.2.parseFail f.parseFail } } }

/-- A job's output is whole, or reaches a limit: it waits at stage 13 for its commit (R237, R241). -/
def State.deliverJob (s : State) (c : Nat) (o : RunOut) (sv : StatusVal) (bytesOut bytesIn : Nat) : State :=
  let x := s.ctx c
  let d := (s.job c).desc
  let b := o.flow.bytes
  let l := dataStages (s.route x.route)
  let s1 := s.modJob c (fun j =>
    { j with done := true, out := b, tab := if hasTable l then some o.mem else none, tabHandle := (indexDesc d.aux).handle
             bytesOut := bytesOut, bytesIn := bytesIn, recIn := o.flow.recIn, recOut := o.flow.recOut, chunks := o.flow.chunks })
  let s2 := (s1.releaseJob c).modCtx c (fun y => { y with stage := 13, wait := 0, spec := false, outc := some (bytesOutc sv bytesOut)
                                                          out := if d.outKind = 1 then .bytes b else .none })
  if d.outKind = 3 ∨ d.outKind = 4 then
    let bl := outBlocks ((s.ns d.outNsid).lbaf != 0) s.free b
    let w := if d.outKind = 4 then bl ++ List.replicate (d.outLbas - bl.length) Block.zero else bl
    let s3 : State := { s2 with free := s2.free + bl.length }
    if w.isEmpty then s3 else (s3.modCtx c (fun y => { y with wdata := w })).placeBlocks c d.outNsid w
  else s2

/-- A job's work is over (R240, R241) (DESIGN CHOICE, log 102). -/
def State.finishJob (s : State) (c : Nat) (o : RunOut) : State :=
  let s1 := s.countFlow c o.flow
  let total := sumNat ((s.jobInputs c).map List.length)
  match o.flow.stop with
  | none => s1.deliverJob c o {} o.flow.bytes.length total
  | some st =>
    let r := drawNat s1
    let used := r.1 % (total + 1)
    let s2 := r.2.modJob c (fun j => { j with engineErr := st.err, errStage := st.stage, errExtent := st.ext, bytesIn := used })
    if st.err = 5 ∨ st.err = 6 ∨ st.err = 7 ∨ st.err = 9 then
      s2.deliverJob c o (engStatus st.err) (st.limit.getD o.flow.bytes.length) used
    else s2.failJob c st.err st.stage

/-! Work units. -/

/-- Engine-busy microseconds are charged to the slice at each pool it holds (Table 10-4); how long a unit takes is free. -/
def State.chargeEngines (s : State) (c : Nat) : State :=
  let sl := (s.ctx c).slice
  let r := drawNat s
  let s1 := (s.engineStages c).foldl (fun t w => t.charge sl (engCred (stageKind w)) r.1) r.2
  s1.modSli sl (fun q => { q with stat := { q.stat with engineUs := q.stat.engineUs + r.1 } })

/-- A work unit of a weave has run: it is counted, and the next one starts on fresh cells (R293) (DEDUCED, log 74). -/
def State.weaveUnitDone (s : State) (w : Nat) : State :=
  let half := stageParam w / 128
  let v := stageParam w % 128
  let h : Half := tval s.wvf half
  match (if half = 0 then s.pat.eff.weave0 else s.pat.eff.weave1), weaveDir? s.pat.eff half v with
  | some p, some d =>
    { s with wvf := tset s.wvf half { h with cells := weaveStart p d h.cells, units := tset h.units v (satAdd 20 (tgetD h.units v 0) 1) } }
  | _, _ => s

/-- A unit of a job is done; when all are, so is the job. -/
def State.unitDone (s : State) (c unit : Nat) : State :=
  let s1 := ((s.engineStages c).filter (fun w => stageKind w == kWeave)).foldl (fun t w => t.weaveUnitDone w) (s.chargeEngines c)
  let s2 := s1.modJob c (fun j => { j with units := insertNat j.units unit })
  let v := s2.jobView c
  let o := v.jobRun c
  if (List.range o.flow.units).all (fun u => (s2.job c).units.contains u) then { s2 with free := v.free }.finishJob c o else s2

/-- ENGINE_UNIT_COMPLETE: the output of the finished work units is assembled in input order (R247). For a context whose job is
gone, an engine drops its stale item (R321). -/
def execEngineUnitComplete (c unit : Nat) (s : State) : Out :=
  guardUnit s (ctxOk c)
    (if s.flt.safe then s
     else if s.jobLive c then
       if (s.ctx c).stage = 11 ∧ (s.job c).desc.kind ≠ 2 then
         let s1 := (s.takeEngines c).wakeJob c
         if s1.hasEngines11 c && s1.jobAwake c then s1.unitDone c unit else s1
       else s
     else s.dropStale c)

/-- Has a job's TIME_MS passed since stage 8 (R241)? -/
def State.jobOverTime (s : State) (c : Nat) : Bool :=
  let d := (s.job c).desc
  d.timeMs != 0 && decide (9 ≤ (s.ctx c).stage) && decide ((s.job c).started + d.timeMs * 1000 ≤ s.nowUs)

/-- JOB_TIME_QUOTA_EXPIRE (R241): TIME_MS has passed since stage 8. -/
def execJobTimeQuotaExpire (c : Nat) (s : State) : Out :=
  guardUnit s (ctxOk c)
    (if s.jobLive c ∧ s.jobOverTime c ∧ (s.job c).desc.kind ≠ 6 ∧ !s.flt.safe then s.failJob c 0x0B 0xFF else s)

/-! Compute memory (R244, R245). -/

/-- The entries of a slice: compute memory and programs. -/
def State.sliceAllocs (s : State) (sl : Nat) : List Alloc := (s.cpx.allocs.filter (fun e => e.1 / 65536 == sl)).map (·.2)

/-- 4 MiB units a slice holds (CPX_MEM_USE). -/
def State.cmUsed (s : State) (sl : Nat) : Nat := sumNat ((s.sliceAllocs sl).map (·.units))

/-- CPX_MEM_LIM. -/
def State.cmLimit (s : State) (sl : Nat) : Nat := (tval s.cpx.slices sl : UpcSlice).lim

/-- A handle not in use: nonzero, unique among the slice's live handles; which one is free (DESIGN CHOICE, log 104). -/
def State.newHandle (s : State) (sl : Nat) : Option Nat × State :=
  let r := drawNat s
  let h := r.1 % 65535 + 1
  let k := (tfree s.cpx.allocs (allocKey sl h) (65536 - h)).orElse (fun _ => tfree s.cpx.allocs (allocKey sl 1) 65535)
  (k.map (· % 65536), r.2)

/-- Room for `n` more units and one more handle (R244, R273)? -/
def State.cmRoom (s : State) (sl n : Nat) : Bool :=
  decide ((s.sliceAllocs sl).length < 1024) && decide (s.cmUsed sl + n ≤ s.cmLimit sl)

/-- A compute command's stage-3 error, then its slice's share (R231). -/
def State.computeErr (s : State) (c : Nat) (e : Option Outc) : Option Outc :=
  match e with
  | some o => some o
  | none => if (s.slc (s.ctx c).slice).shares.computeW = 0 then some (errOut .quotaExceeded) else none

/-- A compute command is done: its outcome waits for its commit. -/
def State.ready (s : State) (c : Nat) (o : Outc) : State := s.modCtx c (fun y => { y with stage := 13, wait := 0, outc := some o })

/-- Take frames for an allocation and make it; 8Bh, 8Ah. -/
def State.makeAlloc (s : State) (c n : Nat) (a : Alloc) : State :=
  let sl := (s.ctx c).slice
  if !s.cmRoom sl n then s.endErr c .quotaExceeded
  else match s.allocFrames 5 0 sl n with
  | none => (s.bpmCnt 3 1).endErr c .poolExhausted
  | some (fs, t) =>
    let r := t.newHandle sl
    match r.1 with
    | none => r.2.endErr c .quotaExceeded
    | some h => (r.2.setAlloc sl h { a with units := n, frames := fs }).ready c (okOut h)

/-- COMPUTE_MEMORY_ALLOCATE. -/
def execComputeMemoryAllocate (c : Nat) (s : State) : Out :=
  guardUnit s (ctxOk c) (if s.rowTurn c opCmAlloc then
    let n := (s.ctx c).sqe.cdw10.toNat
    match s.computeErr c (if n = 0 ∨ 32768 < n then some (errOut .invalidField) else none) with
    | some o => s.endWith c o
    | none => s.makeAlloc c n {}
  else s)

/-- A handle becomes freeing: the free waits, and the BAR2 entries that map it are disabled (R245 steps 1 and 2). -/
def State.startFree (s : State) (c sl h : Nat) (a : Alloc) : State :=
  let s1 := s.setAlloc sl h { a with freeing := true, waiter := some c }
  let s2 := { s1 with ports := tmap s1.ports (fun _ p => { p with bar2 := tmap p.bar2 (fun _ b =>
      if b.en && b.slice == sl && b.handle == h then { b with en := false } else b) }) }
  s2.modCtx c (fun y => { y with stage := 9, wait := 0 })

/-- COMPUTE_MEMORY_FREE. -/
def execComputeMemoryFree (c : Nat) (s : State) : Out :=
  guardUnit s (ctxOk c) (if s.rowTurn c opCmFree then
    let sl := (s.ctx c).slice
    let h := (s.ctx c).sqe.cdw10.toNat % 65536
    match s.alloc? sl h with
    | none => s.endWith c ((s.computeErr c (some (errOut .invalidField))).getD {})
    | some a =>
      match s.computeErr c (if a.isProg || a.freeing then some (errOut .invalidField) else none) with
      | some o => s.endWith c o
      | none => s.startFree c sl h a
  else s)

/-- Is a handle still held by an admitted job (R245 step 3)? -/
def State.handleHeld (s : State) (sl h : Nat) : Bool :=
  s.cpx.jobs.any (fun e => (s.ctx e.1).slice == sl && (s.ctx? e.1).isSome && e.2.handles.contains h)

/-- The frames return to their pool and the free completes (R245 step 4, R274 step 3). -/
def State.endFree (s : State) (sl h : Nat) (a : Alloc) : State :=
  let s1 := (s.freeAll a.frames).delAlloc sl h
  match a.waiter with
  | none => s1
  | some c => if (s1.ctx? c).isSome then s1.ready c (okOut 0) else s1

/-- COMPUTE_FREE_DRAINED. -/
def execComputeFreeDrained (slice handle : Nat) (s : State) : Out :=
  guardUnit s (sliceOk slice && decide (handle < 65536))
    (match s.alloc? slice handle with
     | none => s
     | some a => if a.freeing && !a.isProg && !s.handleHeld slice handle then s.endFree slice handle a else s)

/-! Configuration (R270). -/

/-- A write of CPX_JOB_CFG. -/
def State.lanesWrite (s : State) (n : Nat) : State :=
  if 1 ≤ n ∧ n ≤ 8 then { s with cpx := { s.cpx with lanes := n, lanesAct := wsNow true } }
  else { s with cpx := { s.cpx with lanesAct := wsNow false } }

/-- JOB_LANES_CONFIG. -/
def execJobLanesConfig (lanes : Nat) (s : State) : Out := .next (s.lanesWrite (lanes % 16))

/-- A write of CPX_MEM_LIM. -/
def State.memLimWrite (s : State) (sl lim : Nat) : State :=
  let u : UpcSlice := tval s.cpx.slices sl
  let v : UpcSlice := if lim ≤ 131072 then { u with lim := lim, limAct := wsNow true } else { u with limAct := wsShown lim }
  { s with cpx := { s.cpx with slices := tset s.cpx.slices sl v } }

/-- COMPUTE_LIMIT_CONFIG. -/
def execComputeLimitConfig (slice lim : Nat) (s : State) : Out := guardUnit s (sliceOk slice) (s.memLimWrite slice (lim % 2 ^ 18))

/-- A write of UPC_SLICE_CFG: a grant needs a template with "ATS allowed". -/
def State.grantWrite (s : State) (sl v : Nat) : State :=
  let u : UpcSlice := tval s.cpx.slices sl
  let ok := v % 2 == 0 || (s.tmpl sl).ats
  let n : UpcSlice := if ok then { u with atsGrant := v % 2 == 1, grantAct := wsNow true } else { u with grantAct := wsShown (v % 2) }
  { s with cpx := { s.cpx with slices := tset s.cpx.slices sl n } }

/-- ATS_GRANT. -/
def execAtsGrant (slice v : Nat) (s : State) : Out := guardUnit s (sliceOk slice) (s.grantWrite slice v)

end Sys2Proof.Machine
end

