-- ==== Sys2Proof/Machine/Programs.lean ====
section
/-! DEFINITION. User programs: loading, the sandbox, its system calls, and the weave's step (09 R271 to R294). -/

namespace Sys2Proof.Machine

/-! Program images (R272). -/

/-- A program header: its place in the image and its fields. -/
structure PHdr where
  at_ : Nat := 0
  typ : Nat := 0
  flags : Nat := 0
  off : Nat := 0
  vaddr : Nat := 0
  filesz : Nat := 0
  memsz : Nat := 0
  deriving DecidableEq, Repr, Inhabited

def elfHdrs (b : List Byte) : List PHdr :=
  (List.range (u16 b 56)).map (fun i =>
    let o := u64 b 32 + i * u16 b 54
    { at_ := o, typ := u32 b o, flags := u32 b (o + 4), off := u64 b (o + 8), vaddr := u64 b (o + 16), filesz := u64 b (o + 32)
      memsz := u64 b (o + 40) })

/-- PT_LOAD segments. -/
def elfSegs (b : List Byte) : List PHdr := (elfHdrs b).filter (fun h => h.typ == 1)

def PHdr.exec (h : PHdr) : Bool := bitAt h.flags 0
def PHdr.writable (h : PHdr) : Bool := bitAt h.flags 1
def PHdr.holds (h : PHdr) (a n : Nat) : Bool := decide (h.vaddr ≤ a) && decide (a + n ≤ h.vaddr + h.memsz)

/-- STACK_KIB of a note with name "Ovseaz", type 1 and an 8-byte descriptor of ABI 1. -/
def noteStack : Nat → List Byte → Option Nat
  | 0, _ => none
  | f + 1, b =>
    if b.length < 12 then none
    else
      let n := u32 b 0
      let d := u32 b 4
      let nn := (n + 3) / 4 * 4
      let v := u32 b (12 + nn + 4)
      if n = 7 ∧ d = 8 ∧ u32 b 8 = 1 ∧ slice b 12 7 = [0x4F, 0x76, 0x73, 0x65, 0x61, 0x7A, 0] ∧ u32 b (12 + nn) = 1
          ∧ 4 ≤ v ∧ v ≤ 1024 ∧ v % 4 = 0 ∧ 12 + nn + 8 ≤ b.length then some v
      else noteStack f (b.drop (12 + nn + (d + 3) / 4 * 4))

def elfStack (b : List Byte) : Option Nat :=
  ((elfHdrs b).filter (fun h => h.typ == 4)).findSome? (fun h => noteStack (h.filesz + 1) (slice b h.off h.filesz))

/-- The first segment that breaks check 0x04, and where its header lies. -/
def badSeg (l : List PHdr) : Option Nat :=
  ((List.range l.length).find? (fun i =>
    let h := l.getD i {}
    decide (16 ≤ i) || decide (h.vaddr < 0x10000) || decide (0x1010000 < h.vaddr + h.memsz) || (h.exec && h.writable)
      || (List.range i).any (fun j => byteOverlap (l.getD j {}).vaddr (l.getD j {}).memsz h.vaddr h.memsz))).map (fun i => (l.getD i {}).at_)

/-- Table 9-1 in order: the code and the offset of the failing header. -/
def imageErr (b : List Byte) : Option (Nat × Nat) :=
  let f := u32 b 48
  let segs := elfSegs b
  if u32 b 0 != 0x464C457F || u8 b 4 != 2 || u8 b 5 != 1 || u16 b 18 != 243 then some (1, 0xFFFF)
  else if u16 b 16 != 2 then some (2, 0xFFFF)
  else match (elfHdrs b).find? (fun h => h.typ == 2 || h.typ == 3) with
  | some h => some (2, min h.at_ 0xFFFF)
  | none =>
    if f / 2 % 4 != 2 || bitAt f 3 || bitAt f 4 then some (3, 0xFFFF)
    else match badSeg segs with
    | some o => some (4, min o 0xFFFF)
    | none =>
      if !segs.any (fun h => h.exec && h.holds (u64 b 24) 1) then some (5, 0xFFFF)
      else if (elfStack b).isNone then some (6, 0xFFFF)
      else if 2 ^ 24 < b.length || 2 ^ 24 < sumNat (segs.map (·.memsz)) then some (7, 0xFFFF)
      else none

/-! Loading (R271 to R274). -/

/-- A piece's length: 256 bytes to 64 KiB, a multiple of 256 except for the last one (R56). `have_`: bytes the sequence holds. The last piece is known by its length alone (DESIGN CHOICE, log 168). -/
def pieceOk (have_ off len : Nat) : Bool :=
  decide (1 ≤ len) && decide (len ≤ 65536) && (off == 0 || (off == have_ && have_ % 256 == 0))

/-- Does a Program Load carry this action? -/
def State.progLoadTurn (s : State) (c act : Nat) : Bool := s.rowTurn c opProgLoad && (s.ctx c).sqe.cdw10.toNat % 4 == act

/-- PROGRAM_LOAD_TRANSFER. -/
def execProgramLoadTransfer (c : Nat) (data : List Byte) (s : State) : Out :=
  guardUnit s (ctxOk c) (if s.progLoadTurn c 0 then
    let x := s.ctx c
    let off := x.sqe.cdw11.toNat
    let len := x.sqe.cdw12.toNat
    let cur := (tval s.cpx.loads x.slice : LoadSeq).bytes
    match s.computeErr c (if pieceOk cur.length off len && ((tget s.cpx.loads x.slice).isSome || off == 0) then none else some (errOut .invalidField)) with
    | some o => s.endWith c o
    | none =>
      if data.length != len then s
      else
        let b := if off = 0 then data else cur ++ data
        ({ s with cpx := { s.cpx with loads := tset s.cpx.loads x.slice { bytes := b } } }).ready c (okOut 0)
  else s)

/-- Programs a slice holds. -/
def State.progCount (s : State) (sl : Nat) : Nat := ((s.sliceAllocs sl).filter (·.isProg)).length

/-- PROGRAM_LOAD_COMMIT. -/
def execProgramLoadCommit (c : Nat) (s : State) : Out :=
  guardUnit s (ctxOk c) (if s.progLoadTurn c 1 then
    let sl := (s.ctx c).slice
    let b := (tval s.cpx.loads sl : LoadSeq).bytes
    match s.computeErr c ((imageErr b).map (fun e => { sv := stv .invalidField, dw0 := e.1 + e.2 * 65536 })) with
    | some o => s.endWith c o
    | none =>
      let s1 : State := { s with cpx := { s.cpx with loads := tdel s.cpx.loads sl } }
      if 64 ≤ s.progCount sl then s1.endErr c .quotaExceeded
      else s1.makeAlloc c (ceilDiv b.length (2 ^ 22)) { isProg := true, image := b, stackKib := (elfStack b).getD 0, entry := u64 b 24 }
  else s)

/-- PROGRAM_LOAD_DISCARD. -/
def execProgramLoadDiscard (c : Nat) (s : State) : Out :=
  guardUnit s (ctxOk c) (if s.progLoadTurn c 2 then
    match s.computeErr c none with
    | some o => s.endWith c o
    | none => ({ s with cpx := { s.cpx with loads := tdel s.cpx.loads (s.ctx c).slice } }).ready c (okOut 0)
  else s)

/-- PROGRAM_UNLOAD. -/
def execProgramUnload (c : Nat) (s : State) : Out :=
  guardUnit s (ctxOk c) (if s.rowTurn c opProgUnload then
    let sl := (s.ctx c).slice
    let h := (s.ctx c).sqe.cdw10.toNat % 65536
    match s.computeErr c (if (s.prog? sl h).isNone then some (errOut .invalidField) else none) with
    | some o => s.endWith c o
    | none => s.startFree c sl h ((s.alloc? sl h).getD {})
  else s)

/-- PROGRAM_UNLOAD_DRAINED. -/
def execProgramUnloadDrained (slice handle : Nat) (s : State) : Out :=
  guardUnit s (sliceOk slice && decide (handle < 65536))
    (match s.alloc? slice handle with
     | none => s
     | some a => if a.freeing && a.isProg && !s.handleHeld slice handle then s.endFree slice handle a else s)

/-! Cores (R275 to R280). -/

/-- Free cores of a UCC island. -/
def State.freeCores (s : State) (i : Nat) : List Nat :=
  if present s.pat.eff (islUCC i) && !s.islIsolated (islUCC i) then
    ((List.range 4).map (fun k => 4 * i + k)).filter (fun k => !(tval s.cpx.cores k : EngUnit).busy && !(tval s.cpx.cores k : EngUnit).isolated)
  else []

/-- Cores from as few islands as can be: islands with most free cores first. -/
def State.pickCores (s : State) (n : Nat) : Option (List Nat) :=
  let l := (sortByKey (fun i => 4 - (s.freeCores i).length) (List.range 32)).flatMap s.freeCores
  if l.length < n then none else some (l.take n)

/-- Is it a job's turn at the user cores: its slice's by share, and in FSEQ order within the slice (R275)? -/
def State.coreTurn (s : State) (c : Nat) : Bool :=
  let x := s.ctx c
  s.engTurn x.slice kUser && !(tany s.cmd.ctxs (fun d y => d != c && y.slice == x.slice && y.stage == 11 && decide (y.fseq < x.fseq)
    && (s.job d).desc.kind == 2 && (s.job d).cores.isEmpty && y.open))

/-- Private memory: MEM_MIB rounded up to 4 MiB (Table 9-3). -/
def JobDesc.memBytes (d : JobDesc) : Nat := ceilDiv d.memMib 4 * 2 ^ 22

/-- The start of core `i` of a job (Table 9-4). -/
def startCore (d : JobDesc) (p : Alloc) (core i : Nat) : PCore :=
  let sp := (0x100000000 + d.memBytes - i * p.stackKib * 1024) / 16 * 16
  { core := core
    hart := ((((((({ pc := p.entry } : Hart).setX 2 sp).setX 10 i).setX 11 d.cores).setX 12 d.arg0).setX 13 d.arg1).setX 14 d.exts.length).setX 15 0x8000 }

/-- A program job ends before any core starts, with 8Ah (R279). -/
def State.noFrames (s : State) (c : Nat) : State := (s.bpmCnt 3 1).endErr c .poolExhausted

/-- A job whose frames are allocated starts its cores. -/
def State.startCores (s : State) (c : Nat) (cs fs : List Nat) : State :=
  let x := s.ctx c
  let d := (s.job c).desc
  let p := (s.alloc? x.slice d.prog).getD {}
  let pin := (s.progInput c).flow
  let s1 := s.countFlow c pin
  match pin.stop with
  | some st => s1.failJob c st.err st.stage
  | none =>
    let cores := (List.range cs.length).map (fun i => startCore d p (cs.getD i 0) i)
    let s2 := s1.modJob c (fun j => { j with cores := cores, frames := j.frames ++ fs, recIn := pin.recIn, recOut := pin.recOut
                                             views := [(0, { core := cs.headD 0, len := pin.bytes.length })] })
    let mark (m : Tbl EngUnit) (k : Nat) : Tbl EngUnit := tset m k { (tval m k) with busy := true, ctx := c, slice := x.slice, route := x.route }
    let s3 : State := { s2 with cpx := { s2.cpx with cores := cs.foldl mark s2.cpx.cores } }
    s3.wakeJob c

/-- A job gets all its cores at once; port 0 opens on the stages before the program (R275, R282). -/
def State.grantCores (s : State) (c : Nat) (cs : List Nat) : State :=
  let x := s.ctx c
  let d := (s.job c).desc
  let p := (s.alloc? x.slice d.prog).getD {}
  if d.memBytes < d.cores * p.stackKib * 1024 then s.failJob c 0x0C 0xFF
  else match s.allocFrames 5 (0x8000 + cs.headD 0) x.slice (ceilDiv d.memMib 4) with
  | none => s.noFrames c
  | some r => r.2.startCores c cs r.1

/-- CORES_GRANTED. -/
def execCoresGranted (c : Nat) (s : State) : Out :=
  guardUnit s (ctxOk c)
    (if s.jobLive c && !s.flt.safe && (s.ctx c).stage == 11 && (s.job c).desc.kind == 2 && (s.job c).cores.isEmpty && s.coreTurn c then
       let s1 := s.takeEngines c
       if s1.hasEngines11 c then
         match s1.pickCores (s1.job c).desc.cores with
         | none => s1
         | some cs => s1.grantCores c cs
       else s1
     else s)

/-! The sandbox's memory (Table 9-3). -/

/-- The segments of a job's program. -/
def State.jobSegs (s : State) (c : Nat) : List PHdr := elfSegs ((s.alloc? (s.ctx c).slice (s.job c).desc.prog).getD {}).image

/-- A byte's place in `Job.mem`: scratch is each core's own. -/
def sandKey (i a : Nat) : Nat := if 0x80000000 ≤ a ∧ a < 0x80080000 then (i + 1) * 2 ^ 64 + a else a

/-- Memory that starts at zero: scratch and private memory. Atomics may use it (Table 9-2). -/
def State.sandOwn (s : State) (c a : Nat) : Bool :=
  (decide (0x80000000 ≤ a) && decide (a < 0x80080000)) || (decide (0x100000000 ≤ a) && decide (a < 0x100000000 + (s.job c).desc.memBytes))

/-- The window that a byte lies in: address, length, handle, offset. -/
def State.sandWindow (s : State) (c a : Nat) : Option (Nat × Nat × Nat × Nat) :=
  (s.job c).windows.find? (fun w => decide (w.1 ≤ a) && decide (a < w.1 + w.2.1))

/-- The segment that a byte lies in. -/
def State.sandSeg (s : State) (c a : Nat) : Option PHdr := (s.jobSegs c).find? (fun h => h.holds a 1)

/-- The job information page. -/
def State.infoPage (s : State) (c : Nat) : List Byte :=
  let d := (s.job c).desc
  slice d.raw 0 256 ++ leBytes 4 (s.ctx c).slice ++ leBytes 4 d.cores ++ leBytes 4 d.exts.length

/-- A byte of a segment: what the job wrote, else what the image holds, else 0. -/
def State.segByte (s : State) (c : Nat) (h : PHdr) (a : Nat) : Byte :=
  let img := ((s.alloc? (s.ctx c).slice (s.job c).desc.prog).getD {}).image
  tgetD (s.job c).mem a (if a - h.vaddr < h.filesz then img.getD (h.off + (a - h.vaddr)) 0 else 0)

/-- A byte that core `i` of a job may read; a chunk of a view is mapped as far as its bytes go (DEDUCED, log 182). -/
def State.sandByte (s : State) (c i a : Nat) : Option Byte :=
  let j := s.job c
  if 0x8000 ≤ a ∧ a < 0x9000 then some ((s.infoPage c).getD (a - 0x8000) 0)
  else if s.sandOwn c a then some (tgetD j.mem (sandKey i a) 0)
  else match s.sandWindow c a with
  | some w => some (tgetD (s.cmem (s.ctx c).slice w.2.2.1) (w.2.2.2 + (a - w.1)) 0)
  | none =>
    match s.sandSeg c a with
    | some h => if bitAt h.flags 2 then some (s.segByte c h a) else none
    | none => j.views.findSome? (fun v => v.2.data.findSome? (fun k => if k.1 ≤ a then k.2[a - k.1]? else none))

/-- May a byte be written, and fetched? -/
def State.sandWrites (s : State) (c a : Nat) : Bool :=
  s.sandOwn c a || (s.sandWindow c a).isSome || (match s.sandSeg c a with | some h => h.writable | none => false)
def State.fetchByte (s : State) (c a : Nat) : Option Byte :=
  match s.sandSeg c a with
  | some h => if h.exec then some (s.segByte c h a) else none
  | none => none

/-- Bytes in a row, or none where one of them may not be had. -/
def bytesFrom (f : Nat → Option Byte) (a : Nat) : Nat → Option (List Byte)
  | 0 => some []
  | n + 1 => match f a, bytesFrom f (a + 1) n with
    | some b, some l => some (b :: l)
    | _, _ => none

def State.sandRead (s : State) (c i a n : Nat) : Option (List Byte) := bytesFrom (s.sandByte c i) a n
def State.sandFetch (s : State) (c a n : Nat) : Option (List Byte) := bytesFrom (s.fetchByte c) a n

/-- Is a range mapped for writing? -/
def State.sandWritable (s : State) (c va n : Nat) : Bool := (List.range n).all (fun k => s.sandWrites c (va + k))

/-- Is a range readable by core `i`? -/
def State.sandReadable (s : State) (c i va n : Nat) : Bool := (s.sandRead c i va n).isSome

/-- Write one byte into the sandbox: a window writes the compute memory behind it. -/
def State.sandPut (s : State) (c i a : Nat) (b : Byte) : State :=
  match s.sandWindow c a with
  | some w =>
    let sl := (s.ctx c).slice
    match s.alloc? sl w.2.2.1 with
    | none => s
    | some x => s.setAlloc sl w.2.2.1 { x with bytes := tset x.bytes (w.2.2.2 + (a - w.1)) b }
  | none => s.modJob c (fun x => { x with mem := tset x.mem (sandKey i a) b })

/-- Write bytes into the sandbox, byte by byte; a reservation that another core holds on them is lost. -/
def State.sandBytes (s : State) (c i : Nat) : Nat → List Byte → State
  | _, [] => s
  | a, b :: t => (s.sandPut c i a b).sandBytes c i (a + 1) t
def PCore.loses (p : PCore) (a n : Nat) : PCore :=
  match p.hart.resv with
  | some r => if byteOverlap r.1 r.2 a n then { p with hart := { p.hart with resv := none } } else p
  | none => p
def State.sandWrite (s : State) (c i va : Nat) (b : List Byte) : State :=
  (s.sandBytes c i va b).modJob c (fun j => { j with cores := (List.range j.cores.length).map (fun k =>
    let p := j.cores.getD k {}
    if k = i ∨ (0x80000000 ≤ va ∧ va < 0x80080000) then p else p.loses va b.length) })

/-- Does a core stand at an ECALL? -/
def State.atCall (s : State) (c i : Nat) : Bool := s.sandFetch c ((s.job c).cores.getD i {}).pc 4 == some [0x73, 0, 0, 0]

/-! System calls (R281 to R285). -/

/-- The job and the index within it of a core that runs. -/
def State.coreJob (s : State) (k : Nat) : Option (Nat × Nat) :=
  let u : EngUnit := tval s.cpx.cores k
  if u.busy && s.jobLive u.ctx && !s.flt.safe && s.domOn (islUCC (k / 4)) then ((s.job u.ctx).cores.findIdx? (fun p => p.core == k)).map (fun i => (u.ctx, i)) else none

/-- Can the core call: it has not exited and waits for nothing? -/
def State.coreRuns (s : State) (k : Nat) : Option (Nat × Nat) :=
  match s.coreJob k with
  | none => none
  | some (c, i) =>
    let p := (s.job c).cores.getD i {}
    if p.exited || p.barrier || (s.job c).views.any (fun v => v.2.blocked && v.2.core == k) then none else some (c, i)

def State.modCore (s : State) (c i : Nat) (f : PCore → PCore) : State :=
  s.modJob c (fun j => { j with cores := j.cores.set i (f (j.cores.getD i {})) })

/-- The result of a call in a0; a core that stands at its ECALL goes on behind it. -/
def State.ret (s : State) (c i : Nat) (v : Int) : State := s.modCore c i (fun p => p.ret (s.atCall c i) v)

/-- A call without a stated result: it is not negative. -/
def State.retOk (s : State) (c i : Nat) : State := (drawNat s).2.ret c i ((drawNat s).1 % 2 ^ 63 : Nat)

/-- A call with a second result, in a1. -/
def State.ret2 (s : State) (c i : Nat) (v : Int) (w : Nat) : State := s.modCore c i (fun p => (p.ret (s.atCall c i) v).setX 11 w)

/-- A call on a core: nothing happens where the core runs no job or waits. -/
def onCore (core : Nat) (s : State) (f : Nat → Nat → State) : Out :=
  guardUnit s (decide (core < 128)) (match s.coreRuns core with | none => s | some (c, i) => f c i)

/-- Release a barrier that every core still running has reached. -/
def State.barrierCheck (s : State) (c : Nat) : State :=
  if (s.job c).cores.all (fun p => p.exited || p.barrier) && (s.job c).cores.any (·.barrier) then
    s.modJob c (fun j => { j with cores := j.cores.map (fun p => { p with barrier := false }) })
  else s

/-- Output that waits for lower cores to exit (R283) (DEDUCED, log 109). -/
def heldOutput : List PCore → Nat
  | [] => 0
  | p :: t => if p.exited then heldOutput t else sumNat (t.map (fun q => q.output.length))

/-- Output that has flowed onward. -/
def flowed : List PCore → List Byte
  | [] => []
  | p :: t => if p.exited then p.output ++ flowed t else p.output

/-- A frame passes into a sandbox: it is named, with the sandbox as its OWNER (R302). -/
def State.toSandbox (s : State) (owner h : Nat) : State :=
  (s.setFrame (hKey s h) { (s.frame (hKey s h)) with named := true, owner := owner }).bpmCnt 4 1

/-- The frames of 1 MiB that hold each core's output: none for the cores whose output has flowed (R283) (DESIGN CHOICE, log 109). -/
def heldNeed : List PCore → List Nat
  | [] => []
  | p :: t => 0 :: (if p.exited then heldNeed t else t.map (fun q => ceilDiv q.output.length (2 ^ 20)))

/-- Core `i` of a job holds `n` frames of output; none where the pools have no frame (R300). -/
def State.holdOutput (s : State) (c i n : Nat) : Option State :=
  let owner := 0x8000 + ((s.job c).cores.headD {}).core
  let l := ((s.job c).cores.getD i {}).held
  if n < l.length then some (((l.drop n).foldl (fun t h => t.freeFrame h owner) s).modCore c i (fun p => { p with held := l.take n }))
  else match s.allocFrames 4 owner (s.ctx c).slice (n - l.length) with
  | none => none
  | some r => some ((r.1.foldl (fun t h => t.toSandbox owner h) r.2).modCore c i (fun p => { p with held := l ++ r.1 }))

/-- The frames of every core's held output. -/
def State.holdOutputs (s : State) (c : Nat) : Option State :=
  let l := heldNeed (s.job c).cores
  (List.range l.length).foldl (fun o i => o.bind (fun t => t.holdOutput c i (l.getD i 0))) (some s)

/-- Output at its limit ends the job with 84h. -/
def State.limitCheck (s : State) (c : Nat) : State :=
  let j := s.job c
  if j.desc.outKind != 0 && (stagesAfter (dataStages (s.route (s.ctx c).route))).isEmpty && decide (s.outRoom c < (flowed j.cores).length) then
    s.finishJob c { flow := limitOut (s.outRoom c) 0xFF { segs := [{ bytes := flowed j.cores }], recIn := j.recIn, recOut := j.recOut } }
  else s

/-- After an emit or an exit: held output past MEM_MIB ends the job, and so does held output that finds no frame (Table 9-6, R300). -/
def State.outputCheck (s : State) (c : Nat) : State :=
  let j := s.job c
  if j.desc.memMib * 2 ^ 20 < heldOutput j.cores then s.failJob c 0x0C 0xFF
  else match s.holdOutputs c with
  | none => s.noFrames c
  | some t => t.limitCheck c

/-- SYSCALL_EXIT: the job goes on once every core has exited. -/
def execSyscallExit (core : Nat) (s : State) : Out :=
  onCore core s (fun c i =>
    let s1 := (s.modCore c i (fun p => { p with exited := true })).barrierCheck c
    let v := s1.jobView c
    if (s1.job c).cores.all (·.exited) then { s1 with free := v.free }.finishJob c (v.progOutput c) else s1.outputCheck c)

/-- UPC_TRAP_INFO, UPC_TRAP_PC and UPC_TRAP_VAL (R288). -/
def State.recordTrap (s : State) (c i cause code pc tval_ : Nat) : State :=
  let sl := (s.ctx c).slice
  let u : UpcSlice := tval s.cpx.slices sl
  let v : UpcSlice := { u with cause := cause, index := i, valid := true, prog := (s.job c).desc.prog, code := code, pc := pc, tval := tval_ }
  { s with cpx := { s.cpx with slices := tset s.cpx.slices sl v } }

/-- SYSCALL_FAIL. -/
def execSyscallFail (core code pc : Nat) (s : State) : Out :=
  onCore core s (fun c i => (s.recordTrap c i 0xF0 (code % 2 ^ 32) (pc % 2 ^ 64) 0).failJob c 0x0E 0xFF)

/-- SYSCALL_EMIT. -/
def execSyscallEmit (core : Nat) (data : List Byte) (s : State) : Out :=
  onCore core s (fun c i => (s.modCore c i (fun p => { (p.ret (s.atCall c i) data.length) with output := p.output ++ data })).outputCheck c)

/-- SYSCALL_VIEW_OPEN. -/
def execSyscallViewOpen (core port ext off len : Nat) (s : State) : Out :=
  onCore core s (fun c i =>
    let j := s.job c
    if port = 0 ∨ 8 ≤ port ∨ (tget j.views port).isSome ∨ j.desc.exts.length ≤ ext ∨ (j.desc.exts.getD ext {}).len < off + len then s.ret c i (-1)
    else (s.modJob c (fun x => { x with views := tset x.views port { core := core, ext := ext, off := off, len := len } })).retOk c i)

/-- May a core use a port (R282)? -/
def portMine (j : Job) (core port : Nat) : Bool := match tget j.views port with | none => false | some v => v.core == core

/-- SYSCALL_VIEW_NEXT: blocks until data arrives. -/
def execSyscallViewNext (core port : Nat) (s : State) : Out :=
  onCore core s (fun c i =>
    let j := s.job c
    let v : View := tval j.views port
    if !portMine j core port then s.ret c i (-1)
    else if 64 ≤ v.chunks.length then s.ret c i (-2)
    else if v.len ≤ v.pos then (drawNat s).2.ret2 c i ((drawNat s).1 % 2 ^ 63 : Nat) 0
    else s.modJob c (fun x => { x with views := tset x.views port { v with blocked := true } }))

/-- What a view reads: the input of the stage for port 0, else its extent (R281, R282). -/
def State.viewBytes (s : State) (c port : Nat) (v : View) : List Byte :=
  if port = 0 then (s.progInput c).flow.bytes else (s.jobInputs c).getD v.ext []

/-- The window of a stream port. -/
def portBase (p : Nat) : Nat := 0x10000000000 + p * 0x10000000

/-- VIEW_CHUNK_ARRIVE: a chunk of at most 1 MiB, at least 4 KiB but for the last; its frame is the sandbox's (R282, R302). Where
it lies in the window is free. -/
def execViewChunkArrive (core port len : Nat) (s : State) : Out :=
  guardUnit s (decide (core < 128) && decide (port < 8))
    (match s.coreJob core with
     | none => s
     | some (c, i) =>
       let v : View := tval (s.job c).views port
       if v.blocked && v.core == core && decide (1 ≤ len) && decide (len ≤ 2 ^ 20) && decide (v.pos + len ≤ v.len)
           && (decide (4096 ≤ len) || v.pos + len == v.len) then
         let owner := 0x8000 + ((s.job c).cores.headD {}).core
         match s.allocFrame 4 owner (s.ctx c).slice false with
         | none => s
         | some (h, t) =>
           let r := drawNat (t.toSandbox owner h)
           let used := v.chunks.map (·.1)
           let k := ((List.range 256).map (fun n => portBase port + ((r.1 + n) % 256) * 2 ^ 20)).find? (fun a => !used.contains a)
           let va := k.getD (portBase port)
           let v1 : View := { v with blocked := false, pos := v.pos + len, chunks := v.chunks ++ [(va, h)]
                                     data := tset v.data va (slice (s.viewBytes c port v) (v.off + v.pos) len) }
           (r.2.modJob c (fun j => { j with views := tset j.views port v1, frames := j.frames ++ [h] })).ret2 c i va len
       else s)

/-- SYSCALL_VIEW_RELEASE. -/
def execSyscallViewRelease (core port va : Nat) (s : State) : Out :=
  onCore core s (fun c i =>
    let j := s.job c
    let v : View := tval j.views port
    match (if portMine j core port then tget v.chunks va else none) with
    | none => s.ret c i (-1)
    | some h =>
      ((s.modJob c (fun x => { x with views := tset x.views port { v with chunks := tdel v.chunks va, data := tdel v.data va }, frames := x.frames.erase h })).freeFrame h
        (0x8000 + (j.cores.headD {}).core)).retOk c i)

/-- SYSCALL_EXTENT_LEN. -/
def execSyscallExtentLen (core ext : Nat) (s : State) : Out :=
  onCore core s (fun c i => s.ret c i (match (s.job c).desc.exts[ext]? with | none => -1 | some e => (e.len : Int)))

/-- SYSCALL_CM_MAP: where the window lies is free; the job holds the handle from here on (R285). -/
def execSyscallCmMap (core handle off len : Nat) (s : State) : Out :=
  onCore core s (fun c i =>
    let sl := (s.ctx c).slice
    let r := drawNat s
    let base := (s.job c).nextWin + r.1 % 2 ^ 20 * 4096
    if !s.cmRange sl handle off len ∨ len = 0 then s.ret c i (-1)
    else if 0x10000000000 < base + len then r.2.ret c i (-3)
    else ((r.2.modJob c (fun j => { j with windows := j.windows ++ [(base, len, handle, off)], nextWin := base + ceilDiv len 4096 * 4096
                                           handles := insertNat j.handles handle })).shareJob c).ret c i base)

/-- SYSCALL_CM_UNMAP. -/
def execSyscallCmUnmap (core va : Nat) (s : State) : Out :=
  onCore core s (fun c i =>
    if (s.job c).windows.any (fun w => w.1 == va) then
      (s.modJob c (fun j => { j with windows := j.windows.filter (fun w => w.1 != va) })).retOk c i
    else s.ret c i (-1))

/-- May a job's cores reach host memory (R77, R284)? -/
def State.atsOk (s : State) (c : Nat) : Bool :=
  let x := s.ctx c
  (s.port x.port).atsEn && (s.tmpl x.slice).ats && (tval s.cpx.slices x.slice : UpcSlice).atsGrant

/-- The port's translation cache of 1,024 pages takes the pages of an access; a full cache drops its oldest
pages (DEDUCED, log 107). -/
def State.cacheAtc (s : State) (p sl addr n : Nat) : State :=
  s.modPort p (fun x =>
    let new := (List.range (ceilDiv (addr % 4096 + n) 4096)).map (fun i => (addr / 4096 + i, sl))
    let l := (x.atc.filter (fun e => !new.contains e)) ++ new
    { x with atc := l.drop (l.length - 1024) })

/-- A translation that the host refuses ends the job (R77, R288). -/
def State.atsRefused (s : State) (c i va : Nat) : State := (s.recordTrap c i 0xF1 0 ((s.job c).cores.getD i {}).pc va).failJob c 0x0E 0xFF

/-- SYSCALL_HOST_READ; no data: the host refused the translation. -/
def execSyscallHostRead (core va haddr : Nat) (data : Option (List Byte)) (s : State) : Out :=
  onCore core s (fun c i =>
    if !s.atsOk c then s.ret c i (-4)
    else match data with
    | none => s.atsRefused c i haddr
    | some b =>
      if 2 ^ 24 < b.length || !s.sandWritable c va b.length then s.ret c i (-1)
      else ((s.cacheAtc (s.ctx c).port (s.ctx c).slice haddr b.length).sandWrite c i va b).retOk c i)

/-- SYSCALL_HOST_WRITE. -/
def execSyscallHostWrite (core va haddr : Nat) (data : List Byte) (granted : Bool) (s : State) : Out :=
  onCore core s (fun c i =>
    if !s.atsOk c then s.ret c i (-4)
    else if 2 ^ 24 < data.length || !s.sandReadable c i va data.length then s.ret c i (-1)
    else if !granted then s.atsRefused c i haddr
    else ((s.cacheAtc (s.ctx c).port (s.ctx c).slice haddr data.length).postData c (.bytes data)).retOk c i)

/-- SYSCALL_BARRIER. -/
def execSyscallBarrier (core : Nat) (s : State) : Out :=
  onCore core s (fun c i => ((s.retOk c i).modCore c i (fun p => { p with barrier := true })).barrierCheck c)

/-- SYSCALL_SET_COUNTS. -/
def execSyscallSetCounts (core nIn nOut : Nat) (s : State) : Out :=
  onCore core s (fun c i => (s.modJob c (fun j => { j with recIn := nIn, recOut := nOut })).retOk c i)

/-- PROGRAM_TRAP: a trap ends the job with 89h; an instruction fetch that stays uncorrectable has ENGINE_ERR 0x0D (Table 9-6). -/
def execProgramTrap (core cause pc tval_ : Nat) (s : State) : Out :=
  guardUnit s (decide (core < 128))
    (match s.coreJob core with
     | none => s
     | some (c, i) => (s.recordTrap c i (cause % 256) 0 pc tval_).failJob c (if cause % 256 = 0xF2 then 0x0D else 0x0E) 0xFF)

/-! The weave's step and the translation cache. -/

/-- WEAVE_STEP: one step of a weave that runs a work unit, with the words at its input ports (R291, R292) (DEDUCED, log 110). -/
def execWeaveStep (half weave : Nat) (words : List Nat) (s : State) : Out :=
  guardUnit s (decide (half < 2) && decide (weave < 16))
    (let h : Half := tval s.wvf half
     match (if half = 0 then s.pat.eff.weave0 else s.pat.eff.weave1), weaveDir? s.pat.eff half weave with
     | some p, some d =>
       if h.loaded && (tget h.busy weave).isSome && !s.flt.safe then
         { s with wvf := tset s.wvf half { h with cells := (weaveStep p d h.cells ((words.take d.inputs).map (fun w => some (w32 w)))).1 } }
       else s
     | _, _ => s)

/-- ATS_INVALIDATION: the cached translations of the range go (R77). -/
def execAtsInvalidation (port addr len : Nat) (s : State) : Out :=
  guardUnit s (portOk port)
    (s.modPort port (fun x => { x with atc := x.atc.filter (fun e => !byteOverlap (e.1 * 4096) 4096 addr len) }))

end Sys2Proof.Machine
end

