-- ==== Sys2Proof/Machine/Cores.lean ====
section
/-! DEFINITION. The user program cores at work (09 R277, R278, R286, R288): one of the cores that run executes its next instruction. -/

namespace Sys2Proof.Machine

/-- The memory of a job as core `i` sees it; whether an access that may not be made is an access fault or a page fault is free
(DESIGN CHOICE, log 182). -/
def State.hartMem (s : State) (c i : Nat) : HartMem :=
  let page := Config.freeBool s.free
  { rd := s.sandRead c i, wr := s.sandWritable c
    atomic := fun a n => (List.range n).all (fun k => s.sandOwn c (a + k))
    fetch := s.sandFetch c
    badFetch := if page then 12 else 1
    badLoad := if page then 13 else 5
    badStore := if page then 15 else 7 }

/-- The writes of an instruction. -/
def State.hartWrites (s : State) (c i : Nat) (ws : List (Nat × List Byte)) : State := ws.foldl (fun t w => t.sandWrite c i w.1 w.2) s

/-- A trap ends the job (R286, R288). -/
def State.hartTrap (s : State) (c i cause pc tval_ : Nat) : State := (s.recordTrap c i cause 0 pc tval_).failJob c 0x0E 0xFF

/-- Core `k` executes an instruction. At an ECALL of Table 9-5 it waits for the call's row; any other call number traps. -/
def State.coreStep (s : State) (k : Nat) : State :=
  match s.coreRuns k with
  | none => s
  | some (c, i) =>
    let p := (s.job c).cores.getD i {}
    match hartStep (s.hartMem c i) p.hart with
    | .next h ws => (s.modCore c i (fun q => { q with hart := h })).hartWrites c i ws
    | .trap cause tv ws => (s.drawn.hartWrites c i ws).hartTrap c i cause p.pc tv
    | .call => if 12 < p.hart.xr 17 then s.hartTrap c i 0xF3 p.pc 0 else s

/-- The cores that can execute an instruction. -/
def State.runningCores (s : State) : List Nat := (List.range 128).filter (fun k => (s.coreRuns k).isSome)

/-- Time passes while no command waits: one of the running cores, which one is free, executes an instruction (DESIGN CHOICE,
log 15, log 182). -/
def State.tick (s : State) : State :=
  match s.runningCores with
  | [] => s
  | k :: l => s.drawn.coreStep ((k :: l).getD (Config.freeNat s.free % (l.length + 1)) k)

end Sys2Proof.Machine
end

