-- ==== Sys2Proof/Machine/PoolRows.lean ====
section
/-! DEFINITION. The commands of the buffer pool manager (09 R300 to R302, 11 R343). -/

namespace Sys2Proof.Machine

/-- Hand a frame to its asker. -/
def State.giveFrame (s : State) (h : Nat) : PoolAsker → State
  | .command c => if (s.ctx? c).isSome then s.modCtx c (fun x => { x with bufs := x.bufs ++ [h] }) else s.freeAll [h]
  | .compute c => if (s.job? c).isSome then s.modJob c (fun j => { j with frames := j.frames ++ [h] }) else s.freeAll [h]
  | .internal _ => s

/-- A request that finds every class up to 5 empty (R300): a compute allocation fails, another request stalls with wait
cause 6; the first one in the order may take from the last 64 frames at once. -/
def State.frameDenied (s : State) (cls unit slice : Nat) (who : PoolAsker) : State :=
  match who with
  | .compute c => if s.jobLive c then (s.bpmCnt 3 1).endErr c .poolExhausted else s.bpmCnt 3 1
  | _ =>
    s.stallFrame cls unit slice who

/-- FRAME_ALLOCATE (DEDUCED, log 147). -/
def execFrameAllocate (cls unit slice : Nat) (who : PoolAsker) (s : State) : Out :=
  guardUnit s (decide (cls < 6) && sliceOk slice && askerOk who)
    (match s.allocFrame cls unit slice false with
     | some (h, t) => t.giveFrame h who
     | none => s.frameDenied cls unit slice who)

/-- FRAME_SHARE: one more holder, and the final unit it names; at REFCNT 255 the frame is named instead, with that unit as its
OWNER. A stale handle shares nothing. -/
def execFrameShare (handle _unit final : Nat) (s : State) : Out :=
  let fr := s.frame (hKey s handle)
  .next (if s.handleLive handle && !fr.named then
    if fr.refs = 255 then (s.setFrame (hKey s handle) { fr with named := true, owner := final }).bpmCnt 4 1
    else s.setFrame (hKey s handle) { fr with refs := fr.refs + 1 }
  else s)

/-- FRAME_FREE. -/
def execFrameFree (handle unit : Nat) (s : State) : Out := .next (s.freeFrame handle unit)

/-- FRAME_OWNERSHIP_PASS: OWNER passes a named frame to one other unit. -/
def execFrameOwnershipPass (handle src dst : Nat) (s : State) : Out :=
  let fr := s.frame (hKey s handle)
  .next (if s.handleLive handle && fr.named && fr.owner == src then
    (s.setFrame (hKey s handle) { fr with owner := dst }).bpmCnt 8 1
  else s)

/-- The frames that some live context, job, allocation or view holds, as keys. -/
def State.heldFrames (s : State) : List Nat :=
  let hs := s.cmd.ctxs.flatMap (fun e => e.2.bufs) ++ s.med.dies.flatMap (fun e => e.2.ops.filterMap (·.buf))
    ++ s.med.ecls.filterMap (fun e => e.op.buf) ++ s.med.busyAtSafe.filterMap (fun b => b.op.buf) ++ s.cpx.allocs.flatMap (fun e => e.2.frames)
    ++ s.cpx.jobs.flatMap (fun e => e.2.frames ++ e.2.cores.flatMap (·.held) ++ e.2.views.flatMap (fun v => v.2.chunks.map (·.2)))
  hs.map (hKey s)

/-- Was a frame lost with a withdrawn context, or dropped from a pool cache: what an audit looks for (R343, R346)? -/
def State.auditLost (s : State) : List Nat := s.mic.auditFrames.filter (fun k => !s.heldFrames.contains k)

/-- POOL_AUDIT: every frame that no live holder holds is free again, counted (MIC_CNT 12). A frame dropped from a pool cache
returns to its store. -/
def execPoolAudit (s : State) : Out :=
  let s1 := s.auditLost.foldl (fun t k => (t.frameBack k).serveStall) s
  .next ({ s1 with mic := { s1.mic with auditFrames := [] } }.micCnt 12 1)

end Sys2Proof.Machine
end

