-- ==== Sys2Proof/Machine/Commit.lean ====
section
/-! DEFINITION. COMMAND_COMMIT: what a command waits for at stage 13, and what it does there (04 R96, R101, R110, R113, R118,
05 R154, R156, R159, R164, 07 R225, 08 R237 to R241). -/

namespace Sys2Proof.Machine

/-! What holds a command at stage 13. -/

/-- Does a command commit with an error: an outcome other than success, but for a job whose output reached a limit (R241)? -/
def State.fails (s : State) (c : Nat) : Bool :=
  ((s.ctx c).outc.getD {}).sv.st != .success && !((s.job? c).isSome && (s.job c).done)

/-- The wait cause and the command waited for (Table 4-15): the ordered turn (R113), an overlapping read-kind range (R110), a
lower reservation (R154) or zone command (R156), or data that a Flush must make durable (R118). -/
def State.commitHold (s : State) (c : Nat) : Option (Nat × Option Nat) :=
  let x := s.ctx c
  match s.orderedBlocker x with
  | some b => some (3, some b)
  | none =>
    if s.fails c then none
    else match s.readBlocker x with
      | some b => some (8, some b)
      | none =>
        match (s.resvBlocker x).orElse (fun _ => s.zoneBlocker x) with
        | some b => some (1, some b)
        | none => if x.opc = opFlush ∧ x.flushSet.any s.undurableUnit then some (4, none) else none

/-! Map commands. -/

/-- Change the map entries of a list of LBAs. -/
def State.commitLbas (s : State) (n : Nat) (unc : Bool) (l : List Nat) : State :=
  l.foldl (fun t b => t.commitMap (mapKey n b) none unc) s

/-- With FUA, with WCE 0 and in hold-up mode the journal holds the changes before the completion posts (R115). -/
def State.recordFua (s : State) (x : Ctx) : State :=
  if x.fua || s.holdup then (lbasOf x.slba (x.nlb + 1)).foldl (fun t b => t.recordLba x.nsid b) s else s

/-- Deallocate clears an entry or leaves it, LBA by LBA as it happens (R164). -/
def State.commitDealloc (s : State) (n : Nat) (l : List Nat) : State :=
  l.foldl (fun t b =>
    let r := drawBool t
    let m := t.mapEnt (mapKey n b)
    if r.1 && (m.loc.isSome || m.unc) then r.2.commitMap (mapKey n b) none false else r.2) s

/-- Write Zeroes places nothing, but an invalid placement identifier of it is logged (Table 5-6). -/
def State.notePlacement (s : State) (n : Nat) (x : Ctx) : State :=
  let p := s.placement n (bitsAt x.sqe.cdw12.toNat 20 4) (x.sqe.cdw13.toNat / 65536)
  if p.2.2 then s else s.fdpEvent (s.nsCls n).set 3 p.2.1

/-- A committed change of a write-kind range ends the comet data there (R108). -/
def State.cancelRange (s : State) (x : Ctx) : State := match x.lockW with | none => s | some r => s.cometCancel r.ns r.lo r.hi

/-! Zone actions (R156). -/

/-- Rows for a zone that leaves Empty by an explicit Open; the time without a write counts from there (DEDUCED, log 18). -/
def State.openZone (s : State) (e slice : Nat) : State :=
  let was := (s.zent e).state
  let t := if was == .empty then ((s.zoneRowsFor e).getD s).urgentGc (s.clsRec (s.zent e).cls).set else s
  t.modZent e (fun z => { z with state := .explicit, opener := slice, rowsTaken := false
                                 lastWrite := if was == .empty then s.nowMs else z.lastWrite })

/-- Finish: the open stripe row is padded, unused rows return, WP goes to ZCAP, GEN advances (R148) (DEDUCED, log 48). -/
def State.finishZone (s : State) (e c : Nat) : State :=
  let z := s.zent e
  let s1 := if z.state.active then (s.padZone e).returnUnused e z.filled else s
  let z1 : ZEnt := { z with state := .full, wp := s.zcap e, fzr := false, fzrAt := 0
                            tmpl := if z.filled = 0 then noRows else z.tmpl }
  ((s1.setZent e z1).stepGen e c).refreshWaiting

/-- CAP_CUT of the rows that a reset zone would take next (R225); with no rows free of worn blocks the set enters stage 2
(Table 7-5) (DEDUCED, log 47). -/
def State.resetCut (s : State) (e : Nat) : Nat × State :=
  let c := s.clsRec (s.zent e).cls
  let r := s.zoneR e
  let worn (d : Nat × Nat × Nat) : Nat := ((List.range r).filter (fun i => s.rowWorn (s.stmpl d.1) (d.2.1 + i))).length
  let l := s.rowCands (classTmpls s.pat.eff c) r
  let s1 := if l.all (fun d => 0 < worn d) then s.enterStages c.set 2 else s
  match bestRow (fun a b => a < b) l with
  | none => (0, s1)
  | some d => (if (s1.setLife c.set).stage < 2 then 0 else worn d * s.rowCutMib d.1 c.mode, s1)

/-- A zone becomes Empty: the rows are released for erase, a relocation of them ends, the flags clear (R159). -/
def State.clearZone (s : State) (e : Nat) : State :=
  let s1 := (s.relocsOf (fun r => r.zent == some e)).foldl (fun t id => t.relocCancel id) s
  let s2 := s1.releaseZoneRows e
  let z := s2.zent e
  let s3 := s2.setZent e { z with state := .empty, wp := 0, filled := 0, tmpl := 0, block := 0, zfc := false, fzr := false, rzr := false
                                  reduced := false, degraded := false, suspect := false, capCut := 0, fzrAt := 0, opener := 0
                                  rowsTaken := false }
  let r := s3.resetCut e
  let s4 := r.2.modZent e (fun y => { y with capCut := r.1, reduced := r.1 != 0 })
  if r.1 = 0 then s4 else s4.zoneEvent e

/-- Reset: GEN advances (R148). -/
def State.resetZone (s : State) (e c : Nat) : State := (s.clearZone e).stepGen e c

/-- Offline, by the host (R156). -/
def State.offlineZone (s : State) (e c : Nat) : State :=
  let s1 := s.releaseZoneRows e
  (s1.modZent e (fun z => { z with state := .offline, wp := 0, filled := 0, tmpl := 0, block := 0 })).stepGen e c

/-- One action on one zone, if its committed state takes it. -/
def State.zoneAct (s : State) (c act slice e : Nat) : State :=
  let z := s.zent e
  if !actionAccepts act z.state then s
  else if act = 1 then s.modZent e (fun y => { y with state := .closed })
  else if act = 2 then s.finishZone e c
  else if act = 3 then s.openZone e slice
  else if act = 4 then s.resetZone e c
  else if z.state = .offline then s
  else s.offlineZone e c

/-- An explicit Open of an Empty zone needs rows: without free ones it waits. -/
def State.openStuck (s : State) (x : Ctx) : Bool :=
  x.opc == opZoneSend && x.zact == 3 && x.zents.any (fun e => (s.zent e).state == .empty && (s.zoneRowsFor e).isNone)

/-! Reclaim units (R166). -/

/-- Handle number of a row that takes no more writes. -/
def ruClosed : Nat := 65536

/-- Reclaim Unit Handle Update: the handle's reclaim unit is closed; one not fully written is logged. -/
def State.closeRu (s : State) (n pid : Nat) : State :=
  let p := s.placement n 2 pid
  match s.convOpenRow n p.1 p.2.1 with
  | none => s
  | some rk =>
    let s1 := { s with med := { s.med with use := tmod s.med.use rk (fun u => { u with ruh := ruClosed + u.ruh }) } }
    s1.fdpEvent (s.nsCls n).set 0 p.2.1

/-! Jobs. -/

/-- Write bytes into an allocation. -/
def State.putAlloc (s : State) (sl h : Nat) (f : Tbl Byte → Tbl Byte) : State :=
  match s.alloc? sl h with
  | none => s
  | some a => s.setAlloc sl h { a with bytes := f a.bytes }

/-- What a job that ran leaves behind at its commit (R237): its output and its table. -/
def State.commitJob (s : State) (c : Nat) : State :=
  let x := s.ctx c
  let j := s.job c
  let s1 := if j.desc.outKind = 2 then s.putAlloc x.slice j.desc.outHandle (fun m => memPut m j.desc.outAddr j.out) else s
  let s2 := match j.tab with
    | some m => s1.putAlloc x.slice j.tabHandle (fun _ => m)
    | none => s1
  if (j.desc.outKind = 3 ∨ j.desc.outKind = 4) ∧ !x.placed.isEmpty then s2.commitWrite c j.desc.outNsid else s2

/-- CPX_CNT of an ended job; a routed Read is none. -/
def State.countJob (s : State) (c : Nat) : State :=
  let o := ((s.ctx c).outc.getD {}).sv.st
  if o = .success then s.cpxCnt 0 1 else if o = .outputLimit then (s.cpxCnt 1 1).cpxCnt 5 1 else s.cpxCnt 1 1

/-- The result record (R239): to compute memory, or to host memory. -/
def State.putResult (s : State) (c : Nat) : State :=
  let d := (s.job c).desc
  let r := s.resultRecord c ((s.ctx c).outc.getD {})
  if d.resultCm then s.putAlloc (s.ctx c).slice d.resultHandle (fun m => memPut m d.resultAddr r)
  else if d.resultAddr = 0 then s
  else s.postResult c d.resultAddr r

/-- The end of a job, whatever its outcome; bytes it shared are undefined (R246). -/
def State.endJob (s : State) (c : Nat) : State := if (s.ctx c).opc = opJob ∧ (s.job? c).isSome then ((s.countJob c).putResult c).spoilShared c else s

/-! Effects. -/

/-- Set of a namespace. -/
def State.nsSet (s : State) (n : Nat) : Nat := (s.nsCls n).set

/-- Complete a Zone Append with the LBA it was given (R153). -/
def State.appendLba (s : State) (c lo : Nat) : State :=
  s.modCtx c (fun y => { y with outc := some { dw0 := lo % 2 ^ 32, dw1 := lo / 2 ^ 32 } })

/-- A Flush may also cover data that was committed after it left stage 2; which is undefined (R118, DESIGN CHOICE, log 160). -/
def State.flushLater (s : State) (l : List Nat) : State :=
  (s.undurable (fun e => l.contains e.ns)).foldl (fun t k =>
    let r := drawBool t
    if r.1 then r.2.markDurable [k] else r.2) s

/-- What a command that succeeds does at its commit. -/
def State.commitEffect (s : State) (c : Nat) : State :=
  let x := s.ctx c
  let n := x.nsid
  if x.opc = opWrite then s.commitWrite c n
  else if x.opc = opAppend then (s.commitWrite c n).appendLba c ((x.lockW.map (·.lo)).getD x.slba)
  else if x.opc = opCopy then ((s.commitWrite c n).relCnt 4 x.placed.length)
  else if x.opc = opRead then (s.cometConsume x.slice n x.slba (x.slba + x.nlb)).countRead x.slice (s.nsSet n) (x.nlb + 1)
  else if x.opc = opCompare ∨ x.opc = opVerify then s.countRead x.slice (s.nsSet n) (x.nlb + 1)
  else if x.opc = opWriteZeroes then (((s.cancelRange x).commitLbas n false (lbasOf x.slba (x.nlb + 1))).recordFua x).notePlacement n x
  else if x.opc = opWriteUnc then ((s.cancelRange x).commitLbas n true (lbasOf x.slba (x.nlb + 1))).recordFua x
  else if x.opc = opFlush then (s.flushNs x).foldl (fun t k => t.recordNs k) (s.flushLater (s.flushNs x))
  else if x.opc = opDsm then
    if bitAt x.sqe.cdw11.toNat 2 then
      (x.ranges.foldl (fun t r => if r.nlb = 0 then t else t.cometCancel n r.slba (r.slba + r.nlb - 1)) s).commitDealloc n (rangeLbas x.ranges)
    else s
  else if x.opc = opZoneSend then x.zents.foldl (fun t e => t.zoneAct c x.zact x.slice e) (if x.zact = 4 then s.cancelRange x else s)
  else if x.opc = opIoMgmtSend then x.phids.foldl (fun t p => t.closeRu n p) s
  else if x.opc = opJob then s.commitJob c
  else s

/-- After a commit the projection of a zone is its committed state with the uncommitted commands that are left. -/
def State.settleProj (s : State) (l : List Nat) : State := l.foldl (fun t e => t.reproject e) s

/-- A command that a reset ended frees its context here, with no completion; one stale item less (R321). -/
def State.freeKilled (s : State) (c : Nat) : State :=
  let x := s.ctx c
  if x.killed then (s.freeCtx c).modSli x.slice (fun q => { q with oldItems := q.oldItems - 1 }) else s

/-- The commit point: the effect, then the outcome is fixed. -/
def State.commitNow (s : State) (c : Nat) : State :=
  let es := (s.ctx c).ents
  let s1 := if s.fails c then s else s.commitEffect c
  let s2 := (s1.endJob c).modCtx c (fun x => { x with outc := some (x.outc.getD {}) })
  ((((s2.fix c).settleProj es).freeKilled c).shutCheckAll)

/-- COMMAND_COMMIT: at stage 13, a stale generation sends the command back to stage 6 (R100), a hold makes it wait, else it
commits. -/
def execCommandCommit (c : Nat) (s : State) : Out :=
  guardUnit s (ctxOk c)
    (match s.ctx? c with
     | none => s
     | some x =>
       if x.stage != 13 || x.admin || x.committed || s.flt.safe then s
       else match s.commitHold c with
         | some (w, d) => s.setCtx c { x with wait := w, dep := d }
         | none =>
           if !s.fails c && s.genStale x then s.squashGen c
           else if !s.fails c && s.openStuck x then s.setCtx c { x with wait := 5 }
           else s.commitNow c)

end Sys2Proof.Machine
end

