-- ==== Sys2Proof/Machine/ThermOps.lean ====
section
/-! DEFINITION. Temperatures: regions, the values sensors contribute, failures, and the thermal conditions (14 R400 to R411).
Temperatures are in sixteenths of a degree Celsius. -/

namespace Sys2Proof.Machine

/-! Regions (Table 14-1). -/

def sensorRegion (k : Nat) : Nat := if k < 32 then k / 4 else if k < 36 then 8 else if k < 40 then 9 else if k < 44 then 10 else 11

def islRegion (i : Nat) : Nat :=
  if 10 ≤ i ∧ i < 26 then (i - 10) / 4 else if 40 ≤ i then 4 + (i - 40) / 8 else if 34 ≤ i then 8
  else if 26 ≤ i then 9 else if 4 ≤ i ∧ i < 8 then 10 else 11

/-- The sensor that lies in or beside an island. -/
def islSensor (i : Nat) : Nat :=
  if 10 ≤ i ∧ i < 26 then i - 10 else if 40 ≤ i then 16 + (i - 40) / 2
  else if i = 38 then 34 else if i = 39 then 35 else if 34 ≤ i then 32 + (i - 34) / 2
  else if 26 ≤ i then 36 + (i - 26) / 2 else if 4 ≤ i ∧ i < 8 then 40 + (i - 4)
  else if i = islCTL then 44 else if i = islCMI ∨ i = islTRN then 45 else if i = islHFE ∨ i = islSEC then 46 else 47

def regionSensors (r : Nat) : List Nat := (List.range 48).filter (fun k => sensorRegion k == r)
def regionIsls (r : Nat) : List Nat := (List.range 72).filter (fun i => islRegion i == r)

def State.sensor (s : State) (k : Nat) : Sensor := tval s.thm.sensors k
def State.setSensor (s : State) (k : Nat) (v : Sensor) : State := { s with thm := { s.thm with sensors := tset s.thm.sensors k v } }
def State.region (s : State) (r : Nat) : Region := tval s.thm.regions r
def State.setRegion (s : State) (r : Nat) (v : Region) : State := { s with thm := { s.thm with regions := tset s.thm.regions r v } }

def maxInt (l : List Int) : Option Int := match l with | [] => none | a :: t => some (t.foldl max a)
def minInt (l : List Int) : Option Int := match l with | [] => none | a :: t => some (t.foldl min a)

/-- The working sensors among a list, that have converted. -/
def State.working (s : State) (l : List Nat) : List Nat := l.filter (fun k => !(s.sensor k).failed && (s.sensor k).read)
def State.failedIn (s : State) (r : Nat) : Nat := ((regionSensors r).filter (fun k => (s.sensor k).failed)).length

/-- The highest reading of a region's working sensors. -/
def State.hottestIn (s : State) (r : Nat) : Option Int := maxInt ((s.working (regionSensors r)).map (fun k => (s.sensor k).temp))

/-- What a sensor contributes (R401, R404): its reading; a failed one its substitute, but not during its hold (DEDUCED, log 61). -/
def State.sensorUsed (s : State) (k : Nat) : Option Int :=
  let x := s.sensor k
  if x.failed then (if x.holding then none else (s.hottestIn (sensorRegion k)).map (· + 128))
  else if x.read then some x.temp else none

/-- A region's temperature: none when no sensor of it contributes. -/
def State.regionTemp (s : State) (r : Nat) : Option Int := maxInt ((regionSensors r).filterMap s.sensorUsed)

/-- Three or more failed sensors clamp a region (R404). -/
def State.clamped (s : State) (r : Nat) : Bool := decide (3 ≤ s.failedIn r)

def State.hottest (s : State) : Option Int := maxInt ((List.range 12).filterMap s.regionTemp)
def State.coldest (s : State) : Option Int := minInt ((s.working (List.range 48)).map (fun k => (s.sensor k).temp))

/-- The composite temperature in kelvin (R410), nearest. -/
def kelvin (t : Int) : Int := (2 * (t + 273 * 16) + 16) / 32
def State.composite (s : State) : Int := kelvin (s.hottest.getD 0)

/-- An island's temperature: its sensor's contribution. -/
def State.islTemp (s : State) (i : Nat) : Int := (s.sensorUsed (islSensor i)).getD (s.sensor (islSensor i)).temp

/-! Budgets (R407). -/

/-- The budget a region's temperature gives. -/
def tempBudget (thr t : Int) : Nat := (min 100 (max 20 (100 - (8 * (t - thr)) / 16))).toNat

/-- The budget of a region at an epoch's start: the lowest of the computed value and the holds that run. -/
def State.regionBudget (s : State) (r : Nat) : Nat :=
  let computed := if s.clamped r then 20
    else if (s.region r).active then (match s.regionTemp r with
      | some t => tempBudget (s.pat.eff.thermal.thrSet * 16) t
      | none => 100)
    else 100
  ((regionSensors r).filter (fun k => (s.sensor k).holding)).foldl (fun m k => min m (s.sensor k).heldBudget) computed

/-- Every region gives its budget to its islands; AON takes none. -/
def State.thermalBudgets (s : State) : State :=
  (List.range 12).foldl (fun t r =>
    let b := s.regionBudget r
    let u := t.setRegion r { (t.region r) with budget := b }
    ((regionIsls r).filter (· != islAON)).foldl (fun v i => v.modIsl i (fun x => { x with thermBudget := b })) u) s

/-! Failures (R403). -/

/-- Twice the median of a list. -/
def sortInt (l : List Int) : List Int := l.foldr (fun a t => (t.takeWhile (· < a)) ++ a :: (t.dropWhile (· < a))) []
def median2 (l : List Int) : Int :=
  let m := sortInt l
  let n := m.length
  if n % 2 = 1 then 2 * m.getD (n / 2) 0 else m.getD (n / 2 - 1) 0 + m.getD (n / 2) 0

/-- Does a reading lie more than 15 °C from the median of its neighbours, where at least two work? -/
def State.deviates (s : State) (k : Nat) (t : Int) : Bool :=
  let l := (s.working ((regionSensors (sensorRegion k)).filter (· != k))).map (fun j => (s.sensor j).temp)
  decide (2 ≤ l.length) && decide (480 < (2 * t - median2 l).natAbs)

/-- The failure a reading shows, and the sensor after it: 1 range or conversion error, 2 stuck for 10 s, 3 deviation for 100
ms. -/
def State.takeReading (s : State) (k : Nat) : Reading → Nat × Sensor
  | .error => (1, s.sensor k)
  | .value raw t =>
    let x := s.sensor k
    let same := x.read && x.raw == raw
    let dev := s.deviates k t
    let d := if dev then some (x.devSince.getD s.epoch) else none
    let y : Sensor := { x with temp := t, raw := raw, read := true, devSince := d
                               stuckSince := if same then x.stuckSince else s.epoch }
    (if t < -1120 ∨ 2560 < t then 1
     else if same && decide (x.stuckSince + 100000 ≤ s.epoch) then 2
     else if d.any (fun e => decide (e + 1000 ≤ s.epoch)) then 3 else 0, y)

/-- DETAIL of a sensor: its temperature, s16. -/
def detail16 (t : Int) : Nat := (t % 65536).toNat

/-- A sensor fails: a Degraded fault, and a hold of its region's budget while the region throttles (R404). -/
def State.sensorFails (s : State) (k cause : Nat) : State :=
  let x := s.sensor k
  let r := s.region (sensorRegion k)
  (s.setSensor k { x with failed := true, cause := cause, shutRun := 0, holding := r.active, heldAt := s.epoch, heldBudget := r.budget }).queueFault
    { src := 760 + k, level := 2, detail := detail16 x.temp }

/-! Conditions (Table 14-2). -/

/-- The fault of a condition (DEDUCED, log 62). -/
def State.thermFault (s : State) (level k : Nat) (t : Int) : State :=
  s.queueFault { src := 808, level := level, detail := k + detail16 t * 2 ^ 16 }

/-- The sensor whose contribution is a temperature. -/
def State.sensorAt (s : State) (t : Int) : Nat := ((List.range 48).find? (fun k => s.sensorUsed k == some t)).getD 0

def State.warnCheck (s : State) : State :=
  let p := s.pat.eff.thermal
  match s.hottest with
  | none => s
  | some t =>
    if !s.thm.warn && decide (p.warnSet * 16 ≤ t) then ({ s with thm := { s.thm with warn := true } }).thermFault 1 (s.sensorAt t) t
    else if s.thm.warn && decide (t ≤ p.warnClr * 16) then { s with thm := { s.thm with warn := false } }
    else s

/-- Throttle of one region; a clamp holds it set. -/
def State.throttleCheck (s : State) (r : Nat) : State :=
  let p := s.pat.eff.thermal
  let x := s.region r
  let hot := s.clamped r || (match s.regionTemp r with | some t => decide (p.thrSet * 16 ≤ t) | none => false)
  let cool := !s.clamped r && (match s.regionTemp r with | some t => decide (t ≤ p.thrClr * 16) | none => false)
  if !x.active && hot then (s.setRegion r { x with active := true }).thermFault 1 (s.sensorAt ((s.regionTemp r).getD 0)) ((s.regionTemp r).getD 0)
  else if x.active && cool then s.setRegion r { x with active := false }
  else s

def State.coldCheck (s : State) : State :=
  let p := s.pat.eff.thermal
  match s.coldest with
  | none => s
  | some t =>
    let s1 := if !s.thm.coldWarn && decide (t ≤ p.cwarnSet * 16) then ({ s with thm := { s.thm with coldWarn := true } }).thermFault 1 (s.sensorAt t) t
      else if s.thm.coldWarn && decide (p.cwarnClr * 16 ≤ t) then { s with thm := { s.thm with coldWarn := false } } else s
    if !s1.thm.coldHold && decide (t ≤ p.choldSet * 16) then ({ s1 with thm := { s1.thm with coldHold := true } }).thermFault 2 (s.sensorAt t) t
    else if s1.thm.coldHold && decide (p.choldClr * 16 ≤ t) then ({ s1 with thm := { s1.thm with coldHold := false } }).kickAll
    else s1

/-- Shutdown (R409 steps 1 and 2): the latch, THERMTRIP_N, and the Fatal fault of source 809 with its fixed reactions. -/
def State.thermShutdown (s : State) (k : Nat) : State :=
  if s.thm.shutdown then s
  else ({ s with thm := { s.thm with shutdown := true, thermtripN := false } }).faultNow
    { src := 809, level := 4, detail := k + detail16 (s.sensor k).temp * 2 ^ 16 }

/-- Two consecutive conversions of a working sensor at or beyond SHUT. -/
def State.shutdownCheck (s : State) (k : Nat) : State :=
  let x := s.sensor k
  if x.failed || x.temp < s.pat.eff.thermal.shut * 16 then s.setSensor k { x with shutRun := 0 }
  else
    let s1 := s.setSensor k { x with shutRun := min 2 (x.shutRun + 1) }
    if 1 ≤ x.shutRun then s1.thermShutdown k else s1

/-! Temperature thresholds (R410, R411). -/

/-- The temperature of TMPSEL `sel` in kelvin: the composite, the sensors of R410, or the flash dies of the last minute. -/
def State.tmpSel (s : State) (sel : Nat) : Option Int :=
  let regions (l : List Nat) : Option Int := (maxInt (l.filterMap s.regionTemp)).map kelvin
  let dies := s.med.dies.filterMap (fun e => match e.2.tempAt with | some t => if s.nowMs < t + 60000 then some (e.2.tempC + 273) else none | none => none)
  if sel = 0 then s.hottest.map kelvin
  else if sel = 1 then regions [0, 1, 2, 3] else if sel = 2 then regions [4, 5, 6, 7] else if sel = 3 then regions [8]
  else if sel = 4 then regions [9] else if sel = 5 then regions [10] else if sel = 6 then regions [11]
  else if sel = 7 then maxInt dies else if sel = 8 then minInt dies else none

/-- The thresholds of a controller for one TMPSEL: WARN_SET and CWARN_SET in kelvin by default (DEDUCED, log 63). -/
def thrKey (k sel : Nat) : Nat := k * 16 + sel
def State.overThr (s : State) (k sel : Nat) : Int := tgetD s.thm.overT (thrKey k sel) (s.pat.eff.thermal.warnSet + 273)
def State.underThr (s : State) (k sel : Nat) : Int := tgetD s.thm.under (thrKey k sel) (s.pat.eff.thermal.cwarnSet + 273)

/-- Is a temperature of a controller at or beyond a threshold? -/
def State.thrCrossed (s : State) (k : Nat) : Bool :=
  (List.range 9).any (fun sel => match s.tmpSel sel with
    | none => false
    | some t => decide (s.overThr k sel ≤ t) || decide (t ≤ s.underThr k sel))

/-- Critical warning bit 1 follows the thresholds; each setting of it raises an event (R411). -/
def State.thresholdCheck (s : State) : State :=
  let on := s.cmd.ctrls.any (fun e => e.2.en && s.thrCrossed e.1)
  let w := s.mlf.critWarn
  if on && !bitAt w 1 then ({ s with mlf := { s.mlf with critWarn := w + 2 } }).healthAen 1
  else if !on && bitAt w 1 then { s with mlf := { s.mlf with critWarn := w - 2 } }
  else s

/-- Every comparison of a conversion (R406). -/
def State.compareAll (s : State) : State :=
  ((((List.range 12).foldl (fun t r => t.throttleCheck r) s.warnCheck).coldCheck)).thresholdCheck

/-- Does a region throttle, or does cold hold or the safe state hold: what puts off a re-plan (R412, R419)? -/
def State.planBlocked (s : State) : Bool := s.glb.bare || s.flt.safe || s.thm.coldHold || (List.range 12).any (fun r => (s.region r).active)

end Sys2Proof.Machine
end

