-- ==== Sys2Proof/Machine/PowerOps.lean ====
section
/-! DEFINITION. Power domains: floors, idleness, entries and wakes, the keeper regulator, the core voltage request, and the
control complex in reset (13 R378 to R398, 12 R370, R371, 17 R466, R467). -/

namespace Sys2Proof.Machine

/-! Idleness (R383): a domain holds no work and its crossings are idle. -/

/-- Commands in the pipeline; an Asynchronous Event Request that waits is no work (DEDUCED, log 73). -/
def State.cmdWork (s : State) (admin : Bool) : Bool :=
  tany s.cmd.ctxs (fun _ x => (!admin || x.admin) && !(x.admin && x.opc == 0x0C && !x.committed))

/-- The bay whose parity engine holds the parity of a template's rows: that of the first parity die (R180). -/
def State.parityBay (s : State) (t : Nat) : Nat :=
  let x := s.stmpl t
  dieBay (x.dies.getD (x.dies.length - x.parity) 0)

/-- Does a die of a bay have an operation, or its parity engine a row that is OPEN or FULL (R382)? -/
def State.bayBusy (s : State) (b : Nat) : Bool :=
  s.med.dies.any (fun e => dieBay e.1 == b && !e.2.ops.isEmpty)
    || s.med.rows.any (fun e => (e.2.state == .open || e.2.state == .full) && s.parityBay e.2.tmpl == b)

/-- Does a domain hold work? A transfer still held in a crossing into it or out of it is work of both its islands (R19). -/
def State.islBusy (s : State) (i : Nat) : Bool :=
  !(s.isle i).held.isEmpty || s.isl.any (fun e => e.2.held.any (fun t => t.src == i))
    || (if isUcm i then !s.moduleRests (i - 4)
        else if isMcl i then s.bayBusy (i - 10) || s.liveJobs.any (fun c => s.jobUsesIsland c i)
        else if isDmi i then s.cmdWork false || tany s.med.landings (fun _ l => !l.waiting.isEmpty)
        else if 34 ≤ i then s.liveJobs.any (fun c => s.jobUsesIsland c i)
        else if i = islHFE ∨ i = islCMI then s.cmdWork false
        else if i = islTRN then s.cmdWork false || !s.med.relocs.isEmpty || !s.mic.replays.isEmpty
        else s.cmdWork true || s.sli.any (fun e => e.2.inReset || !e.2.mbReqs.isEmpty))

/-- May an idle domain go off now? The Z9 takes UCM domains off only under a detached port or beside a trickle module
(R380). -/
def State.maySink (s : State) (i : Nat) : Bool := !s.islBusy i && (!isUcm i || s.moduleRests (i - 4))

/-! The keeper regulator (R385 to R387). -/

/-- Retention currents of Table 13-1 at 25, 85 and 125 °C, in 0.1 mA. -/
def retCurrent (i : Nat) : Int × Int × Int :=
  if i = 0 then (40, 80, 160) else if i = 1 then (5, 20, 60) else if i = 2 then (15, 60, 180) else if i = 3 then (8, 30, 90)
  else if i < 8 then (2, 8, 25) else if i = 8 then (25, 100, 300) else if i = 9 then (35, 140, 420)
  else if i < 26 then (4, 16, 50) else if i < 34 then (1, 4, 12) else if i < 38 then (2, 8, 25)
  else if i < 40 then (6, 24, 70) else (6, 24, 75)

/-- A domain's retention current at `t` sixteenths of a degree, in 1/1,920 of 0.1 mA: linear between the three temperatures
and beyond them (R386), never below 0 (DEDUCED, log 64). -/
def retScaled (i : Nat) (t : Int) : Nat :=
  let c := retCurrent i
  (max 0 (if t < 1360 then c.1 * 1920 + (c.2.1 - c.1) * (t - 400) * 2 else c.2.1 * 1920 + (c.2.2 - c.2.1) * (t - 1360) * 3)).toNat

/-- What a domain counts: nothing while off; AON always. -/
def State.domLoad (s : State) (i : Nat) : Nat := if i ≠ 0 ∧ (s.isle i).dstate = .off then 0 else retScaled i (s.islTemp i)

/-- The sum of the estimates. -/
def State.retLoad (s : State) : Nat := sumNat ((List.range 72).map s.domLoad)

/-- Does the sum lie above a limit in 0.1 mA? -/
def State.overLoad (s : State) (lim : Nat) : Bool := decide (lim * 1920 < s.retLoad)

/-- The sum enters PWR_STATUS.EST, in 0.1 mA, rounded up; `lowSince` is since when it has lain at or below 300 mA (R387). -/
def State.sumLoad (s : State) : State :=
  { s with pwr := { s.pwr with est := min 65535 (ceilDiv s.retLoad 1920)
                               lowSince := if s.overLoad 3000 then none else some (s.pwr.lowSince.getD s.nowMs) } }

/-- The sum has stayed at or below 300 mA for 1 s. -/
def State.lowLong (s : State) : Bool := match s.pwr.lowSince with | some t => decide (t + 1000 ≤ s.nowMs) | none => false

/-- DETAIL of sources 883 to 887: the rail (0 VDD_CORE, 1 VDD_SRAM, 2 the interface rails, 3 the keeper rail), and above it a current, from
0.1 mA, in mA (Table 12-1) (DEDUCED, log 128). -/
def railDetail (rail tenths : Nat) : Nat := rail + ceilDiv tenths 10 * 65536

/-- Low-power mode is left when the sum lies above 315 mA (R387). -/
def State.keeperCheck (s : State) : State :=
  let s1 := s.sumLoad
  if s1.pwr.kmode && s1.overLoad 3150 then
    ({ s1 with pwr := { s1.pwr with kmode := false, lpRevert := true } }).queueFault { src := 884, level := 1, detail := railDetail 3 s1.pwr.est }
  else s1

/-- Do the conditions of low-power mode hold (Table 13-2, R388)? -/
def State.lpAllowed (s : State) : Bool := s.pat.eff.power.lpAllowed && !s.overLoad 3150 && !s.pwr.brownout

/-! Entries and wakes (R382, R384, R391, R393, R394). -/

/-- An idle domain starts to enter a state below; its pads are held, and its DRAM is put into self-refresh (DEDUCED, log 65). -/
def State.beginSleep (s : State) (i : Nat) (f : DState) : State :=
  let s0 := if f = .retention then s.keeperCheck else s
  let x := s0.isle i
  let s1 := (if isMcl i then s0.holdLed (i - 10) else s0).setIsl i { x with dstate := .changing, change := some (.entry f), sleepHold := x.sleepHold || isMcl i || isDmi i }
  if isDmi i then { s1 with pwr := { s1.pwr with dramState := tset s1.pwr.dramState (i - 26) (max 1 (tgetD s1.pwr.dramState (i - 26) 0)) } } else s1

/-- The entry completes. -/
def State.endSleep (s : State) (i : Nat) (f : DState) : State :=
  let x := s.isle i
  let s1 := s.setIsl i { x with dstate := f, change := none, stateAt := s.nowMs, filled := x.filled && f != .off
                                avail := if x.avail = .isolated then .isolated else .waking }
  if i = islCTL then { s1 with pwr := { s1.pwr with timerArmed := true } } else s1

/-- Dies of an MCL island take up their work again. -/
def State.kickMcl (s : State) (i : Nat) : State := if isMcl i then (bayDies (i - 10)).foldl (fun t d => t.kick d) s else s

/-! The control complex in reset (R370, R371). -/

/-- Admin commands that firmware is executing: they were decoded and wait for a change. An Asynchronous Event Request only
waits; slice resets and removals resume, and a Panel Reload completes under R64. -/
def State.executing (s : State) : List Nat :=
  let resumes (c : Nat) : Bool := s.sli.any (fun e => e.2.resets.any (fun r => r.2.waiter == some (.ctx c)))
    || s.pat.reload.waiter == some (.ctx c)
  (s.cmd.ctxs.filter (fun e => e.2.admin && e.2.decoded && !e.2.committed && e.2.opc != 0x0C && !resumes e.1)).map (·.1)

/-- CTL goes into reset: the commands that firmware was executing complete with Internal Error. While the array programs or
erases, CTL stays in reset until it ends. A Panel Reload ends as R64 states. -/
def State.ctlDown (s : State) : State :=
  let s0 := if s.reloading then s.failReload s.pat.reload.panel else s
  let s1 := s0.executing.foldl (fun t c => (t.dropWaiter c).finish c (errOut .internalErr)) s0
  let busy := s.cnv.banks.any (fun e => e.2.cur.isSome)
  { s1 with flt := { s1.flt with ctlReset := true, wdogHold := busy, holdSince := s.nowMs } }

/-! The core voltage request (R466, R467). -/

/-- Do planned points fit an island record (R415): as many, each within its voltages and at most at its frequencies? -/
def planFits (r : IslRec) (l : List (Nat × Nat)) : Bool :=
  l.length == r.points.length && (l.zip r.points).all (fun e => decide (r.vmin ≤ e.1.2) && decide (e.1.2 ≤ r.vmax) && decide (e.1.1 ≤ e.2.1))

/-- Points of an island in force: the margin plan's, else the Pattern's; (MHz, mV), top point first. The bare structure applies no
plan (Table 2-13). -/
def State.islPoints (s : State) (i : Nat) : List (Nat × Nat) :=
  let r : IslRec := s.pat.eff.isl.getD i {}
  match tget s.age.plan.points i with
  | some l => if !s.glb.bare && planFits r l then l else r.points
  | none => r.points

/-- The highest VDD_CORE the measured VDD_SRAM allows, in mV: 50 above it, rounded down to 5. -/
def State.sramCap (s : State) : Nat := (s.glb.vddSramMv + 50) / 5 * 5

/-- Request code of a voltage: 0.500 V + CODE × 5 mV, CODE 10 to 80. -/
def vreqOf (mv : Nat) : Nat := min 80 (max 10 (ceilDiv (mv - 500) 5))
def vreqMv (code : Nat) : Nat := 500 + 5 * code

/-- The request that serves the points in use of every island but AON. -/
def State.vreqNeed (s : State) : Nat :=
  vreqOf (maxNat (((List.range 72).filter (fun i => i != 0 && present s.pat.eff i)).map (fun i => ((s.islPoints i).getD (s.isle i).point (0, 0)).2)))

/-- The clamp of R467 binds for the first time. -/
def State.noteClamp (s : State) : State :=
  if s.glb.clampReported then s
  else ({ s with glb := { s.glb with clampReported := true } }).queueFault { src := 886, level := 1, detail := s.glb.vddSramMv }

/-- ISL_STATE.FREQ_MHZ and VDD_MV: those of the point in use; a UCM island runs from its link's forwarded clock, 16 GHz at
32 GT/s, a DMI controller at the DRAM command clock, a quarter of WCK (R21); an island that is off reads 0 (R40, R41). -/
def State.islFreq (s : State) (i : Nat) : Nat :=
  if (s.isle i).dstate = .off then 0
  else if isUcm i then (s.port (s.modPortOf (i - 4))).gts * 500
  else if isDmi i then (match s.pat.eff.dram with | some d => d.rate0 / 8 | none => 0)
  else ((s.islPoints i).getD (s.isle i).point (0, 0)).1
def State.islVdd (s : State) (i : Nat) : Nat :=
  if (s.isle i).dstate = .off then 0 else ((s.islPoints i).getD (s.isle i).point (0, 0)).2

/-- AON has an event in hand: a wake or a brown-out that PWR_EVT shows, a thermal trip, or a transfer in a crossing of AON's own. -/
def State.aonEvent (s : State) : Bool :=
  s.pwr.brownout || s.pwr.wakeSb || s.pwr.wakeLink || s.pwr.wakeBay || s.thm.shutdown || !(s.isle 0).held.isEmpty
    || s.isl.any (fun e => e.2.held.any (fun t => t.src == 0))

/-- Does AON's internal oscillator run (R21)? It is gated only when every other island is in retention or off, no firmware wake timer is armed
and AON has no event in hand. -/
def State.oscillatorRuns (s : State) : Bool :=
  s.isl.any (fun e => e.1 != 0 && !e.2.dstate.asleep) || s.pwr.timerArmed || s.aonEvent

/-- An island takes a point. -/
def State.setPoint (s : State) (i p : Nat) : State := s.modIsl i (fun x => { x with point := p })

/-- The voltage follows points that were lowered. -/
def State.lowerVdd (s : State) : State :=
  if s.vreqNeed < s.glb.vreqCode ∧ s.glb.vreqRaise.isEmpty then { s with glb := { s.glb with vreqCode := s.vreqNeed, vreqOk := min s.glb.vreqOk s.vreqNeed } } else s

/-- May the voltage be raised: no failed request stands, or VREQ_ALERT_N has been high for 1 s since. -/
def State.mayRaise (s : State) : Bool := !s.glb.vreqBlocked || (s.glb.vreqAlertN && decide (s.glb.vreqHighAt + 1000 ≤ s.nowMs))

/-- Move an island to a point: at once where the confirmed voltage serves it; else the voltage is raised first, and the point
follows when the board confirms it. A point above the measured VDD_SRAM's reach is not taken (DEDUCED, log 81). -/
def State.movePoint (s : State) (i p : Nat) : State :=
  let q := (s.islPoints i).getD p (0, 0)
  if s.sramCap < q.2 then s.noteClamp
  else if vreqOf q.2 ≤ s.glb.vreqOk ∧ vreqOf q.2 ≤ s.glb.vreqCode then
    (({ s with glb := { s.glb with vreqRaise := tdel s.glb.vreqRaise i } }).setPoint i p).lowerVdd
  else if !s.mayRaise then s
  else { s with glb := { s.glb with vreqCode := max s.glb.vreqCode (vreqOf q.2), vreqRaise := tset s.glb.vreqRaise i p, vreqBlocked := false } }

end Sys2Proof.Machine
end

