-- ==== Sys2Proof/Machine/IntegOps.lean ====
section
/-! DEFINITION. Memory integrity: line checks, the recovery of each memory class, sparing, frame retirement (11). -/

namespace Sys2Proof.Machine

/-! Memory instances (MIC_MEM). -/

/-- The instance kind that holds a class's lines in an island, where a transfer names only the class (DEDUCED, log 67) (DEDUCED, log 76). -/
def kindOf (mc isl : Nat) : Nat :=
  if isDmi isl then 13 else if mc = 0 then (if isl = islCTL then 8 else 0) else if mc = 1 then 1 else if mc = 2 then 3 else if mc = 3 then 4 else if mc = 4 then 5
  else if mc = 5 then 7 else if mc = 6 then 6 else if mc = 10 then 9
  else if mc = 9 then (if isl = islSEC then 12 else if isl = islCTL then 8 else if isl = islHFE then 10 else 11) else 11

/-- Does an island hold memory of a class (Tables 1-3 and 11-1)? DRAM holds lines of classes 0, 2 to 5, 7 and 9. -/
def holdsClass (mc isl : Nat) : Bool :=
  if isDmi isl then mc == 0 || (decide (2 ≤ mc) && decide (mc ≤ 5)) || mc == 7 || mc == 9
  else if isl = islCTL then mc == 0 || mc == 9
  else if isl = islSEC then mc == 9
  else if isl = islHFE then mc == 7 || mc == 9
  else if isl = islCMI then mc == 6 || mc == 9
  else if isl = islTRN then mc == 3 || mc == 4
  else if isMcl isl then mc == 5 || mc == 7
  else if decide (34 ≤ isl) && decide (isl < 38) then mc == 7
  else if decide (38 ≤ isl) && decide (isl < 40) then mc == 10
  else if 40 ≤ isl then mc == 0 || mc == 1 || mc == 2
  else false

/-! The division of buffer DRAM (R296, Table 9-9). -/

def poolSize (c : Nat) : Nat := 4096 * 4 ^ c

/-- Share of a class in 32nds of the remainder. -/
def poolShare (c : Nat) : Nat := if c ≤ 1 then 1 else if c ≤ 3 then 2 else if c = 4 then 4 else 18
def poolFrames (p : Pat) (c : Nat) : Nat := remainMib p * 2 ^ 20 * poolShare c / 32 / poolSize c

/-- Where a class's frames begin: behind the reserves, the comet cache and the classes below (DEDUCED, log 21). -/
def poolStart (p : Pat) (c : Nat) : Nat :=
  (reservesMib p + remainMib p / 8) * 2 ^ 20 + sumNat ((List.range c).map (fun k => poolFrames p k * poolSize k))

/-- The comet read cache (R105). -/
def cometBytes (p : Pat) : Nat := remainMib p * 2 ^ 20 / 8

/-- Populated DRAM interfaces, and the data bytes their fill pointers cover: addresses interleave across them (R349). -/
def dramIfs (p : Pat) : List Nat := match p.dram with | none => [] | some d => (List.range 8).filter (bitAt d.mask)
def State.filledBytes (s : State) : Nat :=
  let l := dramIfs s.pat.eff
  minNat (l.map (fun j => s.mic.fillPtr.getD j 0)) * 1984 * l.length

/-- Frames go to the free stores as they are filled. -/
def State.fillPools (s : State) : State :=
  (List.range 6).foldl (fun t c =>
    let p := t.pool c
    t.setPool c { p with filled := max p.filled (min p.frames ((s.filledBytes - poolStart s.pat.eff c) / poolSize c)) }) s

/-! Frames that are retired (R303). -/

/-- A repair enters the map; a full map keeps it only until power-off, with an Advisory fault (R353). -/
def State.recordRepair (s : State) (mc line : Nat) (e : RepEnt) : State :=
  if s.mic.repairs.length < 4096 then { s with mic := { s.mic with repairs := s.mic.repairs ++ [e] } }
  else s.queueFault { src := 72 + e.island, level := 1, detail := e.mem + mc * 256 + line * 65536 }

/-- Retire a frame for a line of DRAM island `isl`: a free one leaves its store at once, a held one at its free. -/
def State.retireFrame (s : State) (isl mc line k : Nat) : State :=
  let fr := s.frame k
  if fr.retired || fr.retiring then s
  else
    let c := k / 2 ^ 28
    let f := k % 2 ^ 28
    let p := s.pool c
    let s0 := s.recordRepair mc line { island := isl, mem := 13, kind := 3, frame := c * 2 ^ 29 + f, timeH := s.nowMs / hourMs }
    if fr.held then s0.setFrame k { fr with retiring := true, badIsl := isl }
    else ((s0.setFrame k { fr with retired := true, badIsl := isl }).setPool c { p with cache := p.cache.filter (· != f), ring := p.ring.filter (· != f)
                                                                                        skip := insertNat p.skip f }).countRetired k

/-- The frame that a DRAM line of a frame lies in: classes 2 and 7. -/
def dramFrame (mc line : Nat) : Option Nat := if mc = 2 ∨ mc = 7 then some (line / 65536) else none

/-! Sparing (R351 to R353). -/

/-- What a disabled line does beside the capacity it takes (Table 11-2). -/
def State.disableEffect (s : State) (isl j line : Nat) : State :=
  if j = 6 then { s with mic := { s.mic with withdrawn := insertNat s.mic.withdrawn (line / 4) } }
  else if j = 3 ∧ 40 ≤ isl then s.isolateUnit isl (line / 8192 % 4)
  else if j = 9 then
    let h := isl - 38
    let x : Half := tval s.wvf h
    let dirs := (match (if h = 0 then s.pat.eff.weave0 else s.pat.eff.weave1) with | some p => p.weaves | none => [])
    let l := (dirs.filter (fun d => decide (d.first ≤ line / 32) && decide (line / 32 < d.first + d.cells))).map (·.weave)
    { s with wvf := tset s.wvf h { x with failedWeaves := l.foldl insertNat x.failedWeaves } }
  else s

/-- The third refetch of a line of an SRAM instance within 24 h: a spare row or column, or the line is disabled. -/
def State.repairLine (s : State) (isl mc j line mask : Nat) : State :=
  let m := s.mem isl j
  let g := Config.macroOf isl j line
  let rl := Config.rowLinesM1 isl j + 1
  let same := m.track.any (fun u => u.line != line && Config.macroOf isl j u.line == g && u.line / rl != line / rl
    && Config.columnOf u.mask == Config.columnOf mask)
  let left (k : Nat) : Bool := decide (tgetD (if k = 0 then m.usedRows else m.usedCols) g 0 < Config.macroSpare isl j g k)
  let col := same && left 1
  let e : RepEnt := { island := isl, mem := j, macr := g, timeH := s.nowMs / hourMs }
  let m1 : MMem := { m with track := m.track.filter (fun u => u.line != line) }
  if col then
    ((s.setMem isl j { m1 with usedCols := tset m.usedCols g (tgetD m.usedCols g 0 + 1) }).micCnt 10 1).recordRepair mc line
      { e with kind := 1, spare := tgetD m.usedCols g 0, index := Config.columnOf mask }
  else if left 0 then
    ((s.setMem isl j { m1 with usedRows := tset m.usedRows g (tgetD m.usedRows g 0 + 1) }).micCnt 9 1).recordRepair mc line
      { e with kind := 0, spare := tgetD m.usedRows g 0, index := line / rl }
  else
    (((((s.setMem isl j { m1 with degraded := true, disabled := insertNat m.disabled line }).micCnt 11 1).recordRepair mc line
      { e with kind := 2, index := line })).disableEffect isl j line).queueFault
      { src := 72 + isl, level := 2, detail := j + mc * 256 + line * 65536 }

/-- A refetch enters the tracker: 64 entries, the one with the oldest last refetch gives way (R351). -/
def State.trackLine (s : State) (isl mc j line mask : Nat) : State :=
  let m := s.mem isl j
  let old : MTrack := (m.track.find? (fun u => u.line == line)).getD { line := line }
  let recent := old.times.filter (fun t => decide (s.nowMs < t + dayMs))
  let e : MTrack := { line := line, times := (recent ++ [s.nowMs]).drop (recent.length - 1), mask := mask }
  let rest := m.track.filter (fun u => u.line != line)
  let oldest := minNat (rest.map (fun u => maxNat u.times))
  let kept := if rest.length < 64 then rest else rest.eraseP (fun u => maxNat u.times == oldest)
  let s1 := s.setMem isl j { m with track := kept ++ [e] }
  if recent.length < 2 then s1
  else if j = 13 then
    let s2 := s1.setMem isl j { m with track := kept }
    match dramFrame mc line with
    | some k => s2.retireFrame isl mc line k
    | none => s2
  else s1.repairLine isl mc j line mask

/-! Recovery (R341 to R346). -/

/-- Commands whose job data or work unit lies in the line end their jobs. -/
def State.jobLost (s : State) (ctx : Option Nat) (e : Nat) : State :=
  match ctx with
  | some c => s.failJob c e 0xFF
  | none => s

/-- The program of a job whose DRAM copy failed becomes damaged (R287). -/
def State.damageProg (s : State) (ctx : Option Nat) : State :=
  match ctx with
  | none => s
  | some c =>
    let sl := (s.ctx c).slice
    let h := (s.job c).desc.prog
    match s.alloc? sl h with
    | some a => if (s.job? c).isSome && a.isProg then s.setAlloc sl h { a with damaged := true } else s
    | none => s

/-- A write buffer line with more uncorrectable lines in its parity group than parity, and no landing copy (R342). -/
def State.lineLost (s : State) (k : Nat) : State :=
  match s.lineAt k with
  | none => s
  | some l =>
    let s1 := s.micCnt 6 1
    match l.ctx with
    | some c => if (s1.ctx c).open then s1.endErr c .dataXfer else (s1.modLine k (fun y => { y with bad := true })).recordLost 2 [(l.ns, l.lba)]
    | none => (s1.modLine k (fun y => { y with bad := true })).recordLost 2 [(l.ns, l.lba)]

/-- A context line: before the commit point the command ends; the context is withdrawn, its frames wait for an audit (R343). -/
def State.ctxLost (s : State) (c : Nat) : State :=
  let x := s.ctx c
  let s1 : State := { s with mic := { s.mic with withdrawn := insertNat s.mic.withdrawn c
                                                 auditFrames := s.mic.auditFrames ++ x.bufs.map (hKey s) } }
  if (s1.ctx? c).isNone then s1
  else
    let s2 := s1.setCtx c { x with bufs := [] }
    if x.open && x.outc.isNone then s2.endErr c .dataXfer else s2

/-- Both copies of a class 9 line have failed (R346). -/
def State.dupLost (s : State) (isl j line : Nat) : State :=
  if j = 10 then
    let sl := if line < 32768 then (s.queue line).slice else (line - 32768) % 2048
    let p := if line < 32768 then (s.queue line).port else (s.slc sl).port
    s.controllerFatal (ctrlKey p sl)
  else if j = 11 then
    let k := line
    let c := k / 2 ^ 28
    let p := s.pool c
    if p.cache.contains (k % 2 ^ 28) then
      { (s.setPool c { p with cache := p.cache.filter (· != k % 2 ^ 28) }) with mic := { s.mic with auditFrames := s.mic.auditFrames ++ [k] } }
    else s
  else if j = 8 then s.queueFault { src := 72 + isl, level := 3, detail := j + 9 * 256 + line * 65536 }
  else if j = 13 then s.retireFrame isl 9 line line
  else s

/-- A DMA channel halts on a bad source line (R344). -/
def State.dmaHalt (s : State) (ctx : Option Nat) : State :=
  match ctx with
  | some c => if (s.ctx? c).isSome then { (s.micCnt 7 1) with mic := { (s.micCnt 7 1).mic with halted := insertNat s.mic.halted c } } else s
  | none => s

/-- Recovery of an uncorrectable line (Table 11-1). Whether a source that the model does not hold a copy of supplies the line
is a free choice. `moving` says that the line was crossing an island edge (DESIGN CHOICE, log 66). -/
def State.recover (s : State) (isl mc j line : Nat) (ctx : Option Nat) (moving : Bool) : State :=
  let r := drawBool s
  let t := r.2
  let again := t.micCnt 3 1
  if mc = 0 then
    if r.1 then again
    else if isl = islCTL then t.queueFault { src := 72 + isl, level := 3, detail := j + line * 65536 }
    else (t.damageProg ctx).jobLost ctx 0x0D
  else if mc = 1 then (if r.1 then again else t.jobLost ctx 0x0D)
  else if mc = 2 then s.jobLost ctx 0x0D
  else if mc = 3 ∨ mc = 4 then
    if r.1 then again else { t with mic := { t.mic with replays := if t.mic.replays.contains (mc == 4, line) then t.mic.replays else t.mic.replays ++ [(mc == 4, line)] } }
  else if mc = 5 then
    if r.1 && decide (0 < (s.stmpl (rkTmpl (ukRow (line / 64)))).parity) then t.micCnt 1 1 else if t.landingOf (line / 64) || t.unitDurable (line / 64) then again else t.lineLost (line / 64)
  else if mc = 6 then s.ctxLost (line / 4)
  else if mc = 7 then (if moving then s.dmaHalt ctx else s.micCnt 3 1)
  else if mc = 9 then (if r.1 then again else t.dupLost isl j line)
  else if mc = 10 then s.jobLost ctx 0x0F
  else s

/-- A failed check of a DRAM frame's line is an integrity event of the frame; two uncorrectable lines retire it (R298, R303). -/
def State.frameEvent (s : State) (mc j line : Nat) : State :=
  if j != 13 then s
  else match dramFrame mc line with
    | none => s
    | some k =>
      let fr := s.frame k
      s.setFrame k { fr with fails := fr.fails.filter (fun t => decide (s.nowMs < t + dayMs)) ++ [s.nowMs] }
def State.frameFail (s : State) (isl mc j line : Nat) : State :=
  if j != 13 then s
  else match dramFrame mc line with
    | none => s
    | some k =>
      let fr := s.frame k
      let s1 := s.setFrame k { fr with bad := fr.bad + 1 }
      if 1 ≤ fr.bad then s1.retireFrame isl mc line k else s1

/-- A line that the flip mask corrupted fails both reads (R354). -/
def State.lineMarked (s : State) (isl j line : Nat) : Bool := (s.mem isl j).marked.contains line
def State.unmark (s : State) (isl j line : Nat) : State :=
  let m := s.mem isl j
  if m.marked.contains line then s.setMem isl j { m with marked := removeNat m.marked line } else s

/-- A check of a line of class `mc` in memory `j` of an island (R340): a good line passes; a failing one is read again, and
is then a transient, or uncorrectable. -/
def State.checkLine (s : State) (isl mc j line : Nat) (chk : LineCheck) (ctx : Option Nat) (moving : Bool) : State :=
  let marked := s.lineMarked isl j line
  if chk.firstOk && !marked then s
  else
    let m := s.mem isl j
    let s1 := (((s.setMem isl j { m with fails := satAdd 16 m.fails 1 }).frameEvent mc j line).micCnt 0 1).queueFault
      { src := 72 + isl, level := 0, detail := j + mc * 256 + line * 65536 }
    let s2 : State := if marked then { s1 with mic := { s1.mic with detected := true } } else s1.trackLine isl mc j line chk.mask
    if chk.secondOk && !marked then s2.micCnt 2 1
    else ((s2.unmark isl j line).frameFail isl mc j line).recover isl mc j line ctx moving

/-- A write of a line: an armed flip mask corrupts it, any other write clears its mark (R354). -/
def State.writeLine (s : State) (isl mc j line : Nat) : State :=
  if s.mic.armed && s.mic.flipCls == mc && s.mic.flipIsl == isl then
    let m := s.mem isl j
    let s1 := s.setMem isl j { m with marked := insertNat m.marked line }
    { s1 with mic := { s1.mic with armed := false, injected := true, flipAct := s1.mic.flipAct.finish true } }
  else s.unmark isl j line

/-! Delivery of transfers (R17, R26). -/

/-- A transfer reaches its island once: its line is checked, written, or filtered. The destination checks the line that a
data transfer carries; a second mismatch also counts against the source island's network port. A write toward host memory
of an old generation is dropped by the egress filter (R321). -/
def State.deliverOne (s : State) (t : Transfer) : State :=
  match t.body with
  | .egress sl gen =>
    if gen != (s.slc sl).gen then s else { s with host := { s.host with delivered := s.host.delivered ++ [t] } }
  | .plain => { s with host := { s.host with delivered := s.host.delivered ++ [t] } }
  | .writeLine mc j line => ({ s with host := { s.host with delivered := s.host.delivered ++ [t] } }).writeLine t.dst mc j line
  | .readLine mc j line chk => ({ s with host := { s.host with delivered := s.host.delivered ++ [t] } }).checkLine t.dst mc j line chk t.ctx false
  | .line mc line chk =>
    let j := kindOf mc t.src
    let bad := (!chk.firstOk && !chk.secondOk) || s.lineMarked t.src j line
    let s1 := ({ s with host := { s.host with delivered := s.host.delivered ++ [t] } }).checkLine t.src mc j line chk t.ctx true
    if bad then s1.queueFault { src := t.src, level := 0, detail := line } else s1

/-- Transfers held toward an island that now serves are delivered (R18). -/
def State.deliverHeld (s : State) (i : Nat) : State :=
  let x := s.isle i
  x.held.foldl (fun t e => t.deliverOne e) (s.setIsl i { x with held := [] })

end Sys2Proof.Machine
end

