-- ==== Sys2Proof/Machine/Integrity.lean ====
section
/-! DEFINITION. The commands of memory integrity (11). -/

namespace Sys2Proof.Machine

/-- The LBAs of a map line whose recovery failed become UNC; a media and data integrity error (Table 11-1 class 4). -/
def State.mapLineLost (s : State) (key : Nat) : State :=
  let n := key / 2 ^ 40
  let l := lbasOf (key % 2 ^ 40 * 8) 8
  let s1 := (l.filter (fun a => decide (a < (s.ns n).nsze))).foldl (fun t a => t.commitMap (key2 n a) none true) s
  { (s1.micCnt 6 1) with mlf := { (s1.micCnt 6 1).mlf with mediaErrors := s1.mlf.mediaErrors + 1 } }

/-- TABLE_REPLAY_COMPLETE (R345): the entry is rebuilt, and the translations that wait for it go on. A zone table replay
always succeeds while a copy of its journal is readable; without one it stays, a Critical fault of TRN. -/
def execTableReplayComplete (isMap : Bool) (key : Nat) (readable : Bool) (s : State) : Out :=
  .next (
    if !s.mic.replays.contains (isMap, key) then s
    else
      let s1 : State := { s with mic := { s.mic with replays := s.mic.replays.erase (isMap, key) } }
      if isMap then (if readable then s1.micCnt 5 1 else (s1.micCnt 5 1).mapLineLost key)
      else if readable then s1.micCnt 4 1
      else s.queueFault { src := 755, level := 3, detail := key })

/-- DMA_CHANNEL_RESTART (R344): before the commit point the command ends with Data Transfer Error; after it the transfer is
repeated from the source, or, with none, the controller reports CSTS.CFS 1. -/
def execDmaChannelRestart (c : Nat) (sourceOk : Bool) (s : State) : Out :=
  guardUnit s (ctxOk c)
    (if !s.mic.halted.contains c then s
     else
       let s1 : State := { s with mic := { s.mic with halted := removeNat s.mic.halted c } }
       let x := s1.ctx c
       if x.open && x.outc.isNone then s1.endErr c .dataXfer
       else if sourceOk then s1.micCnt 3 1
       else s1.controllerFatal (ctrlKey x.port x.slice))

/-- Memory class of narrow writes in an island (R355): peer writes and core stores reach job data. -/
def narrowClass (isl : Nat) : Nat := if isDmi isl || decide (40 ≤ isl) then 2 else 9

/-- MERGE_BUFFER_FLUSH (R355): a read-modify-write; its read is checked under R340 (DEDUCED, log 68). -/
def execMergeBufferFlush (isl line : Nat) (chk : LineCheck) (s : State) : Out :=
  guardUnit s (islOk isl)
    (let mc := narrowClass isl
     let j := kindOf mc isl
     ((s.micCnt 8 1).checkLine isl mc j line chk none false).writeLine isl mc j line)

/-- DRAM_BACKGROUND_FILL (R349): groups of 2 KiB above the fill pointer are filled; frames go to the free stores. -/
def execDramBackgroundFill (j groups : Nat) (s : State) : Out :=
  guardUnit s (decide (j < 8))
    (match s.pat.eff.dram with
     | none => s
     | some d =>
       if !bitAt d.mask j || s.islIsolated (islDMI j) then s
       else
         let top := d.capGib * 2 ^ 19
         let p := min top (s.mic.fillPtr.getD j 0 + groups)
         let s1 : State := { s with mic := { s.mic with fillPtr := putAt s.mic.fillPtr j p
                                                        dramFilled := if p = top then s.mic.dramFilled ||| 2 ^ j else s.mic.dramFilled } }
         s1.fillPools)

/-- A write of MIC_FLIP (R354): a write of ARM 0 stores nothing; MASK 0, class 8 or above 10, or an island without memory of
the class is refused. -/
def State.flipWrite (s : State) (arm cls isl offset mask : Nat) (onCrc : Bool) : State :=
  if s.mic.flipAct.busy then { s with mic := { s.mic with flipAct := s.mic.flipAct.meet } }
  else
    if arm % 2 = 0 then { s with mic := { s.mic with flipCls := cls, flipIsl := isl, flipOff := offset, flipMask := mask, flipOnCrc := onCrc } }
    else if mask = 0 || cls == 8 || decide (10 < cls) || !present s.pat.eff isl || !holdsClass cls isl then
      { s with mic := { s.mic with flipAct := wsNow false, flipCls := cls, flipIsl := isl, flipOff := offset, flipMask := mask, flipOnCrc := onCrc } }
    else { s with mic := { s.mic with armed := true, flipAct := wsRun, flipCls := cls, flipIsl := isl, flipOff := offset, flipMask := mask
                                      flipOnCrc := onCrc, injected := false, detected := false } }

/-- FLIP_ARM. -/
def execFlipArm (arm cls isl offset mask : Nat) (onCrc : Bool) (s : State) : Out :=
  .next (s.flipWrite arm (cls % 16) (isl % 128) (offset % 64) (mask % 65536) onCrc)

end Sys2Proof.Machine
end

