-- ==== Sys2Proof/Machine/Power.lean ====
section
/-! DEFINITION. The commands of the power domains, the keeper regulator and the pads (13). -/

namespace Sys2Proof.Machine

/-! Domains. -/

/-- A wake completes: the domain is on, its transfers are released; sleep lets its pads go itself where AUTO is 1. -/
def State.endWake (s : State) (i : Nat) (src : DState) (cause us : Nat) : State :=
  let x := s.isle i
  let s1 := s.setIsl i { x with dstate := .on, change := none, stateAt := s.nowMs, lastWakeUs := min 4095 us, wakeCause := cause, wakes := satAdd 16 x.wakes 1
                                filled := x.filled || src == .off, sleepHold := x.sleepHold && !x.padAuto && !isDmi i
                                avail := if x.avail = .isolated then .isolated else .available }
  let s2 := if isDmi i && !s.flt.safe then { s1 with pwr := { s1.pwr with dramState := tset s1.pwr.dramState (i - 26) 0 } } else s1
  let s3 := if i = islCTL then { s2 with pwr := { s2.pwr with timerArmed := false } } else s2
  (if x.avail = .isolated then s3 else s3.deliverHeld i).kickMcl i


/-- Does a domain stand above its effective floor? -/
def aboveFloor (d f : DState) : Bool := (d == .on && f != .on) || (d == .retention && f == .off)

/-- DOMAIN_IDLE_TIMEOUT (R383): a domain idle for RET_IDLE_US starts to enter its floor. Only one change of a domain runs at a
time; AON, absent and isolated domains stay as they are, and after a thermal shutdown nothing enters by itself. -/
def execDomainIdleTimeout (isl : Nat) (s : State) : Out :=
  guardUnit s (islOk isl)
    (let x := s.isle isl
     let f := s.effFloor isl
     if isl != 0 && present s.pat.eff isl && x.change.isNone && x.avail != .isolated && x.avail != .resetting && !s.thm.shutdown
         && aboveFloor x.dstate f && s.maySink isl then s.beginSleep isl f else s)

/-- DOMAIN_ENTRY_COMPLETE (R384). -/
def execDomainEntryComplete (isl : Nat) (s : State) : Out :=
  guardUnit s (islOk isl)
    (match (s.isle isl).change with
     | some (.entry f) => s.endSleep isl f
     | _ => s)

/-- DOMAIN_WAKE: `cause` is numbered as PWR_DOM_STATE.WAKE_CAUSE (R389, R391). -/
def execDomainWake (isl cause : Nat) (s : State) : Out :=
  guardUnit s (islOk isl && decide (cause < 8)) (s.wakeEvent isl cause)

/-- DOMAIN_WAKE_COMPLETE (R391). -/
def execDomainWakeComplete (isl us : Nat) (s : State) : Out :=
  guardUnit s (islOk isl)
    (match (s.isle isl).change with
     | some (.wake src cause) => s.endWake isl src cause us
     | _ => s)

/-- DRAM_DEEP_SLEEP (R382): the domain has been off for 1 s; its DRAM is in self-refresh. -/
def execDramDeepSleep (j : Nat) (s : State) : Out :=
  guardUnit s (decide (j < 8))
    (if (s.isle (islDMI j)).dstate = .off ∧ (s.isle (islDMI j)).stateAt + 1000 ≤ s.nowMs ∧ tgetD s.pwr.dramState j 0 = 1 then
       { s with pwr := { s.pwr with dramState := tset s.pwr.dramState j 2 } } else s)

/-- Why a FLOOR is refused: island 0, an absent island, a floor the domain may not take, or a transition (DEDUCED, log 70). -/
def State.floorRefused (s : State) (isl v : Nat) : Bool :=
  isl == 0 || !present s.pat.eff isl || (s.isle isl).change.isSome || (v == 2 && !s.mayRetain isl) || (v == 3 && !s.mayOff isl)

/-- PWR_DOM_CTL.FLOOR (R383): a domain that sits below its new floor goes to on at once. -/
def State.floorWrite (s : State) (isl v : Nat) : State :=
  if s.floorRefused isl v then s.modIsl isl (fun x => { x with floorAct := wsShown v })
  else
    let s1 := s.modIsl isl (fun x => { x with floor := v, floorAct := wsNow true })
    if belowFloor (s1.isle isl).dstate (s1.effFloor isl) then s1.startWake isl 7 else s1

/-- FLOOR_WRITE. -/
def execFloorWrite (isl floor : Nat) (s : State) : Out := guardUnit s (islOk isl) (s.floorWrite isl (floor % 4))

/-! The keeper regulator. -/

/-- PWR_KEEPER_CTL.REQ_LP (R387). -/
def State.keeperRequest (s : State) (v : Nat) : State :=
  if v % 2 = 0 then { s with pwr := { s.pwr with reqLp := false, kmode := false, lpRefused := s.pwr.brownout, reqAct := wsNow true } }
  else if s.lpAllowed then { s with pwr := { s.pwr with reqLp := true, kmode := true, lpRefused := false, reqAct := wsNow true } }
  else { s with pwr := { s.pwr with lpRefused := true, reqAct := wsShown 1 } }

/-- KEEPER_MODE_REQUEST. -/
def execKeeperModeRequest (req : Nat) (s : State) : Out := .next (s.keeperRequest req)

/-- KEEPER_ESTIMATE (R386, R387). -/
def execKeeperEstimate (s : State) : Out := .next s.keeperCheck

/-- KEEPER_LP_REENTRY (R387): the sum has stayed at or below 300 mA for 1 s. -/
def execKeeperLpReentry (s : State) : Out :=
  .next (if s.pwr.reqLp && !s.pwr.kmode && s.lpAllowed && !s.overLoad 3000 && s.lowLong then
      { s with pwr := { s.pwr with kmode := true, lpRefused := false } } else s)

/-- A retained domain has lost its state: it cold-starts as though it came from off (R388). What WAKE_CAUSE then reads is a
free value (DESIGN CHOICE, log 72). -/
def State.coldStart (s : State) (i : Nat) : State :=
  let x := s.isle i
  let lost := x.dstate == .retention || (match x.change with | some (.wake .retention _) => true | _ => false)
  if !lost then s
  else
    let r := drawNat s
    let s1 := r.2.modIsl i (fun y => { y with change := some (.wake .off (r.1 % 8)), dstate := .changing, filled := false })
    if i = islHFE then
      { s1 with cmd := { s1.cmd with
        ctrls := tmap s1.cmd.ctrls (fun _ c => { c with cfs := true })
        queues := tmap s1.cmd.queues (fun _ q => { slice := q.slice, qid := q.qid, port := q.port }) } }
    else if i = islCTL then s1.ctlDown
    else s1

/-- BROWN_OUT (R388). -/
def execBrownOut (s : State) : Out :=
  .next (
    let s1 := ({ s with pwr := { s.pwr with brownout := true, boCount := satAdd 16 s.pwr.boCount 1, kmode := false, lpRefused := true } }).queueFault
      { src := 883, level := 3, detail := railDetail 3 s.pwr.est }
    (List.range 72).foldl (fun t i => t.coldStart i) s1)

/-! Pads (R394). -/

/-- A release clears the domain-sleep holder; it is refused while the domain is not on. -/
def State.padRelease (s : State) (isl v : Nat) : State :=
  if v % 2 = 0 then s
  else if !s.domOn isl then s.modIsl isl (fun x => { x with padRelAct := wsNow false })
  else (s.modIsl isl (fun x => { x with sleepHold := false, padRelAct := wsNow true })).kickMcl isl

/-- PAD_HOLD_RELEASE. -/
def execPadHoldRelease (isl v : Nat) (s : State) : Out := guardUnit s (islOk isl) (s.padRelease isl v)

/-! Wake sources. -/

/-- SIDEBAND_ADDRESS_MATCH (R389, R390): CTL and SEC wake, only while SIDEBAND_PLAN lets the comparator run. -/
def execSidebandAddressMatch (s : State) : Out :=
  .next (if s.pat.eff.sideband.wakeAddr then (s.wakeEvent islCTL 1).wakeEvent islSEC 1 else s)

/-- WAKE_TIMER_EXPIRE (R389). -/
def execWakeTimerExpire (s : State) : Out :=
  .next (if s.pwr.timerArmed then { (s.wakeEvent islCTL 5) with pwr := { (s.wakeEvent islCTL 5).pwr with timerArmed := false } } else s)

/-! Island resets (R362). -/

/-- ISLAND_RESET_END: the island serves again; held transfers are delivered (Table 1-1), and recorded programs and erases of
an MCL island's dies are handled under R205 (R362). -/
def execIslandResetEnd (isl : Nat) (s : State) : Out :=
  guardUnit s (islOk isl)
    (let x := s.isle isl
     if x.avail = .resetting then
       let s2 := (s.setIsl isl { x with avail := .available }).deliverHeld isl
       if 10 ≤ isl ∧ isl < 26 then s2.reissueBusy (fun d => dieBay d == isl - 10) else s2
     else s)

end Sys2Proof.Machine
end

