-- ==== Sys2Proof/Machine/Islands.lean ====
section
/-! DEFINITION. The commands of the islands: transfers, operating points, epochs, DRAM margins, routes (01, 10 R311 to R314). -/

namespace Sys2Proof.Machine

/-! Transfers (R17 to R19). -/

/-- Does a transfer's body leave a port? In the safe state nothing does (Table 12-5). -/
def leavesPort (t : Transfer) : Bool := match t.body with | .egress _ _ => true | _ => false

/-- ISLAND_TRANSFER (Table 1-1): delivered, held, or refused. A sleeping island wakes for it; an entry in progress is abandoned
and the transfer delivered (R19) (DEDUCED, log 75). -/
def State.transfer (s : State) (t : Transfer) : State :=
  let x := s.isle t.dst
  if s.flt.safe && leavesPort t then s
  else if x.avail = .isolated then s.refuseTransfer t
  else
    let s1 := s.access t.dst
    if (s1.isle t.dst).avail = .available then s1.deliverOne t
    else s1.modIsl t.dst (fun y => { y with held := y.held ++ [t] })

/-- ISLAND_TRANSFER (DEDUCED, log 158). -/
def execIslandTransfer (t : Transfer) (s : State) : Out :=
  guardUnit s (islOk t.src && islOk t.dst && optOk ctxOk t.ctx) (s.transfer t)

/-! Operating points (R22). -/

/-- OPERATING_POINT_CHANGE: among the island's points; an island that is not on keeps its point. -/
def execOperatingPointChange (isl point : Nat) (s : State) : Out :=
  guardUnit s (islOk isl)
    (if isl != 0 && s.domOn isl && decide (point < (s.islPoints isl).length) then s.movePoint isl point else s)

/-! Epochs (R37, R39, R311 to R314). -/

/-- The power-cap budget moves by R39's rule. -/
def capStep (above low : Bool) (b : Nat) : Nat := if above then max 20 (b - 2) else if low then min 100 (b + 1) else b

/-- The cap in force: CAP_W or the power state's MAXP, in centiwatts (R38, R398). -/
def State.capCw (s : State) : Nat :=
  let p := s.pat.eff.power
  min (p.capW * 100) (p.states.getD s.pwr.pstate {}).maxpCw

def State.capBudgets (s : State) (e : PowerEst) : State :=
  let above := decide (s.capCw < e.deviceCw) || decide (9000 < e.vddCoreCw)
  let low := decide (100 * e.deviceCw < 95 * s.capCw) && decide (e.vddCoreCw < 8500)
  (List.range 62).foldl (fun t i => t.modIsl (10 + i) (fun x => { x with capBudget := capStep above low x.capBudget })) s

/-- Every unit takes its island's budget in force for the epoch. -/
def State.takeBudgets (s : State) : State :=
  (List.range 72).foldl (fun t i => t.modIsl i (fun x => { x with budgetTaken := x.budget })) s

/-- Cores that jobs hold are charged 100 µs each (Table 10-4). -/
def State.chargeCores (s : State) : State :=
  s.liveJobs.foldl (fun t c =>
    let n := ((t.job c).cores.filter (fun k => !k.exited)).length
    let sl := (t.ctx c).slice
    if n = 0 then t
    else (t.charge sl (engCred kUser) (100 * n)).modSli sl (fun q => { q with stat := { q.stat with coreUs := q.stat.coreUs + 100 * n } })) s

/-- Template fields that are not overridden follow the template (R314). -/
def mergeShares (t : SliceTmpl) (q : Sli) : Shares :=
  let o (i : Nat) : Bool := q.override.getD i false
  let x := tmplShares t
  { mediaW := if o 0 then q.shares.mediaW else x.mediaW, computeW := if o 1 then q.shares.computeW else x.computeW
    inflight := if o 2 then q.shares.inflight else x.inflight, specMib := if o 3 then q.shares.specMib else x.specMib
    comet := if o 4 then q.shares.comet else x.comet }

/-- A pending share change takes effect, and its replies are posted (R313). -/
def State.applyPend (s : State) (sl : Nat) : State :=
  let q := s.slc sl
  match q.pend with
  | none => s
  | some p =>
    let s1 := s.setSli sl { q with shares := p.shares, override := p.override, pend := none, effEpoch := s.epoch }
    p.replies.foldl (fun t r => t.mbReply r.1 { typ := 0x02, seq := r.2, peer := sl } 0 (leBytes 8 s.epoch)) s1

/-- Shares of a slice at an epoch's start; a change is noted to the slice. -/
def State.epochShares (s : State) (sl : Nat) : State :=
  if (s.slc sl).state = .free then s
  else
    let old := (s.slc sl).shares
    let s1 := s.applyPend sl
    let n := mergeShares (s1.tmpl sl) (s1.slc sl)
    let s2 := s1.modSli sl (fun q => { q with shares := n, effEpoch := if n = old then q.effEpoch else s.epoch })
    if n = old then s2 else s2.mbNote sl 0x81 (s2.sharePayload sl)

/-! Arbitration points (Table 10-4). -/

/-- Instances of an engine pool by island. -/
def State.enginePool (s : State) (k : Nat) : List (Nat × Nat) :=
  let l : List (Nat × Nat) :=
    if k = kCompress ∨ k = kDecompress then (List.range 4).map (fun j => (islENG j, 8))
    else if k = kIndex then (List.range 4).map (fun j => (islENG j, 4))
    else if k = kSieve then (List.range 16).map (fun b => (islMCL b, 4))
    else if k = kWeave then [(islWVF 0, (s.pat.eff.weave0.getD {}).weaves.length), (islWVF 1, (s.pat.eff.weave1.getD {}).weaves.length)]
    else (List.range 32).map (fun j => (islUCC j, 4))
  l.filter (fun e => present s.pat.eff e.1 && !s.islIsolated e.1)

/-- A point: its credit key, its capacity in an epoch, whether it weighs by MEDIA_W, and who is backlogged there. -/
structure ArbPoint where
  key : Nat := 0
  cap : Nat := 0
  media : Bool := true
  who : Nat → Bool

/-- Does a slice have a queued read of a class on a die of a bay? (DEDUCED, log 78) -/
def State.dieBacklog (s : State) (b cls sl : Nat) : Bool :=
  s.med.dies.any (fun e => dieBay e.1 == b && e.2.queue.any (fun o => o.cls == cls && o.slice == sl))

/-- Does a slice have a job at stage 11 with work for a pool? -/
def State.engBacklog (s : State) (k sl : Nat) : Bool :=
  s.cmd.ctxs.any (fun e => e.2.slice == sl && e.2.stage == 11 && e.2.open
    && (if k = kUser then (s.job e.1).desc.kind == 2 else (s.engineStages e.1).any (fun w => stageKind w == k)))

def State.arbPoints (s : State) : List ArbPoint :=
  (s.portList.map (fun p => { key := fetchCred p, cap := 6400, who := fun sl => s.fetchBacklog p sl : ArbPoint }))
    ++ (List.range 16).flatMap (fun b => [1, 2].map (fun cls =>
        { key := dieCred b cls, cap := s.bayShareUs b, who := fun sl => s.dieBacklog b cls sl : ArbPoint }))
    ++ [kCompress, kDecompress, kSieve, kIndex, kWeave, kUser].map (fun k =>
        { key := engCred k, cap := sumNat ((s.enginePool k).map (fun e => e.2 * (s.isle e.1).budgetTaken)), media := false
          who := fun sl => s.engBacklog k sl : ArbPoint })

/-- The weight of a slice at a point. -/
def State.weight (s : State) (media : Bool) (sl : Nat) : Nat := if media then (s.slc sl).shares.mediaW else (s.slc sl).shares.computeW

/-- R312: credits of every slice at every point. -/
def State.giveCredits (s : State) : State :=
  let live := (s.sli.filter (fun e => e.2.state != .free)).map (·.1)
  let cleared : State := { s with sli := tmap s.sli (fun _ q => { q with credit := [] }) }
  s.arbPoints.foldl (fun t p =>
    let b := live.filter p.who
    let w := sumNat (b.map (s.weight p.media))
    b.foldl (fun u sl => u.modSli sl (fun q =>
      { q with credit := tset q.credit p.key (min (s.credit sl p.key) 0 + ((if w = 0 then 0 else p.cap * s.weight p.media sl / w : Nat) : Int)) })) t) cleared

/-! Minutes of power-on time (R227, R229, R411). -/

/-- Bin of a temperature in TEMP_HIST: 5 °C each from −60. -/
def histBin (t : Int) : Nat := (min 39 (max 0 ((t + 960) / 80))).toNat

/-- At the end of a power-on minute: the histogram, and the warning and critical composite temperature minutes. -/
def State.minuteEnd (s : State) : State :=
  if s.epoch % 600000 != 0 then s
  else
    let m := s.mlf
    let h := match m.hotMinute with | some t => bumpAt m.tempHist (histBin t) 32 1 | none => m.tempHist
    let p := s.pat.eff.thermal
    let crit := s.hottest.isSome && decide (p.thrSet + 273 ≤ s.composite)
    let warm := s.hottest.isSome && decide (p.warnSet + 273 ≤ s.composite) && !crit
    { s with mlf := { m with tempHist := h, hotMinute := none }
             thm := { s.thm with warnMin := satAdd 32 s.thm.warnMin (if warm then 1 else 0), critMin := satAdd 32 s.thm.critMin (if crit then 1 else 0) } }

/-- EPOCH_START: `est` is the power controller's estimate over the last 10 ms (R39) (DEDUCED, log 36). -/
def execEpochStart (est : PowerEst) (s : State) : Out :=
  .next (
    let s1 : State := { s with epoch := (s.epoch + 1), pwr := { s.pwr with deviceCw := est.deviceCw, vddCoreCw := est.vddCoreCw }
                               med := { s.med with clus := tmap s.med.clus (fun _ c => { c with eclUse := min 100 (c.eclUsed / 4000), eclUsed := 0 }) } }
    let s1 : State := { s1 with pat := { s1.pat with oldTmpls := none } }
    let s1 := (List.range 16).foldl (fun t b => t.renewBudget b) s1
    let s2 := (s1.capBudgets est).thermalBudgets.takeBudgets.minuteEnd
    let s3 := (s2.sli.map (·.1)).foldl (fun t sl => t.epochShares sl) s2.chargeCores
    (s3.med.dies.map (·.1)).foldl (fun t d => if (t.die d).queue.isEmpty then t else t.kick d) s3.giveCredits)

/-! DRAM margins (R35) and routes (R31). -/

/-- DRAM_MARGIN_TRACK. -/
def execDramMarginTrack (ch marginPs : Nat) (s : State) : Out :=
  guardUnit s (decide (ch < 32))
    (if !s.domOn (islDMI (ch / 4)) then s
     else
       let s1 : State := { s with dramMargin := tset s.dramMargin ch marginPs }
       if marginPs < s.pat.eff.cal.dramMarginPs then s1.queueFault { src := 408 + ch, level := 1, detail := marginPs % 65536 } else s1)

/-- ROUTE_BINDING_COMPLETE: the commands that wait at stage 8 may take their seats. Binding is firmware's work: it waits
while CTL is in reset and in the safe state (R371). -/
def execRouteBindingComplete (slot : Nat) (s : State) : Out :=
  guardUnit s (decide (slot < 4096))
    (if (s.route slot).state = .binding ∧ !(s.route slot).pend ∧ !s.flt.safe ∧ !s.flt.ctlReset then
       let s1 := s.modRoute slot (fun r => r.goTo .bound)
       { s1 with cmd := { s1.cmd with ctxs := tmap s1.cmd.ctxs (fun _ x => if x.stage = 8 ∧ x.wait = 2 ∧ x.route = slot then { x with wait := 0 } else x) } }
     else s)

end Sys2Proof.Machine
end

