-- ==== Sys2Proof/Machine/Thermal.lean ====
section
/-! DEFINITION. The commands of the temperature sensors and of thermal shutdown, path monitors and the margin plan (14). -/

namespace Sys2Proof.Machine

/-! Sensors (R401 to R406). -/

/-- The highest junction temperature sampled in a power-on minute (R229). -/
def State.noteHot (s : State) (t : Int) : State :=
  { s with mlf := { s.mlf with hotMinute := some (match s.mlf.hotMinute with | some h => max h t | none => t) } }

/-- A conversion of sensor `k`. A failed sensor's readings only serve its retest. -/
def State.convert (s : State) (k : Nat) (r : Reading) : State :=
  let x := s.sensor k
  let p := s.takeReading k r
  if x.failed then s.setSensor k { p.2 with retestBad := x.retestBad || (x.retesting && p.1 != 0) }
  else if p.1 != 0 then ((s.setSensor k p.2).sensorFails k p.1).compareAll
  else (((s.setSensor k p.2).noteHot p.2.temp).shutdownCheck k).compareAll

/-- A thermal event wakes CTL (Table 13-3). -/
def State.thermWake (s old : State) : State := if s.flt.raised.length = old.flt.raised.length then s else s.wakeEvent islCTL 6

/-- SENSOR_CONVERSION. -/
def execSensorConversion (k : Nat) (r : Reading) (s : State) : Out := guardUnit s (decide (k < 48)) ((s.convert k r).thermWake s)

/-- SENSOR_HOLD_EXPIRE (R404): the hold of 1 s ends, and the substitute applies. -/
def execSensorHoldExpire (k : Nat) (s : State) : Out :=
  guardUnit s (decide (k < 48))
    (if (s.sensor k).holding ∧ (s.sensor k).heldAt + 10000 ≤ s.epoch then (s.setSensor k { (s.sensor k) with holding := false }).compareAll.thermWake s else s)

/-- THM_SNS_CTL.RETEST (R405). -/
def State.retestWrite (s : State) (k v : Nat) : State :=
  let x := s.sensor k
  if v % 2 = 0 then s
  else if x.retestAct.busy then s.setSensor k { x with retestAct := x.retestAct.meet }
  else if !x.failed then s.setSensor k { x with retestAct := wsNow false }
  else s.setSensor k { x with retestAct := wsRun, retesting := true, retestAt := s.epoch, retestBad := false, stuckSince := s.epoch, devSince := none }

/-- SENSOR_RETEST. -/
def execSensorRetest (k v : Nat) (s : State) : Out := guardUnit s (decide (k < 48)) (s.retestWrite k v)

/-- SENSOR_RETEST_END (R405): after 10 s a sensor that passed every check returns to service. -/
def execSensorRetestEnd (k : Nat) (s : State) : Out :=
  guardUnit s (decide (k < 48))
    (let x := s.sensor k
     if !x.retesting ∨ s.epoch < x.retestAt + 100000 then s
     else if x.retestBad then s.setSensor k { x with retesting := false, retestAct := x.retestAct.finish false }
     else (s.setSensor k { x with retesting := false, retestAct := x.retestAct.finish true, failed := false, cause := 0, holding := false
                                  shutRun := 0 }).compareAll.thermWake s)

/-- THERMAL_SHUTDOWN_POWER_OFF (R409 steps 3 to 5): once no array operation runs, dirty data is landed in hold-up mode, and every
domain except AON goes off with its pads held. -/
def execThermalShutdownPowerOff (s : State) : Out :=
  .next (
    if !s.thm.shutdown || s.cnv.banks.any (fun e => e.2.cur.isSome) then s
    else
      let s1 := if s.holdup then s.landAll true else s
      (List.range 71).foldl (fun t i => t.modIsl (i + 1) (fun x =>
        { x with dstate := .off, change := none, filled := false, sleepHold := x.sleepHold || isMcl (i + 1) || isDmi (i + 1)
                 avail := if x.avail = .isolated then .isolated else .waking })) s1)

/-! Path monitors (R413, R414). -/

/-- Does an island's region lie between 25 °C and 105 °C? -/
def State.inRange (s : State) (i : Nat) : Bool :=
  match s.regionTemp (islRegion i) with | some t => decide (400 ≤ t) && decide (t ≤ 1680) | none => false

/-- PATH_MONITOR_SAMPLE: the four monitors of an island that is on. -/
def execPathMonitorSample (isl : Nat) (slacks : List Nat) (s : State) : Out :=
  guardUnit s (islOk isl)
    (if s.domOn isl && s.inRange isl && slacks.length == 4 then { s with age := { s.age with slack := tset s.age.slack isl slacks } } else s)

/-- Margin remaining of an island whose slack at its reference point is `x` percent, rounded down (DEDUCED, log 80). -/
def marginOf (x sf : Nat) : Nat := min 100 (100 * (x - 5) / (sf - 5))

/-- The margin of an island now. A fused slack within the guard band leaves R414's quotient without a meaning: the margin is
then a free value of 0 to 100. -/
def State.marginNow (s : State) (i x : Nat) : Nat × State :=
  if 5 < Config.fuseSlack i then (marginOf x (Config.fuseSlack i), s)
  else
    let r := drawNat s
    (r.1 % 101, r.2)

/-! The margin plan (R415 to R418). -/

/-- MCL, DMI and UCM clocks set interface rates. -/
def fixedRate (i : Nat) : Bool := isMcl i || isDmi i || isUcm i

/-- Points below a lowered one keep frequencies strictly descending; by how much each is lowered is a free value. -/
def lowerBelow (f : Nat) : List (Nat × Nat) → State → List (Nat × Nat) × State
  | [], s => ([], s)
  | q :: t, s =>
    if q.1 < f then (q :: t, s)
    else
      let r := drawNat s
      let g := f - 1 - r.1 % f
      let u := lowerBelow g t r.2
      ((g, q.2) :: u.1, u.2)

/-- A re-plan at work on one island: its points, the levels of the faults it raises in order, and whether the current point is left. -/
structure PlanRun where
  pts : List (Nat × Nat) := []
  levels : List Nat := []
  stop : Bool := false

/-- One application of the rule of R416 to point `p` with slack `x`. -/
def planStep (patF vmin vmax : Nat) (fixed : Bool) (p : Nat) (a : PlanRun × State) (x : Nat) : PlanRun × State :=
  let q := a.1.pts.getD p (0, 0)
  if a.1.stop then a
  else if x < 10 then
    if q.2 + 10 ≤ vmax then ({ a.1 with pts := a.1.pts.set p (q.1, q.2 + 10) }, a.2)
    else if !fixed && decide (25 ≤ q.1) && decide (patF * 3 ≤ (q.1 - 25) * 4) then
      let l := lowerBelow (q.1 - 25) (a.1.pts.drop (p + 1)) a.2
      ({ a.1 with pts := a.1.pts.take p ++ (q.1 - 25, q.2) :: l.1, levels := a.1.levels ++ [2] }, l.2)
    else ({ a.1 with levels := a.1.levels ++ [3], stop := true }, a.2)
  else if 15 < x ∧ vmin + 10 ≤ q.2 then ({ a.1 with pts := a.1.pts.set p (q.1, q.2 - 10) }, a.2)
  else a

/-- Adjust every measured point of an island; at most 8 repetitions of each. -/
def State.planIsland (s : State) (m : PlanMeas) (i : Nat) : State :=
  let r : IslRec := s.pat.eff.isl.getD i {}
  let pts := s.islPoints i
  let vmax := min r.vmax s.sramCap
  let ms := m.slack.filter (fun e => e.isl == i && decide (e.point < pts.length))
  let p0 : PlanRun × State := ({ pts := pts }, s)
  let res := ms.foldl (fun a e => (e.slacks.take 8).foldl (planStep (r.points.getD e.point (0, 0)).1 r.vmin vmax (fixedRate i) e.point) ({ a.1 with stop := false }, a.2)) p0
  let clamp := decide (s.sramCap < r.vmax) && res.1.pts.any (fun q => decide (vmax < q.2 + 10)) && ms.any (fun e => e.slacks.any (fun x => decide (x < 10)))
  let t : State := { res.2 with age := { res.2.age with plan := { res.2.age.plan with points := tset res.2.age.plan.points i res.1.pts }
                                                        pending := removeNat res.2.age.pending i } }
  let t1 := if clamp then t.noteClamp else t
  let t2 := match m.refSlack.find? (fun e => e.1 == i) with
    | none => t1
    | some e =>
      let g := t1.marginNow i e.2
      let u : State := { g.2 with age := { g.2.age with margin := tset g.2.age.margin i g.1 } }
      if g.1 < 20 then u.queueFault { src := 810 + i, level := 1, detail := g.1 } else u
  res.1.levels.foldl (fun u l => u.queueFault { src := 810 + i, level := l, detail := tgetD u.age.margin i 100 % 128 }) t2

/-- May an island be measured: on, its region in range? -/
def State.measurable (s : State) (i : Nat) : Bool := s.domOn i && s.inRange i

/-- The working drift limit and the refresh interval of a mode (R417). -/
def State.newDrift (s : State) (mode : Nat) : Nat :=
  let fl := s.pat.eff.cal.flDrift.getD mode 1
  max 1 (fl - fl * min (maxNat (s.setList.map s.pctUsed)) 100 / 200)

def State.newRefresh (s : State) (m : PlanMeas) (mode : Nat) : Nat :=
  let c := s.pat.eff.cal
  let old := s.age.plan.refresh.getD mode (min c.refMaxH (max c.refMinH 720))
  match m.drift.find? (fun d => d.mode == mode) with
  | none => old
  | some d =>
    if d.groups < 1000 then old
    else if d.rate = 0 then c.refMaxH
    else min c.refMaxH (max c.refMinH (s.newDrift mode * 1000000 / (2 * d.rate)))

/-- The new plan is written to bank 0 over the older record, and then applied at one instant: its version is one above, GEN
advances (R418); the core voltage follows its points (R466). -/
def State.adoptPlan (s : State) (old : Plan) : State :=
  let t : State := { s with age := { s.age with plan := { s.age.plan with ver := old.ver + 1 }, prev := old, due := false }
                            pat := { s.pat with gen := s.pat.gen + 1 } }
  if t.glb.vreqCode < t.vreqNeed then { t with glb := { t.glb with vreqCode := t.vreqNeed } } else t.lowerVdd

/-- A re-plan (R416, R417). -/
def State.replan (s : State) (m : PlanMeas) : State :=
  let isls := (List.range 72).filter (present s.pat.eff)
  let s1 := isls.foldl (fun t i => if t.measurable i then t.planIsland m i
    else { t with age := { t.age with pending := insertNat t.age.pending i } }) s
  let p : Plan := { s1.age.plan with refresh := [0, 1, 2].map (s.newRefresh m), drift := [0, 1, 2].map s.newDrift }
  let s2 : State := { s1 with age := { s1.age with plan := p, lastMin := s.onMinutes } }
  s2.adoptPlan s.age.plan

/-- MARGIN_REPLAN_DUE (R416): 1,000 power-on hours since the last one; it waits while Table 14-3 holds it. -/
def execMarginReplanDue (m : PlanMeas) (s : State) : Out :=
  .next (if !s.age.due && decide (s.onMinutes < s.age.lastMin + 60000) then s
    else if s.planBlocked || !s.ctlUp then { s with age := { s.age with due := true } } else s.replan m)

/-- PENDING_ISLAND_MEASURE (R416): the island has been on, and in range, for 1 s. -/
def execPendingIslandMeasure (isl : Nat) (m : PlanMeas) (s : State) : Out :=
  guardUnit s (islOk isl)
    (if s.age.pending.contains isl && s.measurable isl && decide ((s.isle isl).stateAt + 1000 ≤ s.nowMs) && !s.planBlocked && s.ctlUp then (s.planIsland m isl).adoptPlan s.age.plan else s)

/-- Completion of Margin Plan: the version, and the islands left PENDING (R419). -/
def State.planOut (s : State) : Outc := { dw0 := s.age.plan.ver % 65536, dw1 := s.age.pending.length }

/-- Margin Plan action 0, for a controller or a sideband endpoint. -/
def State.planRun (s : State) (m : PlanMeas) : Outc × State :=
  if s.planBlocked then (errOut .cmdSequence, s)
  else
    let t := s.replan m
    (t.planOut, t)

/-- MARGIN_PLAN_RUN. -/
def execMarginPlanRun (c : Nat) (m : PlanMeas) (s : State) : Out :=
  guardUnit s (ctxOk c)
    (if s.subTurn c 0xDC (fun q => q.cdw10.toNat % 4 == 0) then
       let r := s.planRun m
       r.2.finish c r.1
     else s)

/-- MARGIN_PLAN_REPORT. -/
def execMarginPlanReport (c : Nat) (s : State) : Out :=
  guardUnit s (ctxOk c) (if s.subTurn c 0xDC (fun q => q.cdw10.toNat % 4 == 1) then s.finish c s.planOut else s)

end Sys2Proof.Machine
end

