-- ==== Sys2Proof/Machine/Admin.lean ====
section
/-! DEFINITION. Admin commands: Abort, I/O queues, features and the power state, asynchronous events, directives (04 R122 to
R132, 13 R398, 14 R411, 05 R166). -/

namespace Sys2Proof.Machine

/-! Abort (R122 to R124). -/

/-- The command an Abort names: the same controller's, by SQID and CID. -/
def State.abortTarget (s : State) (x : Ctx) : Option Nat :=
  let d := x.sqe.cdw10.toNat
  tfind s.cmd.ctxs (fun _ y => y.slice == x.slice && y.port == x.port && y.sqid == d % 65536 && y.cid == d / 65536 && !y.killed)

/-- Aborts of the slice that came before and are outstanding. -/
def State.abortsBefore (s : State) (x : Ctx) : Nat :=
  tcount s.cmd.ctxs (fun _ y => y.admin && y.opc == 0x08 && y.slice == x.slice && decide (y.fseq < x.fseq))

/-- May the target still be aborted (Table 4-7)? An admin command whose change has begun, an Abort and an Asynchronous Event
Request may not (DEDUCED, log 82). -/
def Ctx.abortable (y : Ctx) : Bool := y.open && !(y.admin && (y.opc == 0x08 || y.opc == 0x0C))

/-- Has the effect of an admin command begun, so that its outcome is its own: a slice reset or removal, or a Panel Reload apply, that runs
(DEDUCED, log 82)? -/
def State.begun (s : State) (c : Nat) : Bool :=
  s.pat.reload.waiter == some (.ctx c) || tany s.sli (fun _ q => tany q.resets (fun _ r => r.waiter == some (.ctx c)))

/-- An admin command that waits before its effect is withdrawn: a release or takeover of ownership, a power-state entry, an activation. -/
def State.withdrawAdmin (s : State) (c : Nat) : State :=
  ({ s with zon := { s.zon with nss := tmap s.zon.nss (fun _ n =>
      if n.takeover = some (Waiter.ctx c) then { n with own := match n.own with | .taking p _ => .owned p | o => o } else n) } }).dropWaiter c

/-- The target ends with Command Abort Requested (DEDUCED, log 82). -/
def State.abortCtx (s : State) (t : Nat) : State :=
  if (s.ctx t).admin then ((s.withdrawAdmin t).sqCnt (s.ctx t).slice 3 1).finish t (errOut .abortRequested) else s.squashAbort t

/-- ABORT. -/
def execAbort (c : Nat) (s : State) : Out :=
  guardUnit s (ctxOk c)
    (if s.adminTurn c 0x08 then
       let x := s.ctx c
       if 8 ≤ s.abortsBefore x then s.finish c (errOut .abortLimit)
       else match s.abortTarget x with
         | none => s.finish c (okOut 1)
         | some t => if (s.ctx t).abortable && !s.begun t then (s.abortCtx t).finish c (okOut 0) else s.finish c (okOut 1)
     else s)

/-! I/O queues (R129, R136). -/

/-- I/O queues of one kind that a slice may have (Table 4-9). -/
def State.queueMax (s : State) (slice : Nat) : Nat := min (s.tmpl slice).qpairs 1535

/-- What the Number of Queues feature gave, SQs in the low half, CQs in the high half, each 0-based (R132). -/
def State.queueGrant (s : State) (k slice : Nat) : Nat :=
  (s.ctrl k).nQueues.getD ((s.queueMax slice - 1) + (s.queueMax slice - 1) * 65536)
def State.sqLimit (s : State) (k slice : Nat) : Nat := min (s.queueMax slice) (s.queueGrant k slice % 65536 + 1)
def State.cqLimit (s : State) (k slice : Nat) : Nat := min (s.queueMax slice) (s.queueGrant k slice / 65536 + 1)

/-- The device queue index of an I/O queue: the slice's for that QID, else the lowest free one. -/
def State.dqFor (s : State) (port slice qid : Nat) : Option Nat :=
  match s.dqOf port slice qid with
  | some k => some k
  | none => tfree s.cmd.queues 2048 16384

/-- Interrupt vectors of a slice. -/
def State.vectorCount (s : State) (slice : Nat) : Nat := if slice = 0 then s.pat.eff.host.msix else (s.slc slice).msgCount

/-- Why Create I/O Completion Queue is refused. -/
def State.createCqErr (s : State) (x : Ctx) : Option St :=
  let q := x.sqe
  let qid := q.cdw10.toNat % 65536
  if qid = 0 ∨ s.cqLimit (ctrlKey x.port x.slice) x.slice < qid then some .invalidQid
  else match s.dqFor x.port x.slice qid with
    | none => some .invalidQid
    | some k =>
      if (s.queue k).cqOn then some .invalidQid
      else if q.cdw10.toNat / 65536 = 0 then some .invalidQueueSize
      else if !bitAt q.cdw11.toNat 0 then some .invalidField
      else if bitAt q.cdw11.toNat 1 && decide (s.vectorCount x.slice ≤ q.cdw11.toNat / 65536) then some .invalidVector
      else none

/-- The new completion queue. -/
def State.createCq (s : State) (x : Ctx) : State :=
  let q := x.sqe
  let qid := q.cdw10.toNat % 65536
  let k := (s.dqFor x.port x.slice qid).getD 0
  (s.modQueue k (fun y => { y with
    slice := x.slice, qid := qid, port := x.port, cqOn := true, cqSize := q.cdw10.toNat / 65536 + 1, cqBase := q.prp1.toNat
    cqTail := 0, cqHead := 0, phase := true, vector := q.cdw11.toNat / 65536, ien := bitAt q.cdw11.toNat 1, posted := 0, coal := 0 })).bumpQ k 1

/-- CREATE_IO_CQ. -/
def execCreateIoCq (c : Nat) (s : State) : Out :=
  guardUnit s (ctxOk c)
    (if s.adminTurn c 0x05 then
       match s.createCqErr (s.ctx c) with
       | some e => s.finish c (errOut e)
       | none => (s.createCq (s.ctx c)).finish c (okOut 0)
     else s)

/-- Why Create I/O Submission Queue is refused. -/
def State.createSqErr (s : State) (x : Ctx) : Option St :=
  let q := x.sqe
  let qid := q.cdw10.toNat % 65536
  let cqid := q.cdw11.toNat / 65536
  if qid = 0 ∨ s.sqLimit (ctrlKey x.port x.slice) x.slice < qid then some .invalidQid
  else match s.dqFor x.port x.slice qid with
    | none => some .invalidQid
    | some k =>
      if (s.queue k).sqOn then some .invalidQid
      else if cqid = 0 ∨ s.cqLimit (ctrlKey x.port x.slice) x.slice < cqid then some .invalidQid
      else if !(match s.dqOf x.port x.slice cqid with | some j => (s.queue j).cqOn | none => false) then some .invalidCq
      else if q.cdw10.toNat / 65536 = 0 then some .invalidQueueSize
      else if !bitAt q.cdw11.toNat 0 then some .invalidField
      else none

/-- The new submission queue; a sequencer bound to it starts at slot 0 (R112). -/
def State.createSq (s : State) (x : Ctx) : State :=
  let q := x.sqe
  let qid := q.cdw10.toNat % 65536
  let k := (s.dqFor x.port x.slice qid).getD 0
  let s1 := (s.modQueue k (fun y => { y with
    slice := x.slice, qid := qid, port := x.port, sqOn := true, sqSize := q.cdw10.toNat / 65536 + 1, sqBase := q.prp1.toNat
    head := 0, tail := 0, cqid := q.cdw11.toNat / 65536, sqErr := false, deleting := false, fetched := 0 })).bumpQ k 1
  match s1.oqOf x.slice qid with
  | none => s1
  | some j => s1.setOq j { (s1.oq j) with halted := false, nextSlot := 0 }

/-- CREATE_IO_SQ. -/
def execCreateIoSq (c : Nat) (s : State) : Out :=
  guardUnit s (ctxOk c)
    (if s.adminTurn c 0x01 then
       match s.createSqErr (s.ctx c) with
       | some e => s.finish c (errOut e)
       | none => (s.createSq (s.ctx c)).finish c (okOut 0)
     else s)

/-- An index without a queue is free again. -/
def State.dropIndex (s : State) (k : Nat) : State :=
  if !(s.queue k).sqOn && !(s.queue k).cqOn then { s with cmd := { s.cmd with queues := tdel s.cmd.queues k } } else s

/-- The contexts of a submission queue. -/
def State.sqCtxs (s : State) (k : Nat) : List Nat := (byFseq (s.cmd.ctxs.filter (fun e => e.2.dq == k))).map (·.1)

/-- The queue is gone, and its halt ends (R114). -/
def State.dropSq (s : State) (k : Nat) : State :=
  let q := s.queue k
  let s1 := ((s.setQueue k { q with sqOn := false, deleting := false, head := 0, tail := 0, sqErr := false }).bumpQ k 1).dropIndex k
  match s1.oqOf q.slice q.qid with
  | none => s1
  | some j => s1.setOq j { (s1.oq j) with halted := false }

/-- DELETE_IO_SQ: fetch stops and the queue's uncommitted commands end; the queue goes, and the command completes, once every
command fetched from it has completed (PRESUMED, log 83). -/
def execDeleteIoSq (c : Nat) (s : State) : Out :=
  guardUnit s (ctxOk c)
    (if s.adminTurn c 0x00 then
       let x := s.ctx c
       let qid := x.sqe.cdw10.toNat % 65536
       match if qid = 0 then none else s.dqOf x.port x.slice qid with
       | none => s.finish c (errOut .invalidQid)
       | some k =>
         if !(s.queue k).sqOn then s.finish c (errOut .invalidQid)
         else
           let s1 := (s.sqCtxs k).foldl (fun t d => if (t.ctx d).open then t.endErr d .sqDeleted else t) s
           if (s1.sqCtxs k).isEmpty then (s1.dropSq k).finish c (okOut 0) else s1.modQueue k (fun q => { q with deleting := true })
     else s)

/-- DELETE_IO_CQ: not while a submission queue uses it. -/
def execDeleteIoCq (c : Nat) (s : State) : Out :=
  guardUnit s (ctxOk c)
    (if s.adminTurn c 0x04 then
       let x := s.ctx c
       let qid := x.sqe.cdw10.toNat % 65536
       match if qid = 0 then none else s.dqOf x.port x.slice qid with
       | none => s.finish c (errOut .invalidQid)
       | some k =>
         if !(s.queue k).cqOn then s.finish c (errOut .invalidQid)
         else if s.cmd.queues.any (fun e => e.2.sqOn && e.2.slice == x.slice && e.2.port == x.port && e.2.qid != 0 && e.2.cqid == qid) then
           s.finish c (errOut .invalidQueueDeletion)
         else (((s.modQueue k (fun q => { q with cqOn := false, coal := 0 })).bumpQ k 1).dropIndex k).finish c (okOut 0)
     else s)

/-! Features (R132). The handlers take the controller, so that a sideband message can act as the manager controller of port 0
(Table 17-10). -/

/-- Features of Table 4-12, those of the manager, and those that name a namespace. -/
def featureIds : List Nat := [0x01, 0x02, 0x04, 0x06, 0x07, 0x08, 0x09, 0x0A, 0x0B, 0x1D, 0x1E]
def managerFeatures : List Nat := [0x02, 0x04, 0x1D, 0x1E]

/-- May a slice use a feature? -/
def featureOk (slice fid : Nat) : Bool := featureIds.contains fid && (slice == 0 || !managerFeatures.contains fid)

/-- Is Flexible Data Placement available (R166)? -/
def State.fdpAvail (s : State) : Bool := match s.pat.eff.ns with | none => false | some m => m.fdpRg != 0 && m.fdpPh != 0

/-- The die set of an endurance group, when it is defined and FDP is available. -/
def State.fdpSet (s : State) (endg : Nat) : Option Nat :=
  if s.fdpAvail && endg != 0 && s.setList.contains (endg - 1) then some (endg - 1) else none

/-- The reclaim unit handle behind a placement handle of a namespace under FDP. -/
def State.phHandle (s : State) (n ph : Nat) : Option Nat :=
  if (s.ns? n).isSome && s.fdpOn n then (s.ns n).handles[ph]? else none

/-- FDP event types (PRESUMED, log 41). -/
def fdpTypes : List Nat := [0, 1, 2, 3, 0x80]

/-- Changes a controller's record and answers success. -/
def State.featStore (s : State) (k : Nat) (f : Ctrl → Ctrl) : Outc × State := (okOut 0, s.modCtrl k f)

/-- A temperature threshold (Set Features 04h): THSEL 0 over, 1 under; TMPSEL Fh sets them all. -/
def State.setThreshold (s : State) (k d : Nat) : Outc × State :=
  let sel := bitsAt d 16 4
  let l := if sel = 15 then List.range 9 else [sel]
  let v : Int := (d % 65536 : Nat)
  if (9 ≤ sel ∧ sel != 15) ∨ 2 ≤ bitsAt d 20 2 then (errOut .invalidField, s)
  else
    let put (t : Tbl Int) : Tbl Int := l.foldl (fun a i => tset a (thrKey k i) v) t
    (okOut 0, (if bitsAt d 20 2 = 0 then { s with thm := { s.thm with overT := put s.thm.overT } }
               else { s with thm := { s.thm with under := put s.thm.under } }).thresholdCheck)

/-- FDP of an endurance group (1Dh): only while the group holds no namespace. -/
def State.setFdp (s : State) (q : Sqe) : Outc × State :=
  match s.fdpSet (q.cdw11.toNat % 65536) with
  | none => (errOut .invalidField, s)
  | some e =>
    if bitsAt q.cdw12.toNat 8 8 != 0 then (errOut .invalidField, s)
    else if !(s.nsOfSet e).isEmpty then (errOut .cmdSequence, s)
    else (okOut 0, { s with zon := { s.zon with fdp := tset s.zon.fdp e { (tval s.zon.fdp e : Fdp) with enabled := bitAt q.cdw12.toNat 0 } } })

/-- FDP Events (1Eh): the event types of a placement handle of a namespace are enabled or disabled. -/
def State.setFdpEvents (s : State) (q : Sqe) (data : List Byte) : Outc × State :=
  let types := (data.take (bitsAt q.cdw11.toNat 16 8)).map (·.toNat)
  if (s.ns? q.nsid).isNone then (errOut .invalidNs, s)
  else match s.phHandle q.nsid (q.cdw11.toNat % 65536) with
  | none => (errOut .invalidField, s)
  | some h =>
    if types.any (fun t => !fdpTypes.contains t) then (errOut .invalidField, s)
    else
      let set := (s.nsCls q.nsid).set
      let f : Fdp := tval s.zon.fdp set
      let rest := f.evEnable.filter (fun e => !(e.1 == h && types.contains e.2))
      let l := if bitAt q.cdw12.toNat 0 then rest ++ types.map (fun t => (h, t)) else rest
      (okOut 0, { s with zon := { s.zon with fdp := tset s.zon.fdp set { f with evEnable := l } } })

/-- Number of Queues (07h): only before an I/O queue exists; the answer is what is granted. -/
def State.setQueues (s : State) (k slice port d : Nat) : Outc × State :=
  if s.cmd.queues.any (fun e => e.2.qid != 0 && e.2.slice == slice && e.2.port == port) then (errOut .cmdSequence, s)
  else if d % 65536 = 65535 ∨ d / 65536 = 65535 then (errOut .invalidField, s)
  else
    let g := min (d % 65536) (s.queueMax slice - 1) + min (d / 65536) (s.queueMax slice - 1) * 65536
    (okOut g, s.modCtrl k (fun c => { c with nQueues := some g }))

/-- Set Features but Power Management (PRESUMED, log 85). -/
def State.setFeature (s : State) (slice port : Nat) (q : Sqe) (data : List Byte) : Outc × State :=
  let k := ctrlKey port slice
  let fid := q.cdw10.toNat % 256
  let d := q.cdw11.toNat
  if fid = 0x01 then s.featStore k (fun c => { c with arb := d % 8 })
  else if fid = 0x04 then s.setThreshold k d
  else if fid = 0x06 then
    if s.holdup then (errOut .featureNotChangeable, s)
    else (okOut 0, s.modSli slice (fun x => { x with wce := bitAt d 0 }))
  else if fid = 0x07 then s.setQueues k slice port d
  else if fid = 0x08 then s.featStore k (fun c => { c with coal := d % 65536 })
  else if fid = 0x09 then
    if s.vectorCount slice ≤ d % 65536 then (errOut .invalidField, s)
    else s.featStore k (fun c => { c with vecCfg := tset c.vecCfg (d % 65536) (d % 2 ^ 17) })
  else if fid = 0x0A then s.featStore k (fun c => { c with atomicity := d % 2 })
  else if fid = 0x0B then s.featStore k (fun c => { c with aec := d })
  else if fid = 0x1D then s.setFdp q
  else s.setFdpEvents q data

/-! Power states (R128, R398). -/

/-- The state in effect once a controller asks for `ps`: the lower-numbered request of the manager controllers. -/
def State.psTarget (s : State) (k ps : Nat) : Nat :=
  minNat (s.portList.map (fun p => if ctrlKey p 0 = k then ps else (s.ctrl (ctrlKey p 0)).psReq))

/-- Set Features Power Management: the entry begins; it ends when every command fetched before it has completed and the state is reached
(DEDUCED, log 86). -/
def State.enterPower (s : State) (w : Waiter) (k ps fseq fetched : Nat) : State :=
  let s1 := s.modCtrl k (fun c => { c with psReq := ps })
  let e : PsEntry := { waiter := w, target := s.psTarget k ps, ctrl := k, prev := (s.ctrl k).psReq, fseq := fseq, fetchedMs := fetched }
  ({ s1 with pwr := { s1.pwr with entry := some e } }).liftFloors

/-- Does the power state exist in the Pattern? -/
def State.psOk (s : State) (q : Sqe) : Bool := decide (q.cdw11.toNat % 32 < s.pat.eff.power.states.length)

/-- Does a command fetched before the entry still run? An Asynchronous Event Request that waits does not count. -/
def State.psBlocked (s : State) (e : PsEntry) : Bool :=
  tany s.cmd.ctxs (fun c x => decide (x.fseq < e.fseq) && e.waiter != .ctx c && !(x.admin && x.opc == 0x0C && !x.committed))

/-- Does every domain whose floor lies below on stand at its floor, or hold work? -/
def State.psReached (s : State) : Bool :=
  (List.range 72).all (fun i => !present s.pat.eff i || s.effFloor i == .on || (s.isle i).dstate == s.effFloor i || s.islBusy i)

/-- POWER_STATE_REACHED. -/
def execPowerStateReached (s : State) : Out :=
  .next (match s.pwr.entry with
    | none => s
    | some e =>
      if s.psReached && !s.psBlocked e then
        let nonOp := (s.pat.eff.power.states.getD e.target {}).nonOp
        ({ s with pwr := { s.pwr with entry := none, pstate := e.target, lastOp := if nonOp then s.pwr.lastOp else e.target } }).answer e.waiter (okOut e.target)
      else s)

/-- POWER_STATE_ENTRY_TIMEOUT (R128): 50 ms have passed since the fetch; the entry is abandoned, with success. -/
def execPowerStateEntryTimeout (s : State) : Out :=
  .next (match s.pwr.entry with
    | none => s
    | some e =>
      if s.nowMs < e.fetchedMs + 50 then s
      else (s.entryBack e).answer e.waiter (okOut s.pwr.pstate))

/-- Set Features for a controller's command or a sideband message; none: a power-state entry waits for the one in progress. -/
def State.setFeatures (s : State) (w : Waiter) (slice port : Nat) (q : Sqe) (data : List Byte) (fseq fetched : Nat) : Option State :=
  let fid := q.cdw10.toNat % 256
  if !featureOk slice fid then some (s.answer w (errOut .invalidField))
  else if bitAt q.cdw10.toNat 31 then some (s.answer w (errOut .featureNotSaveable))
  else if fid = 0x02 then
    if !s.psOk q then some (s.answer w (errOut .invalidField))
    else if s.pwr.entry.isSome then none
    else some (s.enterPower w (ctrlKey port slice) (q.cdw11.toNat % 32) fseq fetched)
  else
    let r := s.setFeature slice port q data
    some (r.2.answer w r.1)

/-- SET_FEATURES. -/
def execSetFeatures (c : Nat) (data : List Byte) (s : State) : Out :=
  guardUnit s (ctxOk c)
    (if s.adminTurn c 0x09 then
       let x := s.ctx c
       ((s.park c).setFeatures (.ctx c) x.slice x.port x.sqe data x.fseq (x.tFetchNs / 1000000)).getD s
     else s)

/-- The event descriptors that Get Features FDP Events returns: each supported type, and whether it is enabled. -/
def State.fdpEventBytes (s : State) (n h : Nat) : List Byte :=
  let f : Fdp := tval s.zon.fdp (s.nsCls n).set
  fdpTypes.flatMap (fun t => [BitVec.ofNat 8 t, if f.evEnable.contains (h, t) then 1 else 0])

/-- The default values (Select 001b), and the saved ones (010b): no feature is saved. -/
def State.featDefault (s : State) (slice fid d : Nat) : Nat :=
  if fid = 0x04 then (if bitsAt d 20 2 = 0 then s.pat.eff.thermal.warnSet + 273 else s.pat.eff.thermal.cwarnSet + 273).toNat
  else if fid = 0x06 then (!s.holdup).toNat
  else if fid = 0x07 then (s.queueMax slice - 1) + (s.queueMax slice - 1) * 65536
  else if fid = 0x09 then d % 65536
  else if fid = 0x0B then 0xFFFFFFFF
  else 0

/-- The current values. -/
def State.featNow (s : State) (slice port fid d : Nat) : Nat :=
  let k := ctrlKey port slice
  let c := s.ctrl k
  if fid = 0x01 then c.arb
  else if fid = 0x02 then s.pwr.pstate
  else if fid = 0x04 then ((if bitsAt d 20 2 = 0 then s.overThr k (bitsAt d 16 4) else s.underThr k (bitsAt d 16 4)) % 65536).toNat
  else if fid = 0x06 then ((s.slc slice).wce && !s.holdup).toNat
  else if fid = 0x07 then s.queueGrant k slice
  else if fid = 0x08 then c.coal
  else if fid = 0x09 then tgetD c.vecCfg (d % 65536) (d % 65536)
  else if fid = 0x0A then c.atomicity
  else if fid = 0x0B then c.aec
  else 0

/-- Capabilities (Select 011b): none can be saved; bit 1 names a namespace, bit 2 can be changed (DEDUCED, log 84). -/
def State.featCaps (s : State) (fid : Nat) : Nat :=
  (if fid = 0x1E then 2 else 0) + (if fid = 0x06 ∧ s.holdup then 0 else 4)

/-- Get Features (R132). -/
def State.getFeatures (s : State) (slice port : Nat) (q : Sqe) : Outc × OutData :=
  let fid := q.cdw10.toNat % 256
  let sel := bitsAt q.cdw10.toNat 8 3
  let d := q.cdw11.toNat
  if !featureOk slice fid || decide (3 < sel) then (errOut .invalidField, .none)
  else if sel = 3 then (okOut (s.featCaps fid), .none)
  else if fid = 0x04 ∧ (9 ≤ bitsAt d 16 4 ∨ 2 ≤ bitsAt d 20 2) then (errOut .invalidField, .none)
  else if fid = 0x09 ∧ s.vectorCount slice ≤ d % 65536 then (errOut .invalidField, .none)
  else if fid = 0x1D then
    match s.fdpSet (d % 65536) with
    | none => (errOut .invalidField, .none)
    | some e => (okOut (if sel = 0 then (tval s.zon.fdp e : Fdp).enabled.toNat else 0), .none)
  else if fid = 0x1E then
    if (s.ns? q.nsid).isNone then (errOut .invalidNs, .none)
    else match s.phHandle q.nsid (d % 65536) with
    | none => (errOut .invalidField, .none)
    | some h => (okOut fdpTypes.length, .bytes ((s.fdpEventBytes q.nsid h).take (2 * bitsAt d 16 8)))
  else (okOut (if sel = 0 then s.featNow slice port fid d else s.featDefault slice fid d), .none)

/-- GET_FEATURES. -/
def execGetFeatures (c : Nat) (s : State) : Out :=
  guardUnit s (ctxOk c)
    (if s.adminTurn c 0x0A then
       let x := s.ctx c
       let r := s.getFeatures x.slice x.port x.sqe
       s.finishWith c r.1 r.2
     else s)

/-! Asynchronous events (R130). -/

/-- ASYNCHRONOUS_EVENT_REQUEST: it waits for the next event; AERL 15 allows 16. -/
def execAsynchronousEventRequest (c : Nat) (s : State) : Out :=
  guardUnit s (ctxOk c)
    (if s.adminTurn c 0x0C then
       let x := s.ctx c
       let k := ctrlKey x.port x.slice
       if 16 ≤ (s.ctrl k).aers.length then s.finish c (errOut .asyncLimit)
       else ((s.park c).modCtrl k (fun t => { t with aers := t.aers ++ [c] })).giveAen k
     else s)

/-! Directives (R130, R166): Identify, and Data Placement, which follows FDP. -/

/-- DIRECTIVE_SEND: Identify's Enable Directive for Data Placement; it is enabled exactly while FDP is. -/
def execDirectiveSend (c : Nat) (s : State) : Out :=
  guardUnit s (ctxOk c)
    (if s.adminTurn c 0x19 then
       let q := (s.ctx c).sqe
       if (s.ns? q.nsid).isNone then s.finish c (errOut .invalidNs)
       else if q.cdw11.toNat % 65536 = 1 ∧ bitsAt q.cdw12.toNat 8 8 = 2 ∧ bitAt q.cdw12.toNat 0 ∧ s.fdpOn q.nsid then s.finish c (okOut 0)
       else s.finish c (errOut .invalidField)
     else s)

/-- Return Parameters of Identify: directives supported, enabled and persistent. -/
def State.directivePage (s : State) (n : Nat) : OutData :=
  let on := if s.fdpOn n then 5 else 1
  .page 4096 [(0, 1, if s.fdpAvail then 5 else 1), (32, 1, on), (64, 1, on - 1)]

/-- DIRECTIVE_RECEIVE. -/
def execDirectiveReceive (c : Nat) (s : State) : Out :=
  guardUnit s (ctxOk c)
    (if s.adminTurn c 0x1A then
       let q := (s.ctx c).sqe
       if (s.ns? q.nsid).isNone then s.finish c (errOut .invalidNs)
       else if q.cdw11.toNat % 65536 = 1 then s.finishWith c (okOut 0) (s.directivePage q.nsid)
       else s.finish c (errOut .invalidField)
     else s)

end Sys2Proof.Machine
end

