-- ==== Sys2Proof/Machine/Logs.lean ====
section
/-! DEFINITION. Identify and the log pages (04 R129, R133, 05 R168, R169, 06 R197, 07 R227 to R229, 10 R336, 12 R365, 13 R397,
15 R445). A page is given by its fields (offset, size, value), in the NVMe specifications' places where this spec names only
the field. -/

namespace Sys2Proof.Machine

/-- Fields of a record at an offset. -/
abbrev Fields := List (Nat × Nat × Nat)
def Fields.at (l : Fields) (off : Nat) : Fields := l.map (fun f => (off + f.1, f.2.1, f.2.2))

/-- A list of numbers of one size, from an offset. -/
def fieldList (off size : Nat) (l : List Nat) : Fields := l.mapIdx (fun i v => (off + i * size, size, v))

/-! Identify (R129). -/

/-- Power state descriptors (R397). -/
def State.psDesc (s : State) (i : Nat) : Fields :=
  let p := s.pat.eff.power.states.getD i {}
  Fields.at [(0, 2, p.maxpCw), (3, 1, if p.nonOp then 2 else 0), (4, 4, p.entryUs), (8, 4, p.exitUs), (12, 1, i), (13, 1, i), (14, 1, i), (15, 1, i)]
    (2048 + 32 * i)

/-- Identify Controller (PRESUMED, log 87). -/
def State.idCtrl (s : State) (slice port : Nat) : OutData :=
  let n := s.pat.eff.power.states.length
  .part 4096 ([(0, 2, s.pat.eff.host.vendor % 65536), (2, 2, s.pat.eff.host.subVendor % 65536), (77, 1, 9), (78, 2, cntlid port slice), (80, 4, 0x00020100), (258, 1, 7), (259, 1, 15)
    , (260, 1, 0x14), (262, 1, 63), (263, 1, n - 1), (265, 1, 0)
    , (266, 2, (s.pat.eff.thermal.warnSet + 273).toNat), (268, 2, (s.pat.eff.thermal.thrSet + 273).toNat), (270, 2, 12), (319, 1, 1)
    , (256, 2, if slice = 0 then 0x6E else 0x20), (320, 2, 0), (328, 4, if slice = 0 then 3 else 0), (512, 1, 0x66), (513, 1, 0x44), (520, 2, 0x18F)
    , (526, 2, 0), (536, 4, 1), (516, 4, match s.pat.eff.ns with | none => 0 | some m => m.maxNs), (522, 2, 0), (525, 1, (!s.holdup).toNat)]
    ++ (List.range n).flatMap s.psDesc)

/-- Metadata bytes of an LBA format bit, and the formats a Pattern enables, in bit order (R144). -/
def fmtMeta (b : Nat) : Nat := [0, 8, 16, 64].getD b 0
def State.fmtList (s : State) : List Nat := match s.pat.eff.ns with | none => [] | some m => (List.range 4).filter (bitAt m.lbaf)

/-- The fields that every namespace shares. -/
def State.idFormats (s : State) : Fields :=
  (25, 1, s.fmtList.length - 1) :: (33, 1, 0) :: (s.fmtList.mapIdx (fun i b => [(128 + 4 * i, 2, fmtMeta b), (128 + 4 * i + 2, 1, 12)])).flatten

/-- Identify Namespace. -/
def State.idNs (s : State) (n : Nat) : OutData :=
  let x := s.ns n
  .part 4096 ([(0, 8, x.nsze), (8, 8, x.nsze), (26, 1, (s.fmtList.findIdx? (· == x.lbaf)).getD 0), (28, 1, 0x0D), (29, 1, x.dps)
    , (99, 1, (s.nsReadOnly n).toNat), (102, 2, (s.nsCls n).set + 1)] ++ s.idFormats)

/-- A namespace under the Zoned Namespace Command Set (Table 5-7). -/
def State.idZoned (s : State) (n : Nat) : OutData :=
  let x := s.ns n
  .part 4096 ([(0, 2, 1), (2, 2, 1), (4, 4, x.maxActive - 1), (8, 4, x.maxOpen - 1), (12, 4, 0), (16, 4, 86400)]
    ++ (s.fmtList.mapIdx (fun i _ => [(2816 + 16 * i, 8, s.zsze n), (2816 + 16 * i + 8, 1, 0)])).flatten)

/-- NSIDs above `lo` that pass a test, at most 1,024, in rising order. -/
def State.nsidList (s : State) (lo : Nat) (p : Nat → Ns → Bool) : OutData :=
  .page 4096 (fieldList 0 4 (((s.zon.nss.filter (fun e => decide (lo < e.1) && p e.1 e.2)).map (·.1)).take 1024))

/-- Controller identifiers from `lo` on: their number, then the list. -/
def ctrlPage (l : List Nat) (lo : Nat) : OutData :=
  let m := (sortByKey id (l.filter (fun k => decide (lo ≤ k)))).take 2047
  .page 4096 ((0, 2, m.length) :: fieldList 2 2 m)

/-- The controllers of the subsystem: those of every live slice. -/
def State.allCtrls (s : State) : List Nat :=
  s.portList.map (fun p => cntlid p 0) ++ (s.sli.filter (fun e => e.1 != 0 && e.2.state != .free)).map (·.1)

/-- Identify (06h) by CNS and command set. -/
def State.identify (s : State) (slice port : Nat) (q : Sqe) : Outc × OutData :=
  let cns := q.cdw10.toNat % 256
  let cid := q.cdw10.toNat / 65536
  let csi := q.cdw11.toNat / 2 ^ 24
  let me := cntlid port slice
  let att (n : Nat) : Bool := (s.ns? n).isSome && (s.ns n).attached.contains me
  let ok (d : OutData) : Outc × OutData := (okOut 0, d)
  let bad (e : St) : Outc × OutData := (errOut e, .none)
  let maxNs := match s.pat.eff.ns with | none => 0 | some m => m.maxNs
  let nsidOk := decide (1 ≤ q.nsid) && decide (q.nsid ≤ maxNs)
  let kind (n : Nat) : Bool := (csi == 0 && !(s.ns n).zoned) || (csi == 2 && (s.ns n).zoned)
  if cns = 0x00 then
    if q.nsid = 0xFFFFFFFF then ok (.part 4096 s.idFormats) else if !nsidOk then bad .invalidNs
    else if att q.nsid then ok (s.idNs q.nsid) else ok (.page 4096 [])
  else if cns = 0x01 then ok (s.idCtrl slice port)
  else if cns = 0x02 then ok (s.nsidList q.nsid (fun n _ => att n))
  else if cns = 0x03 then
    if !nsidOk then bad .invalidNs else if att q.nsid then ok (.part 4096 []) else ok (.page 4096 [])
  else if cns = 0x05 then
    if csi != 0 && csi != 2 then bad .invalidField
    else if !nsidOk then bad .invalidNs
    else if !att q.nsid then ok (.page 4096 [])
    else if !kind q.nsid then bad .invalidField
    else if csi = 2 then ok (s.idZoned q.nsid) else ok (.part 4096 [])
  else if cns = 0x06 then
    if csi = 2 then ok (.page 4096 [(0, 1, 9)]) else if csi = 0 then ok (.part 4096 []) else bad .invalidField
  else if cns = 0x07 then
    if csi = 0 ∨ csi = 2 then ok (s.nsidList q.nsid (fun n _ => att n && kind n)) else bad .invalidField
  else if cns = 0x08 then
    if !nsidOk then bad .invalidNs else if att q.nsid then ok (.part 4096 []) else ok (.page 4096 [])
  else if cns = 0x10 then ok (s.nsidList q.nsid (fun _ _ => true))
  else if cns = 0x11 then
    if !nsidOk then bad .invalidNs else if (s.ns? q.nsid).isSome then ok (s.idNs q.nsid) else ok (.page 4096 [])
  else if cns = 0x12 then
    if (s.ns? q.nsid).isNone then bad .invalidNs else ok (ctrlPage (s.ns q.nsid).attached cid)
  else if cns = 0x13 then ok (ctrlPage s.allCtrls cid)
  else if cns = 0x1C then ok (.page 4096 [(0, 8, 5)])
  else bad .invalidField

/-- IDENTIFY. -/
def execIdentify (c : Nat) (s : State) : Out :=
  guardUnit s (ctxOk c)
    (if s.adminTurn c 0x06 then
       let x := s.ctx c
       let r := s.identify x.slice x.port x.sqe
       s.finishWith c r.1 r.2
     else s)

/-! Log pages (R133). -/

/-- Error Information (01h). -/
def ErrEnt.fields (e : ErrEnt) : Fields :=
  [(0, 8, e.count), (8, 2, e.sqid), (10, 2, e.cid), (12, 2, e.st.field * 2), (16, 8, e.lba), (24, 4, e.nsid)]
def State.log01 (s : State) (k : Nat) : OutData :=
  .page 4096 (((s.ctrl k).errLog.mapIdx (fun i e => Fields.at e.fields (64 * i))).flatten)

/-- The device's endurance stage and available spare (R222, R224). -/
def State.devStage (s : State) : Nat := maxNat (s.setList.map (fun q => (s.setLife q).stage))
def State.devSpare (s : State) : Nat := match s.setList with | [] => 100 | l => minNat (l.map s.availPct)

/-- An Endurance Group log's critical warning, from the set's stage (Table 7-5). -/
def State.setWarn (s : State) (q : Nat) : Nat := (if 3 ≤ (s.setLife q).stage then 1 else 0) + (if 4 ≤ (s.setLife q).stage then 8 else 0)

/-- Data units of 512,000 bytes, rounded up, of a count of 4 KiB LBAs. -/
def dataUnits (lbas : Nat) : Nat := ceilDiv (lbas * 8) 1000

/-- SMART counts of a slice; slice 0 reports the device. -/
def State.smartOf (s : State) (slice : Nat) : SmartSl :=
  if slice = 0 then
    let l := s.mlf.smart.map (·.2)
    { readLbas := sumNat (l.map (·.readLbas)), writtenLbas := sumNat (l.map (·.writtenLbas)), reads := sumNat (l.map (·.reads)), writes := sumNat (l.map (·.writes)) }
  else tval s.mlf.smart slice

/-- SMART / Health Information (Table 7-6); Controller Busy Time is a free value (DESIGN CHOICE, log 88). -/
def State.log02 (s : State) (slice k : Nat) : OutData × State :=
  let m := s.smartOf slice
  let b := drawNat s
  let kel (i : Nat) : Nat := ((s.tmpSel i).getD 0).toNat
  (.page 512 ([(0, 1, s.mlf.critWarn), (1, 2, s.composite.toNat), (3, 1, s.devSpare), (4, 1, s.mlf.spareThresh)
    , (5, 1, maxNat (s.setList.map s.pctUsed)), (6, 1, s.setList.foldl (fun a q => a ||| s.setWarn q) 0)
    , (32, 16, dataUnits m.readLbas), (48, 16, dataUnits m.writtenLbas), (64, 16, m.reads), (80, 16, m.writes), (96, 16, b.1)
    , (112, 16, s.mlf.powerCycles), (128, 16, s.onMinutes / 60), (144, 16, s.mlf.unsafeShut), (160, 16, s.mlf.mediaErrors)
    , (176, 16, (s.ctrl k).errCount), (192, 4, s.thm.warnMin), (196, 4, s.thm.critMin)]
    ++ fieldList 200 2 ((List.range 8).map (fun i => kel (i + 1)))), b.2)

/-- Rated cycles of a die set's blocks, and the bytes its classes' rows hold. -/
def State.setBytes (s : State) (q : Nat) : Nat :=
  match s.pat.eff.stripe with
  | none => 0
  | some m => sumNat ((m.tmpls.filter (fun t => t.set == q)).map (fun t => match tmplType? s.pat.eff t with
      | none => 0
      | some ty => tmplUsable s.dieUsable t * rowBytes ty t.width t.parity (maxNat ((List.range 3).filter (bitAt ty.modes)))))
def State.setRated (s : State) (q : Nat) : Nat := maxNat ((s.setBlocks q).map (·.2))

/-- Endurance Group Information (R228); a set that has written nothing has no ratio, and its estimate is free. -/
def State.log09 (s : State) (q : Nat) : OutData × State :=
  let l := s.setLife q
  let b := drawNat s
  let est := if l.hostUnits = 0 ∨ l.mediaUnits = 0 then b.1 else s.setRated q * s.setBytes q * l.hostUnits / (l.mediaUnits * 10 ^ 9)
  let gb (u : Nat) : Nat := ceilDiv (u * 4096) (10 ^ 9)
  (.part 512 [(0, 1, s.setWarn q), (3, 1, s.availPct q), (4, 1, s.mlf.spareThresh), (5, 1, s.pctUsed q), (32, 16, est)
    , (48, 16, gb l.readUnits), (64, 16, gb l.hostUnits), (80, 16, gb l.mediaUnits)], b.2)

/-- Does a slice use a die set: a namespace attached to it lies there (R228)? -/
def State.usesSet (s : State) (slice q : Nat) : Bool :=
  slice == 0 || (s.nsOfSet q).any (fun n => (s.ns n).slices.contains slice)

/-- Eight uppercase hexadecimal digits, the first character lowest. -/
def hexDigit (v : Nat) : Nat := if v < 10 then 0x30 + v else 0x37 + v
def hexField (off v : Nat) : Fields := (List.range 8).map (fun i => (off + i, 1, hexDigit (v / 16 ^ (7 - i) % 16)))

/-- Firmware Slot Information (R445). -/
def State.log03 (s : State) : OutData :=
  let nxt := if (s.fwSlot 0).next then 1 else if (s.fwSlot 1).next then 2 else 0
  let frs (i off : Nat) : Fields := if (s.fwSlot i).state = 1 then hexField off (s.fwSlot i).ver else []
  .page 512 ([(0, 1, s.runSlot + 1 + nxt * 16)] ++ frs 0 8 ++ frs 1 16)

/-- Changed Namespace List (04h): over 1,024, FFFFFFFFh. -/
def State.log04 (s : State) (slice : Nat) : OutData :=
  let l : List Nat := tval s.zon.changedNs slice
  .page 4096 (if 1024 < l.length then [(0, 4, 0xFFFFFFFF)] else fieldList 0 4 (sortByKey id l))

/-- Commands Supported and Effects (05h): CSUPP; the effect bits are left to the implementation. -/
def State.log05 (_s : State) (slice : Nat) : OutData :=
  let eff (adm : Bool) (o : Nat) : Nat := 1 + 2 * Config.cmdEffects adm o
  let adm := adminOps.filter (fun o => slice == 0 || !managerOps.contains o)
  .page 4096 (adm.map (fun o => (4 * o, 4, eff true o)) ++ (bothOps ++ convOps ++ zonedOps).map (fun o => (1024 + 4 * o, 4, eff false o)))

/-- FDP Configurations, Reclaim Unit Handle Usage, Statistics and Events (20h to 23h). -/
def State.log20 (s : State) : OutData :=
  let m := s.pat.eff.ns.getD {}
  .part 16384 ([(0, 2, 0), (18, 1, 0x80 + Nat.log2 (max 1 (2 * m.fdpRg - 1))), (20, 4, m.fdpRg), (24, 2, m.fdpPh)]
    ++ fieldList 80 4 (List.replicate m.fdpPh 1))
def State.log21 (s : State) (q : Nat) : OutData :=
  let m := s.pat.eff.ns.getD {}
  let used (h : Nat) : Bool := (s.nsOfSet q).any (fun n => (s.ns n).handles.contains h)
  .page (8 + 8 * m.fdpPh) ((0, 2, m.fdpPh) :: fieldList 8 8 ((List.range m.fdpPh).map (fun h => (used h).toNat)))
def State.log22 (s : State) (q : Nat) : OutData :=
  let f : Fdp := tval s.zon.fdp q
  .page 64 [(0, 16, f.hostBytes), (16, 16, f.mediaBytes), (32, 16, f.erasedBytes)]
def State.log23 (s : State) (q : Nat) : OutData :=
  let f : Fdp := tval s.zon.fdp q
  .part 4160 ((0, 4, f.events.length) :: (f.events.mapIdx (fun i e => Fields.at [(0, 1, e.1), (4, 8, e.2.2)] (64 + 64 * i))).flatten)

/-- Changed Zone List (BFh). -/
def State.logBF (s : State) (n slice : Nat) : OutData :=
  let l : List Nat := tval s.zon.changedZones (key2 n slice)
  .page 4096 (if 511 < l.length then [(0, 2, 0xFFFF)] else (0, 2, l.length) :: fieldList 8 8 (l.map (fun z => z * s.zsze n)))

/-- A die set's record in Health Detail (Table 7-7), the values as of the last wear record update. -/
def State.setFields (s : State) (q : Nat) : Fields :=
  let l := s.setLife q
  let av := if l.savedSpareInit = 0 then 100 else 100 * l.savedSpareLeft / l.savedSpareInit
  Fields.at [(0, 1, q), (1, 1, l.stage), (2, 1, av), (3, 1, l.savedPct), (4, 2, (s.setDies q).length), (6, 2, l.savedDiesRetired)
    , (8, 4, l.savedSpareLeft), (12, 4, l.savedSpareInit), (16, 4, l.savedRetired)
    , (20, 2, l.savedWearMean), (22, 2, l.savedWearMax), (24, 2, l.savedWearMin), (26, 2, l.savedLlr)] (0x190 + q * 32)

/-- Health Detail (C0h). -/
def State.logC0 (s : State) : OutData :=
  let isl := (List.range 72).filter (present s.pat.eff)
  let mar (i : Nat) : Nat := tval s.age.margin i
  let low := minNat (isl.map mar)
  .page 4096 ([(0, 2, 1), (2, 1, s.devStage), (3, 1, s.setList.length), (4, 4, 4096), (8, 8, s.onMinutes), (16, 8, s.nowMs)
    , (0x18, 1, low), (0x19, 1, (isl.find? (fun i => mar i == low)).getD 0), (0x1A, 2, s.age.plan.ver)]
    ++ fieldList 0x20 8 s.mlf.errors ++ fieldList 0xA0 4 s.mlf.tempHist
    ++ fieldList 0x140 1 ((List.range 72).map (fun i => if present s.pat.eff i then mar i else 0xFF)) ++ s.setList.flatMap s.setFields)

/-- A fault record (Table 12-4). -/
def FltRec.flags (r : FltRec) : Nat :=
  r.merged.toNat + 2 * r.escCount.toNat + 4 * r.escUnack.toNat + 8 * r.acked.toNat + 16 * r.persisted.toNat + 32 * r.forced.toNat + 64 * r.skipped.toNat
def FltRec.fields (r : FltRec) : Fields :=
  [(0, 4, r.seq), (4, 2, r.src), (6, 1, r.level + 8 * r.raised), (7, 1, r.react), (8, 8, r.timeMs), (16, 1, r.island), (17, 1, r.unit)
  , (18, 1, r.cls), (19, 1, r.flags), (20, 2, r.mergeCnt), (22, 2, r.slice), (24, 8, r.detail)]

/-- Fault Records (R365): the ring, or the persistent log. -/
def State.logC1 (s : State) (persist : Bool) : OutData :=
  let l := if persist then s.flt.plog else s.flt.ring
  .page (if persist then 262208 else 131136)
    ([(0, 2, 1), (2, 2, l.length), (4, 4, (l.head?.map (·.seq)).getD 0), (8, 4, (l.getLast?.map (·.seq)).getD 0), (12, 4, s.flt.overrun)]
     ++ (l.mapIdx (fun i r => Fields.at r.fields (64 + 32 * i))).flatten)

/-- Deferred Write Errors (R121, Table 4-6). -/
def DweEnt.fields (e : DweEnt) : Fields :=
  [(0, 4, e.idx), (4, 4, e.nsid), (8, 1, e.zoned.toNat), (9, 1, e.cause), (10, 1, e.ranges.length)
  , (11, 1, e.more.toNat + 2 * e.reported.toNat + 4 * e.merged.toNat), (16, 8, e.timeMs)]
  ++ (e.ranges.mapIdx (fun i r => Fields.at [(0, 8, r.1), (8, 4, r.2.1), (12, 4, r.2.2)] (32 + 16 * i))).flatten
def State.logC2 (s : State) (slice : Nat) : OutData :=
  .page 131072 ((s.slc slice).dwe.flatMap (fun e => Fields.at e.fields (e.idx % 256 * 512)))

/-- SLI_CFG.STATE. -/
def SliState.code : SliState → Nat
  | .free => 0
  | .created => 1
  | .enabled => 2
  | .resetting => 3
  | .removing => 4

/-- Slice Statistics (R336, Table 10-12). -/
def State.logC3 (s : State) (sl : Nat) : OutData :=
  let x := s.slc sl
  let t := x.stat
  let q (i : Nat) : Nat := x.sqstat.getD i 0
  .page 512 ([(0, 2, sl), (2, 1, x.state.code), (4, 4, x.gen), (8, 8, x.effEpoch), (0x10, 8, t.fetched), (0x18, 8, t.completed)
    , (0x20, 8, t.readUnits), (0x28, 8, t.writeUnits)] ++ fieldList 0x30 8 ((List.range 5).map q) ++ fieldList 0x58 8 [q 5, q 6, q 7]
    ++ [(0x70, 8, t.budgetMiss), (0x78, 8, t.dieUs), (0x80, 8, t.engineUs), (0x88, 8, t.coreUs), (0x90, 4, t.mbSent), (0x94, 4, t.mbDiscarded), (0x98, 4, t.resets)])

/-- Media Calibration (R197, Table 6-7). -/
def DieState.code : DieState → Nat
  | .absent => 0
  | .online => 1
  | .failed => 2
  | .rebuilding => 3
/-- DEDUCED, log 89. -/
def Tracker.drift (g : Tracker) : Int :=
  (List.range g.offset.length).foldl (fun (a : Int) i =>
    let v := listInt g.offset i - listInt g.base i
    if a.natAbs < v.natAbs then v else a) 0
def State.dieFields (s : State) (d : Nat) : Fields :=
  let x := s.die d
  let g := (s.med.trackers.filter (fun e => e.1 / 2 ^ 24 == d)).map (·.2)
  let far := g.filter (fun t => decide (s.driftLimit t.mode < t.drift.natAbs))
  let big (m : Nat) : Int := (g.filter (fun t => t.mode == m)).foldl (fun (a : Int) t => if a.natAbs < t.drift.natAbs then t.drift else a) 0
  Fields.at ([(0, 2, d), (2, 1, x.state.code), (3, 1, sumNat ((List.range 3).map (fun m => if g.any (fun t => t.mode == m) then 2 ^ m else 0)))
    , (4, 2, g.length), (6, 2, far.length)] ++ fieldList 8 1 ((List.range 3).map (fun m => (big m % 256).toNat))
    ++ [(0xC, 2, x.stat.meanCbits), (0xE, 2, x.stat.maxCbits), (0x10, 8, x.stat.reads), (0x18, 8, x.stat.retries), (0x20, 4, x.stat.soft)
    , (0x24, 4, x.stat.softFail), (0x28, 4, x.stat.eclipse), (0x2C, 4, x.stat.unrecovered), (0x30, 4, x.stat.refresh), (0x34, 1, (x.tempC % 256).toNat)
    , (0x38, 4, x.stat.suspends), (0x3C, 4, x.stat.budgetMiss)]) (64 + 64 * d)
def State.logC4 (s : State) : OutData :=
  .page 131136 ([(0, 2, 1), (2, 2, if s.glb.bare then 0 else 2048), (4, 2, 64), (8, 8, s.nowMs)]
    ++ if s.glb.bare then [] else (List.range 2048).flatMap s.dieFields)

/-- A page from an offset: the fields that lie in the part, those cut at an end byte by byte. -/
def pageBytes (f : Nat × Nat × Nat) : Fields := (List.range f.2.1).map (fun i => (f.1 + i, 1, f.2.2 / 256 ^ i % 256))
def cutFields (off len : Nat) (l : Fields) : Fields :=
  (l.flatMap (fun f =>
    if off ≤ f.1 ∧ f.1 + f.2.1 ≤ off + len then [f]
    else (pageBytes f).filter (fun b => decide (off ≤ b.1) && decide (b.1 < off + len)))).map (fun f => (f.1 - off, f.2.1, f.2.2))
def OutData.cut (d : OutData) (off len : Nat) : Option OutData :=
  match d with
  | .page n l => if n < off then none else some (.page (min len (n - off)) (cutFields off len l))
  | .part n l => if n < off then none else some (.part (min len (n - off)) (cutFields off len l))
  | x => some x

/-- Why a log page is refused: one that does not exist, or that its controller may not read. -/
def State.logErr (s : State) (slice port : Nat) (q : Sqe) : Option St :=
  let lid := q.cdw10.toNat % 256
  let lsi := q.cdw11.toNat / 65536
  let need (b : Bool) (e : St) : Option St := if b then none else some e
  if lid = 0x02 then need (q.nsid == 0 || q.nsid == 0xFFFFFFFF) .invalidField
  else if lid = 0x09 then need (lsi != 0 && s.setList.contains (lsi - 1) && s.usesSet slice (lsi - 1)) .invalidField
  else if 0x20 ≤ lid ∧ lid ≤ 0x23 then need (s.fdpSet lsi).isSome .invalidField
  else if lid = 0xBF then need ((s.ns? q.nsid).isSome && (s.ns q.nsid).zoned && (s.ns q.nsid).attached.contains (cntlid port slice)) .invalidNs
  else if lid = 0xC3 then need (if slice = 0 then sliceOk lsi else lsi == 0 || lsi == slice) .invalidField
  else if lid = 0xC0 ∨ lid = 0xC1 ∨ lid = 0xC4 then need (slice == 0) .invalidField
  else need ([0x01, 0x03, 0x04, 0x05, 0xC2].contains lid) .invalidLogPage

/-- The log pages whose content is fixed by the state. -/
def State.logFixed (s : State) (slice port : Nat) (q : Sqe) : OutData :=
  let lid := q.cdw10.toNat % 256
  let lsi := q.cdw11.toNat / 65536
  let e := (s.fdpSet lsi).getD 0
  if lid = 0x01 then s.log01 (ctrlKey port slice)
  else if lid = 0x03 then s.log03
  else if lid = 0x04 then s.log04 slice
  else if lid = 0x05 then s.log05 slice
  else if lid = 0x20 then s.log20
  else if lid = 0x21 then s.log21 e
  else if lid = 0x22 then s.log22 e
  else if lid = 0x23 then s.log23 e
  else if lid = 0xBF then s.logBF q.nsid slice
  else if lid = 0xC0 then s.logC0
  else if lid = 0xC1 then s.logC1 (bitAt q.cdw10.toNat 8)
  else if lid = 0xC2 then s.logC2 slice
  else if lid = 0xC3 then s.logC3 (if slice = 0 then lsi else slice)
  else s.logC4

/-- What a log page holds; two of them have free values. -/
def State.logData (s : State) (slice port : Nat) (q : Sqe) : OutData × State :=
  if q.cdw10.toNat % 256 = 0x02 then s.log02 slice (ctrlKey port slice)
  else if q.cdw10.toNat % 256 = 0x09 then s.log09 (q.cdw11.toNat / 65536 - 1)
  else (s.logFixed slice port q, s)

/-- The event type whose events name a log page. -/
def lidType (lid : Nat) : Nat := if lid = 0x01 then 0 else if lid = 0x02 then aenHealth else if lid = 0x04 ∨ lid = 0xBF ∨ lid = 0x09 ∨ lid = 0x23 then aenNotice else aenVendor

/-- Read with Retain Asynchronous Event clear: the page's events may come again, and a change list is empty. -/
def State.logSeen (s : State) (slice port : Nat) (q : Sqe) : State :=
  let lid := q.cdw10.toNat % 256
  let k := ctrlKey port slice
  if bitAt q.cdw10.toNat 15 then s
  else
    let s1 := (s.modCtrl k (fun c => { c with maskedTypes := removeNat c.maskedTypes (lidType lid) })).giveAen k
    if lid = 0x04 then { s1 with zon := { s1.zon with changedNs := tdel s1.zon.changedNs slice } }
    else if lid = 0xBF then { s1 with zon := { s1.zon with changedZones := tdel s1.zon.changedZones (key2 q.nsid slice) } }
    else s1

/-- The part of a log page that Get Log Page asks for, in bytes (R133). -/
def State.getLogPart (s : State) (slice port : Nat) (q : Sqe) (len off : Nat) : Outc × OutData × State :=
  match s.logErr slice port q with
  | some e => (errOut e, .none, s)
  | none =>
    let d := s.logData slice port q
    match (if off % 4 = 0 then d.1.cut off len else none) with
    | none => (errOut .invalidField, .none, s)
    | some p => (okOut 0, p, d.2.logSeen slice port q)

/-- Get Log Page (02h): NUMD dwords from LPO. -/
def State.getLog (s : State) (slice port : Nat) (q : Sqe) : Outc × OutData × State :=
  s.getLogPart slice port q (4 * (q.cdw10.toNat / 65536 + q.cdw11.toNat % 65536 * 65536 + 1)) (q.cdw12.toNat + q.cdw13.toNat * 2 ^ 32)

/-- GET_LOG_PAGE. -/
def execGetLogPage (c : Nat) (s : State) : Out :=
  guardUnit s (ctxOk c)
    (if s.adminTurn c 0x02 then
       let x := s.ctx c
       let r := s.getLog x.slice x.port x.sqe
       r.2.2.finishWith c r.1 r.2.1
     else s)

end Sys2Proof.Machine
end

