-- ==== Sys2Proof/Machine/NsRows.lean ====
section
/-! DEFINITION. Namespace management, Format NVM and Sanitize (05 R141 to R146, 10 R333, R335), and the management interface
in-band (17 R472). -/

namespace Sys2Proof.Machine

/-! Namespace Management (R143 to R145). -/

/-- The frame of the active Pattern. -/
def State.nsFrame (s : State) : NsFrame := s.pat.eff.ns.getD {}

/-- The lowest free NSID. -/
def State.freeNsid (s : State) : Option Nat := tfree s.zon.nss 1 s.nsFrame.maxNs

/-- Zones of a new namespace, and the extents they take. -/
def State.newZones (s : State) (b : NsCreate) : Nat := b.nsze / max 1 (zoneSizeLbas (s.clsRec b.cls))

/-- Rows a new namespace promises (R140). -/
def State.newPromise (s : State) (b : NsCreate) : Nat :=
  let c := s.clsRec b.cls
  if b.csi = 2 then zoneRows s.pat.eff c * s.newZones b else ceilDiv (b.nsze * 4096 * 17) (16 * max 1 (classRowBytes s.pat.eff c))

/-- Free extents of the zone table. -/
def State.freeExtents (s : State) : List Nat := (List.range 1024).filter (fun e => (tget s.zon.extOwner e).isNone)

/-- Does the new namespace use its class's key slot (R333)? -/
def State.sharesKey (s : State) (cls : Nat) : Bool := tgetD s.sec.sharedKey cls false

/-- Does it need a key slot that is not there yet? -/
def State.needsSlot (s : State) (cls : Nat) : Bool := !(s.sharesKey cls && (tget s.sec.classKey cls).isSome)

/-- LBAs of the conventional namespaces. -/
def State.convLbas (s : State) : Nat := sumNat (s.zon.nss.map (fun e => if e.2.zoned then 0 else e.2.nsze))

/-- The capacity checks of R145 and R333. -/
def State.noCapacity (s : State) (b : NsCreate) : Bool :=
  decide (s.rowsFreeCount (s.clsRec b.cls) < s.newPromise b)
    || (b.csi == 0 && decide (s.nsFrame.convGib * 2 ^ 30 < (s.convLbas + b.nsze) * 4096))
    || (b.csi == 2 && decide (s.freeExtents.length < ceilDiv (s.newZones b) 1024))
    || (s.needsSlot b.cls && (decide (4095 ≤ s.sec.slots.length) || (!s.sharesKey b.cls && decide ((s.tmpl b.owner).keys ≤ s.keysUsed b.owner))))

/-- The placement handles of a conventional namespace under FDP (Table 5-6). -/
def State.phBad (s : State) (b : NsCreate) : Bool :=
  (tval s.zon.fdp (s.clsRec b.cls).set : Fdp).enabled && b.csi == 0
    && (decide (256 < b.handles.length) || b.handles.any (fun h => decide (s.nsFrame.fdpPh ≤ h)) || b.handles.eraseDups.length != b.handles.length)

/-- Why a create is refused (DEDUCED, log 91). -/
def State.createNsErr (s : State) (b : NsCreate) : Option St :=
  match (patClasses s.pat.eff).find? (fun r => r.cls == b.cls) with
  | none => some .invalidField
  | some c =>
    if b.res385 != 0 || b.res388 != 0 || decide (2047 < b.owner) || s.sliceGone b.owner then some .invalidField
    else if b.csi != 0 && b.csi != 2 then some .invalidField
    else if c.isolated && b.owner != c.owner then some .invalidField
    else if s.fmtList.length ≤ b.flbas % 16 then some .invalidFormat
    else if ! [0, 1, 3].contains (b.dps % 8) || (b.dps % 8 != 0 && s.fmtList.getD (b.flbas % 16) 0 == 0) then some .invalidField
    else if b.ncap != b.nsze then some .thinProv
    else if b.nsze = 0 ∨ (b.csi = 2 ∧ b.nsze % max 1 (zoneSizeLbas c) != 0) then some .invalidField
    else if s.phBad b then some .invalidPhList
    else if s.freeNsid.isNone then some .nsUnavailable
    else if s.noCapacity b then some .nsCapacity
    else none

/-- A key slot for a new namespace: its class's, or a new one with a new key (R333 to R335). -/
def State.takeSlot (s : State) (cls : Nat) : Nat × State :=
  match if s.sharesKey cls then tget s.sec.classKey cls else none with
  | some k => (k, s)
  | none =>
    let k := (tfree s.sec.slots 1 4095).getD 0
    let x := s.sec
    (k, { s with sec := { x with slots := tset x.slots k (x.keyGen + 1), keyGen := x.keyGen + 1
                                 classKey := if s.sharesKey cls then tset x.classKey cls k else x.classKey } })

/-- The new namespace, OWNED by the port whose manager created it (R87). -/
def State.createNs (s : State) (port : Nat) (b : NsCreate) (n : Nat) : State :=
  let k := s.takeSlot b.cls
  let ext := if b.csi = 2 then s.freeExtents.take (ceilDiv (s.newZones b) 1024) else []
  let x : Ns := { zoned := b.csi == 2, nsze := b.nsze, lbaf := s.fmtList.getD (b.flbas % 16) 0, dps := b.dps, cls := b.cls, owner := b.owner
                  extents := ext, keySlot := k.1, handles := if b.handles.isEmpty then [0] else b.handles, promised := s.newPromise b, own := .owned port }
  let s1 := k.2.setNs n x
  let ents := if b.csi = 2 then s1.nsEnts n else []
  let z : ZEnt := { state := .empty, cls := b.cls, owner := b.owner }
  { s1 with zon := { s1.zon with extOwner := ext.foldl (fun t e => tset t e n) s1.zon.extOwner
                                 ents := ents.foldl (fun t e => tset t e z) s1.zon.ents } }

/-- NAMESPACE_CREATE: the NSID stands in DW0. -/
def execNamespaceCreate (c : Nat) (buf : NsCreate) (s : State) : Out :=
  guardUnit s (ctxOk c)
    (if s.subTurn c 0x0D (fun q => q.cdw10.toNat % 16 == 0) then
       match s.createNsErr buf with
       | some e => s.finish c (errOut e)
       | none =>
         let n := s.freeNsid.getD 0
         ((s.createNs (s.ctx c).port buf n).noteNs n [0]).finish c (okOut n)
     else s)

/-- Ownership commands that wait on a namespace that goes are answered. -/
def State.dropOwnWaiters (s : State) (n : Nat) : State :=
  let ans (t : State) (w : Option Waiter) : State := match w with | some v => t.answer v (errOut .invalidNs) | none => t
  let x := s.ns n
  (ans (ans s x.release) x.takeover).modNs n (fun y => { y with release := none, takeover := none })

/-- NAMESPACE_DELETE: new commands on the namespaces fail; they go once every command admitted on them has committed. -/
def execNamespaceDelete (c : Nat) (s : State) : Out :=
  guardUnit s (ctxOk c)
    (if s.subTurn c 0x0D (fun q => q.cdw10.toNat % 16 == 1) then
       let id := (s.ctx c).sqe.nsid
       let l := if id = 0xFFFFFFFF then s.zon.nss.map (·.1) else [id]
       if id != 0xFFFFFFFF && (s.ns? id).isNone then s.finish c (errOut .invalidNs)
       else if l.any s.admittedOn then l.foldl (fun t n => (t.noteNs n (t.ns n).slices).modNs n (fun x => { x with attached := [] })) s
       else (l.foldl (fun t n => ((t.dropOwnWaiters n).noteNs n [0]).deleteNs n) s).finish c (okOut 0)
     else s)

/-! Namespace Attachment (R141, R142). -/

/-- Does a controller exist? -/
def State.ctrlExists (s : State) (k : Nat) : Bool := s.allCtrls.contains k

/-- May a namespace be attached to a controller's slice? -/
def State.attachOk (s : State) (n k : Nat) : Bool :=
  let c := s.nsCls n
  let sl := cntSlice k
  (!c.isolated || sl == c.owner) && ((s.tmpl sl).set == 0xFF || (s.tmpl sl).set == c.set)

/-- Why an attachment or detachment is refused. -/
def State.attachErr (s : State) (n : Nat) (detach : Bool) (l : List Nat) : Option St :=
  if (s.ns? n).isNone then some .invalidNs
  else if l.isEmpty || l.any (fun k => !s.ctrlExists k) || l.eraseDups.length != l.length then some .ctrlListInvalid
  else if detach then if l.any (fun k => !(s.ns n).attached.contains k) then some .nsNotAttached else none
  else if l.any (fun k => !s.attachOk n k) then some .ctrlListInvalid
  else if l.any (fun k => (s.ns n).attached.contains k) then some .nsAttached
  else none

/-- NAMESPACE_ATTACHMENT: Select 0 attaches, 1 detaches the controllers of the list. -/
def execNamespaceAttachment (c : Nat) (ctrls : List Nat) (s : State) : Out :=
  guardUnit s (ctxOk c)
    (if s.adminTurn c 0x15 then
       let q := (s.ctx c).sqe
       let sel := q.cdw10.toNat % 16
       if 1 < sel then s.finish c (errOut .invalidField)
       else match s.attachErr q.nsid (sel == 1) ctrls with
         | some e => s.finish c (errOut e)
         | none =>
           let s1 := s.modNs q.nsid (fun x => { x with attached := if sel = 1 then ctrls.foldl removeNat x.attached else ctrls.foldl insertNat x.attached })
           (s1.noteNs q.nsid ((ctrls.map cntSlice).eraseDups)).finish c (okOut 0)
     else s)

/-! Format NVM and Sanitize (R335). -/

/-- A namespace loses its data: every zone that is not Offline becomes Empty, every map entry is cleared. -/
def State.eraseNs (s : State) (n : Nat) : State :=
  let x := s.ns n
  let s1 := (s.dropNsRelocs n).cometCancel n 0 x.nsze
  if x.zoned then
    (s1.nsEnts n).foldl (fun t e =>
      if (t.zent e).state = .offline then t
      else (t.clearZone e).rollback e 0) s1
  else
    let s2 := s1.dropNsRows n
    { s2 with zon := { s2.zon with map := tmap s2.zon.map (fun k m => if k / 2 ^ 64 = n then { m with loc := none, unc := false, gen := (m.gen + 1) % 65536 } else m) } }

/-- A key slot gets a new key (R335). -/
def State.rekey (s : State) (k : Nat) : State :=
  let x := s.sec
  { s with sec := { x with slots := tset x.slots k (x.keyGen + 1), keyGen := x.keyGen + 1, discards := x.discards + 1 } }

/-- Does a namespace use a class key? -/
def State.onClassKey (s : State) (n : Nat) : Bool := tget s.sec.classKey (s.ns n).cls == some (s.ns n).keySlot

/-- Why Format NVM is refused. -/
def State.formatErr (s : State) (q : Sqe) (l : List Nat) : Option St :=
  let d := q.cdw10.toNat
  let ses := bitsAt d 9 3
  if q.nsid != 0xFFFFFFFF && (s.ns? q.nsid).isNone then some .invalidNs
  else if !s.glb.mediaReady || l.any (fun n => s.glb.notReady.contains (s.nsCls n).set) then some .nsNotReady
  else if 2 < ses then some .invalidField
  else if s.fmtList.length ≤ d % 16 then some .invalidFormat
  else if ! [0, 1, 3].contains (bitsAt d 5 3) || (bitsAt d 5 3 != 0 && s.fmtList.getD (d % 16) 0 == 0) then some .invalidFormat
  else if ses = 2 ∧ l.any s.onClassKey then some .invalidField
  else none

/-- FORMAT_NVM: LBA format and protection of CDW10; the data is lost; SES 010b regenerates the namespace's own key (DESIGN CHOICE, log 92). -/
def execFormatNvm (c : Nat) (s : State) : Out :=
  guardUnit s (ctxOk c)
    (if s.adminTurn c 0x80 then
       let q := (s.ctx c).sqe
       let d := q.cdw10.toNat
       let l := if q.nsid = 0xFFFFFFFF then s.zon.nss.map (·.1) else [q.nsid]
       match s.formatErr q l with
       | some e => s.finish c (errOut e)
       | none =>
         (l.foldl (fun t n =>
           let t1 := (t.eraseNs n).modNs n (fun x => { x with lbaf := s.fmtList.getD (d % 16) 0, dps := bitsAt d 5 3 + 8 * bitsAt d 8 1 })
           if bitsAt d 9 3 = 2 then t1.rekey (t1.ns n).keySlot else t1) s).finish c (okOut 0)
     else s)

/-- SANITIZE: 010b block erase, 100b crypto erase, which regenerates every key slot except slot 0; 001b leaves a failure mode
that is never entered. -/
def execSanitize (c : Nat) (s : State) : Out :=
  guardUnit s (ctxOk c)
    (if s.adminTurn c 0x84 then
       let act := (s.ctx c).sqe.cdw10.toNat % 8
       if act = 1 then s.finish c (okOut 0)
       else if act != 2 && act != 4 then s.finish c (errOut .invalidField)
       else if !s.glb.mediaReady then s.finish c (errOut .nsNotReady)
       else
         let s1 := (s.zon.nss.map (·.1)).foldl (fun t n => t.eraseNs n) s
         let s2 := if act = 4 then (s1.sec.slots.map (·.1)).foldl (fun t k => if k = 0 then t else t.rekey k) s1 else s1
         s2.finish c (okOut 0)
     else s)

/-! The management interface (Table 17-10). -/

/-- Celsius of the composite temperature, as NVMe-MI reports it. -/
def State.miTemp (s : State) : Nat := ((s.composite - 273) % 256).toNat

/-- A Configuration Set: SMBus frequency, health status change, transmission unit. -/
def State.miSet (s : State) (id v : Nat) : Outc × State :=
  if id = 1 then
    (match v with
     | 1 => (okOut 0, { s with sb := { s.sb with smbKhz := 100 } })
     | 2 => (okOut 0, { s with sb := { s.sb with smbKhz := 400 } })
     | 3 => (okOut 0, { s with sb := { s.sb with smbKhz := 1000 } })
     | _ => (errOut .invalidField, s))
  else if id = 2 then (okOut 0, { s with sb := { s.sb with healthCfg := s.sb.healthCfg - (s.sb.healthCfg &&& v) } })
  else if id = 3 then if 64 ≤ v then (okOut 0, { s with sb := { s.sb with mtu := v } }) else (errOut .invalidField, s)
  else (errOut .invalidField, s)

/-- The NVMe-MI commands of Table 17-10; anything else is refused (PRESUMED, log 93). -/
def State.miRun (s : State) (m : SbMsg) : Outc × OutData × State :=
  match m with
  | .readMi code =>
    if code = 0 then (okOut 0, .part 32 [(0, 1, s.portList.length - 1), (1, 1, 1), (2, 1, 2)], s)
    else if code = 2 then (okOut 0, ctrlPage s.allCtrls 0, s)
    else if code ≤ 4 then (okOut 0, .part 32 [], s)
    else (errOut .invalidField, .none, s)
  | .subsystemHealth =>
    (okOut 0, .part 8 [(1, 1, 255 - s.mlf.critWarn), (2, 1, s.miTemp), (3, 1, maxNat (s.setList.map s.pctUsed))], s)
  | .controllerHealth =>
    (okOut 0, .part 16 [(0, 2, 0), (2, 2, (s.ctrl 0).rdy.toNat + 2 * (s.ctrl 0).cfs.toNat + 4 * (s.ctrl 0).shst), (4, 2, s.composite.toNat)
      , (6, 1, maxNat (s.setList.map s.pctUsed)), (7, 1, s.devSpare), (8, 1, s.mlf.critWarn)], s)
  | .configSet id v => ((s.miSet id v).1, .none, (s.miSet id v).2)
  | .configGet id =>
    if id = 1 then (okOut (if s.sb.smbKhz = 100 then 1 else if s.sb.smbKhz = 400 then 2 else 3), .none, s)
    else if id = 2 then (okOut s.sb.healthCfg, .none, s)
    else if id = 3 then (okOut s.sb.mtu, .none, s)
    else (errOut .invalidField, .none, s)
  | _ => (errOut .invalidField, .none, s)

/-- NVME_MI_SEND: in-band, the command that sends data: Configuration Set. -/
def execNvmeMiSend (c : Nat) (m : SbMsg) (s : State) : Out :=
  guardUnit s (ctxOk c)
    (if s.adminTurn c 0x1D then
       match m with
       | .configSet id v => (s.miSet id v).2.finish c (s.miSet id v).1
       | _ => s.finish c (errOut .invalidField)
     else s)

/-- NVME_MI_RECEIVE: in-band, the commands that return data. -/
def execNvmeMiReceive (c : Nat) (m : SbMsg) (s : State) : Out :=
  guardUnit s (ctxOk c)
    (if s.adminTurn c 0x1E then
       match m with
       | .configSet _ _ => s.finish c (errOut .invalidField)
       | _ =>
         let r := s.miRun m
         r.2.2.finishWith c r.1 r.2.1
     else s)

end Sys2Proof.Machine
end

