-- ==== Sys2Proof/Machine/ArrayRows.lean ====
section
/-! DEFINITION. The commands of the code array (15, R424 to R429), and the control-complex watchdog (12, R370 to R372). -/

namespace Sys2Proof.Machine

/-! Who may command what (R427). -/

/-- Does the issuer count as firmware: the control cores, the update engine and the Pattern loader issue every command? -/
def isHost : ArrayIssuer → Bool
  | .host _ => true
  | _ => false

/-- A refused sequence changes nothing: it sets ERRCODE and is counted (DEDUCED, log 114). -/
def State.refuseSeq (s : State) (b code : Nat) : State := (s.modBank b (fun x => { x with errCode := code })).cnvCnt 6 1

/-- A write of the issuer to the bank ends its identify view (Table 15-4a). -/
def Bank.dropView (x : Bank) (w : ArrayIssuer) : Bank := { x with views := x.views.filter (· != w) }

/-- An operation starts on an idle bank, or waits behind the others (R428). -/
def State.issueOp (s : State) (b : Nat) (o : ArrOp) : State :=
  let x := s.bank b
  if x.cur.isSome then s.setBank b { x with queue := x.queue ++ [o] }
  else s.setBank b { x with cur := some o, progress := 0, sector := if o.op = 1 then pageSect o.page else o.page }

/-- ARRAY_PROGRAM. -/
def execArrayProgram (who : ArrayIssuer) (bank page : Nat) (data : List Byte) (s : State) : Out :=
  guardUnit s (issuerOk who && bankOk bank && decide (page < 65536) && data.length == 256)
    (let s1 := s.modBank bank (·.dropView who)
     if isHost who || s.protectedSect bank (pageSect page) then s1.refuseSeq bank 2
     else if (s.sect (sectOf bank (pageSect page))).progPages.contains (pageIn page) then s1.refuseSeq bank 3
     else s1.issueOp bank { who := who, op := 1, page := page, data := data })

/-- ARRAY_ERASE. -/
def execArrayErase (who : ArrayIssuer) (bank sector : Nat) (s : State) : Out :=
  guardUnit s (issuerOk who && bankOk bank && decide (sector < 256))
    (let s1 := s.modBank bank (·.dropView who)
     if isHost who || s.protectedSect bank sector then s1.refuseSeq bank 2
     else s1.issueOp bank { who := who, op := 2, page := sector })

/-- The identify view: reads by the issuer return the identify block until its next write to the bank. -/
def State.identifyView (s : State) (who : ArrayIssuer) (b : Nat) : State := s.modBank b (fun x => { x with views := who :: (x.dropView who).views })

/-- ARRAY_IDENTIFY. -/
def execArrayIdentify (who : ArrayIssuer) (bank : Nat) (s : State) : Out := guardUnit s (issuerOk who && bankOk bank) (s.identifyView who bank)

/-- CTL leaves its hold once no bank is busy (R370): the deferral is counted, and DETAIL of the watchdog's newest record holds its
length. -/
def State.endHold (s : State) : State :=
  if s.flt.wdogHold && !s.arrayBusy then
    let ms := min 400 (s.nowMs - s.flt.holdSince)
    let last := maxNat ((s.flt.ring.filter (fun r => r.src == 744)).map (·.seq))
    let put (l : List FltRec) : List FltRec := l.map (fun r => if r.src == 744 && r.seq == last then { r with detail := ms } else r)
    { s with flt := { s.flt with wdogHold := false, lastDefer := ms, ring := put s.flt.ring, plog := put s.flt.plog } }
  else s

/-- The next waiting operation of a bank starts; a program of a page that was programmed meanwhile is refused (R427). -/
def State.startOps (s : State) (b : Nat) : List ArrOp → State
  | [] => (s.modBank b (fun x => { x with queue := [] })).endHold
  | o :: t =>
    if o.op = 1 ∧ (s.sect (sectOf b (pageSect o.page))).progPages.contains (pageIn o.page) then (s.refuseSeq b 3).startOps b t
    else s.modBank b (fun x => { x with cur := some o, queue := t, progress := 0, sector := if o.op = 1 then pageSect o.page else o.page })
def State.nextOp (s : State) (b : Nat) : State := s.startOps b (s.bank b).queue

/-- An abort: what the operation touched is undefined. -/
def State.abortOp (s : State) (b : Nat) : State :=
  match (s.bank b).cur with
  | none => s
  | some o =>
    let s1 := (s.spoil b o).modBank b (fun x => { x with cur := none, err := true, errCode := 4 })
    (s1.cnvCnt 5 1).nextOp b

/-- 0xF0: the identify view ends; from firmware a running program or erase is aborted too. -/
def State.resetBank (s : State) (who : ArrayIssuer) (b : Nat) : State :=
  let s1 := s.modBank b (·.dropView who)
  if isHost who then s1 else s1.abortOp b

/-- ARRAY_ABORT_RESET. -/
def execArrayAbortReset (who : ArrayIssuer) (bank : Nat) (s : State) : Out := guardUnit s (issuerOk who && bankOk bank) (s.resetBank who bank)

/-- ARRAY_SEQUENCE_TIMEOUT: a write more than 10 µs late drops the sequence. -/
def execArraySequenceTimeout (bank : Nat) (s : State) : Out :=
  guardUnit s (bankOk bank) (s.modBank bank (fun x => { x with seqStep := 0, errCode := 5 }))

/-- What a finished operation does to the array. -/
def State.opDone (s : State) (b : Nat) (o : ArrOp) (ok : Bool) : State :=
  if ok then (if o.op = 1 then (s.putPage b o.page o.data).cnvCnt 1 1 else (s.wipeSector b o.page).cnvCnt 2 1)
  else (s.spoil b o).cnvCnt (if o.op = 1 then 3 else 4) 1

/-- ARRAY_OPERATION_COMPLETE: the verify decides; the next request starts (R428). -/
def execArrayOperationComplete (bank : Nat) (ok : Bool) (s : State) : Out :=
  guardUnit s (bankOk bank)
    (match (s.bank bank).cur with
     | none => s
     | some o =>
       let s1 := (s.opDone bank o ok).modBank bank (fun x => { x with cur := none, progress := 100, err := !ok, errCode := if ok then 0 else 1 })
       s1.nextOp bank)

/-! The 168-hour scrub (R429). -/

/-- Log records whose place lies in a lost line are dropped (32 bytes each in the log of bank 0, R364). -/
def lostRecords (line : Nat) : List Nat := if 0x300000 ≤ line * 64 ∧ line * 64 < 0x380000 then [(line * 64 - 0x300000) / 32, (line * 64 - 0x300000) / 32 + 1] else []

/-- Has a line a second source (R429, class 8 of Table 11-1): the mirror of the boot region, the other copy of a bank-0 structure kept
twice (Table 15-2), and for a firmware slot the other slot with the diff (DEDUCED, log 117)? -/
def State.lineSource (s : State) (line : Nat) : Bool :=
  let b := line * 64 / 2 ^ 24
  let o := line * 64 % 2 ^ 24
  if b = 0 then
    decide (o < 0x2C0000) || (decide (0x2E0000 ≤ o) && decide (o < 0x300000)) || (decide (0x3C0000 ≤ o) && decide (o < 0x400000))
      || (decide (0xC00000 ≤ o) && decide (o < 0xC80000))
  else if b < 3 then (s.fwSlot (2 - b)).state == 1
  else false

/-- A line without a second source is gone: its bytes are undefined, and a firmware slot that held it is invalid. -/
def State.voidLine (s : State) (line : Nat) : State :=
  let r := drawBytes 64 s
  let s1 := { r.2 with cnv := { r.2.cnv with bytes := cellsPut r.2.cnv.bytes (line * 64) r.1 } }
  let b := line * 64 / 2 ^ 24
  if b = 1 ∨ b = 2 then s1.spoilSlot (b - 1) else s1

/-- A lost line: class 8 recovery takes a second source where one exists; persistent log records in it are dropped and counted. -/
def State.loseLine (s : State) (line : Nat) : State :=
  let gone := lostRecords line
  let kept := (s.flt.plog.zip (List.range s.flt.plog.length)).filter (fun p => !gone.contains p.2)
  let n := s.flt.plog.length - kept.length
  let s1 := (s.cnvCnt 7 1).cnvCnt 10 n
  let s2 := { s1 with flt := { s1.flt with plog := kept.map (fun p : FltRec × Nat => p.1) } }
  if s.lineSource line then s2.cnvCnt 8 1 else s2.voidLine line

/-- A line that passes only on retry has its sector rewritten: an erase and the programs of its pages (DEDUCED, log 117). -/
def State.rewriteSector (s : State) (n : Nat) : State :=
  let x := s.sect n
  let s1 := s.setSect n { x with erases := x.erases + 1, worn := x.worn || decide (10000 < x.erases + 1) }
  let s2 := if 10000 < x.erases + 1 then s1.queueFault { src := 745, level := 1, detail := n / 256 + n % 256 * 65536 * 4 } else s1
  (s2.cnvCnt 2 1).cnvCnt 1 x.progPages.length

/-- ARRAY_SCRUB: every line is read; `weak` are the lines that pass only on retry, `lost` those that fail. -/
def execArrayScrub (weak lost : List Nat) (s : State) : Out :=
  .next (
    let sects := (weak.filter (fun l => decide (l < 2 ^ 20))).map (fun l => l / 1024)
    let s1 := sects.eraseDups.foldl (fun t n => t.rewriteSector n) s
    let s2 := (lost.filter (fun l => decide (l < 2 ^ 20))).foldl (fun t l => t.loseLine l) s1
    s2.cnvCnt 9 1)

/-! The watchdog (R370 to R372). -/

/-- Watchdog resets of the last 10 minutes, this one among them, since the last restart on the last-known-good slot (DEDUCED, log 116). -/
def State.wdogRecent (s : State) : List Nat :=
  ((s.flt.wdogTimes ++ [s.nowMs]).filter (fun t => decide (s.nowMs < t + 600000) && (match s.flt.lkgAt with | some a => decide (a < t) | none => true)))

/-- Is a restart on the last-known-good slot within the last 10 minutes? -/
def State.lkgRecent (s : State) : Bool := match s.flt.lkgAt with | some a => decide (s.nowMs < a + 600000) | none => false

/-- The last-known-good slot. -/
def State.lkgSlot? (s : State) : Option Nat := tfind s.fwu.slots (fun _ x => x.lkg)

/-- WATCHDOG_EXPIRE: the control cores are reset, deferred while the array works. The third within 10 minutes is Critical, and the
last-known-good slot starts with reset; the third within 10 minutes after that is Fatal (DEDUCED, log 185). -/
def execWatchdogExpire (s : State) : Out :=
  .next (
    let n := s.wdogRecent.length
    let lvl := if n = 3 then (if s.lkgRecent then 4 else 3) else 1
    let s1 := s.ctlDown
    let s2 := { s1 with flt := { s1.flt with
      wdogTimes := (s.flt.wdogTimes ++ [s.nowMs]).filter (fun t => decide (s.nowMs < t + 600000))
      wdogTotal := satAdd 16 s.flt.wdogTotal 1, deferred := if s1.flt.wdogHold then satAdd 16 s.flt.deferred 1 else s.flt.deferred
      lkgAt := if lvl = 3 then some s.nowMs else s.flt.lkgAt }, fwu := { s1.fwu with imageMs := s.nowMs } }
    let s3 := s2.faultNow { src := 744, level := lvl }
    if lvl = 3 then
      (match s3.lkgSlot? with
       | some i => s3.activateReset i
       | none => s3.resetAll)
    else s3)

/-- CTL_RESTART: the control cores return, once no array operation holds them. -/
def execCtlRestart (s : State) : Out :=
  .next (if s.flt.ctlReset && !s.flt.wdogHold then
    let s1 : State := { s with flt := { s.flt with ctlReset := false } }
    s1.tryActivate
  else s)

end Sys2Proof.Machine
end

