-- ==== Sys2Proof/Machine/FwuRows.lean ====
section
/-! DEFINITION. The commands of field update (15, R431, R435 to R444). Each check takes the requester, so that a sideband endpoint
can update too (R439). -/

namespace Sys2Proof.Machine

/-! The lock (R436). -/

/-- Does another requester hold the staging lock? -/
def State.lockedOut (s : State) (r : Requester) : Bool := s.fwu.owner.isSome && s.fwu.owner != some r

/-- The owner has been heard: the idle time restarts. -/
def State.heardOwner (s : State) (r : Requester) : State :=
  if s.fwu.owner = some r then { s with fwu := { s.fwu with lastMs := s.nowMs } } else s

/-! Download (R435). -/

/-- Staging and a slot are erased. -/
def State.eraseStaging (s : State) (i : Nat) : State := (s.eraseRange 3 128 128).eraseRange (slotBank i) 0 256

/-- The lock, an empty inactive slot, the end of a migration window. -/
def State.takeLock (s : State) (i : Nat) (r : Requester) (ms : Nat) : State :=
  let s2 := s.setFwSlot i {}
  { s2 with fwu := { s2.fwu with owner := some r, lastMs := ms, staged := 0, applied := none, phase := 1, windowOpen := false } }

/-- The first piece. -/
def State.startStaging (s : State) (r : Requester) : State := (s.eraseStaging s.inactiveSlot).takeLock s.inactiveSlot r s.nowMs

/-- A piece goes into staging. -/
def State.stagePiece (s : State) (data : List Byte) : State :=
  let s1 := s.programRange 3 (0x800000 + s.fwu.staged) data
  { s1 with fwu := { s1.fwu with staged := s1.fwu.staged + data.length, applied := none, phase := 1 } }

/-- A piece has whole dwords, at most 2 MiB. -/
def pieceLenBad (n : Nat) : Bool := n == 0 || n % 4 != 0 || decide (2 * 2 ^ 20 < n)

/-- A download would erase the last-known-good slot while the running one is not known good (R431). -/
def State.guardsLkg (s : State) : Bool := s.running?.isSome && !(s.fwSlot s.runSlot).knownGood && (s.fwSlot s.inactiveSlot).lkg

/-- A later piece that does not continue the owner's sequence. -/
def State.pieceLost (s : State) (r : Requester) (off n : Nat) : Bool :=
  s.fwu.owner != some r || off != s.fwu.staged || s.fwu.staged % 4096 != 0 || decide (stagingMax < off + n)

/-- Firmware Image Download (PRESUMED, log 123). -/
def State.fwDownload (s : State) (r : Requester) (off : Nat) (data : List Byte) : Outc × State :=
  if s.lockedOut r then (errOut .updateLocked, s)
  else if pieceLenBad data.length then (errOut .invalidField, s.heardOwner r)
  else if off = 0 then
    if s.guardsLkg then (errOut .cmdSequence, s.heardOwner r)
    else (okOut 0, ((s.heardOwner r).startStaging r).stagePiece data)
  else if s.pieceLost r off data.length then (errOut .invalidField, s.heardOwner r)
  else (okOut 0, (s.heardOwner r).stagePiece data)

/-- FIRMWARE_IMAGE_DOWNLOAD: CDW11 holds the offset in dwords. -/
def execFirmwareImageDownload (c : Nat) (data : List Byte) (s : State) : Out :=
  guardUnit s (ctxOk c)
    (if s.adminTurn c 0x11 then
       let r := s.fwDownload (s.ctx c).who ((s.ctx c).sqe.cdw11.toNat * 4) data
       r.2.finish c r.1
     else s)

/-! Commit (R437, R438). -/

/-- FS of a commit, and the slot that it names for CA 000b, 001b and 011b: 0 is the inactive slot. -/
def fsOf (q : Sqe) : Nat := q.cdw10.toNat % 8
def State.fsSlot (s : State) (fs : Nat) : Option Nat :=
  if fs = 0 then some s.inactiveSlot
  else if 2 < fs ∨ s.running? = some (fs - 1) then none
  else some (fs - 1)

/-- A failed application (Table 15-10): the slot is invalid, the lock released. -/
def State.applyFail (s : State) (i code : Nat) : Outc × State :=
  let s1 := s.spoilSlot i
  let s2 := { s1 with fwu := { s1.fwu with phase := 6, result := code, applied := none } }
  (errOut (if code = 9 then .internalErr else .invalidFwImage), s2.unlockFwu)

/-- The slot's sectors that hold anything are erased again. -/
def State.clearSlot (s : State) (i : Nat) : State :=
  if (List.range 256).any (fun n => !(s.sect (sectOf (slotBank i) n)).progPages.isEmpty) then s.eraseRange (slotBank i) 0 256 else s

/-- The image and, behind it, the envelope are written into the slot. -/
def State.writeSlot (s : State) (i : Nat) (img env : List Byte) : State :=
  ((s.clearSlot i).programRange (slotBank i) 0 img).programRange (slotBank i) 0x800000 env

/-- Apply the staged package into slot i (R437), with the outcome where it fails; a package applied there already is not applied
again. -/
def State.applySlot (s : State) (i : Nat) (progOk : Bool) : Option Outc × State :=
  let failed (r : Outc × State) : Option Outc × State := (some r.1, r.2)
  if s.fwu.applied = some i then (none, s)
  else
    let env := s.arrRead stagingBase s.fwu.staged
    match applyPackage env s.fwu.staged (s.running?.map s.slotImage) with
    | .error code => failed (s.applyFail i code)
    | .ok img =>
      let s1 := s.writeSlot i img env
      if progOk then
        let s2 := s1.setFwSlot i (slotOf img)
        (none, { s2 with fwu := { s2.fwu with phase := 5, result := 0, applied := some i } })
      else
        let p := drawNat s1
        failed (((p.2.spoilPage (slotBank i) (p.1 % max 1 (ceilDiv img.length 256))).cnvCnt 3 1).applyFail i 9)

/-- Mark slot i NEXT. -/
def State.markNext (s : State) (i : Nat) : State :=
  { s with fwu := { s.fwu with slots := [0, 1].foldl (fun t k => tset t k { (tval t k : FwSlot) with next := k == i }) s.fwu.slots } }

/-- No slot is NEXT. -/
def State.clearNext (s : State) : State :=
  { s with fwu := { s.fwu with slots := tmap s.fwu.slots (fun _ x => { x with next := false }) } }

/-- CA 000b: apply only (DEDUCED, log 118). -/
def State.fwApply (s : State) (r : Requester) (fs : Nat) (progOk : Bool) : Outc × State :=
  if s.lockedOut r then (errOut .updateLocked, s)
  else match s.fsSlot fs with
  | none => (errOut .invalidFwSlot, s.heardOwner r)
  | some i =>
    let a := (s.heardOwner r).applySlot i progOk
    match a.1 with
    | some e => (e, a.2)
    | none => (okOut 0, a.2.unlockFwu)

/-- CA 001b: apply and mark NEXT (DEDUCED, log 122). -/
def State.fwApplyNext (s : State) (r : Requester) (fs : Nat) (progOk : Bool) : Outc × State :=
  if s.lockedOut r then (errOut .updateLocked, s)
  else match s.fsSlot fs with
  | none => (errOut .invalidFwSlot, s.heardOwner r)
  | some i =>
    let a := (s.heardOwner r).applySlot i progOk
    match a.1 with
    | some e => (e, a.2)
    | none => if a.2.prohibited i then (errOut .fwProhibited, a.2) else (okOut 0, (a.2.markNext i).unlockFwu)

/-- CA 010b: mark a slot NEXT; the running slot clears NEXT. -/
def State.fwMarkNext (s : State) (r : Requester) (fs : Nat) : Outc × State :=
  if s.lockedOut r then (errOut .updateLocked, s)
  else
    let t := s.heardOwner r
    if fs = 0 ∨ 2 < fs then (errOut .invalidFwSlot, t)
    else if s.running? = some (fs - 1) then (okOut 0, t.clearNext.unlockFwu)
    else if (s.fwSlot (fs - 1)).state ≠ 1 then (errOut .invalidFwImage, t)
    else if s.prohibited (fs - 1) then (errOut .fwProhibited, t)
    else (okOut 0, (t.markNext (fs - 1)).unlockFwu)

/-- CA 011b: apply and activate. The first part is the outcome where the command ends at once; otherwise `w` waits. In recovery an
activation restarts with reset (R432). -/
def State.fwActivate (s : State) (w : Waiter) (r : Requester) (fs : Nat) (progOk : Bool) : Option Outc × State :=
  if s.lockedOut r then (some (errOut .updateLocked), s)
  else match s.fsSlot fs with
  | none => (some (errOut .invalidFwSlot), s.heardOwner r)
  | some i =>
    let a := (s.heardOwner r).applySlot i progOk
    let t := a.2
    match a.1 with
    | some e => (some e, t)
    | none =>
      if t.prohibited i then (some (errOut .fwProhibited), t)
      else if s.fwu.activating.isSome then (some (errOut .cmdSequence), t)
      else if (t.fwSlot i).resetReq then (some (errOut .fwNeedsReset), t.markNext i)
      else if s.running?.isNone then (some (okOut 0), t.unlockFwu.activateReset i)
      else (none, ({ t with fwu := { t.fwu with activating := some (w, i) } }).tryActivate)

/-- FIRMWARE_COMMIT_APPLY. -/
def execFirmwareCommitApply (c : Nat) (progOk : Bool) (s : State) : Out :=
  guardUnit s (ctxOk c)
    (if s.subTurn c 0x10 (fun q => q.cdw10.toNat / 8 % 8 == 0) then
       let r := s.fwApply (s.ctx c).who (fsOf (s.ctx c).sqe) progOk
       r.2.finish c r.1
     else s)

/-- FIRMWARE_COMMIT_APPLY_NEXT. -/
def execFirmwareCommitApplyNext (c : Nat) (progOk : Bool) (s : State) : Out :=
  guardUnit s (ctxOk c)
    (if s.subTurn c 0x10 (fun q => q.cdw10.toNat / 8 % 8 == 1) then
       let r := s.fwApplyNext (s.ctx c).who (fsOf (s.ctx c).sqe) progOk
       r.2.finish c r.1
     else s)

/-- FIRMWARE_COMMIT_MARK_NEXT. -/
def execFirmwareCommitMarkNext (c : Nat) (s : State) : Out :=
  guardUnit s (ctxOk c)
    (if s.subTurn c 0x10 (fun q => q.cdw10.toNat / 8 % 8 == 2) then
       let r := s.fwMarkNext (s.ctx c).who (fsOf (s.ctx c).sqe)
       r.2.finish c r.1
     else s)

/-- FIRMWARE_COMMIT_ACTIVATE: the command waits while the activation does; met again, it looks whether the activation can go on. -/
def execFirmwareCommitActivate (c : Nat) (progOk : Bool) (s : State) : Out :=
  guardUnit s (ctxOk c)
    (if s.fwu.activating.any (fun e => e.1 == .ctx c) then s.tryActivate
     else if s.subTurn c 0x10 (fun q => q.cdw10.toNat / 8 % 8 == 3) then
       let r := (s.park c).fwActivate (.ctx c) (s.ctx c).who (fsOf (s.ctx c).sqe) progOk
       match r.1 with
       | some o => if (r.2.ctx? c).isSome then r.2.finish c o else r.2
       | none => r.2
     else s)

/-! Time and pins. -/

/-- ACTIVATION_TIMEOUT (R126): at 1 s with commands still in flight the activation is abandoned. -/
def execActivationTimeout (s : State) : Out :=
  .next (if s.cmd.activationPause ∧ s.fwu.pauseMs + 1000 ≤ s.nowMs then s.dropActivation (errOut .fwMaxTime) else s)

/-- STAGING_LOCK_IDLE_EXPIRE: 10 minutes without a download or a commit from the owner. -/
def execStagingLockIdleExpire (s : State) : Out := .next (if s.fwu.owner.isSome ∧ s.fwu.lastMs + 600000 ≤ s.nowMs then s.unlockFwu else s)

/-- FWU_CTL.ABORT: ends the download sequence or the application and releases the lock; refused in the phases idle, done, failed and
aborted. -/
def State.fwuAbort (s : State) (v : Nat) : State :=
  if v % 2 = 0 then s
  else if s.fwu.phase = 0 ∨ 5 ≤ s.fwu.phase then { s with fwu := { s.fwu with abortAct := wsNow false } }
  else
    let s1 := { s with fwu := { s.fwu with phase := 7, applied := none, abortAct := wsNow true } }
    s1.unlockFwu

/-- FWU_ABORT. -/
def execFwuAbort (s : State) : Out := .next (s.fwuAbort 1)

/-- KNOWN_GOOD_TIMER (R431): the running image has run for an hour past admin ready without a watchdog reset. -/
def execKnownGoodTimer (s : State) : Out :=
  .next (match s.running? with
    | none => s
    | some i =>
      if s.glb.adminReady && !s.flt.ctlReset && decide (s.fwu.imageMs + 3600000 ≤ s.nowMs) then
        { s with fwu := { s.fwu with slots := [0, 1].foldl (fun t k =>
            tset t k { (tval t k : FwSlot) with knownGood := (tval t k : FwSlot).knownGood || k == i, lkg := k == i }) s.fwu.slots } }
      else s)

/-- MIGRATION_WINDOW_END (R444): 24 power-on hours after the first start the old copies are released. -/
def execMigrationWindowEnd (s : State) : Out :=
  .next (if s.fwu.windowMin + 1440 ≤ s.lifeMinutes then { s with fwu := { s.fwu with windowOpen := false } } else s)

end Sys2Proof.Machine
end

