-- ==== Sys2Proof/Machine/PatRows.lean ====
section
/-! DEFINITION. Pattern Load and Panel Reload (02, R56 to R64). -/

namespace Sys2Proof.Machine

/-! Sessions and pieces. -/

/-- The session a requester's commands of a role run under. -/
def State.sessionOf (s : State) (r : Requester) : Option Nat := tfind s.sec.sessions (fun _ x => x.who == r && x.role != 1)

/-- Does another live session hold a sequence? -/
def State.heldByOther (s : State) (h : Option Nat) (r : Requester) : Bool :=
  match h with
  | none => false
  | some i => (tget s.sec.sessions i).isSome && h != s.sessionOf r

/-- What an image is validated against (R50, R51) (DEDUCED, log 120). -/
def State.valCtx (s : State) (reload : Bool) : ValCtx :=
  { custKeys := [12, 13, 14, 15].filterMap (fun k => if (s.key k).key.isEmpty then none else some (k, (s.key k).key))
    fwVer := (s.fwSlot s.runSlot).ver, reload := reload, active := { s.pat.eff with dram := s.pat.coldDram }, activeSeq := s.pat.seq
    boundTmpls := ((s.sli.filter (fun e => e.1 != 0 && e.2.state != .free)).map (fun e => e.2.template)).eraseDups }

/-- DW0 of a failed validation (R57). -/
def PatErr.dw0 (e : PatErr) : Nat := e.code % 256 + e.panel % 256 * 256 + min e.offset 0xFFFF * 65536

/-! Pattern Load. -/

def slotMax : Nat := 4 * 2 ^ 20
def patOff (slot : Nat) : Nat := slot * 0x400000

/-- The slot that CDW10 names, and whether the active Pattern came from it (R58). -/
def patSlotOf (q : Sqe) : Nat := q.cdw10.toNat / 256 % 2

/-- Has a slot no programmed page? -/
def State.slotErased (s : State) (slot : Nat) : Bool := (List.range 64).all (fun i => (s.sect (sectOf 3 (64 * slot + i))).progPages.isEmpty)

/-- The validation of a slot as it stands. -/
def State.validateSlot (s : State) (slot : Nat) : PatSlot :=
  slotResult (s.valCtx false) (s.arrRead (bankBase 3 + patOff slot) slotMax) (s.slotErased slot)

def State.setPatSlot (s : State) (slot : Nat) (v : PatSlot) : State := { s with pat := { s.pat with slots := tset s.pat.slots slot v } }

/-- The sequence's hold is dropped. -/
def State.dropLoad (s : State) : State := { s with pat := { s.pat with loadHolder := none, loadNext := 0 } }

/-- A piece that cannot be taken: into the active slot, out of order or of the slot, cut short, or of no sequence of this slot. -/
def State.pieceBad (s : State) (data : List Byte) (slot off n : Nat) : Bool :=
  s.pat.source == slot || !pieceOk s.pat.loadNext off n || decide (slotMax < off + n) || data.length != n
    || (off != 0 && (s.pat.loadHolder.isNone || s.pat.loadSlot != slot))

/-- A first piece erases its slot. Until the next validation PAT_SLOT reads the slot as erased (DESIGN CHOICE, log 168). -/
def State.startSlot (s : State) (slot off : Nat) : State :=
  if off = 0 then (s.eraseRange 3 (64 * slot) 64).setPatSlot slot {} else s

/-- The session that loads, its slot and where its next piece begins. -/
def State.holdLoad (s : State) (h : Option Nat) (slot nxt : Nat) : State :=
  { s with pat := { s.pat with loadHolder := h, loadSlot := slot, loadNext := nxt, loadMs := s.nowMs } }

/-- A Pattern Load of the session that loads restarts the 10 minutes (R59). -/
def State.heardLoad (s : State) (r : Requester) : State :=
  if s.pat.loadHolder.isSome ∧ s.pat.loadHolder = s.sessionOf r then { s with pat := { s.pat with loadMs := s.nowMs } } else s

/-- A transfer: at offset 0 the slot is erased first; a later piece continues the sequence (R57). -/
def State.patPiece (s : State) (r : Requester) (data : List Byte) (slot off n : Nat) : Outc × State :=
  if s.heldByOther s.pat.loadHolder r then (errOut .panelBusy, s)
  else if s.pieceBad data slot off n then (errOut .invalidField, s.heardLoad r)
  else (okOut 0, ((s.startSlot slot off).programRange 3 (patOff slot + off) data).holdLoad (s.sessionOf r) slot (off + n))

/-- A piece of a Pattern image as the command gives it. -/
def State.patTransfer (s : State) (r : Requester) (q : Sqe) (data : List Byte) : Outc × State :=
  s.patPiece r data (patSlotOf q) q.cdw11.toNat q.cdw12.toNat

/-- A commit validates the slot and ends the sequence. -/
def State.patCommit (s : State) (r : Requester) (q : Sqe) : Outc × State :=
  let slot := patSlotOf q
  if s.heldByOther s.pat.loadHolder r then (errOut .panelBusy, s)
  else
    let v := s.validateSlot slot
    let s1 := (s.setPatSlot slot v).dropLoad
    if v.err = 0 then (okOut 0, s1)
    else
      let e : PatErr := if s.slotErased slot then { code := 0x01, offset := 0 } else { code := v.err, panel := v.panel, offset := v.offset }
      ({ sv := stv .invalidField, dw0 := e.dw0 }, s1)

/-- An erase ends the sequence too. -/
def State.patErase (s : State) (r : Requester) (q : Sqe) : Outc × State :=
  let slot := patSlotOf q
  if s.heldByOther s.pat.loadHolder r then (errOut .panelBusy, s)
  else if s.pat.source = slot then (errOut .invalidField, s.heardLoad r)
  else (okOut 0, ((s.eraseRange 3 (64 * slot) 64).setPatSlot slot {}).dropLoad)

/-- PATTERN_LOAD_TRANSFER. -/
def execPatternLoadTransfer (c : Nat) (data : List Byte) (s : State) : Out :=
  guardUnit s (ctxOk c)
    (if s.subTurn c 0xD1 (fun q => q.cdw10.toNat % 4 == 0) then
       let r := s.patTransfer (s.ctx c).who (s.ctx c).sqe data
       r.2.finish c r.1
     else s)

/-- PATTERN_LOAD_COMMIT. -/
def execPatternLoadCommit (c : Nat) (s : State) : Out :=
  guardUnit s (ctxOk c)
    (if s.subTurn c 0xD1 (fun q => q.cdw10.toNat % 4 == 1) then
       let r := s.patCommit (s.ctx c).who (s.ctx c).sqe
       r.2.finish c r.1
     else s)

/-- PATTERN_LOAD_ERASE. -/
def execPatternLoadErase (c : Nat) (s : State) : Out :=
  guardUnit s (ctxOk c)
    (if s.subTurn c 0xD1 (fun q => q.cdw10.toNat % 4 == 2) then
       let r := s.patErase (s.ctx c).who (s.ctx c).sqe
       r.2.finish c r.1
     else s)

/-- PATTERN_LOAD_IDLE_EXPIRE: 10 minutes without a Pattern Load from the session (R59). -/
def execPatternLoadIdleExpire (s : State) : Out :=
  .next (if s.pat.loadHolder.isSome ∧ s.pat.loadMs + 600000 ≤ s.nowMs then s.dropLoad else s)

/-! Panel Reload. -/

/-- Bytes a reload image may have (R60). -/
def State.reloadMax (s : State) : Nat := if s.pat.eff.dram.isSome then 4 * 2 ^ 20 else 512 * 1024

/-- D4h from another session, while a reload drains or applies, or during an activation (R61). -/
def State.reloadBusy (s : State) (r : Requester) : Bool :=
  (s.fwu.activating.isSome && !s.reloadOn) || s.reloading || (s.pat.reload.phase == 1 && s.heldByOther s.pat.reload.holder r)

/-- PANEL_RELOAD_TRANSFER. -/
def execPanelReloadTransfer (c : Nat) (data : List Byte) (s : State) : Out :=
  guardUnit s (ctxOk c)
    (if s.subTurn c 0xD4 (fun q => q.cdw10.toNat % 4 == 0) then
       let q := (s.ctx c).sqe
       let off := q.cdw11.toNat
       let n := q.cdw12.toNat
       let have_ := if s.pat.reload.phase = 1 then s.pat.reload.staged.length else 0
       if s.reloadBusy (s.ctx c).who then s.finish c (errOut .panelBusy)
       else if !pieceOk have_ off n || decide (s.reloadMax < off + n) || data.length != n || (off != 0 && s.pat.reload.phase != 1) then
         s.finish c (errOut .invalidField)
       else
         let b := if off = 0 then data else s.pat.reload.staged ++ data
         ({ s with pat := { s.pat with reload := { s.pat.reload with phase := 1, staged := b, holder := s.sessionOf (s.ctx c).who } } }).finish c (okOut 0)
     else s)

/-- Route slots whose binding a new seam table changes. -/
def State.changedRoutes (s : State) (fs : List Frame) : List Nat :=
  match fs.find? (fun f => f.type == 0x0A) with
  | none => []
  | some f =>
    let old := boundRoutes s.pat.eff
    let new := boundRoutes (applyPanel s.pat.eff f)
    ((old ++ new).map (·.route)).eraseDups.filter (fun r => old.find? (fun x => x.route == r) != new.find? (fun x => x.route == r))

/-- Route slots with a stage on a weave half that the image carries. -/
def State.weaveRoutes (s : State) (fs : List Frame) : List Nat :=
  let hs := (fs.filter (fun f => f.type == 0x0B)).map (·.inst)
  (s.routes.filter (fun e => e.2.stages.any (fun w => stageKind w == kWeave && hs.contains (stageParam w / 128)))).map (·.1)

/-- PANEL_RELOAD_APPLY: VALIDATING, then DRAINING where a seam table or a weave is carried (R62). -/
def execPanelReloadApply (c : Nat) (s : State) : Out :=
  guardUnit s (ctxOk c)
    (if s.subTurn c 0xD4 (fun q => q.cdw10.toNat % 4 == 1) then
       if s.reloadBusy (s.ctx c).who then s.finish c (errOut .panelBusy)
       else
         let img := if s.pat.reload.phase = 1 then s.pat.reload.staged else []
         let e := validate (s.valCtx true) img
         if e.code ≠ 0 then
           let s1 := { s with pat := { s.pat with reload := { s.pat.reload with phase := 6, panel := e.panel, seq := imgSeq img } } }
           (s1.finish c { sv := stv .invalidField, dw0 := e.dw0 }).tryActivate
         else
           let fs := (imgFrames img).1
           let dr := ((s.changedRoutes fs ++ s.weaveRoutes fs).eraseDups).filter (fun r => (s.route r).state != .free)
           let drains := fs.any (fun f => f.type == 0x0A || f.type == 0x0B)
           let s1 := dr.foldl (fun t r => t.modRoute r (fun x => { (x.goTo .draining) with pend := true })) (s.park c)
           let s2 := { s1 with pat := { s1.pat with reload := { s1.pat.reload with
               phase := if drains then 3 else 4, panel := 0, seq := imgSeq img, frames := fs, waiter := some (.ctx c), draining := dr } } }
           dr.foldl (fun t r => t.leaveDrain r) s2
     else s)

/-- A slot takes a binding, through BINDING, or becomes FREE. -/
def State.rebind (s : State) (r : Nat) (n : Option RouteRec) : State :=
  match n with
  | some x => s.modRoute r (fun y => { (y.goTo .binding) with pend := false, dir := x.dir, jobOnly := x.jobOnly, stages := x.stages })
  | none => s.modRoute r (fun y => { (y.goTo .free) with pend := false, dir := false, jobOnly := false, stages := [] })

/-- A weave half is loaded: its cells and memories take their initial values. -/
def State.loadHalf (s : State) (h seq : Nat) : State :=
  { s with wvf := tset s.wvf h { (tval s.wvf h : Half) with loaded := true, panelSeq := seq, cells := [] } }

/-- A counter stopped, loaded with its preset and 0, and restarted. -/
def presetCtr (p : CtrPreset) : Ctr :=
  { en := true, select := p.select, slice := p.slice, island := p.island, level := p.level, thrInt := p.thrInt, thr := p.thresh }

def State.loadPresets (s : State) (l : List CtrPreset) : State := { s with ctrs := l.foldl (fun t p => tset t p.counter (presetCtr p)) s.ctrs }

/-- The key under which a frame's panel is in effect. -/
def Frame.key (f : Frame) : Nat := f.type + f.inst * 256

/-- One warm panel switches (Table 2-10). Templates reach their slices at the next epoch; thresholds, power policy and calibration
bounds are met by what comes after. -/
def State.applyWarm (s : State) (f : Frame) : State :=
  let ch := s.changedRoutes [f]
  let wr := s.weaveRoutes [f]
  let s1 : State := { s with pat := { s.pat with eff := applyPanel s.pat.eff f, panels := insertNat s.pat.panels f.key } }
  if f.type = 0x0A then
    ch.foldl (fun t r => t.rebind r ((boundRoutes s1.pat.eff).find? (fun x => x.route == r))) s1
  else if f.type = 0x09 then { s1 with pat := { s1.pat with oldTmpls := some (s.pat.oldTmpls.getD s.pat.eff.slices) } }
  else if f.type = 0x0B then
    let s2 := (s1.access (islWVF f.inst)).loadHalf f.inst s.pat.reload.seq
    wr.foldl (fun t r => if (t.route r).pend then t.modRoute r (fun y => { (y.goTo .binding) with pend := false }) else t) s2
  else if f.type = 0x0C then { s1 with flt := { s1.flt with srcs := tmap s1.flt.srcs (fun _ x => { x with window := [] }) } }
  else if f.type = 0x0F then s1.loadPresets (s1.pat.eff.counters.getD [])
  else s1

/-- The drain is over: every draining slot's last seat is released. -/
def State.drainOver (s : State) : Bool := s.pat.reload.draining.all (fun r => (s.route r).seats == 0)

/-- RELOAD_DRAIN_COMPLETE: the panels apply in frame order. A unit that faults at ordinal `failAt` ends the reload there: the panels
before it stay, it and the later ones keep their old content (R64). The reload is paused in the safe state, and waits for the
control cores. -/
def execReloadDrainComplete (failAt : Option Nat) (s : State) : Out :=
  .next (if s.reloading && !s.flt.safe && s.ctlUp && s.drainOver then
    let fs := s.pat.reload.frames
    match failAt.filter (fun k => decide (k < fs.length)) with
    | some k =>
      let s1 := (fs.take k).foldl (fun t f => t.applyWarm f) s
      let s2 := { s1 with pat := { s1.pat with gen := if k = 0 then s1.pat.gen else s1.pat.gen + 1 } }
      (s2.failReload k).tryActivate
    | none =>
      let s1 := fs.foldl (fun t f => t.applyWarm f) s
      let s2 := { s1 with pat := { s1.pat with reloaded := true, gen := s1.pat.gen + 1, lastPartial := s1.pat.reload.staged } }
      (s2.endReload 5 (fs.length - 1) (okOut 0)).tryActivate
  else s)

/-- PAT_RELOAD_CTL.ABANDON: only in DRAINING (R63). -/
def State.abandonWrite (s : State) (v : Nat) : State :=
  let put (s : State) (ok : Bool) : State := { s with pat := { s.pat with reload := { s.pat.reload with abandonAct := wsNow ok } } }
  if v % 2 = 0 then s
  else if s.pat.reload.phase = 3 then ((put s true).endReload 7 0 (errOut .abortRequested)).tryActivate
  else put s false

/-- RELOAD_ABANDON. -/
def execReloadAbandon (s : State) : Out := .next (s.abandonWrite 1)

end Sys2Proof.Machine
end

