-- ==== Sys2Proof/Machine/Electric.lean ====
section
/-! DEFINITION. Supplies, the reference clock, the voltage request, and the fetch hold (17 R466 to R469, 16 R459). -/

namespace Sys2Proof.Machine

/-! Pins that follow other state (R464, R466, R393, Table 13-5). -/

/-- FAULT_N is low while device fatal or the safe state holds (Table 17-3). -/
def State.faultN (s : State) : Bool := !(s.flt.safe || s.flt.fatal)

/-- The frame of a voltage request: 0xA, CODE, and the XOR of the three nibbles above the last (R466). -/
def vreqFrame (code : Nat) : Nat :=
  let c := code % 256
  0xA000 + c * 16 + ((0xA ^^^ (c / 16)) ^^^ (c % 16))

/-- What a held pad drives. -/
inductive PadLevel where
  | high
  | low
  | highZ
  | keep
  deriving DecidableEq, Repr, Inhabited

/-- The held levels of a PAD_PLAN group (Table 13-5); DQ and DQS of a flash channel have their pull-down. -/
def heldLevels (g : Nat) : List (String × PadLevel) :=
  if g < 0x40 then [("CE_N", .high), ("WP_N", .low), ("WE_N", .high), ("ALE", .low), ("CLE", .low), ("RE_t", .high), ("RE_c", .low), ("DQ", .highZ), ("DQS", .highZ)]
  else if g < 0x50 then [("BAY_PWREN", .keep), ("BAY_RST_N", .keep), ("BAY_LED", .keep)]
  else if g < 0x58 then [("CS", .low), ("CA", .low), ("CK_t", .low), ("WCK_t", .low), ("CK_c", .high), ("WCK_c", .high), ("DM_RESET_N", .high), ("DQ", .highZ),
    ("DMI", .highZ), ("RDQS", .highZ)]
  else []

/-- The island that owns a pad group (R393). -/
def padIsland (g : Nat) : Nat := if g < 0x40 then islMCL (g / 4) else if g < 0x50 then islMCL (g - 0x40) else if g < 0x58 then islDMI (g - 0x50) else islAON

/-- PAD_PLAN SAFE: the level of a bay-control group's outputs while its island is absent (R20); flash and DRAM groups ignore it. -/
def padSafe (v : Nat) : PadLevel := if v = 0 then .low else if v = 1 then .high else .highZ

/-- The levels a held group drives; none while no holder holds it (R393, R394). -/
def State.padLevels (s : State) (g : Nat) : List (String × PadLevel) :=
  let i := padIsland g
  let x := s.isle i
  if i = islAON then []
  else if !present s.pat.eff i ∧ 0x40 ≤ g ∧ g < 0x50 then (heldLevels g).map (fun p => (p.1, padSafe ((s.pat.eff.pad.find? (fun q => q.group == g)).getD {}).safe))
  else if x.sleepHold || x.safeHold || x.removalHold || !present s.pat.eff i then heldLevels g
  else []

/-! The voltage request (R466, R467). -/

/-- The board serves the request: it is confirmed, and the points that waited for it are taken. -/
def State.confirmVdd (s : State) : State :=
  let l := s.glb.vreqRaise
  let s1 := { s with glb := { s.glb with vreqOk := s.glb.vreqCode, vreqRaise := [] } }
  (l.foldl (fun t e => t.setPoint e.1 e.2) s1).lowerVdd

/-- VREQ_ALERT: the pin rises and confirms the request, or falls. -/
def execVreqAlert (high : Bool) (s : State) : Out :=
  .next (if high then
    let s1 : State := { s with glb := { s.glb with vreqAlertN := true, vreqHighAt := if s.glb.vreqAlertN then s.glb.vreqHighAt else s.nowMs } }
    if s1.glb.vreqBlocked then s1 else s1.confirmVdd
  else { s with glb := { s.glb with vreqAlertN := false } })

/-- The fastest point of an island that a voltage serves; the slowest where none does. -/
def State.pointFor (s : State) (i mv : Nat) : Nat :=
  let l := s.islPoints i
  (l.findIdx? (fun p => decide (p.2 ≤ mv))).getD (l.length - 1)

/-- VREQ_ALERT_TIMEOUT: a Degraded fault of source 886; islands keep to points that the last confirmed voltage serves, and no raise
follows until the pin has been high for 1 s. -/
def execVreqAlertTimeout (s : State) : Out :=
  .next (if s.glb.vreqAlertN then s else
    let s1 : State := { s with glb := { s.glb with vreqBlocked := true, vreqRaise := [], vreqCode := s.glb.vreqOk } }
    let s2 := ((List.range 72).filter (fun i => i != 0 && present s.pat.eff i)).foldl (fun t i =>
      let p := t.pointFor i (vreqMv t.glb.vreqOk)
      if (t.isle i).point < p then t.setPoint i p else t) s1
    s2.faultNow { src := 886, level := 2 })

/-- VDD_SRAM_MEASURE (R467): a request above the measured value plus 50 mV is clamped. -/
def execVddSramMeasure (mv : Nat) (s : State) : Out :=
  .next (
    let s1 : State := { s with glb := { s.glb with vddSramMv := mv } }
    if vreqMv s.glb.vreqCode ≤ s1.sramCap then s1
    else
      let s2 := s1.noteClamp
      let s3 := ((List.range 72).filter (fun i => i != 0 && present s.pat.eff i)).foldl (fun t i =>
        let p := t.pointFor i t.sramCap
        if (t.isle i).point < p then t.setPoint i p else t) s2
      let code := min s.glb.vreqCode ((s3.sramCap - 500) / 5)
      { s3 with glb := { s3.glb with vreqCode := max 10 code, vreqOk := min s3.glb.vreqOk (max 10 code)
                                     vreqRaise := s3.glb.vreqRaise.filter (fun e => decide (((s3.islPoints e.1).getD e.2 (0, 0)).2 ≤ s3.sramCap)) } })

/-- POWER_GOOD_LOSS (R468): a PG input low for 2 µs: inputs 0 PG_CORE, 1 PG_SRAM, 2 PG_IO. Fatal, whatever the policy (DEDUCED, log 128). -/
def execPowerGoodLoss (input : Nat) (s : State) : Out :=
  guardUnit s (decide (input < 3))
    (({ s with glb := { s.glb with pgLost := insertNat s.glb.pgLost input } }).faultNow { src := 886, level := 4, detail := input })

/-- The PLL of an island loses lock: a Critical fault; DETAIL holds the transfers refused and the lock losses (Table 12-1). -/
def State.lockLost (s : State) (i : Nat) : State :=
  let s1 := s.modIsl i (fun x => { x with lockLosses := satAdd 16 x.lockLosses 1 })
  s1.faultNow { src := 144 + i, level := 3, detail := (s1.isle i).xingFail + (s1.isle i).lockLosses * 65536 }

/-- REFCLK_LOSS (R469): every PLL loses lock, a Critical fault of each island concerned, and AON enters the safe state. A UCM island
runs from its link's clock and has no PLL of its own here; AON runs from its oscillator (DEDUCED, log 129). -/
def execRefclkLoss (s : State) : Out :=
  .next (
    let l := (List.range 72).filter (fun i => i != 0 && !isUcm i && present s.pat.eff i)
    let s1 := l.foldl (fun t i => t.lockLost i) { s with glb := { s.glb with refclk := false } }
    s1.enterSafe (144 + l.headD 0) (s1.flt.nextSeq - 1))

/-! The fetch hold (R459). -/

/-- Is a hold refused: the slice FREE, RESETTING or REMOVING? -/
def State.holdRefused (s : State) (sl : Nat) : Bool := s.sliceGone sl

/-- A write of GLB_HOLD (DEDUCED, log 130). -/
def State.holdWrite (s : State) (sl : Nat) (on : Bool) : State :=
  if s.holdRefused sl then { s with glb := { s.glb with holdAct := wsShown (sl + on.toNat * 2048) } }
  else
    let s1 := s.modSli sl (fun q => { q with hold := on })
    { s1 with glb := { s1.glb with holdSlice := sl, holdSet := on, holdAct := wsNow true } }

/-- FETCH_HOLD. -/
def execFetchHold (slice : Nat) (s : State) : Out := guardUnit s (sliceOk slice) (s.holdWrite slice true)

/-- FETCH_RELEASE. -/
def execFetchRelease (slice : Nat) (s : State) : Out := guardUnit s (sliceOk slice) (s.holdWrite slice false)

end Sys2Proof.Machine
end

