-- ==== Sys2Proof/Machine/StartOps.lean ====
section
/-! DEFINITION. Start-up (16): what a power loss takes away, what a start clears and keeps, and steps 2 to 9 of Table 16-1. -/

namespace Sys2Proof.Machine

/-! What a power loss takes away (R116, R119, R120, R149, R163). -/

/-- Every command ends without a completion, the latest first. -/
def State.dropCtx (s : State) (c : Nat) : State :=
  if (s.ctx c).committed then (s.dropWaiter c).freeCtx c else (s.dropWaiter c).vanish c
def State.dropCtxs (s : State) : State := (byFseq s.cmd.ctxs).reverse.foldl (fun t e => t.dropCtx e.1) s

/-- The units of the write buffer that power takes with it: committed and not durable. -/
def State.lostUnits (s : State) : List (Nat × Line) := (s.undurable (fun _ => true)).filterMap (fun k => (s.lineAt k).map (fun l => (k, l)))

/-- The end of a zone's durable prefix. -/
def State.durablePrefix (s : State) (e n : Nat) : Nat := ((List.range n).find? (fun i => !s.unitDurable (s.zoneLoc e i))).getD n

/-- An active zone comes back Closed, its WP at the end of its durable prefix; what the buffer holds beyond is dropped (DEDUCED, log 134). -/
def State.cutZone (s : State) (e : Nat) : State :=
  let z := s.zent e
  if z.state.active then
    let w := s.durablePrefix e z.wp
    let s1 := ((List.range (z.wp - w)).map (fun i => s.zoneLoc e (w + i))).foldl (fun t k => t.dropLine k) s
    s1.setZent e { z with state := .closed, wp := w, filled := w, rowsTaken := false }
  else s

/-- What the journal gives for an entry: a location whose data is not on flash any more reads as Unrecovered (DEDUCED, log 133). -/
def State.mapAtStart (s : State) (b : MapBack) (gen : Nat) : MapEnt :=
  match b.loc with
  | none => { unc := b.unc, gen := (gen + 1) % 65536 }
  | some k => if s.unitDurable k then { loc := some k, unc := b.unc, gen := (gen + 1) % 65536 } else { unc := true, gen := (gen + 1) % 65536 }

/-- Which state of an entry the journal holds: the last with data, or a later change without data (R115, DEDUCED, log 133). -/
def State.pickBack (s : State) (b : MapBack) : MapBack × State :=
  if b.alts.isEmpty then (b, s)
  else
    let r := drawNat s
    match b.alts[r.1 % (b.alts.length + 1)]? with
    | some u => ({ unc := u }, r.2)
    | none => (b, r.2)

/-- One map entry: a location that was lost goes back to what the journal holds; a change without data that no Flush covered
survives or not, as it happens (R115, R164) (DESIGN CHOICE, log 132; DEDUCED, log 133). -/
def State.cutEntry (s : State) (lost : List Nat) (k : Nat) (m : MapEnt) : State :=
  match m.loc, m.back with
  | some u, b =>
    if lost.contains u then
      let q := s.pickBack (b.getD { unc := true })
      q.2.setMap k (q.2.mapAtStart q.1 m.gen)
    else s.setMap k { m with back := none }
  | none, some b =>
    let r := drawBool s
    if r.1 then r.2.setMap k { m with back := none }
    else
      let q := r.2.pickBack b
      q.2.setMap k (q.2.mapAtStart q.1 m.gen)
  | none, none => s

/-- Stripe rows whose programs had not all been reported are programmed again, from their lines. -/
def State.restRows (s : State) : State :=
  { s with med := { s.med with rows := tmap s.med.rows (fun _ r =>
      if r.padded then { r with state := .full, waiting := [], passed := [], failing := [], lost := [] }
      else ({ r with state := .open, waiting := [], passed := [], failing := [], lost := [] } : SRow).settle (s.rowSize r)) } }

/-- Landings without every die's report are gone; their blocks are erased. -/
def State.dropLandings (s : State) : State :=
  s.med.landings.foldl (fun t e =>
    if e.2.waiting.isEmpty then t
    else e.2.dies.foldl (fun u p => u.modBlk p.1 p.2 (fun b => { b with needErase := true }))
      { t with med := { t.med with landings := tdel t.med.landings e.1 } }) s

/-- Media work ends: relocations are abandoned, dies hold no operation. -/
def State.stopMedia (s : State) : State :=
  let s1 := s.abandonRelocs.dropLandings
  { s1 with med := { s1.med with dies := tmap s1.med.dies (fun _ x => { x with cur := none, suspended := none, susp := 0, queue := [], resumedAt := none })
                                 busyAtSafe := [], ecls := [], recovs := [] } }

/-- Power goes: what is lost, with the namespaces and LBAs of acknowledged data that no earlier error named. -/
def State.cutPower (s : State) : List (Nat × Nat) × State :=
  let s0 := s.dropCtxs.stopMedia
  let l := s0.lostUnits
  let ks := l.map (·.1)
  let named := (l.filter (fun e => !e.2.bad)).map (fun e => (e.2.ns, e.2.lba))
  let conv := l.filter (fun e => !(s0.ns e.2.ns).zoned)
  let s1 := s0.allEnts.foldl (fun t e => t.cutZone e) s0
  let s2 := (l.filter (fun e => (s0.ns e.2.ns).zoned)).foldl (fun t e => t.modLine e.1 (fun x => { x with bad := true })) s1
  let s3 := conv.foldl (fun t e => (t.dropLine e.1).hole e.1) s2
  let s4 := s3.zon.map.foldl (fun t e => t.cutEntry ks e.1 e.2) s3
  (named, s4.restRows)

/-- Does the power loss count as unsafe (GLB_RESET_CAUSE.UNSAFE)? -/
def State.unsafeNow (s : State) : Bool := !(s.undurable (fun _ => true)).isEmpty || s.allEnts.any (fun e => (s.zent e).state.isOpen)

/-! What a start keeps (Table 16-2). -/

/-- No write of a port is admitted after a start, so a takeover in progress ends (R91). -/
def Ns.ownAtStart (n : Ns) : Ns := match n.own with | .taking _ q => { n with own := .owned q, epoch := (n.epoch + 1) % 2 ^ 32 } | _ => n

/-- Namespaces: ownership, keys and epochs stay; what a command waited for is gone (R87, R88). -/
def Ns.atStart (n : Ns) : Ns := { n.ownAtStart with release := none, takeover := none, wrong := [], lockUntil := none, maxActive := 0x2000, maxOpen := 0x2000 }

/-! Counts since power-on, and counters that only a power-on reset clears, go on over DEV_RST_N (DEDUCED, log 180). -/

def Isl.counts (x : Isl) : Isl := { xingFail := x.xingFail, lockLosses := x.lockLosses, wakes := x.wakes }
def Port.counts (x : Port) : Port := { retrains := x.retrains, linkdowns := x.linkdowns, expiries := x.expiries }
def Chan.counts (x : Chan) : Chan := { retrains := x.retrains, cnt := x.cnt }
def Clu.counts (x : Clu) : Clu := { cnt := x.cnt }
def EngUnit.counts (x : EngUnit) : EngUnit := { parseFail := x.parseFail }
def Cpx.counts (x : Cpx) : Cpx :=
  { cnt := x.cnt, units := tmap x.units (fun _ u => u.counts), sieves := tmap x.sieves (fun _ u => u.counts)
    index := tmap x.index (fun _ u => u.counts), cores := tmap x.cores (fun _ u => u.counts) }
def Flt.counts (x : Flt) : Flt :=
  { entries := x.entries, wdogTotal := x.wdogTotal, deferred := x.deferred, srcs := tmap x.srcs (fun _ q => { events := q.events }) }

/-- The record of a tenant slice (R450): number, port, template, PASID, overrides; an accepted share change is recorded. -/
def Sli.atStart (q : Sli) (pin : Bool) : Sli :=
  let p : SharePend := q.pend.getD { shares := q.shares, override := q.override }
  { state := .free, kept := q.state != .free || q.kept, port := q.port, pasid := q.pasid, template := q.template, shares := p.shares
    override := p.override, dwe := q.dwe, dweNext := q.dweNext, sqstat := if pin then q.sqstat else [] }

/-- Key slots: a lockout runs in power-on time; challenge counters never repeat (R330, R331). -/
def State.keysAtStart (s : State) (pin : Bool) : Tbl KeySlot :=
  tmap s.sec.keys (fun _ k => { k with counter := ceilDiv k.counter 65536 * 65536, lockUntil := if pin then k.lockUntil else k.lockUntil.map (fun t => t - s.nowMs) })

/-- Memory instances: repairs of the runtime map are applied again (R350); what no full map recorded is forgotten. -/
def State.memsAtStart (s : State) (pin : Bool) : Tbl MMem :=
  s.mic.repairs.foldl (fun t e =>
    let m : MMem := tval t (memKey e.island e.mem)
    if e.kind = 0 then tset t (memKey e.island e.mem) { m with usedRows := tset m.usedRows e.macr (tgetD m.usedRows e.macr 0 + 1) }
    else if e.kind = 1 then tset t (memKey e.island e.mem) { m with usedCols := tset m.usedCols e.macr (tgetD m.usedCols e.macr 0 + 1) }
    else if e.kind = 2 then tset t (memKey e.island e.mem) { m with disabled := insertNat m.disabled e.index }
    else t) (if pin then tmap s.mic.mems (fun _ m => { fails := m.fails }) else [])

/-- Wear resumes from its saved value and the erases since (R212); trackers from their saved values (R195); times of power-on
milliseconds count from this power-on (DESIGN CHOICE, log 136). -/
def State.mediaAtStart (s : State) (pin : Bool) : Media :=
  let zero (n : Nat) : Nat := if pin then n else min n 1
  { s.med with
    chans := if pin then tmap s.med.chans (fun _ c => c.counts) else []
    clus := if pin then tmap s.med.clus (fun _ c => c.counts) else []
    refreshQ := [], relocs := []
    dies := tmap s.med.dies (fun _ x => { x with state := .absent, wasFailed := x.wasFailed || x.state == .failed, stat := if pin then x.stat else {}
                                                 tempAt := none, notReady := false })
    blks := tmap s.med.blks (fun k b => { b with
      wear := if (tget s.med.savedWear k).isSome || (tget s.med.erasesSince k).isSome
              then tgetD s.med.savedWear k 0 + 12 * tgetD s.med.erasesSince k 0 else b.wear
      programmedAt := zero b.programmedAt })
    trackers := s.med.savedTrackers
    use := tmap s.med.use (fun _ u => { u with writtenAt := if pin then u.writtenAt else 0, movedAt := if pin then u.movedAt else 0 }) }

/-- Code array banks: what ran is lost with power (its target undefined), or completes over a pin restart (R428, R452). -/
def State.bankAtStart (s : State) (pin : Bool) (b : Nat) (x : Bank) : State :=
  match x.cur with
  | none => s
  | some o =>
    if !pin then s.spoil b o
    else if o.op = 1 then (s.putPage b o.page o.data).cnvCnt 1 1
    else (s.wipeSector b o.page).cnvCnt 2 1
def State.arrayAtStart (s : State) (pin : Bool) : State :=
  let s1 := s.cnv.banks.foldl (fun t e => t.bankAtStart pin e.1 e.2) s
  { s1 with cnv := { s1.cnv with banks := [], cnt := if pin then s1.cnv.cnt else [] } }

/-- The machine with everything a start clears at its reset value, and everything it keeps (DEDUCED, log 180). -/
def State.cleared (s : State) (pin : Bool) : State :=
  { pending := s.pending, free := s.free, host := s.host
    epoch := if pin then s.epoch else 0
    isl := if pin then tmap s.isl (fun _ x => x.counts) else []
    ports := if pin then tmap s.ports (fun _ p => p.counts) else []
    cpx := if pin then s.cpx.counts else {}
    wvf := if pin then tmap s.wvf (fun _ h => { units := h.units }) else []
    bpm := if pin then { cnt := s.bpm.cnt } else {}
    pat := { slots := s.pat.slots }
    cmd := { oqs := tmap (tfilter s.cmd.oqs (fun _ o => o.en)) (fun _ o => { en := true, slice := o.slice, sqid := o.sqid })
             dweRecorded := if pin then s.cmd.dweRecorded else 0 }
    zon := { s.zon with hits := if pin then s.zon.hits else 0, misses := if pin then s.zon.misses else 0
                        nss := tmap s.zon.nss (fun _ n => n.atStart), nsAct := [], proj := [], changedZones := [], changedNs := []
                        ents := tmap s.zon.ents (fun _ z => { z with lastWrite := if pin then z.lastWrite else 0, fzrAt := if pin then z.fzrAt else 0 }) }
    med := s.mediaAtStart pin
    mlf := { s.mlf with wlLimit := 8, wlStop := 6, wlReloc := 10, wlAct := {}, spareThresh := 10, spareAct := {}, relocCnt := if pin then s.mlf.relocCnt else []
                        critWarn := s.mlf.critWarn &&& 0b01101, hotMinute := none
                        savedMs := if pin then s.mlf.savedMs else 0, errors := s.mlf.savedErrors, tempHist := s.mlf.savedHist
                        powerOnMin := if pin then s.mlf.powerOnMin else s.mlf.savedOnMin
                        powerCycles := if pin then s.mlf.powerCycles else s.mlf.powerCycles + 1 }
    sli := tset (tmap s.sli (fun _ q => q.atStart pin)) 0
      { state := .created, dwe := (s.slc 0).dwe, dweNext := (s.slc 0).dweNext, sqstat := if pin then (s.slc 0).sqstat else [] }
    sec := { s.sec with sessions := [], challenges := [], cryAct := [], discards := if pin then s.sec.discards else 0, mgrPasid := 0, mbVector := 0, pasidAct := {}, pasidEff := 0
                        keys := s.keysAtStart pin }
    mic := { repairs := s.mic.repairs, sramFilled := true, mems := s.memsAtStart pin, cnt := if pin then s.mic.cnt else []
             fillPtr := if pin then s.mic.fillPtr else [], dramFilled := if pin then s.mic.dramFilled else 0 }
    flt := { (if pin then s.flt.counts else {}) with plog := s.flt.plog }
    pwr := if pin then { brownout := s.pwr.brownout, boCount := s.pwr.boCount, lpRefused := s.pwr.brownout } else {}
    thm := { warnMin := s.thm.warnMin, critMin := s.thm.critMin, shutdown := pin && s.thm.shutdown, thermtripN := !(pin && s.thm.shutdown) }
    age := { plan := s.age.plan, prev := s.age.prev, margin := s.age.margin, lastMin := s.age.lastMin }
    cnv := s.cnv
    fwu := { s.fwu with owner := none, staged := 0, phase := 0, applied := none, activating := none, abortAct := {}, result := 0, lastMs := 0 }
    glb := { causePowerOn := !pin, causePin := pin, pinStart := pin
             causeTherm := s.flt.plog.any (fun r => r.src == 809), causeUnsafe := s.glb.causeUnsafe, causeFatal := pin && s.flt.fatal
             pinCount := if pin then satAdd 16 s.glb.pinCount 1 else 0, startMs := if pin then s.nowMs else 0
             pfailN := if pin then s.glb.pfailN else true, refclk := true
             vddSramMv := s.glb.vddSramMv } }

/-! Steps 5 and 6: firmware and Pattern. -/

/-- GLB_START.FAIL_STEP: the first step at which a fault was raised (DEDUCED, log 140). -/
def State.failAt (s : State) (n : Nat) (e : FaultEv) : State :=
  ({ s with glb := { s.glb with failStep := if s.glb.failStep = 0 then n else s.glb.failStep } }).queueFault e

/-- A slot that verifies is valid, with what its header says. -/
def State.readSlot (s : State) (i : Nat) : State :=
  let f := slotOf (s.slotImage i)
  s.modFwSlot i (fun x => { x with state := 1, ver := f.ver, fmt := f.fmt, resetReq := f.resetReq })

/-- A slot that fails is invalid, with a Critical fault of source 745. -/
def State.slotFails (s : State) (i : Nat) : State := (s.spoilSlot i).failAt 5 { src := 745, level := 3, detail := slotBank i }

/-- The slot to boot (R431): the one marked NEXT, or the one last running; the other one when it fails; none: recovery (R432). -/
def State.bootSlot (s : State) : Option Nat × State :=
  let i := (tfind s.fwu.slots (fun _ x => x.next)).getD s.runSlot
  if s.slotOk i then (some i, s.readSlot i)
  else
    let s1 := s.slotFails i
    if s1.slotOk (1 - i) then (some (1 - i), s1.readSlot (1 - i)) else (none, s1.slotFails (1 - i))

/-- Nothing runs from a slot. -/
def State.inRecovery (s : State) : State :=
  { s with fwu := { s.fwu with slots := tmap s.fwu.slots (fun _ x => { x with running := false, next := false }) } }

/-- The image starts; a migration that fails activates the other slot (R443). -/
def State.startImage (s : State) (i : Nat) (migrateOk : Bool) : State :=
  let back := s.fwu.windowOpen && (s.fwSlot i).ver == s.fwu.fromVer && s.running? != some i
  if migrateOk || back || (s.toMigrate (s.fwSlot i).fmt).isEmpty then s.runImage i
  else
    let s1 := s.failAt 10 { src := 745, level := 3, detail := slotBank i }
    if s1.slotOk (1 - i) then (s1.readSlot (1 - i)).runImage (1 - i) else (s1.slotFails (1 - i)).inRecovery

/-- Step 5. -/
def State.bootFirmware (s : State) (migrateOk : Bool) : State :=
  let r := s.bootSlot
  match r.1 with
  | some i => r.2.startImage i migrateOk
  | none => r.2.inRecovery

/-- Step 6 (R53): both slots are validated against the running firmware; recovery brings up the bare structure. -/
def State.selectPattern (s : State) : State :=
  let v0 := s.validateSlot 0
  let v1 := s.validateSlot 1
  let s1 := (s.setPatSlot 0 v0).setPatSlot 1 v1
  let pick := if v0.err = 0 ∧ v1.err = 0 then (if v0.seq < v1.seq then 1 else 0) else if v0.err = 0 then 0 else if v1.err = 0 then 1 else 2
  let src := if s.running?.isSome then pick else 2
  if src = 2 then
    { s1 with pat := { s1.pat with source := 2, seq := 0, eff := barePat, coldDram := none, panels := [], signer := 0 }, glb := { s1.glb with bare := true } }
  else
    let img := s.arrRead (bankBase 3 + patOff src) slotMax
    let fs := (imgFrames img).1
    { s1 with pat := { s1.pat with source := src, seq := imgSeq img, eff := applyFrames {} fs, coldDram := (applyFrames {} fs).dram, panels := fs.foldl (fun l f => insertNat l f.key) []
                                   signer := u8 img 0x28 } }

/-! Steps 7 to 9: islands, DRAM, links. -/

/-- A present island comes up, at the fastest point that the voltage serves; one that fails is isolated, with a fault. -/
def State.islandUp (s : State) (failed : List Nat) (i : Nat) : State :=
  if i != 0 && !present s.pat.eff i then s.setIsl i (s.isle i).counts
  else if s.weaveless i then s.setIsl i { (s.isle i).counts with avail := .waking }
  else if i != 0 && failed.contains i then
    (s.setIsl i { (s.isle i).counts with dstate := .on, avail := .isolated }).failAt 7 { src := 144 + i, detail := (s.isle i).xingFail + (s.isle i).lockLosses * 65536 }
  else s.setIsl i { (s.isle i).counts with dstate := .on, avail := .available, filled := true, point := s.pointFor i (vreqMv s.glb.vreqOk) }

/-- The first plan, version 1 (R415). -/
def State.firstPlan (s : State) : State :=
  let c := s.pat.eff.cal
  if s.glb.bare || s.age.plan.ver != 0 then s
  else { s with age := { s.age with plan := {
    ver := 1, points := ((List.range 72).filter (present s.pat.eff)).map (fun i => (i, (s.pat.eff.isl.getD i {}).points))
    refresh := List.replicate 3 (min c.refMaxH (max c.refMinH 720)), drift := c.flDrift } } }

/-- The points of step 7: those that need more voltage follow when the board serves it (DEDUCED, log 142). -/
def State.raisePoints (s : State) : State :=
  ((List.range 72).filter (fun i => i != 0 && present s.pat.eff i && s.islOn i && (s.isle i).point != 0)).foldl (fun t i => t.movePoint i 0) s

/-- Step 8: an interface that does not train is isolated and the capacity shrinks; where that is too little, every MCL island is
held isolated and every namespace stays not ready (R448). -/
def State.trainDram (s : State) (failed : List Nat) : State :=
  match s.pat.eff.dram with
  | none => s
  | some d =>
    let bad := (List.range 8).filter (fun j => bitAt d.mask j && (failed.contains j || s.islIsolated (islDMI j)))
    let s1 := (bad.filter (fun j => !s.islIsolated (islDMI j))).foldl (fun t j =>
      (t.modIsl (islDMI j) (fun x => { x with avail := .isolated })).failAt 8 { src := 440 + j }) s
    let p : Pat := { s.pat.eff with dram := some { d with mask := bad.foldl (fun m j => m - 2 ^ j) d.mask } }
    let s2 : State := { s1 with pat := { s1.pat with eff := p } }
    if bad.isEmpty || (capacityBad p).isNone && popBits 8 (d.mask - sumNat (bad.map (fun j => 2 ^ j))) != 0 then s2
    else
      let s3 := (List.range 16).foldl (fun t b => if present p (islMCL b) then t.modIsl (islMCL b) (fun x => { x with avail := .isolated }) else t) s2
      { s3 with glb := { s3.glb with notReady := List.range 64 } }

/-- The pools of Table 9-9, with the frames the repair map keeps retired (R296, R303). -/
def State.openPools (s : State) : State :=
  let ret := (s.mic.repairs.filter (fun e => e.kind == 3)).map (·.frame)
  let s1 := (List.range 6).foldl (fun t c =>
    let l := (ret.filter (fun f => f / 2 ^ 29 == c)).map (· % 2 ^ 28)
    t.setPool c { frames := poolFrames s.pat.eff c, retired := l.length, skip := l.foldl insertNat [] }) s
  (ret.foldl (fun t f => t.setFrame (frameKey (f / 2 ^ 29) (f % 2 ^ 28)) { retired := true }) s1).fillPools

/-- Route slots take their bindings; weave halves and counters load (R27, R290, R377). -/
def State.loadPanels (s : State) : State :=
  let p := s.pat.eff
  let s1 := (boundRoutes p).foldl (fun t r => t.rebind r.route (some r)) s
  let s2 := if p.weave0.isSome then s1.loadHalf 0 s1.pat.seq else s1
  let s3 := if p.weave1.isSome then s2.loadHalf 1 s2.pat.seq else s2
  s3.loadPresets (p.counters.getD [])

/-- Disabled lines act again where no spare is left (Table 11-2). -/
def State.redisable (s : State) : State :=
  (s.mic.repairs.filter (fun e => e.kind == 2)).foldl (fun t e => t.disableEffect e.island e.mem e.index) s

/-- Bays of Table 6-8 at step 11: a seated bay in use is powered at once (R198) (DEDUCED, log 143). -/
def State.startBays (s old : State) : State :=
  (List.range 16).foldl (fun t b =>
    let x := old.bay b
    let run := t.bayUsed b && x.prsnt && !t.islIsolated (islMCL b)
    t.setBay b { prsnt := x.prsnt, insertions := if s.glb.pinStart then x.insertions else 0, bstate := if !t.bayUsed b then 10 else if run then 2 else if x.prsnt then 9 else 0
                 pwren := run, step := if run then 2 else 0, stepAt := s.nowMs }) s

/-- Links train; the sideband takes its plan. -/
def State.startPorts (s : State) : State :=
  let s1 := s.portList.foldl (fun t p => t.setPort p { (s.port p).counts with lstate := .training }) s
  { s1 with sb := { eid := s1.pat.eff.sideband.eid, smbKhz := s1.pat.eff.sideband.smbKhz } }

/-- With SPLIT 0 every namespace is OWNED by port 0, a change of owner where it was not (R89, R90); the bare structure, which shows no
namespace, leaves them. -/
def State.ownSplit0 (s : State) : State :=
  if s.pat.eff.host.split = 0 ∧ !s.glb.bare then
    { s with zon := { s.zon with nss := tmap s.zon.nss (fun _ n => if n.own = .owned 0 then n else { n with own := .owned 0, epoch := (n.epoch + 1) % 2 ^ 32 }) } }
  else s

/-- Steps 2 to 9. -/
def State.boot (s old : State) (b : BootIn) : State :=
  let s1 := (s.bootFirmware b.migrateOk).selectPattern.firstPlan
  let s2 := (List.range 72).foldl (fun t i => t.islandUp b.failedIslands i) s1
  let s3 := ((s2.trainDram b.failedDram).openPools.loadPanels.redisable).raisePoints
  let s4 := (s3.startBays old).startPorts.ownSplit0
  { s4 with glb := { s4.glb with step := 8, tableOk := b.tableOk, notReady := (s4.glb.notReady ++ b.badJournals).eraseDups } }

end Sys2Proof.Machine
end

