-- ==== Sys2Proof/Machine/Start.lean ====
section
/-! DEFINITION. Power-on, the device reset pin, admin ready and media ready (16, R447 to R454). -/

namespace Sys2Proof.Machine

/-- POWER_ON: what the last power loss took away is lost, and steps 1 to 9 run (DEDUCED, log 135). -/
def execPowerOn (b : BootIn) (s : State) : Out :=
  .next (
    let bad := s.unsafeNow
    let r := s.cutPower
    let s1 : State := { r.2 with glb := { r.2.glb with causeUnsafe := bad }
                                 mlf := { r.2.mlf with unsafeShut := r.2.mlf.unsafeShut + bad.toNat } }
    ((((s1.arrayAtStart false).cleared false).boot s1 b).recordLost 3 r.1))

/-! Admin ready (step 10, R449 to R451). -/

/-- The five shares of a recorded slice: its overrides over its template (DEDUCED, log 137). -/
def Sli.restored (q : Sli) (t : SliceTmpl) (epoch : Nat) : Sli :=
  let o (i : Nat) (a b : Nat) : Nat := if q.override.getD i false then a else b
  let d := tmplShares t
  { q with state := .created, kept := false, effEpoch := epoch, msgCount := min t.qpairs 1022 + 2
           shares := { mediaW := o 0 q.shares.mediaW d.mediaW, computeW := o 1 q.shares.computeW d.computeW, inflight := o 2 q.shares.inflight d.inflight
                       specMib := o 3 q.shares.specMib d.specMib, comet := o 4 q.shares.comet d.comet } }

/-- Recorded slices are restored in CREATED; in the bare structure they are not brought up; without a table none is left. -/
def State.restoreSlices (s : State) : State :=
  if !s.glb.tableOk then
    ({ s with sli := tfilter s.sli (fun k _ => k == 0), cmd := { s.cmd with oqs := [] } }).failAt 10 { src := 745, level := 3 }
  else if s.glb.bare then s
  else { s with sli := tmap s.sli (fun _ q => if q.kept then q.restored ((s.pat.eff.slices.find? (fun t => t.id == q.template)).getD {}) s.epoch else q) }

/-- CSTS.RDY of enabled controllers that wait for this half of start-up. -/
def State.raiseRdy (s : State) (p : Ctrl → Bool) : State :=
  { s with cmd := { s.cmd with ctrls := tmap s.cmd.ctrls (fun _ c => if c.en && p c then { c with rdy := true } else c) } }

/-- Milliseconds since step 1, saturating. -/
def State.sinceStart (s : State) : Nat := min 65535 (s.nowMs - s.glb.startMs)

/-- Has a start brought the control half up, and not yet reached admin ready? -/
def State.starting (s : State) : Bool := decide (8 ≤ s.glb.step) && !s.glb.adminReady && s.glb.devRstN

/-- ADMIN_READY. -/
def execAdminReady (s : State) : Out :=
  .next (if s.starting then
    let s1 : State := { s with glb := { s.glb with adminReady := true, step := 10, tAdminMs := s.sinceStart }, fwu := { s.fwu with imageMs := s.nowMs } }
    s1.restoreSlices.raiseRdy (fun c => c.crime || s.glb.bare)
  else s)

/-! Media ready (steps 12 and 13). -/

/-- Media ready waits for buffered rows, which a cold hold keeps from landing (R408, Table 16-3) (DEDUCED, log 141). -/
def State.mediaWaits (s : State) : Bool := s.glb.pinStart && s.thm.coldHold && 0 < s.dirtyLines

/-- A journal that neither copy gives raises a Critical fault of TRN (R448) (DEDUCED, log 77). -/
def State.journalFaults (s : State) : State :=
  if s.glb.notReady.isEmpty || s.glb.failStep = 8 then s else s.failAt 12 { src := 755, level := 3 }

/-- MEDIA_READY; after a pin restart the buffered rows land first (R452). -/
def execMediaReady (s : State) : Out :=
  .next (if s.glb.adminReady && !s.glb.mediaReady && !s.glb.bare && s.glb.devRstN && !s.mediaWaits && !s.flt.safe then
    let s1 := if s.glb.pinStart then s.landAll true else s
    let s2 : State := { s1 with glb := { s1.glb with mediaReady := true, step := 13, tMediaMs := s1.sinceStart } }
    s2.journalFaults.raiseRdy (fun _ => true)
  else s)

/-! The device reset pin (R452). -/

/-- DEVICE_RESET_ASSERT: the safe state; DRAM stays in self-refresh with its pads held (DEDUCED, log 139). -/
def execDeviceResetAssert (s : State) : Out :=
  .next (if s.glb.devRstN then ({ s with glb := { s.glb with devRstN := false } }).enterSafe s.flt.causeSrc s.flt.causeSeq else s)

/-- Opened zones come back Closed at a start (R149); the buffer keeps what it holds. -/
def State.closeZones (s : State) : State :=
  s.allEnts.foldl (fun t e => if (t.zent e).state.isOpen then t.modZent e (fun z => { z with state := .closed }) else t) s

/-- DEVICE_RESET_RELEASE: the sequence runs from step 2, DRAM and the write buffer kept. A latched thermal shutdown holds the device
fatal. -/
def execDeviceResetRelease (b : BootIn) (s : State) : Out :=
  .next (if s.glb.devRstN then s
  else
    let s1 := s.abandonCtxs.stopMedia.restRows.closeZones
    let s2 := ((s1.arrayAtStart true).cleared true).boot s1 b
    if s2.thm.shutdown then s2.deviceFatal 809 0 else s2)

end Sys2Proof.Machine
end

