-- ==== Sys2Proof/Machine/Sideband.lean ====
section
/-! DEFINITION. The sideband (17 R472, 13 R390, 15 R439). -/

namespace Sys2Proof.Machine

/-- The management path of a message: CTL and SEC on. On a sleeping one the address comparator acts, where the plan lets it: SMBus
stretches the clock until the path is ready, I3C makes the controller retry (R390). -/
def State.sbPath (s : State) : Bool × State :=
  if !s.glb.adminReady || s.flt.ctlReset || !s.glb.devRstN || s.thm.shutdown then (false, s)
  else if s.domOn islCTL && s.domOn islSEC then (true, s)
  else if !s.pat.eff.sideband.wakeAddr then (s.domOn islCTL, s)
  else
    let t := (s.wakeEvent islCTL 1).startWake islSEC 1
    (s.pat.eff.sideband.smbusOnly, t)

/-- The opcodes of NVMe Admin Command messages (Table 17-10), and those marked S (Table 4-10). -/
def sbOps : List Nat := [0x06, 0x02, 0x0A, 0x09, 0x11, 0x10, 0xC2, 0xC5, 0xC8, 0xD1, 0xDC]
def sbSession : List Nat := [0x11, 0x10, 0xD1, 0xDC]

/-- Why an NVMe Admin Command message is refused before it runs. -/
def State.sbErr (s : State) (e : Nat) (q : Sqe) : Option St :=
  if !sbOps.contains q.opc || (s.glb.bare && !bareOp q) then some .invalidOpcode
  else if !subfnOk true q then some .invalidField
  else if sbSession.contains q.opc && !s.roleSession (.mctp e) then some .sessionRequired
  else none

/-- A command whose answer waits. -/
def State.sbWait (s : State) (e : Nat) : State := { s with sb := { s.sb with busy := insertNat s.sb.busy e } }

/-- Firmware Commit over the sideband; whether its programs verify is free (DESIGN CHOICE, log 145). -/
def State.sbCommit (s : State) (e : Nat) (q : Sqe) : State :=
  let r := drawBool s
  let ca := q.cdw10.toNat / 8 % 8
  let fs := fsOf q
  if ca = 0 then let a := r.2.fwApply (.mctp e) fs r.1; a.2.sbReply e a.1 .none
  else if ca = 1 then let a := r.2.fwApplyNext (.mctp e) fs r.1; a.2.sbReply e a.1 .none
  else if ca = 2 then let a := s.fwMarkNext (.mctp e) fs; a.2.sbReply e a.1 .none
  else
    let a := (r.2.sbWait e).fwActivate (.sideband e) (.mctp e) fs r.1
    match a.1 with
    | some o => a.2.answer (.sideband e) o
    | none => a.2

/-- Set Features over the sideband; while another power-state entry runs it is refused. -/
def State.sbSetFeatures (s : State) (e : Nat) (q : Sqe) (data : List Byte) : State :=
  match (s.sbWait e).setFeatures (.sideband e) 0 0 q data s.cmd.fseq s.nowMs with
  | some t => t
  | none => s.sbReply e (errOut .cmdSequence) .none

/-- Pattern Load by its action (R57). -/
def State.patOp (s : State) (r : Requester) (q : Sqe) (data : List Byte) : Outc × State :=
  if q.cdw10.toNat % 4 = 0 then s.patTransfer r q data
  else if q.cdw10.toNat % 4 = 1 then s.patCommit r q
  else s.patErase r q

/-- An NVMe Admin Command message: it acts as a command of the manager controller of port 0. -/
def State.sbAdmin (s : State) (e : Nat) (q : Sqe) (data : List Byte) (m : PlanMeas) : State :=
  let r : Requester := .mctp e
  match s.sbErr e q with
  | some x => s.sbReply e (errOut x) .none
  | none =>
    if q.opc = 0x06 then let a := s.identify 0 0 q; s.sbReply e a.1 a.2
    else if q.opc = 0x02 then let a := s.getLog 0 0 q; a.2.2.sbReply e a.1 a.2.1
    else if q.opc = 0x0A then let a := s.getFeatures 0 0 q; s.sbReply e a.1 a.2
    else if q.opc = 0x09 then s.sbSetFeatures e q data
    else if q.opc = 0x11 then
      (if 4096 < data.length then s.sbReply e (errOut .invalidField) .none
       else let a := s.fwDownload r (q.cdw11.toNat * 4) data; a.2.sbReply e a.1 .none)
    else if q.opc = 0x10 then s.sbCommit e q
    else if q.opc = 0xC2 then let a := s.challenge r q; a.2.2.sbReply e a.1 a.2.1
    else if q.opc = 0xC5 then let a := s.openSession r (data.take 48); a.2.sbReply e a.1 .none
    else if q.opc = 0xC8 then let a := s.closeSession r (q.cdw10.toNat % 256); a.2.sbReply e a.1 .none
    else if q.opc = 0xD1 then
      let a := s.patOp r q data; a.2.sbReply e a.1 .none
    else if q.cdw10.toNat % 4 = 0 then let a := s.planRun m; a.2.sbReply e a.1 .none
    else s.sbReply e s.planOut .none

/-- A control primitive (PRESUMED, log 146). -/
def State.sbControl (s : State) (e op : Nat) : State :=
  let say (t : State) (o : Outc) : State := { t with host := { t.host with sideband := t.host.sideband ++ [(e, o, .none)] } }
  if op = 0 then say { s with sb := { s.sb with paused := true } } (okOut 0)
  else if op = 1 then
    let t : State := { s with sb := { s.sb with paused := false, held := [] }, host := { s.host with sideband := s.host.sideband ++ s.sb.held } }
    say t (okOut 0)
  else if op = 2 then say { s with sb := { s.sb with busy := removeNat s.sb.busy e, held := s.sb.held.filter (fun x => x.1 != e) } } (okOut 0)
  else if op = 3 then say s (okOut (s.sb.paused.toNat + 2 * (s.sb.busy.contains e).toNat))
  else if op = 4 then
    (match s.sb.lastResp with
     | some (d, o, p) => if d = e then { s with host := { s.host with sideband := s.host.sideband ++ [(d, o, p)] } } else say s (errOut .invalidField)
     | none => say s (errOut .invalidField))
  else say s (errOut .invalidOpcode)

/-- A new endpoint ID ends the sideband sessions (R332). -/
def State.setEid (s : State) (v : Nat) : State :=
  ({ s with sb := { s.sb with eid := v } }).endSessions (fun x => match x.who with | .mctp _ => true | .ctrl _ _ => false)

/-- Is a message of the NVMe-MI transport, which SIDEBAND_PLAN FLAGS bit 0 enables? -/
def sbIsMi : SbMsg → Bool
  | .setEid _ => false
  | .getEid => false
  | .getUuid => false
  | .getVersion => false
  | .getTypes => false
  | _ => true

/-- A message that arrived whole; without NVMe-MI only the MCTP control messages are answered (DEDUCED, log 144). -/
def State.sbMessage (s : State) (e : Nat) (m : SbMsg) : State :=
  if sbIsMi m && !s.pat.eff.sideband.mi then s
  else match m with
  | .setEid v => if v = 0 ∨ v = 0xFF then s.sbReply e (errOut .invalidField) .none else (s.setEid v).sbReply e (okOut v) .none
  | .getEid => s.sbReply e (okOut s.sb.eid) .none
  | .getUuid => s.sbReply e (okOut 0) (.part 16 [])
  | .getVersion => s.sbReply e (okOut 0) (.part 5 [])
  | .getTypes => s.sbReply e (okOut 0) (.bytes (if s.pat.eff.sideband.mi then [1, 4] else [0]))
  | .admin q data pm => s.sbAdmin e q data pm
  | .control op => s.sbControl e op
  | .configSet id v =>
    if s.roleSession (.mctp e) then (s.miSet id v).2.sbReply e (s.miSet id v).1 .none else s.sbReply e (errOut .sessionRequired) .none
  | .other _ _ => s.sbReply e (errOut .invalidOpcode) .none
  | x => let a := s.miRun x; a.2.2.sbReply e a.1 a.2.1

/-- SIDEBAND_MESSAGE: a message whose integrity check fails is dropped, and one that finds no path is not received. -/
def execSidebandMessage (eid : Nat) (m : SbMsg) (crcOk : Bool) (s : State) : Out :=
  guardUnit s (decide (eid < 256))
    (let r := s.sbPath
     if r.1 && crcOk then r.2.sbMessage eid m else r.2)

end Sys2Proof.Machine
end

