-- ==== Sys2Proof/Machine/Registers.lean ====
section
/-! DEFINITION. A register write through BAR0 of a port (00 R6 to R12, 03 R71 to R74 and R477). -/

namespace Sys2Proof.Machine

/-! A write reaches a 64-bit register as its low half, its high half or both: `lo` and `hi` say which, and `v` holds the bits at
their places. -/

/-- The value of a register after a write: the half not written keeps its value (R477). -/
def merged (old : Nat) (lo hi : Bool) (v : Nat) : Nat :=
  (if lo then v % 2 ^ 32 else old % 2 ^ 32) + (if hi then v / 2 ^ 32 % 2 ^ 32 else old / 2 ^ 32 % 2 ^ 32) * 2 ^ 32

/-- A W1C field: bits written 1 clear (Table 0-4). -/
def w1c (old v n : Nat) : Nat := sumNat ((List.range n).map (fun i => if bitAt old i && !bitAt v i then 2 ^ i else 0))

/-- An access that R477, R457 or Table 3-3 counts as a Note fault of HFE. -/
def State.badAccess (s : State) (addr : Nat) : State := s.queueFault { src := 750, level := 0, detail := addr }

/-! Interrupt message entries (Table 3-5). -/

/-- An entry's 64-bit words: 0 is ADDR, 1 is DATA and CTL. MASK written 0 sends what is pending (DEDUCED, log 149). -/
def State.msgWrite (s : State) (port slice e word : Nat) (lo hi : Bool) (v : Nat) : State :=
  let put (f : MsgEnt → MsgEnt) : State :=
    if slice = 0 then s.modPort port (fun x => { x with msix := tset x.msix e (f (tval x.msix e)) })
    else s.modSli slice (fun x => { x with msgs := tset x.msgs e (f (tval x.msgs e)) })
  if word = 0 then put (fun m => { m with addr := merged m.addr lo hi v / 4 * 4 })
  else
    let s1 := if lo then put (fun m => { m with data := v % 2 ^ 32 }) else s
    if !hi then s1
    else if bitAt v 32 then
      (if slice = 0 then s1.modPort port (fun x => { x with msix := tset x.msix e { (tval x.msix e : MsgEnt) with mask := true } })
       else s1.modSli slice (fun x => { x with msgs := tset x.msgs e { (tval x.msgs e : MsgEnt) with mask := true } }))
    else s1.unmask port slice e

/-! Slice pages (Table 3-4). -/

/-- A write of CC: EN enables or resets the controller, SHN notifies it of a shutdown (Table 4-8). -/
def State.ccWrite (s : State) (port sl v : Nat) : State :=
  let k := ctrlKey port sl
  let en := (s.ctrl k).en
  let s1 := if bitAt v 0 && !en then s.enableCtrl port sl (bitAt v 24) else if !bitAt v 0 && en then s.disableCtrl port sl else s
  let s2 := s1.modCtrl k (fun c => { c with cc := v / 2 * 2 % 2 ^ 32 })
  if bitsAt v 14 2 = 1 ∨ bitsAt v 14 2 = 2 then s2.notifyShutdown port sl else s2

/-- A 32-bit controller register, or a half of a 64-bit one. -/
def State.ctrlWord (s : State) (port sl off v : Nat) : State :=
  let k := ctrlKey port sl
  let half (old : Nat) (hi : Bool) : Nat := merged old (!hi) hi (if hi then v * 2 ^ 32 else v) / 4096 * 4096
  if off = 0x14 then s.ccWrite port sl v
  else if off = 0x24 then s.modCtrl k (fun c => { c with aqa := bitsAt v 0 12 + bitsAt v 16 12 * 65536 })
  else if off = 0x28 ∨ off = 0x2C then s.modCtrl k (fun c => { c with asq := half c.asq (off == 0x2C) })
  else if off = 0x30 ∨ off = 0x34 then s.modCtrl k (fun c => { c with acq := half c.acq (off == 0x34) })
  else s

/-- Bytes written into the mailbox-in area. -/
def State.mbInWrite (s : State) (sl off width v : Nat) : State :=
  s.modSli sl (fun q => { q with mbIn := putBytes (q.mbIn ++ List.replicate (0xFF0 - q.mbIn.length) 0) off (leBytes width v) })

/-- A write of 32 or 64 bits in a page, aligned to its width. -/
def State.pageWord (s : State) (port sl off : Nat) (lo hi : Bool) (v : Nat) : State :=
  let w32 := lo != hi
  let off4 := if lo then off else off + 4
  let v4 := if lo then v % 2 ^ 32 else v / 2 ^ 32
  if off < 0x1000 then
    if off = 0x0C00 then (if lo then s.oqResumeWrite port sl (v % 65536) else s)
    else if w32 then s.ctrlWord port sl off4 v4
    else if off = 0x28 ∨ off = 0x30 then (s.ctrlWord port sl off (v % 2 ^ 32)).ctrlWord port sl (off + 4) (v / 2 ^ 32)
    else s
  else if off < 0x4000 then (if w32 then s.doorbell port sl ((off4 - 0x1000) / 8) (off4 % 8 == 4) (v4 % 65536) else s)
  else if off < 0x8000 then
    (if sl != 0 && decide ((off - 0x4000) / 16 < (s.slc sl).msgCount) then s.msgWrite port sl ((off - 0x4000) / 16) (off / 8 % 2) lo hi v else s)
  else if off = 0x8FF8 then (if lo then s.mbSend sl port (v % 2) else s)
  else if off = 0x9FF8 then (if lo then s.mbAck sl (v % 2) else s)
  else s

/-! Device management space. Each block's registers by their offset in the block. -/

def State.glbWrite (s : State) (r : Nat) (lo : Bool) (v : Nat) : State :=
  if r = 0x100 ∧ lo then s.holdWrite (bitsAt v 0 11) (bitAt v 11) else s

def State.patWrite (s : State) (r : Nat) (lo : Bool) (v : Nat) : State := if r = 0x28 ∧ lo then s.abandonWrite (v % 2) else s

/-- HLK_TRICKLE_CTL: AUTO_EXIT is stored, then CMD acts; whether the adapter answers an entry is free. -/
def State.trickleWrite (s : State) (port v : Nat) : State :=
  let s1 := { s with trickle := { s.trickle with autoExit := bitAt v 4 } }
  if v % 4 = 1 then (drawBool s1).2.trickleIn port (drawBool s1).1
  else if v % 4 = 2 then s1.trickleLeave
  else if s1.trickle.runs then { s1 with trickle := { s1.trickle with act := s1.trickle.act.meet } }
  else { s1 with trickle := { s1.trickle with cmd := v % 4, act := wsNow false } }

/-- The fields of HLK_BAR2_MAP as its register holds them. -/
def Bar2Ent.reg (e : Bar2Ent) : Nat := e.en.toNat + e.slice * 2 + e.handle * 2 ^ 12 + e.baseMib * 2 ^ 28 + e.lenMib * 2 ^ 44

def State.hlkWrite (s : State) (via r : Nat) (lo hi : Bool) (v : Nat) : State :=
  if r < 0x200 then
    let p := r / 0x100
    if !s.hasPort p || !lo then s
    else if r % 0x100 = 0x10 then s.detachWrite p (v % 2)
    else if r % 0x100 = 0x18 then s.beat p via (v % 2)
    else s
  else if r = 0x200 then (if lo then s.trickleWrite via v else s)
  else if 0x1000 ≤ r ∧ r < 0x1400 then
    let p := (r - 0x1000) / 0x200
    let i := (r - 0x1000) % 0x200 / 8
    if s.hasPort p then
      let n := merged (tval (s.port p).bar2 i : Bar2Ent).reg lo hi v
      s.bar2Write p i (bitAt n 0) (bitsAt n 1 11) (bitsAt n 12 16) (bitsAt n 28 16) (bitsAt n 44 16)
    else s
  else if 0x10000 ≤ r ∧ (r - 0x10000) / 16 < s.pat.eff.host.msix ∧ r < 0x18000 then
    s.msgWrite via 0 ((r - 0x10000) / 16) (r / 8 % 2) lo hi v
  else s

def State.cmdWrite (s : State) (r : Nat) (lo : Bool) (v : Nat) : State :=
  if 0x100 ≤ r ∧ r < 0x300 ∧ lo then s.oqWrite ((r - 0x100) / 8) (bitAt v 0) (bitsAt v 1 11) (bitsAt v 12 16) else s

def State.zonWrite (s : State) (r : Nat) (lo : Bool) (v : Nat) : State :=
  if 0x10000 ≤ r ∧ r % 16 = 0 ∧ lo ∧ nsOk ((r - 0x10000) / 16) then s.zoneLimits ((r - 0x10000) / 16) (bitsAt v 0 14) (bitsAt v 14 14) else s

/-- MED_BAY_CTL: LED is stored, then CMD acts. -/
def State.bayCtlWrite (s : State) (b v : Nat) : State :=
  let s1 := s.modBay b (fun x => { x with led := bitsAt v 6 2, force := if x.cmdAct.busy then x.force else bitAt v 3 })
  if v % 8 = 1 then s1.bayRemove b (bitAt v 3)
  else if v % 8 = 2 then (s1.bayNewCmd b 2).rebuildCheck b
  else if v % 8 = 3 then (s1.bayNewCmd b 3).rebuildCheck b
  else if v % 8 = 4 then s1.bayRetry b
  else s1.modBay b (fun x => if x.cmdAct.busy then { x with cmdAct := x.cmdAct.meet } else { x with cmd := v % 8, cmdAct := wsNow false })

def State.medWrite (s : State) (r : Nat) (lo : Bool) (v : Nat) : State :=
  let b := r / 0x10000
  if !lo then s
  else if r % 0x4000 = 0x10 then (if bitAt v 0 then s.retrainWrite (r / 0x4000) else s)
  else if r % 0x10000 = 0x2000 then s.schedWrite b (bitsAt v 0 6) (bitsAt v 6 6) (bitAt v 12)
  else if r % 0x10000 = 0x2020 then s.bayCtlWrite b v
  else if r % 0x10000 = 0x2030 then s.modBay b (fun x => { x with evt := w1c x.evt v 7 })
  else s

def State.mlfWrite (s : State) (r : Nat) (lo : Bool) (v : Nat) : State :=
  if !lo then s
  else if r = 0x08 then s.wearConfig (bitsAt v 0 6) (bitsAt v 6 6) (bitsAt v 12 6)
  else if r = 0x10 then s.spareConfig (bitsAt v 0 7)
  else s

def State.cpxWrite (s : State) (r : Nat) (lo : Bool) (v : Nat) : State :=
  if !lo then s
  else if r = 0 then s.lanesWrite (v % 16)
  else if 0x10000 ≤ r ∧ r < 0x18000 ∧ r % 16 = 0 then s.memLimWrite ((r - 0x10000) / 16) (bitsAt v 0 18)
  else s

def State.upcWrite (s : State) (r : Nat) (lo : Bool) (v : Nat) : State :=
  if 0x10000 ≤ r ∧ r < 0x20000 ∧ r % 0x20 = 0 ∧ lo then s.grantWrite ((r - 0x10000) / 0x20) (v % 2) else s

def State.sliWrite (s : State) (r : Nat) (lo : Bool) (v : Nat) : State :=
  if r = 8 ∧ lo then s.mgrPasidWrite (bitsAt v 0 20) (bitsAt v 20 11) else s

/-- MIC_FLIP: a half that does not hold ARM starts nothing. -/
def State.micWrite (s : State) (r : Nat) (lo hi : Bool) (v : Nat) : State :=
  if r = 0x100 then
    let m := s.mic
    let low := if lo then v else m.flipCls * 8 + m.flipOnCrc.toNat * 128 + m.flipIsl * 256 + m.flipOff * 65536
    s.flipWrite (if lo then v % 2 else 0) (bitsAt low 3 4) (bitsAt low 8 7) (bitsAt low 16 6) (if hi then bitsAt v 32 16 else m.flipMask) (bitAt low 7)
  else s

def State.fltWrite (s : State) (r : Nat) (lo : Bool) (v : Nat) : State :=
  if !lo then s
  else if r = 0x08 then s.ackFaults (v % 2 ^ 32)
  else if r = 0x10 then { s with flt := { s.flt with vector := bitsAt v 0 11, evcVector := bitsAt v 16 11 } }
  else if r = 0x18 then s.safeRelease (v % 2)
  else if r = 0x20 then s.releaseUnit (bitsAt v 0 7) (bitsAt v 7 8)
  else s

/-- The fields of EVC_SEL as its register holds them. -/
def Ctr.reg (c : Ctr) : Nat :=
  c.en.toNat + c.select * 2 + c.slice * 2 ^ 12 + c.island * 2 ^ 28 + c.level.toNat * 2 ^ 36 + c.thrInt.toNat * 2 ^ 37

/-- EVC_SEL (R373, R374): refused for an island above 71 other than 0xFF; CLEAR zeroes the counter. -/
def State.selWrite (s : State) (k : Nat) (lo hi : Bool) (v : Nat) : State :=
  let c := s.ctr k
  let n := merged c.reg lo hi v
  if 71 < bitsAt n 28 8 ∧ bitsAt n 28 8 ≠ 0xFF then s.setCtr k { c with selAct := wsShown (n % 2 ^ 38 + (hi && bitAt v 38).toNat * 2 ^ 38) }
  else s.setCtr k { c with en := bitAt n 0, select := bitsAt n 1 11, slice := bitsAt n 12 16, island := bitsAt n 28 8, level := bitAt n 36
                           thrInt := bitAt n 37, selAct := wsNow true, cnt := if hi && bitAt v 38 then 0 else c.cnt
                           clr := c.clr || (hi && bitAt v 38) }

def State.evcWrite (s : State) (r : Nat) (lo hi : Bool) (v : Nat) : State :=
  if r < 0x8000 then
    if r % 0x20 = 0 then s.selWrite (r / 0x20) lo hi v
    else if r % 0x20 = 0x10 then s.setCtr (r / 0x20) { (s.ctr (r / 0x20)) with thr := merged (s.ctr (r / 0x20)).thr lo hi v }
    else s
  else if 0x10000 ≤ r ∧ r < 0x10200 ∧ lo then
    let g := (r - 0x10000) / 8
    let s1 := s.setGrp g { (s.grp g) with hit := w1c (s.grp g).hit (bitsAt v 4 16) 16, snapW := (s.grp g).snapW || bitAt v 0 }
    (if bitAt v 0 then s1.snapGroup g else s1).freezeGroup g (bitAt v 1)
  else s

/-- PWR_EVT: clearing BROWNOUT ends the hold of LP_REFUSED (R388), which then tells the last request's fate. -/
def State.evtWrite (s : State) (v : Nat) : State :=
  let p := s.pwr
  { s with pwr := { p with brownout := p.brownout && !bitAt v 0, lpRevert := p.lpRevert && !bitAt v 1, wakeSb := p.wakeSb && !bitAt v 2
                           wakeLink := p.wakeLink && !bitAt v 3, wakeBay := p.wakeBay && !bitAt v 4
                           lpRefused := if p.brownout && bitAt v 0 then p.reqAct.act == .refused else p.lpRefused } }

/-- AUTO of PWR_PADHOLD (R394): not for a DMI domain; set, it releases a hold whose domain is on again. -/
def State.autoWrite (s : State) (isl : Nat) (a : Bool) : State :=
  if isDmi isl then s
  else
    let s1 := s.modIsl isl (fun x => { x with padAuto := a })
    if a && s.domOn isl && (s.isle isl).sleepHold then (s1.modIsl isl (fun x => { x with sleepHold := false })).kickMcl isl else s1

def State.pwrWrite (s : State) (r : Nat) (lo : Bool) (v : Nat) : State :=
  let isl := (r - 0x1000) / 0x20
  if !lo then s
  else if r = 0x08 then s.keeperRequest (v % 2)
  else if r = 0x10 then s.evtWrite v
  else if 0x1000 ≤ r ∧ isl < 72 ∧ r % 0x20 = 0 then s.floorWrite isl (v % 4)
  else if 0x1000 ≤ r ∧ isl < 72 ∧ r % 0x20 = 0x10 then (s.autoWrite isl (bitAt v 3)).padRelease isl (v % 2)
  else s

def State.thmWrite (s : State) (r : Nat) (lo : Bool) (v : Nat) : State :=
  if 0x300 ≤ r ∧ r < 0x480 ∧ lo then s.retestWrite ((r - 0x300) / 8) (v % 2) else s

def State.fwuWrite (s : State) (r : Nat) (lo : Bool) (v : Nat) : State := if r = 0x20 ∧ lo then s.fwuAbort (v % 2) else s

def State.cryWrite (s : State) (r : Nat) (lo : Bool) (v : Nat) : State := if r < 0x80 ∧ lo then s.sharedKeyWrite (r / 8) (v % 2) else s

/-- The island that holds a block's registers: the unit that the block describes (Table 1-2), AON where its chapter says so
(R399, R461) (DEDUCED, log 150). A register of one island lies in that island. -/
def dmsIsl (r : Nat) : Nat :=
  let o := r % 0x100000
  match r / 0x100000 with
  | 0x00 => islAON
  | 0x01 => islAON
  | 0x03 => islHFE
  | 0x04 => islCMI
  | 0x05 => islTRN
  | 0x06 => islMCL (o / 0x10000)
  | 0x08 => islCMI
  | 0x09 => islMCL (o / 0x40)
  | 0x0A => islENG (o / 0x20)
  | 0x0B => if o < 0x400 then islUCC (o / 0x20) else islCMI
  | 0x0C => islWVF (o / 0x1000)
  | 0x0D => islCMI
  | 0x0E => islCMI
  | 0x0F => islSEC
  | 0x10 => if 0x10000 ≤ o then (o - 0x10000) / 0x100 else islCTL
  | 0x13 => islAON
  | 0x1A => islSEC
  | _ => islCTL

/-- A write in the DMS at offset `r` (a multiple of 8) through port `via`: a register that is read-only, or an address that is
reserved, ignores it (R7, R12). It wakes the island that holds the block (R391, R392). -/
def State.dmsWrite (s0 : State) (via r : Nat) (lo hi : Bool) (v : Nat) : State :=
  let o := r % 0x100000
  let s := s0.access (dmsIsl r)
  match r / 0x100000 with
  | 0x00 => s.glbWrite o lo v
  | 0x02 => s.patWrite o lo v
  | 0x03 => s.hlkWrite via o lo hi v
  | 0x04 => s.cmdWrite o lo v
  | 0x05 => s.zonWrite o lo v
  | 0x06 => s.medWrite o lo v
  | 0x07 => s.mlfWrite o lo v
  | 0x08 => s.cpxWrite o lo v
  | 0x0B => s.upcWrite o lo v
  | 0x0E => s.sliWrite o lo v
  | 0x10 => s.micWrite o lo hi v
  | 0x11 => s.fltWrite o lo v
  | 0x12 => s.evcWrite o lo hi v
  | 0x13 => s.pwrWrite o lo v
  | 0x14 => s.thmWrite o lo v
  | 0x17 => s.fwuWrite o lo v
  | 0x1A => s.cryWrite o lo v
  | _ => s

/-! The code array window: byte writes are command sequences (R426, R427). -/

/-- A byte of the host at an offset of a bank. The write ends the host's identify view; the host may issue 0x90 and 0xF0 only. -/
def State.seqByte (s : State) (port b off v : Nat) : State :=
  let x := (s.bank b).dropView (.host port)
  let st := if x.seqPort = port then x.seqStep else 0
  let at0 (n : Nat) : State := s.setBank b { x with seqStep := n, seqPort := port }
  if st = 2 ∧ off = 0xA5A0 then
    if v = 0x90 then (at0 0).identifyView (.host port) b
    else if v = 0xF0 then (at0 0).resetBank (.host port) b
    else if v = 0x20 ∨ v = 0x30 then (at0 0).refuseSeq b 2
    else at0 0
  else if st = 1 ∧ off = 0x5A50 ∧ v = 0xA5 then at0 2
  else if off = 0xA5A0 ∧ v = 0x5A then at0 1
  else at0 0

/-- A write of `width` bytes at a BAR0 address (Table 3-3, R477) (DESIGN CHOICE, log 148). -/
def State.mmioWrite (s : State) (port addr width v : Nat) : State :=
  let w8 := addr % 8 = 0 ∧ width = 8
  let w4 := addr % 4 = 0 ∧ width = 4
  let lo := decide (addr % 8 = 0)
  let hi := decide (addr % 8 = 4 ∨ width = 8)
  let x := if addr % 8 = 4 then v % 2 ^ 32 * 2 ^ 32 else v % 2 ^ (8 * width)
  let a := addr / 8 * 8
  if addr < 0x8000000 then
    let sl := addr / 0x10000
    let off := addr % 0x10000
    if 0x8000 ≤ off ∧ off < 0x8FF0 then
      (if s.liveOn port sl && !s.flt.safe && decide (off + width ≤ 0x8FF0) then s.mbInWrite sl (off - 0x8000) width v else s)
    else if width < 4 then s.badAccess addr
    else if (w8 ∨ w4) ∧ s.liveOn port sl ∧ !s.flt.safe then s.pageWord port sl (a % 0x10000) lo hi x
    else s
  else if addr < 0xC000000 then
    if width < 4 then s.badAccess addr
    else if w8 ∨ w4 then s.dmsWrite port (a - 0x8000000) lo hi x
    else s
  else if addr < 0x10000000 then
    (if width = 1 then s.seqByte port ((addr - 0xC000000) / 0x1000000) ((addr - 0xC000000) % 0x1000000) (v % 256) else s)
  else s.badAccess addr

/-- REGISTER_WRITE: a write of 1 to 64 bytes through BAR0 of a port. It reaches the Z9 as a TLP, through HFE (Table 13-3). -/
def execRegisterWrite (port addr width value : Nat) (s : State) : Out :=
  if 2 ^ 29 ≤ addr then .fault .outsideBar0
  else guardUnit s (portOk port && decide (1 ≤ width) && decide (width ≤ 64))
    (if s.hasPort port then (s.access islHFE).mmioWrite port addr width value else s)

end Sys2Proof.Machine
end

