-- ==== Sys2Proof/Machine/Dispatch.lean ====
section
/-! DEFINITION. One arm per command: each calls the meaning of its row. -/

namespace Sys2Proof.Machine

def exec (i : Instr) (s : State) : Host.Outcome State Fault Refusal :=
  match i with
  | .registerWrite port addr width value => Sys2Proof.Machine.execRegisterWrite port addr width value s
  | .islandTransfer t => Sys2Proof.Machine.execIslandTransfer t s
  | .operatingPointChange isl point => Sys2Proof.Machine.execOperatingPointChange isl point s
  | .epochStart est => Sys2Proof.Machine.execEpochStart est s
  | .dramMarginTrack ch marginPs => Sys2Proof.Machine.execDramMarginTrack ch marginPs s
  | .routeBindingComplete slot => Sys2Proof.Machine.execRouteBindingComplete slot s
  | .doorbellWrite port slice qid isCq value => Sys2Proof.Machine.execDoorbellWrite port slice qid isCq value s
  | .sqFetch dq q => Sys2Proof.Machine.execSqFetch dq q s
  | .sqEntryReadFail dq => Sys2Proof.Machine.execSqEntryReadFail dq s
  | .hostReadTimeout c => Sys2Proof.Machine.execHostReadTimeout c s
  | .cometStreamTimeout stream => Sys2Proof.Machine.execCometStreamTimeout stream s
  | .rangeLockRelease c => Sys2Proof.Machine.execRangeLockRelease c s
  | .routeSeat c => Sys2Proof.Machine.execRouteSeat c s
  | .mediaDispatch r => Sys2Proof.Machine.execMediaDispatch r s
  | .dieOperationComplete die res => Sys2Proof.Machine.execDieOperationComplete die res s
  | .readDeadlineExpire c u tag => Sys2Proof.Machine.execReadDeadlineExpire c u tag s
  | .dieReadyTimeout die restored => Sys2Proof.Machine.execDieReadyTimeout die restored s
  | .hostDataTransferDone c d => Sys2Proof.Machine.execHostDataTransferDone c d s
  | .writeBufferRoom c => Sys2Proof.Machine.execWriteBufferRoom c s
  | .commandCommit c => Sys2Proof.Machine.execCommandCommit c s
  | .completionPost c => Sys2Proof.Machine.execCompletionPost c s
  | .flush c => Sys2Proof.Machine.execFlush c s
  | .write c => Sys2Proof.Machine.execWrite c s
  | .read c => Sys2Proof.Machine.execRead c s
  | .writeUncorrectable c => Sys2Proof.Machine.execWriteUncorrectable c s
  | .compare c => Sys2Proof.Machine.execCompare c s
  | .writeZeroes c => Sys2Proof.Machine.execWriteZeroes c s
  | .datasetManagement c ranges => Sys2Proof.Machine.execDatasetManagement c ranges s
  | .verifyCommand c => Sys2Proof.Machine.execVerifyCommand c s
  | .ioManagementReceive c => Sys2Proof.Machine.execIoManagementReceive c s
  | .ioManagementSend c pids => Sys2Proof.Machine.execIoManagementSend c pids s
  | .copy c ranges => Sys2Proof.Machine.execCopy c ranges s
  | .zoneAppend c => Sys2Proof.Machine.execZoneAppend c s
  | .zoneOpen c => Sys2Proof.Machine.execZoneOpen c s
  | .zoneClose c => Sys2Proof.Machine.execZoneClose c s
  | .zoneFinish c => Sys2Proof.Machine.execZoneFinish c s
  | .zoneReset c => Sys2Proof.Machine.execZoneReset c s
  | .zoneOffline c => Sys2Proof.Machine.execZoneOffline c s
  | .zoneManagementReceive c => Sys2Proof.Machine.execZoneManagementReceive c s
  | .zoneFinishRecommend ns zone => Sys2Proof.Machine.execZoneFinishRecommend ns zone s
  | .zoneControllerFinish ns zone => Sys2Proof.Machine.execZoneControllerFinish ns zone s
  | .abort c => Sys2Proof.Machine.execAbort c s
  | .createIoSq c => Sys2Proof.Machine.execCreateIoSq c s
  | .createIoCq c => Sys2Proof.Machine.execCreateIoCq c s
  | .deleteIoSq c => Sys2Proof.Machine.execDeleteIoSq c s
  | .deleteIoCq c => Sys2Proof.Machine.execDeleteIoCq c s
  | .getLogPage c => Sys2Proof.Machine.execGetLogPage c s
  | .identify c => Sys2Proof.Machine.execIdentify c s
  | .setFeatures c data => Sys2Proof.Machine.execSetFeatures c data s
  | .getFeatures c => Sys2Proof.Machine.execGetFeatures c s
  | .powerStateEntryTimeout => Sys2Proof.Machine.execPowerStateEntryTimeout s
  | .powerStateReached => Sys2Proof.Machine.execPowerStateReached s
  | .asynchronousEventRequest c => Sys2Proof.Machine.execAsynchronousEventRequest c s
  | .namespaceCreate c buf => Sys2Proof.Machine.execNamespaceCreate c buf s
  | .namespaceDelete c => Sys2Proof.Machine.execNamespaceDelete c s
  | .namespaceAttachment c ctrls => Sys2Proof.Machine.execNamespaceAttachment c ctrls s
  | .directiveSend c => Sys2Proof.Machine.execDirectiveSend c s
  | .directiveReceive c => Sys2Proof.Machine.execDirectiveReceive c s
  | .nvmeMiSend c m => Sys2Proof.Machine.execNvmeMiSend c m s
  | .nvmeMiReceive c m => Sys2Proof.Machine.execNvmeMiReceive c m s
  | .formatNvm c => Sys2Proof.Machine.execFormatNvm c s
  | .sanitize c => Sys2Proof.Machine.execSanitize c s
  | .sessionChallenge c => Sys2Proof.Machine.execSessionChallenge c s
  | .sessionOpen c mac => Sys2Proof.Machine.execSessionOpen c mac s
  | .sessionClose c => Sys2Proof.Machine.execSessionClose c s
  | .challengeExpire r => Sys2Proof.Machine.execChallengeExpire r s
  | .keyLockoutExpire key => Sys2Proof.Machine.execKeyLockoutExpire key s
  | .sliceCreate c buf => Sys2Proof.Machine.execSliceCreate c buf s
  | .sliceReset c => Sys2Proof.Machine.execSliceReset c s
  | .sliceRemove c => Sys2Proof.Machine.execSliceRemove c s
  | .setKey c key => Sys2Proof.Machine.execSetKey c key s
  | .clearKey c => Sys2Proof.Machine.execClearKey c s
  | .sliceResetComplete slice => Sys2Proof.Machine.execSliceResetComplete slice s
  | .resetDrainTimeout slice isl unit => Sys2Proof.Machine.execResetDrainTimeout slice isl unit s
  | .controllerEnable port slice crime => Sys2Proof.Machine.execControllerEnable port slice crime s
  | .controllerReset port slice => Sys2Proof.Machine.execControllerReset port slice s
  | .shutdownNotification port slice => Sys2Proof.Machine.execShutdownNotification port slice s
  | .patternLoadTransfer c data => Sys2Proof.Machine.execPatternLoadTransfer c data s
  | .patternLoadCommit c => Sys2Proof.Machine.execPatternLoadCommit c s
  | .patternLoadErase c => Sys2Proof.Machine.execPatternLoadErase c s
  | .patternLoadIdleExpire => Sys2Proof.Machine.execPatternLoadIdleExpire s
  | .panelReloadTransfer c data => Sys2Proof.Machine.execPanelReloadTransfer c data s
  | .panelReloadApply c => Sys2Proof.Machine.execPanelReloadApply c s
  | .reloadDrainComplete failAt => Sys2Proof.Machine.execReloadDrainComplete failAt s
  | .reloadAbandon => Sys2Proof.Machine.execReloadAbandon s
  | .portOwnershipQuery c => Sys2Proof.Machine.execPortOwnershipQuery c s
  | .portOwnershipRelease c => Sys2Proof.Machine.execPortOwnershipRelease c s
  | .portOwnershipAcquire c => Sys2Proof.Machine.execPortOwnershipAcquire c s
  | .portOwnershipTakeover c => Sys2Proof.Machine.execPortOwnershipTakeover c s
  | .setSharedRead c => Sys2Proof.Machine.execSetSharedRead c s
  | .clearSharedRead c => Sys2Proof.Machine.execClearSharedRead c s
  | .setFencingKey c => Sys2Proof.Machine.execSetFencingKey c s
  | .takeoverLockoutExpire ns => Sys2Proof.Machine.execTakeoverLockoutExpire ns s
  | .marginPlanRun c m => Sys2Proof.Machine.execMarginPlanRun c m s
  | .marginPlanReport c => Sys2Proof.Machine.execMarginPlanReport c s
  | .firmwareImageDownload c data => Sys2Proof.Machine.execFirmwareImageDownload c data s
  | .firmwareCommitApply c progOk => Sys2Proof.Machine.execFirmwareCommitApply c progOk s
  | .firmwareCommitApplyNext c progOk => Sys2Proof.Machine.execFirmwareCommitApplyNext c progOk s
  | .firmwareCommitMarkNext c => Sys2Proof.Machine.execFirmwareCommitMarkNext c s
  | .firmwareCommitActivate c progOk => Sys2Proof.Machine.execFirmwareCommitActivate c progOk s
  | .activationTimeout => Sys2Proof.Machine.execActivationTimeout s
  | .stagingLockIdleExpire => Sys2Proof.Machine.execStagingLockIdleExpire s
  | .fwuAbort => Sys2Proof.Machine.execFwuAbort s
  | .knownGoodTimer => Sys2Proof.Machine.execKnownGoodTimer s
  | .migrationWindowEnd => Sys2Proof.Machine.execMigrationWindowEnd s
  | .job c desc list aux => Sys2Proof.Machine.execJob c desc list aux s
  | .jobTimeQuotaExpire c => Sys2Proof.Machine.execJobTimeQuotaExpire c s
  | .engineUnitComplete c unit => Sys2Proof.Machine.execEngineUnitComplete c unit s
  | .computeMemoryAllocate c => Sys2Proof.Machine.execComputeMemoryAllocate c s
  | .computeMemoryFree c => Sys2Proof.Machine.execComputeMemoryFree c s
  | .computeFreeDrained slice handle => Sys2Proof.Machine.execComputeFreeDrained slice handle s
  | .programLoadTransfer c data => Sys2Proof.Machine.execProgramLoadTransfer c data s
  | .programLoadCommit c => Sys2Proof.Machine.execProgramLoadCommit c s
  | .programLoadDiscard c => Sys2Proof.Machine.execProgramLoadDiscard c s
  | .programUnload c => Sys2Proof.Machine.execProgramUnload c s
  | .programUnloadDrained slice handle => Sys2Proof.Machine.execProgramUnloadDrained slice handle s
  | .coresGranted c => Sys2Proof.Machine.execCoresGranted c s
  | .syscallExit core => Sys2Proof.Machine.execSyscallExit core s
  | .syscallFail core code pc => Sys2Proof.Machine.execSyscallFail core code pc s
  | .syscallEmit core data => Sys2Proof.Machine.execSyscallEmit core data s
  | .syscallViewOpen core port ext off len => Sys2Proof.Machine.execSyscallViewOpen core port ext off len s
  | .syscallViewNext core port => Sys2Proof.Machine.execSyscallViewNext core port s
  | .viewChunkArrive core port len => Sys2Proof.Machine.execViewChunkArrive core port len s
  | .syscallViewRelease core port va => Sys2Proof.Machine.execSyscallViewRelease core port va s
  | .syscallExtentLen core ext => Sys2Proof.Machine.execSyscallExtentLen core ext s
  | .syscallCmMap core handle off len => Sys2Proof.Machine.execSyscallCmMap core handle off len s
  | .syscallCmUnmap core va => Sys2Proof.Machine.execSyscallCmUnmap core va s
  | .syscallHostRead core va haddr data => Sys2Proof.Machine.execSyscallHostRead core va haddr data s
  | .syscallHostWrite core va haddr data granted => Sys2Proof.Machine.execSyscallHostWrite core va haddr data granted s
  | .syscallBarrier core => Sys2Proof.Machine.execSyscallBarrier core s
  | .syscallSetCounts core nIn nOut => Sys2Proof.Machine.execSyscallSetCounts core nIn nOut s
  | .programTrap core cause pc tval => Sys2Proof.Machine.execProgramTrap core cause pc tval s
  | .weaveStep half weave words => Sys2Proof.Machine.execWeaveStep half weave words s
  | .atsInvalidation port addr len => Sys2Proof.Machine.execAtsInvalidation port addr len s
  | .frameAllocate cls unit slice who => Sys2Proof.Machine.execFrameAllocate cls unit slice who s
  | .frameShare handle unit final => Sys2Proof.Machine.execFrameShare handle unit final s
  | .frameFree handle unit => Sys2Proof.Machine.execFrameFree handle unit s
  | .frameOwnershipPass handle src dst => Sys2Proof.Machine.execFrameOwnershipPass handle src dst s
  | .poolAudit => Sys2Proof.Machine.execPoolAudit s
  | .shareSet slice => Sys2Proof.Machine.execShareSet slice s
  | .shareQuery slice => Sys2Proof.Machine.execShareQuery slice s
  | .relay slice => Sys2Proof.Machine.execRelay slice s
  | .mailboxSend slice port send => Sys2Proof.Machine.execMailboxSend slice port send s
  | .mailboxAck slice port ack => Sys2Proof.Machine.execMailboxAck slice port ack s
  | .sliMgrPasidWrite pasid vector => Sys2Proof.Machine.execSliMgrPasidWrite pasid vector s
  | .sharedKeyConfig cls value => Sys2Proof.Machine.execSharedKeyConfig cls value s
  | .tableReplayComplete isMap key readable => Sys2Proof.Machine.execTableReplayComplete isMap key readable s
  | .dmaChannelRestart c sourceOk => Sys2Proof.Machine.execDmaChannelRestart c sourceOk s
  | .mergeBufferFlush isl line chk => Sys2Proof.Machine.execMergeBufferFlush isl line chk s
  | .dramBackgroundFill j groups => Sys2Proof.Machine.execDramBackgroundFill j groups s
  | .flipArm arm cls isl offset mask onCrc => Sys2Proof.Machine.execFlipArm arm cls isl offset mask onCrc s
  | .faultEvent ev => Sys2Proof.Machine.execFaultEvent ev s
  | .faultHandlingEnd src => Sys2Proof.Machine.execFaultHandlingEnd src s
  | .islandResetEnd isl => Sys2Proof.Machine.execIslandResetEnd isl s
  | .faultAck seq => Sys2Proof.Machine.execFaultAck seq s
  | .safeStateRelease v => Sys2Proof.Machine.execSafeStateRelease v s
  | .fltRelease isl unit => Sys2Proof.Machine.execFltRelease isl unit s
  | .watchdogExpire => Sys2Proof.Machine.execWatchdogExpire s
  | .ctlRestart => Sys2Proof.Machine.execCtlRestart s
  | .counterEvent sel slice isl level => Sys2Proof.Machine.execCounterEvent sel slice isl level s
  | .counterClear ctr => Sys2Proof.Machine.execCounterClear ctr s
  | .counterSnapshot grp => Sys2Proof.Machine.execCounterSnapshot grp s
  | .counterFreeze grp => Sys2Proof.Machine.execCounterFreeze grp s
  | .counterUnfreeze grp => Sys2Proof.Machine.execCounterUnfreeze grp s
  | .domainIdleTimeout isl => Sys2Proof.Machine.execDomainIdleTimeout isl s
  | .domainEntryComplete isl => Sys2Proof.Machine.execDomainEntryComplete isl s
  | .domainWake isl cause => Sys2Proof.Machine.execDomainWake isl cause s
  | .domainWakeComplete isl us => Sys2Proof.Machine.execDomainWakeComplete isl us s
  | .dramDeepSleep j => Sys2Proof.Machine.execDramDeepSleep j s
  | .floorWrite isl floor => Sys2Proof.Machine.execFloorWrite isl floor s
  | .keeperModeRequest req => Sys2Proof.Machine.execKeeperModeRequest req s
  | .keeperEstimate => Sys2Proof.Machine.execKeeperEstimate s
  | .keeperLpReentry => Sys2Proof.Machine.execKeeperLpReentry s
  | .brownOut => Sys2Proof.Machine.execBrownOut s
  | .padHoldRelease isl v => Sys2Proof.Machine.execPadHoldRelease isl v s
  | .sidebandAddressMatch => Sys2Proof.Machine.execSidebandAddressMatch s
  | .wakeTimerExpire => Sys2Proof.Machine.execWakeTimerExpire s
  | .sensorConversion u r => Sys2Proof.Machine.execSensorConversion u r s
  | .sensorHoldExpire u => Sys2Proof.Machine.execSensorHoldExpire u s
  | .sensorRetest u v => Sys2Proof.Machine.execSensorRetest u v s
  | .sensorRetestEnd u => Sys2Proof.Machine.execSensorRetestEnd u s
  | .thermalShutdownPowerOff => Sys2Proof.Machine.execThermalShutdownPowerOff s
  | .dieTemperatureRead die t => Sys2Proof.Machine.execDieTemperatureRead die t s
  | .pathMonitorSample isl slacks => Sys2Proof.Machine.execPathMonitorSample isl slacks s
  | .marginReplanDue m => Sys2Proof.Machine.execMarginReplanDue m s
  | .pendingIslandMeasure isl m => Sys2Proof.Machine.execPendingIslandMeasure isl m s
  | .hourlyRecordSave => Sys2Proof.Machine.execHourlyRecordSave s
  | .wearSpreadCheck set => Sys2Proof.Machine.execWearSpreadCheck set s
  | .relocationSwitch id => Sys2Proof.Machine.execRelocationSwitch id s
  | .journalCheckpoint seg => Sys2Proof.Machine.execJournalCheckpoint seg s
  | .channelRetune ch marginPct => Sys2Proof.Machine.execChannelRetune ch marginPct s
  | .channelRetrain ch v ok => Sys2Proof.Machine.execChannelRetrain ch v ok s
  | .clusterSchedWrite k ecl rebuild susp => Sys2Proof.Machine.execClusterSchedWrite k ecl rebuild susp s
  | .bayInsertion b => Sys2Proof.Machine.execBayInsertion b s
  | .bayPresenceDebounced b => Sys2Proof.Machine.execBayPresenceDebounced b s
  | .bayPwrgdRise b => Sys2Proof.Machine.execBayPwrgdRise b s
  | .bayPowerTimeout b => Sys2Proof.Machine.execBayPowerTimeout b s
  | .bayScanComplete b dies pp => Sys2Proof.Machine.execBayScanComplete b dies pp s
  | .baySurpriseRemoval b gone => Sys2Proof.Machine.execBaySurpriseRemoval b gone s
  | .bayPwrgdFallSafe b => Sys2Proof.Machine.execBayPwrgdFallSafe b s
  | .bayAttention b => Sys2Proof.Machine.execBayAttention b s
  | .bayRemove b force => Sys2Proof.Machine.execBayRemove b force s
  | .bayRemovalDrained b => Sys2Proof.Machine.execBayRemovalDrained b s
  | .bayAccept b => Sys2Proof.Machine.execBayAccept b s
  | .bayReject b => Sys2Proof.Machine.execBayReject b s
  | .bayRetryPower b => Sys2Proof.Machine.execBayRetryPower b s
  | .pfailAssert landed => Sys2Proof.Machine.execPfailAssert landed s
  | .linkUp p gts lanes => Sys2Proof.Machine.execLinkUp p gts lanes s
  | .linkDown p => Sys2Proof.Machine.execLinkDown p s
  | .moduleLaneFailure m lost failed => Sys2Proof.Machine.execModuleLaneFailure m lost failed s
  | .ucieRecalibration m eye => Sys2Proof.Machine.execUcieRecalibration m eye s
  | .trickleEnter port answered => Sys2Proof.Machine.execTrickleEnter port answered s
  | .trickleExit port doorbell => Sys2Proof.Machine.execTrickleExit port doorbell s
  | .trickleEntryComplete => Sys2Proof.Machine.execTrickleEntryComplete s
  | .trickleExitComplete => Sys2Proof.Machine.execTrickleExitComplete s
  | .detachRequest p v => Sys2Proof.Machine.execDetachRequest p v s
  | .detachQuiesced p expired => Sys2Proof.Machine.execDetachQuiesced p expired s
  | .detachFlushed p => Sys2Proof.Machine.execDetachFlushed p s
  | .leaseBeat p via v => Sys2Proof.Machine.execLeaseBeat p via v s
  | .leaseExpire p => Sys2Proof.Machine.execLeaseExpire p s
  | .bar2MapWrite p j en slice handle baseMib lenMib => Sys2Proof.Machine.execBar2MapWrite p j en slice handle baseMib lenMib s
  | .bar2Access p addr len wr => Sys2Proof.Machine.execBar2Access p addr len wr s
  | .oqConfig oq en slice sqid => Sys2Proof.Machine.execOqConfig oq en slice sqid s
  | .oqResume port slice sqid => Sys2Proof.Machine.execOqResume port slice sqid s
  | .zoneLimitConfig n maxActive maxOpen => Sys2Proof.Machine.execZoneLimitConfig n maxActive maxOpen s
  | .jobLanesConfig lanes => Sys2Proof.Machine.execJobLanesConfig lanes s
  | .computeLimitConfig slice lim => Sys2Proof.Machine.execComputeLimitConfig slice lim s
  | .atsGrant slice v => Sys2Proof.Machine.execAtsGrant slice v s
  | .wearLevelConfig limit stop reloc => Sys2Proof.Machine.execWearLevelConfig limit stop reloc s
  | .spareThresholdConfig thresh => Sys2Proof.Machine.execSpareThresholdConfig thresh s
  | .interruptUnmask port slice entry => Sys2Proof.Machine.execInterruptUnmask port slice entry s
  | .fetchHold slice => Sys2Proof.Machine.execFetchHold slice s
  | .fetchRelease slice => Sys2Proof.Machine.execFetchRelease slice s
  | .arrayProgram who bank page data => Sys2Proof.Machine.execArrayProgram who bank page data s
  | .arrayErase who bank sector => Sys2Proof.Machine.execArrayErase who bank sector s
  | .arrayIdentify who bank => Sys2Proof.Machine.execArrayIdentify who bank s
  | .arrayAbortReset who bank => Sys2Proof.Machine.execArrayAbortReset who bank s
  | .arraySequenceTimeout bank => Sys2Proof.Machine.execArraySequenceTimeout bank s
  | .arrayOperationComplete bank ok => Sys2Proof.Machine.execArrayOperationComplete bank ok s
  | .arrayScrub weak lost => Sys2Proof.Machine.execArrayScrub weak lost s
  | .powerOn b => Sys2Proof.Machine.execPowerOn b s
  | .adminReady => Sys2Proof.Machine.execAdminReady s
  | .mediaReady => Sys2Proof.Machine.execMediaReady s
  | .deviceResetAssert => Sys2Proof.Machine.execDeviceResetAssert s
  | .deviceResetRelease b => Sys2Proof.Machine.execDeviceResetRelease b s
  | .vreqAlert high => Sys2Proof.Machine.execVreqAlert high s
  | .vreqAlertTimeout => Sys2Proof.Machine.execVreqAlertTimeout s
  | .vddSramMeasure mv => Sys2Proof.Machine.execVddSramMeasure mv s
  | .powerGoodLoss input => Sys2Proof.Machine.execPowerGoodLoss input s
  | .refclkLoss => Sys2Proof.Machine.execRefclkLoss s
  | .sidebandMessage eid m crcOk => Sys2Proof.Machine.execSidebandMessage eid m crcOk s
  | .pcieConfigWrite port f value => Sys2Proof.Machine.execPcieConfigWrite port f value s
  | .portHotReset port => Sys2Proof.Machine.execPortHotReset port s
  | .ruTimeLimitExceeded set handle => Sys2Proof.Machine.execRuTimeLimitExceeded set handle s
  | .retentionAgeCheck die group ageH => Sys2Proof.Machine.execRetentionAgeCheck die group ageH s
  | .interruptCoalescingTime dq => Sys2Proof.Machine.execInterruptCoalescingTime dq s

end Sys2Proof.Machine
end

