-- ==== Sys2Proof/Safety.lean ====
section
/-! DEFINITION. What counts as a safe run: no step of it stops. -/

namespace Sys2Proof

/-- The block answers a next state. -/
def Completes (o : Host.Outcome Machine.State Machine.Fault Machine.Refusal) : Prop := ∃ t, o = .next t

/-- A step stops with a fault only for a BAR0 access outside the window. -/
def StepSafe (s : Machine.State) : Prop := Completes (Machine.step s)

namespace Machine

/-- The command completes: exec answers a next state, and of that state `P` holds. -/
def Gives (i : Instr) (s : State) (P : State → Prop) : Prop := ∃ t, exec i s = .next t ∧ P t

/-- The command in context `c` has its outcome and waits at stage 14 for its completion entry. -/
def Ended (c : Nat) (o : Outc) (t : State) : Prop := (t.ctx c).stage = 14 ∧ (t.ctx c).committed = true ∧ (t.ctx c).outc = some o

/-- The command in context `c` ends with outcome `o` and the data `d`; every other context, and the rest of the command
pipeline, is as in `s`. -/
def EndsWith (c : Nat) (o : Outc) (d : OutData) (s t : State) : Prop :=
  t.ctx c = { (s.ctx c) with stage := 14, committed := true, wait := 0, outc := some o, out := d }
    ∧ (∀ e, e ≠ c → t.ctx e = s.ctx e) ∧ t.cmd = { s.cmd with ctxs := t.cmd.ctxs }

/-- The same for a command that sends no data besides its completion. -/
def Ends (c : Nat) (o : Outc) (s t : State) : Prop := EndsWith c o (s.ctx c).out s t

/-- The command in context `c` is accepted and waits; every other context is as in `s`. -/
def Parked (c : Nat) (s t : State) : Prop :=
  t.ctx c = { (s.ctx c) with decoded := true } ∧ (∀ e, e ≠ c → t.ctx e = s.ctx e)

/-- The command in context `c` waits at stage 13, the commit point, with an outcome. -/
def AtCommit (c : Nat) (o : Outc) (t : State) : Prop := (t.ctx c).stage = 13 ∧ (t.ctx c).outc = some o

/-- The islands of `l` are on and serve, and no power change of theirs runs. -/
def AllAwake (l : List Nat) (s : State) : Prop := ∀ i ∈ l, (s.isle i).dstate = .on ∧ (s.isle i).change = none ∧ (s.isle i).avail = .available

/-- A command that takes a seat names a route slot that is neither FREE nor DRAINING (R29). -/
def SeatOpen (s : State) (c : Nat) : Prop :=
  seatOps.contains (s.ctx c).opc = true → (s.route (s.ctx c).route).state ≠ .free ∧ (s.route (s.ctx c).route).state ≠ .draining

/-- The I/O command in context `c` stands at stage 3, it is its turn, its route is open, and its namespace admits it. -/
def Admitted (s : State) (c op : Nat) (w : Bool) : Prop :=
  s.rowTurn c op = true ∧ (s.ctx c).stage = 3 ∧ SeatOpen s c ∧ s.admitErr (s.ctx c) (s.ctx c).nsid w = none ∧ s.pendingDwe (s.ctx c).slice (s.ctx c).nsid = none

/-- The code array's memory stands in its canonical form: addresses strictly rise and no listed byte is an erased one. -/
def ArrayCanonical (s : State) : Prop := Memory.wf s.cnv.bytes = true

/-- The counters stand listed once each, in rising order. -/
def CountersRising (s : State) : Prop := (s.ctrs.map (·.1)).Pairwise (· < ·)

end Machine

end Sys2Proof
end

