-- ==== Sys2Proof/Certificates/Slice0/Obligations.lean ====
section
/-! DEFINITION. The statements for the provers: what each row of the command table does where it acts, and what holds of every
step. A row that acts is given by `Gives`: exec answers a next state with the properties named. Parts of the state that a clause
lists as `t.x` may change; every other part is equal to what it was. `free` is the counter of the free values (log 3). -/

open Sys2Proof Sys2Proof.Machine

/-- A transfer to an island that serves is delivered, one to an isolated island is refused, counted and answered; an island takes an operating point its voltage serves; an epoch start advances the epoch and takes the power estimate; a DRAM margin is recorded, below the Pattern bound with an Advisory fault; a BINDING route slot becomes BOUND and the commands that wait for it go on. Nothing else changes but the parts named. -/
def Obligations.IslandRows : Prop :=
  (∀ (s : State) (t : Transfer), t.src < 72 → t.dst < 72 → t.ctx = none → t.body = .plain → AllAwake [t.dst] s →
    Gives (.islandTransfer t) s (fun u => u = { s with host := { s.host with delivered := s.host.delivered ++ [t] } }))
  ∧ (∀ (s : State) (t : Transfer), t.src < 72 → t.dst < 72 → t.ctx = none → t.body = .plain → (s.isle t.dst).avail = .isolated →
    Gives (.islandTransfer t) s (fun u =>
      u.host = { s.host with unavailable := s.host.unavailable ++ [t] }
        ∧ u.isle t.dst = { (s.isle t.dst) with xingFail := satAdd 16 (s.isle t.dst).xingFail 1 }
        ∧ (∀ j, j ≠ t.dst → u.isle j = s.isle j) ∧ u = { s with host := u.host, isl := u.isl }))
  ∧ (∀ (s : State) (i p : Nat), 0 < i → i < 72 → s.domOn i = true → p < (s.islPoints i).length →
      ((s.islPoints i).getD p (0, 0)).2 ≤ s.sramCap →
      vreqOf ((s.islPoints i).getD p (0, 0)).2 ≤ s.glb.vreqOk → vreqOf ((s.islPoints i).getD p (0, 0)).2 ≤ s.glb.vreqCode →
    Gives (.operatingPointChange i p) s (fun u =>
      u.isle i = { (s.isle i) with point := p } ∧ (∀ j, j ≠ i → u.isle j = s.isle j) ∧ u = { s with isl := u.isl, glb := u.glb }))
  ∧ (∀ (s : State) (est : PowerEst),
    Gives (.epochStart est) s (fun u =>
      u.epoch = s.epoch + 1 ∧ u.pwr = { s.pwr with deviceCw := est.deviceCw, vddCoreCw := est.vddCoreCw }
        ∧ u = { s with epoch := u.epoch, pwr := u.pwr, isl := u.isl, sli := u.sli, med := u.med, mlf := u.mlf, thm := u.thm
                       host := u.host, ports := u.ports, pat := { s.pat with oldTmpls := none } }))
  ∧ (∀ (s : State) (ch m : Nat), ch < 32 → s.domOn (islDMI (ch / 4)) = true → s.pat.eff.cal.dramMarginPs ≤ m →
    Gives (.dramMarginTrack ch m) s (fun u => u = { s with dramMargin := tset s.dramMargin ch m }))
  ∧ (∀ (s : State) (ch m : Nat), ch < 32 → s.domOn (islDMI (ch / 4)) = true → m < s.pat.eff.cal.dramMarginPs →
    Gives (.dramMarginTrack ch m) s (fun u => tgetD u.dramMargin ch 0 = m
      ∧ u.flt = { s.flt with raised := s.flt.raised ++ [{ src := 408 + ch, level := 1, detail := m % 65536 }] }
      ∧ u = { s with dramMargin := u.dramMargin, flt := u.flt }))
  ∧ (∀ (s : State) (k : Nat), k < 4096 → (s.route k).state = .binding → (s.route k).pend = false → s.flt.safe = false → s.flt.ctlReset = false →
    Gives (.routeBindingComplete k) s (fun u =>
      u.route k = { (s.route k) with state := .bound, gen := ((s.route k).gen + 1) % 65536 } ∧ (∀ j, j ≠ k → u.route j = s.route j)
        ∧ (∀ c x, s.ctx? c = some x → u.ctx? c = some (if x.stage = 8 ∧ x.wait = 2 ∧ x.route = k then { x with wait := 0 } else x))
        ∧ u = { s with routes := u.routes, cmd := u.cmd }))

/-- A valid submission tail or completion head doorbell moves its queue and nothing else; a doorbell of a slice that is not live on its port changes nothing; a fetched entry takes a free context with the next FSEQ, an I/O command at stage 3 and an admin command at stage 5; a failed entry read stops the queue, sets CSTS.CFS and raises the Advisory fault of source 747; a host read without a completion ends its command with Data Transfer Error; a comet stream that holds a landed line of 1 second or more is gone at its timeout. -/
def Obligations.IntakeRows : Prop :=
  (∀ (s : State) (p sl qid v k : Nat), p < 2 → sl < 2048 → qid < 1536 → s.liveOn p sl = true → s.flt.safe = false →
      (s.port p).tlpHeld = false → s.trickle.tstate = 0 → AllAwake [islHFE] s → s.dqOf p sl qid = some k →
      (s.queue k).sqOn = true → v < 65536 → v < (s.queue k).sqSize →
    Gives (.doorbellWrite p sl qid false v) s (fun u =>
      u.queue k = { (s.queue k) with tail := v } ∧ (∀ j, j ≠ k → u.queue j = s.queue j)
        ∧ u = { s with cmd := { s.cmd with queues := u.cmd.queues } }))
  ∧ (∀ (s : State) (p sl qid v k : Nat), p < 2 → sl < 2048 → qid < 1536 → s.liveOn p sl = true → s.flt.safe = false →
      (s.port p).tlpHeld = false → s.trickle.tstate = 0 → AllAwake [islHFE] s → s.dqOf p sl qid = some k →
      (s.queue k).cqOn = true → v < 65536 → v < (s.queue k).cqSize →
      ringDist (s.queue k).cqSize (s.queue k).cqHead v ≤ ringDist (s.queue k).cqSize (s.queue k).cqHead (s.queue k).cqTail →
    Gives (.doorbellWrite p sl qid true v) s (fun u =>
      u.queue k = { (s.queue k) with cqHead := v } ∧ (∀ j, j ≠ k → u.queue j = s.queue j)
        ∧ u = { s with cmd := { s.cmd with queues := u.cmd.queues } }))
  ∧ (∀ (s : State) (p sl qid v : Nat) (cq : Bool), p < 2 → sl < 2048 → qid < 1536 → s.liveOn p sl = false →
    Gives (.doorbellWrite p sl qid cq v) s (fun u => u = s))
  ∧ (∀ (s : State) (dq c : Nat) (e : Sqe), dq ≤ 18432 → s.mayFetch dq = true → s.fetchTurn (s.queue dq) = true →
      s.fetchAwake ((s.queue dq).qid == 0) = true → s.ctxFor dq = some c → (s.queue dq).qid ≠ 0 → 0 < (s.queue dq).sqSize → s.ioErr e = none →
    Gives (.sqFetch dq e) s (fun u =>
      (u.ctx c).stage = 3 ∧ (u.ctx c).sqe = e ∧ (u.ctx c).cid = e.cid ∧ (u.ctx c).opc = e.opc ∧ (u.ctx c).fseq = s.cmd.fseq
        ∧ u.cmd.fseq = s.cmd.fseq + 1 ∧ (u.queue dq).head = ((s.queue dq).head + 1) % (s.queue dq).sqSize
        ∧ (∀ d, d ≠ c → u.ctx d = s.ctx d) ∧ (∀ j, j ≠ dq → u.queue j = s.queue j)
        ∧ u.cmd = { s.cmd with ctxs := u.cmd.ctxs, queues := u.cmd.queues, fseq := u.cmd.fseq }
        ∧ u = { s with cmd := u.cmd, sli := u.sli, pwr := u.pwr, isl := u.isl }
        ∧ ((s.pat.eff.power.states.getD s.pwr.pstate {}).nonOp = false → u.pwr = s.pwr ∧ u.isl = s.isl)))
  ∧ (∀ (s : State) (dq c : Nat) (e : Sqe), dq ≤ 18432 → s.mayFetch dq = true →
      s.fetchAwake true = true → s.ctxFor dq = some c → (s.queue dq).qid = 0 → s.adminErr (s.queue dq).slice (s.queue dq).port e = none →
    Gives (.sqFetch dq e) s (fun u =>
      (u.ctx c).stage = 5 ∧ (u.ctx c).admin = true ∧ (u.ctx c).sqe = e ∧ (u.ctx c).cid = e.cid ∧ (u.ctx c).fseq = s.cmd.fseq
        ∧ u.cmd.fseq = s.cmd.fseq + 1 ∧ (∀ d, d ≠ c → u.ctx d = s.ctx d) ∧ (∀ j, j ≠ dq → u.queue j = s.queue j)
        ∧ u.cmd = { s.cmd with ctxs := u.cmd.ctxs, queues := u.cmd.queues, fseq := u.cmd.fseq }
        ∧ u = { s with cmd := u.cmd, sli := u.sli, pwr := u.pwr, isl := u.isl }))
  ∧ (∀ (s : State) (dq : Nat), dq ≤ 18432 → s.mayFetch dq = true →
    Gives (.sqEntryReadFail dq) s (fun u =>
      u.queue dq = { (s.queue dq) with sqErr := true }
        ∧ (u.ctrl (ctrlKey (s.queue dq).port (s.queue dq).slice)).cfs = true
        ∧ (u.ctrl (ctrlKey (s.queue dq).port (s.queue dq).slice)).errCount = (s.ctrl (ctrlKey (s.queue dq).port (s.queue dq).slice)).errCount + 1
        ∧ u.flt.raised = s.flt.raised ++ [{ src := 747, level := 1, slice := some (s.queue dq).slice, detail := (s.queue dq).qid }]
        ∧ u.cmd.ctxs = s.cmd.ctxs ∧ u = { s with cmd := u.cmd, flt := { s.flt with raised := u.flt.raised } }))
  ∧ (∀ (s : State) (c : Nat) (x : Ctx), c < 65536 → s.ctx? c = some x → x.pointersOpen = true → s.flt.safe = false →
    Gives (.hostReadTimeout c) s (fun u => if x.admin then Ended c (errOut .dataXfer) u else AtCommit c (errOut .dataXfer) u))
  ∧ (∀ (s : State) (k : Nat) (x : CometStream), k < 4096 → tget s.cmd.streams k = some x → x.stale s.nowMs = true →
    Gives (.cometStreamTimeout k) s (fun u => tget u.cmd.streams k = none ∧ (∀ j, j ≠ k → tget u.cmd.streams j = tget s.cmd.streams j)
      ∧ u = { s with cmd := { s.cmd with streams := u.cmd.streams } }))

/-- A command released from stage 7 goes back to stage 6; a seat is taken on a BOUND route, waited for on a BINDING one and refused with 85h on a FREE or DRAINING one; a read whose units are all in their buffers reaches the commit point with its data, a failed transfer with its status; a write that waits for room is placed, one line per block; a read commits, counted in the SMART data of its slice; a completion entry and the data of a command that succeeded leave the device, and its context is freed; gathered completions are signalled. -/
def Obligations.PipelineRows : Prop :=
  (∀ (s : State) (c : Nat) (x : Ctx), c < 65536 → s.ctx? c = some x → x.stage = 7 → s.flt.safe = false → s.lockBlocker x = none →
    Gives (.rangeLockRelease c) s (fun u =>
      u.ctx c = { x with stage := 6, wait := 0, dep := none } ∧ (∀ d, d ≠ c → u.ctx d = s.ctx d) ∧ u = { s with cmd := { s.cmd with ctxs := u.cmd.ctxs } }))
  ∧ (∀ (s : State) (c : Nat) (x : Ctx), c < 65536 → s.ctx? c = some x → x.stage = 8 → s.flt.safe = false → s.job? c = none →
      x.wdata = [] → (s.route x.route).state = .bound →
    Gives (.routeSeat c) s (fun u =>
      u.ctx c = { x with seat := true, stage := 9, wait := 0 } ∧ u.route x.route = { (s.route x.route) with seats := (s.route x.route).seats + 1 }
        ∧ (∀ d, d ≠ c → u.ctx d = s.ctx d) ∧ (∀ r, r ≠ x.route → u.route r = s.route r) ∧ u = { s with cmd := u.cmd, routes := u.routes }))
  ∧ (∀ (s : State) (c : Nat) (x : Ctx), c < 65536 → s.ctx? c = some x → x.stage = 8 → s.flt.safe = false →
      ((s.route x.route).state = .free ∨ (s.route x.route).state = .draining) →
    Gives (.routeSeat c) s (AtCommit c (errOut .routeNotBound)))
  ∧ (∀ (s : State) (c : Nat) (x : Ctx), c < 65536 → s.ctx? c = some x → x.stage = 8 → s.flt.safe = false → (s.route x.route).state = .binding →
    Gives (.routeSeat c) s (fun u => u.ctx c = { x with wait := 2 } ∧ (∀ d, d ≠ c → u.ctx d = s.ctx d)
      ∧ u = { s with cmd := { s.cmd with ctxs := u.cmd.ctxs } }))
  ∧ (∀ (s : State) (c : Nat) (x : Ctx), c < 65536 → s.ctx? c = some x → x.moving = true → s.flt.safe = false → x.opc = opRead → x.route = 0 →
      x.unitsDone = true → x.unitFail = none → piCheck (s.ns x.nsid) x.sqe 0 x.readData = none →
    Gives (.hostDataTransferDone c .none) s (fun u =>
      u.ctx c = { x with stage := 13, wait := 0, spec := false, outc := some (okOut 0), out := .blocks x.readData }
        ∧ (∀ d, d ≠ c → u.ctx d = s.ctx d) ∧ u = { s with cmd := { s.cmd with ctxs := u.cmd.ctxs } }))
  ∧ (∀ (s : State) (c : Nat) (x : Ctx) (f : DataFault), c < 65536 → s.ctx? c = some x → x.moving = true → s.flt.safe = false →
    Gives (.hostDataTransferDone c (.fault f)) s (AtCommit c (errOut (faultSt f))))
  ∧ (∀ (s t : State) (c : Nat) (x : Ctx) (r : Resv), c < 65536 → s.ctx? c = some x → x.stage = 10 → x.wait = 5 → x.committed = false →
      s.flt.safe = false → x.opc = opWrite → (s.ns x.nsid).zoned = true → s.overLimit (s.nsCls x.nsid).set x.wdata.length = false →
      x.resv = some r → x.void.contains r.ent = false → s.zoneRowsFor r.ent = some t →
    Gives (.writeBufferRoom c) s (fun u =>
      (u.ctx c).stage = 13 ∧ (u.ctx c).wait = 0 ∧ (u.ctx c).received = true ∧ (u.ctx c).placed.length = x.placed.length + x.wdata.length))
  ∧ (∀ (s : State) (c : Nat) (x : Ctx), c < 65536 → s.ctx? c = some x → x.stage = 13 → x.admin = false → x.committed = false → s.flt.safe = false →
      x.opc = opRead → x.ordered = false → x.killed = false → x.ents = [] → s.fails c = false → s.commitHold c = none → s.genStale x = false →
    Gives (.commandCommit c) s (fun u => (u.ctx c).stage = 14 ∧ (u.ctx c).committed = true
      ∧ (tval u.mlf.smart x.slice : SmartSl).reads = (tval s.mlf.smart x.slice : SmartSl).reads + 1
      ∧ (tval u.mlf.smart x.slice : SmartSl).readLbas = (tval s.mlf.smart x.slice : SmartSl).readLbas + (x.nlb + 1)
      ∧ u.zon.ents = s.zon.ents ∧ ((∀ k, (s.ctrl k).shst ≠ 1) → u.zon.map = s.zon.map)))
  ∧ (∀ (s : State) (c k : Nat) (x : Ctx), c < 65536 → s.ctx? c = some x → s.mayPost x = true → s.mic.halted.contains c = false →
      s.cqOf (s.queue x.dq) = some k → (s.queue k).cqFull = false → s.fwu.activating = none →
    Gives (.completionPost c) s (fun u =>
      u.host.cqes = s.host.cqes ++ [{ dq := k, slot := (s.queue k).cqTail, sqid := x.sqid, sqhd := (s.queue x.dq).head, cid := x.cid
                                      dw0 := (x.outc.getD {}).dw0, dw1 := (x.outc.getD {}).dw1, sv := (x.outc.getD {}).sv, phase := (s.queue k).phase
                                      pasid := s.dmaPasid x.port x.slice }]
        ∧ u.host.data = s.host.data ++ (if ((x.outc.getD {}).sv.st = .success ∨ (x.outc.getD {}).sv.st = .outputLimit) ∧ x.out ≠ .none then
            [{ ctx := c, data := x.out, pasid := s.dmaPasid x.port x.slice }] else [])
        ∧ u.ctx? c = none ∧ (u.queue k).cqTail = ((s.queue k).cqTail + 1) % (s.queue k).cqSize))
  ∧ (∀ (s : State) (dq : Nat), dq ≤ 18432 → (s.queue dq).cqOn = true → 0 < (s.queue dq).coal → (s.queue dq).slice = 0 →
      (s.port (s.queue dq).port).msixMask = false → (s.port (s.queue dq).port).msixEn = true →
      (tval (s.port (s.queue dq).port).msix (s.queue dq).vector : MsgEnt).mask = false → s.flt.safe = false →
      (s.port (s.queue dq).port).carries = true → (s.port (s.queue dq).port).tlpHeld = false →
    Gives (.interruptCoalescingTime dq) s (fun u =>
      u.queue dq = { (s.queue dq) with coal := 0 } ∧ u.host.irqs = s.host.irqs ++ [⟨(s.queue dq).port, 0, (s.queue dq).vector, s.dmaPasid (s.queue dq).port 0⟩]
        ∧ (∀ j, j ≠ dq → u.queue j = s.queue j)))

/-- A challenge replaces the requester's outstanding one, advances the key's counter and sends nonce, counter and key index; an open with the right MAC takes a session number and clears the key's failures, with a wrong MAC counts a failure and locks the key at the fifth; every open consumes its challenge; close ends only a session of the requester; a challenge is forgotten 10 seconds after it was issued, and a lockout is over when its time has run. Nothing else changes. -/
def Obligations.SessionRows : Prop :=
  (∀ (s : State) (c k : Nat), c < 65536 → s.adminTurn c 0xC2 = true →
      roleKey (s.ctx c).who ((s.ctx c).sqe.cdw10.toNat % 4) ((s.ctx c).sqe.cdw10.toNat / 256 % 256) = some k →
      (s.key k).key ≠ [] → s.lockEnd (s.key k) = none →
    Gives (.sessionChallenge c) s (fun u => ∃ n : List Byte, n.length = 32
      ∧ u.sec.challenges = s.sec.challenges.filter (fun e => e.who != (s.ctx c).who)
          ++ [{ who := (s.ctx c).who, role := (s.ctx c).sqe.cdw10.toNat % 4, key := k, nonce := n, counter := (s.key k).counter + 1, issued := s.nowMs }]
      ∧ EndsWith c (okOut 0) (.bytes (n ++ leBytes 8 ((s.key k).counter + 1) ++ leBytes 2 k ++ List.replicate 22 0)) s u
      ∧ u.key k = { (s.key k) with counter := (s.key k).counter + 1 } ∧ (∀ j, j ≠ k → u.key j = s.key j)
      ∧ u = { s with cmd := u.cmd, sec := { s.sec with keys := u.sec.keys, challenges := u.sec.challenges }, free := u.free }))
  ∧ (∀ (s : State) (c : Nat) (mac : List Byte), c < 65536 → s.adminTurn c 0xC5 = true →
      s.sec.challenges.find? (fun e => e.who == (s.ctx c).who && s.challengeLive e) = none →
    Gives (.sessionOpen c mac) s (fun u => Ends c (errOut .cmdSequence) s u
      ∧ u = { s with cmd := u.cmd, sec := { s.sec with challenges := s.sec.challenges.filter (fun e => e.who != (s.ctx c).who) } }))
  ∧ (∀ (s : State) (c i : Nat) (mac : List Byte) (ch : Challenge), c < 65536 → s.adminTurn c 0xC5 = true →
      s.sec.challenges.find? (fun e => e.who == (s.ctx c).who && s.challengeLive e) = some ch → (s.key ch.key).key ≠ [] → s.lockEnd (s.key ch.key) = none →
      tfree s.sec.sessions 0 256 = some i → slice mac 0 48 = digestBytes (hmac384 (s.key ch.key).key (macBytes ch)) →
    Gives (.sessionOpen c mac) s (fun u => Ends c (okOut i) s u
      ∧ tget u.sec.sessions i = some { role := ch.role, who := (s.ctx c).who, key := ch.key, openMs := s.nowMs }
      ∧ (∀ j, j ≠ i → tget u.sec.sessions j = tget s.sec.sessions j)
      ∧ u.sec.challenges = s.sec.challenges.filter (fun e => e.who != (s.ctx c).who)
      ∧ u.key ch.key = { (s.key ch.key) with fails := 0, lockouts := 0 } ∧ (∀ j, j ≠ ch.key → u.key j = s.key j)
      ∧ u = { s with cmd := u.cmd, sec := { s.sec with keys := u.sec.keys, challenges := u.sec.challenges, sessions := u.sec.sessions } }))
  ∧ (∀ (s : State) (c i : Nat) (mac : List Byte) (ch : Challenge), c < 65536 → s.adminTurn c 0xC5 = true →
      s.sec.challenges.find? (fun e => e.who == (s.ctx c).who && s.challengeLive e) = some ch → (s.key ch.key).key ≠ [] → s.lockEnd (s.key ch.key) = none →
      tfree s.sec.sessions 0 256 = some i → slice mac 0 48 ≠ digestBytes (hmac384 (s.key ch.key).key (macBytes ch)) →
    Gives (.sessionOpen c mac) s (fun u => Ends c { sv := { st := .accessDenied, dnr := true } } s u ∧ u.sec.sessions = s.sec.sessions
      ∧ u.sec.challenges = s.sec.challenges.filter (fun e => e.who != (s.ctx c).who)
      ∧ u.key ch.key = (if 5 ≤ (s.key ch.key).fails + 1 then
            { (s.key ch.key) with fails := 0, lockouts := min 15 ((s.key ch.key).lockouts + 1)
                                  lockUntil := some (s.nowMs + lockSeconds (min 15 ((s.key ch.key).lockouts + 1)) * 1000) }
          else { (s.key ch.key) with fails := (s.key ch.key).fails + 1 })
      ∧ (∀ j, j ≠ ch.key → u.key j = s.key j)
      ∧ u = { s with cmd := u.cmd, sec := { s.sec with keys := u.sec.keys, challenges := u.sec.challenges } }))
  ∧ (∀ (s : State) (c : Nat), c < 65536 → s.adminTurn c 0xC8 = true →
      Gives (.sessionClose c) s (fun u =>
        let i := (s.ctx c).sqe.cdw10.toNat % 256
        if (tget s.sec.sessions i).map (·.who) = some (s.ctx c).who then
          Ends c (okOut 0) s u ∧ tget u.sec.sessions i = none ∧ (∀ j, j ≠ i → tget u.sec.sessions j = tget s.sec.sessions j)
            ∧ u = { s with cmd := u.cmd, sec := { s.sec with sessions := u.sec.sessions } }
        else Ends c (errOut .invalidField) s u ∧ u = { s with cmd := u.cmd }))
  ∧ (∀ (s : State) (r : Requester), requesterOk r = true →
    Gives (.challengeExpire r) s (fun u => (∀ e, e ∈ u.sec.challenges ↔ e ∈ s.sec.challenges ∧ (e.who ≠ r ∨ s.nowMs < e.issued + 10000))
      ∧ u = { s with sec := { s.sec with challenges := u.sec.challenges } }))
  ∧ (∀ (s : State) (k : Nat), keyOk k = true → s.lockEnd (s.key k) = none →
    Gives (.keyLockoutExpire k) s (fun u => u.key k = { (s.key k) with lockUntil := none } ∧ (∀ j, j ≠ k → u.key j = s.key j)
      ∧ u = { s with sec := { s.sec with keys := u.sec.keys } }))

/-- Set Key and Clear Key change one key slot and close its sessions, or are refused with the reason code; a class key is shared only for a class of the Pattern; the manager takes a PASID that no live slice has and a vector below HOST.msix; Create makes a slice in state CREATED with the shares of its template and an empty key slot, and refuses a slice that is live. Nothing else changes. -/
def Obligations.KeyRows : Prop :=
  (∀ (s : State) (c : Nat) (key : List Byte), c < 65536 → s.subTurn c 0xCD (fun q => q.cdw10.toNat % 16 == 3) = true →
      keyRefusal s ((s.ctx c).sqe.cdw11.toNat % 65536) = none →
    Gives (.setKey c key) s (fun u =>
      let k := (s.ctx c).sqe.cdw11.toNat % 65536
      Ends c (okOut 0) s u ∧ u.key k = { (s.key k) with key := key.take (if 12 ≤ k ∧ k ≤ 15 then 96 else 32) }
        ∧ (∀ j, j ≠ k → u.key j = s.key j) ∧ u.sec.sessions = tfilter s.sec.sessions (fun _ x => !(x.key == k))
        ∧ u = { s with cmd := u.cmd, sec := { s.sec with keys := u.sec.keys, sessions := u.sec.sessions } }))
  ∧ (∀ (s : State) (c : Nat), c < 65536 → s.subTurn c 0xCD (fun q => q.cdw10.toNat % 16 == 4) = true →
      keyRefusal s ((s.ctx c).sqe.cdw11.toNat % 65536) = none →
    Gives (.clearKey c) s (fun u =>
      let k := (s.ctx c).sqe.cdw11.toNat % 65536
      Ends c (okOut 0) s u ∧ u.key k = { (s.key k) with key := [] }
        ∧ (∀ j, j ≠ k → u.key j = s.key j) ∧ u.sec.sessions = tfilter s.sec.sessions (fun _ x => !(x.key == k))
        ∧ u = { s with cmd := u.cmd, sec := { s.sec with keys := u.sec.keys, sessions := u.sec.sessions } }))
  ∧ (∀ (s : State) (c r : Nat), c < 65536 → s.subTurn c 0xCD (fun q => q.cdw10.toNat % 16 == 4) = true →
      keyRefusal s ((s.ctx c).sqe.cdw11.toNat % 65536) = some r →
    Gives (.clearKey c) s (fun u => Ends c { sv := stv .invalidField, dw0 := r } s u ∧ u = { s with cmd := u.cmd }))
  ∧ (∀ (s : State) (c r : Nat) (key : List Byte), c < 65536 → s.subTurn c 0xCD (fun q => q.cdw10.toNat % 16 == 3) = true →
      keyRefusal s ((s.ctx c).sqe.cdw11.toNat % 65536) = some r →
    Gives (.setKey c key) s (fun u => Ends c { sv := stv .invalidField, dw0 := r } s u ∧ u = { s with cmd := u.cmd }))
  ∧ (∀ (s : State) (cls v : Nat), cls < 16 →
    Gives (.sharedKeyConfig cls v) s (fun u =>
      (if (patClasses s.pat.eff).any (fun r => r.cls == cls) then
        tget u.sec.sharedKey cls = some (v % 2 == 1) ∧ tval u.sec.cryAct cls = wsNow true
       else tget u.sec.sharedKey cls = tget s.sec.sharedKey cls ∧ tval u.sec.cryAct cls = wsShown (v % 2))
      ∧ (∀ j, j ≠ cls → tget u.sec.sharedKey j = tget s.sec.sharedKey j ∧ tget u.sec.cryAct j = tget s.sec.cryAct j)
      ∧ u = { s with sec := { s.sec with sharedKey := u.sec.sharedKey, cryAct := u.sec.cryAct } }))
  ∧ (∀ (s : State) (p v : Nat), p < 2 ^ 20 → v < 2 ^ 11 →
    Gives (.sliMgrPasidWrite p v) s (fun u =>
      if (∃ e ∈ s.sli, e.1 ≠ 0 ∧ e.2.state ≠ .free ∧ e.2.pasid = p) ∨ s.pat.eff.host.msix ≤ v then
        u = { s with sec := { s.sec with pasidAct := wsShown (p + v * 1048576) } }
      else u = { s with sec := { s.sec with mgrPasid := p, mbVector := v, pasidAct := wsNow true } }))
  ∧ (∀ (s : State) (c : Nat) (b : SliceBuf) (t : SliceTmpl), c < 65536 → s.subTurn c 0xCD (fun q => q.cdw10.toNat % 16 == 0) = true →
      b.reserved = 0 → b.pasid < 2 ^ 20 → 0 < b.slice → b.slice ≤ 2047 → s.sliceLive b.slice = false → s.pasidUsed b.pasid = false →
      s.pat.eff.slices.find? (fun t => t.id == b.template) = some t → s.portList.contains b.port = true → s.qpairSum + t.qpairs ≤ 16384 →
    Gives (.sliceCreate c b) s (fun u => Ends c (okOut b.slice) s u
      ∧ u.slc b.slice = { state := .created, port := b.port, pasid := b.pasid, template := b.template, shares := tmplShares t, effEpoch := s.epoch
                          gen := (s.slc b.slice).gen, msgCount := min t.qpairs 1022 + 2 }
      ∧ (∀ j, j ≠ b.slice → u.slc j = s.slc j) ∧ (u.key (16 + b.slice)).key = [] ∧ (∀ j, j ≠ 16 + b.slice → u.key j = s.key j)
      ∧ u.sec.sessions = tfilter s.sec.sessions (fun _ x => !(x.key == 16 + b.slice))
      ∧ (tval u.cpx.slices b.slice : UpcSlice).valid = false ∧ (∀ j, j ≠ b.slice → tget u.cpx.slices j = tget s.cpx.slices j)
      ∧ u = { s with cmd := u.cmd, sli := u.sli, cpx := { s.cpx with slices := u.cpx.slices }
                     sec := { s.sec with keys := u.sec.keys, sessions := u.sec.sessions } }))
  ∧ (∀ (s : State) (c : Nat) (b : SliceBuf), c < 65536 → s.subTurn c 0xCD (fun q => q.cdw10.toNat % 16 == 0) = true →
      b.reserved = 0 → b.pasid < 2 ^ 20 → b.slice < 65535 → s.sliceLive b.slice = true →
    Gives (.sliceCreate c b) s (fun u => Ends c { sv := stv .invalidField, dw0 := 1 } s u ∧ u = { s with cmd := u.cmd }))

/-- A reset or removal of a live slice with nothing in flight advances its generation and waits, a reset disables its controller; one of slice 0, of a slice that is not live or of one in a reset is refused; a reset with items still held does not complete; a slice reset that completes empties the slice's queues, memory, messages and sessions and answers its waiter; the last unit that has not drained 20 ms after the start of a reset is isolated with a Critical fault of source 754 and the reset completes. -/
def Obligations.SliceResetRows : Prop :=
  (∀ (s : State) (c : Nat), c < 65536 → s.subTurn c 0xCD (fun q => q.cdw10.toNat % 16 == 1) = true →
      s.sliceRefusal (sliceArg (s.ctx c).sqe) = none → s.sliceCtxs (sliceArg (s.ctx c).sqe) (s.slc (sliceArg (s.ctx c).sqe)).port = [] →
    Gives (.sliceReset c) s (fun u =>
      let sl := sliceArg (s.ctx c).sqe
      (u.slc sl).state = .resetting ∧ (u.slc sl).gen = ((s.slc sl).gen + 1) % 2 ^ 32 ∧ (u.slc sl).hold = false
        ∧ tget (u.slc sl).resets (s.slc sl).port = some { isSlice := true, port := (s.slc sl).port, started := s.nowMs, waiter := some (.ctx c) }
        ∧ (u.ctrl (ctrlKey (s.slc sl).port sl)).en = false ∧ (u.ctrl (ctrlKey (s.slc sl).port sl)).resetting = true
        ∧ (∀ j, j ≠ sl → u.slc j = s.slc j)
        ∧ u = { s with cmd := u.cmd, zon := u.zon, sli := u.sli, host := u.host, sb := u.sb }))
  ∧ (∀ (s : State) (c : Nat) (o : Outc), c < 65536 → s.subTurn c 0xCD (fun q => q.cdw10.toNat % 16 == 1) = true →
      s.sliceRefusal (sliceArg (s.ctx c).sqe) = some o →
    Gives (.sliceReset c) s (fun u => Ends c o s u ∧ u = { s with cmd := u.cmd }))
  ∧ (∀ (s : State) (c : Nat), c < 65536 → s.subTurn c 0xCD (fun q => q.cdw10.toNat % 16 == 2) = true →
      s.sliceRefusal (sliceArg (s.ctx c).sqe) = none → s.sliceCtxs (sliceArg (s.ctx c).sqe) (s.slc (sliceArg (s.ctx c).sqe)).port = [] →
      (bitAt (s.ctx c).sqe.cdw11.toNat 0 = true →
        s.reassignRefusal (sliceArg (s.ctx c).sqe) ((s.ctx c).sqe.cdw11.toNat / 65536 % 2048) = none) →
    Gives (.sliceRemove c) s (fun u =>
      let sl := sliceArg (s.ctx c).sqe
      (u.slc sl).state = .removing ∧ (u.slc sl).gen = ((s.slc sl).gen + 1) % 2 ^ 32 ∧ (u.slc sl).hold = false
        ∧ tget (u.slc sl).resets (s.slc sl).port = some { isSlice := true, port := (s.slc sl).port, started := s.nowMs, waiter := some (.ctx c), remove := true
                                                          reassign := if bitAt (s.ctx c).sqe.cdw11.toNat 0 then some ((s.ctx c).sqe.cdw11.toNat / 65536 % 2048) else none }
        ∧ (∀ j, j ≠ sl → u.slc j = s.slc j)
        ∧ u = { s with cmd := u.cmd, zon := u.zon, sli := u.sli, host := u.host, sb := u.sb }))
  ∧ (∀ (s : State) (c : Nat) (o : Outc), c < 65536 → s.subTurn c 0xCD (fun q => q.cdw10.toNat % 16 == 2) = true →
      s.sliceRefusal (sliceArg (s.ctx c).sqe) = some o →
    Gives (.sliceRemove c) s (fun u => Ends c o s u ∧ u = { s with cmd := u.cmd }))
  ∧ (∀ (s : State) (sl : Nat) (r : ResetRun), sliceOk sl = true → (s.slc sl).resets = [(r.port, r)] → (s.slc sl).oldItems = 0 →
      r.remove = false → r.isSlice = true → (s.slc sl).state ≠ .removing → sl ≠ 0 →
    Gives (.sliceResetComplete sl) s (fun u =>
      (u.slc sl).resets = [] ∧ (u.slc sl).state = .created ∧ (u.slc sl).oldItems = 0 ∧ (u.slc sl).mbQueue = [] ∧ (u.slc sl).gen = (s.slc sl).gen
        ∧ (∀ j, j ≠ sl → u.slc j = s.slc j) ∧ (∀ k, k / 65536 = sl → tget u.cpx.allocs k = none)
        ∧ (∀ e ∈ u.sec.sessions, e.2.ofSlice sl = false) ∧ (∀ e ∈ u.cmd.queues, e.2.slice = sl → e.2.port = r.port → e.2.sqOn = false ∧ e.2.cqOn = false)
        ∧ u.ctrl (ctrlKey r.port sl) = (s.ctrl (ctrlKey r.port sl)).afterReset
        ∧ (∀ c, r.waiter = some (.ctx c) → s.ctx? c ≠ none → Ended c (okOut 0) u)))
  ∧ (∀ (s : State) (sl : Nat), sliceOk sl = true → ((s.slc sl).resets = [] ∨ (s.slc sl).oldItems ≠ 0) →
    Gives (.sliceResetComplete sl) s (fun u => u = s))
  ∧ (∀ (s : State) (sl isl unit c : Nat) (r : ResetRun), sliceOk sl = true → 34 ≤ isl → isl < 72 → unit < 256 → (s.slc sl).resets = [(r.port, r)] →
      r.started + 20 ≤ s.nowMs → r.remove = false → r.isSlice = false → sl ≠ 0 → (s.slc sl).oldItems ≠ 0 → (s.slc sl).stale = [(isl, unit, c)] →
      s.liveJobs = [] → (s.isle isl).held = [] →
    Gives (.resetDrainTimeout sl isl unit) s (fun u =>
      (u.isle isl).isolatedUnits.contains unit = true ∧ (u.slc sl).resets = [] ∧ (u.slc sl).oldItems = 0
        ∧ { src := 754, level := 3, slice := some sl, detail := isl * 256 + unit } ∈ u.flt.raised
        ∧ (∀ j, j ≠ isl → u.isle j = s.isle j)))

/-- A controller that may be enabled is, with its admin queue pair made from AQA, ASQ and ACQ; a controller reset with nothing in flight disables it, advances the generation and returns the slice to CREATED unless the other controller of slice 0 is enabled; with a hold-up supply a shutdown notification finishes at once and changes no data; in the safe state, or on a slice that is not live, none of the three changes anything. -/
def Obligations.ControllerRows : Prop :=
  (∀ (s : State) (p sl : Nat) (crime : Bool), portSliceOk p sl = true → s.flt.safe = false → s.mayEnable p sl = true →
    Gives (.controllerEnable p sl crime) s (fun u =>
      let k := ctrlKey p sl
      u.ctrl k = { (s.ctrl k) with en := true, crime := crime, shst := 0, shutSet := [], cfs := s.flt.fatal
                                   rdy := if crime then s.glb.adminReady else s.glb.mediaReady || (s.glb.adminReady && s.glb.bare) }
        ∧ (∀ j, j ≠ k → u.ctrl j = s.ctrl j) ∧ u.slc sl = { (s.slc sl) with state := .enabled } ∧ (∀ j, j ≠ sl → u.slc j = s.slc j)
        ∧ u.queue (adminDq p sl) = { slice := sl, qid := 0, port := p, sqOn := true, sqSize := (s.ctrl k).aqa % 4096 + 1, sqBase := (s.ctrl k).asq
                                     cqOn := true, cqSize := (s.ctrl k).aqa / 65536 % 4096 + 1, cqBase := (s.ctrl k).acq, ien := true, vector := 0 }
        ∧ (∀ j, j ≠ adminDq p sl → u.queue j = s.queue j)
        ∧ u.sec = (if sl = 0 then { s.sec with pasidEff := s.sec.mgrPasid } else s.sec)
        ∧ u = { s with cmd := { s.cmd with ctrls := u.cmd.ctrls, queues := u.cmd.queues, qgen := u.cmd.qgen }, sli := u.sli, sec := u.sec }))
  ∧ (∀ (s : State) (p sl : Nat), portSliceOk p sl = true → s.flt.safe = false → s.liveOn p sl = true → (s.ctrl (ctrlKey p sl)).en = true →
      tget (s.slc sl).resets p = none → (sl ≠ 0 ∨ p ≠ 0 ∨ s.nextSlot? = none) → s.sliceCtxs sl p = [] → (s.slc sl).state = .enabled →
    Gives (.controllerReset p sl) s (fun u =>
      (u.slc sl).state = (if s.otherEnabled sl p then .enabled else .created) ∧ (u.slc sl).gen = ((s.slc sl).gen + 1) % 2 ^ 32 ∧ (u.slc sl).hold = false
        ∧ tget (u.slc sl).resets p = some { isSlice := false, port := p, started := s.nowMs, waiter := none }
        ∧ (u.ctrl (ctrlKey p sl)).en = false ∧ (u.ctrl (ctrlKey p sl)).resetting = true ∧ (∀ j, j ≠ sl → u.slc j = s.slc j)
        ∧ u = { s with cmd := u.cmd, zon := u.zon, sli := u.sli, host := u.host, sb := u.sb }))
  ∧ (∀ (s : State) (p sl : Nat), portSliceOk p sl = true → s.flt.safe = false → s.liveOn p sl = true → (s.ctrl (ctrlKey p sl)).en = true →
      (s.ctrl (ctrlKey p sl)).shst = 0 → s.holdup = true →
    Gives (.shutdownNotification p sl) s (fun u =>
      u.ctrl (ctrlKey p sl) = { (s.ctrl (ctrlKey p sl)) with shst := 2, shutSet := [] } ∧ (∀ j, j ≠ ctrlKey p sl → u.ctrl j = s.ctrl j)
        ∧ (∀ k, (u.mapEnt k).loc = (s.mapEnt k).loc ∧ (u.mapEnt k).unc = (s.mapEnt k).unc)
        ∧ u.med.rows = s.med.rows
        ∧ u = { s with cmd := { s.cmd with ctrls := u.cmd.ctrls }, med := u.med
                       zon := { s.zon with map := u.zon.map, journalBytes := u.zon.journalBytes, ckptRun := u.zon.ckptRun } }))
  ∧ (∀ (s : State) (p sl : Nat), portSliceOk p sl = true → (s.flt.safe = true ∨ s.liveOn p sl = false) →
    ∀ i ∈ [Instr.controllerReset p sl, .shutdownNotification p sl, .controllerEnable p sl true, .controllerEnable p sl false],
      Gives i s (fun u => u = s))

/-- A send puts the message among the slice's requests; an acknowledge frees the out area or brings the next message, and is refused on an empty one; a share query is answered with the shares in effect, a share change by the manager in session waits for the next epoch, one without a session on the sending port is answered 83h and one of a slice in reset 82h; a tenant's relay reaches the manager with the source in PEER, one to a full queue is answered 02h. -/
def Obligations.MailboxRows : Prop :=
  (∀ (s : State) (sl p v : Nat), portSliceOk p sl = true → s.liveOn p sl = true → s.flt.safe = false → v % 2 = 1 → AllAwake [islCTL] s →
      mbKnown (parseMsg (s.slc sl).mbIn).typ = true → u16 (s.slc sl).mbIn 2 ≤ 4064 →
    Gives (.mailboxSend sl p v) s (fun u =>
      u.slc sl = { (s.slc sl) with mbInAct := wsNow true, stat := { (s.slc sl).stat with mbSent := (s.slc sl).stat.mbSent + 1 }
                                   mbReqs := (s.slc sl).mbReqs ++ [{ parseMsg (s.slc sl).mbIn with port := p }] }
        ∧ (∀ j, j ≠ sl → u.slc j = s.slc j) ∧ u = { s with sli := u.sli }))
  ∧ (∀ (s : State) (sl p v : Nat), portSliceOk p sl = true → (s.flt.safe = true ∨ s.liveOn p sl = false ∨ v % 2 = 0) →
    Gives (.mailboxSend sl p v) s (fun u => u = s) ∧ Gives (.mailboxAck sl p v) s (fun u => u = s))
  ∧ (∀ (s : State) (sl p v : Nat), portSliceOk p sl = true → s.liveOn p sl = true → s.flt.safe = false → v % 2 = 1 → (s.slc sl).mbOut = none →
    Gives (.mailboxAck sl p v) s (fun u => u.slc sl = { (s.slc sl) with mbOutAct := wsNow false }
      ∧ (∀ j, j ≠ sl → u.slc j = s.slc j) ∧ u = { s with sli := u.sli }))
  ∧ (∀ (s : State) (sl p v : Nat) (m : MbMsg), portSliceOk p sl = true → s.liveOn p sl = true → s.flt.safe = false → v % 2 = 1 →
      (s.slc sl).mbOut = some m → (s.slc sl).mbQueue = [] →
    Gives (.mailboxAck sl p v) s (fun u => u.slc sl = { (s.slc sl) with mbOut := none, mbOutAct := wsNow true }
      ∧ (∀ j, j ≠ sl → u.slc j = s.slc j) ∧ u = { s with sli := u.sli }))
  ∧ (∀ (s : State) (sl p v : Nat) (m n : MbMsg) (t : List MbMsg), portSliceOk p sl = true → s.liveOn p sl = true → s.flt.safe = false → v % 2 = 1 →
      (s.slc sl).mbOut = some m → (s.slc sl).mbQueue = n :: t →
    Gives (.mailboxAck sl p v) s (fun u => (u.slc sl).mbOut = some n ∧ (u.slc sl).mbQueue = t ∧ (u.slc sl).mbOutAct = wsNow true
      ∧ (∀ j, j ≠ sl → u.slc j = s.slc j) ∧ u = { s with sli := u.sli, ports := u.ports, host := u.host }))
  ∧ (∀ (s : State) (sl : Nat) (m : MbMsg), sliceOk sl = true → s.mbHead sl (· == 0x01) = some m → (sl = 0 ∨ m.peer = sl) → s.sliceLive m.peer = true →
      (s.slc sl).mbOut = none →
    Gives (.shareQuery sl) s (fun u =>
      (u.slc sl).mbOut = some { m with reply := true, unsol := false, status := 0, payload := s.sharePayload m.peer, len := 32 }
        ∧ (u.slc sl).mbReqs = (s.slc sl).mbReqs.drop 1 ∧ (∀ j, j ≠ sl → u.slc j = s.slc j) ∧ u = { s with sli := u.sli, ports := u.ports, host := u.host }))
  ∧ (∀ (s : State) (m : MbMsg), s.mbHead 0 (· == 0x02) = some m → s.hasSession (.ctrl 0 m.port) 0 = true →
      s.sliceLive m.peer = true → 20 ≤ m.payload.length → (s.slc m.peer).inReset = false → (s.slc m.peer).state ≠ .removing →
      sharesOk (s.shareNew m.peer m.payload).1 = true → m.peer ≠ 0 →
    Gives (.shareSet 0) s (fun u =>
      u.slc m.peer = { (s.slc m.peer) with pend := some { shares := (s.shareNew m.peer m.payload).1, override := (s.shareNew m.peer m.payload).2
                                                          epoch := s.epoch + 1, replies := ((s.slc m.peer).pend.getD {}).replies ++ [(0, m.seq)] } }
        ∧ u.slc 0 = { (s.slc 0) with mbReqs := (s.slc 0).mbReqs.drop 1 } ∧ (∀ j, j ≠ m.peer → j ≠ 0 → u.slc j = s.slc j) ∧ u = { s with sli := u.sli }))
  ∧ (∀ (s : State) (m : MbMsg), s.mbHead 0 (· == 0x02) = some m → s.hasSession (.ctrl 0 m.port) 0 = false → (s.slc 0).mbOut = none →
    Gives (.shareSet 0) s (fun u =>
      (u.slc 0).mbOut = some { m with reply := true, unsol := false, status := 0x83, payload := [], len := 0 }
        ∧ (∀ j, j ≠ 0 → u.slc j = s.slc j) ∧ u = { s with sli := u.sli, ports := u.ports, host := u.host }))
  ∧ (∀ (s : State) (m : MbMsg), s.mbHead 0 (· == 0x02) = some m → s.hasSession (.ctrl 0 m.port) 0 = true →
      s.sliceLive m.peer = true → 20 ≤ m.payload.length → ((s.slc m.peer).inReset = true ∨ (s.slc m.peer).state = .removing) → (s.slc 0).mbOut = none →
    Gives (.shareSet 0) s (fun u =>
      (u.slc 0).mbOut = some { m with reply := true, unsol := false, status := 0x82, payload := [], len := 0 }
        ∧ (∀ j, j ≠ 0 → u.slc j = s.slc j) ∧ u = { s with sli := u.sli, ports := u.ports, host := u.host }))
  ∧ (∀ (s : State) (sl : Nat) (m : MbMsg), sliceOk sl = true → sl ≠ 0 → s.mbHead sl (fun t => decide (0x40 ≤ t) && decide (t ≤ 0x7F)) = some m →
      s.sliceLive 0 = true → (s.slc 0).state ≠ .resetting → (s.slc 0).state ≠ .removing → s.mbFull 0 = false → (s.slc 0).mbOut = none →
    Gives (.relay sl) s (fun u =>
      (u.slc 0).mbOut = some { m with peer := sl } ∧ (u.slc sl).mbReqs = (s.slc sl).mbReqs.drop 1 ∧ (u.slc sl).mbOut = (s.slc sl).mbOut
        ∧ (∀ j, j ≠ sl → j ≠ 0 → u.slc j = s.slc j) ∧ u = { s with sli := u.sli, ports := u.ports, host := u.host }))
  ∧ (∀ (s : State) (m : MbMsg), s.mbHead 0 (fun t => decide (0x40 ≤ t) && decide (t ≤ 0x7F)) = some m → m.peer ≠ 0 →
      s.sliceLive m.peer = true → (s.slc m.peer).state ≠ .resetting → (s.slc m.peer).state ≠ .removing → s.mbFull m.peer = true → (s.slc 0).mbOut = none →
    Gives (.relay 0) s (fun u =>
      (u.slc 0).mbOut = some { m with reply := true, unsol := false, status := 2, payload := [], len := 0 }
        ∧ (∀ j, j ≠ 0 → u.slc j = s.slc j) ∧ u = { s with sli := u.sli, ports := u.ports, host := u.host }))

/-- A query answers owner and epoch; the owner releases at once when no write of its is admitted and otherwise waits; a released namespace is acquired, a takeover succeeds with the fencing key when the owner's lease has expired and is fenced while it is live; the owner sets or clears shared read and sets the fencing key, the other port gets 87h; with no split every action but the query is refused; a takeover lockout ends when its time has run. Only the namespace named, and the command's context, change. -/
def Obligations.OwnershipRows : Prop :=
  (∀ (s : State) (c : Nat), c < 65536 → s.subTurn c 0xD8 (fun q => q.cdw10.toNat % 16 == 0) = true → s.ns? (s.ctx c).nsid ≠ none →
    Gives (.portOwnershipQuery c) s (fun u =>
      Ends c { dw0 := s.ownDw0 (s.ctx c).nsid 0, dw1 := (s.ns (s.ctx c).nsid).epoch } s u ∧ u = { s with cmd := u.cmd }))
  ∧ (∀ (s : State) (c : Nat), c < 65536 → s.subTurn c 0xD8 (fun q => q.cdw10.toNat % 16 == 0) = true → s.ns? (s.ctx c).nsid = none →
    Gives (.portOwnershipQuery c) s (fun u => Ends c (errOut .invalidNs) s u ∧ u = { s with cmd := u.cmd }))
  ∧ (∀ (s : State) (c : Nat), c < 65536 → s.subTurn c 0xD8 (fun q => q.cdw10.toNat % 16 == 1) = true → s.ns? (s.ctx c).nsid ≠ none →
      s.pat.eff.host.split = 1 → (s.ns (s.ctx c).nsid).own = .owned (s.ctx c).port → (s.ns (s.ctx c).nsid).release = none →
      s.admittedWrites (s.ctx c).nsid (s.ctx c).port = false →
    Gives (.portOwnershipRelease c) s (fun u =>
      let n := (s.ctx c).nsid
      u.ns n = { (s.ns n) with own := .released (s.ctx c).port, epoch := ((s.ns n).epoch + 1) % 2 ^ 32 } ∧ (∀ j, j ≠ n → u.ns j = s.ns j)
        ∧ Ended c { dw0 := u.ownDw0 n 0, dw1 := ((s.ns n).epoch + 1) % 2 ^ 32 } u
        ∧ (∀ d, d ≠ c → u.ctx d = s.ctx d) ∧ u = { s with cmd := u.cmd, zon := { s.zon with nss := u.zon.nss } }))
  ∧ (∀ (s : State) (c : Nat), c < 65536 → s.subTurn c 0xD8 (fun q => q.cdw10.toNat % 16 == 1) = true → s.ns? (s.ctx c).nsid ≠ none →
      s.pat.eff.host.split = 1 → (s.ns (s.ctx c).nsid).own = .owned (s.ctx c).port → (s.ns (s.ctx c).nsid).release = none →
      s.admittedWrites (s.ctx c).nsid (s.ctx c).port = true →
    Gives (.portOwnershipRelease c) s (fun u =>
      u.ns (s.ctx c).nsid = { (s.ns (s.ctx c).nsid) with release := some (.ctx c) } ∧ (∀ j, j ≠ (s.ctx c).nsid → u.ns j = s.ns j)
        ∧ Parked c s u ∧ u = { s with cmd := u.cmd, zon := { s.zon with nss := u.zon.nss } }))
  ∧ (∀ (s : State) (c q : Nat), c < 65536 → s.subTurn c 0xD8 (fun q => q.cdw10.toNat % 16 == 2) = true → s.ns? (s.ctx c).nsid ≠ none →
      s.pat.eff.host.split = 1 → (s.ns (s.ctx c).nsid).own = .released q →
    Gives (.portOwnershipAcquire c) s (fun u =>
      let n := (s.ctx c).nsid
      u.ns n = { (s.ns n) with own := .owned (s.ctx c).port, epoch := ((s.ns n).epoch + 1) % 2 ^ 32 } ∧ (∀ j, j ≠ n → u.ns j = s.ns j)
        ∧ Ended c { dw0 := u.ownDw0 n 0, dw1 := ((s.ns n).epoch + 1) % 2 ^ 32 } u
        ∧ (∀ d, d ≠ c → u.ctx d = s.ctx d) ∧ u = { s with cmd := u.cmd, zon := { s.zon with nss := u.zon.nss } }))
  ∧ (∀ (s : State) (c p : Nat), c < 65536 → s.subTurn c 0xD8 (fun q => q.cdw10.toNat % 16 == 3) = true → s.ns? (s.ctx c).nsid ≠ none →
      s.pat.eff.host.split = 1 → (s.ns (s.ctx c).nsid).own = .owned p → p ≠ (s.ctx c).port → s.leaseLive p = false →
      (s.ns (s.ctx c).nsid).lockUntil.any (fun t => decide (s.nowMs < t)) = false → (s.ns (s.ctx c).nsid).fkey ≠ 0 → (s.ns (s.ctx c).nsid).fkey = fkeyArg (s.ctx c).sqe →
      (s.ns (s.ctx c).nsid).release = none → s.admittedWrites (s.ctx c).nsid p = false →
    Gives (.portOwnershipTakeover c) s (fun u =>
      let n := (s.ctx c).nsid
      (u.ns n).own = .owned (s.ctx c).port ∧ (u.ns n).epoch = ((s.ns n).epoch + 1) % 2 ^ 32 ∧ (∀ j, j ≠ n → u.ns j = s.ns j)
        ∧ Ended c { dw0 := u.ownDw0 n 0, dw1 := ((s.ns n).epoch + 1) % 2 ^ 32 } u
        ∧ (∀ d, d ≠ c → u.ctx d = s.ctx d) ∧ u = { s with cmd := u.cmd, zon := { s.zon with nss := u.zon.nss } }))
  ∧ (∀ (s : State) (c p : Nat), c < 65536 → s.subTurn c 0xD8 (fun q => q.cdw10.toNat % 16 == 3) = true → s.ns? (s.ctx c).nsid ≠ none →
      s.pat.eff.host.split = 1 → (s.ns (s.ctx c).nsid).own = .owned p → p ≠ (s.ctx c).port → s.leaseLive p = true →
    Gives (.portOwnershipTakeover c) s (fun u =>
      Ends c { sv := stv .fenced, dw0 := s.ownDw0 (s.ctx c).nsid 1, dw1 := (s.ns (s.ctx c).nsid).epoch } s u ∧ u = { s with cmd := u.cmd }))
  ∧ (∀ (s : State) (c : Nat), c < 65536 → s.subTurn c 0xD8 (fun q => q.cdw10.toNat % 16 == 4) = true → s.ns? (s.ctx c).nsid ≠ none →
      s.pat.eff.host.split = 1 → (s.ns (s.ctx c).nsid).own = .owned (s.ctx c).port →
    Gives (.setSharedRead c) s (fun u =>
      u.ns (s.ctx c).nsid = { (s.ns (s.ctx c).nsid) with shared := true } ∧ (∀ j, j ≠ (s.ctx c).nsid → u.ns j = s.ns j)
        ∧ Ends c { dw0 := u.ownDw0 (s.ctx c).nsid 0, dw1 := (s.ns (s.ctx c).nsid).epoch } s u ∧ u = { s with cmd := u.cmd, zon := { s.zon with nss := u.zon.nss } }))
  ∧ (∀ (s : State) (c : Nat), c < 65536 → s.subTurn c 0xD8 (fun q => q.cdw10.toNat % 16 == 5) = true → s.ns? (s.ctx c).nsid ≠ none →
      s.pat.eff.host.split = 1 → (s.ns (s.ctx c).nsid).own = .owned (s.ctx c).port →
    Gives (.clearSharedRead c) s (fun u =>
      u.ns (s.ctx c).nsid = { (s.ns (s.ctx c).nsid) with shared := false } ∧ (∀ j, j ≠ (s.ctx c).nsid → u.ns j = s.ns j)
        ∧ Ends c { dw0 := u.ownDw0 (s.ctx c).nsid 0, dw1 := (s.ns (s.ctx c).nsid).epoch } s u ∧ u = { s with cmd := u.cmd, zon := { s.zon with nss := u.zon.nss } }))
  ∧ (∀ (s : State) (c : Nat), c < 65536 → s.subTurn c 0xD8 (fun q => q.cdw10.toNat % 16 == 6) = true → s.ns? (s.ctx c).nsid ≠ none →
      s.pat.eff.host.split = 1 → (s.ns (s.ctx c).nsid).own = .owned (s.ctx c).port →
    Gives (.setFencingKey c) s (fun u =>
      u.ns (s.ctx c).nsid = { (s.ns (s.ctx c).nsid) with fkey := (s.ctx c).sqe.cdw12.toNat + (s.ctx c).sqe.cdw13.toNat * 2 ^ 32 }
        ∧ (∀ j, j ≠ (s.ctx c).nsid → u.ns j = s.ns j)
        ∧ Ends c { dw0 := u.ownDw0 (s.ctx c).nsid 0, dw1 := (s.ns (s.ctx c).nsid).epoch } s u ∧ u = { s with cmd := u.cmd, zon := { s.zon with nss := u.zon.nss } }))
  ∧ (∀ (s : State) (c q : Nat) (f : Nat × Instr), c < 65536 → f ∈ [(4, .setSharedRead c), (5, .clearSharedRead c), (6, .setFencingKey c)] →
      s.subTurn c 0xD8 (fun e => e.cdw10.toNat % 16 == f.1) = true → s.ns? (s.ctx c).nsid ≠ none →
      s.pat.eff.host.split ≠ 0 → (s.ns (s.ctx c).nsid).own = .owned q → q ≠ (s.ctx c).port →
    Gives f.2 s (fun u => Ends c { sv := stv .fenced, dw0 := s.ownDw0 (s.ctx c).nsid 0, dw1 := (s.ns (s.ctx c).nsid).epoch } s u ∧ u = { s with cmd := u.cmd }))
  ∧ (∀ (s : State) (c : Nat) (f : Nat × Instr), c < 65536 →
      f ∈ [(1, .portOwnershipRelease c), (2, .portOwnershipAcquire c), (3, .portOwnershipTakeover c), (4, .setSharedRead c), (5, .clearSharedRead c), (6, .setFencingKey c)] →
      s.subTurn c 0xD8 (fun e => e.cdw10.toNat % 16 == f.1) = true → s.ns? (s.ctx c).nsid ≠ none → s.pat.eff.host.split = 0 →
    Gives f.2 s (fun u => Ends c (errOut .invalidField) s u ∧ u = { s with cmd := u.cmd }))
  ∧ (∀ (s : State) (n : Nat), nsOk n = true → s.ns? n ≠ none → (s.ns n).lockUntil.any (fun t => decide (s.nowMs < t)) = false →
    Gives (.takeoverLockoutExpire n) s (fun u => u.ns n = { (s.ns n) with lockUntil := none } ∧ (∀ j, j ≠ n → u.ns j = s.ns j)
      ∧ u = { s with zon := { s.zon with nss := u.zon.nss } }))

/-- A transfer in order writes its piece into the slot, after erasing the slot at offset 0, and holds the sequence; another session's sequence is Panel Busy; a bad piece is refused; a commit validates the slot and ends the sequence, an erased slot failing with MAGIC; an erase leaves every byte of the slot erased, and the active slot is refused; 10 minutes without a Pattern Load of the session drop the sequence. The active structure does not change. -/
def Obligations.PatternLoadRows : Prop :=
  (∀ (s : State) (c : Nat) (data : List Byte), c < 65536 → s.subTurn c 0xD1 (fun q => q.cdw10.toNat % 4 == 0) = true → ArrayCanonical s →
      s.heldByOther s.pat.loadHolder (s.ctx c).who = false →
      s.pieceBad data ((s.ctx c).sqe.cdw10.toNat / 256 % 2) (s.ctx c).sqe.cdw11.toNat (s.ctx c).sqe.cdw12.toNat = false →
    Gives (.patternLoadTransfer c data) s (fun u =>
      let slot := (s.ctx c).sqe.cdw10.toNat / 256 % 2
      let off := (s.ctx c).sqe.cdw11.toNat
      let at_ := bankBase 3 + slot * 0x400000
      Ended c (okOut 0) u ∧ (∀ d, d ≠ c → u.ctx d = s.ctx d)
        ∧ (∀ j, j < data.length → cellGet u.cnv.bytes (at_ + off + j) = data.getD j 0)
        ∧ (off ≠ 0 → ∀ k, (k < at_ + off ∨ at_ + off + data.length ≤ k) → cellGet u.cnv.bytes k = cellGet s.cnv.bytes k)
        ∧ (off = 0 → ∀ k, (k < at_ ∨ at_ + 0x400000 ≤ k) → cellGet u.cnv.bytes k = cellGet s.cnv.bytes k)
        ∧ (off = 0 → ∀ k, at_ + data.length ≤ k → k < at_ + 0x400000 → cellGet u.cnv.bytes k = 0xFF)
        ∧ u.pat.loadHolder = s.sessionOf (s.ctx c).who ∧ u.pat.loadSlot = slot ∧ u.pat.loadNext = off + (s.ctx c).sqe.cdw12.toNat
        ∧ u.pat.loadMs = s.nowMs
        ∧ u.pat.eff = s.pat.eff ∧ u.pat.source = s.pat.source
        ∧ u = { s with cmd := u.cmd, pat := u.pat, cnv := u.cnv, flt := u.flt }))
  ∧ (∀ (s : State) (c : Nat) (data : List Byte), c < 65536 → s.subTurn c 0xD1 (fun q => q.cdw10.toNat % 4 == 0) = true →
      s.heldByOther s.pat.loadHolder (s.ctx c).who = true →
    Gives (.patternLoadTransfer c data) s (fun u => Ends c (errOut .panelBusy) s u ∧ u = { s with cmd := u.cmd }))
  ∧ (∀ (s : State) (c : Nat) (data : List Byte), c < 65536 → s.subTurn c 0xD1 (fun q => q.cdw10.toNat % 4 == 0) = true →
      s.heldByOther s.pat.loadHolder (s.ctx c).who = false →
      s.pieceBad data ((s.ctx c).sqe.cdw10.toNat / 256 % 2) (s.ctx c).sqe.cdw11.toNat (s.ctx c).sqe.cdw12.toNat = true →
    Gives (.patternLoadTransfer c data) s (fun u => Ends c (errOut .invalidField) s u
      ∧ u = { s with cmd := u.cmd, pat := { s.pat with loadMs := u.pat.loadMs } }))
  ∧ (∀ (s : State) (c : Nat), c < 65536 → s.subTurn c 0xD1 (fun q => q.cdw10.toNat % 4 == 1) = true →
      s.heldByOther s.pat.loadHolder (s.ctx c).who = false →
    Gives (.patternLoadCommit c) s (fun u =>
      let slot := (s.ctx c).sqe.cdw10.toNat / 256 % 2
      let v := s.validateSlot slot
      Ends c (if v.err = 0 then okOut 0
              else { sv := stv .invalidField, dw0 := if s.slotErased slot then (0x01 : Nat) + 0xFF * 256
                                                else v.err % 256 + v.panel % 256 * 256 + min v.offset 0xFFFF * 65536 }) s u
        ∧ tget u.pat.slots slot = some v ∧ (∀ j, j ≠ slot → tget u.pat.slots j = tget s.pat.slots j)
        ∧ u.pat.loadHolder = none ∧ u.pat.loadNext = 0
        ∧ u = { s with cmd := u.cmd, pat := { s.pat with slots := u.pat.slots, loadHolder := u.pat.loadHolder, loadNext := u.pat.loadNext } }))
  ∧ (∀ (s : State) (c : Nat), c < 65536 → s.subTurn c 0xD1 (fun q => q.cdw10.toNat % 4 == 2) = true →
      s.heldByOther s.pat.loadHolder (s.ctx c).who = false → s.pat.source ≠ (s.ctx c).sqe.cdw10.toNat / 256 % 2 →
    Gives (.patternLoadErase c) s (fun u =>
      let slot := (s.ctx c).sqe.cdw10.toNat / 256 % 2
      let at_ := bankBase 3 + slot * 0x400000
      Ended c (okOut 0) u ∧ (∀ d, d ≠ c → u.ctx d = s.ctx d)
        ∧ (∀ k, at_ ≤ k → k < at_ + 0x400000 → cellGet u.cnv.bytes k = 0xFF)
        ∧ (∀ k, (k < at_ ∨ at_ + 0x400000 ≤ k) → cellGet u.cnv.bytes k = cellGet s.cnv.bytes k)
        ∧ tget u.pat.slots slot = some {} ∧ u.pat.loadHolder = none ∧ u.pat.loadNext = 0 ∧ u.pat.eff = s.pat.eff
        ∧ u = { s with cmd := u.cmd, pat := u.pat, cnv := u.cnv, flt := u.flt }))
  ∧ (∀ (s : State) (c : Nat), c < 65536 → s.subTurn c 0xD1 (fun q => q.cdw10.toNat % 4 == 2) = true →
      s.heldByOther s.pat.loadHolder (s.ctx c).who = false → s.pat.source = (s.ctx c).sqe.cdw10.toNat / 256 % 2 →
    Gives (.patternLoadErase c) s (fun u => Ends c (errOut .invalidField) s u ∧ u = { s with cmd := u.cmd, pat := { s.pat with loadMs := u.pat.loadMs } }))
  ∧ (∀ (s : State), s.pat.loadHolder ≠ none → s.pat.loadMs + 600000 ≤ s.nowMs → Gives .patternLoadIdleExpire s (fun u =>
      u = { s with pat := { s.pat with loadHolder := none, loadNext := 0 } }))

/-- Pieces of a reload image gather in order; an apply refuses a busy reload or a bad image and otherwise drains the routes it changes; when they have drained the panels apply in frame order, up to the one that fails; an abandon is refused outside DRAINING and otherwise ends the reload with Command Abort Requested. -/
def Obligations.ReloadRows : Prop :=
  (∀ (s : State) (c : Nat) (data : List Byte), c < 65536 → s.subTurn c 0xD4 (fun q => q.cdw10.toNat % 4 == 0) = true →
      s.reloadBusy (s.ctx c).who = false → (s.ctx c).sqe.cdw11.toNat = 0 → pieceOk 0 0 (s.ctx c).sqe.cdw12.toNat = true →
      (s.ctx c).sqe.cdw12.toNat ≤ s.reloadMax → data.length = (s.ctx c).sqe.cdw12.toNat →
    Gives (.panelReloadTransfer c data) s (fun u => Ends c (okOut 0) s u
      ∧ u = { s with cmd := u.cmd, pat := { s.pat with reload := { s.pat.reload with phase := 1, staged := data, holder := s.sessionOf (s.ctx c).who } } }))
  ∧ (∀ (s : State) (c : Nat) (data : List Byte), c < 65536 → s.subTurn c 0xD4 (fun q => q.cdw10.toNat % 4 == 0) = true →
      s.reloadBusy (s.ctx c).who = false → s.pat.reload.phase = 1 → (s.ctx c).sqe.cdw11.toNat ≠ 0 →
      pieceOk s.pat.reload.staged.length (s.ctx c).sqe.cdw11.toNat (s.ctx c).sqe.cdw12.toNat = true →
      (s.ctx c).sqe.cdw11.toNat + (s.ctx c).sqe.cdw12.toNat ≤ s.reloadMax → data.length = (s.ctx c).sqe.cdw12.toNat →
    Gives (.panelReloadTransfer c data) s (fun u => Ends c (okOut 0) s u
      ∧ u = { s with cmd := u.cmd, pat := { s.pat with reload := { s.pat.reload with staged := s.pat.reload.staged ++ data, holder := s.sessionOf (s.ctx c).who } } }))
  ∧ (∀ (s : State) (c : Nat), c < 65536 → s.subTurn c 0xD4 (fun q => q.cdw10.toNat % 4 == 1) = true → s.reloadBusy (s.ctx c).who = true →
    Gives (.panelReloadApply c) s (fun u => Ends c (errOut .panelBusy) s u ∧ u = { s with cmd := u.cmd }))
  ∧ (∀ (s : State) (c : Nat) (data : List Byte), c < 65536 → s.subTurn c 0xD4 (fun q => q.cdw10.toNat % 4 == 0) = true → s.reloadBusy (s.ctx c).who = true →
    Gives (.panelReloadTransfer c data) s (fun u => Ends c (errOut .panelBusy) s u ∧ u = { s with cmd := u.cmd }))
  ∧ (∀ (s : State) (c : Nat), c < 65536 → s.subTurn c 0xD4 (fun q => q.cdw10.toNat % 4 == 1) = true → s.reloadBusy (s.ctx c).who = false →
      s.fwu.activating = none →
    Gives (.panelReloadApply c) s (fun u =>
      let img := if s.pat.reload.phase = 1 then s.pat.reload.staged else []
      let e := validate (s.valCtx true) img
      (if e.code ≠ 0 then
        Ends c { sv := stv .invalidField, dw0 := e.code % 256 + e.panel % 256 * 256 + min e.offset 0xFFFF * 65536 } s u
          ∧ u.pat.reload.phase = 6 ∧ u.pat.reload.panel = e.panel ∧ u.routes = s.routes
       else
        Parked c s u ∧ u.pat.reload.waiter = some (.ctx c) ∧ u.pat.reload.frames = (imgFrames img).1
          ∧ u.pat.reload.phase = (if (imgFrames img).1.any (fun f => f.type == 0x0A || f.type == 0x0B) then 3 else 4)
          ∧ (∀ r ∈ u.pat.reload.draining, (s.route r).state ≠ .free ∧ ((s.route r).seats ≠ 0 → (u.route r).state = .draining)))
      ∧ u.pat.eff = s.pat.eff ∧ u = { s with cmd := u.cmd, pat := { s.pat with reload := u.pat.reload }, routes := u.routes }))
  ∧ (∀ (s : State) (c : Nat), s.reloading = true → s.flt.safe = false → s.ctlUp = true → s.drainOver = true → s.pat.reload.waiter = some (.ctx c) →
      s.ctx? c ≠ none → s.fwu.activating = none →
    Gives (.reloadDrainComplete none) s (fun u =>
      u.pat.reload.phase = 5 ∧ u.pat.reload.waiter = none ∧ u.pat.reload.draining = [] ∧ u.pat.reloaded = true ∧ u.pat.gen = s.pat.gen + 1
        ∧ Ended c (okOut 0) u ∧ u.pat.eff = s.pat.reload.frames.foldl applyPanel s.pat.eff))
  ∧ (∀ (s : State) (c k : Nat), s.reloading = true → s.flt.safe = false → s.ctlUp = true → s.drainOver = true → s.pat.reload.waiter = some (.ctx c) →
      s.ctx? c ≠ none → s.fwu.activating = none → k < s.pat.reload.frames.length →
    Gives (.reloadDrainComplete (some k)) s (fun u =>
      u.pat.reload.phase = 6 ∧ u.pat.reload.panel = k ∧ u.pat.gen = (if k = 0 then s.pat.gen else s.pat.gen + 1) ∧ Ended c { sv := stv .internalErr, dw0 := k % 256 * 256 } u
        ∧ u.pat.eff = (s.pat.reload.frames.take k).foldl applyPanel s.pat.eff))
  ∧ (∀ (s : State), s.pat.reload.phase ≠ 3 → Gives .reloadAbandon s (fun u =>
      u = { s with pat := { s.pat with reload := { s.pat.reload with abandonAct := wsNow false } } }))
  ∧ (∀ (s : State) (c : Nat), s.pat.reload.phase = 3 → s.pat.reload.waiter = some (.ctx c) → s.ctx? c ≠ none → s.fwu.activating = none →
    Gives .reloadAbandon s (fun u => u.pat.reload.phase = 7 ∧ u.pat.reload.waiter = none ∧ u.pat.reload.abandonAct = wsNow true
      ∧ Ended c (errOut .abortRequested) u ∧ u.pat.eff = s.pat.eff))

/-- A download takes the lock, erases and fills staging, and goes on in order; a commit applies the staged package or fails it and releases the lock; NEXT is marked on the slot named alone; an activation with nothing in flight makes the slot the running one, and an image that needs a reset is only marked NEXT. -/
def Obligations.FirmwareRows : Prop :=
  (∀ (s : State) (c : Nat) (data : List Byte), c < 65536 → s.adminTurn c 0x11 = true → s.lockedOut (s.ctx c).who = true →
    Gives (.firmwareImageDownload c data) s (fun u => Ends c (errOut .updateLocked) s u ∧ u = { s with cmd := u.cmd }))
  ∧ (∀ (s : State) (c : Nat) (data : List Byte), c < 65536 → s.adminTurn c 0x11 = true → s.lockedOut (s.ctx c).who = false →
      (s.ctx c).sqe.cdw11.toNat = 0 → pieceLenBad data.length = false → s.guardsLkg = false → ArrayCanonical s →
    Gives (.firmwareImageDownload c data) s (fun u =>
      Ended c (okOut 0) u ∧ (∀ d, d ≠ c → u.ctx d = s.ctx d) ∧ u.fwu.owner = some (s.ctx c).who ∧ u.fwu.staged = data.length
        ∧ u.fwu.phase = 1 ∧ u.fwu.applied = none ∧ u.fwSlot s.inactiveSlot = {}
        ∧ (∀ j, j < data.length → cellGet u.cnv.bytes (bankBase 3 + 0x800000 + j) = data.getD j 0)
        ∧ u = { s with cmd := u.cmd, cnv := u.cnv, fwu := u.fwu, flt := u.flt }))
  ∧ (∀ (s : State) (c : Nat) (data : List Byte), c < 65536 → s.adminTurn c 0x11 = true → s.fwu.owner = some (s.ctx c).who →
      (s.ctx c).sqe.cdw11.toNat * 4 = s.fwu.staged → s.fwu.staged ≠ 0 → s.fwu.staged % 4096 = 0 → s.fwu.staged + data.length ≤ stagingMax →
      pieceLenBad data.length = false → ArrayCanonical s →
    Gives (.firmwareImageDownload c data) s (fun u =>
      Ended c (okOut 0) u ∧ (∀ d, d ≠ c → u.ctx d = s.ctx d) ∧ u.fwu.staged = s.fwu.staged + data.length ∧ u.fwu.lastMs = s.nowMs
        ∧ (∀ j, j < data.length → cellGet u.cnv.bytes (bankBase 3 + 0x800000 + s.fwu.staged + j) = data.getD j 0)
        ∧ (∀ k, (k < bankBase 3 + 0x800000 + s.fwu.staged ∨ bankBase 3 + 0x800000 + s.fwu.staged + data.length ≤ k) →
            cellGet u.cnv.bytes k = cellGet s.cnv.bytes k)
        ∧ u = { s with cmd := u.cmd, cnv := u.cnv, fwu := u.fwu }))
  ∧ (∀ (s : State) (c i : Nat) (ok : Bool), c < 65536 → s.subTurn c 0x10 (fun q => q.cdw10.toNat / 8 % 8 == 0) = true →
      s.lockedOut (s.ctx c).who = false → s.fsSlot (fsOf (s.ctx c).sqe) = some i → s.fwu.applied ≠ some i →
    Gives (.firmwareCommitApply c ok) s (fun u =>
      (match applyPackage (s.arrRead stagingBase s.fwu.staged) s.fwu.staged (s.running?.map s.slotImage) with
        | .error code => Ended c (errOut (if code = 9 then .internalErr else .invalidFwImage)) u ∧ u.fwu.phase = 6 ∧ u.fwu.result = code
        | .ok img => if ok then Ended c (okOut 0) u ∧ u.fwSlot i = slotOf img ∧ u.fwu.phase = 5 ∧ u.fwu.applied = some i
                     else Ended c (errOut .internalErr) u ∧ u.fwu.phase = 6 ∧ u.fwu.result = 9)
      ∧ u.fwu.owner = none ∧ (∀ d, d ≠ c → u.ctx d = s.ctx d) ∧ u = { s with cmd := u.cmd, cnv := u.cnv, fwu := u.fwu, flt := u.flt, free := u.free }))
  ∧ (∀ (s : State) (c i : Nat) (ok : Bool), c < 65536 → s.subTurn c 0x10 (fun q => q.cdw10.toNat / 8 % 8 == 1) = true →
      s.lockedOut (s.ctx c).who = false → s.fsSlot (fsOf (s.ctx c).sqe) = some i → i < 2 → s.fwu.applied = some i → s.prohibited i = false →
    Gives (.firmwareCommitApplyNext c ok) s (fun u =>
      Ended c (okOut 0) u ∧ (∀ d, d ≠ c → u.ctx d = s.ctx d) ∧ u.fwu.owner = none
        ∧ u.fwSlot i = { (s.fwSlot i) with next := true } ∧ u.fwSlot (1 - i) = { (s.fwSlot (1 - i)) with next := false }
        ∧ u = { s with cmd := u.cmd, fwu := u.fwu }))
  ∧ (∀ (s : State) (c i : Nat), c < 65536 → s.subTurn c 0x10 (fun q => q.cdw10.toNat / 8 % 8 == 2) = true → s.lockedOut (s.ctx c).who = false →
      (s.ctx c).sqe.cdw10.toNat % 8 = i + 1 → i < 2 → s.running? ≠ some i → (s.fwSlot i).state = 1 → s.prohibited i = false →
    Gives (.firmwareCommitMarkNext c) s (fun u =>
      Ended c (okOut 0) u ∧ (∀ d, d ≠ c → u.ctx d = s.ctx d) ∧ u.fwu.owner = none
        ∧ u.fwSlot i = { (s.fwSlot i) with next := true } ∧ u.fwSlot (1 - i) = { (s.fwSlot (1 - i)) with next := false }
        ∧ u = { s with cmd := u.cmd, fwu := u.fwu }))
  ∧ (∀ (s : State) (c i j : Nat) (ok : Bool), c < 65536 → s.subTurn c 0x10 (fun q => q.cdw10.toNat / 8 % 8 == 3) = true → s.fwu.activating = none →
      s.lockedOut (s.ctx c).who = false → s.fsSlot (fsOf (s.ctx c).sqe) = some i → i < 2 → s.fwu.applied = some i → s.prohibited i = false →
      (s.fwSlot i).resetReq = false → s.running? = some j → s.reloadOn = false → s.inFlight (.ctx c) = false →
    Gives (.firmwareCommitActivate c ok) s (fun u =>
      Ended c (okOut 0) u ∧ (∀ d, d ≠ c → u.ctx d = s.ctx d) ∧ (u.fwSlot i).running = true ∧ (u.fwSlot (1 - i)).running = false
        ∧ u.fwu.activating = none ∧ u.fwu.owner = none ∧ u.cmd.activationPause = false ∧ u = { s with cmd := u.cmd, fwu := u.fwu }))
  ∧ (∀ (s : State) (c i j : Nat) (ok : Bool), c < 65536 → s.subTurn c 0x10 (fun q => q.cdw10.toNat / 8 % 8 == 3) = true → s.fwu.activating = none →
      s.lockedOut (s.ctx c).who = false → s.fsSlot (fsOf (s.ctx c).sqe) = some i → i < 2 → s.fwu.applied = some i → s.prohibited i = false →
      (s.fwSlot i).resetReq = true → s.running? = some j →
    Gives (.firmwareCommitActivate c ok) s (fun u =>
      Ended c (errOut .fwNeedsReset) u ∧ (u.fwSlot i).next = true ∧ (u.fwSlot i).running = (s.fwSlot i).running ∧ u = { s with cmd := u.cmd, fwu := u.fwu }))

/-- After 1 second of waiting an activation ends with its status and intake goes on; the staging lock lapses after 10 minutes without its owner; an abort is taken only while an update runs; after its hour the running image is known good and the last-known-good one; the migration window closes after its 24 hours; the watchdog holds the control complex in reset and counts, and its restart releases it. -/
def Obligations.UpdateTimeRows : Prop :=
  (∀ (s : State) (c i : Nat), s.cmd.activationPause = true → s.fwu.pauseMs + 1000 ≤ s.nowMs → s.fwu.activating = some (.ctx c, i) → s.ctx? c ≠ none →
    Gives .activationTimeout s (fun u =>
      Ended c (errOut .fwMaxTime) u ∧ (∀ d, d ≠ c → u.ctx d = s.ctx d) ∧ u.cmd.activationPause = false
        ∧ u = { s with cmd := u.cmd, fwu := { s.fwu with activating := none } }))
  ∧ (∀ (s : State), s.fwu.owner ≠ none → s.fwu.lastMs + 600000 ≤ s.nowMs → Gives .stagingLockIdleExpire s (fun u =>
      u = { s with fwu := { s.fwu with owner := none, staged := if s.fwu.applied.isSome then s.fwu.staged else 0 } }))
  ∧ (∀ (s : State), 0 < s.fwu.phase → s.fwu.phase < 5 → Gives .fwuAbort s (fun u =>
      u = { s with fwu := { s.fwu with phase := 7, applied := none, abortAct := wsNow true, owner := none, staged := 0 } }))
  ∧ (∀ (s : State), (s.fwu.phase = 0 ∨ 5 ≤ s.fwu.phase) → Gives .fwuAbort s (fun u =>
      u = { s with fwu := { s.fwu with abortAct := wsNow false } }))
  ∧ (∀ (s : State) (i : Nat), s.running? = some i → i < 2 → s.glb.adminReady = true → s.flt.ctlReset = false → s.fwu.imageMs + 3600000 ≤ s.nowMs →
    Gives .knownGoodTimer s (fun u =>
      u.fwSlot i = { (s.fwSlot i) with knownGood := true, lkg := true } ∧ u.fwSlot (1 - i) = { (s.fwSlot (1 - i)) with lkg := false }
        ∧ u = { s with fwu := { s.fwu with slots := u.fwu.slots } }))
  ∧ (∀ (s : State), s.fwu.windowMin + 1440 ≤ s.lifeMinutes → Gives .migrationWindowEnd s (fun u => u = { s with fwu := { s.fwu with windowOpen := false } }))
  ∧ (∀ (s : State), s.flt.ctlReset = true → s.flt.wdogHold = false → s.fwu.activating = none →
    Gives .ctlRestart s (fun u => u = { s with flt := { s.flt with ctlReset := false } }))
  ∧ (∀ (s : State), s.wdogRecent.length ≠ 3 →
    Gives .watchdogExpire s (fun u => u.flt.ctlReset = true ∧ u.flt.wdogTotal = satAdd 16 s.flt.wdogTotal 1 ∧ u.fwu.imageMs = s.nowMs
      ∧ u.cnv = s.cnv ∧ u.sec = s.sec ∧ u.ctrs = s.ctrs))

/-- A monitor sample is kept for an island that is on and in range; a re-plan comes after 1,000 power-on hours; one that is blocked waits, and otherwise makes the next plan version, keeps the one before it and renews the Pattern generation; a Margin Plan answers the version and how many islands are PENDING. -/
def Obligations.MarginRows : Prop :=
  (∀ (s : State) (isl : Nat) (l : List Nat), isl < 72 → s.domOn isl = true → s.inRange isl = true → l.length = 4 →
    Gives (.pathMonitorSample isl l) s (fun u => tget u.age.slack isl = some l ∧ (∀ j, j ≠ isl → tget u.age.slack j = tget s.age.slack j)
      ∧ u = { s with age := { s.age with slack := u.age.slack } }))
  ∧ (∀ (s : State) (m : PlanMeas), (s.age.due = true ∨ s.age.lastMin + 60000 ≤ s.onMinutes) → (s.planBlocked = true ∨ s.ctlUp = false) →
    Gives (.marginReplanDue m) s (fun u => u = { s with age := { s.age with due := true } }))
  ∧ (∀ (s : State) (m : PlanMeas), (s.age.due = true ∨ s.age.lastMin + 60000 ≤ s.onMinutes) → s.planBlocked = false → s.ctlUp = true →
    Gives (.marginReplanDue m) s (fun u => u.age.plan.ver = s.age.plan.ver + 1 ∧ u.age.prev = s.age.plan ∧ u.age.due = false
      ∧ u.age.lastMin = s.onMinutes ∧ u.pat = { s.pat with gen := s.pat.gen + 1 }
      ∧ u = { s with age := u.age, pat := u.pat, flt := u.flt, glb := u.glb, free := u.free }))
  ∧ (∀ (s : State) (m : PlanMeas), s.age.due = false → s.onMinutes < s.age.lastMin + 60000 → Gives (.marginReplanDue m) s (fun u => u = s))
  ∧ (∀ (s : State) (isl : Nat) (m : PlanMeas), isl < 72 → s.age.pending.contains isl = true → s.measurable isl = true → s.planBlocked = false → s.ctlUp = true →
      (s.isle isl).stateAt + 1000 ≤ s.nowMs →
    Gives (.pendingIslandMeasure isl m) s (fun u => u.age.plan.ver = s.age.plan.ver + 1 ∧ u.age.prev = s.age.plan
      ∧ u.age.pending.contains isl = false ∧ u.pat = { s.pat with gen := s.pat.gen + 1 }
      ∧ u = { s with age := u.age, pat := u.pat, flt := u.flt, glb := u.glb, free := u.free }))
  ∧ (∀ (s : State) (c : Nat) (m : PlanMeas), c < 65536 → s.subTurn c 0xDC (fun q => q.cdw10.toNat % 4 == 0) = true → s.planBlocked = false →
    Gives (.marginPlanRun c m) s (fun u =>
      Ends c { dw0 := u.age.plan.ver % 65536, dw1 := u.age.pending.length } s u ∧ u.age.plan.ver = s.age.plan.ver + 1 ∧ u.age.prev = s.age.plan
        ∧ u = { s with cmd := u.cmd, age := u.age, pat := { s.pat with gen := s.pat.gen + 1 }, flt := u.flt, glb := u.glb, free := u.free }))
  ∧ (∀ (s : State) (c : Nat) (m : PlanMeas), c < 65536 → s.subTurn c 0xDC (fun q => q.cdw10.toNat % 4 == 0) = true → s.planBlocked = true →
    Gives (.marginPlanRun c m) s (fun u => Ends c (errOut .cmdSequence) s u ∧ u = { s with cmd := u.cmd }))
  ∧ (∀ (s : State) (c : Nat), c < 65536 → s.subTurn c 0xDC (fun q => q.cdw10.toNat % 4 == 1) = true →
    Gives (.marginPlanReport c) s (fun u =>
      Ends c { dw0 := s.age.plan.ver % 65536, dw1 := s.age.pending.length } s u ∧ u = { s with cmd := u.cmd }))

/-- An Abort beyond the limit of 8 is refused, ends its target with Command Abort Requested when that may still be aborted and has not begun, and answers 1 otherwise; Create of a completion queue makes the queue with the size, base and vector of the command, or is refused; Create of a submission queue makes it with its size, base and completion queue; Delete ends an idle submission queue, and a completion queue only while no submission queue uses it. No other queue changes. -/
def Obligations.QueueRows : Prop :=
  (∀ (s : State) (c : Nat), c < 65536 → s.adminTurn c 0x08 = true → 8 ≤ s.abortsBefore (s.ctx c) →
    Gives (.abort c) s (fun u => Ends c (errOut .abortLimit) s u ∧ u = { s with cmd := u.cmd }))
  ∧ (∀ (s : State) (c : Nat), c < 65536 → s.adminTurn c 0x08 = true → s.abortsBefore (s.ctx c) < 8 →
      (∀ t, s.abortTarget (s.ctx c) = some t → (s.ctx t).abortable = false ∨ s.begun t = true) →
    Gives (.abort c) s (fun u => Ends c (okOut 1) s u ∧ u = { s with cmd := u.cmd }))
  ∧ (∀ (s : State) (c t : Nat), c < 65536 → s.adminTurn c 0x08 = true → s.abortsBefore (s.ctx c) < 8 → s.abortTarget (s.ctx c) = some t →
      (s.ctx t).abortable = true → s.begun t = false → (s.ctx t).admin = true →
    Gives (.abort c) s (fun u => Ended c (okOut 0) u ∧ Ended t (errOut .abortRequested) u ∧ (∀ d, d ≠ c → d ≠ t → u.ctx d = s.ctx d)
      ∧ u = { s with cmd := u.cmd, sli := u.sli, zon := u.zon, cpx := u.cpx, fwu := u.fwu, pat := u.pat, pwr := u.pwr, isl := u.isl }))
  ∧ (∀ (s : State) (c t : Nat), c < 65536 → s.adminTurn c 0x08 = true → s.abortsBefore (s.ctx c) < 8 → s.abortTarget (s.ctx c) = some t →
      (s.ctx t).abortable = true → s.begun t = false → (s.ctx t).admin = false →
    Gives (.abort c) s (fun u => Ended c (okOut 0) u ∧ (u.ctx t).stage = 13 ∧ (u.ctx t).outc = some (errOut .abortRequested)))
  ∧ (∀ (s : State) (c k : Nat), c < 65536 → s.adminTurn c 0x05 = true → s.createCqErr (s.ctx c) = none →
      s.dqFor (s.ctx c).port (s.ctx c).slice ((s.ctx c).sqe.cdw10.toNat % 65536) = some k →
    Gives (.createIoCq c) s (fun u =>
      let q := (s.ctx c).sqe
      Ended c (okOut 0) u ∧ (∀ d, d ≠ c → u.ctx d = s.ctx d)
        ∧ u.queue k = { (s.queue k) with slice := (s.ctx c).slice, qid := q.cdw10.toNat % 65536, port := (s.ctx c).port, cqOn := true
                                         cqSize := q.cdw10.toNat / 65536 + 1, cqBase := q.prp1.toNat, cqTail := 0, cqHead := 0, phase := true
                                         vector := q.cdw11.toNat / 65536, ien := bitAt q.cdw11.toNat 1, posted := 0, coal := 0 }
        ∧ (∀ j, j ≠ k → u.queue j = s.queue j)
        ∧ u = { s with cmd := { s.cmd with ctxs := u.cmd.ctxs, queues := u.cmd.queues, qgen := u.cmd.qgen } }))
  ∧ (∀ (s : State) (c : Nat) (e : St), c < 65536 → s.adminTurn c 0x05 = true → s.createCqErr (s.ctx c) = some e →
    Gives (.createIoCq c) s (fun u => Ends c (errOut e) s u ∧ u = { s with cmd := u.cmd }))
  ∧ (∀ (s : State) (c k : Nat), c < 65536 → s.adminTurn c 0x01 = true → s.createSqErr (s.ctx c) = none →
      s.dqFor (s.ctx c).port (s.ctx c).slice ((s.ctx c).sqe.cdw10.toNat % 65536) = some k →
    Gives (.createIoSq c) s (fun u =>
      let q := (s.ctx c).sqe
      Ended c (okOut 0) u ∧ (∀ d, d ≠ c → u.ctx d = s.ctx d)
        ∧ u.queue k = { (s.queue k) with slice := (s.ctx c).slice, qid := q.cdw10.toNat % 65536, port := (s.ctx c).port, sqOn := true
                                         sqSize := q.cdw10.toNat / 65536 + 1, sqBase := q.prp1.toNat, head := 0, tail := 0
                                         cqid := q.cdw11.toNat / 65536, sqErr := false, deleting := false, fetched := 0 }
        ∧ (∀ j, j ≠ k → u.queue j = s.queue j)
        ∧ u = { s with cmd := { s.cmd with ctxs := u.cmd.ctxs, queues := u.cmd.queues, qgen := u.cmd.qgen, oqs := u.cmd.oqs } }))
  ∧ (∀ (s : State) (c k : Nat), c < 65536 → s.adminTurn c 0x00 = true → (s.ctx c).sqe.cdw10.toNat % 65536 ≠ 0 →
      s.dqOf (s.ctx c).port (s.ctx c).slice ((s.ctx c).sqe.cdw10.toNat % 65536) = some k → (s.queue k).sqOn = true → s.sqCtxs k = [] →
    Gives (.deleteIoSq c) s (fun u => Ended c (okOut 0) u ∧ (∀ d, d ≠ c → u.ctx d = s.ctx d) ∧ (u.queue k).sqOn = false
      ∧ (u.queue k).cqOn = (s.queue k).cqOn ∧ (∀ j, j ≠ k → u.queue j = s.queue j)
      ∧ u = { s with cmd := { s.cmd with ctxs := u.cmd.ctxs, queues := u.cmd.queues, qgen := u.cmd.qgen, oqs := u.cmd.oqs } }))
  ∧ (∀ (s : State) (c k : Nat), c < 65536 → s.adminTurn c 0x04 = true → (s.ctx c).sqe.cdw10.toNat % 65536 ≠ 0 →
      s.dqOf (s.ctx c).port (s.ctx c).slice ((s.ctx c).sqe.cdw10.toNat % 65536) = some k → (s.queue k).cqOn = true →
      s.cmd.queues.any (fun e => e.2.sqOn && e.2.slice == (s.ctx c).slice && e.2.port == (s.ctx c).port && e.2.qid != 0
        && e.2.cqid == (s.ctx c).sqe.cdw10.toNat % 65536) = false →
    Gives (.deleteIoCq c) s (fun u => Ended c (okOut 0) u ∧ (∀ d, d ≠ c → u.ctx d = s.ctx d) ∧ (u.queue k).cqOn = false
      ∧ (u.queue k).sqOn = (s.queue k).sqOn ∧ (∀ j, j ≠ k → u.queue j = s.queue j)
      ∧ u = { s with cmd := { s.cmd with ctxs := u.cmd.ctxs, queues := u.cmd.queues, qgen := u.cmd.qgen } }))
  ∧ (∀ (s : State) (c k : Nat), c < 65536 → s.adminTurn c 0x04 = true → (s.ctx c).sqe.cdw10.toNat % 65536 ≠ 0 →
      s.dqOf (s.ctx c).port (s.ctx c).slice ((s.ctx c).sqe.cdw10.toNat % 65536) = some k → (s.queue k).cqOn = true →
      s.cmd.queues.any (fun e => e.2.sqOn && e.2.slice == (s.ctx c).slice && e.2.port == (s.ctx c).port && e.2.qid != 0
        && e.2.cqid == (s.ctx c).sqe.cdw10.toNat % 65536) = true →
    Gives (.deleteIoCq c) s (fun u => Ends c (errOut .invalidQueueDeletion) s u ∧ u = { s with cmd := u.cmd }))

/-- Set Features stores arbitration, coalescing, atomicity and event configuration of the controller, refuses a feature that does not exist, and begins a power-state entry that waits; Get Features answers the event configuration stored and refuses a feature that does not exist; an entry that is reached sets the power state and answers, one that has not been reached 50 ms after its fetch restores the request; an asynchronous event request waits, takes a waiting event at once, and beyond 16 is refused. -/
def Obligations.FeatureRows : Prop :=
  (∀ (s : State) (c : Nat) (data : List Byte), c < 65536 → s.adminTurn c 0x09 = true → bitAt (s.ctx c).sqe.cdw10.toNat 31 = false →
      ((s.ctx c).sqe.cdw10.toNat % 256 = 0x01 ∨ (s.ctx c).sqe.cdw10.toNat % 256 = 0x08 ∨ (s.ctx c).sqe.cdw10.toNat % 256 = 0x0A
        ∨ (s.ctx c).sqe.cdw10.toNat % 256 = 0x0B) →
    Gives (.setFeatures c data) s (fun u =>
      let k := ctrlKey (s.ctx c).port (s.ctx c).slice
      let f := (s.ctx c).sqe.cdw10.toNat % 256
      let d := (s.ctx c).sqe.cdw11.toNat
      Ended c (okOut 0) u ∧ (∀ e, e ≠ c → u.ctx e = s.ctx e)
        ∧ u.ctrl k = { (s.ctrl k) with arb := if f = 0x01 then d % 8 else (s.ctrl k).arb, coal := if f = 0x08 then d % 65536 else (s.ctrl k).coal
                                       atomicity := if f = 0x0A then d % 2 else (s.ctrl k).atomicity, aec := if f = 0x0B then d else (s.ctrl k).aec }
        ∧ (∀ j, j ≠ k → u.ctrl j = s.ctrl j) ∧ u = { s with cmd := { s.cmd with ctxs := u.cmd.ctxs, ctrls := u.cmd.ctrls } }))
  ∧ (∀ (s : State) (c : Nat) (data : List Byte), c < 65536 → s.adminTurn c 0x09 = true →
      featureOk (s.ctx c).slice ((s.ctx c).sqe.cdw10.toNat % 256) = false →
    Gives (.setFeatures c data) s (fun u => Ended c (errOut .invalidField) u ∧ (∀ e, e ≠ c → u.ctx e = s.ctx e)
      ∧ u = { s with cmd := { s.cmd with ctxs := u.cmd.ctxs } }))
  ∧ (∀ (s : State) (c ps : Nat) (data : List Byte), c < 65536 → s.adminTurn c 0x09 = true → (s.ctx c).slice = 0 →
      (s.ctx c).sqe.cdw10.toNat = 0x02 → (s.ctx c).sqe.cdw11.toNat % 32 = ps → ps < s.pat.eff.power.states.length → s.pwr.entry = none →
    Gives (.setFeatures c data) s (fun u =>
      let k := ctrlKey (s.ctx c).port 0
      Parked c s u ∧ u.ctrl k = { (s.ctrl k) with psReq := ps } ∧ (∀ j, j ≠ k → u.ctrl j = s.ctrl j)
        ∧ u.pwr.entry = some { waiter := .ctx c, target := s.psTarget k ps, ctrl := k, prev := (s.ctrl k).psReq, fseq := (s.ctx c).fseq
                               fetchedMs := (s.ctx c).tFetchNs / 1000000 }
        ∧ u = { s with cmd := { s.cmd with ctxs := u.cmd.ctxs, ctrls := u.cmd.ctrls }, isl := u.isl
                       pwr := { s.pwr with entry := u.pwr.entry, dramState := u.pwr.dramState } }))
  ∧ (∀ (s : State) (c : Nat), c < 65536 → s.adminTurn c 0x0A = true → (s.ctx c).sqe.cdw10.toNat = 0x0B →
    Gives (.getFeatures c) s (fun u =>
      EndsWith c (okOut (s.ctrl (ctrlKey (s.ctx c).port (s.ctx c).slice)).aec) .none s u ∧ u = { s with cmd := u.cmd }))
  ∧ (∀ (s : State) (c : Nat), c < 65536 → s.adminTurn c 0x0A = true →
      featureOk (s.ctx c).slice ((s.ctx c).sqe.cdw10.toNat % 256) = false →
    Gives (.getFeatures c) s (fun u => EndsWith c (errOut .invalidField) .none s u ∧ u = { s with cmd := u.cmd }))
  ∧ (∀ (s : State) (c : Nat) (e : PsEntry), s.pwr.entry = some e → s.psReached = true → s.psBlocked e = false → e.waiter = .ctx c → s.ctx? c ≠ none →
    Gives .powerStateReached s (fun u => Ends c (okOut e.target) s u
      ∧ u.pwr = { s.pwr with entry := none, pstate := e.target, lastOp := if (s.pat.eff.power.states.getD e.target {}).nonOp then s.pwr.lastOp else e.target }
      ∧ u = { s with cmd := u.cmd, pwr := u.pwr }))
  ∧ (∀ (s : State) (c : Nat) (e : PsEntry), s.pwr.entry = some e → e.fetchedMs + 50 ≤ s.nowMs → e.waiter = .ctx c → s.ctx? c ≠ none →
    Gives .powerStateEntryTimeout s (fun u => Ended c (okOut s.pwr.pstate) u ∧ (∀ d, d ≠ c → u.ctx d = s.ctx d)
      ∧ u.ctrl e.ctrl = { (s.ctrl e.ctrl) with psReq := e.prev } ∧ (∀ j, j ≠ e.ctrl → u.ctrl j = s.ctrl j)
      ∧ u = { s with cmd := { s.cmd with ctxs := u.cmd.ctxs, ctrls := u.cmd.ctrls }, isl := u.isl, pwr := { s.pwr with entry := none, dramState := u.pwr.dramState } }))
  ∧ (∀ (s : State) (c : Nat), c < 65536 → s.adminTurn c 0x0C = true → (s.ctrl (ctrlKey (s.ctx c).port (s.ctx c).slice)).aers.length < 16 →
      (s.ctrl (ctrlKey (s.ctx c).port (s.ctx c).slice)).events = [] →
    Gives (.asynchronousEventRequest c) s (fun u =>
      let k := ctrlKey (s.ctx c).port (s.ctx c).slice
      Parked c s u ∧ u.ctrl k = { (s.ctrl k) with aers := (s.ctrl k).aers ++ [c] } ∧ (∀ j, j ≠ k → u.ctrl j = s.ctrl j)
        ∧ u = { s with cmd := { s.cmd with ctxs := u.cmd.ctxs, ctrls := u.cmd.ctrls } }))
  ∧ (∀ (s : State) (c : Nat) (e : Aen) (l : List Aen), c < 65536 → s.adminTurn c 0x0C = true →
      (s.ctrl (ctrlKey (s.ctx c).port (s.ctx c).slice)).aers = [] → (s.ctrl (ctrlKey (s.ctx c).port (s.ctx c).slice)).cfs = false →
      (s.ctrl (ctrlKey (s.ctx c).port (s.ctx c).slice)).events = e :: l →
      (s.ctrl (ctrlKey (s.ctx c).port (s.ctx c).slice)).maskedTypes.contains e.typ = false →
    Gives (.asynchronousEventRequest c) s (fun u => Ended c (okOut (e.typ + e.info * 256 + e.lid * 65536)) u
      ∧ (u.ctrl (ctrlKey (s.ctx c).port (s.ctx c).slice)).events = l ∧ (u.ctrl (ctrlKey (s.ctx c).port (s.ctx c).slice)).aers = []
      ∧ (∀ d, d ≠ c → u.ctx d = s.ctx d) ∧ u = { s with cmd := { s.cmd with ctxs := u.cmd.ctxs, ctrls := u.cmd.ctrls } }))
  ∧ (∀ (s : State) (c : Nat), c < 65536 → s.adminTurn c 0x0C = true → 16 ≤ (s.ctrl (ctrlKey (s.ctx c).port (s.ctx c).slice)).aers.length →
    Gives (.asynchronousEventRequest c) s (fun u => Ends c (errOut .asyncLimit) s u ∧ u = { s with cmd := u.cmd }))

/-- Identify answers the command sets, an allocated namespace with its size and an unallocated one with zeros, and refuses an unknown CNS; Get Log Page answers Firmware Slot Information and refuses a page that does not exist; directives follow Flexible Data Placement; the management interface sets and reads its transmission unit. Nothing else changes. -/
def Obligations.PageRows : Prop :=
  (∀ (s : State) (c : Nat), c < 65536 → s.adminTurn c 0x06 = true → (s.ctx c).sqe.cdw10.toNat % 256 = 0x1C →
    Gives (.identify c) s (fun u => EndsWith c (okOut 0) (.page 4096 [(0, 8, 5)]) s u ∧ u = { s with cmd := u.cmd }))
  ∧ (∀ (s : State) (c : Nat), c < 65536 → s.adminTurn c 0x06 = true → (s.ctx c).sqe.cdw10.toNat % 256 = 0x11 →
      1 ≤ (s.ctx c).sqe.nsid → (s.ctx c).sqe.nsid ≤ (match s.pat.eff.ns with | none => 0 | some m => m.maxNs) →
    Gives (.identify c) s (fun u =>
      let n := (s.ctx c).sqe.nsid
      (match s.ns? n with
        | none => EndsWith c (okOut 0) (.page 4096 []) s u
        | some x => ∃ l, EndsWith c (okOut 0) (.part 4096 ((0, 8, x.nsze) :: (8, 8, x.nsze) :: l)) s u)
      ∧ u = { s with cmd := u.cmd }))
  ∧ (∀ (s : State) (c : Nat), c < 65536 → s.adminTurn c 0x06 = true → 0x1D ≤ (s.ctx c).sqe.cdw10.toNat % 256 →
    Gives (.identify c) s (fun u => EndsWith c (errOut .invalidField) .none s u ∧ u = { s with cmd := u.cmd }))
  ∧ (∀ (s : State) (c : Nat), c < 65536 → s.adminTurn c 0x02 = true → (s.ctx c).sqe.cdw10.toNat = 0x03FF8003 → (s.ctx c).sqe.cdw11.toNat % 65536 = 0 →
      (s.ctx c).sqe.cdw12.toNat = 0 → (s.ctx c).sqe.cdw13.toNat = 0 →
    Gives (.getLogPage c) s (fun u => ∃ l, EndsWith c (okOut 0)
        (.page 512 ((0, 1, (if (s.fwSlot 1).running then 2 else 1) + (if (s.fwSlot 0).next then 16 else if (s.fwSlot 1).next then 32 else 0)) :: l)) s u
      ∧ u = { s with cmd := u.cmd }))
  ∧ (∀ (s : State) (c : Nat), c < 65536 → s.adminTurn c 0x02 = true → (s.ctx c).sqe.cdw10.toNat % 256 = 0xD0 →
    Gives (.getLogPage c) s (fun u => EndsWith c (errOut .invalidLogPage) .none s u ∧ u = { s with cmd := u.cmd }))
  ∧ (∀ (s : State) (c : Nat), c < 65536 → s.adminTurn c 0x19 = true →
    Gives (.directiveSend c) s (fun u =>
      let q := (s.ctx c).sqe
      Ends c (if s.ns? q.nsid = none then errOut .invalidNs
              else if q.cdw11.toNat % 65536 = 1 ∧ q.cdw12.toNat / 256 % 256 = 2 ∧ q.cdw12.toNat % 2 = 1 ∧ s.fdpOn q.nsid = true then okOut 0
              else errOut .invalidField) s u ∧ u = { s with cmd := u.cmd }))
  ∧ (∀ (s : State) (c : Nat), c < 65536 → s.adminTurn c 0x1A = true → s.ns? (s.ctx c).sqe.nsid ≠ none → (s.ctx c).sqe.cdw11.toNat % 65536 = 1 →
    Gives (.directiveReceive c) s (fun u =>
      EndsWith c (okOut 0) (.page 4096 [(0, 1, if s.fdpAvail then 5 else 1), (32, 1, if s.fdpOn (s.ctx c).sqe.nsid then 5 else 1)
        , (64, 1, if s.fdpOn (s.ctx c).sqe.nsid then 4 else 0)]) s u ∧ u = { s with cmd := u.cmd }))
  ∧ (∀ (s : State) (c v : Nat), c < 65536 → s.adminTurn c 0x1D = true →
    Gives (.nvmeMiSend c (.configSet 3 v)) s (fun u =>
      if 64 ≤ v then Ends c (okOut 0) s u ∧ u = { s with cmd := u.cmd, sb := { s.sb with mtu := v } }
      else Ends c (errOut .invalidField) s u ∧ u = { s with cmd := u.cmd }))
  ∧ (∀ (s : State) (c : Nat), c < 65536 → s.adminTurn c 0x1E = true →
    Gives (.nvmeMiReceive c (.configGet 3)) s (fun u => EndsWith c (okOut s.sb.mtu) .none s u ∧ u = { s with cmd := u.cmd }))
  ∧ (∀ (s : State) (c v i : Nat), c < 65536 → s.adminTurn c 0x1E = true →
    Gives (.nvmeMiReceive c (.configSet i v)) s (fun u => Ends c (errOut .invalidField) s u ∧ u = { s with cmd := u.cmd }))

/-- A create makes the namespace with the format, size, class and owner of its buffer, no attachment and empty zones, or is refused; a delete removes each namespace it names with its map entries, and one with admitted commands first loses its attachments and waits; attachment adds or removes exactly the controllers of the list; a format sets the LBA format and the protection of each namespace it names, unmaps a conventional one and empties every zone of a zoned one that is not OFFLINE; a block or crypto erase does the same to every namespace, and a crypto erase gives every media key slot but slot 0 a key generated after it. -/
def Obligations.NamespaceRows : Prop :=
  (∀ (s : State) (c n : Nat) (b : NsCreate), c < 65536 → s.subTurn c 0x0D (fun q => q.cdw10.toNat % 16 == 0) = true → s.createNsErr b = none →
      s.freeNsid = some n →
    Gives (.namespaceCreate c b) s (fun u =>
      Ended c (okOut n) u
        ∧ u.ns n = { zoned := b.csi == 2, nsze := b.nsze, lbaf := s.fmtList.getD (b.flbas % 16) 0, dps := b.dps, cls := b.cls, owner := b.owner
                     extents := (u.ns n).extents, keySlot := (u.ns n).keySlot, handles := if b.handles.isEmpty then [0] else b.handles
                     promised := (u.ns n).promised, own := .owned (s.ctx c).port }
        ∧ (b.csi = 2 → ∀ e ∈ u.nsEnts n, (u.zent e).state = .empty ∧ (u.zent e).wp = 0)
        ∧ (∀ j, j ≠ n → u.ns j = s.ns j) ∧ u.zon.map = s.zon.map ∧ u = { s with cmd := u.cmd, zon := u.zon, sec := u.sec }))
  ∧ (∀ (s : State) (c : Nat) (e : St) (b : NsCreate), c < 65536 → s.subTurn c 0x0D (fun q => q.cdw10.toNat % 16 == 0) = true → s.createNsErr b = some e →
    Gives (.namespaceCreate c b) s (fun u => Ends c (errOut e) s u ∧ u = { s with cmd := u.cmd }))
  ∧ (∀ (s : State) (c : Nat), c < 65536 → s.subTurn c 0x0D (fun q => q.cdw10.toNat % 16 == 1) = true →
      ((s.ctx c).sqe.nsid = 0xFFFFFFFF ∨ s.ns? (s.ctx c).sqe.nsid ≠ none) →
      (if (s.ctx c).sqe.nsid = 0xFFFFFFFF then s.zon.nss.map (·.1) else [(s.ctx c).sqe.nsid]).any s.admittedOn = false →
    Gives (.namespaceDelete c) s (fun u =>
      let l := if (s.ctx c).sqe.nsid = 0xFFFFFFFF then s.zon.nss.map (·.1) else [(s.ctx c).sqe.nsid]
      Ended c (okOut 0) u ∧ (∀ n ∈ l, u.ns? n = none) ∧ (∀ j, j ∉ l → u.ns? j = s.ns? j) ∧ (∀ k, k / 2 ^ 64 ∈ l → tget u.zon.map k = none)
        ∧ (∀ k, k / 2 ^ 64 ∉ l → tget u.zon.map k = tget s.zon.map k)))
  ∧ (∀ (s : State) (c : Nat), c < 65536 → s.subTurn c 0x0D (fun q => q.cdw10.toNat % 16 == 1) = true → (s.ctx c).sqe.nsid ≠ 0xFFFFFFFF →
      s.ns? (s.ctx c).sqe.nsid = none →
    Gives (.namespaceDelete c) s (fun u => Ends c (errOut .invalidNs) s u ∧ u = { s with cmd := u.cmd }))
  ∧ (∀ (s : State) (c : Nat), c < 65536 → s.subTurn c 0x0D (fun q => q.cdw10.toNat % 16 == 1) = true → (s.ctx c).sqe.nsid ≠ 0xFFFFFFFF →
      s.ns? (s.ctx c).sqe.nsid ≠ none → s.admittedOn (s.ctx c).sqe.nsid = true →
    Gives (.namespaceDelete c) s (fun u => u.ns (s.ctx c).sqe.nsid = { (s.ns (s.ctx c).sqe.nsid) with attached := [] }
      ∧ (∀ j, j ≠ (s.ctx c).sqe.nsid → u.ns j = s.ns j) ∧ u.zon.map = s.zon.map ∧ u = { s with cmd := u.cmd, zon := u.zon }))
  ∧ (∀ (s : State) (c : Nat) (l : List Nat), c < 65536 → s.adminTurn c 0x15 = true → (s.ctx c).sqe.cdw10.toNat % 16 = 0 →
      s.attachErr (s.ctx c).sqe.nsid false l = none →
    Gives (.namespaceAttachment c l) s (fun u =>
      let n := (s.ctx c).sqe.nsid
      Ended c (okOut 0) u ∧ u.ns n = { (s.ns n) with attached := l.foldl insertNat (s.ns n).attached } ∧ (∀ k ∈ l, (u.ns n).attached.contains k = true)
        ∧ (∀ j, j ≠ n → u.ns j = s.ns j) ∧ u = { s with cmd := u.cmd, zon := u.zon }))
  ∧ (∀ (s : State) (c : Nat) (l : List Nat), c < 65536 → s.adminTurn c 0x15 = true → (s.ctx c).sqe.cdw10.toNat % 16 = 1 →
      s.attachErr (s.ctx c).sqe.nsid true l = none →
    Gives (.namespaceAttachment c l) s (fun u =>
      let n := (s.ctx c).sqe.nsid
      Ended c (okOut 0) u ∧ u.ns n = { (s.ns n) with attached := l.foldl removeNat (s.ns n).attached } ∧ (∀ k ∈ l, (u.ns n).attached.contains k = false)
        ∧ (∀ j, j ≠ n → u.ns j = s.ns j) ∧ u = { s with cmd := u.cmd, zon := u.zon }))
  ∧ (∀ (s : State) (c : Nat) (e : St) (l : List Nat), c < 65536 → s.adminTurn c 0x15 = true → (s.ctx c).sqe.cdw10.toNat % 16 ≤ 1 →
      s.attachErr (s.ctx c).sqe.nsid ((s.ctx c).sqe.cdw10.toNat % 16 == 1) l = some e →
    Gives (.namespaceAttachment c l) s (fun u => Ends c (errOut e) s u ∧ u = { s with cmd := u.cmd }))
  ∧ (∀ (s : State) (c : Nat), c < 65536 → s.adminTurn c 0x80 = true →
      s.formatErr (s.ctx c).sqe (if (s.ctx c).sqe.nsid = 0xFFFFFFFF then s.zon.nss.map (·.1) else [(s.ctx c).sqe.nsid]) = none →
    Gives (.formatNvm c) s (fun u =>
      let q := (s.ctx c).sqe
      let l := if q.nsid = 0xFFFFFFFF then s.zon.nss.map (·.1) else [q.nsid]
      Ended c (okOut 0) u
        ∧ (∀ n ∈ l, u.ns n = { (s.ns n) with lbaf := s.fmtList.getD (q.cdw10.toNat % 16) 0, dps := bitsAt q.cdw10.toNat 5 3 + 8 * bitsAt q.cdw10.toNat 8 1 })
        ∧ (∀ j, j ∉ l → u.ns j = s.ns j)
        ∧ (∀ n ∈ l, (s.ns n).zoned = false → ∀ k, k / 2 ^ 64 = n → (u.mapEnt k).loc = none ∧ (u.mapEnt k).unc = false)
        ∧ (∀ n ∈ l, (s.ns n).zoned = true → ∀ e ∈ s.nsEnts n, (u.zent e).state = .empty ∨ (u.zent e).state = .offline)
        ∧ (∀ k, k / 2 ^ 64 ∉ l → tget u.zon.map k = tget s.zon.map k)))
  ∧ (∀ (s : State) (c : Nat) (e : St), c < 65536 → s.adminTurn c 0x80 = true →
      s.formatErr (s.ctx c).sqe (if (s.ctx c).sqe.nsid = 0xFFFFFFFF then s.zon.nss.map (·.1) else [(s.ctx c).sqe.nsid]) = some e →
    Gives (.formatNvm c) s (fun u => Ends c (errOut e) s u ∧ u = { s with cmd := u.cmd }))
  ∧ (∀ (s : State) (c a : Nat), c < 65536 → s.adminTurn c 0x84 = true → (s.ctx c).sqe.cdw10.toNat % 8 = a → (a = 2 ∨ a = 4) → s.glb.mediaReady = true →
    Gives (.sanitize c) s (fun u => Ended c (okOut 0) u
      ∧ (∀ n x, s.ns? n = some x → x.zoned = false → ∀ k, k / 2 ^ 64 = n → (u.mapEnt k).loc = none)
      ∧ (∀ n x, s.ns? n = some x → x.zoned = true → ∀ e ∈ s.nsEnts n, (u.zent e).state = .empty ∨ (u.zent e).state = .offline)
      ∧ (a = 2 → u.sec = s.sec)
      ∧ (a = 4 → tget u.sec.slots 0 = tget s.sec.slots 0
          ∧ (∀ k g, k ≠ 0 → tget s.sec.slots k = some g → ∃ h, s.sec.keyGen < h ∧ tget u.sec.slots k = some h)
          ∧ u.sec = { s.sec with slots := u.sec.slots, keyGen := u.sec.keyGen, discards := u.sec.discards })
      ∧ (∀ n, u.ns n = s.ns n)))
  ∧ (∀ (s : State) (c : Nat), c < 65536 → s.adminTurn c 0x84 = true → (s.ctx c).sqe.cdw10.toNat % 8 = 1 →
    Gives (.sanitize c) s (fun u => Ends c (okOut 0) s u ∧ u = { s with cmd := u.cmd }))
  ∧ (∀ (s : State) (c : Nat), c < 65536 → s.adminTurn c 0x84 = true →
      ((s.ctx c).sqe.cdw10.toNat % 8 = 0 ∨ (s.ctx c).sqe.cdw10.toNat % 8 = 3 ∨ 5 ≤ (s.ctx c).sqe.cdw10.toNat % 8) →
    Gives (.sanitize c) s (fun u => Ends c (errOut .invalidField) s u ∧ u = { s with cmd := u.cmd }))

/-- An admitted read of a conventional namespace, with no earlier write in its way, translates its LBAs, takes its read range and goes to stage 8; one beyond the namespace ends LBA Out of Range, a Compare too long Invalid Field, a Read not admitted with its status; without a bound plain route none of the four starts. -/
def Obligations.ReadRows : Prop :=
  (∀ (s : State) (c : Nat), c < 65536 → Admitted s c opRead false → s.readErr3 (s.ctx c) = none → (s.ns (s.ctx c).nsid).zoned = false →
      (s.ctx c).slba + (s.ctx c).count ≤ (s.ns (s.ctx c).nsid).nsze →
      s.lockBlocker { (s.ctx c) with lockR := some { ns := (s.ctx c).nsid, lo := (s.ctx c).slba, hi := (s.ctx c).slba + (s.ctx c).count - 1 } } = none →
    Gives (.read c) s (fun u =>
      (u.ctx c).stage = 8 ∧ (u.ctx c).units = s.readUnits (s.ctx c) (lbasOf (s.ctx c).slba (s.ctx c).count) ∧ (u.ctx c).lockR = some { ns := (s.ctx c).nsid, lo := (s.ctx c).slba, hi := (s.ctx c).slba + (s.ctx c).count - 1 }
        ∧ (u.ctx c).outc = (s.ctx c).outc ∧ ((s.slc (s.ctx c).slice).shares.comet = 0 → (∀ d, d ≠ c → u.ctx d = s.ctx d) ∧ u = { s with cmd := { s.cmd with ctxs := u.cmd.ctxs }, zon := { s.zon with hits := u.zon.hits, misses := u.zon.misses }, free := u.free })))
  ∧ (∀ (s : State) (c : Nat), c < 65536 → Admitted s c opCompare false → (s.ctx c).count ≤ 512 → (s.ns (s.ctx c).nsid).zoned = false →
      (s.ctx c).slba + (s.ctx c).count ≤ (s.ns (s.ctx c).nsid).nsze →
      s.lockBlocker { (s.ctx c) with lockR := some { ns := (s.ctx c).nsid, lo := (s.ctx c).slba, hi := (s.ctx c).slba + (s.ctx c).count - 1 } } = none →
    Gives (.compare c) s (fun u =>
      (u.ctx c).stage = 8 ∧ (u.ctx c).units = s.readUnits (s.ctx c) (lbasOf (s.ctx c).slba (s.ctx c).count) ∧ (u.ctx c).lockR = some { ns := (s.ctx c).nsid, lo := (s.ctx c).slba, hi := (s.ctx c).slba + (s.ctx c).count - 1 }
        ∧ (u.ctx c).outc = (s.ctx c).outc ∧ (∀ d, d ≠ c → u.ctx d = s.ctx d) ∧ u = { s with cmd := { s.cmd with ctxs := u.cmd.ctxs }, zon := { s.zon with hits := u.zon.hits, misses := u.zon.misses }, free := u.free }))
  ∧ (∀ (s : State) (c : Nat), c < 65536 → Admitted s c opVerify false → (s.ns (s.ctx c).nsid).zoned = false →
      (s.ctx c).slba + (s.ctx c).count ≤ (s.ns (s.ctx c).nsid).nsze →
      s.lockBlocker { (s.ctx c) with lockR := some { ns := (s.ctx c).nsid, lo := (s.ctx c).slba, hi := (s.ctx c).slba + (s.ctx c).count - 1 } } = none →
    Gives (.verifyCommand c) s (fun u =>
      (u.ctx c).stage = 8 ∧ (u.ctx c).units = s.readUnits (s.ctx c) (lbasOf (s.ctx c).slba (s.ctx c).count) ∧ (u.ctx c).lockR = some { ns := (s.ctx c).nsid, lo := (s.ctx c).slba, hi := (s.ctx c).slba + (s.ctx c).count - 1 }
        ∧ (u.ctx c).outc = (s.ctx c).outc ∧ (∀ d, d ≠ c → u.ctx d = s.ctx d) ∧ u = { s with cmd := { s.cmd with ctxs := u.cmd.ctxs }, zon := { s.zon with hits := u.zon.hits, misses := u.zon.misses }, free := u.free }))
  ∧ (∀ (s : State) (c : Nat) (e : St), c < 65536 → s.rowTurn c opRead = true → (s.ctx c).stage = 3 → SeatOpen s c → s.readErr3 (s.ctx c) = none →
      s.admitErr (s.ctx c) (s.ctx c).nsid false = some e →
    Gives (.read c) s (AtCommit c (errOut e)))
  ∧ (∀ (s : State) (c : Nat) (f : Nat × Instr), c < 65536 → f ∈ [(opRead, .read c), (opCompare, .compare c), (opVerify, .verifyCommand c), (opWrite, .write c)] →
      s.rowTurn c f.1 = true → (s.ctx c).stage = 3 → (s.ctx c).count ≤ 512 → (s.ctx c).sqe.cdw3 = 0 → (s.ctx c).route = 0 →
      ((s.route 0).state = .free ∨ (s.route 0).state = .draining) →
    Gives f.2 s (AtCommit c (errOut .routeNotBound)))
  ∧ (∀ (s : State) (c : Nat), c < 65536 → s.rowTurn c opCompare = true → (s.ctx c).stage = 3 → 512 < (s.ctx c).count →
    Gives (.compare c) s (AtCommit c (errOut .invalidField)))
  ∧ (∀ (s : State) (c : Nat), c < 65536 → Admitted s c opVerify false → (s.ns (s.ctx c).nsid).nsze < (s.ctx c).slba + (s.ctx c).count →
    Gives (.verifyCommand c) s (AtCommit c (errOut .lbaRange)))

/-- An admitted write of a conventional namespace takes its write range and goes on: Write to stage 8 for its data, Write Zeroes, Write Uncorrectable and Deallocate to the commit point; an earlier overlapping write holds it at stage 7; a range beyond the namespace ends LBA Out of Range; Copy takes both its ranges; Dataset Management without Deallocate takes no range; Flush waits at the commit point for the units that are not durable, none of them with a hold-up supply. -/
def Obligations.WriteRows : Prop :=
  (∀ (s : State) (c : Nat), c < 65536 → Admitted s c opWrite true → writeErr3 (s.ctx c) = none → s.convWriteErr (s.ctx c).nsid (s.ctx c).slba (s.ctx c).count = none →
      (s.ns (s.ctx c).nsid).zoned = false → s.lockBlocker { (s.ctx c) with lockW := some { ns := (s.ctx c).nsid, lo := (s.ctx c).slba, hi := (s.ctx c).slba + (s.ctx c).count - 1 } } = none →
    Gives (.write c) s (fun u =>
      u.ctx c = { (s.ctx c) with stage := 8, wait := 0, dep := none, rerun := false, lockW := some { ns := (s.ctx c).nsid, lo := (s.ctx c).slba, hi := (s.ctx c).slba + (s.ctx c).count - 1 } }
        ∧ (∀ d, d ≠ c → u.ctx d = s.ctx d) ∧ u = { s with cmd := { s.cmd with ctxs := u.cmd.ctxs }, zon := { s.zon with hits := u.zon.hits, misses := u.zon.misses }, free := u.free }))
  ∧ (∀ (s : State) (c : Nat), c < 65536 → Admitted s c opWriteZeroes true → s.convWriteErr (s.ctx c).nsid (s.ctx c).slba (s.ctx c).count = none →
      (s.ns (s.ctx c).nsid).zoned = false → s.lockBlocker { (s.ctx c) with lockW := some { ns := (s.ctx c).nsid, lo := (s.ctx c).slba, hi := (s.ctx c).slba + (s.ctx c).count - 1 } } = none →
    Gives (.writeZeroes c) s (fun u =>
      u.ctx c = { (s.ctx c) with stage := 13, wait := 0, dep := none, rerun := false, lockW := some { ns := (s.ctx c).nsid, lo := (s.ctx c).slba, hi := (s.ctx c).slba + (s.ctx c).count - 1 }, outc := some (okOut 0) }
        ∧ (∀ d, d ≠ c → u.ctx d = s.ctx d) ∧ u = { s with cmd := { s.cmd with ctxs := u.cmd.ctxs }, zon := { s.zon with hits := u.zon.hits, misses := u.zon.misses }, free := u.free }))
  ∧ (∀ (s : State) (c : Nat), c < 65536 → Admitted s c opWriteUnc true → s.convWriteErr (s.ctx c).nsid (s.ctx c).slba (s.ctx c).count = none →
      (s.ns (s.ctx c).nsid).zoned = false → s.lockBlocker { (s.ctx c) with lockW := some { ns := (s.ctx c).nsid, lo := (s.ctx c).slba, hi := (s.ctx c).slba + (s.ctx c).count - 1 } } = none →
    Gives (.writeUncorrectable c) s (fun u =>
      u.ctx c = { (s.ctx c) with stage := 13, wait := 0, dep := none, rerun := false, lockW := some { ns := (s.ctx c).nsid, lo := (s.ctx c).slba, hi := (s.ctx c).slba + (s.ctx c).count - 1 }, outc := some (okOut 0) }
        ∧ (∀ d, d ≠ c → u.ctx d = s.ctx d) ∧ u = { s with cmd := { s.cmd with ctxs := u.cmd.ctxs }, zon := { s.zon with hits := u.zon.hits, misses := u.zon.misses }, free := u.free }))
  ∧ (∀ (s : State) (c b : Nat), c < 65536 → Admitted s c opWrite true → writeErr3 (s.ctx c) = none → (s.ctx c).spec = false →
      s.convWriteErr (s.ctx c).nsid (s.ctx c).slba (s.ctx c).count = none → (s.ns (s.ctx c).nsid).zoned = false →
      s.lockBlocker { (s.ctx c) with lockW := some { ns := (s.ctx c).nsid, lo := (s.ctx c).slba, hi := (s.ctx c).slba + (s.ctx c).count - 1 } } = some b →
    Gives (.write c) s (fun u => (u.ctx c).stage = 7 ∧ (u.ctx c).wait = 1 ∧ (u.ctx c).dep = some b ∧ (u.ctx c).rerun = true
      ∧ (∀ d, d ≠ c → u.ctx d = s.ctx d) ∧ u = { s with cmd := { s.cmd with ctxs := u.cmd.ctxs }, zon := { s.zon with hits := u.zon.hits, misses := u.zon.misses }, free := u.free }))
  ∧ (∀ (s : State) (c : Nat), c < 65536 → Admitted s c opWrite true → writeErr3 (s.ctx c) = none → (s.ns (s.ctx c).nsid).zoned = false →
      (s.ns (s.ctx c).nsid).nsze < (s.ctx c).slba + (s.ctx c).count →
    Gives (.write c) s (AtCommit c (errOut .lbaRange)))
  ∧ (∀ (s : State) (c : Nat) (l : List LbaRange), c < 65536 → Admitted s c opDsm true → bitAt (s.ctx c).sqe.cdw11.toNat 2 = true →
      l.length = (s.ctx c).sqe.cdw10.toNat % 256 + 1 → (∀ r ∈ l, r.slba + r.nlb ≤ (s.ns (s.ctx c).nsid).nsze) → s.nsReadOnly (s.ctx c).nsid = false →
      s.lockBlocker { (s.ctx c) with lockW := hull (s.ctx c).nsid l } = none →
    Gives (.datasetManagement c (some l)) s (fun u =>
      u.ctx c = { (s.ctx c) with stage := 13, wait := 0, dep := none, rerun := false, ranges := l, lockW := hull (s.ctx c).nsid l, outc := some (okOut 0) }
        ∧ (∀ d, d ≠ c → u.ctx d = s.ctx d) ∧ u = { s with cmd := { s.cmd with ctxs := u.cmd.ctxs }, zon := { s.zon with hits := u.zon.hits, misses := u.zon.misses }, free := u.free }))
  ∧ (∀ (s : State) (c : Nat) (l : List LbaRange), c < 65536 → Admitted s c opDsm false → bitAt (s.ctx c).sqe.cdw11.toNat 2 = false →
      l.length = (s.ctx c).sqe.cdw10.toNat % 256 + 1 → (∀ r ∈ l, r.slba + r.nlb ≤ (s.ns (s.ctx c).nsid).nsze) →
    Gives (.datasetManagement c (some l)) s (fun u =>
      u.ctx c = { (s.ctx c) with stage := 13, ranges := l, outc := some (okOut 0) } ∧ (∀ d, d ≠ c → u.ctx d = s.ctx d) ∧ u = { s with cmd := { s.cmd with ctxs := u.cmd.ctxs } }))
  ∧ (∀ (s : State) (c : Nat) (l : List LbaRange), c < 65536 → Admitted s c opCopy true → copyErr3 (s.ctx c) (some l) = none →
      (s.ns (s.ctx c).nsid).zoned = false → (∀ r ∈ l, r.slba + r.nlb ≤ (s.ns (s.ctx c).nsid).nsze) →
      s.convWriteErr (s.ctx c).nsid (sqeSlba (s.ctx c).sqe) (rangeLbas l).length = none →
      s.lockBlocker { (s.ctx c) with lockR := hull (s.ctx c).nsid l, lockW := some { ns := (s.ctx c).nsid, lo := sqeSlba (s.ctx c).sqe, hi := sqeSlba (s.ctx c).sqe + (rangeLbas l).length - 1 } } = none →
    Gives (.copy c (some l)) s (fun u =>
      (u.ctx c).stage = 8 ∧ (u.ctx c).ranges = l ∧ (u.ctx c).units = s.readUnits (s.ctx c) (rangeLbas l) ∧ (u.ctx c).lockR = hull (s.ctx c).nsid l
        ∧ (u.ctx c).lockW = some { ns := (s.ctx c).nsid, lo := sqeSlba (s.ctx c).sqe, hi := sqeSlba (s.ctx c).sqe + (rangeLbas l).length - 1 }
        ∧ (∀ d, d ≠ c → u.ctx d = s.ctx d) ∧ u = { s with cmd := { s.cmd with ctxs := u.cmd.ctxs }, zon := { s.zon with hits := u.zon.hits, misses := u.zon.misses }, free := u.free }))
  ∧ (∀ (s : State) (c : Nat), c < 65536 → s.rowTurn c opFlush = true → (s.ctx c).stage = 3 →
      (∀ n ∈ s.flushNs (s.ctx c), s.admitErr (s.ctx c) n false = none ∧ s.pendingDwe (s.ctx c).slice n = none) → s.holdup = true →
    Gives (.flush c) s (fun u => u.ctx c = { (s.ctx c) with stage := 13, flushSet := [], outc := some (okOut 0) } ∧ (∀ d, d ≠ c → u.ctx d = s.ctx d) ∧ u = { s with cmd := { s.cmd with ctxs := u.cmd.ctxs } }))
  ∧ (∀ (s : State) (c : Nat), c < 65536 → s.rowTurn c opFlush = true → (s.ctx c).stage = 3 →
      (∀ n ∈ s.flushNs (s.ctx c), s.admitErr (s.ctx c) n false = none ∧ s.pendingDwe (s.ctx c).slice n = none) → s.holdup = false →
      (∀ k ∈ s.undurable (fun e => (s.flushNs (s.ctx c)).contains e.ns), s.landDies (s.unitSet k) ≠ []) →
    Gives (.flush c) s (fun u => (u.ctx c).stage = 13 ∧ (u.ctx c).outc = some (okOut 0)
      ∧ (u.ctx c).flushSet = s.undurable (fun e => (s.flushNs (s.ctx c)).contains e.ns) ∧ (∀ d, d ≠ c → u.ctx d = s.ctx d)
      ∧ u = { s with cmd := { s.cmd with ctxs := u.cmd.ctxs }, med := u.med }))

/-- A Zone Append reserves the blocks at the zone's reservation pointer and reports where it lies; Full refuses it; each zone action takes its one zone, and moves the projection of a zone that no other command holds as Table 5-3 says; with Select All it takes the zones that accept it; an Offline of a Full zone is an invalid transition; a zone report, a handle report and a handle update go to the commit point with their data. Nothing else changes. -/
def Obligations.ZoneRows : Prop :=
  (∀ (s : State) (c : Nat), c < 65536 → Admitted s c opAppend true → s.appendErr3 (s.ctx c) = none → (s.ctx c).resv = none →
      sqeSlba (s.ctx c).sqe < (s.ns (s.ctx c).nsid).nsze →
      (s.rebuildProj (s.zoneEnt (s.ctx c).nsid (s.zoneOf (s.ctx c).nsid (sqeSlba (s.ctx c).sqe))) (s.ctx c).fseq).zoneWriteErr (s.ctx c).nsid (s.zoneEnt (s.ctx c).nsid (s.zoneOf (s.ctx c).nsid (sqeSlba (s.ctx c).sqe))) none (s.ctx c).count = none →
      ((s.zent (s.zoneEnt (s.ctx c).nsid (s.zoneOf (s.ctx c).nsid (sqeSlba (s.ctx c).sqe)))).state.hasRows = true →
        s.lostDies (s.stmpl (s.zent (s.zoneEnt (s.ctx c).nsid (s.zoneOf (s.ctx c).nsid (sqeSlba (s.ctx c).sqe)))).tmpl) ≤ (s.stmpl (s.zent (s.zoneEnt (s.ctx c).nsid (s.zoneOf (s.ctx c).nsid (sqeSlba (s.ctx c).sqe)))).tmpl).parity) →
      (s.rebuildProj (s.zoneEnt (s.ctx c).nsid (s.zoneOf (s.ctx c).nsid (sqeSlba (s.ctx c).sqe))) (s.ctx c).fseq).openCheck (s.ctx c).nsid (s.zoneEnt (s.ctx c).nsid (s.zoneOf (s.ctx c).nsid (sqeSlba (s.ctx c).sqe))) true = .ok none →
      (∀ d x, s.ctx? d = some x → x.lockW = none) →
    Gives (.zoneAppend c) s (fun u =>
      let z := s.zoneOf (s.ctx c).nsid (sqeSlba (s.ctx c).sqe)
      let e := s.zoneEnt (s.ctx c).nsid z
      let rp := ((s.rebuildProj e (s.ctx c).fseq).proj e).rp
      (u.ctx c).stage = 8 ∧ (u.ctx c).resv = some { ent := e, off := rp, len := (s.ctx c).count }
        ∧ (u.ctx c).slba = z * s.zsze (s.ctx c).nsid + rp
        ∧ (s.zoneCmds e = [] → (s.ctx c).void.contains e = false → (s.ctx c).fseq < s.cmd.fseq → rp = (s.zent e).wp ∧ (u.proj e).rp = rp + (s.ctx c).count)
        ∧ (∀ j, j ≠ e → u.proj j = s.proj j)
        ∧ (∀ d, d ≠ c → u.ctx d = s.ctx d) ∧ u = { s with cmd := { s.cmd with ctxs := u.cmd.ctxs }, zon := { s.zon with proj := u.zon.proj } }))
  ∧ (∀ (s : State) (c : Nat), c < 65536 → Admitted s c opAppend true → s.appendErr3 (s.ctx c) = none → (s.ctx c).resv = none →
      sqeSlba (s.ctx c).sqe < (s.ns (s.ctx c).nsid).nsze → ((s.rebuildProj (s.zoneEnt (s.ctx c).nsid (s.zoneOf (s.ctx c).nsid (sqeSlba (s.ctx c).sqe))) (s.ctx c).fseq).proj (s.zoneEnt (s.ctx c).nsid (s.zoneOf (s.ctx c).nsid (sqeSlba (s.ctx c).sqe)))).state = .full →
    Gives (.zoneAppend c) s (AtCommit c (errOut .zoneFull)))
  ∧ (∀ (s : State) (c : Nat), c < 65536 → Admitted s c opZoneSend true → (s.ctx c).sqe.cdw13.toNat % 256 = 1 → bitAt (s.ctx c).sqe.cdw13.toNat 8 = false →
      sqeSlba (s.ctx c).sqe < (s.ns (s.ctx c).nsid).nsze → s.zoneOff (s.ctx c).nsid (sqeSlba (s.ctx c).sqe) = 0 →
      (s.rebuildProj (s.zoneEnt (s.ctx c).nsid (s.zoneOf (s.ctx c).nsid (sqeSlba (s.ctx c).sqe))) (s.ctx c).fseq).zoneActErr (s.ctx c).nsid (s.zoneEnt (s.ctx c).nsid (s.zoneOf (s.ctx c).nsid (sqeSlba (s.ctx c).sqe))) 1 = none →
      s.lockBlocker { (s.ctx c) with lockW := s.zoneLock (s.ctx c).nsid 1 false (sqeSlba (s.ctx c).sqe) } = none →
    Gives (.zoneClose c) s (fun u =>
      let e := s.zoneEnt (s.ctx c).nsid (s.zoneOf (s.ctx c).nsid (sqeSlba (s.ctx c).sqe))
      (u.ctx c).stage = 13 ∧ (u.ctx c).outc = some (okOut 0) ∧ (u.ctx c).zents = [e] ∧ (u.ctx c).zact = 1
        ∧ (s.zoneCmds e = [] → (s.ctx c).void.contains e = false → (s.ctx c).fseq < s.cmd.fseq →
            u.proj e = projAction 1 (s.ctx c).slice (s.zcap e) { state := (s.zent e).state, rp := (s.zent e).wp, opener := (s.zent e).opener })
        ∧ (∀ j, j ≠ e → u.proj j = s.proj j)
        ∧ (∀ d, d ≠ c → u.ctx d = s.ctx d) ∧ u = { s with cmd := { s.cmd with ctxs := u.cmd.ctxs }, zon := { s.zon with proj := u.zon.proj } }))
  ∧ (∀ (s : State) (c : Nat), c < 65536 → Admitted s c opZoneSend true → (s.ctx c).sqe.cdw13.toNat % 256 = 2 → bitAt (s.ctx c).sqe.cdw13.toNat 8 = false →
      sqeSlba (s.ctx c).sqe < (s.ns (s.ctx c).nsid).nsze → s.zoneOff (s.ctx c).nsid (sqeSlba (s.ctx c).sqe) = 0 →
      (s.rebuildProj (s.zoneEnt (s.ctx c).nsid (s.zoneOf (s.ctx c).nsid (sqeSlba (s.ctx c).sqe))) (s.ctx c).fseq).zoneActErr (s.ctx c).nsid (s.zoneEnt (s.ctx c).nsid (s.zoneOf (s.ctx c).nsid (sqeSlba (s.ctx c).sqe))) 2 = none →
      s.lockBlocker { (s.ctx c) with lockW := s.zoneLock (s.ctx c).nsid 2 false (sqeSlba (s.ctx c).sqe) } = none →
    Gives (.zoneFinish c) s (fun u =>
      let e := s.zoneEnt (s.ctx c).nsid (s.zoneOf (s.ctx c).nsid (sqeSlba (s.ctx c).sqe))
      (u.ctx c).stage = 13 ∧ (u.ctx c).outc = some (okOut 0) ∧ (u.ctx c).zents = [e] ∧ (u.ctx c).zact = 2
        ∧ (s.zoneCmds e = [] → (s.ctx c).void.contains e = false → (s.ctx c).fseq < s.cmd.fseq →
            u.proj e = projAction 2 (s.ctx c).slice (s.zcap e) { state := (s.zent e).state, rp := (s.zent e).wp, opener := (s.zent e).opener })
        ∧ (∀ j, j ≠ e → u.proj j = s.proj j)
        ∧ (∀ d, d ≠ c → u.ctx d = s.ctx d) ∧ u = { s with cmd := { s.cmd with ctxs := u.cmd.ctxs }, zon := { s.zon with proj := u.zon.proj } }))
  ∧ (∀ (s : State) (c : Nat), c < 65536 → Admitted s c opZoneSend true → (s.ctx c).sqe.cdw13.toNat % 256 = 4 → bitAt (s.ctx c).sqe.cdw13.toNat 8 = false →
      sqeSlba (s.ctx c).sqe < (s.ns (s.ctx c).nsid).nsze → s.zoneOff (s.ctx c).nsid (sqeSlba (s.ctx c).sqe) = 0 →
      (s.rebuildProj (s.zoneEnt (s.ctx c).nsid (s.zoneOf (s.ctx c).nsid (sqeSlba (s.ctx c).sqe))) (s.ctx c).fseq).zoneActErr (s.ctx c).nsid (s.zoneEnt (s.ctx c).nsid (s.zoneOf (s.ctx c).nsid (sqeSlba (s.ctx c).sqe))) 4 = none →
      s.lockBlocker { (s.ctx c) with lockW := s.zoneLock (s.ctx c).nsid 4 false (sqeSlba (s.ctx c).sqe) } = none →
    Gives (.zoneReset c) s (fun u =>
      let e := s.zoneEnt (s.ctx c).nsid (s.zoneOf (s.ctx c).nsid (sqeSlba (s.ctx c).sqe))
      (u.ctx c).stage = 13 ∧ (u.ctx c).outc = some (okOut 0) ∧ (u.ctx c).zents = [e] ∧ (u.ctx c).zact = 4
        ∧ (s.zoneCmds e = [] → (s.ctx c).void.contains e = false → (s.ctx c).fseq < s.cmd.fseq →
            u.proj e = projAction 4 (s.ctx c).slice (s.zcap e) { state := (s.zent e).state, rp := (s.zent e).wp, opener := (s.zent e).opener })
        ∧ (∀ j, j ≠ e → u.proj j = s.proj j)
        ∧ (∀ d, d ≠ c → u.ctx d = s.ctx d) ∧ u = { s with cmd := { s.cmd with ctxs := u.cmd.ctxs }, zon := { s.zon with proj := u.zon.proj } }))
  ∧ (∀ (s : State) (c : Nat), c < 65536 → Admitted s c opZoneSend true → (s.ctx c).sqe.cdw13.toNat % 256 = 5 → bitAt (s.ctx c).sqe.cdw13.toNat 8 = false →
      sqeSlba (s.ctx c).sqe < (s.ns (s.ctx c).nsid).nsze → s.zoneOff (s.ctx c).nsid (sqeSlba (s.ctx c).sqe) = 0 →
      (s.rebuildProj (s.zoneEnt (s.ctx c).nsid (s.zoneOf (s.ctx c).nsid (sqeSlba (s.ctx c).sqe))) (s.ctx c).fseq).zoneActErr (s.ctx c).nsid (s.zoneEnt (s.ctx c).nsid (s.zoneOf (s.ctx c).nsid (sqeSlba (s.ctx c).sqe))) 5 = none →
      s.lockBlocker { (s.ctx c) with lockW := s.zoneLock (s.ctx c).nsid 5 false (sqeSlba (s.ctx c).sqe) } = none →
    Gives (.zoneOffline c) s (fun u =>
      let e := s.zoneEnt (s.ctx c).nsid (s.zoneOf (s.ctx c).nsid (sqeSlba (s.ctx c).sqe))
      (u.ctx c).stage = 13 ∧ (u.ctx c).outc = some (okOut 0) ∧ (u.ctx c).zents = [e] ∧ (u.ctx c).zact = 5
        ∧ (s.zoneCmds e = [] → (s.ctx c).void.contains e = false → (s.ctx c).fseq < s.cmd.fseq →
            u.proj e = projAction 5 (s.ctx c).slice (s.zcap e) { state := (s.zent e).state, rp := (s.zent e).wp, opener := (s.zent e).opener })
        ∧ (∀ j, j ≠ e → u.proj j = s.proj j)
        ∧ (∀ d, d ≠ c → u.ctx d = s.ctx d) ∧ u = { s with cmd := { s.cmd with ctxs := u.cmd.ctxs }, zon := { s.zon with proj := u.zon.proj } }))
  ∧ (∀ (s : State) (c : Nat), c < 65536 → Admitted s c opZoneSend true → (s.ctx c).sqe.cdw13.toNat % 256 = 3 → bitAt (s.ctx c).sqe.cdw13.toNat 8 = false →
      sqeSlba (s.ctx c).sqe < (s.ns (s.ctx c).nsid).nsze → s.zoneOff (s.ctx c).nsid (sqeSlba (s.ctx c).sqe) = 0 →
      (s.rebuildProj (s.zoneEnt (s.ctx c).nsid (s.zoneOf (s.ctx c).nsid (sqeSlba (s.ctx c).sqe))) (s.ctx c).fseq).zoneActErr (s.ctx c).nsid (s.zoneEnt (s.ctx c).nsid (s.zoneOf (s.ctx c).nsid (sqeSlba (s.ctx c).sqe))) 3 = none →
      (s.rebuildProj (s.zoneEnt (s.ctx c).nsid (s.zoneOf (s.ctx c).nsid (sqeSlba (s.ctx c).sqe))) (s.ctx c).fseq).openCheck (s.ctx c).nsid (s.zoneEnt (s.ctx c).nsid (s.zoneOf (s.ctx c).nsid (sqeSlba (s.ctx c).sqe))) false = .ok none →
      s.lockBlocker { (s.ctx c) with lockW := s.zoneLock (s.ctx c).nsid 3 false (sqeSlba (s.ctx c).sqe) } = none →
    Gives (.zoneOpen c) s (fun u =>
      let e := s.zoneEnt (s.ctx c).nsid (s.zoneOf (s.ctx c).nsid (sqeSlba (s.ctx c).sqe))
      (u.ctx c).stage = 13 ∧ (u.ctx c).outc = some (okOut 0) ∧ (u.ctx c).zents = [e] ∧ (u.ctx c).zact = 3
        ∧ (s.zoneCmds e = [] → (s.ctx c).void.contains e = false → (s.ctx c).fseq < s.cmd.fseq →
            u.proj e = projAction 3 (s.ctx c).slice (s.zcap e) { state := (s.zent e).state, rp := (s.zent e).wp, opener := (s.zent e).opener })
        ∧ (∀ j, j ≠ e → u.proj j = s.proj j)
        ∧ (∀ d, d ≠ c → u.ctx d = s.ctx d) ∧ u = { s with cmd := { s.cmd with ctxs := u.cmd.ctxs }, zon := { s.zon with proj := u.zon.proj } }))
  ∧ (∀ (s : State) (c : Nat) (f : Nat × Instr), c < 65536 → f ∈ [(1, .zoneClose c), (2, .zoneFinish c), (4, .zoneReset c), (5, .zoneOffline c)] →
      Admitted s c opZoneSend true → (s.ctx c).sqe.cdw13.toNat % 256 = f.1 → bitAt (s.ctx c).sqe.cdw13.toNat 8 = true →
      s.lockBlocker { (s.ctx c) with lockW := s.zoneLock (s.ctx c).nsid f.1 true (sqeSlba (s.ctx c).sqe) } = none →
    Gives f.2 s (fun u =>
      (u.ctx c).stage = 13 ∧ (u.ctx c).outc = some (okOut 0) ∧ (u.ctx c).zact = f.1
        ∧ (u.ctx c).zents = (s.nsEnts (s.ctx c).nsid).filter (fun k => selAccepts f.1
            (((s.nsEnts (s.ctx c).nsid).foldl (fun t j => t.rebuildProj j (s.ctx c).fseq) s).proj k).state)
        ∧ (∀ d, d ≠ c → u.ctx d = s.ctx d) ∧ u = { s with cmd := { s.cmd with ctxs := u.cmd.ctxs }, zon := { s.zon with proj := u.zon.proj } }))
  ∧ (∀ (s : State) (c : Nat), c < 65536 → Admitted s c opZoneSend true → (s.ctx c).sqe.cdw13.toNat % 256 = 5 → bitAt (s.ctx c).sqe.cdw13.toNat 8 = false →
      sqeSlba (s.ctx c).sqe < (s.ns (s.ctx c).nsid).nsze → s.zoneOff (s.ctx c).nsid (sqeSlba (s.ctx c).sqe) = 0 →
      ((s.rebuildProj (s.zoneEnt (s.ctx c).nsid (s.zoneOf (s.ctx c).nsid (sqeSlba (s.ctx c).sqe))) (s.ctx c).fseq).proj (s.zoneEnt (s.ctx c).nsid (s.zoneOf (s.ctx c).nsid (sqeSlba (s.ctx c).sqe)))).state = .full →
    Gives (.zoneOffline c) s (AtCommit c (errOut .zoneTransition)))
  ∧ (∀ (s : State) (c : Nat), c < 65536 → Admitted s c opZoneRecv false → zmrErr3 (s.ctx c).sqe = none → sqeSlba (s.ctx c).sqe < (s.ns (s.ctx c).nsid).nsze →
    Gives (.zoneManagementReceive c) s (fun u =>
      u.ctx c = { (s.ctx c) with stage := 13, outc := some (okOut 0), out := s.reportPage (s.ctx c).nsid (s.ctx c).sqe } ∧ (∀ d, d ≠ c → u.ctx d = s.ctx d) ∧ u = { s with cmd := { s.cmd with ctxs := u.cmd.ctxs } }))
  ∧ (∀ (s : State) (c : Nat), c < 65536 → Admitted s c opIoMgmtRecv false → (s.ctx c).sqe.cdw10.toNat % 256 = 1 → s.fdpOn (s.ctx c).nsid = true →
    Gives (.ioManagementReceive c) s (fun u =>
      u.ctx c = { (s.ctx c) with stage := 13, outc := some (okOut 0), out := s.ruhPage (s.ctx c).nsid (s.ctx c).sqe } ∧ (∀ d, d ≠ c → u.ctx d = s.ctx d) ∧ u = { s with cmd := { s.cmd with ctxs := u.cmd.ctxs } }))
  ∧ (∀ (s : State) (c : Nat) (l : List Nat), c < 65536 → Admitted s c opIoMgmtSend true → s.ioSendErr3 (s.ctx c) (some l) = none →
    Gives (.ioManagementSend c (some l)) s (fun u =>
      u.ctx c = { (s.ctx c) with stage := 13, outc := some (okOut 0), phids := l } ∧ (∀ d, d ≠ c → u.ctx d = s.ctx d) ∧ u = { s with cmd := { s.cmd with ctxs := u.cmd.ctxs } }))

/-- Dispatching an erase puts it on its die, and a read of an address never written delivers zeros; a passed erase leaves the block fresh with its wear added; a read past its deadline starts an eclipse read within the credit of its bay, and beyond the credit is counted, while the event of a squashed request changes nothing; a die that is not ready after four times its longest operation is restored with its operation or failed; channels are retuned, retrained and after three failures isolated; MED_CL_SCHED stores values in range only; the temperature of an idle die is taken. -/
def Obligations.MediaRows : Prop :=
  (∀ (s : State) (d k : Nat), dispatchOk (.erase d k) = true → s.flt.safe = false → s.thm.coldHold = false → (s.blk d k).needErase = true →
      (s.blk d k).role ≠ .retired → (s.die d).state.present = true → (∀ o ∈ (s.die d).ops, o.block ≠ k) →
    Gives (.mediaDispatch (.erase d k)) s (fun u => { k := .erase k, cls := 6, block := k } ∈ (u.die d).ops
      ∧ (∀ e, e ≠ d → u.die e = s.die e) ∧ u.med = { s.med with dies := u.med.dies, clus := u.med.clus } ∧ u = { s with med := u.med, isl := u.isl, sli := u.sli }))
  ∧ (∀ (s : State) (d k : Nat), dieOk d = true → (s.flt.safe = true ∨ s.thm.coldHold = true ∨ (s.blk d k).needErase = false ∨ (s.die d).state.present = false) →
    Gives (.mediaDispatch (.erase d k)) s (fun u => u = s))
  ∧ (∀ (s : State) (c j : Nat) (x : Ctx) (v : CUnit), c < 65536 → s.flt.safe = false → s.ctx? c = some x →
      x.mayIssue j = true → x.units[j]? = some v → v.loc = none →
    Gives (.mediaDispatch (.read c j)) s (fun u => (∃ w, (u.ctx c).units[j]? = some w ∧ w.done = true ∧ w.data = Block.zero)
      ∧ (∀ i, i ≠ j → (u.ctx c).units[i]? = x.units[i]?)
      ∧ (∀ e, e ≠ c → u.ctx e = s.ctx e) ∧ u = { s with cmd := { s.cmd with ctxs := u.cmd.ctxs } }))
  ∧ (∀ (s : State) (d k : Nat) (o : DieOp), dieOk d = true → s.flt.safe = false → (s.die d).cur = some o → o.k = .erase k → (s.blk d k).role ≠ .landing →
      (s.chan (dieChannel d)).cstate ≠ 3 →
    Gives (.dieOperationComplete d .pass) s (fun u => (u.blk d k).needErase = false ∧ (u.blk d k).reads = 0 ∧ (u.blk d k).programmedAt = 0
      ∧ (u.blk d k).wear = (s.blk d k).wear + s.eraseWear d (s.blk d k).mode ∧ (∀ e j, blkKey e j ≠ blkKey d k → u.blk e j = s.blk e j)
      ∧ (∀ e, e ≠ d → u.die e = s.die e) ∧ u.med.flash = s.med.flash ∧ u.ctrs = s.ctrs ∧ u.pwr = s.pwr))
  ∧ (∀ (s : State) (d : Nat) (r : DieResult), dieOk d = true → (s.die d).cur = none → Gives (.dieOperationComplete d r) s (fun u => u = s))
  ∧ (∀ (s : State) (c j k : Nat) (o : DieOp) (x : Ctx) (v : CUnit) (g : Nat), ctxOk c = true → s.flt.safe = false → s.ctx? c = some x → s.liveUnit c j g = some v →
      v.loc = some k → s.lateRead (.cmd c j g) k = some o → s.eclOf (.cmd c j g) k = none → s.eclAllowed (ukRow k) (s.unitDie k) = true →
      s.eclCredit (dieBay (s.unitDie k)) (s.stmpl (rkTmpl (ukRow k))).data = false →
    Gives (.readDeadlineExpire c j g) s (fun u => u = s.clCnt (dieBay (s.unitDie k)) 7 1))
  ∧ (∀ (s t : State) (c j k h : Nat) (o : DieOp) (x : Ctx) (v : CUnit) (g : Nat), ctxOk c = true → s.flt.safe = false → s.ctx? c = some x → s.liveUnit c j g = some v →
      v.loc = some k → s.lateRead (.cmd c j g) k = some o → s.eclOf (.cmd c j g) k = none → s.eclAllowed (ukRow k) (s.unitDie k) = true →
      s.eclCredit (dieBay (s.unitDie k)) (s.stmpl (rkTmpl (ukRow k))).data = true → s.landingFrame c (s.unitDie k) x.slice = (some h, t) → o.unit = k →
    Gives (.readDeadlineExpire c j g) s (fun u =>
      let l := t.eclSources (ukRow k) (s.unitDie k) (o.source (.cmd c j g))
      u.med.ecls = t.med.ecls ++ [{ op := { o with step := 0, pos := 0, buf := some h }, rdr := .cmd c j g, why := 5, waiting := l, fall := 9 }]
        ∧ (u.clu (dieBay (s.unitDie k))).eclUsed = (t.clu (dieBay (s.unitDie k))).eclUsed + l.length * srcNs
        ∧ (∀ e ∈ l, ∃ q ∈ (u.die e).ops, q.k = .src (.cmd c j g))))
  ∧ (∀ (s : State) (c j : Nat) (x : Ctx) (v : CUnit) (k g : Nat), ctxOk c = true → s.ctx? c = some x → s.liveUnit c j g = some v → v.loc = some k →
      s.lateRead (.cmd c j g) k = none → Gives (.readDeadlineExpire c j g) s (fun u => u = s))
  ∧ (∀ (s : State) (d : Nat) (o : DieOp), dieOk d = true → (s.die d).cur = some o → (s.die d).state.present = true → s.flt.safe = false →
      (s.die d).startUs + 4 * s.longestUs d ≤ s.nowUs →
    Gives (.dieReadyTimeout d true) s (fun u => o ∈ (u.die d).ops ∧ (∀ e, e ≠ d → u.die e = s.die e)
      ∧ u.med = { s.med with dies := u.med.dies, clus := u.med.clus } ∧ u = { s with med := u.med, isl := u.isl, sli := u.sli })
    ∧ ((s.die d).state ≠ .failed → Gives (.dieReadyTimeout d false) s (fun u => (u.die d).state = .failed ∧ (u.die d).wasFailed = true ∧ u.ctrs = s.ctrs ∧ u.thm = s.thm)))
  ∧ (∀ (s : State) (d : Nat) (b : Bool), dieOk d = true → ((s.die d).cur = none ∨ s.nowUs < (s.die d).startUs + 4 * s.longestUs d) →
    Gives (.dieReadyTimeout d b) s (fun u => u = s))
  ∧ (∀ (s : State) (ch m : Nat), chanOk ch = true → (s.chan ch).cstate = 2 → (s.chan ch).retuneDue s.nowMs = true → m < 128 →
    Gives (.channelRetune ch m) s (fun u => (u.chan ch).margin = m ∧ (u.chan ch).retunedAt = some s.nowMs ∧ (∀ e, e ≠ ch → u.chan e = s.chan e)
      ∧ (if m < 15 then (u.chan ch).cstate = 3 ∧ (u.chan ch).retrains = satAdd 16 (s.chan ch).retrains 1
            ∧ u.flt.raised = s.flt.raised ++ [{ src := 216 + ch, level := 1, detail := ch * 32 }]
          else (u.chan ch).cstate = 2 ∧ u.flt = s.flt ∧ u.mlf = s.mlf)
      ∧ u = { s with med := { s.med with chans := u.med.chans }, flt := u.flt, mlf := u.mlf }))
  ∧ (∀ (s : State) (ch : Nat) (ok : Bool), chanOk ch = true → (s.chan ch).retrainAct.busy = false → (s.chan ch).cstate ≠ 0 → (s.chan ch).cstate ≠ 4 → (s.chan ch).cstate ≠ 5 →
    Gives (.channelRetrain ch 1 ok) s (fun u =>
      u.chan ch = { (s.chan ch) with cstate := 3, retrains := satAdd 16 (s.chan ch).retrains 1, crcRun := 0, retrainAct := wsRun }
      ∧ (∀ e, e ≠ ch → u.chan e = s.chan e) ∧ u = { s with med := { s.med with chans := u.med.chans }, mlf := u.mlf }))
  ∧ (∀ (s : State) (ch : Nat), chanOk ch = true → (s.chan ch).cstate = 3 →
    Gives (.channelRetrain ch 0 true) s (fun u => (u.chan ch).cstate = 2 ∧ (u.chan ch).failedRetrains = 0 ∧ (∀ e, e ≠ ch → u.chan e = s.chan e) ∧ u.flt = s.flt ∧ u.ctrs = s.ctrs)
    ∧ Gives (.channelRetrain ch 0 false) s (fun u => (u.chan ch).cstate = (if 3 ≤ (s.chan ch).failedRetrains + 1 then 4 else 3)
        ∧ (u.chan ch).failedRetrains = (if 3 ≤ (s.chan ch).failedRetrains + 1 then 0 else (s.chan ch).failedRetrains + 1) ∧ u.ctrs = s.ctrs))
  ∧ (∀ (s : State) (k e r : Nat) (b : Bool), bayOk k = true → e < 64 → r < 64 →
    Gives (.clusterSchedWrite k e r b) s (fun u =>
      u.clu k = (if e ≤ 50 ∧ 1 ≤ r ∧ r ≤ 50 then { (s.clu k) with eclPct := e, rebuildPct := r, suspEn := b, schedAct := wsNow true }
                 else { (s.clu k) with schedAct := wsNow false })
      ∧ (∀ j, j ≠ k → u.clu j = s.clu j) ∧ u = { s with med := { s.med with clus := u.med.clus } }))
  ∧ (∀ (s : State) (d : Nat) (t : Int), dieOk d = true → (s.die d).state.present = true → (s.die d).cur = none → s.dieServes d = true → s.flt.safe = false → (s.die d).tempDue s.nowMs = true →
    Gives (.dieTemperatureRead d t) s (fun u => u.die d = { (s.die d) with tempC := t, tempAt := some s.nowMs } ∧ (∀ e, e ≠ d → u.die e = s.die e)
      ∧ u = { s with med := { s.med with dies := u.med.dies } }))
  ∧ (∀ (s : State) (c j g : Nat), ctxOk c = true → s.liveUnit c j g = none → Gives (.readDeadlineExpire c j g) s (fun u => u = s))

/-- The hourly save keeps trackers and counters and closes the hour, once an hour; the spread check makes wear levelling active past its limit and inactive at its stop; a switched relocation moves every map entry it still holds, with a new generation and the mark of a lost unit, or the rows of its zone; a checkpoint takes the oldest segment; the configuration registers store values in range only; a group past its refresh interval is counted, and a row of it that cannot move yet waits in the refresh queue; a reclaim unit past its time logs its event where that is enabled; a zone without a write for 24 hours is recommended for finish and 48 hours later finished. -/
def Obligations.MediaLifeRows : Prop :=
  (∀ s : State, s.flt.safe = false → s.mlf.savedMs + 3600000 ≤ s.nowMs → Gives .hourlyRecordSave s (fun u =>
      u.med.savedTrackers = s.med.trackers ∧ u.med.erasesSince = []
      ∧ u.mlf = { s.mlf with savedErrors := s.mlf.errors, savedHist := s.mlf.tempHist, savedOnMin := s.onMinutes, savedMs := s.nowMs }
      ∧ (∀ d, (u.die d).stat.hourCw = 0 ∧ (u.die d).stat.hourBits = 0) ∧ u.med.flash = s.med.flash ∧ u.med.blks = s.med.blks
      ∧ u = { s with med := u.med, mlf := u.mlf }))
  ∧ (∀ s : State, (s.flt.safe = true ∨ s.nowMs < s.mlf.savedMs + 3600000) → Gives .hourlyRecordSave s (fun u => u = s))
  ∧ (∀ (s : State) (q : Nat) (a : Nat × Nat) (l : List (Nat × Nat)), setOk q = true → s.setBlocks q = a :: l → (s.setLife q).wlActive = false →
    Gives (.wearSpreadCheck q) s (fun u =>
      if s.mlf.wlLimit * 12 * a.2 < 100 * (maxNat ((a :: l).map (·.1)) - minNat ((a :: l).map (·.1))) then (u.setLife q).wlActive = true else u = s))
  ∧ (∀ (s : State) (q : Nat) (a : Nat × Nat) (l : List (Nat × Nat)), setOk q = true → s.setBlocks q = a :: l → (s.setLife q).wlActive = true →
      100 * (maxNat ((a :: l).map (·.1)) - minNat ((a :: l).map (·.1))) ≤ s.mlf.wlStop * 12 * a.2 →
    Gives (.wearSpreadCheck q) s (fun u => u.setLife q = { (s.setLife q) with wlActive := false } ∧ (∀ p, p ≠ q → u.setLife p = s.setLife p)
      ∧ u = { s with med := { s.med with sets := u.med.sets } }))
  ∧ (∀ (s : State) (id : Nat), tget s.med.relocs id = none → Gives (.relocationSwitch id) s (fun u => u = s))
  ∧ (∀ (s : State) (id : Nat) (r : Reloc), tget s.med.relocs id = some r → s.maySwitch id r = false → (r.paused = true ∨ s.flt.safe = true ∨ s.thm.coldHold = true) →
    Gives (.relocationSwitch id) s (fun u => u = s))
  ∧ (∀ (s : State) (id : Nat) (r : Reloc), tget s.med.relocs id = some r → s.maySwitch id r = true → r.zent = none → (s.relocKeys r).Nodup →
      (∀ d ∈ (s.stmpl r.srcTmpl).dies, ∀ i < r.rows, (s.blk d (r.srcBlock + i)).step3 = false) →
    Gives (.relocationSwitch id) s (fun u =>
      (∀ k ∈ s.relocKeys r, ∀ o, (s.mapEnt k).loc = some o →
        u.mapEnt k = { (s.mapEnt k) with loc := some (r.move o), unc := (s.mapEnt k).unc || r.lostUnits.contains o, gen := ((s.mapEnt k).gen + 1) % 65536 })
      ∧ (∀ k, k ∉ s.relocKeys r → u.mapEnt k = s.mapEnt k) ∧ tget u.med.relocs id = none
      ∧ u = { s with cmd := u.cmd, zon := u.zon, med := u.med, mlf := u.mlf, flt := u.flt }))
  ∧ (∀ (s : State) (id e : Nat) (r : Reloc), tget s.med.relocs id = some r → s.maySwitch id r = true → r.zent = some e →
      (∀ d ∈ (s.stmpl r.srcTmpl).dies, ∀ i < r.rows, (s.blk d (r.srcBlock + i)).step3 = false) →
    Gives (.relocationSwitch id) s (fun u =>
      (u.zent e).tmpl = r.tgtTmpl ∧ (u.zent e).block = r.tgtBlock ∧ (u.zent e).state = (s.zent e).state ∧ (u.zent e).wp = (s.zent e).wp
      ∧ tget u.med.relocs id = none ∧ u.zon.map = s.zon.map
      ∧ u = { s with cmd := u.cmd, zon := u.zon, med := u.med, mlf := u.mlf, flt := u.flt }))
  ∧ (∀ (s : State) (a : Nat) (l : List Nat), s.zon.journalSegs = a :: l → s.zon.ckptRun = true → s.flt.safe = false →
    Gives (.journalCheckpoint a) s (fun u => u.zon.journalSegs = l ∧ u.zon.ckptSeq = s.zon.ckptSeq + 1 ∧ u.zon.journalBytes ≤ s.zon.journalBytes
      ∧ (l = [] → u.zon.journalBytes = 0) ∧ u.zon.ckptRun = decide (2 ^ 30 ≤ u.zon.journalBytes)
      ∧ u = { s with zon := { s.zon with journalSegs := u.zon.journalSegs, ckptSeq := u.zon.ckptSeq, journalBytes := u.zon.journalBytes, ckptRun := u.zon.ckptRun }
                     free := u.free }))
  ∧ (∀ (s : State) (a : Nat), (s.zon.journalSegs.head? ≠ some a ∨ s.zon.ckptRun = false ∨ s.flt.safe = true) → Gives (.journalCheckpoint a) s (fun u => u = s))
  ∧ (∀ (s : State) (a b c : Nat), a < 64 → b < 64 → c < 64 →
    Gives (.wearLevelConfig a b c) s (fun u => u = { s with mlf :=
      if 2 ≤ a ∧ a ≤ 50 ∧ 1 ≤ b ∧ b + 1 ≤ a ∧ 1 ≤ c ∧ c ≤ 50 then { s.mlf with wlLimit := a, wlStop := b, wlReloc := c, wlAct := wsNow true }
      else { s.mlf with wlAct := wsNow false } }))
  ∧ (∀ (s : State) (a : Nat), a < 128 →
    Gives (.spareThresholdConfig a) s (fun u => u = { s with mlf :=
      if 1 ≤ a ∧ a ≤ 50 then { s.mlf with spareThresh := a, spareAct := wsNow true } else { s.mlf with spareAct := wsShown a } }))
  ∧ (∀ (s : State) (d g h : Nat) (t : StripeTmpl), dieOk d = true → s.tmplFor d = some t →
    Gives (.retentionAgeCheck d g h) s (fun u =>
      if (List.range 16).any (fun i => (s.blk d (g * 16 + i)).programmedAt != 0 && decide (s.refreshH (s.blk d (g * 16 + i)).mode < h)) then
        (u.die d).stat.refresh = satAdd 32 (s.die d).stat.refresh 1 ∧ u.zon = s.zon ∧ u.pat = s.pat ∧ u.ctrs = s.ctrs
      else u = s))
  ∧ (∀ (s : State) (d g h : Nat) (t : StripeTmpl), dieOk d = true → s.tmplFor d = some t → (s.blk d (g * 16)).programmedAt ≠ 0 →
      s.refreshH (s.blk d (g * 16)).mode < h → tget s.med.use (rowKey t.id (g * 16)) ≠ none → (tval s.med.use (rowKey t.id (g * 16)) : RowUse).target = false →
      s.relocating t.id (g * 16) = false → s.relocFor .refresh t.id (g * 16) = none → s.med.refreshQ = [] →
      (∀ i, 0 < i → i < 16 → tget s.med.use (rowKey t.id (g * 16 + i)) = none) →
    Gives (.retentionAgeCheck d g h) s (fun u => u.med.refreshQ = [{ tmpl := t.id, block := g * 16, cause := .refresh }]
      ∧ u = { s with med := { s.med with refreshQ := u.med.refreshQ, dies := u.med.dies } }))
  ∧ (∀ (s : State) (q h : Nat), setOk q = true → (tval s.zon.fdp q : Fdp).enabled = true →
      s.zon.nss.any (fun e => (s.clsRec e.2.cls).set == q && !e.2.zoned && e.2.handles.contains h && (List.range (max 1 s.reclaimGroups)).any (fun g => (s.convOpenRow e.1 g h).isSome)) = true →
    Gives (.ruTimeLimitExceeded q h) s (fun u =>
      (if (tval s.zon.fdp q : Fdp).evEnable.contains (h, 1) = true then
        (tval u.zon.fdp q : Fdp).events = ((tval s.zon.fdp q : Fdp).events ++ [(1, h, s.nowMs)]).drop ((tval s.zon.fdp q : Fdp).events.length + 1 - 64)
      else u = s)
      ∧ u = { s with zon := { s.zon with fdp := u.zon.fdp } }))
  ∧ (∀ (s : State) (q h : Nat), setOk q = true → (tval s.zon.fdp q : Fdp).enabled = false → Gives (.ruTimeLimitExceeded q h) s (fun u => u = s))
  ∧ (∀ (s : State) (n z e : Nat), nsOk n = true → s.zoneArg n z = some e → (s.zent e).state.active = true → (s.zent e).fzr = false →
      (s.zent e).lastWrite + 86400000 ≤ s.nowMs →
    Gives (.zoneFinishRecommend n z) s (fun u => u.zent e = { (s.zent e) with fzr := true, fzrAt := s.nowMs } ∧ (∀ f, f ≠ e → u.zent f = s.zent f)
      ∧ u.zon.map = s.zon.map ∧ u = { s with cmd := u.cmd, zon := u.zon }))
  ∧ (∀ (s : State) (n z e : Nat), nsOk n = true → s.zoneArg n z = some e →
      ((s.zent e).state.active = false ∨ (s.zent e).fzr = true ∨ s.nowMs < (s.zent e).lastWrite + 86400000) →
    Gives (.zoneFinishRecommend n z) s (fun u => u = s))
  ∧ (∀ (s : State) (n z e : Nat), nsOk n = true → s.zoneArg n z = some e → (s.zent e).state.active = true → (s.zent e).fzr = true →
      max (s.zent e).fzrAt (s.zent e).lastWrite + 172800000 ≤ s.nowMs →
    Gives (.zoneControllerFinish n z) s (fun u => (u.zent e).state = .full ∧ (u.zent e).zfc = true ∧ (u.zent e).wp = s.zcap e ∧ (u.zent e).fzr = false
      ∧ (∀ f, f ≠ e → u.zent f = s.zent f) ∧ u.zon.map = s.zon.map))
  ∧ (∀ (s : State) (n z e : Nat), nsOk n = true → s.zoneArg n z = some e →
      ((s.zent e).state.active = false ∨ (s.zent e).fzr = false ∨ s.nowMs < max (s.zent e).fzrAt (s.zent e).lastWrite + 172800000) →
    Gives (.zoneControllerFinish n z) s (fun u => u = s))
  ∧ (∀ (s : State) (n a o : Nat), nsOk n = true → a < 16384 → o < 16384 →
    Gives (.zoneLimitConfig n a o) s (fun u =>
      if (∃ x, s.ns? n = some x ∧ x.zoned = true) ∧ 1 ≤ a ∧ a ≤ 8192 ∧ 1 ≤ o ∧ o ≤ a then
        tget u.zon.nsAct n = some (wsNow true) ∧ u.ns n = { (s.ns n) with maxActive := a, maxOpen := o } ∧ (∀ m, m ≠ n → u.ns m = s.ns m)
          ∧ u = { s with cmd := u.cmd, zon := { s.zon with nss := u.zon.nss, nsAct := u.zon.nsAct, changedNs := u.zon.changedNs } }
      else u = { s with zon := { s.zon with nsAct := tset s.zon.nsAct n (wsShown (a + o * 16384)) } }))

/-- The steps of bay hot-plug: an insertion starts step 1 of Table 6-8 in a bay in use and sets the INSERTED event in any; after 100 ms of presence the bay is powered; power good releases it for its scan; 300 ms without power good faults it; the attention button only sets its event; an accepted removal, its drained step and the fall of power good take the bay to held; a removal before power goes back to empty, a surprise removal takes the dies away with a Degraded fault, and in the safe state waits; CMD 1 is refused outside its three states and, without FORCE, where it would hurt a row or in a SINGLE_BAY structure; CMD 4 powers a faulted bay again; a write that meets a running action is only noted; in the safe state no other step runs. -/
def Obligations.BayRows : Prop :=
  (∀ (s : State) (b : Nat), bayOk b = true → (s.bay b).prsnt = false →
    Gives (.bayInsertion b) s (fun u => (u.bay b).prsnt = true ∧ (u.bay b).insertions = satAdd 16 (s.bay b).insertions 1 ∧ (u.bay b).stepAt = s.nowMs
      ∧ (u.bay b).bstate = (if s.bayUsed b then 1 else (s.bay b).bstate) ∧ bitAt (u.bay b).evt 0 = true
      ∧ u.flt.raised = s.flt.raised ++ [{ src := 344 + b, level := 0, detail := 1 }] ∧ (∀ e, e ≠ b → u.bay e = s.bay e) ∧ u = { s with med := { s.med with bays := u.med.bays }, flt := { s.flt with raised := u.flt.raised }, isl := u.isl, pwr := u.pwr }))
  ∧ (∀ (s : State) (b : Nat), bayOk b = true → (s.bay b).bstate = 1 → (s.bay b).prsnt = true → s.flt.safe = false → (s.bay b).stepAt + 100 ≤ s.nowMs →
    Gives (.bayPresenceDebounced b) s (fun u => u.bay b = { (s.bay b) with bstate := 2, step := 2, pwren := true, stepAt := s.nowMs } ∧ (∀ e, e ≠ b → u.bay e = s.bay e) ∧ u = { s with med := { s.med with bays := u.med.bays } }))
  ∧ (∀ (s : State) (b : Nat), bayOk b = true → (s.bay b).bstate = 2 → (s.bay b).pwren = true → s.flt.safe = false →
    Gives (.bayPwrgdRise b) s (fun u => u.bay b = { (s.bay b) with bstate := 3, step := 5, pwrgd := true, rstN := true, held := false }
      ∧ (∀ i, i < 4 → (u.chan (b * 4 + i)).cstate = if (s.chan (b * 4 + i)).cstate = 4 then 4 else 1) ∧ (u.isle (islMCL b)).removalHold = false
      ∧ (∀ e, e ≠ b → u.bay e = s.bay e) ∧ u = { s with med := { s.med with bays := u.med.bays, chans := u.med.chans }, isl := u.isl, pwr := u.pwr }))
  ∧ (∀ (s : State) (b : Nat), bayOk b = true → (s.bay b).bstate = 2 → (s.bay b).pwren = true → (s.bay b).pwrgd = false → s.flt.safe = false →
      (s.bay b).stepAt + 300 ≤ s.nowMs →
    Gives (.bayPowerTimeout b) s (fun u => (u.bay b).bstate = 9 ∧ (u.bay b).pwren = false ∧ bitAt (u.bay b).evt 3 = true
      ∧ u.flt.raised = s.flt.raised ++ [{ src := 344 + b, level := 0, detail := 8 }] ∧ (∀ e, e ≠ b → u.bay e = s.bay e) ∧ u = { s with med := { s.med with bays := u.med.bays }, flt := { s.flt with raised := u.flt.raised }, isl := u.isl, pwr := u.pwr }))
  ∧ (∀ (s : State) (b : Nat), bayOk b = true → (s.bay b).bstate = 7 → (s.bay b).pwren = false → s.flt.safe = false →
    Gives (.bayPwrgdFallSafe b) s (fun u => u.bay b = { (s.bay b) with bstate := 8, pwrgd := false, step := 0, cmdAct := (s.bay b).cmdAct.finish true }
      ∧ (∀ e, e ≠ b → u.bay e = s.bay e) ∧ u = { s with med := { s.med with bays := u.med.bays }, isl := u.isl, pwr := u.pwr })
    ∧ ((s.bay b).prsnt = true → Gives (.baySurpriseRemoval b true) s (fun u => (u.bay b).bstate = 8 ∧ (u.bay b).prsnt = false ∧ bitAt (u.bay b).evt 1 = true ∧ u.med.dies = s.med.dies)))
  ∧ (∀ (s : State) (b : Nat), bayOk b = true →
    Gives (.bayAttention b) s (fun u => bitAt (u.bay b).evt 2 = true ∧ (u.bay b).bstate = (s.bay b).bstate
      ∧ u.flt.raised = s.flt.raised ++ [{ src := 344 + b, level := 0, detail := 4 }] ∧ (∀ e, e ≠ b → u.bay e = s.bay e) ∧ u = { s with med := { s.med with bays := u.med.bays }, flt := { s.flt with raised := u.flt.raised }, isl := u.isl, pwr := u.pwr }))
  ∧ (∀ (s : State) (b : Nat), bayOk b = true → (s.bay b).prsnt = true → ((s.bay b).bstate = 1 ∨ ((s.bay b).bstate = 2 ∧ (s.bay b).pwren = false)) →
    Gives (.baySurpriseRemoval b true) s (fun u => u.bay b = { (s.bay b) with bstate := 0, step := 0, prsnt := false, pwren := false }
      ∧ (∀ e, e ≠ b → u.bay e = s.bay e) ∧ u.med.dies = s.med.dies))
  ∧ (∀ (s : State) (b : Nat) (gone : Bool), bayOk b = true → (s.bay b).prsnt = true → s.flt.safe = false →
      (((s.bay b).bstate = 2 ∧ (s.bay b).pwren = true ∧ gone = true) ∨ (s.bay b).bstate = 3 ∨ (s.bay b).bstate = 4 ∨ (s.bay b).bstate = 5 ∨ (s.bay b).bstate = 6
        ∨ ((s.bay b).bstate = 7 ∧ (s.bay b).pwren = true)) →
    Gives (.baySurpriseRemoval b gone) s (fun u => (u.bay b).bstate = (if gone then 8 else 9) ∧ (u.bay b).prsnt = !gone ∧ (u.bay b).held = true ∧ (u.bay b).pwren = false
      ∧ (u.bay b).rstN = false ∧ bitAt (u.bay b).evt (if gone then 1 else 3) = true ∧ { src := 344 + b, level := 2, detail := if gone then 2 else 8 } ∈ u.flt.raised
      ∧ (u.isle (islMCL b)).removalHold = true ∧ (∀ d, d ∈ bayDies b → (u.die d).state ≠ .online ∧ (u.die d).state ≠ .rebuilding) ∧ (∀ e, e ≠ b → u.bay e = { (s.bay e) with rebTotal := (u.bay e).rebTotal })))
  ∧ (∀ (s : State) (b : Nat) (gone : Bool), bayOk b = true → (s.bay b).prsnt = true → s.flt.safe = true →
      ((s.bay b).bstate = 3 ∨ (s.bay b).bstate = 4 ∨ (s.bay b).bstate = 5 ∨ (s.bay b).bstate = 6 ∨ ((s.bay b).bstate = 7 ∧ (s.bay b).pwren = true)) →
    Gives (.baySurpriseRemoval b gone) s (fun u => (u.bay b).bstate = (s.bay b).bstate ∧ (u.bay b).pwren = (s.bay b).pwren ∧ (u.bay b).prsnt = !gone ∧ (u.bay b).lostIn.isSome = true
      ∧ u.med.dies = s.med.dies ∧ u.flt = s.flt ∧ (∀ e, e ≠ b → u.bay e = s.bay e)))
  ∧ (∀ (s : State) (b : Nat) (f : Bool), bayOk b = true → (s.bay b).cmdAct.busy = false → ((s.bay b).bstate = 4 ∨ (s.bay b).bstate = 5 ∨ (s.bay b).bstate = 6) →
      (f = true ∨ (s.removalHurts b = false ∧ (match s.pat.eff.stripe with | some m => m.singleBay | none => false) = false)) →
    Gives (.bayRemove b f) s (fun u => u.bay b = { (s.bay b) with bstate := 7, step := 1, cmd := 1, force := f, cmdAct := wsRun, newDies := [], rebTotal := 0 }
      ∧ (∀ e, e ≠ b → u.bay e = s.bay e) ∧ u.pwr = s.pwr ∧ u.ctrs = s.ctrs ∧ u.flt = s.flt))
  ∧ (∀ (s : State) (b : Nat) (f : Bool), bayOk b = true → (s.bay b).cmdAct.busy = false →
      (((s.bay b).bstate ≠ 4 ∧ (s.bay b).bstate ≠ 5 ∧ (s.bay b).bstate ≠ 6)
        ∨ (f = false ∧ (s.removalHurts b = true ∨ (match s.pat.eff.stripe with | some m => m.singleBay | none => false) = true))) →
    Gives (.bayRemove b f) s (fun u => u.bay b = { (s.bay b) with cmd := 1, force := f, cmdAct := wsNow false } ∧ (∀ e, e ≠ b → u.bay e = s.bay e) ∧ u = { s with med := { s.med with bays := u.med.bays } }))
  ∧ (∀ (s : State) (b : Nat), bayOk b = true → (s.bay b).bstate = 7 → (s.bay b).pwren = true → s.bayDrained b = true → s.flt.safe = false →
    Gives (.bayRemovalDrained b) s (fun u => u.bay b = { (s.bay b) with step := 5, held := true, rstN := false, pwren := false, rebTotal := (u.bay b).rebTotal }
      ∧ (∀ i, i < 4 → (u.chan (b * 4 + i)).cstate = if (s.chan (b * 4 + i)).cstate = 4 then 4 else 5) ∧ (u.isle (islMCL b)).removalHold = true
      ∧ (∀ d, d ∈ bayDies b → (u.die d).state ≠ .online ∧ (u.die d).state ≠ .rebuilding) ∧ (∀ e, e ≠ b → u.bay e = { (s.bay e) with rebTotal := (u.bay e).rebTotal })))
  ∧ (∀ (s : State) (b : Nat), bayOk b = true → (s.bay b).cmdAct.busy = false →
    Gives (.bayRetryPower b) s (fun u => u.bay b = (if (s.bay b).bstate = 9 ∧ (s.bay b).prsnt = true then
        { (s.bay b) with bstate := 2, step := 2, pwren := (s.bay b).pwren || !s.flt.safe, stepAt := s.nowMs, cmd := 4, cmdAct := wsNow true }
        else { (s.bay b) with cmd := 4, cmdAct := wsNow false }) ∧ (∀ e, e ≠ b → u.bay e = s.bay e) ∧ u = { s with med := { s.med with bays := u.med.bays } }))
  ∧ (∀ (s : State) (b : Nat) (f : Bool), bayOk b = true → (s.bay b).cmdAct.busy = true →
    Gives (.bayRemove b f) s (fun u => u = s.setBay b { (s.bay b) with cmdAct := (s.bay b).cmdAct.meet })
    ∧ Gives (.bayRetryPower b) s (fun u => u = s.setBay b { (s.bay b) with cmdAct := (s.bay b).cmdAct.meet }))
  ∧ (∀ (s : State) (b : Nat), bayOk b = true → s.flt.safe = true →
    Gives (.bayPresenceDebounced b) s (fun u => u = s) ∧ Gives (.bayPwrgdRise b) s (fun u => u = s) ∧ Gives (.bayPowerTimeout b) s (fun u => u = s)
    ∧ Gives (.bayRemovalDrained b) s (fun u => u = s))

/-- A die whose geometry is not that of the panel faults its bay, whose power falls and whose dies are not used; dies the Z9 does not know wait for acceptance with NEW_DIES set; dies it knows are online again, or rebuilding, and a die it had declared failed stays failed; acceptance takes the new dies in, rejection does not; either is refused when no die waits. -/
def Obligations.BayDieRows : Prop :=
  (∀ (s : State) (b : Nat) (l : List ScanDie) (x : ScanDie) (q : ParamPage), bayOk b = true → (s.bay b).bstate = 3 → s.flt.safe = false → (panelType? s.pat.eff b).isSome = true →
      x ∈ l → dieBay x.die = b → dieExists (s.filled b q) x.die = true → x.geomOk = false →
    Gives (.bayScanComplete b l q) s (fun u => (u.bay b).bstate = 9 ∧ (u.bay b).pwren = false ∧ (u.bay b).newDies = [] ∧ bitAt (u.bay b).evt 5 = true
      ∧ (∀ d, d ∈ bayDies b → (u.die d).state ≠ .online ∧ (u.die d).state ≠ .rebuilding) ∧ u.pat = s.pat))
  ∧ (∀ (s : State) (b : Nat) (l : List ScanDie) (q : ParamPage) (t : TypeRec), bayOk b = true → (s.bay b).bstate = 3 → s.flt.safe = false → panelType? s.pat.eff b = some t →
      (t.open && s.firstOfType b && !discoveryOk (s.filled b q) b) = false → (l.filter (fun x => dieBay x.die == b && dieExists (s.filled b q) x.die)).all (fun x => x.geomOk) = true →
      (l.filter (fun x => dieBay x.die == b && dieExists (s.filled b q) x.die)).any (fun x => decide ((s.die x.die).uid ≠ some x.uid)) = true →
    Gives (.bayScanComplete b l q) s (fun u => (u.bay b).bstate = 4
      ∧ (u.bay b).newDies = (s.bay b).newDies ++ (l.filter (fun x => dieBay x.die == b && dieExists (s.filled b q) x.die)).filter (fun x => decide ((s.die x.die).uid ≠ some x.uid))
      ∧ bitAt (u.bay b).evt 4 = true ∧ (∀ i, i < 4 → (u.chan (b * 4 + i)).cstate = if (s.chan (b * 4 + i)).cstate = 4 then 4 else 2)
      ∧ (∀ d, (u.die d).uid = (s.die d).uid) ∧ u.pat = { s.pat with eff := s.filled b q }))
  ∧ (∀ (s : State) (b : Nat) (l : List ScanDie) (q : ParamPage) (t : TypeRec), bayOk b = true → (s.bay b).bstate = 3 → s.flt.safe = false → panelType? s.pat.eff b = some t →
      (t.open && s.firstOfType b && !discoveryOk (s.filled b q) b) = false → (s.bay b).newDies = [] →
      (∀ x, x ∈ l.filter (fun x => dieBay x.die == b && dieExists (s.filled b q) x.die) → x.geomOk = true ∧ (s.die x.die).uid = some x.uid) →
    Gives (.bayScanComplete b l q) s (fun u => ((u.bay b).bstate = 5 ∨ (u.bay b).bstate = 6) ∧ (u.bay b).newDies = []
      ∧ (∀ x, x ∈ l.filter (fun x => dieBay x.die == b && dieExists (s.filled b q) x.die) →
          (if (s.die x.die).wasFailed then (u.die x.die).state = .failed else (u.die x.die).state = .online ∨ (u.die x.die).state = .rebuilding))))
  ∧ (∀ (s : State) (b : Nat) (l : List ScanDie), bayOk b = true → (s.bay b).cmdAct.busy = false → (s.bay b).bstate = 4 → (s.bay b).newDies = l → l ≠ [] → (l.map (·.die)).Nodup →
    Gives (.bayAccept b) s (fun u => (∀ x, x ∈ l → (u.die x.die).uid = some x.uid ∧ (u.die x.die).accepted = true) ∧ (u.bay b).newDies = [] ∧ (u.bay b).cmd = 2
      ∧ (u.bay b).cmdAct = wsNow true ∧ ((u.bay b).bstate = 5 ∨ (u.bay b).bstate = 6))
    ∧ Gives (.bayReject b) s (fun u => (∀ d, (u.die d).uid = (s.die d).uid ∧ (u.die d).accepted = (s.die d).accepted) ∧ (u.bay b).newDies = [] ∧ (u.bay b).cmd = 3
        ∧ (u.bay b).cmdAct = wsNow true ∧ ((u.bay b).bstate = 5 ∨ (u.bay b).bstate = 6)))
  ∧ (∀ (s : State) (b : Nat), bayOk b = true → (s.bay b).cmdAct.busy = false → ((s.bay b).bstate ≠ 4 ∨ (s.bay b).newDies = []) →
    Gives (.bayAccept b) s (fun u => (u.bay b).cmd = 2 ∧ (u.bay b).cmdAct = wsNow false ∧ (u.bay b).newDies = (s.bay b).newDies
      ∧ (∀ d, (u.die d).uid = (s.die d).uid ∧ (u.die d).accepted = (s.die d).accepted) ∧ (∀ e, e ≠ b → u.bay e = s.bay e))
    ∧ Gives (.bayReject b) s (fun u => (u.bay b).cmd = 3 ∧ (u.bay b).cmdAct = wsNow false ∧ (u.bay b).newDies = (s.bay b).newDies
        ∧ (∀ d, (u.die d).uid = (s.die d).uid ∧ (u.die d).accepted = (s.die d).accepted) ∧ (∀ e, e ≠ b → u.bay e = s.bay e)))
  ∧ (∀ (s : State) (b : Nat), bayOk b = true → (s.bay b).cmdAct.busy = false → (s.bay b).bstate ≠ 4 → (s.bay b).bstate ≠ 5 → (s.bay b).rebTotal = 0 →
    Gives (.bayAccept b) s (fun u => u.bay b = { (s.bay b) with cmd := 2, cmdAct := wsNow false } ∧ (∀ e, e ≠ b → u.bay e = s.bay e) ∧ u = { s with med := { s.med with bays := u.med.bays } })
    ∧ Gives (.bayReject b) s (fun u => u.bay b = { (s.bay b) with cmd := 3, cmdAct := wsNow false } ∧ (∀ e, e ≠ b → u.bay e = s.bay e) ∧ u = { s with med := { s.med with bays := u.med.bays } }))

/-- A link of one of the six rates and two widths comes up from training on the modules that serve, or from a retrain on those that carried traffic, when the held packets go; a lost one goes to training, is counted, resets its PCIe functions and raises an Advisory fault, and a detached port stays detached; lanes lost narrow the port to x32 with a Degraded fault; a failed module leads to a retrain, and the last one to a lost link; a thin eye raises an Advisory fault. -/
def Obligations.LinkRows : Prop :=
  (∀ (s : State) (p g l : Nat), portOk p = true → s.hasPort p = true → s.linkFits g l = true → ((s.port p).lstate = .down ∨ (s.port p).lstate = .training ∨ (s.port p).lstate = .detached) →
    Gives (.linkUp p g l) s (fun u => u.port p = { (s.port p) with lstate := .up, gts := g, lanes := l, modsUp := modMask (s.servingMods p), phase := 0 }
      ∧ (∀ e, e ≠ p → u.port e = s.port e) ∧ u = { s with ports := u.ports, glb := { s.glb with step := if s.glb.step = 8 then 9 else s.glb.step } }))
  ∧ (∀ (s : State) (p g l : Nat), portOk p = true → s.hasPort p = true → s.linkFits g l = true → (s.port p).lstate = .retraining →
    Gives (.linkUp p g l) s (fun u => u.port p = { (s.port p) with lstate := .up, gts := g, lanes := l, modsUp := modMask ((s.servingMods p).filter (bitAt (s.port p).modsUp)), tlpHeld := false, heldDb := [], heldData := [], heldResults := [], heldIrqs := [] }
      ∧ (∀ e, e ≠ p → u.port e = s.port e) ∧ u.host = { s.host with data := s.host.data ++ (s.port p).heldData, results := s.host.results ++ (s.port p).heldResults, irqs := s.host.irqs ++ (s.port p).heldIrqs } ∧ ((s.port p).heldDb = [] → u.cmd = s.cmd) ∧ u = { s with ports := u.ports, host := u.host, cmd := u.cmd }))
  ∧ (∀ (s : State) (p g l : Nat), portOk p = true → (s.hasPort p = false ∨ s.linkFits g l = false ∨ (s.port p).lstate = .up ∨ (s.port p).lstate = .trickle ∨ (s.port p).lstate = .detaching) →
    Gives (.linkUp p g l) s (fun u => u = s))
  ∧ (∀ (s : State) (p : Nat), portOk p = true → (s.port p).lstate ≠ .down → (s.port p).lstate ≠ .training → (s.port p).phase ≠ 4 →
    Gives (.linkDown p) s (fun u => u.port p = { (s.port p).clearPcie with lstate := .training, gts := 0, lanes := 0, modsUp := 0, tlpHeld := false, heldDb := [], heldData := [], heldResults := [], heldIrqs := [], linkdowns := satAdd 16 (s.port p).linkdowns 1, phase := 0, flushSet := if (s.port p).phase = 0 then [] else (u.port p).flushSet, detachAct := if (s.port p).detachAct.busy then (s.port p).detachAct.finish false else (s.port p).detachAct }
      ∧ (∀ e, e ≠ p → u.port e = s.port e) ∧ { src := 452 + p, level := 1, detail := (s.port p).lstate.bits } ∈ u.flt.raised ∧ u.ctrs = s.ctrs ∧ u.sec = s.sec))
  ∧ (∀ (s : State) (p : Nat), portOk p = true → (s.port p).lstate ≠ .down → (s.port p).lstate ≠ .training → (s.port p).phase = 4 →
    Gives (.linkDown p) s (fun u => u.port p = { (s.port p) with lstate := .detached, gts := 0, lanes := 0, modsUp := 0, tlpHeld := false, heldDb := [], heldData := [], heldResults := [], heldIrqs := [] } ∧ (∀ e, e ≠ p → u.port e = s.port e) ∧ u = { s with ports := u.ports }))
  ∧ (∀ (s : State) (p : Nat), portOk p = true → ((s.port p).lstate = .down ∨ (s.port p).lstate = .training) → Gives (.linkDown p) s (fun u => u = s))
  ∧ (∀ (s : State) (m lost p : Nat), modOk m = true → s.modPortOf m = p → 0 < lost →
    Gives (.moduleLaneFailure m lost false) s (fun u => u.port p = { (s.port p) with lanes := min (s.port p).lanes 32 } ∧ (∀ e, e ≠ p → u.port e = s.port e)
      ∧ u = { s with ports := u.ports, flt := { s.flt with raised := s.flt.raised ++ [{ src := 448 + m, level := 2, detail := lost }] } }))
  ∧ (∀ (s : State) (m lost p : Nat), modOk m = true → s.modPortOf m = p → noMod (s.port p).modsUp m ≠ 0 →
    Gives (.moduleLaneFailure m lost true) s (fun u => (let y : Port := { (s.port p) with lanes := if 0 < lost then min (s.port p).lanes 32 else (s.port p).lanes, modsUp := noMod (s.port p).modsUp m }
        u.port p = if y.lstate = .up then { y with retrains := satAdd 16 y.retrains 1, lstate := .retraining, tlpHeld := true } else y)
      ∧ (∀ e, e ≠ p → u.port e = s.port e) ∧ u.flt.raised = s.flt.raised ++ (if 0 < lost then [{ src := 448 + m, level := 2, detail := lost }] else [])
      ∧ u = { s with ports := u.ports, flt := { s.flt with raised := u.flt.raised } }))
  ∧ (∀ (s : State) (m lost p : Nat), modOk m = true → s.modPortOf m = p → noMod (s.port p).modsUp m = 0 → (s.port p).lstate ≠ .down → (s.port p).lstate ≠ .training → (s.port p).phase ≠ 4 →
    Gives (.moduleLaneFailure m lost true) s (fun u => (u.port p).lstate = .training ∧ (u.port p).modsUp = 0 ∧ (u.port p).linkdowns = satAdd 16 (s.port p).linkdowns 1 ∧ (∀ e, e ≠ p → u.port e = s.port e)))
  ∧ (∀ (s : State) (m y p : Nat), modOk m = true → s.modPortOf m = p →
    Gives (.ucieRecalibration m y) s (fun u => u.port p = { (s.port p) with eyes := tset (s.port p).eyes m y } ∧ (∀ e, e ≠ p → u.port e = s.port e)
      ∧ u.flt.raised = s.flt.raised ++ (if y < s.pat.eff.cal.ucieMarginPct then [{ src := 448 + m, level := 1, detail := y * 256 }] else [])
      ∧ u = { s with ports := u.ports, flt := { s.flt with raised := u.flt.raised } }))

/-- A trickle command is refused where its conditions do not hold, is only noted while an entry or exit runs, else it runs, from either port for an exit; entry ends at 4 GT/s and 16 lanes, a doorbell held meanwhile starting an exit with AUTO_EXIT; a doorbell leaves trickle only with AUTO_EXIT; exit ends at the rate of the panel and 64 lanes once the modules of the port are awake. Either end lets the held packets go. -/
def Obligations.TrickleRows : Prop :=
  (∀ (s : State) (p : Nat) (a : Bool), portOk p = true → s.trickle.runs = false →
    Gives (.trickleEnter p a) s (fun u => if s.trickleRefused p a = true then u = { s with trickle := { s.trickle with cmd := 1, act := wsNow false } }
      else u.trickle = { s.trickle with cmd := 1, tstate := 1, act := wsRun } ∧ u.port p = { (s.port p) with tlpHeld := true } ∧ (∀ e, e ≠ p → u.port e = s.port e) ∧ u = { s with trickle := u.trickle, ports := u.ports }))
  ∧ (∀ (s : State) (p : Nat) (a : Bool), portOk p = true → s.trickle.runs = true →
    Gives (.trickleEnter p a) s (fun u => u = { s with trickle := { s.trickle with act := s.trickle.act.meet } })
    ∧ Gives (.trickleExit p false) s (fun u => u = { s with trickle := { s.trickle with act := s.trickle.act.meet } }))
  ∧ (∀ (s : State) (p : Nat), s.trickle.tstate = 1 → s.flt.safe = false → s.tricklePort = p → ((s.port p).heldDb = [] ∨ s.trickle.autoExit = false) →
    Gives .trickleEntryComplete s (fun u => u.trickle = { s.trickle with tstate := 2, act := s.trickle.act.finish true }
      ∧ u.port p = { (s.port p) with lstate := .trickle, gts := 4, lanes := 16, modsUp := 2 ^ s.pat.eff.host.trickleMod, tlpHeld := false, heldDb := [], heldData := [], heldResults := [], heldIrqs := [] } ∧ (∀ e, e ≠ p → u.port e = s.port e) ∧ u.host = { s.host with data := s.host.data ++ (s.port p).heldData, results := s.host.results ++ (s.port p).heldResults, irqs := s.host.irqs ++ (s.port p).heldIrqs }
      ∧ ((s.port p).heldDb = [] → u.cmd = s.cmd) ∧ u = { s with trickle := u.trickle, ports := u.ports, host := u.host, cmd := u.cmd }))
  ∧ (∀ (s : State) (p : Nat), s.trickle.tstate = 1 → s.flt.safe = false → s.tricklePort = p → (s.port p).heldDb ≠ [] → s.trickle.autoExit = true →
    Gives .trickleEntryComplete s (fun u => u.trickle = { s.trickle with tstate := 3, act := s.trickle.act.finish true }
      ∧ u.port p = { (s.port p) with lstate := .trickle, gts := 4, lanes := 16, modsUp := 2 ^ s.pat.eff.host.trickleMod, tlpHeld := true, heldData := [], heldResults := [], heldIrqs := [] }
      ∧ (∀ e, e ≠ p → u.port e = s.port e) ∧ u.host = { s.host with data := s.host.data ++ (s.port p).heldData, results := s.host.results ++ (s.port p).heldResults, irqs := s.host.irqs ++ (s.port p).heldIrqs } ∧ u = { s with trickle := u.trickle, ports := u.ports, host := u.host, isl := u.isl, pwr := u.pwr }))
  ∧ (∀ (s : State) (p q : Nat), portOk q = true → s.tricklePort = p → s.trickle.runs = false →
    Gives (.trickleExit q false) s (fun u => if s.trickle.tstate = 2 then
        u.trickle = { s.trickle with cmd := 2, tstate := 3, act := wsRun } ∧ u.port p = { (s.port p) with tlpHeld := true } ∧ (∀ e, e ≠ p → u.port e = s.port e)
          ∧ u = { s with trickle := u.trickle, ports := u.ports, isl := u.isl, pwr := u.pwr }
      else u = { s with trickle := { s.trickle with cmd := 2, act := wsNow false } }))
  ∧ (∀ (s : State) (p : Nat), portOk p = true → s.trickle.tstate = 2 → p = s.tricklePort →
    Gives (.trickleExit p true) s (fun u => if s.trickle.autoExit = true then u.trickle = { s.trickle with tstate := 3 } ∧ u.port p = { (s.port p) with tlpHeld := true }
      ∧ (∀ e, e ≠ p → u.port e = s.port e) ∧ u = { s with trickle := u.trickle, ports := u.ports, isl := u.isl, pwr := u.pwr } else u = s))
  ∧ (∀ (s : State) (p : Nat), s.trickle.tstate = 3 → s.flt.safe = false → s.tricklePort = p → (s.ableMods p).all (fun m => s.islOn (islUCM m)) = true →
    Gives .trickleExitComplete s (fun u => u.trickle = { s.trickle with tstate := 0, act := if s.trickle.act.busy || s.trickle.act.late then s.trickle.act.finish true else s.trickle.act }
      ∧ u.port p = { (s.port p) with lstate := if (s.port p).phase = 0 then .up else (s.port p).lstate, gts := s.pat.eff.host.maxGts, lanes := 64, modsUp := modMask (s.ableMods p), tlpHeld := false, heldDb := [], heldData := [], heldResults := [], heldIrqs := [] }
      ∧ (∀ e, e ≠ p → u.port e = s.port e) ∧ u.host = { s.host with data := s.host.data ++ (s.port p).heldData, results := s.host.results ++ (s.port p).heldResults, irqs := s.host.irqs ++ (s.port p).heldIrqs } ∧ ((s.port p).heldDb = [] → u.cmd = s.cmd) ∧ u = { s with trickle := u.trickle, ports := u.ports, host := u.host, cmd := u.cmd }))

/-- A detach request starts the sequence, is refused, or is only noted while one runs; it goes on when nothing is in flight or its second has passed, and ends when its data is durable, with the controllers closed, the link detached and trickle left; a beat through the port itself renews its lease for two seconds, and one through the other is refused; a lease expires and is counted only when its time has passed. -/
def Obligations.DetachRows : Prop :=
  (∀ (s : State) (p v : Nat), portOk p = true → v % 2 = 1 → (s.port p).detachAct.busy = false →
    Gives (.detachRequest p v) s (fun u => u.port p = (if s.hasPort p = true ∧ (s.port p).lstate ≠ .down ∧ (s.port p).lstate ≠ .training ∧ (s.port p).lstate ≠ .detached
          ∧ ¬ (p = s.tricklePort ∧ (s.trickle.tstate = 1 ∨ s.trickle.tstate = 3)) then { (s.port p) with detachAct := wsRun, phase := 1, lstate := .detaching }
        else { (s.port p) with detachAct := wsNow false }) ∧ (∀ e, e ≠ p → u.port e = s.port e) ∧ u = { s with ports := u.ports }))
  ∧ (∀ (s : State) (p v : Nat), portOk p = true → v % 2 = 1 → (s.port p).detachAct.busy = true →
    Gives (.detachRequest p v) s (fun u => u.port p = { (s.port p) with detachAct := (s.port p).detachAct.meet } ∧ (∀ e, e ≠ p → u.port e = s.port e) ∧ u = { s with ports := u.ports }))
  ∧ (∀ (s : State) (p v : Nat), portOk p = true → v % 2 = 0 → Gives (.detachRequest p v) s (fun u => u = s))
  ∧ (∀ (s : State) (p : Nat) (x : Bool), portOk p = true → (s.port p).phase = 1 → s.flt.safe = false → (x = true ∨ s.portCtxs p = []) →
    Gives (.detachQuiesced p x) s (fun u => u.port p = { (s.port p) with phase := 2, flushSet := (u.port p).flushSet } ∧ (∀ e, e ≠ p → u.port e = s.port e) ∧ u.sec = s.sec ∧ u.ctrs = s.ctrs))
  ∧ (∀ (s : State) (p : Nat) (x : Bool), portOk p = true → ((s.port p).phase ≠ 1 ∨ s.flt.safe = true ∨ (x = false ∧ s.portCtxs p ≠ [])) → Gives (.detachQuiesced p x) s (fun u => u = s))
  ∧ (∀ (s : State) (p : Nat), portOk p = true → (s.port p).phase = 2 → (∀ k ∈ (s.port p).flushSet, s.undurableUnit k = false) →
    Gives (.detachFlushed p) s (fun u => u.port p = { (s.port p) with phase := 4, lstate := .detached, detachAct := (s.port p).detachAct.finish true, flushSet := [], tlpHeld := false, heldDb := [], heldData := [], heldResults := [], heldIrqs := [] }
      ∧ (∀ e, e ≠ p → u.port e = s.port e) ∧ (∀ sl ∈ s.slicesOn p, (u.ctrl (ctrlKey p sl)).shst = 2) ∧ (p = s.tricklePort → u.trickle.tstate = 0) ∧ (p ≠ s.tricklePort → u.trickle = s.trickle)
      ∧ u = { s with cmd := u.cmd, sli := u.sli, zon := u.zon, ports := u.ports, trickle := u.trickle }))
  ∧ (∀ (s : State) (p k : Nat), portOk p = true → k ∈ (s.port p).flushSet → s.undurableUnit k = true → Gives (.detachFlushed p) s (fun u => u = s))
  ∧ (∀ (s : State) (p via v : Nat), portOk p = true → portOk via = true → s.hasPort p = true → v % 2 = 1 →
    Gives (.leaseBeat p via v) s (fun u => u.port p = (if p = via then { (s.port p) with beatAct := wsNow true, live := true, leaseEnd := s.nowMs + 2000, expiries := if (s.port p).live = true ∧ (s.port p).leaseEnd ≤ s.nowMs then ((s.port p).expiries + 1) % 2 ^ 32 else (s.port p).expiries }
        else { (s.port p) with beatAct := wsNow false }) ∧ (∀ e, e ≠ p → u.port e = s.port e) ∧ u = { s with ports := u.ports }))
  ∧ (∀ (s : State) (p : Nat), portOk p = true → (s.port p).live = true → (s.port p).leaseEnd ≤ s.nowMs →
    Gives (.leaseExpire p) s (fun u => u.port p = { (s.port p) with live := false, expiries := ((s.port p).expiries + 1) % 2 ^ 32 } ∧ (∀ e, e ≠ p → u.port e = s.port e) ∧ u = { s with ports := u.ports }))
  ∧ (∀ (s : State) (p : Nat), portOk p = true → ((s.port p).live = false ∨ s.nowMs < (s.port p).leaseEnd) → Gives (.leaseExpire p) s (fun u => u = s))

/-- A BAR2 entry is stored or refused; an access through an enabled entry reads or writes the allocation, except that bytes which an uncommitted job of the slice writes are undefined; any other raises a Note; PCIe configuration fields take their values; a hot reset clears them; unmasking an entry sends a pending message of a slice once, with the PASID of the slice, held while the port holds its packets. -/
def Obligations.HostMapRows : Prop :=
  (∀ (s : State) (p i e sl h b l : Nat), portOk p = true → i < 64 → sl < 2048 → h < 65536 → b < 65536 → l < 65536 →
    Gives (.bar2MapWrite p i e sl h b l) s (fun u => u.port p = { (s.port p) with bar2 := tset (s.port p).bar2 i (if e % 2 = 1 ∧ s.bar2Refused p i sl h b l = true then { (tval (s.port p).bar2 i : Bar2Ent) with act := wsShown (1 + sl * 2 + h * 2 ^ 12 + b * 2 ^ 28 + l * 2 ^ 44) }
         else { en := e % 2 == 1, slice := sl, handle := h, baseMib := b, lenMib := l, act := wsNow true }) } ∧ (∀ e, e ≠ p → u.port e = s.port e) ∧ u = { s with ports := u.ports }))
  ∧ (∀ (s : State) (p a n i : Nat) (e : Bar2Ent) (al : Alloc), portOk p = true →
      (s.port p).bar2.find? (fun e => e.2.en && decide (e.2.baseMib * mib ≤ a) && decide (a + n ≤ (e.2.baseMib + e.2.lenMib) * mib)) = some (i, e) →
      s.alloc? e.slice e.handle = some al → s.writersOf e.slice 65536 = [] →
    Gives (.bar2Access p a n none) s (fun u => u = { s with host := { s.host with bar2 := s.host.bar2 ++ [(a, some (al.read (a - e.baseMib * mib) n))] } })
    ∧ (∀ w : List Byte, w.length = n → Gives (.bar2Access p a n (some w)) s (fun u => u.alloc? e.slice e.handle = some (al.write (a - e.baseMib * mib) w)
        ∧ u = { s with cpx := { s.cpx with allocs := u.cpx.allocs } })))
  ∧ (∀ (s : State) (p a n i : Nat) (e : Bar2Ent) (al : Alloc), portOk p = true →
      (s.port p).bar2.find? (fun e => e.2.en && decide (e.2.baseMib * mib ≤ a) && decide (a + n ≤ (e.2.baseMib + e.2.lenMib) * mib)) = some (i, e) →
      s.alloc? e.slice e.handle = some al →
    Gives (.bar2Access p a n none) s (fun u => (∃ b : List Byte, b.length = n ∧ u = { s with host := { s.host with bar2 := s.host.bar2 ++ [(a, some b)] }, cpx := u.cpx, free := u.free }
        ∧ (∀ m, m < n → (∀ k ∈ s.writersOf e.slice 65536, ∀ r ∈ s.jobWrites k, ¬ (r.1 = e.handle ∧ r.2.1 ≤ a - e.baseMib * mib + m ∧ a - e.baseMib * mib + m < r.2.1 + r.2.2)) →
            b.getD m 0 = (al.read (a - e.baseMib * mib) n).getD m 0))
      ∧ (∀ q, q ≠ allocKey e.slice e.handle → tget u.cpx.allocs q = tget s.cpx.allocs q)
      ∧ (∃ bl, u.alloc? e.slice e.handle = some bl ∧ (∀ m, (∀ k ∈ s.writersOf e.slice 65536, ∀ r ∈ s.jobWrites k, ¬ (r.1 = e.handle ∧ r.2.1 ≤ m ∧ m < r.2.1 + r.2.2)) →
            tgetD bl.bytes m 0 = tgetD al.bytes m 0)))
    ∧ (∀ w : List Byte, w.length = n → Gives (.bar2Access p a n (some w)) s (fun u => u = { s with cpx := u.cpx, free := u.free } ∧ (∀ q, q ≠ allocKey e.slice e.handle → tget u.cpx.allocs q = tget s.cpx.allocs q) ∧ (∃ bl, u.alloc? e.slice e.handle = some bl
        ∧ (∀ m, (∀ k ∈ s.writersOf e.slice 65536, ∀ r ∈ s.jobWrites k, ¬ (r.1 = e.handle ∧ r.2.1 ≤ m ∧ m < r.2.1 + r.2.2)) →
            tgetD bl.bytes m 0 = tgetD (al.write (a - e.baseMib * mib) w).bytes m 0)))))
  ∧ (∀ (s : State) (p a n : Nat), portOk p = true → (s.port p).bar2.find? (fun e => e.2.en && decide (e.2.baseMib * mib ≤ a) && decide (a + n ≤ (e.2.baseMib + e.2.lenMib) * mib)) = none →
    Gives (.bar2Access p a n none) s (fun u => u.host.bar2 = s.host.bar2 ++ [(a, none)] ∧ u.flt.raised = s.flt.raised ++ [{ src := 750, level := 0, detail := a }]
      ∧ u = { s with host := { s.host with bar2 := u.host.bar2 }, flt := { s.flt with raised := u.flt.raised } })
    ∧ (∀ w : List Byte, w.length = n → Gives (.bar2Access p a n (some w)) s (fun u => u = { s with flt := { s.flt with raised := s.flt.raised ++ [{ src := 750, level := 0, detail := a }] } })))
  ∧ (∀ (s : State) (p v : Nat), portOk p = true → s.hasPort p = true →
    Gives (.pcieConfigWrite p .pasidEnable v) s (fun u => u.port p = { (s.port p) with pasidEn := v % 2 == 1 } ∧ (∀ e, e ≠ p → u.port e = s.port e) ∧ u = { s with ports := u.ports })
    ∧ Gives (.pcieConfigWrite p .atsEnable v) s (fun u => u.port p = { (s.port p) with atsEn := v % 2 == 1, atc := if v % 2 = 1 then (s.port p).atc else [] } ∧ (∀ e, e ≠ p → u.port e = s.port e) ∧ u = { s with ports := u.ports })
    ∧ Gives (.pcieConfigWrite p .msixEnable v) s (fun u => (u.port p).msixEn = (v % 2 == 1) ∧ (∀ e, e ≠ p → u.port e = s.port e) ∧ u = { s with ports := u.ports, sli := u.sli, host := u.host })
    ∧ Gives (.pcieConfigWrite p .msixMask v) s (fun u => (u.port p).msixMask = (v % 2 == 1) ∧ (∀ e, e ≠ p → u.port e = s.port e) ∧ u = { s with ports := u.ports, sli := u.sli, host := u.host })
    ∧ Gives (.pcieConfigWrite p .pmState v) s (fun u => u.port p = { (s.port p) with pmState := v % 4 } ∧ (∀ e, e ≠ p → u.port e = s.port e) ∧ u = { s with ports := u.ports })
    ∧ Gives (.pcieConfigWrite p .aer v) s (fun u => u.port p = { (s.port p) with aer := v % 2 ^ 32 } ∧ (∀ e, e ≠ p → u.port e = s.port e) ∧ u = { s with ports := u.ports })
    ∧ Gives (.pcieConfigWrite p .bar0 v) s (fun u => u.port p = { (s.port p) with bar0 := v % 2 ^ 64 / bar0Bytes * bar0Bytes } ∧ (∀ e, e ≠ p → u.port e = s.port e) ∧ u = { s with ports := u.ports })
    ∧ Gives (.pcieConfigWrite p .bar2 v) s (fun u => u.port p = { (s.port p) with bar2Base := if s.bar2Bytes = 0 then 0 else v % 2 ^ 64 / s.bar2Bytes * s.bar2Bytes } ∧ (∀ e, e ≠ p → u.port e = s.port e) ∧ u = { s with ports := u.ports })
    ∧ Gives (.pcieConfigWrite p .maxPayload v) s (fun u => u.port p = { (s.port p) with mps := if v ≤ 2 then v else (s.port p).mps } ∧ (∀ e, e ≠ p → u.port e = s.port e) ∧ u = { s with ports := u.ports })
    ∧ Gives (.pcieConfigWrite p .maxReadRequest v) s (fun u => u.port p = { (s.port p) with mrrs := if v ≤ 5 then v else (s.port p).mrrs } ∧ (∀ e, e ≠ p → u.port e = s.port e) ∧ u = { s with ports := u.ports }))
  ∧ (∀ (s : State) (p : Nat), portOk p = true → s.hasPort p = true →
    Gives (.portHotReset p) s (fun u => u.port p = (s.port p).clearPcie ∧ (∀ e, e ≠ p → u.port e = s.port e) ∧ u.ctrs = s.ctrs ∧ u.sec = s.sec))
  ∧ (∀ (s : State) (p e : Nat), portSliceOk p 0 = true → s.liveOn p 0 = true → e < s.pat.eff.host.msix → (tval (s.port p).msix e : MsgEnt).pend = false →
    Gives (.interruptUnmask p 0 e) s (fun u => u.port p = { (s.port p) with msix := tset (s.port p).msix e { (tval (s.port p).msix e : MsgEnt) with mask := false, pend := false } }
      ∧ (∀ e, e ≠ p → u.port e = s.port e) ∧ u = { s with ports := u.ports }))
  ∧ (∀ (s : State) (p sl e : Nat), portSliceOk p sl = true → sl ≠ 0 → s.liveOn p sl = true → s.flt.safe = false → e < (s.slc sl).msgCount → (tval (s.slc sl).msgs e : MsgEnt).pend = true →
    Gives (.interruptUnmask p sl e) s (fun u => (tval (u.slc sl).msgs e : MsgEnt) = { (tval (s.slc sl).msgs e : MsgEnt) with mask := false, pend := false } ∧ (∀ j, j ≠ sl → u.slc j = s.slc j)
      ∧ (let i : Irq := { port := p, slice := sl, vector := e, pasid := s.dmaPasid p sl }
         if (s.port p).carries = false then u = { s with sli := u.sli }
         else if (s.port p).tlpHeld = true then u.port p = { (s.port p) with heldIrqs := (s.port p).heldIrqs ++ [i] } ∧ (∀ e, e ≠ p → u.port e = s.port e) ∧ u = { s with sli := u.sli, ports := u.ports }
         else u = { s with sli := u.sli, host := { s.host with irqs := s.host.irqs ++ [i] } })))
  ∧ (∀ (s : State) (p sl e : Nat), portSliceOk p sl = true → sl ≠ 0 → s.liveOn p sl = true → s.flt.safe = false → e < (s.slc sl).msgCount → (tval (s.slc sl).msgs e : MsgEnt).pend = false →
    Gives (.interruptUnmask p sl e) s (fun u => (tval (u.slc sl).msgs e : MsgEnt) = { (tval (s.slc sl).msgs e : MsgEnt) with mask := false, pend := false } ∧ (∀ j, j ≠ sl → u.slc j = s.slc j)
      ∧ u = { s with sli := u.sli }))
  ∧ (∀ (s : State) (p sl e : Nat), portSliceOk p sl = true → sl ≠ 0 → s.flt.safe = true → Gives (.interruptUnmask p sl e) s (fun u => u = s))

/-- A frame is handed out with one holder and a live generation, or the command that asked waits; sharing adds a holder or, at 255, names the frame; a stale handle frees and shares nothing; the free of the last holder returns the frame with its next generation, or retires it where that was due; only the owner frees or passes a named frame; an audit returns the frames that were lost. -/
def Obligations.PoolRows : Prop :=
  (∀ (s : State) (c f un sl i : Nat) (l : List Nat), c < 6 → sliceOk sl = true → s.stagingFree c un = none → s.classFor c false 6 = some c → (s.pool c).refill.cache = f :: l →
    Gives (.frameAllocate c un sl (.internal i)) s (fun u => u.pool c = { (s.pool c).refill with cache := l }
      ∧ u.frame (frameKey c f) = { (s.frame (frameKey c f)) with held := true, named := false, refs := 1, owner := un, slice := sl, gen := if (s.frame (frameKey c f)).gen = 0 then 1 else (s.frame (frameKey c f)).gen }
      ∧ u.bpm.cnt = cnt64 s.bpm.cnt 0 1 ∧ (∀ k, k ≠ frameKey c f → u.frame k = s.frame k) ∧ (∀ d, d ≠ c → u.pool d = s.pool d) ∧ u = { s with bpm := u.bpm })
    ∧ (∀ x, ctxOk x = true → (s.ctx? x).isSome = true → Gives (.frameAllocate c un sl (.command x)) s (fun u =>
        u.ctx x = { (s.ctx x) with bufs := (s.ctx x).bufs ++ [mkHandle c { (s.pool c).refill with cache := l } f (if (s.frame (frameKey c f)).gen = 0 then 1 else (s.frame (frameKey c f)).gen)] }
        ∧ (u.frame (frameKey c f)).held = true ∧ (∀ y, y ≠ x → u.ctx y = s.ctx y) ∧ u = { s with bpm := u.bpm, cmd := { s.cmd with ctxs := u.cmd.ctxs } })))
  ∧ (∀ (s : State) (c un sl x : Nat), c < 6 → sliceOk sl = true → askerOk (.command x) = true → (s.ctx? x).isSome = true → s.bpm.stalls = [] →
      s.allocFrame c un sl false = none → s.allocFrame c un sl true = none →
    Gives (.frameAllocate c un sl (.command x)) s (fun u => u.ctx x = { (s.ctx x) with wait := 6 } ∧ (∀ y, y ≠ x → u.ctx y = s.ctx y)
      ∧ u.bpm = { s.bpm with stalls := [{ cls := c, unit := un, slice := sl, who := .command x, order := (s.ctx x).fseq + 1 }], cnt := cnt64 s.bpm.cnt 2 1 }
      ∧ u = { s with cmd := { s.cmd with ctxs := u.cmd.ctxs }, bpm := u.bpm }))
  ∧ (∀ (s : State) (h a b : Nat), s.handleLive h = true → (s.frame (hKey s h)).named = false →
    Gives (.frameShare h a b) s (fun u => u.frame (hKey s h) = (if (s.frame (hKey s h)).refs = 255 then { (s.frame (hKey s h)) with named := true, owner := b }
        else { (s.frame (hKey s h)) with refs := (s.frame (hKey s h)).refs + 1 }) ∧ (∀ k, k ≠ hKey s h → u.frame k = s.frame k)
      ∧ u = { s with bpm := { s.bpm with frames := u.bpm.frames, cnt := u.bpm.cnt } }))
  ∧ (∀ (s : State) (h a b : Nat), s.handleLive h = false → Gives (.frameShare h a b) s (fun u => u = s) ∧ Gives (.frameFree h a) s (fun u => u = s.bpmCnt 6 1)
      ∧ Gives (.frameOwnershipPass h a b) s (fun u => u = s))
  ∧ (∀ (s : State) (h a : Nat), s.handleLive h = true → (s.frame (hKey s h)).named = true → (s.frame (hKey s h)).owner ≠ a →
    Gives (.frameFree h a) s (fun u => u = { s with bpm := { s.bpm with cnt := cnt64 s.bpm.cnt 5 1 }, flt := { s.flt with raised := s.flt.raised ++ [{ src := 753, level := 0, detail := h }] } }))
  ∧ (∀ (s : State) (h a : Nat), s.handleLive h = true → (s.frame (hKey s h)).named = false → 1 < (s.frame (hKey s h)).refs →
    Gives (.frameFree h a) s (fun u => u.frame (hKey s h) = { (s.frame (hKey s h)) with refs := (s.frame (hKey s h)).refs - 1 } ∧ (∀ k, k ≠ hKey s h → u.frame k = s.frame k)
      ∧ u = { s with bpm := { s.bpm with frames := u.bpm.frames } }))
  ∧ (∀ (s : State) (h a : Nat), s.handleLive h = true → ((s.frame (hKey s h)).named = true ∧ (s.frame (hKey s h)).owner = a ∨ (s.frame (hKey s h)).named = false ∧ (s.frame (hKey s h)).refs ≤ 1) →
      s.bpm.stalls = [] →
    Gives (.frameFree h a) s (fun u => (u.frame (hKey s h)).held = false ∧ (u.frame (hKey s h)).gen = nextGen (s.frame (hKey s h)).gen ∧ (u.frame (hKey s h)).refs = 0
      ∧ (u.frame (hKey s h)).retired = ((s.frame (hKey s h)).retired || (s.frame (hKey s h)).retiring)
      ∧ (∀ k, k ≠ hKey s h → u.frame k = s.frame k) ∧ (∀ d, d ≠ hKey s h / 2 ^ 28 → u.pool d = s.pool d) ∧ ((s.frame (hKey s h)).retiring = false → u = { s with bpm := u.bpm })
      ∧ u = { s with bpm := u.bpm, mic := { s.mic with mems := u.mic.mems }, flt := { s.flt with raised := u.flt.raised } }))
  ∧ (∀ (s : State) (h a b : Nat), s.handleLive h = true → (s.frame (hKey s h)).named = true →
    Gives (.frameOwnershipPass h a b) s (fun u => if (s.frame (hKey s h)).owner = a then
        u.frame (hKey s h) = { (s.frame (hKey s h)) with owner := b } ∧ (∀ k, k ≠ hKey s h → u.frame k = s.frame k)
          ∧ u.bpm.cnt = cnt64 s.bpm.cnt 8 1 ∧ u = { s with bpm := { s.bpm with frames := u.bpm.frames, cnt := u.bpm.cnt } }
      else u = s))
  ∧ (∀ (s : State), s.bpm.stalls = [] → s.auditLost.Nodup → (∀ k, k ∈ s.auditLost → (s.frame k).retiring = false) →
    Gives .poolAudit s (fun u => (∀ k, k ∈ s.auditLost → (u.frame k).held = false ∧ (u.frame k).gen = nextGen (s.frame k).gen) ∧ (∀ j, j ∉ s.auditLost → u.frame j = s.frame j)
      ∧ u.mic = { s.mic with auditFrames := [], cnt := cnt64 s.mic.cnt 12 1 } ∧ u = { s with bpm := u.bpm, mic := u.mic }))

/-- A completed replay removes its entry; where no copy is readable a zone table replay stays with a Critical fault, and the blocks of a map line become uncorrectable; a halted DMA channel ends an uncommitted command, repeats the transfer, or is fatal to the controller; a merge buffer flush counts and writes its line, with an armed flip applied once; filling moves the pointer of a DRAM interface up to its capacity; MIC_FLIP arms only for memory that exists. -/
def Obligations.IntegrityRows : Prop :=
  (∀ (s : State) (m : Bool) (k : Nat) (r : Bool), s.mic.replays.contains (m, k) = false → Gives (.tableReplayComplete m k r) s (fun u => u = s))
  ∧ (∀ (s : State) (m : Bool) (k : Nat), s.mic.replays.contains (m, k) = true →
    Gives (.tableReplayComplete m k true) s (fun u => u = { s with mic := { s.mic with replays := s.mic.replays.erase (m, k), cnt := cnt64 s.mic.cnt (if m then 5 else 4) 1 } }))
  ∧ (∀ (s : State) (k : Nat), s.mic.replays.contains (false, k) = true →
    Gives (.tableReplayComplete false k false) s (fun u => u = { s with flt := { s.flt with raised := s.flt.raised ++ [{ src := 755, level := 3, detail := k }] } }))
  ∧ (∀ (s : State) (k : Nat), s.mic.replays.contains (true, k) = true →
    Gives (.tableReplayComplete true k false) s (fun u => s.mlf.mediaErrors + 1 ≤ u.mlf.mediaErrors ∧ u.mic.replays = s.mic.replays.erase (true, k)
      ∧ (∀ a, a ∈ lbasOf (k % 2 ^ 40 * 8) 8 → a < (s.ns (k / 2 ^ 40)).nsze → (u.mapEnt (key2 (k / 2 ^ 40) a)).unc = true ∧ (u.mapEnt (key2 (k / 2 ^ 40) a)).loc = none)))
  ∧ (∀ (s : State) (c : Nat) (b : Bool), ctxOk c = true → s.mic.halted.contains c = true →
    Gives (.dmaChannelRestart c b) s (fun u => u.mic.halted = removeNat s.mic.halted c
      ∧ (if (s.ctx c).open = true ∧ (s.ctx c).outc = none then (u.ctx c).outc = some (errOut .dataXfer)
         else if b = true then u = { s with mic := { s.mic with halted := u.mic.halted, cnt := cnt64 s.mic.cnt 3 1 } }
         else (u.ctrl (ctrlKey (s.ctx c).port (s.ctx c).slice)).cfs = true)))
  ∧ (∀ (s : State) (i l : Nat) (k : LineCheck), islOk i = true → k.firstOk = true → s.lineMarked i (kindOf (narrowClass i) i) l = false →
    Gives (.mergeBufferFlush i l k) s (fun u => u.mic.cnt = cnt64 s.mic.cnt 8 1
      ∧ (if s.mic.armed = true ∧ s.mic.flipCls = narrowClass i ∧ s.mic.flipIsl = i then
           u.lineMarked i (kindOf (narrowClass i) i) l = true ∧ u.mic.armed = false ∧ u.mic.injected = true ∧ u.mic.flipAct = s.mic.flipAct.finish true
         else u.mic.mems = s.mic.mems ∧ u.mic.armed = s.mic.armed)
      ∧ u = { s with mic := u.mic }))
  ∧ (∀ (s : State) (j g : Nat) (d : DramPlan), j < 8 → s.pat.eff.dram = some d → bitAt d.mask j = true → s.islIsolated (islDMI j) = false →
    Gives (.dramBackgroundFill j g) s (fun u => u.mic.fillPtr.getD j 0 = min (d.capGib * 2 ^ 19) (s.mic.fillPtr.getD j 0 + g)
      ∧ (∀ k, k ≠ j → u.mic.fillPtr.getD k 0 = s.mic.fillPtr.getD k 0)
      ∧ (∀ c, (s.pool c).filled ≤ (u.pool c).filled) ∧ u.bpm.frames = s.bpm.frames
      ∧ u = { s with mic := { s.mic with fillPtr := u.mic.fillPtr, dramFilled := u.mic.dramFilled }, bpm := { s.bpm with pools := u.bpm.pools } }))
  ∧ (∀ (s : State) (a c i o m : Nat) (b : Bool), s.mic.flipAct.busy = false → c < 16 → i < 128 → o < 64 → m < 65536 →
    Gives (.flipArm a c i o m b) s (fun u =>
      if a % 2 = 0 then u = { s with mic := { s.mic with flipCls := c, flipIsl := i, flipOff := o, flipMask := m, flipOnCrc := b } }
      else if m = 0 ∨ c = 8 ∨ 10 < c ∨ present s.pat.eff i = false ∨ holdsClass c i = false then u = { s with mic := { s.mic with flipAct := wsNow false, flipCls := c, flipIsl := i, flipOff := o, flipMask := m, flipOnCrc := b } }
      else u = { s with mic := { s.mic with armed := true, flipAct := wsRun, flipCls := c, flipIsl := i, flipOff := o, flipMask := m, flipOnCrc := b, injected := false, detected := false } }))
  ∧ (∀ (s : State) (a c i o m : Nat) (b : Bool), s.mic.flipAct.busy = true → Gives (.flipArm a c i o m b) s (fun u => u = { s with mic := { s.mic with flipAct := s.mic.flipAct.meet } }))

/-- An event of a source in handling merges for ten milliseconds at most; any other is recorded at its level or above while the ring has room, a Note that has no reaction with its class, unit and time and nothing else; a Fatal event makes the device fatal and enters the safe state; acknowledgement covers every record up to its number; the safe state is left, and an isolated unit released, only where nothing forbids it; the reset of an island ends with the island available. -/
def Obligations.FaultRows : Prop :=
  (∀ (s : State) (e : FaultEv) (q : Nat), Sys2Proof.srcOk e.src = true → e.src ≤ 891 → (tval s.flt.srcs e.src : FltSrc).inHand s.nowMs = some q →
    Gives (.faultEvent e) s (fun u => u = { s with flt := { s.flt with raised := s.flt.raised.erase e, ring := mergeInto q s.flt.ring, srcs := tset s.flt.srcs e.src { (tval s.flt.srcs e.src : FltSrc) with events := satAdd 32 (tval s.flt.srcs e.src : FltSrc).events 1 } } }))
  ∧ (∀ (s : State) (e : FaultEv), Sys2Proof.srcOk e.src = true → e.src ≤ 891 → (tval s.flt.srcs e.src : FltSrc).inHand s.nowMs = none → (tval s.flt.srcs e.src : FltSrc).window = [] →
      1 < (s.faultPol e.src).n → e.level = 0 → s.reactOf e.src 0 = 0 → s.flt.ring.length < 4096 →
    Gives (.faultEvent e) s (fun u => u.flt.ring = s.flt.ring ++ [{ seq := s.flt.nextSeq, src := e.src, timeMs := s.nowMs, island := (srcUnit e.src).1, unit := if e.src < 760 || 808 ≤ e.src then (srcUnit e.src).2 else 0xFF, cls := classOf e.src, slice := e.slice.getD 0xFFFF, detail := e.detail % 2 ^ 64 }]
      ∧ u.flt.nextSeq = s.flt.nextSeq + 1
      ∧ tval u.flt.srcs e.src = { window := [s.nowMs], events := satAdd 32 (tval s.flt.srcs e.src : FltSrc).events 1, lastLevel := 0, handling := none, since := s.nowMs }
      ∧ u = { s with flt := { s.flt with raised := s.flt.raised.erase e, ring := u.flt.ring, nextSeq := u.flt.nextSeq, srcs := u.flt.srcs } }))
  ∧ (∀ (s : State) (e : FaultEv), Sys2Proof.srcOk e.src = true → e.src ≤ 891 → (tval s.flt.srcs e.src : FltSrc).inHand s.nowMs = none → e.level = 4 →
    Gives (.faultEvent e) s (fun u => u.flt.safe = true ∧ u.flt.fatal = true ∧ ∀ k ∈ u.cmd.ctrls, k.2.cfs = true))
  ∧ (∀ (s : State) (e : FaultEv), Sys2Proof.srcOk e.src = true → e.src ≤ 891 → (tval s.flt.srcs e.src : FltSrc).inHand s.nowMs = none → e.level ≤ 4 → s.flt.ring.length < 4096 →
    Gives (.faultEvent e) s (fun u => (∃ r, r ∈ u.flt.ring ∧ r.seq = s.flt.nextSeq ∧ r.src = e.src ∧ r.raised = e.level ∧ e.level ≤ r.level ∧ r.level ≤ 4)
      ∧ (tval u.flt.srcs e.src : FltSrc).events = satAdd 32 (tval s.flt.srcs e.src : FltSrc).events 1))
  ∧ (∀ (s : State) (e : FaultEv), Sys2Proof.srcOk e.src = true → 891 < e.src → Gives (.faultEvent e) s (fun u => u = { s with flt := { s.flt with raised := s.flt.raised.erase e } }))
  ∧ (∀ (s : State) (n : Nat), Sys2Proof.srcOk n = true →
    Gives (.faultHandlingEnd n) s (fun u => (tval u.flt.srcs n : FltSrc).handling = none ∧ (tval u.flt.srcs n : FltSrc).window = (tval s.flt.srcs n : FltSrc).window
      ∧ (∀ m, m ≠ n → (tval u.flt.srcs m : FltSrc) = tval s.flt.srcs m) ∧ u = { s with flt := { s.flt with srcs := u.flt.srcs } }))
  ∧ (∀ (s : State) (n : Nat), n < 2 ^ 32 →
    Gives (.faultAck n) s (fun u => (∀ r ∈ u.flt.ring, r.seq ≤ n → r.acked = true) ∧ u.flt.ring.length = s.flt.ring.length ∧ u.flt.ackSeq = n ∧ u.flt.ackAct = wsNow true
      ∧ u.flt.irq = (s.flt.irq && irqLeft u.flt.ring)
      ∧ u = { s with flt := { s.flt with ring := u.flt.ring, irq := u.flt.irq, ackSeq := u.flt.ackSeq, ackAct := u.flt.ackAct } }))
  ∧ (∀ (s : State), Gives (.safeStateRelease 0) s (fun u => u = s)
    ∧ (∀ v, v ≠ 0 → s.releaseRefused = true → Gives (.safeStateRelease v) s (fun u => u = { s with flt := { s.flt with relAct := wsNow false } }))
    ∧ (∀ v, v ≠ 0 → s.releaseRefused = false → Gives (.safeStateRelease v) s (fun u => u.flt.safe = false ∧ u.flt.relAct = wsNow true
        ∧ (∀ c, (s.chan c).cstate = 5 → (s.bay (c / 4)).held = false → (s.bay (c / 4)).lostIn = none → (u.chan c).cstate = 2) ∧ (∀ i, (u.isle i).safeHold = false))))
  ∧ (∀ (s : State) (i k : Nat), i < 128 → k < 256 →
    Gives (.fltRelease i k) s (fun u => u.flt.relIsland = i ∧ u.flt.relUnit = k
      ∧ (if s.relOk i k = true then u.flt.unitRelAct = wsNow true
           ∧ (u.isle i).isolatedUnits = (if k = 0xFF then [] else removeNat (s.isle i).isolatedUnits k)
           ∧ (u.isle i).avail = (if (s.isle i).avail = .isolated then .available else (s.isle i).avail)
           ∧ (∀ j, j ≠ i → u.isle j = s.isle j)
         else u.flt.unitRelAct = wsNow false ∧ u.isl = s.isl)
      ∧ u = { s with flt := { s.flt with relIsland := i, relUnit := k, unitRelAct := u.flt.unitRelAct }, isl := u.isl, cpx := u.cpx, med := u.med, ports := u.ports }))
  ∧ (∀ (s : State) (i : Nat), islOk i = true → (s.isle i).avail = .resetting → (s.isle i).held = [] →
    Gives (.islandResetEnd i) s (fun u => u.isle i = { (s.isle i) with avail := .available, actUs := (u.isle i).actUs } ∧ (isMcl i = false → u = s.setIsl i { (s.isle i) with avail := .available }) ∧ (∀ j, j ≠ i → u.isle j = s.isle j)
      ∧ u = { s with isl := u.isl, med := u.med, sli := u.sli }))
  ∧ (∀ (s : State) (i : Nat), islOk i = true → (s.isle i).avail ≠ .resetting → Gives (.islandResetEnd i) s (fun u => u = s))

/-- An event counts in every enabled counter that selects it and is not frozen, by 1 or by 10 for a sampled level, modulo 2^64, and in no other; clear, snapshot, freeze and unfreeze do exactly what they name. -/
def Obligations.CounterRows : Prop :=
  (∀ (s : State) (x : Nat) (sl i : Option Nat) (l : Bool), x < 2048 → optOk sliceOk sl = true → optOk islOk i = true → CountersRising s →
    Gives (.counterEvent x sl i l) s (fun u =>
      (∀ k, u.ctr k = if (s.ctr k).takes x sl i l = true ∧ (s.grp (k / 16)).frozen = false then
          { (s.ctr k) with cnt := ((s.ctr k).cnt + if l then 10 else 1) % 2 ^ 64 } else s.ctr k)
      ∧ (∀ g, (u.grp g).frozen = (s.grp g).frozen)
      ∧ u = { s with ctrs := u.ctrs, grps := u.grps, host := { s.host with irqs := u.host.irqs }, ports := u.ports, sli := u.sli }))
  ∧ (∀ (s : State) (k : Nat), k < 1024 →
    Gives (.counterClear k) s (fun u => u.ctr k = { (s.ctr k) with cnt := 0, selAct := wsNow true, clr := true } ∧ (∀ j, j ≠ k → u.ctr j = s.ctr j) ∧ u = { s with ctrs := u.ctrs }))
  ∧ (∀ (s : State) (g : Nat), g < 64 →
    Gives (.counterSnapshot g) s (fun u => (∀ k, u.ctr k = if k / 16 = g then { (s.ctr k) with snap := (s.ctr k).cnt } else s.ctr k)
      ∧ u.grp g = { (s.grp g) with act := wsNow true, snapW := true } ∧ (∀ j, j ≠ g → u.grp j = s.grp j) ∧ u = { s with ctrs := u.ctrs, grps := u.grps }))
  ∧ (∀ (s : State) (g : Nat), g < 64 →
    Gives (.counterFreeze g) s (fun u => u.grp g = { (s.grp g) with frozen := true, act := wsNow true } ∧ (∀ j, j ≠ g → u.grp j = s.grp j) ∧ u = { s with grps := u.grps })
    ∧ Gives (.counterUnfreeze g) s (fun u => u.grp g = { (s.grp g) with frozen := false, act := wsNow true } ∧ (∀ j, j ≠ g → u.grp j = s.grp j) ∧ u = { s with grps := u.grps }))

/-- An idle domain above its floor starts to enter it, and no other does; a completed entry puts it to sleep, and arms the wake timer for CTL; a wake starts and completes with its cause recorded, a link event wakes every module of its port, and none starts after a thermal shutdown; DRAM goes into deep sleep after a second off; a floor is stored, with a wake where the domain sits below it, or refused; pads are released only where the domain is on. -/
def Obligations.DomainRows : Prop :=
  (∀ (s : State) (i : Nat), islOk i = true → i ≠ 0 → present s.pat.eff i = true → (s.isle i).change = none → (s.isle i).avail ≠ .isolated → (s.isle i).avail ≠ .resetting → s.thm.shutdown = false →
      aboveFloor (s.isle i).dstate (s.effFloor i) = true →
    Gives (.domainIdleTimeout i) s (fun u => if s.maySink i = true then
        (u.isle i).dstate = .changing ∧ (u.isle i).change = some (.entry (s.effFloor i)) ∧ (∀ j, j ≠ i → u.isle j = s.isle j)
          ∧ u = { s with isl := u.isl, pwr := u.pwr, flt := { s.flt with raised := u.flt.raised }, med := { s.med with bays := u.med.bays } }
      else u = s))
  ∧ (∀ (s : State) (i : Nat), islOk i = true → (i = 0 ∨ present s.pat.eff i = false ∨ (s.isle i).change ≠ none ∨ (s.isle i).avail = .isolated ∨ (s.isle i).avail = .resetting ∨ s.thm.shutdown = true
      ∨ aboveFloor (s.isle i).dstate (s.effFloor i) = false) → Gives (.domainIdleTimeout i) s (fun u => u = s))
  ∧ (∀ (s : State) (i : Nat) (f : DState), islOk i = true → (s.isle i).change = some (.entry f) →
    Gives (.domainEntryComplete i) s (fun u => u.isle i = { (s.isle i) with dstate := f, change := none, stateAt := s.nowMs, filled := (s.isle i).filled && f != .off, avail := if (s.isle i).avail = .isolated then .isolated else .waking }
      ∧ u.pwr.timerArmed = (if i = islCTL then true else s.pwr.timerArmed) ∧ (∀ j, j ≠ i → u.isle j = s.isle j)
      ∧ u = { s with isl := u.isl, pwr := { s.pwr with timerArmed := u.pwr.timerArmed } }))
  ∧ (∀ (s : State) (i c : Nat), islOk i = true → c < 8 → ¬ (isUcm i = true ∧ c = 2) → present s.pat.eff i = true → s.weaveless i = false → (s.isle i).dstate.asleep = true → s.thm.shutdown = false →
    Gives (.domainWake i c) s (fun u => u.isle i = { (s.isle i) with change := some (.wake (s.isle i).dstate c), dstate := .changing, avail := if (s.isle i).avail = .isolated then .isolated else .waking }
      ∧ (∀ j, j ≠ i → u.isle j = s.isle j) ∧ u.pwr = s.pwr.noteWake c i ∧ u = { s with isl := u.isl, pwr := u.pwr }))
  ∧ (∀ (s : State) (i : Nat), islOk i = true → isUcm i = true → s.thm.shutdown = false →
    Gives (.domainWake i 2) s (fun u => (∀ j, j ∈ s.wakeSet i 2 → present s.pat.eff j = true → s.weaveless j = false → (s.isle j).dstate.asleep = true →
        (u.isle j).change = some (.wake (s.isle j).dstate 2) ∧ (u.isle j).dstate = .changing)
      ∧ (∀ j, j ∉ s.wakeSet i 2 → u.isle j = s.isle j) ∧ u = { s with isl := u.isl, pwr := u.pwr }))
  ∧ (∀ (s : State) (i c : Nat), islOk i = true → c < 8 → s.thm.shutdown = true → Gives (.domainWake i c) s (fun u => u = s))
  ∧ (∀ (s : State) (i c us : Nat) (d : DState), islOk i = true → (s.isle i).change = some (.wake d c) → (s.isle i).held = [] →
    Gives (.domainWakeComplete i us) s (fun u => u.isle i = { (s.isle i) with dstate := .on, change := none, stateAt := s.nowMs, lastWakeUs := min 4095 us, wakeCause := c, wakes := satAdd 16 (s.isle i).wakes 1, filled := (s.isle i).filled || d == .off, sleepHold := (s.isle i).sleepHold && !(s.isle i).padAuto && !isDmi i, avail := if (s.isle i).avail = .isolated then .isolated else .available, actUs := (u.isle i).actUs }
      ∧ (isMcl i = false → u.med = s.med) ∧ (∀ j, j ≠ i → u.isle j = s.isle j)
      ∧ u = { s with isl := u.isl, pwr := u.pwr, med := u.med, sli := u.sli }))
  ∧ (∀ (s : State) (j : Nat), j < 8 →
    Gives (.dramDeepSleep j) s (fun u => if (s.isle (islDMI j)).dstate = .off ∧ (s.isle (islDMI j)).stateAt + 1000 ≤ s.nowMs ∧ tgetD s.pwr.dramState j 0 = 1 then
        u = { s with pwr := { s.pwr with dramState := tset s.pwr.dramState j 2 } } else u = s))
  ∧ (∀ (s : State) (i v : Nat), islOk i = true → v < 4 →
    Gives (.floorWrite i v) s (fun u => if s.floorRefused i v = true then u.isle i = { (s.isle i) with floorAct := wsShown v } ∧ (∀ j, j ≠ i → u.isle j = s.isle j) ∧ u = { s with isl := u.isl }
      else (u.isle i).floor = v ∧ (u.isle i).floorAct = wsNow true ∧ (belowFloor (s.isle i).dstate (u.effFloor i) = true → s.thm.shutdown = false → s.weaveless i = false → (u.isle i).change = some (.wake (s.isle i).dstate 7)) ∧ (∀ j, j ≠ i → u.isle j = s.isle j) ∧ u = { s with isl := u.isl }))
  ∧ (∀ (s : State) (i : Nat), islOk i = true →
    (∀ v, v % 2 = 1 → Gives (.padHoldRelease i v) s (fun u => (if s.domOn i = true then u.isle i = { (s.isle i) with sleepHold := false, padRelAct := wsNow true, actUs := (u.isle i).actUs }
        else u.isle i = { (s.isle i) with padRelAct := wsNow false }) ∧ (∀ j, j ≠ i → u.isle j = s.isle j) ∧ (isMcl i = false → u = { s with isl := u.isl }) ∧ u = { s with isl := u.isl, med := u.med, sli := u.sli }))
    ∧ (∀ v, v % 2 = 0 → Gives (.padHoldRelease i v) s (fun u => u = s)))

/-- Low-power keeper mode is taken, refused, reverted above 315 mA and re-entered after a second at or below 300 mA; a brown-out makes every retained domain start cold, leaves the others that are on as they are, and raises a Critical fault; the sideband comparator and the wake timer wake the control domains only when enabled. -/
def Obligations.SupplyRows : Prop :=
  (∀ (s : State) (v : Nat),
    Gives (.keeperModeRequest v) s (fun u => u = { s with pwr := if v % 2 = 0 then { s.pwr with reqLp := false, kmode := false, lpRefused := s.pwr.brownout, reqAct := wsNow true }
      else if s.lpAllowed = true then { s.pwr with reqLp := true, kmode := true, lpRefused := false, reqAct := wsNow true }
      else { s.pwr with lpRefused := true, reqAct := wsShown 1 } }))
  ∧ (∀ (s : State), Gives .keeperEstimate s (fun u => (if s.pwr.kmode = true ∧ s.overLoad 3150 = true then
        u.pwr.kmode = false ∧ u.pwr.lpRevert = true ∧ u.flt.raised = s.flt.raised ++ [{ src := 884, level := 1, detail := railDetail 3 u.pwr.est }]
      else u.pwr.kmode = s.pwr.kmode ∧ u.flt = s.flt) ∧ u.pwr.est = s.sumLoad.pwr.est ∧ u = { s with pwr := u.pwr, flt := { s.flt with raised := u.flt.raised } }))
  ∧ (∀ (s : State), Gives .keeperLpReentry s (fun u => u = if s.pwr.reqLp = true ∧ s.pwr.kmode = false ∧ s.lpAllowed = true ∧ s.overLoad 3000 = false ∧ s.lowLong = true then
      { s with pwr := { s.pwr with kmode := true, lpRefused := false } } else s))
  ∧ (∀ (s : State), Gives .brownOut s (fun u => u.pwr.brownout = true ∧ u.pwr.boCount = satAdd 16 s.pwr.boCount 1 ∧ u.pwr.kmode = false ∧ u.pwr.lpRefused = true
      ∧ { src := 883, level := 3, detail := railDetail 3 s.pwr.est } ∈ u.flt.raised
      ∧ (∀ i, i < 72 → (s.isle i).dstate = .retention → (u.isle i).dstate = .changing ∧ (u.isle i).filled = false ∧ ∃ c, c < 8 ∧ (u.isle i).change = some (.wake .off c))
      ∧ (∀ i, i < 72 → (s.isle i).dstate = .on → (s.isle i).change = none → u.isle i = s.isle i) ∧ u.med = s.med ∧ u.cnv = s.cnv))
  ∧ (∀ (s : State), s.pat.eff.sideband.wakeAddr = true → present s.pat.eff islCTL = true → present s.pat.eff islSEC = true → (s.isle islCTL).dstate.asleep = true → (s.isle islSEC).dstate.asleep = true →
      s.thm.shutdown = false →
    Gives .sidebandAddressMatch s (fun u => (u.isle islCTL).change = some (.wake (s.isle islCTL).dstate 1) ∧ (u.isle islSEC).change = some (.wake (s.isle islSEC).dstate 1)
      ∧ (∀ j, j ≠ islCTL → j ≠ islSEC → u.isle j = s.isle j) ∧ u.pwr = { s.pwr with wakeSb := true } ∧ u = { s with isl := u.isl, pwr := u.pwr }))
  ∧ (∀ (s : State), s.pat.eff.sideband.wakeAddr = false → Gives .sidebandAddressMatch s (fun u => u = s))
  ∧ (∀ (s : State), s.pwr.timerArmed = true → present s.pat.eff islCTL = true → (s.isle islCTL).dstate.asleep = true → s.thm.shutdown = false →
    Gives .wakeTimerExpire s (fun u => (u.isle islCTL).change = some (.wake (s.isle islCTL).dstate 5) ∧ (∀ j, j ≠ islCTL → u.isle j = s.isle j)
      ∧ u.pwr = { s.pwr with timerArmed := false } ∧ u = { s with isl := u.isl, pwr := u.pwr }))
  ∧ (∀ (s : State), s.pwr.timerArmed = false → Gives .wakeTimerExpire s (fun u => u = s))

/-- A good conversion is stored, and two in a row at or beyond SHUT latch the thermal shutdown; a bad one fails its sensor with its cause, a Degraded fault, and a hold while the region throttles; the readings of a failed sensor only serve its retest; a hold ends after one second and a retest after ten, with the sensor back in service where no reading was bad; after a shutdown every domain but AON goes off, once no array operation runs. -/
def Obligations.SensorRows : Prop :=
  (∀ (s : State) (k raw : Nat) (t : Int), k < 48 → (s.sensor k).failed = false → (s.takeReading k (.value raw t)).1 = 0 →
    Gives (.sensorConversion k (.value raw t)) s (fun u => (u.sensor k).temp = t ∧ (u.sensor k).raw = raw ∧ (u.sensor k).read = true ∧ (u.sensor k).failed = false
      ∧ (u.sensor k).shutRun = (if t < s.pat.eff.thermal.shut * 16 then 0 else min 2 ((s.sensor k).shutRun + 1))
      ∧ (1 ≤ (s.sensor k).shutRun → s.pat.eff.thermal.shut * 16 ≤ t → u.thm.shutdown = true)
      ∧ (∀ j, j ≠ k → u.sensor j = s.sensor j)))
  ∧ (∀ (s : State) (k : Nat) (r : Reading), k < 48 → (s.sensor k).failed = false → (s.takeReading k r).1 ≠ 0 →
    Gives (.sensorConversion k r) s (fun u => (u.sensor k).failed = true ∧ (u.sensor k).cause = (s.takeReading k r).1 ∧ (u.sensor k).shutRun = 0
      ∧ (u.sensor k).holding = (s.region (sensorRegion k)).active ∧ (u.sensor k).heldAt = s.epoch
      ∧ { src := 760 + k, level := 2, detail := detail16 (s.takeReading k r).2.temp } ∈ u.flt.raised ∧ (∀ j, j ≠ k → u.sensor j = s.sensor j)))
  ∧ (∀ (s : State) (k : Nat), (s.takeReading k .error).1 = 1)
  ∧ (∀ (s : State) (k : Nat) (r : Reading), k < 48 → (s.sensor k).failed = true →
    Gives (.sensorConversion k r) s (fun u => u.sensor k = { (s.takeReading k r).2 with retestBad := (s.sensor k).retestBad || ((s.sensor k).retesting && (s.takeReading k r).1 != 0) }
      ∧ (∀ j, j ≠ k → u.sensor j = s.sensor j) ∧ u = { s with thm := { s.thm with sensors := u.thm.sensors } }))
  ∧ (∀ (s : State) (k : Nat), k < 48 → (s.sensor k).holding = true → (s.sensor k).heldAt + 10000 ≤ s.epoch →
    Gives (.sensorHoldExpire k) s (fun u => u.sensor k = { (s.sensor k) with holding := false } ∧ (∀ j, j ≠ k → u.sensor j = s.sensor j) ∧ u.age = s.age))
  ∧ (∀ (s : State) (k : Nat), k < 48 → ((s.sensor k).holding = false ∨ s.epoch < (s.sensor k).heldAt + 10000) → Gives (.sensorHoldExpire k) s (fun u => u = s))
  ∧ (∀ (s : State) (k v : Nat), k < 48 → v % 2 = 1 →
    Gives (.sensorRetest k v) s (fun u => u.sensor k = (if (s.sensor k).retestAct.busy = true then { (s.sensor k) with retestAct := (s.sensor k).retestAct.meet }
        else if (s.sensor k).failed = true then
          { (s.sensor k) with retestAct := wsRun, retesting := true, retestAt := s.epoch, retestBad := false, stuckSince := s.epoch, devSince := none }
        else { (s.sensor k) with retestAct := wsNow false }) ∧ (∀ j, j ≠ k → u.sensor j = s.sensor j) ∧ u = { s with thm := { s.thm with sensors := u.thm.sensors } }))
  ∧ (∀ (s : State) (k v : Nat), k < 48 → v % 2 = 0 → Gives (.sensorRetest k v) s (fun u => u = s))
  ∧ (∀ (s : State) (k : Nat), k < 48 → (s.sensor k).retesting = true → (s.sensor k).retestAt + 100000 ≤ s.epoch →
    Gives (.sensorRetestEnd k) s (fun u => (u.sensor k).retesting = false ∧ (u.sensor k).retestAct = (s.sensor k).retestAct.finish (!(s.sensor k).retestBad)
      ∧ (if (s.sensor k).retestBad = true then (u.sensor k).failed = (s.sensor k).failed ∧ u.flt = s.flt else (u.sensor k).failed = false ∧ (u.sensor k).cause = 0)
      ∧ (∀ j, j ≠ k → u.sensor j = s.sensor j) ∧ u.age = s.age))
  ∧ (∀ (s : State) (k : Nat), k < 48 → ((s.sensor k).retesting = false ∨ s.epoch < (s.sensor k).retestAt + 100000) → Gives (.sensorRetestEnd k) s (fun u => u = s))
  ∧ (∀ (s : State), s.thm.shutdown = true → (∀ e ∈ s.cnv.banks, e.2.cur = none) → s.holdup = false →
    Gives .thermalShutdownPowerOff s (fun u => (∀ i, 1 ≤ i → i < 72 → (u.isle i).dstate = .off ∧ (u.isle i).change = none ∧ (u.isle i).filled = false
        ∧ (u.isle i).avail = (if (s.isle i).avail = .isolated then .isolated else .waking) ∧ (isMcl i = true ∨ isDmi i = true → (u.isle i).sleepHold = true)) ∧ u.isle 0 = s.isle 0 ∧ u = { s with isl := u.isl }))
  ∧ (∀ (s : State), (s.thm.shutdown = false ∨ ∃ e ∈ s.cnv.banks, e.2.cur ≠ none) → Gives .thermalShutdownPowerOff s (fun u => u = s))

/-- The voltage request is confirmed with the points that waited for it, blocked after an unserved alert, or clamped to the measured SRAM supply; a lost power good is fatal; a lost reference clock enters the safe state; a fetch hold is set and released for a live slice only. -/
def Obligations.ElectricRows : Prop :=
  (∀ (s : State), Gives (.vreqAlert false) s (fun u => u = { s with glb := { s.glb with vreqAlertN := false } }))
  ∧ (∀ (s : State), s.glb.vreqBlocked = true →
    Gives (.vreqAlert true) s (fun u => u = { s with glb := { s.glb with vreqAlertN := true, vreqHighAt := if s.glb.vreqAlertN then s.glb.vreqHighAt else s.nowMs } }))
  ∧ (∀ (s : State), s.glb.vreqBlocked = false →
    Gives (.vreqAlert true) s (fun u => u.glb.vreqAlertN = true ∧ u.glb.vreqRaise = [] ∧ u.glb.vreqOk = u.glb.vreqCode ∧ u.glb.vreqCode ≤ s.glb.vreqCode ∧ u = { s with glb := u.glb, isl := u.isl }))
  ∧ (∀ (s : State), s.glb.vreqBlocked = false → s.glb.vreqRaise = [] → Gives (.vreqAlert true) s (fun u => u.isl = s.isl))
  ∧ (∀ (s : State), s.glb.vreqAlertN = false →
    Gives .vreqAlertTimeout s (fun u => u.glb.vreqBlocked = true ∧ u.glb.vreqRaise = [] ∧ u.glb.vreqCode = s.glb.vreqOk ∧ u.glb.vreqOk = s.glb.vreqOk
      ∧ (tval u.flt.srcs 886 : FltSrc).events = satAdd 32 (tval s.flt.srcs 886 : FltSrc).events 1))
  ∧ (∀ (s : State), s.glb.vreqAlertN = true → Gives .vreqAlertTimeout s (fun u => u = s))
  ∧ (∀ (s : State) (mv : Nat), Gives (.vddSramMeasure mv) s (fun u => u.glb.vddSramMv = mv
      ∧ (vreqMv s.glb.vreqCode ≤ (mv + 50) / 5 * 5 → u = { s with glb := { s.glb with vddSramMv := mv } })
      ∧ ((mv + 50) / 5 * 5 < vreqMv s.glb.vreqCode → u.glb.vreqCode = max 10 (min s.glb.vreqCode (((mv + 50) / 5 * 5 - 500) / 5)) ∧ u.glb.clampReported = true
          ∧ u = { s with glb := u.glb, isl := u.isl, flt := { s.flt with raised := u.flt.raised } })))
  ∧ (∀ (s : State) (i : Nat), i < 3 → (tval s.flt.srcs 886 : FltSrc).inHand s.nowMs = none →
    Gives (.powerGoodLoss i) s (fun u => i ∈ u.glb.pgLost ∧ u.flt.safe = true ∧ u.flt.fatal = true))
  ∧ (∀ (s : State), Gives .refclkLoss s (fun u => u.glb.refclk = false ∧ u.flt.safe = true))
  ∧ (∀ (s : State) (sl : Nat), sliceOk sl = true →
    Gives (.fetchHold sl) s (fun u => (if s.sliceGone sl = true then u.glb = { s.glb with holdAct := wsShown (sl + 2048) } ∧ u.sli = s.sli
        else u.slc sl = { (s.slc sl) with hold := true } ∧ u.glb = { s.glb with holdSlice := sl, holdSet := true, holdAct := wsNow true })
      ∧ (∀ j, j ≠ sl → u.slc j = s.slc j) ∧ u = { s with sli := u.sli, glb := u.glb })
    ∧ Gives (.fetchRelease sl) s (fun u => (if s.sliceGone sl = true then u.glb = { s.glb with holdAct := wsShown sl } ∧ u.sli = s.sli
        else u.slc sl = { (s.slc sl) with hold := false } ∧ u.glb = { s.glb with holdSlice := sl, holdSet := false, holdAct := wsNow true })
      ∧ (∀ j, j ≠ sl → u.slc j = s.slc j) ∧ u = { s with sli := u.sli, glb := u.glb }))

/-- A program or erase of an issuer that may give it starts or waits; from a host, in a protected sector, or on a page already programmed it is refused with its error code and changes no byte; a completed program stores its 256 bytes and no others, a completed erase makes its 64 KiB read FFh; one that fails its verify reports it, and a waiting erase starts next; an abort from firmware ends the operation and from a host only the identify view; a late sequence is dropped; the scrub rewrites the sector of a weak line, and takes a lost line from its second source or loses it and no other. -/
def Obligations.ArrayRows : Prop :=
  (∀ (s : State) (w : ArrayIssuer) (b g : Nat) (l : List Byte), issuerOk w = true → bankOk b = true → g < 65536 → l.length = 256 → isHost w = false →
      s.protectedSect b (pageSect g) = false → (s.sect (sectOf b (pageSect g))).progPages.contains (pageIn g) = false →
    Gives (.arrayProgram w b g l) s (fun u => (if (s.bank b).cur = none then
          (u.bank b).cur = some { who := w, op := 1, page := g, data := l } ∧ (u.bank b).progress = 0 ∧ (u.bank b).sector = pageSect g ∧ (u.bank b).queue = (s.bank b).queue
        else (u.bank b).cur = (s.bank b).cur ∧ (u.bank b).queue = (s.bank b).queue ++ [{ who := w, op := 1, page := g, data := l }])
      ∧ (u.bank b).errCode = (s.bank b).errCode ∧ (∀ e, e ≠ b → u.bank e = s.bank e) ∧ u = { s with cnv := { s.cnv with banks := u.cnv.banks } }))
  ∧ (∀ (s : State) (w : ArrayIssuer) (b g : Nat) (l : List Byte), issuerOk w = true → bankOk b = true → g < 65536 → l.length = 256 →
      (isHost w = true ∨ s.protectedSect b (pageSect g) = true ∨ (s.sect (sectOf b (pageSect g))).progPages.contains (pageIn g) = true) →
    Gives (.arrayProgram w b g l) s (fun u => (u.bank b).errCode = (if isHost w = true ∨ s.protectedSect b (pageSect g) = true then 2 else 3)
      ∧ (u.bank b).cur = (s.bank b).cur ∧ (u.bank b).queue = (s.bank b).queue ∧ u.cnv.bytes = s.cnv.bytes ∧ u.cnv.cnt = cnt64 s.cnv.cnt 6 1
      ∧ (∀ e, e ≠ b → u.bank e = s.bank e) ∧ u = { s with cnv := u.cnv }))
  ∧ (∀ (s : State) (w : ArrayIssuer) (b k : Nat), issuerOk w = true → bankOk b = true → k < 256 → isHost w = false → s.protectedSect b k = false →
    Gives (.arrayErase w b k) s (fun u => (if (s.bank b).cur = none then
          (u.bank b).cur = some { who := w, op := 2, page := k } ∧ (u.bank b).progress = 0 ∧ (u.bank b).sector = k
        else (u.bank b).cur = (s.bank b).cur ∧ (u.bank b).queue = (s.bank b).queue ++ [{ who := w, op := 2, page := k }])
      ∧ (∀ e, e ≠ b → u.bank e = s.bank e) ∧ u = { s with cnv := { s.cnv with banks := u.cnv.banks } }))
  ∧ (∀ (s : State) (w : ArrayIssuer) (b k : Nat), issuerOk w = true → bankOk b = true → k < 256 → (isHost w = true ∨ s.protectedSect b k = true) →
    Gives (.arrayErase w b k) s (fun u => (u.bank b).errCode = 2 ∧ (u.bank b).cur = (s.bank b).cur ∧ u.cnv.bytes = s.cnv.bytes ∧ u.cnv.sects = s.cnv.sects
      ∧ (∀ e, e ≠ b → u.bank e = s.bank e) ∧ u = { s with cnv := u.cnv }))
  ∧ (∀ (s : State) (w : ArrayIssuer) (b : Nat), issuerOk w = true → bankOk b = true →
    Gives (.arrayIdentify w b) s (fun u => w ∈ (u.bank b).views ∧ u.bank b = { (s.bank b) with views := (u.bank b).views } ∧ (∀ e, e ≠ b → u.bank e = s.bank e) ∧ u = { s with cnv := { s.cnv with banks := u.cnv.banks } }))
  ∧ (∀ (s : State) (w : ArrayIssuer) (b : Nat) (o : ArrOp), issuerOk w = true → bankOk b = true → isHost w = false → (s.bank b).cur = some o → (s.bank b).queue = [] →
    Gives (.arrayAbortReset w b) s (fun u => (u.bank b).cur = none ∧ (u.bank b).err = true ∧ (u.bank b).errCode = 4 ∧ w ∉ (u.bank b).views ∧ u.cnv.cnt = cnt64 s.cnv.cnt 5 1
      ∧ (∀ e, e ≠ b → u.bank e = s.bank e) ∧ (s.flt.wdogHold = false → u.flt = s.flt) ∧ u = { s with cnv := u.cnv, free := u.free, flt := u.flt }))
  ∧ (∀ (s : State) (w : ArrayIssuer) (b : Nat), issuerOk w = true → bankOk b = true → (s.bank b).cur = none →
    Gives (.arrayAbortReset w b) s (fun u => u.bank b = (s.bank b).dropView w ∧ (∀ e, e ≠ b → u.bank e = s.bank e) ∧ u = { s with cnv := { s.cnv with banks := u.cnv.banks } }))
  ∧ (∀ (s : State) (w : ArrayIssuer) (b : Nat), issuerOk w = true → bankOk b = true → isHost w = true →
    Gives (.arrayAbortReset w b) s (fun u => u.bank b = (s.bank b).dropView w ∧ w ∉ (u.bank b).views ∧ (∀ e, e ≠ b → u.bank e = s.bank e) ∧ u = { s with cnv := { s.cnv with banks := u.cnv.banks } }))
  ∧ (∀ (s : State) (b : Nat), bankOk b = true →
    Gives (.arraySequenceTimeout b) s (fun u => u.bank b = { (s.bank b) with seqStep := 0, errCode := 5 } ∧ (∀ e, e ≠ b → u.bank e = s.bank e) ∧ u = { s with cnv := { s.cnv with banks := u.cnv.banks } }))
  ∧ (∀ (s : State) (b g : Nat) (w : ArrayIssuer) (l : List Byte), bankOk b = true → ArrayCanonical s → (s.bank b).cur = some { who := w, op := 1, page := g, data := l } → l.length = 256 →
      (s.bank b).queue = [] →
    Gives (.arrayOperationComplete b true) s (fun u => (u.bank b).cur = none ∧ (u.bank b).progress = 100 ∧ (u.bank b).err = false ∧ (u.bank b).errCode = 0
      ∧ (∀ i, i < 256 → cellGet u.cnv.bytes (bankBase b + g * 256 + i) = l.getD i 0)
      ∧ (∀ a, (a < bankBase b + g * 256 ∨ bankBase b + g * 256 + 256 ≤ a) → cellGet u.cnv.bytes a = cellGet s.cnv.bytes a)
      ∧ pageIn g ∈ (u.sect (sectOf b (pageSect g))).progPages ∧ u.cnv.cnt = cnt64 s.cnv.cnt 1 1
      ∧ (∀ e, e ≠ b → u.bank e = s.bank e) ∧ (s.flt.wdogHold = false → u.flt = s.flt) ∧ u = { s with cnv := u.cnv, flt := u.flt }))
  ∧ (∀ (s : State) (b k : Nat) (w : ArrayIssuer) (l : List Byte), bankOk b = true → ArrayCanonical s → (s.bank b).cur = some { who := w, op := 2, page := k, data := l } →
      (s.bank b).queue = [] →
    Gives (.arrayOperationComplete b true) s (fun u => (u.bank b).cur = none ∧ (u.bank b).err = false
      ∧ (∀ i, i < 65536 → cellGet u.cnv.bytes (bankBase b + k * 65536 + i) = 0xFF)
      ∧ (∀ a, (a < bankBase b + k * 65536 ∨ bankBase b + k * 65536 + 65536 ≤ a) → cellGet u.cnv.bytes a = cellGet s.cnv.bytes a)
      ∧ u.sect (sectOf b k) = { erases := (s.sect (sectOf b k)).erases + 1, worn := (s.sect (sectOf b k)).worn || decide (10000 < (s.sect (sectOf b k)).erases + 1), progPages := [] }
      ∧ u.flt.raised = s.flt.raised ++ (if 10000 < (s.sect (sectOf b k)).erases + 1 then [{ src := 745, level := 1, detail := b + k * 65536 * 4 }] else [])
      ∧ (∀ e, e ≠ b → u.bank e = s.bank e)))
  ∧ (∀ (s : State) (b : Nat) (o : ArrOp), bankOk b = true → (s.bank b).cur = some o → (s.bank b).queue = [] →
    Gives (.arrayOperationComplete b false) s (fun u => (u.bank b).cur = none ∧ (u.bank b).progress = 100 ∧ (u.bank b).err = true ∧ (u.bank b).errCode = 1
      ∧ u.cnv.cnt = cnt64 s.cnv.cnt (if o.op = 1 then 3 else 4) 1 ∧ (∀ e, e ≠ b → u.bank e = s.bank e)))
  ∧ (∀ (s : State) (b : Nat) (o q : ArrOp) (t : List ArrOp) (ok : Bool), bankOk b = true → (s.bank b).cur = some o → (s.bank b).queue = q :: t → q.op = 2 →
    Gives (.arrayOperationComplete b ok) s (fun u => (u.bank b).cur = some q ∧ (u.bank b).queue = t ∧ (u.bank b).progress = 0 ∧ (u.bank b).sector = q.page ∧ (u.bank b).err = !ok))
  ∧ (∀ (s : State) (b : Nat) (ok : Bool), bankOk b = true → (s.bank b).cur = none → Gives (.arrayOperationComplete b ok) s (fun u => u = s))
  ∧ (∀ (s : State), Gives (.arrayScrub [] []) s (fun u => u = { s with cnv := { s.cnv with cnt := cnt64 s.cnv.cnt 9 1 } }))
  ∧ (∀ (s : State) (l : Nat), l < 2 ^ 20 → (s.sect (l / 1024)).erases < 10000 →
    Gives (.arrayScrub [l] []) s (fun u => u.sect (l / 1024) = { (s.sect (l / 1024)) with erases := (s.sect (l / 1024)).erases + 1 }
      ∧ (∀ n, n ≠ l / 1024 → u.sect n = s.sect n) ∧ u.cnv.bytes = s.cnv.bytes ∧ u = { s with cnv := { s.cnv with sects := u.cnv.sects, cnt := u.cnv.cnt } })
    ∧ (ArrayCanonical s → Gives (.arrayScrub [] [l]) s (fun u => (∀ a, (a < l * 64 ∨ l * 64 + 64 ≤ a) → cellGet u.cnv.bytes a = cellGet s.cnv.bytes a)
        ∧ (s.lineSource l = true → u.cnv.bytes = s.cnv.bytes ∧ u.fwu = s.fwu ∧ u.free = s.free) ∧ (lostRecords l = [] → u.flt = s.flt)
        ∧ u = { s with cnv := u.cnv, fwu := u.fwu, free := u.free, flt := { s.flt with plog := u.flt.plog } })))

/-- Power-on starts at step 8 with its cause, no session, command or queue, and slice 0 created; admin ready restores the recorded slices; media ready, once nothing holds it, makes controllers ready; the reset pin enters the safe state and its release starts again at step 8, device fatal after a thermal shutdown; at PFAIL_N fetching stops, and without hold-up relocations are abandoned. -/
def Obligations.StartRows : Prop :=
  (∀ (s : State) (b : BootIn), Gives (.powerOn b) s (fun u => u.glb.step = 8 ∧ u.glb.causePowerOn = true ∧ u.glb.causePin = false ∧ u.glb.adminReady = false ∧ u.glb.mediaReady = false
      ∧ u.glb.causeUnsafe = s.unsafeNow ∧ u.glb.tableOk = b.tableOk ∧ u.sec.sessions = [] ∧ u.cmd.ctxs = [] ∧ u.cmd.queues = [] ∧ u.epoch = 0
      ∧ u.mlf.powerCycles = s.mlf.powerCycles + 1 ∧ u.mlf.unsafeShut = s.mlf.unsafeShut + s.unsafeNow.toNat ∧ (u.slc 0).state = .created))
  ∧ (∀ (s : State), s.starting = true → s.glb.tableOk = true → s.glb.bare = false →
    Gives .adminReady s (fun u => u.glb = { s.glb with adminReady := true, step := 10, tAdminMs := s.sinceStart }
      ∧ (∀ e ∈ s.sli, e.2.kept = true → ∃ q, (e.1, q) ∈ u.sli ∧ q.state = .created ∧ q.kept = false ∧ q.template = e.2.template)
      ∧ u = { s with glb := u.glb, sli := u.sli, cmd := { s.cmd with ctrls := u.cmd.ctrls }, fwu := { s.fwu with imageMs := s.nowMs } }))
  ∧ (∀ (s : State), s.starting = true → Gives .adminReady s (fun u => u.glb.adminReady = true ∧ u.glb.step = 10 ∧ u.glb.tAdminMs = s.sinceStart))
  ∧ (∀ (s : State), s.starting = false → Gives .adminReady s (fun u => u = s))
  ∧ (∀ (s : State), s.glb.adminReady = true → s.glb.mediaReady = false → s.glb.bare = false → s.glb.devRstN = true → s.flt.safe = false → s.glb.pinStart = false → s.glb.notReady = [] →
    Gives .mediaReady s (fun u => u.glb = { s.glb with mediaReady := true, step := 13, tMediaMs := s.sinceStart }
      ∧ (∀ e ∈ s.cmd.ctrls, e.2.en = true → (e.1, { e.2 with rdy := true }) ∈ u.cmd.ctrls) ∧ u = { s with glb := u.glb, cmd := { s.cmd with ctrls := u.cmd.ctrls } }))
  ∧ (∀ (s : State), s.glb.adminReady = true → s.glb.mediaReady = false → s.glb.bare = false → s.glb.devRstN = true → s.flt.safe = false → s.mediaWaits = false →
    Gives .mediaReady s (fun u => u.glb.mediaReady = true ∧ u.glb.step = 13))
  ∧ (∀ (s : State), (s.glb.adminReady = false ∨ s.glb.mediaReady = true ∨ s.glb.bare = true ∨ s.glb.devRstN = false ∨ s.flt.safe = true ∨ s.mediaWaits = true) → Gives .mediaReady s (fun u => u = s))
  ∧ (∀ (s : State), Gives .deviceResetAssert s (fun u => (s.glb.devRstN = false → u = s) ∧ (s.glb.devRstN = true → u.glb = { s.glb with devRstN := false } ∧ u.flt.safe = true ∧ u.cnv = s.cnv)))
  ∧ (∀ (s : State) (b : BootIn), (s.glb.devRstN = true → Gives (.deviceResetRelease b) s (fun u => u = s))
    ∧ (s.glb.devRstN = false → s.thm.shutdown = false → Gives (.deviceResetRelease b) s (fun u => u.glb.devRstN = true ∧ u.glb.step = 8 ∧ u.glb.causePin = true ∧ u.glb.causePowerOn = false
        ∧ u.glb.pinCount = satAdd 16 s.glb.pinCount 1 ∧ u.sec.sessions = [] ∧ u.cmd.queues = [] ∧ u.mlf.powerCycles = s.mlf.powerCycles ∧ (u.slc 0).state = .created))
    ∧ (s.glb.devRstN = false → s.thm.shutdown = true → Gives (.deviceResetRelease b) s (fun u => u.glb.devRstN = true ∧ u.flt.safe = true ∧ u.flt.fatal = true)))
  ∧ (∀ (s : State) (l : Bool),
    Gives (.pfailAssert l) s (fun u => u.glb = { s.glb with pfailN := false } ∧ u.cmd.fetchStopAll = true ∧ u.cnv = s.cnv ∧ (s.holdup = false → u.med.relocs = [])))

/-- An allocation of 1 to 32,768 units within the limit of its slice gets its frames and a handle; other sizes are an invalid field, an exceeded limit is a quota error and missing frames an exhausted pool; a free takes the handle out of use, disables the BAR2 entries that map it, and completes once no job holds it. -/
def Obligations.ComputeMemoryRows : Prop :=
  (∀ (s t : State) (c h : Nat) (l : List Nat), ctxOk c = true → s.rowTurn c opCmAlloc = true → 1 ≤ (s.ctx c).sqe.cdw10.toNat → (s.ctx c).sqe.cdw10.toNat ≤ 32768 →
      (s.slc (s.ctx c).slice).shares.computeW ≠ 0 → s.cmRoom (s.ctx c).slice (s.ctx c).sqe.cdw10.toNat = true →
      s.allocFrames 5 0 (s.ctx c).slice (s.ctx c).sqe.cdw10.toNat = some (l, t) → (t.newHandle (s.ctx c).slice).1 = some h →
    Gives (.computeMemoryAllocate c) s (fun u => u.alloc? (s.ctx c).slice h = some { units := (s.ctx c).sqe.cdw10.toNat, frames := l }
      ∧ u.ctx c = { (s.ctx c) with stage := 13, wait := 0, outc := some (okOut h) } ∧ (∀ e, e ≠ c → u.ctx e = s.ctx e) ∧ u.flt = s.flt ∧ u.med = s.med))
  ∧ (∀ (s : State) (c : Nat), ctxOk c = true → s.rowTurn c opCmAlloc = true →
    Gives (.computeMemoryAllocate c) s (fun u =>
      ((s.ctx c).sqe.cdw10.toNat = 0 ∨ 32768 < (s.ctx c).sqe.cdw10.toNat → AtCommit c (errOut .invalidField) u)
      ∧ (1 ≤ (s.ctx c).sqe.cdw10.toNat → (s.ctx c).sqe.cdw10.toNat ≤ 32768 → ((s.slc (s.ctx c).slice).shares.computeW = 0 ∨ s.cmRoom (s.ctx c).slice (s.ctx c).sqe.cdw10.toNat = false) →
          AtCommit c (errOut .quotaExceeded) u)
      ∧ (1 ≤ (s.ctx c).sqe.cdw10.toNat → (s.ctx c).sqe.cdw10.toNat ≤ 32768 → (s.slc (s.ctx c).slice).shares.computeW ≠ 0 → s.cmRoom (s.ctx c).slice (s.ctx c).sqe.cdw10.toNat = true →
          s.allocFrames 5 0 (s.ctx c).slice (s.ctx c).sqe.cdw10.toNat = none → AtCommit c (errOut .poolExhausted) u)))
  ∧ (∀ (s : State) (c h : Nat) (a : Alloc), ctxOk c = true → s.rowTurn c opCmFree = true → (s.ctx c).sqe.cdw10.toNat % 65536 = h → s.alloc? (s.ctx c).slice h = some a →
      a.isProg = false → a.freeing = false → (s.slc (s.ctx c).slice).shares.computeW ≠ 0 →
    Gives (.computeMemoryFree c) s (fun u => u.alloc? (s.ctx c).slice h = some { a with freeing := true, waiter := some c }
      ∧ u.ctx c = { (s.ctx c) with stage := 9, wait := 0 } ∧ (∀ e, e ≠ c → u.ctx e = s.ctx e)
      ∧ (∀ p ∈ u.ports, ∀ b ∈ p.2.bar2, b.2.slice = (s.ctx c).slice → b.2.handle = h → b.2.en = false)
      ∧ u = { s with cmd := { s.cmd with ctxs := u.cmd.ctxs }, cpx := { s.cpx with allocs := u.cpx.allocs }, ports := u.ports }))
  ∧ (∀ (s : State) (c : Nat), ctxOk c = true → s.rowTurn c opCmFree = true → s.alloc? (s.ctx c).slice ((s.ctx c).sqe.cdw10.toNat % 65536) = none →
    Gives (.computeMemoryFree c) s (AtCommit c (errOut .invalidField)))
  ∧ (∀ (s : State) (c : Nat) (a : Alloc), ctxOk c = true → s.rowTurn c opCmFree = true → s.alloc? (s.ctx c).slice ((s.ctx c).sqe.cdw10.toNat % 65536) = some a → (a.isProg = true ∨ a.freeing = true) →
    Gives (.computeMemoryFree c) s (AtCommit c (errOut .invalidField)))
  ∧ (∀ (s : State) (sl h c : Nat) (a : Alloc), sliceOk sl = true → h < 65536 → s.alloc? sl h = some a → a.freeing = true → s.handleHeld sl h = false → a.waiter = some c → (s.ctx? c).isSome = true →
    Gives (if a.isProg then .programUnloadDrained sl h else .computeFreeDrained sl h) s (fun u => u.alloc? sl h = none ∧ AtCommit c (okOut 0) u))
  ∧ (∀ (s : State) (sl h c : Nat) (a : Alloc), sliceOk sl = true → h < 65536 → s.alloc? sl h = some a → a.freeing = true → s.handleHeld sl h = false → a.frames = [] →
      a.waiter = some c → (s.ctx? c).isSome = true →
    Gives (if a.isProg then .programUnloadDrained sl h else .computeFreeDrained sl h) s (fun u => u.alloc? sl h = none ∧ u.ctx c = { (s.ctx c) with stage := 13, wait := 0, outc := some (okOut 0) } ∧ (∀ e, e ≠ c → u.ctx e = s.ctx e)
      ∧ u = { s with cmd := { s.cmd with ctxs := u.cmd.ctxs }, cpx := { s.cpx with allocs := u.cpx.allocs } }))
  ∧ (∀ (s : State) (sl h : Nat), sliceOk sl = true → h < 65536 → s.handleHeld sl h = true → Gives (.computeFreeDrained sl h) s (fun u => u = s) ∧ Gives (.programUnloadDrained sl h) s (fun u => u = s))

/-- A good piece of an image is kept and a bad one is an invalid field; a commit checks the image, reports the failing check and its header, and loads a good one within the limit of programs; a discard drops the sequence; an unloaded program cannot be named again. -/
def Obligations.ProgramRows : Prop :=
  (∀ (s : State) (c : Nat) (d : List Byte), ctxOk c = true → s.progLoadTurn c 0 = true → (s.slc (s.ctx c).slice).shares.computeW ≠ 0 → d.length = (s.ctx c).sqe.cdw12.toNat →
      pieceOk (tval s.cpx.loads (s.ctx c).slice : LoadSeq).bytes.length (s.ctx c).sqe.cdw11.toNat (s.ctx c).sqe.cdw12.toNat = true →
      ((tget s.cpx.loads (s.ctx c).slice).isSome = true ∨ (s.ctx c).sqe.cdw11.toNat = 0) →
    Gives (.programLoadTransfer c d) s (fun u => u.ctx c = { (s.ctx c) with stage := 13, wait := 0, outc := some (okOut 0) } ∧ (∀ e, e ≠ c → u.ctx e = s.ctx e)
      ∧ (tval u.cpx.loads (s.ctx c).slice : LoadSeq).bytes = (if (s.ctx c).sqe.cdw11.toNat = 0 then d else (tval s.cpx.loads (s.ctx c).slice : LoadSeq).bytes ++ d)
      ∧ u = { s with cmd := { s.cmd with ctxs := u.cmd.ctxs }, cpx := { s.cpx with loads := u.cpx.loads } }))
  ∧ (∀ (s : State) (c : Nat) (d : List Byte), ctxOk c = true → s.progLoadTurn c 0 = true →
      pieceOk (tval s.cpx.loads (s.ctx c).slice : LoadSeq).bytes.length (s.ctx c).sqe.cdw11.toNat (s.ctx c).sqe.cdw12.toNat = false →
    Gives (.programLoadTransfer c d) s (AtCommit c (errOut .invalidField)))
  ∧ (∀ (s t : State) (c h : Nat) (l : List Nat) (b : List Byte), ctxOk c = true → s.progLoadTurn c 1 = true → (s.slc (s.ctx c).slice).shares.computeW ≠ 0 →
      (tval s.cpx.loads (s.ctx c).slice : LoadSeq).bytes = b → imageErr b = none → s.progCount (s.ctx c).slice < 64 → s.cmRoom (s.ctx c).slice (ceilDiv b.length (2 ^ 22)) = true →
      State.allocFrames { s with cpx := { s.cpx with loads := tdel s.cpx.loads (s.ctx c).slice } } 5 0 (s.ctx c).slice (ceilDiv b.length (2 ^ 22)) = some (l, t) →
      (t.newHandle (s.ctx c).slice).1 = some h →
    Gives (.programLoadCommit c) s (fun u => u.alloc? (s.ctx c).slice h = some { units := ceilDiv b.length (2 ^ 22), frames := l, isProg := true, image := b, stackKib := (elfStack b).getD 0, entry := u64 b 24 }
      ∧ tget u.cpx.loads (s.ctx c).slice = none ∧ u.ctx c = { (s.ctx c) with stage := 13, wait := 0, outc := some (okOut h) } ∧ (∀ e, e ≠ c → u.ctx e = s.ctx e)))
  ∧ (∀ (s : State) (c : Nat) (e : Nat × Nat), ctxOk c = true → s.progLoadTurn c 1 = true → imageErr (tval s.cpx.loads (s.ctx c).slice : LoadSeq).bytes = some e →
    Gives (.programLoadCommit c) s (AtCommit c { sv := stv .invalidField, dw0 := e.1 + e.2 * 65536 }))
  ∧ (∀ (s : State) (c : Nat), ctxOk c = true → s.progLoadTurn c 1 = true → imageErr (tval s.cpx.loads (s.ctx c).slice : LoadSeq).bytes = none → ((s.slc (s.ctx c).slice).shares.computeW = 0 ∨ 64 ≤ s.progCount (s.ctx c).slice) →
    Gives (.programLoadCommit c) s (AtCommit c (errOut .quotaExceeded)))
  ∧ (∀ (s : State) (c : Nat), ctxOk c = true → s.progLoadTurn c 2 = true → (s.slc (s.ctx c).slice).shares.computeW ≠ 0 →
    Gives (.programLoadDiscard c) s (fun u => u.ctx c = { (s.ctx c) with stage := 13, wait := 0, outc := some (okOut 0) } ∧ (∀ e, e ≠ c → u.ctx e = s.ctx e) ∧ tget u.cpx.loads (s.ctx c).slice = none
      ∧ u = { s with cmd := { s.cmd with ctxs := u.cmd.ctxs }, cpx := { s.cpx with loads := u.cpx.loads } }))
  ∧ (∀ (s : State) (c h : Nat) (a : Alloc), ctxOk c = true → s.rowTurn c opProgUnload = true → (s.ctx c).sqe.cdw10.toNat % 65536 = h → s.prog? (s.ctx c).slice h = some a →
      (s.slc (s.ctx c).slice).shares.computeW ≠ 0 →
    Gives (.programUnload c) s (fun u => u.alloc? (s.ctx c).slice h = some { a with freeing := true, waiter := some c } ∧ u.ctx c = { (s.ctx c) with stage := 9, wait := 0 } ∧ (∀ e, e ≠ c → u.ctx e = s.ctx e)
      ∧ u.prog? (s.ctx c).slice h = none))
  ∧ (∀ (s : State) (c : Nat), ctxOk c = true → s.rowTurn c opProgUnload = true → s.prog? (s.ctx c).slice ((s.ctx c).sqe.cdw10.toNat % 65536) = none →
    Gives (.programUnload c) s (AtCommit c (errOut .invalidField)))

/-- A job is refused with its check's outcome or admitted with its descriptor; its time quota ends it once it has passed, and not before; each finished work unit is recorded and the last one gives the job its output and the byte count it completes with; a program job gets all its cores at once; a weave step writes its cells and nothing else. -/
def Obligations.JobRows : Prop :=
  (∀ (s : State) (c : Nat) (d l a : Option (List Byte)) (o : Outc), ctxOk c = true → s.rowTurn c opJob = true → (s.ctx c).stage = 3 →
      s.jobStage3 (s.ctx c).slice (s.ctx c).sqe d l a = .error o →
    Gives (.job c d l a) s (AtCommit c o))
  ∧ (∀ (s : State) (c : Nat) (d l a : Option (List Byte)) (j : JobDesc), ctxOk c = true → s.rowTurn c opJob = true → (s.ctx c).stage = 3 →
      s.jobStage3 (s.ctx c).slice (s.ctx c).sqe d l a = .ok j → (s.slc (s.ctx c).slice).shares.computeW ≠ 0 → (s.ctx c).nsid = 0 → j.outNsid = 0 → j.inLbas = [] →
      j.outKind < 3 → s.lockBlocker { (s.ctx c) with lockR := hull 0 j.inRanges } = none →
    Gives (.job c d l a) s (fun u => (u.ctx c).stage = 8 ∧ (u.ctx c).route = j.route ∧ (u.ctx c).units = [] ∧ (u.job c).desc = j ∧ (u.job c).cores = [] ∧ (∀ e, e ≠ c → u.ctx e = s.ctx e) ∧ u.med = s.med))
  ∧ (∀ (s : State) (c : Nat), ctxOk c = true → s.jobLive c = true → s.jobOverTime c = true → (s.job c).desc.kind ≠ 6 → s.flt.safe = false →
    Gives (.jobTimeQuotaExpire c) s (AtCommit c { sv := { st := .quotaExceeded, dnr := true } }))
  ∧ (∀ (s : State) (c : Nat), ctxOk c = true → (s.jobLive c = false ∨ s.jobOverTime c = false ∨ (s.job c).desc.kind = 6 ∨ s.flt.safe = true) → Gives (.jobTimeQuotaExpire c) s (fun u => u = s))
  ∧ (∀ (s t : State) (c k m : Nat), ctxOk c = true → s.flt.safe = false → s.jobLive c = true → (s.ctx c).stage = 11 → (s.job c).desc.kind ≠ 2 → t = (s.takeEngines c).wakeJob c →
      t.hasEngines11 c = true → t.jobAwake c = true → (s.job c).raced = [] → m < (s.jobRun c).flow.units → m ≠ k → (s.job c).units.contains m = false →
    Gives (.engineUnitComplete c k) s (fun u => (u.job c).units = insertNat (s.job c).units k ∧ (u.ctx c).stage = 11 ∧ (u.job c).done = (s.job c).done ∧ u.med = s.med ∧ u.flt = s.flt))
  ∧ (∀ (s t : State) (c k : Nat), ctxOk c = true → s.flt.safe = false → s.jobLive c = true → (s.ctx c).stage = 11 → (s.job c).desc.kind ≠ 2 → (s.job c).desc.outKind < 3 → t = (s.takeEngines c).wakeJob c →
      t.hasEngines11 c = true → t.jobAwake c = true → (s.job c).raced = [] → (∀ m, m < (s.jobRun c).flow.units → m = k ∨ (s.job c).units.contains m = true) → (s.jobRun c).flow.stop = none →
    Gives (.engineUnitComplete c k) s (fun u => AtCommit c (bytesOutc {} (s.jobRun c).flow.bytes.length) u ∧ (u.job c).done = true ∧ (u.job c).out = (s.jobRun c).flow.bytes
      ∧ (u.job c).recOut = (s.jobRun c).flow.recOut ∧ u.med = s.med))
  ∧ (∀ (s t : State) (c k : Nat), ctxOk c = true → s.flt.safe = false → s.jobLive c = true → (s.ctx c).stage = 11 → (s.job c).desc.kind ≠ 2 → (s.job c).desc.outKind < 3 → t = (s.takeEngines c).wakeJob c →
      t.hasEngines11 c = true → t.jobAwake c = true →
    Gives (.engineUnitComplete c k) s (fun u => ((u.ctx c).stage = 11 ∧ (u.job c).units = insertNat (s.job c).units k) ∨ ((u.ctx c).stage = 13 ∧ (u.ctx c).outc ≠ none)))
  ∧ (∀ (s t v : State) (c : Nat) (cs fs : List Nat), ctxOk c = true → s.flt.safe = false → s.jobLive c = true → (s.ctx c).stage = 11 → (s.job c).desc.kind = 2 → (s.job c).cores = [] → s.coreTurn c = true →
      t = s.takeEngines c → t.hasEngines11 c = true → t.pickCores (s.job c).desc.cores = some cs →
      (s.job c).desc.cores * ((s.alloc? (s.ctx c).slice (s.job c).desc.prog).getD {}).stackKib * 1024 ≤ (s.job c).desc.memBytes →
      t.allocFrames 5 (0x8000 + cs.headD 0) (s.ctx c).slice (ceilDiv (s.job c).desc.memMib 4) = some (fs, v) → (v.progInput c).flow.stop = none →
    Gives (.coresGranted c) s (fun u => (u.job c).cores = (List.range cs.length).map (fun i => startCore (s.job c).desc ((s.alloc? (s.ctx c).slice (s.job c).desc.prog).getD {}) (cs.getD i 0) i)
      ∧ (∀ k ∈ cs, (tval u.cpx.cores k : EngUnit).busy = true ∧ (tval u.cpx.cores k : EngUnit).ctx = c)
      ∧ (tget (u.job c).views 0).isSome = true ∧ u.flt = s.flt ∧ u.med = s.med))
  ∧ (∀ (s : State) (c : Nat), ctxOk c = true → s.flt.safe = true → Gives (.coresGranted c) s (fun u => u = s) ∧ (∀ k, Gives (.engineUnitComplete c k) s (fun u => u = s)))
  ∧ (∀ (s : State) (h w : Nat) (l : List Nat) (p : WeavePanel) (d : WeaveDir), h < 2 → w < 16 → (if h = 0 then s.pat.eff.weave0 else s.pat.eff.weave1) = some p → weaveDir? s.pat.eff h w = some d →
      (tval s.wvf h : Half).loaded = true → (tget (tval s.wvf h : Half).busy w).isSome = true → s.flt.safe = false →
    Gives (.weaveStep h w l) s (fun u => (tval u.wvf h : Half) = { (tval s.wvf h : Half) with cells := (weaveStep p d (tval s.wvf h : Half).cells ((l.take d.inputs).map (fun x => some (w32 x)))).1 }
      ∧ (∀ k, k ≠ h → (tval u.wvf k : Half) = tval s.wvf k) ∧ u = { s with wvf := u.wvf }))

/-- A view opens on a free port over an extent of the job or returns -1; the next chunk blocks the core until it arrives, and the end returns length 0; an arriving chunk holds the bytes of its place in the stream, with its frame, and wakes the call; a released one is gone; the length of an extent is returned, -1 for none. -/
def Obligations.StreamCallRows : Prop :=
  (∀ (s : State) (k c i : Nat) (p e o n : Nat), k < 128 → s.coreRuns k = some (c, i) → 1 ≤ p → p < 8 → tget (s.job c).views p = none → e < (s.job c).desc.exts.length → o + n ≤ ((s.job c).desc.exts.getD e {}).len →
    Gives (.syscallViewOpen k p e o n) s (fun u => tget (u.job c).views p = some { core := k, ext := e, off := o, len := n } ∧ (∃ v : Nat, v < 2 ^ 63 ∧ ((u.job c).cores.getD i {}) = ((s.job c).cores.getD i {}).ret (s.atCall c i) v)
      ∧ (∀ q, q ≠ p → tget (u.job c).views q = tget (s.job c).views q) ∧ (∀ e, e ≠ c → u.job e = s.job e) ∧ u = { s with cpx := { s.cpx with jobs := u.cpx.jobs }, free := u.free }))
  ∧ (∀ (s : State) (k c i : Nat) (p e o n : Nat), k < 128 → s.coreRuns k = some (c, i) → (p = 0 ∨ 8 ≤ p ∨ (tget (s.job c).views p).isSome = true ∨ (s.job c).desc.exts.length ≤ e ∨ ((s.job c).desc.exts.getD e {}).len < o + n) →
    Gives (.syscallViewOpen k p e o n) s (fun u => ((u.job c).cores.getD i {}) = ((s.job c).cores.getD i {}).ret (s.atCall c i) (-1) ∧ (∀ e, e ≠ c → u.job e = s.job e) ∧ u = { s with cpx := { s.cpx with jobs := u.cpx.jobs }, free := u.free }))
  ∧ (∀ (s : State) (k c i : Nat) (p : Nat), k < 128 → s.coreRuns k = some (c, i) → portMine (s.job c) k p = false → Gives (.syscallViewNext k p) s (fun u => ((u.job c).cores.getD i {}) = ((s.job c).cores.getD i {}).ret (s.atCall c i) (-1) ∧ (∀ e, e ≠ c → u.job e = s.job e) ∧ u = { s with cpx := { s.cpx with jobs := u.cpx.jobs }, free := u.free }))
  ∧ (∀ (s : State) (k c i : Nat) (p : Nat), k < 128 → s.coreRuns k = some (c, i) → portMine (s.job c) k p = true → 64 ≤ (tval (s.job c).views p : View).chunks.length → Gives (.syscallViewNext k p) s (fun u => ((u.job c).cores.getD i {}) = ((s.job c).cores.getD i {}).ret (s.atCall c i) (-2) ∧ (∀ e, e ≠ c → u.job e = s.job e) ∧ u = { s with cpx := { s.cpx with jobs := u.cpx.jobs }, free := u.free }))
  ∧ (∀ (s : State) (k c i : Nat) (p : Nat), k < 128 → s.coreRuns k = some (c, i) → portMine (s.job c) k p = true → (tval (s.job c).views p : View).chunks.length < 64 →
    Gives (.syscallViewNext k p) s (fun u => (if (tval (s.job c).views p : View).len ≤ (tval (s.job c).views p : View).pos then (∃ v : Nat, v < 2 ^ 63 ∧ ((u.job c).cores.getD i {}) = (((s.job c).cores.getD i {}).ret (s.atCall c i) v).setX 11 0)
        else tval (u.job c).views p = { (tval (s.job c).views p : View) with blocked := true } ∧ (u.job c).cores = (s.job c).cores) ∧ (∀ e, e ≠ c → u.job e = s.job e) ∧ u = { s with cpx := { s.cpx with jobs := u.cpx.jobs }, free := u.free }))
  ∧ (∀ (s : State) (k c i : Nat) (p n h : Nat) (v : View) (t : State), k < 128 → p < 8 → s.coreJob k = some (c, i) → tget (s.job c).views p = some v → v.blocked = true → v.core = k → 1 ≤ n → n ≤ 2 ^ 20 →
      v.pos + n ≤ v.len → (4096 ≤ n ∨ v.pos + n = v.len) → s.allocFrame 4 (0x8000 + ((s.job c).cores.headD {}).core) (s.ctx c).slice false = some (h, t) →
    Gives (.viewChunkArrive k p n) s (fun u => (∃ a : Nat, tval (u.job c).views p = { v with blocked := false, pos := v.pos + n, chunks := v.chunks ++ [(a, h)], data := tset v.data a (slice (s.viewBytes c p v) (v.off + v.pos) n) }
        ∧ ((u.job c).cores.getD i {}) = (((s.job c).cores.getD i {}).ret (s.atCall c i) a).setX 11 n) ∧ (u.job c).frames = (s.job c).frames ++ [h]
      ∧ (∀ e, e ≠ c → u.job e = s.job e) ∧ u = { s with cpx := { s.cpx with jobs := u.cpx.jobs }, bpm := u.bpm, free := u.free }))
  ∧ (∀ (s : State) (k c i : Nat) (p a h : Nat), k < 128 → s.coreRuns k = some (c, i) → portMine (s.job c) k p = true → tget (tval (s.job c).views p : View).chunks a = some h → s.bpm.stalls = [] →
    Gives (.syscallViewRelease k p a) s (fun u => tget (tval (u.job c).views p : View).chunks a = none ∧ tget (tval (u.job c).views p : View).data a = none
      ∧ (u.job c).frames = (s.job c).frames.erase h ∧ (∃ v : Nat, v < 2 ^ 63 ∧ ((u.job c).cores.getD i {}) = ((s.job c).cores.getD i {}).ret (s.atCall c i) v)
      ∧ (∀ e, e ≠ c → u.job e = s.job e) ∧ u = { s with cpx := { s.cpx with jobs := u.cpx.jobs }, bpm := u.bpm, mic := { s.mic with mems := u.mic.mems }, flt := { s.flt with raised := u.flt.raised }, free := u.free }))
  ∧ (∀ (s : State) (k c i : Nat) (p a : Nat), k < 128 → s.coreRuns k = some (c, i) → (portMine (s.job c) k p = false ∨ tget (tval (s.job c).views p : View).chunks a = none) → Gives (.syscallViewRelease k p a) s (fun u => ((u.job c).cores.getD i {}) = ((s.job c).cores.getD i {}).ret (s.atCall c i) (-1) ∧ (∀ e, e ≠ c → u.job e = s.job e) ∧ u = { s with cpx := { s.cpx with jobs := u.cpx.jobs }, free := u.free }))
  ∧ (∀ (s : State) (k c i : Nat) (e : Nat), k < 128 → s.coreRuns k = some (c, i) → Gives (.syscallExtentLen k e) s (fun u => ((u.job c).cores.getD i {}) = ((s.job c).cores.getD i {}).ret (s.atCall c i) (match (s.job c).desc.exts[e]? with | none => (-1 : Int) | some x => (x.len : Int)) ∧ (∀ e, e ≠ c → u.job e = s.job e) ∧ u = { s with cpx := { s.cpx with jobs := u.cpx.jobs }, free := u.free }))

/-- A compute memory range is mapped into a free window and its handle held, or the call fails with its code; an unmap ends the windows at its address and touches no byte; host memory is reached only with the three grants, at most 16 MiB at a time and only from and to memory the core may use; data read lies where it was asked for in scratch and private memory, data written is sent with the PASID of the slice; a refused translation ends the job with Program Fault and records it; an invalidation drops the cached translations of its range. -/
def Obligations.MapCallRows : Prop :=
  (∀ (s : State) (k c i : Nat) (h o n : Nat), k < 128 → s.coreRuns k = some (c, i) → (s.cmRange (s.ctx c).slice h o n = false ∨ n = 0) → Gives (.syscallCmMap k h o n) s (fun u => ((u.job c).cores.getD i {}) = ((s.job c).cores.getD i {}).ret (s.atCall c i) (-1) ∧ (∀ e, e ≠ c → u.job e = s.job e) ∧ u = { s with cpx := { s.cpx with jobs := u.cpx.jobs }, free := u.free }))
  ∧ (∀ (s : State) (k c i : Nat) (h o n : Nat), k < 128 → s.coreRuns k = some (c, i) → s.cmRange (s.ctx c).slice h o n = true → 1 ≤ n → s.writersOf (s.ctx c).slice c = [] →
    Gives (.syscallCmMap k h o n) s (fun u => (((u.job c).cores.getD i {}) = ((s.job c).cores.getD i {}).ret (s.atCall c i) (-3) ∧ (u.job c).windows = (s.job c).windows
        ∨ (∃ b : Nat, (s.job c).nextWin ≤ b ∧ b + n ≤ 0x10000000000 ∧ ((u.job c).cores.getD i {}) = ((s.job c).cores.getD i {}).ret (s.atCall c i) b ∧ (u.job c).windows = (s.job c).windows ++ [(b, n, h, o)] ∧ (u.job c).handles.contains h = true)) ∧ (∀ e, e ≠ c → u.job e = s.job e) ∧ u = { s with cpx := { s.cpx with jobs := u.cpx.jobs }, free := u.free }))
  ∧ (∀ (s : State) (k c i : Nat) (h o n : Nat), k < 128 → s.coreRuns k = some (c, i) → s.cmRange (s.ctx c).slice h o n = true → 1 ≤ n →
    Gives (.syscallCmMap k h o n) s (fun u => (((u.job c).cores.getD i {}) = ((s.job c).cores.getD i {}).ret (s.atCall c i) (-3) ∧ (u.job c).windows = (s.job c).windows
        ∨ (∃ b : Nat, (s.job c).nextWin ≤ b ∧ b + n ≤ 0x10000000000 ∧ ((u.job c).cores.getD i {}) = ((s.job c).cores.getD i {}).ret (s.atCall c i) b ∧ (u.job c).windows = (s.job c).windows ++ [(b, n, h, o)] ∧ (u.job c).handles.contains h = true))
      ∧ (∀ e, e ≠ c → (u.job e).desc = (s.job e).desc ∧ (u.job e).windows = (s.job e).windows ∧ (u.job e).out = (s.job e).out)
      ∧ u = { s with cpx := { s.cpx with jobs := u.cpx.jobs, allocs := u.cpx.allocs }, free := u.free }))
  ∧ (∀ (s : State) (k c i : Nat) (a : Nat), k < 128 → s.coreRuns k = some (c, i) →
    Gives (.syscallCmUnmap k a) s (fun u => (if (s.job c).windows.any (fun w => w.1 == a) = true then (u.job c).windows = (s.job c).windows.filter (fun w => w.1 != a) ∧ (∃ v : Nat, v < 2 ^ 63 ∧ ((u.job c).cores.getD i {}) = ((s.job c).cores.getD i {}).ret (s.atCall c i) v)
        else ((u.job c).cores.getD i {}) = ((s.job c).cores.getD i {}).ret (s.atCall c i) (-1) ∧ (u.job c).windows = (s.job c).windows) ∧ (∀ e, e ≠ c → u.job e = s.job e) ∧ u = { s with cpx := { s.cpx with jobs := u.cpx.jobs }, free := u.free }))
  ∧ (∀ (s : State) (k c i : Nat) (a g : Nat) (d : Option (List Byte)), k < 128 → s.coreRuns k = some (c, i) → s.atsOk c = false → Gives (.syscallHostRead k a g d) s (fun u => ((u.job c).cores.getD i {}) = ((s.job c).cores.getD i {}).ret (s.atCall c i) (-4) ∧ (∀ e, e ≠ c → u.job e = s.job e) ∧ u = { s with cpx := { s.cpx with jobs := u.cpx.jobs }, free := u.free }))
  ∧ (∀ (s : State) (k c i : Nat) (a g : Nat) (d : List Byte) (b : Bool), k < 128 → s.coreRuns k = some (c, i) → s.atsOk c = false → Gives (.syscallHostWrite k a g d b) s (fun u => ((u.job c).cores.getD i {}) = ((s.job c).cores.getD i {}).ret (s.atCall c i) (-4) ∧ (∀ e, e ≠ c → u.job e = s.job e) ∧ u = { s with cpx := { s.cpx with jobs := u.cpx.jobs }, free := u.free }))
  ∧ (∀ (s : State) (k c i : Nat) (a g : Nat) (d : List Byte), k < 128 → s.coreRuns k = some (c, i) → s.atsOk c = true → (2 ^ 24 < d.length ∨ s.sandWritable c a d.length = false) → Gives (.syscallHostRead k a g (some d)) s (fun u => ((u.job c).cores.getD i {}) = ((s.job c).cores.getD i {}).ret (s.atCall c i) (-1) ∧ (∀ e, e ≠ c → u.job e = s.job e) ∧ u = { s with cpx := { s.cpx with jobs := u.cpx.jobs }, free := u.free }))
  ∧ (∀ (s : State) (k c i : Nat) (a g : Nat) (d : List Byte) (b : Bool), k < 128 → s.coreRuns k = some (c, i) → s.atsOk c = true → (2 ^ 24 < d.length ∨ s.sandReadable c i a d.length = false) → Gives (.syscallHostWrite k a g d b) s (fun u => ((u.job c).cores.getD i {}) = ((s.job c).cores.getD i {}).ret (s.atCall c i) (-1) ∧ (∀ e, e ≠ c → u.job e = s.job e) ∧ u = { s with cpx := { s.cpx with jobs := u.cpx.jobs }, free := u.free }))
  ∧ (∀ (s : State) (k c i : Nat) (a g : Nat) (d : List Byte), k < 128 → s.coreRuns k = some (c, i) → s.atsOk c = true → d.length ≤ 2 ^ 24 → s.sandWritable c a d.length = true →
    Gives (.syscallHostRead k a g (some d)) s (fun u => 0 ≤ ((u.job c).cores.getD i {}).a0 ∧ (∀ e, e ≠ c → u.job e = s.job e) ∧ (∀ q, q ≠ (s.ctx c).port → u.port q = s.port q)
      ∧ ((s.job c).windows = [] → (∀ m, m < d.length → s.sandOwn c (a + m) = true) →
          (∀ m, m < d.length → u.sandByte c i (a + m) = some (d.getD m 0)) ∧ (∀ q, (∀ m, m < d.length → q ≠ sandKey i (a + m)) → tgetD (u.job c).mem q 0 = tgetD (s.job c).mem q 0) ∧ u.cpx.allocs = s.cpx.allocs)
      ∧ u = { s with cpx := { s.cpx with jobs := u.cpx.jobs, allocs := u.cpx.allocs }, ports := u.ports, free := u.free }))
  ∧ (∀ (s : State) (k c i : Nat) (a g : Nat) (d : List Byte), k < 128 → s.coreRuns k = some (c, i) → s.atsOk c = true → d.length ≤ 2 ^ 24 → s.sandReadable c i a d.length = true →
    Gives (.syscallHostWrite k a g d true) s (fun u => (let w : HostWrite := { ctx := c, data := .bytes d, pasid := s.dmaPasid (s.ctx c).port (s.ctx c).slice }
        if (s.port (s.ctx c).port).tlpHeld = true then (u.port (s.ctx c).port).heldData = (s.port (s.ctx c).port).heldData ++ [w] ∧ u.host = s.host
        else u.host.data = s.host.data ++ [w]) ∧ (∃ v : Nat, v < 2 ^ 63 ∧ ((u.job c).cores.getD i {}) = ((s.job c).cores.getD i {}).ret (s.atCall c i) v) ∧ (∀ e, e ≠ c → u.job e = s.job e) ∧ (∀ q, q ≠ (s.ctx c).port → u.port q = s.port q)
      ∧ u = { s with cpx := { s.cpx with jobs := u.cpx.jobs }, ports := u.ports, host := { s.host with data := u.host.data }, free := u.free }))
  ∧ (∀ (s : State) (k c i : Nat) (a g : Nat) (d : List Byte), k < 128 → s.coreRuns k = some (c, i) → s.atsOk c = true →
    Gives (.syscallHostRead k a g none) s (fun u => AtCommit c { sv := { st := .programFault, dnr := true } } u ∧ (tval u.cpx.slices (s.ctx c).slice : UpcSlice).cause = 0xF1 ∧ (tval u.cpx.slices (s.ctx c).slice : UpcSlice).tval = g ∧ (tval u.cpx.slices (s.ctx c).slice : UpcSlice).valid = true)
    ∧ (d.length ≤ 2 ^ 24 → s.sandReadable c i a d.length = true →
        Gives (.syscallHostWrite k a g d false) s (fun u => AtCommit c { sv := { st := .programFault, dnr := true } } u ∧ (tval u.cpx.slices (s.ctx c).slice : UpcSlice).cause = 0xF1 ∧ (tval u.cpx.slices (s.ctx c).slice : UpcSlice).tval = g ∧ (tval u.cpx.slices (s.ctx c).slice : UpcSlice).valid = true)))
  ∧ (∀ (s : State) (p a n : Nat), portOk p = true →
    Gives (.atsInvalidation p a n) s (fun u => u.port p = { (s.port p) with atc := (s.port p).atc.filter (fun e => !byteOverlap (e.1 * 4096) 4096 a n) }
      ∧ (∀ q, q ≠ p → u.port q = s.port q) ∧ u = { s with ports := u.ports }))

/-- A core that exits is marked, and the last exit ends the work of the program; a fail call or a trap ends the job with Program Fault and is recorded for the slice; emitted bytes are appended to the output of the core, and end the job where held output passes MEM_MIB or finds no frame; a barrier holds its core until every running core has reached it; record counts are set; a call of a core that runs no job or waits does nothing. -/
def Obligations.CoreCallRows : Prop :=
  (∀ (s : State) (k c i : Nat), k < 128 → s.coreRuns k = some (c, i) → (∀ p ∈ (s.job c).cores, p.output = [] ∧ p.held = []) → (∃ m, m < (s.job c).cores.length ∧ m ≠ i ∧ ((s.job c).cores.getD m {}).exited = false ∧ ((s.job c).cores.getD m {}).barrier = false) →
    Gives (.syscallExit k) s (fun u => ((u.job c).cores.getD i {}) = { ((s.job c).cores.getD i {}) with exited := true } ∧ (∀ m, m ≠ i → (u.job c).cores.getD m {} = (s.job c).cores.getD m {}) ∧ (∀ e, e ≠ c → u.job e = s.job e)
      ∧ u = { s with cpx := { s.cpx with jobs := u.cpx.jobs } }))
  ∧ (∀ (s : State) (k c i : Nat), k < 128 → s.coreRuns k = some (c, i) → (s.job c).desc.outKind < 3 → (∀ m, m < (s.job c).cores.length → m ≠ i → ((s.job c).cores.getD m {}).exited = true) →
    Gives (.syscallExit k) s (fun u => (u.ctx c).stage = 13 ∧ (u.ctx c).outc ≠ none))
  ∧ (∀ (s : State) (k c i : Nat) (v a : Nat), k < 128 → s.coreRuns k = some (c, i) → v < 2 ^ 32 → a < 2 ^ 64 →
    Gives (.syscallFail k v a) s (fun u => AtCommit c { sv := { st := .programFault, dnr := true } } u
      ∧ (tval u.cpx.slices (s.ctx c).slice : UpcSlice) = { (tval s.cpx.slices (s.ctx c).slice : UpcSlice) with cause := 0xF0, index := i, valid := true, prog := (s.job c).desc.prog, code := v, pc := a, tval := 0 }))
  ∧ (∀ (s : State) (k c i : Nat) (d : List Byte) (t : State), k < 128 → s.coreRuns k = some (c, i) → heldOutput ((s.modCore c i (fun p => { (p.ret (s.atCall c i) d.length) with output := p.output ++ d })).job c).cores ≤ (s.job c).desc.memMib * 2 ^ 20 → (s.modCore c i (fun p => { (p.ret (s.atCall c i) d.length) with output := p.output ++ d })).holdOutputs c = some t →
      ((s.job c).desc.outKind = 0 ∨ (flowed ((s.modCore c i (fun p => { (p.ret (s.atCall c i) d.length) with output := p.output ++ d })).job c).cores).length ≤ s.outRoom c) →
    Gives (.syscallEmit k d) s (fun u => ((u.job c).cores.getD i {}).output = ((s.job c).cores.getD i {}).output ++ d ∧ ((u.job c).cores.getD i {}).hart = (((s.job c).cores.getD i {}).ret (s.atCall c i) d.length).hart
      ∧ (∀ m, m ≠ i → ((u.job c).cores.getD m {}).output = ((s.job c).cores.getD m {}).output ∧ ((u.job c).cores.getD m {}).hart = ((s.job c).cores.getD m {}).hart) ∧ u = t))
  ∧ (∀ (s : State) (k c i : Nat) (d : List Byte), k < 128 → s.coreRuns k = some (c, i) → (s.job c).desc.memMib * 2 ^ 20 < heldOutput ((s.modCore c i (fun p => { (p.ret (s.atCall c i) d.length) with output := p.output ++ d })).job c).cores →
    Gives (.syscallEmit k d) s (AtCommit c { sv := { st := .quotaExceeded, dnr := true } }))
  ∧ (∀ (s : State) (k c i : Nat) (d : List Byte), k < 128 → s.coreRuns k = some (c, i) → heldOutput ((s.modCore c i (fun p => { (p.ret (s.atCall c i) d.length) with output := p.output ++ d })).job c).cores ≤ (s.job c).desc.memMib * 2 ^ 20 → (s.modCore c i (fun p => { (p.ret (s.atCall c i) d.length) with output := p.output ++ d })).holdOutputs c = none →
    Gives (.syscallEmit k d) s (AtCommit c (errOut .poolExhausted)))
  ∧ (∀ (s : State) (k c i : Nat), k < 128 → s.coreRuns k = some (c, i) → (∃ m, m < (s.job c).cores.length ∧ m ≠ i ∧ ((s.job c).cores.getD m {}).exited = false ∧ ((s.job c).cores.getD m {}).barrier = false) →
    Gives (.syscallBarrier k) s (fun u => (∃ v : Nat, v < 2 ^ 63 ∧ ((u.job c).cores.getD i {}) = { (((s.job c).cores.getD i {}).ret (s.atCall c i) v) with barrier := true }) ∧ (∀ m, m ≠ i → (u.job c).cores.getD m {} = (s.job c).cores.getD m {}) ∧ (∀ e, e ≠ c → u.job e = s.job e) ∧ u = { s with cpx := { s.cpx with jobs := u.cpx.jobs }, free := u.free }))
  ∧ (∀ (s : State) (k c i : Nat), k < 128 → s.coreRuns k = some (c, i) → (∀ m, m < (s.job c).cores.length → m ≠ i → ((s.job c).cores.getD m {}).exited = true ∨ ((s.job c).cores.getD m {}).barrier = true) →
    Gives (.syscallBarrier k) s (fun u => (∀ p ∈ (u.job c).cores, p.barrier = false) ∧ (u.job c).cores.length = (s.job c).cores.length ∧ (∀ e, e ≠ c → u.job e = s.job e) ∧ u = { s with cpx := { s.cpx with jobs := u.cpx.jobs }, free := u.free }))
  ∧ (∀ (s : State) (k c i : Nat) (a b : Nat), k < 128 → s.coreRuns k = some (c, i) →
    Gives (.syscallSetCounts k a b) s (fun u => (u.job c).recIn = a ∧ (u.job c).recOut = b ∧ (∃ v : Nat, v < 2 ^ 63 ∧ ((u.job c).cores.getD i {}) = ((s.job c).cores.getD i {}).ret (s.atCall c i) v) ∧ (∀ e, e ≠ c → u.job e = s.job e) ∧ u = { s with cpx := { s.cpx with jobs := u.cpx.jobs }, free := u.free }))
  ∧ (∀ (s : State) (k c i : Nat) (x a v : Nat), k < 128 → s.coreJob k = some (c, i) → x < 256 →
    Gives (.programTrap k x a v) s (fun u => AtCommit c { sv := { st := .programFault, dnr := true } } u
      ∧ (tval u.cpx.slices (s.ctx c).slice : UpcSlice) = { (tval s.cpx.slices (s.ctx c).slice : UpcSlice) with cause := x, index := i, valid := true, prog := (s.job c).desc.prog, code := 0, pc := a, tval := v }))
  ∧ (∀ (s : State) (k x a v : Nat) (d : List Byte), k < 128 → (s.coreJob k = none → Gives (.programTrap k x a v) s (fun u => u = s))
    ∧ (s.coreRuns k = none → Gives (.syscallExit k) s (fun u => u = s) ∧ Gives (.syscallFail k x a) s (fun u => u = s) ∧ Gives (.syscallEmit k d) s (fun u => u = s)
        ∧ Gives (.syscallBarrier k) s (fun u => u = s) ∧ Gives (.syscallSetCounts k x a) s (fun u => u = s)))

/-- The job lanes, compute limit, ATS grant and ordered queue registers take a value their rules allow and report done, and otherwise keep their value and report refused; a halted ordered queue resumes, a queue that is not halted reports refused, and in the safe state or on a page that does not answer nothing changes. -/
def Obligations.ConfigRows : Prop :=
  (∀ (s : State) (n : Nat), n < 16 → Gives (.jobLanesConfig n) s (fun u => u = { s with cpx := if 1 ≤ n ∧ n ≤ 8 then { s.cpx with lanes := n, lanesAct := wsNow true } else { s.cpx with lanesAct := wsNow false } }))
  ∧ (∀ (s : State) (sl n : Nat), sliceOk sl = true → n < 2 ^ 18 →
    Gives (.computeLimitConfig sl n) s (fun u => (tval u.cpx.slices sl : UpcSlice) = (if n ≤ 131072 then { (tval s.cpx.slices sl : UpcSlice) with lim := n, limAct := wsNow true }
        else { (tval s.cpx.slices sl : UpcSlice) with limAct := wsShown n }) ∧ (∀ j, j ≠ sl → (tval u.cpx.slices j : UpcSlice) = tval s.cpx.slices j) ∧ u = { s with cpx := { s.cpx with slices := u.cpx.slices } }))
  ∧ (∀ (s : State) (sl v : Nat), sliceOk sl = true →
    Gives (.atsGrant sl v) s (fun u => (tval u.cpx.slices sl : UpcSlice) = (if v % 2 = 0 ∨ (s.tmpl sl).ats = true then { (tval s.cpx.slices sl : UpcSlice) with atsGrant := v % 2 == 1, grantAct := wsNow true }
        else { (tval s.cpx.slices sl : UpcSlice) with grantAct := wsShown (v % 2) }) ∧ (∀ j, j ≠ sl → (tval u.cpx.slices j : UpcSlice) = tval s.cpx.slices j) ∧ u = { s with cpx := { s.cpx with slices := u.cpx.slices } }))
  ∧ (∀ (s : State) (q e sl i : Nat), q < 64 → sl < 2048 → i < 65536 →
    Gives (.oqConfig q e sl i) s (fun u => u.oq q = (if s.oqRefused q (e % 2 == 1) sl i = true then { (s.oq q) with cfgAct := wsNow false }
        else { en := e % 2 == 1, slice := sl, sqid := i, cfgAct := wsNow true, halts := if e % 2 = 1 ∧ (s.oq q).en = true then (s.oq q).halts else 0 })
      ∧ (∀ j, j ≠ q → u.oq j = s.oq j) ∧ u = { s with cmd := { s.cmd with oqs := u.cmd.oqs } }))
  ∧ (∀ (s : State) (p sl i j : Nat), portSliceOk p sl = true → s.liveOn p sl = true → s.flt.safe = false → i < 65536 →
      tfind s.cmd.oqs (fun _ o => o.en && o.halted && o.slice == sl && o.sqid == i) = some j →
    Gives (.oqResume p sl i) s (fun u => u.oq j = { (s.oq j) with halted := false } ∧ (∀ k, k ≠ j → u.oq k = s.oq k)
      ∧ u.ctrl (ctrlKey p sl) = { (s.ctrl (ctrlKey p sl)) with resumeAct := wsNow true, resumeSqid := i } ∧ u = { s with cmd := { s.cmd with oqs := u.cmd.oqs, ctrls := u.cmd.ctrls } }))
  ∧ (∀ (s : State) (p sl i : Nat), portSliceOk p sl = true → s.liveOn p sl = true → s.flt.safe = false → i < 65536 → (∀ e ∈ s.cmd.oqs, ¬ (e.2.slice = sl ∧ e.2.sqid = i ∧ e.2.halted = true)) →
    Gives (.oqResume p sl i) s (fun u => u.ctrl (ctrlKey p sl) = { (s.ctrl (ctrlKey p sl)) with resumeAct := wsNow false, resumeSqid := i }
      ∧ u = { s with cmd := { s.cmd with ctrls := u.cmd.ctrls } }))
  ∧ (∀ (s : State) (p sl i : Nat), portSliceOk p sl = true → (s.liveOn p sl = false ∨ s.flt.safe = true) → Gives (.oqResume p sl i) s (fun u => u = s))

/-- While the path from the sideband port is open: a message that fails its check is dropped; the endpoint ID is read, and its response is held while responses are paused; setting the ID ends the sideband sessions and no other; an admin message that may not run is answered with its status; Pause pauses responses and Resume sends those held; a message of NVMe-MI is not answered where the Pattern has none. -/
def Obligations.SidebandRows : Prop :=
  (∀ (s : State) (e : Nat) (m : SbMsg), e < 256 → s.sbPath = (true, s) → Gives (.sidebandMessage e m false) s (fun u => u = s))
  ∧ (∀ (s : State) (e : Nat), e < 256 → s.sbPath = (true, s) → s.sb.paused = false →
    Gives (.sidebandMessage e .getEid true) s (fun u => u = { s with sb := { s.sb with lastResp := some (e, okOut s.sb.eid, .none) }, host := { s.host with sideband := s.host.sideband ++ [(e, okOut s.sb.eid, .none)] } }))
  ∧ (∀ (s : State) (e : Nat), e < 256 → s.sbPath = (true, s) → s.sb.paused = true →
    Gives (.sidebandMessage e .getEid true) s (fun u => u = { s with sb := { s.sb with lastResp := some (e, okOut s.sb.eid, .none), held := s.sb.held ++ [(e, okOut s.sb.eid, .none)] } }))
  ∧ (∀ (s : State) (e v : Nat), e < 256 → s.sbPath = (true, s) → 1 ≤ v → v < 255 → s.sb.paused = false →
    Gives (.sidebandMessage e (.setEid v) true) s (fun u => u.sb.eid = v ∧ u.host.sideband = s.host.sideband ++ [(e, okOut v, .none)]
      ∧ (∀ x ∈ u.sec.sessions, ∀ n, x.2.who ≠ .mctp n) ∧ (∀ x ∈ s.sec.sessions, (∀ n, x.2.who ≠ .mctp n) → x ∈ u.sec.sessions)
      ∧ u = { s with sb := u.sb, sec := { s.sec with sessions := u.sec.sessions }, host := { s.host with sideband := u.host.sideband } }))
  ∧ (∀ (s : State) (e : Nat) (q : Sqe) (d : List Byte) (m : PlanMeas) (x : St), e < 256 → s.sbPath = (true, s) → s.pat.eff.sideband.mi = true → s.sb.paused = false → s.sbErr e q = some x →
    Gives (.sidebandMessage e (.admin q d m) true) s (fun u => u.host.sideband = s.host.sideband ++ [(e, errOut x, .none)]
      ∧ u = { s with sb := { s.sb with lastResp := u.sb.lastResp }, host := { s.host with sideband := u.host.sideband } }))
  ∧ (∀ (s : State) (e : Nat), e < 256 → s.sbPath = (true, s) → s.pat.eff.sideband.mi = true →
    Gives (.sidebandMessage e (.control 0) true) s (fun u => u = { s with sb := { s.sb with paused := true }, host := { s.host with sideband := s.host.sideband ++ [(e, okOut 0, .none)] } })
    ∧ Gives (.sidebandMessage e (.control 1) true) s (fun u => u.sb = { s.sb with paused := false, held := [] }
        ∧ u.host.sideband = s.host.sideband ++ s.sb.held ++ [(e, okOut 0, .none)] ∧ u = { s with sb := u.sb, host := { s.host with sideband := u.host.sideband } }))
  ∧ (∀ (s : State) (e : Nat) (m : SbMsg), e < 256 → sbIsMi m = true → s.pat.eff.sideband.mi = false → s.sbPath = (true, s) → Gives (.sidebandMessage e m true) s (fun u => u = s))

/-- A write of FLT_ACK, of the keeper request, of the job lanes, of the spare threshold and of an island floor has the effect of its command; FLT_INT holds its vectors; the event bits of PWR_EVT clear where 1 is written and stay otherwise; an access narrower than 4 bytes to a page register or the management space, or a write beyond the windows, is a Note of HFE; a port the Pattern does not have takes no write, and an address past BAR0 is the fault outsideBar0; a byte at the first sequence address of code array bank 0 starts a sequence with 5Ah only and changes no byte of the array. -/
def Obligations.RegisterRows : Prop :=
  (∀ (s : State) (p a w v : Nat), 2 ^ 29 ≤ a → exec (.registerWrite p a w v) s = .fault .outsideBar0)
  ∧ (∀ (s : State) (p a w v : Nat), a < 2 ^ 29 → portOk p = true → s.hasPort p = false → Gives (.registerWrite p a w v) s (fun u => u = s))
  ∧ (∀ (s : State) (p v : Nat), portOk p = true → s.hasPort p = true → AllAwake [islAON, islCTL, islHFE, islCMI] s → v < 2 ^ 64 →
    Gives (.registerWrite p 0x9100008 8 v) s (fun u => exec (.faultAck v) s = .next u))
  ∧ (∀ (s : State) (p v : Nat), portOk p = true → s.hasPort p = true → AllAwake [islAON, islCTL, islHFE, islCMI] s → v < 2 ^ 64 →
    Gives (.registerWrite p 0x9100010 8 v) s (fun u => u = { s with flt := { s.flt with vector := v % 2 ^ 11, evcVector := v / 2 ^ 16 % 2 ^ 11 } }))
  ∧ (∀ (s : State) (p v : Nat), portOk p = true → s.hasPort p = true → AllAwake [islAON, islCTL, islHFE, islCMI] s → v < 2 ^ 64 →
    Gives (.registerWrite p 0x9300008 8 v) s (fun u => exec (.keeperModeRequest (v % 2)) s = .next u)
    ∧ Gives (.registerWrite p 0x8800000 8 v) s (fun u => exec (.jobLanesConfig v) s = .next u)
    ∧ Gives (.registerWrite p 0x8700010 8 v) s (fun u => exec (.spareThresholdConfig v) s = .next u))
  ∧ (∀ (s : State) (p v : Nat), portOk p = true → s.hasPort p = true → AllAwake [islAON, islCTL, islHFE, islCMI] s → ∀ i, i < 72 → v < 2 ^ 64 →
    Gives (.registerWrite p (0x9301000 + 32 * i) 8 v) s (fun u => exec (.floorWrite i v) s = .next u))
  ∧ (∀ (s : State) (p v : Nat), portOk p = true → s.hasPort p = true → AllAwake [islAON, islCTL, islHFE, islCMI] s → v < 2 ^ 64 →
    Gives (.registerWrite p 0x9300010 8 v) s (fun u => u.pwr.brownout = (s.pwr.brownout && !bitAt v 0) ∧ u.pwr.lpRevert = (s.pwr.lpRevert && !bitAt v 1)
      ∧ u.pwr.wakeSb = (s.pwr.wakeSb && !bitAt v 2) ∧ u.pwr.wakeLink = (s.pwr.wakeLink && !bitAt v 3) ∧ u.pwr.wakeBay = (s.pwr.wakeBay && !bitAt v 4)
      ∧ u.pwr.lpRefused = (if s.pwr.brownout = true ∧ v % 2 = 1 then s.pwr.reqAct.act == .refused else s.pwr.lpRefused)
      ∧ u = { s with pwr := { s.pwr with brownout := u.pwr.brownout, lpRevert := u.pwr.lpRevert, wakeSb := u.pwr.wakeSb, wakeLink := u.pwr.wakeLink, wakeBay := u.pwr.wakeBay, lpRefused := u.pwr.lpRefused } }))
  ∧ (∀ (s : State) (p v : Nat), portOk p = true → s.hasPort p = true → (s.isle islHFE).dstate = .on → (s.isle islHFE).change = none → ∀ a w, (0x8000000 ≤ a ∧ a < 0xC000000 ∨ a < 0x8000000 ∧ (a % 0x10000 < 0x8000 ∨ 0x8FF0 ≤ a % 0x10000)) → 1 ≤ w → w < 4 →
    Gives (.registerWrite p a w v) s (fun u => u = { s with flt := { s.flt with raised := s.flt.raised ++ [{ src := 750, level := 0, detail := a }] } }))
  ∧ (∀ (s : State) (p v : Nat), portOk p = true → s.hasPort p = true → (s.isle islHFE).dstate = .on → (s.isle islHFE).change = none → ∀ a w, 0x10000000 ≤ a → a < 2 ^ 29 → 1 ≤ w → w ≤ 64 → Gives (.registerWrite p a w v) s (fun u => u = { s with flt := { s.flt with raised := s.flt.raised ++ [{ src := 750, level := 0, detail := a }] } }))
  ∧ (∀ (s : State) (p v : Nat), portOk p = true → s.hasPort p = true → (s.isle islHFE).dstate = .on → (s.isle islHFE).change = none → v < 256 → Gives (.registerWrite p 0xC00A5A0 1 v) s (fun u => ((s.bank 0).seqPort ≠ p ∨ (s.bank 0).seqStep = 0 → (u.bank 0).seqStep = if v = 0x5A then 1 else 0) ∧ u.cnv.bytes = s.cnv.bytes
      ∧ (∀ b, b ≠ 0 → u.bank b = s.bank b)))

/-- A step runs the front command with the rest of the queue; without one a running user core steps, else the block idles (a choice of the model, log 15). -/
def Obligations.StepRunsFrontCommand : Prop :=
  (∀ (c : Instr) (rest : List Instr) (s : State), s.pending = c :: rest → step s = exec c { s with pending := rest })
  ∧ (∀ s : State, s.pending = [] → s.runningCores = [] → step s = .next s)
  ∧ (∀ s : State, s.pending = [] → s.runningCores ≠ [] → ∃ k, k ∈ s.runningCores ∧ step s = .next (s.drawn.coreStep k))

/-- After reset no command waits, AON alone is on, slice 0 alone exists, nothing is fetched or in safe state, no session is open and the code array is erased (R305, R378; the erased array is the model's choice, log 2); the counters and the code array are in canonical form. -/
def Obligations.ResetState : Prop :=
  State.reset.pending = [] ∧ (State.reset.isle 0).dstate = .on ∧ (∀ i, i ≠ 0 → (State.reset.isle i).dstate = .off)
  ∧ (State.reset.slc 0).state = .created ∧ (∀ k, k ≠ 0 → (State.reset.slc k).state = .free)
  ∧ State.reset.cmd.ctxs = [] ∧ State.reset.cmd.fseq = 0 ∧ State.reset.flt.safe = false ∧ State.reset.sec.sessions = []
  ∧ CountersRising State.reset ∧ ArrayCanonical State.reset ∧ (∀ a, cellGet State.reset.cnv.bytes a = erasedByte)

/-- Every command whose units exist answers a next state, whatever the state; a command that names a unit the device does not have changes nothing; the only stop is the fault outsideBar0, of a register write at 512 MiB or above. -/
def Obligations.CommandsComplete : Prop :=
  (∀ (i : Instr) (s : State), i.wellFormed = true → Completes (exec i s))
  ∧ (∀ (i : Instr) (s : State), i.wellFormed = false → exec i s = .next s ∨ exec i s = .fault .outsideBar0)
  ∧ (∀ (i : Instr) (s : State), exec i s = .fault .outsideBar0 → ∃ p a w v, i = .registerWrite p a w v ∧ 2 ^ 29 ≤ a)

/-- Every step keeps the code array's memory in its canonical form. -/
def Obligations.StepKeepsArrayCanonical : Prop :=
  ∀ s t : State, ArrayCanonical s → step s = .next t → ArrayCanonical t

/-- Every step keeps the counters listed once each, in rising order. -/
def Obligations.StepKeepsCounterKeys : Prop :=
  ∀ s t : State, CountersRising s → step s = .next t → CountersRising t

/-- No command changes the queue of waiting commands. -/
def Obligations.CommandsLeaveQueue : Prop :=
  ∀ (i : Instr) (s t : State), exec i s = .next t → t.pending = s.pending

/-- Island 0 (AON) is always on, and no change of its state ever runs (R378): every step keeps this. -/
def Obligations.AonStaysOn : Prop :=
  ∀ s t : State, (s.isle 0).dstate = .on → (s.isle 0).change = none → step s = .next t → (t.isle 0).dstate = .on ∧ (t.isle 0).change = none

/-- Keys, sessions, challenges and the other security registers change only by the commands named. -/
def Obligations.SecurityStateFrame : Prop :=
  ∀ (i : Instr) (s t : State), exec i s = .next t →
    match i with
    | .registerWrite .. | .namespaceCreate .. | .namespaceDelete .. | .formatNvm .. | .sanitize .. | .sessionChallenge ..
    | .sessionOpen .. | .sessionClose .. | .challengeExpire .. | .keyLockoutExpire .. | .sliceCreate .. | .setKey ..
    | .clearKey .. | .sliceResetComplete .. | .resetDrainTimeout .. | .controllerEnable .. | .sliMgrPasidWrite .. | .sharedKeyConfig ..
    | .powerOn .. | .deviceResetRelease .. | .sidebandMessage .. => True
    | _ => t.sec = s.sec

/-- The code array with its registers (CNV), the event counters, the thermal state (THM) and the ageing state (AGE) are each changed by the named commands only; every other command leaves the whole of it as it was. -/
def Obligations.RegisterBlockFrames : Prop :=
  (∀ (i : Instr) (s t : State), exec i s = .next t →
    match i with
    | .registerWrite .. | .patternLoadTransfer .. | .patternLoadErase .. | .firmwareImageDownload .. | .firmwareCommitApply .. | .firmwareCommitApplyNext ..
    | .firmwareCommitActivate .. | .arrayProgram .. | .arrayErase .. | .arrayIdentify .. | .arrayAbortReset .. | .arraySequenceTimeout ..
    | .arrayOperationComplete .. | .arrayScrub .. | .powerOn .. | .deviceResetRelease .. | .sidebandMessage .. => True
    | _ => t.cnv = s.cnv)
  ∧ (∀ (i : Instr) (s t : State), exec i s = .next t →
    match i with
    | .registerWrite .. | .reloadDrainComplete .. | .counterEvent .. | .counterClear .. | .counterSnapshot .. | .powerOn ..
    | .deviceResetRelease .. => True
    | _ => t.ctrs = s.ctrs)
  ∧ (∀ (i : Instr) (s t : State), exec i s = .next t →
    match i with
    | .registerWrite .. | .epochStart .. | .setFeatures .. | .sensorConversion .. | .sensorHoldExpire .. | .sensorRetest ..
    | .sensorRetestEnd .. | .powerOn .. | .deviceResetRelease .. | .sidebandMessage .. => True
    | _ => t.thm = s.thm)
  ∧ (∀ (i : Instr) (s t : State), exec i s = .next t →
    match i with
    | .marginPlanRun .. | .pathMonitorSample .. | .marginReplanDue .. | .pendingIslandMeasure .. | .powerOn .. | .deviceResetRelease ..
    | .sidebandMessage .. => True
    | _ => t.age = s.age)

/-- SNAP copies a group's 16 counters at one instant, FREEZE stops and restarts them, and no counter of a frozen group counts an event. -/
def Obligations.CounterGroups : Prop :=
  (∀ (s : State) (p g v : Nat), portOk p = true → s.hasPort p = true → (s.isle islHFE).dstate = .on → (s.isle islHFE).change = none → (s.isle islCTL).dstate = .on → (s.isle islCTL).change = none → g < 64 → v < 2 ^ 64 →
    Gives (.registerWrite p (0x9210000 + 8 * g) 8 v) s (fun u =>
      (∀ k, u.ctr k = if v % 2 = 1 ∧ k / 16 = g then { (s.ctr k) with snap := (s.ctr k).cnt } else s.ctr k)
        ∧ u.grp g = { (s.grp g) with hit := w1c (s.grp g).hit (bitsAt v 4 16) 16, snapW := (s.grp g).snapW || bitAt v 0, frozen := bitAt v 1, act := wsNow true } ∧ (∀ j, j ≠ g → u.grp j = s.grp j) ∧ u = { s with ctrs := u.ctrs, grps := u.grps }))
  ∧ (∀ (s : State) (g : Nat), g < 64 →
    Gives (.counterSnapshot g) s (fun u => (∀ k, k / 16 = g → (u.ctr k).snap = (s.ctr k).cnt ∧ (u.ctr k).cnt = (s.ctr k).cnt) ∧ (∀ k, k / 16 ≠ g → u.ctr k = s.ctr k) ∧ u = { s with ctrs := u.ctrs, grps := u.grps })
    ∧ Gives (.counterFreeze g) s (fun u => (u.grp g).frozen = true ∧ (∀ j, j ≠ g → u.grp j = s.grp j) ∧ u = { s with grps := u.grps })
    ∧ Gives (.counterUnfreeze g) s (fun u => (u.grp g).frozen = false ∧ (∀ j, j ≠ g → u.grp j = s.grp j) ∧ u = { s with grps := u.grps }))
  ∧ (∀ (s : State) (x : Nat) (sl i : Option Nat) (l : Bool), x < 2048 → optOk sliceOk sl = true → optOk islOk i = true → CountersRising s →
    Gives (.counterEvent x sl i l) s (fun u =>
      (∀ k, (s.grp (k / 16)).frozen = true → u.ctr k = s.ctr k)
        ∧ (∀ k, (s.grp (k / 16)).frozen = false → (s.ctr k).takes x sl i l = true → (u.ctr k).cnt = ((s.ctr k).cnt + if l then 10 else 1) % 2 ^ 64)))

/-- Every command that is fetched takes the next number of one device-wide counter, whatever its queue. -/
def Obligations.FetchSequence : Prop :=
  ∀ (s : State) (dq c : Nat) (e : Sqe), dq ≤ 18432 → s.mayFetch dq = true → s.fetchTurn (s.queue dq) = true →
      s.fetchAwake ((s.queue dq).qid == 0) = true → s.ctxFor dq = some c →
    Gives (.sqFetch dq e) s (fun u => (u.ctx c).fseq = s.cmd.fseq ∧ u.cmd.fseq = s.cmd.fseq + 1)

/-- Eight Aborts of a slice may be outstanding, as Identify says; the ninth completes with Abort Command Limit Exceeded. -/
def Obligations.AbortLimit : Prop :=
  (∀ (s : State) (c : Nat), c < 65536 → s.adminTurn c 0x08 = true → 8 ≤ s.abortsBefore (s.ctx c) →
    Gives (.abort c) s (fun u => Ends c (errOut .abortLimit) s u ∧ u = { s with cmd := u.cmd }))
  ∧ (∀ (s : State) (c : Nat), c < 65536 → s.adminTurn c 0x08 = true → s.abortsBefore (s.ctx c) < 8 →
    Gives (.abort c) s (fun u => Ended c (okOut 0) u ∨ Ended c (okOut 1) u))
  ∧ (∀ (s : State) (sl p : Nat), ∃ l, s.idCtrl sl p = .part 4096 l ∧ (258, 1, 7) ∈ l)
end

