-- ==== Sys2Proof/Laws/Table.lean ====
section
/-! SUPPORT. The laws of sparse tables: what a read gives after a write or a removal. -/

namespace Sys2Proof.Machine

/-- A read after a write. -/
theorem tget_tset {α : Type} (t : Tbl α) (k j : Nat) (v : α) : tget (tset t k v) j = if j = k then some v else tget t j := by
  induction t with
  | nil => simp only [tset, tget]; split <;> simp_all [eq_comm]
  | cons e t ih =>
    obtain ⟨i, w⟩ := e
    simp only [tset]
    split
    · next h => subst h; simp only [tget]; split <;> simp_all [eq_comm]
    · next h =>
      split
      · simp only [tget]; split <;> simp_all [eq_comm]
      · simp only [tget, ih]
        by_cases hj : j = k
        · subst hj; simp [h]
        · simp [hj]

@[simp] theorem tget_tset_self {α : Type} (t : Tbl α) (k : Nat) (v : α) : tget (tset t k v) k = some v := by simp [tget_tset]

theorem tget_tset_ne {α : Type} (t : Tbl α) {k j : Nat} (v : α) (h : j ≠ k) : tget (tset t k v) j = tget t j := by simp [tget_tset, h]

theorem tval_tset {α : Type} [Inhabited α] (t : Tbl α) (k j : Nat) (v : α) : tval (tset t k v) j = if j = k then v else tval t j := by
  simp only [tval, tget_tset]; split <;> rfl

@[simp] theorem tval_tset_self {α : Type} [Inhabited α] (t : Tbl α) (k : Nat) (v : α) : tval (tset t k v) k = v := by simp [tval_tset]

theorem tval_tset_ne {α : Type} [Inhabited α] (t : Tbl α) {k j : Nat} (v : α) (h : j ≠ k) : tval (tset t k v) j = tval t j := by
  simp [tval_tset, h]

theorem tgetD_tset {α : Type} (t : Tbl α) (k j : Nat) (v d : α) : tgetD (tset t k v) j d = if j = k then v else tgetD t j d := by
  simp only [tgetD, tget_tset]; split <;> rfl

/-- A read after a removal. -/
theorem tget_tdel {α : Type} (t : Tbl α) (k j : Nat) : tget (tdel t k) j = if j = k then none else tget t j := by
  induction t with
  | nil => simp [tdel, tget]
  | cons e t ih =>
    obtain ⟨i, w⟩ := e
    simp only [tdel, List.filter_cons] at ih ⊢
    by_cases hi : i = k
    · subst hi
      simp only [bne_self_eq_false, Bool.false_eq_true, if_false, ih, tget]
      by_cases hj : j = i
      · simp [hj]
      · simp [hj, Ne.symm hj]
    · simp only [bne_iff_ne, ne_eq, hi, not_false_eq_true, if_true, tget, ih]
      by_cases hj : j = k
      · subst hj; simp [hi]
      · simp [hj]

@[simp] theorem tget_tdel_self {α : Type} (t : Tbl α) (k : Nat) : tget (tdel t k) k = none := by simp [tget_tdel]

theorem tval_tmod {α : Type} [Inhabited α] (t : Tbl α) (k j : Nat) (f : α → α) : tval (tmod t k f) j = if j = k then f (tval t k) else tval t j := by
  simp [tmod, tval_tset]

/-- A table read after a change of every entry. -/
theorem tget_tmap {α : Type} (t : Tbl α) (f : Nat → α → α) (k : Nat) : tget (tmap t f) k = (tget t k).map (f k) := by
  induction t with
  | nil => rfl
  | cons e t ih =>
    obtain ⟨i, w⟩ := e
    simp only [tmap, List.map_cons, tget] at ih ⊢
    split
    · next h => subst h; rfl
    · exact ih

/-- The keys after a write: those before and the one written. -/
theorem tset_keys {α : Type} (t : Tbl α) (k : Nat) (v : α) (j : Nat) : j ∈ (tset t k v).map (·.1) ↔ j = k ∨ j ∈ t.map (·.1) := by
  induction t with
  | nil => simp [tset]
  | cons e t ih =>
    obtain ⟨i, w⟩ := e
    simp only [tset]
    split
    · next h => subst h; simp
    · split
      · simp
      · simp only [List.map_cons, List.mem_cons, ih, or_left_comm]

/-- Keys that rise still rise after a write. -/
theorem tset_rising {α : Type} (t : Tbl α) (k : Nat) (v : α) (h : (t.map (·.1)).Pairwise (· < ·)) : ((tset t k v).map (·.1)).Pairwise (· < ·) := by
  induction t with
  | nil => simp [tset]
  | cons e t ih =>
    obtain ⟨i, w⟩ := e
    simp only [List.map_cons, List.pairwise_cons] at h
    simp only [tset]
    split
    · next e => subst e; simpa using h
    · split
      · next hk =>
        simp only [List.map_cons, List.pairwise_cons, List.mem_cons]
        exact ⟨fun a ha => ha.elim (fun e => e ▸ hk) (fun m => Nat.lt_trans hk (h.1 a m)), h⟩
      · simp only [List.map_cons, List.pairwise_cons]
        refine ⟨fun a ha => ?_, ih h.2⟩
        rcases (tset_keys t k v a).1 ha with e | m
        · omega
        · exact h.1 a m

end Sys2Proof.Machine
end

