-- ==== Sys2Proof/Laws/State.lean ====
section
/-! SUPPORT. The small laws of the state: what each write of one record changes, and what a read gives after it. -/

namespace Sys2Proof.Machine

/-- Two states are equal when all their parts are. -/
theorem State.ext_parts {a b : State} (h0 : a.pending = b.pending) (h1 : a.free = b.free) (h2 : a.host = b.host) (h3 : a.epoch = b.epoch) (h4 : a.pat = b.pat) (h5 : a.isl = b.isl) (h6 : a.routes = b.routes) 
    (h7 : a.dramMargin = b.dramMargin) (h8 : a.ports = b.ports) (h9 : a.trickle = b.trickle) (h10 : a.cmd = b.cmd) (h11 : a.zon = b.zon) (h12 : a.med = b.med) (h13 : a.mlf = b.mlf) 
    (h14 : a.cpx = b.cpx) (h15 : a.wvf = b.wvf) (h16 : a.bpm = b.bpm) (h17 : a.sli = b.sli) (h18 : a.sec = b.sec) (h19 : a.mic = b.mic) (h20 : a.flt = b.flt) 
    (h21 : a.ctrs = b.ctrs) (h22 : a.grps = b.grps) (h23 : a.pwr = b.pwr) (h24 : a.thm = b.thm) (h25 : a.age = b.age) (h26 : a.cnv = b.cnv) (h27 : a.fwu = b.fwu) 
    (h28 : a.glb = b.glb) (h29 : a.sb = b.sb) : a = b := by
  cases a; cases b; simp_all

@[simp] theorem State.setIsl_isl (s : State) (i : Nat) (v : Isl) : (State.setIsl s i v).isl = tset s.isl i v := rfl
/-- A read after the write. -/
theorem State.setIsl_read (s : State) (i : Nat) (v : Isl) (i' : Nat) : (State.setIsl s i v).isle i' = if i' = i then v else s.isle i' := by
  simp [State.setIsl, State.isle, tval_tset]
@[simp] theorem State.setPort_ports (s : State) (p : Nat) (v : Port) : (State.setPort s p v).ports = tset s.ports p v := rfl
/-- A read after the write. -/
theorem State.setPort_read (s : State) (p : Nat) (v : Port) (p' : Nat) : (State.setPort s p v).port p' = if p' = p then v else s.port p' := by
  simp [State.setPort, State.port, tval_tset]
@[simp] theorem State.setRoute_routes (s : State) (r : Nat) (v : RouteSlot) : (State.setRoute s r v).routes = tset s.routes r v := rfl
/-- A read after the write. -/
theorem State.setRoute_read (s : State) (r : Nat) (v : RouteSlot) (r' : Nat) : (State.setRoute s r v).route r' = if r' = r then v else s.route r' := by
  simp [State.setRoute, State.route, tval_tset]
@[simp] theorem State.setSli_sli (s : State) (n : Nat) (v : Sli) : (State.setSli s n v).sli = tset s.sli n v := rfl
/-- A read after the write. -/
theorem State.setSli_read (s : State) (n : Nat) (v : Sli) (n' : Nat) : (State.setSli s n v).slc n' = if n' = n then v else s.slc n' := by
  simp [State.setSli, State.slc, tval_tset]
@[simp] theorem State.setCtx_cmd_ctxs (s : State) (c : Nat) (v : Ctx) : (State.setCtx s c v).cmd.ctxs = tset s.cmd.ctxs c v := rfl
@[simp] theorem State.setCtx_cmd_rest (s : State) (c : Nat) (v : Ctx) :
    (State.setCtx s c v).cmd.ctxGen = s.cmd.ctxGen ∧ (State.setCtx s c v).cmd.fseq = s.cmd.fseq ∧ (State.setCtx s c v).cmd.queues = s.cmd.queues ∧ (State.setCtx s c v).cmd.qgen = s.cmd.qgen ∧ (State.setCtx s c v).cmd.oqs = s.cmd.oqs ∧ (State.setCtx s c v).cmd.ctrls = s.cmd.ctrls ∧ (State.setCtx s c v).cmd.cands = s.cmd.cands ∧ (State.setCtx s c v).cmd.streams = s.cmd.streams ∧ (State.setCtx s c v).cmd.nextStream = s.cmd.nextStream ∧ (State.setCtx s c v).cmd.cometStamp = s.cmd.cometStamp ∧ (State.setCtx s c v).cmd.dweRecorded = s.cmd.dweRecorded ∧ (State.setCtx s c v).cmd.fetchStopAll = s.cmd.fetchStopAll ∧ (State.setCtx s c v).cmd.activationPause = s.cmd.activationPause := by
  simp [State.setCtx]
/-- A read after the write. -/
theorem State.setCtx_read (s : State) (c : Nat) (v : Ctx) (c' : Nat) : (State.setCtx s c v).ctx c' = if c' = c then v else s.ctx c' := by
  simp [State.setCtx, State.ctx, tval_tset]
@[simp] theorem State.setQueue_cmd_queues (s : State) (q : Nat) (v : Queue) : (State.setQueue s q v).cmd.queues = tset s.cmd.queues q v := rfl
@[simp] theorem State.setQueue_cmd_rest (s : State) (q : Nat) (v : Queue) :
    (State.setQueue s q v).cmd.ctxs = s.cmd.ctxs ∧ (State.setQueue s q v).cmd.ctxGen = s.cmd.ctxGen ∧ (State.setQueue s q v).cmd.fseq = s.cmd.fseq ∧ (State.setQueue s q v).cmd.qgen = s.cmd.qgen ∧ (State.setQueue s q v).cmd.oqs = s.cmd.oqs ∧ (State.setQueue s q v).cmd.ctrls = s.cmd.ctrls ∧ (State.setQueue s q v).cmd.cands = s.cmd.cands ∧ (State.setQueue s q v).cmd.streams = s.cmd.streams ∧ (State.setQueue s q v).cmd.nextStream = s.cmd.nextStream ∧ (State.setQueue s q v).cmd.cometStamp = s.cmd.cometStamp ∧ (State.setQueue s q v).cmd.dweRecorded = s.cmd.dweRecorded ∧ (State.setQueue s q v).cmd.fetchStopAll = s.cmd.fetchStopAll ∧ (State.setQueue s q v).cmd.activationPause = s.cmd.activationPause := by
  simp [State.setQueue]
/-- A read after the write. -/
theorem State.setQueue_read (s : State) (q : Nat) (v : Queue) (q' : Nat) : (State.setQueue s q v).queue q' = if q' = q then v else s.queue q' := by
  simp [State.setQueue, State.queue, tval_tset]
@[simp] theorem State.setOq_cmd_oqs (s : State) (k : Nat) (v : Oq) : (State.setOq s k v).cmd.oqs = tset s.cmd.oqs k v := rfl
@[simp] theorem State.setOq_cmd_rest (s : State) (k : Nat) (v : Oq) :
    (State.setOq s k v).cmd.ctxs = s.cmd.ctxs ∧ (State.setOq s k v).cmd.ctxGen = s.cmd.ctxGen ∧ (State.setOq s k v).cmd.fseq = s.cmd.fseq ∧ (State.setOq s k v).cmd.queues = s.cmd.queues ∧ (State.setOq s k v).cmd.qgen = s.cmd.qgen ∧ (State.setOq s k v).cmd.ctrls = s.cmd.ctrls ∧ (State.setOq s k v).cmd.cands = s.cmd.cands ∧ (State.setOq s k v).cmd.streams = s.cmd.streams ∧ (State.setOq s k v).cmd.nextStream = s.cmd.nextStream ∧ (State.setOq s k v).cmd.cometStamp = s.cmd.cometStamp ∧ (State.setOq s k v).cmd.dweRecorded = s.cmd.dweRecorded ∧ (State.setOq s k v).cmd.fetchStopAll = s.cmd.fetchStopAll ∧ (State.setOq s k v).cmd.activationPause = s.cmd.activationPause := by
  simp [State.setOq]
/-- A read after the write. -/
theorem State.setOq_read (s : State) (k : Nat) (v : Oq) (k' : Nat) : (State.setOq s k v).oq k' = if k' = k then v else s.oq k' := by
  simp [State.setOq, State.oq, tval_tset]
@[simp] theorem State.setCtrl_cmd_ctrls (s : State) (k : Nat) (v : Ctrl) : (State.setCtrl s k v).cmd.ctrls = tset s.cmd.ctrls k v := rfl
@[simp] theorem State.setCtrl_cmd_rest (s : State) (k : Nat) (v : Ctrl) :
    (State.setCtrl s k v).cmd.ctxs = s.cmd.ctxs ∧ (State.setCtrl s k v).cmd.ctxGen = s.cmd.ctxGen ∧ (State.setCtrl s k v).cmd.fseq = s.cmd.fseq ∧ (State.setCtrl s k v).cmd.queues = s.cmd.queues ∧ (State.setCtrl s k v).cmd.qgen = s.cmd.qgen ∧ (State.setCtrl s k v).cmd.oqs = s.cmd.oqs ∧ (State.setCtrl s k v).cmd.cands = s.cmd.cands ∧ (State.setCtrl s k v).cmd.streams = s.cmd.streams ∧ (State.setCtrl s k v).cmd.nextStream = s.cmd.nextStream ∧ (State.setCtrl s k v).cmd.cometStamp = s.cmd.cometStamp ∧ (State.setCtrl s k v).cmd.dweRecorded = s.cmd.dweRecorded ∧ (State.setCtrl s k v).cmd.fetchStopAll = s.cmd.fetchStopAll ∧ (State.setCtrl s k v).cmd.activationPause = s.cmd.activationPause := by
  simp [State.setCtrl]
/-- A read after the write. -/
theorem State.setCtrl_read (s : State) (k : Nat) (v : Ctrl) (k' : Nat) : (State.setCtrl s k v).ctrl k' = if k' = k then v else s.ctrl k' := by
  simp [State.setCtrl, State.ctrl, tval_tset]
@[simp] theorem State.setNs_zon_nss (s : State) (n : Nat) (v : Ns) : (State.setNs s n v).zon.nss = tset s.zon.nss n v := rfl
@[simp] theorem State.setNs_zon_rest (s : State) (n : Nat) (v : Ns) :
    (State.setNs s n v).zon.nsAct = s.zon.nsAct ∧ (State.setNs s n v).zon.ents = s.zon.ents ∧ (State.setNs s n v).zon.genDue = s.zon.genDue ∧ (State.setNs s n v).zon.proj = s.zon.proj ∧ (State.setNs s n v).zon.extOwner = s.zon.extOwner ∧ (State.setNs s n v).zon.map = s.zon.map ∧ (State.setNs s n v).zon.hits = s.zon.hits ∧ (State.setNs s n v).zon.misses = s.zon.misses ∧ (State.setNs s n v).zon.journalBytes = s.zon.journalBytes ∧ (State.setNs s n v).zon.ckptRun = s.zon.ckptRun ∧ (State.setNs s n v).zon.ckptSeq = s.zon.ckptSeq ∧ (State.setNs s n v).zon.journalSegs = s.zon.journalSegs ∧ (State.setNs s n v).zon.fdp = s.zon.fdp ∧ (State.setNs s n v).zon.changedZones = s.zon.changedZones ∧ (State.setNs s n v).zon.changedNs = s.zon.changedNs ∧ (State.setNs s n v).zon.writeOrder = s.zon.writeOrder := by
  simp [State.setNs]
/-- A read after the write. -/
theorem State.setNs_read (s : State) (n : Nat) (v : Ns) (n' : Nat) : (State.setNs s n v).ns n' = if n' = n then v else s.ns n' := by
  simp [State.setNs, State.ns, tval_tset]
@[simp] theorem State.setZent_zon_ents (s : State) (e : Nat) (v : ZEnt) : (State.setZent s e v).zon.ents = tset s.zon.ents e v := rfl
@[simp] theorem State.setZent_zon_rest (s : State) (e : Nat) (v : ZEnt) :
    (State.setZent s e v).zon.nss = s.zon.nss ∧ (State.setZent s e v).zon.nsAct = s.zon.nsAct ∧ (State.setZent s e v).zon.genDue = s.zon.genDue ∧ (State.setZent s e v).zon.proj = s.zon.proj ∧ (State.setZent s e v).zon.extOwner = s.zon.extOwner ∧ (State.setZent s e v).zon.map = s.zon.map ∧ (State.setZent s e v).zon.hits = s.zon.hits ∧ (State.setZent s e v).zon.misses = s.zon.misses ∧ (State.setZent s e v).zon.journalBytes = s.zon.journalBytes ∧ (State.setZent s e v).zon.ckptRun = s.zon.ckptRun ∧ (State.setZent s e v).zon.ckptSeq = s.zon.ckptSeq ∧ (State.setZent s e v).zon.journalSegs = s.zon.journalSegs ∧ (State.setZent s e v).zon.fdp = s.zon.fdp ∧ (State.setZent s e v).zon.changedZones = s.zon.changedZones ∧ (State.setZent s e v).zon.changedNs = s.zon.changedNs ∧ (State.setZent s e v).zon.writeOrder = s.zon.writeOrder := by
  simp [State.setZent]
/-- A read after the write. -/
theorem State.setZent_read (s : State) (e : Nat) (v : ZEnt) (e' : Nat) : (State.setZent s e v).zent e' = if e' = e then v else s.zent e' := by
  simp [State.setZent, State.zent, tval_tset]
@[simp] theorem State.setProj_zon_proj (s : State) (e : Nat) (v : ZProj) : (State.setProj s e v).zon.proj = tset s.zon.proj e v := rfl
@[simp] theorem State.setProj_zon_rest (s : State) (e : Nat) (v : ZProj) :
    (State.setProj s e v).zon.nss = s.zon.nss ∧ (State.setProj s e v).zon.nsAct = s.zon.nsAct ∧ (State.setProj s e v).zon.ents = s.zon.ents ∧ (State.setProj s e v).zon.genDue = s.zon.genDue ∧ (State.setProj s e v).zon.extOwner = s.zon.extOwner ∧ (State.setProj s e v).zon.map = s.zon.map ∧ (State.setProj s e v).zon.hits = s.zon.hits ∧ (State.setProj s e v).zon.misses = s.zon.misses ∧ (State.setProj s e v).zon.journalBytes = s.zon.journalBytes ∧ (State.setProj s e v).zon.ckptRun = s.zon.ckptRun ∧ (State.setProj s e v).zon.ckptSeq = s.zon.ckptSeq ∧ (State.setProj s e v).zon.journalSegs = s.zon.journalSegs ∧ (State.setProj s e v).zon.fdp = s.zon.fdp ∧ (State.setProj s e v).zon.changedZones = s.zon.changedZones ∧ (State.setProj s e v).zon.changedNs = s.zon.changedNs ∧ (State.setProj s e v).zon.writeOrder = s.zon.writeOrder := by
  simp [State.setProj]
@[simp] theorem State.setMap_zon_map (s : State) (k : Nat) (v : MapEnt) : (State.setMap s k v).zon.map = tset s.zon.map k v := rfl
@[simp] theorem State.setMap_zon_rest (s : State) (k : Nat) (v : MapEnt) :
    (State.setMap s k v).zon.nss = s.zon.nss ∧ (State.setMap s k v).zon.nsAct = s.zon.nsAct ∧ (State.setMap s k v).zon.ents = s.zon.ents ∧ (State.setMap s k v).zon.genDue = s.zon.genDue ∧ (State.setMap s k v).zon.proj = s.zon.proj ∧ (State.setMap s k v).zon.extOwner = s.zon.extOwner ∧ (State.setMap s k v).zon.hits = s.zon.hits ∧ (State.setMap s k v).zon.misses = s.zon.misses ∧ (State.setMap s k v).zon.journalBytes = s.zon.journalBytes ∧ (State.setMap s k v).zon.ckptRun = s.zon.ckptRun ∧ (State.setMap s k v).zon.ckptSeq = s.zon.ckptSeq ∧ (State.setMap s k v).zon.journalSegs = s.zon.journalSegs ∧ (State.setMap s k v).zon.fdp = s.zon.fdp ∧ (State.setMap s k v).zon.changedZones = s.zon.changedZones ∧ (State.setMap s k v).zon.changedNs = s.zon.changedNs ∧ (State.setMap s k v).zon.writeOrder = s.zon.writeOrder := by
  simp [State.setMap]
/-- A read after the write. -/
theorem State.setMap_read (s : State) (k : Nat) (v : MapEnt) (k' : Nat) : (State.setMap s k v).mapEnt k' = if k' = k then v else s.mapEnt k' := by
  simp [State.setMap, State.mapEnt, tval_tset]
@[simp] theorem State.setDie_med_dies (s : State) (d : Nat) (v : Die) : (State.setDie s d v).med.dies = tset s.med.dies d v := rfl
@[simp] theorem State.setDie_med_rest (s : State) (d : Nat) (v : Die) :
    (State.setDie s d v).med.chans = s.med.chans ∧ (State.setDie s d v).med.clus = s.med.clus ∧ (State.setDie s d v).med.bays = s.med.bays ∧ (State.setDie s d v).med.blks = s.med.blks ∧ (State.setDie s d v).med.rows = s.med.rows ∧ (State.setDie s d v).med.landings = s.med.landings ∧ (State.setDie s d v).med.nextLanding = s.med.nextLanding ∧ (State.setDie s d v).med.landed = s.med.landed ∧ (State.setDie s d v).med.rowSeq = s.med.rowSeq ∧ (State.setDie s d v).med.flash = s.med.flash ∧ (State.setDie s d v).med.trackers = s.med.trackers ∧ (State.setDie s d v).med.savedTrackers = s.med.savedTrackers ∧ (State.setDie s d v).med.savedWear = s.med.savedWear ∧ (State.setDie s d v).med.erasesSince = s.med.erasesSince ∧ (State.setDie s d v).med.ecls = s.med.ecls ∧ (State.setDie s d v).med.recovs = s.med.recovs ∧ (State.setDie s d v).med.nextRecov = s.med.nextRecov ∧ (State.setDie s d v).med.busyAtSafe = s.med.busyAtSafe ∧ (State.setDie s d v).med.use = s.med.use ∧ (State.setDie s d v).med.relocs = s.med.relocs ∧ (State.setDie s d v).med.nextReloc = s.med.nextReloc ∧ (State.setDie s d v).med.refreshQ = s.med.refreshQ ∧ (State.setDie s d v).med.sets = s.med.sets := by
  simp [State.setDie]
/-- A read after the write. -/
theorem State.setDie_read (s : State) (d : Nat) (v : Die) (d' : Nat) : (State.setDie s d v).die d' = if d' = d then v else s.die d' := by
  simp [State.setDie, State.die, tval_tset]
@[simp] theorem State.setChan_med_chans (s : State) (c : Nat) (v : Chan) : (State.setChan s c v).med.chans = tset s.med.chans c v := rfl
@[simp] theorem State.setChan_med_rest (s : State) (c : Nat) (v : Chan) :
    (State.setChan s c v).med.clus = s.med.clus ∧ (State.setChan s c v).med.bays = s.med.bays ∧ (State.setChan s c v).med.dies = s.med.dies ∧ (State.setChan s c v).med.blks = s.med.blks ∧ (State.setChan s c v).med.rows = s.med.rows ∧ (State.setChan s c v).med.landings = s.med.landings ∧ (State.setChan s c v).med.nextLanding = s.med.nextLanding ∧ (State.setChan s c v).med.landed = s.med.landed ∧ (State.setChan s c v).med.rowSeq = s.med.rowSeq ∧ (State.setChan s c v).med.flash = s.med.flash ∧ (State.setChan s c v).med.trackers = s.med.trackers ∧ (State.setChan s c v).med.savedTrackers = s.med.savedTrackers ∧ (State.setChan s c v).med.savedWear = s.med.savedWear ∧ (State.setChan s c v).med.erasesSince = s.med.erasesSince ∧ (State.setChan s c v).med.ecls = s.med.ecls ∧ (State.setChan s c v).med.recovs = s.med.recovs ∧ (State.setChan s c v).med.nextRecov = s.med.nextRecov ∧ (State.setChan s c v).med.busyAtSafe = s.med.busyAtSafe ∧ (State.setChan s c v).med.use = s.med.use ∧ (State.setChan s c v).med.relocs = s.med.relocs ∧ (State.setChan s c v).med.nextReloc = s.med.nextReloc ∧ (State.setChan s c v).med.refreshQ = s.med.refreshQ ∧ (State.setChan s c v).med.sets = s.med.sets := by
  simp [State.setChan]
/-- A read after the write. -/
theorem State.setChan_read (s : State) (c : Nat) (v : Chan) (c' : Nat) : (State.setChan s c v).chan c' = if c' = c then v else s.chan c' := by
  simp [State.setChan, State.chan, tval_tset]
@[simp] theorem State.setClu_med_clus (s : State) (k : Nat) (v : Clu) : (State.setClu s k v).med.clus = tset s.med.clus k v := rfl
@[simp] theorem State.setClu_med_rest (s : State) (k : Nat) (v : Clu) :
    (State.setClu s k v).med.chans = s.med.chans ∧ (State.setClu s k v).med.bays = s.med.bays ∧ (State.setClu s k v).med.dies = s.med.dies ∧ (State.setClu s k v).med.blks = s.med.blks ∧ (State.setClu s k v).med.rows = s.med.rows ∧ (State.setClu s k v).med.landings = s.med.landings ∧ (State.setClu s k v).med.nextLanding = s.med.nextLanding ∧ (State.setClu s k v).med.landed = s.med.landed ∧ (State.setClu s k v).med.rowSeq = s.med.rowSeq ∧ (State.setClu s k v).med.flash = s.med.flash ∧ (State.setClu s k v).med.trackers = s.med.trackers ∧ (State.setClu s k v).med.savedTrackers = s.med.savedTrackers ∧ (State.setClu s k v).med.savedWear = s.med.savedWear ∧ (State.setClu s k v).med.erasesSince = s.med.erasesSince ∧ (State.setClu s k v).med.ecls = s.med.ecls ∧ (State.setClu s k v).med.recovs = s.med.recovs ∧ (State.setClu s k v).med.nextRecov = s.med.nextRecov ∧ (State.setClu s k v).med.busyAtSafe = s.med.busyAtSafe ∧ (State.setClu s k v).med.use = s.med.use ∧ (State.setClu s k v).med.relocs = s.med.relocs ∧ (State.setClu s k v).med.nextReloc = s.med.nextReloc ∧ (State.setClu s k v).med.refreshQ = s.med.refreshQ ∧ (State.setClu s k v).med.sets = s.med.sets := by
  simp [State.setClu]
/-- A read after the write. -/
theorem State.setClu_read (s : State) (k : Nat) (v : Clu) (k' : Nat) : (State.setClu s k v).clu k' = if k' = k then v else s.clu k' := by
  simp [State.setClu, State.clu, tval_tset]
@[simp] theorem State.setBay_med_bays (s : State) (b : Nat) (v : Bay) : (State.setBay s b v).med.bays = tset s.med.bays b v := rfl
@[simp] theorem State.setBay_med_rest (s : State) (b : Nat) (v : Bay) :
    (State.setBay s b v).med.chans = s.med.chans ∧ (State.setBay s b v).med.clus = s.med.clus ∧ (State.setBay s b v).med.dies = s.med.dies ∧ (State.setBay s b v).med.blks = s.med.blks ∧ (State.setBay s b v).med.rows = s.med.rows ∧ (State.setBay s b v).med.landings = s.med.landings ∧ (State.setBay s b v).med.nextLanding = s.med.nextLanding ∧ (State.setBay s b v).med.landed = s.med.landed ∧ (State.setBay s b v).med.rowSeq = s.med.rowSeq ∧ (State.setBay s b v).med.flash = s.med.flash ∧ (State.setBay s b v).med.trackers = s.med.trackers ∧ (State.setBay s b v).med.savedTrackers = s.med.savedTrackers ∧ (State.setBay s b v).med.savedWear = s.med.savedWear ∧ (State.setBay s b v).med.erasesSince = s.med.erasesSince ∧ (State.setBay s b v).med.ecls = s.med.ecls ∧ (State.setBay s b v).med.recovs = s.med.recovs ∧ (State.setBay s b v).med.nextRecov = s.med.nextRecov ∧ (State.setBay s b v).med.busyAtSafe = s.med.busyAtSafe ∧ (State.setBay s b v).med.use = s.med.use ∧ (State.setBay s b v).med.relocs = s.med.relocs ∧ (State.setBay s b v).med.nextReloc = s.med.nextReloc ∧ (State.setBay s b v).med.refreshQ = s.med.refreshQ ∧ (State.setBay s b v).med.sets = s.med.sets := by
  simp [State.setBay]
/-- A read after the write. -/
theorem State.setBay_read (s : State) (b : Nat) (v : Bay) (b' : Nat) : (State.setBay s b v).bay b' = if b' = b then v else s.bay b' := by
  simp [State.setBay, State.bay, tval_tset]
@[simp] theorem State.modBlk_med_blks (s : State) (d k : Nat) (f : Blk → Blk) : (State.modBlk s d k f).med.blks = tset s.med.blks (blkKey d k) (f (s.blk d k)) := rfl
@[simp] theorem State.modBlk_med_rest (s : State) (d k : Nat) (f : Blk → Blk) :
    (State.modBlk s d k f).med.chans = s.med.chans ∧ (State.modBlk s d k f).med.clus = s.med.clus ∧ (State.modBlk s d k f).med.bays = s.med.bays ∧ (State.modBlk s d k f).med.dies = s.med.dies ∧ (State.modBlk s d k f).med.rows = s.med.rows ∧ (State.modBlk s d k f).med.landings = s.med.landings ∧ (State.modBlk s d k f).med.nextLanding = s.med.nextLanding ∧ (State.modBlk s d k f).med.landed = s.med.landed ∧ (State.modBlk s d k f).med.rowSeq = s.med.rowSeq ∧ (State.modBlk s d k f).med.flash = s.med.flash ∧ (State.modBlk s d k f).med.trackers = s.med.trackers ∧ (State.modBlk s d k f).med.savedTrackers = s.med.savedTrackers ∧ (State.modBlk s d k f).med.savedWear = s.med.savedWear ∧ (State.modBlk s d k f).med.erasesSince = s.med.erasesSince ∧ (State.modBlk s d k f).med.ecls = s.med.ecls ∧ (State.modBlk s d k f).med.recovs = s.med.recovs ∧ (State.modBlk s d k f).med.nextRecov = s.med.nextRecov ∧ (State.modBlk s d k f).med.busyAtSafe = s.med.busyAtSafe ∧ (State.modBlk s d k f).med.use = s.med.use ∧ (State.modBlk s d k f).med.relocs = s.med.relocs ∧ (State.modBlk s d k f).med.nextReloc = s.med.nextReloc ∧ (State.modBlk s d k f).med.refreshQ = s.med.refreshQ ∧ (State.modBlk s d k f).med.sets = s.med.sets := by
  simp [State.modBlk]
@[simp] theorem State.setRow_med_rows (s : State) (r : Nat) (v : SRow) : (State.setRow s r v).med.rows = tset s.med.rows r v := rfl
@[simp] theorem State.setRow_med_rest (s : State) (r : Nat) (v : SRow) :
    (State.setRow s r v).med.chans = s.med.chans ∧ (State.setRow s r v).med.clus = s.med.clus ∧ (State.setRow s r v).med.bays = s.med.bays ∧ (State.setRow s r v).med.dies = s.med.dies ∧ (State.setRow s r v).med.blks = s.med.blks ∧ (State.setRow s r v).med.landings = s.med.landings ∧ (State.setRow s r v).med.nextLanding = s.med.nextLanding ∧ (State.setRow s r v).med.landed = s.med.landed ∧ (State.setRow s r v).med.rowSeq = s.med.rowSeq ∧ (State.setRow s r v).med.flash = s.med.flash ∧ (State.setRow s r v).med.trackers = s.med.trackers ∧ (State.setRow s r v).med.savedTrackers = s.med.savedTrackers ∧ (State.setRow s r v).med.savedWear = s.med.savedWear ∧ (State.setRow s r v).med.erasesSince = s.med.erasesSince ∧ (State.setRow s r v).med.ecls = s.med.ecls ∧ (State.setRow s r v).med.recovs = s.med.recovs ∧ (State.setRow s r v).med.nextRecov = s.med.nextRecov ∧ (State.setRow s r v).med.busyAtSafe = s.med.busyAtSafe ∧ (State.setRow s r v).med.use = s.med.use ∧ (State.setRow s r v).med.relocs = s.med.relocs ∧ (State.setRow s r v).med.nextReloc = s.med.nextReloc ∧ (State.setRow s r v).med.refreshQ = s.med.refreshQ ∧ (State.setRow s r v).med.sets = s.med.sets := by
  simp [State.setRow]
@[simp] theorem State.modLife_med_sets (s : State) (st : Nat) (f : SetLife → SetLife) : (State.modLife s st f).med.sets = tset s.med.sets st (f (s.setLife st)) := rfl
@[simp] theorem State.modLife_med_rest (s : State) (st : Nat) (f : SetLife → SetLife) :
    (State.modLife s st f).med.chans = s.med.chans ∧ (State.modLife s st f).med.clus = s.med.clus ∧ (State.modLife s st f).med.bays = s.med.bays ∧ (State.modLife s st f).med.dies = s.med.dies ∧ (State.modLife s st f).med.blks = s.med.blks ∧ (State.modLife s st f).med.rows = s.med.rows ∧ (State.modLife s st f).med.landings = s.med.landings ∧ (State.modLife s st f).med.nextLanding = s.med.nextLanding ∧ (State.modLife s st f).med.landed = s.med.landed ∧ (State.modLife s st f).med.rowSeq = s.med.rowSeq ∧ (State.modLife s st f).med.flash = s.med.flash ∧ (State.modLife s st f).med.trackers = s.med.trackers ∧ (State.modLife s st f).med.savedTrackers = s.med.savedTrackers ∧ (State.modLife s st f).med.savedWear = s.med.savedWear ∧ (State.modLife s st f).med.erasesSince = s.med.erasesSince ∧ (State.modLife s st f).med.ecls = s.med.ecls ∧ (State.modLife s st f).med.recovs = s.med.recovs ∧ (State.modLife s st f).med.nextRecov = s.med.nextRecov ∧ (State.modLife s st f).med.busyAtSafe = s.med.busyAtSafe ∧ (State.modLife s st f).med.use = s.med.use ∧ (State.modLife s st f).med.relocs = s.med.relocs ∧ (State.modLife s st f).med.nextReloc = s.med.nextReloc ∧ (State.modLife s st f).med.refreshQ = s.med.refreshQ := by
  simp [State.modLife]
/-- A read after the write. -/
theorem State.modLife_read (s : State) (st : Nat) (f : SetLife → SetLife) (st' : Nat) : (State.modLife s st f).setLife st' = if st' = st then (f (s.setLife st)) else s.setLife st' := by
  simp [State.modLife, State.setLife, tval_tset]
@[simp] theorem State.setJob_cpx_jobs (s : State) (c : Nat) (j : Job) : (State.setJob s c j).cpx.jobs = tset s.cpx.jobs c j := rfl
@[simp] theorem State.setJob_cpx_rest (s : State) (c : Nat) (j : Job) :
    (State.setJob s c j).cpx.allocs = s.cpx.allocs ∧ (State.setJob s c j).cpx.loads = s.cpx.loads ∧ (State.setJob s c j).cpx.lanes = s.cpx.lanes ∧ (State.setJob s c j).cpx.lanesAct = s.cpx.lanesAct ∧ (State.setJob s c j).cpx.cnt = s.cpx.cnt ∧ (State.setJob s c j).cpx.units = s.cpx.units ∧ (State.setJob s c j).cpx.sieves = s.cpx.sieves ∧ (State.setJob s c j).cpx.index = s.cpx.index ∧ (State.setJob s c j).cpx.cores = s.cpx.cores ∧ (State.setJob s c j).cpx.slices = s.cpx.slices := by
  simp [State.setJob]
/-- A read after the write. -/
theorem State.setJob_read (s : State) (c : Nat) (j : Job) (c' : Nat) : (State.setJob s c j).job c' = if c' = c then j else s.job c' := by
  simp [State.setJob, State.job, tval_tset]
@[simp] theorem State.setAlloc_cpx_allocs (s : State) (sl h : Nat) (a : Alloc) : (State.setAlloc s sl h a).cpx.allocs = tset s.cpx.allocs (allocKey sl h) a := rfl
@[simp] theorem State.setAlloc_cpx_rest (s : State) (sl h : Nat) (a : Alloc) :
    (State.setAlloc s sl h a).cpx.jobs = s.cpx.jobs ∧ (State.setAlloc s sl h a).cpx.loads = s.cpx.loads ∧ (State.setAlloc s sl h a).cpx.lanes = s.cpx.lanes ∧ (State.setAlloc s sl h a).cpx.lanesAct = s.cpx.lanesAct ∧ (State.setAlloc s sl h a).cpx.cnt = s.cpx.cnt ∧ (State.setAlloc s sl h a).cpx.units = s.cpx.units ∧ (State.setAlloc s sl h a).cpx.sieves = s.cpx.sieves ∧ (State.setAlloc s sl h a).cpx.index = s.cpx.index ∧ (State.setAlloc s sl h a).cpx.cores = s.cpx.cores ∧ (State.setAlloc s sl h a).cpx.slices = s.cpx.slices := by
  simp [State.setAlloc]
@[simp] theorem State.setMem_mic_mems (s : State) (isl j : Nat) (m : MMem) : (State.setMem s isl j m).mic.mems = tset s.mic.mems (memKey isl j) m := rfl
@[simp] theorem State.setMem_mic_rest (s : State) (isl j : Nat) (m : MMem) :
    (State.setMem s isl j m).mic.sramFilled = s.mic.sramFilled ∧ (State.setMem s isl j m).mic.dramFilled = s.mic.dramFilled ∧ (State.setMem s isl j m).mic.fillPtr = s.mic.fillPtr ∧ (State.setMem s isl j m).mic.cnt = s.mic.cnt ∧ (State.setMem s isl j m).mic.repairs = s.mic.repairs ∧ (State.setMem s isl j m).mic.withdrawn = s.mic.withdrawn ∧ (State.setMem s isl j m).mic.armed = s.mic.armed ∧ (State.setMem s isl j m).mic.flipAct = s.mic.flipAct ∧ (State.setMem s isl j m).mic.flipCls = s.mic.flipCls ∧ (State.setMem s isl j m).mic.flipOnCrc = s.mic.flipOnCrc ∧ (State.setMem s isl j m).mic.flipIsl = s.mic.flipIsl ∧ (State.setMem s isl j m).mic.flipOff = s.mic.flipOff ∧ (State.setMem s isl j m).mic.flipMask = s.mic.flipMask ∧ (State.setMem s isl j m).mic.injected = s.mic.injected ∧ (State.setMem s isl j m).mic.detected = s.mic.detected ∧ (State.setMem s isl j m).mic.replays = s.mic.replays ∧ (State.setMem s isl j m).mic.halted = s.mic.halted ∧ (State.setMem s isl j m).mic.auditFrames = s.mic.auditFrames := by
  simp [State.setMem]
@[simp] theorem State.setPool_bpm_pools (s : State) (c : Nat) (p : Pool) : (State.setPool s c p).bpm.pools = tset s.bpm.pools c p := rfl
@[simp] theorem State.setPool_bpm_rest (s : State) (c : Nat) (p : Pool) :
    (State.setPool s c p).bpm.frames = s.bpm.frames ∧ (State.setPool s c p).bpm.cnt = s.bpm.cnt ∧ (State.setPool s c p).bpm.stalls = s.bpm.stalls := by
  simp [State.setPool]
/-- A read after the write. -/
theorem State.setPool_read (s : State) (c : Nat) (p : Pool) (c' : Nat) : (State.setPool s c p).pool c' = if c' = c then p else s.pool c' := by
  simp [State.setPool, State.pool, tval_tset]
@[simp] theorem State.setFrame_bpm_frames (s : State) (k : Nat) (f : PFrame) : (State.setFrame s k f).bpm.frames = tset s.bpm.frames k f := rfl
@[simp] theorem State.setFrame_bpm_rest (s : State) (k : Nat) (f : PFrame) :
    (State.setFrame s k f).bpm.pools = s.bpm.pools ∧ (State.setFrame s k f).bpm.cnt = s.bpm.cnt ∧ (State.setFrame s k f).bpm.stalls = s.bpm.stalls := by
  simp [State.setFrame]
/-- A read after the write. -/
theorem State.setFrame_read (s : State) (k : Nat) (f : PFrame) (k' : Nat) : (State.setFrame s k f).frame k' = if k' = k then f else s.frame k' := by
  simp [State.setFrame, State.frame, tval_tset]
@[simp] theorem State.setBank_cnv_banks (s : State) (b : Nat) (v : Bank) : (State.setBank s b v).cnv.banks = tset s.cnv.banks b v := rfl
@[simp] theorem State.setBank_cnv_rest (s : State) (b : Nat) (v : Bank) :
    (State.setBank s b v).cnv.bytes = s.cnv.bytes ∧ (State.setBank s b v).cnv.sects = s.cnv.sects ∧ (State.setBank s b v).cnv.cnt = s.cnv.cnt := by
  simp [State.setBank]
/-- A read after the write. -/
theorem State.setBank_read (s : State) (b : Nat) (v : Bank) (b' : Nat) : (State.setBank s b v).bank b' = if b' = b then v else s.bank b' := by
  simp [State.setBank, State.bank, tval_tset]
@[simp] theorem State.setSect_cnv_sects (s : State) (n : Nat) (v : Sect) : (State.setSect s n v).cnv.sects = tset s.cnv.sects n v := rfl
@[simp] theorem State.setSect_cnv_rest (s : State) (n : Nat) (v : Sect) :
    (State.setSect s n v).cnv.bytes = s.cnv.bytes ∧ (State.setSect s n v).cnv.banks = s.cnv.banks ∧ (State.setSect s n v).cnv.cnt = s.cnv.cnt := by
  simp [State.setSect]
/-- A read after the write. -/
theorem State.setSect_read (s : State) (n : Nat) (v : Sect) (n' : Nat) : (State.setSect s n v).sect n' = if n' = n then v else s.sect n' := by
  simp [State.setSect, State.sect, tval_tset]
@[simp] theorem State.setFwSlot_fwu_slots (s : State) (i : Nat) (v : FwSlot) : (State.setFwSlot s i v).fwu.slots = tset s.fwu.slots i v := rfl
@[simp] theorem State.setFwSlot_fwu_rest (s : State) (i : Nat) (v : FwSlot) :
    (State.setFwSlot s i v).fwu.phase = s.fwu.phase ∧ (State.setFwSlot s i v).fwu.owner = s.fwu.owner ∧ (State.setFwSlot s i v).fwu.lastMs = s.fwu.lastMs ∧ (State.setFwSlot s i v).fwu.staged = s.fwu.staged ∧ (State.setFwSlot s i v).fwu.applied = s.fwu.applied ∧ (State.setFwSlot s i v).fwu.result = s.fwu.result ∧ (State.setFwSlot s i v).fwu.abortAct = s.fwu.abortAct ∧ (State.setFwSlot s i v).fwu.activating = s.fwu.activating ∧ (State.setFwSlot s i v).fwu.pauseMs = s.fwu.pauseMs ∧ (State.setFwSlot s i v).fwu.imageMs = s.fwu.imageMs ∧ (State.setFwSlot s i v).fwu.windowOpen = s.fwu.windowOpen ∧ (State.setFwSlot s i v).fwu.windowMin = s.fwu.windowMin ∧ (State.setFwSlot s i v).fwu.migrated = s.fwu.migrated ∧ (State.setFwSlot s i v).fwu.fromVer = s.fwu.fromVer ∧ (State.setFwSlot s i v).fwu.storeVer = s.fwu.storeVer ∧ (State.setFwSlot s i v).fwu.oldVer = s.fwu.oldVer := by
  simp [State.setFwSlot]
/-- A read after the write. -/
theorem State.setFwSlot_read (s : State) (i : Nat) (v : FwSlot) (i' : Nat) : (State.setFwSlot s i v).fwSlot i' = if i' = i then v else s.fwSlot i' := by
  simp [State.setFwSlot, State.fwSlot, tval_tset]
@[simp] theorem State.setKeySlot_sec_keys (s : State) (k : Nat) (v : KeySlot) : (State.setKeySlot s k v).sec.keys = tset s.sec.keys k v := rfl
@[simp] theorem State.setKeySlot_sec_rest (s : State) (k : Nat) (v : KeySlot) :
    (State.setKeySlot s k v).sec.sessions = s.sec.sessions ∧ (State.setKeySlot s k v).sec.challenges = s.sec.challenges ∧ (State.setKeySlot s k v).sec.slots = s.sec.slots ∧ (State.setKeySlot s k v).sec.keyGen = s.sec.keyGen ∧ (State.setKeySlot s k v).sec.classKey = s.sec.classKey ∧ (State.setKeySlot s k v).sec.sharedKey = s.sec.sharedKey ∧ (State.setKeySlot s k v).sec.cryAct = s.sec.cryAct ∧ (State.setKeySlot s k v).sec.discards = s.sec.discards ∧ (State.setKeySlot s k v).sec.mgrPasid = s.sec.mgrPasid ∧ (State.setKeySlot s k v).sec.mbVector = s.sec.mbVector ∧ (State.setKeySlot s k v).sec.pasidAct = s.sec.pasidAct ∧ (State.setKeySlot s k v).sec.pasidEff = s.sec.pasidEff := by
  simp [State.setKeySlot]
/-- A read after the write. -/
theorem State.setKeySlot_read (s : State) (k : Nat) (v : KeySlot) (k' : Nat) : (State.setKeySlot s k v).key k' = if k' = k then v else s.key k' := by
  simp [State.setKeySlot, State.key, tval_tset]
@[simp] theorem State.setCtr_ctrs (s : State) (c : Nat) (v : Ctr) : (State.setCtr s c v).ctrs = tset s.ctrs c v := rfl
/-- A read after the write. -/
theorem State.setCtr_read (s : State) (c : Nat) (v : Ctr) (c' : Nat) : (State.setCtr s c v).ctr c' = if c' = c then v else s.ctr c' := by
  simp [State.setCtr, State.ctr, tval_tset]
@[simp] theorem State.setGrp_grps (s : State) (g : Nat) (v : CtrGrp) : (State.setGrp s g v).grps = tset s.grps g v := rfl
/-- A read after the write. -/
theorem State.setGrp_read (s : State) (g : Nat) (v : CtrGrp) (g' : Nat) : (State.setGrp s g v).grp g' = if g' = g then v else s.grp g' := by
  simp [State.setGrp, State.grp, tval_tset]
@[simp] theorem State.setSensor_thm_sensors (s : State) (k : Nat) (v : Sensor) : (State.setSensor s k v).thm.sensors = tset s.thm.sensors k v := rfl
@[simp] theorem State.setSensor_thm_rest (s : State) (k : Nat) (v : Sensor) :
    (State.setSensor s k v).thm.regions = s.thm.regions ∧ (State.setSensor s k v).thm.warn = s.thm.warn ∧ (State.setSensor s k v).thm.coldWarn = s.thm.coldWarn ∧ (State.setSensor s k v).thm.coldHold = s.thm.coldHold ∧ (State.setSensor s k v).thm.shutdown = s.thm.shutdown ∧ (State.setSensor s k v).thm.warnMin = s.thm.warnMin ∧ (State.setSensor s k v).thm.critMin = s.thm.critMin ∧ (State.setSensor s k v).thm.overT = s.thm.overT ∧ (State.setSensor s k v).thm.under = s.thm.under ∧ (State.setSensor s k v).thm.thermtripN = s.thm.thermtripN := by
  simp [State.setSensor]
/-- A read after the write. -/
theorem State.setSensor_read (s : State) (k : Nat) (v : Sensor) (k' : Nat) : (State.setSensor s k v).sensor k' = if k' = k then v else s.sensor k' := by
  simp [State.setSensor, State.sensor, tval_tset]
@[simp] theorem State.setRegion_thm_regions (s : State) (r : Nat) (v : Region) : (State.setRegion s r v).thm.regions = tset s.thm.regions r v := rfl
@[simp] theorem State.setRegion_thm_rest (s : State) (r : Nat) (v : Region) :
    (State.setRegion s r v).thm.sensors = s.thm.sensors ∧ (State.setRegion s r v).thm.warn = s.thm.warn ∧ (State.setRegion s r v).thm.coldWarn = s.thm.coldWarn ∧ (State.setRegion s r v).thm.coldHold = s.thm.coldHold ∧ (State.setRegion s r v).thm.shutdown = s.thm.shutdown ∧ (State.setRegion s r v).thm.warnMin = s.thm.warnMin ∧ (State.setRegion s r v).thm.critMin = s.thm.critMin ∧ (State.setRegion s r v).thm.overT = s.thm.overT ∧ (State.setRegion s r v).thm.under = s.thm.under ∧ (State.setRegion s r v).thm.thermtripN = s.thm.thermtripN := by
  simp [State.setRegion]
/-- A read after the write. -/
theorem State.setRegion_read (s : State) (r : Nat) (v : Region) (r' : Nat) : (State.setRegion s r v).region r' = if r' = r then v else s.region r' := by
  simp [State.setRegion, State.region, tval_tset]
@[simp] theorem State.setPatSlot_pat_slots (s : State) (slot : Nat) (v : PatSlot) : (State.setPatSlot s slot v).pat.slots = tset s.pat.slots slot v := rfl
@[simp] theorem State.setPatSlot_pat_rest (s : State) (slot : Nat) (v : PatSlot) :
    (State.setPatSlot s slot v).pat.source = s.pat.source ∧ (State.setPatSlot s slot v).pat.signer = s.pat.signer ∧ (State.setPatSlot s slot v).pat.reloaded = s.pat.reloaded ∧ (State.setPatSlot s slot v).pat.panels = s.pat.panels ∧ (State.setPatSlot s slot v).pat.seq = s.pat.seq ∧ (State.setPatSlot s slot v).pat.eff = s.pat.eff ∧ (State.setPatSlot s slot v).pat.coldDram = s.pat.coldDram ∧ (State.setPatSlot s slot v).pat.oldTmpls = s.pat.oldTmpls ∧ (State.setPatSlot s slot v).pat.gen = s.pat.gen ∧ (State.setPatSlot s slot v).pat.lastPartial = s.pat.lastPartial ∧ (State.setPatSlot s slot v).pat.loadHolder = s.pat.loadHolder ∧ (State.setPatSlot s slot v).pat.loadMs = s.pat.loadMs ∧ (State.setPatSlot s slot v).pat.loadSlot = s.pat.loadSlot ∧ (State.setPatSlot s slot v).pat.loadNext = s.pat.loadNext ∧ (State.setPatSlot s slot v).pat.reload = s.pat.reload := by
  simp [State.setPatSlot]
/-- A read after the change. -/
theorem State.modIsl_read (s : State) (i : Nat) (f : Isl → Isl) (i' : Nat) : (State.modIsl s i f).isle i' = if i' = i then f (s.isle i) else s.isle i' := by
  simp [State.modIsl, State.setIsl_read]
/-- A read after the change. -/
theorem State.modPort_read (s : State) (p : Nat) (f : Port → Port) (p' : Nat) : (State.modPort s p f).port p' = if p' = p then f (s.port p) else s.port p' := by
  simp [State.modPort, State.setPort_read]
/-- A read after the change. -/
theorem State.modRoute_read (s : State) (r : Nat) (f : RouteSlot → RouteSlot) (r' : Nat) : (State.modRoute s r f).route r' = if r' = r then f (s.route r) else s.route r' := by
  simp [State.modRoute, State.setRoute_read]
/-- A read after the change. -/
theorem State.modSli_read (s : State) (n : Nat) (f : Sli → Sli) (n' : Nat) : (State.modSli s n f).slc n' = if n' = n then f (s.slc n) else s.slc n' := by
  simp [State.modSli, State.setSli_read]
/-- A read after the change. -/
theorem State.modCtx_read (s : State) (c : Nat) (f : Ctx → Ctx) (c' : Nat) : (State.modCtx s c f).ctx c' = if c' = c then f (s.ctx c) else s.ctx c' := by
  simp [State.modCtx, State.setCtx_read]
/-- A read after the change. -/
theorem State.modQueue_read (s : State) (q : Nat) (f : Queue → Queue) (q' : Nat) : (State.modQueue s q f).queue q' = if q' = q then f (s.queue q) else s.queue q' := by
  simp [State.modQueue, State.setQueue_read]
/-- A read after the change. -/
theorem State.modCtrl_read (s : State) (k : Nat) (f : Ctrl → Ctrl) (k' : Nat) : (State.modCtrl s k f).ctrl k' = if k' = k then f (s.ctrl k) else s.ctrl k' := by
  simp [State.modCtrl, State.setCtrl_read]
/-- A read after the change. -/
theorem State.modNs_read (s : State) (n : Nat) (f : Ns → Ns) (n' : Nat) : (State.modNs s n f).ns n' = if n' = n then f (s.ns n) else s.ns n' := by
  simp [State.modNs, State.setNs_read]
/-- A read after the change. -/
theorem State.modZent_read (s : State) (e : Nat) (f : ZEnt → ZEnt) (e' : Nat) : (State.modZent s e f).zent e' = if e' = e then f (s.zent e) else s.zent e' := by
  simp [State.modZent, State.setZent_read]
/-- A read after the change. -/
theorem State.modDie_read (s : State) (d : Nat) (f : Die → Die) (d' : Nat) : (State.modDie s d f).die d' = if d' = d then f (s.die d) else s.die d' := by
  simp [State.modDie, State.setDie_read]
/-- A read after the change. -/
theorem State.modChan_read (s : State) (c : Nat) (f : Chan → Chan) (c' : Nat) : (State.modChan s c f).chan c' = if c' = c then f (s.chan c) else s.chan c' := by
  simp [State.modChan, State.setChan_read]
/-- A read after the change. -/
theorem State.modClu_read (s : State) (k : Nat) (f : Clu → Clu) (k' : Nat) : (State.modClu s k f).clu k' = if k' = k then f (s.clu k) else s.clu k' := by
  simp [State.modClu, State.setClu_read]
/-- A read after the change. -/
theorem State.modBay_read (s : State) (b : Nat) (f : Bay → Bay) (b' : Nat) : (State.modBay s b f).bay b' = if b' = b then f (s.bay b) else s.bay b' := by
  simp [State.modBay, State.setBay_read]
/-- A read after the change. -/
theorem State.modJob_read (s : State) (c : Nat) (f : Job → Job) (c' : Nat) : (State.modJob s c f).job c' = if c' = c then f (s.job c) else s.job c' := by
  simp [State.modJob, State.setJob_read]
/-- A read after the change. -/
theorem State.modBank_read (s : State) (b : Nat) (f : Bank → Bank) (b' : Nat) : (State.modBank s b f).bank b' = if b' = b then f (s.bank b) else s.bank b' := by
  simp [State.modBank, State.setBank_read]
/-- A read after the change. -/
theorem State.modFwSlot_read (s : State) (i : Nat) (f : FwSlot → FwSlot) (i' : Nat) : (State.modFwSlot s i f).fwSlot i' = if i' = i then f (s.fwSlot i) else s.fwSlot i' := by
  simp [State.modFwSlot, State.setFwSlot_read]

end Sys2Proof.Machine
end

