-- ==== Sys2Proof/Laws/FrameBase.lean ====
section
/-! SUPPORT. What the operations on one unit, on frames and on job memory leave unchanged: one lemma per operation, which names every part of the state that it keeps.
A proof cites such a lemma by name: `have w := @State.setIsl_still`, then `simp [w]`. The lemmas stand outside the simp set, because Lean would split
each into one auxiliary theorem per part. -/

namespace Sys2Proof.Machine

/-- A fold keeps every reading of the state that each of its steps keeps. -/
theorem foldl_keeps {α β : Type} (p : State → β) (l : List α) (g : State → α → State) (s : State) (h : ∀ t x, p (g t x) = p t) :
    p (l.foldl g s) = p s := by
  induction l generalizing s with
  | nil => rfl
  | cons a t ih => simp only [List.foldl_cons]; rw [ih, h]

/-- The same of a fold that carries a value beside the state. -/
theorem foldl_snd_keeps {α β γ : Type} (p : State → γ) (l : List α) (g : β × State → α → β × State) (a : β × State)
    (h : ∀ t x, p (g t x).2 = p t.2) : p (l.foldl g a).2 = p a.2 := by
  induction l generalizing a with
  | nil => rfl
  | cons x t ih => simp only [List.foldl_cons]; rw [ih, h]

/-- The same of a fold whose steps may fail, where it does not. -/
theorem foldl_bind_keeps {α β : Type} (p : State → β) (l : List α) (g : α → State → Option State)
    (h : ∀ t x r, g x t = some r → p r = p t) (s r : State) (e : l.foldl (fun o x => o.bind (g x)) (some s) = some r) : p r = p s := by
  induction l generalizing s with
  | nil => cases e; rfl
  | cons a t ih =>
    simp only [List.foldl_cons, Option.bind_some] at e
    cases q : g a s with
    | none =>
      rw [q] at e
      have n : ∀ k : List α, k.foldl (fun o x => o.bind (g x)) none = none := by
        intro k; induction k with
        | nil => rfl
        | cons b u ih2 => simpa using ih2
      rw [n] at e; cases e
    | some u => rw [q] at e; rw [ih u e, h s a u q]

/-- `foldl_keeps` at each part of the state. -/
theorem foldl_parts {α : Type} (l : List α) (g : State → α → State) (s : State) :
    ((∀ t x, (g t x).pending = t.pending) → (l.foldl g s).pending = s.pending) ∧
    ((∀ t x, (g t x).free = t.free) → (l.foldl g s).free = s.free) ∧ ((∀ t x, (g t x).host = t.host) → (l.foldl g s).host = s.host) ∧
    ((∀ t x, (g t x).epoch = t.epoch) → (l.foldl g s).epoch = s.epoch) ∧ ((∀ t x, (g t x).pat = t.pat) → (l.foldl g s).pat = s.pat) ∧
    ((∀ t x, (g t x).isl = t.isl) → (l.foldl g s).isl = s.isl) ∧ ((∀ t x, (g t x).routes = t.routes) → (l.foldl g s).routes = s.routes) ∧
    ((∀ t x, (g t x).dramMargin = t.dramMargin) → (l.foldl g s).dramMargin = s.dramMargin) ∧
    ((∀ t x, (g t x).ports = t.ports) → (l.foldl g s).ports = s.ports) ∧
    ((∀ t x, (g t x).trickle = t.trickle) → (l.foldl g s).trickle = s.trickle) ∧
    ((∀ t x, (g t x).cmd = t.cmd) → (l.foldl g s).cmd = s.cmd) ∧ ((∀ t x, (g t x).zon = t.zon) → (l.foldl g s).zon = s.zon) ∧
    ((∀ t x, (g t x).med = t.med) → (l.foldl g s).med = s.med) ∧ ((∀ t x, (g t x).mlf = t.mlf) → (l.foldl g s).mlf = s.mlf) ∧
    ((∀ t x, (g t x).cpx = t.cpx) → (l.foldl g s).cpx = s.cpx) ∧ ((∀ t x, (g t x).wvf = t.wvf) → (l.foldl g s).wvf = s.wvf) ∧
    ((∀ t x, (g t x).bpm = t.bpm) → (l.foldl g s).bpm = s.bpm) ∧ ((∀ t x, (g t x).sli = t.sli) → (l.foldl g s).sli = s.sli) ∧
    ((∀ t x, (g t x).sec = t.sec) → (l.foldl g s).sec = s.sec) ∧ ((∀ t x, (g t x).mic = t.mic) → (l.foldl g s).mic = s.mic) ∧
    ((∀ t x, (g t x).flt = t.flt) → (l.foldl g s).flt = s.flt) ∧ ((∀ t x, (g t x).ctrs = t.ctrs) → (l.foldl g s).ctrs = s.ctrs) ∧
    ((∀ t x, (g t x).grps = t.grps) → (l.foldl g s).grps = s.grps) ∧ ((∀ t x, (g t x).pwr = t.pwr) → (l.foldl g s).pwr = s.pwr) ∧
    ((∀ t x, (g t x).thm = t.thm) → (l.foldl g s).thm = s.thm) ∧ ((∀ t x, (g t x).age = t.age) → (l.foldl g s).age = s.age) ∧
    ((∀ t x, (g t x).cnv = t.cnv) → (l.foldl g s).cnv = s.cnv) ∧ ((∀ t x, (g t x).fwu = t.fwu) → (l.foldl g s).fwu = s.fwu) ∧
    ((∀ t x, (g t x).glb = t.glb) → (l.foldl g s).glb = s.glb) ∧ ((∀ t x, (g t x).sb = t.sb) → (l.foldl g s).sb = s.sb) :=
  ⟨foldl_keeps _ l g s, foldl_keeps _ l g s, foldl_keeps _ l g s, foldl_keeps _ l g s, foldl_keeps _ l g s, foldl_keeps _ l g s, foldl_keeps _ l g s, foldl_keeps _ l g s, foldl_keeps _ l g s, foldl_keeps _ l g s, foldl_keeps _ l g s, foldl_keeps _ l g s, foldl_keeps _ l g s, foldl_keeps _ l g s, foldl_keeps _ l g s, foldl_keeps _ l g s, foldl_keeps _ l g s, foldl_keeps _ l g s, foldl_keeps _ l g s, foldl_keeps _ l g s, foldl_keeps _ l g s, foldl_keeps _ l g s, foldl_keeps _ l g s, foldl_keeps _ l g s, foldl_keeps _ l g s, foldl_keeps _ l g s, foldl_keeps _ l g s, foldl_keeps _ l g s, foldl_keeps _ l g s, foldl_keeps _ l g s⟩

/-- `foldl_snd_keeps` at each part of the state. -/
theorem foldl_snd_parts {α β : Type} (l : List α) (g : β × State → α → β × State) (a : β × State) :
    ((∀ t x, (g t x).2.pending = t.2.pending) → (l.foldl g a).2.pending = a.2.pending) ∧
    ((∀ t x, (g t x).2.free = t.2.free) → (l.foldl g a).2.free = a.2.free) ∧
    ((∀ t x, (g t x).2.host = t.2.host) → (l.foldl g a).2.host = a.2.host) ∧
    ((∀ t x, (g t x).2.epoch = t.2.epoch) → (l.foldl g a).2.epoch = a.2.epoch) ∧
    ((∀ t x, (g t x).2.pat = t.2.pat) → (l.foldl g a).2.pat = a.2.pat) ∧
    ((∀ t x, (g t x).2.isl = t.2.isl) → (l.foldl g a).2.isl = a.2.isl) ∧
    ((∀ t x, (g t x).2.routes = t.2.routes) → (l.foldl g a).2.routes = a.2.routes) ∧
    ((∀ t x, (g t x).2.dramMargin = t.2.dramMargin) → (l.foldl g a).2.dramMargin = a.2.dramMargin) ∧
    ((∀ t x, (g t x).2.ports = t.2.ports) → (l.foldl g a).2.ports = a.2.ports) ∧
    ((∀ t x, (g t x).2.trickle = t.2.trickle) → (l.foldl g a).2.trickle = a.2.trickle) ∧
    ((∀ t x, (g t x).2.cmd = t.2.cmd) → (l.foldl g a).2.cmd = a.2.cmd) ∧
    ((∀ t x, (g t x).2.zon = t.2.zon) → (l.foldl g a).2.zon = a.2.zon) ∧
    ((∀ t x, (g t x).2.med = t.2.med) → (l.foldl g a).2.med = a.2.med) ∧
    ((∀ t x, (g t x).2.mlf = t.2.mlf) → (l.foldl g a).2.mlf = a.2.mlf) ∧
    ((∀ t x, (g t x).2.cpx = t.2.cpx) → (l.foldl g a).2.cpx = a.2.cpx) ∧
    ((∀ t x, (g t x).2.wvf = t.2.wvf) → (l.foldl g a).2.wvf = a.2.wvf) ∧
    ((∀ t x, (g t x).2.bpm = t.2.bpm) → (l.foldl g a).2.bpm = a.2.bpm) ∧
    ((∀ t x, (g t x).2.sli = t.2.sli) → (l.foldl g a).2.sli = a.2.sli) ∧
    ((∀ t x, (g t x).2.sec = t.2.sec) → (l.foldl g a).2.sec = a.2.sec) ∧
    ((∀ t x, (g t x).2.mic = t.2.mic) → (l.foldl g a).2.mic = a.2.mic) ∧
    ((∀ t x, (g t x).2.flt = t.2.flt) → (l.foldl g a).2.flt = a.2.flt) ∧
    ((∀ t x, (g t x).2.ctrs = t.2.ctrs) → (l.foldl g a).2.ctrs = a.2.ctrs) ∧
    ((∀ t x, (g t x).2.grps = t.2.grps) → (l.foldl g a).2.grps = a.2.grps) ∧
    ((∀ t x, (g t x).2.pwr = t.2.pwr) → (l.foldl g a).2.pwr = a.2.pwr) ∧
    ((∀ t x, (g t x).2.thm = t.2.thm) → (l.foldl g a).2.thm = a.2.thm) ∧
    ((∀ t x, (g t x).2.age = t.2.age) → (l.foldl g a).2.age = a.2.age) ∧
    ((∀ t x, (g t x).2.cnv = t.2.cnv) → (l.foldl g a).2.cnv = a.2.cnv) ∧
    ((∀ t x, (g t x).2.fwu = t.2.fwu) → (l.foldl g a).2.fwu = a.2.fwu) ∧
    ((∀ t x, (g t x).2.glb = t.2.glb) → (l.foldl g a).2.glb = a.2.glb) ∧ ((∀ t x, (g t x).2.sb = t.2.sb) → (l.foldl g a).2.sb = a.2.sb) :=
  ⟨foldl_snd_keeps _ l g a, foldl_snd_keeps _ l g a, foldl_snd_keeps _ l g a, foldl_snd_keeps _ l g a, foldl_snd_keeps _ l g a, foldl_snd_keeps _ l g a, foldl_snd_keeps _ l g a, foldl_snd_keeps _ l g a, foldl_snd_keeps _ l g a, foldl_snd_keeps _ l g a, foldl_snd_keeps _ l g a, foldl_snd_keeps _ l g a, foldl_snd_keeps _ l g a, foldl_snd_keeps _ l g a, foldl_snd_keeps _ l g a, foldl_snd_keeps _ l g a, foldl_snd_keeps _ l g a, foldl_snd_keeps _ l g a, foldl_snd_keeps _ l g a, foldl_snd_keeps _ l g a, foldl_snd_keeps _ l g a, foldl_snd_keeps _ l g a, foldl_snd_keeps _ l g a, foldl_snd_keeps _ l g a, foldl_snd_keeps _ l g a, foldl_snd_keeps _ l g a, foldl_snd_keeps _ l g a, foldl_snd_keeps _ l g a, foldl_snd_keeps _ l g a, foldl_snd_keeps _ l g a⟩

/-- A choice between two states, read at each part. -/
theorem ite_parts (c : Prop) [Decidable c] (a b : State) :
    (if c then a else b).pending = (if c then a.pending else b.pending) ∧ (if c then a else b).free = (if c then a.free else b.free) ∧
    (if c then a else b).host = (if c then a.host else b.host) ∧ (if c then a else b).epoch = (if c then a.epoch else b.epoch) ∧
    (if c then a else b).pat = (if c then a.pat else b.pat) ∧ (if c then a else b).isl = (if c then a.isl else b.isl) ∧
    (if c then a else b).routes = (if c then a.routes else b.routes) ∧
    (if c then a else b).dramMargin = (if c then a.dramMargin else b.dramMargin) ∧
    (if c then a else b).ports = (if c then a.ports else b.ports) ∧ (if c then a else b).trickle = (if c then a.trickle else b.trickle) ∧
    (if c then a else b).cmd = (if c then a.cmd else b.cmd) ∧ (if c then a else b).zon = (if c then a.zon else b.zon) ∧
    (if c then a else b).med = (if c then a.med else b.med) ∧ (if c then a else b).mlf = (if c then a.mlf else b.mlf) ∧
    (if c then a else b).cpx = (if c then a.cpx else b.cpx) ∧ (if c then a else b).wvf = (if c then a.wvf else b.wvf) ∧
    (if c then a else b).bpm = (if c then a.bpm else b.bpm) ∧ (if c then a else b).sli = (if c then a.sli else b.sli) ∧
    (if c then a else b).sec = (if c then a.sec else b.sec) ∧ (if c then a else b).mic = (if c then a.mic else b.mic) ∧
    (if c then a else b).flt = (if c then a.flt else b.flt) ∧ (if c then a else b).ctrs = (if c then a.ctrs else b.ctrs) ∧
    (if c then a else b).grps = (if c then a.grps else b.grps) ∧ (if c then a else b).pwr = (if c then a.pwr else b.pwr) ∧
    (if c then a else b).thm = (if c then a.thm else b.thm) ∧ (if c then a else b).age = (if c then a.age else b.age) ∧
    (if c then a else b).cnv = (if c then a.cnv else b.cnv) ∧ (if c then a else b).fwu = (if c then a.fwu else b.fwu) ∧
    (if c then a else b).glb = (if c then a.glb else b.glb) ∧ (if c then a else b).sb = (if c then a.sb else b.sb) := by
  by_cases h : c
  · simp only [if_pos h, and_self]
  · simp only [if_neg h, and_self]

theorem State.setIsl_still (s : State) (i : Nat) (v : Isl) :
    (State.setIsl s i v).pending = s.pending ∧ (State.setIsl s i v).free = s.free ∧ (State.setIsl s i v).host = s.host ∧
    (State.setIsl s i v).epoch = s.epoch ∧ (State.setIsl s i v).pat = s.pat ∧ (State.setIsl s i v).routes = s.routes ∧
    (State.setIsl s i v).dramMargin = s.dramMargin ∧ (State.setIsl s i v).ports = s.ports ∧ (State.setIsl s i v).trickle = s.trickle ∧
    (State.setIsl s i v).cmd = s.cmd ∧ (State.setIsl s i v).zon = s.zon ∧ (State.setIsl s i v).med = s.med ∧
    (State.setIsl s i v).mlf = s.mlf ∧ (State.setIsl s i v).cpx = s.cpx ∧ (State.setIsl s i v).wvf = s.wvf ∧
    (State.setIsl s i v).bpm = s.bpm ∧ (State.setIsl s i v).sli = s.sli ∧ (State.setIsl s i v).sec = s.sec ∧
    (State.setIsl s i v).mic = s.mic ∧ (State.setIsl s i v).flt = s.flt ∧ (State.setIsl s i v).ctrs = s.ctrs ∧
    (State.setIsl s i v).grps = s.grps ∧ (State.setIsl s i v).pwr = s.pwr ∧ (State.setIsl s i v).thm = s.thm ∧
    (State.setIsl s i v).age = s.age ∧ (State.setIsl s i v).cnv = s.cnv ∧ (State.setIsl s i v).fwu = s.fwu ∧
    (State.setIsl s i v).glb = s.glb ∧ (State.setIsl s i v).sb = s.sb := by
  simp [State.setIsl]
theorem State.modIsl_still (s : State) (i : Nat) (f : Isl → Isl) :
    (State.modIsl s i f).pending = s.pending ∧ (State.modIsl s i f).free = s.free ∧ (State.modIsl s i f).host = s.host ∧
    (State.modIsl s i f).epoch = s.epoch ∧ (State.modIsl s i f).pat = s.pat ∧ (State.modIsl s i f).routes = s.routes ∧
    (State.modIsl s i f).dramMargin = s.dramMargin ∧ (State.modIsl s i f).ports = s.ports ∧ (State.modIsl s i f).trickle = s.trickle ∧
    (State.modIsl s i f).cmd = s.cmd ∧ (State.modIsl s i f).zon = s.zon ∧ (State.modIsl s i f).med = s.med ∧
    (State.modIsl s i f).mlf = s.mlf ∧ (State.modIsl s i f).cpx = s.cpx ∧ (State.modIsl s i f).wvf = s.wvf ∧
    (State.modIsl s i f).bpm = s.bpm ∧ (State.modIsl s i f).sli = s.sli ∧ (State.modIsl s i f).sec = s.sec ∧
    (State.modIsl s i f).mic = s.mic ∧ (State.modIsl s i f).flt = s.flt ∧ (State.modIsl s i f).ctrs = s.ctrs ∧
    (State.modIsl s i f).grps = s.grps ∧ (State.modIsl s i f).pwr = s.pwr ∧ (State.modIsl s i f).thm = s.thm ∧
    (State.modIsl s i f).age = s.age ∧ (State.modIsl s i f).cnv = s.cnv ∧ (State.modIsl s i f).fwu = s.fwu ∧
    (State.modIsl s i f).glb = s.glb ∧ (State.modIsl s i f).sb = s.sb := by
  have w1 := @State.setIsl_still
  simp [State.modIsl, w1]
theorem State.setPort_still (s : State) (p : Nat) (v : Port) :
    (State.setPort s p v).pending = s.pending ∧ (State.setPort s p v).free = s.free ∧ (State.setPort s p v).host = s.host ∧
    (State.setPort s p v).epoch = s.epoch ∧ (State.setPort s p v).pat = s.pat ∧ (State.setPort s p v).isl = s.isl ∧
    (State.setPort s p v).routes = s.routes ∧ (State.setPort s p v).dramMargin = s.dramMargin ∧ (State.setPort s p v).trickle = s.trickle ∧
    (State.setPort s p v).cmd = s.cmd ∧ (State.setPort s p v).zon = s.zon ∧ (State.setPort s p v).med = s.med ∧
    (State.setPort s p v).mlf = s.mlf ∧ (State.setPort s p v).cpx = s.cpx ∧ (State.setPort s p v).wvf = s.wvf ∧
    (State.setPort s p v).bpm = s.bpm ∧ (State.setPort s p v).sli = s.sli ∧ (State.setPort s p v).sec = s.sec ∧
    (State.setPort s p v).mic = s.mic ∧ (State.setPort s p v).flt = s.flt ∧ (State.setPort s p v).ctrs = s.ctrs ∧
    (State.setPort s p v).grps = s.grps ∧ (State.setPort s p v).pwr = s.pwr ∧ (State.setPort s p v).thm = s.thm ∧
    (State.setPort s p v).age = s.age ∧ (State.setPort s p v).cnv = s.cnv ∧ (State.setPort s p v).fwu = s.fwu ∧
    (State.setPort s p v).glb = s.glb ∧ (State.setPort s p v).sb = s.sb := by
  simp [State.setPort]
theorem State.modPort_still (s : State) (p : Nat) (f : Port → Port) :
    (State.modPort s p f).pending = s.pending ∧ (State.modPort s p f).free = s.free ∧ (State.modPort s p f).host = s.host ∧
    (State.modPort s p f).epoch = s.epoch ∧ (State.modPort s p f).pat = s.pat ∧ (State.modPort s p f).isl = s.isl ∧
    (State.modPort s p f).routes = s.routes ∧ (State.modPort s p f).dramMargin = s.dramMargin ∧ (State.modPort s p f).trickle = s.trickle ∧
    (State.modPort s p f).cmd = s.cmd ∧ (State.modPort s p f).zon = s.zon ∧ (State.modPort s p f).med = s.med ∧
    (State.modPort s p f).mlf = s.mlf ∧ (State.modPort s p f).cpx = s.cpx ∧ (State.modPort s p f).wvf = s.wvf ∧
    (State.modPort s p f).bpm = s.bpm ∧ (State.modPort s p f).sli = s.sli ∧ (State.modPort s p f).sec = s.sec ∧
    (State.modPort s p f).mic = s.mic ∧ (State.modPort s p f).flt = s.flt ∧ (State.modPort s p f).ctrs = s.ctrs ∧
    (State.modPort s p f).grps = s.grps ∧ (State.modPort s p f).pwr = s.pwr ∧ (State.modPort s p f).thm = s.thm ∧
    (State.modPort s p f).age = s.age ∧ (State.modPort s p f).cnv = s.cnv ∧ (State.modPort s p f).fwu = s.fwu ∧
    (State.modPort s p f).glb = s.glb ∧ (State.modPort s p f).sb = s.sb := by
  have w1 := @State.setPort_still
  simp [State.modPort, w1]
theorem State.setRoute_still (s : State) (r : Nat) (v : RouteSlot) :
    (State.setRoute s r v).pending = s.pending ∧ (State.setRoute s r v).free = s.free ∧ (State.setRoute s r v).host = s.host ∧
    (State.setRoute s r v).epoch = s.epoch ∧ (State.setRoute s r v).pat = s.pat ∧ (State.setRoute s r v).isl = s.isl ∧
    (State.setRoute s r v).dramMargin = s.dramMargin ∧ (State.setRoute s r v).ports = s.ports ∧
    (State.setRoute s r v).trickle = s.trickle ∧ (State.setRoute s r v).cmd = s.cmd ∧ (State.setRoute s r v).zon = s.zon ∧
    (State.setRoute s r v).med = s.med ∧ (State.setRoute s r v).mlf = s.mlf ∧ (State.setRoute s r v).cpx = s.cpx ∧
    (State.setRoute s r v).wvf = s.wvf ∧ (State.setRoute s r v).bpm = s.bpm ∧ (State.setRoute s r v).sli = s.sli ∧
    (State.setRoute s r v).sec = s.sec ∧ (State.setRoute s r v).mic = s.mic ∧ (State.setRoute s r v).flt = s.flt ∧
    (State.setRoute s r v).ctrs = s.ctrs ∧ (State.setRoute s r v).grps = s.grps ∧ (State.setRoute s r v).pwr = s.pwr ∧
    (State.setRoute s r v).thm = s.thm ∧ (State.setRoute s r v).age = s.age ∧ (State.setRoute s r v).cnv = s.cnv ∧
    (State.setRoute s r v).fwu = s.fwu ∧ (State.setRoute s r v).glb = s.glb ∧ (State.setRoute s r v).sb = s.sb := by
  simp [State.setRoute]
theorem State.modRoute_still (s : State) (r : Nat) (f : RouteSlot → RouteSlot) :
    (State.modRoute s r f).pending = s.pending ∧ (State.modRoute s r f).free = s.free ∧ (State.modRoute s r f).host = s.host ∧
    (State.modRoute s r f).epoch = s.epoch ∧ (State.modRoute s r f).pat = s.pat ∧ (State.modRoute s r f).isl = s.isl ∧
    (State.modRoute s r f).dramMargin = s.dramMargin ∧ (State.modRoute s r f).ports = s.ports ∧
    (State.modRoute s r f).trickle = s.trickle ∧ (State.modRoute s r f).cmd = s.cmd ∧ (State.modRoute s r f).zon = s.zon ∧
    (State.modRoute s r f).med = s.med ∧ (State.modRoute s r f).mlf = s.mlf ∧ (State.modRoute s r f).cpx = s.cpx ∧
    (State.modRoute s r f).wvf = s.wvf ∧ (State.modRoute s r f).bpm = s.bpm ∧ (State.modRoute s r f).sli = s.sli ∧
    (State.modRoute s r f).sec = s.sec ∧ (State.modRoute s r f).mic = s.mic ∧ (State.modRoute s r f).flt = s.flt ∧
    (State.modRoute s r f).ctrs = s.ctrs ∧ (State.modRoute s r f).grps = s.grps ∧ (State.modRoute s r f).pwr = s.pwr ∧
    (State.modRoute s r f).thm = s.thm ∧ (State.modRoute s r f).age = s.age ∧ (State.modRoute s r f).cnv = s.cnv ∧
    (State.modRoute s r f).fwu = s.fwu ∧ (State.modRoute s r f).glb = s.glb ∧ (State.modRoute s r f).sb = s.sb := by
  have w1 := @State.setRoute_still
  simp [State.modRoute, w1]
theorem State.setSli_still (s : State) (n : Nat) (v : Sli) :
    (State.setSli s n v).pending = s.pending ∧ (State.setSli s n v).free = s.free ∧ (State.setSli s n v).host = s.host ∧
    (State.setSli s n v).epoch = s.epoch ∧ (State.setSli s n v).pat = s.pat ∧ (State.setSli s n v).isl = s.isl ∧
    (State.setSli s n v).routes = s.routes ∧ (State.setSli s n v).dramMargin = s.dramMargin ∧ (State.setSli s n v).ports = s.ports ∧
    (State.setSli s n v).trickle = s.trickle ∧ (State.setSli s n v).cmd = s.cmd ∧ (State.setSli s n v).zon = s.zon ∧
    (State.setSli s n v).med = s.med ∧ (State.setSli s n v).mlf = s.mlf ∧ (State.setSli s n v).cpx = s.cpx ∧
    (State.setSli s n v).wvf = s.wvf ∧ (State.setSli s n v).bpm = s.bpm ∧ (State.setSli s n v).sec = s.sec ∧
    (State.setSli s n v).mic = s.mic ∧ (State.setSli s n v).flt = s.flt ∧ (State.setSli s n v).ctrs = s.ctrs ∧
    (State.setSli s n v).grps = s.grps ∧ (State.setSli s n v).pwr = s.pwr ∧ (State.setSli s n v).thm = s.thm ∧
    (State.setSli s n v).age = s.age ∧ (State.setSli s n v).cnv = s.cnv ∧ (State.setSli s n v).fwu = s.fwu ∧
    (State.setSli s n v).glb = s.glb ∧ (State.setSli s n v).sb = s.sb := by
  simp [State.setSli]
theorem State.modSli_still (s : State) (n : Nat) (f : Sli → Sli) :
    (State.modSli s n f).pending = s.pending ∧ (State.modSli s n f).free = s.free ∧ (State.modSli s n f).host = s.host ∧
    (State.modSli s n f).epoch = s.epoch ∧ (State.modSli s n f).pat = s.pat ∧ (State.modSli s n f).isl = s.isl ∧
    (State.modSli s n f).routes = s.routes ∧ (State.modSli s n f).dramMargin = s.dramMargin ∧ (State.modSli s n f).ports = s.ports ∧
    (State.modSli s n f).trickle = s.trickle ∧ (State.modSli s n f).cmd = s.cmd ∧ (State.modSli s n f).zon = s.zon ∧
    (State.modSli s n f).med = s.med ∧ (State.modSli s n f).mlf = s.mlf ∧ (State.modSli s n f).cpx = s.cpx ∧
    (State.modSli s n f).wvf = s.wvf ∧ (State.modSli s n f).bpm = s.bpm ∧ (State.modSli s n f).sec = s.sec ∧
    (State.modSli s n f).mic = s.mic ∧ (State.modSli s n f).flt = s.flt ∧ (State.modSli s n f).ctrs = s.ctrs ∧
    (State.modSli s n f).grps = s.grps ∧ (State.modSli s n f).pwr = s.pwr ∧ (State.modSli s n f).thm = s.thm ∧
    (State.modSli s n f).age = s.age ∧ (State.modSli s n f).cnv = s.cnv ∧ (State.modSli s n f).fwu = s.fwu ∧
    (State.modSli s n f).glb = s.glb ∧ (State.modSli s n f).sb = s.sb := by
  have w1 := @State.setSli_still
  simp [State.modSli, w1]
theorem State.setCtx_still (s : State) (c : Nat) (v : Ctx) :
    (State.setCtx s c v).pending = s.pending ∧ (State.setCtx s c v).free = s.free ∧ (State.setCtx s c v).host = s.host ∧
    (State.setCtx s c v).epoch = s.epoch ∧ (State.setCtx s c v).pat = s.pat ∧ (State.setCtx s c v).isl = s.isl ∧
    (State.setCtx s c v).routes = s.routes ∧ (State.setCtx s c v).dramMargin = s.dramMargin ∧ (State.setCtx s c v).ports = s.ports ∧
    (State.setCtx s c v).trickle = s.trickle ∧ (State.setCtx s c v).zon = s.zon ∧ (State.setCtx s c v).med = s.med ∧
    (State.setCtx s c v).mlf = s.mlf ∧ (State.setCtx s c v).cpx = s.cpx ∧ (State.setCtx s c v).wvf = s.wvf ∧
    (State.setCtx s c v).bpm = s.bpm ∧ (State.setCtx s c v).sli = s.sli ∧ (State.setCtx s c v).sec = s.sec ∧
    (State.setCtx s c v).mic = s.mic ∧ (State.setCtx s c v).flt = s.flt ∧ (State.setCtx s c v).ctrs = s.ctrs ∧
    (State.setCtx s c v).grps = s.grps ∧ (State.setCtx s c v).pwr = s.pwr ∧ (State.setCtx s c v).thm = s.thm ∧
    (State.setCtx s c v).age = s.age ∧ (State.setCtx s c v).cnv = s.cnv ∧ (State.setCtx s c v).fwu = s.fwu ∧
    (State.setCtx s c v).glb = s.glb ∧ (State.setCtx s c v).sb = s.sb := by
  simp [State.setCtx]
theorem State.modCtx_still (s : State) (c : Nat) (f : Ctx → Ctx) :
    (State.modCtx s c f).pending = s.pending ∧ (State.modCtx s c f).free = s.free ∧ (State.modCtx s c f).host = s.host ∧
    (State.modCtx s c f).epoch = s.epoch ∧ (State.modCtx s c f).pat = s.pat ∧ (State.modCtx s c f).isl = s.isl ∧
    (State.modCtx s c f).routes = s.routes ∧ (State.modCtx s c f).dramMargin = s.dramMargin ∧ (State.modCtx s c f).ports = s.ports ∧
    (State.modCtx s c f).trickle = s.trickle ∧ (State.modCtx s c f).zon = s.zon ∧ (State.modCtx s c f).med = s.med ∧
    (State.modCtx s c f).mlf = s.mlf ∧ (State.modCtx s c f).cpx = s.cpx ∧ (State.modCtx s c f).wvf = s.wvf ∧
    (State.modCtx s c f).bpm = s.bpm ∧ (State.modCtx s c f).sli = s.sli ∧ (State.modCtx s c f).sec = s.sec ∧
    (State.modCtx s c f).mic = s.mic ∧ (State.modCtx s c f).flt = s.flt ∧ (State.modCtx s c f).ctrs = s.ctrs ∧
    (State.modCtx s c f).grps = s.grps ∧ (State.modCtx s c f).pwr = s.pwr ∧ (State.modCtx s c f).thm = s.thm ∧
    (State.modCtx s c f).age = s.age ∧ (State.modCtx s c f).cnv = s.cnv ∧ (State.modCtx s c f).fwu = s.fwu ∧
    (State.modCtx s c f).glb = s.glb ∧ (State.modCtx s c f).sb = s.sb := by
  have w1 := @State.setCtx_still
  simp [State.modCtx, w1]
theorem State.delCtx_still (s : State) (c : Nat) :
    (State.delCtx s c).pending = s.pending ∧ (State.delCtx s c).free = s.free ∧ (State.delCtx s c).host = s.host ∧
    (State.delCtx s c).epoch = s.epoch ∧ (State.delCtx s c).pat = s.pat ∧ (State.delCtx s c).isl = s.isl ∧
    (State.delCtx s c).routes = s.routes ∧ (State.delCtx s c).dramMargin = s.dramMargin ∧ (State.delCtx s c).ports = s.ports ∧
    (State.delCtx s c).trickle = s.trickle ∧ (State.delCtx s c).zon = s.zon ∧ (State.delCtx s c).med = s.med ∧
    (State.delCtx s c).mlf = s.mlf ∧ (State.delCtx s c).cpx = s.cpx ∧ (State.delCtx s c).wvf = s.wvf ∧ (State.delCtx s c).bpm = s.bpm ∧
    (State.delCtx s c).sli = s.sli ∧ (State.delCtx s c).sec = s.sec ∧ (State.delCtx s c).mic = s.mic ∧ (State.delCtx s c).flt = s.flt ∧
    (State.delCtx s c).ctrs = s.ctrs ∧ (State.delCtx s c).grps = s.grps ∧ (State.delCtx s c).pwr = s.pwr ∧ (State.delCtx s c).thm = s.thm ∧
    (State.delCtx s c).age = s.age ∧ (State.delCtx s c).cnv = s.cnv ∧ (State.delCtx s c).fwu = s.fwu ∧ (State.delCtx s c).glb = s.glb ∧
    (State.delCtx s c).sb = s.sb := by
  simp [State.delCtx]
theorem State.setQueue_still (s : State) (q : Nat) (v : Queue) :
    (State.setQueue s q v).pending = s.pending ∧ (State.setQueue s q v).free = s.free ∧ (State.setQueue s q v).host = s.host ∧
    (State.setQueue s q v).epoch = s.epoch ∧ (State.setQueue s q v).pat = s.pat ∧ (State.setQueue s q v).isl = s.isl ∧
    (State.setQueue s q v).routes = s.routes ∧ (State.setQueue s q v).dramMargin = s.dramMargin ∧ (State.setQueue s q v).ports = s.ports ∧
    (State.setQueue s q v).trickle = s.trickle ∧ (State.setQueue s q v).zon = s.zon ∧ (State.setQueue s q v).med = s.med ∧
    (State.setQueue s q v).mlf = s.mlf ∧ (State.setQueue s q v).cpx = s.cpx ∧ (State.setQueue s q v).wvf = s.wvf ∧
    (State.setQueue s q v).bpm = s.bpm ∧ (State.setQueue s q v).sli = s.sli ∧ (State.setQueue s q v).sec = s.sec ∧
    (State.setQueue s q v).mic = s.mic ∧ (State.setQueue s q v).flt = s.flt ∧ (State.setQueue s q v).ctrs = s.ctrs ∧
    (State.setQueue s q v).grps = s.grps ∧ (State.setQueue s q v).pwr = s.pwr ∧ (State.setQueue s q v).thm = s.thm ∧
    (State.setQueue s q v).age = s.age ∧ (State.setQueue s q v).cnv = s.cnv ∧ (State.setQueue s q v).fwu = s.fwu ∧
    (State.setQueue s q v).glb = s.glb ∧ (State.setQueue s q v).sb = s.sb := by
  simp [State.setQueue]
theorem State.modQueue_still (s : State) (q : Nat) (f : Queue → Queue) :
    (State.modQueue s q f).pending = s.pending ∧ (State.modQueue s q f).free = s.free ∧ (State.modQueue s q f).host = s.host ∧
    (State.modQueue s q f).epoch = s.epoch ∧ (State.modQueue s q f).pat = s.pat ∧ (State.modQueue s q f).isl = s.isl ∧
    (State.modQueue s q f).routes = s.routes ∧ (State.modQueue s q f).dramMargin = s.dramMargin ∧ (State.modQueue s q f).ports = s.ports ∧
    (State.modQueue s q f).trickle = s.trickle ∧ (State.modQueue s q f).zon = s.zon ∧ (State.modQueue s q f).med = s.med ∧
    (State.modQueue s q f).mlf = s.mlf ∧ (State.modQueue s q f).cpx = s.cpx ∧ (State.modQueue s q f).wvf = s.wvf ∧
    (State.modQueue s q f).bpm = s.bpm ∧ (State.modQueue s q f).sli = s.sli ∧ (State.modQueue s q f).sec = s.sec ∧
    (State.modQueue s q f).mic = s.mic ∧ (State.modQueue s q f).flt = s.flt ∧ (State.modQueue s q f).ctrs = s.ctrs ∧
    (State.modQueue s q f).grps = s.grps ∧ (State.modQueue s q f).pwr = s.pwr ∧ (State.modQueue s q f).thm = s.thm ∧
    (State.modQueue s q f).age = s.age ∧ (State.modQueue s q f).cnv = s.cnv ∧ (State.modQueue s q f).fwu = s.fwu ∧
    (State.modQueue s q f).glb = s.glb ∧ (State.modQueue s q f).sb = s.sb := by
  have w1 := @State.setQueue_still
  simp [State.modQueue, w1]
theorem State.bumpQ_still (s : State) (dq n : Nat) :
    (State.bumpQ s dq n).pending = s.pending ∧ (State.bumpQ s dq n).free = s.free ∧ (State.bumpQ s dq n).host = s.host ∧
    (State.bumpQ s dq n).epoch = s.epoch ∧ (State.bumpQ s dq n).pat = s.pat ∧ (State.bumpQ s dq n).isl = s.isl ∧
    (State.bumpQ s dq n).routes = s.routes ∧ (State.bumpQ s dq n).dramMargin = s.dramMargin ∧ (State.bumpQ s dq n).ports = s.ports ∧
    (State.bumpQ s dq n).trickle = s.trickle ∧ (State.bumpQ s dq n).zon = s.zon ∧ (State.bumpQ s dq n).med = s.med ∧
    (State.bumpQ s dq n).mlf = s.mlf ∧ (State.bumpQ s dq n).cpx = s.cpx ∧ (State.bumpQ s dq n).wvf = s.wvf ∧
    (State.bumpQ s dq n).bpm = s.bpm ∧ (State.bumpQ s dq n).sli = s.sli ∧ (State.bumpQ s dq n).sec = s.sec ∧
    (State.bumpQ s dq n).mic = s.mic ∧ (State.bumpQ s dq n).flt = s.flt ∧ (State.bumpQ s dq n).ctrs = s.ctrs ∧
    (State.bumpQ s dq n).grps = s.grps ∧ (State.bumpQ s dq n).pwr = s.pwr ∧ (State.bumpQ s dq n).thm = s.thm ∧
    (State.bumpQ s dq n).age = s.age ∧ (State.bumpQ s dq n).cnv = s.cnv ∧ (State.bumpQ s dq n).fwu = s.fwu ∧
    (State.bumpQ s dq n).glb = s.glb ∧ (State.bumpQ s dq n).sb = s.sb := by
  simp [State.bumpQ]
theorem State.setOq_still (s : State) (k : Nat) (v : Oq) :
    (State.setOq s k v).pending = s.pending ∧ (State.setOq s k v).free = s.free ∧ (State.setOq s k v).host = s.host ∧
    (State.setOq s k v).epoch = s.epoch ∧ (State.setOq s k v).pat = s.pat ∧ (State.setOq s k v).isl = s.isl ∧
    (State.setOq s k v).routes = s.routes ∧ (State.setOq s k v).dramMargin = s.dramMargin ∧ (State.setOq s k v).ports = s.ports ∧
    (State.setOq s k v).trickle = s.trickle ∧ (State.setOq s k v).zon = s.zon ∧ (State.setOq s k v).med = s.med ∧
    (State.setOq s k v).mlf = s.mlf ∧ (State.setOq s k v).cpx = s.cpx ∧ (State.setOq s k v).wvf = s.wvf ∧ (State.setOq s k v).bpm = s.bpm ∧
    (State.setOq s k v).sli = s.sli ∧ (State.setOq s k v).sec = s.sec ∧ (State.setOq s k v).mic = s.mic ∧ (State.setOq s k v).flt = s.flt ∧
    (State.setOq s k v).ctrs = s.ctrs ∧ (State.setOq s k v).grps = s.grps ∧ (State.setOq s k v).pwr = s.pwr ∧
    (State.setOq s k v).thm = s.thm ∧ (State.setOq s k v).age = s.age ∧ (State.setOq s k v).cnv = s.cnv ∧ (State.setOq s k v).fwu = s.fwu ∧
    (State.setOq s k v).glb = s.glb ∧ (State.setOq s k v).sb = s.sb := by
  simp [State.setOq]
theorem State.setCtrl_still (s : State) (k : Nat) (v : Ctrl) :
    (State.setCtrl s k v).pending = s.pending ∧ (State.setCtrl s k v).free = s.free ∧ (State.setCtrl s k v).host = s.host ∧
    (State.setCtrl s k v).epoch = s.epoch ∧ (State.setCtrl s k v).pat = s.pat ∧ (State.setCtrl s k v).isl = s.isl ∧
    (State.setCtrl s k v).routes = s.routes ∧ (State.setCtrl s k v).dramMargin = s.dramMargin ∧ (State.setCtrl s k v).ports = s.ports ∧
    (State.setCtrl s k v).trickle = s.trickle ∧ (State.setCtrl s k v).zon = s.zon ∧ (State.setCtrl s k v).med = s.med ∧
    (State.setCtrl s k v).mlf = s.mlf ∧ (State.setCtrl s k v).cpx = s.cpx ∧ (State.setCtrl s k v).wvf = s.wvf ∧
    (State.setCtrl s k v).bpm = s.bpm ∧ (State.setCtrl s k v).sli = s.sli ∧ (State.setCtrl s k v).sec = s.sec ∧
    (State.setCtrl s k v).mic = s.mic ∧ (State.setCtrl s k v).flt = s.flt ∧ (State.setCtrl s k v).ctrs = s.ctrs ∧
    (State.setCtrl s k v).grps = s.grps ∧ (State.setCtrl s k v).pwr = s.pwr ∧ (State.setCtrl s k v).thm = s.thm ∧
    (State.setCtrl s k v).age = s.age ∧ (State.setCtrl s k v).cnv = s.cnv ∧ (State.setCtrl s k v).fwu = s.fwu ∧
    (State.setCtrl s k v).glb = s.glb ∧ (State.setCtrl s k v).sb = s.sb := by
  simp [State.setCtrl]
theorem State.modCtrl_still (s : State) (k : Nat) (f : Ctrl → Ctrl) :
    (State.modCtrl s k f).pending = s.pending ∧ (State.modCtrl s k f).free = s.free ∧ (State.modCtrl s k f).host = s.host ∧
    (State.modCtrl s k f).epoch = s.epoch ∧ (State.modCtrl s k f).pat = s.pat ∧ (State.modCtrl s k f).isl = s.isl ∧
    (State.modCtrl s k f).routes = s.routes ∧ (State.modCtrl s k f).dramMargin = s.dramMargin ∧ (State.modCtrl s k f).ports = s.ports ∧
    (State.modCtrl s k f).trickle = s.trickle ∧ (State.modCtrl s k f).zon = s.zon ∧ (State.modCtrl s k f).med = s.med ∧
    (State.modCtrl s k f).mlf = s.mlf ∧ (State.modCtrl s k f).cpx = s.cpx ∧ (State.modCtrl s k f).wvf = s.wvf ∧
    (State.modCtrl s k f).bpm = s.bpm ∧ (State.modCtrl s k f).sli = s.sli ∧ (State.modCtrl s k f).sec = s.sec ∧
    (State.modCtrl s k f).mic = s.mic ∧ (State.modCtrl s k f).flt = s.flt ∧ (State.modCtrl s k f).ctrs = s.ctrs ∧
    (State.modCtrl s k f).grps = s.grps ∧ (State.modCtrl s k f).pwr = s.pwr ∧ (State.modCtrl s k f).thm = s.thm ∧
    (State.modCtrl s k f).age = s.age ∧ (State.modCtrl s k f).cnv = s.cnv ∧ (State.modCtrl s k f).fwu = s.fwu ∧
    (State.modCtrl s k f).glb = s.glb ∧ (State.modCtrl s k f).sb = s.sb := by
  have w1 := @State.setCtrl_still
  simp [State.modCtrl, w1]
theorem State.setNs_still (s : State) (n : Nat) (v : Ns) :
    (State.setNs s n v).pending = s.pending ∧ (State.setNs s n v).free = s.free ∧ (State.setNs s n v).host = s.host ∧
    (State.setNs s n v).epoch = s.epoch ∧ (State.setNs s n v).pat = s.pat ∧ (State.setNs s n v).isl = s.isl ∧
    (State.setNs s n v).routes = s.routes ∧ (State.setNs s n v).dramMargin = s.dramMargin ∧ (State.setNs s n v).ports = s.ports ∧
    (State.setNs s n v).trickle = s.trickle ∧ (State.setNs s n v).cmd = s.cmd ∧ (State.setNs s n v).med = s.med ∧
    (State.setNs s n v).mlf = s.mlf ∧ (State.setNs s n v).cpx = s.cpx ∧ (State.setNs s n v).wvf = s.wvf ∧ (State.setNs s n v).bpm = s.bpm ∧
    (State.setNs s n v).sli = s.sli ∧ (State.setNs s n v).sec = s.sec ∧ (State.setNs s n v).mic = s.mic ∧ (State.setNs s n v).flt = s.flt ∧
    (State.setNs s n v).ctrs = s.ctrs ∧ (State.setNs s n v).grps = s.grps ∧ (State.setNs s n v).pwr = s.pwr ∧
    (State.setNs s n v).thm = s.thm ∧ (State.setNs s n v).age = s.age ∧ (State.setNs s n v).cnv = s.cnv ∧ (State.setNs s n v).fwu = s.fwu ∧
    (State.setNs s n v).glb = s.glb ∧ (State.setNs s n v).sb = s.sb := by
  simp [State.setNs]
theorem State.modNs_still (s : State) (n : Nat) (f : Ns → Ns) :
    (State.modNs s n f).pending = s.pending ∧ (State.modNs s n f).free = s.free ∧ (State.modNs s n f).host = s.host ∧
    (State.modNs s n f).epoch = s.epoch ∧ (State.modNs s n f).pat = s.pat ∧ (State.modNs s n f).isl = s.isl ∧
    (State.modNs s n f).routes = s.routes ∧ (State.modNs s n f).dramMargin = s.dramMargin ∧ (State.modNs s n f).ports = s.ports ∧
    (State.modNs s n f).trickle = s.trickle ∧ (State.modNs s n f).cmd = s.cmd ∧ (State.modNs s n f).med = s.med ∧
    (State.modNs s n f).mlf = s.mlf ∧ (State.modNs s n f).cpx = s.cpx ∧ (State.modNs s n f).wvf = s.wvf ∧ (State.modNs s n f).bpm = s.bpm ∧
    (State.modNs s n f).sli = s.sli ∧ (State.modNs s n f).sec = s.sec ∧ (State.modNs s n f).mic = s.mic ∧ (State.modNs s n f).flt = s.flt ∧
    (State.modNs s n f).ctrs = s.ctrs ∧ (State.modNs s n f).grps = s.grps ∧ (State.modNs s n f).pwr = s.pwr ∧
    (State.modNs s n f).thm = s.thm ∧ (State.modNs s n f).age = s.age ∧ (State.modNs s n f).cnv = s.cnv ∧ (State.modNs s n f).fwu = s.fwu ∧
    (State.modNs s n f).glb = s.glb ∧ (State.modNs s n f).sb = s.sb := by
  have w1 := @State.setNs_still
  simp [State.modNs, w1]
theorem State.setZent_still (s : State) (e : Nat) (v : ZEnt) :
    (State.setZent s e v).pending = s.pending ∧ (State.setZent s e v).free = s.free ∧ (State.setZent s e v).host = s.host ∧
    (State.setZent s e v).epoch = s.epoch ∧ (State.setZent s e v).pat = s.pat ∧ (State.setZent s e v).isl = s.isl ∧
    (State.setZent s e v).routes = s.routes ∧ (State.setZent s e v).dramMargin = s.dramMargin ∧ (State.setZent s e v).ports = s.ports ∧
    (State.setZent s e v).trickle = s.trickle ∧ (State.setZent s e v).cmd = s.cmd ∧ (State.setZent s e v).med = s.med ∧
    (State.setZent s e v).mlf = s.mlf ∧ (State.setZent s e v).cpx = s.cpx ∧ (State.setZent s e v).wvf = s.wvf ∧
    (State.setZent s e v).bpm = s.bpm ∧ (State.setZent s e v).sli = s.sli ∧ (State.setZent s e v).sec = s.sec ∧
    (State.setZent s e v).mic = s.mic ∧ (State.setZent s e v).flt = s.flt ∧ (State.setZent s e v).ctrs = s.ctrs ∧
    (State.setZent s e v).grps = s.grps ∧ (State.setZent s e v).pwr = s.pwr ∧ (State.setZent s e v).thm = s.thm ∧
    (State.setZent s e v).age = s.age ∧ (State.setZent s e v).cnv = s.cnv ∧ (State.setZent s e v).fwu = s.fwu ∧
    (State.setZent s e v).glb = s.glb ∧ (State.setZent s e v).sb = s.sb := by
  simp [State.setZent]
theorem State.modZent_still (s : State) (e : Nat) (f : ZEnt → ZEnt) :
    (State.modZent s e f).pending = s.pending ∧ (State.modZent s e f).free = s.free ∧ (State.modZent s e f).host = s.host ∧
    (State.modZent s e f).epoch = s.epoch ∧ (State.modZent s e f).pat = s.pat ∧ (State.modZent s e f).isl = s.isl ∧
    (State.modZent s e f).routes = s.routes ∧ (State.modZent s e f).dramMargin = s.dramMargin ∧ (State.modZent s e f).ports = s.ports ∧
    (State.modZent s e f).trickle = s.trickle ∧ (State.modZent s e f).cmd = s.cmd ∧ (State.modZent s e f).med = s.med ∧
    (State.modZent s e f).mlf = s.mlf ∧ (State.modZent s e f).cpx = s.cpx ∧ (State.modZent s e f).wvf = s.wvf ∧
    (State.modZent s e f).bpm = s.bpm ∧ (State.modZent s e f).sli = s.sli ∧ (State.modZent s e f).sec = s.sec ∧
    (State.modZent s e f).mic = s.mic ∧ (State.modZent s e f).flt = s.flt ∧ (State.modZent s e f).ctrs = s.ctrs ∧
    (State.modZent s e f).grps = s.grps ∧ (State.modZent s e f).pwr = s.pwr ∧ (State.modZent s e f).thm = s.thm ∧
    (State.modZent s e f).age = s.age ∧ (State.modZent s e f).cnv = s.cnv ∧ (State.modZent s e f).fwu = s.fwu ∧
    (State.modZent s e f).glb = s.glb ∧ (State.modZent s e f).sb = s.sb := by
  have w1 := @State.setZent_still
  simp [State.modZent, w1]
theorem State.setProj_still (s : State) (e : Nat) (v : ZProj) :
    (State.setProj s e v).pending = s.pending ∧ (State.setProj s e v).free = s.free ∧ (State.setProj s e v).host = s.host ∧
    (State.setProj s e v).epoch = s.epoch ∧ (State.setProj s e v).pat = s.pat ∧ (State.setProj s e v).isl = s.isl ∧
    (State.setProj s e v).routes = s.routes ∧ (State.setProj s e v).dramMargin = s.dramMargin ∧ (State.setProj s e v).ports = s.ports ∧
    (State.setProj s e v).trickle = s.trickle ∧ (State.setProj s e v).cmd = s.cmd ∧ (State.setProj s e v).med = s.med ∧
    (State.setProj s e v).mlf = s.mlf ∧ (State.setProj s e v).cpx = s.cpx ∧ (State.setProj s e v).wvf = s.wvf ∧
    (State.setProj s e v).bpm = s.bpm ∧ (State.setProj s e v).sli = s.sli ∧ (State.setProj s e v).sec = s.sec ∧
    (State.setProj s e v).mic = s.mic ∧ (State.setProj s e v).flt = s.flt ∧ (State.setProj s e v).ctrs = s.ctrs ∧
    (State.setProj s e v).grps = s.grps ∧ (State.setProj s e v).pwr = s.pwr ∧ (State.setProj s e v).thm = s.thm ∧
    (State.setProj s e v).age = s.age ∧ (State.setProj s e v).cnv = s.cnv ∧ (State.setProj s e v).fwu = s.fwu ∧
    (State.setProj s e v).glb = s.glb ∧ (State.setProj s e v).sb = s.sb := by
  simp [State.setProj]
theorem State.delProj_still (s : State) (e : Nat) :
    (State.delProj s e).pending = s.pending ∧ (State.delProj s e).free = s.free ∧ (State.delProj s e).host = s.host ∧
    (State.delProj s e).epoch = s.epoch ∧ (State.delProj s e).pat = s.pat ∧ (State.delProj s e).isl = s.isl ∧
    (State.delProj s e).routes = s.routes ∧ (State.delProj s e).dramMargin = s.dramMargin ∧ (State.delProj s e).ports = s.ports ∧
    (State.delProj s e).trickle = s.trickle ∧ (State.delProj s e).cmd = s.cmd ∧ (State.delProj s e).med = s.med ∧
    (State.delProj s e).mlf = s.mlf ∧ (State.delProj s e).cpx = s.cpx ∧ (State.delProj s e).wvf = s.wvf ∧ (State.delProj s e).bpm = s.bpm ∧
    (State.delProj s e).sli = s.sli ∧ (State.delProj s e).sec = s.sec ∧ (State.delProj s e).mic = s.mic ∧ (State.delProj s e).flt = s.flt ∧
    (State.delProj s e).ctrs = s.ctrs ∧ (State.delProj s e).grps = s.grps ∧ (State.delProj s e).pwr = s.pwr ∧
    (State.delProj s e).thm = s.thm ∧ (State.delProj s e).age = s.age ∧ (State.delProj s e).cnv = s.cnv ∧ (State.delProj s e).fwu = s.fwu ∧
    (State.delProj s e).glb = s.glb ∧ (State.delProj s e).sb = s.sb := by
  simp [State.delProj]
theorem State.setMap_still (s : State) (k : Nat) (v : MapEnt) :
    (State.setMap s k v).pending = s.pending ∧ (State.setMap s k v).free = s.free ∧ (State.setMap s k v).host = s.host ∧
    (State.setMap s k v).epoch = s.epoch ∧ (State.setMap s k v).pat = s.pat ∧ (State.setMap s k v).isl = s.isl ∧
    (State.setMap s k v).routes = s.routes ∧ (State.setMap s k v).dramMargin = s.dramMargin ∧ (State.setMap s k v).ports = s.ports ∧
    (State.setMap s k v).trickle = s.trickle ∧ (State.setMap s k v).cmd = s.cmd ∧ (State.setMap s k v).med = s.med ∧
    (State.setMap s k v).mlf = s.mlf ∧ (State.setMap s k v).cpx = s.cpx ∧ (State.setMap s k v).wvf = s.wvf ∧
    (State.setMap s k v).bpm = s.bpm ∧ (State.setMap s k v).sli = s.sli ∧ (State.setMap s k v).sec = s.sec ∧
    (State.setMap s k v).mic = s.mic ∧ (State.setMap s k v).flt = s.flt ∧ (State.setMap s k v).ctrs = s.ctrs ∧
    (State.setMap s k v).grps = s.grps ∧ (State.setMap s k v).pwr = s.pwr ∧ (State.setMap s k v).thm = s.thm ∧
    (State.setMap s k v).age = s.age ∧ (State.setMap s k v).cnv = s.cnv ∧ (State.setMap s k v).fwu = s.fwu ∧
    (State.setMap s k v).glb = s.glb ∧ (State.setMap s k v).sb = s.sb := by
  simp [State.setMap]
theorem State.setDie_still (s : State) (d : Nat) (v : Die) :
    (State.setDie s d v).pending = s.pending ∧ (State.setDie s d v).free = s.free ∧ (State.setDie s d v).host = s.host ∧
    (State.setDie s d v).epoch = s.epoch ∧ (State.setDie s d v).pat = s.pat ∧ (State.setDie s d v).isl = s.isl ∧
    (State.setDie s d v).routes = s.routes ∧ (State.setDie s d v).dramMargin = s.dramMargin ∧ (State.setDie s d v).ports = s.ports ∧
    (State.setDie s d v).trickle = s.trickle ∧ (State.setDie s d v).cmd = s.cmd ∧ (State.setDie s d v).zon = s.zon ∧
    (State.setDie s d v).mlf = s.mlf ∧ (State.setDie s d v).cpx = s.cpx ∧ (State.setDie s d v).wvf = s.wvf ∧
    (State.setDie s d v).bpm = s.bpm ∧ (State.setDie s d v).sli = s.sli ∧ (State.setDie s d v).sec = s.sec ∧
    (State.setDie s d v).mic = s.mic ∧ (State.setDie s d v).flt = s.flt ∧ (State.setDie s d v).ctrs = s.ctrs ∧
    (State.setDie s d v).grps = s.grps ∧ (State.setDie s d v).pwr = s.pwr ∧ (State.setDie s d v).thm = s.thm ∧
    (State.setDie s d v).age = s.age ∧ (State.setDie s d v).cnv = s.cnv ∧ (State.setDie s d v).fwu = s.fwu ∧
    (State.setDie s d v).glb = s.glb ∧ (State.setDie s d v).sb = s.sb := by
  simp [State.setDie]
theorem State.modDie_still (s : State) (d : Nat) (f : Die → Die) :
    (State.modDie s d f).pending = s.pending ∧ (State.modDie s d f).free = s.free ∧ (State.modDie s d f).host = s.host ∧
    (State.modDie s d f).epoch = s.epoch ∧ (State.modDie s d f).pat = s.pat ∧ (State.modDie s d f).isl = s.isl ∧
    (State.modDie s d f).routes = s.routes ∧ (State.modDie s d f).dramMargin = s.dramMargin ∧ (State.modDie s d f).ports = s.ports ∧
    (State.modDie s d f).trickle = s.trickle ∧ (State.modDie s d f).cmd = s.cmd ∧ (State.modDie s d f).zon = s.zon ∧
    (State.modDie s d f).mlf = s.mlf ∧ (State.modDie s d f).cpx = s.cpx ∧ (State.modDie s d f).wvf = s.wvf ∧
    (State.modDie s d f).bpm = s.bpm ∧ (State.modDie s d f).sli = s.sli ∧ (State.modDie s d f).sec = s.sec ∧
    (State.modDie s d f).mic = s.mic ∧ (State.modDie s d f).flt = s.flt ∧ (State.modDie s d f).ctrs = s.ctrs ∧
    (State.modDie s d f).grps = s.grps ∧ (State.modDie s d f).pwr = s.pwr ∧ (State.modDie s d f).thm = s.thm ∧
    (State.modDie s d f).age = s.age ∧ (State.modDie s d f).cnv = s.cnv ∧ (State.modDie s d f).fwu = s.fwu ∧
    (State.modDie s d f).glb = s.glb ∧ (State.modDie s d f).sb = s.sb := by
  have w1 := @State.setDie_still
  simp [State.modDie, w1]
theorem State.setChan_still (s : State) (c : Nat) (v : Chan) :
    (State.setChan s c v).pending = s.pending ∧ (State.setChan s c v).free = s.free ∧ (State.setChan s c v).host = s.host ∧
    (State.setChan s c v).epoch = s.epoch ∧ (State.setChan s c v).pat = s.pat ∧ (State.setChan s c v).isl = s.isl ∧
    (State.setChan s c v).routes = s.routes ∧ (State.setChan s c v).dramMargin = s.dramMargin ∧ (State.setChan s c v).ports = s.ports ∧
    (State.setChan s c v).trickle = s.trickle ∧ (State.setChan s c v).cmd = s.cmd ∧ (State.setChan s c v).zon = s.zon ∧
    (State.setChan s c v).mlf = s.mlf ∧ (State.setChan s c v).cpx = s.cpx ∧ (State.setChan s c v).wvf = s.wvf ∧
    (State.setChan s c v).bpm = s.bpm ∧ (State.setChan s c v).sli = s.sli ∧ (State.setChan s c v).sec = s.sec ∧
    (State.setChan s c v).mic = s.mic ∧ (State.setChan s c v).flt = s.flt ∧ (State.setChan s c v).ctrs = s.ctrs ∧
    (State.setChan s c v).grps = s.grps ∧ (State.setChan s c v).pwr = s.pwr ∧ (State.setChan s c v).thm = s.thm ∧
    (State.setChan s c v).age = s.age ∧ (State.setChan s c v).cnv = s.cnv ∧ (State.setChan s c v).fwu = s.fwu ∧
    (State.setChan s c v).glb = s.glb ∧ (State.setChan s c v).sb = s.sb := by
  simp [State.setChan]
theorem State.modChan_still (s : State) (c : Nat) (f : Chan → Chan) :
    (State.modChan s c f).pending = s.pending ∧ (State.modChan s c f).free = s.free ∧ (State.modChan s c f).host = s.host ∧
    (State.modChan s c f).epoch = s.epoch ∧ (State.modChan s c f).pat = s.pat ∧ (State.modChan s c f).isl = s.isl ∧
    (State.modChan s c f).routes = s.routes ∧ (State.modChan s c f).dramMargin = s.dramMargin ∧ (State.modChan s c f).ports = s.ports ∧
    (State.modChan s c f).trickle = s.trickle ∧ (State.modChan s c f).cmd = s.cmd ∧ (State.modChan s c f).zon = s.zon ∧
    (State.modChan s c f).mlf = s.mlf ∧ (State.modChan s c f).cpx = s.cpx ∧ (State.modChan s c f).wvf = s.wvf ∧
    (State.modChan s c f).bpm = s.bpm ∧ (State.modChan s c f).sli = s.sli ∧ (State.modChan s c f).sec = s.sec ∧
    (State.modChan s c f).mic = s.mic ∧ (State.modChan s c f).flt = s.flt ∧ (State.modChan s c f).ctrs = s.ctrs ∧
    (State.modChan s c f).grps = s.grps ∧ (State.modChan s c f).pwr = s.pwr ∧ (State.modChan s c f).thm = s.thm ∧
    (State.modChan s c f).age = s.age ∧ (State.modChan s c f).cnv = s.cnv ∧ (State.modChan s c f).fwu = s.fwu ∧
    (State.modChan s c f).glb = s.glb ∧ (State.modChan s c f).sb = s.sb := by
  have w1 := @State.setChan_still
  simp [State.modChan, w1]
theorem State.setClu_still (s : State) (k : Nat) (v : Clu) :
    (State.setClu s k v).pending = s.pending ∧ (State.setClu s k v).free = s.free ∧ (State.setClu s k v).host = s.host ∧
    (State.setClu s k v).epoch = s.epoch ∧ (State.setClu s k v).pat = s.pat ∧ (State.setClu s k v).isl = s.isl ∧
    (State.setClu s k v).routes = s.routes ∧ (State.setClu s k v).dramMargin = s.dramMargin ∧ (State.setClu s k v).ports = s.ports ∧
    (State.setClu s k v).trickle = s.trickle ∧ (State.setClu s k v).cmd = s.cmd ∧ (State.setClu s k v).zon = s.zon ∧
    (State.setClu s k v).mlf = s.mlf ∧ (State.setClu s k v).cpx = s.cpx ∧ (State.setClu s k v).wvf = s.wvf ∧
    (State.setClu s k v).bpm = s.bpm ∧ (State.setClu s k v).sli = s.sli ∧ (State.setClu s k v).sec = s.sec ∧
    (State.setClu s k v).mic = s.mic ∧ (State.setClu s k v).flt = s.flt ∧ (State.setClu s k v).ctrs = s.ctrs ∧
    (State.setClu s k v).grps = s.grps ∧ (State.setClu s k v).pwr = s.pwr ∧ (State.setClu s k v).thm = s.thm ∧
    (State.setClu s k v).age = s.age ∧ (State.setClu s k v).cnv = s.cnv ∧ (State.setClu s k v).fwu = s.fwu ∧
    (State.setClu s k v).glb = s.glb ∧ (State.setClu s k v).sb = s.sb := by
  simp [State.setClu]
theorem State.modClu_still (s : State) (k : Nat) (f : Clu → Clu) :
    (State.modClu s k f).pending = s.pending ∧ (State.modClu s k f).free = s.free ∧ (State.modClu s k f).host = s.host ∧
    (State.modClu s k f).epoch = s.epoch ∧ (State.modClu s k f).pat = s.pat ∧ (State.modClu s k f).isl = s.isl ∧
    (State.modClu s k f).routes = s.routes ∧ (State.modClu s k f).dramMargin = s.dramMargin ∧ (State.modClu s k f).ports = s.ports ∧
    (State.modClu s k f).trickle = s.trickle ∧ (State.modClu s k f).cmd = s.cmd ∧ (State.modClu s k f).zon = s.zon ∧
    (State.modClu s k f).mlf = s.mlf ∧ (State.modClu s k f).cpx = s.cpx ∧ (State.modClu s k f).wvf = s.wvf ∧
    (State.modClu s k f).bpm = s.bpm ∧ (State.modClu s k f).sli = s.sli ∧ (State.modClu s k f).sec = s.sec ∧
    (State.modClu s k f).mic = s.mic ∧ (State.modClu s k f).flt = s.flt ∧ (State.modClu s k f).ctrs = s.ctrs ∧
    (State.modClu s k f).grps = s.grps ∧ (State.modClu s k f).pwr = s.pwr ∧ (State.modClu s k f).thm = s.thm ∧
    (State.modClu s k f).age = s.age ∧ (State.modClu s k f).cnv = s.cnv ∧ (State.modClu s k f).fwu = s.fwu ∧
    (State.modClu s k f).glb = s.glb ∧ (State.modClu s k f).sb = s.sb := by
  have w1 := @State.setClu_still
  simp [State.modClu, w1]
theorem State.setBay_still (s : State) (b : Nat) (v : Bay) :
    (State.setBay s b v).pending = s.pending ∧ (State.setBay s b v).free = s.free ∧ (State.setBay s b v).host = s.host ∧
    (State.setBay s b v).epoch = s.epoch ∧ (State.setBay s b v).pat = s.pat ∧ (State.setBay s b v).isl = s.isl ∧
    (State.setBay s b v).routes = s.routes ∧ (State.setBay s b v).dramMargin = s.dramMargin ∧ (State.setBay s b v).ports = s.ports ∧
    (State.setBay s b v).trickle = s.trickle ∧ (State.setBay s b v).cmd = s.cmd ∧ (State.setBay s b v).zon = s.zon ∧
    (State.setBay s b v).mlf = s.mlf ∧ (State.setBay s b v).cpx = s.cpx ∧ (State.setBay s b v).wvf = s.wvf ∧
    (State.setBay s b v).bpm = s.bpm ∧ (State.setBay s b v).sli = s.sli ∧ (State.setBay s b v).sec = s.sec ∧
    (State.setBay s b v).mic = s.mic ∧ (State.setBay s b v).flt = s.flt ∧ (State.setBay s b v).ctrs = s.ctrs ∧
    (State.setBay s b v).grps = s.grps ∧ (State.setBay s b v).pwr = s.pwr ∧ (State.setBay s b v).thm = s.thm ∧
    (State.setBay s b v).age = s.age ∧ (State.setBay s b v).cnv = s.cnv ∧ (State.setBay s b v).fwu = s.fwu ∧
    (State.setBay s b v).glb = s.glb ∧ (State.setBay s b v).sb = s.sb := by
  simp [State.setBay]
theorem State.modBay_still (s : State) (b : Nat) (f : Bay → Bay) :
    (State.modBay s b f).pending = s.pending ∧ (State.modBay s b f).free = s.free ∧ (State.modBay s b f).host = s.host ∧
    (State.modBay s b f).epoch = s.epoch ∧ (State.modBay s b f).pat = s.pat ∧ (State.modBay s b f).isl = s.isl ∧
    (State.modBay s b f).routes = s.routes ∧ (State.modBay s b f).dramMargin = s.dramMargin ∧ (State.modBay s b f).ports = s.ports ∧
    (State.modBay s b f).trickle = s.trickle ∧ (State.modBay s b f).cmd = s.cmd ∧ (State.modBay s b f).zon = s.zon ∧
    (State.modBay s b f).mlf = s.mlf ∧ (State.modBay s b f).cpx = s.cpx ∧ (State.modBay s b f).wvf = s.wvf ∧
    (State.modBay s b f).bpm = s.bpm ∧ (State.modBay s b f).sli = s.sli ∧ (State.modBay s b f).sec = s.sec ∧
    (State.modBay s b f).mic = s.mic ∧ (State.modBay s b f).flt = s.flt ∧ (State.modBay s b f).ctrs = s.ctrs ∧
    (State.modBay s b f).grps = s.grps ∧ (State.modBay s b f).pwr = s.pwr ∧ (State.modBay s b f).thm = s.thm ∧
    (State.modBay s b f).age = s.age ∧ (State.modBay s b f).cnv = s.cnv ∧ (State.modBay s b f).fwu = s.fwu ∧
    (State.modBay s b f).glb = s.glb ∧ (State.modBay s b f).sb = s.sb := by
  have w1 := @State.setBay_still
  simp [State.modBay, w1]
theorem State.modBlk_still (s : State) (d k : Nat) (f : Blk → Blk) :
    (State.modBlk s d k f).pending = s.pending ∧ (State.modBlk s d k f).free = s.free ∧ (State.modBlk s d k f).host = s.host ∧
    (State.modBlk s d k f).epoch = s.epoch ∧ (State.modBlk s d k f).pat = s.pat ∧ (State.modBlk s d k f).isl = s.isl ∧
    (State.modBlk s d k f).routes = s.routes ∧ (State.modBlk s d k f).dramMargin = s.dramMargin ∧ (State.modBlk s d k f).ports = s.ports ∧
    (State.modBlk s d k f).trickle = s.trickle ∧ (State.modBlk s d k f).cmd = s.cmd ∧ (State.modBlk s d k f).zon = s.zon ∧
    (State.modBlk s d k f).mlf = s.mlf ∧ (State.modBlk s d k f).cpx = s.cpx ∧ (State.modBlk s d k f).wvf = s.wvf ∧
    (State.modBlk s d k f).bpm = s.bpm ∧ (State.modBlk s d k f).sli = s.sli ∧ (State.modBlk s d k f).sec = s.sec ∧
    (State.modBlk s d k f).mic = s.mic ∧ (State.modBlk s d k f).flt = s.flt ∧ (State.modBlk s d k f).ctrs = s.ctrs ∧
    (State.modBlk s d k f).grps = s.grps ∧ (State.modBlk s d k f).pwr = s.pwr ∧ (State.modBlk s d k f).thm = s.thm ∧
    (State.modBlk s d k f).age = s.age ∧ (State.modBlk s d k f).cnv = s.cnv ∧ (State.modBlk s d k f).fwu = s.fwu ∧
    (State.modBlk s d k f).glb = s.glb ∧ (State.modBlk s d k f).sb = s.sb := by
  simp [State.modBlk]
theorem State.setRow_still (s : State) (r : Nat) (v : SRow) :
    (State.setRow s r v).pending = s.pending ∧ (State.setRow s r v).free = s.free ∧ (State.setRow s r v).host = s.host ∧
    (State.setRow s r v).epoch = s.epoch ∧ (State.setRow s r v).pat = s.pat ∧ (State.setRow s r v).isl = s.isl ∧
    (State.setRow s r v).routes = s.routes ∧ (State.setRow s r v).dramMargin = s.dramMargin ∧ (State.setRow s r v).ports = s.ports ∧
    (State.setRow s r v).trickle = s.trickle ∧ (State.setRow s r v).cmd = s.cmd ∧ (State.setRow s r v).zon = s.zon ∧
    (State.setRow s r v).mlf = s.mlf ∧ (State.setRow s r v).cpx = s.cpx ∧ (State.setRow s r v).wvf = s.wvf ∧
    (State.setRow s r v).bpm = s.bpm ∧ (State.setRow s r v).sli = s.sli ∧ (State.setRow s r v).sec = s.sec ∧
    (State.setRow s r v).mic = s.mic ∧ (State.setRow s r v).flt = s.flt ∧ (State.setRow s r v).ctrs = s.ctrs ∧
    (State.setRow s r v).grps = s.grps ∧ (State.setRow s r v).pwr = s.pwr ∧ (State.setRow s r v).thm = s.thm ∧
    (State.setRow s r v).age = s.age ∧ (State.setRow s r v).cnv = s.cnv ∧ (State.setRow s r v).fwu = s.fwu ∧
    (State.setRow s r v).glb = s.glb ∧ (State.setRow s r v).sb = s.sb := by
  simp [State.setRow]
theorem State.delRow_still (s : State) (r : Nat) :
    (State.delRow s r).pending = s.pending ∧ (State.delRow s r).free = s.free ∧ (State.delRow s r).host = s.host ∧
    (State.delRow s r).epoch = s.epoch ∧ (State.delRow s r).pat = s.pat ∧ (State.delRow s r).isl = s.isl ∧
    (State.delRow s r).routes = s.routes ∧ (State.delRow s r).dramMargin = s.dramMargin ∧ (State.delRow s r).ports = s.ports ∧
    (State.delRow s r).trickle = s.trickle ∧ (State.delRow s r).cmd = s.cmd ∧ (State.delRow s r).zon = s.zon ∧
    (State.delRow s r).mlf = s.mlf ∧ (State.delRow s r).cpx = s.cpx ∧ (State.delRow s r).wvf = s.wvf ∧ (State.delRow s r).bpm = s.bpm ∧
    (State.delRow s r).sli = s.sli ∧ (State.delRow s r).sec = s.sec ∧ (State.delRow s r).mic = s.mic ∧ (State.delRow s r).flt = s.flt ∧
    (State.delRow s r).ctrs = s.ctrs ∧ (State.delRow s r).grps = s.grps ∧ (State.delRow s r).pwr = s.pwr ∧ (State.delRow s r).thm = s.thm ∧
    (State.delRow s r).age = s.age ∧ (State.delRow s r).cnv = s.cnv ∧ (State.delRow s r).fwu = s.fwu ∧ (State.delRow s r).glb = s.glb ∧
    (State.delRow s r).sb = s.sb := by
  simp [State.delRow]
theorem State.modLife_still (s : State) (st : Nat) (f : SetLife → SetLife) :
    (State.modLife s st f).pending = s.pending ∧ (State.modLife s st f).free = s.free ∧ (State.modLife s st f).host = s.host ∧
    (State.modLife s st f).epoch = s.epoch ∧ (State.modLife s st f).pat = s.pat ∧ (State.modLife s st f).isl = s.isl ∧
    (State.modLife s st f).routes = s.routes ∧ (State.modLife s st f).dramMargin = s.dramMargin ∧ (State.modLife s st f).ports = s.ports ∧
    (State.modLife s st f).trickle = s.trickle ∧ (State.modLife s st f).cmd = s.cmd ∧ (State.modLife s st f).zon = s.zon ∧
    (State.modLife s st f).mlf = s.mlf ∧ (State.modLife s st f).cpx = s.cpx ∧ (State.modLife s st f).wvf = s.wvf ∧
    (State.modLife s st f).bpm = s.bpm ∧ (State.modLife s st f).sli = s.sli ∧ (State.modLife s st f).sec = s.sec ∧
    (State.modLife s st f).mic = s.mic ∧ (State.modLife s st f).flt = s.flt ∧ (State.modLife s st f).ctrs = s.ctrs ∧
    (State.modLife s st f).grps = s.grps ∧ (State.modLife s st f).pwr = s.pwr ∧ (State.modLife s st f).thm = s.thm ∧
    (State.modLife s st f).age = s.age ∧ (State.modLife s st f).cnv = s.cnv ∧ (State.modLife s st f).fwu = s.fwu ∧
    (State.modLife s st f).glb = s.glb ∧ (State.modLife s st f).sb = s.sb := by
  simp [State.modLife]
theorem State.setJob_still (s : State) (c : Nat) (j : Job) :
    (State.setJob s c j).pending = s.pending ∧ (State.setJob s c j).free = s.free ∧ (State.setJob s c j).host = s.host ∧
    (State.setJob s c j).epoch = s.epoch ∧ (State.setJob s c j).pat = s.pat ∧ (State.setJob s c j).isl = s.isl ∧
    (State.setJob s c j).routes = s.routes ∧ (State.setJob s c j).dramMargin = s.dramMargin ∧ (State.setJob s c j).ports = s.ports ∧
    (State.setJob s c j).trickle = s.trickle ∧ (State.setJob s c j).cmd = s.cmd ∧ (State.setJob s c j).zon = s.zon ∧
    (State.setJob s c j).med = s.med ∧ (State.setJob s c j).mlf = s.mlf ∧ (State.setJob s c j).wvf = s.wvf ∧
    (State.setJob s c j).bpm = s.bpm ∧ (State.setJob s c j).sli = s.sli ∧ (State.setJob s c j).sec = s.sec ∧
    (State.setJob s c j).mic = s.mic ∧ (State.setJob s c j).flt = s.flt ∧ (State.setJob s c j).ctrs = s.ctrs ∧
    (State.setJob s c j).grps = s.grps ∧ (State.setJob s c j).pwr = s.pwr ∧ (State.setJob s c j).thm = s.thm ∧
    (State.setJob s c j).age = s.age ∧ (State.setJob s c j).cnv = s.cnv ∧ (State.setJob s c j).fwu = s.fwu ∧
    (State.setJob s c j).glb = s.glb ∧ (State.setJob s c j).sb = s.sb := by
  simp [State.setJob]
theorem State.modJob_still (s : State) (c : Nat) (f : Job → Job) :
    (State.modJob s c f).pending = s.pending ∧ (State.modJob s c f).free = s.free ∧ (State.modJob s c f).host = s.host ∧
    (State.modJob s c f).epoch = s.epoch ∧ (State.modJob s c f).pat = s.pat ∧ (State.modJob s c f).isl = s.isl ∧
    (State.modJob s c f).routes = s.routes ∧ (State.modJob s c f).dramMargin = s.dramMargin ∧ (State.modJob s c f).ports = s.ports ∧
    (State.modJob s c f).trickle = s.trickle ∧ (State.modJob s c f).cmd = s.cmd ∧ (State.modJob s c f).zon = s.zon ∧
    (State.modJob s c f).med = s.med ∧ (State.modJob s c f).mlf = s.mlf ∧ (State.modJob s c f).wvf = s.wvf ∧
    (State.modJob s c f).bpm = s.bpm ∧ (State.modJob s c f).sli = s.sli ∧ (State.modJob s c f).sec = s.sec ∧
    (State.modJob s c f).mic = s.mic ∧ (State.modJob s c f).flt = s.flt ∧ (State.modJob s c f).ctrs = s.ctrs ∧
    (State.modJob s c f).grps = s.grps ∧ (State.modJob s c f).pwr = s.pwr ∧ (State.modJob s c f).thm = s.thm ∧
    (State.modJob s c f).age = s.age ∧ (State.modJob s c f).cnv = s.cnv ∧ (State.modJob s c f).fwu = s.fwu ∧
    (State.modJob s c f).glb = s.glb ∧ (State.modJob s c f).sb = s.sb := by
  have w1 := @State.setJob_still
  simp [State.modJob, w1]
theorem State.delJob_still (s : State) (c : Nat) :
    (State.delJob s c).pending = s.pending ∧ (State.delJob s c).free = s.free ∧ (State.delJob s c).host = s.host ∧
    (State.delJob s c).epoch = s.epoch ∧ (State.delJob s c).pat = s.pat ∧ (State.delJob s c).isl = s.isl ∧
    (State.delJob s c).routes = s.routes ∧ (State.delJob s c).dramMargin = s.dramMargin ∧ (State.delJob s c).ports = s.ports ∧
    (State.delJob s c).trickle = s.trickle ∧ (State.delJob s c).cmd = s.cmd ∧ (State.delJob s c).zon = s.zon ∧
    (State.delJob s c).med = s.med ∧ (State.delJob s c).mlf = s.mlf ∧ (State.delJob s c).wvf = s.wvf ∧ (State.delJob s c).bpm = s.bpm ∧
    (State.delJob s c).sli = s.sli ∧ (State.delJob s c).sec = s.sec ∧ (State.delJob s c).mic = s.mic ∧ (State.delJob s c).flt = s.flt ∧
    (State.delJob s c).ctrs = s.ctrs ∧ (State.delJob s c).grps = s.grps ∧ (State.delJob s c).pwr = s.pwr ∧ (State.delJob s c).thm = s.thm ∧
    (State.delJob s c).age = s.age ∧ (State.delJob s c).cnv = s.cnv ∧ (State.delJob s c).fwu = s.fwu ∧ (State.delJob s c).glb = s.glb ∧
    (State.delJob s c).sb = s.sb := by
  simp [State.delJob]
theorem State.setAlloc_still (s : State) (sl h : Nat) (a : Alloc) :
    (State.setAlloc s sl h a).pending = s.pending ∧ (State.setAlloc s sl h a).free = s.free ∧ (State.setAlloc s sl h a).host = s.host ∧
    (State.setAlloc s sl h a).epoch = s.epoch ∧ (State.setAlloc s sl h a).pat = s.pat ∧ (State.setAlloc s sl h a).isl = s.isl ∧
    (State.setAlloc s sl h a).routes = s.routes ∧ (State.setAlloc s sl h a).dramMargin = s.dramMargin ∧
    (State.setAlloc s sl h a).ports = s.ports ∧ (State.setAlloc s sl h a).trickle = s.trickle ∧ (State.setAlloc s sl h a).cmd = s.cmd ∧
    (State.setAlloc s sl h a).zon = s.zon ∧ (State.setAlloc s sl h a).med = s.med ∧ (State.setAlloc s sl h a).mlf = s.mlf ∧
    (State.setAlloc s sl h a).wvf = s.wvf ∧ (State.setAlloc s sl h a).bpm = s.bpm ∧ (State.setAlloc s sl h a).sli = s.sli ∧
    (State.setAlloc s sl h a).sec = s.sec ∧ (State.setAlloc s sl h a).mic = s.mic ∧ (State.setAlloc s sl h a).flt = s.flt ∧
    (State.setAlloc s sl h a).ctrs = s.ctrs ∧ (State.setAlloc s sl h a).grps = s.grps ∧ (State.setAlloc s sl h a).pwr = s.pwr ∧
    (State.setAlloc s sl h a).thm = s.thm ∧ (State.setAlloc s sl h a).age = s.age ∧ (State.setAlloc s sl h a).cnv = s.cnv ∧
    (State.setAlloc s sl h a).fwu = s.fwu ∧ (State.setAlloc s sl h a).glb = s.glb ∧ (State.setAlloc s sl h a).sb = s.sb := by
  simp [State.setAlloc]
theorem State.delAlloc_still (s : State) (sl h : Nat) :
    (State.delAlloc s sl h).pending = s.pending ∧ (State.delAlloc s sl h).free = s.free ∧ (State.delAlloc s sl h).host = s.host ∧
    (State.delAlloc s sl h).epoch = s.epoch ∧ (State.delAlloc s sl h).pat = s.pat ∧ (State.delAlloc s sl h).isl = s.isl ∧
    (State.delAlloc s sl h).routes = s.routes ∧ (State.delAlloc s sl h).dramMargin = s.dramMargin ∧
    (State.delAlloc s sl h).ports = s.ports ∧ (State.delAlloc s sl h).trickle = s.trickle ∧ (State.delAlloc s sl h).cmd = s.cmd ∧
    (State.delAlloc s sl h).zon = s.zon ∧ (State.delAlloc s sl h).med = s.med ∧ (State.delAlloc s sl h).mlf = s.mlf ∧
    (State.delAlloc s sl h).wvf = s.wvf ∧ (State.delAlloc s sl h).bpm = s.bpm ∧ (State.delAlloc s sl h).sli = s.sli ∧
    (State.delAlloc s sl h).sec = s.sec ∧ (State.delAlloc s sl h).mic = s.mic ∧ (State.delAlloc s sl h).flt = s.flt ∧
    (State.delAlloc s sl h).ctrs = s.ctrs ∧ (State.delAlloc s sl h).grps = s.grps ∧ (State.delAlloc s sl h).pwr = s.pwr ∧
    (State.delAlloc s sl h).thm = s.thm ∧ (State.delAlloc s sl h).age = s.age ∧ (State.delAlloc s sl h).cnv = s.cnv ∧
    (State.delAlloc s sl h).fwu = s.fwu ∧ (State.delAlloc s sl h).glb = s.glb ∧ (State.delAlloc s sl h).sb = s.sb := by
  simp [State.delAlloc]
theorem State.drawn_still (s : State) :
    (State.drawn s).pending = s.pending ∧ (State.drawn s).host = s.host ∧ (State.drawn s).epoch = s.epoch ∧ (State.drawn s).pat = s.pat ∧
    (State.drawn s).isl = s.isl ∧ (State.drawn s).routes = s.routes ∧ (State.drawn s).dramMargin = s.dramMargin ∧
    (State.drawn s).ports = s.ports ∧ (State.drawn s).trickle = s.trickle ∧ (State.drawn s).cmd = s.cmd ∧ (State.drawn s).zon = s.zon ∧
    (State.drawn s).med = s.med ∧ (State.drawn s).mlf = s.mlf ∧ (State.drawn s).cpx = s.cpx ∧ (State.drawn s).wvf = s.wvf ∧
    (State.drawn s).bpm = s.bpm ∧ (State.drawn s).sli = s.sli ∧ (State.drawn s).sec = s.sec ∧ (State.drawn s).mic = s.mic ∧
    (State.drawn s).flt = s.flt ∧ (State.drawn s).ctrs = s.ctrs ∧ (State.drawn s).grps = s.grps ∧ (State.drawn s).pwr = s.pwr ∧
    (State.drawn s).thm = s.thm ∧ (State.drawn s).age = s.age ∧ (State.drawn s).cnv = s.cnv ∧ (State.drawn s).fwu = s.fwu ∧
    (State.drawn s).glb = s.glb ∧ (State.drawn s).sb = s.sb := by
  simp [State.drawn]
theorem drawNat_still (s : State) :
    (drawNat s).2.pending = s.pending ∧ (drawNat s).2.host = s.host ∧ (drawNat s).2.epoch = s.epoch ∧ (drawNat s).2.pat = s.pat ∧
    (drawNat s).2.isl = s.isl ∧ (drawNat s).2.routes = s.routes ∧ (drawNat s).2.dramMargin = s.dramMargin ∧ (drawNat s).2.ports = s.ports ∧
    (drawNat s).2.trickle = s.trickle ∧ (drawNat s).2.cmd = s.cmd ∧ (drawNat s).2.zon = s.zon ∧ (drawNat s).2.med = s.med ∧
    (drawNat s).2.mlf = s.mlf ∧ (drawNat s).2.cpx = s.cpx ∧ (drawNat s).2.wvf = s.wvf ∧ (drawNat s).2.bpm = s.bpm ∧
    (drawNat s).2.sli = s.sli ∧ (drawNat s).2.sec = s.sec ∧ (drawNat s).2.mic = s.mic ∧ (drawNat s).2.flt = s.flt ∧
    (drawNat s).2.ctrs = s.ctrs ∧ (drawNat s).2.grps = s.grps ∧ (drawNat s).2.pwr = s.pwr ∧ (drawNat s).2.thm = s.thm ∧
    (drawNat s).2.age = s.age ∧ (drawNat s).2.cnv = s.cnv ∧ (drawNat s).2.fwu = s.fwu ∧ (drawNat s).2.glb = s.glb ∧ (drawNat s).2.sb = s.sb := by
  have w1 := @State.drawn_still
  simp [drawNat, w1]
theorem drawBool_still (s : State) :
    (drawBool s).2.pending = s.pending ∧ (drawBool s).2.host = s.host ∧ (drawBool s).2.epoch = s.epoch ∧ (drawBool s).2.pat = s.pat ∧
    (drawBool s).2.isl = s.isl ∧ (drawBool s).2.routes = s.routes ∧ (drawBool s).2.dramMargin = s.dramMargin ∧
    (drawBool s).2.ports = s.ports ∧ (drawBool s).2.trickle = s.trickle ∧ (drawBool s).2.cmd = s.cmd ∧ (drawBool s).2.zon = s.zon ∧
    (drawBool s).2.med = s.med ∧ (drawBool s).2.mlf = s.mlf ∧ (drawBool s).2.cpx = s.cpx ∧ (drawBool s).2.wvf = s.wvf ∧
    (drawBool s).2.bpm = s.bpm ∧ (drawBool s).2.sli = s.sli ∧ (drawBool s).2.sec = s.sec ∧ (drawBool s).2.mic = s.mic ∧
    (drawBool s).2.flt = s.flt ∧ (drawBool s).2.ctrs = s.ctrs ∧ (drawBool s).2.grps = s.grps ∧ (drawBool s).2.pwr = s.pwr ∧
    (drawBool s).2.thm = s.thm ∧ (drawBool s).2.age = s.age ∧ (drawBool s).2.cnv = s.cnv ∧ (drawBool s).2.fwu = s.fwu ∧
    (drawBool s).2.glb = s.glb ∧ (drawBool s).2.sb = s.sb := by
  have w1 := @State.drawn_still
  simp [drawBool, w1]
theorem drawBytes_still (n : Nat) (s : State) : 
    (drawBytes n s).2.pending = s.pending ∧ (drawBytes n s).2.host = s.host ∧ (drawBytes n s).2.epoch = s.epoch ∧
    (drawBytes n s).2.pat = s.pat ∧ (drawBytes n s).2.isl = s.isl ∧ (drawBytes n s).2.routes = s.routes ∧
    (drawBytes n s).2.dramMargin = s.dramMargin ∧ (drawBytes n s).2.ports = s.ports ∧ (drawBytes n s).2.trickle = s.trickle ∧
    (drawBytes n s).2.cmd = s.cmd ∧ (drawBytes n s).2.zon = s.zon ∧ (drawBytes n s).2.med = s.med ∧ (drawBytes n s).2.mlf = s.mlf ∧
    (drawBytes n s).2.cpx = s.cpx ∧ (drawBytes n s).2.wvf = s.wvf ∧ (drawBytes n s).2.bpm = s.bpm ∧ (drawBytes n s).2.sli = s.sli ∧
    (drawBytes n s).2.sec = s.sec ∧ (drawBytes n s).2.mic = s.mic ∧ (drawBytes n s).2.flt = s.flt ∧ (drawBytes n s).2.ctrs = s.ctrs ∧
    (drawBytes n s).2.grps = s.grps ∧ (drawBytes n s).2.pwr = s.pwr ∧ (drawBytes n s).2.thm = s.thm ∧ (drawBytes n s).2.age = s.age ∧
    (drawBytes n s).2.cnv = s.cnv ∧ (drawBytes n s).2.fwu = s.fwu ∧ (drawBytes n s).2.glb = s.glb ∧ (drawBytes n s).2.sb = s.sb := by
  have w1 := @State.drawn_still
  induction n generalizing s with
  | zero => simp [drawBytes, *]
  | succ n ih => simp [drawBytes, *]
theorem State.postIrq_still (s : State) (i : Irq) :
    (State.postIrq s i).pending = s.pending ∧ (State.postIrq s i).free = s.free ∧ (State.postIrq s i).epoch = s.epoch ∧
    (State.postIrq s i).pat = s.pat ∧ (State.postIrq s i).isl = s.isl ∧ (State.postIrq s i).routes = s.routes ∧
    (State.postIrq s i).dramMargin = s.dramMargin ∧ (State.postIrq s i).ports = s.ports ∧ (State.postIrq s i).trickle = s.trickle ∧
    (State.postIrq s i).cmd = s.cmd ∧ (State.postIrq s i).zon = s.zon ∧ (State.postIrq s i).med = s.med ∧ (State.postIrq s i).mlf = s.mlf ∧
    (State.postIrq s i).cpx = s.cpx ∧ (State.postIrq s i).wvf = s.wvf ∧ (State.postIrq s i).bpm = s.bpm ∧ (State.postIrq s i).sli = s.sli ∧
    (State.postIrq s i).sec = s.sec ∧ (State.postIrq s i).mic = s.mic ∧ (State.postIrq s i).flt = s.flt ∧
    (State.postIrq s i).ctrs = s.ctrs ∧ (State.postIrq s i).grps = s.grps ∧ (State.postIrq s i).pwr = s.pwr ∧
    (State.postIrq s i).thm = s.thm ∧ (State.postIrq s i).age = s.age ∧ (State.postIrq s i).cnv = s.cnv ∧ (State.postIrq s i).fwu = s.fwu ∧
    (State.postIrq s i).glb = s.glb ∧ (State.postIrq s i).sb = s.sb := by
  simp [State.postIrq]
theorem State.emitIrq_still (s : State) (p sl v : Nat) :
    (State.emitIrq s p sl v).pending = s.pending ∧ (State.emitIrq s p sl v).free = s.free ∧ (State.emitIrq s p sl v).epoch = s.epoch ∧
    (State.emitIrq s p sl v).pat = s.pat ∧ (State.emitIrq s p sl v).isl = s.isl ∧ (State.emitIrq s p sl v).routes = s.routes ∧
    (State.emitIrq s p sl v).dramMargin = s.dramMargin ∧ (State.emitIrq s p sl v).trickle = s.trickle ∧
    (State.emitIrq s p sl v).cmd = s.cmd ∧ (State.emitIrq s p sl v).zon = s.zon ∧ (State.emitIrq s p sl v).med = s.med ∧
    (State.emitIrq s p sl v).mlf = s.mlf ∧ (State.emitIrq s p sl v).cpx = s.cpx ∧ (State.emitIrq s p sl v).wvf = s.wvf ∧
    (State.emitIrq s p sl v).bpm = s.bpm ∧ (State.emitIrq s p sl v).sli = s.sli ∧ (State.emitIrq s p sl v).sec = s.sec ∧
    (State.emitIrq s p sl v).mic = s.mic ∧ (State.emitIrq s p sl v).flt = s.flt ∧ (State.emitIrq s p sl v).ctrs = s.ctrs ∧
    (State.emitIrq s p sl v).grps = s.grps ∧ (State.emitIrq s p sl v).pwr = s.pwr ∧ (State.emitIrq s p sl v).thm = s.thm ∧
    (State.emitIrq s p sl v).age = s.age ∧ (State.emitIrq s p sl v).cnv = s.cnv ∧ (State.emitIrq s p sl v).fwu = s.fwu ∧
    (State.emitIrq s p sl v).glb = s.glb ∧ (State.emitIrq s p sl v).sb = s.sb := by
  have w1 := @State.setPort_still; have w2 := @State.postIrq_still; have wi := @ite_parts
  simp [State.emitIrq, w1, w2, wi]
theorem State.postData_still (s : State) (c : Nat) (d : OutData) :
    (State.postData s c d).pending = s.pending ∧ (State.postData s c d).free = s.free ∧ (State.postData s c d).epoch = s.epoch ∧
    (State.postData s c d).pat = s.pat ∧ (State.postData s c d).isl = s.isl ∧ (State.postData s c d).routes = s.routes ∧
    (State.postData s c d).dramMargin = s.dramMargin ∧ (State.postData s c d).trickle = s.trickle ∧ (State.postData s c d).cmd = s.cmd ∧
    (State.postData s c d).zon = s.zon ∧ (State.postData s c d).med = s.med ∧ (State.postData s c d).mlf = s.mlf ∧
    (State.postData s c d).cpx = s.cpx ∧ (State.postData s c d).wvf = s.wvf ∧ (State.postData s c d).bpm = s.bpm ∧
    (State.postData s c d).sli = s.sli ∧ (State.postData s c d).sec = s.sec ∧ (State.postData s c d).mic = s.mic ∧
    (State.postData s c d).flt = s.flt ∧ (State.postData s c d).ctrs = s.ctrs ∧ (State.postData s c d).grps = s.grps ∧
    (State.postData s c d).pwr = s.pwr ∧ (State.postData s c d).thm = s.thm ∧ (State.postData s c d).age = s.age ∧
    (State.postData s c d).cnv = s.cnv ∧ (State.postData s c d).fwu = s.fwu ∧ (State.postData s c d).glb = s.glb ∧
    (State.postData s c d).sb = s.sb := by
  have w1 := @State.modPort_still; have wi := @ite_parts
  unfold State.postData; repeat' split
  all_goals simp [*]
theorem State.postResult_still (s : State) (c addr : Nat) (b : List Byte) :
    (State.postResult s c addr b).pending = s.pending ∧ (State.postResult s c addr b).free = s.free ∧
    (State.postResult s c addr b).epoch = s.epoch ∧ (State.postResult s c addr b).pat = s.pat ∧ (State.postResult s c addr b).isl = s.isl ∧
    (State.postResult s c addr b).routes = s.routes ∧ (State.postResult s c addr b).dramMargin = s.dramMargin ∧
    (State.postResult s c addr b).trickle = s.trickle ∧ (State.postResult s c addr b).cmd = s.cmd ∧
    (State.postResult s c addr b).zon = s.zon ∧ (State.postResult s c addr b).med = s.med ∧ (State.postResult s c addr b).mlf = s.mlf ∧
    (State.postResult s c addr b).cpx = s.cpx ∧ (State.postResult s c addr b).wvf = s.wvf ∧ (State.postResult s c addr b).bpm = s.bpm ∧
    (State.postResult s c addr b).sli = s.sli ∧ (State.postResult s c addr b).sec = s.sec ∧ (State.postResult s c addr b).mic = s.mic ∧
    (State.postResult s c addr b).flt = s.flt ∧ (State.postResult s c addr b).ctrs = s.ctrs ∧ (State.postResult s c addr b).grps = s.grps ∧
    (State.postResult s c addr b).pwr = s.pwr ∧ (State.postResult s c addr b).thm = s.thm ∧ (State.postResult s c addr b).age = s.age ∧
    (State.postResult s c addr b).cnv = s.cnv ∧ (State.postResult s c addr b).fwu = s.fwu ∧ (State.postResult s c addr b).glb = s.glb ∧
    (State.postResult s c addr b).sb = s.sb := by
  have w1 := @State.modPort_still; have wi := @ite_parts
  simp [State.postResult, w1, wi]
theorem State.releaseTlps_still (s : State) (p : Nat) :
    (State.releaseTlps s p).pending = s.pending ∧ (State.releaseTlps s p).free = s.free ∧ (State.releaseTlps s p).epoch = s.epoch ∧
    (State.releaseTlps s p).pat = s.pat ∧ (State.releaseTlps s p).isl = s.isl ∧ (State.releaseTlps s p).routes = s.routes ∧
    (State.releaseTlps s p).dramMargin = s.dramMargin ∧ (State.releaseTlps s p).trickle = s.trickle ∧ (State.releaseTlps s p).cmd = s.cmd ∧
    (State.releaseTlps s p).zon = s.zon ∧ (State.releaseTlps s p).med = s.med ∧ (State.releaseTlps s p).mlf = s.mlf ∧
    (State.releaseTlps s p).cpx = s.cpx ∧ (State.releaseTlps s p).wvf = s.wvf ∧ (State.releaseTlps s p).bpm = s.bpm ∧
    (State.releaseTlps s p).sli = s.sli ∧ (State.releaseTlps s p).sec = s.sec ∧ (State.releaseTlps s p).mic = s.mic ∧
    (State.releaseTlps s p).flt = s.flt ∧ (State.releaseTlps s p).ctrs = s.ctrs ∧ (State.releaseTlps s p).grps = s.grps ∧
    (State.releaseTlps s p).pwr = s.pwr ∧ (State.releaseTlps s p).thm = s.thm ∧ (State.releaseTlps s p).age = s.age ∧
    (State.releaseTlps s p).cnv = s.cnv ∧ (State.releaseTlps s p).fwu = s.fwu ∧ (State.releaseTlps s p).glb = s.glb ∧
    (State.releaseTlps s p).sb = s.sb := by
  have w1 := @State.setPort_still
  simp [State.releaseTlps, w1]
theorem State.sendIrq_still (s : State) (p sl v : Nat) :
    (State.sendIrq s p sl v).pending = s.pending ∧ (State.sendIrq s p sl v).free = s.free ∧ (State.sendIrq s p sl v).epoch = s.epoch ∧
    (State.sendIrq s p sl v).pat = s.pat ∧ (State.sendIrq s p sl v).isl = s.isl ∧ (State.sendIrq s p sl v).routes = s.routes ∧
    (State.sendIrq s p sl v).dramMargin = s.dramMargin ∧ (State.sendIrq s p sl v).trickle = s.trickle ∧
    (State.sendIrq s p sl v).cmd = s.cmd ∧ (State.sendIrq s p sl v).zon = s.zon ∧ (State.sendIrq s p sl v).med = s.med ∧
    (State.sendIrq s p sl v).mlf = s.mlf ∧ (State.sendIrq s p sl v).cpx = s.cpx ∧ (State.sendIrq s p sl v).wvf = s.wvf ∧
    (State.sendIrq s p sl v).bpm = s.bpm ∧ (State.sendIrq s p sl v).sec = s.sec ∧ (State.sendIrq s p sl v).mic = s.mic ∧
    (State.sendIrq s p sl v).flt = s.flt ∧ (State.sendIrq s p sl v).ctrs = s.ctrs ∧ (State.sendIrq s p sl v).grps = s.grps ∧
    (State.sendIrq s p sl v).pwr = s.pwr ∧ (State.sendIrq s p sl v).thm = s.thm ∧ (State.sendIrq s p sl v).age = s.age ∧
    (State.sendIrq s p sl v).cnv = s.cnv ∧ (State.sendIrq s p sl v).fwu = s.fwu ∧ (State.sendIrq s p sl v).glb = s.glb ∧
    (State.sendIrq s p sl v).sb = s.sb := by
  have w1 := @State.setPort_still; have w2 := @State.emitIrq_still; have w3 := @State.setSli_still; have wi := @ite_parts
  simp [State.sendIrq, w1, w2, w3, wi]
theorem State.managerIrq_still (s : State) (v : Nat) :
    (State.managerIrq s v).pending = s.pending ∧ (State.managerIrq s v).free = s.free ∧ (State.managerIrq s v).epoch = s.epoch ∧
    (State.managerIrq s v).pat = s.pat ∧ (State.managerIrq s v).isl = s.isl ∧ (State.managerIrq s v).routes = s.routes ∧
    (State.managerIrq s v).dramMargin = s.dramMargin ∧ (State.managerIrq s v).trickle = s.trickle ∧ (State.managerIrq s v).cmd = s.cmd ∧
    (State.managerIrq s v).zon = s.zon ∧ (State.managerIrq s v).med = s.med ∧ (State.managerIrq s v).mlf = s.mlf ∧
    (State.managerIrq s v).cpx = s.cpx ∧ (State.managerIrq s v).wvf = s.wvf ∧ (State.managerIrq s v).bpm = s.bpm ∧
    (State.managerIrq s v).sec = s.sec ∧ (State.managerIrq s v).mic = s.mic ∧ (State.managerIrq s v).flt = s.flt ∧
    (State.managerIrq s v).ctrs = s.ctrs ∧ (State.managerIrq s v).grps = s.grps ∧ (State.managerIrq s v).pwr = s.pwr ∧
    (State.managerIrq s v).thm = s.thm ∧ (State.managerIrq s v).age = s.age ∧ (State.managerIrq s v).cnv = s.cnv ∧
    (State.managerIrq s v).fwu = s.fwu ∧ (State.managerIrq s v).glb = s.glb ∧ (State.managerIrq s v).sb = s.sb := by
  have w1 := @State.sendIrq_still; have wf := @foldl_parts
  simp [State.managerIrq, w1, wf]
theorem State.giveAen_still (s : State) (k : Nat) :
    (State.giveAen s k).pending = s.pending ∧ (State.giveAen s k).free = s.free ∧ (State.giveAen s k).host = s.host ∧
    (State.giveAen s k).epoch = s.epoch ∧ (State.giveAen s k).pat = s.pat ∧ (State.giveAen s k).isl = s.isl ∧
    (State.giveAen s k).routes = s.routes ∧ (State.giveAen s k).dramMargin = s.dramMargin ∧ (State.giveAen s k).ports = s.ports ∧
    (State.giveAen s k).trickle = s.trickle ∧ (State.giveAen s k).zon = s.zon ∧ (State.giveAen s k).med = s.med ∧
    (State.giveAen s k).mlf = s.mlf ∧ (State.giveAen s k).cpx = s.cpx ∧ (State.giveAen s k).wvf = s.wvf ∧ (State.giveAen s k).bpm = s.bpm ∧
    (State.giveAen s k).sli = s.sli ∧ (State.giveAen s k).sec = s.sec ∧ (State.giveAen s k).mic = s.mic ∧ (State.giveAen s k).flt = s.flt ∧
    (State.giveAen s k).ctrs = s.ctrs ∧ (State.giveAen s k).grps = s.grps ∧ (State.giveAen s k).pwr = s.pwr ∧
    (State.giveAen s k).thm = s.thm ∧ (State.giveAen s k).age = s.age ∧ (State.giveAen s k).cnv = s.cnv ∧ (State.giveAen s k).fwu = s.fwu ∧
    (State.giveAen s k).glb = s.glb ∧ (State.giveAen s k).sb = s.sb := by
  have w1 := @State.modCtx_still; have w2 := @State.setCtrl_still
  unfold State.giveAen; dsimp only; repeat' split
  all_goals simp [*]
theorem State.aen_still (s : State) (k : Nat) (e : Aen) :
    (State.aen s k e).pending = s.pending ∧ (State.aen s k e).free = s.free ∧ (State.aen s k e).host = s.host ∧
    (State.aen s k e).epoch = s.epoch ∧ (State.aen s k e).pat = s.pat ∧ (State.aen s k e).isl = s.isl ∧
    (State.aen s k e).routes = s.routes ∧ (State.aen s k e).dramMargin = s.dramMargin ∧ (State.aen s k e).ports = s.ports ∧
    (State.aen s k e).trickle = s.trickle ∧ (State.aen s k e).zon = s.zon ∧ (State.aen s k e).med = s.med ∧ (State.aen s k e).mlf = s.mlf ∧
    (State.aen s k e).cpx = s.cpx ∧ (State.aen s k e).wvf = s.wvf ∧ (State.aen s k e).bpm = s.bpm ∧ (State.aen s k e).sli = s.sli ∧
    (State.aen s k e).sec = s.sec ∧ (State.aen s k e).mic = s.mic ∧ (State.aen s k e).flt = s.flt ∧ (State.aen s k e).ctrs = s.ctrs ∧
    (State.aen s k e).grps = s.grps ∧ (State.aen s k e).pwr = s.pwr ∧ (State.aen s k e).thm = s.thm ∧ (State.aen s k e).age = s.age ∧
    (State.aen s k e).cnv = s.cnv ∧ (State.aen s k e).fwu = s.fwu ∧ (State.aen s k e).glb = s.glb ∧ (State.aen s k e).sb = s.sb := by
  have w1 := @State.modCtrl_still; have w2 := @State.giveAen_still; have wi := @ite_parts
  simp [State.aen, w1, w2, wi]
theorem State.managerAen_still (s : State) (e : Aen) :
    (State.managerAen s e).pending = s.pending ∧ (State.managerAen s e).free = s.free ∧ (State.managerAen s e).host = s.host ∧
    (State.managerAen s e).epoch = s.epoch ∧ (State.managerAen s e).pat = s.pat ∧ (State.managerAen s e).isl = s.isl ∧
    (State.managerAen s e).routes = s.routes ∧ (State.managerAen s e).dramMargin = s.dramMargin ∧ (State.managerAen s e).ports = s.ports ∧
    (State.managerAen s e).trickle = s.trickle ∧ (State.managerAen s e).zon = s.zon ∧ (State.managerAen s e).med = s.med ∧
    (State.managerAen s e).mlf = s.mlf ∧ (State.managerAen s e).cpx = s.cpx ∧ (State.managerAen s e).wvf = s.wvf ∧
    (State.managerAen s e).bpm = s.bpm ∧ (State.managerAen s e).sli = s.sli ∧ (State.managerAen s e).sec = s.sec ∧
    (State.managerAen s e).mic = s.mic ∧ (State.managerAen s e).flt = s.flt ∧ (State.managerAen s e).ctrs = s.ctrs ∧
    (State.managerAen s e).grps = s.grps ∧ (State.managerAen s e).pwr = s.pwr ∧ (State.managerAen s e).thm = s.thm ∧
    (State.managerAen s e).age = s.age ∧ (State.managerAen s e).cnv = s.cnv ∧ (State.managerAen s e).fwu = s.fwu ∧
    (State.managerAen s e).glb = s.glb ∧ (State.managerAen s e).sb = s.sb := by
  have w1 := @State.aen_still; have wf := @foldl_parts
  simp [State.managerAen, w1, wf]
theorem State.healthAen_still (s : State) (info : Nat) :
    (State.healthAen s info).pending = s.pending ∧ (State.healthAen s info).free = s.free ∧ (State.healthAen s info).host = s.host ∧
    (State.healthAen s info).epoch = s.epoch ∧ (State.healthAen s info).pat = s.pat ∧ (State.healthAen s info).isl = s.isl ∧
    (State.healthAen s info).routes = s.routes ∧ (State.healthAen s info).dramMargin = s.dramMargin ∧
    (State.healthAen s info).ports = s.ports ∧ (State.healthAen s info).trickle = s.trickle ∧ (State.healthAen s info).zon = s.zon ∧
    (State.healthAen s info).med = s.med ∧ (State.healthAen s info).mlf = s.mlf ∧ (State.healthAen s info).cpx = s.cpx ∧
    (State.healthAen s info).wvf = s.wvf ∧ (State.healthAen s info).bpm = s.bpm ∧ (State.healthAen s info).sli = s.sli ∧
    (State.healthAen s info).sec = s.sec ∧ (State.healthAen s info).mic = s.mic ∧ (State.healthAen s info).flt = s.flt ∧
    (State.healthAen s info).ctrs = s.ctrs ∧ (State.healthAen s info).grps = s.grps ∧ (State.healthAen s info).pwr = s.pwr ∧
    (State.healthAen s info).thm = s.thm ∧ (State.healthAen s info).age = s.age ∧ (State.healthAen s info).cnv = s.cnv ∧
    (State.healthAen s info).fwu = s.fwu ∧ (State.healthAen s info).glb = s.glb ∧ (State.healthAen s info).sb = s.sb := by
  have w1 := @State.aen_still; have wf := @foldl_parts
  simp [State.healthAen, w1, wf]
theorem State.sliceAen_still (s : State) (sl : Nat) (e : Aen) :
    (State.sliceAen s sl e).pending = s.pending ∧ (State.sliceAen s sl e).free = s.free ∧ (State.sliceAen s sl e).host = s.host ∧
    (State.sliceAen s sl e).epoch = s.epoch ∧ (State.sliceAen s sl e).pat = s.pat ∧ (State.sliceAen s sl e).isl = s.isl ∧
    (State.sliceAen s sl e).routes = s.routes ∧ (State.sliceAen s sl e).dramMargin = s.dramMargin ∧
    (State.sliceAen s sl e).ports = s.ports ∧ (State.sliceAen s sl e).trickle = s.trickle ∧ (State.sliceAen s sl e).zon = s.zon ∧
    (State.sliceAen s sl e).med = s.med ∧ (State.sliceAen s sl e).mlf = s.mlf ∧ (State.sliceAen s sl e).cpx = s.cpx ∧
    (State.sliceAen s sl e).wvf = s.wvf ∧ (State.sliceAen s sl e).bpm = s.bpm ∧ (State.sliceAen s sl e).sli = s.sli ∧
    (State.sliceAen s sl e).sec = s.sec ∧ (State.sliceAen s sl e).mic = s.mic ∧ (State.sliceAen s sl e).flt = s.flt ∧
    (State.sliceAen s sl e).ctrs = s.ctrs ∧ (State.sliceAen s sl e).grps = s.grps ∧ (State.sliceAen s sl e).pwr = s.pwr ∧
    (State.sliceAen s sl e).thm = s.thm ∧ (State.sliceAen s sl e).age = s.age ∧ (State.sliceAen s sl e).cnv = s.cnv ∧
    (State.sliceAen s sl e).fwu = s.fwu ∧ (State.sliceAen s sl e).glb = s.glb ∧ (State.sliceAen s sl e).sb = s.sb := by
  have w1 := @State.aen_still; have wf := @foldl_parts
  simp [State.sliceAen, w1, wf]
theorem State.chCnt_still (s : State) (ch k n : Nat) :
    (State.chCnt s ch k n).pending = s.pending ∧ (State.chCnt s ch k n).free = s.free ∧ (State.chCnt s ch k n).host = s.host ∧
    (State.chCnt s ch k n).epoch = s.epoch ∧ (State.chCnt s ch k n).pat = s.pat ∧ (State.chCnt s ch k n).isl = s.isl ∧
    (State.chCnt s ch k n).routes = s.routes ∧ (State.chCnt s ch k n).dramMargin = s.dramMargin ∧ (State.chCnt s ch k n).ports = s.ports ∧
    (State.chCnt s ch k n).trickle = s.trickle ∧ (State.chCnt s ch k n).cmd = s.cmd ∧ (State.chCnt s ch k n).zon = s.zon ∧
    (State.chCnt s ch k n).mlf = s.mlf ∧ (State.chCnt s ch k n).cpx = s.cpx ∧ (State.chCnt s ch k n).wvf = s.wvf ∧
    (State.chCnt s ch k n).bpm = s.bpm ∧ (State.chCnt s ch k n).sli = s.sli ∧ (State.chCnt s ch k n).sec = s.sec ∧
    (State.chCnt s ch k n).mic = s.mic ∧ (State.chCnt s ch k n).flt = s.flt ∧ (State.chCnt s ch k n).ctrs = s.ctrs ∧
    (State.chCnt s ch k n).grps = s.grps ∧ (State.chCnt s ch k n).pwr = s.pwr ∧ (State.chCnt s ch k n).thm = s.thm ∧
    (State.chCnt s ch k n).age = s.age ∧ (State.chCnt s ch k n).cnv = s.cnv ∧ (State.chCnt s ch k n).fwu = s.fwu ∧
    (State.chCnt s ch k n).glb = s.glb ∧ (State.chCnt s ch k n).sb = s.sb := by
  have w1 := @State.modChan_still
  simp [State.chCnt, w1]
theorem State.clCnt_still (s : State) (k j n : Nat) :
    (State.clCnt s k j n).pending = s.pending ∧ (State.clCnt s k j n).free = s.free ∧ (State.clCnt s k j n).host = s.host ∧
    (State.clCnt s k j n).epoch = s.epoch ∧ (State.clCnt s k j n).pat = s.pat ∧ (State.clCnt s k j n).isl = s.isl ∧
    (State.clCnt s k j n).routes = s.routes ∧ (State.clCnt s k j n).dramMargin = s.dramMargin ∧ (State.clCnt s k j n).ports = s.ports ∧
    (State.clCnt s k j n).trickle = s.trickle ∧ (State.clCnt s k j n).cmd = s.cmd ∧ (State.clCnt s k j n).zon = s.zon ∧
    (State.clCnt s k j n).mlf = s.mlf ∧ (State.clCnt s k j n).cpx = s.cpx ∧ (State.clCnt s k j n).wvf = s.wvf ∧
    (State.clCnt s k j n).bpm = s.bpm ∧ (State.clCnt s k j n).sli = s.sli ∧ (State.clCnt s k j n).sec = s.sec ∧
    (State.clCnt s k j n).mic = s.mic ∧ (State.clCnt s k j n).flt = s.flt ∧ (State.clCnt s k j n).ctrs = s.ctrs ∧
    (State.clCnt s k j n).grps = s.grps ∧ (State.clCnt s k j n).pwr = s.pwr ∧ (State.clCnt s k j n).thm = s.thm ∧
    (State.clCnt s k j n).age = s.age ∧ (State.clCnt s k j n).cnv = s.cnv ∧ (State.clCnt s k j n).fwu = s.fwu ∧
    (State.clCnt s k j n).glb = s.glb ∧ (State.clCnt s k j n).sb = s.sb := by
  have w1 := @State.modClu_still
  simp [State.clCnt, w1]
theorem State.sqCnt_still (s : State) (sl k n : Nat) :
    (State.sqCnt s sl k n).pending = s.pending ∧ (State.sqCnt s sl k n).free = s.free ∧ (State.sqCnt s sl k n).host = s.host ∧
    (State.sqCnt s sl k n).epoch = s.epoch ∧ (State.sqCnt s sl k n).pat = s.pat ∧ (State.sqCnt s sl k n).isl = s.isl ∧
    (State.sqCnt s sl k n).routes = s.routes ∧ (State.sqCnt s sl k n).dramMargin = s.dramMargin ∧ (State.sqCnt s sl k n).ports = s.ports ∧
    (State.sqCnt s sl k n).trickle = s.trickle ∧ (State.sqCnt s sl k n).cmd = s.cmd ∧ (State.sqCnt s sl k n).zon = s.zon ∧
    (State.sqCnt s sl k n).med = s.med ∧ (State.sqCnt s sl k n).mlf = s.mlf ∧ (State.sqCnt s sl k n).cpx = s.cpx ∧
    (State.sqCnt s sl k n).wvf = s.wvf ∧ (State.sqCnt s sl k n).bpm = s.bpm ∧ (State.sqCnt s sl k n).sec = s.sec ∧
    (State.sqCnt s sl k n).mic = s.mic ∧ (State.sqCnt s sl k n).flt = s.flt ∧ (State.sqCnt s sl k n).ctrs = s.ctrs ∧
    (State.sqCnt s sl k n).grps = s.grps ∧ (State.sqCnt s sl k n).pwr = s.pwr ∧ (State.sqCnt s sl k n).thm = s.thm ∧
    (State.sqCnt s sl k n).age = s.age ∧ (State.sqCnt s sl k n).cnv = s.cnv ∧ (State.sqCnt s sl k n).fwu = s.fwu ∧
    (State.sqCnt s sl k n).glb = s.glb ∧ (State.sqCnt s sl k n).sb = s.sb := by
  have w1 := @State.modSli_still
  simp [State.sqCnt, w1]
theorem State.cpxCnt_still (s : State) (k n : Nat) :
    (State.cpxCnt s k n).pending = s.pending ∧ (State.cpxCnt s k n).free = s.free ∧ (State.cpxCnt s k n).host = s.host ∧
    (State.cpxCnt s k n).epoch = s.epoch ∧ (State.cpxCnt s k n).pat = s.pat ∧ (State.cpxCnt s k n).isl = s.isl ∧
    (State.cpxCnt s k n).routes = s.routes ∧ (State.cpxCnt s k n).dramMargin = s.dramMargin ∧ (State.cpxCnt s k n).ports = s.ports ∧
    (State.cpxCnt s k n).trickle = s.trickle ∧ (State.cpxCnt s k n).cmd = s.cmd ∧ (State.cpxCnt s k n).zon = s.zon ∧
    (State.cpxCnt s k n).med = s.med ∧ (State.cpxCnt s k n).mlf = s.mlf ∧ (State.cpxCnt s k n).wvf = s.wvf ∧
    (State.cpxCnt s k n).bpm = s.bpm ∧ (State.cpxCnt s k n).sli = s.sli ∧ (State.cpxCnt s k n).sec = s.sec ∧
    (State.cpxCnt s k n).mic = s.mic ∧ (State.cpxCnt s k n).flt = s.flt ∧ (State.cpxCnt s k n).ctrs = s.ctrs ∧
    (State.cpxCnt s k n).grps = s.grps ∧ (State.cpxCnt s k n).pwr = s.pwr ∧ (State.cpxCnt s k n).thm = s.thm ∧
    (State.cpxCnt s k n).age = s.age ∧ (State.cpxCnt s k n).cnv = s.cnv ∧ (State.cpxCnt s k n).fwu = s.fwu ∧
    (State.cpxCnt s k n).glb = s.glb ∧ (State.cpxCnt s k n).sb = s.sb := by
  simp [State.cpxCnt]
theorem State.micCnt_still (s : State) (k n : Nat) :
    (State.micCnt s k n).pending = s.pending ∧ (State.micCnt s k n).free = s.free ∧ (State.micCnt s k n).host = s.host ∧
    (State.micCnt s k n).epoch = s.epoch ∧ (State.micCnt s k n).pat = s.pat ∧ (State.micCnt s k n).isl = s.isl ∧
    (State.micCnt s k n).routes = s.routes ∧ (State.micCnt s k n).dramMargin = s.dramMargin ∧ (State.micCnt s k n).ports = s.ports ∧
    (State.micCnt s k n).trickle = s.trickle ∧ (State.micCnt s k n).cmd = s.cmd ∧ (State.micCnt s k n).zon = s.zon ∧
    (State.micCnt s k n).med = s.med ∧ (State.micCnt s k n).mlf = s.mlf ∧ (State.micCnt s k n).cpx = s.cpx ∧
    (State.micCnt s k n).wvf = s.wvf ∧ (State.micCnt s k n).bpm = s.bpm ∧ (State.micCnt s k n).sli = s.sli ∧
    (State.micCnt s k n).sec = s.sec ∧ (State.micCnt s k n).flt = s.flt ∧ (State.micCnt s k n).ctrs = s.ctrs ∧
    (State.micCnt s k n).grps = s.grps ∧ (State.micCnt s k n).pwr = s.pwr ∧ (State.micCnt s k n).thm = s.thm ∧
    (State.micCnt s k n).age = s.age ∧ (State.micCnt s k n).cnv = s.cnv ∧ (State.micCnt s k n).fwu = s.fwu ∧
    (State.micCnt s k n).glb = s.glb ∧ (State.micCnt s k n).sb = s.sb := by
  simp [State.micCnt]
theorem State.bpmCnt_still (s : State) (k n : Nat) :
    (State.bpmCnt s k n).pending = s.pending ∧ (State.bpmCnt s k n).free = s.free ∧ (State.bpmCnt s k n).host = s.host ∧
    (State.bpmCnt s k n).epoch = s.epoch ∧ (State.bpmCnt s k n).pat = s.pat ∧ (State.bpmCnt s k n).isl = s.isl ∧
    (State.bpmCnt s k n).routes = s.routes ∧ (State.bpmCnt s k n).dramMargin = s.dramMargin ∧ (State.bpmCnt s k n).ports = s.ports ∧
    (State.bpmCnt s k n).trickle = s.trickle ∧ (State.bpmCnt s k n).cmd = s.cmd ∧ (State.bpmCnt s k n).zon = s.zon ∧
    (State.bpmCnt s k n).med = s.med ∧ (State.bpmCnt s k n).mlf = s.mlf ∧ (State.bpmCnt s k n).cpx = s.cpx ∧
    (State.bpmCnt s k n).wvf = s.wvf ∧ (State.bpmCnt s k n).sli = s.sli ∧ (State.bpmCnt s k n).sec = s.sec ∧
    (State.bpmCnt s k n).mic = s.mic ∧ (State.bpmCnt s k n).flt = s.flt ∧ (State.bpmCnt s k n).ctrs = s.ctrs ∧
    (State.bpmCnt s k n).grps = s.grps ∧ (State.bpmCnt s k n).pwr = s.pwr ∧ (State.bpmCnt s k n).thm = s.thm ∧
    (State.bpmCnt s k n).age = s.age ∧ (State.bpmCnt s k n).cnv = s.cnv ∧ (State.bpmCnt s k n).fwu = s.fwu ∧
    (State.bpmCnt s k n).glb = s.glb ∧ (State.bpmCnt s k n).sb = s.sb := by
  simp [State.bpmCnt]
theorem State.relCnt_still (s : State) (k n : Nat) :
    (State.relCnt s k n).pending = s.pending ∧ (State.relCnt s k n).free = s.free ∧ (State.relCnt s k n).host = s.host ∧
    (State.relCnt s k n).epoch = s.epoch ∧ (State.relCnt s k n).pat = s.pat ∧ (State.relCnt s k n).isl = s.isl ∧
    (State.relCnt s k n).routes = s.routes ∧ (State.relCnt s k n).dramMargin = s.dramMargin ∧ (State.relCnt s k n).ports = s.ports ∧
    (State.relCnt s k n).trickle = s.trickle ∧ (State.relCnt s k n).cmd = s.cmd ∧ (State.relCnt s k n).zon = s.zon ∧
    (State.relCnt s k n).med = s.med ∧ (State.relCnt s k n).cpx = s.cpx ∧ (State.relCnt s k n).wvf = s.wvf ∧
    (State.relCnt s k n).bpm = s.bpm ∧ (State.relCnt s k n).sli = s.sli ∧ (State.relCnt s k n).sec = s.sec ∧
    (State.relCnt s k n).mic = s.mic ∧ (State.relCnt s k n).flt = s.flt ∧ (State.relCnt s k n).ctrs = s.ctrs ∧
    (State.relCnt s k n).grps = s.grps ∧ (State.relCnt s k n).pwr = s.pwr ∧ (State.relCnt s k n).thm = s.thm ∧
    (State.relCnt s k n).age = s.age ∧ (State.relCnt s k n).cnv = s.cnv ∧ (State.relCnt s k n).fwu = s.fwu ∧
    (State.relCnt s k n).glb = s.glb ∧ (State.relCnt s k n).sb = s.sb := by
  simp [State.relCnt]
theorem State.lifeErr_still (s : State) (k n : Nat) :
    (State.lifeErr s k n).pending = s.pending ∧ (State.lifeErr s k n).free = s.free ∧ (State.lifeErr s k n).host = s.host ∧
    (State.lifeErr s k n).epoch = s.epoch ∧ (State.lifeErr s k n).pat = s.pat ∧ (State.lifeErr s k n).isl = s.isl ∧
    (State.lifeErr s k n).routes = s.routes ∧ (State.lifeErr s k n).dramMargin = s.dramMargin ∧ (State.lifeErr s k n).ports = s.ports ∧
    (State.lifeErr s k n).trickle = s.trickle ∧ (State.lifeErr s k n).cmd = s.cmd ∧ (State.lifeErr s k n).zon = s.zon ∧
    (State.lifeErr s k n).med = s.med ∧ (State.lifeErr s k n).cpx = s.cpx ∧ (State.lifeErr s k n).wvf = s.wvf ∧
    (State.lifeErr s k n).bpm = s.bpm ∧ (State.lifeErr s k n).sli = s.sli ∧ (State.lifeErr s k n).sec = s.sec ∧
    (State.lifeErr s k n).mic = s.mic ∧ (State.lifeErr s k n).flt = s.flt ∧ (State.lifeErr s k n).ctrs = s.ctrs ∧
    (State.lifeErr s k n).grps = s.grps ∧ (State.lifeErr s k n).pwr = s.pwr ∧ (State.lifeErr s k n).thm = s.thm ∧
    (State.lifeErr s k n).age = s.age ∧ (State.lifeErr s k n).cnv = s.cnv ∧ (State.lifeErr s k n).fwu = s.fwu ∧
    (State.lifeErr s k n).glb = s.glb ∧ (State.lifeErr s k n).sb = s.sb := by
  simp [State.lifeErr]
theorem State.queueFault_still (s : State) (e : FaultEv) :
    (State.queueFault s e).pending = s.pending ∧ (State.queueFault s e).free = s.free ∧ (State.queueFault s e).host = s.host ∧
    (State.queueFault s e).epoch = s.epoch ∧ (State.queueFault s e).pat = s.pat ∧ (State.queueFault s e).isl = s.isl ∧
    (State.queueFault s e).routes = s.routes ∧ (State.queueFault s e).dramMargin = s.dramMargin ∧ (State.queueFault s e).ports = s.ports ∧
    (State.queueFault s e).trickle = s.trickle ∧ (State.queueFault s e).cmd = s.cmd ∧ (State.queueFault s e).zon = s.zon ∧
    (State.queueFault s e).med = s.med ∧ (State.queueFault s e).mlf = s.mlf ∧ (State.queueFault s e).cpx = s.cpx ∧
    (State.queueFault s e).wvf = s.wvf ∧ (State.queueFault s e).bpm = s.bpm ∧ (State.queueFault s e).sli = s.sli ∧
    (State.queueFault s e).sec = s.sec ∧ (State.queueFault s e).mic = s.mic ∧ (State.queueFault s e).ctrs = s.ctrs ∧
    (State.queueFault s e).grps = s.grps ∧ (State.queueFault s e).pwr = s.pwr ∧ (State.queueFault s e).thm = s.thm ∧
    (State.queueFault s e).age = s.age ∧ (State.queueFault s e).cnv = s.cnv ∧ (State.queueFault s e).fwu = s.fwu ∧
    (State.queueFault s e).glb = s.glb ∧ (State.queueFault s e).sb = s.sb := by
  simp [State.queueFault]
theorem State.noteZone_still (s : State) (n z : Nat) :
    (State.noteZone s n z).pending = s.pending ∧ (State.noteZone s n z).free = s.free ∧ (State.noteZone s n z).host = s.host ∧
    (State.noteZone s n z).epoch = s.epoch ∧ (State.noteZone s n z).pat = s.pat ∧ (State.noteZone s n z).isl = s.isl ∧
    (State.noteZone s n z).routes = s.routes ∧ (State.noteZone s n z).dramMargin = s.dramMargin ∧ (State.noteZone s n z).ports = s.ports ∧
    (State.noteZone s n z).trickle = s.trickle ∧ (State.noteZone s n z).med = s.med ∧ (State.noteZone s n z).mlf = s.mlf ∧
    (State.noteZone s n z).cpx = s.cpx ∧ (State.noteZone s n z).wvf = s.wvf ∧ (State.noteZone s n z).bpm = s.bpm ∧
    (State.noteZone s n z).sli = s.sli ∧ (State.noteZone s n z).sec = s.sec ∧ (State.noteZone s n z).mic = s.mic ∧
    (State.noteZone s n z).flt = s.flt ∧ (State.noteZone s n z).ctrs = s.ctrs ∧ (State.noteZone s n z).grps = s.grps ∧
    (State.noteZone s n z).pwr = s.pwr ∧ (State.noteZone s n z).thm = s.thm ∧ (State.noteZone s n z).age = s.age ∧
    (State.noteZone s n z).cnv = s.cnv ∧ (State.noteZone s n z).fwu = s.fwu ∧ (State.noteZone s n z).glb = s.glb ∧
    (State.noteZone s n z).sb = s.sb := by
  have w1 := @State.sliceAen_still; have wf := @foldl_parts
  simp [State.noteZone, w1, wf]
theorem State.noteNs_still (s : State) (n : Nat) (slices : List Nat) :
    (State.noteNs s n slices).pending = s.pending ∧ (State.noteNs s n slices).free = s.free ∧ (State.noteNs s n slices).host = s.host ∧
    (State.noteNs s n slices).epoch = s.epoch ∧ (State.noteNs s n slices).pat = s.pat ∧ (State.noteNs s n slices).isl = s.isl ∧
    (State.noteNs s n slices).routes = s.routes ∧ (State.noteNs s n slices).dramMargin = s.dramMargin ∧
    (State.noteNs s n slices).ports = s.ports ∧ (State.noteNs s n slices).trickle = s.trickle ∧ (State.noteNs s n slices).med = s.med ∧
    (State.noteNs s n slices).mlf = s.mlf ∧ (State.noteNs s n slices).cpx = s.cpx ∧ (State.noteNs s n slices).wvf = s.wvf ∧
    (State.noteNs s n slices).bpm = s.bpm ∧ (State.noteNs s n slices).sli = s.sli ∧ (State.noteNs s n slices).sec = s.sec ∧
    (State.noteNs s n slices).mic = s.mic ∧ (State.noteNs s n slices).flt = s.flt ∧ (State.noteNs s n slices).ctrs = s.ctrs ∧
    (State.noteNs s n slices).grps = s.grps ∧ (State.noteNs s n slices).pwr = s.pwr ∧ (State.noteNs s n slices).thm = s.thm ∧
    (State.noteNs s n slices).age = s.age ∧ (State.noteNs s n slices).cnv = s.cnv ∧ (State.noteNs s n slices).fwu = s.fwu ∧
    (State.noteNs s n slices).glb = s.glb ∧ (State.noteNs s n slices).sb = s.sb := by
  have w1 := @State.sliceAen_still; have wf := @foldl_parts
  simp [State.noteNs, w1, wf]
theorem State.holdLed_still (s : State) (b : Nat) :
    (State.holdLed s b).pending = s.pending ∧ (State.holdLed s b).free = s.free ∧ (State.holdLed s b).host = s.host ∧
    (State.holdLed s b).epoch = s.epoch ∧ (State.holdLed s b).pat = s.pat ∧ (State.holdLed s b).isl = s.isl ∧
    (State.holdLed s b).routes = s.routes ∧ (State.holdLed s b).dramMargin = s.dramMargin ∧ (State.holdLed s b).ports = s.ports ∧
    (State.holdLed s b).trickle = s.trickle ∧ (State.holdLed s b).cmd = s.cmd ∧ (State.holdLed s b).zon = s.zon ∧
    (State.holdLed s b).mlf = s.mlf ∧ (State.holdLed s b).cpx = s.cpx ∧ (State.holdLed s b).wvf = s.wvf ∧ (State.holdLed s b).bpm = s.bpm ∧
    (State.holdLed s b).sli = s.sli ∧ (State.holdLed s b).sec = s.sec ∧ (State.holdLed s b).mic = s.mic ∧ (State.holdLed s b).flt = s.flt ∧
    (State.holdLed s b).ctrs = s.ctrs ∧ (State.holdLed s b).grps = s.grps ∧ (State.holdLed s b).pwr = s.pwr ∧
    (State.holdLed s b).thm = s.thm ∧ (State.holdLed s b).age = s.age ∧ (State.holdLed s b).cnv = s.cnv ∧ (State.holdLed s b).fwu = s.fwu ∧
    (State.holdLed s b).glb = s.glb ∧ (State.holdLed s b).sb = s.sb := by
  have w1 := @State.modBay_still; have wi := @ite_parts
  simp [State.holdLed, w1, wi]
theorem State.dropLine_still (s : State) (k : Nat) :
    (State.dropLine s k).pending = s.pending ∧ (State.dropLine s k).free = s.free ∧ (State.dropLine s k).host = s.host ∧
    (State.dropLine s k).epoch = s.epoch ∧ (State.dropLine s k).pat = s.pat ∧ (State.dropLine s k).isl = s.isl ∧
    (State.dropLine s k).routes = s.routes ∧ (State.dropLine s k).dramMargin = s.dramMargin ∧ (State.dropLine s k).ports = s.ports ∧
    (State.dropLine s k).trickle = s.trickle ∧ (State.dropLine s k).cmd = s.cmd ∧ (State.dropLine s k).zon = s.zon ∧
    (State.dropLine s k).mlf = s.mlf ∧ (State.dropLine s k).cpx = s.cpx ∧ (State.dropLine s k).wvf = s.wvf ∧
    (State.dropLine s k).bpm = s.bpm ∧ (State.dropLine s k).sli = s.sli ∧ (State.dropLine s k).sec = s.sec ∧
    (State.dropLine s k).mic = s.mic ∧ (State.dropLine s k).flt = s.flt ∧ (State.dropLine s k).ctrs = s.ctrs ∧
    (State.dropLine s k).grps = s.grps ∧ (State.dropLine s k).pwr = s.pwr ∧ (State.dropLine s k).thm = s.thm ∧
    (State.dropLine s k).age = s.age ∧ (State.dropLine s k).cnv = s.cnv ∧ (State.dropLine s k).fwu = s.fwu ∧
    (State.dropLine s k).glb = s.glb ∧ (State.dropLine s k).sb = s.sb := by
  have wi := @ite_parts
  have w1 := @State.delRow_still; have w2 := @State.setRow_still
  unfold State.dropLine; repeat' split
  all_goals simp [*]
theorem State.landLine_still (s : State) (k : Nat) (l : Line) :
    (State.landLine s k l).pending = s.pending ∧ (State.landLine s k l).free = s.free ∧ (State.landLine s k l).host = s.host ∧
    (State.landLine s k l).epoch = s.epoch ∧ (State.landLine s k l).pat = s.pat ∧ (State.landLine s k l).isl = s.isl ∧
    (State.landLine s k l).routes = s.routes ∧ (State.landLine s k l).dramMargin = s.dramMargin ∧ (State.landLine s k l).ports = s.ports ∧
    (State.landLine s k l).trickle = s.trickle ∧ (State.landLine s k l).cmd = s.cmd ∧ (State.landLine s k l).zon = s.zon ∧
    (State.landLine s k l).mlf = s.mlf ∧ (State.landLine s k l).cpx = s.cpx ∧ (State.landLine s k l).wvf = s.wvf ∧
    (State.landLine s k l).bpm = s.bpm ∧ (State.landLine s k l).sli = s.sli ∧ (State.landLine s k l).sec = s.sec ∧
    (State.landLine s k l).mic = s.mic ∧ (State.landLine s k l).flt = s.flt ∧ (State.landLine s k l).ctrs = s.ctrs ∧
    (State.landLine s k l).grps = s.grps ∧ (State.landLine s k l).pwr = s.pwr ∧ (State.landLine s k l).thm = s.thm ∧
    (State.landLine s k l).age = s.age ∧ (State.landLine s k l).cnv = s.cnv ∧ (State.landLine s k l).fwu = s.fwu ∧
    (State.landLine s k l).glb = s.glb ∧ (State.landLine s k l).sb = s.sb := by
  have w1 := @State.dropLine_still; have w2 := @State.setRow_still
  simp [State.landLine, w1, w2]
theorem State.modLine_still (s : State) (k : Nat) (f : Line → Line) :
    (State.modLine s k f).pending = s.pending ∧ (State.modLine s k f).free = s.free ∧ (State.modLine s k f).host = s.host ∧
    (State.modLine s k f).epoch = s.epoch ∧ (State.modLine s k f).pat = s.pat ∧ (State.modLine s k f).isl = s.isl ∧
    (State.modLine s k f).routes = s.routes ∧ (State.modLine s k f).dramMargin = s.dramMargin ∧ (State.modLine s k f).ports = s.ports ∧
    (State.modLine s k f).trickle = s.trickle ∧ (State.modLine s k f).cmd = s.cmd ∧ (State.modLine s k f).zon = s.zon ∧
    (State.modLine s k f).mlf = s.mlf ∧ (State.modLine s k f).cpx = s.cpx ∧ (State.modLine s k f).wvf = s.wvf ∧
    (State.modLine s k f).bpm = s.bpm ∧ (State.modLine s k f).sli = s.sli ∧ (State.modLine s k f).sec = s.sec ∧
    (State.modLine s k f).mic = s.mic ∧ (State.modLine s k f).flt = s.flt ∧ (State.modLine s k f).ctrs = s.ctrs ∧
    (State.modLine s k f).grps = s.grps ∧ (State.modLine s k f).pwr = s.pwr ∧ (State.modLine s k f).thm = s.thm ∧
    (State.modLine s k f).age = s.age ∧ (State.modLine s k f).cnv = s.cnv ∧ (State.modLine s k f).fwu = s.fwu ∧
    (State.modLine s k f).glb = s.glb ∧ (State.modLine s k f).sb = s.sb := by
  have w1 := @State.setRow_still
  unfold State.modLine; repeat' split
  all_goals simp [*]
theorem State.closeRows_still (s : State) (p : SRow → Bool) :
    (State.closeRows s p).pending = s.pending ∧ (State.closeRows s p).free = s.free ∧ (State.closeRows s p).host = s.host ∧
    (State.closeRows s p).epoch = s.epoch ∧ (State.closeRows s p).pat = s.pat ∧ (State.closeRows s p).isl = s.isl ∧
    (State.closeRows s p).routes = s.routes ∧ (State.closeRows s p).dramMargin = s.dramMargin ∧ (State.closeRows s p).ports = s.ports ∧
    (State.closeRows s p).trickle = s.trickle ∧ (State.closeRows s p).cmd = s.cmd ∧ (State.closeRows s p).zon = s.zon ∧
    (State.closeRows s p).mlf = s.mlf ∧ (State.closeRows s p).cpx = s.cpx ∧ (State.closeRows s p).wvf = s.wvf ∧
    (State.closeRows s p).bpm = s.bpm ∧ (State.closeRows s p).sli = s.sli ∧ (State.closeRows s p).sec = s.sec ∧
    (State.closeRows s p).mic = s.mic ∧ (State.closeRows s p).flt = s.flt ∧ (State.closeRows s p).ctrs = s.ctrs ∧
    (State.closeRows s p).grps = s.grps ∧ (State.closeRows s p).pwr = s.pwr ∧ (State.closeRows s p).thm = s.thm ∧
    (State.closeRows s p).age = s.age ∧ (State.closeRows s p).cnv = s.cnv ∧ (State.closeRows s p).fwu = s.fwu ∧
    (State.closeRows s p).glb = s.glb ∧ (State.closeRows s p).sb = s.sb := by
  have w1 := @State.setRow_still; have wf := @foldl_parts; have wi := @ite_parts
  simp [State.closeRows, w1, wf, wi]
theorem State.takeRows_still (s : State) (tm k r : Nat) (u : RowUse) :
    (State.takeRows s tm k r u).pending = s.pending ∧ (State.takeRows s tm k r u).free = s.free ∧
    (State.takeRows s tm k r u).host = s.host ∧ (State.takeRows s tm k r u).epoch = s.epoch ∧ (State.takeRows s tm k r u).pat = s.pat ∧
    (State.takeRows s tm k r u).isl = s.isl ∧ (State.takeRows s tm k r u).routes = s.routes ∧
    (State.takeRows s tm k r u).dramMargin = s.dramMargin ∧ (State.takeRows s tm k r u).ports = s.ports ∧
    (State.takeRows s tm k r u).trickle = s.trickle ∧ (State.takeRows s tm k r u).cmd = s.cmd ∧ (State.takeRows s tm k r u).zon = s.zon ∧
    (State.takeRows s tm k r u).mlf = s.mlf ∧ (State.takeRows s tm k r u).cpx = s.cpx ∧ (State.takeRows s tm k r u).wvf = s.wvf ∧
    (State.takeRows s tm k r u).bpm = s.bpm ∧ (State.takeRows s tm k r u).sli = s.sli ∧ (State.takeRows s tm k r u).sec = s.sec ∧
    (State.takeRows s tm k r u).mic = s.mic ∧ (State.takeRows s tm k r u).flt = s.flt ∧ (State.takeRows s tm k r u).ctrs = s.ctrs ∧
    (State.takeRows s tm k r u).grps = s.grps ∧ (State.takeRows s tm k r u).pwr = s.pwr ∧ (State.takeRows s tm k r u).thm = s.thm ∧
    (State.takeRows s tm k r u).age = s.age ∧ (State.takeRows s tm k r u).cnv = s.cnv ∧ (State.takeRows s tm k r u).fwu = s.fwu ∧
    (State.takeRows s tm k r u).glb = s.glb ∧ (State.takeRows s tm k r u).sb = s.sb := by
  have wf := @foldl_parts
  simp [State.takeRows, wf]
theorem State.clearRow_still (s : State) (rk : Nat) :
    (State.clearRow s rk).pending = s.pending ∧ (State.clearRow s rk).free = s.free ∧ (State.clearRow s rk).host = s.host ∧
    (State.clearRow s rk).epoch = s.epoch ∧ (State.clearRow s rk).pat = s.pat ∧ (State.clearRow s rk).isl = s.isl ∧
    (State.clearRow s rk).routes = s.routes ∧ (State.clearRow s rk).dramMargin = s.dramMargin ∧ (State.clearRow s rk).ports = s.ports ∧
    (State.clearRow s rk).trickle = s.trickle ∧ (State.clearRow s rk).cmd = s.cmd ∧ (State.clearRow s rk).zon = s.zon ∧
    (State.clearRow s rk).mlf = s.mlf ∧ (State.clearRow s rk).cpx = s.cpx ∧ (State.clearRow s rk).wvf = s.wvf ∧
    (State.clearRow s rk).bpm = s.bpm ∧ (State.clearRow s rk).sli = s.sli ∧ (State.clearRow s rk).sec = s.sec ∧
    (State.clearRow s rk).mic = s.mic ∧ (State.clearRow s rk).flt = s.flt ∧ (State.clearRow s rk).ctrs = s.ctrs ∧
    (State.clearRow s rk).grps = s.grps ∧ (State.clearRow s rk).pwr = s.pwr ∧ (State.clearRow s rk).thm = s.thm ∧
    (State.clearRow s rk).age = s.age ∧ (State.clearRow s rk).cnv = s.cnv ∧ (State.clearRow s rk).fwu = s.fwu ∧
    (State.clearRow s rk).glb = s.glb ∧ (State.clearRow s rk).sb = s.sb := by
  simp [State.clearRow]
theorem State.returnRows_still (s : State) (tm k r : Nat) :
    (State.returnRows s tm k r).pending = s.pending ∧ (State.returnRows s tm k r).free = s.free ∧
    (State.returnRows s tm k r).host = s.host ∧ (State.returnRows s tm k r).epoch = s.epoch ∧ (State.returnRows s tm k r).pat = s.pat ∧
    (State.returnRows s tm k r).isl = s.isl ∧ (State.returnRows s tm k r).routes = s.routes ∧
    (State.returnRows s tm k r).dramMargin = s.dramMargin ∧ (State.returnRows s tm k r).ports = s.ports ∧
    (State.returnRows s tm k r).trickle = s.trickle ∧ (State.returnRows s tm k r).cmd = s.cmd ∧ (State.returnRows s tm k r).zon = s.zon ∧
    (State.returnRows s tm k r).mlf = s.mlf ∧ (State.returnRows s tm k r).cpx = s.cpx ∧ (State.returnRows s tm k r).wvf = s.wvf ∧
    (State.returnRows s tm k r).bpm = s.bpm ∧ (State.returnRows s tm k r).sli = s.sli ∧ (State.returnRows s tm k r).sec = s.sec ∧
    (State.returnRows s tm k r).mic = s.mic ∧ (State.returnRows s tm k r).flt = s.flt ∧ (State.returnRows s tm k r).ctrs = s.ctrs ∧
    (State.returnRows s tm k r).grps = s.grps ∧ (State.returnRows s tm k r).pwr = s.pwr ∧ (State.returnRows s tm k r).thm = s.thm ∧
    (State.returnRows s tm k r).age = s.age ∧ (State.returnRows s tm k r).cnv = s.cnv ∧ (State.returnRows s tm k r).fwu = s.fwu ∧
    (State.returnRows s tm k r).glb = s.glb ∧ (State.returnRows s tm k r).sb = s.sb := by
  have w1 := @State.clearRow_still; have w2 := @State.modBlk_still; have wf := @foldl_parts
  simp [State.returnRows, w1, w2, wf]
theorem State.convTake_still (s : State) (rk : Nat) (u : RowUse) :
    (State.convTake s rk u).2.pending = s.pending ∧ (State.convTake s rk u).2.free = s.free ∧ (State.convTake s rk u).2.host = s.host ∧
    (State.convTake s rk u).2.epoch = s.epoch ∧ (State.convTake s rk u).2.pat = s.pat ∧ (State.convTake s rk u).2.isl = s.isl ∧
    (State.convTake s rk u).2.routes = s.routes ∧ (State.convTake s rk u).2.dramMargin = s.dramMargin ∧
    (State.convTake s rk u).2.ports = s.ports ∧ (State.convTake s rk u).2.trickle = s.trickle ∧ (State.convTake s rk u).2.cmd = s.cmd ∧
    (State.convTake s rk u).2.zon = s.zon ∧ (State.convTake s rk u).2.mlf = s.mlf ∧ (State.convTake s rk u).2.cpx = s.cpx ∧
    (State.convTake s rk u).2.wvf = s.wvf ∧ (State.convTake s rk u).2.bpm = s.bpm ∧ (State.convTake s rk u).2.sli = s.sli ∧
    (State.convTake s rk u).2.sec = s.sec ∧ (State.convTake s rk u).2.mic = s.mic ∧ (State.convTake s rk u).2.flt = s.flt ∧
    (State.convTake s rk u).2.ctrs = s.ctrs ∧ (State.convTake s rk u).2.grps = s.grps ∧ (State.convTake s rk u).2.pwr = s.pwr ∧
    (State.convTake s rk u).2.thm = s.thm ∧ (State.convTake s rk u).2.age = s.age ∧ (State.convTake s rk u).2.cnv = s.cnv ∧
    (State.convTake s rk u).2.fwu = s.fwu ∧ (State.convTake s rk u).2.glb = s.glb ∧ (State.convTake s rk u).2.sb = s.sb := by
  unfold State.convTake; repeat' split
  all_goals simp [*]
theorem State.convAlloc_still (s : State) (n rg ph : Nat) {r : Nat × State} (e : State.convAlloc s n rg ph = some r) :
    r.2.pending = s.pending ∧ r.2.free = s.free ∧ r.2.host = s.host ∧ r.2.epoch = s.epoch ∧ r.2.pat = s.pat ∧ r.2.isl = s.isl ∧
    r.2.routes = s.routes ∧ r.2.dramMargin = s.dramMargin ∧ r.2.ports = s.ports ∧ r.2.trickle = s.trickle ∧ r.2.cmd = s.cmd ∧
    r.2.zon = s.zon ∧ r.2.mlf = s.mlf ∧ r.2.cpx = s.cpx ∧ r.2.wvf = s.wvf ∧ r.2.bpm = s.bpm ∧ r.2.sli = s.sli ∧ r.2.sec = s.sec ∧
    r.2.mic = s.mic ∧ r.2.flt = s.flt ∧ r.2.ctrs = s.ctrs ∧ r.2.grps = s.grps ∧ r.2.pwr = s.pwr ∧ r.2.thm = s.thm ∧ r.2.age = s.age ∧
    r.2.cnv = s.cnv ∧ r.2.fwu = s.fwu ∧ r.2.glb = s.glb ∧ r.2.sb = s.sb := by
  have w1 := @State.convTake_still; have w2 := @State.takeRows_still; have wi := @ite_parts
  unfold State.convAlloc at e; repeat' split at e
  all_goals first | (cases e; done) | (cases e; simp [*]; done)
theorem State.takeLanding_still (s : State) (l : Landing) :
    (State.takeLanding s l).pending = s.pending ∧ (State.takeLanding s l).free = s.free ∧ (State.takeLanding s l).host = s.host ∧
    (State.takeLanding s l).epoch = s.epoch ∧ (State.takeLanding s l).pat = s.pat ∧ (State.takeLanding s l).isl = s.isl ∧
    (State.takeLanding s l).routes = s.routes ∧ (State.takeLanding s l).dramMargin = s.dramMargin ∧
    (State.takeLanding s l).ports = s.ports ∧ (State.takeLanding s l).trickle = s.trickle ∧ (State.takeLanding s l).cmd = s.cmd ∧
    (State.takeLanding s l).zon = s.zon ∧ (State.takeLanding s l).mlf = s.mlf ∧ (State.takeLanding s l).cpx = s.cpx ∧
    (State.takeLanding s l).wvf = s.wvf ∧ (State.takeLanding s l).bpm = s.bpm ∧ (State.takeLanding s l).sli = s.sli ∧
    (State.takeLanding s l).sec = s.sec ∧ (State.takeLanding s l).mic = s.mic ∧ (State.takeLanding s l).flt = s.flt ∧
    (State.takeLanding s l).ctrs = s.ctrs ∧ (State.takeLanding s l).grps = s.grps ∧ (State.takeLanding s l).pwr = s.pwr ∧
    (State.takeLanding s l).thm = s.thm ∧ (State.takeLanding s l).age = s.age ∧ (State.takeLanding s l).cnv = s.cnv ∧
    (State.takeLanding s l).fwu = s.fwu ∧ (State.takeLanding s l).glb = s.glb ∧ (State.takeLanding s l).sb = s.sb := by
  have w1 := @State.modBlk_still; have wf := @foldl_parts
  simp [State.takeLanding, w1, wf]
theorem State.newLanding_still (s : State) (kind : LandKind) (set : Nat) (units : List Nat) :
    (State.newLanding s kind set units).pending = s.pending ∧ (State.newLanding s kind set units).free = s.free ∧
    (State.newLanding s kind set units).host = s.host ∧ (State.newLanding s kind set units).epoch = s.epoch ∧
    (State.newLanding s kind set units).pat = s.pat ∧ (State.newLanding s kind set units).isl = s.isl ∧
    (State.newLanding s kind set units).routes = s.routes ∧ (State.newLanding s kind set units).dramMargin = s.dramMargin ∧
    (State.newLanding s kind set units).ports = s.ports ∧ (State.newLanding s kind set units).trickle = s.trickle ∧
    (State.newLanding s kind set units).cmd = s.cmd ∧ (State.newLanding s kind set units).zon = s.zon ∧
    (State.newLanding s kind set units).mlf = s.mlf ∧ (State.newLanding s kind set units).cpx = s.cpx ∧
    (State.newLanding s kind set units).wvf = s.wvf ∧ (State.newLanding s kind set units).bpm = s.bpm ∧
    (State.newLanding s kind set units).sli = s.sli ∧ (State.newLanding s kind set units).sec = s.sec ∧
    (State.newLanding s kind set units).mic = s.mic ∧ (State.newLanding s kind set units).flt = s.flt ∧
    (State.newLanding s kind set units).ctrs = s.ctrs ∧ (State.newLanding s kind set units).grps = s.grps ∧
    (State.newLanding s kind set units).pwr = s.pwr ∧ (State.newLanding s kind set units).thm = s.thm ∧
    (State.newLanding s kind set units).age = s.age ∧ (State.newLanding s kind set units).cnv = s.cnv ∧
    (State.newLanding s kind set units).fwu = s.fwu ∧ (State.newLanding s kind set units).glb = s.glb ∧
    (State.newLanding s kind set units).sb = s.sb := by
  have w1 := @State.takeLanding_still; have wi := @ite_parts
  simp [State.newLanding, w1, wi]
theorem State.landUnits_still (s : State) (kind : LandKind) (units : List Nat) :
    (State.landUnits s kind units).pending = s.pending ∧ (State.landUnits s kind units).free = s.free ∧
    (State.landUnits s kind units).host = s.host ∧ (State.landUnits s kind units).epoch = s.epoch ∧
    (State.landUnits s kind units).pat = s.pat ∧ (State.landUnits s kind units).isl = s.isl ∧
    (State.landUnits s kind units).routes = s.routes ∧ (State.landUnits s kind units).dramMargin = s.dramMargin ∧
    (State.landUnits s kind units).ports = s.ports ∧ (State.landUnits s kind units).trickle = s.trickle ∧
    (State.landUnits s kind units).cmd = s.cmd ∧ (State.landUnits s kind units).zon = s.zon ∧ (State.landUnits s kind units).mlf = s.mlf ∧
    (State.landUnits s kind units).cpx = s.cpx ∧ (State.landUnits s kind units).wvf = s.wvf ∧ (State.landUnits s kind units).bpm = s.bpm ∧
    (State.landUnits s kind units).sli = s.sli ∧ (State.landUnits s kind units).sec = s.sec ∧ (State.landUnits s kind units).mic = s.mic ∧
    (State.landUnits s kind units).flt = s.flt ∧ (State.landUnits s kind units).ctrs = s.ctrs ∧
    (State.landUnits s kind units).grps = s.grps ∧ (State.landUnits s kind units).pwr = s.pwr ∧
    (State.landUnits s kind units).thm = s.thm ∧ (State.landUnits s kind units).age = s.age ∧ (State.landUnits s kind units).cnv = s.cnv ∧
    (State.landUnits s kind units).fwu = s.fwu ∧ (State.landUnits s kind units).glb = s.glb ∧ (State.landUnits s kind units).sb = s.sb := by
  have w1 := @State.newLanding_still; have wf := @foldl_parts
  simp [State.landUnits, w1, wf]
theorem State.journal_still (s : State) (n : Nat) :
    (State.journal s n).pending = s.pending ∧ (State.journal s n).free = s.free ∧ (State.journal s n).host = s.host ∧
    (State.journal s n).epoch = s.epoch ∧ (State.journal s n).pat = s.pat ∧ (State.journal s n).isl = s.isl ∧
    (State.journal s n).routes = s.routes ∧ (State.journal s n).dramMargin = s.dramMargin ∧ (State.journal s n).ports = s.ports ∧
    (State.journal s n).trickle = s.trickle ∧ (State.journal s n).cmd = s.cmd ∧ (State.journal s n).med = s.med ∧
    (State.journal s n).mlf = s.mlf ∧ (State.journal s n).cpx = s.cpx ∧ (State.journal s n).wvf = s.wvf ∧ (State.journal s n).bpm = s.bpm ∧
    (State.journal s n).sli = s.sli ∧ (State.journal s n).sec = s.sec ∧ (State.journal s n).mic = s.mic ∧ (State.journal s n).flt = s.flt ∧
    (State.journal s n).ctrs = s.ctrs ∧ (State.journal s n).grps = s.grps ∧ (State.journal s n).pwr = s.pwr ∧
    (State.journal s n).thm = s.thm ∧ (State.journal s n).age = s.age ∧ (State.journal s n).cnv = s.cnv ∧ (State.journal s n).fwu = s.fwu ∧
    (State.journal s n).glb = s.glb ∧ (State.journal s n).sb = s.sb := by
  simp [State.journal]
theorem State.recordLine_still (s : State) (k : Nat) (l : Line) :
    (State.recordLine s k l).pending = s.pending ∧ (State.recordLine s k l).free = s.free ∧ (State.recordLine s k l).host = s.host ∧
    (State.recordLine s k l).epoch = s.epoch ∧ (State.recordLine s k l).pat = s.pat ∧ (State.recordLine s k l).isl = s.isl ∧
    (State.recordLine s k l).routes = s.routes ∧ (State.recordLine s k l).dramMargin = s.dramMargin ∧
    (State.recordLine s k l).ports = s.ports ∧ (State.recordLine s k l).trickle = s.trickle ∧ (State.recordLine s k l).cmd = s.cmd ∧
    (State.recordLine s k l).med = s.med ∧ (State.recordLine s k l).mlf = s.mlf ∧ (State.recordLine s k l).cpx = s.cpx ∧
    (State.recordLine s k l).wvf = s.wvf ∧ (State.recordLine s k l).bpm = s.bpm ∧ (State.recordLine s k l).sli = s.sli ∧
    (State.recordLine s k l).sec = s.sec ∧ (State.recordLine s k l).mic = s.mic ∧ (State.recordLine s k l).flt = s.flt ∧
    (State.recordLine s k l).ctrs = s.ctrs ∧ (State.recordLine s k l).grps = s.grps ∧ (State.recordLine s k l).pwr = s.pwr ∧
    (State.recordLine s k l).thm = s.thm ∧ (State.recordLine s k l).age = s.age ∧ (State.recordLine s k l).cnv = s.cnv ∧
    (State.recordLine s k l).fwu = s.fwu ∧ (State.recordLine s k l).glb = s.glb ∧ (State.recordLine s k l).sb = s.sb := by
  have w1 := @State.setMap_still; have w2 := @State.journal_still; have wi := @ite_parts
  unfold State.recordLine; dsimp only; repeat' split
  all_goals simp [*]
theorem State.recordUnit_still (s : State) (k : Nat) :
    (State.recordUnit s k).pending = s.pending ∧ (State.recordUnit s k).free = s.free ∧ (State.recordUnit s k).host = s.host ∧
    (State.recordUnit s k).epoch = s.epoch ∧ (State.recordUnit s k).pat = s.pat ∧ (State.recordUnit s k).isl = s.isl ∧
    (State.recordUnit s k).routes = s.routes ∧ (State.recordUnit s k).dramMargin = s.dramMargin ∧ (State.recordUnit s k).ports = s.ports ∧
    (State.recordUnit s k).trickle = s.trickle ∧ (State.recordUnit s k).cmd = s.cmd ∧ (State.recordUnit s k).med = s.med ∧
    (State.recordUnit s k).mlf = s.mlf ∧ (State.recordUnit s k).cpx = s.cpx ∧ (State.recordUnit s k).wvf = s.wvf ∧
    (State.recordUnit s k).bpm = s.bpm ∧ (State.recordUnit s k).sli = s.sli ∧ (State.recordUnit s k).sec = s.sec ∧
    (State.recordUnit s k).mic = s.mic ∧ (State.recordUnit s k).flt = s.flt ∧ (State.recordUnit s k).ctrs = s.ctrs ∧
    (State.recordUnit s k).grps = s.grps ∧ (State.recordUnit s k).pwr = s.pwr ∧ (State.recordUnit s k).thm = s.thm ∧
    (State.recordUnit s k).age = s.age ∧ (State.recordUnit s k).cnv = s.cnv ∧ (State.recordUnit s k).fwu = s.fwu ∧
    (State.recordUnit s k).glb = s.glb ∧ (State.recordUnit s k).sb = s.sb := by
  have w1 := @State.recordLine_still
  unfold State.recordUnit; repeat' split
  all_goals simp [*]
theorem State.recordUnits_still (s : State) (units : List Nat) :
    (State.recordUnits s units).pending = s.pending ∧ (State.recordUnits s units).free = s.free ∧
    (State.recordUnits s units).host = s.host ∧ (State.recordUnits s units).epoch = s.epoch ∧ (State.recordUnits s units).pat = s.pat ∧
    (State.recordUnits s units).isl = s.isl ∧ (State.recordUnits s units).routes = s.routes ∧
    (State.recordUnits s units).dramMargin = s.dramMargin ∧ (State.recordUnits s units).ports = s.ports ∧
    (State.recordUnits s units).trickle = s.trickle ∧ (State.recordUnits s units).cmd = s.cmd ∧ (State.recordUnits s units).med = s.med ∧
    (State.recordUnits s units).mlf = s.mlf ∧ (State.recordUnits s units).cpx = s.cpx ∧ (State.recordUnits s units).wvf = s.wvf ∧
    (State.recordUnits s units).bpm = s.bpm ∧ (State.recordUnits s units).sli = s.sli ∧ (State.recordUnits s units).sec = s.sec ∧
    (State.recordUnits s units).mic = s.mic ∧ (State.recordUnits s units).flt = s.flt ∧ (State.recordUnits s units).ctrs = s.ctrs ∧
    (State.recordUnits s units).grps = s.grps ∧ (State.recordUnits s units).pwr = s.pwr ∧ (State.recordUnits s units).thm = s.thm ∧
    (State.recordUnits s units).age = s.age ∧ (State.recordUnits s units).cnv = s.cnv ∧ (State.recordUnits s units).fwu = s.fwu ∧
    (State.recordUnits s units).glb = s.glb ∧ (State.recordUnits s units).sb = s.sb := by
  have w1 := @State.recordUnit_still; have wf := @foldl_parts
  simp [State.recordUnits, w1, wf]
theorem State.markDurable_still (s : State) (units : List Nat) :
    (State.markDurable s units).pending = s.pending ∧ (State.markDurable s units).free = s.free ∧
    (State.markDurable s units).host = s.host ∧ (State.markDurable s units).epoch = s.epoch ∧ (State.markDurable s units).pat = s.pat ∧
    (State.markDurable s units).isl = s.isl ∧ (State.markDurable s units).routes = s.routes ∧
    (State.markDurable s units).dramMargin = s.dramMargin ∧ (State.markDurable s units).ports = s.ports ∧
    (State.markDurable s units).trickle = s.trickle ∧ (State.markDurable s units).cmd = s.cmd ∧ (State.markDurable s units).mlf = s.mlf ∧
    (State.markDurable s units).cpx = s.cpx ∧ (State.markDurable s units).wvf = s.wvf ∧ (State.markDurable s units).bpm = s.bpm ∧
    (State.markDurable s units).sli = s.sli ∧ (State.markDurable s units).sec = s.sec ∧ (State.markDurable s units).mic = s.mic ∧
    (State.markDurable s units).flt = s.flt ∧ (State.markDurable s units).ctrs = s.ctrs ∧ (State.markDurable s units).grps = s.grps ∧
    (State.markDurable s units).pwr = s.pwr ∧ (State.markDurable s units).thm = s.thm ∧ (State.markDurable s units).age = s.age ∧
    (State.markDurable s units).cnv = s.cnv ∧ (State.markDurable s units).fwu = s.fwu ∧ (State.markDurable s units).glb = s.glb ∧
    (State.markDurable s units).sb = s.sb := by
  have w1 := @State.modLine_still; have w2 := @State.recordUnits_still; have wf := @foldl_parts
  simp [State.markDurable, w1, w2, wf]
theorem State.startWake_still (s : State) (i cause : Nat) :
    (State.startWake s i cause).pending = s.pending ∧ (State.startWake s i cause).free = s.free ∧
    (State.startWake s i cause).host = s.host ∧ (State.startWake s i cause).epoch = s.epoch ∧ (State.startWake s i cause).pat = s.pat ∧
    (State.startWake s i cause).routes = s.routes ∧ (State.startWake s i cause).dramMargin = s.dramMargin ∧
    (State.startWake s i cause).ports = s.ports ∧ (State.startWake s i cause).trickle = s.trickle ∧
    (State.startWake s i cause).cmd = s.cmd ∧ (State.startWake s i cause).zon = s.zon ∧ (State.startWake s i cause).med = s.med ∧
    (State.startWake s i cause).mlf = s.mlf ∧ (State.startWake s i cause).cpx = s.cpx ∧ (State.startWake s i cause).wvf = s.wvf ∧
    (State.startWake s i cause).bpm = s.bpm ∧ (State.startWake s i cause).sli = s.sli ∧ (State.startWake s i cause).sec = s.sec ∧
    (State.startWake s i cause).mic = s.mic ∧ (State.startWake s i cause).flt = s.flt ∧ (State.startWake s i cause).ctrs = s.ctrs ∧
    (State.startWake s i cause).grps = s.grps ∧ (State.startWake s i cause).thm = s.thm ∧ (State.startWake s i cause).age = s.age ∧
    (State.startWake s i cause).cnv = s.cnv ∧ (State.startWake s i cause).fwu = s.fwu ∧ (State.startWake s i cause).glb = s.glb ∧
    (State.startWake s i cause).sb = s.sb := by
  have w1 := @State.setIsl_still
  unfold State.startWake; dsimp only; repeat' split
  all_goals simp [*]
theorem State.liftFloors_still (s : State) :
    (State.liftFloors s).pending = s.pending ∧ (State.liftFloors s).free = s.free ∧ (State.liftFloors s).host = s.host ∧
    (State.liftFloors s).epoch = s.epoch ∧ (State.liftFloors s).pat = s.pat ∧ (State.liftFloors s).routes = s.routes ∧
    (State.liftFloors s).dramMargin = s.dramMargin ∧ (State.liftFloors s).ports = s.ports ∧ (State.liftFloors s).trickle = s.trickle ∧
    (State.liftFloors s).cmd = s.cmd ∧ (State.liftFloors s).zon = s.zon ∧ (State.liftFloors s).med = s.med ∧
    (State.liftFloors s).mlf = s.mlf ∧ (State.liftFloors s).cpx = s.cpx ∧ (State.liftFloors s).wvf = s.wvf ∧
    (State.liftFloors s).bpm = s.bpm ∧ (State.liftFloors s).sli = s.sli ∧ (State.liftFloors s).sec = s.sec ∧
    (State.liftFloors s).mic = s.mic ∧ (State.liftFloors s).flt = s.flt ∧ (State.liftFloors s).ctrs = s.ctrs ∧
    (State.liftFloors s).grps = s.grps ∧ (State.liftFloors s).thm = s.thm ∧ (State.liftFloors s).age = s.age ∧
    (State.liftFloors s).cnv = s.cnv ∧ (State.liftFloors s).fwu = s.fwu ∧ (State.liftFloors s).glb = s.glb ∧ (State.liftFloors s).sb = s.sb := by
  have w1 := @State.startWake_still; have wf := @foldl_parts; have wi := @ite_parts
  simp [State.liftFloors, w1, wf, wi]
theorem State.access_still (s : State) (i : Nat) :
    (State.access s i).pending = s.pending ∧ (State.access s i).free = s.free ∧ (State.access s i).host = s.host ∧
    (State.access s i).epoch = s.epoch ∧ (State.access s i).pat = s.pat ∧ (State.access s i).routes = s.routes ∧
    (State.access s i).dramMargin = s.dramMargin ∧ (State.access s i).ports = s.ports ∧ (State.access s i).trickle = s.trickle ∧
    (State.access s i).cmd = s.cmd ∧ (State.access s i).zon = s.zon ∧ (State.access s i).med = s.med ∧ (State.access s i).mlf = s.mlf ∧
    (State.access s i).cpx = s.cpx ∧ (State.access s i).wvf = s.wvf ∧ (State.access s i).bpm = s.bpm ∧ (State.access s i).sli = s.sli ∧
    (State.access s i).sec = s.sec ∧ (State.access s i).mic = s.mic ∧ (State.access s i).flt = s.flt ∧ (State.access s i).ctrs = s.ctrs ∧
    (State.access s i).grps = s.grps ∧ (State.access s i).thm = s.thm ∧ (State.access s i).age = s.age ∧ (State.access s i).cnv = s.cnv ∧
    (State.access s i).fwu = s.fwu ∧ (State.access s i).glb = s.glb ∧ (State.access s i).sb = s.sb := by
  have w1 := @State.startWake_still; have wi := @ite_parts
  simp [State.access, w1, wi]
theorem State.wakeEvent_still (s : State) (isl cause : Nat) :
    (State.wakeEvent s isl cause).pending = s.pending ∧ (State.wakeEvent s isl cause).free = s.free ∧
    (State.wakeEvent s isl cause).host = s.host ∧ (State.wakeEvent s isl cause).epoch = s.epoch ∧
    (State.wakeEvent s isl cause).pat = s.pat ∧ (State.wakeEvent s isl cause).routes = s.routes ∧
    (State.wakeEvent s isl cause).dramMargin = s.dramMargin ∧ (State.wakeEvent s isl cause).ports = s.ports ∧
    (State.wakeEvent s isl cause).trickle = s.trickle ∧ (State.wakeEvent s isl cause).cmd = s.cmd ∧
    (State.wakeEvent s isl cause).zon = s.zon ∧ (State.wakeEvent s isl cause).med = s.med ∧ (State.wakeEvent s isl cause).mlf = s.mlf ∧
    (State.wakeEvent s isl cause).cpx = s.cpx ∧ (State.wakeEvent s isl cause).wvf = s.wvf ∧ (State.wakeEvent s isl cause).bpm = s.bpm ∧
    (State.wakeEvent s isl cause).sli = s.sli ∧ (State.wakeEvent s isl cause).sec = s.sec ∧ (State.wakeEvent s isl cause).mic = s.mic ∧
    (State.wakeEvent s isl cause).flt = s.flt ∧ (State.wakeEvent s isl cause).ctrs = s.ctrs ∧ (State.wakeEvent s isl cause).grps = s.grps ∧
    (State.wakeEvent s isl cause).thm = s.thm ∧ (State.wakeEvent s isl cause).age = s.age ∧ (State.wakeEvent s isl cause).cnv = s.cnv ∧
    (State.wakeEvent s isl cause).fwu = s.fwu ∧ (State.wakeEvent s isl cause).glb = s.glb ∧ (State.wakeEvent s isl cause).sb = s.sb := by
  have w1 := @State.startWake_still; have wf := @foldl_parts; have wi := @ite_parts
  simp [State.wakeEvent, w1, wf, wi]
theorem State.bayWake_still (s : State) (b : Nat) :
    (State.bayWake s b).pending = s.pending ∧ (State.bayWake s b).free = s.free ∧ (State.bayWake s b).host = s.host ∧
    (State.bayWake s b).epoch = s.epoch ∧ (State.bayWake s b).pat = s.pat ∧ (State.bayWake s b).routes = s.routes ∧
    (State.bayWake s b).dramMargin = s.dramMargin ∧ (State.bayWake s b).ports = s.ports ∧ (State.bayWake s b).trickle = s.trickle ∧
    (State.bayWake s b).cmd = s.cmd ∧ (State.bayWake s b).zon = s.zon ∧ (State.bayWake s b).med = s.med ∧ (State.bayWake s b).mlf = s.mlf ∧
    (State.bayWake s b).cpx = s.cpx ∧ (State.bayWake s b).wvf = s.wvf ∧ (State.bayWake s b).bpm = s.bpm ∧ (State.bayWake s b).sli = s.sli ∧
    (State.bayWake s b).sec = s.sec ∧ (State.bayWake s b).mic = s.mic ∧ (State.bayWake s b).flt = s.flt ∧
    (State.bayWake s b).ctrs = s.ctrs ∧ (State.bayWake s b).grps = s.grps ∧ (State.bayWake s b).thm = s.thm ∧
    (State.bayWake s b).age = s.age ∧ (State.bayWake s b).cnv = s.cnv ∧ (State.bayWake s b).fwu = s.fwu ∧ (State.bayWake s b).glb = s.glb ∧
    (State.bayWake s b).sb = s.sb := by
  have w1 := @State.wakeEvent_still
  simp [State.bayWake, w1]
theorem State.wakeChain_still (s : State) (admin : Bool) :
    (State.wakeChain s admin).pending = s.pending ∧ (State.wakeChain s admin).free = s.free ∧ (State.wakeChain s admin).host = s.host ∧
    (State.wakeChain s admin).epoch = s.epoch ∧ (State.wakeChain s admin).pat = s.pat ∧ (State.wakeChain s admin).routes = s.routes ∧
    (State.wakeChain s admin).dramMargin = s.dramMargin ∧ (State.wakeChain s admin).ports = s.ports ∧
    (State.wakeChain s admin).trickle = s.trickle ∧ (State.wakeChain s admin).cmd = s.cmd ∧ (State.wakeChain s admin).zon = s.zon ∧
    (State.wakeChain s admin).med = s.med ∧ (State.wakeChain s admin).mlf = s.mlf ∧ (State.wakeChain s admin).cpx = s.cpx ∧
    (State.wakeChain s admin).wvf = s.wvf ∧ (State.wakeChain s admin).bpm = s.bpm ∧ (State.wakeChain s admin).sli = s.sli ∧
    (State.wakeChain s admin).sec = s.sec ∧ (State.wakeChain s admin).mic = s.mic ∧ (State.wakeChain s admin).flt = s.flt ∧
    (State.wakeChain s admin).ctrs = s.ctrs ∧ (State.wakeChain s admin).grps = s.grps ∧ (State.wakeChain s admin).thm = s.thm ∧
    (State.wakeChain s admin).age = s.age ∧ (State.wakeChain s admin).cnv = s.cnv ∧ (State.wakeChain s admin).fwu = s.fwu ∧
    (State.wakeChain s admin).glb = s.glb ∧ (State.wakeChain s admin).sb = s.sb := by
  have w1 := @State.access_still; have wf := @foldl_parts
  simp [State.wakeChain, w1, wf]
theorem State.useShare_still (s : State) (b : Nat) (o : DieOp) :
    (State.useShare s b o).pending = s.pending ∧ (State.useShare s b o).free = s.free ∧ (State.useShare s b o).host = s.host ∧
    (State.useShare s b o).epoch = s.epoch ∧ (State.useShare s b o).pat = s.pat ∧ (State.useShare s b o).isl = s.isl ∧
    (State.useShare s b o).routes = s.routes ∧ (State.useShare s b o).dramMargin = s.dramMargin ∧ (State.useShare s b o).ports = s.ports ∧
    (State.useShare s b o).trickle = s.trickle ∧ (State.useShare s b o).cmd = s.cmd ∧ (State.useShare s b o).zon = s.zon ∧
    (State.useShare s b o).mlf = s.mlf ∧ (State.useShare s b o).cpx = s.cpx ∧ (State.useShare s b o).wvf = s.wvf ∧
    (State.useShare s b o).bpm = s.bpm ∧ (State.useShare s b o).sli = s.sli ∧ (State.useShare s b o).sec = s.sec ∧
    (State.useShare s b o).mic = s.mic ∧ (State.useShare s b o).flt = s.flt ∧ (State.useShare s b o).ctrs = s.ctrs ∧
    (State.useShare s b o).grps = s.grps ∧ (State.useShare s b o).pwr = s.pwr ∧ (State.useShare s b o).thm = s.thm ∧
    (State.useShare s b o).age = s.age ∧ (State.useShare s b o).cnv = s.cnv ∧ (State.useShare s b o).fwu = s.fwu ∧
    (State.useShare s b o).glb = s.glb ∧ (State.useShare s b o).sb = s.sb := by
  have w1 := @State.modClu_still; have wi := @ite_parts
  simp [State.useShare, w1, wi]
theorem State.charge_still (s : State) (sl pt cost : Nat) :
    (State.charge s sl pt cost).pending = s.pending ∧ (State.charge s sl pt cost).free = s.free ∧
    (State.charge s sl pt cost).host = s.host ∧ (State.charge s sl pt cost).epoch = s.epoch ∧ (State.charge s sl pt cost).pat = s.pat ∧
    (State.charge s sl pt cost).isl = s.isl ∧ (State.charge s sl pt cost).routes = s.routes ∧
    (State.charge s sl pt cost).dramMargin = s.dramMargin ∧ (State.charge s sl pt cost).ports = s.ports ∧
    (State.charge s sl pt cost).trickle = s.trickle ∧ (State.charge s sl pt cost).cmd = s.cmd ∧ (State.charge s sl pt cost).zon = s.zon ∧
    (State.charge s sl pt cost).med = s.med ∧ (State.charge s sl pt cost).mlf = s.mlf ∧ (State.charge s sl pt cost).cpx = s.cpx ∧
    (State.charge s sl pt cost).wvf = s.wvf ∧ (State.charge s sl pt cost).bpm = s.bpm ∧ (State.charge s sl pt cost).sec = s.sec ∧
    (State.charge s sl pt cost).mic = s.mic ∧ (State.charge s sl pt cost).flt = s.flt ∧ (State.charge s sl pt cost).ctrs = s.ctrs ∧
    (State.charge s sl pt cost).grps = s.grps ∧ (State.charge s sl pt cost).pwr = s.pwr ∧ (State.charge s sl pt cost).thm = s.thm ∧
    (State.charge s sl pt cost).age = s.age ∧ (State.charge s sl pt cost).cnv = s.cnv ∧ (State.charge s sl pt cost).fwu = s.fwu ∧
    (State.charge s sl pt cost).glb = s.glb ∧ (State.charge s sl pt cost).sb = s.sb := by
  have w1 := @State.modSli_still; have wi := @ite_parts
  simp [State.charge, w1, wi]
theorem State.useBudget_still (s : State) (b us : Nat) :
    (State.useBudget s b us).pending = s.pending ∧ (State.useBudget s b us).free = s.free ∧ (State.useBudget s b us).host = s.host ∧
    (State.useBudget s b us).epoch = s.epoch ∧ (State.useBudget s b us).pat = s.pat ∧ (State.useBudget s b us).routes = s.routes ∧
    (State.useBudget s b us).dramMargin = s.dramMargin ∧ (State.useBudget s b us).ports = s.ports ∧
    (State.useBudget s b us).trickle = s.trickle ∧ (State.useBudget s b us).cmd = s.cmd ∧ (State.useBudget s b us).zon = s.zon ∧
    (State.useBudget s b us).med = s.med ∧ (State.useBudget s b us).mlf = s.mlf ∧ (State.useBudget s b us).cpx = s.cpx ∧
    (State.useBudget s b us).wvf = s.wvf ∧ (State.useBudget s b us).bpm = s.bpm ∧ (State.useBudget s b us).sli = s.sli ∧
    (State.useBudget s b us).sec = s.sec ∧ (State.useBudget s b us).mic = s.mic ∧ (State.useBudget s b us).flt = s.flt ∧
    (State.useBudget s b us).ctrs = s.ctrs ∧ (State.useBudget s b us).grps = s.grps ∧ (State.useBudget s b us).pwr = s.pwr ∧
    (State.useBudget s b us).thm = s.thm ∧ (State.useBudget s b us).age = s.age ∧ (State.useBudget s b us).cnv = s.cnv ∧
    (State.useBudget s b us).fwu = s.fwu ∧ (State.useBudget s b us).glb = s.glb ∧ (State.useBudget s b us).sb = s.sb := by
  have w1 := @State.modIsl_still
  simp [State.useBudget, w1]
theorem State.renewBudget_still (s : State) (b : Nat) :
    (State.renewBudget s b).pending = s.pending ∧ (State.renewBudget s b).free = s.free ∧ (State.renewBudget s b).host = s.host ∧
    (State.renewBudget s b).epoch = s.epoch ∧ (State.renewBudget s b).pat = s.pat ∧ (State.renewBudget s b).routes = s.routes ∧
    (State.renewBudget s b).dramMargin = s.dramMargin ∧ (State.renewBudget s b).ports = s.ports ∧
    (State.renewBudget s b).trickle = s.trickle ∧ (State.renewBudget s b).cmd = s.cmd ∧ (State.renewBudget s b).zon = s.zon ∧
    (State.renewBudget s b).mlf = s.mlf ∧ (State.renewBudget s b).cpx = s.cpx ∧ (State.renewBudget s b).wvf = s.wvf ∧
    (State.renewBudget s b).bpm = s.bpm ∧ (State.renewBudget s b).sli = s.sli ∧ (State.renewBudget s b).sec = s.sec ∧
    (State.renewBudget s b).mic = s.mic ∧ (State.renewBudget s b).flt = s.flt ∧ (State.renewBudget s b).ctrs = s.ctrs ∧
    (State.renewBudget s b).grps = s.grps ∧ (State.renewBudget s b).pwr = s.pwr ∧ (State.renewBudget s b).thm = s.thm ∧
    (State.renewBudget s b).age = s.age ∧ (State.renewBudget s b).cnv = s.cnv ∧ (State.renewBudget s b).fwu = s.fwu ∧
    (State.renewBudget s b).glb = s.glb ∧ (State.renewBudget s b).sb = s.sb := by
  have w1 := @State.modIsl_still; have w2 := @State.modClu_still
  simp [State.renewBudget, w1, w2]
theorem State.chargeRead_still (s : State) (d : Nat) (o : DieOp) :
    (State.chargeRead s d o).pending = s.pending ∧ (State.chargeRead s d o).free = s.free ∧ (State.chargeRead s d o).host = s.host ∧
    (State.chargeRead s d o).epoch = s.epoch ∧ (State.chargeRead s d o).pat = s.pat ∧ (State.chargeRead s d o).isl = s.isl ∧
    (State.chargeRead s d o).routes = s.routes ∧ (State.chargeRead s d o).dramMargin = s.dramMargin ∧
    (State.chargeRead s d o).ports = s.ports ∧ (State.chargeRead s d o).trickle = s.trickle ∧ (State.chargeRead s d o).cmd = s.cmd ∧
    (State.chargeRead s d o).zon = s.zon ∧ (State.chargeRead s d o).med = s.med ∧ (State.chargeRead s d o).mlf = s.mlf ∧
    (State.chargeRead s d o).cpx = s.cpx ∧ (State.chargeRead s d o).wvf = s.wvf ∧ (State.chargeRead s d o).bpm = s.bpm ∧
    (State.chargeRead s d o).sec = s.sec ∧ (State.chargeRead s d o).mic = s.mic ∧ (State.chargeRead s d o).flt = s.flt ∧
    (State.chargeRead s d o).ctrs = s.ctrs ∧ (State.chargeRead s d o).grps = s.grps ∧ (State.chargeRead s d o).pwr = s.pwr ∧
    (State.chargeRead s d o).thm = s.thm ∧ (State.chargeRead s d o).age = s.age ∧ (State.chargeRead s d o).cnv = s.cnv ∧
    (State.chargeRead s d o).fwu = s.fwu ∧ (State.chargeRead s d o).glb = s.glb ∧ (State.chargeRead s d o).sb = s.sb := by
  have w1 := @State.charge_still; have wi := @ite_parts
  simp [State.chargeRead, w1, wi]
theorem State.startOp_still (s : State) (d : Nat) (o : DieOp) :
    (State.startOp s d o).pending = s.pending ∧ (State.startOp s d o).free = s.free ∧ (State.startOp s d o).host = s.host ∧
    (State.startOp s d o).epoch = s.epoch ∧ (State.startOp s d o).pat = s.pat ∧ (State.startOp s d o).routes = s.routes ∧
    (State.startOp s d o).dramMargin = s.dramMargin ∧ (State.startOp s d o).ports = s.ports ∧ (State.startOp s d o).trickle = s.trickle ∧
    (State.startOp s d o).cmd = s.cmd ∧ (State.startOp s d o).zon = s.zon ∧ (State.startOp s d o).mlf = s.mlf ∧
    (State.startOp s d o).cpx = s.cpx ∧ (State.startOp s d o).wvf = s.wvf ∧ (State.startOp s d o).bpm = s.bpm ∧
    (State.startOp s d o).sec = s.sec ∧ (State.startOp s d o).mic = s.mic ∧ (State.startOp s d o).flt = s.flt ∧
    (State.startOp s d o).ctrs = s.ctrs ∧ (State.startOp s d o).grps = s.grps ∧ (State.startOp s d o).pwr = s.pwr ∧
    (State.startOp s d o).thm = s.thm ∧ (State.startOp s d o).age = s.age ∧ (State.startOp s d o).cnv = s.cnv ∧
    (State.startOp s d o).fwu = s.fwu ∧ (State.startOp s d o).glb = s.glb ∧ (State.startOp s d o).sb = s.sb := by
  have w1 := @State.setDie_still; have w2 := @State.useBudget_still; have w3 := @State.useShare_still
  have w4 := @State.chargeRead_still
  simp [State.startOp, w1, w2, w3, w4]
theorem State.kick_still (s : State) (d : Nat) :
    (State.kick s d).pending = s.pending ∧ (State.kick s d).free = s.free ∧ (State.kick s d).host = s.host ∧
    (State.kick s d).epoch = s.epoch ∧ (State.kick s d).pat = s.pat ∧ (State.kick s d).routes = s.routes ∧
    (State.kick s d).dramMargin = s.dramMargin ∧ (State.kick s d).ports = s.ports ∧ (State.kick s d).trickle = s.trickle ∧
    (State.kick s d).cmd = s.cmd ∧ (State.kick s d).zon = s.zon ∧ (State.kick s d).mlf = s.mlf ∧ (State.kick s d).cpx = s.cpx ∧
    (State.kick s d).wvf = s.wvf ∧ (State.kick s d).bpm = s.bpm ∧ (State.kick s d).sec = s.sec ∧ (State.kick s d).mic = s.mic ∧
    (State.kick s d).flt = s.flt ∧ (State.kick s d).ctrs = s.ctrs ∧ (State.kick s d).grps = s.grps ∧ (State.kick s d).pwr = s.pwr ∧
    (State.kick s d).thm = s.thm ∧ (State.kick s d).age = s.age ∧ (State.kick s d).cnv = s.cnv ∧ (State.kick s d).fwu = s.fwu ∧
    (State.kick s d).glb = s.glb ∧ (State.kick s d).sb = s.sb := by
  have w1 := @State.setDie_still; have w2 := @State.useBudget_still; have w3 := @State.chargeRead_still
  have w4 := @State.startOp_still; have wi := @ite_parts
  unfold State.kick; dsimp only; repeat' split
  all_goals simp [*]
theorem State.enqueue_still (s : State) (d : Nat) (o : DieOp) :
    (State.enqueue s d o).pending = s.pending ∧ (State.enqueue s d o).free = s.free ∧ (State.enqueue s d o).host = s.host ∧
    (State.enqueue s d o).epoch = s.epoch ∧ (State.enqueue s d o).pat = s.pat ∧ (State.enqueue s d o).routes = s.routes ∧
    (State.enqueue s d o).dramMargin = s.dramMargin ∧ (State.enqueue s d o).ports = s.ports ∧ (State.enqueue s d o).trickle = s.trickle ∧
    (State.enqueue s d o).cmd = s.cmd ∧ (State.enqueue s d o).zon = s.zon ∧ (State.enqueue s d o).mlf = s.mlf ∧
    (State.enqueue s d o).cpx = s.cpx ∧ (State.enqueue s d o).wvf = s.wvf ∧ (State.enqueue s d o).bpm = s.bpm ∧
    (State.enqueue s d o).sec = s.sec ∧ (State.enqueue s d o).mic = s.mic ∧ (State.enqueue s d o).flt = s.flt ∧
    (State.enqueue s d o).ctrs = s.ctrs ∧ (State.enqueue s d o).grps = s.grps ∧ (State.enqueue s d o).thm = s.thm ∧
    (State.enqueue s d o).age = s.age ∧ (State.enqueue s d o).cnv = s.cnv ∧ (State.enqueue s d o).fwu = s.fwu ∧
    (State.enqueue s d o).glb = s.glb ∧ (State.enqueue s d o).sb = s.sb := by
  have w1 := @State.modDie_still; have w2 := @State.access_still; have w3 := @State.kick_still
  simp [State.enqueue, w1, w2, w3]
theorem State.kickAll_still (s : State) :
    (State.kickAll s).pending = s.pending ∧ (State.kickAll s).free = s.free ∧ (State.kickAll s).host = s.host ∧
    (State.kickAll s).epoch = s.epoch ∧ (State.kickAll s).pat = s.pat ∧ (State.kickAll s).routes = s.routes ∧
    (State.kickAll s).dramMargin = s.dramMargin ∧ (State.kickAll s).ports = s.ports ∧ (State.kickAll s).trickle = s.trickle ∧
    (State.kickAll s).cmd = s.cmd ∧ (State.kickAll s).zon = s.zon ∧ (State.kickAll s).mlf = s.mlf ∧ (State.kickAll s).cpx = s.cpx ∧
    (State.kickAll s).wvf = s.wvf ∧ (State.kickAll s).bpm = s.bpm ∧ (State.kickAll s).sec = s.sec ∧ (State.kickAll s).mic = s.mic ∧
    (State.kickAll s).flt = s.flt ∧ (State.kickAll s).ctrs = s.ctrs ∧ (State.kickAll s).grps = s.grps ∧ (State.kickAll s).pwr = s.pwr ∧
    (State.kickAll s).thm = s.thm ∧ (State.kickAll s).age = s.age ∧ (State.kickAll s).cnv = s.cnv ∧ (State.kickAll s).fwu = s.fwu ∧
    (State.kickAll s).glb = s.glb ∧ (State.kickAll s).sb = s.sb := by
  have w1 := @State.kick_still; have wf := @foldl_parts
  simp [State.kickAll, w1, wf]
theorem State.setMem_still (s : State) (isl j : Nat) (m : MMem) :
    (State.setMem s isl j m).pending = s.pending ∧ (State.setMem s isl j m).free = s.free ∧ (State.setMem s isl j m).host = s.host ∧
    (State.setMem s isl j m).epoch = s.epoch ∧ (State.setMem s isl j m).pat = s.pat ∧ (State.setMem s isl j m).isl = s.isl ∧
    (State.setMem s isl j m).routes = s.routes ∧ (State.setMem s isl j m).dramMargin = s.dramMargin ∧
    (State.setMem s isl j m).ports = s.ports ∧ (State.setMem s isl j m).trickle = s.trickle ∧ (State.setMem s isl j m).cmd = s.cmd ∧
    (State.setMem s isl j m).zon = s.zon ∧ (State.setMem s isl j m).med = s.med ∧ (State.setMem s isl j m).mlf = s.mlf ∧
    (State.setMem s isl j m).cpx = s.cpx ∧ (State.setMem s isl j m).wvf = s.wvf ∧ (State.setMem s isl j m).bpm = s.bpm ∧
    (State.setMem s isl j m).sli = s.sli ∧ (State.setMem s isl j m).sec = s.sec ∧ (State.setMem s isl j m).flt = s.flt ∧
    (State.setMem s isl j m).ctrs = s.ctrs ∧ (State.setMem s isl j m).grps = s.grps ∧ (State.setMem s isl j m).pwr = s.pwr ∧
    (State.setMem s isl j m).thm = s.thm ∧ (State.setMem s isl j m).age = s.age ∧ (State.setMem s isl j m).cnv = s.cnv ∧
    (State.setMem s isl j m).fwu = s.fwu ∧ (State.setMem s isl j m).glb = s.glb ∧ (State.setMem s isl j m).sb = s.sb := by
  simp [State.setMem]
theorem State.setPool_still (s : State) (c : Nat) (p : Pool) :
    (State.setPool s c p).pending = s.pending ∧ (State.setPool s c p).free = s.free ∧ (State.setPool s c p).host = s.host ∧
    (State.setPool s c p).epoch = s.epoch ∧ (State.setPool s c p).pat = s.pat ∧ (State.setPool s c p).isl = s.isl ∧
    (State.setPool s c p).routes = s.routes ∧ (State.setPool s c p).dramMargin = s.dramMargin ∧ (State.setPool s c p).ports = s.ports ∧
    (State.setPool s c p).trickle = s.trickle ∧ (State.setPool s c p).cmd = s.cmd ∧ (State.setPool s c p).zon = s.zon ∧
    (State.setPool s c p).med = s.med ∧ (State.setPool s c p).mlf = s.mlf ∧ (State.setPool s c p).cpx = s.cpx ∧
    (State.setPool s c p).wvf = s.wvf ∧ (State.setPool s c p).sli = s.sli ∧ (State.setPool s c p).sec = s.sec ∧
    (State.setPool s c p).mic = s.mic ∧ (State.setPool s c p).flt = s.flt ∧ (State.setPool s c p).ctrs = s.ctrs ∧
    (State.setPool s c p).grps = s.grps ∧ (State.setPool s c p).pwr = s.pwr ∧ (State.setPool s c p).thm = s.thm ∧
    (State.setPool s c p).age = s.age ∧ (State.setPool s c p).cnv = s.cnv ∧ (State.setPool s c p).fwu = s.fwu ∧
    (State.setPool s c p).glb = s.glb ∧ (State.setPool s c p).sb = s.sb := by
  simp [State.setPool]
theorem State.setFrame_still (s : State) (k : Nat) (f : PFrame) :
    (State.setFrame s k f).pending = s.pending ∧ (State.setFrame s k f).free = s.free ∧ (State.setFrame s k f).host = s.host ∧
    (State.setFrame s k f).epoch = s.epoch ∧ (State.setFrame s k f).pat = s.pat ∧ (State.setFrame s k f).isl = s.isl ∧
    (State.setFrame s k f).routes = s.routes ∧ (State.setFrame s k f).dramMargin = s.dramMargin ∧ (State.setFrame s k f).ports = s.ports ∧
    (State.setFrame s k f).trickle = s.trickle ∧ (State.setFrame s k f).cmd = s.cmd ∧ (State.setFrame s k f).zon = s.zon ∧
    (State.setFrame s k f).med = s.med ∧ (State.setFrame s k f).mlf = s.mlf ∧ (State.setFrame s k f).cpx = s.cpx ∧
    (State.setFrame s k f).wvf = s.wvf ∧ (State.setFrame s k f).sli = s.sli ∧ (State.setFrame s k f).sec = s.sec ∧
    (State.setFrame s k f).mic = s.mic ∧ (State.setFrame s k f).flt = s.flt ∧ (State.setFrame s k f).ctrs = s.ctrs ∧
    (State.setFrame s k f).grps = s.grps ∧ (State.setFrame s k f).pwr = s.pwr ∧ (State.setFrame s k f).thm = s.thm ∧
    (State.setFrame s k f).age = s.age ∧ (State.setFrame s k f).cnv = s.cnv ∧ (State.setFrame s k f).fwu = s.fwu ∧
    (State.setFrame s k f).glb = s.glb ∧ (State.setFrame s k f).sb = s.sb := by
  simp [State.setFrame]
theorem State.holdFrame_still (s : State) (c f unit slice : Nat) :
    (State.holdFrame s c f unit slice).2.pending = s.pending ∧ (State.holdFrame s c f unit slice).2.free = s.free ∧
    (State.holdFrame s c f unit slice).2.host = s.host ∧ (State.holdFrame s c f unit slice).2.epoch = s.epoch ∧
    (State.holdFrame s c f unit slice).2.pat = s.pat ∧ (State.holdFrame s c f unit slice).2.isl = s.isl ∧
    (State.holdFrame s c f unit slice).2.routes = s.routes ∧ (State.holdFrame s c f unit slice).2.dramMargin = s.dramMargin ∧
    (State.holdFrame s c f unit slice).2.ports = s.ports ∧ (State.holdFrame s c f unit slice).2.trickle = s.trickle ∧
    (State.holdFrame s c f unit slice).2.cmd = s.cmd ∧ (State.holdFrame s c f unit slice).2.zon = s.zon ∧
    (State.holdFrame s c f unit slice).2.med = s.med ∧ (State.holdFrame s c f unit slice).2.mlf = s.mlf ∧
    (State.holdFrame s c f unit slice).2.cpx = s.cpx ∧ (State.holdFrame s c f unit slice).2.wvf = s.wvf ∧
    (State.holdFrame s c f unit slice).2.sli = s.sli ∧ (State.holdFrame s c f unit slice).2.sec = s.sec ∧
    (State.holdFrame s c f unit slice).2.mic = s.mic ∧ (State.holdFrame s c f unit slice).2.flt = s.flt ∧
    (State.holdFrame s c f unit slice).2.ctrs = s.ctrs ∧ (State.holdFrame s c f unit slice).2.grps = s.grps ∧
    (State.holdFrame s c f unit slice).2.pwr = s.pwr ∧ (State.holdFrame s c f unit slice).2.thm = s.thm ∧
    (State.holdFrame s c f unit slice).2.age = s.age ∧ (State.holdFrame s c f unit slice).2.cnv = s.cnv ∧
    (State.holdFrame s c f unit slice).2.fwu = s.fwu ∧ (State.holdFrame s c f unit slice).2.glb = s.glb ∧
    (State.holdFrame s c f unit slice).2.sb = s.sb := by
  have w1 := @State.setFrame_still
  simp [State.holdFrame, w1]
theorem State.takeFrame_still (s : State) (c : Nat) (unit slice : Nat) {r : Nat × State} (e : State.takeFrame s c unit slice = some r) :
    r.2.pending = s.pending ∧ r.2.free = s.free ∧ r.2.host = s.host ∧ r.2.epoch = s.epoch ∧ r.2.pat = s.pat ∧ r.2.isl = s.isl ∧
    r.2.routes = s.routes ∧ r.2.dramMargin = s.dramMargin ∧ r.2.ports = s.ports ∧ r.2.trickle = s.trickle ∧ r.2.cmd = s.cmd ∧
    r.2.zon = s.zon ∧ r.2.med = s.med ∧ r.2.mlf = s.mlf ∧ r.2.cpx = s.cpx ∧ r.2.wvf = s.wvf ∧ r.2.sli = s.sli ∧ r.2.sec = s.sec ∧
    r.2.mic = s.mic ∧ r.2.flt = s.flt ∧ r.2.ctrs = s.ctrs ∧ r.2.grps = s.grps ∧ r.2.pwr = s.pwr ∧ r.2.thm = s.thm ∧ r.2.age = s.age ∧
    r.2.cnv = s.cnv ∧ r.2.fwu = s.fwu ∧ r.2.glb = s.glb ∧ r.2.sb = s.sb := by
  have w1 := @State.setPool_still; have w2 := @State.holdFrame_still
  unfold State.takeFrame at e; dsimp only at e; repeat' split at e
  all_goals first | (cases e; done) | (cases e; simp_all; done)
theorem State.allocFrame_still (s : State) (c unit slice : Nat) (first : Bool) {r : Nat × State} (e : State.allocFrame s c unit slice first = some r) :
    r.2.pending = s.pending ∧ r.2.free = s.free ∧ r.2.host = s.host ∧ r.2.epoch = s.epoch ∧ r.2.pat = s.pat ∧ r.2.isl = s.isl ∧
    r.2.routes = s.routes ∧ r.2.dramMargin = s.dramMargin ∧ r.2.ports = s.ports ∧ r.2.trickle = s.trickle ∧ r.2.cmd = s.cmd ∧
    r.2.zon = s.zon ∧ r.2.med = s.med ∧ r.2.mlf = s.mlf ∧ r.2.cpx = s.cpx ∧ r.2.wvf = s.wvf ∧ r.2.sli = s.sli ∧ r.2.sec = s.sec ∧
    r.2.mic = s.mic ∧ r.2.flt = s.flt ∧ r.2.ctrs = s.ctrs ∧ r.2.grps = s.grps ∧ r.2.pwr = s.pwr ∧ r.2.thm = s.thm ∧ r.2.age = s.age ∧
    r.2.cnv = s.cnv ∧ r.2.fwu = s.fwu ∧ r.2.glb = s.glb ∧ r.2.sb = s.sb := by
  have w1 := @State.bpmCnt_still; have w2 := @State.holdFrame_still
  unfold State.allocFrame at e; split at e
  · cases e; simp [w1, w2]
  · split at e
    · cases e
    · split at e
      · cases e
      · rename_i h t q; have k := State.takeFrame_still _ _ _ _ q; cases e; split <;> simp_all
theorem State.allocFrames_still (s : State) (c unit slice : Nat) (l0 : Nat) {r : List Nat × State} (e : State.allocFrames s c unit slice l0 = some r) :
    r.2.pending = s.pending ∧ r.2.free = s.free ∧ r.2.host = s.host ∧ r.2.epoch = s.epoch ∧ r.2.pat = s.pat ∧ r.2.isl = s.isl ∧
    r.2.routes = s.routes ∧ r.2.dramMargin = s.dramMargin ∧ r.2.ports = s.ports ∧ r.2.trickle = s.trickle ∧ r.2.cmd = s.cmd ∧
    r.2.zon = s.zon ∧ r.2.med = s.med ∧ r.2.mlf = s.mlf ∧ r.2.cpx = s.cpx ∧ r.2.wvf = s.wvf ∧ r.2.sli = s.sli ∧ r.2.sec = s.sec ∧
    r.2.mic = s.mic ∧ r.2.flt = s.flt ∧ r.2.ctrs = s.ctrs ∧ r.2.grps = s.grps ∧ r.2.pwr = s.pwr ∧ r.2.thm = s.thm ∧ r.2.age = s.age ∧
    r.2.cnv = s.cnv ∧ r.2.fwu = s.fwu ∧ r.2.glb = s.glb ∧ r.2.sb = s.sb := by
  induction l0 generalizing s r with
  | zero => cases e; simp
  | succ n ih =>
    unfold State.allocFrames at e; split at e
    · cases e
    · rename_i h t q; have k := State.allocFrame_still _ _ _ _ _ q; split at e
      · cases e
      · rename_i l u q2; have k2 := ih _ q2; cases e; simp_all
theorem State.countRetired_still (s : State) (k : Nat) :
    (State.countRetired s k).pending = s.pending ∧ (State.countRetired s k).free = s.free ∧ (State.countRetired s k).host = s.host ∧
    (State.countRetired s k).epoch = s.epoch ∧ (State.countRetired s k).pat = s.pat ∧ (State.countRetired s k).isl = s.isl ∧
    (State.countRetired s k).routes = s.routes ∧ (State.countRetired s k).dramMargin = s.dramMargin ∧
    (State.countRetired s k).ports = s.ports ∧ (State.countRetired s k).trickle = s.trickle ∧ (State.countRetired s k).cmd = s.cmd ∧
    (State.countRetired s k).zon = s.zon ∧ (State.countRetired s k).med = s.med ∧ (State.countRetired s k).mlf = s.mlf ∧
    (State.countRetired s k).cpx = s.cpx ∧ (State.countRetired s k).wvf = s.wvf ∧ (State.countRetired s k).sli = s.sli ∧
    (State.countRetired s k).sec = s.sec ∧ (State.countRetired s k).ctrs = s.ctrs ∧ (State.countRetired s k).grps = s.grps ∧
    (State.countRetired s k).pwr = s.pwr ∧ (State.countRetired s k).thm = s.thm ∧ (State.countRetired s k).age = s.age ∧
    (State.countRetired s k).cnv = s.cnv ∧ (State.countRetired s k).fwu = s.fwu ∧ (State.countRetired s k).glb = s.glb ∧
    (State.countRetired s k).sb = s.sb := by
  have w1 := @State.setPool_still; have w2 := @State.bpmCnt_still; have w3 := @State.setMem_still
  have w4 := @State.queueFault_still; have wi := @ite_parts
  simp [State.countRetired, w1, w2, w3, w4, wi]
theorem State.frameBack_still (s : State) (k : Nat) :
    (State.frameBack s k).pending = s.pending ∧ (State.frameBack s k).free = s.free ∧ (State.frameBack s k).host = s.host ∧
    (State.frameBack s k).epoch = s.epoch ∧ (State.frameBack s k).pat = s.pat ∧ (State.frameBack s k).isl = s.isl ∧
    (State.frameBack s k).routes = s.routes ∧ (State.frameBack s k).dramMargin = s.dramMargin ∧ (State.frameBack s k).ports = s.ports ∧
    (State.frameBack s k).trickle = s.trickle ∧ (State.frameBack s k).cmd = s.cmd ∧ (State.frameBack s k).zon = s.zon ∧
    (State.frameBack s k).med = s.med ∧ (State.frameBack s k).mlf = s.mlf ∧ (State.frameBack s k).cpx = s.cpx ∧
    (State.frameBack s k).wvf = s.wvf ∧ (State.frameBack s k).sli = s.sli ∧ (State.frameBack s k).sec = s.sec ∧
    (State.frameBack s k).ctrs = s.ctrs ∧ (State.frameBack s k).grps = s.grps ∧ (State.frameBack s k).pwr = s.pwr ∧
    (State.frameBack s k).thm = s.thm ∧ (State.frameBack s k).age = s.age ∧ (State.frameBack s k).cnv = s.cnv ∧
    (State.frameBack s k).fwu = s.fwu ∧ (State.frameBack s k).glb = s.glb ∧ (State.frameBack s k).sb = s.sb := by
  have w1 := @State.setFrame_still; have w2 := @State.countRetired_still; have w3 := @State.setPool_still; have wi := @ite_parts
  simp [State.frameBack, w1, w2, w3, wi]
theorem State.serveStall_still (s : State) :
    (State.serveStall s).pending = s.pending ∧ (State.serveStall s).free = s.free ∧ (State.serveStall s).host = s.host ∧
    (State.serveStall s).epoch = s.epoch ∧ (State.serveStall s).pat = s.pat ∧ (State.serveStall s).isl = s.isl ∧
    (State.serveStall s).routes = s.routes ∧ (State.serveStall s).dramMargin = s.dramMargin ∧ (State.serveStall s).ports = s.ports ∧
    (State.serveStall s).trickle = s.trickle ∧ (State.serveStall s).zon = s.zon ∧ (State.serveStall s).med = s.med ∧
    (State.serveStall s).mlf = s.mlf ∧ (State.serveStall s).wvf = s.wvf ∧ (State.serveStall s).sli = s.sli ∧
    (State.serveStall s).sec = s.sec ∧ (State.serveStall s).mic = s.mic ∧ (State.serveStall s).flt = s.flt ∧
    (State.serveStall s).ctrs = s.ctrs ∧ (State.serveStall s).grps = s.grps ∧ (State.serveStall s).pwr = s.pwr ∧
    (State.serveStall s).thm = s.thm ∧ (State.serveStall s).age = s.age ∧ (State.serveStall s).cnv = s.cnv ∧
    (State.serveStall s).fwu = s.fwu ∧ (State.serveStall s).glb = s.glb ∧ (State.serveStall s).sb = s.sb := by
  have w1 := @State.modCtx_still; have w2 := @State.modJob_still; have wi := @ite_parts
  unfold State.serveStall; split
  · simp
  · split
    · simp
    · rename_i q; have k := State.allocFrame_still _ _ _ _ _ q; dsimp only at k ⊢; split <;> simp [w1, w2, wi, k]
theorem State.stallFrame_still (s : State) (cls unit slice : Nat) (who : PoolAsker) :
    (State.stallFrame s cls unit slice who).pending = s.pending ∧ (State.stallFrame s cls unit slice who).free = s.free ∧
    (State.stallFrame s cls unit slice who).host = s.host ∧ (State.stallFrame s cls unit slice who).epoch = s.epoch ∧
    (State.stallFrame s cls unit slice who).pat = s.pat ∧ (State.stallFrame s cls unit slice who).isl = s.isl ∧
    (State.stallFrame s cls unit slice who).routes = s.routes ∧ (State.stallFrame s cls unit slice who).dramMargin = s.dramMargin ∧
    (State.stallFrame s cls unit slice who).ports = s.ports ∧ (State.stallFrame s cls unit slice who).trickle = s.trickle ∧
    (State.stallFrame s cls unit slice who).zon = s.zon ∧ (State.stallFrame s cls unit slice who).med = s.med ∧
    (State.stallFrame s cls unit slice who).mlf = s.mlf ∧ (State.stallFrame s cls unit slice who).wvf = s.wvf ∧
    (State.stallFrame s cls unit slice who).sli = s.sli ∧ (State.stallFrame s cls unit slice who).sec = s.sec ∧
    (State.stallFrame s cls unit slice who).mic = s.mic ∧ (State.stallFrame s cls unit slice who).flt = s.flt ∧
    (State.stallFrame s cls unit slice who).ctrs = s.ctrs ∧ (State.stallFrame s cls unit slice who).grps = s.grps ∧
    (State.stallFrame s cls unit slice who).pwr = s.pwr ∧ (State.stallFrame s cls unit slice who).thm = s.thm ∧
    (State.stallFrame s cls unit slice who).age = s.age ∧ (State.stallFrame s cls unit slice who).cnv = s.cnv ∧
    (State.stallFrame s cls unit slice who).fwu = s.fwu ∧ (State.stallFrame s cls unit slice who).glb = s.glb ∧
    (State.stallFrame s cls unit slice who).sb = s.sb := by
  have w1 := @State.modCtx_still; have w2 := @State.bpmCnt_still; have w3 := @State.serveStall_still; have wi := @ite_parts
  unfold State.stallFrame; repeat' split
  all_goals simp [*]
theorem State.freeFrame_still (s : State) (h unit : Nat) :
    (State.freeFrame s h unit).pending = s.pending ∧ (State.freeFrame s h unit).free = s.free ∧ (State.freeFrame s h unit).host = s.host ∧
    (State.freeFrame s h unit).epoch = s.epoch ∧ (State.freeFrame s h unit).pat = s.pat ∧ (State.freeFrame s h unit).isl = s.isl ∧
    (State.freeFrame s h unit).routes = s.routes ∧ (State.freeFrame s h unit).dramMargin = s.dramMargin ∧
    (State.freeFrame s h unit).ports = s.ports ∧ (State.freeFrame s h unit).trickle = s.trickle ∧ (State.freeFrame s h unit).zon = s.zon ∧
    (State.freeFrame s h unit).med = s.med ∧ (State.freeFrame s h unit).mlf = s.mlf ∧ (State.freeFrame s h unit).wvf = s.wvf ∧
    (State.freeFrame s h unit).sli = s.sli ∧ (State.freeFrame s h unit).sec = s.sec ∧ (State.freeFrame s h unit).ctrs = s.ctrs ∧
    (State.freeFrame s h unit).grps = s.grps ∧ (State.freeFrame s h unit).pwr = s.pwr ∧ (State.freeFrame s h unit).thm = s.thm ∧
    (State.freeFrame s h unit).age = s.age ∧ (State.freeFrame s h unit).cnv = s.cnv ∧ (State.freeFrame s h unit).fwu = s.fwu ∧
    (State.freeFrame s h unit).glb = s.glb ∧ (State.freeFrame s h unit).sb = s.sb := by
  have w1 := @State.bpmCnt_still; have w2 := @State.frameBack_still; have w3 := @State.serveStall_still
  have w4 := @State.queueFault_still; have w5 := @State.setFrame_still; have wi := @ite_parts
  simp [State.freeFrame, w1, w2, w3, w4, w5, wi]
theorem State.freeAll_still (s : State) (l : List Nat) :
    (State.freeAll s l).pending = s.pending ∧ (State.freeAll s l).free = s.free ∧ (State.freeAll s l).host = s.host ∧
    (State.freeAll s l).epoch = s.epoch ∧ (State.freeAll s l).pat = s.pat ∧ (State.freeAll s l).isl = s.isl ∧
    (State.freeAll s l).routes = s.routes ∧ (State.freeAll s l).dramMargin = s.dramMargin ∧ (State.freeAll s l).ports = s.ports ∧
    (State.freeAll s l).trickle = s.trickle ∧ (State.freeAll s l).zon = s.zon ∧ (State.freeAll s l).med = s.med ∧
    (State.freeAll s l).mlf = s.mlf ∧ (State.freeAll s l).wvf = s.wvf ∧ (State.freeAll s l).sli = s.sli ∧ (State.freeAll s l).sec = s.sec ∧
    (State.freeAll s l).ctrs = s.ctrs ∧ (State.freeAll s l).grps = s.grps ∧ (State.freeAll s l).pwr = s.pwr ∧
    (State.freeAll s l).thm = s.thm ∧ (State.freeAll s l).age = s.age ∧ (State.freeAll s l).cnv = s.cnv ∧ (State.freeAll s l).fwu = s.fwu ∧
    (State.freeAll s l).glb = s.glb ∧ (State.freeAll s l).sb = s.sb := by
  have w1 := @State.frameBack_still; have w2 := @State.serveStall_still; have wf := @foldl_parts; have wp := @foldl_snd_parts
  have wi := @ite_parts
  unfold State.freeAll
  simp [*]
theorem State.freeOwned_still (s : State) (p : Nat → Bool) :
    (State.freeOwned s p).pending = s.pending ∧ (State.freeOwned s p).free = s.free ∧ (State.freeOwned s p).host = s.host ∧
    (State.freeOwned s p).epoch = s.epoch ∧ (State.freeOwned s p).pat = s.pat ∧ (State.freeOwned s p).isl = s.isl ∧
    (State.freeOwned s p).routes = s.routes ∧ (State.freeOwned s p).dramMargin = s.dramMargin ∧ (State.freeOwned s p).ports = s.ports ∧
    (State.freeOwned s p).trickle = s.trickle ∧ (State.freeOwned s p).zon = s.zon ∧ (State.freeOwned s p).med = s.med ∧
    (State.freeOwned s p).mlf = s.mlf ∧ (State.freeOwned s p).wvf = s.wvf ∧ (State.freeOwned s p).sli = s.sli ∧
    (State.freeOwned s p).sec = s.sec ∧ (State.freeOwned s p).ctrs = s.ctrs ∧ (State.freeOwned s p).grps = s.grps ∧
    (State.freeOwned s p).pwr = s.pwr ∧ (State.freeOwned s p).thm = s.thm ∧ (State.freeOwned s p).age = s.age ∧
    (State.freeOwned s p).cnv = s.cnv ∧ (State.freeOwned s p).fwu = s.fwu ∧ (State.freeOwned s p).glb = s.glb ∧
    (State.freeOwned s p).sb = s.sb := by
  have w1 := @State.frameBack_still; have w2 := @State.serveStall_still; have wf := @foldl_parts
  simp [State.freeOwned, w1, w2, wf]
theorem State.takeStage_still (s : State) (c : Nat) (w : Nat) :
    (State.takeStage s c w).pending = s.pending ∧ (State.takeStage s c w).free = s.free ∧ (State.takeStage s c w).host = s.host ∧
    (State.takeStage s c w).epoch = s.epoch ∧ (State.takeStage s c w).pat = s.pat ∧ (State.takeStage s c w).isl = s.isl ∧
    (State.takeStage s c w).routes = s.routes ∧ (State.takeStage s c w).dramMargin = s.dramMargin ∧
    (State.takeStage s c w).ports = s.ports ∧ (State.takeStage s c w).trickle = s.trickle ∧ (State.takeStage s c w).cmd = s.cmd ∧
    (State.takeStage s c w).zon = s.zon ∧ (State.takeStage s c w).med = s.med ∧ (State.takeStage s c w).mlf = s.mlf ∧
    (State.takeStage s c w).bpm = s.bpm ∧ (State.takeStage s c w).sli = s.sli ∧ (State.takeStage s c w).sec = s.sec ∧
    (State.takeStage s c w).mic = s.mic ∧ (State.takeStage s c w).flt = s.flt ∧ (State.takeStage s c w).ctrs = s.ctrs ∧
    (State.takeStage s c w).grps = s.grps ∧ (State.takeStage s c w).pwr = s.pwr ∧ (State.takeStage s c w).thm = s.thm ∧
    (State.takeStage s c w).age = s.age ∧ (State.takeStage s c w).cnv = s.cnv ∧ (State.takeStage s c w).fwu = s.fwu ∧
    (State.takeStage s c w).glb = s.glb ∧ (State.takeStage s c w).sb = s.sb := by
  have wi := @ite_parts
  simp [State.takeStage, wi]
theorem State.takeEngines_still (s : State) (c : Nat) :
    (State.takeEngines s c).pending = s.pending ∧ (State.takeEngines s c).free = s.free ∧ (State.takeEngines s c).host = s.host ∧
    (State.takeEngines s c).epoch = s.epoch ∧ (State.takeEngines s c).pat = s.pat ∧ (State.takeEngines s c).isl = s.isl ∧
    (State.takeEngines s c).routes = s.routes ∧ (State.takeEngines s c).dramMargin = s.dramMargin ∧
    (State.takeEngines s c).ports = s.ports ∧ (State.takeEngines s c).trickle = s.trickle ∧ (State.takeEngines s c).cmd = s.cmd ∧
    (State.takeEngines s c).zon = s.zon ∧ (State.takeEngines s c).med = s.med ∧ (State.takeEngines s c).mlf = s.mlf ∧
    (State.takeEngines s c).bpm = s.bpm ∧ (State.takeEngines s c).sli = s.sli ∧ (State.takeEngines s c).sec = s.sec ∧
    (State.takeEngines s c).mic = s.mic ∧ (State.takeEngines s c).flt = s.flt ∧ (State.takeEngines s c).ctrs = s.ctrs ∧
    (State.takeEngines s c).grps = s.grps ∧ (State.takeEngines s c).pwr = s.pwr ∧ (State.takeEngines s c).thm = s.thm ∧
    (State.takeEngines s c).age = s.age ∧ (State.takeEngines s c).cnv = s.cnv ∧ (State.takeEngines s c).fwu = s.fwu ∧
    (State.takeEngines s c).glb = s.glb ∧ (State.takeEngines s c).sb = s.sb := by
  have w1 := @State.takeStage_still; have wf := @foldl_parts; have wi := @ite_parts
  simp [State.takeEngines, w1, wf, wi]
theorem freeBytesAt_still (l : List Nat) (m : Tbl Byte) (s : State) : 
    (freeBytesAt l m s).2.pending = s.pending ∧ (freeBytesAt l m s).2.host = s.host ∧ (freeBytesAt l m s).2.epoch = s.epoch ∧
    (freeBytesAt l m s).2.pat = s.pat ∧ (freeBytesAt l m s).2.isl = s.isl ∧ (freeBytesAt l m s).2.routes = s.routes ∧
    (freeBytesAt l m s).2.dramMargin = s.dramMargin ∧ (freeBytesAt l m s).2.ports = s.ports ∧ (freeBytesAt l m s).2.trickle = s.trickle ∧
    (freeBytesAt l m s).2.cmd = s.cmd ∧ (freeBytesAt l m s).2.zon = s.zon ∧ (freeBytesAt l m s).2.med = s.med ∧
    (freeBytesAt l m s).2.mlf = s.mlf ∧ (freeBytesAt l m s).2.cpx = s.cpx ∧ (freeBytesAt l m s).2.wvf = s.wvf ∧
    (freeBytesAt l m s).2.bpm = s.bpm ∧ (freeBytesAt l m s).2.sli = s.sli ∧ (freeBytesAt l m s).2.sec = s.sec ∧
    (freeBytesAt l m s).2.mic = s.mic ∧ (freeBytesAt l m s).2.flt = s.flt ∧ (freeBytesAt l m s).2.ctrs = s.ctrs ∧
    (freeBytesAt l m s).2.grps = s.grps ∧ (freeBytesAt l m s).2.pwr = s.pwr ∧ (freeBytesAt l m s).2.thm = s.thm ∧
    (freeBytesAt l m s).2.age = s.age ∧ (freeBytesAt l m s).2.cnv = s.cnv ∧ (freeBytesAt l m s).2.fwu = s.fwu ∧
    (freeBytesAt l m s).2.glb = s.glb ∧ (freeBytesAt l m s).2.sb = s.sb := by
  have w1 := @State.drawn_still
  induction l generalizing m s with
  | nil => simp [freeBytesAt, *]
  | cons a t ih => simp [freeBytesAt, *]
theorem State.havocMem_still (s : State) (sl h : Nat) (os : List Nat) :
    (State.havocMem s sl h os).pending = s.pending ∧ (State.havocMem s sl h os).host = s.host ∧
    (State.havocMem s sl h os).epoch = s.epoch ∧ (State.havocMem s sl h os).pat = s.pat ∧ (State.havocMem s sl h os).isl = s.isl ∧
    (State.havocMem s sl h os).routes = s.routes ∧ (State.havocMem s sl h os).dramMargin = s.dramMargin ∧
    (State.havocMem s sl h os).ports = s.ports ∧ (State.havocMem s sl h os).trickle = s.trickle ∧ (State.havocMem s sl h os).cmd = s.cmd ∧
    (State.havocMem s sl h os).zon = s.zon ∧ (State.havocMem s sl h os).med = s.med ∧ (State.havocMem s sl h os).mlf = s.mlf ∧
    (State.havocMem s sl h os).wvf = s.wvf ∧ (State.havocMem s sl h os).bpm = s.bpm ∧ (State.havocMem s sl h os).sli = s.sli ∧
    (State.havocMem s sl h os).sec = s.sec ∧ (State.havocMem s sl h os).mic = s.mic ∧ (State.havocMem s sl h os).flt = s.flt ∧
    (State.havocMem s sl h os).ctrs = s.ctrs ∧ (State.havocMem s sl h os).grps = s.grps ∧ (State.havocMem s sl h os).pwr = s.pwr ∧
    (State.havocMem s sl h os).thm = s.thm ∧ (State.havocMem s sl h os).age = s.age ∧ (State.havocMem s sl h os).cnv = s.cnv ∧
    (State.havocMem s sl h os).fwu = s.fwu ∧ (State.havocMem s sl h os).glb = s.glb ∧ (State.havocMem s sl h os).sb = s.sb := by
  have w1 := @State.setAlloc_still; have w2 := @freeBytesAt_still
  unfold State.havocMem; repeat' split
  all_goals simp [*]
theorem State.havocRanges_still (s : State) (sl : Nat) (l : List (Nat × Nat × Nat)) :
    (State.havocRanges s sl l).pending = s.pending ∧ (State.havocRanges s sl l).host = s.host ∧
    (State.havocRanges s sl l).epoch = s.epoch ∧ (State.havocRanges s sl l).pat = s.pat ∧ (State.havocRanges s sl l).isl = s.isl ∧
    (State.havocRanges s sl l).routes = s.routes ∧ (State.havocRanges s sl l).dramMargin = s.dramMargin ∧
    (State.havocRanges s sl l).ports = s.ports ∧ (State.havocRanges s sl l).trickle = s.trickle ∧ (State.havocRanges s sl l).cmd = s.cmd ∧
    (State.havocRanges s sl l).zon = s.zon ∧ (State.havocRanges s sl l).med = s.med ∧ (State.havocRanges s sl l).mlf = s.mlf ∧
    (State.havocRanges s sl l).wvf = s.wvf ∧ (State.havocRanges s sl l).bpm = s.bpm ∧ (State.havocRanges s sl l).sli = s.sli ∧
    (State.havocRanges s sl l).sec = s.sec ∧ (State.havocRanges s sl l).mic = s.mic ∧ (State.havocRanges s sl l).flt = s.flt ∧
    (State.havocRanges s sl l).ctrs = s.ctrs ∧ (State.havocRanges s sl l).grps = s.grps ∧ (State.havocRanges s sl l).pwr = s.pwr ∧
    (State.havocRanges s sl l).thm = s.thm ∧ (State.havocRanges s sl l).age = s.age ∧ (State.havocRanges s sl l).cnv = s.cnv ∧
    (State.havocRanges s sl l).fwu = s.fwu ∧ (State.havocRanges s sl l).glb = s.glb ∧ (State.havocRanges s sl l).sb = s.sb := by
  have w1 := @State.havocMem_still; have wf := @foldl_parts
  simp [State.havocRanges, w1, wf]
theorem State.releaseJob_still (s : State) (c : Nat) :
    (State.releaseJob s c).pending = s.pending ∧ (State.releaseJob s c).free = s.free ∧ (State.releaseJob s c).host = s.host ∧
    (State.releaseJob s c).epoch = s.epoch ∧ (State.releaseJob s c).pat = s.pat ∧ (State.releaseJob s c).isl = s.isl ∧
    (State.releaseJob s c).routes = s.routes ∧ (State.releaseJob s c).dramMargin = s.dramMargin ∧ (State.releaseJob s c).ports = s.ports ∧
    (State.releaseJob s c).trickle = s.trickle ∧ (State.releaseJob s c).zon = s.zon ∧ (State.releaseJob s c).med = s.med ∧
    (State.releaseJob s c).mlf = s.mlf ∧ (State.releaseJob s c).sli = s.sli ∧ (State.releaseJob s c).sec = s.sec ∧
    (State.releaseJob s c).ctrs = s.ctrs ∧ (State.releaseJob s c).grps = s.grps ∧ (State.releaseJob s c).pwr = s.pwr ∧
    (State.releaseJob s c).thm = s.thm ∧ (State.releaseJob s c).age = s.age ∧ (State.releaseJob s c).cnv = s.cnv ∧
    (State.releaseJob s c).fwu = s.fwu ∧ (State.releaseJob s c).glb = s.glb ∧ (State.releaseJob s c).sb = s.sb := by
  have w1 := @State.freeAll_still; have w2 := @State.freeOwned_still; have wi := @ite_parts
  unfold State.releaseJob; repeat' split
  all_goals simp [*]
theorem State.havocJob_still (s : State) (c : Nat) :
    (State.havocJob s c).pending = s.pending ∧ (State.havocJob s c).host = s.host ∧ (State.havocJob s c).epoch = s.epoch ∧
    (State.havocJob s c).pat = s.pat ∧ (State.havocJob s c).isl = s.isl ∧ (State.havocJob s c).routes = s.routes ∧
    (State.havocJob s c).dramMargin = s.dramMargin ∧ (State.havocJob s c).ports = s.ports ∧ (State.havocJob s c).trickle = s.trickle ∧
    (State.havocJob s c).cmd = s.cmd ∧ (State.havocJob s c).zon = s.zon ∧ (State.havocJob s c).med = s.med ∧
    (State.havocJob s c).mlf = s.mlf ∧ (State.havocJob s c).wvf = s.wvf ∧ (State.havocJob s c).bpm = s.bpm ∧
    (State.havocJob s c).sli = s.sli ∧ (State.havocJob s c).sec = s.sec ∧ (State.havocJob s c).mic = s.mic ∧
    (State.havocJob s c).flt = s.flt ∧ (State.havocJob s c).ctrs = s.ctrs ∧ (State.havocJob s c).grps = s.grps ∧
    (State.havocJob s c).pwr = s.pwr ∧ (State.havocJob s c).thm = s.thm ∧ (State.havocJob s c).age = s.age ∧
    (State.havocJob s c).cnv = s.cnv ∧ (State.havocJob s c).fwu = s.fwu ∧ (State.havocJob s c).glb = s.glb ∧ (State.havocJob s c).sb = s.sb := by
  have w1 := @State.havocMem_still; have wi := @ite_parts
  simp [State.havocJob, w1, wi]

end Sys2Proof.Machine
end

