-- ==== Sys2Proof/Laws/FramePipe.lean ====
section
/-! SUPPORT. What the operations on contexts, the code array, die life, jobs and the command pipeline leave unchanged: one lemma per operation, which names every part of the state that it keeps. -/

namespace Sys2Proof.Machine

theorem State.bumpGen_still (s : State) (e : Nat) :
    (State.bumpGen s e).pending = s.pending ∧ (State.bumpGen s e).free = s.free ∧ (State.bumpGen s e).host = s.host ∧
    (State.bumpGen s e).epoch = s.epoch ∧ (State.bumpGen s e).pat = s.pat ∧ (State.bumpGen s e).isl = s.isl ∧
    (State.bumpGen s e).routes = s.routes ∧ (State.bumpGen s e).dramMargin = s.dramMargin ∧ (State.bumpGen s e).ports = s.ports ∧
    (State.bumpGen s e).trickle = s.trickle ∧ (State.bumpGen s e).cmd = s.cmd ∧ (State.bumpGen s e).med = s.med ∧
    (State.bumpGen s e).mlf = s.mlf ∧ (State.bumpGen s e).cpx = s.cpx ∧ (State.bumpGen s e).wvf = s.wvf ∧ (State.bumpGen s e).bpm = s.bpm ∧
    (State.bumpGen s e).sli = s.sli ∧ (State.bumpGen s e).sec = s.sec ∧ (State.bumpGen s e).mic = s.mic ∧ (State.bumpGen s e).flt = s.flt ∧
    (State.bumpGen s e).ctrs = s.ctrs ∧ (State.bumpGen s e).grps = s.grps ∧ (State.bumpGen s e).pwr = s.pwr ∧
    (State.bumpGen s e).thm = s.thm ∧ (State.bumpGen s e).age = s.age ∧ (State.bumpGen s e).cnv = s.cnv ∧ (State.bumpGen s e).fwu = s.fwu ∧
    (State.bumpGen s e).glb = s.glb ∧ (State.bumpGen s e).sb = s.sb := by
  have w1 := @State.modZent_still
  simp [State.bumpGen, w1]
theorem State.rebuildProj_still (s : State) (e f : Nat) :
    (State.rebuildProj s e f).pending = s.pending ∧ (State.rebuildProj s e f).free = s.free ∧ (State.rebuildProj s e f).host = s.host ∧
    (State.rebuildProj s e f).epoch = s.epoch ∧ (State.rebuildProj s e f).pat = s.pat ∧ (State.rebuildProj s e f).isl = s.isl ∧
    (State.rebuildProj s e f).routes = s.routes ∧ (State.rebuildProj s e f).dramMargin = s.dramMargin ∧
    (State.rebuildProj s e f).ports = s.ports ∧ (State.rebuildProj s e f).trickle = s.trickle ∧ (State.rebuildProj s e f).cmd = s.cmd ∧
    (State.rebuildProj s e f).med = s.med ∧ (State.rebuildProj s e f).mlf = s.mlf ∧ (State.rebuildProj s e f).cpx = s.cpx ∧
    (State.rebuildProj s e f).wvf = s.wvf ∧ (State.rebuildProj s e f).bpm = s.bpm ∧ (State.rebuildProj s e f).sli = s.sli ∧
    (State.rebuildProj s e f).sec = s.sec ∧ (State.rebuildProj s e f).mic = s.mic ∧ (State.rebuildProj s e f).flt = s.flt ∧
    (State.rebuildProj s e f).ctrs = s.ctrs ∧ (State.rebuildProj s e f).grps = s.grps ∧ (State.rebuildProj s e f).pwr = s.pwr ∧
    (State.rebuildProj s e f).thm = s.thm ∧ (State.rebuildProj s e f).age = s.age ∧ (State.rebuildProj s e f).cnv = s.cnv ∧
    (State.rebuildProj s e f).fwu = s.fwu ∧ (State.rebuildProj s e f).glb = s.glb ∧ (State.rebuildProj s e f).sb = s.sb := by
  have w1 := @State.setProj_still
  simp [State.rebuildProj, w1]
theorem State.reproject_still (s : State) (e : Nat) :
    (State.reproject s e).pending = s.pending ∧ (State.reproject s e).free = s.free ∧ (State.reproject s e).host = s.host ∧
    (State.reproject s e).epoch = s.epoch ∧ (State.reproject s e).pat = s.pat ∧ (State.reproject s e).isl = s.isl ∧
    (State.reproject s e).routes = s.routes ∧ (State.reproject s e).dramMargin = s.dramMargin ∧ (State.reproject s e).ports = s.ports ∧
    (State.reproject s e).trickle = s.trickle ∧ (State.reproject s e).cmd = s.cmd ∧ (State.reproject s e).med = s.med ∧
    (State.reproject s e).mlf = s.mlf ∧ (State.reproject s e).cpx = s.cpx ∧ (State.reproject s e).wvf = s.wvf ∧
    (State.reproject s e).bpm = s.bpm ∧ (State.reproject s e).sli = s.sli ∧ (State.reproject s e).sec = s.sec ∧
    (State.reproject s e).mic = s.mic ∧ (State.reproject s e).flt = s.flt ∧ (State.reproject s e).ctrs = s.ctrs ∧
    (State.reproject s e).grps = s.grps ∧ (State.reproject s e).pwr = s.pwr ∧ (State.reproject s e).thm = s.thm ∧
    (State.reproject s e).age = s.age ∧ (State.reproject s e).cnv = s.cnv ∧ (State.reproject s e).fwu = s.fwu ∧
    (State.reproject s e).glb = s.glb ∧ (State.reproject s e).sb = s.sb := by
  have w1 := @State.delProj_still; have w2 := @State.rebuildProj_still; have wi := @ite_parts
  simp [State.reproject, w1, w2, wi]
theorem State.refreshGen_still (s : State) (e : Nat) :
    (State.refreshGen s e).pending = s.pending ∧ (State.refreshGen s e).free = s.free ∧ (State.refreshGen s e).host = s.host ∧
    (State.refreshGen s e).epoch = s.epoch ∧ (State.refreshGen s e).pat = s.pat ∧ (State.refreshGen s e).isl = s.isl ∧
    (State.refreshGen s e).routes = s.routes ∧ (State.refreshGen s e).dramMargin = s.dramMargin ∧ (State.refreshGen s e).ports = s.ports ∧
    (State.refreshGen s e).trickle = s.trickle ∧ (State.refreshGen s e).zon = s.zon ∧ (State.refreshGen s e).med = s.med ∧
    (State.refreshGen s e).mlf = s.mlf ∧ (State.refreshGen s e).cpx = s.cpx ∧ (State.refreshGen s e).wvf = s.wvf ∧
    (State.refreshGen s e).bpm = s.bpm ∧ (State.refreshGen s e).sli = s.sli ∧ (State.refreshGen s e).sec = s.sec ∧
    (State.refreshGen s e).mic = s.mic ∧ (State.refreshGen s e).flt = s.flt ∧ (State.refreshGen s e).ctrs = s.ctrs ∧
    (State.refreshGen s e).grps = s.grps ∧ (State.refreshGen s e).pwr = s.pwr ∧ (State.refreshGen s e).thm = s.thm ∧
    (State.refreshGen s e).age = s.age ∧ (State.refreshGen s e).cnv = s.cnv ∧ (State.refreshGen s e).fwu = s.fwu ∧
    (State.refreshGen s e).glb = s.glb ∧ (State.refreshGen s e).sb = s.sb := by
  simp [State.refreshGen]
theorem State.advanceGen_still (s : State) (e : Nat) (wait : Bool) :
    (State.advanceGen s e wait).pending = s.pending ∧ (State.advanceGen s e wait).free = s.free ∧
    (State.advanceGen s e wait).host = s.host ∧ (State.advanceGen s e wait).epoch = s.epoch ∧ (State.advanceGen s e wait).pat = s.pat ∧
    (State.advanceGen s e wait).isl = s.isl ∧ (State.advanceGen s e wait).routes = s.routes ∧
    (State.advanceGen s e wait).dramMargin = s.dramMargin ∧ (State.advanceGen s e wait).ports = s.ports ∧
    (State.advanceGen s e wait).trickle = s.trickle ∧ (State.advanceGen s e wait).cmd = s.cmd ∧ (State.advanceGen s e wait).med = s.med ∧
    (State.advanceGen s e wait).mlf = s.mlf ∧ (State.advanceGen s e wait).cpx = s.cpx ∧ (State.advanceGen s e wait).wvf = s.wvf ∧
    (State.advanceGen s e wait).bpm = s.bpm ∧ (State.advanceGen s e wait).sli = s.sli ∧ (State.advanceGen s e wait).sec = s.sec ∧
    (State.advanceGen s e wait).mic = s.mic ∧ (State.advanceGen s e wait).flt = s.flt ∧ (State.advanceGen s e wait).ctrs = s.ctrs ∧
    (State.advanceGen s e wait).grps = s.grps ∧ (State.advanceGen s e wait).pwr = s.pwr ∧ (State.advanceGen s e wait).thm = s.thm ∧
    (State.advanceGen s e wait).age = s.age ∧ (State.advanceGen s e wait).cnv = s.cnv ∧ (State.advanceGen s e wait).fwu = s.fwu ∧
    (State.advanceGen s e wait).glb = s.glb ∧ (State.advanceGen s e wait).sb = s.sb := by
  have w1 := @State.bumpGen_still; have wi := @ite_parts
  simp [State.advanceGen, w1, wi]
theorem State.catchUpGen_still (s : State) (e : Nat) :
    (State.catchUpGen s e).pending = s.pending ∧ (State.catchUpGen s e).free = s.free ∧ (State.catchUpGen s e).host = s.host ∧
    (State.catchUpGen s e).epoch = s.epoch ∧ (State.catchUpGen s e).pat = s.pat ∧ (State.catchUpGen s e).isl = s.isl ∧
    (State.catchUpGen s e).routes = s.routes ∧ (State.catchUpGen s e).dramMargin = s.dramMargin ∧ (State.catchUpGen s e).ports = s.ports ∧
    (State.catchUpGen s e).trickle = s.trickle ∧ (State.catchUpGen s e).med = s.med ∧ (State.catchUpGen s e).mlf = s.mlf ∧
    (State.catchUpGen s e).cpx = s.cpx ∧ (State.catchUpGen s e).wvf = s.wvf ∧ (State.catchUpGen s e).bpm = s.bpm ∧
    (State.catchUpGen s e).sli = s.sli ∧ (State.catchUpGen s e).sec = s.sec ∧ (State.catchUpGen s e).mic = s.mic ∧
    (State.catchUpGen s e).flt = s.flt ∧ (State.catchUpGen s e).ctrs = s.ctrs ∧ (State.catchUpGen s e).grps = s.grps ∧
    (State.catchUpGen s e).pwr = s.pwr ∧ (State.catchUpGen s e).thm = s.thm ∧ (State.catchUpGen s e).age = s.age ∧
    (State.catchUpGen s e).cnv = s.cnv ∧ (State.catchUpGen s e).fwu = s.fwu ∧ (State.catchUpGen s e).glb = s.glb ∧
    (State.catchUpGen s e).sb = s.sb := by
  have w1 := @State.modZent_still; have w2 := @State.refreshGen_still; have wi := @ite_parts
  unfold State.catchUpGen; repeat' split
  all_goals simp [*]
theorem State.leaveDrain_still (s : State) (r : Nat) :
    (State.leaveDrain s r).pending = s.pending ∧ (State.leaveDrain s r).free = s.free ∧ (State.leaveDrain s r).host = s.host ∧
    (State.leaveDrain s r).epoch = s.epoch ∧ (State.leaveDrain s r).pat = s.pat ∧ (State.leaveDrain s r).isl = s.isl ∧
    (State.leaveDrain s r).dramMargin = s.dramMargin ∧ (State.leaveDrain s r).ports = s.ports ∧
    (State.leaveDrain s r).trickle = s.trickle ∧ (State.leaveDrain s r).cmd = s.cmd ∧ (State.leaveDrain s r).zon = s.zon ∧
    (State.leaveDrain s r).med = s.med ∧ (State.leaveDrain s r).mlf = s.mlf ∧ (State.leaveDrain s r).cpx = s.cpx ∧
    (State.leaveDrain s r).wvf = s.wvf ∧ (State.leaveDrain s r).bpm = s.bpm ∧ (State.leaveDrain s r).sli = s.sli ∧
    (State.leaveDrain s r).sec = s.sec ∧ (State.leaveDrain s r).mic = s.mic ∧ (State.leaveDrain s r).flt = s.flt ∧
    (State.leaveDrain s r).ctrs = s.ctrs ∧ (State.leaveDrain s r).grps = s.grps ∧ (State.leaveDrain s r).pwr = s.pwr ∧
    (State.leaveDrain s r).thm = s.thm ∧ (State.leaveDrain s r).age = s.age ∧ (State.leaveDrain s r).cnv = s.cnv ∧
    (State.leaveDrain s r).fwu = s.fwu ∧ (State.leaveDrain s r).glb = s.glb ∧ (State.leaveDrain s r).sb = s.sb := by
  have w1 := @State.modRoute_still; have wi := @ite_parts
  simp [State.leaveDrain, w1, wi]
theorem State.releaseSeat_still (s : State) (c : Nat) :
    (State.releaseSeat s c).pending = s.pending ∧ (State.releaseSeat s c).free = s.free ∧ (State.releaseSeat s c).host = s.host ∧
    (State.releaseSeat s c).epoch = s.epoch ∧ (State.releaseSeat s c).pat = s.pat ∧ (State.releaseSeat s c).isl = s.isl ∧
    (State.releaseSeat s c).dramMargin = s.dramMargin ∧ (State.releaseSeat s c).ports = s.ports ∧
    (State.releaseSeat s c).trickle = s.trickle ∧ (State.releaseSeat s c).zon = s.zon ∧ (State.releaseSeat s c).med = s.med ∧
    (State.releaseSeat s c).mlf = s.mlf ∧ (State.releaseSeat s c).cpx = s.cpx ∧ (State.releaseSeat s c).wvf = s.wvf ∧
    (State.releaseSeat s c).bpm = s.bpm ∧ (State.releaseSeat s c).sli = s.sli ∧ (State.releaseSeat s c).sec = s.sec ∧
    (State.releaseSeat s c).mic = s.mic ∧ (State.releaseSeat s c).flt = s.flt ∧ (State.releaseSeat s c).ctrs = s.ctrs ∧
    (State.releaseSeat s c).grps = s.grps ∧ (State.releaseSeat s c).pwr = s.pwr ∧ (State.releaseSeat s c).thm = s.thm ∧
    (State.releaseSeat s c).age = s.age ∧ (State.releaseSeat s c).cnv = s.cnv ∧ (State.releaseSeat s c).fwu = s.fwu ∧
    (State.releaseSeat s c).glb = s.glb ∧ (State.releaseSeat s c).sb = s.sb := by
  have w1 := @State.modRoute_still; have w2 := @State.setCtx_still; have w3 := @State.leaveDrain_still; have wi := @ite_parts
  simp [State.releaseSeat, w1, w2, w3, wi]
theorem State.hole_still (s : State) (k : Nat) :
    (State.hole s k).pending = s.pending ∧ (State.hole s k).free = s.free ∧ (State.hole s k).host = s.host ∧
    (State.hole s k).epoch = s.epoch ∧ (State.hole s k).pat = s.pat ∧ (State.hole s k).isl = s.isl ∧ (State.hole s k).routes = s.routes ∧
    (State.hole s k).dramMargin = s.dramMargin ∧ (State.hole s k).ports = s.ports ∧ (State.hole s k).trickle = s.trickle ∧
    (State.hole s k).cmd = s.cmd ∧ (State.hole s k).zon = s.zon ∧ (State.hole s k).mlf = s.mlf ∧ (State.hole s k).cpx = s.cpx ∧
    (State.hole s k).wvf = s.wvf ∧ (State.hole s k).bpm = s.bpm ∧ (State.hole s k).sli = s.sli ∧ (State.hole s k).sec = s.sec ∧
    (State.hole s k).mic = s.mic ∧ (State.hole s k).flt = s.flt ∧ (State.hole s k).ctrs = s.ctrs ∧ (State.hole s k).grps = s.grps ∧
    (State.hole s k).pwr = s.pwr ∧ (State.hole s k).thm = s.thm ∧ (State.hole s k).age = s.age ∧ (State.hole s k).cnv = s.cnv ∧
    (State.hole s k).fwu = s.fwu ∧ (State.hole s k).glb = s.glb ∧ (State.hole s k).sb = s.sb := by
  unfold State.hole; repeat' split
  all_goals simp [*]
theorem State.dropPlaced_still (s : State) (c : Nat) :
    (State.dropPlaced s c).pending = s.pending ∧ (State.dropPlaced s c).free = s.free ∧ (State.dropPlaced s c).host = s.host ∧
    (State.dropPlaced s c).epoch = s.epoch ∧ (State.dropPlaced s c).pat = s.pat ∧ (State.dropPlaced s c).isl = s.isl ∧
    (State.dropPlaced s c).routes = s.routes ∧ (State.dropPlaced s c).dramMargin = s.dramMargin ∧ (State.dropPlaced s c).ports = s.ports ∧
    (State.dropPlaced s c).trickle = s.trickle ∧ (State.dropPlaced s c).zon = s.zon ∧ (State.dropPlaced s c).mlf = s.mlf ∧
    (State.dropPlaced s c).cpx = s.cpx ∧ (State.dropPlaced s c).wvf = s.wvf ∧ (State.dropPlaced s c).bpm = s.bpm ∧
    (State.dropPlaced s c).sli = s.sli ∧ (State.dropPlaced s c).sec = s.sec ∧ (State.dropPlaced s c).mic = s.mic ∧
    (State.dropPlaced s c).flt = s.flt ∧ (State.dropPlaced s c).ctrs = s.ctrs ∧ (State.dropPlaced s c).grps = s.grps ∧
    (State.dropPlaced s c).pwr = s.pwr ∧ (State.dropPlaced s c).thm = s.thm ∧ (State.dropPlaced s c).age = s.age ∧
    (State.dropPlaced s c).cnv = s.cnv ∧ (State.dropPlaced s c).fwu = s.fwu ∧ (State.dropPlaced s c).glb = s.glb ∧
    (State.dropPlaced s c).sb = s.sb := by
  have w1 := @State.dropLine_still; have w2 := @State.hole_still; have w3 := @State.setCtx_still; have wf := @foldl_parts
  simp [State.dropPlaced, w1, w2, w3, wf]
theorem State.voidCmd_still (s : State) (e c : Nat) :
    (State.voidCmd s e c).pending = s.pending ∧ (State.voidCmd s e c).free = s.free ∧ (State.voidCmd s e c).host = s.host ∧
    (State.voidCmd s e c).epoch = s.epoch ∧ (State.voidCmd s e c).pat = s.pat ∧ (State.voidCmd s e c).isl = s.isl ∧
    (State.voidCmd s e c).routes = s.routes ∧ (State.voidCmd s e c).dramMargin = s.dramMargin ∧ (State.voidCmd s e c).ports = s.ports ∧
    (State.voidCmd s e c).trickle = s.trickle ∧ (State.voidCmd s e c).mlf = s.mlf ∧ (State.voidCmd s e c).cpx = s.cpx ∧
    (State.voidCmd s e c).wvf = s.wvf ∧ (State.voidCmd s e c).bpm = s.bpm ∧ (State.voidCmd s e c).sli = s.sli ∧
    (State.voidCmd s e c).sec = s.sec ∧ (State.voidCmd s e c).mic = s.mic ∧ (State.voidCmd s e c).flt = s.flt ∧
    (State.voidCmd s e c).ctrs = s.ctrs ∧ (State.voidCmd s e c).grps = s.grps ∧ (State.voidCmd s e c).pwr = s.pwr ∧
    (State.voidCmd s e c).thm = s.thm ∧ (State.voidCmd s e c).age = s.age ∧ (State.voidCmd s e c).cnv = s.cnv ∧
    (State.voidCmd s e c).fwu = s.fwu ∧ (State.voidCmd s e c).glb = s.glb ∧ (State.voidCmd s e c).sb = s.sb := by
  have w1 := @State.dropPlaced_still; have w2 := @State.modCtx_still; have w3 := @State.reproject_still; have wf := @foldl_parts
  have wp := @foldl_snd_parts; have wi := @ite_parts
  unfold State.voidCmd; dsimp only; repeat' split
  all_goals simp [*]
theorem State.voidRecorded_still (s : State) (e : Nat) (c : Option Nat) :
    (State.voidRecorded s e c).pending = s.pending ∧ (State.voidRecorded s e c).free = s.free ∧ (State.voidRecorded s e c).host = s.host ∧
    (State.voidRecorded s e c).epoch = s.epoch ∧ (State.voidRecorded s e c).pat = s.pat ∧ (State.voidRecorded s e c).isl = s.isl ∧
    (State.voidRecorded s e c).routes = s.routes ∧ (State.voidRecorded s e c).dramMargin = s.dramMargin ∧
    (State.voidRecorded s e c).ports = s.ports ∧ (State.voidRecorded s e c).trickle = s.trickle ∧ (State.voidRecorded s e c).zon = s.zon ∧
    (State.voidRecorded s e c).med = s.med ∧ (State.voidRecorded s e c).mlf = s.mlf ∧ (State.voidRecorded s e c).cpx = s.cpx ∧
    (State.voidRecorded s e c).wvf = s.wvf ∧ (State.voidRecorded s e c).bpm = s.bpm ∧ (State.voidRecorded s e c).sli = s.sli ∧
    (State.voidRecorded s e c).sec = s.sec ∧ (State.voidRecorded s e c).mic = s.mic ∧ (State.voidRecorded s e c).flt = s.flt ∧
    (State.voidRecorded s e c).ctrs = s.ctrs ∧ (State.voidRecorded s e c).grps = s.grps ∧ (State.voidRecorded s e c).pwr = s.pwr ∧
    (State.voidRecorded s e c).thm = s.thm ∧ (State.voidRecorded s e c).age = s.age ∧ (State.voidRecorded s e c).cnv = s.cnv ∧
    (State.voidRecorded s e c).fwu = s.fwu ∧ (State.voidRecorded s e c).glb = s.glb ∧ (State.voidRecorded s e c).sb = s.sb := by
  simp [State.voidRecorded]
theorem State.stepGen_still (s : State) (e c : Nat) :
    (State.stepGen s e c).pending = s.pending ∧ (State.stepGen s e c).free = s.free ∧ (State.stepGen s e c).host = s.host ∧
    (State.stepGen s e c).epoch = s.epoch ∧ (State.stepGen s e c).pat = s.pat ∧ (State.stepGen s e c).isl = s.isl ∧
    (State.stepGen s e c).routes = s.routes ∧ (State.stepGen s e c).dramMargin = s.dramMargin ∧ (State.stepGen s e c).ports = s.ports ∧
    (State.stepGen s e c).trickle = s.trickle ∧ (State.stepGen s e c).med = s.med ∧ (State.stepGen s e c).mlf = s.mlf ∧
    (State.stepGen s e c).cpx = s.cpx ∧ (State.stepGen s e c).wvf = s.wvf ∧ (State.stepGen s e c).bpm = s.bpm ∧
    (State.stepGen s e c).sli = s.sli ∧ (State.stepGen s e c).sec = s.sec ∧ (State.stepGen s e c).mic = s.mic ∧
    (State.stepGen s e c).flt = s.flt ∧ (State.stepGen s e c).ctrs = s.ctrs ∧ (State.stepGen s e c).grps = s.grps ∧
    (State.stepGen s e c).pwr = s.pwr ∧ (State.stepGen s e c).thm = s.thm ∧ (State.stepGen s e c).age = s.age ∧
    (State.stepGen s e c).cnv = s.cnv ∧ (State.stepGen s e c).fwu = s.fwu ∧ (State.stepGen s e c).glb = s.glb ∧
    (State.stepGen s e c).sb = s.sb := by
  have w1 := @State.voidRecorded_still; have w2 := @State.advanceGen_still; have w3 := @State.refreshGen_still
  simp [State.stepGen, w1, w2, w3]
theorem State.rollback_still (s : State) (e f : Nat) :
    (State.rollback s e f).pending = s.pending ∧ (State.rollback s e f).free = s.free ∧ (State.rollback s e f).host = s.host ∧
    (State.rollback s e f).epoch = s.epoch ∧ (State.rollback s e f).pat = s.pat ∧ (State.rollback s e f).isl = s.isl ∧
    (State.rollback s e f).routes = s.routes ∧ (State.rollback s e f).dramMargin = s.dramMargin ∧ (State.rollback s e f).ports = s.ports ∧
    (State.rollback s e f).trickle = s.trickle ∧ (State.rollback s e f).mlf = s.mlf ∧ (State.rollback s e f).cpx = s.cpx ∧
    (State.rollback s e f).wvf = s.wvf ∧ (State.rollback s e f).bpm = s.bpm ∧ (State.rollback s e f).sli = s.sli ∧
    (State.rollback s e f).sec = s.sec ∧ (State.rollback s e f).mic = s.mic ∧ (State.rollback s e f).flt = s.flt ∧
    (State.rollback s e f).ctrs = s.ctrs ∧ (State.rollback s e f).grps = s.grps ∧ (State.rollback s e f).pwr = s.pwr ∧
    (State.rollback s e f).thm = s.thm ∧ (State.rollback s e f).age = s.age ∧ (State.rollback s e f).cnv = s.cnv ∧
    (State.rollback s e f).fwu = s.fwu ∧ (State.rollback s e f).glb = s.glb ∧ (State.rollback s e f).sb = s.sb := by
  have w1 := @State.voidCmd_still; have w2 := @State.delProj_still; have w3 := @State.rebuildProj_still
  have w4 := @State.voidRecorded_still; have w5 := @State.advanceGen_still; have w6 := @State.refreshGen_still
  have wf := @foldl_parts; have wi := @ite_parts
  simp [State.rollback, w1, w2, w3, w4, w5, w6, wf, wi]
theorem State.unTake_still (s : State) (e : Nat) :
    (State.unTake s e).pending = s.pending ∧ (State.unTake s e).free = s.free ∧ (State.unTake s e).host = s.host ∧
    (State.unTake s e).epoch = s.epoch ∧ (State.unTake s e).pat = s.pat ∧ (State.unTake s e).isl = s.isl ∧
    (State.unTake s e).routes = s.routes ∧ (State.unTake s e).dramMargin = s.dramMargin ∧ (State.unTake s e).ports = s.ports ∧
    (State.unTake s e).trickle = s.trickle ∧ (State.unTake s e).cmd = s.cmd ∧ (State.unTake s e).mlf = s.mlf ∧
    (State.unTake s e).cpx = s.cpx ∧ (State.unTake s e).wvf = s.wvf ∧ (State.unTake s e).bpm = s.bpm ∧ (State.unTake s e).sli = s.sli ∧
    (State.unTake s e).sec = s.sec ∧ (State.unTake s e).mic = s.mic ∧ (State.unTake s e).flt = s.flt ∧ (State.unTake s e).ctrs = s.ctrs ∧
    (State.unTake s e).grps = s.grps ∧ (State.unTake s e).pwr = s.pwr ∧ (State.unTake s e).thm = s.thm ∧ (State.unTake s e).age = s.age ∧
    (State.unTake s e).cnv = s.cnv ∧ (State.unTake s e).fwu = s.fwu ∧ (State.unTake s e).glb = s.glb ∧ (State.unTake s e).sb = s.sb := by
  have w1 := @State.returnRows_still; have w2 := @State.setZent_still; have wi := @ite_parts
  simp [State.unTake, w1, w2, wi]
theorem State.withdraw_still (s : State) (c : Nat) :
    (State.withdraw s c).pending = s.pending ∧ (State.withdraw s c).free = s.free ∧ (State.withdraw s c).host = s.host ∧
    (State.withdraw s c).epoch = s.epoch ∧ (State.withdraw s c).pat = s.pat ∧ (State.withdraw s c).isl = s.isl ∧
    (State.withdraw s c).routes = s.routes ∧ (State.withdraw s c).dramMargin = s.dramMargin ∧ (State.withdraw s c).ports = s.ports ∧
    (State.withdraw s c).trickle = s.trickle ∧ (State.withdraw s c).mlf = s.mlf ∧ (State.withdraw s c).cpx = s.cpx ∧
    (State.withdraw s c).wvf = s.wvf ∧ (State.withdraw s c).bpm = s.bpm ∧ (State.withdraw s c).sli = s.sli ∧
    (State.withdraw s c).sec = s.sec ∧ (State.withdraw s c).mic = s.mic ∧ (State.withdraw s c).flt = s.flt ∧
    (State.withdraw s c).ctrs = s.ctrs ∧ (State.withdraw s c).grps = s.grps ∧ (State.withdraw s c).pwr = s.pwr ∧
    (State.withdraw s c).thm = s.thm ∧ (State.withdraw s c).age = s.age ∧ (State.withdraw s c).cnv = s.cnv ∧
    (State.withdraw s c).fwu = s.fwu ∧ (State.withdraw s c).glb = s.glb ∧ (State.withdraw s c).sb = s.sb := by
  have w1 := @State.setCtx_still; have w2 := @State.unTake_still; have w3 := @State.rollback_still
  have w4 := @State.catchUpGen_still; have wf := @foldl_parts; have wi := @ite_parts
  simp [State.withdraw, w1, w2, w3, w4, wf, wi]
theorem State.undoCompute_still (s : State) (c : Nat) :
    (State.undoCompute s c).pending = s.pending ∧ (State.undoCompute s c).free = s.free ∧ (State.undoCompute s c).host = s.host ∧
    (State.undoCompute s c).epoch = s.epoch ∧ (State.undoCompute s c).pat = s.pat ∧ (State.undoCompute s c).isl = s.isl ∧
    (State.undoCompute s c).routes = s.routes ∧ (State.undoCompute s c).dramMargin = s.dramMargin ∧
    (State.undoCompute s c).ports = s.ports ∧ (State.undoCompute s c).trickle = s.trickle ∧ (State.undoCompute s c).zon = s.zon ∧
    (State.undoCompute s c).med = s.med ∧ (State.undoCompute s c).mlf = s.mlf ∧ (State.undoCompute s c).wvf = s.wvf ∧
    (State.undoCompute s c).sli = s.sli ∧ (State.undoCompute s c).sec = s.sec ∧ (State.undoCompute s c).ctrs = s.ctrs ∧
    (State.undoCompute s c).grps = s.grps ∧ (State.undoCompute s c).pwr = s.pwr ∧ (State.undoCompute s c).thm = s.thm ∧
    (State.undoCompute s c).age = s.age ∧ (State.undoCompute s c).cnv = s.cnv ∧ (State.undoCompute s c).fwu = s.fwu ∧
    (State.undoCompute s c).glb = s.glb ∧ (State.undoCompute s c).sb = s.sb := by
  have w1 := @State.delAlloc_still; have w2 := @State.freeAll_still
  unfold State.undoCompute; dsimp only; repeat' split
  all_goals simp [*]
theorem State.strip_still (s : State) (c : Nat) :
    (State.strip s c).pending = s.pending ∧ (State.strip s c).free = s.free ∧ (State.strip s c).host = s.host ∧
    (State.strip s c).epoch = s.epoch ∧ (State.strip s c).pat = s.pat ∧ (State.strip s c).isl = s.isl ∧
    (State.strip s c).dramMargin = s.dramMargin ∧ (State.strip s c).ports = s.ports ∧ (State.strip s c).trickle = s.trickle ∧
    (State.strip s c).mlf = s.mlf ∧ (State.strip s c).wvf = s.wvf ∧ (State.strip s c).sli = s.sli ∧ (State.strip s c).sec = s.sec ∧
    (State.strip s c).ctrs = s.ctrs ∧ (State.strip s c).grps = s.grps ∧ (State.strip s c).pwr = s.pwr ∧ (State.strip s c).thm = s.thm ∧
    (State.strip s c).age = s.age ∧ (State.strip s c).cnv = s.cnv ∧ (State.strip s c).fwu = s.fwu ∧ (State.strip s c).glb = s.glb ∧
    (State.strip s c).sb = s.sb := by
  have w1 := @State.undoCompute_still; have w2 := @State.withdraw_still; have w3 := @State.dropPlaced_still
  have w4 := @State.releaseSeat_still; have w5 := @State.freeAll_still; have w6 := @State.setCtx_still
  simp [State.strip, w1, w2, w3, w4, w5, w6]
theorem State.stopJob_still (s : State) (c : Nat) :
    (State.stopJob s c).pending = s.pending ∧ (State.stopJob s c).host = s.host ∧ (State.stopJob s c).epoch = s.epoch ∧
    (State.stopJob s c).pat = s.pat ∧ (State.stopJob s c).isl = s.isl ∧ (State.stopJob s c).routes = s.routes ∧
    (State.stopJob s c).dramMargin = s.dramMargin ∧ (State.stopJob s c).ports = s.ports ∧ (State.stopJob s c).trickle = s.trickle ∧
    (State.stopJob s c).zon = s.zon ∧ (State.stopJob s c).med = s.med ∧ (State.stopJob s c).mlf = s.mlf ∧ (State.stopJob s c).sli = s.sli ∧
    (State.stopJob s c).sec = s.sec ∧ (State.stopJob s c).ctrs = s.ctrs ∧ (State.stopJob s c).grps = s.grps ∧
    (State.stopJob s c).pwr = s.pwr ∧ (State.stopJob s c).thm = s.thm ∧ (State.stopJob s c).age = s.age ∧ (State.stopJob s c).cnv = s.cnv ∧
    (State.stopJob s c).fwu = s.fwu ∧ (State.stopJob s c).glb = s.glb ∧ (State.stopJob s c).sb = s.sb := by
  have w1 := @State.havocJob_still; have w2 := @State.releaseJob_still; have wi := @ite_parts
  simp [State.stopJob, w1, w2, wi]
theorem State.endWith_still (s : State) (c : Nat) (o : Outc) :
    (State.endWith s c o).pending = s.pending ∧ (State.endWith s c o).host = s.host ∧ (State.endWith s c o).epoch = s.epoch ∧
    (State.endWith s c o).pat = s.pat ∧ (State.endWith s c o).isl = s.isl ∧ (State.endWith s c o).dramMargin = s.dramMargin ∧
    (State.endWith s c o).ports = s.ports ∧ (State.endWith s c o).trickle = s.trickle ∧ (State.endWith s c o).mlf = s.mlf ∧
    (State.endWith s c o).sli = s.sli ∧ (State.endWith s c o).sec = s.sec ∧ (State.endWith s c o).ctrs = s.ctrs ∧
    (State.endWith s c o).grps = s.grps ∧ (State.endWith s c o).pwr = s.pwr ∧ (State.endWith s c o).thm = s.thm ∧
    (State.endWith s c o).age = s.age ∧ (State.endWith s c o).cnv = s.cnv ∧ (State.endWith s c o).fwu = s.fwu ∧
    (State.endWith s c o).glb = s.glb ∧ (State.endWith s c o).sb = s.sb := by
  have w1 := @State.stopJob_still; have w2 := @State.strip_still; have w3 := @State.modCtx_still
  simp [State.endWith, w1, w2, w3]
theorem State.endErr_still (s : State) (c : Nat) (e : St) :
    (State.endErr s c e).pending = s.pending ∧ (State.endErr s c e).host = s.host ∧ (State.endErr s c e).epoch = s.epoch ∧
    (State.endErr s c e).pat = s.pat ∧ (State.endErr s c e).isl = s.isl ∧ (State.endErr s c e).dramMargin = s.dramMargin ∧
    (State.endErr s c e).ports = s.ports ∧ (State.endErr s c e).trickle = s.trickle ∧ (State.endErr s c e).mlf = s.mlf ∧
    (State.endErr s c e).sli = s.sli ∧ (State.endErr s c e).sec = s.sec ∧ (State.endErr s c e).ctrs = s.ctrs ∧
    (State.endErr s c e).grps = s.grps ∧ (State.endErr s c e).pwr = s.pwr ∧ (State.endErr s c e).thm = s.thm ∧
    (State.endErr s c e).age = s.age ∧ (State.endErr s c e).cnv = s.cnv ∧ (State.endErr s c e).fwu = s.fwu ∧
    (State.endErr s c e).glb = s.glb ∧ (State.endErr s c e).sb = s.sb := by
  have w1 := @State.endWith_still
  simp [State.endErr, w1]
theorem State.freeCtx_still (s : State) (c : Nat) :
    (State.freeCtx s c).pending = s.pending ∧ (State.freeCtx s c).free = s.free ∧ (State.freeCtx s c).host = s.host ∧
    (State.freeCtx s c).epoch = s.epoch ∧ (State.freeCtx s c).pat = s.pat ∧ (State.freeCtx s c).isl = s.isl ∧
    (State.freeCtx s c).routes = s.routes ∧ (State.freeCtx s c).dramMargin = s.dramMargin ∧ (State.freeCtx s c).ports = s.ports ∧
    (State.freeCtx s c).trickle = s.trickle ∧ (State.freeCtx s c).zon = s.zon ∧ (State.freeCtx s c).med = s.med ∧
    (State.freeCtx s c).mlf = s.mlf ∧ (State.freeCtx s c).wvf = s.wvf ∧ (State.freeCtx s c).bpm = s.bpm ∧ (State.freeCtx s c).sli = s.sli ∧
    (State.freeCtx s c).sec = s.sec ∧ (State.freeCtx s c).flt = s.flt ∧ (State.freeCtx s c).ctrs = s.ctrs ∧
    (State.freeCtx s c).grps = s.grps ∧ (State.freeCtx s c).pwr = s.pwr ∧ (State.freeCtx s c).thm = s.thm ∧
    (State.freeCtx s c).age = s.age ∧ (State.freeCtx s c).cnv = s.cnv ∧ (State.freeCtx s c).fwu = s.fwu ∧ (State.freeCtx s c).glb = s.glb ∧
    (State.freeCtx s c).sb = s.sb := by
  have w1 := @State.delJob_still; have w2 := @State.delCtx_still
  simp [State.freeCtx, w1, w2]
theorem State.vanish_still (s : State) (c : Nat) :
    (State.vanish s c).pending = s.pending ∧ (State.vanish s c).host = s.host ∧ (State.vanish s c).epoch = s.epoch ∧
    (State.vanish s c).pat = s.pat ∧ (State.vanish s c).isl = s.isl ∧ (State.vanish s c).dramMargin = s.dramMargin ∧
    (State.vanish s c).ports = s.ports ∧ (State.vanish s c).trickle = s.trickle ∧ (State.vanish s c).mlf = s.mlf ∧
    (State.vanish s c).sli = s.sli ∧ (State.vanish s c).sec = s.sec ∧ (State.vanish s c).ctrs = s.ctrs ∧ (State.vanish s c).grps = s.grps ∧
    (State.vanish s c).pwr = s.pwr ∧ (State.vanish s c).thm = s.thm ∧ (State.vanish s c).age = s.age ∧ (State.vanish s c).cnv = s.cnv ∧
    (State.vanish s c).fwu = s.fwu ∧ (State.vanish s c).glb = s.glb ∧ (State.vanish s c).sb = s.sb := by
  have w1 := @State.stopJob_still; have w2 := @State.strip_still; have w3 := @State.freeCtx_still
  simp [State.vanish, w1, w2, w3]
theorem State.dropSpec_still (s : State) (c : Nat) :
    (State.dropSpec s c).pending = s.pending ∧ (State.dropSpec s c).free = s.free ∧ (State.dropSpec s c).host = s.host ∧
    (State.dropSpec s c).epoch = s.epoch ∧ (State.dropSpec s c).pat = s.pat ∧ (State.dropSpec s c).isl = s.isl ∧
    (State.dropSpec s c).routes = s.routes ∧ (State.dropSpec s c).dramMargin = s.dramMargin ∧ (State.dropSpec s c).ports = s.ports ∧
    (State.dropSpec s c).trickle = s.trickle ∧ (State.dropSpec s c).zon = s.zon ∧ (State.dropSpec s c).med = s.med ∧
    (State.dropSpec s c).mlf = s.mlf ∧ (State.dropSpec s c).wvf = s.wvf ∧ (State.dropSpec s c).sli = s.sli ∧
    (State.dropSpec s c).sec = s.sec ∧ (State.dropSpec s c).ctrs = s.ctrs ∧ (State.dropSpec s c).grps = s.grps ∧
    (State.dropSpec s c).pwr = s.pwr ∧ (State.dropSpec s c).thm = s.thm ∧ (State.dropSpec s c).age = s.age ∧
    (State.dropSpec s c).cnv = s.cnv ∧ (State.dropSpec s c).fwu = s.fwu ∧ (State.dropSpec s c).glb = s.glb ∧ (State.dropSpec s c).sb = s.sb := by
  have w1 := @State.freeAll_still; have w2 := @State.setCtx_still
  simp [State.dropSpec, w1, w2]
theorem State.squashLock_still (s : State) (c : Nat) :
    (State.squashLock s c).pending = s.pending ∧ (State.squashLock s c).free = s.free ∧ (State.squashLock s c).host = s.host ∧
    (State.squashLock s c).epoch = s.epoch ∧ (State.squashLock s c).pat = s.pat ∧ (State.squashLock s c).isl = s.isl ∧
    (State.squashLock s c).routes = s.routes ∧ (State.squashLock s c).dramMargin = s.dramMargin ∧ (State.squashLock s c).ports = s.ports ∧
    (State.squashLock s c).trickle = s.trickle ∧ (State.squashLock s c).zon = s.zon ∧ (State.squashLock s c).med = s.med ∧
    (State.squashLock s c).mlf = s.mlf ∧ (State.squashLock s c).wvf = s.wvf ∧ (State.squashLock s c).sec = s.sec ∧
    (State.squashLock s c).ctrs = s.ctrs ∧ (State.squashLock s c).grps = s.grps ∧ (State.squashLock s c).pwr = s.pwr ∧
    (State.squashLock s c).thm = s.thm ∧ (State.squashLock s c).age = s.age ∧ (State.squashLock s c).cnv = s.cnv ∧
    (State.squashLock s c).fwu = s.fwu ∧ (State.squashLock s c).glb = s.glb ∧ (State.squashLock s c).sb = s.sb := by
  have w1 := @State.dropSpec_still; have w2 := @State.modCtx_still; have w3 := @State.sqCnt_still; have wi := @ite_parts
  simp [State.squashLock, w1, w2, w3, wi]
theorem State.squashGen_still (s : State) (c : Nat) :
    (State.squashGen s c).pending = s.pending ∧ (State.squashGen s c).free = s.free ∧ (State.squashGen s c).host = s.host ∧
    (State.squashGen s c).epoch = s.epoch ∧ (State.squashGen s c).pat = s.pat ∧ (State.squashGen s c).isl = s.isl ∧
    (State.squashGen s c).dramMargin = s.dramMargin ∧ (State.squashGen s c).ports = s.ports ∧ (State.squashGen s c).trickle = s.trickle ∧
    (State.squashGen s c).mlf = s.mlf ∧ (State.squashGen s c).wvf = s.wvf ∧ (State.squashGen s c).sec = s.sec ∧
    (State.squashGen s c).ctrs = s.ctrs ∧ (State.squashGen s c).grps = s.grps ∧ (State.squashGen s c).pwr = s.pwr ∧
    (State.squashGen s c).thm = s.thm ∧ (State.squashGen s c).age = s.age ∧ (State.squashGen s c).cnv = s.cnv ∧
    (State.squashGen s c).fwu = s.fwu ∧ (State.squashGen s c).glb = s.glb ∧ (State.squashGen s c).sb = s.sb := by
  have w1 := @State.dropSpec_still; have w2 := @State.dropPlaced_still; have w3 := @State.releaseSeat_still
  have w4 := @State.modJob_still; have w5 := @State.modCtx_still; have w6 := @State.sqCnt_still; have w7 := @State.reproject_still
  have w8 := @State.catchUpGen_still; have wf := @foldl_parts; have wi := @ite_parts
  simp [State.squashGen, w1, w2, w3, w4, w5, w6, w7, w8, wf, wi]
theorem State.squashReset_still (s : State) (c : Nat) :
    (State.squashReset s c).pending = s.pending ∧ (State.squashReset s c).host = s.host ∧ (State.squashReset s c).epoch = s.epoch ∧
    (State.squashReset s c).pat = s.pat ∧ (State.squashReset s c).isl = s.isl ∧ (State.squashReset s c).dramMargin = s.dramMargin ∧
    (State.squashReset s c).ports = s.ports ∧ (State.squashReset s c).trickle = s.trickle ∧ (State.squashReset s c).mlf = s.mlf ∧
    (State.squashReset s c).sec = s.sec ∧ (State.squashReset s c).ctrs = s.ctrs ∧ (State.squashReset s c).grps = s.grps ∧
    (State.squashReset s c).pwr = s.pwr ∧ (State.squashReset s c).thm = s.thm ∧ (State.squashReset s c).age = s.age ∧
    (State.squashReset s c).cnv = s.cnv ∧ (State.squashReset s c).fwu = s.fwu ∧ (State.squashReset s c).glb = s.glb ∧
    (State.squashReset s c).sb = s.sb := by
  have w1 := @State.sqCnt_still; have w2 := @State.vanish_still
  simp [State.squashReset, w1, w2]
theorem State.squashAbort_still (s : State) (c : Nat) :
    (State.squashAbort s c).pending = s.pending ∧ (State.squashAbort s c).host = s.host ∧ (State.squashAbort s c).epoch = s.epoch ∧
    (State.squashAbort s c).pat = s.pat ∧ (State.squashAbort s c).isl = s.isl ∧ (State.squashAbort s c).dramMargin = s.dramMargin ∧
    (State.squashAbort s c).ports = s.ports ∧ (State.squashAbort s c).trickle = s.trickle ∧ (State.squashAbort s c).mlf = s.mlf ∧
    (State.squashAbort s c).sec = s.sec ∧ (State.squashAbort s c).ctrs = s.ctrs ∧ (State.squashAbort s c).grps = s.grps ∧
    (State.squashAbort s c).pwr = s.pwr ∧ (State.squashAbort s c).thm = s.thm ∧ (State.squashAbort s c).age = s.age ∧
    (State.squashAbort s c).cnv = s.cnv ∧ (State.squashAbort s c).fwu = s.fwu ∧ (State.squashAbort s c).glb = s.glb ∧
    (State.squashAbort s c).sb = s.sb := by
  have w1 := @State.sqCnt_still; have w2 := @State.endErr_still
  simp [State.squashAbort, w1, w2]
theorem State.squashPred_still (s : State) (c : Nat) :
    (State.squashPred s c).pending = s.pending ∧ (State.squashPred s c).host = s.host ∧ (State.squashPred s c).epoch = s.epoch ∧
    (State.squashPred s c).pat = s.pat ∧ (State.squashPred s c).isl = s.isl ∧ (State.squashPred s c).dramMargin = s.dramMargin ∧
    (State.squashPred s c).ports = s.ports ∧ (State.squashPred s c).trickle = s.trickle ∧ (State.squashPred s c).mlf = s.mlf ∧
    (State.squashPred s c).sec = s.sec ∧ (State.squashPred s c).ctrs = s.ctrs ∧ (State.squashPred s c).grps = s.grps ∧
    (State.squashPred s c).pwr = s.pwr ∧ (State.squashPred s c).thm = s.thm ∧ (State.squashPred s c).age = s.age ∧
    (State.squashPred s c).cnv = s.cnv ∧ (State.squashPred s c).fwu = s.fwu ∧ (State.squashPred s c).glb = s.glb ∧
    (State.squashPred s c).sb = s.sb := by
  have w1 := @State.sqCnt_still; have w2 := @State.endErr_still
  simp [State.squashPred, w1, w2]
theorem State.finish_still (s : State) (c : Nat) (o : Outc) :
    (State.finish s c o).pending = s.pending ∧ (State.finish s c o).free = s.free ∧ (State.finish s c o).host = s.host ∧
    (State.finish s c o).epoch = s.epoch ∧ (State.finish s c o).pat = s.pat ∧ (State.finish s c o).isl = s.isl ∧
    (State.finish s c o).routes = s.routes ∧ (State.finish s c o).dramMargin = s.dramMargin ∧ (State.finish s c o).ports = s.ports ∧
    (State.finish s c o).trickle = s.trickle ∧ (State.finish s c o).zon = s.zon ∧ (State.finish s c o).med = s.med ∧
    (State.finish s c o).mlf = s.mlf ∧ (State.finish s c o).cpx = s.cpx ∧ (State.finish s c o).wvf = s.wvf ∧
    (State.finish s c o).bpm = s.bpm ∧ (State.finish s c o).sli = s.sli ∧ (State.finish s c o).sec = s.sec ∧
    (State.finish s c o).mic = s.mic ∧ (State.finish s c o).flt = s.flt ∧ (State.finish s c o).ctrs = s.ctrs ∧
    (State.finish s c o).grps = s.grps ∧ (State.finish s c o).pwr = s.pwr ∧ (State.finish s c o).thm = s.thm ∧
    (State.finish s c o).age = s.age ∧ (State.finish s c o).cnv = s.cnv ∧ (State.finish s c o).fwu = s.fwu ∧
    (State.finish s c o).glb = s.glb ∧ (State.finish s c o).sb = s.sb := by
  have w1 := @State.modCtx_still
  simp [State.finish, w1]
theorem State.sbReply_still (s : State) (e : Nat) (o : Outc) (d : OutData) :
    (State.sbReply s e o d).pending = s.pending ∧ (State.sbReply s e o d).free = s.free ∧ (State.sbReply s e o d).epoch = s.epoch ∧
    (State.sbReply s e o d).pat = s.pat ∧ (State.sbReply s e o d).isl = s.isl ∧ (State.sbReply s e o d).routes = s.routes ∧
    (State.sbReply s e o d).dramMargin = s.dramMargin ∧ (State.sbReply s e o d).ports = s.ports ∧
    (State.sbReply s e o d).trickle = s.trickle ∧ (State.sbReply s e o d).cmd = s.cmd ∧ (State.sbReply s e o d).zon = s.zon ∧
    (State.sbReply s e o d).med = s.med ∧ (State.sbReply s e o d).mlf = s.mlf ∧ (State.sbReply s e o d).cpx = s.cpx ∧
    (State.sbReply s e o d).wvf = s.wvf ∧ (State.sbReply s e o d).bpm = s.bpm ∧ (State.sbReply s e o d).sli = s.sli ∧
    (State.sbReply s e o d).sec = s.sec ∧ (State.sbReply s e o d).mic = s.mic ∧ (State.sbReply s e o d).flt = s.flt ∧
    (State.sbReply s e o d).ctrs = s.ctrs ∧ (State.sbReply s e o d).grps = s.grps ∧ (State.sbReply s e o d).pwr = s.pwr ∧
    (State.sbReply s e o d).thm = s.thm ∧ (State.sbReply s e o d).age = s.age ∧ (State.sbReply s e o d).cnv = s.cnv ∧
    (State.sbReply s e o d).fwu = s.fwu ∧ (State.sbReply s e o d).glb = s.glb := by
  have wi := @ite_parts
  simp [State.sbReply, wi]
theorem State.answer_still (s : State) (w : Waiter) (o : Outc) :
    (State.answer s w o).pending = s.pending ∧ (State.answer s w o).free = s.free ∧ (State.answer s w o).epoch = s.epoch ∧
    (State.answer s w o).pat = s.pat ∧ (State.answer s w o).isl = s.isl ∧ (State.answer s w o).routes = s.routes ∧
    (State.answer s w o).dramMargin = s.dramMargin ∧ (State.answer s w o).ports = s.ports ∧ (State.answer s w o).trickle = s.trickle ∧
    (State.answer s w o).zon = s.zon ∧ (State.answer s w o).med = s.med ∧ (State.answer s w o).mlf = s.mlf ∧
    (State.answer s w o).cpx = s.cpx ∧ (State.answer s w o).wvf = s.wvf ∧ (State.answer s w o).bpm = s.bpm ∧
    (State.answer s w o).sli = s.sli ∧ (State.answer s w o).sec = s.sec ∧ (State.answer s w o).mic = s.mic ∧
    (State.answer s w o).flt = s.flt ∧ (State.answer s w o).ctrs = s.ctrs ∧ (State.answer s w o).grps = s.grps ∧
    (State.answer s w o).pwr = s.pwr ∧ (State.answer s w o).thm = s.thm ∧ (State.answer s w o).age = s.age ∧
    (State.answer s w o).cnv = s.cnv ∧ (State.answer s w o).fwu = s.fwu ∧ (State.answer s w o).glb = s.glb := by
  have w1 := @State.finish_still; have w2 := @State.sbReply_still
  unfold State.answer; repeat' split
  all_goals simp [*]
theorem State.ownProgress_still (s : State) (n : Nat) :
    (State.ownProgress s n).pending = s.pending ∧ (State.ownProgress s n).free = s.free ∧ (State.ownProgress s n).epoch = s.epoch ∧
    (State.ownProgress s n).pat = s.pat ∧ (State.ownProgress s n).isl = s.isl ∧ (State.ownProgress s n).routes = s.routes ∧
    (State.ownProgress s n).dramMargin = s.dramMargin ∧ (State.ownProgress s n).ports = s.ports ∧
    (State.ownProgress s n).trickle = s.trickle ∧ (State.ownProgress s n).med = s.med ∧ (State.ownProgress s n).mlf = s.mlf ∧
    (State.ownProgress s n).cpx = s.cpx ∧ (State.ownProgress s n).wvf = s.wvf ∧ (State.ownProgress s n).bpm = s.bpm ∧
    (State.ownProgress s n).sli = s.sli ∧ (State.ownProgress s n).sec = s.sec ∧ (State.ownProgress s n).mic = s.mic ∧
    (State.ownProgress s n).flt = s.flt ∧ (State.ownProgress s n).ctrs = s.ctrs ∧ (State.ownProgress s n).grps = s.grps ∧
    (State.ownProgress s n).pwr = s.pwr ∧ (State.ownProgress s n).thm = s.thm ∧ (State.ownProgress s n).age = s.age ∧
    (State.ownProgress s n).cnv = s.cnv ∧ (State.ownProgress s n).fwu = s.fwu ∧ (State.ownProgress s n).glb = s.glb := by
  have w1 := @State.answer_still; have w2 := @State.setNs_still
  unfold State.ownProgress; dsimp only; repeat' split
  all_goals simp [*]
theorem State.ownProgressAll_still (s : State) :
    (State.ownProgressAll s).pending = s.pending ∧ (State.ownProgressAll s).free = s.free ∧ (State.ownProgressAll s).epoch = s.epoch ∧
    (State.ownProgressAll s).pat = s.pat ∧ (State.ownProgressAll s).isl = s.isl ∧ (State.ownProgressAll s).routes = s.routes ∧
    (State.ownProgressAll s).dramMargin = s.dramMargin ∧ (State.ownProgressAll s).ports = s.ports ∧
    (State.ownProgressAll s).trickle = s.trickle ∧ (State.ownProgressAll s).med = s.med ∧ (State.ownProgressAll s).mlf = s.mlf ∧
    (State.ownProgressAll s).cpx = s.cpx ∧ (State.ownProgressAll s).wvf = s.wvf ∧ (State.ownProgressAll s).bpm = s.bpm ∧
    (State.ownProgressAll s).sli = s.sli ∧ (State.ownProgressAll s).sec = s.sec ∧ (State.ownProgressAll s).mic = s.mic ∧
    (State.ownProgressAll s).flt = s.flt ∧ (State.ownProgressAll s).ctrs = s.ctrs ∧ (State.ownProgressAll s).grps = s.grps ∧
    (State.ownProgressAll s).pwr = s.pwr ∧ (State.ownProgressAll s).thm = s.thm ∧ (State.ownProgressAll s).age = s.age ∧
    (State.ownProgressAll s).cnv = s.cnv ∧ (State.ownProgressAll s).fwu = s.fwu ∧ (State.ownProgressAll s).glb = s.glb := by
  have w1 := @State.ownProgress_still; have wf := @foldl_parts
  simp [State.ownProgressAll, w1, wf]
theorem State.cometCancel_still (s : State) (n lo hi : Nat) :
    (State.cometCancel s n lo hi).pending = s.pending ∧ (State.cometCancel s n lo hi).free = s.free ∧
    (State.cometCancel s n lo hi).host = s.host ∧ (State.cometCancel s n lo hi).epoch = s.epoch ∧
    (State.cometCancel s n lo hi).pat = s.pat ∧ (State.cometCancel s n lo hi).isl = s.isl ∧
    (State.cometCancel s n lo hi).routes = s.routes ∧ (State.cometCancel s n lo hi).dramMargin = s.dramMargin ∧
    (State.cometCancel s n lo hi).ports = s.ports ∧ (State.cometCancel s n lo hi).trickle = s.trickle ∧
    (State.cometCancel s n lo hi).zon = s.zon ∧ (State.cometCancel s n lo hi).med = s.med ∧ (State.cometCancel s n lo hi).mlf = s.mlf ∧
    (State.cometCancel s n lo hi).cpx = s.cpx ∧ (State.cometCancel s n lo hi).wvf = s.wvf ∧ (State.cometCancel s n lo hi).bpm = s.bpm ∧
    (State.cometCancel s n lo hi).sec = s.sec ∧ (State.cometCancel s n lo hi).mic = s.mic ∧ (State.cometCancel s n lo hi).flt = s.flt ∧
    (State.cometCancel s n lo hi).ctrs = s.ctrs ∧ (State.cometCancel s n lo hi).grps = s.grps ∧ (State.cometCancel s n lo hi).pwr = s.pwr ∧
    (State.cometCancel s n lo hi).thm = s.thm ∧ (State.cometCancel s n lo hi).age = s.age ∧ (State.cometCancel s n lo hi).cnv = s.cnv ∧
    (State.cometCancel s n lo hi).fwu = s.fwu ∧ (State.cometCancel s n lo hi).glb = s.glb ∧ (State.cometCancel s n lo hi).sb = s.sb := by
  have w1 := @State.sqCnt_still; have wf := @foldl_parts; have wi := @ite_parts
  simp [State.cometCancel, w1, wf, wi]
theorem State.controllerFatal_still (s : State) (k : Nat) :
    (State.controllerFatal s k).pending = s.pending ∧ (State.controllerFatal s k).free = s.free ∧
    (State.controllerFatal s k).host = s.host ∧ (State.controllerFatal s k).epoch = s.epoch ∧ (State.controllerFatal s k).pat = s.pat ∧
    (State.controllerFatal s k).isl = s.isl ∧ (State.controllerFatal s k).routes = s.routes ∧
    (State.controllerFatal s k).dramMargin = s.dramMargin ∧ (State.controllerFatal s k).ports = s.ports ∧
    (State.controllerFatal s k).trickle = s.trickle ∧ (State.controllerFatal s k).zon = s.zon ∧ (State.controllerFatal s k).med = s.med ∧
    (State.controllerFatal s k).mlf = s.mlf ∧ (State.controllerFatal s k).cpx = s.cpx ∧ (State.controllerFatal s k).wvf = s.wvf ∧
    (State.controllerFatal s k).bpm = s.bpm ∧ (State.controllerFatal s k).sli = s.sli ∧ (State.controllerFatal s k).sec = s.sec ∧
    (State.controllerFatal s k).mic = s.mic ∧ (State.controllerFatal s k).flt = s.flt ∧ (State.controllerFatal s k).ctrs = s.ctrs ∧
    (State.controllerFatal s k).grps = s.grps ∧ (State.controllerFatal s k).pwr = s.pwr ∧ (State.controllerFatal s k).thm = s.thm ∧
    (State.controllerFatal s k).age = s.age ∧ (State.controllerFatal s k).cnv = s.cnv ∧ (State.controllerFatal s k).fwu = s.fwu ∧
    (State.controllerFatal s k).glb = s.glb ∧ (State.controllerFatal s k).sb = s.sb := by
  have w1 := @State.modCtrl_still
  simp [State.controllerFatal, w1]
theorem State.logError_still (s : State) (k : Nat) (e : ErrEnt) :
    (State.logError s k e).pending = s.pending ∧ (State.logError s k e).free = s.free ∧ (State.logError s k e).host = s.host ∧
    (State.logError s k e).epoch = s.epoch ∧ (State.logError s k e).pat = s.pat ∧ (State.logError s k e).isl = s.isl ∧
    (State.logError s k e).routes = s.routes ∧ (State.logError s k e).dramMargin = s.dramMargin ∧ (State.logError s k e).ports = s.ports ∧
    (State.logError s k e).trickle = s.trickle ∧ (State.logError s k e).zon = s.zon ∧ (State.logError s k e).med = s.med ∧
    (State.logError s k e).mlf = s.mlf ∧ (State.logError s k e).cpx = s.cpx ∧ (State.logError s k e).wvf = s.wvf ∧
    (State.logError s k e).bpm = s.bpm ∧ (State.logError s k e).sli = s.sli ∧ (State.logError s k e).sec = s.sec ∧
    (State.logError s k e).mic = s.mic ∧ (State.logError s k e).flt = s.flt ∧ (State.logError s k e).ctrs = s.ctrs ∧
    (State.logError s k e).grps = s.grps ∧ (State.logError s k e).pwr = s.pwr ∧ (State.logError s k e).thm = s.thm ∧
    (State.logError s k e).age = s.age ∧ (State.logError s k e).cnv = s.cnv ∧ (State.logError s k e).fwu = s.fwu ∧
    (State.logError s k e).glb = s.glb ∧ (State.logError s k e).sb = s.sb := by
  have w1 := @State.modCtrl_still
  simp [State.logError, w1]
theorem State.setBank_still (s : State) (b : Nat) (v : Bank) :
    (State.setBank s b v).pending = s.pending ∧ (State.setBank s b v).free = s.free ∧ (State.setBank s b v).host = s.host ∧
    (State.setBank s b v).epoch = s.epoch ∧ (State.setBank s b v).pat = s.pat ∧ (State.setBank s b v).isl = s.isl ∧
    (State.setBank s b v).routes = s.routes ∧ (State.setBank s b v).dramMargin = s.dramMargin ∧ (State.setBank s b v).ports = s.ports ∧
    (State.setBank s b v).trickle = s.trickle ∧ (State.setBank s b v).cmd = s.cmd ∧ (State.setBank s b v).zon = s.zon ∧
    (State.setBank s b v).med = s.med ∧ (State.setBank s b v).mlf = s.mlf ∧ (State.setBank s b v).cpx = s.cpx ∧
    (State.setBank s b v).wvf = s.wvf ∧ (State.setBank s b v).bpm = s.bpm ∧ (State.setBank s b v).sli = s.sli ∧
    (State.setBank s b v).sec = s.sec ∧ (State.setBank s b v).mic = s.mic ∧ (State.setBank s b v).flt = s.flt ∧
    (State.setBank s b v).ctrs = s.ctrs ∧ (State.setBank s b v).grps = s.grps ∧ (State.setBank s b v).pwr = s.pwr ∧
    (State.setBank s b v).thm = s.thm ∧ (State.setBank s b v).age = s.age ∧ (State.setBank s b v).fwu = s.fwu ∧
    (State.setBank s b v).glb = s.glb ∧ (State.setBank s b v).sb = s.sb := by
  simp [State.setBank]
theorem State.modBank_still (s : State) (b : Nat) (f : Bank → Bank) :
    (State.modBank s b f).pending = s.pending ∧ (State.modBank s b f).free = s.free ∧ (State.modBank s b f).host = s.host ∧
    (State.modBank s b f).epoch = s.epoch ∧ (State.modBank s b f).pat = s.pat ∧ (State.modBank s b f).isl = s.isl ∧
    (State.modBank s b f).routes = s.routes ∧ (State.modBank s b f).dramMargin = s.dramMargin ∧ (State.modBank s b f).ports = s.ports ∧
    (State.modBank s b f).trickle = s.trickle ∧ (State.modBank s b f).cmd = s.cmd ∧ (State.modBank s b f).zon = s.zon ∧
    (State.modBank s b f).med = s.med ∧ (State.modBank s b f).mlf = s.mlf ∧ (State.modBank s b f).cpx = s.cpx ∧
    (State.modBank s b f).wvf = s.wvf ∧ (State.modBank s b f).bpm = s.bpm ∧ (State.modBank s b f).sli = s.sli ∧
    (State.modBank s b f).sec = s.sec ∧ (State.modBank s b f).mic = s.mic ∧ (State.modBank s b f).flt = s.flt ∧
    (State.modBank s b f).ctrs = s.ctrs ∧ (State.modBank s b f).grps = s.grps ∧ (State.modBank s b f).pwr = s.pwr ∧
    (State.modBank s b f).thm = s.thm ∧ (State.modBank s b f).age = s.age ∧ (State.modBank s b f).fwu = s.fwu ∧
    (State.modBank s b f).glb = s.glb ∧ (State.modBank s b f).sb = s.sb := by
  have w1 := @State.setBank_still
  simp [State.modBank, w1]
theorem State.setSect_still (s : State) (n : Nat) (v : Sect) :
    (State.setSect s n v).pending = s.pending ∧ (State.setSect s n v).free = s.free ∧ (State.setSect s n v).host = s.host ∧
    (State.setSect s n v).epoch = s.epoch ∧ (State.setSect s n v).pat = s.pat ∧ (State.setSect s n v).isl = s.isl ∧
    (State.setSect s n v).routes = s.routes ∧ (State.setSect s n v).dramMargin = s.dramMargin ∧ (State.setSect s n v).ports = s.ports ∧
    (State.setSect s n v).trickle = s.trickle ∧ (State.setSect s n v).cmd = s.cmd ∧ (State.setSect s n v).zon = s.zon ∧
    (State.setSect s n v).med = s.med ∧ (State.setSect s n v).mlf = s.mlf ∧ (State.setSect s n v).cpx = s.cpx ∧
    (State.setSect s n v).wvf = s.wvf ∧ (State.setSect s n v).bpm = s.bpm ∧ (State.setSect s n v).sli = s.sli ∧
    (State.setSect s n v).sec = s.sec ∧ (State.setSect s n v).mic = s.mic ∧ (State.setSect s n v).flt = s.flt ∧
    (State.setSect s n v).ctrs = s.ctrs ∧ (State.setSect s n v).grps = s.grps ∧ (State.setSect s n v).pwr = s.pwr ∧
    (State.setSect s n v).thm = s.thm ∧ (State.setSect s n v).age = s.age ∧ (State.setSect s n v).fwu = s.fwu ∧
    (State.setSect s n v).glb = s.glb ∧ (State.setSect s n v).sb = s.sb := by
  simp [State.setSect]
theorem State.cnvCnt_still (s : State) (k n : Nat) :
    (State.cnvCnt s k n).pending = s.pending ∧ (State.cnvCnt s k n).free = s.free ∧ (State.cnvCnt s k n).host = s.host ∧
    (State.cnvCnt s k n).epoch = s.epoch ∧ (State.cnvCnt s k n).pat = s.pat ∧ (State.cnvCnt s k n).isl = s.isl ∧
    (State.cnvCnt s k n).routes = s.routes ∧ (State.cnvCnt s k n).dramMargin = s.dramMargin ∧ (State.cnvCnt s k n).ports = s.ports ∧
    (State.cnvCnt s k n).trickle = s.trickle ∧ (State.cnvCnt s k n).cmd = s.cmd ∧ (State.cnvCnt s k n).zon = s.zon ∧
    (State.cnvCnt s k n).med = s.med ∧ (State.cnvCnt s k n).mlf = s.mlf ∧ (State.cnvCnt s k n).cpx = s.cpx ∧
    (State.cnvCnt s k n).wvf = s.wvf ∧ (State.cnvCnt s k n).bpm = s.bpm ∧ (State.cnvCnt s k n).sli = s.sli ∧
    (State.cnvCnt s k n).sec = s.sec ∧ (State.cnvCnt s k n).mic = s.mic ∧ (State.cnvCnt s k n).flt = s.flt ∧
    (State.cnvCnt s k n).ctrs = s.ctrs ∧ (State.cnvCnt s k n).grps = s.grps ∧ (State.cnvCnt s k n).pwr = s.pwr ∧
    (State.cnvCnt s k n).thm = s.thm ∧ (State.cnvCnt s k n).age = s.age ∧ (State.cnvCnt s k n).fwu = s.fwu ∧
    (State.cnvCnt s k n).glb = s.glb ∧ (State.cnvCnt s k n).sb = s.sb := by
  simp [State.cnvCnt]
theorem State.putPage_still (s : State) (bank page : Nat) (data : List Byte) :
    (State.putPage s bank page data).pending = s.pending ∧ (State.putPage s bank page data).free = s.free ∧
    (State.putPage s bank page data).host = s.host ∧ (State.putPage s bank page data).epoch = s.epoch ∧
    (State.putPage s bank page data).pat = s.pat ∧ (State.putPage s bank page data).isl = s.isl ∧
    (State.putPage s bank page data).routes = s.routes ∧ (State.putPage s bank page data).dramMargin = s.dramMargin ∧
    (State.putPage s bank page data).ports = s.ports ∧ (State.putPage s bank page data).trickle = s.trickle ∧
    (State.putPage s bank page data).cmd = s.cmd ∧ (State.putPage s bank page data).zon = s.zon ∧
    (State.putPage s bank page data).med = s.med ∧ (State.putPage s bank page data).mlf = s.mlf ∧
    (State.putPage s bank page data).cpx = s.cpx ∧ (State.putPage s bank page data).wvf = s.wvf ∧
    (State.putPage s bank page data).bpm = s.bpm ∧ (State.putPage s bank page data).sli = s.sli ∧
    (State.putPage s bank page data).sec = s.sec ∧ (State.putPage s bank page data).mic = s.mic ∧
    (State.putPage s bank page data).flt = s.flt ∧ (State.putPage s bank page data).ctrs = s.ctrs ∧
    (State.putPage s bank page data).grps = s.grps ∧ (State.putPage s bank page data).pwr = s.pwr ∧
    (State.putPage s bank page data).thm = s.thm ∧ (State.putPage s bank page data).age = s.age ∧
    (State.putPage s bank page data).fwu = s.fwu ∧ (State.putPage s bank page data).glb = s.glb ∧
    (State.putPage s bank page data).sb = s.sb := by
  have w1 := @State.setSect_still
  simp [State.putPage, w1]
theorem State.wipeSector_still (s : State) (bank sector : Nat) :
    (State.wipeSector s bank sector).pending = s.pending ∧ (State.wipeSector s bank sector).free = s.free ∧
    (State.wipeSector s bank sector).host = s.host ∧ (State.wipeSector s bank sector).epoch = s.epoch ∧
    (State.wipeSector s bank sector).pat = s.pat ∧ (State.wipeSector s bank sector).isl = s.isl ∧
    (State.wipeSector s bank sector).routes = s.routes ∧ (State.wipeSector s bank sector).dramMargin = s.dramMargin ∧
    (State.wipeSector s bank sector).ports = s.ports ∧ (State.wipeSector s bank sector).trickle = s.trickle ∧
    (State.wipeSector s bank sector).cmd = s.cmd ∧ (State.wipeSector s bank sector).zon = s.zon ∧
    (State.wipeSector s bank sector).med = s.med ∧ (State.wipeSector s bank sector).mlf = s.mlf ∧
    (State.wipeSector s bank sector).cpx = s.cpx ∧ (State.wipeSector s bank sector).wvf = s.wvf ∧
    (State.wipeSector s bank sector).bpm = s.bpm ∧ (State.wipeSector s bank sector).sli = s.sli ∧
    (State.wipeSector s bank sector).sec = s.sec ∧ (State.wipeSector s bank sector).mic = s.mic ∧
    (State.wipeSector s bank sector).ctrs = s.ctrs ∧ (State.wipeSector s bank sector).grps = s.grps ∧
    (State.wipeSector s bank sector).pwr = s.pwr ∧ (State.wipeSector s bank sector).thm = s.thm ∧
    (State.wipeSector s bank sector).age = s.age ∧ (State.wipeSector s bank sector).fwu = s.fwu ∧
    (State.wipeSector s bank sector).glb = s.glb ∧ (State.wipeSector s bank sector).sb = s.sb := by
  have w1 := @State.setSect_still; have w2 := @State.queueFault_still; have wi := @ite_parts
  simp [State.wipeSector, w1, w2, wi]
theorem State.spoilPage_still (s : State) (bank page : Nat) :
    (State.spoilPage s bank page).pending = s.pending ∧ (State.spoilPage s bank page).host = s.host ∧
    (State.spoilPage s bank page).epoch = s.epoch ∧ (State.spoilPage s bank page).pat = s.pat ∧ (State.spoilPage s bank page).isl = s.isl ∧
    (State.spoilPage s bank page).routes = s.routes ∧ (State.spoilPage s bank page).dramMargin = s.dramMargin ∧
    (State.spoilPage s bank page).ports = s.ports ∧ (State.spoilPage s bank page).trickle = s.trickle ∧
    (State.spoilPage s bank page).cmd = s.cmd ∧ (State.spoilPage s bank page).zon = s.zon ∧ (State.spoilPage s bank page).med = s.med ∧
    (State.spoilPage s bank page).mlf = s.mlf ∧ (State.spoilPage s bank page).cpx = s.cpx ∧ (State.spoilPage s bank page).wvf = s.wvf ∧
    (State.spoilPage s bank page).bpm = s.bpm ∧ (State.spoilPage s bank page).sli = s.sli ∧ (State.spoilPage s bank page).sec = s.sec ∧
    (State.spoilPage s bank page).mic = s.mic ∧ (State.spoilPage s bank page).flt = s.flt ∧ (State.spoilPage s bank page).ctrs = s.ctrs ∧
    (State.spoilPage s bank page).grps = s.grps ∧ (State.spoilPage s bank page).pwr = s.pwr ∧ (State.spoilPage s bank page).thm = s.thm ∧
    (State.spoilPage s bank page).age = s.age ∧ (State.spoilPage s bank page).fwu = s.fwu ∧ (State.spoilPage s bank page).glb = s.glb ∧
    (State.spoilPage s bank page).sb = s.sb := by
  have w1 := @drawBytes_still; have w2 := @State.putPage_still
  simp [State.spoilPage, w1, w2]
theorem State.spoilSector_still (s : State) (bank sector : Nat) :
    (State.spoilSector s bank sector).pending = s.pending ∧ (State.spoilSector s bank sector).host = s.host ∧
    (State.spoilSector s bank sector).epoch = s.epoch ∧ (State.spoilSector s bank sector).pat = s.pat ∧
    (State.spoilSector s bank sector).isl = s.isl ∧ (State.spoilSector s bank sector).routes = s.routes ∧
    (State.spoilSector s bank sector).dramMargin = s.dramMargin ∧ (State.spoilSector s bank sector).ports = s.ports ∧
    (State.spoilSector s bank sector).trickle = s.trickle ∧ (State.spoilSector s bank sector).cmd = s.cmd ∧
    (State.spoilSector s bank sector).zon = s.zon ∧ (State.spoilSector s bank sector).med = s.med ∧
    (State.spoilSector s bank sector).mlf = s.mlf ∧ (State.spoilSector s bank sector).cpx = s.cpx ∧
    (State.spoilSector s bank sector).wvf = s.wvf ∧ (State.spoilSector s bank sector).bpm = s.bpm ∧
    (State.spoilSector s bank sector).sli = s.sli ∧ (State.spoilSector s bank sector).sec = s.sec ∧
    (State.spoilSector s bank sector).mic = s.mic ∧ (State.spoilSector s bank sector).flt = s.flt ∧
    (State.spoilSector s bank sector).ctrs = s.ctrs ∧ (State.spoilSector s bank sector).grps = s.grps ∧
    (State.spoilSector s bank sector).pwr = s.pwr ∧ (State.spoilSector s bank sector).thm = s.thm ∧
    (State.spoilSector s bank sector).age = s.age ∧ (State.spoilSector s bank sector).fwu = s.fwu ∧
    (State.spoilSector s bank sector).glb = s.glb ∧ (State.spoilSector s bank sector).sb = s.sb := by
  have w1 := @drawBytes_still; have w2 := @State.setSect_still
  simp [State.spoilSector, w1, w2]
theorem State.spoil_still (s : State) (bank : Nat) (o : ArrOp) :
    (State.spoil s bank o).pending = s.pending ∧ (State.spoil s bank o).host = s.host ∧ (State.spoil s bank o).epoch = s.epoch ∧
    (State.spoil s bank o).pat = s.pat ∧ (State.spoil s bank o).isl = s.isl ∧ (State.spoil s bank o).routes = s.routes ∧
    (State.spoil s bank o).dramMargin = s.dramMargin ∧ (State.spoil s bank o).ports = s.ports ∧
    (State.spoil s bank o).trickle = s.trickle ∧ (State.spoil s bank o).cmd = s.cmd ∧ (State.spoil s bank o).zon = s.zon ∧
    (State.spoil s bank o).med = s.med ∧ (State.spoil s bank o).mlf = s.mlf ∧ (State.spoil s bank o).cpx = s.cpx ∧
    (State.spoil s bank o).wvf = s.wvf ∧ (State.spoil s bank o).bpm = s.bpm ∧ (State.spoil s bank o).sli = s.sli ∧
    (State.spoil s bank o).sec = s.sec ∧ (State.spoil s bank o).mic = s.mic ∧ (State.spoil s bank o).flt = s.flt ∧
    (State.spoil s bank o).ctrs = s.ctrs ∧ (State.spoil s bank o).grps = s.grps ∧ (State.spoil s bank o).pwr = s.pwr ∧
    (State.spoil s bank o).thm = s.thm ∧ (State.spoil s bank o).age = s.age ∧ (State.spoil s bank o).fwu = s.fwu ∧
    (State.spoil s bank o).glb = s.glb ∧ (State.spoil s bank o).sb = s.sb := by
  have w1 := @State.spoilPage_still; have w2 := @State.spoilSector_still; have wi := @ite_parts
  simp [State.spoil, w1, w2, wi]
theorem State.eraseRange_still (s : State) (bank lo n : Nat) :
    (State.eraseRange s bank lo n).pending = s.pending ∧ (State.eraseRange s bank lo n).free = s.free ∧
    (State.eraseRange s bank lo n).host = s.host ∧ (State.eraseRange s bank lo n).epoch = s.epoch ∧
    (State.eraseRange s bank lo n).pat = s.pat ∧ (State.eraseRange s bank lo n).isl = s.isl ∧
    (State.eraseRange s bank lo n).routes = s.routes ∧ (State.eraseRange s bank lo n).dramMargin = s.dramMargin ∧
    (State.eraseRange s bank lo n).ports = s.ports ∧ (State.eraseRange s bank lo n).trickle = s.trickle ∧
    (State.eraseRange s bank lo n).cmd = s.cmd ∧ (State.eraseRange s bank lo n).zon = s.zon ∧ (State.eraseRange s bank lo n).med = s.med ∧
    (State.eraseRange s bank lo n).mlf = s.mlf ∧ (State.eraseRange s bank lo n).cpx = s.cpx ∧ (State.eraseRange s bank lo n).wvf = s.wvf ∧
    (State.eraseRange s bank lo n).bpm = s.bpm ∧ (State.eraseRange s bank lo n).sli = s.sli ∧ (State.eraseRange s bank lo n).sec = s.sec ∧
    (State.eraseRange s bank lo n).mic = s.mic ∧ (State.eraseRange s bank lo n).ctrs = s.ctrs ∧
    (State.eraseRange s bank lo n).grps = s.grps ∧ (State.eraseRange s bank lo n).pwr = s.pwr ∧
    (State.eraseRange s bank lo n).thm = s.thm ∧ (State.eraseRange s bank lo n).age = s.age ∧ (State.eraseRange s bank lo n).fwu = s.fwu ∧
    (State.eraseRange s bank lo n).glb = s.glb ∧ (State.eraseRange s bank lo n).sb = s.sb := by
  have w1 := @State.wipeSector_still; have w2 := @State.cnvCnt_still; have wf := @foldl_parts
  simp [State.eraseRange, w1, w2, wf]
theorem State.programRange_still (s : State) (bank off : Nat) (data : List Byte) :
    (State.programRange s bank off data).pending = s.pending ∧ (State.programRange s bank off data).free = s.free ∧
    (State.programRange s bank off data).host = s.host ∧ (State.programRange s bank off data).epoch = s.epoch ∧
    (State.programRange s bank off data).pat = s.pat ∧ (State.programRange s bank off data).isl = s.isl ∧
    (State.programRange s bank off data).routes = s.routes ∧ (State.programRange s bank off data).dramMargin = s.dramMargin ∧
    (State.programRange s bank off data).ports = s.ports ∧ (State.programRange s bank off data).trickle = s.trickle ∧
    (State.programRange s bank off data).cmd = s.cmd ∧ (State.programRange s bank off data).zon = s.zon ∧
    (State.programRange s bank off data).med = s.med ∧ (State.programRange s bank off data).mlf = s.mlf ∧
    (State.programRange s bank off data).cpx = s.cpx ∧ (State.programRange s bank off data).wvf = s.wvf ∧
    (State.programRange s bank off data).bpm = s.bpm ∧ (State.programRange s bank off data).sli = s.sli ∧
    (State.programRange s bank off data).sec = s.sec ∧ (State.programRange s bank off data).mic = s.mic ∧
    (State.programRange s bank off data).flt = s.flt ∧ (State.programRange s bank off data).ctrs = s.ctrs ∧
    (State.programRange s bank off data).grps = s.grps ∧ (State.programRange s bank off data).pwr = s.pwr ∧
    (State.programRange s bank off data).thm = s.thm ∧ (State.programRange s bank off data).age = s.age ∧
    (State.programRange s bank off data).fwu = s.fwu ∧ (State.programRange s bank off data).glb = s.glb ∧
    (State.programRange s bank off data).sb = s.sb := by
  have w1 := @State.setSect_still; have w2 := @State.cnvCnt_still; have wf := @foldl_parts
  simp [State.programRange, w1, w2, wf]
theorem State.setFwSlot_still (s : State) (i : Nat) (v : FwSlot) :
    (State.setFwSlot s i v).pending = s.pending ∧ (State.setFwSlot s i v).free = s.free ∧ (State.setFwSlot s i v).host = s.host ∧
    (State.setFwSlot s i v).epoch = s.epoch ∧ (State.setFwSlot s i v).pat = s.pat ∧ (State.setFwSlot s i v).isl = s.isl ∧
    (State.setFwSlot s i v).routes = s.routes ∧ (State.setFwSlot s i v).dramMargin = s.dramMargin ∧
    (State.setFwSlot s i v).ports = s.ports ∧ (State.setFwSlot s i v).trickle = s.trickle ∧ (State.setFwSlot s i v).cmd = s.cmd ∧
    (State.setFwSlot s i v).zon = s.zon ∧ (State.setFwSlot s i v).med = s.med ∧ (State.setFwSlot s i v).mlf = s.mlf ∧
    (State.setFwSlot s i v).cpx = s.cpx ∧ (State.setFwSlot s i v).wvf = s.wvf ∧ (State.setFwSlot s i v).bpm = s.bpm ∧
    (State.setFwSlot s i v).sli = s.sli ∧ (State.setFwSlot s i v).sec = s.sec ∧ (State.setFwSlot s i v).mic = s.mic ∧
    (State.setFwSlot s i v).flt = s.flt ∧ (State.setFwSlot s i v).ctrs = s.ctrs ∧ (State.setFwSlot s i v).grps = s.grps ∧
    (State.setFwSlot s i v).pwr = s.pwr ∧ (State.setFwSlot s i v).thm = s.thm ∧ (State.setFwSlot s i v).age = s.age ∧
    (State.setFwSlot s i v).cnv = s.cnv ∧ (State.setFwSlot s i v).glb = s.glb ∧ (State.setFwSlot s i v).sb = s.sb := by
  simp [State.setFwSlot]
theorem State.modFwSlot_still (s : State) (i : Nat) (f : FwSlot → FwSlot) :
    (State.modFwSlot s i f).pending = s.pending ∧ (State.modFwSlot s i f).free = s.free ∧ (State.modFwSlot s i f).host = s.host ∧
    (State.modFwSlot s i f).epoch = s.epoch ∧ (State.modFwSlot s i f).pat = s.pat ∧ (State.modFwSlot s i f).isl = s.isl ∧
    (State.modFwSlot s i f).routes = s.routes ∧ (State.modFwSlot s i f).dramMargin = s.dramMargin ∧
    (State.modFwSlot s i f).ports = s.ports ∧ (State.modFwSlot s i f).trickle = s.trickle ∧ (State.modFwSlot s i f).cmd = s.cmd ∧
    (State.modFwSlot s i f).zon = s.zon ∧ (State.modFwSlot s i f).med = s.med ∧ (State.modFwSlot s i f).mlf = s.mlf ∧
    (State.modFwSlot s i f).cpx = s.cpx ∧ (State.modFwSlot s i f).wvf = s.wvf ∧ (State.modFwSlot s i f).bpm = s.bpm ∧
    (State.modFwSlot s i f).sli = s.sli ∧ (State.modFwSlot s i f).sec = s.sec ∧ (State.modFwSlot s i f).mic = s.mic ∧
    (State.modFwSlot s i f).flt = s.flt ∧ (State.modFwSlot s i f).ctrs = s.ctrs ∧ (State.modFwSlot s i f).grps = s.grps ∧
    (State.modFwSlot s i f).pwr = s.pwr ∧ (State.modFwSlot s i f).thm = s.thm ∧ (State.modFwSlot s i f).age = s.age ∧
    (State.modFwSlot s i f).cnv = s.cnv ∧ (State.modFwSlot s i f).glb = s.glb ∧ (State.modFwSlot s i f).sb = s.sb := by
  have w1 := @State.setFwSlot_still
  simp [State.modFwSlot, w1]
theorem State.spoilSlot_still (s : State) (i : Nat) :
    (State.spoilSlot s i).pending = s.pending ∧ (State.spoilSlot s i).free = s.free ∧ (State.spoilSlot s i).host = s.host ∧
    (State.spoilSlot s i).epoch = s.epoch ∧ (State.spoilSlot s i).pat = s.pat ∧ (State.spoilSlot s i).isl = s.isl ∧
    (State.spoilSlot s i).routes = s.routes ∧ (State.spoilSlot s i).dramMargin = s.dramMargin ∧ (State.spoilSlot s i).ports = s.ports ∧
    (State.spoilSlot s i).trickle = s.trickle ∧ (State.spoilSlot s i).cmd = s.cmd ∧ (State.spoilSlot s i).zon = s.zon ∧
    (State.spoilSlot s i).med = s.med ∧ (State.spoilSlot s i).mlf = s.mlf ∧ (State.spoilSlot s i).cpx = s.cpx ∧
    (State.spoilSlot s i).wvf = s.wvf ∧ (State.spoilSlot s i).bpm = s.bpm ∧ (State.spoilSlot s i).sli = s.sli ∧
    (State.spoilSlot s i).sec = s.sec ∧ (State.spoilSlot s i).mic = s.mic ∧ (State.spoilSlot s i).flt = s.flt ∧
    (State.spoilSlot s i).ctrs = s.ctrs ∧ (State.spoilSlot s i).grps = s.grps ∧ (State.spoilSlot s i).pwr = s.pwr ∧
    (State.spoilSlot s i).thm = s.thm ∧ (State.spoilSlot s i).age = s.age ∧ (State.spoilSlot s i).cnv = s.cnv ∧
    (State.spoilSlot s i).glb = s.glb ∧ (State.spoilSlot s i).sb = s.sb := by
  have w1 := @State.modFwSlot_still
  simp [State.spoilSlot, w1]
theorem State.unlockFwu_still (s : State) :
    (State.unlockFwu s).pending = s.pending ∧ (State.unlockFwu s).free = s.free ∧ (State.unlockFwu s).host = s.host ∧
    (State.unlockFwu s).epoch = s.epoch ∧ (State.unlockFwu s).pat = s.pat ∧ (State.unlockFwu s).isl = s.isl ∧
    (State.unlockFwu s).routes = s.routes ∧ (State.unlockFwu s).dramMargin = s.dramMargin ∧ (State.unlockFwu s).ports = s.ports ∧
    (State.unlockFwu s).trickle = s.trickle ∧ (State.unlockFwu s).cmd = s.cmd ∧ (State.unlockFwu s).zon = s.zon ∧
    (State.unlockFwu s).med = s.med ∧ (State.unlockFwu s).mlf = s.mlf ∧ (State.unlockFwu s).cpx = s.cpx ∧ (State.unlockFwu s).wvf = s.wvf ∧
    (State.unlockFwu s).bpm = s.bpm ∧ (State.unlockFwu s).sli = s.sli ∧ (State.unlockFwu s).sec = s.sec ∧ (State.unlockFwu s).mic = s.mic ∧
    (State.unlockFwu s).flt = s.flt ∧ (State.unlockFwu s).ctrs = s.ctrs ∧ (State.unlockFwu s).grps = s.grps ∧
    (State.unlockFwu s).pwr = s.pwr ∧ (State.unlockFwu s).thm = s.thm ∧ (State.unlockFwu s).age = s.age ∧ (State.unlockFwu s).cnv = s.cnv ∧
    (State.unlockFwu s).glb = s.glb ∧ (State.unlockFwu s).sb = s.sb := by
  simp [State.unlockFwu]
theorem State.runImage_still (s : State) (i : Nat) :
    (State.runImage s i).pending = s.pending ∧ (State.runImage s i).free = s.free ∧ (State.runImage s i).host = s.host ∧
    (State.runImage s i).epoch = s.epoch ∧ (State.runImage s i).pat = s.pat ∧ (State.runImage s i).isl = s.isl ∧
    (State.runImage s i).routes = s.routes ∧ (State.runImage s i).dramMargin = s.dramMargin ∧ (State.runImage s i).ports = s.ports ∧
    (State.runImage s i).trickle = s.trickle ∧ (State.runImage s i).cmd = s.cmd ∧ (State.runImage s i).zon = s.zon ∧
    (State.runImage s i).med = s.med ∧ (State.runImage s i).mlf = s.mlf ∧ (State.runImage s i).cpx = s.cpx ∧
    (State.runImage s i).wvf = s.wvf ∧ (State.runImage s i).bpm = s.bpm ∧ (State.runImage s i).sli = s.sli ∧
    (State.runImage s i).sec = s.sec ∧ (State.runImage s i).mic = s.mic ∧ (State.runImage s i).flt = s.flt ∧
    (State.runImage s i).ctrs = s.ctrs ∧ (State.runImage s i).grps = s.grps ∧ (State.runImage s i).pwr = s.pwr ∧
    (State.runImage s i).thm = s.thm ∧ (State.runImage s i).age = s.age ∧ (State.runImage s i).cnv = s.cnv ∧
    (State.runImage s i).glb = s.glb ∧ (State.runImage s i).sb = s.sb := by
  simp [State.runImage]
theorem State.undrain_still (s : State) :
    (State.undrain s).pending = s.pending ∧ (State.undrain s).free = s.free ∧ (State.undrain s).host = s.host ∧
    (State.undrain s).epoch = s.epoch ∧ (State.undrain s).pat = s.pat ∧ (State.undrain s).isl = s.isl ∧
    (State.undrain s).dramMargin = s.dramMargin ∧ (State.undrain s).ports = s.ports ∧ (State.undrain s).trickle = s.trickle ∧
    (State.undrain s).cmd = s.cmd ∧ (State.undrain s).zon = s.zon ∧ (State.undrain s).med = s.med ∧ (State.undrain s).mlf = s.mlf ∧
    (State.undrain s).cpx = s.cpx ∧ (State.undrain s).wvf = s.wvf ∧ (State.undrain s).bpm = s.bpm ∧ (State.undrain s).sli = s.sli ∧
    (State.undrain s).sec = s.sec ∧ (State.undrain s).mic = s.mic ∧ (State.undrain s).flt = s.flt ∧ (State.undrain s).ctrs = s.ctrs ∧
    (State.undrain s).grps = s.grps ∧ (State.undrain s).pwr = s.pwr ∧ (State.undrain s).thm = s.thm ∧ (State.undrain s).age = s.age ∧
    (State.undrain s).cnv = s.cnv ∧ (State.undrain s).fwu = s.fwu ∧ (State.undrain s).glb = s.glb ∧ (State.undrain s).sb = s.sb := by
  have w1 := @State.modRoute_still; have wf := @foldl_parts; have wi := @ite_parts
  simp [State.undrain, w1, wf, wi]
theorem State.endReload_still (s : State) (phase ord : Nat) (o : Outc) :
    (State.endReload s phase ord o).pending = s.pending ∧ (State.endReload s phase ord o).free = s.free ∧
    (State.endReload s phase ord o).epoch = s.epoch ∧ (State.endReload s phase ord o).isl = s.isl ∧
    (State.endReload s phase ord o).dramMargin = s.dramMargin ∧ (State.endReload s phase ord o).ports = s.ports ∧
    (State.endReload s phase ord o).trickle = s.trickle ∧ (State.endReload s phase ord o).zon = s.zon ∧
    (State.endReload s phase ord o).med = s.med ∧ (State.endReload s phase ord o).mlf = s.mlf ∧
    (State.endReload s phase ord o).cpx = s.cpx ∧ (State.endReload s phase ord o).wvf = s.wvf ∧
    (State.endReload s phase ord o).bpm = s.bpm ∧ (State.endReload s phase ord o).sli = s.sli ∧
    (State.endReload s phase ord o).sec = s.sec ∧ (State.endReload s phase ord o).mic = s.mic ∧
    (State.endReload s phase ord o).flt = s.flt ∧ (State.endReload s phase ord o).ctrs = s.ctrs ∧
    (State.endReload s phase ord o).grps = s.grps ∧ (State.endReload s phase ord o).pwr = s.pwr ∧
    (State.endReload s phase ord o).thm = s.thm ∧ (State.endReload s phase ord o).age = s.age ∧
    (State.endReload s phase ord o).cnv = s.cnv ∧ (State.endReload s phase ord o).fwu = s.fwu ∧ (State.endReload s phase ord o).glb = s.glb := by
  have w1 := @State.answer_still; have w2 := @State.undrain_still
  unfold State.endReload; dsimp only; repeat' split
  all_goals simp [*]
theorem State.failReload_still (s : State) (ord : Nat) :
    (State.failReload s ord).pending = s.pending ∧ (State.failReload s ord).free = s.free ∧ (State.failReload s ord).epoch = s.epoch ∧
    (State.failReload s ord).isl = s.isl ∧ (State.failReload s ord).dramMargin = s.dramMargin ∧ (State.failReload s ord).ports = s.ports ∧
    (State.failReload s ord).trickle = s.trickle ∧ (State.failReload s ord).zon = s.zon ∧ (State.failReload s ord).med = s.med ∧
    (State.failReload s ord).mlf = s.mlf ∧ (State.failReload s ord).cpx = s.cpx ∧ (State.failReload s ord).wvf = s.wvf ∧
    (State.failReload s ord).bpm = s.bpm ∧ (State.failReload s ord).sli = s.sli ∧ (State.failReload s ord).sec = s.sec ∧
    (State.failReload s ord).mic = s.mic ∧ (State.failReload s ord).flt = s.flt ∧ (State.failReload s ord).ctrs = s.ctrs ∧
    (State.failReload s ord).grps = s.grps ∧ (State.failReload s ord).pwr = s.pwr ∧ (State.failReload s ord).thm = s.thm ∧
    (State.failReload s ord).age = s.age ∧ (State.failReload s ord).cnv = s.cnv ∧ (State.failReload s ord).fwu = s.fwu ∧
    (State.failReload s ord).glb = s.glb := by
  have w1 := @State.endReload_still
  simp [State.failReload, w1]
theorem State.tryActivate_still (s : State) :
    (State.tryActivate s).pending = s.pending ∧ (State.tryActivate s).free = s.free ∧ (State.tryActivate s).epoch = s.epoch ∧
    (State.tryActivate s).pat = s.pat ∧ (State.tryActivate s).isl = s.isl ∧ (State.tryActivate s).routes = s.routes ∧
    (State.tryActivate s).dramMargin = s.dramMargin ∧ (State.tryActivate s).ports = s.ports ∧ (State.tryActivate s).trickle = s.trickle ∧
    (State.tryActivate s).zon = s.zon ∧ (State.tryActivate s).med = s.med ∧ (State.tryActivate s).mlf = s.mlf ∧
    (State.tryActivate s).cpx = s.cpx ∧ (State.tryActivate s).wvf = s.wvf ∧ (State.tryActivate s).bpm = s.bpm ∧
    (State.tryActivate s).sli = s.sli ∧ (State.tryActivate s).sec = s.sec ∧ (State.tryActivate s).mic = s.mic ∧
    (State.tryActivate s).flt = s.flt ∧ (State.tryActivate s).ctrs = s.ctrs ∧ (State.tryActivate s).grps = s.grps ∧
    (State.tryActivate s).pwr = s.pwr ∧ (State.tryActivate s).thm = s.thm ∧ (State.tryActivate s).age = s.age ∧
    (State.tryActivate s).cnv = s.cnv ∧ (State.tryActivate s).glb = s.glb := by
  have w1 := @State.answer_still; have w2 := @State.runImage_still; have w3 := @State.unlockFwu_still
  unfold State.tryActivate; repeat' split
  all_goals simp [*]
theorem State.dropActivation_still (s : State) (o : Outc) :
    (State.dropActivation s o).pending = s.pending ∧ (State.dropActivation s o).free = s.free ∧
    (State.dropActivation s o).epoch = s.epoch ∧ (State.dropActivation s o).pat = s.pat ∧ (State.dropActivation s o).isl = s.isl ∧
    (State.dropActivation s o).routes = s.routes ∧ (State.dropActivation s o).dramMargin = s.dramMargin ∧
    (State.dropActivation s o).ports = s.ports ∧ (State.dropActivation s o).trickle = s.trickle ∧ (State.dropActivation s o).zon = s.zon ∧
    (State.dropActivation s o).med = s.med ∧ (State.dropActivation s o).mlf = s.mlf ∧ (State.dropActivation s o).cpx = s.cpx ∧
    (State.dropActivation s o).wvf = s.wvf ∧ (State.dropActivation s o).bpm = s.bpm ∧ (State.dropActivation s o).sli = s.sli ∧
    (State.dropActivation s o).sec = s.sec ∧ (State.dropActivation s o).mic = s.mic ∧ (State.dropActivation s o).flt = s.flt ∧
    (State.dropActivation s o).ctrs = s.ctrs ∧ (State.dropActivation s o).grps = s.grps ∧ (State.dropActivation s o).pwr = s.pwr ∧
    (State.dropActivation s o).thm = s.thm ∧ (State.dropActivation s o).age = s.age ∧ (State.dropActivation s o).cnv = s.cnv ∧
    (State.dropActivation s o).glb = s.glb := by
  have w1 := @State.answer_still
  unfold State.dropActivation; repeat' split
  all_goals simp [*]
theorem State.setUnit_still (s : State) (c u : Nat) (f : CUnit → CUnit) :
    (State.setUnit s c u f).pending = s.pending ∧ (State.setUnit s c u f).free = s.free ∧ (State.setUnit s c u f).host = s.host ∧
    (State.setUnit s c u f).epoch = s.epoch ∧ (State.setUnit s c u f).pat = s.pat ∧ (State.setUnit s c u f).isl = s.isl ∧
    (State.setUnit s c u f).routes = s.routes ∧ (State.setUnit s c u f).dramMargin = s.dramMargin ∧
    (State.setUnit s c u f).ports = s.ports ∧ (State.setUnit s c u f).trickle = s.trickle ∧ (State.setUnit s c u f).zon = s.zon ∧
    (State.setUnit s c u f).med = s.med ∧ (State.setUnit s c u f).mlf = s.mlf ∧ (State.setUnit s c u f).cpx = s.cpx ∧
    (State.setUnit s c u f).wvf = s.wvf ∧ (State.setUnit s c u f).bpm = s.bpm ∧ (State.setUnit s c u f).sli = s.sli ∧
    (State.setUnit s c u f).sec = s.sec ∧ (State.setUnit s c u f).mic = s.mic ∧ (State.setUnit s c u f).flt = s.flt ∧
    (State.setUnit s c u f).ctrs = s.ctrs ∧ (State.setUnit s c u f).grps = s.grps ∧ (State.setUnit s c u f).pwr = s.pwr ∧
    (State.setUnit s c u f).thm = s.thm ∧ (State.setUnit s c u f).age = s.age ∧ (State.setUnit s c u f).cnv = s.cnv ∧
    (State.setUnit s c u f).fwu = s.fwu ∧ (State.setUnit s c u f).glb = s.glb ∧ (State.setUnit s c u f).sb = s.sb := by
  have w1 := @State.modCtx_still
  simp [State.setUnit, w1]
theorem State.giveCmd_still (s : State) (c u : Nat) (g : Got) (buf : Option Nat) :
    (State.giveCmd s c u g buf).pending = s.pending ∧ (State.giveCmd s c u g buf).free = s.free ∧
    (State.giveCmd s c u g buf).host = s.host ∧ (State.giveCmd s c u g buf).epoch = s.epoch ∧ (State.giveCmd s c u g buf).pat = s.pat ∧
    (State.giveCmd s c u g buf).isl = s.isl ∧ (State.giveCmd s c u g buf).routes = s.routes ∧
    (State.giveCmd s c u g buf).dramMargin = s.dramMargin ∧ (State.giveCmd s c u g buf).ports = s.ports ∧
    (State.giveCmd s c u g buf).trickle = s.trickle ∧ (State.giveCmd s c u g buf).zon = s.zon ∧ (State.giveCmd s c u g buf).med = s.med ∧
    (State.giveCmd s c u g buf).mlf = s.mlf ∧ (State.giveCmd s c u g buf).cpx = s.cpx ∧ (State.giveCmd s c u g buf).wvf = s.wvf ∧
    (State.giveCmd s c u g buf).bpm = s.bpm ∧ (State.giveCmd s c u g buf).sli = s.sli ∧ (State.giveCmd s c u g buf).sec = s.sec ∧
    (State.giveCmd s c u g buf).mic = s.mic ∧ (State.giveCmd s c u g buf).flt = s.flt ∧ (State.giveCmd s c u g buf).ctrs = s.ctrs ∧
    (State.giveCmd s c u g buf).grps = s.grps ∧ (State.giveCmd s c u g buf).pwr = s.pwr ∧ (State.giveCmd s c u g buf).thm = s.thm ∧
    (State.giveCmd s c u g buf).age = s.age ∧ (State.giveCmd s c u g buf).cnv = s.cnv ∧ (State.giveCmd s c u g buf).fwu = s.fwu ∧
    (State.giveCmd s c u g buf).glb = s.glb ∧ (State.giveCmd s c u g buf).sb = s.sb := by
  have w1 := @State.setUnit_still; have w2 := @State.modCtx_still
  simp [State.giveCmd, w1, w2]
theorem State.failUnit_still (s : State) (c u : Nat) (v : StatusVal) :
    (State.failUnit s c u v).pending = s.pending ∧ (State.failUnit s c u v).free = s.free ∧ (State.failUnit s c u v).host = s.host ∧
    (State.failUnit s c u v).epoch = s.epoch ∧ (State.failUnit s c u v).pat = s.pat ∧ (State.failUnit s c u v).isl = s.isl ∧
    (State.failUnit s c u v).routes = s.routes ∧ (State.failUnit s c u v).dramMargin = s.dramMargin ∧
    (State.failUnit s c u v).ports = s.ports ∧ (State.failUnit s c u v).trickle = s.trickle ∧ (State.failUnit s c u v).zon = s.zon ∧
    (State.failUnit s c u v).med = s.med ∧ (State.failUnit s c u v).mlf = s.mlf ∧ (State.failUnit s c u v).cpx = s.cpx ∧
    (State.failUnit s c u v).wvf = s.wvf ∧ (State.failUnit s c u v).bpm = s.bpm ∧ (State.failUnit s c u v).sli = s.sli ∧
    (State.failUnit s c u v).sec = s.sec ∧ (State.failUnit s c u v).mic = s.mic ∧ (State.failUnit s c u v).flt = s.flt ∧
    (State.failUnit s c u v).ctrs = s.ctrs ∧ (State.failUnit s c u v).grps = s.grps ∧ (State.failUnit s c u v).pwr = s.pwr ∧
    (State.failUnit s c u v).thm = s.thm ∧ (State.failUnit s c u v).age = s.age ∧ (State.failUnit s c u v).cnv = s.cnv ∧
    (State.failUnit s c u v).fwu = s.fwu ∧ (State.failUnit s c u v).glb = s.glb ∧ (State.failUnit s c u v).sb = s.sb := by
  have w1 := @State.setUnit_still
  simp [State.failUnit, w1]
theorem State.unissue_still (s : State) (c u tag : Nat) :
    (State.unissue s c u tag).pending = s.pending ∧ (State.unissue s c u tag).free = s.free ∧ (State.unissue s c u tag).host = s.host ∧
    (State.unissue s c u tag).epoch = s.epoch ∧ (State.unissue s c u tag).pat = s.pat ∧ (State.unissue s c u tag).isl = s.isl ∧
    (State.unissue s c u tag).routes = s.routes ∧ (State.unissue s c u tag).dramMargin = s.dramMargin ∧
    (State.unissue s c u tag).ports = s.ports ∧ (State.unissue s c u tag).trickle = s.trickle ∧ (State.unissue s c u tag).zon = s.zon ∧
    (State.unissue s c u tag).med = s.med ∧ (State.unissue s c u tag).mlf = s.mlf ∧ (State.unissue s c u tag).cpx = s.cpx ∧
    (State.unissue s c u tag).wvf = s.wvf ∧ (State.unissue s c u tag).bpm = s.bpm ∧ (State.unissue s c u tag).sli = s.sli ∧
    (State.unissue s c u tag).sec = s.sec ∧ (State.unissue s c u tag).mic = s.mic ∧ (State.unissue s c u tag).flt = s.flt ∧
    (State.unissue s c u tag).ctrs = s.ctrs ∧ (State.unissue s c u tag).grps = s.grps ∧ (State.unissue s c u tag).pwr = s.pwr ∧
    (State.unissue s c u tag).thm = s.thm ∧ (State.unissue s c u tag).age = s.age ∧ (State.unissue s c u tag).cnv = s.cnv ∧
    (State.unissue s c u tag).fwu = s.fwu ∧ (State.unissue s c u tag).glb = s.glb ∧ (State.unissue s c u tag).sb = s.sb := by
  have w1 := @State.setUnit_still
  unfold State.unissue; repeat' split
  all_goals simp [*]
theorem State.freeBuf_still (s : State) (b : Option Nat) :
    (State.freeBuf s b).pending = s.pending ∧ (State.freeBuf s b).free = s.free ∧ (State.freeBuf s b).host = s.host ∧
    (State.freeBuf s b).epoch = s.epoch ∧ (State.freeBuf s b).pat = s.pat ∧ (State.freeBuf s b).isl = s.isl ∧
    (State.freeBuf s b).routes = s.routes ∧ (State.freeBuf s b).dramMargin = s.dramMargin ∧ (State.freeBuf s b).ports = s.ports ∧
    (State.freeBuf s b).trickle = s.trickle ∧ (State.freeBuf s b).zon = s.zon ∧ (State.freeBuf s b).med = s.med ∧
    (State.freeBuf s b).mlf = s.mlf ∧ (State.freeBuf s b).wvf = s.wvf ∧ (State.freeBuf s b).sli = s.sli ∧ (State.freeBuf s b).sec = s.sec ∧
    (State.freeBuf s b).ctrs = s.ctrs ∧ (State.freeBuf s b).grps = s.grps ∧ (State.freeBuf s b).pwr = s.pwr ∧
    (State.freeBuf s b).thm = s.thm ∧ (State.freeBuf s b).age = s.age ∧ (State.freeBuf s b).cnv = s.cnv ∧ (State.freeBuf s b).fwu = s.fwu ∧
    (State.freeBuf s b).glb = s.glb ∧ (State.freeBuf s b).sb = s.sb := by
  have w1 := @State.freeAll_still
  simp [State.freeBuf, w1]
theorem State.budget_still (s : State) (d deadline slice : Nat) :
    (State.budget s d deadline slice).pending = s.pending ∧ (State.budget s d deadline slice).free = s.free ∧
    (State.budget s d deadline slice).host = s.host ∧ (State.budget s d deadline slice).epoch = s.epoch ∧
    (State.budget s d deadline slice).pat = s.pat ∧ (State.budget s d deadline slice).isl = s.isl ∧
    (State.budget s d deadline slice).routes = s.routes ∧ (State.budget s d deadline slice).dramMargin = s.dramMargin ∧
    (State.budget s d deadline slice).ports = s.ports ∧ (State.budget s d deadline slice).trickle = s.trickle ∧
    (State.budget s d deadline slice).cmd = s.cmd ∧ (State.budget s d deadline slice).zon = s.zon ∧
    (State.budget s d deadline slice).mlf = s.mlf ∧ (State.budget s d deadline slice).cpx = s.cpx ∧
    (State.budget s d deadline slice).wvf = s.wvf ∧ (State.budget s d deadline slice).bpm = s.bpm ∧
    (State.budget s d deadline slice).sec = s.sec ∧ (State.budget s d deadline slice).mic = s.mic ∧
    (State.budget s d deadline slice).flt = s.flt ∧ (State.budget s d deadline slice).ctrs = s.ctrs ∧
    (State.budget s d deadline slice).grps = s.grps ∧ (State.budget s d deadline slice).pwr = s.pwr ∧
    (State.budget s d deadline slice).thm = s.thm ∧ (State.budget s d deadline slice).age = s.age ∧
    (State.budget s d deadline slice).cnv = s.cnv ∧ (State.budget s d deadline slice).fwu = s.fwu ∧
    (State.budget s d deadline slice).glb = s.glb ∧ (State.budget s d deadline slice).sb = s.sb := by
  have w1 := @State.clCnt_still; have w2 := @State.modDie_still; have w3 := @State.modSli_still; have wi := @ite_parts
  simp [State.budget, w1, w2, w3, wi]
theorem State.cometLand_still (s : State) (id serial k : Nat) (data : Option Block) :
    (State.cometLand s id serial k data).pending = s.pending ∧ (State.cometLand s id serial k data).free = s.free ∧
    (State.cometLand s id serial k data).host = s.host ∧ (State.cometLand s id serial k data).epoch = s.epoch ∧
    (State.cometLand s id serial k data).pat = s.pat ∧ (State.cometLand s id serial k data).isl = s.isl ∧
    (State.cometLand s id serial k data).routes = s.routes ∧ (State.cometLand s id serial k data).dramMargin = s.dramMargin ∧
    (State.cometLand s id serial k data).ports = s.ports ∧ (State.cometLand s id serial k data).trickle = s.trickle ∧
    (State.cometLand s id serial k data).zon = s.zon ∧ (State.cometLand s id serial k data).med = s.med ∧
    (State.cometLand s id serial k data).mlf = s.mlf ∧ (State.cometLand s id serial k data).cpx = s.cpx ∧
    (State.cometLand s id serial k data).wvf = s.wvf ∧ (State.cometLand s id serial k data).bpm = s.bpm ∧
    (State.cometLand s id serial k data).sli = s.sli ∧ (State.cometLand s id serial k data).sec = s.sec ∧
    (State.cometLand s id serial k data).mic = s.mic ∧ (State.cometLand s id serial k data).flt = s.flt ∧
    (State.cometLand s id serial k data).ctrs = s.ctrs ∧ (State.cometLand s id serial k data).grps = s.grps ∧
    (State.cometLand s id serial k data).pwr = s.pwr ∧ (State.cometLand s id serial k data).thm = s.thm ∧
    (State.cometLand s id serial k data).age = s.age ∧ (State.cometLand s id serial k data).cnv = s.cnv ∧
    (State.cometLand s id serial k data).fwu = s.fwu ∧ (State.cometLand s id serial k data).glb = s.glb ∧
    (State.cometLand s id serial k data).sb = s.sb := by
  have wi := @ite_parts
  unfold State.cometLand; repeat' split
  all_goals simp [*]
theorem State.setEcl_still (s : State) (r : Rdr) (k : Nat) (f : Ecl → Option Ecl) :
    (State.setEcl s r k f).pending = s.pending ∧ (State.setEcl s r k f).free = s.free ∧ (State.setEcl s r k f).host = s.host ∧
    (State.setEcl s r k f).epoch = s.epoch ∧ (State.setEcl s r k f).pat = s.pat ∧ (State.setEcl s r k f).isl = s.isl ∧
    (State.setEcl s r k f).routes = s.routes ∧ (State.setEcl s r k f).dramMargin = s.dramMargin ∧ (State.setEcl s r k f).ports = s.ports ∧
    (State.setEcl s r k f).trickle = s.trickle ∧ (State.setEcl s r k f).cmd = s.cmd ∧ (State.setEcl s r k f).zon = s.zon ∧
    (State.setEcl s r k f).mlf = s.mlf ∧ (State.setEcl s r k f).cpx = s.cpx ∧ (State.setEcl s r k f).wvf = s.wvf ∧
    (State.setEcl s r k f).bpm = s.bpm ∧ (State.setEcl s r k f).sli = s.sli ∧ (State.setEcl s r k f).sec = s.sec ∧
    (State.setEcl s r k f).mic = s.mic ∧ (State.setEcl s r k f).flt = s.flt ∧ (State.setEcl s r k f).ctrs = s.ctrs ∧
    (State.setEcl s r k f).grps = s.grps ∧ (State.setEcl s r k f).pwr = s.pwr ∧ (State.setEcl s r k f).thm = s.thm ∧
    (State.setEcl s r k f).age = s.age ∧ (State.setEcl s r k f).cnv = s.cnv ∧ (State.setEcl s r k f).fwu = s.fwu ∧
    (State.setEcl s r k f).glb = s.glb ∧ (State.setEcl s r k f).sb = s.sb := by
  simp [State.setEcl]
theorem State.startEcl_still (s : State) (o : DieOp) (r : Rdr) (why fall : Nat) :
    (State.startEcl s o r why fall).pending = s.pending ∧ (State.startEcl s o r why fall).free = s.free ∧
    (State.startEcl s o r why fall).host = s.host ∧ (State.startEcl s o r why fall).epoch = s.epoch ∧
    (State.startEcl s o r why fall).pat = s.pat ∧ (State.startEcl s o r why fall).routes = s.routes ∧
    (State.startEcl s o r why fall).dramMargin = s.dramMargin ∧ (State.startEcl s o r why fall).ports = s.ports ∧
    (State.startEcl s o r why fall).trickle = s.trickle ∧ (State.startEcl s o r why fall).cmd = s.cmd ∧
    (State.startEcl s o r why fall).zon = s.zon ∧ (State.startEcl s o r why fall).mlf = s.mlf ∧
    (State.startEcl s o r why fall).cpx = s.cpx ∧ (State.startEcl s o r why fall).wvf = s.wvf ∧
    (State.startEcl s o r why fall).bpm = s.bpm ∧ (State.startEcl s o r why fall).sec = s.sec ∧
    (State.startEcl s o r why fall).mic = s.mic ∧ (State.startEcl s o r why fall).flt = s.flt ∧
    (State.startEcl s o r why fall).ctrs = s.ctrs ∧ (State.startEcl s o r why fall).grps = s.grps ∧
    (State.startEcl s o r why fall).thm = s.thm ∧ (State.startEcl s o r why fall).age = s.age ∧
    (State.startEcl s o r why fall).cnv = s.cnv ∧ (State.startEcl s o r why fall).fwu = s.fwu ∧
    (State.startEcl s o r why fall).glb = s.glb ∧ (State.startEcl s o r why fall).sb = s.sb := by
  have w1 := @State.modClu_still; have w2 := @State.clCnt_still; have w3 := @State.enqueue_still; have wf := @foldl_parts
  have wi := @ite_parts
  simp [State.startEcl, w1, w2, w3, wf, wi]
theorem State.dropSources_still (s : State) (r : Rdr) (k : Nat) :
    (State.dropSources s r k).pending = s.pending ∧ (State.dropSources s r k).free = s.free ∧ (State.dropSources s r k).host = s.host ∧
    (State.dropSources s r k).epoch = s.epoch ∧ (State.dropSources s r k).pat = s.pat ∧ (State.dropSources s r k).isl = s.isl ∧
    (State.dropSources s r k).routes = s.routes ∧ (State.dropSources s r k).dramMargin = s.dramMargin ∧
    (State.dropSources s r k).ports = s.ports ∧ (State.dropSources s r k).trickle = s.trickle ∧ (State.dropSources s r k).cmd = s.cmd ∧
    (State.dropSources s r k).zon = s.zon ∧ (State.dropSources s r k).mlf = s.mlf ∧ (State.dropSources s r k).cpx = s.cpx ∧
    (State.dropSources s r k).wvf = s.wvf ∧ (State.dropSources s r k).bpm = s.bpm ∧ (State.dropSources s r k).sli = s.sli ∧
    (State.dropSources s r k).sec = s.sec ∧ (State.dropSources s r k).mic = s.mic ∧ (State.dropSources s r k).flt = s.flt ∧
    (State.dropSources s r k).ctrs = s.ctrs ∧ (State.dropSources s r k).grps = s.grps ∧ (State.dropSources s r k).pwr = s.pwr ∧
    (State.dropSources s r k).thm = s.thm ∧ (State.dropSources s r k).age = s.age ∧ (State.dropSources s r k).cnv = s.cnv ∧
    (State.dropSources s r k).fwu = s.fwu ∧ (State.dropSources s r k).glb = s.glb ∧ (State.dropSources s r k).sb = s.sb := by
  simp [State.dropSources]
theorem State.spareFrame_still (s : State) (c : Nat) {r : Nat × State} (e : State.spareFrame s c = some r) :
    r.2.pending = s.pending ∧ r.2.free = s.free ∧ r.2.host = s.host ∧ r.2.epoch = s.epoch ∧ r.2.pat = s.pat ∧ r.2.isl = s.isl ∧
    r.2.routes = s.routes ∧ r.2.dramMargin = s.dramMargin ∧ r.2.ports = s.ports ∧ r.2.trickle = s.trickle ∧ r.2.zon = s.zon ∧
    r.2.med = s.med ∧ r.2.mlf = s.mlf ∧ r.2.cpx = s.cpx ∧ r.2.wvf = s.wvf ∧ r.2.bpm = s.bpm ∧ r.2.sli = s.sli ∧ r.2.sec = s.sec ∧
    r.2.mic = s.mic ∧ r.2.flt = s.flt ∧ r.2.ctrs = s.ctrs ∧ r.2.grps = s.grps ∧ r.2.pwr = s.pwr ∧ r.2.thm = s.thm ∧ r.2.age = s.age ∧
    r.2.cnv = s.cnv ∧ r.2.fwu = s.fwu ∧ r.2.glb = s.glb ∧ r.2.sb = s.sb := by
  have w1 := @State.modCtx_still
  unfold State.spareFrame at e; dsimp only at e; repeat' split at e
  all_goals first | (cases e; done) | (cases e; simp_all; done)
theorem State.landingFrame_still (s : State) (c d slice : Nat) :
    (State.landingFrame s c d slice).2.pending = s.pending ∧ (State.landingFrame s c d slice).2.free = s.free ∧
    (State.landingFrame s c d slice).2.host = s.host ∧ (State.landingFrame s c d slice).2.epoch = s.epoch ∧
    (State.landingFrame s c d slice).2.pat = s.pat ∧ (State.landingFrame s c d slice).2.isl = s.isl ∧
    (State.landingFrame s c d slice).2.routes = s.routes ∧ (State.landingFrame s c d slice).2.dramMargin = s.dramMargin ∧
    (State.landingFrame s c d slice).2.ports = s.ports ∧ (State.landingFrame s c d slice).2.trickle = s.trickle ∧
    (State.landingFrame s c d slice).2.zon = s.zon ∧ (State.landingFrame s c d slice).2.med = s.med ∧
    (State.landingFrame s c d slice).2.mlf = s.mlf ∧ (State.landingFrame s c d slice).2.wvf = s.wvf ∧
    (State.landingFrame s c d slice).2.sli = s.sli ∧ (State.landingFrame s c d slice).2.sec = s.sec ∧
    (State.landingFrame s c d slice).2.mic = s.mic ∧ (State.landingFrame s c d slice).2.flt = s.flt ∧
    (State.landingFrame s c d slice).2.ctrs = s.ctrs ∧ (State.landingFrame s c d slice).2.grps = s.grps ∧
    (State.landingFrame s c d slice).2.pwr = s.pwr ∧ (State.landingFrame s c d slice).2.thm = s.thm ∧
    (State.landingFrame s c d slice).2.age = s.age ∧ (State.landingFrame s c d slice).2.cnv = s.cnv ∧
    (State.landingFrame s c d slice).2.fwu = s.fwu ∧ (State.landingFrame s c d slice).2.glb = s.glb ∧
    (State.landingFrame s c d slice).2.sb = s.sb := by
  have w1 := @State.stallFrame_still
  unfold State.landingFrame; dsimp only; split
  · rename_i q; have k := State.spareFrame_still _ _ q; dsimp only at k ⊢; simp [k]
  · split
    · rename_i q; have k := State.allocFrame_still _ _ _ _ _ q; dsimp only at k ⊢; simp [k]
    · split
      · simp
      · split
        · rename_i q; have k := State.spareFrame_still _ _ q; dsimp only at k ⊢; simp [k, w1]
        · simp [w1]
theorem State.recordDwe_still (s : State) (n cause : Nat) (lbas : List Nat) :
    (State.recordDwe s n cause lbas).pending = s.pending ∧ (State.recordDwe s n cause lbas).free = s.free ∧
    (State.recordDwe s n cause lbas).host = s.host ∧ (State.recordDwe s n cause lbas).epoch = s.epoch ∧
    (State.recordDwe s n cause lbas).pat = s.pat ∧ (State.recordDwe s n cause lbas).isl = s.isl ∧
    (State.recordDwe s n cause lbas).routes = s.routes ∧ (State.recordDwe s n cause lbas).dramMargin = s.dramMargin ∧
    (State.recordDwe s n cause lbas).ports = s.ports ∧ (State.recordDwe s n cause lbas).trickle = s.trickle ∧
    (State.recordDwe s n cause lbas).zon = s.zon ∧ (State.recordDwe s n cause lbas).med = s.med ∧
    (State.recordDwe s n cause lbas).cpx = s.cpx ∧ (State.recordDwe s n cause lbas).wvf = s.wvf ∧
    (State.recordDwe s n cause lbas).bpm = s.bpm ∧ (State.recordDwe s n cause lbas).sec = s.sec ∧
    (State.recordDwe s n cause lbas).mic = s.mic ∧ (State.recordDwe s n cause lbas).flt = s.flt ∧
    (State.recordDwe s n cause lbas).ctrs = s.ctrs ∧ (State.recordDwe s n cause lbas).grps = s.grps ∧
    (State.recordDwe s n cause lbas).pwr = s.pwr ∧ (State.recordDwe s n cause lbas).thm = s.thm ∧
    (State.recordDwe s n cause lbas).age = s.age ∧ (State.recordDwe s n cause lbas).cnv = s.cnv ∧
    (State.recordDwe s n cause lbas).fwu = s.fwu ∧ (State.recordDwe s n cause lbas).glb = s.glb ∧
    (State.recordDwe s n cause lbas).sb = s.sb := by
  have w1 := @State.lifeErr_still; have w2 := @State.modSli_still; have w3 := @State.sliceAen_still; have wf := @foldl_parts
  have wi := @ite_parts
  simp [State.recordDwe, w1, w2, w3, wf, wi]
theorem State.recordLost_still (s : State) (cause : Nat) (l : List (Nat × Nat)) :
    (State.recordLost s cause l).pending = s.pending ∧ (State.recordLost s cause l).free = s.free ∧
    (State.recordLost s cause l).host = s.host ∧ (State.recordLost s cause l).epoch = s.epoch ∧ (State.recordLost s cause l).pat = s.pat ∧
    (State.recordLost s cause l).isl = s.isl ∧ (State.recordLost s cause l).routes = s.routes ∧
    (State.recordLost s cause l).dramMargin = s.dramMargin ∧ (State.recordLost s cause l).ports = s.ports ∧
    (State.recordLost s cause l).trickle = s.trickle ∧ (State.recordLost s cause l).zon = s.zon ∧
    (State.recordLost s cause l).med = s.med ∧ (State.recordLost s cause l).cpx = s.cpx ∧ (State.recordLost s cause l).wvf = s.wvf ∧
    (State.recordLost s cause l).bpm = s.bpm ∧ (State.recordLost s cause l).sec = s.sec ∧ (State.recordLost s cause l).mic = s.mic ∧
    (State.recordLost s cause l).flt = s.flt ∧ (State.recordLost s cause l).ctrs = s.ctrs ∧ (State.recordLost s cause l).grps = s.grps ∧
    (State.recordLost s cause l).pwr = s.pwr ∧ (State.recordLost s cause l).thm = s.thm ∧ (State.recordLost s cause l).age = s.age ∧
    (State.recordLost s cause l).cnv = s.cnv ∧ (State.recordLost s cause l).fwu = s.fwu ∧ (State.recordLost s cause l).glb = s.glb ∧
    (State.recordLost s cause l).sb = s.sb := by
  have w1 := @State.recordDwe_still; have wf := @foldl_parts
  simp [State.recordLost, w1, wf]
theorem State.releaseZoneRows_still (s : State) (e : Nat) :
    (State.releaseZoneRows s e).pending = s.pending ∧ (State.releaseZoneRows s e).free = s.free ∧
    (State.releaseZoneRows s e).host = s.host ∧ (State.releaseZoneRows s e).epoch = s.epoch ∧ (State.releaseZoneRows s e).pat = s.pat ∧
    (State.releaseZoneRows s e).isl = s.isl ∧ (State.releaseZoneRows s e).routes = s.routes ∧
    (State.releaseZoneRows s e).dramMargin = s.dramMargin ∧ (State.releaseZoneRows s e).ports = s.ports ∧
    (State.releaseZoneRows s e).trickle = s.trickle ∧ (State.releaseZoneRows s e).cmd = s.cmd ∧ (State.releaseZoneRows s e).zon = s.zon ∧
    (State.releaseZoneRows s e).mlf = s.mlf ∧ (State.releaseZoneRows s e).cpx = s.cpx ∧ (State.releaseZoneRows s e).wvf = s.wvf ∧
    (State.releaseZoneRows s e).bpm = s.bpm ∧ (State.releaseZoneRows s e).sli = s.sli ∧ (State.releaseZoneRows s e).sec = s.sec ∧
    (State.releaseZoneRows s e).mic = s.mic ∧ (State.releaseZoneRows s e).flt = s.flt ∧ (State.releaseZoneRows s e).ctrs = s.ctrs ∧
    (State.releaseZoneRows s e).grps = s.grps ∧ (State.releaseZoneRows s e).pwr = s.pwr ∧ (State.releaseZoneRows s e).thm = s.thm ∧
    (State.releaseZoneRows s e).age = s.age ∧ (State.releaseZoneRows s e).cnv = s.cnv ∧ (State.releaseZoneRows s e).fwu = s.fwu ∧
    (State.releaseZoneRows s e).glb = s.glb ∧ (State.releaseZoneRows s e).sb = s.sb := by
  have w1 := @State.returnRows_still; have wf := @foldl_parts; have wi := @ite_parts
  simp [State.releaseZoneRows, w1, wf, wi]
theorem State.changeZone_still (s : State) (e : Nat) (z : ZEnt) (gen : Bool) :
    (State.changeZone s e z gen).pending = s.pending ∧ (State.changeZone s e z gen).free = s.free ∧
    (State.changeZone s e z gen).host = s.host ∧ (State.changeZone s e z gen).epoch = s.epoch ∧ (State.changeZone s e z gen).pat = s.pat ∧
    (State.changeZone s e z gen).isl = s.isl ∧ (State.changeZone s e z gen).routes = s.routes ∧
    (State.changeZone s e z gen).dramMargin = s.dramMargin ∧ (State.changeZone s e z gen).ports = s.ports ∧
    (State.changeZone s e z gen).trickle = s.trickle ∧ (State.changeZone s e z gen).mlf = s.mlf ∧
    (State.changeZone s e z gen).cpx = s.cpx ∧ (State.changeZone s e z gen).wvf = s.wvf ∧ (State.changeZone s e z gen).bpm = s.bpm ∧
    (State.changeZone s e z gen).sli = s.sli ∧ (State.changeZone s e z gen).sec = s.sec ∧ (State.changeZone s e z gen).mic = s.mic ∧
    (State.changeZone s e z gen).flt = s.flt ∧ (State.changeZone s e z gen).ctrs = s.ctrs ∧ (State.changeZone s e z gen).grps = s.grps ∧
    (State.changeZone s e z gen).pwr = s.pwr ∧ (State.changeZone s e z gen).thm = s.thm ∧ (State.changeZone s e z gen).age = s.age ∧
    (State.changeZone s e z gen).cnv = s.cnv ∧ (State.changeZone s e z gen).fwu = s.fwu ∧ (State.changeZone s e z gen).glb = s.glb ∧
    (State.changeZone s e z gen).sb = s.sb := by
  have w1 := @State.setZent_still; have w2 := @State.rollback_still; have w3 := @State.reproject_still; have wi := @ite_parts
  simp [State.changeZone, w1, w2, w3, wi]
theorem State.zoneEvent_still (s : State) (e : Nat) :
    (State.zoneEvent s e).pending = s.pending ∧ (State.zoneEvent s e).free = s.free ∧ (State.zoneEvent s e).host = s.host ∧
    (State.zoneEvent s e).epoch = s.epoch ∧ (State.zoneEvent s e).pat = s.pat ∧ (State.zoneEvent s e).isl = s.isl ∧
    (State.zoneEvent s e).routes = s.routes ∧ (State.zoneEvent s e).dramMargin = s.dramMargin ∧ (State.zoneEvent s e).ports = s.ports ∧
    (State.zoneEvent s e).trickle = s.trickle ∧ (State.zoneEvent s e).med = s.med ∧ (State.zoneEvent s e).mlf = s.mlf ∧
    (State.zoneEvent s e).cpx = s.cpx ∧ (State.zoneEvent s e).wvf = s.wvf ∧ (State.zoneEvent s e).bpm = s.bpm ∧
    (State.zoneEvent s e).sli = s.sli ∧ (State.zoneEvent s e).sec = s.sec ∧ (State.zoneEvent s e).mic = s.mic ∧
    (State.zoneEvent s e).flt = s.flt ∧ (State.zoneEvent s e).ctrs = s.ctrs ∧ (State.zoneEvent s e).grps = s.grps ∧
    (State.zoneEvent s e).pwr = s.pwr ∧ (State.zoneEvent s e).thm = s.thm ∧ (State.zoneEvent s e).age = s.age ∧
    (State.zoneEvent s e).cnv = s.cnv ∧ (State.zoneEvent s e).fwu = s.fwu ∧ (State.zoneEvent s e).glb = s.glb ∧
    (State.zoneEvent s e).sb = s.sb := by
  have w1 := @State.noteZone_still
  unfold State.zoneEvent; repeat' split
  all_goals simp [*]
theorem State.padZone_still (s : State) (e : Nat) :
    (State.padZone s e).pending = s.pending ∧ (State.padZone s e).free = s.free ∧ (State.padZone s e).host = s.host ∧
    (State.padZone s e).epoch = s.epoch ∧ (State.padZone s e).pat = s.pat ∧ (State.padZone s e).isl = s.isl ∧
    (State.padZone s e).routes = s.routes ∧ (State.padZone s e).dramMargin = s.dramMargin ∧ (State.padZone s e).ports = s.ports ∧
    (State.padZone s e).trickle = s.trickle ∧ (State.padZone s e).cmd = s.cmd ∧ (State.padZone s e).zon = s.zon ∧
    (State.padZone s e).mlf = s.mlf ∧ (State.padZone s e).cpx = s.cpx ∧ (State.padZone s e).wvf = s.wvf ∧ (State.padZone s e).bpm = s.bpm ∧
    (State.padZone s e).sli = s.sli ∧ (State.padZone s e).sec = s.sec ∧ (State.padZone s e).mic = s.mic ∧ (State.padZone s e).flt = s.flt ∧
    (State.padZone s e).ctrs = s.ctrs ∧ (State.padZone s e).grps = s.grps ∧ (State.padZone s e).pwr = s.pwr ∧
    (State.padZone s e).thm = s.thm ∧ (State.padZone s e).age = s.age ∧ (State.padZone s e).cnv = s.cnv ∧ (State.padZone s e).fwu = s.fwu ∧
    (State.padZone s e).glb = s.glb ∧ (State.padZone s e).sb = s.sb := by
  simp [State.padZone]
theorem State.returnUnused_still (s : State) (e used : Nat) :
    (State.returnUnused s e used).pending = s.pending ∧ (State.returnUnused s e used).free = s.free ∧
    (State.returnUnused s e used).host = s.host ∧ (State.returnUnused s e used).epoch = s.epoch ∧
    (State.returnUnused s e used).pat = s.pat ∧ (State.returnUnused s e used).isl = s.isl ∧
    (State.returnUnused s e used).routes = s.routes ∧ (State.returnUnused s e used).dramMargin = s.dramMargin ∧
    (State.returnUnused s e used).ports = s.ports ∧ (State.returnUnused s e used).trickle = s.trickle ∧
    (State.returnUnused s e used).cmd = s.cmd ∧ (State.returnUnused s e used).zon = s.zon ∧ (State.returnUnused s e used).mlf = s.mlf ∧
    (State.returnUnused s e used).cpx = s.cpx ∧ (State.returnUnused s e used).wvf = s.wvf ∧ (State.returnUnused s e used).bpm = s.bpm ∧
    (State.returnUnused s e used).sli = s.sli ∧ (State.returnUnused s e used).sec = s.sec ∧ (State.returnUnused s e used).mic = s.mic ∧
    (State.returnUnused s e used).flt = s.flt ∧ (State.returnUnused s e used).ctrs = s.ctrs ∧ (State.returnUnused s e used).grps = s.grps ∧
    (State.returnUnused s e used).pwr = s.pwr ∧ (State.returnUnused s e used).thm = s.thm ∧ (State.returnUnused s e used).age = s.age ∧
    (State.returnUnused s e used).cnv = s.cnv ∧ (State.returnUnused s e used).fwu = s.fwu ∧ (State.returnUnused s e used).glb = s.glb ∧
    (State.returnUnused s e used).sb = s.sb := by
  have w1 := @State.returnRows_still; have wf := @foldl_parts; have wi := @ite_parts
  simp [State.returnUnused, w1, wf, wi]
theorem State.ctlFinish_still (s : State) (e : Nat) (deg : Bool) :
    (State.ctlFinish s e deg).pending = s.pending ∧ (State.ctlFinish s e deg).free = s.free ∧ (State.ctlFinish s e deg).host = s.host ∧
    (State.ctlFinish s e deg).epoch = s.epoch ∧ (State.ctlFinish s e deg).pat = s.pat ∧ (State.ctlFinish s e deg).isl = s.isl ∧
    (State.ctlFinish s e deg).routes = s.routes ∧ (State.ctlFinish s e deg).dramMargin = s.dramMargin ∧
    (State.ctlFinish s e deg).ports = s.ports ∧ (State.ctlFinish s e deg).trickle = s.trickle ∧ (State.ctlFinish s e deg).mlf = s.mlf ∧
    (State.ctlFinish s e deg).cpx = s.cpx ∧ (State.ctlFinish s e deg).wvf = s.wvf ∧ (State.ctlFinish s e deg).bpm = s.bpm ∧
    (State.ctlFinish s e deg).sli = s.sli ∧ (State.ctlFinish s e deg).sec = s.sec ∧ (State.ctlFinish s e deg).mic = s.mic ∧
    (State.ctlFinish s e deg).flt = s.flt ∧ (State.ctlFinish s e deg).ctrs = s.ctrs ∧ (State.ctlFinish s e deg).grps = s.grps ∧
    (State.ctlFinish s e deg).pwr = s.pwr ∧ (State.ctlFinish s e deg).thm = s.thm ∧ (State.ctlFinish s e deg).age = s.age ∧
    (State.ctlFinish s e deg).cnv = s.cnv ∧ (State.ctlFinish s e deg).fwu = s.fwu ∧ (State.ctlFinish s e deg).glb = s.glb ∧
    (State.ctlFinish s e deg).sb = s.sb := by
  have w1 := @State.changeZone_still; have w2 := @State.padZone_still; have w3 := @State.returnUnused_still
  have w4 := @State.modZent_still; have w5 := @State.zoneEvent_still; have wi := @ite_parts
  simp [State.ctlFinish, w1, w2, w3, w4, w5, wi]
theorem State.goOffline_still (s : State) (e : Nat) :
    (State.goOffline s e).pending = s.pending ∧ (State.goOffline s e).free = s.free ∧ (State.goOffline s e).host = s.host ∧
    (State.goOffline s e).epoch = s.epoch ∧ (State.goOffline s e).pat = s.pat ∧ (State.goOffline s e).isl = s.isl ∧
    (State.goOffline s e).routes = s.routes ∧ (State.goOffline s e).dramMargin = s.dramMargin ∧ (State.goOffline s e).ports = s.ports ∧
    (State.goOffline s e).trickle = s.trickle ∧ (State.goOffline s e).mlf = s.mlf ∧ (State.goOffline s e).cpx = s.cpx ∧
    (State.goOffline s e).wvf = s.wvf ∧ (State.goOffline s e).bpm = s.bpm ∧ (State.goOffline s e).sli = s.sli ∧
    (State.goOffline s e).sec = s.sec ∧ (State.goOffline s e).mic = s.mic ∧ (State.goOffline s e).flt = s.flt ∧
    (State.goOffline s e).ctrs = s.ctrs ∧ (State.goOffline s e).grps = s.grps ∧ (State.goOffline s e).pwr = s.pwr ∧
    (State.goOffline s e).thm = s.thm ∧ (State.goOffline s e).age = s.age ∧ (State.goOffline s e).cnv = s.cnv ∧
    (State.goOffline s e).fwu = s.fwu ∧ (State.goOffline s e).glb = s.glb ∧ (State.goOffline s e).sb = s.sb := by
  have w1 := @State.releaseZoneRows_still; have w2 := @State.changeZone_still; have w3 := @State.zoneEvent_still
  simp [State.goOffline, w1, w2, w3]
theorem State.goReadOnly_still (s : State) (e : Nat) :
    (State.goReadOnly s e).pending = s.pending ∧ (State.goReadOnly s e).free = s.free ∧ (State.goReadOnly s e).host = s.host ∧
    (State.goReadOnly s e).epoch = s.epoch ∧ (State.goReadOnly s e).pat = s.pat ∧ (State.goReadOnly s e).isl = s.isl ∧
    (State.goReadOnly s e).routes = s.routes ∧ (State.goReadOnly s e).dramMargin = s.dramMargin ∧ (State.goReadOnly s e).ports = s.ports ∧
    (State.goReadOnly s e).trickle = s.trickle ∧ (State.goReadOnly s e).mlf = s.mlf ∧ (State.goReadOnly s e).cpx = s.cpx ∧
    (State.goReadOnly s e).wvf = s.wvf ∧ (State.goReadOnly s e).bpm = s.bpm ∧ (State.goReadOnly s e).sli = s.sli ∧
    (State.goReadOnly s e).sec = s.sec ∧ (State.goReadOnly s e).mic = s.mic ∧ (State.goReadOnly s e).flt = s.flt ∧
    (State.goReadOnly s e).ctrs = s.ctrs ∧ (State.goReadOnly s e).grps = s.grps ∧ (State.goReadOnly s e).pwr = s.pwr ∧
    (State.goReadOnly s e).thm = s.thm ∧ (State.goReadOnly s e).age = s.age ∧ (State.goReadOnly s e).cnv = s.cnv ∧
    (State.goReadOnly s e).fwu = s.fwu ∧ (State.goReadOnly s e).glb = s.glb ∧ (State.goReadOnly s e).sb = s.sb := by
  have w1 := @State.changeZone_still; have w2 := @State.returnRows_still; have w3 := @State.modZent_still
  have w4 := @State.zoneEvent_still; have wi := @ite_parts
  simp [State.goReadOnly, w1, w2, w3, w4, wi]
theorem State.zoneDieGone_still (s : State) (e : Nat) :
    (State.zoneDieGone s e).pending = s.pending ∧ (State.zoneDieGone s e).free = s.free ∧ (State.zoneDieGone s e).host = s.host ∧
    (State.zoneDieGone s e).epoch = s.epoch ∧ (State.zoneDieGone s e).pat = s.pat ∧ (State.zoneDieGone s e).isl = s.isl ∧
    (State.zoneDieGone s e).routes = s.routes ∧ (State.zoneDieGone s e).dramMargin = s.dramMargin ∧
    (State.zoneDieGone s e).ports = s.ports ∧ (State.zoneDieGone s e).trickle = s.trickle ∧ (State.zoneDieGone s e).mlf = s.mlf ∧
    (State.zoneDieGone s e).cpx = s.cpx ∧ (State.zoneDieGone s e).wvf = s.wvf ∧ (State.zoneDieGone s e).bpm = s.bpm ∧
    (State.zoneDieGone s e).sli = s.sli ∧ (State.zoneDieGone s e).sec = s.sec ∧ (State.zoneDieGone s e).mic = s.mic ∧
    (State.zoneDieGone s e).flt = s.flt ∧ (State.zoneDieGone s e).ctrs = s.ctrs ∧ (State.zoneDieGone s e).grps = s.grps ∧
    (State.zoneDieGone s e).pwr = s.pwr ∧ (State.zoneDieGone s e).thm = s.thm ∧ (State.zoneDieGone s e).age = s.age ∧
    (State.zoneDieGone s e).cnv = s.cnv ∧ (State.zoneDieGone s e).fwu = s.fwu ∧ (State.zoneDieGone s e).glb = s.glb ∧
    (State.zoneDieGone s e).sb = s.sb := by
  have w1 := @State.goOffline_still; have w2 := @State.ctlFinish_still; have w3 := @State.setZent_still
  have w4 := @State.zoneEvent_still; have wi := @ite_parts
  simp [State.zoneDieGone, w1, w2, w3, w4, wi]
theorem State.critBit_still (s : State) (b info : Nat) :
    (State.critBit s b info).pending = s.pending ∧ (State.critBit s b info).free = s.free ∧ (State.critBit s b info).host = s.host ∧
    (State.critBit s b info).epoch = s.epoch ∧ (State.critBit s b info).pat = s.pat ∧ (State.critBit s b info).isl = s.isl ∧
    (State.critBit s b info).routes = s.routes ∧ (State.critBit s b info).dramMargin = s.dramMargin ∧
    (State.critBit s b info).ports = s.ports ∧ (State.critBit s b info).trickle = s.trickle ∧ (State.critBit s b info).zon = s.zon ∧
    (State.critBit s b info).med = s.med ∧ (State.critBit s b info).cpx = s.cpx ∧ (State.critBit s b info).wvf = s.wvf ∧
    (State.critBit s b info).bpm = s.bpm ∧ (State.critBit s b info).sli = s.sli ∧ (State.critBit s b info).sec = s.sec ∧
    (State.critBit s b info).mic = s.mic ∧ (State.critBit s b info).flt = s.flt ∧ (State.critBit s b info).ctrs = s.ctrs ∧
    (State.critBit s b info).grps = s.grps ∧ (State.critBit s b info).pwr = s.pwr ∧ (State.critBit s b info).thm = s.thm ∧
    (State.critBit s b info).age = s.age ∧ (State.critBit s b info).cnv = s.cnv ∧ (State.critBit s b info).fwu = s.fwu ∧
    (State.critBit s b info).glb = s.glb ∧ (State.critBit s b info).sb = s.sb := by
  have w1 := @State.healthAen_still; have wi := @ite_parts
  simp [State.critBit, w1, wi]
theorem State.stageEffect_still (s : State) (set n : Nat) :
    (State.stageEffect s set n).pending = s.pending ∧ (State.stageEffect s set n).free = s.free ∧
    (State.stageEffect s set n).host = s.host ∧ (State.stageEffect s set n).epoch = s.epoch ∧ (State.stageEffect s set n).pat = s.pat ∧
    (State.stageEffect s set n).isl = s.isl ∧ (State.stageEffect s set n).routes = s.routes ∧
    (State.stageEffect s set n).dramMargin = s.dramMargin ∧ (State.stageEffect s set n).ports = s.ports ∧
    (State.stageEffect s set n).trickle = s.trickle ∧ (State.stageEffect s set n).cpx = s.cpx ∧ (State.stageEffect s set n).wvf = s.wvf ∧
    (State.stageEffect s set n).bpm = s.bpm ∧ (State.stageEffect s set n).sli = s.sli ∧ (State.stageEffect s set n).sec = s.sec ∧
    (State.stageEffect s set n).mic = s.mic ∧ (State.stageEffect s set n).flt = s.flt ∧ (State.stageEffect s set n).ctrs = s.ctrs ∧
    (State.stageEffect s set n).grps = s.grps ∧ (State.stageEffect s set n).pwr = s.pwr ∧ (State.stageEffect s set n).thm = s.thm ∧
    (State.stageEffect s set n).age = s.age ∧ (State.stageEffect s set n).cnv = s.cnv ∧ (State.stageEffect s set n).fwu = s.fwu ∧
    (State.stageEffect s set n).glb = s.glb ∧ (State.stageEffect s set n).sb = s.sb := by
  have w1 := @State.managerAen_still; have w2 := @State.critBit_still; have w3 := @State.goReadOnly_still
  have w4 := @State.modNs_still; have wf := @foldl_parts; have wi := @ite_parts
  simp [State.stageEffect, w1, w2, w3, w4, wf, wi]
theorem State.enterStages_still (s : State) (set n : Nat) :
    (State.enterStages s set n).pending = s.pending ∧ (State.enterStages s set n).free = s.free ∧
    (State.enterStages s set n).host = s.host ∧ (State.enterStages s set n).epoch = s.epoch ∧ (State.enterStages s set n).pat = s.pat ∧
    (State.enterStages s set n).isl = s.isl ∧ (State.enterStages s set n).routes = s.routes ∧
    (State.enterStages s set n).dramMargin = s.dramMargin ∧ (State.enterStages s set n).ports = s.ports ∧
    (State.enterStages s set n).trickle = s.trickle ∧ (State.enterStages s set n).cpx = s.cpx ∧ (State.enterStages s set n).wvf = s.wvf ∧
    (State.enterStages s set n).bpm = s.bpm ∧ (State.enterStages s set n).sli = s.sli ∧ (State.enterStages s set n).sec = s.sec ∧
    (State.enterStages s set n).mic = s.mic ∧ (State.enterStages s set n).flt = s.flt ∧ (State.enterStages s set n).ctrs = s.ctrs ∧
    (State.enterStages s set n).grps = s.grps ∧ (State.enterStages s set n).pwr = s.pwr ∧ (State.enterStages s set n).thm = s.thm ∧
    (State.enterStages s set n).age = s.age ∧ (State.enterStages s set n).cnv = s.cnv ∧ (State.enterStages s set n).fwu = s.fwu ∧
    (State.enterStages s set n).glb = s.glb ∧ (State.enterStages s set n).sb = s.sb := by
  have w1 := @State.modLife_still; have w2 := @State.stageEffect_still; have wf := @foldl_parts
  simp [State.enterStages, w1, w2, wf]
theorem State.wearCheck_still (s : State) (set : Nat) :
    (State.wearCheck s set).pending = s.pending ∧ (State.wearCheck s set).free = s.free ∧ (State.wearCheck s set).host = s.host ∧
    (State.wearCheck s set).epoch = s.epoch ∧ (State.wearCheck s set).pat = s.pat ∧ (State.wearCheck s set).isl = s.isl ∧
    (State.wearCheck s set).routes = s.routes ∧ (State.wearCheck s set).dramMargin = s.dramMargin ∧
    (State.wearCheck s set).ports = s.ports ∧ (State.wearCheck s set).trickle = s.trickle ∧ (State.wearCheck s set).cpx = s.cpx ∧
    (State.wearCheck s set).wvf = s.wvf ∧ (State.wearCheck s set).bpm = s.bpm ∧ (State.wearCheck s set).sli = s.sli ∧
    (State.wearCheck s set).sec = s.sec ∧ (State.wearCheck s set).mic = s.mic ∧ (State.wearCheck s set).flt = s.flt ∧
    (State.wearCheck s set).ctrs = s.ctrs ∧ (State.wearCheck s set).grps = s.grps ∧ (State.wearCheck s set).pwr = s.pwr ∧
    (State.wearCheck s set).thm = s.thm ∧ (State.wearCheck s set).age = s.age ∧ (State.wearCheck s set).cnv = s.cnv ∧
    (State.wearCheck s set).fwu = s.fwu ∧ (State.wearCheck s set).glb = s.glb ∧ (State.wearCheck s set).sb = s.sb := by
  have w1 := @State.enterStages_still; have wi := @ite_parts
  simp [State.wearCheck, w1, wi]
theorem State.spareCheck_still (s : State) (set : Nat) :
    (State.spareCheck s set).pending = s.pending ∧ (State.spareCheck s set).free = s.free ∧ (State.spareCheck s set).host = s.host ∧
    (State.spareCheck s set).epoch = s.epoch ∧ (State.spareCheck s set).pat = s.pat ∧ (State.spareCheck s set).isl = s.isl ∧
    (State.spareCheck s set).routes = s.routes ∧ (State.spareCheck s set).dramMargin = s.dramMargin ∧
    (State.spareCheck s set).ports = s.ports ∧ (State.spareCheck s set).trickle = s.trickle ∧ (State.spareCheck s set).cpx = s.cpx ∧
    (State.spareCheck s set).wvf = s.wvf ∧ (State.spareCheck s set).bpm = s.bpm ∧ (State.spareCheck s set).sli = s.sli ∧
    (State.spareCheck s set).sec = s.sec ∧ (State.spareCheck s set).mic = s.mic ∧ (State.spareCheck s set).flt = s.flt ∧
    (State.spareCheck s set).ctrs = s.ctrs ∧ (State.spareCheck s set).grps = s.grps ∧ (State.spareCheck s set).pwr = s.pwr ∧
    (State.spareCheck s set).thm = s.thm ∧ (State.spareCheck s set).age = s.age ∧ (State.spareCheck s set).cnv = s.cnv ∧
    (State.spareCheck s set).fwu = s.fwu ∧ (State.spareCheck s set).glb = s.glb ∧ (State.spareCheck s set).sb = s.sb := by
  have w1 := @State.enterStages_still; have wi := @ite_parts
  simp [State.spareCheck, w1, wi]
theorem State.relLost_still (s : State) (id k : Nat) :
    (State.relLost s id k).pending = s.pending ∧ (State.relLost s id k).free = s.free ∧ (State.relLost s id k).host = s.host ∧
    (State.relLost s id k).epoch = s.epoch ∧ (State.relLost s id k).pat = s.pat ∧ (State.relLost s id k).isl = s.isl ∧
    (State.relLost s id k).routes = s.routes ∧ (State.relLost s id k).dramMargin = s.dramMargin ∧ (State.relLost s id k).ports = s.ports ∧
    (State.relLost s id k).trickle = s.trickle ∧ (State.relLost s id k).cmd = s.cmd ∧ (State.relLost s id k).zon = s.zon ∧
    (State.relLost s id k).cpx = s.cpx ∧ (State.relLost s id k).wvf = s.wvf ∧ (State.relLost s id k).bpm = s.bpm ∧
    (State.relLost s id k).sli = s.sli ∧ (State.relLost s id k).sec = s.sec ∧ (State.relLost s id k).mic = s.mic ∧
    (State.relLost s id k).ctrs = s.ctrs ∧ (State.relLost s id k).grps = s.grps ∧ (State.relLost s id k).pwr = s.pwr ∧
    (State.relLost s id k).thm = s.thm ∧ (State.relLost s id k).age = s.age ∧ (State.relLost s id k).cnv = s.cnv ∧
    (State.relLost s id k).fwu = s.fwu ∧ (State.relLost s id k).glb = s.glb ∧ (State.relLost s id k).sb = s.sb := by
  have w1 := @State.relCnt_still; have w2 := @State.lifeErr_still; have w3 := @State.queueFault_still
  unfold State.relLost; repeat' split
  all_goals simp [*]
theorem State.relRead_still (s : State) (id k : Nat) :
    (State.relRead s id k).pending = s.pending ∧ (State.relRead s id k).free = s.free ∧ (State.relRead s id k).host = s.host ∧
    (State.relRead s id k).epoch = s.epoch ∧ (State.relRead s id k).pat = s.pat ∧ (State.relRead s id k).routes = s.routes ∧
    (State.relRead s id k).dramMargin = s.dramMargin ∧ (State.relRead s id k).ports = s.ports ∧
    (State.relRead s id k).trickle = s.trickle ∧ (State.relRead s id k).cmd = s.cmd ∧ (State.relRead s id k).zon = s.zon ∧
    (State.relRead s id k).cpx = s.cpx ∧ (State.relRead s id k).wvf = s.wvf ∧ (State.relRead s id k).bpm = s.bpm ∧
    (State.relRead s id k).sec = s.sec ∧ (State.relRead s id k).mic = s.mic ∧ (State.relRead s id k).ctrs = s.ctrs ∧
    (State.relRead s id k).grps = s.grps ∧ (State.relRead s id k).thm = s.thm ∧ (State.relRead s id k).age = s.age ∧
    (State.relRead s id k).cnv = s.cnv ∧ (State.relRead s id k).fwu = s.fwu ∧ (State.relRead s id k).glb = s.glb ∧
    (State.relRead s id k).sb = s.sb := by
  have w1 := @State.enqueue_still; have w2 := @State.startEcl_still; have w3 := @State.relLost_still; have wi := @ite_parts
  unfold State.relRead; repeat' split
  all_goals simp [*]
theorem State.relProgram_still (s : State) (id : Nat) :
    (State.relProgram s id).pending = s.pending ∧ (State.relProgram s id).free = s.free ∧ (State.relProgram s id).host = s.host ∧
    (State.relProgram s id).epoch = s.epoch ∧ (State.relProgram s id).pat = s.pat ∧ (State.relProgram s id).routes = s.routes ∧
    (State.relProgram s id).dramMargin = s.dramMargin ∧ (State.relProgram s id).ports = s.ports ∧
    (State.relProgram s id).trickle = s.trickle ∧ (State.relProgram s id).cmd = s.cmd ∧ (State.relProgram s id).zon = s.zon ∧
    (State.relProgram s id).mlf = s.mlf ∧ (State.relProgram s id).cpx = s.cpx ∧ (State.relProgram s id).wvf = s.wvf ∧
    (State.relProgram s id).bpm = s.bpm ∧ (State.relProgram s id).sec = s.sec ∧ (State.relProgram s id).mic = s.mic ∧
    (State.relProgram s id).flt = s.flt ∧ (State.relProgram s id).ctrs = s.ctrs ∧ (State.relProgram s id).grps = s.grps ∧
    (State.relProgram s id).thm = s.thm ∧ (State.relProgram s id).age = s.age ∧ (State.relProgram s id).cnv = s.cnv ∧
    (State.relProgram s id).fwu = s.fwu ∧ (State.relProgram s id).glb = s.glb ∧ (State.relProgram s id).sb = s.sb := by
  have w1 := @State.enqueue_still; have wf := @foldl_parts; have wp := @foldl_snd_parts; have wi := @ite_parts
  unfold State.relProgram; repeat' split
  all_goals simp [*]
theorem State.relBegin_still (s : State) (id : Nat) :
    (State.relBegin s id).pending = s.pending ∧ (State.relBegin s id).free = s.free ∧ (State.relBegin s id).host = s.host ∧
    (State.relBegin s id).epoch = s.epoch ∧ (State.relBegin s id).pat = s.pat ∧ (State.relBegin s id).routes = s.routes ∧
    (State.relBegin s id).dramMargin = s.dramMargin ∧ (State.relBegin s id).ports = s.ports ∧ (State.relBegin s id).trickle = s.trickle ∧
    (State.relBegin s id).cmd = s.cmd ∧ (State.relBegin s id).zon = s.zon ∧ (State.relBegin s id).cpx = s.cpx ∧
    (State.relBegin s id).wvf = s.wvf ∧ (State.relBegin s id).bpm = s.bpm ∧ (State.relBegin s id).sec = s.sec ∧
    (State.relBegin s id).mic = s.mic ∧ (State.relBegin s id).ctrs = s.ctrs ∧ (State.relBegin s id).grps = s.grps ∧
    (State.relBegin s id).thm = s.thm ∧ (State.relBegin s id).age = s.age ∧ (State.relBegin s id).cnv = s.cnv ∧
    (State.relBegin s id).fwu = s.fwu ∧ (State.relBegin s id).glb = s.glb ∧ (State.relBegin s id).sb = s.sb := by
  have w1 := @State.relRead_still; have w2 := @State.relProgram_still; have wf := @foldl_parts; have wp := @foldl_snd_parts
  have wi := @ite_parts
  unfold State.relBegin; repeat' split
  all_goals simp [*]
theorem State.relGot_still (s : State) (id k : Nat) :
    (State.relGot s id k).pending = s.pending ∧ (State.relGot s id k).free = s.free ∧ (State.relGot s id k).host = s.host ∧
    (State.relGot s id k).epoch = s.epoch ∧ (State.relGot s id k).pat = s.pat ∧ (State.relGot s id k).routes = s.routes ∧
    (State.relGot s id k).dramMargin = s.dramMargin ∧ (State.relGot s id k).ports = s.ports ∧ (State.relGot s id k).trickle = s.trickle ∧
    (State.relGot s id k).cmd = s.cmd ∧ (State.relGot s id k).zon = s.zon ∧ (State.relGot s id k).mlf = s.mlf ∧
    (State.relGot s id k).cpx = s.cpx ∧ (State.relGot s id k).wvf = s.wvf ∧ (State.relGot s id k).bpm = s.bpm ∧
    (State.relGot s id k).sec = s.sec ∧ (State.relGot s id k).mic = s.mic ∧ (State.relGot s id k).flt = s.flt ∧
    (State.relGot s id k).ctrs = s.ctrs ∧ (State.relGot s id k).grps = s.grps ∧ (State.relGot s id k).thm = s.thm ∧
    (State.relGot s id k).age = s.age ∧ (State.relGot s id k).cnv = s.cnv ∧ (State.relGot s id k).fwu = s.fwu ∧
    (State.relGot s id k).glb = s.glb ∧ (State.relGot s id k).sb = s.sb := by
  have w1 := @State.relProgram_still
  unfold State.relGot; repeat' split
  all_goals simp [*]
theorem State.relocTarget_still (s : State) (id : Nat) :
    (State.relocTarget s id).pending = s.pending ∧ (State.relocTarget s id).free = s.free ∧ (State.relocTarget s id).host = s.host ∧
    (State.relocTarget s id).epoch = s.epoch ∧ (State.relocTarget s id).pat = s.pat ∧ (State.relocTarget s id).routes = s.routes ∧
    (State.relocTarget s id).dramMargin = s.dramMargin ∧ (State.relocTarget s id).ports = s.ports ∧
    (State.relocTarget s id).trickle = s.trickle ∧ (State.relocTarget s id).zon = s.zon ∧ (State.relocTarget s id).cpx = s.cpx ∧
    (State.relocTarget s id).wvf = s.wvf ∧ (State.relocTarget s id).bpm = s.bpm ∧ (State.relocTarget s id).sec = s.sec ∧
    (State.relocTarget s id).mic = s.mic ∧ (State.relocTarget s id).ctrs = s.ctrs ∧ (State.relocTarget s id).grps = s.grps ∧
    (State.relocTarget s id).thm = s.thm ∧ (State.relocTarget s id).age = s.age ∧ (State.relocTarget s id).cnv = s.cnv ∧
    (State.relocTarget s id).fwu = s.fwu ∧ (State.relocTarget s id).glb = s.glb ∧ (State.relocTarget s id).sb = s.sb := by
  have w1 := @State.critBit_still; have w2 := @State.takeRows_still; have w3 := @State.relBegin_still; have wi := @ite_parts
  unfold State.relocTarget; repeat' split
  all_goals simp [*]
theorem State.relStep_still (s : State) (id : Nat) :
    (State.relStep s id).pending = s.pending ∧ (State.relStep s id).free = s.free ∧ (State.relStep s id).host = s.host ∧
    (State.relStep s id).epoch = s.epoch ∧ (State.relStep s id).pat = s.pat ∧ (State.relStep s id).routes = s.routes ∧
    (State.relStep s id).dramMargin = s.dramMargin ∧ (State.relStep s id).ports = s.ports ∧ (State.relStep s id).trickle = s.trickle ∧
    (State.relStep s id).zon = s.zon ∧ (State.relStep s id).cpx = s.cpx ∧ (State.relStep s id).wvf = s.wvf ∧
    (State.relStep s id).bpm = s.bpm ∧ (State.relStep s id).sec = s.sec ∧ (State.relStep s id).mic = s.mic ∧
    (State.relStep s id).ctrs = s.ctrs ∧ (State.relStep s id).grps = s.grps ∧ (State.relStep s id).thm = s.thm ∧
    (State.relStep s id).age = s.age ∧ (State.relStep s id).cnv = s.cnv ∧ (State.relStep s id).fwu = s.fwu ∧
    (State.relStep s id).glb = s.glb ∧ (State.relStep s id).sb = s.sb := by
  have w1 := @State.relocTarget_still; have w2 := @State.relBegin_still; have w3 := @State.relRead_still
  have w4 := @State.relProgram_still; have wf := @foldl_parts; have wp := @foldl_snd_parts; have wi := @ite_parts
  unfold State.relStep; repeat' split
  all_goals simp [*]
theorem State.noteRebuild_still (s : State) (r : Reloc) :
    (State.noteRebuild s r).pending = s.pending ∧ (State.noteRebuild s r).free = s.free ∧ (State.noteRebuild s r).host = s.host ∧
    (State.noteRebuild s r).epoch = s.epoch ∧ (State.noteRebuild s r).pat = s.pat ∧ (State.noteRebuild s r).isl = s.isl ∧
    (State.noteRebuild s r).routes = s.routes ∧ (State.noteRebuild s r).dramMargin = s.dramMargin ∧
    (State.noteRebuild s r).ports = s.ports ∧ (State.noteRebuild s r).trickle = s.trickle ∧ (State.noteRebuild s r).cmd = s.cmd ∧
    (State.noteRebuild s r).zon = s.zon ∧ (State.noteRebuild s r).mlf = s.mlf ∧ (State.noteRebuild s r).cpx = s.cpx ∧
    (State.noteRebuild s r).wvf = s.wvf ∧ (State.noteRebuild s r).bpm = s.bpm ∧ (State.noteRebuild s r).sli = s.sli ∧
    (State.noteRebuild s r).sec = s.sec ∧ (State.noteRebuild s r).mic = s.mic ∧ (State.noteRebuild s r).flt = s.flt ∧
    (State.noteRebuild s r).ctrs = s.ctrs ∧ (State.noteRebuild s r).grps = s.grps ∧ (State.noteRebuild s r).pwr = s.pwr ∧
    (State.noteRebuild s r).thm = s.thm ∧ (State.noteRebuild s r).age = s.age ∧ (State.noteRebuild s r).cnv = s.cnv ∧
    (State.noteRebuild s r).fwu = s.fwu ∧ (State.noteRebuild s r).glb = s.glb ∧ (State.noteRebuild s r).sb = s.sb := by
  have w1 := @State.modBay_still; have wf := @foldl_parts
  simp [State.noteRebuild, w1, wf]
theorem State.queueReloc_still (s : State) (cause : RelCause) (tm k : Nat) :
    (State.queueReloc s cause tm k).pending = s.pending ∧ (State.queueReloc s cause tm k).free = s.free ∧
    (State.queueReloc s cause tm k).host = s.host ∧ (State.queueReloc s cause tm k).epoch = s.epoch ∧
    (State.queueReloc s cause tm k).pat = s.pat ∧ (State.queueReloc s cause tm k).routes = s.routes ∧
    (State.queueReloc s cause tm k).dramMargin = s.dramMargin ∧ (State.queueReloc s cause tm k).ports = s.ports ∧
    (State.queueReloc s cause tm k).trickle = s.trickle ∧ (State.queueReloc s cause tm k).zon = s.zon ∧
    (State.queueReloc s cause tm k).cpx = s.cpx ∧ (State.queueReloc s cause tm k).wvf = s.wvf ∧
    (State.queueReloc s cause tm k).bpm = s.bpm ∧ (State.queueReloc s cause tm k).sec = s.sec ∧
    (State.queueReloc s cause tm k).mic = s.mic ∧ (State.queueReloc s cause tm k).ctrs = s.ctrs ∧
    (State.queueReloc s cause tm k).grps = s.grps ∧ (State.queueReloc s cause tm k).thm = s.thm ∧
    (State.queueReloc s cause tm k).age = s.age ∧ (State.queueReloc s cause tm k).cnv = s.cnv ∧
    (State.queueReloc s cause tm k).fwu = s.fwu ∧ (State.queueReloc s cause tm k).glb = s.glb ∧ (State.queueReloc s cause tm k).sb = s.sb := by
  have w1 := @State.noteRebuild_still; have w2 := @State.closeRows_still; have w3 := @State.relocTarget_still
  have wi := @ite_parts
  unfold State.queueReloc; repeat' split
  all_goals simp [*]
theorem State.refreshWaiting_still (s : State) :
    (State.refreshWaiting s).pending = s.pending ∧ (State.refreshWaiting s).free = s.free ∧ (State.refreshWaiting s).host = s.host ∧
    (State.refreshWaiting s).epoch = s.epoch ∧ (State.refreshWaiting s).pat = s.pat ∧ (State.refreshWaiting s).routes = s.routes ∧
    (State.refreshWaiting s).dramMargin = s.dramMargin ∧ (State.refreshWaiting s).ports = s.ports ∧
    (State.refreshWaiting s).trickle = s.trickle ∧ (State.refreshWaiting s).zon = s.zon ∧ (State.refreshWaiting s).cpx = s.cpx ∧
    (State.refreshWaiting s).wvf = s.wvf ∧ (State.refreshWaiting s).bpm = s.bpm ∧ (State.refreshWaiting s).sec = s.sec ∧
    (State.refreshWaiting s).mic = s.mic ∧ (State.refreshWaiting s).ctrs = s.ctrs ∧ (State.refreshWaiting s).grps = s.grps ∧
    (State.refreshWaiting s).thm = s.thm ∧ (State.refreshWaiting s).age = s.age ∧ (State.refreshWaiting s).cnv = s.cnv ∧
    (State.refreshWaiting s).fwu = s.fwu ∧ (State.refreshWaiting s).glb = s.glb ∧ (State.refreshWaiting s).sb = s.sb := by
  have w1 := @State.queueReloc_still; have wf := @foldl_parts
  simp [State.refreshWaiting, w1, wf]
theorem State.dropTarget_still (s : State) (r : Reloc) :
    (State.dropTarget s r).pending = s.pending ∧ (State.dropTarget s r).free = s.free ∧ (State.dropTarget s r).host = s.host ∧
    (State.dropTarget s r).epoch = s.epoch ∧ (State.dropTarget s r).pat = s.pat ∧ (State.dropTarget s r).isl = s.isl ∧
    (State.dropTarget s r).routes = s.routes ∧ (State.dropTarget s r).dramMargin = s.dramMargin ∧ (State.dropTarget s r).ports = s.ports ∧
    (State.dropTarget s r).trickle = s.trickle ∧ (State.dropTarget s r).cmd = s.cmd ∧ (State.dropTarget s r).zon = s.zon ∧
    (State.dropTarget s r).mlf = s.mlf ∧ (State.dropTarget s r).cpx = s.cpx ∧ (State.dropTarget s r).wvf = s.wvf ∧
    (State.dropTarget s r).bpm = s.bpm ∧ (State.dropTarget s r).sli = s.sli ∧ (State.dropTarget s r).sec = s.sec ∧
    (State.dropTarget s r).mic = s.mic ∧ (State.dropTarget s r).flt = s.flt ∧ (State.dropTarget s r).ctrs = s.ctrs ∧
    (State.dropTarget s r).grps = s.grps ∧ (State.dropTarget s r).pwr = s.pwr ∧ (State.dropTarget s r).thm = s.thm ∧
    (State.dropTarget s r).age = s.age ∧ (State.dropTarget s r).cnv = s.cnv ∧ (State.dropTarget s r).fwu = s.fwu ∧
    (State.dropTarget s r).glb = s.glb ∧ (State.dropTarget s r).sb = s.sb := by
  have w1 := @State.returnRows_still; have wi := @ite_parts
  simp [State.dropTarget, w1, wi]
theorem State.dropRelocOps_still (s : State) (id : Nat) :
    (State.dropRelocOps s id).pending = s.pending ∧ (State.dropRelocOps s id).free = s.free ∧ (State.dropRelocOps s id).host = s.host ∧
    (State.dropRelocOps s id).epoch = s.epoch ∧ (State.dropRelocOps s id).pat = s.pat ∧ (State.dropRelocOps s id).isl = s.isl ∧
    (State.dropRelocOps s id).routes = s.routes ∧ (State.dropRelocOps s id).dramMargin = s.dramMargin ∧
    (State.dropRelocOps s id).ports = s.ports ∧ (State.dropRelocOps s id).trickle = s.trickle ∧ (State.dropRelocOps s id).cmd = s.cmd ∧
    (State.dropRelocOps s id).zon = s.zon ∧ (State.dropRelocOps s id).mlf = s.mlf ∧ (State.dropRelocOps s id).cpx = s.cpx ∧
    (State.dropRelocOps s id).wvf = s.wvf ∧ (State.dropRelocOps s id).bpm = s.bpm ∧ (State.dropRelocOps s id).sli = s.sli ∧
    (State.dropRelocOps s id).sec = s.sec ∧ (State.dropRelocOps s id).mic = s.mic ∧ (State.dropRelocOps s id).flt = s.flt ∧
    (State.dropRelocOps s id).ctrs = s.ctrs ∧ (State.dropRelocOps s id).grps = s.grps ∧ (State.dropRelocOps s id).pwr = s.pwr ∧
    (State.dropRelocOps s id).thm = s.thm ∧ (State.dropRelocOps s id).age = s.age ∧ (State.dropRelocOps s id).cnv = s.cnv ∧
    (State.dropRelocOps s id).fwu = s.fwu ∧ (State.dropRelocOps s id).glb = s.glb ∧ (State.dropRelocOps s id).sb = s.sb := by
  simp [State.dropRelocOps]
theorem State.relocCancel_still (s : State) (id : Nat) :
    (State.relocCancel s id).pending = s.pending ∧ (State.relocCancel s id).free = s.free ∧ (State.relocCancel s id).host = s.host ∧
    (State.relocCancel s id).epoch = s.epoch ∧ (State.relocCancel s id).pat = s.pat ∧ (State.relocCancel s id).isl = s.isl ∧
    (State.relocCancel s id).routes = s.routes ∧ (State.relocCancel s id).dramMargin = s.dramMargin ∧
    (State.relocCancel s id).ports = s.ports ∧ (State.relocCancel s id).trickle = s.trickle ∧ (State.relocCancel s id).cmd = s.cmd ∧
    (State.relocCancel s id).zon = s.zon ∧ (State.relocCancel s id).cpx = s.cpx ∧ (State.relocCancel s id).wvf = s.wvf ∧
    (State.relocCancel s id).bpm = s.bpm ∧ (State.relocCancel s id).sli = s.sli ∧ (State.relocCancel s id).sec = s.sec ∧
    (State.relocCancel s id).mic = s.mic ∧ (State.relocCancel s id).flt = s.flt ∧ (State.relocCancel s id).ctrs = s.ctrs ∧
    (State.relocCancel s id).grps = s.grps ∧ (State.relocCancel s id).pwr = s.pwr ∧ (State.relocCancel s id).thm = s.thm ∧
    (State.relocCancel s id).age = s.age ∧ (State.relocCancel s id).cnv = s.cnv ∧ (State.relocCancel s id).fwu = s.fwu ∧
    (State.relocCancel s id).glb = s.glb ∧ (State.relocCancel s id).sb = s.sb := by
  have w1 := @State.dropRelocOps_still; have w2 := @State.dropTarget_still; have w3 := @State.relCnt_still
  unfold State.relocCancel; repeat' split
  all_goals simp [*]
theorem State.relocRestart_still (s : State) (id : Nat) :
    (State.relocRestart s id).pending = s.pending ∧ (State.relocRestart s id).free = s.free ∧ (State.relocRestart s id).host = s.host ∧
    (State.relocRestart s id).epoch = s.epoch ∧ (State.relocRestart s id).pat = s.pat ∧ (State.relocRestart s id).routes = s.routes ∧
    (State.relocRestart s id).dramMargin = s.dramMargin ∧ (State.relocRestart s id).ports = s.ports ∧
    (State.relocRestart s id).trickle = s.trickle ∧ (State.relocRestart s id).zon = s.zon ∧ (State.relocRestart s id).cpx = s.cpx ∧
    (State.relocRestart s id).wvf = s.wvf ∧ (State.relocRestart s id).bpm = s.bpm ∧ (State.relocRestart s id).sec = s.sec ∧
    (State.relocRestart s id).mic = s.mic ∧ (State.relocRestart s id).ctrs = s.ctrs ∧ (State.relocRestart s id).grps = s.grps ∧
    (State.relocRestart s id).thm = s.thm ∧ (State.relocRestart s id).age = s.age ∧ (State.relocRestart s id).cnv = s.cnv ∧
    (State.relocRestart s id).fwu = s.fwu ∧ (State.relocRestart s id).glb = s.glb ∧ (State.relocRestart s id).sb = s.sb := by
  have w1 := @State.dropRelocOps_still; have w2 := @State.dropTarget_still; have w3 := @State.lifeErr_still
  have w4 := @State.relCnt_still; have w5 := @State.relocTarget_still
  unfold State.relocRestart; repeat' split
  all_goals simp [*]
theorem State.queueRebuilds_still (s : State) (d : Nat) :
    (State.queueRebuilds s d).pending = s.pending ∧ (State.queueRebuilds s d).free = s.free ∧ (State.queueRebuilds s d).host = s.host ∧
    (State.queueRebuilds s d).epoch = s.epoch ∧ (State.queueRebuilds s d).pat = s.pat ∧ (State.queueRebuilds s d).routes = s.routes ∧
    (State.queueRebuilds s d).dramMargin = s.dramMargin ∧ (State.queueRebuilds s d).ports = s.ports ∧
    (State.queueRebuilds s d).trickle = s.trickle ∧ (State.queueRebuilds s d).zon = s.zon ∧ (State.queueRebuilds s d).cpx = s.cpx ∧
    (State.queueRebuilds s d).wvf = s.wvf ∧ (State.queueRebuilds s d).bpm = s.bpm ∧ (State.queueRebuilds s d).sec = s.sec ∧
    (State.queueRebuilds s d).mic = s.mic ∧ (State.queueRebuilds s d).ctrs = s.ctrs ∧ (State.queueRebuilds s d).grps = s.grps ∧
    (State.queueRebuilds s d).thm = s.thm ∧ (State.queueRebuilds s d).age = s.age ∧ (State.queueRebuilds s d).cnv = s.cnv ∧
    (State.queueRebuilds s d).fwu = s.fwu ∧ (State.queueRebuilds s d).glb = s.glb ∧ (State.queueRebuilds s d).sb = s.sb := by
  have w1 := @State.queueReloc_still; have wf := @foldl_parts
  simp [State.queueRebuilds, w1, wf]
theorem State.queueGroup_still (s : State) (d k : Nat) (urgent : Bool) :
    (State.queueGroup s d k urgent).pending = s.pending ∧ (State.queueGroup s d k urgent).free = s.free ∧
    (State.queueGroup s d k urgent).host = s.host ∧ (State.queueGroup s d k urgent).epoch = s.epoch ∧
    (State.queueGroup s d k urgent).pat = s.pat ∧ (State.queueGroup s d k urgent).routes = s.routes ∧
    (State.queueGroup s d k urgent).dramMargin = s.dramMargin ∧ (State.queueGroup s d k urgent).ports = s.ports ∧
    (State.queueGroup s d k urgent).trickle = s.trickle ∧ (State.queueGroup s d k urgent).zon = s.zon ∧
    (State.queueGroup s d k urgent).cpx = s.cpx ∧ (State.queueGroup s d k urgent).wvf = s.wvf ∧
    (State.queueGroup s d k urgent).bpm = s.bpm ∧ (State.queueGroup s d k urgent).sec = s.sec ∧
    (State.queueGroup s d k urgent).mic = s.mic ∧ (State.queueGroup s d k urgent).ctrs = s.ctrs ∧
    (State.queueGroup s d k urgent).grps = s.grps ∧ (State.queueGroup s d k urgent).thm = s.thm ∧
    (State.queueGroup s d k urgent).age = s.age ∧ (State.queueGroup s d k urgent).cnv = s.cnv ∧
    (State.queueGroup s d k urgent).fwu = s.fwu ∧ (State.queueGroup s d k urgent).glb = s.glb ∧ (State.queueGroup s d k urgent).sb = s.sb := by
  have wf := @foldl_parts
  have w1 := @State.modDie_still; have w2 := @State.queueReloc_still
  unfold State.queueGroup; repeat' split
  all_goals simp [*]
theorem State.releaseLandings_still (s : State) :
    (State.releaseLandings s).pending = s.pending ∧ (State.releaseLandings s).free = s.free ∧ (State.releaseLandings s).host = s.host ∧
    (State.releaseLandings s).epoch = s.epoch ∧ (State.releaseLandings s).pat = s.pat ∧ (State.releaseLandings s).isl = s.isl ∧
    (State.releaseLandings s).routes = s.routes ∧ (State.releaseLandings s).dramMargin = s.dramMargin ∧
    (State.releaseLandings s).ports = s.ports ∧ (State.releaseLandings s).trickle = s.trickle ∧ (State.releaseLandings s).cmd = s.cmd ∧
    (State.releaseLandings s).zon = s.zon ∧ (State.releaseLandings s).mlf = s.mlf ∧ (State.releaseLandings s).cpx = s.cpx ∧
    (State.releaseLandings s).wvf = s.wvf ∧ (State.releaseLandings s).bpm = s.bpm ∧ (State.releaseLandings s).sli = s.sli ∧
    (State.releaseLandings s).sec = s.sec ∧ (State.releaseLandings s).mic = s.mic ∧ (State.releaseLandings s).flt = s.flt ∧
    (State.releaseLandings s).ctrs = s.ctrs ∧ (State.releaseLandings s).grps = s.grps ∧ (State.releaseLandings s).pwr = s.pwr ∧
    (State.releaseLandings s).thm = s.thm ∧ (State.releaseLandings s).age = s.age ∧ (State.releaseLandings s).cnv = s.cnv ∧
    (State.releaseLandings s).fwu = s.fwu ∧ (State.releaseLandings s).glb = s.glb ∧ (State.releaseLandings s).sb = s.sb := by
  have w1 := @State.modBlk_still; have wf := @foldl_parts; have wi := @ite_parts
  simp [State.releaseLandings, w1, wf, wi]
theorem State.verifyRow_still (s : State) (srk : Nat) :
    (State.verifyRow s srk).pending = s.pending ∧ (State.verifyRow s srk).free = s.free ∧ (State.verifyRow s srk).host = s.host ∧
    (State.verifyRow s srk).epoch = s.epoch ∧ (State.verifyRow s srk).pat = s.pat ∧ (State.verifyRow s srk).routes = s.routes ∧
    (State.verifyRow s srk).dramMargin = s.dramMargin ∧ (State.verifyRow s srk).ports = s.ports ∧
    (State.verifyRow s srk).trickle = s.trickle ∧ (State.verifyRow s srk).cmd = s.cmd ∧ (State.verifyRow s srk).cpx = s.cpx ∧
    (State.verifyRow s srk).wvf = s.wvf ∧ (State.verifyRow s srk).bpm = s.bpm ∧ (State.verifyRow s srk).sec = s.sec ∧
    (State.verifyRow s srk).mic = s.mic ∧ (State.verifyRow s srk).ctrs = s.ctrs ∧ (State.verifyRow s srk).grps = s.grps ∧
    (State.verifyRow s srk).thm = s.thm ∧ (State.verifyRow s srk).age = s.age ∧ (State.verifyRow s srk).cnv = s.cnv ∧
    (State.verifyRow s srk).fwu = s.fwu ∧ (State.verifyRow s srk).glb = s.glb ∧ (State.verifyRow s srk).sb = s.sb := by
  have w1 := @State.recordUnits_still; have w2 := @State.relBegin_still; have w3 := @State.releaseLandings_still
  have wf := @foldl_parts; have wp := @foldl_snd_parts
  unfold State.verifyRow; repeat' split
  all_goals simp [*]
theorem State.settleRow_still (s : State) (srk : Nat) :
    (State.settleRow s srk).pending = s.pending ∧ (State.settleRow s srk).free = s.free ∧ (State.settleRow s srk).host = s.host ∧
    (State.settleRow s srk).epoch = s.epoch ∧ (State.settleRow s srk).pat = s.pat ∧ (State.settleRow s srk).routes = s.routes ∧
    (State.settleRow s srk).dramMargin = s.dramMargin ∧ (State.settleRow s srk).ports = s.ports ∧
    (State.settleRow s srk).trickle = s.trickle ∧ (State.settleRow s srk).cmd = s.cmd ∧ (State.settleRow s srk).cpx = s.cpx ∧
    (State.settleRow s srk).wvf = s.wvf ∧ (State.settleRow s srk).bpm = s.bpm ∧ (State.settleRow s srk).sec = s.sec ∧
    (State.settleRow s srk).mic = s.mic ∧ (State.settleRow s srk).ctrs = s.ctrs ∧ (State.settleRow s srk).grps = s.grps ∧
    (State.settleRow s srk).thm = s.thm ∧ (State.settleRow s srk).age = s.age ∧ (State.settleRow s srk).cnv = s.cnv ∧
    (State.settleRow s srk).fwu = s.fwu ∧ (State.settleRow s srk).glb = s.glb ∧ (State.settleRow s srk).sb = s.sb := by
  have w1 := @State.landUnits_still; have w2 := @State.setRow_still; have w3 := @State.verifyRow_still
  unfold State.settleRow; repeat' split
  all_goals simp [*]
theorem State.rowDieLost_still (s : State) (srk d : Nat) :
    (State.rowDieLost s srk d).pending = s.pending ∧ (State.rowDieLost s srk d).free = s.free ∧ (State.rowDieLost s srk d).host = s.host ∧
    (State.rowDieLost s srk d).epoch = s.epoch ∧ (State.rowDieLost s srk d).pat = s.pat ∧ (State.rowDieLost s srk d).routes = s.routes ∧
    (State.rowDieLost s srk d).dramMargin = s.dramMargin ∧ (State.rowDieLost s srk d).ports = s.ports ∧
    (State.rowDieLost s srk d).trickle = s.trickle ∧ (State.rowDieLost s srk d).cmd = s.cmd ∧ (State.rowDieLost s srk d).cpx = s.cpx ∧
    (State.rowDieLost s srk d).wvf = s.wvf ∧ (State.rowDieLost s srk d).bpm = s.bpm ∧ (State.rowDieLost s srk d).sec = s.sec ∧
    (State.rowDieLost s srk d).mic = s.mic ∧ (State.rowDieLost s srk d).ctrs = s.ctrs ∧ (State.rowDieLost s srk d).grps = s.grps ∧
    (State.rowDieLost s srk d).thm = s.thm ∧ (State.rowDieLost s srk d).age = s.age ∧ (State.rowDieLost s srk d).cnv = s.cnv ∧
    (State.rowDieLost s srk d).fwu = s.fwu ∧ (State.rowDieLost s srk d).glb = s.glb ∧ (State.rowDieLost s srk d).sb = s.sb := by
  have w1 := @State.setRow_still; have w2 := @State.settleRow_still
  unfold State.rowDieLost; repeat' split
  all_goals simp [*]
theorem State.settleLanding_still (s : State) (id : Nat) :
    (State.settleLanding s id).pending = s.pending ∧ (State.settleLanding s id).free = s.free ∧ (State.settleLanding s id).host = s.host ∧
    (State.settleLanding s id).epoch = s.epoch ∧ (State.settleLanding s id).pat = s.pat ∧ (State.settleLanding s id).isl = s.isl ∧
    (State.settleLanding s id).routes = s.routes ∧ (State.settleLanding s id).dramMargin = s.dramMargin ∧
    (State.settleLanding s id).ports = s.ports ∧ (State.settleLanding s id).trickle = s.trickle ∧ (State.settleLanding s id).cmd = s.cmd ∧
    (State.settleLanding s id).mlf = s.mlf ∧ (State.settleLanding s id).cpx = s.cpx ∧ (State.settleLanding s id).wvf = s.wvf ∧
    (State.settleLanding s id).bpm = s.bpm ∧ (State.settleLanding s id).sli = s.sli ∧ (State.settleLanding s id).sec = s.sec ∧
    (State.settleLanding s id).mic = s.mic ∧ (State.settleLanding s id).flt = s.flt ∧ (State.settleLanding s id).ctrs = s.ctrs ∧
    (State.settleLanding s id).grps = s.grps ∧ (State.settleLanding s id).pwr = s.pwr ∧ (State.settleLanding s id).thm = s.thm ∧
    (State.settleLanding s id).age = s.age ∧ (State.settleLanding s id).cnv = s.cnv ∧ (State.settleLanding s id).fwu = s.fwu ∧
    (State.settleLanding s id).glb = s.glb ∧ (State.settleLanding s id).sb = s.sb := by
  have w1 := @State.markDurable_still; have w2 := @State.newLanding_still
  unfold State.settleLanding; repeat' split
  all_goals simp [*]
theorem State.landingDieLost_still (s : State) (id d : Nat) :
    (State.landingDieLost s id d).pending = s.pending ∧ (State.landingDieLost s id d).free = s.free ∧
    (State.landingDieLost s id d).host = s.host ∧ (State.landingDieLost s id d).epoch = s.epoch ∧
    (State.landingDieLost s id d).pat = s.pat ∧ (State.landingDieLost s id d).isl = s.isl ∧
    (State.landingDieLost s id d).routes = s.routes ∧ (State.landingDieLost s id d).dramMargin = s.dramMargin ∧
    (State.landingDieLost s id d).ports = s.ports ∧ (State.landingDieLost s id d).trickle = s.trickle ∧
    (State.landingDieLost s id d).cmd = s.cmd ∧ (State.landingDieLost s id d).mlf = s.mlf ∧ (State.landingDieLost s id d).cpx = s.cpx ∧
    (State.landingDieLost s id d).wvf = s.wvf ∧ (State.landingDieLost s id d).bpm = s.bpm ∧ (State.landingDieLost s id d).sli = s.sli ∧
    (State.landingDieLost s id d).sec = s.sec ∧ (State.landingDieLost s id d).mic = s.mic ∧ (State.landingDieLost s id d).flt = s.flt ∧
    (State.landingDieLost s id d).ctrs = s.ctrs ∧ (State.landingDieLost s id d).grps = s.grps ∧ (State.landingDieLost s id d).pwr = s.pwr ∧
    (State.landingDieLost s id d).thm = s.thm ∧ (State.landingDieLost s id d).age = s.age ∧ (State.landingDieLost s id d).cnv = s.cnv ∧
    (State.landingDieLost s id d).fwu = s.fwu ∧ (State.landingDieLost s id d).glb = s.glb ∧ (State.landingDieLost s id d).sb = s.sb := by
  have w1 := @State.settleLanding_still
  unfold State.landingDieLost; repeat' split
  all_goals simp [*]
theorem State.fixProgram_still (s : State) (id : Nat) :
    (State.fixProgram s id).pending = s.pending ∧ (State.fixProgram s id).epoch = s.epoch ∧ (State.fixProgram s id).pat = s.pat ∧
    (State.fixProgram s id).dramMargin = s.dramMargin ∧ (State.fixProgram s id).ports = s.ports ∧
    (State.fixProgram s id).trickle = s.trickle ∧ (State.fixProgram s id).sec = s.sec ∧ (State.fixProgram s id).ctrs = s.ctrs ∧
    (State.fixProgram s id).grps = s.grps ∧ (State.fixProgram s id).thm = s.thm ∧ (State.fixProgram s id).age = s.age ∧
    (State.fixProgram s id).cnv = s.cnv ∧ (State.fixProgram s id).fwu = s.fwu ∧ (State.fixProgram s id).glb = s.glb := by
  have w1 := @State.enqueue_still; have w2 := @State.recordLost_still; have wf := @foldl_parts; have wp := @foldl_snd_parts
  have wi := @ite_parts
  unfold State.fixProgram; repeat' split
  all_goals simp [*]
theorem State.fixGot_still (s : State) (id k : Nat) (lost : Bool) :
    (State.fixGot s id k lost).pending = s.pending ∧ (State.fixGot s id k lost).epoch = s.epoch ∧ (State.fixGot s id k lost).pat = s.pat ∧
    (State.fixGot s id k lost).dramMargin = s.dramMargin ∧ (State.fixGot s id k lost).ports = s.ports ∧
    (State.fixGot s id k lost).trickle = s.trickle ∧ (State.fixGot s id k lost).sec = s.sec ∧ (State.fixGot s id k lost).ctrs = s.ctrs ∧
    (State.fixGot s id k lost).grps = s.grps ∧ (State.fixGot s id k lost).thm = s.thm ∧ (State.fixGot s id k lost).age = s.age ∧
    (State.fixGot s id k lost).cnv = s.cnv ∧ (State.fixGot s id k lost).fwu = s.fwu ∧ (State.fixGot s id k lost).glb = s.glb := by
  have w1 := @State.fixProgram_still; have wi := @ite_parts
  unfold State.fixGot; repeat' split
  all_goals simp [*]
theorem State.startFix_still (s : State) (d block : Nat) (row : Option Nat) (tries : Nat) :
    (State.startFix s d block row tries).pending = s.pending ∧ (State.startFix s d block row tries).epoch = s.epoch ∧
    (State.startFix s d block row tries).pat = s.pat ∧ (State.startFix s d block row tries).dramMargin = s.dramMargin ∧
    (State.startFix s d block row tries).ports = s.ports ∧ (State.startFix s d block row tries).trickle = s.trickle ∧
    (State.startFix s d block row tries).sec = s.sec ∧ (State.startFix s d block row tries).ctrs = s.ctrs ∧
    (State.startFix s d block row tries).grps = s.grps ∧ (State.startFix s d block row tries).thm = s.thm ∧
    (State.startFix s d block row tries).age = s.age ∧ (State.startFix s d block row tries).cnv = s.cnv ∧
    (State.startFix s d block row tries).fwu = s.fwu ∧ (State.startFix s d block row tries).glb = s.glb := by
  have w1 := @State.enqueue_still; have w2 := @State.fixProgram_still; have wf := @foldl_parts; have wp := @foldl_snd_parts
  unfold State.startFix; repeat' split
  all_goals simp [*]
theorem State.dropFixes_still (s : State) (d : Nat) :
    (State.dropFixes s d).pending = s.pending ∧ (State.dropFixes s d).epoch = s.epoch ∧ (State.dropFixes s d).pat = s.pat ∧
    (State.dropFixes s d).isl = s.isl ∧ (State.dropFixes s d).dramMargin = s.dramMargin ∧ (State.dropFixes s d).ports = s.ports ∧
    (State.dropFixes s d).trickle = s.trickle ∧ (State.dropFixes s d).mlf = s.mlf ∧ (State.dropFixes s d).sec = s.sec ∧
    (State.dropFixes s d).ctrs = s.ctrs ∧ (State.dropFixes s d).grps = s.grps ∧ (State.dropFixes s d).pwr = s.pwr ∧
    (State.dropFixes s d).thm = s.thm ∧ (State.dropFixes s d).age = s.age ∧ (State.dropFixes s d).cnv = s.cnv ∧
    (State.dropFixes s d).fwu = s.fwu ∧ (State.dropFixes s d).glb = s.glb := by
  simp [State.dropFixes]
theorem State.give_still (s : State) (o : DieOp) (r : Rdr) (g : Got) :
    (State.give s o r g).pending = s.pending ∧ (State.give s o r g).epoch = s.epoch ∧ (State.give s o r g).pat = s.pat ∧
    (State.give s o r g).dramMargin = s.dramMargin ∧ (State.give s o r g).ports = s.ports ∧ (State.give s o r g).trickle = s.trickle ∧
    (State.give s o r g).sec = s.sec ∧ (State.give s o r g).ctrs = s.ctrs ∧ (State.give s o r g).grps = s.grps ∧
    (State.give s o r g).thm = s.thm ∧ (State.give s o r g).age = s.age ∧ (State.give s o r g).cnv = s.cnv ∧
    (State.give s o r g).fwu = s.fwu ∧ (State.give s o r g).glb = s.glb := by
  have w1 := @State.budget_still; have w2 := @State.giveCmd_still; have w3 := @State.cometLand_still
  have w4 := @State.relLost_still; have w5 := @State.relProgram_still; have w6 := @State.relGot_still
  have w7 := @State.fixGot_still; have wi := @ite_parts
  unfold State.give; repeat' split
  all_goals simp [*]
theorem State.readLost_still (s : State) (o : DieOp) (r : Rdr) :
    (State.readLost s o r).pending = s.pending ∧ (State.readLost s o r).epoch = s.epoch ∧ (State.readLost s o r).pat = s.pat ∧
    (State.readLost s o r).dramMargin = s.dramMargin ∧ (State.readLost s o r).ports = s.ports ∧
    (State.readLost s o r).trickle = s.trickle ∧ (State.readLost s o r).sec = s.sec ∧ (State.readLost s o r).ctrs = s.ctrs ∧
    (State.readLost s o r).grps = s.grps ∧ (State.readLost s o r).thm = s.thm ∧ (State.readLost s o r).age = s.age ∧
    (State.readLost s o r).cnv = s.cnv ∧ (State.readLost s o r).fwu = s.fwu ∧ (State.readLost s o r).glb = s.glb := by
  have w1 := @State.chCnt_still; have w2 := @State.lifeErr_still; have w3 := @State.modDie_still; have w4 := @State.startEcl_still
  have w5 := @State.give_still; have wi := @ite_parts
  unfold State.readLost; repeat' split
  all_goals simp [*]
theorem State.ladGo_still (s : State) (o : DieOp) (r : Rdr) (step : Nat) :
    (State.ladGo s o r step).pending = s.pending ∧ (State.ladGo s o r step).epoch = s.epoch ∧ (State.ladGo s o r step).pat = s.pat ∧
    (State.ladGo s o r step).dramMargin = s.dramMargin ∧ (State.ladGo s o r step).ports = s.ports ∧
    (State.ladGo s o r step).trickle = s.trickle ∧ (State.ladGo s o r step).sec = s.sec ∧ (State.ladGo s o r step).ctrs = s.ctrs ∧
    (State.ladGo s o r step).grps = s.grps ∧ (State.ladGo s o r step).thm = s.thm ∧ (State.ladGo s o r step).age = s.age ∧
    (State.ladGo s o r step).cnv = s.cnv ∧ (State.ladGo s o r step).fwu = s.fwu ∧ (State.ladGo s o r step).glb = s.glb := by
  have w1 := @State.readLost_still; have w2 := @State.enqueue_still; have wi := @ite_parts
  simp [State.ladGo, w1, w2, wi]
theorem State.eclAbandon_still (s : State) (e : Ecl) :
    (State.eclAbandon s e).pending = s.pending ∧ (State.eclAbandon s e).epoch = s.epoch ∧ (State.eclAbandon s e).pat = s.pat ∧
    (State.eclAbandon s e).dramMargin = s.dramMargin ∧ (State.eclAbandon s e).ports = s.ports ∧
    (State.eclAbandon s e).trickle = s.trickle ∧ (State.eclAbandon s e).sec = s.sec ∧ (State.eclAbandon s e).ctrs = s.ctrs ∧
    (State.eclAbandon s e).grps = s.grps ∧ (State.eclAbandon s e).thm = s.thm ∧ (State.eclAbandon s e).age = s.age ∧
    (State.eclAbandon s e).cnv = s.cnv ∧ (State.eclAbandon s e).fwu = s.fwu ∧ (State.eclAbandon s e).glb = s.glb := by
  have w1 := @State.setEcl_still; have w2 := @State.dropSources_still; have w3 := @State.clCnt_still
  have w4 := @State.freeBuf_still; have w5 := @State.give_still; have w6 := @State.readLost_still; have w7 := @State.unissue_still
  have w8 := @State.ladGo_still; have w9 := @State.enqueue_still; have wi := @ite_parts
  unfold State.eclAbandon; repeat' split
  all_goals simp [*]
theorem State.srcFail_still (s : State) (d : Nat) (r : Rdr) (k : Nat) :
    (State.srcFail s d r k).pending = s.pending ∧ (State.srcFail s d r k).epoch = s.epoch ∧ (State.srcFail s d r k).pat = s.pat ∧
    (State.srcFail s d r k).dramMargin = s.dramMargin ∧ (State.srcFail s d r k).ports = s.ports ∧
    (State.srcFail s d r k).trickle = s.trickle ∧ (State.srcFail s d r k).sec = s.sec ∧ (State.srcFail s d r k).ctrs = s.ctrs ∧
    (State.srcFail s d r k).grps = s.grps ∧ (State.srcFail s d r k).thm = s.thm ∧ (State.srcFail s d r k).age = s.age ∧
    (State.srcFail s d r k).cnv = s.cnv ∧ (State.srcFail s d r k).fwu = s.fwu ∧ (State.srcFail s d r k).glb = s.glb := by
  have w1 := @State.setEcl_still; have w2 := @State.enqueue_still; have w3 := @State.eclAbandon_still; have wi := @ite_parts
  unfold State.srcFail; dsimp only; repeat' split
  all_goals simp [*]
theorem State.srcGot_still (s : State) (d : Nat) (r : Rdr) (k : Nat) :
    (State.srcGot s d r k).pending = s.pending ∧ (State.srcGot s d r k).epoch = s.epoch ∧ (State.srcGot s d r k).pat = s.pat ∧
    (State.srcGot s d r k).dramMargin = s.dramMargin ∧ (State.srcGot s d r k).ports = s.ports ∧
    (State.srcGot s d r k).trickle = s.trickle ∧ (State.srcGot s d r k).sec = s.sec ∧ (State.srcGot s d r k).ctrs = s.ctrs ∧
    (State.srcGot s d r k).grps = s.grps ∧ (State.srcGot s d r k).thm = s.thm ∧ (State.srcGot s d r k).age = s.age ∧
    (State.srcGot s d r k).cnv = s.cnv ∧ (State.srcGot s d r k).fwu = s.fwu ∧ (State.srcGot s d r k).glb = s.glb := by
  have w1 := @State.setEcl_still; have w2 := @State.modDie_still; have w3 := @State.lifeErr_still; have w4 := @State.relCnt_still
  have w5 := @State.give_still; have w6 := @State.freeBuf_still; have wi := @ite_parts
  unfold State.srcGot; repeat' split
  all_goals simp [*]
theorem State.readGone_still (s : State) (o : DieOp) (r : Rdr) :
    (State.readGone s o r).pending = s.pending ∧ (State.readGone s o r).epoch = s.epoch ∧ (State.readGone s o r).pat = s.pat ∧
    (State.readGone s o r).dramMargin = s.dramMargin ∧ (State.readGone s o r).ports = s.ports ∧
    (State.readGone s o r).trickle = s.trickle ∧ (State.readGone s o r).sec = s.sec ∧ (State.readGone s o r).ctrs = s.ctrs ∧
    (State.readGone s o r).grps = s.grps ∧ (State.readGone s o r).thm = s.thm ∧ (State.readGone s o r).age = s.age ∧
    (State.readGone s o r).cnv = s.cnv ∧ (State.readGone s o r).fwu = s.fwu ∧ (State.readGone s o r).glb = s.glb := by
  have w1 := @State.freeBuf_still; have w2 := @State.unissue_still; have w3 := @State.cometLand_still
  have w4 := @State.relRead_still
  unfold State.readGone; repeat' split
  all_goals simp [*]
theorem State.dieOpLost_still (s : State) (d : Nat) (o : DieOp) :
    (State.dieOpLost s d o).pending = s.pending ∧ (State.dieOpLost s d o).epoch = s.epoch ∧ (State.dieOpLost s d o).pat = s.pat ∧
    (State.dieOpLost s d o).dramMargin = s.dramMargin ∧ (State.dieOpLost s d o).ports = s.ports ∧
    (State.dieOpLost s d o).trickle = s.trickle ∧ (State.dieOpLost s d o).sec = s.sec ∧ (State.dieOpLost s d o).ctrs = s.ctrs ∧
    (State.dieOpLost s d o).grps = s.grps ∧ (State.dieOpLost s d o).thm = s.thm ∧ (State.dieOpLost s d o).age = s.age ∧
    (State.dieOpLost s d o).cnv = s.cnv ∧ (State.dieOpLost s d o).fwu = s.fwu ∧ (State.dieOpLost s d o).glb = s.glb := by
  have w1 := @State.readGone_still; have w2 := @State.freeBuf_still; have w3 := @State.srcFail_still
  have w4 := @State.rowDieLost_still; have w5 := @State.landingDieLost_still; have w6 := @State.modBlk_still
  have w7 := @State.relocRestart_still; have wi := @ite_parts
  unfold State.dieOpLost; repeat' split
  all_goals simp [*]
theorem State.dieOpsLost_still (s : State) (d : Nat) (ops : List DieOp) :
    (State.dieOpsLost s d ops).pending = s.pending ∧ (State.dieOpsLost s d ops).epoch = s.epoch ∧ (State.dieOpsLost s d ops).pat = s.pat ∧
    (State.dieOpsLost s d ops).dramMargin = s.dramMargin ∧ (State.dieOpsLost s d ops).ports = s.ports ∧
    (State.dieOpsLost s d ops).trickle = s.trickle ∧ (State.dieOpsLost s d ops).sec = s.sec ∧ (State.dieOpsLost s d ops).ctrs = s.ctrs ∧
    (State.dieOpsLost s d ops).grps = s.grps ∧ (State.dieOpsLost s d ops).thm = s.thm ∧ (State.dieOpsLost s d ops).age = s.age ∧
    (State.dieOpsLost s d ops).cnv = s.cnv ∧ (State.dieOpsLost s d ops).fwu = s.fwu ∧ (State.dieOpsLost s d ops).glb = s.glb := by
  have w1 := @State.dieOpLost_still; have wf := @foldl_parts
  simp [State.dieOpsLost, w1, wf]
theorem State.dieGone_still (s : State) (d : Nat) (st : DieState) :
    (State.dieGone s d st).pending = s.pending ∧ (State.dieGone s d st).epoch = s.epoch ∧ (State.dieGone s d st).pat = s.pat ∧
    (State.dieGone s d st).dramMargin = s.dramMargin ∧ (State.dieGone s d st).ports = s.ports ∧
    (State.dieGone s d st).trickle = s.trickle ∧ (State.dieGone s d st).sec = s.sec ∧ (State.dieGone s d st).ctrs = s.ctrs ∧
    (State.dieGone s d st).grps = s.grps ∧ (State.dieGone s d st).thm = s.thm ∧ (State.dieGone s d st).age = s.age ∧
    (State.dieGone s d st).cnv = s.cnv ∧ (State.dieGone s d st).fwu = s.fwu ∧ (State.dieGone s d st).glb = s.glb := by
  have w1 := @State.setDie_still; have w2 := @State.dropFixes_still; have w3 := @State.rowDieLost_still
  have w4 := @State.dieOpsLost_still; have w5 := @State.relocRestart_still; have w6 := @State.landUnits_still
  have w7 := @State.zoneDieGone_still; have w8 := @State.refreshWaiting_still; have wf := @foldl_parts
  have wi := @ite_parts
  simp [State.dieGone, w1, w2, w3, w4, w5, w6, w7, w8, wf, wi]
theorem State.failDie_still (s : State) (d : Nat) :
    (State.failDie s d).pending = s.pending ∧ (State.failDie s d).epoch = s.epoch ∧ (State.failDie s d).pat = s.pat ∧
    (State.failDie s d).dramMargin = s.dramMargin ∧ (State.failDie s d).ports = s.ports ∧ (State.failDie s d).trickle = s.trickle ∧
    (State.failDie s d).sec = s.sec ∧ (State.failDie s d).ctrs = s.ctrs ∧ (State.failDie s d).grps = s.grps ∧
    (State.failDie s d).thm = s.thm ∧ (State.failDie s d).age = s.age ∧ (State.failDie s d).cnv = s.cnv ∧ (State.failDie s d).fwu = s.fwu ∧
    (State.failDie s d).glb = s.glb := by
  have w1 := @State.dieGone_still; have w2 := @State.queueRebuilds_still; have w3 := @State.spareCheck_still
  have w4 := @State.refreshWaiting_still; have wi := @ite_parts
  unfold State.failDie; dsimp only; repeat' split
  all_goals simp [*]
theorem State.swapSpare_still (s : State) (d k : Nat) :
    (State.swapSpare s d k).pending = s.pending ∧ (State.swapSpare s d k).free = s.free ∧ (State.swapSpare s d k).host = s.host ∧
    (State.swapSpare s d k).epoch = s.epoch ∧ (State.swapSpare s d k).pat = s.pat ∧ (State.swapSpare s d k).isl = s.isl ∧
    (State.swapSpare s d k).routes = s.routes ∧ (State.swapSpare s d k).dramMargin = s.dramMargin ∧
    (State.swapSpare s d k).ports = s.ports ∧ (State.swapSpare s d k).trickle = s.trickle ∧ (State.swapSpare s d k).cmd = s.cmd ∧
    (State.swapSpare s d k).zon = s.zon ∧ (State.swapSpare s d k).mlf = s.mlf ∧ (State.swapSpare s d k).cpx = s.cpx ∧
    (State.swapSpare s d k).wvf = s.wvf ∧ (State.swapSpare s d k).bpm = s.bpm ∧ (State.swapSpare s d k).sli = s.sli ∧
    (State.swapSpare s d k).sec = s.sec ∧ (State.swapSpare s d k).mic = s.mic ∧ (State.swapSpare s d k).flt = s.flt ∧
    (State.swapSpare s d k).ctrs = s.ctrs ∧ (State.swapSpare s d k).grps = s.grps ∧ (State.swapSpare s d k).pwr = s.pwr ∧
    (State.swapSpare s d k).thm = s.thm ∧ (State.swapSpare s d k).age = s.age ∧ (State.swapSpare s d k).cnv = s.cnv ∧
    (State.swapSpare s d k).fwu = s.fwu ∧ (State.swapSpare s d k).glb = s.glb ∧ (State.swapSpare s d k).sb = s.sb := by
  have w1 := @State.modBlk_still
  unfold State.swapSpare; repeat' split
  all_goals simp [*]
theorem State.retireBlock_still (s : State) (d k : Nat) :
    (State.retireBlock s d k).pending = s.pending ∧ (State.retireBlock s d k).epoch = s.epoch ∧ (State.retireBlock s d k).pat = s.pat ∧
    (State.retireBlock s d k).dramMargin = s.dramMargin ∧ (State.retireBlock s d k).ports = s.ports ∧
    (State.retireBlock s d k).trickle = s.trickle ∧ (State.retireBlock s d k).sec = s.sec ∧ (State.retireBlock s d k).ctrs = s.ctrs ∧
    (State.retireBlock s d k).grps = s.grps ∧ (State.retireBlock s d k).thm = s.thm ∧ (State.retireBlock s d k).age = s.age ∧
    (State.retireBlock s d k).cnv = s.cnv ∧ (State.retireBlock s d k).fwu = s.fwu ∧ (State.retireBlock s d k).glb = s.glb := by
  have w1 := @State.setDie_still; have w2 := @State.swapSpare_still; have w3 := @State.modBlk_still
  have w4 := @State.modDie_still; have w5 := @State.spareCheck_still; have w6 := @State.refreshWaiting_still
  have w7 := @State.failDie_still; have w8 := @State.modLife_still; have wf := @foldl_parts; have wp := @foldl_snd_parts
  have wi := @ite_parts
  unfold State.retireBlock; dsimp only; repeat' split
  all_goals simp [*]
theorem State.isolateChannel_still (s : State) (ch : Nat) :
    (State.isolateChannel s ch).pending = s.pending ∧ (State.isolateChannel s ch).epoch = s.epoch ∧
    (State.isolateChannel s ch).pat = s.pat ∧ (State.isolateChannel s ch).dramMargin = s.dramMargin ∧
    (State.isolateChannel s ch).ports = s.ports ∧ (State.isolateChannel s ch).trickle = s.trickle ∧
    (State.isolateChannel s ch).sec = s.sec ∧ (State.isolateChannel s ch).ctrs = s.ctrs ∧ (State.isolateChannel s ch).grps = s.grps ∧
    (State.isolateChannel s ch).thm = s.thm ∧ (State.isolateChannel s ch).age = s.age ∧ (State.isolateChannel s ch).cnv = s.cnv ∧
    (State.isolateChannel s ch).fwu = s.fwu ∧ (State.isolateChannel s ch).glb = s.glb := by
  have w1 := @State.modChan_still; have w2 := @State.failDie_still; have wf := @foldl_parts
  have wi := @ite_parts
  simp [State.isolateChannel, w1, w2, wf, wi]
theorem State.bayEvt_still (s : State) (b bit level : Nat) :
    (State.bayEvt s b bit level).pending = s.pending ∧ (State.bayEvt s b bit level).free = s.free ∧
    (State.bayEvt s b bit level).host = s.host ∧ (State.bayEvt s b bit level).epoch = s.epoch ∧ (State.bayEvt s b bit level).pat = s.pat ∧
    (State.bayEvt s b bit level).isl = s.isl ∧ (State.bayEvt s b bit level).routes = s.routes ∧
    (State.bayEvt s b bit level).dramMargin = s.dramMargin ∧ (State.bayEvt s b bit level).ports = s.ports ∧
    (State.bayEvt s b bit level).trickle = s.trickle ∧ (State.bayEvt s b bit level).cmd = s.cmd ∧
    (State.bayEvt s b bit level).zon = s.zon ∧ (State.bayEvt s b bit level).mlf = s.mlf ∧ (State.bayEvt s b bit level).cpx = s.cpx ∧
    (State.bayEvt s b bit level).wvf = s.wvf ∧ (State.bayEvt s b bit level).bpm = s.bpm ∧ (State.bayEvt s b bit level).sli = s.sli ∧
    (State.bayEvt s b bit level).sec = s.sec ∧ (State.bayEvt s b bit level).mic = s.mic ∧ (State.bayEvt s b bit level).ctrs = s.ctrs ∧
    (State.bayEvt s b bit level).grps = s.grps ∧ (State.bayEvt s b bit level).pwr = s.pwr ∧ (State.bayEvt s b bit level).thm = s.thm ∧
    (State.bayEvt s b bit level).age = s.age ∧ (State.bayEvt s b bit level).cnv = s.cnv ∧ (State.bayEvt s b bit level).fwu = s.fwu ∧
    (State.bayEvt s b bit level).glb = s.glb ∧ (State.bayEvt s b bit level).sb = s.sb := by
  have w1 := @State.modBay_still; have w2 := @State.queueFault_still
  simp [State.bayEvt, w1, w2]
theorem State.bayDiesGone_still (s : State) (b : Nat) :
    (State.bayDiesGone s b).pending = s.pending ∧ (State.bayDiesGone s b).epoch = s.epoch ∧ (State.bayDiesGone s b).pat = s.pat ∧
    (State.bayDiesGone s b).dramMargin = s.dramMargin ∧ (State.bayDiesGone s b).ports = s.ports ∧
    (State.bayDiesGone s b).trickle = s.trickle ∧ (State.bayDiesGone s b).sec = s.sec ∧ (State.bayDiesGone s b).ctrs = s.ctrs ∧
    (State.bayDiesGone s b).grps = s.grps ∧ (State.bayDiesGone s b).thm = s.thm ∧ (State.bayDiesGone s b).age = s.age ∧
    (State.bayDiesGone s b).cnv = s.cnv ∧ (State.bayDiesGone s b).fwu = s.fwu ∧ (State.bayDiesGone s b).glb = s.glb := by
  have w1 := @State.dieGone_still; have wf := @foldl_parts; have wi := @ite_parts
  simp [State.bayDiesGone, w1, wf, wi]
theorem State.closeBayRows_still (s : State) (b : Nat) :
    (State.closeBayRows s b).pending = s.pending ∧ (State.closeBayRows s b).free = s.free ∧ (State.closeBayRows s b).host = s.host ∧
    (State.closeBayRows s b).epoch = s.epoch ∧ (State.closeBayRows s b).pat = s.pat ∧ (State.closeBayRows s b).isl = s.isl ∧
    (State.closeBayRows s b).routes = s.routes ∧ (State.closeBayRows s b).dramMargin = s.dramMargin ∧
    (State.closeBayRows s b).ports = s.ports ∧ (State.closeBayRows s b).trickle = s.trickle ∧ (State.closeBayRows s b).cmd = s.cmd ∧
    (State.closeBayRows s b).zon = s.zon ∧ (State.closeBayRows s b).mlf = s.mlf ∧ (State.closeBayRows s b).cpx = s.cpx ∧
    (State.closeBayRows s b).wvf = s.wvf ∧ (State.closeBayRows s b).bpm = s.bpm ∧ (State.closeBayRows s b).sli = s.sli ∧
    (State.closeBayRows s b).sec = s.sec ∧ (State.closeBayRows s b).mic = s.mic ∧ (State.closeBayRows s b).flt = s.flt ∧
    (State.closeBayRows s b).ctrs = s.ctrs ∧ (State.closeBayRows s b).grps = s.grps ∧ (State.closeBayRows s b).pwr = s.pwr ∧
    (State.closeBayRows s b).thm = s.thm ∧ (State.closeBayRows s b).age = s.age ∧ (State.closeBayRows s b).cnv = s.cnv ∧
    (State.closeBayRows s b).fwu = s.fwu ∧ (State.closeBayRows s b).glb = s.glb ∧ (State.closeBayRows s b).sb = s.sb := by
  have w1 := @State.closeRows_still
  simp [State.closeBayRows, w1]
theorem State.bayLost_still (s : State) (b : Nat) (gone : Bool) :
    (State.bayLost s b gone).pending = s.pending ∧ (State.bayLost s b gone).epoch = s.epoch ∧ (State.bayLost s b gone).pat = s.pat ∧
    (State.bayLost s b gone).dramMargin = s.dramMargin ∧ (State.bayLost s b gone).ports = s.ports ∧
    (State.bayLost s b gone).trickle = s.trickle ∧ (State.bayLost s b gone).sec = s.sec ∧ (State.bayLost s b gone).ctrs = s.ctrs ∧
    (State.bayLost s b gone).grps = s.grps ∧ (State.bayLost s b gone).thm = s.thm ∧ (State.bayLost s b gone).age = s.age ∧
    (State.bayLost s b gone).cnv = s.cnv ∧ (State.bayLost s b gone).fwu = s.fwu ∧ (State.bayLost s b gone).glb = s.glb := by
  have w1 := @State.modBay_still; have w3 := @State.modChan_still
  have w4 := @State.bayDiesGone_still; have w5 := @State.modIsl_still; have w6 := @State.bayEvt_still; have wf := @foldl_parts
  simp [State.bayLost, w1, w3, w4, w5, w6, wf]
theorem State.bayLose_still (s : State) (b : Nat) (gone : Bool) :
    (State.bayLose s b gone).pending = s.pending ∧ (State.bayLose s b gone).epoch = s.epoch ∧ (State.bayLose s b gone).pat = s.pat ∧
    (State.bayLose s b gone).dramMargin = s.dramMargin ∧ (State.bayLose s b gone).ports = s.ports ∧
    (State.bayLose s b gone).trickle = s.trickle ∧ (State.bayLose s b gone).sec = s.sec ∧ (State.bayLose s b gone).ctrs = s.ctrs ∧
    (State.bayLose s b gone).grps = s.grps ∧ (State.bayLose s b gone).thm = s.thm ∧ (State.bayLose s b gone).age = s.age ∧
    (State.bayLose s b gone).cnv = s.cnv ∧ (State.bayLose s b gone).fwu = s.fwu ∧ (State.bayLose s b gone).glb = s.glb := by
  have w1 := @State.modBay_still; have w2 := @State.bayLost_still; have wi := @ite_parts
  simp [State.bayLose, w1, w2, wi]
theorem State.bayHeld_still (s : State) (b : Nat) :
    (State.bayHeld s b).pending = s.pending ∧ (State.bayHeld s b).free = s.free ∧ (State.bayHeld s b).host = s.host ∧
    (State.bayHeld s b).epoch = s.epoch ∧ (State.bayHeld s b).pat = s.pat ∧ (State.bayHeld s b).isl = s.isl ∧
    (State.bayHeld s b).routes = s.routes ∧ (State.bayHeld s b).dramMargin = s.dramMargin ∧ (State.bayHeld s b).ports = s.ports ∧
    (State.bayHeld s b).trickle = s.trickle ∧ (State.bayHeld s b).zon = s.zon ∧ (State.bayHeld s b).mlf = s.mlf ∧
    (State.bayHeld s b).cpx = s.cpx ∧ (State.bayHeld s b).wvf = s.wvf ∧ (State.bayHeld s b).bpm = s.bpm ∧ (State.bayHeld s b).sli = s.sli ∧
    (State.bayHeld s b).sec = s.sec ∧ (State.bayHeld s b).mic = s.mic ∧ (State.bayHeld s b).flt = s.flt ∧
    (State.bayHeld s b).ctrs = s.ctrs ∧ (State.bayHeld s b).grps = s.grps ∧ (State.bayHeld s b).pwr = s.pwr ∧
    (State.bayHeld s b).thm = s.thm ∧ (State.bayHeld s b).age = s.age ∧ (State.bayHeld s b).cnv = s.cnv ∧ (State.bayHeld s b).fwu = s.fwu ∧
    (State.bayHeld s b).glb = s.glb ∧ (State.bayHeld s b).sb = s.sb := by
  have w1 := @State.modBay_still
  simp [State.bayHeld, w1]
theorem State.bayAfterSafe_still (s : State) (b : Nat) :
    (State.bayAfterSafe s b).pending = s.pending ∧ (State.bayAfterSafe s b).epoch = s.epoch ∧ (State.bayAfterSafe s b).pat = s.pat ∧
    (State.bayAfterSafe s b).dramMargin = s.dramMargin ∧ (State.bayAfterSafe s b).ports = s.ports ∧
    (State.bayAfterSafe s b).trickle = s.trickle ∧ (State.bayAfterSafe s b).sec = s.sec ∧ (State.bayAfterSafe s b).ctrs = s.ctrs ∧
    (State.bayAfterSafe s b).grps = s.grps ∧ (State.bayAfterSafe s b).thm = s.thm ∧ (State.bayAfterSafe s b).age = s.age ∧
    (State.bayAfterSafe s b).cnv = s.cnv ∧ (State.bayAfterSafe s b).fwu = s.fwu ∧ (State.bayAfterSafe s b).glb = s.glb := by
  have w1 := @State.modBay_still; have w2 := @State.bayLost_still; have w3 := @State.setBay_still
  have w4 := @State.closeBayRows_still; have w5 := @State.bayHeld_still; have w6 := @State.bayEvt_still; have wi := @ite_parts
  unfold State.bayAfterSafe; dsimp only; repeat' split
  all_goals simp [*]
theorem State.saveSet_still (s : State) (set : Nat) :
    (State.saveSet s set).pending = s.pending ∧ (State.saveSet s set).free = s.free ∧ (State.saveSet s set).host = s.host ∧
    (State.saveSet s set).epoch = s.epoch ∧ (State.saveSet s set).pat = s.pat ∧ (State.saveSet s set).isl = s.isl ∧
    (State.saveSet s set).routes = s.routes ∧ (State.saveSet s set).dramMargin = s.dramMargin ∧ (State.saveSet s set).ports = s.ports ∧
    (State.saveSet s set).trickle = s.trickle ∧ (State.saveSet s set).cmd = s.cmd ∧ (State.saveSet s set).zon = s.zon ∧
    (State.saveSet s set).mlf = s.mlf ∧ (State.saveSet s set).cpx = s.cpx ∧ (State.saveSet s set).wvf = s.wvf ∧
    (State.saveSet s set).bpm = s.bpm ∧ (State.saveSet s set).sli = s.sli ∧ (State.saveSet s set).sec = s.sec ∧
    (State.saveSet s set).mic = s.mic ∧ (State.saveSet s set).flt = s.flt ∧ (State.saveSet s set).ctrs = s.ctrs ∧
    (State.saveSet s set).grps = s.grps ∧ (State.saveSet s set).pwr = s.pwr ∧ (State.saveSet s set).thm = s.thm ∧
    (State.saveSet s set).age = s.age ∧ (State.saveSet s set).cnv = s.cnv ∧ (State.saveSet s set).fwu = s.fwu ∧
    (State.saveSet s set).glb = s.glb ∧ (State.saveSet s set).sb = s.sb := by
  have w1 := @State.modLife_still
  simp [State.saveSet, w1]
theorem State.saveWear_still (s : State) :
    (State.saveWear s).pending = s.pending ∧ (State.saveWear s).free = s.free ∧ (State.saveWear s).host = s.host ∧
    (State.saveWear s).epoch = s.epoch ∧ (State.saveWear s).pat = s.pat ∧ (State.saveWear s).isl = s.isl ∧
    (State.saveWear s).routes = s.routes ∧ (State.saveWear s).dramMargin = s.dramMargin ∧ (State.saveWear s).ports = s.ports ∧
    (State.saveWear s).trickle = s.trickle ∧ (State.saveWear s).cmd = s.cmd ∧ (State.saveWear s).zon = s.zon ∧
    (State.saveWear s).mlf = s.mlf ∧ (State.saveWear s).cpx = s.cpx ∧ (State.saveWear s).wvf = s.wvf ∧ (State.saveWear s).bpm = s.bpm ∧
    (State.saveWear s).sli = s.sli ∧ (State.saveWear s).sec = s.sec ∧ (State.saveWear s).mic = s.mic ∧ (State.saveWear s).flt = s.flt ∧
    (State.saveWear s).ctrs = s.ctrs ∧ (State.saveWear s).grps = s.grps ∧ (State.saveWear s).pwr = s.pwr ∧ (State.saveWear s).thm = s.thm ∧
    (State.saveWear s).age = s.age ∧ (State.saveWear s).cnv = s.cnv ∧ (State.saveWear s).fwu = s.fwu ∧ (State.saveWear s).glb = s.glb ∧
    (State.saveWear s).sb = s.sb := by
  have w1 := @State.saveSet_still; have wf := @foldl_parts
  simp [State.saveWear, w1, wf]
theorem State.saveRecords_still (s : State) :
    (State.saveRecords s).pending = s.pending ∧ (State.saveRecords s).free = s.free ∧ (State.saveRecords s).host = s.host ∧
    (State.saveRecords s).epoch = s.epoch ∧ (State.saveRecords s).pat = s.pat ∧ (State.saveRecords s).isl = s.isl ∧
    (State.saveRecords s).routes = s.routes ∧ (State.saveRecords s).dramMargin = s.dramMargin ∧ (State.saveRecords s).ports = s.ports ∧
    (State.saveRecords s).trickle = s.trickle ∧ (State.saveRecords s).cmd = s.cmd ∧ (State.saveRecords s).zon = s.zon ∧
    (State.saveRecords s).cpx = s.cpx ∧ (State.saveRecords s).wvf = s.wvf ∧ (State.saveRecords s).bpm = s.bpm ∧
    (State.saveRecords s).sli = s.sli ∧ (State.saveRecords s).sec = s.sec ∧ (State.saveRecords s).mic = s.mic ∧
    (State.saveRecords s).flt = s.flt ∧ (State.saveRecords s).ctrs = s.ctrs ∧ (State.saveRecords s).grps = s.grps ∧
    (State.saveRecords s).pwr = s.pwr ∧ (State.saveRecords s).thm = s.thm ∧ (State.saveRecords s).age = s.age ∧
    (State.saveRecords s).cnv = s.cnv ∧ (State.saveRecords s).fwu = s.fwu ∧ (State.saveRecords s).glb = s.glb ∧
    (State.saveRecords s).sb = s.sb := by
  have w1 := @State.saveWear_still
  simp [State.saveRecords, w1]
theorem State.failJob_still (s : State) (c e stage : Nat) :
    (State.failJob s c e stage).pending = s.pending ∧ (State.failJob s c e stage).host = s.host ∧
    (State.failJob s c e stage).epoch = s.epoch ∧ (State.failJob s c e stage).pat = s.pat ∧ (State.failJob s c e stage).isl = s.isl ∧
    (State.failJob s c e stage).dramMargin = s.dramMargin ∧ (State.failJob s c e stage).ports = s.ports ∧
    (State.failJob s c e stage).trickle = s.trickle ∧ (State.failJob s c e stage).mlf = s.mlf ∧ (State.failJob s c e stage).sli = s.sli ∧
    (State.failJob s c e stage).sec = s.sec ∧ (State.failJob s c e stage).ctrs = s.ctrs ∧ (State.failJob s c e stage).grps = s.grps ∧
    (State.failJob s c e stage).pwr = s.pwr ∧ (State.failJob s c e stage).thm = s.thm ∧ (State.failJob s c e stage).age = s.age ∧
    (State.failJob s c e stage).cnv = s.cnv ∧ (State.failJob s c e stage).fwu = s.fwu ∧ (State.failJob s c e stage).glb = s.glb ∧
    (State.failJob s c e stage).sb = s.sb := by
  have w1 := @State.modJob_still; have w2 := @State.endWith_still; have wi := @ite_parts
  simp [State.failJob, w1, w2, wi]
theorem State.islandJobsEnd_still (s : State) (isl : Nat) :
    (State.islandJobsEnd s isl).pending = s.pending ∧ (State.islandJobsEnd s isl).host = s.host ∧
    (State.islandJobsEnd s isl).epoch = s.epoch ∧ (State.islandJobsEnd s isl).pat = s.pat ∧ (State.islandJobsEnd s isl).isl = s.isl ∧
    (State.islandJobsEnd s isl).dramMargin = s.dramMargin ∧ (State.islandJobsEnd s isl).ports = s.ports ∧
    (State.islandJobsEnd s isl).trickle = s.trickle ∧ (State.islandJobsEnd s isl).mlf = s.mlf ∧ (State.islandJobsEnd s isl).sli = s.sli ∧
    (State.islandJobsEnd s isl).sec = s.sec ∧ (State.islandJobsEnd s isl).ctrs = s.ctrs ∧ (State.islandJobsEnd s isl).grps = s.grps ∧
    (State.islandJobsEnd s isl).pwr = s.pwr ∧ (State.islandJobsEnd s isl).thm = s.thm ∧ (State.islandJobsEnd s isl).age = s.age ∧
    (State.islandJobsEnd s isl).cnv = s.cnv ∧ (State.islandJobsEnd s isl).fwu = s.fwu ∧ (State.islandJobsEnd s isl).glb = s.glb ∧
    (State.islandJobsEnd s isl).sb = s.sb := by
  have w1 := @State.failJob_still; have wf := @foldl_parts
  simp [State.islandJobsEnd, w1, wf]
theorem State.wakeJob_still (s : State) (c : Nat) :
    (State.wakeJob s c).pending = s.pending ∧ (State.wakeJob s c).free = s.free ∧ (State.wakeJob s c).host = s.host ∧
    (State.wakeJob s c).epoch = s.epoch ∧ (State.wakeJob s c).pat = s.pat ∧ (State.wakeJob s c).routes = s.routes ∧
    (State.wakeJob s c).dramMargin = s.dramMargin ∧ (State.wakeJob s c).ports = s.ports ∧ (State.wakeJob s c).trickle = s.trickle ∧
    (State.wakeJob s c).cmd = s.cmd ∧ (State.wakeJob s c).zon = s.zon ∧ (State.wakeJob s c).med = s.med ∧ (State.wakeJob s c).mlf = s.mlf ∧
    (State.wakeJob s c).cpx = s.cpx ∧ (State.wakeJob s c).wvf = s.wvf ∧ (State.wakeJob s c).bpm = s.bpm ∧ (State.wakeJob s c).sli = s.sli ∧
    (State.wakeJob s c).sec = s.sec ∧ (State.wakeJob s c).mic = s.mic ∧ (State.wakeJob s c).flt = s.flt ∧
    (State.wakeJob s c).ctrs = s.ctrs ∧ (State.wakeJob s c).grps = s.grps ∧ (State.wakeJob s c).thm = s.thm ∧
    (State.wakeJob s c).age = s.age ∧ (State.wakeJob s c).cnv = s.cnv ∧ (State.wakeJob s c).fwu = s.fwu ∧ (State.wakeJob s c).glb = s.glb ∧
    (State.wakeJob s c).sb = s.sb := by
  have w1 := @State.access_still; have wf := @foldl_parts
  simp [State.wakeJob, w1, wf]
theorem State.noteShared_still (s : State) (c : Nat) (l : List (Nat × Nat × Nat)) :
    (State.noteShared s c l).pending = s.pending ∧ (State.noteShared s c l).free = s.free ∧ (State.noteShared s c l).host = s.host ∧
    (State.noteShared s c l).epoch = s.epoch ∧ (State.noteShared s c l).pat = s.pat ∧ (State.noteShared s c l).isl = s.isl ∧
    (State.noteShared s c l).routes = s.routes ∧ (State.noteShared s c l).dramMargin = s.dramMargin ∧
    (State.noteShared s c l).ports = s.ports ∧ (State.noteShared s c l).trickle = s.trickle ∧ (State.noteShared s c l).cmd = s.cmd ∧
    (State.noteShared s c l).zon = s.zon ∧ (State.noteShared s c l).med = s.med ∧ (State.noteShared s c l).mlf = s.mlf ∧
    (State.noteShared s c l).wvf = s.wvf ∧ (State.noteShared s c l).bpm = s.bpm ∧ (State.noteShared s c l).sli = s.sli ∧
    (State.noteShared s c l).sec = s.sec ∧ (State.noteShared s c l).mic = s.mic ∧ (State.noteShared s c l).flt = s.flt ∧
    (State.noteShared s c l).ctrs = s.ctrs ∧ (State.noteShared s c l).grps = s.grps ∧ (State.noteShared s c l).pwr = s.pwr ∧
    (State.noteShared s c l).thm = s.thm ∧ (State.noteShared s c l).age = s.age ∧ (State.noteShared s c l).cnv = s.cnv ∧
    (State.noteShared s c l).fwu = s.fwu ∧ (State.noteShared s c l).glb = s.glb ∧ (State.noteShared s c l).sb = s.sb := by
  have w1 := @State.modJob_still; have wi := @ite_parts
  simp [State.noteShared, w1, wi]
theorem State.shareWith_still (s : State) (sl c : Nat) (acc wr : List (Nat × Nat × Nat)) (k : Nat) :
    (State.shareWith s sl c acc wr k).pending = s.pending ∧ (State.shareWith s sl c acc wr k).host = s.host ∧
    (State.shareWith s sl c acc wr k).epoch = s.epoch ∧ (State.shareWith s sl c acc wr k).pat = s.pat ∧
    (State.shareWith s sl c acc wr k).isl = s.isl ∧ (State.shareWith s sl c acc wr k).routes = s.routes ∧
    (State.shareWith s sl c acc wr k).dramMargin = s.dramMargin ∧ (State.shareWith s sl c acc wr k).ports = s.ports ∧
    (State.shareWith s sl c acc wr k).trickle = s.trickle ∧ (State.shareWith s sl c acc wr k).cmd = s.cmd ∧
    (State.shareWith s sl c acc wr k).zon = s.zon ∧ (State.shareWith s sl c acc wr k).med = s.med ∧
    (State.shareWith s sl c acc wr k).mlf = s.mlf ∧ (State.shareWith s sl c acc wr k).wvf = s.wvf ∧
    (State.shareWith s sl c acc wr k).bpm = s.bpm ∧ (State.shareWith s sl c acc wr k).sli = s.sli ∧
    (State.shareWith s sl c acc wr k).sec = s.sec ∧ (State.shareWith s sl c acc wr k).mic = s.mic ∧
    (State.shareWith s sl c acc wr k).flt = s.flt ∧ (State.shareWith s sl c acc wr k).ctrs = s.ctrs ∧
    (State.shareWith s sl c acc wr k).grps = s.grps ∧ (State.shareWith s sl c acc wr k).pwr = s.pwr ∧
    (State.shareWith s sl c acc wr k).thm = s.thm ∧ (State.shareWith s sl c acc wr k).age = s.age ∧
    (State.shareWith s sl c acc wr k).cnv = s.cnv ∧ (State.shareWith s sl c acc wr k).fwu = s.fwu ∧
    (State.shareWith s sl c acc wr k).glb = s.glb ∧ (State.shareWith s sl c acc wr k).sb = s.sb := by
  have w1 := @State.havocRanges_still; have w2 := @State.noteShared_still; have wi := @ite_parts
  simp [State.shareWith, w1, w2, wi]
theorem State.shareJob_still (s : State) (c : Nat) :
    (State.shareJob s c).pending = s.pending ∧ (State.shareJob s c).host = s.host ∧ (State.shareJob s c).epoch = s.epoch ∧
    (State.shareJob s c).pat = s.pat ∧ (State.shareJob s c).isl = s.isl ∧ (State.shareJob s c).routes = s.routes ∧
    (State.shareJob s c).dramMargin = s.dramMargin ∧ (State.shareJob s c).ports = s.ports ∧ (State.shareJob s c).trickle = s.trickle ∧
    (State.shareJob s c).cmd = s.cmd ∧ (State.shareJob s c).zon = s.zon ∧ (State.shareJob s c).med = s.med ∧
    (State.shareJob s c).mlf = s.mlf ∧ (State.shareJob s c).wvf = s.wvf ∧ (State.shareJob s c).bpm = s.bpm ∧
    (State.shareJob s c).sli = s.sli ∧ (State.shareJob s c).sec = s.sec ∧ (State.shareJob s c).mic = s.mic ∧
    (State.shareJob s c).flt = s.flt ∧ (State.shareJob s c).ctrs = s.ctrs ∧ (State.shareJob s c).grps = s.grps ∧
    (State.shareJob s c).pwr = s.pwr ∧ (State.shareJob s c).thm = s.thm ∧ (State.shareJob s c).age = s.age ∧
    (State.shareJob s c).cnv = s.cnv ∧ (State.shareJob s c).fwu = s.fwu ∧ (State.shareJob s c).glb = s.glb ∧ (State.shareJob s c).sb = s.sb := by
  have w1 := @State.shareWith_still; have wf := @foldl_parts
  simp [State.shareJob, w1, wf]
theorem State.spoilShared_still (s : State) (c : Nat) :
    (State.spoilShared s c).pending = s.pending ∧ (State.spoilShared s c).host = s.host ∧ (State.spoilShared s c).epoch = s.epoch ∧
    (State.spoilShared s c).pat = s.pat ∧ (State.spoilShared s c).isl = s.isl ∧ (State.spoilShared s c).routes = s.routes ∧
    (State.spoilShared s c).dramMargin = s.dramMargin ∧ (State.spoilShared s c).ports = s.ports ∧
    (State.spoilShared s c).trickle = s.trickle ∧ (State.spoilShared s c).cmd = s.cmd ∧ (State.spoilShared s c).zon = s.zon ∧
    (State.spoilShared s c).med = s.med ∧ (State.spoilShared s c).mlf = s.mlf ∧ (State.spoilShared s c).wvf = s.wvf ∧
    (State.spoilShared s c).bpm = s.bpm ∧ (State.spoilShared s c).sli = s.sli ∧ (State.spoilShared s c).sec = s.sec ∧
    (State.spoilShared s c).mic = s.mic ∧ (State.spoilShared s c).flt = s.flt ∧ (State.spoilShared s c).ctrs = s.ctrs ∧
    (State.spoilShared s c).grps = s.grps ∧ (State.spoilShared s c).pwr = s.pwr ∧ (State.spoilShared s c).thm = s.thm ∧
    (State.spoilShared s c).age = s.age ∧ (State.spoilShared s c).cnv = s.cnv ∧ (State.spoilShared s c).fwu = s.fwu ∧
    (State.spoilShared s c).glb = s.glb ∧ (State.spoilShared s c).sb = s.sb := by
  have w1 := @State.havocRanges_still
  simp [State.spoilShared, w1]
theorem State.bar2Share_still (s : State) (sl : Nat) (r : Nat × Nat × Nat) (wr : Bool) :
    (State.bar2Share s sl r wr).pending = s.pending ∧ (State.bar2Share s sl r wr).host = s.host ∧
    (State.bar2Share s sl r wr).epoch = s.epoch ∧ (State.bar2Share s sl r wr).pat = s.pat ∧ (State.bar2Share s sl r wr).isl = s.isl ∧
    (State.bar2Share s sl r wr).routes = s.routes ∧ (State.bar2Share s sl r wr).dramMargin = s.dramMargin ∧
    (State.bar2Share s sl r wr).ports = s.ports ∧ (State.bar2Share s sl r wr).trickle = s.trickle ∧
    (State.bar2Share s sl r wr).cmd = s.cmd ∧ (State.bar2Share s sl r wr).zon = s.zon ∧ (State.bar2Share s sl r wr).med = s.med ∧
    (State.bar2Share s sl r wr).mlf = s.mlf ∧ (State.bar2Share s sl r wr).wvf = s.wvf ∧ (State.bar2Share s sl r wr).bpm = s.bpm ∧
    (State.bar2Share s sl r wr).sli = s.sli ∧ (State.bar2Share s sl r wr).sec = s.sec ∧ (State.bar2Share s sl r wr).mic = s.mic ∧
    (State.bar2Share s sl r wr).flt = s.flt ∧ (State.bar2Share s sl r wr).ctrs = s.ctrs ∧ (State.bar2Share s sl r wr).grps = s.grps ∧
    (State.bar2Share s sl r wr).pwr = s.pwr ∧ (State.bar2Share s sl r wr).thm = s.thm ∧ (State.bar2Share s sl r wr).age = s.age ∧
    (State.bar2Share s sl r wr).cnv = s.cnv ∧ (State.bar2Share s sl r wr).fwu = s.fwu ∧ (State.bar2Share s sl r wr).glb = s.glb ∧
    (State.bar2Share s sl r wr).sb = s.sb := by
  have w1 := @State.shareWith_still; have w2 := @State.modJob_still; have wf := @foldl_parts
  have wi := @ite_parts
  simp [State.bar2Share, w1, w2, wf, wi]
theorem State.jobView_still (s : State) (c : Nat) :
    (State.jobView s c).pending = s.pending ∧ (State.jobView s c).host = s.host ∧ (State.jobView s c).epoch = s.epoch ∧
    (State.jobView s c).pat = s.pat ∧ (State.jobView s c).isl = s.isl ∧ (State.jobView s c).routes = s.routes ∧
    (State.jobView s c).dramMargin = s.dramMargin ∧ (State.jobView s c).ports = s.ports ∧ (State.jobView s c).trickle = s.trickle ∧
    (State.jobView s c).cmd = s.cmd ∧ (State.jobView s c).zon = s.zon ∧ (State.jobView s c).med = s.med ∧ (State.jobView s c).mlf = s.mlf ∧
    (State.jobView s c).wvf = s.wvf ∧ (State.jobView s c).bpm = s.bpm ∧ (State.jobView s c).sli = s.sli ∧ (State.jobView s c).sec = s.sec ∧
    (State.jobView s c).mic = s.mic ∧ (State.jobView s c).flt = s.flt ∧ (State.jobView s c).ctrs = s.ctrs ∧
    (State.jobView s c).grps = s.grps ∧ (State.jobView s c).pwr = s.pwr ∧ (State.jobView s c).thm = s.thm ∧
    (State.jobView s c).age = s.age ∧ (State.jobView s c).cnv = s.cnv ∧ (State.jobView s c).fwu = s.fwu ∧ (State.jobView s c).glb = s.glb ∧
    (State.jobView s c).sb = s.sb := by
  have w1 := @State.havocRanges_still
  simp [State.jobView, w1]
theorem State.enter11_still (s : State) (c : Nat) :
    (State.enter11 s c).pending = s.pending ∧ (State.enter11 s c).host = s.host ∧ (State.enter11 s c).epoch = s.epoch ∧
    (State.enter11 s c).pat = s.pat ∧ (State.enter11 s c).routes = s.routes ∧ (State.enter11 s c).dramMargin = s.dramMargin ∧
    (State.enter11 s c).ports = s.ports ∧ (State.enter11 s c).trickle = s.trickle ∧ (State.enter11 s c).zon = s.zon ∧
    (State.enter11 s c).med = s.med ∧ (State.enter11 s c).mlf = s.mlf ∧ (State.enter11 s c).bpm = s.bpm ∧ (State.enter11 s c).sli = s.sli ∧
    (State.enter11 s c).sec = s.sec ∧ (State.enter11 s c).mic = s.mic ∧ (State.enter11 s c).flt = s.flt ∧
    (State.enter11 s c).ctrs = s.ctrs ∧ (State.enter11 s c).grps = s.grps ∧ (State.enter11 s c).thm = s.thm ∧
    (State.enter11 s c).age = s.age ∧ (State.enter11 s c).cnv = s.cnv ∧ (State.enter11 s c).fwu = s.fwu ∧ (State.enter11 s c).glb = s.glb ∧
    (State.enter11 s c).sb = s.sb := by
  have w1 := @State.modJob_still; have w2 := @State.modCtx_still; have w3 := @State.shareJob_still
  have w4 := @State.takeEngines_still; have w5 := @State.wakeJob_still
  simp [State.enter11, w1, w2, w3, w4, w5]
theorem State.routedJob_still (s : State) (c : Nat) :
    (State.routedJob s c).pending = s.pending ∧ (State.routedJob s c).host = s.host ∧ (State.routedJob s c).epoch = s.epoch ∧
    (State.routedJob s c).pat = s.pat ∧ (State.routedJob s c).routes = s.routes ∧ (State.routedJob s c).dramMargin = s.dramMargin ∧
    (State.routedJob s c).ports = s.ports ∧ (State.routedJob s c).trickle = s.trickle ∧ (State.routedJob s c).zon = s.zon ∧
    (State.routedJob s c).med = s.med ∧ (State.routedJob s c).mlf = s.mlf ∧ (State.routedJob s c).bpm = s.bpm ∧
    (State.routedJob s c).sli = s.sli ∧ (State.routedJob s c).sec = s.sec ∧ (State.routedJob s c).mic = s.mic ∧
    (State.routedJob s c).flt = s.flt ∧ (State.routedJob s c).ctrs = s.ctrs ∧ (State.routedJob s c).grps = s.grps ∧
    (State.routedJob s c).thm = s.thm ∧ (State.routedJob s c).age = s.age ∧ (State.routedJob s c).cnv = s.cnv ∧
    (State.routedJob s c).fwu = s.fwu ∧ (State.routedJob s c).glb = s.glb ∧ (State.routedJob s c).sb = s.sb := by
  have w1 := @State.setJob_still; have w2 := @State.enter11_still
  simp [State.routedJob, w1, w2]
theorem State.jobInputFail_still (s : State) (c : Nat) (v : StatusVal) :
    (State.jobInputFail s c v).pending = s.pending ∧ (State.jobInputFail s c v).host = s.host ∧
    (State.jobInputFail s c v).epoch = s.epoch ∧ (State.jobInputFail s c v).pat = s.pat ∧ (State.jobInputFail s c v).isl = s.isl ∧
    (State.jobInputFail s c v).dramMargin = s.dramMargin ∧ (State.jobInputFail s c v).ports = s.ports ∧
    (State.jobInputFail s c v).trickle = s.trickle ∧ (State.jobInputFail s c v).mlf = s.mlf ∧ (State.jobInputFail s c v).sli = s.sli ∧
    (State.jobInputFail s c v).sec = s.sec ∧ (State.jobInputFail s c v).ctrs = s.ctrs ∧ (State.jobInputFail s c v).grps = s.grps ∧
    (State.jobInputFail s c v).pwr = s.pwr ∧ (State.jobInputFail s c v).thm = s.thm ∧ (State.jobInputFail s c v).age = s.age ∧
    (State.jobInputFail s c v).cnv = s.cnv ∧ (State.jobInputFail s c v).fwu = s.fwu ∧ (State.jobInputFail s c v).glb = s.glb ∧
    (State.jobInputFail s c v).sb = s.sb := by
  have w1 := @State.modJob_still; have w2 := @State.endWith_still
  simp [State.jobInputFail, w1, w2]
theorem State.jobInput_still (s : State) (c : Nat) :
    (State.jobInput s c).pending = s.pending ∧ (State.jobInput s c).host = s.host ∧ (State.jobInput s c).epoch = s.epoch ∧
    (State.jobInput s c).pat = s.pat ∧ (State.jobInput s c).dramMargin = s.dramMargin ∧ (State.jobInput s c).ports = s.ports ∧
    (State.jobInput s c).trickle = s.trickle ∧ (State.jobInput s c).mlf = s.mlf ∧ (State.jobInput s c).sli = s.sli ∧
    (State.jobInput s c).sec = s.sec ∧ (State.jobInput s c).ctrs = s.ctrs ∧ (State.jobInput s c).grps = s.grps ∧
    (State.jobInput s c).thm = s.thm ∧ (State.jobInput s c).age = s.age ∧ (State.jobInput s c).cnv = s.cnv ∧
    (State.jobInput s c).fwu = s.fwu ∧ (State.jobInput s c).glb = s.glb ∧ (State.jobInput s c).sb = s.sb := by
  have w1 := @State.enter11_still; have w2 := @State.jobInputFail_still; have w3 := @State.modCtx_still
  unfold State.jobInput; dsimp only; repeat' split
  all_goals simp [*]
theorem State.cometIssue_still (s : State) (id : Nat) :
    (State.cometIssue s id).pending = s.pending ∧ (State.cometIssue s id).free = s.free ∧ (State.cometIssue s id).host = s.host ∧
    (State.cometIssue s id).epoch = s.epoch ∧ (State.cometIssue s id).pat = s.pat ∧ (State.cometIssue s id).routes = s.routes ∧
    (State.cometIssue s id).dramMargin = s.dramMargin ∧ (State.cometIssue s id).ports = s.ports ∧
    (State.cometIssue s id).trickle = s.trickle ∧ (State.cometIssue s id).zon = s.zon ∧ (State.cometIssue s id).mlf = s.mlf ∧
    (State.cometIssue s id).cpx = s.cpx ∧ (State.cometIssue s id).wvf = s.wvf ∧ (State.cometIssue s id).bpm = s.bpm ∧
    (State.cometIssue s id).sec = s.sec ∧ (State.cometIssue s id).mic = s.mic ∧ (State.cometIssue s id).flt = s.flt ∧
    (State.cometIssue s id).ctrs = s.ctrs ∧ (State.cometIssue s id).grps = s.grps ∧ (State.cometIssue s id).thm = s.thm ∧
    (State.cometIssue s id).age = s.age ∧ (State.cometIssue s id).cnv = s.cnv ∧ (State.cometIssue s id).fwu = s.fwu ∧
    (State.cometIssue s id).glb = s.glb ∧ (State.cometIssue s id).sb = s.sb := by
  have w1 := @State.sqCnt_still; have w2 := @State.enqueue_still; have wf := @foldl_parts; have wp := @foldl_snd_parts
  unfold State.cometIssue; repeat' split
  all_goals simp [*]
theorem State.cometCharge_still (s : State) (sl : Nat) (l : CometLba) :
    (State.cometCharge s sl l).pending = s.pending ∧ (State.cometCharge s sl l).free = s.free ∧ (State.cometCharge s sl l).host = s.host ∧
    (State.cometCharge s sl l).epoch = s.epoch ∧ (State.cometCharge s sl l).pat = s.pat ∧ (State.cometCharge s sl l).isl = s.isl ∧
    (State.cometCharge s sl l).routes = s.routes ∧ (State.cometCharge s sl l).dramMargin = s.dramMargin ∧
    (State.cometCharge s sl l).ports = s.ports ∧ (State.cometCharge s sl l).trickle = s.trickle ∧ (State.cometCharge s sl l).cmd = s.cmd ∧
    (State.cometCharge s sl l).zon = s.zon ∧ (State.cometCharge s sl l).med = s.med ∧ (State.cometCharge s sl l).mlf = s.mlf ∧
    (State.cometCharge s sl l).cpx = s.cpx ∧ (State.cometCharge s sl l).wvf = s.wvf ∧ (State.cometCharge s sl l).bpm = s.bpm ∧
    (State.cometCharge s sl l).sec = s.sec ∧ (State.cometCharge s sl l).mic = s.mic ∧ (State.cometCharge s sl l).flt = s.flt ∧
    (State.cometCharge s sl l).ctrs = s.ctrs ∧ (State.cometCharge s sl l).grps = s.grps ∧ (State.cometCharge s sl l).pwr = s.pwr ∧
    (State.cometCharge s sl l).thm = s.thm ∧ (State.cometCharge s sl l).age = s.age ∧ (State.cometCharge s sl l).cnv = s.cnv ∧
    (State.cometCharge s sl l).fwu = s.fwu ∧ (State.cometCharge s sl l).glb = s.glb ∧ (State.cometCharge s sl l).sb = s.sb := by
  have w1 := @State.charge_still
  simp [State.cometCharge, w1]
theorem State.cometConsume_still (s : State) (sl n lo hi : Nat) :
    (State.cometConsume s sl n lo hi).pending = s.pending ∧ (State.cometConsume s sl n lo hi).free = s.free ∧
    (State.cometConsume s sl n lo hi).host = s.host ∧ (State.cometConsume s sl n lo hi).epoch = s.epoch ∧
    (State.cometConsume s sl n lo hi).pat = s.pat ∧ (State.cometConsume s sl n lo hi).isl = s.isl ∧
    (State.cometConsume s sl n lo hi).routes = s.routes ∧ (State.cometConsume s sl n lo hi).dramMargin = s.dramMargin ∧
    (State.cometConsume s sl n lo hi).ports = s.ports ∧ (State.cometConsume s sl n lo hi).trickle = s.trickle ∧
    (State.cometConsume s sl n lo hi).zon = s.zon ∧ (State.cometConsume s sl n lo hi).med = s.med ∧
    (State.cometConsume s sl n lo hi).mlf = s.mlf ∧ (State.cometConsume s sl n lo hi).cpx = s.cpx ∧
    (State.cometConsume s sl n lo hi).wvf = s.wvf ∧ (State.cometConsume s sl n lo hi).bpm = s.bpm ∧
    (State.cometConsume s sl n lo hi).sec = s.sec ∧ (State.cometConsume s sl n lo hi).mic = s.mic ∧
    (State.cometConsume s sl n lo hi).flt = s.flt ∧ (State.cometConsume s sl n lo hi).ctrs = s.ctrs ∧
    (State.cometConsume s sl n lo hi).grps = s.grps ∧ (State.cometConsume s sl n lo hi).pwr = s.pwr ∧
    (State.cometConsume s sl n lo hi).thm = s.thm ∧ (State.cometConsume s sl n lo hi).age = s.age ∧
    (State.cometConsume s sl n lo hi).cnv = s.cnv ∧ (State.cometConsume s sl n lo hi).fwu = s.fwu ∧
    (State.cometConsume s sl n lo hi).glb = s.glb ∧ (State.cometConsume s sl n lo hi).sb = s.sb := by
  have w1 := @State.cometCharge_still; have w2 := @State.sqCnt_still; have wf := @foldl_parts
  have wi := @ite_parts
  simp [State.cometConsume, w1, w2, wf, wi]
theorem State.cometRoom_still (s : State) :
    (State.cometRoom s).pending = s.pending ∧ (State.cometRoom s).free = s.free ∧ (State.cometRoom s).host = s.host ∧
    (State.cometRoom s).epoch = s.epoch ∧ (State.cometRoom s).pat = s.pat ∧ (State.cometRoom s).isl = s.isl ∧
    (State.cometRoom s).routes = s.routes ∧ (State.cometRoom s).dramMargin = s.dramMargin ∧ (State.cometRoom s).ports = s.ports ∧
    (State.cometRoom s).trickle = s.trickle ∧ (State.cometRoom s).zon = s.zon ∧ (State.cometRoom s).med = s.med ∧
    (State.cometRoom s).mlf = s.mlf ∧ (State.cometRoom s).cpx = s.cpx ∧ (State.cometRoom s).wvf = s.wvf ∧ (State.cometRoom s).bpm = s.bpm ∧
    (State.cometRoom s).sli = s.sli ∧ (State.cometRoom s).sec = s.sec ∧ (State.cometRoom s).mic = s.mic ∧ (State.cometRoom s).flt = s.flt ∧
    (State.cometRoom s).ctrs = s.ctrs ∧ (State.cometRoom s).grps = s.grps ∧ (State.cometRoom s).pwr = s.pwr ∧
    (State.cometRoom s).thm = s.thm ∧ (State.cometRoom s).age = s.age ∧ (State.cometRoom s).cnv = s.cnv ∧ (State.cometRoom s).fwu = s.fwu ∧
    (State.cometRoom s).glb = s.glb ∧ (State.cometRoom s).sb = s.sb := by
  have wf := @foldl_parts; have wp := @foldl_snd_parts; have wi := @ite_parts
  unfold State.cometRoom; repeat' split
  all_goals simp [*]
theorem State.cometNew_still (s : State) (sl n next size : Nat) :
    (State.cometNew s sl n next size).pending = s.pending ∧ (State.cometNew s sl n next size).free = s.free ∧
    (State.cometNew s sl n next size).host = s.host ∧ (State.cometNew s sl n next size).epoch = s.epoch ∧
    (State.cometNew s sl n next size).pat = s.pat ∧ (State.cometNew s sl n next size).routes = s.routes ∧
    (State.cometNew s sl n next size).dramMargin = s.dramMargin ∧ (State.cometNew s sl n next size).ports = s.ports ∧
    (State.cometNew s sl n next size).trickle = s.trickle ∧ (State.cometNew s sl n next size).zon = s.zon ∧
    (State.cometNew s sl n next size).mlf = s.mlf ∧ (State.cometNew s sl n next size).cpx = s.cpx ∧
    (State.cometNew s sl n next size).wvf = s.wvf ∧ (State.cometNew s sl n next size).bpm = s.bpm ∧
    (State.cometNew s sl n next size).sec = s.sec ∧ (State.cometNew s sl n next size).mic = s.mic ∧
    (State.cometNew s sl n next size).flt = s.flt ∧ (State.cometNew s sl n next size).ctrs = s.ctrs ∧
    (State.cometNew s sl n next size).grps = s.grps ∧ (State.cometNew s sl n next size).thm = s.thm ∧
    (State.cometNew s sl n next size).age = s.age ∧ (State.cometNew s sl n next size).cnv = s.cnv ∧
    (State.cometNew s sl n next size).fwu = s.fwu ∧ (State.cometNew s sl n next size).glb = s.glb ∧
    (State.cometNew s sl n next size).sb = s.sb := by
  have w1 := @State.cometRoom_still; have w2 := @State.cometIssue_still; have wi := @ite_parts
  unfold State.cometNew; dsimp only; repeat' split
  all_goals simp [*]
theorem State.cometSee_still (s : State) (sl n lba size : Nat) :
    (State.cometSee s sl n lba size).pending = s.pending ∧ (State.cometSee s sl n lba size).free = s.free ∧
    (State.cometSee s sl n lba size).host = s.host ∧ (State.cometSee s sl n lba size).epoch = s.epoch ∧
    (State.cometSee s sl n lba size).pat = s.pat ∧ (State.cometSee s sl n lba size).routes = s.routes ∧
    (State.cometSee s sl n lba size).dramMargin = s.dramMargin ∧ (State.cometSee s sl n lba size).ports = s.ports ∧
    (State.cometSee s sl n lba size).trickle = s.trickle ∧ (State.cometSee s sl n lba size).zon = s.zon ∧
    (State.cometSee s sl n lba size).mlf = s.mlf ∧ (State.cometSee s sl n lba size).cpx = s.cpx ∧
    (State.cometSee s sl n lba size).wvf = s.wvf ∧ (State.cometSee s sl n lba size).bpm = s.bpm ∧
    (State.cometSee s sl n lba size).sec = s.sec ∧ (State.cometSee s sl n lba size).mic = s.mic ∧
    (State.cometSee s sl n lba size).flt = s.flt ∧ (State.cometSee s sl n lba size).ctrs = s.ctrs ∧
    (State.cometSee s sl n lba size).grps = s.grps ∧ (State.cometSee s sl n lba size).thm = s.thm ∧
    (State.cometSee s sl n lba size).age = s.age ∧ (State.cometSee s sl n lba size).cnv = s.cnv ∧
    (State.cometSee s sl n lba size).fwu = s.fwu ∧ (State.cometSee s sl n lba size).glb = s.glb ∧
    (State.cometSee s sl n lba size).sb = s.sb := by
  have w1 := @State.cometIssue_still; have w2 := @State.cometNew_still
  unfold State.cometSee; dsimp only; repeat' split
  all_goals simp [*]
theorem State.enterLock_still (s : State) (c nxt : Nat) :
    (State.enterLock s c nxt).pending = s.pending ∧ (State.enterLock s c nxt).free = s.free ∧ (State.enterLock s c nxt).host = s.host ∧
    (State.enterLock s c nxt).epoch = s.epoch ∧ (State.enterLock s c nxt).pat = s.pat ∧ (State.enterLock s c nxt).isl = s.isl ∧
    (State.enterLock s c nxt).routes = s.routes ∧ (State.enterLock s c nxt).dramMargin = s.dramMargin ∧
    (State.enterLock s c nxt).ports = s.ports ∧ (State.enterLock s c nxt).trickle = s.trickle ∧ (State.enterLock s c nxt).zon = s.zon ∧
    (State.enterLock s c nxt).med = s.med ∧ (State.enterLock s c nxt).mlf = s.mlf ∧ (State.enterLock s c nxt).wvf = s.wvf ∧
    (State.enterLock s c nxt).sec = s.sec ∧ (State.enterLock s c nxt).ctrs = s.ctrs ∧ (State.enterLock s c nxt).grps = s.grps ∧
    (State.enterLock s c nxt).pwr = s.pwr ∧ (State.enterLock s c nxt).thm = s.thm ∧ (State.enterLock s c nxt).age = s.age ∧
    (State.enterLock s c nxt).cnv = s.cnv ∧ (State.enterLock s c nxt).fwu = s.fwu ∧ (State.enterLock s c nxt).glb = s.glb ∧
    (State.enterLock s c nxt).sb = s.sb := by
  have w1 := @State.modCtx_still; have w2 := @State.squashLock_still
  unfold State.enterLock; repeat' split
  all_goals simp [*]
theorem State.reportDwe_still (s : State) (c i : Nat) :
    (State.reportDwe s c i).pending = s.pending ∧ (State.reportDwe s c i).host = s.host ∧ (State.reportDwe s c i).epoch = s.epoch ∧
    (State.reportDwe s c i).pat = s.pat ∧ (State.reportDwe s c i).isl = s.isl ∧ (State.reportDwe s c i).dramMargin = s.dramMargin ∧
    (State.reportDwe s c i).ports = s.ports ∧ (State.reportDwe s c i).trickle = s.trickle ∧ (State.reportDwe s c i).mlf = s.mlf ∧
    (State.reportDwe s c i).sec = s.sec ∧ (State.reportDwe s c i).ctrs = s.ctrs ∧ (State.reportDwe s c i).grps = s.grps ∧
    (State.reportDwe s c i).pwr = s.pwr ∧ (State.reportDwe s c i).thm = s.thm ∧ (State.reportDwe s c i).age = s.age ∧
    (State.reportDwe s c i).cnv = s.cnv ∧ (State.reportDwe s c i).fwu = s.fwu ∧ (State.reportDwe s c i).glb = s.glb ∧
    (State.reportDwe s c i).sb = s.sb := by
  have w1 := @State.modSli_still; have w2 := @State.endWith_still
  simp [State.reportDwe, w1, w2]
theorem State.admitCmd_still (s : State) (c : Nat) (l : List (Nat × Bool)) (k : State → State) (hk : ∀ t, (k t).pending = t.pending ∧ (k t).host = t.host ∧ (k t).epoch = t.epoch ∧ (k t).pat = t.pat ∧ (k t).isl = t.isl ∧ (k t).dramMargin = t.dramMargin ∧ (k t).ports = t.ports ∧ (k t).trickle = t.trickle ∧ (k t).mlf = t.mlf ∧ (k t).sec = t.sec ∧ (k t).ctrs = t.ctrs ∧ (k t).grps = t.grps ∧ (k t).pwr = t.pwr ∧ (k t).thm = t.thm ∧ (k t).age = t.age ∧ (k t).cnv = t.cnv ∧ (k t).fwu = t.fwu ∧ (k t).glb = t.glb ∧ (k t).sb = t.sb) :
    (State.admitCmd s c l k).pending = s.pending ∧ (State.admitCmd s c l k).host = s.host ∧ (State.admitCmd s c l k).epoch = s.epoch ∧
    (State.admitCmd s c l k).pat = s.pat ∧ (State.admitCmd s c l k).isl = s.isl ∧ (State.admitCmd s c l k).dramMargin = s.dramMargin ∧
    (State.admitCmd s c l k).ports = s.ports ∧ (State.admitCmd s c l k).trickle = s.trickle ∧ (State.admitCmd s c l k).mlf = s.mlf ∧
    (State.admitCmd s c l k).sec = s.sec ∧ (State.admitCmd s c l k).ctrs = s.ctrs ∧ (State.admitCmd s c l k).grps = s.grps ∧
    (State.admitCmd s c l k).pwr = s.pwr ∧ (State.admitCmd s c l k).thm = s.thm ∧ (State.admitCmd s c l k).age = s.age ∧
    (State.admitCmd s c l k).cnv = s.cnv ∧ (State.admitCmd s c l k).fwu = s.fwu ∧ (State.admitCmd s c l k).glb = s.glb ∧
    (State.admitCmd s c l k).sb = s.sb := by
  have w1 := @State.endErr_still; have w2 := @State.reportDwe_still; have w3 := @State.modCtx_still
  unfold State.admitCmd; dsimp only; repeat' split
  all_goals simp [*]
theorem State.enterRow_still (s : State) (c : Nat) (err : Option St) (w : Bool) (k : State → State) (hk : ∀ t, (k t).pending = t.pending ∧ (k t).host = t.host ∧ (k t).epoch = t.epoch ∧ (k t).pat = t.pat ∧ (k t).isl = t.isl ∧ (k t).dramMargin = t.dramMargin ∧ (k t).ports = t.ports ∧ (k t).trickle = t.trickle ∧ (k t).mlf = t.mlf ∧ (k t).sec = t.sec ∧ (k t).ctrs = t.ctrs ∧ (k t).grps = t.grps ∧ (k t).pwr = t.pwr ∧ (k t).thm = t.thm ∧ (k t).age = t.age ∧ (k t).cnv = t.cnv ∧ (k t).fwu = t.fwu ∧ (k t).glb = t.glb ∧ (k t).sb = t.sb) :
    (State.enterRow s c err w k).pending = s.pending ∧ (State.enterRow s c err w k).host = s.host ∧
    (State.enterRow s c err w k).epoch = s.epoch ∧ (State.enterRow s c err w k).pat = s.pat ∧ (State.enterRow s c err w k).isl = s.isl ∧
    (State.enterRow s c err w k).dramMargin = s.dramMargin ∧ (State.enterRow s c err w k).ports = s.ports ∧
    (State.enterRow s c err w k).trickle = s.trickle ∧ (State.enterRow s c err w k).mlf = s.mlf ∧
    (State.enterRow s c err w k).sec = s.sec ∧ (State.enterRow s c err w k).ctrs = s.ctrs ∧ (State.enterRow s c err w k).grps = s.grps ∧
    (State.enterRow s c err w k).pwr = s.pwr ∧ (State.enterRow s c err w k).thm = s.thm ∧ (State.enterRow s c err w k).age = s.age ∧
    (State.enterRow s c err w k).cnv = s.cnv ∧ (State.enterRow s c err w k).fwu = s.fwu ∧ (State.enterRow s c err w k).glb = s.glb ∧
    (State.enterRow s c err w k).sb = s.sb := by
  have w1 := @State.endErr_still; have w2 := @State.admitCmd_still; have wi := @ite_parts
  unfold State.enterRow; repeat' split
  all_goals simp [*]
theorem State.countLookups_still (s : State) (n : Nat) :
    (State.countLookups s n).pending = s.pending ∧ (State.countLookups s n).host = s.host ∧ (State.countLookups s n).epoch = s.epoch ∧
    (State.countLookups s n).pat = s.pat ∧ (State.countLookups s n).isl = s.isl ∧ (State.countLookups s n).routes = s.routes ∧
    (State.countLookups s n).dramMargin = s.dramMargin ∧ (State.countLookups s n).ports = s.ports ∧
    (State.countLookups s n).trickle = s.trickle ∧ (State.countLookups s n).cmd = s.cmd ∧ (State.countLookups s n).med = s.med ∧
    (State.countLookups s n).mlf = s.mlf ∧ (State.countLookups s n).cpx = s.cpx ∧ (State.countLookups s n).wvf = s.wvf ∧
    (State.countLookups s n).bpm = s.bpm ∧ (State.countLookups s n).sli = s.sli ∧ (State.countLookups s n).sec = s.sec ∧
    (State.countLookups s n).mic = s.mic ∧ (State.countLookups s n).flt = s.flt ∧ (State.countLookups s n).ctrs = s.ctrs ∧
    (State.countLookups s n).grps = s.grps ∧ (State.countLookups s n).pwr = s.pwr ∧ (State.countLookups s n).thm = s.thm ∧
    (State.countLookups s n).age = s.age ∧ (State.countLookups s n).cnv = s.cnv ∧ (State.countLookups s n).fwu = s.fwu ∧
    (State.countLookups s n).glb = s.glb ∧ (State.countLookups s n).sb = s.sb := by
  have w1 := @drawNat_still
  simp [State.countLookups, w1]
theorem State.translateReads_still (s : State) (c : Nat) (lbas : List Nat) :
    (State.translateReads s c lbas).pending = s.pending ∧ (State.translateReads s c lbas).host = s.host ∧
    (State.translateReads s c lbas).epoch = s.epoch ∧ (State.translateReads s c lbas).pat = s.pat ∧
    (State.translateReads s c lbas).isl = s.isl ∧ (State.translateReads s c lbas).dramMargin = s.dramMargin ∧
    (State.translateReads s c lbas).ports = s.ports ∧ (State.translateReads s c lbas).trickle = s.trickle ∧
    (State.translateReads s c lbas).mlf = s.mlf ∧ (State.translateReads s c lbas).sli = s.sli ∧
    (State.translateReads s c lbas).sec = s.sec ∧ (State.translateReads s c lbas).ctrs = s.ctrs ∧
    (State.translateReads s c lbas).grps = s.grps ∧ (State.translateReads s c lbas).pwr = s.pwr ∧
    (State.translateReads s c lbas).thm = s.thm ∧ (State.translateReads s c lbas).age = s.age ∧
    (State.translateReads s c lbas).cnv = s.cnv ∧ (State.translateReads s c lbas).fwu = s.fwu ∧
    (State.translateReads s c lbas).glb = s.glb ∧ (State.translateReads s c lbas).sb = s.sb := by
  have w1 := @State.countLookups_still; have w2 := @State.endErr_still; have w3 := @State.modCtx_still
  unfold State.translateReads; dsimp only; repeat' split
  all_goals simp [*]
theorem State.reserve_still (s : State) (c n z : Nat) (off : Option Nat) (len : Nat) :
    (State.reserve s c n z off len).pending = s.pending ∧ (State.reserve s c n z off len).host = s.host ∧
    (State.reserve s c n z off len).epoch = s.epoch ∧ (State.reserve s c n z off len).pat = s.pat ∧
    (State.reserve s c n z off len).isl = s.isl ∧ (State.reserve s c n z off len).dramMargin = s.dramMargin ∧
    (State.reserve s c n z off len).ports = s.ports ∧ (State.reserve s c n z off len).trickle = s.trickle ∧
    (State.reserve s c n z off len).mlf = s.mlf ∧ (State.reserve s c n z off len).sli = s.sli ∧
    (State.reserve s c n z off len).sec = s.sec ∧ (State.reserve s c n z off len).ctrs = s.ctrs ∧
    (State.reserve s c n z off len).grps = s.grps ∧ (State.reserve s c n z off len).pwr = s.pwr ∧
    (State.reserve s c n z off len).thm = s.thm ∧ (State.reserve s c n z off len).age = s.age ∧
    (State.reserve s c n z off len).cnv = s.cnv ∧ (State.reserve s c n z off len).fwu = s.fwu ∧
    (State.reserve s c n z off len).glb = s.glb ∧ (State.reserve s c n z off len).sb = s.sb := by
  have w1 := @State.modCtx_still; have w2 := @State.rebuildProj_still; have w3 := @State.endErr_still
  have w4 := @State.reproject_still; have wi := @ite_parts
  unfold State.reserve; dsimp only; repeat' split
  all_goals simp [*]
theorem State.zoneRowsFor_still (s : State) (e : Nat) {r : State} (e : State.zoneRowsFor s e = some r) :
    r.pending = s.pending ∧ r.free = s.free ∧ r.host = s.host ∧ r.epoch = s.epoch ∧ r.pat = s.pat ∧ r.isl = s.isl ∧ r.routes = s.routes ∧
    r.dramMargin = s.dramMargin ∧ r.ports = s.ports ∧ r.trickle = s.trickle ∧ r.cmd = s.cmd ∧ r.mlf = s.mlf ∧ r.cpx = s.cpx ∧
    r.wvf = s.wvf ∧ r.bpm = s.bpm ∧ r.sli = s.sli ∧ r.sec = s.sec ∧ r.mic = s.mic ∧ r.flt = s.flt ∧ r.ctrs = s.ctrs ∧ r.grps = s.grps ∧
    r.pwr = s.pwr ∧ r.thm = s.thm ∧ r.age = s.age ∧ r.cnv = s.cnv ∧ r.fwu = s.fwu ∧ r.glb = s.glb ∧ r.sb = s.sb := by
  have w1 := @State.takeRows_still; have w2 := @State.setZent_still; have wi := @ite_parts
  unfold State.zoneRowsFor at e; dsimp only at e; repeat' split at e
  all_goals first | (cases e; done) | (cases e; simp_all; done)
theorem State.landBlock_still (s : State) (c n lba k : Nat) (b : Block) :
    (State.landBlock s c n lba k b).pending = s.pending ∧ (State.landBlock s c n lba k b).free = s.free ∧
    (State.landBlock s c n lba k b).host = s.host ∧ (State.landBlock s c n lba k b).epoch = s.epoch ∧
    (State.landBlock s c n lba k b).pat = s.pat ∧ (State.landBlock s c n lba k b).isl = s.isl ∧
    (State.landBlock s c n lba k b).routes = s.routes ∧ (State.landBlock s c n lba k b).dramMargin = s.dramMargin ∧
    (State.landBlock s c n lba k b).ports = s.ports ∧ (State.landBlock s c n lba k b).trickle = s.trickle ∧
    (State.landBlock s c n lba k b).zon = s.zon ∧ (State.landBlock s c n lba k b).mlf = s.mlf ∧
    (State.landBlock s c n lba k b).cpx = s.cpx ∧ (State.landBlock s c n lba k b).wvf = s.wvf ∧
    (State.landBlock s c n lba k b).bpm = s.bpm ∧ (State.landBlock s c n lba k b).sli = s.sli ∧
    (State.landBlock s c n lba k b).sec = s.sec ∧ (State.landBlock s c n lba k b).mic = s.mic ∧
    (State.landBlock s c n lba k b).flt = s.flt ∧ (State.landBlock s c n lba k b).ctrs = s.ctrs ∧
    (State.landBlock s c n lba k b).grps = s.grps ∧ (State.landBlock s c n lba k b).pwr = s.pwr ∧
    (State.landBlock s c n lba k b).thm = s.thm ∧ (State.landBlock s c n lba k b).age = s.age ∧
    (State.landBlock s c n lba k b).cnv = s.cnv ∧ (State.landBlock s c n lba k b).fwu = s.fwu ∧
    (State.landBlock s c n lba k b).glb = s.glb ∧ (State.landBlock s c n lba k b).sb = s.sb := by
  have w1 := @State.landLine_still; have w2 := @State.modCtx_still
  simp [State.landBlock, w1, w2]
theorem State.landZone_still (s : State) (c n e off : Nat) (l0 : List Block) :
    (State.landZone s c n e off l0).pending = s.pending ∧ (State.landZone s c n e off l0).free = s.free ∧
    (State.landZone s c n e off l0).host = s.host ∧ (State.landZone s c n e off l0).epoch = s.epoch ∧
    (State.landZone s c n e off l0).pat = s.pat ∧ (State.landZone s c n e off l0).isl = s.isl ∧
    (State.landZone s c n e off l0).routes = s.routes ∧ (State.landZone s c n e off l0).dramMargin = s.dramMargin ∧
    (State.landZone s c n e off l0).ports = s.ports ∧ (State.landZone s c n e off l0).trickle = s.trickle ∧
    (State.landZone s c n e off l0).zon = s.zon ∧ (State.landZone s c n e off l0).mlf = s.mlf ∧
    (State.landZone s c n e off l0).cpx = s.cpx ∧ (State.landZone s c n e off l0).wvf = s.wvf ∧
    (State.landZone s c n e off l0).bpm = s.bpm ∧ (State.landZone s c n e off l0).sli = s.sli ∧
    (State.landZone s c n e off l0).sec = s.sec ∧ (State.landZone s c n e off l0).mic = s.mic ∧
    (State.landZone s c n e off l0).flt = s.flt ∧ (State.landZone s c n e off l0).ctrs = s.ctrs ∧
    (State.landZone s c n e off l0).grps = s.grps ∧ (State.landZone s c n e off l0).pwr = s.pwr ∧
    (State.landZone s c n e off l0).thm = s.thm ∧ (State.landZone s c n e off l0).age = s.age ∧
    (State.landZone s c n e off l0).cnv = s.cnv ∧ (State.landZone s c n e off l0).fwu = s.fwu ∧
    (State.landZone s c n e off l0).glb = s.glb ∧ (State.landZone s c n e off l0).sb = s.sb := by
  have w1 := @State.landBlock_still
  induction l0 generalizing s c n e off with
  | nil => simp [State.landZone]
  | cons a t ih => simp [State.landZone, ih, w1]
theorem State.landConv_still (s : State) (c n rg ph lba : Nat) (l0 : List Block) {r : State} (e : State.landConv s c n rg ph lba l0 = some r) :
    r.pending = s.pending ∧ r.free = s.free ∧ r.host = s.host ∧ r.epoch = s.epoch ∧ r.pat = s.pat ∧ r.isl = s.isl ∧ r.routes = s.routes ∧
    r.dramMargin = s.dramMargin ∧ r.ports = s.ports ∧ r.trickle = s.trickle ∧ r.zon = s.zon ∧ r.mlf = s.mlf ∧ r.cpx = s.cpx ∧
    r.wvf = s.wvf ∧ r.bpm = s.bpm ∧ r.sli = s.sli ∧ r.sec = s.sec ∧ r.mic = s.mic ∧ r.flt = s.flt ∧ r.ctrs = s.ctrs ∧ r.grps = s.grps ∧
    r.pwr = s.pwr ∧ r.thm = s.thm ∧ r.age = s.age ∧ r.cnv = s.cnv ∧ r.fwu = s.fwu ∧ r.glb = s.glb ∧ r.sb = s.sb := by
  have w1 := @State.landBlock_still
  induction l0 generalizing s lba with
  | nil => cases e; simp
  | cons a t ih =>
    unfold State.landConv at e; split at e
    · cases e
    · rename_i k v q; have h := State.convAlloc_still _ _ _ _ q; have h2 := ih _ _ e; simp_all
theorem State.fdpEvent_still (s : State) (set typ h : Nat) :
    (State.fdpEvent s set typ h).pending = s.pending ∧ (State.fdpEvent s set typ h).free = s.free ∧
    (State.fdpEvent s set typ h).host = s.host ∧ (State.fdpEvent s set typ h).epoch = s.epoch ∧ (State.fdpEvent s set typ h).pat = s.pat ∧
    (State.fdpEvent s set typ h).isl = s.isl ∧ (State.fdpEvent s set typ h).routes = s.routes ∧
    (State.fdpEvent s set typ h).dramMargin = s.dramMargin ∧ (State.fdpEvent s set typ h).ports = s.ports ∧
    (State.fdpEvent s set typ h).trickle = s.trickle ∧ (State.fdpEvent s set typ h).cmd = s.cmd ∧
    (State.fdpEvent s set typ h).med = s.med ∧ (State.fdpEvent s set typ h).mlf = s.mlf ∧ (State.fdpEvent s set typ h).cpx = s.cpx ∧
    (State.fdpEvent s set typ h).wvf = s.wvf ∧ (State.fdpEvent s set typ h).bpm = s.bpm ∧ (State.fdpEvent s set typ h).sli = s.sli ∧
    (State.fdpEvent s set typ h).sec = s.sec ∧ (State.fdpEvent s set typ h).mic = s.mic ∧ (State.fdpEvent s set typ h).flt = s.flt ∧
    (State.fdpEvent s set typ h).ctrs = s.ctrs ∧ (State.fdpEvent s set typ h).grps = s.grps ∧ (State.fdpEvent s set typ h).pwr = s.pwr ∧
    (State.fdpEvent s set typ h).thm = s.thm ∧ (State.fdpEvent s set typ h).age = s.age ∧ (State.fdpEvent s set typ h).cnv = s.cnv ∧
    (State.fdpEvent s set typ h).fwu = s.fwu ∧ (State.fdpEvent s set typ h).glb = s.glb ∧ (State.fdpEvent s set typ h).sb = s.sb := by
  have wi := @ite_parts
  simp [State.fdpEvent, wi]
theorem State.urgentGc_still (s : State) (set : Nat) :
    (State.urgentGc s set).pending = s.pending ∧ (State.urgentGc s set).free = s.free ∧ (State.urgentGc s set).host = s.host ∧
    (State.urgentGc s set).epoch = s.epoch ∧ (State.urgentGc s set).pat = s.pat ∧ (State.urgentGc s set).routes = s.routes ∧
    (State.urgentGc s set).dramMargin = s.dramMargin ∧ (State.urgentGc s set).ports = s.ports ∧
    (State.urgentGc s set).trickle = s.trickle ∧ (State.urgentGc s set).zon = s.zon ∧ (State.urgentGc s set).cpx = s.cpx ∧
    (State.urgentGc s set).wvf = s.wvf ∧ (State.urgentGc s set).bpm = s.bpm ∧ (State.urgentGc s set).sec = s.sec ∧
    (State.urgentGc s set).mic = s.mic ∧ (State.urgentGc s set).ctrs = s.ctrs ∧ (State.urgentGc s set).grps = s.grps ∧
    (State.urgentGc s set).thm = s.thm ∧ (State.urgentGc s set).age = s.age ∧ (State.urgentGc s set).cnv = s.cnv ∧
    (State.urgentGc s set).fwu = s.fwu ∧ (State.urgentGc s set).glb = s.glb ∧ (State.urgentGc s set).sb = s.sb := by
  have wi := @ite_parts
  have w1 := @State.queueReloc_still
  unfold State.urgentGc; repeat' split
  all_goals simp [*]
theorem State.stageTwo_still (s : State) (c n : Nat) :
    (State.stageTwo s c n).pending = s.pending ∧ (State.stageTwo s c n).free = s.free ∧ (State.stageTwo s c n).host = s.host ∧
    (State.stageTwo s c n).epoch = s.epoch ∧ (State.stageTwo s c n).pat = s.pat ∧ (State.stageTwo s c n).isl = s.isl ∧
    (State.stageTwo s c n).routes = s.routes ∧ (State.stageTwo s c n).dramMargin = s.dramMargin ∧ (State.stageTwo s c n).ports = s.ports ∧
    (State.stageTwo s c n).trickle = s.trickle ∧ (State.stageTwo s c n).cpx = s.cpx ∧ (State.stageTwo s c n).wvf = s.wvf ∧
    (State.stageTwo s c n).bpm = s.bpm ∧ (State.stageTwo s c n).sli = s.sli ∧ (State.stageTwo s c n).sec = s.sec ∧
    (State.stageTwo s c n).mic = s.mic ∧ (State.stageTwo s c n).flt = s.flt ∧ (State.stageTwo s c n).ctrs = s.ctrs ∧
    (State.stageTwo s c n).grps = s.grps ∧ (State.stageTwo s c n).pwr = s.pwr ∧ (State.stageTwo s c n).thm = s.thm ∧
    (State.stageTwo s c n).age = s.age ∧ (State.stageTwo s c n).cnv = s.cnv ∧ (State.stageTwo s c n).fwu = s.fwu ∧
    (State.stageTwo s c n).glb = s.glb ∧ (State.stageTwo s c n).sb = s.sb := by
  have w1 := @State.enterStages_still; have wi := @ite_parts
  simp [State.stageTwo, w1, wi]
theorem State.placeBlocks_still (s : State) (c n : Nat) (l : List Block) :
    (State.placeBlocks s c n l).pending = s.pending ∧ (State.placeBlocks s c n l).free = s.free ∧
    (State.placeBlocks s c n l).host = s.host ∧ (State.placeBlocks s c n l).epoch = s.epoch ∧ (State.placeBlocks s c n l).pat = s.pat ∧
    (State.placeBlocks s c n l).routes = s.routes ∧ (State.placeBlocks s c n l).dramMargin = s.dramMargin ∧
    (State.placeBlocks s c n l).ports = s.ports ∧ (State.placeBlocks s c n l).trickle = s.trickle ∧
    (State.placeBlocks s c n l).cpx = s.cpx ∧ (State.placeBlocks s c n l).wvf = s.wvf ∧ (State.placeBlocks s c n l).bpm = s.bpm ∧
    (State.placeBlocks s c n l).sec = s.sec ∧ (State.placeBlocks s c n l).mic = s.mic ∧ (State.placeBlocks s c n l).ctrs = s.ctrs ∧
    (State.placeBlocks s c n l).grps = s.grps ∧ (State.placeBlocks s c n l).thm = s.thm ∧ (State.placeBlocks s c n l).age = s.age ∧
    (State.placeBlocks s c n l).cnv = s.cnv ∧ (State.placeBlocks s c n l).fwu = s.fwu ∧ (State.placeBlocks s c n l).glb = s.glb ∧
    (State.placeBlocks s c n l).sb = s.sb := by
  have wi := @ite_parts
  have w1 := @State.fdpEvent_still; have w2 := @State.landZone_still; have w3 := @State.modCtx_still
  have w4 := @State.stageTwo_still; have w5 := @State.urgentGc_still
  unfold State.placeBlocks; dsimp only; split
  · simp [*]
  · split
    · split
      · simp [*]
      · split
        · simp [*]
        · split
          · simp [*]
          · rename_i q; have k := State.zoneRowsFor_still _ _ q; simp [*]
    · split
      · simp [*]
      · rename_i q; have k := State.landConv_still _ _ _ _ _ _ _ q; simp [*]
theorem State.gcCheck_still (s : State) (rk : Nat) :
    (State.gcCheck s rk).pending = s.pending ∧ (State.gcCheck s rk).free = s.free ∧ (State.gcCheck s rk).host = s.host ∧
    (State.gcCheck s rk).epoch = s.epoch ∧ (State.gcCheck s rk).pat = s.pat ∧ (State.gcCheck s rk).routes = s.routes ∧
    (State.gcCheck s rk).dramMargin = s.dramMargin ∧ (State.gcCheck s rk).ports = s.ports ∧ (State.gcCheck s rk).trickle = s.trickle ∧
    (State.gcCheck s rk).zon = s.zon ∧ (State.gcCheck s rk).cpx = s.cpx ∧ (State.gcCheck s rk).wvf = s.wvf ∧
    (State.gcCheck s rk).bpm = s.bpm ∧ (State.gcCheck s rk).sec = s.sec ∧ (State.gcCheck s rk).mic = s.mic ∧
    (State.gcCheck s rk).ctrs = s.ctrs ∧ (State.gcCheck s rk).grps = s.grps ∧ (State.gcCheck s rk).thm = s.thm ∧
    (State.gcCheck s rk).age = s.age ∧ (State.gcCheck s rk).cnv = s.cnv ∧ (State.gcCheck s rk).fwu = s.fwu ∧
    (State.gcCheck s rk).glb = s.glb ∧ (State.gcCheck s rk).sb = s.sb := by
  have w1 := @State.queueReloc_still; have wi := @ite_parts
  simp [State.gcCheck, w1, wi]
theorem State.noteJournal_still (t : State) (k : Nat) :
    (State.noteJournal t k).pending = t.pending ∧ (State.noteJournal t k).free = t.free ∧ (State.noteJournal t k).host = t.host ∧
    (State.noteJournal t k).epoch = t.epoch ∧ (State.noteJournal t k).pat = t.pat ∧ (State.noteJournal t k).isl = t.isl ∧
    (State.noteJournal t k).routes = t.routes ∧ (State.noteJournal t k).dramMargin = t.dramMargin ∧
    (State.noteJournal t k).ports = t.ports ∧ (State.noteJournal t k).trickle = t.trickle ∧ (State.noteJournal t k).cmd = t.cmd ∧
    (State.noteJournal t k).med = t.med ∧ (State.noteJournal t k).mlf = t.mlf ∧ (State.noteJournal t k).cpx = t.cpx ∧
    (State.noteJournal t k).wvf = t.wvf ∧ (State.noteJournal t k).bpm = t.bpm ∧ (State.noteJournal t k).sli = t.sli ∧
    (State.noteJournal t k).sec = t.sec ∧ (State.noteJournal t k).mic = t.mic ∧ (State.noteJournal t k).flt = t.flt ∧
    (State.noteJournal t k).ctrs = t.ctrs ∧ (State.noteJournal t k).grps = t.grps ∧ (State.noteJournal t k).pwr = t.pwr ∧
    (State.noteJournal t k).thm = t.thm ∧ (State.noteJournal t k).age = t.age ∧ (State.noteJournal t k).cnv = t.cnv ∧
    (State.noteJournal t k).fwu = t.fwu ∧ (State.noteJournal t k).glb = t.glb ∧ (State.noteJournal t k).sb = t.sb := by
  simp [State.noteJournal]
theorem State.commitMap_still (s : State) (k : Nat) (loc : Option Nat) (unc : Bool) :
    (State.commitMap s k loc unc).pending = s.pending ∧ (State.commitMap s k loc unc).free = s.free ∧
    (State.commitMap s k loc unc).host = s.host ∧ (State.commitMap s k loc unc).epoch = s.epoch ∧
    (State.commitMap s k loc unc).pat = s.pat ∧ (State.commitMap s k loc unc).routes = s.routes ∧
    (State.commitMap s k loc unc).dramMargin = s.dramMargin ∧ (State.commitMap s k loc unc).ports = s.ports ∧
    (State.commitMap s k loc unc).trickle = s.trickle ∧ (State.commitMap s k loc unc).cpx = s.cpx ∧
    (State.commitMap s k loc unc).wvf = s.wvf ∧ (State.commitMap s k loc unc).bpm = s.bpm ∧ (State.commitMap s k loc unc).sec = s.sec ∧
    (State.commitMap s k loc unc).mic = s.mic ∧ (State.commitMap s k loc unc).ctrs = s.ctrs ∧ (State.commitMap s k loc unc).grps = s.grps ∧
    (State.commitMap s k loc unc).thm = s.thm ∧ (State.commitMap s k loc unc).age = s.age ∧ (State.commitMap s k loc unc).cnv = s.cnv ∧
    (State.commitMap s k loc unc).fwu = s.fwu ∧ (State.commitMap s k loc unc).glb = s.glb ∧ (State.commitMap s k loc unc).sb = s.sb := by
  have w1 := @State.gcCheck_still; have w2 := @State.noteJournal_still; have w3 := @State.setMap_still
  unfold State.commitMap; dsimp only; repeat' split
  all_goals simp [*]
theorem State.recordLba_still (s : State) (n b : Nat) :
    (State.recordLba s n b).pending = s.pending ∧ (State.recordLba s n b).free = s.free ∧ (State.recordLba s n b).host = s.host ∧
    (State.recordLba s n b).epoch = s.epoch ∧ (State.recordLba s n b).pat = s.pat ∧ (State.recordLba s n b).isl = s.isl ∧
    (State.recordLba s n b).routes = s.routes ∧ (State.recordLba s n b).dramMargin = s.dramMargin ∧
    (State.recordLba s n b).ports = s.ports ∧ (State.recordLba s n b).trickle = s.trickle ∧ (State.recordLba s n b).cmd = s.cmd ∧
    (State.recordLba s n b).med = s.med ∧ (State.recordLba s n b).mlf = s.mlf ∧ (State.recordLba s n b).cpx = s.cpx ∧
    (State.recordLba s n b).wvf = s.wvf ∧ (State.recordLba s n b).bpm = s.bpm ∧ (State.recordLba s n b).sli = s.sli ∧
    (State.recordLba s n b).sec = s.sec ∧ (State.recordLba s n b).mic = s.mic ∧ (State.recordLba s n b).flt = s.flt ∧
    (State.recordLba s n b).ctrs = s.ctrs ∧ (State.recordLba s n b).grps = s.grps ∧ (State.recordLba s n b).pwr = s.pwr ∧
    (State.recordLba s n b).thm = s.thm ∧ (State.recordLba s n b).age = s.age ∧ (State.recordLba s n b).cnv = s.cnv ∧
    (State.recordLba s n b).fwu = s.fwu ∧ (State.recordLba s n b).glb = s.glb ∧ (State.recordLba s n b).sb = s.sb := by
  have w1 := @State.setMap_still; have w2 := @State.journal_still; have wi := @ite_parts
  simp [State.recordLba, w1, w2, wi]
theorem State.recordNs_still (s : State) (n : Nat) :
    (State.recordNs s n).pending = s.pending ∧ (State.recordNs s n).free = s.free ∧ (State.recordNs s n).host = s.host ∧
    (State.recordNs s n).epoch = s.epoch ∧ (State.recordNs s n).pat = s.pat ∧ (State.recordNs s n).isl = s.isl ∧
    (State.recordNs s n).routes = s.routes ∧ (State.recordNs s n).dramMargin = s.dramMargin ∧ (State.recordNs s n).ports = s.ports ∧
    (State.recordNs s n).trickle = s.trickle ∧ (State.recordNs s n).cmd = s.cmd ∧ (State.recordNs s n).med = s.med ∧
    (State.recordNs s n).mlf = s.mlf ∧ (State.recordNs s n).cpx = s.cpx ∧ (State.recordNs s n).wvf = s.wvf ∧
    (State.recordNs s n).bpm = s.bpm ∧ (State.recordNs s n).sli = s.sli ∧ (State.recordNs s n).sec = s.sec ∧
    (State.recordNs s n).mic = s.mic ∧ (State.recordNs s n).flt = s.flt ∧ (State.recordNs s n).ctrs = s.ctrs ∧
    (State.recordNs s n).grps = s.grps ∧ (State.recordNs s n).pwr = s.pwr ∧ (State.recordNs s n).thm = s.thm ∧
    (State.recordNs s n).age = s.age ∧ (State.recordNs s n).cnv = s.cnv ∧ (State.recordNs s n).fwu = s.fwu ∧
    (State.recordNs s n).glb = s.glb ∧ (State.recordNs s n).sb = s.sb := by
  have w1 := @State.journal_still
  simp [State.recordNs, w1]
theorem State.commitLine_still (s : State) (k : Nat) :
    (State.commitLine s k).pending = s.pending ∧ (State.commitLine s k).free = s.free ∧ (State.commitLine s k).host = s.host ∧
    (State.commitLine s k).epoch = s.epoch ∧ (State.commitLine s k).pat = s.pat ∧ (State.commitLine s k).isl = s.isl ∧
    (State.commitLine s k).routes = s.routes ∧ (State.commitLine s k).dramMargin = s.dramMargin ∧ (State.commitLine s k).ports = s.ports ∧
    (State.commitLine s k).trickle = s.trickle ∧ (State.commitLine s k).cmd = s.cmd ∧ (State.commitLine s k).mlf = s.mlf ∧
    (State.commitLine s k).cpx = s.cpx ∧ (State.commitLine s k).wvf = s.wvf ∧ (State.commitLine s k).bpm = s.bpm ∧
    (State.commitLine s k).sli = s.sli ∧ (State.commitLine s k).sec = s.sec ∧ (State.commitLine s k).mic = s.mic ∧
    (State.commitLine s k).flt = s.flt ∧ (State.commitLine s k).ctrs = s.ctrs ∧ (State.commitLine s k).grps = s.grps ∧
    (State.commitLine s k).pwr = s.pwr ∧ (State.commitLine s k).thm = s.thm ∧ (State.commitLine s k).age = s.age ∧
    (State.commitLine s k).cnv = s.cnv ∧ (State.commitLine s k).fwu = s.fwu ∧ (State.commitLine s k).glb = s.glb ∧
    (State.commitLine s k).sb = s.sb := by
  have w1 := @State.modLine_still
  simp [State.commitLine, w1]
theorem State.countWrite_still (s : State) (sl set n : Nat) :
    (State.countWrite s sl set n).pending = s.pending ∧ (State.countWrite s sl set n).free = s.free ∧
    (State.countWrite s sl set n).host = s.host ∧ (State.countWrite s sl set n).epoch = s.epoch ∧
    (State.countWrite s sl set n).pat = s.pat ∧ (State.countWrite s sl set n).isl = s.isl ∧
    (State.countWrite s sl set n).routes = s.routes ∧ (State.countWrite s sl set n).dramMargin = s.dramMargin ∧
    (State.countWrite s sl set n).ports = s.ports ∧ (State.countWrite s sl set n).trickle = s.trickle ∧
    (State.countWrite s sl set n).cmd = s.cmd ∧ (State.countWrite s sl set n).cpx = s.cpx ∧ (State.countWrite s sl set n).wvf = s.wvf ∧
    (State.countWrite s sl set n).bpm = s.bpm ∧ (State.countWrite s sl set n).sec = s.sec ∧ (State.countWrite s sl set n).mic = s.mic ∧
    (State.countWrite s sl set n).flt = s.flt ∧ (State.countWrite s sl set n).ctrs = s.ctrs ∧ (State.countWrite s sl set n).grps = s.grps ∧
    (State.countWrite s sl set n).pwr = s.pwr ∧ (State.countWrite s sl set n).thm = s.thm ∧ (State.countWrite s sl set n).age = s.age ∧
    (State.countWrite s sl set n).cnv = s.cnv ∧ (State.countWrite s sl set n).fwu = s.fwu ∧ (State.countWrite s sl set n).glb = s.glb ∧
    (State.countWrite s sl set n).sb = s.sb := by
  have w1 := @State.modLife_still; have w2 := @State.modSli_still
  simp [State.countWrite, w1, w2]
theorem State.countRead_still (s : State) (sl set n : Nat) :
    (State.countRead s sl set n).pending = s.pending ∧ (State.countRead s sl set n).free = s.free ∧
    (State.countRead s sl set n).host = s.host ∧ (State.countRead s sl set n).epoch = s.epoch ∧ (State.countRead s sl set n).pat = s.pat ∧
    (State.countRead s sl set n).isl = s.isl ∧ (State.countRead s sl set n).routes = s.routes ∧
    (State.countRead s sl set n).dramMargin = s.dramMargin ∧ (State.countRead s sl set n).ports = s.ports ∧
    (State.countRead s sl set n).trickle = s.trickle ∧ (State.countRead s sl set n).cmd = s.cmd ∧
    (State.countRead s sl set n).zon = s.zon ∧ (State.countRead s sl set n).cpx = s.cpx ∧ (State.countRead s sl set n).wvf = s.wvf ∧
    (State.countRead s sl set n).bpm = s.bpm ∧ (State.countRead s sl set n).sec = s.sec ∧ (State.countRead s sl set n).mic = s.mic ∧
    (State.countRead s sl set n).flt = s.flt ∧ (State.countRead s sl set n).ctrs = s.ctrs ∧ (State.countRead s sl set n).grps = s.grps ∧
    (State.countRead s sl set n).pwr = s.pwr ∧ (State.countRead s sl set n).thm = s.thm ∧ (State.countRead s sl set n).age = s.age ∧
    (State.countRead s sl set n).cnv = s.cnv ∧ (State.countRead s sl set n).fwu = s.fwu ∧ (State.countRead s sl set n).glb = s.glb ∧
    (State.countRead s sl set n).sb = s.sb := by
  have w1 := @State.modLife_still; have w2 := @State.modSli_still
  simp [State.countRead, w1, w2]
theorem State.commitZoneWrite_still (s : State) (r : Resv) (slice : Nat) (victim : Option Nat) :
    (State.commitZoneWrite s r slice victim).pending = s.pending ∧ (State.commitZoneWrite s r slice victim).free = s.free ∧
    (State.commitZoneWrite s r slice victim).host = s.host ∧ (State.commitZoneWrite s r slice victim).epoch = s.epoch ∧
    (State.commitZoneWrite s r slice victim).pat = s.pat ∧ (State.commitZoneWrite s r slice victim).routes = s.routes ∧
    (State.commitZoneWrite s r slice victim).dramMargin = s.dramMargin ∧ (State.commitZoneWrite s r slice victim).ports = s.ports ∧
    (State.commitZoneWrite s r slice victim).trickle = s.trickle ∧ (State.commitZoneWrite s r slice victim).cpx = s.cpx ∧
    (State.commitZoneWrite s r slice victim).wvf = s.wvf ∧ (State.commitZoneWrite s r slice victim).bpm = s.bpm ∧
    (State.commitZoneWrite s r slice victim).sec = s.sec ∧ (State.commitZoneWrite s r slice victim).mic = s.mic ∧
    (State.commitZoneWrite s r slice victim).ctrs = s.ctrs ∧ (State.commitZoneWrite s r slice victim).grps = s.grps ∧
    (State.commitZoneWrite s r slice victim).thm = s.thm ∧ (State.commitZoneWrite s r slice victim).age = s.age ∧
    (State.commitZoneWrite s r slice victim).cnv = s.cnv ∧ (State.commitZoneWrite s r slice victim).fwu = s.fwu ∧
    (State.commitZoneWrite s r slice victim).glb = s.glb ∧ (State.commitZoneWrite s r slice victim).sb = s.sb := by
  have w1 := @State.setZent_still; have w2 := @State.refreshWaiting_still; have wi := @ite_parts
  unfold State.commitZoneWrite; repeat' split
  all_goals simp [*]
theorem State.commitConv_still (s : State) (n lba : Nat) (l0 : List Nat) :
    (State.commitConv s n lba l0).pending = s.pending ∧ (State.commitConv s n lba l0).free = s.free ∧
    (State.commitConv s n lba l0).host = s.host ∧ (State.commitConv s n lba l0).epoch = s.epoch ∧
    (State.commitConv s n lba l0).pat = s.pat ∧ (State.commitConv s n lba l0).routes = s.routes ∧
    (State.commitConv s n lba l0).dramMargin = s.dramMargin ∧ (State.commitConv s n lba l0).ports = s.ports ∧
    (State.commitConv s n lba l0).trickle = s.trickle ∧ (State.commitConv s n lba l0).cpx = s.cpx ∧
    (State.commitConv s n lba l0).wvf = s.wvf ∧ (State.commitConv s n lba l0).bpm = s.bpm ∧ (State.commitConv s n lba l0).sec = s.sec ∧
    (State.commitConv s n lba l0).mic = s.mic ∧ (State.commitConv s n lba l0).ctrs = s.ctrs ∧ (State.commitConv s n lba l0).grps = s.grps ∧
    (State.commitConv s n lba l0).thm = s.thm ∧ (State.commitConv s n lba l0).age = s.age ∧ (State.commitConv s n lba l0).cnv = s.cnv ∧
    (State.commitConv s n lba l0).fwu = s.fwu ∧ (State.commitConv s n lba l0).glb = s.glb ∧ (State.commitConv s n lba l0).sb = s.sb := by
  have w1 := @State.commitLine_still; have w2 := @State.commitMap_still
  induction l0 generalizing s lba with
  | nil => simp [State.commitConv]
  | cons a t ih => simp [State.commitConv, w1, w2, ih]
theorem State.commitPlaced_still (s : State) (x : Ctx) (n lo : Nat) :
    (State.commitPlaced s x n lo).pending = s.pending ∧ (State.commitPlaced s x n lo).free = s.free ∧
    (State.commitPlaced s x n lo).host = s.host ∧ (State.commitPlaced s x n lo).epoch = s.epoch ∧
    (State.commitPlaced s x n lo).pat = s.pat ∧ (State.commitPlaced s x n lo).routes = s.routes ∧
    (State.commitPlaced s x n lo).dramMargin = s.dramMargin ∧ (State.commitPlaced s x n lo).ports = s.ports ∧
    (State.commitPlaced s x n lo).trickle = s.trickle ∧ (State.commitPlaced s x n lo).cpx = s.cpx ∧
    (State.commitPlaced s x n lo).wvf = s.wvf ∧ (State.commitPlaced s x n lo).bpm = s.bpm ∧ (State.commitPlaced s x n lo).sec = s.sec ∧
    (State.commitPlaced s x n lo).mic = s.mic ∧ (State.commitPlaced s x n lo).ctrs = s.ctrs ∧ (State.commitPlaced s x n lo).grps = s.grps ∧
    (State.commitPlaced s x n lo).thm = s.thm ∧ (State.commitPlaced s x n lo).age = s.age ∧ (State.commitPlaced s x n lo).cnv = s.cnv ∧
    (State.commitPlaced s x n lo).fwu = s.fwu ∧ (State.commitPlaced s x n lo).glb = s.glb ∧ (State.commitPlaced s x n lo).sb = s.sb := by
  have wf := @foldl_parts
  have w1 := @State.commitConv_still; have w2 := @State.commitLine_still; have w3 := @State.commitZoneWrite_still
  unfold State.commitPlaced; repeat' split
  all_goals simp [*]
theorem State.commitWrite_still (s : State) (c n : Nat) :
    (State.commitWrite s c n).pending = s.pending ∧ (State.commitWrite s c n).free = s.free ∧ (State.commitWrite s c n).host = s.host ∧
    (State.commitWrite s c n).epoch = s.epoch ∧ (State.commitWrite s c n).pat = s.pat ∧ (State.commitWrite s c n).routes = s.routes ∧
    (State.commitWrite s c n).dramMargin = s.dramMargin ∧ (State.commitWrite s c n).ports = s.ports ∧
    (State.commitWrite s c n).trickle = s.trickle ∧ (State.commitWrite s c n).cpx = s.cpx ∧ (State.commitWrite s c n).wvf = s.wvf ∧
    (State.commitWrite s c n).bpm = s.bpm ∧ (State.commitWrite s c n).sec = s.sec ∧ (State.commitWrite s c n).mic = s.mic ∧
    (State.commitWrite s c n).ctrs = s.ctrs ∧ (State.commitWrite s c n).grps = s.grps ∧ (State.commitWrite s c n).thm = s.thm ∧
    (State.commitWrite s c n).age = s.age ∧ (State.commitWrite s c n).cnv = s.cnv ∧ (State.commitWrite s c n).fwu = s.fwu ∧
    (State.commitWrite s c n).glb = s.glb ∧ (State.commitWrite s c n).sb = s.sb := by
  have w1 := @State.cometCancel_still; have w2 := @State.commitPlaced_still; have w3 := @State.countWrite_still
  have w4 := @State.landUnits_still; have wi := @ite_parts
  simp [State.commitWrite, w1, w2, w3, w4, wi]
theorem State.orderedFail_still (s : State) (x : Ctx) :
    (State.orderedFail s x).pending = s.pending ∧ (State.orderedFail s x).host = s.host ∧ (State.orderedFail s x).epoch = s.epoch ∧
    (State.orderedFail s x).pat = s.pat ∧ (State.orderedFail s x).isl = s.isl ∧ (State.orderedFail s x).dramMargin = s.dramMargin ∧
    (State.orderedFail s x).ports = s.ports ∧ (State.orderedFail s x).trickle = s.trickle ∧ (State.orderedFail s x).mlf = s.mlf ∧
    (State.orderedFail s x).sec = s.sec ∧ (State.orderedFail s x).ctrs = s.ctrs ∧ (State.orderedFail s x).grps = s.grps ∧
    (State.orderedFail s x).pwr = s.pwr ∧ (State.orderedFail s x).thm = s.thm ∧ (State.orderedFail s x).age = s.age ∧
    (State.orderedFail s x).cnv = s.cnv ∧ (State.orderedFail s x).fwu = s.fwu ∧ (State.orderedFail s x).glb = s.glb ∧
    (State.orderedFail s x).sb = s.sb := by
  have wf := @foldl_parts
  have w1 := @State.setOq_still; have w2 := @State.squashPred_still
  unfold State.orderedFail; dsimp only; repeat' split
  all_goals simp [*]
theorem State.fix_still (s : State) (c : Nat) :
    (State.fix s c).pending = s.pending ∧ (State.fix s c).epoch = s.epoch ∧ (State.fix s c).pat = s.pat ∧ (State.fix s c).isl = s.isl ∧
    (State.fix s c).dramMargin = s.dramMargin ∧ (State.fix s c).ports = s.ports ∧ (State.fix s c).trickle = s.trickle ∧
    (State.fix s c).mlf = s.mlf ∧ (State.fix s c).sec = s.sec ∧ (State.fix s c).ctrs = s.ctrs ∧ (State.fix s c).grps = s.grps ∧
    (State.fix s c).pwr = s.pwr ∧ (State.fix s c).thm = s.thm ∧ (State.fix s c).age = s.age ∧ (State.fix s c).cnv = s.cnv ∧
    (State.fix s c).fwu = s.fwu ∧ (State.fix s c).glb = s.glb := by
  have w1 := @State.modCtx_still; have w2 := @State.orderedFail_still; have w3 := @State.ownProgressAll_still
  have w4 := @State.releaseSeat_still; have w5 := @State.setOq_still
  unfold State.fix; dsimp only; repeat' split
  all_goals simp [*]

end Sys2Proof.Machine
end

