-- ==== Sys2Proof/Laws/FrameIntake.lean ====
section
/-! SUPPORT. What the operations of intake, I/O commands, slices, faults and ports leave unchanged: one lemma per operation, which names every part of the state that it keeps. -/

namespace Sys2Proof.Machine

theorem State.badDoorbell_still (s : State) (port slice info : Nat) :
    (State.badDoorbell s port slice info).pending = s.pending ∧ (State.badDoorbell s port slice info).free = s.free ∧
    (State.badDoorbell s port slice info).host = s.host ∧ (State.badDoorbell s port slice info).epoch = s.epoch ∧
    (State.badDoorbell s port slice info).pat = s.pat ∧ (State.badDoorbell s port slice info).isl = s.isl ∧
    (State.badDoorbell s port slice info).routes = s.routes ∧ (State.badDoorbell s port slice info).dramMargin = s.dramMargin ∧
    (State.badDoorbell s port slice info).ports = s.ports ∧ (State.badDoorbell s port slice info).trickle = s.trickle ∧
    (State.badDoorbell s port slice info).zon = s.zon ∧ (State.badDoorbell s port slice info).med = s.med ∧
    (State.badDoorbell s port slice info).mlf = s.mlf ∧ (State.badDoorbell s port slice info).cpx = s.cpx ∧
    (State.badDoorbell s port slice info).wvf = s.wvf ∧ (State.badDoorbell s port slice info).bpm = s.bpm ∧
    (State.badDoorbell s port slice info).sli = s.sli ∧ (State.badDoorbell s port slice info).sec = s.sec ∧
    (State.badDoorbell s port slice info).mic = s.mic ∧ (State.badDoorbell s port slice info).flt = s.flt ∧
    (State.badDoorbell s port slice info).ctrs = s.ctrs ∧ (State.badDoorbell s port slice info).grps = s.grps ∧
    (State.badDoorbell s port slice info).pwr = s.pwr ∧ (State.badDoorbell s port slice info).thm = s.thm ∧
    (State.badDoorbell s port slice info).age = s.age ∧ (State.badDoorbell s port slice info).cnv = s.cnv ∧
    (State.badDoorbell s port slice info).fwu = s.fwu ∧ (State.badDoorbell s port slice info).glb = s.glb ∧
    (State.badDoorbell s port slice info).sb = s.sb := by
  have w1 := @State.aen_still
  simp [State.badDoorbell, w1]
theorem State.ringDoorbell_still (s : State) (port slice qid : Nat) (isCq : Bool) (v : Nat) :
    (State.ringDoorbell s port slice qid isCq v).pending = s.pending ∧ (State.ringDoorbell s port slice qid isCq v).free = s.free ∧
    (State.ringDoorbell s port slice qid isCq v).host = s.host ∧ (State.ringDoorbell s port slice qid isCq v).epoch = s.epoch ∧
    (State.ringDoorbell s port slice qid isCq v).pat = s.pat ∧ (State.ringDoorbell s port slice qid isCq v).isl = s.isl ∧
    (State.ringDoorbell s port slice qid isCq v).routes = s.routes ∧
    (State.ringDoorbell s port slice qid isCq v).dramMargin = s.dramMargin ∧ (State.ringDoorbell s port slice qid isCq v).ports = s.ports ∧
    (State.ringDoorbell s port slice qid isCq v).trickle = s.trickle ∧ (State.ringDoorbell s port slice qid isCq v).zon = s.zon ∧
    (State.ringDoorbell s port slice qid isCq v).med = s.med ∧ (State.ringDoorbell s port slice qid isCq v).mlf = s.mlf ∧
    (State.ringDoorbell s port slice qid isCq v).cpx = s.cpx ∧ (State.ringDoorbell s port slice qid isCq v).wvf = s.wvf ∧
    (State.ringDoorbell s port slice qid isCq v).bpm = s.bpm ∧ (State.ringDoorbell s port slice qid isCq v).sli = s.sli ∧
    (State.ringDoorbell s port slice qid isCq v).sec = s.sec ∧ (State.ringDoorbell s port slice qid isCq v).mic = s.mic ∧
    (State.ringDoorbell s port slice qid isCq v).flt = s.flt ∧ (State.ringDoorbell s port slice qid isCq v).ctrs = s.ctrs ∧
    (State.ringDoorbell s port slice qid isCq v).grps = s.grps ∧ (State.ringDoorbell s port slice qid isCq v).pwr = s.pwr ∧
    (State.ringDoorbell s port slice qid isCq v).thm = s.thm ∧ (State.ringDoorbell s port slice qid isCq v).age = s.age ∧
    (State.ringDoorbell s port slice qid isCq v).cnv = s.cnv ∧ (State.ringDoorbell s port slice qid isCq v).fwu = s.fwu ∧
    (State.ringDoorbell s port slice qid isCq v).glb = s.glb ∧ (State.ringDoorbell s port slice qid isCq v).sb = s.sb := by
  have wi := @ite_parts
  have w1 := @State.badDoorbell_still; have w2 := @State.setQueue_still
  unfold State.ringDoorbell; repeat' split
  all_goals simp [*]
theorem State.trickleOut_still (s : State) (p : Nat) (act : WsAct) :
    (State.trickleOut s p act).pending = s.pending ∧ (State.trickleOut s p act).free = s.free ∧ (State.trickleOut s p act).host = s.host ∧
    (State.trickleOut s p act).epoch = s.epoch ∧ (State.trickleOut s p act).pat = s.pat ∧ (State.trickleOut s p act).routes = s.routes ∧
    (State.trickleOut s p act).dramMargin = s.dramMargin ∧ (State.trickleOut s p act).cmd = s.cmd ∧
    (State.trickleOut s p act).zon = s.zon ∧ (State.trickleOut s p act).med = s.med ∧ (State.trickleOut s p act).mlf = s.mlf ∧
    (State.trickleOut s p act).cpx = s.cpx ∧ (State.trickleOut s p act).wvf = s.wvf ∧ (State.trickleOut s p act).bpm = s.bpm ∧
    (State.trickleOut s p act).sli = s.sli ∧ (State.trickleOut s p act).sec = s.sec ∧ (State.trickleOut s p act).mic = s.mic ∧
    (State.trickleOut s p act).flt = s.flt ∧ (State.trickleOut s p act).ctrs = s.ctrs ∧ (State.trickleOut s p act).grps = s.grps ∧
    (State.trickleOut s p act).thm = s.thm ∧ (State.trickleOut s p act).age = s.age ∧ (State.trickleOut s p act).cnv = s.cnv ∧
    (State.trickleOut s p act).fwu = s.fwu ∧ (State.trickleOut s p act).glb = s.glb ∧ (State.trickleOut s p act).sb = s.sb := by
  have w1 := @State.modPort_still; have w2 := @State.access_still; have wf := @foldl_parts
  simp [State.trickleOut, w1, w2, wf]
theorem State.doorbell_still (s : State) (port slice qid : Nat) (isCq : Bool) (v : Nat) :
    (State.doorbell s port slice qid isCq v).pending = s.pending ∧ (State.doorbell s port slice qid isCq v).free = s.free ∧
    (State.doorbell s port slice qid isCq v).host = s.host ∧ (State.doorbell s port slice qid isCq v).epoch = s.epoch ∧
    (State.doorbell s port slice qid isCq v).pat = s.pat ∧ (State.doorbell s port slice qid isCq v).routes = s.routes ∧
    (State.doorbell s port slice qid isCq v).dramMargin = s.dramMargin ∧ (State.doorbell s port slice qid isCq v).zon = s.zon ∧
    (State.doorbell s port slice qid isCq v).med = s.med ∧ (State.doorbell s port slice qid isCq v).mlf = s.mlf ∧
    (State.doorbell s port slice qid isCq v).cpx = s.cpx ∧ (State.doorbell s port slice qid isCq v).wvf = s.wvf ∧
    (State.doorbell s port slice qid isCq v).bpm = s.bpm ∧ (State.doorbell s port slice qid isCq v).sli = s.sli ∧
    (State.doorbell s port slice qid isCq v).sec = s.sec ∧ (State.doorbell s port slice qid isCq v).mic = s.mic ∧
    (State.doorbell s port slice qid isCq v).flt = s.flt ∧ (State.doorbell s port slice qid isCq v).ctrs = s.ctrs ∧
    (State.doorbell s port slice qid isCq v).grps = s.grps ∧ (State.doorbell s port slice qid isCq v).thm = s.thm ∧
    (State.doorbell s port slice qid isCq v).age = s.age ∧ (State.doorbell s port slice qid isCq v).cnv = s.cnv ∧
    (State.doorbell s port slice qid isCq v).fwu = s.fwu ∧ (State.doorbell s port slice qid isCq v).glb = s.glb ∧
    (State.doorbell s port slice qid isCq v).sb = s.sb := by
  have w1 := @State.modPort_still; have w2 := @State.trickleOut_still; have w3 := @State.access_still
  have w4 := @State.ringDoorbell_still; have wi := @ite_parts
  simp [State.doorbell, w1, w2, w3, w4, wi]
theorem State.fetchCharge_still (s : State) (q : Queue) :
    (State.fetchCharge s q).pending = s.pending ∧ (State.fetchCharge s q).free = s.free ∧ (State.fetchCharge s q).host = s.host ∧
    (State.fetchCharge s q).epoch = s.epoch ∧ (State.fetchCharge s q).pat = s.pat ∧ (State.fetchCharge s q).isl = s.isl ∧
    (State.fetchCharge s q).routes = s.routes ∧ (State.fetchCharge s q).dramMargin = s.dramMargin ∧
    (State.fetchCharge s q).ports = s.ports ∧ (State.fetchCharge s q).trickle = s.trickle ∧ (State.fetchCharge s q).cmd = s.cmd ∧
    (State.fetchCharge s q).zon = s.zon ∧ (State.fetchCharge s q).med = s.med ∧ (State.fetchCharge s q).mlf = s.mlf ∧
    (State.fetchCharge s q).cpx = s.cpx ∧ (State.fetchCharge s q).wvf = s.wvf ∧ (State.fetchCharge s q).bpm = s.bpm ∧
    (State.fetchCharge s q).sec = s.sec ∧ (State.fetchCharge s q).mic = s.mic ∧ (State.fetchCharge s q).flt = s.flt ∧
    (State.fetchCharge s q).ctrs = s.ctrs ∧ (State.fetchCharge s q).grps = s.grps ∧ (State.fetchCharge s q).pwr = s.pwr ∧
    (State.fetchCharge s q).thm = s.thm ∧ (State.fetchCharge s q).age = s.age ∧ (State.fetchCharge s q).cnv = s.cnv ∧
    (State.fetchCharge s q).fwu = s.fwu ∧ (State.fetchCharge s q).glb = s.glb ∧ (State.fetchCharge s q).sb = s.sb := by
  have w1 := @State.modSli_still; have wi := @ite_parts
  simp [State.fetchCharge, w1, wi]
theorem State.powerWake_still (s : State) :
    (State.powerWake s).pending = s.pending ∧ (State.powerWake s).free = s.free ∧ (State.powerWake s).host = s.host ∧
    (State.powerWake s).epoch = s.epoch ∧ (State.powerWake s).pat = s.pat ∧ (State.powerWake s).routes = s.routes ∧
    (State.powerWake s).dramMargin = s.dramMargin ∧ (State.powerWake s).ports = s.ports ∧ (State.powerWake s).trickle = s.trickle ∧
    (State.powerWake s).cmd = s.cmd ∧ (State.powerWake s).zon = s.zon ∧ (State.powerWake s).med = s.med ∧ (State.powerWake s).mlf = s.mlf ∧
    (State.powerWake s).cpx = s.cpx ∧ (State.powerWake s).wvf = s.wvf ∧ (State.powerWake s).bpm = s.bpm ∧ (State.powerWake s).sli = s.sli ∧
    (State.powerWake s).sec = s.sec ∧ (State.powerWake s).mic = s.mic ∧ (State.powerWake s).flt = s.flt ∧
    (State.powerWake s).ctrs = s.ctrs ∧ (State.powerWake s).grps = s.grps ∧ (State.powerWake s).thm = s.thm ∧
    (State.powerWake s).age = s.age ∧ (State.powerWake s).cnv = s.cnv ∧ (State.powerWake s).fwu = s.fwu ∧ (State.powerWake s).glb = s.glb ∧
    (State.powerWake s).sb = s.sb := by
  have w1 := @State.liftFloors_still; have wi := @ite_parts
  simp [State.powerWake, w1, wi]
theorem State.fetchInto_still (s : State) (dq c : Nat) (e : Sqe) :
    (State.fetchInto s dq c e).pending = s.pending ∧ (State.fetchInto s dq c e).free = s.free ∧ (State.fetchInto s dq c e).host = s.host ∧
    (State.fetchInto s dq c e).epoch = s.epoch ∧ (State.fetchInto s dq c e).pat = s.pat ∧ (State.fetchInto s dq c e).isl = s.isl ∧
    (State.fetchInto s dq c e).routes = s.routes ∧ (State.fetchInto s dq c e).dramMargin = s.dramMargin ∧
    (State.fetchInto s dq c e).ports = s.ports ∧ (State.fetchInto s dq c e).trickle = s.trickle ∧ (State.fetchInto s dq c e).zon = s.zon ∧
    (State.fetchInto s dq c e).med = s.med ∧ (State.fetchInto s dq c e).mlf = s.mlf ∧ (State.fetchInto s dq c e).cpx = s.cpx ∧
    (State.fetchInto s dq c e).wvf = s.wvf ∧ (State.fetchInto s dq c e).bpm = s.bpm ∧ (State.fetchInto s dq c e).sec = s.sec ∧
    (State.fetchInto s dq c e).mic = s.mic ∧ (State.fetchInto s dq c e).flt = s.flt ∧ (State.fetchInto s dq c e).ctrs = s.ctrs ∧
    (State.fetchInto s dq c e).grps = s.grps ∧ (State.fetchInto s dq c e).pwr = s.pwr ∧ (State.fetchInto s dq c e).thm = s.thm ∧
    (State.fetchInto s dq c e).age = s.age ∧ (State.fetchInto s dq c e).cnv = s.cnv ∧ (State.fetchInto s dq c e).fwu = s.fwu ∧
    (State.fetchInto s dq c e).glb = s.glb ∧ (State.fetchInto s dq c e).sb = s.sb := by
  have w1 := @State.setQueue_still; have w2 := @State.modSli_still; have w3 := @State.setCtx_still
  simp [State.fetchInto, w1, w2, w3]
theorem State.pointerEnd_still (s : State) (c : Nat) (x : Ctx) (e : St) :
    (State.pointerEnd s c x e).pending = s.pending ∧ (State.pointerEnd s c x e).host = s.host ∧
    (State.pointerEnd s c x e).epoch = s.epoch ∧ (State.pointerEnd s c x e).pat = s.pat ∧ (State.pointerEnd s c x e).isl = s.isl ∧
    (State.pointerEnd s c x e).dramMargin = s.dramMargin ∧ (State.pointerEnd s c x e).ports = s.ports ∧
    (State.pointerEnd s c x e).trickle = s.trickle ∧ (State.pointerEnd s c x e).mlf = s.mlf ∧ (State.pointerEnd s c x e).sli = s.sli ∧
    (State.pointerEnd s c x e).sec = s.sec ∧ (State.pointerEnd s c x e).ctrs = s.ctrs ∧ (State.pointerEnd s c x e).grps = s.grps ∧
    (State.pointerEnd s c x e).pwr = s.pwr ∧ (State.pointerEnd s c x e).thm = s.thm ∧ (State.pointerEnd s c x e).age = s.age ∧
    (State.pointerEnd s c x e).cnv = s.cnv ∧ (State.pointerEnd s c x e).fwu = s.fwu ∧ (State.pointerEnd s c x e).glb = s.glb ∧
    (State.pointerEnd s c x e).sb = s.sb := by
  have w1 := @State.finish_still; have w2 := @State.endErr_still; have wi := @ite_parts
  simp [State.pointerEnd, w1, w2, wi]
theorem State.placeAgain_still (s : State) (c : Nat) :
    (State.placeAgain s c).pending = s.pending ∧ (State.placeAgain s c).free = s.free ∧ (State.placeAgain s c).host = s.host ∧
    (State.placeAgain s c).epoch = s.epoch ∧ (State.placeAgain s c).pat = s.pat ∧ (State.placeAgain s c).routes = s.routes ∧
    (State.placeAgain s c).dramMargin = s.dramMargin ∧ (State.placeAgain s c).ports = s.ports ∧
    (State.placeAgain s c).trickle = s.trickle ∧ (State.placeAgain s c).cpx = s.cpx ∧ (State.placeAgain s c).wvf = s.wvf ∧
    (State.placeAgain s c).bpm = s.bpm ∧ (State.placeAgain s c).sec = s.sec ∧ (State.placeAgain s c).mic = s.mic ∧
    (State.placeAgain s c).ctrs = s.ctrs ∧ (State.placeAgain s c).grps = s.grps ∧ (State.placeAgain s c).thm = s.thm ∧
    (State.placeAgain s c).age = s.age ∧ (State.placeAgain s c).cnv = s.cnv ∧ (State.placeAgain s c).fwu = s.fwu ∧
    (State.placeAgain s c).glb = s.glb ∧ (State.placeAgain s c).sb = s.sb := by
  have w1 := @State.placeBlocks_still; have wi := @ite_parts
  simp [State.placeAgain, w1, wi]
theorem State.verifyStage_still (s : State) (c : Nat) :
    (State.verifyStage s c).pending = s.pending ∧ (State.verifyStage s c).host = s.host ∧ (State.verifyStage s c).epoch = s.epoch ∧
    (State.verifyStage s c).pat = s.pat ∧ (State.verifyStage s c).dramMargin = s.dramMargin ∧ (State.verifyStage s c).ports = s.ports ∧
    (State.verifyStage s c).trickle = s.trickle ∧ (State.verifyStage s c).sec = s.sec ∧ (State.verifyStage s c).ctrs = s.ctrs ∧
    (State.verifyStage s c).grps = s.grps ∧ (State.verifyStage s c).thm = s.thm ∧ (State.verifyStage s c).age = s.age ∧
    (State.verifyStage s c).cnv = s.cnv ∧ (State.verifyStage s c).fwu = s.fwu ∧ (State.verifyStage s c).glb = s.glb ∧
    (State.verifyStage s c).sb = s.sb := by
  have w1 := @State.endErr_still; have w2 := @State.endWith_still; have w3 := @State.modCtx_still
  have w4 := @State.placeBlocks_still; have w5 := @State.routedJob_still
  unfold State.verifyStage; dsimp only; repeat' split
  all_goals simp [*]
theorem State.moveData_still (s : State) (c : Nat) (x : Ctx) (d : HostData) :
    (State.moveData s c x d).pending = s.pending ∧ (State.moveData s c x d).host = s.host ∧ (State.moveData s c x d).epoch = s.epoch ∧
    (State.moveData s c x d).pat = s.pat ∧ (State.moveData s c x d).dramMargin = s.dramMargin ∧ (State.moveData s c x d).ports = s.ports ∧
    (State.moveData s c x d).trickle = s.trickle ∧ (State.moveData s c x d).sec = s.sec ∧ (State.moveData s c x d).ctrs = s.ctrs ∧
    (State.moveData s c x d).grps = s.grps ∧ (State.moveData s c x d).thm = s.thm ∧ (State.moveData s c x d).age = s.age ∧
    (State.moveData s c x d).cnv = s.cnv ∧ (State.moveData s c x d).fwu = s.fwu ∧ (State.moveData s c x d).glb = s.glb ∧
    (State.moveData s c x d).sb = s.sb := by
  have w1 := @State.endErr_still; have w2 := @State.jobInput_still; have w3 := @State.modJob_still
  have w4 := @State.placeBlocks_still; have w5 := @State.setCtx_still; have w6 := @State.verifyStage_still
  unfold State.moveData; repeat' split
  all_goals simp [*]
theorem State.cqIrq_still (s : State) (k : Nat) :
    (State.cqIrq s k).pending = s.pending ∧ (State.cqIrq s k).free = s.free ∧ (State.cqIrq s k).epoch = s.epoch ∧
    (State.cqIrq s k).pat = s.pat ∧ (State.cqIrq s k).isl = s.isl ∧ (State.cqIrq s k).routes = s.routes ∧
    (State.cqIrq s k).dramMargin = s.dramMargin ∧ (State.cqIrq s k).trickle = s.trickle ∧ (State.cqIrq s k).zon = s.zon ∧
    (State.cqIrq s k).med = s.med ∧ (State.cqIrq s k).mlf = s.mlf ∧ (State.cqIrq s k).cpx = s.cpx ∧ (State.cqIrq s k).wvf = s.wvf ∧
    (State.cqIrq s k).bpm = s.bpm ∧ (State.cqIrq s k).sec = s.sec ∧ (State.cqIrq s k).mic = s.mic ∧ (State.cqIrq s k).flt = s.flt ∧
    (State.cqIrq s k).ctrs = s.ctrs ∧ (State.cqIrq s k).grps = s.grps ∧ (State.cqIrq s k).pwr = s.pwr ∧ (State.cqIrq s k).thm = s.thm ∧
    (State.cqIrq s k).age = s.age ∧ (State.cqIrq s k).cnv = s.cnv ∧ (State.cqIrq s k).fwu = s.fwu ∧ (State.cqIrq s k).glb = s.glb ∧
    (State.cqIrq s k).sb = s.sb := by
  have w1 := @State.setQueue_still; have w2 := @State.sendIrq_still; have wi := @ite_parts
  simp [State.cqIrq, w1, w2, wi]
theorem State.postCqe_still (s : State) (c k : Nat) (x : Ctx) :
    (State.postCqe s c k x).pending = s.pending ∧ (State.postCqe s c k x).free = s.free ∧ (State.postCqe s c k x).epoch = s.epoch ∧
    (State.postCqe s c k x).pat = s.pat ∧ (State.postCqe s c k x).isl = s.isl ∧ (State.postCqe s c k x).routes = s.routes ∧
    (State.postCqe s c k x).dramMargin = s.dramMargin ∧ (State.postCqe s c k x).trickle = s.trickle ∧ (State.postCqe s c k x).zon = s.zon ∧
    (State.postCqe s c k x).med = s.med ∧ (State.postCqe s c k x).mlf = s.mlf ∧ (State.postCqe s c k x).wvf = s.wvf ∧
    (State.postCqe s c k x).bpm = s.bpm ∧ (State.postCqe s c k x).sec = s.sec ∧ (State.postCqe s c k x).flt = s.flt ∧
    (State.postCqe s c k x).ctrs = s.ctrs ∧ (State.postCqe s c k x).grps = s.grps ∧ (State.postCqe s c k x).pwr = s.pwr ∧
    (State.postCqe s c k x).thm = s.thm ∧ (State.postCqe s c k x).age = s.age ∧ (State.postCqe s c k x).cnv = s.cnv ∧
    (State.postCqe s c k x).fwu = s.fwu ∧ (State.postCqe s c k x).glb = s.glb ∧ (State.postCqe s c k x).sb = s.sb := by
  have w1 := @State.postData_still; have w2 := @State.setQueue_still; have w3 := @State.modSli_still
  have w4 := @State.freeCtx_still; have w5 := @State.cqIrq_still
  simp [State.postCqe, w1, w2, w3, w4, w5]
theorem State.oqWrite_still (s : State) (k : Nat) (en : Bool) (slice sqid : Nat) :
    (State.oqWrite s k en slice sqid).pending = s.pending ∧ (State.oqWrite s k en slice sqid).free = s.free ∧
    (State.oqWrite s k en slice sqid).host = s.host ∧ (State.oqWrite s k en slice sqid).epoch = s.epoch ∧
    (State.oqWrite s k en slice sqid).pat = s.pat ∧ (State.oqWrite s k en slice sqid).isl = s.isl ∧
    (State.oqWrite s k en slice sqid).routes = s.routes ∧ (State.oqWrite s k en slice sqid).dramMargin = s.dramMargin ∧
    (State.oqWrite s k en slice sqid).ports = s.ports ∧ (State.oqWrite s k en slice sqid).trickle = s.trickle ∧
    (State.oqWrite s k en slice sqid).zon = s.zon ∧ (State.oqWrite s k en slice sqid).med = s.med ∧
    (State.oqWrite s k en slice sqid).mlf = s.mlf ∧ (State.oqWrite s k en slice sqid).cpx = s.cpx ∧
    (State.oqWrite s k en slice sqid).wvf = s.wvf ∧ (State.oqWrite s k en slice sqid).bpm = s.bpm ∧
    (State.oqWrite s k en slice sqid).sli = s.sli ∧ (State.oqWrite s k en slice sqid).sec = s.sec ∧
    (State.oqWrite s k en slice sqid).mic = s.mic ∧ (State.oqWrite s k en slice sqid).flt = s.flt ∧
    (State.oqWrite s k en slice sqid).ctrs = s.ctrs ∧ (State.oqWrite s k en slice sqid).grps = s.grps ∧
    (State.oqWrite s k en slice sqid).pwr = s.pwr ∧ (State.oqWrite s k en slice sqid).thm = s.thm ∧
    (State.oqWrite s k en slice sqid).age = s.age ∧ (State.oqWrite s k en slice sqid).cnv = s.cnv ∧
    (State.oqWrite s k en slice sqid).fwu = s.fwu ∧ (State.oqWrite s k en slice sqid).glb = s.glb ∧
    (State.oqWrite s k en slice sqid).sb = s.sb := by
  have w1 := @State.setOq_still; have wi := @ite_parts
  simp [State.oqWrite, w1, wi]
theorem State.oqResumeWrite_still (s : State) (port slice sqid : Nat) :
    (State.oqResumeWrite s port slice sqid).pending = s.pending ∧ (State.oqResumeWrite s port slice sqid).free = s.free ∧
    (State.oqResumeWrite s port slice sqid).host = s.host ∧ (State.oqResumeWrite s port slice sqid).epoch = s.epoch ∧
    (State.oqResumeWrite s port slice sqid).pat = s.pat ∧ (State.oqResumeWrite s port slice sqid).isl = s.isl ∧
    (State.oqResumeWrite s port slice sqid).routes = s.routes ∧ (State.oqResumeWrite s port slice sqid).dramMargin = s.dramMargin ∧
    (State.oqResumeWrite s port slice sqid).ports = s.ports ∧ (State.oqResumeWrite s port slice sqid).trickle = s.trickle ∧
    (State.oqResumeWrite s port slice sqid).zon = s.zon ∧ (State.oqResumeWrite s port slice sqid).med = s.med ∧
    (State.oqResumeWrite s port slice sqid).mlf = s.mlf ∧ (State.oqResumeWrite s port slice sqid).cpx = s.cpx ∧
    (State.oqResumeWrite s port slice sqid).wvf = s.wvf ∧ (State.oqResumeWrite s port slice sqid).bpm = s.bpm ∧
    (State.oqResumeWrite s port slice sqid).sli = s.sli ∧ (State.oqResumeWrite s port slice sqid).sec = s.sec ∧
    (State.oqResumeWrite s port slice sqid).mic = s.mic ∧ (State.oqResumeWrite s port slice sqid).flt = s.flt ∧
    (State.oqResumeWrite s port slice sqid).ctrs = s.ctrs ∧ (State.oqResumeWrite s port slice sqid).grps = s.grps ∧
    (State.oqResumeWrite s port slice sqid).pwr = s.pwr ∧ (State.oqResumeWrite s port slice sqid).thm = s.thm ∧
    (State.oqResumeWrite s port slice sqid).age = s.age ∧ (State.oqResumeWrite s port slice sqid).cnv = s.cnv ∧
    (State.oqResumeWrite s port slice sqid).fwu = s.fwu ∧ (State.oqResumeWrite s port slice sqid).glb = s.glb ∧
    (State.oqResumeWrite s port slice sqid).sb = s.sb := by
  have w1 := @State.modCtrl_still; have w2 := @State.setOq_still
  unfold State.oqResumeWrite; repeat' split
  all_goals simp [*]
theorem State.lockWrite_still (s : State) (c n lo cnt nxt : Nat) :
    (State.lockWrite s c n lo cnt nxt).pending = s.pending ∧ (State.lockWrite s c n lo cnt nxt).host = s.host ∧
    (State.lockWrite s c n lo cnt nxt).epoch = s.epoch ∧ (State.lockWrite s c n lo cnt nxt).pat = s.pat ∧
    (State.lockWrite s c n lo cnt nxt).isl = s.isl ∧ (State.lockWrite s c n lo cnt nxt).dramMargin = s.dramMargin ∧
    (State.lockWrite s c n lo cnt nxt).ports = s.ports ∧ (State.lockWrite s c n lo cnt nxt).trickle = s.trickle ∧
    (State.lockWrite s c n lo cnt nxt).mlf = s.mlf ∧ (State.lockWrite s c n lo cnt nxt).sec = s.sec ∧
    (State.lockWrite s c n lo cnt nxt).ctrs = s.ctrs ∧ (State.lockWrite s c n lo cnt nxt).grps = s.grps ∧
    (State.lockWrite s c n lo cnt nxt).pwr = s.pwr ∧ (State.lockWrite s c n lo cnt nxt).thm = s.thm ∧
    (State.lockWrite s c n lo cnt nxt).age = s.age ∧ (State.lockWrite s c n lo cnt nxt).cnv = s.cnv ∧
    (State.lockWrite s c n lo cnt nxt).fwu = s.fwu ∧ (State.lockWrite s c n lo cnt nxt).glb = s.glb ∧
    (State.lockWrite s c n lo cnt nxt).sb = s.sb := by
  have w1 := @State.endErr_still; have w2 := @State.countLookups_still; have w3 := @State.modCtx_still
  have w4 := @State.enterLock_still
  unfold State.lockWrite; repeat' split
  all_goals simp [*]
theorem State.lockZone_still (s : State) (c n z : Nat) (off : Option Nat) (len nxt : Nat) :
    (State.lockZone s c n z off len nxt).pending = s.pending ∧ (State.lockZone s c n z off len nxt).host = s.host ∧
    (State.lockZone s c n z off len nxt).epoch = s.epoch ∧ (State.lockZone s c n z off len nxt).pat = s.pat ∧
    (State.lockZone s c n z off len nxt).isl = s.isl ∧ (State.lockZone s c n z off len nxt).dramMargin = s.dramMargin ∧
    (State.lockZone s c n z off len nxt).ports = s.ports ∧ (State.lockZone s c n z off len nxt).trickle = s.trickle ∧
    (State.lockZone s c n z off len nxt).mlf = s.mlf ∧ (State.lockZone s c n z off len nxt).sec = s.sec ∧
    (State.lockZone s c n z off len nxt).ctrs = s.ctrs ∧ (State.lockZone s c n z off len nxt).grps = s.grps ∧
    (State.lockZone s c n z off len nxt).pwr = s.pwr ∧ (State.lockZone s c n z off len nxt).thm = s.thm ∧
    (State.lockZone s c n z off len nxt).age = s.age ∧ (State.lockZone s c n z off len nxt).cnv = s.cnv ∧
    (State.lockZone s c n z off len nxt).fwu = s.fwu ∧ (State.lockZone s c n z off len nxt).glb = s.glb ∧
    (State.lockZone s c n z off len nxt).sb = s.sb := by
  have w1 := @State.reserve_still; have w2 := @State.enterLock_still; have wi := @ite_parts
  simp [State.lockZone, w1, w2, wi]
theorem State.writeStage6_still (s : State) (c : Nat) :
    (State.writeStage6 s c).pending = s.pending ∧ (State.writeStage6 s c).host = s.host ∧ (State.writeStage6 s c).epoch = s.epoch ∧
    (State.writeStage6 s c).pat = s.pat ∧ (State.writeStage6 s c).isl = s.isl ∧ (State.writeStage6 s c).dramMargin = s.dramMargin ∧
    (State.writeStage6 s c).ports = s.ports ∧ (State.writeStage6 s c).trickle = s.trickle ∧ (State.writeStage6 s c).mlf = s.mlf ∧
    (State.writeStage6 s c).sec = s.sec ∧ (State.writeStage6 s c).ctrs = s.ctrs ∧ (State.writeStage6 s c).grps = s.grps ∧
    (State.writeStage6 s c).pwr = s.pwr ∧ (State.writeStage6 s c).thm = s.thm ∧ (State.writeStage6 s c).age = s.age ∧
    (State.writeStage6 s c).cnv = s.cnv ∧ (State.writeStage6 s c).fwu = s.fwu ∧ (State.writeStage6 s c).glb = s.glb ∧
    (State.writeStage6 s c).sb = s.sb := by
  have w1 := @State.endErr_still; have w2 := @State.lockZone_still; have w3 := @State.lockWrite_still; have wi := @ite_parts
  simp [State.writeStage6, w1, w2, w3, wi]
theorem State.appendStage6_still (s : State) (c : Nat) :
    (State.appendStage6 s c).pending = s.pending ∧ (State.appendStage6 s c).host = s.host ∧ (State.appendStage6 s c).epoch = s.epoch ∧
    (State.appendStage6 s c).pat = s.pat ∧ (State.appendStage6 s c).isl = s.isl ∧ (State.appendStage6 s c).dramMargin = s.dramMargin ∧
    (State.appendStage6 s c).ports = s.ports ∧ (State.appendStage6 s c).trickle = s.trickle ∧ (State.appendStage6 s c).mlf = s.mlf ∧
    (State.appendStage6 s c).sec = s.sec ∧ (State.appendStage6 s c).ctrs = s.ctrs ∧ (State.appendStage6 s c).grps = s.grps ∧
    (State.appendStage6 s c).pwr = s.pwr ∧ (State.appendStage6 s c).thm = s.thm ∧ (State.appendStage6 s c).age = s.age ∧
    (State.appendStage6 s c).cnv = s.cnv ∧ (State.appendStage6 s c).fwu = s.fwu ∧ (State.appendStage6 s c).glb = s.glb ∧
    (State.appendStage6 s c).sb = s.sb := by
  have w1 := @State.endErr_still; have w2 := @State.lockZone_still; have wi := @ite_parts
  simp [State.appendStage6, w1, w2, wi]
theorem State.readStage6_still (s : State) (c nxt : Nat) :
    (State.readStage6 s c nxt).pending = s.pending ∧ (State.readStage6 s c nxt).host = s.host ∧
    (State.readStage6 s c nxt).epoch = s.epoch ∧ (State.readStage6 s c nxt).pat = s.pat ∧ (State.readStage6 s c nxt).isl = s.isl ∧
    (State.readStage6 s c nxt).dramMargin = s.dramMargin ∧ (State.readStage6 s c nxt).ports = s.ports ∧
    (State.readStage6 s c nxt).trickle = s.trickle ∧ (State.readStage6 s c nxt).mlf = s.mlf ∧ (State.readStage6 s c nxt).sec = s.sec ∧
    (State.readStage6 s c nxt).ctrs = s.ctrs ∧ (State.readStage6 s c nxt).grps = s.grps ∧ (State.readStage6 s c nxt).pwr = s.pwr ∧
    (State.readStage6 s c nxt).thm = s.thm ∧ (State.readStage6 s c nxt).age = s.age ∧ (State.readStage6 s c nxt).cnv = s.cnv ∧
    (State.readStage6 s c nxt).fwu = s.fwu ∧ (State.readStage6 s c nxt).glb = s.glb ∧ (State.readStage6 s c nxt).sb = s.sb := by
  have w1 := @State.endErr_still; have w2 := @State.translateReads_still; have w3 := @State.modCtx_still
  have w4 := @State.enterLock_still; have wi := @ite_parts
  simp [State.readStage6, w1, w2, w3, w4, wi]
theorem State.copyStage6_still (s : State) (c : Nat) :
    (State.copyStage6 s c).pending = s.pending ∧ (State.copyStage6 s c).host = s.host ∧ (State.copyStage6 s c).epoch = s.epoch ∧
    (State.copyStage6 s c).pat = s.pat ∧ (State.copyStage6 s c).isl = s.isl ∧ (State.copyStage6 s c).dramMargin = s.dramMargin ∧
    (State.copyStage6 s c).ports = s.ports ∧ (State.copyStage6 s c).trickle = s.trickle ∧ (State.copyStage6 s c).mlf = s.mlf ∧
    (State.copyStage6 s c).sec = s.sec ∧ (State.copyStage6 s c).ctrs = s.ctrs ∧ (State.copyStage6 s c).grps = s.grps ∧
    (State.copyStage6 s c).pwr = s.pwr ∧ (State.copyStage6 s c).thm = s.thm ∧ (State.copyStage6 s c).age = s.age ∧
    (State.copyStage6 s c).cnv = s.cnv ∧ (State.copyStage6 s c).fwu = s.fwu ∧ (State.copyStage6 s c).glb = s.glb ∧
    (State.copyStage6 s c).sb = s.sb := by
  have w1 := @State.endErr_still; have w2 := @State.translateReads_still; have w3 := @State.modCtx_still
  have w4 := @State.lockZone_still; have w5 := @State.lockWrite_still; have wi := @ite_parts
  simp [State.copyStage6, w1, w2, w3, w4, w5, wi]
theorem State.ready13_still (s : State) (c : Nat) :
    (State.ready13 s c).pending = s.pending ∧ (State.ready13 s c).free = s.free ∧ (State.ready13 s c).host = s.host ∧
    (State.ready13 s c).epoch = s.epoch ∧ (State.ready13 s c).pat = s.pat ∧ (State.ready13 s c).isl = s.isl ∧
    (State.ready13 s c).routes = s.routes ∧ (State.ready13 s c).dramMargin = s.dramMargin ∧ (State.ready13 s c).ports = s.ports ∧
    (State.ready13 s c).trickle = s.trickle ∧ (State.ready13 s c).zon = s.zon ∧ (State.ready13 s c).med = s.med ∧
    (State.ready13 s c).mlf = s.mlf ∧ (State.ready13 s c).cpx = s.cpx ∧ (State.ready13 s c).wvf = s.wvf ∧ (State.ready13 s c).bpm = s.bpm ∧
    (State.ready13 s c).sli = s.sli ∧ (State.ready13 s c).sec = s.sec ∧ (State.ready13 s c).mic = s.mic ∧ (State.ready13 s c).flt = s.flt ∧
    (State.ready13 s c).ctrs = s.ctrs ∧ (State.ready13 s c).grps = s.grps ∧ (State.ready13 s c).pwr = s.pwr ∧
    (State.ready13 s c).thm = s.thm ∧ (State.ready13 s c).age = s.age ∧ (State.ready13 s c).cnv = s.cnv ∧ (State.ready13 s c).fwu = s.fwu ∧
    (State.ready13 s c).glb = s.glb ∧ (State.ready13 s c).sb = s.sb := by
  have w1 := @State.modCtx_still; have wi := @ite_parts
  simp [State.ready13, w1, wi]
theorem State.dsmStage6_still (s : State) (c : Nat) :
    (State.dsmStage6 s c).pending = s.pending ∧ (State.dsmStage6 s c).host = s.host ∧ (State.dsmStage6 s c).epoch = s.epoch ∧
    (State.dsmStage6 s c).pat = s.pat ∧ (State.dsmStage6 s c).isl = s.isl ∧ (State.dsmStage6 s c).dramMargin = s.dramMargin ∧
    (State.dsmStage6 s c).ports = s.ports ∧ (State.dsmStage6 s c).trickle = s.trickle ∧ (State.dsmStage6 s c).mlf = s.mlf ∧
    (State.dsmStage6 s c).sec = s.sec ∧ (State.dsmStage6 s c).ctrs = s.ctrs ∧ (State.dsmStage6 s c).grps = s.grps ∧
    (State.dsmStage6 s c).pwr = s.pwr ∧ (State.dsmStage6 s c).thm = s.thm ∧ (State.dsmStage6 s c).age = s.age ∧
    (State.dsmStage6 s c).cnv = s.cnv ∧ (State.dsmStage6 s c).fwu = s.fwu ∧ (State.dsmStage6 s c).glb = s.glb ∧
    (State.dsmStage6 s c).sb = s.sb := by
  have w1 := @State.endErr_still; have w2 := @State.modCtx_still; have w3 := @State.countLookups_still
  have w4 := @State.enterLock_still; have w5 := @State.ready13_still; have wi := @ite_parts
  simp [State.dsmStage6, w1, w2, w3, w4, w5, wi]
theorem State.flushStage6_still (s : State) (c : Nat) :
    (State.flushStage6 s c).pending = s.pending ∧ (State.flushStage6 s c).host = s.host ∧ (State.flushStage6 s c).epoch = s.epoch ∧
    (State.flushStage6 s c).pat = s.pat ∧ (State.flushStage6 s c).isl = s.isl ∧ (State.flushStage6 s c).dramMargin = s.dramMargin ∧
    (State.flushStage6 s c).ports = s.ports ∧ (State.flushStage6 s c).trickle = s.trickle ∧ (State.flushStage6 s c).mlf = s.mlf ∧
    (State.flushStage6 s c).sli = s.sli ∧ (State.flushStage6 s c).sec = s.sec ∧ (State.flushStage6 s c).ctrs = s.ctrs ∧
    (State.flushStage6 s c).grps = s.grps ∧ (State.flushStage6 s c).pwr = s.pwr ∧ (State.flushStage6 s c).thm = s.thm ∧
    (State.flushStage6 s c).age = s.age ∧ (State.flushStage6 s c).cnv = s.cnv ∧ (State.flushStage6 s c).fwu = s.fwu ∧
    (State.flushStage6 s c).glb = s.glb ∧ (State.flushStage6 s c).sb = s.sb := by
  have w1 := @State.endErr_still; have w2 := @State.landUnits_still; have w3 := @State.modCtx_still; have wi := @ite_parts
  simp [State.flushStage6, w1, w2, w3, wi]
theorem State.zoneStage6_still (s : State) (c act : Nat) :
    (State.zoneStage6 s c act).pending = s.pending ∧ (State.zoneStage6 s c act).host = s.host ∧
    (State.zoneStage6 s c act).epoch = s.epoch ∧ (State.zoneStage6 s c act).pat = s.pat ∧ (State.zoneStage6 s c act).isl = s.isl ∧
    (State.zoneStage6 s c act).dramMargin = s.dramMargin ∧ (State.zoneStage6 s c act).ports = s.ports ∧
    (State.zoneStage6 s c act).trickle = s.trickle ∧ (State.zoneStage6 s c act).mlf = s.mlf ∧ (State.zoneStage6 s c act).sec = s.sec ∧
    (State.zoneStage6 s c act).ctrs = s.ctrs ∧ (State.zoneStage6 s c act).grps = s.grps ∧ (State.zoneStage6 s c act).pwr = s.pwr ∧
    (State.zoneStage6 s c act).thm = s.thm ∧ (State.zoneStage6 s c act).age = s.age ∧ (State.zoneStage6 s c act).cnv = s.cnv ∧
    (State.zoneStage6 s c act).fwu = s.fwu ∧ (State.zoneStage6 s c act).glb = s.glb ∧ (State.zoneStage6 s c act).sb = s.sb := by
  have w1 := @State.endErr_still; have w2 := @State.rebuildProj_still; have w3 := @State.modCtx_still
  have w4 := @State.reproject_still; have w5 := @State.enterLock_still; have w6 := @State.ready13_still; have wf := @foldl_parts
  have wp := @foldl_snd_parts; have wi := @ite_parts
  unfold State.zoneStage6; dsimp only; repeat' split
  all_goals simp [*]
theorem State.zoneRow_still (s : State) (c act : Nat) :
    (State.zoneRow s c act).pending = s.pending ∧ (State.zoneRow s c act).host = s.host ∧ (State.zoneRow s c act).epoch = s.epoch ∧
    (State.zoneRow s c act).pat = s.pat ∧ (State.zoneRow s c act).isl = s.isl ∧ (State.zoneRow s c act).dramMargin = s.dramMargin ∧
    (State.zoneRow s c act).ports = s.ports ∧ (State.zoneRow s c act).trickle = s.trickle ∧ (State.zoneRow s c act).mlf = s.mlf ∧
    (State.zoneRow s c act).sec = s.sec ∧ (State.zoneRow s c act).ctrs = s.ctrs ∧ (State.zoneRow s c act).grps = s.grps ∧
    (State.zoneRow s c act).pwr = s.pwr ∧ (State.zoneRow s c act).thm = s.thm ∧ (State.zoneRow s c act).age = s.age ∧
    (State.zoneRow s c act).cnv = s.cnv ∧ (State.zoneRow s c act).fwu = s.fwu ∧ (State.zoneRow s c act).glb = s.glb ∧
    (State.zoneRow s c act).sb = s.sb := by
  have w1 := @State.modCtx_still; have w2 := @State.enterLock_still; have w3 := @State.ready13_still
  have w4 := @State.enterRow_still; have w5 := @State.zoneStage6_still; have wi := @ite_parts
  simp [State.zoneRow, w1, w2, w3, w4, w5, wi]
theorem State.mailboxIrq_still (s : State) (sl : Nat) :
    (State.mailboxIrq s sl).pending = s.pending ∧ (State.mailboxIrq s sl).free = s.free ∧ (State.mailboxIrq s sl).epoch = s.epoch ∧
    (State.mailboxIrq s sl).pat = s.pat ∧ (State.mailboxIrq s sl).isl = s.isl ∧ (State.mailboxIrq s sl).routes = s.routes ∧
    (State.mailboxIrq s sl).dramMargin = s.dramMargin ∧ (State.mailboxIrq s sl).trickle = s.trickle ∧ (State.mailboxIrq s sl).cmd = s.cmd ∧
    (State.mailboxIrq s sl).zon = s.zon ∧ (State.mailboxIrq s sl).med = s.med ∧ (State.mailboxIrq s sl).mlf = s.mlf ∧
    (State.mailboxIrq s sl).cpx = s.cpx ∧ (State.mailboxIrq s sl).wvf = s.wvf ∧ (State.mailboxIrq s sl).bpm = s.bpm ∧
    (State.mailboxIrq s sl).sec = s.sec ∧ (State.mailboxIrq s sl).mic = s.mic ∧ (State.mailboxIrq s sl).flt = s.flt ∧
    (State.mailboxIrq s sl).ctrs = s.ctrs ∧ (State.mailboxIrq s sl).grps = s.grps ∧ (State.mailboxIrq s sl).pwr = s.pwr ∧
    (State.mailboxIrq s sl).thm = s.thm ∧ (State.mailboxIrq s sl).age = s.age ∧ (State.mailboxIrq s sl).cnv = s.cnv ∧
    (State.mailboxIrq s sl).fwu = s.fwu ∧ (State.mailboxIrq s sl).glb = s.glb ∧ (State.mailboxIrq s sl).sb = s.sb := by
  have w1 := @State.managerIrq_still; have w2 := @State.sendIrq_still; have wi := @ite_parts
  simp [State.mailboxIrq, w1, w2, wi]
theorem State.deliver_still (s : State) (sl : Nat) (m : MbMsg) :
    (State.deliver s sl m).pending = s.pending ∧ (State.deliver s sl m).free = s.free ∧ (State.deliver s sl m).epoch = s.epoch ∧
    (State.deliver s sl m).pat = s.pat ∧ (State.deliver s sl m).isl = s.isl ∧ (State.deliver s sl m).routes = s.routes ∧
    (State.deliver s sl m).dramMargin = s.dramMargin ∧ (State.deliver s sl m).trickle = s.trickle ∧ (State.deliver s sl m).cmd = s.cmd ∧
    (State.deliver s sl m).zon = s.zon ∧ (State.deliver s sl m).med = s.med ∧ (State.deliver s sl m).mlf = s.mlf ∧
    (State.deliver s sl m).cpx = s.cpx ∧ (State.deliver s sl m).wvf = s.wvf ∧ (State.deliver s sl m).bpm = s.bpm ∧
    (State.deliver s sl m).sec = s.sec ∧ (State.deliver s sl m).mic = s.mic ∧ (State.deliver s sl m).flt = s.flt ∧
    (State.deliver s sl m).ctrs = s.ctrs ∧ (State.deliver s sl m).grps = s.grps ∧ (State.deliver s sl m).pwr = s.pwr ∧
    (State.deliver s sl m).thm = s.thm ∧ (State.deliver s sl m).age = s.age ∧ (State.deliver s sl m).cnv = s.cnv ∧
    (State.deliver s sl m).fwu = s.fwu ∧ (State.deliver s sl m).glb = s.glb ∧ (State.deliver s sl m).sb = s.sb := by
  have w1 := @State.mailboxIrq_still; have w2 := @State.setSli_still
  unfold State.deliver; dsimp only; repeat' split
  all_goals simp [*]
theorem State.mbReply_still (s : State) (sl : Nat) (m : MbMsg) (status : Nat) (payload : List Byte) :
    (State.mbReply s sl m status payload).pending = s.pending ∧ (State.mbReply s sl m status payload).free = s.free ∧
    (State.mbReply s sl m status payload).epoch = s.epoch ∧ (State.mbReply s sl m status payload).pat = s.pat ∧
    (State.mbReply s sl m status payload).isl = s.isl ∧ (State.mbReply s sl m status payload).routes = s.routes ∧
    (State.mbReply s sl m status payload).dramMargin = s.dramMargin ∧ (State.mbReply s sl m status payload).trickle = s.trickle ∧
    (State.mbReply s sl m status payload).cmd = s.cmd ∧ (State.mbReply s sl m status payload).zon = s.zon ∧
    (State.mbReply s sl m status payload).med = s.med ∧ (State.mbReply s sl m status payload).mlf = s.mlf ∧
    (State.mbReply s sl m status payload).cpx = s.cpx ∧ (State.mbReply s sl m status payload).wvf = s.wvf ∧
    (State.mbReply s sl m status payload).bpm = s.bpm ∧ (State.mbReply s sl m status payload).sec = s.sec ∧
    (State.mbReply s sl m status payload).mic = s.mic ∧ (State.mbReply s sl m status payload).flt = s.flt ∧
    (State.mbReply s sl m status payload).ctrs = s.ctrs ∧ (State.mbReply s sl m status payload).grps = s.grps ∧
    (State.mbReply s sl m status payload).pwr = s.pwr ∧ (State.mbReply s sl m status payload).thm = s.thm ∧
    (State.mbReply s sl m status payload).age = s.age ∧ (State.mbReply s sl m status payload).cnv = s.cnv ∧
    (State.mbReply s sl m status payload).fwu = s.fwu ∧ (State.mbReply s sl m status payload).glb = s.glb ∧
    (State.mbReply s sl m status payload).sb = s.sb := by
  have w1 := @State.deliver_still
  simp [State.mbReply, w1]
theorem State.mbNote_still (s : State) (sl typ : Nat) (payload : List Byte) :
    (State.mbNote s sl typ payload).pending = s.pending ∧ (State.mbNote s sl typ payload).free = s.free ∧
    (State.mbNote s sl typ payload).epoch = s.epoch ∧ (State.mbNote s sl typ payload).pat = s.pat ∧
    (State.mbNote s sl typ payload).isl = s.isl ∧ (State.mbNote s sl typ payload).routes = s.routes ∧
    (State.mbNote s sl typ payload).dramMargin = s.dramMargin ∧ (State.mbNote s sl typ payload).trickle = s.trickle ∧
    (State.mbNote s sl typ payload).cmd = s.cmd ∧ (State.mbNote s sl typ payload).zon = s.zon ∧
    (State.mbNote s sl typ payload).med = s.med ∧ (State.mbNote s sl typ payload).mlf = s.mlf ∧
    (State.mbNote s sl typ payload).cpx = s.cpx ∧ (State.mbNote s sl typ payload).wvf = s.wvf ∧
    (State.mbNote s sl typ payload).bpm = s.bpm ∧ (State.mbNote s sl typ payload).sec = s.sec ∧
    (State.mbNote s sl typ payload).mic = s.mic ∧ (State.mbNote s sl typ payload).flt = s.flt ∧
    (State.mbNote s sl typ payload).ctrs = s.ctrs ∧ (State.mbNote s sl typ payload).grps = s.grps ∧
    (State.mbNote s sl typ payload).pwr = s.pwr ∧ (State.mbNote s sl typ payload).thm = s.thm ∧
    (State.mbNote s sl typ payload).age = s.age ∧ (State.mbNote s sl typ payload).cnv = s.cnv ∧
    (State.mbNote s sl typ payload).fwu = s.fwu ∧ (State.mbNote s sl typ payload).glb = s.glb ∧ (State.mbNote s sl typ payload).sb = s.sb := by
  have w1 := @State.deliver_still
  simp [State.mbNote, w1]
theorem State.endSessions_still (s : State) (p : Session → Bool) :
    (State.endSessions s p).pending = s.pending ∧ (State.endSessions s p).free = s.free ∧ (State.endSessions s p).host = s.host ∧
    (State.endSessions s p).epoch = s.epoch ∧ (State.endSessions s p).pat = s.pat ∧ (State.endSessions s p).isl = s.isl ∧
    (State.endSessions s p).routes = s.routes ∧ (State.endSessions s p).dramMargin = s.dramMargin ∧
    (State.endSessions s p).ports = s.ports ∧ (State.endSessions s p).trickle = s.trickle ∧ (State.endSessions s p).cmd = s.cmd ∧
    (State.endSessions s p).zon = s.zon ∧ (State.endSessions s p).med = s.med ∧ (State.endSessions s p).mlf = s.mlf ∧
    (State.endSessions s p).cpx = s.cpx ∧ (State.endSessions s p).wvf = s.wvf ∧ (State.endSessions s p).bpm = s.bpm ∧
    (State.endSessions s p).sli = s.sli ∧ (State.endSessions s p).mic = s.mic ∧ (State.endSessions s p).flt = s.flt ∧
    (State.endSessions s p).ctrs = s.ctrs ∧ (State.endSessions s p).grps = s.grps ∧ (State.endSessions s p).pwr = s.pwr ∧
    (State.endSessions s p).thm = s.thm ∧ (State.endSessions s p).age = s.age ∧ (State.endSessions s p).cnv = s.cnv ∧
    (State.endSessions s p).fwu = s.fwu ∧ (State.endSessions s p).glb = s.glb ∧ (State.endSessions s p).sb = s.sb := by
  simp [State.endSessions]
theorem State.setKeySlot_still (s : State) (k : Nat) (v : KeySlot) :
    (State.setKeySlot s k v).pending = s.pending ∧ (State.setKeySlot s k v).free = s.free ∧ (State.setKeySlot s k v).host = s.host ∧
    (State.setKeySlot s k v).epoch = s.epoch ∧ (State.setKeySlot s k v).pat = s.pat ∧ (State.setKeySlot s k v).isl = s.isl ∧
    (State.setKeySlot s k v).routes = s.routes ∧ (State.setKeySlot s k v).dramMargin = s.dramMargin ∧
    (State.setKeySlot s k v).ports = s.ports ∧ (State.setKeySlot s k v).trickle = s.trickle ∧ (State.setKeySlot s k v).cmd = s.cmd ∧
    (State.setKeySlot s k v).zon = s.zon ∧ (State.setKeySlot s k v).med = s.med ∧ (State.setKeySlot s k v).mlf = s.mlf ∧
    (State.setKeySlot s k v).cpx = s.cpx ∧ (State.setKeySlot s k v).wvf = s.wvf ∧ (State.setKeySlot s k v).bpm = s.bpm ∧
    (State.setKeySlot s k v).sli = s.sli ∧ (State.setKeySlot s k v).mic = s.mic ∧ (State.setKeySlot s k v).flt = s.flt ∧
    (State.setKeySlot s k v).ctrs = s.ctrs ∧ (State.setKeySlot s k v).grps = s.grps ∧ (State.setKeySlot s k v).pwr = s.pwr ∧
    (State.setKeySlot s k v).thm = s.thm ∧ (State.setKeySlot s k v).age = s.age ∧ (State.setKeySlot s k v).cnv = s.cnv ∧
    (State.setKeySlot s k v).fwu = s.fwu ∧ (State.setKeySlot s k v).glb = s.glb ∧ (State.setKeySlot s k v).sb = s.sb := by
  simp [State.setKeySlot]
theorem State.changeKey_still (s : State) (k : Nat) (v : List Byte) :
    (State.changeKey s k v).pending = s.pending ∧ (State.changeKey s k v).free = s.free ∧ (State.changeKey s k v).host = s.host ∧
    (State.changeKey s k v).epoch = s.epoch ∧ (State.changeKey s k v).pat = s.pat ∧ (State.changeKey s k v).isl = s.isl ∧
    (State.changeKey s k v).routes = s.routes ∧ (State.changeKey s k v).dramMargin = s.dramMargin ∧
    (State.changeKey s k v).ports = s.ports ∧ (State.changeKey s k v).trickle = s.trickle ∧ (State.changeKey s k v).cmd = s.cmd ∧
    (State.changeKey s k v).zon = s.zon ∧ (State.changeKey s k v).med = s.med ∧ (State.changeKey s k v).mlf = s.mlf ∧
    (State.changeKey s k v).cpx = s.cpx ∧ (State.changeKey s k v).wvf = s.wvf ∧ (State.changeKey s k v).bpm = s.bpm ∧
    (State.changeKey s k v).sli = s.sli ∧ (State.changeKey s k v).mic = s.mic ∧ (State.changeKey s k v).flt = s.flt ∧
    (State.changeKey s k v).ctrs = s.ctrs ∧ (State.changeKey s k v).grps = s.grps ∧ (State.changeKey s k v).pwr = s.pwr ∧
    (State.changeKey s k v).thm = s.thm ∧ (State.changeKey s k v).age = s.age ∧ (State.changeKey s k v).cnv = s.cnv ∧
    (State.changeKey s k v).fwu = s.fwu ∧ (State.changeKey s k v).glb = s.glb ∧ (State.changeKey s k v).sb = s.sb := by
  have w1 := @State.setKeySlot_still; have w2 := @State.endSessions_still
  simp [State.changeKey, w1, w2]
theorem State.forget_still (s : State) (c : Nat) :
    (State.forget s c).pending = s.pending ∧ (State.forget s c).free = s.free ∧ (State.forget s c).host = s.host ∧
    (State.forget s c).epoch = s.epoch ∧ (State.forget s c).isl = s.isl ∧ (State.forget s c).routes = s.routes ∧
    (State.forget s c).dramMargin = s.dramMargin ∧ (State.forget s c).ports = s.ports ∧ (State.forget s c).trickle = s.trickle ∧
    (State.forget s c).med = s.med ∧ (State.forget s c).mlf = s.mlf ∧ (State.forget s c).wvf = s.wvf ∧ (State.forget s c).bpm = s.bpm ∧
    (State.forget s c).sec = s.sec ∧ (State.forget s c).mic = s.mic ∧ (State.forget s c).flt = s.flt ∧ (State.forget s c).ctrs = s.ctrs ∧
    (State.forget s c).grps = s.grps ∧ (State.forget s c).pwr = s.pwr ∧ (State.forget s c).thm = s.thm ∧ (State.forget s c).age = s.age ∧
    (State.forget s c).cnv = s.cnv ∧ (State.forget s c).glb = s.glb ∧ (State.forget s c).sb = s.sb := by
  simp [State.forget]
theorem State.entryBack_still (s : State) (e : PsEntry) :
    (State.entryBack s e).pending = s.pending ∧ (State.entryBack s e).free = s.free ∧ (State.entryBack s e).host = s.host ∧
    (State.entryBack s e).epoch = s.epoch ∧ (State.entryBack s e).pat = s.pat ∧ (State.entryBack s e).routes = s.routes ∧
    (State.entryBack s e).dramMargin = s.dramMargin ∧ (State.entryBack s e).ports = s.ports ∧ (State.entryBack s e).trickle = s.trickle ∧
    (State.entryBack s e).zon = s.zon ∧ (State.entryBack s e).med = s.med ∧ (State.entryBack s e).mlf = s.mlf ∧
    (State.entryBack s e).cpx = s.cpx ∧ (State.entryBack s e).wvf = s.wvf ∧ (State.entryBack s e).bpm = s.bpm ∧
    (State.entryBack s e).sli = s.sli ∧ (State.entryBack s e).sec = s.sec ∧ (State.entryBack s e).mic = s.mic ∧
    (State.entryBack s e).flt = s.flt ∧ (State.entryBack s e).ctrs = s.ctrs ∧ (State.entryBack s e).grps = s.grps ∧
    (State.entryBack s e).thm = s.thm ∧ (State.entryBack s e).age = s.age ∧ (State.entryBack s e).cnv = s.cnv ∧
    (State.entryBack s e).fwu = s.fwu ∧ (State.entryBack s e).glb = s.glb ∧ (State.entryBack s e).sb = s.sb := by
  have w1 := @State.modCtrl_still; have w2 := @State.liftFloors_still
  simp [State.entryBack, w1, w2]
theorem State.dropWaiter_still (s : State) (c : Nat) :
    (State.dropWaiter s c).pending = s.pending ∧ (State.dropWaiter s c).free = s.free ∧ (State.dropWaiter s c).host = s.host ∧
    (State.dropWaiter s c).epoch = s.epoch ∧ (State.dropWaiter s c).routes = s.routes ∧ (State.dropWaiter s c).dramMargin = s.dramMargin ∧
    (State.dropWaiter s c).ports = s.ports ∧ (State.dropWaiter s c).trickle = s.trickle ∧ (State.dropWaiter s c).med = s.med ∧
    (State.dropWaiter s c).mlf = s.mlf ∧ (State.dropWaiter s c).wvf = s.wvf ∧ (State.dropWaiter s c).bpm = s.bpm ∧
    (State.dropWaiter s c).sec = s.sec ∧ (State.dropWaiter s c).mic = s.mic ∧ (State.dropWaiter s c).flt = s.flt ∧
    (State.dropWaiter s c).ctrs = s.ctrs ∧ (State.dropWaiter s c).grps = s.grps ∧ (State.dropWaiter s c).thm = s.thm ∧
    (State.dropWaiter s c).age = s.age ∧ (State.dropWaiter s c).cnv = s.cnv ∧ (State.dropWaiter s c).glb = s.glb ∧
    (State.dropWaiter s c).sb = s.sb := by
  have w1 := @State.forget_still; have w2 := @State.entryBack_still; have wi := @ite_parts
  unfold State.dropWaiter; repeat' split
  all_goals simp [*]
theorem State.dropKeySlot_still (s : State) (n : Nat) :
    (State.dropKeySlot s n).pending = s.pending ∧ (State.dropKeySlot s n).free = s.free ∧ (State.dropKeySlot s n).host = s.host ∧
    (State.dropKeySlot s n).epoch = s.epoch ∧ (State.dropKeySlot s n).pat = s.pat ∧ (State.dropKeySlot s n).isl = s.isl ∧
    (State.dropKeySlot s n).routes = s.routes ∧ (State.dropKeySlot s n).dramMargin = s.dramMargin ∧
    (State.dropKeySlot s n).ports = s.ports ∧ (State.dropKeySlot s n).trickle = s.trickle ∧ (State.dropKeySlot s n).cmd = s.cmd ∧
    (State.dropKeySlot s n).zon = s.zon ∧ (State.dropKeySlot s n).med = s.med ∧ (State.dropKeySlot s n).mlf = s.mlf ∧
    (State.dropKeySlot s n).cpx = s.cpx ∧ (State.dropKeySlot s n).wvf = s.wvf ∧ (State.dropKeySlot s n).bpm = s.bpm ∧
    (State.dropKeySlot s n).sli = s.sli ∧ (State.dropKeySlot s n).mic = s.mic ∧ (State.dropKeySlot s n).flt = s.flt ∧
    (State.dropKeySlot s n).ctrs = s.ctrs ∧ (State.dropKeySlot s n).grps = s.grps ∧ (State.dropKeySlot s n).pwr = s.pwr ∧
    (State.dropKeySlot s n).thm = s.thm ∧ (State.dropKeySlot s n).age = s.age ∧ (State.dropKeySlot s n).cnv = s.cnv ∧
    (State.dropKeySlot s n).fwu = s.fwu ∧ (State.dropKeySlot s n).glb = s.glb ∧ (State.dropKeySlot s n).sb = s.sb := by
  have wi := @ite_parts
  simp [State.dropKeySlot, wi]
theorem State.dropNsRows_still (s : State) (n : Nat) :
    (State.dropNsRows s n).pending = s.pending ∧ (State.dropNsRows s n).free = s.free ∧ (State.dropNsRows s n).host = s.host ∧
    (State.dropNsRows s n).epoch = s.epoch ∧ (State.dropNsRows s n).pat = s.pat ∧ (State.dropNsRows s n).isl = s.isl ∧
    (State.dropNsRows s n).routes = s.routes ∧ (State.dropNsRows s n).dramMargin = s.dramMargin ∧ (State.dropNsRows s n).ports = s.ports ∧
    (State.dropNsRows s n).trickle = s.trickle ∧ (State.dropNsRows s n).cmd = s.cmd ∧ (State.dropNsRows s n).zon = s.zon ∧
    (State.dropNsRows s n).mlf = s.mlf ∧ (State.dropNsRows s n).cpx = s.cpx ∧ (State.dropNsRows s n).wvf = s.wvf ∧
    (State.dropNsRows s n).bpm = s.bpm ∧ (State.dropNsRows s n).sli = s.sli ∧ (State.dropNsRows s n).sec = s.sec ∧
    (State.dropNsRows s n).mic = s.mic ∧ (State.dropNsRows s n).flt = s.flt ∧ (State.dropNsRows s n).ctrs = s.ctrs ∧
    (State.dropNsRows s n).grps = s.grps ∧ (State.dropNsRows s n).pwr = s.pwr ∧ (State.dropNsRows s n).thm = s.thm ∧
    (State.dropNsRows s n).age = s.age ∧ (State.dropNsRows s n).cnv = s.cnv ∧ (State.dropNsRows s n).fwu = s.fwu ∧
    (State.dropNsRows s n).glb = s.glb ∧ (State.dropNsRows s n).sb = s.sb := by
  have w1 := @State.returnRows_still; have wf := @foldl_parts
  simp [State.dropNsRows, w1, wf]
theorem State.dropNsRelocs_still (s : State) (n : Nat) :
    (State.dropNsRelocs s n).pending = s.pending ∧ (State.dropNsRelocs s n).free = s.free ∧ (State.dropNsRelocs s n).host = s.host ∧
    (State.dropNsRelocs s n).epoch = s.epoch ∧ (State.dropNsRelocs s n).pat = s.pat ∧ (State.dropNsRelocs s n).isl = s.isl ∧
    (State.dropNsRelocs s n).routes = s.routes ∧ (State.dropNsRelocs s n).dramMargin = s.dramMargin ∧
    (State.dropNsRelocs s n).ports = s.ports ∧ (State.dropNsRelocs s n).trickle = s.trickle ∧ (State.dropNsRelocs s n).cmd = s.cmd ∧
    (State.dropNsRelocs s n).zon = s.zon ∧ (State.dropNsRelocs s n).cpx = s.cpx ∧ (State.dropNsRelocs s n).wvf = s.wvf ∧
    (State.dropNsRelocs s n).bpm = s.bpm ∧ (State.dropNsRelocs s n).sli = s.sli ∧ (State.dropNsRelocs s n).sec = s.sec ∧
    (State.dropNsRelocs s n).mic = s.mic ∧ (State.dropNsRelocs s n).flt = s.flt ∧ (State.dropNsRelocs s n).ctrs = s.ctrs ∧
    (State.dropNsRelocs s n).grps = s.grps ∧ (State.dropNsRelocs s n).pwr = s.pwr ∧ (State.dropNsRelocs s n).thm = s.thm ∧
    (State.dropNsRelocs s n).age = s.age ∧ (State.dropNsRelocs s n).cnv = s.cnv ∧ (State.dropNsRelocs s n).fwu = s.fwu ∧
    (State.dropNsRelocs s n).glb = s.glb ∧ (State.dropNsRelocs s n).sb = s.sb := by
  have w1 := @State.relocCancel_still; have wf := @foldl_parts
  simp [State.dropNsRelocs, w1, wf]
theorem State.deleteNs_still (s : State) (n : Nat) :
    (State.deleteNs s n).pending = s.pending ∧ (State.deleteNs s n).free = s.free ∧ (State.deleteNs s n).host = s.host ∧
    (State.deleteNs s n).epoch = s.epoch ∧ (State.deleteNs s n).pat = s.pat ∧ (State.deleteNs s n).isl = s.isl ∧
    (State.deleteNs s n).routes = s.routes ∧ (State.deleteNs s n).dramMargin = s.dramMargin ∧ (State.deleteNs s n).ports = s.ports ∧
    (State.deleteNs s n).trickle = s.trickle ∧ (State.deleteNs s n).cpx = s.cpx ∧ (State.deleteNs s n).wvf = s.wvf ∧
    (State.deleteNs s n).bpm = s.bpm ∧ (State.deleteNs s n).mic = s.mic ∧ (State.deleteNs s n).flt = s.flt ∧
    (State.deleteNs s n).ctrs = s.ctrs ∧ (State.deleteNs s n).grps = s.grps ∧ (State.deleteNs s n).pwr = s.pwr ∧
    (State.deleteNs s n).thm = s.thm ∧ (State.deleteNs s n).age = s.age ∧ (State.deleteNs s n).cnv = s.cnv ∧
    (State.deleteNs s n).fwu = s.fwu ∧ (State.deleteNs s n).glb = s.glb ∧ (State.deleteNs s n).sb = s.sb := by
  have w1 := @State.dropNsRelocs_still; have w2 := @State.dropKeySlot_still; have w3 := @State.dropNsRows_still
  have w4 := @State.cometCancel_still; have w5 := @State.noteNs_still
  simp [State.deleteNs, w1, w2, w3, w4, w5]
theorem State.resetCommit_still (s : State) (c : Nat) :
    (State.resetCommit s c).pending = s.pending ∧ (State.resetCommit s c).epoch = s.epoch ∧ (State.resetCommit s c).pat = s.pat ∧
    (State.resetCommit s c).dramMargin = s.dramMargin ∧ (State.resetCommit s c).ports = s.ports ∧
    (State.resetCommit s c).trickle = s.trickle ∧ (State.resetCommit s c).sec = s.sec ∧ (State.resetCommit s c).ctrs = s.ctrs ∧
    (State.resetCommit s c).grps = s.grps ∧ (State.resetCommit s c).thm = s.thm ∧ (State.resetCommit s c).age = s.age ∧
    (State.resetCommit s c).cnv = s.cnv ∧ (State.resetCommit s c).fwu = s.fwu ∧ (State.resetCommit s c).glb = s.glb := by
  have w1 := @State.commitWrite_still; have w2 := @State.fix_still; have w3 := @State.freeCtx_still
  have w4 := @State.setCtx_still; have wi := @ite_parts
  simp [State.resetCommit, w1, w2, w3, w4, wi]
theorem State.resetSquash_still (s : State) (c : Nat) :
    (State.resetSquash s c).pending = s.pending ∧ (State.resetSquash s c).host = s.host ∧ (State.resetSquash s c).epoch = s.epoch ∧
    (State.resetSquash s c).dramMargin = s.dramMargin ∧ (State.resetSquash s c).ports = s.ports ∧
    (State.resetSquash s c).trickle = s.trickle ∧ (State.resetSquash s c).mlf = s.mlf ∧ (State.resetSquash s c).sec = s.sec ∧
    (State.resetSquash s c).ctrs = s.ctrs ∧ (State.resetSquash s c).grps = s.grps ∧ (State.resetSquash s c).thm = s.thm ∧
    (State.resetSquash s c).age = s.age ∧ (State.resetSquash s c).cnv = s.cnv ∧ (State.resetSquash s c).glb = s.glb ∧
    (State.resetSquash s c).sb = s.sb := by
  have w1 := @State.dropWaiter_still; have w2 := @State.squashReset_still
  simp [State.resetSquash, w1, w2]
theorem State.resetCtxs_still (s : State) (l : List Nat) :
    (State.resetCtxs s l).pending = s.pending ∧ (State.resetCtxs s l).epoch = s.epoch ∧ (State.resetCtxs s l).dramMargin = s.dramMargin ∧
    (State.resetCtxs s l).ports = s.ports ∧ (State.resetCtxs s l).trickle = s.trickle ∧ (State.resetCtxs s l).sec = s.sec ∧
    (State.resetCtxs s l).ctrs = s.ctrs ∧ (State.resetCtxs s l).grps = s.grps ∧ (State.resetCtxs s l).thm = s.thm ∧
    (State.resetCtxs s l).age = s.age ∧ (State.resetCtxs s l).cnv = s.cnv ∧ (State.resetCtxs s l).glb = s.glb := by
  have w1 := @State.dropWaiter_still; have w2 := @State.freeCtx_still; have w3 := @State.resetSquash_still
  have w4 := @State.resetCommit_still; have w5 := @State.ownProgressAll_still; have wf := @foldl_parts
  have wi := @ite_parts
  simp [State.resetCtxs, w1, w2, w3, w4, w5, wf, wi]
theorem State.closeZonesOf_still (s : State) (sl : Nat) :
    (State.closeZonesOf s sl).pending = s.pending ∧ (State.closeZonesOf s sl).free = s.free ∧ (State.closeZonesOf s sl).host = s.host ∧
    (State.closeZonesOf s sl).epoch = s.epoch ∧ (State.closeZonesOf s sl).pat = s.pat ∧ (State.closeZonesOf s sl).isl = s.isl ∧
    (State.closeZonesOf s sl).routes = s.routes ∧ (State.closeZonesOf s sl).dramMargin = s.dramMargin ∧
    (State.closeZonesOf s sl).ports = s.ports ∧ (State.closeZonesOf s sl).trickle = s.trickle ∧ (State.closeZonesOf s sl).cmd = s.cmd ∧
    (State.closeZonesOf s sl).med = s.med ∧ (State.closeZonesOf s sl).mlf = s.mlf ∧ (State.closeZonesOf s sl).cpx = s.cpx ∧
    (State.closeZonesOf s sl).wvf = s.wvf ∧ (State.closeZonesOf s sl).bpm = s.bpm ∧ (State.closeZonesOf s sl).sli = s.sli ∧
    (State.closeZonesOf s sl).sec = s.sec ∧ (State.closeZonesOf s sl).mic = s.mic ∧ (State.closeZonesOf s sl).flt = s.flt ∧
    (State.closeZonesOf s sl).ctrs = s.ctrs ∧ (State.closeZonesOf s sl).grps = s.grps ∧ (State.closeZonesOf s sl).pwr = s.pwr ∧
    (State.closeZonesOf s sl).thm = s.thm ∧ (State.closeZonesOf s sl).age = s.age ∧ (State.closeZonesOf s sl).cnv = s.cnv ∧
    (State.closeZonesOf s sl).fwu = s.fwu ∧ (State.closeZonesOf s sl).glb = s.glb ∧ (State.closeZonesOf s sl).sb = s.sb := by
  have w1 := @State.setZent_still; have w2 := @State.delProj_still; have w3 := @State.setProj_still; have wf := @foldl_parts
  have wi := @ite_parts
  simp [State.closeZonesOf, w1, w2, w3, wf, wi]
theorem State.dropStale_still (s : State) (c : Nat) :
    (State.dropStale s c).pending = s.pending ∧ (State.dropStale s c).free = s.free ∧ (State.dropStale s c).host = s.host ∧
    (State.dropStale s c).epoch = s.epoch ∧ (State.dropStale s c).pat = s.pat ∧ (State.dropStale s c).isl = s.isl ∧
    (State.dropStale s c).routes = s.routes ∧ (State.dropStale s c).dramMargin = s.dramMargin ∧ (State.dropStale s c).ports = s.ports ∧
    (State.dropStale s c).trickle = s.trickle ∧ (State.dropStale s c).cmd = s.cmd ∧ (State.dropStale s c).zon = s.zon ∧
    (State.dropStale s c).med = s.med ∧ (State.dropStale s c).mlf = s.mlf ∧ (State.dropStale s c).cpx = s.cpx ∧
    (State.dropStale s c).wvf = s.wvf ∧ (State.dropStale s c).bpm = s.bpm ∧ (State.dropStale s c).sec = s.sec ∧
    (State.dropStale s c).mic = s.mic ∧ (State.dropStale s c).flt = s.flt ∧ (State.dropStale s c).ctrs = s.ctrs ∧
    (State.dropStale s c).grps = s.grps ∧ (State.dropStale s c).pwr = s.pwr ∧ (State.dropStale s c).thm = s.thm ∧
    (State.dropStale s c).age = s.age ∧ (State.dropStale s c).cnv = s.cnv ∧ (State.dropStale s c).fwu = s.fwu ∧
    (State.dropStale s c).glb = s.glb ∧ (State.dropStale s c).sb = s.sb := by
  have w1 := @State.modSli_still
  unfold State.dropStale; repeat' split
  all_goals simp [*]
theorem State.endHalts_still (s : State) (sl port : Nat) :
    (State.endHalts s sl port).pending = s.pending ∧ (State.endHalts s sl port).free = s.free ∧ (State.endHalts s sl port).host = s.host ∧
    (State.endHalts s sl port).epoch = s.epoch ∧ (State.endHalts s sl port).pat = s.pat ∧ (State.endHalts s sl port).isl = s.isl ∧
    (State.endHalts s sl port).routes = s.routes ∧ (State.endHalts s sl port).dramMargin = s.dramMargin ∧
    (State.endHalts s sl port).ports = s.ports ∧ (State.endHalts s sl port).trickle = s.trickle ∧ (State.endHalts s sl port).zon = s.zon ∧
    (State.endHalts s sl port).med = s.med ∧ (State.endHalts s sl port).mlf = s.mlf ∧ (State.endHalts s sl port).cpx = s.cpx ∧
    (State.endHalts s sl port).wvf = s.wvf ∧ (State.endHalts s sl port).bpm = s.bpm ∧ (State.endHalts s sl port).sli = s.sli ∧
    (State.endHalts s sl port).sec = s.sec ∧ (State.endHalts s sl port).mic = s.mic ∧ (State.endHalts s sl port).flt = s.flt ∧
    (State.endHalts s sl port).ctrs = s.ctrs ∧ (State.endHalts s sl port).grps = s.grps ∧ (State.endHalts s sl port).pwr = s.pwr ∧
    (State.endHalts s sl port).thm = s.thm ∧ (State.endHalts s sl port).age = s.age ∧ (State.endHalts s sl port).cnv = s.cnv ∧
    (State.endHalts s sl port).fwu = s.fwu ∧ (State.endHalts s sl port).glb = s.glb ∧ (State.endHalts s sl port).sb = s.sb := by
  simp [State.endHalts]
theorem State.resetOne_still (s : State) (sl port : Nat) (isSlice : Bool) (w : Option Waiter) :
    (State.resetOne s sl port isSlice w).pending = s.pending ∧ (State.resetOne s sl port isSlice w).epoch = s.epoch ∧
    (State.resetOne s sl port isSlice w).dramMargin = s.dramMargin ∧ (State.resetOne s sl port isSlice w).ports = s.ports ∧
    (State.resetOne s sl port isSlice w).trickle = s.trickle ∧ (State.resetOne s sl port isSlice w).sec = s.sec ∧
    (State.resetOne s sl port isSlice w).ctrs = s.ctrs ∧ (State.resetOne s sl port isSlice w).grps = s.grps ∧
    (State.resetOne s sl port isSlice w).thm = s.thm ∧ (State.resetOne s sl port isSlice w).age = s.age ∧
    (State.resetOne s sl port isSlice w).cnv = s.cnv ∧ (State.resetOne s sl port isSlice w).glb = s.glb := by
  have w1 := @State.setSli_still; have w2 := @State.modCtrl_still; have w3 := @State.resetCtxs_still
  have w4 := @State.closeZonesOf_still; have w5 := @State.endHalts_still; have w6 := @State.modSli_still; have wi := @ite_parts
  simp [State.resetOne, w1, w2, w3, w4, w5, w6, wi]
theorem State.resetAll_still (s : State) :
    (State.resetAll s).pending = s.pending ∧ (State.resetAll s).epoch = s.epoch ∧ (State.resetAll s).dramMargin = s.dramMargin ∧
    (State.resetAll s).ports = s.ports ∧ (State.resetAll s).trickle = s.trickle ∧ (State.resetAll s).sec = s.sec ∧
    (State.resetAll s).ctrs = s.ctrs ∧ (State.resetAll s).grps = s.grps ∧ (State.resetAll s).thm = s.thm ∧ (State.resetAll s).age = s.age ∧
    (State.resetAll s).cnv = s.cnv ∧ (State.resetAll s).glb = s.glb := by
  have w1 := @State.resetOne_still; have wf := @foldl_parts; have wi := @ite_parts
  simp [State.resetAll, w1, wf, wi]
theorem State.activateReset_still (s : State) (i : Nat) :
    (State.activateReset s i).pending = s.pending ∧ (State.activateReset s i).epoch = s.epoch ∧
    (State.activateReset s i).dramMargin = s.dramMargin ∧ (State.activateReset s i).ports = s.ports ∧
    (State.activateReset s i).trickle = s.trickle ∧ (State.activateReset s i).sec = s.sec ∧ (State.activateReset s i).ctrs = s.ctrs ∧
    (State.activateReset s i).grps = s.grps ∧ (State.activateReset s i).thm = s.thm ∧ (State.activateReset s i).age = s.age ∧
    (State.activateReset s i).cnv = s.cnv ∧ (State.activateReset s i).glb = s.glb := by
  have w1 := @State.runImage_still; have w2 := @State.resetAll_still
  simp [State.activateReset, w1, w2]
theorem State.startReset_still (s : State) (sl port : Nat) (isSlice : Bool) (w : Option Waiter) :
    (State.startReset s sl port isSlice w).pending = s.pending ∧ (State.startReset s sl port isSlice w).epoch = s.epoch ∧
    (State.startReset s sl port isSlice w).dramMargin = s.dramMargin ∧ (State.startReset s sl port isSlice w).ports = s.ports ∧
    (State.startReset s sl port isSlice w).trickle = s.trickle ∧ (State.startReset s sl port isSlice w).sec = s.sec ∧
    (State.startReset s sl port isSlice w).ctrs = s.ctrs ∧ (State.startReset s sl port isSlice w).grps = s.grps ∧
    (State.startReset s sl port isSlice w).thm = s.thm ∧ (State.startReset s sl port isSlice w).age = s.age ∧
    (State.startReset s sl port isSlice w).cnv = s.cnv ∧ (State.startReset s sl port isSlice w).glb = s.glb := by
  have w1 := @State.activateReset_still; have w2 := @State.resetOne_still
  unfold State.startReset; repeat' split
  all_goals simp [*]
theorem State.freeSliceMem_still (s : State) (sl : Nat) :
    (State.freeSliceMem s sl).pending = s.pending ∧ (State.freeSliceMem s sl).free = s.free ∧ (State.freeSliceMem s sl).host = s.host ∧
    (State.freeSliceMem s sl).epoch = s.epoch ∧ (State.freeSliceMem s sl).pat = s.pat ∧ (State.freeSliceMem s sl).isl = s.isl ∧
    (State.freeSliceMem s sl).routes = s.routes ∧ (State.freeSliceMem s sl).dramMargin = s.dramMargin ∧
    (State.freeSliceMem s sl).trickle = s.trickle ∧ (State.freeSliceMem s sl).zon = s.zon ∧ (State.freeSliceMem s sl).med = s.med ∧
    (State.freeSliceMem s sl).mlf = s.mlf ∧ (State.freeSliceMem s sl).wvf = s.wvf ∧ (State.freeSliceMem s sl).sli = s.sli ∧
    (State.freeSliceMem s sl).sec = s.sec ∧ (State.freeSliceMem s sl).ctrs = s.ctrs ∧ (State.freeSliceMem s sl).grps = s.grps ∧
    (State.freeSliceMem s sl).pwr = s.pwr ∧ (State.freeSliceMem s sl).thm = s.thm ∧ (State.freeSliceMem s sl).age = s.age ∧
    (State.freeSliceMem s sl).cnv = s.cnv ∧ (State.freeSliceMem s sl).fwu = s.fwu ∧ (State.freeSliceMem s sl).glb = s.glb ∧
    (State.freeSliceMem s sl).sb = s.sb := by
  have w1 := @State.freeAll_still; have wf := @foldl_parts
  simp [State.freeSliceMem, w1, wf]
theorem State.deleteQueues_still (s : State) (sl port : Nat) :
    (State.deleteQueues s sl port).pending = s.pending ∧ (State.deleteQueues s sl port).free = s.free ∧
    (State.deleteQueues s sl port).host = s.host ∧ (State.deleteQueues s sl port).epoch = s.epoch ∧
    (State.deleteQueues s sl port).pat = s.pat ∧ (State.deleteQueues s sl port).isl = s.isl ∧
    (State.deleteQueues s sl port).routes = s.routes ∧ (State.deleteQueues s sl port).dramMargin = s.dramMargin ∧
    (State.deleteQueues s sl port).ports = s.ports ∧ (State.deleteQueues s sl port).trickle = s.trickle ∧
    (State.deleteQueues s sl port).zon = s.zon ∧ (State.deleteQueues s sl port).med = s.med ∧ (State.deleteQueues s sl port).mlf = s.mlf ∧
    (State.deleteQueues s sl port).cpx = s.cpx ∧ (State.deleteQueues s sl port).wvf = s.wvf ∧ (State.deleteQueues s sl port).bpm = s.bpm ∧
    (State.deleteQueues s sl port).sli = s.sli ∧ (State.deleteQueues s sl port).sec = s.sec ∧ (State.deleteQueues s sl port).mic = s.mic ∧
    (State.deleteQueues s sl port).flt = s.flt ∧ (State.deleteQueues s sl port).ctrs = s.ctrs ∧
    (State.deleteQueues s sl port).grps = s.grps ∧ (State.deleteQueues s sl port).pwr = s.pwr ∧
    (State.deleteQueues s sl port).thm = s.thm ∧ (State.deleteQueues s sl port).age = s.age ∧ (State.deleteQueues s sl port).cnv = s.cnv ∧
    (State.deleteQueues s sl port).fwu = s.fwu ∧ (State.deleteQueues s sl port).glb = s.glb ∧ (State.deleteQueues s sl port).sb = s.sb := by
  simp [State.deleteQueues]
theorem State.endResetOne_still (s : State) (sl : Nat) (r : ResetRun) :
    (State.endResetOne s sl r).pending = s.pending ∧ (State.endResetOne s sl r).free = s.free ∧
    (State.endResetOne s sl r).epoch = s.epoch ∧ (State.endResetOne s sl r).pat = s.pat ∧ (State.endResetOne s sl r).isl = s.isl ∧
    (State.endResetOne s sl r).routes = s.routes ∧ (State.endResetOne s sl r).dramMargin = s.dramMargin ∧
    (State.endResetOne s sl r).trickle = s.trickle ∧ (State.endResetOne s sl r).zon = s.zon ∧ (State.endResetOne s sl r).med = s.med ∧
    (State.endResetOne s sl r).mlf = s.mlf ∧ (State.endResetOne s sl r).wvf = s.wvf ∧ (State.endResetOne s sl r).ctrs = s.ctrs ∧
    (State.endResetOne s sl r).grps = s.grps ∧ (State.endResetOne s sl r).pwr = s.pwr ∧ (State.endResetOne s sl r).thm = s.thm ∧
    (State.endResetOne s sl r).age = s.age ∧ (State.endResetOne s sl r).cnv = s.cnv ∧ (State.endResetOne s sl r).fwu = s.fwu ∧
    (State.endResetOne s sl r).glb = s.glb ∧ (State.endResetOne s sl r).sb = s.sb := by
  have w1 := @State.deleteQueues_still; have w2 := @State.setCtrl_still; have w3 := @State.modSli_still
  have w4 := @State.freeSliceMem_still; have w5 := @State.endSessions_still; have w6 := @State.mbNote_still; have wi := @ite_parts
  simp [State.endResetOne, w1, w2, w3, w4, w5, w6, wi]
theorem State.endReset_still (s : State) (sl : Nat) :
    (State.endReset s sl).pending = s.pending ∧ (State.endReset s sl).free = s.free ∧ (State.endReset s sl).epoch = s.epoch ∧
    (State.endReset s sl).pat = s.pat ∧ (State.endReset s sl).isl = s.isl ∧ (State.endReset s sl).routes = s.routes ∧
    (State.endReset s sl).dramMargin = s.dramMargin ∧ (State.endReset s sl).trickle = s.trickle ∧ (State.endReset s sl).zon = s.zon ∧
    (State.endReset s sl).med = s.med ∧ (State.endReset s sl).mlf = s.mlf ∧ (State.endReset s sl).wvf = s.wvf ∧
    (State.endReset s sl).ctrs = s.ctrs ∧ (State.endReset s sl).grps = s.grps ∧ (State.endReset s sl).pwr = s.pwr ∧
    (State.endReset s sl).thm = s.thm ∧ (State.endReset s sl).age = s.age ∧ (State.endReset s sl).cnv = s.cnv ∧
    (State.endReset s sl).fwu = s.fwu ∧ (State.endReset s sl).glb = s.glb ∧ (State.endReset s sl).sb = s.sb := by
  have w1 := @State.endResetOne_still; have wf := @foldl_parts; have wp := @foldl_snd_parts
  simp only [State.endReset]
  all_goals simp [*]
theorem State.answerReset_still (s : State) (w : Option Waiter) (o : Outc) :
    (State.answerReset s w o).pending = s.pending ∧ (State.answerReset s w o).free = s.free ∧ (State.answerReset s w o).epoch = s.epoch ∧
    (State.answerReset s w o).pat = s.pat ∧ (State.answerReset s w o).isl = s.isl ∧ (State.answerReset s w o).routes = s.routes ∧
    (State.answerReset s w o).dramMargin = s.dramMargin ∧ (State.answerReset s w o).ports = s.ports ∧
    (State.answerReset s w o).trickle = s.trickle ∧ (State.answerReset s w o).zon = s.zon ∧ (State.answerReset s w o).med = s.med ∧
    (State.answerReset s w o).mlf = s.mlf ∧ (State.answerReset s w o).cpx = s.cpx ∧ (State.answerReset s w o).wvf = s.wvf ∧
    (State.answerReset s w o).bpm = s.bpm ∧ (State.answerReset s w o).sli = s.sli ∧ (State.answerReset s w o).sec = s.sec ∧
    (State.answerReset s w o).mic = s.mic ∧ (State.answerReset s w o).flt = s.flt ∧ (State.answerReset s w o).ctrs = s.ctrs ∧
    (State.answerReset s w o).grps = s.grps ∧ (State.answerReset s w o).pwr = s.pwr ∧ (State.answerReset s w o).thm = s.thm ∧
    (State.answerReset s w o).age = s.age ∧ (State.answerReset s w o).cnv = s.cnv ∧ (State.answerReset s w o).fwu = s.fwu ∧
    (State.answerReset s w o).glb = s.glb := by
  have w1 := @State.answer_still
  unfold State.answerReset; repeat' split
  all_goals simp [*]
theorem State.resetPort_still (s : State) (p : Nat) :
    (State.resetPort s p).pending = s.pending ∧ (State.resetPort s p).epoch = s.epoch ∧ (State.resetPort s p).dramMargin = s.dramMargin ∧
    (State.resetPort s p).ports = s.ports ∧ (State.resetPort s p).trickle = s.trickle ∧ (State.resetPort s p).sec = s.sec ∧
    (State.resetPort s p).ctrs = s.ctrs ∧ (State.resetPort s p).grps = s.grps ∧ (State.resetPort s p).thm = s.thm ∧
    (State.resetPort s p).age = s.age ∧ (State.resetPort s p).cnv = s.cnv ∧ (State.resetPort s p).glb = s.glb := by
  have w1 := @State.startReset_still; have wf := @foldl_parts
  simp [State.resetPort, w1, wf]
theorem State.linkLost_still (s : State) (p : Nat) :
    (State.linkLost s p).pending = s.pending ∧ (State.linkLost s p).epoch = s.epoch ∧ (State.linkLost s p).dramMargin = s.dramMargin ∧
    (State.linkLost s p).sec = s.sec ∧ (State.linkLost s p).ctrs = s.ctrs ∧ (State.linkLost s p).grps = s.grps ∧
    (State.linkLost s p).thm = s.thm ∧ (State.linkLost s p).age = s.age ∧ (State.linkLost s p).cnv = s.cnv ∧
    (State.linkLost s p).glb = s.glb := by
  have w1 := @State.modPort_still; have w2 := @State.landUnits_still
  have w4 := @State.resetPort_still; have w5 := @State.queueFault_still; have wi := @ite_parts
  simp [State.linkLost, w1, w2, w4, w5, wi]
theorem State.moduleLeaves_still (s : State) (m : Nat) (gone : Bool) :
    (State.moduleLeaves s m gone).pending = s.pending ∧ (State.moduleLeaves s m gone).epoch = s.epoch ∧
    (State.moduleLeaves s m gone).dramMargin = s.dramMargin ∧ (State.moduleLeaves s m gone).sec = s.sec ∧
    (State.moduleLeaves s m gone).ctrs = s.ctrs ∧ (State.moduleLeaves s m gone).grps = s.grps ∧ (State.moduleLeaves s m gone).thm = s.thm ∧
    (State.moduleLeaves s m gone).age = s.age ∧ (State.moduleLeaves s m gone).cnv = s.cnv ∧ (State.moduleLeaves s m gone).glb = s.glb := by
  have w1 := @State.modPort_still; have w2 := @State.setPort_still; have w3 := @State.linkLost_still; have wi := @ite_parts
  simp [State.moduleLeaves, w1, w2, w3, wi]
theorem State.unitEffect_still (s : State) (i u : Nat) :
    (State.unitEffect s i u).pending = s.pending ∧ (State.unitEffect s i u).epoch = s.epoch ∧
    (State.unitEffect s i u).dramMargin = s.dramMargin ∧ (State.unitEffect s i u).sec = s.sec ∧ (State.unitEffect s i u).ctrs = s.ctrs ∧
    (State.unitEffect s i u).grps = s.grps ∧ (State.unitEffect s i u).thm = s.thm ∧ (State.unitEffect s i u).age = s.age ∧
    (State.unitEffect s i u).cnv = s.cnv ∧ (State.unitEffect s i u).glb = s.glb := by
  have w1 := @State.isolateChannel_still; have w2 := @State.islandJobsEnd_still; have w3 := @State.bayLose_still
  have w4 := @State.failJob_still; have w5 := @State.moduleLeaves_still; have wf := @foldl_parts
  have wi := @ite_parts
  simp [State.unitEffect, w1, w2, w3, w4, w5, wf, wi]
theorem State.refusedFor_still (s : State) (c : Nat) :
    (State.refusedFor s c).pending = s.pending ∧ (State.refusedFor s c).host = s.host ∧ (State.refusedFor s c).epoch = s.epoch ∧
    (State.refusedFor s c).pat = s.pat ∧ (State.refusedFor s c).isl = s.isl ∧ (State.refusedFor s c).dramMargin = s.dramMargin ∧
    (State.refusedFor s c).ports = s.ports ∧ (State.refusedFor s c).trickle = s.trickle ∧ (State.refusedFor s c).mlf = s.mlf ∧
    (State.refusedFor s c).sli = s.sli ∧ (State.refusedFor s c).sec = s.sec ∧ (State.refusedFor s c).ctrs = s.ctrs ∧
    (State.refusedFor s c).grps = s.grps ∧ (State.refusedFor s c).pwr = s.pwr ∧ (State.refusedFor s c).thm = s.thm ∧
    (State.refusedFor s c).age = s.age ∧ (State.refusedFor s c).cnv = s.cnv ∧ (State.refusedFor s c).fwu = s.fwu ∧
    (State.refusedFor s c).glb = s.glb ∧ (State.refusedFor s c).sb = s.sb := by
  have w1 := @State.failJob_still; have w2 := @State.endErr_still; have wi := @ite_parts
  simp [State.refusedFor, w1, w2, wi]
theorem State.refuseTransfer_still (s : State) (t : Transfer) :
    (State.refuseTransfer s t).pending = s.pending ∧ (State.refuseTransfer s t).epoch = s.epoch ∧ (State.refuseTransfer s t).pat = s.pat ∧
    (State.refuseTransfer s t).dramMargin = s.dramMargin ∧ (State.refuseTransfer s t).ports = s.ports ∧
    (State.refuseTransfer s t).trickle = s.trickle ∧ (State.refuseTransfer s t).mlf = s.mlf ∧ (State.refuseTransfer s t).sli = s.sli ∧
    (State.refuseTransfer s t).sec = s.sec ∧ (State.refuseTransfer s t).ctrs = s.ctrs ∧ (State.refuseTransfer s t).grps = s.grps ∧
    (State.refuseTransfer s t).pwr = s.pwr ∧ (State.refuseTransfer s t).thm = s.thm ∧ (State.refuseTransfer s t).age = s.age ∧
    (State.refuseTransfer s t).cnv = s.cnv ∧ (State.refuseTransfer s t).fwu = s.fwu ∧ (State.refuseTransfer s t).glb = s.glb ∧
    (State.refuseTransfer s t).sb = s.sb := by
  have w1 := @State.modIsl_still; have w2 := @State.refusedFor_still
  unfold State.refuseTransfer; repeat' split
  all_goals simp [*]
theorem State.isolateUnit_still (s : State) (i u : Nat) :
    (State.isolateUnit s i u).pending = s.pending ∧ (State.isolateUnit s i u).epoch = s.epoch ∧
    (State.isolateUnit s i u).dramMargin = s.dramMargin ∧ (State.isolateUnit s i u).sec = s.sec ∧ (State.isolateUnit s i u).ctrs = s.ctrs ∧
    (State.isolateUnit s i u).grps = s.grps ∧ (State.isolateUnit s i u).thm = s.thm ∧ (State.isolateUnit s i u).age = s.age ∧
    (State.isolateUnit s i u).cnv = s.cnv ∧ (State.isolateUnit s i u).glb = s.glb := by
  have w1 := @State.unitEffect_still; have w2 := @State.freeOwned_still; have w3 := @State.setIsl_still
  have w4 := @State.refuseTransfer_still; have wf := @foldl_parts; have wi := @ite_parts
  simp [State.isolateUnit, w1, w2, w3, w4, wf, wi]
theorem State.dropRead_still (s : State) (d : Nat) (o : DieOp) :
    (State.dropRead s d o).pending = s.pending ∧ (State.dropRead s d o).epoch = s.epoch ∧ (State.dropRead s d o).pat = s.pat ∧
    (State.dropRead s d o).dramMargin = s.dramMargin ∧ (State.dropRead s d o).ports = s.ports ∧
    (State.dropRead s d o).trickle = s.trickle ∧ (State.dropRead s d o).sec = s.sec ∧ (State.dropRead s d o).ctrs = s.ctrs ∧
    (State.dropRead s d o).grps = s.grps ∧ (State.dropRead s d o).thm = s.thm ∧ (State.dropRead s d o).age = s.age ∧
    (State.dropRead s d o).cnv = s.cnv ∧ (State.dropRead s d o).fwu = s.fwu ∧ (State.dropRead s d o).glb = s.glb := by
  have w1 := @State.dieOpLost_still
  unfold State.dropRead; repeat' split
  all_goals simp [*]
theorem State.recordBusyOp_still (s : State) (d : Nat) (o : DieOp) :
    (State.recordBusyOp s d o).pending = s.pending ∧ (State.recordBusyOp s d o).epoch = s.epoch ∧ (State.recordBusyOp s d o).pat = s.pat ∧
    (State.recordBusyOp s d o).dramMargin = s.dramMargin ∧ (State.recordBusyOp s d o).ports = s.ports ∧
    (State.recordBusyOp s d o).trickle = s.trickle ∧ (State.recordBusyOp s d o).sec = s.sec ∧ (State.recordBusyOp s d o).ctrs = s.ctrs ∧
    (State.recordBusyOp s d o).grps = s.grps ∧ (State.recordBusyOp s d o).thm = s.thm ∧ (State.recordBusyOp s d o).age = s.age ∧
    (State.recordBusyOp s d o).cnv = s.cnv ∧ (State.recordBusyOp s d o).fwu = s.fwu ∧ (State.recordBusyOp s d o).glb = s.glb := by
  have w1 := @State.dropRead_still
  simp [State.recordBusyOp, w1]
theorem State.recordBusyDie_still (s : State) (d : Nat) :
    (State.recordBusyDie s d).pending = s.pending ∧ (State.recordBusyDie s d).epoch = s.epoch ∧ (State.recordBusyDie s d).pat = s.pat ∧
    (State.recordBusyDie s d).dramMargin = s.dramMargin ∧ (State.recordBusyDie s d).ports = s.ports ∧
    (State.recordBusyDie s d).trickle = s.trickle ∧ (State.recordBusyDie s d).sec = s.sec ∧ (State.recordBusyDie s d).ctrs = s.ctrs ∧
    (State.recordBusyDie s d).grps = s.grps ∧ (State.recordBusyDie s d).thm = s.thm ∧ (State.recordBusyDie s d).age = s.age ∧
    (State.recordBusyDie s d).cnv = s.cnv ∧ (State.recordBusyDie s d).fwu = s.fwu ∧ (State.recordBusyDie s d).glb = s.glb := by
  have w1 := @State.recordBusyOp_still; have w2 := @State.setDie_still
  unfold State.recordBusyDie; cases h : (s.die d).cur <;> cases k : (s.die d).suspended <;> simp [h, k, w1, w2]
theorem State.recordBusy_still (s : State) (dies : List Nat) :
    (State.recordBusy s dies).pending = s.pending ∧ (State.recordBusy s dies).epoch = s.epoch ∧ (State.recordBusy s dies).pat = s.pat ∧
    (State.recordBusy s dies).dramMargin = s.dramMargin ∧ (State.recordBusy s dies).ports = s.ports ∧
    (State.recordBusy s dies).trickle = s.trickle ∧ (State.recordBusy s dies).sec = s.sec ∧ (State.recordBusy s dies).ctrs = s.ctrs ∧
    (State.recordBusy s dies).grps = s.grps ∧ (State.recordBusy s dies).thm = s.thm ∧ (State.recordBusy s dies).age = s.age ∧
    (State.recordBusy s dies).cnv = s.cnv ∧ (State.recordBusy s dies).fwu = s.fwu ∧ (State.recordBusy s dies).glb = s.glb := by
  have w1 := @State.recordBusyDie_still; have wf := @foldl_parts
  simp [State.recordBusy, w1, wf]
theorem State.unqueueDie_still (s : State) (d : Nat) :
    (State.unqueueDie s d).pending = s.pending ∧ (State.unqueueDie s d).epoch = s.epoch ∧ (State.unqueueDie s d).pat = s.pat ∧
    (State.unqueueDie s d).dramMargin = s.dramMargin ∧ (State.unqueueDie s d).ports = s.ports ∧
    (State.unqueueDie s d).trickle = s.trickle ∧ (State.unqueueDie s d).sec = s.sec ∧ (State.unqueueDie s d).ctrs = s.ctrs ∧
    (State.unqueueDie s d).grps = s.grps ∧ (State.unqueueDie s d).thm = s.thm ∧ (State.unqueueDie s d).age = s.age ∧
    (State.unqueueDie s d).cnv = s.cnv ∧ (State.unqueueDie s d).fwu = s.fwu ∧ (State.unqueueDie s d).glb = s.glb := by
  have w1 := @State.dropRead_still; have w2 := @State.setDie_still; have wf := @foldl_parts
  simp [State.unqueueDie, w1, w2, wf]
theorem State.unqueueReads_still (s : State) (dies : List Nat) :
    (State.unqueueReads s dies).pending = s.pending ∧ (State.unqueueReads s dies).epoch = s.epoch ∧
    (State.unqueueReads s dies).pat = s.pat ∧ (State.unqueueReads s dies).dramMargin = s.dramMargin ∧
    (State.unqueueReads s dies).ports = s.ports ∧ (State.unqueueReads s dies).trickle = s.trickle ∧
    (State.unqueueReads s dies).sec = s.sec ∧ (State.unqueueReads s dies).ctrs = s.ctrs ∧ (State.unqueueReads s dies).grps = s.grps ∧
    (State.unqueueReads s dies).thm = s.thm ∧ (State.unqueueReads s dies).age = s.age ∧ (State.unqueueReads s dies).cnv = s.cnv ∧
    (State.unqueueReads s dies).fwu = s.fwu ∧ (State.unqueueReads s dies).glb = s.glb := by
  have w1 := @State.unqueueDie_still; have wf := @foldl_parts
  simp [State.unqueueReads, w1, wf]
theorem State.resetIsland_still (s : State) (i : Nat) :
    (State.resetIsland s i).pending = s.pending ∧ (State.resetIsland s i).epoch = s.epoch ∧
    (State.resetIsland s i).dramMargin = s.dramMargin ∧ (State.resetIsland s i).sec = s.sec ∧ (State.resetIsland s i).ctrs = s.ctrs ∧
    (State.resetIsland s i).grps = s.grps ∧ (State.resetIsland s i).thm = s.thm ∧ (State.resetIsland s i).age = s.age ∧
    (State.resetIsland s i).cnv = s.cnv ∧ (State.resetIsland s i).glb = s.glb := by
  have w1 := @State.setIsl_still; have w2 := @State.isolateUnit_still; have w3 := @State.freeOwned_still
  have w4 := @State.recordBusy_still; have w5 := @State.unqueueReads_still; have w6 := @State.islandJobsEnd_still
  have w7 := @State.moduleLeaves_still; have wi := @ite_parts
  simp [State.resetIsland, w1, w2, w3, w4, w5, w6, w7, wi]
theorem State.reissueBusy_still (s : State) (p : Nat → Bool) :
    (State.reissueBusy s p).pending = s.pending ∧ (State.reissueBusy s p).free = s.free ∧ (State.reissueBusy s p).host = s.host ∧
    (State.reissueBusy s p).epoch = s.epoch ∧ (State.reissueBusy s p).pat = s.pat ∧ (State.reissueBusy s p).routes = s.routes ∧
    (State.reissueBusy s p).dramMargin = s.dramMargin ∧ (State.reissueBusy s p).ports = s.ports ∧
    (State.reissueBusy s p).trickle = s.trickle ∧ (State.reissueBusy s p).cmd = s.cmd ∧ (State.reissueBusy s p).zon = s.zon ∧
    (State.reissueBusy s p).mlf = s.mlf ∧ (State.reissueBusy s p).cpx = s.cpx ∧ (State.reissueBusy s p).wvf = s.wvf ∧
    (State.reissueBusy s p).bpm = s.bpm ∧ (State.reissueBusy s p).sec = s.sec ∧ (State.reissueBusy s p).mic = s.mic ∧
    (State.reissueBusy s p).flt = s.flt ∧ (State.reissueBusy s p).ctrs = s.ctrs ∧ (State.reissueBusy s p).grps = s.grps ∧
    (State.reissueBusy s p).pwr = s.pwr ∧ (State.reissueBusy s p).thm = s.thm ∧ (State.reissueBusy s p).age = s.age ∧
    (State.reissueBusy s p).cnv = s.cnv ∧ (State.reissueBusy s p).fwu = s.fwu ∧ (State.reissueBusy s p).glb = s.glb ∧
    (State.reissueBusy s p).sb = s.sb := by
  have w1 := @State.setDie_still; have w2 := @State.kick_still; have wf := @foldl_parts
  simp [State.reissueBusy, w1, w2, wf]
theorem State.suspect_still (s : State) (d block : Nat) :
    (State.suspect s d block).pending = s.pending ∧ (State.suspect s d block).free = s.free ∧ (State.suspect s d block).host = s.host ∧
    (State.suspect s d block).epoch = s.epoch ∧ (State.suspect s d block).pat = s.pat ∧ (State.suspect s d block).isl = s.isl ∧
    (State.suspect s d block).routes = s.routes ∧ (State.suspect s d block).dramMargin = s.dramMargin ∧
    (State.suspect s d block).ports = s.ports ∧ (State.suspect s d block).trickle = s.trickle ∧ (State.suspect s d block).cmd = s.cmd ∧
    (State.suspect s d block).med = s.med ∧ (State.suspect s d block).mlf = s.mlf ∧ (State.suspect s d block).cpx = s.cpx ∧
    (State.suspect s d block).wvf = s.wvf ∧ (State.suspect s d block).bpm = s.bpm ∧ (State.suspect s d block).sli = s.sli ∧
    (State.suspect s d block).sec = s.sec ∧ (State.suspect s d block).mic = s.mic ∧ (State.suspect s d block).flt = s.flt ∧
    (State.suspect s d block).ctrs = s.ctrs ∧ (State.suspect s d block).grps = s.grps ∧ (State.suspect s d block).pwr = s.pwr ∧
    (State.suspect s d block).thm = s.thm ∧ (State.suspect s d block).age = s.age ∧ (State.suspect s d block).cnv = s.cnv ∧
    (State.suspect s d block).fwu = s.fwu ∧ (State.suspect s d block).glb = s.glb ∧ (State.suspect s d block).sb = s.sb := by
  have w1 := @State.setZent_still; have wf := @foldl_parts; have wi := @ite_parts
  simp [State.suspect, w1, wf, wi]
theorem State.suspectBusy_still (s : State) (b : BusyRec) :
    (State.suspectBusy s b).pending = s.pending ∧ (State.suspectBusy s b).free = s.free ∧ (State.suspectBusy s b).host = s.host ∧
    (State.suspectBusy s b).epoch = s.epoch ∧ (State.suspectBusy s b).pat = s.pat ∧ (State.suspectBusy s b).isl = s.isl ∧
    (State.suspectBusy s b).routes = s.routes ∧ (State.suspectBusy s b).dramMargin = s.dramMargin ∧
    (State.suspectBusy s b).ports = s.ports ∧ (State.suspectBusy s b).trickle = s.trickle ∧ (State.suspectBusy s b).cmd = s.cmd ∧
    (State.suspectBusy s b).med = s.med ∧ (State.suspectBusy s b).mlf = s.mlf ∧ (State.suspectBusy s b).cpx = s.cpx ∧
    (State.suspectBusy s b).wvf = s.wvf ∧ (State.suspectBusy s b).bpm = s.bpm ∧ (State.suspectBusy s b).sli = s.sli ∧
    (State.suspectBusy s b).sec = s.sec ∧ (State.suspectBusy s b).mic = s.mic ∧ (State.suspectBusy s b).flt = s.flt ∧
    (State.suspectBusy s b).ctrs = s.ctrs ∧ (State.suspectBusy s b).grps = s.grps ∧ (State.suspectBusy s b).pwr = s.pwr ∧
    (State.suspectBusy s b).thm = s.thm ∧ (State.suspectBusy s b).age = s.age ∧ (State.suspectBusy s b).cnv = s.cnv ∧
    (State.suspectBusy s b).fwu = s.fwu ∧ (State.suspectBusy s b).glb = s.glb ∧ (State.suspectBusy s b).sb = s.sb := by
  have w1 := @State.suspect_still
  unfold State.suspectBusy; repeat' split
  all_goals simp [*]
theorem State.enterSafe_still (s : State) (src seq : Nat) :
    (State.enterSafe s src seq).pending = s.pending ∧ (State.enterSafe s src seq).epoch = s.epoch ∧
    (State.enterSafe s src seq).pat = s.pat ∧ (State.enterSafe s src seq).dramMargin = s.dramMargin ∧
    (State.enterSafe s src seq).sec = s.sec ∧ (State.enterSafe s src seq).ctrs = s.ctrs ∧ (State.enterSafe s src seq).grps = s.grps ∧
    (State.enterSafe s src seq).thm = s.thm ∧ (State.enterSafe s src seq).age = s.age ∧ (State.enterSafe s src seq).cnv = s.cnv ∧
    (State.enterSafe s src seq).fwu = s.fwu ∧ (State.enterSafe s src seq).glb = s.glb := by
  have w1 := @State.holdLed_still; have w2 := @State.recordBusy_still; have w3 := @State.suspectBusy_still
  have w5 := @State.releaseTlps_still; have wf := @foldl_parts
  have wi := @ite_parts
  simp [State.enterSafe, w1, w2, w3, w5, wf, wi]
theorem State.deviceFatal_still (s : State) (src seq : Nat) :
    (State.deviceFatal s src seq).pending = s.pending ∧ (State.deviceFatal s src seq).epoch = s.epoch ∧
    (State.deviceFatal s src seq).pat = s.pat ∧ (State.deviceFatal s src seq).dramMargin = s.dramMargin ∧
    (State.deviceFatal s src seq).sec = s.sec ∧ (State.deviceFatal s src seq).ctrs = s.ctrs ∧ (State.deviceFatal s src seq).grps = s.grps ∧
    (State.deviceFatal s src seq).thm = s.thm ∧ (State.deviceFatal s src seq).age = s.age ∧ (State.deviceFatal s src seq).cnv = s.cnv ∧
    (State.deviceFatal s src seq).fwu = s.fwu ∧ (State.deviceFatal s src seq).glb = s.glb := by
  have w1 := @State.enterSafe_still
  simp [State.deviceFatal, w1]
theorem State.putRecord_still (s : State) (r : FltRec) :
    (State.putRecord s r).2.pending = s.pending ∧ (State.putRecord s r).2.free = s.free ∧ (State.putRecord s r).2.host = s.host ∧
    (State.putRecord s r).2.epoch = s.epoch ∧ (State.putRecord s r).2.pat = s.pat ∧ (State.putRecord s r).2.isl = s.isl ∧
    (State.putRecord s r).2.routes = s.routes ∧ (State.putRecord s r).2.dramMargin = s.dramMargin ∧
    (State.putRecord s r).2.ports = s.ports ∧ (State.putRecord s r).2.trickle = s.trickle ∧ (State.putRecord s r).2.cmd = s.cmd ∧
    (State.putRecord s r).2.zon = s.zon ∧ (State.putRecord s r).2.med = s.med ∧ (State.putRecord s r).2.mlf = s.mlf ∧
    (State.putRecord s r).2.cpx = s.cpx ∧ (State.putRecord s r).2.wvf = s.wvf ∧ (State.putRecord s r).2.bpm = s.bpm ∧
    (State.putRecord s r).2.sli = s.sli ∧ (State.putRecord s r).2.sec = s.sec ∧ (State.putRecord s r).2.mic = s.mic ∧
    (State.putRecord s r).2.ctrs = s.ctrs ∧ (State.putRecord s r).2.grps = s.grps ∧ (State.putRecord s r).2.pwr = s.pwr ∧
    (State.putRecord s r).2.thm = s.thm ∧ (State.putRecord s r).2.age = s.age ∧ (State.putRecord s r).2.cnv = s.cnv ∧
    (State.putRecord s r).2.fwu = s.fwu ∧ (State.putRecord s r).2.glb = s.glb ∧ (State.putRecord s r).2.sb = s.sb := by
  unfold State.putRecord; repeat' split
  all_goals simp [*]
theorem State.reactLog_still (s : State) (r : FltRec) (b : Nat) :
    (State.reactLog s r b).pending = s.pending ∧ (State.reactLog s r b).free = s.free ∧ (State.reactLog s r b).host = s.host ∧
    (State.reactLog s r b).epoch = s.epoch ∧ (State.reactLog s r b).pat = s.pat ∧ (State.reactLog s r b).isl = s.isl ∧
    (State.reactLog s r b).routes = s.routes ∧ (State.reactLog s r b).dramMargin = s.dramMargin ∧ (State.reactLog s r b).ports = s.ports ∧
    (State.reactLog s r b).trickle = s.trickle ∧ (State.reactLog s r b).cmd = s.cmd ∧ (State.reactLog s r b).zon = s.zon ∧
    (State.reactLog s r b).med = s.med ∧ (State.reactLog s r b).mlf = s.mlf ∧ (State.reactLog s r b).cpx = s.cpx ∧
    (State.reactLog s r b).wvf = s.wvf ∧ (State.reactLog s r b).bpm = s.bpm ∧ (State.reactLog s r b).sli = s.sli ∧
    (State.reactLog s r b).sec = s.sec ∧ (State.reactLog s r b).mic = s.mic ∧ (State.reactLog s r b).ctrs = s.ctrs ∧
    (State.reactLog s r b).grps = s.grps ∧ (State.reactLog s r b).pwr = s.pwr ∧ (State.reactLog s r b).thm = s.thm ∧
    (State.reactLog s r b).age = s.age ∧ (State.reactLog s r b).cnv = s.cnv ∧ (State.reactLog s r b).fwu = s.fwu ∧
    (State.reactLog s r b).glb = s.glb ∧ (State.reactLog s r b).sb = s.sb := by
  have wi := @ite_parts
  simp [State.reactLog, wi]
theorem State.reactAen_still (s : State) (b : Nat) :
    (State.reactAen s b).pending = s.pending ∧ (State.reactAen s b).free = s.free ∧ (State.reactAen s b).host = s.host ∧
    (State.reactAen s b).epoch = s.epoch ∧ (State.reactAen s b).pat = s.pat ∧ (State.reactAen s b).isl = s.isl ∧
    (State.reactAen s b).routes = s.routes ∧ (State.reactAen s b).dramMargin = s.dramMargin ∧ (State.reactAen s b).ports = s.ports ∧
    (State.reactAen s b).trickle = s.trickle ∧ (State.reactAen s b).zon = s.zon ∧ (State.reactAen s b).med = s.med ∧
    (State.reactAen s b).mlf = s.mlf ∧ (State.reactAen s b).cpx = s.cpx ∧ (State.reactAen s b).wvf = s.wvf ∧
    (State.reactAen s b).bpm = s.bpm ∧ (State.reactAen s b).sli = s.sli ∧ (State.reactAen s b).sec = s.sec ∧
    (State.reactAen s b).mic = s.mic ∧ (State.reactAen s b).flt = s.flt ∧ (State.reactAen s b).ctrs = s.ctrs ∧
    (State.reactAen s b).grps = s.grps ∧ (State.reactAen s b).pwr = s.pwr ∧ (State.reactAen s b).thm = s.thm ∧
    (State.reactAen s b).age = s.age ∧ (State.reactAen s b).cnv = s.cnv ∧ (State.reactAen s b).fwu = s.fwu ∧
    (State.reactAen s b).glb = s.glb ∧ (State.reactAen s b).sb = s.sb := by
  have w1 := @State.managerAen_still; have wi := @ite_parts
  simp [State.reactAen, w1, wi]
theorem State.reactIrq_still (s : State) (b : Nat) :
    (State.reactIrq s b).pending = s.pending ∧ (State.reactIrq s b).free = s.free ∧ (State.reactIrq s b).epoch = s.epoch ∧
    (State.reactIrq s b).pat = s.pat ∧ (State.reactIrq s b).isl = s.isl ∧ (State.reactIrq s b).routes = s.routes ∧
    (State.reactIrq s b).dramMargin = s.dramMargin ∧ (State.reactIrq s b).trickle = s.trickle ∧ (State.reactIrq s b).cmd = s.cmd ∧
    (State.reactIrq s b).zon = s.zon ∧ (State.reactIrq s b).med = s.med ∧ (State.reactIrq s b).mlf = s.mlf ∧
    (State.reactIrq s b).cpx = s.cpx ∧ (State.reactIrq s b).wvf = s.wvf ∧ (State.reactIrq s b).bpm = s.bpm ∧
    (State.reactIrq s b).sec = s.sec ∧ (State.reactIrq s b).mic = s.mic ∧ (State.reactIrq s b).ctrs = s.ctrs ∧
    (State.reactIrq s b).grps = s.grps ∧ (State.reactIrq s b).pwr = s.pwr ∧ (State.reactIrq s b).thm = s.thm ∧
    (State.reactIrq s b).age = s.age ∧ (State.reactIrq s b).cnv = s.cnv ∧ (State.reactIrq s b).fwu = s.fwu ∧
    (State.reactIrq s b).glb = s.glb ∧ (State.reactIrq s b).sb = s.sb := by
  have w1 := @State.managerIrq_still; have wi := @ite_parts
  simp [State.reactIrq, w1, wi]
theorem State.reactIso_still (s : State) (src b : Nat) :
    (State.reactIso s src b).pending = s.pending ∧ (State.reactIso s src b).epoch = s.epoch ∧
    (State.reactIso s src b).dramMargin = s.dramMargin ∧ (State.reactIso s src b).sec = s.sec ∧ (State.reactIso s src b).ctrs = s.ctrs ∧
    (State.reactIso s src b).grps = s.grps ∧ (State.reactIso s src b).thm = s.thm ∧ (State.reactIso s src b).age = s.age ∧
    (State.reactIso s src b).cnv = s.cnv ∧ (State.reactIso s src b).glb = s.glb := by
  have w1 := @State.isolateUnit_still; have wf := @foldl_parts; have wi := @ite_parts
  simp [State.reactIso, w1, wf, wi]
theorem State.reactReset_still (s : State) (src b : Nat) :
    (State.reactReset s src b).pending = s.pending ∧ (State.reactReset s src b).epoch = s.epoch ∧
    (State.reactReset s src b).dramMargin = s.dramMargin ∧ (State.reactReset s src b).sec = s.sec ∧
    (State.reactReset s src b).ctrs = s.ctrs ∧ (State.reactReset s src b).grps = s.grps ∧ (State.reactReset s src b).thm = s.thm ∧
    (State.reactReset s src b).age = s.age ∧ (State.reactReset s src b).cnv = s.cnv ∧ (State.reactReset s src b).glb = s.glb := by
  have w1 := @State.resetIsland_still; have wf := @foldl_parts; have wi := @ite_parts
  simp [State.reactReset, w1, wf, wi]
theorem State.reactSafe_still (s : State) (src seq b : Nat) :
    (State.reactSafe s src seq b).pending = s.pending ∧ (State.reactSafe s src seq b).epoch = s.epoch ∧
    (State.reactSafe s src seq b).pat = s.pat ∧ (State.reactSafe s src seq b).dramMargin = s.dramMargin ∧
    (State.reactSafe s src seq b).sec = s.sec ∧ (State.reactSafe s src seq b).ctrs = s.ctrs ∧ (State.reactSafe s src seq b).grps = s.grps ∧
    (State.reactSafe s src seq b).thm = s.thm ∧ (State.reactSafe s src seq b).age = s.age ∧ (State.reactSafe s src seq b).cnv = s.cnv ∧
    (State.reactSafe s src seq b).fwu = s.fwu ∧ (State.reactSafe s src seq b).glb = s.glb := by
  have w1 := @State.enterSafe_still; have wi := @ite_parts
  simp [State.reactSafe, w1, wi]
theorem State.reactFatal_still (s : State) (src seq b : Nat) :
    (State.reactFatal s src seq b).pending = s.pending ∧ (State.reactFatal s src seq b).epoch = s.epoch ∧
    (State.reactFatal s src seq b).pat = s.pat ∧ (State.reactFatal s src seq b).dramMargin = s.dramMargin ∧
    (State.reactFatal s src seq b).sec = s.sec ∧ (State.reactFatal s src seq b).ctrs = s.ctrs ∧
    (State.reactFatal s src seq b).grps = s.grps ∧ (State.reactFatal s src seq b).thm = s.thm ∧
    (State.reactFatal s src seq b).age = s.age ∧ (State.reactFatal s src seq b).cnv = s.cnv ∧ (State.reactFatal s src seq b).fwu = s.fwu ∧
    (State.reactFatal s src seq b).glb = s.glb := by
  have w1 := @State.deviceFatal_still; have wi := @ite_parts
  simp [State.reactFatal, w1, wi]
theorem State.recordFault_still (s : State) (ev : FaultEv) :
    (State.recordFault s ev).pending = s.pending ∧ (State.recordFault s ev).epoch = s.epoch ∧
    (State.recordFault s ev).dramMargin = s.dramMargin ∧ (State.recordFault s ev).sec = s.sec ∧ (State.recordFault s ev).ctrs = s.ctrs ∧
    (State.recordFault s ev).grps = s.grps ∧ (State.recordFault s ev).thm = s.thm ∧ (State.recordFault s ev).age = s.age ∧
    (State.recordFault s ev).cnv = s.cnv ∧ (State.recordFault s ev).glb = s.glb := by
  have w1 := @State.putRecord_still; have w2 := @State.reactLog_still; have w3 := @State.reactAen_still
  have w4 := @State.reactIrq_still; have w5 := @State.reactIso_still; have w6 := @State.reactReset_still
  have w7 := @State.reactSafe_still; have w8 := @State.reactFatal_still
  simp [State.recordFault, w1, w2, w3, w4, w5, w6, w7, w8]
theorem State.faultNow_still (s : State) (ev : FaultEv) :
    (State.faultNow s ev).pending = s.pending ∧ (State.faultNow s ev).epoch = s.epoch ∧ (State.faultNow s ev).dramMargin = s.dramMargin ∧
    (State.faultNow s ev).sec = s.sec ∧ (State.faultNow s ev).ctrs = s.ctrs ∧ (State.faultNow s ev).grps = s.grps ∧
    (State.faultNow s ev).thm = s.thm ∧ (State.faultNow s ev).age = s.age ∧ (State.faultNow s ev).cnv = s.cnv ∧
    (State.faultNow s ev).glb = s.glb := by
  have w1 := @State.recordFault_still
  unfold State.faultNow; dsimp only; repeat' split
  all_goals simp [*]
theorem State.sendHeld_still (s : State) :
    (State.sendHeld s).pending = s.pending ∧ (State.sendHeld s).free = s.free ∧ (State.sendHeld s).epoch = s.epoch ∧
    (State.sendHeld s).pat = s.pat ∧ (State.sendHeld s).isl = s.isl ∧ (State.sendHeld s).routes = s.routes ∧
    (State.sendHeld s).dramMargin = s.dramMargin ∧ (State.sendHeld s).trickle = s.trickle ∧ (State.sendHeld s).cmd = s.cmd ∧
    (State.sendHeld s).zon = s.zon ∧ (State.sendHeld s).med = s.med ∧ (State.sendHeld s).mlf = s.mlf ∧ (State.sendHeld s).cpx = s.cpx ∧
    (State.sendHeld s).wvf = s.wvf ∧ (State.sendHeld s).bpm = s.bpm ∧ (State.sendHeld s).sec = s.sec ∧ (State.sendHeld s).mic = s.mic ∧
    (State.sendHeld s).flt = s.flt ∧ (State.sendHeld s).ctrs = s.ctrs ∧ (State.sendHeld s).grps = s.grps ∧ (State.sendHeld s).pwr = s.pwr ∧
    (State.sendHeld s).thm = s.thm ∧ (State.sendHeld s).age = s.age ∧ (State.sendHeld s).cnv = s.cnv ∧ (State.sendHeld s).fwu = s.fwu ∧
    (State.sendHeld s).glb = s.glb ∧ (State.sendHeld s).sb = s.sb := by
  have w1 := @State.modPort_still; have w2 := @State.emitIrq_still; have w3 := @State.modSli_still; have wf := @foldl_parts
  have wi := @ite_parts
  simp [State.sendHeld, w1, w2, w3, wf, wi]
theorem State.leaveSafe_still (s : State) :
    (State.leaveSafe s).pending = s.pending ∧ (State.leaveSafe s).epoch = s.epoch ∧ (State.leaveSafe s).pat = s.pat ∧
    (State.leaveSafe s).dramMargin = s.dramMargin ∧ (State.leaveSafe s).trickle = s.trickle ∧ (State.leaveSafe s).sec = s.sec ∧
    (State.leaveSafe s).ctrs = s.ctrs ∧ (State.leaveSafe s).grps = s.grps ∧ (State.leaveSafe s).thm = s.thm ∧
    (State.leaveSafe s).age = s.age ∧ (State.leaveSafe s).cnv = s.cnv ∧ (State.leaveSafe s).glb = s.glb := by
  have w1 := @State.bayAfterSafe_still; have w2 := @State.reissueBusy_still; have w3 := @State.relStep_still
  have w4 := @State.kickAll_still; have w5 := @State.sendHeld_still; have w6 := @State.giveAen_still
  have w7 := @State.tryActivate_still; have wf := @foldl_parts
  simp [State.leaveSafe, w1, w2, w3, w4, w5, w6, w7, wf]
theorem State.unqueueFault_still (s : State) (ev : FaultEv) :
    (State.unqueueFault s ev).pending = s.pending ∧ (State.unqueueFault s ev).free = s.free ∧ (State.unqueueFault s ev).host = s.host ∧
    (State.unqueueFault s ev).epoch = s.epoch ∧ (State.unqueueFault s ev).pat = s.pat ∧ (State.unqueueFault s ev).isl = s.isl ∧
    (State.unqueueFault s ev).routes = s.routes ∧ (State.unqueueFault s ev).dramMargin = s.dramMargin ∧
    (State.unqueueFault s ev).ports = s.ports ∧ (State.unqueueFault s ev).trickle = s.trickle ∧ (State.unqueueFault s ev).cmd = s.cmd ∧
    (State.unqueueFault s ev).zon = s.zon ∧ (State.unqueueFault s ev).med = s.med ∧ (State.unqueueFault s ev).mlf = s.mlf ∧
    (State.unqueueFault s ev).cpx = s.cpx ∧ (State.unqueueFault s ev).wvf = s.wvf ∧ (State.unqueueFault s ev).bpm = s.bpm ∧
    (State.unqueueFault s ev).sli = s.sli ∧ (State.unqueueFault s ev).sec = s.sec ∧ (State.unqueueFault s ev).mic = s.mic ∧
    (State.unqueueFault s ev).ctrs = s.ctrs ∧ (State.unqueueFault s ev).grps = s.grps ∧ (State.unqueueFault s ev).pwr = s.pwr ∧
    (State.unqueueFault s ev).thm = s.thm ∧ (State.unqueueFault s ev).age = s.age ∧ (State.unqueueFault s ev).cnv = s.cnv ∧
    (State.unqueueFault s ev).fwu = s.fwu ∧ (State.unqueueFault s ev).glb = s.glb ∧ (State.unqueueFault s ev).sb = s.sb := by
  simp [State.unqueueFault]
theorem State.ackFaults_still (s : State) (seq : Nat) :
    (State.ackFaults s seq).pending = s.pending ∧ (State.ackFaults s seq).free = s.free ∧ (State.ackFaults s seq).host = s.host ∧
    (State.ackFaults s seq).epoch = s.epoch ∧ (State.ackFaults s seq).pat = s.pat ∧ (State.ackFaults s seq).isl = s.isl ∧
    (State.ackFaults s seq).routes = s.routes ∧ (State.ackFaults s seq).dramMargin = s.dramMargin ∧
    (State.ackFaults s seq).ports = s.ports ∧ (State.ackFaults s seq).trickle = s.trickle ∧ (State.ackFaults s seq).cmd = s.cmd ∧
    (State.ackFaults s seq).zon = s.zon ∧ (State.ackFaults s seq).med = s.med ∧ (State.ackFaults s seq).mlf = s.mlf ∧
    (State.ackFaults s seq).cpx = s.cpx ∧ (State.ackFaults s seq).wvf = s.wvf ∧ (State.ackFaults s seq).bpm = s.bpm ∧
    (State.ackFaults s seq).sli = s.sli ∧ (State.ackFaults s seq).sec = s.sec ∧ (State.ackFaults s seq).mic = s.mic ∧
    (State.ackFaults s seq).ctrs = s.ctrs ∧ (State.ackFaults s seq).grps = s.grps ∧ (State.ackFaults s seq).pwr = s.pwr ∧
    (State.ackFaults s seq).thm = s.thm ∧ (State.ackFaults s seq).age = s.age ∧ (State.ackFaults s seq).cnv = s.cnv ∧
    (State.ackFaults s seq).fwu = s.fwu ∧ (State.ackFaults s seq).glb = s.glb ∧ (State.ackFaults s seq).sb = s.sb := by
  simp [State.ackFaults]
theorem State.safeRelease_still (s : State) (v : Nat) :
    (State.safeRelease s v).pending = s.pending ∧ (State.safeRelease s v).epoch = s.epoch ∧ (State.safeRelease s v).pat = s.pat ∧
    (State.safeRelease s v).dramMargin = s.dramMargin ∧ (State.safeRelease s v).trickle = s.trickle ∧ (State.safeRelease s v).sec = s.sec ∧
    (State.safeRelease s v).ctrs = s.ctrs ∧ (State.safeRelease s v).grps = s.grps ∧ (State.safeRelease s v).thm = s.thm ∧
    (State.safeRelease s v).age = s.age ∧ (State.safeRelease s v).cnv = s.cnv ∧ (State.safeRelease s v).glb = s.glb := by
  have w1 := @State.leaveSafe_still; have wi := @ite_parts
  simp [State.safeRelease, w1, wi]
theorem State.unitBack_still (s : State) (isl unit : Nat) :
    (State.unitBack s isl unit).pending = s.pending ∧ (State.unitBack s isl unit).free = s.free ∧
    (State.unitBack s isl unit).host = s.host ∧ (State.unitBack s isl unit).epoch = s.epoch ∧ (State.unitBack s isl unit).pat = s.pat ∧
    (State.unitBack s isl unit).isl = s.isl ∧ (State.unitBack s isl unit).routes = s.routes ∧
    (State.unitBack s isl unit).dramMargin = s.dramMargin ∧ (State.unitBack s isl unit).trickle = s.trickle ∧
    (State.unitBack s isl unit).cmd = s.cmd ∧ (State.unitBack s isl unit).zon = s.zon ∧ (State.unitBack s isl unit).mlf = s.mlf ∧
    (State.unitBack s isl unit).wvf = s.wvf ∧ (State.unitBack s isl unit).bpm = s.bpm ∧ (State.unitBack s isl unit).sli = s.sli ∧
    (State.unitBack s isl unit).sec = s.sec ∧ (State.unitBack s isl unit).mic = s.mic ∧ (State.unitBack s isl unit).flt = s.flt ∧
    (State.unitBack s isl unit).ctrs = s.ctrs ∧ (State.unitBack s isl unit).grps = s.grps ∧ (State.unitBack s isl unit).pwr = s.pwr ∧
    (State.unitBack s isl unit).thm = s.thm ∧ (State.unitBack s isl unit).age = s.age ∧ (State.unitBack s isl unit).cnv = s.cnv ∧
    (State.unitBack s isl unit).fwu = s.fwu ∧ (State.unitBack s isl unit).glb = s.glb ∧ (State.unitBack s isl unit).sb = s.sb := by
  have w1 := @State.modChan_still; have w2 := @State.modPort_still; have wf := @foldl_parts
  have wi := @ite_parts
  simp [State.unitBack, w1, w2, wf, wi]
theorem State.releaseUnit_still (s : State) (isl unit : Nat) :
    (State.releaseUnit s isl unit).pending = s.pending ∧ (State.releaseUnit s isl unit).free = s.free ∧
    (State.releaseUnit s isl unit).host = s.host ∧ (State.releaseUnit s isl unit).epoch = s.epoch ∧
    (State.releaseUnit s isl unit).pat = s.pat ∧ (State.releaseUnit s isl unit).routes = s.routes ∧
    (State.releaseUnit s isl unit).dramMargin = s.dramMargin ∧ (State.releaseUnit s isl unit).trickle = s.trickle ∧
    (State.releaseUnit s isl unit).cmd = s.cmd ∧ (State.releaseUnit s isl unit).zon = s.zon ∧ (State.releaseUnit s isl unit).mlf = s.mlf ∧
    (State.releaseUnit s isl unit).wvf = s.wvf ∧ (State.releaseUnit s isl unit).bpm = s.bpm ∧ (State.releaseUnit s isl unit).sli = s.sli ∧
    (State.releaseUnit s isl unit).sec = s.sec ∧ (State.releaseUnit s isl unit).mic = s.mic ∧
    (State.releaseUnit s isl unit).ctrs = s.ctrs ∧ (State.releaseUnit s isl unit).grps = s.grps ∧
    (State.releaseUnit s isl unit).pwr = s.pwr ∧ (State.releaseUnit s isl unit).thm = s.thm ∧ (State.releaseUnit s isl unit).age = s.age ∧
    (State.releaseUnit s isl unit).cnv = s.cnv ∧ (State.releaseUnit s isl unit).fwu = s.fwu ∧ (State.releaseUnit s isl unit).glb = s.glb ∧
    (State.releaseUnit s isl unit).sb = s.sb := by
  have w1 := @State.setIsl_still; have w2 := @State.unitBack_still; have wi := @ite_parts
  simp [State.releaseUnit, w1, w2, wi]
theorem State.setCtr_still (s : State) (c : Nat) (v : Ctr) :
    (State.setCtr s c v).pending = s.pending ∧ (State.setCtr s c v).free = s.free ∧ (State.setCtr s c v).host = s.host ∧
    (State.setCtr s c v).epoch = s.epoch ∧ (State.setCtr s c v).pat = s.pat ∧ (State.setCtr s c v).isl = s.isl ∧
    (State.setCtr s c v).routes = s.routes ∧ (State.setCtr s c v).dramMargin = s.dramMargin ∧ (State.setCtr s c v).ports = s.ports ∧
    (State.setCtr s c v).trickle = s.trickle ∧ (State.setCtr s c v).cmd = s.cmd ∧ (State.setCtr s c v).zon = s.zon ∧
    (State.setCtr s c v).med = s.med ∧ (State.setCtr s c v).mlf = s.mlf ∧ (State.setCtr s c v).cpx = s.cpx ∧
    (State.setCtr s c v).wvf = s.wvf ∧ (State.setCtr s c v).bpm = s.bpm ∧ (State.setCtr s c v).sli = s.sli ∧
    (State.setCtr s c v).sec = s.sec ∧ (State.setCtr s c v).mic = s.mic ∧ (State.setCtr s c v).flt = s.flt ∧
    (State.setCtr s c v).grps = s.grps ∧ (State.setCtr s c v).pwr = s.pwr ∧ (State.setCtr s c v).thm = s.thm ∧
    (State.setCtr s c v).age = s.age ∧ (State.setCtr s c v).cnv = s.cnv ∧ (State.setCtr s c v).fwu = s.fwu ∧
    (State.setCtr s c v).glb = s.glb ∧ (State.setCtr s c v).sb = s.sb := by
  simp [State.setCtr]
theorem State.setGrp_still (s : State) (g : Nat) (v : CtrGrp) :
    (State.setGrp s g v).pending = s.pending ∧ (State.setGrp s g v).free = s.free ∧ (State.setGrp s g v).host = s.host ∧
    (State.setGrp s g v).epoch = s.epoch ∧ (State.setGrp s g v).pat = s.pat ∧ (State.setGrp s g v).isl = s.isl ∧
    (State.setGrp s g v).routes = s.routes ∧ (State.setGrp s g v).dramMargin = s.dramMargin ∧ (State.setGrp s g v).ports = s.ports ∧
    (State.setGrp s g v).trickle = s.trickle ∧ (State.setGrp s g v).cmd = s.cmd ∧ (State.setGrp s g v).zon = s.zon ∧
    (State.setGrp s g v).med = s.med ∧ (State.setGrp s g v).mlf = s.mlf ∧ (State.setGrp s g v).cpx = s.cpx ∧
    (State.setGrp s g v).wvf = s.wvf ∧ (State.setGrp s g v).bpm = s.bpm ∧ (State.setGrp s g v).sli = s.sli ∧
    (State.setGrp s g v).sec = s.sec ∧ (State.setGrp s g v).mic = s.mic ∧ (State.setGrp s g v).flt = s.flt ∧
    (State.setGrp s g v).ctrs = s.ctrs ∧ (State.setGrp s g v).pwr = s.pwr ∧ (State.setGrp s g v).thm = s.thm ∧
    (State.setGrp s g v).age = s.age ∧ (State.setGrp s g v).cnv = s.cnv ∧ (State.setGrp s g v).fwu = s.fwu ∧
    (State.setGrp s g v).glb = s.glb ∧ (State.setGrp s g v).sb = s.sb := by
  simp [State.setGrp]
theorem State.bumpCtr_still (s : State) (k : Nat) (level : Bool) :
    (State.bumpCtr s k level).pending = s.pending ∧ (State.bumpCtr s k level).free = s.free ∧ (State.bumpCtr s k level).epoch = s.epoch ∧
    (State.bumpCtr s k level).pat = s.pat ∧ (State.bumpCtr s k level).isl = s.isl ∧ (State.bumpCtr s k level).routes = s.routes ∧
    (State.bumpCtr s k level).dramMargin = s.dramMargin ∧ (State.bumpCtr s k level).trickle = s.trickle ∧
    (State.bumpCtr s k level).cmd = s.cmd ∧ (State.bumpCtr s k level).zon = s.zon ∧ (State.bumpCtr s k level).med = s.med ∧
    (State.bumpCtr s k level).mlf = s.mlf ∧ (State.bumpCtr s k level).cpx = s.cpx ∧ (State.bumpCtr s k level).wvf = s.wvf ∧
    (State.bumpCtr s k level).bpm = s.bpm ∧ (State.bumpCtr s k level).sec = s.sec ∧ (State.bumpCtr s k level).mic = s.mic ∧
    (State.bumpCtr s k level).flt = s.flt ∧ (State.bumpCtr s k level).pwr = s.pwr ∧ (State.bumpCtr s k level).thm = s.thm ∧
    (State.bumpCtr s k level).age = s.age ∧ (State.bumpCtr s k level).cnv = s.cnv ∧ (State.bumpCtr s k level).fwu = s.fwu ∧
    (State.bumpCtr s k level).glb = s.glb ∧ (State.bumpCtr s k level).sb = s.sb := by
  have w1 := @State.setCtr_still; have w2 := @State.setGrp_still; have w3 := @State.managerIrq_still; have wi := @ite_parts
  simp [State.bumpCtr, w1, w2, w3, wi]
theorem State.snapGroup_still (s : State) (g : Nat) :
    (State.snapGroup s g).pending = s.pending ∧ (State.snapGroup s g).free = s.free ∧ (State.snapGroup s g).host = s.host ∧
    (State.snapGroup s g).epoch = s.epoch ∧ (State.snapGroup s g).pat = s.pat ∧ (State.snapGroup s g).isl = s.isl ∧
    (State.snapGroup s g).routes = s.routes ∧ (State.snapGroup s g).dramMargin = s.dramMargin ∧ (State.snapGroup s g).ports = s.ports ∧
    (State.snapGroup s g).trickle = s.trickle ∧ (State.snapGroup s g).cmd = s.cmd ∧ (State.snapGroup s g).zon = s.zon ∧
    (State.snapGroup s g).med = s.med ∧ (State.snapGroup s g).mlf = s.mlf ∧ (State.snapGroup s g).cpx = s.cpx ∧
    (State.snapGroup s g).wvf = s.wvf ∧ (State.snapGroup s g).bpm = s.bpm ∧ (State.snapGroup s g).sli = s.sli ∧
    (State.snapGroup s g).sec = s.sec ∧ (State.snapGroup s g).mic = s.mic ∧ (State.snapGroup s g).flt = s.flt ∧
    (State.snapGroup s g).grps = s.grps ∧ (State.snapGroup s g).pwr = s.pwr ∧ (State.snapGroup s g).thm = s.thm ∧
    (State.snapGroup s g).age = s.age ∧ (State.snapGroup s g).cnv = s.cnv ∧ (State.snapGroup s g).fwu = s.fwu ∧
    (State.snapGroup s g).glb = s.glb ∧ (State.snapGroup s g).sb = s.sb := by
  simp [State.snapGroup]
theorem State.freezeGroup_still (s : State) (g : Nat) (v : Bool) :
    (State.freezeGroup s g v).pending = s.pending ∧ (State.freezeGroup s g v).free = s.free ∧ (State.freezeGroup s g v).host = s.host ∧
    (State.freezeGroup s g v).epoch = s.epoch ∧ (State.freezeGroup s g v).pat = s.pat ∧ (State.freezeGroup s g v).isl = s.isl ∧
    (State.freezeGroup s g v).routes = s.routes ∧ (State.freezeGroup s g v).dramMargin = s.dramMargin ∧
    (State.freezeGroup s g v).ports = s.ports ∧ (State.freezeGroup s g v).trickle = s.trickle ∧ (State.freezeGroup s g v).cmd = s.cmd ∧
    (State.freezeGroup s g v).zon = s.zon ∧ (State.freezeGroup s g v).med = s.med ∧ (State.freezeGroup s g v).mlf = s.mlf ∧
    (State.freezeGroup s g v).cpx = s.cpx ∧ (State.freezeGroup s g v).wvf = s.wvf ∧ (State.freezeGroup s g v).bpm = s.bpm ∧
    (State.freezeGroup s g v).sli = s.sli ∧ (State.freezeGroup s g v).sec = s.sec ∧ (State.freezeGroup s g v).mic = s.mic ∧
    (State.freezeGroup s g v).flt = s.flt ∧ (State.freezeGroup s g v).ctrs = s.ctrs ∧ (State.freezeGroup s g v).pwr = s.pwr ∧
    (State.freezeGroup s g v).thm = s.thm ∧ (State.freezeGroup s g v).age = s.age ∧ (State.freezeGroup s g v).cnv = s.cnv ∧
    (State.freezeGroup s g v).fwu = s.fwu ∧ (State.freezeGroup s g v).glb = s.glb ∧ (State.freezeGroup s g v).sb = s.sb := by
  have w1 := @State.setGrp_still
  simp [State.freezeGroup, w1]
theorem State.finishWith_still (s : State) (c : Nat) (o : Outc) (d : OutData) :
    (State.finishWith s c o d).pending = s.pending ∧ (State.finishWith s c o d).free = s.free ∧ (State.finishWith s c o d).host = s.host ∧
    (State.finishWith s c o d).epoch = s.epoch ∧ (State.finishWith s c o d).pat = s.pat ∧ (State.finishWith s c o d).isl = s.isl ∧
    (State.finishWith s c o d).routes = s.routes ∧ (State.finishWith s c o d).dramMargin = s.dramMargin ∧
    (State.finishWith s c o d).ports = s.ports ∧ (State.finishWith s c o d).trickle = s.trickle ∧ (State.finishWith s c o d).zon = s.zon ∧
    (State.finishWith s c o d).med = s.med ∧ (State.finishWith s c o d).mlf = s.mlf ∧ (State.finishWith s c o d).cpx = s.cpx ∧
    (State.finishWith s c o d).wvf = s.wvf ∧ (State.finishWith s c o d).bpm = s.bpm ∧ (State.finishWith s c o d).sli = s.sli ∧
    (State.finishWith s c o d).sec = s.sec ∧ (State.finishWith s c o d).mic = s.mic ∧ (State.finishWith s c o d).flt = s.flt ∧
    (State.finishWith s c o d).ctrs = s.ctrs ∧ (State.finishWith s c o d).grps = s.grps ∧ (State.finishWith s c o d).pwr = s.pwr ∧
    (State.finishWith s c o d).thm = s.thm ∧ (State.finishWith s c o d).age = s.age ∧ (State.finishWith s c o d).cnv = s.cnv ∧
    (State.finishWith s c o d).fwu = s.fwu ∧ (State.finishWith s c o d).glb = s.glb ∧ (State.finishWith s c o d).sb = s.sb := by
  have w1 := @State.finish_still; have w2 := @State.modCtx_still
  simp [State.finishWith, w1, w2]
theorem State.park_still (s : State) (c : Nat) :
    (State.park s c).pending = s.pending ∧ (State.park s c).free = s.free ∧ (State.park s c).host = s.host ∧
    (State.park s c).epoch = s.epoch ∧ (State.park s c).pat = s.pat ∧ (State.park s c).isl = s.isl ∧ (State.park s c).routes = s.routes ∧
    (State.park s c).dramMargin = s.dramMargin ∧ (State.park s c).ports = s.ports ∧ (State.park s c).trickle = s.trickle ∧
    (State.park s c).zon = s.zon ∧ (State.park s c).med = s.med ∧ (State.park s c).mlf = s.mlf ∧ (State.park s c).cpx = s.cpx ∧
    (State.park s c).wvf = s.wvf ∧ (State.park s c).bpm = s.bpm ∧ (State.park s c).sli = s.sli ∧ (State.park s c).sec = s.sec ∧
    (State.park s c).mic = s.mic ∧ (State.park s c).flt = s.flt ∧ (State.park s c).ctrs = s.ctrs ∧ (State.park s c).grps = s.grps ∧
    (State.park s c).pwr = s.pwr ∧ (State.park s c).thm = s.thm ∧ (State.park s c).age = s.age ∧ (State.park s c).cnv = s.cnv ∧
    (State.park s c).fwu = s.fwu ∧ (State.park s c).glb = s.glb ∧ (State.park s c).sb = s.sb := by
  have w1 := @State.modCtx_still
  simp [State.park, w1]
theorem State.challenge_still (s : State) (r : Requester) (q : Sqe) :
    (State.challenge s r q).2.2.pending = s.pending ∧ (State.challenge s r q).2.2.host = s.host ∧
    (State.challenge s r q).2.2.epoch = s.epoch ∧ (State.challenge s r q).2.2.pat = s.pat ∧ (State.challenge s r q).2.2.isl = s.isl ∧
    (State.challenge s r q).2.2.routes = s.routes ∧ (State.challenge s r q).2.2.dramMargin = s.dramMargin ∧
    (State.challenge s r q).2.2.ports = s.ports ∧ (State.challenge s r q).2.2.trickle = s.trickle ∧
    (State.challenge s r q).2.2.cmd = s.cmd ∧ (State.challenge s r q).2.2.zon = s.zon ∧ (State.challenge s r q).2.2.med = s.med ∧
    (State.challenge s r q).2.2.mlf = s.mlf ∧ (State.challenge s r q).2.2.cpx = s.cpx ∧ (State.challenge s r q).2.2.wvf = s.wvf ∧
    (State.challenge s r q).2.2.bpm = s.bpm ∧ (State.challenge s r q).2.2.sli = s.sli ∧ (State.challenge s r q).2.2.mic = s.mic ∧
    (State.challenge s r q).2.2.flt = s.flt ∧ (State.challenge s r q).2.2.ctrs = s.ctrs ∧ (State.challenge s r q).2.2.grps = s.grps ∧
    (State.challenge s r q).2.2.pwr = s.pwr ∧ (State.challenge s r q).2.2.thm = s.thm ∧ (State.challenge s r q).2.2.age = s.age ∧
    (State.challenge s r q).2.2.cnv = s.cnv ∧ (State.challenge s r q).2.2.fwu = s.fwu ∧ (State.challenge s r q).2.2.glb = s.glb ∧
    (State.challenge s r q).2.2.sb = s.sb := by
  have w1 := @State.setKeySlot_still; have w2 := @drawBytes_still
  unfold State.challenge; dsimp only; repeat' split
  all_goals simp [*]
theorem State.keyFail_still (s : State) (k : Nat) :
    (State.keyFail s k).pending = s.pending ∧ (State.keyFail s k).free = s.free ∧ (State.keyFail s k).host = s.host ∧
    (State.keyFail s k).epoch = s.epoch ∧ (State.keyFail s k).pat = s.pat ∧ (State.keyFail s k).isl = s.isl ∧
    (State.keyFail s k).routes = s.routes ∧ (State.keyFail s k).dramMargin = s.dramMargin ∧ (State.keyFail s k).ports = s.ports ∧
    (State.keyFail s k).trickle = s.trickle ∧ (State.keyFail s k).cmd = s.cmd ∧ (State.keyFail s k).zon = s.zon ∧
    (State.keyFail s k).med = s.med ∧ (State.keyFail s k).mlf = s.mlf ∧ (State.keyFail s k).cpx = s.cpx ∧ (State.keyFail s k).wvf = s.wvf ∧
    (State.keyFail s k).bpm = s.bpm ∧ (State.keyFail s k).sli = s.sli ∧ (State.keyFail s k).mic = s.mic ∧ (State.keyFail s k).flt = s.flt ∧
    (State.keyFail s k).ctrs = s.ctrs ∧ (State.keyFail s k).grps = s.grps ∧ (State.keyFail s k).pwr = s.pwr ∧
    (State.keyFail s k).thm = s.thm ∧ (State.keyFail s k).age = s.age ∧ (State.keyFail s k).cnv = s.cnv ∧ (State.keyFail s k).fwu = s.fwu ∧
    (State.keyFail s k).glb = s.glb ∧ (State.keyFail s k).sb = s.sb := by
  have w1 := @State.setKeySlot_still; have wi := @ite_parts
  simp [State.keyFail, w1, wi]
theorem State.openSession_still (s : State) (r : Requester) (mac : List Byte) :
    (State.openSession s r mac).2.pending = s.pending ∧ (State.openSession s r mac).2.free = s.free ∧
    (State.openSession s r mac).2.host = s.host ∧ (State.openSession s r mac).2.epoch = s.epoch ∧
    (State.openSession s r mac).2.pat = s.pat ∧ (State.openSession s r mac).2.isl = s.isl ∧
    (State.openSession s r mac).2.routes = s.routes ∧ (State.openSession s r mac).2.dramMargin = s.dramMargin ∧
    (State.openSession s r mac).2.ports = s.ports ∧ (State.openSession s r mac).2.trickle = s.trickle ∧
    (State.openSession s r mac).2.cmd = s.cmd ∧ (State.openSession s r mac).2.zon = s.zon ∧ (State.openSession s r mac).2.med = s.med ∧
    (State.openSession s r mac).2.mlf = s.mlf ∧ (State.openSession s r mac).2.cpx = s.cpx ∧ (State.openSession s r mac).2.wvf = s.wvf ∧
    (State.openSession s r mac).2.bpm = s.bpm ∧ (State.openSession s r mac).2.sli = s.sli ∧ (State.openSession s r mac).2.mic = s.mic ∧
    (State.openSession s r mac).2.flt = s.flt ∧ (State.openSession s r mac).2.ctrs = s.ctrs ∧ (State.openSession s r mac).2.grps = s.grps ∧
    (State.openSession s r mac).2.pwr = s.pwr ∧ (State.openSession s r mac).2.thm = s.thm ∧ (State.openSession s r mac).2.age = s.age ∧
    (State.openSession s r mac).2.cnv = s.cnv ∧ (State.openSession s r mac).2.fwu = s.fwu ∧ (State.openSession s r mac).2.glb = s.glb ∧
    (State.openSession s r mac).2.sb = s.sb := by
  have w1 := @State.keyFail_still; have w2 := @State.setKeySlot_still
  unfold State.openSession; dsimp only; repeat' split
  all_goals simp [*]
theorem State.closeSession_still (s : State) (r : Requester) (i : Nat) :
    (State.closeSession s r i).2.pending = s.pending ∧ (State.closeSession s r i).2.free = s.free ∧
    (State.closeSession s r i).2.host = s.host ∧ (State.closeSession s r i).2.epoch = s.epoch ∧ (State.closeSession s r i).2.pat = s.pat ∧
    (State.closeSession s r i).2.isl = s.isl ∧ (State.closeSession s r i).2.routes = s.routes ∧
    (State.closeSession s r i).2.dramMargin = s.dramMargin ∧ (State.closeSession s r i).2.ports = s.ports ∧
    (State.closeSession s r i).2.trickle = s.trickle ∧ (State.closeSession s r i).2.cmd = s.cmd ∧
    (State.closeSession s r i).2.zon = s.zon ∧ (State.closeSession s r i).2.med = s.med ∧ (State.closeSession s r i).2.mlf = s.mlf ∧
    (State.closeSession s r i).2.cpx = s.cpx ∧ (State.closeSession s r i).2.wvf = s.wvf ∧ (State.closeSession s r i).2.bpm = s.bpm ∧
    (State.closeSession s r i).2.sli = s.sli ∧ (State.closeSession s r i).2.mic = s.mic ∧ (State.closeSession s r i).2.flt = s.flt ∧
    (State.closeSession s r i).2.ctrs = s.ctrs ∧ (State.closeSession s r i).2.grps = s.grps ∧ (State.closeSession s r i).2.pwr = s.pwr ∧
    (State.closeSession s r i).2.thm = s.thm ∧ (State.closeSession s r i).2.age = s.age ∧ (State.closeSession s r i).2.cnv = s.cnv ∧
    (State.closeSession s r i).2.fwu = s.fwu ∧ (State.closeSession s r i).2.glb = s.glb ∧ (State.closeSession s r i).2.sb = s.sb := by
  unfold State.closeSession; repeat' split
  all_goals simp [*]
theorem State.sharedKeyWrite_still (s : State) (cls v : Nat) :
    (State.sharedKeyWrite s cls v).pending = s.pending ∧ (State.sharedKeyWrite s cls v).free = s.free ∧
    (State.sharedKeyWrite s cls v).host = s.host ∧ (State.sharedKeyWrite s cls v).epoch = s.epoch ∧
    (State.sharedKeyWrite s cls v).pat = s.pat ∧ (State.sharedKeyWrite s cls v).isl = s.isl ∧
    (State.sharedKeyWrite s cls v).routes = s.routes ∧ (State.sharedKeyWrite s cls v).dramMargin = s.dramMargin ∧
    (State.sharedKeyWrite s cls v).ports = s.ports ∧ (State.sharedKeyWrite s cls v).trickle = s.trickle ∧
    (State.sharedKeyWrite s cls v).cmd = s.cmd ∧ (State.sharedKeyWrite s cls v).zon = s.zon ∧ (State.sharedKeyWrite s cls v).med = s.med ∧
    (State.sharedKeyWrite s cls v).mlf = s.mlf ∧ (State.sharedKeyWrite s cls v).cpx = s.cpx ∧ (State.sharedKeyWrite s cls v).wvf = s.wvf ∧
    (State.sharedKeyWrite s cls v).bpm = s.bpm ∧ (State.sharedKeyWrite s cls v).sli = s.sli ∧ (State.sharedKeyWrite s cls v).mic = s.mic ∧
    (State.sharedKeyWrite s cls v).flt = s.flt ∧ (State.sharedKeyWrite s cls v).ctrs = s.ctrs ∧
    (State.sharedKeyWrite s cls v).grps = s.grps ∧ (State.sharedKeyWrite s cls v).pwr = s.pwr ∧
    (State.sharedKeyWrite s cls v).thm = s.thm ∧ (State.sharedKeyWrite s cls v).age = s.age ∧ (State.sharedKeyWrite s cls v).cnv = s.cnv ∧
    (State.sharedKeyWrite s cls v).fwu = s.fwu ∧ (State.sharedKeyWrite s cls v).glb = s.glb ∧ (State.sharedKeyWrite s cls v).sb = s.sb := by
  have wi := @ite_parts
  simp [State.sharedKeyWrite, wi]
theorem State.clearTrap_still (s : State) (sl : Nat) :
    (State.clearTrap s sl).pending = s.pending ∧ (State.clearTrap s sl).free = s.free ∧ (State.clearTrap s sl).host = s.host ∧
    (State.clearTrap s sl).epoch = s.epoch ∧ (State.clearTrap s sl).pat = s.pat ∧ (State.clearTrap s sl).isl = s.isl ∧
    (State.clearTrap s sl).routes = s.routes ∧ (State.clearTrap s sl).dramMargin = s.dramMargin ∧ (State.clearTrap s sl).ports = s.ports ∧
    (State.clearTrap s sl).trickle = s.trickle ∧ (State.clearTrap s sl).cmd = s.cmd ∧ (State.clearTrap s sl).zon = s.zon ∧
    (State.clearTrap s sl).med = s.med ∧ (State.clearTrap s sl).mlf = s.mlf ∧ (State.clearTrap s sl).wvf = s.wvf ∧
    (State.clearTrap s sl).bpm = s.bpm ∧ (State.clearTrap s sl).sli = s.sli ∧ (State.clearTrap s sl).sec = s.sec ∧
    (State.clearTrap s sl).mic = s.mic ∧ (State.clearTrap s sl).flt = s.flt ∧ (State.clearTrap s sl).ctrs = s.ctrs ∧
    (State.clearTrap s sl).grps = s.grps ∧ (State.clearTrap s sl).pwr = s.pwr ∧ (State.clearTrap s sl).thm = s.thm ∧
    (State.clearTrap s sl).age = s.age ∧ (State.clearTrap s sl).cnv = s.cnv ∧ (State.clearTrap s sl).fwu = s.fwu ∧
    (State.clearTrap s sl).glb = s.glb ∧ (State.clearTrap s sl).sb = s.sb := by
  simp [State.clearTrap]
theorem State.createSlice_still (s : State) (b : SliceBuf) (sl : Nat) :
    (State.createSlice s b sl).pending = s.pending ∧ (State.createSlice s b sl).free = s.free ∧ (State.createSlice s b sl).host = s.host ∧
    (State.createSlice s b sl).epoch = s.epoch ∧ (State.createSlice s b sl).pat = s.pat ∧ (State.createSlice s b sl).isl = s.isl ∧
    (State.createSlice s b sl).routes = s.routes ∧ (State.createSlice s b sl).dramMargin = s.dramMargin ∧
    (State.createSlice s b sl).ports = s.ports ∧ (State.createSlice s b sl).trickle = s.trickle ∧ (State.createSlice s b sl).cmd = s.cmd ∧
    (State.createSlice s b sl).zon = s.zon ∧ (State.createSlice s b sl).med = s.med ∧ (State.createSlice s b sl).mlf = s.mlf ∧
    (State.createSlice s b sl).wvf = s.wvf ∧ (State.createSlice s b sl).bpm = s.bpm ∧ (State.createSlice s b sl).mic = s.mic ∧
    (State.createSlice s b sl).flt = s.flt ∧ (State.createSlice s b sl).ctrs = s.ctrs ∧ (State.createSlice s b sl).grps = s.grps ∧
    (State.createSlice s b sl).pwr = s.pwr ∧ (State.createSlice s b sl).thm = s.thm ∧ (State.createSlice s b sl).age = s.age ∧
    (State.createSlice s b sl).cnv = s.cnv ∧ (State.createSlice s b sl).fwu = s.fwu ∧ (State.createSlice s b sl).glb = s.glb ∧
    (State.createSlice s b sl).sb = s.sb := by
  have w1 := @State.setSli_still; have w2 := @State.clearTrap_still; have w3 := @State.changeKey_still
  simp [State.createSlice, w1, w2, w3]
theorem State.reassignNs_still (s : State) (n t : Nat) :
    (State.reassignNs s n t).pending = s.pending ∧ (State.reassignNs s n t).free = s.free ∧ (State.reassignNs s n t).host = s.host ∧
    (State.reassignNs s n t).epoch = s.epoch ∧ (State.reassignNs s n t).pat = s.pat ∧ (State.reassignNs s n t).isl = s.isl ∧
    (State.reassignNs s n t).routes = s.routes ∧ (State.reassignNs s n t).dramMargin = s.dramMargin ∧
    (State.reassignNs s n t).ports = s.ports ∧ (State.reassignNs s n t).trickle = s.trickle ∧ (State.reassignNs s n t).med = s.med ∧
    (State.reassignNs s n t).mlf = s.mlf ∧ (State.reassignNs s n t).cpx = s.cpx ∧ (State.reassignNs s n t).wvf = s.wvf ∧
    (State.reassignNs s n t).bpm = s.bpm ∧ (State.reassignNs s n t).sli = s.sli ∧ (State.reassignNs s n t).sec = s.sec ∧
    (State.reassignNs s n t).mic = s.mic ∧ (State.reassignNs s n t).flt = s.flt ∧ (State.reassignNs s n t).ctrs = s.ctrs ∧
    (State.reassignNs s n t).grps = s.grps ∧ (State.reassignNs s n t).pwr = s.pwr ∧ (State.reassignNs s n t).thm = s.thm ∧
    (State.reassignNs s n t).age = s.age ∧ (State.reassignNs s n t).cnv = s.cnv ∧ (State.reassignNs s n t).fwu = s.fwu ∧
    (State.reassignNs s n t).glb = s.glb ∧ (State.reassignNs s n t).sb = s.sb := by
  have w1 := @State.modNs_still; have w2 := @State.modZent_still; have w3 := @State.noteNs_still; have wf := @foldl_parts
  have wi := @ite_parts
  simp [State.reassignNs, w1, w2, w3, wf, wi]
theorem State.finishRemove_still (s : State) (sl : Nat) (dest : Option Nat) :
    (State.finishRemove s sl dest).pending = s.pending ∧ (State.finishRemove s sl dest).free = s.free ∧
    (State.finishRemove s sl dest).host = s.host ∧ (State.finishRemove s sl dest).epoch = s.epoch ∧
    (State.finishRemove s sl dest).pat = s.pat ∧ (State.finishRemove s sl dest).isl = s.isl ∧
    (State.finishRemove s sl dest).routes = s.routes ∧ (State.finishRemove s sl dest).dramMargin = s.dramMargin ∧
    (State.finishRemove s sl dest).ports = s.ports ∧ (State.finishRemove s sl dest).trickle = s.trickle ∧
    (State.finishRemove s sl dest).cpx = s.cpx ∧ (State.finishRemove s sl dest).wvf = s.wvf ∧ (State.finishRemove s sl dest).bpm = s.bpm ∧
    (State.finishRemove s sl dest).mic = s.mic ∧ (State.finishRemove s sl dest).flt = s.flt ∧
    (State.finishRemove s sl dest).ctrs = s.ctrs ∧ (State.finishRemove s sl dest).grps = s.grps ∧
    (State.finishRemove s sl dest).pwr = s.pwr ∧ (State.finishRemove s sl dest).thm = s.thm ∧ (State.finishRemove s sl dest).age = s.age ∧
    (State.finishRemove s sl dest).cnv = s.cnv ∧ (State.finishRemove s sl dest).fwu = s.fwu ∧ (State.finishRemove s sl dest).glb = s.glb ∧
    (State.finishRemove s sl dest).sb = s.sb := by
  have wf := @foldl_parts
  have w1 := @State.changeKey_still; have w2 := @State.deleteNs_still; have w3 := @State.endSessions_still
  have w4 := @State.modNs_still; have w5 := @State.noteNs_still; have w6 := @State.reassignNs_still
  have w7 := @State.setSli_still
  unfold State.finishRemove; repeat' split
  all_goals simp [*]
theorem State.completeReset_still (s : State) (sl : Nat) :
    (State.completeReset s sl).pending = s.pending ∧ (State.completeReset s sl).free = s.free ∧
    (State.completeReset s sl).epoch = s.epoch ∧ (State.completeReset s sl).pat = s.pat ∧ (State.completeReset s sl).isl = s.isl ∧
    (State.completeReset s sl).routes = s.routes ∧ (State.completeReset s sl).dramMargin = s.dramMargin ∧
    (State.completeReset s sl).trickle = s.trickle ∧ (State.completeReset s sl).wvf = s.wvf ∧ (State.completeReset s sl).ctrs = s.ctrs ∧
    (State.completeReset s sl).grps = s.grps ∧ (State.completeReset s sl).pwr = s.pwr ∧ (State.completeReset s sl).thm = s.thm ∧
    (State.completeReset s sl).age = s.age ∧ (State.completeReset s sl).cnv = s.cnv ∧ (State.completeReset s sl).fwu = s.fwu ∧
    (State.completeReset s sl).glb = s.glb := by
  have w1 := @State.finishRemove_still; have w2 := @State.answerReset_still; have w3 := @State.endReset_still
  have wf := @foldl_parts; have wi := @ite_parts
  simp [State.completeReset, w1, w2, w3, wf, wi]
theorem State.isolateLate_still (s : State) (slice isl unit : Nat) :
    (State.isolateLate s slice isl unit).pending = s.pending ∧ (State.isolateLate s slice isl unit).epoch = s.epoch ∧
    (State.isolateLate s slice isl unit).dramMargin = s.dramMargin ∧ (State.isolateLate s slice isl unit).sec = s.sec ∧
    (State.isolateLate s slice isl unit).ctrs = s.ctrs ∧ (State.isolateLate s slice isl unit).grps = s.grps ∧
    (State.isolateLate s slice isl unit).thm = s.thm ∧ (State.isolateLate s slice isl unit).age = s.age ∧
    (State.isolateLate s slice isl unit).cnv = s.cnv ∧ (State.isolateLate s slice isl unit).glb = s.glb := by
  have w1 := @State.modSli_still; have w2 := @State.isolateUnit_still; have w3 := @State.queueFault_still; have wi := @ite_parts
  simp [State.isolateLate, w1, w2, w3, wi]
theorem State.makeAdminQueue_still (s : State) (port slice : Nat) :
    (State.makeAdminQueue s port slice).pending = s.pending ∧ (State.makeAdminQueue s port slice).free = s.free ∧
    (State.makeAdminQueue s port slice).host = s.host ∧ (State.makeAdminQueue s port slice).epoch = s.epoch ∧
    (State.makeAdminQueue s port slice).pat = s.pat ∧ (State.makeAdminQueue s port slice).isl = s.isl ∧
    (State.makeAdminQueue s port slice).routes = s.routes ∧ (State.makeAdminQueue s port slice).dramMargin = s.dramMargin ∧
    (State.makeAdminQueue s port slice).ports = s.ports ∧ (State.makeAdminQueue s port slice).trickle = s.trickle ∧
    (State.makeAdminQueue s port slice).zon = s.zon ∧ (State.makeAdminQueue s port slice).med = s.med ∧
    (State.makeAdminQueue s port slice).mlf = s.mlf ∧ (State.makeAdminQueue s port slice).cpx = s.cpx ∧
    (State.makeAdminQueue s port slice).wvf = s.wvf ∧ (State.makeAdminQueue s port slice).bpm = s.bpm ∧
    (State.makeAdminQueue s port slice).sli = s.sli ∧ (State.makeAdminQueue s port slice).sec = s.sec ∧
    (State.makeAdminQueue s port slice).mic = s.mic ∧ (State.makeAdminQueue s port slice).flt = s.flt ∧
    (State.makeAdminQueue s port slice).ctrs = s.ctrs ∧ (State.makeAdminQueue s port slice).grps = s.grps ∧
    (State.makeAdminQueue s port slice).pwr = s.pwr ∧ (State.makeAdminQueue s port slice).thm = s.thm ∧
    (State.makeAdminQueue s port slice).age = s.age ∧ (State.makeAdminQueue s port slice).cnv = s.cnv ∧
    (State.makeAdminQueue s port slice).fwu = s.fwu ∧ (State.makeAdminQueue s port slice).glb = s.glb ∧
    (State.makeAdminQueue s port slice).sb = s.sb := by
  have w1 := @State.bumpQ_still; have w2 := @State.setQueue_still
  simp [State.makeAdminQueue, w1, w2]
theorem State.enableCtrl_still (s : State) (port slice : Nat) (crime : Bool) :
    (State.enableCtrl s port slice crime).pending = s.pending ∧ (State.enableCtrl s port slice crime).free = s.free ∧
    (State.enableCtrl s port slice crime).host = s.host ∧ (State.enableCtrl s port slice crime).epoch = s.epoch ∧
    (State.enableCtrl s port slice crime).pat = s.pat ∧ (State.enableCtrl s port slice crime).isl = s.isl ∧
    (State.enableCtrl s port slice crime).routes = s.routes ∧ (State.enableCtrl s port slice crime).dramMargin = s.dramMargin ∧
    (State.enableCtrl s port slice crime).ports = s.ports ∧ (State.enableCtrl s port slice crime).trickle = s.trickle ∧
    (State.enableCtrl s port slice crime).zon = s.zon ∧ (State.enableCtrl s port slice crime).med = s.med ∧
    (State.enableCtrl s port slice crime).mlf = s.mlf ∧ (State.enableCtrl s port slice crime).cpx = s.cpx ∧
    (State.enableCtrl s port slice crime).wvf = s.wvf ∧ (State.enableCtrl s port slice crime).bpm = s.bpm ∧
    (State.enableCtrl s port slice crime).mic = s.mic ∧ (State.enableCtrl s port slice crime).flt = s.flt ∧
    (State.enableCtrl s port slice crime).ctrs = s.ctrs ∧ (State.enableCtrl s port slice crime).grps = s.grps ∧
    (State.enableCtrl s port slice crime).pwr = s.pwr ∧ (State.enableCtrl s port slice crime).thm = s.thm ∧
    (State.enableCtrl s port slice crime).age = s.age ∧ (State.enableCtrl s port slice crime).cnv = s.cnv ∧
    (State.enableCtrl s port slice crime).fwu = s.fwu ∧ (State.enableCtrl s port slice crime).glb = s.glb ∧
    (State.enableCtrl s port slice crime).sb = s.sb := by
  have w1 := @State.modCtrl_still; have w2 := @State.modSli_still; have w3 := @State.makeAdminQueue_still; have wi := @ite_parts
  simp [State.enableCtrl, w1, w2, w3, wi]
theorem State.disableCtrl_still (s : State) (port slice : Nat) :
    (State.disableCtrl s port slice).pending = s.pending ∧ (State.disableCtrl s port slice).epoch = s.epoch ∧
    (State.disableCtrl s port slice).dramMargin = s.dramMargin ∧ (State.disableCtrl s port slice).ports = s.ports ∧
    (State.disableCtrl s port slice).trickle = s.trickle ∧ (State.disableCtrl s port slice).sec = s.sec ∧
    (State.disableCtrl s port slice).ctrs = s.ctrs ∧ (State.disableCtrl s port slice).grps = s.grps ∧
    (State.disableCtrl s port slice).thm = s.thm ∧ (State.disableCtrl s port slice).age = s.age ∧
    (State.disableCtrl s port slice).cnv = s.cnv ∧ (State.disableCtrl s port slice).glb = s.glb := by
  have w1 := @State.startReset_still; have wi := @ite_parts
  simp [State.disableCtrl, w1, wi]
theorem State.shutCheck_still (s : State) (k : Nat) :
    (State.shutCheck s k).pending = s.pending ∧ (State.shutCheck s k).free = s.free ∧ (State.shutCheck s k).host = s.host ∧
    (State.shutCheck s k).epoch = s.epoch ∧ (State.shutCheck s k).pat = s.pat ∧ (State.shutCheck s k).isl = s.isl ∧
    (State.shutCheck s k).routes = s.routes ∧ (State.shutCheck s k).dramMargin = s.dramMargin ∧ (State.shutCheck s k).ports = s.ports ∧
    (State.shutCheck s k).trickle = s.trickle ∧ (State.shutCheck s k).med = s.med ∧ (State.shutCheck s k).mlf = s.mlf ∧
    (State.shutCheck s k).cpx = s.cpx ∧ (State.shutCheck s k).wvf = s.wvf ∧ (State.shutCheck s k).bpm = s.bpm ∧
    (State.shutCheck s k).sli = s.sli ∧ (State.shutCheck s k).sec = s.sec ∧ (State.shutCheck s k).mic = s.mic ∧
    (State.shutCheck s k).flt = s.flt ∧ (State.shutCheck s k).ctrs = s.ctrs ∧ (State.shutCheck s k).grps = s.grps ∧
    (State.shutCheck s k).pwr = s.pwr ∧ (State.shutCheck s k).thm = s.thm ∧ (State.shutCheck s k).age = s.age ∧
    (State.shutCheck s k).cnv = s.cnv ∧ (State.shutCheck s k).fwu = s.fwu ∧ (State.shutCheck s k).glb = s.glb ∧
    (State.shutCheck s k).sb = s.sb := by
  have w1 := @State.setCtrl_still; have w2 := @State.recordNs_still; have wf := @foldl_parts
  have wi := @ite_parts
  simp [State.shutCheck, w1, w2, wf, wi]
theorem State.shutCheckAll_still (s : State) :
    (State.shutCheckAll s).pending = s.pending ∧ (State.shutCheckAll s).free = s.free ∧ (State.shutCheckAll s).host = s.host ∧
    (State.shutCheckAll s).epoch = s.epoch ∧ (State.shutCheckAll s).pat = s.pat ∧ (State.shutCheckAll s).isl = s.isl ∧
    (State.shutCheckAll s).routes = s.routes ∧ (State.shutCheckAll s).dramMargin = s.dramMargin ∧ (State.shutCheckAll s).ports = s.ports ∧
    (State.shutCheckAll s).trickle = s.trickle ∧ (State.shutCheckAll s).med = s.med ∧ (State.shutCheckAll s).mlf = s.mlf ∧
    (State.shutCheckAll s).cpx = s.cpx ∧ (State.shutCheckAll s).wvf = s.wvf ∧ (State.shutCheckAll s).bpm = s.bpm ∧
    (State.shutCheckAll s).sli = s.sli ∧ (State.shutCheckAll s).sec = s.sec ∧ (State.shutCheckAll s).mic = s.mic ∧
    (State.shutCheckAll s).flt = s.flt ∧ (State.shutCheckAll s).ctrs = s.ctrs ∧ (State.shutCheckAll s).grps = s.grps ∧
    (State.shutCheckAll s).pwr = s.pwr ∧ (State.shutCheckAll s).thm = s.thm ∧ (State.shutCheckAll s).age = s.age ∧
    (State.shutCheckAll s).cnv = s.cnv ∧ (State.shutCheckAll s).fwu = s.fwu ∧ (State.shutCheckAll s).glb = s.glb ∧
    (State.shutCheckAll s).sb = s.sb := by
  have w1 := @State.shutCheck_still; have wf := @foldl_parts
  simp [State.shutCheckAll, w1, wf]
theorem State.notifyShutdown_still (s : State) (port slice : Nat) :
    (State.notifyShutdown s port slice).pending = s.pending ∧ (State.notifyShutdown s port slice).free = s.free ∧
    (State.notifyShutdown s port slice).host = s.host ∧ (State.notifyShutdown s port slice).epoch = s.epoch ∧
    (State.notifyShutdown s port slice).pat = s.pat ∧ (State.notifyShutdown s port slice).isl = s.isl ∧
    (State.notifyShutdown s port slice).routes = s.routes ∧ (State.notifyShutdown s port slice).dramMargin = s.dramMargin ∧
    (State.notifyShutdown s port slice).ports = s.ports ∧ (State.notifyShutdown s port slice).trickle = s.trickle ∧
    (State.notifyShutdown s port slice).mlf = s.mlf ∧ (State.notifyShutdown s port slice).cpx = s.cpx ∧
    (State.notifyShutdown s port slice).wvf = s.wvf ∧ (State.notifyShutdown s port slice).bpm = s.bpm ∧
    (State.notifyShutdown s port slice).sli = s.sli ∧ (State.notifyShutdown s port slice).sec = s.sec ∧
    (State.notifyShutdown s port slice).mic = s.mic ∧ (State.notifyShutdown s port slice).flt = s.flt ∧
    (State.notifyShutdown s port slice).ctrs = s.ctrs ∧ (State.notifyShutdown s port slice).grps = s.grps ∧
    (State.notifyShutdown s port slice).pwr = s.pwr ∧ (State.notifyShutdown s port slice).thm = s.thm ∧
    (State.notifyShutdown s port slice).age = s.age ∧ (State.notifyShutdown s port slice).cnv = s.cnv ∧
    (State.notifyShutdown s port slice).fwu = s.fwu ∧ (State.notifyShutdown s port slice).glb = s.glb ∧
    (State.notifyShutdown s port slice).sb = s.sb := by
  have w1 := @State.saveWear_still; have w2 := @State.landUnits_still; have w3 := @State.modCtrl_still
  have w4 := @State.shutCheck_still; have wi := @ite_parts
  simp [State.notifyShutdown, w1, w2, w3, w4, wi]
theorem State.mbPop_still (s : State) (sl : Nat) :
    (State.mbPop s sl).pending = s.pending ∧ (State.mbPop s sl).free = s.free ∧ (State.mbPop s sl).host = s.host ∧
    (State.mbPop s sl).epoch = s.epoch ∧ (State.mbPop s sl).pat = s.pat ∧ (State.mbPop s sl).isl = s.isl ∧
    (State.mbPop s sl).routes = s.routes ∧ (State.mbPop s sl).dramMargin = s.dramMargin ∧ (State.mbPop s sl).ports = s.ports ∧
    (State.mbPop s sl).trickle = s.trickle ∧ (State.mbPop s sl).cmd = s.cmd ∧ (State.mbPop s sl).zon = s.zon ∧
    (State.mbPop s sl).med = s.med ∧ (State.mbPop s sl).mlf = s.mlf ∧ (State.mbPop s sl).cpx = s.cpx ∧ (State.mbPop s sl).wvf = s.wvf ∧
    (State.mbPop s sl).bpm = s.bpm ∧ (State.mbPop s sl).sec = s.sec ∧ (State.mbPop s sl).mic = s.mic ∧ (State.mbPop s sl).flt = s.flt ∧
    (State.mbPop s sl).ctrs = s.ctrs ∧ (State.mbPop s sl).grps = s.grps ∧ (State.mbPop s sl).pwr = s.pwr ∧ (State.mbPop s sl).thm = s.thm ∧
    (State.mbPop s sl).age = s.age ∧ (State.mbPop s sl).cnv = s.cnv ∧ (State.mbPop s sl).fwu = s.fwu ∧ (State.mbPop s sl).glb = s.glb ∧
    (State.mbPop s sl).sb = s.sb := by
  have w1 := @State.modSli_still
  simp [State.mbPop, w1]
theorem State.mbSend_still (s : State) (slice port send : Nat) :
    (State.mbSend s slice port send).pending = s.pending ∧ (State.mbSend s slice port send).free = s.free ∧
    (State.mbSend s slice port send).epoch = s.epoch ∧ (State.mbSend s slice port send).pat = s.pat ∧
    (State.mbSend s slice port send).routes = s.routes ∧ (State.mbSend s slice port send).dramMargin = s.dramMargin ∧
    (State.mbSend s slice port send).trickle = s.trickle ∧ (State.mbSend s slice port send).cmd = s.cmd ∧
    (State.mbSend s slice port send).zon = s.zon ∧ (State.mbSend s slice port send).med = s.med ∧
    (State.mbSend s slice port send).mlf = s.mlf ∧ (State.mbSend s slice port send).cpx = s.cpx ∧
    (State.mbSend s slice port send).wvf = s.wvf ∧ (State.mbSend s slice port send).bpm = s.bpm ∧
    (State.mbSend s slice port send).sec = s.sec ∧ (State.mbSend s slice port send).mic = s.mic ∧
    (State.mbSend s slice port send).flt = s.flt ∧ (State.mbSend s slice port send).ctrs = s.ctrs ∧
    (State.mbSend s slice port send).grps = s.grps ∧ (State.mbSend s slice port send).thm = s.thm ∧
    (State.mbSend s slice port send).age = s.age ∧ (State.mbSend s slice port send).cnv = s.cnv ∧
    (State.mbSend s slice port send).fwu = s.fwu ∧ (State.mbSend s slice port send).glb = s.glb ∧
    (State.mbSend s slice port send).sb = s.sb := by
  have w1 := @State.access_still; have w2 := @State.setSli_still; have w3 := @State.modSli_still; have w4 := @State.mbReply_still
  have wi := @ite_parts
  simp [State.mbSend, w1, w2, w3, w4, wi]
theorem State.mbAck_still (s : State) (slice ack : Nat) :
    (State.mbAck s slice ack).pending = s.pending ∧ (State.mbAck s slice ack).free = s.free ∧ (State.mbAck s slice ack).epoch = s.epoch ∧
    (State.mbAck s slice ack).pat = s.pat ∧ (State.mbAck s slice ack).isl = s.isl ∧ (State.mbAck s slice ack).routes = s.routes ∧
    (State.mbAck s slice ack).dramMargin = s.dramMargin ∧ (State.mbAck s slice ack).trickle = s.trickle ∧
    (State.mbAck s slice ack).cmd = s.cmd ∧ (State.mbAck s slice ack).zon = s.zon ∧ (State.mbAck s slice ack).med = s.med ∧
    (State.mbAck s slice ack).mlf = s.mlf ∧ (State.mbAck s slice ack).cpx = s.cpx ∧ (State.mbAck s slice ack).wvf = s.wvf ∧
    (State.mbAck s slice ack).bpm = s.bpm ∧ (State.mbAck s slice ack).sec = s.sec ∧ (State.mbAck s slice ack).mic = s.mic ∧
    (State.mbAck s slice ack).flt = s.flt ∧ (State.mbAck s slice ack).ctrs = s.ctrs ∧ (State.mbAck s slice ack).grps = s.grps ∧
    (State.mbAck s slice ack).pwr = s.pwr ∧ (State.mbAck s slice ack).thm = s.thm ∧ (State.mbAck s slice ack).age = s.age ∧
    (State.mbAck s slice ack).cnv = s.cnv ∧ (State.mbAck s slice ack).fwu = s.fwu ∧ (State.mbAck s slice ack).glb = s.glb ∧
    (State.mbAck s slice ack).sb = s.sb := by
  have w1 := @State.mailboxIrq_still; have w2 := @State.setSli_still
  unfold State.mbAck; dsimp only; repeat' split
  all_goals simp [*]
theorem State.mgrPasidWrite_still (s : State) (p v : Nat) :
    (State.mgrPasidWrite s p v).pending = s.pending ∧ (State.mgrPasidWrite s p v).free = s.free ∧
    (State.mgrPasidWrite s p v).host = s.host ∧ (State.mgrPasidWrite s p v).epoch = s.epoch ∧ (State.mgrPasidWrite s p v).pat = s.pat ∧
    (State.mgrPasidWrite s p v).isl = s.isl ∧ (State.mgrPasidWrite s p v).routes = s.routes ∧
    (State.mgrPasidWrite s p v).dramMargin = s.dramMargin ∧ (State.mgrPasidWrite s p v).ports = s.ports ∧
    (State.mgrPasidWrite s p v).trickle = s.trickle ∧ (State.mgrPasidWrite s p v).cmd = s.cmd ∧ (State.mgrPasidWrite s p v).zon = s.zon ∧
    (State.mgrPasidWrite s p v).med = s.med ∧ (State.mgrPasidWrite s p v).mlf = s.mlf ∧ (State.mgrPasidWrite s p v).cpx = s.cpx ∧
    (State.mgrPasidWrite s p v).wvf = s.wvf ∧ (State.mgrPasidWrite s p v).bpm = s.bpm ∧ (State.mgrPasidWrite s p v).sli = s.sli ∧
    (State.mgrPasidWrite s p v).mic = s.mic ∧ (State.mgrPasidWrite s p v).flt = s.flt ∧ (State.mgrPasidWrite s p v).ctrs = s.ctrs ∧
    (State.mgrPasidWrite s p v).grps = s.grps ∧ (State.mgrPasidWrite s p v).pwr = s.pwr ∧ (State.mgrPasidWrite s p v).thm = s.thm ∧
    (State.mgrPasidWrite s p v).age = s.age ∧ (State.mgrPasidWrite s p v).cnv = s.cnv ∧ (State.mgrPasidWrite s p v).fwu = s.fwu ∧
    (State.mgrPasidWrite s p v).glb = s.glb ∧ (State.mgrPasidWrite s p v).sb = s.sb := by
  have wi := @ite_parts
  simp [State.mgrPasidWrite, wi]
theorem State.deliverDb_still (s : State) (p : Nat) :
    (State.deliverDb s p).pending = s.pending ∧ (State.deliverDb s p).free = s.free ∧ (State.deliverDb s p).host = s.host ∧
    (State.deliverDb s p).epoch = s.epoch ∧ (State.deliverDb s p).pat = s.pat ∧ (State.deliverDb s p).isl = s.isl ∧
    (State.deliverDb s p).routes = s.routes ∧ (State.deliverDb s p).dramMargin = s.dramMargin ∧ (State.deliverDb s p).trickle = s.trickle ∧
    (State.deliverDb s p).zon = s.zon ∧ (State.deliverDb s p).med = s.med ∧ (State.deliverDb s p).mlf = s.mlf ∧
    (State.deliverDb s p).cpx = s.cpx ∧ (State.deliverDb s p).wvf = s.wvf ∧ (State.deliverDb s p).bpm = s.bpm ∧
    (State.deliverDb s p).sli = s.sli ∧ (State.deliverDb s p).sec = s.sec ∧ (State.deliverDb s p).mic = s.mic ∧
    (State.deliverDb s p).flt = s.flt ∧ (State.deliverDb s p).ctrs = s.ctrs ∧ (State.deliverDb s p).grps = s.grps ∧
    (State.deliverDb s p).pwr = s.pwr ∧ (State.deliverDb s p).thm = s.thm ∧ (State.deliverDb s p).age = s.age ∧
    (State.deliverDb s p).cnv = s.cnv ∧ (State.deliverDb s p).fwu = s.fwu ∧ (State.deliverDb s p).glb = s.glb ∧
    (State.deliverDb s p).sb = s.sb := by
  have w1 := @State.ringDoorbell_still; have w2 := @State.modPort_still; have wf := @foldl_parts
  simp [State.deliverDb, w1, w2, wf]
theorem State.setTrickle_still (s : State) (st : Nat) (act : WsAct) :
    (State.setTrickle s st act).pending = s.pending ∧ (State.setTrickle s st act).free = s.free ∧
    (State.setTrickle s st act).host = s.host ∧ (State.setTrickle s st act).epoch = s.epoch ∧ (State.setTrickle s st act).pat = s.pat ∧
    (State.setTrickle s st act).isl = s.isl ∧ (State.setTrickle s st act).routes = s.routes ∧
    (State.setTrickle s st act).dramMargin = s.dramMargin ∧ (State.setTrickle s st act).ports = s.ports ∧
    (State.setTrickle s st act).cmd = s.cmd ∧ (State.setTrickle s st act).zon = s.zon ∧ (State.setTrickle s st act).med = s.med ∧
    (State.setTrickle s st act).mlf = s.mlf ∧ (State.setTrickle s st act).cpx = s.cpx ∧ (State.setTrickle s st act).wvf = s.wvf ∧
    (State.setTrickle s st act).bpm = s.bpm ∧ (State.setTrickle s st act).sli = s.sli ∧ (State.setTrickle s st act).sec = s.sec ∧
    (State.setTrickle s st act).mic = s.mic ∧ (State.setTrickle s st act).flt = s.flt ∧ (State.setTrickle s st act).ctrs = s.ctrs ∧
    (State.setTrickle s st act).grps = s.grps ∧ (State.setTrickle s st act).pwr = s.pwr ∧ (State.setTrickle s st act).thm = s.thm ∧
    (State.setTrickle s st act).age = s.age ∧ (State.setTrickle s st act).cnv = s.cnv ∧ (State.setTrickle s st act).fwu = s.fwu ∧
    (State.setTrickle s st act).glb = s.glb ∧ (State.setTrickle s st act).sb = s.sb := by
  simp [State.setTrickle]
theorem State.trickleIn_still (s : State) (port : Nat) (answered : Bool) :
    (State.trickleIn s port answered).pending = s.pending ∧ (State.trickleIn s port answered).free = s.free ∧
    (State.trickleIn s port answered).host = s.host ∧ (State.trickleIn s port answered).epoch = s.epoch ∧
    (State.trickleIn s port answered).pat = s.pat ∧ (State.trickleIn s port answered).isl = s.isl ∧
    (State.trickleIn s port answered).routes = s.routes ∧ (State.trickleIn s port answered).dramMargin = s.dramMargin ∧
    (State.trickleIn s port answered).cmd = s.cmd ∧ (State.trickleIn s port answered).zon = s.zon ∧
    (State.trickleIn s port answered).med = s.med ∧ (State.trickleIn s port answered).mlf = s.mlf ∧
    (State.trickleIn s port answered).cpx = s.cpx ∧ (State.trickleIn s port answered).wvf = s.wvf ∧
    (State.trickleIn s port answered).bpm = s.bpm ∧ (State.trickleIn s port answered).sli = s.sli ∧
    (State.trickleIn s port answered).sec = s.sec ∧ (State.trickleIn s port answered).mic = s.mic ∧
    (State.trickleIn s port answered).flt = s.flt ∧ (State.trickleIn s port answered).ctrs = s.ctrs ∧
    (State.trickleIn s port answered).grps = s.grps ∧ (State.trickleIn s port answered).pwr = s.pwr ∧
    (State.trickleIn s port answered).thm = s.thm ∧ (State.trickleIn s port answered).age = s.age ∧
    (State.trickleIn s port answered).cnv = s.cnv ∧ (State.trickleIn s port answered).fwu = s.fwu ∧
    (State.trickleIn s port answered).glb = s.glb ∧ (State.trickleIn s port answered).sb = s.sb := by
  have w1 := @State.setTrickle_still; have w2 := @State.modPort_still; have wi := @ite_parts
  simp [State.trickleIn, w1, w2, wi]
theorem State.trickleLeave_still (s : State) :
    (State.trickleLeave s).pending = s.pending ∧ (State.trickleLeave s).free = s.free ∧ (State.trickleLeave s).host = s.host ∧
    (State.trickleLeave s).epoch = s.epoch ∧ (State.trickleLeave s).pat = s.pat ∧ (State.trickleLeave s).routes = s.routes ∧
    (State.trickleLeave s).dramMargin = s.dramMargin ∧ (State.trickleLeave s).cmd = s.cmd ∧ (State.trickleLeave s).zon = s.zon ∧
    (State.trickleLeave s).med = s.med ∧ (State.trickleLeave s).mlf = s.mlf ∧ (State.trickleLeave s).cpx = s.cpx ∧
    (State.trickleLeave s).wvf = s.wvf ∧ (State.trickleLeave s).bpm = s.bpm ∧ (State.trickleLeave s).sli = s.sli ∧
    (State.trickleLeave s).sec = s.sec ∧ (State.trickleLeave s).mic = s.mic ∧ (State.trickleLeave s).flt = s.flt ∧
    (State.trickleLeave s).ctrs = s.ctrs ∧ (State.trickleLeave s).grps = s.grps ∧ (State.trickleLeave s).thm = s.thm ∧
    (State.trickleLeave s).age = s.age ∧ (State.trickleLeave s).cnv = s.cnv ∧ (State.trickleLeave s).fwu = s.fwu ∧
    (State.trickleLeave s).glb = s.glb ∧ (State.trickleLeave s).sb = s.sb := by
  have w1 := @State.trickleOut_still; have wi := @ite_parts
  simp [State.trickleLeave, w1, wi]
theorem State.detachWrite_still (s : State) (p v : Nat) :
    (State.detachWrite s p v).pending = s.pending ∧ (State.detachWrite s p v).free = s.free ∧ (State.detachWrite s p v).host = s.host ∧
    (State.detachWrite s p v).epoch = s.epoch ∧ (State.detachWrite s p v).pat = s.pat ∧ (State.detachWrite s p v).isl = s.isl ∧
    (State.detachWrite s p v).routes = s.routes ∧ (State.detachWrite s p v).dramMargin = s.dramMargin ∧
    (State.detachWrite s p v).trickle = s.trickle ∧ (State.detachWrite s p v).cmd = s.cmd ∧ (State.detachWrite s p v).zon = s.zon ∧
    (State.detachWrite s p v).med = s.med ∧ (State.detachWrite s p v).mlf = s.mlf ∧ (State.detachWrite s p v).cpx = s.cpx ∧
    (State.detachWrite s p v).wvf = s.wvf ∧ (State.detachWrite s p v).bpm = s.bpm ∧ (State.detachWrite s p v).sli = s.sli ∧
    (State.detachWrite s p v).sec = s.sec ∧ (State.detachWrite s p v).mic = s.mic ∧ (State.detachWrite s p v).flt = s.flt ∧
    (State.detachWrite s p v).ctrs = s.ctrs ∧ (State.detachWrite s p v).grps = s.grps ∧ (State.detachWrite s p v).pwr = s.pwr ∧
    (State.detachWrite s p v).thm = s.thm ∧ (State.detachWrite s p v).age = s.age ∧ (State.detachWrite s p v).cnv = s.cnv ∧
    (State.detachWrite s p v).fwu = s.fwu ∧ (State.detachWrite s p v).glb = s.glb ∧ (State.detachWrite s p v).sb = s.sb := by
  have w1 := @State.setPort_still; have wi := @ite_parts
  simp [State.detachWrite, w1, wi]
theorem State.closeCtrl_still (s : State) (p sl : Nat) :
    (State.closeCtrl s p sl).pending = s.pending ∧ (State.closeCtrl s p sl).free = s.free ∧ (State.closeCtrl s p sl).host = s.host ∧
    (State.closeCtrl s p sl).epoch = s.epoch ∧ (State.closeCtrl s p sl).pat = s.pat ∧ (State.closeCtrl s p sl).isl = s.isl ∧
    (State.closeCtrl s p sl).routes = s.routes ∧ (State.closeCtrl s p sl).dramMargin = s.dramMargin ∧
    (State.closeCtrl s p sl).ports = s.ports ∧ (State.closeCtrl s p sl).trickle = s.trickle ∧ (State.closeCtrl s p sl).zon = s.zon ∧
    (State.closeCtrl s p sl).med = s.med ∧ (State.closeCtrl s p sl).mlf = s.mlf ∧ (State.closeCtrl s p sl).cpx = s.cpx ∧
    (State.closeCtrl s p sl).wvf = s.wvf ∧ (State.closeCtrl s p sl).bpm = s.bpm ∧ (State.closeCtrl s p sl).sec = s.sec ∧
    (State.closeCtrl s p sl).mic = s.mic ∧ (State.closeCtrl s p sl).flt = s.flt ∧ (State.closeCtrl s p sl).ctrs = s.ctrs ∧
    (State.closeCtrl s p sl).grps = s.grps ∧ (State.closeCtrl s p sl).pwr = s.pwr ∧ (State.closeCtrl s p sl).thm = s.thm ∧
    (State.closeCtrl s p sl).age = s.age ∧ (State.closeCtrl s p sl).cnv = s.cnv ∧ (State.closeCtrl s p sl).fwu = s.fwu ∧
    (State.closeCtrl s p sl).glb = s.glb ∧ (State.closeCtrl s p sl).sb = s.sb := by
  have w1 := @State.deleteQueues_still; have w2 := @State.setCtrl_still; have w3 := @State.endHalts_still
  have w4 := @State.modSli_still
  simp [State.closeCtrl, w1, w2, w3, w4]
theorem State.endTrickle_still (s : State) (p : Nat) :
    (State.endTrickle s p).pending = s.pending ∧ (State.endTrickle s p).free = s.free ∧ (State.endTrickle s p).host = s.host ∧
    (State.endTrickle s p).epoch = s.epoch ∧ (State.endTrickle s p).pat = s.pat ∧ (State.endTrickle s p).isl = s.isl ∧
    (State.endTrickle s p).routes = s.routes ∧ (State.endTrickle s p).dramMargin = s.dramMargin ∧ (State.endTrickle s p).ports = s.ports ∧
    (State.endTrickle s p).zon = s.zon ∧ (State.endTrickle s p).med = s.med ∧ (State.endTrickle s p).mlf = s.mlf ∧
    (State.endTrickle s p).cpx = s.cpx ∧ (State.endTrickle s p).wvf = s.wvf ∧ (State.endTrickle s p).bpm = s.bpm ∧
    (State.endTrickle s p).sli = s.sli ∧ (State.endTrickle s p).sec = s.sec ∧ (State.endTrickle s p).mic = s.mic ∧
    (State.endTrickle s p).flt = s.flt ∧ (State.endTrickle s p).ctrs = s.ctrs ∧ (State.endTrickle s p).grps = s.grps ∧
    (State.endTrickle s p).pwr = s.pwr ∧ (State.endTrickle s p).thm = s.thm ∧ (State.endTrickle s p).age = s.age ∧
    (State.endTrickle s p).cnv = s.cnv ∧ (State.endTrickle s p).fwu = s.fwu ∧ (State.endTrickle s p).glb = s.glb ∧
    (State.endTrickle s p).sb = s.sb := by
  have wi := @ite_parts
  simp [State.endTrickle, wi]
theorem State.beat_still (s : State) (p via v : Nat) :
    (State.beat s p via v).pending = s.pending ∧ (State.beat s p via v).free = s.free ∧ (State.beat s p via v).host = s.host ∧
    (State.beat s p via v).epoch = s.epoch ∧ (State.beat s p via v).pat = s.pat ∧ (State.beat s p via v).isl = s.isl ∧
    (State.beat s p via v).routes = s.routes ∧ (State.beat s p via v).dramMargin = s.dramMargin ∧
    (State.beat s p via v).trickle = s.trickle ∧ (State.beat s p via v).cmd = s.cmd ∧ (State.beat s p via v).zon = s.zon ∧
    (State.beat s p via v).med = s.med ∧ (State.beat s p via v).mlf = s.mlf ∧ (State.beat s p via v).cpx = s.cpx ∧
    (State.beat s p via v).wvf = s.wvf ∧ (State.beat s p via v).bpm = s.bpm ∧ (State.beat s p via v).sli = s.sli ∧
    (State.beat s p via v).sec = s.sec ∧ (State.beat s p via v).mic = s.mic ∧ (State.beat s p via v).flt = s.flt ∧
    (State.beat s p via v).ctrs = s.ctrs ∧ (State.beat s p via v).grps = s.grps ∧ (State.beat s p via v).pwr = s.pwr ∧
    (State.beat s p via v).thm = s.thm ∧ (State.beat s p via v).age = s.age ∧ (State.beat s p via v).cnv = s.cnv ∧
    (State.beat s p via v).fwu = s.fwu ∧ (State.beat s p via v).glb = s.glb ∧ (State.beat s p via v).sb = s.sb := by
  have w1 := @State.modPort_still; have wi := @ite_parts
  simp [State.beat, w1, wi]
theorem State.bar2Write_still (s : State) (p i : Nat) (en : Bool) (slice handle base len : Nat) :
    (State.bar2Write s p i en slice handle base len).pending = s.pending ∧ (State.bar2Write s p i en slice handle base len).free = s.free ∧
    (State.bar2Write s p i en slice handle base len).host = s.host ∧ (State.bar2Write s p i en slice handle base len).epoch = s.epoch ∧
    (State.bar2Write s p i en slice handle base len).pat = s.pat ∧ (State.bar2Write s p i en slice handle base len).isl = s.isl ∧
    (State.bar2Write s p i en slice handle base len).routes = s.routes ∧
    (State.bar2Write s p i en slice handle base len).dramMargin = s.dramMargin ∧
    (State.bar2Write s p i en slice handle base len).trickle = s.trickle ∧ (State.bar2Write s p i en slice handle base len).cmd = s.cmd ∧
    (State.bar2Write s p i en slice handle base len).zon = s.zon ∧ (State.bar2Write s p i en slice handle base len).med = s.med ∧
    (State.bar2Write s p i en slice handle base len).mlf = s.mlf ∧ (State.bar2Write s p i en slice handle base len).cpx = s.cpx ∧
    (State.bar2Write s p i en slice handle base len).wvf = s.wvf ∧ (State.bar2Write s p i en slice handle base len).bpm = s.bpm ∧
    (State.bar2Write s p i en slice handle base len).sli = s.sli ∧ (State.bar2Write s p i en slice handle base len).sec = s.sec ∧
    (State.bar2Write s p i en slice handle base len).mic = s.mic ∧ (State.bar2Write s p i en slice handle base len).flt = s.flt ∧
    (State.bar2Write s p i en slice handle base len).ctrs = s.ctrs ∧ (State.bar2Write s p i en slice handle base len).grps = s.grps ∧
    (State.bar2Write s p i en slice handle base len).pwr = s.pwr ∧ (State.bar2Write s p i en slice handle base len).thm = s.thm ∧
    (State.bar2Write s p i en slice handle base len).age = s.age ∧ (State.bar2Write s p i en slice handle base len).cnv = s.cnv ∧
    (State.bar2Write s p i en slice handle base len).fwu = s.fwu ∧ (State.bar2Write s p i en slice handle base len).glb = s.glb ∧
    (State.bar2Write s p i en slice handle base len).sb = s.sb := by
  have w1 := @State.modPort_still
  simp [State.bar2Write, w1]
theorem State.sendPending_still (s : State) (p : Nat) :
    (State.sendPending s p).pending = s.pending ∧ (State.sendPending s p).free = s.free ∧ (State.sendPending s p).epoch = s.epoch ∧
    (State.sendPending s p).pat = s.pat ∧ (State.sendPending s p).isl = s.isl ∧ (State.sendPending s p).routes = s.routes ∧
    (State.sendPending s p).dramMargin = s.dramMargin ∧ (State.sendPending s p).trickle = s.trickle ∧ (State.sendPending s p).cmd = s.cmd ∧
    (State.sendPending s p).zon = s.zon ∧ (State.sendPending s p).med = s.med ∧ (State.sendPending s p).mlf = s.mlf ∧
    (State.sendPending s p).cpx = s.cpx ∧ (State.sendPending s p).wvf = s.wvf ∧ (State.sendPending s p).bpm = s.bpm ∧
    (State.sendPending s p).sec = s.sec ∧ (State.sendPending s p).mic = s.mic ∧ (State.sendPending s p).flt = s.flt ∧
    (State.sendPending s p).ctrs = s.ctrs ∧ (State.sendPending s p).grps = s.grps ∧ (State.sendPending s p).pwr = s.pwr ∧
    (State.sendPending s p).thm = s.thm ∧ (State.sendPending s p).age = s.age ∧ (State.sendPending s p).cnv = s.cnv ∧
    (State.sendPending s p).fwu = s.fwu ∧ (State.sendPending s p).glb = s.glb ∧ (State.sendPending s p).sb = s.sb := by
  have w1 := @State.modPort_still; have w2 := @State.sendIrq_still; have wf := @foldl_parts
  have wi := @ite_parts
  simp [State.sendPending, w1, w2, wf, wi]
theorem State.unmask_still (s : State) (port slice e : Nat) :
    (State.unmask s port slice e).pending = s.pending ∧ (State.unmask s port slice e).free = s.free ∧
    (State.unmask s port slice e).epoch = s.epoch ∧ (State.unmask s port slice e).pat = s.pat ∧ (State.unmask s port slice e).isl = s.isl ∧
    (State.unmask s port slice e).routes = s.routes ∧ (State.unmask s port slice e).dramMargin = s.dramMargin ∧
    (State.unmask s port slice e).trickle = s.trickle ∧ (State.unmask s port slice e).cmd = s.cmd ∧
    (State.unmask s port slice e).zon = s.zon ∧ (State.unmask s port slice e).med = s.med ∧ (State.unmask s port slice e).mlf = s.mlf ∧
    (State.unmask s port slice e).cpx = s.cpx ∧ (State.unmask s port slice e).wvf = s.wvf ∧ (State.unmask s port slice e).bpm = s.bpm ∧
    (State.unmask s port slice e).sec = s.sec ∧ (State.unmask s port slice e).mic = s.mic ∧ (State.unmask s port slice e).flt = s.flt ∧
    (State.unmask s port slice e).ctrs = s.ctrs ∧ (State.unmask s port slice e).grps = s.grps ∧ (State.unmask s port slice e).pwr = s.pwr ∧
    (State.unmask s port slice e).thm = s.thm ∧ (State.unmask s port slice e).age = s.age ∧ (State.unmask s port slice e).cnv = s.cnv ∧
    (State.unmask s port slice e).fwu = s.fwu ∧ (State.unmask s port slice e).glb = s.glb ∧ (State.unmask s port slice e).sb = s.sb := by
  have w1 := @State.modPort_still; have w2 := @State.sendIrq_still; have w3 := @State.modSli_still; have wi := @ite_parts
  simp [State.unmask, w1, w2, w3, wi]
theorem State.ownRow_still (s : State) (c act : Nat) (k : State → Nat → Nat → State) (hk : ∀ t x y, (k t x y).pending = t.pending ∧ (k t x y).free = t.free ∧ (k t x y).host = t.host ∧ (k t x y).epoch = t.epoch ∧ (k t x y).pat = t.pat ∧ (k t x y).isl = t.isl ∧ (k t x y).routes = t.routes ∧ (k t x y).dramMargin = t.dramMargin ∧ (k t x y).ports = t.ports ∧ (k t x y).trickle = t.trickle ∧ (k t x y).zon = t.zon ∧ (k t x y).med = t.med ∧ (k t x y).mlf = t.mlf ∧ (k t x y).cpx = t.cpx ∧ (k t x y).wvf = t.wvf ∧ (k t x y).bpm = t.bpm ∧ (k t x y).sli = t.sli ∧ (k t x y).sec = t.sec ∧ (k t x y).mic = t.mic ∧ (k t x y).flt = t.flt ∧ (k t x y).ctrs = t.ctrs ∧ (k t x y).grps = t.grps ∧ (k t x y).pwr = t.pwr ∧ (k t x y).thm = t.thm ∧ (k t x y).age = t.age ∧ (k t x y).cnv = t.cnv ∧ (k t x y).fwu = t.fwu ∧ (k t x y).glb = t.glb ∧ (k t x y).sb = t.sb) :
    (State.ownRow s c act k).pending = s.pending ∧ (State.ownRow s c act k).free = s.free ∧ (State.ownRow s c act k).host = s.host ∧
    (State.ownRow s c act k).epoch = s.epoch ∧ (State.ownRow s c act k).pat = s.pat ∧ (State.ownRow s c act k).isl = s.isl ∧
    (State.ownRow s c act k).routes = s.routes ∧ (State.ownRow s c act k).dramMargin = s.dramMargin ∧
    (State.ownRow s c act k).ports = s.ports ∧ (State.ownRow s c act k).trickle = s.trickle ∧ (State.ownRow s c act k).zon = s.zon ∧
    (State.ownRow s c act k).med = s.med ∧ (State.ownRow s c act k).mlf = s.mlf ∧ (State.ownRow s c act k).cpx = s.cpx ∧
    (State.ownRow s c act k).wvf = s.wvf ∧ (State.ownRow s c act k).bpm = s.bpm ∧ (State.ownRow s c act k).sli = s.sli ∧
    (State.ownRow s c act k).sec = s.sec ∧ (State.ownRow s c act k).mic = s.mic ∧ (State.ownRow s c act k).flt = s.flt ∧
    (State.ownRow s c act k).ctrs = s.ctrs ∧ (State.ownRow s c act k).grps = s.grps ∧ (State.ownRow s c act k).pwr = s.pwr ∧
    (State.ownRow s c act k).thm = s.thm ∧ (State.ownRow s c act k).age = s.age ∧ (State.ownRow s c act k).cnv = s.cnv ∧
    (State.ownRow s c act k).fwu = s.fwu ∧ (State.ownRow s c act k).glb = s.glb ∧ (State.ownRow s c act k).sb = s.sb := by
  have w1 := @State.finish_still; have wi := @ite_parts
  simp [State.ownRow, w1, wi, hk]
theorem State.wrongKey_still (s : State) (n : Nat) :
    (State.wrongKey s n).pending = s.pending ∧ (State.wrongKey s n).free = s.free ∧ (State.wrongKey s n).host = s.host ∧
    (State.wrongKey s n).epoch = s.epoch ∧ (State.wrongKey s n).pat = s.pat ∧ (State.wrongKey s n).isl = s.isl ∧
    (State.wrongKey s n).routes = s.routes ∧ (State.wrongKey s n).dramMargin = s.dramMargin ∧ (State.wrongKey s n).ports = s.ports ∧
    (State.wrongKey s n).trickle = s.trickle ∧ (State.wrongKey s n).cmd = s.cmd ∧ (State.wrongKey s n).med = s.med ∧
    (State.wrongKey s n).mlf = s.mlf ∧ (State.wrongKey s n).cpx = s.cpx ∧ (State.wrongKey s n).wvf = s.wvf ∧
    (State.wrongKey s n).bpm = s.bpm ∧ (State.wrongKey s n).sli = s.sli ∧ (State.wrongKey s n).sec = s.sec ∧
    (State.wrongKey s n).mic = s.mic ∧ (State.wrongKey s n).flt = s.flt ∧ (State.wrongKey s n).ctrs = s.ctrs ∧
    (State.wrongKey s n).grps = s.grps ∧ (State.wrongKey s n).pwr = s.pwr ∧ (State.wrongKey s n).thm = s.thm ∧
    (State.wrongKey s n).age = s.age ∧ (State.wrongKey s n).cnv = s.cnv ∧ (State.wrongKey s n).fwu = s.fwu ∧
    (State.wrongKey s n).glb = s.glb ∧ (State.wrongKey s n).sb = s.sb := by
  have w1 := @State.modNs_still
  simp [State.wrongKey, w1]
theorem State.beginTaking_still (s : State) (n p q : Nat) (w : Waiter) :
    (State.beginTaking s n p q w).pending = s.pending ∧ (State.beginTaking s n p q w).free = s.free ∧
    (State.beginTaking s n p q w).epoch = s.epoch ∧ (State.beginTaking s n p q w).pat = s.pat ∧ (State.beginTaking s n p q w).isl = s.isl ∧
    (State.beginTaking s n p q w).routes = s.routes ∧ (State.beginTaking s n p q w).dramMargin = s.dramMargin ∧
    (State.beginTaking s n p q w).ports = s.ports ∧ (State.beginTaking s n p q w).trickle = s.trickle ∧
    (State.beginTaking s n p q w).med = s.med ∧ (State.beginTaking s n p q w).mlf = s.mlf ∧ (State.beginTaking s n p q w).cpx = s.cpx ∧
    (State.beginTaking s n p q w).wvf = s.wvf ∧ (State.beginTaking s n p q w).bpm = s.bpm ∧ (State.beginTaking s n p q w).sli = s.sli ∧
    (State.beginTaking s n p q w).sec = s.sec ∧ (State.beginTaking s n p q w).mic = s.mic ∧ (State.beginTaking s n p q w).flt = s.flt ∧
    (State.beginTaking s n p q w).ctrs = s.ctrs ∧ (State.beginTaking s n p q w).grps = s.grps ∧ (State.beginTaking s n p q w).pwr = s.pwr ∧
    (State.beginTaking s n p q w).thm = s.thm ∧ (State.beginTaking s n p q w).age = s.age ∧ (State.beginTaking s n p q w).cnv = s.cnv ∧
    (State.beginTaking s n p q w).fwu = s.fwu ∧ (State.beginTaking s n p q w).glb = s.glb := by
  have w1 := @State.answer_still; have w2 := @State.modNs_still; have w3 := @State.ownProgress_still
  unfold State.beginTaking; dsimp only; repeat' split
  all_goals simp [*]
theorem State.ownerSet_still (s : State) (c n p : Nat) (f : Ns → Ns) :
    (State.ownerSet s c n p f).pending = s.pending ∧ (State.ownerSet s c n p f).free = s.free ∧ (State.ownerSet s c n p f).host = s.host ∧
    (State.ownerSet s c n p f).epoch = s.epoch ∧ (State.ownerSet s c n p f).pat = s.pat ∧ (State.ownerSet s c n p f).isl = s.isl ∧
    (State.ownerSet s c n p f).routes = s.routes ∧ (State.ownerSet s c n p f).dramMargin = s.dramMargin ∧
    (State.ownerSet s c n p f).ports = s.ports ∧ (State.ownerSet s c n p f).trickle = s.trickle ∧ (State.ownerSet s c n p f).med = s.med ∧
    (State.ownerSet s c n p f).mlf = s.mlf ∧ (State.ownerSet s c n p f).cpx = s.cpx ∧ (State.ownerSet s c n p f).wvf = s.wvf ∧
    (State.ownerSet s c n p f).bpm = s.bpm ∧ (State.ownerSet s c n p f).sli = s.sli ∧ (State.ownerSet s c n p f).sec = s.sec ∧
    (State.ownerSet s c n p f).mic = s.mic ∧ (State.ownerSet s c n p f).flt = s.flt ∧ (State.ownerSet s c n p f).ctrs = s.ctrs ∧
    (State.ownerSet s c n p f).grps = s.grps ∧ (State.ownerSet s c n p f).pwr = s.pwr ∧ (State.ownerSet s c n p f).thm = s.thm ∧
    (State.ownerSet s c n p f).age = s.age ∧ (State.ownerSet s c n p f).cnv = s.cnv ∧ (State.ownerSet s c n p f).fwu = s.fwu ∧
    (State.ownerSet s c n p f).glb = s.glb ∧ (State.ownerSet s c n p f).sb = s.sb := by
  have w1 := @State.finish_still; have w2 := @State.modNs_still
  unfold State.ownerSet; repeat' split
  all_goals simp [*]

end Sys2Proof.Machine
end

