-- ==== Sys2Proof/Laws/FrameMedia.lean ====
section
/-! SUPPORT. What the operations of the media engine, bays and relocations leave unchanged: one lemma per operation, which names every part of the state that it keeps. -/

namespace Sys2Proof.Machine

theorem State.suspendRead_still (s : State) (d : Nat) (o : DieOp) :
    (State.suspendRead s d o).pending = s.pending ∧ (State.suspendRead s d o).host = s.host ∧ (State.suspendRead s d o).epoch = s.epoch ∧
    (State.suspendRead s d o).pat = s.pat ∧ (State.suspendRead s d o).isl = s.isl ∧ (State.suspendRead s d o).routes = s.routes ∧
    (State.suspendRead s d o).dramMargin = s.dramMargin ∧ (State.suspendRead s d o).ports = s.ports ∧
    (State.suspendRead s d o).trickle = s.trickle ∧ (State.suspendRead s d o).cmd = s.cmd ∧ (State.suspendRead s d o).zon = s.zon ∧
    (State.suspendRead s d o).mlf = s.mlf ∧ (State.suspendRead s d o).cpx = s.cpx ∧ (State.suspendRead s d o).wvf = s.wvf ∧
    (State.suspendRead s d o).bpm = s.bpm ∧ (State.suspendRead s d o).sec = s.sec ∧ (State.suspendRead s d o).mic = s.mic ∧
    (State.suspendRead s d o).flt = s.flt ∧ (State.suspendRead s d o).ctrs = s.ctrs ∧ (State.suspendRead s d o).grps = s.grps ∧
    (State.suspendRead s d o).pwr = s.pwr ∧ (State.suspendRead s d o).thm = s.thm ∧ (State.suspendRead s d o).age = s.age ∧
    (State.suspendRead s d o).cnv = s.cnv ∧ (State.suspendRead s d o).fwu = s.fwu ∧ (State.suspendRead s d o).glb = s.glb ∧
    (State.suspendRead s d o).sb = s.sb := by
  have w1 := @State.setDie_still; have w2 := @drawNat_still; have w3 := @State.modClu_still; have w4 := @State.clCnt_still
  have w5 := @State.chCnt_still; have w6 := @State.chargeRead_still
  simp [State.suspendRead, w1, w2, w3, w4, w5, w6]
theorem State.track_still (s : State) (d k : Nat) (r : Decode) :
    (State.track s d k r).pending = s.pending ∧ (State.track s d k r).free = s.free ∧ (State.track s d k r).host = s.host ∧
    (State.track s d k r).epoch = s.epoch ∧ (State.track s d k r).pat = s.pat ∧ (State.track s d k r).routes = s.routes ∧
    (State.track s d k r).dramMargin = s.dramMargin ∧ (State.track s d k r).ports = s.ports ∧ (State.track s d k r).trickle = s.trickle ∧
    (State.track s d k r).zon = s.zon ∧ (State.track s d k r).cpx = s.cpx ∧ (State.track s d k r).wvf = s.wvf ∧
    (State.track s d k r).bpm = s.bpm ∧ (State.track s d k r).sec = s.sec ∧ (State.track s d k r).mic = s.mic ∧
    (State.track s d k r).ctrs = s.ctrs ∧ (State.track s d k r).grps = s.grps ∧ (State.track s d k r).thm = s.thm ∧
    (State.track s d k r).age = s.age ∧ (State.track s d k r).cnv = s.cnv ∧ (State.track s d k r).fwu = s.fwu ∧
    (State.track s d k r).glb = s.glb ∧ (State.track s d k r).sb = s.sb := by
  have w1 := @State.queueGroup_still; have wi := @ite_parts
  simp [State.track, w1, wi]
theorem State.noteRead_still (s : State) (d k : Nat) :
    (State.noteRead s d k).pending = s.pending ∧ (State.noteRead s d k).free = s.free ∧ (State.noteRead s d k).host = s.host ∧
    (State.noteRead s d k).epoch = s.epoch ∧ (State.noteRead s d k).pat = s.pat ∧ (State.noteRead s d k).routes = s.routes ∧
    (State.noteRead s d k).dramMargin = s.dramMargin ∧ (State.noteRead s d k).ports = s.ports ∧
    (State.noteRead s d k).trickle = s.trickle ∧ (State.noteRead s d k).zon = s.zon ∧ (State.noteRead s d k).cpx = s.cpx ∧
    (State.noteRead s d k).wvf = s.wvf ∧ (State.noteRead s d k).bpm = s.bpm ∧ (State.noteRead s d k).sec = s.sec ∧
    (State.noteRead s d k).mic = s.mic ∧ (State.noteRead s d k).ctrs = s.ctrs ∧ (State.noteRead s d k).grps = s.grps ∧
    (State.noteRead s d k).thm = s.thm ∧ (State.noteRead s d k).age = s.age ∧ (State.noteRead s d k).cnv = s.cnv ∧
    (State.noteRead s d k).fwu = s.fwu ∧ (State.noteRead s d k).glb = s.glb ∧ (State.noteRead s d k).sb = s.sb := by
  have w1 := @State.modBlk_still; have w2 := @State.queueGroup_still; have wi := @ite_parts
  simp [State.noteRead, w1, w2, wi]
theorem State.countCw_still (s : State) (d : Nat) (o : DieOp) (r : Decode) :
    (State.countCw s d o r).pending = s.pending ∧ (State.countCw s d o r).free = s.free ∧ (State.countCw s d o r).host = s.host ∧
    (State.countCw s d o r).epoch = s.epoch ∧ (State.countCw s d o r).pat = s.pat ∧ (State.countCw s d o r).routes = s.routes ∧
    (State.countCw s d o r).dramMargin = s.dramMargin ∧ (State.countCw s d o r).ports = s.ports ∧
    (State.countCw s d o r).trickle = s.trickle ∧ (State.countCw s d o r).zon = s.zon ∧ (State.countCw s d o r).cpx = s.cpx ∧
    (State.countCw s d o r).wvf = s.wvf ∧ (State.countCw s d o r).bpm = s.bpm ∧ (State.countCw s d o r).sec = s.sec ∧
    (State.countCw s d o r).mic = s.mic ∧ (State.countCw s d o r).ctrs = s.ctrs ∧ (State.countCw s d o r).grps = s.grps ∧
    (State.countCw s d o r).thm = s.thm ∧ (State.countCw s d o r).age = s.age ∧ (State.countCw s d o r).cnv = s.cnv ∧
    (State.countCw s d o r).fwu = s.fwu ∧ (State.countCw s d o r).glb = s.glb ∧ (State.countCw s d o r).sb = s.sb := by
  have w1 := @State.modDie_still; have w2 := @State.chCnt_still; have w3 := @State.lifeErr_still; have w4 := @State.noteRead_still
  have w5 := @State.track_still; have wi := @ite_parts
  simp [State.countCw, w1, w2, w3, w4, w5, wi]
theorem State.reached3_still (s : State) (d k : Nat) :
    (State.reached3 s d k).pending = s.pending ∧ (State.reached3 s d k).free = s.free ∧ (State.reached3 s d k).host = s.host ∧
    (State.reached3 s d k).epoch = s.epoch ∧ (State.reached3 s d k).pat = s.pat ∧ (State.reached3 s d k).routes = s.routes ∧
    (State.reached3 s d k).dramMargin = s.dramMargin ∧ (State.reached3 s d k).ports = s.ports ∧
    (State.reached3 s d k).trickle = s.trickle ∧ (State.reached3 s d k).zon = s.zon ∧ (State.reached3 s d k).cpx = s.cpx ∧
    (State.reached3 s d k).wvf = s.wvf ∧ (State.reached3 s d k).bpm = s.bpm ∧ (State.reached3 s d k).sec = s.sec ∧
    (State.reached3 s d k).mic = s.mic ∧ (State.reached3 s d k).ctrs = s.ctrs ∧ (State.reached3 s d k).grps = s.grps ∧
    (State.reached3 s d k).thm = s.thm ∧ (State.reached3 s d k).age = s.age ∧ (State.reached3 s d k).cnv = s.cnv ∧
    (State.reached3 s d k).fwu = s.fwu ∧ (State.reached3 s d k).glb = s.glb ∧ (State.reached3 s d k).sb = s.sb := by
  have w1 := @State.modBlk_still; have w2 := @State.queueGroup_still
  simp [State.reached3, w1, w2]
theorem State.dropEcl_still (s : State) (r : Rdr) (k : Nat) :
    (State.dropEcl s r k).pending = s.pending ∧ (State.dropEcl s r k).free = s.free ∧ (State.dropEcl s r k).host = s.host ∧
    (State.dropEcl s r k).epoch = s.epoch ∧ (State.dropEcl s r k).pat = s.pat ∧ (State.dropEcl s r k).isl = s.isl ∧
    (State.dropEcl s r k).routes = s.routes ∧ (State.dropEcl s r k).dramMargin = s.dramMargin ∧ (State.dropEcl s r k).ports = s.ports ∧
    (State.dropEcl s r k).trickle = s.trickle ∧ (State.dropEcl s r k).zon = s.zon ∧ (State.dropEcl s r k).mlf = s.mlf ∧
    (State.dropEcl s r k).wvf = s.wvf ∧ (State.dropEcl s r k).sli = s.sli ∧ (State.dropEcl s r k).sec = s.sec ∧
    (State.dropEcl s r k).ctrs = s.ctrs ∧ (State.dropEcl s r k).grps = s.grps ∧ (State.dropEcl s r k).pwr = s.pwr ∧
    (State.dropEcl s r k).thm = s.thm ∧ (State.dropEcl s r k).age = s.age ∧ (State.dropEcl s r k).cnv = s.cnv ∧
    (State.dropEcl s r k).fwu = s.fwu ∧ (State.dropEcl s r k).glb = s.glb ∧ (State.dropEcl s r k).sb = s.sb := by
  have w1 := @State.setEcl_still; have w2 := @State.dropSources_still; have w3 := @State.freeBuf_still
  unfold State.dropEcl; repeat' split
  all_goals simp [*]
theorem State.ladStep3_still (s : State) (d : Nat) (o : DieOp) (r : Rdr) (fall : Nat) :
    (State.ladStep3 s d o r fall).pending = s.pending ∧ (State.ladStep3 s d o r fall).epoch = s.epoch ∧
    (State.ladStep3 s d o r fall).pat = s.pat ∧ (State.ladStep3 s d o r fall).dramMargin = s.dramMargin ∧
    (State.ladStep3 s d o r fall).ports = s.ports ∧ (State.ladStep3 s d o r fall).trickle = s.trickle ∧
    (State.ladStep3 s d o r fall).sec = s.sec ∧ (State.ladStep3 s d o r fall).ctrs = s.ctrs ∧ (State.ladStep3 s d o r fall).grps = s.grps ∧
    (State.ladStep3 s d o r fall).thm = s.thm ∧ (State.ladStep3 s d o r fall).age = s.age ∧ (State.ladStep3 s d o r fall).cnv = s.cnv ∧
    (State.ladStep3 s d o r fall).fwu = s.fwu ∧ (State.ladStep3 s d o r fall).glb = s.glb := by
  have w1 := @State.reached3_still; have w2 := @State.readLost_still; have w3 := @State.ladGo_still
  have w4 := @State.setEcl_still; have w5 := @State.freeBuf_still; have w6 := @State.startEcl_still; have w7 := @State.clCnt_still
  have wi := @ite_parts
  simp [State.ladStep3, w1, w2, w3, w4, w5, w6, w7, wi]
theorem State.readEnd_still (s : State) (d : Nat) (o : DieOp) (r : Rdr) (res : Decode) :
    (State.readEnd s d o r res).pending = s.pending ∧ (State.readEnd s d o r res).epoch = s.epoch ∧
    (State.readEnd s d o r res).pat = s.pat ∧ (State.readEnd s d o r res).dramMargin = s.dramMargin ∧
    (State.readEnd s d o r res).ports = s.ports ∧ (State.readEnd s d o r res).trickle = s.trickle ∧
    (State.readEnd s d o r res).sec = s.sec ∧ (State.readEnd s d o r res).ctrs = s.ctrs ∧ (State.readEnd s d o r res).grps = s.grps ∧
    (State.readEnd s d o r res).thm = s.thm ∧ (State.readEnd s d o r res).age = s.age ∧ (State.readEnd s d o r res).cnv = s.cnv ∧
    (State.readEnd s d o r res).fwu = s.fwu ∧ (State.readEnd s d o r res).glb = s.glb := by
  have w1 := @State.countCw_still; have w2 := @State.freeBuf_still; have w3 := @State.dropEcl_still; have w4 := @State.give_still
  have w5 := @State.ladStep3_still; have w6 := @State.queueGroup_still; have w7 := @State.readLost_still
  have w8 := @State.enqueue_still; have wi := @ite_parts
  simp [State.readEnd, w1, w2, w3, w4, w5, w6, w7, w8, wi]
theorem State.srcEnd_still (s : State) (d : Nat) (o : DieOp) (r : Rdr) (res : Decode) :
    (State.srcEnd s d o r res).pending = s.pending ∧ (State.srcEnd s d o r res).epoch = s.epoch ∧ (State.srcEnd s d o r res).pat = s.pat ∧
    (State.srcEnd s d o r res).dramMargin = s.dramMargin ∧ (State.srcEnd s d o r res).ports = s.ports ∧
    (State.srcEnd s d o r res).trickle = s.trickle ∧ (State.srcEnd s d o r res).sec = s.sec ∧ (State.srcEnd s d o r res).ctrs = s.ctrs ∧
    (State.srcEnd s d o r res).grps = s.grps ∧ (State.srcEnd s d o r res).thm = s.thm ∧ (State.srcEnd s d o r res).age = s.age ∧
    (State.srcEnd s d o r res).cnv = s.cnv ∧ (State.srcEnd s d o r res).fwu = s.fwu ∧ (State.srcEnd s d o r res).glb = s.glb := by
  have w1 := @State.countCw_still; have w2 := @State.srcGot_still; have w3 := @State.reached3_still
  have w4 := @State.srcFail_still; have wi := @ite_parts
  simp [State.srcEnd, w1, w2, w3, w4, wi]
theorem State.spreadCheck_still (s : State) (set : Nat) :
    (State.spreadCheck s set).pending = s.pending ∧ (State.spreadCheck s set).free = s.free ∧ (State.spreadCheck s set).host = s.host ∧
    (State.spreadCheck s set).epoch = s.epoch ∧ (State.spreadCheck s set).pat = s.pat ∧ (State.spreadCheck s set).isl = s.isl ∧
    (State.spreadCheck s set).routes = s.routes ∧ (State.spreadCheck s set).dramMargin = s.dramMargin ∧
    (State.spreadCheck s set).ports = s.ports ∧ (State.spreadCheck s set).trickle = s.trickle ∧ (State.spreadCheck s set).cmd = s.cmd ∧
    (State.spreadCheck s set).zon = s.zon ∧ (State.spreadCheck s set).mlf = s.mlf ∧ (State.spreadCheck s set).cpx = s.cpx ∧
    (State.spreadCheck s set).wvf = s.wvf ∧ (State.spreadCheck s set).bpm = s.bpm ∧ (State.spreadCheck s set).sli = s.sli ∧
    (State.spreadCheck s set).sec = s.sec ∧ (State.spreadCheck s set).mic = s.mic ∧ (State.spreadCheck s set).flt = s.flt ∧
    (State.spreadCheck s set).ctrs = s.ctrs ∧ (State.spreadCheck s set).grps = s.grps ∧ (State.spreadCheck s set).pwr = s.pwr ∧
    (State.spreadCheck s set).thm = s.thm ∧ (State.spreadCheck s set).age = s.age ∧ (State.spreadCheck s set).cnv = s.cnv ∧
    (State.spreadCheck s set).fwu = s.fwu ∧ (State.spreadCheck s set).glb = s.glb ∧ (State.spreadCheck s set).sb = s.sb := by
  have w1 := @State.modLife_still
  unfold State.spreadCheck; dsimp only; repeat' split
  all_goals simp [*]
theorem State.rotatePool_still (s : State) (d k : Nat) :
    (State.rotatePool s d k).pending = s.pending ∧ (State.rotatePool s d k).free = s.free ∧ (State.rotatePool s d k).host = s.host ∧
    (State.rotatePool s d k).epoch = s.epoch ∧ (State.rotatePool s d k).pat = s.pat ∧ (State.rotatePool s d k).isl = s.isl ∧
    (State.rotatePool s d k).routes = s.routes ∧ (State.rotatePool s d k).dramMargin = s.dramMargin ∧
    (State.rotatePool s d k).ports = s.ports ∧ (State.rotatePool s d k).trickle = s.trickle ∧ (State.rotatePool s d k).cmd = s.cmd ∧
    (State.rotatePool s d k).zon = s.zon ∧ (State.rotatePool s d k).mlf = s.mlf ∧ (State.rotatePool s d k).cpx = s.cpx ∧
    (State.rotatePool s d k).wvf = s.wvf ∧ (State.rotatePool s d k).bpm = s.bpm ∧ (State.rotatePool s d k).sli = s.sli ∧
    (State.rotatePool s d k).sec = s.sec ∧ (State.rotatePool s d k).mic = s.mic ∧ (State.rotatePool s d k).flt = s.flt ∧
    (State.rotatePool s d k).ctrs = s.ctrs ∧ (State.rotatePool s d k).grps = s.grps ∧ (State.rotatePool s d k).pwr = s.pwr ∧
    (State.rotatePool s d k).thm = s.thm ∧ (State.rotatePool s d k).age = s.age ∧ (State.rotatePool s d k).cnv = s.cnv ∧
    (State.rotatePool s d k).fwu = s.fwu ∧ (State.rotatePool s d k).glb = s.glb ∧ (State.rotatePool s d k).sb = s.sb := by
  have w1 := @State.modBlk_still; have wi := @ite_parts
  unfold State.rotatePool; repeat' split
  all_goals simp [*]
theorem State.freshBlock_still (s : State) (d k : Nat) :
    (State.freshBlock s d k).pending = s.pending ∧ (State.freshBlock s d k).free = s.free ∧ (State.freshBlock s d k).host = s.host ∧
    (State.freshBlock s d k).epoch = s.epoch ∧ (State.freshBlock s d k).pat = s.pat ∧ (State.freshBlock s d k).isl = s.isl ∧
    (State.freshBlock s d k).routes = s.routes ∧ (State.freshBlock s d k).dramMargin = s.dramMargin ∧
    (State.freshBlock s d k).ports = s.ports ∧ (State.freshBlock s d k).trickle = s.trickle ∧ (State.freshBlock s d k).cmd = s.cmd ∧
    (State.freshBlock s d k).zon = s.zon ∧ (State.freshBlock s d k).mlf = s.mlf ∧ (State.freshBlock s d k).cpx = s.cpx ∧
    (State.freshBlock s d k).wvf = s.wvf ∧ (State.freshBlock s d k).bpm = s.bpm ∧ (State.freshBlock s d k).sli = s.sli ∧
    (State.freshBlock s d k).sec = s.sec ∧ (State.freshBlock s d k).mic = s.mic ∧ (State.freshBlock s d k).flt = s.flt ∧
    (State.freshBlock s d k).ctrs = s.ctrs ∧ (State.freshBlock s d k).grps = s.grps ∧ (State.freshBlock s d k).pwr = s.pwr ∧
    (State.freshBlock s d k).thm = s.thm ∧ (State.freshBlock s d k).age = s.age ∧ (State.freshBlock s d k).cnv = s.cnv ∧
    (State.freshBlock s d k).fwu = s.fwu ∧ (State.freshBlock s d k).glb = s.glb ∧ (State.freshBlock s d k).sb = s.sb := by
  have w1 := @State.modBlk_still; have w2 := @State.rotatePool_still; have wi := @ite_parts
  simp [State.freshBlock, w1, w2, wi]
theorem State.countErase_still (s : State) (q bytes : Nat) :
    (State.countErase s q bytes).pending = s.pending ∧ (State.countErase s q bytes).free = s.free ∧
    (State.countErase s q bytes).host = s.host ∧ (State.countErase s q bytes).epoch = s.epoch ∧ (State.countErase s q bytes).pat = s.pat ∧
    (State.countErase s q bytes).isl = s.isl ∧ (State.countErase s q bytes).routes = s.routes ∧
    (State.countErase s q bytes).dramMargin = s.dramMargin ∧ (State.countErase s q bytes).ports = s.ports ∧
    (State.countErase s q bytes).trickle = s.trickle ∧ (State.countErase s q bytes).cmd = s.cmd ∧
    (State.countErase s q bytes).mlf = s.mlf ∧ (State.countErase s q bytes).cpx = s.cpx ∧ (State.countErase s q bytes).wvf = s.wvf ∧
    (State.countErase s q bytes).bpm = s.bpm ∧ (State.countErase s q bytes).sli = s.sli ∧ (State.countErase s q bytes).sec = s.sec ∧
    (State.countErase s q bytes).mic = s.mic ∧ (State.countErase s q bytes).flt = s.flt ∧ (State.countErase s q bytes).ctrs = s.ctrs ∧
    (State.countErase s q bytes).grps = s.grps ∧ (State.countErase s q bytes).pwr = s.pwr ∧ (State.countErase s q bytes).thm = s.thm ∧
    (State.countErase s q bytes).age = s.age ∧ (State.countErase s q bytes).cnv = s.cnv ∧ (State.countErase s q bytes).fwu = s.fwu ∧
    (State.countErase s q bytes).glb = s.glb ∧ (State.countErase s q bytes).sb = s.sb := by
  have w1 := @State.modLife_still
  simp [State.countErase, w1]
theorem State.blockErased_still (s : State) (d k : Nat) :
    (State.blockErased s d k).pending = s.pending ∧ (State.blockErased s d k).free = s.free ∧ (State.blockErased s d k).host = s.host ∧
    (State.blockErased s d k).epoch = s.epoch ∧ (State.blockErased s d k).pat = s.pat ∧ (State.blockErased s d k).isl = s.isl ∧
    (State.blockErased s d k).routes = s.routes ∧ (State.blockErased s d k).dramMargin = s.dramMargin ∧
    (State.blockErased s d k).ports = s.ports ∧ (State.blockErased s d k).trickle = s.trickle ∧ (State.blockErased s d k).cpx = s.cpx ∧
    (State.blockErased s d k).wvf = s.wvf ∧ (State.blockErased s d k).bpm = s.bpm ∧ (State.blockErased s d k).sli = s.sli ∧
    (State.blockErased s d k).sec = s.sec ∧ (State.blockErased s d k).mic = s.mic ∧ (State.blockErased s d k).flt = s.flt ∧
    (State.blockErased s d k).ctrs = s.ctrs ∧ (State.blockErased s d k).grps = s.grps ∧ (State.blockErased s d k).pwr = s.pwr ∧
    (State.blockErased s d k).thm = s.thm ∧ (State.blockErased s d k).age = s.age ∧ (State.blockErased s d k).cnv = s.cnv ∧
    (State.blockErased s d k).fwu = s.fwu ∧ (State.blockErased s d k).glb = s.glb ∧ (State.blockErased s d k).sb = s.sb := by
  have w1 := @State.countErase_still; have w2 := @State.freshBlock_still; have w3 := @State.spreadCheck_still
  have w4 := @State.wearCheck_still
  unfold State.blockErased; dsimp only; repeat' split
  all_goals simp [*]
theorem State.initBlocks_still (s : State) (d : Nat) (bad : List Nat) :
    (State.initBlocks s d bad).pending = s.pending ∧ (State.initBlocks s d bad).free = s.free ∧ (State.initBlocks s d bad).host = s.host ∧
    (State.initBlocks s d bad).epoch = s.epoch ∧ (State.initBlocks s d bad).pat = s.pat ∧ (State.initBlocks s d bad).isl = s.isl ∧
    (State.initBlocks s d bad).routes = s.routes ∧ (State.initBlocks s d bad).dramMargin = s.dramMargin ∧
    (State.initBlocks s d bad).ports = s.ports ∧ (State.initBlocks s d bad).trickle = s.trickle ∧ (State.initBlocks s d bad).cmd = s.cmd ∧
    (State.initBlocks s d bad).zon = s.zon ∧ (State.initBlocks s d bad).mlf = s.mlf ∧ (State.initBlocks s d bad).cpx = s.cpx ∧
    (State.initBlocks s d bad).wvf = s.wvf ∧ (State.initBlocks s d bad).bpm = s.bpm ∧ (State.initBlocks s d bad).sli = s.sli ∧
    (State.initBlocks s d bad).sec = s.sec ∧ (State.initBlocks s d bad).mic = s.mic ∧ (State.initBlocks s d bad).flt = s.flt ∧
    (State.initBlocks s d bad).ctrs = s.ctrs ∧ (State.initBlocks s d bad).grps = s.grps ∧ (State.initBlocks s d bad).pwr = s.pwr ∧
    (State.initBlocks s d bad).thm = s.thm ∧ (State.initBlocks s d bad).age = s.age ∧ (State.initBlocks s d bad).cnv = s.cnv ∧
    (State.initBlocks s d bad).fwu = s.fwu ∧ (State.initBlocks s d bad).glb = s.glb ∧ (State.initBlocks s d bad).sb = s.sb := by
  have w1 := @State.modDie_still
  unfold State.initBlocks; repeat' split
  all_goals simp [*]
theorem State.acceptDie_still (s : State) (d uid : Nat) (bad : List Nat) :
    (State.acceptDie s d uid bad).pending = s.pending ∧ (State.acceptDie s d uid bad).epoch = s.epoch ∧
    (State.acceptDie s d uid bad).pat = s.pat ∧ (State.acceptDie s d uid bad).dramMargin = s.dramMargin ∧
    (State.acceptDie s d uid bad).ports = s.ports ∧ (State.acceptDie s d uid bad).trickle = s.trickle ∧
    (State.acceptDie s d uid bad).sec = s.sec ∧ (State.acceptDie s d uid bad).ctrs = s.ctrs ∧ (State.acceptDie s d uid bad).grps = s.grps ∧
    (State.acceptDie s d uid bad).thm = s.thm ∧ (State.acceptDie s d uid bad).age = s.age ∧ (State.acceptDie s d uid bad).cnv = s.cnv ∧
    (State.acceptDie s d uid bad).fwu = s.fwu ∧ (State.acceptDie s d uid bad).glb = s.glb := by
  have w1 := @State.dieGone_still; have w2 := @State.setDie_still; have w3 := @State.initBlocks_still
  have w4 := @State.queueReloc_still; have w5 := @State.modDie_still; have wf := @foldl_parts
  have wi := @ite_parts
  simp [State.acceptDie, w1, w2, w3, w4, w5, wf, wi]
theorem State.returnDie_still (s : State) (d : Nat) :
    (State.returnDie s d).pending = s.pending ∧ (State.returnDie s d).free = s.free ∧ (State.returnDie s d).host = s.host ∧
    (State.returnDie s d).epoch = s.epoch ∧ (State.returnDie s d).pat = s.pat ∧ (State.returnDie s d).routes = s.routes ∧
    (State.returnDie s d).dramMargin = s.dramMargin ∧ (State.returnDie s d).ports = s.ports ∧ (State.returnDie s d).trickle = s.trickle ∧
    (State.returnDie s d).zon = s.zon ∧ (State.returnDie s d).cpx = s.cpx ∧ (State.returnDie s d).wvf = s.wvf ∧
    (State.returnDie s d).bpm = s.bpm ∧ (State.returnDie s d).sec = s.sec ∧ (State.returnDie s d).mic = s.mic ∧
    (State.returnDie s d).ctrs = s.ctrs ∧ (State.returnDie s d).grps = s.grps ∧ (State.returnDie s d).thm = s.thm ∧
    (State.returnDie s d).age = s.age ∧ (State.returnDie s d).cnv = s.cnv ∧ (State.returnDie s d).fwu = s.fwu ∧
    (State.returnDie s d).glb = s.glb ∧ (State.returnDie s d).sb = s.sb := by
  have w1 := @State.setDie_still; have w2 := @State.queueReloc_still; have wf := @foldl_parts
  have wi := @ite_parts
  simp [State.returnDie, w1, w2, wf, wi]
theorem State.clearDegraded_still (s : State) :
    (State.clearDegraded s).pending = s.pending ∧ (State.clearDegraded s).free = s.free ∧ (State.clearDegraded s).host = s.host ∧
    (State.clearDegraded s).epoch = s.epoch ∧ (State.clearDegraded s).pat = s.pat ∧ (State.clearDegraded s).isl = s.isl ∧
    (State.clearDegraded s).routes = s.routes ∧ (State.clearDegraded s).dramMargin = s.dramMargin ∧
    (State.clearDegraded s).ports = s.ports ∧ (State.clearDegraded s).trickle = s.trickle ∧ (State.clearDegraded s).med = s.med ∧
    (State.clearDegraded s).mlf = s.mlf ∧ (State.clearDegraded s).cpx = s.cpx ∧ (State.clearDegraded s).wvf = s.wvf ∧
    (State.clearDegraded s).bpm = s.bpm ∧ (State.clearDegraded s).sli = s.sli ∧ (State.clearDegraded s).sec = s.sec ∧
    (State.clearDegraded s).mic = s.mic ∧ (State.clearDegraded s).flt = s.flt ∧ (State.clearDegraded s).ctrs = s.ctrs ∧
    (State.clearDegraded s).grps = s.grps ∧ (State.clearDegraded s).pwr = s.pwr ∧ (State.clearDegraded s).thm = s.thm ∧
    (State.clearDegraded s).age = s.age ∧ (State.clearDegraded s).cnv = s.cnv ∧ (State.clearDegraded s).fwu = s.fwu ∧
    (State.clearDegraded s).glb = s.glb ∧ (State.clearDegraded s).sb = s.sb := by
  have w1 := @State.setZent_still; have w2 := @State.zoneEvent_still; have wf := @foldl_parts
  have wi := @ite_parts
  simp [State.clearDegraded, w1, w2, wf, wi]
theorem State.rebuildCheck_still (s : State) (b : Nat) :
    (State.rebuildCheck s b).pending = s.pending ∧ (State.rebuildCheck s b).free = s.free ∧ (State.rebuildCheck s b).host = s.host ∧
    (State.rebuildCheck s b).epoch = s.epoch ∧ (State.rebuildCheck s b).pat = s.pat ∧ (State.rebuildCheck s b).isl = s.isl ∧
    (State.rebuildCheck s b).routes = s.routes ∧ (State.rebuildCheck s b).dramMargin = s.dramMargin ∧
    (State.rebuildCheck s b).ports = s.ports ∧ (State.rebuildCheck s b).trickle = s.trickle ∧ (State.rebuildCheck s b).mlf = s.mlf ∧
    (State.rebuildCheck s b).cpx = s.cpx ∧ (State.rebuildCheck s b).wvf = s.wvf ∧ (State.rebuildCheck s b).bpm = s.bpm ∧
    (State.rebuildCheck s b).sli = s.sli ∧ (State.rebuildCheck s b).sec = s.sec ∧ (State.rebuildCheck s b).mic = s.mic ∧
    (State.rebuildCheck s b).ctrs = s.ctrs ∧ (State.rebuildCheck s b).grps = s.grps ∧ (State.rebuildCheck s b).pwr = s.pwr ∧
    (State.rebuildCheck s b).thm = s.thm ∧ (State.rebuildCheck s b).age = s.age ∧ (State.rebuildCheck s b).cnv = s.cnv ∧
    (State.rebuildCheck s b).fwu = s.fwu ∧ (State.rebuildCheck s b).glb = s.glb ∧ (State.rebuildCheck s b).sb = s.sb := by
  have w1 := @State.modBay_still; have w2 := @State.modDie_still; have w3 := @State.bayEvt_still
  have w4 := @State.clearDegraded_still; have wf := @foldl_parts; have wi := @ite_parts
  simp [State.rebuildCheck, w1, w2, w3, w4, wf, wi]
theorem State.suspRead_still (s : State) (d : Nat) (o : DieOp) :
    (State.suspRead s d o).pending = s.pending ∧ (State.suspRead s d o).host = s.host ∧ (State.suspRead s d o).epoch = s.epoch ∧
    (State.suspRead s d o).pat = s.pat ∧ (State.suspRead s d o).isl = s.isl ∧ (State.suspRead s d o).routes = s.routes ∧
    (State.suspRead s d o).dramMargin = s.dramMargin ∧ (State.suspRead s d o).ports = s.ports ∧
    (State.suspRead s d o).trickle = s.trickle ∧ (State.suspRead s d o).cmd = s.cmd ∧ (State.suspRead s d o).zon = s.zon ∧
    (State.suspRead s d o).mlf = s.mlf ∧ (State.suspRead s d o).cpx = s.cpx ∧ (State.suspRead s d o).wvf = s.wvf ∧
    (State.suspRead s d o).bpm = s.bpm ∧ (State.suspRead s d o).sec = s.sec ∧ (State.suspRead s d o).mic = s.mic ∧
    (State.suspRead s d o).flt = s.flt ∧ (State.suspRead s d o).ctrs = s.ctrs ∧ (State.suspRead s d o).grps = s.grps ∧
    (State.suspRead s d o).pwr = s.pwr ∧ (State.suspRead s d o).thm = s.thm ∧ (State.suspRead s d o).age = s.age ∧
    (State.suspRead s d o).cnv = s.cnv ∧ (State.suspRead s d o).fwu = s.fwu ∧ (State.suspRead s d o).glb = s.glb ∧
    (State.suspRead s d o).sb = s.sb := by
  have w1 := @State.suspendRead_still
  simp [State.suspRead, w1]
theorem State.serveRead_still (s : State) (d : Nat) (o : DieOp) (r : Rdr) :
    (State.serveRead s d o r).pending = s.pending ∧ (State.serveRead s d o r).host = s.host ∧ (State.serveRead s d o r).epoch = s.epoch ∧
    (State.serveRead s d o r).pat = s.pat ∧ (State.serveRead s d o r).routes = s.routes ∧
    (State.serveRead s d o r).dramMargin = s.dramMargin ∧ (State.serveRead s d o r).ports = s.ports ∧
    (State.serveRead s d o r).trickle = s.trickle ∧ (State.serveRead s d o r).cmd = s.cmd ∧ (State.serveRead s d o r).zon = s.zon ∧
    (State.serveRead s d o r).mlf = s.mlf ∧ (State.serveRead s d o r).cpx = s.cpx ∧ (State.serveRead s d o r).wvf = s.wvf ∧
    (State.serveRead s d o r).bpm = s.bpm ∧ (State.serveRead s d o r).sec = s.sec ∧ (State.serveRead s d o r).mic = s.mic ∧
    (State.serveRead s d o r).flt = s.flt ∧ (State.serveRead s d o r).ctrs = s.ctrs ∧ (State.serveRead s d o r).grps = s.grps ∧
    (State.serveRead s d o r).thm = s.thm ∧ (State.serveRead s d o r).age = s.age ∧ (State.serveRead s d o r).cnv = s.cnv ∧
    (State.serveRead s d o r).fwu = s.fwu ∧ (State.serveRead s d o r).glb = s.glb ∧ (State.serveRead s d o r).sb = s.sb := by
  have w1 := @State.suspRead_still; have w2 := @State.enqueue_still; have w3 := @State.startEcl_still
  have w4 := @State.clCnt_still; have wi := @ite_parts
  simp [State.serveRead, w1, w2, w3, w4, wi]
theorem State.issueRead_still (s : State) (c u k : Nat) (v : CUnit) (ecl : Bool) :
    (State.issueRead s c u k v ecl).pending = s.pending ∧ (State.issueRead s c u k v ecl).host = s.host ∧
    (State.issueRead s c u k v ecl).epoch = s.epoch ∧ (State.issueRead s c u k v ecl).pat = s.pat ∧
    (State.issueRead s c u k v ecl).routes = s.routes ∧ (State.issueRead s c u k v ecl).dramMargin = s.dramMargin ∧
    (State.issueRead s c u k v ecl).ports = s.ports ∧ (State.issueRead s c u k v ecl).trickle = s.trickle ∧
    (State.issueRead s c u k v ecl).zon = s.zon ∧ (State.issueRead s c u k v ecl).mlf = s.mlf ∧
    (State.issueRead s c u k v ecl).wvf = s.wvf ∧ (State.issueRead s c u k v ecl).sec = s.sec ∧
    (State.issueRead s c u k v ecl).mic = s.mic ∧ (State.issueRead s c u k v ecl).flt = s.flt ∧
    (State.issueRead s c u k v ecl).ctrs = s.ctrs ∧ (State.issueRead s c u k v ecl).grps = s.grps ∧
    (State.issueRead s c u k v ecl).thm = s.thm ∧ (State.issueRead s c u k v ecl).age = s.age ∧
    (State.issueRead s c u k v ecl).cnv = s.cnv ∧ (State.issueRead s c u k v ecl).fwu = s.fwu ∧
    (State.issueRead s c u k v ecl).glb = s.glb ∧ (State.issueRead s c u k v ecl).sb = s.sb := by
  have w1 := @State.landingFrame_still; have w2 := @State.setUnit_still; have w3 := @State.modCtx_still
  have w4 := @State.startEcl_still; have w5 := @State.serveRead_still; have wi := @ite_parts
  unfold State.issueRead; dsimp only; repeat' split
  all_goals simp [*]
theorem State.dispatchRead_still (s : State) (c u : Nat) :
    (State.dispatchRead s c u).pending = s.pending ∧ (State.dispatchRead s c u).host = s.host ∧
    (State.dispatchRead s c u).epoch = s.epoch ∧ (State.dispatchRead s c u).pat = s.pat ∧ (State.dispatchRead s c u).routes = s.routes ∧
    (State.dispatchRead s c u).dramMargin = s.dramMargin ∧ (State.dispatchRead s c u).ports = s.ports ∧
    (State.dispatchRead s c u).trickle = s.trickle ∧ (State.dispatchRead s c u).zon = s.zon ∧ (State.dispatchRead s c u).mlf = s.mlf ∧
    (State.dispatchRead s c u).wvf = s.wvf ∧ (State.dispatchRead s c u).sec = s.sec ∧ (State.dispatchRead s c u).mic = s.mic ∧
    (State.dispatchRead s c u).flt = s.flt ∧ (State.dispatchRead s c u).ctrs = s.ctrs ∧ (State.dispatchRead s c u).grps = s.grps ∧
    (State.dispatchRead s c u).thm = s.thm ∧ (State.dispatchRead s c u).age = s.age ∧ (State.dispatchRead s c u).cnv = s.cnv ∧
    (State.dispatchRead s c u).fwu = s.fwu ∧ (State.dispatchRead s c u).glb = s.glb ∧ (State.dispatchRead s c u).sb = s.sb := by
  have w1 := @State.giveCmd_still; have w2 := @State.issueRead_still; have w3 := @State.failUnit_still; have wi := @ite_parts
  unfold State.dispatchRead; repeat' split
  all_goals simp [*]
theorem State.dispatchPatrol_still (s : State) (k : Nat) :
    (State.dispatchPatrol s k).pending = s.pending ∧ (State.dispatchPatrol s k).free = s.free ∧ (State.dispatchPatrol s k).host = s.host ∧
    (State.dispatchPatrol s k).epoch = s.epoch ∧ (State.dispatchPatrol s k).pat = s.pat ∧ (State.dispatchPatrol s k).routes = s.routes ∧
    (State.dispatchPatrol s k).dramMargin = s.dramMargin ∧ (State.dispatchPatrol s k).ports = s.ports ∧
    (State.dispatchPatrol s k).trickle = s.trickle ∧ (State.dispatchPatrol s k).cmd = s.cmd ∧ (State.dispatchPatrol s k).zon = s.zon ∧
    (State.dispatchPatrol s k).mlf = s.mlf ∧ (State.dispatchPatrol s k).cpx = s.cpx ∧ (State.dispatchPatrol s k).wvf = s.wvf ∧
    (State.dispatchPatrol s k).bpm = s.bpm ∧ (State.dispatchPatrol s k).sec = s.sec ∧ (State.dispatchPatrol s k).mic = s.mic ∧
    (State.dispatchPatrol s k).flt = s.flt ∧ (State.dispatchPatrol s k).ctrs = s.ctrs ∧ (State.dispatchPatrol s k).grps = s.grps ∧
    (State.dispatchPatrol s k).thm = s.thm ∧ (State.dispatchPatrol s k).age = s.age ∧ (State.dispatchPatrol s k).cnv = s.cnv ∧
    (State.dispatchPatrol s k).fwu = s.fwu ∧ (State.dispatchPatrol s k).glb = s.glb ∧ (State.dispatchPatrol s k).sb = s.sb := by
  have w1 := @State.enqueue_still; have wi := @ite_parts
  simp [State.dispatchPatrol, w1, wi]
theorem State.dispatchRow_still (s : State) (srk : Nat) :
    (State.dispatchRow s srk).pending = s.pending ∧ (State.dispatchRow s srk).free = s.free ∧ (State.dispatchRow s srk).host = s.host ∧
    (State.dispatchRow s srk).epoch = s.epoch ∧ (State.dispatchRow s srk).pat = s.pat ∧ (State.dispatchRow s srk).routes = s.routes ∧
    (State.dispatchRow s srk).dramMargin = s.dramMargin ∧ (State.dispatchRow s srk).ports = s.ports ∧
    (State.dispatchRow s srk).trickle = s.trickle ∧ (State.dispatchRow s srk).cmd = s.cmd ∧ (State.dispatchRow s srk).zon = s.zon ∧
    (State.dispatchRow s srk).mlf = s.mlf ∧ (State.dispatchRow s srk).cpx = s.cpx ∧ (State.dispatchRow s srk).wvf = s.wvf ∧
    (State.dispatchRow s srk).bpm = s.bpm ∧ (State.dispatchRow s srk).sec = s.sec ∧ (State.dispatchRow s srk).mic = s.mic ∧
    (State.dispatchRow s srk).flt = s.flt ∧ (State.dispatchRow s srk).ctrs = s.ctrs ∧ (State.dispatchRow s srk).grps = s.grps ∧
    (State.dispatchRow s srk).thm = s.thm ∧ (State.dispatchRow s srk).age = s.age ∧ (State.dispatchRow s srk).cnv = s.cnv ∧
    (State.dispatchRow s srk).fwu = s.fwu ∧ (State.dispatchRow s srk).glb = s.glb ∧ (State.dispatchRow s srk).sb = s.sb := by
  have wi := @ite_parts; have wf := @foldl_parts
  have w1 := @State.enqueue_still; have w2 := @State.landUnits_still; have w3 := @State.setRow_still
  unfold State.dispatchRow; repeat' split
  all_goals simp [*]
theorem State.dispatchLanding_still (s : State) (id : Nat) :
    (State.dispatchLanding s id).pending = s.pending ∧ (State.dispatchLanding s id).free = s.free ∧
    (State.dispatchLanding s id).host = s.host ∧ (State.dispatchLanding s id).epoch = s.epoch ∧ (State.dispatchLanding s id).pat = s.pat ∧
    (State.dispatchLanding s id).routes = s.routes ∧ (State.dispatchLanding s id).dramMargin = s.dramMargin ∧
    (State.dispatchLanding s id).ports = s.ports ∧ (State.dispatchLanding s id).trickle = s.trickle ∧
    (State.dispatchLanding s id).cmd = s.cmd ∧ (State.dispatchLanding s id).zon = s.zon ∧ (State.dispatchLanding s id).mlf = s.mlf ∧
    (State.dispatchLanding s id).cpx = s.cpx ∧ (State.dispatchLanding s id).wvf = s.wvf ∧ (State.dispatchLanding s id).bpm = s.bpm ∧
    (State.dispatchLanding s id).sec = s.sec ∧ (State.dispatchLanding s id).mic = s.mic ∧ (State.dispatchLanding s id).flt = s.flt ∧
    (State.dispatchLanding s id).ctrs = s.ctrs ∧ (State.dispatchLanding s id).grps = s.grps ∧ (State.dispatchLanding s id).thm = s.thm ∧
    (State.dispatchLanding s id).age = s.age ∧ (State.dispatchLanding s id).cnv = s.cnv ∧ (State.dispatchLanding s id).fwu = s.fwu ∧
    (State.dispatchLanding s id).glb = s.glb ∧ (State.dispatchLanding s id).sb = s.sb := by
  have wf := @foldl_parts
  have w1 := @State.enqueue_still; have w2 := @State.modBlk_still; have w3 := @State.modLife_still
  have w4 := @State.newLanding_still
  unfold State.dispatchLanding; repeat' split
  all_goals simp [*]
theorem State.dispatchErase_still (s : State) (d k : Nat) :
    (State.dispatchErase s d k).pending = s.pending ∧ (State.dispatchErase s d k).free = s.free ∧
    (State.dispatchErase s d k).host = s.host ∧ (State.dispatchErase s d k).epoch = s.epoch ∧ (State.dispatchErase s d k).pat = s.pat ∧
    (State.dispatchErase s d k).routes = s.routes ∧ (State.dispatchErase s d k).dramMargin = s.dramMargin ∧
    (State.dispatchErase s d k).ports = s.ports ∧ (State.dispatchErase s d k).trickle = s.trickle ∧
    (State.dispatchErase s d k).cmd = s.cmd ∧ (State.dispatchErase s d k).zon = s.zon ∧ (State.dispatchErase s d k).mlf = s.mlf ∧
    (State.dispatchErase s d k).cpx = s.cpx ∧ (State.dispatchErase s d k).wvf = s.wvf ∧ (State.dispatchErase s d k).bpm = s.bpm ∧
    (State.dispatchErase s d k).sec = s.sec ∧ (State.dispatchErase s d k).mic = s.mic ∧ (State.dispatchErase s d k).flt = s.flt ∧
    (State.dispatchErase s d k).ctrs = s.ctrs ∧ (State.dispatchErase s d k).grps = s.grps ∧ (State.dispatchErase s d k).thm = s.thm ∧
    (State.dispatchErase s d k).age = s.age ∧ (State.dispatchErase s d k).cnv = s.cnv ∧ (State.dispatchErase s d k).fwu = s.fwu ∧
    (State.dispatchErase s d k).glb = s.glb ∧ (State.dispatchErase s d k).sb = s.sb := by
  have w1 := @State.enqueue_still; have wi := @ite_parts
  simp [State.dispatchErase, w1, wi]
theorem State.noteProgram_still (s : State) (d k mode units : Nat) :
    (State.noteProgram s d k mode units).pending = s.pending ∧ (State.noteProgram s d k mode units).free = s.free ∧
    (State.noteProgram s d k mode units).host = s.host ∧ (State.noteProgram s d k mode units).epoch = s.epoch ∧
    (State.noteProgram s d k mode units).pat = s.pat ∧ (State.noteProgram s d k mode units).isl = s.isl ∧
    (State.noteProgram s d k mode units).routes = s.routes ∧ (State.noteProgram s d k mode units).dramMargin = s.dramMargin ∧
    (State.noteProgram s d k mode units).ports = s.ports ∧ (State.noteProgram s d k mode units).trickle = s.trickle ∧
    (State.noteProgram s d k mode units).cmd = s.cmd ∧ (State.noteProgram s d k mode units).mlf = s.mlf ∧
    (State.noteProgram s d k mode units).cpx = s.cpx ∧ (State.noteProgram s d k mode units).wvf = s.wvf ∧
    (State.noteProgram s d k mode units).bpm = s.bpm ∧ (State.noteProgram s d k mode units).sli = s.sli ∧
    (State.noteProgram s d k mode units).sec = s.sec ∧ (State.noteProgram s d k mode units).mic = s.mic ∧
    (State.noteProgram s d k mode units).flt = s.flt ∧ (State.noteProgram s d k mode units).ctrs = s.ctrs ∧
    (State.noteProgram s d k mode units).grps = s.grps ∧ (State.noteProgram s d k mode units).pwr = s.pwr ∧
    (State.noteProgram s d k mode units).thm = s.thm ∧ (State.noteProgram s d k mode units).age = s.age ∧
    (State.noteProgram s d k mode units).cnv = s.cnv ∧ (State.noteProgram s d k mode units).fwu = s.fwu ∧
    (State.noteProgram s d k mode units).glb = s.glb ∧ (State.noteProgram s d k mode units).sb = s.sb := by
  have w1 := @State.modBlk_still; have w2 := @State.modLife_still
  unfold State.noteProgram; dsimp only; repeat' split
  all_goals simp [*]
theorem State.coverRow_still (s : State) (srk : Nat) :
    (State.coverRow s srk).pending = s.pending ∧ (State.coverRow s srk).free = s.free ∧ (State.coverRow s srk).host = s.host ∧
    (State.coverRow s srk).epoch = s.epoch ∧ (State.coverRow s srk).pat = s.pat ∧ (State.coverRow s srk).isl = s.isl ∧
    (State.coverRow s srk).routes = s.routes ∧ (State.coverRow s srk).dramMargin = s.dramMargin ∧ (State.coverRow s srk).ports = s.ports ∧
    (State.coverRow s srk).trickle = s.trickle ∧ (State.coverRow s srk).cmd = s.cmd ∧ (State.coverRow s srk).mlf = s.mlf ∧
    (State.coverRow s srk).cpx = s.cpx ∧ (State.coverRow s srk).wvf = s.wvf ∧ (State.coverRow s srk).bpm = s.bpm ∧
    (State.coverRow s srk).sli = s.sli ∧ (State.coverRow s srk).sec = s.sec ∧ (State.coverRow s srk).mic = s.mic ∧
    (State.coverRow s srk).flt = s.flt ∧ (State.coverRow s srk).ctrs = s.ctrs ∧ (State.coverRow s srk).grps = s.grps ∧
    (State.coverRow s srk).pwr = s.pwr ∧ (State.coverRow s srk).thm = s.thm ∧ (State.coverRow s srk).age = s.age ∧
    (State.coverRow s srk).cnv = s.cnv ∧ (State.coverRow s srk).fwu = s.fwu ∧ (State.coverRow s srk).glb = s.glb ∧
    (State.coverRow s srk).sb = s.sb := by
  have w1 := @State.markDurable_still
  unfold State.coverRow; repeat' split
  all_goals simp [*]
theorem State.rowPass_still (s : State) (srk d : Nat) :
    (State.rowPass s srk d).pending = s.pending ∧ (State.rowPass s srk d).free = s.free ∧ (State.rowPass s srk d).host = s.host ∧
    (State.rowPass s srk d).epoch = s.epoch ∧ (State.rowPass s srk d).pat = s.pat ∧ (State.rowPass s srk d).routes = s.routes ∧
    (State.rowPass s srk d).dramMargin = s.dramMargin ∧ (State.rowPass s srk d).ports = s.ports ∧
    (State.rowPass s srk d).trickle = s.trickle ∧ (State.rowPass s srk d).cmd = s.cmd ∧ (State.rowPass s srk d).cpx = s.cpx ∧
    (State.rowPass s srk d).wvf = s.wvf ∧ (State.rowPass s srk d).bpm = s.bpm ∧ (State.rowPass s srk d).sec = s.sec ∧
    (State.rowPass s srk d).mic = s.mic ∧ (State.rowPass s srk d).ctrs = s.ctrs ∧ (State.rowPass s srk d).grps = s.grps ∧
    (State.rowPass s srk d).thm = s.thm ∧ (State.rowPass s srk d).age = s.age ∧ (State.rowPass s srk d).cnv = s.cnv ∧
    (State.rowPass s srk d).fwu = s.fwu ∧ (State.rowPass s srk d).glb = s.glb ∧ (State.rowPass s srk d).sb = s.sb := by
  have w1 := @State.coverRow_still; have w2 := @State.noteProgram_still; have w3 := @State.setRow_still
  have w4 := @State.settleRow_still
  unfold State.rowPass; repeat' split
  all_goals simp [*]
theorem State.dropFix_still (s : State) (d block : Nat) :
    (State.dropFix s d block).pending = s.pending ∧ (State.dropFix s d block).epoch = s.epoch ∧ (State.dropFix s d block).pat = s.pat ∧
    (State.dropFix s d block).isl = s.isl ∧ (State.dropFix s d block).dramMargin = s.dramMargin ∧
    (State.dropFix s d block).ports = s.ports ∧ (State.dropFix s d block).trickle = s.trickle ∧ (State.dropFix s d block).mlf = s.mlf ∧
    (State.dropFix s d block).sec = s.sec ∧ (State.dropFix s d block).ctrs = s.ctrs ∧ (State.dropFix s d block).grps = s.grps ∧
    (State.dropFix s d block).pwr = s.pwr ∧ (State.dropFix s d block).thm = s.thm ∧ (State.dropFix s d block).age = s.age ∧
    (State.dropFix s d block).cnv = s.cnv ∧ (State.dropFix s d block).fwu = s.fwu ∧ (State.dropFix s d block).glb = s.glb := by
  have w2 := @State.modDie_still
  simp [State.dropFix, w2]
theorem State.partLost_still (s : State) (d block : Nat) :
    (State.partLost s d block).pending = s.pending ∧ (State.partLost s d block).free = s.free ∧ (State.partLost s d block).host = s.host ∧
    (State.partLost s d block).epoch = s.epoch ∧ (State.partLost s d block).pat = s.pat ∧ (State.partLost s d block).routes = s.routes ∧
    (State.partLost s d block).dramMargin = s.dramMargin ∧ (State.partLost s d block).ports = s.ports ∧
    (State.partLost s d block).trickle = s.trickle ∧ (State.partLost s d block).zon = s.zon ∧ (State.partLost s d block).cpx = s.cpx ∧
    (State.partLost s d block).wvf = s.wvf ∧ (State.partLost s d block).bpm = s.bpm ∧ (State.partLost s d block).sec = s.sec ∧
    (State.partLost s d block).mic = s.mic ∧ (State.partLost s d block).ctrs = s.ctrs ∧ (State.partLost s d block).grps = s.grps ∧
    (State.partLost s d block).thm = s.thm ∧ (State.partLost s d block).age = s.age ∧ (State.partLost s d block).cnv = s.cnv ∧
    (State.partLost s d block).fwu = s.fwu ∧ (State.partLost s d block).glb = s.glb ∧ (State.partLost s d block).sb = s.sb := by
  have w1 := @State.recordLost_still; have w2 := @State.queueReloc_still; have wf := @foldl_parts; have wp := @foldl_snd_parts
  have wi := @ite_parts
  unfold State.partLost; repeat' split
  all_goals simp [*]
theorem State.rowFail_still (s : State) (srk d : Nat) :
    (State.rowFail s srk d).pending = s.pending ∧ (State.rowFail s srk d).epoch = s.epoch ∧ (State.rowFail s srk d).pat = s.pat ∧
    (State.rowFail s srk d).dramMargin = s.dramMargin ∧ (State.rowFail s srk d).ports = s.ports ∧
    (State.rowFail s srk d).trickle = s.trickle ∧ (State.rowFail s srk d).sec = s.sec ∧ (State.rowFail s srk d).ctrs = s.ctrs ∧
    (State.rowFail s srk d).grps = s.grps ∧ (State.rowFail s srk d).thm = s.thm ∧ (State.rowFail s srk d).age = s.age ∧
    (State.rowFail s srk d).cnv = s.cnv ∧ (State.rowFail s srk d).fwu = s.fwu ∧ (State.rowFail s srk d).glb = s.glb := by
  have w1 := @State.chCnt_still; have w2 := @State.lifeErr_still; have w3 := @State.dropFix_still
  have w4 := @State.retireBlock_still; have w5 := @State.setRow_still; have w6 := @State.coverRow_still
  have w7 := @State.startFix_still; have w8 := @State.partLost_still; have w9 := @State.rowDieLost_still; have wi := @ite_parts
  unfold State.rowFail; dsimp only; repeat' split
  all_goals simp [*]
theorem State.fixAgain_still (s : State) (d block : Nat) :
    (State.fixAgain s d block).pending = s.pending ∧ (State.fixAgain s d block).epoch = s.epoch ∧ (State.fixAgain s d block).pat = s.pat ∧
    (State.fixAgain s d block).dramMargin = s.dramMargin ∧ (State.fixAgain s d block).ports = s.ports ∧
    (State.fixAgain s d block).trickle = s.trickle ∧ (State.fixAgain s d block).sec = s.sec ∧ (State.fixAgain s d block).ctrs = s.ctrs ∧
    (State.fixAgain s d block).grps = s.grps ∧ (State.fixAgain s d block).thm = s.thm ∧ (State.fixAgain s d block).age = s.age ∧
    (State.fixAgain s d block).cnv = s.cnv ∧ (State.fixAgain s d block).fwu = s.fwu ∧ (State.fixAgain s d block).glb = s.glb := by
  have w1 := @State.chCnt_still; have w2 := @State.lifeErr_still; have w3 := @State.dropFix_still
  have w4 := @State.retireBlock_still; have w5 := @State.startFix_still; have w6 := @State.partLost_still
  have w7 := @State.rowDieLost_still; have wi := @ite_parts
  unfold State.fixAgain; dsimp only; repeat' split
  all_goals simp [*]
theorem State.landPass_still (s : State) (id d k : Nat) :
    (State.landPass s id d k).pending = s.pending ∧ (State.landPass s id d k).free = s.free ∧ (State.landPass s id d k).host = s.host ∧
    (State.landPass s id d k).epoch = s.epoch ∧ (State.landPass s id d k).pat = s.pat ∧ (State.landPass s id d k).isl = s.isl ∧
    (State.landPass s id d k).routes = s.routes ∧ (State.landPass s id d k).dramMargin = s.dramMargin ∧
    (State.landPass s id d k).ports = s.ports ∧ (State.landPass s id d k).trickle = s.trickle ∧ (State.landPass s id d k).cmd = s.cmd ∧
    (State.landPass s id d k).mlf = s.mlf ∧ (State.landPass s id d k).cpx = s.cpx ∧ (State.landPass s id d k).wvf = s.wvf ∧
    (State.landPass s id d k).bpm = s.bpm ∧ (State.landPass s id d k).sli = s.sli ∧ (State.landPass s id d k).sec = s.sec ∧
    (State.landPass s id d k).mic = s.mic ∧ (State.landPass s id d k).flt = s.flt ∧ (State.landPass s id d k).ctrs = s.ctrs ∧
    (State.landPass s id d k).grps = s.grps ∧ (State.landPass s id d k).pwr = s.pwr ∧ (State.landPass s id d k).thm = s.thm ∧
    (State.landPass s id d k).age = s.age ∧ (State.landPass s id d k).cnv = s.cnv ∧ (State.landPass s id d k).fwu = s.fwu ∧
    (State.landPass s id d k).glb = s.glb ∧ (State.landPass s id d k).sb = s.sb := by
  have w1 := @State.noteProgram_still; have w2 := @State.settleLanding_still
  unfold State.landPass; repeat' split
  all_goals simp [*]
theorem State.landFail_still (s : State) (id d k : Nat) :
    (State.landFail s id d k).pending = s.pending ∧ (State.landFail s id d k).epoch = s.epoch ∧ (State.landFail s id d k).pat = s.pat ∧
    (State.landFail s id d k).dramMargin = s.dramMargin ∧ (State.landFail s id d k).ports = s.ports ∧
    (State.landFail s id d k).trickle = s.trickle ∧ (State.landFail s id d k).sec = s.sec ∧ (State.landFail s id d k).ctrs = s.ctrs ∧
    (State.landFail s id d k).grps = s.grps ∧ (State.landFail s id d k).thm = s.thm ∧ (State.landFail s id d k).age = s.age ∧
    (State.landFail s id d k).cnv = s.cnv ∧ (State.landFail s id d k).fwu = s.fwu ∧ (State.landFail s id d k).glb = s.glb := by
  have w1 := @State.chCnt_still; have w2 := @State.lifeErr_still; have w3 := @State.retireBlock_still
  have w4 := @State.landingDieLost_still
  simp [State.landFail, w1, w2, w3, w4]
theorem State.targetFail_still (s : State) (d k : Nat) :
    (State.targetFail s d k).pending = s.pending ∧ (State.targetFail s d k).epoch = s.epoch ∧ (State.targetFail s d k).pat = s.pat ∧
    (State.targetFail s d k).dramMargin = s.dramMargin ∧ (State.targetFail s d k).ports = s.ports ∧
    (State.targetFail s d k).trickle = s.trickle ∧ (State.targetFail s d k).sec = s.sec ∧ (State.targetFail s d k).ctrs = s.ctrs ∧
    (State.targetFail s d k).grps = s.grps ∧ (State.targetFail s d k).thm = s.thm ∧ (State.targetFail s d k).age = s.age ∧
    (State.targetFail s d k).cnv = s.cnv ∧ (State.targetFail s d k).fwu = s.fwu ∧ (State.targetFail s d k).glb = s.glb := by
  have w1 := @State.chCnt_still; have w2 := @State.lifeErr_still; have w3 := @State.retireBlock_still
  have w4 := @State.relocRestart_still
  unfold State.targetFail; repeat' split
  all_goals simp [*]
theorem State.verifyFail_still (s : State) (d : Nat) (o : DieOp) :
    (State.verifyFail s d o).pending = s.pending ∧ (State.verifyFail s d o).epoch = s.epoch ∧ (State.verifyFail s d o).pat = s.pat ∧
    (State.verifyFail s d o).dramMargin = s.dramMargin ∧ (State.verifyFail s d o).ports = s.ports ∧
    (State.verifyFail s d o).trickle = s.trickle ∧ (State.verifyFail s d o).sec = s.sec ∧ (State.verifyFail s d o).ctrs = s.ctrs ∧
    (State.verifyFail s d o).grps = s.grps ∧ (State.verifyFail s d o).thm = s.thm ∧ (State.verifyFail s d o).age = s.age ∧
    (State.verifyFail s d o).cnv = s.cnv ∧ (State.verifyFail s d o).fwu = s.fwu ∧ (State.verifyFail s d o).glb = s.glb := by
  have w1 := @State.landFail_still; have w2 := @State.targetFail_still; have w3 := @State.rowFail_still
  have w4 := @State.fixAgain_still; have wi := @ite_parts
  unfold State.verifyFail; dsimp only; repeat' split
  all_goals simp [*]
theorem State.fixPass_still (s : State) (id d : Nat) :
    (State.fixPass s id d).pending = s.pending ∧ (State.fixPass s id d).epoch = s.epoch ∧ (State.fixPass s id d).pat = s.pat ∧
    (State.fixPass s id d).isl = s.isl ∧ (State.fixPass s id d).dramMargin = s.dramMargin ∧ (State.fixPass s id d).ports = s.ports ∧
    (State.fixPass s id d).trickle = s.trickle ∧ (State.fixPass s id d).mlf = s.mlf ∧ (State.fixPass s id d).sec = s.sec ∧
    (State.fixPass s id d).ctrs = s.ctrs ∧ (State.fixPass s id d).grps = s.grps ∧ (State.fixPass s id d).pwr = s.pwr ∧
    (State.fixPass s id d).thm = s.thm ∧ (State.fixPass s id d).age = s.age ∧ (State.fixPass s id d).cnv = s.cnv ∧
    (State.fixPass s id d).fwu = s.fwu ∧ (State.fixPass s id d).glb = s.glb := by
  have w1 := @State.noteProgram_still; have w2 := @State.fix_still; have wi := @ite_parts
  unfold State.fixPass; repeat' split
  all_goals simp [*]
theorem State.opEnd_still (s : State) (d : Nat) (o : DieOp) (res : DieResult) :
    (State.opEnd s d o res).pending = s.pending ∧ (State.opEnd s d o res).epoch = s.epoch ∧ (State.opEnd s d o res).pat = s.pat ∧
    (State.opEnd s d o res).dramMargin = s.dramMargin ∧ (State.opEnd s d o res).ports = s.ports ∧
    (State.opEnd s d o res).trickle = s.trickle ∧ (State.opEnd s d o res).sec = s.sec ∧ (State.opEnd s d o res).ctrs = s.ctrs ∧
    (State.opEnd s d o res).grps = s.grps ∧ (State.opEnd s d o res).thm = s.thm ∧ (State.opEnd s d o res).age = s.age ∧
    (State.opEnd s d o res).cnv = s.cnv ∧ (State.opEnd s d o res).fwu = s.fwu ∧ (State.opEnd s d o res).glb = s.glb := by
  have w1 := @State.readEnd_still; have w2 := @State.srcEnd_still; have w3 := @State.countCw_still
  have w4 := @State.verifyFail_still; have w5 := @State.rowPass_still; have w6 := @State.rowFail_still
  have w7 := @State.landPass_still; have w8 := @State.landFail_still; have w9 := @State.blockErased_still
  have w10 := @State.chCnt_still; have w11 := @State.lifeErr_still; have w12 := @State.retireBlock_still
  have w13 := @State.noteProgram_still; have w14 := @State.targetFail_still; have w15 := @State.fix_still
  have w16 := @State.fixPass_still; have w17 := @State.fixAgain_still; have wi := @ite_parts
  unfold State.opEnd; repeat' split
  all_goals simp [*]
theorem State.startRetrain_still (s : State) (ch : Nat) (act : WsAct) :
    (State.startRetrain s ch act).pending = s.pending ∧ (State.startRetrain s ch act).free = s.free ∧
    (State.startRetrain s ch act).host = s.host ∧ (State.startRetrain s ch act).epoch = s.epoch ∧
    (State.startRetrain s ch act).pat = s.pat ∧ (State.startRetrain s ch act).isl = s.isl ∧
    (State.startRetrain s ch act).routes = s.routes ∧ (State.startRetrain s ch act).dramMargin = s.dramMargin ∧
    (State.startRetrain s ch act).ports = s.ports ∧ (State.startRetrain s ch act).trickle = s.trickle ∧
    (State.startRetrain s ch act).cmd = s.cmd ∧ (State.startRetrain s ch act).zon = s.zon ∧ (State.startRetrain s ch act).cpx = s.cpx ∧
    (State.startRetrain s ch act).wvf = s.wvf ∧ (State.startRetrain s ch act).bpm = s.bpm ∧ (State.startRetrain s ch act).sli = s.sli ∧
    (State.startRetrain s ch act).sec = s.sec ∧ (State.startRetrain s ch act).mic = s.mic ∧ (State.startRetrain s ch act).flt = s.flt ∧
    (State.startRetrain s ch act).ctrs = s.ctrs ∧ (State.startRetrain s ch act).grps = s.grps ∧ (State.startRetrain s ch act).pwr = s.pwr ∧
    (State.startRetrain s ch act).thm = s.thm ∧ (State.startRetrain s ch act).age = s.age ∧ (State.startRetrain s ch act).cnv = s.cnv ∧
    (State.startRetrain s ch act).fwu = s.fwu ∧ (State.startRetrain s ch act).glb = s.glb ∧ (State.startRetrain s ch act).sb = s.sb := by
  have w1 := @State.modChan_still; have w2 := @State.lifeErr_still
  simp [State.startRetrain, w1, w2]
theorem State.crcFail_still (s : State) (d : Nat) (o : DieOp) :
    (State.crcFail s d o).pending = s.pending ∧ (State.crcFail s d o).free = s.free ∧ (State.crcFail s d o).host = s.host ∧
    (State.crcFail s d o).epoch = s.epoch ∧ (State.crcFail s d o).pat = s.pat ∧ (State.crcFail s d o).isl = s.isl ∧
    (State.crcFail s d o).routes = s.routes ∧ (State.crcFail s d o).dramMargin = s.dramMargin ∧ (State.crcFail s d o).ports = s.ports ∧
    (State.crcFail s d o).trickle = s.trickle ∧ (State.crcFail s d o).cmd = s.cmd ∧ (State.crcFail s d o).zon = s.zon ∧
    (State.crcFail s d o).cpx = s.cpx ∧ (State.crcFail s d o).wvf = s.wvf ∧ (State.crcFail s d o).bpm = s.bpm ∧
    (State.crcFail s d o).sli = s.sli ∧ (State.crcFail s d o).sec = s.sec ∧ (State.crcFail s d o).mic = s.mic ∧
    (State.crcFail s d o).flt = s.flt ∧ (State.crcFail s d o).ctrs = s.ctrs ∧ (State.crcFail s d o).grps = s.grps ∧
    (State.crcFail s d o).pwr = s.pwr ∧ (State.crcFail s d o).thm = s.thm ∧ (State.crcFail s d o).age = s.age ∧
    (State.crcFail s d o).cnv = s.cnv ∧ (State.crcFail s d o).fwu = s.fwu ∧ (State.crcFail s d o).glb = s.glb ∧
    (State.crcFail s d o).sb = s.sb := by
  have w1 := @State.modDie_still; have w2 := @State.modChan_still; have w3 := @State.startRetrain_still; have wi := @ite_parts
  simp [State.crcFail, w1, w2, w3, wi]
theorem State.kickChan_still (s : State) (ch : Nat) :
    (State.kickChan s ch).pending = s.pending ∧ (State.kickChan s ch).free = s.free ∧ (State.kickChan s ch).host = s.host ∧
    (State.kickChan s ch).epoch = s.epoch ∧ (State.kickChan s ch).pat = s.pat ∧ (State.kickChan s ch).routes = s.routes ∧
    (State.kickChan s ch).dramMargin = s.dramMargin ∧ (State.kickChan s ch).ports = s.ports ∧ (State.kickChan s ch).trickle = s.trickle ∧
    (State.kickChan s ch).cmd = s.cmd ∧ (State.kickChan s ch).zon = s.zon ∧ (State.kickChan s ch).mlf = s.mlf ∧
    (State.kickChan s ch).cpx = s.cpx ∧ (State.kickChan s ch).wvf = s.wvf ∧ (State.kickChan s ch).bpm = s.bpm ∧
    (State.kickChan s ch).sec = s.sec ∧ (State.kickChan s ch).mic = s.mic ∧ (State.kickChan s ch).flt = s.flt ∧
    (State.kickChan s ch).ctrs = s.ctrs ∧ (State.kickChan s ch).grps = s.grps ∧ (State.kickChan s ch).pwr = s.pwr ∧
    (State.kickChan s ch).thm = s.thm ∧ (State.kickChan s ch).age = s.age ∧ (State.kickChan s ch).cnv = s.cnv ∧
    (State.kickChan s ch).fwu = s.fwu ∧ (State.kickChan s ch).glb = s.glb ∧ (State.kickChan s ch).sb = s.sb := by
  have w1 := @State.kick_still; have wf := @foldl_parts
  simp [State.kickChan, w1, wf]
theorem State.endRetrain_still (s : State) (ch : Nat) (ok : Bool) :
    (State.endRetrain s ch ok).pending = s.pending ∧ (State.endRetrain s ch ok).epoch = s.epoch ∧ (State.endRetrain s ch ok).pat = s.pat ∧
    (State.endRetrain s ch ok).dramMargin = s.dramMargin ∧ (State.endRetrain s ch ok).ports = s.ports ∧
    (State.endRetrain s ch ok).trickle = s.trickle ∧ (State.endRetrain s ch ok).sec = s.sec ∧ (State.endRetrain s ch ok).ctrs = s.ctrs ∧
    (State.endRetrain s ch ok).grps = s.grps ∧ (State.endRetrain s ch ok).thm = s.thm ∧ (State.endRetrain s ch ok).age = s.age ∧
    (State.endRetrain s ch ok).cnv = s.cnv ∧ (State.endRetrain s ch ok).fwu = s.fwu ∧ (State.endRetrain s ch ok).glb = s.glb := by
  have w1 := @State.setChan_still; have w3 := @State.kickChan_still
  have w4 := @State.isolateChannel_still; have w5 := @State.startRetrain_still; have wi := @ite_parts
  simp [State.endRetrain, w1, w3, w4, w5, wi]
theorem State.retrainWrite_still (s : State) (ch : Nat) :
    (State.retrainWrite s ch).pending = s.pending ∧ (State.retrainWrite s ch).free = s.free ∧ (State.retrainWrite s ch).host = s.host ∧
    (State.retrainWrite s ch).epoch = s.epoch ∧ (State.retrainWrite s ch).pat = s.pat ∧ (State.retrainWrite s ch).isl = s.isl ∧
    (State.retrainWrite s ch).routes = s.routes ∧ (State.retrainWrite s ch).dramMargin = s.dramMargin ∧
    (State.retrainWrite s ch).ports = s.ports ∧ (State.retrainWrite s ch).trickle = s.trickle ∧ (State.retrainWrite s ch).cmd = s.cmd ∧
    (State.retrainWrite s ch).zon = s.zon ∧ (State.retrainWrite s ch).cpx = s.cpx ∧ (State.retrainWrite s ch).wvf = s.wvf ∧
    (State.retrainWrite s ch).bpm = s.bpm ∧ (State.retrainWrite s ch).sli = s.sli ∧ (State.retrainWrite s ch).sec = s.sec ∧
    (State.retrainWrite s ch).mic = s.mic ∧ (State.retrainWrite s ch).flt = s.flt ∧ (State.retrainWrite s ch).ctrs = s.ctrs ∧
    (State.retrainWrite s ch).grps = s.grps ∧ (State.retrainWrite s ch).pwr = s.pwr ∧ (State.retrainWrite s ch).thm = s.thm ∧
    (State.retrainWrite s ch).age = s.age ∧ (State.retrainWrite s ch).cnv = s.cnv ∧ (State.retrainWrite s ch).fwu = s.fwu ∧
    (State.retrainWrite s ch).glb = s.glb ∧ (State.retrainWrite s ch).sb = s.sb := by
  have w1 := @State.setChan_still; have w2 := @State.startRetrain_still; have wi := @ite_parts
  simp [State.retrainWrite, w1, w2, wi]
theorem State.schedWrite_still (s : State) (k ecl rebuild : Nat) (susp : Bool) :
    (State.schedWrite s k ecl rebuild susp).pending = s.pending ∧ (State.schedWrite s k ecl rebuild susp).free = s.free ∧
    (State.schedWrite s k ecl rebuild susp).host = s.host ∧ (State.schedWrite s k ecl rebuild susp).epoch = s.epoch ∧
    (State.schedWrite s k ecl rebuild susp).pat = s.pat ∧ (State.schedWrite s k ecl rebuild susp).isl = s.isl ∧
    (State.schedWrite s k ecl rebuild susp).routes = s.routes ∧ (State.schedWrite s k ecl rebuild susp).dramMargin = s.dramMargin ∧
    (State.schedWrite s k ecl rebuild susp).ports = s.ports ∧ (State.schedWrite s k ecl rebuild susp).trickle = s.trickle ∧
    (State.schedWrite s k ecl rebuild susp).cmd = s.cmd ∧ (State.schedWrite s k ecl rebuild susp).zon = s.zon ∧
    (State.schedWrite s k ecl rebuild susp).mlf = s.mlf ∧ (State.schedWrite s k ecl rebuild susp).cpx = s.cpx ∧
    (State.schedWrite s k ecl rebuild susp).wvf = s.wvf ∧ (State.schedWrite s k ecl rebuild susp).bpm = s.bpm ∧
    (State.schedWrite s k ecl rebuild susp).sli = s.sli ∧ (State.schedWrite s k ecl rebuild susp).sec = s.sec ∧
    (State.schedWrite s k ecl rebuild susp).mic = s.mic ∧ (State.schedWrite s k ecl rebuild susp).flt = s.flt ∧
    (State.schedWrite s k ecl rebuild susp).ctrs = s.ctrs ∧ (State.schedWrite s k ecl rebuild susp).grps = s.grps ∧
    (State.schedWrite s k ecl rebuild susp).pwr = s.pwr ∧ (State.schedWrite s k ecl rebuild susp).thm = s.thm ∧
    (State.schedWrite s k ecl rebuild susp).age = s.age ∧ (State.schedWrite s k ecl rebuild susp).cnv = s.cnv ∧
    (State.schedWrite s k ecl rebuild susp).fwu = s.fwu ∧ (State.schedWrite s k ecl rebuild susp).glb = s.glb ∧
    (State.schedWrite s k ecl rebuild susp).sb = s.sb := by
  have w1 := @State.modClu_still; have wi := @ite_parts
  simp [State.schedWrite, w1, wi]
theorem State.bayChans_still (s : State) (b cs : Nat) :
    (State.bayChans s b cs).pending = s.pending ∧ (State.bayChans s b cs).free = s.free ∧ (State.bayChans s b cs).host = s.host ∧
    (State.bayChans s b cs).epoch = s.epoch ∧ (State.bayChans s b cs).pat = s.pat ∧ (State.bayChans s b cs).isl = s.isl ∧
    (State.bayChans s b cs).routes = s.routes ∧ (State.bayChans s b cs).dramMargin = s.dramMargin ∧
    (State.bayChans s b cs).ports = s.ports ∧ (State.bayChans s b cs).trickle = s.trickle ∧ (State.bayChans s b cs).cmd = s.cmd ∧
    (State.bayChans s b cs).zon = s.zon ∧ (State.bayChans s b cs).mlf = s.mlf ∧ (State.bayChans s b cs).cpx = s.cpx ∧
    (State.bayChans s b cs).wvf = s.wvf ∧ (State.bayChans s b cs).bpm = s.bpm ∧ (State.bayChans s b cs).sli = s.sli ∧
    (State.bayChans s b cs).sec = s.sec ∧ (State.bayChans s b cs).mic = s.mic ∧ (State.bayChans s b cs).flt = s.flt ∧
    (State.bayChans s b cs).ctrs = s.ctrs ∧ (State.bayChans s b cs).grps = s.grps ∧ (State.bayChans s b cs).pwr = s.pwr ∧
    (State.bayChans s b cs).thm = s.thm ∧ (State.bayChans s b cs).age = s.age ∧ (State.bayChans s b cs).cnv = s.cnv ∧
    (State.bayChans s b cs).fwu = s.fwu ∧ (State.bayChans s b cs).glb = s.glb ∧ (State.bayChans s b cs).sb = s.sb := by
  have w1 := @State.modChan_still; have wf := @foldl_parts
  simp [State.bayChans, w1, wf]
theorem State.geomFault_still (s : State) (b : Nat) :
    (State.geomFault s b).pending = s.pending ∧ (State.geomFault s b).epoch = s.epoch ∧ (State.geomFault s b).pat = s.pat ∧
    (State.geomFault s b).dramMargin = s.dramMargin ∧ (State.geomFault s b).ports = s.ports ∧ (State.geomFault s b).trickle = s.trickle ∧
    (State.geomFault s b).sec = s.sec ∧ (State.geomFault s b).ctrs = s.ctrs ∧ (State.geomFault s b).grps = s.grps ∧
    (State.geomFault s b).thm = s.thm ∧ (State.geomFault s b).age = s.age ∧ (State.geomFault s b).cnv = s.cnv ∧
    (State.geomFault s b).fwu = s.fwu ∧ (State.geomFault s b).glb = s.glb := by
  have w1 := @State.modBay_still; have w2 := @State.bayChans_still; have w3 := @State.bayDiesGone_still
  have w4 := @State.bayEvt_still
  simp [State.geomFault, w1, w2, w3, w4]
theorem State.matchDie_still (s : State) (b : Nat) (x : ScanDie) :
    (State.matchDie s b x).pending = s.pending ∧ (State.matchDie s b x).free = s.free ∧ (State.matchDie s b x).host = s.host ∧
    (State.matchDie s b x).epoch = s.epoch ∧ (State.matchDie s b x).pat = s.pat ∧ (State.matchDie s b x).routes = s.routes ∧
    (State.matchDie s b x).dramMargin = s.dramMargin ∧ (State.matchDie s b x).ports = s.ports ∧
    (State.matchDie s b x).trickle = s.trickle ∧ (State.matchDie s b x).zon = s.zon ∧ (State.matchDie s b x).cpx = s.cpx ∧
    (State.matchDie s b x).wvf = s.wvf ∧ (State.matchDie s b x).bpm = s.bpm ∧ (State.matchDie s b x).sec = s.sec ∧
    (State.matchDie s b x).mic = s.mic ∧ (State.matchDie s b x).ctrs = s.ctrs ∧ (State.matchDie s b x).grps = s.grps ∧
    (State.matchDie s b x).thm = s.thm ∧ (State.matchDie s b x).age = s.age ∧ (State.matchDie s b x).cnv = s.cnv ∧
    (State.matchDie s b x).fwu = s.fwu ∧ (State.matchDie s b x).glb = s.glb ∧ (State.matchDie s b x).sb = s.sb := by
  have w1 := @State.returnDie_still; have w2 := @State.modBay_still; have wi := @ite_parts
  simp [State.matchDie, w1, w2, wi]
theorem State.settleBay_still (s : State) (b : Nat) :
    (State.settleBay s b).pending = s.pending ∧ (State.settleBay s b).free = s.free ∧ (State.settleBay s b).host = s.host ∧
    (State.settleBay s b).epoch = s.epoch ∧ (State.settleBay s b).pat = s.pat ∧ (State.settleBay s b).isl = s.isl ∧
    (State.settleBay s b).routes = s.routes ∧ (State.settleBay s b).dramMargin = s.dramMargin ∧ (State.settleBay s b).ports = s.ports ∧
    (State.settleBay s b).trickle = s.trickle ∧ (State.settleBay s b).cmd = s.cmd ∧ (State.settleBay s b).zon = s.zon ∧
    (State.settleBay s b).mlf = s.mlf ∧ (State.settleBay s b).cpx = s.cpx ∧ (State.settleBay s b).wvf = s.wvf ∧
    (State.settleBay s b).bpm = s.bpm ∧ (State.settleBay s b).sli = s.sli ∧ (State.settleBay s b).sec = s.sec ∧
    (State.settleBay s b).mic = s.mic ∧ (State.settleBay s b).flt = s.flt ∧ (State.settleBay s b).ctrs = s.ctrs ∧
    (State.settleBay s b).grps = s.grps ∧ (State.settleBay s b).pwr = s.pwr ∧ (State.settleBay s b).thm = s.thm ∧
    (State.settleBay s b).age = s.age ∧ (State.settleBay s b).cnv = s.cnv ∧ (State.settleBay s b).fwu = s.fwu ∧
    (State.settleBay s b).glb = s.glb ∧ (State.settleBay s b).sb = s.sb := by
  have w1 := @State.setBay_still
  simp [State.settleBay, w1]
theorem State.kickBay_still (s : State) (b : Nat) :
    (State.kickBay s b).pending = s.pending ∧ (State.kickBay s b).free = s.free ∧ (State.kickBay s b).host = s.host ∧
    (State.kickBay s b).epoch = s.epoch ∧ (State.kickBay s b).pat = s.pat ∧ (State.kickBay s b).routes = s.routes ∧
    (State.kickBay s b).dramMargin = s.dramMargin ∧ (State.kickBay s b).ports = s.ports ∧ (State.kickBay s b).trickle = s.trickle ∧
    (State.kickBay s b).cmd = s.cmd ∧ (State.kickBay s b).zon = s.zon ∧ (State.kickBay s b).mlf = s.mlf ∧ (State.kickBay s b).cpx = s.cpx ∧
    (State.kickBay s b).wvf = s.wvf ∧ (State.kickBay s b).bpm = s.bpm ∧ (State.kickBay s b).sec = s.sec ∧ (State.kickBay s b).mic = s.mic ∧
    (State.kickBay s b).flt = s.flt ∧ (State.kickBay s b).ctrs = s.ctrs ∧ (State.kickBay s b).grps = s.grps ∧
    (State.kickBay s b).pwr = s.pwr ∧ (State.kickBay s b).thm = s.thm ∧ (State.kickBay s b).age = s.age ∧ (State.kickBay s b).cnv = s.cnv ∧
    (State.kickBay s b).fwu = s.fwu ∧ (State.kickBay s b).glb = s.glb ∧ (State.kickBay s b).sb = s.sb := by
  have w1 := @State.kick_still; have w2 := @State.reissueBusy_still; have wf := @foldl_parts
  simp [State.kickBay, w1, w2, wf]
theorem State.scanBay_still (s : State) (b : Nat) (dies : List ScanDie) (pp : ParamPage) :
    (State.scanBay s b dies pp).pending = s.pending ∧ (State.scanBay s b dies pp).epoch = s.epoch ∧
    (State.scanBay s b dies pp).dramMargin = s.dramMargin ∧ (State.scanBay s b dies pp).ports = s.ports ∧
    (State.scanBay s b dies pp).trickle = s.trickle ∧ (State.scanBay s b dies pp).sec = s.sec ∧ (State.scanBay s b dies pp).ctrs = s.ctrs ∧
    (State.scanBay s b dies pp).grps = s.grps ∧ (State.scanBay s b dies pp).thm = s.thm ∧ (State.scanBay s b dies pp).age = s.age ∧
    (State.scanBay s b dies pp).cnv = s.cnv ∧ (State.scanBay s b dies pp).fwu = s.fwu ∧ (State.scanBay s b dies pp).glb = s.glb := by
  have w1 := @State.geomFault_still; have w2 := @State.queueFault_still; have w3 := @State.modChan_still
  have w4 := @State.bayChans_still; have w5 := @State.matchDie_still; have w6 := @State.settleBay_still
  have w7 := @State.bayEvt_still; have w8 := @State.kickBay_still; have w9 := @State.relStep_still
  have w10 := @State.rebuildCheck_still; have wf := @foldl_parts; have wp := @foldl_snd_parts; have wi := @ite_parts
  unfold State.scanBay; repeat' split
  all_goals simp [*]
theorem State.surprise_still (s : State) (b : Nat) (gone : Bool) :
    (State.surprise s b gone).pending = s.pending ∧ (State.surprise s b gone).epoch = s.epoch ∧ (State.surprise s b gone).pat = s.pat ∧
    (State.surprise s b gone).dramMargin = s.dramMargin ∧ (State.surprise s b gone).ports = s.ports ∧
    (State.surprise s b gone).trickle = s.trickle ∧ (State.surprise s b gone).sec = s.sec ∧ (State.surprise s b gone).ctrs = s.ctrs ∧
    (State.surprise s b gone).grps = s.grps ∧ (State.surprise s b gone).thm = s.thm ∧ (State.surprise s b gone).age = s.age ∧
    (State.surprise s b gone).cnv = s.cnv ∧ (State.surprise s b gone).fwu = s.fwu ∧ (State.surprise s b gone).glb = s.glb := by
  have w1 := @State.setBay_still; have w2 := @State.bayEvt_still; have w3 := @State.modBay_still; have w4 := @State.bayHeld_still
  have w5 := @State.bayLose_still; have wi := @ite_parts
  simp [State.surprise, w1, w2, w3, w4, w5, wi]
theorem State.stopRebuild_still (s : State) (b : Nat) :
    (State.stopRebuild s b).pending = s.pending ∧ (State.stopRebuild s b).free = s.free ∧ (State.stopRebuild s b).host = s.host ∧
    (State.stopRebuild s b).epoch = s.epoch ∧ (State.stopRebuild s b).pat = s.pat ∧ (State.stopRebuild s b).isl = s.isl ∧
    (State.stopRebuild s b).routes = s.routes ∧ (State.stopRebuild s b).dramMargin = s.dramMargin ∧
    (State.stopRebuild s b).ports = s.ports ∧ (State.stopRebuild s b).trickle = s.trickle ∧ (State.stopRebuild s b).cmd = s.cmd ∧
    (State.stopRebuild s b).zon = s.zon ∧ (State.stopRebuild s b).cpx = s.cpx ∧ (State.stopRebuild s b).wvf = s.wvf ∧
    (State.stopRebuild s b).bpm = s.bpm ∧ (State.stopRebuild s b).sli = s.sli ∧ (State.stopRebuild s b).sec = s.sec ∧
    (State.stopRebuild s b).mic = s.mic ∧ (State.stopRebuild s b).flt = s.flt ∧ (State.stopRebuild s b).ctrs = s.ctrs ∧
    (State.stopRebuild s b).grps = s.grps ∧ (State.stopRebuild s b).pwr = s.pwr ∧ (State.stopRebuild s b).thm = s.thm ∧
    (State.stopRebuild s b).age = s.age ∧ (State.stopRebuild s b).cnv = s.cnv ∧ (State.stopRebuild s b).fwu = s.fwu ∧
    (State.stopRebuild s b).glb = s.glb ∧ (State.stopRebuild s b).sb = s.sb := by
  have w1 := @State.relocCancel_still; have w2 := @State.modBay_still; have wf := @foldl_parts
  simp [State.stopRebuild, w1, w2, wf]
theorem State.bayRemove_still (s : State) (b : Nat) (force : Bool) :
    (State.bayRemove s b force).pending = s.pending ∧ (State.bayRemove s b force).free = s.free ∧
    (State.bayRemove s b force).host = s.host ∧ (State.bayRemove s b force).epoch = s.epoch ∧ (State.bayRemove s b force).pat = s.pat ∧
    (State.bayRemove s b force).isl = s.isl ∧ (State.bayRemove s b force).routes = s.routes ∧
    (State.bayRemove s b force).dramMargin = s.dramMargin ∧ (State.bayRemove s b force).ports = s.ports ∧
    (State.bayRemove s b force).trickle = s.trickle ∧ (State.bayRemove s b force).cmd = s.cmd ∧ (State.bayRemove s b force).zon = s.zon ∧
    (State.bayRemove s b force).cpx = s.cpx ∧ (State.bayRemove s b force).wvf = s.wvf ∧ (State.bayRemove s b force).bpm = s.bpm ∧
    (State.bayRemove s b force).sli = s.sli ∧ (State.bayRemove s b force).sec = s.sec ∧ (State.bayRemove s b force).mic = s.mic ∧
    (State.bayRemove s b force).flt = s.flt ∧ (State.bayRemove s b force).ctrs = s.ctrs ∧ (State.bayRemove s b force).grps = s.grps ∧
    (State.bayRemove s b force).pwr = s.pwr ∧ (State.bayRemove s b force).thm = s.thm ∧ (State.bayRemove s b force).age = s.age ∧
    (State.bayRemove s b force).cnv = s.cnv ∧ (State.bayRemove s b force).fwu = s.fwu ∧ (State.bayRemove s b force).glb = s.glb ∧
    (State.bayRemove s b force).sb = s.sb := by
  have w1 := @State.setBay_still; have w2 := @State.stopRebuild_still; have w3 := @State.closeBayRows_still; have wi := @ite_parts
  simp [State.bayRemove, w1, w2, w3, wi]
theorem State.acceptOne_still (s : State) (x : ScanDie) :
    (State.acceptOne s x).pending = s.pending ∧ (State.acceptOne s x).epoch = s.epoch ∧ (State.acceptOne s x).pat = s.pat ∧
    (State.acceptOne s x).dramMargin = s.dramMargin ∧ (State.acceptOne s x).ports = s.ports ∧ (State.acceptOne s x).trickle = s.trickle ∧
    (State.acceptOne s x).sec = s.sec ∧ (State.acceptOne s x).ctrs = s.ctrs ∧ (State.acceptOne s x).grps = s.grps ∧
    (State.acceptOne s x).thm = s.thm ∧ (State.acceptOne s x).age = s.age ∧ (State.acceptOne s x).cnv = s.cnv ∧
    (State.acceptOne s x).fwu = s.fwu ∧ (State.acceptOne s x).glb = s.glb := by
  have w1 := @State.acceptDie_still; have w2 := @State.spareCheck_still; have w3 := @State.refreshWaiting_still
  unfold State.acceptOne; dsimp only; repeat' split
  all_goals simp [*]
theorem State.acceptAll_still (s : State) (l : List ScanDie) :
    (State.acceptAll s l).pending = s.pending ∧ (State.acceptAll s l).epoch = s.epoch ∧ (State.acceptAll s l).pat = s.pat ∧
    (State.acceptAll s l).dramMargin = s.dramMargin ∧ (State.acceptAll s l).ports = s.ports ∧ (State.acceptAll s l).trickle = s.trickle ∧
    (State.acceptAll s l).sec = s.sec ∧ (State.acceptAll s l).ctrs = s.ctrs ∧ (State.acceptAll s l).grps = s.grps ∧
    (State.acceptAll s l).thm = s.thm ∧ (State.acceptAll s l).age = s.age ∧ (State.acceptAll s l).cnv = s.cnv ∧
    (State.acceptAll s l).fwu = s.fwu ∧ (State.acceptAll s l).glb = s.glb := by
  have w1 := @State.acceptOne_still; have wf := @foldl_parts
  simp [State.acceptAll, w1, wf]
theorem State.bayNewCmd_still (s : State) (b cmd : Nat) :
    (State.bayNewCmd s b cmd).pending = s.pending ∧ (State.bayNewCmd s b cmd).epoch = s.epoch ∧ (State.bayNewCmd s b cmd).pat = s.pat ∧
    (State.bayNewCmd s b cmd).dramMargin = s.dramMargin ∧ (State.bayNewCmd s b cmd).ports = s.ports ∧
    (State.bayNewCmd s b cmd).trickle = s.trickle ∧ (State.bayNewCmd s b cmd).sec = s.sec ∧ (State.bayNewCmd s b cmd).ctrs = s.ctrs ∧
    (State.bayNewCmd s b cmd).grps = s.grps ∧ (State.bayNewCmd s b cmd).thm = s.thm ∧ (State.bayNewCmd s b cmd).age = s.age ∧
    (State.bayNewCmd s b cmd).cnv = s.cnv ∧ (State.bayNewCmd s b cmd).fwu = s.fwu ∧ (State.bayNewCmd s b cmd).glb = s.glb := by
  have w1 := @State.setBay_still; have w2 := @State.acceptAll_still; have w3 := @State.settleBay_still; have wi := @ite_parts
  simp [State.bayNewCmd, w1, w2, w3, wi]
theorem State.bayRetry_still (s : State) (b : Nat) :
    (State.bayRetry s b).pending = s.pending ∧ (State.bayRetry s b).free = s.free ∧ (State.bayRetry s b).host = s.host ∧
    (State.bayRetry s b).epoch = s.epoch ∧ (State.bayRetry s b).pat = s.pat ∧ (State.bayRetry s b).isl = s.isl ∧
    (State.bayRetry s b).routes = s.routes ∧ (State.bayRetry s b).dramMargin = s.dramMargin ∧ (State.bayRetry s b).ports = s.ports ∧
    (State.bayRetry s b).trickle = s.trickle ∧ (State.bayRetry s b).cmd = s.cmd ∧ (State.bayRetry s b).zon = s.zon ∧
    (State.bayRetry s b).mlf = s.mlf ∧ (State.bayRetry s b).cpx = s.cpx ∧ (State.bayRetry s b).wvf = s.wvf ∧
    (State.bayRetry s b).bpm = s.bpm ∧ (State.bayRetry s b).sli = s.sli ∧ (State.bayRetry s b).sec = s.sec ∧
    (State.bayRetry s b).mic = s.mic ∧ (State.bayRetry s b).flt = s.flt ∧ (State.bayRetry s b).ctrs = s.ctrs ∧
    (State.bayRetry s b).grps = s.grps ∧ (State.bayRetry s b).pwr = s.pwr ∧ (State.bayRetry s b).thm = s.thm ∧
    (State.bayRetry s b).age = s.age ∧ (State.bayRetry s b).cnv = s.cnv ∧ (State.bayRetry s b).fwu = s.fwu ∧
    (State.bayRetry s b).glb = s.glb ∧ (State.bayRetry s b).sb = s.sb := by
  have w1 := @State.setBay_still; have wi := @ite_parts
  simp [State.bayRetry, w1, wi]
theorem State.abandonCtxs_still (s : State) :
    (State.abandonCtxs s).pending = s.pending ∧ (State.abandonCtxs s).epoch = s.epoch ∧ (State.abandonCtxs s).dramMargin = s.dramMargin ∧
    (State.abandonCtxs s).ports = s.ports ∧ (State.abandonCtxs s).trickle = s.trickle ∧ (State.abandonCtxs s).sec = s.sec ∧
    (State.abandonCtxs s).ctrs = s.ctrs ∧ (State.abandonCtxs s).grps = s.grps ∧ (State.abandonCtxs s).thm = s.thm ∧
    (State.abandonCtxs s).age = s.age ∧ (State.abandonCtxs s).cnv = s.cnv ∧ (State.abandonCtxs s).glb = s.glb := by
  have w1 := @State.dropWaiter_still; have w2 := @State.freeCtx_still; have w3 := @State.vanish_still
  have w4 := @State.resetCommit_still; have wf := @foldl_parts; have wi := @ite_parts
  simp [State.abandonCtxs, w1, w2, w3, w4, wf, wi]
theorem State.abandonRelocs_still (s : State) :
    (State.abandonRelocs s).pending = s.pending ∧ (State.abandonRelocs s).free = s.free ∧ (State.abandonRelocs s).host = s.host ∧
    (State.abandonRelocs s).epoch = s.epoch ∧ (State.abandonRelocs s).pat = s.pat ∧ (State.abandonRelocs s).isl = s.isl ∧
    (State.abandonRelocs s).routes = s.routes ∧ (State.abandonRelocs s).dramMargin = s.dramMargin ∧
    (State.abandonRelocs s).ports = s.ports ∧ (State.abandonRelocs s).trickle = s.trickle ∧ (State.abandonRelocs s).cmd = s.cmd ∧
    (State.abandonRelocs s).zon = s.zon ∧ (State.abandonRelocs s).mlf = s.mlf ∧ (State.abandonRelocs s).cpx = s.cpx ∧
    (State.abandonRelocs s).wvf = s.wvf ∧ (State.abandonRelocs s).bpm = s.bpm ∧ (State.abandonRelocs s).sli = s.sli ∧
    (State.abandonRelocs s).sec = s.sec ∧ (State.abandonRelocs s).mic = s.mic ∧ (State.abandonRelocs s).flt = s.flt ∧
    (State.abandonRelocs s).ctrs = s.ctrs ∧ (State.abandonRelocs s).grps = s.grps ∧ (State.abandonRelocs s).pwr = s.pwr ∧
    (State.abandonRelocs s).thm = s.thm ∧ (State.abandonRelocs s).age = s.age ∧ (State.abandonRelocs s).cnv = s.cnv ∧
    (State.abandonRelocs s).fwu = s.fwu ∧ (State.abandonRelocs s).glb = s.glb ∧ (State.abandonRelocs s).sb = s.sb := by
  have w1 := @State.dropTarget_still; have w2 := @State.dropRelocOps_still; have wf := @foldl_parts
  simp [State.abandonRelocs, w1, w2, wf]
theorem State.landedNow_still (s : State) (set : Nat) (units : List Nat) :
    (State.landedNow s set units).pending = s.pending ∧ (State.landedNow s set units).free = s.free ∧
    (State.landedNow s set units).host = s.host ∧ (State.landedNow s set units).epoch = s.epoch ∧
    (State.landedNow s set units).pat = s.pat ∧ (State.landedNow s set units).isl = s.isl ∧
    (State.landedNow s set units).routes = s.routes ∧ (State.landedNow s set units).dramMargin = s.dramMargin ∧
    (State.landedNow s set units).ports = s.ports ∧ (State.landedNow s set units).trickle = s.trickle ∧
    (State.landedNow s set units).cmd = s.cmd ∧ (State.landedNow s set units).mlf = s.mlf ∧ (State.landedNow s set units).cpx = s.cpx ∧
    (State.landedNow s set units).wvf = s.wvf ∧ (State.landedNow s set units).bpm = s.bpm ∧ (State.landedNow s set units).sli = s.sli ∧
    (State.landedNow s set units).sec = s.sec ∧ (State.landedNow s set units).mic = s.mic ∧ (State.landedNow s set units).flt = s.flt ∧
    (State.landedNow s set units).ctrs = s.ctrs ∧ (State.landedNow s set units).grps = s.grps ∧ (State.landedNow s set units).pwr = s.pwr ∧
    (State.landedNow s set units).thm = s.thm ∧ (State.landedNow s set units).age = s.age ∧ (State.landedNow s set units).cnv = s.cnv ∧
    (State.landedNow s set units).fwu = s.fwu ∧ (State.landedNow s set units).glb = s.glb ∧ (State.landedNow s set units).sb = s.sb := by
  have w1 := @State.modBlk_still; have w2 := @State.takeLanding_still; have w3 := @State.markDurable_still
  have wf := @foldl_parts; have wi := @ite_parts
  simp [State.landedNow, w1, w2, w3, wf, wi]
theorem State.landGroup_still (s : State) (l : List Nat) :
    (State.landGroup s l).pending = s.pending ∧ (State.landGroup s l).free = s.free ∧ (State.landGroup s l).host = s.host ∧
    (State.landGroup s l).epoch = s.epoch ∧ (State.landGroup s l).pat = s.pat ∧ (State.landGroup s l).isl = s.isl ∧
    (State.landGroup s l).routes = s.routes ∧ (State.landGroup s l).dramMargin = s.dramMargin ∧ (State.landGroup s l).ports = s.ports ∧
    (State.landGroup s l).trickle = s.trickle ∧ (State.landGroup s l).cmd = s.cmd ∧ (State.landGroup s l).mlf = s.mlf ∧
    (State.landGroup s l).cpx = s.cpx ∧ (State.landGroup s l).wvf = s.wvf ∧ (State.landGroup s l).bpm = s.bpm ∧
    (State.landGroup s l).sli = s.sli ∧ (State.landGroup s l).sec = s.sec ∧ (State.landGroup s l).mic = s.mic ∧
    (State.landGroup s l).flt = s.flt ∧ (State.landGroup s l).ctrs = s.ctrs ∧ (State.landGroup s l).grps = s.grps ∧
    (State.landGroup s l).pwr = s.pwr ∧ (State.landGroup s l).thm = s.thm ∧ (State.landGroup s l).age = s.age ∧
    (State.landGroup s l).cnv = s.cnv ∧ (State.landGroup s l).fwu = s.fwu ∧ (State.landGroup s l).glb = s.glb ∧
    (State.landGroup s l).sb = s.sb := by
  have w1 := @State.landedNow_still; have wf := @foldl_parts; have wi := @ite_parts
  simp [State.landGroup, w1, wf, wi]
theorem State.landAll_still (s : State) (whole : Bool) :
    (State.landAll s whole).pending = s.pending ∧ (State.landAll s whole).host = s.host ∧ (State.landAll s whole).epoch = s.epoch ∧
    (State.landAll s whole).pat = s.pat ∧ (State.landAll s whole).isl = s.isl ∧ (State.landAll s whole).routes = s.routes ∧
    (State.landAll s whole).dramMargin = s.dramMargin ∧ (State.landAll s whole).ports = s.ports ∧
    (State.landAll s whole).trickle = s.trickle ∧ (State.landAll s whole).cmd = s.cmd ∧ (State.landAll s whole).mlf = s.mlf ∧
    (State.landAll s whole).cpx = s.cpx ∧ (State.landAll s whole).wvf = s.wvf ∧ (State.landAll s whole).bpm = s.bpm ∧
    (State.landAll s whole).sli = s.sli ∧ (State.landAll s whole).sec = s.sec ∧ (State.landAll s whole).mic = s.mic ∧
    (State.landAll s whole).flt = s.flt ∧ (State.landAll s whole).ctrs = s.ctrs ∧ (State.landAll s whole).grps = s.grps ∧
    (State.landAll s whole).pwr = s.pwr ∧ (State.landAll s whole).thm = s.thm ∧ (State.landAll s whole).age = s.age ∧
    (State.landAll s whole).cnv = s.cnv ∧ (State.landAll s whole).fwu = s.fwu ∧ (State.landAll s whole).glb = s.glb ∧
    (State.landAll s whole).sb = s.sb := by
  have w1 := @State.landGroup_still; have w2 := @drawNat_still; have wf := @foldl_parts
  have wi := @ite_parts
  simp [State.landAll, w1, w2, wf, wi]
theorem State.wakeForLanding_still (s : State) :
    (State.wakeForLanding s).pending = s.pending ∧ (State.wakeForLanding s).free = s.free ∧ (State.wakeForLanding s).host = s.host ∧
    (State.wakeForLanding s).epoch = s.epoch ∧ (State.wakeForLanding s).pat = s.pat ∧ (State.wakeForLanding s).routes = s.routes ∧
    (State.wakeForLanding s).dramMargin = s.dramMargin ∧ (State.wakeForLanding s).ports = s.ports ∧
    (State.wakeForLanding s).trickle = s.trickle ∧ (State.wakeForLanding s).cmd = s.cmd ∧ (State.wakeForLanding s).zon = s.zon ∧
    (State.wakeForLanding s).med = s.med ∧ (State.wakeForLanding s).mlf = s.mlf ∧ (State.wakeForLanding s).cpx = s.cpx ∧
    (State.wakeForLanding s).wvf = s.wvf ∧ (State.wakeForLanding s).bpm = s.bpm ∧ (State.wakeForLanding s).sli = s.sli ∧
    (State.wakeForLanding s).sec = s.sec ∧ (State.wakeForLanding s).mic = s.mic ∧ (State.wakeForLanding s).flt = s.flt ∧
    (State.wakeForLanding s).ctrs = s.ctrs ∧ (State.wakeForLanding s).grps = s.grps ∧ (State.wakeForLanding s).thm = s.thm ∧
    (State.wakeForLanding s).age = s.age ∧ (State.wakeForLanding s).cnv = s.cnv ∧ (State.wakeForLanding s).fwu = s.fwu ∧
    (State.wakeForLanding s).glb = s.glb ∧ (State.wakeForLanding s).sb = s.sb := by
  have w1 := @State.modIsl_still; have wf := @foldl_parts; have wi := @ite_parts
  simp [State.wakeForLanding, w1, wf, wi]
theorem State.zoneLimits_still (s : State) (n a o : Nat) :
    (State.zoneLimits s n a o).pending = s.pending ∧ (State.zoneLimits s n a o).free = s.free ∧ (State.zoneLimits s n a o).host = s.host ∧
    (State.zoneLimits s n a o).epoch = s.epoch ∧ (State.zoneLimits s n a o).pat = s.pat ∧ (State.zoneLimits s n a o).isl = s.isl ∧
    (State.zoneLimits s n a o).routes = s.routes ∧ (State.zoneLimits s n a o).dramMargin = s.dramMargin ∧
    (State.zoneLimits s n a o).ports = s.ports ∧ (State.zoneLimits s n a o).trickle = s.trickle ∧ (State.zoneLimits s n a o).med = s.med ∧
    (State.zoneLimits s n a o).mlf = s.mlf ∧ (State.zoneLimits s n a o).cpx = s.cpx ∧ (State.zoneLimits s n a o).wvf = s.wvf ∧
    (State.zoneLimits s n a o).bpm = s.bpm ∧ (State.zoneLimits s n a o).sli = s.sli ∧ (State.zoneLimits s n a o).sec = s.sec ∧
    (State.zoneLimits s n a o).mic = s.mic ∧ (State.zoneLimits s n a o).flt = s.flt ∧ (State.zoneLimits s n a o).ctrs = s.ctrs ∧
    (State.zoneLimits s n a o).grps = s.grps ∧ (State.zoneLimits s n a o).pwr = s.pwr ∧ (State.zoneLimits s n a o).thm = s.thm ∧
    (State.zoneLimits s n a o).age = s.age ∧ (State.zoneLimits s n a o).cnv = s.cnv ∧ (State.zoneLimits s n a o).fwu = s.fwu ∧
    (State.zoneLimits s n a o).glb = s.glb ∧ (State.zoneLimits s n a o).sb = s.sb := by
  have w1 := @State.modNs_still; have w2 := @State.noteNs_still; have wi := @ite_parts
  simp [State.zoneLimits, w1, w2, wi]
theorem State.wearConfig_still (s : State) (limit stop reloc : Nat) :
    (State.wearConfig s limit stop reloc).pending = s.pending ∧ (State.wearConfig s limit stop reloc).free = s.free ∧
    (State.wearConfig s limit stop reloc).host = s.host ∧ (State.wearConfig s limit stop reloc).epoch = s.epoch ∧
    (State.wearConfig s limit stop reloc).pat = s.pat ∧ (State.wearConfig s limit stop reloc).isl = s.isl ∧
    (State.wearConfig s limit stop reloc).routes = s.routes ∧ (State.wearConfig s limit stop reloc).dramMargin = s.dramMargin ∧
    (State.wearConfig s limit stop reloc).ports = s.ports ∧ (State.wearConfig s limit stop reloc).trickle = s.trickle ∧
    (State.wearConfig s limit stop reloc).cmd = s.cmd ∧ (State.wearConfig s limit stop reloc).zon = s.zon ∧
    (State.wearConfig s limit stop reloc).med = s.med ∧ (State.wearConfig s limit stop reloc).cpx = s.cpx ∧
    (State.wearConfig s limit stop reloc).wvf = s.wvf ∧ (State.wearConfig s limit stop reloc).bpm = s.bpm ∧
    (State.wearConfig s limit stop reloc).sli = s.sli ∧ (State.wearConfig s limit stop reloc).sec = s.sec ∧
    (State.wearConfig s limit stop reloc).mic = s.mic ∧ (State.wearConfig s limit stop reloc).flt = s.flt ∧
    (State.wearConfig s limit stop reloc).ctrs = s.ctrs ∧ (State.wearConfig s limit stop reloc).grps = s.grps ∧
    (State.wearConfig s limit stop reloc).pwr = s.pwr ∧ (State.wearConfig s limit stop reloc).thm = s.thm ∧
    (State.wearConfig s limit stop reloc).age = s.age ∧ (State.wearConfig s limit stop reloc).cnv = s.cnv ∧
    (State.wearConfig s limit stop reloc).fwu = s.fwu ∧ (State.wearConfig s limit stop reloc).glb = s.glb ∧
    (State.wearConfig s limit stop reloc).sb = s.sb := by
  have wi := @ite_parts
  simp [State.wearConfig, wi]
theorem State.spareConfig_still (s : State) (t : Nat) :
    (State.spareConfig s t).pending = s.pending ∧ (State.spareConfig s t).free = s.free ∧ (State.spareConfig s t).host = s.host ∧
    (State.spareConfig s t).epoch = s.epoch ∧ (State.spareConfig s t).pat = s.pat ∧ (State.spareConfig s t).isl = s.isl ∧
    (State.spareConfig s t).routes = s.routes ∧ (State.spareConfig s t).dramMargin = s.dramMargin ∧
    (State.spareConfig s t).ports = s.ports ∧ (State.spareConfig s t).trickle = s.trickle ∧ (State.spareConfig s t).cmd = s.cmd ∧
    (State.spareConfig s t).zon = s.zon ∧ (State.spareConfig s t).med = s.med ∧ (State.spareConfig s t).cpx = s.cpx ∧
    (State.spareConfig s t).wvf = s.wvf ∧ (State.spareConfig s t).bpm = s.bpm ∧ (State.spareConfig s t).sli = s.sli ∧
    (State.spareConfig s t).sec = s.sec ∧ (State.spareConfig s t).mic = s.mic ∧ (State.spareConfig s t).flt = s.flt ∧
    (State.spareConfig s t).ctrs = s.ctrs ∧ (State.spareConfig s t).grps = s.grps ∧ (State.spareConfig s t).pwr = s.pwr ∧
    (State.spareConfig s t).thm = s.thm ∧ (State.spareConfig s t).age = s.age ∧ (State.spareConfig s t).cnv = s.cnv ∧
    (State.spareConfig s t).fwu = s.fwu ∧ (State.spareConfig s t).glb = s.glb ∧ (State.spareConfig s t).sb = s.sb := by
  have wi := @ite_parts
  simp [State.spareConfig, wi]
theorem State.wearPass_still (s : State) (set : Nat) :
    (State.wearPass s set).pending = s.pending ∧ (State.wearPass s set).free = s.free ∧ (State.wearPass s set).host = s.host ∧
    (State.wearPass s set).epoch = s.epoch ∧ (State.wearPass s set).pat = s.pat ∧ (State.wearPass s set).routes = s.routes ∧
    (State.wearPass s set).dramMargin = s.dramMargin ∧ (State.wearPass s set).ports = s.ports ∧
    (State.wearPass s set).trickle = s.trickle ∧ (State.wearPass s set).cmd = s.cmd ∧ (State.wearPass s set).zon = s.zon ∧
    (State.wearPass s set).cpx = s.cpx ∧ (State.wearPass s set).wvf = s.wvf ∧ (State.wearPass s set).bpm = s.bpm ∧
    (State.wearPass s set).sec = s.sec ∧ (State.wearPass s set).mic = s.mic ∧ (State.wearPass s set).ctrs = s.ctrs ∧
    (State.wearPass s set).grps = s.grps ∧ (State.wearPass s set).thm = s.thm ∧ (State.wearPass s set).age = s.age ∧
    (State.wearPass s set).cnv = s.cnv ∧ (State.wearPass s set).fwu = s.fwu ∧ (State.wearPass s set).glb = s.glb ∧
    (State.wearPass s set).sb = s.sb := by
  have w1 := @State.takeRows_still; have w2 := @State.closeRows_still; have w3 := @State.relBegin_still; have wi := @ite_parts
  unfold State.wearPass; dsimp only; repeat' split
  all_goals simp [*]
theorem State.copyUnits_still (s : State) (r : Reloc) (l : List Nat) :
    (State.copyUnits s r l).pending = s.pending ∧ (State.copyUnits s r l).free = s.free ∧ (State.copyUnits s r l).host = s.host ∧
    (State.copyUnits s r l).epoch = s.epoch ∧ (State.copyUnits s r l).pat = s.pat ∧ (State.copyUnits s r l).isl = s.isl ∧
    (State.copyUnits s r l).routes = s.routes ∧ (State.copyUnits s r l).dramMargin = s.dramMargin ∧
    (State.copyUnits s r l).ports = s.ports ∧ (State.copyUnits s r l).trickle = s.trickle ∧ (State.copyUnits s r l).cmd = s.cmd ∧
    (State.copyUnits s r l).zon = s.zon ∧ (State.copyUnits s r l).mlf = s.mlf ∧ (State.copyUnits s r l).cpx = s.cpx ∧
    (State.copyUnits s r l).wvf = s.wvf ∧ (State.copyUnits s r l).bpm = s.bpm ∧ (State.copyUnits s r l).sli = s.sli ∧
    (State.copyUnits s r l).sec = s.sec ∧ (State.copyUnits s r l).mic = s.mic ∧ (State.copyUnits s r l).flt = s.flt ∧
    (State.copyUnits s r l).ctrs = s.ctrs ∧ (State.copyUnits s r l).grps = s.grps ∧ (State.copyUnits s r l).pwr = s.pwr ∧
    (State.copyUnits s r l).thm = s.thm ∧ (State.copyUnits s r l).age = s.age ∧ (State.copyUnits s r l).cnv = s.cnv ∧
    (State.copyUnits s r l).fwu = s.fwu ∧ (State.copyUnits s r l).glb = s.glb ∧ (State.copyUnits s r l).sb = s.sb := by
  simp [State.copyUnits]
theorem State.adoptRows_still (s : State) (r : Reloc) :
    (State.adoptRows s r).pending = s.pending ∧ (State.adoptRows s r).free = s.free ∧ (State.adoptRows s r).host = s.host ∧
    (State.adoptRows s r).epoch = s.epoch ∧ (State.adoptRows s r).pat = s.pat ∧ (State.adoptRows s r).isl = s.isl ∧
    (State.adoptRows s r).routes = s.routes ∧ (State.adoptRows s r).dramMargin = s.dramMargin ∧ (State.adoptRows s r).ports = s.ports ∧
    (State.adoptRows s r).trickle = s.trickle ∧ (State.adoptRows s r).cmd = s.cmd ∧ (State.adoptRows s r).zon = s.zon ∧
    (State.adoptRows s r).mlf = s.mlf ∧ (State.adoptRows s r).cpx = s.cpx ∧ (State.adoptRows s r).wvf = s.wvf ∧
    (State.adoptRows s r).bpm = s.bpm ∧ (State.adoptRows s r).sli = s.sli ∧ (State.adoptRows s r).sec = s.sec ∧
    (State.adoptRows s r).mic = s.mic ∧ (State.adoptRows s r).flt = s.flt ∧ (State.adoptRows s r).ctrs = s.ctrs ∧
    (State.adoptRows s r).grps = s.grps ∧ (State.adoptRows s r).pwr = s.pwr ∧ (State.adoptRows s r).thm = s.thm ∧
    (State.adoptRows s r).age = s.age ∧ (State.adoptRows s r).cnv = s.cnv ∧ (State.adoptRows s r).fwu = s.fwu ∧
    (State.adoptRows s r).glb = s.glb ∧ (State.adoptRows s r).sb = s.sb := by
  have wf := @foldl_parts
  simp [State.adoptRows, wf]
theorem State.switchEntry_still (s : State) (r : Reloc) (k : Nat) :
    (State.switchEntry s r k).pending = s.pending ∧ (State.switchEntry s r k).free = s.free ∧ (State.switchEntry s r k).host = s.host ∧
    (State.switchEntry s r k).epoch = s.epoch ∧ (State.switchEntry s r k).pat = s.pat ∧ (State.switchEntry s r k).isl = s.isl ∧
    (State.switchEntry s r k).routes = s.routes ∧ (State.switchEntry s r k).dramMargin = s.dramMargin ∧
    (State.switchEntry s r k).ports = s.ports ∧ (State.switchEntry s r k).trickle = s.trickle ∧ (State.switchEntry s r k).cmd = s.cmd ∧
    (State.switchEntry s r k).med = s.med ∧ (State.switchEntry s r k).mlf = s.mlf ∧ (State.switchEntry s r k).cpx = s.cpx ∧
    (State.switchEntry s r k).wvf = s.wvf ∧ (State.switchEntry s r k).bpm = s.bpm ∧ (State.switchEntry s r k).sli = s.sli ∧
    (State.switchEntry s r k).sec = s.sec ∧ (State.switchEntry s r k).mic = s.mic ∧ (State.switchEntry s r k).flt = s.flt ∧
    (State.switchEntry s r k).ctrs = s.ctrs ∧ (State.switchEntry s r k).grps = s.grps ∧ (State.switchEntry s r k).pwr = s.pwr ∧
    (State.switchEntry s r k).thm = s.thm ∧ (State.switchEntry s r k).age = s.age ∧ (State.switchEntry s r k).cnv = s.cnv ∧
    (State.switchEntry s r k).fwu = s.fwu ∧ (State.switchEntry s r k).glb = s.glb ∧ (State.switchEntry s r k).sb = s.sb := by
  have w1 := @State.setMap_still; have w2 := @State.noteJournal_still; have w3 := @State.journal_still
  unfold State.switchEntry; dsimp only; repeat' split
  all_goals simp [*]
theorem State.switchEntries_still (s : State) (r : Reloc) :
    (State.switchEntries s r).pending = s.pending ∧ (State.switchEntries s r).free = s.free ∧ (State.switchEntries s r).host = s.host ∧
    (State.switchEntries s r).epoch = s.epoch ∧ (State.switchEntries s r).pat = s.pat ∧ (State.switchEntries s r).isl = s.isl ∧
    (State.switchEntries s r).routes = s.routes ∧ (State.switchEntries s r).dramMargin = s.dramMargin ∧
    (State.switchEntries s r).ports = s.ports ∧ (State.switchEntries s r).trickle = s.trickle ∧ (State.switchEntries s r).mlf = s.mlf ∧
    (State.switchEntries s r).cpx = s.cpx ∧ (State.switchEntries s r).wvf = s.wvf ∧ (State.switchEntries s r).bpm = s.bpm ∧
    (State.switchEntries s r).sli = s.sli ∧ (State.switchEntries s r).sec = s.sec ∧ (State.switchEntries s r).mic = s.mic ∧
    (State.switchEntries s r).flt = s.flt ∧ (State.switchEntries s r).ctrs = s.ctrs ∧ (State.switchEntries s r).grps = s.grps ∧
    (State.switchEntries s r).pwr = s.pwr ∧ (State.switchEntries s r).thm = s.thm ∧ (State.switchEntries s r).age = s.age ∧
    (State.switchEntries s r).cnv = s.cnv ∧ (State.switchEntries s r).fwu = s.fwu ∧ (State.switchEntries s r).glb = s.glb ∧
    (State.switchEntries s r).sb = s.sb := by
  have w1 := @State.setZent_still; have w2 := @State.rollback_still; have w3 := @State.zoneEvent_still
  have w4 := @State.switchEntry_still; have wf := @foldl_parts; have wp := @foldl_snd_parts; have wi := @ite_parts
  unfold State.switchEntries; repeat' split
  all_goals simp [*]
theorem State.releaseSource_still (s : State) (r : Reloc) :
    (State.releaseSource s r).pending = s.pending ∧ (State.releaseSource s r).epoch = s.epoch ∧ (State.releaseSource s r).pat = s.pat ∧
    (State.releaseSource s r).dramMargin = s.dramMargin ∧ (State.releaseSource s r).ports = s.ports ∧
    (State.releaseSource s r).trickle = s.trickle ∧ (State.releaseSource s r).sec = s.sec ∧ (State.releaseSource s r).ctrs = s.ctrs ∧
    (State.releaseSource s r).grps = s.grps ∧ (State.releaseSource s r).thm = s.thm ∧ (State.releaseSource s r).age = s.age ∧
    (State.releaseSource s r).cnv = s.cnv ∧ (State.releaseSource s r).fwu = s.fwu ∧ (State.releaseSource s r).glb = s.glb := by
  have w1 := @State.retireBlock_still; have w2 := @State.returnRows_still; have wf := @foldl_parts
  simp [State.releaseSource, w1, w2, wf]
theorem State.doSwitch_still (s : State) (id : Nat) (r : Reloc) :
    (State.doSwitch s id r).pending = s.pending ∧ (State.doSwitch s id r).epoch = s.epoch ∧ (State.doSwitch s id r).pat = s.pat ∧
    (State.doSwitch s id r).dramMargin = s.dramMargin ∧ (State.doSwitch s id r).ports = s.ports ∧
    (State.doSwitch s id r).trickle = s.trickle ∧ (State.doSwitch s id r).sec = s.sec ∧ (State.doSwitch s id r).ctrs = s.ctrs ∧
    (State.doSwitch s id r).grps = s.grps ∧ (State.doSwitch s id r).thm = s.thm ∧ (State.doSwitch s id r).age = s.age ∧
    (State.doSwitch s id r).cnv = s.cnv ∧ (State.doSwitch s id r).fwu = s.fwu ∧ (State.doSwitch s id r).glb = s.glb := by
  have w1 := @State.copyUnits_still; have w2 := @State.adoptRows_still; have w3 := @State.switchEntries_still
  have w4 := @State.relCnt_still; have w5 := @State.clCnt_still; have w6 := @State.releaseSource_still
  have w7 := @State.fdpEvent_still; have w8 := @State.rebuildCheck_still; have wf := @foldl_parts; have wp := @foldl_snd_parts
  have wi := @ite_parts
  unfold State.doSwitch; repeat' split
  all_goals simp [*]

end Sys2Proof.Machine
end

