-- ==== Sys2Proof/Laws/FrameJobs.lean ====
section
/-! SUPPORT. What the operations of jobs, user programs and commits leave unchanged: one lemma per operation, which names every part of the state that it keeps. -/

namespace Sys2Proof.Machine

theorem State.jobStage6_still (s : State) (c : Nat) :
    (State.jobStage6 s c).pending = s.pending ∧ (State.jobStage6 s c).host = s.host ∧ (State.jobStage6 s c).epoch = s.epoch ∧
    (State.jobStage6 s c).pat = s.pat ∧ (State.jobStage6 s c).isl = s.isl ∧ (State.jobStage6 s c).dramMargin = s.dramMargin ∧
    (State.jobStage6 s c).ports = s.ports ∧ (State.jobStage6 s c).trickle = s.trickle ∧ (State.jobStage6 s c).mlf = s.mlf ∧
    (State.jobStage6 s c).sec = s.sec ∧ (State.jobStage6 s c).ctrs = s.ctrs ∧ (State.jobStage6 s c).grps = s.grps ∧
    (State.jobStage6 s c).pwr = s.pwr ∧ (State.jobStage6 s c).thm = s.thm ∧ (State.jobStage6 s c).age = s.age ∧
    (State.jobStage6 s c).cnv = s.cnv ∧ (State.jobStage6 s c).fwu = s.fwu ∧ (State.jobStage6 s c).glb = s.glb ∧
    (State.jobStage6 s c).sb = s.sb := by
  have w1 := @State.translateReads_still; have w2 := @State.modJob_still; have w3 := @State.modCtx_still
  have w4 := @State.endWith_still; have w5 := @State.lockWrite_still; have w6 := @State.endErr_still
  have w7 := @State.lockZone_still; have w8 := @State.enterLock_still; have wi := @ite_parts
  simp [State.jobStage6, w1, w2, w3, w4, w5, w6, w7, w8, wi]
theorem State.jobAdmit_still (s : State) (c : Nat) :
    (State.jobAdmit s c).pending = s.pending ∧ (State.jobAdmit s c).host = s.host ∧ (State.jobAdmit s c).epoch = s.epoch ∧
    (State.jobAdmit s c).pat = s.pat ∧ (State.jobAdmit s c).isl = s.isl ∧ (State.jobAdmit s c).dramMargin = s.dramMargin ∧
    (State.jobAdmit s c).ports = s.ports ∧ (State.jobAdmit s c).trickle = s.trickle ∧ (State.jobAdmit s c).mlf = s.mlf ∧
    (State.jobAdmit s c).sec = s.sec ∧ (State.jobAdmit s c).ctrs = s.ctrs ∧ (State.jobAdmit s c).grps = s.grps ∧
    (State.jobAdmit s c).pwr = s.pwr ∧ (State.jobAdmit s c).thm = s.thm ∧ (State.jobAdmit s c).age = s.age ∧
    (State.jobAdmit s c).cnv = s.cnv ∧ (State.jobAdmit s c).fwu = s.fwu ∧ (State.jobAdmit s c).glb = s.glb ∧ (State.jobAdmit s c).sb = s.sb := by
  have w1 := @State.endErr_still; have w2 := @State.admitCmd_still; have w3 := @State.jobStage6_still; have wi := @ite_parts
  simp [State.jobAdmit, w1, w2, w3, wi]
theorem State.noteRefused_still (s : State) (c : Nat) (desc : Option (List Byte)) :
    (State.noteRefused s c desc).pending = s.pending ∧ (State.noteRefused s c desc).free = s.free ∧
    (State.noteRefused s c desc).host = s.host ∧ (State.noteRefused s c desc).epoch = s.epoch ∧ (State.noteRefused s c desc).pat = s.pat ∧
    (State.noteRefused s c desc).isl = s.isl ∧ (State.noteRefused s c desc).routes = s.routes ∧
    (State.noteRefused s c desc).dramMargin = s.dramMargin ∧ (State.noteRefused s c desc).ports = s.ports ∧
    (State.noteRefused s c desc).trickle = s.trickle ∧ (State.noteRefused s c desc).cmd = s.cmd ∧
    (State.noteRefused s c desc).zon = s.zon ∧ (State.noteRefused s c desc).med = s.med ∧ (State.noteRefused s c desc).mlf = s.mlf ∧
    (State.noteRefused s c desc).wvf = s.wvf ∧ (State.noteRefused s c desc).bpm = s.bpm ∧ (State.noteRefused s c desc).sli = s.sli ∧
    (State.noteRefused s c desc).sec = s.sec ∧ (State.noteRefused s c desc).mic = s.mic ∧ (State.noteRefused s c desc).flt = s.flt ∧
    (State.noteRefused s c desc).ctrs = s.ctrs ∧ (State.noteRefused s c desc).grps = s.grps ∧ (State.noteRefused s c desc).pwr = s.pwr ∧
    (State.noteRefused s c desc).thm = s.thm ∧ (State.noteRefused s c desc).age = s.age ∧ (State.noteRefused s c desc).cnv = s.cnv ∧
    (State.noteRefused s c desc).fwu = s.fwu ∧ (State.noteRefused s c desc).glb = s.glb ∧ (State.noteRefused s c desc).sb = s.sb := by
  have w1 := @State.setJob_still; have wi := @ite_parts
  unfold State.noteRefused; dsimp only; repeat' split
  all_goals simp [*]
theorem State.countFlow_still (s : State) (c : Nat) (f : Flow) :
    (State.countFlow s c f).pending = s.pending ∧ (State.countFlow s c f).free = s.free ∧ (State.countFlow s c f).host = s.host ∧
    (State.countFlow s c f).epoch = s.epoch ∧ (State.countFlow s c f).pat = s.pat ∧ (State.countFlow s c f).isl = s.isl ∧
    (State.countFlow s c f).routes = s.routes ∧ (State.countFlow s c f).dramMargin = s.dramMargin ∧
    (State.countFlow s c f).ports = s.ports ∧ (State.countFlow s c f).trickle = s.trickle ∧ (State.countFlow s c f).cmd = s.cmd ∧
    (State.countFlow s c f).zon = s.zon ∧ (State.countFlow s c f).med = s.med ∧ (State.countFlow s c f).mlf = s.mlf ∧
    (State.countFlow s c f).wvf = s.wvf ∧ (State.countFlow s c f).bpm = s.bpm ∧ (State.countFlow s c f).sli = s.sli ∧
    (State.countFlow s c f).sec = s.sec ∧ (State.countFlow s c f).mic = s.mic ∧ (State.countFlow s c f).flt = s.flt ∧
    (State.countFlow s c f).ctrs = s.ctrs ∧ (State.countFlow s c f).grps = s.grps ∧ (State.countFlow s c f).pwr = s.pwr ∧
    (State.countFlow s c f).thm = s.thm ∧ (State.countFlow s c f).age = s.age ∧ (State.countFlow s c f).cnv = s.cnv ∧
    (State.countFlow s c f).fwu = s.fwu ∧ (State.countFlow s c f).glb = s.glb ∧ (State.countFlow s c f).sb = s.sb := by
  have wf := @foldl_parts
  have w1 := @State.cpxCnt_still
  unfold State.countFlow; dsimp only; repeat' split
  all_goals simp [*]
theorem State.deliverJob_still (s : State) (c : Nat) (o : RunOut) (sv : StatusVal) (bytesOut bytesIn : Nat) :
    (State.deliverJob s c o sv bytesOut bytesIn).pending = s.pending ∧ (State.deliverJob s c o sv bytesOut bytesIn).host = s.host ∧
    (State.deliverJob s c o sv bytesOut bytesIn).epoch = s.epoch ∧ (State.deliverJob s c o sv bytesOut bytesIn).pat = s.pat ∧
    (State.deliverJob s c o sv bytesOut bytesIn).routes = s.routes ∧
    (State.deliverJob s c o sv bytesOut bytesIn).dramMargin = s.dramMargin ∧ (State.deliverJob s c o sv bytesOut bytesIn).ports = s.ports ∧
    (State.deliverJob s c o sv bytesOut bytesIn).trickle = s.trickle ∧ (State.deliverJob s c o sv bytesOut bytesIn).sec = s.sec ∧
    (State.deliverJob s c o sv bytesOut bytesIn).ctrs = s.ctrs ∧ (State.deliverJob s c o sv bytesOut bytesIn).grps = s.grps ∧
    (State.deliverJob s c o sv bytesOut bytesIn).thm = s.thm ∧ (State.deliverJob s c o sv bytesOut bytesIn).age = s.age ∧
    (State.deliverJob s c o sv bytesOut bytesIn).cnv = s.cnv ∧ (State.deliverJob s c o sv bytesOut bytesIn).fwu = s.fwu ∧
    (State.deliverJob s c o sv bytesOut bytesIn).glb = s.glb ∧ (State.deliverJob s c o sv bytesOut bytesIn).sb = s.sb := by
  have w1 := @State.modJob_still; have w2 := @State.releaseJob_still; have w3 := @State.modCtx_still
  have w4 := @State.placeBlocks_still; have wi := @ite_parts
  simp [State.deliverJob, w1, w2, w3, w4, wi]
theorem State.finishJob_still (s : State) (c : Nat) (o : RunOut) :
    (State.finishJob s c o).pending = s.pending ∧ (State.finishJob s c o).host = s.host ∧ (State.finishJob s c o).epoch = s.epoch ∧
    (State.finishJob s c o).pat = s.pat ∧ (State.finishJob s c o).dramMargin = s.dramMargin ∧ (State.finishJob s c o).ports = s.ports ∧
    (State.finishJob s c o).trickle = s.trickle ∧ (State.finishJob s c o).sec = s.sec ∧ (State.finishJob s c o).ctrs = s.ctrs ∧
    (State.finishJob s c o).grps = s.grps ∧ (State.finishJob s c o).thm = s.thm ∧ (State.finishJob s c o).age = s.age ∧
    (State.finishJob s c o).cnv = s.cnv ∧ (State.finishJob s c o).fwu = s.fwu ∧ (State.finishJob s c o).glb = s.glb ∧
    (State.finishJob s c o).sb = s.sb := by
  have w1 := @State.countFlow_still; have w2 := @State.deliverJob_still; have w3 := @State.failJob_still
  have w4 := @State.modJob_still; have w5 := @drawNat_still
  unfold State.finishJob; repeat' split
  all_goals simp [*]
theorem State.chargeEngines_still (s : State) (c : Nat) :
    (State.chargeEngines s c).pending = s.pending ∧ (State.chargeEngines s c).host = s.host ∧ (State.chargeEngines s c).epoch = s.epoch ∧
    (State.chargeEngines s c).pat = s.pat ∧ (State.chargeEngines s c).isl = s.isl ∧ (State.chargeEngines s c).routes = s.routes ∧
    (State.chargeEngines s c).dramMargin = s.dramMargin ∧ (State.chargeEngines s c).ports = s.ports ∧
    (State.chargeEngines s c).trickle = s.trickle ∧ (State.chargeEngines s c).cmd = s.cmd ∧ (State.chargeEngines s c).zon = s.zon ∧
    (State.chargeEngines s c).med = s.med ∧ (State.chargeEngines s c).mlf = s.mlf ∧ (State.chargeEngines s c).cpx = s.cpx ∧
    (State.chargeEngines s c).wvf = s.wvf ∧ (State.chargeEngines s c).bpm = s.bpm ∧ (State.chargeEngines s c).sec = s.sec ∧
    (State.chargeEngines s c).mic = s.mic ∧ (State.chargeEngines s c).flt = s.flt ∧ (State.chargeEngines s c).ctrs = s.ctrs ∧
    (State.chargeEngines s c).grps = s.grps ∧ (State.chargeEngines s c).pwr = s.pwr ∧ (State.chargeEngines s c).thm = s.thm ∧
    (State.chargeEngines s c).age = s.age ∧ (State.chargeEngines s c).cnv = s.cnv ∧ (State.chargeEngines s c).fwu = s.fwu ∧
    (State.chargeEngines s c).glb = s.glb ∧ (State.chargeEngines s c).sb = s.sb := by
  have w1 := @drawNat_still; have w2 := @State.charge_still; have w3 := @State.modSli_still; have wf := @foldl_parts
  simp [State.chargeEngines, w1, w2, w3, wf]
theorem State.weaveUnitDone_still (s : State) (w : Nat) :
    (State.weaveUnitDone s w).pending = s.pending ∧ (State.weaveUnitDone s w).free = s.free ∧ (State.weaveUnitDone s w).host = s.host ∧
    (State.weaveUnitDone s w).epoch = s.epoch ∧ (State.weaveUnitDone s w).pat = s.pat ∧ (State.weaveUnitDone s w).isl = s.isl ∧
    (State.weaveUnitDone s w).routes = s.routes ∧ (State.weaveUnitDone s w).dramMargin = s.dramMargin ∧
    (State.weaveUnitDone s w).ports = s.ports ∧ (State.weaveUnitDone s w).trickle = s.trickle ∧ (State.weaveUnitDone s w).cmd = s.cmd ∧
    (State.weaveUnitDone s w).zon = s.zon ∧ (State.weaveUnitDone s w).med = s.med ∧ (State.weaveUnitDone s w).mlf = s.mlf ∧
    (State.weaveUnitDone s w).cpx = s.cpx ∧ (State.weaveUnitDone s w).bpm = s.bpm ∧ (State.weaveUnitDone s w).sli = s.sli ∧
    (State.weaveUnitDone s w).sec = s.sec ∧ (State.weaveUnitDone s w).mic = s.mic ∧ (State.weaveUnitDone s w).flt = s.flt ∧
    (State.weaveUnitDone s w).ctrs = s.ctrs ∧ (State.weaveUnitDone s w).grps = s.grps ∧ (State.weaveUnitDone s w).pwr = s.pwr ∧
    (State.weaveUnitDone s w).thm = s.thm ∧ (State.weaveUnitDone s w).age = s.age ∧ (State.weaveUnitDone s w).cnv = s.cnv ∧
    (State.weaveUnitDone s w).fwu = s.fwu ∧ (State.weaveUnitDone s w).glb = s.glb ∧ (State.weaveUnitDone s w).sb = s.sb := by
  unfold State.weaveUnitDone; dsimp only; repeat' split
  all_goals simp [*]
theorem State.unitDone_still (s : State) (c unit : Nat) :
    (State.unitDone s c unit).pending = s.pending ∧ (State.unitDone s c unit).host = s.host ∧ (State.unitDone s c unit).epoch = s.epoch ∧
    (State.unitDone s c unit).pat = s.pat ∧ (State.unitDone s c unit).dramMargin = s.dramMargin ∧
    (State.unitDone s c unit).ports = s.ports ∧ (State.unitDone s c unit).trickle = s.trickle ∧ (State.unitDone s c unit).sec = s.sec ∧
    (State.unitDone s c unit).ctrs = s.ctrs ∧ (State.unitDone s c unit).grps = s.grps ∧ (State.unitDone s c unit).thm = s.thm ∧
    (State.unitDone s c unit).age = s.age ∧ (State.unitDone s c unit).cnv = s.cnv ∧ (State.unitDone s c unit).fwu = s.fwu ∧
    (State.unitDone s c unit).glb = s.glb ∧ (State.unitDone s c unit).sb = s.sb := by
  have w1 := @State.weaveUnitDone_still; have w2 := @State.chargeEngines_still; have w3 := @State.modJob_still
  have w5 := @State.finishJob_still; have wf := @foldl_parts
  have wi := @ite_parts
  simp [State.unitDone, w1, w2, w3, w5, wf, wi]
theorem State.newHandle_still (s : State) (sl : Nat) :
    (State.newHandle s sl).2.pending = s.pending ∧ (State.newHandle s sl).2.host = s.host ∧ (State.newHandle s sl).2.epoch = s.epoch ∧
    (State.newHandle s sl).2.pat = s.pat ∧ (State.newHandle s sl).2.isl = s.isl ∧ (State.newHandle s sl).2.routes = s.routes ∧
    (State.newHandle s sl).2.dramMargin = s.dramMargin ∧ (State.newHandle s sl).2.ports = s.ports ∧
    (State.newHandle s sl).2.trickle = s.trickle ∧ (State.newHandle s sl).2.cmd = s.cmd ∧ (State.newHandle s sl).2.zon = s.zon ∧
    (State.newHandle s sl).2.med = s.med ∧ (State.newHandle s sl).2.mlf = s.mlf ∧ (State.newHandle s sl).2.cpx = s.cpx ∧
    (State.newHandle s sl).2.wvf = s.wvf ∧ (State.newHandle s sl).2.bpm = s.bpm ∧ (State.newHandle s sl).2.sli = s.sli ∧
    (State.newHandle s sl).2.sec = s.sec ∧ (State.newHandle s sl).2.mic = s.mic ∧ (State.newHandle s sl).2.flt = s.flt ∧
    (State.newHandle s sl).2.ctrs = s.ctrs ∧ (State.newHandle s sl).2.grps = s.grps ∧ (State.newHandle s sl).2.pwr = s.pwr ∧
    (State.newHandle s sl).2.thm = s.thm ∧ (State.newHandle s sl).2.age = s.age ∧ (State.newHandle s sl).2.cnv = s.cnv ∧
    (State.newHandle s sl).2.fwu = s.fwu ∧ (State.newHandle s sl).2.glb = s.glb ∧ (State.newHandle s sl).2.sb = s.sb := by
  have w1 := @drawNat_still
  simp [State.newHandle, w1]
theorem State.ready_still (s : State) (c : Nat) (o : Outc) :
    (State.ready s c o).pending = s.pending ∧ (State.ready s c o).free = s.free ∧ (State.ready s c o).host = s.host ∧
    (State.ready s c o).epoch = s.epoch ∧ (State.ready s c o).pat = s.pat ∧ (State.ready s c o).isl = s.isl ∧
    (State.ready s c o).routes = s.routes ∧ (State.ready s c o).dramMargin = s.dramMargin ∧ (State.ready s c o).ports = s.ports ∧
    (State.ready s c o).trickle = s.trickle ∧ (State.ready s c o).zon = s.zon ∧ (State.ready s c o).med = s.med ∧
    (State.ready s c o).mlf = s.mlf ∧ (State.ready s c o).cpx = s.cpx ∧ (State.ready s c o).wvf = s.wvf ∧ (State.ready s c o).bpm = s.bpm ∧
    (State.ready s c o).sli = s.sli ∧ (State.ready s c o).sec = s.sec ∧ (State.ready s c o).mic = s.mic ∧ (State.ready s c o).flt = s.flt ∧
    (State.ready s c o).ctrs = s.ctrs ∧ (State.ready s c o).grps = s.grps ∧ (State.ready s c o).pwr = s.pwr ∧
    (State.ready s c o).thm = s.thm ∧ (State.ready s c o).age = s.age ∧ (State.ready s c o).cnv = s.cnv ∧ (State.ready s c o).fwu = s.fwu ∧
    (State.ready s c o).glb = s.glb ∧ (State.ready s c o).sb = s.sb := by
  have w1 := @State.modCtx_still
  simp [State.ready, w1]
theorem State.makeAlloc_still (s : State) (c n : Nat) (a : Alloc) :
    (State.makeAlloc s c n a).pending = s.pending ∧ (State.makeAlloc s c n a).host = s.host ∧ (State.makeAlloc s c n a).epoch = s.epoch ∧
    (State.makeAlloc s c n a).pat = s.pat ∧ (State.makeAlloc s c n a).isl = s.isl ∧ (State.makeAlloc s c n a).dramMargin = s.dramMargin ∧
    (State.makeAlloc s c n a).ports = s.ports ∧ (State.makeAlloc s c n a).trickle = s.trickle ∧ (State.makeAlloc s c n a).mlf = s.mlf ∧
    (State.makeAlloc s c n a).sli = s.sli ∧ (State.makeAlloc s c n a).sec = s.sec ∧ (State.makeAlloc s c n a).ctrs = s.ctrs ∧
    (State.makeAlloc s c n a).grps = s.grps ∧ (State.makeAlloc s c n a).pwr = s.pwr ∧ (State.makeAlloc s c n a).thm = s.thm ∧
    (State.makeAlloc s c n a).age = s.age ∧ (State.makeAlloc s c n a).cnv = s.cnv ∧ (State.makeAlloc s c n a).fwu = s.fwu ∧
    (State.makeAlloc s c n a).glb = s.glb ∧ (State.makeAlloc s c n a).sb = s.sb := by
  have w1 := @State.bpmCnt_still; have w2 := @State.endErr_still; have w3 := @State.newHandle_still; have w4 := @State.ready_still
  have w5 := @State.setAlloc_still
  unfold State.makeAlloc; dsimp only; split
  · simp [*]
  · split
    · simp [*]
    · rename_i q; have k := State.allocFrames_still _ _ _ _ _ q; dsimp only at k; split <;> simp [*]
theorem State.startFree_still (s : State) (c sl h : Nat) (a : Alloc) :
    (State.startFree s c sl h a).pending = s.pending ∧ (State.startFree s c sl h a).free = s.free ∧
    (State.startFree s c sl h a).host = s.host ∧ (State.startFree s c sl h a).epoch = s.epoch ∧ (State.startFree s c sl h a).pat = s.pat ∧
    (State.startFree s c sl h a).isl = s.isl ∧ (State.startFree s c sl h a).routes = s.routes ∧
    (State.startFree s c sl h a).dramMargin = s.dramMargin ∧ (State.startFree s c sl h a).trickle = s.trickle ∧
    (State.startFree s c sl h a).zon = s.zon ∧ (State.startFree s c sl h a).med = s.med ∧ (State.startFree s c sl h a).mlf = s.mlf ∧
    (State.startFree s c sl h a).wvf = s.wvf ∧ (State.startFree s c sl h a).bpm = s.bpm ∧ (State.startFree s c sl h a).sli = s.sli ∧
    (State.startFree s c sl h a).sec = s.sec ∧ (State.startFree s c sl h a).mic = s.mic ∧ (State.startFree s c sl h a).flt = s.flt ∧
    (State.startFree s c sl h a).ctrs = s.ctrs ∧ (State.startFree s c sl h a).grps = s.grps ∧ (State.startFree s c sl h a).pwr = s.pwr ∧
    (State.startFree s c sl h a).thm = s.thm ∧ (State.startFree s c sl h a).age = s.age ∧ (State.startFree s c sl h a).cnv = s.cnv ∧
    (State.startFree s c sl h a).fwu = s.fwu ∧ (State.startFree s c sl h a).glb = s.glb ∧ (State.startFree s c sl h a).sb = s.sb := by
  have w1 := @State.setAlloc_still; have w2 := @State.modCtx_still
  simp [State.startFree, w1, w2]
theorem State.endFree_still (s : State) (sl h : Nat) (a : Alloc) :
    (State.endFree s sl h a).pending = s.pending ∧ (State.endFree s sl h a).free = s.free ∧ (State.endFree s sl h a).host = s.host ∧
    (State.endFree s sl h a).epoch = s.epoch ∧ (State.endFree s sl h a).pat = s.pat ∧ (State.endFree s sl h a).isl = s.isl ∧
    (State.endFree s sl h a).routes = s.routes ∧ (State.endFree s sl h a).dramMargin = s.dramMargin ∧
    (State.endFree s sl h a).ports = s.ports ∧ (State.endFree s sl h a).trickle = s.trickle ∧ (State.endFree s sl h a).zon = s.zon ∧
    (State.endFree s sl h a).med = s.med ∧ (State.endFree s sl h a).mlf = s.mlf ∧ (State.endFree s sl h a).wvf = s.wvf ∧
    (State.endFree s sl h a).sli = s.sli ∧ (State.endFree s sl h a).sec = s.sec ∧ (State.endFree s sl h a).ctrs = s.ctrs ∧
    (State.endFree s sl h a).grps = s.grps ∧ (State.endFree s sl h a).pwr = s.pwr ∧ (State.endFree s sl h a).thm = s.thm ∧
    (State.endFree s sl h a).age = s.age ∧ (State.endFree s sl h a).cnv = s.cnv ∧ (State.endFree s sl h a).fwu = s.fwu ∧
    (State.endFree s sl h a).glb = s.glb ∧ (State.endFree s sl h a).sb = s.sb := by
  have wi := @ite_parts
  have w1 := @State.delAlloc_still; have w2 := @State.freeAll_still; have w3 := @State.ready_still
  unfold State.endFree; repeat' split
  all_goals simp [*]
theorem State.lanesWrite_still (s : State) (n : Nat) :
    (State.lanesWrite s n).pending = s.pending ∧ (State.lanesWrite s n).free = s.free ∧ (State.lanesWrite s n).host = s.host ∧
    (State.lanesWrite s n).epoch = s.epoch ∧ (State.lanesWrite s n).pat = s.pat ∧ (State.lanesWrite s n).isl = s.isl ∧
    (State.lanesWrite s n).routes = s.routes ∧ (State.lanesWrite s n).dramMargin = s.dramMargin ∧ (State.lanesWrite s n).ports = s.ports ∧
    (State.lanesWrite s n).trickle = s.trickle ∧ (State.lanesWrite s n).cmd = s.cmd ∧ (State.lanesWrite s n).zon = s.zon ∧
    (State.lanesWrite s n).med = s.med ∧ (State.lanesWrite s n).mlf = s.mlf ∧ (State.lanesWrite s n).wvf = s.wvf ∧
    (State.lanesWrite s n).bpm = s.bpm ∧ (State.lanesWrite s n).sli = s.sli ∧ (State.lanesWrite s n).sec = s.sec ∧
    (State.lanesWrite s n).mic = s.mic ∧ (State.lanesWrite s n).flt = s.flt ∧ (State.lanesWrite s n).ctrs = s.ctrs ∧
    (State.lanesWrite s n).grps = s.grps ∧ (State.lanesWrite s n).pwr = s.pwr ∧ (State.lanesWrite s n).thm = s.thm ∧
    (State.lanesWrite s n).age = s.age ∧ (State.lanesWrite s n).cnv = s.cnv ∧ (State.lanesWrite s n).fwu = s.fwu ∧
    (State.lanesWrite s n).glb = s.glb ∧ (State.lanesWrite s n).sb = s.sb := by
  have wi := @ite_parts
  simp [State.lanesWrite, wi]
theorem State.memLimWrite_still (s : State) (sl lim : Nat) :
    (State.memLimWrite s sl lim).pending = s.pending ∧ (State.memLimWrite s sl lim).free = s.free ∧
    (State.memLimWrite s sl lim).host = s.host ∧ (State.memLimWrite s sl lim).epoch = s.epoch ∧ (State.memLimWrite s sl lim).pat = s.pat ∧
    (State.memLimWrite s sl lim).isl = s.isl ∧ (State.memLimWrite s sl lim).routes = s.routes ∧
    (State.memLimWrite s sl lim).dramMargin = s.dramMargin ∧ (State.memLimWrite s sl lim).ports = s.ports ∧
    (State.memLimWrite s sl lim).trickle = s.trickle ∧ (State.memLimWrite s sl lim).cmd = s.cmd ∧
    (State.memLimWrite s sl lim).zon = s.zon ∧ (State.memLimWrite s sl lim).med = s.med ∧ (State.memLimWrite s sl lim).mlf = s.mlf ∧
    (State.memLimWrite s sl lim).wvf = s.wvf ∧ (State.memLimWrite s sl lim).bpm = s.bpm ∧ (State.memLimWrite s sl lim).sli = s.sli ∧
    (State.memLimWrite s sl lim).sec = s.sec ∧ (State.memLimWrite s sl lim).mic = s.mic ∧ (State.memLimWrite s sl lim).flt = s.flt ∧
    (State.memLimWrite s sl lim).ctrs = s.ctrs ∧ (State.memLimWrite s sl lim).grps = s.grps ∧ (State.memLimWrite s sl lim).pwr = s.pwr ∧
    (State.memLimWrite s sl lim).thm = s.thm ∧ (State.memLimWrite s sl lim).age = s.age ∧ (State.memLimWrite s sl lim).cnv = s.cnv ∧
    (State.memLimWrite s sl lim).fwu = s.fwu ∧ (State.memLimWrite s sl lim).glb = s.glb ∧ (State.memLimWrite s sl lim).sb = s.sb := by
  simp [State.memLimWrite]
theorem State.grantWrite_still (s : State) (sl v : Nat) :
    (State.grantWrite s sl v).pending = s.pending ∧ (State.grantWrite s sl v).free = s.free ∧ (State.grantWrite s sl v).host = s.host ∧
    (State.grantWrite s sl v).epoch = s.epoch ∧ (State.grantWrite s sl v).pat = s.pat ∧ (State.grantWrite s sl v).isl = s.isl ∧
    (State.grantWrite s sl v).routes = s.routes ∧ (State.grantWrite s sl v).dramMargin = s.dramMargin ∧
    (State.grantWrite s sl v).ports = s.ports ∧ (State.grantWrite s sl v).trickle = s.trickle ∧ (State.grantWrite s sl v).cmd = s.cmd ∧
    (State.grantWrite s sl v).zon = s.zon ∧ (State.grantWrite s sl v).med = s.med ∧ (State.grantWrite s sl v).mlf = s.mlf ∧
    (State.grantWrite s sl v).wvf = s.wvf ∧ (State.grantWrite s sl v).bpm = s.bpm ∧ (State.grantWrite s sl v).sli = s.sli ∧
    (State.grantWrite s sl v).sec = s.sec ∧ (State.grantWrite s sl v).mic = s.mic ∧ (State.grantWrite s sl v).flt = s.flt ∧
    (State.grantWrite s sl v).ctrs = s.ctrs ∧ (State.grantWrite s sl v).grps = s.grps ∧ (State.grantWrite s sl v).pwr = s.pwr ∧
    (State.grantWrite s sl v).thm = s.thm ∧ (State.grantWrite s sl v).age = s.age ∧ (State.grantWrite s sl v).cnv = s.cnv ∧
    (State.grantWrite s sl v).fwu = s.fwu ∧ (State.grantWrite s sl v).glb = s.glb ∧ (State.grantWrite s sl v).sb = s.sb := by
  simp [State.grantWrite]
theorem State.noFrames_still (s : State) (c : Nat) :
    (State.noFrames s c).pending = s.pending ∧ (State.noFrames s c).host = s.host ∧ (State.noFrames s c).epoch = s.epoch ∧
    (State.noFrames s c).pat = s.pat ∧ (State.noFrames s c).isl = s.isl ∧ (State.noFrames s c).dramMargin = s.dramMargin ∧
    (State.noFrames s c).ports = s.ports ∧ (State.noFrames s c).trickle = s.trickle ∧ (State.noFrames s c).mlf = s.mlf ∧
    (State.noFrames s c).sli = s.sli ∧ (State.noFrames s c).sec = s.sec ∧ (State.noFrames s c).ctrs = s.ctrs ∧
    (State.noFrames s c).grps = s.grps ∧ (State.noFrames s c).pwr = s.pwr ∧ (State.noFrames s c).thm = s.thm ∧
    (State.noFrames s c).age = s.age ∧ (State.noFrames s c).cnv = s.cnv ∧ (State.noFrames s c).fwu = s.fwu ∧
    (State.noFrames s c).glb = s.glb ∧ (State.noFrames s c).sb = s.sb := by
  have w1 := @State.bpmCnt_still; have w2 := @State.endErr_still
  simp [State.noFrames, w1, w2]
theorem State.startCores_still (s : State) (c : Nat) (cs fs : List Nat) :
    (State.startCores s c cs fs).pending = s.pending ∧ (State.startCores s c cs fs).host = s.host ∧
    (State.startCores s c cs fs).epoch = s.epoch ∧ (State.startCores s c cs fs).pat = s.pat ∧
    (State.startCores s c cs fs).dramMargin = s.dramMargin ∧ (State.startCores s c cs fs).ports = s.ports ∧
    (State.startCores s c cs fs).trickle = s.trickle ∧ (State.startCores s c cs fs).mlf = s.mlf ∧
    (State.startCores s c cs fs).sli = s.sli ∧ (State.startCores s c cs fs).sec = s.sec ∧ (State.startCores s c cs fs).ctrs = s.ctrs ∧
    (State.startCores s c cs fs).grps = s.grps ∧ (State.startCores s c cs fs).thm = s.thm ∧ (State.startCores s c cs fs).age = s.age ∧
    (State.startCores s c cs fs).cnv = s.cnv ∧ (State.startCores s c cs fs).fwu = s.fwu ∧ (State.startCores s c cs fs).glb = s.glb ∧
    (State.startCores s c cs fs).sb = s.sb := by
  have w1 := @State.countFlow_still; have w2 := @State.failJob_still; have w3 := @State.modJob_still
  have w4 := @State.wakeJob_still
  unfold State.startCores; dsimp only; repeat' split
  all_goals simp [*]
theorem State.grantCores_still (s : State) (c : Nat) (cs : List Nat) :
    (State.grantCores s c cs).pending = s.pending ∧ (State.grantCores s c cs).host = s.host ∧ (State.grantCores s c cs).epoch = s.epoch ∧
    (State.grantCores s c cs).pat = s.pat ∧ (State.grantCores s c cs).dramMargin = s.dramMargin ∧
    (State.grantCores s c cs).ports = s.ports ∧ (State.grantCores s c cs).trickle = s.trickle ∧ (State.grantCores s c cs).mlf = s.mlf ∧
    (State.grantCores s c cs).sli = s.sli ∧ (State.grantCores s c cs).sec = s.sec ∧ (State.grantCores s c cs).ctrs = s.ctrs ∧
    (State.grantCores s c cs).grps = s.grps ∧ (State.grantCores s c cs).thm = s.thm ∧ (State.grantCores s c cs).age = s.age ∧
    (State.grantCores s c cs).cnv = s.cnv ∧ (State.grantCores s c cs).fwu = s.fwu ∧ (State.grantCores s c cs).glb = s.glb ∧
    (State.grantCores s c cs).sb = s.sb := by
  have w1 := @State.failJob_still; have w2 := @State.noFrames_still; have w3 := @State.startCores_still
  unfold State.grantCores; extract_lets x d p; split
  · simp [*]
  · split
    · simp [*]
    · next r q => have k := State.allocFrames_still _ _ _ _ _ q; simp [*]
theorem State.sandPut_still (s : State) (c i a : Nat) (b : Byte) :
    (State.sandPut s c i a b).pending = s.pending ∧ (State.sandPut s c i a b).free = s.free ∧ (State.sandPut s c i a b).host = s.host ∧
    (State.sandPut s c i a b).epoch = s.epoch ∧ (State.sandPut s c i a b).pat = s.pat ∧ (State.sandPut s c i a b).isl = s.isl ∧
    (State.sandPut s c i a b).routes = s.routes ∧ (State.sandPut s c i a b).dramMargin = s.dramMargin ∧
    (State.sandPut s c i a b).ports = s.ports ∧ (State.sandPut s c i a b).trickle = s.trickle ∧ (State.sandPut s c i a b).cmd = s.cmd ∧
    (State.sandPut s c i a b).zon = s.zon ∧ (State.sandPut s c i a b).med = s.med ∧ (State.sandPut s c i a b).mlf = s.mlf ∧
    (State.sandPut s c i a b).wvf = s.wvf ∧ (State.sandPut s c i a b).bpm = s.bpm ∧ (State.sandPut s c i a b).sli = s.sli ∧
    (State.sandPut s c i a b).sec = s.sec ∧ (State.sandPut s c i a b).mic = s.mic ∧ (State.sandPut s c i a b).flt = s.flt ∧
    (State.sandPut s c i a b).ctrs = s.ctrs ∧ (State.sandPut s c i a b).grps = s.grps ∧ (State.sandPut s c i a b).pwr = s.pwr ∧
    (State.sandPut s c i a b).thm = s.thm ∧ (State.sandPut s c i a b).age = s.age ∧ (State.sandPut s c i a b).cnv = s.cnv ∧
    (State.sandPut s c i a b).fwu = s.fwu ∧ (State.sandPut s c i a b).glb = s.glb ∧ (State.sandPut s c i a b).sb = s.sb := by
  have w1 := @State.setAlloc_still; have w2 := @State.modJob_still
  unfold State.sandPut; dsimp only; repeat' split
  all_goals simp [*]
theorem State.sandBytes_still (s : State) (c i : Nat) (l0 : Nat) (l1 : List Byte) :
    (State.sandBytes s c i l0 l1).pending = s.pending ∧ (State.sandBytes s c i l0 l1).free = s.free ∧
    (State.sandBytes s c i l0 l1).host = s.host ∧ (State.sandBytes s c i l0 l1).epoch = s.epoch ∧
    (State.sandBytes s c i l0 l1).pat = s.pat ∧ (State.sandBytes s c i l0 l1).isl = s.isl ∧
    (State.sandBytes s c i l0 l1).routes = s.routes ∧ (State.sandBytes s c i l0 l1).dramMargin = s.dramMargin ∧
    (State.sandBytes s c i l0 l1).ports = s.ports ∧ (State.sandBytes s c i l0 l1).trickle = s.trickle ∧
    (State.sandBytes s c i l0 l1).cmd = s.cmd ∧ (State.sandBytes s c i l0 l1).zon = s.zon ∧ (State.sandBytes s c i l0 l1).med = s.med ∧
    (State.sandBytes s c i l0 l1).mlf = s.mlf ∧ (State.sandBytes s c i l0 l1).wvf = s.wvf ∧ (State.sandBytes s c i l0 l1).bpm = s.bpm ∧
    (State.sandBytes s c i l0 l1).sli = s.sli ∧ (State.sandBytes s c i l0 l1).sec = s.sec ∧ (State.sandBytes s c i l0 l1).mic = s.mic ∧
    (State.sandBytes s c i l0 l1).flt = s.flt ∧ (State.sandBytes s c i l0 l1).ctrs = s.ctrs ∧ (State.sandBytes s c i l0 l1).grps = s.grps ∧
    (State.sandBytes s c i l0 l1).pwr = s.pwr ∧ (State.sandBytes s c i l0 l1).thm = s.thm ∧ (State.sandBytes s c i l0 l1).age = s.age ∧
    (State.sandBytes s c i l0 l1).cnv = s.cnv ∧ (State.sandBytes s c i l0 l1).fwu = s.fwu ∧ (State.sandBytes s c i l0 l1).glb = s.glb ∧
    (State.sandBytes s c i l0 l1).sb = s.sb := by
  have w1 := @State.sandPut_still
  induction l1 generalizing s l0 with
  | nil => simp [State.sandBytes]
  | cons b t ih => simp [State.sandBytes, w1, ih]
theorem State.sandWrite_still (s : State) (c i va : Nat) (b : List Byte) :
    (State.sandWrite s c i va b).pending = s.pending ∧ (State.sandWrite s c i va b).free = s.free ∧
    (State.sandWrite s c i va b).host = s.host ∧ (State.sandWrite s c i va b).epoch = s.epoch ∧ (State.sandWrite s c i va b).pat = s.pat ∧
    (State.sandWrite s c i va b).isl = s.isl ∧ (State.sandWrite s c i va b).routes = s.routes ∧
    (State.sandWrite s c i va b).dramMargin = s.dramMargin ∧ (State.sandWrite s c i va b).ports = s.ports ∧
    (State.sandWrite s c i va b).trickle = s.trickle ∧ (State.sandWrite s c i va b).cmd = s.cmd ∧
    (State.sandWrite s c i va b).zon = s.zon ∧ (State.sandWrite s c i va b).med = s.med ∧ (State.sandWrite s c i va b).mlf = s.mlf ∧
    (State.sandWrite s c i va b).wvf = s.wvf ∧ (State.sandWrite s c i va b).bpm = s.bpm ∧ (State.sandWrite s c i va b).sli = s.sli ∧
    (State.sandWrite s c i va b).sec = s.sec ∧ (State.sandWrite s c i va b).mic = s.mic ∧ (State.sandWrite s c i va b).flt = s.flt ∧
    (State.sandWrite s c i va b).ctrs = s.ctrs ∧ (State.sandWrite s c i va b).grps = s.grps ∧ (State.sandWrite s c i va b).pwr = s.pwr ∧
    (State.sandWrite s c i va b).thm = s.thm ∧ (State.sandWrite s c i va b).age = s.age ∧ (State.sandWrite s c i va b).cnv = s.cnv ∧
    (State.sandWrite s c i va b).fwu = s.fwu ∧ (State.sandWrite s c i va b).glb = s.glb ∧ (State.sandWrite s c i va b).sb = s.sb := by
  have w1 := @State.sandBytes_still; have w2 := @State.modJob_still
  simp [State.sandWrite, w1, w2]
theorem State.modCore_still (s : State) (c i : Nat) (f : PCore → PCore) :
    (State.modCore s c i f).pending = s.pending ∧ (State.modCore s c i f).free = s.free ∧ (State.modCore s c i f).host = s.host ∧
    (State.modCore s c i f).epoch = s.epoch ∧ (State.modCore s c i f).pat = s.pat ∧ (State.modCore s c i f).isl = s.isl ∧
    (State.modCore s c i f).routes = s.routes ∧ (State.modCore s c i f).dramMargin = s.dramMargin ∧
    (State.modCore s c i f).ports = s.ports ∧ (State.modCore s c i f).trickle = s.trickle ∧ (State.modCore s c i f).cmd = s.cmd ∧
    (State.modCore s c i f).zon = s.zon ∧ (State.modCore s c i f).med = s.med ∧ (State.modCore s c i f).mlf = s.mlf ∧
    (State.modCore s c i f).wvf = s.wvf ∧ (State.modCore s c i f).bpm = s.bpm ∧ (State.modCore s c i f).sli = s.sli ∧
    (State.modCore s c i f).sec = s.sec ∧ (State.modCore s c i f).mic = s.mic ∧ (State.modCore s c i f).flt = s.flt ∧
    (State.modCore s c i f).ctrs = s.ctrs ∧ (State.modCore s c i f).grps = s.grps ∧ (State.modCore s c i f).pwr = s.pwr ∧
    (State.modCore s c i f).thm = s.thm ∧ (State.modCore s c i f).age = s.age ∧ (State.modCore s c i f).cnv = s.cnv ∧
    (State.modCore s c i f).fwu = s.fwu ∧ (State.modCore s c i f).glb = s.glb ∧ (State.modCore s c i f).sb = s.sb := by
  have w1 := @State.modJob_still
  simp [State.modCore, w1]
theorem State.ret_still (s : State) (c i : Nat) (v : Int) :
    (State.ret s c i v).pending = s.pending ∧ (State.ret s c i v).free = s.free ∧ (State.ret s c i v).host = s.host ∧
    (State.ret s c i v).epoch = s.epoch ∧ (State.ret s c i v).pat = s.pat ∧ (State.ret s c i v).isl = s.isl ∧
    (State.ret s c i v).routes = s.routes ∧ (State.ret s c i v).dramMargin = s.dramMargin ∧ (State.ret s c i v).ports = s.ports ∧
    (State.ret s c i v).trickle = s.trickle ∧ (State.ret s c i v).cmd = s.cmd ∧ (State.ret s c i v).zon = s.zon ∧
    (State.ret s c i v).med = s.med ∧ (State.ret s c i v).mlf = s.mlf ∧ (State.ret s c i v).wvf = s.wvf ∧ (State.ret s c i v).bpm = s.bpm ∧
    (State.ret s c i v).sli = s.sli ∧ (State.ret s c i v).sec = s.sec ∧ (State.ret s c i v).mic = s.mic ∧ (State.ret s c i v).flt = s.flt ∧
    (State.ret s c i v).ctrs = s.ctrs ∧ (State.ret s c i v).grps = s.grps ∧ (State.ret s c i v).pwr = s.pwr ∧
    (State.ret s c i v).thm = s.thm ∧ (State.ret s c i v).age = s.age ∧ (State.ret s c i v).cnv = s.cnv ∧ (State.ret s c i v).fwu = s.fwu ∧
    (State.ret s c i v).glb = s.glb ∧ (State.ret s c i v).sb = s.sb := by
  have w1 := @State.modCore_still
  simp [State.ret, w1]
theorem State.retOk_still (s : State) (c i : Nat) :
    (State.retOk s c i).pending = s.pending ∧ (State.retOk s c i).host = s.host ∧ (State.retOk s c i).epoch = s.epoch ∧
    (State.retOk s c i).pat = s.pat ∧ (State.retOk s c i).isl = s.isl ∧ (State.retOk s c i).routes = s.routes ∧
    (State.retOk s c i).dramMargin = s.dramMargin ∧ (State.retOk s c i).ports = s.ports ∧ (State.retOk s c i).trickle = s.trickle ∧
    (State.retOk s c i).cmd = s.cmd ∧ (State.retOk s c i).zon = s.zon ∧ (State.retOk s c i).med = s.med ∧ (State.retOk s c i).mlf = s.mlf ∧
    (State.retOk s c i).wvf = s.wvf ∧ (State.retOk s c i).bpm = s.bpm ∧ (State.retOk s c i).sli = s.sli ∧ (State.retOk s c i).sec = s.sec ∧
    (State.retOk s c i).mic = s.mic ∧ (State.retOk s c i).flt = s.flt ∧ (State.retOk s c i).ctrs = s.ctrs ∧
    (State.retOk s c i).grps = s.grps ∧ (State.retOk s c i).pwr = s.pwr ∧ (State.retOk s c i).thm = s.thm ∧
    (State.retOk s c i).age = s.age ∧ (State.retOk s c i).cnv = s.cnv ∧ (State.retOk s c i).fwu = s.fwu ∧ (State.retOk s c i).glb = s.glb ∧
    (State.retOk s c i).sb = s.sb := by
  have w1 := @drawNat_still; have w2 := @State.ret_still
  simp [State.retOk, w1, w2]
theorem State.ret2_still (s : State) (c i : Nat) (v : Int) (w : Nat) :
    (State.ret2 s c i v w).pending = s.pending ∧ (State.ret2 s c i v w).free = s.free ∧ (State.ret2 s c i v w).host = s.host ∧
    (State.ret2 s c i v w).epoch = s.epoch ∧ (State.ret2 s c i v w).pat = s.pat ∧ (State.ret2 s c i v w).isl = s.isl ∧
    (State.ret2 s c i v w).routes = s.routes ∧ (State.ret2 s c i v w).dramMargin = s.dramMargin ∧ (State.ret2 s c i v w).ports = s.ports ∧
    (State.ret2 s c i v w).trickle = s.trickle ∧ (State.ret2 s c i v w).cmd = s.cmd ∧ (State.ret2 s c i v w).zon = s.zon ∧
    (State.ret2 s c i v w).med = s.med ∧ (State.ret2 s c i v w).mlf = s.mlf ∧ (State.ret2 s c i v w).wvf = s.wvf ∧
    (State.ret2 s c i v w).bpm = s.bpm ∧ (State.ret2 s c i v w).sli = s.sli ∧ (State.ret2 s c i v w).sec = s.sec ∧
    (State.ret2 s c i v w).mic = s.mic ∧ (State.ret2 s c i v w).flt = s.flt ∧ (State.ret2 s c i v w).ctrs = s.ctrs ∧
    (State.ret2 s c i v w).grps = s.grps ∧ (State.ret2 s c i v w).pwr = s.pwr ∧ (State.ret2 s c i v w).thm = s.thm ∧
    (State.ret2 s c i v w).age = s.age ∧ (State.ret2 s c i v w).cnv = s.cnv ∧ (State.ret2 s c i v w).fwu = s.fwu ∧
    (State.ret2 s c i v w).glb = s.glb ∧ (State.ret2 s c i v w).sb = s.sb := by
  have w1 := @State.modCore_still
  simp [State.ret2, w1]
theorem State.barrierCheck_still (s : State) (c : Nat) :
    (State.barrierCheck s c).pending = s.pending ∧ (State.barrierCheck s c).free = s.free ∧ (State.barrierCheck s c).host = s.host ∧
    (State.barrierCheck s c).epoch = s.epoch ∧ (State.barrierCheck s c).pat = s.pat ∧ (State.barrierCheck s c).isl = s.isl ∧
    (State.barrierCheck s c).routes = s.routes ∧ (State.barrierCheck s c).dramMargin = s.dramMargin ∧
    (State.barrierCheck s c).ports = s.ports ∧ (State.barrierCheck s c).trickle = s.trickle ∧ (State.barrierCheck s c).cmd = s.cmd ∧
    (State.barrierCheck s c).zon = s.zon ∧ (State.barrierCheck s c).med = s.med ∧ (State.barrierCheck s c).mlf = s.mlf ∧
    (State.barrierCheck s c).wvf = s.wvf ∧ (State.barrierCheck s c).bpm = s.bpm ∧ (State.barrierCheck s c).sli = s.sli ∧
    (State.barrierCheck s c).sec = s.sec ∧ (State.barrierCheck s c).mic = s.mic ∧ (State.barrierCheck s c).flt = s.flt ∧
    (State.barrierCheck s c).ctrs = s.ctrs ∧ (State.barrierCheck s c).grps = s.grps ∧ (State.barrierCheck s c).pwr = s.pwr ∧
    (State.barrierCheck s c).thm = s.thm ∧ (State.barrierCheck s c).age = s.age ∧ (State.barrierCheck s c).cnv = s.cnv ∧
    (State.barrierCheck s c).fwu = s.fwu ∧ (State.barrierCheck s c).glb = s.glb ∧ (State.barrierCheck s c).sb = s.sb := by
  have w1 := @State.modJob_still; have wi := @ite_parts
  simp [State.barrierCheck, w1, wi]
theorem State.toSandbox_still (s : State) (owner h : Nat) :
    (State.toSandbox s owner h).pending = s.pending ∧ (State.toSandbox s owner h).free = s.free ∧
    (State.toSandbox s owner h).host = s.host ∧ (State.toSandbox s owner h).epoch = s.epoch ∧ (State.toSandbox s owner h).pat = s.pat ∧
    (State.toSandbox s owner h).isl = s.isl ∧ (State.toSandbox s owner h).routes = s.routes ∧
    (State.toSandbox s owner h).dramMargin = s.dramMargin ∧ (State.toSandbox s owner h).ports = s.ports ∧
    (State.toSandbox s owner h).trickle = s.trickle ∧ (State.toSandbox s owner h).cmd = s.cmd ∧ (State.toSandbox s owner h).zon = s.zon ∧
    (State.toSandbox s owner h).med = s.med ∧ (State.toSandbox s owner h).mlf = s.mlf ∧ (State.toSandbox s owner h).cpx = s.cpx ∧
    (State.toSandbox s owner h).wvf = s.wvf ∧ (State.toSandbox s owner h).sli = s.sli ∧ (State.toSandbox s owner h).sec = s.sec ∧
    (State.toSandbox s owner h).mic = s.mic ∧ (State.toSandbox s owner h).flt = s.flt ∧ (State.toSandbox s owner h).ctrs = s.ctrs ∧
    (State.toSandbox s owner h).grps = s.grps ∧ (State.toSandbox s owner h).pwr = s.pwr ∧ (State.toSandbox s owner h).thm = s.thm ∧
    (State.toSandbox s owner h).age = s.age ∧ (State.toSandbox s owner h).cnv = s.cnv ∧ (State.toSandbox s owner h).fwu = s.fwu ∧
    (State.toSandbox s owner h).glb = s.glb ∧ (State.toSandbox s owner h).sb = s.sb := by
  have w1 := @State.setFrame_still; have w2 := @State.bpmCnt_still
  simp [State.toSandbox, w1, w2]
theorem State.holdOutput_still (s : State) (c i n : Nat) {r : State} (e : State.holdOutput s c i n = some r) :
    r.pending = s.pending ∧ r.free = s.free ∧ r.host = s.host ∧ r.epoch = s.epoch ∧ r.pat = s.pat ∧ r.isl = s.isl ∧ r.routes = s.routes ∧
    r.dramMargin = s.dramMargin ∧ r.ports = s.ports ∧ r.trickle = s.trickle ∧ r.zon = s.zon ∧ r.med = s.med ∧ r.mlf = s.mlf ∧
    r.wvf = s.wvf ∧ r.sli = s.sli ∧ r.sec = s.sec ∧ r.ctrs = s.ctrs ∧ r.grps = s.grps ∧ r.pwr = s.pwr ∧ r.thm = s.thm ∧ r.age = s.age ∧
    r.cnv = s.cnv ∧ r.fwu = s.fwu ∧ r.glb = s.glb ∧ r.sb = s.sb := by
  have wf := @foldl_parts; have w1 := @State.freeFrame_still; have w2 := @State.toSandbox_still; have w3 := @State.modCore_still
  unfold State.holdOutput at e; dsimp only at e; split at e
  · cases e; simp [wf, w1, w3]
  · split at e
    · cases e
    · rename_i q; have k := State.allocFrames_still _ _ _ _ _ q; cases e; simp [wf, w2, w3, k]
theorem State.holdOutputs_still (s : State) (c : Nat) {r : State} (e : State.holdOutputs s c = some r) :
    r.pending = s.pending ∧ r.free = s.free ∧ r.host = s.host ∧ r.epoch = s.epoch ∧ r.pat = s.pat ∧ r.isl = s.isl ∧ r.routes = s.routes ∧
    r.dramMargin = s.dramMargin ∧ r.ports = s.ports ∧ r.trickle = s.trickle ∧ r.zon = s.zon ∧ r.med = s.med ∧ r.mlf = s.mlf ∧
    r.wvf = s.wvf ∧ r.sli = s.sli ∧ r.sec = s.sec ∧ r.ctrs = s.ctrs ∧ r.grps = s.grps ∧ r.pwr = s.pwr ∧ r.thm = s.thm ∧ r.age = s.age ∧
    r.cnv = s.cnv ∧ r.fwu = s.fwu ∧ r.glb = s.glb ∧ r.sb = s.sb := by
  have w1 := @State.holdOutput_still
  unfold State.holdOutputs at e; dsimp only at e
  and_intros
  all_goals
    refine foldl_bind_keeps _ _ _ (fun t x u q => ?_) _ _ e
    have k := w1 _ _ _ _ q; simp [k]
theorem State.limitCheck_still (s : State) (c : Nat) :
    (State.limitCheck s c).pending = s.pending ∧ (State.limitCheck s c).host = s.host ∧ (State.limitCheck s c).epoch = s.epoch ∧
    (State.limitCheck s c).pat = s.pat ∧ (State.limitCheck s c).dramMargin = s.dramMargin ∧ (State.limitCheck s c).ports = s.ports ∧
    (State.limitCheck s c).trickle = s.trickle ∧ (State.limitCheck s c).sec = s.sec ∧ (State.limitCheck s c).ctrs = s.ctrs ∧
    (State.limitCheck s c).grps = s.grps ∧ (State.limitCheck s c).thm = s.thm ∧ (State.limitCheck s c).age = s.age ∧
    (State.limitCheck s c).cnv = s.cnv ∧ (State.limitCheck s c).fwu = s.fwu ∧ (State.limitCheck s c).glb = s.glb ∧
    (State.limitCheck s c).sb = s.sb := by
  have w1 := @State.finishJob_still; have wi := @ite_parts
  simp [State.limitCheck, w1, wi]
theorem State.outputCheck_still (s : State) (c : Nat) :
    (State.outputCheck s c).pending = s.pending ∧ (State.outputCheck s c).host = s.host ∧ (State.outputCheck s c).epoch = s.epoch ∧
    (State.outputCheck s c).pat = s.pat ∧ (State.outputCheck s c).dramMargin = s.dramMargin ∧ (State.outputCheck s c).ports = s.ports ∧
    (State.outputCheck s c).trickle = s.trickle ∧ (State.outputCheck s c).sec = s.sec ∧ (State.outputCheck s c).ctrs = s.ctrs ∧
    (State.outputCheck s c).grps = s.grps ∧ (State.outputCheck s c).thm = s.thm ∧ (State.outputCheck s c).age = s.age ∧
    (State.outputCheck s c).cnv = s.cnv ∧ (State.outputCheck s c).fwu = s.fwu ∧ (State.outputCheck s c).glb = s.glb ∧
    (State.outputCheck s c).sb = s.sb := by
  have w1 := @State.failJob_still; have w2 := @State.noFrames_still; have w3 := @State.limitCheck_still
  rw [State.outputCheck]; split
  · simp [w1]
  · split
    · simp [w2]
    · rename_i q; have k := State.holdOutputs_still _ _ q; simp [w3, k]
theorem State.recordTrap_still (s : State) (c i cause code pc tval_ : Nat) :
    (State.recordTrap s c i cause code pc tval_).pending = s.pending ∧ (State.recordTrap s c i cause code pc tval_).free = s.free ∧
    (State.recordTrap s c i cause code pc tval_).host = s.host ∧ (State.recordTrap s c i cause code pc tval_).epoch = s.epoch ∧
    (State.recordTrap s c i cause code pc tval_).pat = s.pat ∧ (State.recordTrap s c i cause code pc tval_).isl = s.isl ∧
    (State.recordTrap s c i cause code pc tval_).routes = s.routes ∧
    (State.recordTrap s c i cause code pc tval_).dramMargin = s.dramMargin ∧ (State.recordTrap s c i cause code pc tval_).ports = s.ports ∧
    (State.recordTrap s c i cause code pc tval_).trickle = s.trickle ∧ (State.recordTrap s c i cause code pc tval_).cmd = s.cmd ∧
    (State.recordTrap s c i cause code pc tval_).zon = s.zon ∧ (State.recordTrap s c i cause code pc tval_).med = s.med ∧
    (State.recordTrap s c i cause code pc tval_).mlf = s.mlf ∧ (State.recordTrap s c i cause code pc tval_).wvf = s.wvf ∧
    (State.recordTrap s c i cause code pc tval_).bpm = s.bpm ∧ (State.recordTrap s c i cause code pc tval_).sli = s.sli ∧
    (State.recordTrap s c i cause code pc tval_).sec = s.sec ∧ (State.recordTrap s c i cause code pc tval_).mic = s.mic ∧
    (State.recordTrap s c i cause code pc tval_).flt = s.flt ∧ (State.recordTrap s c i cause code pc tval_).ctrs = s.ctrs ∧
    (State.recordTrap s c i cause code pc tval_).grps = s.grps ∧ (State.recordTrap s c i cause code pc tval_).pwr = s.pwr ∧
    (State.recordTrap s c i cause code pc tval_).thm = s.thm ∧ (State.recordTrap s c i cause code pc tval_).age = s.age ∧
    (State.recordTrap s c i cause code pc tval_).cnv = s.cnv ∧ (State.recordTrap s c i cause code pc tval_).fwu = s.fwu ∧
    (State.recordTrap s c i cause code pc tval_).glb = s.glb ∧ (State.recordTrap s c i cause code pc tval_).sb = s.sb := by
  simp [State.recordTrap]
theorem State.cacheAtc_still (s : State) (p sl addr n : Nat) :
    (State.cacheAtc s p sl addr n).pending = s.pending ∧ (State.cacheAtc s p sl addr n).free = s.free ∧
    (State.cacheAtc s p sl addr n).host = s.host ∧ (State.cacheAtc s p sl addr n).epoch = s.epoch ∧
    (State.cacheAtc s p sl addr n).pat = s.pat ∧ (State.cacheAtc s p sl addr n).isl = s.isl ∧
    (State.cacheAtc s p sl addr n).routes = s.routes ∧ (State.cacheAtc s p sl addr n).dramMargin = s.dramMargin ∧
    (State.cacheAtc s p sl addr n).trickle = s.trickle ∧ (State.cacheAtc s p sl addr n).cmd = s.cmd ∧
    (State.cacheAtc s p sl addr n).zon = s.zon ∧ (State.cacheAtc s p sl addr n).med = s.med ∧ (State.cacheAtc s p sl addr n).mlf = s.mlf ∧
    (State.cacheAtc s p sl addr n).cpx = s.cpx ∧ (State.cacheAtc s p sl addr n).wvf = s.wvf ∧ (State.cacheAtc s p sl addr n).bpm = s.bpm ∧
    (State.cacheAtc s p sl addr n).sli = s.sli ∧ (State.cacheAtc s p sl addr n).sec = s.sec ∧ (State.cacheAtc s p sl addr n).mic = s.mic ∧
    (State.cacheAtc s p sl addr n).flt = s.flt ∧ (State.cacheAtc s p sl addr n).ctrs = s.ctrs ∧
    (State.cacheAtc s p sl addr n).grps = s.grps ∧ (State.cacheAtc s p sl addr n).pwr = s.pwr ∧
    (State.cacheAtc s p sl addr n).thm = s.thm ∧ (State.cacheAtc s p sl addr n).age = s.age ∧ (State.cacheAtc s p sl addr n).cnv = s.cnv ∧
    (State.cacheAtc s p sl addr n).fwu = s.fwu ∧ (State.cacheAtc s p sl addr n).glb = s.glb ∧ (State.cacheAtc s p sl addr n).sb = s.sb := by
  have w1 := @State.modPort_still
  simp [State.cacheAtc, w1]
theorem State.atsRefused_still (s : State) (c i va : Nat) :
    (State.atsRefused s c i va).pending = s.pending ∧ (State.atsRefused s c i va).host = s.host ∧
    (State.atsRefused s c i va).epoch = s.epoch ∧ (State.atsRefused s c i va).pat = s.pat ∧ (State.atsRefused s c i va).isl = s.isl ∧
    (State.atsRefused s c i va).dramMargin = s.dramMargin ∧ (State.atsRefused s c i va).ports = s.ports ∧
    (State.atsRefused s c i va).trickle = s.trickle ∧ (State.atsRefused s c i va).mlf = s.mlf ∧ (State.atsRefused s c i va).sli = s.sli ∧
    (State.atsRefused s c i va).sec = s.sec ∧ (State.atsRefused s c i va).ctrs = s.ctrs ∧ (State.atsRefused s c i va).grps = s.grps ∧
    (State.atsRefused s c i va).pwr = s.pwr ∧ (State.atsRefused s c i va).thm = s.thm ∧ (State.atsRefused s c i va).age = s.age ∧
    (State.atsRefused s c i va).cnv = s.cnv ∧ (State.atsRefused s c i va).fwu = s.fwu ∧ (State.atsRefused s c i va).glb = s.glb ∧
    (State.atsRefused s c i va).sb = s.sb := by
  have w1 := @State.recordTrap_still; have w2 := @State.failJob_still
  simp [State.atsRefused, w1, w2]
theorem State.hartWrites_still (s : State) (c i : Nat) (ws : List (Nat × List Byte)) :
    (State.hartWrites s c i ws).pending = s.pending ∧ (State.hartWrites s c i ws).free = s.free ∧
    (State.hartWrites s c i ws).host = s.host ∧ (State.hartWrites s c i ws).epoch = s.epoch ∧ (State.hartWrites s c i ws).pat = s.pat ∧
    (State.hartWrites s c i ws).isl = s.isl ∧ (State.hartWrites s c i ws).routes = s.routes ∧
    (State.hartWrites s c i ws).dramMargin = s.dramMargin ∧ (State.hartWrites s c i ws).ports = s.ports ∧
    (State.hartWrites s c i ws).trickle = s.trickle ∧ (State.hartWrites s c i ws).cmd = s.cmd ∧ (State.hartWrites s c i ws).zon = s.zon ∧
    (State.hartWrites s c i ws).med = s.med ∧ (State.hartWrites s c i ws).mlf = s.mlf ∧ (State.hartWrites s c i ws).wvf = s.wvf ∧
    (State.hartWrites s c i ws).bpm = s.bpm ∧ (State.hartWrites s c i ws).sli = s.sli ∧ (State.hartWrites s c i ws).sec = s.sec ∧
    (State.hartWrites s c i ws).mic = s.mic ∧ (State.hartWrites s c i ws).flt = s.flt ∧ (State.hartWrites s c i ws).ctrs = s.ctrs ∧
    (State.hartWrites s c i ws).grps = s.grps ∧ (State.hartWrites s c i ws).pwr = s.pwr ∧ (State.hartWrites s c i ws).thm = s.thm ∧
    (State.hartWrites s c i ws).age = s.age ∧ (State.hartWrites s c i ws).cnv = s.cnv ∧ (State.hartWrites s c i ws).fwu = s.fwu ∧
    (State.hartWrites s c i ws).glb = s.glb ∧ (State.hartWrites s c i ws).sb = s.sb := by
  have w1 := @State.sandWrite_still; have wf := @foldl_parts
  simp [State.hartWrites, w1, wf]
theorem State.hartTrap_still (s : State) (c i cause pc tval_ : Nat) :
    (State.hartTrap s c i cause pc tval_).pending = s.pending ∧ (State.hartTrap s c i cause pc tval_).host = s.host ∧
    (State.hartTrap s c i cause pc tval_).epoch = s.epoch ∧ (State.hartTrap s c i cause pc tval_).pat = s.pat ∧
    (State.hartTrap s c i cause pc tval_).isl = s.isl ∧ (State.hartTrap s c i cause pc tval_).dramMargin = s.dramMargin ∧
    (State.hartTrap s c i cause pc tval_).ports = s.ports ∧ (State.hartTrap s c i cause pc tval_).trickle = s.trickle ∧
    (State.hartTrap s c i cause pc tval_).mlf = s.mlf ∧ (State.hartTrap s c i cause pc tval_).sli = s.sli ∧
    (State.hartTrap s c i cause pc tval_).sec = s.sec ∧ (State.hartTrap s c i cause pc tval_).ctrs = s.ctrs ∧
    (State.hartTrap s c i cause pc tval_).grps = s.grps ∧ (State.hartTrap s c i cause pc tval_).pwr = s.pwr ∧
    (State.hartTrap s c i cause pc tval_).thm = s.thm ∧ (State.hartTrap s c i cause pc tval_).age = s.age ∧
    (State.hartTrap s c i cause pc tval_).cnv = s.cnv ∧ (State.hartTrap s c i cause pc tval_).fwu = s.fwu ∧
    (State.hartTrap s c i cause pc tval_).glb = s.glb ∧ (State.hartTrap s c i cause pc tval_).sb = s.sb := by
  have w1 := @State.recordTrap_still; have w2 := @State.failJob_still
  simp [State.hartTrap, w1, w2]
theorem State.coreStep_still (s : State) (k : Nat) :
    (State.coreStep s k).pending = s.pending ∧ (State.coreStep s k).host = s.host ∧ (State.coreStep s k).epoch = s.epoch ∧
    (State.coreStep s k).pat = s.pat ∧ (State.coreStep s k).isl = s.isl ∧ (State.coreStep s k).dramMargin = s.dramMargin ∧
    (State.coreStep s k).ports = s.ports ∧ (State.coreStep s k).trickle = s.trickle ∧ (State.coreStep s k).mlf = s.mlf ∧
    (State.coreStep s k).sli = s.sli ∧ (State.coreStep s k).sec = s.sec ∧ (State.coreStep s k).ctrs = s.ctrs ∧
    (State.coreStep s k).grps = s.grps ∧ (State.coreStep s k).pwr = s.pwr ∧ (State.coreStep s k).thm = s.thm ∧
    (State.coreStep s k).age = s.age ∧ (State.coreStep s k).cnv = s.cnv ∧ (State.coreStep s k).fwu = s.fwu ∧
    (State.coreStep s k).glb = s.glb ∧ (State.coreStep s k).sb = s.sb := by
  have w1 := @State.modCore_still; have w2 := @State.hartWrites_still; have w3 := @State.drawn_still
  have w4 := @State.hartTrap_still; have wi := @ite_parts
  unfold State.coreStep; dsimp only; repeat' split
  all_goals simp [*]
theorem State.tick_still (s : State) :
    (State.tick s).pending = s.pending ∧ (State.tick s).host = s.host ∧ (State.tick s).epoch = s.epoch ∧ (State.tick s).pat = s.pat ∧
    (State.tick s).isl = s.isl ∧ (State.tick s).dramMargin = s.dramMargin ∧ (State.tick s).ports = s.ports ∧
    (State.tick s).trickle = s.trickle ∧ (State.tick s).mlf = s.mlf ∧ (State.tick s).sli = s.sli ∧ (State.tick s).sec = s.sec ∧
    (State.tick s).ctrs = s.ctrs ∧ (State.tick s).grps = s.grps ∧ (State.tick s).pwr = s.pwr ∧ (State.tick s).thm = s.thm ∧
    (State.tick s).age = s.age ∧ (State.tick s).cnv = s.cnv ∧ (State.tick s).fwu = s.fwu ∧ (State.tick s).glb = s.glb ∧
    (State.tick s).sb = s.sb := by
  have w1 := @State.drawn_still; have w2 := @State.coreStep_still
  unfold State.tick; repeat' split
  all_goals simp [*]
theorem State.giveFrame_still (s : State) (h : Nat) (l0 : PoolAsker) :
    (State.giveFrame s h l0).pending = s.pending ∧ (State.giveFrame s h l0).free = s.free ∧ (State.giveFrame s h l0).host = s.host ∧
    (State.giveFrame s h l0).epoch = s.epoch ∧ (State.giveFrame s h l0).pat = s.pat ∧ (State.giveFrame s h l0).isl = s.isl ∧
    (State.giveFrame s h l0).routes = s.routes ∧ (State.giveFrame s h l0).dramMargin = s.dramMargin ∧
    (State.giveFrame s h l0).ports = s.ports ∧ (State.giveFrame s h l0).trickle = s.trickle ∧ (State.giveFrame s h l0).zon = s.zon ∧
    (State.giveFrame s h l0).med = s.med ∧ (State.giveFrame s h l0).mlf = s.mlf ∧ (State.giveFrame s h l0).wvf = s.wvf ∧
    (State.giveFrame s h l0).sli = s.sli ∧ (State.giveFrame s h l0).sec = s.sec ∧ (State.giveFrame s h l0).ctrs = s.ctrs ∧
    (State.giveFrame s h l0).grps = s.grps ∧ (State.giveFrame s h l0).pwr = s.pwr ∧ (State.giveFrame s h l0).thm = s.thm ∧
    (State.giveFrame s h l0).age = s.age ∧ (State.giveFrame s h l0).cnv = s.cnv ∧ (State.giveFrame s h l0).fwu = s.fwu ∧
    (State.giveFrame s h l0).glb = s.glb ∧ (State.giveFrame s h l0).sb = s.sb := by
  have w1 := @State.modCtx_still; have w2 := @State.freeAll_still; have w3 := @State.modJob_still; have wi := @ite_parts
  unfold State.giveFrame; repeat' split
  all_goals simp [*]
theorem State.frameDenied_still (s : State) (cls unit slice : Nat) (who : PoolAsker) :
    (State.frameDenied s cls unit slice who).pending = s.pending ∧ (State.frameDenied s cls unit slice who).host = s.host ∧
    (State.frameDenied s cls unit slice who).epoch = s.epoch ∧ (State.frameDenied s cls unit slice who).pat = s.pat ∧
    (State.frameDenied s cls unit slice who).isl = s.isl ∧ (State.frameDenied s cls unit slice who).dramMargin = s.dramMargin ∧
    (State.frameDenied s cls unit slice who).ports = s.ports ∧ (State.frameDenied s cls unit slice who).trickle = s.trickle ∧
    (State.frameDenied s cls unit slice who).mlf = s.mlf ∧ (State.frameDenied s cls unit slice who).sli = s.sli ∧
    (State.frameDenied s cls unit slice who).sec = s.sec ∧ (State.frameDenied s cls unit slice who).ctrs = s.ctrs ∧
    (State.frameDenied s cls unit slice who).grps = s.grps ∧ (State.frameDenied s cls unit slice who).pwr = s.pwr ∧
    (State.frameDenied s cls unit slice who).thm = s.thm ∧ (State.frameDenied s cls unit slice who).age = s.age ∧
    (State.frameDenied s cls unit slice who).cnv = s.cnv ∧ (State.frameDenied s cls unit slice who).fwu = s.fwu ∧
    (State.frameDenied s cls unit slice who).glb = s.glb ∧ (State.frameDenied s cls unit slice who).sb = s.sb := by
  have w1 := @State.bpmCnt_still; have w2 := @State.endErr_still; have w3 := @State.stallFrame_still; have wi := @ite_parts
  unfold State.frameDenied; repeat' split
  all_goals simp [*]
theorem State.commitLbas_still (s : State) (n : Nat) (unc : Bool) (l : List Nat) :
    (State.commitLbas s n unc l).pending = s.pending ∧ (State.commitLbas s n unc l).free = s.free ∧
    (State.commitLbas s n unc l).host = s.host ∧ (State.commitLbas s n unc l).epoch = s.epoch ∧ (State.commitLbas s n unc l).pat = s.pat ∧
    (State.commitLbas s n unc l).routes = s.routes ∧ (State.commitLbas s n unc l).dramMargin = s.dramMargin ∧
    (State.commitLbas s n unc l).ports = s.ports ∧ (State.commitLbas s n unc l).trickle = s.trickle ∧
    (State.commitLbas s n unc l).cpx = s.cpx ∧ (State.commitLbas s n unc l).wvf = s.wvf ∧ (State.commitLbas s n unc l).bpm = s.bpm ∧
    (State.commitLbas s n unc l).sec = s.sec ∧ (State.commitLbas s n unc l).mic = s.mic ∧ (State.commitLbas s n unc l).ctrs = s.ctrs ∧
    (State.commitLbas s n unc l).grps = s.grps ∧ (State.commitLbas s n unc l).thm = s.thm ∧ (State.commitLbas s n unc l).age = s.age ∧
    (State.commitLbas s n unc l).cnv = s.cnv ∧ (State.commitLbas s n unc l).fwu = s.fwu ∧ (State.commitLbas s n unc l).glb = s.glb ∧
    (State.commitLbas s n unc l).sb = s.sb := by
  have w1 := @State.commitMap_still; have wf := @foldl_parts
  simp [State.commitLbas, w1, wf]
theorem State.recordFua_still (s : State) (x : Ctx) :
    (State.recordFua s x).pending = s.pending ∧ (State.recordFua s x).free = s.free ∧ (State.recordFua s x).host = s.host ∧
    (State.recordFua s x).epoch = s.epoch ∧ (State.recordFua s x).pat = s.pat ∧ (State.recordFua s x).isl = s.isl ∧
    (State.recordFua s x).routes = s.routes ∧ (State.recordFua s x).dramMargin = s.dramMargin ∧ (State.recordFua s x).ports = s.ports ∧
    (State.recordFua s x).trickle = s.trickle ∧ (State.recordFua s x).cmd = s.cmd ∧ (State.recordFua s x).med = s.med ∧
    (State.recordFua s x).mlf = s.mlf ∧ (State.recordFua s x).cpx = s.cpx ∧ (State.recordFua s x).wvf = s.wvf ∧
    (State.recordFua s x).bpm = s.bpm ∧ (State.recordFua s x).sli = s.sli ∧ (State.recordFua s x).sec = s.sec ∧
    (State.recordFua s x).mic = s.mic ∧ (State.recordFua s x).flt = s.flt ∧ (State.recordFua s x).ctrs = s.ctrs ∧
    (State.recordFua s x).grps = s.grps ∧ (State.recordFua s x).pwr = s.pwr ∧ (State.recordFua s x).thm = s.thm ∧
    (State.recordFua s x).age = s.age ∧ (State.recordFua s x).cnv = s.cnv ∧ (State.recordFua s x).fwu = s.fwu ∧
    (State.recordFua s x).glb = s.glb ∧ (State.recordFua s x).sb = s.sb := by
  have w1 := @State.recordLba_still; have wf := @foldl_parts; have wi := @ite_parts
  simp [State.recordFua, w1, wf, wi]
theorem State.commitDealloc_still (s : State) (n : Nat) (l : List Nat) :
    (State.commitDealloc s n l).pending = s.pending ∧ (State.commitDealloc s n l).host = s.host ∧
    (State.commitDealloc s n l).epoch = s.epoch ∧ (State.commitDealloc s n l).pat = s.pat ∧ (State.commitDealloc s n l).routes = s.routes ∧
    (State.commitDealloc s n l).dramMargin = s.dramMargin ∧ (State.commitDealloc s n l).ports = s.ports ∧
    (State.commitDealloc s n l).trickle = s.trickle ∧ (State.commitDealloc s n l).cpx = s.cpx ∧ (State.commitDealloc s n l).wvf = s.wvf ∧
    (State.commitDealloc s n l).bpm = s.bpm ∧ (State.commitDealloc s n l).sec = s.sec ∧ (State.commitDealloc s n l).mic = s.mic ∧
    (State.commitDealloc s n l).ctrs = s.ctrs ∧ (State.commitDealloc s n l).grps = s.grps ∧ (State.commitDealloc s n l).thm = s.thm ∧
    (State.commitDealloc s n l).age = s.age ∧ (State.commitDealloc s n l).cnv = s.cnv ∧ (State.commitDealloc s n l).fwu = s.fwu ∧
    (State.commitDealloc s n l).glb = s.glb ∧ (State.commitDealloc s n l).sb = s.sb := by
  have w1 := @drawBool_still; have w2 := @State.commitMap_still; have wf := @foldl_parts
  have wi := @ite_parts
  simp [State.commitDealloc, w1, w2, wf, wi]
theorem State.notePlacement_still (s : State) (n : Nat) (x : Ctx) :
    (State.notePlacement s n x).pending = s.pending ∧ (State.notePlacement s n x).free = s.free ∧
    (State.notePlacement s n x).host = s.host ∧ (State.notePlacement s n x).epoch = s.epoch ∧ (State.notePlacement s n x).pat = s.pat ∧
    (State.notePlacement s n x).isl = s.isl ∧ (State.notePlacement s n x).routes = s.routes ∧
    (State.notePlacement s n x).dramMargin = s.dramMargin ∧ (State.notePlacement s n x).ports = s.ports ∧
    (State.notePlacement s n x).trickle = s.trickle ∧ (State.notePlacement s n x).cmd = s.cmd ∧ (State.notePlacement s n x).med = s.med ∧
    (State.notePlacement s n x).mlf = s.mlf ∧ (State.notePlacement s n x).cpx = s.cpx ∧ (State.notePlacement s n x).wvf = s.wvf ∧
    (State.notePlacement s n x).bpm = s.bpm ∧ (State.notePlacement s n x).sli = s.sli ∧ (State.notePlacement s n x).sec = s.sec ∧
    (State.notePlacement s n x).mic = s.mic ∧ (State.notePlacement s n x).flt = s.flt ∧ (State.notePlacement s n x).ctrs = s.ctrs ∧
    (State.notePlacement s n x).grps = s.grps ∧ (State.notePlacement s n x).pwr = s.pwr ∧ (State.notePlacement s n x).thm = s.thm ∧
    (State.notePlacement s n x).age = s.age ∧ (State.notePlacement s n x).cnv = s.cnv ∧ (State.notePlacement s n x).fwu = s.fwu ∧
    (State.notePlacement s n x).glb = s.glb ∧ (State.notePlacement s n x).sb = s.sb := by
  have w1 := @State.fdpEvent_still; have wi := @ite_parts
  simp [State.notePlacement, w1, wi]
theorem State.cancelRange_still (s : State) (x : Ctx) :
    (State.cancelRange s x).pending = s.pending ∧ (State.cancelRange s x).free = s.free ∧ (State.cancelRange s x).host = s.host ∧
    (State.cancelRange s x).epoch = s.epoch ∧ (State.cancelRange s x).pat = s.pat ∧ (State.cancelRange s x).isl = s.isl ∧
    (State.cancelRange s x).routes = s.routes ∧ (State.cancelRange s x).dramMargin = s.dramMargin ∧
    (State.cancelRange s x).ports = s.ports ∧ (State.cancelRange s x).trickle = s.trickle ∧ (State.cancelRange s x).zon = s.zon ∧
    (State.cancelRange s x).med = s.med ∧ (State.cancelRange s x).mlf = s.mlf ∧ (State.cancelRange s x).cpx = s.cpx ∧
    (State.cancelRange s x).wvf = s.wvf ∧ (State.cancelRange s x).bpm = s.bpm ∧ (State.cancelRange s x).sec = s.sec ∧
    (State.cancelRange s x).mic = s.mic ∧ (State.cancelRange s x).flt = s.flt ∧ (State.cancelRange s x).ctrs = s.ctrs ∧
    (State.cancelRange s x).grps = s.grps ∧ (State.cancelRange s x).pwr = s.pwr ∧ (State.cancelRange s x).thm = s.thm ∧
    (State.cancelRange s x).age = s.age ∧ (State.cancelRange s x).cnv = s.cnv ∧ (State.cancelRange s x).fwu = s.fwu ∧
    (State.cancelRange s x).glb = s.glb ∧ (State.cancelRange s x).sb = s.sb := by
  have w1 := @State.cometCancel_still
  unfold State.cancelRange; repeat' split
  all_goals simp [*]
theorem State.openZone_still (s : State) (e slice : Nat) :
    (State.openZone s e slice).pending = s.pending ∧ (State.openZone s e slice).free = s.free ∧ (State.openZone s e slice).host = s.host ∧
    (State.openZone s e slice).epoch = s.epoch ∧ (State.openZone s e slice).pat = s.pat ∧ (State.openZone s e slice).routes = s.routes ∧
    (State.openZone s e slice).dramMargin = s.dramMargin ∧ (State.openZone s e slice).ports = s.ports ∧
    (State.openZone s e slice).trickle = s.trickle ∧ (State.openZone s e slice).cpx = s.cpx ∧ (State.openZone s e slice).wvf = s.wvf ∧
    (State.openZone s e slice).bpm = s.bpm ∧ (State.openZone s e slice).sec = s.sec ∧ (State.openZone s e slice).mic = s.mic ∧
    (State.openZone s e slice).ctrs = s.ctrs ∧ (State.openZone s e slice).grps = s.grps ∧ (State.openZone s e slice).thm = s.thm ∧
    (State.openZone s e slice).age = s.age ∧ (State.openZone s e slice).cnv = s.cnv ∧ (State.openZone s e slice).fwu = s.fwu ∧
    (State.openZone s e slice).glb = s.glb ∧ (State.openZone s e slice).sb = s.sb := by
  have w1 := @State.modZent_still; have w2 := @State.urgentGc_still; have wi := @ite_parts
  unfold State.openZone; dsimp only
  cases q : s.zoneRowsFor e with
  | none => simp [w1, w2, wi]
  | some t => have k := State.zoneRowsFor_still _ _ q; simp [w1, w2, wi, k]
theorem State.finishZone_still (s : State) (e c : Nat) :
    (State.finishZone s e c).pending = s.pending ∧ (State.finishZone s e c).free = s.free ∧ (State.finishZone s e c).host = s.host ∧
    (State.finishZone s e c).epoch = s.epoch ∧ (State.finishZone s e c).pat = s.pat ∧ (State.finishZone s e c).routes = s.routes ∧
    (State.finishZone s e c).dramMargin = s.dramMargin ∧ (State.finishZone s e c).ports = s.ports ∧
    (State.finishZone s e c).trickle = s.trickle ∧ (State.finishZone s e c).cpx = s.cpx ∧ (State.finishZone s e c).wvf = s.wvf ∧
    (State.finishZone s e c).bpm = s.bpm ∧ (State.finishZone s e c).sec = s.sec ∧ (State.finishZone s e c).mic = s.mic ∧
    (State.finishZone s e c).ctrs = s.ctrs ∧ (State.finishZone s e c).grps = s.grps ∧ (State.finishZone s e c).thm = s.thm ∧
    (State.finishZone s e c).age = s.age ∧ (State.finishZone s e c).cnv = s.cnv ∧ (State.finishZone s e c).fwu = s.fwu ∧
    (State.finishZone s e c).glb = s.glb ∧ (State.finishZone s e c).sb = s.sb := by
  have w1 := @State.padZone_still; have w2 := @State.returnUnused_still; have w3 := @State.setZent_still
  have w4 := @State.stepGen_still; have w5 := @State.refreshWaiting_still; have wi := @ite_parts
  simp [State.finishZone, w1, w2, w3, w4, w5, wi]
theorem State.resetCut_still (s : State) (e : Nat) :
    (State.resetCut s e).2.pending = s.pending ∧ (State.resetCut s e).2.free = s.free ∧ (State.resetCut s e).2.host = s.host ∧
    (State.resetCut s e).2.epoch = s.epoch ∧ (State.resetCut s e).2.pat = s.pat ∧ (State.resetCut s e).2.isl = s.isl ∧
    (State.resetCut s e).2.routes = s.routes ∧ (State.resetCut s e).2.dramMargin = s.dramMargin ∧ (State.resetCut s e).2.ports = s.ports ∧
    (State.resetCut s e).2.trickle = s.trickle ∧ (State.resetCut s e).2.cpx = s.cpx ∧ (State.resetCut s e).2.wvf = s.wvf ∧
    (State.resetCut s e).2.bpm = s.bpm ∧ (State.resetCut s e).2.sli = s.sli ∧ (State.resetCut s e).2.sec = s.sec ∧
    (State.resetCut s e).2.mic = s.mic ∧ (State.resetCut s e).2.flt = s.flt ∧ (State.resetCut s e).2.ctrs = s.ctrs ∧
    (State.resetCut s e).2.grps = s.grps ∧ (State.resetCut s e).2.pwr = s.pwr ∧ (State.resetCut s e).2.thm = s.thm ∧
    (State.resetCut s e).2.age = s.age ∧ (State.resetCut s e).2.cnv = s.cnv ∧ (State.resetCut s e).2.fwu = s.fwu ∧
    (State.resetCut s e).2.glb = s.glb ∧ (State.resetCut s e).2.sb = s.sb := by
  have w1 := @State.enterStages_still
  unfold State.resetCut; dsimp only; repeat' split
  all_goals simp [*]
theorem State.clearZone_still (s : State) (e : Nat) :
    (State.clearZone s e).pending = s.pending ∧ (State.clearZone s e).free = s.free ∧ (State.clearZone s e).host = s.host ∧
    (State.clearZone s e).epoch = s.epoch ∧ (State.clearZone s e).pat = s.pat ∧ (State.clearZone s e).isl = s.isl ∧
    (State.clearZone s e).routes = s.routes ∧ (State.clearZone s e).dramMargin = s.dramMargin ∧ (State.clearZone s e).ports = s.ports ∧
    (State.clearZone s e).trickle = s.trickle ∧ (State.clearZone s e).cpx = s.cpx ∧ (State.clearZone s e).wvf = s.wvf ∧
    (State.clearZone s e).bpm = s.bpm ∧ (State.clearZone s e).sli = s.sli ∧ (State.clearZone s e).sec = s.sec ∧
    (State.clearZone s e).mic = s.mic ∧ (State.clearZone s e).flt = s.flt ∧ (State.clearZone s e).ctrs = s.ctrs ∧
    (State.clearZone s e).grps = s.grps ∧ (State.clearZone s e).pwr = s.pwr ∧ (State.clearZone s e).thm = s.thm ∧
    (State.clearZone s e).age = s.age ∧ (State.clearZone s e).cnv = s.cnv ∧ (State.clearZone s e).fwu = s.fwu ∧
    (State.clearZone s e).glb = s.glb ∧ (State.clearZone s e).sb = s.sb := by
  have w1 := @State.relocCancel_still; have w2 := @State.releaseZoneRows_still; have w3 := @State.setZent_still
  have w4 := @State.resetCut_still; have w5 := @State.modZent_still; have w6 := @State.zoneEvent_still; have wf := @foldl_parts
  have wi := @ite_parts
  simp [State.clearZone, w1, w2, w3, w4, w5, w6, wf, wi]
theorem State.resetZone_still (s : State) (e c : Nat) :
    (State.resetZone s e c).pending = s.pending ∧ (State.resetZone s e c).free = s.free ∧ (State.resetZone s e c).host = s.host ∧
    (State.resetZone s e c).epoch = s.epoch ∧ (State.resetZone s e c).pat = s.pat ∧ (State.resetZone s e c).isl = s.isl ∧
    (State.resetZone s e c).routes = s.routes ∧ (State.resetZone s e c).dramMargin = s.dramMargin ∧
    (State.resetZone s e c).ports = s.ports ∧ (State.resetZone s e c).trickle = s.trickle ∧ (State.resetZone s e c).cpx = s.cpx ∧
    (State.resetZone s e c).wvf = s.wvf ∧ (State.resetZone s e c).bpm = s.bpm ∧ (State.resetZone s e c).sli = s.sli ∧
    (State.resetZone s e c).sec = s.sec ∧ (State.resetZone s e c).mic = s.mic ∧ (State.resetZone s e c).flt = s.flt ∧
    (State.resetZone s e c).ctrs = s.ctrs ∧ (State.resetZone s e c).grps = s.grps ∧ (State.resetZone s e c).pwr = s.pwr ∧
    (State.resetZone s e c).thm = s.thm ∧ (State.resetZone s e c).age = s.age ∧ (State.resetZone s e c).cnv = s.cnv ∧
    (State.resetZone s e c).fwu = s.fwu ∧ (State.resetZone s e c).glb = s.glb ∧ (State.resetZone s e c).sb = s.sb := by
  have w1 := @State.clearZone_still; have w2 := @State.stepGen_still
  simp [State.resetZone, w1, w2]
theorem State.offlineZone_still (s : State) (e c : Nat) :
    (State.offlineZone s e c).pending = s.pending ∧ (State.offlineZone s e c).free = s.free ∧ (State.offlineZone s e c).host = s.host ∧
    (State.offlineZone s e c).epoch = s.epoch ∧ (State.offlineZone s e c).pat = s.pat ∧ (State.offlineZone s e c).isl = s.isl ∧
    (State.offlineZone s e c).routes = s.routes ∧ (State.offlineZone s e c).dramMargin = s.dramMargin ∧
    (State.offlineZone s e c).ports = s.ports ∧ (State.offlineZone s e c).trickle = s.trickle ∧ (State.offlineZone s e c).mlf = s.mlf ∧
    (State.offlineZone s e c).cpx = s.cpx ∧ (State.offlineZone s e c).wvf = s.wvf ∧ (State.offlineZone s e c).bpm = s.bpm ∧
    (State.offlineZone s e c).sli = s.sli ∧ (State.offlineZone s e c).sec = s.sec ∧ (State.offlineZone s e c).mic = s.mic ∧
    (State.offlineZone s e c).flt = s.flt ∧ (State.offlineZone s e c).ctrs = s.ctrs ∧ (State.offlineZone s e c).grps = s.grps ∧
    (State.offlineZone s e c).pwr = s.pwr ∧ (State.offlineZone s e c).thm = s.thm ∧ (State.offlineZone s e c).age = s.age ∧
    (State.offlineZone s e c).cnv = s.cnv ∧ (State.offlineZone s e c).fwu = s.fwu ∧ (State.offlineZone s e c).glb = s.glb ∧
    (State.offlineZone s e c).sb = s.sb := by
  have w1 := @State.releaseZoneRows_still; have w2 := @State.modZent_still; have w3 := @State.stepGen_still
  simp [State.offlineZone, w1, w2, w3]
theorem State.zoneAct_still (s : State) (c act slice e : Nat) :
    (State.zoneAct s c act slice e).pending = s.pending ∧ (State.zoneAct s c act slice e).free = s.free ∧
    (State.zoneAct s c act slice e).host = s.host ∧ (State.zoneAct s c act slice e).epoch = s.epoch ∧
    (State.zoneAct s c act slice e).pat = s.pat ∧ (State.zoneAct s c act slice e).routes = s.routes ∧
    (State.zoneAct s c act slice e).dramMargin = s.dramMargin ∧ (State.zoneAct s c act slice e).ports = s.ports ∧
    (State.zoneAct s c act slice e).trickle = s.trickle ∧ (State.zoneAct s c act slice e).cpx = s.cpx ∧
    (State.zoneAct s c act slice e).wvf = s.wvf ∧ (State.zoneAct s c act slice e).bpm = s.bpm ∧
    (State.zoneAct s c act slice e).sec = s.sec ∧ (State.zoneAct s c act slice e).mic = s.mic ∧
    (State.zoneAct s c act slice e).ctrs = s.ctrs ∧ (State.zoneAct s c act slice e).grps = s.grps ∧
    (State.zoneAct s c act slice e).thm = s.thm ∧ (State.zoneAct s c act slice e).age = s.age ∧
    (State.zoneAct s c act slice e).cnv = s.cnv ∧ (State.zoneAct s c act slice e).fwu = s.fwu ∧
    (State.zoneAct s c act slice e).glb = s.glb ∧ (State.zoneAct s c act slice e).sb = s.sb := by
  have w1 := @State.modZent_still; have w2 := @State.finishZone_still; have w3 := @State.openZone_still
  have w4 := @State.resetZone_still; have w5 := @State.offlineZone_still; have wi := @ite_parts
  simp [State.zoneAct, w1, w2, w3, w4, w5, wi]
theorem State.closeRu_still (s : State) (n pid : Nat) :
    (State.closeRu s n pid).pending = s.pending ∧ (State.closeRu s n pid).free = s.free ∧ (State.closeRu s n pid).host = s.host ∧
    (State.closeRu s n pid).epoch = s.epoch ∧ (State.closeRu s n pid).pat = s.pat ∧ (State.closeRu s n pid).isl = s.isl ∧
    (State.closeRu s n pid).routes = s.routes ∧ (State.closeRu s n pid).dramMargin = s.dramMargin ∧
    (State.closeRu s n pid).ports = s.ports ∧ (State.closeRu s n pid).trickle = s.trickle ∧ (State.closeRu s n pid).cmd = s.cmd ∧
    (State.closeRu s n pid).mlf = s.mlf ∧ (State.closeRu s n pid).cpx = s.cpx ∧ (State.closeRu s n pid).wvf = s.wvf ∧
    (State.closeRu s n pid).bpm = s.bpm ∧ (State.closeRu s n pid).sli = s.sli ∧ (State.closeRu s n pid).sec = s.sec ∧
    (State.closeRu s n pid).mic = s.mic ∧ (State.closeRu s n pid).flt = s.flt ∧ (State.closeRu s n pid).ctrs = s.ctrs ∧
    (State.closeRu s n pid).grps = s.grps ∧ (State.closeRu s n pid).pwr = s.pwr ∧ (State.closeRu s n pid).thm = s.thm ∧
    (State.closeRu s n pid).age = s.age ∧ (State.closeRu s n pid).cnv = s.cnv ∧ (State.closeRu s n pid).fwu = s.fwu ∧
    (State.closeRu s n pid).glb = s.glb ∧ (State.closeRu s n pid).sb = s.sb := by
  have w1 := @State.fdpEvent_still
  unfold State.closeRu; dsimp only; repeat' split
  all_goals simp [*]
theorem State.putAlloc_still (s : State) (sl h : Nat) (f : Tbl Byte → Tbl Byte) :
    (State.putAlloc s sl h f).pending = s.pending ∧ (State.putAlloc s sl h f).free = s.free ∧ (State.putAlloc s sl h f).host = s.host ∧
    (State.putAlloc s sl h f).epoch = s.epoch ∧ (State.putAlloc s sl h f).pat = s.pat ∧ (State.putAlloc s sl h f).isl = s.isl ∧
    (State.putAlloc s sl h f).routes = s.routes ∧ (State.putAlloc s sl h f).dramMargin = s.dramMargin ∧
    (State.putAlloc s sl h f).ports = s.ports ∧ (State.putAlloc s sl h f).trickle = s.trickle ∧ (State.putAlloc s sl h f).cmd = s.cmd ∧
    (State.putAlloc s sl h f).zon = s.zon ∧ (State.putAlloc s sl h f).med = s.med ∧ (State.putAlloc s sl h f).mlf = s.mlf ∧
    (State.putAlloc s sl h f).wvf = s.wvf ∧ (State.putAlloc s sl h f).bpm = s.bpm ∧ (State.putAlloc s sl h f).sli = s.sli ∧
    (State.putAlloc s sl h f).sec = s.sec ∧ (State.putAlloc s sl h f).mic = s.mic ∧ (State.putAlloc s sl h f).flt = s.flt ∧
    (State.putAlloc s sl h f).ctrs = s.ctrs ∧ (State.putAlloc s sl h f).grps = s.grps ∧ (State.putAlloc s sl h f).pwr = s.pwr ∧
    (State.putAlloc s sl h f).thm = s.thm ∧ (State.putAlloc s sl h f).age = s.age ∧ (State.putAlloc s sl h f).cnv = s.cnv ∧
    (State.putAlloc s sl h f).fwu = s.fwu ∧ (State.putAlloc s sl h f).glb = s.glb ∧ (State.putAlloc s sl h f).sb = s.sb := by
  have w1 := @State.setAlloc_still
  unfold State.putAlloc; repeat' split
  all_goals simp [*]
theorem State.commitJob_still (s : State) (c : Nat) :
    (State.commitJob s c).pending = s.pending ∧ (State.commitJob s c).free = s.free ∧ (State.commitJob s c).host = s.host ∧
    (State.commitJob s c).epoch = s.epoch ∧ (State.commitJob s c).pat = s.pat ∧ (State.commitJob s c).routes = s.routes ∧
    (State.commitJob s c).dramMargin = s.dramMargin ∧ (State.commitJob s c).ports = s.ports ∧ (State.commitJob s c).trickle = s.trickle ∧
    (State.commitJob s c).wvf = s.wvf ∧ (State.commitJob s c).bpm = s.bpm ∧ (State.commitJob s c).sec = s.sec ∧
    (State.commitJob s c).mic = s.mic ∧ (State.commitJob s c).ctrs = s.ctrs ∧ (State.commitJob s c).grps = s.grps ∧
    (State.commitJob s c).thm = s.thm ∧ (State.commitJob s c).age = s.age ∧ (State.commitJob s c).cnv = s.cnv ∧
    (State.commitJob s c).fwu = s.fwu ∧ (State.commitJob s c).glb = s.glb ∧ (State.commitJob s c).sb = s.sb := by
  have w1 := @State.commitWrite_still; have w2 := @State.putAlloc_still
  unfold State.commitJob; dsimp only; repeat' split
  all_goals simp [*]
theorem State.countJob_still (s : State) (c : Nat) :
    (State.countJob s c).pending = s.pending ∧ (State.countJob s c).free = s.free ∧ (State.countJob s c).host = s.host ∧
    (State.countJob s c).epoch = s.epoch ∧ (State.countJob s c).pat = s.pat ∧ (State.countJob s c).isl = s.isl ∧
    (State.countJob s c).routes = s.routes ∧ (State.countJob s c).dramMargin = s.dramMargin ∧ (State.countJob s c).ports = s.ports ∧
    (State.countJob s c).trickle = s.trickle ∧ (State.countJob s c).cmd = s.cmd ∧ (State.countJob s c).zon = s.zon ∧
    (State.countJob s c).med = s.med ∧ (State.countJob s c).mlf = s.mlf ∧ (State.countJob s c).wvf = s.wvf ∧
    (State.countJob s c).bpm = s.bpm ∧ (State.countJob s c).sli = s.sli ∧ (State.countJob s c).sec = s.sec ∧
    (State.countJob s c).mic = s.mic ∧ (State.countJob s c).flt = s.flt ∧ (State.countJob s c).ctrs = s.ctrs ∧
    (State.countJob s c).grps = s.grps ∧ (State.countJob s c).pwr = s.pwr ∧ (State.countJob s c).thm = s.thm ∧
    (State.countJob s c).age = s.age ∧ (State.countJob s c).cnv = s.cnv ∧ (State.countJob s c).fwu = s.fwu ∧
    (State.countJob s c).glb = s.glb ∧ (State.countJob s c).sb = s.sb := by
  have w1 := @State.cpxCnt_still; have wi := @ite_parts
  simp [State.countJob, w1, wi]
theorem State.putResult_still (s : State) (c : Nat) :
    (State.putResult s c).pending = s.pending ∧ (State.putResult s c).free = s.free ∧ (State.putResult s c).epoch = s.epoch ∧
    (State.putResult s c).pat = s.pat ∧ (State.putResult s c).isl = s.isl ∧ (State.putResult s c).routes = s.routes ∧
    (State.putResult s c).dramMargin = s.dramMargin ∧ (State.putResult s c).trickle = s.trickle ∧ (State.putResult s c).cmd = s.cmd ∧
    (State.putResult s c).zon = s.zon ∧ (State.putResult s c).med = s.med ∧ (State.putResult s c).mlf = s.mlf ∧
    (State.putResult s c).wvf = s.wvf ∧ (State.putResult s c).bpm = s.bpm ∧ (State.putResult s c).sli = s.sli ∧
    (State.putResult s c).sec = s.sec ∧ (State.putResult s c).mic = s.mic ∧ (State.putResult s c).flt = s.flt ∧
    (State.putResult s c).ctrs = s.ctrs ∧ (State.putResult s c).grps = s.grps ∧ (State.putResult s c).pwr = s.pwr ∧
    (State.putResult s c).thm = s.thm ∧ (State.putResult s c).age = s.age ∧ (State.putResult s c).cnv = s.cnv ∧
    (State.putResult s c).fwu = s.fwu ∧ (State.putResult s c).glb = s.glb ∧ (State.putResult s c).sb = s.sb := by
  have w1 := @State.putAlloc_still; have w2 := @State.postResult_still; have wi := @ite_parts
  simp [State.putResult, w1, w2, wi]
theorem State.endJob_still (s : State) (c : Nat) :
    (State.endJob s c).pending = s.pending ∧ (State.endJob s c).epoch = s.epoch ∧ (State.endJob s c).pat = s.pat ∧
    (State.endJob s c).isl = s.isl ∧ (State.endJob s c).routes = s.routes ∧ (State.endJob s c).dramMargin = s.dramMargin ∧
    (State.endJob s c).trickle = s.trickle ∧ (State.endJob s c).cmd = s.cmd ∧ (State.endJob s c).zon = s.zon ∧
    (State.endJob s c).med = s.med ∧ (State.endJob s c).mlf = s.mlf ∧ (State.endJob s c).wvf = s.wvf ∧ (State.endJob s c).bpm = s.bpm ∧
    (State.endJob s c).sli = s.sli ∧ (State.endJob s c).sec = s.sec ∧ (State.endJob s c).mic = s.mic ∧ (State.endJob s c).flt = s.flt ∧
    (State.endJob s c).ctrs = s.ctrs ∧ (State.endJob s c).grps = s.grps ∧ (State.endJob s c).pwr = s.pwr ∧ (State.endJob s c).thm = s.thm ∧
    (State.endJob s c).age = s.age ∧ (State.endJob s c).cnv = s.cnv ∧ (State.endJob s c).fwu = s.fwu ∧ (State.endJob s c).glb = s.glb ∧
    (State.endJob s c).sb = s.sb := by
  have w1 := @State.countJob_still; have w2 := @State.putResult_still; have w3 := @State.spoilShared_still; have wi := @ite_parts
  simp [State.endJob, w1, w2, w3, wi]
theorem State.appendLba_still (s : State) (c lo : Nat) :
    (State.appendLba s c lo).pending = s.pending ∧ (State.appendLba s c lo).free = s.free ∧ (State.appendLba s c lo).host = s.host ∧
    (State.appendLba s c lo).epoch = s.epoch ∧ (State.appendLba s c lo).pat = s.pat ∧ (State.appendLba s c lo).isl = s.isl ∧
    (State.appendLba s c lo).routes = s.routes ∧ (State.appendLba s c lo).dramMargin = s.dramMargin ∧
    (State.appendLba s c lo).ports = s.ports ∧ (State.appendLba s c lo).trickle = s.trickle ∧ (State.appendLba s c lo).zon = s.zon ∧
    (State.appendLba s c lo).med = s.med ∧ (State.appendLba s c lo).mlf = s.mlf ∧ (State.appendLba s c lo).cpx = s.cpx ∧
    (State.appendLba s c lo).wvf = s.wvf ∧ (State.appendLba s c lo).bpm = s.bpm ∧ (State.appendLba s c lo).sli = s.sli ∧
    (State.appendLba s c lo).sec = s.sec ∧ (State.appendLba s c lo).mic = s.mic ∧ (State.appendLba s c lo).flt = s.flt ∧
    (State.appendLba s c lo).ctrs = s.ctrs ∧ (State.appendLba s c lo).grps = s.grps ∧ (State.appendLba s c lo).pwr = s.pwr ∧
    (State.appendLba s c lo).thm = s.thm ∧ (State.appendLba s c lo).age = s.age ∧ (State.appendLba s c lo).cnv = s.cnv ∧
    (State.appendLba s c lo).fwu = s.fwu ∧ (State.appendLba s c lo).glb = s.glb ∧ (State.appendLba s c lo).sb = s.sb := by
  have w1 := @State.modCtx_still
  simp [State.appendLba, w1]
theorem State.flushLater_still (s : State) (l : List Nat) :
    (State.flushLater s l).pending = s.pending ∧ (State.flushLater s l).host = s.host ∧ (State.flushLater s l).epoch = s.epoch ∧
    (State.flushLater s l).pat = s.pat ∧ (State.flushLater s l).isl = s.isl ∧ (State.flushLater s l).routes = s.routes ∧
    (State.flushLater s l).dramMargin = s.dramMargin ∧ (State.flushLater s l).ports = s.ports ∧
    (State.flushLater s l).trickle = s.trickle ∧ (State.flushLater s l).cmd = s.cmd ∧ (State.flushLater s l).mlf = s.mlf ∧
    (State.flushLater s l).cpx = s.cpx ∧ (State.flushLater s l).wvf = s.wvf ∧ (State.flushLater s l).bpm = s.bpm ∧
    (State.flushLater s l).sli = s.sli ∧ (State.flushLater s l).sec = s.sec ∧ (State.flushLater s l).mic = s.mic ∧
    (State.flushLater s l).flt = s.flt ∧ (State.flushLater s l).ctrs = s.ctrs ∧ (State.flushLater s l).grps = s.grps ∧
    (State.flushLater s l).pwr = s.pwr ∧ (State.flushLater s l).thm = s.thm ∧ (State.flushLater s l).age = s.age ∧
    (State.flushLater s l).cnv = s.cnv ∧ (State.flushLater s l).fwu = s.fwu ∧ (State.flushLater s l).glb = s.glb ∧
    (State.flushLater s l).sb = s.sb := by
  have w1 := @drawBool_still; have w2 := @State.markDurable_still; have wf := @foldl_parts
  have wi := @ite_parts
  simp [State.flushLater, w1, w2, wf, wi]
theorem State.commitEffect_still (s : State) (c : Nat) :
    (State.commitEffect s c).pending = s.pending ∧ (State.commitEffect s c).host = s.host ∧ (State.commitEffect s c).epoch = s.epoch ∧
    (State.commitEffect s c).pat = s.pat ∧ (State.commitEffect s c).routes = s.routes ∧
    (State.commitEffect s c).dramMargin = s.dramMargin ∧ (State.commitEffect s c).ports = s.ports ∧
    (State.commitEffect s c).trickle = s.trickle ∧ (State.commitEffect s c).wvf = s.wvf ∧ (State.commitEffect s c).bpm = s.bpm ∧
    (State.commitEffect s c).sec = s.sec ∧ (State.commitEffect s c).mic = s.mic ∧ (State.commitEffect s c).ctrs = s.ctrs ∧
    (State.commitEffect s c).grps = s.grps ∧ (State.commitEffect s c).thm = s.thm ∧ (State.commitEffect s c).age = s.age ∧
    (State.commitEffect s c).cnv = s.cnv ∧ (State.commitEffect s c).fwu = s.fwu ∧ (State.commitEffect s c).glb = s.glb ∧
    (State.commitEffect s c).sb = s.sb := by
  have w1 := @State.commitWrite_still; have w2 := @State.appendLba_still; have w3 := @State.relCnt_still
  have w4 := @State.cometConsume_still; have w5 := @State.countRead_still; have w6 := @State.cancelRange_still
  have w7 := @State.commitLbas_still; have w8 := @State.recordFua_still; have w9 := @State.notePlacement_still
  have w10 := @State.recordNs_still; have w11 := @State.flushLater_still; have w12 := @State.cometCancel_still
  have w13 := @State.commitDealloc_still; have w14 := @State.zoneAct_still; have w15 := @State.closeRu_still
  have w16 := @State.commitJob_still; have wf := @foldl_parts; have wp := @foldl_snd_parts; have wi := @ite_parts
  unfold State.commitEffect
  all_goals simp [*]
theorem State.settleProj_still (s : State) (l : List Nat) :
    (State.settleProj s l).pending = s.pending ∧ (State.settleProj s l).free = s.free ∧ (State.settleProj s l).host = s.host ∧
    (State.settleProj s l).epoch = s.epoch ∧ (State.settleProj s l).pat = s.pat ∧ (State.settleProj s l).isl = s.isl ∧
    (State.settleProj s l).routes = s.routes ∧ (State.settleProj s l).dramMargin = s.dramMargin ∧ (State.settleProj s l).ports = s.ports ∧
    (State.settleProj s l).trickle = s.trickle ∧ (State.settleProj s l).cmd = s.cmd ∧ (State.settleProj s l).med = s.med ∧
    (State.settleProj s l).mlf = s.mlf ∧ (State.settleProj s l).cpx = s.cpx ∧ (State.settleProj s l).wvf = s.wvf ∧
    (State.settleProj s l).bpm = s.bpm ∧ (State.settleProj s l).sli = s.sli ∧ (State.settleProj s l).sec = s.sec ∧
    (State.settleProj s l).mic = s.mic ∧ (State.settleProj s l).flt = s.flt ∧ (State.settleProj s l).ctrs = s.ctrs ∧
    (State.settleProj s l).grps = s.grps ∧ (State.settleProj s l).pwr = s.pwr ∧ (State.settleProj s l).thm = s.thm ∧
    (State.settleProj s l).age = s.age ∧ (State.settleProj s l).cnv = s.cnv ∧ (State.settleProj s l).fwu = s.fwu ∧
    (State.settleProj s l).glb = s.glb ∧ (State.settleProj s l).sb = s.sb := by
  have w1 := @State.reproject_still; have wf := @foldl_parts
  simp [State.settleProj, w1, wf]
theorem State.freeKilled_still (s : State) (c : Nat) :
    (State.freeKilled s c).pending = s.pending ∧ (State.freeKilled s c).free = s.free ∧ (State.freeKilled s c).host = s.host ∧
    (State.freeKilled s c).epoch = s.epoch ∧ (State.freeKilled s c).pat = s.pat ∧ (State.freeKilled s c).isl = s.isl ∧
    (State.freeKilled s c).routes = s.routes ∧ (State.freeKilled s c).dramMargin = s.dramMargin ∧ (State.freeKilled s c).ports = s.ports ∧
    (State.freeKilled s c).trickle = s.trickle ∧ (State.freeKilled s c).zon = s.zon ∧ (State.freeKilled s c).med = s.med ∧
    (State.freeKilled s c).mlf = s.mlf ∧ (State.freeKilled s c).wvf = s.wvf ∧ (State.freeKilled s c).bpm = s.bpm ∧
    (State.freeKilled s c).sec = s.sec ∧ (State.freeKilled s c).flt = s.flt ∧ (State.freeKilled s c).ctrs = s.ctrs ∧
    (State.freeKilled s c).grps = s.grps ∧ (State.freeKilled s c).pwr = s.pwr ∧ (State.freeKilled s c).thm = s.thm ∧
    (State.freeKilled s c).age = s.age ∧ (State.freeKilled s c).cnv = s.cnv ∧ (State.freeKilled s c).fwu = s.fwu ∧
    (State.freeKilled s c).glb = s.glb ∧ (State.freeKilled s c).sb = s.sb := by
  have w1 := @State.freeCtx_still; have w2 := @State.modSli_still; have wi := @ite_parts
  simp [State.freeKilled, w1, w2, wi]
theorem State.commitNow_still (s : State) (c : Nat) :
    (State.commitNow s c).pending = s.pending ∧ (State.commitNow s c).epoch = s.epoch ∧ (State.commitNow s c).pat = s.pat ∧
    (State.commitNow s c).dramMargin = s.dramMargin ∧ (State.commitNow s c).trickle = s.trickle ∧ (State.commitNow s c).sec = s.sec ∧
    (State.commitNow s c).ctrs = s.ctrs ∧ (State.commitNow s c).grps = s.grps ∧ (State.commitNow s c).thm = s.thm ∧
    (State.commitNow s c).age = s.age ∧ (State.commitNow s c).cnv = s.cnv ∧ (State.commitNow s c).fwu = s.fwu ∧
    (State.commitNow s c).glb = s.glb := by
  have w1 := @State.commitEffect_still; have w2 := @State.endJob_still; have w3 := @State.modCtx_still
  have w4 := @State.fix_still; have w5 := @State.settleProj_still; have w6 := @State.freeKilled_still
  have w7 := @State.shutCheckAll_still; have wi := @ite_parts
  simp [State.commitNow, w1, w2, w3, w4, w5, w6, w7, wi]

end Sys2Proof.Machine
end

