-- ==== Sys2Proof/Laws/FramePower.lean ====
section
/-! SUPPORT. What the operations of power, memory integrity and temperature leave unchanged: one lemma per operation, which names every part of the state that it keeps. -/

namespace Sys2Proof.Machine

theorem State.setSensor_still (s : State) (k : Nat) (v : Sensor) :
    (State.setSensor s k v).pending = s.pending ∧ (State.setSensor s k v).free = s.free ∧ (State.setSensor s k v).host = s.host ∧
    (State.setSensor s k v).epoch = s.epoch ∧ (State.setSensor s k v).pat = s.pat ∧ (State.setSensor s k v).isl = s.isl ∧
    (State.setSensor s k v).routes = s.routes ∧ (State.setSensor s k v).dramMargin = s.dramMargin ∧
    (State.setSensor s k v).ports = s.ports ∧ (State.setSensor s k v).trickle = s.trickle ∧ (State.setSensor s k v).cmd = s.cmd ∧
    (State.setSensor s k v).zon = s.zon ∧ (State.setSensor s k v).med = s.med ∧ (State.setSensor s k v).mlf = s.mlf ∧
    (State.setSensor s k v).cpx = s.cpx ∧ (State.setSensor s k v).wvf = s.wvf ∧ (State.setSensor s k v).bpm = s.bpm ∧
    (State.setSensor s k v).sli = s.sli ∧ (State.setSensor s k v).sec = s.sec ∧ (State.setSensor s k v).mic = s.mic ∧
    (State.setSensor s k v).flt = s.flt ∧ (State.setSensor s k v).ctrs = s.ctrs ∧ (State.setSensor s k v).grps = s.grps ∧
    (State.setSensor s k v).pwr = s.pwr ∧ (State.setSensor s k v).age = s.age ∧ (State.setSensor s k v).cnv = s.cnv ∧
    (State.setSensor s k v).fwu = s.fwu ∧ (State.setSensor s k v).glb = s.glb ∧ (State.setSensor s k v).sb = s.sb := by
  simp [State.setSensor]
theorem State.setRegion_still (s : State) (r : Nat) (v : Region) :
    (State.setRegion s r v).pending = s.pending ∧ (State.setRegion s r v).free = s.free ∧ (State.setRegion s r v).host = s.host ∧
    (State.setRegion s r v).epoch = s.epoch ∧ (State.setRegion s r v).pat = s.pat ∧ (State.setRegion s r v).isl = s.isl ∧
    (State.setRegion s r v).routes = s.routes ∧ (State.setRegion s r v).dramMargin = s.dramMargin ∧
    (State.setRegion s r v).ports = s.ports ∧ (State.setRegion s r v).trickle = s.trickle ∧ (State.setRegion s r v).cmd = s.cmd ∧
    (State.setRegion s r v).zon = s.zon ∧ (State.setRegion s r v).med = s.med ∧ (State.setRegion s r v).mlf = s.mlf ∧
    (State.setRegion s r v).cpx = s.cpx ∧ (State.setRegion s r v).wvf = s.wvf ∧ (State.setRegion s r v).bpm = s.bpm ∧
    (State.setRegion s r v).sli = s.sli ∧ (State.setRegion s r v).sec = s.sec ∧ (State.setRegion s r v).mic = s.mic ∧
    (State.setRegion s r v).flt = s.flt ∧ (State.setRegion s r v).ctrs = s.ctrs ∧ (State.setRegion s r v).grps = s.grps ∧
    (State.setRegion s r v).pwr = s.pwr ∧ (State.setRegion s r v).age = s.age ∧ (State.setRegion s r v).cnv = s.cnv ∧
    (State.setRegion s r v).fwu = s.fwu ∧ (State.setRegion s r v).glb = s.glb ∧ (State.setRegion s r v).sb = s.sb := by
  simp [State.setRegion]
theorem State.thermalBudgets_still (s : State) :
    (State.thermalBudgets s).pending = s.pending ∧ (State.thermalBudgets s).free = s.free ∧ (State.thermalBudgets s).host = s.host ∧
    (State.thermalBudgets s).epoch = s.epoch ∧ (State.thermalBudgets s).pat = s.pat ∧ (State.thermalBudgets s).routes = s.routes ∧
    (State.thermalBudgets s).dramMargin = s.dramMargin ∧ (State.thermalBudgets s).ports = s.ports ∧
    (State.thermalBudgets s).trickle = s.trickle ∧ (State.thermalBudgets s).cmd = s.cmd ∧ (State.thermalBudgets s).zon = s.zon ∧
    (State.thermalBudgets s).med = s.med ∧ (State.thermalBudgets s).mlf = s.mlf ∧ (State.thermalBudgets s).cpx = s.cpx ∧
    (State.thermalBudgets s).wvf = s.wvf ∧ (State.thermalBudgets s).bpm = s.bpm ∧ (State.thermalBudgets s).sli = s.sli ∧
    (State.thermalBudgets s).sec = s.sec ∧ (State.thermalBudgets s).mic = s.mic ∧ (State.thermalBudgets s).flt = s.flt ∧
    (State.thermalBudgets s).ctrs = s.ctrs ∧ (State.thermalBudgets s).grps = s.grps ∧ (State.thermalBudgets s).pwr = s.pwr ∧
    (State.thermalBudgets s).age = s.age ∧ (State.thermalBudgets s).cnv = s.cnv ∧ (State.thermalBudgets s).fwu = s.fwu ∧
    (State.thermalBudgets s).glb = s.glb ∧ (State.thermalBudgets s).sb = s.sb := by
  have w1 := @State.setRegion_still; have w2 := @State.modIsl_still; have wf := @foldl_parts
  simp [State.thermalBudgets, w1, w2, wf]
theorem State.sensorFails_still (s : State) (k cause : Nat) :
    (State.sensorFails s k cause).pending = s.pending ∧ (State.sensorFails s k cause).free = s.free ∧
    (State.sensorFails s k cause).host = s.host ∧ (State.sensorFails s k cause).epoch = s.epoch ∧
    (State.sensorFails s k cause).pat = s.pat ∧ (State.sensorFails s k cause).isl = s.isl ∧
    (State.sensorFails s k cause).routes = s.routes ∧ (State.sensorFails s k cause).dramMargin = s.dramMargin ∧
    (State.sensorFails s k cause).ports = s.ports ∧ (State.sensorFails s k cause).trickle = s.trickle ∧
    (State.sensorFails s k cause).cmd = s.cmd ∧ (State.sensorFails s k cause).zon = s.zon ∧ (State.sensorFails s k cause).mlf = s.mlf ∧
    (State.sensorFails s k cause).cpx = s.cpx ∧ (State.sensorFails s k cause).wvf = s.wvf ∧ (State.sensorFails s k cause).bpm = s.bpm ∧
    (State.sensorFails s k cause).sec = s.sec ∧ (State.sensorFails s k cause).mic = s.mic ∧ (State.sensorFails s k cause).ctrs = s.ctrs ∧
    (State.sensorFails s k cause).grps = s.grps ∧ (State.sensorFails s k cause).pwr = s.pwr ∧ (State.sensorFails s k cause).age = s.age ∧
    (State.sensorFails s k cause).cnv = s.cnv ∧ (State.sensorFails s k cause).fwu = s.fwu ∧ (State.sensorFails s k cause).glb = s.glb ∧
    (State.sensorFails s k cause).sb = s.sb := by
  have w1 := @State.setSensor_still; have w3 := @State.queueFault_still
  simp [State.sensorFails, w1, w3]
theorem State.thermFault_still (s : State) (level k : Nat) (t : Int) :
    (State.thermFault s level k t).pending = s.pending ∧ (State.thermFault s level k t).free = s.free ∧
    (State.thermFault s level k t).host = s.host ∧ (State.thermFault s level k t).epoch = s.epoch ∧
    (State.thermFault s level k t).pat = s.pat ∧ (State.thermFault s level k t).isl = s.isl ∧
    (State.thermFault s level k t).routes = s.routes ∧ (State.thermFault s level k t).dramMargin = s.dramMargin ∧
    (State.thermFault s level k t).ports = s.ports ∧ (State.thermFault s level k t).trickle = s.trickle ∧
    (State.thermFault s level k t).cmd = s.cmd ∧ (State.thermFault s level k t).zon = s.zon ∧ (State.thermFault s level k t).med = s.med ∧
    (State.thermFault s level k t).mlf = s.mlf ∧ (State.thermFault s level k t).cpx = s.cpx ∧ (State.thermFault s level k t).wvf = s.wvf ∧
    (State.thermFault s level k t).bpm = s.bpm ∧ (State.thermFault s level k t).sli = s.sli ∧ (State.thermFault s level k t).sec = s.sec ∧
    (State.thermFault s level k t).mic = s.mic ∧ (State.thermFault s level k t).ctrs = s.ctrs ∧
    (State.thermFault s level k t).grps = s.grps ∧ (State.thermFault s level k t).pwr = s.pwr ∧
    (State.thermFault s level k t).thm = s.thm ∧ (State.thermFault s level k t).age = s.age ∧ (State.thermFault s level k t).cnv = s.cnv ∧
    (State.thermFault s level k t).fwu = s.fwu ∧ (State.thermFault s level k t).glb = s.glb ∧ (State.thermFault s level k t).sb = s.sb := by
  have w1 := @State.queueFault_still
  simp [State.thermFault, w1]
theorem State.warnCheck_still (s : State) :
    (State.warnCheck s).pending = s.pending ∧ (State.warnCheck s).free = s.free ∧ (State.warnCheck s).host = s.host ∧
    (State.warnCheck s).epoch = s.epoch ∧ (State.warnCheck s).pat = s.pat ∧ (State.warnCheck s).isl = s.isl ∧
    (State.warnCheck s).routes = s.routes ∧ (State.warnCheck s).dramMargin = s.dramMargin ∧ (State.warnCheck s).ports = s.ports ∧
    (State.warnCheck s).trickle = s.trickle ∧ (State.warnCheck s).cmd = s.cmd ∧ (State.warnCheck s).zon = s.zon ∧
    (State.warnCheck s).med = s.med ∧ (State.warnCheck s).mlf = s.mlf ∧ (State.warnCheck s).cpx = s.cpx ∧ (State.warnCheck s).wvf = s.wvf ∧
    (State.warnCheck s).bpm = s.bpm ∧ (State.warnCheck s).sli = s.sli ∧ (State.warnCheck s).sec = s.sec ∧ (State.warnCheck s).mic = s.mic ∧
    (State.warnCheck s).ctrs = s.ctrs ∧ (State.warnCheck s).grps = s.grps ∧ (State.warnCheck s).pwr = s.pwr ∧
    (State.warnCheck s).age = s.age ∧ (State.warnCheck s).cnv = s.cnv ∧ (State.warnCheck s).fwu = s.fwu ∧ (State.warnCheck s).glb = s.glb ∧
    (State.warnCheck s).sb = s.sb := by
  have wi := @ite_parts
  have w1 := @State.thermFault_still
  unfold State.warnCheck; repeat' split
  all_goals simp [*]
theorem State.throttleCheck_still (s : State) (r : Nat) :
    (State.throttleCheck s r).pending = s.pending ∧ (State.throttleCheck s r).free = s.free ∧ (State.throttleCheck s r).host = s.host ∧
    (State.throttleCheck s r).epoch = s.epoch ∧ (State.throttleCheck s r).pat = s.pat ∧ (State.throttleCheck s r).isl = s.isl ∧
    (State.throttleCheck s r).routes = s.routes ∧ (State.throttleCheck s r).dramMargin = s.dramMargin ∧
    (State.throttleCheck s r).ports = s.ports ∧ (State.throttleCheck s r).trickle = s.trickle ∧ (State.throttleCheck s r).cmd = s.cmd ∧
    (State.throttleCheck s r).zon = s.zon ∧ (State.throttleCheck s r).med = s.med ∧ (State.throttleCheck s r).mlf = s.mlf ∧
    (State.throttleCheck s r).cpx = s.cpx ∧ (State.throttleCheck s r).wvf = s.wvf ∧ (State.throttleCheck s r).bpm = s.bpm ∧
    (State.throttleCheck s r).sli = s.sli ∧ (State.throttleCheck s r).sec = s.sec ∧ (State.throttleCheck s r).mic = s.mic ∧
    (State.throttleCheck s r).ctrs = s.ctrs ∧ (State.throttleCheck s r).grps = s.grps ∧ (State.throttleCheck s r).pwr = s.pwr ∧
    (State.throttleCheck s r).age = s.age ∧ (State.throttleCheck s r).cnv = s.cnv ∧ (State.throttleCheck s r).fwu = s.fwu ∧
    (State.throttleCheck s r).glb = s.glb ∧ (State.throttleCheck s r).sb = s.sb := by
  have w1 := @State.setRegion_still; have w2 := @State.thermFault_still; have wi := @ite_parts
  simp [State.throttleCheck, w1, w2, wi]
theorem State.coldCheck_still (s : State) :
    (State.coldCheck s).pending = s.pending ∧ (State.coldCheck s).free = s.free ∧ (State.coldCheck s).host = s.host ∧
    (State.coldCheck s).epoch = s.epoch ∧ (State.coldCheck s).pat = s.pat ∧ (State.coldCheck s).routes = s.routes ∧
    (State.coldCheck s).dramMargin = s.dramMargin ∧ (State.coldCheck s).ports = s.ports ∧ (State.coldCheck s).trickle = s.trickle ∧
    (State.coldCheck s).cmd = s.cmd ∧ (State.coldCheck s).zon = s.zon ∧ (State.coldCheck s).mlf = s.mlf ∧ (State.coldCheck s).cpx = s.cpx ∧
    (State.coldCheck s).wvf = s.wvf ∧ (State.coldCheck s).bpm = s.bpm ∧ (State.coldCheck s).sec = s.sec ∧ (State.coldCheck s).mic = s.mic ∧
    (State.coldCheck s).ctrs = s.ctrs ∧ (State.coldCheck s).grps = s.grps ∧ (State.coldCheck s).pwr = s.pwr ∧
    (State.coldCheck s).age = s.age ∧ (State.coldCheck s).cnv = s.cnv ∧ (State.coldCheck s).fwu = s.fwu ∧ (State.coldCheck s).glb = s.glb ∧
    (State.coldCheck s).sb = s.sb := by
  have wi := @ite_parts
  have w1 := @State.kickAll_still; have w2 := @State.thermFault_still
  unfold State.coldCheck; repeat' split
  all_goals simp [*]
theorem State.thermShutdown_still (s : State) (k : Nat) :
    (State.thermShutdown s k).pending = s.pending ∧ (State.thermShutdown s k).epoch = s.epoch ∧
    (State.thermShutdown s k).dramMargin = s.dramMargin ∧ (State.thermShutdown s k).sec = s.sec ∧ (State.thermShutdown s k).ctrs = s.ctrs ∧
    (State.thermShutdown s k).grps = s.grps ∧ (State.thermShutdown s k).age = s.age ∧ (State.thermShutdown s k).cnv = s.cnv ∧
    (State.thermShutdown s k).glb = s.glb := by
  have w1 := @State.faultNow_still; have wi := @ite_parts
  simp [State.thermShutdown, w1, wi]
theorem State.shutdownCheck_still (s : State) (k : Nat) :
    (State.shutdownCheck s k).pending = s.pending ∧ (State.shutdownCheck s k).epoch = s.epoch ∧
    (State.shutdownCheck s k).dramMargin = s.dramMargin ∧ (State.shutdownCheck s k).sec = s.sec ∧ (State.shutdownCheck s k).ctrs = s.ctrs ∧
    (State.shutdownCheck s k).grps = s.grps ∧ (State.shutdownCheck s k).age = s.age ∧ (State.shutdownCheck s k).cnv = s.cnv ∧
    (State.shutdownCheck s k).glb = s.glb := by
  have w1 := @State.setSensor_still; have w2 := @State.thermShutdown_still; have wi := @ite_parts
  simp [State.shutdownCheck, w1, w2, wi]
theorem State.thresholdCheck_still (s : State) :
    (State.thresholdCheck s).pending = s.pending ∧ (State.thresholdCheck s).free = s.free ∧ (State.thresholdCheck s).host = s.host ∧
    (State.thresholdCheck s).epoch = s.epoch ∧ (State.thresholdCheck s).pat = s.pat ∧ (State.thresholdCheck s).isl = s.isl ∧
    (State.thresholdCheck s).routes = s.routes ∧ (State.thresholdCheck s).dramMargin = s.dramMargin ∧
    (State.thresholdCheck s).ports = s.ports ∧ (State.thresholdCheck s).trickle = s.trickle ∧ (State.thresholdCheck s).zon = s.zon ∧
    (State.thresholdCheck s).med = s.med ∧ (State.thresholdCheck s).cpx = s.cpx ∧ (State.thresholdCheck s).wvf = s.wvf ∧
    (State.thresholdCheck s).bpm = s.bpm ∧ (State.thresholdCheck s).sli = s.sli ∧ (State.thresholdCheck s).sec = s.sec ∧
    (State.thresholdCheck s).mic = s.mic ∧ (State.thresholdCheck s).flt = s.flt ∧ (State.thresholdCheck s).ctrs = s.ctrs ∧
    (State.thresholdCheck s).grps = s.grps ∧ (State.thresholdCheck s).pwr = s.pwr ∧ (State.thresholdCheck s).thm = s.thm ∧
    (State.thresholdCheck s).age = s.age ∧ (State.thresholdCheck s).cnv = s.cnv ∧ (State.thresholdCheck s).fwu = s.fwu ∧
    (State.thresholdCheck s).glb = s.glb ∧ (State.thresholdCheck s).sb = s.sb := by
  have w1 := @State.healthAen_still; have wi := @ite_parts
  simp [State.thresholdCheck, w1, wi]
theorem State.compareAll_still (s : State) :
    (State.compareAll s).pending = s.pending ∧ (State.compareAll s).free = s.free ∧ (State.compareAll s).host = s.host ∧
    (State.compareAll s).epoch = s.epoch ∧ (State.compareAll s).pat = s.pat ∧ (State.compareAll s).routes = s.routes ∧
    (State.compareAll s).dramMargin = s.dramMargin ∧ (State.compareAll s).ports = s.ports ∧ (State.compareAll s).trickle = s.trickle ∧
    (State.compareAll s).zon = s.zon ∧ (State.compareAll s).cpx = s.cpx ∧ (State.compareAll s).wvf = s.wvf ∧
    (State.compareAll s).bpm = s.bpm ∧ (State.compareAll s).sec = s.sec ∧ (State.compareAll s).mic = s.mic ∧
    (State.compareAll s).ctrs = s.ctrs ∧ (State.compareAll s).grps = s.grps ∧ (State.compareAll s).pwr = s.pwr ∧
    (State.compareAll s).age = s.age ∧ (State.compareAll s).cnv = s.cnv ∧ (State.compareAll s).fwu = s.fwu ∧
    (State.compareAll s).glb = s.glb ∧ (State.compareAll s).sb = s.sb := by
  have w1 := @State.throttleCheck_still; have w2 := @State.warnCheck_still; have w3 := @State.coldCheck_still
  have w4 := @State.thresholdCheck_still; have wf := @foldl_parts
  simp [State.compareAll, w1, w2, w3, w4, wf]
theorem State.sumLoad_still (s : State) :
    (State.sumLoad s).pending = s.pending ∧ (State.sumLoad s).free = s.free ∧ (State.sumLoad s).host = s.host ∧
    (State.sumLoad s).epoch = s.epoch ∧ (State.sumLoad s).pat = s.pat ∧ (State.sumLoad s).isl = s.isl ∧
    (State.sumLoad s).routes = s.routes ∧ (State.sumLoad s).dramMargin = s.dramMargin ∧ (State.sumLoad s).ports = s.ports ∧
    (State.sumLoad s).trickle = s.trickle ∧ (State.sumLoad s).cmd = s.cmd ∧ (State.sumLoad s).zon = s.zon ∧ (State.sumLoad s).med = s.med ∧
    (State.sumLoad s).mlf = s.mlf ∧ (State.sumLoad s).cpx = s.cpx ∧ (State.sumLoad s).wvf = s.wvf ∧ (State.sumLoad s).bpm = s.bpm ∧
    (State.sumLoad s).sli = s.sli ∧ (State.sumLoad s).sec = s.sec ∧ (State.sumLoad s).mic = s.mic ∧ (State.sumLoad s).flt = s.flt ∧
    (State.sumLoad s).ctrs = s.ctrs ∧ (State.sumLoad s).grps = s.grps ∧ (State.sumLoad s).thm = s.thm ∧ (State.sumLoad s).age = s.age ∧
    (State.sumLoad s).cnv = s.cnv ∧ (State.sumLoad s).fwu = s.fwu ∧ (State.sumLoad s).glb = s.glb ∧ (State.sumLoad s).sb = s.sb := by
  simp [State.sumLoad]
theorem State.keeperCheck_still (s : State) :
    (State.keeperCheck s).pending = s.pending ∧ (State.keeperCheck s).free = s.free ∧ (State.keeperCheck s).host = s.host ∧
    (State.keeperCheck s).epoch = s.epoch ∧ (State.keeperCheck s).pat = s.pat ∧ (State.keeperCheck s).isl = s.isl ∧
    (State.keeperCheck s).routes = s.routes ∧ (State.keeperCheck s).dramMargin = s.dramMargin ∧ (State.keeperCheck s).ports = s.ports ∧
    (State.keeperCheck s).trickle = s.trickle ∧ (State.keeperCheck s).cmd = s.cmd ∧ (State.keeperCheck s).zon = s.zon ∧
    (State.keeperCheck s).med = s.med ∧ (State.keeperCheck s).mlf = s.mlf ∧ (State.keeperCheck s).cpx = s.cpx ∧
    (State.keeperCheck s).wvf = s.wvf ∧ (State.keeperCheck s).bpm = s.bpm ∧ (State.keeperCheck s).sli = s.sli ∧
    (State.keeperCheck s).sec = s.sec ∧ (State.keeperCheck s).mic = s.mic ∧ (State.keeperCheck s).ctrs = s.ctrs ∧
    (State.keeperCheck s).grps = s.grps ∧ (State.keeperCheck s).thm = s.thm ∧ (State.keeperCheck s).age = s.age ∧
    (State.keeperCheck s).cnv = s.cnv ∧ (State.keeperCheck s).fwu = s.fwu ∧ (State.keeperCheck s).glb = s.glb ∧
    (State.keeperCheck s).sb = s.sb := by
  have w1 := @State.sumLoad_still; have w2 := @State.queueFault_still; have wi := @ite_parts
  simp [State.keeperCheck, w1, w2, wi]
theorem State.beginSleep_still (s : State) (i : Nat) (f : DState) :
    (State.beginSleep s i f).pending = s.pending ∧ (State.beginSleep s i f).free = s.free ∧ (State.beginSleep s i f).host = s.host ∧
    (State.beginSleep s i f).epoch = s.epoch ∧ (State.beginSleep s i f).pat = s.pat ∧ (State.beginSleep s i f).routes = s.routes ∧
    (State.beginSleep s i f).dramMargin = s.dramMargin ∧ (State.beginSleep s i f).ports = s.ports ∧
    (State.beginSleep s i f).trickle = s.trickle ∧ (State.beginSleep s i f).cmd = s.cmd ∧ (State.beginSleep s i f).zon = s.zon ∧
    (State.beginSleep s i f).mlf = s.mlf ∧ (State.beginSleep s i f).cpx = s.cpx ∧ (State.beginSleep s i f).wvf = s.wvf ∧
    (State.beginSleep s i f).bpm = s.bpm ∧ (State.beginSleep s i f).sli = s.sli ∧ (State.beginSleep s i f).sec = s.sec ∧
    (State.beginSleep s i f).mic = s.mic ∧ (State.beginSleep s i f).ctrs = s.ctrs ∧ (State.beginSleep s i f).grps = s.grps ∧
    (State.beginSleep s i f).thm = s.thm ∧ (State.beginSleep s i f).age = s.age ∧ (State.beginSleep s i f).cnv = s.cnv ∧
    (State.beginSleep s i f).fwu = s.fwu ∧ (State.beginSleep s i f).glb = s.glb ∧ (State.beginSleep s i f).sb = s.sb := by
  have w1 := @State.keeperCheck_still; have w2 := @State.holdLed_still; have w3 := @State.setIsl_still; have wi := @ite_parts
  simp [State.beginSleep, w1, w2, w3, wi]
theorem State.endSleep_still (s : State) (i : Nat) (f : DState) :
    (State.endSleep s i f).pending = s.pending ∧ (State.endSleep s i f).free = s.free ∧ (State.endSleep s i f).host = s.host ∧
    (State.endSleep s i f).epoch = s.epoch ∧ (State.endSleep s i f).pat = s.pat ∧ (State.endSleep s i f).routes = s.routes ∧
    (State.endSleep s i f).dramMargin = s.dramMargin ∧ (State.endSleep s i f).ports = s.ports ∧
    (State.endSleep s i f).trickle = s.trickle ∧ (State.endSleep s i f).cmd = s.cmd ∧ (State.endSleep s i f).zon = s.zon ∧
    (State.endSleep s i f).med = s.med ∧ (State.endSleep s i f).mlf = s.mlf ∧ (State.endSleep s i f).cpx = s.cpx ∧
    (State.endSleep s i f).wvf = s.wvf ∧ (State.endSleep s i f).bpm = s.bpm ∧ (State.endSleep s i f).sli = s.sli ∧
    (State.endSleep s i f).sec = s.sec ∧ (State.endSleep s i f).mic = s.mic ∧ (State.endSleep s i f).flt = s.flt ∧
    (State.endSleep s i f).ctrs = s.ctrs ∧ (State.endSleep s i f).grps = s.grps ∧ (State.endSleep s i f).thm = s.thm ∧
    (State.endSleep s i f).age = s.age ∧ (State.endSleep s i f).cnv = s.cnv ∧ (State.endSleep s i f).fwu = s.fwu ∧
    (State.endSleep s i f).glb = s.glb ∧ (State.endSleep s i f).sb = s.sb := by
  have w1 := @State.setIsl_still; have wi := @ite_parts
  simp [State.endSleep, w1, wi]
theorem State.kickMcl_still (s : State) (i : Nat) :
    (State.kickMcl s i).pending = s.pending ∧ (State.kickMcl s i).free = s.free ∧ (State.kickMcl s i).host = s.host ∧
    (State.kickMcl s i).epoch = s.epoch ∧ (State.kickMcl s i).pat = s.pat ∧ (State.kickMcl s i).routes = s.routes ∧
    (State.kickMcl s i).dramMargin = s.dramMargin ∧ (State.kickMcl s i).ports = s.ports ∧ (State.kickMcl s i).trickle = s.trickle ∧
    (State.kickMcl s i).cmd = s.cmd ∧ (State.kickMcl s i).zon = s.zon ∧ (State.kickMcl s i).mlf = s.mlf ∧ (State.kickMcl s i).cpx = s.cpx ∧
    (State.kickMcl s i).wvf = s.wvf ∧ (State.kickMcl s i).bpm = s.bpm ∧ (State.kickMcl s i).sec = s.sec ∧ (State.kickMcl s i).mic = s.mic ∧
    (State.kickMcl s i).flt = s.flt ∧ (State.kickMcl s i).ctrs = s.ctrs ∧ (State.kickMcl s i).grps = s.grps ∧
    (State.kickMcl s i).pwr = s.pwr ∧ (State.kickMcl s i).thm = s.thm ∧ (State.kickMcl s i).age = s.age ∧ (State.kickMcl s i).cnv = s.cnv ∧
    (State.kickMcl s i).fwu = s.fwu ∧ (State.kickMcl s i).glb = s.glb ∧ (State.kickMcl s i).sb = s.sb := by
  have w1 := @State.kick_still; have wf := @foldl_parts; have wi := @ite_parts
  simp [State.kickMcl, w1, wf, wi]
theorem State.ctlDown_still (s : State) :
    (State.ctlDown s).pending = s.pending ∧ (State.ctlDown s).free = s.free ∧ (State.ctlDown s).epoch = s.epoch ∧
    (State.ctlDown s).dramMargin = s.dramMargin ∧ (State.ctlDown s).ports = s.ports ∧ (State.ctlDown s).trickle = s.trickle ∧
    (State.ctlDown s).med = s.med ∧ (State.ctlDown s).mlf = s.mlf ∧ (State.ctlDown s).wvf = s.wvf ∧ (State.ctlDown s).bpm = s.bpm ∧
    (State.ctlDown s).sec = s.sec ∧ (State.ctlDown s).mic = s.mic ∧ (State.ctlDown s).ctrs = s.ctrs ∧ (State.ctlDown s).grps = s.grps ∧
    (State.ctlDown s).thm = s.thm ∧ (State.ctlDown s).age = s.age ∧ (State.ctlDown s).cnv = s.cnv ∧ (State.ctlDown s).glb = s.glb := by
  have w1 := @State.failReload_still; have w2 := @State.dropWaiter_still; have w3 := @State.finish_still; have wf := @foldl_parts
  have wi := @ite_parts
  simp [State.ctlDown, w1, w2, w3, wf, wi]
theorem State.noteClamp_still (s : State) :
    (State.noteClamp s).pending = s.pending ∧ (State.noteClamp s).free = s.free ∧ (State.noteClamp s).host = s.host ∧
    (State.noteClamp s).epoch = s.epoch ∧ (State.noteClamp s).pat = s.pat ∧ (State.noteClamp s).isl = s.isl ∧
    (State.noteClamp s).routes = s.routes ∧ (State.noteClamp s).dramMargin = s.dramMargin ∧ (State.noteClamp s).ports = s.ports ∧
    (State.noteClamp s).trickle = s.trickle ∧ (State.noteClamp s).cmd = s.cmd ∧ (State.noteClamp s).zon = s.zon ∧
    (State.noteClamp s).med = s.med ∧ (State.noteClamp s).mlf = s.mlf ∧ (State.noteClamp s).cpx = s.cpx ∧ (State.noteClamp s).wvf = s.wvf ∧
    (State.noteClamp s).bpm = s.bpm ∧ (State.noteClamp s).sli = s.sli ∧ (State.noteClamp s).sec = s.sec ∧ (State.noteClamp s).mic = s.mic ∧
    (State.noteClamp s).ctrs = s.ctrs ∧ (State.noteClamp s).grps = s.grps ∧ (State.noteClamp s).pwr = s.pwr ∧
    (State.noteClamp s).thm = s.thm ∧ (State.noteClamp s).age = s.age ∧ (State.noteClamp s).cnv = s.cnv ∧ (State.noteClamp s).fwu = s.fwu ∧
    (State.noteClamp s).sb = s.sb := by
  have w1 := @State.queueFault_still; have wi := @ite_parts
  simp [State.noteClamp, w1, wi]
theorem State.setPoint_still (s : State) (i p : Nat) :
    (State.setPoint s i p).pending = s.pending ∧ (State.setPoint s i p).free = s.free ∧ (State.setPoint s i p).host = s.host ∧
    (State.setPoint s i p).epoch = s.epoch ∧ (State.setPoint s i p).pat = s.pat ∧ (State.setPoint s i p).routes = s.routes ∧
    (State.setPoint s i p).dramMargin = s.dramMargin ∧ (State.setPoint s i p).ports = s.ports ∧
    (State.setPoint s i p).trickle = s.trickle ∧ (State.setPoint s i p).cmd = s.cmd ∧ (State.setPoint s i p).zon = s.zon ∧
    (State.setPoint s i p).med = s.med ∧ (State.setPoint s i p).mlf = s.mlf ∧ (State.setPoint s i p).cpx = s.cpx ∧
    (State.setPoint s i p).wvf = s.wvf ∧ (State.setPoint s i p).bpm = s.bpm ∧ (State.setPoint s i p).sli = s.sli ∧
    (State.setPoint s i p).sec = s.sec ∧ (State.setPoint s i p).mic = s.mic ∧ (State.setPoint s i p).flt = s.flt ∧
    (State.setPoint s i p).ctrs = s.ctrs ∧ (State.setPoint s i p).grps = s.grps ∧ (State.setPoint s i p).pwr = s.pwr ∧
    (State.setPoint s i p).thm = s.thm ∧ (State.setPoint s i p).age = s.age ∧ (State.setPoint s i p).cnv = s.cnv ∧
    (State.setPoint s i p).fwu = s.fwu ∧ (State.setPoint s i p).glb = s.glb ∧ (State.setPoint s i p).sb = s.sb := by
  have w1 := @State.modIsl_still
  simp [State.setPoint, w1]
theorem State.lowerVdd_still (s : State) :
    (State.lowerVdd s).pending = s.pending ∧ (State.lowerVdd s).free = s.free ∧ (State.lowerVdd s).host = s.host ∧
    (State.lowerVdd s).epoch = s.epoch ∧ (State.lowerVdd s).pat = s.pat ∧ (State.lowerVdd s).isl = s.isl ∧
    (State.lowerVdd s).routes = s.routes ∧ (State.lowerVdd s).dramMargin = s.dramMargin ∧ (State.lowerVdd s).ports = s.ports ∧
    (State.lowerVdd s).trickle = s.trickle ∧ (State.lowerVdd s).cmd = s.cmd ∧ (State.lowerVdd s).zon = s.zon ∧
    (State.lowerVdd s).med = s.med ∧ (State.lowerVdd s).mlf = s.mlf ∧ (State.lowerVdd s).cpx = s.cpx ∧ (State.lowerVdd s).wvf = s.wvf ∧
    (State.lowerVdd s).bpm = s.bpm ∧ (State.lowerVdd s).sli = s.sli ∧ (State.lowerVdd s).sec = s.sec ∧ (State.lowerVdd s).mic = s.mic ∧
    (State.lowerVdd s).flt = s.flt ∧ (State.lowerVdd s).ctrs = s.ctrs ∧ (State.lowerVdd s).grps = s.grps ∧ (State.lowerVdd s).pwr = s.pwr ∧
    (State.lowerVdd s).thm = s.thm ∧ (State.lowerVdd s).age = s.age ∧ (State.lowerVdd s).cnv = s.cnv ∧ (State.lowerVdd s).fwu = s.fwu ∧
    (State.lowerVdd s).sb = s.sb := by
  have wi := @ite_parts
  simp [State.lowerVdd, wi]
theorem State.movePoint_still (s : State) (i p : Nat) :
    (State.movePoint s i p).pending = s.pending ∧ (State.movePoint s i p).free = s.free ∧ (State.movePoint s i p).host = s.host ∧
    (State.movePoint s i p).epoch = s.epoch ∧ (State.movePoint s i p).pat = s.pat ∧ (State.movePoint s i p).routes = s.routes ∧
    (State.movePoint s i p).dramMargin = s.dramMargin ∧ (State.movePoint s i p).ports = s.ports ∧
    (State.movePoint s i p).trickle = s.trickle ∧ (State.movePoint s i p).cmd = s.cmd ∧ (State.movePoint s i p).zon = s.zon ∧
    (State.movePoint s i p).med = s.med ∧ (State.movePoint s i p).mlf = s.mlf ∧ (State.movePoint s i p).cpx = s.cpx ∧
    (State.movePoint s i p).wvf = s.wvf ∧ (State.movePoint s i p).bpm = s.bpm ∧ (State.movePoint s i p).sli = s.sli ∧
    (State.movePoint s i p).sec = s.sec ∧ (State.movePoint s i p).mic = s.mic ∧ (State.movePoint s i p).ctrs = s.ctrs ∧
    (State.movePoint s i p).grps = s.grps ∧ (State.movePoint s i p).pwr = s.pwr ∧ (State.movePoint s i p).thm = s.thm ∧
    (State.movePoint s i p).age = s.age ∧ (State.movePoint s i p).cnv = s.cnv ∧ (State.movePoint s i p).fwu = s.fwu ∧
    (State.movePoint s i p).sb = s.sb := by
  have w1 := @State.noteClamp_still; have w2 := @State.setPoint_still; have w3 := @State.lowerVdd_still; have wi := @ite_parts
  simp [State.movePoint, w1, w2, w3, wi]
theorem State.fillPools_still (s : State) :
    (State.fillPools s).pending = s.pending ∧ (State.fillPools s).free = s.free ∧ (State.fillPools s).host = s.host ∧
    (State.fillPools s).epoch = s.epoch ∧ (State.fillPools s).pat = s.pat ∧ (State.fillPools s).isl = s.isl ∧
    (State.fillPools s).routes = s.routes ∧ (State.fillPools s).dramMargin = s.dramMargin ∧ (State.fillPools s).ports = s.ports ∧
    (State.fillPools s).trickle = s.trickle ∧ (State.fillPools s).cmd = s.cmd ∧ (State.fillPools s).zon = s.zon ∧
    (State.fillPools s).med = s.med ∧ (State.fillPools s).mlf = s.mlf ∧ (State.fillPools s).cpx = s.cpx ∧ (State.fillPools s).wvf = s.wvf ∧
    (State.fillPools s).sli = s.sli ∧ (State.fillPools s).sec = s.sec ∧ (State.fillPools s).mic = s.mic ∧ (State.fillPools s).flt = s.flt ∧
    (State.fillPools s).ctrs = s.ctrs ∧ (State.fillPools s).grps = s.grps ∧ (State.fillPools s).pwr = s.pwr ∧
    (State.fillPools s).thm = s.thm ∧ (State.fillPools s).age = s.age ∧ (State.fillPools s).cnv = s.cnv ∧ (State.fillPools s).fwu = s.fwu ∧
    (State.fillPools s).glb = s.glb ∧ (State.fillPools s).sb = s.sb := by
  have w1 := @State.setPool_still; have wf := @foldl_parts
  simp [State.fillPools, w1, wf]
theorem State.recordRepair_still (s : State) (mc line : Nat) (e : RepEnt) :
    (State.recordRepair s mc line e).pending = s.pending ∧ (State.recordRepair s mc line e).free = s.free ∧
    (State.recordRepair s mc line e).host = s.host ∧ (State.recordRepair s mc line e).epoch = s.epoch ∧
    (State.recordRepair s mc line e).pat = s.pat ∧ (State.recordRepair s mc line e).isl = s.isl ∧
    (State.recordRepair s mc line e).routes = s.routes ∧ (State.recordRepair s mc line e).dramMargin = s.dramMargin ∧
    (State.recordRepair s mc line e).ports = s.ports ∧ (State.recordRepair s mc line e).trickle = s.trickle ∧
    (State.recordRepair s mc line e).cmd = s.cmd ∧ (State.recordRepair s mc line e).zon = s.zon ∧
    (State.recordRepair s mc line e).med = s.med ∧ (State.recordRepair s mc line e).mlf = s.mlf ∧
    (State.recordRepair s mc line e).cpx = s.cpx ∧ (State.recordRepair s mc line e).wvf = s.wvf ∧
    (State.recordRepair s mc line e).bpm = s.bpm ∧ (State.recordRepair s mc line e).sli = s.sli ∧
    (State.recordRepair s mc line e).sec = s.sec ∧ (State.recordRepair s mc line e).ctrs = s.ctrs ∧
    (State.recordRepair s mc line e).grps = s.grps ∧ (State.recordRepair s mc line e).pwr = s.pwr ∧
    (State.recordRepair s mc line e).thm = s.thm ∧ (State.recordRepair s mc line e).age = s.age ∧
    (State.recordRepair s mc line e).cnv = s.cnv ∧ (State.recordRepair s mc line e).fwu = s.fwu ∧
    (State.recordRepair s mc line e).glb = s.glb ∧ (State.recordRepair s mc line e).sb = s.sb := by
  have w1 := @State.queueFault_still; have wi := @ite_parts
  simp [State.recordRepair, w1, wi]
theorem State.retireFrame_still (s : State) (isl mc line k : Nat) :
    (State.retireFrame s isl mc line k).pending = s.pending ∧ (State.retireFrame s isl mc line k).free = s.free ∧
    (State.retireFrame s isl mc line k).host = s.host ∧ (State.retireFrame s isl mc line k).epoch = s.epoch ∧
    (State.retireFrame s isl mc line k).pat = s.pat ∧ (State.retireFrame s isl mc line k).isl = s.isl ∧
    (State.retireFrame s isl mc line k).routes = s.routes ∧ (State.retireFrame s isl mc line k).dramMargin = s.dramMargin ∧
    (State.retireFrame s isl mc line k).ports = s.ports ∧ (State.retireFrame s isl mc line k).trickle = s.trickle ∧
    (State.retireFrame s isl mc line k).cmd = s.cmd ∧ (State.retireFrame s isl mc line k).zon = s.zon ∧
    (State.retireFrame s isl mc line k).med = s.med ∧ (State.retireFrame s isl mc line k).mlf = s.mlf ∧
    (State.retireFrame s isl mc line k).cpx = s.cpx ∧ (State.retireFrame s isl mc line k).wvf = s.wvf ∧
    (State.retireFrame s isl mc line k).sli = s.sli ∧ (State.retireFrame s isl mc line k).sec = s.sec ∧
    (State.retireFrame s isl mc line k).ctrs = s.ctrs ∧ (State.retireFrame s isl mc line k).grps = s.grps ∧
    (State.retireFrame s isl mc line k).pwr = s.pwr ∧ (State.retireFrame s isl mc line k).thm = s.thm ∧
    (State.retireFrame s isl mc line k).age = s.age ∧ (State.retireFrame s isl mc line k).cnv = s.cnv ∧
    (State.retireFrame s isl mc line k).fwu = s.fwu ∧ (State.retireFrame s isl mc line k).glb = s.glb ∧
    (State.retireFrame s isl mc line k).sb = s.sb := by
  have w1 := @State.recordRepair_still; have w2 := @State.setFrame_still; have w3 := @State.setPool_still
  have w4 := @State.countRetired_still; have wi := @ite_parts
  simp [State.retireFrame, w1, w2, w3, w4, wi]
theorem State.disableEffect_still (s : State) (isl j line : Nat) :
    (State.disableEffect s isl j line).pending = s.pending ∧ (State.disableEffect s isl j line).epoch = s.epoch ∧
    (State.disableEffect s isl j line).dramMargin = s.dramMargin ∧ (State.disableEffect s isl j line).sec = s.sec ∧
    (State.disableEffect s isl j line).ctrs = s.ctrs ∧ (State.disableEffect s isl j line).grps = s.grps ∧
    (State.disableEffect s isl j line).thm = s.thm ∧ (State.disableEffect s isl j line).age = s.age ∧
    (State.disableEffect s isl j line).cnv = s.cnv ∧ (State.disableEffect s isl j line).glb = s.glb := by
  have w1 := @State.isolateUnit_still; have wi := @ite_parts
  simp [State.disableEffect, w1, wi]
theorem State.repairLine_still (s : State) (isl mc j line mask : Nat) :
    (State.repairLine s isl mc j line mask).pending = s.pending ∧ (State.repairLine s isl mc j line mask).epoch = s.epoch ∧
    (State.repairLine s isl mc j line mask).dramMargin = s.dramMargin ∧ (State.repairLine s isl mc j line mask).sec = s.sec ∧
    (State.repairLine s isl mc j line mask).ctrs = s.ctrs ∧ (State.repairLine s isl mc j line mask).grps = s.grps ∧
    (State.repairLine s isl mc j line mask).thm = s.thm ∧ (State.repairLine s isl mc j line mask).age = s.age ∧
    (State.repairLine s isl mc j line mask).cnv = s.cnv ∧ (State.repairLine s isl mc j line mask).glb = s.glb := by
  have w2 := @State.setMem_still; have w3 := @State.micCnt_still
  have w4 := @State.recordRepair_still; have w5 := @State.disableEffect_still; have w6 := @State.queueFault_still
  have wi := @ite_parts
  simp [State.repairLine, w2, w3, w4, w5, w6, wi]
theorem State.trackLine_still (s : State) (isl mc j line mask : Nat) :
    (State.trackLine s isl mc j line mask).pending = s.pending ∧ (State.trackLine s isl mc j line mask).epoch = s.epoch ∧
    (State.trackLine s isl mc j line mask).dramMargin = s.dramMargin ∧ (State.trackLine s isl mc j line mask).sec = s.sec ∧
    (State.trackLine s isl mc j line mask).ctrs = s.ctrs ∧ (State.trackLine s isl mc j line mask).grps = s.grps ∧
    (State.trackLine s isl mc j line mask).thm = s.thm ∧ (State.trackLine s isl mc j line mask).age = s.age ∧
    (State.trackLine s isl mc j line mask).cnv = s.cnv ∧ (State.trackLine s isl mc j line mask).glb = s.glb := by
  have w1 := @State.track_still; have w2 := @State.setMem_still; have w3 := @State.retireFrame_still
  have w4 := @State.repairLine_still; have wi := @ite_parts
  unfold State.trackLine; dsimp only; repeat' split
  all_goals simp [*]
theorem State.jobLost_still (s : State) (ctx : Option Nat) (e : Nat) :
    (State.jobLost s ctx e).pending = s.pending ∧ (State.jobLost s ctx e).host = s.host ∧ (State.jobLost s ctx e).epoch = s.epoch ∧
    (State.jobLost s ctx e).pat = s.pat ∧ (State.jobLost s ctx e).isl = s.isl ∧ (State.jobLost s ctx e).dramMargin = s.dramMargin ∧
    (State.jobLost s ctx e).ports = s.ports ∧ (State.jobLost s ctx e).trickle = s.trickle ∧ (State.jobLost s ctx e).mlf = s.mlf ∧
    (State.jobLost s ctx e).sli = s.sli ∧ (State.jobLost s ctx e).sec = s.sec ∧ (State.jobLost s ctx e).ctrs = s.ctrs ∧
    (State.jobLost s ctx e).grps = s.grps ∧ (State.jobLost s ctx e).pwr = s.pwr ∧ (State.jobLost s ctx e).thm = s.thm ∧
    (State.jobLost s ctx e).age = s.age ∧ (State.jobLost s ctx e).cnv = s.cnv ∧ (State.jobLost s ctx e).fwu = s.fwu ∧
    (State.jobLost s ctx e).glb = s.glb ∧ (State.jobLost s ctx e).sb = s.sb := by
  have w1 := @State.failJob_still
  unfold State.jobLost; repeat' split
  all_goals simp [*]
theorem State.damageProg_still (s : State) (ctx : Option Nat) :
    (State.damageProg s ctx).pending = s.pending ∧ (State.damageProg s ctx).free = s.free ∧ (State.damageProg s ctx).host = s.host ∧
    (State.damageProg s ctx).epoch = s.epoch ∧ (State.damageProg s ctx).pat = s.pat ∧ (State.damageProg s ctx).isl = s.isl ∧
    (State.damageProg s ctx).routes = s.routes ∧ (State.damageProg s ctx).dramMargin = s.dramMargin ∧
    (State.damageProg s ctx).ports = s.ports ∧ (State.damageProg s ctx).trickle = s.trickle ∧ (State.damageProg s ctx).cmd = s.cmd ∧
    (State.damageProg s ctx).zon = s.zon ∧ (State.damageProg s ctx).med = s.med ∧ (State.damageProg s ctx).mlf = s.mlf ∧
    (State.damageProg s ctx).wvf = s.wvf ∧ (State.damageProg s ctx).bpm = s.bpm ∧ (State.damageProg s ctx).sli = s.sli ∧
    (State.damageProg s ctx).sec = s.sec ∧ (State.damageProg s ctx).mic = s.mic ∧ (State.damageProg s ctx).flt = s.flt ∧
    (State.damageProg s ctx).ctrs = s.ctrs ∧ (State.damageProg s ctx).grps = s.grps ∧ (State.damageProg s ctx).pwr = s.pwr ∧
    (State.damageProg s ctx).thm = s.thm ∧ (State.damageProg s ctx).age = s.age ∧ (State.damageProg s ctx).cnv = s.cnv ∧
    (State.damageProg s ctx).fwu = s.fwu ∧ (State.damageProg s ctx).glb = s.glb ∧ (State.damageProg s ctx).sb = s.sb := by
  have w1 := @State.setAlloc_still
  unfold State.damageProg; dsimp only; repeat' split
  all_goals simp [*]
theorem State.lineLost_still (s : State) (k : Nat) :
    (State.lineLost s k).pending = s.pending ∧ (State.lineLost s k).host = s.host ∧ (State.lineLost s k).epoch = s.epoch ∧
    (State.lineLost s k).pat = s.pat ∧ (State.lineLost s k).isl = s.isl ∧ (State.lineLost s k).dramMargin = s.dramMargin ∧
    (State.lineLost s k).ports = s.ports ∧ (State.lineLost s k).trickle = s.trickle ∧ (State.lineLost s k).sec = s.sec ∧
    (State.lineLost s k).ctrs = s.ctrs ∧ (State.lineLost s k).grps = s.grps ∧ (State.lineLost s k).pwr = s.pwr ∧
    (State.lineLost s k).thm = s.thm ∧ (State.lineLost s k).age = s.age ∧ (State.lineLost s k).cnv = s.cnv ∧
    (State.lineLost s k).fwu = s.fwu ∧ (State.lineLost s k).glb = s.glb ∧ (State.lineLost s k).sb = s.sb := by
  have wi := @ite_parts
  have w1 := @State.endErr_still; have w2 := @State.micCnt_still; have w3 := @State.modLine_still
  have w4 := @State.recordLost_still
  unfold State.lineLost; repeat' split
  all_goals simp [*]
theorem State.ctxLost_still (s : State) (c : Nat) :
    (State.ctxLost s c).pending = s.pending ∧ (State.ctxLost s c).host = s.host ∧ (State.ctxLost s c).epoch = s.epoch ∧
    (State.ctxLost s c).pat = s.pat ∧ (State.ctxLost s c).isl = s.isl ∧ (State.ctxLost s c).dramMargin = s.dramMargin ∧
    (State.ctxLost s c).ports = s.ports ∧ (State.ctxLost s c).trickle = s.trickle ∧ (State.ctxLost s c).mlf = s.mlf ∧
    (State.ctxLost s c).sli = s.sli ∧ (State.ctxLost s c).sec = s.sec ∧ (State.ctxLost s c).ctrs = s.ctrs ∧
    (State.ctxLost s c).grps = s.grps ∧ (State.ctxLost s c).pwr = s.pwr ∧ (State.ctxLost s c).thm = s.thm ∧
    (State.ctxLost s c).age = s.age ∧ (State.ctxLost s c).cnv = s.cnv ∧ (State.ctxLost s c).fwu = s.fwu ∧ (State.ctxLost s c).glb = s.glb ∧
    (State.ctxLost s c).sb = s.sb := by
  have w1 := @State.setCtx_still; have w2 := @State.endErr_still; have wi := @ite_parts
  simp [State.ctxLost, w1, w2, wi]
theorem State.dupLost_still (s : State) (isl j line : Nat) :
    (State.dupLost s isl j line).pending = s.pending ∧ (State.dupLost s isl j line).free = s.free ∧
    (State.dupLost s isl j line).host = s.host ∧ (State.dupLost s isl j line).epoch = s.epoch ∧ (State.dupLost s isl j line).pat = s.pat ∧
    (State.dupLost s isl j line).isl = s.isl ∧ (State.dupLost s isl j line).routes = s.routes ∧
    (State.dupLost s isl j line).dramMargin = s.dramMargin ∧ (State.dupLost s isl j line).ports = s.ports ∧
    (State.dupLost s isl j line).trickle = s.trickle ∧ (State.dupLost s isl j line).zon = s.zon ∧
    (State.dupLost s isl j line).med = s.med ∧ (State.dupLost s isl j line).mlf = s.mlf ∧ (State.dupLost s isl j line).cpx = s.cpx ∧
    (State.dupLost s isl j line).wvf = s.wvf ∧ (State.dupLost s isl j line).sli = s.sli ∧ (State.dupLost s isl j line).sec = s.sec ∧
    (State.dupLost s isl j line).ctrs = s.ctrs ∧ (State.dupLost s isl j line).grps = s.grps ∧ (State.dupLost s isl j line).pwr = s.pwr ∧
    (State.dupLost s isl j line).thm = s.thm ∧ (State.dupLost s isl j line).age = s.age ∧ (State.dupLost s isl j line).cnv = s.cnv ∧
    (State.dupLost s isl j line).fwu = s.fwu ∧ (State.dupLost s isl j line).glb = s.glb ∧ (State.dupLost s isl j line).sb = s.sb := by
  have w1 := @State.controllerFatal_still; have w2 := @State.setPool_still; have w3 := @State.queueFault_still
  have w4 := @State.retireFrame_still; have wi := @ite_parts
  simp [State.dupLost, w1, w2, w3, w4, wi]
theorem State.dmaHalt_still (s : State) (ctx : Option Nat) :
    (State.dmaHalt s ctx).pending = s.pending ∧ (State.dmaHalt s ctx).free = s.free ∧ (State.dmaHalt s ctx).host = s.host ∧
    (State.dmaHalt s ctx).epoch = s.epoch ∧ (State.dmaHalt s ctx).pat = s.pat ∧ (State.dmaHalt s ctx).isl = s.isl ∧
    (State.dmaHalt s ctx).routes = s.routes ∧ (State.dmaHalt s ctx).dramMargin = s.dramMargin ∧ (State.dmaHalt s ctx).ports = s.ports ∧
    (State.dmaHalt s ctx).trickle = s.trickle ∧ (State.dmaHalt s ctx).cmd = s.cmd ∧ (State.dmaHalt s ctx).zon = s.zon ∧
    (State.dmaHalt s ctx).med = s.med ∧ (State.dmaHalt s ctx).mlf = s.mlf ∧ (State.dmaHalt s ctx).cpx = s.cpx ∧
    (State.dmaHalt s ctx).wvf = s.wvf ∧ (State.dmaHalt s ctx).bpm = s.bpm ∧ (State.dmaHalt s ctx).sli = s.sli ∧
    (State.dmaHalt s ctx).sec = s.sec ∧ (State.dmaHalt s ctx).flt = s.flt ∧ (State.dmaHalt s ctx).ctrs = s.ctrs ∧
    (State.dmaHalt s ctx).grps = s.grps ∧ (State.dmaHalt s ctx).pwr = s.pwr ∧ (State.dmaHalt s ctx).thm = s.thm ∧
    (State.dmaHalt s ctx).age = s.age ∧ (State.dmaHalt s ctx).cnv = s.cnv ∧ (State.dmaHalt s ctx).fwu = s.fwu ∧
    (State.dmaHalt s ctx).glb = s.glb ∧ (State.dmaHalt s ctx).sb = s.sb := by
  have w1 := @State.micCnt_still
  unfold State.dmaHalt; repeat' split
  all_goals simp [*]
theorem State.recover_still (s : State) (isl mc j line : Nat) (ctx : Option Nat) (moving : Bool) :
    (State.recover s isl mc j line ctx moving).pending = s.pending ∧ (State.recover s isl mc j line ctx moving).host = s.host ∧
    (State.recover s isl mc j line ctx moving).epoch = s.epoch ∧ (State.recover s isl mc j line ctx moving).pat = s.pat ∧
    (State.recover s isl mc j line ctx moving).isl = s.isl ∧ (State.recover s isl mc j line ctx moving).dramMargin = s.dramMargin ∧
    (State.recover s isl mc j line ctx moving).ports = s.ports ∧ (State.recover s isl mc j line ctx moving).trickle = s.trickle ∧
    (State.recover s isl mc j line ctx moving).sec = s.sec ∧ (State.recover s isl mc j line ctx moving).ctrs = s.ctrs ∧
    (State.recover s isl mc j line ctx moving).grps = s.grps ∧ (State.recover s isl mc j line ctx moving).pwr = s.pwr ∧
    (State.recover s isl mc j line ctx moving).thm = s.thm ∧ (State.recover s isl mc j line ctx moving).age = s.age ∧
    (State.recover s isl mc j line ctx moving).cnv = s.cnv ∧ (State.recover s isl mc j line ctx moving).fwu = s.fwu ∧
    (State.recover s isl mc j line ctx moving).glb = s.glb ∧ (State.recover s isl mc j line ctx moving).sb = s.sb := by
  have w1 := @drawBool_still; have w2 := @State.micCnt_still; have w3 := @State.queueFault_still
  have w4 := @State.damageProg_still; have w5 := @State.jobLost_still; have w6 := @State.lineLost_still
  have w7 := @State.ctxLost_still; have w8 := @State.dmaHalt_still; have w9 := @State.dupLost_still; have wi := @ite_parts
  simp [State.recover, w1, w2, w3, w4, w5, w6, w7, w8, w9, wi]
theorem State.frameEvent_still (s : State) (mc j line : Nat) :
    (State.frameEvent s mc j line).pending = s.pending ∧ (State.frameEvent s mc j line).free = s.free ∧
    (State.frameEvent s mc j line).host = s.host ∧ (State.frameEvent s mc j line).epoch = s.epoch ∧
    (State.frameEvent s mc j line).pat = s.pat ∧ (State.frameEvent s mc j line).isl = s.isl ∧
    (State.frameEvent s mc j line).routes = s.routes ∧ (State.frameEvent s mc j line).dramMargin = s.dramMargin ∧
    (State.frameEvent s mc j line).ports = s.ports ∧ (State.frameEvent s mc j line).trickle = s.trickle ∧
    (State.frameEvent s mc j line).cmd = s.cmd ∧ (State.frameEvent s mc j line).zon = s.zon ∧ (State.frameEvent s mc j line).med = s.med ∧
    (State.frameEvent s mc j line).mlf = s.mlf ∧ (State.frameEvent s mc j line).cpx = s.cpx ∧ (State.frameEvent s mc j line).wvf = s.wvf ∧
    (State.frameEvent s mc j line).sli = s.sli ∧ (State.frameEvent s mc j line).sec = s.sec ∧ (State.frameEvent s mc j line).mic = s.mic ∧
    (State.frameEvent s mc j line).flt = s.flt ∧ (State.frameEvent s mc j line).ctrs = s.ctrs ∧
    (State.frameEvent s mc j line).grps = s.grps ∧ (State.frameEvent s mc j line).pwr = s.pwr ∧
    (State.frameEvent s mc j line).thm = s.thm ∧ (State.frameEvent s mc j line).age = s.age ∧ (State.frameEvent s mc j line).cnv = s.cnv ∧
    (State.frameEvent s mc j line).fwu = s.fwu ∧ (State.frameEvent s mc j line).glb = s.glb ∧ (State.frameEvent s mc j line).sb = s.sb := by
  have w1 := @State.setFrame_still
  unfold State.frameEvent; repeat' split
  all_goals simp [*]
theorem State.frameFail_still (s : State) (isl mc j line : Nat) :
    (State.frameFail s isl mc j line).pending = s.pending ∧ (State.frameFail s isl mc j line).free = s.free ∧
    (State.frameFail s isl mc j line).host = s.host ∧ (State.frameFail s isl mc j line).epoch = s.epoch ∧
    (State.frameFail s isl mc j line).pat = s.pat ∧ (State.frameFail s isl mc j line).isl = s.isl ∧
    (State.frameFail s isl mc j line).routes = s.routes ∧ (State.frameFail s isl mc j line).dramMargin = s.dramMargin ∧
    (State.frameFail s isl mc j line).ports = s.ports ∧ (State.frameFail s isl mc j line).trickle = s.trickle ∧
    (State.frameFail s isl mc j line).cmd = s.cmd ∧ (State.frameFail s isl mc j line).zon = s.zon ∧
    (State.frameFail s isl mc j line).med = s.med ∧ (State.frameFail s isl mc j line).mlf = s.mlf ∧
    (State.frameFail s isl mc j line).cpx = s.cpx ∧ (State.frameFail s isl mc j line).wvf = s.wvf ∧
    (State.frameFail s isl mc j line).sli = s.sli ∧ (State.frameFail s isl mc j line).sec = s.sec ∧
    (State.frameFail s isl mc j line).ctrs = s.ctrs ∧ (State.frameFail s isl mc j line).grps = s.grps ∧
    (State.frameFail s isl mc j line).pwr = s.pwr ∧ (State.frameFail s isl mc j line).thm = s.thm ∧
    (State.frameFail s isl mc j line).age = s.age ∧ (State.frameFail s isl mc j line).cnv = s.cnv ∧
    (State.frameFail s isl mc j line).fwu = s.fwu ∧ (State.frameFail s isl mc j line).glb = s.glb ∧
    (State.frameFail s isl mc j line).sb = s.sb := by
  have wi := @ite_parts
  have w1 := @State.retireFrame_still; have w2 := @State.setFrame_still
  unfold State.frameFail; repeat' split
  all_goals simp [*]
theorem State.unmark_still (s : State) (isl j line : Nat) :
    (State.unmark s isl j line).pending = s.pending ∧ (State.unmark s isl j line).free = s.free ∧
    (State.unmark s isl j line).host = s.host ∧ (State.unmark s isl j line).epoch = s.epoch ∧ (State.unmark s isl j line).pat = s.pat ∧
    (State.unmark s isl j line).isl = s.isl ∧ (State.unmark s isl j line).routes = s.routes ∧
    (State.unmark s isl j line).dramMargin = s.dramMargin ∧ (State.unmark s isl j line).ports = s.ports ∧
    (State.unmark s isl j line).trickle = s.trickle ∧ (State.unmark s isl j line).cmd = s.cmd ∧ (State.unmark s isl j line).zon = s.zon ∧
    (State.unmark s isl j line).med = s.med ∧ (State.unmark s isl j line).mlf = s.mlf ∧ (State.unmark s isl j line).cpx = s.cpx ∧
    (State.unmark s isl j line).wvf = s.wvf ∧ (State.unmark s isl j line).bpm = s.bpm ∧ (State.unmark s isl j line).sli = s.sli ∧
    (State.unmark s isl j line).sec = s.sec ∧ (State.unmark s isl j line).flt = s.flt ∧ (State.unmark s isl j line).ctrs = s.ctrs ∧
    (State.unmark s isl j line).grps = s.grps ∧ (State.unmark s isl j line).pwr = s.pwr ∧ (State.unmark s isl j line).thm = s.thm ∧
    (State.unmark s isl j line).age = s.age ∧ (State.unmark s isl j line).cnv = s.cnv ∧ (State.unmark s isl j line).fwu = s.fwu ∧
    (State.unmark s isl j line).glb = s.glb ∧ (State.unmark s isl j line).sb = s.sb := by
  have w1 := @State.setMem_still; have wi := @ite_parts
  simp [State.unmark, w1, wi]
theorem State.checkLine_still (s : State) (isl mc j line : Nat) (chk : LineCheck) (ctx : Option Nat) (moving : Bool) :
    (State.checkLine s isl mc j line chk ctx moving).pending = s.pending ∧
    (State.checkLine s isl mc j line chk ctx moving).epoch = s.epoch ∧
    (State.checkLine s isl mc j line chk ctx moving).dramMargin = s.dramMargin ∧
    (State.checkLine s isl mc j line chk ctx moving).sec = s.sec ∧ (State.checkLine s isl mc j line chk ctx moving).ctrs = s.ctrs ∧
    (State.checkLine s isl mc j line chk ctx moving).grps = s.grps ∧ (State.checkLine s isl mc j line chk ctx moving).thm = s.thm ∧
    (State.checkLine s isl mc j line chk ctx moving).age = s.age ∧ (State.checkLine s isl mc j line chk ctx moving).cnv = s.cnv ∧
    (State.checkLine s isl mc j line chk ctx moving).glb = s.glb := by
  have w1 := @State.setMem_still; have w2 := @State.frameEvent_still; have w3 := @State.micCnt_still
  have w4 := @State.queueFault_still; have w5 := @State.trackLine_still; have w6 := @State.unmark_still
  have w7 := @State.frameFail_still; have w8 := @State.recover_still; have wi := @ite_parts
  simp [State.checkLine, w1, w2, w3, w4, w5, w6, w7, w8, wi]
theorem State.writeLine_still (s : State) (isl mc j line : Nat) :
    (State.writeLine s isl mc j line).pending = s.pending ∧ (State.writeLine s isl mc j line).free = s.free ∧
    (State.writeLine s isl mc j line).host = s.host ∧ (State.writeLine s isl mc j line).epoch = s.epoch ∧
    (State.writeLine s isl mc j line).pat = s.pat ∧ (State.writeLine s isl mc j line).isl = s.isl ∧
    (State.writeLine s isl mc j line).routes = s.routes ∧ (State.writeLine s isl mc j line).dramMargin = s.dramMargin ∧
    (State.writeLine s isl mc j line).ports = s.ports ∧ (State.writeLine s isl mc j line).trickle = s.trickle ∧
    (State.writeLine s isl mc j line).zon = s.zon ∧ (State.writeLine s isl mc j line).med = s.med ∧
    (State.writeLine s isl mc j line).mlf = s.mlf ∧ (State.writeLine s isl mc j line).cpx = s.cpx ∧
    (State.writeLine s isl mc j line).wvf = s.wvf ∧ (State.writeLine s isl mc j line).bpm = s.bpm ∧
    (State.writeLine s isl mc j line).sli = s.sli ∧ (State.writeLine s isl mc j line).sec = s.sec ∧
    (State.writeLine s isl mc j line).flt = s.flt ∧ (State.writeLine s isl mc j line).ctrs = s.ctrs ∧
    (State.writeLine s isl mc j line).grps = s.grps ∧ (State.writeLine s isl mc j line).pwr = s.pwr ∧
    (State.writeLine s isl mc j line).thm = s.thm ∧ (State.writeLine s isl mc j line).age = s.age ∧
    (State.writeLine s isl mc j line).cnv = s.cnv ∧ (State.writeLine s isl mc j line).fwu = s.fwu ∧
    (State.writeLine s isl mc j line).glb = s.glb ∧ (State.writeLine s isl mc j line).sb = s.sb := by
  have w1 := @State.setMem_still; have w3 := @State.unmark_still; have wi := @ite_parts
  simp [State.writeLine, w1, w3, wi]
theorem State.deliverOne_still (s : State) (t : Transfer) :
    (State.deliverOne s t).pending = s.pending ∧ (State.deliverOne s t).epoch = s.epoch ∧
    (State.deliverOne s t).dramMargin = s.dramMargin ∧ (State.deliverOne s t).sec = s.sec ∧ (State.deliverOne s t).ctrs = s.ctrs ∧
    (State.deliverOne s t).grps = s.grps ∧ (State.deliverOne s t).thm = s.thm ∧ (State.deliverOne s t).age = s.age ∧
    (State.deliverOne s t).cnv = s.cnv ∧ (State.deliverOne s t).glb = s.glb := by
  have wi := @ite_parts
  have w1 := @State.checkLine_still; have w2 := @State.queueFault_still; have w3 := @State.writeLine_still
  unfold State.deliverOne; repeat' split
  all_goals simp [*]
theorem State.deliverHeld_still (s : State) (i : Nat) :
    (State.deliverHeld s i).pending = s.pending ∧ (State.deliverHeld s i).epoch = s.epoch ∧
    (State.deliverHeld s i).dramMargin = s.dramMargin ∧ (State.deliverHeld s i).sec = s.sec ∧ (State.deliverHeld s i).ctrs = s.ctrs ∧
    (State.deliverHeld s i).grps = s.grps ∧ (State.deliverHeld s i).thm = s.thm ∧ (State.deliverHeld s i).age = s.age ∧
    (State.deliverHeld s i).cnv = s.cnv ∧ (State.deliverHeld s i).glb = s.glb := by
  have w1 := @State.deliverOne_still; have w2 := @State.setIsl_still; have wf := @foldl_parts
  simp [State.deliverHeld, w1, w2, wf]
theorem State.mapLineLost_still (s : State) (key : Nat) :
    (State.mapLineLost s key).pending = s.pending ∧ (State.mapLineLost s key).free = s.free ∧ (State.mapLineLost s key).host = s.host ∧
    (State.mapLineLost s key).epoch = s.epoch ∧ (State.mapLineLost s key).pat = s.pat ∧ (State.mapLineLost s key).routes = s.routes ∧
    (State.mapLineLost s key).dramMargin = s.dramMargin ∧ (State.mapLineLost s key).ports = s.ports ∧
    (State.mapLineLost s key).trickle = s.trickle ∧ (State.mapLineLost s key).cpx = s.cpx ∧ (State.mapLineLost s key).wvf = s.wvf ∧
    (State.mapLineLost s key).bpm = s.bpm ∧ (State.mapLineLost s key).sec = s.sec ∧ (State.mapLineLost s key).ctrs = s.ctrs ∧
    (State.mapLineLost s key).grps = s.grps ∧ (State.mapLineLost s key).thm = s.thm ∧ (State.mapLineLost s key).age = s.age ∧
    (State.mapLineLost s key).cnv = s.cnv ∧ (State.mapLineLost s key).fwu = s.fwu ∧ (State.mapLineLost s key).glb = s.glb ∧
    (State.mapLineLost s key).sb = s.sb := by
  have w1 := @State.commitMap_still; have w2 := @State.micCnt_still; have wf := @foldl_parts
  simp [State.mapLineLost, w1, w2, wf]
theorem State.flipWrite_still (s : State) (arm cls isl offset mask : Nat) (onCrc : Bool) :
    (State.flipWrite s arm cls isl offset mask onCrc).pending = s.pending ∧
    (State.flipWrite s arm cls isl offset mask onCrc).free = s.free ∧ (State.flipWrite s arm cls isl offset mask onCrc).host = s.host ∧
    (State.flipWrite s arm cls isl offset mask onCrc).epoch = s.epoch ∧ (State.flipWrite s arm cls isl offset mask onCrc).pat = s.pat ∧
    (State.flipWrite s arm cls isl offset mask onCrc).isl = s.isl ∧ (State.flipWrite s arm cls isl offset mask onCrc).routes = s.routes ∧
    (State.flipWrite s arm cls isl offset mask onCrc).dramMargin = s.dramMargin ∧
    (State.flipWrite s arm cls isl offset mask onCrc).ports = s.ports ∧
    (State.flipWrite s arm cls isl offset mask onCrc).trickle = s.trickle ∧ (State.flipWrite s arm cls isl offset mask onCrc).cmd = s.cmd ∧
    (State.flipWrite s arm cls isl offset mask onCrc).zon = s.zon ∧ (State.flipWrite s arm cls isl offset mask onCrc).med = s.med ∧
    (State.flipWrite s arm cls isl offset mask onCrc).mlf = s.mlf ∧ (State.flipWrite s arm cls isl offset mask onCrc).cpx = s.cpx ∧
    (State.flipWrite s arm cls isl offset mask onCrc).wvf = s.wvf ∧ (State.flipWrite s arm cls isl offset mask onCrc).bpm = s.bpm ∧
    (State.flipWrite s arm cls isl offset mask onCrc).sli = s.sli ∧ (State.flipWrite s arm cls isl offset mask onCrc).sec = s.sec ∧
    (State.flipWrite s arm cls isl offset mask onCrc).flt = s.flt ∧ (State.flipWrite s arm cls isl offset mask onCrc).ctrs = s.ctrs ∧
    (State.flipWrite s arm cls isl offset mask onCrc).grps = s.grps ∧ (State.flipWrite s arm cls isl offset mask onCrc).pwr = s.pwr ∧
    (State.flipWrite s arm cls isl offset mask onCrc).thm = s.thm ∧ (State.flipWrite s arm cls isl offset mask onCrc).age = s.age ∧
    (State.flipWrite s arm cls isl offset mask onCrc).cnv = s.cnv ∧ (State.flipWrite s arm cls isl offset mask onCrc).fwu = s.fwu ∧
    (State.flipWrite s arm cls isl offset mask onCrc).glb = s.glb ∧ (State.flipWrite s arm cls isl offset mask onCrc).sb = s.sb := by
  have wi := @ite_parts
  simp [State.flipWrite, wi]
theorem State.endWake_still (s : State) (i : Nat) (src : DState) (cause us : Nat) :
    (State.endWake s i src cause us).pending = s.pending ∧ (State.endWake s i src cause us).epoch = s.epoch ∧
    (State.endWake s i src cause us).dramMargin = s.dramMargin ∧ (State.endWake s i src cause us).sec = s.sec ∧
    (State.endWake s i src cause us).ctrs = s.ctrs ∧ (State.endWake s i src cause us).grps = s.grps ∧
    (State.endWake s i src cause us).thm = s.thm ∧ (State.endWake s i src cause us).age = s.age ∧
    (State.endWake s i src cause us).cnv = s.cnv ∧ (State.endWake s i src cause us).glb = s.glb := by
  have w1 := @State.setIsl_still; have w2 := @State.deliverHeld_still; have w3 := @State.kickMcl_still; have wi := @ite_parts
  simp [State.endWake, w1, w2, w3, wi]
theorem State.floorWrite_still (s : State) (isl v : Nat) :
    (State.floorWrite s isl v).pending = s.pending ∧ (State.floorWrite s isl v).free = s.free ∧ (State.floorWrite s isl v).host = s.host ∧
    (State.floorWrite s isl v).epoch = s.epoch ∧ (State.floorWrite s isl v).pat = s.pat ∧ (State.floorWrite s isl v).routes = s.routes ∧
    (State.floorWrite s isl v).dramMargin = s.dramMargin ∧ (State.floorWrite s isl v).ports = s.ports ∧
    (State.floorWrite s isl v).trickle = s.trickle ∧ (State.floorWrite s isl v).cmd = s.cmd ∧ (State.floorWrite s isl v).zon = s.zon ∧
    (State.floorWrite s isl v).med = s.med ∧ (State.floorWrite s isl v).mlf = s.mlf ∧ (State.floorWrite s isl v).cpx = s.cpx ∧
    (State.floorWrite s isl v).wvf = s.wvf ∧ (State.floorWrite s isl v).bpm = s.bpm ∧ (State.floorWrite s isl v).sli = s.sli ∧
    (State.floorWrite s isl v).sec = s.sec ∧ (State.floorWrite s isl v).mic = s.mic ∧ (State.floorWrite s isl v).flt = s.flt ∧
    (State.floorWrite s isl v).ctrs = s.ctrs ∧ (State.floorWrite s isl v).grps = s.grps ∧ (State.floorWrite s isl v).thm = s.thm ∧
    (State.floorWrite s isl v).age = s.age ∧ (State.floorWrite s isl v).cnv = s.cnv ∧ (State.floorWrite s isl v).fwu = s.fwu ∧
    (State.floorWrite s isl v).glb = s.glb ∧ (State.floorWrite s isl v).sb = s.sb := by
  have w1 := @State.modIsl_still; have w2 := @State.startWake_still; have wi := @ite_parts
  simp [State.floorWrite, w1, w2, wi]
theorem State.keeperRequest_still (s : State) (v : Nat) :
    (State.keeperRequest s v).pending = s.pending ∧ (State.keeperRequest s v).free = s.free ∧ (State.keeperRequest s v).host = s.host ∧
    (State.keeperRequest s v).epoch = s.epoch ∧ (State.keeperRequest s v).pat = s.pat ∧ (State.keeperRequest s v).isl = s.isl ∧
    (State.keeperRequest s v).routes = s.routes ∧ (State.keeperRequest s v).dramMargin = s.dramMargin ∧
    (State.keeperRequest s v).ports = s.ports ∧ (State.keeperRequest s v).trickle = s.trickle ∧ (State.keeperRequest s v).cmd = s.cmd ∧
    (State.keeperRequest s v).zon = s.zon ∧ (State.keeperRequest s v).med = s.med ∧ (State.keeperRequest s v).mlf = s.mlf ∧
    (State.keeperRequest s v).cpx = s.cpx ∧ (State.keeperRequest s v).wvf = s.wvf ∧ (State.keeperRequest s v).bpm = s.bpm ∧
    (State.keeperRequest s v).sli = s.sli ∧ (State.keeperRequest s v).sec = s.sec ∧ (State.keeperRequest s v).mic = s.mic ∧
    (State.keeperRequest s v).flt = s.flt ∧ (State.keeperRequest s v).ctrs = s.ctrs ∧ (State.keeperRequest s v).grps = s.grps ∧
    (State.keeperRequest s v).thm = s.thm ∧ (State.keeperRequest s v).age = s.age ∧ (State.keeperRequest s v).cnv = s.cnv ∧
    (State.keeperRequest s v).fwu = s.fwu ∧ (State.keeperRequest s v).glb = s.glb ∧ (State.keeperRequest s v).sb = s.sb := by
  have wi := @ite_parts
  simp [State.keeperRequest, wi]
theorem State.coldStart_still (s : State) (i : Nat) :
    (State.coldStart s i).pending = s.pending ∧ (State.coldStart s i).epoch = s.epoch ∧ (State.coldStart s i).dramMargin = s.dramMargin ∧
    (State.coldStart s i).ports = s.ports ∧ (State.coldStart s i).trickle = s.trickle ∧ (State.coldStart s i).med = s.med ∧
    (State.coldStart s i).mlf = s.mlf ∧ (State.coldStart s i).wvf = s.wvf ∧ (State.coldStart s i).bpm = s.bpm ∧
    (State.coldStart s i).sec = s.sec ∧ (State.coldStart s i).mic = s.mic ∧ (State.coldStart s i).ctrs = s.ctrs ∧
    (State.coldStart s i).grps = s.grps ∧ (State.coldStart s i).thm = s.thm ∧ (State.coldStart s i).age = s.age ∧
    (State.coldStart s i).cnv = s.cnv ∧ (State.coldStart s i).glb = s.glb := by
  have w1 := @drawNat_still; have w2 := @State.modIsl_still; have w3 := @State.ctlDown_still; have wi := @ite_parts
  simp [State.coldStart, w1, w2, w3, wi]
theorem State.padRelease_still (s : State) (isl v : Nat) :
    (State.padRelease s isl v).pending = s.pending ∧ (State.padRelease s isl v).free = s.free ∧ (State.padRelease s isl v).host = s.host ∧
    (State.padRelease s isl v).epoch = s.epoch ∧ (State.padRelease s isl v).pat = s.pat ∧ (State.padRelease s isl v).routes = s.routes ∧
    (State.padRelease s isl v).dramMargin = s.dramMargin ∧ (State.padRelease s isl v).ports = s.ports ∧
    (State.padRelease s isl v).trickle = s.trickle ∧ (State.padRelease s isl v).cmd = s.cmd ∧ (State.padRelease s isl v).zon = s.zon ∧
    (State.padRelease s isl v).mlf = s.mlf ∧ (State.padRelease s isl v).cpx = s.cpx ∧ (State.padRelease s isl v).wvf = s.wvf ∧
    (State.padRelease s isl v).bpm = s.bpm ∧ (State.padRelease s isl v).sec = s.sec ∧ (State.padRelease s isl v).mic = s.mic ∧
    (State.padRelease s isl v).flt = s.flt ∧ (State.padRelease s isl v).ctrs = s.ctrs ∧ (State.padRelease s isl v).grps = s.grps ∧
    (State.padRelease s isl v).pwr = s.pwr ∧ (State.padRelease s isl v).thm = s.thm ∧ (State.padRelease s isl v).age = s.age ∧
    (State.padRelease s isl v).cnv = s.cnv ∧ (State.padRelease s isl v).fwu = s.fwu ∧ (State.padRelease s isl v).glb = s.glb ∧
    (State.padRelease s isl v).sb = s.sb := by
  have w1 := @State.modIsl_still; have w2 := @State.kickMcl_still; have wi := @ite_parts
  simp [State.padRelease, w1, w2, wi]
theorem State.transfer_still (s : State) (t : Transfer) :
    (State.transfer s t).pending = s.pending ∧ (State.transfer s t).epoch = s.epoch ∧ (State.transfer s t).dramMargin = s.dramMargin ∧
    (State.transfer s t).sec = s.sec ∧ (State.transfer s t).ctrs = s.ctrs ∧ (State.transfer s t).grps = s.grps ∧
    (State.transfer s t).thm = s.thm ∧ (State.transfer s t).age = s.age ∧ (State.transfer s t).cnv = s.cnv ∧
    (State.transfer s t).glb = s.glb := by
  have w1 := @State.refuseTransfer_still; have w2 := @State.access_still; have w3 := @State.deliverOne_still
  have w4 := @State.modIsl_still; have wi := @ite_parts
  simp [State.transfer, w1, w2, w3, w4, wi]
theorem State.capBudgets_still (s : State) (e : PowerEst) :
    (State.capBudgets s e).pending = s.pending ∧ (State.capBudgets s e).free = s.free ∧ (State.capBudgets s e).host = s.host ∧
    (State.capBudgets s e).epoch = s.epoch ∧ (State.capBudgets s e).pat = s.pat ∧ (State.capBudgets s e).routes = s.routes ∧
    (State.capBudgets s e).dramMargin = s.dramMargin ∧ (State.capBudgets s e).ports = s.ports ∧
    (State.capBudgets s e).trickle = s.trickle ∧ (State.capBudgets s e).cmd = s.cmd ∧ (State.capBudgets s e).zon = s.zon ∧
    (State.capBudgets s e).med = s.med ∧ (State.capBudgets s e).mlf = s.mlf ∧ (State.capBudgets s e).cpx = s.cpx ∧
    (State.capBudgets s e).wvf = s.wvf ∧ (State.capBudgets s e).bpm = s.bpm ∧ (State.capBudgets s e).sli = s.sli ∧
    (State.capBudgets s e).sec = s.sec ∧ (State.capBudgets s e).mic = s.mic ∧ (State.capBudgets s e).flt = s.flt ∧
    (State.capBudgets s e).ctrs = s.ctrs ∧ (State.capBudgets s e).grps = s.grps ∧ (State.capBudgets s e).pwr = s.pwr ∧
    (State.capBudgets s e).thm = s.thm ∧ (State.capBudgets s e).age = s.age ∧ (State.capBudgets s e).cnv = s.cnv ∧
    (State.capBudgets s e).fwu = s.fwu ∧ (State.capBudgets s e).glb = s.glb ∧ (State.capBudgets s e).sb = s.sb := by
  have w1 := @State.modIsl_still; have wf := @foldl_parts
  simp [State.capBudgets, w1, wf]
theorem State.takeBudgets_still (s : State) :
    (State.takeBudgets s).pending = s.pending ∧ (State.takeBudgets s).free = s.free ∧ (State.takeBudgets s).host = s.host ∧
    (State.takeBudgets s).epoch = s.epoch ∧ (State.takeBudgets s).pat = s.pat ∧ (State.takeBudgets s).routes = s.routes ∧
    (State.takeBudgets s).dramMargin = s.dramMargin ∧ (State.takeBudgets s).ports = s.ports ∧ (State.takeBudgets s).trickle = s.trickle ∧
    (State.takeBudgets s).cmd = s.cmd ∧ (State.takeBudgets s).zon = s.zon ∧ (State.takeBudgets s).mlf = s.mlf ∧
    (State.takeBudgets s).cpx = s.cpx ∧ (State.takeBudgets s).wvf = s.wvf ∧ (State.takeBudgets s).bpm = s.bpm ∧
    (State.takeBudgets s).sec = s.sec ∧ (State.takeBudgets s).mic = s.mic ∧ (State.takeBudgets s).flt = s.flt ∧
    (State.takeBudgets s).ctrs = s.ctrs ∧ (State.takeBudgets s).grps = s.grps ∧ (State.takeBudgets s).pwr = s.pwr ∧
    (State.takeBudgets s).thm = s.thm ∧ (State.takeBudgets s).age = s.age ∧ (State.takeBudgets s).cnv = s.cnv ∧
    (State.takeBudgets s).fwu = s.fwu ∧ (State.takeBudgets s).glb = s.glb ∧ (State.takeBudgets s).sb = s.sb := by
  have w1 := @State.modIsl_still; have wf := @foldl_parts
  simp [State.takeBudgets, w1, wf]
theorem State.chargeCores_still (s : State) :
    (State.chargeCores s).pending = s.pending ∧ (State.chargeCores s).free = s.free ∧ (State.chargeCores s).host = s.host ∧
    (State.chargeCores s).epoch = s.epoch ∧ (State.chargeCores s).pat = s.pat ∧ (State.chargeCores s).isl = s.isl ∧
    (State.chargeCores s).routes = s.routes ∧ (State.chargeCores s).dramMargin = s.dramMargin ∧ (State.chargeCores s).ports = s.ports ∧
    (State.chargeCores s).trickle = s.trickle ∧ (State.chargeCores s).cmd = s.cmd ∧ (State.chargeCores s).zon = s.zon ∧
    (State.chargeCores s).med = s.med ∧ (State.chargeCores s).mlf = s.mlf ∧ (State.chargeCores s).cpx = s.cpx ∧
    (State.chargeCores s).wvf = s.wvf ∧ (State.chargeCores s).bpm = s.bpm ∧ (State.chargeCores s).sec = s.sec ∧
    (State.chargeCores s).mic = s.mic ∧ (State.chargeCores s).flt = s.flt ∧ (State.chargeCores s).ctrs = s.ctrs ∧
    (State.chargeCores s).grps = s.grps ∧ (State.chargeCores s).pwr = s.pwr ∧ (State.chargeCores s).thm = s.thm ∧
    (State.chargeCores s).age = s.age ∧ (State.chargeCores s).cnv = s.cnv ∧ (State.chargeCores s).fwu = s.fwu ∧
    (State.chargeCores s).glb = s.glb ∧ (State.chargeCores s).sb = s.sb := by
  have w1 := @State.charge_still; have w2 := @State.modSli_still; have wf := @foldl_parts
  have wi := @ite_parts
  simp [State.chargeCores, w1, w2, wf, wi]
theorem State.applyPend_still (s : State) (sl : Nat) :
    (State.applyPend s sl).pending = s.pending ∧ (State.applyPend s sl).free = s.free ∧ (State.applyPend s sl).epoch = s.epoch ∧
    (State.applyPend s sl).pat = s.pat ∧ (State.applyPend s sl).isl = s.isl ∧ (State.applyPend s sl).routes = s.routes ∧
    (State.applyPend s sl).dramMargin = s.dramMargin ∧ (State.applyPend s sl).trickle = s.trickle ∧ (State.applyPend s sl).cmd = s.cmd ∧
    (State.applyPend s sl).zon = s.zon ∧ (State.applyPend s sl).med = s.med ∧ (State.applyPend s sl).mlf = s.mlf ∧
    (State.applyPend s sl).cpx = s.cpx ∧ (State.applyPend s sl).wvf = s.wvf ∧ (State.applyPend s sl).bpm = s.bpm ∧
    (State.applyPend s sl).sec = s.sec ∧ (State.applyPend s sl).mic = s.mic ∧ (State.applyPend s sl).flt = s.flt ∧
    (State.applyPend s sl).ctrs = s.ctrs ∧ (State.applyPend s sl).grps = s.grps ∧ (State.applyPend s sl).pwr = s.pwr ∧
    (State.applyPend s sl).thm = s.thm ∧ (State.applyPend s sl).age = s.age ∧ (State.applyPend s sl).cnv = s.cnv ∧
    (State.applyPend s sl).fwu = s.fwu ∧ (State.applyPend s sl).glb = s.glb ∧ (State.applyPend s sl).sb = s.sb := by
  have wf := @foldl_parts
  have w1 := @State.mbReply_still; have w2 := @State.setSli_still
  unfold State.applyPend; dsimp only; repeat' split
  all_goals simp [*]
theorem State.epochShares_still (s : State) (sl : Nat) :
    (State.epochShares s sl).pending = s.pending ∧ (State.epochShares s sl).free = s.free ∧ (State.epochShares s sl).epoch = s.epoch ∧
    (State.epochShares s sl).pat = s.pat ∧ (State.epochShares s sl).isl = s.isl ∧ (State.epochShares s sl).routes = s.routes ∧
    (State.epochShares s sl).dramMargin = s.dramMargin ∧ (State.epochShares s sl).trickle = s.trickle ∧
    (State.epochShares s sl).cmd = s.cmd ∧ (State.epochShares s sl).zon = s.zon ∧ (State.epochShares s sl).med = s.med ∧
    (State.epochShares s sl).mlf = s.mlf ∧ (State.epochShares s sl).cpx = s.cpx ∧ (State.epochShares s sl).wvf = s.wvf ∧
    (State.epochShares s sl).bpm = s.bpm ∧ (State.epochShares s sl).sec = s.sec ∧ (State.epochShares s sl).mic = s.mic ∧
    (State.epochShares s sl).flt = s.flt ∧ (State.epochShares s sl).ctrs = s.ctrs ∧ (State.epochShares s sl).grps = s.grps ∧
    (State.epochShares s sl).pwr = s.pwr ∧ (State.epochShares s sl).thm = s.thm ∧ (State.epochShares s sl).age = s.age ∧
    (State.epochShares s sl).cnv = s.cnv ∧ (State.epochShares s sl).fwu = s.fwu ∧ (State.epochShares s sl).glb = s.glb ∧
    (State.epochShares s sl).sb = s.sb := by
  have w1 := @State.applyPend_still; have w2 := @State.modSli_still; have w3 := @State.mbNote_still; have wi := @ite_parts
  simp [State.epochShares, w1, w2, w3, wi]
theorem State.giveCredits_still (s : State) :
    (State.giveCredits s).pending = s.pending ∧ (State.giveCredits s).free = s.free ∧ (State.giveCredits s).host = s.host ∧
    (State.giveCredits s).epoch = s.epoch ∧ (State.giveCredits s).pat = s.pat ∧ (State.giveCredits s).isl = s.isl ∧
    (State.giveCredits s).routes = s.routes ∧ (State.giveCredits s).dramMargin = s.dramMargin ∧ (State.giveCredits s).ports = s.ports ∧
    (State.giveCredits s).trickle = s.trickle ∧ (State.giveCredits s).cmd = s.cmd ∧ (State.giveCredits s).zon = s.zon ∧
    (State.giveCredits s).med = s.med ∧ (State.giveCredits s).mlf = s.mlf ∧ (State.giveCredits s).cpx = s.cpx ∧
    (State.giveCredits s).wvf = s.wvf ∧ (State.giveCredits s).bpm = s.bpm ∧ (State.giveCredits s).sec = s.sec ∧
    (State.giveCredits s).mic = s.mic ∧ (State.giveCredits s).flt = s.flt ∧ (State.giveCredits s).ctrs = s.ctrs ∧
    (State.giveCredits s).grps = s.grps ∧ (State.giveCredits s).pwr = s.pwr ∧ (State.giveCredits s).thm = s.thm ∧
    (State.giveCredits s).age = s.age ∧ (State.giveCredits s).cnv = s.cnv ∧ (State.giveCredits s).fwu = s.fwu ∧
    (State.giveCredits s).glb = s.glb ∧ (State.giveCredits s).sb = s.sb := by
  have w1 := @State.modSli_still; have wf := @foldl_parts
  simp [State.giveCredits, w1, wf]
theorem State.minuteEnd_still (s : State) :
    (State.minuteEnd s).pending = s.pending ∧ (State.minuteEnd s).free = s.free ∧ (State.minuteEnd s).host = s.host ∧
    (State.minuteEnd s).epoch = s.epoch ∧ (State.minuteEnd s).pat = s.pat ∧ (State.minuteEnd s).isl = s.isl ∧
    (State.minuteEnd s).routes = s.routes ∧ (State.minuteEnd s).dramMargin = s.dramMargin ∧ (State.minuteEnd s).ports = s.ports ∧
    (State.minuteEnd s).trickle = s.trickle ∧ (State.minuteEnd s).cmd = s.cmd ∧ (State.minuteEnd s).zon = s.zon ∧
    (State.minuteEnd s).med = s.med ∧ (State.minuteEnd s).cpx = s.cpx ∧ (State.minuteEnd s).wvf = s.wvf ∧ (State.minuteEnd s).bpm = s.bpm ∧
    (State.minuteEnd s).sli = s.sli ∧ (State.minuteEnd s).sec = s.sec ∧ (State.minuteEnd s).mic = s.mic ∧ (State.minuteEnd s).flt = s.flt ∧
    (State.minuteEnd s).ctrs = s.ctrs ∧ (State.minuteEnd s).grps = s.grps ∧ (State.minuteEnd s).pwr = s.pwr ∧
    (State.minuteEnd s).age = s.age ∧ (State.minuteEnd s).cnv = s.cnv ∧ (State.minuteEnd s).fwu = s.fwu ∧ (State.minuteEnd s).glb = s.glb ∧
    (State.minuteEnd s).sb = s.sb := by
  have wi := @ite_parts
  simp [State.minuteEnd, wi]
theorem State.noteHot_still (s : State) (t : Int) :
    (State.noteHot s t).pending = s.pending ∧ (State.noteHot s t).free = s.free ∧ (State.noteHot s t).host = s.host ∧
    (State.noteHot s t).epoch = s.epoch ∧ (State.noteHot s t).pat = s.pat ∧ (State.noteHot s t).isl = s.isl ∧
    (State.noteHot s t).routes = s.routes ∧ (State.noteHot s t).dramMargin = s.dramMargin ∧ (State.noteHot s t).ports = s.ports ∧
    (State.noteHot s t).trickle = s.trickle ∧ (State.noteHot s t).cmd = s.cmd ∧ (State.noteHot s t).zon = s.zon ∧
    (State.noteHot s t).med = s.med ∧ (State.noteHot s t).cpx = s.cpx ∧ (State.noteHot s t).wvf = s.wvf ∧ (State.noteHot s t).bpm = s.bpm ∧
    (State.noteHot s t).sli = s.sli ∧ (State.noteHot s t).sec = s.sec ∧ (State.noteHot s t).mic = s.mic ∧ (State.noteHot s t).flt = s.flt ∧
    (State.noteHot s t).ctrs = s.ctrs ∧ (State.noteHot s t).grps = s.grps ∧ (State.noteHot s t).pwr = s.pwr ∧
    (State.noteHot s t).thm = s.thm ∧ (State.noteHot s t).age = s.age ∧ (State.noteHot s t).cnv = s.cnv ∧ (State.noteHot s t).fwu = s.fwu ∧
    (State.noteHot s t).glb = s.glb ∧ (State.noteHot s t).sb = s.sb := by
  simp [State.noteHot]
theorem State.convert_still (s : State) (k : Nat) (r : Reading) :
    (State.convert s k r).pending = s.pending ∧ (State.convert s k r).epoch = s.epoch ∧ (State.convert s k r).dramMargin = s.dramMargin ∧
    (State.convert s k r).sec = s.sec ∧ (State.convert s k r).ctrs = s.ctrs ∧ (State.convert s k r).grps = s.grps ∧
    (State.convert s k r).age = s.age ∧ (State.convert s k r).cnv = s.cnv ∧ (State.convert s k r).glb = s.glb := by
  have w1 := @State.setSensor_still; have w2 := @State.sensorFails_still; have w3 := @State.compareAll_still
  have w4 := @State.noteHot_still; have w5 := @State.shutdownCheck_still; have wi := @ite_parts
  unfold State.convert
  all_goals simp [*]
theorem State.thermWake_still (s old : State) :
    (State.thermWake s old).pending = s.pending ∧ (State.thermWake s old).free = s.free ∧ (State.thermWake s old).host = s.host ∧
    (State.thermWake s old).epoch = s.epoch ∧ (State.thermWake s old).pat = s.pat ∧ (State.thermWake s old).routes = s.routes ∧
    (State.thermWake s old).dramMargin = s.dramMargin ∧ (State.thermWake s old).ports = s.ports ∧
    (State.thermWake s old).trickle = s.trickle ∧ (State.thermWake s old).cmd = s.cmd ∧ (State.thermWake s old).zon = s.zon ∧
    (State.thermWake s old).med = s.med ∧ (State.thermWake s old).mlf = s.mlf ∧ (State.thermWake s old).cpx = s.cpx ∧
    (State.thermWake s old).wvf = s.wvf ∧ (State.thermWake s old).bpm = s.bpm ∧ (State.thermWake s old).sli = s.sli ∧
    (State.thermWake s old).sec = s.sec ∧ (State.thermWake s old).mic = s.mic ∧ (State.thermWake s old).flt = s.flt ∧
    (State.thermWake s old).ctrs = s.ctrs ∧ (State.thermWake s old).grps = s.grps ∧ (State.thermWake s old).thm = s.thm ∧
    (State.thermWake s old).age = s.age ∧ (State.thermWake s old).cnv = s.cnv ∧ (State.thermWake s old).fwu = s.fwu ∧
    (State.thermWake s old).glb = s.glb ∧ (State.thermWake s old).sb = s.sb := by
  have w1 := @State.wakeEvent_still; have wi := @ite_parts
  simp [State.thermWake, w1, wi]
theorem State.retestWrite_still (s : State) (k v : Nat) :
    (State.retestWrite s k v).pending = s.pending ∧ (State.retestWrite s k v).free = s.free ∧ (State.retestWrite s k v).host = s.host ∧
    (State.retestWrite s k v).epoch = s.epoch ∧ (State.retestWrite s k v).pat = s.pat ∧ (State.retestWrite s k v).isl = s.isl ∧
    (State.retestWrite s k v).routes = s.routes ∧ (State.retestWrite s k v).dramMargin = s.dramMargin ∧
    (State.retestWrite s k v).ports = s.ports ∧ (State.retestWrite s k v).trickle = s.trickle ∧ (State.retestWrite s k v).cmd = s.cmd ∧
    (State.retestWrite s k v).zon = s.zon ∧ (State.retestWrite s k v).med = s.med ∧ (State.retestWrite s k v).mlf = s.mlf ∧
    (State.retestWrite s k v).cpx = s.cpx ∧ (State.retestWrite s k v).wvf = s.wvf ∧ (State.retestWrite s k v).bpm = s.bpm ∧
    (State.retestWrite s k v).sli = s.sli ∧ (State.retestWrite s k v).sec = s.sec ∧ (State.retestWrite s k v).mic = s.mic ∧
    (State.retestWrite s k v).flt = s.flt ∧ (State.retestWrite s k v).ctrs = s.ctrs ∧ (State.retestWrite s k v).grps = s.grps ∧
    (State.retestWrite s k v).pwr = s.pwr ∧ (State.retestWrite s k v).age = s.age ∧ (State.retestWrite s k v).cnv = s.cnv ∧
    (State.retestWrite s k v).fwu = s.fwu ∧ (State.retestWrite s k v).glb = s.glb ∧ (State.retestWrite s k v).sb = s.sb := by
  have w1 := @State.setSensor_still; have wi := @ite_parts
  simp [State.retestWrite, w1, wi]
theorem State.marginNow_still (s : State) (i x : Nat) :
    (State.marginNow s i x).2.pending = s.pending ∧ (State.marginNow s i x).2.host = s.host ∧ (State.marginNow s i x).2.epoch = s.epoch ∧
    (State.marginNow s i x).2.pat = s.pat ∧ (State.marginNow s i x).2.isl = s.isl ∧ (State.marginNow s i x).2.routes = s.routes ∧
    (State.marginNow s i x).2.dramMargin = s.dramMargin ∧ (State.marginNow s i x).2.ports = s.ports ∧
    (State.marginNow s i x).2.trickle = s.trickle ∧ (State.marginNow s i x).2.cmd = s.cmd ∧ (State.marginNow s i x).2.zon = s.zon ∧
    (State.marginNow s i x).2.med = s.med ∧ (State.marginNow s i x).2.mlf = s.mlf ∧ (State.marginNow s i x).2.cpx = s.cpx ∧
    (State.marginNow s i x).2.wvf = s.wvf ∧ (State.marginNow s i x).2.bpm = s.bpm ∧ (State.marginNow s i x).2.sli = s.sli ∧
    (State.marginNow s i x).2.sec = s.sec ∧ (State.marginNow s i x).2.mic = s.mic ∧ (State.marginNow s i x).2.flt = s.flt ∧
    (State.marginNow s i x).2.ctrs = s.ctrs ∧ (State.marginNow s i x).2.grps = s.grps ∧ (State.marginNow s i x).2.pwr = s.pwr ∧
    (State.marginNow s i x).2.thm = s.thm ∧ (State.marginNow s i x).2.age = s.age ∧ (State.marginNow s i x).2.cnv = s.cnv ∧
    (State.marginNow s i x).2.fwu = s.fwu ∧ (State.marginNow s i x).2.glb = s.glb ∧ (State.marginNow s i x).2.sb = s.sb := by
  have w1 := @drawNat_still
  unfold State.marginNow; split <;> simp [w1]
theorem lowerBelow_still (f : Nat) (l : List (Nat × Nat)) (s : State) : 
    (lowerBelow f l s).2.pending = s.pending ∧ (lowerBelow f l s).2.host = s.host ∧ (lowerBelow f l s).2.epoch = s.epoch ∧
    (lowerBelow f l s).2.pat = s.pat ∧ (lowerBelow f l s).2.isl = s.isl ∧ (lowerBelow f l s).2.routes = s.routes ∧
    (lowerBelow f l s).2.dramMargin = s.dramMargin ∧ (lowerBelow f l s).2.ports = s.ports ∧ (lowerBelow f l s).2.trickle = s.trickle ∧
    (lowerBelow f l s).2.cmd = s.cmd ∧ (lowerBelow f l s).2.zon = s.zon ∧ (lowerBelow f l s).2.med = s.med ∧
    (lowerBelow f l s).2.mlf = s.mlf ∧ (lowerBelow f l s).2.cpx = s.cpx ∧ (lowerBelow f l s).2.wvf = s.wvf ∧
    (lowerBelow f l s).2.bpm = s.bpm ∧ (lowerBelow f l s).2.sli = s.sli ∧ (lowerBelow f l s).2.sec = s.sec ∧
    (lowerBelow f l s).2.mic = s.mic ∧ (lowerBelow f l s).2.flt = s.flt ∧ (lowerBelow f l s).2.ctrs = s.ctrs ∧
    (lowerBelow f l s).2.grps = s.grps ∧ (lowerBelow f l s).2.pwr = s.pwr ∧ (lowerBelow f l s).2.thm = s.thm ∧
    (lowerBelow f l s).2.age = s.age ∧ (lowerBelow f l s).2.cnv = s.cnv ∧ (lowerBelow f l s).2.fwu = s.fwu ∧
    (lowerBelow f l s).2.glb = s.glb ∧ (lowerBelow f l s).2.sb = s.sb := by
  have w1 := @drawNat_still
  induction l generalizing f s with
  | nil => simp [lowerBelow, *]
  | cons a t ih => unfold lowerBelow; split <;> simp [*]
theorem planStep_still (patF vmin vmax : Nat) (fixed : Bool) (p : Nat) (a : PlanRun × State) (x : Nat) : 
    (planStep patF vmin vmax fixed p a x).2.pending = a.2.pending ∧ (planStep patF vmin vmax fixed p a x).2.host = a.2.host ∧
    (planStep patF vmin vmax fixed p a x).2.epoch = a.2.epoch ∧ (planStep patF vmin vmax fixed p a x).2.pat = a.2.pat ∧
    (planStep patF vmin vmax fixed p a x).2.isl = a.2.isl ∧ (planStep patF vmin vmax fixed p a x).2.routes = a.2.routes ∧
    (planStep patF vmin vmax fixed p a x).2.dramMargin = a.2.dramMargin ∧ (planStep patF vmin vmax fixed p a x).2.ports = a.2.ports ∧
    (planStep patF vmin vmax fixed p a x).2.trickle = a.2.trickle ∧ (planStep patF vmin vmax fixed p a x).2.cmd = a.2.cmd ∧
    (planStep patF vmin vmax fixed p a x).2.zon = a.2.zon ∧ (planStep patF vmin vmax fixed p a x).2.med = a.2.med ∧
    (planStep patF vmin vmax fixed p a x).2.mlf = a.2.mlf ∧ (planStep patF vmin vmax fixed p a x).2.cpx = a.2.cpx ∧
    (planStep patF vmin vmax fixed p a x).2.wvf = a.2.wvf ∧ (planStep patF vmin vmax fixed p a x).2.bpm = a.2.bpm ∧
    (planStep patF vmin vmax fixed p a x).2.sli = a.2.sli ∧ (planStep patF vmin vmax fixed p a x).2.sec = a.2.sec ∧
    (planStep patF vmin vmax fixed p a x).2.mic = a.2.mic ∧ (planStep patF vmin vmax fixed p a x).2.flt = a.2.flt ∧
    (planStep patF vmin vmax fixed p a x).2.ctrs = a.2.ctrs ∧ (planStep patF vmin vmax fixed p a x).2.grps = a.2.grps ∧
    (planStep patF vmin vmax fixed p a x).2.pwr = a.2.pwr ∧ (planStep patF vmin vmax fixed p a x).2.thm = a.2.thm ∧
    (planStep patF vmin vmax fixed p a x).2.age = a.2.age ∧ (planStep patF vmin vmax fixed p a x).2.cnv = a.2.cnv ∧
    (planStep patF vmin vmax fixed p a x).2.fwu = a.2.fwu ∧ (planStep patF vmin vmax fixed p a x).2.glb = a.2.glb ∧
    (planStep patF vmin vmax fixed p a x).2.sb = a.2.sb := by
  have w1 := @lowerBelow_still
  unfold planStep; dsimp only; repeat' split
  all_goals simp [w1]
theorem State.planIsland_still (s : State) (m : PlanMeas) (i : Nat) :
    (State.planIsland s m i).pending = s.pending ∧ (State.planIsland s m i).host = s.host ∧ (State.planIsland s m i).epoch = s.epoch ∧
    (State.planIsland s m i).pat = s.pat ∧ (State.planIsland s m i).isl = s.isl ∧ (State.planIsland s m i).routes = s.routes ∧
    (State.planIsland s m i).dramMargin = s.dramMargin ∧ (State.planIsland s m i).ports = s.ports ∧
    (State.planIsland s m i).trickle = s.trickle ∧ (State.planIsland s m i).cmd = s.cmd ∧ (State.planIsland s m i).zon = s.zon ∧
    (State.planIsland s m i).med = s.med ∧ (State.planIsland s m i).mlf = s.mlf ∧ (State.planIsland s m i).cpx = s.cpx ∧
    (State.planIsland s m i).wvf = s.wvf ∧ (State.planIsland s m i).bpm = s.bpm ∧ (State.planIsland s m i).sli = s.sli ∧
    (State.planIsland s m i).sec = s.sec ∧ (State.planIsland s m i).mic = s.mic ∧ (State.planIsland s m i).ctrs = s.ctrs ∧
    (State.planIsland s m i).grps = s.grps ∧ (State.planIsland s m i).pwr = s.pwr ∧ (State.planIsland s m i).thm = s.thm ∧
    (State.planIsland s m i).cnv = s.cnv ∧ (State.planIsland s m i).fwu = s.fwu ∧ (State.planIsland s m i).sb = s.sb := by
  have w1 := @planStep_still; have w2 := @State.noteClamp_still; have w3 := @State.marginNow_still
  have w4 := @State.queueFault_still; have wf := @foldl_parts; have wp := @foldl_snd_parts; have wi := @ite_parts
  unfold State.planIsland; repeat' split
  all_goals simp [*]
theorem State.adoptPlan_still (s : State) (old : Plan) :
    (State.adoptPlan s old).pending = s.pending ∧ (State.adoptPlan s old).free = s.free ∧ (State.adoptPlan s old).host = s.host ∧
    (State.adoptPlan s old).epoch = s.epoch ∧ (State.adoptPlan s old).isl = s.isl ∧ (State.adoptPlan s old).routes = s.routes ∧
    (State.adoptPlan s old).dramMargin = s.dramMargin ∧ (State.adoptPlan s old).ports = s.ports ∧
    (State.adoptPlan s old).trickle = s.trickle ∧ (State.adoptPlan s old).cmd = s.cmd ∧ (State.adoptPlan s old).zon = s.zon ∧
    (State.adoptPlan s old).med = s.med ∧ (State.adoptPlan s old).mlf = s.mlf ∧ (State.adoptPlan s old).cpx = s.cpx ∧
    (State.adoptPlan s old).wvf = s.wvf ∧ (State.adoptPlan s old).bpm = s.bpm ∧ (State.adoptPlan s old).sli = s.sli ∧
    (State.adoptPlan s old).sec = s.sec ∧ (State.adoptPlan s old).mic = s.mic ∧ (State.adoptPlan s old).flt = s.flt ∧
    (State.adoptPlan s old).ctrs = s.ctrs ∧ (State.adoptPlan s old).grps = s.grps ∧ (State.adoptPlan s old).pwr = s.pwr ∧
    (State.adoptPlan s old).thm = s.thm ∧ (State.adoptPlan s old).cnv = s.cnv ∧ (State.adoptPlan s old).fwu = s.fwu ∧
    (State.adoptPlan s old).sb = s.sb := by
  have w1 := @State.lowerVdd_still; have wi := @ite_parts
  simp [State.adoptPlan, w1, wi]
theorem State.replan_still (s : State) (m : PlanMeas) :
    (State.replan s m).pending = s.pending ∧ (State.replan s m).host = s.host ∧ (State.replan s m).epoch = s.epoch ∧
    (State.replan s m).isl = s.isl ∧ (State.replan s m).routes = s.routes ∧ (State.replan s m).dramMargin = s.dramMargin ∧
    (State.replan s m).ports = s.ports ∧ (State.replan s m).trickle = s.trickle ∧ (State.replan s m).cmd = s.cmd ∧
    (State.replan s m).zon = s.zon ∧ (State.replan s m).med = s.med ∧ (State.replan s m).mlf = s.mlf ∧ (State.replan s m).cpx = s.cpx ∧
    (State.replan s m).wvf = s.wvf ∧ (State.replan s m).bpm = s.bpm ∧ (State.replan s m).sli = s.sli ∧ (State.replan s m).sec = s.sec ∧
    (State.replan s m).mic = s.mic ∧ (State.replan s m).ctrs = s.ctrs ∧ (State.replan s m).grps = s.grps ∧ (State.replan s m).pwr = s.pwr ∧
    (State.replan s m).thm = s.thm ∧ (State.replan s m).cnv = s.cnv ∧ (State.replan s m).fwu = s.fwu ∧ (State.replan s m).sb = s.sb := by
  have w1 := @State.planIsland_still; have w2 := @State.adoptPlan_still; have wf := @foldl_parts
  have wi := @ite_parts
  simp [State.replan, w1, w2, wf, wi]
theorem State.planRun_still (s : State) (m : PlanMeas) :
    (State.planRun s m).2.pending = s.pending ∧ (State.planRun s m).2.host = s.host ∧ (State.planRun s m).2.epoch = s.epoch ∧
    (State.planRun s m).2.isl = s.isl ∧ (State.planRun s m).2.routes = s.routes ∧ (State.planRun s m).2.dramMargin = s.dramMargin ∧
    (State.planRun s m).2.ports = s.ports ∧ (State.planRun s m).2.trickle = s.trickle ∧ (State.planRun s m).2.cmd = s.cmd ∧
    (State.planRun s m).2.zon = s.zon ∧ (State.planRun s m).2.med = s.med ∧ (State.planRun s m).2.mlf = s.mlf ∧
    (State.planRun s m).2.cpx = s.cpx ∧ (State.planRun s m).2.wvf = s.wvf ∧ (State.planRun s m).2.bpm = s.bpm ∧
    (State.planRun s m).2.sli = s.sli ∧ (State.planRun s m).2.sec = s.sec ∧ (State.planRun s m).2.mic = s.mic ∧
    (State.planRun s m).2.ctrs = s.ctrs ∧ (State.planRun s m).2.grps = s.grps ∧ (State.planRun s m).2.pwr = s.pwr ∧
    (State.planRun s m).2.thm = s.thm ∧ (State.planRun s m).2.cnv = s.cnv ∧ (State.planRun s m).2.fwu = s.fwu ∧
    (State.planRun s m).2.sb = s.sb := by
  have w1 := @State.replan_still
  unfold State.planRun; repeat' split
  all_goals simp [*]

end Sys2Proof.Machine
end

