-- ==== Sys2Proof/Laws/FrameAdmin.lean ====
section
/-! SUPPORT. What the operations of admin commands, updates and the Pattern leave unchanged: one lemma per operation, which names every part of the state that it keeps. -/

namespace Sys2Proof.Machine

theorem State.withdrawAdmin_still (s : State) (c : Nat) :
    (State.withdrawAdmin s c).pending = s.pending ∧ (State.withdrawAdmin s c).free = s.free ∧ (State.withdrawAdmin s c).host = s.host ∧
    (State.withdrawAdmin s c).epoch = s.epoch ∧ (State.withdrawAdmin s c).routes = s.routes ∧
    (State.withdrawAdmin s c).dramMargin = s.dramMargin ∧ (State.withdrawAdmin s c).ports = s.ports ∧
    (State.withdrawAdmin s c).trickle = s.trickle ∧ (State.withdrawAdmin s c).med = s.med ∧ (State.withdrawAdmin s c).mlf = s.mlf ∧
    (State.withdrawAdmin s c).wvf = s.wvf ∧ (State.withdrawAdmin s c).bpm = s.bpm ∧ (State.withdrawAdmin s c).sec = s.sec ∧
    (State.withdrawAdmin s c).mic = s.mic ∧ (State.withdrawAdmin s c).flt = s.flt ∧ (State.withdrawAdmin s c).ctrs = s.ctrs ∧
    (State.withdrawAdmin s c).grps = s.grps ∧ (State.withdrawAdmin s c).thm = s.thm ∧ (State.withdrawAdmin s c).age = s.age ∧
    (State.withdrawAdmin s c).cnv = s.cnv ∧ (State.withdrawAdmin s c).glb = s.glb ∧ (State.withdrawAdmin s c).sb = s.sb := by
  have w1 := @State.dropWaiter_still
  simp [State.withdrawAdmin, w1]
theorem State.abortCtx_still (s : State) (t : Nat) :
    (State.abortCtx s t).pending = s.pending ∧ (State.abortCtx s t).host = s.host ∧ (State.abortCtx s t).epoch = s.epoch ∧
    (State.abortCtx s t).dramMargin = s.dramMargin ∧ (State.abortCtx s t).ports = s.ports ∧ (State.abortCtx s t).trickle = s.trickle ∧
    (State.abortCtx s t).mlf = s.mlf ∧ (State.abortCtx s t).sec = s.sec ∧ (State.abortCtx s t).ctrs = s.ctrs ∧
    (State.abortCtx s t).grps = s.grps ∧ (State.abortCtx s t).thm = s.thm ∧ (State.abortCtx s t).age = s.age ∧
    (State.abortCtx s t).cnv = s.cnv ∧ (State.abortCtx s t).glb = s.glb ∧ (State.abortCtx s t).sb = s.sb := by
  have w1 := @State.withdrawAdmin_still; have w2 := @State.sqCnt_still; have w3 := @State.finish_still
  have w4 := @State.squashAbort_still; have wi := @ite_parts
  simp [State.abortCtx, w1, w2, w3, w4, wi]
theorem State.createCq_still (s : State) (x : Ctx) :
    (State.createCq s x).pending = s.pending ∧ (State.createCq s x).free = s.free ∧ (State.createCq s x).host = s.host ∧
    (State.createCq s x).epoch = s.epoch ∧ (State.createCq s x).pat = s.pat ∧ (State.createCq s x).isl = s.isl ∧
    (State.createCq s x).routes = s.routes ∧ (State.createCq s x).dramMargin = s.dramMargin ∧ (State.createCq s x).ports = s.ports ∧
    (State.createCq s x).trickle = s.trickle ∧ (State.createCq s x).zon = s.zon ∧ (State.createCq s x).med = s.med ∧
    (State.createCq s x).mlf = s.mlf ∧ (State.createCq s x).cpx = s.cpx ∧ (State.createCq s x).wvf = s.wvf ∧
    (State.createCq s x).bpm = s.bpm ∧ (State.createCq s x).sli = s.sli ∧ (State.createCq s x).sec = s.sec ∧
    (State.createCq s x).mic = s.mic ∧ (State.createCq s x).flt = s.flt ∧ (State.createCq s x).ctrs = s.ctrs ∧
    (State.createCq s x).grps = s.grps ∧ (State.createCq s x).pwr = s.pwr ∧ (State.createCq s x).thm = s.thm ∧
    (State.createCq s x).age = s.age ∧ (State.createCq s x).cnv = s.cnv ∧ (State.createCq s x).fwu = s.fwu ∧
    (State.createCq s x).glb = s.glb ∧ (State.createCq s x).sb = s.sb := by
  have w1 := @State.modQueue_still; have w2 := @State.bumpQ_still
  simp [State.createCq, w1, w2]
theorem State.createSq_still (s : State) (x : Ctx) :
    (State.createSq s x).pending = s.pending ∧ (State.createSq s x).free = s.free ∧ (State.createSq s x).host = s.host ∧
    (State.createSq s x).epoch = s.epoch ∧ (State.createSq s x).pat = s.pat ∧ (State.createSq s x).isl = s.isl ∧
    (State.createSq s x).routes = s.routes ∧ (State.createSq s x).dramMargin = s.dramMargin ∧ (State.createSq s x).ports = s.ports ∧
    (State.createSq s x).trickle = s.trickle ∧ (State.createSq s x).zon = s.zon ∧ (State.createSq s x).med = s.med ∧
    (State.createSq s x).mlf = s.mlf ∧ (State.createSq s x).cpx = s.cpx ∧ (State.createSq s x).wvf = s.wvf ∧
    (State.createSq s x).bpm = s.bpm ∧ (State.createSq s x).sli = s.sli ∧ (State.createSq s x).sec = s.sec ∧
    (State.createSq s x).mic = s.mic ∧ (State.createSq s x).flt = s.flt ∧ (State.createSq s x).ctrs = s.ctrs ∧
    (State.createSq s x).grps = s.grps ∧ (State.createSq s x).pwr = s.pwr ∧ (State.createSq s x).thm = s.thm ∧
    (State.createSq s x).age = s.age ∧ (State.createSq s x).cnv = s.cnv ∧ (State.createSq s x).fwu = s.fwu ∧
    (State.createSq s x).glb = s.glb ∧ (State.createSq s x).sb = s.sb := by
  have w1 := @State.bumpQ_still; have w2 := @State.modQueue_still; have w3 := @State.setOq_still
  unfold State.createSq; dsimp only; repeat' split
  all_goals simp [*]
theorem State.dropIndex_still (s : State) (k : Nat) :
    (State.dropIndex s k).pending = s.pending ∧ (State.dropIndex s k).free = s.free ∧ (State.dropIndex s k).host = s.host ∧
    (State.dropIndex s k).epoch = s.epoch ∧ (State.dropIndex s k).pat = s.pat ∧ (State.dropIndex s k).isl = s.isl ∧
    (State.dropIndex s k).routes = s.routes ∧ (State.dropIndex s k).dramMargin = s.dramMargin ∧ (State.dropIndex s k).ports = s.ports ∧
    (State.dropIndex s k).trickle = s.trickle ∧ (State.dropIndex s k).zon = s.zon ∧ (State.dropIndex s k).med = s.med ∧
    (State.dropIndex s k).mlf = s.mlf ∧ (State.dropIndex s k).cpx = s.cpx ∧ (State.dropIndex s k).wvf = s.wvf ∧
    (State.dropIndex s k).bpm = s.bpm ∧ (State.dropIndex s k).sli = s.sli ∧ (State.dropIndex s k).sec = s.sec ∧
    (State.dropIndex s k).mic = s.mic ∧ (State.dropIndex s k).flt = s.flt ∧ (State.dropIndex s k).ctrs = s.ctrs ∧
    (State.dropIndex s k).grps = s.grps ∧ (State.dropIndex s k).pwr = s.pwr ∧ (State.dropIndex s k).thm = s.thm ∧
    (State.dropIndex s k).age = s.age ∧ (State.dropIndex s k).cnv = s.cnv ∧ (State.dropIndex s k).fwu = s.fwu ∧
    (State.dropIndex s k).glb = s.glb ∧ (State.dropIndex s k).sb = s.sb := by
  have wi := @ite_parts
  simp [State.dropIndex, wi]
theorem State.dropSq_still (s : State) (k : Nat) :
    (State.dropSq s k).pending = s.pending ∧ (State.dropSq s k).free = s.free ∧ (State.dropSq s k).host = s.host ∧
    (State.dropSq s k).epoch = s.epoch ∧ (State.dropSq s k).pat = s.pat ∧ (State.dropSq s k).isl = s.isl ∧
    (State.dropSq s k).routes = s.routes ∧ (State.dropSq s k).dramMargin = s.dramMargin ∧ (State.dropSq s k).ports = s.ports ∧
    (State.dropSq s k).trickle = s.trickle ∧ (State.dropSq s k).zon = s.zon ∧ (State.dropSq s k).med = s.med ∧
    (State.dropSq s k).mlf = s.mlf ∧ (State.dropSq s k).cpx = s.cpx ∧ (State.dropSq s k).wvf = s.wvf ∧ (State.dropSq s k).bpm = s.bpm ∧
    (State.dropSq s k).sli = s.sli ∧ (State.dropSq s k).sec = s.sec ∧ (State.dropSq s k).mic = s.mic ∧ (State.dropSq s k).flt = s.flt ∧
    (State.dropSq s k).ctrs = s.ctrs ∧ (State.dropSq s k).grps = s.grps ∧ (State.dropSq s k).pwr = s.pwr ∧ (State.dropSq s k).thm = s.thm ∧
    (State.dropSq s k).age = s.age ∧ (State.dropSq s k).cnv = s.cnv ∧ (State.dropSq s k).fwu = s.fwu ∧ (State.dropSq s k).glb = s.glb ∧
    (State.dropSq s k).sb = s.sb := by
  have w1 := @State.bumpQ_still; have w2 := @State.dropIndex_still; have w3 := @State.setOq_still
  have w4 := @State.setQueue_still
  unfold State.dropSq; dsimp only; repeat' split
  all_goals simp [*]
theorem State.featStore_still (s : State) (k : Nat) (f : Ctrl → Ctrl) :
    (State.featStore s k f).2.pending = s.pending ∧ (State.featStore s k f).2.free = s.free ∧ (State.featStore s k f).2.host = s.host ∧
    (State.featStore s k f).2.epoch = s.epoch ∧ (State.featStore s k f).2.pat = s.pat ∧ (State.featStore s k f).2.isl = s.isl ∧
    (State.featStore s k f).2.routes = s.routes ∧ (State.featStore s k f).2.dramMargin = s.dramMargin ∧
    (State.featStore s k f).2.ports = s.ports ∧ (State.featStore s k f).2.trickle = s.trickle ∧ (State.featStore s k f).2.zon = s.zon ∧
    (State.featStore s k f).2.med = s.med ∧ (State.featStore s k f).2.mlf = s.mlf ∧ (State.featStore s k f).2.cpx = s.cpx ∧
    (State.featStore s k f).2.wvf = s.wvf ∧ (State.featStore s k f).2.bpm = s.bpm ∧ (State.featStore s k f).2.sli = s.sli ∧
    (State.featStore s k f).2.sec = s.sec ∧ (State.featStore s k f).2.mic = s.mic ∧ (State.featStore s k f).2.flt = s.flt ∧
    (State.featStore s k f).2.ctrs = s.ctrs ∧ (State.featStore s k f).2.grps = s.grps ∧ (State.featStore s k f).2.pwr = s.pwr ∧
    (State.featStore s k f).2.thm = s.thm ∧ (State.featStore s k f).2.age = s.age ∧ (State.featStore s k f).2.cnv = s.cnv ∧
    (State.featStore s k f).2.fwu = s.fwu ∧ (State.featStore s k f).2.glb = s.glb ∧ (State.featStore s k f).2.sb = s.sb := by
  have w1 := @State.modCtrl_still
  simp [State.featStore, w1]
theorem State.setThreshold_still (s : State) (k d : Nat) :
    (State.setThreshold s k d).2.pending = s.pending ∧ (State.setThreshold s k d).2.free = s.free ∧
    (State.setThreshold s k d).2.host = s.host ∧ (State.setThreshold s k d).2.epoch = s.epoch ∧ (State.setThreshold s k d).2.pat = s.pat ∧
    (State.setThreshold s k d).2.isl = s.isl ∧ (State.setThreshold s k d).2.routes = s.routes ∧
    (State.setThreshold s k d).2.dramMargin = s.dramMargin ∧ (State.setThreshold s k d).2.ports = s.ports ∧
    (State.setThreshold s k d).2.trickle = s.trickle ∧ (State.setThreshold s k d).2.zon = s.zon ∧
    (State.setThreshold s k d).2.med = s.med ∧ (State.setThreshold s k d).2.cpx = s.cpx ∧ (State.setThreshold s k d).2.wvf = s.wvf ∧
    (State.setThreshold s k d).2.bpm = s.bpm ∧ (State.setThreshold s k d).2.sli = s.sli ∧ (State.setThreshold s k d).2.sec = s.sec ∧
    (State.setThreshold s k d).2.mic = s.mic ∧ (State.setThreshold s k d).2.flt = s.flt ∧ (State.setThreshold s k d).2.ctrs = s.ctrs ∧
    (State.setThreshold s k d).2.grps = s.grps ∧ (State.setThreshold s k d).2.pwr = s.pwr ∧ (State.setThreshold s k d).2.age = s.age ∧
    (State.setThreshold s k d).2.cnv = s.cnv ∧ (State.setThreshold s k d).2.fwu = s.fwu ∧ (State.setThreshold s k d).2.glb = s.glb ∧
    (State.setThreshold s k d).2.sb = s.sb := by
  have w1 := @State.thresholdCheck_still
  unfold State.setThreshold; dsimp only; repeat' split
  all_goals simp [*]
theorem State.setFdp_still (s : State) (q : Sqe) :
    (State.setFdp s q).2.pending = s.pending ∧ (State.setFdp s q).2.free = s.free ∧ (State.setFdp s q).2.host = s.host ∧
    (State.setFdp s q).2.epoch = s.epoch ∧ (State.setFdp s q).2.pat = s.pat ∧ (State.setFdp s q).2.isl = s.isl ∧
    (State.setFdp s q).2.routes = s.routes ∧ (State.setFdp s q).2.dramMargin = s.dramMargin ∧ (State.setFdp s q).2.ports = s.ports ∧
    (State.setFdp s q).2.trickle = s.trickle ∧ (State.setFdp s q).2.cmd = s.cmd ∧ (State.setFdp s q).2.med = s.med ∧
    (State.setFdp s q).2.mlf = s.mlf ∧ (State.setFdp s q).2.cpx = s.cpx ∧ (State.setFdp s q).2.wvf = s.wvf ∧
    (State.setFdp s q).2.bpm = s.bpm ∧ (State.setFdp s q).2.sli = s.sli ∧ (State.setFdp s q).2.sec = s.sec ∧
    (State.setFdp s q).2.mic = s.mic ∧ (State.setFdp s q).2.flt = s.flt ∧ (State.setFdp s q).2.ctrs = s.ctrs ∧
    (State.setFdp s q).2.grps = s.grps ∧ (State.setFdp s q).2.pwr = s.pwr ∧ (State.setFdp s q).2.thm = s.thm ∧
    (State.setFdp s q).2.age = s.age ∧ (State.setFdp s q).2.cnv = s.cnv ∧ (State.setFdp s q).2.fwu = s.fwu ∧
    (State.setFdp s q).2.glb = s.glb ∧ (State.setFdp s q).2.sb = s.sb := by
  unfold State.setFdp; repeat' split
  all_goals simp [*]
theorem State.setFdpEvents_still (s : State) (q : Sqe) (data : List Byte) :
    (State.setFdpEvents s q data).2.pending = s.pending ∧ (State.setFdpEvents s q data).2.free = s.free ∧
    (State.setFdpEvents s q data).2.host = s.host ∧ (State.setFdpEvents s q data).2.epoch = s.epoch ∧
    (State.setFdpEvents s q data).2.pat = s.pat ∧ (State.setFdpEvents s q data).2.isl = s.isl ∧
    (State.setFdpEvents s q data).2.routes = s.routes ∧ (State.setFdpEvents s q data).2.dramMargin = s.dramMargin ∧
    (State.setFdpEvents s q data).2.ports = s.ports ∧ (State.setFdpEvents s q data).2.trickle = s.trickle ∧
    (State.setFdpEvents s q data).2.cmd = s.cmd ∧ (State.setFdpEvents s q data).2.med = s.med ∧
    (State.setFdpEvents s q data).2.mlf = s.mlf ∧ (State.setFdpEvents s q data).2.cpx = s.cpx ∧
    (State.setFdpEvents s q data).2.wvf = s.wvf ∧ (State.setFdpEvents s q data).2.bpm = s.bpm ∧
    (State.setFdpEvents s q data).2.sli = s.sli ∧ (State.setFdpEvents s q data).2.sec = s.sec ∧
    (State.setFdpEvents s q data).2.mic = s.mic ∧ (State.setFdpEvents s q data).2.flt = s.flt ∧
    (State.setFdpEvents s q data).2.ctrs = s.ctrs ∧ (State.setFdpEvents s q data).2.grps = s.grps ∧
    (State.setFdpEvents s q data).2.pwr = s.pwr ∧ (State.setFdpEvents s q data).2.thm = s.thm ∧
    (State.setFdpEvents s q data).2.age = s.age ∧ (State.setFdpEvents s q data).2.cnv = s.cnv ∧
    (State.setFdpEvents s q data).2.fwu = s.fwu ∧ (State.setFdpEvents s q data).2.glb = s.glb ∧ (State.setFdpEvents s q data).2.sb = s.sb := by
  unfold State.setFdpEvents; dsimp only; repeat' split
  all_goals simp [*]
theorem State.setQueues_still (s : State) (k slice port d : Nat) :
    (State.setQueues s k slice port d).2.pending = s.pending ∧ (State.setQueues s k slice port d).2.free = s.free ∧
    (State.setQueues s k slice port d).2.host = s.host ∧ (State.setQueues s k slice port d).2.epoch = s.epoch ∧
    (State.setQueues s k slice port d).2.pat = s.pat ∧ (State.setQueues s k slice port d).2.isl = s.isl ∧
    (State.setQueues s k slice port d).2.routes = s.routes ∧ (State.setQueues s k slice port d).2.dramMargin = s.dramMargin ∧
    (State.setQueues s k slice port d).2.ports = s.ports ∧ (State.setQueues s k slice port d).2.trickle = s.trickle ∧
    (State.setQueues s k slice port d).2.zon = s.zon ∧ (State.setQueues s k slice port d).2.med = s.med ∧
    (State.setQueues s k slice port d).2.mlf = s.mlf ∧ (State.setQueues s k slice port d).2.cpx = s.cpx ∧
    (State.setQueues s k slice port d).2.wvf = s.wvf ∧ (State.setQueues s k slice port d).2.bpm = s.bpm ∧
    (State.setQueues s k slice port d).2.sli = s.sli ∧ (State.setQueues s k slice port d).2.sec = s.sec ∧
    (State.setQueues s k slice port d).2.mic = s.mic ∧ (State.setQueues s k slice port d).2.flt = s.flt ∧
    (State.setQueues s k slice port d).2.ctrs = s.ctrs ∧ (State.setQueues s k slice port d).2.grps = s.grps ∧
    (State.setQueues s k slice port d).2.pwr = s.pwr ∧ (State.setQueues s k slice port d).2.thm = s.thm ∧
    (State.setQueues s k slice port d).2.age = s.age ∧ (State.setQueues s k slice port d).2.cnv = s.cnv ∧
    (State.setQueues s k slice port d).2.fwu = s.fwu ∧ (State.setQueues s k slice port d).2.glb = s.glb ∧
    (State.setQueues s k slice port d).2.sb = s.sb := by
  have w1 := @State.modCtrl_still
  unfold State.setQueues; repeat' split
  all_goals simp [*]
theorem State.setFeature_still (s : State) (slice port : Nat) (q : Sqe) (data : List Byte) :
    (State.setFeature s slice port q data).2.pending = s.pending ∧ (State.setFeature s slice port q data).2.free = s.free ∧
    (State.setFeature s slice port q data).2.host = s.host ∧ (State.setFeature s slice port q data).2.epoch = s.epoch ∧
    (State.setFeature s slice port q data).2.pat = s.pat ∧ (State.setFeature s slice port q data).2.isl = s.isl ∧
    (State.setFeature s slice port q data).2.routes = s.routes ∧ (State.setFeature s slice port q data).2.dramMargin = s.dramMargin ∧
    (State.setFeature s slice port q data).2.ports = s.ports ∧ (State.setFeature s slice port q data).2.trickle = s.trickle ∧
    (State.setFeature s slice port q data).2.med = s.med ∧ (State.setFeature s slice port q data).2.cpx = s.cpx ∧
    (State.setFeature s slice port q data).2.wvf = s.wvf ∧ (State.setFeature s slice port q data).2.bpm = s.bpm ∧
    (State.setFeature s slice port q data).2.sec = s.sec ∧ (State.setFeature s slice port q data).2.mic = s.mic ∧
    (State.setFeature s slice port q data).2.flt = s.flt ∧ (State.setFeature s slice port q data).2.ctrs = s.ctrs ∧
    (State.setFeature s slice port q data).2.grps = s.grps ∧ (State.setFeature s slice port q data).2.pwr = s.pwr ∧
    (State.setFeature s slice port q data).2.age = s.age ∧ (State.setFeature s slice port q data).2.cnv = s.cnv ∧
    (State.setFeature s slice port q data).2.fwu = s.fwu ∧ (State.setFeature s slice port q data).2.glb = s.glb ∧
    (State.setFeature s slice port q data).2.sb = s.sb := by
  have w1 := @State.featStore_still; have w2 := @State.modSli_still; have w3 := @State.setFdpEvents_still
  have w4 := @State.setFdp_still; have w5 := @State.setQueues_still; have w6 := @State.setThreshold_still
  unfold State.setFeature; dsimp only; repeat' split
  all_goals simp [*]
theorem State.enterPower_still (s : State) (w : Waiter) (k ps fseq fetched : Nat) :
    (State.enterPower s w k ps fseq fetched).pending = s.pending ∧ (State.enterPower s w k ps fseq fetched).free = s.free ∧
    (State.enterPower s w k ps fseq fetched).host = s.host ∧ (State.enterPower s w k ps fseq fetched).epoch = s.epoch ∧
    (State.enterPower s w k ps fseq fetched).pat = s.pat ∧ (State.enterPower s w k ps fseq fetched).routes = s.routes ∧
    (State.enterPower s w k ps fseq fetched).dramMargin = s.dramMargin ∧ (State.enterPower s w k ps fseq fetched).ports = s.ports ∧
    (State.enterPower s w k ps fseq fetched).trickle = s.trickle ∧ (State.enterPower s w k ps fseq fetched).zon = s.zon ∧
    (State.enterPower s w k ps fseq fetched).med = s.med ∧ (State.enterPower s w k ps fseq fetched).mlf = s.mlf ∧
    (State.enterPower s w k ps fseq fetched).cpx = s.cpx ∧ (State.enterPower s w k ps fseq fetched).wvf = s.wvf ∧
    (State.enterPower s w k ps fseq fetched).bpm = s.bpm ∧ (State.enterPower s w k ps fseq fetched).sli = s.sli ∧
    (State.enterPower s w k ps fseq fetched).sec = s.sec ∧ (State.enterPower s w k ps fseq fetched).mic = s.mic ∧
    (State.enterPower s w k ps fseq fetched).flt = s.flt ∧ (State.enterPower s w k ps fseq fetched).ctrs = s.ctrs ∧
    (State.enterPower s w k ps fseq fetched).grps = s.grps ∧ (State.enterPower s w k ps fseq fetched).thm = s.thm ∧
    (State.enterPower s w k ps fseq fetched).age = s.age ∧ (State.enterPower s w k ps fseq fetched).cnv = s.cnv ∧
    (State.enterPower s w k ps fseq fetched).fwu = s.fwu ∧ (State.enterPower s w k ps fseq fetched).glb = s.glb ∧
    (State.enterPower s w k ps fseq fetched).sb = s.sb := by
  have w1 := @State.modCtrl_still; have w2 := @State.liftFloors_still
  simp [State.enterPower, w1, w2]
theorem State.setFeatures_still (s : State) (w : Waiter) (slice port : Nat) (q : Sqe) (data : List Byte) (fseq fetched : Nat) {r : State} (e : State.setFeatures s w slice port q data fseq fetched = some r) :
    r.pending = s.pending ∧ r.free = s.free ∧ r.epoch = s.epoch ∧ r.pat = s.pat ∧ r.routes = s.routes ∧ r.dramMargin = s.dramMargin ∧
    r.ports = s.ports ∧ r.trickle = s.trickle ∧ r.med = s.med ∧ r.cpx = s.cpx ∧ r.wvf = s.wvf ∧ r.bpm = s.bpm ∧ r.sec = s.sec ∧
    r.mic = s.mic ∧ r.flt = s.flt ∧ r.ctrs = s.ctrs ∧ r.grps = s.grps ∧ r.age = s.age ∧ r.cnv = s.cnv ∧ r.fwu = s.fwu ∧ r.glb = s.glb := by
  have w1 := @State.answer_still; have w2 := @State.enterPower_still; have w3 := @State.setFeature_still
  unfold State.setFeatures at e; dsimp only at e; split at e
  · cases e; simp [w1]
  · split at e
    · cases e; simp [w1]
    · split at e
      · split at e
        · cases e; simp [w1]
        · split at e
          · cases e
          · injection e with e; subst e; simp [w2]
      · cases e; simp [w1, w3]
theorem State.log02_still (s : State) (slice k : Nat) :
    (State.log02 s slice k).2.pending = s.pending ∧ (State.log02 s slice k).2.host = s.host ∧ (State.log02 s slice k).2.epoch = s.epoch ∧
    (State.log02 s slice k).2.pat = s.pat ∧ (State.log02 s slice k).2.isl = s.isl ∧ (State.log02 s slice k).2.routes = s.routes ∧
    (State.log02 s slice k).2.dramMargin = s.dramMargin ∧ (State.log02 s slice k).2.ports = s.ports ∧
    (State.log02 s slice k).2.trickle = s.trickle ∧ (State.log02 s slice k).2.cmd = s.cmd ∧ (State.log02 s slice k).2.zon = s.zon ∧
    (State.log02 s slice k).2.med = s.med ∧ (State.log02 s slice k).2.mlf = s.mlf ∧ (State.log02 s slice k).2.cpx = s.cpx ∧
    (State.log02 s slice k).2.wvf = s.wvf ∧ (State.log02 s slice k).2.bpm = s.bpm ∧ (State.log02 s slice k).2.sli = s.sli ∧
    (State.log02 s slice k).2.sec = s.sec ∧ (State.log02 s slice k).2.mic = s.mic ∧ (State.log02 s slice k).2.flt = s.flt ∧
    (State.log02 s slice k).2.ctrs = s.ctrs ∧ (State.log02 s slice k).2.grps = s.grps ∧ (State.log02 s slice k).2.pwr = s.pwr ∧
    (State.log02 s slice k).2.thm = s.thm ∧ (State.log02 s slice k).2.age = s.age ∧ (State.log02 s slice k).2.cnv = s.cnv ∧
    (State.log02 s slice k).2.fwu = s.fwu ∧ (State.log02 s slice k).2.glb = s.glb ∧ (State.log02 s slice k).2.sb = s.sb := by
  have w1 := @drawNat_still
  simp [State.log02, w1]
theorem State.log09_still (s : State) (q : Nat) :
    (State.log09 s q).2.pending = s.pending ∧ (State.log09 s q).2.host = s.host ∧ (State.log09 s q).2.epoch = s.epoch ∧
    (State.log09 s q).2.pat = s.pat ∧ (State.log09 s q).2.isl = s.isl ∧ (State.log09 s q).2.routes = s.routes ∧
    (State.log09 s q).2.dramMargin = s.dramMargin ∧ (State.log09 s q).2.ports = s.ports ∧ (State.log09 s q).2.trickle = s.trickle ∧
    (State.log09 s q).2.cmd = s.cmd ∧ (State.log09 s q).2.zon = s.zon ∧ (State.log09 s q).2.med = s.med ∧ (State.log09 s q).2.mlf = s.mlf ∧
    (State.log09 s q).2.cpx = s.cpx ∧ (State.log09 s q).2.wvf = s.wvf ∧ (State.log09 s q).2.bpm = s.bpm ∧ (State.log09 s q).2.sli = s.sli ∧
    (State.log09 s q).2.sec = s.sec ∧ (State.log09 s q).2.mic = s.mic ∧ (State.log09 s q).2.flt = s.flt ∧
    (State.log09 s q).2.ctrs = s.ctrs ∧ (State.log09 s q).2.grps = s.grps ∧ (State.log09 s q).2.pwr = s.pwr ∧
    (State.log09 s q).2.thm = s.thm ∧ (State.log09 s q).2.age = s.age ∧ (State.log09 s q).2.cnv = s.cnv ∧ (State.log09 s q).2.fwu = s.fwu ∧
    (State.log09 s q).2.glb = s.glb ∧ (State.log09 s q).2.sb = s.sb := by
  have w1 := @drawNat_still
  simp [State.log09, w1]
theorem State.logData_still (s : State) (slice port : Nat) (q : Sqe) :
    (State.logData s slice port q).2.pending = s.pending ∧ (State.logData s slice port q).2.host = s.host ∧
    (State.logData s slice port q).2.epoch = s.epoch ∧ (State.logData s slice port q).2.pat = s.pat ∧
    (State.logData s slice port q).2.isl = s.isl ∧ (State.logData s slice port q).2.routes = s.routes ∧
    (State.logData s slice port q).2.dramMargin = s.dramMargin ∧ (State.logData s slice port q).2.ports = s.ports ∧
    (State.logData s slice port q).2.trickle = s.trickle ∧ (State.logData s slice port q).2.cmd = s.cmd ∧
    (State.logData s slice port q).2.zon = s.zon ∧ (State.logData s slice port q).2.med = s.med ∧
    (State.logData s slice port q).2.mlf = s.mlf ∧ (State.logData s slice port q).2.cpx = s.cpx ∧
    (State.logData s slice port q).2.wvf = s.wvf ∧ (State.logData s slice port q).2.bpm = s.bpm ∧
    (State.logData s slice port q).2.sli = s.sli ∧ (State.logData s slice port q).2.sec = s.sec ∧
    (State.logData s slice port q).2.mic = s.mic ∧ (State.logData s slice port q).2.flt = s.flt ∧
    (State.logData s slice port q).2.ctrs = s.ctrs ∧ (State.logData s slice port q).2.grps = s.grps ∧
    (State.logData s slice port q).2.pwr = s.pwr ∧ (State.logData s slice port q).2.thm = s.thm ∧
    (State.logData s slice port q).2.age = s.age ∧ (State.logData s slice port q).2.cnv = s.cnv ∧
    (State.logData s slice port q).2.fwu = s.fwu ∧ (State.logData s slice port q).2.glb = s.glb ∧
    (State.logData s slice port q).2.sb = s.sb := by
  have w1 := @State.log02_still; have w2 := @State.log09_still
  unfold State.logData; repeat' split
  all_goals simp [*]
theorem State.logSeen_still (s : State) (slice port : Nat) (q : Sqe) :
    (State.logSeen s slice port q).pending = s.pending ∧ (State.logSeen s slice port q).free = s.free ∧
    (State.logSeen s slice port q).host = s.host ∧ (State.logSeen s slice port q).epoch = s.epoch ∧
    (State.logSeen s slice port q).pat = s.pat ∧ (State.logSeen s slice port q).isl = s.isl ∧
    (State.logSeen s slice port q).routes = s.routes ∧ (State.logSeen s slice port q).dramMargin = s.dramMargin ∧
    (State.logSeen s slice port q).ports = s.ports ∧ (State.logSeen s slice port q).trickle = s.trickle ∧
    (State.logSeen s slice port q).med = s.med ∧ (State.logSeen s slice port q).mlf = s.mlf ∧ (State.logSeen s slice port q).cpx = s.cpx ∧
    (State.logSeen s slice port q).wvf = s.wvf ∧ (State.logSeen s slice port q).bpm = s.bpm ∧ (State.logSeen s slice port q).sli = s.sli ∧
    (State.logSeen s slice port q).sec = s.sec ∧ (State.logSeen s slice port q).mic = s.mic ∧ (State.logSeen s slice port q).flt = s.flt ∧
    (State.logSeen s slice port q).ctrs = s.ctrs ∧ (State.logSeen s slice port q).grps = s.grps ∧
    (State.logSeen s slice port q).pwr = s.pwr ∧ (State.logSeen s slice port q).thm = s.thm ∧ (State.logSeen s slice port q).age = s.age ∧
    (State.logSeen s slice port q).cnv = s.cnv ∧ (State.logSeen s slice port q).fwu = s.fwu ∧ (State.logSeen s slice port q).glb = s.glb ∧
    (State.logSeen s slice port q).sb = s.sb := by
  have w1 := @State.modCtrl_still; have w2 := @State.giveAen_still; have wi := @ite_parts
  simp [State.logSeen, w1, w2, wi]
theorem State.getLogPart_still (s : State) (slice port : Nat) (q : Sqe) (len off : Nat) :
    (State.getLogPart s slice port q len off).2.2.pending = s.pending ∧ (State.getLogPart s slice port q len off).2.2.host = s.host ∧
    (State.getLogPart s slice port q len off).2.2.epoch = s.epoch ∧ (State.getLogPart s slice port q len off).2.2.pat = s.pat ∧
    (State.getLogPart s slice port q len off).2.2.isl = s.isl ∧ (State.getLogPart s slice port q len off).2.2.routes = s.routes ∧
    (State.getLogPart s slice port q len off).2.2.dramMargin = s.dramMargin ∧
    (State.getLogPart s slice port q len off).2.2.ports = s.ports ∧ (State.getLogPart s slice port q len off).2.2.trickle = s.trickle ∧
    (State.getLogPart s slice port q len off).2.2.med = s.med ∧ (State.getLogPart s slice port q len off).2.2.mlf = s.mlf ∧
    (State.getLogPart s slice port q len off).2.2.cpx = s.cpx ∧ (State.getLogPart s slice port q len off).2.2.wvf = s.wvf ∧
    (State.getLogPart s slice port q len off).2.2.bpm = s.bpm ∧ (State.getLogPart s slice port q len off).2.2.sli = s.sli ∧
    (State.getLogPart s slice port q len off).2.2.sec = s.sec ∧ (State.getLogPart s slice port q len off).2.2.mic = s.mic ∧
    (State.getLogPart s slice port q len off).2.2.flt = s.flt ∧ (State.getLogPart s slice port q len off).2.2.ctrs = s.ctrs ∧
    (State.getLogPart s slice port q len off).2.2.grps = s.grps ∧ (State.getLogPart s slice port q len off).2.2.pwr = s.pwr ∧
    (State.getLogPart s slice port q len off).2.2.thm = s.thm ∧ (State.getLogPart s slice port q len off).2.2.age = s.age ∧
    (State.getLogPart s slice port q len off).2.2.cnv = s.cnv ∧ (State.getLogPart s slice port q len off).2.2.fwu = s.fwu ∧
    (State.getLogPart s slice port q len off).2.2.glb = s.glb ∧ (State.getLogPart s slice port q len off).2.2.sb = s.sb := by
  have w1 := @State.logData_still; have w2 := @State.logSeen_still
  unfold State.getLogPart; split
  · simp [*]
  · dsimp only; generalize (if off % 4 = 0 then (s.logData slice port q).1.cut off len else none) = p
    cases p <;> simp [*]
theorem State.getLog_still (s : State) (slice port : Nat) (q : Sqe) :
    (State.getLog s slice port q).2.2.pending = s.pending ∧ (State.getLog s slice port q).2.2.host = s.host ∧
    (State.getLog s slice port q).2.2.epoch = s.epoch ∧ (State.getLog s slice port q).2.2.pat = s.pat ∧
    (State.getLog s slice port q).2.2.isl = s.isl ∧ (State.getLog s slice port q).2.2.routes = s.routes ∧
    (State.getLog s slice port q).2.2.dramMargin = s.dramMargin ∧ (State.getLog s slice port q).2.2.ports = s.ports ∧
    (State.getLog s slice port q).2.2.trickle = s.trickle ∧ (State.getLog s slice port q).2.2.med = s.med ∧
    (State.getLog s slice port q).2.2.mlf = s.mlf ∧ (State.getLog s slice port q).2.2.cpx = s.cpx ∧
    (State.getLog s slice port q).2.2.wvf = s.wvf ∧ (State.getLog s slice port q).2.2.bpm = s.bpm ∧
    (State.getLog s slice port q).2.2.sli = s.sli ∧ (State.getLog s slice port q).2.2.sec = s.sec ∧
    (State.getLog s slice port q).2.2.mic = s.mic ∧ (State.getLog s slice port q).2.2.flt = s.flt ∧
    (State.getLog s slice port q).2.2.ctrs = s.ctrs ∧ (State.getLog s slice port q).2.2.grps = s.grps ∧
    (State.getLog s slice port q).2.2.pwr = s.pwr ∧ (State.getLog s slice port q).2.2.thm = s.thm ∧
    (State.getLog s slice port q).2.2.age = s.age ∧ (State.getLog s slice port q).2.2.cnv = s.cnv ∧
    (State.getLog s slice port q).2.2.fwu = s.fwu ∧ (State.getLog s slice port q).2.2.glb = s.glb ∧
    (State.getLog s slice port q).2.2.sb = s.sb := by
  have w1 := @State.getLogPart_still
  simp [State.getLog, w1]
theorem State.takeSlot_still (s : State) (cls : Nat) :
    (State.takeSlot s cls).2.pending = s.pending ∧ (State.takeSlot s cls).2.free = s.free ∧ (State.takeSlot s cls).2.host = s.host ∧
    (State.takeSlot s cls).2.epoch = s.epoch ∧ (State.takeSlot s cls).2.pat = s.pat ∧ (State.takeSlot s cls).2.isl = s.isl ∧
    (State.takeSlot s cls).2.routes = s.routes ∧ (State.takeSlot s cls).2.dramMargin = s.dramMargin ∧
    (State.takeSlot s cls).2.ports = s.ports ∧ (State.takeSlot s cls).2.trickle = s.trickle ∧ (State.takeSlot s cls).2.cmd = s.cmd ∧
    (State.takeSlot s cls).2.zon = s.zon ∧ (State.takeSlot s cls).2.med = s.med ∧ (State.takeSlot s cls).2.mlf = s.mlf ∧
    (State.takeSlot s cls).2.cpx = s.cpx ∧ (State.takeSlot s cls).2.wvf = s.wvf ∧ (State.takeSlot s cls).2.bpm = s.bpm ∧
    (State.takeSlot s cls).2.sli = s.sli ∧ (State.takeSlot s cls).2.mic = s.mic ∧ (State.takeSlot s cls).2.flt = s.flt ∧
    (State.takeSlot s cls).2.ctrs = s.ctrs ∧ (State.takeSlot s cls).2.grps = s.grps ∧ (State.takeSlot s cls).2.pwr = s.pwr ∧
    (State.takeSlot s cls).2.thm = s.thm ∧ (State.takeSlot s cls).2.age = s.age ∧ (State.takeSlot s cls).2.cnv = s.cnv ∧
    (State.takeSlot s cls).2.fwu = s.fwu ∧ (State.takeSlot s cls).2.glb = s.glb ∧ (State.takeSlot s cls).2.sb = s.sb := by
  unfold State.takeSlot; repeat' split
  all_goals simp [*]
theorem State.createNs_still (s : State) (port : Nat) (b : NsCreate) (n : Nat) :
    (State.createNs s port b n).pending = s.pending ∧ (State.createNs s port b n).free = s.free ∧
    (State.createNs s port b n).host = s.host ∧ (State.createNs s port b n).epoch = s.epoch ∧ (State.createNs s port b n).pat = s.pat ∧
    (State.createNs s port b n).isl = s.isl ∧ (State.createNs s port b n).routes = s.routes ∧
    (State.createNs s port b n).dramMargin = s.dramMargin ∧ (State.createNs s port b n).ports = s.ports ∧
    (State.createNs s port b n).trickle = s.trickle ∧ (State.createNs s port b n).cmd = s.cmd ∧ (State.createNs s port b n).med = s.med ∧
    (State.createNs s port b n).mlf = s.mlf ∧ (State.createNs s port b n).cpx = s.cpx ∧ (State.createNs s port b n).wvf = s.wvf ∧
    (State.createNs s port b n).bpm = s.bpm ∧ (State.createNs s port b n).sli = s.sli ∧ (State.createNs s port b n).mic = s.mic ∧
    (State.createNs s port b n).flt = s.flt ∧ (State.createNs s port b n).ctrs = s.ctrs ∧ (State.createNs s port b n).grps = s.grps ∧
    (State.createNs s port b n).pwr = s.pwr ∧ (State.createNs s port b n).thm = s.thm ∧ (State.createNs s port b n).age = s.age ∧
    (State.createNs s port b n).cnv = s.cnv ∧ (State.createNs s port b n).fwu = s.fwu ∧ (State.createNs s port b n).glb = s.glb ∧
    (State.createNs s port b n).sb = s.sb := by
  have w1 := @State.takeSlot_still; have w2 := @State.setNs_still
  simp [State.createNs, w1, w2]
theorem State.dropOwnWaiters_still (s : State) (n : Nat) :
    (State.dropOwnWaiters s n).pending = s.pending ∧ (State.dropOwnWaiters s n).free = s.free ∧
    (State.dropOwnWaiters s n).epoch = s.epoch ∧ (State.dropOwnWaiters s n).pat = s.pat ∧ (State.dropOwnWaiters s n).isl = s.isl ∧
    (State.dropOwnWaiters s n).routes = s.routes ∧ (State.dropOwnWaiters s n).dramMargin = s.dramMargin ∧
    (State.dropOwnWaiters s n).ports = s.ports ∧ (State.dropOwnWaiters s n).trickle = s.trickle ∧ (State.dropOwnWaiters s n).med = s.med ∧
    (State.dropOwnWaiters s n).mlf = s.mlf ∧ (State.dropOwnWaiters s n).cpx = s.cpx ∧ (State.dropOwnWaiters s n).wvf = s.wvf ∧
    (State.dropOwnWaiters s n).bpm = s.bpm ∧ (State.dropOwnWaiters s n).sli = s.sli ∧ (State.dropOwnWaiters s n).sec = s.sec ∧
    (State.dropOwnWaiters s n).mic = s.mic ∧ (State.dropOwnWaiters s n).flt = s.flt ∧ (State.dropOwnWaiters s n).ctrs = s.ctrs ∧
    (State.dropOwnWaiters s n).grps = s.grps ∧ (State.dropOwnWaiters s n).pwr = s.pwr ∧ (State.dropOwnWaiters s n).thm = s.thm ∧
    (State.dropOwnWaiters s n).age = s.age ∧ (State.dropOwnWaiters s n).cnv = s.cnv ∧ (State.dropOwnWaiters s n).fwu = s.fwu ∧
    (State.dropOwnWaiters s n).glb = s.glb := by
  have w1 := @State.answer_still; have w2 := @State.modNs_still
  unfold State.dropOwnWaiters; dsimp only; repeat' split
  all_goals simp [*]
theorem State.eraseNs_still (s : State) (n : Nat) :
    (State.eraseNs s n).pending = s.pending ∧ (State.eraseNs s n).free = s.free ∧ (State.eraseNs s n).host = s.host ∧
    (State.eraseNs s n).epoch = s.epoch ∧ (State.eraseNs s n).pat = s.pat ∧ (State.eraseNs s n).isl = s.isl ∧
    (State.eraseNs s n).routes = s.routes ∧ (State.eraseNs s n).dramMargin = s.dramMargin ∧ (State.eraseNs s n).ports = s.ports ∧
    (State.eraseNs s n).trickle = s.trickle ∧ (State.eraseNs s n).cpx = s.cpx ∧ (State.eraseNs s n).wvf = s.wvf ∧
    (State.eraseNs s n).bpm = s.bpm ∧ (State.eraseNs s n).sec = s.sec ∧ (State.eraseNs s n).mic = s.mic ∧ (State.eraseNs s n).flt = s.flt ∧
    (State.eraseNs s n).ctrs = s.ctrs ∧ (State.eraseNs s n).grps = s.grps ∧ (State.eraseNs s n).pwr = s.pwr ∧
    (State.eraseNs s n).thm = s.thm ∧ (State.eraseNs s n).age = s.age ∧ (State.eraseNs s n).cnv = s.cnv ∧ (State.eraseNs s n).fwu = s.fwu ∧
    (State.eraseNs s n).glb = s.glb ∧ (State.eraseNs s n).sb = s.sb := by
  have w1 := @State.dropNsRelocs_still; have w2 := @State.cometCancel_still; have w3 := @State.clearZone_still
  have w4 := @State.rollback_still; have w5 := @State.dropNsRows_still; have wf := @foldl_parts
  have wi := @ite_parts
  simp [State.eraseNs, w1, w2, w3, w4, w5, wf, wi]
theorem State.rekey_still (s : State) (k : Nat) :
    (State.rekey s k).pending = s.pending ∧ (State.rekey s k).free = s.free ∧ (State.rekey s k).host = s.host ∧
    (State.rekey s k).epoch = s.epoch ∧ (State.rekey s k).pat = s.pat ∧ (State.rekey s k).isl = s.isl ∧
    (State.rekey s k).routes = s.routes ∧ (State.rekey s k).dramMargin = s.dramMargin ∧ (State.rekey s k).ports = s.ports ∧
    (State.rekey s k).trickle = s.trickle ∧ (State.rekey s k).cmd = s.cmd ∧ (State.rekey s k).zon = s.zon ∧ (State.rekey s k).med = s.med ∧
    (State.rekey s k).mlf = s.mlf ∧ (State.rekey s k).cpx = s.cpx ∧ (State.rekey s k).wvf = s.wvf ∧ (State.rekey s k).bpm = s.bpm ∧
    (State.rekey s k).sli = s.sli ∧ (State.rekey s k).mic = s.mic ∧ (State.rekey s k).flt = s.flt ∧ (State.rekey s k).ctrs = s.ctrs ∧
    (State.rekey s k).grps = s.grps ∧ (State.rekey s k).pwr = s.pwr ∧ (State.rekey s k).thm = s.thm ∧ (State.rekey s k).age = s.age ∧
    (State.rekey s k).cnv = s.cnv ∧ (State.rekey s k).fwu = s.fwu ∧ (State.rekey s k).glb = s.glb ∧ (State.rekey s k).sb = s.sb := by
  simp [State.rekey]
theorem State.miSet_still (s : State) (id v : Nat) :
    (State.miSet s id v).2.pending = s.pending ∧ (State.miSet s id v).2.free = s.free ∧ (State.miSet s id v).2.host = s.host ∧
    (State.miSet s id v).2.epoch = s.epoch ∧ (State.miSet s id v).2.pat = s.pat ∧ (State.miSet s id v).2.isl = s.isl ∧
    (State.miSet s id v).2.routes = s.routes ∧ (State.miSet s id v).2.dramMargin = s.dramMargin ∧ (State.miSet s id v).2.ports = s.ports ∧
    (State.miSet s id v).2.trickle = s.trickle ∧ (State.miSet s id v).2.cmd = s.cmd ∧ (State.miSet s id v).2.zon = s.zon ∧
    (State.miSet s id v).2.med = s.med ∧ (State.miSet s id v).2.mlf = s.mlf ∧ (State.miSet s id v).2.cpx = s.cpx ∧
    (State.miSet s id v).2.wvf = s.wvf ∧ (State.miSet s id v).2.bpm = s.bpm ∧ (State.miSet s id v).2.sli = s.sli ∧
    (State.miSet s id v).2.sec = s.sec ∧ (State.miSet s id v).2.mic = s.mic ∧ (State.miSet s id v).2.flt = s.flt ∧
    (State.miSet s id v).2.ctrs = s.ctrs ∧ (State.miSet s id v).2.grps = s.grps ∧ (State.miSet s id v).2.pwr = s.pwr ∧
    (State.miSet s id v).2.thm = s.thm ∧ (State.miSet s id v).2.age = s.age ∧ (State.miSet s id v).2.cnv = s.cnv ∧
    (State.miSet s id v).2.fwu = s.fwu ∧ (State.miSet s id v).2.glb = s.glb := by
  unfold State.miSet; repeat' split
  all_goals simp [*]
theorem State.miRun_still (s : State) (m : SbMsg) :
    (State.miRun s m).2.2.pending = s.pending ∧ (State.miRun s m).2.2.free = s.free ∧ (State.miRun s m).2.2.host = s.host ∧
    (State.miRun s m).2.2.epoch = s.epoch ∧ (State.miRun s m).2.2.pat = s.pat ∧ (State.miRun s m).2.2.isl = s.isl ∧
    (State.miRun s m).2.2.routes = s.routes ∧ (State.miRun s m).2.2.dramMargin = s.dramMargin ∧ (State.miRun s m).2.2.ports = s.ports ∧
    (State.miRun s m).2.2.trickle = s.trickle ∧ (State.miRun s m).2.2.cmd = s.cmd ∧ (State.miRun s m).2.2.zon = s.zon ∧
    (State.miRun s m).2.2.med = s.med ∧ (State.miRun s m).2.2.mlf = s.mlf ∧ (State.miRun s m).2.2.cpx = s.cpx ∧
    (State.miRun s m).2.2.wvf = s.wvf ∧ (State.miRun s m).2.2.bpm = s.bpm ∧ (State.miRun s m).2.2.sli = s.sli ∧
    (State.miRun s m).2.2.sec = s.sec ∧ (State.miRun s m).2.2.mic = s.mic ∧ (State.miRun s m).2.2.flt = s.flt ∧
    (State.miRun s m).2.2.ctrs = s.ctrs ∧ (State.miRun s m).2.2.grps = s.grps ∧ (State.miRun s m).2.2.pwr = s.pwr ∧
    (State.miRun s m).2.2.thm = s.thm ∧ (State.miRun s m).2.2.age = s.age ∧ (State.miRun s m).2.2.cnv = s.cnv ∧
    (State.miRun s m).2.2.fwu = s.fwu ∧ (State.miRun s m).2.2.glb = s.glb := by
  have w1 := @State.miSet_still
  unfold State.miRun; repeat' split
  all_goals simp [*]
theorem State.refuseSeq_still (s : State) (b code : Nat) :
    (State.refuseSeq s b code).pending = s.pending ∧ (State.refuseSeq s b code).free = s.free ∧ (State.refuseSeq s b code).host = s.host ∧
    (State.refuseSeq s b code).epoch = s.epoch ∧ (State.refuseSeq s b code).pat = s.pat ∧ (State.refuseSeq s b code).isl = s.isl ∧
    (State.refuseSeq s b code).routes = s.routes ∧ (State.refuseSeq s b code).dramMargin = s.dramMargin ∧
    (State.refuseSeq s b code).ports = s.ports ∧ (State.refuseSeq s b code).trickle = s.trickle ∧ (State.refuseSeq s b code).cmd = s.cmd ∧
    (State.refuseSeq s b code).zon = s.zon ∧ (State.refuseSeq s b code).med = s.med ∧ (State.refuseSeq s b code).mlf = s.mlf ∧
    (State.refuseSeq s b code).cpx = s.cpx ∧ (State.refuseSeq s b code).wvf = s.wvf ∧ (State.refuseSeq s b code).bpm = s.bpm ∧
    (State.refuseSeq s b code).sli = s.sli ∧ (State.refuseSeq s b code).sec = s.sec ∧ (State.refuseSeq s b code).mic = s.mic ∧
    (State.refuseSeq s b code).flt = s.flt ∧ (State.refuseSeq s b code).ctrs = s.ctrs ∧ (State.refuseSeq s b code).grps = s.grps ∧
    (State.refuseSeq s b code).pwr = s.pwr ∧ (State.refuseSeq s b code).thm = s.thm ∧ (State.refuseSeq s b code).age = s.age ∧
    (State.refuseSeq s b code).fwu = s.fwu ∧ (State.refuseSeq s b code).glb = s.glb ∧ (State.refuseSeq s b code).sb = s.sb := by
  have w1 := @State.modBank_still; have w2 := @State.cnvCnt_still
  simp [State.refuseSeq, w1, w2]
theorem State.issueOp_still (s : State) (b : Nat) (o : ArrOp) :
    (State.issueOp s b o).pending = s.pending ∧ (State.issueOp s b o).free = s.free ∧ (State.issueOp s b o).host = s.host ∧
    (State.issueOp s b o).epoch = s.epoch ∧ (State.issueOp s b o).pat = s.pat ∧ (State.issueOp s b o).isl = s.isl ∧
    (State.issueOp s b o).routes = s.routes ∧ (State.issueOp s b o).dramMargin = s.dramMargin ∧ (State.issueOp s b o).ports = s.ports ∧
    (State.issueOp s b o).trickle = s.trickle ∧ (State.issueOp s b o).cmd = s.cmd ∧ (State.issueOp s b o).zon = s.zon ∧
    (State.issueOp s b o).med = s.med ∧ (State.issueOp s b o).mlf = s.mlf ∧ (State.issueOp s b o).cpx = s.cpx ∧
    (State.issueOp s b o).wvf = s.wvf ∧ (State.issueOp s b o).bpm = s.bpm ∧ (State.issueOp s b o).sli = s.sli ∧
    (State.issueOp s b o).sec = s.sec ∧ (State.issueOp s b o).mic = s.mic ∧ (State.issueOp s b o).flt = s.flt ∧
    (State.issueOp s b o).ctrs = s.ctrs ∧ (State.issueOp s b o).grps = s.grps ∧ (State.issueOp s b o).pwr = s.pwr ∧
    (State.issueOp s b o).thm = s.thm ∧ (State.issueOp s b o).age = s.age ∧ (State.issueOp s b o).fwu = s.fwu ∧
    (State.issueOp s b o).glb = s.glb ∧ (State.issueOp s b o).sb = s.sb := by
  have w1 := @State.setBank_still; have wi := @ite_parts
  simp [State.issueOp, w1, wi]
theorem State.identifyView_still (s : State) (who : ArrayIssuer) (b : Nat) :
    (State.identifyView s who b).pending = s.pending ∧ (State.identifyView s who b).free = s.free ∧
    (State.identifyView s who b).host = s.host ∧ (State.identifyView s who b).epoch = s.epoch ∧ (State.identifyView s who b).pat = s.pat ∧
    (State.identifyView s who b).isl = s.isl ∧ (State.identifyView s who b).routes = s.routes ∧
    (State.identifyView s who b).dramMargin = s.dramMargin ∧ (State.identifyView s who b).ports = s.ports ∧
    (State.identifyView s who b).trickle = s.trickle ∧ (State.identifyView s who b).cmd = s.cmd ∧
    (State.identifyView s who b).zon = s.zon ∧ (State.identifyView s who b).med = s.med ∧ (State.identifyView s who b).mlf = s.mlf ∧
    (State.identifyView s who b).cpx = s.cpx ∧ (State.identifyView s who b).wvf = s.wvf ∧ (State.identifyView s who b).bpm = s.bpm ∧
    (State.identifyView s who b).sli = s.sli ∧ (State.identifyView s who b).sec = s.sec ∧ (State.identifyView s who b).mic = s.mic ∧
    (State.identifyView s who b).flt = s.flt ∧ (State.identifyView s who b).ctrs = s.ctrs ∧ (State.identifyView s who b).grps = s.grps ∧
    (State.identifyView s who b).pwr = s.pwr ∧ (State.identifyView s who b).thm = s.thm ∧ (State.identifyView s who b).age = s.age ∧
    (State.identifyView s who b).fwu = s.fwu ∧ (State.identifyView s who b).glb = s.glb ∧ (State.identifyView s who b).sb = s.sb := by
  have w1 := @State.modBank_still
  simp [State.identifyView, w1]
theorem State.endHold_still (s : State) :
    (State.endHold s).pending = s.pending ∧ (State.endHold s).free = s.free ∧ (State.endHold s).host = s.host ∧
    (State.endHold s).epoch = s.epoch ∧ (State.endHold s).pat = s.pat ∧ (State.endHold s).isl = s.isl ∧
    (State.endHold s).routes = s.routes ∧ (State.endHold s).dramMargin = s.dramMargin ∧ (State.endHold s).ports = s.ports ∧
    (State.endHold s).trickle = s.trickle ∧ (State.endHold s).cmd = s.cmd ∧ (State.endHold s).zon = s.zon ∧ (State.endHold s).med = s.med ∧
    (State.endHold s).mlf = s.mlf ∧ (State.endHold s).cpx = s.cpx ∧ (State.endHold s).wvf = s.wvf ∧ (State.endHold s).bpm = s.bpm ∧
    (State.endHold s).sli = s.sli ∧ (State.endHold s).sec = s.sec ∧ (State.endHold s).mic = s.mic ∧ (State.endHold s).ctrs = s.ctrs ∧
    (State.endHold s).grps = s.grps ∧ (State.endHold s).pwr = s.pwr ∧ (State.endHold s).thm = s.thm ∧ (State.endHold s).age = s.age ∧
    (State.endHold s).cnv = s.cnv ∧ (State.endHold s).fwu = s.fwu ∧ (State.endHold s).glb = s.glb ∧ (State.endHold s).sb = s.sb := by
  have wi := @ite_parts
  simp [State.endHold, wi]
theorem State.startOps_still (s : State) (b : Nat) (l0 : List ArrOp) :
    (State.startOps s b l0).pending = s.pending ∧ (State.startOps s b l0).free = s.free ∧ (State.startOps s b l0).host = s.host ∧
    (State.startOps s b l0).epoch = s.epoch ∧ (State.startOps s b l0).pat = s.pat ∧ (State.startOps s b l0).isl = s.isl ∧
    (State.startOps s b l0).routes = s.routes ∧ (State.startOps s b l0).dramMargin = s.dramMargin ∧
    (State.startOps s b l0).ports = s.ports ∧ (State.startOps s b l0).trickle = s.trickle ∧ (State.startOps s b l0).cmd = s.cmd ∧
    (State.startOps s b l0).zon = s.zon ∧ (State.startOps s b l0).med = s.med ∧ (State.startOps s b l0).mlf = s.mlf ∧
    (State.startOps s b l0).cpx = s.cpx ∧ (State.startOps s b l0).wvf = s.wvf ∧ (State.startOps s b l0).bpm = s.bpm ∧
    (State.startOps s b l0).sli = s.sli ∧ (State.startOps s b l0).sec = s.sec ∧ (State.startOps s b l0).mic = s.mic ∧
    (State.startOps s b l0).ctrs = s.ctrs ∧ (State.startOps s b l0).grps = s.grps ∧ (State.startOps s b l0).pwr = s.pwr ∧
    (State.startOps s b l0).thm = s.thm ∧ (State.startOps s b l0).age = s.age ∧ (State.startOps s b l0).fwu = s.fwu ∧
    (State.startOps s b l0).glb = s.glb ∧ (State.startOps s b l0).sb = s.sb := by
  have w1 := @State.modBank_still; have w2 := @State.endHold_still; have w3 := @State.refuseSeq_still; have wi := @ite_parts
  induction l0 generalizing s b with
  | nil => simp [State.startOps, w1, w2]
  | cons a t ih => simp [State.startOps, ih, w1, w3, wi]
theorem State.nextOp_still (s : State) (b : Nat) :
    (State.nextOp s b).pending = s.pending ∧ (State.nextOp s b).free = s.free ∧ (State.nextOp s b).host = s.host ∧
    (State.nextOp s b).epoch = s.epoch ∧ (State.nextOp s b).pat = s.pat ∧ (State.nextOp s b).isl = s.isl ∧
    (State.nextOp s b).routes = s.routes ∧ (State.nextOp s b).dramMargin = s.dramMargin ∧ (State.nextOp s b).ports = s.ports ∧
    (State.nextOp s b).trickle = s.trickle ∧ (State.nextOp s b).cmd = s.cmd ∧ (State.nextOp s b).zon = s.zon ∧
    (State.nextOp s b).med = s.med ∧ (State.nextOp s b).mlf = s.mlf ∧ (State.nextOp s b).cpx = s.cpx ∧ (State.nextOp s b).wvf = s.wvf ∧
    (State.nextOp s b).bpm = s.bpm ∧ (State.nextOp s b).sli = s.sli ∧ (State.nextOp s b).sec = s.sec ∧ (State.nextOp s b).mic = s.mic ∧
    (State.nextOp s b).ctrs = s.ctrs ∧ (State.nextOp s b).grps = s.grps ∧ (State.nextOp s b).pwr = s.pwr ∧ (State.nextOp s b).thm = s.thm ∧
    (State.nextOp s b).age = s.age ∧ (State.nextOp s b).fwu = s.fwu ∧ (State.nextOp s b).glb = s.glb ∧ (State.nextOp s b).sb = s.sb := by
  have w1 := @State.startOps_still
  simp [State.nextOp, w1]
theorem State.abortOp_still (s : State) (b : Nat) :
    (State.abortOp s b).pending = s.pending ∧ (State.abortOp s b).host = s.host ∧ (State.abortOp s b).epoch = s.epoch ∧
    (State.abortOp s b).pat = s.pat ∧ (State.abortOp s b).isl = s.isl ∧ (State.abortOp s b).routes = s.routes ∧
    (State.abortOp s b).dramMargin = s.dramMargin ∧ (State.abortOp s b).ports = s.ports ∧ (State.abortOp s b).trickle = s.trickle ∧
    (State.abortOp s b).cmd = s.cmd ∧ (State.abortOp s b).zon = s.zon ∧ (State.abortOp s b).med = s.med ∧ (State.abortOp s b).mlf = s.mlf ∧
    (State.abortOp s b).cpx = s.cpx ∧ (State.abortOp s b).wvf = s.wvf ∧ (State.abortOp s b).bpm = s.bpm ∧ (State.abortOp s b).sli = s.sli ∧
    (State.abortOp s b).sec = s.sec ∧ (State.abortOp s b).mic = s.mic ∧ (State.abortOp s b).ctrs = s.ctrs ∧
    (State.abortOp s b).grps = s.grps ∧ (State.abortOp s b).pwr = s.pwr ∧ (State.abortOp s b).thm = s.thm ∧
    (State.abortOp s b).age = s.age ∧ (State.abortOp s b).fwu = s.fwu ∧ (State.abortOp s b).glb = s.glb ∧ (State.abortOp s b).sb = s.sb := by
  have w1 := @State.cnvCnt_still; have w2 := @State.modBank_still; have w3 := @State.nextOp_still; have w4 := @State.spoil_still
  unfold State.abortOp; repeat' split
  all_goals simp [*]
theorem State.resetBank_still (s : State) (who : ArrayIssuer) (b : Nat) :
    (State.resetBank s who b).pending = s.pending ∧ (State.resetBank s who b).host = s.host ∧ (State.resetBank s who b).epoch = s.epoch ∧
    (State.resetBank s who b).pat = s.pat ∧ (State.resetBank s who b).isl = s.isl ∧ (State.resetBank s who b).routes = s.routes ∧
    (State.resetBank s who b).dramMargin = s.dramMargin ∧ (State.resetBank s who b).ports = s.ports ∧
    (State.resetBank s who b).trickle = s.trickle ∧ (State.resetBank s who b).cmd = s.cmd ∧ (State.resetBank s who b).zon = s.zon ∧
    (State.resetBank s who b).med = s.med ∧ (State.resetBank s who b).mlf = s.mlf ∧ (State.resetBank s who b).cpx = s.cpx ∧
    (State.resetBank s who b).wvf = s.wvf ∧ (State.resetBank s who b).bpm = s.bpm ∧ (State.resetBank s who b).sli = s.sli ∧
    (State.resetBank s who b).sec = s.sec ∧ (State.resetBank s who b).mic = s.mic ∧ (State.resetBank s who b).ctrs = s.ctrs ∧
    (State.resetBank s who b).grps = s.grps ∧ (State.resetBank s who b).pwr = s.pwr ∧ (State.resetBank s who b).thm = s.thm ∧
    (State.resetBank s who b).age = s.age ∧ (State.resetBank s who b).fwu = s.fwu ∧ (State.resetBank s who b).glb = s.glb ∧
    (State.resetBank s who b).sb = s.sb := by
  have w1 := @State.modBank_still; have w2 := @State.abortOp_still; have wi := @ite_parts
  simp [State.resetBank, w1, w2, wi]
theorem State.opDone_still (s : State) (b : Nat) (o : ArrOp) (ok : Bool) :
    (State.opDone s b o ok).pending = s.pending ∧ (State.opDone s b o ok).host = s.host ∧ (State.opDone s b o ok).epoch = s.epoch ∧
    (State.opDone s b o ok).pat = s.pat ∧ (State.opDone s b o ok).isl = s.isl ∧ (State.opDone s b o ok).routes = s.routes ∧
    (State.opDone s b o ok).dramMargin = s.dramMargin ∧ (State.opDone s b o ok).ports = s.ports ∧
    (State.opDone s b o ok).trickle = s.trickle ∧ (State.opDone s b o ok).cmd = s.cmd ∧ (State.opDone s b o ok).zon = s.zon ∧
    (State.opDone s b o ok).med = s.med ∧ (State.opDone s b o ok).mlf = s.mlf ∧ (State.opDone s b o ok).cpx = s.cpx ∧
    (State.opDone s b o ok).wvf = s.wvf ∧ (State.opDone s b o ok).bpm = s.bpm ∧ (State.opDone s b o ok).sli = s.sli ∧
    (State.opDone s b o ok).sec = s.sec ∧ (State.opDone s b o ok).mic = s.mic ∧ (State.opDone s b o ok).ctrs = s.ctrs ∧
    (State.opDone s b o ok).grps = s.grps ∧ (State.opDone s b o ok).pwr = s.pwr ∧ (State.opDone s b o ok).thm = s.thm ∧
    (State.opDone s b o ok).age = s.age ∧ (State.opDone s b o ok).fwu = s.fwu ∧ (State.opDone s b o ok).glb = s.glb ∧
    (State.opDone s b o ok).sb = s.sb := by
  have w1 := @State.putPage_still; have w2 := @State.cnvCnt_still; have w3 := @State.wipeSector_still
  have w4 := @State.spoil_still; have wi := @ite_parts
  simp [State.opDone, w1, w2, w3, w4, wi]
theorem State.voidLine_still (s : State) (line : Nat) :
    (State.voidLine s line).pending = s.pending ∧ (State.voidLine s line).host = s.host ∧ (State.voidLine s line).epoch = s.epoch ∧
    (State.voidLine s line).pat = s.pat ∧ (State.voidLine s line).isl = s.isl ∧ (State.voidLine s line).routes = s.routes ∧
    (State.voidLine s line).dramMargin = s.dramMargin ∧ (State.voidLine s line).ports = s.ports ∧
    (State.voidLine s line).trickle = s.trickle ∧ (State.voidLine s line).cmd = s.cmd ∧ (State.voidLine s line).zon = s.zon ∧
    (State.voidLine s line).med = s.med ∧ (State.voidLine s line).mlf = s.mlf ∧ (State.voidLine s line).cpx = s.cpx ∧
    (State.voidLine s line).wvf = s.wvf ∧ (State.voidLine s line).bpm = s.bpm ∧ (State.voidLine s line).sli = s.sli ∧
    (State.voidLine s line).sec = s.sec ∧ (State.voidLine s line).mic = s.mic ∧ (State.voidLine s line).flt = s.flt ∧
    (State.voidLine s line).ctrs = s.ctrs ∧ (State.voidLine s line).grps = s.grps ∧ (State.voidLine s line).pwr = s.pwr ∧
    (State.voidLine s line).thm = s.thm ∧ (State.voidLine s line).age = s.age ∧ (State.voidLine s line).glb = s.glb ∧
    (State.voidLine s line).sb = s.sb := by
  have w1 := @drawBytes_still; have w2 := @State.spoilSlot_still; have wi := @ite_parts
  simp [State.voidLine, w1, w2, wi]
theorem State.loseLine_still (s : State) (line : Nat) :
    (State.loseLine s line).pending = s.pending ∧ (State.loseLine s line).host = s.host ∧ (State.loseLine s line).epoch = s.epoch ∧
    (State.loseLine s line).pat = s.pat ∧ (State.loseLine s line).isl = s.isl ∧ (State.loseLine s line).routes = s.routes ∧
    (State.loseLine s line).dramMargin = s.dramMargin ∧ (State.loseLine s line).ports = s.ports ∧
    (State.loseLine s line).trickle = s.trickle ∧ (State.loseLine s line).cmd = s.cmd ∧ (State.loseLine s line).zon = s.zon ∧
    (State.loseLine s line).med = s.med ∧ (State.loseLine s line).mlf = s.mlf ∧ (State.loseLine s line).cpx = s.cpx ∧
    (State.loseLine s line).wvf = s.wvf ∧ (State.loseLine s line).bpm = s.bpm ∧ (State.loseLine s line).sli = s.sli ∧
    (State.loseLine s line).sec = s.sec ∧ (State.loseLine s line).mic = s.mic ∧ (State.loseLine s line).ctrs = s.ctrs ∧
    (State.loseLine s line).grps = s.grps ∧ (State.loseLine s line).pwr = s.pwr ∧ (State.loseLine s line).thm = s.thm ∧
    (State.loseLine s line).age = s.age ∧ (State.loseLine s line).glb = s.glb ∧ (State.loseLine s line).sb = s.sb := by
  have w1 := @State.cnvCnt_still; have w2 := @State.voidLine_still; have wi := @ite_parts
  simp [State.loseLine, w1, w2, wi]
theorem State.rewriteSector_still (s : State) (n : Nat) :
    (State.rewriteSector s n).pending = s.pending ∧ (State.rewriteSector s n).free = s.free ∧ (State.rewriteSector s n).host = s.host ∧
    (State.rewriteSector s n).epoch = s.epoch ∧ (State.rewriteSector s n).pat = s.pat ∧ (State.rewriteSector s n).isl = s.isl ∧
    (State.rewriteSector s n).routes = s.routes ∧ (State.rewriteSector s n).dramMargin = s.dramMargin ∧
    (State.rewriteSector s n).ports = s.ports ∧ (State.rewriteSector s n).trickle = s.trickle ∧ (State.rewriteSector s n).cmd = s.cmd ∧
    (State.rewriteSector s n).zon = s.zon ∧ (State.rewriteSector s n).med = s.med ∧ (State.rewriteSector s n).mlf = s.mlf ∧
    (State.rewriteSector s n).cpx = s.cpx ∧ (State.rewriteSector s n).wvf = s.wvf ∧ (State.rewriteSector s n).bpm = s.bpm ∧
    (State.rewriteSector s n).sli = s.sli ∧ (State.rewriteSector s n).sec = s.sec ∧ (State.rewriteSector s n).mic = s.mic ∧
    (State.rewriteSector s n).ctrs = s.ctrs ∧ (State.rewriteSector s n).grps = s.grps ∧ (State.rewriteSector s n).pwr = s.pwr ∧
    (State.rewriteSector s n).thm = s.thm ∧ (State.rewriteSector s n).age = s.age ∧ (State.rewriteSector s n).fwu = s.fwu ∧
    (State.rewriteSector s n).glb = s.glb ∧ (State.rewriteSector s n).sb = s.sb := by
  have w1 := @State.setSect_still; have w2 := @State.queueFault_still; have w3 := @State.cnvCnt_still; have wi := @ite_parts
  simp [State.rewriteSector, w1, w2, w3, wi]
theorem State.heardOwner_still (s : State) (r : Requester) :
    (State.heardOwner s r).pending = s.pending ∧ (State.heardOwner s r).free = s.free ∧ (State.heardOwner s r).host = s.host ∧
    (State.heardOwner s r).epoch = s.epoch ∧ (State.heardOwner s r).pat = s.pat ∧ (State.heardOwner s r).isl = s.isl ∧
    (State.heardOwner s r).routes = s.routes ∧ (State.heardOwner s r).dramMargin = s.dramMargin ∧ (State.heardOwner s r).ports = s.ports ∧
    (State.heardOwner s r).trickle = s.trickle ∧ (State.heardOwner s r).cmd = s.cmd ∧ (State.heardOwner s r).zon = s.zon ∧
    (State.heardOwner s r).med = s.med ∧ (State.heardOwner s r).mlf = s.mlf ∧ (State.heardOwner s r).cpx = s.cpx ∧
    (State.heardOwner s r).wvf = s.wvf ∧ (State.heardOwner s r).bpm = s.bpm ∧ (State.heardOwner s r).sli = s.sli ∧
    (State.heardOwner s r).sec = s.sec ∧ (State.heardOwner s r).mic = s.mic ∧ (State.heardOwner s r).flt = s.flt ∧
    (State.heardOwner s r).ctrs = s.ctrs ∧ (State.heardOwner s r).grps = s.grps ∧ (State.heardOwner s r).pwr = s.pwr ∧
    (State.heardOwner s r).thm = s.thm ∧ (State.heardOwner s r).age = s.age ∧ (State.heardOwner s r).cnv = s.cnv ∧
    (State.heardOwner s r).glb = s.glb ∧ (State.heardOwner s r).sb = s.sb := by
  have wi := @ite_parts
  simp [State.heardOwner, wi]
theorem State.eraseStaging_still (s : State) (i : Nat) :
    (State.eraseStaging s i).pending = s.pending ∧ (State.eraseStaging s i).free = s.free ∧ (State.eraseStaging s i).host = s.host ∧
    (State.eraseStaging s i).epoch = s.epoch ∧ (State.eraseStaging s i).pat = s.pat ∧ (State.eraseStaging s i).isl = s.isl ∧
    (State.eraseStaging s i).routes = s.routes ∧ (State.eraseStaging s i).dramMargin = s.dramMargin ∧
    (State.eraseStaging s i).ports = s.ports ∧ (State.eraseStaging s i).trickle = s.trickle ∧ (State.eraseStaging s i).cmd = s.cmd ∧
    (State.eraseStaging s i).zon = s.zon ∧ (State.eraseStaging s i).med = s.med ∧ (State.eraseStaging s i).mlf = s.mlf ∧
    (State.eraseStaging s i).cpx = s.cpx ∧ (State.eraseStaging s i).wvf = s.wvf ∧ (State.eraseStaging s i).bpm = s.bpm ∧
    (State.eraseStaging s i).sli = s.sli ∧ (State.eraseStaging s i).sec = s.sec ∧ (State.eraseStaging s i).mic = s.mic ∧
    (State.eraseStaging s i).ctrs = s.ctrs ∧ (State.eraseStaging s i).grps = s.grps ∧ (State.eraseStaging s i).pwr = s.pwr ∧
    (State.eraseStaging s i).thm = s.thm ∧ (State.eraseStaging s i).age = s.age ∧ (State.eraseStaging s i).fwu = s.fwu ∧
    (State.eraseStaging s i).glb = s.glb ∧ (State.eraseStaging s i).sb = s.sb := by
  have w1 := @State.eraseRange_still
  simp [State.eraseStaging, w1]
theorem State.takeLock_still (s : State) (i : Nat) (r : Requester) (ms : Nat) :
    (State.takeLock s i r ms).pending = s.pending ∧ (State.takeLock s i r ms).free = s.free ∧ (State.takeLock s i r ms).host = s.host ∧
    (State.takeLock s i r ms).epoch = s.epoch ∧ (State.takeLock s i r ms).pat = s.pat ∧ (State.takeLock s i r ms).isl = s.isl ∧
    (State.takeLock s i r ms).routes = s.routes ∧ (State.takeLock s i r ms).dramMargin = s.dramMargin ∧
    (State.takeLock s i r ms).ports = s.ports ∧ (State.takeLock s i r ms).trickle = s.trickle ∧ (State.takeLock s i r ms).cmd = s.cmd ∧
    (State.takeLock s i r ms).zon = s.zon ∧ (State.takeLock s i r ms).med = s.med ∧ (State.takeLock s i r ms).mlf = s.mlf ∧
    (State.takeLock s i r ms).cpx = s.cpx ∧ (State.takeLock s i r ms).wvf = s.wvf ∧ (State.takeLock s i r ms).bpm = s.bpm ∧
    (State.takeLock s i r ms).sli = s.sli ∧ (State.takeLock s i r ms).sec = s.sec ∧ (State.takeLock s i r ms).mic = s.mic ∧
    (State.takeLock s i r ms).flt = s.flt ∧ (State.takeLock s i r ms).ctrs = s.ctrs ∧ (State.takeLock s i r ms).grps = s.grps ∧
    (State.takeLock s i r ms).pwr = s.pwr ∧ (State.takeLock s i r ms).thm = s.thm ∧ (State.takeLock s i r ms).age = s.age ∧
    (State.takeLock s i r ms).cnv = s.cnv ∧ (State.takeLock s i r ms).glb = s.glb ∧ (State.takeLock s i r ms).sb = s.sb := by
  have w1 := @State.setFwSlot_still
  simp [State.takeLock, w1]
theorem State.startStaging_still (s : State) (r : Requester) :
    (State.startStaging s r).pending = s.pending ∧ (State.startStaging s r).free = s.free ∧ (State.startStaging s r).host = s.host ∧
    (State.startStaging s r).epoch = s.epoch ∧ (State.startStaging s r).pat = s.pat ∧ (State.startStaging s r).isl = s.isl ∧
    (State.startStaging s r).routes = s.routes ∧ (State.startStaging s r).dramMargin = s.dramMargin ∧
    (State.startStaging s r).ports = s.ports ∧ (State.startStaging s r).trickle = s.trickle ∧ (State.startStaging s r).cmd = s.cmd ∧
    (State.startStaging s r).zon = s.zon ∧ (State.startStaging s r).med = s.med ∧ (State.startStaging s r).mlf = s.mlf ∧
    (State.startStaging s r).cpx = s.cpx ∧ (State.startStaging s r).wvf = s.wvf ∧ (State.startStaging s r).bpm = s.bpm ∧
    (State.startStaging s r).sli = s.sli ∧ (State.startStaging s r).sec = s.sec ∧ (State.startStaging s r).mic = s.mic ∧
    (State.startStaging s r).ctrs = s.ctrs ∧ (State.startStaging s r).grps = s.grps ∧ (State.startStaging s r).pwr = s.pwr ∧
    (State.startStaging s r).thm = s.thm ∧ (State.startStaging s r).age = s.age ∧ (State.startStaging s r).glb = s.glb ∧
    (State.startStaging s r).sb = s.sb := by
  have w1 := @State.eraseStaging_still; have w2 := @State.takeLock_still
  simp [State.startStaging, w1, w2]
theorem State.stagePiece_still (s : State) (data : List Byte) :
    (State.stagePiece s data).pending = s.pending ∧ (State.stagePiece s data).free = s.free ∧ (State.stagePiece s data).host = s.host ∧
    (State.stagePiece s data).epoch = s.epoch ∧ (State.stagePiece s data).pat = s.pat ∧ (State.stagePiece s data).isl = s.isl ∧
    (State.stagePiece s data).routes = s.routes ∧ (State.stagePiece s data).dramMargin = s.dramMargin ∧
    (State.stagePiece s data).ports = s.ports ∧ (State.stagePiece s data).trickle = s.trickle ∧ (State.stagePiece s data).cmd = s.cmd ∧
    (State.stagePiece s data).zon = s.zon ∧ (State.stagePiece s data).med = s.med ∧ (State.stagePiece s data).mlf = s.mlf ∧
    (State.stagePiece s data).cpx = s.cpx ∧ (State.stagePiece s data).wvf = s.wvf ∧ (State.stagePiece s data).bpm = s.bpm ∧
    (State.stagePiece s data).sli = s.sli ∧ (State.stagePiece s data).sec = s.sec ∧ (State.stagePiece s data).mic = s.mic ∧
    (State.stagePiece s data).flt = s.flt ∧ (State.stagePiece s data).ctrs = s.ctrs ∧ (State.stagePiece s data).grps = s.grps ∧
    (State.stagePiece s data).pwr = s.pwr ∧ (State.stagePiece s data).thm = s.thm ∧ (State.stagePiece s data).age = s.age ∧
    (State.stagePiece s data).glb = s.glb ∧ (State.stagePiece s data).sb = s.sb := by
  have w1 := @State.programRange_still
  simp [State.stagePiece, w1]
theorem State.fwDownload_still (s : State) (r : Requester) (off : Nat) (data : List Byte) :
    (State.fwDownload s r off data).2.pending = s.pending ∧ (State.fwDownload s r off data).2.free = s.free ∧
    (State.fwDownload s r off data).2.host = s.host ∧ (State.fwDownload s r off data).2.epoch = s.epoch ∧
    (State.fwDownload s r off data).2.pat = s.pat ∧ (State.fwDownload s r off data).2.isl = s.isl ∧
    (State.fwDownload s r off data).2.routes = s.routes ∧ (State.fwDownload s r off data).2.dramMargin = s.dramMargin ∧
    (State.fwDownload s r off data).2.ports = s.ports ∧ (State.fwDownload s r off data).2.trickle = s.trickle ∧
    (State.fwDownload s r off data).2.cmd = s.cmd ∧ (State.fwDownload s r off data).2.zon = s.zon ∧
    (State.fwDownload s r off data).2.med = s.med ∧ (State.fwDownload s r off data).2.mlf = s.mlf ∧
    (State.fwDownload s r off data).2.cpx = s.cpx ∧ (State.fwDownload s r off data).2.wvf = s.wvf ∧
    (State.fwDownload s r off data).2.bpm = s.bpm ∧ (State.fwDownload s r off data).2.sli = s.sli ∧
    (State.fwDownload s r off data).2.sec = s.sec ∧ (State.fwDownload s r off data).2.mic = s.mic ∧
    (State.fwDownload s r off data).2.ctrs = s.ctrs ∧ (State.fwDownload s r off data).2.grps = s.grps ∧
    (State.fwDownload s r off data).2.pwr = s.pwr ∧ (State.fwDownload s r off data).2.thm = s.thm ∧
    (State.fwDownload s r off data).2.age = s.age ∧ (State.fwDownload s r off data).2.glb = s.glb ∧
    (State.fwDownload s r off data).2.sb = s.sb := by
  have w1 := @State.heardOwner_still; have w2 := @State.stagePiece_still; have w3 := @State.startStaging_still
  unfold State.fwDownload; repeat' split
  all_goals simp [*]
theorem State.applyFail_still (s : State) (i code : Nat) :
    (State.applyFail s i code).2.pending = s.pending ∧ (State.applyFail s i code).2.free = s.free ∧
    (State.applyFail s i code).2.host = s.host ∧ (State.applyFail s i code).2.epoch = s.epoch ∧ (State.applyFail s i code).2.pat = s.pat ∧
    (State.applyFail s i code).2.isl = s.isl ∧ (State.applyFail s i code).2.routes = s.routes ∧
    (State.applyFail s i code).2.dramMargin = s.dramMargin ∧ (State.applyFail s i code).2.ports = s.ports ∧
    (State.applyFail s i code).2.trickle = s.trickle ∧ (State.applyFail s i code).2.cmd = s.cmd ∧
    (State.applyFail s i code).2.zon = s.zon ∧ (State.applyFail s i code).2.med = s.med ∧ (State.applyFail s i code).2.mlf = s.mlf ∧
    (State.applyFail s i code).2.cpx = s.cpx ∧ (State.applyFail s i code).2.wvf = s.wvf ∧ (State.applyFail s i code).2.bpm = s.bpm ∧
    (State.applyFail s i code).2.sli = s.sli ∧ (State.applyFail s i code).2.sec = s.sec ∧ (State.applyFail s i code).2.mic = s.mic ∧
    (State.applyFail s i code).2.flt = s.flt ∧ (State.applyFail s i code).2.ctrs = s.ctrs ∧ (State.applyFail s i code).2.grps = s.grps ∧
    (State.applyFail s i code).2.pwr = s.pwr ∧ (State.applyFail s i code).2.thm = s.thm ∧ (State.applyFail s i code).2.age = s.age ∧
    (State.applyFail s i code).2.cnv = s.cnv ∧ (State.applyFail s i code).2.glb = s.glb ∧ (State.applyFail s i code).2.sb = s.sb := by
  have w1 := @State.spoilSlot_still; have w2 := @State.unlockFwu_still
  simp [State.applyFail, w1, w2]
theorem State.clearSlot_still (s : State) (i : Nat) :
    (State.clearSlot s i).pending = s.pending ∧ (State.clearSlot s i).free = s.free ∧ (State.clearSlot s i).host = s.host ∧
    (State.clearSlot s i).epoch = s.epoch ∧ (State.clearSlot s i).pat = s.pat ∧ (State.clearSlot s i).isl = s.isl ∧
    (State.clearSlot s i).routes = s.routes ∧ (State.clearSlot s i).dramMargin = s.dramMargin ∧ (State.clearSlot s i).ports = s.ports ∧
    (State.clearSlot s i).trickle = s.trickle ∧ (State.clearSlot s i).cmd = s.cmd ∧ (State.clearSlot s i).zon = s.zon ∧
    (State.clearSlot s i).med = s.med ∧ (State.clearSlot s i).mlf = s.mlf ∧ (State.clearSlot s i).cpx = s.cpx ∧
    (State.clearSlot s i).wvf = s.wvf ∧ (State.clearSlot s i).bpm = s.bpm ∧ (State.clearSlot s i).sli = s.sli ∧
    (State.clearSlot s i).sec = s.sec ∧ (State.clearSlot s i).mic = s.mic ∧ (State.clearSlot s i).ctrs = s.ctrs ∧
    (State.clearSlot s i).grps = s.grps ∧ (State.clearSlot s i).pwr = s.pwr ∧ (State.clearSlot s i).thm = s.thm ∧
    (State.clearSlot s i).age = s.age ∧ (State.clearSlot s i).fwu = s.fwu ∧ (State.clearSlot s i).glb = s.glb ∧
    (State.clearSlot s i).sb = s.sb := by
  have w1 := @State.eraseRange_still; have wi := @ite_parts
  simp [State.clearSlot, w1, wi]
theorem State.writeSlot_still (s : State) (i : Nat) (img env : List Byte) :
    (State.writeSlot s i img env).pending = s.pending ∧ (State.writeSlot s i img env).free = s.free ∧
    (State.writeSlot s i img env).host = s.host ∧ (State.writeSlot s i img env).epoch = s.epoch ∧
    (State.writeSlot s i img env).pat = s.pat ∧ (State.writeSlot s i img env).isl = s.isl ∧
    (State.writeSlot s i img env).routes = s.routes ∧ (State.writeSlot s i img env).dramMargin = s.dramMargin ∧
    (State.writeSlot s i img env).ports = s.ports ∧ (State.writeSlot s i img env).trickle = s.trickle ∧
    (State.writeSlot s i img env).cmd = s.cmd ∧ (State.writeSlot s i img env).zon = s.zon ∧ (State.writeSlot s i img env).med = s.med ∧
    (State.writeSlot s i img env).mlf = s.mlf ∧ (State.writeSlot s i img env).cpx = s.cpx ∧ (State.writeSlot s i img env).wvf = s.wvf ∧
    (State.writeSlot s i img env).bpm = s.bpm ∧ (State.writeSlot s i img env).sli = s.sli ∧ (State.writeSlot s i img env).sec = s.sec ∧
    (State.writeSlot s i img env).mic = s.mic ∧ (State.writeSlot s i img env).ctrs = s.ctrs ∧ (State.writeSlot s i img env).grps = s.grps ∧
    (State.writeSlot s i img env).pwr = s.pwr ∧ (State.writeSlot s i img env).thm = s.thm ∧ (State.writeSlot s i img env).age = s.age ∧
    (State.writeSlot s i img env).fwu = s.fwu ∧ (State.writeSlot s i img env).glb = s.glb ∧ (State.writeSlot s i img env).sb = s.sb := by
  have w1 := @State.clearSlot_still; have w2 := @State.programRange_still
  simp [State.writeSlot, w1, w2]
theorem State.applySlot_still (s : State) (i : Nat) (progOk : Bool) :
    (State.applySlot s i progOk).2.pending = s.pending ∧ (State.applySlot s i progOk).2.host = s.host ∧
    (State.applySlot s i progOk).2.epoch = s.epoch ∧ (State.applySlot s i progOk).2.pat = s.pat ∧
    (State.applySlot s i progOk).2.isl = s.isl ∧ (State.applySlot s i progOk).2.routes = s.routes ∧
    (State.applySlot s i progOk).2.dramMargin = s.dramMargin ∧ (State.applySlot s i progOk).2.ports = s.ports ∧
    (State.applySlot s i progOk).2.trickle = s.trickle ∧ (State.applySlot s i progOk).2.cmd = s.cmd ∧
    (State.applySlot s i progOk).2.zon = s.zon ∧ (State.applySlot s i progOk).2.med = s.med ∧ (State.applySlot s i progOk).2.mlf = s.mlf ∧
    (State.applySlot s i progOk).2.cpx = s.cpx ∧ (State.applySlot s i progOk).2.wvf = s.wvf ∧ (State.applySlot s i progOk).2.bpm = s.bpm ∧
    (State.applySlot s i progOk).2.sli = s.sli ∧ (State.applySlot s i progOk).2.sec = s.sec ∧ (State.applySlot s i progOk).2.mic = s.mic ∧
    (State.applySlot s i progOk).2.ctrs = s.ctrs ∧ (State.applySlot s i progOk).2.grps = s.grps ∧
    (State.applySlot s i progOk).2.pwr = s.pwr ∧ (State.applySlot s i progOk).2.thm = s.thm ∧ (State.applySlot s i progOk).2.age = s.age ∧
    (State.applySlot s i progOk).2.glb = s.glb ∧ (State.applySlot s i progOk).2.sb = s.sb := by
  have w1 := @State.applyFail_still; have w2 := @State.cnvCnt_still; have w3 := @State.setFwSlot_still
  have w4 := @State.spoilPage_still; have w5 := @State.writeSlot_still; have w6 := @drawNat_still
  unfold State.applySlot; dsimp only; repeat' split
  all_goals simp [*]
theorem State.markNext_still (s : State) (i : Nat) :
    (State.markNext s i).pending = s.pending ∧ (State.markNext s i).free = s.free ∧ (State.markNext s i).host = s.host ∧
    (State.markNext s i).epoch = s.epoch ∧ (State.markNext s i).pat = s.pat ∧ (State.markNext s i).isl = s.isl ∧
    (State.markNext s i).routes = s.routes ∧ (State.markNext s i).dramMargin = s.dramMargin ∧ (State.markNext s i).ports = s.ports ∧
    (State.markNext s i).trickle = s.trickle ∧ (State.markNext s i).cmd = s.cmd ∧ (State.markNext s i).zon = s.zon ∧
    (State.markNext s i).med = s.med ∧ (State.markNext s i).mlf = s.mlf ∧ (State.markNext s i).cpx = s.cpx ∧
    (State.markNext s i).wvf = s.wvf ∧ (State.markNext s i).bpm = s.bpm ∧ (State.markNext s i).sli = s.sli ∧
    (State.markNext s i).sec = s.sec ∧ (State.markNext s i).mic = s.mic ∧ (State.markNext s i).flt = s.flt ∧
    (State.markNext s i).ctrs = s.ctrs ∧ (State.markNext s i).grps = s.grps ∧ (State.markNext s i).pwr = s.pwr ∧
    (State.markNext s i).thm = s.thm ∧ (State.markNext s i).age = s.age ∧ (State.markNext s i).cnv = s.cnv ∧
    (State.markNext s i).glb = s.glb ∧ (State.markNext s i).sb = s.sb := by
  simp [State.markNext]
theorem State.clearNext_still (s : State) :
    (State.clearNext s).pending = s.pending ∧ (State.clearNext s).free = s.free ∧ (State.clearNext s).host = s.host ∧
    (State.clearNext s).epoch = s.epoch ∧ (State.clearNext s).pat = s.pat ∧ (State.clearNext s).isl = s.isl ∧
    (State.clearNext s).routes = s.routes ∧ (State.clearNext s).dramMargin = s.dramMargin ∧ (State.clearNext s).ports = s.ports ∧
    (State.clearNext s).trickle = s.trickle ∧ (State.clearNext s).cmd = s.cmd ∧ (State.clearNext s).zon = s.zon ∧
    (State.clearNext s).med = s.med ∧ (State.clearNext s).mlf = s.mlf ∧ (State.clearNext s).cpx = s.cpx ∧ (State.clearNext s).wvf = s.wvf ∧
    (State.clearNext s).bpm = s.bpm ∧ (State.clearNext s).sli = s.sli ∧ (State.clearNext s).sec = s.sec ∧ (State.clearNext s).mic = s.mic ∧
    (State.clearNext s).flt = s.flt ∧ (State.clearNext s).ctrs = s.ctrs ∧ (State.clearNext s).grps = s.grps ∧
    (State.clearNext s).pwr = s.pwr ∧ (State.clearNext s).thm = s.thm ∧ (State.clearNext s).age = s.age ∧ (State.clearNext s).cnv = s.cnv ∧
    (State.clearNext s).glb = s.glb ∧ (State.clearNext s).sb = s.sb := by
  simp [State.clearNext]
theorem State.fwApply_still (s : State) (r : Requester) (fs : Nat) (progOk : Bool) :
    (State.fwApply s r fs progOk).2.pending = s.pending ∧ (State.fwApply s r fs progOk).2.host = s.host ∧
    (State.fwApply s r fs progOk).2.epoch = s.epoch ∧ (State.fwApply s r fs progOk).2.pat = s.pat ∧
    (State.fwApply s r fs progOk).2.isl = s.isl ∧ (State.fwApply s r fs progOk).2.routes = s.routes ∧
    (State.fwApply s r fs progOk).2.dramMargin = s.dramMargin ∧ (State.fwApply s r fs progOk).2.ports = s.ports ∧
    (State.fwApply s r fs progOk).2.trickle = s.trickle ∧ (State.fwApply s r fs progOk).2.cmd = s.cmd ∧
    (State.fwApply s r fs progOk).2.zon = s.zon ∧ (State.fwApply s r fs progOk).2.med = s.med ∧
    (State.fwApply s r fs progOk).2.mlf = s.mlf ∧ (State.fwApply s r fs progOk).2.cpx = s.cpx ∧
    (State.fwApply s r fs progOk).2.wvf = s.wvf ∧ (State.fwApply s r fs progOk).2.bpm = s.bpm ∧
    (State.fwApply s r fs progOk).2.sli = s.sli ∧ (State.fwApply s r fs progOk).2.sec = s.sec ∧
    (State.fwApply s r fs progOk).2.mic = s.mic ∧ (State.fwApply s r fs progOk).2.ctrs = s.ctrs ∧
    (State.fwApply s r fs progOk).2.grps = s.grps ∧ (State.fwApply s r fs progOk).2.pwr = s.pwr ∧
    (State.fwApply s r fs progOk).2.thm = s.thm ∧ (State.fwApply s r fs progOk).2.age = s.age ∧
    (State.fwApply s r fs progOk).2.glb = s.glb ∧ (State.fwApply s r fs progOk).2.sb = s.sb := by
  have w1 := @State.applySlot_still; have w2 := @State.heardOwner_still; have w3 := @State.unlockFwu_still
  unfold State.fwApply; dsimp only; repeat' split
  all_goals simp [*]
theorem State.fwApplyNext_still (s : State) (r : Requester) (fs : Nat) (progOk : Bool) :
    (State.fwApplyNext s r fs progOk).2.pending = s.pending ∧ (State.fwApplyNext s r fs progOk).2.host = s.host ∧
    (State.fwApplyNext s r fs progOk).2.epoch = s.epoch ∧ (State.fwApplyNext s r fs progOk).2.pat = s.pat ∧
    (State.fwApplyNext s r fs progOk).2.isl = s.isl ∧ (State.fwApplyNext s r fs progOk).2.routes = s.routes ∧
    (State.fwApplyNext s r fs progOk).2.dramMargin = s.dramMargin ∧ (State.fwApplyNext s r fs progOk).2.ports = s.ports ∧
    (State.fwApplyNext s r fs progOk).2.trickle = s.trickle ∧ (State.fwApplyNext s r fs progOk).2.cmd = s.cmd ∧
    (State.fwApplyNext s r fs progOk).2.zon = s.zon ∧ (State.fwApplyNext s r fs progOk).2.med = s.med ∧
    (State.fwApplyNext s r fs progOk).2.mlf = s.mlf ∧ (State.fwApplyNext s r fs progOk).2.cpx = s.cpx ∧
    (State.fwApplyNext s r fs progOk).2.wvf = s.wvf ∧ (State.fwApplyNext s r fs progOk).2.bpm = s.bpm ∧
    (State.fwApplyNext s r fs progOk).2.sli = s.sli ∧ (State.fwApplyNext s r fs progOk).2.sec = s.sec ∧
    (State.fwApplyNext s r fs progOk).2.mic = s.mic ∧ (State.fwApplyNext s r fs progOk).2.ctrs = s.ctrs ∧
    (State.fwApplyNext s r fs progOk).2.grps = s.grps ∧ (State.fwApplyNext s r fs progOk).2.pwr = s.pwr ∧
    (State.fwApplyNext s r fs progOk).2.thm = s.thm ∧ (State.fwApplyNext s r fs progOk).2.age = s.age ∧
    (State.fwApplyNext s r fs progOk).2.glb = s.glb ∧ (State.fwApplyNext s r fs progOk).2.sb = s.sb := by
  have w1 := @State.applySlot_still; have w2 := @State.heardOwner_still; have w3 := @State.markNext_still
  have w4 := @State.unlockFwu_still
  unfold State.fwApplyNext; dsimp only; repeat' split
  all_goals simp [*]
theorem State.fwMarkNext_still (s : State) (r : Requester) (fs : Nat) :
    (State.fwMarkNext s r fs).2.pending = s.pending ∧ (State.fwMarkNext s r fs).2.free = s.free ∧
    (State.fwMarkNext s r fs).2.host = s.host ∧ (State.fwMarkNext s r fs).2.epoch = s.epoch ∧ (State.fwMarkNext s r fs).2.pat = s.pat ∧
    (State.fwMarkNext s r fs).2.isl = s.isl ∧ (State.fwMarkNext s r fs).2.routes = s.routes ∧
    (State.fwMarkNext s r fs).2.dramMargin = s.dramMargin ∧ (State.fwMarkNext s r fs).2.ports = s.ports ∧
    (State.fwMarkNext s r fs).2.trickle = s.trickle ∧ (State.fwMarkNext s r fs).2.cmd = s.cmd ∧ (State.fwMarkNext s r fs).2.zon = s.zon ∧
    (State.fwMarkNext s r fs).2.med = s.med ∧ (State.fwMarkNext s r fs).2.mlf = s.mlf ∧ (State.fwMarkNext s r fs).2.cpx = s.cpx ∧
    (State.fwMarkNext s r fs).2.wvf = s.wvf ∧ (State.fwMarkNext s r fs).2.bpm = s.bpm ∧ (State.fwMarkNext s r fs).2.sli = s.sli ∧
    (State.fwMarkNext s r fs).2.sec = s.sec ∧ (State.fwMarkNext s r fs).2.mic = s.mic ∧ (State.fwMarkNext s r fs).2.flt = s.flt ∧
    (State.fwMarkNext s r fs).2.ctrs = s.ctrs ∧ (State.fwMarkNext s r fs).2.grps = s.grps ∧ (State.fwMarkNext s r fs).2.pwr = s.pwr ∧
    (State.fwMarkNext s r fs).2.thm = s.thm ∧ (State.fwMarkNext s r fs).2.age = s.age ∧ (State.fwMarkNext s r fs).2.cnv = s.cnv ∧
    (State.fwMarkNext s r fs).2.glb = s.glb ∧ (State.fwMarkNext s r fs).2.sb = s.sb := by
  have w1 := @State.clearNext_still; have w2 := @State.heardOwner_still; have w3 := @State.markNext_still
  have w4 := @State.unlockFwu_still
  unfold State.fwMarkNext; repeat' split
  all_goals simp [*]
theorem State.fwActivate_still (s : State) (w : Waiter) (r : Requester) (fs : Nat) (progOk : Bool) :
    (State.fwActivate s w r fs progOk).2.pending = s.pending ∧ (State.fwActivate s w r fs progOk).2.epoch = s.epoch ∧
    (State.fwActivate s w r fs progOk).2.dramMargin = s.dramMargin ∧ (State.fwActivate s w r fs progOk).2.ports = s.ports ∧
    (State.fwActivate s w r fs progOk).2.trickle = s.trickle ∧ (State.fwActivate s w r fs progOk).2.sec = s.sec ∧
    (State.fwActivate s w r fs progOk).2.ctrs = s.ctrs ∧ (State.fwActivate s w r fs progOk).2.grps = s.grps ∧
    (State.fwActivate s w r fs progOk).2.thm = s.thm ∧ (State.fwActivate s w r fs progOk).2.age = s.age ∧
    (State.fwActivate s w r fs progOk).2.glb = s.glb := by
  have w1 := @State.activateReset_still; have w2 := @State.applySlot_still; have w3 := @State.heardOwner_still
  have w4 := @State.markNext_still; have w5 := @State.tryActivate_still; have w6 := @State.unlockFwu_still
  unfold State.fwActivate; dsimp only; repeat' split
  all_goals simp [*]
theorem State.fwuAbort_still (s : State) (v : Nat) :
    (State.fwuAbort s v).pending = s.pending ∧ (State.fwuAbort s v).free = s.free ∧ (State.fwuAbort s v).host = s.host ∧
    (State.fwuAbort s v).epoch = s.epoch ∧ (State.fwuAbort s v).pat = s.pat ∧ (State.fwuAbort s v).isl = s.isl ∧
    (State.fwuAbort s v).routes = s.routes ∧ (State.fwuAbort s v).dramMargin = s.dramMargin ∧ (State.fwuAbort s v).ports = s.ports ∧
    (State.fwuAbort s v).trickle = s.trickle ∧ (State.fwuAbort s v).cmd = s.cmd ∧ (State.fwuAbort s v).zon = s.zon ∧
    (State.fwuAbort s v).med = s.med ∧ (State.fwuAbort s v).mlf = s.mlf ∧ (State.fwuAbort s v).cpx = s.cpx ∧
    (State.fwuAbort s v).wvf = s.wvf ∧ (State.fwuAbort s v).bpm = s.bpm ∧ (State.fwuAbort s v).sli = s.sli ∧
    (State.fwuAbort s v).sec = s.sec ∧ (State.fwuAbort s v).mic = s.mic ∧ (State.fwuAbort s v).flt = s.flt ∧
    (State.fwuAbort s v).ctrs = s.ctrs ∧ (State.fwuAbort s v).grps = s.grps ∧ (State.fwuAbort s v).pwr = s.pwr ∧
    (State.fwuAbort s v).thm = s.thm ∧ (State.fwuAbort s v).age = s.age ∧ (State.fwuAbort s v).cnv = s.cnv ∧
    (State.fwuAbort s v).glb = s.glb ∧ (State.fwuAbort s v).sb = s.sb := by
  have w1 := @State.unlockFwu_still; have wi := @ite_parts
  simp [State.fwuAbort, w1, wi]
theorem State.setPatSlot_still (s : State) (slot : Nat) (v : PatSlot) :
    (State.setPatSlot s slot v).pending = s.pending ∧ (State.setPatSlot s slot v).free = s.free ∧
    (State.setPatSlot s slot v).host = s.host ∧ (State.setPatSlot s slot v).epoch = s.epoch ∧ (State.setPatSlot s slot v).isl = s.isl ∧
    (State.setPatSlot s slot v).routes = s.routes ∧ (State.setPatSlot s slot v).dramMargin = s.dramMargin ∧
    (State.setPatSlot s slot v).ports = s.ports ∧ (State.setPatSlot s slot v).trickle = s.trickle ∧
    (State.setPatSlot s slot v).cmd = s.cmd ∧ (State.setPatSlot s slot v).zon = s.zon ∧ (State.setPatSlot s slot v).med = s.med ∧
    (State.setPatSlot s slot v).mlf = s.mlf ∧ (State.setPatSlot s slot v).cpx = s.cpx ∧ (State.setPatSlot s slot v).wvf = s.wvf ∧
    (State.setPatSlot s slot v).bpm = s.bpm ∧ (State.setPatSlot s slot v).sli = s.sli ∧ (State.setPatSlot s slot v).sec = s.sec ∧
    (State.setPatSlot s slot v).mic = s.mic ∧ (State.setPatSlot s slot v).flt = s.flt ∧ (State.setPatSlot s slot v).ctrs = s.ctrs ∧
    (State.setPatSlot s slot v).grps = s.grps ∧ (State.setPatSlot s slot v).pwr = s.pwr ∧ (State.setPatSlot s slot v).thm = s.thm ∧
    (State.setPatSlot s slot v).age = s.age ∧ (State.setPatSlot s slot v).cnv = s.cnv ∧ (State.setPatSlot s slot v).fwu = s.fwu ∧
    (State.setPatSlot s slot v).glb = s.glb ∧ (State.setPatSlot s slot v).sb = s.sb := by
  simp [State.setPatSlot]
theorem State.dropLoad_still (s : State) :
    (State.dropLoad s).pending = s.pending ∧ (State.dropLoad s).free = s.free ∧ (State.dropLoad s).host = s.host ∧
    (State.dropLoad s).epoch = s.epoch ∧ (State.dropLoad s).isl = s.isl ∧ (State.dropLoad s).routes = s.routes ∧
    (State.dropLoad s).dramMargin = s.dramMargin ∧ (State.dropLoad s).ports = s.ports ∧ (State.dropLoad s).trickle = s.trickle ∧
    (State.dropLoad s).cmd = s.cmd ∧ (State.dropLoad s).zon = s.zon ∧ (State.dropLoad s).med = s.med ∧ (State.dropLoad s).mlf = s.mlf ∧
    (State.dropLoad s).cpx = s.cpx ∧ (State.dropLoad s).wvf = s.wvf ∧ (State.dropLoad s).bpm = s.bpm ∧ (State.dropLoad s).sli = s.sli ∧
    (State.dropLoad s).sec = s.sec ∧ (State.dropLoad s).mic = s.mic ∧ (State.dropLoad s).flt = s.flt ∧ (State.dropLoad s).ctrs = s.ctrs ∧
    (State.dropLoad s).grps = s.grps ∧ (State.dropLoad s).pwr = s.pwr ∧ (State.dropLoad s).thm = s.thm ∧ (State.dropLoad s).age = s.age ∧
    (State.dropLoad s).cnv = s.cnv ∧ (State.dropLoad s).fwu = s.fwu ∧ (State.dropLoad s).glb = s.glb ∧ (State.dropLoad s).sb = s.sb := by
  simp [State.dropLoad]
theorem State.startSlot_still (s : State) (slot off : Nat) :
    (State.startSlot s slot off).pending = s.pending ∧ (State.startSlot s slot off).free = s.free ∧
    (State.startSlot s slot off).host = s.host ∧ (State.startSlot s slot off).epoch = s.epoch ∧ (State.startSlot s slot off).isl = s.isl ∧
    (State.startSlot s slot off).routes = s.routes ∧ (State.startSlot s slot off).dramMargin = s.dramMargin ∧
    (State.startSlot s slot off).ports = s.ports ∧ (State.startSlot s slot off).trickle = s.trickle ∧
    (State.startSlot s slot off).cmd = s.cmd ∧ (State.startSlot s slot off).zon = s.zon ∧ (State.startSlot s slot off).med = s.med ∧
    (State.startSlot s slot off).mlf = s.mlf ∧ (State.startSlot s slot off).cpx = s.cpx ∧ (State.startSlot s slot off).wvf = s.wvf ∧
    (State.startSlot s slot off).bpm = s.bpm ∧ (State.startSlot s slot off).sli = s.sli ∧ (State.startSlot s slot off).sec = s.sec ∧
    (State.startSlot s slot off).mic = s.mic ∧ (State.startSlot s slot off).ctrs = s.ctrs ∧ (State.startSlot s slot off).grps = s.grps ∧
    (State.startSlot s slot off).pwr = s.pwr ∧ (State.startSlot s slot off).thm = s.thm ∧ (State.startSlot s slot off).age = s.age ∧
    (State.startSlot s slot off).fwu = s.fwu ∧ (State.startSlot s slot off).glb = s.glb ∧ (State.startSlot s slot off).sb = s.sb := by
  have w1 := @State.eraseRange_still; have w2 := @State.setPatSlot_still; have wi := @ite_parts
  simp [State.startSlot, w1, w2, wi]
theorem State.holdLoad_still (s : State) (h : Option Nat) (slot nxt : Nat) :
    (State.holdLoad s h slot nxt).pending = s.pending ∧ (State.holdLoad s h slot nxt).free = s.free ∧
    (State.holdLoad s h slot nxt).host = s.host ∧ (State.holdLoad s h slot nxt).epoch = s.epoch ∧
    (State.holdLoad s h slot nxt).isl = s.isl ∧ (State.holdLoad s h slot nxt).routes = s.routes ∧
    (State.holdLoad s h slot nxt).dramMargin = s.dramMargin ∧ (State.holdLoad s h slot nxt).ports = s.ports ∧
    (State.holdLoad s h slot nxt).trickle = s.trickle ∧ (State.holdLoad s h slot nxt).cmd = s.cmd ∧
    (State.holdLoad s h slot nxt).zon = s.zon ∧ (State.holdLoad s h slot nxt).med = s.med ∧ (State.holdLoad s h slot nxt).mlf = s.mlf ∧
    (State.holdLoad s h slot nxt).cpx = s.cpx ∧ (State.holdLoad s h slot nxt).wvf = s.wvf ∧ (State.holdLoad s h slot nxt).bpm = s.bpm ∧
    (State.holdLoad s h slot nxt).sli = s.sli ∧ (State.holdLoad s h slot nxt).sec = s.sec ∧ (State.holdLoad s h slot nxt).mic = s.mic ∧
    (State.holdLoad s h slot nxt).flt = s.flt ∧ (State.holdLoad s h slot nxt).ctrs = s.ctrs ∧ (State.holdLoad s h slot nxt).grps = s.grps ∧
    (State.holdLoad s h slot nxt).pwr = s.pwr ∧ (State.holdLoad s h slot nxt).thm = s.thm ∧ (State.holdLoad s h slot nxt).age = s.age ∧
    (State.holdLoad s h slot nxt).cnv = s.cnv ∧ (State.holdLoad s h slot nxt).fwu = s.fwu ∧ (State.holdLoad s h slot nxt).glb = s.glb ∧
    (State.holdLoad s h slot nxt).sb = s.sb := by
  simp [State.holdLoad]
theorem State.heardLoad_still (s : State) (r : Requester) :
    (State.heardLoad s r).pending = s.pending ∧ (State.heardLoad s r).free = s.free ∧ (State.heardLoad s r).host = s.host ∧
    (State.heardLoad s r).epoch = s.epoch ∧ (State.heardLoad s r).isl = s.isl ∧ (State.heardLoad s r).routes = s.routes ∧
    (State.heardLoad s r).dramMargin = s.dramMargin ∧ (State.heardLoad s r).ports = s.ports ∧ (State.heardLoad s r).trickle = s.trickle ∧
    (State.heardLoad s r).cmd = s.cmd ∧ (State.heardLoad s r).zon = s.zon ∧ (State.heardLoad s r).med = s.med ∧
    (State.heardLoad s r).mlf = s.mlf ∧ (State.heardLoad s r).cpx = s.cpx ∧ (State.heardLoad s r).wvf = s.wvf ∧
    (State.heardLoad s r).bpm = s.bpm ∧ (State.heardLoad s r).sli = s.sli ∧ (State.heardLoad s r).sec = s.sec ∧
    (State.heardLoad s r).mic = s.mic ∧ (State.heardLoad s r).flt = s.flt ∧ (State.heardLoad s r).ctrs = s.ctrs ∧
    (State.heardLoad s r).grps = s.grps ∧ (State.heardLoad s r).pwr = s.pwr ∧ (State.heardLoad s r).thm = s.thm ∧
    (State.heardLoad s r).age = s.age ∧ (State.heardLoad s r).cnv = s.cnv ∧ (State.heardLoad s r).fwu = s.fwu ∧
    (State.heardLoad s r).glb = s.glb ∧ (State.heardLoad s r).sb = s.sb := by
  have wi := @ite_parts
  simp [State.heardLoad, wi]
theorem State.patPiece_still (s : State) (r : Requester) (data : List Byte) (slot off n : Nat) :
    (State.patPiece s r data slot off n).2.pending = s.pending ∧ (State.patPiece s r data slot off n).2.free = s.free ∧
    (State.patPiece s r data slot off n).2.host = s.host ∧ (State.patPiece s r data slot off n).2.epoch = s.epoch ∧
    (State.patPiece s r data slot off n).2.isl = s.isl ∧ (State.patPiece s r data slot off n).2.routes = s.routes ∧
    (State.patPiece s r data slot off n).2.dramMargin = s.dramMargin ∧ (State.patPiece s r data slot off n).2.ports = s.ports ∧
    (State.patPiece s r data slot off n).2.trickle = s.trickle ∧ (State.patPiece s r data slot off n).2.cmd = s.cmd ∧
    (State.patPiece s r data slot off n).2.zon = s.zon ∧ (State.patPiece s r data slot off n).2.med = s.med ∧
    (State.patPiece s r data slot off n).2.mlf = s.mlf ∧ (State.patPiece s r data slot off n).2.cpx = s.cpx ∧
    (State.patPiece s r data slot off n).2.wvf = s.wvf ∧ (State.patPiece s r data slot off n).2.bpm = s.bpm ∧
    (State.patPiece s r data slot off n).2.sli = s.sli ∧ (State.patPiece s r data slot off n).2.sec = s.sec ∧
    (State.patPiece s r data slot off n).2.mic = s.mic ∧ (State.patPiece s r data slot off n).2.ctrs = s.ctrs ∧
    (State.patPiece s r data slot off n).2.grps = s.grps ∧ (State.patPiece s r data slot off n).2.pwr = s.pwr ∧
    (State.patPiece s r data slot off n).2.thm = s.thm ∧ (State.patPiece s r data slot off n).2.age = s.age ∧
    (State.patPiece s r data slot off n).2.fwu = s.fwu ∧ (State.patPiece s r data slot off n).2.glb = s.glb ∧
    (State.patPiece s r data slot off n).2.sb = s.sb := by
  have w1 := @State.heardLoad_still; have w2 := @State.startSlot_still; have w3 := @State.programRange_still
  have w4 := @State.holdLoad_still; have wi := @ite_parts
  unfold State.patPiece; repeat' split
  all_goals simp [*]
theorem State.patTransfer_still (s : State) (r : Requester) (q : Sqe) (data : List Byte) :
    (State.patTransfer s r q data).2.pending = s.pending ∧ (State.patTransfer s r q data).2.free = s.free ∧
    (State.patTransfer s r q data).2.host = s.host ∧ (State.patTransfer s r q data).2.epoch = s.epoch ∧
    (State.patTransfer s r q data).2.isl = s.isl ∧ (State.patTransfer s r q data).2.routes = s.routes ∧
    (State.patTransfer s r q data).2.dramMargin = s.dramMargin ∧ (State.patTransfer s r q data).2.ports = s.ports ∧
    (State.patTransfer s r q data).2.trickle = s.trickle ∧ (State.patTransfer s r q data).2.cmd = s.cmd ∧
    (State.patTransfer s r q data).2.zon = s.zon ∧ (State.patTransfer s r q data).2.med = s.med ∧
    (State.patTransfer s r q data).2.mlf = s.mlf ∧ (State.patTransfer s r q data).2.cpx = s.cpx ∧
    (State.patTransfer s r q data).2.wvf = s.wvf ∧ (State.patTransfer s r q data).2.bpm = s.bpm ∧
    (State.patTransfer s r q data).2.sli = s.sli ∧ (State.patTransfer s r q data).2.sec = s.sec ∧
    (State.patTransfer s r q data).2.mic = s.mic ∧ (State.patTransfer s r q data).2.ctrs = s.ctrs ∧
    (State.patTransfer s r q data).2.grps = s.grps ∧ (State.patTransfer s r q data).2.pwr = s.pwr ∧
    (State.patTransfer s r q data).2.thm = s.thm ∧ (State.patTransfer s r q data).2.age = s.age ∧
    (State.patTransfer s r q data).2.fwu = s.fwu ∧ (State.patTransfer s r q data).2.glb = s.glb ∧
    (State.patTransfer s r q data).2.sb = s.sb := by
  have w1 := @State.patPiece_still
  simp [State.patTransfer, w1]
theorem State.patCommit_still (s : State) (r : Requester) (q : Sqe) :
    (State.patCommit s r q).2.pending = s.pending ∧ (State.patCommit s r q).2.free = s.free ∧ (State.patCommit s r q).2.host = s.host ∧
    (State.patCommit s r q).2.epoch = s.epoch ∧ (State.patCommit s r q).2.isl = s.isl ∧ (State.patCommit s r q).2.routes = s.routes ∧
    (State.patCommit s r q).2.dramMargin = s.dramMargin ∧ (State.patCommit s r q).2.ports = s.ports ∧
    (State.patCommit s r q).2.trickle = s.trickle ∧ (State.patCommit s r q).2.cmd = s.cmd ∧ (State.patCommit s r q).2.zon = s.zon ∧
    (State.patCommit s r q).2.med = s.med ∧ (State.patCommit s r q).2.mlf = s.mlf ∧ (State.patCommit s r q).2.cpx = s.cpx ∧
    (State.patCommit s r q).2.wvf = s.wvf ∧ (State.patCommit s r q).2.bpm = s.bpm ∧ (State.patCommit s r q).2.sli = s.sli ∧
    (State.patCommit s r q).2.sec = s.sec ∧ (State.patCommit s r q).2.mic = s.mic ∧ (State.patCommit s r q).2.flt = s.flt ∧
    (State.patCommit s r q).2.ctrs = s.ctrs ∧ (State.patCommit s r q).2.grps = s.grps ∧ (State.patCommit s r q).2.pwr = s.pwr ∧
    (State.patCommit s r q).2.thm = s.thm ∧ (State.patCommit s r q).2.age = s.age ∧ (State.patCommit s r q).2.cnv = s.cnv ∧
    (State.patCommit s r q).2.fwu = s.fwu ∧ (State.patCommit s r q).2.glb = s.glb ∧ (State.patCommit s r q).2.sb = s.sb := by
  have w1 := @State.dropLoad_still; have w2 := @State.setPatSlot_still
  unfold State.patCommit; dsimp only; repeat' split
  all_goals simp [*]
theorem State.patErase_still (s : State) (r : Requester) (q : Sqe) :
    (State.patErase s r q).2.pending = s.pending ∧ (State.patErase s r q).2.free = s.free ∧ (State.patErase s r q).2.host = s.host ∧
    (State.patErase s r q).2.epoch = s.epoch ∧ (State.patErase s r q).2.isl = s.isl ∧ (State.patErase s r q).2.routes = s.routes ∧
    (State.patErase s r q).2.dramMargin = s.dramMargin ∧ (State.patErase s r q).2.ports = s.ports ∧
    (State.patErase s r q).2.trickle = s.trickle ∧ (State.patErase s r q).2.cmd = s.cmd ∧ (State.patErase s r q).2.zon = s.zon ∧
    (State.patErase s r q).2.med = s.med ∧ (State.patErase s r q).2.mlf = s.mlf ∧ (State.patErase s r q).2.cpx = s.cpx ∧
    (State.patErase s r q).2.wvf = s.wvf ∧ (State.patErase s r q).2.bpm = s.bpm ∧ (State.patErase s r q).2.sli = s.sli ∧
    (State.patErase s r q).2.sec = s.sec ∧ (State.patErase s r q).2.mic = s.mic ∧ (State.patErase s r q).2.ctrs = s.ctrs ∧
    (State.patErase s r q).2.grps = s.grps ∧ (State.patErase s r q).2.pwr = s.pwr ∧ (State.patErase s r q).2.thm = s.thm ∧
    (State.patErase s r q).2.age = s.age ∧ (State.patErase s r q).2.fwu = s.fwu ∧ (State.patErase s r q).2.glb = s.glb ∧
    (State.patErase s r q).2.sb = s.sb := by
  have w1 := @State.heardLoad_still; have w2 := @State.eraseRange_still; have w3 := @State.setPatSlot_still
  have w4 := @State.dropLoad_still; have wi := @ite_parts
  unfold State.patErase; dsimp only; repeat' split
  all_goals simp [*]
theorem State.rebind_still (s : State) (r : Nat) (n : Option RouteRec) :
    (State.rebind s r n).pending = s.pending ∧ (State.rebind s r n).free = s.free ∧ (State.rebind s r n).host = s.host ∧
    (State.rebind s r n).epoch = s.epoch ∧ (State.rebind s r n).pat = s.pat ∧ (State.rebind s r n).isl = s.isl ∧
    (State.rebind s r n).dramMargin = s.dramMargin ∧ (State.rebind s r n).ports = s.ports ∧ (State.rebind s r n).trickle = s.trickle ∧
    (State.rebind s r n).cmd = s.cmd ∧ (State.rebind s r n).zon = s.zon ∧ (State.rebind s r n).med = s.med ∧
    (State.rebind s r n).mlf = s.mlf ∧ (State.rebind s r n).cpx = s.cpx ∧ (State.rebind s r n).wvf = s.wvf ∧
    (State.rebind s r n).bpm = s.bpm ∧ (State.rebind s r n).sli = s.sli ∧ (State.rebind s r n).sec = s.sec ∧
    (State.rebind s r n).mic = s.mic ∧ (State.rebind s r n).flt = s.flt ∧ (State.rebind s r n).ctrs = s.ctrs ∧
    (State.rebind s r n).grps = s.grps ∧ (State.rebind s r n).pwr = s.pwr ∧ (State.rebind s r n).thm = s.thm ∧
    (State.rebind s r n).age = s.age ∧ (State.rebind s r n).cnv = s.cnv ∧ (State.rebind s r n).fwu = s.fwu ∧
    (State.rebind s r n).glb = s.glb ∧ (State.rebind s r n).sb = s.sb := by
  have w1 := @State.modRoute_still
  unfold State.rebind; repeat' split
  all_goals simp [*]
theorem State.loadHalf_still (s : State) (h seq : Nat) :
    (State.loadHalf s h seq).pending = s.pending ∧ (State.loadHalf s h seq).free = s.free ∧ (State.loadHalf s h seq).host = s.host ∧
    (State.loadHalf s h seq).epoch = s.epoch ∧ (State.loadHalf s h seq).pat = s.pat ∧ (State.loadHalf s h seq).isl = s.isl ∧
    (State.loadHalf s h seq).routes = s.routes ∧ (State.loadHalf s h seq).dramMargin = s.dramMargin ∧
    (State.loadHalf s h seq).ports = s.ports ∧ (State.loadHalf s h seq).trickle = s.trickle ∧ (State.loadHalf s h seq).cmd = s.cmd ∧
    (State.loadHalf s h seq).zon = s.zon ∧ (State.loadHalf s h seq).med = s.med ∧ (State.loadHalf s h seq).mlf = s.mlf ∧
    (State.loadHalf s h seq).cpx = s.cpx ∧ (State.loadHalf s h seq).bpm = s.bpm ∧ (State.loadHalf s h seq).sli = s.sli ∧
    (State.loadHalf s h seq).sec = s.sec ∧ (State.loadHalf s h seq).mic = s.mic ∧ (State.loadHalf s h seq).flt = s.flt ∧
    (State.loadHalf s h seq).ctrs = s.ctrs ∧ (State.loadHalf s h seq).grps = s.grps ∧ (State.loadHalf s h seq).pwr = s.pwr ∧
    (State.loadHalf s h seq).thm = s.thm ∧ (State.loadHalf s h seq).age = s.age ∧ (State.loadHalf s h seq).cnv = s.cnv ∧
    (State.loadHalf s h seq).fwu = s.fwu ∧ (State.loadHalf s h seq).glb = s.glb ∧ (State.loadHalf s h seq).sb = s.sb := by
  simp [State.loadHalf]
theorem State.loadPresets_still (s : State) (l : List CtrPreset) :
    (State.loadPresets s l).pending = s.pending ∧ (State.loadPresets s l).free = s.free ∧ (State.loadPresets s l).host = s.host ∧
    (State.loadPresets s l).epoch = s.epoch ∧ (State.loadPresets s l).pat = s.pat ∧ (State.loadPresets s l).isl = s.isl ∧
    (State.loadPresets s l).routes = s.routes ∧ (State.loadPresets s l).dramMargin = s.dramMargin ∧
    (State.loadPresets s l).ports = s.ports ∧ (State.loadPresets s l).trickle = s.trickle ∧ (State.loadPresets s l).cmd = s.cmd ∧
    (State.loadPresets s l).zon = s.zon ∧ (State.loadPresets s l).med = s.med ∧ (State.loadPresets s l).mlf = s.mlf ∧
    (State.loadPresets s l).cpx = s.cpx ∧ (State.loadPresets s l).wvf = s.wvf ∧ (State.loadPresets s l).bpm = s.bpm ∧
    (State.loadPresets s l).sli = s.sli ∧ (State.loadPresets s l).sec = s.sec ∧ (State.loadPresets s l).mic = s.mic ∧
    (State.loadPresets s l).flt = s.flt ∧ (State.loadPresets s l).grps = s.grps ∧ (State.loadPresets s l).pwr = s.pwr ∧
    (State.loadPresets s l).thm = s.thm ∧ (State.loadPresets s l).age = s.age ∧ (State.loadPresets s l).cnv = s.cnv ∧
    (State.loadPresets s l).fwu = s.fwu ∧ (State.loadPresets s l).glb = s.glb ∧ (State.loadPresets s l).sb = s.sb := by
  simp [State.loadPresets]
theorem State.applyWarm_still (s : State) (f : Frame) :
    (State.applyWarm s f).pending = s.pending ∧ (State.applyWarm s f).free = s.free ∧ (State.applyWarm s f).host = s.host ∧
    (State.applyWarm s f).epoch = s.epoch ∧ (State.applyWarm s f).dramMargin = s.dramMargin ∧ (State.applyWarm s f).ports = s.ports ∧
    (State.applyWarm s f).trickle = s.trickle ∧ (State.applyWarm s f).cmd = s.cmd ∧ (State.applyWarm s f).zon = s.zon ∧
    (State.applyWarm s f).med = s.med ∧ (State.applyWarm s f).mlf = s.mlf ∧ (State.applyWarm s f).cpx = s.cpx ∧
    (State.applyWarm s f).bpm = s.bpm ∧ (State.applyWarm s f).sli = s.sli ∧ (State.applyWarm s f).sec = s.sec ∧
    (State.applyWarm s f).mic = s.mic ∧ (State.applyWarm s f).grps = s.grps ∧ (State.applyWarm s f).thm = s.thm ∧
    (State.applyWarm s f).age = s.age ∧ (State.applyWarm s f).cnv = s.cnv ∧ (State.applyWarm s f).fwu = s.fwu ∧
    (State.applyWarm s f).glb = s.glb ∧ (State.applyWarm s f).sb = s.sb := by
  have w1 := @State.rebind_still; have w2 := @State.access_still; have w3 := @State.loadHalf_still
  have w4 := @State.modRoute_still; have w5 := @State.loadPresets_still; have wf := @foldl_parts
  have wi := @ite_parts
  simp [State.applyWarm, w1, w2, w3, w4, w5, wf, wi]
theorem State.abandonWrite_still (s : State) (v : Nat) :
    (State.abandonWrite s v).pending = s.pending ∧ (State.abandonWrite s v).free = s.free ∧ (State.abandonWrite s v).epoch = s.epoch ∧
    (State.abandonWrite s v).isl = s.isl ∧ (State.abandonWrite s v).dramMargin = s.dramMargin ∧ (State.abandonWrite s v).ports = s.ports ∧
    (State.abandonWrite s v).trickle = s.trickle ∧ (State.abandonWrite s v).zon = s.zon ∧ (State.abandonWrite s v).med = s.med ∧
    (State.abandonWrite s v).mlf = s.mlf ∧ (State.abandonWrite s v).cpx = s.cpx ∧ (State.abandonWrite s v).wvf = s.wvf ∧
    (State.abandonWrite s v).bpm = s.bpm ∧ (State.abandonWrite s v).sli = s.sli ∧ (State.abandonWrite s v).sec = s.sec ∧
    (State.abandonWrite s v).mic = s.mic ∧ (State.abandonWrite s v).flt = s.flt ∧ (State.abandonWrite s v).ctrs = s.ctrs ∧
    (State.abandonWrite s v).grps = s.grps ∧ (State.abandonWrite s v).pwr = s.pwr ∧ (State.abandonWrite s v).thm = s.thm ∧
    (State.abandonWrite s v).age = s.age ∧ (State.abandonWrite s v).cnv = s.cnv ∧ (State.abandonWrite s v).glb = s.glb := by
  have w1 := @State.endReload_still; have w2 := @State.tryActivate_still; have wi := @ite_parts
  simp [State.abandonWrite, w1, w2, wi]
theorem State.confirmVdd_still (s : State) :
    (State.confirmVdd s).pending = s.pending ∧ (State.confirmVdd s).free = s.free ∧ (State.confirmVdd s).host = s.host ∧
    (State.confirmVdd s).epoch = s.epoch ∧ (State.confirmVdd s).pat = s.pat ∧ (State.confirmVdd s).routes = s.routes ∧
    (State.confirmVdd s).dramMargin = s.dramMargin ∧ (State.confirmVdd s).ports = s.ports ∧ (State.confirmVdd s).trickle = s.trickle ∧
    (State.confirmVdd s).cmd = s.cmd ∧ (State.confirmVdd s).zon = s.zon ∧ (State.confirmVdd s).med = s.med ∧
    (State.confirmVdd s).mlf = s.mlf ∧ (State.confirmVdd s).cpx = s.cpx ∧ (State.confirmVdd s).wvf = s.wvf ∧
    (State.confirmVdd s).bpm = s.bpm ∧ (State.confirmVdd s).sli = s.sli ∧ (State.confirmVdd s).sec = s.sec ∧
    (State.confirmVdd s).mic = s.mic ∧ (State.confirmVdd s).flt = s.flt ∧ (State.confirmVdd s).ctrs = s.ctrs ∧
    (State.confirmVdd s).grps = s.grps ∧ (State.confirmVdd s).pwr = s.pwr ∧ (State.confirmVdd s).thm = s.thm ∧
    (State.confirmVdd s).age = s.age ∧ (State.confirmVdd s).cnv = s.cnv ∧ (State.confirmVdd s).fwu = s.fwu ∧ (State.confirmVdd s).sb = s.sb := by
  have w1 := @State.setPoint_still; have w2 := @State.lowerVdd_still; have wf := @foldl_parts
  simp [State.confirmVdd, w1, w2, wf]
theorem State.lockLost_still (s : State) (i : Nat) :
    (State.lockLost s i).pending = s.pending ∧ (State.lockLost s i).epoch = s.epoch ∧ (State.lockLost s i).dramMargin = s.dramMargin ∧
    (State.lockLost s i).sec = s.sec ∧ (State.lockLost s i).ctrs = s.ctrs ∧ (State.lockLost s i).grps = s.grps ∧
    (State.lockLost s i).thm = s.thm ∧ (State.lockLost s i).age = s.age ∧ (State.lockLost s i).cnv = s.cnv ∧
    (State.lockLost s i).glb = s.glb := by
  have w1 := @State.modIsl_still; have w2 := @State.faultNow_still
  simp [State.lockLost, w1, w2]
theorem State.holdWrite_still (s : State) (sl : Nat) (on : Bool) :
    (State.holdWrite s sl on).pending = s.pending ∧ (State.holdWrite s sl on).free = s.free ∧ (State.holdWrite s sl on).host = s.host ∧
    (State.holdWrite s sl on).epoch = s.epoch ∧ (State.holdWrite s sl on).pat = s.pat ∧ (State.holdWrite s sl on).isl = s.isl ∧
    (State.holdWrite s sl on).routes = s.routes ∧ (State.holdWrite s sl on).dramMargin = s.dramMargin ∧
    (State.holdWrite s sl on).ports = s.ports ∧ (State.holdWrite s sl on).trickle = s.trickle ∧ (State.holdWrite s sl on).cmd = s.cmd ∧
    (State.holdWrite s sl on).zon = s.zon ∧ (State.holdWrite s sl on).med = s.med ∧ (State.holdWrite s sl on).mlf = s.mlf ∧
    (State.holdWrite s sl on).cpx = s.cpx ∧ (State.holdWrite s sl on).wvf = s.wvf ∧ (State.holdWrite s sl on).bpm = s.bpm ∧
    (State.holdWrite s sl on).sec = s.sec ∧ (State.holdWrite s sl on).mic = s.mic ∧ (State.holdWrite s sl on).flt = s.flt ∧
    (State.holdWrite s sl on).ctrs = s.ctrs ∧ (State.holdWrite s sl on).grps = s.grps ∧ (State.holdWrite s sl on).pwr = s.pwr ∧
    (State.holdWrite s sl on).thm = s.thm ∧ (State.holdWrite s sl on).age = s.age ∧ (State.holdWrite s sl on).cnv = s.cnv ∧
    (State.holdWrite s sl on).fwu = s.fwu ∧ (State.holdWrite s sl on).sb = s.sb := by
  have w1 := @State.modSli_still; have wi := @ite_parts
  simp [State.holdWrite, w1, wi]

end Sys2Proof.Machine
end

