-- ==== Sys2Proof/Machine/PatternShow.lean ====
section
/-! DEFINITION. The effective panels as the Pattern inspection window shows them (R65): the layouts of Tables 2-2 and 2-5, written
from the structure in effect. -/

namespace Sys2Proof.Machine

/-- A record of fields, each (size in bytes, value), in the order of its layout. -/
def packed (l : List (Nat × Nat)) : List Byte := l.flatMap (fun f => leBytes f.1 f.2)

/-- Padding to a multiple of 4 bytes. -/
def pad4 (b : List Byte) : List Byte := b ++ List.replicate ((4 - b.length % 4) % 4) 0

/-- An 8-bit two's complement field. -/
def byteOf (t : Int) : Nat := (t % 256).toNat

/-- An island record; its operating points hold the margin plan's values. -/
def State.islPanelRec (s : State) (i : Nat) : List Byte :=
  let r : IslRec := s.pat.eff.isl.getD i {}
  let l := s.islPoints i
  if r.present then
    packed ([(1, i), (1, 1 + 2 * r.mayRetain.toNat + 4 * r.mayOff.toNat), (1, l.length), (1, 0)]
      ++ (List.range 4).flatMap (fun k => [(2, (l.getD k (0, 0)).1), (2, (l.getD k (0, 0)).2)]) ++ [(2, r.vmin), (2, r.vmax)])
  else packed [(1, i), (23, 0)]

def State.islPanel (s : State) : List Byte := packed [(2, 72), (6, 0)] ++ (List.range 72).flatMap s.islPanelRec

def padPanel (l : List PadRec) : List Byte :=
  packed [(2, l.length), (2, 0)] ++ l.flatMap (fun p => packed [(2, p.group), (1, p.drive), (1, p.odt), (1, p.slew), (1, p.safe), (2, 0)])

def hostPanel (h : HostPlan) : List Byte :=
  packed [(1, h.split), (1, h.maxGts), (1, h.trickleMod), (1, 0), (2, h.vendor), (2, h.device), (2, h.subVendor), (2, h.subDevice), (1, h.bar2Log2), (1, 0),
    (2, h.msix), (16, 0)]

def dramPanel (d : DramPlan) : List Byte :=
  packed [(1, d.mask), (1, d.ranks), (2, d.rate0), (2, d.rate1), (1, d.density), (1, d.timingSet), (2, d.capGib), (22, 0)]

def typePanelRec (t : TypeRec) : List Byte :=
  packed ([(4, t.pageB), (2, t.spareB), (2, t.pagesBlk), (2, t.blksPlane), (1, t.planes), (1, t.luns), (1, t.tgts), (1, t.modes), (2, t.ratedPe)]
    ++ (t.tR ++ t.tProg ++ t.tBers).map (fun v => (2, v)) ++ [(1, t.retry.length), (29, 0)]
    ++ t.retry.flatMap (fun r => r.map (fun v => (1, byteOf v))))

/-- A type's record as the effective panels show it: zero fields filled from the first die of the type that was found (R47, R65). -/
def MediaGeom.shownType (m : MediaGeom) (i : Nat) (t : TypeRec) : TypeRec :=
  match m.pages.find? (fun e => m.bayType.getD e.1 0xFF == i) with
  | some e => t.fill e.2
  | none => t

def mediaPanel (m : MediaGeom) : List Byte :=
  packed [(2, m.bayMask), (1, m.types.length), (1, 0), (2, m.rateMts), (2, 0)] ++ (m.types.mapIdx m.shownType).flatMap typePanelRec ++ packed (m.bayType.map (fun v => (1, v)))

def stripePanel (m : StripeMap) : List Byte :=
  packed [(1, m.sets.length), (1, m.singleBay.toNat), (2, m.tmpls.length), (4, 0)] ++ m.sets.flatMap (fun q => packed [(1, q.set), (3, 0), (256, q.dies)])
    ++ m.tmpls.flatMap (fun t => pad4 (packed ([(2, t.id), (1, t.width), (1, t.parity), (1, t.set), (3, 0)] ++ t.dies.map (fun d => (2, d)))))

def classPanel (l : List ZoneClass) : List Byte :=
  packed [(1, l.length), (3, 0)] ++ l.flatMap (fun c => packed [(1, c.cls), (1, c.mode), (1, c.sizeLog2), (1, c.set), (1, c.width), (1, c.parity),
    (1, c.isolated.toNat), (1, 0), (2, c.owner), (6, 0)])

def nsPanel (n : NsFrame) : List Byte := packed [(2, n.maxNs), (2, n.lbaf), (4, n.convGib), (1, n.fdpRg), (1, 0), (2, n.fdpPh), (20, 0)]

def templatePanel (l : List SliceTmpl) : List Byte :=
  packed [(1, l.length), (3, 0)] ++ l.flatMap (fun t => packed [(1, t.id), (1, t.ats.toNat + 2 * t.ordered.toNat), (2, 0), (2, t.qpairs), (2, 0), (4, t.inflight),
    (2, t.mediaW), (2, t.computeW), (4, t.specMib), (2, t.latUs), (1, t.set), (1, t.keys), (4, t.jobMs), (4, t.jobMib), (1, t.jobCores), (1, 0),
    (2, t.comet), (28, 0)])

def seamPanel (l : List RouteRec) : List Byte :=
  packed [(2, l.length), (2, 0)] ++ l.flatMap (fun r => packed ([(2, r.route), (1, r.stages.length), (1, r.dir.toNat + 2 * r.jobOnly.toNat)]
    ++ (List.range 8).map (fun k => (2, r.stages.getD k 0))))

def weavePanel (p : WeavePanel) : List Byte :=
  packed [(1, p.weaves.length), (1, 0), (2, p.cells.length), (2, p.mems.length), (2, 0)]
    ++ p.weaves.flatMap (fun w => packed [(1, w.weave), (1, w.inputs + 16 * w.outputs), (2, w.first), (2, w.cells), (2, 0)])
    ++ p.cells.flatMap (fun c => packed [(2, c.cell), (2, 0), (16, c.cfg)])
    ++ p.mems.flatMap (fun m => packed ([(2, m.cell), (2, 4 * m.words.length)] ++ m.words.map (fun v => (4, v))))

def faultPanel (l : List FaultRec) : List Byte :=
  packed [(2, l.length), (2, 0)] ++ l.flatMap (fun f => packed ([(2, f.source), (2, f.n), (4, f.wMs)] ++ (List.range 5).map (fun k => (1, f.react.getD k 0)) ++ [(3, 0)]))

def thermalPanel (t : Thermal) : List Byte :=
  packed ([t.warnSet, t.warnClr, t.thrSet, t.thrClr, t.shut, t.cwarnSet, t.cwarnClr, t.choldSet, t.choldClr].map (fun v => (1, byteOf v)) ++ [(7, 0)])

def powerPanel (p : PowerPolicy) : List Byte :=
  packed ([(1, p.capW), (1, p.pfailWired.toNat + 2 * p.lpAllowed.toNat), (2, 0), (4, p.holdupUs), (4, p.retIdleUs), (1, p.states.length), (3, 0)]
    ++ (List.range 8).flatMap (fun k => match p.states[k]? with
      | some x => [(2, x.maxpCw), (2, x.groups), (4, x.entryUs), (4, x.exitUs), (2, x.nonOp.toNat), (2, 0)]
      | none => [(16, 0)]))

def presetPanel (l : List CtrPreset) : List Byte :=
  packed [(2, l.length), (2, 0)] ++ l.flatMap (fun c => packed [(2, c.counter), (2, c.select), (2, c.slice), (1, c.island), (1, c.level.toNat + 2 * c.thrInt.toNat),
    (8, c.thresh)])

def sidebandPanel (p : SbPlan) : List Byte :=
  packed [(1, p.smbusOnly.toNat), (1, p.addr7), (1, p.eid), (1, p.mi.toNat + 2 * p.wakeAddr.toNat), (2, p.smbKhz), (10, 0)]

def calPanel (c : CalBounds) : List Byte :=
  packed ((List.range 3).map (fun k => (1, c.flDrift.getD k 0)) ++ [(1, 0), (2, c.flCbits), (2, 0), (2, c.dramMarginPs), (1, c.ucieMarginPct), (1, 0),
    (2, c.refMinH), (2, c.refMaxH), (16, 0)])

/-- A frame of Table 2-2. -/
def frameBytes (type inst : Nat) (payload : List Byte) : List Byte :=
  let b := packed [(2, type), (2, inst), (4, payload.length), (2, 1), (6, 0)] ++ payload
  b ++ leBytes 4 (crc32c b)

/-- The frame of a panel that may be absent. -/
def optFrame {α : Type} (type : Nat) (x : Option α) (f : α → List Byte) : List Byte :=
  match x with
  | some v => frameBytes type 0 (f v)
  | none => []

/-- Every panel in effect, in ascending TYPE. An absent optional panel shows its default (R45): route 0x000 alone, no weave, no
preset (DEDUCED, log 163). -/
def State.effPanels (s : State) : List Byte :=
  let p := s.pat.eff
  frameBytes 0x01 0 s.islPanel ++ frameBytes 0x02 0 (padPanel p.pad) ++ frameBytes 0x03 0 (hostPanel p.host)
    ++ optFrame 0x04 p.dram dramPanel ++ optFrame 0x05 p.media mediaPanel ++ optFrame 0x06 p.stripe stripePanel ++ optFrame 0x07 p.classes classPanel ++ optFrame 0x08 p.ns nsPanel
    ++ frameBytes 0x09 0 (templatePanel p.slices) ++ (if s.glb.bare then [] else frameBytes 0x0A 0 (seamPanel (p.seam.getD [plainRoute]))
    ++ frameBytes 0x0B 0 (weavePanel (p.weave0.getD {})) ++ frameBytes 0x0B 1 (weavePanel (p.weave1.getD {})))
    ++ frameBytes 0x0C 0 (faultPanel p.faults) ++ frameBytes 0x0D 0 (thermalPanel p.thermal) ++ frameBytes 0x0E 0 (powerPanel p.power)
    ++ (if s.glb.bare then [] else frameBytes 0x0F 0 (presetPanel (p.counters.getD []))) ++ frameBytes 0x10 0 (sidebandPanel p.sideband) ++ frameBytes 0x11 0 (calPanel p.cal)

end Sys2Proof.Machine
end

