-- ==== Sys2Proof/Machine/ReadHost.lean ====
section
/-! DEFINITION. What a read of a register returns: start-up, islands, the Pattern, ports, command intake and zones (00 R7 to R13,
01 R40, 02 R65, 03, 04 R136 and R137, 05 R170, 16 R455 and R461). A read changes no state (R10). -/

namespace Sys2Proof.Machine

/-- A register's value from its fields, each (lowest bit, width, value); reserved bits read 0 (R12). -/
def pack (l : List (Nat × Nat × Nat)) : Nat := sumNat (l.map (fun f => f.2.2 % 2 ^ f.2.1 * 2 ^ f.1))

/-- An _ACT field (R8), and a trigger field, which reads 1 once a 1 was written (R455) (DEDUCED, log 161). -/
def WsAct.bits (a : WsAct) : Nat := a.act.bits
def WsAct.trig (a : WsAct) : Nat := if a.act = .idle then 0 else 1

/-! GLB (R461). -/

/-- The slices held, 64 to a register. -/
def State.heldBits (s : State) (i : Nat) : Nat := sumNat ((List.range 64).map (fun k => if (s.slc (64 * i + k)).hold then 2 ^ k else 0))

def State.glbRead (s : State) (r : Nat) : Nat :=
  let g := s.glb
  if r = 0x00 then pack [(0, 4, g.step), (4, 1, g.adminReady.toNat), (5, 1, g.mediaReady.toNat), (6, 1, g.bare.toNat), (7, 1, g.pinStart.toNat),
    (8, 8, g.failStep), (16, 16, g.tAdminMs), (32, 16, g.tMediaMs)]
  else if r = 0x08 then pack [(0, 1, g.causePowerOn.toNat), (1, 1, g.causePin.toNat), (2, 1, g.causeTherm.toNat), (3, 1, g.causeUnsafe.toNat),
    (4, 1, g.causeFatal.toNat), (16, 16, g.pinCount)]
  else if r = 0x100 then pack [(0, 12, g.holdAct.view (g.holdSlice + g.holdSet.toNat * 2048)), (62, 2, g.holdAct.bits)]
  else if 0x200 ≤ r ∧ r < 0x300 then s.heldBits ((r - 0x200) / 8)
  else 0

/-! ISL (R40, R41). -/

def DState.bits : DState → Nat
  | .on => 0
  | .retention => 1
  | .off => 2
  | .changing => 3

def Avail.bits : Avail → Nat
  | .available => 0
  | .waking => 1
  | .resetting => 2
  | .isolated => 3

/-- ISL_CFG: an absent island reads 0 in every field. -/
def State.islCfg (s : State) (i : Nat) : Nat :=
  let l := (s.pat.eff.isl.getD i {}).points
  if present s.pat.eff i then pack [(0, 1, 1), (1, 3, l.length), (8, 16, (l.getD 0 (0, 0)).1), (24, 12, (l.getD 0 (0, 0)).2)] else 0

def State.islStatus (s : State) (i : Nat) : Nat :=
  let x := s.isle i
  pack [(0, 2, x.dstate.bits), (2, 2, x.avail.bits), (4, 2, x.point), (8, 7, x.budget), (16, 16, s.islFreq i), (32, 12, s.islVdd i), (48, 16, x.xingFail)]

def State.islRead (s : State) (r : Nat) : Nat :=
  if 72 * 0x40 ≤ r then 0
  else if r % 0x40 = 0 then s.islCfg (r / 0x40)
  else if r % 0x40 = 8 then s.islStatus (r / 0x40)
  else 0

/-! PAT (R65). -/

/-- PAT_RELOAD.SEATS: seats still held on draining slots. -/
def State.drainSeats (s : State) : Nat := sumNat (s.pat.reload.draining.map (fun k => (s.route k).seats))

def PatSlot.reg (p : PatSlot) : Nat := pack [(0, 8, p.err), (8, 8, p.panel), (16, 16, min 0xFFFF p.offset), (32, 32, p.seq)]

def State.patRead (s : State) (r : Nat) : Nat :=
  let p := s.pat
  if r = 0x00 then pack [(0, 2, p.source), (2, 1, p.reloaded.toNat), (8, 8, p.panels.length), (32, 32, p.seq)]
  else if r = 0x10 then (tval p.slots 0 : PatSlot).reg
  else if r = 0x18 then (tval p.slots 1 : PatSlot).reg
  else if r = 0x20 then pack [(0, 3, p.reload.phase), (8, 8, p.reload.panel), (16, 16, min 0xFFFF s.drainSeats), (32, 32, p.reload.seq)]
  else if r = 0x28 then pack [(0, 1, p.reload.abandonAct.trig), (1, 2, p.reload.abandonAct.bits)]
  else 0

/-! HLK (03). Port 1's registers read 0 in SPLIT 0. -/

def State.portCfg (s : State) (p : Nat) : Nat :=
  let h := s.pat.eff.host
  pack [(0, 1, 1), (1, 1, h.split), (2, 4, maskOf (s.portMods p)), (6, 6, h.maxGts), (12, 2, h.trickleMod),
        (14, 1, ((s.portMods p).contains h.trickleMod).toNat), (16, 8, h.bar2Log2)]

/-- MIN_EYE: the smallest eye of the port's modules at their last recalibration; 0 before the first. -/
def State.minEye (s : State) (p : Nat) : Nat := minNat ((s.port p).eyes.map (·.2))

def State.linkState (s : State) (p : Nat) : Nat :=
  let x := s.port p
  pack [(0, 3, x.lstate.bits), (3, 6, x.gts), (9, 4, x.modsUp), (13, 7, x.lanes), (20, 8, s.minEye p), (28, 16, x.retrains), (44, 16, x.linkdowns)]

/-- HLK_LEASE: the milliseconds to expiry of a live lease. -/
def State.leaseReg (s : State) (p : Nat) : Nat :=
  let x := s.port p
  pack [(0, 1, x.beatAct.trig), (1, 2, x.beatAct.bits), (3, 1, (s.leaseLive p).toNat), (4, 12, if s.leaseLive p then x.leaseEnd - s.nowMs else 0), (16, 32, x.expiries)]

/-- An interrupt message entry's 64-bit words: ADDR, then DATA and CTL (Table 3-5). -/
def MsgEnt.word (e : MsgEnt) (w : Nat) : Nat :=
  if w = 0 then e.addr else pack [(0, 32, e.data), (32, 1, e.mask.toNat), (33, 1, e.pend.toNat)]

/-- The pending bit array of a port's MSI-X table (R78). -/
def State.pendingBits (s : State) (p i : Nat) : Nat :=
  sumNat ((List.range 64).map (fun k => if (tval (s.port p).msix (64 * i + k) : MsgEnt).pend then 2 ^ k else 0))

def State.hlkRead (s : State) (via r : Nat) : Nat :=
  if r < 0x200 then
    let p := r / 0x100
    let x := s.port p
    if !s.hasPort p then 0
    else if r % 0x100 = 0x00 then s.portCfg p
    else if r % 0x100 = 0x08 then s.linkState p
    else if r % 0x100 = 0x10 then pack [(0, 1, x.detachAct.trig), (1, 2, x.detachAct.bits), (3, 3, x.phase)]
    else if r % 0x100 = 0x18 then s.leaseReg p
    else 0
  else if r = 0x200 then pack [(0, 2, s.trickle.cmd), (2, 2, s.trickle.act.bits), (4, 1, s.trickle.autoExit.toNat), (8, 2, s.trickle.tstate)]
  else if 0x1000 ≤ r ∧ r < 0x1400 then
    let p := (r - 0x1000) / 0x200
    let e : Bar2Ent := tval (s.port p).bar2 ((r - 0x1000) % 0x200 / 8)
    if s.hasPort p then e.act.view e.reg + e.act.bits * 2 ^ 62 else 0
  else if 0x10000 ≤ r ∧ (r - 0x10000) / 16 < s.pat.eff.host.msix ∧ r < 0x18000 then (tval (s.port via).msix ((r - 0x10000) / 16) : MsgEnt).word (r / 8 % 2)
  else if 0x18000 ≤ r ∧ (r - 0x18000) * 8 < s.pat.eff.host.msix then s.pendingBits via ((r - 0x18000) / 8)
  else 0

/-! CMD (R136). -/

/-- Contexts that the commands of a queue hold. -/
def State.inflightOf (s : State) (k : Nat) : Nat := tcount s.cmd.ctxs (fun _ x => x.dq == k)

/-- Is a device queue index's submission queue held back by a detach, an activation or a fetch hold (FSTATE 3)? -/
def State.fetchPaused (s : State) (q : Queue) : Bool :=
  (s.port q.port).phase != 0 || s.cmd.activationPause || (q.qid != 0 && (s.slc q.slice).hold)

/-- FSTATE: halted, paused, waiting for a context or quota, or fetching (DEDUCED, log 161). -/
def State.fstate (s : State) (k : Nat) : Nat :=
  let q := s.queue k
  if q.sqErr || tany s.cmd.oqs (fun _ o => o.en && o.halted && o.slice == q.slice && o.sqid == q.qid) then 2
  else if s.fetchPaused q then 3
  else if q.sqOn && q.head != q.tail && (s.ctxFor k).isNone then 1
  else 0

/-- Completions that wait for room in a completion queue. -/
def State.cqWaiting (s : State) (k : Nat) : Nat := tcount s.cmd.ctxs (fun _ x => x.stage == 14 && x.wait == 7 && s.cqOf (s.queue x.dq) == some k)

/-- The queue index of a sequencer's submission queue. -/
def State.oqDq (s : State) (o : Oq) : Option Nat :=
  if o.en then tfind s.cmd.queues (fun _ q => q.sqOn && q.slice == o.slice && q.qid == o.sqid && q.qid != 0) else none

/-- Fetched commands of a sequencer's queue that wait for their turn (wait cause 3). -/
def State.oqWaiting (s : State) (o : Oq) : Nat := tcount s.cmd.ctxs (fun _ x => x.ordered && x.slice == o.slice && x.sqid == o.sqid && x.wait == 3)

/-- Is a context in recovery (R113): a unit of it waits for its re-dispatch, is read again at a step of the ladder, or is reconstructed by
an eclipse read? -/
def State.recovering (s : State) (c : Nat) (x : Ctx) : Bool :=
  let mine (r : Rdr) : Bool := match r with | .cmd k _ tag => k == c && tag == x.tag | _ => false
  x.units.any (fun v => v.again && !v.done) || s.med.ecls.any (fun e => mine e.rdr)
    || tany s.med.dies (fun _ d => d.ops.any (fun p => p.step != 0 && (match p.k with | .read r => mine r | _ => false)))

/-- Is the command at NEXT_SLOT in recovery? -/
def State.oqRecovering (s : State) (o : Oq) : Bool :=
  tany s.cmd.ctxs (fun c x => x.ordered && x.open && x.slice == o.slice && x.sqid == o.sqid && x.slot == o.nextSlot
    && s.recovering c x)

/-- CMD_OQ_STATE.STATE. -/
def State.oqState (s : State) (o : Oq) : Nat :=
  if !o.en then 0 else if o.halted then 3 else if s.oqWaiting o != 0 && s.oqRecovering o then 2 else 1

/-- The three registers of a device queue index. -/
def State.queueReg (s : State) (k off : Nat) : Nat :=
  let q := s.queue k
  if off = 0x00 then
    let o := if q.qid = 0 then none else s.oqOf q.slice q.qid
    if q.sqOn || q.cqOn then pack [(0, 1, 1), (1, 11, q.slice), (12, 16, q.qid), (28, 1, o.isSome.toNat), (29, 6, o.getD 0), (35, 1, q.port)] else 0
  else if off = 0x08 then pack [(0, 16, q.head), (16, 16, q.tail), (32, 17, s.inflightOf k), (49, 2, s.fstate k)]
  else if off = 0x10 then
    pack [(0, 16, q.cqTail), (16, 16, q.cqHead), (32, 1, (q.cqOn && q.phase).toNat), (33, 16, min 0xFFFF (s.cqWaiting k)), (49, 11, q.vector)]
  else 0

def State.cmdRead (s : State) (r : Nat) : Nat :=
  let mib (n : Nat) : Nat := n / 2 ^ 20
  if r = 0x00 then pack [(0, 17, s.cmd.ctxs.length), (17, 1, (decide (65536 ≤ s.cmd.ctxs.length + s.withdrawnFree.length)).toNat),
    (32, 7, tcount s.cmd.oqs (fun _ o => o.en && o.halted))]
  else if r = 0x08 then s.cmd.fseq % 2 ^ 64
  else if r = 0x10 then pack [(0, 1, (!s.holdup).toNat), (1, 1, s.holdup.toNat), (2, 1, s.thm.coldHold.toNat), (16, 24, mib (s.dirtyLines * 4096)),
    (40, 24, mib s.dirtyLimit)]
  else if r = 0x18 then pack [(0, 32, s.cmd.dweRecorded), (32, 32, sumNat (s.sli.map (fun e => (e.2.dwe.filter (fun d => !d.reported)).length)))]
  else if 0x100 ≤ r ∧ r < 0x300 then
    let o := s.oq ((r - 0x100) / 8)
    pack [(0, 1, o.en.toNat), (1, 11, o.slice), (12, 16, o.sqid), (62, 2, o.cfgAct.bits)]
  else if 0x400 ≤ r ∧ r < 0x800 ∧ r % 0x10 = 0 then
    let o := s.oq ((r - 0x400) / 0x10)
    pack [(0, 2, s.oqState o), (2, 16, o.nextSlot), (18, 16, o.failedCid), (34, 16, min 0xFFFF (s.oqWaiting o)), (50, 14, o.halts)]
  else if 0x10000 ≤ r ∧ r < 0xA0000 then s.queueReg ((r - 0x10000) / 0x20) (r % 0x20)
  else if 0xA0000 ≤ r ∧ r < 0xC0000 then (s.slc ((r - 0xA0000) / 0x40)).sqstat.getD (r % 0x40 / 8) 0
  else if 0xC0000 ≤ r ∧ r < 0xC0018 then (if s.pat.eff.host.split = 0 then 0 else s.queueReg 18432 (r - 0xC0000))
  else 0

/-! ZON (05). Committed values (R170). -/

def State.zonClass (s : State) (c : Nat) : Nat :=
  match (patClasses s.pat.eff).find? (fun r => r.cls == c) with
  | none => 0
  | some z => pack [(0, 1, 1), (1, 2, z.mode), (3, 4, z.sizeLog2), (7, 6, z.set), (13, 1, z.isolated.toNat),
      (14, 21, classRowBytes s.pat.eff z / 2 ^ 20), (35, 21, s.rowsFreeCount z)]

def State.zonNs (s : State) (n off : Nat) : Nat :=
  match s.ns? n with
  | none => if off = 0 then pack [(0, 28, (tval s.zon.nsAct n : WsAct).view (0x2000 + 0x2000 * 16384)), (62, 2, (tval s.zon.nsAct n : WsAct).bits)] else 0
  | some x =>
    if off = 0 then pack [(0, 28, (tval s.zon.nsAct n : WsAct).view (x.maxActive + x.maxOpen * 16384)), (62, 2, (tval s.zon.nsAct n : WsAct).bits)]
    else
      let l := s.nsEnts n
      pack [(0, 1, 1), (1, 1, x.zoned.toNat), (2, 4, x.cls), (6, 11, x.owner), (17, 14, s.countActive l), (31, 14, s.countOpen l),
            (45, 11, x.extents.length), (56, 1, (s.nsReadOnly n).toNat)]

def State.zonRead (s : State) (r : Nat) : Nat :=
  if r = 0x00 then pack [(0, 14, s.countActive s.allEnts), (14, 14, s.countOpen s.allEnts), (32, 21, s.zon.extOwner.length * 1024),
    (53, 11, s.freeExtents.length)]
  else if 0x100 ≤ r ∧ r < 0x180 then s.zonClass ((r - 0x100) / 8)
  else if r = 0x200 then pack [(0, 7, mapMib s.pat.eff / 1024), (8, 13, s.zon.journalBytes / 2 ^ 20), (32, 32, s.zon.ckptSeq)]
  else if r = 0x208 then s.zon.hits % 2 ^ 64
  else if r = 0x210 then s.zon.misses % 2 ^ 64
  else if 0x10000 ≤ r ∧ nsOk ((r - 0x10000) / 16) then s.zonNs ((r - 0x10000) / 16) (r % 16)
  else 0

end Sys2Proof.Machine
end

