-- ==== Sys2Proof/Machine/ReadMedia.lean ====
section
/-! DEFINITION. What a read of a register returns: media, media life, compute, programs, weaves and pools (06, 07 R230, 08 R270,
09). Reading them changes nothing (R10, R208). -/

namespace Sys2Proof.Machine

/-- A count held at the largest value of a field of `n` bits. -/
def satBits (n v : Nat) : Nat := min v (2 ^ n - 1)

/-! MED (06). -/

/-- How many dies of a list are in a state. -/
def State.diesAs (s : State) (l : List Nat) (st : DieState) : Nat := (l.filter (fun d => (s.die d).state == st)).length

/-- The dies of a channel. -/
def chanDies (ch : Nat) : List Nat := (List.range 32).map (fun i => ch * 32 + i)

/-- MED_CH_CFG: a channel whose bay is not in use reads 0. -/
def State.chanCfg (s : State) (ch : Nat) : Nat :=
  match bayType? s.pat.eff (ch / 4) with
  | none => 0
  | some t => pack [(0, 1, 1), (1, 12, (s.pat.eff.media.getD {}).rateMts), (13, 6, t.tgts), (19, 6, t.luns), (25, 3, s.bayTypeNo (ch / 4))]

def State.chanReg (s : State) (ch off : Nat) : Nat :=
  let c := s.chan ch
  if off = 0x00 then s.chanCfg ch
  else if off = 0x08 then pack [(0, 3, c.cstate), (3, 12, c.rate), (15, 7, c.margin), (22, 16, c.retrains), (38, 6, s.diesAs (chanDies ch) .online),
    (44, 6, s.diesAs (chanDies ch) .failed)]
  else if off = 0x10 then pack [(0, 1, c.retrainAct.trig), (1, 2, c.retrainAct.bits)]
  else if 0x100 ≤ off ∧ off < 0x180 then c.cnt.getD ((off - 0x100) / 8) 0
  else 0

/-- Rows whose parity the engine of a cluster holds: the cluster of the row's first parity die (R180). -/
def State.parityRows (s : State) (k : Nat) : Nat :=
  tcount s.med.rows (fun _ r => r.state != .verified && dieBay ((s.stmpl r.tmpl).dies.getD (s.rowD r) 0) == k)

/-- MED_DIE.OP: the operation that runs, or the one suspended. -/
def dieOpCode (x : Die) : Nat :=
  let code (o : DieOp) (rd pr er : Nat) : Nat := match o.k with
    | .program _ => pr
    | .landing _ => pr
    | .reloc _ => pr
    | .fix _ => pr
    | .erase _ => er
    | _ => rd
  match x.cur, x.suspended with
  | some o, none => code o 1 2 3
  | some o, some _ => code o 1 2 3
  | none, some o => code o 0 4 5
  | none, none => 0

/-- MED_DIE: BUSY 0 while the island sleeps (R208). -/
def State.dieReg (s : State) (d : Nat) : Nat :=
  let x := s.die d
  pack [(0, 2, x.state.code), (2, 1, (x.cur.isSome && s.domOn (islMCL (dieBay d))).toNat), (3, 3, dieOpCode x), (6, 4, x.susp),
    (10, 16, satBits 16 x.queue.length), (26, 11, ((s.med.trackers.filter (fun e => e.1 / 2 ^ 24 == d)).map (fun e => e.1 / 4)).eraseDups.length), (48, 8, byteOf x.tempC)]

def State.cluReg (s : State) (k off : Nat) : Nat :=
  let c := s.clu k
  let b := s.bay k
  if off = 0x2000 then pack [(0, 13, c.schedAct.view (c.eclPct + c.rebuildPct * 64 + c.suspEn.toNat * 4096)), (62, 2, c.schedAct.bits)]
  else if off = 0x2008 then pack [(0, 20, satBits 20 (sumNat ((bayDies k).map (fun d => (s.die d).queue.length)))), (20, 7, c.susUs),
    (27, 10, satBits 10 (s.parityRows k)), (37, 7, c.eclUse), (44, 7, (s.isle (islMCL k)).budget)]
  else if off = 0x2020 then pack [(0, 3, b.cmd), (3, 1, b.force.toNat), (4, 2, b.cmdAct.bits), (6, 2, b.led)]
  else if off = 0x2028 then pack [(0, 4, b.bstate), (4, 1, b.prsnt.toNat), (5, 1, b.pwrgd.toNat), (6, 1, b.pwren.toNat), (7, 1, b.held.toNat),
    (8, 8, s.diesAs (bayDies k) .online), (16, 8, s.diesAs (bayDies k) .failed), (24, 8, b.newDies.length), (32, 10, b.progress), (48, 16, b.insertions)]
  else if off = 0x2030 then b.evt % 128
  else if 0x2100 ≤ off ∧ off < 0x2180 then c.cnt.getD ((off - 0x2100) / 8) 0
  else if 0x2800 ≤ off ∧ off < 0x2C00 then s.dieReg (k * 128 + (off - 0x2800) / 8)
  else 0

def State.medRead (s : State) (r : Nat) : Nat :=
  if r % 0x4000 < 0x2000 then s.chanReg (r / 0x4000) (r % 0x4000)
  else if r % 0x10000 < 0x4000 then s.cluReg (r / 0x10000) (r % 0x10000)
  else 0

/-! MLF (07). The die set values are those of the last wear record update; STAGE and CRIT_WARN are of the instant (R230). -/

/-- A set's available spare in percent, as saved. -/
def SetLife.savedAvail (l : SetLife) : Nat := if l.savedSpareInit = 0 then 100 else 100 * l.savedSpareLeft / l.savedSpareInit

/-- The device's available spare, from the saved values. -/
def State.savedSpare (s : State) : Nat := match s.setList with | [] => 100 | l => minNat (l.map (fun q => (s.setLife q).savedAvail))

def State.mlfRead (s : State) (r : Nat) : Nat :=
  let m := s.mlf
  if r = 0x00 then pack [(0, 3, s.devStage), (3, 5, m.critWarn), (8, 8, min 255 (maxNat (s.setList.map (fun q => (s.setLife q).savedPct)))),
    (16, 7, s.savedSpare), (23, 1, (s.setList.any (fun q => (s.setLife q).wlActive)).toNat),
    (24, 16, satBits 16 (sumNat (s.med.relocs.map (fun e => e.2.rows)))), (40, 16, satBits 16 (sumNat (s.setList.map (fun q => (s.setLife q).savedLlr))))]
  else if r = 0x08 then pack [(0, 18, m.wlAct.view (m.wlLimit + m.wlStop * 64 + m.wlReloc * 4096)), (62, 2, m.wlAct.bits)]
  else if r = 0x10 then pack [(0, 7, m.spareAct.view m.spareThresh), (62, 2, m.spareAct.bits)]
  else if 0x100 ≤ r ∧ r < 0x180 then m.relocCnt.getD ((r - 0x100) / 8) 0
  else if 0x1000 ≤ r then
    let q := (r - 0x1000) / 0x10
    let l := s.setLife q
    if !s.setList.contains q then 0
    else if r % 0x10 = 0 then pack [(0, 1, 1), (1, 3, l.stage), (4, 7, l.savedAvail), (12, 24, l.savedSpareLeft), (36, 24, l.savedSpareInit)]
    else pack [(0, 16, l.savedWearMin), (16, 16, l.savedWearMax), (32, 16, l.savedWearMean), (48, 8, min 255 l.savedPct)]
  else 0

/-! Compute (R270). An island in retention or off answers BUSY 0. -/

/-- Does a unit work: it is held and its island is on? -/
def State.unitBusy (s : State) (isl : Nat) (u : EngUnit) : Bool := u.busy && s.domOn isl

/-- The slice of a working unit. -/
def EngUnit.who (u : EngUnit) (b : Bool) : Nat := if b then u.slice else 0

/-- The ENG island of compressor or decompressor `u`. -/
def cpxIsl (u : Nat) : Nat := islENG (u % 32 / 8)

/-- Compute memory a slice holds, in units of 4 MiB, and its live handles. -/
def State.memHeld (s : State) (sl : Nat) : Nat := sumNat ((tfilter s.cpx.allocs (fun k _ => k / 65536 == sl)).map (fun e => e.2.units))
def State.memHandles (s : State) (sl : Nat) : Nat := tcount s.cpx.allocs (fun k _ => k / 65536 == sl)

def State.cpxRead (s : State) (r : Nat) : Nat :=
  let x := s.cpx
  let busy (t : Tbl EngUnit) (p : Nat → Bool) (f : Nat → Nat) : Nat := tcount t (fun k u => p k && s.unitBusy (f k) u)
  if r = 0x00 then pack [(0, 4, x.lanesAct.view x.lanes), (62, 2, x.lanesAct.bits)]
  else if r = 0x08 then pack [(0, 16, satBits 16 (tcount x.jobs (fun c _ => decide (8 ≤ (s.ctx c).stage) && decide ((s.ctx c).stage ≤ 13)))),
    (16, 6, busy x.units (fun k => decide (k < 32)) cpxIsl), (22, 6, busy x.units (fun k => decide (32 ≤ k)) cpxIsl),
    (28, 7, busy x.sieves (fun _ => true) (fun k => islMCL (k / 4))), (35, 5, busy x.index (fun _ => true) (fun k => islENG (k / 4)))]
  else if 0x100 ≤ r ∧ r < 0x180 then x.cnt.getD ((r - 0x100) / 8) 0
  else if 0x200 ≤ r ∧ r < 0x400 then
    let u : EngUnit := tval x.units ((r - 0x200) / 8)
    let b := s.unitBusy (cpxIsl ((r - 0x200) / 8)) u
    pack [(0, 1, b.toNat), (1, 11, u.who b), (12, 12, if b then u.route else 0), (24, 1, u.isolated.toNat)]
  else if 0x10000 ≤ r ∧ r < 0x18000 then
    let sl := (r - 0x10000) / 0x10
    if r % 0x10 = 0 then pack [(0, 18, (tval x.slices sl : UpcSlice).limAct.view (tval x.slices sl : UpcSlice).lim), (62, 2, (tval x.slices sl : UpcSlice).limAct.bits)]
    else pack [(0, 18, s.memHeld sl), (18, 11, s.memHandles sl)]
  else 0

def State.sveRead (s : State) (r : Nat) : Nat :=
  let k := r / 0x10
  let u : EngUnit := tval s.cpx.sieves k
  let b := s.unitBusy (islMCL (k / 4)) u
  if 64 ≤ k ∨ r % 0x10 ≠ 0 then 0 else pack [(0, 1, b.toNat), (1, 11, u.who b), (12, 1, u.isolated.toNat), (32, 32, u.parseFail)]

def State.idxRead (s : State) (r : Nat) : Nat :=
  let k := r / 8
  let u : EngUnit := tval s.cpx.index k
  let b := s.unitBusy (islENG (k / 4)) u
  if 16 ≤ k then 0 else pack [(0, 1, b.toNat), (1, 11, u.who b), (12, 2, if b then u.op else 0), (14, 1, u.isolated.toNat)]

/-! UPC, WVF and BPM (09). -/

/-- The place of a core among the cores of its job. -/
def State.coreIndex (s : State) (c k : Nat) : Nat := (((s.job c).cores.map (·.core)).idxOf? k).getD 0

def State.upcRead (s : State) (r : Nat) : Nat :=
  if r < 0x400 then
    let k := r / 8
    let u : EngUnit := tval s.cpx.cores k
    let b := s.unitBusy (islUCC (k / 4)) u
    pack [(0, 1, b.toNat), (1, 11, u.who b), (12, 16, if b then u.ctx else 0), (28, 7, if b then s.coreIndex u.ctx k else 0), (35, 1, u.isolated.toNat)]
  else if 0x10000 ≤ r ∧ r < 0x20000 then
    let sl := (r - 0x10000) / 0x20
    let x : UpcSlice := tval s.cpx.slices sl
    if r % 0x20 = 0x00 then pack [(0, 1, x.grantAct.view x.atsGrant.toNat), (1, 7, tcount s.cpx.allocs (fun k a => k / 65536 == sl && a.isProg)), (62, 2, x.grantAct.bits)]
    else if r % 0x20 = 0x08 then pack [(0, 8, x.cause), (8, 7, x.index), (15, 1, x.valid.toNat), (16, 16, x.prog), (32, 32, x.code)]
    else if r % 0x20 = 0x10 then x.pc % 2 ^ 64
    else x.tval % 2 ^ 64
  else 0

/-- The panel of a half, where one is loaded. -/
def State.halfPanel (s : State) (h : Nat) : Option WeavePanel := if h = 0 then s.pat.eff.weave0 else s.pat.eff.weave1

/-- WVF_HALF.STATE: isolated, off without a panel, ready once loaded, loading before. -/
def State.halfState (s : State) (h : Nat) : Nat :=
  if s.islIsolated (islWVF h) then 3 else if (s.halfPanel h).isNone then 0 else if (tval s.wvf h : Half).loaded then 2 else 1

def State.weaveReg (s : State) (h w : Nat) : Nat :=
  match weaveDir? s.pat.eff h w with
  | none => 0
  | some d =>
    let x : Half := tval s.wvf h
    let c := tget x.busy w
    pack [(0, 1, 1), (1, 1, c.isSome.toNat), (2, 11, match c with | some k => (s.ctx k).slice | none => 0), (13, 11, d.first), (24, 12, d.cells),
      (36, 4, d.inputs), (40, 4, d.outputs), (44, 20, satBits 20 (tgetD x.units w 0))]

def State.wvfRead (s : State) (r : Nat) : Nat :=
  let h := r / 0x1000
  let l := ((s.halfPanel h).getD {}).weaves
  if 2 ≤ h then 0
  else if r % 0x1000 = 0 then
    pack [(0, 2, s.halfState h), (2, 5, l.length), (7, 12, sumNat (l.map (·.cells))), (32, 32, (tval s.wvf h : Half).panelSeq)]
  else if 0x100 ≤ r % 0x1000 ∧ r % 0x1000 < 0x180 then s.weaveReg h ((r % 0x1000 - 0x100) / 8)
  else 0

def State.bpmRead (s : State) (r : Nat) : Nat :=
  if r < 0xC0 then
    let c := r / 0x20
    let p := s.pool c
    let n := popBits 16 ((s.pat.eff.media.getD {}).bayMask)
    if r % 0x20 = 0x00 then pack [(0, 28, p.frames), (28, 11, if c < 2 then n * lent c else 0), (39, 8, 64)]
    else if r % 0x20 = 0x08 then pack [(0, 28, p.freeCount), (28, 8, p.cache.length), (36, 1, (p.freeCount == 0).toNat),
      (37, 16, satBits 16 (s.bpm.stalls.filter (fun x => x.cls == c)).length)]
    else if r % 0x20 = 0x10 then pack [(0, 28, p.retired), (28, 20, tcount s.bpm.frames (fun k f => f.retiring && k / 2 ^ 28 == c))]
    else 0
  else if r = 0x200 then pack [(0, 20, wbufMib s.pat.eff), (20, 20, cometBytes s.pat.eff / 2 ^ 20), (40, 20, remainMib s.pat.eff / 1024)]
  else if 0x300 ≤ r ∧ r < 0x380 then s.bpm.cnt.getD ((r - 0x300) / 8) 0
  else 0

end Sys2Proof.Machine
end

