-- ==== Sys2Proof/Machine/ReadRest.lean ====
section
/-! DEFINITION. What a read of a register returns: slices, sessions and keys, memory integrity, faults and counters, power,
temperature, ageing, the code array and field update (10 R337, 11 R356, 12 R377, 13 R399, 14 R420, 15 R446). -/

namespace Sys2Proof.Machine

/-- A 16-bit two's complement field. -/
def half16 (t : Int) : Nat := (t % 65536).toNat

/-- The bits of 0 to n - 1 for which something holds. -/
def bitsWhere (n : Nat) (p : Nat → Bool) : Nat := sumNat ((List.range n).map (fun k => if p k then 2 ^ k else 0))

/-! SLI, SEC and CRY (10). -/

def State.sliReg (s : State) (sl off : Nat) : Nat :=
  let q := s.slc sl
  let h := q.shares
  if off = 0x00 then pack [(0, 3, q.state.code), (3, 1, q.port), (4, 20, if sl = 0 then s.sec.mgrPasid else q.pasid), (24, 8, q.template),
    (32, 5, bitsWhere 5 (fun k => q.override.getD k false))]
  else if off = 0x08 then pack [(0, 16, h.mediaW), (16, 16, h.computeW), (32, 17, h.inflight)]
  else if off = 0x10 then pack [(0, 17, h.specMib), (17, 13, h.comet)]
  else if off = 0x18 then pack [(0, 32, q.gen), (32, 16, satBits 16 q.oldItems), (48, 9, q.mbQueue.length)]
  else 0

def State.sliRead (s : State) (r : Nat) : Nat :=
  if r = 0 then s.epoch % 2 ^ 64
  else if r = 8 then pack [(0, 31, s.sec.pasidAct.view (s.sec.mgrPasid + s.sec.mbVector * 1048576)), (62, 2, s.sec.pasidAct.bits)]
  else if 0x10000 ≤ r ∧ r < 0x20000 then s.sliReg ((r - 0x10000) / 0x20) (r % 0x20)
  else 0

/-- SEC_SESSION: a free entry reads 0. -/
def State.sessionReg (s : State) (i : Nat) : Nat :=
  match tget s.sec.sessions i with
  | none => 0
  | some x =>
    match x.who with
    | .ctrl sl p => pack [(0, 1, 1), (1, 2, x.role), (3, 11, sl), (14, 1, p), (23, 12, x.key)]
    | .mctp e => pack [(0, 1, 1), (1, 2, x.role), (15, 8, e), (23, 12, x.key)]

/-- SEC_KEY: PRESENT, the lockout, and the fingerprint of a key that is present. -/
def State.keyReg (s : State) (k : Nat) : Nat :=
  let v := s.key k
  pack [(0, 1, (!v.key.isEmpty).toNat), (1, 3, v.fails), (4, 12, match v.lockUntil with | some t => ceilDiv (t - s.nowMs) 1000 | none => 0), (16, 4, min 15 v.lockouts),
    (32, 32, if v.key.isEmpty then 0 else u32 (digestBytes (sha384 v.key)) 0)]

def State.secRead (s : State) (r : Nat) : Nat :=
  if r < 0x1000 then (if r % 0x10 = 0 then s.sessionReg (r / 0x10) else (tval s.sec.sessions (r / 0x10) : Session).openMs)
  else if 0x10000 ≤ r ∧ (r - 0x10000) / 8 < 2064 then s.keyReg ((r - 0x10000) / 8)
  else 0

def State.cryRead (s : State) (r : Nat) : Nat :=
  if r < 0x80 then pack [(0, 1, (tval s.sec.cryAct (r / 8) : WsAct).view (tgetD s.sec.sharedKey (r / 8) false).toNat), (62, 2, (tval s.sec.cryAct (r / 8) : WsAct).bits)]
  else if r = 0x100 then pack [(0, 13, s.sec.slots.length + 1), (32, 32, satBits 32 s.sec.discards)]
  else 0

/-! MIC (11). -/

/-- The kinds of memory an island holds (MIC_MEM, Table 1-3). -/
def memKinds (isl : Nat) : List Nat :=
  if isl = islSEC then [12] else if isl = islCTL then [8] else if isl = islHFE then [10] else if isl = islCMI then [6, 11]
  else if isl = islTRN then [4, 5] else if isMcl isl then [7, 11] else if isDmi isl then [13]
  else if 34 ≤ isl ∧ isl < 38 then [11] else if 38 ≤ isl ∧ isl < 40 then [9] else if 40 ≤ isl ∧ isl < 72 then [0, 1, 2, 3] else []

def State.memReg (s : State) (isl j : Nat) : Nat :=
  let m := s.mem isl j
  if (memKinds isl).contains j && present s.pat.eff isl then
    pack [(0, 1, 1), (1, 1, m.degraded.toNat), (2, 4, if j = 13 then 0 else Config.rowLinesM1 isl j),
      (6, 10, Config.fuseSpareRows isl j - sumNat (m.usedRows.map (·.2))), (16, 10, Config.fuseSpareCols isl j - sumNat (m.usedCols.map (·.2))),
      (26, 7, m.track.length), (33, 15, m.disabled.length), (48, 16, satBits 16 m.fails)]
  else 0

def State.micRead (s : State) (r : Nat) : Nat :=
  let m := s.mic
  if r = 0x00 then pack [(0, 1, m.sramFilled.toNat), (1, 8, m.dramFilled), (16, 13, m.repairs.length), (29, 1, (decide (4096 ≤ m.repairs.length)).toNat),
    (32, 16, tcount m.mems (fun _ x => x.degraded)), (48, 16, satBits 16 m.withdrawn.length)]
  else if 0x40 ≤ r ∧ r < 0xC0 then m.cnt.getD ((r - 0x40) / 8) 0
  else if r = 0x100 then pack [(0, 1, m.flipAct.trig), (1, 2, m.flipAct.bits), (3, 4, m.flipCls), (7, 1, m.flipOnCrc.toNat), (8, 7, m.flipIsl),
    (16, 6, m.flipOff), (32, 16, m.flipMask), (48, 1, m.injected.toNat), (49, 1, m.detected.toNat)]
  else if 0x200 ≤ r ∧ r < 0x240 then m.fillPtr.getD ((r - 0x200) / 8) 0
  else if 0x10000 ≤ r ∧ r < 0x14800 ∧ r % 0x10 = 0 then s.memReg ((r - 0x10000) / 0x100) (r % 0x100 / 0x10)
  else 0

/-! FLT and EVC (12). -/

/-- FLT_SRC_*: a source of 0 to 891 is defined (R357). -/
def State.srcReg (s : State) (k off : Nat) : Nat :=
  let p := s.faultPol k
  let x : FltSrc := tval s.flt.srcs k
  if 892 ≤ k then 0
  else if off = 0x00 then pack [(0, 16, p.n), (16, 27, p.wMs), (43, 1, (fixedSrc k).toNat), (44, 1, 1)]
  else if off = 0x08 then pack ((List.range 5).map (fun l => (8 * l, 8, p.react.getD l 0)))
  else if off = 0x10 then pack [(0, 16, satBits 16 (x.window.filter (fun t => decide (s.nowMs < t + p.wMs))).length), (16, 32, x.events), (48, 3, x.lastLevel),
    (51, 1, (x.inHand s.nowMs).isSome.toNat)]
  else 0

/-- FLT_WDOG.RECENT: watchdog resets in the last 10 minutes. -/
def State.wdogCount (s : State) : Nat := (s.flt.wdogTimes.filter (fun t => decide (s.nowMs < t + 600000))).length

def State.fltRead (s : State) (r : Nat) : Nat :=
  let f := s.flt
  let u := f.ring.filter FltRec.unacked
  if r = 0x00 then pack [(0, 1, f.safe.toNat), (1, 1, f.fatal.toNat), (2, 1, f.irq.toNat), (3, 13, u.length), (16, 16, bitsWhere 16 s.unackedClass),
    (32, 16, f.overrun)]
  else if r = 0x08 then pack [(0, 32, f.ackSeq), (62, 2, f.ackAct.bits)]
  else if r = 0x10 then pack [(0, 11, f.vector), (16, 11, f.evcVector)]
  else if r = 0x18 then pack [(0, 1, f.relAct.trig), (1, 2, f.relAct.bits), (3, 10, f.causeSrc), (16, 32, f.causeSeq), (48, 16, f.entries)]
  else if r = 0x20 then pack [(0, 7, f.relIsland), (7, 8, f.relUnit), (62, 2, f.unitRelAct.bits)]
  else if r = 0x28 then pack [(0, 10, 250), (10, 2, min 3 s.wdogCount), (12, 1, f.wdogHold.toNat), (13, 16, f.wdogTotal), (29, 16, f.deferred),
    (45, 9, f.lastDefer)]
  else if 0x10000 ≤ r ∧ r < 0x18000 then s.srcReg ((r - 0x10000) / 0x20) (r % 0x20)
  else 0

def State.evcRead (s : State) (r : Nat) : Nat :=
  if r < 0x8000 then
    let c := s.ctr (r / 0x20)
    if r % 0x20 = 0x00 then c.selAct.view (c.reg + c.clr.toNat * 2 ^ 38) + c.selAct.bits * 2 ^ 62
    else if r % 0x20 = 0x08 then c.cnt
    else if r % 0x20 = 0x10 then c.thr
    else c.snap
  else if 0x10000 ≤ r ∧ r < 0x10200 then
    let g := s.grp ((r - 0x10000) / 8)
    pack [(0, 1, g.snapW.toNat), (1, 1, g.frozen.toNat), (2, 2, g.act.bits), (4, 16, g.hit), (20, 1, g.frozen.toNat)]
  else 0

/-! PWR (13). -/

/-- FLOOR_EFF. -/
def DState.floorBits : DState → Nat
  | .retention => 2
  | .off => 3
  | _ => 1

/-- RET_EST in 0.01 mA; 0 while off. -/
def State.retEst (s : State) (i : Nat) : Nat := satBits 16 (if (s.isle i).dstate = .off then 0 else ceilDiv (retScaled i (s.islTemp i)) 192)

/-- HOLDERS of an island that owns pad groups which can be held (R393). -/
def State.padHolders (s : State) (i : Nat) : Nat :=
  let x := s.isle i
  if isMcl i || isDmi i then pack [(0, 1, x.sleepHold.toNat), (1, 1, x.safeHold.toNat), (2, 1, x.removalHold.toNat), (3, 1, (!present s.pat.eff i).toNat)]
  else 0

def State.domReg (s : State) (i off : Nat) : Nat :=
  let x := s.isle i
  if off = 0x00 then pack [(0, 2, x.floorAct.view x.floor), (2, 2, x.floorAct.bits)]
  else if off = 0x08 then pack [(0, 2, x.dstate.bits), (2, 2, (s.effFloor i).floorBits), (4, 16, s.retEst i), (20, 12, satBits 12 x.lastWakeUs),
    (32, 4, x.wakeCause), (36, 16, x.wakes)]
  else if off = 0x10 then pack [(0, 1, x.padRelAct.trig), (1, 2, x.padRelAct.bits), (3, 1, (x.padAuto || isDmi i).toNat),
    (4, 1, (s.padHolders i != 0).toNat), (5, 4, s.padHolders i)]
  else 0

def State.pwrRead (s : State) (r : Nat) : Nat :=
  let p := s.pwr
  let doms (d : DState) : Nat := ((List.range 72).filter (fun i => (s.isle i).dstate == d)).length
  if r = 0x00 then pack [(0, 1, p.kmode.toNat), (1, 1, p.lpRefused.toNat), (2, 1, s.holdup.toNat), (3, 3, p.pstate), (8, 16, p.est), (24, 16, 3500),
    (40, 7, doms .retention), (47, 7, doms .off)]
  else if r = 0x08 then pack [(0, 1, p.reqAct.view p.reqLp.toNat), (1, 2, p.reqAct.bits)]
  else if r = 0x10 then pack [(0, 1, p.brownout.toNat), (1, 1, p.lpRevert.toNat), (2, 1, p.wakeSb.toNat), (3, 1, p.wakeLink.toNat), (4, 1, p.wakeBay.toNat),
    (16, 16, p.boCount)]
  else if 0x1000 ≤ r ∧ (r - 0x1000) / 0x20 < 72 then s.domReg ((r - 0x1000) / 0x20) (r % 0x20)
  else 0

/-! THM and AGE (14). -/

def State.thmRead (s : State) (r : Nat) : Nat :=
  let t := s.thm
  let hot := s.hottest
  let cold := s.coldest
  if r = 0x00 then pack [(0, 1, t.warn.toNat), (1, 1, t.coldWarn.toNat), (2, 1, t.coldHold.toNat), (3, 1, t.shutdown.toNat),
    (4, 12, bitsWhere 12 (fun k => (s.region k).active)), (16, 16, half16 (hot.getD 0)), (32, 16, half16 (cold.getD 0)),
    (48, 6, match hot with | some v => s.sensorAt v | none => 0),
    (54, 6, match cold with | some v => ((s.working (List.range 48)).find? (fun k => (s.sensor k).temp == v)).getD 0 | none => 0)]
  else if 0x100 ≤ r ∧ r < 0x280 then
    let k := (r - 0x100) / 8
    let x := s.sensor k
    pack [(0, 16, half16 x.temp), (16, 1, x.failed.toNat), (17, 2, x.cause), (19, 1, x.holding.toNat), (20, 4, sensorRegion k),
      (24, 16, half16 ((s.sensorUsed k).getD 0))]
  else if 0x300 ≤ r ∧ r < 0x480 then
    let x := s.sensor ((r - 0x300) / 8)
    pack [(0, 1, x.retestAct.trig), (1, 2, x.retestAct.bits)]
  else if 0x500 ≤ r ∧ r < 0x560 then
    let k := (r - 0x500) / 8
    pack [(0, 16, half16 ((s.regionTemp k).getD 0)), (16, 1, (s.region k).active.toNat), (17, 1, (s.clamped k).toNat), (18, 3, s.failedIn k),
      (21, 7, (s.region k).budget)]
  else if r = 0x600 then pack [(0, 32, t.warnMin), (32, 32, t.critMin)]
  else 0

/-- The islands of the active Pattern, and the lowest margin among them. -/
def State.planIsls (s : State) : List Nat := (List.range 72).filter (present s.pat.eff)
def State.marginMin (s : State) : Nat := minNat (s.planIsls.map (tgetD s.age.margin · 0))

/-- FREQ_CUT: a point of the plan in force runs below the Pattern's frequency. -/
def State.freqCut (s : State) (i : Nat) : Bool :=
  let l := s.islPoints i
  let m := (s.pat.eff.isl.getD i {}).points
  (List.range m.length).any (fun k => decide ((l.getD k (0, 0)).1 < (m.getD k (0, 0)).1))

def State.ageRead (s : State) (r : Nat) : Nat :=
  let a := s.age
  if r = 0x00 then pack [(0, 16, a.plan.ver), (16, 2, a.due.toNat), (32, 16, ceilDiv (a.lastMin + 60000 - s.onMinutes) 60), (48, 7, s.marginMin),
    (55, 7, (s.planIsls.find? (fun i => tgetD a.margin i 0 == s.marginMin)).getD 0)]
  else if 0x100 ≤ r ∧ r < 0x340 then
    let i := (r - 0x100) / 8
    let l := tgetD a.slack i []
    if present s.pat.eff i then
      pack ((List.range 4).map (fun k => (8 * k, 8, l.getD k 0)) ++ [(32, 7, tgetD a.margin i 0), (39, 1, (a.pending.contains i).toNat), (40, 1, (s.freqCut i).toNat)])
    else pack [(32, 7, 0x7F)]
  else if r = 0x800 then pack ((List.range 3).map (fun m => (16 * m, 16, s.refreshH m)))
  else if r = 0x808 then pack ((List.range 3).map (fun m => (6 * m, 6, s.driftLimit m)))
  else 0

/-! CNV and FWU (15). -/

def State.cnvRead (s : State) (r : Nat) : Nat :=
  if r < 0x40 ∧ r % 0x10 = 0 then
    let b := s.bank (r / 0x10)
    pack [(0, 1, b.cur.isSome.toNat), (1, 3, match b.cur with | some o => o.op | none => 0), (4, 7, b.progress), (11, 1, b.err.toNat), (12, 4, b.errCode),
      (16, 8, b.sector), (24, 8, satBits 8 b.queue.length)]
  else if 0x100 ≤ r ∧ r < 0x180 then s.cnv.cnt.getD ((r - 0x100) / 8) 0
  else if 0x1000 ≤ r ∧ r < 0x3000 then
    let n := (r - 0x1000) / 8
    pack [(0, 32, (s.sect n).erases), (32, 1, (s.protectedSect (n / 256) (n % 256)).toNat), (33, 1, (s.sect n).worn.toNat)]
  else 0

/-- FWU_STATUS: the staging lock's owner and its idle release after 600 s. -/
def State.fwuStatus (s : State) : Nat :=
  let f := s.fwu
  let own : Nat × Nat := match f.owner with
    | none => (0, 0)
    | some (.ctrl sl p) => (1, cntlid p sl)
    | some (.mctp e) => (2, e)
  pack [(0, 3, f.phase), (3, 2, own.1), (5, 1, f.owner.isSome.toNat), (6, 16, own.2),
    (22, 10, if f.owner.isSome then ceilDiv (f.lastMs + 600000 - s.nowMs) 1000 else 0), (32, 14, f.staged / 1024), (56, 8, f.result)]

def State.fwuRead (s : State) (r : Nat) : Nat :=
  let f := s.fwu
  if r = 0x00 then s.fwuStatus
  else if r = 0x10 ∨ r = 0x18 then
    let x := s.fwSlot ((r - 0x10) / 8)
    pack [(0, 3, x.state), (3, 1, x.running.toNat), (4, 1, x.next.toNat), (5, 1, x.knownGood.toNat), (6, 1, x.lkg.toNat),
      (32, 32, if x.state = 0 then 0 else x.ver)]
  else if r = 0x20 then pack [(0, 1, f.abortAct.trig), (1, 2, f.abortAct.bits)]
  else if r = 0x28 then pack [(0, 5, if f.windowOpen then ceilDiv (f.windowMin + 1440 - s.lifeMinutes) 60 else 0), (5, 1, f.windowOpen.toNat),
    (6, 8, f.migrated), (32, 32, f.fromVer)]
  else 0

end Sys2Proof.Machine
end

