-- ==== Sys2Proof/Machine/Windows.lean ====
section
/-! DEFINITION. What the inspection windows and the code array window show, byte by byte (02 R65, 04 R135, 05 R147, 15 R424 to
R426, 16 R456 to R458). -/

namespace Sys2Proof.Machine

/-- Byte `k` of a record given by its fields; a byte of no field reads 0 (R12). -/
def fieldByte (l : Fields) (k : Nat) : Byte :=
  match l.find? (fun f => decide (f.1 ≤ k) && decide (k < f.1 + f.2.1)) with
  | some f => BitVec.ofNat 8 (f.2.2 / 256 ^ (k - f.1))
  | none => 0

/-- The places whose content is open (DESIGN CHOICE, log 162). -/
def areaArray : Nat := 0
def areaCtx (i : Nat) : Nat := 4 * i + 1
def areaRing (c : Nat) : Nat := 4 * c + 2
def areaCache (c : Nat) : Nat := 4 * c + 3

/-! The Pattern (Table 2-11). -/

/-- Byte `k` of the image of the slot the active Pattern came from; zeros in the bare structure. -/
def State.imageByte (s : State) (k : Nat) : Byte := if s.pat.source < 2 then cellGet s.cnv.bytes (bankBase 3 + patOff s.pat.source + k) else 0

def State.patByte (s : State) (a : Nat) : Byte :=
  if a < 0x400000 then s.imageByte a
  else if a < 0x800000 then s.pat.lastPartial.getD (a - 0x400000) 0
  else if a < 0x800004 then fieldByte [(0, 4, s.pat.gen)] (a - 0x800000)
  else if 0x800010 ≤ a then s.effPanels.getD (a - 0x800010) 0
  else 0

/-! Command contexts (Table 4-15). -/

/-- A context index whose absence a field spells 0xFFFF_FFFF. -/
def idxOr (x : Option Nat) : Nat := x.getD 0xFFFFFFFF

/-- The SQE as fetched. Its flag bits and its metadata pointer are not kept by the model: they read open (DESIGN CHOICE, log 162). -/
def Sqe.fields (q : Sqe) : Fields :=
  [(0, 1, q.opc), (1, 1, q.flags), (2, 2, q.cid), (4, 4, q.nsid), (8, 4, q.cdw2.toNat), (12, 4, q.cdw3.toNat), (16, 8, q.mptr.toNat), (24, 8, q.prp1.toNat), (32, 8, q.prp2.toNat),
   (40, 4, q.cdw10.toNat), (44, 4, q.cdw11.toNat), (48, 4, q.cdw12.toNat), (52, 4, q.cdw13.toNat), (56, 4, q.cdw14.toNat), (60, 4, q.cdw15.toNat)]

/-- STATE, with CTX_GEN above it. -/
def Ctx.stateWord (x : Ctx) : Nat :=
  pack [(0, 5, x.stage), (5, 1, x.spec.toNat), (6, 1, x.rerun.toNat), (7, 1, (decide (x.wait ≠ 0)).toNat), (8, 4, x.wait)]

def Ctx.fields (x : Ctx) (gen : Nat) : Fields :=
  [(0x00, 4, x.stateWord + gen % 65536 * 65536), (0x04, 4, pack [(0, 11, x.slice), (16, 16, x.sqid)]),
   (0x08, 4, pack [(0, 16, x.cid), (16, 8, x.opc), (24, 1, x.admin.toNat), (25, 1, x.fua.toNat), (26, 1, x.ordered.toNat)]),
   (0x0C, 4, x.nsid), (0x10, 8, x.fseq), (0x18, 8, x.slba), (0x20, 4, x.nlb), (0x24, 2, x.route % 4096), (0x26, 2, x.squashes), (0x28, 4, x.tgen),
   (0x2C, 4, x.sliceGen), (0x30, 8, x.tFetchNs), (0x38, 4, idxOr x.dep)]
  ++ Fields.at (Sqe.fields x.sqe) 0x40 ++ fieldList 0x80 8 (x.bufs.take 16)

/-- A byte of a context entry. A free entry keeps its generation; its other fields are open. -/
def State.ctxByte (s : State) (i k : Nat) : Byte :=
  let gen := tgetD s.cmd.ctxGen i 0
  match s.ctx? i with
  | some x => fieldByte (x.fields gen) k
  | none => if k < 4 then fieldByte [(0, 4, gen % 65536 * 65536)] k else Config.openByte (areaCtx i) k gen

/-! The zone table (Table 5-2), committed values (R155). -/

def ZEnt.flags (z : ZEnt) : Nat := z.zfc.toNat + 2 * z.fzr.toNat + 4 * z.rzr.toNat + 8 * z.reduced.toNat + 16 * z.degraded.toNat + 32 * z.suspect.toNat

/-- ROWS: 0 while the entry is free, Empty or Offline. -/
def ZEnt.rowsWord (z : ZEnt) : Nat :=
  match z.state with
  | .none => 0
  | .empty => 0
  | .offline => 0
  | _ => pack [(0, 10, z.tmpl), (10, 22, z.block)]

def ZEnt.fields (z : ZEnt) : Fields :=
  [(0, 1, z.state.code + 16 * z.cls), (1, 1, z.flags), (2, 2, z.owner % 2048), (4, 4, z.wp), (8, 4, z.rowsWord), (12, 2, z.gen), (14, 2, z.capCut)]

/-! Range locks (Table 16-5). -/

/-- A range that is absent reads 0. -/
def rngFields (off : Nat) (r : Option Rng) : Fields :=
  match r with
  | some x => [(off, 8, x.lo), (off + 8, 8, x.hi)]
  | none => []

/-- HELD_13: the write-kind holder waits at stage 13 for earlier readers (R110, wait cause 8). -/
def Ctx.heldAt13 (x : Ctx) : Bool := x.lockW.isSome && x.stage == 13 && x.wait == 8

def State.lockFields (s : State) (i : Nat) : Fields :=
  let gen := tgetD s.cmd.ctxGen i 0 % 65536 * 65536
  match s.ctx? i with
  | some x =>
    if x.lockW.isNone && x.lockR.isNone then [(0, 4, gen), (0x30, 4, idxOr none)]
    else [(0x00, 4, x.lockW.isSome.toNat + 2 * x.lockR.isSome.toNat + 4 * x.heldAt13.toNat + gen), (0x04, 4, x.nsid), (0x08, 8, x.fseq), (0x30, 4, idxOr x.dep)]
      ++ rngFields 0x10 x.lockW ++ rngFields 0x20 x.lockR
  | none => [(0, 4, gen), (0x30, 4, idxOr none)]

/-! Queue states (Table 16-6). -/

/-- FLAGS; HELD is the fetch hold of R459, which never holds an admin queue. -/
def State.queueFlags (s : State) (q : Queue) : Nat :=
  let io := q.qid != 0
  q.sqOn.toNat + 2 * q.cqOn.toNat + 4 * (q.cqOn && q.phase).toNat + 8 * q.ien.toNat + 16 * (io && q.sqOn && (s.oqOf q.slice q.qid).isSome).toNat
    + 32 * (io && q.sqOn && (s.slc q.slice).hold).toNat + 64 * (q.cqOn && q.cqFull).toNat

def State.queueFields (s : State) (k : Nat) : Fields :=
  let q := s.queue k
  if q.sqOn || q.cqOn then
    [(0x00, 4, tgetD s.cmd.qgen k 0), (0x04, 2, q.slice), (0x06, 2, q.qid), (0x08, 8, q.sqBase), (0x10, 8, q.cqBase), (0x18, 2, q.sqSize - 1),
     (0x1A, 2, q.cqSize - 1), (0x1C, 2, q.head), (0x1E, 2, q.tail), (0x20, 2, q.cqTail), (0x22, 2, q.cqHead), (0x24, 1, s.queueFlags q),
     (0x25, 1, s.fstate k), (0x26, 2, q.vector), (0x28, 4, s.inflightOf k), (0x2C, 2, q.cqid), (0x30, 8, q.posted), (0x38, 8, q.fetched)]
  else [(0, 4, tgetD s.cmd.qgen k 0)]

/-! The route table (Table 16-7). -/

def RState.bits : RState → Nat
  | .free => 0
  | .binding => 1
  | .bound => 2
  | .draining => 3

def RouteSlot.fields (r : RouteSlot) : Fields :=
  [(0, 2, r.state.bits), (2, 2, r.gen), (4, 4, r.seats), (8, 1, r.stages.length), (9, 1, r.dir.toNat + 2 * r.jobOnly.toNat)] ++ fieldList 0x10 2 r.stages

/-! Faults (Table 16-8): the ring page of R365 and the memory trackers. -/

/-- The fields of a log page. -/
def OutData.pageFields : OutData → Fields
  | .page _ l => l
  | _ => []

/-- A tracker entry: COUNT is the number of refetches of the line within 24 hours. -/
def MTrack.fields (t : MTrack) : Fields :=
  [(0, 8, t.line), (8, 8, t.times.getLastD 0), (16, 8, t.times.dropLast.getLastD 0), (24, 1, t.times.length), (32, 64, t.mask)]

def State.trackByte (s : State) (a : Nat) : Byte :=
  let n := a / 0x2000
  match (if n < 72 * 14 then (s.mem (n / 14) (n % 14)).track[a % 0x2000 / 128]? else none) with
  | some t => fieldByte t.fields (a % 128)
  | none => 0

def State.faultByte (s : State) (a : Nat) : Byte :=
  if a < 0x40000 then fieldByte (s.logC1 false).pageFields a
  else s.trackByte (a - 0x40000)

/-! Pools (Table 16-8, R299, Table 9-11). -/

/-- The entries of a class's ring from its head on. -/
def Pool.ringList (p : Pool) : List Nat :=
  ((List.range (p.filled - p.fresh)).map (fun i => p.fresh + i)).filter (fun f => !p.skip.contains f) ++ p.ring

/-- RING_HEAD and RING_TAIL: entry positions in a ring of one entry per DRAM frame (PRESUMED, log 165). -/
def Pool.ringHead (p : Pool) : Nat := if p.frames = 0 then 0 else p.head % p.frames
def Pool.ringTail (p : Pool) : Nat := if p.frames = 0 then 0 else (p.head + p.ringList.length) % p.frames

def State.poolFields (s : State) (c : Nat) : Fields :=
  let p := s.pool c
  [(0x00, 4, p.frames), (0x04, 4, p.freeCount), (0x08, 2, p.cache.length), (0x0C, 4, Config.ringOff c), (0x10, 4, p.ringHead), (0x14, 4, p.ringTail),
   (0x18, 4, Config.metaOff c), (0x1C, 4, p.pgen)]

/-- A byte of a class's cache; entries past CACHE are open. -/
def State.cacheByte (s : State) (c k : Nat) : Byte :=
  let p := s.pool c
  match p.cache[k / 4]? with
  | some f => fieldByte [(0, 4, f)] (k % 4)
  | none => Config.openByte (areaCache c) k p.pgen

/-- A byte of a class's ring; a place that holds no free frame is open. -/
def State.ringByte (s : State) (c k : Nat) : Byte :=
  let p := s.pool c
  match p.ringList[(k / 4 + p.frames - p.ringHead) % p.frames]? with
  | some f => fieldByte [(0, 4, f)] (k % 4)
  | none => Config.openByte (areaRing c) k p.pgen

/-- STATE of Table 9-11. -/
def PFrame.stateCode (f : PFrame) : Nat :=
  if f.retired then 4 else if f.retiring then 3 else if !f.held then 0 else if f.named then 2 else 1

/-- A frame's metadata; FAILS counts the last 24 hours. -/
def State.frameFields (s : State) (k : Nat) : Fields :=
  let f := s.frame k
  [(0, 1, f.stateCode), (1, 1, if f.named then 0 else f.refs), (2, 2, f.gen), (4, 2, f.owner), (6, 2, f.slice % 2048),
   (8, 1, satBits 8 (f.fails.filter (fun t => decide (s.nowMs < t + dayMs))).length)]

/-- The pool window: headers, caches, then each class's ring and metadata where RING_OFF and META_OFF put them, counted from the
start of the window (PRESUMED, log 165). -/
def State.poolByte (s : State) (a : Nat) : Byte :=
  if a < 0x1000 then (if a / 64 < 6 then fieldByte (s.poolFields (a / 64)) (a % 64) else 0)
  else if a < 0x1000 + 6 * 0x200 then s.cacheByte ((a - 0x1000) / 0x200) (a % 0x200)
  else if 0x100000 ≤ a ∧ a < 0x2100000 then
    match (List.range 6).find? (fun c => decide (Config.ringOff c ≤ a) && decide (a < Config.ringOff c + 4 * (s.pool c).frames)) with
    | some c => s.ringByte c (a - Config.ringOff c)
    | none => 0
  else if 0x2100000 ≤ a then
    match (List.range 6).find? (fun c => decide (Config.metaOff c ≤ a) && decide (a < Config.metaOff c + 16 * (s.pool c).frames)) with
    | some c => fieldByte (s.frameFields (frameKey c ((a - Config.metaOff c) / 16))) ((a - Config.metaOff c) % 16)
    | none => 0
  else 0

/-! The windows (Table 16-4), by offset from BAR0 0x1000_0000; what no window covers reads 0 (R456). -/

def State.winByte (s : State) (a : Nat) : Byte :=
  if a < 0x1000000 then s.patByte a
  else if a < 0x2000000 then s.ctxByte ((a - 0x1000000) / 256) (a % 256)
  else if a < 0x3000000 then fieldByte (s.zent ((a - 0x2000000) / 16)).fields (a % 16)
  else if a < 0x3400000 then fieldByte (s.lockFields ((a - 0x3000000) / 64)) (a % 64)
  else if a < 0x3600000 then fieldByte (s.queueFields ((a - 0x3400000) / 64)) (a % 64)
  else if a < 0x3620000 then fieldByte (s.route ((a - 0x3600000) / 32)).fields (a % 32)
  else if 0x3800000 ≤ a ∧ a < 0x4800000 then s.faultByte (a - 0x3800000)
  else if 0x8000000 ≤ a then s.poolByte (a - 0x8000000)
  else 0

/-- The island that holds what a window shows (Tables 1-2 and 1-3): CTL the Pattern's copy and the faults, TRN the zone table and
the route table of its route binder, HFE the queue state, CMI the rest (DEDUCED, log 150). -/
def winIsl (a : Nat) : Nat :=
  if a < 0x1000000 then islCTL
  else if 0x2000000 ≤ a ∧ a < 0x3000000 then islTRN
  else if 0x3400000 ≤ a ∧ a < 0x3600000 then islHFE
  else if 0x3600000 ≤ a ∧ a < 0x3620000 then islTRN
  else if 0x3800000 ≤ a ∧ a < 0x4800000 then islCTL
  else islCMI

/-! The code array window (R424 to R426). -/

/-- The status word of Table 15-3 (PROGRESS and SECTOR as CNV_BANK_STATE has them) (DEDUCED, log 113). -/
def Bank.statusWord (b : Bank) : Nat :=
  pack [(0, 1, b.cur.isSome.toNat), (1, 1, b.err.toNat), (2, 3, match b.cur with | some o => o.op | none => 0), (5, 7, b.progress), (16, 8, b.sector), (24, 8, 0xC5)]

/-- The identify block (Table 15-4a). -/
def State.identFields (s : State) (b : Nat) : Fields :=
  [(0, 2, 0x4F56), (2, 2, b), (4, 2, 256), (6, 2, 256), (8, 4, (s.bank b).statusWord), (12, 4, maxNat ((List.range 256).map (fun n => (s.sect (sectOf b n)).erases)))]

/-- Bank 0 below its reserved space (Table 15-2): the boot region, whose code the spec does not give, and structures of which the
model holds what they mean, not their bytes. A page that no command programmed since its last erase reads open (DESIGN CHOICE, log 162). -/
def State.bank0Open (s : State) (off : Nat) : Bool :=
  decide (off < 0xC80000) && !(s.sect (sectOf 0 (off / 65536))).progPages.contains (pageIn (off / 256))

/-- A byte of a bank as port `port` reads it: the status word while the bank works, the port's identify view, or the array. -/
def State.bankByte (s : State) (port b off : Nat) : Byte :=
  let x := s.bank b
  if x.cur.isSome then fieldByte [(0, 4, x.statusWord)] (off % 4)
  else if x.views.contains (.host port) ∧ off < 0x40 then fieldByte (s.identFields b) off
  else if b = 0 ∧ s.bank0Open off then Config.openByte areaArray off s.epoch
  else cellGet s.cnv.bytes (bankBase b + off)

end Sys2Proof.Machine
end

