-- ==== Sys2Proof/Machine/Readback.lean ====
section
/-! DEFINITION. A read through BAR0 of a port (R10 to R12, R71 to R74, R477, R455): the bytes it returns, and the one effect it
has, the wake of what it reaches (R391, R392, R457). The opcode table has no row for a read, so no command runs this: it says what
the registers of a state read (DEDUCED, log 161). -/

namespace Sys2Proof.Machine

/-- The register at a DMS offset (a multiple of 8), as a read through port `via` returns it; a reserved address reads 0 (R12). -/
def State.dmsRead (s : State) (via r : Nat) : Nat :=
  let o := r % 0x100000
  match r / 0x100000 with
  | 0x00 => s.glbRead o
  | 0x01 => s.islRead o
  | 0x02 => s.patRead o
  | 0x03 => s.hlkRead via o
  | 0x04 => s.cmdRead o
  | 0x05 => s.zonRead o
  | 0x06 => s.medRead o
  | 0x07 => s.mlfRead o
  | 0x08 => s.cpxRead o
  | 0x09 => s.sveRead o
  | 0x0A => s.idxRead o
  | 0x0B => s.upcRead o
  | 0x0C => s.wvfRead o
  | 0x0D => s.bpmRead o
  | 0x0E => s.sliRead o
  | 0x0F => s.secRead o
  | 0x10 => s.micRead o
  | 0x11 => s.fltRead o
  | 0x12 => s.evcRead o
  | 0x13 => s.pwrRead o
  | 0x14 => s.thmRead o
  | 0x15 => s.ageRead o
  | 0x16 => s.cnvRead o
  | 0x17 => s.fwuRead o
  | 0x1A => s.cryRead o
  | _ => 0

/-! A slice page (Table 3-4). -/

/-- CAP (Table 4-9, R449): MQES, CQR, TO, CSS (NVM and I/O command set selection), MPSMAX 64 KiB, CRMS (PRESUMED, log 164). -/
def capReg : Nat := pack [(0, 16, 0xFFFF), (16, 1, 1), (24, 8, 24), (37, 1, 1), (43, 1, 1), (52, 4, 4), (59, 2, 3)]

/-- CRTO (R449): CRWMT, then CRIMT (PRESUMED, log 164). -/
def crtoReg : Nat := pack [(0, 16, 24), (16, 16, 3)]

/-- The controller registers that are properties of NVMe Base 2.1, 64 bits at `off` (PRESUMED, log 164). -/
def Ctrl.nvmeReg (c : Ctrl) (off : Nat) : Nat :=
  if off = 0x00 then capReg
  else if off = 0x08 then 0x00020100
  else if off = 0x10 then (c.cc + c.en.toNat) * 2 ^ 32
  else if off = 0x18 then pack [(32, 1, c.rdy.toNat), (33, 1, c.cfs.toNat), (34, 2, c.shst)]
  else if off = 0x20 then c.aqa % 2 ^ 32 * 2 ^ 32
  else if off = 0x28 then c.asq
  else if off = 0x30 then c.acq
  else if off = 0x68 then crtoReg
  else 0

/-- SPG_OQ_STATE[k]: every field reads 0 unless sequencer `k` is bound to a queue of the slice. -/
def State.pageOq (s : State) (sl k : Nat) : Nat :=
  let o := s.oq k
  if o.en && o.slice == sl then pack [(0, 1, 1), (1, 2, s.oqState o), (3, 16, o.sqid), (19, 16, o.failedCid)] else 0

/-- The doorbells of queue `y`: the last values written. -/
def State.doorbellReg (s : State) (port sl y : Nat) : Nat :=
  match s.dqOf port sl y with
  | some k => pack [(0, 16, (s.queue k).tail), (32, 16, (s.queue k).cqHead)]
  | none => 0

/-- A delivered message (Table 10-6). -/
def MbMsg.bytes (m : MbMsg) : List Byte :=
  packed [(1, m.typ), (1, m.reply.toNat + 2 * m.unsol.toNat), (2, m.len), (4, m.seq), (2, m.peer), (1, m.status), (5, 0)] ++ m.payload

/-- SPG_MB_IN_DB and SPG_MB_OUT. -/
def Sli.mbInReg (q : Sli) : Nat := pack [(0, 1, q.mbInAct.trig), (1, 2, q.mbInAct.bits)]
def Sli.mbOutReg (q : Sli) : Nat :=
  pack [(0, 1, q.mbOutAct.trig), (1, 2, q.mbOutAct.bits), (3, 1, q.mbOut.isSome.toNat), (4, 9, q.mbQueue.length)]

/-- Byte `k` of a 64-bit register. -/
def byteIn (v k : Nat) : Byte := BitVec.ofNat 8 (v / 256 ^ (k % 8))

/-- A byte of a page that is live on the port. -/
def State.pageByte (s : State) (port sl off : Nat) : Byte :=
  let q := s.slc sl
  let c := s.ctrl (ctrlKey port sl)
  let w := off / 8 * 8
  if off < 0x1000 then
    if w = 0x0C00 then byteIn (pack [(0, 16, c.resumeSqid), (62, 2, c.resumeAct.bits)]) off
    else if 0x0C40 ≤ w ∧ w < 0x0E40 then byteIn (s.pageOq sl ((w - 0x0C40) / 8)) off
    else byteIn (c.nvmeReg w) off
  else if off < 0x4000 then byteIn (s.doorbellReg port sl ((w - 0x1000) / 8)) off
  else if off < 0x8000 then
    (if sl ≠ 0 ∧ (off - 0x4000) / 16 < q.msgCount then byteIn ((tval q.msgs ((off - 0x4000) / 16) : MsgEnt).word (off / 8 % 2)) off else 0)
  else if off < 0x8FF0 then q.mbIn.getD (off - 0x8000) 0
  else if w = 0x8FF8 then byteIn q.mbInReg off
  else if 0x9000 ≤ off ∧ off < 0x9FF0 then (match q.mbOut with | some m => m.bytes.getD (off - 0x9000) 0 | none => 0)
  else if w = 0x9FF8 then byteIn q.mbOutReg off
  else 0

/-- The byte at a BAR0 offset as a read through a port returns it (Table 3-3). A page reads 0 where it is not live (R73). -/
def State.barByte (s : State) (port a : Nat) : Byte :=
  if a < 0x8000000 then (if s.liveOn port (a / 0x10000) then s.pageByte port (a / 0x10000) (a % 0x10000) else 0)
  else if a < 0xC000000 then byteIn (s.dmsRead port ((a - 0x8000000) / 8 * 8)) a
  else if a < 0x10000000 then s.bankByte port ((a - 0xC000000) / 0x1000000) ((a - 0xC000000) % 0x1000000)
  else s.winByte (a - 0x10000000)

/-! The wake a read causes (R391, R392): a block whose chapter says that reading never wakes is answered from AON's shadow. -/

/-- Blocks read without a wake: GLB (R461), ISL (R40), MED (R208), MLF (R230), CPX, SVE and IDX (R270), UPC (09, User core registers), SLI, SEC and
CRY (R337), MIC (R356), PWR (R399), THM and AGE (R420), CNV and FWU (R446). -/
def shadowed (r : Nat) : Bool := [0x00, 0x01, 0x06, 0x07, 0x08, 0x09, 0x0A, 0x0B, 0x0E, 0x0F, 0x10, 0x13, 0x14, 0x15, 0x16, 0x17, 0x1A].contains (r / 0x100000)

/-- The mailbox registers of a slice page are answered from AON as well (R337). -/
def State.readWake (s : State) (a : Nat) : State :=
  if a < 0x8000000 then (if a % 0x10000 / 8 * 8 = 0x8FF8 ∨ a % 0x10000 / 8 * 8 = 0x9FF8 then s else s.access islHFE)
  else if a < 0xC000000 then (if shadowed (a - 0x8000000) then s else (s.access islHFE).access (dmsIsl (a - 0x8000000)))
  else if a < 0x10000000 then (s.access islHFE).access islCTL
  else (s.access islHFE).access (winIsl (a - 0x10000000))

/-- A read of `n` bytes at a BAR0 offset: its bytes, lowest address first, and the state it leaves (DEDUCED, log 161). -/
def State.mmioRead (s : State) (port a n : Nat) : List Byte × State := ((List.range n).map (fun i => s.barByte port (a + i)), s.readWake a)

end Sys2Proof.Machine
end

