-- ==== Sys2Proof/Laws/FrameStart.lean ====
section
/-! SUPPORT. What the operations of start-up, the sideband and register writes leave unchanged: one lemma per operation, which names every part of the state that it keeps. -/

namespace Sys2Proof.Machine

theorem State.dropCtx_still (s : State) (c : Nat) :
    (State.dropCtx s c).pending = s.pending ∧ (State.dropCtx s c).host = s.host ∧ (State.dropCtx s c).epoch = s.epoch ∧
    (State.dropCtx s c).dramMargin = s.dramMargin ∧ (State.dropCtx s c).ports = s.ports ∧ (State.dropCtx s c).trickle = s.trickle ∧
    (State.dropCtx s c).mlf = s.mlf ∧ (State.dropCtx s c).sec = s.sec ∧ (State.dropCtx s c).ctrs = s.ctrs ∧
    (State.dropCtx s c).grps = s.grps ∧ (State.dropCtx s c).thm = s.thm ∧ (State.dropCtx s c).age = s.age ∧
    (State.dropCtx s c).cnv = s.cnv ∧ (State.dropCtx s c).glb = s.glb ∧ (State.dropCtx s c).sb = s.sb := by
  have w1 := @State.dropWaiter_still; have w2 := @State.freeCtx_still; have w3 := @State.vanish_still; have wi := @ite_parts
  simp [State.dropCtx, w1, w2, w3, wi]
theorem State.dropCtxs_still (s : State) :
    (State.dropCtxs s).pending = s.pending ∧ (State.dropCtxs s).host = s.host ∧ (State.dropCtxs s).epoch = s.epoch ∧
    (State.dropCtxs s).dramMargin = s.dramMargin ∧ (State.dropCtxs s).ports = s.ports ∧ (State.dropCtxs s).trickle = s.trickle ∧
    (State.dropCtxs s).mlf = s.mlf ∧ (State.dropCtxs s).sec = s.sec ∧ (State.dropCtxs s).ctrs = s.ctrs ∧ (State.dropCtxs s).grps = s.grps ∧
    (State.dropCtxs s).thm = s.thm ∧ (State.dropCtxs s).age = s.age ∧ (State.dropCtxs s).cnv = s.cnv ∧ (State.dropCtxs s).glb = s.glb ∧
    (State.dropCtxs s).sb = s.sb := by
  have wf := @foldl_parts
  have w1 := @State.dropCtx_still
  unfold State.dropCtxs; generalize (byFseq s.cmd.ctxs).reverse = l; simp [w1, wf]
theorem State.cutZone_still (s : State) (e : Nat) :
    (State.cutZone s e).pending = s.pending ∧ (State.cutZone s e).free = s.free ∧ (State.cutZone s e).host = s.host ∧
    (State.cutZone s e).epoch = s.epoch ∧ (State.cutZone s e).pat = s.pat ∧ (State.cutZone s e).isl = s.isl ∧
    (State.cutZone s e).routes = s.routes ∧ (State.cutZone s e).dramMargin = s.dramMargin ∧ (State.cutZone s e).ports = s.ports ∧
    (State.cutZone s e).trickle = s.trickle ∧ (State.cutZone s e).cmd = s.cmd ∧ (State.cutZone s e).mlf = s.mlf ∧
    (State.cutZone s e).cpx = s.cpx ∧ (State.cutZone s e).wvf = s.wvf ∧ (State.cutZone s e).bpm = s.bpm ∧ (State.cutZone s e).sli = s.sli ∧
    (State.cutZone s e).sec = s.sec ∧ (State.cutZone s e).mic = s.mic ∧ (State.cutZone s e).flt = s.flt ∧
    (State.cutZone s e).ctrs = s.ctrs ∧ (State.cutZone s e).grps = s.grps ∧ (State.cutZone s e).pwr = s.pwr ∧
    (State.cutZone s e).thm = s.thm ∧ (State.cutZone s e).age = s.age ∧ (State.cutZone s e).cnv = s.cnv ∧ (State.cutZone s e).fwu = s.fwu ∧
    (State.cutZone s e).glb = s.glb ∧ (State.cutZone s e).sb = s.sb := by
  have w1 := @State.dropLine_still; have w2 := @State.setZent_still; have wf := @foldl_parts
  have wi := @ite_parts
  simp [State.cutZone, w1, w2, wf, wi]
theorem State.pickBack_still (s : State) (b : MapBack) :
    (State.pickBack s b).2.pending = s.pending ∧ (State.pickBack s b).2.host = s.host ∧ (State.pickBack s b).2.epoch = s.epoch ∧
    (State.pickBack s b).2.pat = s.pat ∧ (State.pickBack s b).2.isl = s.isl ∧ (State.pickBack s b).2.routes = s.routes ∧
    (State.pickBack s b).2.dramMargin = s.dramMargin ∧ (State.pickBack s b).2.ports = s.ports ∧
    (State.pickBack s b).2.trickle = s.trickle ∧ (State.pickBack s b).2.cmd = s.cmd ∧ (State.pickBack s b).2.zon = s.zon ∧
    (State.pickBack s b).2.med = s.med ∧ (State.pickBack s b).2.mlf = s.mlf ∧ (State.pickBack s b).2.cpx = s.cpx ∧
    (State.pickBack s b).2.wvf = s.wvf ∧ (State.pickBack s b).2.bpm = s.bpm ∧ (State.pickBack s b).2.sli = s.sli ∧
    (State.pickBack s b).2.sec = s.sec ∧ (State.pickBack s b).2.mic = s.mic ∧ (State.pickBack s b).2.flt = s.flt ∧
    (State.pickBack s b).2.ctrs = s.ctrs ∧ (State.pickBack s b).2.grps = s.grps ∧ (State.pickBack s b).2.pwr = s.pwr ∧
    (State.pickBack s b).2.thm = s.thm ∧ (State.pickBack s b).2.age = s.age ∧ (State.pickBack s b).2.cnv = s.cnv ∧
    (State.pickBack s b).2.fwu = s.fwu ∧ (State.pickBack s b).2.glb = s.glb ∧ (State.pickBack s b).2.sb = s.sb := by
  have w1 := @drawNat_still
  unfold State.pickBack; dsimp only; repeat' split
  all_goals simp [w1]
theorem State.cutEntry_still (s : State) (lost : List Nat) (k : Nat) (m : MapEnt) :
    (State.cutEntry s lost k m).pending = s.pending ∧ (State.cutEntry s lost k m).host = s.host ∧
    (State.cutEntry s lost k m).epoch = s.epoch ∧ (State.cutEntry s lost k m).pat = s.pat ∧ (State.cutEntry s lost k m).isl = s.isl ∧
    (State.cutEntry s lost k m).routes = s.routes ∧ (State.cutEntry s lost k m).dramMargin = s.dramMargin ∧
    (State.cutEntry s lost k m).ports = s.ports ∧ (State.cutEntry s lost k m).trickle = s.trickle ∧
    (State.cutEntry s lost k m).cmd = s.cmd ∧ (State.cutEntry s lost k m).med = s.med ∧ (State.cutEntry s lost k m).mlf = s.mlf ∧
    (State.cutEntry s lost k m).cpx = s.cpx ∧ (State.cutEntry s lost k m).wvf = s.wvf ∧ (State.cutEntry s lost k m).bpm = s.bpm ∧
    (State.cutEntry s lost k m).sli = s.sli ∧ (State.cutEntry s lost k m).sec = s.sec ∧ (State.cutEntry s lost k m).mic = s.mic ∧
    (State.cutEntry s lost k m).flt = s.flt ∧ (State.cutEntry s lost k m).ctrs = s.ctrs ∧ (State.cutEntry s lost k m).grps = s.grps ∧
    (State.cutEntry s lost k m).pwr = s.pwr ∧ (State.cutEntry s lost k m).thm = s.thm ∧ (State.cutEntry s lost k m).age = s.age ∧
    (State.cutEntry s lost k m).cnv = s.cnv ∧ (State.cutEntry s lost k m).fwu = s.fwu ∧ (State.cutEntry s lost k m).glb = s.glb ∧
    (State.cutEntry s lost k m).sb = s.sb := by
  have wi := @ite_parts
  have w1 := @State.pickBack_still; have w2 := @State.setMap_still; have w3 := @drawBool_still
  unfold State.cutEntry; repeat' split
  all_goals simp [*]
theorem State.restRows_still (s : State) :
    (State.restRows s).pending = s.pending ∧ (State.restRows s).free = s.free ∧ (State.restRows s).host = s.host ∧
    (State.restRows s).epoch = s.epoch ∧ (State.restRows s).pat = s.pat ∧ (State.restRows s).isl = s.isl ∧
    (State.restRows s).routes = s.routes ∧ (State.restRows s).dramMargin = s.dramMargin ∧ (State.restRows s).ports = s.ports ∧
    (State.restRows s).trickle = s.trickle ∧ (State.restRows s).cmd = s.cmd ∧ (State.restRows s).zon = s.zon ∧
    (State.restRows s).mlf = s.mlf ∧ (State.restRows s).cpx = s.cpx ∧ (State.restRows s).wvf = s.wvf ∧ (State.restRows s).bpm = s.bpm ∧
    (State.restRows s).sli = s.sli ∧ (State.restRows s).sec = s.sec ∧ (State.restRows s).mic = s.mic ∧ (State.restRows s).flt = s.flt ∧
    (State.restRows s).ctrs = s.ctrs ∧ (State.restRows s).grps = s.grps ∧ (State.restRows s).pwr = s.pwr ∧ (State.restRows s).thm = s.thm ∧
    (State.restRows s).age = s.age ∧ (State.restRows s).cnv = s.cnv ∧ (State.restRows s).fwu = s.fwu ∧ (State.restRows s).glb = s.glb ∧
    (State.restRows s).sb = s.sb := by
  simp [State.restRows]
theorem State.dropLandings_still (s : State) :
    (State.dropLandings s).pending = s.pending ∧ (State.dropLandings s).free = s.free ∧ (State.dropLandings s).host = s.host ∧
    (State.dropLandings s).epoch = s.epoch ∧ (State.dropLandings s).pat = s.pat ∧ (State.dropLandings s).isl = s.isl ∧
    (State.dropLandings s).routes = s.routes ∧ (State.dropLandings s).dramMargin = s.dramMargin ∧ (State.dropLandings s).ports = s.ports ∧
    (State.dropLandings s).trickle = s.trickle ∧ (State.dropLandings s).cmd = s.cmd ∧ (State.dropLandings s).zon = s.zon ∧
    (State.dropLandings s).mlf = s.mlf ∧ (State.dropLandings s).cpx = s.cpx ∧ (State.dropLandings s).wvf = s.wvf ∧
    (State.dropLandings s).bpm = s.bpm ∧ (State.dropLandings s).sli = s.sli ∧ (State.dropLandings s).sec = s.sec ∧
    (State.dropLandings s).mic = s.mic ∧ (State.dropLandings s).flt = s.flt ∧ (State.dropLandings s).ctrs = s.ctrs ∧
    (State.dropLandings s).grps = s.grps ∧ (State.dropLandings s).pwr = s.pwr ∧ (State.dropLandings s).thm = s.thm ∧
    (State.dropLandings s).age = s.age ∧ (State.dropLandings s).cnv = s.cnv ∧ (State.dropLandings s).fwu = s.fwu ∧
    (State.dropLandings s).glb = s.glb ∧ (State.dropLandings s).sb = s.sb := by
  have w1 := @State.modBlk_still; have wf := @foldl_parts; have wi := @ite_parts
  simp [State.dropLandings, w1, wf, wi]
theorem State.stopMedia_still (s : State) :
    (State.stopMedia s).pending = s.pending ∧ (State.stopMedia s).free = s.free ∧ (State.stopMedia s).host = s.host ∧
    (State.stopMedia s).epoch = s.epoch ∧ (State.stopMedia s).pat = s.pat ∧ (State.stopMedia s).isl = s.isl ∧
    (State.stopMedia s).routes = s.routes ∧ (State.stopMedia s).dramMargin = s.dramMargin ∧ (State.stopMedia s).ports = s.ports ∧
    (State.stopMedia s).trickle = s.trickle ∧ (State.stopMedia s).cmd = s.cmd ∧ (State.stopMedia s).zon = s.zon ∧
    (State.stopMedia s).mlf = s.mlf ∧ (State.stopMedia s).cpx = s.cpx ∧ (State.stopMedia s).wvf = s.wvf ∧ (State.stopMedia s).bpm = s.bpm ∧
    (State.stopMedia s).sli = s.sli ∧ (State.stopMedia s).sec = s.sec ∧ (State.stopMedia s).mic = s.mic ∧ (State.stopMedia s).flt = s.flt ∧
    (State.stopMedia s).ctrs = s.ctrs ∧ (State.stopMedia s).grps = s.grps ∧ (State.stopMedia s).pwr = s.pwr ∧
    (State.stopMedia s).thm = s.thm ∧ (State.stopMedia s).age = s.age ∧ (State.stopMedia s).cnv = s.cnv ∧ (State.stopMedia s).fwu = s.fwu ∧
    (State.stopMedia s).glb = s.glb ∧ (State.stopMedia s).sb = s.sb := by
  have w1 := @State.abandonRelocs_still; have w2 := @State.dropLandings_still
  simp [State.stopMedia, w1, w2]
theorem State.cutPower_still (s : State) :
    (State.cutPower s).2.pending = s.pending ∧ (State.cutPower s).2.host = s.host ∧ (State.cutPower s).2.epoch = s.epoch ∧
    (State.cutPower s).2.dramMargin = s.dramMargin ∧ (State.cutPower s).2.ports = s.ports ∧ (State.cutPower s).2.trickle = s.trickle ∧
    (State.cutPower s).2.mlf = s.mlf ∧ (State.cutPower s).2.sec = s.sec ∧ (State.cutPower s).2.ctrs = s.ctrs ∧
    (State.cutPower s).2.grps = s.grps ∧ (State.cutPower s).2.thm = s.thm ∧ (State.cutPower s).2.age = s.age ∧
    (State.cutPower s).2.cnv = s.cnv ∧ (State.cutPower s).2.glb = s.glb ∧ (State.cutPower s).2.sb = s.sb := by
  have wf := @foldl_parts
  have w1 := @State.cutEntry_still; have w2 := @State.cutZone_still; have w3 := @State.dropCtxs_still
  have w4 := @State.dropLine_still; have w5 := @State.hole_still; have w6 := @State.modLine_still
  have w7 := @State.restRows_still; have w8 := @State.stopMedia_still
  simp [State.cutPower, w1, w2, w3, w4, w5, w6, w7, w8, wf]
theorem State.bankAtStart_still (s : State) (pin : Bool) (b : Nat) (x : Bank) :
    (State.bankAtStart s pin b x).pending = s.pending ∧ (State.bankAtStart s pin b x).host = s.host ∧
    (State.bankAtStart s pin b x).epoch = s.epoch ∧ (State.bankAtStart s pin b x).pat = s.pat ∧ (State.bankAtStart s pin b x).isl = s.isl ∧
    (State.bankAtStart s pin b x).routes = s.routes ∧ (State.bankAtStart s pin b x).dramMargin = s.dramMargin ∧
    (State.bankAtStart s pin b x).ports = s.ports ∧ (State.bankAtStart s pin b x).trickle = s.trickle ∧
    (State.bankAtStart s pin b x).cmd = s.cmd ∧ (State.bankAtStart s pin b x).zon = s.zon ∧ (State.bankAtStart s pin b x).med = s.med ∧
    (State.bankAtStart s pin b x).mlf = s.mlf ∧ (State.bankAtStart s pin b x).cpx = s.cpx ∧ (State.bankAtStart s pin b x).wvf = s.wvf ∧
    (State.bankAtStart s pin b x).bpm = s.bpm ∧ (State.bankAtStart s pin b x).sli = s.sli ∧ (State.bankAtStart s pin b x).sec = s.sec ∧
    (State.bankAtStart s pin b x).mic = s.mic ∧ (State.bankAtStart s pin b x).ctrs = s.ctrs ∧ (State.bankAtStart s pin b x).grps = s.grps ∧
    (State.bankAtStart s pin b x).pwr = s.pwr ∧ (State.bankAtStart s pin b x).thm = s.thm ∧ (State.bankAtStart s pin b x).age = s.age ∧
    (State.bankAtStart s pin b x).fwu = s.fwu ∧ (State.bankAtStart s pin b x).glb = s.glb ∧ (State.bankAtStart s pin b x).sb = s.sb := by
  have w1 := @State.cnvCnt_still; have w2 := @State.putPage_still; have w3 := @State.spoil_still
  have w4 := @State.wipeSector_still
  unfold State.bankAtStart; repeat' split
  all_goals simp [*]
theorem State.arrayAtStart_still (s : State) (pin : Bool) :
    (State.arrayAtStart s pin).pending = s.pending ∧ (State.arrayAtStart s pin).host = s.host ∧
    (State.arrayAtStart s pin).epoch = s.epoch ∧ (State.arrayAtStart s pin).pat = s.pat ∧ (State.arrayAtStart s pin).isl = s.isl ∧
    (State.arrayAtStart s pin).routes = s.routes ∧ (State.arrayAtStart s pin).dramMargin = s.dramMargin ∧
    (State.arrayAtStart s pin).ports = s.ports ∧ (State.arrayAtStart s pin).trickle = s.trickle ∧ (State.arrayAtStart s pin).cmd = s.cmd ∧
    (State.arrayAtStart s pin).zon = s.zon ∧ (State.arrayAtStart s pin).med = s.med ∧ (State.arrayAtStart s pin).mlf = s.mlf ∧
    (State.arrayAtStart s pin).cpx = s.cpx ∧ (State.arrayAtStart s pin).wvf = s.wvf ∧ (State.arrayAtStart s pin).bpm = s.bpm ∧
    (State.arrayAtStart s pin).sli = s.sli ∧ (State.arrayAtStart s pin).sec = s.sec ∧ (State.arrayAtStart s pin).mic = s.mic ∧
    (State.arrayAtStart s pin).ctrs = s.ctrs ∧ (State.arrayAtStart s pin).grps = s.grps ∧ (State.arrayAtStart s pin).pwr = s.pwr ∧
    (State.arrayAtStart s pin).thm = s.thm ∧ (State.arrayAtStart s pin).age = s.age ∧ (State.arrayAtStart s pin).fwu = s.fwu ∧
    (State.arrayAtStart s pin).glb = s.glb ∧ (State.arrayAtStart s pin).sb = s.sb := by
  have w1 := @State.bankAtStart_still; have wf := @foldl_parts
  simp [State.arrayAtStart, w1, wf]
theorem State.cleared_still (s : State) (pin : Bool) :
    (State.cleared s pin).pending = s.pending ∧ (State.cleared s pin).free = s.free ∧ (State.cleared s pin).host = s.host ∧
    (State.cleared s pin).cnv = s.cnv := by
  simp [State.cleared]
theorem State.failAt_still (s : State) (n : Nat) (e : FaultEv) :
    (State.failAt s n e).pending = s.pending ∧ (State.failAt s n e).free = s.free ∧ (State.failAt s n e).host = s.host ∧
    (State.failAt s n e).epoch = s.epoch ∧ (State.failAt s n e).pat = s.pat ∧ (State.failAt s n e).isl = s.isl ∧
    (State.failAt s n e).routes = s.routes ∧ (State.failAt s n e).dramMargin = s.dramMargin ∧ (State.failAt s n e).ports = s.ports ∧
    (State.failAt s n e).trickle = s.trickle ∧ (State.failAt s n e).cmd = s.cmd ∧ (State.failAt s n e).zon = s.zon ∧
    (State.failAt s n e).med = s.med ∧ (State.failAt s n e).mlf = s.mlf ∧ (State.failAt s n e).cpx = s.cpx ∧
    (State.failAt s n e).wvf = s.wvf ∧ (State.failAt s n e).bpm = s.bpm ∧ (State.failAt s n e).sli = s.sli ∧
    (State.failAt s n e).sec = s.sec ∧ (State.failAt s n e).mic = s.mic ∧ (State.failAt s n e).ctrs = s.ctrs ∧
    (State.failAt s n e).grps = s.grps ∧ (State.failAt s n e).pwr = s.pwr ∧ (State.failAt s n e).thm = s.thm ∧
    (State.failAt s n e).age = s.age ∧ (State.failAt s n e).cnv = s.cnv ∧ (State.failAt s n e).fwu = s.fwu ∧ (State.failAt s n e).sb = s.sb := by
  have w1 := @State.queueFault_still
  simp [State.failAt, w1]
theorem State.readSlot_still (s : State) (i : Nat) :
    (State.readSlot s i).pending = s.pending ∧ (State.readSlot s i).free = s.free ∧ (State.readSlot s i).host = s.host ∧
    (State.readSlot s i).epoch = s.epoch ∧ (State.readSlot s i).pat = s.pat ∧ (State.readSlot s i).isl = s.isl ∧
    (State.readSlot s i).routes = s.routes ∧ (State.readSlot s i).dramMargin = s.dramMargin ∧ (State.readSlot s i).ports = s.ports ∧
    (State.readSlot s i).trickle = s.trickle ∧ (State.readSlot s i).cmd = s.cmd ∧ (State.readSlot s i).zon = s.zon ∧
    (State.readSlot s i).med = s.med ∧ (State.readSlot s i).mlf = s.mlf ∧ (State.readSlot s i).cpx = s.cpx ∧
    (State.readSlot s i).wvf = s.wvf ∧ (State.readSlot s i).bpm = s.bpm ∧ (State.readSlot s i).sli = s.sli ∧
    (State.readSlot s i).sec = s.sec ∧ (State.readSlot s i).mic = s.mic ∧ (State.readSlot s i).flt = s.flt ∧
    (State.readSlot s i).ctrs = s.ctrs ∧ (State.readSlot s i).grps = s.grps ∧ (State.readSlot s i).pwr = s.pwr ∧
    (State.readSlot s i).thm = s.thm ∧ (State.readSlot s i).age = s.age ∧ (State.readSlot s i).cnv = s.cnv ∧
    (State.readSlot s i).glb = s.glb ∧ (State.readSlot s i).sb = s.sb := by
  have w1 := @State.modFwSlot_still
  simp [State.readSlot, w1]
theorem State.slotFails_still (s : State) (i : Nat) :
    (State.slotFails s i).pending = s.pending ∧ (State.slotFails s i).free = s.free ∧ (State.slotFails s i).host = s.host ∧
    (State.slotFails s i).epoch = s.epoch ∧ (State.slotFails s i).pat = s.pat ∧ (State.slotFails s i).isl = s.isl ∧
    (State.slotFails s i).routes = s.routes ∧ (State.slotFails s i).dramMargin = s.dramMargin ∧ (State.slotFails s i).ports = s.ports ∧
    (State.slotFails s i).trickle = s.trickle ∧ (State.slotFails s i).cmd = s.cmd ∧ (State.slotFails s i).zon = s.zon ∧
    (State.slotFails s i).med = s.med ∧ (State.slotFails s i).mlf = s.mlf ∧ (State.slotFails s i).cpx = s.cpx ∧
    (State.slotFails s i).wvf = s.wvf ∧ (State.slotFails s i).bpm = s.bpm ∧ (State.slotFails s i).sli = s.sli ∧
    (State.slotFails s i).sec = s.sec ∧ (State.slotFails s i).mic = s.mic ∧ (State.slotFails s i).ctrs = s.ctrs ∧
    (State.slotFails s i).grps = s.grps ∧ (State.slotFails s i).pwr = s.pwr ∧ (State.slotFails s i).thm = s.thm ∧
    (State.slotFails s i).age = s.age ∧ (State.slotFails s i).cnv = s.cnv ∧ (State.slotFails s i).sb = s.sb := by
  have w1 := @State.spoilSlot_still; have w2 := @State.failAt_still
  simp [State.slotFails, w1, w2]
theorem State.bootSlot_still (s : State) :
    (State.bootSlot s).2.pending = s.pending ∧ (State.bootSlot s).2.free = s.free ∧ (State.bootSlot s).2.host = s.host ∧
    (State.bootSlot s).2.epoch = s.epoch ∧ (State.bootSlot s).2.pat = s.pat ∧ (State.bootSlot s).2.isl = s.isl ∧
    (State.bootSlot s).2.routes = s.routes ∧ (State.bootSlot s).2.dramMargin = s.dramMargin ∧ (State.bootSlot s).2.ports = s.ports ∧
    (State.bootSlot s).2.trickle = s.trickle ∧ (State.bootSlot s).2.cmd = s.cmd ∧ (State.bootSlot s).2.zon = s.zon ∧
    (State.bootSlot s).2.med = s.med ∧ (State.bootSlot s).2.mlf = s.mlf ∧ (State.bootSlot s).2.cpx = s.cpx ∧
    (State.bootSlot s).2.wvf = s.wvf ∧ (State.bootSlot s).2.bpm = s.bpm ∧ (State.bootSlot s).2.sli = s.sli ∧
    (State.bootSlot s).2.sec = s.sec ∧ (State.bootSlot s).2.mic = s.mic ∧ (State.bootSlot s).2.ctrs = s.ctrs ∧
    (State.bootSlot s).2.grps = s.grps ∧ (State.bootSlot s).2.pwr = s.pwr ∧ (State.bootSlot s).2.thm = s.thm ∧
    (State.bootSlot s).2.age = s.age ∧ (State.bootSlot s).2.cnv = s.cnv ∧ (State.bootSlot s).2.sb = s.sb := by
  have w1 := @State.readSlot_still; have w2 := @State.slotFails_still
  unfold State.bootSlot; dsimp only; repeat' split
  all_goals simp [*]
theorem State.inRecovery_still (s : State) :
    (State.inRecovery s).pending = s.pending ∧ (State.inRecovery s).free = s.free ∧ (State.inRecovery s).host = s.host ∧
    (State.inRecovery s).epoch = s.epoch ∧ (State.inRecovery s).pat = s.pat ∧ (State.inRecovery s).isl = s.isl ∧
    (State.inRecovery s).routes = s.routes ∧ (State.inRecovery s).dramMargin = s.dramMargin ∧ (State.inRecovery s).ports = s.ports ∧
    (State.inRecovery s).trickle = s.trickle ∧ (State.inRecovery s).cmd = s.cmd ∧ (State.inRecovery s).zon = s.zon ∧
    (State.inRecovery s).med = s.med ∧ (State.inRecovery s).mlf = s.mlf ∧ (State.inRecovery s).cpx = s.cpx ∧
    (State.inRecovery s).wvf = s.wvf ∧ (State.inRecovery s).bpm = s.bpm ∧ (State.inRecovery s).sli = s.sli ∧
    (State.inRecovery s).sec = s.sec ∧ (State.inRecovery s).mic = s.mic ∧ (State.inRecovery s).flt = s.flt ∧
    (State.inRecovery s).ctrs = s.ctrs ∧ (State.inRecovery s).grps = s.grps ∧ (State.inRecovery s).pwr = s.pwr ∧
    (State.inRecovery s).thm = s.thm ∧ (State.inRecovery s).age = s.age ∧ (State.inRecovery s).cnv = s.cnv ∧
    (State.inRecovery s).glb = s.glb ∧ (State.inRecovery s).sb = s.sb := by
  simp [State.inRecovery]
theorem State.startImage_still (s : State) (i : Nat) (migrateOk : Bool) :
    (State.startImage s i migrateOk).pending = s.pending ∧ (State.startImage s i migrateOk).free = s.free ∧
    (State.startImage s i migrateOk).host = s.host ∧ (State.startImage s i migrateOk).epoch = s.epoch ∧
    (State.startImage s i migrateOk).pat = s.pat ∧ (State.startImage s i migrateOk).isl = s.isl ∧
    (State.startImage s i migrateOk).routes = s.routes ∧ (State.startImage s i migrateOk).dramMargin = s.dramMargin ∧
    (State.startImage s i migrateOk).ports = s.ports ∧ (State.startImage s i migrateOk).trickle = s.trickle ∧
    (State.startImage s i migrateOk).cmd = s.cmd ∧ (State.startImage s i migrateOk).zon = s.zon ∧
    (State.startImage s i migrateOk).med = s.med ∧ (State.startImage s i migrateOk).mlf = s.mlf ∧
    (State.startImage s i migrateOk).cpx = s.cpx ∧ (State.startImage s i migrateOk).wvf = s.wvf ∧
    (State.startImage s i migrateOk).bpm = s.bpm ∧ (State.startImage s i migrateOk).sli = s.sli ∧
    (State.startImage s i migrateOk).sec = s.sec ∧ (State.startImage s i migrateOk).mic = s.mic ∧
    (State.startImage s i migrateOk).ctrs = s.ctrs ∧ (State.startImage s i migrateOk).grps = s.grps ∧
    (State.startImage s i migrateOk).pwr = s.pwr ∧ (State.startImage s i migrateOk).thm = s.thm ∧
    (State.startImage s i migrateOk).age = s.age ∧ (State.startImage s i migrateOk).cnv = s.cnv ∧
    (State.startImage s i migrateOk).sb = s.sb := by
  have w1 := @State.runImage_still; have w2 := @State.failAt_still; have w3 := @State.readSlot_still
  have w4 := @State.slotFails_still; have w5 := @State.inRecovery_still; have wi := @ite_parts
  simp [State.startImage, w1, w2, w3, w4, w5, wi]
theorem State.bootFirmware_still (s : State) (migrateOk : Bool) :
    (State.bootFirmware s migrateOk).pending = s.pending ∧ (State.bootFirmware s migrateOk).free = s.free ∧
    (State.bootFirmware s migrateOk).host = s.host ∧ (State.bootFirmware s migrateOk).epoch = s.epoch ∧
    (State.bootFirmware s migrateOk).pat = s.pat ∧ (State.bootFirmware s migrateOk).isl = s.isl ∧
    (State.bootFirmware s migrateOk).routes = s.routes ∧ (State.bootFirmware s migrateOk).dramMargin = s.dramMargin ∧
    (State.bootFirmware s migrateOk).ports = s.ports ∧ (State.bootFirmware s migrateOk).trickle = s.trickle ∧
    (State.bootFirmware s migrateOk).cmd = s.cmd ∧ (State.bootFirmware s migrateOk).zon = s.zon ∧
    (State.bootFirmware s migrateOk).med = s.med ∧ (State.bootFirmware s migrateOk).mlf = s.mlf ∧
    (State.bootFirmware s migrateOk).cpx = s.cpx ∧ (State.bootFirmware s migrateOk).wvf = s.wvf ∧
    (State.bootFirmware s migrateOk).bpm = s.bpm ∧ (State.bootFirmware s migrateOk).sli = s.sli ∧
    (State.bootFirmware s migrateOk).sec = s.sec ∧ (State.bootFirmware s migrateOk).mic = s.mic ∧
    (State.bootFirmware s migrateOk).ctrs = s.ctrs ∧ (State.bootFirmware s migrateOk).grps = s.grps ∧
    (State.bootFirmware s migrateOk).pwr = s.pwr ∧ (State.bootFirmware s migrateOk).thm = s.thm ∧
    (State.bootFirmware s migrateOk).age = s.age ∧ (State.bootFirmware s migrateOk).cnv = s.cnv ∧
    (State.bootFirmware s migrateOk).sb = s.sb := by
  have w1 := @State.bootSlot_still; have w2 := @State.inRecovery_still; have w3 := @State.startImage_still
  unfold State.bootFirmware; dsimp only; repeat' split
  all_goals simp [*]
theorem State.selectPattern_still (s : State) :
    (State.selectPattern s).pending = s.pending ∧ (State.selectPattern s).free = s.free ∧ (State.selectPattern s).host = s.host ∧
    (State.selectPattern s).epoch = s.epoch ∧ (State.selectPattern s).isl = s.isl ∧ (State.selectPattern s).routes = s.routes ∧
    (State.selectPattern s).dramMargin = s.dramMargin ∧ (State.selectPattern s).ports = s.ports ∧
    (State.selectPattern s).trickle = s.trickle ∧ (State.selectPattern s).cmd = s.cmd ∧ (State.selectPattern s).zon = s.zon ∧
    (State.selectPattern s).med = s.med ∧ (State.selectPattern s).mlf = s.mlf ∧ (State.selectPattern s).cpx = s.cpx ∧
    (State.selectPattern s).wvf = s.wvf ∧ (State.selectPattern s).bpm = s.bpm ∧ (State.selectPattern s).sli = s.sli ∧
    (State.selectPattern s).sec = s.sec ∧ (State.selectPattern s).mic = s.mic ∧ (State.selectPattern s).flt = s.flt ∧
    (State.selectPattern s).ctrs = s.ctrs ∧ (State.selectPattern s).grps = s.grps ∧ (State.selectPattern s).pwr = s.pwr ∧
    (State.selectPattern s).thm = s.thm ∧ (State.selectPattern s).age = s.age ∧ (State.selectPattern s).cnv = s.cnv ∧
    (State.selectPattern s).fwu = s.fwu ∧ (State.selectPattern s).sb = s.sb := by
  have w1 := @State.setPatSlot_still; have wi := @ite_parts
  simp [State.selectPattern, w1, wi]
theorem State.islandUp_still (s : State) (failed : List Nat) (i : Nat) :
    (State.islandUp s failed i).pending = s.pending ∧ (State.islandUp s failed i).free = s.free ∧
    (State.islandUp s failed i).host = s.host ∧ (State.islandUp s failed i).epoch = s.epoch ∧ (State.islandUp s failed i).pat = s.pat ∧
    (State.islandUp s failed i).routes = s.routes ∧ (State.islandUp s failed i).dramMargin = s.dramMargin ∧
    (State.islandUp s failed i).ports = s.ports ∧ (State.islandUp s failed i).trickle = s.trickle ∧
    (State.islandUp s failed i).cmd = s.cmd ∧ (State.islandUp s failed i).zon = s.zon ∧ (State.islandUp s failed i).med = s.med ∧
    (State.islandUp s failed i).mlf = s.mlf ∧ (State.islandUp s failed i).cpx = s.cpx ∧ (State.islandUp s failed i).wvf = s.wvf ∧
    (State.islandUp s failed i).bpm = s.bpm ∧ (State.islandUp s failed i).sli = s.sli ∧ (State.islandUp s failed i).sec = s.sec ∧
    (State.islandUp s failed i).mic = s.mic ∧ (State.islandUp s failed i).ctrs = s.ctrs ∧ (State.islandUp s failed i).grps = s.grps ∧
    (State.islandUp s failed i).pwr = s.pwr ∧ (State.islandUp s failed i).thm = s.thm ∧ (State.islandUp s failed i).age = s.age ∧
    (State.islandUp s failed i).cnv = s.cnv ∧ (State.islandUp s failed i).fwu = s.fwu ∧ (State.islandUp s failed i).sb = s.sb := by
  have w1 := @State.setIsl_still; have w2 := @State.failAt_still; have wi := @ite_parts
  simp [State.islandUp, w1, w2, wi]
theorem State.firstPlan_still (s : State) :
    (State.firstPlan s).pending = s.pending ∧ (State.firstPlan s).free = s.free ∧ (State.firstPlan s).host = s.host ∧
    (State.firstPlan s).epoch = s.epoch ∧ (State.firstPlan s).pat = s.pat ∧ (State.firstPlan s).isl = s.isl ∧
    (State.firstPlan s).routes = s.routes ∧ (State.firstPlan s).dramMargin = s.dramMargin ∧ (State.firstPlan s).ports = s.ports ∧
    (State.firstPlan s).trickle = s.trickle ∧ (State.firstPlan s).cmd = s.cmd ∧ (State.firstPlan s).zon = s.zon ∧
    (State.firstPlan s).med = s.med ∧ (State.firstPlan s).mlf = s.mlf ∧ (State.firstPlan s).cpx = s.cpx ∧ (State.firstPlan s).wvf = s.wvf ∧
    (State.firstPlan s).bpm = s.bpm ∧ (State.firstPlan s).sli = s.sli ∧ (State.firstPlan s).sec = s.sec ∧ (State.firstPlan s).mic = s.mic ∧
    (State.firstPlan s).flt = s.flt ∧ (State.firstPlan s).ctrs = s.ctrs ∧ (State.firstPlan s).grps = s.grps ∧
    (State.firstPlan s).pwr = s.pwr ∧ (State.firstPlan s).thm = s.thm ∧ (State.firstPlan s).cnv = s.cnv ∧ (State.firstPlan s).fwu = s.fwu ∧
    (State.firstPlan s).glb = s.glb ∧ (State.firstPlan s).sb = s.sb := by
  have wi := @ite_parts
  simp [State.firstPlan, wi]
theorem State.raisePoints_still (s : State) :
    (State.raisePoints s).pending = s.pending ∧ (State.raisePoints s).free = s.free ∧ (State.raisePoints s).host = s.host ∧
    (State.raisePoints s).epoch = s.epoch ∧ (State.raisePoints s).pat = s.pat ∧ (State.raisePoints s).routes = s.routes ∧
    (State.raisePoints s).dramMargin = s.dramMargin ∧ (State.raisePoints s).ports = s.ports ∧ (State.raisePoints s).trickle = s.trickle ∧
    (State.raisePoints s).cmd = s.cmd ∧ (State.raisePoints s).zon = s.zon ∧ (State.raisePoints s).med = s.med ∧
    (State.raisePoints s).mlf = s.mlf ∧ (State.raisePoints s).cpx = s.cpx ∧ (State.raisePoints s).wvf = s.wvf ∧
    (State.raisePoints s).bpm = s.bpm ∧ (State.raisePoints s).sli = s.sli ∧ (State.raisePoints s).sec = s.sec ∧
    (State.raisePoints s).mic = s.mic ∧ (State.raisePoints s).ctrs = s.ctrs ∧ (State.raisePoints s).grps = s.grps ∧
    (State.raisePoints s).pwr = s.pwr ∧ (State.raisePoints s).thm = s.thm ∧ (State.raisePoints s).age = s.age ∧
    (State.raisePoints s).cnv = s.cnv ∧ (State.raisePoints s).fwu = s.fwu ∧ (State.raisePoints s).sb = s.sb := by
  have w1 := @State.movePoint_still; have wf := @foldl_parts
  simp [State.raisePoints, w1, wf]
theorem State.trainDram_still (s : State) (failed : List Nat) :
    (State.trainDram s failed).pending = s.pending ∧ (State.trainDram s failed).free = s.free ∧ (State.trainDram s failed).host = s.host ∧
    (State.trainDram s failed).epoch = s.epoch ∧ (State.trainDram s failed).routes = s.routes ∧
    (State.trainDram s failed).dramMargin = s.dramMargin ∧ (State.trainDram s failed).ports = s.ports ∧
    (State.trainDram s failed).trickle = s.trickle ∧ (State.trainDram s failed).cmd = s.cmd ∧ (State.trainDram s failed).zon = s.zon ∧
    (State.trainDram s failed).med = s.med ∧ (State.trainDram s failed).mlf = s.mlf ∧ (State.trainDram s failed).cpx = s.cpx ∧
    (State.trainDram s failed).wvf = s.wvf ∧ (State.trainDram s failed).bpm = s.bpm ∧ (State.trainDram s failed).sli = s.sli ∧
    (State.trainDram s failed).sec = s.sec ∧ (State.trainDram s failed).mic = s.mic ∧ (State.trainDram s failed).ctrs = s.ctrs ∧
    (State.trainDram s failed).grps = s.grps ∧ (State.trainDram s failed).pwr = s.pwr ∧ (State.trainDram s failed).thm = s.thm ∧
    (State.trainDram s failed).age = s.age ∧ (State.trainDram s failed).cnv = s.cnv ∧ (State.trainDram s failed).fwu = s.fwu ∧
    (State.trainDram s failed).sb = s.sb := by
  have wi := @ite_parts; have wf := @foldl_parts
  have w1 := @State.failAt_still; have w2 := @State.modIsl_still
  unfold State.trainDram; repeat' split
  all_goals simp [*]
theorem State.openPools_still (s : State) :
    (State.openPools s).pending = s.pending ∧ (State.openPools s).free = s.free ∧ (State.openPools s).host = s.host ∧
    (State.openPools s).epoch = s.epoch ∧ (State.openPools s).pat = s.pat ∧ (State.openPools s).isl = s.isl ∧
    (State.openPools s).routes = s.routes ∧ (State.openPools s).dramMargin = s.dramMargin ∧ (State.openPools s).ports = s.ports ∧
    (State.openPools s).trickle = s.trickle ∧ (State.openPools s).cmd = s.cmd ∧ (State.openPools s).zon = s.zon ∧
    (State.openPools s).med = s.med ∧ (State.openPools s).mlf = s.mlf ∧ (State.openPools s).cpx = s.cpx ∧ (State.openPools s).wvf = s.wvf ∧
    (State.openPools s).sli = s.sli ∧ (State.openPools s).sec = s.sec ∧ (State.openPools s).mic = s.mic ∧ (State.openPools s).flt = s.flt ∧
    (State.openPools s).ctrs = s.ctrs ∧ (State.openPools s).grps = s.grps ∧ (State.openPools s).pwr = s.pwr ∧
    (State.openPools s).thm = s.thm ∧ (State.openPools s).age = s.age ∧ (State.openPools s).cnv = s.cnv ∧ (State.openPools s).fwu = s.fwu ∧
    (State.openPools s).glb = s.glb ∧ (State.openPools s).sb = s.sb := by
  have w1 := @State.setPool_still; have w2 := @State.setFrame_still; have w3 := @State.fillPools_still; have wf := @foldl_parts
  simp [State.openPools, w1, w2, w3, wf]
theorem State.loadPanels_still (s : State) :
    (State.loadPanels s).pending = s.pending ∧ (State.loadPanels s).free = s.free ∧ (State.loadPanels s).host = s.host ∧
    (State.loadPanels s).epoch = s.epoch ∧ (State.loadPanels s).pat = s.pat ∧ (State.loadPanels s).isl = s.isl ∧
    (State.loadPanels s).dramMargin = s.dramMargin ∧ (State.loadPanels s).ports = s.ports ∧ (State.loadPanels s).trickle = s.trickle ∧
    (State.loadPanels s).cmd = s.cmd ∧ (State.loadPanels s).zon = s.zon ∧ (State.loadPanels s).med = s.med ∧
    (State.loadPanels s).mlf = s.mlf ∧ (State.loadPanels s).cpx = s.cpx ∧ (State.loadPanels s).bpm = s.bpm ∧
    (State.loadPanels s).sli = s.sli ∧ (State.loadPanels s).sec = s.sec ∧ (State.loadPanels s).mic = s.mic ∧
    (State.loadPanels s).flt = s.flt ∧ (State.loadPanels s).grps = s.grps ∧ (State.loadPanels s).pwr = s.pwr ∧
    (State.loadPanels s).thm = s.thm ∧ (State.loadPanels s).age = s.age ∧ (State.loadPanels s).cnv = s.cnv ∧
    (State.loadPanels s).fwu = s.fwu ∧ (State.loadPanels s).glb = s.glb ∧ (State.loadPanels s).sb = s.sb := by
  have w1 := @State.rebind_still; have w2 := @State.loadHalf_still; have w3 := @State.loadPresets_still; have wf := @foldl_parts
  have wi := @ite_parts
  simp [State.loadPanels, w1, w2, w3, wf, wi]
theorem State.redisable_still (s : State) :
    (State.redisable s).pending = s.pending ∧ (State.redisable s).epoch = s.epoch ∧ (State.redisable s).dramMargin = s.dramMargin ∧
    (State.redisable s).sec = s.sec ∧ (State.redisable s).ctrs = s.ctrs ∧ (State.redisable s).grps = s.grps ∧
    (State.redisable s).thm = s.thm ∧ (State.redisable s).age = s.age ∧ (State.redisable s).cnv = s.cnv ∧ (State.redisable s).glb = s.glb := by
  have w1 := @State.disableEffect_still; have wf := @foldl_parts
  simp [State.redisable, w1, wf]
theorem State.startBays_still (s old : State) :
    (State.startBays s old).pending = s.pending ∧ (State.startBays s old).free = s.free ∧ (State.startBays s old).host = s.host ∧
    (State.startBays s old).epoch = s.epoch ∧ (State.startBays s old).pat = s.pat ∧ (State.startBays s old).isl = s.isl ∧
    (State.startBays s old).routes = s.routes ∧ (State.startBays s old).dramMargin = s.dramMargin ∧
    (State.startBays s old).ports = s.ports ∧ (State.startBays s old).trickle = s.trickle ∧ (State.startBays s old).cmd = s.cmd ∧
    (State.startBays s old).zon = s.zon ∧ (State.startBays s old).mlf = s.mlf ∧ (State.startBays s old).cpx = s.cpx ∧
    (State.startBays s old).wvf = s.wvf ∧ (State.startBays s old).bpm = s.bpm ∧ (State.startBays s old).sli = s.sli ∧
    (State.startBays s old).sec = s.sec ∧ (State.startBays s old).mic = s.mic ∧ (State.startBays s old).flt = s.flt ∧
    (State.startBays s old).ctrs = s.ctrs ∧ (State.startBays s old).grps = s.grps ∧ (State.startBays s old).pwr = s.pwr ∧
    (State.startBays s old).thm = s.thm ∧ (State.startBays s old).age = s.age ∧ (State.startBays s old).cnv = s.cnv ∧
    (State.startBays s old).fwu = s.fwu ∧ (State.startBays s old).glb = s.glb ∧ (State.startBays s old).sb = s.sb := by
  have w1 := @State.setBay_still; have wf := @foldl_parts
  simp [State.startBays, w1, wf]
theorem State.startPorts_still (s : State) :
    (State.startPorts s).pending = s.pending ∧ (State.startPorts s).free = s.free ∧ (State.startPorts s).host = s.host ∧
    (State.startPorts s).epoch = s.epoch ∧ (State.startPorts s).pat = s.pat ∧ (State.startPorts s).isl = s.isl ∧
    (State.startPorts s).routes = s.routes ∧ (State.startPorts s).dramMargin = s.dramMargin ∧ (State.startPorts s).trickle = s.trickle ∧
    (State.startPorts s).cmd = s.cmd ∧ (State.startPorts s).zon = s.zon ∧ (State.startPorts s).med = s.med ∧
    (State.startPorts s).mlf = s.mlf ∧ (State.startPorts s).cpx = s.cpx ∧ (State.startPorts s).wvf = s.wvf ∧
    (State.startPorts s).bpm = s.bpm ∧ (State.startPorts s).sli = s.sli ∧ (State.startPorts s).sec = s.sec ∧
    (State.startPorts s).mic = s.mic ∧ (State.startPorts s).flt = s.flt ∧ (State.startPorts s).ctrs = s.ctrs ∧
    (State.startPorts s).grps = s.grps ∧ (State.startPorts s).pwr = s.pwr ∧ (State.startPorts s).thm = s.thm ∧
    (State.startPorts s).age = s.age ∧ (State.startPorts s).cnv = s.cnv ∧ (State.startPorts s).fwu = s.fwu ∧
    (State.startPorts s).glb = s.glb := by
  have w1 := @State.setPort_still; have wf := @foldl_parts
  simp [State.startPorts, w1, wf]
theorem State.ownSplit0_still (s : State) :
    (State.ownSplit0 s).pending = s.pending ∧ (State.ownSplit0 s).free = s.free ∧ (State.ownSplit0 s).host = s.host ∧
    (State.ownSplit0 s).epoch = s.epoch ∧ (State.ownSplit0 s).pat = s.pat ∧ (State.ownSplit0 s).isl = s.isl ∧
    (State.ownSplit0 s).routes = s.routes ∧ (State.ownSplit0 s).dramMargin = s.dramMargin ∧ (State.ownSplit0 s).ports = s.ports ∧
    (State.ownSplit0 s).trickle = s.trickle ∧ (State.ownSplit0 s).cmd = s.cmd ∧ (State.ownSplit0 s).med = s.med ∧
    (State.ownSplit0 s).mlf = s.mlf ∧ (State.ownSplit0 s).cpx = s.cpx ∧ (State.ownSplit0 s).wvf = s.wvf ∧ (State.ownSplit0 s).bpm = s.bpm ∧
    (State.ownSplit0 s).sli = s.sli ∧ (State.ownSplit0 s).sec = s.sec ∧ (State.ownSplit0 s).mic = s.mic ∧ (State.ownSplit0 s).flt = s.flt ∧
    (State.ownSplit0 s).ctrs = s.ctrs ∧ (State.ownSplit0 s).grps = s.grps ∧ (State.ownSplit0 s).pwr = s.pwr ∧
    (State.ownSplit0 s).thm = s.thm ∧ (State.ownSplit0 s).age = s.age ∧ (State.ownSplit0 s).cnv = s.cnv ∧ (State.ownSplit0 s).fwu = s.fwu ∧
    (State.ownSplit0 s).glb = s.glb ∧ (State.ownSplit0 s).sb = s.sb := by
  have wi := @ite_parts
  simp [State.ownSplit0, wi]
theorem State.boot_still (s old : State) (b : BootIn) :
    (State.boot s old b).pending = s.pending ∧ (State.boot s old b).epoch = s.epoch ∧ (State.boot s old b).dramMargin = s.dramMargin ∧
    (State.boot s old b).sec = s.sec ∧ (State.boot s old b).grps = s.grps ∧ (State.boot s old b).thm = s.thm ∧
    (State.boot s old b).cnv = s.cnv := by
  have w1 := @State.bootFirmware_still; have w2 := @State.selectPattern_still; have w3 := @State.firstPlan_still
  have w4 := @State.islandUp_still; have w5 := @State.trainDram_still; have w6 := @State.openPools_still
  have w7 := @State.loadPanels_still; have w8 := @State.redisable_still; have w9 := @State.raisePoints_still
  have w10 := @State.startBays_still; have w11 := @State.startPorts_still; have w12 := @State.ownSplit0_still
  have wf := @foldl_parts
  simp [State.boot, w1, w2, w3, w4, w5, w6, w7, w8, w9, w10, w11, w12, wf]
theorem State.restoreSlices_still (s : State) :
    (State.restoreSlices s).pending = s.pending ∧ (State.restoreSlices s).free = s.free ∧ (State.restoreSlices s).host = s.host ∧
    (State.restoreSlices s).epoch = s.epoch ∧ (State.restoreSlices s).pat = s.pat ∧ (State.restoreSlices s).isl = s.isl ∧
    (State.restoreSlices s).routes = s.routes ∧ (State.restoreSlices s).dramMargin = s.dramMargin ∧
    (State.restoreSlices s).ports = s.ports ∧ (State.restoreSlices s).trickle = s.trickle ∧ (State.restoreSlices s).zon = s.zon ∧
    (State.restoreSlices s).med = s.med ∧ (State.restoreSlices s).mlf = s.mlf ∧ (State.restoreSlices s).cpx = s.cpx ∧
    (State.restoreSlices s).wvf = s.wvf ∧ (State.restoreSlices s).bpm = s.bpm ∧ (State.restoreSlices s).sec = s.sec ∧
    (State.restoreSlices s).mic = s.mic ∧ (State.restoreSlices s).ctrs = s.ctrs ∧ (State.restoreSlices s).grps = s.grps ∧
    (State.restoreSlices s).pwr = s.pwr ∧ (State.restoreSlices s).thm = s.thm ∧ (State.restoreSlices s).age = s.age ∧
    (State.restoreSlices s).cnv = s.cnv ∧ (State.restoreSlices s).fwu = s.fwu ∧ (State.restoreSlices s).sb = s.sb := by
  have w1 := @State.failAt_still; have wi := @ite_parts
  simp [State.restoreSlices, w1, wi]
theorem State.raiseRdy_still (s : State) (p : Ctrl → Bool) :
    (State.raiseRdy s p).pending = s.pending ∧ (State.raiseRdy s p).free = s.free ∧ (State.raiseRdy s p).host = s.host ∧
    (State.raiseRdy s p).epoch = s.epoch ∧ (State.raiseRdy s p).pat = s.pat ∧ (State.raiseRdy s p).isl = s.isl ∧
    (State.raiseRdy s p).routes = s.routes ∧ (State.raiseRdy s p).dramMargin = s.dramMargin ∧ (State.raiseRdy s p).ports = s.ports ∧
    (State.raiseRdy s p).trickle = s.trickle ∧ (State.raiseRdy s p).zon = s.zon ∧ (State.raiseRdy s p).med = s.med ∧
    (State.raiseRdy s p).mlf = s.mlf ∧ (State.raiseRdy s p).cpx = s.cpx ∧ (State.raiseRdy s p).wvf = s.wvf ∧
    (State.raiseRdy s p).bpm = s.bpm ∧ (State.raiseRdy s p).sli = s.sli ∧ (State.raiseRdy s p).sec = s.sec ∧
    (State.raiseRdy s p).mic = s.mic ∧ (State.raiseRdy s p).flt = s.flt ∧ (State.raiseRdy s p).ctrs = s.ctrs ∧
    (State.raiseRdy s p).grps = s.grps ∧ (State.raiseRdy s p).pwr = s.pwr ∧ (State.raiseRdy s p).thm = s.thm ∧
    (State.raiseRdy s p).age = s.age ∧ (State.raiseRdy s p).cnv = s.cnv ∧ (State.raiseRdy s p).fwu = s.fwu ∧
    (State.raiseRdy s p).glb = s.glb ∧ (State.raiseRdy s p).sb = s.sb := by
  simp [State.raiseRdy]
theorem State.journalFaults_still (s : State) :
    (State.journalFaults s).pending = s.pending ∧ (State.journalFaults s).free = s.free ∧ (State.journalFaults s).host = s.host ∧
    (State.journalFaults s).epoch = s.epoch ∧ (State.journalFaults s).pat = s.pat ∧ (State.journalFaults s).isl = s.isl ∧
    (State.journalFaults s).routes = s.routes ∧ (State.journalFaults s).dramMargin = s.dramMargin ∧
    (State.journalFaults s).ports = s.ports ∧ (State.journalFaults s).trickle = s.trickle ∧ (State.journalFaults s).cmd = s.cmd ∧
    (State.journalFaults s).zon = s.zon ∧ (State.journalFaults s).med = s.med ∧ (State.journalFaults s).mlf = s.mlf ∧
    (State.journalFaults s).cpx = s.cpx ∧ (State.journalFaults s).wvf = s.wvf ∧ (State.journalFaults s).bpm = s.bpm ∧
    (State.journalFaults s).sli = s.sli ∧ (State.journalFaults s).sec = s.sec ∧ (State.journalFaults s).mic = s.mic ∧
    (State.journalFaults s).ctrs = s.ctrs ∧ (State.journalFaults s).grps = s.grps ∧ (State.journalFaults s).pwr = s.pwr ∧
    (State.journalFaults s).thm = s.thm ∧ (State.journalFaults s).age = s.age ∧ (State.journalFaults s).cnv = s.cnv ∧
    (State.journalFaults s).fwu = s.fwu ∧ (State.journalFaults s).sb = s.sb := by
  have w1 := @State.failAt_still; have wi := @ite_parts
  simp [State.journalFaults, w1, wi]
theorem State.closeZones_still (s : State) :
    (State.closeZones s).pending = s.pending ∧ (State.closeZones s).free = s.free ∧ (State.closeZones s).host = s.host ∧
    (State.closeZones s).epoch = s.epoch ∧ (State.closeZones s).pat = s.pat ∧ (State.closeZones s).isl = s.isl ∧
    (State.closeZones s).routes = s.routes ∧ (State.closeZones s).dramMargin = s.dramMargin ∧ (State.closeZones s).ports = s.ports ∧
    (State.closeZones s).trickle = s.trickle ∧ (State.closeZones s).cmd = s.cmd ∧ (State.closeZones s).med = s.med ∧
    (State.closeZones s).mlf = s.mlf ∧ (State.closeZones s).cpx = s.cpx ∧ (State.closeZones s).wvf = s.wvf ∧
    (State.closeZones s).bpm = s.bpm ∧ (State.closeZones s).sli = s.sli ∧ (State.closeZones s).sec = s.sec ∧
    (State.closeZones s).mic = s.mic ∧ (State.closeZones s).flt = s.flt ∧ (State.closeZones s).ctrs = s.ctrs ∧
    (State.closeZones s).grps = s.grps ∧ (State.closeZones s).pwr = s.pwr ∧ (State.closeZones s).thm = s.thm ∧
    (State.closeZones s).age = s.age ∧ (State.closeZones s).cnv = s.cnv ∧ (State.closeZones s).fwu = s.fwu ∧
    (State.closeZones s).glb = s.glb ∧ (State.closeZones s).sb = s.sb := by
  have w1 := @State.modZent_still; have wf := @foldl_parts; have wi := @ite_parts
  simp [State.closeZones, w1, wf, wi]
theorem State.sbPath_still (s : State) :
    (State.sbPath s).2.pending = s.pending ∧ (State.sbPath s).2.free = s.free ∧ (State.sbPath s).2.host = s.host ∧
    (State.sbPath s).2.epoch = s.epoch ∧ (State.sbPath s).2.pat = s.pat ∧ (State.sbPath s).2.routes = s.routes ∧
    (State.sbPath s).2.dramMargin = s.dramMargin ∧ (State.sbPath s).2.ports = s.ports ∧ (State.sbPath s).2.trickle = s.trickle ∧
    (State.sbPath s).2.cmd = s.cmd ∧ (State.sbPath s).2.zon = s.zon ∧ (State.sbPath s).2.med = s.med ∧ (State.sbPath s).2.mlf = s.mlf ∧
    (State.sbPath s).2.cpx = s.cpx ∧ (State.sbPath s).2.wvf = s.wvf ∧ (State.sbPath s).2.bpm = s.bpm ∧ (State.sbPath s).2.sli = s.sli ∧
    (State.sbPath s).2.sec = s.sec ∧ (State.sbPath s).2.mic = s.mic ∧ (State.sbPath s).2.flt = s.flt ∧ (State.sbPath s).2.ctrs = s.ctrs ∧
    (State.sbPath s).2.grps = s.grps ∧ (State.sbPath s).2.thm = s.thm ∧ (State.sbPath s).2.age = s.age ∧ (State.sbPath s).2.cnv = s.cnv ∧
    (State.sbPath s).2.fwu = s.fwu ∧ (State.sbPath s).2.glb = s.glb ∧ (State.sbPath s).2.sb = s.sb := by
  have w1 := @State.startWake_still; have w2 := @State.wakeEvent_still
  unfold State.sbPath; repeat' split
  all_goals simp [*]
theorem State.sbWait_still (s : State) (e : Nat) :
    (State.sbWait s e).pending = s.pending ∧ (State.sbWait s e).free = s.free ∧ (State.sbWait s e).host = s.host ∧
    (State.sbWait s e).epoch = s.epoch ∧ (State.sbWait s e).pat = s.pat ∧ (State.sbWait s e).isl = s.isl ∧
    (State.sbWait s e).routes = s.routes ∧ (State.sbWait s e).dramMargin = s.dramMargin ∧ (State.sbWait s e).ports = s.ports ∧
    (State.sbWait s e).trickle = s.trickle ∧ (State.sbWait s e).cmd = s.cmd ∧ (State.sbWait s e).zon = s.zon ∧
    (State.sbWait s e).med = s.med ∧ (State.sbWait s e).mlf = s.mlf ∧ (State.sbWait s e).cpx = s.cpx ∧ (State.sbWait s e).wvf = s.wvf ∧
    (State.sbWait s e).bpm = s.bpm ∧ (State.sbWait s e).sli = s.sli ∧ (State.sbWait s e).sec = s.sec ∧ (State.sbWait s e).mic = s.mic ∧
    (State.sbWait s e).flt = s.flt ∧ (State.sbWait s e).ctrs = s.ctrs ∧ (State.sbWait s e).grps = s.grps ∧ (State.sbWait s e).pwr = s.pwr ∧
    (State.sbWait s e).thm = s.thm ∧ (State.sbWait s e).age = s.age ∧ (State.sbWait s e).cnv = s.cnv ∧ (State.sbWait s e).fwu = s.fwu ∧
    (State.sbWait s e).glb = s.glb := by
  simp [State.sbWait]
theorem State.sbCommit_still (s : State) (e : Nat) (q : Sqe) :
    (State.sbCommit s e q).pending = s.pending ∧ (State.sbCommit s e q).epoch = s.epoch ∧
    (State.sbCommit s e q).dramMargin = s.dramMargin ∧ (State.sbCommit s e q).ports = s.ports ∧
    (State.sbCommit s e q).trickle = s.trickle ∧ (State.sbCommit s e q).sec = s.sec ∧ (State.sbCommit s e q).ctrs = s.ctrs ∧
    (State.sbCommit s e q).grps = s.grps ∧ (State.sbCommit s e q).thm = s.thm ∧ (State.sbCommit s e q).age = s.age ∧
    (State.sbCommit s e q).glb = s.glb := by
  have w1 := @State.answer_still; have w2 := @State.fwActivate_still; have w3 := @State.fwApplyNext_still
  have w4 := @State.fwApply_still; have w5 := @State.fwMarkNext_still; have w6 := @State.sbReply_still
  have w7 := @State.sbWait_still; have w8 := @drawBool_still
  unfold State.sbCommit; dsimp only; repeat' split
  all_goals simp [*]
theorem State.sbSetFeatures_still (s : State) (e : Nat) (q : Sqe) (data : List Byte) :
    (State.sbSetFeatures s e q data).pending = s.pending ∧ (State.sbSetFeatures s e q data).free = s.free ∧
    (State.sbSetFeatures s e q data).epoch = s.epoch ∧ (State.sbSetFeatures s e q data).pat = s.pat ∧
    (State.sbSetFeatures s e q data).routes = s.routes ∧ (State.sbSetFeatures s e q data).dramMargin = s.dramMargin ∧
    (State.sbSetFeatures s e q data).ports = s.ports ∧ (State.sbSetFeatures s e q data).trickle = s.trickle ∧
    (State.sbSetFeatures s e q data).med = s.med ∧ (State.sbSetFeatures s e q data).cpx = s.cpx ∧
    (State.sbSetFeatures s e q data).wvf = s.wvf ∧ (State.sbSetFeatures s e q data).bpm = s.bpm ∧
    (State.sbSetFeatures s e q data).sec = s.sec ∧ (State.sbSetFeatures s e q data).mic = s.mic ∧
    (State.sbSetFeatures s e q data).flt = s.flt ∧ (State.sbSetFeatures s e q data).ctrs = s.ctrs ∧
    (State.sbSetFeatures s e q data).grps = s.grps ∧ (State.sbSetFeatures s e q data).age = s.age ∧
    (State.sbSetFeatures s e q data).cnv = s.cnv ∧ (State.sbSetFeatures s e q data).fwu = s.fwu ∧
    (State.sbSetFeatures s e q data).glb = s.glb := by
  have w1 := @State.sbReply_still; have w2 := @State.sbWait_still
  unfold State.sbSetFeatures; split
  · rename_i q; have k := State.setFeatures_still _ _ _ _ _ _ _ _ q; simp [k, w2]
  · simp [w1]
theorem State.patOp_still (s : State) (r : Requester) (q : Sqe) (data : List Byte) :
    (State.patOp s r q data).2.pending = s.pending ∧ (State.patOp s r q data).2.free = s.free ∧ (State.patOp s r q data).2.host = s.host ∧
    (State.patOp s r q data).2.epoch = s.epoch ∧ (State.patOp s r q data).2.isl = s.isl ∧ (State.patOp s r q data).2.routes = s.routes ∧
    (State.patOp s r q data).2.dramMargin = s.dramMargin ∧ (State.patOp s r q data).2.ports = s.ports ∧
    (State.patOp s r q data).2.trickle = s.trickle ∧ (State.patOp s r q data).2.cmd = s.cmd ∧ (State.patOp s r q data).2.zon = s.zon ∧
    (State.patOp s r q data).2.med = s.med ∧ (State.patOp s r q data).2.mlf = s.mlf ∧ (State.patOp s r q data).2.cpx = s.cpx ∧
    (State.patOp s r q data).2.wvf = s.wvf ∧ (State.patOp s r q data).2.bpm = s.bpm ∧ (State.patOp s r q data).2.sli = s.sli ∧
    (State.patOp s r q data).2.sec = s.sec ∧ (State.patOp s r q data).2.mic = s.mic ∧ (State.patOp s r q data).2.ctrs = s.ctrs ∧
    (State.patOp s r q data).2.grps = s.grps ∧ (State.patOp s r q data).2.pwr = s.pwr ∧ (State.patOp s r q data).2.thm = s.thm ∧
    (State.patOp s r q data).2.age = s.age ∧ (State.patOp s r q data).2.fwu = s.fwu ∧ (State.patOp s r q data).2.glb = s.glb ∧
    (State.patOp s r q data).2.sb = s.sb := by
  have w1 := @State.patCommit_still; have w2 := @State.patErase_still; have w3 := @State.patTransfer_still
  unfold State.patOp; repeat' split
  all_goals simp [*]
theorem State.sbAdmin_still (s : State) (e : Nat) (q : Sqe) (data : List Byte) (m : PlanMeas) :
    (State.sbAdmin s e q data m).pending = s.pending ∧ (State.sbAdmin s e q data m).epoch = s.epoch ∧
    (State.sbAdmin s e q data m).dramMargin = s.dramMargin ∧ (State.sbAdmin s e q data m).ports = s.ports ∧
    (State.sbAdmin s e q data m).trickle = s.trickle ∧ (State.sbAdmin s e q data m).ctrs = s.ctrs ∧
    (State.sbAdmin s e q data m).grps = s.grps := by
  have wi := @ite_parts
  have w1 := @State.challenge_still; have w2 := @State.closeSession_still; have w3 := @State.fwDownload_still
  have w4 := @State.getLog_still; have w5 := @State.openSession_still; have w6 := @State.patOp_still
  have w7 := @State.planRun_still; have w8 := @State.sbCommit_still; have w9 := @State.sbReply_still
  have w10 := @State.sbSetFeatures_still
  unfold State.sbAdmin; repeat' split
  all_goals simp [*]
theorem State.sbControl_still (s : State) (e op : Nat) :
    (State.sbControl s e op).pending = s.pending ∧ (State.sbControl s e op).free = s.free ∧ (State.sbControl s e op).epoch = s.epoch ∧
    (State.sbControl s e op).pat = s.pat ∧ (State.sbControl s e op).isl = s.isl ∧ (State.sbControl s e op).routes = s.routes ∧
    (State.sbControl s e op).dramMargin = s.dramMargin ∧ (State.sbControl s e op).ports = s.ports ∧
    (State.sbControl s e op).trickle = s.trickle ∧ (State.sbControl s e op).cmd = s.cmd ∧ (State.sbControl s e op).zon = s.zon ∧
    (State.sbControl s e op).med = s.med ∧ (State.sbControl s e op).mlf = s.mlf ∧ (State.sbControl s e op).cpx = s.cpx ∧
    (State.sbControl s e op).wvf = s.wvf ∧ (State.sbControl s e op).bpm = s.bpm ∧ (State.sbControl s e op).sli = s.sli ∧
    (State.sbControl s e op).sec = s.sec ∧ (State.sbControl s e op).mic = s.mic ∧ (State.sbControl s e op).flt = s.flt ∧
    (State.sbControl s e op).ctrs = s.ctrs ∧ (State.sbControl s e op).grps = s.grps ∧ (State.sbControl s e op).pwr = s.pwr ∧
    (State.sbControl s e op).thm = s.thm ∧ (State.sbControl s e op).age = s.age ∧ (State.sbControl s e op).cnv = s.cnv ∧
    (State.sbControl s e op).fwu = s.fwu ∧ (State.sbControl s e op).glb = s.glb := by
  unfold State.sbControl; repeat' split
  all_goals simp [*]
theorem State.setEid_still (s : State) (v : Nat) :
    (State.setEid s v).pending = s.pending ∧ (State.setEid s v).free = s.free ∧ (State.setEid s v).host = s.host ∧
    (State.setEid s v).epoch = s.epoch ∧ (State.setEid s v).pat = s.pat ∧ (State.setEid s v).isl = s.isl ∧
    (State.setEid s v).routes = s.routes ∧ (State.setEid s v).dramMargin = s.dramMargin ∧ (State.setEid s v).ports = s.ports ∧
    (State.setEid s v).trickle = s.trickle ∧ (State.setEid s v).cmd = s.cmd ∧ (State.setEid s v).zon = s.zon ∧
    (State.setEid s v).med = s.med ∧ (State.setEid s v).mlf = s.mlf ∧ (State.setEid s v).cpx = s.cpx ∧ (State.setEid s v).wvf = s.wvf ∧
    (State.setEid s v).bpm = s.bpm ∧ (State.setEid s v).sli = s.sli ∧ (State.setEid s v).mic = s.mic ∧ (State.setEid s v).flt = s.flt ∧
    (State.setEid s v).ctrs = s.ctrs ∧ (State.setEid s v).grps = s.grps ∧ (State.setEid s v).pwr = s.pwr ∧ (State.setEid s v).thm = s.thm ∧
    (State.setEid s v).age = s.age ∧ (State.setEid s v).cnv = s.cnv ∧ (State.setEid s v).fwu = s.fwu ∧ (State.setEid s v).glb = s.glb := by
  have w1 := @State.endSessions_still
  simp [State.setEid, w1]
theorem State.sbMessage_still (s : State) (e : Nat) (m : SbMsg) :
    (State.sbMessage s e m).pending = s.pending ∧ (State.sbMessage s e m).epoch = s.epoch ∧
    (State.sbMessage s e m).dramMargin = s.dramMargin ∧ (State.sbMessage s e m).ports = s.ports ∧
    (State.sbMessage s e m).trickle = s.trickle ∧ (State.sbMessage s e m).ctrs = s.ctrs ∧ (State.sbMessage s e m).grps = s.grps := by
  have w1 := @State.setEid_still; have w2 := @State.sbReply_still; have w3 := @State.sbAdmin_still
  have w4 := @State.sbControl_still; have w5 := @State.miSet_still; have w6 := @State.miRun_still; have wi := @ite_parts
  cases m <;> simp [State.sbMessage, w1, w2, w3, w4, w5, w6, wi]
theorem State.badAccess_still (s : State) (addr : Nat) :
    (State.badAccess s addr).pending = s.pending ∧ (State.badAccess s addr).free = s.free ∧ (State.badAccess s addr).host = s.host ∧
    (State.badAccess s addr).epoch = s.epoch ∧ (State.badAccess s addr).pat = s.pat ∧ (State.badAccess s addr).isl = s.isl ∧
    (State.badAccess s addr).routes = s.routes ∧ (State.badAccess s addr).dramMargin = s.dramMargin ∧
    (State.badAccess s addr).ports = s.ports ∧ (State.badAccess s addr).trickle = s.trickle ∧ (State.badAccess s addr).cmd = s.cmd ∧
    (State.badAccess s addr).zon = s.zon ∧ (State.badAccess s addr).med = s.med ∧ (State.badAccess s addr).mlf = s.mlf ∧
    (State.badAccess s addr).cpx = s.cpx ∧ (State.badAccess s addr).wvf = s.wvf ∧ (State.badAccess s addr).bpm = s.bpm ∧
    (State.badAccess s addr).sli = s.sli ∧ (State.badAccess s addr).sec = s.sec ∧ (State.badAccess s addr).mic = s.mic ∧
    (State.badAccess s addr).ctrs = s.ctrs ∧ (State.badAccess s addr).grps = s.grps ∧ (State.badAccess s addr).pwr = s.pwr ∧
    (State.badAccess s addr).thm = s.thm ∧ (State.badAccess s addr).age = s.age ∧ (State.badAccess s addr).cnv = s.cnv ∧
    (State.badAccess s addr).fwu = s.fwu ∧ (State.badAccess s addr).glb = s.glb ∧ (State.badAccess s addr).sb = s.sb := by
  have w1 := @State.queueFault_still
  simp [State.badAccess, w1]
theorem State.msgWrite_still (s : State) (port slice e word : Nat) (lo hi : Bool) (v : Nat) :
    (State.msgWrite s port slice e word lo hi v).pending = s.pending ∧ (State.msgWrite s port slice e word lo hi v).free = s.free ∧
    (State.msgWrite s port slice e word lo hi v).epoch = s.epoch ∧ (State.msgWrite s port slice e word lo hi v).pat = s.pat ∧
    (State.msgWrite s port slice e word lo hi v).isl = s.isl ∧ (State.msgWrite s port slice e word lo hi v).routes = s.routes ∧
    (State.msgWrite s port slice e word lo hi v).dramMargin = s.dramMargin ∧
    (State.msgWrite s port slice e word lo hi v).trickle = s.trickle ∧ (State.msgWrite s port slice e word lo hi v).cmd = s.cmd ∧
    (State.msgWrite s port slice e word lo hi v).zon = s.zon ∧ (State.msgWrite s port slice e word lo hi v).med = s.med ∧
    (State.msgWrite s port slice e word lo hi v).mlf = s.mlf ∧ (State.msgWrite s port slice e word lo hi v).cpx = s.cpx ∧
    (State.msgWrite s port slice e word lo hi v).wvf = s.wvf ∧ (State.msgWrite s port slice e word lo hi v).bpm = s.bpm ∧
    (State.msgWrite s port slice e word lo hi v).sec = s.sec ∧ (State.msgWrite s port slice e word lo hi v).mic = s.mic ∧
    (State.msgWrite s port slice e word lo hi v).flt = s.flt ∧ (State.msgWrite s port slice e word lo hi v).ctrs = s.ctrs ∧
    (State.msgWrite s port slice e word lo hi v).grps = s.grps ∧ (State.msgWrite s port slice e word lo hi v).pwr = s.pwr ∧
    (State.msgWrite s port slice e word lo hi v).thm = s.thm ∧ (State.msgWrite s port slice e word lo hi v).age = s.age ∧
    (State.msgWrite s port slice e word lo hi v).cnv = s.cnv ∧ (State.msgWrite s port slice e word lo hi v).fwu = s.fwu ∧
    (State.msgWrite s port slice e word lo hi v).glb = s.glb ∧ (State.msgWrite s port slice e word lo hi v).sb = s.sb := by
  have w1 := @State.modPort_still; have w2 := @State.modSli_still; have w3 := @State.unmask_still; have wi := @ite_parts
  simp [State.msgWrite, w1, w2, w3, wi]
theorem State.ccWrite_still (s : State) (port sl v : Nat) :
    (State.ccWrite s port sl v).pending = s.pending ∧ (State.ccWrite s port sl v).epoch = s.epoch ∧
    (State.ccWrite s port sl v).dramMargin = s.dramMargin ∧ (State.ccWrite s port sl v).ports = s.ports ∧
    (State.ccWrite s port sl v).trickle = s.trickle ∧ (State.ccWrite s port sl v).ctrs = s.ctrs ∧
    (State.ccWrite s port sl v).grps = s.grps ∧ (State.ccWrite s port sl v).thm = s.thm ∧ (State.ccWrite s port sl v).age = s.age ∧
    (State.ccWrite s port sl v).cnv = s.cnv ∧ (State.ccWrite s port sl v).glb = s.glb := by
  have w1 := @State.enableCtrl_still; have w2 := @State.disableCtrl_still; have w3 := @State.modCtrl_still
  have w4 := @State.notifyShutdown_still; have wi := @ite_parts
  simp [State.ccWrite, w1, w2, w3, w4, wi]
theorem State.ctrlWord_still (s : State) (port sl off v : Nat) :
    (State.ctrlWord s port sl off v).pending = s.pending ∧ (State.ctrlWord s port sl off v).epoch = s.epoch ∧
    (State.ctrlWord s port sl off v).dramMargin = s.dramMargin ∧ (State.ctrlWord s port sl off v).ports = s.ports ∧
    (State.ctrlWord s port sl off v).trickle = s.trickle ∧ (State.ctrlWord s port sl off v).ctrs = s.ctrs ∧
    (State.ctrlWord s port sl off v).grps = s.grps ∧ (State.ctrlWord s port sl off v).thm = s.thm ∧
    (State.ctrlWord s port sl off v).age = s.age ∧ (State.ctrlWord s port sl off v).cnv = s.cnv ∧
    (State.ctrlWord s port sl off v).glb = s.glb := by
  have w1 := @State.ccWrite_still; have w2 := @State.modCtrl_still; have wi := @ite_parts
  simp [State.ctrlWord, w1, w2, wi]
theorem State.mbInWrite_still (s : State) (sl off width v : Nat) :
    (State.mbInWrite s sl off width v).pending = s.pending ∧ (State.mbInWrite s sl off width v).free = s.free ∧
    (State.mbInWrite s sl off width v).host = s.host ∧ (State.mbInWrite s sl off width v).epoch = s.epoch ∧
    (State.mbInWrite s sl off width v).pat = s.pat ∧ (State.mbInWrite s sl off width v).isl = s.isl ∧
    (State.mbInWrite s sl off width v).routes = s.routes ∧ (State.mbInWrite s sl off width v).dramMargin = s.dramMargin ∧
    (State.mbInWrite s sl off width v).ports = s.ports ∧ (State.mbInWrite s sl off width v).trickle = s.trickle ∧
    (State.mbInWrite s sl off width v).cmd = s.cmd ∧ (State.mbInWrite s sl off width v).zon = s.zon ∧
    (State.mbInWrite s sl off width v).med = s.med ∧ (State.mbInWrite s sl off width v).mlf = s.mlf ∧
    (State.mbInWrite s sl off width v).cpx = s.cpx ∧ (State.mbInWrite s sl off width v).wvf = s.wvf ∧
    (State.mbInWrite s sl off width v).bpm = s.bpm ∧ (State.mbInWrite s sl off width v).sec = s.sec ∧
    (State.mbInWrite s sl off width v).mic = s.mic ∧ (State.mbInWrite s sl off width v).flt = s.flt ∧
    (State.mbInWrite s sl off width v).ctrs = s.ctrs ∧ (State.mbInWrite s sl off width v).grps = s.grps ∧
    (State.mbInWrite s sl off width v).pwr = s.pwr ∧ (State.mbInWrite s sl off width v).thm = s.thm ∧
    (State.mbInWrite s sl off width v).age = s.age ∧ (State.mbInWrite s sl off width v).cnv = s.cnv ∧
    (State.mbInWrite s sl off width v).fwu = s.fwu ∧ (State.mbInWrite s sl off width v).glb = s.glb ∧
    (State.mbInWrite s sl off width v).sb = s.sb := by
  have w1 := @State.modSli_still
  simp [State.mbInWrite, w1]
theorem State.pageWord_still (s : State) (port sl off : Nat) (lo hi : Bool) (v : Nat) :
    (State.pageWord s port sl off lo hi v).pending = s.pending ∧ (State.pageWord s port sl off lo hi v).epoch = s.epoch ∧
    (State.pageWord s port sl off lo hi v).dramMargin = s.dramMargin ∧ (State.pageWord s port sl off lo hi v).ctrs = s.ctrs ∧
    (State.pageWord s port sl off lo hi v).grps = s.grps ∧ (State.pageWord s port sl off lo hi v).thm = s.thm ∧
    (State.pageWord s port sl off lo hi v).age = s.age ∧ (State.pageWord s port sl off lo hi v).cnv = s.cnv ∧
    (State.pageWord s port sl off lo hi v).glb = s.glb := by
  have w1 := @State.oqResumeWrite_still; have w2 := @State.ctrlWord_still; have w3 := @State.doorbell_still
  have w4 := @State.msgWrite_still; have w5 := @State.mbSend_still; have w6 := @State.mbAck_still; have wi := @ite_parts
  unfold State.pageWord; repeat' split
  all_goals simp [*]
theorem State.glbWrite_still (s : State) (r : Nat) (lo : Bool) (v : Nat) :
    (State.glbWrite s r lo v).pending = s.pending ∧ (State.glbWrite s r lo v).free = s.free ∧ (State.glbWrite s r lo v).host = s.host ∧
    (State.glbWrite s r lo v).epoch = s.epoch ∧ (State.glbWrite s r lo v).pat = s.pat ∧ (State.glbWrite s r lo v).isl = s.isl ∧
    (State.glbWrite s r lo v).routes = s.routes ∧ (State.glbWrite s r lo v).dramMargin = s.dramMargin ∧
    (State.glbWrite s r lo v).ports = s.ports ∧ (State.glbWrite s r lo v).trickle = s.trickle ∧ (State.glbWrite s r lo v).cmd = s.cmd ∧
    (State.glbWrite s r lo v).zon = s.zon ∧ (State.glbWrite s r lo v).med = s.med ∧ (State.glbWrite s r lo v).mlf = s.mlf ∧
    (State.glbWrite s r lo v).cpx = s.cpx ∧ (State.glbWrite s r lo v).wvf = s.wvf ∧ (State.glbWrite s r lo v).bpm = s.bpm ∧
    (State.glbWrite s r lo v).sec = s.sec ∧ (State.glbWrite s r lo v).mic = s.mic ∧ (State.glbWrite s r lo v).flt = s.flt ∧
    (State.glbWrite s r lo v).ctrs = s.ctrs ∧ (State.glbWrite s r lo v).grps = s.grps ∧ (State.glbWrite s r lo v).pwr = s.pwr ∧
    (State.glbWrite s r lo v).thm = s.thm ∧ (State.glbWrite s r lo v).age = s.age ∧ (State.glbWrite s r lo v).cnv = s.cnv ∧
    (State.glbWrite s r lo v).fwu = s.fwu ∧ (State.glbWrite s r lo v).sb = s.sb := by
  have w1 := @State.holdWrite_still; have wi := @ite_parts
  simp [State.glbWrite, w1, wi]
theorem State.patWrite_still (s : State) (r : Nat) (lo : Bool) (v : Nat) :
    (State.patWrite s r lo v).pending = s.pending ∧ (State.patWrite s r lo v).free = s.free ∧ (State.patWrite s r lo v).epoch = s.epoch ∧
    (State.patWrite s r lo v).isl = s.isl ∧ (State.patWrite s r lo v).dramMargin = s.dramMargin ∧
    (State.patWrite s r lo v).ports = s.ports ∧ (State.patWrite s r lo v).trickle = s.trickle ∧ (State.patWrite s r lo v).zon = s.zon ∧
    (State.patWrite s r lo v).med = s.med ∧ (State.patWrite s r lo v).mlf = s.mlf ∧ (State.patWrite s r lo v).cpx = s.cpx ∧
    (State.patWrite s r lo v).wvf = s.wvf ∧ (State.patWrite s r lo v).bpm = s.bpm ∧ (State.patWrite s r lo v).sli = s.sli ∧
    (State.patWrite s r lo v).sec = s.sec ∧ (State.patWrite s r lo v).mic = s.mic ∧ (State.patWrite s r lo v).flt = s.flt ∧
    (State.patWrite s r lo v).ctrs = s.ctrs ∧ (State.patWrite s r lo v).grps = s.grps ∧ (State.patWrite s r lo v).pwr = s.pwr ∧
    (State.patWrite s r lo v).thm = s.thm ∧ (State.patWrite s r lo v).age = s.age ∧ (State.patWrite s r lo v).cnv = s.cnv ∧
    (State.patWrite s r lo v).glb = s.glb := by
  have w1 := @State.abandonWrite_still; have wi := @ite_parts
  simp [State.patWrite, w1, wi]
theorem State.trickleWrite_still (s : State) (port v : Nat) :
    (State.trickleWrite s port v).pending = s.pending ∧ (State.trickleWrite s port v).host = s.host ∧
    (State.trickleWrite s port v).epoch = s.epoch ∧ (State.trickleWrite s port v).pat = s.pat ∧
    (State.trickleWrite s port v).routes = s.routes ∧ (State.trickleWrite s port v).dramMargin = s.dramMargin ∧
    (State.trickleWrite s port v).cmd = s.cmd ∧ (State.trickleWrite s port v).zon = s.zon ∧ (State.trickleWrite s port v).med = s.med ∧
    (State.trickleWrite s port v).mlf = s.mlf ∧ (State.trickleWrite s port v).cpx = s.cpx ∧ (State.trickleWrite s port v).wvf = s.wvf ∧
    (State.trickleWrite s port v).bpm = s.bpm ∧ (State.trickleWrite s port v).sli = s.sli ∧ (State.trickleWrite s port v).sec = s.sec ∧
    (State.trickleWrite s port v).mic = s.mic ∧ (State.trickleWrite s port v).flt = s.flt ∧ (State.trickleWrite s port v).ctrs = s.ctrs ∧
    (State.trickleWrite s port v).grps = s.grps ∧ (State.trickleWrite s port v).thm = s.thm ∧ (State.trickleWrite s port v).age = s.age ∧
    (State.trickleWrite s port v).cnv = s.cnv ∧ (State.trickleWrite s port v).fwu = s.fwu ∧ (State.trickleWrite s port v).glb = s.glb ∧
    (State.trickleWrite s port v).sb = s.sb := by
  have w1 := @drawBool_still; have w2 := @State.trickleIn_still; have w3 := @State.trickleLeave_still; have wi := @ite_parts
  simp [State.trickleWrite, w1, w2, w3, wi]
theorem State.hlkWrite_still (s : State) (via r : Nat) (lo hi : Bool) (v : Nat) :
    (State.hlkWrite s via r lo hi v).pending = s.pending ∧ (State.hlkWrite s via r lo hi v).epoch = s.epoch ∧
    (State.hlkWrite s via r lo hi v).pat = s.pat ∧ (State.hlkWrite s via r lo hi v).routes = s.routes ∧
    (State.hlkWrite s via r lo hi v).dramMargin = s.dramMargin ∧ (State.hlkWrite s via r lo hi v).cmd = s.cmd ∧
    (State.hlkWrite s via r lo hi v).zon = s.zon ∧ (State.hlkWrite s via r lo hi v).med = s.med ∧
    (State.hlkWrite s via r lo hi v).mlf = s.mlf ∧ (State.hlkWrite s via r lo hi v).cpx = s.cpx ∧
    (State.hlkWrite s via r lo hi v).wvf = s.wvf ∧ (State.hlkWrite s via r lo hi v).bpm = s.bpm ∧
    (State.hlkWrite s via r lo hi v).sec = s.sec ∧ (State.hlkWrite s via r lo hi v).mic = s.mic ∧
    (State.hlkWrite s via r lo hi v).flt = s.flt ∧ (State.hlkWrite s via r lo hi v).ctrs = s.ctrs ∧
    (State.hlkWrite s via r lo hi v).grps = s.grps ∧ (State.hlkWrite s via r lo hi v).thm = s.thm ∧
    (State.hlkWrite s via r lo hi v).age = s.age ∧ (State.hlkWrite s via r lo hi v).cnv = s.cnv ∧
    (State.hlkWrite s via r lo hi v).fwu = s.fwu ∧ (State.hlkWrite s via r lo hi v).glb = s.glb ∧
    (State.hlkWrite s via r lo hi v).sb = s.sb := by
  have w1 := @State.detachWrite_still; have w2 := @State.beat_still; have w3 := @State.trickleWrite_still
  have w4 := @State.bar2Write_still; have w5 := @State.msgWrite_still; have wi := @ite_parts
  simp [State.hlkWrite, w1, w2, w3, w4, w5, wi]
theorem State.cmdWrite_still (s : State) (r : Nat) (lo : Bool) (v : Nat) :
    (State.cmdWrite s r lo v).pending = s.pending ∧ (State.cmdWrite s r lo v).free = s.free ∧ (State.cmdWrite s r lo v).host = s.host ∧
    (State.cmdWrite s r lo v).epoch = s.epoch ∧ (State.cmdWrite s r lo v).pat = s.pat ∧ (State.cmdWrite s r lo v).isl = s.isl ∧
    (State.cmdWrite s r lo v).routes = s.routes ∧ (State.cmdWrite s r lo v).dramMargin = s.dramMargin ∧
    (State.cmdWrite s r lo v).ports = s.ports ∧ (State.cmdWrite s r lo v).trickle = s.trickle ∧ (State.cmdWrite s r lo v).zon = s.zon ∧
    (State.cmdWrite s r lo v).med = s.med ∧ (State.cmdWrite s r lo v).mlf = s.mlf ∧ (State.cmdWrite s r lo v).cpx = s.cpx ∧
    (State.cmdWrite s r lo v).wvf = s.wvf ∧ (State.cmdWrite s r lo v).bpm = s.bpm ∧ (State.cmdWrite s r lo v).sli = s.sli ∧
    (State.cmdWrite s r lo v).sec = s.sec ∧ (State.cmdWrite s r lo v).mic = s.mic ∧ (State.cmdWrite s r lo v).flt = s.flt ∧
    (State.cmdWrite s r lo v).ctrs = s.ctrs ∧ (State.cmdWrite s r lo v).grps = s.grps ∧ (State.cmdWrite s r lo v).pwr = s.pwr ∧
    (State.cmdWrite s r lo v).thm = s.thm ∧ (State.cmdWrite s r lo v).age = s.age ∧ (State.cmdWrite s r lo v).cnv = s.cnv ∧
    (State.cmdWrite s r lo v).fwu = s.fwu ∧ (State.cmdWrite s r lo v).glb = s.glb ∧ (State.cmdWrite s r lo v).sb = s.sb := by
  have w1 := @State.oqWrite_still; have wi := @ite_parts
  simp [State.cmdWrite, w1, wi]
theorem State.zonWrite_still (s : State) (r : Nat) (lo : Bool) (v : Nat) :
    (State.zonWrite s r lo v).pending = s.pending ∧ (State.zonWrite s r lo v).free = s.free ∧ (State.zonWrite s r lo v).host = s.host ∧
    (State.zonWrite s r lo v).epoch = s.epoch ∧ (State.zonWrite s r lo v).pat = s.pat ∧ (State.zonWrite s r lo v).isl = s.isl ∧
    (State.zonWrite s r lo v).routes = s.routes ∧ (State.zonWrite s r lo v).dramMargin = s.dramMargin ∧
    (State.zonWrite s r lo v).ports = s.ports ∧ (State.zonWrite s r lo v).trickle = s.trickle ∧ (State.zonWrite s r lo v).med = s.med ∧
    (State.zonWrite s r lo v).mlf = s.mlf ∧ (State.zonWrite s r lo v).cpx = s.cpx ∧ (State.zonWrite s r lo v).wvf = s.wvf ∧
    (State.zonWrite s r lo v).bpm = s.bpm ∧ (State.zonWrite s r lo v).sli = s.sli ∧ (State.zonWrite s r lo v).sec = s.sec ∧
    (State.zonWrite s r lo v).mic = s.mic ∧ (State.zonWrite s r lo v).flt = s.flt ∧ (State.zonWrite s r lo v).ctrs = s.ctrs ∧
    (State.zonWrite s r lo v).grps = s.grps ∧ (State.zonWrite s r lo v).pwr = s.pwr ∧ (State.zonWrite s r lo v).thm = s.thm ∧
    (State.zonWrite s r lo v).age = s.age ∧ (State.zonWrite s r lo v).cnv = s.cnv ∧ (State.zonWrite s r lo v).fwu = s.fwu ∧
    (State.zonWrite s r lo v).glb = s.glb ∧ (State.zonWrite s r lo v).sb = s.sb := by
  have w1 := @State.zoneLimits_still; have wi := @ite_parts
  simp [State.zonWrite, w1, wi]
theorem State.bayCtlWrite_still (s : State) (b v : Nat) :
    (State.bayCtlWrite s b v).pending = s.pending ∧ (State.bayCtlWrite s b v).epoch = s.epoch ∧ (State.bayCtlWrite s b v).pat = s.pat ∧
    (State.bayCtlWrite s b v).dramMargin = s.dramMargin ∧ (State.bayCtlWrite s b v).ports = s.ports ∧
    (State.bayCtlWrite s b v).trickle = s.trickle ∧ (State.bayCtlWrite s b v).sec = s.sec ∧ (State.bayCtlWrite s b v).ctrs = s.ctrs ∧
    (State.bayCtlWrite s b v).grps = s.grps ∧ (State.bayCtlWrite s b v).thm = s.thm ∧ (State.bayCtlWrite s b v).age = s.age ∧
    (State.bayCtlWrite s b v).cnv = s.cnv ∧ (State.bayCtlWrite s b v).fwu = s.fwu ∧ (State.bayCtlWrite s b v).glb = s.glb := by
  have w1 := @State.modBay_still; have w2 := @State.bayRemove_still; have w3 := @State.bayNewCmd_still
  have w4 := @State.rebuildCheck_still; have w5 := @State.bayRetry_still; have wi := @ite_parts
  simp [State.bayCtlWrite, w1, w2, w3, w4, w5, wi]
theorem State.medWrite_still (s : State) (r : Nat) (lo : Bool) (v : Nat) :
    (State.medWrite s r lo v).pending = s.pending ∧ (State.medWrite s r lo v).epoch = s.epoch ∧ (State.medWrite s r lo v).pat = s.pat ∧
    (State.medWrite s r lo v).dramMargin = s.dramMargin ∧ (State.medWrite s r lo v).ports = s.ports ∧
    (State.medWrite s r lo v).trickle = s.trickle ∧ (State.medWrite s r lo v).sec = s.sec ∧ (State.medWrite s r lo v).ctrs = s.ctrs ∧
    (State.medWrite s r lo v).grps = s.grps ∧ (State.medWrite s r lo v).thm = s.thm ∧ (State.medWrite s r lo v).age = s.age ∧
    (State.medWrite s r lo v).cnv = s.cnv ∧ (State.medWrite s r lo v).fwu = s.fwu ∧ (State.medWrite s r lo v).glb = s.glb := by
  have w1 := @State.retrainWrite_still; have w2 := @State.schedWrite_still; have w3 := @State.bayCtlWrite_still
  have w4 := @State.modBay_still; have wi := @ite_parts
  simp [State.medWrite, w1, w2, w3, w4, wi]
theorem State.mlfWrite_still (s : State) (r : Nat) (lo : Bool) (v : Nat) :
    (State.mlfWrite s r lo v).pending = s.pending ∧ (State.mlfWrite s r lo v).free = s.free ∧ (State.mlfWrite s r lo v).host = s.host ∧
    (State.mlfWrite s r lo v).epoch = s.epoch ∧ (State.mlfWrite s r lo v).pat = s.pat ∧ (State.mlfWrite s r lo v).isl = s.isl ∧
    (State.mlfWrite s r lo v).routes = s.routes ∧ (State.mlfWrite s r lo v).dramMargin = s.dramMargin ∧
    (State.mlfWrite s r lo v).ports = s.ports ∧ (State.mlfWrite s r lo v).trickle = s.trickle ∧ (State.mlfWrite s r lo v).cmd = s.cmd ∧
    (State.mlfWrite s r lo v).zon = s.zon ∧ (State.mlfWrite s r lo v).med = s.med ∧ (State.mlfWrite s r lo v).cpx = s.cpx ∧
    (State.mlfWrite s r lo v).wvf = s.wvf ∧ (State.mlfWrite s r lo v).bpm = s.bpm ∧ (State.mlfWrite s r lo v).sli = s.sli ∧
    (State.mlfWrite s r lo v).sec = s.sec ∧ (State.mlfWrite s r lo v).mic = s.mic ∧ (State.mlfWrite s r lo v).flt = s.flt ∧
    (State.mlfWrite s r lo v).ctrs = s.ctrs ∧ (State.mlfWrite s r lo v).grps = s.grps ∧ (State.mlfWrite s r lo v).pwr = s.pwr ∧
    (State.mlfWrite s r lo v).thm = s.thm ∧ (State.mlfWrite s r lo v).age = s.age ∧ (State.mlfWrite s r lo v).cnv = s.cnv ∧
    (State.mlfWrite s r lo v).fwu = s.fwu ∧ (State.mlfWrite s r lo v).glb = s.glb ∧ (State.mlfWrite s r lo v).sb = s.sb := by
  have w1 := @State.wearConfig_still; have w2 := @State.spareConfig_still; have wi := @ite_parts
  simp [State.mlfWrite, w1, w2, wi]
theorem State.cpxWrite_still (s : State) (r : Nat) (lo : Bool) (v : Nat) :
    (State.cpxWrite s r lo v).pending = s.pending ∧ (State.cpxWrite s r lo v).free = s.free ∧ (State.cpxWrite s r lo v).host = s.host ∧
    (State.cpxWrite s r lo v).epoch = s.epoch ∧ (State.cpxWrite s r lo v).pat = s.pat ∧ (State.cpxWrite s r lo v).isl = s.isl ∧
    (State.cpxWrite s r lo v).routes = s.routes ∧ (State.cpxWrite s r lo v).dramMargin = s.dramMargin ∧
    (State.cpxWrite s r lo v).ports = s.ports ∧ (State.cpxWrite s r lo v).trickle = s.trickle ∧ (State.cpxWrite s r lo v).cmd = s.cmd ∧
    (State.cpxWrite s r lo v).zon = s.zon ∧ (State.cpxWrite s r lo v).med = s.med ∧ (State.cpxWrite s r lo v).mlf = s.mlf ∧
    (State.cpxWrite s r lo v).wvf = s.wvf ∧ (State.cpxWrite s r lo v).bpm = s.bpm ∧ (State.cpxWrite s r lo v).sli = s.sli ∧
    (State.cpxWrite s r lo v).sec = s.sec ∧ (State.cpxWrite s r lo v).mic = s.mic ∧ (State.cpxWrite s r lo v).flt = s.flt ∧
    (State.cpxWrite s r lo v).ctrs = s.ctrs ∧ (State.cpxWrite s r lo v).grps = s.grps ∧ (State.cpxWrite s r lo v).pwr = s.pwr ∧
    (State.cpxWrite s r lo v).thm = s.thm ∧ (State.cpxWrite s r lo v).age = s.age ∧ (State.cpxWrite s r lo v).cnv = s.cnv ∧
    (State.cpxWrite s r lo v).fwu = s.fwu ∧ (State.cpxWrite s r lo v).glb = s.glb ∧ (State.cpxWrite s r lo v).sb = s.sb := by
  have w1 := @State.lanesWrite_still; have w2 := @State.memLimWrite_still; have wi := @ite_parts
  simp [State.cpxWrite, w1, w2, wi]
theorem State.upcWrite_still (s : State) (r : Nat) (lo : Bool) (v : Nat) :
    (State.upcWrite s r lo v).pending = s.pending ∧ (State.upcWrite s r lo v).free = s.free ∧ (State.upcWrite s r lo v).host = s.host ∧
    (State.upcWrite s r lo v).epoch = s.epoch ∧ (State.upcWrite s r lo v).pat = s.pat ∧ (State.upcWrite s r lo v).isl = s.isl ∧
    (State.upcWrite s r lo v).routes = s.routes ∧ (State.upcWrite s r lo v).dramMargin = s.dramMargin ∧
    (State.upcWrite s r lo v).ports = s.ports ∧ (State.upcWrite s r lo v).trickle = s.trickle ∧ (State.upcWrite s r lo v).cmd = s.cmd ∧
    (State.upcWrite s r lo v).zon = s.zon ∧ (State.upcWrite s r lo v).med = s.med ∧ (State.upcWrite s r lo v).mlf = s.mlf ∧
    (State.upcWrite s r lo v).wvf = s.wvf ∧ (State.upcWrite s r lo v).bpm = s.bpm ∧ (State.upcWrite s r lo v).sli = s.sli ∧
    (State.upcWrite s r lo v).sec = s.sec ∧ (State.upcWrite s r lo v).mic = s.mic ∧ (State.upcWrite s r lo v).flt = s.flt ∧
    (State.upcWrite s r lo v).ctrs = s.ctrs ∧ (State.upcWrite s r lo v).grps = s.grps ∧ (State.upcWrite s r lo v).pwr = s.pwr ∧
    (State.upcWrite s r lo v).thm = s.thm ∧ (State.upcWrite s r lo v).age = s.age ∧ (State.upcWrite s r lo v).cnv = s.cnv ∧
    (State.upcWrite s r lo v).fwu = s.fwu ∧ (State.upcWrite s r lo v).glb = s.glb ∧ (State.upcWrite s r lo v).sb = s.sb := by
  have w1 := @State.grantWrite_still; have wi := @ite_parts
  simp [State.upcWrite, w1, wi]
theorem State.sliWrite_still (s : State) (r : Nat) (lo : Bool) (v : Nat) :
    (State.sliWrite s r lo v).pending = s.pending ∧ (State.sliWrite s r lo v).free = s.free ∧ (State.sliWrite s r lo v).host = s.host ∧
    (State.sliWrite s r lo v).epoch = s.epoch ∧ (State.sliWrite s r lo v).pat = s.pat ∧ (State.sliWrite s r lo v).isl = s.isl ∧
    (State.sliWrite s r lo v).routes = s.routes ∧ (State.sliWrite s r lo v).dramMargin = s.dramMargin ∧
    (State.sliWrite s r lo v).ports = s.ports ∧ (State.sliWrite s r lo v).trickle = s.trickle ∧ (State.sliWrite s r lo v).cmd = s.cmd ∧
    (State.sliWrite s r lo v).zon = s.zon ∧ (State.sliWrite s r lo v).med = s.med ∧ (State.sliWrite s r lo v).mlf = s.mlf ∧
    (State.sliWrite s r lo v).cpx = s.cpx ∧ (State.sliWrite s r lo v).wvf = s.wvf ∧ (State.sliWrite s r lo v).bpm = s.bpm ∧
    (State.sliWrite s r lo v).sli = s.sli ∧ (State.sliWrite s r lo v).mic = s.mic ∧ (State.sliWrite s r lo v).flt = s.flt ∧
    (State.sliWrite s r lo v).ctrs = s.ctrs ∧ (State.sliWrite s r lo v).grps = s.grps ∧ (State.sliWrite s r lo v).pwr = s.pwr ∧
    (State.sliWrite s r lo v).thm = s.thm ∧ (State.sliWrite s r lo v).age = s.age ∧ (State.sliWrite s r lo v).cnv = s.cnv ∧
    (State.sliWrite s r lo v).fwu = s.fwu ∧ (State.sliWrite s r lo v).glb = s.glb ∧ (State.sliWrite s r lo v).sb = s.sb := by
  have w1 := @State.mgrPasidWrite_still; have wi := @ite_parts
  simp [State.sliWrite, w1, wi]
theorem State.micWrite_still (s : State) (r : Nat) (lo hi : Bool) (v : Nat) :
    (State.micWrite s r lo hi v).pending = s.pending ∧ (State.micWrite s r lo hi v).free = s.free ∧
    (State.micWrite s r lo hi v).host = s.host ∧ (State.micWrite s r lo hi v).epoch = s.epoch ∧ (State.micWrite s r lo hi v).pat = s.pat ∧
    (State.micWrite s r lo hi v).isl = s.isl ∧ (State.micWrite s r lo hi v).routes = s.routes ∧
    (State.micWrite s r lo hi v).dramMargin = s.dramMargin ∧ (State.micWrite s r lo hi v).ports = s.ports ∧
    (State.micWrite s r lo hi v).trickle = s.trickle ∧ (State.micWrite s r lo hi v).cmd = s.cmd ∧
    (State.micWrite s r lo hi v).zon = s.zon ∧ (State.micWrite s r lo hi v).med = s.med ∧ (State.micWrite s r lo hi v).mlf = s.mlf ∧
    (State.micWrite s r lo hi v).cpx = s.cpx ∧ (State.micWrite s r lo hi v).wvf = s.wvf ∧ (State.micWrite s r lo hi v).bpm = s.bpm ∧
    (State.micWrite s r lo hi v).sli = s.sli ∧ (State.micWrite s r lo hi v).sec = s.sec ∧ (State.micWrite s r lo hi v).flt = s.flt ∧
    (State.micWrite s r lo hi v).ctrs = s.ctrs ∧ (State.micWrite s r lo hi v).grps = s.grps ∧ (State.micWrite s r lo hi v).pwr = s.pwr ∧
    (State.micWrite s r lo hi v).thm = s.thm ∧ (State.micWrite s r lo hi v).age = s.age ∧ (State.micWrite s r lo hi v).cnv = s.cnv ∧
    (State.micWrite s r lo hi v).fwu = s.fwu ∧ (State.micWrite s r lo hi v).glb = s.glb ∧ (State.micWrite s r lo hi v).sb = s.sb := by
  have w1 := @State.flipWrite_still; have wi := @ite_parts
  simp [State.micWrite, w1, wi]
theorem State.fltWrite_still (s : State) (r : Nat) (lo : Bool) (v : Nat) :
    (State.fltWrite s r lo v).pending = s.pending ∧ (State.fltWrite s r lo v).epoch = s.epoch ∧ (State.fltWrite s r lo v).pat = s.pat ∧
    (State.fltWrite s r lo v).dramMargin = s.dramMargin ∧ (State.fltWrite s r lo v).trickle = s.trickle ∧
    (State.fltWrite s r lo v).sec = s.sec ∧ (State.fltWrite s r lo v).ctrs = s.ctrs ∧ (State.fltWrite s r lo v).grps = s.grps ∧
    (State.fltWrite s r lo v).thm = s.thm ∧ (State.fltWrite s r lo v).age = s.age ∧ (State.fltWrite s r lo v).cnv = s.cnv ∧
    (State.fltWrite s r lo v).glb = s.glb := by
  have w1 := @State.ackFaults_still; have w2 := @State.safeRelease_still; have w3 := @State.releaseUnit_still
  have wi := @ite_parts
  simp [State.fltWrite, w1, w2, w3, wi]
theorem State.selWrite_still (s : State) (k : Nat) (lo hi : Bool) (v : Nat) :
    (State.selWrite s k lo hi v).pending = s.pending ∧ (State.selWrite s k lo hi v).free = s.free ∧
    (State.selWrite s k lo hi v).host = s.host ∧ (State.selWrite s k lo hi v).epoch = s.epoch ∧ (State.selWrite s k lo hi v).pat = s.pat ∧
    (State.selWrite s k lo hi v).isl = s.isl ∧ (State.selWrite s k lo hi v).routes = s.routes ∧
    (State.selWrite s k lo hi v).dramMargin = s.dramMargin ∧ (State.selWrite s k lo hi v).ports = s.ports ∧
    (State.selWrite s k lo hi v).trickle = s.trickle ∧ (State.selWrite s k lo hi v).cmd = s.cmd ∧
    (State.selWrite s k lo hi v).zon = s.zon ∧ (State.selWrite s k lo hi v).med = s.med ∧ (State.selWrite s k lo hi v).mlf = s.mlf ∧
    (State.selWrite s k lo hi v).cpx = s.cpx ∧ (State.selWrite s k lo hi v).wvf = s.wvf ∧ (State.selWrite s k lo hi v).bpm = s.bpm ∧
    (State.selWrite s k lo hi v).sli = s.sli ∧ (State.selWrite s k lo hi v).sec = s.sec ∧ (State.selWrite s k lo hi v).mic = s.mic ∧
    (State.selWrite s k lo hi v).flt = s.flt ∧ (State.selWrite s k lo hi v).grps = s.grps ∧ (State.selWrite s k lo hi v).pwr = s.pwr ∧
    (State.selWrite s k lo hi v).thm = s.thm ∧ (State.selWrite s k lo hi v).age = s.age ∧ (State.selWrite s k lo hi v).cnv = s.cnv ∧
    (State.selWrite s k lo hi v).fwu = s.fwu ∧ (State.selWrite s k lo hi v).glb = s.glb ∧ (State.selWrite s k lo hi v).sb = s.sb := by
  have w1 := @State.setCtr_still; have wi := @ite_parts
  simp [State.selWrite, w1, wi]
theorem State.evcWrite_still (s : State) (r : Nat) (lo hi : Bool) (v : Nat) :
    (State.evcWrite s r lo hi v).pending = s.pending ∧ (State.evcWrite s r lo hi v).free = s.free ∧
    (State.evcWrite s r lo hi v).host = s.host ∧ (State.evcWrite s r lo hi v).epoch = s.epoch ∧ (State.evcWrite s r lo hi v).pat = s.pat ∧
    (State.evcWrite s r lo hi v).isl = s.isl ∧ (State.evcWrite s r lo hi v).routes = s.routes ∧
    (State.evcWrite s r lo hi v).dramMargin = s.dramMargin ∧ (State.evcWrite s r lo hi v).ports = s.ports ∧
    (State.evcWrite s r lo hi v).trickle = s.trickle ∧ (State.evcWrite s r lo hi v).cmd = s.cmd ∧
    (State.evcWrite s r lo hi v).zon = s.zon ∧ (State.evcWrite s r lo hi v).med = s.med ∧ (State.evcWrite s r lo hi v).mlf = s.mlf ∧
    (State.evcWrite s r lo hi v).cpx = s.cpx ∧ (State.evcWrite s r lo hi v).wvf = s.wvf ∧ (State.evcWrite s r lo hi v).bpm = s.bpm ∧
    (State.evcWrite s r lo hi v).sli = s.sli ∧ (State.evcWrite s r lo hi v).sec = s.sec ∧ (State.evcWrite s r lo hi v).mic = s.mic ∧
    (State.evcWrite s r lo hi v).flt = s.flt ∧ (State.evcWrite s r lo hi v).pwr = s.pwr ∧ (State.evcWrite s r lo hi v).thm = s.thm ∧
    (State.evcWrite s r lo hi v).age = s.age ∧ (State.evcWrite s r lo hi v).cnv = s.cnv ∧ (State.evcWrite s r lo hi v).fwu = s.fwu ∧
    (State.evcWrite s r lo hi v).glb = s.glb ∧ (State.evcWrite s r lo hi v).sb = s.sb := by
  have w1 := @State.selWrite_still; have w2 := @State.setCtr_still; have w3 := @State.setGrp_still
  have w4 := @State.snapGroup_still; have w5 := @State.freezeGroup_still; have wi := @ite_parts
  simp [State.evcWrite, w1, w2, w3, w4, w5, wi]
theorem State.evtWrite_still (s : State) (v : Nat) :
    (State.evtWrite s v).pending = s.pending ∧ (State.evtWrite s v).free = s.free ∧ (State.evtWrite s v).host = s.host ∧
    (State.evtWrite s v).epoch = s.epoch ∧ (State.evtWrite s v).pat = s.pat ∧ (State.evtWrite s v).isl = s.isl ∧
    (State.evtWrite s v).routes = s.routes ∧ (State.evtWrite s v).dramMargin = s.dramMargin ∧ (State.evtWrite s v).ports = s.ports ∧
    (State.evtWrite s v).trickle = s.trickle ∧ (State.evtWrite s v).cmd = s.cmd ∧ (State.evtWrite s v).zon = s.zon ∧
    (State.evtWrite s v).med = s.med ∧ (State.evtWrite s v).mlf = s.mlf ∧ (State.evtWrite s v).cpx = s.cpx ∧
    (State.evtWrite s v).wvf = s.wvf ∧ (State.evtWrite s v).bpm = s.bpm ∧ (State.evtWrite s v).sli = s.sli ∧
    (State.evtWrite s v).sec = s.sec ∧ (State.evtWrite s v).mic = s.mic ∧ (State.evtWrite s v).flt = s.flt ∧
    (State.evtWrite s v).ctrs = s.ctrs ∧ (State.evtWrite s v).grps = s.grps ∧ (State.evtWrite s v).thm = s.thm ∧
    (State.evtWrite s v).age = s.age ∧ (State.evtWrite s v).cnv = s.cnv ∧ (State.evtWrite s v).fwu = s.fwu ∧
    (State.evtWrite s v).glb = s.glb ∧ (State.evtWrite s v).sb = s.sb := by
  simp [State.evtWrite]
theorem State.autoWrite_still (s : State) (isl : Nat) (a : Bool) :
    (State.autoWrite s isl a).pending = s.pending ∧ (State.autoWrite s isl a).free = s.free ∧ (State.autoWrite s isl a).host = s.host ∧
    (State.autoWrite s isl a).epoch = s.epoch ∧ (State.autoWrite s isl a).pat = s.pat ∧ (State.autoWrite s isl a).routes = s.routes ∧
    (State.autoWrite s isl a).dramMargin = s.dramMargin ∧ (State.autoWrite s isl a).ports = s.ports ∧
    (State.autoWrite s isl a).trickle = s.trickle ∧ (State.autoWrite s isl a).cmd = s.cmd ∧ (State.autoWrite s isl a).zon = s.zon ∧
    (State.autoWrite s isl a).mlf = s.mlf ∧ (State.autoWrite s isl a).cpx = s.cpx ∧ (State.autoWrite s isl a).wvf = s.wvf ∧
    (State.autoWrite s isl a).bpm = s.bpm ∧ (State.autoWrite s isl a).sec = s.sec ∧ (State.autoWrite s isl a).mic = s.mic ∧
    (State.autoWrite s isl a).flt = s.flt ∧ (State.autoWrite s isl a).ctrs = s.ctrs ∧ (State.autoWrite s isl a).grps = s.grps ∧
    (State.autoWrite s isl a).pwr = s.pwr ∧ (State.autoWrite s isl a).thm = s.thm ∧ (State.autoWrite s isl a).age = s.age ∧
    (State.autoWrite s isl a).cnv = s.cnv ∧ (State.autoWrite s isl a).fwu = s.fwu ∧ (State.autoWrite s isl a).glb = s.glb ∧
    (State.autoWrite s isl a).sb = s.sb := by
  have w1 := @State.modIsl_still; have w2 := @State.kickMcl_still; have wi := @ite_parts
  simp [State.autoWrite, w1, w2, wi]
theorem State.pwrWrite_still (s : State) (r : Nat) (lo : Bool) (v : Nat) :
    (State.pwrWrite s r lo v).pending = s.pending ∧ (State.pwrWrite s r lo v).free = s.free ∧ (State.pwrWrite s r lo v).host = s.host ∧
    (State.pwrWrite s r lo v).epoch = s.epoch ∧ (State.pwrWrite s r lo v).pat = s.pat ∧ (State.pwrWrite s r lo v).routes = s.routes ∧
    (State.pwrWrite s r lo v).dramMargin = s.dramMargin ∧ (State.pwrWrite s r lo v).ports = s.ports ∧
    (State.pwrWrite s r lo v).trickle = s.trickle ∧ (State.pwrWrite s r lo v).cmd = s.cmd ∧ (State.pwrWrite s r lo v).zon = s.zon ∧
    (State.pwrWrite s r lo v).mlf = s.mlf ∧ (State.pwrWrite s r lo v).cpx = s.cpx ∧ (State.pwrWrite s r lo v).wvf = s.wvf ∧
    (State.pwrWrite s r lo v).bpm = s.bpm ∧ (State.pwrWrite s r lo v).sec = s.sec ∧ (State.pwrWrite s r lo v).mic = s.mic ∧
    (State.pwrWrite s r lo v).flt = s.flt ∧ (State.pwrWrite s r lo v).ctrs = s.ctrs ∧ (State.pwrWrite s r lo v).grps = s.grps ∧
    (State.pwrWrite s r lo v).thm = s.thm ∧ (State.pwrWrite s r lo v).age = s.age ∧ (State.pwrWrite s r lo v).cnv = s.cnv ∧
    (State.pwrWrite s r lo v).fwu = s.fwu ∧ (State.pwrWrite s r lo v).glb = s.glb ∧ (State.pwrWrite s r lo v).sb = s.sb := by
  have w1 := @State.keeperRequest_still; have w2 := @State.evtWrite_still; have w3 := @State.floorWrite_still
  have w4 := @State.autoWrite_still; have w5 := @State.padRelease_still; have wi := @ite_parts
  simp [State.pwrWrite, w1, w2, w3, w4, w5, wi]
theorem State.thmWrite_still (s : State) (r : Nat) (lo : Bool) (v : Nat) :
    (State.thmWrite s r lo v).pending = s.pending ∧ (State.thmWrite s r lo v).free = s.free ∧ (State.thmWrite s r lo v).host = s.host ∧
    (State.thmWrite s r lo v).epoch = s.epoch ∧ (State.thmWrite s r lo v).pat = s.pat ∧ (State.thmWrite s r lo v).isl = s.isl ∧
    (State.thmWrite s r lo v).routes = s.routes ∧ (State.thmWrite s r lo v).dramMargin = s.dramMargin ∧
    (State.thmWrite s r lo v).ports = s.ports ∧ (State.thmWrite s r lo v).trickle = s.trickle ∧ (State.thmWrite s r lo v).cmd = s.cmd ∧
    (State.thmWrite s r lo v).zon = s.zon ∧ (State.thmWrite s r lo v).med = s.med ∧ (State.thmWrite s r lo v).mlf = s.mlf ∧
    (State.thmWrite s r lo v).cpx = s.cpx ∧ (State.thmWrite s r lo v).wvf = s.wvf ∧ (State.thmWrite s r lo v).bpm = s.bpm ∧
    (State.thmWrite s r lo v).sli = s.sli ∧ (State.thmWrite s r lo v).sec = s.sec ∧ (State.thmWrite s r lo v).mic = s.mic ∧
    (State.thmWrite s r lo v).flt = s.flt ∧ (State.thmWrite s r lo v).ctrs = s.ctrs ∧ (State.thmWrite s r lo v).grps = s.grps ∧
    (State.thmWrite s r lo v).pwr = s.pwr ∧ (State.thmWrite s r lo v).age = s.age ∧ (State.thmWrite s r lo v).cnv = s.cnv ∧
    (State.thmWrite s r lo v).fwu = s.fwu ∧ (State.thmWrite s r lo v).glb = s.glb ∧ (State.thmWrite s r lo v).sb = s.sb := by
  have w1 := @State.retestWrite_still; have wi := @ite_parts
  simp [State.thmWrite, w1, wi]
theorem State.fwuWrite_still (s : State) (r : Nat) (lo : Bool) (v : Nat) :
    (State.fwuWrite s r lo v).pending = s.pending ∧ (State.fwuWrite s r lo v).free = s.free ∧ (State.fwuWrite s r lo v).host = s.host ∧
    (State.fwuWrite s r lo v).epoch = s.epoch ∧ (State.fwuWrite s r lo v).pat = s.pat ∧ (State.fwuWrite s r lo v).isl = s.isl ∧
    (State.fwuWrite s r lo v).routes = s.routes ∧ (State.fwuWrite s r lo v).dramMargin = s.dramMargin ∧
    (State.fwuWrite s r lo v).ports = s.ports ∧ (State.fwuWrite s r lo v).trickle = s.trickle ∧ (State.fwuWrite s r lo v).cmd = s.cmd ∧
    (State.fwuWrite s r lo v).zon = s.zon ∧ (State.fwuWrite s r lo v).med = s.med ∧ (State.fwuWrite s r lo v).mlf = s.mlf ∧
    (State.fwuWrite s r lo v).cpx = s.cpx ∧ (State.fwuWrite s r lo v).wvf = s.wvf ∧ (State.fwuWrite s r lo v).bpm = s.bpm ∧
    (State.fwuWrite s r lo v).sli = s.sli ∧ (State.fwuWrite s r lo v).sec = s.sec ∧ (State.fwuWrite s r lo v).mic = s.mic ∧
    (State.fwuWrite s r lo v).flt = s.flt ∧ (State.fwuWrite s r lo v).ctrs = s.ctrs ∧ (State.fwuWrite s r lo v).grps = s.grps ∧
    (State.fwuWrite s r lo v).pwr = s.pwr ∧ (State.fwuWrite s r lo v).thm = s.thm ∧ (State.fwuWrite s r lo v).age = s.age ∧
    (State.fwuWrite s r lo v).cnv = s.cnv ∧ (State.fwuWrite s r lo v).glb = s.glb ∧ (State.fwuWrite s r lo v).sb = s.sb := by
  have w1 := @State.fwuAbort_still; have wi := @ite_parts
  simp [State.fwuWrite, w1, wi]
theorem State.cryWrite_still (s : State) (r : Nat) (lo : Bool) (v : Nat) :
    (State.cryWrite s r lo v).pending = s.pending ∧ (State.cryWrite s r lo v).free = s.free ∧ (State.cryWrite s r lo v).host = s.host ∧
    (State.cryWrite s r lo v).epoch = s.epoch ∧ (State.cryWrite s r lo v).pat = s.pat ∧ (State.cryWrite s r lo v).isl = s.isl ∧
    (State.cryWrite s r lo v).routes = s.routes ∧ (State.cryWrite s r lo v).dramMargin = s.dramMargin ∧
    (State.cryWrite s r lo v).ports = s.ports ∧ (State.cryWrite s r lo v).trickle = s.trickle ∧ (State.cryWrite s r lo v).cmd = s.cmd ∧
    (State.cryWrite s r lo v).zon = s.zon ∧ (State.cryWrite s r lo v).med = s.med ∧ (State.cryWrite s r lo v).mlf = s.mlf ∧
    (State.cryWrite s r lo v).cpx = s.cpx ∧ (State.cryWrite s r lo v).wvf = s.wvf ∧ (State.cryWrite s r lo v).bpm = s.bpm ∧
    (State.cryWrite s r lo v).sli = s.sli ∧ (State.cryWrite s r lo v).mic = s.mic ∧ (State.cryWrite s r lo v).flt = s.flt ∧
    (State.cryWrite s r lo v).ctrs = s.ctrs ∧ (State.cryWrite s r lo v).grps = s.grps ∧ (State.cryWrite s r lo v).pwr = s.pwr ∧
    (State.cryWrite s r lo v).thm = s.thm ∧ (State.cryWrite s r lo v).age = s.age ∧ (State.cryWrite s r lo v).cnv = s.cnv ∧
    (State.cryWrite s r lo v).fwu = s.fwu ∧ (State.cryWrite s r lo v).glb = s.glb ∧ (State.cryWrite s r lo v).sb = s.sb := by
  have w1 := @State.sharedKeyWrite_still; have wi := @ite_parts
  simp [State.cryWrite, w1, wi]
theorem State.dmsWrite_still (s0 : State) (via r : Nat) (lo hi : Bool) (v : Nat) :
    (State.dmsWrite s0 via r lo hi v).pending = s0.pending ∧ (State.dmsWrite s0 via r lo hi v).epoch = s0.epoch ∧
    (State.dmsWrite s0 via r lo hi v).dramMargin = s0.dramMargin ∧ (State.dmsWrite s0 via r lo hi v).age = s0.age ∧
    (State.dmsWrite s0 via r lo hi v).cnv = s0.cnv := by
  have w1 := @State.access_still; have w2 := @State.cmdWrite_still; have w3 := @State.cpxWrite_still
  have w4 := @State.cryWrite_still; have w5 := @State.evcWrite_still; have w6 := @State.fltWrite_still
  have w7 := @State.fwuWrite_still; have w8 := @State.glbWrite_still; have w9 := @State.hlkWrite_still
  have w10 := @State.medWrite_still; have w11 := @State.micWrite_still; have w12 := @State.mlfWrite_still
  have w13 := @State.patWrite_still; have w14 := @State.pwrWrite_still; have w15 := @State.sliWrite_still
  have w16 := @State.thmWrite_still; have w17 := @State.upcWrite_still; have w18 := @State.zonWrite_still
  unfold State.dmsWrite; repeat' split
  all_goals simp [*]
theorem State.seqByte_still (s : State) (port b off v : Nat) :
    (State.seqByte s port b off v).pending = s.pending ∧ (State.seqByte s port b off v).host = s.host ∧
    (State.seqByte s port b off v).epoch = s.epoch ∧ (State.seqByte s port b off v).pat = s.pat ∧
    (State.seqByte s port b off v).isl = s.isl ∧ (State.seqByte s port b off v).routes = s.routes ∧
    (State.seqByte s port b off v).dramMargin = s.dramMargin ∧ (State.seqByte s port b off v).ports = s.ports ∧
    (State.seqByte s port b off v).trickle = s.trickle ∧ (State.seqByte s port b off v).cmd = s.cmd ∧
    (State.seqByte s port b off v).zon = s.zon ∧ (State.seqByte s port b off v).med = s.med ∧ (State.seqByte s port b off v).mlf = s.mlf ∧
    (State.seqByte s port b off v).cpx = s.cpx ∧ (State.seqByte s port b off v).wvf = s.wvf ∧ (State.seqByte s port b off v).bpm = s.bpm ∧
    (State.seqByte s port b off v).sli = s.sli ∧ (State.seqByte s port b off v).sec = s.sec ∧ (State.seqByte s port b off v).mic = s.mic ∧
    (State.seqByte s port b off v).ctrs = s.ctrs ∧ (State.seqByte s port b off v).grps = s.grps ∧
    (State.seqByte s port b off v).pwr = s.pwr ∧ (State.seqByte s port b off v).thm = s.thm ∧ (State.seqByte s port b off v).age = s.age ∧
    (State.seqByte s port b off v).fwu = s.fwu ∧ (State.seqByte s port b off v).glb = s.glb ∧ (State.seqByte s port b off v).sb = s.sb := by
  have w1 := @State.setBank_still; have w2 := @State.identifyView_still; have w3 := @State.resetBank_still
  have w4 := @State.refuseSeq_still; have wi := @ite_parts
  simp [State.seqByte, w1, w2, w3, w4, wi]
theorem State.mmioWrite_still (s : State) (port addr width v : Nat) :
    (State.mmioWrite s port addr width v).pending = s.pending ∧ (State.mmioWrite s port addr width v).epoch = s.epoch ∧
    (State.mmioWrite s port addr width v).dramMargin = s.dramMargin ∧ (State.mmioWrite s port addr width v).age = s.age := by
  have w1 := @State.mbInWrite_still; have w2 := @State.badAccess_still; have w3 := @State.pageWord_still
  have w4 := @State.dmsWrite_still; have w5 := @State.seqByte_still; have wi := @ite_parts
  simp [State.mmioWrite, w1, w2, w3, w4, w5, wi]
theorem State.readWake_still (s : State) (a : Nat) :
    (State.readWake s a).pending = s.pending ∧ (State.readWake s a).free = s.free ∧ (State.readWake s a).host = s.host ∧
    (State.readWake s a).epoch = s.epoch ∧ (State.readWake s a).pat = s.pat ∧ (State.readWake s a).routes = s.routes ∧
    (State.readWake s a).dramMargin = s.dramMargin ∧ (State.readWake s a).ports = s.ports ∧ (State.readWake s a).trickle = s.trickle ∧
    (State.readWake s a).cmd = s.cmd ∧ (State.readWake s a).zon = s.zon ∧ (State.readWake s a).med = s.med ∧
    (State.readWake s a).mlf = s.mlf ∧ (State.readWake s a).cpx = s.cpx ∧ (State.readWake s a).wvf = s.wvf ∧
    (State.readWake s a).bpm = s.bpm ∧ (State.readWake s a).sli = s.sli ∧ (State.readWake s a).sec = s.sec ∧
    (State.readWake s a).mic = s.mic ∧ (State.readWake s a).flt = s.flt ∧ (State.readWake s a).ctrs = s.ctrs ∧
    (State.readWake s a).grps = s.grps ∧ (State.readWake s a).thm = s.thm ∧ (State.readWake s a).age = s.age ∧
    (State.readWake s a).cnv = s.cnv ∧ (State.readWake s a).fwu = s.fwu ∧ (State.readWake s a).glb = s.glb ∧ (State.readWake s a).sb = s.sb := by
  have w1 := @State.access_still; have wi := @ite_parts
  simp [State.readWake, w1, wi]
theorem State.mmioRead_still (s : State) (port a n : Nat) :
    (State.mmioRead s port a n).2.pending = s.pending ∧ (State.mmioRead s port a n).2.free = s.free ∧
    (State.mmioRead s port a n).2.host = s.host ∧ (State.mmioRead s port a n).2.epoch = s.epoch ∧
    (State.mmioRead s port a n).2.pat = s.pat ∧ (State.mmioRead s port a n).2.routes = s.routes ∧
    (State.mmioRead s port a n).2.dramMargin = s.dramMargin ∧ (State.mmioRead s port a n).2.ports = s.ports ∧
    (State.mmioRead s port a n).2.trickle = s.trickle ∧ (State.mmioRead s port a n).2.cmd = s.cmd ∧
    (State.mmioRead s port a n).2.zon = s.zon ∧ (State.mmioRead s port a n).2.med = s.med ∧ (State.mmioRead s port a n).2.mlf = s.mlf ∧
    (State.mmioRead s port a n).2.cpx = s.cpx ∧ (State.mmioRead s port a n).2.wvf = s.wvf ∧ (State.mmioRead s port a n).2.bpm = s.bpm ∧
    (State.mmioRead s port a n).2.sli = s.sli ∧ (State.mmioRead s port a n).2.sec = s.sec ∧ (State.mmioRead s port a n).2.mic = s.mic ∧
    (State.mmioRead s port a n).2.flt = s.flt ∧ (State.mmioRead s port a n).2.ctrs = s.ctrs ∧ (State.mmioRead s port a n).2.grps = s.grps ∧
    (State.mmioRead s port a n).2.thm = s.thm ∧ (State.mmioRead s port a n).2.age = s.age ∧ (State.mmioRead s port a n).2.cnv = s.cnv ∧
    (State.mmioRead s port a n).2.fwu = s.fwu ∧ (State.mmioRead s port a n).2.glb = s.glb ∧ (State.mmioRead s port a n).2.sb = s.sb := by
  have w1 := @State.readWake_still
  simp [State.mmioRead, w1]

end Sys2Proof.Machine
end

