-- ==== Sys2Proof/Laws/CodeArray.lean ====
section
/-! SUPPORT. The code array's memory: its canonical form, what a byte reads as after a write, and that every operation keeps the form. -/

namespace Sys2Proof.Machine

/-! One list of cells. -/

theorem Memory.wfFrom_mono {lo lo' : Nat} (h : lo' ≤ lo) : ∀ {m : List Host.Cell}, Memory.wfFrom lo m = true → Memory.wfFrom lo' m = true
  | [], _ => rfl
  | (a, b) :: t, hm => by
    simp only [Memory.wfFrom, Bool.and_eq_true, decide_eq_true_eq] at hm ⊢
    exact ⟨⟨Nat.le_trans h hm.1.1, hm.1.2⟩, hm.2⟩

theorem cellSet_wfFrom (v : Byte) : ∀ (m : List Host.Cell) {lo k : Nat}, Memory.wfFrom lo m = true → lo ≤ k → Memory.wfFrom lo (cellSet m k v) = true
  | [], lo, k, _, hk => by
    unfold cellSet; split
    · rfl
    · simp_all [Memory.wfFrom]
  | (a, b) :: t, lo, k, hm, hk => by
    simp only [Memory.wfFrom, Bool.and_eq_true, decide_eq_true_eq] at hm
    obtain ⟨⟨ha, hb⟩, ht⟩ := hm
    unfold cellSet
    by_cases h1 : a < k
    · rw [if_pos h1]; simp [Memory.wfFrom, ha, hb, cellSet_wfFrom v t ht h1]
    · rw [if_neg h1]
      by_cases h2 : a = k
      · subst h2; rw [if_pos rfl]
        by_cases hv : v = erasedByte
        · rw [if_pos hv]; exact Memory.wfFrom_mono (by omega) ht
        · rw [if_neg hv]; simp [Memory.wfFrom, hk, hv, ht]
      · rw [if_neg h2]
        by_cases hv : v = erasedByte
        · rw [if_pos hv]; simp [Memory.wfFrom, ha, hb, ht]
        · rw [if_neg hv]
          have : k + 1 ≤ a := by omega
          simp [Memory.wfFrom, hk, hv, this, hb, ht]

/-- A write keeps the canonical form. -/
theorem cellSet_wf {m : List Host.Cell} (k : Nat) (v : Byte) (h : Memory.wf m = true) : Memory.wf (cellSet m k v) = true :=
  cellSet_wfFrom v m h (Nat.zero_le k)

theorem cellGet_below : ∀ {m : List Host.Cell} {lo k : Nat}, Memory.wfFrom lo m = true → k < lo → cellGet m k = erasedByte
  | [], _, _, _, _ => rfl
  | (a, b) :: t, lo, k, hm, hk => by
    simp only [Memory.wfFrom, Bool.and_eq_true, decide_eq_true_eq] at hm
    obtain ⟨⟨ha, _⟩, ht⟩ := hm
    unfold cellGet
    rw [if_neg (by omega)]
    exact cellGet_below ht (by omega)

theorem cellGet_cellSet_from (v : Byte) : ∀ (m : List Host.Cell) {lo : Nat} (k j : Nat), Memory.wfFrom lo m = true →
    cellGet (cellSet m k v) j = if j = k then v else cellGet m j
  | [], _, k, j, _ => by
    unfold cellSet
    by_cases hv : v = erasedByte
    · rw [if_pos hv]; by_cases hj : j = k
      · rw [if_pos hj]; exact hv.symm
      · rw [if_neg hj]
    · rw [if_neg hv]; by_cases hj : j = k
      · rw [if_pos hj]; simp only [cellGet]; rw [if_pos hj.symm]
      · rw [if_neg hj]; simp only [cellGet]; rw [if_neg (Ne.symm hj)]
  | (a, b) :: t, lo, k, j, hm => by
    simp only [Memory.wfFrom, Bool.and_eq_true, decide_eq_true_eq] at hm
    obtain ⟨⟨ha, _⟩, ht⟩ := hm
    have ih := cellGet_cellSet_from v t k j ht
    unfold cellSet
    by_cases h1 : a < k
    · rw [if_pos h1]; simp only [cellGet, ih]
      by_cases hj : j = k
      · subst hj; rw [if_neg (by omega)]; simp
      · simp [hj]
    · rw [if_neg h1]
      by_cases h2 : a = k
      · subst h2; rw [if_pos rfl]
        by_cases hv : v = erasedByte
        · rw [if_pos hv]
          by_cases hj : j = a
          · subst hj; rw [if_pos rfl, hv]; exact cellGet_below ht (by omega)
          · rw [if_neg hj]; simp only [cellGet]; rw [if_neg (Ne.symm hj)]
        · rw [if_neg hv]; simp only [cellGet]
          by_cases hj : j = a
          · subst hj; simp
          · simp [hj, Ne.symm hj]
      · rw [if_neg h2]
        by_cases hv : v = erasedByte
        · rw [if_pos hv]
          by_cases hj : j = k
          · subst hj; rw [if_pos rfl, hv]; simp only [cellGet]; rw [if_neg h2]; exact cellGet_below ht (by omega)
          · rw [if_neg hj]
        · rw [if_neg hv]; simp only [cellGet]
          by_cases hj : j = k
          · subst hj; simp
          · simp [hj, Ne.symm hj]

/-- A byte after a write of one byte. -/
theorem cellGet_cellSet {m : List Host.Cell} (k j : Nat) (v : Byte) (h : Memory.wf m = true) :
    cellGet (cellSet m k v) j = if j = k then v else cellGet m j := cellGet_cellSet_from v m k j h

/-- A write of several bytes keeps the form. -/
theorem cellsPut_wf : ∀ (d : List Byte) {m : List Host.Cell} (k : Nat), Memory.wf m = true → Memory.wf (cellsPut m k d) = true
  | [], _, _, h => h
  | v :: t, _, k, h => cellsPut_wf t (k + 1) (cellSet_wf k v h)

/-- A byte after a write of several bytes. -/
theorem cellGet_cellsPut : ∀ (d : List Byte) {m : List Host.Cell} (k j : Nat), Memory.wf m = true →
    cellGet (cellsPut m k d) j = if k ≤ j ∧ j < k + d.length then d.getD (j - k) 0 else cellGet m j
  | [], _, k, j, _ => by rw [cellsPut, if_neg (by simp only [List.length_nil]; omega)]
  | v :: t, m, k, j, h => by
    simp only [cellsPut, List.length_cons]
    rw [cellGet_cellsPut t (k + 1) j (cellSet_wf k v h), cellGet_cellSet k j v h]
    by_cases h1 : k + 1 ≤ j ∧ j < k + 1 + t.length
    · rw [if_pos h1, if_pos (by omega)]
      obtain ⟨i, rfl⟩ : ∃ i, j = k + 1 + i := ⟨j - (k + 1), by omega⟩
      have e1 : k + 1 + i - (k + 1) = i := by omega
      have e2 : k + 1 + i - k = i + 1 := by omega
      simp [e1, e2]
    · rw [if_neg h1]
      by_cases h2 : j = k
      · subst h2; rw [if_pos rfl, if_pos (by omega)]; simp
      · rw [if_neg h2, if_neg (by omega)]

theorem cellsErase_wfFrom (k n : Nat) : ∀ (m : List Host.Cell) {lo : Nat}, Memory.wfFrom lo m = true → Memory.wfFrom lo (cellsErase m k n) = true
  | [], _, _ => rfl
  | (a, b) :: t, lo, hm => by
    simp only [Memory.wfFrom, Bool.and_eq_true, decide_eq_true_eq] at hm
    obtain ⟨⟨ha, hb⟩, ht⟩ := hm
    have ih := cellsErase_wfFrom k n t ht
    unfold cellsErase at ih ⊢
    rw [List.filter_cons]; split
    · simp only [Memory.wfFrom, Bool.and_eq_true, decide_eq_true_eq]; exact ⟨⟨ha, hb⟩, ih⟩
    · exact Memory.wfFrom_mono (by omega) ih

/-- An erase keeps the form. -/
theorem cellsErase_wf {m : List Host.Cell} (k n : Nat) (h : Memory.wf m = true) : Memory.wf (cellsErase m k n) = true :=
  cellsErase_wfFrom k n m h

/-- A byte after an erase. -/
theorem cellGet_cellsErase (k n j : Nat) : ∀ (m : List Host.Cell),
    cellGet (cellsErase m k n) j = if k ≤ j ∧ j < k + n then erasedByte else cellGet m j
  | [] => by simp [cellsErase, cellGet]
  | (a, b) :: t => by
    have ih := cellGet_cellsErase k n j t
    unfold cellsErase at ih ⊢
    rw [List.filter_cons]
    by_cases h : k ≤ a ∧ a < k + n
    · have hf : (!(decide (k ≤ a) && decide (a < k + n))) = false := by simp [h]
      rw [hf]; simp only [Bool.false_eq_true, if_false, ih, cellGet]
      by_cases hj : a = j
      · subst hj; simp [h]
      · simp [hj]
    · have hf : (!(decide (k ≤ a) && decide (a < k + n))) = true := by simp; omega
      rw [hf]; simp only [if_true, cellGet, ih]
      by_cases hj : a = j
      · subst hj; simp [h]
      · simp [hj]

/-! Every operation keeps the form. -/

@[simp] theorem reset_array_wf : Memory.wf State.reset.cnv.bytes = true := rfl

theorem ArrayCanonical.of_eq {s t : State} (h : ArrayCanonical s) (e : t.cnv.bytes = s.cnv.bytes) : ArrayCanonical t := by
  unfold ArrayCanonical at *; rw [e]; exact h

theorem ArrayCanonical.of_cnv {s t : State} (h : ArrayCanonical s) (e : t.cnv = s.cnv) : ArrayCanonical t := h.of_eq (by rw [e])

/-- What each step of a fold keeps, the fold keeps. -/
theorem foldl_canonical {α : Type} (g : State → α → State) (h : ∀ t x, ArrayCanonical t → ArrayCanonical (g t x)) :
    ∀ (l : List α) (s : State), ArrayCanonical s → ArrayCanonical (l.foldl g s)
  | [], _, hs => hs
  | a :: t, s, hs => foldl_canonical g h t (g s a) (h s a hs)

@[simp] theorem foldl_bytes {α : Type} (l : List α) (g : State → α → State) (s : State) (h : ∀ t x, (g t x).cnv.bytes = t.cnv.bytes) :
    (l.foldl g s).cnv.bytes = s.cnv.bytes := by
  induction l generalizing s with
  | nil => rfl
  | cons a t ih => simp only [List.foldl_cons]; rw [ih, h]

@[simp] theorem State.modBank_bytes (s : State) (b : Nat) (f : Bank → Bank) : (s.modBank b f).cnv.bytes = s.cnv.bytes := rfl
@[simp] theorem State.cnvCnt_bytes (s : State) (k n : Nat) : (s.cnvCnt k n).cnv.bytes = s.cnv.bytes := rfl
@[simp] theorem State.refuseSeq_bytes (s : State) (b code : Nat) : (s.refuseSeq b code).cnv.bytes = s.cnv.bytes := rfl
@[simp] theorem State.issueOp_bytes (s : State) (b : Nat) (o : ArrOp) : (s.issueOp b o).cnv.bytes = s.cnv.bytes := by
  unfold State.issueOp; dsimp only; split <;> rfl
@[simp] theorem State.identifyView_bytes (s : State) (w : ArrayIssuer) (b : Nat) : (s.identifyView w b).cnv.bytes = s.cnv.bytes := rfl
@[simp] theorem State.startOps_bytes (s : State) (b : Nat) (l : List ArrOp) : (s.startOps b l).cnv.bytes = s.cnv.bytes := by
  have w1 := @State.endHold_still
  induction l generalizing s with
  | nil => simp [State.startOps, w1]
  | cons o t ih => unfold State.startOps; split <;> simp [ih]
@[simp] theorem State.nextOp_bytes (s : State) (b : Nat) : (s.nextOp b).cnv.bytes = s.cnv.bytes := State.startOps_bytes s b _
@[simp] theorem State.rewriteSector_bytes (s : State) (n : Nat) : (s.rewriteSector n).cnv.bytes = s.cnv.bytes := by
  have w1 := @State.queueFault_still
  unfold State.rewriteSector; dsimp only; split <;> simp [w1]

theorem State.putPage_canonical {s : State} (h : ArrayCanonical s) (b p : Nat) (d : List Byte) : ArrayCanonical (s.putPage b p d) :=
  cellsPut_wf _ _ h

theorem State.wipeSector_canonical {s : State} (h : ArrayCanonical s) (b k : Nat) : ArrayCanonical (s.wipeSector b k) := by
  have w1 := @State.queueFault_still
  have e : (s.wipeSector b k).cnv.bytes = cellsErase s.cnv.bytes (bankBase b + k * 65536) 65536 := by
    unfold State.wipeSector; dsimp only; split <;> simp [w1]
  unfold ArrayCanonical; rw [e]; exact cellsErase_wf _ _ h

theorem State.spoilPage_canonical {s : State} (h : ArrayCanonical s) (b p : Nat) : ArrayCanonical (s.spoilPage b p) := by
  have w1 := @drawBytes_still
  have hd : ArrayCanonical (drawBytes 256 s).2 := h.of_cnv (by simp [w1])
  unfold State.spoilPage; generalize drawBytes 256 s = r at hd ⊢; exact State.putPage_canonical hd b p _

theorem State.spoilSector_canonical {s : State} (h : ArrayCanonical s) (b k : Nat) : ArrayCanonical (s.spoilSector b k) := by
  have w1 := @drawBytes_still
  have hd : ArrayCanonical (drawBytes 65536 s).2 := h.of_cnv (by simp [w1])
  unfold State.spoilSector; generalize drawBytes 65536 s = r at hd ⊢; exact cellsPut_wf _ _ hd

theorem State.spoil_canonical {s : State} (h : ArrayCanonical s) (b : Nat) (o : ArrOp) : ArrayCanonical (s.spoil b o) := by
  unfold State.spoil; split
  · exact State.spoilPage_canonical h b _
  · exact State.spoilSector_canonical h b _

/-- A lost line without a second source holds undefined bytes. -/
theorem State.voidLine_canonical {s : State} (h : ArrayCanonical s) (l : Nat) : ArrayCanonical (s.voidLine l) := by
  have w1 := @drawBytes_still; have w2 := @State.spoilSlot_still
  have hd : ArrayCanonical (drawBytes 64 s).2 := h.of_cnv (by simp [w1])
  unfold State.voidLine; generalize drawBytes 64 s = r at hd ⊢
  dsimp only; split
  · have hp : Memory.wf (cellsPut r.2.cnv.bytes (l * 64) r.1) = true := cellsPut_wf _ _ hd
    unfold ArrayCanonical; simpa [w2] using hp
  · exact cellsPut_wf _ _ hd

theorem State.loseLine_canonical {s : State} (h : ArrayCanonical s) (l : Nat) : ArrayCanonical (s.loseLine l) := by
  unfold State.loseLine; dsimp only; split
  · exact h.of_eq (by simp)
  · exact State.voidLine_canonical (h.of_eq (by simp)) l

theorem State.eraseRange_canonical {s : State} (h : ArrayCanonical s) (b lo n : Nat) : ArrayCanonical (s.eraseRange b lo n) := by
  refine ArrayCanonical.of_eq ?_ (State.cnvCnt_bytes _ 2 n)
  exact foldl_canonical _ (fun t i ht => State.wipeSector_canonical ht b (lo + i)) _ s h

theorem State.programRange_canonical {s : State} (h : ArrayCanonical s) (b off : Nat) (d : List Byte) : ArrayCanonical (s.programRange b off d) := by
  have e : (s.programRange b off d).cnv.bytes = cellsPut s.cnv.bytes (bankBase b + off) d := by
    unfold State.programRange; simp
  unfold ArrayCanonical; rw [e]; exact cellsPut_wf _ _ h

theorem State.abortOp_canonical {s : State} (h : ArrayCanonical s) (b : Nat) : ArrayCanonical (s.abortOp b) := by
  unfold State.abortOp; split
  · exact h
  · rename_i o _; exact (State.spoil_canonical h b o).of_eq (by simp)

theorem State.resetBank_canonical {s : State} (h : ArrayCanonical s) (w : ArrayIssuer) (b : Nat) : ArrayCanonical (s.resetBank w b) := by
  unfold State.resetBank; dsimp only; split
  · exact h.of_eq (by simp)
  · exact State.abortOp_canonical (h.of_eq (by simp)) b

theorem State.opDone_canonical {s : State} (h : ArrayCanonical s) (b : Nat) (o : ArrOp) (ok : Bool) : ArrayCanonical (s.opDone b o ok) := by
  unfold State.opDone; repeat' split
  · exact (State.putPage_canonical h b o.page o.data).of_eq (by simp)
  · exact (State.wipeSector_canonical h b o.page).of_eq (by simp)
  · exact (State.spoil_canonical h b o).of_eq (by simp)
  · exact (State.spoil_canonical h b o).of_eq (by simp)

/-! Field update and the Pattern slots. -/

theorem State.eraseStaging_canonical {s : State} (h : ArrayCanonical s) (i : Nat) : ArrayCanonical (s.eraseStaging i) :=
  State.eraseRange_canonical (State.eraseRange_canonical h 3 128 128) (slotBank i) 0 256

theorem State.startStaging_canonical {s : State} (h : ArrayCanonical s) (r : Requester) : ArrayCanonical (s.startStaging r) :=
  (State.eraseStaging_canonical h s.inactiveSlot).of_cnv rfl

theorem State.stagePiece_canonical {s : State} (h : ArrayCanonical s) (d : List Byte) : ArrayCanonical (s.stagePiece d) := by
  have hu := State.programRange_canonical h 3 (0x800000 + s.fwu.staged) d
  unfold State.stagePiece
  generalize s.programRange 3 (0x800000 + s.fwu.staged) d = u at hu ⊢
  exact hu.of_cnv rfl

/-- A piece restarts the firmware update, or continues it. -/
theorem State.fwDownload_canonical {s : State} (h : ArrayCanonical s) (r : Requester) (off : Nat) (d : List Byte) :
    ArrayCanonical (s.fwDownload r off d).2 := by
  have w1 := @State.heardOwner_still
  have h0 : ArrayCanonical (s.heardOwner r) := h.of_cnv (by simp [w1])
  unfold State.fwDownload; repeat' split
  · exact h
  · exact h0
  · exact h0
  · exact State.stagePiece_canonical (State.startStaging_canonical h0 r) d
  · exact h0
  · exact State.stagePiece_canonical h0 d

theorem State.clearSlot_canonical {s : State} (h : ArrayCanonical s) (i : Nat) : ArrayCanonical (s.clearSlot i) := by
  unfold State.clearSlot; split
  · exact State.eraseRange_canonical h _ _ _
  · exact h

theorem State.writeSlot_canonical {s : State} (h : ArrayCanonical s) (i : Nat) (img env : List Byte) : ArrayCanonical (s.writeSlot i img env) := by
  unfold State.writeSlot
  exact State.programRange_canonical (State.programRange_canonical (State.clearSlot_canonical h i) _ _ _) _ _ _

theorem State.applyFail_canonical {s : State} (h : ArrayCanonical s) (i code : Nat) : ArrayCanonical (s.applyFail i code).2 :=
  h.of_cnv (by have w1 := @State.applyFail_still; simp [w1])

theorem State.applySlot_canonical {s : State} (h : ArrayCanonical s) (i : Nat) (ok : Bool) : ArrayCanonical (s.applySlot i ok).2 := by
  have w1 := @drawNat_still; have w2 := @State.setFwSlot_still
  unfold State.applySlot; dsimp only; split
  · exact h
  · split
    · exact State.applyFail_canonical h _ _
    · rename_i img _
      have hw := State.writeSlot_canonical h i img (s.arrRead stagingBase s.fwu.staged)
      generalize s.writeSlot i img (s.arrRead stagingBase s.fwu.staged) = t at hw ⊢
      split
      · exact hw.of_cnv (by simp [w2])
      · have hd : ArrayCanonical (drawNat t).2 := hw.of_cnv (by simp [w1])
        generalize drawNat t = p at hd ⊢
        have hs := State.spoilPage_canonical hd (slotBank i) (p.1 % max 1 (ceilDiv img.length 256))
        generalize p.2.spoilPage (slotBank i) (p.1 % max 1 (ceilDiv img.length 256)) = u at hs ⊢
        exact State.applyFail_canonical (hs.of_eq (State.cnvCnt_bytes u 3 1)) i 9

theorem State.fwApply_canonical {s : State} (h : ArrayCanonical s) (r : Requester) (fs : Nat) (ok : Bool) : ArrayCanonical (s.fwApply r fs ok).2 := by
  have w1 := @State.heardOwner_still; have w2 := @State.unlockFwu_still
  have h0 : ArrayCanonical (s.heardOwner r) := h.of_cnv (by simp [*])
  unfold State.fwApply; dsimp only; repeat' split
  · exact h
  · exact h0
  · exact State.applySlot_canonical h0 _ ok
  · rename_i i _ _ _; exact (State.applySlot_canonical h0 i ok).of_cnv (by simp [*])

theorem State.fwApplyNext_canonical {s : State} (h : ArrayCanonical s) (r : Requester) (fs : Nat) (ok : Bool) :
    ArrayCanonical (s.fwApplyNext r fs ok).2 := by
  have w1 := @State.heardOwner_still; have w2 := @State.markNext_still; have w3 := @State.unlockFwu_still
  have h0 : ArrayCanonical (s.heardOwner r) := h.of_cnv (by simp [*])
  unfold State.fwApplyNext; dsimp only; repeat' split
  · exact h
  · exact h0
  · exact State.applySlot_canonical h0 _ ok
  · exact State.applySlot_canonical h0 _ ok
  · rename_i i _ _ _ _; exact (State.applySlot_canonical h0 i ok).of_cnv (by simp [*])

theorem State.fwActivate_canonical {s : State} (h : ArrayCanonical s) (w : Waiter) (r : Requester) (fs : Nat) (ok : Bool) :
    ArrayCanonical (s.fwActivate w r fs ok).2 := by
  have w1 := @State.activateReset_still; have w2 := @State.heardOwner_still; have w3 := @State.markNext_still
  have w4 := @State.tryActivate_still; have w5 := @State.unlockFwu_still
  have h0 : ArrayCanonical (s.heardOwner r) := h.of_cnv (by simp [w2])
  unfold State.fwActivate; dsimp only; split
  · exact h
  · split
    · exact h0
    · rename_i i _
      have ha := State.applySlot_canonical h0 i ok
      generalize (s.heardOwner r).applySlot i ok = a at ha ⊢
      repeat' split
      all_goals exact ha.of_cnv (by simp [w1, w3, w4, w5])

theorem State.startSlot_canonical {s : State} (h : ArrayCanonical s) (slot off : Nat) : ArrayCanonical (s.startSlot slot off) := by
  have w1 := @State.eraseRange_still
  unfold State.startSlot; split
  · exact (State.eraseRange_canonical h 3 (64 * slot) 64).of_cnv (by simp [State.setPatSlot, w1])
  · exact h

theorem State.patPiece_canonical {s : State} (h : ArrayCanonical s) (r : Requester) (d : List Byte) (slot off n : Nat) :
    ArrayCanonical (s.patPiece r d slot off n).2 := by
  have w1 := @State.programRange_still; have w2 := @State.startSlot_still
  unfold State.patPiece; repeat' split
  · exact h
  · exact h.of_cnv (by simp [State.heardLoad]; try (split <;> rfl))
  · exact (State.programRange_canonical (State.startSlot_canonical h slot off) 3 (patOff slot + off) d).of_cnv (by simp [State.holdLoad, w1, w2])

theorem State.patTransfer_canonical {s : State} (h : ArrayCanonical s) (r : Requester) (q : Sqe) (d : List Byte) :
    ArrayCanonical (s.patTransfer r q d).2 := State.patPiece_canonical h r d _ _ _

theorem State.patErase_canonical {s : State} (h : ArrayCanonical s) (r : Requester) (q : Sqe) : ArrayCanonical (s.patErase r q).2 := by
  have w1 := @State.eraseRange_still
  unfold State.patErase; dsimp only; repeat' split
  · exact h
  · exact h.of_cnv (by simp [State.heardLoad]; try (split <;> rfl))
  · exact (State.eraseRange_canonical h 3 (64 * patSlotOf q) 64).of_cnv (by simp [State.setPatSlot, State.dropLoad, w1])

theorem State.patCommit_canonical {s : State} (h : ArrayCanonical s) (r : Requester) (q : Sqe) : ArrayCanonical (s.patCommit r q).2 :=
  h.of_cnv (by have w1 := @State.patCommit_still; simp [w1])

theorem State.patOp_canonical {s : State} (h : ArrayCanonical s) (r : Requester) (q : Sqe) (d : List Byte) : ArrayCanonical (s.patOp r q d).2 := by
  unfold State.patOp; repeat' split
  · exact State.patTransfer_canonical h r q d
  · exact State.patCommit_canonical h r q
  · exact State.patErase_canonical h r q

/-! Start-up. -/

theorem State.bankAtStart_canonical {s : State} (h : ArrayCanonical s) (pin : Bool) (b : Nat) (x : Bank) : ArrayCanonical (s.bankAtStart pin b x) := by
  unfold State.bankAtStart; split
  · exact h
  · rename_i o _
    repeat' split
    · exact State.spoil_canonical h b o
    · exact (State.putPage_canonical h b o.page o.data).of_eq (by simp)
    · exact (State.wipeSector_canonical h b o.page).of_eq (by simp)

theorem State.arrayAtStart_canonical {s : State} (h : ArrayCanonical s) (pin : Bool) : ArrayCanonical (s.arrayAtStart pin) := by
  have := foldl_canonical (fun t (e : Nat × Bank) => t.bankAtStart pin e.1 e.2) (fun t e ht => State.bankAtStart_canonical ht pin e.1 e.2) s.cnv.banks s h
  exact this.of_eq rfl

/-! The sideband. -/

theorem State.sbCommit_canonical {s : State} (h : ArrayCanonical s) (e : Nat) (q : Sqe) : ArrayCanonical (s.sbCommit e q) := by
  have w1 := @State.answer_still; have w2 := @State.fwMarkNext_still; have w3 := @State.sbReply_still
  have w4 := @State.sbWait_still; have w5 := @drawBool_still
  have hd : ArrayCanonical (drawBool s).2 := h.of_cnv (by simp [*])
  have hw : ArrayCanonical ((drawBool s).2.sbWait e) := h.of_cnv (by simp [*])
  unfold State.sbCommit; dsimp only; repeat' split
  · exact (State.fwApply_canonical hd (.mctp e) (fsOf q) (drawBool s).1).of_cnv (by simp [*])
  · exact (State.fwApplyNext_canonical hd (.mctp e) (fsOf q) (drawBool s).1).of_cnv (by simp [*])
  · exact h.of_cnv (by simp [*])
  · exact (State.fwActivate_canonical hw (.sideband e) (.mctp e) (fsOf q) (drawBool s).1).of_cnv (by simp [*])
  · exact State.fwActivate_canonical hw _ _ _ _

theorem State.sbReply_canonical {s : State} (h : ArrayCanonical s) (e : Nat) (o : Outc) (d : OutData) : ArrayCanonical (s.sbReply e o d) :=
  h.of_cnv (by have w1 := @State.sbReply_still; simp [w1])

theorem State.sbAdmin_canonical {s : State} (h : ArrayCanonical s) (e : Nat) (q : Sqe) (d : List Byte) (m : PlanMeas) :
    ArrayCanonical (s.sbAdmin e q d m) := by
  unfold State.sbAdmin; dsimp only; repeat' split
  · exact State.sbReply_canonical h _ _ _
  · exact State.sbReply_canonical h _ _ _
  · refine State.sbReply_canonical (h.of_cnv ?_) _ _ _
    have w1 := @State.getLog_still; simp [w1]
  · exact State.sbReply_canonical h _ _ _
  · refine h.of_cnv ?_
    have w1 := @State.sbSetFeatures_still; simp [w1]
  · exact State.sbReply_canonical h _ _ _
  · exact State.sbReply_canonical (State.fwDownload_canonical h _ _ _) _ _ _
  · exact State.sbCommit_canonical h e q
  · refine State.sbReply_canonical (h.of_cnv ?_) _ _ _
    have w1 := @State.challenge_still; simp [w1]
  · refine State.sbReply_canonical (h.of_cnv ?_) _ _ _
    have w1 := @State.openSession_still; simp [w1]
  · refine State.sbReply_canonical (h.of_cnv ?_) _ _ _
    have w1 := @State.closeSession_still; simp [w1]
  · exact State.sbReply_canonical (State.patOp_canonical h _ q d) _ _ _
  · refine State.sbReply_canonical (h.of_cnv ?_) _ _ _
    have w1 := @State.planRun_still; simp [w1]
  · exact State.sbReply_canonical h _ _ _

theorem State.sbMessage_canonical {s : State} (h : ArrayCanonical s) (e : Nat) (m : SbMsg) : ArrayCanonical (s.sbMessage e m) := by
  have w1 := @State.miRun_still; have w2 := @State.miSet_still; have w3 := @State.sbControl_still; have w4 := @State.sbReply_still
  have w5 := @State.setEid_still
  unfold State.sbMessage; split
  · exact h
  · cases m
    case admin => exact State.sbAdmin_canonical h e _ _ _
    all_goals dsimp only
    all_goals repeat' split
    all_goals first | exact h | exact h.of_cnv (by simp [w1, w2, w3, w4, w5])

/-! Register writes: a byte sequence of the host starts no program and no erase. -/

@[simp] theorem State.seqByte_bytes (s : State) (p b off v : Nat) : (s.seqByte p b off v).cnv.bytes = s.cnv.bytes := by
  unfold State.seqByte; dsimp only; repeat' split
  all_goals simp [State.resetBank, isHost, State.setBank, State.identifyView]

@[simp] theorem State.mmioWrite_bytes (s : State) (p a w v : Nat) : (s.mmioWrite p a w v).cnv.bytes = s.cnv.bytes := by
  have w1 := @State.badAccess_still; have w2 := @State.dmsWrite_still; have w3 := @State.mbInWrite_still
  have w4 := @State.pageWord_still
  unfold State.mmioWrite; dsimp only; repeat' split
  all_goals simp [w1, w2, w3, w4]

end Sys2Proof.Machine
end

