-- ==== Sys2Proof/Laws/Readback.lean ====
section
/-! SUPPORT. What a read does to the state: it may wake islands, and nothing else (R10). -/

namespace Sys2Proof.Machine

/-- A wake changes the islands' records and the power record (the DRAM state of a DMI island) at most. -/
theorem startWake_changes (s : State) (i c : Nat) : ∃ l p, s.startWake i c = { s with isl := l, pwr := p } := by
  unfold State.startWake
  dsimp only
  split
  · exact ⟨s.isl, s.pwr, rfl⟩
  · split
    · exact ⟨_, s.pwr, rfl⟩
    · split
      · split
        · exact ⟨_, _, rfl⟩
        · exact ⟨_, s.pwr, rfl⟩
      · exact ⟨s.isl, s.pwr, rfl⟩

/-- An access changes no more. -/
theorem access_changes (s : State) (i : Nat) : ∃ l p, s.access i = { s with isl := l, pwr := p } := by
  unfold State.access
  split
  · exact ⟨s.isl, s.pwr, rfl⟩
  · exact startWake_changes s i 0

/-- A read leaves everything but the islands' records and the power record as it was (R10). -/
theorem read_changes_islands (s : State) (p a n : Nat) : ∃ l q, (s.mmioRead p a n).2 = { s with isl := l, pwr := q } := by
  have two (i j : Nat) : ∃ l q, (s.access i).access j = { s with isl := l, pwr := q } := by
    obtain ⟨l, q, hl⟩ := access_changes s i
    obtain ⟨m, r, hm⟩ := access_changes (s.access i) j
    exact ⟨m, r, by rw [hm, hl]⟩
  unfold State.mmioRead State.readWake
  simp only
  split
  · split
    · exact ⟨s.isl, s.pwr, rfl⟩
    · exact access_changes s islHFE
  · split
    · split
      · exact ⟨s.isl, s.pwr, rfl⟩
      · exact two _ _
    · split <;> exact two _ _

/-- A read of a register answered from AON has no effect at all (R10, R392). -/
theorem shadowed_read (s : State) (p r n : Nat) (h : shadowed r = true) (hr : r < 0x4000000) : (s.mmioRead p (0x8000000 + r) n).2 = s := by
  unfold State.mmioRead State.readWake
  simp only
  rw [if_neg (by omega), if_pos (by omega), Nat.add_sub_cancel_left, if_pos h]

end Sys2Proof.Machine
end

