-- ==== Sys2Proof/Laws/Rows.lean ====
section
/-! SUPPORT. How a row's statement is reached: from exec to the state it answers, and what ending an admin command does. -/

namespace Sys2Proof.Machine

/-- A row that answers for units of the device. -/
theorem gives_guard {i : Instr} {s t : State} {P : State → Prop} {ok : Bool} (h : exec i s = guardUnit s ok t) (hok : ok = true) (hp : P t) :
    Gives i s P := ⟨t, by rw [h, hok]; rfl, hp⟩

/-- A row that names a unit the device does not have changes nothing. -/
theorem guard_idle (s t : State) : guardUnit s false t = .next s := rfl

/-- A row that answers always. -/
theorem gives_next {i : Instr} {s t : State} {P : State → Prop} (h : exec i s = .next t) (hp : P t) : Gives i s P := ⟨t, h, hp⟩

/-- An access to an island that is on changes nothing. -/
theorem State.access_awake {s : State} {i : Nat} (h1 : (s.isle i).dstate = .on) (h2 : (s.isle i).change = none) : s.access i = s := by
  unfold State.access State.startWake; simp [h1, h2, DState.asleep]

/-- Ending a command with data, after a change that leaves the contexts as they were. -/
theorem State.finishWith_ends {s t : State} {c : Nat} {o : Outc} {d : OutData} (h : t.cmd = s.cmd) : EndsWith c o d s (t.finishWith c o d) := by
  have hc : ∀ e, t.ctx e = s.ctx e := by intro e; simp [State.ctx, h]
  refine ⟨by simp [State.finishWith, State.finish, State.modCtx_read, hc], ?_, ?_⟩
  · intro e he; simp [State.finishWith, State.finish, State.modCtx_read, hc, he]
  · simp [State.finishWith, State.finish, State.modCtx, State.setCtx, h]

/-- Ending a command, after a change that leaves the contexts as they were. -/
theorem State.finish_ends {s t : State} {c : Nat} {o : Outc} (h : t.cmd = s.cmd) : Ends c o s (t.finish c o) := by
  have hc : ∀ e, t.ctx e = s.ctx e := by intro e; simp [State.ctx, h]
  refine ⟨by simp [State.finish, State.modCtx_read, hc], ?_, ?_⟩
  · intro e he; simp [State.finish, State.modCtx_read, hc, he]
  · simp [State.finish, State.modCtx, State.setCtx, h]

/-- Ending a command changes the contexts alone. -/
theorem State.finish_eq (t : State) (c : Nat) (o : Outc) : t.finish c o = { t with cmd := (t.finish c o).cmd } := rfl
theorem State.finishWith_eq (t : State) (c : Nat) (o : Outc) (d : OutData) : t.finishWith c o d = { t with cmd := (t.finishWith c o d).cmd } := rfl

end Sys2Proof.Machine
end

