-- ==== Sys2Proof/Tests/Slice0.lean ====
section
/-! SUPPORT. Tests: the checks of WellFormed refuse; values the spec states; and, for every obligation with hypotheses, a state
and operands that meet them together (`witness_<obligation>`, one conjunct for each clause). -/

set_option Elab.async false

open Sys2Proof Sys2Proof.Machine
namespace Sys2Proof.Machine

/-- A Pattern with every island present, two ports, three dies of one type in bay 0, one zone class, one stripe template, eight
namespaces and DRAM. -/
def testPat : Pat :=
  { isl := List.replicate 72 { present := true, mayRetain := true, mayOff := true, points := [(1000, 700)], vmin := 500, vmax := 900 }
    host := { split := 1 }, dram := some { mask := 1, ranks := 1 }
    media := some { bayMask := 1, bayType := [0]
                    types := [{ pageB := 16384, pagesBlk := 512, blksPlane := 1000, planes := 1, luns := 1, tgts := 1, modes := 1, ratedPe := 3000 }] }
    stripe := some { sets := [{ dies := 2 ^ 0 + 2 ^ 32 + 2 ^ 64 }], tmpls := [{ dies := [0, 32, 64] }] }
    classes := some [{}], ns := some { maxNs := 8, lbaf := 1, convGib := 1, fdpRg := 1, fdpPh := 1 }
    slices := [{ keys := 1 }] }

/-- A device that serves: islands on, links up, slice 0 enabled, start-up over. -/
def up : State :=
  { State.reset with
    isl := (List.range 72).map (fun i => (i, { dstate := .on, avail := .available }))
    ports := [(0, { lstate := .up, live := true, msixEn := true, modsUp := 3 }), (1, { lstate := .up, live := true, modsUp := 12 })]
    sli := [(0, { state := .enabled, shares := { inflight := 16 } })]
    glb := { adminReady := true, mediaReady := true, step := 13 }
    pat := { eff := testPat }
    routes := [(0, { state := .bound })]
    med := { chans := [(0, { cstate := 2 }), (1, { cstate := 2 }), (2, { cstate := 2 })]
             dies := [(0, { state := .online, goodBlocks := 1000 }), (32, { state := .online, goodBlocks := 1000 }), (64, { state := .online, goodBlocks := 1000 })] }
    cmd := { ctrls := [(0, { en := true, rdy := true })] } }

/-- `s` with an admin command in context 65,535. -/
def adm (op : Nat) (q : Sqe) (s : State := up) : State :=
  s.setCtx 65535 { stage := 5, admin := true, opc := op, sqe := q, cid := 1, nsid := q.nsid }

/-- `s` with an I/O command in context 65,535. -/
def io (x : Ctx) (s : State := up) : State := s.setCtx 65535 x

theorem slice_digest (d : BitVec 384) : slice (digestBytes d) 0 48 = digestBytes d := by
  simp [slice, digestBytes, leBytes]

theorem nil_ne_digest (d : BitVec 384) : slice [] 0 48 ≠ digestBytes d := by
  simp [slice, digestBytes, leBytes]

/-- `up` with every sensor at 105 °C. -/
def warmUp : State := { up with thm := { up.thm with sensors := (List.range 48).map (fun k => (k, { temp := 1680, read := true })) } }

/-- The one command of `io x s` is `x`. -/
theorem io_only {x y : Ctx} {s : State} {d : Nat} (hs : s.cmd.ctxs = []) (h : (io x s).ctx? d = some y) : y = x := by
  simp only [io, State.ctx?, State.setCtx, tget_tset, hs] at h
  split at h
  · exact (Option.some.inj h).symm
  · simp [tget] at h

/-- A Route job's descriptor: one extent of 64 bytes in compute memory 5, output to the host. -/
def testDesc : List Byte :=
  (List.range 256).map (fun i => if i = 0 ∨ i = 2 ∨ i = 8 ∨ i = 12 ∨ i = 0x80 then 1 else if i = 0x84 then 5 else if i = 0x90 then 64 else 0)

/-- A program image: one executable segment of 4 KiB at 0x1_0000 and a note that asks for 4 KiB of stack. -/
def testImage : List Byte :=
  (List.range 204).map (fun i => (([(0, 0x7F), (1, 0x45), (2, 0x4C), (3, 0x46), (4, 2), (5, 1), (16, 2), (18, 243), (26, 1), (32, 64), (48, 4), (54, 56), (56, 2),
    (64, 1), (68, 5), (82, 1), (105, 16), (120, 4), (128, 176), (152, 28), (160, 28), (176, 7), (180, 8), (184, 1), (188, 0x4F), (189, 0x76),
    (190, 0x73), (191, 0x65), (192, 0x61), (193, 0x7A), (196, 1), (200, 4)] : List (Nat × Byte)).find? (fun e => e.1 == i)).elim 0 (·.2))

/-- `up` with compute open to slice 0, 100 frames in pool 5, 4 MiB of compute memory under handle 5 and route 0 bound. -/
def compute : State :=
  { up with
    sli := [(0, { state := .enabled, shares := { inflight := 16, computeW := 1 } })]
    bpm := { up.bpm with pools := [(5, { frames := 100, filled := 100 }), (4, { frames := 100, filled := 100 })] }
    cpx := { up.cpx with allocs := [(5, { units := 1 })] }
    routes := [(0, { state := .bound, stages := [1, 8] })] }

/-- Job `x` runs on core 127, in context 65,535. -/
def coreRun (x : Job) (s : State := compute) : State :=
  io { stage := 11, opc := opJob } { s with cpx := { s.cpx with jobs := [(65535, x)], cores := [(127, { busy := true, ctx := 65535 })] } }

theorem newHandle_empty {s : State} (h : s.cpx.allocs = []) : (s.newHandle 0).1 = some ((drawNat s).1 % 65535 + 1) := by
  unfold State.newHandle
  rw [h]
  have hm : 65536 - ((drawNat s).1 % 65535 + 1) = 65536 - ((drawNat s).1 % 65535 + 1) - 1 + 1 := by omega
  dsimp only
  rw [hm]
  have e : (0 * 65536 + ((drawNat s).1 % 65535 + 1)) % 65536 = (drawNat s).1 % 65535 + 1 := by omega
  exact congrArg some e

/-- The descriptor a successful parse gives. -/
def jobOf : Except Outc JobDesc → JobDesc
  | .ok j => j
  | .error _ => {}

def isOk : Except Outc JobDesc → Bool
  | .ok _ => true
  | .error _ => false

theorem except_ok {x : Except Outc JobDesc} (h : isOk x = true) : x = .ok (jobOf x) := by
  cases x
  · cases h
  · rfl

/-- For each check of a command, a command that fails that check alone is ill-formed. -/
theorem test_wellFormed_refuses_1 : ([
  .registerWrite 2 0 8 default, .registerWrite 0 (2 ^ 29) 8 default, .registerWrite 0 0 0 default, .registerWrite 0 0 65 default,
  .islandTransfer { src := 72 }, .islandTransfer { dst := 72 }, .islandTransfer { ctx := some 65536 }, .operatingPointChange 72 default,
  .dramMarginTrack 32 default, .routeBindingComplete 4096, .doorbellWrite 2 0 0 default default, .doorbellWrite 0 2048 0 default default,
  .doorbellWrite 0 0 1536 default default, .sqFetch 18433 default, .sqEntryReadFail 18433, .hostReadTimeout 65536,
  .cometStreamTimeout 4096, .rangeLockRelease 65536, .routeSeat 65536, .mediaDispatch (.read 65536 0),
  .mediaDispatch (.erase 2048 0), .dieOperationComplete 2048 default, .readDeadlineExpire 65536 default default, .dieReadyTimeout 2048 default,
  .hostDataTransferDone 65536 default, .writeBufferRoom 65536, .commandCommit 65536, .completionPost 65536,
  .flush 65536, .write 65536, .read 65536, .writeUncorrectable 65536,
  .compare 65536, .writeZeroes 65536, .datasetManagement 65536 default, .verifyCommand 65536,
  .ioManagementReceive 65536, .ioManagementSend 65536 default, .copy 65536 default, .zoneAppend 65536,
  .zoneOpen 65536, .zoneClose 65536, .zoneFinish 65536, .zoneReset 65536,
  .zoneOffline 65536, .zoneManagementReceive 65536, .zoneFinishRecommend 0 default, .zoneControllerFinish 0 default,
  .abort 65536, .createIoSq 65536, .createIoCq 65536, .deleteIoSq 65536,
  .deleteIoCq 65536, .getLogPage 65536, .identify 65536, .setFeatures 65536 default,
  .getFeatures 65536, .asynchronousEventRequest 65536, .namespaceCreate 65536 default, .namespaceDelete 65536] : List Instr).all (fun i => !i.wellFormed) = true := by decide +kernel

/-- For each check of a command, a command that fails that check alone is ill-formed. -/
theorem test_wellFormed_refuses_2 : ([
  .namespaceAttachment 65536 default, .directiveSend 65536, .directiveReceive 65536, .nvmeMiSend 65536 default,
  .nvmeMiReceive 65536 default, .formatNvm 65536, .sanitize 65536, .sessionChallenge 65536,
  .sessionOpen 65536 default, .sessionClose 65536, .challengeExpire (.ctrl 2048 0), .challengeExpire (.ctrl 0 2),
  .challengeExpire (.mctp 256), .keyLockoutExpire 2064, .sliceCreate 65536 default, .sliceReset 65536,
  .sliceRemove 65536, .setKey 65536 default, .clearKey 65536, .sliceResetComplete 2048,
  .resetDrainTimeout 2048 0 default, .resetDrainTimeout 0 72 default, .controllerEnable 2 0 default, .controllerEnable 0 2048 default,
  .controllerReset 2 0, .controllerReset 0 2048, .shutdownNotification 2 0, .shutdownNotification 0 2048,
  .patternLoadTransfer 65536 default, .patternLoadCommit 65536, .patternLoadErase 65536, .panelReloadTransfer 65536 default,
  .panelReloadApply 65536, .portOwnershipQuery 65536, .portOwnershipRelease 65536, .portOwnershipAcquire 65536,
  .portOwnershipTakeover 65536, .setSharedRead 65536, .clearSharedRead 65536, .setFencingKey 65536,
  .takeoverLockoutExpire 0, .marginPlanRun 65536 default, .marginPlanReport 65536, .firmwareImageDownload 65536 default,
  .firmwareCommitApply 65536 default, .firmwareCommitApplyNext 65536 default, .firmwareCommitMarkNext 65536, .firmwareCommitActivate 65536 default,
  .job 65536 default default default, .jobTimeQuotaExpire 65536, .engineUnitComplete 65536 default, .computeMemoryAllocate 65536,
  .computeMemoryFree 65536, .computeFreeDrained 2048 0, .computeFreeDrained 0 65536, .programLoadTransfer 65536 default,
  .programLoadCommit 65536, .programLoadDiscard 65536, .programUnload 65536, .programUnloadDrained 2048 0] : List Instr).all (fun i => !i.wellFormed) = true := by decide +kernel

/-- For each check of a command, a command that fails that check alone is ill-formed. -/
theorem test_wellFormed_refuses_3 : ([
  .programUnloadDrained 0 65536, .coresGranted 65536, .syscallExit 128, .syscallFail 128 default default,
  .syscallEmit 128 default, .syscallViewOpen 128 default default default default, .syscallViewNext 128 default, .viewChunkArrive 128 0 default,
  .viewChunkArrive 0 8 default, .syscallViewRelease 128 default default, .syscallExtentLen 128 default, .syscallCmMap 128 default default default,
  .syscallCmUnmap 128 default, .syscallHostRead 128 default default default, .syscallHostWrite 128 default default default default, .syscallBarrier 128,
  .syscallSetCounts 128 default default, .programTrap 128 default default default, .weaveStep 2 0 default, .weaveStep 0 16 default,
  .atsInvalidation 2 default default, .frameAllocate 6 default 0 (.command 0), .frameAllocate 0 default 2048 (.command 0), .frameAllocate 0 default 0 (.command 65536),
  .frameAllocate 0 default 0 (.compute 65536), .shareSet 2048, .shareQuery 2048, .relay 2048,
  .mailboxSend 0 2 default, .mailboxSend 2048 0 default, .mailboxAck 0 2 default, .mailboxAck 2048 0 default,
  .sharedKeyConfig 16 default, .dmaChannelRestart 65536 default, .mergeBufferFlush 72 default default, .dramBackgroundFill 8 default,
  .faultEvent { src := 1024 }, .faultHandlingEnd 1024, .islandResetEnd 72, .counterEvent 2048 none none default,
  .counterEvent 0 (some 2048) none default, .counterEvent 0 none (some 72) default, .counterClear 1024, .counterSnapshot 64,
  .counterFreeze 64, .counterUnfreeze 64, .domainIdleTimeout 72, .domainEntryComplete 72,
  .domainWake 72 0, .domainWake 0 8, .domainWakeComplete 72 default, .dramDeepSleep 8,
  .floorWrite 72 default, .padHoldRelease 72 default, .sensorConversion 48 default, .sensorHoldExpire 48,
  .sensorRetest 48 default, .sensorRetestEnd 48, .dieTemperatureRead 2048 default, .pathMonitorSample 72 default] : List Instr).all (fun i => !i.wellFormed) = true := by decide +kernel

/-- For each check of a command, a command that fails that check alone is ill-formed. -/
theorem test_wellFormed_refuses_4 : ([
  .pendingIslandMeasure 72 default, .wearSpreadCheck 64, .channelRetune 64 default, .channelRetrain 64 default default,
  .clusterSchedWrite 16 default default default, .bayInsertion 16, .bayPresenceDebounced 16, .bayPwrgdRise 16,
  .bayPowerTimeout 16, .bayScanComplete 16 default default, .baySurpriseRemoval 16 default, .bayPwrgdFallSafe 16,
  .bayAttention 16, .bayRemove 16 default, .bayRemovalDrained 16, .bayAccept 16,
  .bayReject 16, .bayRetryPower 16, .linkUp 2 default default, .linkDown 2,
  .moduleLaneFailure 4 default default, .ucieRecalibration 4 default, .trickleEnter 2 default, .trickleExit 2 default,
  .detachRequest 2 default, .detachQuiesced 2 default, .detachFlushed 2, .leaseBeat 2 0 default,
  .leaseBeat 0 2 default, .leaseExpire 2, .bar2MapWrite 2 0 default default default default default, .bar2MapWrite 0 64 default default default default default,
  .bar2Access 2 default default default, .oqConfig 64 default default default, .oqResume 2 0 default, .oqResume 0 2048 default,
  .zoneLimitConfig 0 default default, .computeLimitConfig 2048 default, .atsGrant 2048 default, .interruptUnmask 2 0 default,
  .interruptUnmask 0 2048 default, .fetchHold 2048, .fetchRelease 2048, .arrayProgram (.host 2) 0 0 (List.replicate 256 0),
  .arrayProgram (.host 0) 4 0 (List.replicate 256 0), .arrayProgram (.host 0) 0 65536 (List.replicate 256 0), .arrayProgram (.host 0) 0 0 (List.replicate 255 0), .arrayErase (.host 2) 0 0,
  .arrayErase (.host 0) 4 0, .arrayErase (.host 0) 0 256, .arrayIdentify (.host 2) 0, .arrayIdentify (.host 0) 4,
  .arrayAbortReset (.host 2) 0, .arrayAbortReset (.host 0) 4, .arraySequenceTimeout 4, .arrayOperationComplete 4 default,
  .powerGoodLoss 3, .sidebandMessage 256 default default, .pcieConfigWrite 2 default default, .portHotReset 2] : List Instr).all (fun i => !i.wellFormed) = true := by decide +kernel

/-- For each check of a command, a command that fails that check alone is ill-formed. -/
theorem test_wellFormed_refuses_5 : ([
  .ruTimeLimitExceeded 64 default, .retentionAgeCheck 2048 default default, .interruptCoalescingTime 18433] : List Instr).all (fun i => !i.wellFormed) = true := by decide +kernel

/-- The same commands with units that exist are well-formed. -/
theorem test_wellFormed_accepts_1 : ([
  .registerWrite 0 0 8 default, .islandTransfer default, .operatingPointChange 0 default, .dramMarginTrack 0 default,
  .routeBindingComplete 0, .doorbellWrite 0 0 0 default default, .sqFetch 0 default, .sqEntryReadFail 0,
  .hostReadTimeout 0, .cometStreamTimeout 0, .rangeLockRelease 0, .routeSeat 0,
  .mediaDispatch (.read 0 0), .dieOperationComplete 0 default, .readDeadlineExpire 0 default default, .dieReadyTimeout 0 default,
  .hostDataTransferDone 0 default, .writeBufferRoom 0, .commandCommit 0, .completionPost 0,
  .flush 0, .write 0, .read 0, .writeUncorrectable 0,
  .compare 0, .writeZeroes 0, .datasetManagement 0 default, .verifyCommand 0,
  .ioManagementReceive 0, .ioManagementSend 0 default, .copy 0 default, .zoneAppend 0,
  .zoneOpen 0, .zoneClose 0, .zoneFinish 0, .zoneReset 0,
  .zoneOffline 0, .zoneManagementReceive 0, .zoneFinishRecommend 1 default, .zoneControllerFinish 1 default,
  .abort 0, .createIoSq 0, .createIoCq 0, .deleteIoSq 0,
  .deleteIoCq 0, .getLogPage 0, .identify 0, .setFeatures 0 default,
  .getFeatures 0, .asynchronousEventRequest 0, .namespaceCreate 0 default, .namespaceDelete 0,
  .namespaceAttachment 0 default, .directiveSend 0, .directiveReceive 0, .nvmeMiSend 0 default,
  .nvmeMiReceive 0 default, .formatNvm 0, .sanitize 0, .sessionChallenge 0] : List Instr).all (fun i => i.wellFormed) = true := by decide +kernel

/-- The same commands with units that exist are well-formed. -/
theorem test_wellFormed_accepts_2 : ([
  .sessionOpen 0 default, .sessionClose 0, .challengeExpire (.mctp 0), .keyLockoutExpire 0,
  .sliceCreate 0 default, .sliceReset 0, .sliceRemove 0, .setKey 0 default,
  .clearKey 0, .sliceResetComplete 0, .resetDrainTimeout 0 0 default, .controllerEnable 0 0 default,
  .controllerReset 0 0, .shutdownNotification 0 0, .patternLoadTransfer 0 default, .patternLoadCommit 0,
  .patternLoadErase 0, .panelReloadTransfer 0 default, .panelReloadApply 0, .portOwnershipQuery 0,
  .portOwnershipRelease 0, .portOwnershipAcquire 0, .portOwnershipTakeover 0, .setSharedRead 0,
  .clearSharedRead 0, .setFencingKey 0, .takeoverLockoutExpire 1, .marginPlanRun 0 default,
  .marginPlanReport 0, .firmwareImageDownload 0 default, .firmwareCommitApply 0 default, .firmwareCommitApplyNext 0 default,
  .firmwareCommitMarkNext 0, .firmwareCommitActivate 0 default, .job 0 default default default, .jobTimeQuotaExpire 0,
  .engineUnitComplete 0 default, .computeMemoryAllocate 0, .computeMemoryFree 0, .computeFreeDrained 0 0,
  .programLoadTransfer 0 default, .programLoadCommit 0, .programLoadDiscard 0, .programUnload 0,
  .programUnloadDrained 0 0, .coresGranted 0, .syscallExit 0, .syscallFail 0 default default,
  .syscallEmit 0 default, .syscallViewOpen 0 default default default default, .syscallViewNext 0 default, .viewChunkArrive 0 0 default,
  .syscallViewRelease 0 default default, .syscallExtentLen 0 default, .syscallCmMap 0 default default default, .syscallCmUnmap 0 default,
  .syscallHostRead 0 default default default, .syscallHostWrite 0 default default default default, .syscallBarrier 0, .syscallSetCounts 0 default default] : List Instr).all (fun i => i.wellFormed) = true := by decide +kernel

/-- The same commands with units that exist are well-formed. -/
theorem test_wellFormed_accepts_3 : ([
  .programTrap 0 default default default, .weaveStep 0 0 default, .atsInvalidation 0 default default, .frameAllocate 0 default 0 (.command 0),
  .shareSet 0, .shareQuery 0, .relay 0, .mailboxSend 0 0 default,
  .mailboxAck 0 0 default, .sharedKeyConfig 0 default, .dmaChannelRestart 0 default, .mergeBufferFlush 0 default default,
  .dramBackgroundFill 0 default, .faultEvent default, .faultHandlingEnd 0, .islandResetEnd 0,
  .counterEvent 0 none none default, .counterClear 0, .counterSnapshot 0, .counterFreeze 0,
  .counterUnfreeze 0, .domainIdleTimeout 0, .domainEntryComplete 0, .domainWake 0 0,
  .domainWakeComplete 0 default, .dramDeepSleep 0, .floorWrite 0 default, .padHoldRelease 0 default,
  .sensorConversion 0 default, .sensorHoldExpire 0, .sensorRetest 0 default, .sensorRetestEnd 0,
  .dieTemperatureRead 0 default, .pathMonitorSample 0 default, .pendingIslandMeasure 0 default, .wearSpreadCheck 0,
  .channelRetune 0 default, .channelRetrain 0 default default, .clusterSchedWrite 0 default default default, .bayInsertion 0,
  .bayPresenceDebounced 0, .bayPwrgdRise 0, .bayPowerTimeout 0, .bayScanComplete 0 default default,
  .baySurpriseRemoval 0 default, .bayPwrgdFallSafe 0, .bayAttention 0, .bayRemove 0 default,
  .bayRemovalDrained 0, .bayAccept 0, .bayReject 0, .bayRetryPower 0,
  .linkUp 0 default default, .linkDown 0, .moduleLaneFailure 0 default default, .ucieRecalibration 0 default,
  .trickleEnter 0 default, .trickleExit 0 default, .detachRequest 0 default, .detachQuiesced 0 default] : List Instr).all (fun i => i.wellFormed) = true := by decide +kernel

/-- The same commands with units that exist are well-formed. -/
theorem test_wellFormed_accepts_4 : ([
  .detachFlushed 0, .leaseBeat 0 0 default, .leaseExpire 0, .bar2MapWrite 0 0 default default default default default,
  .bar2Access 0 default default default, .oqConfig 0 default default default, .oqResume 0 0 default, .zoneLimitConfig 1 default default,
  .computeLimitConfig 0 default, .atsGrant 0 default, .interruptUnmask 0 0 default, .fetchHold 0,
  .fetchRelease 0, .arrayProgram (.host 0) 0 0 (List.replicate 256 0), .arrayErase (.host 0) 0 0, .arrayIdentify (.host 0) 0,
  .arrayAbortReset (.host 0) 0, .arraySequenceTimeout 0, .arrayOperationComplete 0 default, .powerGoodLoss 0,
  .sidebandMessage 0 default default, .pcieConfigWrite 0 default default, .portHotReset 0, .ruTimeLimitExceeded 0 default,
  .retentionAgeCheck 0 default default, .interruptCoalescingTime 0] : List Instr).all (fun i => i.wellFormed) = true := by decide +kernel

/-! Values the spec states. Each comment names their place. -/

/-- CRC-16/T10-DIF of the check string (R338). -/
theorem test_crc16_check : crc16 ((List.range 9).map (fun i => BitVec.ofNat 8 (0x31 + i))) = 0xD0DB := by decide +kernel

/-- The class of the example under R139: 14 × 72 MiB rows, one row, 258,048 LBAs in a zone of 262,144. -/
def exPat : Pat :=
  { testPat with
    media := some { bayMask := 1, bayType := [0]
                    types := [{ pageB := 16384, pagesBlk := 1152, blksPlane := 1000, planes := 4, luns := 1, tgts := 1, modes := 4, ratedPe := 3000 }] }
    stripe := some { tmpls := [{ width := 16, parity := 2, dies := List.range 16 }] } }
def exClass : ZoneClass := { mode := 2, width := 16, parity := 2, sizeLog2 := 10 }

theorem test_row_bytes : rowBytes ((dieType? exPat 0).getD default) 16 2 2 = 1008 * 2 ^ 20 := by decide +kernel
theorem test_zone_capacity : (zoneRows exPat exClass, zoneCapLbas exPat exClass, zoneSizeLbas exClass) = (1, 258048, 262144) := by decide +kernel

/-- The cut zone of the example under R223: 252 MiB less leave 193,536 LBAs. -/
theorem test_cut_capacity : zoneCapLbas exPat exClass - 252 * 256 = 193536 := by decide +kernel

/-- The throttle steps of Table 14-4: 118.5, 121.0, 124.0 and 120.0 °C over THR_SET 117. -/
theorem test_budgets : [1896, 1936, 1984, 1920].map (tempBudget (117 * 16)) = [88, 68, 44, 76] := by decide +kernel

/-- The code of 0.80 V in a voltage request (17, example). -/
theorem test_vreq_code : vreqOf 800 = 60 := by decide +kernel

/-- The hold-up limit of the example under R119: 271 MiB with 64 channels and full budgets. -/
def holdPat : Pat :=
  { testPat with
    media := some { bayMask := 0xFFFF, bayType := List.replicate 16 0
                    types := [{ pageB := 16384, pagesBlk := 512, blksPlane := 1000, planes := 1, luns := 1, tgts := 1, modes := 1, ratedPe := 3000 }] }
    power := { holdupUs := 2000, pfailWired := true } }
theorem test_holdup_limit : ({ up with pat := { eff := holdPat } } : State).dirtyLimit = 271 * 2 ^ 20 := by decide +kernel

/-- The keeper sums of the example of chapter 13: 484.6 mA with every domain retained at 125 °C, 244.6 mA with the cores off. -/
theorem test_keeper_sum :
    (sumNat ((List.range 72).map (fun i => retScaled i 2000)), sumNat ((List.range 40).map (fun i => retScaled i 2000)))
      = (4846 * 1920, 2446 * 1920) := by decide +kernel

/-- The user-core example's weave 5 (09, example): 999 is dropped, 1,000 is emitted. -/
def exWeave : WeaveDir := { weave := 5, first := 100, cells := 1 }
def exCell : WeavePanel :=
  { weaves := [exWeave], cells := [{ cell := 100, cfg := 0xFFFFFFFF0000AAAA + 0x67 * 2 ^ 72 + 0x3E8 * 2 ^ 96 }] }
theorem test_weave_example :
    weaveUnit exCell exWeave ([999, 1000].flatMap (leBytes 4)) = leBytes 4 1000 := by decide +kernel

/-- The sieve of Table 8-14: a row of region 3 with amount 50,000 passes, and so does region 1 with sku TX-; region 1 with
another sku, and amount 200,000, do not. The output is order_id and amount. -/
def exSieve : SieveD :=
  { output := 1, reclen := 64, project := 5
    fields := [{ off := 0, width := 8, typ := 3 }, { off := 8, width := 4, typ := 2 }, { off := 16, width := 8, typ := 7 },
               { off := 24, width := 16, typ := 10 }]
    terms := [{ field := 2, op := 6, v0 := leBytes 16 0xC350, v1 := leBytes 8 0x30D3F }, { field := 1, op := 0, v0 := leBytes 16 3, v1 := leBytes 8 0 },
              { field := 3, op := 9, len := 3, v0 := leBytes 16 0x2D5854, v1 := leBytes 8 0 }]
    nodes := [{ op := 1, left := 1, right := 2 }, { op := 0, left := 0, right := 0x10 }] }
def exRow (region amount sku : Nat) : SRec :=
  let b := leBytes 8 77 ++ leBytes 8 region ++ leBytes 8 amount ++ leBytes 16 sku ++ List.replicate 24 0
  { raw := b, body := b }
theorem test_sieve_example :
    [exRow 3 50000 0, exRow 1 199999 0x312D5854, exRow 1 60000 0x312D5954, exRow 3 200000 0].map (exSieve.selects (fun _ => []))
      = [true, true, false, false] := by decide +kernel
theorem test_sieve_project : exSieve.emit (exRow 3 50000 0) = leBytes 8 77 ++ leBytes 8 50000 := by decide +kernel

/-! Read-back. -/

/-- The example of R41: TRN on and available at point 0, 1,600 MHz and 800 mV. -/
def trnUp : State :=
  { State.reset with isl := [(9, { dstate := .on, avail := .available })]
                     pat := { eff := { isl := (List.range 72).map (fun i => if i = 9 then { present := true, points := [(1600, 800)] } else {}) } } }
theorem test_read_island : ((trnUp.mmioRead 0 0x8100248 8).1.map (·.toNat)) = [0x00, 0x64, 0x40, 0x06, 0x20, 0x03, 0x00, 0x00] := by decide +kernel

/-- R449: CRTO holds CRWMT 24 and CRIMT 3. -/
theorem test_read_crto : (up.mmioRead 0 0x68 4).1.map (·.toNat) = [24, 0, 3, 0] := by decide +kernel

/-- R425: every word of a bank that erases sector 5 reads the status word of Table 15-3, in every 4-byte word. -/
theorem test_read_busy :
    (({ up with cnv := { up.cnv with banks := [(3, { cur := some { op := 2 }, sector := 5 })] } } : State).mmioRead 0 0xF000100 8).1.map (·.toNat)
      = [0x09, 0, 5, 0xC5, 0x09, 0, 5, 0xC5] := by decide +kernel

/-! The standards that R2 names: their check values. -/

def bytesOf (l : List Nat) : List Byte := l.map (BitVec.ofNat 8)

/-- CRC-32 and Adler-32 of the digits 1 to 9 (RFC 1952, RFC 1950); xxHash of nothing. -/
theorem test_checksums : (crc32 (bytesOf ((List.range 9).map (· + 0x31))), adler32 (bytesOf ((List.range 9).map (· + 0x31))), xxh32 [], xxh64 [])
    = (0xCBF43926, 0x091E01DE, 0x02CC5D05, 0xEF46DB3751D8E999) := by decide +kernel

/-- A zlib stream with a fixed block and a match. -/
theorem test_zlib : (zlibStream (bytesOf [120, 218, 75, 76, 74, 78, 68, 66, 17, 0, 52, 12, 6, 23])).bytes
    = bytesOf [97, 98, 99, 97, 98, 99, 97, 98, 99, 97, 98, 99, 97, 98, 99, 88] := by decide +kernel

/-- An LZ4 block: one literal, a match of 5 at distance 1, three literals. -/
theorem test_lz4_block : (lz4Block (bytesOf [0x11, 97, 1, 0, 0x30, 98, 99, 100])).bytes = bytesOf [97, 97, 97, 97, 97, 97, 98, 99, 100] := by decide +kernel

/-- A Zstandard frame of one raw block (RFC 8878). -/
theorem test_zstd_raw : (zstdFrame (bytesOf [0x28, 0xB5, 0x2F, 0xFD, 0x20, 3, 0x19, 0, 0, 97, 98, 99])).bytes = bytesOf [97, 98, 99] := by decide +kernel

/-- SHA-384 of abc (FIPS 180-4). -/
theorem test_sha384 : digestBytes (sha384 (bytesOf [97, 98, 99])) = beBytes 48
    0xcb00753f45a35e8bb5a03d699ac65007272c32ab0eded1631a8b605a43ff5bed8086072ba1e7cc2358baeca134c825a7 := by decide +kernel

/-- The AES S-box (FIPS 197) at 0x00, 0x01, 0x53 and 0xFF. -/
theorem test_aes_sbox : [0, 1, 0x53, 0xFF].map aesSbox = [0x63, 0x7C, 0xED, 0x16] := by decide +kernel

/-! User cores (R277): memory is 64 bytes at 0x10000, readable, writable, and fetched from `code`. -/

def coreMem (code : List Byte) : HartMem :=
  { rd := fun a n => if 0x10000 ≤ a ∧ a + n ≤ 0x10040 then some (List.replicate n 0xFF) else none
    wr := fun a n => decide (0x10000 ≤ a ∧ a + n ≤ 0x10040), atomic := fun a n => decide (0x10000 ≤ a ∧ a + n ≤ 0x10040)
    fetch := fun a n => if a + n ≤ code.length then some (slice code a n) else none }
def coreWord (w : Nat) (h : Hart) : HartOut := hartStep (coreMem (leBytes 4 w)) h
/-- A core with x1 = 7, x2 = 2^64 - 2, x3 = 0x10000. -/
def aCore : Hart := { x := [(1, 7), (2, BitVec.ofNat 64 (2 ^ 64 - 2)), (3, 0x10000)] }
/-- The value register `r` ends with, and the next pc. -/
def HartOut.see (o : HartOut) (r : Nat) : Option (Nat × Nat) := match o with | .next h _ => some (h.xr r, h.pc) | _ => none

/-- addi x5, x1, -8; c.li x5, -1; div x5, x1, x0; jal x5, 8; bltu x1, x2, 16 (RV64GC). -/
theorem test_core_integer :
    [(coreWord 0xFF808293 aCore).see 5, (coreWord 0x52FD aCore).see 5, (coreWord 0x0200C2B3 aCore).see 5,
     (coreWord 0x008002EF aCore).see 5, (coreWord 0x0020E863 aCore).see 5]
      = [some (2 ^ 64 - 1, 4), some (2 ^ 64 - 1, 2), some (2 ^ 64 - 1, 4), some (4, 8), some (0, 16)] := by decide +kernel

/-- lw x5, 4(x3) extends its sign; ld x5, 60(x3) runs off the end; sd x1, 8(x3) stores eight bytes. -/
theorem test_core_memory :
    (coreWord 0x0041A283 aCore).see 5 = some (2 ^ 64 - 1, 4) ∧ coreWord 0x03C1B283 aCore = .trap 5 0x1003C
      ∧ coreWord 0x0011B423 aCore = .next (aCore.retire 4) [(0x10008, leBytes 8 7)] := by decide +kernel

/-- ecall calls; a privileged instruction (mret) and the word 0 are illegal. -/
theorem test_core_system : coreWord 0x73 aCore = .call ∧ coreWord 0x30200073 aCore = .trap 2 0x30200073 ∧ coreWord 0 aCore = .trap 2 0 := by decide +kernel

/-- fadd.d f1, f2, f3 of 1.5 and 2.25 is 3.75. -/
theorem test_core_fadd :
    (match coreWord 0x023170D3 { f := [(2, 0x3FF8000000000000), (3, 0x4002000000000000)] } with | .next h _ => (h.fr 1, h.fflags) | _ => (0, 99))
      = (0x400E000000000000, 0) := by decide +kernel

/-- vsetvli x5, x0, e64, m1 sets vl to VLMAX (VLEN is 256: four elements); vadd.vv v1, v2, v3 then adds them. -/
theorem test_core_vector :
    (coreWord 0x018072D7 aCore).see 5 = some (4, 4)
      ∧ (match coreWord 0x022180D7 { vl := 4, vtype := 0x18, v := [(2, 0x3FFFF0000000000000000), (3, 1)] } with | .next h _ => tval h.v 1 | _ => 0)
        = (0x3FFFF0000000000000001 : BitVec 256) := by decide +kernel

/-! Witnesses of the obligations. -/

theorem witness_IslandRows :
    (∃ (s : State) (t : Transfer), t.src < 72 ∧ t.dst < 72 ∧ t.ctx = none ∧ t.body = .plain ∧ AllAwake [t.dst] s)
    ∧ (∃ (s : State) (t : Transfer), t.src < 72 ∧ t.dst < 72 ∧ t.ctx = none ∧ t.body = .plain ∧ (s.isle t.dst).avail = .isolated)
    ∧ (∃ (s : State) (i : Nat) (p : Nat), 0 < i ∧ i < 72 ∧ s.domOn i = true ∧ p < (s.islPoints i).length ∧ ((s.islPoints i).getD p (0, 0)).2 ≤ s.sramCap ∧ vreqOf ((s.islPoints i).getD p (0, 0)).2 ≤ s.glb.vreqOk ∧ vreqOf ((s.islPoints i).getD p (0, 0)).2 ≤ s.glb.vreqCode)
    ∧ (∃ (s : State) (ch : Nat) (m : Nat), ch < 32 ∧ s.domOn (islDMI (ch / 4)) = true ∧ s.pat.eff.cal.dramMarginPs ≤ m)
    ∧ (∃ (s : State) (ch : Nat) (m : Nat), ch < 32 ∧ s.domOn (islDMI (ch / 4)) = true ∧ m < s.pat.eff.cal.dramMarginPs)
    ∧ (∃ (s : State) (k : Nat), k < 4096 ∧ (s.route k).state = .binding ∧ (s.route k).pend = false ∧ s.flt.safe = false ∧ s.flt.ctlReset = false) := by
  refine ⟨⟨up, { src := 71, dst := 71 }, by unfold AllAwake; decide +kernel⟩,
    ⟨up.setIsl 71 {}, { src := 0, dst := 71 }, by decide +kernel⟩,
    ⟨up, 71, 0, by decide +kernel⟩,
    ⟨up, 31, 5, by decide +kernel⟩,
    ⟨up, 31, 4, by decide +kernel⟩,
    ⟨{ up with routes := [(4095, { state := .binding })] }, 4095, by decide +kernel⟩⟩

theorem witness_IntakeRows :
    (∃ (s : State) (p : Nat) (sl : Nat) (qid : Nat) (v : Nat) (k : Nat), p < 2 ∧ sl < 2048 ∧ qid < 1536 ∧ s.liveOn p sl = true ∧ s.flt.safe = false ∧ (s.port p).tlpHeld = false ∧ s.trickle.tstate = 0 ∧ AllAwake [islHFE] s ∧ s.dqOf p sl qid = some k ∧ (s.queue k).sqOn = true ∧ v < 65536 ∧ v < (s.queue k).sqSize)
    ∧ (∃ (s : State) (p : Nat) (sl : Nat) (qid : Nat) (v : Nat) (k : Nat), p < 2 ∧ sl < 2048 ∧ qid < 1536 ∧ s.liveOn p sl = true ∧ s.flt.safe = false ∧ (s.port p).tlpHeld = false ∧ s.trickle.tstate = 0 ∧ AllAwake [islHFE] s ∧ s.dqOf p sl qid = some k ∧ (s.queue k).cqOn = true ∧ v < 65536 ∧ v < (s.queue k).cqSize ∧ ringDist (s.queue k).cqSize (s.queue k).cqHead v ≤ ringDist (s.queue k).cqSize (s.queue k).cqHead (s.queue k).cqTail)
    ∧ (∃ (s : State) (p : Nat) (sl : Nat) (qid : Nat), p < 2 ∧ sl < 2048 ∧ qid < 1536 ∧ s.liveOn p sl = false)
    ∧ (∃ (s : State) (dq : Nat) (c : Nat) (e : Sqe), dq ≤ 18432 ∧ s.mayFetch dq = true ∧ s.fetchTurn (s.queue dq) = true ∧ s.fetchAwake ((s.queue dq).qid == 0) = true ∧ s.ctxFor dq = some c ∧ (s.queue dq).qid ≠ 0 ∧ 0 < (s.queue dq).sqSize ∧ s.ioErr e = none)
    ∧ (∃ (s : State) (dq : Nat) (c : Nat) (e : Sqe), dq ≤ 18432 ∧ s.mayFetch dq = true ∧ s.fetchAwake true = true ∧ s.ctxFor dq = some c ∧ (s.queue dq).qid = 0 ∧ s.adminErr (s.queue dq).slice (s.queue dq).port e = none)
    ∧ (∃ (s : State) (dq : Nat), dq ≤ 18432 ∧ s.mayFetch dq = true)
    ∧ (∃ (s : State) (c : Nat) (x : Ctx), c < 65536 ∧ s.ctx? c = some x ∧ x.pointersOpen = true ∧ s.flt.safe = false)
    ∧ (∃ (s : State) (k : Nat) (x : CometStream), k < 4096 ∧ tget s.cmd.streams k = some x ∧ x.stale s.nowMs = true) := by
  refine ⟨⟨{ up with cmd := { up.cmd with queues := [(2048, { qid := 1535, sqOn := true, sqSize := 65536 })] } }, 0, 0, 1535, 65535, 2048, by unfold AllAwake; decide +kernel⟩,
    ⟨{ up with cmd := { up.cmd with queues := [(2048, { qid := 1535, cqOn := true, cqSize := 65536, cqTail := 65535 })] } }, 0, 0, 1535, 65535, 2048, by unfold AllAwake; decide +kernel⟩,
    ⟨up, 0, 2047, 1535, by decide +kernel⟩,
    ⟨{ up with cmd := { up.cmd with queues := [(2048, { qid := 1, sqOn := true, sqSize := 2, tail := 1 })] } }, 2048, 0, { opc := opFlush, nsid := 1 }, by decide +kernel⟩,
    ⟨{ up with cmd := { up.cmd with queues := [(0, { sqOn := true, sqSize := 2, tail := 1 })] } }, 0, 0, { opc := 0x06, cdw10 := 1 }, by decide +kernel⟩,
    ⟨{ up with cmd := { up.cmd with queues := [(18432, { sqOn := true, sqSize := 2, tail := 1 })] } }, 18432, by decide +kernel⟩,
    ⟨io { stage := 12, opc := opRead }, 65535, (io { stage := 12, opc := opRead }).ctx 65535, by decide +kernel⟩,
    ⟨{ up with epoch := 10 ^ 12, cmd := { up.cmd with streams := [(4095, { cached := [{}] })] } }, 4095, { cached := [{}] }, by decide +kernel⟩⟩

theorem witness_PipelineRows :
    (∃ (s : State) (c : Nat) (x : Ctx), c < 65536 ∧ s.ctx? c = some x ∧ x.stage = 7 ∧ s.flt.safe = false ∧ s.lockBlocker x = none)
    ∧ (∃ (s : State) (c : Nat) (x : Ctx), c < 65536 ∧ s.ctx? c = some x ∧ x.stage = 8 ∧ s.flt.safe = false ∧ s.job? c = none ∧ x.wdata = [] ∧ (s.route x.route).state = .bound)
    ∧ (∃ (s : State) (c : Nat) (x : Ctx), c < 65536 ∧ s.ctx? c = some x ∧ x.stage = 8 ∧ s.flt.safe = false ∧ ((s.route x.route).state = .free ∨ (s.route x.route).state = .draining))
    ∧ (∃ (s : State) (c : Nat) (x : Ctx), c < 65536 ∧ s.ctx? c = some x ∧ x.stage = 8 ∧ s.flt.safe = false ∧ (s.route x.route).state = .binding)
    ∧ (∃ (s : State) (c : Nat) (x : Ctx), c < 65536 ∧ s.ctx? c = some x ∧ x.moving = true ∧ s.flt.safe = false ∧ x.opc = opRead ∧ x.route = 0 ∧ x.unitsDone = true ∧ x.unitFail = none ∧ piCheck (s.ns x.nsid) x.sqe 0 x.readData = none)
    ∧ (∃ (s : State) (c : Nat) (x : Ctx), c < 65536 ∧ s.ctx? c = some x ∧ x.moving = true ∧ s.flt.safe = false)
    ∧ (∃ (s : State) (t : State) (c : Nat) (x : Ctx) (r : Resv), c < 65536 ∧ s.ctx? c = some x ∧ x.stage = 10 ∧ x.wait = 5 ∧ x.committed = false ∧ s.flt.safe = false ∧ x.opc = opWrite ∧ (s.ns x.nsid).zoned = true ∧ s.overLimit (s.nsCls x.nsid).set x.wdata.length = false ∧ x.resv = some r ∧ x.void.contains r.ent = false ∧ s.zoneRowsFor r.ent = some t)
    ∧ (∃ (s : State) (c : Nat) (x : Ctx), c < 65536 ∧ s.ctx? c = some x ∧ x.stage = 13 ∧ x.admin = false ∧ x.committed = false ∧ s.flt.safe = false ∧ x.opc = opRead ∧ x.ordered = false ∧ x.killed = false ∧ x.ents = [] ∧ s.fails c = false ∧ s.commitHold c = none ∧ s.genStale x = false)
    ∧ (∃ (s : State) (c : Nat) (k : Nat) (x : Ctx), c < 65536 ∧ s.ctx? c = some x ∧ s.mayPost x = true ∧ s.mic.halted.contains c = false ∧ s.cqOf (s.queue x.dq) = some k ∧ (s.queue k).cqFull = false ∧ s.fwu.activating = none)
    ∧ (∃ (s : State) (dq : Nat), dq ≤ 18432 ∧ (s.queue dq).cqOn = true ∧ 0 < (s.queue dq).coal ∧ (s.queue dq).slice = 0 ∧ (s.port (s.queue dq).port).msixMask = false ∧ (s.port (s.queue dq).port).msixEn = true ∧ (tval (s.port (s.queue dq).port).msix (s.queue dq).vector : MsgEnt).mask = false ∧ s.flt.safe = false ∧ (s.port (s.queue dq).port).carries = true ∧ (s.port (s.queue dq).port).tlpHeld = false) := by
  refine ⟨⟨io { stage := 7, opc := opRead }, 65535, (io { stage := 7, opc := opRead }).ctx 65535, by decide +kernel⟩,
    ⟨io { stage := 8, opc := opRead } { up with routes := [(0, { state := .bound })] }, 65535, (io { stage := 8, opc := opRead } { up with routes := [(0, { state := .bound })] }).ctx 65535, by decide +kernel⟩,
    ⟨io { stage := 8, opc := opRead, route := 4095 }, 65535, (io { stage := 8, opc := opRead, route := 4095 }).ctx 65535, by decide +kernel⟩,
    ⟨io { stage := 8, opc := opRead } { up with routes := [(0, { state := .binding })] }, 65535, (io { stage := 8, opc := opRead } { up with routes := [(0, { state := .binding })] }).ctx 65535, by decide +kernel⟩,
    ⟨io { stage := 9, opc := opRead }, 65535, (io { stage := 9, opc := opRead }).ctx 65535, by decide +kernel⟩,
    ⟨io { stage := 10, opc := opRead }, 65535, (io { stage := 10, opc := opRead }).ctx 65535, by decide +kernel⟩,
    ⟨io { stage := 10, wait := 5, opc := opWrite, nsid := 8, resv := some { ent := 5 } } { up with zon := { up.zon with nss := [(8, { zoned := true })], ents := [(5, { state := .full })] } }, (State.zoneRowsFor (io { stage := 10, wait := 5, opc := opWrite, nsid := 8, resv := some { ent := 5 } } { up with zon := { up.zon with nss := [(8, { zoned := true })], ents := [(5, { state := .full })] } }) 5).getD {}, 65535, (io { stage := 10, wait := 5, opc := opWrite, nsid := 8, resv := some { ent := 5 } } { up with zon := { up.zon with nss := [(8, { zoned := true })], ents := [(5, { state := .full })] } }).ctx 65535, { ent := 5 }, by decide +kernel⟩,
    ⟨io { stage := 13, opc := opRead, outc := some (okOut 0) }, 65535, (io { stage := 13, opc := opRead, outc := some (okOut 0) }).ctx 65535, by decide +kernel⟩,
    ⟨io { stage := 14, committed := true, cid := 7, outc := some (okOut 0) } { up with cmd := { up.cmd with queues := [(0, { cqOn := true, cqSize := 2 })] } }, 65535, 0, (io { stage := 14, committed := true, cid := 7, outc := some (okOut 0) } { up with cmd := { up.cmd with queues := [(0, { cqOn := true, cqSize := 2 })] } }).ctx 65535, by decide +kernel⟩,
    ⟨{ up with ports := [(0, { lstate := .up, msixEn := true, msix := [(15, { mask := false })] })], cmd := { up.cmd with queues := [(18432, { cqOn := true, coal := 1, vector := 15 })] } }, 18432, by decide +kernel⟩⟩

theorem witness_SessionRows :
    (∃ (s : State) (c : Nat) (k : Nat), c < 65536 ∧ s.adminTurn c 0xC2 = true ∧ roleKey (s.ctx c).who ((s.ctx c).sqe.cdw10.toNat % 4) ((s.ctx c).sqe.cdw10.toNat / 256 % 256) = some k ∧ (s.key k).key ≠ [] ∧ s.lockEnd (s.key k) = none)
    ∧ (∃ (s : State) (c : Nat), c < 65536 ∧ s.adminTurn c 0xC5 = true ∧ s.sec.challenges.find? (fun e => e.who == (s.ctx c).who && s.challengeLive e) = none)
    ∧ (∃ (s : State) (c : Nat) (i : Nat) (mac : List Byte) (ch : Challenge), c < 65536 ∧ s.adminTurn c 0xC5 = true ∧ s.sec.challenges.find? (fun e => e.who == (s.ctx c).who && s.challengeLive e) = some ch ∧ (s.key ch.key).key ≠ [] ∧ s.lockEnd (s.key ch.key) = none ∧ tfree s.sec.sessions 0 256 = some i ∧ slice mac 0 48 = digestBytes (hmac384 (s.key ch.key).key (macBytes ch)))
    ∧ (∃ (s : State) (c : Nat) (i : Nat) (mac : List Byte) (ch : Challenge), c < 65536 ∧ s.adminTurn c 0xC5 = true ∧ s.sec.challenges.find? (fun e => e.who == (s.ctx c).who && s.challengeLive e) = some ch ∧ (s.key ch.key).key ≠ [] ∧ s.lockEnd (s.key ch.key) = none ∧ tfree s.sec.sessions 0 256 = some i ∧ slice mac 0 48 ≠ digestBytes (hmac384 (s.key ch.key).key (macBytes ch)))
    ∧ (∃ (s : State) (c : Nat), c < 65536 ∧ s.adminTurn c 0xC8 = true)
    ∧ (∃ (r : Requester), requesterOk r = true)
    ∧ (∃ (s : State) (k : Nat), keyOk k = true ∧ s.lockEnd (s.key k) = none) := by
  refine ⟨⟨{ adm 0xC2 { cdw10 := 0x700 } with sec := { (adm 0xC2 { cdw10 := 0x700 }).sec with keys := [(7, { key := [1] })] } }, 65535, 7, by decide +kernel⟩,
    ⟨adm 0xC5 {}, 65535, by decide +kernel⟩,
    ⟨{ adm 0xC5 {} with sec := { (adm 0xC5 {}).sec with challenges := [{ key := 7, nonce := List.replicate 32 7, counter := 2 }], keys := [(7, { key := [1] })] } }, 65535, 0, digestBytes (hmac384 [1] (macBytes { key := 7, nonce := List.replicate 32 7, counter := 2 })), { key := 7, nonce := List.replicate 32 7, counter := 2 }, by 
      refine ⟨by decide, by decide +kernel, by decide +kernel, by decide +kernel, by decide +kernel, by decide +kernel, ?_⟩
      exact slice_digest _⟩,
    ⟨{ adm 0xC5 {} with sec := { (adm 0xC5 {}).sec with challenges := [{ key := 7, nonce := List.replicate 32 7, counter := 2 }], keys := [(7, { key := [1] })] } }, 65535, 0, [], { key := 7, nonce := List.replicate 32 7, counter := 2 }, by 
      refine ⟨by decide, by decide +kernel, by decide +kernel, by decide +kernel, by decide +kernel, by decide +kernel, ?_⟩
      exact nil_ne_digest _⟩,
    ⟨adm 0xC8 {}, 65535, by decide +kernel⟩,
    ⟨.mctp 255, by decide +kernel⟩,
    ⟨{ up with sec := { (up).sec with keys := [(1, { lockUntil := some 0 })] } }, 1, by decide +kernel⟩⟩

theorem witness_KeyRows :
    (∃ (s : State) (c : Nat), c < 65536 ∧ s.subTurn c 0xCD (fun q => q.cdw10.toNat % 16 == 3) = true ∧ keyRefusal s ((s.ctx c).sqe.cdw11.toNat % 65536) = none)
    ∧ (∃ (s : State) (c : Nat), c < 65536 ∧ s.subTurn c 0xCD (fun q => q.cdw10.toNat % 16 == 4) = true ∧ keyRefusal s ((s.ctx c).sqe.cdw11.toNat % 65536) = none)
    ∧ (∃ (s : State) (c : Nat) (r : Nat), c < 65536 ∧ s.subTurn c 0xCD (fun q => q.cdw10.toNat % 16 == 4) = true ∧ keyRefusal s ((s.ctx c).sqe.cdw11.toNat % 65536) = some r)
    ∧ (∃ (s : State) (c : Nat) (r : Nat), c < 65536 ∧ s.subTurn c 0xCD (fun q => q.cdw10.toNat % 16 == 3) = true ∧ keyRefusal s ((s.ctx c).sqe.cdw11.toNat % 65536) = some r)
    ∧ (∃ (cls : Nat), cls < 16)
    ∧ (∃ (p : Nat) (v : Nat), p < 2 ^ 20 ∧ v < 2 ^ 11)
    ∧ (∃ (s : State) (c : Nat) (b : SliceBuf) (t : SliceTmpl), c < 65536 ∧ s.subTurn c 0xCD (fun q => q.cdw10.toNat % 16 == 0) = true ∧ b.reserved = 0 ∧ b.pasid < 2 ^ 20 ∧ 0 < b.slice ∧ b.slice ≤ 2047 ∧ s.sliceLive b.slice = false ∧ s.pasidUsed b.pasid = false ∧ s.pat.eff.slices.find? (fun t => t.id == b.template) = some t ∧ s.portList.contains b.port = true ∧ s.qpairSum + t.qpairs ≤ 16384)
    ∧ (∃ (s : State) (c : Nat) (b : SliceBuf), c < 65536 ∧ s.subTurn c 0xCD (fun q => q.cdw10.toNat % 16 == 0) = true ∧ b.reserved = 0 ∧ b.pasid < 2 ^ 20 ∧ b.slice < 65535 ∧ s.sliceLive b.slice = true) := by
  refine ⟨⟨adm 0xCD { cdw10 := 3, cdw11 := 15 }, 65535, by decide +kernel⟩,
    ⟨adm 0xCD { cdw10 := 4, cdw11 := 15 }, 65535, by decide +kernel⟩,
    ⟨adm 0xCD { cdw10 := 4, cdw11 := 16 }, 65535, 9, by decide +kernel⟩,
    ⟨adm 0xCD { cdw10 := 3, cdw11 := 65535 }, 65535, 9, by decide +kernel⟩,
    ⟨15, by decide +kernel⟩,
    ⟨65535, 9, by decide +kernel⟩,
    ⟨adm 0xCD {}, 65535, { slice := 2047, pasid := 2 ^ 20 - 1 }, { keys := 1 }, by decide +kernel⟩,
    ⟨adm 0xCD {} { up with sli := up.sli ++ [(2047, { state := .created })] }, 65535, { slice := 2047, pasid := 2 ^ 20 - 1 }, by decide +kernel⟩⟩

theorem witness_SliceResetRows :
    (∃ (s : State) (c : Nat), c < 65536 ∧ s.subTurn c 0xCD (fun q => q.cdw10.toNat % 16 == 1) = true ∧ s.sliceRefusal (sliceArg (s.ctx c).sqe) = none ∧ s.sliceCtxs (sliceArg (s.ctx c).sqe) (s.slc (sliceArg (s.ctx c).sqe)).port = [])
    ∧ (∃ (s : State) (c : Nat) (o : Outc), c < 65536 ∧ s.subTurn c 0xCD (fun q => q.cdw10.toNat % 16 == 1) = true ∧ s.sliceRefusal (sliceArg (s.ctx c).sqe) = some o)
    ∧ (∃ (s : State) (c : Nat), c < 65536 ∧ s.subTurn c 0xCD (fun q => q.cdw10.toNat % 16 == 2) = true ∧ s.sliceRefusal (sliceArg (s.ctx c).sqe) = none ∧ s.sliceCtxs (sliceArg (s.ctx c).sqe) (s.slc (sliceArg (s.ctx c).sqe)).port = [] ∧ (bitAt (s.ctx c).sqe.cdw11.toNat 0 = true → s.reassignRefusal (sliceArg (s.ctx c).sqe) ((s.ctx c).sqe.cdw11.toNat / 65536 % 2048) = none))
    ∧ (∃ (s : State) (c : Nat) (o : Outc), c < 65536 ∧ s.subTurn c 0xCD (fun q => q.cdw10.toNat % 16 == 2) = true ∧ s.sliceRefusal (sliceArg (s.ctx c).sqe) = some o)
    ∧ (∃ (s : State) (sl : Nat) (r : ResetRun), sliceOk sl = true ∧ (s.slc sl).resets = [(r.port, r)] ∧ (s.slc sl).oldItems = 0 ∧ r.remove = false ∧ r.isSlice = true ∧ (s.slc sl).state ≠ .removing ∧ sl ≠ 0)
    ∧ (∃ (s : State) (sl : Nat), sliceOk sl = true ∧ ((s.slc sl).resets = [] ∨ (s.slc sl).oldItems ≠ 0))
    ∧ (∃ (s : State) (sl : Nat) (isl : Nat) (unit : Nat) (c : Nat) (r : ResetRun), sliceOk sl = true ∧ 34 ≤ isl ∧ isl < 72 ∧ unit < 256 ∧ (s.slc sl).resets = [(r.port, r)] ∧ r.started + 20 ≤ s.nowMs ∧ r.remove = false ∧ r.isSlice = false ∧ sl ≠ 0 ∧ (s.slc sl).oldItems ≠ 0 ∧ (s.slc sl).stale = [(isl, unit, c)] ∧ s.liveJobs = [] ∧ (s.isle isl).held = []) := by
  refine ⟨⟨adm 0xCD { cdw10 := 0x7FF0001 } { up with sli := up.sli ++ [(2047, { state := .created })] }, 65535, by decide +kernel⟩,
    ⟨adm 0xCD { cdw10 := 1 }, 65535, errOut .invalidField, by decide +kernel⟩,
    ⟨adm 0xCD { cdw10 := 0x7FF0002 } { up with sli := up.sli ++ [(2047, { state := .created })] }, 65535, by decide +kernel⟩,
    ⟨adm 0xCD { cdw10 := 2 }, 65535, errOut .invalidField, by decide +kernel⟩,
    ⟨{ up with sli := up.sli ++ [(2047, { state := .resetting, resets := [(1, { isSlice := true, port := 1 })] })] }, 2047, { isSlice := true, port := 1 }, by decide +kernel⟩,
    ⟨up, 2047, by decide +kernel⟩,
    ⟨{ up with epoch := 10 ^ 12, sli := up.sli ++ [(2047, { state := .enabled, oldItems := 1, resets := [(1, { port := 1, started := 10 ^ 11 - 20 })], stale := [(71, 255, 65535)] })] }, 2047, 71, 255, 65535, { port := 1, started := 10 ^ 11 - 20 }, by decide +kernel⟩⟩

theorem witness_ControllerRows :
    (∃ (s : State) (p : Nat) (sl : Nat), portSliceOk p sl = true ∧ s.flt.safe = false ∧ s.mayEnable p sl = true)
    ∧ (∃ (s : State) (p : Nat) (sl : Nat), portSliceOk p sl = true ∧ s.flt.safe = false ∧ s.liveOn p sl = true ∧ (s.ctrl (ctrlKey p sl)).en = true ∧ tget (s.slc sl).resets p = none ∧ (sl ≠ 0 ∨ p ≠ 0 ∨ s.nextSlot? = none) ∧ s.sliceCtxs sl p = [] ∧ (s.slc sl).state = .enabled)
    ∧ (∃ (s : State) (p : Nat) (sl : Nat), portSliceOk p sl = true ∧ s.flt.safe = false ∧ s.liveOn p sl = true ∧ (s.ctrl (ctrlKey p sl)).en = true ∧ (s.ctrl (ctrlKey p sl)).shst = 0 ∧ s.holdup = true)
    ∧ (∃ (s : State) (p : Nat) (sl : Nat) (i : Instr), i ∈ [Instr.controllerReset p sl, .shutdownNotification p sl, .controllerEnable p sl true, .controllerEnable p sl false] ∧ portSliceOk p sl = true ∧ (s.flt.safe = true ∨ s.liveOn p sl = false)) := by
  refine ⟨⟨{ up with cmd := {} }, 1, 0, by decide +kernel⟩,
    ⟨up, 0, 0, by decide +kernel⟩,
    ⟨{ up with pat := { eff := { testPat with power := { holdupUs := 200, pfailWired := true } } } }, 0, 0, by decide +kernel⟩,
    ⟨{ up with flt := { up.flt with safe := true } }, 1, 0, .controllerEnable 1 0 false, by decide +kernel⟩⟩

theorem witness_MailboxRows :
    (∃ (s : State) (sl : Nat) (p : Nat) (v : Nat), portSliceOk p sl = true ∧ s.liveOn p sl = true ∧ s.flt.safe = false ∧ v % 2 = 1 ∧ AllAwake [islCTL] s ∧ mbKnown (parseMsg (s.slc sl).mbIn).typ = true ∧ u16 (s.slc sl).mbIn 2 ≤ 4064)
    ∧ (∃ (s : State) (sl : Nat) (p : Nat) (v : Nat), portSliceOk p sl = true ∧ (s.flt.safe = true ∨ s.liveOn p sl = false ∨ v % 2 = 0))
    ∧ (∃ (s : State) (sl : Nat) (p : Nat) (v : Nat), portSliceOk p sl = true ∧ s.liveOn p sl = true ∧ s.flt.safe = false ∧ v % 2 = 1 ∧ (s.slc sl).mbOut = none)
    ∧ (∃ (s : State) (sl : Nat) (p : Nat) (v : Nat) (m : MbMsg), portSliceOk p sl = true ∧ s.liveOn p sl = true ∧ s.flt.safe = false ∧ v % 2 = 1 ∧ (s.slc sl).mbOut = some m ∧ (s.slc sl).mbQueue = [])
    ∧ (∃ (s : State) (sl : Nat) (p : Nat) (v : Nat) (m : MbMsg) (n : MbMsg) (t : List MbMsg), portSliceOk p sl = true ∧ s.liveOn p sl = true ∧ s.flt.safe = false ∧ v % 2 = 1 ∧ (s.slc sl).mbOut = some m ∧ (s.slc sl).mbQueue = n :: t)
    ∧ (∃ (s : State) (sl : Nat) (m : MbMsg), sliceOk sl = true ∧ s.mbHead sl (· == 0x01) = some m ∧ (sl = 0 ∨ m.peer = sl) ∧ s.sliceLive m.peer = true ∧ (s.slc sl).mbOut = none)
    ∧ (∃ (s : State) (m : MbMsg), s.mbHead 0 (· == 0x02) = some m ∧ s.hasSession (.ctrl 0 m.port) 0 = true ∧ s.sliceLive m.peer = true ∧ 20 ≤ m.payload.length ∧ (s.slc m.peer).inReset = false ∧ (s.slc m.peer).state ≠ .removing ∧ sharesOk (s.shareNew m.peer m.payload).1 = true ∧ m.peer ≠ 0)
    ∧ (∃ (s : State) (m : MbMsg), s.mbHead 0 (· == 0x02) = some m ∧ s.hasSession (.ctrl 0 m.port) 0 = false ∧ (s.slc 0).mbOut = none)
    ∧ (∃ (s : State) (m : MbMsg), s.mbHead 0 (· == 0x02) = some m ∧ s.hasSession (.ctrl 0 m.port) 0 = true ∧ s.sliceLive m.peer = true ∧ 20 ≤ m.payload.length ∧ ((s.slc m.peer).inReset = true ∨ (s.slc m.peer).state = .removing) ∧ (s.slc 0).mbOut = none)
    ∧ (∃ (s : State) (sl : Nat) (m : MbMsg), sliceOk sl = true ∧ sl ≠ 0 ∧ s.mbHead sl (fun t => decide (0x40 ≤ t) && decide (t ≤ 0x7F)) = some m ∧ s.sliceLive 0 = true ∧ (s.slc 0).state ≠ .resetting ∧ (s.slc 0).state ≠ .removing ∧ s.mbFull 0 = false ∧ (s.slc 0).mbOut = none)
    ∧ (∃ (s : State) (m : MbMsg), s.mbHead 0 (fun t => decide (0x40 ≤ t) && decide (t ≤ 0x7F)) = some m ∧ m.peer ≠ 0 ∧ s.sliceLive m.peer = true ∧ (s.slc m.peer).state ≠ .resetting ∧ (s.slc m.peer).state ≠ .removing ∧ s.mbFull m.peer = true ∧ (s.slc 0).mbOut = none) := by
  refine ⟨⟨{ up with sli := [(0, { state := .enabled, mbIn := [1, 0, 0xE0, 0x0F] })] }, 0, 1, 1, by unfold AllAwake; decide +kernel⟩,
    ⟨up, 2047, 1, 1, by decide +kernel⟩,
    ⟨{ up with sli := [(0, { state := .enabled, mbIn := [1, 0, 0xE0, 0x0F] })] }, 0, 1, 1, by decide +kernel⟩,
    ⟨{ up with sli := [(0, { state := .enabled, mbOut := some {} })] }, 0, 1, 1, {}, by decide +kernel⟩,
    ⟨{ up with sli := [(0, { state := .enabled, mbOut := some {}, mbQueue := [{ typ := 1 }] })] }, 0, 1, 1, {}, { typ := 1 }, [], by decide +kernel⟩,
    ⟨{ up with sli := up.sli ++ [(2047, { state := .created, mbReqs := [{ typ := 1, peer := 2047 }] })] }, 2047, { typ := 1, peer := 2047 }, by decide +kernel⟩,
    ⟨{ { up with sli := [(0, { state := .enabled, mbReqs := [{ typ := 2, peer := 2047, payload := [1, 0, 0, 0, 0, 0, 0, 0, 1, 0, 0, 0, 0, 0, 0, 0, 0, 0, 0, 0] }] }), (2047, { state := .created })] } with sec := { ({ up with sli := [(0, { state := .enabled, mbReqs := [{ typ := 2, peer := 2047, payload := [1, 0, 0, 0, 0, 0, 0, 0, 1, 0, 0, 0, 0, 0, 0, 0, 0, 0, 0, 0] }] }), (2047, { state := .created })] }).sec with sessions := [(0, {})] } }, { typ := 2, peer := 2047, payload := [1, 0, 0, 0, 0, 0, 0, 0, 1, 0, 0, 0, 0, 0, 0, 0, 0, 0, 0, 0] }, by decide +kernel⟩,
    ⟨{ up with sli := [(0, { state := .enabled, mbReqs := [{ typ := 2 }] })] }, { typ := 2 }, by decide +kernel⟩,
    ⟨{ { up with sli := [(0, { state := .enabled, mbReqs := [{ typ := 2, peer := 2047, port := 1, payload := List.replicate 20 0 }] }), (2047, { state := .removing })] } with sec := { ({ up with sli := [(0, { state := .enabled, mbReqs := [{ typ := 2, peer := 2047, port := 1, payload := List.replicate 20 0 }] }), (2047, { state := .removing })] }).sec with sessions := [(0, { who := .ctrl 0 1 })] } }, { typ := 2, peer := 2047, port := 1, payload := List.replicate 20 0 }, by decide +kernel⟩,
    ⟨{ up with sli := up.sli ++ [(2047, { state := .created, mbReqs := [{ typ := 0x7F }] })] }, 2047, { typ := 0x7F }, by decide +kernel⟩,
    ⟨{ up with sli := [(0, { state := .enabled, mbReqs := [{ typ := 0x40, peer := 2047 }] }), (2047, { state := .created, mbQueue := List.replicate 16 {} })] }, { typ := 0x40, peer := 2047 }, by decide +kernel⟩⟩

theorem witness_OwnershipRows :
    (∃ (s : State) (c : Nat), c < 65536 ∧ s.subTurn c 0xD8 (fun q => q.cdw10.toNat % 16 == 0) = true ∧ s.ns? (s.ctx c).nsid ≠ none)
    ∧ (∃ (s : State) (c : Nat), c < 65536 ∧ s.subTurn c 0xD8 (fun q => q.cdw10.toNat % 16 == 0) = true ∧ s.ns? (s.ctx c).nsid = none)
    ∧ (∃ (s : State) (c : Nat), c < 65536 ∧ s.subTurn c 0xD8 (fun q => q.cdw10.toNat % 16 == 1) = true ∧ s.ns? (s.ctx c).nsid ≠ none ∧ s.pat.eff.host.split = 1 ∧ (s.ns (s.ctx c).nsid).own = .owned (s.ctx c).port ∧ (s.ns (s.ctx c).nsid).release = none ∧ s.admittedWrites (s.ctx c).nsid (s.ctx c).port = false)
    ∧ (∃ (s : State) (c : Nat), c < 65536 ∧ s.subTurn c 0xD8 (fun q => q.cdw10.toNat % 16 == 1) = true ∧ s.ns? (s.ctx c).nsid ≠ none ∧ s.pat.eff.host.split = 1 ∧ (s.ns (s.ctx c).nsid).own = .owned (s.ctx c).port ∧ (s.ns (s.ctx c).nsid).release = none ∧ s.admittedWrites (s.ctx c).nsid (s.ctx c).port = true)
    ∧ (∃ (s : State) (c : Nat) (q : Nat), c < 65536 ∧ s.subTurn c 0xD8 (fun q => q.cdw10.toNat % 16 == 2) = true ∧ s.ns? (s.ctx c).nsid ≠ none ∧ s.pat.eff.host.split = 1 ∧ (s.ns (s.ctx c).nsid).own = .released q)
    ∧ (∃ (s : State) (c : Nat) (p : Nat), c < 65536 ∧ s.subTurn c 0xD8 (fun q => q.cdw10.toNat % 16 == 3) = true ∧ s.ns? (s.ctx c).nsid ≠ none ∧ s.pat.eff.host.split = 1 ∧ (s.ns (s.ctx c).nsid).own = .owned p ∧ p ≠ (s.ctx c).port ∧ s.leaseLive p = false ∧ (s.ns (s.ctx c).nsid).lockUntil.any (fun t => decide (s.nowMs < t)) = false ∧ (s.ns (s.ctx c).nsid).fkey ≠ 0 ∧ (s.ns (s.ctx c).nsid).fkey = fkeyArg (s.ctx c).sqe ∧ (s.ns (s.ctx c).nsid).release = none ∧ s.admittedWrites (s.ctx c).nsid p = false)
    ∧ (∃ (s : State) (c : Nat) (p : Nat), c < 65536 ∧ s.subTurn c 0xD8 (fun q => q.cdw10.toNat % 16 == 3) = true ∧ s.ns? (s.ctx c).nsid ≠ none ∧ s.pat.eff.host.split = 1 ∧ (s.ns (s.ctx c).nsid).own = .owned p ∧ p ≠ (s.ctx c).port ∧ s.leaseLive p = true)
    ∧ (∃ (s : State) (c : Nat), c < 65536 ∧ s.subTurn c 0xD8 (fun q => q.cdw10.toNat % 16 == 4) = true ∧ s.ns? (s.ctx c).nsid ≠ none ∧ s.pat.eff.host.split = 1 ∧ (s.ns (s.ctx c).nsid).own = .owned (s.ctx c).port)
    ∧ (∃ (s : State) (c : Nat), c < 65536 ∧ s.subTurn c 0xD8 (fun q => q.cdw10.toNat % 16 == 5) = true ∧ s.ns? (s.ctx c).nsid ≠ none ∧ s.pat.eff.host.split = 1 ∧ (s.ns (s.ctx c).nsid).own = .owned (s.ctx c).port)
    ∧ (∃ (s : State) (c : Nat), c < 65536 ∧ s.subTurn c 0xD8 (fun q => q.cdw10.toNat % 16 == 6) = true ∧ s.ns? (s.ctx c).nsid ≠ none ∧ s.pat.eff.host.split = 1 ∧ (s.ns (s.ctx c).nsid).own = .owned (s.ctx c).port)
    ∧ (∃ (s : State) (c : Nat) (q : Nat) (f : Nat × Instr), c < 65536 ∧ f ∈ [(4, .setSharedRead c), (5, .clearSharedRead c), (6, .setFencingKey c)] ∧ s.subTurn c 0xD8 (fun e => e.cdw10.toNat % 16 == f.1) = true ∧ s.ns? (s.ctx c).nsid ≠ none ∧ s.pat.eff.host.split ≠ 0 ∧ (s.ns (s.ctx c).nsid).own = .owned q ∧ q ≠ (s.ctx c).port)
    ∧ (∃ (s : State) (c : Nat) (f : Nat × Instr), c < 65536 ∧ f ∈ [(1, .portOwnershipRelease c), (2, .portOwnershipAcquire c), (3, .portOwnershipTakeover c), (4, .setSharedRead c), (5, .clearSharedRead c), (6, .setFencingKey c)] ∧ s.subTurn c 0xD8 (fun e => e.cdw10.toNat % 16 == f.1) = true ∧ s.ns? (s.ctx c).nsid ≠ none ∧ s.pat.eff.host.split = 0)
    ∧ (∃ (s : State) (n : Nat), nsOk n = true ∧ s.ns? n ≠ none ∧ (s.ns n).lockUntil.any (fun t => decide (s.nowMs < t)) = false) := by
  refine ⟨⟨adm 0xD8 { nsid := 8, cdw10 := 0 } { up with zon := { up.zon with nss := [(8, {})] } }, 65535, by decide +kernel⟩,
    ⟨adm 0xD8 { nsid := 8 }, 65535, by decide +kernel⟩,
    ⟨adm 0xD8 { nsid := 8, cdw10 := 1 } { up with zon := { up.zon with nss := [(8, {})] } }, 65535, by decide +kernel⟩,
    ⟨adm 0xD8 { nsid := 8, cdw10 := 1 } (State.setCtx { up with zon := { up.zon with nss := [(8, {})] } } 0 { stage := 9, opc := opWrite, nsid := 8 }), 65535, by decide +kernel⟩,
    ⟨adm 0xD8 { nsid := 8, cdw10 := 2 } { up with zon := { up.zon with nss := [(8, { own := .released 1 })] } }, 65535, 1, by decide +kernel⟩,
    ⟨adm 0xD8 { nsid := 8, cdw10 := 3, cdw12 := 7 } { up with ports := [], zon := { up.zon with nss := [(8, { own := .owned 1, fkey := 7 })] } }, 65535, 1, by decide +kernel⟩,
    ⟨io { stage := 5, admin := true, opc := 0xD8, nsid := 8, port := 1, sqe := { cdw10 := 3, nsid := 8 } } { up with zon := { up.zon with nss := [(8, { attached := [0], own := .owned 0 })] }, ports := [(0, { lstate := .up, live := true, leaseEnd := 2000 }), (1, { lstate := .up, live := true, leaseEnd := 2000 })] }, 65535, 0, by decide +kernel⟩,
    ⟨adm 0xD8 { nsid := 8, cdw10 := 4 } { up with zon := { up.zon with nss := [(8, {})] } }, 65535, by decide +kernel⟩,
    ⟨adm 0xD8 { nsid := 8, cdw10 := 5 } { up with zon := { up.zon with nss := [(8, {})] } }, 65535, by decide +kernel⟩,
    ⟨adm 0xD8 { nsid := 8, cdw10 := 6 } { up with zon := { up.zon with nss := [(8, {})] } }, 65535, by decide +kernel⟩,
    ⟨io { stage := 5, admin := true, opc := 0xD8, nsid := 8, port := 1, sqe := { cdw10 := 6, nsid := 8 } } { up with zon := { up.zon with nss := [(8, { attached := [0], own := .owned 0 })] }, ports := [(0, { lstate := .up, live := true }), (1, { lstate := .up, live := true })], pat := { eff := testPat } }, 65535, 0, (6, .setFencingKey 65535), by decide +kernel⟩,
    ⟨io { stage := 5, admin := true, opc := 0xD8, nsid := 8, port := 1, sqe := { cdw10 := 6, nsid := 8 } } { up with zon := { up.zon with nss := [(8, { attached := [0], own := .owned 0 })] }, ports := [(0, { lstate := .up, live := true }), (1, { lstate := .up, live := true })], pat := { eff := { testPat with host := { split := 0 } } } }, 65535, (6, .setFencingKey 65535), by decide +kernel⟩,
    ⟨{ up with zon := { up.zon with nss := [(1024, {})] } }, 1024, by decide +kernel⟩⟩

theorem witness_PatternLoadRows :
    (∃ (s : State) (c : Nat) (data : List Byte), c < 65536 ∧ s.subTurn c 0xD1 (fun q => q.cdw10.toNat % 4 == 0) = true ∧ ArrayCanonical s ∧ s.heldByOther s.pat.loadHolder (s.ctx c).who = false ∧ s.pieceBad data ((s.ctx c).sqe.cdw10.toNat / 256 % 2) (s.ctx c).sqe.cdw11.toNat (s.ctx c).sqe.cdw12.toNat = false)
    ∧ (∃ (s : State) (c : Nat), c < 65536 ∧ s.subTurn c 0xD1 (fun q => q.cdw10.toNat % 4 == 0) = true ∧ s.heldByOther s.pat.loadHolder (s.ctx c).who = true)
    ∧ (∃ (s : State) (c : Nat) (data : List Byte), c < 65536 ∧ s.subTurn c 0xD1 (fun q => q.cdw10.toNat % 4 == 0) = true ∧ s.heldByOther s.pat.loadHolder (s.ctx c).who = false ∧ s.pieceBad data ((s.ctx c).sqe.cdw10.toNat / 256 % 2) (s.ctx c).sqe.cdw11.toNat (s.ctx c).sqe.cdw12.toNat = true)
    ∧ (∃ (s : State) (c : Nat), c < 65536 ∧ s.subTurn c 0xD1 (fun q => q.cdw10.toNat % 4 == 1) = true ∧ s.heldByOther s.pat.loadHolder (s.ctx c).who = false)
    ∧ (∃ (s : State) (c : Nat), c < 65536 ∧ s.subTurn c 0xD1 (fun q => q.cdw10.toNat % 4 == 2) = true ∧ s.heldByOther s.pat.loadHolder (s.ctx c).who = false ∧ s.pat.source ≠ (s.ctx c).sqe.cdw10.toNat / 256 % 2)
    ∧ (∃ (s : State) (c : Nat), c < 65536 ∧ s.subTurn c 0xD1 (fun q => q.cdw10.toNat % 4 == 2) = true ∧ s.heldByOther s.pat.loadHolder (s.ctx c).who = false ∧ s.pat.source = (s.ctx c).sqe.cdw10.toNat / 256 % 2)
    ∧ (∃ (s : State), s.pat.loadHolder ≠ none ∧ s.pat.loadMs + 600000 ≤ s.nowMs) := by
  refine ⟨⟨adm 0xD1 { cdw12 := 256 }, 65535, List.replicate 256 7, by unfold ArrayCanonical; decide +kernel⟩,
    ⟨adm 0xD1 {} { up with pat := { up.pat with loadHolder := some 255 }, sec := { up.sec with sessions := [(255, { who := .ctrl 0 1 })] } }, 65535, by decide +kernel⟩,
    ⟨adm 0xD1 {}, 65535, [], by decide +kernel⟩,
    ⟨adm 0xD1 { cdw10 := 1 }, 65535, by decide +kernel⟩,
    ⟨adm 0xD1 { cdw10 := 2 }, 65535, by decide +kernel⟩,
    ⟨adm 0xD1 { cdw10 := 0x102 } { up with pat := { up.pat with source := 1 } }, 65535, by decide +kernel⟩,
    ⟨{ up with epoch := 10 ^ 12, pat := { up.pat with loadHolder := some 0, loadMs := 10 ^ 11 - 600000 } }, by decide +kernel⟩⟩

theorem witness_ReloadRows :
    (∃ (s : State) (c : Nat) (data : List Byte), c < 65536 ∧ s.subTurn c 0xD4 (fun q => q.cdw10.toNat % 4 == 0) = true ∧ s.reloadBusy (s.ctx c).who = false ∧ (s.ctx c).sqe.cdw11.toNat = 0 ∧ pieceOk 0 0 (s.ctx c).sqe.cdw12.toNat = true ∧ (s.ctx c).sqe.cdw12.toNat ≤ s.reloadMax ∧ data.length = (s.ctx c).sqe.cdw12.toNat)
    ∧ (∃ (s : State) (c : Nat) (data : List Byte), c < 65536 ∧ s.subTurn c 0xD4 (fun q => q.cdw10.toNat % 4 == 0) = true ∧ s.reloadBusy (s.ctx c).who = false ∧ s.pat.reload.phase = 1 ∧ (s.ctx c).sqe.cdw11.toNat ≠ 0 ∧ pieceOk s.pat.reload.staged.length (s.ctx c).sqe.cdw11.toNat (s.ctx c).sqe.cdw12.toNat = true ∧ (s.ctx c).sqe.cdw11.toNat + (s.ctx c).sqe.cdw12.toNat ≤ s.reloadMax ∧ data.length = (s.ctx c).sqe.cdw12.toNat)
    ∧ (∃ (s : State) (c : Nat), c < 65536 ∧ s.subTurn c 0xD4 (fun q => q.cdw10.toNat % 4 == 1) = true ∧ s.reloadBusy (s.ctx c).who = true)
    ∧ (∃ (s : State) (c : Nat), c < 65536 ∧ s.subTurn c 0xD4 (fun q => q.cdw10.toNat % 4 == 0) = true ∧ s.reloadBusy (s.ctx c).who = true)
    ∧ (∃ (s : State) (c : Nat), c < 65536 ∧ s.subTurn c 0xD4 (fun q => q.cdw10.toNat % 4 == 1) = true ∧ s.reloadBusy (s.ctx c).who = false ∧ s.fwu.activating = none)
    ∧ (∃ (s : State) (c : Nat), s.reloading = true ∧ s.flt.safe = false ∧ s.ctlUp = true ∧ s.drainOver = true ∧ s.pat.reload.waiter = some (.ctx c) ∧ s.ctx? c ≠ none ∧ s.fwu.activating = none)
    ∧ (∃ (s : State) (c : Nat) (k : Nat), s.reloading = true ∧ s.flt.safe = false ∧ s.ctlUp = true ∧ s.drainOver = true ∧ s.pat.reload.waiter = some (.ctx c) ∧ s.ctx? c ≠ none ∧ s.fwu.activating = none ∧ k < s.pat.reload.frames.length)
    ∧ (∃ (s : State), s.pat.reload.phase ≠ 3)
    ∧ (∃ (s : State) (c : Nat), s.pat.reload.phase = 3 ∧ s.pat.reload.waiter = some (.ctx c) ∧ s.ctx? c ≠ none ∧ s.fwu.activating = none) := by
  refine ⟨⟨adm 0xD4 { cdw12 := 256 }, 65535, List.replicate 256 7, by decide +kernel⟩,
    ⟨adm 0xD4 { cdw11 := 256, cdw12 := 1 } { up with pat := { up.pat with reload := { phase := 1, staged := List.replicate 256 7 } } }, 65535, [7], by decide +kernel⟩,
    ⟨adm 0xD4 { cdw10 := 1 } { up with pat := { up.pat with reload := { phase := 3 } } }, 65535, by decide +kernel⟩,
    ⟨adm 0xD4 {} { up with fwu := { up.fwu with activating := some (.ctx 1, 0) } }, 65535, by decide +kernel⟩,
    ⟨adm 0xD4 { cdw10 := 1 }, 65535, by decide +kernel⟩,
    ⟨io { stage := 5, admin := true } { up with pat := { up.pat with reload := { phase := 4, waiter := some (.ctx 65535) } } }, 65535, by decide +kernel⟩,
    ⟨io { stage := 5, admin := true } { up with pat := { up.pat with reload := { phase := 3, waiter := some (.ctx 65535), frames := [{}, {}] } } }, 65535, 1, by decide +kernel⟩,
    ⟨up, by decide +kernel⟩,
    ⟨io { stage := 5, admin := true } { up with pat := { up.pat with reload := { phase := 3, waiter := some (.ctx 65535) } } }, 65535, by decide +kernel⟩⟩

theorem witness_FirmwareRows :
    (∃ (s : State) (c : Nat), c < 65536 ∧ s.adminTurn c 0x11 = true ∧ s.lockedOut (s.ctx c).who = true)
    ∧ (∃ (s : State) (c : Nat) (data : List Byte), c < 65536 ∧ s.adminTurn c 0x11 = true ∧ s.lockedOut (s.ctx c).who = false ∧ (s.ctx c).sqe.cdw11.toNat = 0 ∧ pieceLenBad data.length = false ∧ s.guardsLkg = false ∧ ArrayCanonical s)
    ∧ (∃ (s : State) (c : Nat) (data : List Byte), c < 65536 ∧ s.adminTurn c 0x11 = true ∧ s.fwu.owner = some (s.ctx c).who ∧ (s.ctx c).sqe.cdw11.toNat * 4 = s.fwu.staged ∧ s.fwu.staged ≠ 0 ∧ s.fwu.staged % 4096 = 0 ∧ s.fwu.staged + data.length ≤ stagingMax ∧ pieceLenBad data.length = false ∧ ArrayCanonical s)
    ∧ (∃ (s : State) (c : Nat) (i : Nat), c < 65536 ∧ s.subTurn c 0x10 (fun q => q.cdw10.toNat / 8 % 8 == 0) = true ∧ s.lockedOut (s.ctx c).who = false ∧ s.fsSlot (fsOf (s.ctx c).sqe) = some i ∧ s.fwu.applied ≠ some i)
    ∧ (∃ (s : State) (c : Nat) (i : Nat), c < 65536 ∧ s.subTurn c 0x10 (fun q => q.cdw10.toNat / 8 % 8 == 1) = true ∧ s.lockedOut (s.ctx c).who = false ∧ s.fsSlot (fsOf (s.ctx c).sqe) = some i ∧ i < 2 ∧ s.fwu.applied = some i ∧ s.prohibited i = false)
    ∧ (∃ (s : State) (c : Nat) (i : Nat), c < 65536 ∧ s.subTurn c 0x10 (fun q => q.cdw10.toNat / 8 % 8 == 2) = true ∧ s.lockedOut (s.ctx c).who = false ∧ (s.ctx c).sqe.cdw10.toNat % 8 = i + 1 ∧ i < 2 ∧ s.running? ≠ some i ∧ (s.fwSlot i).state = 1 ∧ s.prohibited i = false)
    ∧ (∃ (s : State) (c : Nat) (i : Nat) (j : Nat), c < 65536 ∧ s.subTurn c 0x10 (fun q => q.cdw10.toNat / 8 % 8 == 3) = true ∧ s.fwu.activating = none ∧ s.lockedOut (s.ctx c).who = false ∧ s.fsSlot (fsOf (s.ctx c).sqe) = some i ∧ i < 2 ∧ s.fwu.applied = some i ∧ s.prohibited i = false ∧ (s.fwSlot i).resetReq = false ∧ s.running? = some j ∧ s.reloadOn = false ∧ s.inFlight (.ctx c) = false)
    ∧ (∃ (s : State) (c : Nat) (i : Nat) (j : Nat), c < 65536 ∧ s.subTurn c 0x10 (fun q => q.cdw10.toNat / 8 % 8 == 3) = true ∧ s.fwu.activating = none ∧ s.lockedOut (s.ctx c).who = false ∧ s.fsSlot (fsOf (s.ctx c).sqe) = some i ∧ i < 2 ∧ s.fwu.applied = some i ∧ s.prohibited i = false ∧ (s.fwSlot i).resetReq = true ∧ s.running? = some j) := by
  refine ⟨⟨adm 0x11 {} { up with fwu := { up.fwu with owner := some (.mctp 9) } }, 65535, by decide +kernel⟩,
    ⟨adm 0x11 {}, 65535, [1, 2, 3, 4], by unfold ArrayCanonical; decide +kernel⟩,
    ⟨adm 0x11 { cdw11 := 1024 } { up with fwu := { up.fwu with owner := some (.ctrl 0 0), staged := 4096 } }, 65535, [1, 2, 3, 4], by unfold ArrayCanonical; decide +kernel⟩,
    ⟨adm 0x10 { cdw10 := 2 } { up with fwu := { up.fwu with owner := some (.ctrl 0 0) } }, 65535, 1, by decide +kernel⟩,
    ⟨adm 0x10 { cdw10 := 0x0A } { up with fwu := { up.fwu with applied := some 1, slots := [(1, { state := 1, fmt := 0x01010101010101010101010101010101 })] } }, 65535, 1, by decide +kernel⟩,
    ⟨adm 0x10 { cdw10 := 0x12 } { up with fwu := { up.fwu with slots := [(1, { state := 1, fmt := 0x01010101010101010101010101010101 })] } }, 65535, 1, by decide +kernel⟩,
    ⟨adm 0x10 { cdw10 := 0x1A } { up with fwu := { up.fwu with applied := some 1, slots := [(0, { state := 1, running := true }), (1, { state := 1, fmt := 0x01010101010101010101010101010101 })] } }, 65535, 1, 0, by decide +kernel⟩,
    ⟨adm 0x10 { cdw10 := 0x1A } { up with fwu := { up.fwu with applied := some 1, slots := [(0, { state := 1, running := true }), (1, { state := 1, resetReq := true, fmt := 0x01010101010101010101010101010101 })] } }, 65535, 1, 0, by decide +kernel⟩⟩

theorem witness_UpdateTimeRows :
    (∃ (s : State) (c : Nat) (i : Nat), s.cmd.activationPause = true ∧ s.fwu.pauseMs + 1000 ≤ s.nowMs ∧ s.fwu.activating = some (.ctx c, i) ∧ s.ctx? c ≠ none)
    ∧ (∃ (s : State), s.fwu.owner ≠ none ∧ s.fwu.lastMs + 600000 ≤ s.nowMs)
    ∧ (∃ (s : State), 0 < s.fwu.phase ∧ s.fwu.phase < 5)
    ∧ (∃ (s : State), (s.fwu.phase = 0 ∨ 5 ≤ s.fwu.phase))
    ∧ (∃ (s : State) (i : Nat), s.running? = some i ∧ i < 2 ∧ s.glb.adminReady = true ∧ s.flt.ctlReset = false ∧ s.fwu.imageMs + 3600000 ≤ s.nowMs)
    ∧ (∃ (s : State), s.fwu.windowMin + 1440 ≤ s.lifeMinutes)
    ∧ (∃ (s : State), s.flt.ctlReset = true ∧ s.flt.wdogHold = false ∧ s.fwu.activating = none)
    ∧ (∃ (s : State), s.wdogRecent.length ≠ 3) := by
  refine ⟨⟨io {} ({ up with epoch := 10 ^ 12, cmd := { up.cmd with activationPause := true }, fwu := { up.fwu with pauseMs := 10 ^ 11 - 1000, activating := some (.ctx 65535, 1) } }), 65535, 1, by decide +kernel⟩,
    ⟨{ up with epoch := 10 ^ 12, fwu := { up.fwu with owner := some (.mctp 9), lastMs := 10 ^ 11 - 600000 } }, by decide +kernel⟩,
    ⟨{ up with fwu := { up.fwu with phase := 4 } }, by decide +kernel⟩,
    ⟨{ up with fwu := { up.fwu with owner := some (.ctrl 0 1) } }, by decide +kernel⟩,
    ⟨{ up with epoch := 10 ^ 12, fwu := { up.fwu with slots := [(1, { running := true })], imageMs := 10 ^ 11 - 3600000 } }, 1, by decide +kernel⟩,
    ⟨{ up with epoch := 10 ^ 12, mlf := { up.mlf with powerOnMin := 1440 } }, by decide +kernel⟩,
    ⟨{ up with flt := { up.flt with ctlReset := true } }, by decide +kernel⟩,
    ⟨{ up with fwu := { up.fwu with owner := some (.ctrl 0 1) } }, by decide +kernel⟩⟩

theorem witness_MarginRows :
    (∃ (s : State) (isl : Nat) (l : List Nat), isl < 72 ∧ s.domOn isl = true ∧ s.inRange isl = true ∧ l.length = 4)
    ∧ (∃ (s : State), (s.age.due = true ∨ s.age.lastMin + 60000 ≤ s.onMinutes) ∧ (s.planBlocked = true ∨ s.ctlUp = false))
    ∧ (∃ (s : State), (s.age.due = true ∨ s.age.lastMin + 60000 ≤ s.onMinutes) ∧ s.planBlocked = false ∧ s.ctlUp = true)
    ∧ (∃ (s : State), s.age.due = false ∧ s.onMinutes < s.age.lastMin + 60000)
    ∧ (∃ (s : State) (isl : Nat), isl < 72 ∧ s.age.pending.contains isl = true ∧ s.measurable isl = true ∧ s.planBlocked = false ∧ s.ctlUp = true ∧ (s.isle isl).stateAt + 1000 ≤ s.nowMs)
    ∧ (∃ (s : State) (c : Nat), c < 65536 ∧ s.subTurn c 0xDC (fun q => q.cdw10.toNat % 4 == 0) = true ∧ s.planBlocked = false)
    ∧ (∃ (s : State) (c : Nat), c < 65536 ∧ s.subTurn c 0xDC (fun q => q.cdw10.toNat % 4 == 0) = true ∧ s.planBlocked = true)
    ∧ (∃ (s : State) (c : Nat), c < 65536 ∧ s.subTurn c 0xDC (fun q => q.cdw10.toNat % 4 == 1) = true) := by
  refine ⟨⟨warmUp, 71, [1, 2, 3, 4], by decide +kernel⟩,
    ⟨{ up with age := { up.age with due := true }, flt := { up.flt with safe := true } }, by decide +kernel⟩,
    ⟨{ up with age := { up.age with due := true } }, by decide +kernel⟩,
    ⟨{ up with flt := { up.flt with safe := true } }, by decide +kernel⟩,
    ⟨{ warmUp with epoch := 10 ^ 12, age := { up.age with pending := [71] } }, 71, by decide +kernel⟩,
    ⟨adm 0xDC {}, 65535, by decide +kernel⟩,
    ⟨adm 0xDC {} { up with thm := { up.thm with coldHold := true } }, 65535, by decide +kernel⟩,
    ⟨adm 0xDC { cdw10 := 1 }, 65535, by decide +kernel⟩⟩

theorem witness_QueueRows :
    (∃ (s : State) (c : Nat), c < 65536 ∧ s.adminTurn c 0x08 = true ∧ 8 ≤ s.abortsBefore (s.ctx c))
    ∧ (∃ (s : State) (c : Nat), c < 65536 ∧ s.adminTurn c 0x08 = true ∧ s.abortsBefore (s.ctx c) < 8 ∧ (∀ t, s.abortTarget (s.ctx c) = some t → (s.ctx t).abortable = false ∨ s.begun t = true))
    ∧ (∃ (s : State) (c : Nat) (t : Nat), c < 65536 ∧ s.adminTurn c 0x08 = true ∧ s.abortsBefore (s.ctx c) < 8 ∧ s.abortTarget (s.ctx c) = some t ∧ (s.ctx t).abortable = true ∧ s.begun t = false ∧ (s.ctx t).admin = true)
    ∧ (∃ (s : State) (c : Nat) (t : Nat), c < 65536 ∧ s.adminTurn c 0x08 = true ∧ s.abortsBefore (s.ctx c) < 8 ∧ s.abortTarget (s.ctx c) = some t ∧ (s.ctx t).abortable = true ∧ s.begun t = false ∧ (s.ctx t).admin = false)
    ∧ (∃ (s : State) (c : Nat) (k : Nat), c < 65536 ∧ s.adminTurn c 0x05 = true ∧ s.createCqErr (s.ctx c) = none ∧ s.dqFor (s.ctx c).port (s.ctx c).slice ((s.ctx c).sqe.cdw10.toNat % 65536) = some k)
    ∧ (∃ (s : State) (c : Nat) (e : St), c < 65536 ∧ s.adminTurn c 0x05 = true ∧ s.createCqErr (s.ctx c) = some e)
    ∧ (∃ (s : State) (c : Nat) (k : Nat), c < 65536 ∧ s.adminTurn c 0x01 = true ∧ s.createSqErr (s.ctx c) = none ∧ s.dqFor (s.ctx c).port (s.ctx c).slice ((s.ctx c).sqe.cdw10.toNat % 65536) = some k)
    ∧ (∃ (s : State) (c : Nat) (k : Nat), c < 65536 ∧ s.adminTurn c 0x00 = true ∧ (s.ctx c).sqe.cdw10.toNat % 65536 ≠ 0 ∧ s.dqOf (s.ctx c).port (s.ctx c).slice ((s.ctx c).sqe.cdw10.toNat % 65536) = some k ∧ (s.queue k).sqOn = true ∧ s.sqCtxs k = [])
    ∧ (∃ (s : State) (c : Nat) (k : Nat), c < 65536 ∧ s.adminTurn c 0x04 = true ∧ (s.ctx c).sqe.cdw10.toNat % 65536 ≠ 0 ∧ s.dqOf (s.ctx c).port (s.ctx c).slice ((s.ctx c).sqe.cdw10.toNat % 65536) = some k ∧ (s.queue k).cqOn = true ∧ s.cmd.queues.any (fun e => e.2.sqOn && e.2.slice == (s.ctx c).slice && e.2.port == (s.ctx c).port && e.2.qid != 0 && e.2.cqid == (s.ctx c).sqe.cdw10.toNat % 65536) = false)
    ∧ (∃ (s : State) (c : Nat) (k : Nat), c < 65536 ∧ s.adminTurn c 0x04 = true ∧ (s.ctx c).sqe.cdw10.toNat % 65536 ≠ 0 ∧ s.dqOf (s.ctx c).port (s.ctx c).slice ((s.ctx c).sqe.cdw10.toNat % 65536) = some k ∧ (s.queue k).cqOn = true ∧ s.cmd.queues.any (fun e => e.2.sqOn && e.2.slice == (s.ctx c).slice && e.2.port == (s.ctx c).port && e.2.qid != 0 && e.2.cqid == (s.ctx c).sqe.cdw10.toNat % 65536) = true) := by
  refine ⟨⟨State.setCtx ((List.range 8).foldl (fun t i => t.setCtx i { stage := 5, admin := true, opc := 0x08 }) up) 65535 { stage := 5, admin := true, opc := 0x08, fseq := 9 }, 65535, by decide +kernel⟩,
    ⟨adm 0x08 { cdw10 := 0xFFFFFFFF }, 65535, by 
      refine ⟨by decide, by decide +kernel, by decide +kernel, ?_⟩
      have e : (adm 0x08 { cdw10 := 0xFFFFFFFF }).abortTarget ((adm 0x08 { cdw10 := 0xFFFFFFFF }).ctx 65535) = none := by decide +kernel
      intro t ht; rw [e] at ht; cases ht⟩,
    ⟨adm 0x08 { cdw10 := 0x70000 } (State.setCtx up 0 { stage := 5, admin := true, opc := 0x06, cid := 7 }), 65535, 0, by decide +kernel⟩,
    ⟨adm 0x08 { cdw10 := 0x70001 } (State.setCtx up 0 { stage := 12, opc := opRead, sqid := 1, cid := 7 }), 65535, 0, by decide +kernel⟩,
    ⟨adm 0x05 { cdw10 := 0xFFFF0001, cdw11 := 0x000F0003 }, 65535, 2048, by decide +kernel⟩,
    ⟨adm 0x05 { cdw10 := 0xFFFF0000, cdw11 := 1 }, 65535, .invalidQid, by decide +kernel⟩,
    ⟨adm 0x01 { cdw10 := 0xFFFF0001, cdw11 := 0x00010001 } { up with cmd := { up.cmd with queues := [(2048, { qid := 1, cqOn := true, cqSize := 2 })] } }, 65535, 2048, by decide +kernel⟩,
    ⟨adm 0x00 { cdw10 := 1 } { up with cmd := { up.cmd with queues := [(18431, { qid := 1, sqOn := true })] } }, 65535, 18431, by decide +kernel⟩,
    ⟨adm 0x04 { cdw10 := 1 } { up with cmd := { up.cmd with queues := [(18431, { qid := 1, cqOn := true })] } }, 65535, 18431, by decide +kernel⟩,
    ⟨adm 0x04 { cdw10 := 1 } { up with cmd := { up.cmd with queues := [(18430, { qid := 1, cqOn := true }), (18431, { qid := 2, sqOn := true, cqid := 1 })] } }, 65535, 18430, by decide +kernel⟩⟩

theorem witness_FeatureRows :
    (∃ (s : State) (c : Nat), c < 65536 ∧ s.adminTurn c 0x09 = true ∧ bitAt (s.ctx c).sqe.cdw10.toNat 31 = false ∧ ((s.ctx c).sqe.cdw10.toNat % 256 = 0x01 ∨ (s.ctx c).sqe.cdw10.toNat % 256 = 0x08 ∨ (s.ctx c).sqe.cdw10.toNat % 256 = 0x0A ∨ (s.ctx c).sqe.cdw10.toNat % 256 = 0x0B))
    ∧ (∃ (s : State) (c : Nat), c < 65536 ∧ s.adminTurn c 0x09 = true ∧ featureOk (s.ctx c).slice ((s.ctx c).sqe.cdw10.toNat % 256) = false)
    ∧ (∃ (s : State) (c : Nat) (ps : Nat), c < 65536 ∧ s.adminTurn c 0x09 = true ∧ (s.ctx c).slice = 0 ∧ (s.ctx c).sqe.cdw10.toNat = 0x02 ∧ (s.ctx c).sqe.cdw11.toNat % 32 = ps ∧ ps < s.pat.eff.power.states.length ∧ s.pwr.entry = none)
    ∧ (∃ (s : State) (c : Nat), c < 65536 ∧ s.adminTurn c 0x0A = true ∧ (s.ctx c).sqe.cdw10.toNat = 0x0B)
    ∧ (∃ (s : State) (c : Nat), c < 65536 ∧ s.adminTurn c 0x0A = true ∧ featureOk (s.ctx c).slice ((s.ctx c).sqe.cdw10.toNat % 256) = false)
    ∧ (∃ (s : State) (c : Nat) (e : PsEntry), s.pwr.entry = some e ∧ s.psReached = true ∧ s.psBlocked e = false ∧ e.waiter = .ctx c ∧ s.ctx? c ≠ none)
    ∧ (∃ (s : State) (c : Nat) (e : PsEntry), s.pwr.entry = some e ∧ e.fetchedMs + 50 ≤ s.nowMs ∧ e.waiter = .ctx c ∧ s.ctx? c ≠ none)
    ∧ (∃ (s : State) (c : Nat), c < 65536 ∧ s.adminTurn c 0x0C = true ∧ (s.ctrl (ctrlKey (s.ctx c).port (s.ctx c).slice)).aers.length < 16 ∧ (s.ctrl (ctrlKey (s.ctx c).port (s.ctx c).slice)).events = [])
    ∧ (∃ (s : State) (c : Nat) (e : Aen) (l : List Aen), c < 65536 ∧ s.adminTurn c 0x0C = true ∧ (s.ctrl (ctrlKey (s.ctx c).port (s.ctx c).slice)).aers = [] ∧ (s.ctrl (ctrlKey (s.ctx c).port (s.ctx c).slice)).cfs = false ∧ (s.ctrl (ctrlKey (s.ctx c).port (s.ctx c).slice)).events = e :: l ∧ (s.ctrl (ctrlKey (s.ctx c).port (s.ctx c).slice)).maskedTypes.contains e.typ = false)
    ∧ (∃ (s : State) (c : Nat), c < 65536 ∧ s.adminTurn c 0x0C = true ∧ 16 ≤ (s.ctrl (ctrlKey (s.ctx c).port (s.ctx c).slice)).aers.length) := by
  refine ⟨⟨adm 0x09 { cdw10 := 0x0B, cdw11 := 0xFFFFFFFF }, 65535, by decide +kernel⟩,
    ⟨adm 0x09 { cdw10 := 0xFF }, 65535, by decide +kernel⟩,
    ⟨adm 0x09 { cdw10 := 2, cdw11 := 1 } { up with ports := [], pat := { eff := { testPat with power := { states := [{ maxpCw := 12000 }, { maxpCw := 6000 }] } } }, cmd := { up.cmd with ctrls := [(0, { en := true }), (2048, { psReq := 1 })] } }, 65535, 1, by decide +kernel⟩,
    ⟨adm 0x0A { cdw10 := 0x0B }, 65535, by decide +kernel⟩,
    ⟨adm 0x0A { cdw10 := 0xFF }, 65535, by decide +kernel⟩,
    ⟨io { stage := 5, admin := true } { up with pwr := { up.pwr with entry := some { waiter := .ctx 65535 } } }, 65535, { waiter := .ctx 65535 }, by decide +kernel⟩,
    ⟨io {} ({ up with epoch := 10 ^ 12, pwr := { up.pwr with entry := some { waiter := .ctx 65535, fetchedMs := 10 ^ 11 - 50 } } }), 65535, { waiter := .ctx 65535, fetchedMs := 10 ^ 11 - 50 }, by decide +kernel⟩,
    ⟨adm 0x0C {} { up with cmd := { up.cmd with ctrls := [(0, { en := true, rdy := true, aers := List.range 15 })] } }, 65535, by decide +kernel⟩,
    ⟨adm 0x0C {} { up with cmd := { up.cmd with ctrls := [(0, { en := true, rdy := true, events := [{ typ := 7 }] })] } }, 65535, { typ := 7 }, [], by decide +kernel⟩,
    ⟨adm 0x0C {} { up with cmd := { up.cmd with ctrls := [(0, { en := true, rdy := true, aers := List.range 16 })] } }, 65535, by decide +kernel⟩⟩

theorem witness_PageRows :
    (∃ (s : State) (c : Nat), c < 65536 ∧ s.adminTurn c 0x06 = true ∧ (s.ctx c).sqe.cdw10.toNat % 256 = 0x1C)
    ∧ (∃ (s : State) (c : Nat), c < 65536 ∧ s.adminTurn c 0x06 = true ∧ (s.ctx c).sqe.cdw10.toNat % 256 = 0x11 ∧ 1 ≤ (s.ctx c).sqe.nsid ∧ (s.ctx c).sqe.nsid ≤ (match s.pat.eff.ns with | none => 0 | some m => m.maxNs))
    ∧ (∃ (s : State) (c : Nat), c < 65536 ∧ s.adminTurn c 0x06 = true ∧ 0x1D ≤ (s.ctx c).sqe.cdw10.toNat % 256)
    ∧ (∃ (s : State) (c : Nat), c < 65536 ∧ s.adminTurn c 0x02 = true ∧ (s.ctx c).sqe.cdw10.toNat = 0x03FF8003 ∧ (s.ctx c).sqe.cdw11.toNat % 65536 = 0 ∧ (s.ctx c).sqe.cdw12.toNat = 0 ∧ (s.ctx c).sqe.cdw13.toNat = 0)
    ∧ (∃ (s : State) (c : Nat), c < 65536 ∧ s.adminTurn c 0x02 = true ∧ (s.ctx c).sqe.cdw10.toNat % 256 = 0xD0)
    ∧ (∃ (s : State) (c : Nat), c < 65536 ∧ s.adminTurn c 0x19 = true)
    ∧ (∃ (s : State) (c : Nat), c < 65536 ∧ s.adminTurn c 0x1A = true ∧ s.ns? (s.ctx c).sqe.nsid ≠ none ∧ (s.ctx c).sqe.cdw11.toNat % 65536 = 1)
    ∧ (∃ (s : State) (c : Nat), c < 65536 ∧ s.adminTurn c 0x1D = true)
    ∧ (∃ (s : State) (c : Nat), c < 65536 ∧ s.adminTurn c 0x1E = true)
    ∧ (∃ (s : State) (c : Nat), c < 65536 ∧ s.adminTurn c 0x1E = true) := by
  refine ⟨⟨adm 0x06 { cdw10 := 0x1C }, 65535, by decide +kernel⟩,
    ⟨adm 0x06 { cdw10 := 0x11, nsid := 8 }, 65535, by decide +kernel⟩,
    ⟨adm 0x06 { cdw10 := 0x1D }, 65535, by decide +kernel⟩,
    ⟨adm 0x02 { cdw10 := 0x03FF8003 }, 65535, by decide +kernel⟩,
    ⟨adm 0x02 { cdw10 := 0xD0 }, 65535, by decide +kernel⟩,
    ⟨adm 0x19 {}, 65535, by decide +kernel⟩,
    ⟨adm 0x1A { nsid := 8, cdw11 := 1 } { up with zon := { up.zon with nss := [(8, {})] } }, 65535, by decide +kernel⟩,
    ⟨adm 0x1D {}, 65535, by decide +kernel⟩,
    ⟨adm 0x1E {}, 65535, by decide +kernel⟩,
    ⟨adm 0x1E {}, 65535, by decide +kernel⟩⟩

theorem witness_NamespaceRows :
    (∃ (s : State) (c : Nat) (n : Nat) (b : NsCreate), c < 65536 ∧ s.subTurn c 0x0D (fun q => q.cdw10.toNat % 16 == 0) = true ∧ s.createNsErr b = none ∧ s.freeNsid = some n)
    ∧ (∃ (s : State) (c : Nat) (e : St) (b : NsCreate), c < 65536 ∧ s.subTurn c 0x0D (fun q => q.cdw10.toNat % 16 == 0) = true ∧ s.createNsErr b = some e)
    ∧ (∃ (s : State) (c : Nat), c < 65536 ∧ s.subTurn c 0x0D (fun q => q.cdw10.toNat % 16 == 1) = true ∧ ((s.ctx c).sqe.nsid = 0xFFFFFFFF ∨ s.ns? (s.ctx c).sqe.nsid ≠ none) ∧ (if (s.ctx c).sqe.nsid = 0xFFFFFFFF then s.zon.nss.map (·.1) else [(s.ctx c).sqe.nsid]).any s.admittedOn = false)
    ∧ (∃ (s : State) (c : Nat), c < 65536 ∧ s.subTurn c 0x0D (fun q => q.cdw10.toNat % 16 == 1) = true ∧ (s.ctx c).sqe.nsid ≠ 0xFFFFFFFF ∧ s.ns? (s.ctx c).sqe.nsid = none)
    ∧ (∃ (s : State) (c : Nat), c < 65536 ∧ s.subTurn c 0x0D (fun q => q.cdw10.toNat % 16 == 1) = true ∧ (s.ctx c).sqe.nsid ≠ 0xFFFFFFFF ∧ s.ns? (s.ctx c).sqe.nsid ≠ none ∧ s.admittedOn (s.ctx c).sqe.nsid = true)
    ∧ (∃ (s : State) (c : Nat) (l : List Nat), c < 65536 ∧ s.adminTurn c 0x15 = true ∧ (s.ctx c).sqe.cdw10.toNat % 16 = 0 ∧ s.attachErr (s.ctx c).sqe.nsid false l = none)
    ∧ (∃ (s : State) (c : Nat) (l : List Nat), c < 65536 ∧ s.adminTurn c 0x15 = true ∧ (s.ctx c).sqe.cdw10.toNat % 16 = 1 ∧ s.attachErr (s.ctx c).sqe.nsid true l = none)
    ∧ (∃ (s : State) (c : Nat) (e : St) (l : List Nat), c < 65536 ∧ s.adminTurn c 0x15 = true ∧ (s.ctx c).sqe.cdw10.toNat % 16 ≤ 1 ∧ s.attachErr (s.ctx c).sqe.nsid ((s.ctx c).sqe.cdw10.toNat % 16 == 1) l = some e)
    ∧ (∃ (s : State) (c : Nat), c < 65536 ∧ s.adminTurn c 0x80 = true ∧ s.formatErr (s.ctx c).sqe (if (s.ctx c).sqe.nsid = 0xFFFFFFFF then s.zon.nss.map (·.1) else [(s.ctx c).sqe.nsid]) = none)
    ∧ (∃ (s : State) (c : Nat) (e : St), c < 65536 ∧ s.adminTurn c 0x80 = true ∧ s.formatErr (s.ctx c).sqe (if (s.ctx c).sqe.nsid = 0xFFFFFFFF then s.zon.nss.map (·.1) else [(s.ctx c).sqe.nsid]) = some e)
    ∧ (∃ (s : State) (c : Nat) (a : Nat), c < 65536 ∧ s.adminTurn c 0x84 = true ∧ (s.ctx c).sqe.cdw10.toNat % 8 = a ∧ (a = 2 ∨ a = 4) ∧ s.glb.mediaReady = true)
    ∧ (∃ (s : State) (c : Nat), c < 65536 ∧ s.adminTurn c 0x84 = true ∧ (s.ctx c).sqe.cdw10.toNat % 8 = 1)
    ∧ (∃ (s : State) (c : Nat), c < 65536 ∧ s.adminTurn c 0x84 = true ∧ ((s.ctx c).sqe.cdw10.toNat % 8 = 0 ∨ (s.ctx c).sqe.cdw10.toNat % 8 = 3 ∨ 5 ≤ (s.ctx c).sqe.cdw10.toNat % 8)) := by
  refine ⟨⟨adm 0x0D {} ({ up with med := { up.med with dies := [(0, { state := .online, goodBlocks := 1000, usable := 1000 }), (32, { state := .online, goodBlocks := 1000, usable := 1000 }), (64, { state := .online, goodBlocks := 1000, usable := 1000 })] } }), 65535, 1, { nsze := 1, ncap := 1 }, by decide +kernel⟩,
    ⟨adm 0x0D {}, 65535, .invalidField, { cls := 1 }, by decide +kernel⟩,
    ⟨adm 0x0D { cdw10 := 1, nsid := 8 } ({ up with zon := { up.zon with nss := [(8, { nsze := 1024, attached := [0] })] } }), 65535, by decide +kernel⟩,
    ⟨adm 0x0D { cdw10 := 1, nsid := 8 }, 65535, by decide +kernel⟩,
    ⟨(adm 0x0D { cdw10 := 1, nsid := 8 } ({ up with zon := { up.zon with nss := [(8, { nsze := 1024, attached := [0] })] } })).setCtx 1 { stage := 9, opc := opRead, nsid := 8 }, 65535, by decide +kernel⟩,
    ⟨adm 0x15 { nsid := 8 } { up with zon := { up.zon with nss := [(8, { nsze := 1024 })] } }, 65535, [0, 2048], by decide +kernel⟩,
    ⟨adm 0x15 { cdw10 := 1, nsid := 8 } ({ up with zon := { up.zon with nss := [(8, { nsze := 1024, attached := [0] })] } }), 65535, [0], by decide +kernel⟩,
    ⟨adm 0x15 { cdw10 := 1 }, 65535, .invalidNs, [], by decide +kernel⟩,
    ⟨adm 0x80 { nsid := 8 } ({ up with zon := { up.zon with nss := [(8, { nsze := 1024, attached := [0] })] } }), 65535, by decide +kernel⟩,
    ⟨adm 0x80 { nsid := 8 }, 65535, .invalidNs, by decide +kernel⟩,
    ⟨adm 0x84 { cdw10 := 4 }, 65535, 4, by decide +kernel⟩,
    ⟨adm 0x84 { cdw10 := 1 }, 65535, by decide +kernel⟩,
    ⟨adm 0x84 { cdw10 := 7 }, 65535, by decide +kernel⟩⟩

theorem witness_ReadRows :
    (∃ (s : State) (c : Nat), c < 65536 ∧ Admitted s c opRead false ∧ s.readErr3 (s.ctx c) = none ∧ (s.ns (s.ctx c).nsid).zoned = false ∧ (s.ctx c).slba + (s.ctx c).count ≤ (s.ns (s.ctx c).nsid).nsze ∧ s.lockBlocker { (s.ctx c) with lockR := some { ns := (s.ctx c).nsid, lo := (s.ctx c).slba, hi := (s.ctx c).slba + (s.ctx c).count - 1 } } = none)
    ∧ (∃ (s : State) (c : Nat), c < 65536 ∧ Admitted s c opCompare false ∧ (s.ctx c).count ≤ 512 ∧ (s.ns (s.ctx c).nsid).zoned = false ∧ (s.ctx c).slba + (s.ctx c).count ≤ (s.ns (s.ctx c).nsid).nsze ∧ s.lockBlocker { (s.ctx c) with lockR := some { ns := (s.ctx c).nsid, lo := (s.ctx c).slba, hi := (s.ctx c).slba + (s.ctx c).count - 1 } } = none)
    ∧ (∃ (s : State) (c : Nat), c < 65536 ∧ Admitted s c opVerify false ∧ (s.ns (s.ctx c).nsid).zoned = false ∧ (s.ctx c).slba + (s.ctx c).count ≤ (s.ns (s.ctx c).nsid).nsze ∧ s.lockBlocker { (s.ctx c) with lockR := some { ns := (s.ctx c).nsid, lo := (s.ctx c).slba, hi := (s.ctx c).slba + (s.ctx c).count - 1 } } = none)
    ∧ (∃ (s : State) (c : Nat) (e : St), c < 65536 ∧ s.rowTurn c opRead = true ∧ (s.ctx c).stage = 3 ∧ SeatOpen s c ∧ s.readErr3 (s.ctx c) = none ∧ s.admitErr (s.ctx c) (s.ctx c).nsid false = some e)
    ∧ (∃ (s : State) (c : Nat) (f : Nat × Instr), c < 65536 ∧ f ∈ [(opRead, .read c), (opCompare, .compare c), (opVerify, .verifyCommand c), (opWrite, .write c)] ∧ s.rowTurn c f.1 = true ∧ (s.ctx c).stage = 3 ∧ (s.ctx c).count ≤ 512 ∧ (s.ctx c).sqe.cdw3 = 0 ∧ (s.ctx c).route = 0 ∧ ((s.route 0).state = .free ∨ (s.route 0).state = .draining))
    ∧ (∃ (s : State) (c : Nat), c < 65536 ∧ s.rowTurn c opCompare = true ∧ (s.ctx c).stage = 3 ∧ 512 < (s.ctx c).count)
    ∧ (∃ (s : State) (c : Nat), c < 65536 ∧ Admitted s c opVerify false ∧ (s.ns (s.ctx c).nsid).nsze < (s.ctx c).slba + (s.ctx c).count) := by
  refine ⟨⟨io { stage := 3, opc := opRead, nsid := 8, slba := 1023 } ({ up with zon := { up.zon with nss := [(8, { nsze := 1024, attached := [0] })] } }), 65535, by unfold Admitted SeatOpen; decide +kernel⟩,
    ⟨io { stage := 3, opc := opCompare, nsid := 8, slba := 512, nlb := 511 } ({ up with zon := { up.zon with nss := [(8, { nsze := 1024, attached := [0] })] } }), 65535, by unfold Admitted SeatOpen; decide +kernel⟩,
    ⟨io { stage := 3, opc := opVerify, nsid := 8, nlb := 1023 } ({ up with zon := { up.zon with nss := [(8, { nsze := 1024, attached := [0] })] } }), 65535, by unfold Admitted SeatOpen; decide +kernel⟩,
    ⟨io { stage := 3, opc := opRead, nsid := 8 } ({ up with zon := { up.zon with nss := [(8, { nsze := 1024, attached := [1] })] } }), 65535, .invalidNs, by unfold SeatOpen; decide +kernel⟩,
    ⟨io { stage := 3, opc := opWrite, nsid := 8 } { ({ up with zon := { up.zon with nss := [(8, { nsze := 1024, attached := [0] })] } }) with routes := [] }, 65535, (opWrite, .write 65535), by decide +kernel⟩,
    ⟨io { stage := 3, opc := opCompare, nsid := 8, nlb := 512 } ({ up with zon := { up.zon with nss := [(8, { nsze := 1024, attached := [0] })] } }), 65535, by decide +kernel⟩,
    ⟨io { stage := 3, opc := opVerify, nsid := 8, slba := 1024 } ({ up with zon := { up.zon with nss := [(8, { nsze := 1024, attached := [0] })] } }), 65535, by unfold Admitted SeatOpen; decide +kernel⟩⟩

theorem witness_WriteRows :
    (∃ (s : State) (c : Nat), c < 65536 ∧ Admitted s c opWrite true ∧ writeErr3 (s.ctx c) = none ∧ s.convWriteErr (s.ctx c).nsid (s.ctx c).slba (s.ctx c).count = none ∧ (s.ns (s.ctx c).nsid).zoned = false ∧ s.lockBlocker { (s.ctx c) with lockW := some { ns := (s.ctx c).nsid, lo := (s.ctx c).slba, hi := (s.ctx c).slba + (s.ctx c).count - 1 } } = none)
    ∧ (∃ (s : State) (c : Nat), c < 65536 ∧ Admitted s c opWriteZeroes true ∧ s.convWriteErr (s.ctx c).nsid (s.ctx c).slba (s.ctx c).count = none ∧ (s.ns (s.ctx c).nsid).zoned = false ∧ s.lockBlocker { (s.ctx c) with lockW := some { ns := (s.ctx c).nsid, lo := (s.ctx c).slba, hi := (s.ctx c).slba + (s.ctx c).count - 1 } } = none)
    ∧ (∃ (s : State) (c : Nat), c < 65536 ∧ Admitted s c opWriteUnc true ∧ s.convWriteErr (s.ctx c).nsid (s.ctx c).slba (s.ctx c).count = none ∧ (s.ns (s.ctx c).nsid).zoned = false ∧ s.lockBlocker { (s.ctx c) with lockW := some { ns := (s.ctx c).nsid, lo := (s.ctx c).slba, hi := (s.ctx c).slba + (s.ctx c).count - 1 } } = none)
    ∧ (∃ (s : State) (c : Nat) (b : Nat), c < 65536 ∧ Admitted s c opWrite true ∧ writeErr3 (s.ctx c) = none ∧ (s.ctx c).spec = false ∧ s.convWriteErr (s.ctx c).nsid (s.ctx c).slba (s.ctx c).count = none ∧ (s.ns (s.ctx c).nsid).zoned = false ∧ s.lockBlocker { (s.ctx c) with lockW := some { ns := (s.ctx c).nsid, lo := (s.ctx c).slba, hi := (s.ctx c).slba + (s.ctx c).count - 1 } } = some b)
    ∧ (∃ (s : State) (c : Nat), c < 65536 ∧ Admitted s c opWrite true ∧ writeErr3 (s.ctx c) = none ∧ (s.ns (s.ctx c).nsid).zoned = false ∧ (s.ns (s.ctx c).nsid).nsze < (s.ctx c).slba + (s.ctx c).count)
    ∧ (∃ (s : State) (c : Nat) (l : List LbaRange), c < 65536 ∧ Admitted s c opDsm true ∧ bitAt (s.ctx c).sqe.cdw11.toNat 2 = true ∧ l.length = (s.ctx c).sqe.cdw10.toNat % 256 + 1 ∧ (∀ r ∈ l, r.slba + r.nlb ≤ (s.ns (s.ctx c).nsid).nsze) ∧ s.nsReadOnly (s.ctx c).nsid = false ∧ s.lockBlocker { (s.ctx c) with lockW := hull (s.ctx c).nsid l } = none)
    ∧ (∃ (s : State) (c : Nat) (l : List LbaRange), c < 65536 ∧ Admitted s c opDsm false ∧ bitAt (s.ctx c).sqe.cdw11.toNat 2 = false ∧ l.length = (s.ctx c).sqe.cdw10.toNat % 256 + 1 ∧ (∀ r ∈ l, r.slba + r.nlb ≤ (s.ns (s.ctx c).nsid).nsze))
    ∧ (∃ (s : State) (c : Nat) (l : List LbaRange), c < 65536 ∧ Admitted s c opCopy true ∧ copyErr3 (s.ctx c) (some l) = none ∧ (s.ns (s.ctx c).nsid).zoned = false ∧ (∀ r ∈ l, r.slba + r.nlb ≤ (s.ns (s.ctx c).nsid).nsze) ∧ s.convWriteErr (s.ctx c).nsid (sqeSlba (s.ctx c).sqe) (rangeLbas l).length = none ∧ s.lockBlocker { (s.ctx c) with lockR := hull (s.ctx c).nsid l, lockW := some { ns := (s.ctx c).nsid, lo := sqeSlba (s.ctx c).sqe, hi := sqeSlba (s.ctx c).sqe + (rangeLbas l).length - 1 } } = none)
    ∧ (∃ (s : State) (c : Nat), c < 65536 ∧ s.rowTurn c opFlush = true ∧ (s.ctx c).stage = 3 ∧ (∀ n ∈ s.flushNs (s.ctx c), s.admitErr (s.ctx c) n false = none ∧ s.pendingDwe (s.ctx c).slice n = none) ∧ s.holdup = true)
    ∧ (∃ (s : State) (c : Nat), c < 65536 ∧ s.rowTurn c opFlush = true ∧ (s.ctx c).stage = 3 ∧ (∀ n ∈ s.flushNs (s.ctx c), s.admitErr (s.ctx c) n false = none ∧ s.pendingDwe (s.ctx c).slice n = none) ∧ s.holdup = false ∧ (∀ k ∈ s.undurable (fun e => (s.flushNs (s.ctx c)).contains e.ns), s.landDies (s.unitSet k) ≠ [])) := by
  refine ⟨⟨io { stage := 3, opc := opWrite, nsid := 8, slba := 1023 } ({ up with zon := { up.zon with nss := [(8, { nsze := 1024, attached := [0] })] } }), 65535, by unfold Admitted SeatOpen; decide +kernel⟩,
    ⟨io { stage := 3, opc := opWriteZeroes, nsid := 8, nlb := 1023 } ({ up with zon := { up.zon with nss := [(8, { nsze := 1024, attached := [0] })] } }), 65535, by unfold Admitted SeatOpen; decide +kernel⟩,
    ⟨io { stage := 3, opc := opWriteUnc, nsid := 8, slba := 1023 } ({ up with zon := { up.zon with nss := [(8, { nsze := 1024, attached := [0] })] } }), 65535, by unfold Admitted SeatOpen; decide +kernel⟩,
    ⟨io { stage := 3, opc := opWrite, nsid := 8, slba := 1023, fseq := 1 } (State.setCtx ({ up with zon := { up.zon with nss := [(8, { nsze := 1024, attached := [0] })] } }) 0 { stage := 9, opc := opWrite, nsid := 8, lockW := some { ns := 8, lo := 0, hi := 1023 } }), 65535, 0, by unfold Admitted SeatOpen; decide +kernel⟩,
    ⟨io { stage := 3, opc := opWrite, nsid := 8, slba := 1024 } ({ up with zon := { up.zon with nss := [(8, { nsze := 1024, attached := [0] })] } }), 65535, by unfold Admitted SeatOpen; decide +kernel⟩,
    ⟨io { stage := 3, opc := opDsm, nsid := 8, sqe := { cdw11 := 4 } } ({ up with zon := { up.zon with nss := [(8, { nsze := 1024, attached := [0] })] } }), 65535, [{ slba := 1023, nlb := 1 }], by unfold Admitted SeatOpen; decide +kernel⟩,
    ⟨io { stage := 3, opc := opDsm, nsid := 8 } ({ up with zon := { up.zon with nss := [(8, { nsze := 1024, attached := [0] })] } }), 65535, [{ slba := 1023, nlb := 1 }], by unfold Admitted SeatOpen; decide +kernel⟩,
    ⟨io { stage := 3, opc := opCopy, nsid := 8 } ({ up with zon := { up.zon with nss := [(8, { nsze := 1024, attached := [0] })] } }), 65535, [{ slba := 1023, nlb := 1 }], by unfold Admitted SeatOpen; decide +kernel⟩,
    ⟨io { stage := 3, opc := opFlush, nsid := 8 } ({ up with pat := { eff := { testPat with power := { holdupUs := 200, pfailWired := true } } }, zon := { up.zon with nss := [(8, { nsze := 1024, attached := [0] })] } }), 65535, by decide +kernel⟩,
    ⟨io { stage := 3, opc := opFlush, nsid := 8 } ({ up with zon := { up.zon with nss := [(8, { nsze := 1024, attached := [0] })] } }), 65535, by decide +kernel⟩⟩

theorem witness_ZoneRows :
    (∃ (s : State) (c : Nat), c < 65536 ∧ Admitted s c opAppend true ∧ s.appendErr3 (s.ctx c) = none ∧ (s.ctx c).resv = none ∧ sqeSlba (s.ctx c).sqe < (s.ns (s.ctx c).nsid).nsze ∧ (s.rebuildProj (s.zoneEnt (s.ctx c).nsid (s.zoneOf (s.ctx c).nsid (sqeSlba (s.ctx c).sqe))) (s.ctx c).fseq).zoneWriteErr (s.ctx c).nsid (s.zoneEnt (s.ctx c).nsid (s.zoneOf (s.ctx c).nsid (sqeSlba (s.ctx c).sqe))) none (s.ctx c).count = none ∧ ((s.zent (s.zoneEnt (s.ctx c).nsid (s.zoneOf (s.ctx c).nsid (sqeSlba (s.ctx c).sqe)))).state.hasRows = true → s.lostDies (s.stmpl (s.zent (s.zoneEnt (s.ctx c).nsid (s.zoneOf (s.ctx c).nsid (sqeSlba (s.ctx c).sqe)))).tmpl) ≤ (s.stmpl (s.zent (s.zoneEnt (s.ctx c).nsid (s.zoneOf (s.ctx c).nsid (sqeSlba (s.ctx c).sqe)))).tmpl).parity) ∧ (s.rebuildProj (s.zoneEnt (s.ctx c).nsid (s.zoneOf (s.ctx c).nsid (sqeSlba (s.ctx c).sqe))) (s.ctx c).fseq).openCheck (s.ctx c).nsid (s.zoneEnt (s.ctx c).nsid (s.zoneOf (s.ctx c).nsid (sqeSlba (s.ctx c).sqe))) true = .ok none ∧ (∀ d x, s.ctx? d = some x → x.lockW = none))
    ∧ (∃ (s : State) (c : Nat), c < 65536 ∧ Admitted s c opAppend true ∧ s.appendErr3 (s.ctx c) = none ∧ (s.ctx c).resv = none ∧ sqeSlba (s.ctx c).sqe < (s.ns (s.ctx c).nsid).nsze ∧ ((s.rebuildProj (s.zoneEnt (s.ctx c).nsid (s.zoneOf (s.ctx c).nsid (sqeSlba (s.ctx c).sqe))) (s.ctx c).fseq).proj (s.zoneEnt (s.ctx c).nsid (s.zoneOf (s.ctx c).nsid (sqeSlba (s.ctx c).sqe)))).state = .full)
    ∧ (∃ (s : State) (c : Nat), c < 65536 ∧ Admitted s c opZoneSend true ∧ (s.ctx c).sqe.cdw13.toNat % 256 = 1 ∧ bitAt (s.ctx c).sqe.cdw13.toNat 8 = false ∧ sqeSlba (s.ctx c).sqe < (s.ns (s.ctx c).nsid).nsze ∧ s.zoneOff (s.ctx c).nsid (sqeSlba (s.ctx c).sqe) = 0 ∧ (s.rebuildProj (s.zoneEnt (s.ctx c).nsid (s.zoneOf (s.ctx c).nsid (sqeSlba (s.ctx c).sqe))) (s.ctx c).fseq).zoneActErr (s.ctx c).nsid (s.zoneEnt (s.ctx c).nsid (s.zoneOf (s.ctx c).nsid (sqeSlba (s.ctx c).sqe))) 1 = none ∧ s.lockBlocker { (s.ctx c) with lockW := s.zoneLock (s.ctx c).nsid 1 false (sqeSlba (s.ctx c).sqe) } = none)
    ∧ (∃ (s : State) (c : Nat), c < 65536 ∧ Admitted s c opZoneSend true ∧ (s.ctx c).sqe.cdw13.toNat % 256 = 2 ∧ bitAt (s.ctx c).sqe.cdw13.toNat 8 = false ∧ sqeSlba (s.ctx c).sqe < (s.ns (s.ctx c).nsid).nsze ∧ s.zoneOff (s.ctx c).nsid (sqeSlba (s.ctx c).sqe) = 0 ∧ (s.rebuildProj (s.zoneEnt (s.ctx c).nsid (s.zoneOf (s.ctx c).nsid (sqeSlba (s.ctx c).sqe))) (s.ctx c).fseq).zoneActErr (s.ctx c).nsid (s.zoneEnt (s.ctx c).nsid (s.zoneOf (s.ctx c).nsid (sqeSlba (s.ctx c).sqe))) 2 = none ∧ s.lockBlocker { (s.ctx c) with lockW := s.zoneLock (s.ctx c).nsid 2 false (sqeSlba (s.ctx c).sqe) } = none)
    ∧ (∃ (s : State) (c : Nat), c < 65536 ∧ Admitted s c opZoneSend true ∧ (s.ctx c).sqe.cdw13.toNat % 256 = 4 ∧ bitAt (s.ctx c).sqe.cdw13.toNat 8 = false ∧ sqeSlba (s.ctx c).sqe < (s.ns (s.ctx c).nsid).nsze ∧ s.zoneOff (s.ctx c).nsid (sqeSlba (s.ctx c).sqe) = 0 ∧ (s.rebuildProj (s.zoneEnt (s.ctx c).nsid (s.zoneOf (s.ctx c).nsid (sqeSlba (s.ctx c).sqe))) (s.ctx c).fseq).zoneActErr (s.ctx c).nsid (s.zoneEnt (s.ctx c).nsid (s.zoneOf (s.ctx c).nsid (sqeSlba (s.ctx c).sqe))) 4 = none ∧ s.lockBlocker { (s.ctx c) with lockW := s.zoneLock (s.ctx c).nsid 4 false (sqeSlba (s.ctx c).sqe) } = none)
    ∧ (∃ (s : State) (c : Nat), c < 65536 ∧ Admitted s c opZoneSend true ∧ (s.ctx c).sqe.cdw13.toNat % 256 = 5 ∧ bitAt (s.ctx c).sqe.cdw13.toNat 8 = false ∧ sqeSlba (s.ctx c).sqe < (s.ns (s.ctx c).nsid).nsze ∧ s.zoneOff (s.ctx c).nsid (sqeSlba (s.ctx c).sqe) = 0 ∧ (s.rebuildProj (s.zoneEnt (s.ctx c).nsid (s.zoneOf (s.ctx c).nsid (sqeSlba (s.ctx c).sqe))) (s.ctx c).fseq).zoneActErr (s.ctx c).nsid (s.zoneEnt (s.ctx c).nsid (s.zoneOf (s.ctx c).nsid (sqeSlba (s.ctx c).sqe))) 5 = none ∧ s.lockBlocker { (s.ctx c) with lockW := s.zoneLock (s.ctx c).nsid 5 false (sqeSlba (s.ctx c).sqe) } = none)
    ∧ (∃ (s : State) (c : Nat), c < 65536 ∧ Admitted s c opZoneSend true ∧ (s.ctx c).sqe.cdw13.toNat % 256 = 3 ∧ bitAt (s.ctx c).sqe.cdw13.toNat 8 = false ∧ sqeSlba (s.ctx c).sqe < (s.ns (s.ctx c).nsid).nsze ∧ s.zoneOff (s.ctx c).nsid (sqeSlba (s.ctx c).sqe) = 0 ∧ (s.rebuildProj (s.zoneEnt (s.ctx c).nsid (s.zoneOf (s.ctx c).nsid (sqeSlba (s.ctx c).sqe))) (s.ctx c).fseq).zoneActErr (s.ctx c).nsid (s.zoneEnt (s.ctx c).nsid (s.zoneOf (s.ctx c).nsid (sqeSlba (s.ctx c).sqe))) 3 = none ∧ (s.rebuildProj (s.zoneEnt (s.ctx c).nsid (s.zoneOf (s.ctx c).nsid (sqeSlba (s.ctx c).sqe))) (s.ctx c).fseq).openCheck (s.ctx c).nsid (s.zoneEnt (s.ctx c).nsid (s.zoneOf (s.ctx c).nsid (sqeSlba (s.ctx c).sqe))) false = .ok none ∧ s.lockBlocker { (s.ctx c) with lockW := s.zoneLock (s.ctx c).nsid 3 false (sqeSlba (s.ctx c).sqe) } = none)
    ∧ (∃ (s : State) (c : Nat) (f : Nat × Instr), c < 65536 ∧ f ∈ [(1, .zoneClose c), (2, .zoneFinish c), (4, .zoneReset c), (5, .zoneOffline c)] ∧ Admitted s c opZoneSend true ∧ (s.ctx c).sqe.cdw13.toNat % 256 = f.1 ∧ bitAt (s.ctx c).sqe.cdw13.toNat 8 = true ∧ s.lockBlocker { (s.ctx c) with lockW := s.zoneLock (s.ctx c).nsid f.1 true (sqeSlba (s.ctx c).sqe) } = none)
    ∧ (∃ (s : State) (c : Nat), c < 65536 ∧ Admitted s c opZoneSend true ∧ (s.ctx c).sqe.cdw13.toNat % 256 = 5 ∧ bitAt (s.ctx c).sqe.cdw13.toNat 8 = false ∧ sqeSlba (s.ctx c).sqe < (s.ns (s.ctx c).nsid).nsze ∧ s.zoneOff (s.ctx c).nsid (sqeSlba (s.ctx c).sqe) = 0 ∧ ((s.rebuildProj (s.zoneEnt (s.ctx c).nsid (s.zoneOf (s.ctx c).nsid (sqeSlba (s.ctx c).sqe))) (s.ctx c).fseq).proj (s.zoneEnt (s.ctx c).nsid (s.zoneOf (s.ctx c).nsid (sqeSlba (s.ctx c).sqe)))).state = .full)
    ∧ (∃ (s : State) (c : Nat), c < 65536 ∧ Admitted s c opZoneRecv false ∧ zmrErr3 (s.ctx c).sqe = none ∧ sqeSlba (s.ctx c).sqe < (s.ns (s.ctx c).nsid).nsze)
    ∧ (∃ (s : State) (c : Nat), c < 65536 ∧ Admitted s c opIoMgmtRecv false ∧ (s.ctx c).sqe.cdw10.toNat % 256 = 1 ∧ s.fdpOn (s.ctx c).nsid = true)
    ∧ (∃ (s : State) (c : Nat) (l : List Nat), c < 65536 ∧ Admitted s c opIoMgmtSend true ∧ s.ioSendErr3 (s.ctx c) (some l) = none) := by
  refine ⟨⟨io { stage := 3, opc := opAppend, nsid := 8 } { up with zon := { up.zon with nss := [(8, { zoned := true, nsze := 65536, attached := [0], extents := [3] })], ents := [(3072, { state := .implicit, wp := 0 })] } }, 65535, by 
      unfold Admitted SeatOpen
      refine ⟨by decide +kernel, by decide +kernel, by decide +kernel, by decide +kernel, by decide +kernel, by decide +kernel, by decide +kernel, ?_, ?_⟩
      · rfl
      · intro d x h; rw [io_only (by rfl) h]⟩,
    ⟨io { stage := 3, opc := opAppend, nsid := 8 } { up with zon := { up.zon with nss := [(8, { zoned := true, nsze := 65536, attached := [0], extents := [3] })], ents := [(3072, { state := .full, wp := 0 })] } }, 65535, by unfold Admitted SeatOpen; decide +kernel⟩,
    ⟨io { stage := 3, opc := opZoneSend, nsid := 8, sqe := { cdw13 := 1 } } { up with zon := { up.zon with nss := [(8, { zoned := true, nsze := 65536, attached := [0], extents := [3] })], ents := [(3072, { state := .explicit, wp := 0 })] } }, 65535, by unfold Admitted SeatOpen; decide +kernel⟩,
    ⟨io { stage := 3, opc := opZoneSend, nsid := 8, sqe := { cdw13 := 2 } } { up with zon := { up.zon with nss := [(8, { zoned := true, nsze := 65536, attached := [0], extents := [3] })], ents := [(3072, { state := .empty, wp := 0 })] } }, 65535, by unfold Admitted SeatOpen; decide +kernel⟩,
    ⟨io { stage := 3, opc := opZoneSend, nsid := 8, sqe := { cdw13 := 4 } } { up with zon := { up.zon with nss := [(8, { zoned := true, nsze := 65536, attached := [0], extents := [3] })], ents := [(3072, { state := .full, wp := 0 })] } }, 65535, by unfold Admitted SeatOpen; decide +kernel⟩,
    ⟨io { stage := 3, opc := opZoneSend, nsid := 8, sqe := { cdw13 := 5 } } { up with zon := { up.zon with nss := [(8, { zoned := true, nsze := 65536, attached := [0], extents := [3] })], ents := [(3072, { state := .readOnly, wp := 0 })] } }, 65535, by unfold Admitted SeatOpen; decide +kernel⟩,
    ⟨io { stage := 3, opc := opZoneSend, nsid := 8, sqe := { cdw13 := 3 } } { up with zon := { up.zon with nss := [(8, { zoned := true, nsze := 65536, attached := [0], extents := [3] })], ents := [(3072, { state := .empty, wp := 0 })] } }, 65535, by 
      unfold Admitted SeatOpen
      exact ⟨by decide +kernel, by decide +kernel, by decide +kernel, by decide +kernel, by decide +kernel, by decide +kernel, by decide +kernel, by rfl, by decide +kernel⟩⟩,
    ⟨io { stage := 3, opc := opZoneSend, nsid := 8, sqe := { cdw13 := 0x105 } } { up with zon := { up.zon with nss := [(8, { zoned := true, nsze := 65536, attached := [0], extents := [3] })], ents := [(3072, { state := .readOnly, wp := 0 })] } }, 65535, (5, .zoneOffline 65535), by unfold Admitted SeatOpen; decide +kernel⟩,
    ⟨io { stage := 3, opc := opZoneSend, nsid := 8, sqe := { cdw13 := 5 } } { up with zon := { up.zon with nss := [(8, { zoned := true, nsze := 65536, attached := [0], extents := [3] })], ents := [(3072, { state := .full, wp := 0 })] } }, 65535, by unfold Admitted SeatOpen; decide +kernel⟩,
    ⟨io { stage := 3, opc := opZoneRecv, nsid := 8 } { up with zon := { up.zon with nss := [(8, { zoned := true, nsze := 65536, attached := [0], extents := [3] })], ents := [(3072, { state := .implicit, wp := 0 })] } }, 65535, by unfold Admitted SeatOpen; decide +kernel⟩,
    ⟨io { stage := 3, opc := opIoMgmtRecv, nsid := 8, sqe := { cdw10 := 1 } } { up with zon := { up.zon with fdp := [(0, { enabled := true })], nss := [(8, { zoned := true, nsze := 65536, attached := [0], extents := [3] })], ents := [(3072, { state := .implicit, wp := 0 })] } }, 65535, by unfold Admitted SeatOpen; decide +kernel⟩,
    ⟨io { stage := 3, opc := opIoMgmtSend, nsid := 8, sqe := { cdw10 := 1 } } { up with zon := { up.zon with fdp := [(0, { enabled := true })], nss := [(8, { zoned := true, nsze := 65536, attached := [0], extents := [3], handles := [0] })], ents := [(3072, { state := .implicit, wp := 0 })] } }, 65535, [0], by unfold Admitted SeatOpen; decide +kernel⟩⟩

theorem witness_MediaRows :
    (∃ (s : State) (d : Nat) (k : Nat), dispatchOk (.erase d k) = true ∧ s.flt.safe = false ∧ s.thm.coldHold = false ∧ (s.blk d k).needErase = true ∧ (s.blk d k).role ≠ .retired ∧ (s.die d).state.present = true ∧ (∀ o ∈ (s.die d).ops, o.block ≠ k))
    ∧ (∃ (s : State) (d : Nat) (k : Nat), dieOk d = true ∧ (s.flt.safe = true ∨ s.thm.coldHold = true ∨ (s.blk d k).needErase = false ∨ (s.die d).state.present = false))
    ∧ (∃ (s : State) (c : Nat) (j : Nat) (x : Ctx) (v : CUnit), c < 65536 ∧ s.flt.safe = false ∧ s.ctx? c = some x ∧ x.mayIssue j = true ∧ x.units[j]? = some v ∧ v.loc = none)
    ∧ (∃ (s : State) (d : Nat) (k : Nat) (o : DieOp), dieOk d = true ∧ s.flt.safe = false ∧ (s.die d).cur = some o ∧ o.k = .erase k ∧ (s.blk d k).role ≠ .landing ∧ (s.chan (dieChannel d)).cstate ≠ 3)
    ∧ (∃ (s : State) (d : Nat), dieOk d = true ∧ (s.die d).cur = none)
    ∧ (∃ (s : State) (c : Nat) (j : Nat) (k : Nat) (o : DieOp) (x : Ctx) (v : CUnit) (g : Nat), ctxOk c = true ∧ s.flt.safe = false ∧ s.ctx? c = some x ∧ s.liveUnit c j g = some v ∧ v.loc = some k ∧ s.lateRead (.cmd c j g) k = some o ∧ s.eclOf (.cmd c j g) k = none ∧ s.eclAllowed (ukRow k) (s.unitDie k) = true ∧ s.eclCredit (dieBay (s.unitDie k)) (s.stmpl (rkTmpl (ukRow k))).data = false)
    ∧ (∃ (s : State) (t : State) (c : Nat) (j : Nat) (k : Nat) (h : Nat) (o : DieOp) (x : Ctx) (v : CUnit) (g : Nat), ctxOk c = true ∧ s.flt.safe = false ∧ s.ctx? c = some x ∧ s.liveUnit c j g = some v ∧ v.loc = some k ∧ s.lateRead (.cmd c j g) k = some o ∧ s.eclOf (.cmd c j g) k = none ∧ s.eclAllowed (ukRow k) (s.unitDie k) = true ∧ s.eclCredit (dieBay (s.unitDie k)) (s.stmpl (rkTmpl (ukRow k))).data = true ∧ s.landingFrame c (s.unitDie k) x.slice = (some h, t) ∧ o.unit = k)
    ∧ (∃ (s : State) (c : Nat) (j : Nat) (x : Ctx) (v : CUnit) (k : Nat) (g : Nat), ctxOk c = true ∧ s.ctx? c = some x ∧ s.liveUnit c j g = some v ∧ v.loc = some k ∧ s.lateRead (.cmd c j g) k = none)
    ∧ (∃ (s : State) (d : Nat) (o : DieOp), dieOk d = true ∧ (s.die d).cur = some o ∧ (s.die d).state.present = true ∧ s.flt.safe = false ∧ (s.die d).startUs + 4 * s.longestUs d ≤ s.nowUs)
    ∧ (∃ (s : State) (d : Nat), dieOk d = true ∧ ((s.die d).cur = none ∨ s.nowUs < (s.die d).startUs + 4 * s.longestUs d))
    ∧ (∃ (s : State) (ch : Nat) (m : Nat), chanOk ch = true ∧ (s.chan ch).cstate = 2 ∧ (s.chan ch).retuneDue s.nowMs = true ∧ m < 128)
    ∧ (∃ (s : State) (ch : Nat), chanOk ch = true ∧ (s.chan ch).retrainAct.busy = false ∧ (s.chan ch).cstate ≠ 0 ∧ (s.chan ch).cstate ≠ 4 ∧ (s.chan ch).cstate ≠ 5)
    ∧ (∃ (s : State) (ch : Nat), chanOk ch = true ∧ (s.chan ch).cstate = 3)
    ∧ (∃ (k : Nat) (e : Nat) (r : Nat), bayOk k = true ∧ e < 64 ∧ r < 64)
    ∧ (∃ (s : State) (d : Nat), dieOk d = true ∧ (s.die d).state.present = true ∧ (s.die d).cur = none ∧ s.dieServes d = true ∧ s.flt.safe = false ∧ (s.die d).tempDue s.nowMs = true)
    ∧ (∃ (s : State) (c : Nat) (j : Nat) (g : Nat), ctxOk c = true ∧ s.liveUnit c j g = none) := by
  refine ⟨⟨{ up with med := { up.med with blks := [(blkKey 64 7, { needErase := true })] } }, 64, 7, by decide +kernel⟩,
    ⟨{ up with med := { up.med with chans := [(63, { cstate := 2 })] } }, 63, 127, by decide +kernel⟩,
    ⟨io { stage := 9, opc := opRead, units := [{}] }, 65535, 0, (io { stage := 9, opc := opRead, units := [{}] }).ctx 65535, {}, by decide +kernel⟩,
    ⟨{ up with med := { up.med with dies := [(0, { state := .online, cur := some { k := .erase 7, block := 7 } })] } }, 0, 7, { k := .erase 7, block := 7 }, by decide +kernel⟩,
    ⟨up, 2047, by decide +kernel⟩,
    ⟨io { stage := 9, opc := opRead, gen := 5, units := [{ loc := some 0, issued := true }] } { up with epoch := 1000, med := { up.med with dies := [(0, { state := .online, goodBlocks := 1000, queue := [{ k := .read (.cmd 65535 0 5), cls := 1, unit := 0, step := 1 }] }), (32, { state := .online, goodBlocks := 1000 }), (64, { state := .online, goodBlocks := 1000 })], clus := [(0, { eclPct := 0 })] } }, 65535, 0, 0, { k := .read (.cmd 65535 0 5), cls := 1, unit := 0, step := 1 }, { stage := 9, opc := opRead, gen := 5, units := [{ loc := some 0, issued := true }] }, { loc := some 0, issued := true }, 5, by decide +kernel⟩,
    ⟨io { stage := 9, opc := opRead, gen := 5, units := [{ loc := some 0, issued := true }] } { up with epoch := 1000, bpm := { up.bpm with pools := [(0, { frames := 100, filled := 100 })] }, med := { up.med with dies := [(0, { state := .online, goodBlocks := 1000, queue := [{ k := .read (.cmd 65535 0 5), cls := 1, unit := 0, step := 1 }] }), (32, { state := .online, goodBlocks := 1000 }), (64, { state := .online, goodBlocks := 1000 })] } }, ((io { stage := 9, opc := opRead, gen := 5, units := [{ loc := some 0, issued := true }] } { up with epoch := 1000, bpm := { up.bpm with pools := [(0, { frames := 100, filled := 100 })] }, med := { up.med with dies := [(0, { state := .online, goodBlocks := 1000, queue := [{ k := .read (.cmd 65535 0 5), cls := 1, unit := 0, step := 1 }] }), (32, { state := .online, goodBlocks := 1000 }), (64, { state := .online, goodBlocks := 1000 })] } }).landingFrame 65535 0 0).2, 65535, 0, 0, ((io { stage := 9, opc := opRead, gen := 5, units := [{ loc := some 0, issued := true }] } { up with epoch := 1000, bpm := { up.bpm with pools := [(0, { frames := 100, filled := 100 })] }, med := { up.med with dies := [(0, { state := .online, goodBlocks := 1000, queue := [{ k := .read (.cmd 65535 0 5), cls := 1, unit := 0, step := 1 }] }), (32, { state := .online, goodBlocks := 1000 }), (64, { state := .online, goodBlocks := 1000 })] } }).landingFrame 65535 0 0).1.getD 0, { k := .read (.cmd 65535 0 5), cls := 1, unit := 0, step := 1 }, { stage := 9, opc := opRead, gen := 5, units := [{ loc := some 0, issued := true }] }, { loc := some 0, issued := true }, 5, by decide +kernel⟩,
    ⟨io { stage := 9, opc := opRead, gen := 5, units := [{ loc := some 0, issued := true }] } { up with epoch := 1000, med := { up.med with dies := [(0, { state := .online, goodBlocks := 1000 }), (32, { state := .online, goodBlocks := 1000 }), (64, { state := .online, goodBlocks := 1000 })] } }, 65535, 0, { stage := 9, opc := opRead, gen := 5, units := [{ loc := some 0, issued := true }] }, { loc := some 0, issued := true }, 0, 5, by decide +kernel⟩,
    ⟨{ up with med := { up.med with dies := [(2047, { state := .online, cur := some { k := .erase 7, block := 7 } })] } }, 2047, { k := .erase 7, block := 7 }, by decide +kernel⟩,
    ⟨{ up with med := { up.med with chans := [(63, { cstate := 2 })] } }, 63, by decide +kernel⟩,
    ⟨{ up with med := { up.med with chans := [(63, { cstate := 2 })] } }, 63, 127, by decide +kernel⟩,
    ⟨{ up with med := { up.med with chans := [(63, { cstate := 2 })] } }, 63, by decide +kernel⟩,
    ⟨{ up with med := { up.med with chans := [(63, { cstate := 3 })] } }, 63, by decide +kernel⟩,
    ⟨15, 63, 63, by decide +kernel⟩,
    ⟨{ up with med := { up.med with blks := [(blkKey 64 7, { needErase := true })] } }, 64, by decide +kernel⟩,
    ⟨up, 65535, 65535, 65535, by decide +kernel⟩⟩

theorem witness_MediaLifeRows :
    (∃ (s : State), s.flt.safe = false ∧ s.mlf.savedMs + 3600000 ≤ s.nowMs)
    ∧ (∃ (s : State), (s.flt.safe = true ∨ s.nowMs < s.mlf.savedMs + 3600000))
    ∧ (∃ (s : State) (q : Nat) (a : Nat × Nat) (l : List (Nat × Nat)), setOk q = true ∧ s.setBlocks q = a :: l ∧ (s.setLife q).wlActive = false)
    ∧ (∃ (s : State) (q : Nat) (a : Nat × Nat) (l : List (Nat × Nat)), setOk q = true ∧ s.setBlocks q = a :: l ∧ (s.setLife q).wlActive = true ∧ 100 * (maxNat ((a :: l).map (·.1)) - minNat ((a :: l).map (·.1))) ≤ s.mlf.wlStop * 12 * a.2)
    ∧ (∃ (s : State) (id : Nat), tget s.med.relocs id = none)
    ∧ (∃ (s : State) (id : Nat) (r : Reloc), tget s.med.relocs id = some r ∧ s.maySwitch id r = false ∧ (r.paused = true ∨ s.flt.safe = true ∨ s.thm.coldHold = true))
    ∧ (∃ (s : State) (id : Nat) (r : Reloc), tget s.med.relocs id = some r ∧ s.maySwitch id r = true ∧ r.zent = none ∧ (s.relocKeys r).Nodup ∧ (∀ d ∈ (s.stmpl r.srcTmpl).dies, ∀ i < r.rows, (s.blk d (r.srcBlock + i)).step3 = false))
    ∧ (∃ (s : State) (id : Nat) (e : Nat) (r : Reloc), tget s.med.relocs id = some r ∧ s.maySwitch id r = true ∧ r.zent = some e ∧ (∀ d ∈ (s.stmpl r.srcTmpl).dies, ∀ i < r.rows, (s.blk d (r.srcBlock + i)).step3 = false))
    ∧ (∃ (s : State) (a : Nat) (l : List Nat), s.zon.journalSegs = a :: l ∧ s.zon.ckptRun = true ∧ s.flt.safe = false)
    ∧ (∃ (s : State) (a : Nat), (s.zon.journalSegs.head? ≠ some a ∨ s.zon.ckptRun = false ∨ s.flt.safe = true))
    ∧ (∃ (a : Nat) (b : Nat) (c : Nat), a < 64 ∧ b < 64 ∧ c < 64)
    ∧ (∃ (a : Nat), a < 128)
    ∧ (∃ (s : State) (d : Nat) (t : StripeTmpl), dieOk d = true ∧ s.tmplFor d = some t)
    ∧ (∃ (s : State) (d : Nat) (g : Nat) (h : Nat) (t : StripeTmpl), dieOk d = true ∧ s.tmplFor d = some t ∧ (s.blk d (g * 16)).programmedAt ≠ 0 ∧ s.refreshH (s.blk d (g * 16)).mode < h ∧ tget s.med.use (rowKey t.id (g * 16)) ≠ none ∧ (tval s.med.use (rowKey t.id (g * 16)) : RowUse).target = false ∧ s.relocating t.id (g * 16) = false ∧ s.relocFor .refresh t.id (g * 16) = none ∧ s.med.refreshQ = [] ∧ (∀ i, 0 < i → i < 16 → tget s.med.use (rowKey t.id (g * 16 + i)) = none))
    ∧ (∃ (s : State) (q : Nat) (h : Nat), setOk q = true ∧ (tval s.zon.fdp q : Fdp).enabled = true ∧ s.zon.nss.any (fun e => (s.clsRec e.2.cls).set == q && !e.2.zoned && e.2.handles.contains h && (List.range (max 1 s.reclaimGroups)).any (fun g => (s.convOpenRow e.1 g h).isSome)) = true)
    ∧ (∃ (s : State) (q : Nat), setOk q = true ∧ (tval s.zon.fdp q : Fdp).enabled = false)
    ∧ (∃ (s : State) (n : Nat) (z : Nat) (e : Nat), nsOk n = true ∧ s.zoneArg n z = some e ∧ (s.zent e).state.active = true ∧ (s.zent e).fzr = false ∧ (s.zent e).lastWrite + 86400000 ≤ s.nowMs)
    ∧ (∃ (s : State) (n : Nat) (z : Nat) (e : Nat), nsOk n = true ∧ s.zoneArg n z = some e ∧ ((s.zent e).state.active = false ∨ (s.zent e).fzr = true ∨ s.nowMs < (s.zent e).lastWrite + 86400000))
    ∧ (∃ (s : State) (n : Nat) (z : Nat) (e : Nat), nsOk n = true ∧ s.zoneArg n z = some e ∧ (s.zent e).state.active = true ∧ (s.zent e).fzr = true ∧ max (s.zent e).fzrAt (s.zent e).lastWrite + 172800000 ≤ s.nowMs)
    ∧ (∃ (s : State) (n : Nat) (z : Nat) (e : Nat), nsOk n = true ∧ s.zoneArg n z = some e ∧ ((s.zent e).state.active = false ∨ (s.zent e).fzr = false ∨ s.nowMs < max (s.zent e).fzrAt (s.zent e).lastWrite + 172800000))
    ∧ (∃ (n : Nat) (a : Nat) (o : Nat), nsOk n = true ∧ a < 16384 ∧ o < 16384) := by
  refine ⟨⟨{ up with epoch := 10 ^ 12 }, by decide +kernel⟩,
    ⟨up, by decide +kernel⟩,
    ⟨{ up with pat := { eff := { testPat with media := some { bayMask := 1, bayType := [0], types := [{ pageB := 16384, pagesBlk := 512, blksPlane := 1, planes := 1, luns := 1, tgts := 1, modes := 1, ratedPe := 3000 }] } } } }, 0, (0, 3000), [(0, 3000), (0, 3000)], by decide +kernel⟩,
    ⟨{ up with med := { up.med with sets := [(0, { wlActive := true })] }, pat := { eff := { testPat with media := some { bayMask := 1, bayType := [0], types := [{ pageB := 16384, pagesBlk := 512, blksPlane := 1, planes := 1, luns := 1, tgts := 1, modes := 1, ratedPe := 3000 }] } } } }, 0, (0, 3000), [(0, 3000), (0, 3000)], by decide +kernel⟩,
    ⟨up, 9, by decide +kernel⟩,
    ⟨{ up with med := { up.med with relocs := [(9, { srcBlock := 3, hasTgt := true, paused := true, tgtBlock := 4 })] }, zon := { up.zon with map := [(mapKey 8 1023, { loc := some (3 * 2 ^ 32) })] } }, 9, { srcBlock := 3, hasTgt := true, paused := true, tgtBlock := 4 }, by decide +kernel⟩,
    ⟨{ up with med := { up.med with relocs := [(9, { srcBlock := 3, hasTgt := true, programming := true, tgtBlock := 4, gens := [(mapKey 8 1023, 0)] })] }, zon := { up.zon with map := [(mapKey 8 1023, { loc := some (3 * 2 ^ 32) })] } }, 9, { srcBlock := 3, hasTgt := true, programming := true, tgtBlock := 4, gens := [(mapKey 8 1023, 0)] }, by decide +kernel⟩,
    ⟨{ up with med := { up.med with relocs := [(9, { zent := some 3072, srcBlock := 3, hasTgt := true, programming := true, tgtBlock := 4, gens := [(3072, 0)] })] }, zon := { up.zon with ents := [(3072, { state := .full })] } }, 9, 3072, { zent := some 3072, srcBlock := 3, hasTgt := true, programming := true, tgtBlock := 4, gens := [(3072, 0)] }, by decide +kernel⟩,
    ⟨{ up with zon := { up.zon with journalSegs := [5, 6], ckptRun := true } }, 5, [6], by decide +kernel⟩,
    ⟨up, 9, by decide +kernel⟩,
    ⟨63, 63, 63, by decide +kernel⟩,
    ⟨9, by decide +kernel⟩,
    ⟨up, 64, { dies := [0, 32, 64] }, by decide +kernel⟩,
    ⟨{ up with med := { up.med with blks := [(blkKey 64 7 * 0 + blkKey 64 16, { programmedAt := 1 })], use := [(rowKey 0 16, { zent := some 3072 })] }, zon := { up.zon with ents := [(3072, { state := .implicit })] } }, 64, 1, 2 ^ 30, { dies := [0, 32, 64] }, by 
      refine ⟨by decide +kernel, by decide +kernel, by decide +kernel, by decide +kernel, by decide +kernel, by decide +kernel, by decide +kernel, by decide +kernel, by decide +kernel, ?_⟩
      intro i h1 h2; obtain rfl | rfl | rfl | rfl | rfl | rfl | rfl | rfl | rfl | rfl | rfl | rfl | rfl | rfl | rfl := (by omega : i = 1 ∨ i = 2 ∨ i = 3 ∨ i = 4 ∨ i = 5 ∨ i = 6 ∨ i = 7 ∨ i = 8 ∨ i = 9 ∨ i = 10 ∨ i = 11 ∨ i = 12 ∨ i = 13 ∨ i = 14 ∨ i = 15) <;> decide +kernel⟩,
    ⟨{ up with zon := { up.zon with fdp := [(0, { enabled := true, evEnable := [(0, 1)] })], nss := [(8, { handles := [0] })] }, med := { up.med with use := [(rowKey 0 16, { ns := 8, next := 1 })] } }, 0, 0, by decide +kernel⟩,
    ⟨up, 63, by decide +kernel⟩,
    ⟨{ up with epoch := 10 ^ 12, zon := { up.zon with nss := [(8, { zoned := true, nsze := 65536, attached := [0], extents := [3] })], ents := [(3072, { state := .implicit })] } }, 8, 0, 3072, by decide +kernel⟩,
    ⟨{ up with zon := { up.zon with nss := [(8, { zoned := true, nsze := 65536, attached := [0], extents := [3] })], ents := [(3072, { state := .implicit })] } }, 8, 0, 3072, by decide +kernel⟩,
    ⟨{ up with epoch := 10 ^ 12, zon := { up.zon with nss := [(8, { zoned := true, nsze := 65536, attached := [0], extents := [3] })], ents := [(3072, { state := .implicit, fzr := true })] } }, 8, 0, 3072, by decide +kernel⟩,
    ⟨{ up with zon := { up.zon with nss := [(8, { zoned := true, nsze := 65536, attached := [0], extents := [3] })], ents := [(3072, { state := .implicit })] } }, 8, 0, 3072, by decide +kernel⟩,
    ⟨63, 63, 63, by decide +kernel⟩⟩

theorem witness_BayRows :
    (∃ (s : State) (b : Nat), bayOk b = true ∧ (s.bay b).prsnt = false)
    ∧ (∃ (s : State) (b : Nat), bayOk b = true ∧ (s.bay b).bstate = 1 ∧ (s.bay b).prsnt = true ∧ s.flt.safe = false ∧ (s.bay b).stepAt + 100 ≤ s.nowMs)
    ∧ (∃ (s : State) (b : Nat), bayOk b = true ∧ (s.bay b).bstate = 2 ∧ (s.bay b).pwren = true ∧ s.flt.safe = false)
    ∧ (∃ (s : State) (b : Nat), bayOk b = true ∧ (s.bay b).bstate = 2 ∧ (s.bay b).pwren = true ∧ (s.bay b).pwrgd = false ∧ s.flt.safe = false ∧ (s.bay b).stepAt + 300 ≤ s.nowMs)
    ∧ (∃ (s : State) (b : Nat), bayOk b = true ∧ (s.bay b).bstate = 7 ∧ (s.bay b).pwren = false ∧ s.flt.safe = false)
    ∧ (∃ (b : Nat), bayOk b = true)
    ∧ (∃ (s : State) (b : Nat), bayOk b = true ∧ (s.bay b).prsnt = true ∧ ((s.bay b).bstate = 1 ∨ ((s.bay b).bstate = 2 ∧ (s.bay b).pwren = false)))
    ∧ (∃ (s : State) (b : Nat) (gone : Bool), bayOk b = true ∧ (s.bay b).prsnt = true ∧ s.flt.safe = false ∧ (((s.bay b).bstate = 2 ∧ (s.bay b).pwren = true ∧ gone = true) ∨ (s.bay b).bstate = 3 ∨ (s.bay b).bstate = 4 ∨ (s.bay b).bstate = 5 ∨ (s.bay b).bstate = 6 ∨ ((s.bay b).bstate = 7 ∧ (s.bay b).pwren = true)))
    ∧ (∃ (s : State) (b : Nat), bayOk b = true ∧ (s.bay b).prsnt = true ∧ s.flt.safe = true ∧ ((s.bay b).bstate = 3 ∨ (s.bay b).bstate = 4 ∨ (s.bay b).bstate = 5 ∨ (s.bay b).bstate = 6 ∨ ((s.bay b).bstate = 7 ∧ (s.bay b).pwren = true)))
    ∧ (∃ (s : State) (b : Nat) (f : Bool), bayOk b = true ∧ (s.bay b).cmdAct.busy = false ∧ ((s.bay b).bstate = 4 ∨ (s.bay b).bstate = 5 ∨ (s.bay b).bstate = 6) ∧ (f = true ∨ (s.removalHurts b = false ∧ (match s.pat.eff.stripe with | some m => m.singleBay | none => false) = false)))
    ∧ (∃ (s : State) (b : Nat) (f : Bool), bayOk b = true ∧ (s.bay b).cmdAct.busy = false ∧ (((s.bay b).bstate ≠ 4 ∧ (s.bay b).bstate ≠ 5 ∧ (s.bay b).bstate ≠ 6) ∨ (f = false ∧ (s.removalHurts b = true ∨ (match s.pat.eff.stripe with | some m => m.singleBay | none => false) = true))))
    ∧ (∃ (s : State) (b : Nat), bayOk b = true ∧ (s.bay b).bstate = 7 ∧ (s.bay b).pwren = true ∧ s.bayDrained b = true ∧ s.flt.safe = false)
    ∧ (∃ (s : State) (b : Nat), bayOk b = true ∧ (s.bay b).cmdAct.busy = false)
    ∧ (∃ (s : State) (b : Nat), bayOk b = true ∧ (s.bay b).cmdAct.busy = true)
    ∧ (∃ (s : State) (b : Nat), bayOk b = true ∧ s.flt.safe = true) := by
  refine ⟨⟨up, 15, by decide +kernel⟩,
    ⟨{ up with epoch := 10 ^ 12, med := { up.med with bays := [(15, { bstate := 1, prsnt := true })] } }, 15, by decide +kernel⟩,
    ⟨{ up with med := { up.med with bays := [(15, { bstate := 2, pwren := true })] } }, 15, by decide +kernel⟩,
    ⟨{ up with epoch := 10 ^ 12, med := { up.med with bays := [(15, { bstate := 2, pwren := true })] } }, 15, by decide +kernel⟩,
    ⟨{ up with med := { up.med with bays := [(15, { bstate := 7 })] } }, 15, by decide +kernel⟩,
    ⟨15, by decide +kernel⟩,
    ⟨{ up with med := { up.med with bays := [(15, { bstate := 1, prsnt := true })] } }, 15, by decide +kernel⟩,
    ⟨{ up with epoch := 10 ^ 12, med := { up.med with bays := [(15, { bstate := 7, prsnt := true, pwren := true })] } }, 15, true, by decide +kernel⟩,
    ⟨{ ({ up with epoch := 10 ^ 12, med := { up.med with bays := [(15, { bstate := 7, prsnt := true, pwren := true })] } }) with flt := { up.flt with safe := true } }, 15, by decide +kernel⟩,
    ⟨{ up with med := { up.med with bays := [(15, { bstate := 6 })] } }, 15, false, by decide +kernel⟩,
    ⟨{ up with epoch := 10 ^ 12, med := { up.med with bays := [(15, { bstate := 7 })] } }, 15, true, by decide +kernel⟩,
    ⟨{ up with med := { up.med with bays := [(15, { bstate := 7, pwren := true })] } }, 15, by decide +kernel⟩,
    ⟨up, 15, by decide +kernel⟩,
    ⟨{ up with epoch := 10 ^ 12, med := { up.med with bays := [(15, { bstate := 5, cmdAct := wsRun })] } }, 15, by decide +kernel⟩,
    ⟨{ ({ up with med := { up.med with bays := [(15, { bstate := 6 })] } }) with flt := { up.flt with safe := true } }, 15, by decide +kernel⟩⟩

theorem witness_BayDieRows :
    (∃ (s : State) (b : Nat) (l : List ScanDie) (x : ScanDie) (q : ParamPage), bayOk b = true ∧ (s.bay b).bstate = 3 ∧ s.flt.safe = false ∧ (panelType? s.pat.eff b).isSome = true ∧ x ∈ l ∧ dieBay x.die = b ∧ dieExists (s.filled b q) x.die = true ∧ x.geomOk = false)
    ∧ (∃ (s : State) (b : Nat) (l : List ScanDie) (q : ParamPage) (t : TypeRec), bayOk b = true ∧ (s.bay b).bstate = 3 ∧ s.flt.safe = false ∧ panelType? s.pat.eff b = some t ∧ (t.open && s.firstOfType b && !discoveryOk (s.filled b q) b) = false ∧ (l.filter (fun x => dieBay x.die == b && dieExists (s.filled b q) x.die)).all (fun x => x.geomOk) = true ∧ (l.filter (fun x => dieBay x.die == b && dieExists (s.filled b q) x.die)).any (fun x => decide ((s.die x.die).uid ≠ some x.uid)) = true)
    ∧ (∃ (s : State) (b : Nat) (l : List ScanDie) (q : ParamPage) (t : TypeRec), bayOk b = true ∧ (s.bay b).bstate = 3 ∧ s.flt.safe = false ∧ panelType? s.pat.eff b = some t ∧ (t.open && s.firstOfType b && !discoveryOk (s.filled b q) b) = false ∧ (s.bay b).newDies = [] ∧ (∀ x, x ∈ l.filter (fun x => dieBay x.die == b && dieExists (s.filled b q) x.die) → x.geomOk = true ∧ (s.die x.die).uid = some x.uid))
    ∧ (∃ (s : State) (b : Nat) (l : List ScanDie), bayOk b = true ∧ (s.bay b).cmdAct.busy = false ∧ (s.bay b).bstate = 4 ∧ (s.bay b).newDies = l ∧ l ≠ [] ∧ (l.map (·.die)).Nodup)
    ∧ (∃ (s : State) (b : Nat), bayOk b = true ∧ (s.bay b).cmdAct.busy = false ∧ ((s.bay b).bstate ≠ 4 ∨ (s.bay b).newDies = []))
    ∧ (∃ (s : State) (b : Nat), bayOk b = true ∧ (s.bay b).cmdAct.busy = false ∧ (s.bay b).bstate ≠ 4 ∧ (s.bay b).bstate ≠ 5 ∧ (s.bay b).rebTotal = 0) := by
  refine ⟨⟨{ up with epoch := 10 ^ 12, pat := { eff := { testPat with media := some { bayMask := 7, bayType := [0, 0, 0], types := [{ pageB := 16384, spareB := 2208, pagesBlk := 512, blksPlane := 1000, planes := 1, luns := 1, tgts := 1, modes := 1, ratedPe := 3000, tR := [40, 0, 0], tProg := [300, 0, 0], tBers := [3000, 0, 0] }] } } }, med := { up.med with bays := [(0, { bstate := 3 })] } }, 0, [{ die := 0, geomOk := false }], { die := 0, geomOk := false }, {}, by decide +kernel⟩,
    ⟨{ up with epoch := 10 ^ 12, pat := { eff := { testPat with media := some { bayMask := 7, bayType := [0, 0, 0], types := [{ pageB := 16384, spareB := 2208, pagesBlk := 512, blksPlane := 1000, planes := 1, luns := 1, tgts := 1, modes := 1, ratedPe := 3000, tR := [40, 0, 0], tProg := [300, 0, 0], tBers := [3000, 0, 0] }] } } }, med := { up.med with bays := [(0, { bstate := 3 })] } }, 0, [{ die := 0, uid := 77 }], {}, { pageB := 16384, spareB := 2208, pagesBlk := 512, blksPlane := 1000, planes := 1, luns := 1, tgts := 1, modes := 1, ratedPe := 3000, tR := [40, 0, 0], tProg := [300, 0, 0], tBers := [3000, 0, 0] }, by decide +kernel⟩,
    ⟨{ up with epoch := 10 ^ 12, pat := { eff := { testPat with media := some { bayMask := 7, bayType := [0, 0, 0], types := [{ pageB := 16384, spareB := 2208, pagesBlk := 512, blksPlane := 1000, planes := 1, luns := 1, tgts := 1, modes := 1, ratedPe := 3000, tR := [40, 0, 0], tProg := [300, 0, 0], tBers := [3000, 0, 0] }] } } }, med := { up.med with bays := [(0, { bstate := 3 })] } }, 0, [], {}, { pageB := 16384, spareB := 2208, pagesBlk := 512, blksPlane := 1000, planes := 1, luns := 1, tgts := 1, modes := 1, ratedPe := 3000, tR := [40, 0, 0], tProg := [300, 0, 0], tBers := [3000, 0, 0] }, by 
      refine ⟨by decide +kernel, by decide +kernel, by decide +kernel, by decide +kernel, by decide +kernel, by decide +kernel, ?_⟩
      simp⟩,
    ⟨{ up with epoch := 10 ^ 12, pat := { eff := { testPat with media := some { bayMask := 7, bayType := [0, 0, 0], types := [{ pageB := 16384, spareB := 2208, pagesBlk := 512, blksPlane := 1000, planes := 1, luns := 1, tgts := 1, modes := 1, ratedPe := 3000, tR := [40, 0, 0], tProg := [300, 0, 0], tBers := [3000, 0, 0] }] } } }, med := { up.med with bays := [(0, { bstate := 4, newDies := [{ die := 0 }, { die := 1 }] })] } }, 0, [{ die := 0 }, { die := 1 }], by decide +kernel⟩,
    ⟨{ up with med := { up.med with bays := [(15, { bstate := 6 })] } }, 15, by decide +kernel⟩,
    ⟨{ up with med := { up.med with bays := [(15, { bstate := 6 })] } }, 15, by decide +kernel⟩⟩

theorem witness_LinkRows :
    (∃ (s : State) (p : Nat) (g : Nat) (l : Nat), portOk p = true ∧ s.hasPort p = true ∧ s.linkFits g l = true ∧ ((s.port p).lstate = .down ∨ (s.port p).lstate = .training ∨ (s.port p).lstate = .detached))
    ∧ (∃ (s : State) (p : Nat) (g : Nat) (l : Nat), portOk p = true ∧ s.hasPort p = true ∧ s.linkFits g l = true ∧ (s.port p).lstate = .retraining)
    ∧ (∃ (s : State) (p : Nat) (g : Nat) (l : Nat), portOk p = true ∧ (s.hasPort p = false ∨ s.linkFits g l = false ∨ (s.port p).lstate = .up ∨ (s.port p).lstate = .trickle ∨ (s.port p).lstate = .detaching))
    ∧ (∃ (s : State) (p : Nat), portOk p = true ∧ (s.port p).lstate ≠ .down ∧ (s.port p).lstate ≠ .training ∧ (s.port p).phase ≠ 4)
    ∧ (∃ (s : State) (p : Nat), portOk p = true ∧ (s.port p).lstate ≠ .down ∧ (s.port p).lstate ≠ .training ∧ (s.port p).phase = 4)
    ∧ (∃ (s : State) (p : Nat), portOk p = true ∧ ((s.port p).lstate = .down ∨ (s.port p).lstate = .training))
    ∧ (∃ (s : State) (m : Nat) (lost : Nat) (p : Nat), modOk m = true ∧ s.modPortOf m = p ∧ 0 < lost)
    ∧ (∃ (s : State) (m : Nat) (p : Nat), modOk m = true ∧ s.modPortOf m = p ∧ noMod (s.port p).modsUp m ≠ 0)
    ∧ (∃ (s : State) (m : Nat) (p : Nat), modOk m = true ∧ s.modPortOf m = p ∧ noMod (s.port p).modsUp m = 0 ∧ (s.port p).lstate ≠ .down ∧ (s.port p).lstate ≠ .training ∧ (s.port p).phase ≠ 4)
    ∧ (∃ (s : State) (m : Nat) (p : Nat), modOk m = true ∧ s.modPortOf m = p) := by
  refine ⟨⟨{ up with ports := [(1, { lstate := .detached })] }, 1, 32, 64, by decide +kernel⟩,
    ⟨{ up with ports := [(1, { lstate := .retraining })] }, 1, 32, 64, by decide +kernel⟩,
    ⟨up, 1, 32, 16, by decide +kernel⟩,
    ⟨up, 1, by decide +kernel⟩,
    ⟨{ up with ports := [(1, { lstate := .detaching, phase := 4 })] }, 1, by decide +kernel⟩,
    ⟨{ up with ports := [(1, { lstate := .training })] }, 1, by decide +kernel⟩,
    ⟨up, 3, 1, 1, by decide +kernel⟩,
    ⟨up, 3, 1, by decide +kernel⟩,
    ⟨{ up with ports := [(1, { lstate := .up, modsUp := 8 })] }, 3, 1, by decide +kernel⟩,
    ⟨up, 3, 1, by decide +kernel⟩⟩

theorem witness_TrickleRows :
    (∃ (s : State) (p : Nat), portOk p = true ∧ s.trickle.runs = false)
    ∧ (∃ (s : State) (p : Nat), portOk p = true ∧ s.trickle.runs = true)
    ∧ (∃ (s : State) (p : Nat), s.trickle.tstate = 1 ∧ s.flt.safe = false ∧ s.tricklePort = p ∧ ((s.port p).heldDb = [] ∨ s.trickle.autoExit = false))
    ∧ (∃ (s : State) (p : Nat), s.trickle.tstate = 1 ∧ s.flt.safe = false ∧ s.tricklePort = p ∧ (s.port p).heldDb ≠ [] ∧ s.trickle.autoExit = true)
    ∧ (∃ (s : State) (p : Nat) (q : Nat), portOk q = true ∧ s.tricklePort = p ∧ s.trickle.runs = false)
    ∧ (∃ (s : State) (p : Nat), portOk p = true ∧ s.trickle.tstate = 2 ∧ p = s.tricklePort)
    ∧ (∃ (s : State) (p : Nat), s.trickle.tstate = 3 ∧ s.flt.safe = false ∧ s.tricklePort = p ∧ (s.ableMods p).all (fun m => s.islOn (islUCM m)) = true) := by
  refine ⟨⟨up, 1, by decide +kernel⟩,
    ⟨{ up with pat := { eff := { testPat with host := { split := 1, trickleMod := 3 } } }, trickle := { act := wsRun, tstate := 1 }, ports := [(1, { lstate := .up, heldDb := [] })] }, 1, by decide +kernel⟩,
    ⟨{ up with pat := { eff := { testPat with host := { split := 1, trickleMod := 3 } } }, trickle := { tstate := 1 }, ports := [(1, { lstate := .up, heldDb := [] })] }, 1, by decide +kernel⟩,
    ⟨{ up with pat := { eff := { testPat with host := { split := 1, trickleMod := 3 } } }, trickle := { tstate := 1 }, ports := [(1, { lstate := .up, heldDb := [{}] })] }, 1, by decide +kernel⟩,
    ⟨{ up with pat := { eff := { testPat with host := { split := 1, trickleMod := 3 } } }, trickle := { tstate := 2 }, ports := [(1, { lstate := .up, heldDb := [] })] }, 1, 0, by decide +kernel⟩,
    ⟨{ up with trickle := { tstate := 2 } }, 0, by decide +kernel⟩,
    ⟨{ up with pat := { eff := { testPat with host := { split := 1, trickleMod := 3 } } }, trickle := { tstate := 3 }, ports := [(1, { lstate := .up, heldDb := [] })] }, 1, by decide +kernel⟩⟩

theorem witness_DetachRows :
    (∃ (s : State) (p : Nat) (v : Nat), portOk p = true ∧ v % 2 = 1 ∧ (s.port p).detachAct.busy = false)
    ∧ (∃ (s : State) (p : Nat) (v : Nat), portOk p = true ∧ v % 2 = 1 ∧ (s.port p).detachAct.busy = true)
    ∧ (∃ (p : Nat) (v : Nat), portOk p = true ∧ v % 2 = 0)
    ∧ (∃ (s : State) (p : Nat) (x : Bool), portOk p = true ∧ (s.port p).phase = 1 ∧ s.flt.safe = false ∧ (x = true ∨ s.portCtxs p = []))
    ∧ (∃ (s : State) (p : Nat) (x : Bool), portOk p = true ∧ ((s.port p).phase ≠ 1 ∨ s.flt.safe = true ∨ (x = false ∧ s.portCtxs p ≠ [])))
    ∧ (∃ (s : State) (p : Nat), portOk p = true ∧ (s.port p).phase = 2 ∧ (∀ k ∈ (s.port p).flushSet, s.undurableUnit k = false))
    ∧ (∃ (s : State) (p : Nat) (k : Nat), portOk p = true ∧ k ∈ (s.port p).flushSet ∧ s.undurableUnit k = true)
    ∧ (∃ (s : State) (p : Nat) (via : Nat) (v : Nat), portOk p = true ∧ portOk via = true ∧ s.hasPort p = true ∧ v % 2 = 1)
    ∧ (∃ (s : State) (p : Nat), portOk p = true ∧ (s.port p).live = true ∧ (s.port p).leaseEnd ≤ s.nowMs)
    ∧ (∃ (s : State) (p : Nat), portOk p = true ∧ ((s.port p).live = false ∨ s.nowMs < (s.port p).leaseEnd)) := by
  refine ⟨⟨up, 1, 1, by decide +kernel⟩,
    ⟨{ up with ports := [(1, { lstate := .detaching, detachAct := wsRun })] }, 1, 1, by decide +kernel⟩,
    ⟨1, 0, by decide +kernel⟩,
    ⟨{ up with ports := [(1, { phase := 1 })] }, 1, true, by decide +kernel⟩,
    ⟨io { port := 1, stage := 9 } ({ up with ports := [(1, { phase := 1 })] }), 1, false, by decide +kernel⟩,
    ⟨{ up with ports := [(1, { phase := 2, flushSet := [3] })] }, 1, by decide +kernel⟩,
    ⟨{ ({ up with ports := [(1, { phase := 2, flushSet := [0] })] }) with med := { up.med with rows := [(0, { lines := [(0, {})] })] } }, 1, 0, by decide +kernel⟩,
    ⟨up, 1, 0, 3, by decide +kernel⟩,
    ⟨up, 1, by decide +kernel⟩,
    ⟨io { stage := 9, port := 1, opc := opRead } ({ up with ports := [(1, { phase := 1 })] }), 1, by decide +kernel⟩⟩

theorem witness_HostMapRows :
    (∃ (p : Nat) (i : Nat) (sl : Nat) (h : Nat) (b : Nat) (l : Nat), portOk p = true ∧ i < 64 ∧ sl < 2048 ∧ h < 65536 ∧ b < 65536 ∧ l < 65536)
    ∧ (∃ (s : State) (p : Nat) (a : Nat) (n : Nat) (i : Nat) (e : Bar2Ent) (al : Alloc), portOk p = true ∧ (s.port p).bar2.find? (fun e => e.2.en && decide (e.2.baseMib * mib ≤ a) && decide (a + n ≤ (e.2.baseMib + e.2.lenMib) * mib)) = some (i, e) ∧ s.alloc? e.slice e.handle = some al ∧ s.writersOf e.slice 65536 = [])
    ∧ (∃ (s : State) (p : Nat) (a : Nat) (n : Nat) (i : Nat) (e : Bar2Ent) (al : Alloc), portOk p = true ∧ (s.port p).bar2.find? (fun e => e.2.en && decide (e.2.baseMib * mib ≤ a) && decide (a + n ≤ (e.2.baseMib + e.2.lenMib) * mib)) = some (i, e) ∧ s.alloc? e.slice e.handle = some al)
    ∧ (∃ (s : State) (p : Nat) (a : Nat) (n : Nat), portOk p = true ∧ (s.port p).bar2.find? (fun e => e.2.en && decide (e.2.baseMib * mib ≤ a) && decide (a + n ≤ (e.2.baseMib + e.2.lenMib) * mib)) = none)
    ∧ (∃ (s : State) (p : Nat), portOk p = true ∧ s.hasPort p = true)
    ∧ (∃ (s : State) (p : Nat), portOk p = true ∧ s.hasPort p = true)
    ∧ (∃ (s : State) (p : Nat) (e : Nat), portSliceOk p 0 = true ∧ s.liveOn p 0 = true ∧ e < s.pat.eff.host.msix ∧ (tval (s.port p).msix e : MsgEnt).pend = false)
    ∧ (∃ (s : State) (p : Nat) (sl : Nat) (e : Nat), portSliceOk p sl = true ∧ sl ≠ 0 ∧ s.liveOn p sl = true ∧ s.flt.safe = false ∧ e < (s.slc sl).msgCount ∧ (tval (s.slc sl).msgs e : MsgEnt).pend = true)
    ∧ (∃ (s : State) (p : Nat) (sl : Nat) (e : Nat), portSliceOk p sl = true ∧ sl ≠ 0 ∧ s.liveOn p sl = true ∧ s.flt.safe = false ∧ e < (s.slc sl).msgCount ∧ (tval (s.slc sl).msgs e : MsgEnt).pend = false)
    ∧ (∃ (s : State) (p : Nat) (sl : Nat), portSliceOk p sl = true ∧ sl ≠ 0 ∧ s.flt.safe = true) := by
  refine ⟨⟨1, 63, 2047, 65535, 65535, 65535, by decide +kernel⟩,
    ⟨{ ({ up with ports := [(1, { bar2 := [(63, { en := true, slice := 2047, handle := 5, baseMib := 1, lenMib := 4 })] })] }) with cpx := { up.cpx with allocs := [(allocKey 2047 5, {})] } }, 1, 2 ^ 20, 64, 63, { en := true, slice := 2047, handle := 5, baseMib := 1, lenMib := 4 }, {}, by decide +kernel⟩,
    ⟨{ ({ up with ports := [(1, { bar2 := [(63, { en := true, slice := 2047, handle := 5, baseMib := 1, lenMib := 4 })] })] }) with cpx := { up.cpx with allocs := [(allocKey 2047 5, {})] } }, 1, 2 ^ 20, 64, 63, { en := true, slice := 2047, handle := 5, baseMib := 1, lenMib := 4 }, {}, by decide +kernel⟩,
    ⟨up, 1, 0, 64, by decide +kernel⟩,
    ⟨up, 1, by decide +kernel⟩,
    ⟨up, 1, by decide +kernel⟩,
    ⟨up, 1, 1, by decide +kernel⟩,
    ⟨{ up with sli := up.sli ++ [(2047, { state := .created, msgCount := 3, msgs := [(2, { pend := true })] })] }, 0, 2047, 2, by decide +kernel⟩,
    ⟨{ up with sli := up.sli ++ [(2047, { state := .enabled, port := 1, msgCount := 3 })] }, 1, 2047, 2, by decide +kernel⟩,
    ⟨{ up with flt := { up.flt with safe := true } }, 1, 2047, by decide +kernel⟩⟩

theorem witness_PoolRows :
    (∃ (s : State) (c : Nat) (f : Nat) (un : Nat) (sl : Nat) (l : List Nat), c < 6 ∧ sliceOk sl = true ∧ s.stagingFree c un = none ∧ s.classFor c false 6 = some c ∧ (s.pool c).refill.cache = f :: l)
    ∧ (∃ (s : State) (c : Nat) (un : Nat) (sl : Nat) (x : Nat), c < 6 ∧ sliceOk sl = true ∧ askerOk (.command x) = true ∧ (s.ctx? x).isSome = true ∧ s.bpm.stalls = [] ∧ s.allocFrame c un sl false = none ∧ s.allocFrame c un sl true = none)
    ∧ (∃ (s : State) (h : Nat), s.handleLive h = true ∧ (s.frame (hKey s h)).named = false)
    ∧ (∃ (s : State) (h : Nat), s.handleLive h = false)
    ∧ (∃ (s : State) (h : Nat) (a : Nat), s.handleLive h = true ∧ (s.frame (hKey s h)).named = true ∧ (s.frame (hKey s h)).owner ≠ a)
    ∧ (∃ (s : State) (h : Nat), s.handleLive h = true ∧ (s.frame (hKey s h)).named = false ∧ 1 < (s.frame (hKey s h)).refs)
    ∧ (∃ (s : State) (h : Nat) (a : Nat), s.handleLive h = true ∧ ((s.frame (hKey s h)).named = true ∧ (s.frame (hKey s h)).owner = a ∨ (s.frame (hKey s h)).named = false ∧ (s.frame (hKey s h)).refs ≤ 1) ∧ s.bpm.stalls = [])
    ∧ (∃ (s : State) (h : Nat), s.handleLive h = true ∧ (s.frame (hKey s h)).named = true)
    ∧ (∃ (s : State), s.bpm.stalls = [] ∧ s.auditLost.Nodup ∧ (∀ k, k ∈ s.auditLost → (s.frame k).retiring = false)) := by
  refine ⟨⟨{ up with bpm := { up.bpm with pools := [(5, { frames := 100, filled := 100 })] } }, 5, 0, 0, 2047, List.range 64 |>.tail, by decide +kernel⟩,
    ⟨io { stage := 9, opc := opRead }, 5, 0, 2047, 65535, by decide +kernel⟩,
    ⟨{ up with bpm := { up.bpm with frames := [(frameKey 5 7, { held := true, refs := 1 })] } }, 5 + 7 * 2 ^ 8 + 2 ^ 36, by decide +kernel⟩,
    ⟨up, 5 + 7 * 2 ^ 8 + 2 ^ 36, by decide +kernel⟩,
    ⟨{ up with bpm := { up.bpm with frames := [(frameKey 5 7, { held := true, named := true, owner := 9 })] } }, 5 + 7 * 2 ^ 8 + 2 ^ 36, 8, by decide +kernel⟩,
    ⟨{ up with bpm := { up.bpm with frames := [(frameKey 5 7, { held := true, refs := 2 })] } }, 5 + 7 * 2 ^ 8 + 2 ^ 36, by decide +kernel⟩,
    ⟨{ up with bpm := { up.bpm with frames := [(frameKey 5 7, { held := true, refs := 1 })] } }, 5 + 7 * 2 ^ 8 + 2 ^ 36, 8, by decide +kernel⟩,
    ⟨{ up with bpm := { up.bpm with frames := [(frameKey 5 7, { held := true, named := true, owner := 9 })] } }, 5 + 7 * 2 ^ 8 + 2 ^ 36, by decide +kernel⟩,
    ⟨{ up with mic := { up.mic with auditFrames := [frameKey 5 7] } }, by decide +kernel⟩⟩

theorem witness_IntegrityRows :
    (∃ (s : State) (m : Bool) (k : Nat), s.mic.replays.contains (m, k) = false)
    ∧ (∃ (s : State) (m : Bool) (k : Nat), s.mic.replays.contains (m, k) = true)
    ∧ (∃ (s : State) (k : Nat), s.mic.replays.contains (false, k) = true)
    ∧ (∃ (s : State) (k : Nat), s.mic.replays.contains (true, k) = true)
    ∧ (∃ (s : State) (c : Nat), ctxOk c = true ∧ s.mic.halted.contains c = true)
    ∧ (∃ (s : State) (i : Nat) (l : Nat) (k : LineCheck), islOk i = true ∧ k.firstOk = true ∧ s.lineMarked i (kindOf (narrowClass i) i) l = false)
    ∧ (∃ (s : State) (j : Nat) (d : DramPlan), j < 8 ∧ s.pat.eff.dram = some d ∧ bitAt d.mask j = true ∧ s.islIsolated (islDMI j) = false)
    ∧ (∃ (s : State) (c : Nat) (i : Nat) (o : Nat) (m : Nat), s.mic.flipAct.busy = false ∧ c < 16 ∧ i < 128 ∧ o < 64 ∧ m < 65536)
    ∧ (∃ (s : State), s.mic.flipAct.busy = true) := by
  refine ⟨⟨up, true, 4, by decide +kernel⟩,
    ⟨{ up with mic := { up.mic with replays := [(true, 4)] } }, true, 4, by decide +kernel⟩,
    ⟨{ up with mic := { up.mic with replays := [(false, 4)] } }, 4, by decide +kernel⟩,
    ⟨{ up with mic := { up.mic with replays := [(true, 4)] } }, 4, by decide +kernel⟩,
    ⟨io { stage := 12, opc := opRead } ({ up with mic := { up.mic with halted := [65535] } }), 65535, by decide +kernel⟩,
    ⟨up, 71, 5, {}, by decide +kernel⟩,
    ⟨up, 0, { mask := 1, ranks := 1 }, by decide +kernel⟩,
    ⟨up, 15, 127, 63, 65535, by decide +kernel⟩,
    ⟨{ up with mic := { up.mic with flipAct := wsRun } }, by decide +kernel⟩⟩

theorem witness_FaultRows :
    (∃ (s : State) (e : FaultEv) (q : Nat), Sys2Proof.srcOk e.src = true ∧ e.src ≤ 891 ∧ (tval s.flt.srcs e.src : FltSrc).inHand s.nowMs = some q)
    ∧ (∃ (s : State) (e : FaultEv), Sys2Proof.srcOk e.src = true ∧ e.src ≤ 891 ∧ (tval s.flt.srcs e.src : FltSrc).inHand s.nowMs = none ∧ (tval s.flt.srcs e.src : FltSrc).window = [] ∧ 1 < (s.faultPol e.src).n ∧ e.level = 0 ∧ s.reactOf e.src 0 = 0 ∧ s.flt.ring.length < 4096)
    ∧ (∃ (s : State) (e : FaultEv), Sys2Proof.srcOk e.src = true ∧ e.src ≤ 891 ∧ (tval s.flt.srcs e.src : FltSrc).inHand s.nowMs = none ∧ e.level = 4)
    ∧ (∃ (s : State) (e : FaultEv), Sys2Proof.srcOk e.src = true ∧ e.src ≤ 891 ∧ (tval s.flt.srcs e.src : FltSrc).inHand s.nowMs = none ∧ e.level ≤ 4 ∧ s.flt.ring.length < 4096)
    ∧ (∃ (e : FaultEv), Sys2Proof.srcOk e.src = true ∧ 891 < e.src)
    ∧ (∃ (n : Nat), Sys2Proof.srcOk n = true)
    ∧ (∃ (n : Nat), n < 2 ^ 32)
    ∧ (∃ (i : Nat) (k : Nat), i < 128 ∧ k < 256)
    ∧ (∃ (s : State) (i : Nat), islOk i = true ∧ (s.isle i).avail = .resetting ∧ (s.isle i).held = [])
    ∧ (∃ (s : State) (i : Nat), islOk i = true ∧ (s.isle i).avail ≠ .resetting) := by
  refine ⟨⟨{ up with flt := { up.flt with srcs := [(891, { handling := some 2 })] } }, { src := 891 }, 2, by decide +kernel⟩,
    ⟨{ up with pat := { eff := { testPat with faults := [{ source := 891, react := [0, 0, 0, 0, 0] }] } } }, { src := 891 }, by decide +kernel⟩,
    ⟨up, { src := 891, level := 4 }, by decide +kernel⟩,
    ⟨{ up with pat := { eff := { testPat with faults := [{ source := 891, react := [0, 0, 0, 0, 0] }] } } }, { src := 891 }, by decide +kernel⟩,
    ⟨{ src := 892 }, by decide +kernel⟩,
    ⟨1023, by decide +kernel⟩,
    ⟨1023, by decide +kernel⟩,
    ⟨127, 255, by decide +kernel⟩,
    ⟨up.setIsl 71 { dstate := .on, avail := .resetting }, 71, by decide +kernel⟩,
    ⟨up, 71, by decide +kernel⟩⟩

theorem witness_CounterRows :
    (∃ (s : State) (x : Nat) (sl : Option Nat) (i : Option Nat), x < 2048 ∧ optOk sliceOk sl = true ∧ optOk islOk i = true ∧ CountersRising s)
    ∧ (∃ (k : Nat), k < 1024)
    ∧ (∃ (g : Nat), g < 64)
    ∧ (∃ (g : Nat), g < 64) := by
  refine ⟨⟨{ up with ctrs := [(3, {}), (1023, { en := true })] }, 2047, some 2047, some 71, by unfold CountersRising; decide +kernel⟩,
    ⟨1023, by decide +kernel⟩,
    ⟨63, by decide +kernel⟩,
    ⟨63, by decide +kernel⟩⟩

theorem witness_DomainRows :
    (∃ (s : State) (i : Nat), islOk i = true ∧ i ≠ 0 ∧ present s.pat.eff i = true ∧ (s.isle i).change = none ∧ (s.isle i).avail ≠ .isolated ∧ (s.isle i).avail ≠ .resetting ∧ s.thm.shutdown = false ∧ aboveFloor (s.isle i).dstate (s.effFloor i) = true)
    ∧ (∃ (s : State) (i : Nat), islOk i = true ∧ (i = 0 ∨ present s.pat.eff i = false ∨ (s.isle i).change ≠ none ∨ (s.isle i).avail = .isolated ∨ (s.isle i).avail = .resetting ∨ s.thm.shutdown = true ∨ aboveFloor (s.isle i).dstate (s.effFloor i) = false))
    ∧ (∃ (s : State) (i : Nat) (f : DState), islOk i = true ∧ (s.isle i).change = some (.entry f))
    ∧ (∃ (s : State) (i : Nat) (c : Nat), islOk i = true ∧ c < 8 ∧ (¬ (isUcm i = true ∧ c = 2)) ∧ present s.pat.eff i = true ∧ s.weaveless i = false ∧ (s.isle i).dstate.asleep = true ∧ s.thm.shutdown = false)
    ∧ (∃ (s : State) (i : Nat), islOk i = true ∧ isUcm i = true ∧ s.thm.shutdown = false)
    ∧ (∃ (s : State) (i : Nat) (c : Nat), islOk i = true ∧ c < 8 ∧ s.thm.shutdown = true)
    ∧ (∃ (s : State) (i : Nat) (c : Nat) (d : DState), islOk i = true ∧ (s.isle i).change = some (.wake d c) ∧ (s.isle i).held = [])
    ∧ (∃ (j : Nat), j < 8)
    ∧ (∃ (i : Nat) (v : Nat), islOk i = true ∧ v < 4)
    ∧ (∃ (i : Nat), islOk i = true) := by
  refine ⟨⟨(State.setIsl up 71 { dstate := .on, avail := .available, floor := 3 }), 71, by decide +kernel⟩,
    ⟨up, 7, by decide +kernel⟩,
    ⟨(State.setIsl up 71 { change := some (.entry .off) }), 71, .off, by decide +kernel⟩,
    ⟨(State.setIsl up 71 { dstate := .retention }), 71, 7, by decide +kernel⟩,
    ⟨up, 7, by decide +kernel⟩,
    ⟨{ up with thm := { up.thm with shutdown := true } }, 71, 7, by decide +kernel⟩,
    ⟨(State.setIsl up 71 { change := some (.wake .off 7) }), 71, 7, .off, by decide +kernel⟩,
    ⟨7, by decide +kernel⟩,
    ⟨71, 3, by decide +kernel⟩,
    ⟨71, by decide +kernel⟩⟩

theorem witness_SupplyRows :
    (∃ (s : State), s.pat.eff.sideband.wakeAddr = true ∧ present s.pat.eff islCTL = true ∧ present s.pat.eff islSEC = true ∧ (s.isle islCTL).dstate.asleep = true ∧ (s.isle islSEC).dstate.asleep = true ∧ s.thm.shutdown = false)
    ∧ (∃ (s : State), s.pat.eff.sideband.wakeAddr = false)
    ∧ (∃ (s : State), s.pwr.timerArmed = true ∧ present s.pat.eff islCTL = true ∧ (s.isle islCTL).dstate.asleep = true ∧ s.thm.shutdown = false)
    ∧ (∃ (s : State), s.pwr.timerArmed = false) := by
  refine ⟨⟨(State.setIsl (State.setIsl { up with pat := { eff := { testPat with sideband := { wakeAddr := true } } } } islCTL { dstate := .retention }) islSEC { dstate := .off }), by decide +kernel⟩,
    ⟨{ up with pat := { eff := { testPat with sideband := { wakeAddr := false } } } }, by decide +kernel⟩,
    ⟨(State.setIsl { up with pwr := { up.pwr with timerArmed := true } } islCTL { dstate := .retention }), by decide +kernel⟩,
    ⟨(State.setIsl (State.setIsl { up with pat := { eff := { testPat with sideband := { wakeAddr := true } } } } islCTL { dstate := .retention }) islSEC { dstate := .off }), by decide +kernel⟩⟩

theorem witness_SensorRows :
    (∃ (s : State) (k : Nat) (raw : Nat) (t : Int), k < 48 ∧ (s.sensor k).failed = false ∧ (s.takeReading k (.value raw t)).1 = 0)
    ∧ (∃ (s : State) (k : Nat) (r : Reading), k < 48 ∧ (s.sensor k).failed = false ∧ (s.takeReading k r).1 ≠ 0)
    ∧ (∃ (s : State) (k : Nat), k < 48 ∧ (s.sensor k).failed = true)
    ∧ (∃ (s : State) (k : Nat), k < 48 ∧ (s.sensor k).holding = true ∧ (s.sensor k).heldAt + 10000 ≤ s.epoch)
    ∧ (∃ (s : State) (k : Nat), k < 48 ∧ ((s.sensor k).holding = false ∨ s.epoch < (s.sensor k).heldAt + 10000))
    ∧ (∃ (k : Nat) (v : Nat), k < 48 ∧ v % 2 = 1)
    ∧ (∃ (k : Nat) (v : Nat), k < 48 ∧ v % 2 = 0)
    ∧ (∃ (s : State) (k : Nat), k < 48 ∧ (s.sensor k).retesting = true ∧ (s.sensor k).retestAt + 100000 ≤ s.epoch)
    ∧ (∃ (s : State) (k : Nat), k < 48 ∧ ((s.sensor k).retesting = false ∨ s.epoch < (s.sensor k).retestAt + 100000))
    ∧ (∃ (s : State), s.thm.shutdown = true ∧ (∀ e ∈ s.cnv.banks, e.2.cur = none) ∧ s.holdup = false)
    ∧ (∃ (s : State), (s.thm.shutdown = false ∨ ∃ e ∈ s.cnv.banks, e.2.cur ≠ none)) := by
  refine ⟨⟨up, 47, 100, 2560, by decide +kernel⟩,
    ⟨up, 47, .error, by decide +kernel⟩,
    ⟨{ up with epoch := 0, thm := { up.thm with sensors := [(47, { failed := true })] } }, 47, by decide +kernel⟩,
    ⟨{ up with epoch := 10000, thm := { up.thm with sensors := [(47, { holding := true })] } }, 47, by decide +kernel⟩,
    ⟨up, 47, by decide +kernel⟩,
    ⟨47, 3, by decide +kernel⟩,
    ⟨47, 2, by decide +kernel⟩,
    ⟨{ up with epoch := 100000, thm := { up.thm with sensors := [(47, { retesting := true })] } }, 47, by decide +kernel⟩,
    ⟨up, 47, by decide +kernel⟩,
    ⟨{ up with thm := { up.thm with shutdown := true } }, by decide +kernel⟩,
    ⟨up, by decide +kernel⟩⟩

theorem witness_ElectricRows :
    (∃ (s : State), s.glb.vreqBlocked = true)
    ∧ (∃ (s : State), s.glb.vreqBlocked = false)
    ∧ (∃ (s : State), s.glb.vreqBlocked = false ∧ s.glb.vreqRaise = [])
    ∧ (∃ (s : State), s.glb.vreqAlertN = false)
    ∧ (∃ (s : State), s.glb.vreqAlertN = true)
    ∧ (∃ (s : State) (i : Nat), i < 3 ∧ (tval s.flt.srcs 886 : FltSrc).inHand s.nowMs = none)
    ∧ (∃ (sl : Nat), sliceOk sl = true) := by
  refine ⟨⟨{ up with glb := { up.glb with vreqBlocked := true } }, by decide +kernel⟩,
    ⟨up, by decide +kernel⟩,
    ⟨up, by decide +kernel⟩,
    ⟨{ up with glb := { up.glb with vreqAlertN := false } }, by decide +kernel⟩,
    ⟨up, by decide +kernel⟩,
    ⟨up, 2, by decide +kernel⟩,
    ⟨2, by decide +kernel⟩⟩

theorem witness_ArrayRows :
    (∃ (s : State) (w : ArrayIssuer) (b : Nat) (g : Nat) (l : List Byte), issuerOk w = true ∧ bankOk b = true ∧ g < 65536 ∧ l.length = 256 ∧ isHost w = false ∧ s.protectedSect b (pageSect g) = false ∧ (s.sect (sectOf b (pageSect g))).progPages.contains (pageIn g) = false)
    ∧ (∃ (s : State) (w : ArrayIssuer) (b : Nat) (g : Nat) (l : List Byte), issuerOk w = true ∧ bankOk b = true ∧ g < 65536 ∧ l.length = 256 ∧ (isHost w = true ∨ s.protectedSect b (pageSect g) = true ∨ (s.sect (sectOf b (pageSect g))).progPages.contains (pageIn g) = true))
    ∧ (∃ (s : State) (w : ArrayIssuer) (b : Nat) (k : Nat), issuerOk w = true ∧ bankOk b = true ∧ k < 256 ∧ isHost w = false ∧ s.protectedSect b k = false)
    ∧ (∃ (s : State) (w : ArrayIssuer) (b : Nat) (k : Nat), issuerOk w = true ∧ bankOk b = true ∧ k < 256 ∧ (isHost w = true ∨ s.protectedSect b k = true))
    ∧ (∃ (w : ArrayIssuer) (b : Nat), issuerOk w = true ∧ bankOk b = true)
    ∧ (∃ (s : State) (w : ArrayIssuer) (b : Nat) (o : ArrOp), issuerOk w = true ∧ bankOk b = true ∧ isHost w = false ∧ (s.bank b).cur = some o ∧ (s.bank b).queue = [])
    ∧ (∃ (s : State) (w : ArrayIssuer) (b : Nat), issuerOk w = true ∧ bankOk b = true ∧ (s.bank b).cur = none)
    ∧ (∃ (w : ArrayIssuer) (b : Nat), issuerOk w = true ∧ bankOk b = true ∧ isHost w = true)
    ∧ (∃ (b : Nat), bankOk b = true)
    ∧ (∃ (s : State) (b : Nat) (g : Nat) (w : ArrayIssuer) (l : List Byte), bankOk b = true ∧ ArrayCanonical s ∧ (s.bank b).cur = some { who := w, op := 1, page := g, data := l } ∧ l.length = 256 ∧ (s.bank b).queue = [])
    ∧ (∃ (s : State) (b : Nat) (k : Nat) (w : ArrayIssuer) (l : List Byte), bankOk b = true ∧ ArrayCanonical s ∧ (s.bank b).cur = some { who := w, op := 2, page := k, data := l } ∧ (s.bank b).queue = [])
    ∧ (∃ (s : State) (b : Nat) (o : ArrOp), bankOk b = true ∧ (s.bank b).cur = some o ∧ (s.bank b).queue = [])
    ∧ (∃ (s : State) (b : Nat) (o : ArrOp) (q : ArrOp) (t : List ArrOp), bankOk b = true ∧ (s.bank b).cur = some o ∧ (s.bank b).queue = q :: t ∧ q.op = 2)
    ∧ (∃ (s : State) (b : Nat), bankOk b = true ∧ (s.bank b).cur = none)
    ∧ (∃ (s : State) (l : Nat), l < 2 ^ 20 ∧ (s.sect (l / 1024)).erases < 10000) := by
  refine ⟨⟨up, .cores, 3, 65535, List.replicate 256 0, by decide +kernel⟩,
    ⟨up, .host 1, 3, 65535, List.replicate 256 0, by decide +kernel⟩,
    ⟨up, .updateEngine, 3, 255, by decide +kernel⟩,
    ⟨up, .cores, 0, 31, by decide +kernel⟩,
    ⟨.host 1, 3, by decide +kernel⟩,
    ⟨{ up with cnv := { up.cnv with banks := [(3, { cur := some { op := 1 } })] } }, .patternLoader, 3, { op := 1 }, by decide +kernel⟩,
    ⟨up, .host 1, 3, by decide +kernel⟩,
    ⟨.host 1, 3, by decide +kernel⟩,
    ⟨3, by decide +kernel⟩,
    ⟨{ up with cnv := { up.cnv with banks := [(3, { cur := some { who := .cores, op := 1, page := 65535, data := List.replicate 256 0 } })] } }, 3, 65535, .cores, List.replicate 256 0, by unfold ArrayCanonical; decide +kernel⟩,
    ⟨{ up with cnv := { up.cnv with banks := [(3, { cur := some { who := .cores, op := 2, page := 255, data := [] } })] } }, 3, 255, .cores, [], by unfold ArrayCanonical; decide +kernel⟩,
    ⟨{ up with cnv := { up.cnv with banks := [(3, { cur := some { op := 1 } })] } }, 3, { op := 1 }, by decide +kernel⟩,
    ⟨{ up with cnv := { up.cnv with banks := [(3, { cur := some { op := 1 }, queue := [{ op := 2, page := 65535 }] })] } }, 3, { op := 1 }, { op := 2, page := 65535 }, [], by decide +kernel⟩,
    ⟨up, 3, by decide +kernel⟩,
    ⟨up, 3, by decide +kernel⟩⟩

theorem witness_StartRows :
    (∃ (s : State), s.starting = true ∧ s.glb.tableOk = true ∧ s.glb.bare = false)
    ∧ (∃ (s : State), s.starting = true)
    ∧ (∃ (s : State), s.starting = false)
    ∧ (∃ (s : State), s.glb.adminReady = true ∧ s.glb.mediaReady = false ∧ s.glb.bare = false ∧ s.glb.devRstN = true ∧ s.flt.safe = false ∧ s.glb.pinStart = false ∧ s.glb.notReady = [])
    ∧ (∃ (s : State), s.glb.adminReady = true ∧ s.glb.mediaReady = false ∧ s.glb.bare = false ∧ s.glb.devRstN = true ∧ s.flt.safe = false ∧ s.mediaWaits = false)
    ∧ (∃ (s : State), (s.glb.adminReady = false ∨ s.glb.mediaReady = true ∨ s.glb.bare = true ∨ s.glb.devRstN = false ∨ s.flt.safe = true ∨ s.mediaWaits = true)) := by
  refine ⟨⟨{ up with glb := { up.glb with step := 8, adminReady := false } }, by decide +kernel⟩,
    ⟨{ up with glb := { up.glb with step := 8, adminReady := false } }, by decide +kernel⟩,
    ⟨up, by decide +kernel⟩,
    ⟨{ up with glb := { up.glb with mediaReady := false } }, by decide +kernel⟩,
    ⟨{ up with glb := { up.glb with mediaReady := false } }, by decide +kernel⟩,
    ⟨{ up with glb := { up.glb with step := 8, adminReady := false } }, by decide +kernel⟩⟩

theorem witness_ComputeMemoryRows :
    (∃ (s : State) (t : State) (c : Nat) (h : Nat) (l : List Nat), ctxOk c = true ∧ s.rowTurn c opCmAlloc = true ∧ 1 ≤ (s.ctx c).sqe.cdw10.toNat ∧ (s.ctx c).sqe.cdw10.toNat ≤ 32768 ∧ (s.slc (s.ctx c).slice).shares.computeW ≠ 0 ∧ s.cmRoom (s.ctx c).slice (s.ctx c).sqe.cdw10.toNat = true ∧ s.allocFrames 5 0 (s.ctx c).slice (s.ctx c).sqe.cdw10.toNat = some (l, t) ∧ (t.newHandle (s.ctx c).slice).1 = some h)
    ∧ (∃ (s : State) (c : Nat), ctxOk c = true ∧ s.rowTurn c opCmAlloc = true)
    ∧ (∃ (s : State) (c : Nat) (h : Nat) (a : Alloc), ctxOk c = true ∧ s.rowTurn c opCmFree = true ∧ (s.ctx c).sqe.cdw10.toNat % 65536 = h ∧ s.alloc? (s.ctx c).slice h = some a ∧ a.isProg = false ∧ a.freeing = false ∧ (s.slc (s.ctx c).slice).shares.computeW ≠ 0)
    ∧ (∃ (s : State) (c : Nat), ctxOk c = true ∧ s.rowTurn c opCmFree = true ∧ s.alloc? (s.ctx c).slice ((s.ctx c).sqe.cdw10.toNat % 65536) = none)
    ∧ (∃ (s : State) (c : Nat) (a : Alloc), ctxOk c = true ∧ s.rowTurn c opCmFree = true ∧ s.alloc? (s.ctx c).slice ((s.ctx c).sqe.cdw10.toNat % 65536) = some a ∧ (a.isProg = true ∨ a.freeing = true))
    ∧ (∃ (s : State) (sl : Nat) (h : Nat) (c : Nat) (a : Alloc), sliceOk sl = true ∧ h < 65536 ∧ s.alloc? sl h = some a ∧ a.freeing = true ∧ s.handleHeld sl h = false ∧ a.waiter = some c ∧ (s.ctx? c).isSome = true)
    ∧ (∃ (s : State) (sl : Nat) (h : Nat) (c : Nat) (a : Alloc), sliceOk sl = true ∧ h < 65536 ∧ s.alloc? sl h = some a ∧ a.freeing = true ∧ s.handleHeld sl h = false ∧ a.frames = [] ∧ a.waiter = some c ∧ (s.ctx? c).isSome = true)
    ∧ (∃ (s : State) (sl : Nat) (h : Nat), sliceOk sl = true ∧ h < 65536 ∧ s.handleHeld sl h = true) := by
  refine ⟨⟨io { stage := 3, opc := opCmAlloc, sqe := { cdw10 := 1 } } { compute with cpx := { compute.cpx with allocs := [] } }, (((io { stage := 3, opc := opCmAlloc, sqe := { cdw10 := 1 } } { compute with cpx := { compute.cpx with allocs := [] } }).allocFrames 5 0 0 1).getD ([], up)).2, 65535, (drawNat (((io { stage := 3, opc := opCmAlloc, sqe := { cdw10 := 1 } } { compute with cpx := { compute.cpx with allocs := [] } }).allocFrames 5 0 0 1).getD ([], up)).2).1 % 65535 + 1, (((io { stage := 3, opc := opCmAlloc, sqe := { cdw10 := 1 } } { compute with cpx := { compute.cpx with allocs := [] } }).allocFrames 5 0 0 1).getD ([], up)).1, by 
      refine ⟨by decide +kernel, by decide +kernel, by decide +kernel, by decide +kernel, by decide +kernel, by decide +kernel, by decide +kernel, ?_⟩
      exact newHandle_empty (by rfl)⟩,
    ⟨io { stage := 3, opc := opCmAlloc, sqe := { cdw10 := 0 } } compute, 65535, by decide +kernel⟩,
    ⟨io { stage := 3, opc := opCmFree, sqe := { cdw10 := 5 } } compute, 65535, 5, { units := 1 }, by decide +kernel⟩,
    ⟨io { stage := 3, opc := opCmFree, sqe := { cdw10 := 6 } } compute, 65535, by decide +kernel⟩,
    ⟨io { stage := 3, opc := opCmFree, sqe := { cdw10 := 5 } } { compute with cpx := { compute.cpx with allocs := [(5, { isProg := true })] } }, 65535, { isProg := true }, by decide +kernel⟩,
    ⟨io { stage := 11, opc := opCmFree } { up with cpx := { up.cpx with allocs := [(allocKey 2047 65535, { freeing := true, waiter := some 65535 })] } }, 2047, 65535, 65535, { freeing := true, waiter := some 65535 }, by decide +kernel⟩,
    ⟨io { stage := 11, opc := opCmFree } { up with cpx := { up.cpx with allocs := [(allocKey 2047 65535, { freeing := true, waiter := some 65535 })] } }, 2047, 65535, 65535, { freeing := true, waiter := some 65535 }, by decide +kernel⟩,
    ⟨io { stage := 11, opc := opJob } { up with cpx := { up.cpx with jobs := [(65535, { handles := [5] })] } }, 0, 5, by decide +kernel⟩⟩

theorem witness_ProgramRows :
    (∃ (s : State) (c : Nat) (d : List Byte), ctxOk c = true ∧ s.progLoadTurn c 0 = true ∧ (s.slc (s.ctx c).slice).shares.computeW ≠ 0 ∧ d.length = (s.ctx c).sqe.cdw12.toNat ∧ pieceOk (tval s.cpx.loads (s.ctx c).slice : LoadSeq).bytes.length (s.ctx c).sqe.cdw11.toNat (s.ctx c).sqe.cdw12.toNat = true ∧ ((tget s.cpx.loads (s.ctx c).slice).isSome = true ∨ (s.ctx c).sqe.cdw11.toNat = 0))
    ∧ (∃ (s : State) (c : Nat), ctxOk c = true ∧ s.progLoadTurn c 0 = true ∧ pieceOk (tval s.cpx.loads (s.ctx c).slice : LoadSeq).bytes.length (s.ctx c).sqe.cdw11.toNat (s.ctx c).sqe.cdw12.toNat = false)
    ∧ (∃ (s : State) (t : State) (c : Nat) (h : Nat) (l : List Nat) (b : List Byte), ctxOk c = true ∧ s.progLoadTurn c 1 = true ∧ (s.slc (s.ctx c).slice).shares.computeW ≠ 0 ∧ (tval s.cpx.loads (s.ctx c).slice : LoadSeq).bytes = b ∧ imageErr b = none ∧ s.progCount (s.ctx c).slice < 64 ∧ s.cmRoom (s.ctx c).slice (ceilDiv b.length (2 ^ 22)) = true ∧ State.allocFrames { s with cpx := { s.cpx with loads := tdel s.cpx.loads (s.ctx c).slice } } 5 0 (s.ctx c).slice (ceilDiv b.length (2 ^ 22)) = some (l, t) ∧ (t.newHandle (s.ctx c).slice).1 = some h)
    ∧ (∃ (s : State) (c : Nat) (e : Nat × Nat), ctxOk c = true ∧ s.progLoadTurn c 1 = true ∧ imageErr (tval s.cpx.loads (s.ctx c).slice : LoadSeq).bytes = some e)
    ∧ (∃ (s : State) (c : Nat), ctxOk c = true ∧ s.progLoadTurn c 1 = true ∧ imageErr (tval s.cpx.loads (s.ctx c).slice : LoadSeq).bytes = none ∧ ((s.slc (s.ctx c).slice).shares.computeW = 0 ∨ 64 ≤ s.progCount (s.ctx c).slice))
    ∧ (∃ (s : State) (c : Nat), ctxOk c = true ∧ s.progLoadTurn c 2 = true ∧ (s.slc (s.ctx c).slice).shares.computeW ≠ 0)
    ∧ (∃ (s : State) (c : Nat) (h : Nat) (a : Alloc), ctxOk c = true ∧ s.rowTurn c opProgUnload = true ∧ (s.ctx c).sqe.cdw10.toNat % 65536 = h ∧ s.prog? (s.ctx c).slice h = some a ∧ (s.slc (s.ctx c).slice).shares.computeW ≠ 0)
    ∧ (∃ (s : State) (c : Nat), ctxOk c = true ∧ s.rowTurn c opProgUnload = true ∧ s.prog? (s.ctx c).slice ((s.ctx c).sqe.cdw10.toNat % 65536) = none) := by
  refine ⟨⟨io { stage := 3, opc := opProgLoad, sqe := { cdw10 := 0, cdw12 := 65536 } } { compute with cpx := { compute.cpx with loads := [], allocs := compute.cpx.allocs } }, 65535, List.replicate 65536 7, by decide +kernel⟩,
    ⟨io { stage := 3, opc := opProgLoad, sqe := { cdw10 := 0, cdw12 := 65537 } } { compute with cpx := { compute.cpx with loads := [], allocs := compute.cpx.allocs } }, 65535, by decide +kernel⟩,
    ⟨io { stage := 3, opc := opProgLoad, sqe := { cdw10 := 1 } } { compute with cpx := { compute.cpx with loads := [(0, { bytes := testImage })], allocs := [] } }, ((State.allocFrames ({ (io { stage := 3, opc := opProgLoad, sqe := { cdw10 := 1 } } { compute with cpx := { compute.cpx with loads := [(0, { bytes := testImage })], allocs := [] } }) with cpx := { (io { stage := 3, opc := opProgLoad, sqe := { cdw10 := 1 } } { compute with cpx := { compute.cpx with loads := [(0, { bytes := testImage })], allocs := [] } }).cpx with loads := tdel (io { stage := 3, opc := opProgLoad, sqe := { cdw10 := 1 } } { compute with cpx := { compute.cpx with loads := [(0, { bytes := testImage })], allocs := [] } }).cpx.loads 0 } }) 5 0 0 1).getD ([], up)).2, 65535, (drawNat ((State.allocFrames ({ (io { stage := 3, opc := opProgLoad, sqe := { cdw10 := 1 } } { compute with cpx := { compute.cpx with loads := [(0, { bytes := testImage })], allocs := [] } }) with cpx := { (io { stage := 3, opc := opProgLoad, sqe := { cdw10 := 1 } } { compute with cpx := { compute.cpx with loads := [(0, { bytes := testImage })], allocs := [] } }).cpx with loads := tdel (io { stage := 3, opc := opProgLoad, sqe := { cdw10 := 1 } } { compute with cpx := { compute.cpx with loads := [(0, { bytes := testImage })], allocs := [] } }).cpx.loads 0 } }) 5 0 0 1).getD ([], up)).2).1 % 65535 + 1, ((State.allocFrames ({ (io { stage := 3, opc := opProgLoad, sqe := { cdw10 := 1 } } { compute with cpx := { compute.cpx with loads := [(0, { bytes := testImage })], allocs := [] } }) with cpx := { (io { stage := 3, opc := opProgLoad, sqe := { cdw10 := 1 } } { compute with cpx := { compute.cpx with loads := [(0, { bytes := testImage })], allocs := [] } }).cpx with loads := tdel (io { stage := 3, opc := opProgLoad, sqe := { cdw10 := 1 } } { compute with cpx := { compute.cpx with loads := [(0, { bytes := testImage })], allocs := [] } }).cpx.loads 0 } }) 5 0 0 1).getD ([], up)).1, testImage, by 
      refine ⟨by decide +kernel, by decide +kernel, by decide +kernel, by decide +kernel, by decide +kernel, by decide +kernel, by decide +kernel, by decide +kernel, ?_⟩
      exact newHandle_empty (by rfl)⟩,
    ⟨io { stage := 3, opc := opProgLoad, sqe := { cdw10 := 1 } } { compute with cpx := { compute.cpx with loads := [], allocs := compute.cpx.allocs } }, 65535, (1, 0xFFFF), by decide +kernel⟩,
    ⟨io { stage := 3, opc := opProgLoad, sqe := { cdw10 := 1 } } { compute with sli := [(0, { state := .enabled })], cpx := { compute.cpx with loads := [(0, { bytes := testImage })] } }, 65535, by decide +kernel⟩,
    ⟨io { stage := 3, opc := opProgLoad, sqe := { cdw10 := 2 } } { compute with cpx := { compute.cpx with loads := [], allocs := compute.cpx.allocs } }, 65535, by decide +kernel⟩,
    ⟨io { stage := 3, opc := opProgUnload, sqe := { cdw10 := 65535 } } { compute with cpx := { compute.cpx with allocs := [(65535, { isProg := true })] } }, 65535, 65535, { isProg := true }, by decide +kernel⟩,
    ⟨io { stage := 3, opc := opProgUnload, sqe := { cdw10 := 5 } } compute, 65535, by decide +kernel⟩⟩

theorem witness_JobRows :
    (∃ (s : State) (c : Nat) (d : Option (List Byte)) (l : Option (List Byte)) (a : Option (List Byte)) (o : Outc), ctxOk c = true ∧ s.rowTurn c opJob = true ∧ (s.ctx c).stage = 3 ∧ s.jobStage3 (s.ctx c).slice (s.ctx c).sqe d l a = .error o)
    ∧ (∃ (s : State) (c : Nat) (d : Option (List Byte)) (l : Option (List Byte)) (a : Option (List Byte)) (j : JobDesc), ctxOk c = true ∧ s.rowTurn c opJob = true ∧ (s.ctx c).stage = 3 ∧ s.jobStage3 (s.ctx c).slice (s.ctx c).sqe d l a = .ok j ∧ (s.slc (s.ctx c).slice).shares.computeW ≠ 0 ∧ (s.ctx c).nsid = 0 ∧ j.outNsid = 0 ∧ j.inLbas = [] ∧ j.outKind < 3 ∧ s.lockBlocker { (s.ctx c) with lockR := hull 0 j.inRanges } = none)
    ∧ (∃ (s : State) (c : Nat), ctxOk c = true ∧ s.jobLive c = true ∧ s.jobOverTime c = true ∧ (s.job c).desc.kind ≠ 6 ∧ s.flt.safe = false)
    ∧ (∃ (s : State) (c : Nat), ctxOk c = true ∧ (s.jobLive c = false ∨ s.jobOverTime c = false ∨ (s.job c).desc.kind = 6 ∨ s.flt.safe = true))
    ∧ (∃ (s : State) (t : State) (c : Nat) (k : Nat) (m : Nat), ctxOk c = true ∧ s.flt.safe = false ∧ s.jobLive c = true ∧ (s.ctx c).stage = 11 ∧ (s.job c).desc.kind ≠ 2 ∧ t = (s.takeEngines c).wakeJob c ∧ t.hasEngines11 c = true ∧ t.jobAwake c = true ∧ (s.job c).raced = [] ∧ m < (s.jobRun c).flow.units ∧ m ≠ k ∧ (s.job c).units.contains m = false)
    ∧ (∃ (s : State) (t : State) (c : Nat) (k : Nat), ctxOk c = true ∧ s.flt.safe = false ∧ s.jobLive c = true ∧ (s.ctx c).stage = 11 ∧ (s.job c).desc.kind ≠ 2 ∧ (s.job c).desc.outKind < 3 ∧ t = (s.takeEngines c).wakeJob c ∧ t.hasEngines11 c = true ∧ t.jobAwake c = true ∧ (s.job c).raced = [] ∧ (∀ m, m < (s.jobRun c).flow.units → m = k ∨ (s.job c).units.contains m = true) ∧ (s.jobRun c).flow.stop = none)
    ∧ (∃ (s : State) (t : State) (c : Nat), ctxOk c = true ∧ s.flt.safe = false ∧ s.jobLive c = true ∧ (s.ctx c).stage = 11 ∧ (s.job c).desc.kind ≠ 2 ∧ (s.job c).desc.outKind < 3 ∧ t = (s.takeEngines c).wakeJob c ∧ t.hasEngines11 c = true ∧ t.jobAwake c = true)
    ∧ (∃ (s : State) (t : State) (v : State) (c : Nat) (cs : List Nat) (fs : List Nat), ctxOk c = true ∧ s.flt.safe = false ∧ s.jobLive c = true ∧ (s.ctx c).stage = 11 ∧ (s.job c).desc.kind = 2 ∧ (s.job c).cores = [] ∧ s.coreTurn c = true ∧ t = s.takeEngines c ∧ t.hasEngines11 c = true ∧ t.pickCores (s.job c).desc.cores = some cs ∧ (s.job c).desc.cores * ((s.alloc? (s.ctx c).slice (s.job c).desc.prog).getD {}).stackKib * 1024 ≤ (s.job c).desc.memBytes ∧ t.allocFrames 5 (0x8000 + cs.headD 0) (s.ctx c).slice (ceilDiv (s.job c).desc.memMib 4) = some (fs, v) ∧ (v.progInput c).flow.stop = none)
    ∧ (∃ (s : State) (c : Nat), ctxOk c = true ∧ s.flt.safe = true)
    ∧ (∃ (s : State) (h : Nat) (w : Nat) (p : WeavePanel) (d : WeaveDir), h < 2 ∧ w < 16 ∧ (if h = 0 then s.pat.eff.weave0 else s.pat.eff.weave1) = some p ∧ weaveDir? s.pat.eff h w = some d ∧ (tval s.wvf h : Half).loaded = true ∧ (tget (tval s.wvf h : Half).busy w).isSome = true ∧ s.flt.safe = false) := by
  refine ⟨⟨io { stage := 3, opc := opJob, sqe := {} } compute, 65535, none, none, none, errOut .dataXfer, by 
      exact ⟨by decide +kernel, by decide +kernel, by decide +kernel, by rfl⟩⟩,
    ⟨io { stage := 3, opc := opJob, sqe := {} } compute, 65535, some testDesc, none, none, (jobOf (State.jobStage3 (io { stage := 3, opc := opJob, sqe := {} } compute) 0 {} (some testDesc) none none)), by 
      refine ⟨by decide, by decide +kernel, by decide +kernel, ?_, by decide +kernel, by decide +kernel, by decide +kernel, by decide +kernel, by decide +kernel, by decide +kernel⟩
      exact except_ok (by decide +kernel)⟩,
    ⟨io { stage := 9, opc := opJob } { compute with epoch := 10 ^ 12, cpx := { compute.cpx with jobs := [(65535, { desc := { kind := 1, timeMs := 1 } })] } }, 65535, by decide +kernel⟩,
    ⟨io { stage := 11, opc := opJob } { compute with cpx := { compute.cpx with jobs := [(65535, { desc := { kind := 1, timeMs := 1 } })] } }, 65535, by decide +kernel⟩,
    ⟨io { stage := 11, opc := opJob } { compute with cpx := { compute.cpx with jobs := [(65535, { desc := { kind := 1, exts := [{ src := 1, handle := 5, len := 64, flush := true }, { src := 1, handle := 5, len := 64 }] } })] } }, ((io { stage := 11, opc := opJob } { compute with cpx := { compute.cpx with jobs := [(65535, { desc := { kind := 1, exts := [{ src := 1, handle := 5, len := 64, flush := true }, { src := 1, handle := 5, len := 64 }] } })] } }).takeEngines 65535).wakeJob 65535, 65535, 0, 1, by decide +kernel⟩,
    ⟨io { stage := 11, opc := opJob } { compute with cpx := { compute.cpx with jobs := [(65535, { desc := { kind := 1, outKind := 1, exts := [{ src := 1, handle := 5, len := 64 }] } })] } }, ((io { stage := 11, opc := opJob } { compute with cpx := { compute.cpx with jobs := [(65535, { desc := { kind := 1, outKind := 1, exts := [{ src := 1, handle := 5, len := 64 }] } })] } }).takeEngines 65535).wakeJob 65535, 65535, 0, by decide +kernel⟩,
    ⟨io { stage := 11, opc := opJob } { compute with cpx := { compute.cpx with jobs := [(65535, { desc := { kind := 1, outKind := 1, exts := [{ src := 1, handle := 5, len := 64 }] } })] } }, ((io { stage := 11, opc := opJob } { compute with cpx := { compute.cpx with jobs := [(65535, { desc := { kind := 1, outKind := 1, exts := [{ src := 1, handle := 5, len := 64 }] } })] } }).takeEngines 65535).wakeJob 65535, 65535, by decide +kernel⟩,
    ⟨io { stage := 11, opc := opJob } { compute with cpx := { compute.cpx with allocs := [(6, { isProg := true, stackKib := 4 })], jobs := [(65535, { desc := { kind := 2, cores := 128, memMib := 4, prog := 6 } })] } }, (io { stage := 11, opc := opJob } { compute with cpx := { compute.cpx with allocs := [(6, { isProg := true, stackKib := 4 })], jobs := [(65535, { desc := { kind := 2, cores := 128, memMib := 4, prog := 6 } })] } }).takeEngines 65535, ((((io { stage := 11, opc := opJob } { compute with cpx := { compute.cpx with allocs := [(6, { isProg := true, stackKib := 4 })], jobs := [(65535, { desc := { kind := 2, cores := 128, memMib := 4, prog := 6 } })] } }).takeEngines 65535).allocFrames 5 (0x8000 + ((((io { stage := 11, opc := opJob } { compute with cpx := { compute.cpx with allocs := [(6, { isProg := true, stackKib := 4 })], jobs := [(65535, { desc := { kind := 2, cores := 128, memMib := 4, prog := 6 } })] } }).takeEngines 65535).pickCores 128).getD []).headD 0) 0 1).getD ([], up)).2, 65535, (((io { stage := 11, opc := opJob } { compute with cpx := { compute.cpx with allocs := [(6, { isProg := true, stackKib := 4 })], jobs := [(65535, { desc := { kind := 2, cores := 128, memMib := 4, prog := 6 } })] } }).takeEngines 65535).pickCores 128).getD [], ((((io { stage := 11, opc := opJob } { compute with cpx := { compute.cpx with allocs := [(6, { isProg := true, stackKib := 4 })], jobs := [(65535, { desc := { kind := 2, cores := 128, memMib := 4, prog := 6 } })] } }).takeEngines 65535).allocFrames 5 (0x8000 + ((((io { stage := 11, opc := opJob } { compute with cpx := { compute.cpx with allocs := [(6, { isProg := true, stackKib := 4 })], jobs := [(65535, { desc := { kind := 2, cores := 128, memMib := 4, prog := 6 } })] } }).takeEngines 65535).pickCores 128).getD []).headD 0) 0 1).getD ([], up)).1, by decide +kernel⟩,
    ⟨{ up with flt := { up.flt with safe := true } }, 65535, by decide +kernel⟩,
    ⟨{ up with pat := { eff := { testPat with weave1 := some { weaves := [{ weave := 15 }] } } }, wvf := [(1, { loaded := true, busy := [(15, 65535)] })] }, 1, 15, { weaves := [{ weave := 15 }] }, { weave := 15 }, by decide +kernel⟩⟩

theorem witness_StreamCallRows :
    (∃ (s : State) (k : Nat) (c : Nat) (i : Nat) (p : Nat) (e : Nat) (o : Nat) (n : Nat), k < 128 ∧ s.coreRuns k = some (c, i) ∧ 1 ≤ p ∧ p < 8 ∧ tget (s.job c).views p = none ∧ e < (s.job c).desc.exts.length ∧ o + n ≤ ((s.job c).desc.exts.getD e {}).len)
    ∧ (∃ (s : State) (k : Nat) (c : Nat) (i : Nat) (p : Nat) (e : Nat) (o : Nat) (n : Nat), k < 128 ∧ s.coreRuns k = some (c, i) ∧ (p = 0 ∨ 8 ≤ p ∨ (tget (s.job c).views p).isSome = true ∨ (s.job c).desc.exts.length ≤ e ∨ ((s.job c).desc.exts.getD e {}).len < o + n))
    ∧ (∃ (s : State) (k : Nat) (c : Nat) (i : Nat) (p : Nat), k < 128 ∧ s.coreRuns k = some (c, i) ∧ portMine (s.job c) k p = false)
    ∧ (∃ (s : State) (k : Nat) (c : Nat) (i : Nat) (p : Nat), k < 128 ∧ s.coreRuns k = some (c, i) ∧ portMine (s.job c) k p = true ∧ 64 ≤ (tval (s.job c).views p : View).chunks.length)
    ∧ (∃ (s : State) (k : Nat) (c : Nat) (i : Nat) (p : Nat), k < 128 ∧ s.coreRuns k = some (c, i) ∧ portMine (s.job c) k p = true ∧ (tval (s.job c).views p : View).chunks.length < 64)
    ∧ (∃ (s : State) (k : Nat) (c : Nat) (i : Nat) (p : Nat) (n : Nat) (h : Nat) (v : View) (t : State), k < 128 ∧ p < 8 ∧ s.coreJob k = some (c, i) ∧ tget (s.job c).views p = some v ∧ v.blocked = true ∧ v.core = k ∧ 1 ≤ n ∧ n ≤ 2 ^ 20 ∧ v.pos + n ≤ v.len ∧ (4096 ≤ n ∨ v.pos + n = v.len) ∧ s.allocFrame 4 (0x8000 + ((s.job c).cores.headD {}).core) (s.ctx c).slice false = some (h, t))
    ∧ (∃ (s : State) (k : Nat) (c : Nat) (i : Nat) (p : Nat) (a : Nat) (h : Nat), k < 128 ∧ s.coreRuns k = some (c, i) ∧ portMine (s.job c) k p = true ∧ tget (tval (s.job c).views p : View).chunks a = some h ∧ s.bpm.stalls = [])
    ∧ (∃ (s : State) (k : Nat) (c : Nat) (i : Nat) (p : Nat) (a : Nat), k < 128 ∧ s.coreRuns k = some (c, i) ∧ (portMine (s.job c) k p = false ∨ tget (tval (s.job c).views p : View).chunks a = none))
    ∧ (∃ (s : State) (k : Nat) (c : Nat) (i : Nat), k < 128 ∧ s.coreRuns k = some (c, i)) := by
  refine ⟨⟨coreRun { cores := [{ core := 127 }], desc := { exts := [{ len := 64 }] } }, 127, 65535, 0, 7, 0, 60, 4, by decide +kernel⟩,
    ⟨coreRun { cores := [{ core := 127 }] }, 127, 65535, 0, 8, 0, 0, 1, by decide +kernel⟩,
    ⟨coreRun { cores := [{ core := 127 }] }, 127, 65535, 0, 7, by decide +kernel⟩,
    ⟨coreRun { cores := [{ core := 127 }], views := [(7, { core := 127, len := 65536, chunks := List.replicate 64 (0, 0) })] }, 127, 65535, 0, 7, by decide +kernel⟩,
    ⟨coreRun { cores := [{ core := 127 }], views := [(7, { core := 127, len := 65536, chunks := List.replicate 63 (0, 0) })] }, 127, 65535, 0, 7, by decide +kernel⟩,
    ⟨coreRun { cores := [{ core := 127 }], desc := { exts := [{ len := 65536 }] }, views := [(7, { core := 127, len := 65536, blocked := true })] }, 127, 65535, 0, 7, 65536, ((State.allocFrame (coreRun { cores := [{ core := 127 }], desc := { exts := [{ len := 65536 }] }, views := [(7, { core := 127, len := 65536, blocked := true })] }) 4 (0x8000 + 127) 0 false).getD (0, up)).1, { core := 127, len := 65536, blocked := true }, ((State.allocFrame (coreRun { cores := [{ core := 127 }], desc := { exts := [{ len := 65536 }] }, views := [(7, { core := 127, len := 65536, blocked := true })] }) 4 (0x8000 + 127) 0 false).getD (0, up)).2, by decide +kernel⟩,
    ⟨coreRun { cores := [{ core := 127 }], views := [(7, { core := 127, len := 65536, chunks := [(4096, 3)] })] }, 127, 65535, 0, 7, 4096, 3, by decide +kernel⟩,
    ⟨coreRun { cores := [{ core := 127 }] }, 127, 65535, 0, 7, 4096, by decide +kernel⟩,
    ⟨coreRun { cores := [{ core := 127 }] }, 127, 65535, 0, by decide +kernel⟩⟩

theorem witness_MapCallRows :
    (∃ (s : State) (k : Nat) (c : Nat) (i : Nat) (h : Nat) (o : Nat) (n : Nat), k < 128 ∧ s.coreRuns k = some (c, i) ∧ (s.cmRange (s.ctx c).slice h o n = false ∨ n = 0))
    ∧ (∃ (s : State) (k : Nat) (c : Nat) (i : Nat) (h : Nat) (o : Nat) (n : Nat), k < 128 ∧ s.coreRuns k = some (c, i) ∧ s.cmRange (s.ctx c).slice h o n = true ∧ 1 ≤ n ∧ s.writersOf (s.ctx c).slice c = [])
    ∧ (∃ (s : State) (k : Nat) (c : Nat) (i : Nat) (h : Nat) (o : Nat) (n : Nat), k < 128 ∧ s.coreRuns k = some (c, i) ∧ s.cmRange (s.ctx c).slice h o n = true ∧ 1 ≤ n)
    ∧ (∃ (s : State) (k : Nat) (c : Nat) (i : Nat), k < 128 ∧ s.coreRuns k = some (c, i))
    ∧ (∃ (s : State) (k : Nat) (c : Nat) (i : Nat), k < 128 ∧ s.coreRuns k = some (c, i) ∧ s.atsOk c = false)
    ∧ (∃ (s : State) (k : Nat) (c : Nat) (i : Nat), k < 128 ∧ s.coreRuns k = some (c, i) ∧ s.atsOk c = false)
    ∧ (∃ (s : State) (k : Nat) (c : Nat) (i : Nat) (a : Nat) (d : List Byte), k < 128 ∧ s.coreRuns k = some (c, i) ∧ s.atsOk c = true ∧ (2 ^ 24 < d.length ∨ s.sandWritable c a d.length = false))
    ∧ (∃ (s : State) (k : Nat) (c : Nat) (i : Nat) (a : Nat) (d : List Byte), k < 128 ∧ s.coreRuns k = some (c, i) ∧ s.atsOk c = true ∧ (2 ^ 24 < d.length ∨ s.sandReadable c i a d.length = false))
    ∧ (∃ (s : State) (k : Nat) (c : Nat) (i : Nat) (a : Nat) (d : List Byte), k < 128 ∧ s.coreRuns k = some (c, i) ∧ s.atsOk c = true ∧ d.length ≤ 2 ^ 24 ∧ s.sandWritable c a d.length = true)
    ∧ (∃ (s : State) (k : Nat) (c : Nat) (i : Nat) (a : Nat) (d : List Byte), k < 128 ∧ s.coreRuns k = some (c, i) ∧ s.atsOk c = true ∧ d.length ≤ 2 ^ 24 ∧ s.sandReadable c i a d.length = true)
    ∧ (∃ (s : State) (k : Nat) (c : Nat) (i : Nat), k < 128 ∧ s.coreRuns k = some (c, i) ∧ s.atsOk c = true)
    ∧ (∃ (p : Nat), portOk p = true) := by
  refine ⟨⟨coreRun { cores := [{ core := 127 }] }, 127, 65535, 0, 5, 0, 2 ^ 22 + 1, by decide +kernel⟩,
    ⟨coreRun { cores := [{ core := 127 }] }, 127, 65535, 0, 5, 0, 2 ^ 22, by decide +kernel⟩,
    ⟨coreRun { cores := [{ core := 127 }] }, 127, 65535, 0, 5, 0, 2 ^ 22, by decide +kernel⟩,
    ⟨coreRun { cores := [{ core := 127 }] }, 127, 65535, 0, by decide +kernel⟩,
    ⟨coreRun { cores := [{ core := 127 }] }, 127, 65535, 0, by decide +kernel⟩,
    ⟨coreRun { cores := [{ core := 127 }] }, 127, 65535, 0, by decide +kernel⟩,
    ⟨coreRun { cores := [{ core := 127 }], desc := { memMib := 4 } } { compute with ports := [(0, { lstate := .up, atsEn := true })], pat := { eff := { testPat with slices := [{ ats := true }] } }, cpx := { compute.cpx with slices := [(0, { atsGrant := true })] } }, 127, 65535, 0, 0, [7], by decide +kernel⟩,
    ⟨coreRun { cores := [{ core := 127 }], desc := { memMib := 4 } } { compute with ports := [(0, { lstate := .up, atsEn := true })], pat := { eff := { testPat with slices := [{ ats := true }] } }, cpx := { compute.cpx with slices := [(0, { atsGrant := true })] } }, 127, 65535, 0, 0, [7], by decide +kernel⟩,
    ⟨coreRun { cores := [{ core := 127 }], desc := { memMib := 4 } } { compute with ports := [(0, { lstate := .up, atsEn := true })], pat := { eff := { testPat with slices := [{ ats := true }] } }, cpx := { compute.cpx with slices := [(0, { atsGrant := true })] } }, 127, 65535, 0, 0x100000000, [7], by decide +kernel⟩,
    ⟨coreRun { cores := [{ core := 127 }], desc := { memMib := 4 } } { compute with ports := [(0, { lstate := .up, atsEn := true })], pat := { eff := { testPat with slices := [{ ats := true }] } }, cpx := { compute.cpx with slices := [(0, { atsGrant := true })] } }, 127, 65535, 0, 0x100000000, [7], by decide +kernel⟩,
    ⟨coreRun { cores := [{ core := 127 }], desc := { memMib := 4 } } { compute with ports := [(0, { lstate := .up, atsEn := true })], pat := { eff := { testPat with slices := [{ ats := true }] } }, cpx := { compute.cpx with slices := [(0, { atsGrant := true })] } }, 127, 65535, 0, by decide +kernel⟩,
    ⟨1, by decide +kernel⟩⟩

theorem witness_CoreCallRows :
    (∃ (s : State) (k : Nat) (c : Nat) (i : Nat), k < 128 ∧ s.coreRuns k = some (c, i) ∧ (∀ p ∈ (s.job c).cores, p.output = [] ∧ p.held = []) ∧ (∃ m, m < (s.job c).cores.length ∧ m ≠ i ∧ ((s.job c).cores.getD m {}).exited = false ∧ ((s.job c).cores.getD m {}).barrier = false))
    ∧ (∃ (s : State) (k : Nat) (c : Nat) (i : Nat), k < 128 ∧ s.coreRuns k = some (c, i) ∧ (s.job c).desc.outKind < 3 ∧ (∀ m, m < (s.job c).cores.length → m ≠ i → ((s.job c).cores.getD m {}).exited = true))
    ∧ (∃ (s : State) (k : Nat) (c : Nat) (i : Nat) (v : Nat) (a : Nat), k < 128 ∧ s.coreRuns k = some (c, i) ∧ v < 2 ^ 32 ∧ a < 2 ^ 64)
    ∧ (∃ (s : State) (k : Nat) (c : Nat) (i : Nat) (d : List Byte) (t : State), k < 128 ∧ s.coreRuns k = some (c, i) ∧ heldOutput ((s.modCore c i (fun p => { (p.ret (s.atCall c i) d.length) with output := p.output ++ d })).job c).cores ≤ (s.job c).desc.memMib * 2 ^ 20 ∧ (s.modCore c i (fun p => { (p.ret (s.atCall c i) d.length) with output := p.output ++ d })).holdOutputs c = some t ∧ ((s.job c).desc.outKind = 0 ∨ (flowed ((s.modCore c i (fun p => { (p.ret (s.atCall c i) d.length) with output := p.output ++ d })).job c).cores).length ≤ s.outRoom c))
    ∧ (∃ (s : State) (k : Nat) (c : Nat) (i : Nat) (d : List Byte), k < 128 ∧ s.coreRuns k = some (c, i) ∧ (s.job c).desc.memMib * 2 ^ 20 < heldOutput ((s.modCore c i (fun p => { (p.ret (s.atCall c i) d.length) with output := p.output ++ d })).job c).cores)
    ∧ (∃ (s : State) (k : Nat) (c : Nat) (i : Nat) (d : List Byte), k < 128 ∧ s.coreRuns k = some (c, i) ∧ heldOutput ((s.modCore c i (fun p => { (p.ret (s.atCall c i) d.length) with output := p.output ++ d })).job c).cores ≤ (s.job c).desc.memMib * 2 ^ 20 ∧ (s.modCore c i (fun p => { (p.ret (s.atCall c i) d.length) with output := p.output ++ d })).holdOutputs c = none)
    ∧ (∃ (s : State) (k : Nat) (c : Nat) (i : Nat), k < 128 ∧ s.coreRuns k = some (c, i) ∧ (∃ m, m < (s.job c).cores.length ∧ m ≠ i ∧ ((s.job c).cores.getD m {}).exited = false ∧ ((s.job c).cores.getD m {}).barrier = false))
    ∧ (∃ (s : State) (k : Nat) (c : Nat) (i : Nat), k < 128 ∧ s.coreRuns k = some (c, i) ∧ (∀ m, m < (s.job c).cores.length → m ≠ i → ((s.job c).cores.getD m {}).exited = true ∨ ((s.job c).cores.getD m {}).barrier = true))
    ∧ (∃ (s : State) (k : Nat) (c : Nat) (i : Nat), k < 128 ∧ s.coreRuns k = some (c, i))
    ∧ (∃ (s : State) (k : Nat) (c : Nat) (i : Nat) (x : Nat), k < 128 ∧ s.coreJob k = some (c, i) ∧ x < 256)
    ∧ (∃ (k : Nat), k < 128) := by
  refine ⟨⟨coreRun { cores := [{ core := 127 }, { core := 126 }] }, 127, 65535, 0, by 
      exact ⟨by decide, by decide +kernel, by decide +kernel, 1, by decide +kernel⟩⟩,
    ⟨coreRun { cores := [{ core := 127 }, { core := 126, exited := true }] }, 127, 65535, 0, by decide +kernel⟩,
    ⟨coreRun { cores := [{ core := 127 }] }, 127, 65535, 0, 2 ^ 32 - 1, 2 ^ 64 - 1, by decide +kernel⟩,
    ⟨coreRun { desc := { kind := 2, memMib := 64, outKind := 1, outLimit := 1024 }, cores := [{ core := 127 }] }, 127, 65535, 0, [255], ((coreRun { desc := { kind := 2, memMib := 64, outKind := 1, outLimit := 1024 }, cores := [{ core := 127 }] }).modCore 65535 0 (fun p => { (p.ret ((coreRun { desc := { kind := 2, memMib := 64, outKind := 1, outLimit := 1024 }, cores := [{ core := 127 }] }).atCall 65535 0) 1) with output := p.output ++ [255] })), by decide +kernel⟩,
    ⟨coreRun { desc := { kind := 2, memMib := 0, outKind := 1 }, cores := [{ core := 126 }, { core := 127 }] }, 127, 65535, 1, [255], by decide +kernel⟩,
    ⟨{ coreRun { desc := { kind := 2, memMib := 64, outKind := 1 }, cores := [{ core := 126 }, { core := 127 }] } with bpm := up.bpm }, 127, 65535, 1, [255], by decide +kernel⟩,
    ⟨coreRun { cores := [{ core := 127 }, { core := 126 }] }, 127, 65535, 0, by decide +kernel⟩,
    ⟨coreRun { cores := [{ core := 127 }, { core := 126, exited := true }] }, 127, 65535, 0, by decide +kernel⟩,
    ⟨coreRun { cores := [{ core := 127 }] }, 127, 65535, 0, by decide +kernel⟩,
    ⟨coreRun { cores := [{ core := 127 }] }, 127, 65535, 0, 255, by decide +kernel⟩,
    ⟨127, by decide +kernel⟩⟩

theorem witness_ConfigRows :
    (∃ (n : Nat), n < 16)
    ∧ (∃ (sl : Nat) (n : Nat), sliceOk sl = true ∧ n < 2 ^ 18)
    ∧ (∃ (sl : Nat), sliceOk sl = true)
    ∧ (∃ (q : Nat) (sl : Nat) (i : Nat), q < 64 ∧ sl < 2048 ∧ i < 65536)
    ∧ (∃ (s : State) (p : Nat) (sl : Nat) (i : Nat) (j : Nat), portSliceOk p sl = true ∧ s.liveOn p sl = true ∧ s.flt.safe = false ∧ i < 65536 ∧ tfind s.cmd.oqs (fun _ o => o.en && o.halted && o.slice == sl && o.sqid == i) = some j)
    ∧ (∃ (s : State) (p : Nat) (sl : Nat) (i : Nat), portSliceOk p sl = true ∧ s.liveOn p sl = true ∧ s.flt.safe = false ∧ i < 65536 ∧ (∀ e ∈ s.cmd.oqs, ¬ (e.2.slice = sl ∧ e.2.sqid = i ∧ e.2.halted = true)))
    ∧ (∃ (s : State) (p : Nat) (sl : Nat), portSliceOk p sl = true ∧ (s.liveOn p sl = false ∨ s.flt.safe = true)) := by
  refine ⟨⟨15, by decide +kernel⟩,
    ⟨2047, 2 ^ 18 - 1, by decide +kernel⟩,
    ⟨2047, by decide +kernel⟩,
    ⟨63, 2047, 65535, by decide +kernel⟩,
    ⟨{ up with cmd := { up.cmd with oqs := [(63, { en := true, halted := true, sqid := 65535 })] } }, 1, 0, 65535, 63, by decide +kernel⟩,
    ⟨up, 1, 0, 65535, by decide +kernel⟩,
    ⟨{ up with flt := { up.flt with safe := true } }, 1, 2047, by decide +kernel⟩⟩

theorem witness_SidebandRows :
    (∃ (s : State) (e : Nat), e < 256 ∧ s.sbPath = (true, s))
    ∧ (∃ (s : State) (e : Nat), e < 256 ∧ s.sbPath = (true, s) ∧ s.sb.paused = false)
    ∧ (∃ (s : State) (e : Nat), e < 256 ∧ s.sbPath = (true, s) ∧ s.sb.paused = true)
    ∧ (∃ (s : State) (e : Nat) (v : Nat), e < 256 ∧ s.sbPath = (true, s) ∧ 1 ≤ v ∧ v < 255 ∧ s.sb.paused = false)
    ∧ (∃ (s : State) (e : Nat) (q : Sqe) (x : St), e < 256 ∧ s.sbPath = (true, s) ∧ s.pat.eff.sideband.mi = true ∧ s.sb.paused = false ∧ s.sbErr e q = some x)
    ∧ (∃ (s : State) (e : Nat), e < 256 ∧ s.sbPath = (true, s) ∧ s.pat.eff.sideband.mi = true)
    ∧ (∃ (s : State) (e : Nat) (m : SbMsg), e < 256 ∧ sbIsMi m = true ∧ s.pat.eff.sideband.mi = false ∧ s.sbPath = (true, s)) := by
  refine ⟨⟨up, 255, by decide +kernel⟩,
    ⟨up, 255, by decide +kernel⟩,
    ⟨{ up with sb := { up.sb with paused := true } }, 255, by decide +kernel⟩,
    ⟨up, 255, 254, by decide +kernel⟩,
    ⟨up, 255, { opc := 0xDC }, .sessionRequired, by decide +kernel⟩,
    ⟨up, 255, by decide +kernel⟩,
    ⟨{ up with pat := { eff := { testPat with sideband := { mi := false } } } }, 255, .subsystemHealth, by decide +kernel⟩⟩

theorem witness_RegisterRows :
    (∃ (a : Nat), 2 ^ 29 ≤ a)
    ∧ (∃ (s : State) (p : Nat) (a : Nat), a < 2 ^ 29 ∧ portOk p = true ∧ s.hasPort p = false)
    ∧ (∃ (s : State) (p : Nat) (v : Nat), portOk p = true ∧ s.hasPort p = true ∧ AllAwake [islAON, islCTL, islHFE, islCMI] s ∧ v < 2 ^ 64)
    ∧ (∃ (s : State) (p : Nat) (v : Nat), portOk p = true ∧ s.hasPort p = true ∧ AllAwake [islAON, islCTL, islHFE, islCMI] s ∧ v < 2 ^ 64)
    ∧ (∃ (s : State) (p : Nat) (v : Nat), portOk p = true ∧ s.hasPort p = true ∧ AllAwake [islAON, islCTL, islHFE, islCMI] s ∧ v < 2 ^ 64)
    ∧ (∃ (s : State) (p : Nat) (v : Nat) (i : Nat), portOk p = true ∧ s.hasPort p = true ∧ AllAwake [islAON, islCTL, islHFE, islCMI] s ∧ i < 72 ∧ v < 2 ^ 64)
    ∧ (∃ (s : State) (p : Nat) (v : Nat), portOk p = true ∧ s.hasPort p = true ∧ AllAwake [islAON, islCTL, islHFE, islCMI] s ∧ v < 2 ^ 64)
    ∧ (∃ (s : State) (p : Nat) (a : Nat) (w : Nat), portOk p = true ∧ s.hasPort p = true ∧ (s.isle islHFE).dstate = .on ∧ (s.isle islHFE).change = none ∧ (0x8000000 ≤ a ∧ a < 0xC000000 ∨ a < 0x8000000 ∧ (a % 0x10000 < 0x8000 ∨ 0x8FF0 ≤ a % 0x10000)) ∧ 1 ≤ w ∧ w < 4)
    ∧ (∃ (s : State) (p : Nat) (a : Nat) (w : Nat), portOk p = true ∧ s.hasPort p = true ∧ (s.isle islHFE).dstate = .on ∧ (s.isle islHFE).change = none ∧ 0x10000000 ≤ a ∧ a < 2 ^ 29 ∧ 1 ≤ w ∧ w ≤ 64)
    ∧ (∃ (s : State) (p : Nat) (v : Nat), portOk p = true ∧ s.hasPort p = true ∧ (s.isle islHFE).dstate = .on ∧ (s.isle islHFE).change = none ∧ v < 256) := by
  refine ⟨⟨2 ^ 29, by decide +kernel⟩,
    ⟨{ up with pat := { eff := { testPat with host := { split := 0 } } } }, 1, 0, by decide +kernel⟩,
    ⟨up, 1, 2 ^ 64 - 1, by unfold AllAwake; decide +kernel⟩,
    ⟨up, 1, 2 ^ 64 - 1, by unfold AllAwake; decide +kernel⟩,
    ⟨up, 1, 2 ^ 64 - 1, by unfold AllAwake; decide +kernel⟩,
    ⟨up, 1, 2 ^ 64 - 1, 71, by unfold AllAwake; decide +kernel⟩,
    ⟨up, 1, 2 ^ 64 - 1, by unfold AllAwake; decide +kernel⟩,
    ⟨up, 1, 0xC000000 - 1, 3, by decide +kernel⟩,
    ⟨up, 1, 0x1FFFFFFF, 64, by decide +kernel⟩,
    ⟨up, 1, 255, by decide +kernel⟩⟩

theorem witness_StepRunsFrontCommand :
    (∃ (c : Instr) (rest : List Instr) (s : State), s.pending = c :: rest)
    ∧ (∃ (s : State), s.pending = [] ∧ s.runningCores = [])
    ∧ (∃ (s : State), s.pending = [] ∧ s.runningCores ≠ []) := by
  refine ⟨⟨.adminReady, [.brownOut], { up with pending := [.adminReady, .brownOut] }, by decide +kernel⟩,
    ⟨up, by decide +kernel⟩,
    ⟨coreRun { desc := { kind := 2, memMib := 64, outKind := 1, outLimit := 1024 }, cores := [{ core := 127 }] }, by decide +kernel⟩⟩

theorem witness_CommandsComplete :
    (∃ (i : Instr), i.wellFormed = true)
    ∧ (∃ (i : Instr), i.wellFormed = false)
    ∧ (∃ (i : Instr) (s : State), exec i s = .fault .outsideBar0) := by
  refine ⟨⟨.counterFreeze 63, by decide +kernel⟩,
    ⟨.counterFreeze 64, by decide +kernel⟩,
    ⟨.registerWrite 0 (2 ^ 29) 8 0, up, by rfl⟩⟩

theorem witness_StepKeepsArrayCanonical : (∃ (s : State) (t : State), ArrayCanonical s ∧ step s = .next t) :=
  ⟨{ up with pending := [.counterFreeze 63, .adminReady] }, ({ up with grps := tset up.grps 63 { frozen := true, act := wsNow true }, pending := [.adminReady] } : State), by 
      exact ⟨by unfold ArrayCanonical; decide +kernel, by rfl⟩⟩

theorem witness_StepKeepsCounterKeys : (∃ (s : State) (t : State), CountersRising s ∧ step s = .next t) :=
  ⟨{ up with pending := [.counterFreeze 63, .adminReady] }, ({ up with grps := tset up.grps 63 { frozen := true, act := wsNow true }, pending := [.adminReady] } : State), by 
      exact ⟨by unfold CountersRising; decide +kernel, by rfl⟩⟩

theorem witness_CommandsLeaveQueue : (∃ (i : Instr) (s : State) (t : State), exec i s = .next t) :=
  ⟨.counterFreeze 63, { up with pending := [.counterFreeze 63, .adminReady] }, { up with grps := tset up.grps 63 { frozen := true, act := wsNow true }, pending := [.counterFreeze 63, .adminReady] }, by rfl⟩

theorem witness_AonStaysOn : (∃ (s : State) (t : State), (s.isle 0).dstate = .on ∧ (s.isle 0).change = none ∧ step s = .next t) :=
  ⟨{ up with pending := [.counterFreeze 63, .adminReady] }, ({ up with grps := tset up.grps 63 { frozen := true, act := wsNow true }, pending := [.adminReady] } : State), by 
      exact ⟨by decide +kernel, by decide +kernel, by rfl⟩⟩

theorem witness_SecurityStateFrame : (∃ (i : Instr) (s : State) (t : State), exec i s = .next t) :=
  ⟨.counterFreeze 63, up, { up with grps := tset up.grps 63 { frozen := true, act := wsNow true } }, by rfl⟩

theorem witness_RegisterBlockFrames :
    (∃ (i : Instr) (s : State) (t : State), exec i s = .next t)
    ∧ (∃ (i : Instr) (s : State) (t : State), exec i s = .next t)
    ∧ (∃ (i : Instr) (s : State) (t : State), exec i s = .next t)
    ∧ (∃ (i : Instr) (s : State) (t : State), exec i s = .next t) := by
  refine ⟨⟨.counterFreeze 63, up, { up with grps := tset up.grps 63 { frozen := true, act := wsNow true } }, by rfl⟩,
    ⟨.counterFreeze 63, up, { up with grps := tset up.grps 63 { frozen := true, act := wsNow true } }, by rfl⟩,
    ⟨.counterFreeze 63, up, { up with grps := tset up.grps 63 { frozen := true, act := wsNow true } }, by rfl⟩,
    ⟨.counterFreeze 63, up, { up with grps := tset up.grps 63 { frozen := true, act := wsNow true } }, by rfl⟩⟩

theorem witness_CounterGroups :
    (∃ (s : State) (p : Nat) (g : Nat) (v : Nat), portOk p = true ∧ s.hasPort p = true ∧ (s.isle islHFE).dstate = .on ∧ (s.isle islHFE).change = none ∧ (s.isle islCTL).dstate = .on ∧ (s.isle islCTL).change = none ∧ g < 64 ∧ v < 2 ^ 64)
    ∧ (∃ (g : Nat), g < 64)
    ∧ (∃ (s : State) (x : Nat) (sl : Option Nat) (i : Option Nat), x < 2048 ∧ optOk sliceOk sl = true ∧ optOk islOk i = true ∧ CountersRising s) := by
  refine ⟨⟨up, 1, 63, 2 ^ 64 - 1, by decide +kernel⟩,
    ⟨63, by decide +kernel⟩,
    ⟨{ up with ctrs := [(1008, { en := true }), (1023, {})], grps := [(63, { frozen := true })] }, 2047, none, none, by unfold CountersRising; decide +kernel⟩⟩

theorem witness_FetchSequence : (∃ (s : State) (dq : Nat) (c : Nat), dq ≤ 18432 ∧ s.mayFetch dq = true ∧ s.fetchTurn (s.queue dq) = true ∧ s.fetchAwake ((s.queue dq).qid == 0) = true ∧ s.ctxFor dq = some c) :=
  ⟨{ up with cmd := { up.cmd with queues := [(18432, { port := 1, sqOn := true, sqSize := 2, tail := 1 })], ctrls := [(2048, { en := true })], fseq := 2 ^ 64 - 2 } }, 18432, 0, by decide +kernel⟩

theorem witness_AbortLimit :
    (∃ (s : State) (c : Nat), c < 65536 ∧ s.adminTurn c 0x08 = true ∧ 8 ≤ s.abortsBefore (s.ctx c))
    ∧ (∃ (s : State) (c : Nat), c < 65536 ∧ s.adminTurn c 0x08 = true ∧ s.abortsBefore (s.ctx c) < 8) := by
  refine ⟨⟨State.setCtx ((List.range 8).foldl (fun t i => t.setCtx i { stage := 5, admin := true, opc := 0x08 }) up) 65535 { stage := 5, admin := true, opc := 0x08, fseq := 9 }, 65535, by decide +kernel⟩,
    ⟨adm 0x08 {}, 65535, by decide +kernel⟩⟩

end Sys2Proof.Machine
end

section
/-! PROOFS. The fetch sequence (04 R94): fetch alone numbers a command, and a command that ends keeps its number. -/

namespace Sys2Proof.Machine

/-- What a state says of fetch sequence numbers: the device's next one, and the one of each context. -/
def State.fseqs (s : State) : Nat × (Nat → Nat) := (s.cmd.fseq, fun d => (s.ctx d).fseq)

theorem State.fseqs_eq_iff {s t : State} : t.fseqs = s.fseqs ↔ t.cmd.fseq = s.cmd.fseq ∧ ∀ d, (t.ctx d).fseq = (s.ctx d).fseq := by
  simp [State.fseqs, funext_iff]

/-! Writes that keep every number. -/

theorem State.fseqs_of_cmd {s t : State} (h : t.cmd = s.cmd) : t.fseqs = s.fseqs := by simp [State.fseqs, State.ctx, h]

theorem State.setCtx_fseqs {s t : State} {c : Nat} {v : Ctx} (ht : t.fseqs = s.fseqs) (hv : v.fseq = (s.ctx c).fseq) :
    (t.setCtx c v).fseqs = s.fseqs := by
  obtain ⟨hnext, hctx⟩ := State.fseqs_eq_iff.1 ht
  refine State.fseqs_eq_iff.2 ⟨by simp [hnext], fun d => ?_⟩
  rw [State.setCtx_read]
  split
  · next hd => rw [hd, hv]
  · exact hctx d

theorem State.modCtx_fseqs {s t : State} {c : Nat} {f : Ctx → Ctx} (ht : t.fseqs = s.fseqs) (hf : ∀ x, (f x).fseq = x.fseq) :
    (t.modCtx c f).fseqs = s.fseqs := (State.setCtx_fseqs rfl (hf _)).trans ht

theorem State.tmapCtxs_fseqs (s : State) {f : Nat → Ctx → Ctx} (hf : ∀ d x, (f d x).fseq = x.fseq) :
    ({ s with cmd := { s.cmd with ctxs := tmap s.cmd.ctxs f } } : State).fseqs = s.fseqs := by
  refine State.fseqs_eq_iff.2 ⟨rfl, fun d => ?_⟩
  simp only [State.ctx, tval, tget_tmap]
  cases tget s.cmd.ctxs d with
  | none => rfl
  | some x => exact hf d x

/-! Frames that go back to their pools: a stalled request that is served then touches the buffers of its command alone. -/

theorem State.allocFrame_cmd {s : State} {cls unit slice : Nat} {first : Bool} {r : Nat × State}
    (h : s.allocFrame cls unit slice first = some r) : r.2.cmd = s.cmd := by
  have w := State.allocFrame_still s cls unit slice first h
  simp [w]

theorem State.serveStall_fseqs (s : State) : s.serveStall.fseqs = s.fseqs := by
  unfold State.serveStall
  split
  case h_1 => rfl
  case h_2 e rest _ =>
    split
    case h_1 => rfl
    case h_2 h t ha =>
      have ht : ({ t with bpm := { t.bpm with stalls := rest } } : State).fseqs = s.fseqs :=
        State.fseqs_of_cmd (State.allocFrame_cmd ha)
      dsimp only
      split
      · split
        · exact State.modCtx_fseqs ht fun _ => rfl
        · exact ht
      · split
        · exact (State.fseqs_of_cmd (by simp [State.modJob_still])).trans ht
        · exact ht
      · exact ht

theorem State.giveBack_fseqs (s : State) (k : Nat) : (s.frameBack k).serveStall.fseqs = s.fseqs :=
  (State.serveStall_fseqs _).trans (State.fseqs_of_cmd (by simp [State.frameBack_still]))

theorem State.freeAll_fseqs (s : State) (l : List Nat) : (s.freeAll l).fseqs = s.fseqs := by
  refine foldl_keeps State.fseqs l _ s fun t h => ?_
  split
  · exact State.giveBack_fseqs t _
  · rfl

theorem State.freeOwned_fseqs (s : State) (p : Nat → Bool) : (s.freeOwned p).fseqs = s.fseqs :=
  foldl_keeps State.fseqs _ _ s State.giveBack_fseqs

/-! A job that stops and an allocation that is taken back. -/

theorem State.releaseJob_fseqs (s : State) (c : Nat) : (s.releaseJob c).fseqs = s.fseqs := by
  unfold State.releaseJob
  split
  case h_1 => rfl
  case h_2 j _ =>
    have hf := State.freeAll_fseqs s j.frames
    by_cases hj : j.cores.isEmpty
    · simp only [hj, if_true]
      exact (State.fseqs_of_cmd rfl).trans hf
    · simp only [hj, Bool.false_eq_true, if_false]
      exact (State.fseqs_of_cmd rfl).trans ((State.freeOwned_fseqs _ _).trans hf)

theorem State.stopJob_fseqs (s : State) (c : Nat) : (s.stopJob c).fseqs = s.fseqs := by
  unfold State.stopJob
  split
  · exact (State.releaseJob_fseqs _ c).trans (State.fseqs_of_cmd (by simp [State.havocJob_still]))
  · rfl

theorem State.delAlloc_fseqs (s : State) (sl h : Nat) : (s.delAlloc sl h).fseqs = s.fseqs :=
  State.fseqs_of_cmd (by simp [State.delAlloc_still])

theorem State.undoCompute_fseqs (s : State) (c : Nat) : (s.undoCompute c).fseqs = s.fseqs := by
  unfold State.undoCompute
  dsimp only
  split
  · split
    · exact State.fseqs_of_cmd rfl
    · rw [State.delAlloc_fseqs, State.freeAll_fseqs]
      exact State.fseqs_of_cmd rfl
  · exact State.fseqs_of_cmd rfl

/-! What a command holds: its landed lines and its seat. -/

theorem State.dropPlaced_fseqs (s : State) (c : Nat) : (s.dropPlaced c).fseqs = s.fseqs :=
  State.setCtx_fseqs (State.fseqs_of_cmd (foldl_keeps State.cmd _ _ s fun t k => by simp [State.dropLine_still, State.hole_still])) rfl

theorem State.leaveDrain_fseqs (s : State) (r : Nat) : (s.leaveDrain r).fseqs = s.fseqs :=
  State.fseqs_of_cmd (by simp [State.leaveDrain_still])

theorem State.releaseSeat_fseqs (s : State) (c : Nat) : (s.releaseSeat c).fseqs = s.fseqs := by
  unfold State.releaseSeat
  dsimp only
  split
  · rw [State.leaveDrain_fseqs]
    exact State.setCtx_fseqs (State.fseqs_of_cmd (by simp [State.modRoute_still])) rfl
  · rfl

/-! A part in the projection of a zone that is withdrawn, with its rollback (05 R155). -/

theorem State.reproject_fseqs (s : State) (e : Nat) : (s.reproject e).fseqs = s.fseqs := by
  refine State.fseqs_of_cmd ?_
  unfold State.reproject
  split
  · simp [State.delProj_still]
  · simp [State.rebuildProj_still]

theorem State.voidCmd_fseqs (s : State) (e c : Nat) : (s.voidCmd e c).fseqs = s.fseqs := by
  unfold State.voidCmd
  dsimp only
  rw [apply_ite State.fseqs, foldl_keeps State.fseqs _ _ _ State.reproject_fseqs, ite_self]
  have hpart (f : Ctx → Ctx) (hf : ∀ y, (f y).fseq = y.fseq) : ((s.dropPlaced c).modCtx c f).fseqs = s.fseqs :=
    State.modCtx_fseqs (State.dropPlaced_fseqs s c) hf
  split
  · split
    · exact hpart _ fun y => by split <;> rfl
    · exact (State.reproject_fseqs _ _).trans (hpart _ fun y => by split <;> rfl)
  · exact hpart _ fun y => by split <;> rfl

theorem State.refreshGen_fseqs (s : State) (e : Nat) : (s.refreshGen e).fseqs = s.fseqs :=
  State.tmapCtxs_fseqs s fun _ x => by split <;> rfl

theorem State.voidRecorded_fseqs (s : State) (e : Nat) (c : Option Nat) : (s.voidRecorded e c).fseqs = s.fseqs :=
  State.tmapCtxs_fseqs s fun _ x => by split <;> rfl

theorem State.catchUpGen_fseqs (s : State) (e : Nat) : (s.catchUpGen e).fseqs = s.fseqs := by
  unfold State.catchUpGen
  split
  · rfl
  · split
    · rfl
    · exact (State.refreshGen_fseqs _ e).trans (State.fseqs_of_cmd (by simp [State.modZent_still]))

theorem State.advanceGen_fseqs (s : State) (e : Nat) (wait : Bool) : (s.advanceGen e wait).fseqs = s.fseqs :=
  State.fseqs_of_cmd (by simp [State.advanceGen_still])

theorem State.rollback_fseqs (s : State) (e f : Nat) : (s.rollback e f).fseqs = s.fseqs := by
  unfold State.rollback
  dsimp only
  rw [State.refreshGen_fseqs, State.advanceGen_fseqs, State.voidRecorded_fseqs,
    foldl_keeps State.fseqs _ _ _ fun t c => State.voidCmd_fseqs t e c]
  refine State.fseqs_of_cmd ?_
  split
  · simp [State.delProj_still]
  · simp [State.rebuildProj_still]

theorem State.unTake_fseqs (s : State) (e : Nat) : (s.unTake e).fseqs = s.fseqs := State.fseqs_of_cmd (by simp [State.unTake_still])

theorem State.withdraw_fseqs (s : State) (c : Nat) : (s.withdraw c).fseqs = s.fseqs := by
  unfold State.withdraw
  dsimp only
  rw [foldl_keeps State.fseqs _ _ _ State.catchUpGen_fseqs]
  refine (foldl_keeps State.fseqs _ _ _ fun t e => ?_).trans (State.setCtx_fseqs rfl rfl)
  split
  · exact State.unTake_fseqs t e
  · exact (State.unTake_fseqs _ e).trans (State.rollback_fseqs t e _)

/-! A command that ends. -/

theorem State.strip_fseqs (s : State) (c : Nat) : (s.strip c).fseqs = s.fseqs := by
  have h1 : ((((s.undoCompute c).withdraw c).dropPlaced c).releaseSeat c).fseqs = s.fseqs := by
    rw [State.releaseSeat_fseqs, State.dropPlaced_fseqs, State.withdraw_fseqs, State.undoCompute_fseqs]
  unfold State.strip
  dsimp only
  generalize (((s.undoCompute c).withdraw c).dropPlaced c).releaseSeat c = t at h1 ⊢
  rw [← h1]
  exact State.setCtx_fseqs (State.freeAll_fseqs _ _) rfl

theorem State.endErr_fseqs (s : State) (c : Nat) (e : St) : (s.endErr c e).fseqs = s.fseqs := by
  have ht : ((s.stopJob c).strip c).fseqs = s.fseqs := (State.strip_fseqs _ c).trans (State.stopJob_fseqs s c)
  unfold State.endErr State.endWith
  exact State.modCtx_fseqs ht fun _ => rfl

theorem State.finish_fseqs (s : State) (c : Nat) (o : Outc) : (s.finish c o).fseqs = s.fseqs := State.modCtx_fseqs rfl fun _ => rfl

/-! Fetch. -/

/-- The context that is filled takes the next number, and the counter moves on. -/
theorem State.fetchInto_fseq (s : State) (dq c : Nat) (e : Sqe) :
    ((s.fetchInto dq c e).ctx c).fseq = s.cmd.fseq ∧ (s.fetchInto dq c e).cmd.fseq = s.cmd.fseq + 1 := by
  refine ⟨?_, ?_⟩
  · simp [State.fetchInto, State.setCtx_read, State.newCtx]
  · simp [State.fetchInto, State.modSli_still]

/-- The state in which a fetched entry stands in its context, its opcode not decoded yet. -/
def State.fetched (s : State) (dq c : Nat) (e : Sqe) : State := ((s.powerWake).fetchCharge (s.queue dq)).fetchInto dq c e

theorem State.fetched_fseq (s : State) (dq c : Nat) (e : Sqe) :
    ((s.fetched dq c e).ctx c).fseq = s.cmd.fseq ∧ (s.fetched dq c e).cmd.fseq = s.cmd.fseq + 1 := by
  have hcmd : ((s.powerWake).fetchCharge (s.queue dq)).cmd = s.cmd := by simp [State.fetchCharge_still, State.powerWake_still]
  simpa only [State.fetched, hcmd] using State.fetchInto_fseq ((s.powerWake).fetchCharge (s.queue dq)) dq c e

/-- What decode makes of an entry that is fetched keeps its number, be it admitted or refused. -/
theorem sqFetch_gives_fetched {s : State} {dq c : Nat} {e : Sqe} (hdq : dq ≤ 18432) (hmay : s.mayFetch dq = true)
    (hturn : s.fetchTurn (s.queue dq) = true) (hawake : s.fetchAwake ((s.queue dq).qid == 0) = true) (hc : s.ctxFor dq = some c) :
    Gives (.sqFetch dq e) s (fun u => u.fseqs = (s.fetched dq c e).fseqs) := by
  refine gives_guard (ok := dqOk dq) rfl (by simpa [dqOk] using hdq) ?_
  simp only [hmay, hturn, hawake, hc, Bool.not_true, Bool.or_self, Bool.false_eq_true, if_false]
  split
  · split
    · exact State.finish_fseqs _ c _
    · exact State.modCtx_fseqs rfl fun _ => rfl
  · split
    · exact State.endErr_fseqs _ c _
    · rfl

/-- Settles O59: fetch numbers the context from the device's one counter, which does not wrap in the model (log 27), and decode keeps
the number. -/
theorem fetchSequence : Obligations.FetchSequence := by
  intro s dq c e hdq hmay hturn hawake hc
  obtain ⟨u, hu, hkeep⟩ := sqFetch_gives_fetched (e := e) hdq hmay hturn hawake hc
  obtain ⟨hnext, hctx⟩ := State.fseqs_eq_iff.1 hkeep
  obtain ⟨htaken, hmoved⟩ := State.fetched_fseq s dq c e
  exact ⟨u, hu, (hctx c).trans htaken, hnext.trans hmoved⟩

end Sys2Proof.Machine
end

section
/-! PROOFS. The limit of outstanding Aborts (04 R124). -/

namespace Sys2Proof.Machine

theorem State.finish_ended (t : State) (c : Nat) (o : Outc) : Ended c o (t.finish c o) := by
  simp [Ended, State.finish, State.modCtx_read]

/-- An Abort beyond the limit is refused, whatever it names. -/
theorem abort_refused {s : State} {c : Nat} (hc : c < 65536) (hturn : s.adminTurn c 0x08 = true) (hfull : 8 ≤ s.abortsBefore (s.ctx c)) :
    Gives (.abort c) s (fun u => u = s.finish c (errOut .abortLimit)) :=
  gives_guard (ok := ctxOk c) rfl (by simpa [ctxOk] using hc) (by simp only [hturn, hfull, if_true])

/-- An Abort within the limit aborts its target and answers 0, or finds none that can be aborted, changes nothing else and answers 1. -/
theorem abort_taken {s : State} {c : Nat} (hc : c < 65536) (hturn : s.adminTurn c 0x08 = true) (hroom : s.abortsBefore (s.ctx c) < 8) :
    Gives (.abort c) s (fun u => (∃ t, s.abortTarget (s.ctx c) = some t ∧ u = (s.abortCtx t).finish c (okOut 0)) ∨ u = s.finish c (okOut 1)) := by
  refine gives_guard (ok := ctxOk c) rfl (by simpa [ctxOk] using hc) ?_
  simp only [hturn, Nat.not_le.2 hroom, if_true, if_false]
  cases s.abortTarget (s.ctx c) with
  | none => exact .inr rfl
  | some t =>
    dsimp only
    split
    · exact .inl ⟨t, rfl, rfl⟩
    · exact .inr rfl

/-- Settles O60: the refusal and the two answers of an Abort, and the limit less one that Identify Controller lists at byte 258. -/
theorem abortLimit : Obligations.AbortLimit := by
  refine ⟨fun s c hc hturn hfull => ?_, fun s c hc hturn hroom => ?_, fun s sl p => ⟨_, rfl, by simp⟩⟩
  · obtain ⟨u, hu, rfl⟩ := abort_refused hc hturn hfull
    exact ⟨_, hu, State.finish_ends rfl, State.finish_eq s c _⟩
  · obtain ⟨u, hu, ⟨t, _, rfl⟩ | rfl⟩ := abort_taken hc hturn hroom
    · exact ⟨_, hu, .inl (State.finish_ended _ c _)⟩
    · exact ⟨_, hu, .inr (State.finish_ended _ c _)⟩

end Sys2Proof.Machine
end

section
/-! PROOFS. Table laws of the counters: a table as a set of entries, and a change of several entries at once. -/

namespace Sys2Proof.Machine

/-- In a table that lists a key once, the entries are what a read of their keys gives. -/
theorem mem_iff_tget {α : Type} {t : Tbl α} (h : (t.map (·.1)).Nodup) {k : Nat} {v : α} : (k, v) ∈ t ↔ tget t k = some v := by
  induction t with
  | nil => simp [tget]
  | cons e t ih =>
    obtain ⟨j, w⟩ := e
    obtain ⟨hj, ht⟩ := List.nodup_cons.1 h
    simp only [List.mem_cons, Prod.mk.injEq, tget]
    split
    · next hjk =>
      subst hjk
      have hnot : (j, v) ∉ t := fun hm => hj (List.mem_map.2 ⟨_, hm, rfl⟩)
      simp [hnot, eq_comm]
    · next hjk => simp [Ne.symm hjk, ih ht]

/-- The keys whose entries pass a test that an unlisted key fails. -/
theorem mem_filter_keys_iff {α : Type} [Inhabited α] {t : Tbl α} (h : (t.map (·.1)).Nodup) {p : Nat × α → Bool} {k : Nat}
    (hp : p (k, default) = false) : k ∈ (t.filter p).map (·.1) ↔ p (k, tval t k) = true := by
  have hmem : k ∈ (t.filter p).map (·.1) ↔ ∃ v, tget t k = some v ∧ p (k, v) = true := by simp [mem_iff_tget h]
  rw [hmem, tval]
  cases tget t k with
  | none => simp [hp]
  | some v => simp

/-- One change applied at each of several keys changes the entries of these keys alone. -/
theorem tval_foldl_tmod {α : Type} [Inhabited α] (f : α → α) {l : List Nat} (h : l.Nodup) (t : Tbl α) (k : Nat) :
    tval (l.foldl (fun t i => tmod t i f) t) k = if k ∈ l then f (tval t k) else tval t k := by
  induction l generalizing t with
  | nil => simp
  | cons a l ih =>
    obtain ⟨ha, hl⟩ := List.nodup_cons.1 h
    rw [List.foldl_cons, ih hl, tval_tmod]
    by_cases hk : k = a
    · subst hk; simp [ha]
    · simp [hk]

end Sys2Proof.Machine
end

section
/-! PROOFS. The event counters and their groups (R373 to R375). -/

namespace Sys2Proof.Machine

/-! A snapshot. -/

/-- A counter whose count is copied into its EVC_SNAP. -/
def Ctr.snapped (c : Ctr) : Ctr := { c with snap := c.cnt }

/-- SNAP changes the counters alone. -/
theorem State.snapGroup_eq (s : State) (g : Nat) : s.snapGroup g = { s with ctrs := (s.snapGroup g).ctrs } := by
  dsimp only [State.snapGroup]

@[simp] theorem State.snapGroup_grp (s : State) (g j : Nat) : (s.snapGroup g).grp j = s.grp j := by simp [State.grp, State.snapGroup_still]

theorem mem_groupKeys_iff (g k : Nat) : k ∈ (List.range 16).map (16 * g + ·) ↔ k / 16 = g := by
  simp only [List.mem_map, List.mem_range]
  exact ⟨fun ⟨i, hi, hk⟩ => by omega, fun hk => ⟨k % 16, by omega, by omega⟩⟩

theorem State.snapGroup_ctr (s : State) (g k : Nat) : (s.snapGroup g).ctr k = if k / 16 = g then (s.ctr k).snapped else s.ctr k := by
  have hfold : (s.snapGroup g).ctrs = ((List.range 16).map (16 * g + ·)).foldl (fun t i => tmod t i Ctr.snapped) s.ctrs := by
    simp only [State.snapGroup, List.foldl_map, tmod, Ctr.snapped]
  have hkeys : ((List.range 16).map (16 * g + ·)).Nodup := List.Pairwise.map _ (fun i j hij => by omega) List.nodup_range
  simp only [State.ctr, hfold, tval_foldl_tmod _ hkeys, mem_groupKeys_iff]

/-! FREEZE. -/

/-- A write of a group leaves the counters. -/
@[simp] theorem State.setGrp_ctrs (s : State) (g : Nat) (v : CtrGrp) : (s.setGrp g v).ctrs = s.ctrs := rfl
@[simp] theorem State.setGrp_ctr (s : State) (g : Nat) (v : CtrGrp) (k : Nat) : (s.setGrp g v).ctr k = s.ctr k := rfl
@[simp] theorem State.freezeGroup_ctr (s : State) (g : Nat) (v : Bool) (k : Nat) : (s.freezeGroup g v).ctr k = s.ctr k := rfl

theorem State.freezeGroup_grp (s : State) (g : Nat) (v : Bool) (j : Nat) :
    (s.freezeGroup g v).grp j = if j = g then { (s.grp g) with frozen := v, act := wsNow true } else s.grp j := State.setGrp_read s g _ j

/-- FREEZE changes the groups alone. -/
theorem State.freezeGroup_eq (s : State) (g : Nat) (v : Bool) : s.freezeGroup g v = { s with grps := (s.freezeGroup g v).grps } := rfl

/-- COUNTER_FREEZE and COUNTER_UNFREEZE differ in `v` alone. -/
theorem freezeGroup_gives {i : Instr} {s : State} {g : Nat} {v : Bool} (hrow : exec i s = guardUnit s (decide (g < 64)) (s.freezeGroup g v))
    (hg : g < 64) : Gives i s (fun u => (u.grp g).frozen = v ∧ (∀ j, j ≠ g → u.grp j = s.grp j) ∧ u = { s with grps := u.grps }) := by
  refine gives_guard hrow (decide_eq_true hg) ⟨?_, fun j hj => ?_, State.freezeGroup_eq s g v⟩
  · rw [State.freezeGroup_grp, if_pos rfl]
  · rw [State.freezeGroup_grp, if_neg hj]

/-! A count. -/

/-- A counter after one count: 1 for an event, 10 for a sample of a level (R373). -/
def Ctr.counted (level : Bool) (c : Ctr) : Ctr := { c with cnt := (c.cnt + if level then 10 else 1) % 2 ^ 64 }

/-- A count changes the table of counters at its own key alone, with or without the threshold's interrupt. -/
theorem State.bumpCtr_ctrs (s : State) (k : Nat) (level : Bool) : (s.bumpCtr k level).ctrs = tmod s.ctrs k (Ctr.counted level) := by
  simp only [State.bumpCtr, apply_ite State.ctrs, State.managerIrq_still, State.setGrp_ctrs, ite_self]
  rfl

/-- Counts at several counters change each of these once. -/
theorem State.foldl_bumpCtr_ctr {l : List Nat} (h : l.Nodup) (s : State) (level : Bool) (k : Nat) :
    (l.foldl (fun t k => t.bumpCtr k level) s).ctr k = if k ∈ l then (s.ctr k).counted level else s.ctr k := by
  have hfold : (l.foldl (fun t k => t.bumpCtr k level) s).ctrs = l.foldl (fun t k => tmod t k (Ctr.counted level)) s.ctrs :=
    (List.foldl_hom State.ctrs fun t k => (State.bumpCtr_ctrs t k level).symm).symm
  simp only [State.ctr, hfold, tval_foldl_tmod _ h]

/-- A counter that reset leaves counts nothing: it is not enabled. -/
theorem Ctr.default_takes (x : Nat) (sl i : Option Nat) (level : Bool) : (default : Ctr).takes x sl i level = false := rfl

/-- The one rule of COUNTER_EVENT: a counter that takes the event and whose group is not frozen counts it once, and no other changes. -/
theorem counterEvent_gives {s : State} {x : Nat} {sl i : Option Nat} {level : Bool} (hx : x < 2048) (hsl : optOk sliceOk sl = true)
    (hi : optOk islOk i = true) (hrise : CountersRising s) :
    Gives (.counterEvent x sl i level) s (fun u => ∀ k, u.ctr k =
      if (s.ctr k).takes x sl i level = true ∧ (s.grp (k / 16)).frozen = false then (s.ctr k).counted level else s.ctr k) := by
  refine gives_guard rfl (by simp [hx, hsl, hi]) fun k => ?_
  have hkeys : (s.ctrs.map (·.1)).Nodup := hrise.imp Nat.ne_of_lt
  rw [State.foldl_bumpCtr_ctr ((List.filter_sublist.map _).nodup hkeys)]
  have hcounts : k ∈ (s.ctrs.filter fun e => e.2.takes x sl i level && !(s.grp (e.1 / 16)).frozen).map (·.1) ↔
      (s.ctr k).takes x sl i level = true ∧ (s.grp (k / 16)).frozen = false :=
    (mem_filter_keys_iff hkeys (by simp [Ctr.default_takes])).trans (by simp [State.ctr])
  simp only [hcounts]

/-! EVC_GRP. -/

/-- A whole 64-bit write in the DMS that finds HFE on reaches the register at its offset. -/
theorem registerWrite_dms_gives {s : State} {p r v : Nat} {P : State → Prop} (hp : portOk p = true) (hport : s.hasPort p = true)
    (hon : (s.isle islHFE).dstate = .on) (hstill : (s.isle islHFE).change = none) (hr8 : r % 8 = 0) (hr : r < 0x4000000)
    (hv : v < 2 ^ 64) (h : P (s.dmsWrite p r true true v)) : Gives (.registerWrite p (0x8000000 + r) 8 v) s P := by
  have haddr : ¬ 2 ^ 29 ≤ 0x8000000 + r := by omega
  have hexec : exec (.registerWrite p (0x8000000 + r) 8 v) s =
      guardUnit s (portOk p && decide (1 ≤ 8) && decide (8 ≤ 64))
        (if s.hasPort p then (s.access islHFE).mmioWrite p (0x8000000 + r) 8 v else s) := if_neg haddr
  have hwrite : s.mmioWrite p (0x8000000 + r) 8 v = s.dmsWrite p r true true v := by
    have h8 : (0x8000000 + r) % 8 = 0 := by omega
    have hoff : (0x8000000 + r) / 8 * 8 - 0x8000000 = r := by omega
    have hlow : ¬ 0x8000000 + r < 0x8000000 := by omega
    have hdms : 0x8000000 + r < 0xC000000 := by omega
    have hv8 : v % 2 ^ (8 * 8) = v := Nat.mod_eq_of_lt hv
    simp [State.mmioWrite, h8, hoff, hlow, hdms, hv8, -Nat.reduceMul, -Nat.reducePow]
  refine gives_guard hexec (by simp [hp]) ?_
  rwa [if_pos hport, State.access_awake hon hstill, hwrite]

/-- A register of the event counters lies in CTL; when CTL is on too, the write has the register's effect alone. -/
theorem State.dmsWrite_evc {s : State} {p o v : Nat} {lo hi : Bool} (ho : o < 0x100000) (hon : (s.isle islCTL).dstate = .on)
    (hstill : (s.isle islCTL).change = none) : s.dmsWrite p (0x1200000 + o) lo hi v = s.evcWrite o lo hi v := by
  have hblock : (0x1200000 + o) / 0x100000 = 0x12 := by omega
  have hoff : (0x1200000 + o) % 0x100000 = o := by omega
  have hisl : dmsIsl (0x1200000 + o) = islCTL := by simp only [dmsIsl, hblock]
  simp only [State.dmsWrite, hisl, State.access_awake hon hstill, hblock, hoff]

/-- A write of EVC_GRP: written ones clear HIT, SNAP copies, and FREEZE is set as written (R375). -/
def State.writeGroup (s : State) (g v : Nat) : State :=
  let s1 := s.setGrp g { (s.grp g) with hit := w1c (s.grp g).hit (bitsAt v 4 16) 16, snapW := (s.grp g).snapW || bitAt v 0 }
  (if bitAt v 0 then s1.snapGroup g else s1).freezeGroup g (bitAt v 1)

theorem State.evcWrite_group {s : State} {g v : Nat} {hi : Bool} (hg : g < 64) :
    s.evcWrite (0x10000 + 8 * g) true hi v = s.writeGroup g v := by
  have hctr : ¬ 0x10000 + 8 * g < 0x8000 := by omega
  have hgrp : 0x10000 ≤ 0x10000 + 8 * g ∧ 0x10000 + 8 * g < 0x10200 := by omega
  have hidx : (0x10000 + 8 * g - 0x10000) / 8 = g := by omega
  simp only [State.evcWrite, if_neg hctr, hgrp, hidx, and_self, if_true]
  rfl

theorem State.writeGroup_ctr (s : State) (g v k : Nat) :
    (s.writeGroup g v).ctr k = if v % 2 = 1 ∧ k / 16 = g then (s.ctr k).snapped else s.ctr k := by
  have hsnap : bitAt v 0 = decide (v % 2 = 1) := Nat.testBit_zero v
  simp only [State.writeGroup, State.freezeGroup_ctr, hsnap, decide_eq_true_eq]
  split
  · next hb => simp [State.snapGroup_ctr, hb]
  · next hb => simp [hb]

theorem State.writeGroup_grp (s : State) (g v j : Nat) :
    (s.writeGroup g v).grp j = if j = g then
      { (s.grp g) with hit := w1c (s.grp g).hit (bitsAt v 4 16) 16, snapW := (s.grp g).snapW || bitAt v 0, frozen := bitAt v 1, act := wsNow true }
      else s.grp j := by
  have hread (x : CtrGrp) (i : Nat) :
      (if bitAt v 0 then (s.setGrp g x).snapGroup g else s.setGrp g x).grp i = if i = g then x else s.grp i := by
    split <;> simp [State.setGrp_read]
  by_cases hj : j = g <;> simp [State.writeGroup, State.freezeGroup_grp, hread, hj]

/-- A write of EVC_GRP changes counters and groups alone. -/
theorem State.writeGroup_eq (s : State) (g v : Nat) :
    s.writeGroup g v = { s with ctrs := (s.writeGroup g v).ctrs, grps := (s.writeGroup g v).grps } := by
  unfold State.writeGroup
  dsimp only
  split
  · rw [State.snapGroup_eq]
    generalize (State.snapGroup _ g).ctrs = c
    rfl
  · rfl

/-- Settles O58: a write of EVC_GRP reaches the group's register and acts as `State.writeGroup` says, with GRP_ACT answering DONE (log
161); the three group commands are its parts; an event counts, modulo 2^64, where a counter takes it and its group is not frozen
(R373 to R375). -/
theorem counterGroups : Obligations.CounterGroups := by
  refine ⟨?write, fun s g hg => ⟨?snapshot, freezeGroup_gives rfl hg, freezeGroup_gives rfl hg⟩, ?event⟩
  case write =>
    intro s p g v hp hport hhfe hhfeStill hctl hctlStill hg hv
    have hreg : s.dmsWrite p (0x1200000 + (0x10000 + 8 * g)) true true v = s.writeGroup g v :=
      (State.dmsWrite_evc (by omega) hctl hctlStill).trans (State.evcWrite_group hg)
    have haddr : 0x9210000 + 8 * g = 0x8000000 + (0x1200000 + (0x10000 + 8 * g)) := by omega
    rw [haddr]
    refine registerWrite_dms_gives hp hport hhfe hhfeStill (by omega) (by omega) hv ?_
    rw [hreg]
    refine ⟨State.writeGroup_ctr s g v, ?_, fun j hj => ?_, State.writeGroup_eq s g v⟩
    · rw [State.writeGroup_grp, if_pos rfl]
    · rw [State.writeGroup_grp, if_neg hj]
  case snapshot =>
    refine gives_guard rfl (decide_eq_true hg) ⟨fun k hk => ?_, fun k hk => ?_, ?_⟩
    · simp [State.setGrp_ctr, State.snapGroup_ctr, hk, Ctr.snapped]
    · simp [State.setGrp_ctr, State.snapGroup_ctr, hk]
    · rw [State.snapGroup_eq]
      generalize (State.snapGroup s g).ctrs = c
      rfl
  case event =>
    intro s x sl i level hx hsl hi hrise
    obtain ⟨u, hu, hctr⟩ := counterEvent_gives hx hsl hi hrise
    refine ⟨u, hu, fun k hfrozen => ?_, fun k hruns htakes => ?_⟩
    · rw [hctr, if_neg (by simp [hfrozen])]
    · rw [hctr, if_pos ⟨htakes, hruns⟩]
      rfl

end Sys2Proof.Machine
end
